-- ==== Sys2Proof/Word.lean ====
section
/-! DEFINITION. The word types of the LM960 (00 R6: little-endian, bit 0 least significant). -/

namespace Sys2Proof

/-- One byte of a register, descriptor, record or memory. -/
abbrev Byte := BitVec 8
/-- A 32-bit register or FP32 word. -/
abbrev W32 := BitVec 32
/-- A 64-bit register or counter; counters wrap modulo 2^64. -/
abbrev W64 := BitVec 64

end Sys2Proof
end

