-- ==== Sys2Proof/Syntax.lean ====
section
/-! DEFINITION. The commands the block takes: one constructor of Instr per row of the table of
operations and events, and the plain operand types they carry. -/

namespace Sys2Proof

/-- The three sources of settlement batches, one STL page each (02 R67, 22 R638); also the path of a write. -/
inductive Src where
  | host | smbus | internal
  deriving DecidableEq, Repr

/-- The blocks whose counters one low-word read latches (18 R550). -/
inductive NetBlk where
  | net0 | net1 | lnk
  deriving DecidableEq, Repr

/-- The three service classes of the arbiters (01 R19). -/
inductive Cls where
  | realTime | bulk | background
  deriving DecidableEq, Repr

/-- What the controller's SECDED finds in a read word (16 R490, 07 R243). -/
inductive Secded where
  | clean | single | uncorrectable
  deriving DecidableEq, Repr

/-- The memory access a granted request performs. -/
inductive MemOp where
  | idle
  | read (addr n : Nat) (onDie : Bool) (ecc : Secded) (dest : Option Nat)
  | write (addr : Nat) (bytes : List Byte) (mark : Bool)
  deriving DecidableEq, Repr

/-- The ports of DRAM, in the order of their table (16 R484). -/
inductive DramPort where
  | ingestWrites | decodeFetch | decodeWrites | zonePath | ledger | guardUnits | engines | gallery | transfers | background | upkeep
  deriving DecidableEq, Repr

/-- One request waiting at the chip arbiter or a region crossbar: the requester, its class where it does not go to DRAM, how long it
has waited (ns at the chip arbiter, compute cycles at a crossbar), its DRAM port, how full its prefetch buffer is in percent, and its
access. -/
structure ArbReq where
  who : Nat
  cls : Cls
  waited : Nat
  port : DramPort
  fill : Nat
  op : MemOp
  deriving DecidableEq, Repr

/-- The four requesters of an engine memory bank, in their fixed order (01 R23). -/
inductive BankUser where
  | compute | halo | dma | audit
  deriving DecidableEq, Repr

/-- One request waiting at an engine memory bank. -/
structure BankReq where
  who : BankUser
  waited : Nat
  op : MemOp
  deriving DecidableEq, Repr

/-- A lane of a bridge: lanes 0 to 383 and the spares' lanes of one direction, 384 upward of the other (01 R14). -/
structure BridgeLane where
  bridge : Nat
  lane : Nat
  deriving DecidableEq, Repr

/-- The end of a clearing command: its engine and the compute cycles it took (11 R337, 03 R127). -/
structure ClrDone where
  engine : Nat
  cycles : Nat
  deriving DecidableEq, Repr

/-- What the two lanes of the zone path built: for each, the deviation of its digest from that of the tensor, 0 when the lane
built it right (15 R451). -/
structure ZoneLanes where
  lane0 : Nat
  lane1 : Nat
  deriving DecidableEq, Repr

/-- What one cell reports as its bank finishes checking (07 R238, R239): words corrected, words uncorrectable, and whether a
fault has changed its tag. -/
structure BankCheck where
  cell : Nat
  corrected : Nat
  uncorrectable : Nat
  badTag : Bool
  deriving DecidableEq, Repr

/-- Units that load a settlement's new set and acknowledge (02 R73). -/
inductive StlUnit where
  | region (g : Nat) | clearing (r : Nat) | ingest | decode | preproc | encode | journal | time | safety
  | net (n : Nat)
  deriving DecidableEq, Repr

/-- The data of a PTP Announce message the master selection compares (03 R97). -/
structure Announce where
  priority1 : Nat
  clockClass : Nat
  accuracy : Nat
  variance : Nat
  priority2 : Nat
  identity : Nat
  stepsRemoved : Nat
  sender : Nat
  logInterval : Int
  utcOffset : Int
  deriving DecidableEq, Repr

/-- The Pdelay messages of the peer-to-peer profile (03 R97). -/
inductive Pdelay where
  | req | resp (requestReceipt : Int) | respFollowUp (responseOrigin : Int)
  deriving DecidableEq, Repr

/-- Energies measured in the last millisecond, in nanojoules (03 R127). -/
structure Energy where
  cd0 : Nat
  cd1 : Nat
  media : Nat
  dram : Nat
  idle : Nat
  deriving DecidableEq, Repr

/-- What a received Ethernet frame is, after its tags (18 R529). -/
inductive FrameKind where
  | ptp | arp (target : Nat) | neighborSolicitation (target : Nat) | sanor (domain : Nat)
  | udp (port : Nat) (ingestMatch : Bool) | pause | other
  deriving DecidableEq, Repr

/-- A received Ethernet frame (18 R527, R529). -/
structure Frame where
  size : Nat
  tags : Nat
  fcsError : Bool
  kind : FrameKind
  deriving DecidableEq, Repr

/-- The random-access points of 04 R153: IDR and recovery point of H.264, IDR, CRA and BLA of H.265, key frame of AV1. -/
inductive Rap where
  | no | idr | cra | bla | recoveryPoint | keyFrame
  deriving DecidableEq, Repr

/-- An IP datagram offered to ingest (04 R142, R143): the port it came in at, what its IP header says (`proto` is the IP
protocol number, `routing` a routing header), and the bytes of its payload, which of a UDP datagram is an RTP packet. -/
structure Datagram where
  port : Nat
  ipv6 : Bool
  dest : Nat
  udpPort : Nat
  proto : Nat
  routing : Bool
  fragment : Bool
  checksumOk : Bool
  payload : List Byte
  deriving DecidableEq, Repr

/-- The error classes of decoding (04 R151). -/
inductive ErrClass where
  | l | s | h | p | f | d | m | b | w | v
  deriving DecidableEq, Repr

/-- The colour description of a picture: full range, and the matrix (0 BT.601, 1 BT.709, 2 BT.2020), none when the bitstream
states none (05 R171). -/
structure Colour where
  fullRange : Bool
  matrix : Option Nat
  deriving DecidableEq, Repr

/-- What a parameter set or sequence header declares: profile code, level, bit depth, interlacing, chroma format 4:2:0, the
size of a picture and its pictures in the DPB, the side of a CTU (04 R647), the samples cropped at the four edges (R159) and
the colour description. -/
structure SeqParams where
  profile : Nat
  level : Nat
  depth : Nat
  interlaced : Bool
  chroma420 : Bool
  width : Nat
  height : Nat
  dpb : Nat
  ctu : Nat
  cropLeft : Nat
  cropRight : Nat
  cropTop : Nat
  cropBottom : Nat
  colour : Colour
  deriving DecidableEq, Repr

/-- An access of a decode engine to memory, and the CTU it made it for (04 R141). -/
structure DecAccess where
  ctu : Nat
  write : Bool
  addr : Nat
  n : Nat
  deriving DecidableEq, Repr

/-- How a picture's decoding ended, as the decode engine meets it in the bitstream (04 R151 to R157, R160): the classes among
L, S, H and M of the errors it detected, the parameter sets of the access unit by identifier (none: in error) and the one
the picture refers to, the CTUs whose data was not completely decoded, the accesses the window check looks at, the place of
the picture in output order, and how many pictures leave in that order at this boundary. -/
structure PictureOutcome where
  errors : List ErrClass
  params : List (Nat × Option SeqParams)
  uses : Nat
  lost : List Nat
  accesses : List DecAccess
  errorOffset : Option Nat
  cycles : Nat
  rasl : Bool
  inRecovery : Bool
  parameterSetsOnly : Bool
  order : Nat
  leaving : Nat
  deriving DecidableEq, Repr

/-- A box in level-0 coordinates, x1 and y1 exclusive (11 R340). -/
structure Box where
  x0 : Int
  y0 : Int
  x1 : Int
  y1 : Int
  deriving DecidableEq, Repr

/-- A tile as the region controller issues it to an engine: the 128 command bytes, the descriptor table,
the account and stream it works for, the batch step, and the model it belongs to (08 R261, R263). -/
structure TileIssue where
  cmd : List Byte
  descBase : Nat
  descCount : Nat
  account : Nat
  stream : Nat
  segment : Nat
  step : Nat
  epoch : Nat
  zone : Bool
  adaptation : Bool
  inBatch : Bool
  /-- the unstaffed logical index whose tile it is; none for the index of the engine itself (01 R35) -/
  index : Option Nat := none
  deriving DecidableEq, Repr

/-- Which memory a scrub word belongs to (14 R413). -/
inductive ScrubArea where
  | region (g : Nat) | ledgerCache (r : Nat)
  deriving DecidableEq, Repr

/-- One engine's pseudo-random assay digest and fixed-part result (14 R428, R429). -/
structure AssayResult where
  engine : Nat
  fixedOk : Bool
  correctedErrors : Nat
  digest : Nat
  deriving DecidableEq, Repr

/-- An output of a zone evaluation with its identifiers (15 R454). `none` codes: it failed without output. -/
structure ZoneOutput where
  stream : Nat
  tick : Nat
  epoch : Nat
  mapping : Nat
  engine : Nat
  codes : Option (List Int)
  deriving DecidableEq, Repr

/-- A heartbeat of the Sanor link (18 R534). -/
structure Heartbeat where
  device : Nat
  identifier : Nat
  state : Nat
  able : Nat
  freeDecode : Nat
  epoch : Nat
  charter : Nat
  interval : Nat
  mac : Nat
  ack : Nat
  deriving DecidableEq, Repr

/-- A reference clock (21 R607). -/
inductive RefClock where
  | sysclk25 | pcie | ethernet
  deriving DecidableEq, Repr

/-- What a PCIe configuration write sets (17 R504, R514, R516). -/
inductive CfgField where
  | interruptDisable (b : Bool) | atsEnable (b : Bool) | bar2Size (gib : Nat)
  deriving DecidableEq, Repr

/-- Events that reset the endpoint alone (17 R524). -/
inductive EndpointEvent where
  | hotReset | linkDisable | linkDown | flr
  deriving DecidableEq, Repr

/-- Host accesses that can fail (17 R513). -/
inductive HostAccess where
  | ringFetch | pushPayload (stream : Nat) (poisoned : Bool) | journalState | journalWrite
  | dmaRead (p : Nat) (poisoned : Bool)
  deriving DecidableEq, Repr

/-- A die whose droop monitor acts (21 R616). -/
inductive Die where
  | cd0 | cd1 | md
  deriving DecidableEq, Repr

/-- A controller of the rolling restart (02 R88). -/
inductive Ctrl where
  | region (g : Nat) | chip
  deriving DecidableEq, Repr

/-- The commands of the block, one per row of the table of operations and events. -/
inductive Instr where
  | registerWrite (src : Src) (off width : Nat) (value : W64)
  | bar0UnalignedRead (off n : Nat)
  | timNowLowRead (wide : Bool)
  | tillCyclesRead (a : Nat) (wide : Bool)
  | ingPacketsRead (s : Nat) (wide : Bool)
  | engConvSatRead (p : Nat) (wide : Bool)
  | engTilesRead (p : Nat) (wide : Bool)
  | clrCommandsRead (r : Nat) (wide : Bool)
  | encPicturesRead (n : Nat) (wide : Bool)
  | fltCorrectedRead (wide : Bool)
  | safEvalsRead (wide : Bool)
  | memCeRead (n : Nat) (wide : Bool)
  | netLnkCounterRead (b : NetBlk) (wide : Bool)
  | flitCrcReplay (b lane : Nat)
  | laneSpare (b lane : Nat)
  | bridgeHalfWidth (l : BridgeLane)
  | bridgeLost (b : Nat)
  | chipArbGrant (port : Nat) (reqs : List ArbReq) (parity : Bool)
  | regionXbarGrant (g port : Nat) (reqs : List ArbReq) (parity : Bool)
  | engineBankGrant (p bank : Nat) (reqs : List BankReq)
  | operandNetworkCycle (p : Nat) (deliver load : Bool)
  | cellPipelineCycle (p : Nat) (check : List BankCheck)
  | regionWatchdogExpiry (g : Nat)
  | regionRestartComplete (g : Nat)
  | regionRestartTimeout (g : Nat)
  | chipWatchdogExpiry
  | chipControllerRestarted
  | resetAssert (width : Nat)
  | pwrgoodFall
  | bootStart (straps : List (Option Bool))
  | directoryReadComplete
  | dramTrainingComplete (ok0 ok1 : Bool)
  | slotReadComplete
  | firmwareStarted
  | bootAssayComplete (results : List AssayResult)
  | adoptionHoldExpiry (burnOk : Bool)
  | stlOpen (page via : Src)
  | stlStage (page via : Src) (count : Nat)
  | stlCheck (page via : Src)
  | commitAtTime (page via : Src)
  | commitAtEvent (page via : Src)
  | stlAbort (page via : Src)
  | stlDiscard (page via : Src)
  | flashProgram (page via : Src) (count : Nat)
  | flashProgramComplete (differs : Bool)
  | verifySlot (page via : Src) (slot : Nat)
  | verifySlotComplete
  | charterUpdate (page via : Src)
  | reboot (page via : Src) (slot : Nat)
  | rebootReset
  | settlementPrepareAck (u : StlUnit)
  | preInstantRecheck
  | epochInstant
  | eventTimeout
  | unitDrainRelease (u : StlUnit)
  | drainBoundExpiry
  | rollingRestartNext (agreed : Bool)
  | controllerStartFailure (c : Ctrl)
  | ptpSync (port domain sender : Nat) (twoStep : Bool) (origin correction rxMac : Int)
  | ptpFollowUp (port domain sender : Nat) (origin correction : Int)
  | ptpAnnounce (port domain : Nat) (a : Announce)
  | ptpDelayResp (port domain sender : Nat) (receipt correction : Int)
  | ptpPdelayMessage (port domain sender : Nat) (m : Pdelay) (correction rxMac : Int)
  | ptpDelayReqSend (port : Nat) (peer : Bool) (txMac : Int)
  | ptpSyncLoss (port : Nat)
  | announceReceiptTimeout (port : Nat)
  | timeinPulse
  | timeinLoss
  | sourcePromotion
  | stationTimeStep
  | tickMappingUpdate
  | sliceStart (g : Nat)
  | energyApportion (e : Energy)
  | slowdownSecond
  | modelSwitchCut
  | modelSwitchEnd
  | ethFrameReceive (port : Nat) (f : Frame)
  | rtpDatagram (d : Datagram)
  | reorderHoldExpiry (s : Nat)
  | commandRingFetch
  | pushPayloadComplete (s tick : Nat)
  | decodePictureComplete (d : Nat) (o : PictureOutcome)
  | decodeBudgetExhausted (d : Nat) (o : PictureOutcome)
  | secondSummary
  | journalRecordAppend
  | journalMarkStart
  | journalMarkComplete (ok : Bool)
  | preprocessStart (a : Nat)
  | preprocessComplete (a stream tick page : Nat)
  | pictureDeadline (s tick : Nat)
  | hostAssistClear (a : Nat)
  | batchStepBoundary (g a : Nat)
  | tileStart (p : Nat) (t : TileIssue)
  | tileCommit (p cycles : Nat)
  | operandParityError (p cell : Nat)
  | descriptorAccessFault (p : Nat)
  | voidOperand (p : Nat)
  | tileWatchdogExpiry (p : Nat)
  | engineScrub (p addr : Nat) (ecc : Secded)
  | dmaCommand (p : Nat) (cmd : List Byte) (nextJob : Nat)
  | dmaComplete (p : Nat)
  | haloGroupReceived (p port : Nat)
  | haloReleaseArrival (p port : Nat)
  | partArrival (combiner sender : Nat) (job tile part parts : Nat)
  | sendComplete (p : Nat)
  | assoc (r : Nat) (cmd : List Byte)
  | nms (r : Nat) (cmd : List Byte)
  | knn (r : Nat) (cmd : List Byte)
  | ident (r : Nat) (cmd : List Byte)
  | gather (r : Nat) (cmd : List Byte)
  | scatter (r : Nat) (cmd : List Byte)
  | clearingCommandCommit (d : ClrDone)
  | clearingWatchdogExpiry (r : Nat)
  | clearingVoidRead (r addr : Nat)
  | writeLogOverflow (r : Nat)
  | clearingAuditCopy (r : Nat) (differs : Bool)
  | ledgerWriteback (r slot : Nat)
  | quarantineEnd (slot : Nat)
  | ownershipHandoff (s : Nat)
  | clipRequest (req : List Byte) (src : Src)
  | liveViewStart (req : List Byte) (src : Src)
  | liveViewStop (req : List Byte) (src : Src)
  | clipStart
  | sliceEmit (n ident row : Nat)
  | clipComplete (n ident : Nat)
  | preEventReclaim (s : Nat)
  | encoderAssay (n : Nat) (pass : Bool)
  | adaptationJobStart
  | adaptationStepComplete (inputs : List (List W32))
  | adaptationGate (inputs inForce : List (List W32))
  | adoptionRetry
  | voidRestore (addr : Nat) (bytes : List Byte)
  | auditCopy (p : Nat) (differs void : Bool) (addr : Nat)
  | auditThirdRun (p : Nat) (agreesOriginal agreesAuditor void : Bool)
  | auditSeedReplace (g seed : Nat)
  | strikeExpiry (p : Nat)
  | engineRetest (p : Nat)
  | engineAssayComplete (r : AssayResult)
  | engineRotation (g : Nat)
  | decodeRotation
  | decodeAssayComplete (d : Nat) (pass : Bool)
  | engineHandoverCopyComplete (p : Nat) (badGranules : List Nat)
  | handoverNoAnswer (p : Nat)
  | supplyMonitorFault (selfCheck : Bool) (unit : Nat)
  | chipFatal (source unit : Nat)
  | stopCutComplete
  | zoneTensorComplete (s tick page : Nat) (lanes : ZoneLanes)
  | zoneEvalOutput (o : ZoneOutput)
  | zoneDeadline (s tick : Nat)
  | zonePeriodBoundary (z : Nat) (selfCheckOk : Bool)
  | zoneDecisionTimeout (z : Nat)
  | zoneHoldExpiry (z : Nat)
  | safeHalfPeriod (n : Nat) (sensedA sensedB : Bool)
  | panicLimit (n port : Nat)
  | dramRefresh (n channel bank : Nat)
  | dramTempRead (n : Nat) (celsius : Nat)
  | dramRetrain (n channel : Nat) (lanesRepaired : Nat) (failed0 failed1 : Bool)
  | dramScrub (addr : Nat) (onDie : Bool) (ecc : Secded)
  | regionScrub (area : ScrubArea) (addr : Nat) (ecc : Secded)
  | softRepair (n row : Nat)
  | softRepairComplete (n row : Nat)
  | journalRingDeliver (count : Nat)
  | journalIntModeration
  | hostReadFailure (a : HostAccess)
  | atsInvalidation (base size : Nat)
  | atsInvalidationComplete
  | endpointReset (e : EndpointEvent)
  | pcieLinkUp (speed width : Nat)
  | d3hotEntry
  | d0Return
  | bar2Write (off : Nat) (bytes : List Byte)
  | bar2Read (off n : Nat)
  | cmdRingCtrlWrite (value : W32)
  | jrnlRingCtrlWrite (value : W32)
  | netLinkChange (n : Nat) (up fecLock : Bool) (mode : Nat)
  | heartbeatSend (n : Nat)
  | sanorHeartbeat (n : Nat) (h : Heartbeat)
  | peerLost (d : Nat)
  | failoverRelease (d : Nat)
  | sanorAck (d ack : Nat)
  | sanorAckDue (d : Nat)
  | sanorRetransmit (d seq : Nat)
  | sanorHandover (d seq : Nat) (context embedding : List Byte) (peerStream : Nat)
  | sanorHandoverAck (d seq old new status : Nat)
  | handoverTimeout (handle : Nat)
  | sanorCloseCopy (d seq handle : Nat)
  | sanorQuery (d seq number cls k : Nat) (embedding : List Byte)
  | sanorResult (d seq number : Nat) (entries : List (List Byte))
  | peerQueryTimeout (number : Nat)
  | sanorReplica (d seq stream tick index count : Nat) (fragment : List Byte)
  | exportDatagramSend (dest : Nat)
  | challenge (random : Nat)
  | unlock
  | lock
  | attest
  | attestComplete (signature : List Byte)
  | programKey (burnOk : Bool)
  | deploy
  | returnDevice
  | provisioning (skSeed skPrf pubSeed root : Nat) (certificate : List Byte)
  | bottomTreeReady
  | unlockExpiry
  | challengeExpiry
  | traceCtrlWrite (src : Src) (value : W32)
  | traceBufferFlush (cls inst : Nat)
  | arm (w : Nat) (account : Bool)
  | disarm (w : Nat) (account : Bool)
  | watchCopyComplete (w slot sats : Nat) (hostWriteFailed : Bool)
  | halt
  | haltImmediate
  | releaseHalt
  | obsSelWrite (src : Src) (value : W32)
  | jtagInstruction (opcode : Nat)
  | referenceClockLoss (c : RefClock)
  | referenceClockReturn (c : RefClock)
  | powerCapTick (milliwatts : Nat) (celsius : Int) (sensor : Nat)
  | droopDetected (d : Die)
  | droopHoldEnd (d : Die)
  | overLimitTemp (celsius : Int) (sensor : Nat)
  | thermalTrip
  | gpioPulseEnd (g : Nat)
  | smbusSetOffset (bytes : List Byte) (pecOk : Bool)
  | smbusWrite (bytes : List Byte) (pecOk : Bool)
  | smbusRead (count : Nat)
  | smbusTimeout
  | smbusAlertResponse
  | passbookUpdate
  | sliceNominalEnd (p : Nat)
  | configurationWrite (f : CfgField)
  | testLogicReset
  | flashWriteComplete
  deriving DecidableEq, Repr

end Sys2Proof
end

