-- ==== Sys2Proof/Config.lean ====
section
/-! DEFINITION. What an implementation fixes and the manual leaves open: free values with no body, so that
no proof can see what they are. Each is applied to the counter `State.free` or to the operands it depends on. -/

namespace Sys2Proof

/-- A plane: width, height and rows of samples. -/
structure Plane where
  w : Nat := 0
  h : Nat := 0
  rows : List (List Nat) := []
  deriving DecidableEq, Repr, Inhabited

/-- A level of a pyramid, or a picture: Y, and Cb and Cr at half resolution. -/
structure Level where
  y : Plane := {}
  cb : Plane := {}
  cr : Plane := {}
  deriving DecidableEq, Repr, Inhabited

/-- How an encoder codes a 16 × 16 block (12 R380, R381). -/
inductive BlockMode where
  | skip | inter
  /-- one of the four intra modes: DC, planar, horizontal, vertical -/
  | intra (mode : Nat)
  deriving DecidableEq, Repr

/-- A coded block: column and row in blocks, mode, vector in quarter samples, QP, and whether a residual is coded. -/
structure Block where
  col : Nat
  row : Nat
  mode : BlockMode
  mv : Int × Int := (0, 0)
  qp : Nat := 0
  residual : Bool := true
  deriving DecidableEq, Repr

end Sys2Proof

namespace Sys2Proof.Config

/-- A free choice of yes or no: 21 R605 (a low pulse of 1 to 10 us), 21 R606 (an open strap). -/
opaque freeBit : Nat → Bool
/-- A free natural number: 19 R559 (randomisers), 13 R394 (positions of dropped samples), random seeds. -/
opaque freeNat : Nat → Nat
/-- A free byte: what a refused, unreachable or post-void access returns where the manual gives no bytes. -/
opaque freeByte : Nat → Byte
/-- A free word: results the manual calls undefined. -/
opaque freeWord : Nat → W32
/-- The fault manager's lane threshold (01 R16), in replays of one lane; the manual gives no number. -/
opaque laneThreshold : Nat
/-- The row of a DRAM address within its stack, as the controller's fixed address hash maps it (16 R481). -/
opaque dramRow : Nat → Nat
/-- The bank of a row within its stack (16 R481, R493); the Passbook's geometry entry gives it, the manual does not. -/
opaque dramBank : Nat → Nat
/-- Whether a compiled model (by image address) declares a weight tensor adaptable with N columns and K rows
(13 R391); the manual gives the declaration no place in the image. -/
opaque tensorAdaptable : (image tensor n k : Nat) → Bool
/-- N16 code i of an adaptable tensor in the compiled model of an image; the manual gives the tensor no place in it
(13 R390). -/
opaque headWeight : (image tensor i : Nat) → Nat
/-- The version of a region controller firmware, by the digest of its charter section; the manual gives the version no
place in the image (08 R259, check 11 of 02 R70). -/
opaque firmwareVersion : (digest : Nat) → Nat
/-- Whether a clearing program names a peer query after a KNN command, by the model's image and the command's number
(18 R540); the manual gives the name no place in a program. -/
opaque peerQuery : (image number : Nat) → Bool
/-- A sample of a decoded picture: stream, tick, plane (0 Y, 1 Cb, 2 Cr), column, row, and the picture put in the place of a
missing reference (04 R152; none missing: no bytes). The codec standards give it (04 R137); the manual does not repeat them. -/
opaque sample : (stream tick plane x y : Nat) → (substitute : List Byte) → Nat
/-- What the Passbook alone gives (22 R632), by kind and index: 0 version of a block of a prefix; 1, 2, 3 column, bank and
row mask of a stack; 4 count of observation groups; 5, 6 domain and name of a group; 7 count of thermal sensors; 8, 9 die and
site of a sensor; 10 die of a bridge; 11 frequency in kHz of a group's domain clock. -/
opaque passbookValue : (kind index : Nat) → Nat

/-- The frequency that the device has disciplined to when its last source is lost, in parts per 10^9 of the reference (03 R104); the
manual does not give how it is measured. -/
opaque disciplined : (n : Nat) → Int

/-- Dartoja's PCI vendor identifier (17 R502) and JEP106 manufacturer code (20 R597), which the manual does not give. -/
opaque pciVendorId : BitVec 16
opaque manufacturerCode : BitVec 11

/-! What the standards of the two codecs give and the manual names without repeating (12 R368, R380, R381): `done` is the blocks
coded before in the picture, vectors are in quarter samples. -/

/-- The motion-vector predictor of a block, and the vector of its skip mode. -/
opaque mvPredictor : (codec : Nat) → (done : List Block) → (col row : Nat) → Int × Int
opaque skipVector : (codec : Nat) → (done : List Block) → (col row : Nat) → Int × Int
/-- The luma sample of a reference picture at a quarter-sample position between samples. -/
opaque lumaAt : (codec : Nat) → (reference : Plane) → (x y : Int) → Nat
/-- A luma sample of an intra mode's prediction from the picture as reconstructed so far. -/
opaque intraAt : (codec mode : Nat) → (recon : Level) → (x y : Nat) → Nat
/-- The bits of a block, and the picture reconstructed with it. -/
opaque codeBlock : (codec : Nat) → (source recon reference : Level) → (done : List Block) → Block → Nat × Level
/-- The bits of a slice's headers. -/
opaque headerBits : (codec : Nat) → (intra : Bool) → (picture slice qp : Nat) → Nat

end Sys2Proof.Config
end

