-- ==== Sys2Proof/Machine/Flags.lean ====
section
/-! DEFINITION. The status codes every unit shares (00 R11) and the small numeric helpers of fields. A block
has no arithmetic flags: its flags are the bits of status registers, computed here from their parts. -/

namespace Sys2Proof.Machine

/-- OK: completed as commanded (00 R11). -/
def stOK : Nat := 0
/-- EMPTY: nothing to do or to write. -/
def stEMPTY : Nat := 1
/-- STATE: not legal in the present state; rejected with no side effect. -/
def stSTATE : Nat := 2
/-- BOUND: outside its planned or described bound. -/
def stBOUND : Nat := 3
/-- VOID: consumed data carrying a void mark. -/
def stVOID : Nat := 4
/-- AUDIT: disagreed with an audit or diverse re-execution. -/
def stAUDIT : Nat := 5
/-- BUDGET: time, rate or memory budget exhausted. -/
def stBUDGET : Nat := 6
/-- SIG: signature, hash or rollback check failed. -/
def stSIG : Nat := 7
/-- RANGE: a field value outside its permitted range. -/
def stRANGE : Nat := 8

/-- A bit as a number. -/
def bit (b : Bool) : Nat := if b then 1 else 0

/-- Bits [lo + len - 1 : lo] of a number. -/
def bitsOf (v lo len : Nat) : Nat := (v >>> lo) % 2 ^ len

/-- A field placed at bit `lo`, cut to `len` bits. -/
def fld (v lo len : Nat) : Nat := (v % 2 ^ len) <<< lo

/-- `v` saturated at the largest value of `len` bits. -/
def satBits (v len : Nat) : Nat := min v (2 ^ len - 1)

/-- Two's complement of an integer in `len` bits. -/
def twos (v : Int) (len : Nat) : Nat := (v % (2 ^ len : Int)).toNat

/-- The integer a two's-complement field of `len` bits holds. -/
def signed (v len : Nat) : Int :=
  if v % 2 ^ len < 2 ^ (len - 1) then (v % 2 ^ len : Nat) else (v % 2 ^ len : Nat) - (2 ^ len : Int)

/-- Little-endian number of a byte list (00 R6). -/
def leNat : List Byte → Nat
  | [] => 0
  | b :: bs => b.toNat + 256 * leNat bs

/-- `n` little-endian bytes of a number (00 R6). -/
def leBytes : Nat → Nat → List Byte
  | 0, _ => []
  | n + 1, v => BitVec.ofNat 8 v :: leBytes n (v / 256)

/-- The little-endian field of `n` bytes at `off`; bytes past the end read as zero. -/
def field (bs : List Byte) (off n : Nat) : Nat := leNat ((bs.drop off).take n)

/-- The register with one field replaced. -/
def setField (v lo len x : Nat) : Nat := v - (bitsOf v lo len <<< lo) + fld x lo len

end Sys2Proof.Machine
end

