-- ==== Sys2Proof/Machine/State.lean ====
section
/-! DEFINITION. The state of the block as plain data: configuration, registers, queues, memories, pins and
the queue of waiting commands. A field's default is its value after reset; the rule beside it names it. -/

namespace Sys2Proof.Machine

/-- Sparse data by key: keys strictly rising, no entry equal to what an unlisted key reads as. -/
abbrev Table (α : Type) := List (Nat × α)

/-! ## Configuration (02 R55, R67, R642) -/

/-- A stream table row (04 R136, 05 R167). -/
structure StreamRow where
  active : Bool := false
  host : Bool := false
  zone : Bool := false
  matchSsrc : Bool := false
  ipv6 : Bool := false
  ports : Nat := 0
  account : Nat := 0
  region : Nat := 0
  codec : Nat := 0
  profile : Nat := 0
  level : Nat := 0
  width : Nat := 0
  height : Nat := 0
  depth : Nat := 0
  dpb : Nat := 0
  budget : Nat := 0
  hold : Nat := 0
  fpsMhz : Nat := 0
  window : Nat := 0
  zoneWindow : Nat := 0
  udpPort : Nat := 0
  payloadType : Nat := 0
  ssrc : Nat := 0
  addr : Nat := 0
  esUnits : Nat := 0
  ckpt : Nat := 0
  levels : Nat := 0
  planarY : Bool := false
  bilinear : Bool := false
  ratio : Nat := 0
  margin : Nat := 0
  fullInterval : Nat := 0
  assist : Bool := false
  adaptSource : Bool := false
  cropCap : Nat := 0
  deriving DecidableEq, Repr

/-- A zone table row (15 R446). -/
structure ZoneRow where
  enabled : Bool := false
  channel : Nat := 0
  stream : Nat := 0
  theta : Int := 0
  n : Nat := 0
  c : Nat := 0
  f : Nat := 0
  ageMs : Nat := 0
  holdMs : Nat := 0
  rects : List Box := []
  deriving DecidableEq, Repr

/-- An account table row (03 R116). -/
structure AccountRow where
  enabled : Bool := false
  share : Nat := 0
  mask : Nat := 0
  sliceUs : Nat := 0
  alarm : Nat := 0
  deriving DecidableEq, Repr

/-- A mask profile of the policies (12 R377). -/
structure MaskProfile where
  mosaic : Bool := false
  block : Nat := 0
  margin : Nat := 0
  zones : W64 := 0
  classes : BitVec 256 := 0
  deriving DecidableEq, Repr

/-- The policies as stored, default codes kept (02 R642). -/
structure Policies where
  firstLabel : Nat := 0
  forward : Nat := 0
  backward : Nat := 0
  eventTimeoutS : Nat := 0
  sliceUs : Nat := 0
  alarm : Nat := 0
  handoverMs : Nat := 0
  preEventS : Nat := 255
  qpRamp : Nat := 0
  preEventUnits : Nat := 0
  profiles : List MaskProfile := []
  deriving DecidableEq, Repr

/-- An export destination (18 R531). -/
structure ExportDest where
  addr : Nat := 0
  udpPort : Nat := 0
  port : Nat := 0
  mask : Nat := 0
  deriving DecidableEq, Repr

/-- An adjacency entry (18 R531). -/
structure Adjacency where
  stream : Nat
  peer : Nat
  peerStream : Nat
  edge : Box
  deriving DecidableEq, Repr

/-- A standby row: the protected peer, the local stream number and its row (18 R531, R532). -/
structure Standby where
  peer : Nat
  stream : Nat
  row : StreamRow
  deriving DecidableEq, Repr

/-- Peer-domain settings, section 0x0009 (18 R531). -/
structure PeerSettings where
  domain : Nat := 0
  device : Nat := 0
  sanor0 : Bool := false
  sanor1 : Bool := false
  exportOn : Bool := false
  missLimit : Nat := 0
  intervalMs : Nat := 0
  backup : Nat := 0xFFFF
  replicaShare : Nat := 0
  queryTimeoutMs : Nat := 0
  queryRate : Nat := 0
  dests : List ExportDest := []
  adjacency : List Adjacency := []
  standby : List Standby := []
  ip : List Nat := []
  deriving DecidableEq, Repr

/-- A head entry of the adaptation settings (13 R390). -/
structure HeadEntry where
  tensor : Nat
  n : Nat
  k : Nat
  deriving DecidableEq, Repr

/-- Adaptation settings, section 0x000A (13 R390). -/
structure AdaptSettings where
  seed : Nat := 0
  steps : Nat := 256
  batch : Nat := 1
  holdout : Nat := 2
  leastVal : Nat := 16
  lr : W32 := 0
  beta1 : W32 := 0
  beta2 : W32 := 0
  eps : W32 := 0
  margin : Nat := 0
  flip : W32 := 0
  scale : W32 := 0
  bright : W32 := 0
  contrast : W32 := 0
  noise : W32 := 0
  mask : Nat := 1
  enabled : Bool := false
  persist : Bool := false
  capacity : Nat := 64
  perHour : Nat := 1
  heads : List HeadEntry := []
  deriving DecidableEq, Repr

/-- An input declaration of a compiled model (08 R260). -/
structure InputDecl where
  fmt : Nat := 0
  mode : Nat := 0
  pad : Nat := 0
  crop : Nat := 16
  channels : Nat := 1
  mean : List W32 := []
  scale : List W32 := []
  cost : Nat := 0
  recip : W32 := 0
  zero : Int := 0
  deriving DecidableEq, Repr

/-- The header of a compiled model with the device address of its image (08 R259), and the additions of a
zone model (15 R448; zero in an analysis model). -/
structure Model where
  image : Nat := 0
  /-- bytes of the image, as its section or entry gives them -/
  size : Nat := 0
  compat : Bool := false
  firmware : Nat := 0
  segments : Nat := 1
  inputs : List InputDecl := []
  weights : Nat := 0
  perStream : Nat := 0
  wsRegion : Nat := 0
  wsEngine : Nat := 0
  solo : List Nat := []
  segTable : Nat := 0
  convBytes : Nat := 0
  gw : Nat := 0
  gh : Nat := 0
  evalUs : Nat := 0
  mapX : Nat := 0
  mapY : Nat := 0
  mapZ : Nat := 0
  deriving DecidableEq, Repr

/-- The registers whose fields only a settlement changes, each 32 bits (22 register summary, settled fields). -/
structure Settled where
  /-- CHP_ARB_WEIGHT (01 R21) -/
  arbWeight : W32 := 0x00123333
  /-- TIM_CTRL (03 R106) -/
  timCtrl : W32 := 0x00000321
  /-- PRE_WATERMARK (05 R192) -/
  watermark : W32 := 0x00C80032
  /-- FLT_AUDIT (14 R442) -/
  fltAudit : W32 := 0x000A0040
  /-- CHP_DRAM_RESERVE (16 R498): journal 0x30, trace 4, clips 8, gallery 0x10, staging 0 -/
  dramReserve : W32 := 0x60888000
  /-- NETn_PTP_CORR (18 R548) -/
  ptpCorr0 : W32 := 0
  ptpCorr1 : W32 := 0
  /-- CHP_POWER_CAP (21 R621) -/
  powerCap : W32 := 0x0000000C
  /-- CHP_GPIOg_CTRL (21 R620) -/
  gpio : Table W32 := []
  deriving DecidableEq, Repr

/-- One configuration set. Each unit holds two, for the old epoch and the new (02 R71, R72). -/
structure Cfg where
  streams : Table StreamRow := []
  zones : Table ZoneRow := []
  accounts : Table AccountRow := []
  policies : Policies := {}
  peer : Option PeerSettings := none
  adapt : Option AdaptSettings := none
  zoneModel : Option Model := none
  model : Model := {}
  regs : Settled := {}
  deriving DecidableEq, Repr

/-! ## Journal records (04 R161) -/

/-- Picture payload (04 R164). -/
structure PicturePl where
  engine : Nat := 0
  cls : Nat := 0
  flags : Nat := 0
  ctus : Nat := 0
  concealed : Nat := 0
  errOffset : Nat := 0xFFFFFFFF
  cycles : Nat := 0
  budget : Nat := 0
  arrival : Nat := 0
  run : Nat := 1
  missing : Nat := 0
  deriving DecidableEq, Repr
/-- Stream payload (04 R164). -/
structure StreamPl where
  cls : Nat := 0
  codec : Nat := 0
  width : Nat := 0
  height : Nat := 0
  count : Nat := 0
  deriving DecidableEq, Repr
/-- Settlement payload (02 R641). -/
structure StlPl where
  source : Nat := 0xFF
  reason : Nat := 0
  check : Nat := 0
  entry : Nat := 0xFFFF
  entries : Nat := 0
  slotA : Nat := 0
  slotB : Nat := 0
  running : Nat := 0
  dirDefault : Nat := 0
  stream : Nat := 0xFFFF
  instant : Nat := 0
  charter : Nat := 0
  deriving DecidableEq, Repr
/-- Time payload (03 R644). -/
structure TimPl where
  before : Nat := 0
  after : Nat := 0
  quality : Nat := 0
  ratio : Nat := 0
  threshold : Nat := 0
  offset : Int := 0
  step : Int := 0
  stationBefore : Nat := 0
  seconds : Nat := 0
  deriving DecidableEq, Repr
/-- Pre-processing payload (05 R191): the fields every type lays out from offset 40. -/
structure PrePl where
  region : Nat := 0
  status : Nat := 0
  segment : Nat := 0
  before : Nat := 0
  value : Nat := 0
  tile : Nat := 0
  count : Nat := 0
  first : Nat := 0
  entries : List (Nat × Nat) := []
  deriving DecidableEq, Repr
/-- Clearing payload (11 R363). -/
structure ClrPl where
  handle : Nat := 0
  cls : Nat := 0
  reason : Nat := 0
  hits : Nat := 0
  identity : Nat := 0
  box : Box := ⟨0, 0, 0, 0⟩
  opened : Nat := 0
  peer : Nat := 0
  peerHandle : Nat := 0
  count : Nat := 0
  deriving DecidableEq, Repr
/-- Evidence payload (12 R388). -/
structure EncPl where
  ident : Nat := 0
  encoder : Nat := 0
  flags : Nat := 0
  raises : Nat := 0
  emitted : Nat := 0
  bits : Nat := 0
  first : Nat := 0
  last : Nat := 0
  deriving DecidableEq, Repr
/-- Adaptation payload (13 R408). -/
structure AdpPl where
  job : Nat := 0
  reason : Nat := 0
  step : Nat := 0
  candidate : Nat := 0
  inForce : Nat := 0
  samples : Nat := 0
  digest : Nat := 0
  deriving DecidableEq, Repr
/-- Fault payload (14 R440). -/
structure FltPl where
  cls : Nat := 0
  source : Nat := 0
  unit : Nat := 0xFF
  second : Nat := 0xFF
  third : Nat := 0xFF
  strikes : Nat := 0
  job : Nat := 0
  tile : Nat := 0
  address : Nat := 0
  mark : Nat := 0
  count : Nat := 0
  deriving DecidableEq, Repr
/-- Safety payload (15 R470). -/
structure SafPl where
  zone : Nat := 0
  channel : Nat := 0
  cause : Nat := 0
  mapping : Nat := 0
  engX : Nat := 0xFF
  engY : Nat := 0xFF
  engZ : Nat := 0xFF
  u : Nat := 0
  deadline : Nat := 0
  arrival : Nat := 0
  cell : Nat := 0xFFFF
  count : Nat := 0
  deriving DecidableEq, Repr
/-- Network payload (18 R546). -/
structure LnkPl where
  port : Nat := 0xFF
  state : Nat := 0
  peer : Nat := 0
  identifier : Nat := 0
  count : Nat := 0
  left : Nat := 0
  deriving DecidableEq, Repr
/-- Security payload (19 R568). -/
structure SecPl where
  lifecycle : Nat := 0
  counter : Nat := 0
  value : Nat := 0
  signer : Nat := 0xFF
  perms : Nat := 0
  duration : Nat := 0
  deriving DecidableEq, Repr
/-- Observation payload (20 R599). -/
structure DbgPl where
  slot : Nat := 0
  result : Nat := 0
  code : Nat := 0
  tensor : Nat := 0
  digest : Nat := 0
  tick : Nat := 0
  deriving DecidableEq, Repr

/-- The payload of a record, by the chapter of its type (04 R163). -/
inductive Payload where
  | picture (p : PicturePl) | stream (p : StreamPl) | discontinuity (r : Nat) (d e : Int)
  | stl (p : StlPl) | tim (p : TimPl) | pre (p : PrePl) | clr (p : ClrPl) | enc (p : EncPl)
  | adp (p : AdpPl) | flt (p : FltPl) | saf (p : SafPl) | lnk (p : LnkPl) | sec (p : SecPl) | dbg (p : DbgPl)
  deriving DecidableEq, Repr

/-- A journal record before it is numbered; `seq` is given by the journal writer (04 R161, R162). -/
structure Rec where
  seq : Nat := 0
  station : Nat := 0
  stream : Nat := 0xFFFF
  type : Nat
  epoch : Nat := 0
  account : Nat := 0xFF
  status : Nat := 0
  tick : Nat := 0
  unitClass : Nat
  inst : Nat := 0xFF
  payload : Payload
  void : Bool := false
  deriving DecidableEq, Repr

/-- A mark of the journal summary: its position and its 32 bytes (04 R162). -/
structure Mark where
  pos : Nat
  bytes : List Byte
  deriving DecidableEq, Repr

/-- The journal writer (04 R162). -/
structure Journal where
  /-- records events have produced, oldest first, not yet numbered -/
  waiting : List Rec := []
  /-- records in the DRAM reserve, oldest first -/
  held : List Rec := []
  /-- sequence number of the next record -/
  next : Nat := 0
  /-- last complete mark of this run -/
  lastMark : Nat := 0
  /-- mark being programmed -/
  marking : Option Nat := none
  lastMarkStart : Nat := 0
  /-- marks in the flash summary, with their positions: those that completed and those that failed to program; kept over reset -/
  marks : List Mark := []
  /-- the mark position erased in advance (04 R162) -/
  markPos : Nat := 0
  /-- records reclaimed undelivered: first number and count (17 R512) -/
  lostFirst : Nat := 0
  lostCount : Nat := 0
  /-- seconds of elapsed time whose summaries are written (04 R645) -/
  summed : Nat := 0
  deriving DecidableEq, Repr

/-! ## Chip, power and pins (02 R60, 21) -/

/-- The condition of the whole device (21 R605, 02 R60, R65, 14 R434). -/
inductive Phase where
  | inReset | booting | running | quiet | safe
  deriving DecidableEq, Repr

/-- CHP_BOOT_STATUS fields and the boot ROM's place (02 R60, R64). -/
structure Boot where
  step : Nat := 1
  slotA : Nat := 0xF
  slotB : Nat := 0xF
  running : Nat := 0
  overlay : Bool := false
  dirDefault : Bool := false
  charterRb : Nat := 0
  /-- slot that boots first, chosen by the directory or by REBOOT -/
  preferred : Nat := 0
  trying : Nat := 0
  firstTried : Nat := 0
  /-- directory read, DRAM trained, firmware started -/
  dirRead : Bool := false
  trained : Bool := false
  verified : Bool := false
  /-- slot starts and sizes from the directory, and the summary area -/
  startA : Nat := 0x40000
  sizeA : Nat := 0x3800000
  startB : Nat := 0x3840000
  sizeB : Nat := 0x3800000
  sumStart : Nat := 0x7040000
  sumSize : Nat := 0xFC0000
  charterVersion : Nat := 0
  holdHours : Nat := 0
  firmwareRb : Nat := 0
  firmwareVersion : Nat := 0
  /-- start of the adoption hold; none when it is not running (02 R59) -/
  holdSince : Option Nat := none
  /-- slot that REBOOT named for this boot only, and the one it names for the boot it brings about (02 R87) -/
  rebootSlot : Option Nat := none
  nextSlot : Option Nat := none
  rebootAt : Option Nat := none
  deriving DecidableEq, Repr

/-- Clock ratios, power and temperature (21 R613 to R624). -/
structure Power where
  power : Nat := 0
  cd0 : Nat := 16
  cd1 : Nat := 16
  media : Nat := 16
  /-- ratio before a droop, restored when its 1 ms ends (21 R616, R625) -/
  droop0 : Option Nat := none
  droop1 : Option Nat := none
  droopM : Option Nat := none
  /-- elapsed time at which the droop of CD0, CD1 or MD began -/
  droopAt0 : Nat := 0
  droopAt1 : Nat := 0
  droopAtM : Nat := 0
  /-- on MD with a zone enabled: encoders and non-zone pre-processing held (21 R616) -/
  mediaHold : Bool := false
  capLimited : Bool := false
  thermalLimited : Bool := false
  droopSeen : Bool := false
  below : Nat := 0
  temp : Int := 0
  sensor : Nat := 0
  overLimitAt : Option Nat := none
  deriving DecidableEq, Repr

/-- Pins and straps (21 R600, R606, R609). -/
structure Pins where
  pwrgood : Bool := true
  resetN : Bool := false
  faultLow : Bool := false
  thermtripLow : Bool := false
  /-- straps as last sampled: SMB_ADDR 0 to 7, PCIE_OFF -/
  smbAddr : Nat := 0
  pcieOff : Bool := false
  smbAlert : Bool := false
  /-- references that the clock monitors have declared lost (21 R608) -/
  refLostPcie : Bool := false
  refLostEth : Bool := false
  inta : Bool := false
  ethIdle0 : Bool := true
  ethIdle1 : Bool := true
  obsActive : Bool := false
  /-- GPIO pulses of function 4: end time by pin (21 R620) -/
  gpioUntil : Table Nat := []
  deriving DecidableEq, Repr

/-! ## Flash and fuses (02 R49 to R53, 19 R551) -/

/-- A persisted overlay item (02 R80). -/
inductive OverlayItem where
  | field (off : Nat) (value mask : W64)
  | row (section_ index : Nat) (image : Option (List Byte))
  | model (image : List Byte)
  deriving DecidableEq, Repr

/-- An engine's entry of the unit map in flash (01 R33, 14 R425). -/
structure UnitMapEntry where
  state : Nat := 1
  logical : Nat := 0xFF
  deriving DecidableEq, Repr

/-- An adaptation checkpoint (13 R400). -/
structure Checkpoint where
  job : Nat
  step : Nat
  p1 : W32
  p2 : W32
  first : Nat
  last : Nat
  n : Nat
  baseDigest : Nat
  weights : List W32
  m : List W32
  v : List W32
  complete : Bool := true
  deriving DecidableEq, Repr

/-- An adopted head image (13 R405). -/
structure AdoptedImage where
  digest : Nat
  baseDigest : Nat
  weights : List W32
  order : Nat
  deriving DecidableEq, Repr

/-- An internal flash write in progress, applied when it completes (FLASH_WRITE_COMPLETE). -/
inductive FlashWrite where
  | directory (slot : Nat)
  | overlay (items : List OverlayItem)
  | overlayClear
  | checkpoint (c : Checkpoint)
  | adoptedHead (a : AdoptedImage)
  | adoptedErase
  | unitMap (engines : Table UnitMapEntry) (repairs : List (Nat × Nat))
  | identityRecord (span offset : Nat)
  | safeState (station : Nat)
  deriving DecidableEq, Repr

/-- Flash: bytes of directory and slots, and the parts of the summary area held as data. -/
structure Flash where
  /-- the sizes that SFDP finds on the two chip selects; 0 where no device answers (02 R49) -/
  device0 : Nat := 0x8000000
  device1 : Nat := 0
  /-- bytes that differ from the erased value 0xFF, addresses rising -/
  bytes : List Host.Cell := []
  writes : List FlashWrite := []
  unitMap : Table UnitMapEntry := []
  repairs : List (Nat × Nat) := []
  overlay : List OverlayItem := []
  checkpoints : List Checkpoint := []
  adopted : List AdoptedImage := []
  /-- the identity counter's log (19 R560): 32-byte records of the half being filled, oldest first -/
  idLog : List (List Byte) := []
  /-- the records of the log's other half (19 R560) -/
  idOther : List (List Byte) := []
  safeState : List Nat := []
  deriving DecidableEq, Repr

/-- The fuse bank (19 R551). Fuses keep their value over every reset. -/
structure Fuses where
  deviceId : Nat := 0
  grade : Nat := 0
  mac0 : Nat := 0
  mac1 : Nat := 0
  lifecycle : Nat := 0
  dartojaHash : Nat := 0
  integratorHash : Nat := 0
  charterRb : Nat := 0
  firmwareRb : Nat := 0
  identityRoot : Nat := 0
  identitySeed : Nat := 0
  skSeed : Nat := 0
  skPrf : Nat := 0
  spans : Nat := 0
  deriving DecidableEq, Repr

/-! ## Settlement (02) -/

/-- One STL page (02 R81 to R86). -/
structure Page where
  status : Nat := 0
  phase : Nat := 0
  reason : Nat := 0
  entry : Nat := 0
  instant : BitVec 128 := 0
  flashSrc : W64 := 0
  flashDst : W64 := 0
  opened : Bool := false
  staged : List (List Byte) := []
  deriving DecidableEq, Repr

/-- What instant a batch commits at (02 R73, R75). `fixed` is the instant once it is known. -/
inductive CommitAt where
  | time (t : Nat)
  | event (stream tick : Nat)
  deriving DecidableEq, Repr

/-- Where the pending batch stands (02 R69, R73). -/
inductive BatchPhase where
  | prepare | armed (since : Nat) | ready | draining (bound : Nat)
  deriving DecidableEq, Repr

/-- The pending batch (02 R69). -/
structure Batch where
  src : Src
  entries : List (List Byte)
  at_ : CommitAt
  fixed : Option Nat := none
  phase : BatchPhase := .prepare
  /-- units that have not acknowledged, or that have not drained -/
  waiting : List StlUnit := []
  voidSeen : Bool := false
  new : Cfg
  /-- the overlay items after this batch when an entry persists (02 R80) -/
  overlay : Option (List OverlayItem) := none
  safety : Bool := false
  modelSwitch : Bool := false
  charter : Bool := false
  adoption : Bool := false
  failover : Bool := false
  deriving DecidableEq, Repr

/-- A charter update in progress (02 R88). -/
structure Update where
  src : Src
  slot : Nat
  instant : Nat
  /-- controllers still to restart, in order; none when firmware is the same -/
  todo : List Ctrl
  done : List Ctrl := []
  restartedAt : Nat := 0
  settled : Bool := false
  /-- of the region restarted last: a zone evaluation was placed on it, the zones whose present period has results on it with
  whether all agreed, and whether a period with agreeing results is complete (02 R89) -/
  hadEval : Bool := false
  results : Table (Option Bool) := []
  periodOk : Bool := false
  /-- the new tables' drain is over, and the directory prefers the new slot (02 R88 step 6) -/
  drained : Bool := false
  rewritten : Bool := false
  deriving DecidableEq, Repr

/-- The settlement unit. -/
structure Stl where
  host : Page := {}
  smbus : Page := {}
  internal : Page := {}
  /-- STL_EPOCH (02 R85) -/
  epoch : BitVec 16 := 0
  stateRejects : W64 := 0
  ignoredWrites : W64 := 0
  rejectSrc : Nat := 0
  rejectOp : Nat := 0
  batch : Option Batch := none
  update : Option Update := none
  /-- inactive slot verified since its last program -/
  slotVerified : Bool := false
  /-- FLASH_PROGRAM in progress: page, source, destination, bytes -/
  program : Option (Src × Nat × Nat × Nat) := none
  /-- VERIFY_SLOT in progress: page and slot -/
  verify : Option (Src × Nat) := none
  /-- zones that re-enter start at the first zone period beginning at or after an instant, with that instant (02 R77) -/
  safetyZones : List (Nat × Nat) := []
  /-- a batch discarded by a chip controller restart, to be recorded (02 R28) -/
  discarded : Option StlPl := none
  /-- controllers that return to the old firmware after a failed update, in order (02 R90) -/
  rollback : List Ctrl := []
  /-- fenced regions whose streams internal firmware has still to move (14 R433) -/
  moves : List Nat := []
  deriving DecidableEq, Repr

/-! ## Time (03) -/

/-- One PTP port's client (03 R95, R97). -/
structure PtpPort where
  /-- consecutive Syncs whose offset stayed within 1 us of the offset at the run's start -/
  good : Nat := 0
  runOffset : Int := 0
  qualified : Bool := false
  qualifiedSince : Nat := 0
  lastSync : Nat := 0
  lastAnnounce : Nat := 0
  master : Option Announce := none
  /-- receive time of a two-step Sync that waits for its Follow_Up -/
  awaiting : Option (Nat × Int) := none
  t1 : Int := 0
  t2 : Int := 0
  t3 : Int := 0
  pathDelay : Int := 0
  pdelayT1 : Int := 0
  pdelayT4 : Int := 0
  pdelayTurn : Int := 0
  pdelayReqRx : Int := 0
  deriving DecidableEq, Repr

/-- The TIMEIN source (03 R98 to R100). -/
structure Timein where
  accepted : Nat := 0
  rejectedRun : Nat := 0
  qualified : Bool := false
  qualifiedSince : Nat := 0
  lastAccepted : Option Nat := none
  lastPulse : Option Nat := none
  label : Option Nat := none
  /-- TIM_TOD_NEXT and whether it was written since the last accepted pulse -/
  todNext : W64 := 0
  todWritten : Bool := false
  deriving DecidableEq, Repr

/-- The time unit. -/
structure Time where
  /-- TIM_NOW, station time in ns (03 R92, R93) -/
  now : Nat := 0
  /-- TIM_ELAPSED in ns (03 R94) -/
  elapsed : Nat := 0
  /-- TIM_UTC_OFFSET (03 R92) -/
  utcOffset : Int := 0
  /-- source in use, code of R95 -/
  source : Nat := 0
  quality : Nat := 0
  stepped : Bool := false
  reject : Bool := false
  rejects : Nat := 0
  offset : Int := 0
  /-- a source has qualified since reset (03 R101) -/
  traceable : Bool := false
  /-- offset still to slew out in ns, ns of elapsed time since the last 1 ns of slew, and a forward step
  waiting for the next whole ms -/
  slew : Int := 0
  slewAcc : Nat := 0
  /-- the disciplined frequency that holdover keeps, in parts per 10^9 of the reference, and the part of a ns it has gained (03 R104) -/
  freq : Int := 0
  freqAcc : Int := 0
  pendingStep : Option (Nat × Int) := none
  ptp0 : PtpPort := {}
  ptp1 : PtpPort := {}
  timein : Timein := {}
  deriving DecidableEq, Repr

/-! ## Streams: ingest, decode, analysis (04, 05) -/

/-- A packet held in sequence order (04 R146). -/
structure Packet where
  seq : Nat
  timestamp : Nat
  marker : Bool
  arrival : Nat
  elapsedAt : Nat
  rap : Rap
  /-- its RTP payload -/
  data : List Byte := []
  epoch : Nat
  /-- D_dec of its stream at its arrival, in ns (15 R453) -/
  dDec : Nat := 0
  deriving DecidableEq, Repr

/-- A released access unit in the elementary-stream buffer (04 R147, R150, R160). -/
structure AccessUnit where
  tick : Nat
  arrival : Nat
  epoch : Nat
  rap : Rap
  bytes : Nat
  /-- the bytes themselves, as the elementary-stream buffer holds them -/
  data : List Byte := []
  missing : Nat := 0
  incomplete : Bool := false
  discontinuity : Bool := false
  parameterSets : Bool := false
  /-- a push whose tick is the 64-bit tick the host gave (03 R109) -/
  wide : Bool := false
  /-- host address of a push's bytes (04 R148) -/
  source : Nat := 0
  dDec : Nat := 0
  deriving DecidableEq, Repr

/-- A decoded picture with the flags it carries through every later step (01 R44, 04 R160). -/
structure Picture where
  stream : Nat
  tick : Nat
  arrival : Nat
  epoch : Nat
  concealed : Bool := false
  substituted : Bool := false
  void : Bool := false
  concealedCtus : Nat := 0
  /-- its window in DRAM, and the window offset of its samples (04 R140, R160) -/
  base : Nat := 0
  offset : Nat := 0
  fullFrame : Bool := false
  analysisWindow : Nat := 0
  dDec : Nat := 0
  /-- selected for analysis, and for the zone window of this number (03 R114) -/
  selected : Bool := false
  /-- bit depth, samples between rows Wa, rows Ha, and the size after the cropping that starts at (cropX, cropY) (R159) -/
  depth : Nat := 8
  stride : Nat := 0
  lines : Nat := 0
  cropX : Nat := 0
  cropY : Nat := 0
  width : Nat := 0
  height : Nat := 0
  colour : Colour := { fullRange := false, matrix := none }
  /-- place in output order (04 R160) -/
  order : Nat := 0
  zoneWindow : Option Nat := none
  /-- the built levels, kept for the captures of a stream that is an adaptation source (13 R392, R394) -/
  levels : List Level := []
  deriving DecidableEq, Repr

/-- A member of a rolling batch (05 R188). -/
structure Member where
  stream : Nat
  tick : Nat
  epoch : Nat
  segment : Nat := 0
  slot : Nat := 0
  arrival : Nat := 0
  admitted : Nat := 0
  window : Nat := 0
  removed : Bool := false
  /-- the flags of its picture (01 R44) -/
  concealed : Bool := false
  substituted : Bool := false
  void : Bool := false
  /-- the built levels of its picture and what a capture keeps of its description (13 R394) -/
  levels : List Level := []
  depth : Nat := 8
  colour : Colour := { fullRange := false, matrix := none }
  deriving DecidableEq, Repr

/-- A mask entry of the pre-event buffer: a frame's tick and boxes of masked classes (12 R372). -/
structure MaskEntry where
  tick : Nat
  boxes : List (Nat × Box)
  bytes : Nat
  /-- station time at which it was stored -/
  stored : Nat := 0
  deriving DecidableEq, Repr

/-- A stored access unit of the pre-event buffer (12 R372). -/
structure PreEvent where
  au : AccessUnit
  pins : List Nat := []
  deriving DecidableEq, Repr

/-- A stream checkpoint copy (14 R417). -/
structure StreamCkpt where
  tick : Nat
  anchor : Nat
  count : Nat
  complete : Bool := true
  void : Bool := false
  /-- the stream's live state when it was taken -/
  state : List Byte := []
  deriving DecidableEq, Repr

/-- The 64-bit counters of a stream (04 R166). -/
structure StreamCounters where
  packets : W64 := 0
  lost : W64 := 0
  bytes : W64 := 0
  pictures : W64 := 0
  concealed : W64 := 0
  abandoned : W64 := 0
  deriving DecidableEq, Repr

/-- The moving state of one stream. -/
structure StreamSt where
  /-- ING_STRMs_STATUS.state (04 R166) -/
  state : Nat := 0
  last : Nat := 0
  counters : StreamCounters := {}
  lastTick : Nat := 0
  /-- unwrap state (03 R107) -/
  hasTick : Bool := false
  lastT : Nat := 0
  lastR : Nat := 0
  lastA : Nat := 0
  /-- tick to station mapping P in 2^-32 ns, and arrival and tick of the last 64 access units (03 R110) -/
  rate : Nat := 47721858844444
  origins : List (Nat × Nat) := []
  origin60 : Option (Int × Nat) := none
  /-- extended sequence numbers (04 R146) -/
  seqBase : Option Nat := none
  released : Option Nat := none
  packets : List Packet := []
  lastReleasedTs : Option Nat := none
  /-- pushes accepted whose bytes are still being read (04 R149) -/
  pushes : List AccessUnit := []
  es : List AccessUnit := []
  esBytes : Nat := 0
  discarding : Bool := false
  inDecode : Bool := false
  waitRap : Bool := true
  waitRecorded : Bool := false
  started : Bool := false
  skipped : Nat := 0
  /-- base of its picture-buffer window, followed by its elementary-stream buffer (04 R140, R150) -/
  winBase : Nat := 0
  /-- the last valid parameter sets by identifier (04 R151 class P) -/
  params : Table (Option SeqParams) := []
  /-- the last good picture (04 R152) -/
  lastGood : Option Picture := none
  /-- the picture size that the bitstream last declared -/
  declared : Nat × Nat := (0, 0)
  /-- decoded pictures not yet handed on, in decode order -/
  dpb : List Picture := []
  runConcealed : Bool := false
  runMissing : Bool := false
  /-- this second: flagged pictures, concealed and substituted in a run, discarded units, lost numbers -/
  secFlagged : Nat := 0
  shownFlagged : Nat := 0
  secConcealed : Nat := 0
  secMissing : Nat := 0
  concealRec : Option Rec := none
  missRec : Option Rec := none
  secDiscarded : Nat := 0
  secLost : Nat := 0
  /-- analysis windows (03 R114), separately for the zone window -/
  anchor : Option Nat := none
  lastWindow : Option Nat := none
  /-- tick of the picture last selected -/
  lastSel : Option Nat := none
  zoneAnchor : Option Nat := none
  zoneLastWindow : Option Nat := none
  zoneLastSel : Option Nat := none
  analysed : Nat := 0
  /-- the analysed frame last admitted to a rolling batch, with its flags (01 R44, 05 R188) -/
  frame : Option Member := none
  /-- regions of interest by analysed frame (05 R174) -/
  boxes : List (Nat × List Box) := []
  forceFull : Bool := false
  /-- epoch whose first analysed frame is a full-frame pass, its old state being discarded (03 R134) -/
  fullEpoch : Option Nat := none
  /-- bytes of per-stream state the resident model holds for it (03 R134, 08 R259) -/
  stateBytes : Nat := 0
  /-- its live per-stream state after the last analysed frame, none where it was discarded (14 R417; log entry 203) -/
  liveState : List Byte := []
  assisted : Bool := false
  /-- place in the marking order of all accounts (05 R185) -/
  markNo : Nat := 0
  /-- pictures queued for which a host tensor was accepted (05 R186) -/
  hostTensors : List Nat := []
  /-- D_dec(z) in ns when it is a zone stream (04 R158) -/
  dDec : Nat := 0
  ckpts : List StreamCkpt := []
  pre : List PreEvent := []
  masks : List MaskEntry := []
  preBytes : Nat := 0
  captures : Nat := 0
  captureHour : Nat := 0
  lastZoneDigest : Option Nat := none
  /-- pictures selected for the zone path, oldest first (15 R452) -/
  zoneQueue : List Picture := []
  deriving DecidableEq, Repr

/-- One decode engine (04 R165). -/
structure DecEngine where
  state : Nat := 1
  /-- stream and access unit in decode; `replay` names the clip it decodes for -/
  job : Option (Nat × AccessUnit) := none
  replay : Option Nat := none
  violations : List Nat := []
  abandons : Nat := 0
  leaving : Bool := false
  fence : Bool := false
  ratio : Nat := 16
  deriving DecidableEq, Repr

/-- One account's pre-processing queue (05 R181 to R186). -/
structure PreAcct where
  queue : List Picture := []
  current : Option Picture := none
  /-- assisted streams in marking order -/
  marks : List Nat := []
  lowSince : Option Nat := none
  shed : W64 := 0
  secShed : Nat := 0
  secShedFull : Nat := 0
  deriving DecidableEq, Repr

/-- The rolling batch of one account in one region. -/
structure Rolling where
  members : List Member := []
  waiting : List Picture := []
  step : Nat := 0
  deferred : Bool := false
  deriving DecidableEq, Repr

/-! ## Engines (06 to 10) -/

/-- The states of a weight bank (07 R235). -/
inductive BankState where
  | empty | loading | checking (left : Nat) | ready | active
  deriving DecidableEq, Repr

/-- A weight bank: state, 8-bit tag and its stationary blocks, one per cell (07 R235). -/
structure Bank where
  state : BankState := .empty
  tag : Nat := 0
  /-- cells whose tag a fault has changed (07 R238) -/
  badTags : List Nat := []
  codes : List (List (List Nat)) := []
  deriving DecidableEq, Repr

/-- One broadcast block: its pass, accumulator slot, drain token, the slots of the operand queue it takes and its codes, row by
row (07 R227, R229, R236). In full mode the rows are rows of A; in thin mode they are output columns, `kOff` is the K index of
the bank's row at which the block starts, and `rows` the rows of M it is used for (07 R232, R234). -/
structure ABlock where
  pass : Nat
  slot : Nat
  token : Bool
  kOff : Nat := 0
  rows : Nat := 1
  room : Nat := 1
  codes : List (List Nat)
  deriving DecidableEq, Repr

/-- A block on its way through the stages: the row of M it is used for (thin mode), the bank it reads and the
stationary codes it met, by cell (07 R229, R234). -/
structure Flight where
  blk : ABlock
  row : Nat := 0
  /-- it entered BC in this cycle: its parity is checked once (07 R237) -/
  entered : Bool := true
  bank : Nat := 0
  codes : List (List (List Nat)) := []
  deriving DecidableEq, Repr

/-- The eight cells of an engine, which run in step (07 R229 to R239). -/
structure Pipeline where
  queue : List ABlock := []
  bank0 : Bank := {}
  bank1 : Bank := {}
  bc : Option Flight := none
  mu : Option Flight := none
  rd : Option Flight := none
  ac : Option Flight := none
  /-- accumulator slots: key 8 * slot + cell, rows of words; the slots of the tile's rounds follow one another (07 R231,
  08 R278) -/
  acc : Table (List (List W32)) := []
  /-- integer accumulations that saturated (06 R204) -/
  accSats : Nat := 0
  fmtA : Nat := 0
  fmtW : Nat := 0
  thin : Bool := false
  /-- the row the head block is used for next (07 R234) -/
  row : Nat := 0
  sinceLoad : Nat := 0
  /-- blocks delivered, passes whose bank is loaded, load cycles of the next, uses that entered BC and uses accumulated -/
  delivered : Nat := 0
  loaded : Nat := 0
  loadCycle : Nat := 0
  entries : Nat := 0
  uses : Nat := 0
  deriving DecidableEq, Repr

/-- A tile in execution or waiting for re-execution: its issue, the elapsed time of its start and the watchdogs it met
(07 R249 to R251). -/
structure Running where
  issue : TileIssue
  start : Nat := 0
  watchdogs : Nat := 0
  /-- abandoned by a droop of its die: it runs again after the droop clears (07 R251 cause 6) -/
  droop : Bool := false
  deriving DecidableEq, Repr

/-- A completion record, 32 bytes (08 R289). -/
structure Completion where
  tile : Nat := 0
  job : Nat := 0
  status : Nat := 0
  cause : Nat := 0
  member : Nat := 0
  check : Nat := 0
  sats : Nat := 0
  nans : Nat := 0
  cycles : Nat := 0
  accSats : Nat := 0
  deriving DecidableEq, Repr

/-- A DMA command in progress (08 R265). -/
structure Dma where
  cmd : List Byte
  /-- job and tile whose commit it waits for (flag bit 0) -/
  waits : Option (Nat × Nat) := none
  /-- the till of the tile it was issued with (03 R124) -/
  till : Nat := 0
  deriving DecidableEq, Repr

/-- What a committed tile sends to one logical engine: pieces with their offset in its memory and void mark; for a
split-K part its job, tile, part and parts, with no pieces when it had no work (08 R272, R280, 09 R304, R305). -/
structure SendOp where
  dest : Nat
  pieces : List (Nat × List Byte × Bool) := []
  part : Option (Nat × Nat × Nat × Nat) := none
  empty : Bool := false
  deriving DecidableEq, Repr

/-- A combine with arrivals outstanding at a combiner (08 R282). -/
structure Combine where
  job : Nat
  tile : Nat
  parts : Nat
  arrived : List Nat
  /-- a part arrived with no data (08 R272) -/
  empty : Bool := false
  deriving DecidableEq, Repr

/-- One physical engine. -/
structure Engine where
  /-- ENGp_IDENTITY.state and logical (01 R36, R37) -/
  state : Nat := 1
  logical : Nat := 0xFF
  pipe : Pipeline := {}
  running : Option Running := none
  /-- abandoned tiles waiting for re-execution -/
  again : List Running := []
  /-- last tile's account, status, cause (07 R256) -/
  account : Nat := 0
  /-- the till of the running or last tile: below 64 an account's, from 64 a device till -/
  till : Nat := 0
  status : Nat := 0
  activity : Nat := 0
  abandoned : Bool := false
  cause : Nat := 0
  overdraft : Nat := 0
  /-- slice in progress: account, cycles used; overdraft carried per account (03 R119) -/
  slice : Option (Nat × Nat) := none
  /-- the selection of its region that it entered last -/
  sliceNo : Nat := 0
  carried : Table Nat := []
  tiles : W64 := 0
  abandons : W64 := 0
  memCe : W64 := 0
  parity : Nat := 0
  bankCe : Nat := 0
  bankUe : Nat := 0
  cellBits : Nat := 0
  convSat : W64 := 0
  accSat : W64 := 0
  nanConv : W64 := 0
  lastFmt : Nat := 0
  nanSeen : Bool := false
  accSatSeen : Bool := false
  convSatSeen : Bool := false
  convSkip : W64 := 0
  tileFault : W64 := 0
  lastParity : Option Nat := none
  /-- halo ports N, S, W, E: last group received, groups sent, groups released (08 R283 to R287) -/
  haloRx : List Nat := [0xFF, 0xFF, 0xFF, 0xFF]
  haloSent : List Nat := [0, 0, 0, 0]
  haloReleased : List Nat := [0, 0, 0, 0]
  /-- ring descriptor of the groups received on each port (08 R284) -/
  haloRing : List Nat := [0, 0, 0, 0]
  combines : List Combine := []
  duplicates : Nat := 0
  dmas : List Dma := []
  sends : List SendOp := []
  /-- jobs that a DMA command out of range fails at their next tile (08 R265) -/
  failedJobs : List Nat := []
  /-- descriptor table of the program last issued -/
  descBase : Option Nat := none
  /-- elapsed time since which the engine idles within its slice (03 R122) -/
  idleSince : Nat := 0
  /-- strikes: elapsed times; fencings: elapsed times (14 R424, R425) -/
  strikes : List Nat := []
  fences : List Nat := []
  fencePending : Bool := false
  assayPassed : Option Nat := none
  underAssay : Bool := false
  /-- entering engine of a handover: the leaving engine and its start (14 R427) -/
  handoverFrom : Option (Nat × Nat) := none
  /-- the reserve engine that takes its index by rotation at its next tile boundary (01 R33, 14 R430) -/
  rotateTo : Option Nat := none
  ratio : Nat := 16
  deriving DecidableEq, Repr

/-- One audit in progress (14 R421 to R423). -/
structure Audit where
  engine : Nat
  auditor : Nat
  third : Option Nat := none
  completion : Completion
  account : Nat
  issue : TileIssue
  /-- device address of the first differing output -/
  addr : Nat := 0
  deriving DecidableEq, Repr

/-- One region controller and its scheduler. -/
structure Region where
  /-- RGNr_STATUS.state (22 R639) -/
  state : Nat := 1
  restarts : Nat := 0
  restartTimes : List Nat := []
  restartedAt : Nat := 0
  fenced : Bool := false
  degraded : Bool := false
  /-- bytes of region memory, and of each logical engine's memory, reserved for members (05 R188) -/
  reserved : Nat := 0
  reservedEngine : Nat := 0
  vtime : Nat := 0
  finish : Table Nat := []
  ready : List Nat := []
  account : Option Nat := none
  /-- selections made, engine cycles by account since its last charge, and the end of background work (03 R118) -/
  sliceNo : Nat := 0
  sliceCycles : Table Nat := []
  background : Bool := false
  backUntil : Nat := 0
  completions : List Completion := []
  /-- draw counter c_g and the seed in force (14 R419, R420) -/
  draws : Nat := 0
  seed : Nat := 0
  seedAt : Nat := 0
  audits : List Audit := []
  /-- the region has completed its old-epoch samples of a model switch (03 R132) -/
  cut : Bool := false
  admitStopped : Bool := false
  deriving DecidableEq, Repr

/-! ## Clearing and the ledger (11) -/

/-- The state of a slot (11 R355). -/
inductive TrackState where
  | free | tentative | confirmed | lost | closed | quarantine
  deriving DecidableEq, Repr

/-- A track context with its slot's generation (11 R352, R355). -/
structure Track where
  generation : Nat := 0
  state : TrackState := .free
  cls : Nat := 0
  owner : Nat := 0
  reverted : Bool := false
  misses : Nat := 0
  stream : Nat := 0
  account : Nat := 0
  hits : Nat := 0
  revision : W32 := 0
  identity : Nat := 0
  opened : Nat := 0
  updated : Nat := 0
  tick : Nat := 0
  box : Box := ⟨0, 0, 0, 0⟩
  vel : Box := ⟨0, 0, 0, 0⟩
  pred : Box := ⟨0, 0, 0, 0⟩
  score : Int := 0
  gallery : Nat := 0xFFFFFFFF
  zones : W64 := 0
  originDevice : Nat := 0
  originHandle : Nat := 0
  window : Nat := 0
  quarantineUntil : Nat := 0
  /-- opaque state of the compiled model, 128 bytes, when not all zero -/
  opaque_ : List Byte := []
  deriving DecidableEq, Repr

/-- An identity entry (11 R350, R351). -/
structure Ident where
  parent : Option Nat := none
  children : Nat := 0
  number : Nat := 0
  deriving DecidableEq, Repr

/-- A dirty or clean line of a ledger cache (11 R357). -/
structure Line where
  slot : Nat
  dirty : Bool
  firstWrite : Nat
  used : Nat
  /-- the copy in DRAM while the line is dirty -/
  copy : Track := {}
  deriving DecidableEq, Repr

/-- A clearing command in execution; its results are formed at its commit (11 R337). -/
structure ClrJob where
  cmd : List Byte
  opcode : Nat
  expiries : Nat := 0
  /-- the region it was issued in, its epoch stamp, and the analysed frame it works for -/
  region : Nat := 0
  epoch : Nat := 0
  frame : Option Member := none
  deriving DecidableEq, Repr

/-- A completion of a clearing command (11 R338). -/
structure ClrCompletion where
  number : Nat
  job : Nat
  status : Nat
  member : Nat
  c0 : Nat := 0
  c1 : Nat := 0
  c2 : Nat := 0
  deriving DecidableEq, Repr

/-- One clearing engine. -/
structure Clearing where
  fenced : Bool := false
  status : Nat := 0
  opcode : Nat := 0
  job : Option ClrJob := none
  /-- commands waiting: the engine is busy, or IDENT comes to the keeper from another engine -/
  held : List ClrJob := []
  /-- commands drawn for audit whose copy has not run -/
  auditDue : Nat := 0
  ratio : Nat := 16
  commands : W64 := 0
  opened : W64 := 0
  closed : W64 := 0
  unresolved : W64 := 0
  cacheCe : W64 := 0
  lines : List Line := []
  useClock : Nat := 0
  strikes : List Nat := []
  completions : List ClrCompletion := []
  deriving DecidableEq, Repr

/-- A handover out that waits for its acknowledgement (11 R361, 18 R538). -/
structure Handover where
  handle : Nat
  peer : Nat
  sent : Nat
  expired : Bool := false
  deriving DecidableEq, Repr

/-- The track ledger, identity table and free lists. A pool's free list is the slots from `fresh` up, in
slot order, followed by `freed` (11 R352, R354, R362). -/
structure Ledger where
  tracks : Table Track := []
  idents : Table Ident := []
  fresh : Table Nat := []
  freed : Table (List Nat) := []
  quarantined : Table Nat := []
  handovers : List Handover := []
  /-- detections of this second that found no free slot (11 R354) -/
  secFull : Nat := 0
  deriving DecidableEq, Repr

/-! ## Evidence (12) -/

/-- An evidence request (12 R367). -/
structure EvReq where
  kind : Nat := 0
  codec : Nat := 0
  stream : Nat := 0
  profile : Nat := 0
  qt : Nat := 0
  qc : Nat := 0
  rowsPerSlice : Nat := 0
  rmax : Nat := 0
  window : Nat := 0
  gop : Nat := 0
  toHost : Bool := false
  toNet : Bool := false
  te : Nat := 0
  before : Nat := 0
  after : Nat := 0
  ident : Nat := 0
  addr : Nat := 0
  udpPort : Nat := 0
  payloadType : Nat := 0
  station : Nat := 0
  epoch : Nat := 0
  profileData : MaskProfile := {}
  /-- of a clip that waits: the flags it has, and the tick at which it was cut short (12 R373, R376, R387) -/
  flags : Nat := 0
  cut : Option Nat := none
  deriving DecidableEq, Repr

/-- A picture that an output is to code: its samples, or missed by a live view (12 R374, R386). -/
structure Source where
  tick : Nat
  epoch : Nat
  /-- place in output order (04 R160) -/
  order : Nat := 0
  concealed : Bool := false
  void : Bool := false
  missed : Bool := false
  depth : Nat := 8
  samples : Level := {}
  deriving DecidableEq, Repr

/-- A clip or live view in progress (12 R374 to R386). -/
structure Output where
  req : EvReq
  encoder : Nat := 0
  live : Bool := false
  first : Nat := 0
  last : Nat := 0
  flags : Nat := 0
  emitted : Nat := 0
  bits : Nat := 0
  firstCoded : Nat := 0
  lastCoded : Nat := 0
  load : Nat := 0
  replay : Nat := 0
  slice : Nat := 0
  /-- QP of the row in progress, bits spent, row, raises and skips in this picture (12 R382 to R384) -/
  qp : Nat := 0
  spent : Nat := 0
  row : Nat := 0
  raises : Nat := 0
  skips : Nat := 0
  skipping : Bool := false
  /-- bits of the pictures whose ticks lie in the last T (12 R382) -/
  history : List (Nat × Nat) := []
  /-- pictures to code, in output order; of a clip, also those its replay has decoded and not handed on, and its last good one -/
  sources : List Source := []
  dpb : List Source := []
  good : Option Level := none
  /-- pictures coded since the output, or its view, last started (12 R369) -/
  gop : Nat := 0
  /-- the picture in coding: its masked source, its reconstruction and blocks so far; and the reference picture (12 R379) -/
  masked : Level := {}
  recon : Level := {}
  blocks : List Block := []
  reference : Option Level := none
  /-- epoch stamp of the picture in coding -/
  coding : Option Nat := none
  /-- access units of the clip already taken by the replay (12 R374) -/
  replayed : Nat := 0
  deriving DecidableEq, Repr

/-- A slice descriptor and its bits (12 R385). -/
structure SliceOut where
  ident : Nat
  tick : Nat
  station : Nat
  picture : Nat
  slice : Nat
  flags : Nat
  bits : Nat
  /-- delivered to the host, and exported to the network with this time of the RTP clock -/
  toHost : Bool := false
  toNet : Option Nat := none
  deriving DecidableEq, Repr

/-- One encoder (12 R389). -/
structure Encoder where
  fenced : Bool := false
  status : Nat := 0
  pictures : W64 := 0
  bits : W64 := 0
  fallback : W64 := 0
  missed : W64 := 0
  /-- pictures missed in this second, by view and its stream -/
  secMissed : List ((Nat × Nat) × Nat) := []
  idleSince : Nat := 0
  ratio : Nat := 16
  /-- its assay of start-up has run (14 R431) -/
  assayed : Bool := false
  deriving DecidableEq, Repr

/-- Evidence clips and live views. -/
structure Evidence where
  queue : List EvReq := []
  outputs : List Output := []
  store : List SliceOut := []
  replayUsed : Nat := 0
  deriving DecidableEq, Repr

/-! ## Adaptation (13) -/

/-- A stored sample: its planes are those of the box of the picture it names (13 R393, R394). -/
structure Sample where
  q : Nat
  stream : Nat
  label : Nat
  tick : Nat
  box : Box
  /-- the picture's colour description, and its square at side S: 8-bit Y, Cb and Cr -/
  colour : Colour := { fullRange := false, matrix := none }
  level : Level := {}
  deriving DecidableEq, Repr

/-- The running adaptation job (13 R396). -/
structure Job where
  number : Nat
  step : Nat := 0
  snapshot : List Nat
  p1 : W32
  p2 : W32
  weights : List W32 := []
  m : List W32 := []
  v : List W32 := []
  baseDigest : Nat := 0
  deriving DecidableEq, Repr

/-- On-site adaptation. -/
structure Adapt where
  phase : Nat := 0
  regions : Nat := 0
  status : Nat := 0
  adopted : Bool := false
  samples : List Sample := []
  nextQ : Nat := 0
  dropped : Nat := 0
  nextJob : Nat := 0
  job : Option Job := none
  step : W64 := 0
  lastEnd : Option Nat := none
  /-- heads in force: digest and weights -/
  headDigest : Nat := 0
  headWeights : List W32 := []
  /-- candidate that passed the gate -/
  candidate : Option (Nat × List W32) := none
  /-- the job that it comes from -/
  candidateJob : Nat := 0
  retry : Bool := false
  /-- times the candidate's adoption has been staged (13 R404) -/
  attempts : Nat := 0
  /-- the candidate is a persisted image adopted again after a reset (13 R405) -/
  readopting : Bool := false
  dram : List Checkpoint := []
  /-- how many of the flash checkpoints, the newest first, are the running job's (13 R401) -/
  ownFlash : Nat := 0
  resume : Option Checkpoint := none
  /-- the tensors of the last step's members, or of the gate's validation samples (05 R180, 13 R394) -/
  tensors : List (List Byte) := []
  deriving DecidableEq, Repr

/-! ## Faults (14) -/

/-- The fault manager. -/
structure Flt where
  state : Nat := 0
  lastClass : Nat := 0
  corrected : W64 := 0
  contained : W64 := 0
  fenced : W64 := 0
  auditsRun : BitVec 48 := 0
  auditsDropped : BitVec 16 := 0
  disagree : W64 := 0
  /-- stop: phase and flags, and a debug halt in force (14 R443, 20 R591) -/
  stopPhase : Nat := 0
  immediate : Bool := false
  fatal : Bool := false
  debugHalt : Bool := false
  haltByPerm : Bool := false
  fatalSource : Nat := 0
  /-- class 1 errors of this second: by source row and unit (14 R410) -/
  secCorrected : List ((Nat × Nat) × Nat) := []
  /-- assay reference of the seed in force, and digests waiting for agreement (14 R429) -/
  reference : Option Nat := none
  candidates : List (Nat × Nat) := []
  chipRestarting : Bool := false
  chipRestarts : List Nat := []
  deriving DecidableEq, Repr

/-! ## Safety (15) -/

/-- The four states of a zone (15 R459). -/
inductive ZState where
  | off | start | occupied | clear
  deriving DecidableEq, Repr

/-- One guarded zone (15 R458 to R461), with the row, the period and the age limit that its last safety settlement gave it. -/
structure Zone where
  state : ZState := .off
  cause : Nat := 0
  u : Nat := 0
  q : Nat := 0
  e : Nat := 0
  row : ZoneRow := {}
  /-- P_z and the age limit in ns of station time -/
  pz : Nat := 0
  ageNs : Nat := 0
  /-- station time the zone last entered start (period origin t0) and the moment the hold counts from -/
  t0 : Nat := 0
  since : Nat := 0
  /-- number of the last boundary passed -/
  period : Nat := 0
  inputThisPeriod : Bool := false
  /-- the decision of the latest ended period has arrived in time (15 R464) -/
  decided : Bool := true
  secUntrusted : Nat := 0
  deriving DecidableEq, Repr

/-- An evaluation in flight (15 R452 to R454): the logical engines of X and Y, that of Z when a third region is able,
and by mapping what has arrived: nothing, or the physical engine with its codes, or without any when it failed. -/
structure Eval where
  stream : Nat
  tick : Nat
  epoch : Nat
  arrival : Nat
  deadline : Nat
  /-- no flag, lane digests equal and new (15 R457), and the age at the completion of the tensor in ns -/
  good : Bool
  age : Nat
  engines : List Nat
  /-- the size of its picture after cropping (15 R447) -/
  width : Nat := 0
  height : Nat := 0
  third : Option Nat := none
  thirdStarted : Bool := false
  outputs : List (Option (Nat × Option (List Int))) := [none, none, none]
  /-- its outcome is known; kept until the stream's next evaluation is placed -/
  decided : Bool := false
  deriving DecidableEq, Repr

/-- One safety channel (15 R462 to R465). -/
structure Channel where
  toggling : Bool := false
  latched : Bool := false
  highA : Bool := false
  mismatches : Nat := 0
  deriving DecidableEq, Repr

/-- The safety unit. -/
structure Saf where
  started : Bool := false
  status : Nat := 0
  dDec : W32 := 0
  /-- epoch of the last safety settlement that has applied (15 R469) -/
  epoch : Nat := 0
  zones : Table Zone := []
  channels : Table Channel := []
  evals : List Eval := []
  evaluations : W64 := 0
  disagree : W64 := 0
  missed : W64 := 0
  untrusted : W64 := 0
  deriving DecidableEq, Repr

/-! ## DRAM controllers (16) -/

/-- One DRAM controller and its stack (16 R480 to R500). -/
structure Dram where
  state : Nat := 1
  lanes : Nat := 0
  temp : Nat := 0
  refresh2x : Bool := false
  remapFree : Nat := 1024
  ce : W64 := 0
  odecc : W64 := 0
  ue : W64 := 0
  repairs : W32 := 0
  kept : W32 := 0
  panics : BitVec 48 := 0
  panicLost : BitVec 16 := 0
  retrain : W64 := 0
  /-- ports in panic, with the time each raised it, and ports that lost it (16 R485, R486) -/
  panic : Table Nat := []
  noPanic : List Nat := []
  /-- when each port held panic in the last 200 us: from, to (16 R486) -/
  panicPast : Table (List (Nat × Nat)) := []
  /-- rows with counted correctable errors: times (16 R492) -/
  rowErrors : Table (List Nat) := []
  marked : List Nat := []
  remapped : List Nat := []
  /-- row under soft repair (16 R493) -/
  repairing : Option Nat := none
  repaired : List Nat := []
  retrainFails : Table Nat := []
  refreshes : Nat := 0
  deriving DecidableEq, Repr

/-! ## PCIe endpoint (17) -/

/-- The endpoint. -/
structure Pci where
  speed : Nat := 0
  width : Nat := 0
  up : Bool := false
  ats : Bool := false
  d3hot : Bool := false
  downs : Nat := 0
  resets : Nat := 0
  interruptDisable : Bool := false
  bar2Gib : Nat := 16
  cmdBase : W64 := 0
  cmdEnable : Bool := false
  cmdPhase : Bool := false
  cmdSize : Nat := 6
  cmdStatus : Nat := 0
  cmdInterval : Nat := 100
  cmdHead : Nat := 0
  bad : Table Nat := []
  /-- elapsed time the last fetch started at, and that it took all 32 entries (17 R510) -/
  lastFetch : Nat := 0
  fetchAgain : Bool := false
  jrnBase : W64 := 0
  jrnEnable : Bool := false
  jrnStart : Nat := 0
  jrnSize : Nat := 12
  jrnStatus : Nat := 0
  jrnState : W64 := 0
  jrnFrom : W64 := 0
  produced : Nat := 0
  consumed : Nat := 0
  /-- sequence number of the next record to deliver -/
  jrnNext : Nat := 0
  intCause : W32 := 0
  intEnable : W32 := 0
  intCount : Nat := 0x0040
  intTimer : Nat := 0x03E8
  sinceInt : Nat := 0
  oldestInt : Option Nat := none
  entries : W64 := 0
  timeouts : W64 := 0
  dropped : W64 := 0
  /-- writes to the host window dropped while no host is present (16 R479) -/
  hostDropped : Nat := 0
  invalidations : W64 := 0
  /-- address translation cache: host pages, least recently used first; ranges being invalidated -/
  atc : List Nat := []
  invalidating : List (Nat × Nat) := []
  /-- payload fetches in flight: ring index, interrupt flag, stream -/
  fetching : List (Nat × Bool × Nat) := []
  deriving DecidableEq, Repr

/-! ## Ethernet and the Sanor link (18) -/

/-- One Ethernet port (18 R547 to R550). -/
structure NetPort where
  state : Nat := 0
  mode : Nat := 0
  fecLock : Bool := false
  fecUe : Nat := 0
  downs : Nat := 0
  rx : W64 := 0
  tx : W64 := 0
  fcsErr : W64 := 0
  dropped : W64 := 0
  fragments : Nat := 0
  checksumFails : Nat := 0
  /-- kinds of the answers and messages sent, newest last -/
  out : List Nat := []
  /-- the bytes of the Sanor frames and export datagrams sent, newest last (18 R533, R534) -/
  frames : List (List Byte) := []
  /-- the heartbeat last sent (18 R536) -/
  heartbeat : Option Heartbeat := none
  deriving DecidableEq, Repr

/-- A reliable message kept until it is acknowledged (18 R535). -/
structure Msg where
  seq : Nat
  type : Nat
  handle : Nat := 0
  number : Nat := 0
  tries : Nat := 0
  sent : Nat := 0
  /-- which fragment of how many the message is (18 R534) -/
  index : Nat := 0
  fragments : Nat := 1
  payload : List Byte := []
  deriving DecidableEq, Repr

/-- A peer of the domain (18 R536). -/
structure Peer where
  joined : Bool := false
  identifier : Nat := 0
  state : Nat := 0
  lastHeard : Nat := 0
  interval : Nat := 0
  port : Nat := 0
  mac : Nat := 0
  healthySince : Option Nat := none
  nextSeq : Nat := 0
  unacked : List Msg := []
  received : Nat := 0
  ackDue : Option Nat := none
  takenRows : List Nat := []
  deriving DecidableEq, Repr

/-- A gallery query to peers (18 R540): the peers that have not replied, the replies by device, and the output area of the
query with its k and its local results. -/
structure Query where
  number : Nat
  waiting : List Nat
  entries : List (Nat × List Byte) := []
  since : Nat
  out : Nat := 0
  k : Nat := 0
  partialMerge : Bool := false
  deriving DecidableEq, Repr

/-- A replica being received or held for a standby row (18 R542). -/
structure Replica where
  peer : Nat
  tick : Nat
  count : Nat
  /-- the fragments of the state received, by index -/
  parts : Table (List Byte) := []
  deriving DecidableEq, Repr

/-- The Sanor link. -/
structure Lnk where
  isolated : Bool := false
  peers : Table Peer := []
  sent : W64 := 0
  retrans : W64 := 0
  handOut : W32 := 0
  handIn : W32 := 0
  queriesSent : W32 := 0
  queriesAnswered : W32 := 0
  nextQuery : Nat := 0
  queries : List Query := []
  servedSecond : Nat := 0
  replicas : Table Replica := []
  replicasDiscarded : Nat := 0
  /-- records waiting per export destination -/
  exports : Table (List Rec) := []
  exportSince : Table Nat := []
  exportDropped : Nat := 0
  failover : Option Nat := none
  deriving DecidableEq, Repr

/-! ## Security (19) -/

/-- The security block. -/
structure Sec where
  status : Nat := 0
  busy : Bool := false
  identity : Bool := false
  /-- the bottom tree after the present one is ready (19 R561) -/
  nextTree : Bool := false
  idx : Nat := 0
  span : Option Nat := none
  perm : W64 := 0
  unlockEnd : Option Nat := none
  challenge : Nat := 0
  challengeAt : Option Nat := none
  nonce : Nat := 0
  /-- SEC_TOKEN_BUF bytes that are not zero; SEC_REPORT; SEC_CERT -/
  token : Table Byte := []
  report : List Byte := []
  cert : List Byte := []
  attesting : Bool := false
  /-- nonce that the ATTEST in progress took -/
  attestNonce : Nat := 0
  attests : List Nat := []
  warned : Bool := false
  deriving DecidableEq, Repr

/-! ## Observation (20) -/

/-- A trace record (20 R576). -/
structure TraceRec where
  station : Nat
  cls : Nat
  inst : Nat
  code : Nat
  data : Nat := 0
  deriving DecidableEq, Repr

/-- A watch slot (20 R582 to R590). -/
structure Watch where
  request : Table Byte := []
  result : List Byte := []
  status : Nat := 0
  state : Nat := 0
  armedAt : Nat := 0
  tick : Nat := 0
  slot : Nat := 0
  deriving DecidableEq, Repr

/-- Trace, tensor watch, debug halt, test multiplexers and the JTAG port. -/
structure Dbg where
  status : Nat := 0
  traceEnable : Bool := false
  traceStop : Bool := false
  dump : Nat := 0
  sources : Nat := 0
  traceState : Nat := 0
  wrapped : Bool := false
  ptr : Nat := 0
  lost : W64 := 0
  traceSeq : W32 := 0
  /-- buffered records by unit (class * 256 + instance) and records dropped since the last 0x00FF -/
  buffers : Table (List TraceRec) := []
  dropped : Table Nat := []
  watches : Table Watch := []
  /-- OBS_SEL and OBS_STATUS (20 R593, R594) -/
  obsEnable : Bool := false
  obsGroup : Nat := 0
  obsDivider : Nat := 8
  obsStatus : Nat := 0
  /-- JTAG instruction in force (20 R595): IDCODE -/
  jtag : Nat := 0x01
  deriving DecidableEq, Repr

/-! ## Tills, bridges, arbiters, Passbook -/

/-- One account's tills (03 R125 to R129); device tills use the first four. -/
structure Till where
  cycles : W64 := 0
  dram : W64 := 0
  bridge : W64 := 0
  energy : W64 := 0
  slowdown : Nat := 0x0100
  /-- energy below 1 uJ, and this millisecond's cycles and units -/
  remainder : Nat := 0
  ms0 : Nat := 0
  ms1 : Nat := 0
  msMedia : Nat := 0
  msDram : Nat := 0
  /-- samples completed this second: observed and solo latency -/
  samples : List (Nat × Nat) := []
  overSeconds : Nat := 0
  deriving DecidableEq, Repr

/-- One die-to-die bridge (01 R14 to R18). -/
structure Bridge where
  replays : W64 := 0
  /-- spare lanes left in each direction (01 R14) -/
  spares : Nat := 16
  sparesBack : Nat := 16
  half : Bool := false
  lost : Bool := false
  rerouted : Bool := false
  laneReplays : Table Nat := []
  deriving DecidableEq, Repr

/-- An arbiter port: last requester granted per class, the bulk requester being served with its credit, and
the last grant (01 R19, R22). -/
structure Arbiter where
  lastRt : Nat := 0
  lastBulk : Nat := 0
  lastBg : Nat := 0
  credit : Nat := 0
  granted : Option Nat := none
  deriving DecidableEq, Repr

/-- A unit entry of the live Passbook (22 R632, R633). -/
structure UnitEntry where
  kind : Nat
  index : Nat
  state : Nat
  logical : Nat := 0xFF
  flags : Nat := 0
  region : Nat := 0xFF
  detail : Nat := 0
  deriving DecidableEq, Repr

/-- The live Passbook as last published (22 R627 to R633). -/
structure Passbook where
  generation : Nat := 0
  units : List UnitEntry := []
  decodeEngines : Nat := 0
  encoders : Nat := 0
  clearings : Nat := 0
  able : Nat := 0
  gallery : Nat := 0
  running : Nat := 0xFF
  charter : Nat := 0
  lifecycle : Nat := 0
  areas : List (Nat × Nat × Nat) := []
  deriving DecidableEq, Repr

/-- A model switch in progress (03 R131 to R135). -/
structure Switch where
  instant : Nat
  cutAt : Option Nat := none
  new : Model
  /-- it adopts heads; bytes it loads; per-stream state of the model before it -/
  adoption : Bool := false
  bytes : Nat := 0
  oldState : Nat := 0
  oldCompat : Bool := false
  deadline : Nat := 0
  deriving DecidableEq, Repr

/-- A halo group on its way to a port of an engine (08 R283, R284). -/
structure HaloMsg where
  dest : Nat
  port : Nat
  ring : Nat
  seq : Nat
  rows : List (List Byte)
  /-- void marks of the bytes, row by row (07 R244) -/
  void : List (List Bool)
  sender : Nat
  deriving DecidableEq, Repr

/-- Where the device lays its DRAM areas; the manual leaves the addresses to the Passbook (22 R632). -/
structure Layout where
  hostStaging : Nat := 0x10000000
  hostBuffer : Nat := 0x14000000
  smbusBuffer : Nat := 0x14020000
  internalBuffer : Nat := 0x14040000
  identityTable : Nat := 0x15000000
  ledger : Nat := 0x1E0000000
  galleryTags : Nat := 0x18000000
  tensors : Nat := 0x20000000
  zoneModel : Nat := 0x1C0000000
  modelArea : Nat := 0x200000000
  pictures : Nat := 0x2C0000000
  modelStaging : Nat := 0x680000000
  gallery : Nat := 0x740000000
  clips : Nat := 0x840000000
  trace : Nat := 0x8C0000000
  journal : Nat := 0x900000000
  deriving DecidableEq, Repr

/-! ## The whole block -/

/-- The state of the LM960. -/
structure State where
  phase : Phase := .inReset
  boot : Boot := {}
  pins : Pins := {}
  power : Power := {}
  fuses : Fuses := {}
  flash : Flash := {}
  layout : Layout := {}
  /-- configuration in force, and the old set that items with the old stamp still use (02 R71) -/
  cfg : Cfg := {}
  cfgOld : Option Cfg := none
  /-- the charter's tables, kept for the Passbook and a restart -/
  stl : Stl := {}
  time : Time := {}
  journal : Journal := {}
  streams : Table StreamSt := []
  decs : Table DecEngine := []
  accts : Table PreAcct := []
  rolling : Table Rolling := []
  preConvSat : W64 := 0
  ingUnmatched : W64 := 0
  engines : Table Engine := []
  halo : List HaloMsg := []
  /-- releases on their way back: sending engine, its port, groups released (08 R285) -/
  haloBack : List (Nat × Nat × Nat) := []
  regions : Table Region := []
  switch : Option Switch := none
  clrs : Table Clearing := []
  ledger : Ledger := {}
  encs : Table Encoder := []
  evidence : Evidence := {}
  adapt : Adapt := {}
  flt : Flt := {}
  saf : Saf := {}
  drams : Table Dram := []
  pci : Pci := {}
  nets : Table NetPort := []
  lnk : Lnk := {}
  sec : Sec := {}
  dbg : Dbg := {}
  tills : Table Till := []
  /-- device tills: 0 safety, 1 audit, 2 faults, 3 adaptation, 4 static (03 R125) -/
  devTills : Table Till := []
  bridges : Table Bridge := []
  /-- arbiters: key 0 to 15 chip ports, 100 + 32 g + port region ports -/
  arbs : Table Arbiter := []
  passbook : Passbook := {}
  /-- device memory: bytes that are not zero, addresses rising (16 R476) -/
  mem : List Host.Cell := []
  /-- void granules, rising (07 R244, 14 R413, 16 R489) -/
  voids : List Nat := []
  /-- SMBus register offset (21 R612) -/
  smbOffset : Nat := 0
  /-- latched words: byte offset of the word and its value, until the next read (03 R93, R126) -/
  latched : List (Nat × W32) := []
  /-- bytes returned by the last read, and whether it was poisoned or not acknowledged -/
  readback : List Byte := []
  poisoned : Bool := false
  nak : Bool := false
  /-- counter of the free values taken so far: the model's own, not the device's -/
  free : Nat := 0
  /-- commands waiting, first in, first out -/
  pending : List Instr := []
  deriving DecidableEq, Repr

/-- The machine right after reset: held in reset with power good, every field at its reset value, no command
waiting. -/
def State.reset : State := {}

/-- Why a step can fault: none of the block's behaviours stops it. -/
inductive Fault where
  /-- Never raised: kept so that the type is inhabited; safe. -/
  | unreachable
  deriving DecidableEq, Repr

/-- Why a step can be refused. -/
inductive Refusal where
  /-- A command whose meaning is not written yet, rejected by name; safe. -/
  | notModelled (mnemonic : String)
  /-- A JTAG private instruction's own operation, which the manual does not give; not raised, safe. -/
  | unspecified
  deriving DecidableEq, Repr

end Sys2Proof.Machine
end

