-- ==== Sys2Proof/Machine/Ops.lean ====
section
/-! DEFINITION. The named operations every meaning uses: sparse tables, memory with void marks, the units by
number, journal records, free values, and the counters of rejected commands and ignored writes. -/

namespace Sys2Proof.Machine

/-- The outcome of a step. -/
abbrev Out := Host.Outcome State Fault Refusal

/-! ## Sparse tables -/

/-- What key `k` holds, `d` when it is not listed. -/
def Table.get {α : Type} (d : α) (k : Nat) : Table α → α
  | [] => d
  | (k', v) :: r => if k = k' then v else Table.get d k r

/-- The table with `v` under key `k`, in canonical form: keys rising, the default never listed. -/
def Table.set {α : Type} [DecidableEq α] (d : α) (k : Nat) (v : α) : Table α → Table α
  | [] => if v = d then [] else [(k, v)]
  | (k', v') :: r =>
    if k = k' then (if v = d then Table.set d k v r else (k, v) :: r)
    else if k < k' ∧ v ≠ d then (k, v) :: (k', v') :: r
    else (k', v') :: Table.set d k v r

/-- Every key of the table lies above `k`. -/
def Table.above {α : Type} (k : Nat) (t : Table α) : Bool := t.all fun e => decide (k < e.1)

/-- The canonical form: keys strictly rising and no entry equal to the default. -/
def Table.wf {α : Type} [DecidableEq α] (d : α) : Table α → Bool
  | [] => true
  | (k, v) :: r => decide (v ≠ d) && Table.above k r && Table.wf d r

/-- The keys listed. -/
def Table.keys {α : Type} (t : Table α) : List Nat := t.map (·.1)

/-- Change what key `k` holds. -/
def Table.upd {α : Type} [DecidableEq α] (d : α) (k : Nat) (f : α → α) (t : Table α) : Table α :=
  Table.set d k (f (Table.get d k t)) t

/-! ## Device memory (16 R476) and void granules (07 R244) -/

/-- The 64-byte granule of an address. -/
def granule (a : Nat) : Nat := a / 64

/-- The byte at an address; a byte nothing has written reads as zero (log entry 3). -/
def State.byte (s : State) (a : Nat) : Byte := Table.get 0#8 a s.mem

/-- `n` bytes from an address up. -/
def State.bytes (s : State) (a n : Nat) : List Byte := (List.range n).map fun i => s.byte (a + i)

/-- Little-endian number of `n` bytes at an address (00 R6). -/
def State.word (s : State) (a n : Nat) : Nat := leNat (s.bytes a n)

/-- A byte list written from an address up. -/
def memWrite (m : List Host.Cell) (a : Nat) : List Byte → List Host.Cell
  | [] => m
  | b :: bs => memWrite (Table.set 0#8 a b m) (a + 1) bs

/-- The canonical form of memory. -/
def Memory.wf (m : List Host.Cell) : Bool := Table.wf 0#8 m

/-- A rising list of granules with `g` in it. -/
def insertGranule (g : Nat) : List Nat → List Nat
  | [] => [g]
  | h :: r => if g < h then g :: h :: r else if g = h then h :: r else h :: insertGranule g r

/-- The granules of a byte range. -/
def granulesOf (a n : Nat) : List Nat :=
  if n = 0 then [] else (List.range (granule (a + n - 1) - granule a + 1)).map (granule a + ·)

/-- Pieces of a destination range, cut at granules: offset and length. -/
def piecesOf (a n : Nat) : List (Nat × Nat) :=
  (granulesOf a n).map fun g =>
    let lo := max a (64 * g)
    (lo - a, min (a + n) (64 * g + 64) - lo)

/-- The granules a byte range covers wholly. -/
def wholeGranules (a n : Nat) : List Nat :=
  (granulesOf a n).filter fun g => decide (a ≤ 64 * g) && decide (64 * g + 64 ≤ a + n)

/-- A granule of the range is void. -/
def State.anyVoid (s : State) (a n : Nat) : Bool := (granulesOf a n).any s.voids.contains

/-- Mark every granule of the range void (07 R243, R250). -/
def State.voidRange (s : State) (a n : Nat) : State :=
  { s with voids := (granulesOf a n).foldl (fun v g => insertGranule g v) s.voids }

/-- Store bytes with the writer's void mark: whole granules take the mark, partial ones never lose one (07 R244). -/
def State.store (s : State) (a : Nat) (bs : List Byte) (mark : Bool := false) : State :=
  let cleared := s.voids.filter fun g => !((wholeGranules a bs.length).contains g)
  let voids := if mark then (granulesOf a bs.length).foldl (fun v g => insertGranule g v) cleared else cleared
  { s with mem := memWrite s.mem a bs, voids := voids }

/-! ## Places in the address map (16 R476) -/

/-- DRAM ends here: 48 GiB. -/
def dramEnd : Nat := 0xC00000000
/-- Region memory of region r. -/
def regionBase (r : Nat) : Nat := 0x010000000000 + r * 0x02000000
/-- Engine memory of physical engine p. -/
def engineBase (p : Nat) : Nat := 0x011000000000 + p * 0x00400000
/-- Engine memory of logical engine l. -/
def logicalBase (l : Nat) : Nat := 0x011200000000 + l * 0x00400000
/-- The host window. -/
def hostBase : Nat := 0x800000000000

/-- The kinds of place an address names. -/
inductive Place where
  | dram | region (r : Nat) | engine (p : Nat) | logical (l : Nat) | register | host | unmapped
  deriving DecidableEq, Repr

/-- The row of the address map an address lies in (16 R476). -/
def placeOf (a : Nat) : Place :=
  if a < dramEnd then .dram
  else if 0x010000000000 ≤ a ∧ a < 0x010008000000 then .region ((a - 0x010000000000) / 0x02000000)
  else if 0x011000000000 ≤ a ∧ a < 0x011012000000 then .engine ((a - 0x011000000000) / 0x00400000)
  else if 0x011200000000 ≤ a ∧ a < 0x011210000000 then .logical ((a - 0x011200000000) / 0x00400000)
  else if 0x020000000000 ≤ a ∧ a < 0x020004000000 then .register
  else if 0x800000000000 ≤ a ∧ a < 0x1000000000000 then .host
  else .unmapped

/-- The whole range lies in DRAM. -/
def inDram (a n : Nat) : Bool := decide (a + n ≤ dramEnd)

/-- The range lies in memory that is neither registers, host nor unmapped, and within one row of the map. -/
def inDeviceMemory (a n : Nat) : Bool :=
  inDram a n || (decide (0x010000000000 ≤ a) && decide (a + n ≤ 0x010008000000))
    || (decide (0x011000000000 ≤ a) && decide (a + n ≤ 0x011012000000))
    || (decide (0x011200000000 ≤ a) && decide (a + n ≤ 0x011210000000))

/-! ## Units by number -/

def State.stream (s : State) (n : Nat) : StreamSt := Table.get {} n s.streams
def State.setStream (s : State) (n : Nat) (x : StreamSt) : State := { s with streams := Table.set {} n x s.streams }
def State.modStream (s : State) (n : Nat) (f : StreamSt → StreamSt) : State := s.setStream n (f (s.stream n))

def State.engine (s : State) (p : Nat) : Engine := Table.get {} p s.engines
def State.setEngine (s : State) (p : Nat) (x : Engine) : State := { s with engines := Table.set {} p x s.engines }
def State.modEngine (s : State) (p : Nat) (f : Engine → Engine) : State := s.setEngine p (f (s.engine p))

def State.region (s : State) (g : Nat) : Region := Table.get {} g s.regions
def State.setRegion (s : State) (g : Nat) (x : Region) : State := { s with regions := Table.set {} g x s.regions }
def State.modRegion (s : State) (g : Nat) (f : Region → Region) : State := s.setRegion g (f (s.region g))

def State.dec (s : State) (d : Nat) : DecEngine := Table.get {} d s.decs
def State.setDec (s : State) (d : Nat) (x : DecEngine) : State := { s with decs := Table.set {} d x s.decs }
def State.modDec (s : State) (d : Nat) (f : DecEngine → DecEngine) : State := s.setDec d (f (s.dec d))

def State.clr (s : State) (r : Nat) : Clearing := Table.get {} r s.clrs
def State.setClr (s : State) (r : Nat) (x : Clearing) : State := { s with clrs := Table.set {} r x s.clrs }
def State.modClr (s : State) (r : Nat) (f : Clearing → Clearing) : State := s.setClr r (f (s.clr r))

def State.encoder (s : State) (n : Nat) : Encoder := Table.get {} n s.encs
def State.setEncoder (s : State) (n : Nat) (x : Encoder) : State := { s with encs := Table.set {} n x s.encs }
def State.modEncoder (s : State) (n : Nat) (f : Encoder → Encoder) : State := s.setEncoder n (f (s.encoder n))

def State.acct (s : State) (a : Nat) : PreAcct := Table.get {} a s.accts
def State.setAcct (s : State) (a : Nat) (x : PreAcct) : State := { s with accts := Table.set {} a x s.accts }
def State.modAcct (s : State) (a : Nat) (f : PreAcct → PreAcct) : State := s.setAcct a (f (s.acct a))

def State.till (s : State) (a : Nat) : Till := Table.get {} a s.tills
def State.setTill (s : State) (a : Nat) (x : Till) : State := { s with tills := Table.set {} a x s.tills }
def State.modTill (s : State) (a : Nat) (f : Till → Till) : State := s.setTill a (f (s.till a))

/-- The device tills of 03 R125: 0 safety, 1 audit, 2 faults, 3 adaptation, 4 static energy. -/
def State.devTill (s : State) (i : Nat) : Till := Table.get {} i s.devTills
def State.modDevTill (s : State) (i : Nat) (f : Till → Till) : State :=
  { s with devTills := Table.upd {} i f s.devTills }

def State.dram (s : State) (n : Nat) : Dram := Table.get {} n s.drams
def State.setDram (s : State) (n : Nat) (x : Dram) : State := { s with drams := Table.set {} n x s.drams }
def State.modDram (s : State) (n : Nat) (f : Dram → Dram) : State := s.setDram n (f (s.dram n))

def State.netPort (s : State) (n : Nat) : NetPort := Table.get {} n s.nets
def State.modNet (s : State) (n : Nat) (f : NetPort → NetPort) : State := { s with nets := Table.upd {} n f s.nets }

def State.bridge (s : State) (b : Nat) : Bridge := Table.get {} b s.bridges
def State.modBridge (s : State) (b : Nat) (f : Bridge → Bridge) : State := { s with bridges := Table.upd {} b f s.bridges }

def State.arb (s : State) (k : Nat) : Arbiter := Table.get {} k s.arbs
def State.setArb (s : State) (k : Nat) (x : Arbiter) : State := { s with arbs := Table.set {} k x s.arbs }

/-- The rolling batch of account a in region g (05 R188). -/
def State.rollingOf (s : State) (g a : Nat) : Rolling := Table.get {} (64 * g + a) s.rolling
def State.setRolling (s : State) (g a : Nat) (x : Rolling) : State :=
  { s with rolling := Table.set {} (64 * g + a) x s.rolling }

/-- A safety channel by number (15 R462). -/
def State.channel (s : State) (n : Nat) : Channel := Table.get {} n s.saf.channels
def State.setChannel (s : State) (n : Nat) (x : Channel) : State :=
  { s with saf := { s.saf with channels := Table.set {} n x s.saf.channels } }

/-- A guarded zone by number (15 R458). -/
def State.zone (s : State) (z : Nat) : Zone := Table.get {} z s.saf.zones
def State.setZone (s : State) (z : Nat) (x : Zone) : State :=
  { s with saf := { s.saf with zones := Table.set {} z x s.saf.zones } }
def State.modZone (s : State) (z : Nat) (f : Zone → Zone) : State := s.setZone z (f (s.zone z))

/-- A track slot (11 R355). -/
def State.track (s : State) (n : Nat) : Track := Table.get {} n s.ledger.tracks
def State.setTrack (s : State) (n : Nat) (x : Track) : State :=
  { s with ledger := { s.ledger with tracks := Table.set {} n x s.ledger.tracks } }

/-- The state that the fragments of a replica make up (18 R542). -/
def Replica.bytes (r : Replica) : List Byte := (List.range r.count).flatMap fun i => Table.get [] i r.parts

/-- A peer of the domain (18 R536). -/
def State.peer (s : State) (d : Nat) : Peer := Table.get {} d s.lnk.peers
def State.setPeer (s : State) (d : Nat) (x : Peer) : State :=
  { s with lnk := { s.lnk with peers := Table.set {} d x s.lnk.peers } }
def State.modPeer (s : State) (d : Nat) (f : Peer → Peer) : State := s.setPeer d (f (s.peer d))

/-! ## Numbering (01 R31 to R33) -/

/-- The region of a physical engine (00 R12). -/
def regionOf (p : Nat) : Nat := p / 18

/-- The physical engines of a region. -/
def enginesOf (g : Nat) : List Nat := (List.range 18).map (18 * g + ·)

/-- The physical engine that holds a logical index, when one does. -/
def State.physOf (s : State) (l : Nat) : Option Nat :=
  (enginesOf (l / 16)).find? fun p => decide ((s.engine p).state = 0) && decide ((s.engine p).logical = l)

/-- Engines in service in a region (02 R646). -/
def State.inService (s : State) (g : Nat) : Nat :=
  ((enginesOf g).filter fun p => decide ((s.engine p).state = 0)).length

/-- Reserve engines of a region. -/
def State.reserves (s : State) (g : Nat) : Nat :=
  ((enginesOf g).filter fun p => decide ((s.engine p).state = 1)).length

/-- Decode engines in service (01 R39). -/
def State.decInService (s : State) : Nat :=
  ((List.range 18).filter fun d => decide ((s.dec d).state = 0)).length

/-- Encoders in service (01 R40). -/
def State.encInService (s : State) : Nat :=
  ((List.range 4).filter fun n => !(s.encoder n).fenced).length

/-- Clearing engines in service (01 R29). -/
def State.clrInService (s : State) : Nat := ((List.range 4).filter fun r => !(s.clr r).fenced).length

/-- The clearing engine that does the work of region r: its own, its partner's, or the lowest one left (01 R29, R30). -/
def State.clrServing (s : State) (r : Nat) : Option Nat :=
  let partner := if r % 2 = 0 then r + 1 else r - 1
  if !(s.clr r).fenced then some r
  else if !(s.clr partner).fenced then some partner
  else (List.range 4).find? fun q => !(s.clr q).fenced

/-- The identity keeper: the clearing engine in service with the lowest index (11 R351). -/
def State.keeper (s : State) : Option Nat := (List.range 4).find? fun q => !(s.clr q).fenced

/-- A region is able to run zone evaluations: its controller runs, it is not fenced, and it has an engine in
service (01 R47; a mapping runs each segment on one engine, 15 R448). -/
def State.regionAble (s : State) (g : Nat) : Bool :=
  decide ((s.region g).state = 0 ∨ (s.region g).state = 2) && decide (0 < s.inService g)

/-- The regions able, in rising order. -/
def State.ableRegions (s : State) : List Nat := (List.range 4).filter s.regionAble

/-! ## The host and the device as a whole -/

/-- A host is present while the link is up and the command ring is enabled (05 R182). -/
def State.hostPresent (s : State) : Bool := s.pci.up && s.pci.cmdEnable

/-- The device works: the initial settlement has applied and no safe or quiet state holds. -/
def State.running (s : State) : Bool := decide (s.phase = .running)

/-- New work may begin: running and no stop token in force (14 R435). -/
def State.mayBegin (s : State) : Bool := s.running && decide (s.flt.stopPhase = 0)

/-- Registers and commands answer: any phase but the reset itself. -/
def State.answers (s : State) : Bool := decide (s.phase ≠ .inReset)

/-! ## Stored pictures (04 R159) -/

/-- Bytes of a picture's samples. -/
def Picture.bytes (p : Picture) : Nat := p.stride * p.lines * 3 / 2 * (if p.depth = 10 then 2 else 1)

/-- A sample of a stored picture in its own plane (0 Y, 1 Cb, 2 Cr): rows Wa samples apart, CbCr interleaved, and bits [9:0] of
two bytes at 10 bits. -/
def State.sampleAt (s : State) (p : Picture) (plane x y : Nat) : Nat :=
  let w := if p.depth = 10 then 2 else 1
  let i := if plane = 0 then y * p.stride + x else p.stride * p.lines + y * p.stride + 2 * x + (plane - 1)
  s.word (p.base + p.offset + w * i) w % 2 ^ p.depth

/-! ## Rejections and ignored writes -/

/-- A command rejected with STATE, or a direct write to a settled field: counted and recorded (02 R81, R82). -/
def State.countReject (s : State) (src op : Nat) : State :=
  { s with stl := { s.stl with stateRejects := s.stl.stateRejects + 1, rejectSrc := src, rejectOp := op } }

/-- A write ignored and counted (00 R10). -/
def State.countIgnored (s : State) : State :=
  { s with stl := { s.stl with ignoredWrites := s.stl.ignoredWrites + 1 } }

/-- The number of a source in STL_LAST_REJECT (02 R82). -/
def srcCode : Src → Nat
  | .host => 0
  | .smbus => 1
  | .internal => 2

/-! ## Free values -/

/-- Advance the counter of free values. -/
def State.nextFree (s : State) : State := { s with free := s.free + 1 }

/-! ## Journal records (04 R161, R162) -/

/-- The unit-class codes of 04 R162. -/
def ucCHP : Nat := 0x01
def ucRGN : Nat := 0x02
def ucENG : Nat := 0x03
def ucCLR : Nat := 0x04
def ucDEC : Nat := 0x05
def ucENC : Nat := 0x06
def ucPRE : Nat := 0x07
def ucING : Nat := 0x08
def ucMEM : Nat := 0x09
def ucPCI : Nat := 0x0A
def ucNET : Nat := 0x0B
def ucLNK : Nat := 0x0C
def ucTIM : Nat := 0x0D
def ucSTL : Nat := 0x0E
def ucSAF : Nat := 0x0F
def ucFLT : Nat := 0x10
def ucSEC : Nat := 0x11
def ucDBG : Nat := 0x12

/-- A record of an event now: the station time, the epoch in force, no stream, no account (04 R161). -/
def State.record (s : State) (type cls : Nat) (p : Payload) : Rec :=
  { station := s.time.now, type := type, epoch := s.stl.epoch.toNat, unitClass := cls, payload := p }

/-- A waiting record of the same stream with a later tick: the new record goes before it (01 R45). A record without a stream or a tick
has no place in that order. -/
def Rec.later (r x : Rec) : Bool := r.stream != 0xFFFF && r.stream == x.stream && r.tick != 0 && decide (r.tick < x.tick)

/-- The waiting records, newest first, with one more. The number of an opened track's record 0x0300 is known as it opens (11 R350), so
nothing goes before one. -/
def putRecord (r : Rec) : List Rec → List Rec
  | [] => [r]
  | x :: l => if ((x :: l).takeWhile fun y => y.type != 0x0300).any r.later then x :: putRecord r l else r :: x :: l

/-- Hand a record to the journal writer, which numbers records in the order it receives them, the records of one stream in the order of
their ticks (04 R162, 01 R45). -/
def State.emit (s : State) (r : Rec) : State :=
  { s with journal := { s.journal with
      waiting := if s.journal.waiting.any r.later then (putRecord r s.journal.waiting.reverse).reverse else s.journal.waiting ++ [r] } }

/-- Hand several records over. -/
def State.emitAll (s : State) (rs : List Rec) : State := rs.foldl State.emit s

/-- The number the journal writer will give the record emitted next (11 R350). -/
def State.nextSeq (s : State) : Nat := s.journal.next + s.journal.waiting.length

/-! ## Trace records (20 R576 to R578) -/

/-- Records a unit's buffer of 4 KiB holds. -/
def traceRoom : Nat := 128

/-- A unit writes a trace record when its class is enabled: a full buffer drops and counts it, and the count goes before its
next record. -/
def State.trace (s : State) (cls inst code : Nat) (data : List Byte) : State :=
  if s.dbg.traceState ≠ 1 ∨ !s.dbg.sources.testBit (cls - 1) then s
  else
    let key := 256 * cls + inst
    let held := Table.get [] key s.dbg.buffers
    let lost := Table.get 0 key s.dbg.dropped
    let r : TraceRec := { station := s.time.now, cls := cls, inst := inst, code := code, data := leNat data }
    let l : TraceRec := { station := s.time.now, cls := cls, inst := inst, code := 0x00FF, data := lost }
    let add := if lost = 0 then [r] else [l, r]
    if held.length + add.length ≤ traceRoom then
      { s with dbg := { s.dbg with buffers := Table.set [] key (held ++ add) s.dbg.buffers, dropped := Table.set 0 key 0 s.dbg.dropped } }
    else
      { s with dbg := { s.dbg with dropped := Table.set 0 key (lost + 1) s.dbg.dropped, lost := s.dbg.lost + 1 } }

/-! ## Errors reported to the fault manager (14 R410) -/

/-- Set a cause of the host interrupt (17 R517). -/
def State.cause (s : State) (bitNo : Nat) : State :=
  { s with pci := { s.pci with intCause := s.pci.intCause ||| BitVec.ofNat 32 (2 ^ bitNo) } }

/-- INTA follows (cause and enable) while enabled and the link is up, and not in D3hot (17 R516, R525); SMB_ALERT_N is
asserted while (cause and enable) is non-zero (21 R611). -/
def State.updateInta (s : State) : State :=
  let due := decide (s.pci.intCause &&& s.pci.intEnable ≠ 0)
  { s with pins := { s.pins with
      smbAlert := due, inta := due && !s.pci.interruptDisable && s.pci.up && !s.pci.d3hot } }

/-- Set a cause and let INTA follow. -/
def State.raise (s : State) (bitNo : Nat) : State := (s.cause bitNo).updateInta

/-- Add one to the count of a key of a list of counts. -/
def addCount (k : Nat × Nat) (n : Nat) : List ((Nat × Nat) × Nat) → List ((Nat × Nat) × Nat)
  | [] => [(k, n)]
  | (k', m) :: r => if k = k' then (k, m + n) :: r else (k', m) :: addCount k n r

/-- Class 1 errors of a source row and unit: counted, and reported once a second (14 R410). -/
def State.corrected (s : State) (source unit_ : Nat) (n : Nat := 1) : State :=
  if n = 0 then s else
  { s with flt := { s.flt with corrected := s.flt.corrected + BitVec.ofNat 64 n, lastClass := 0
                               secCorrected := addCount (source, unit_) n s.flt.secCorrected } }

/-- A class 2 error: counted, its record written, the host fault cause raised (14 R410). -/
def State.contained (s : State) (p : FltPl) (status : Nat) (stream : Nat := 0xFFFF) (tick account : Nat := 0)
    (type : Nat := 0x0601) : State :=
  let s1 := { s with flt := { s.flt with contained := s.flt.contained + 1, lastClass := 1 } }
  let r := s1.record type ucFLT (.flt { p with cls := 2 })
  ((s1.emit { r with status := status, stream := stream, tick := tick,
                     account := if stream = 0xFFFF then 0xFF else account }).raise 2)

/-- A class 3 event: counted, its record written, the host fault cause raised (14 R410). -/
def State.fenceEvent (s : State) (p : FltPl) (status : Nat) (type : Nat := 0x0605) : State :=
  let s1 := { s with flt := { s.flt with fenced := s.flt.fenced + 1, lastClass := 2 } }
  let r := s1.record type ucFLT (.flt { p with cls := 3 })
  ((s1.emit { r with status := status }).raise 2)

/-! ## Charges of traffic (03 R125, R127) -/

/-- Units of 64 bytes. -/
def units (n : Nat) : Nat := (n + 63) / 64

/-- Units of DRAM and of die-to-die bridges added to a till. -/
def addUnits (dram bridge : Nat) (t : Till) : Till :=
  { t with dram := t.dram + BitVec.ofNat 64 dram, bridge := t.bridge + BitVec.ofNat 64 bridge, msDram := t.msDram + dram }

/-- Work of a media unit for an account: its media cycles, and the bytes it reads from and writes to DRAM, which lies on its
own die. -/
def State.chargeMedia (s : State) (a cycles bytes : Nat) : State :=
  s.modTill a fun t => addUnits (units bytes) 0 { t with msMedia := t.msMedia + cycles }

/-- Work of a unit on a compute die for an account: traffic with DRAM crosses a bridge. -/
def State.chargeDie (s : State) (a bytes : Nat) : State := s.modTill a (addUnits (units bytes) (units bytes))

/-! ## Configuration by number -/

/-- The row of a stream in a configuration. -/
def Cfg.stream (c : Cfg) (n : Nat) : StreamRow := Table.get {} n c.streams
def Cfg.zone (c : Cfg) (z : Nat) : ZoneRow := Table.get {} z c.zones
def Cfg.account (c : Cfg) (a : Nat) : AccountRow := Table.get {} a c.accounts

/-- The active rows, by rising number. -/
def Cfg.active (c : Cfg) : List (Nat × StreamRow) := c.streams.filter fun e => e.2.active

/-- The configuration an epoch stamp names: the old set while it is held, else the one in force (02 R71). -/
def State.cfgOf (s : State) (epoch : Nat) : Cfg :=
  match s.cfgOld with
  | some c => if epoch = s.stl.epoch.toNat then s.cfg else c
  | none => s.cfg

/-- Defaults of coded fields (04 R136, 05 R167). -/
def StreamRow.dpbPics (r : StreamRow) : Nat := if r.dpb = 0 then 4 else r.dpb
def StreamRow.budgetFactor (r : StreamRow) : Nat := if r.budget = 0 then 8 else r.budget
def StreamRow.holdMs (r : StreamRow) : Nat := if r.hold = 0xFF then 10 else r.hold
def StreamRow.esBytes (r : StreamRow) : Nat := 65536 * (if r.esUnits = 0 then 8 else r.esUnits)
def StreamRow.ckptFrames (r : StreamRow) : Nat := if r.ckpt = 0 then 16 else r.ckpt
def StreamRow.levelCount (r : StreamRow) : Nat := if r.levels = 0 then 4 else r.levels
def StreamRow.ratioC (r : StreamRow) : Nat := if r.ratio = 0 then 181 else r.ratio
def StreamRow.marginPct (r : StreamRow) : Nat := if r.margin = 0xFF then 25 else r.margin
def StreamRow.fullN (r : StreamRow) : Nat := if r.fullInterval = 0 then 8 else r.fullInterval
def StreamRow.crops (r : StreamRow) : Nat := if r.cropCap = 0 then 32 else r.cropCap

/-- Round up to a multiple. -/
def roundUp (n m : Nat) : Nat := (n + m - 1) / m * m

/-- Ceiling of a quotient. -/
def ceilDiv (n m : Nat) : Nat := (n + m - 1) / m

/-- Bytes of one stored picture P (04 R140). -/
def StreamRow.pictureBytes (r : StreamRow) : Nat :=
  let b := roundUp r.width 64 * roundUp r.height 64 * 3 / 2
  if r.depth = 10 then 2 * b else b

/-- Bytes of the picture-buffer window (04 R140). -/
def StreamRow.windowBytes (r : StreamRow) : Nat := (r.dpbPics + 2) * r.pictureBytes

/-- Bytes of the window, up to a 4 KiB boundary, and of the elementary-stream buffer after it. -/
def StreamRow.spanBytes (r : StreamRow) : Nat := roundUp r.windowBytes 4096 + r.esBytes

/-- E, the cycles of one picture at 2.5 pixels per media cycle, and the budget (04 R156). -/
def StreamRow.cyclesE (r : StreamRow) : Nat := ceilDiv (r.width * r.height * 2) 5
def StreamRow.budgetCycles (r : StreamRow) : Nat := r.budgetFactor * r.cyclesE

/-- The residency cap of one picture in media cycles (04 R157). -/
def StreamRow.residency (r : StreamRow) : Nat := r.budgetCycles + ceilDiv r.pictureBytes 32

/-- A thousand times the pixels per second of a row (04 R139). -/
def StreamRow.pixelRate (r : StreamRow) : Nat := r.width * r.height * r.fpsMhz

/-- Policies with their defaults (02 R642). -/
def Policies.fwd (p : Policies) : Nat := if p.forward = 0 then 900000 else p.forward
def Policies.bwd (p : Policies) : Nat := if p.backward = 0 then 90000 else p.backward
def Policies.eventTimeout (p : Policies) : Nat := if p.eventTimeoutS = 0 then 10 else p.eventTimeoutS
def Policies.slice (p : Policies) : Nat := if p.sliceUs = 0 then 250 else p.sliceUs
def Policies.alarmQ (p : Policies) : Nat := if p.alarm = 0 then 0x0200 else p.alarm
def Policies.handover (p : Policies) : Nat := if p.handoverMs = 0 then 500 else p.handoverMs
def Policies.preSeconds (p : Policies) : Nat := if p.preEventS = 0xFF then 10 else p.preEventS
def Policies.qpStep (p : Policies) : Nat := if p.qpRamp = 0 then 2 else p.qpRamp
def Policies.preBytes (p : Policies) : Nat := 65536 * (if p.preEventUnits = 0 then 75 else p.preEventUnits)

/-- Slice length and alarm threshold of an account (03 R116). -/
def Cfg.sliceOf (c : Cfg) (a : Nat) : Nat :=
  if (c.account a).sliceUs = 0 then c.policies.slice else (c.account a).sliceUs
def Cfg.alarmOf (c : Cfg) (a : Nat) : Nat :=
  if (c.account a).alarm = 0 then c.policies.alarmQ else (c.account a).alarm

/-- Solo latency for n engines in service (08 R259, 03 R129). -/
def Model.soloFor (m : Model) (n : Nat) : Nat :=
  if 16 ≤ n then m.solo.getD 0 0
  else if n = 15 then m.solo.getD 1 0
  else if n = 14 then m.solo.getD 2 0
  else if n = 13 then m.solo.getD 3 0
  else if n = 0 then 0
  else ceilDiv (m.solo.getD 3 0 * 13) n

/-- The zone period P_z in ns of station time (15 R446). -/
def StreamRow.zonePeriod (r : StreamRow) : Nat := ceilDiv (r.zoneWindow * 1000000) 90

/-- Zones that read a stream, enabled, by rising number. -/
def Cfg.zonesOf (c : Cfg) (n : Nat) : List Nat :=
  (c.zones.filter fun e => e.2.enabled && decide (e.2.stream = n)).map (·.1)

/-- The enabled zones, by rising number. -/
def Cfg.enabledZones (c : Cfg) : List Nat := (c.zones.filter fun e => e.2.enabled).map (·.1)

/-- The ratio of the media units: 16 while any zone is enabled (21 R614). -/
def State.mediaRatio (s : State) : Nat := if s.cfg.enabledZones.isEmpty then s.power.media else 16

/-- Fields of a settled register that configuration reads. -/
def Cfg.auditDivisor (c : Cfg) : Nat := bitsOf c.regs.fltAudit.toNat 0 11
def Cfg.rotateMin (c : Cfg) : Nat := bitsOf c.regs.fltAudit.toNat 16 8
def Cfg.gpio (c : Cfg) (g : Nat) : W32 := Table.get 0 g c.regs.gpio

/-- The DRAM reserves in bytes (16 R498). -/
def Cfg.journalBytes (c : Cfg) : Nat := bitsOf c.regs.dramReserve.toNat 25 7 * 0x10000000
def Cfg.traceBytes (c : Cfg) : Nat := bitsOf c.regs.dramReserve.toNat 21 4 * 0x10000000
def Cfg.clipBytes (c : Cfg) : Nat := bitsOf c.regs.dramReserve.toNat 16 5 * 0x10000000
def Cfg.galleryBytes (c : Cfg) : Nat := bitsOf c.regs.dramReserve.toNat 11 5 * 0x10000000
def Cfg.stagingBytes (c : Cfg) : Nat := bitsOf c.regs.dramReserve.toNat 6 5 * 0x10000000

/-- The layout with the reserves of a configuration at the top of DRAM: journal, trace, clips, gallery and staging downwards
(16 R498; the places are the model's, log entry 6). -/
def Layout.withReserves (l : Layout) (c : Cfg) : Layout :=
  let journal := dramEnd - c.journalBytes
  let trace := journal - c.traceBytes
  let clips := trace - c.clipBytes
  let gallery := clips - c.galleryBytes
  { l with journal := journal, trace := trace, clips := clips, gallery := gallery
           modelStaging := gallery - max c.stagingBytes 0xC0000000 }

/-- The part number, as PCI device identifier and in IDCODE, and the stepping B1 as PCI revision (17 R502, 20 R597). -/
def pciDeviceId : Nat := 0x0960
def pciRevision : Nat := 0xB1

/-- The ready-to-write outcome of a meaning that never stops. -/
def done (s : State) : Out := .next s

end Sys2Proof.Machine
end

