-- ==== Sys2Proof/Machine/Clock.lean ====
section
/-! DEFINITION. The clocks: elapsed time, station time with its slew (03 R92 to R94, R102), and the passing of
time to the moment that a timed command names (log entry 2). -/

namespace Sys2Proof.Machine

/-- The size of the slew that `k` nanoseconds of correction take off. -/
def slewUsed (slew : Int) (k : Nat) : Int :=
  if 0 ≤ slew then min slew (k : Int) else max slew (-(k : Int))

/-- What the frequency that holdover keeps adds in `dt` nanoseconds, with the part of a nanosecond carried (03 R104). -/
def Time.drift (t : Time) (dt : Nat) : Int := if t.source = 4 then t.freqAcc + (dt : Int) * t.freq else 0

/-- `dt` nanoseconds of elapsed time pass; station time runs at most 500 ppm fast or slow until the offset is
slewed out (03 R94, R102), and in holdover at the disciplined frequency (R104). -/
def Time.advance (t : Time) (dt : Nat) : Time :=
  let steps := (t.slewAcc + dt) / 2000
  let used := slewUsed t.slew steps
  let left := t.slew - used
  { t with
    elapsed := t.elapsed + dt
    now := ((t.now : Int) + (dt : Int) + used + t.drift dt / 1000000000).toNat
    freqAcc := t.drift dt % 1000000000
    slew := left
    slewAcc := if left = 0 then 0 else (t.slewAcc + dt) % 2000
    quality := if t.quality = 3 ∧ left = 0 then 1 else t.quality }

/-- Elapsed time passes; nothing runs in reset. -/
def State.advance (s : State) (dt : Nat) : State :=
  if s.phase = .inReset then s else { s with time := s.time.advance dt }

/-- One control cycle at 1 GHz. -/
def clockTick (s : State) : State := s.advance 1

/-- Station time brought to `t` when it is behind; each round closes all but five thousandths of the gap at most, and none passes it. -/
def Time.reach : Nat → Time → Nat → Time
  | 0, x, _ => x
  | n + 1, x, t => if t ≤ x.now then x else Time.reach n (x.advance ((t - x.now) * 997 / 1000 + 1)) t

/-- The moment a timed command names in station time has come. -/
def State.atStation (s : State) (t : Nat) : State :=
  if s.phase = .inReset then s else { s with time := Time.reach 8 s.time t }

/-- The moment a timed command names in elapsed time has come. -/
def State.atElapsed (s : State) (t : Nat) : State := s.advance (t - s.time.elapsed)

/-- The next whole multiple of `n` ns of elapsed time, the present one included. -/
def State.atMultiple (s : State) (n : Nat) : State := s.atElapsed (roundUp s.time.elapsed n)

/-- One second in ns. -/
def second : Nat := 1000000000

/-- The events of a list of elapsed times that lie within the last `w` ns. -/
def recent (now w : Nat) (ts : List Nat) : List Nat := ts.filter fun t => decide (now < t + w)

end Sys2Proof.Machine
end

