-- ==== Sys2Proof/Machine/Formats.lean ====
section
/-! DEFINITION. Number formats, rounding and scales (06): FP32 arithmetic, the eight element formats, exact group
sums, conversions with their saturation and NaN events, and dynamic row scales. -/

namespace Sys2Proof.Machine

/-! ## Exact values -/

/-- A value of a float format: NaN, an infinity, or ± m · 2^e. -/
inductive Fl where
  | nan
  | inf (neg : Bool)
  | fin (neg : Bool) (m : Nat) (e : Int)
  deriving DecidableEq, Repr

/-- How a tie or an inexact result is rounded (06 R208, R214). -/
inductive Rnd where
  | even | away | up
  deriving DecidableEq, Repr

/-- The bits of a number. -/
def bitLen (n : Nat) : Nat := if n = 0 then 0 else Nat.log2 n + 1

/-- A number scaled by a power of two, when the power is not negative. -/
def shl (m : Nat) (k : Int) : Nat := m * 2 ^ k.toNat

/-- Round n / 2^k to an integer. -/
def roundShift (mode : Rnd) (neg : Bool) (n k : Nat) : Nat :=
  let q := n / 2 ^ k
  let r := n % 2 ^ k
  if r = 0 then q
  else
    let half := 2 ^ k
    match mode with
    | .even => if half < 2 * r ∨ (2 * r = half ∧ q % 2 = 1) then q + 1 else q
    | .away => if half ≤ 2 * r then q + 1 else q
    | .up => if neg then q else q + 1

/-- Round m · 2^e to `p` significant bits with least exponent `emin`, the greatest exponent unbounded. -/
def roundTo (p : Nat) (emin : Int) (mode : Rnd) (neg : Bool) (m : Nat) (e : Int) : Nat × Int :=
  let ue := max (e + (bitLen m : Int) - (p : Int)) emin
  let q := if ue ≤ e then shl m (e - ue) else roundShift mode neg m (ue - e).toNat
  if q = 2 ^ p then (2 ^ (p - 1), ue + 1) else (q, ue)

/-! ## FP32 and N16 (06 R199 to R201) -/

/-- The canonical NaN of FP32 (06 R200). -/
def nan32 : W32 := 0x7FC00000

/-- What an FP32 word stands for. -/
def f32 (w : W32) : Fl :=
  let b := w.toNat
  let neg := b.testBit 31
  let x := bitsOf b 23 8
  let f := bitsOf b 0 23
  if x = 255 then (if f = 0 then .inf neg else .nan)
  else if x = 0 then .fin neg f (-149)
  else .fin neg (f + 2 ^ 23) ((x : Int) - 150)

/-- The FP32 word of a rounded value (06 R201). -/
def toF32 : Fl → W32
  | .nan => nan32
  | .inf neg => if neg then 0xFF800000 else 0x7F800000
  | .fin neg m e =>
    let (q, ue) := roundTo 24 (-149) .even neg m e
    let sign := if neg then 2 ^ 31 else 0
    if q < 2 ^ 23 then BitVec.ofNat 32 (sign + q)
    else
      let x := ue + 150
      if 255 ≤ x then (if neg then 0xFF800000 else 0x7F800000)
      else BitVec.ofNat 32 (sign + x.toNat * 2 ^ 23 + (q - 2 ^ 23))

/-- The signed integer of a finite value at a common exponent no greater than its own. -/
def atExp (neg : Bool) (m : Nat) (e least : Int) : Int :=
  if neg then -((shl m (e - least) : Nat) : Int) else ((shl m (e - least) : Nat) : Int)

/-- The exact sum of values: IEEE 754 rules for NaN and infinities (06 R206); an exact zero is positive unless
every addend is a negative zero. -/
def exactSum (xs : List Fl) : Fl :=
  let pinf := xs.any fun | .inf n => !n | _ => false
  let ninf := xs.any fun | .inf n => n | _ => false
  let anyNan := xs.any fun | .nan => true | _ => false
  if anyNan || (pinf && ninf) then .nan
  else if pinf then .inf false
  else if ninf then .inf true
  else
    let least : Int := xs.foldl (fun a x => match x with | .fin _ _ e => min a e | _ => a) 0
    let sum : Int := xs.foldl (fun a x => match x with | .fin n m e => a + atExp n m e least | _ => a) 0
    if sum = 0 then .fin (xs.all fun | .fin n _ _ => n | _ => false) 0 least
    else .fin (decide (sum < 0)) sum.natAbs least

/-- The exact product. -/
def exactMul : Fl → Fl → Fl
  | .nan, _ => .nan
  | _, .nan => .nan
  | .inf a, .inf b => .inf (a != b)
  | .inf a, .fin b m _ => if m = 0 then .nan else .inf (a != b)
  | .fin b m _, .inf a => if m = 0 then .nan else .inf (a != b)
  | .fin a m e, .fin b n f => .fin (a != b) (m * n) (e + f)

def fNeg : Fl → Fl
  | .nan => .nan
  | .inf n => .inf !n
  | .fin n m e => .fin (!n) m e

/-- FP32 addition, subtraction, multiplication and fused multiply-add (06 R201). -/
def fAdd (a b : W32) : W32 := toF32 (exactSum [f32 a, f32 b])
def fSub (a b : W32) : W32 := toF32 (exactSum [f32 a, fNeg (f32 b)])
def fMul (a b : W32) : W32 := toF32 (exactMul (f32 a) (f32 b))
def fFma (a b c : W32) : W32 := toF32 (exactSum [exactMul (f32 a) (f32 b), f32 c])

/-- A quotient with 40 bits below the first and a sticky bit, so that one rounding is exact. -/
def quotient (neg : Bool) (m : Nat) (e : Int) (n : Nat) (f : Int) : Fl :=
  let k := 64 + bitLen n
  let q := m * 2 ^ k / n
  let sticky := if m * 2 ^ k % n = 0 then 0 else 1
  .fin neg (2 * q + sticky) (e - f - (k : Int) - 1)

/-- FP32 division. -/
def exactDiv : Fl → Fl → Fl
  | .nan, _ => .nan
  | _, .nan => .nan
  | .inf _, .inf _ => .nan
  | .inf a, .fin b _ _ => .inf (a != b)
  | .fin a _ _, .inf b => .fin (a != b) 0 0
  | .fin a m e, .fin b n f =>
    if n = 0 then (if m = 0 then .nan else .inf (a != b)) else quotient (a != b) m e n f

def fDiv (a b : W32) : W32 := toF32 (exactDiv (f32 a) (f32 b))

/-- The integer square root, one bit a step from bit `k - 1` down. -/
def isqrt (v : Nat) : Nat → Nat → Nat
  | 0, r => r
  | k + 1, r => let c := r + 2 ^ k; isqrt v k (if c * c ≤ v then c else r)

/-- FP32 square root. -/
def fSqrt (a : W32) : W32 :=
  match f32 a with
  | .nan => nan32
  | .inf neg => if neg then nan32 else 0x7F800000
  | .fin neg m e =>
    if m = 0 then a
    else if neg then nan32
    else
      let k : Nat := if (e % 2 = 0) then 80 else 81
      let v := m * 2 ^ k
      let r := isqrt v (bitLen v) 0
      let sticky := if r * r = v then 0 else 1
      toF32 (.fin false (2 * r + sticky) ((e - (k : Int)) / 2 - 1))

/-- An integer as FP32, rounded once. -/
def fOfInt (i : Int) : W32 := toF32 (.fin (decide (i < 0)) i.natAbs 0)

/-- a < b for numbers; false when either is NaN. -/
def flLt : Fl → Fl → Bool
  | .nan, _ => false
  | _, .nan => false
  | .inf a, .inf b => a && !b
  | .inf a, .fin _ _ _ => a
  | .fin _ _ _, .inf b => !b
  | .fin a m e, .fin b n f =>
    let least := min e f
    decide (atExp a m e least < atExp b n f least)

def fLt (a b : W32) : Bool := flLt (f32 a) (f32 b)

/-- The word is a NaN. -/
def isNan (a : W32) : Bool := decide (f32 a = .nan)

/-- The word is finite. -/
def isFinite (a : W32) : Bool := decide (bitsOf a.toNat 23 8 ≠ 255)

/-- The magnitude of a word. -/
def fAbs (a : W32) : W32 := a &&& 0x7FFFFFFF

/-- The larger and the smaller of two numbers; a NaN gives the canonical NaN. -/
def fMax (a b : W32) : W32 := if isNan a || isNan b then nan32 else if fLt a b then b else a
def fMin (a b : W32) : W32 := if isNan a || isNan b then nan32 else if fLt b a then b else a

/-! ## The formats by code (06 R194) -/

def fmtINT8 : Nat := 0
def fmtUINT8 : Nat := 1
def fmtINT4 : Nat := 2
def fmtN8E4 : Nat := 3
def fmtN8E5 : Nat := 4
def fmtN16 : Nat := 5
def fmtFP32 : Nat := 6
def fmtINT32 : Nat := 7

/-- Bits of one element; 0 for a code of no format. -/
def fmtBits (f : Nat) : Nat :=
  if f = 2 then 4 else if f = 5 then 16 else if f = 6 ∨ f = 7 then 32 else if f < 5 then 8 else 0

/-- An integer format. -/
def fmtInt (f : Nat) : Bool := decide (f ≤ 2) || f == 7

/-- The integer a code of an integer format reads as (06 R196). -/
def intOf (f code : Nat) : Int :=
  if f = 1 then ((code % 256 : Nat) : Int) else if f = 2 then signed code 4 else if f = 7 then signed code 32 else signed code 8

/-- Mantissa bits and bias of an N8 format (06 R197). -/
def n8Bits (f : Nat) : Nat × Nat := if f = 4 then (2, 15) else (3, 7)

/-- The value of an N8 code; code 0x80 reads as zero (06 R197, R198). -/
def n8Value (f code : Nat) : Fl :=
  let (mb, bias) := n8Bits f
  let neg := code.testBit 7
  let e := bitsOf code mb (7 - mb)
  let m := bitsOf code 0 mb
  if code % 128 = 0 then .fin false 0 0
  else if e = 0 then .fin neg m (1 - (bias : Int) - (mb : Int))
  else .fin neg (m + 2 ^ mb) ((e : Int) - (bias : Int) - (mb : Int))

/-- The exact value of a code of any format (06 R196 to R200). -/
def flOf (f code : Nat) : Fl :=
  if f = 3 ∨ f = 4 then n8Value f code
  else if f = 5 then f32 (BitVec.ofNat 32 (code % 65536 * 65536))
  else if f = 6 then f32 (BitVec.ofNat 32 code)
  else let i := intOf f code; .fin (decide (i < 0)) i.natAbs 0

/-- A code as an FP32 word; exact for every format but INT32, which is rounded (06 R201). -/
def codeF32 (f code : Nat) : W32 := if f = 6 then BitVec.ofNat 32 code else toF32 (flOf f code)

/-- Bytes that n elements in a row occupy (06 R194, R195). -/
def fmtBytes (f n : Nat) : Nat := (n * fmtBits f + 7) / 8

/-- The codes of n elements stored in bytes. -/
def unpackCodes (f n : Nat) (bs : List Byte) : List Nat :=
  (List.range n).map fun i =>
    if f = 2 then bitsOf (field bs (i / 2) 1) (4 * (i % 2)) 4 else field bs (i * (fmtBits f / 8)) (fmtBits f / 8)

/-- Codes as stored bytes; an odd INT4 row ends with a zero nibble (06 R195). -/
def packCodes (f : Nat) : List Nat → List Byte
  | [] => []
  | [a] => if f = 2 then leBytes 1 (a % 16) else leBytes (fmtBits f / 8) a
  | a :: b :: r =>
    if f = 2 then leBytes 1 (a % 16 + 16 * (b % 16)) ++ packCodes f r
    else leBytes (fmtBits f / 8) a ++ packCodes f (b :: r)

/-! ## Conversion (06 R207 to R211) -/

/-- A converted code with the events it counts. -/
structure Conv where
  code : Nat
  sat : Bool := false
  nan : Bool := false
  deriving DecidableEq, Repr

/-- The range an integer target may produce: symmetric, or with a zero point (06 R196). -/
def intRange (f : Nat) (zp : Option Int) : Int × Int :=
  if f = 1 then (0, 255)
  else if f = 2 then (if zp.isSome then -8 else -7, 7)
  else (if zp.isSome then -128 else -127, 127)

/-- Round an exact value to an integer. -/
def roundInt (mode : Rnd) (neg : Bool) (m : Nat) (e : Int) : Int :=
  let q := if 0 ≤ e then shl m e else roundShift mode neg m (-e).toNat
  if neg then -(q : Int) else (q : Int)

/-- Convert to an integer format. -/
def convInt (f : Nat) (mode : Rnd) (zp : Option Int) (x : Fl) : Conv :=
  let (lo, hi) := intRange f zp
  let enc (v : Int) : Nat := twos v (fmtBits f)
  match x with
  | .nan => { code := match zp with
                | none => 0
                | some z => enc z, nan := true }
  | .inf neg => { code := enc (if neg then lo else hi), sat := true }
  | .fin neg m e =>
    let v := roundInt mode neg m e + zp.getD 0
    if v < lo then { code := enc lo, sat := true } else if hi < v then { code := enc hi, sat := true } else { code := enc v }

/-- Convert to an N8 format; a result of zero is code 0x00 whatever its sign (06 R198). -/
def convN8 (f : Nat) (mode : Rnd) (x : Fl) : Conv :=
  let (mb, bias) := n8Bits f
  let sign (neg : Bool) : Nat := if neg then 128 else 0
  match x with
  | .nan => { code := 0, nan := true }
  | .inf neg => { code := sign neg + 127, sat := true }
  | .fin neg m e =>
    let (q, ue) := roundTo (mb + 1) (1 - (bias : Int) - (mb : Int)) mode neg m e
    if q = 0 then { code := 0 }
    else if q < 2 ^ mb then { code := sign neg + q }
    else
      let x := ue + (bias : Int) + (mb : Int)
      if (2 ^ (7 - mb) : Int) ≤ x then { code := sign neg + 127, sat := true }
      else { code := sign neg + x.toNat * 2 ^ mb + (q - 2 ^ mb) }

/-- Convert to N16. -/
def convN16 (mode : Rnd) (x : Fl) : Conv :=
  let sign (neg : Bool) : Nat := if neg then 0x8000 else 0
  match x with
  | .nan => { code := 0x7FC0, nan := true }
  | .inf neg => { code := sign neg + 0x7F80 }
  | .fin neg m e =>
    let (q, ue) := roundTo 8 (-133) mode neg m e
    if q < 128 then { code := sign neg + q }
    else
      let x := ue + 134
      if 255 ≤ x then { code := sign neg + 0x7F7F, sat := true } else { code := sign neg + x.toNat * 128 + (q - 128) }

/-- Convert an FP32 word, already multiplied by its reciprocal scale, to a format (06 R207). -/
def convert (f : Nat) (mode : Rnd) (zp : Option Int) (x : W32) : Conv :=
  if f = 6 then { code := x.toNat }
  else if f = 5 then convN16 mode (f32 x)
  else if f = 3 ∨ f = 4 then convN8 f mode (f32 x)
  else convInt f mode zp (f32 x)

/-- The mode of a field value (06 R208). -/
def rndOf (field_ : Nat) : Rnd := if field_ = 0 then .even else .away

/-! ## Dynamic row scales (06 R212 to R215) -/

/-- qmax of a dynamic target as FP32; zero when the target is not permitted. -/
def qmax (f : Nat) : W32 :=
  if f = 0 then fOfInt 127 else if f = 2 then fOfInt 7 else if f = 3 then fOfInt 480 else if f = 4 then fOfInt 114688 else 0

/-- amax: the largest magnitude of the finite elements. -/
def amax (xs : List W32) : W32 := (xs.filter isFinite).foldl (fun a x => if fLt a (fAbs x) then fAbs x else a) 0

/-- The scale of a row as an N16 code. -/
def rowScale (f : Nat) (a : W32) : Nat :=
  if a.toNat = 0 then 0x3F80
  else
    let c := (convN16 .up (f32 (fDiv a (qmax f)))).code
    if c < 0x0080 then 0x0080 else c

/-- An N16 code as FP32. -/
def n16F32 (c : Nat) : W32 := BitVec.ofNat 32 (c % 65536 * 65536)

/-- The constant 1.0. -/
def one32 : W32 := 0x3F800000

/-- The reciprocal of a row's scale. -/
def rowRecip (scale : Nat) : W32 := fDiv one32 (n16F32 scale)

/-- A row converted with its dynamic scale: the scale and the codes with their events. -/
def dynamicRow (f : Nat) (a : W32) (xs : List W32) : Nat × List Conv :=
  let s := rowScale f a
  let r := rowRecip s
  (s, xs.map fun x => convert f .even none (fMul x r))

/-! ## Integer accumulation (06 R203 to R205) -/

/-- INT32 saturation: the value and whether it saturated (06 R204). -/
def sat32 (v : Int) : Int × Bool :=
  if v < -2147483648 then (-2147483648, true) else if 2147483647 < v then (2147483647, true) else (v, false)

/-- K indices in one exact group of the float modes (06 R202). -/
def groupK (f : Nat) : Nat := if f = 5 then 2 else 8

/-- Pairs of operand formats the cells multiply (06 R202). -/
def pairOk (a w : Nat) : Bool :=
  ((a == 0 || a == 1) && w == 0) || (a == 0 && w == 2) || (a == 2 && w == 2)
    || ((a == 3 || a == 4) && (w == 3 || w == 4)) || (a == 5 && w == 5)

/-- The pair accumulates in FP32. -/
def pairFloat (a : Nat) : Bool := decide (3 ≤ a ∧ a ≤ 5)

/-- Groups of g consecutive elements. -/
def chunks {α : Type} (g : Nat) : Nat → List α → List (List α)
  | 0, _ => []
  | n + 1, xs => if xs.isEmpty then [] else xs.take g :: chunks g n (xs.drop g)

/-- A float reduction: each group's exact sum is added to the accumulator with one rounding (06 R205). -/
def floatReduce (g : Nat) (acc : W32) (products : List Fl) : W32 :=
  (chunks g products.length products).foldl (fun a xs => toF32 (exactSum (f32 a :: xs))) acc

/-- An integer reduction, saturating at the range of the accumulator: the value and the saturations. -/
def intReduce (acc : Int) (products : List Int) : Int × Nat :=
  products.foldl (fun (a, n) p => let r := sat32 (a + p); (r.1, n + bit r.2)) (acc, 0)

end Sys2Proof.Machine
end

