-- ==== Sys2Proof/Machine/Hash.lean ====
section
/-! DEFINITION. The checksums, digests and signatures of the manual: CRC-32 with the IEEE 802.3 polynomial
(02 R50), SHAKE256 (04 R54, 14 R419), and XMSS-SHAKE256_20_256 verification (02 R56, 19 R554). -/

namespace Sys2Proof.Machine

/-! ## CRC-32 (02 R50, 04 R161): reflected polynomial 0xEDB88320, initial and final inversion -/

/-- One bit of the reflected CRC. -/
def crcBit (c : W32) : W32 := if c.getLsbD 0 then (c >>> 1) ^^^ 0xEDB88320#32 else c >>> 1

/-- `n` bits of the reflected CRC. -/
def crcBits : Nat → W32 → W32
  | 0, c => c
  | n + 1, c => crcBits n (crcBit c)

/-- The CRC-32 of a byte string. -/
def crc32 (bs : List Byte) : W32 :=
  ~~~(bs.foldl (fun c b => crcBits 8 (c ^^^ b.setWidth 32)) 0xFFFFFFFF#32)

/-! ## SHAKE256 -/

/-- A Keccak state: 25 lanes, lane x + 5 y at place x + 5 y. -/
abbrev Lanes := List W64

/-- A lane of a state. -/
def lane (a : Lanes) (i : Nat) : W64 := a.getD i 0

/-- The rotation offsets of rho, by lane. -/
def rhoOffsets : List Nat :=
  [0, 1, 62, 28, 27, 36, 44, 6, 55, 20, 3, 10, 43, 25, 39, 41, 45, 15, 21, 8, 18, 2, 61, 56, 14]

/-- The round constants of iota. -/
def roundConstants : List W64 :=
  [0x0000000000000001#64, 0x0000000000008082#64, 0x800000000000808A#64, 0x8000000080008000#64,
   0x000000000000808B#64, 0x0000000080000001#64, 0x8000000080008081#64, 0x8000000000008009#64,
   0x000000000000008A#64, 0x0000000000000088#64, 0x0000000080008009#64, 0x000000008000000A#64,
   0x000000008000808B#64, 0x800000000000008B#64, 0x8000000000008089#64, 0x8000000000008003#64,
   0x8000000000008002#64, 0x8000000000000080#64, 0x000000000000800A#64, 0x800000008000000A#64,
   0x8000000080008081#64, 0x8000000000008080#64, 0x0000000080000001#64, 0x8000000080008008#64]

/-- One round of Keccak-f[1600]. -/
def keccakRound (a : Lanes) (rc : W64) : Lanes :=
  let c := (List.range 5).map fun x =>
    lane a x ^^^ lane a (x + 5) ^^^ lane a (x + 10) ^^^ lane a (x + 15) ^^^ lane a (x + 20)
  let d := (List.range 5).map fun x => lane c ((x + 4) % 5) ^^^ (lane c ((x + 1) % 5)).rotateLeft 1
  let t := (List.range 25).map fun i => lane a i ^^^ lane d (i % 5)
  -- pi: B[y, 2x + 3y] = rot(A[x, y]); the source of place (X, Y) is x = (X + 3 Y) mod 5, y = X
  let b := (List.range 25).map fun i =>
    let src := ((i % 5 + 3 * (i / 5)) % 5) + 5 * (i % 5)
    (lane t src).rotateLeft (rhoOffsets.getD src 0)
  let e := (List.range 25).map fun i =>
    let y := 5 * (i / 5)
    lane b i ^^^ (~~~(lane b (y + (i + 1) % 5)) &&& lane b (y + (i + 2) % 5))
  match e with
  | [] => []
  | h :: r => (h ^^^ rc) :: r

/-- Keccak-f[1600]. -/
def keccakF (a : Lanes) : Lanes := roundConstants.foldl keccakRound a

/-- The 136 bytes of the rate of SHAKE256. -/
def rateBytes : Nat := 136

/-- XOR one block of 136 bytes into the state. -/
def absorbBlock (a : Lanes) (block : List Byte) : Lanes :=
  (List.range 25).map fun i =>
    lane a i ^^^ (if i < 17 then BitVec.ofNat 64 (field block (8 * i) 8) else 0)

/-- Absorb `n` whole blocks. -/
def absorb : Nat → Lanes → List Byte → Lanes
  | 0, a, _ => a
  | n + 1, a, bs => absorb n (keccakF (absorbBlock a (bs.take rateBytes))) (bs.drop rateBytes)

/-- The padding of SHAKE: 1111, then 10*1. -/
def shakePad (bs : List Byte) : List Byte :=
  let gap := rateBytes - 1 - bs.length % rateBytes
  if gap = 0 then bs ++ [0x9F#8] else bs ++ [0x1F#8] ++ List.replicate (gap - 1) 0#8 ++ [0x80#8]

/-- Squeeze `n` blocks of output. -/
def squeeze : Nat → Lanes → List Byte
  | 0, _ => []
  | n + 1, a => (a.take 17).flatMap (fun w => leBytes 8 w.toNat) ++ squeeze n (keccakF a)

/-- The first `n` bytes of SHAKE256 of a message. -/
def shake256 (msg : List Byte) (n : Nat) : List Byte :=
  let p := shakePad msg
  let a := absorb (p.length / rateBytes) (List.replicate 25 0#64) p
  (squeeze (n / rateBytes + 1) a).take n

/-- The 256-bit digest of section digests, key hashes and reports. -/
def digest256 (msg : List Byte) : List Byte := shake256 msg 32

/-! ## XMSS-SHAKE256_20_256 (RFC 8391, SP 800-208): n = 32, w = 16, 67 chains, height 20 -/

/-- `n` big-endian bytes of a number. -/
def beBytes (n v : Nat) : List Byte := (leBytes n v).reverse

/-- Bytewise exclusive or. -/
def xorBytes (a b : List Byte) : List Byte := List.zipWith (· ^^^ ·) a b

/-- A keyed hash of the scheme: prefix number in 32 bytes, key, message. -/
def xmssHash (kind : Nat) (key msg : List Byte) : List Byte := shake256 (beBytes 32 kind ++ key ++ msg) 32

/-- An address of RFC 8391 as eight words: layer, tree, type and the four words of the type. -/
structure XAddr where
  layer : Nat := 0
  tree : Nat := 0
  kind : Nat := 0
  w4 : Nat := 0
  w5 : Nat := 0
  w6 : Nat := 0
  mask : Nat := 0
  deriving DecidableEq, Repr

/-- The 32 bytes of an address. -/
def xaddrBytes (a : XAddr) : List Byte :=
  beBytes 4 a.layer ++ beBytes 8 a.tree ++ beBytes 4 a.kind ++ beBytes 4 a.w4 ++ beBytes 4 a.w5
    ++ beBytes 4 a.w6 ++ beBytes 4 a.mask

/-- PRF of a seed and an address. -/
def xprf (seed : List Byte) (a : XAddr) : List Byte := xmssHash 3 seed (xaddrBytes a)

/-- RAND_HASH of two nodes. -/
def randHash (seed : List Byte) (a : XAddr) (l r : List Byte) : List Byte :=
  let key := xprf seed { a with mask := 0 }
  let m0 := xprf seed { a with mask := 1 }
  let m1 := xprf seed { a with mask := 2 }
  xmssHash 1 key (xorBytes l m0 ++ xorBytes r m1)

/-- `steps` steps of a WOTS+ chain from step `i`. -/
def chain (seed : List Byte) (a : XAddr) : Nat → Nat → List Byte → List Byte
  | 0, _, x => x
  | n + 1, i, x =>
    let key := xprf seed { a with w6 := i, mask := 0 }
    let bm := xprf seed { a with w6 := i, mask := 1 }
    chain seed a n (i + 1) (xmssHash 0 key (xorBytes x bm))

/-- Base-16 digits of a byte string, high half first. -/
def base16 (bs : List Byte) : List Nat := bs.flatMap fun b => [b.toNat / 16, b.toNat % 16]

/-- The 67 digits that a WOTS+ signature of a 32-byte digest covers: 64 of the digest and 3 of its checksum. -/
def wotsDigits (m : List Byte) : List Nat :=
  let d := base16 m
  let csum := (d.map (15 - ·)).sum
  d ++ [csum / 256 % 16, csum / 16 % 16, csum % 16]

/-- The public chain ends that a WOTS+ signature gives. -/
def wotsPkFromSig (seed : List Byte) (a : XAddr) (m : List Byte) (sig : List (List Byte)) : List (List Byte) :=
  (List.zip (wotsDigits m) sig).zipIdx.map fun ((d, x), i) => chain seed { a with w5 := i } (15 - d) d x

/-- One layer of the L-tree: pairs are hashed, an odd last node rises unchanged. -/
def ltreeLayer (seed : List Byte) (a : XAddr) : Nat → List (List Byte) → List (List Byte)
  | i, l :: r :: rest => randHash seed { a with w6 := i } l r :: ltreeLayer seed a (i + 1) rest
  | _, [x] => [x]
  | _, [] => []

/-- The L-tree of a WOTS+ public key; 7 layers bring 67 nodes to one. -/
def ltree (seed : List Byte) (a : XAddr) : Nat → Nat → List (List Byte) → List Byte
  | 0, _, ns => ns.headD []
  | n + 1, h, ns => ltree seed a n (h + 1) (ltreeLayer seed { a with w5 := h } 0 ns)

/-- The root that an authentication path gives for a leaf. -/
def rootFromPath (seed : List Byte) (a : XAddr) : Nat → Nat → List Byte → List (List Byte) → List Byte
  | _, _, node, [] => node
  | idx, h, node, sib :: rest =>
    let a' := { a with w5 := h, w6 := idx / 2 }
    let n' := if idx % 2 = 0 then randHash seed a' node sib else randHash seed a' sib node
    rootFromPath seed a (idx / 2) (h + 1) n' rest

/-- `n` successive 32-byte pieces. -/
def pieces32 : Nat → List Byte → List (List Byte)
  | 0, _ => []
  | n + 1, bs => bs.take 32 :: pieces32 n (bs.drop 32)

/-- The OID that SP 800-208 assigns to XMSS-SHAKE256_20_256, in the byte order of RFC 8391 (00 R6, 19 R554). -/
def xmssOid : List Byte := [0x00#8, 0x00#8, 0x00#8, 0x12#8]

/-- The root of the XMSS tree that a signature of `msg` leads to. -/
def xmssRoot (seed root sig msg : List Byte) (height : Nat) : List Byte :=
  let idx := leNat (sig.take 4).reverse
  let r := (sig.drop 4).take 32
  let m := xmssHash 2 (r ++ root ++ beBytes 32 idx) msg
  let ends := wotsPkFromSig seed { kind := 0, w4 := idx } m (pieces32 67 (sig.drop 36))
  let leaf := ltree seed { kind := 1, w4 := idx } 7 0 ends
  rootFromPath seed { kind := 2 } idx 0 leaf (pieces32 height (sig.drop (36 + 67 * 32)))

/-- Verification of a 2,820-byte signature under a public key of OID, root and public seed (19 R554). -/
def xmssVerify (oid root seed msg sig : List Byte) : Bool :=
  oid == xmssOid && sig.length == 2820 && xmssRoot seed root sig msg 20 == root

end Sys2Proof.Machine
end

