-- ==== Sys2Proof/Machine/Journal.lean ====
section
/-! DEFINITION. The event journal (04 R161 to R163, R645): the bytes of a record, its number, the reserve it is
written to, the marks in flash, and the datagrams of metadata export (18 R533). -/

namespace Sys2Proof.Machine

/-- A byte list cut or filled with zeros to `n` bytes. -/
def padTo (n : Nat) (bs : List Byte) : List Byte := (bs ++ List.replicate n 0#8).take n

/-- A two's-complement little-endian field of `n` bytes. -/
def leInt (n : Nat) (v : Int) : List Byte := leBytes n (twos v (8 * n))

/-- The four 16-bit coordinates of a box (11 R340). -/
def boxBytes (b : Box) : List Byte := leInt 2 b.x0 ++ leInt 2 b.y0 ++ leInt 2 b.x1 ++ leInt 2 b.y1

/-- The payload of a record of a type, from offset 40 (the chapter of 04 R163). -/
def payloadBytes (type : Nat) : Payload → List Byte
  | .picture p => leBytes 1 p.engine ++ leBytes 1 p.cls ++ leBytes 2 p.flags ++ leBytes 4 p.ctus
      ++ leBytes 4 p.concealed ++ leBytes 4 p.errOffset ++ leBytes 4 p.cycles ++ leBytes 4 p.budget
      ++ leBytes 8 p.arrival ++ leBytes 4 p.run ++ leBytes 4 p.missing
  | .stream p => leBytes 1 p.cls ++ leBytes 1 p.codec ++ leBytes 2 p.width ++ leBytes 2 p.height
      ++ leBytes 2 0 ++ leBytes 8 p.count
  | .discontinuity r d e => leBytes 8 r ++ leInt 8 d ++ leInt 8 e
  | .stl p => leBytes 1 p.source ++ leBytes 1 p.reason ++ leBytes 1 p.check ++ leBytes 1 0 ++ leBytes 2 p.entry
      ++ leBytes 2 p.entries ++ leBytes 1 p.slotA ++ leBytes 1 p.slotB ++ leBytes 1 p.running
      ++ leBytes 1 p.dirDefault ++ leBytes 2 p.stream ++ leBytes 2 0 ++ leBytes 8 p.instant ++ leBytes 8 p.charter
  | .tim p => leBytes 1 p.before ++ leBytes 1 p.after ++ leBytes 1 p.quality ++ leBytes 1 0 ++ leBytes 2 p.ratio
      ++ leBytes 2 p.threshold ++ leInt 8 p.offset ++ leInt 8 p.step ++ leBytes 8 p.stationBefore ++ leBytes 4 p.seconds
  | .pre p =>
    if type = 0x0042 then leBytes 1 p.region ++ leBytes 1 p.status ++ leBytes 1 p.segment ++ leBytes 1 p.before
      ++ leBytes 4 0 ++ leBytes 8 p.value ++ leBytes 8 p.tile ++ leBytes 1 p.count
    else if type = 0x0043 then leBytes 8 p.value ++ leBytes 1 p.first ++ leBytes 1 p.entries.length ++ leBytes 2 0
      ++ p.entries.flatMap fun e => leBytes 2 e.1 ++ leBytes 1 e.2
    else if type = 0x0044 then leBytes 8 p.value ++ leBytes 8 p.tile
    else leBytes 1 p.region ++ leBytes 7 0 ++ leBytes 8 p.value
  | .clr p => leBytes 4 p.handle ++ leBytes 1 p.cls ++ leBytes 1 p.reason ++ leBytes 2 p.hits
      ++ leBytes 8 p.identity ++ boxBytes p.box ++ leBytes 8 p.opened ++ leBytes 2 p.peer ++ leBytes 4 p.peerHandle
      ++ leBytes 4 p.count
  | .enc p => leBytes 8 p.ident ++ leBytes 1 p.encoder ++ leBytes 1 p.flags ++ leBytes 2 p.raises
      ++ leBytes 4 p.emitted ++ leBytes 8 p.bits ++ leBytes 8 p.first ++ leBytes 8 p.last
  | .adp p => leBytes 4 p.job ++ leBytes 1 p.reason ++ leBytes 3 0 ++ leBytes 8 p.step ++ leBytes 4 p.candidate
      ++ leBytes 4 p.inForce ++ leBytes 4 p.samples ++ leBytes 4 0 ++ leBytes 32 p.digest
  | .flt p => leBytes 1 p.cls ++ leBytes 1 p.source ++ leBytes 1 p.unit ++ leBytes 1 p.second ++ leBytes 1 p.third
      ++ leBytes 1 p.strikes ++ leBytes 2 0 ++ leBytes 4 p.job ++ leBytes 8 p.tile ++ leBytes 8 p.address
      ++ leBytes 8 p.mark ++ leBytes 4 p.count
  | .saf p => leBytes 1 p.zone ++ leBytes 1 p.channel ++ leBytes 1 p.cause ++ leBytes 1 p.mapping
      ++ leBytes 1 p.engX ++ leBytes 1 p.engY ++ leBytes 1 p.engZ ++ leBytes 1 p.u ++ leBytes 8 p.deadline
      ++ leBytes 8 p.arrival ++ leBytes 2 p.cell ++ leBytes 4 p.count
  | .lnk p => leBytes 1 p.port ++ leBytes 1 p.state ++ leBytes 2 p.peer ++ leBytes 8 p.identifier
      ++ leBytes 4 p.count ++ leBytes 4 p.left
  | .sec p => leBytes 1 p.lifecycle ++ leBytes 1 p.counter ++ leBytes 2 p.value ++ leBytes 1 p.signer ++ leBytes 3 0
      ++ leBytes 8 p.perms ++ leBytes 4 p.duration
  | .dbg p => leBytes 1 p.slot ++ leBytes 1 p.result ++ leBytes 2 p.code ++ leBytes 4 p.tensor ++ leBytes 8 p.digest
      ++ leBytes 8 p.tick

/-- The first 124 bytes of a record (04 R161). -/
def recordBody (r : Rec) : List Byte :=
  leBytes 8 r.seq ++ leBytes 8 r.station ++ leBytes 2 r.stream ++ leBytes 2 r.type ++ leBytes 2 r.epoch
    ++ leBytes 1 r.account ++ leBytes 1 (r.status % 16) ++ leBytes 8 r.tick ++ leBytes 1 r.unitClass ++ leBytes 1 r.inst
    ++ leBytes 6 0 ++ padTo 80 (payloadBytes r.type r.payload) ++ leBytes 4 0

/-- The 128 bytes of a record, closed by its CRC-32 (04 R161). -/
def recordBytes (r : Rec) : List Byte :=
  let b := recordBody r
  b ++ leBytes 4 (crc32 b).toNat

/-! ## The reserve -/

/-- Records the reserve in force holds (16 R498). -/
def State.reserveSlots (s : State) : Nat := s.cfg.journalBytes / 128

/-- Where the record of a number lies in the reserve. -/
def State.recordAddr (s : State) (seq : Nat) : Nat :=
  s.layout.journal + 128 * (if s.reserveSlots = 0 then 0 else seq % s.reserveSlots)

/-- A record held in the reserve whose granules are void (14 R414). -/
def State.recordVoid (s : State) (seq : Nat) : Bool := s.anyVoid (s.recordAddr seq) 128

/-- Reclaim the oldest records beyond `n`, keeping account of those never delivered to an enabled ring (17 R512). -/
def reclaim (s : State) (n : Nat) : State :=
  let drop := s.journal.held.length - n
  let gone := s.journal.held.take drop
  let undelivered := if s.pci.jrnEnable then gone.filter fun r => decide (s.pci.jrnNext ≤ r.seq) else []
  let j := s.journal
  { s with journal := { j with
      held := j.held.drop drop
      lostFirst := if j.lostCount = 0 then (undelivered.headD { type := 0, unitClass := 0, payload := .dbg {} }).seq else j.lostFirst
      lostCount := j.lostCount + undelivered.length } }

/-! ## Export (18 R531, R533) -/

/-- The row of 04 R163 a record type belongs to. -/
def typeRow (type : Nat) : Nat :=
  if type < 0x0040 then 0 else if type < 0x0080 then 1 else if type < 0x0100 then 12
  else if type < 0x0C00 then type / 0x100 + 1 else 12

/-- A record joins the queue of every destination whose mask selects its type. -/
def exportRecord (s : State) (r : Rec) : State :=
  match s.cfg.peer with
  | none => s
  | some p =>
    if !p.exportOn then s else
    (p.dests.zipIdx).foldl (fun a (d, i) =>
      if d.mask.testBit (typeRow r.type) then
        let q := Table.get [] i a.lnk.exports
        { a with lnk := { a.lnk with
            exports := Table.set [] i (q ++ [r]) a.lnk.exports
            exportSince := if q.isEmpty then Table.set 0 i (a.time.elapsed + 1) a.lnk.exportSince else a.lnk.exportSince } }
      else a) s

/-! ## GPIO pulses (21 R620) -/

/-- Every GPIO of function 4 whose parameter is the type is asserted for 100 ms. -/
def gpioPulses (s : State) (type : Nat) : State :=
  (List.range 8).foldl (fun a g =>
    let c := (a.cfg.gpio g).toNat
    if bitsOf c 28 4 = 4 ∧ bitsOf c 0 16 = type then
      { a with pins := { a.pins with gpioUntil := Table.set 0 g (a.time.elapsed + 100000000) a.pins.gpioUntil } }
    else a) s

/-! ## Numbering -/

/-- The writer numbers the oldest waiting record, writes it to the reserve and hands it to export; a record that
would reach the last complete mark waits (04 R162). -/
def appendRecord (s : State) : State :=
  match s.journal.waiting with
  | [] => s
  | r :: rest =>
    if s.journal.lastMark ≤ s.journal.next then s
    else
      let r1 := { r with seq := s.journal.next }
      let s1 := { s with journal := { s.journal with waiting := rest, held := s.journal.held ++ [r1], next := s.journal.next + 1 } }
      let s2 := s1.store (s1.recordAddr r1.seq) (recordBytes r1)
      gpioPulses (exportRecord (reclaim s2 s2.reserveSlots) r1) r1.type

/-- JOURNAL_RECORD_APPEND (04 R162). -/
def execJournalRecordAppend (s : State) : Out := done (if s.answers then appendRecord s else s)

/-! ## Marks (04 R162) -/

/-- The 32 bytes of a mark: the magic, a number, zeros, and the CRC-32 over what comes before. -/
def markBytes (n : Nat) : List Byte :=
  let b := leBytes 4 0x4C4D4A53 ++ leBytes 8 n ++ leBytes 16 0
  b ++ leBytes 4 (crc32 b).toNat

/-- The number of a mark that is complete; none of one that failed to program. -/
def Mark.number (m : Mark) : Option Nat :=
  let n := leNat ((m.bytes.drop 4).take 8)
  if m.bytes = markBytes n then some n else none

/-- JOURNAL_MARK_START: the new mark holds the number of the record then being written plus 2^18. It starts at once when that number has
come within 2^17 of the last complete mark, else one second after the mark before it. -/
def execJournalMarkStart (s : State) : Out :=
  done (if s.answers && s.journal.marking.isNone then
    let s1 := if s.journal.lastMark ≤ s.journal.next + 2 ^ 17 then s else s.atElapsed (s.journal.lastMarkStart + second)
    { s1 with journal := { s1.journal with marking := some (s1.journal.next + 2 ^ 18), lastMarkStart := s1.time.elapsed } }
  else s)

/-- The marks kept in the summary: the newest eight. -/
def keepMarks (ms : List Mark) : List Mark := ms.drop (ms.length - 8)

/-- JOURNAL_MARK_COMPLETE: a mark is complete, or what its position holds is no mark, and it is retried at the next erased position. The
bytes left by a failed program are free. -/
def execJournalMarkComplete (ok : Bool) (s : State) : Out :=
  done (match s.journal.marking with
    | none => s
    | some m =>
      if !s.answers then s
      else if ok then
        { s with journal := { s.journal with
            marking := none, lastMark := m, marks := keepMarks (s.journal.marks ++ [⟨s.journal.markPos, markBytes m⟩])
            markPos := s.journal.markPos + 1 } }
      else
        let bytes := (List.range 32).map fun i => if i = 0 then 0xFF#8 else Config.freeByte (s.free + i)
        { s with journal := { s.journal with
            marks := keepMarks (s.journal.marks ++ [⟨s.journal.markPos, bytes⟩]), markPos := s.journal.markPos + 1 }, free := s.free + 32 })

/-- The greatest of a list. -/
def greatest (ms : List Nat) : Nat := ms.foldl max 0

/-- The writer resumes at a start from the highest complete mark plus 2^20; from 0 when there is none (04 R162). -/
def resumeJournal (j : Journal) : Journal :=
  let done_ := j.marks.filterMap Mark.number
  { j with next := if done_.isEmpty then 0 else greatest done_ + 2 ^ 20, lastMark := greatest done_, marking := none }

/-! ## Export datagrams (18 R533) -/

/-- An export datagram: the 16-byte header and its records, in sequence order. -/
def exportDatagram (device : Nat) (rs : List Rec) : List Byte :=
  leBytes 4 0x4C4D4A52 ++ leBytes 2 device ++ leBytes 1 rs.length ++ leBytes 1 0 ++ leBytes 8 ((rs.head?.map (·.seq)).getD 0)
    ++ rs.flatMap recordBytes

/-- EXPORT_DATAGRAM_SEND: up to 11 waiting records leave; void ones are never sent (14 R414), and records that find
the sending port down are dropped and counted. -/
def execExportDatagramSend (dest : Nat) (s : State) : Out :=
  done (match s.cfg.peer with
    | none => s
    | some p =>
      let q := Table.get [] dest s.lnk.exports
      if !s.running || q.isEmpty then s else
      let due := Table.get 0 dest s.lnk.exportSince + 1000000 - 1
      let s1 := if q.length < 11 then s.atElapsed due else s
      let now := q.take 11
      let left := q.drop 11
      let port := (p.dests.getD dest {}).port
      let good := now.filter fun r => !s1.recordVoid r.seq
      let s2 := { s1 with lnk := { s1.lnk with
          exports := Table.set [] dest left s1.lnk.exports
          exportSince := Table.set 0 dest (if left.isEmpty then 0 else s1.time.elapsed + 1) s1.lnk.exportSince } }
      if (s2.netPort port).state ≠ 2 ∨ s2.pins.ethIdle0 ∧ port = 0 ∨ s2.pins.ethIdle1 ∧ port = 1 then
        { s2 with lnk := { s2.lnk with exportDropped := s2.lnk.exportDropped + good.length } }
      else if good.isEmpty then s2
      else s2.modNet port fun n => { n with out := n.out ++ [7], tx := n.tx + 1, frames := n.frames ++ [exportDatagram p.device good] })

/-- GPIO_PULSE_END (21 R620): the pulse of a GPIO of function 4 ends 100 ms after its record. -/
def execGpioPulseEnd (g : Nat) (s : State) : Out :=
  let u := Table.get 0 g s.pins.gpioUntil
  done (if s.answers && decide (u ≠ 0) then
    let s1 := s.atElapsed u
    { s1 with pins := { s1.pins with gpioUntil := Table.set 0 g 0 s1.pins.gpioUntil } }
  else s)

end Sys2Proof.Machine
end

