-- ==== Sys2Proof/Machine/Operands.lean ====
section
/-! DEFINITION. The operand forms of settlement: the 32-byte entry, the rows and sections it names, the settled
registers, and the headers of compiled models. Each form has a parser and a test of its ranges. -/

namespace Sys2Proof.Machine

/-- Signed little-endian field. -/
def sfield (bs : List Byte) (off n : Nat) : Int := signed (field bs off n) (8 * n)

/-- Every byte from `off`, `n` of them, is zero. -/
def zeros (bs : List Byte) (off n : Nat) : Bool := field bs off n == 0

/-- `v` lies in [lo, hi]. -/
def within (v lo hi : Nat) : Bool := decide (lo ≤ v) && decide (v ≤ hi)

/-- `v` is `d` (the code of the default) or lies in [lo, hi]. -/
def orDefault (v d lo hi : Nat) : Bool := v == d || within v lo hi

/-! ## Batch entries (02 R67) -/

/-- A batch entry of 32 bytes. -/
structure Entry where
  kind : Nat
  flags : Nat
  table : Nat
  index : Nat
  value : Nat
  mask : Nat
  rest : Nat
  deriving DecidableEq, Repr

def parseEntry (bs : List Byte) : Entry :=
  { kind := field bs 0 1, flags := field bs 1 1, table := field bs 2 2, index := field bs 4 4
    value := field bs 8 8, mask := field bs 16 8, rest := field bs 24 8 }

def Entry.persist (e : Entry) : Bool := e.flags % 2 == 1

/-! ## Stream rows (04 R136, R137, R138, 05 R167) -/

def parseStreamRow (bs : List Byte) : StreamRow :=
  let f := field bs 2 1
  { active := f.testBit 0, host := f.testBit 1, zone := f.testBit 2, matchSsrc := f.testBit 3
    ipv6 := f.testBit 4, ports := bitsOf f 5 2, account := field bs 3 1, region := field bs 4 1
    codec := field bs 5 1, profile := field bs 6 1, level := field bs 7 1, width := field bs 8 2
    height := field bs 10 2, depth := field bs 12 1, dpb := field bs 13 1, budget := field bs 14 1
    hold := field bs 15 1, fpsMhz := field bs 16 4, window := field bs 20 4, zoneWindow := field bs 24 4
    udpPort := field bs 28 2, payloadType := field bs 30 1, ssrc := field bs 32 4, addr := field bs 36 16
    esUnits := field bs 52 2, ckpt := field bs 54 2, levels := bitsOf (field bs 56 1) 0 3
    planarY := (field bs 56 1).testBit 3, bilinear := (field bs 56 1).testBit 4, ratio := field bs 57 1
    margin := field bs 58 1, fullInterval := field bs 59 1, assist := (field bs 60 1).testBit 0
    adaptSource := (field bs 60 1).testBit 1, cropCap := field bs 62 2 }

/-- The largest picture in luma samples and luma samples per second of a level, in tenths (04 R138); none for a
level the codec's edition does not have. -/
def levelLimits (codec level : Nat) : Option (Nat × Nat) :=
  let h264 : List (Nat × Nat × Nat) :=
    [(10, 99, 1485), (11, 396, 3000), (12, 396, 6000), (13, 396, 11880), (20, 396, 11880), (21, 792, 19800),
     (22, 1620, 20250), (30, 1620, 40500), (31, 3600, 108000), (32, 5120, 216000), (40, 8192, 245760),
     (41, 8192, 245760), (42, 8704, 522240), (50, 22080, 589824), (51, 36864, 983040)]
  let h265 : List (Nat × Nat × Nat) :=
    [(10, 36864, 552960), (20, 122880, 3686400), (21, 245760, 7372800), (30, 552960, 16588800),
     (31, 983040, 33177600), (40, 2228224, 66846720), (41, 2228224, 133693440), (50, 8912896, 267386880),
     (51, 8912896, 534773760), (52, 8912896, 1069547520), (60, 35651584, 1069547520), (61, 35651584, 2139095040)]
  let av1 : List (Nat × Nat × Nat) :=
    [(20, 147456, 4423680), (21, 278784, 8363520), (30, 665856, 19975680), (31, 1065024, 31950720),
     (40, 2359296, 70778880), (41, 2359296, 141557760), (50, 8912896, 267386880), (51, 8912896, 534773760),
     (52, 8912896, 1069547520), (53, 8912896, 1069547520), (60, 35651584, 1069547520)]
  if codec = 1 then ((h264.find? (·.1 == level)).map fun x => (256 * x.2.1, 256 * x.2.2))
  else if codec = 2 then ((h265.find? (·.1 == level)).map (·.2))
  else if codec = 3 then ((av1.find? (·.1 == level)).map (·.2))
  else none

/-- The formats a row can declare (04 R137): depths and largest picture. -/
def formatOk (r : StreamRow) : Bool :=
  match r.codec with
  | 1 => within r.profile 1 3 && r.depth == 8 && decide (r.width ≤ 4096) && decide (r.height ≤ 2304)
  | 2 => (r.profile == 1 && r.depth == 8) || (r.profile == 2 && (r.depth == 8 || r.depth == 10))
  | 3 => r.profile == 0 && (r.depth == 8 || r.depth == 10)
  | _ => false

/-- The destination address is one the row may name (04 R136). Address bytes count from the lowest. -/
def addressOk (bs : List Byte) (ipv6 : Bool) : Bool :=
  if ipv6 then
    !(zeros bs 36 16) && !(zeros bs 36 15 && field bs 51 1 == 1)
  else
    !(zeros bs 36 4) && !(field bs 36 4 == 0xFFFFFFFF) && !(field bs 36 1 == 127) && zeros bs 40 12

/-- The ranges of a stream row of 64 bytes (04 R136 to R138, 05 R167). -/
def streamRowOk (idx : Nat) (bs : List Byte) : Bool :=
  let r := parseStreamRow bs
  field bs 0 2 == idx && within idx 0 1023
    && !(field bs 2 1).testBit 7 && (r.ports != 0 || r.host)
    && within r.account 0 63 && within r.region 0 3
    && formatOk r && within r.width 64 8192 && within r.height 64 4320 && r.width % 2 == 0 && r.height % 2 == 0
    && (match levelLimits r.codec r.level with
        | none => false
        | some (ps, sr) => decide (r.width * r.height ≤ ps) && decide (r.pixelRate ≤ sr * 1000))
    && orDefault r.dpb 0 1 16 && orDefault r.budget 0 2 64 && orDefault r.hold 0xFF 0 100
    && within r.fpsMhz 1000 120000 && within r.window 750 900000
    && (if r.zone then within r.zoneWindow 750 90000 else r.zoneWindow == 0)
    && within r.udpPort 1 65535 && orDefault r.payloadType 0xFF 96 127 && zeros bs 31 1
    && addressOk bs r.ipv6
    && orDefault r.esUnits 0 1 128 && orDefault r.ckpt 0 1 256
    && orDefault r.levels 0 1 6 && bitsOf (field bs 56 1) 5 3 == 0
    && orDefault r.ratio 0 64 224 && orDefault r.margin 0xFF 0 200 && orDefault r.fullInterval 0 1 64
    && bitsOf (field bs 60 1) 2 6 == 0 && zeros bs 61 1 && orDefault r.cropCap 0 1 256

/-! ## Zone rows (15 R446) -/

/-- Rectangle `i` of a zone row. -/
def zoneRect (bs : List Byte) (i : Nat) : Box :=
  { x0 := sfield bs (16 + 8 * i) 2, y0 := sfield bs (18 + 8 * i) 2
    x1 := sfield bs (20 + 8 * i) 2, y1 := sfield bs (22 + 8 * i) 2 }

def parseZoneRow (bs : List Byte) : ZoneRow :=
  { enabled := (field bs 1 1).testBit 0, channel := field bs 2 1, stream := field bs 4 2
    theta := sfield bs 6 1, n := field bs 7 1, c := field bs 8 1, f := field bs 9 1, ageMs := field bs 10 2
    holdMs := field bs 12 2, rects := (List.range (field bs 3 1)).map (zoneRect bs) }

/-- A rectangle is not empty and lies within a picture of w by h. -/
def rectOk (b : Box) (w h : Nat) : Bool :=
  decide (0 ≤ b.x0) && decide (b.x0 < b.x1) && decide (b.x1 ≤ w)
    && decide (0 ≤ b.y0) && decide (b.y0 < b.y1) && decide (b.y1 ≤ h)

/-- The ranges of a zone row, given the picture size of its stream (15 R446). -/
def zoneRowOk (idx : Nat) (bs : List Byte) (w h : Nat) : Bool :=
  let k := field bs 3 1
  field bs 0 1 == idx && within idx 0 63 && bitsOf (field bs 1 1) 1 7 == 0 && within k 1 4
    && within (field bs 6 1) 1 127 && orDefault (field bs 7 1) 0 1 8 && orDefault (field bs 8 1) 0 1 32
    && orDefault (field bs 9 1) 0 2 255 && orDefault (field bs 10 2) 0 1 1000
    && orDefault (field bs 12 2) 0xFFFF 0 10000 && zeros bs 14 2 && zeros bs 48 16
    && (List.range k).all (fun i => rectOk (zoneRect bs i) w h)
    && zeros bs (16 + 8 * k) (8 * (4 - k))

/-- Defaults of coded zone fields (15 R446). -/
def ZoneRow.nLimit (z : ZoneRow) : Nat := if z.n = 0 then 2 else z.n
def ZoneRow.cCount (z : ZoneRow) : Nat := if z.c = 0 then 3 else z.c
def ZoneRow.fLimit (z : ZoneRow) : Nat := if z.f = 0 then 30 else z.f
def ZoneRow.hold (z : ZoneRow) : Nat := if z.holdMs = 0xFFFF then 500 else z.holdMs
/-- The age limit in ms: 0 takes 2 T_z rounded up, T_z = zone window / 90,000 s. -/
def ZoneRow.age (z : ZoneRow) (zoneWindow : Nat) : Nat :=
  if z.ageMs = 0 then ceilDiv (2 * zoneWindow) 90 else z.ageMs

/-! ## Account rows (03 R116) -/

def parseAccountRow (bs : List Byte) : AccountRow :=
  { enabled := (field bs 1 1).testBit 0, share := field bs 2 2, mask := bitsOf (field bs 4 1) 0 4
    sliceUs := field bs 6 2, alarm := field bs 8 2 }

def accountRowOk (idx : Nat) (bs : List Byte) : Bool :=
  field bs 0 1 == idx && within idx 0 63 && within (field bs 2 2) 0 1024
    && bitsOf (field bs 4 1) 0 4 != 0 && zeros bs 5 1 && orDefault (field bs 6 2) 0 50 2000 && zeros bs 10 22

/-! ## Policies (02 R642, 12 R377) -/

def parseMask (bs : List Byte) : MaskProfile :=
  { mosaic := field bs 0 1 == 1, block := field bs 1 1, margin := field bs 2 1
    zones := BitVec.ofNat 64 (field bs 8 8), classes := BitVec.ofNat 256 (field bs 16 32) }

def maskOk (bs : List Byte) : Bool :=
  let size := field bs 1 1
  let mosaicSize := [8, 16, 32, 64].contains size
  ((field bs 0 1 == 0 && (size == 0 || mosaicSize)) || (field bs 0 1 == 1 && mosaicSize))
    && within (field bs 2 1) 0 200 && zeros bs 3 5

def maskBytes (bs : List Byte) (k : Nat) : List Byte := (bs.drop (256 + 48 * k)).take 48

def parsePolicies (bs : List Byte) : Policies :=
  { firstLabel := field bs 0 8, forward := field bs 8 4, backward := field bs 12 4
    eventTimeoutS := field bs 16 2, sliceUs := field bs 18 2, alarm := field bs 20 2
    handoverMs := field bs 22 2, preEventS := field bs 24 1, qpRamp := field bs 25 1
    preEventUnits := field bs 26 2, profiles := (List.range 16).map fun k => parseMask (maskBytes bs k) }

def policiesOk (bs : List Byte) : Bool :=
  bs.length == 1024 && orDefault (field bs 8 4) 0 9000 8100000 && orDefault (field bs 12 4) 0 900 900000
    && orDefault (field bs 16 2) 0 1 600 && orDefault (field bs 18 2) 0 50 2000
    && orDefault (field bs 20 2) 0 0x0100 0xFFFF && orDefault (field bs 22 2) 0 50 10000
    && orDefault (field bs 24 1) 0xFF 0 30 && orDefault (field bs 25 1) 0 1 6 && orDefault (field bs 26 2) 0 1 512
    && zeros bs 28 228 && (List.range 16).all fun k => maskOk (maskBytes bs k)

/-! ## Peer-domain settings (18 R531) -/

def parseDest (bs : List Byte) : ExportDest :=
  { addr := field bs 0 16, udpPort := field bs 16 2, port := field bs 18 1, mask := field bs 20 2 }

def parseAdjacency (bs : List Byte) : Adjacency :=
  { stream := field bs 0 2, peer := field bs 2 2, peerStream := field bs 4 2
    edge := { x0 := sfield bs 8 2, y0 := sfield bs 10 2, x1 := sfield bs 12 2, y1 := sfield bs 14 2 } }

def parseStandby (bs : List Byte) : Standby :=
  { peer := field bs 0 2, stream := field bs 8 2, row := parseStreamRow ((bs.drop 8).take 64) }

/-- Piece `i` of an array of `n`-byte entries from `off`. -/
def piece (bs : List Byte) (off n i : Nat) : List Byte := (bs.drop (off + n * i)).take n

def parsePeer (bs : List Byte) : PeerSettings :=
  let f := field bs 4 1
  let nd := field bs 11 1
  let na := field bs 12 2
  let ns := field bs 14 2
  { domain := field bs 0 2, device := field bs 2 2, sanor0 := f.testBit 0, sanor1 := f.testBit 1
    exportOn := f.testBit 2, missLimit := field bs 5 1, intervalMs := field bs 6 2, backup := field bs 8 2
    replicaShare := field bs 10 1, queryTimeoutMs := field bs 16 2, queryRate := field bs 18 2
    dests := (List.range nd).map fun i => parseDest (piece bs 128 32 i)
    adjacency := (List.range na).map fun i => parseAdjacency (piece bs (128 + 32 * nd) 16 i)
    standby := (List.range ns).map fun i => parseStandby (piece bs (128 + 32 * nd + 16 * na) 72 i)
    ip := [field bs 32 16, field bs 64 16] }

def peerOk (bs : List Byte) : Bool :=
  let nd := field bs 11 1
  let na := field bs 12 2
  let ns := field bs 14 2
  let sOff := 128 + 32 * nd + 16 * na
  decide (128 ≤ bs.length) && within (field bs 2 2) 0 1023 && bitsOf (field bs 4 1) 3 5 == 0
    && orDefault (field bs 5 1) 0 2 50 && orDefault (field bs 6 2) 0 5 1000
    && orDefault (field bs 8 2) 0xFFFF 0 1023 && within (field bs 10 1) 0 100 && within nd 0 4
    && within na 0 256 && within ns 0 768 && orDefault (field bs 16 2) 0 5 500 && zeros bs 20 12
    && zeros bs 56 8 && zeros bs 88 8 && zeros bs 96 32
    && bs.length == sOff + 72 * ns
    && ((List.range nd).all fun i => let b := piece bs 128 32 i
        within (field b 18 1) 0 1 && zeros b 19 1 && zeros b 22 10)
    && ((List.range na).all fun i => let b := piece bs (128 + 32 * nd) 16 i
        within (field b 0 2) 0 1023 && within (field b 2 2) 0 1023 && within (field b 4 2) 0 1023 && zeros b 6 2)
    && ((List.range ns).all fun i => let b := piece bs sOff 72 i
        within (field b 0 2) 0 1023 && zeros b 2 6 && streamRowOk (field b 8 2) ((b.drop 8).take 64))

/-- Defaults of coded peer settings (18 R531). -/
def PeerSettings.miss (p : PeerSettings) : Nat := if p.missLimit = 0 then 5 else p.missLimit
def PeerSettings.interval (p : PeerSettings) : Nat := if p.intervalMs = 0 then 20 else p.intervalMs
def PeerSettings.queryTimeout (p : PeerSettings) : Nat := if p.queryTimeoutMs = 0 then 50 else p.queryTimeoutMs
def PeerSettings.served (p : PeerSettings) : Nat := if p.queryRate = 0 then 1000 else p.queryRate

/-! ## Adaptation settings (13 R390, R391) -/

def parseHead (bs : List Byte) : HeadEntry :=
  { tensor := field bs 0 4, n := field bs 4 2, k := field bs 6 2 }

def fp (bs : List Byte) (off : Nat) : W32 := BitVec.ofNat 32 (field bs off 4)

def parseAdapt (bs : List Byte) : AdaptSettings :=
  { seed := field bs 0 8, steps := field bs 8 4, batch := field bs 12 1, holdout := field bs 13 1
    leastVal := field bs 14 2, lr := fp bs 16, beta1 := fp bs 20, beta2 := fp bs 24, eps := fp bs 28
    margin := field bs 32 4, flip := fp bs 36, scale := fp bs 40, bright := fp bs 44, contrast := fp bs 48
    noise := fp bs 52, mask := field bs 56 1, enabled := (field bs 57 1).testBit 0
    persist := (field bs 57 1).testBit 1, capacity := field bs 58 2, perHour := field bs 60 2
    heads := (List.range (field bs 62 1)).map fun i => parseHead (piece bs 64 16 i) }

/-- An FP32 word is zero or positive and at most `hi`, itself the word of a positive number. -/
def fpUpTo (w : W32) (hi : Nat) : Bool := decide (w.toNat ≤ hi) || w == 0x80000000#32

def adaptOk (bs : List Byte) : Bool :=
  let s := parseAdapt bs
  bs.length == 128 && within s.steps 256 1048576 && s.steps % 256 == 0 && within s.batch 1 64
    && within s.holdout 2 64 && within s.leastVal 16 65535
    && within s.lr.toNat 1 0x3F800000 && fpUpTo s.beta1 0x3F7FFFFF && fpUpTo s.beta2 0x3F7FFFFF
    && within s.eps.toNat 1 0x7F800000 && decide (s.margin < 0x80000000)
    && fpUpTo s.flip 0x3F800000 && fpUpTo s.scale 0x3F000000 && fpUpTo s.bright 0x3F000000
    && fpUpTo s.contrast 0x3F000000 && fpUpTo s.noise 0x3E800000
    && within s.mask 1 15 && bitsOf (field bs 57 1) 2 6 == 0 && within s.capacity 64 65535
    && within s.perHour 1 1024 && within (field bs 62 1) 1 4 && zeros bs 63 1
    && ((List.range (field bs 62 1)).all fun i => zeros (piece bs 64 16 i) 8 8)

/-! ## Compiled models (08 R259 to R261, 15 R448, R449) -/

def parseInput (bs : List Byte) : InputDecl :=
  { fmt := field bs 0 1, mode := field bs 1 1, pad := field bs 2 2, crop := field bs 4 2
    channels := field bs 6 2, mean := [fp bs 8, fp bs 12, fp bs 16], scale := [fp bs 20, fp bs 24, fp bs 28]
    cost := field bs 32 4, recip := fp bs 36, zero := sfield bs 40 1 }

/-- The header of a model image of `size` bytes and its declarations (08 R259): `rd` reads image bytes. -/
def parseModel (rd : Nat → Nat → List Byte) (image size : Nat) (zone : Bool) : Model :=
  let h := rd 0 128
  let io := field h 56 8
  { image := image, size := size, compat := (field h 6 2).testBit 0, firmware := field h 8 4, segments := field h 12 2
    inputs := (List.range (field h 14 2)).map fun i => parseInput (rd (io + 64 * i) 64)
    weights := field h 16 8, perStream := field h 24 8, wsRegion := field h 32 4, wsEngine := field h 36 4
    solo := [field h 40 4, field h 44 4, field h 48 4, field h 52 4], segTable := field h 64 8
    convBytes := if field h 80 8 = 0 then 0 else field (rd (field h 80 8) 16) 0 8
    gw := if zone then field h 88 1 else 0, gh := if zone then field h 89 1 else 0
    evalUs := if zone then field h 92 4 else 0, mapX := if zone then field h 96 8 else 0
    mapY := if zone then field h 104 8 else 0, mapZ := if zone then field h 112 8 else 0 }

/-- One input declaration is in range (08 R260), given the compatibility flag (06 R218). -/
def inputOk (compat : Bool) (bs : List Byte) : Bool :=
  within (field bs 0 1) 0 6 && within (field bs 1 1) 0 1
    && (if field bs 1 1 = 0 then zeros bs 36 5 else compat)
    && within (field bs 4 2) 16 1024 && field bs 4 2 % 2 == 0
    && (field bs 6 2 == 1 || field bs 6 2 == 3) && zeros bs 41 23

/-- The header ranges of a compiled model (08 R259). -/
def modelOk (rd : Nat → Nat → List Byte) (zone : Bool) : Bool :=
  let h := rd 0 128
  let io := field h 56 8
  field h 0 4 == 0x4C4D4D44 && bitsOf (field h 6 2) 1 15 == 0 && within (field h 12 2) 1 256
    && within (field h 14 2) 1 8
    && ((List.range (field h 14 2)).all fun i => inputOk ((field h 6 2).testBit 0) (rd (io + 64 * i) 64))
    && (field h 80 8 == 0 || zeros (rd (field h 80 8) 16) 8 8)
    && (if zone then within (field h 88 1) 1 64 && within (field h 89 1) 1 64 && zeros h 90 2
          && within (field h 92 4) 1 8500 && zeros h 120 8
        else zeros h 88 40)

/-- The commands of an engine program of `n` bytes at `off` of an image. -/
def programCmds (rd : Nat → Nat → List Byte) (off n : Nat) : List (List Byte) :=
  (List.range (n / 128)).map fun i => rd (off + 128 * i) 128

/-- The integer operand pairs of 06 R202. -/
def integerPair (a w : Nat) : Bool :=
  (a == 0 && w == 0) || (a == 1 && w == 0) || (a == 0 && w == 2) || (a == 2 && w == 2)

/-- A command a zone model may hold (15 R449): the zone flag, an integer pair, no vector tile, no split, pooling
codes 0, 2 and 3. -/
def zoneCmdOk (c : List Byte) : Bool :=
  let op := field c 0 1
  if op = 0x10 then true
  else (field c 1 1).testBit 3 && op != 5 && within (field c 60 1) 0 1
    && (op == 4 || integerPair (bitsOf (field c 2 1) 0 4) (bitsOf (field c 2 1) 4 4))
    && (op != 4 || bitsOf (field c 125 1) 0 2 != 1)

/-- The programs of one mapping of a zone model hold only what 15 R449 allows, and its last command gives INT8. -/
def mappingOk (rd : Nat → Nat → List Byte) (table segments : Nat) : Bool :=
  let cmds := (List.range segments).flatMap fun i =>
    let e := rd (table + 32 * i) 32
    programCmds rd (field e 0 8) (field e 8 8)
  cmds.all zoneCmdOk &&
    (match (cmds.filter fun c => field c 0 1 != 0x10).getLast? with
     | none => false
     | some c => bitsOf (field c 3 1) 0 4 == 0)

/-- A zone model passes check 2 (15 R448, R449). -/
def zoneModelOk (rd : Nat → Nat → List Byte) : Bool :=
  let h := rd 0 128
  modelOk rd true && mappingOk rd (field h 96 8) (field h 12 2) && mappingOk rd (field h 104 8) (field h 12 2)
    && mappingOk rd (field h 112 8) (field h 12 2)

/-! ## Settled registers (22 register summary, R635) -/

/-- A settled register: its BAR0 offset and the mask of its settled bits. -/
def settledFields : List (Nat × Nat) :=
  [(0x40010, 0x00FFFFFF), (0x40410, 0xFFFFFFC0), (0x40420, 0x0000000F), (0x51018, 0x007F0FFF),
   (0x54010, 0x00FF07FF), (0x82010, 0xFFFFFFFF), (0xC0008, 0xFFFFFFFF), (0xC1008, 0xFFFFFFFF)]
    ++ (List.range 8).map fun g => (0x40440 + 4 * g, 0xFC00FFFF)

/-- The settled mask of a register offset, when the Passbook lists one. -/
def settledMask (off : Nat) : Option Nat := (settledFields.find? (·.1 == off)).map (·.2)

/-- The value of a settled register (22 R635). -/
def Settled.read (r : Settled) (off : Nat) : W32 :=
  if off = 0x40010 then r.arbWeight
  else if off = 0x40410 then r.dramReserve
  else if off = 0x40420 then r.powerCap
  else if off = 0x51018 then r.timCtrl
  else if off = 0x54010 then r.fltAudit
  else if off = 0x82010 then r.watermark
  else if off = 0xC0008 then r.ptpCorr0
  else if off = 0xC1008 then r.ptpCorr1
  else if 0x40440 ≤ off ∧ off < 0x40460 then Table.get 0 ((off - 0x40440) / 4) r.gpio
  else 0

/-- A settled register replaced. -/
def Settled.write (r : Settled) (off : Nat) (v : W32) : Settled :=
  if off = 0x40010 then { r with arbWeight := v }
  else if off = 0x40410 then { r with dramReserve := v }
  else if off = 0x40420 then { r with powerCap := v }
  else if off = 0x51018 then { r with timCtrl := v }
  else if off = 0x54010 then { r with fltAudit := v }
  else if off = 0x82010 then { r with watermark := v }
  else if off = 0xC0008 then { r with ptpCorr0 := v }
  else if off = 0xC1008 then { r with ptpCorr1 := v }
  else if 0x40440 ≤ off ∧ off < 0x40460 then { r with gpio := Table.set 0 ((off - 0x40440) / 4) v r.gpio }
  else r

/-- The range of a settled register's value (01 R21, 03 R106, 05 R192, 14 R442, 16 R498, 21 R620, R621). -/
def settledOk (off v : Nat) : Bool :=
  if off = 0x40010 then (List.range 6).all fun i => bitsOf v (4 * i) 4 != 0
  else if off = 0x40410 then
    within (bitsOf v 25 7) 4 64 && within (bitsOf v 21 4) 0 4 && within (bitsOf v 16 5) 0 16
      && within (bitsOf v 11 5) 0 16 && within (bitsOf v 6 5) 0 16
  else if off = 0x40420 then within (bitsOf v 0 4) 0 12
  else if off = 0x51018 then
    let a := bitsOf v 0 4
    let b := bitsOf v 4 4
    let c := bitsOf v 8 4
    within a 0 3 && within b 0 3 && within c 0 3
      && (a == 0 || (a != b && a != c)) && (b == 0 || b != c)
  else if off = 0x54010 then within (bitsOf v 16 8) 1 60 && within (bitsOf v 0 11) 1 1024
  else if off = 0x82010 then decide (bitsOf v 0 16 < bitsOf v 16 16)
  else if 0x40440 ≤ off ∧ off < 0x40460 then
    within (bitsOf v 28 4) 0 5 && (bitsOf v 28 4 != 2 || within (bitsOf v 0 16) 0 63)
      && (bitsOf v 28 4 != 3 || within (bitsOf v 0 16) 0 15)
  else true

end Sys2Proof.Machine
end

