-- ==== Sys2Proof/Machine/Timing.lean ====
section
/-! DEFINITION. Station time from its sources (03 R95 to R105): PTP on either port, TIMEIN, holdover; offsets,
slews and steps; and the tick to station mapping of streams (03 R110). -/

namespace Sys2Proof.Machine

/-! ## Sources -/

/-- The ranked sources of TIM_CTRL, highest first (03 R106). -/
def State.ranks (s : State) : List Nat :=
  let v := s.cfg.regs.timCtrl.toNat
  [bitsOf v 0 4, bitsOf v 4 4, bitsOf v 8 4].filter (· != 0)

def State.ptpPort (s : State) (port : Nat) : PtpPort := if port = 0 then s.time.ptp0 else s.time.ptp1
def State.setPtp (s : State) (port : Nat) (p : PtpPort) : State :=
  { s with time := if port = 0 then { s.time with ptp0 := p } else { s.time with ptp1 := p } }

/-- A source is qualified (03 R95): 1 PTP on NET0, 2 PTP on NET1, 3 TIMEIN. -/
def State.qualified (s : State) (code : Nat) : Bool :=
  if code = 1 then s.time.ptp0.qualified else if code = 2 then s.time.ptp1.qualified
  else if code = 3 then s.time.timein.qualified else false

/-- Elapsed time at which a source qualified. -/
def State.qualifiedSince (s : State) (code : Nat) : Nat :=
  if code = 1 then s.time.ptp0.qualifiedSince else if code = 2 then s.time.ptp1.qualifiedSince
  else s.time.timein.qualifiedSince

/-- TIM_STATUS.quality (03 R105). -/
def qualityOf (t : Time) : Nat :=
  if !t.traceable then 0 else if t.source = 4 then 2 else if t.slew ≠ 0 then 3 else 1

def State.fixQuality (s : State) : State := { s with time := { s.time with quality := qualityOf s.time } }

/-- A record of this chapter (03 R644), whose offset is the last one measured: of an event that is no measurement, such as a promotion or
a loss, the manual does not say which (log entry 201); with the time cause of the host interrupt where the source changed or time
stepped (17 R517). -/
def State.timRecord (s : State) (type before : Nat) (step : Int) (stationBefore : Nat) : State :=
  let p : TimPl := { before := before, after := s.time.source, quality := s.time.quality, offset := s.time.offset
                     step := step, stationBefore := stationBefore }
  let s1 := s.emit { s.record type ucTIM (.tim p) with status := if type = 0x0202 then stRANGE else stOK }
  let s2 := s1.trace ucTIM 0xFF 0x0060 (leBytes 1 s.time.source ++ leBytes 1 s.time.quality ++ leBytes 2 0
    ++ leBytes 4 (twos s.time.offset 32))
  if type = 0x0202 then s1 else s2.raise 7

/-- The frequency kept from now on: in holdover the one disciplined to, within the 500 ppm of R102; with a source none, since its
offsets discipline the rate. -/
def keepFrequency (s : State) (code : Nat) : State :=
  if code = 4 then
    { s with time := { s.time with freq := max (-500000) (min 500000 (Config.disciplined s.free)), freqAcc := 0 }, free := s.free + 1 }
  else { s with time := { s.time with freq := 0, freqAcc := 0 } }

/-- Station time changes source (03 R96, R104). -/
def changeSource (s : State) (code : Nat) : State :=
  let before := s.time.source
  let s1 := keepFrequency s code
  ({ s1 with time := { s1.time with source := code } }).fixQuality.timRecord 0x0200 before 0 0

/-- The highest-ranked source that is qualified. -/
def State.bestSource (s : State) : Option Nat := s.ranks.find? s.qualified

/-- The source marked lost (03 R95): PTP counts start again, TIMEIN's next pulse is accepted (03 R100), even of a TIMEIN that never
qualified, which the manual leaves open (log entry 202). -/
def clearSource (s : State) (code : Nat) : State :=
  if code = 3 then
    { s with time := { s.time with timein := { s.time.timein with qualified := false, accepted := 0, rejectedRun := 0, lastAccepted := none } } }
  else if code = 1 ∨ code = 2 then
    s.setPtp (code - 1) { s.ptpPort (code - 1) with qualified := false, good := 0 }
  else s

/-- A source is lost; when it was in use, the best one left or holdover takes its place at once (03 R96). -/
def loseSource (s : State) (code : Nat) : State :=
  let s1 := clearSource s code
  if s.time.source = code then changeSource s1 (s1.bestSource.getD 4) else s1

/-! ## Offsets (03 R101, R102) -/

/-- One millisecond and ten seconds. -/
def stepLimit : Int := 1000000
def falseLimit : Int := -10000000000

/-- The offset of the source in use applied: slewed, stepped at the next whole millisecond, or rejected. -/
def applyOffset (s : State) (theta : Int) : State :=
  if theta < falseLimit then
    let before := s.time.source
    let s1 := loseSource { s with time := { s.time with reject := true } } before
    s1.timRecord 0x0202 before 0 0
  else if stepLimit < theta then
    ({ s with time := { s.time with pendingStep := some (roundUp s.time.elapsed 1000000, theta), slew := 0, slewAcc := 0 } }).fixQuality
  else ({ s with time := { s.time with pendingStep := none, slew := theta, slewAcc := 0 } }).fixQuality

/-- The first qualification after reset steps station time by the whole offset, either way (03 R101). -/
def firstStep (s : State) (code : Nat) (theta : Int) : State :=
  let at_ := s.time.now
  let s1 := { s with time := { s.time with
      traceable := true, now := ((at_ : Int) + theta).toNat, pendingStep := none, slew := 0, slewAcc := 0
      stepped := s.time.stepped || decide (0 < theta) } }
  let s2 := if s1.time.source = code then s1.fixQuality else changeSource s1 code
  s2.timRecord 0x0201 s.time.source theta at_

/-- A source has just qualified with offset theta: with none in use, the best qualified one is taken at once (03 R96, R101). -/
def onQualify (s : State) (code : Nat) (theta : Int) : State :=
  if s.time.source = 0 ∨ s.time.source = 4 then
    match s.bestSource with
    | none => s
    | some k =>
      if k = code then (if s.time.traceable then applyOffset (changeSource s code) theta else firstStep s code theta)
      else changeSource s k
  else s

/-- A measured offset of source `code`: shown, and applied when the source is in use; the first one applied after reset steps station
time by the whole offset (03 R101). -/
def measured (s : State) (code : Nat) (theta : Int) : State :=
  let s1 := { s with time := { s.time with offset := theta } }
  if s1.time.source = code then (if s1.time.traceable then applyOffset s1 theta else firstStep s1 code theta) else s1

/-! ## PTP (03 R95, R97, 18 R530) -/

/-- Ingress and egress totals of a port in ns: the fixed latency of its mode and the board correction (18 R530). -/
def ingressNs (s : State) (port : Nat) : Int :=
  196 + signed ((if port = 0 then s.cfg.regs.ptpCorr0 else s.cfg.regs.ptpCorr1).toNat) 16
def egressNs (s : State) (port : Nat) : Int :=
  142 + signed ((if port = 0 then s.cfg.regs.ptpCorr0 else s.cfg.regs.ptpCorr1).toNat / 65536) 16

/-- The PTP domain of TIM_CTRL. -/
def State.ptpDomain (s : State) : Nat := bitsOf s.cfg.regs.timCtrl.toNat 16 7

/-- The message comes from the selected master of the port, in the domain. -/
def fromMaster (s : State) (port domain sender : Nat) : Bool :=
  domain == s.ptpDomain && (match (s.ptpPort port).master with
    | some m => m.sender == sender
    | none => false)

/-- A Sync measured: master time `t1` at line receive time `t2`; sixteen in a row within 1 us of their run's first
offset qualify the port (03 R95, log entry 31). -/
def syncMeasured (s : State) (port : Nat) (t1 t2 : Int) : State :=
  let p := s.ptpPort port
  let theta := t1 + p.pathDelay - t2
  let inRun := 0 < p.good ∧ theta - p.runOffset ≤ 1000 ∧ p.runOffset - theta ≤ 1000
  let good := if inRun then p.good + 1 else 1
  let p1 := { p with good := good, runOffset := if inRun then p.runOffset else theta, t1 := t1, t2 := t2, awaiting := none }
  let s1 := measured (s.setPtp port p1) (port + 1) theta
  let q := s1.ptpPort port
  if q.good = 0 ∨ q.qualified ∨ good < 16 then s1
  else onQualify (s1.setPtp port { q with qualified := true, qualifiedSince := s1.time.elapsed }) (port + 1) theta

/-- A Sync of the selected master received (03 R97, R102). -/
def syncReceived (s : State) (port domain sender : Nat) (twoStep : Bool) (origin correction rxMac : Int) : State :=
  if !fromMaster s port domain sender then s
  else
    let t2 := rxMac - ingressNs s port
    let s1 := s.setPtp port { s.ptpPort port with lastSync := s.time.elapsed }
    if twoStep then s1.setPtp port { s1.ptpPort port with awaiting := some (sender, t2 - correction) }
    else syncMeasured s1 port (origin + correction) t2

/-- The Follow_Up of a two-step Sync (03 R97). -/
def followUpReceived (s : State) (port domain sender : Nat) (origin correction : Int) : State :=
  match (s.ptpPort port).awaiting with
  | some (who, t2) =>
    if who = sender && fromMaster s port domain sender then syncMeasured s port (origin + correction) t2 else s
  | none => s

/-- The data set an Announce is compared by (IEEE 1588 default algorithm). -/
def announceKey (a : Announce) : List Nat :=
  [a.priority1, a.clockClass, a.accuracy, a.variance, a.priority2, a.identity, a.stepsRemoved, a.sender]

/-- Lexicographic order of keys. -/
def keyBefore : List Nat → List Nat → Bool
  | a :: x, b :: y => decide (a < b) || (a == b && keyBefore x y)
  | _, _ => false

/-- An Announce: the better master is selected, and the selected one's data and UTC offset are kept (03 R92, R97). -/
def announceReceived (s : State) (port domain : Nat) (a : Announce) : State :=
  if domain ≠ s.ptpDomain then s else
  let p := s.ptpPort port
  let take := match p.master with
    | none => true
    | some m => m.sender == a.sender || keyBefore (announceKey a) (announceKey m)
  if !take then s else
  let same := match p.master with
    | some m => m.sender == a.sender
    | none => false
  let s1 := s.setPtp port { p with
      master := some a, lastAnnounce := s.time.elapsed, good := if same then p.good else 0
      awaiting := if same then p.awaiting else none }
  if s.time.source = port + 1 ∨ s.time.source = 0 ∨ 3 ≤ s.time.source then
    { s1 with time := { s1.time with utcOffset := a.utcOffset } }
  else s1

/-- PTP_ANNOUNCE (03 R97). -/
def execPtpAnnounce (port domain : Nat) (a : Announce) (s : State) : Out :=
  done (if s.running && decide (port < 2) then announceReceived s port domain a else s)

/-- A Delay_Resp of the selected master: the mean path delay of the request-response profile (03 R97). -/
def delayResp (s : State) (port domain sender : Nat) (receipt correction : Int) : State :=
  if !fromMaster s port domain sender then s else
  let p := s.ptpPort port
  s.setPtp port { p with pathDelay := ((p.t2 - p.t1) + (receipt - correction - p.t3)) / 2 }

/-- PTP_DELAY_RESP (03 R97). -/
def execPtpDelayResp (port domain sender : Nat) (receipt correction : Int) (s : State) : Out :=
  done (if s.running && decide (port < 2) then delayResp s port domain sender receipt correction else s)

/-- Codes of messages a port sends, in NetPort.out. -/
def outAnswer : Nat := 1
def outDelayReq : Nat := 2
def outPdelayReq : Nat := 3
def outPdelayResp : Nat := 4
def outHeartbeat : Nat := 5
def outSanor : Nat := 6
def outExport : Nat := 7

/-- A port sends a message of a kind. -/
def State.send (s : State) (port code : Nat) : State := s.modNet port fun n => { n with out := n.out ++ [code] }

/-- The peer delay once the turn-around time of the responder is known (03 R97). -/
def peerDelay (p : PtpPort) (turn correction : Int) : Int := (p.pdelayT4 - p.pdelayT1 - turn - correction) / 2

/-- A Pdelay message: a request is answered; a response gives the peer delay at once from a one-step responder, and
with its Follow_Up from a two-step one (03 R97). -/
def pdelayMessage (s : State) (port domain _sender : Nat) (m : Pdelay) (correction rxMac : Int) : State :=
  if domain ≠ s.ptpDomain then s else
  let rx := rxMac - ingressNs s port
  let p := s.ptpPort port
  match m with
  | .req => (s.setPtp port { p with pdelayReqRx := rx }).send port outPdelayResp
  | .resp r =>
    let p1 := { p with pdelayT4 := rx - correction, pdelayTurn := r }
    s.setPtp port (if r = 0 then { p1 with pathDelay := peerDelay p1 0 0 } else p1)
  | .respFollowUp o => s.setPtp port { p with pathDelay := peerDelay p (o - p.pdelayTurn) correction }

/-- PTP_PDELAY_MESSAGE (03 R97). -/
def execPtpPdelayMessage (port domain sender : Nat) (m : Pdelay) (correction rxMac : Int) (s : State) : Out :=
  done (if s.running && decide (port < 2) then pdelayMessage s port domain sender m correction rxMac else s)

/-- PTP_DELAY_REQ_SEND (03 R97, 18 R530): the line transmit time of a Delay_Req or Pdelay_Req. -/
def execPtpDelayReqSend (port : Nat) (peer : Bool) (txMac : Int) (s : State) : Out :=
  done (if s.running && decide (port < 2) then
    let tx := txMac + egressNs s port
    let p := s.ptpPort port
    (s.setPtp port (if peer then { p with pdelayT1 := tx } else { p with t3 := tx })).send port
      (if peer then outPdelayReq else outDelayReq)
  else s)

/-- PTP_SYNC_LOSS (03 R95): eight Sync intervals pass without a Sync. -/
def execPtpSyncLoss (port : Nat) (s : State) : Out :=
  done (if s.running && decide (port < 2) then loseSource s (port + 1) else s)

/-- The announce receipt timeout in ns: three announce intervals of 2^logMessageInterval s (03 R97). -/
def announceTimeoutNs (a : Announce) : Nat :=
  if 0 ≤ a.logInterval then 3 * second * 2 ^ a.logInterval.toNat else 3 * second / 2 ^ (-a.logInterval).toNat

/-- ANNOUNCE_RECEIPT_TIMEOUT (03 R97): the port has no master, and its source is lost. -/
def execAnnounceReceiptTimeout (port : Nat) (s : State) : Out :=
  done (if s.running && decide (port < 2) then
    let p := s.ptpPort port
    match p.master with
    | none => s
    | some m =>
      let s1 := s.atElapsed (p.lastAnnounce + announceTimeoutNs m)
      loseSource (s1.setPtp port { s1.ptpPort port with master := none, awaiting := none }) (port + 1)
  else s)

/-! ## TIMEIN (03 R98 to R100) -/

/-- A pulse is accepted: 1 s ± 100 us after the previous accepted one, or the first (03 R100). -/
def pulseAccepted (t : Timein) (now : Nat) : Bool :=
  match t.lastAccepted with
  | none => true
  | some l => decide (l + 999900000 ≤ now) && decide (now ≤ l + 1000100000)

/-- The label of an accepted pulse (03 R98). -/
def pulseLabel (s : State) : Nat :=
  let t := s.time.timein
  if t.todWritten then t.todNext.toNat
  else match t.label with
    | some l => (l + second) % 2 ^ 64
    | none =>
      if s.time.traceable then (s.time.now + 500000000) / second * second else s.cfg.policies.firstLabel

/-- An accepted pulse: labelled; the fourth in a row qualifies TIMEIN (03 R95, R98). -/
def pulseTaken (s : State) : State :=
  let t := s.time.timein
  let label := pulseLabel s
  let theta := (label : Int) - (s.time.now : Int)
  let t1 := { t with label := some label, todWritten := false
                     accepted := t.accepted + 1, rejectedRun := 0
                     lastAccepted := some s.time.elapsed, lastPulse := some s.time.elapsed }
  let s1 := measured { s with time := { s.time with timein := t1 } } 3 theta
  let u := s1.time.timein
  if u.qualified ∨ u.accepted < 4 then s1
  else onQualify { s1 with time := { s1.time with timein := { u with qualified := true, qualifiedSince := s1.time.elapsed } } } 3 theta

/-- A rejected pulse: counted; accepted ones are no longer consecutive, and the third in a row loses the source (03 R95, R100). -/
def pulseRejected (s : State) : State :=
  let t := s.time.timein
  let s1 := { s with time := { s.time with
      rejects := min 255 (s.time.rejects + 1)
      timein := { t with accepted := 0, rejectedRun := t.rejectedRun + 1, lastPulse := some s.time.elapsed } } }
  if 3 ≤ t.rejectedRun + 1 then loseSource s1 3 else s1

/-- TIMEIN_LOSS (03 R95): no pulse for 1.5 s. -/
def execTimeinLoss (s : State) : Out :=
  done (if s.running then
    match s.time.timein.lastPulse with
    | none => s
    | some l =>
      let s1 := s.atElapsed (l + 1500000000)
      loseSource { s1 with time := { s1.time with timein := { s1.time.timein with lastPulse := none } } } 3
  else s)

/-! ## Promotion (03 R96) -/

/-- The ranked sources above the one in use that are qualified, highest first. -/
def State.higher (s : State) : List Nat :=
  ((s.ranks.takeWhile (· != s.time.source))).filter s.qualified

/-- The least of a list of numbers. -/
def leastOf : List Nat → Option Nat
  | [] => none
  | x :: r => match leastOf r with
    | none => some x
    | some y => some (min x y)

/-- SOURCE_PROMOTION (03 R96): a higher-ranked source has stayed qualified for 60 s. -/
def promote (s : State) : State :=
  if s.time.source = 0 ∨ s.time.source = 4 then s else
  match leastOf (s.higher.map s.qualifiedSince) with
  | none => s
  | some since =>
    let s1 := s.atElapsed (since + 60 * second)
    match s1.higher.find? fun c => decide (s1.qualifiedSince c + 60 * second ≤ s1.time.elapsed) with
    | none => s1
    | some c => changeSource s1 c

def execSourcePromotion (s : State) : Out := done (if s.running then promote s else s)

/-! ## Ticks and station time (03 R110) -/

/-- Quotient rounded to nearest, ties to even, of an integer by a positive number. -/
def roundHalfEven (n : Int) (d : Nat) : Int :=
  let q := n / (d : Int)
  let r := n % (d : Int)
  if 2 * r < d then q else if (d : Int) < 2 * r then q + 1 else if q % 2 = 0 then q else q + 1

/-- The nominal P in 2^-32 ns per tick. -/
def nominalP : Nat := 47721858844444

/-- tick × P in ns, rounded to nearest, ties to even. -/
def tickNs (tick p : Nat) : Int := roundHalfEven ((tick * p : Nat) : Int) (2 ^ 32)

/-- The least of a list of integers. -/
def leastInt : List Int → Option Int
  | [] => none
  | x :: r => match leastInt r with
    | none => some x
    | some y => some (min x y)

/-- o, the least a - tick × P of the last 64 access units. -/
def originOf (t : StreamSt) (p : Nat) : Option Int := leastInt (t.origins.map fun e => (e.1 : Int) - tickNs e.2 p)

/-- The station time of a tick (03 R110). -/
def stationOf (t : StreamSt) (tick : Nat) : Int := (originOf t t.rate).getD 0 + tickNs tick t.rate

/-- P moved by the change in o over the ticks elapsed, within 500 ppm of nominal. -/
def adjustRate (t : StreamSt) : StreamSt :=
  match originOf t t.rate, t.origins.getLast? with
  | some o, some (_, tick) =>
    let t1 := match t.origin60 with
      | some (o60, tick60) =>
        if tick60 < tick then
          let p := (t.rate : Int) + roundHalfEven ((o - o60) * 2 ^ 32) (tick - tick60)
          let lo : Int := nominalP - nominalP / 2000
          let hi : Int := nominalP + nominalP / 2000
          { t with rate := (max lo (min hi p)).toNat }
        else t
      | none => t
    { t1 with origin60 := (originOf t1 t1.rate).map fun o' => (o', tick) }
  | _, _ => t

/-- TICK_MAPPING_UPDATE (03 R110): every 60 s of elapsed time. -/
def execTickMappingUpdate (s : State) : Out :=
  done (if s.running then
    let s1 := s.atMultiple (60 * second)
    (List.range 1024).foldl (fun a n => a.modStream n adjustRate) s1
  else s)

end Sys2Proof.Machine
end

