-- ==== Sys2Proof/Machine/Evidence.lean ====
section
/-! DEFINITION. Evidence clips and live views (12): requests, placement, the pre-event buffer, rate control of
slices, completion, and the encoders. -/

namespace Sys2Proof.Machine

/-! ## Requests (12 R367, R368) -/

def parseEvReq (bs : List Byte) : EvReq :=
  { kind := field bs 0 1, codec := field bs 1 1, stream := field bs 2 2, profile := field bs 4 1
    qt := field bs 5 1, qc := field bs 6 1, rowsPerSlice := field bs 7 1, rmax := field bs 8 4
    window := field bs 12 1, gop := field bs 13 1, toHost := (field bs 14 1).testBit 0
    toNet := (field bs 14 1).testBit 1, te := field bs 16 8, before := field bs 24 4, after := field bs 28 4
    ident := field bs 32 8, addr := field bs 40 16, udpPort := field bs 56 2, payloadType := field bs 58 1 }

/-- The ranges of a request (12 R367); the H.264 encoder reaches level 5.1 (12 R368). -/
def evReqOk (c : Cfg) (bs : List Byte) : Bool :=
  let r := parseEvReq bs
  let row := c.stream r.stream
  within r.kind 1 3 && within r.codec 1 2 && row.active && orDefault r.profile 0xFF 0 15
    && within r.qt 0 51 && within r.qc r.qt 51 && within r.rowsPerSlice 0 16 && within r.rmax 100 100000
    && within r.window 5 100 && within r.gop 1 255 && bitsOf (field bs 14 1) 2 6 == 0 && zeros bs 15 1
    && (r.kind == 1 || r.te == 0) && decide (r.before ≤ c.policies.preSeconds * 90000)
    && decide (r.after ≤ 5400000) && within r.udpPort 1 65535 && within r.payloadType 96 127 && zeros bs 59 5
    && (r.codec != 1 || decide (ceilDiv row.width 16 * ceilDiv row.height 16 ≤ 36864))

/-- Capacity of an encoder in pixels per second × 1,000 (12 R370). -/
def encCapacity : Nat := 497664000 * 1000

/-- Capacity the outputs of encoder n reserve. -/
def State.encLoad (s : State) (n : Nat) : Nat :=
  ((s.evidence.outputs.filter fun o => o.encoder == n).map (·.load)).sum

/-- An encoder has room: within its capacity, or empty for a clip larger than all of it (12 R370). -/
def State.encRoom (s : State) (n load : Nat) (live : Bool) : Bool :=
  !(s.encoder n).fenced && (decide (s.encLoad n + load ≤ encCapacity) || (!live && s.encLoad n == 0))

/-- The encoder of most free capacity that has room, ties to the lower index (12 R370). -/
def State.pickEncoder (s : State) (load : Nat) (live : Bool) : Option Nat :=
  (List.range 4).foldl (fun best n =>
    if !s.encRoom n load live then best
    else match best with
      | none => some n
      | some b => if s.encLoad n < s.encLoad b then some n else best) none

/-- The R11 code of the last request, on every encoder it concerned. -/
def State.encStatus (s : State) (ns : List Nat) (st : Nat) : State :=
  ns.foldl (fun a n => a.modEncoder n fun e => { e with status := st }) s

/-- A record of this chapter (12 R388). -/
def State.encRecord (s : State) (type status stream : Nat) (p : EncPl) (tick : Nat := 0) : State :=
  let r := s.record type ucENC (.enc p)
  s.emit { r with status := status, stream := stream, tick := tick
                  account := (s.cfg.stream stream).account, inst := if type = 0x0402 then 0xFF else p.encoder }

/-- The mask profile a request names, in the configuration of its epoch (12 R387). -/
def maskProfile (c : Cfg) (k : Nat) : MaskProfile := if k = 0xFF then {} else c.policies.profiles.getD k {}

/-! ## The pre-event buffer (12 R372, R373) -/

/-- Bytes a stored access unit takes. -/
def PreEvent.bytes (p : PreEvent) : Nat := p.au.bytes

/-- The bytes the buffer of a stream holds. -/
def preSize (pre : List PreEvent) (masks : List MaskEntry) : Nat := (pre.map (·.bytes)).sum + (masks.map (·.bytes)).sum

/-- An open clip needs a mask entry: a unit pinned for it lies within two analysis windows after the entry (12 R372, R378). -/
def maskPinned (w : Nat) (pre : List PreEvent) (m : MaskEntry) : Bool :=
  pre.any fun e => !e.pins.isEmpty && decide (m.tick ≤ e.au.tick) && decide (e.au.tick ≤ m.tick + 2 * w)

/-- The oldest unit or mask entry that no clip needs given up. -/
def dropStored (w : Nat) (pre : List PreEvent) (masks : List MaskEntry) : Option (List PreEvent × List MaskEntry) :=
  match pre.findIdx? (fun e => e.pins.isEmpty), masks.findIdx? (fun m => !maskPinned w pre m) with
  | none, none => none
  | some i, none => some (pre.eraseIdx i, masks)
  | none, some j => some (pre, masks.eraseIdx j)
  | some i, some j =>
    if ((pre[i]?).map (·.au.arrival)).getD 0 ≤ ((masks[j]?).map (·.stored)).getD 0 then some (pre.eraseIdx i, masks)
    else some (pre, masks.eraseIdx j)

/-- A buffer without its oldest unpinned data until `need` bytes fit in `cap`, or nothing unpinned is left (12 R372). -/
def makeRoom (w cap need : Nat) : Nat → List PreEvent → List MaskEntry → List PreEvent × List MaskEntry
  | 0, es, ms => (es, ms)
  | n + 1, es, ms =>
    if preSize es ms + need ≤ cap then (es, ms)
    else match dropStored w es ms with
      | none => (es, ms)
      | some x => makeRoom w cap need n x.1 x.2

/-- A waiting clip still takes units of a tick. -/
def EvReq.takes (r : EvReq) (tick : Nat) : Bool := r.cut.isNone && decide (tick ≤ r.te + r.after)

/-- A clip in progress still takes units of a tick: it has not been truncated or ended. -/
def Output.takes (o : Output) (tick : Nat) : Bool := !o.live && !o.flags.testBit 1 && !o.flags.testBit 2 && decide (tick ≤ o.last)

/-- Open clips that still need an access unit of a tick. -/
def State.clipsNeeding (s : State) (n tick : Nat) : List Nat :=
  ((s.evidence.queue.filter fun r => r.stream == n && r.takes tick).map (·.ident))
    ++ ((s.evidence.outputs.filter fun o => o.req.stream == n && o.takes tick).map (·.req.ident))

/-- The latest tick of the stored units of a stream. -/
def lastStored (t : StreamSt) : Nat := (t.pre.map (·.au.tick)).foldl max 0

/-! ### What a clip's replay still has to do (12 R374) -/

/-- The next stored unit of a clip that its replay decodes. -/
def nextReplay (s : State) (o : Output) : Option AccessUnit :=
  let pinned := ((s.stream o.req.stream).pre.filter fun e => e.pins.contains o.req.ident).map (·.au)
  pinned[o.replayed]?

/-- Every unit of a clip has been decoded, and no further one comes: its range has passed or it was cut short. -/
def clipFed (s : State) (o : Output) : Bool :=
  (o.flags.testBit 1 || o.flags.testBit 2 || decide (o.last < lastStored (s.stream o.req.stream)) || decide (o.last < (s.stream o.req.stream).lastTick))
    && (nextReplay s o).isNone && !((List.range 18).any fun d => (s.dec d).replay == some o.req.ident)

/-- The picture of a replay that comes first in output order among those of its window. -/
def firstSource (xs : List Source) : Option Source :=
  xs.foldl (fun b p => match b with
    | none => some p
    | some q => if p.order < q.order then some p else some q) none

/-- The pictures that leave the replay window at a boundary; those of the clip's range are coded (12 R374). -/
def replayHandOn : Nat → Output → Output
  | 0, o => o
  | k + 1, o => match firstSource o.dpb with
    | none => o
    | some x => replayHandOn k { o with
        dpb := o.dpb.filter (· != x)
        sources := if decide (o.first ≤ x.tick) && decide (x.tick ≤ o.last) then o.sources ++ [x] else o.sources }

/-- The clips of a stream whose units have all been decoded hand on what their replay windows hold. -/
def flushClips (s : State) (n : Nat) : State :=
  { s with evidence := { s.evidence with outputs := s.evidence.outputs.map fun o =>
      if !o.live && o.req.stream == n && clipFed s o then replayHandOn o.dpb.length o else o } }

/-- Every open clip of a stream ends at its last stored access unit with a flag (12 R373, R376). -/
def endClips (s : State) (n flag : Nat) : State :=
  let lastTick := lastStored (s.stream n)
  flushClips { s with evidence := { s.evidence with
    queue := s.evidence.queue.map fun r =>
      if r.stream == n then { r with flags := r.flags ||| flag, cut := some (min (r.cut.getD lastTick) lastTick) } else r
    outputs := s.evidence.outputs.map fun o =>
      if !o.live && o.req.stream == n then { o with flags := o.flags ||| flag, last := min o.last lastTick } else o } } n

/-- An access unit copied into the pre-event buffer, oldest unpinned data making room (12 R372); a buffer full of
pinned data stores nothing and truncates the clips of the stream (12 R373). -/
def storePre (s : State) (n : Nat) (au : AccessUnit) : State :=
  let t := s.stream n
  let c := s.cfgOf au.epoch
  let (pre, masks) := makeRoom (c.stream n).window c.policies.preBytes au.bytes (t.pre.length + t.masks.length) t.pre t.masks
  let size := preSize pre masks
  if size + au.bytes ≤ c.policies.preBytes then
    flushClips (s.setStream n { t with pre := pre ++ [{ au := au, pins := s.clipsNeeding n au.tick }], masks := masks, preBytes := size + au.bytes }) n
  else endClips (s.setStream n { t with pre := pre, masks := masks, preBytes := size }) n 2

/-- A mask entry appended at an analysed frame (12 R372, R373). -/
def appendMask (s : State) (n : Nat) (m : MaskEntry) : State :=
  let t := s.stream n
  let cap := s.cfg.policies.preBytes
  let (pre, masks) := makeRoom (s.cfg.stream n).window cap m.bytes (t.pre.length + t.masks.length) t.pre t.masks
  let size := preSize pre masks
  if size + m.bytes ≤ cap then s.setStream n { t with pre := pre, masks := masks ++ [m], preBytes := size + m.bytes }
  else endClips (s.setStream n { t with pre := pre, masks := masks, preBytes := size }) n 2

/-- Unpinned data older than the pre-event duration is reclaimed (12 R372). -/
def reclaimPre (s : State) (n : Nat) : State :=
  let t := s.stream n
  let limit := s.cfg.policies.preSeconds * second
  let pre := t.pre.filter fun e => !e.pins.isEmpty || decide (s.time.now ≤ e.au.arrival + limit)
  let masks := t.masks.filter fun m => maskPinned (s.cfg.stream n).window t.pre m || decide (s.time.now ≤ m.stored + limit)
  s.setStream n { t with pre := pre, masks := masks, preBytes := preSize pre masks }

/-- PRE_EVENT_RECLAIM (12 R372). -/
def execPreEventReclaim (n : Nat) (s : State) : Out := done (if s.running then reclaimPre s n else s)

/-- The first access unit a clip needs: the last random-access point at or before its range, else the first stored
one after it; with the short flag in the second case (12 R374). -/
def clipStart (t : StreamSt) (from_ : Nat) : Option (Nat × Bool) :=
  let raps := t.pre.filter fun e => decide (e.au.rap ≠ .no)
  match (raps.filter fun e => decide (e.au.tick ≤ from_)).getLast? with
  | some e => some (e.au.tick, false)
  | none => (raps.head?).map fun e => (e.au.tick, true)

/-- Pin for a clip the access units stored from its start to its end. -/
def pinFor (t : StreamSt) (ident start stop : Nat) : StreamSt :=
  { t with pre := t.pre.map fun e =>
      if decide (start ≤ e.au.tick) && decide (e.au.tick ≤ stop) then { e with pins := e.pins ++ [ident] } else e }

/-- Release the pins of a clip. -/
def unpin (t : StreamSt) (ident : Nat) : StreamSt :=
  { t with pre := t.pre.map fun e => { e with pins := e.pins.filter (· != ident) } }

/-! ## Starting clips (12 R370, R374, R375) -/

/-- The replay pool. -/
def replayPool : Nat := 1024 * 1048576

/-- The clip at the head of the queue starts when an encoder and a replay window are free for it. -/
def startClip (s : State) : State :=
  match s.evidence.queue with
  | [] => s
  | r :: rest =>
    let row := (s.cfgOf r.epoch).stream r.stream
    let window := row.windowBytes
    match s.pickEncoder row.pixelRate false with
    | none => s
    | some n =>
      if replayPool < s.evidence.replayUsed + window then s
      else
        let from_ := r.te - r.before
        let start := (clipStart (s.stream r.stream) from_).getD (from_, true)
        let o : Output := { req := r, encoder := n, first := max from_ start.1, last := min (r.te + r.after) (r.cut.getD (r.te + r.after))
                            flags := r.flags ||| bit start.2, load := row.pixelRate, replay := window }
        let s1 := { s with evidence := { s.evidence with
            queue := rest, outputs := s.evidence.outputs ++ [o], replayUsed := s.evidence.replayUsed + window } }
        (s1.encStatus [n] stOK).encRecord 0x0400 stOK r.stream { ident := r.ident, encoder := n, flags := o.flags } r.te

/-- Insert a clip by the station time of its event (12 R370). -/
def queueClip (r : EvReq) : List EvReq → List EvReq
  | [] => [r]
  | h :: t => if r.station < h.station then r :: h :: t else h :: queueClip r t

/-- A request of kind clip: rejected, or its data pinned and the clip started or queued (12 R374, R375). -/
def clipRequest (s : State) (r : EvReq) : State × Nat :=
  let row := s.cfg.stream r.stream
  if replayPool < row.windowBytes then
    ((s.encStatus (List.range 4) stBUDGET).encRecord 0x0402 stBUDGET r.stream { ident := r.ident }, stBUDGET)
  else
    let t := s.stream r.stream
    let from_ := r.te - r.before
    let start := (clipStart t from_).getD (from_, true)
    let s1 := s.setStream r.stream (pinFor t r.ident start.1 (r.te + r.after))
    (startClip { s1 with evidence := { s1.evidence with queue := queueClip r s1.evidence.queue } }, stOK)

/-! ## Live views (12 R370) -/

def liveStart (s : State) (r : EvReq) : State × Nat :=
  let row := s.cfg.stream r.stream
  match s.pickEncoder row.pixelRate true with
  | none => ((s.encStatus (List.range 4) stBUDGET).encRecord 0x0402 stBUDGET r.stream { ident := r.ident }, stBUDGET)
  | some n =>
    let o : Output := { req := r, encoder := n, live := true, load := row.pixelRate }
    let s1 := { s with evidence := { s.evidence with outputs := s.evidence.outputs ++ [o] } }
    ((s1.encStatus [n] stOK).encRecord 0x0404 stOK r.stream { ident := r.ident, encoder := n }, stOK)

/-- A view ends; with none of the identifier there is nothing to stop. -/
def liveStop (s : State) (r : EvReq) : State × Nat :=
  match s.evidence.outputs.find? fun o => o.live && o.req.ident == r.ident with
  | none => (s.encStatus (List.range 4) stEMPTY, stEMPTY)
  | some o =>
    let s1 := { s with evidence := { s.evidence with outputs := s.evidence.outputs.filter (· != o) } }
    ((s1.encStatus [o.encoder] stOK).encRecord 0x0405 stOK o.req.stream
      { ident := o.req.ident, encoder := o.encoder, flags := o.flags, emitted := o.emitted, bits := o.bits
        first := o.firstCoded, last := o.lastCoded }, stOK)

/-- The station time of an event's tick. -/
def eventStation (s : State) (stream te : Nat) : Nat := (stationOf (s.stream stream) te).toNat

/-- An evidence request of any kind, with the status it completes with (12 R367). -/
def evidenceRequest (s : State) (bs : List Byte) : State × Nat :=
  if !evReqOk s.cfg bs then (s.encStatus (List.range 4) stRANGE, stRANGE)
  else
    let r := parseEvReq bs
    let r1 := { r with station := eventStation s r.stream r.te, epoch := s.stl.epoch.toNat
                       profileData := maskProfile s.cfg r.profile }
    if r.kind = 1 then clipRequest s r1 else if r.kind = 2 then liveStart s r1 else liveStop s r1

/-! ## Slices under rate control (12 R382 to R385) -/

/-- The side of a CTU row of an output: 32 for H.265, a 16 macroblock row for H.264. -/
def ctuSide (codec : Nat) : Nat := if codec = 2 then 32 else 16

/-- Rate control at the start of a CTU row: skip or raise, from budget `a` and the rows and columns of the picture (12 R383, R384). -/
def startRow (a : Int) (rows cols ramp qc : Nat) (o : Output) : Output :=
  let left := (rows - o.row) * cols
  let skip := o.skipping || decide (a - 4 * (left : Int) ≤ (o.spent : Int))
  let raise_ := !skip && decide (1 ≤ o.row) && decide (a * (o.row : Int) < ((o.spent * rows : Nat) : Int))
  let qp := if raise_ then min qc (o.qp + ramp) else o.qp
  { o with
    skips := if skip && !o.skipping then o.skips + left else o.skips
    skipping := skip
    raises := if raise_ && decide (o.qp < qp) then o.raises + 1 else o.raises
    qp := qp }

/-- The bits of the pictures whose ticks lie in the T before a picture (12 R382). -/
def recentBits (o : Output) (tick : Nat) : Nat :=
  ((o.history.filter fun h => decide (tick ≤ h.1 + o.req.window * 9000) && decide (h.1 < tick)).map (·.2)).sum

/-- The budget A of a picture (12 R382). -/
def budgetA (o : Output) (tick : Nat) : Int := (o.req.rmax * 100 * o.req.window : Nat) - (recentBits o tick : Int)

/-- The mask entry that applies to a picture: the latest at or before its tick, within two analysis windows (12 R378). -/
def maskFor (s : State) (o : Output) (tick : Nat) : Option MaskEntry :=
  let w := ((s.cfgOf o.req.epoch).stream o.req.stream).window
  match ((s.stream o.req.stream).masks.filter fun m => decide (m.tick ≤ tick)).getLast? with
  | none => none
  | some m => if m.tick + 2 * w < tick then none else some m

/-- The whole picture is masked: no entry applies, under a class bitmap that is not all zero (12 R378). -/
def wholeMasked (s : State) (o : Output) (tick : Nat) : Bool :=
  decide (o.req.profileData.classes ≠ 0) && (maskFor s o tick).isNone

/-- The clip store without its oldest slices beyond its size (12 R385, 18 R532). -/
def trimStore (cap : Nat) : Nat → List SliceOut → List SliceOut
  | 0, xs => xs
  | n + 1, xs => if (xs.map fun x => 32 + ceilDiv x.bits 8).sum ≤ cap then xs else trimStore cap n (xs.drop 1)

/-- What the replica share leaves of the clip store. -/
def Cfg.clipStore (c : Cfg) : Nat :=
  match c.peer with
  | none => c.clipBytes
  | some p => c.clipBytes * (100 - p.replicaShare) / 100

/-- The output of an encoder by identifier. -/
def State.output (s : State) (n ident : Nat) : Option Output :=
  s.evidence.outputs.find? fun o => o.encoder == n && o.req.ident == ident

/-! ## Completion (12 R376) -/

/-- A clip completes: its record, its pins and its replay window released. -/
def completeClip (s : State) (o : Output) : State :=
  let n := o.req.stream
  let s1 := s.setStream n (unpin (s.stream n) o.req.ident)
  let s2 := { s1 with evidence := { s1.evidence with
      outputs := s1.evidence.outputs.filter (· != o), replayUsed := s1.evidence.replayUsed - o.replay } }
  let s3 := s2.modEncoder o.encoder fun e => { e with idleSince := s.time.elapsed }
  s3.encRecord 0x0401 stOK n { ident := o.req.ident, encoder := o.encoder, flags := o.flags, emitted := o.emitted, bits := o.bits
                               first := o.firstCoded, last := o.lastCoded } o.req.te

end Sys2Proof.Machine
end

