-- ==== Sys2Proof/Machine/Rtp.lean ====
section
/-! DEFINITION. RTP packets and byte streams as ingest reads them (04 R142, R146, 02 R75): the RTP header, the packetizations
supported, and the random-access points that unit types show. -/

namespace Sys2Proof.Machine

/-- The byte at a place; past the end zero. -/
def byteAt (bs : List Byte) (i : Nat) : Nat := (bs.getD i 0).toNat

/-- A big-endian number of n bytes at a place. -/
def beField (bs : List Byte) (off n : Nat) : Nat := ((bs.drop off).take n).foldl (fun a b => 256 * a + b.toNat) 0

/-- An RTP packet: header fields and payload, without CSRC list, header extension and padding. -/
structure Rtp where
  marker : Bool
  payloadType : Nat
  seq : Nat
  timestamp : Nat
  ssrc : Nat
  payload : List Byte
  deriving DecidableEq, Repr

/-- RTCP shares the port with RTP: packet types 192 to 223 in its second byte (04 R142). -/
def isRtcp (bs : List Byte) : Bool := decide (192 ≤ byteAt bs 1) && decide (byteAt bs 1 ≤ 223)

/-- The RTP packet in a UDP payload: version 2 alone; CSRC list, header extension and padding are skipped (04 R142). -/
def parseRtp (bs : List Byte) : Option Rtp :=
  let b0 := byteAt bs 0
  let b1 := byteAt bs 1
  let csrc := 12 + 4 * (b0 % 16)
  let head := if b0.testBit 4 then csrc + 4 + 4 * beField bs (csrc + 2) 2 else csrc
  let pad := if b0.testBit 5 then byteAt bs (bs.length - 1) else 0
  if b0 / 64 ≠ 2 ∨ isRtcp bs ∨ bs.length < head + pad then none
  else some
    { marker := b1.testBit 7, payloadType := b1 % 128, seq := beField bs 2 2, timestamp := beField bs 4 4, ssrc := beField bs 8 4
      payload := (bs.take (bs.length - pad)).drop head }

/-! ## Packetizations (04 R142) -/

/-- The first NAL unit of an H.264 payload: type and the bytes after its header; none for a continued fragment and for a
packetization that is not supported (STAP-B, MTAP16, MTAP24, FU-B). -/
def firstH264 (bs : List Byte) : Option (Nat × List Byte) :=
  let t := byteAt bs 0 % 32
  if 1 ≤ t ∧ t ≤ 23 then some (t, bs.drop 1)
  else if t = 24 then some (byteAt bs 3 % 32, bs.drop 4)
  else if t = 28 ∧ (byteAt bs 1).testBit 7 then some (byteAt bs 1 % 32, bs.drop 2)
  else none

/-- The same of an H.265 payload: single NAL unit, AP and FU; PACI and every other type are not supported. -/
def firstH265 (bs : List Byte) : Option (Nat × List Byte) :=
  let t := byteAt bs 0 / 2 % 64
  if t ≤ 47 then some (t, bs.drop 2)
  else if t = 48 then some (byteAt bs 4 / 2 % 64, bs.drop 6)
  else if t = 49 ∧ (byteAt bs 2).testBit 7 then some (byteAt bs 2 % 64, bs.drop 3)
  else none

/-- A number in LEB128 with the bytes after it. -/
def leb128 : Nat → List Byte → Nat × List Byte
  | 0, bs => (0, bs)
  | _, [] => (0, [])
  | n + 1, b :: bs =>
    if b.toNat < 128 then (b.toNat, bs)
    else
      let r := leb128 n bs
      (b.toNat % 128 + 128 * r.1, r.2)

/-- The OBU elements of an AV1 payload after its aggregation header: with a length before each, but for the last when the
count is given. -/
def obuElements : Nat → Nat → List Byte → List (List Byte)
  | 0, _, _ => []
  | _, _, [] => []
  | k + 1, w, bs =>
    if w = 1 then [bs]
    else
      let r := leb128 8 bs
      r.2.take r.1 :: obuElements k (w - 1) (r.2.drop r.1)

/-- The types of the OBUs that begin in an AV1 packet. -/
def obuTypes (bs : List Byte) : List Nat :=
  let h := byteAt bs 0
  let es := obuElements bs.length (h / 16 % 4) (bs.drop 1)
  ((if h.testBit 7 then es.drop 1 else es).map fun e => byteAt e 0 / 8 % 16)

/-- A payload uses a packetization that ingest supports (04 R142). -/
def supported (codec : Nat) (bs : List Byte) : Bool :=
  let t := byteAt bs 0 % 32
  let u := byteAt bs 0 / 2 % 64
  if codec = 1 then (decide (1 ≤ t) && decide (t ≤ 24)) || t == 28
  else if codec = 2 then decide (u ≤ 49)
  else true

/-! ## Random-access points (04 R153, 02 R75) -/

/-- The random-access point that a NAL unit type of H.264 shows: an IDR slice, or an SEI unit whose first message is a
recovery point. -/
def rapH264 (t : Nat) (body : List Byte) : Rap :=
  if t = 5 then .idr else if t = 6 ∧ byteAt body 0 = 6 then .recoveryPoint else .no

/-- The random-access point of a NAL unit type of H.265. -/
def rapH265 (t : Nat) : Rap :=
  if 16 ≤ t ∧ t ≤ 18 then .bla else if t = 19 ∨ t = 20 then .idr else if t = 21 then .cra else .no

/-- The key frame of AV1: a sequence header with a frame or frame header after it. -/
def rapAv1 (types : List Nat) : Rap :=
  if (types.dropWhile (· != 1)).any fun t => t == 3 || t == 6 then .keyFrame else .no

/-- What a packet shows (02 R75 step 2). -/
def packetRap (codec : Nat) (bs : List Byte) : Rap :=
  if codec = 1 then match firstH264 bs with
    | some (t, b) => rapH264 t b
    | none => .no
  else if codec = 2 then match firstH265 bs with
    | some (t, _) => rapH265 t
    | none => .no
  else rapAv1 (obuTypes bs)

/-- The NAL units of a byte stream with Annex B start codes: what follows each 00 00 01. -/
def annexB : List Byte → List (List Byte)
  | a :: b :: c :: r => if a = 0 ∧ b = 0 ∧ c = 1 then r :: annexB (b :: c :: r) else annexB (b :: c :: r)
  | _ => []

/-- The types of OBUs in low-overhead format, each with its size field. -/
def obuStream : Nat → List Byte → List Nat
  | 0, _ => []
  | _, [] => []
  | k + 1, h :: bs =>
    let body := if h.toNat.testBit 2 then bs.drop 1 else bs
    let r := if h.toNat.testBit 1 then leb128 8 body else (body.length, body)
    h.toNat / 8 % 16 :: obuStream k (r.2.drop r.1)

/-- The first point of a list of units. -/
def firstRap (rs : List Rap) : Rap := (rs.find? fun r => decide (r ≠ .no)).getD .no

/-- The random-access point of a pushed access unit (04 R148, 02 R75). -/
def pushRap (codec : Nat) (bs : List Byte) : Rap :=
  if codec = 1 then firstRap ((annexB bs).map fun u => rapH264 (byteAt u 0 % 32) (u.drop 1))
  else if codec = 2 then firstRap ((annexB bs).map fun u => rapH265 (byteAt u 0 / 2 % 64))
  else rapAv1 (obuStream bs.length bs)

end Sys2Proof.Machine
end

