-- ==== Sys2Proof/Machine/Stream.lean ====
section
/-! DEFINITION. Streams from packet to decode engine (04, 03 R107 to R115): unwrapping, reordering, release into
the elementary-stream buffer, decode dispatch, analysis windows, checkpoints and the records of a stream. -/

namespace Sys2Proof.Machine

/-! ## Records of a stream (04 R164) -/

/-- A record of stream n for work of an access unit. -/
def State.streamRecord (s : State) (type cls inst n : Nat) (epoch tick status : Nat) (p : Payload) : State :=
  let r := s.record type cls p
  s.emit { r with stream := n, epoch := epoch, tick := tick, status := status, inst := inst
                  account := ((s.cfgOf epoch).stream n).account }

/-- The codec byte of the stream payload: profile code above the codec. -/
def StreamRow.codecByte (r : StreamRow) : Nat := r.profile * 16 + r.codec

/-- An error class as its ASCII letter. -/
def classLetter : ErrClass → Nat
  | .l => 0x4C | .s => 0x53 | .h => 0x48 | .p => 0x50 | .f => 0x46 | .d => 0x44
  | .m => 0x4D | .b => 0x42 | .w => 0x57 | .v => 0x56

/-! ## Unwrapping (03 R107 to R109) -/

/-- The signed difference of two timestamps of `bits` bits; half the range counts as negative. -/
def wrapDiff (bits r last : Nat) : Int := signed ((r + 2 ^ bits - last % 2 ^ bits) % 2 ^ bits) bits

/-- The tick estimate of the time since the stream last advanced. -/
def tickEstimate (a lastA : Nat) : Int := roundHalfEven (((a : Int) - (lastA : Int)) * 90000) 1000000000

/-- Unwrap timestamp r arriving at a: the tick, the stream after it, and what a discontinuity record holds. -/
def unwrap (bits : Nat) (p : Policies) (force : Bool) (t : StreamSt) (r a : Nat) :
    Nat × StreamSt × Option (Int × Int) :=
  if !t.hasTick then
    let tick := 2 ^ bits + r
    (tick, { t with hasTick := true, lastT := tick, lastR := r, lastA := a }, none)
  else
    let d := wrapDiff bits r t.lastR
    let e := tickEstimate a t.lastA
    let jump := force || decide ((p.fwd : Int) < d - e) || decide (d - e < -(p.bwd : Int))
    let d1 := if jump then max e 1 else d
    let tick := ((t.lastT : Int) + d1).toNat
    let t1 := if 0 < d1 then { t with lastT := tick, lastR := r, lastA := a } else t
    (tick, t1, if jump then some (d, e) else none)

/-- A wide-time tick is used unchanged (03 R109). -/
def unwrapWide (t : StreamSt) (tick a : Nat) : StreamSt :=
  if t.hasTick && decide (tick ≤ t.lastT) then t
  else { t with hasTick := true, lastT := tick, lastR := tick % 2 ^ 33, lastA := a }

/-- The last 64 access units feed the tick mapping (03 R110). -/
def addOrigin (t : StreamSt) (a tick : Nat) : StreamSt :=
  let o := t.origins ++ [(a, tick)]
  { t with origins := o.drop (o.length - 64) }

/-- The extended sequence number of a packet (04 R146). -/
def extendSeq (t : StreamSt) (seq : Nat) : Nat × StreamSt :=
  match t.seqBase with
  | none => (65536 + seq, { t with seqBase := some (65536 + seq) })
  | some b =>
    let x := ((b : Int) + wrapDiff 16 seq (b % 65536)).toNat
    (x, if b < x then { t with seqBase := some x } else t)

/-! ## Access units of the reorder buffer (04 R146, R147) -/

/-- Packets in sequence order. -/
def insertPacket (p : Packet) : List Packet → List Packet
  | [] => [p]
  | h :: r => if p.seq < h.seq then p :: h :: r else h :: insertPacket p r

/-- The first run of packets with one timestamp, and the packets after it. -/
def headRun : List Packet → List Packet × List Packet
  | [] => ([], [])
  | p :: ps => (p :: ps.takeWhile (·.timestamp == p.timestamp), ps.dropWhile (·.timestamp == p.timestamp))

/-- Missing numbers attributed to the head run: inside it, before it when the earlier unit ended with its marker,
and after it when it did not end with its own and a later packet is held. -/
def missingOf (t : StreamSt) (run rest : List Packet) : Nat :=
  match run.head?, run.getLast? with
  | some f, some l =>
    let inside := (l.seq - f.seq + 1) - run.length
    let lead := match t.released with
      | none => 0
      | some x => f.seq - x - 1
    let trail := if l.marker then 0 else match rest.head? with
      | none => 0
      | some x => x.seq - l.seq - 1
    inside + lead + trail
  | _, _ => 0

/-- The earliest event of R146 by which the head run is released, in elapsed time. -/
def headDeadline (hold : Nat) (run rest : List Packet) : Option Nat :=
  let marker := (run.filter (·.marker)).map fun p => p.elapsedAt + hold
  let later := rest.map fun p => p.elapsedAt + hold
  leastOf (marker ++ later)

/-- The head run is complete: its marker has arrived and nothing attributed to it is missing. -/
def headComplete (t : StreamSt) (run rest : List Packet) : Bool :=
  ((run.getLast?).map (·.marker)).getD false && missingOf t run rest == 0

/-- The packet of a run that arrived last. -/
def lastArrived (run : List Packet) : Option Packet :=
  run.foldl (fun b p => match b with
    | none => some p
    | some q => if q.arrival ≤ p.arrival then some p else some q) none

/-! ## The elementary-stream buffer (04 R150) -/

/-- A unit at which a waiting decoder resumes: a random-access point, or the unit of a discontinuity (03 R108). -/
def AccessUnit.resumes (u : AccessUnit) : Bool := decide (u.rap ≠ .no) || u.discontinuity

/-- An access unit offered to the elementary-stream buffer: discarded when it does not fit, and then until a
random-access point fits; entered, counted and copied to the pre-event buffer otherwise. -/
def enterEs (s : State) (n : Nat) (u : AccessUnit) : State :=
  let t := s.stream n
  let cap := ((s.cfgOf u.epoch).stream n).esBytes
  let fits := decide (t.esBytes + u.bytes ≤ cap)
  if !fits || (t.discarding && u.rap = .no) then
    s.setStream n { t with discarding := true, secDiscarded := t.secDiscarded + 1, last := stBUDGET }
  else
    let row := (s.cfgOf u.epoch).stream n
    storePre ((s.chargeMedia row.account 0 u.bytes).setStream n { t with
      discarding := false, es := t.es ++ [u], esBytes := t.esBytes + u.bytes
      counters := { t.counters with bytes := t.counters.bytes + BitVec.ofNat 64 u.bytes } }) n u

/-- Release of the head run as one access unit (04 R147). -/
def releaseRun (s : State) (n : Nat) (run rest : List Packet) : State :=
  match lastArrived run, run.head?, run.getLast? with
  | some la, some f, some l =>
    let t := s.stream n
    let miss := missingOf t run rest
    let (tick, t1, jump) := unwrap 32 (s.cfgOf la.epoch).policies false t f.timestamp la.arrival
    let top := if l.marker then l.seq else match rest.head? with
      | none => l.seq
      | some x => x.seq - 1
    let t2 := addOrigin { t1 with
        packets := rest, released := some top, lastReleasedTs := some f.timestamp
        secLost := t1.secLost + miss
        counters := { t1.counters with lost := t1.counters.lost + BitVec.ofNat 64 miss } } la.arrival tick
    let u : AccessUnit :=
      { tick := tick, arrival := la.arrival, epoch := la.epoch
        rap := ((run.find? fun p => decide (p.rap ≠ .no)).map (·.rap)).getD .no
        bytes := (run.map (·.data.length)).sum, data := run.flatMap (·.data), missing := miss, incomplete := decide (0 < miss)
        discontinuity := jump.isSome, dDec := la.dDec }
    let s1 := s.setStream n t2
    let s2 := match jump with
      | none => s1
      | some (d, e) => s1.streamRecord 0x0003 ucING 0xFF n la.epoch tick stOK (.discontinuity f.timestamp d e)
    enterEs s2 n u
  | _, _, _ => s

/-- Release every head run that is ready now, in sequence order. -/
def releaseReady : Nat → State → Nat → State
  | 0, s, _ => s
  | k + 1, s, n =>
    let t := s.stream n
    let (run, rest) := headRun t.packets
    match run with
    | [] => s
    | p :: _ =>
      let hold := ((s.cfgOf p.epoch).stream n).holdMs * 1000000
      let due := match headDeadline hold run rest with
        | none => false
        | some d => decide (d ≤ s.time.elapsed)
      if headComplete t run rest || due then releaseReady k (releaseRun s n run rest) n else s

/-- A matched datagram held in sequence order; duplicates and late packets only count (04 R146). -/
def holdPacket (s : State) (n : Nat) (seq timestamp : Nat) (marker : Bool) (rap : Rap) (data : List Byte) : State :=
  let t0 := s.stream n
  let t1 := { t0 with counters := { t0.counters with packets := t0.counters.packets + 1 } }
  let (x, t2) := extendSeq t1 seq
  let late := match t2.released with
    | none => false
    | some r => decide (x ≤ r)
  if late || t2.packets.any (·.seq == x) then s.setStream n t1
  else
    let p : Packet := { seq := x, timestamp := timestamp, marker := marker, arrival := s.time.now
                        elapsedAt := s.time.elapsed, rap := rap, data := data
                        epoch := s.stl.epoch.toNat, dDec := t2.dDec }
    let s1 := s.setStream n { t2 with packets := insertPacket p t2.packets }
    releaseReady ((s1.stream n).packets.length + 1) s1 n

/-! ## Decode dispatch (04 R153 to R155) -/

/-- The stream decodes: neither inactive nor stopped. -/
def StreamSt.live (t : StreamSt) : Bool := decide (t.state = 1 ∨ t.state = 2 ∨ t.state = 3)

/-- A unit consumed without decoding. -/
def dropHead (t : StreamSt) (skips : Nat) : StreamSt :=
  match t.es with
  | [] => t
  | u :: r => { t with es := r, esBytes := t.esBytes - u.bytes, skipped := t.skipped + skips }

/-- While a stream waits, units that are no random-access point are consumed without decoding (04 R153). -/
def consumeWaiting : Nat → StreamSt → StreamSt
  | 0, t => t
  | k + 1, t =>
    match t.es with
    | [] => t
    | u :: _ => if t.waitRap && !t.inDecode && !u.resumes && !u.parameterSets then consumeWaiting k (dropHead t 1) else t

/-- The streams with an access unit at their head and no picture in decode. -/
def eligible (s : State) : List (Nat × AccessUnit) :=
  s.streams.filterMap fun (n, t) =>
    if t.live && !t.inDecode then (t.es.head?).map fun u => (n, u) else none

/-- The one of earliest arrival, ties to the lower number. -/
def earliest (xs : List (Nat × AccessUnit)) : Option (Nat × AccessUnit) :=
  xs.foldl (fun b x => match b with
    | none => some x
    | some y => if x.2.arrival < y.2.arrival then some x else some y) none

/-- The decode engines in service, free, and neither leaving nor fenced. -/
def freeDecs (s : State) : List Nat :=
  (List.range 18).filter fun d =>
    let e := s.dec d
    decide (e.state = 0) && e.job.isNone && !e.leaving && !e.fence

/-- The manual leaves open which of several free engines takes a unit that becomes ready: a free value. -/
def chooseDec (s : State) : List Nat → Option Nat
  | [] => none
  | [d] => some d
  | d :: ds => some ((d :: ds).getD (Config.freeNat s.free % (ds.length + 1)) d)

/-- The oldest picture a live view has not begun to code is missed (12 R386). -/
def missOldest (o : Output) : Output :=
  let k := if o.row = 0 then 0 else 1
  let (gone, left) := (o.sources.drop k).span (·.missed)
  { o with sources := o.sources.take k ++ gone ++ (match left with
      | [] => []
      | x :: r => { x with missed := true, samples := {} } :: r) }

/-- The buffer of the stream's window that a picture needs when a view still reads it: the oldest unread picture
of each live view is lost when no other buffer is left (12 R386). -/
def reuseBuffers (s : State) (n dpb : Nat) : State :=
  let held := (s.stream n).dpb.length
  let unread (o : Output) : Nat := ((o.sources.filter fun x => !x.missed).drop (if o.row = 0 then 0 else 1)).length
  let lost (o : Output) : Bool := o.live && o.req.stream == n && decide (0 < unread o) && decide (dpb + 1 ≤ held + unread o)
  let hit := s.evidence.outputs.filter lost
  let outputs := s.evidence.outputs.map fun o =>
    if lost o then missOldest o else o
  let s1 := { s with evidence := { s.evidence with outputs := outputs } }
  hit.foldl (fun a o => a.modEncoder o.encoder fun e => { e with
    missed := e.missed + 1, secMissed := addCount (o.req.ident, o.req.stream) 1 e.secMissed }) s1

/-- Stream n's head unit starts on engine d; the stream's state says it waits or decodes. Its bytes leave the buffer's fill as
its decode starts (log entry 193). -/
def startDecode (s : State) (d n : Nat) (u : AccessUnit) : State :=
  let row := (s.cfgOf u.epoch).stream n
  let t := s.stream n
  let s1 := reuseBuffers (s.setStream n { t with es := t.es.drop 1, esBytes := t.esBytes - u.bytes, inDecode := true }) n row.dpbPics
  (s1.trace ucDEC d 0x0030 (leBytes 2 n ++ leBytes 6 0 ++ leBytes 8 u.tick)).modDec d fun e => { e with job := some (n, u), replay := none, ratio := s.mediaRatio }

/-- The clips with a unit to replay and none in a decode engine. -/
def replayable (s : State) : List (Output × AccessUnit) :=
  let busy := (List.range 18).filterMap fun d => (s.dec d).replay
  s.evidence.outputs.filterMap fun o =>
    if o.live || busy.contains o.req.ident then none else (nextReplay s o).map fun u => (o, u)

/-- A replay picture takes an engine (12 R374). -/
def startReplay (s : State) (d : Nat) (o : Output) (u : AccessUnit) : State :=
  let s1 := { s with evidence := { s.evidence with outputs := s.evidence.outputs.map fun x =>
      if x = o then { x with replayed := x.replayed + 1 } else x } }
  (s1.trace ucDEC d 0x0030 (leBytes 2 o.req.stream ++ leBytes 6 0 ++ leBytes 8 u.tick)).modDec d fun e => { e with
    job := some (o.req.stream, u), replay := some o.req.ident, ratio := s.mediaRatio }

/-- One assignment of R155 on some free engine, if a unit is eligible; a replay only when none is. -/
def dispatchOne (s : State) : Option State :=
  match chooseDec s (freeDecs s) with
  | none => none
  | some d =>
    let s0 := if (freeDecs s).length < 2 then s else s.nextFree
    let el := eligible s0
    let zoneOnes := el.filter fun e => ((s0.cfgOf e.2.epoch).stream e.1).zone
    match earliest (if zoneOnes.isEmpty then el else zoneOnes) with
    | some (n, u) => some (startDecode s0 d n u)
    | none =>
      match replayable s0 with
      | [] => none
      | (o, u) :: _ => some (startReplay s0 d o u)

/-- Waiting streams consume, then free engines take eligible units (04 R155); nothing begins under a stop. -/
def dispatchLoop : Nat → State → State
  | 0, s => s
  | k + 1, s =>
    match dispatchOne s with
    | none => s
    | some s1 => dispatchLoop k s1

/-- DECODE_DISPATCH (04 R155). -/
def dispatch (s : State) : State :=
  if !s.mayBegin then s
  else
    let s1 := (Table.keys s.streams).foldl (fun a n => a.modStream n fun t => consumeWaiting t.es.length t) s
    dispatchLoop 18 s1

/-- A clip may start, and its replay takes engines (12 R374, R375). -/
def clipTurn (s : State) : State := dispatch (startClip s)

/-- An evidence request; the replay of a clip that is accepted takes free engines at once (12 R374). -/
def takeEvidence (s : State) (bs : List Byte) : State × Nat :=
  let r := evidenceRequest s bs
  if r.2 = stOK ∧ field bs 0 1 = 1 then (dispatch r.1, r.2) else r

/-! ## D_dec (04 R158) -/

/-- Media cycles at 1.2 GHz in ns, rounded up. -/
def cyclesNs (c : Nat) : Nat := ceilDiv (c * 5) 6

/-- D_dec(z) in ns for a zone stream of a configuration, with n decode engines in service. -/
def dDecOf (c : Cfg) (row : StreamRow) (n : Nat) : Nat :=
  let other := (c.active.map fun e => e.2.residency).foldl max 0
  let zones := c.active.filter fun e => e.2.zone
  let zone := (zones.map fun e => e.2.residency).foldl max 0
  row.holdMs * 1000000 + cyclesNs (other + (if n = 0 then 0 else ceilDiv zones.length n) * zone)

/-- The settlement unit recomputes D_dec whenever a configuration or the decode engines in service change; with neither a zone stream
nor an engine SAF_DDEC shows 0 (log entry 200). -/
def setDDec (s : State) : State :=
  let n := s.decInService
  let zones := s.cfg.active.filter fun e => e.2.zone
  let s1 := zones.foldl (fun a (i, row) => a.modStream i fun t => { t with dDec := dDecOf s.cfg row n }) s
  let top := (zones.map fun e => dDecOf s.cfg e.2 n).foldl max 0
  let v := if zones.isEmpty then 0 else if n = 0 then 0xFFFFFFFF else min 0xFFFFFFFF (ceilDiv top 1000)
  { s1 with saf := { s1.saf with dDec := BitVec.ofNat 32 v } }

/-! ## Analysis windows (03 R114) -/

/-- The window a picture is selected for, when no picture of it or of a later one has been. -/
def windowOf (anchor last : Option Nat) (w tick : Nat) : Option Nat :=
  match anchor with
  | none => some 0
  | some a =>
    let k := (tick - a) / max w 1
    if tick < a then none
    else match last with
      | none => some k
      | some l => if l < k then some k else none

/-- ANALYSIS_SELECT for the stream's window and, for a zone stream, for its zone window. -/
def selectPicture (row : StreamRow) (t : StreamSt) (p : Picture) : Picture × StreamSt :=
  let k := windowOf t.anchor t.lastWindow row.window p.tick
  let t1 := { t with anchor := some (t.anchor.getD p.tick), lastWindow := if k.isSome then k else t.lastWindow
                     lastSel := if k.isSome then some p.tick else t.lastSel }
  let p1 := { p with selected := k.isSome, analysisWindow := k.getD 0 }
  if row.zone then
    let z := windowOf t1.zoneAnchor t1.zoneLastWindow row.zoneWindow p.tick
    ({ p1 with zoneWindow := z },
     { t1 with zoneAnchor := some (t1.zoneAnchor.getD p.tick), zoneLastWindow := if z.isSome then z else t1.zoneLastWindow
               zoneLastSel := if z.isSome then some p.tick else t1.zoneLastSel })
  else (p1, t1)

/-- The windows renumbered when a settlement changes W: the last window selected is the one its picture lies in now. -/
def renumber (row : StreamRow) (t : StreamSt) : StreamSt :=
  let num (anchor last : Option Nat) (w : Nat) : Option Nat := last.map fun k => (k - anchor.getD k) / max w 1
  { t with lastWindow := num t.anchor t.lastSel row.window, zoneLastWindow := num t.zoneAnchor t.zoneLastSel row.zoneWindow }

/-! ## Checkpoints (14 R417, R418) -/

/-- The per-stream state that an analysed frame leaves: free values, since the compiled model's program decides them
(14 R417; log entry 203). -/
def State.freeBytes (s : State) (n : Nat) : List Byte := (List.range n).map fun i => Config.freeByte (s.free + i)

/-- A checkpoint is written to the alternate copy after every analysed frame whose count since the anchor is a
multiple of the interval: it holds the live state, and both copies keep the newest first. -/
def checkpoint (s : State) (n tick : Nat) : State :=
  let t := s.stream n
  let c := t.analysed + 1
  let live := s.freeBytes t.stateBytes
  let copy : StreamCkpt := { tick := tick, anchor := t.anchor.getD 0, count := c, state := live }
  { s with free := s.free + t.stateBytes }.setStream n { t with
    analysed := c, liveState := live, ckpts := if c % (s.cfg.stream n).ckptFrames = 0 then (copy :: t.ckpts).take 2 else t.ckpts }

/-- A stream restarts from its newer complete copy, else the older, else with its state discarded; record 0x0602. -/
def restartStream (s : State) (n : Nat) : State :=
  let t := s.stream n
  let copy := t.ckpts.find? fun c => c.complete && !c.void
  let tick := (copy.map (·.tick)).getD 0
  let since := match copy with
    | none => t.analysed
    | some c => if t.anchor = some c.anchor then t.analysed - c.count else t.analysed
  let t1 := { t with anchor := none, lastWindow := none, lastSel := none, zoneAnchor := none, zoneLastWindow := none
                     zoneLastSel := none, analysed := 0, boxes := [], forceFull := true
                     liveState := (copy.map (·.state)).getD []
                     ckpts := match copy with
                       | none => []
                       | some c => [c] }
  let s1 := s.setStream n t1
  let r := s1.record 0x0602 ucFLT (.flt { cls := 2, mark := tick, count := since })
  s1.emit { r with stream := n, tick := tick, account := (s.cfg.stream n).account }

end Sys2Proof.Machine
end

