-- ==== Sys2Proof/Machine/Preproc.lean ====
section
/-! DEFINITION. Pyramids, regions of interest, host assistance and rolling batches (05). -/

namespace Sys2Proof.Machine

/-! ## Planes and scaling (05 R168 to R170) -/

/-- A plane of a stored picture after the cropping its descriptor records (04 R159, 05 R168). -/
def picturePlane (s : State) (p : Picture) (plane w h : Nat) : Plane :=
  let k := if plane = 0 then 1 else 2
  { w := w, h := h
    rows := (List.range h).map fun r => (List.range w).map fun c => s.sampleAt p plane (p.cropX / k + c) (p.cropY / k + r) }

/-- Level 0 (05 R168). -/
def level0 (s : State) (p : Picture) : Level :=
  { y := picturePlane s p 0 p.width p.height
    cb := picturePlane s p 1 (p.width / 2) (p.height / 2)
    cr := picturePlane s p 2 (p.width / 2) (p.height / 2) }

/-- The size of the next level (05 R168). -/
def nextSize (n c : Nat) : Nat := n * c / 256 / 2 * 2

/-- The level after it is built. -/
def levelBuilt (w h : Nat) : Bool := decide (16 ≤ w) && decide (16 ≤ h)

/-- Sizes of the built levels, level 0 first. -/
def levelSizes (c : Nat) : Nat → Nat → Nat → List (Nat × Nat)
  | 0, _, _ => []
  | n + 1, w, h => (w, h) :: (if levelBuilt (nextSize w c) (nextSize h c) then levelSizes c n (nextSize w c) (nextSize h c) else [])

/-- One output sample of area averaging over a line (05 R169). -/
def areaSample (line : List Nat) (s x : Nat) : Nat :=
  let a := x * s
  let b := (x + 1) * s
  let first := a / 65536
  let n := (b - 1) / 65536 - first + 1
  let (sw, sv) := (List.range n).foldl (fun (acc : Nat × Nat) i =>
    let k := first + i
    let w := min b ((k + 1) * 65536) - max a (k * 65536)
    (acc.1 + w, acc.2 + w * line.getD k 0)) (0, 0)
  if sw = 0 then 0 else (sv + sw / 2) / sw

/-- The clamped source position of a bilinear output sample: index and fraction. -/
def bilinearPos (n s x : Nat) : Nat × Nat :=
  let u := min (((2 * x + 1) * s - 65536) / 2) ((n - 1) * 65536)
  (u / 65536, bitsOf u 8 8)

/-- One output sample of the bilinear kernel over a line, unrounded. -/
def bilinearSample (line : List Nat) (n s x : Nat) : Nat :=
  let (i, f) := bilinearPos n s x
  line.getD i 0 * (256 - f) + line.getD (min (i + 1) (n - 1)) 0 * f

/-- A plane as columns. -/
def planeColumns (p : Plane) : List (List Nat) := (List.range p.w).map fun c => p.rows.map (·.getD c 0)

/-- A plane scaled to w × h, horizontally first (05 R169). -/
def scalePlane (bilinear : Bool) (p : Plane) (w h : Nat) : Plane :=
  let sx := p.w * 65536 / max w 1
  let sy := p.h * 65536 / max h 1
  let wide := p.rows.map fun line =>
    (List.range w).map fun x => if bilinear then bilinearSample line p.w sx x else areaSample line sx x
  let mid : Plane := { w := w, h := p.h, rows := wide }
  let cols := (planeColumns mid).map fun line =>
    (List.range h).map fun y => if bilinear then (bilinearSample line p.h sy y + 32768) / 65536 else areaSample line sy y
  { w := w, h := h, rows := (List.range h).map fun y => cols.map (·.getD y 0) }

def scaleLevel (bilinear : Bool) (l : Level) (w h : Nat) : Level :=
  { y := scalePlane bilinear l.y w h, cb := scalePlane bilinear l.cb (w / 2) (h / 2), cr := scalePlane bilinear l.cr (w / 2) (h / 2) }

/-- The built levels of a picture (05 R168). -/
def pyramid (row : StreamRow) : Nat → Level → List Level
  | 0, l => [l]
  | n + 1, l =>
    let w := nextSize l.y.w row.ratioC
    let h := nextSize l.y.h row.ratioC
    if levelBuilt w h then l :: pyramid row n (scaleLevel row.bilinear l w h) else [l]

/-- A rectangle of a plane; samples outside it repeat the edge and are replaced by padding later (05 R170). -/
def cropPlane (p : Plane) (x0 y0 : Int) (w h : Nat) : Plane :=
  let at_ (v : Int) (n : Nat) : Nat := min v.toNat (n - 1)
  { w := w, h := h
    rows := (List.range h).map fun (r : Nat) => (List.range w).map fun (c : Nat) =>
      (p.rows.getD (at_ (y0 + (r : Int)) p.h) []).getD (at_ (x0 + (c : Int)) p.w) 0 }

/-! ## Colour and normalisation (05 R171, R172) -/

/-- FP32 nearest to n / d. -/
def ratio32 (n d : Nat) : W32 := toF32 (quotient false n 0 d 0)

/-- (kr, kb, gb, gr) of a matrix in ten-thousandths of Kr and Kb, evaluated exactly and rounded once (05 R171). -/
def colourConsts (matrix : Nat) : W32 × W32 × W32 × W32 :=
  let (kr, kb) := if matrix = 0 then (2990, 1140) else if matrix = 2 then (2627, 593) else (2126, 722)
  let kg := 10000 - kr - kb
  (ratio32 (2 * (10000 - kr)) 10000, ratio32 (2 * (10000 - kb)) 10000,
   ratio32 (2 * kb * (10000 - kb)) (10000 * kg), ratio32 (2 * kr * (10000 - kr)) (10000 * kg))

/-- Clamp to [0, 1]. -/
def clamp01 (x : W32) : W32 := if fLt x 0 then 0 else if fLt one32 x then one32 else x

/-- Normalised y, cb, cr of samples (05 R171). -/
def lumaOf (full : Bool) (k v : Nat) : W32 :=
  if full then fDiv (fOfInt v) (fOfInt (255 * k)) else fDiv (fSub (fOfInt v) (fOfInt (16 * k))) (fOfInt (219 * k))
def chromaOf (full : Bool) (k v : Nat) : W32 :=
  fDiv (fSub (fOfInt v) (fOfInt (128 * k))) (fOfInt ((if full then 255 else 224) * k))

/-- The channels of normalised y, cb and cr: R, G, B, or y alone (05 R171). -/
def channelsFrom (c : Colour) (planarY : Bool) (y cb cr : W32) : List W32 :=
  if planarY then [y]
  else
    let (kr, kb, gb, gr) := colourConsts (c.matrix.getD 1)
    [clamp01 (fAdd y (fMul kr cr)), clamp01 (fSub (fSub y (fMul gb cb)) (fMul gr cr)), clamp01 (fAdd y (fMul kb cb))]

/-- The samples of a level at (x, y) normalised; with no matrix stated, BT.709 limited range (05 R171). -/
def normalised (c : Colour) (depth : Nat) (l : Level) (x y : Nat) : W32 × W32 × W32 :=
  let k := if depth = 10 then 4 else 1
  let full := c.fullRange && c.matrix.isSome
  let at_ (p : Plane) (x y : Nat) : Nat := (p.rows.getD y []).getD x 0
  (lumaOf full k (at_ l.y x y), chromaOf full k (at_ l.cb (x / 2) (y / 2)), chromaOf full k (at_ l.cr (x / 2) (y / 2)))

/-- The channels of a level's sample at (x, y). -/
def channelsOf (c : Colour) (depth : Nat) (planarY : Bool) (l : Level) (x y : Nat) : List W32 :=
  let (vy, vb, vr) := normalised c depth l x y
  channelsFrom c planarY vy vb vr

/-- A channel value normalised and converted to the input format (05 R172, 06 R218). -/
def inputCode (d : InputDecl) (ch : Nat) (v : W32) : Conv :=
  let x := fMul (fSub v (d.mean.getD ch 0)) (d.scale.getD ch one32)
  if d.mode = 1 then convert d.fmt .away (if fmtInt d.fmt then some d.zero else none) (fMul x d.recip)
  else convert d.fmt .even none x

/-! ## Tensors (05 R173) -/

/-- The plane of a channel as stored bytes: rows from 32-element boundaries, the plane filled to 4 KiB. -/
def planeBytes (fmt : Nat) (rows : List (List Nat)) : List Byte :=
  let body := rows.flatMap fun r => padTo (fmtBytes fmt (roundUp r.length 32)) (packCodes fmt r)
  padTo (roundUp body.length 4096) body

/-- A planar tensor of w × h: each element as `conv channel x y` gives it; with the saturations counted. -/
def planarTensor (fmt chans w h : Nat) (conv : Nat → Nat → Nat → Conv) : List Byte × Nat :=
  let planes := (List.range chans).map fun ch => (List.range h).map fun y => (List.range w).map fun x => conv ch x y
  (planes.flatMap fun p => planeBytes fmt (p.map fun r => r.map (·.code)),
   (planes.map fun p => (p.map fun r => (r.map fun q => bit q.sat).sum).sum).sum)

/-- A level as the tensor of an input declaration, with the saturations its conversions count. `inside` says which
samples lie in the picture; the others hold the padding code. -/
def tensorOf (d : InputDecl) (planarY : Bool) (depth : Nat) (c : Colour) (inside : Nat → Nat → Bool) (l : Level) : List Byte × Nat :=
  planarTensor d.fmt (if planarY then 1 else 3) l.y.w l.y.h fun ch x y =>
    if inside x y then inputCode d ch ((channelsOf c depth planarY l x y).getD ch 0) else { code := d.pad }

/-- Bytes of a tensor of w × h (05 R173): what a host tensor of the crop input size must have (05 R186). -/
def tensorBytes (d : InputDecl) (chans w h : Nat) : Nat := chans * roundUp (h * fmtBytes d.fmt (roundUp w 32)) 4096

/-! ## Regions of interest (05 R174 to R177) -/

/-- Dilate a box by the margin, round outward and clamp to level 0 (05 R175). -/
def dilate (m w h : Nat) (b : Box) : Box :=
  let dx := ceilDiv (m * (b.x1 - b.x0).toNat) 100
  let dy := ceilDiv (m * (b.y1 - b.y0).toNat) 100
  let at_ (v : Int) (n : Nat) : Int := max 0 (min (n : Int) v)
  { x0 := at_ (b.x0 - (dx : Int)) w, y0 := at_ (b.y0 - (dy : Int)) h
    x1 := at_ (b.x1 + (dx : Int)) w, y1 := at_ (b.y1 + (dy : Int)) h }

/-- Extend the shorter side equally on both sides. -/
def squared (b : Box) : Box :=
  let w := b.x1 - b.x0
  let h := b.y1 - b.y0
  if w < h then { b with x0 := b.x0 - (h - w) / 2, x1 := b.x0 - (h - w) / 2 + h }
  else { b with y0 := b.y0 - (w - h) / 2, y1 := b.y0 - (w - h) / 2 + w }

/-- The highest built level at which the square's side reaches the crop size; level 0 when none does. -/
def chooseLevel (sizes : List (Nat × Nat)) (crop : Nat) (side : Nat) : Nat :=
  let w0 := (sizes.headD (1, 1)).1
  ((sizes.zipIdx).filter fun (sz, _) => decide (crop * w0 ≤ side * sz.1)).foldl (fun a e => max a e.2) 0

/-- The area of a box. -/
def boxArea (b : Box) : Int := (b.x1 - b.x0) * (b.y1 - b.y0)

/-- A crop: its square, level and the order its box came in. -/
structure Crop where
  box : Box
  level : Nat
  order : Nat
  deriving DecidableEq, Repr

/-- Insert by descending area, ties in box order (05 R176). -/
def insertCrop (c : Crop) : List Crop → List Crop
  | [] => [c]
  | h :: t =>
    if boxArea h.box < boxArea c.box ∨ (boxArea h.box = boxArea c.box ∧ c.order < h.order) then c :: h :: t
    else h :: insertCrop c t

/-- The rectangle round two boxes. -/
def unionBox (a b : Box) : Box := { x0 := min a.x0 b.x0, y0 := min a.y0 b.y0, x1 := max a.x1 b.x1, y1 := max a.y1 b.y1 }

/-- A zone's area: the bounding rectangle of the union of its rectangles (15 R447). -/
def zoneArea : List Box → Option Box
  | [] => none
  | b :: r => some (r.foldl unionBox b)

/-- Two squares merge (05 R176). -/
def mergeable (a b : Crop) : Bool :=
  a.level == b.level && decide (4 * boxArea (unionBox a.box b.box) ≤ 5 * (boxArea a.box + boxArea b.box))

/-- A square merged into the first earlier survivor it fits, else kept after them. -/
def mergeInto (c : Crop) : List Crop → List Crop
  | [] => [c]
  | h :: t => if mergeable h c then { h with box := squared (unionBox h.box c.box) } :: t else h :: mergeInto c t

/-- Merging repeats until no pair merges. -/
def mergeAll : Nat → List Crop → List Crop
  | 0, cs => cs
  | n + 1, cs =>
    let merged := cs.foldl (fun acc c => mergeInto c acc) []
    if merged.length = cs.length then cs else mergeAll n (merged.foldl (fun acc c => insertCrop c acc) [])

/-- The crops of a region-of-interest pass over boxes. -/
def cropsOf (row : StreamRow) (crop w h : Nat) (boxes : List Box) : List Crop :=
  let sizes := levelSizes row.ratioC row.levelCount w h
  let cs := (boxes.zipIdx).map fun (b, i) =>
    let q := squared (dilate row.marginPct w h b)
    ({ box := q, level := chooseLevel sizes crop (q.x1 - q.x0).toNat, order := i } : Crop)
  mergeAll cs.length (cs.foldl (fun acc c => insertCrop c acc) [])

/-- The boxes that steer analysed frame k: those of k − 1, else of k − 2 (01 R45). -/
def steeringBoxes (t : StreamSt) (k : Nat) : Option (List Box) :=
  match t.boxes.find? fun e => e.1 + 1 == k with
  | some e => some e.2
  | none => (t.boxes.find? fun e => e.1 + 2 == k).map (·.2)

/-- Analysed frame k is a full-frame pass (05 R174). -/
def fullFramePass (row : StreamRow) (t : StreamSt) (k epoch : Nat) : Bool :=
  k % row.fullN == 0 || (steeringBoxes t k).isNone || t.forceFull || t.fullEpoch == some epoch

/-- The pass of a frame is decided: what forced it full is spent. -/
def StreamSt.passDecided (t : StreamSt) (epoch : Nat) : StreamSt :=
  { t with forceFull := false, fullEpoch := t.fullEpoch.filter (· != epoch) }

/-- The square of side `side` of a level whose corner is (x0, y0). -/
def cropLevel (l : Level) (x0 y0 : Int) (side : Nat) : Level :=
  { y := cropPlane l.y x0 y0 side side
    cb := cropPlane l.cb (x0 / 2) (y0 / 2) (side / 2) (side / 2)
    cr := cropPlane l.cr (x0 / 2) (y0 / 2) (side / 2) (side / 2) }

/-- A square of level 0 in the coordinates of a level: its corner and side. -/
def onLevel (l : Level) (w0 : Nat) (b : Box) : Int × Int × Nat :=
  let at_ (v : Int) : Int := v * (l.y.w : Int) / (max w0 1 : Nat)
  (at_ b.x0, at_ b.y0, max 2 (at_ b.x1 - at_ b.x0).toNat)

/-- The tensors of a picture: bytes and saturations, or none when the frame yields no sample; and whether a
region-of-interest pass fell back to a full-frame pass (05 R177). -/
def tensorsOf (s : State) (m : Model) (row : StreamRow) (t : StreamSt) (p : Picture) : Option (List Byte × Nat) × Bool :=
  let d := m.inputs.headD {}
  let levels := pyramid row (row.levelCount - 1) (level0 s p)
  let crops := cropsOf row d.crop p.width p.height ((steeringBoxes t p.analysisWindow).getD [])
  let tooMany := decide (row.crops < crops.length)
  if p.fullFrame || tooMany then
    let ts := levels.map (tensorOf d row.planarY p.depth p.colour fun _ _ => true)
    (some (ts.flatMap (·.1), (ts.map (·.2)).sum), !p.fullFrame)
  else if crops.isEmpty then (none, false)
  else
    let ts := crops.map fun q =>
      let l := levels.getD q.level (level0 s p)
      let (x0, y0, side) := onLevel l p.width q.box
      let inside (x y : Nat) : Bool :=
        let u := x0 + ((x * side / d.crop : Nat) : Int)
        let v := y0 + ((y * side / d.crop : Nat) : Int)
        decide (0 ≤ u) && decide (u < (l.y.w : Int)) && decide (0 ≤ v) && decide (v < (l.y.h : Int))
      tensorOf d row.planarY p.depth p.colour inside (scaleLevel row.bilinear (cropLevel l x0 y0 side) d.crop d.crop)
    (some (ts.flatMap (·.1), (ts.map (·.2)).sum), false)

/-- The zone tensor of a picture: level 0 area-averaged to the crop input size (15 R451), with the saturations one lane counts. -/
def zoneTensorOf (s : State) (p : Picture) : List Byte × Nat :=
  let d := (((s.cfgOf p.epoch).zoneModel.getD {}).inputs).headD {}
  tensorOf d (d.channels == 1) p.depth p.colour (fun _ _ => true) (scaleLevel false (level0 s p) d.crop d.crop)

/-! ## Stored samples and their augmentation (05 R179, R180, 13 R394) -/

/-- A sample as 8 bits; a 10-bit one is rounded as an encoder's input is (12 R369). -/
def eightBit (depth v : Nat) : Nat := if depth = 10 then min 255 ((v + 2) / 4) else v

def eightBitPlane (depth : Nat) (p : Plane) : Plane := { p with rows := p.rows.map fun r => r.map (eightBit depth) }

/-- The stored square of a box: cut from the level that 05 R175 chooses, area-averaged to side S, 8-bit (13 R394). -/
def sampleLevel (row : StreamRow) (crop side depth : Nat) (levels : List Level) (box : Box) : Level :=
  let l0 := levels.headD {}
  let q := squared (dilate row.marginPct l0.y.w l0.y.h box)
  let k := chooseLevel (levels.map fun l => (l.y.w, l.y.h)) crop (q.x1 - q.x0).toNat
  let l := levels.getD k l0
  let (x0, y0, n) := onLevel l l0.y.w q
  let cut := scaleLevel false (cropLevel l x0 y0 n) side side
  { y := eightBitPlane depth cut.y, cb := eightBitPlane depth cut.cb, cr := eightBitPlane depth cut.cr }

/-- The first n draws of a sample: the words of the SHAKE256 output for seed, stream and index (05 R179). -/
def draws (seed stream index n : Nat) : List Nat :=
  (chunks 4 n (shake256 (leBytes 8 seed ++ leBytes 8 stream ++ leBytes 8 index) (4 * n))).map leNat

/-- The draw u_j of a word in FP32: word / 2^32. -/
def drawOf (w : Nat) : W32 := toF32 (.fin false w (-32))

/-- A plane mirrored left to right. -/
def mirrorPlane (p : Plane) : Plane := { p with rows := p.rows.map List.reverse }

def mirrorLevel (l : Level) : Level := { y := mirrorPlane l.y, cb := mirrorPlane l.cb, cr := mirrorPlane l.cr }

/-- The truncation of a non-negative FP32 value to an even integer. -/
def evenFloor (x : W32) : Nat :=
  match f32 x with
  | .fin false m e => shl m e / 2 ^ (-e).toNat / 2 * 2
  | _ => 0

/-- A stored sample scaled by the stream's kernel from a square of it to the crop input size (05 R170, R180). -/
def sampleCrop (row : StreamRow) (crop : Nat) (l : Level) (x y side : Nat) : Level :=
  scaleLevel row.bilinear (cropLevel l x y side) crop crop

/-- The augmented tensor of a stored sample with draw index i (05 R179, R180), and its saturations. -/
def augmentedTensor (a : AdaptSettings) (d : InputDecl) (row : StreamRow) (x : Sample) (i : Nat) : List Byte × Nat :=
  let planarY := d.channels == 1
  let chans := if planarY then 1 else 3
  let us := draws a.seed x.stream i (16 + 2 * (chans * d.crop * d.crop))
  let word (j : Nat) : Nat := us.getD j 0
  let u (j : Nat) : W32 := drawOf (word j)
  let spread (j : Nat) : W32 := fSub (fMul 0x40000000 (u j)) one32
  let flipped := if fLt (u 0) a.flip then mirrorLevel x.level else x.level
  let w := x.level.y.w
  let h := x.level.y.h
  let side := evenFloor (fMul (fOfInt w) (fSub one32 (fMul a.scale (u 1))))
  let l := sampleCrop row d.crop flipped (word 2 * (w - side + 1) / 2 ^ 32) (word 3 * (h - side + 1) / 2 ^ 32) side
  planarTensor d.fmt chans d.crop d.crop fun ch px py =>
    let (vy, vb, vr) := normalised x.colour 8 l px py
    let v := (channelsFrom x.colour planarY (fAdd vy (fMul a.bright (spread 4))) vb vr).getD ch 0
    let k := fAdd one32 (fMul a.contrast (spread 5))
    let v1 := clamp01 (fAdd (fMul (fSub v 0x3F000000) k) 0x3F000000)
    let n := (ch * d.crop + py) * d.crop + px
    inputCode d ch (fAdd v1 (fMul a.noise (fSub (fAdd (u (16 + 2 * n)) (u (17 + 2 * n))) one32)))

/-- The tensor of a validation sample: the central square at the crop input size, without draws (13 R394). -/
def validationTensor (d : InputDecl) (row : StreamRow) (x : Sample) : List Byte × Nat :=
  let off := (x.level.y.w - d.crop) / 2
  tensorOf d (d.channels == 1) 8 x.colour (fun _ _ => true) (sampleCrop row d.crop x.level off off d.crop)

/-! ## Queues and backlog (05 R181 to R185) -/

/-- Oldest first by arrival, ties to the lower stream number. -/
def queuePicture (p : Picture) : List Picture → List Picture
  | [] => [p]
  | h :: t => if p.arrival < h.arrival ∨ (p.arrival = h.arrival ∧ p.stream < h.stream) then p :: h :: t else h :: queuePicture p t

/-- Media cycles × 10^6 that a picture costs (08 R260). -/
def pictureCost (m : Model) (p : Picture) : Nat := (m.inputs.map (·.cost)).sum * p.width * p.height

/-- A cost as ns at the unit's present ratio (05, 21 R613). -/
def State.costNs (s : State) (cost : Nat) : Nat := cost * 16 * 10 / (12 * max s.mediaRatio 1 * 1000000)

/-- The backlog of an account: its queued pictures of streams not marked (log entry 32). -/
def State.backlog (s : State) (a : Nat) : Nat :=
  s.costNs (((s.acct a).queue.filter fun p => !(s.stream p.stream).assisted).map fun p => pictureCost (s.cfgOf p.epoch).model p).sum

/-- The watermarks of PRE_WATERMARK in ns (05 R192). -/
def Cfg.highMark (c : Cfg) : Nat := bitsOf c.regs.watermark.toNat 16 16 * 100000
def Cfg.lowMark (c : Cfg) : Nat := bitsOf c.regs.watermark.toNat 0 16 * 100000

/-- A record of host assistance (05 R191). -/
def State.assistRecord (s : State) (type a n : Nat) : State :=
  let r := s.record type ucPRE (.pre { region := (s.cfg.stream n).region, value := s.backlog a / 1000 })
  s.emit { r with stream := n, account := a }

/-- Streams of an account that may be marked, in descending order of per-frame cost, ties to the higher number. -/
def markable (s : State) (a : Nat) : List Nat :=
  let cs := s.cfg.active.filter fun e => e.2.account == a && e.2.assist && !(s.stream e.1).assisted
  let ins (x : Nat × StreamRow) (l : List (Nat × StreamRow)) : List (Nat × StreamRow) :=
    let (before, after) := l.span fun y => decide (x.2.width * x.2.height < y.2.width * y.2.height
      ∨ (x.2.width * x.2.height = y.2.width * y.2.height ∧ x.1 < y.1))
    before ++ x :: after
  (cs.foldr ins []).map (·.1)

/-- Mark one stream host-assisted, after every stream marked so far. -/
def markStream (s : State) (a n : Nat) : State :=
  let s1 := s.assistRecord 0x0040 a n
  let no := 1 + (s.streams.map fun e => e.2.markNo).foldl max 0
  (s1.modStream n fun t => { t with assisted := true, markNo := no }).modAcct a fun x => { x with marks := x.marks ++ [n] }

/-- Clear one mark. -/
def clearMark (s : State) (a n : Nat) : State :=
  let s1 := (s.modStream n fun t => { t with assisted := false, markNo := 0 }).modAcct a fun x => { x with marks := x.marks.filter (· != n) }
  s1.assistRecord 0x0041 a n

/-- The moment from which the backlog has stayed below the low watermark (05 R184). -/
def trackLow (s : State) (a : Nat) : State :=
  let low := decide (s.backlog a < s.cfg.lowMark)
  s.modAcct a fun x => { x with lowSince := if low then some (x.lowSince.getD s.time.elapsed) else none }

/-- HOST_ASSIST_MARK (05 R182). -/
def hostAssist (s : State) (a : Nat) : State :=
  let s1 := if s.hostPresent && decide (s.cfg.highMark < s.backlog a) then
      (markable s a).foldl (fun x n => if x.backlog a ≤ x.cfg.lowMark then x else markStream x a n) s
    else s
  trackLow s1 a

/-- Every account's backlog looked at anew: after a clearing, and when the unit's clock ratio changes its costs (21 R613). -/
def trackAll (s : State) : State := (Table.keys s.accts).foldl trackLow s

/-- The marked streams with their accounts, latest marking first. -/
def markedStreams (s : State) : List (Nat × Nat) :=
  let ms := s.accts.flatMap fun (a, pa) => pa.marks.map fun n => (a, n)
  let later (x y : Nat × Nat) : Bool := decide ((s.stream y.2).markNo < (s.stream x.2).markNo)
  ms.foldl (fun l x => l.takeWhile (fun y => later y x) ++ x :: l.dropWhile (fun y => later y x)) []

/-- Every mark cleared at once, in the reverse of marking order (05 R185). -/
def clearAllMarks (s : State) : State :=
  trackAll ((markedStreams s).foldl (fun x (a, n) => clearMark x a n) s)

/-- HOST_ASSIST_CLEAR: marks cleared in reverse order until the next would lift the backlog above low (05 R184). -/
def clearLoop (a : Nat) : List Nat → State → State
  | [], s => s
  | n :: r, s =>
    let more := s.costNs ((((s.acct a).queue.filter fun p => p.stream == n).map fun p => pictureCost (s.cfgOf p.epoch).model p).sum)
    if s.cfg.lowMark < s.backlog a + more then s else clearLoop a r (clearMark s a n)

def execHostAssistClear (a : Nat) (s : State) : Out :=
  done (match (s.acct a).lowSince with
    | none => s
    | some t =>
      if !s.running || (s.acct a).marks.isEmpty then s
      else let s1 := s.atElapsed (t + second); clearLoop a (s1.acct a).marks.reverse s1)

/-- The deadline of a queued picture (05 R181). -/
def State.pictureDeadline (s : State) (p : Picture) : Nat :=
  p.arrival + ((s.cfgOf p.epoch).stream p.stream).window * 100000 / 9

/-- A region may take samples: its controller runs or drains, and it is not fenced. -/
def State.takesSamples (s : State) (g : Nat) : Bool :=
  !(s.region g).fenced && decide ((s.region g).state = 0 ∨ (s.region g).state = 2)

/-- A sample joins: its working set fits the region's memory of 32 MiB and the 4 MiB of each engine (16 R476). -/
def joinFits (s : State) (g : Nat) (m : Model) : Bool :=
  decide ((s.region g).reserved + m.wsRegion ≤ 0x2000000) && decide ((s.region g).reservedEngine + m.wsEngine ≤ 0x400000)

/-- The region that analyses a picture: its stream's; while that restarts, the lowest other region of the account that has
room, once no earlier frame of the stream is left behind (01 R27, R45). -/
def homeRegion (s : State) (p : Picture) : Option Nat :=
  let c := s.cfgOf p.epoch
  let row := c.stream p.stream
  let a := row.account
  let behind := (s.rollingOf row.region a).members.any (·.stream == p.stream) || (s.rollingOf row.region a).waiting.any (·.stream == p.stream)
  if s.takesSamples row.region then some row.region
  else if behind then none
  else (List.range 4).find? fun g =>
    g != row.region && (c.account a).mask.testBit g && s.takesSamples g && joinFits s g c.model
      && decide ((s.rollingOf g a).members.length + (s.rollingOf g a).waiting.length < 64)

/-- The picture with its levels, where its stream is a source of adaptation samples (13 R392). -/
def keepLevels (s : State) (p : Picture) : Picture :=
  let row := (s.cfgOf p.epoch).stream p.stream
  if row.adaptSource then { p with levels := pyramid row (row.levelCount - 1) (level0 s p) } else p

/-- A sample joins the queue of the region that analyses it. -/
def queueSample (s : State) (a : Nat) (p : Picture) : State :=
  let g := (homeRegion s p).getD ((s.cfgOf p.epoch).stream p.stream).region
  let r := s.rollingOf g a
  s.setRolling g a { r with waiting := r.waiting ++ [keepLevels s p] }

/-- While the oldest queued picture of a stream has an accepted host tensor, and none of the stream is in pre-processing, it
joins its region's queue; its frame needs no other pass (05 R174). -/
def flushHost : Nat → State → Nat → Nat → State
  | 0, s, _, _ => s
  | k + 1, s, a, n =>
    match (s.acct a).queue.find? fun p => p.stream == n with
    | none => s
    | some p =>
      if !(s.stream n).hostTensors.contains p.tick || (s.acct a).current.any (·.stream == n) then s
      else
        let s1 := s.modAcct a fun x => { x with queue := x.queue.filter (· != p) }
        let s2 := s1.modStream n fun t => { t with hostTensors := t.hostTensors.filter (· != p.tick), forceFull := false, fullEpoch := t.fullEpoch.filter (· != p.epoch) }
        flushHost k (queueSample s2 a p) a n

/-- Every queued host tensor of a stream that may join its region now does. -/
def flushStream (s : State) (a n : Nat) : State := flushHost (s.acct a).queue.length s a n

/-- A picture is shed: no sample; a shed full-frame pass makes the next frame full (05 R174, R181). -/
def shedPicture (s : State) (a : Nat) (p : Picture) : State :=
  let full := fullFramePass ((s.cfgOf p.epoch).stream p.stream) (s.stream p.stream) p.analysisWindow p.epoch
  let s1 := s.modAcct a fun x => { x with
    queue := x.queue.filter (· != p), shed := x.shed + 1, secShed := x.secShed + 1
    secShedFull := x.secShedFull + bit full }
  flushStream (trackLow (s1.modStream p.stream fun t => { t.passDecided p.epoch with forceFull := full }) a) a p.stream

/-- PICTURE_DEADLINE (05 R181, R183). -/
def execPictureDeadline (n tick : Nat) (s : State) : Out :=
  done (match s.accts.findSome? fun e => (e.2.queue.find? fun p => p.stream == n && p.tick == tick).map fun p => (e.1, p) with
    | none => s
    | some (a, p) =>
      if !s.running || (s.stream n).hostTensors.contains tick then s
      else shedPicture (s.atStation (s.pictureDeadline p)) a p)

/-- A host tensor push (05 R186): the status it is answered with. -/
def tensorPush (s : State) (n len addr tick : Nat) : State × Nat :=
  match s.accts.findSome? fun e => (e.2.queue.find? fun p => p.stream == n && p.tick == tick).map fun p => (e.1, p) with
  | none => (s, stSTATE)
  | some (a, p) =>
    let d := (s.cfgOf p.epoch).model.inputs.headD {}
    if !(s.stream n).assisted then (s, stSTATE)
    else if len ≠ tensorBytes d d.channels d.crop d.crop ∨ addr % 64 ≠ 0 then (s, stBOUND)
    else
      let s1 := s.modStream n fun t => { t with hostTensors := t.hostTensors ++ [tick] }
      (flushStream s1 a n, stOK)

/-! ## The unit at work -/

/-- Zone tensors are still to be made: they come ahead of every account's work (05 R178). -/
def zoneWaits (s : State) : Bool := s.streams.any fun e => !e.2.zoneQueue.isEmpty

/-- The picture is the oldest queued one of its stream, which no later one overtakes (01 R45). -/
def oldestOf (q : List Picture) (p : Picture) : Bool := (q.find? fun x => x.stream == p.stream) == some p

/-- The oldest picture the unit may start: not host-assisted, before its deadline, no earlier one of its stream waiting, and with
a region to analyse it (01 R27); of zone streams only while a droop holds the others (21 R616). -/
def nextPicture (s : State) (a : Nat) : Option Picture :=
  let q := (s.acct a).queue
  q.find? fun p => (!s.power.mediaHold || ((s.cfgOf p.epoch).stream p.stream).zone) && !(s.stream p.stream).assisted
    && !(s.stream p.stream).hostTensors.contains p.tick && decide (s.time.now < s.pictureDeadline p) && oldestOf q p
    && (homeRegion s p).isSome

/-- PREPROCESS_START (05 R174, R178, R182): the pass is chosen, and the flag that forced a full one is spent. -/
def execPreprocessStart (a : Nat) (s : State) : Out :=
  done (if s.mayBegin && (s.acct a).current.isNone && !zoneWaits s then
    match nextPicture s a with
    | none => hostAssist s a
    | some p =>
      let full := fullFramePass ((s.cfgOf p.epoch).stream p.stream) (s.stream p.stream) p.analysisWindow p.epoch
      let s1 := s.modAcct a fun x => { x with queue := x.queue.filter (· != p), current := some { p with fullFrame := full } }
      hostAssist (s1.modStream p.stream fun t => t.passDecided p.epoch) a
  else s)

/-- A granule of the picture's samples is void (14 R415). -/
def Picture.voidIn (p : Picture) (s : State) : Bool := s.anyVoid (p.base + p.offset) p.bytes

/-- PREPROCESS_COMPLETE of the picture of a stream and tick: the tensors written from page `page` of 4 KiB (R173) and the sample queued for its region; a void
picture dies and its stream restarts (14 R415); a frame with no boxes gives no sample (05 R174). -/
def execPreprocessComplete (a stream tick page : Nat) (s : State) : Out :=
  done (match (s.acct a).current with
    | none => s
    | some p =>
      if !s.running || p.stream != stream || p.tick != tick then s
      else
        let s0 := s.modAcct a fun x => { x with current := none }
        if p.voidIn s then flushStream (restartStream s0 p.stream) a p.stream
        else
          let c := s0.cfgOf p.epoch
          let row := c.stream p.stream
          match tensorsOf s c.model row (s0.stream p.stream) p with
          | (none, _) => flushStream s0 a p.stream
          | (some (bytes, sats), fell) =>
            let s1 := s0.store (4096 * page) bytes
            let s2 := if fell then s1.modStream p.stream fun t => { t with forceFull := true } else s1
            let s3 := queueSample { s2 with preConvSat := s2.preConvSat + BitVec.ofNat 64 sats } a p
            flushStream (s3.chargeMedia row.account (pictureCost c.model p / 1000000) (p.bytes + bytes.length)) a p.stream)

/-! ## Rolling batches (05 R188 to R190) -/

/-- The sample of a picture as a member. -/
def memberOf (s : State) (p : Picture) (slot : Nat) : Member :=
  { stream := p.stream, tick := p.tick, epoch := p.epoch, slot := slot, arrival := p.arrival
    admitted := s.time.elapsed, window := p.analysisWindow, concealed := p.concealed
    substituted := p.substituted, void := p.void, levels := p.levels, depth := p.depth, colour := p.colour }

/-- The lowest slot of a batch that no member holds. -/
def freeSlot (ms : List Member) : Nat := ((List.range 64).find? fun i => !(ms.any (·.slot == i))).getD 64

/-- During a model switch new-epoch samples wait until it ends, and the region admits no more of the old epoch; nor does it
once the model of that epoch is no longer resident (03 R132, R135). -/
def heldBySwitch (s : State) (g : Nat) (p : Picture) : Bool :=
  if s.switch.isSome then p.epoch == s.stl.epoch.toNat || (s.region g).admitStopped
  else (s.cfgOf p.epoch).model != s.cfg.model

/-- Queued samples join while the batch has room and memory allows (05 R188, R189). -/
def joinLoop : Nat → State → Nat → Nat → State
  | 0, s, _, _ => s
  | k + 1, s, g, a =>
    let r := s.rollingOf g a
    match r.waiting with
    | [] => s
    | p :: rest =>
      if 64 ≤ r.members.length ∨ heldBySwitch s g p then s
      else
        let m := (s.cfgOf p.epoch).model
        if joinFits s g m then
          let x := memberOf s p (freeSlot r.members)
          let s1 := (s.setRolling g a { r with waiting := rest, members := r.members ++ [x], deferred := false }).modStream p.stream
            fun t => { t with frame := some x }
          joinLoop k (s1.modRegion g fun x => { x with
            reserved := x.reserved + m.wsRegion, reservedEngine := x.reservedEngine + m.wsEngine }) g a
        else if r.members.isEmpty ∧ (s.region g).reserved = 0 ∧ (s.region g).reservedEngine = 0 then
          let s1 := s.setRolling g a { r with waiting := rest }
          let rec_ := s1.record 0x0045 ucPRE (.pre { region := g, value := m.wsRegion + 16 * m.wsEngine })
          joinLoop k (s1.emit { rec_ with stream := p.stream, tick := p.tick, epoch := p.epoch, account := a, status := stBUDGET }) g a
        else s.setRolling g a { r with deferred := true }

/-- A member leaves and its working set is released. -/
def releaseMember (s : State) (g : Nat) (x : Member) : State :=
  let m := (s.cfgOf x.epoch).model
  s.modRegion g fun r => { r with reserved := r.reserved - m.wsRegion, reservedEngine := r.reservedEngine - m.wsEngine }

/-- A finished member's latency joins the second's samples, and its stream's analysed frame is complete. -/
def finishMember (s : State) (g a : Nat) (x : Member) : State :=
  let solo := (s.cfgOf x.epoch).model.soloFor (s.inService g)
  checkpoint (s.modTill a fun t => { t with samples := t.samples ++ [(s.time.elapsed - x.admitted, solo)] }) x.stream x.tick

/-- The boundary of a step: finished and removed members leave, the others advance one segment, samples join. -/
def stepBoundary (s : State) (g a : Nat) : State :=
  let r := s.rollingOf g a
  let moved := r.members.map fun x => { x with segment := x.segment + 1 }
  let isOut (x : Member) : Bool := x.removed || decide ((s.cfgOf x.epoch).model.segments ≤ x.segment)
  let s1 := s.setRolling g a { r with members := moved.filter fun x => !isOut x, step := r.step + 1 }
  let s2 := (moved.filter isOut).foldl (fun y x => releaseMember y g x) s1
  let s3 := (moved.filter fun x => !x.removed && isOut x).foldl (fun y x => finishMember y g a x) s2
  if s3.mayBegin then joinLoop (r.waiting.length) s3 g a else s3

/-- The 0x0043 records that list members, 22 to a record (05 R191). -/
def compositionRecords (s : State) (a step : Nat) (ms : List Member) : List Rec :=
  ((chunks 22 ms.length ms).zipIdx).map fun (part, i) =>
    { s.record 0x0043 ucPRE (.pre { value := step, first := 22 * i, entries := part.map fun m => (m.stream, m.segment) })
      with account := a }

/-- MEMBER_REMOVE (05 R190): records 0x0042 and 0x0043, and the stream restarts from its checkpoint. -/
def removeMember (s : State) (g a n status tile : Nat) : State :=
  let r := s.rollingOf g a
  match r.members.find? fun m => m.stream == n && !m.removed with
  | none => s
  | some x =>
    let before := r.members.filter fun m => !m.removed
    let left := before.filter (· != x)
    let s1 := s.setRolling g a { r with members := r.members.map fun m => if m = x then { m with removed := true } else m }
    let list := compositionRecords s1 a r.step left
    let rec_ := s1.record 0x0042 ucPRE (.pre { region := g, status := status, segment := x.segment, before := before.length
                                               value := r.step, tile := tile, count := list.length })
    let s2 := s1.emit { rec_ with stream := n, tick := x.tick, epoch := x.epoch, account := a, status := status }
    restartStream (s2.emitAll list) n

end Sys2Proof.Machine
end

