-- ==== Sys2Proof/Machine/Checks.lean ====
section
/-! DEFINITION. The twelve checks of a settlement batch (02 R70, R642, R643, R646) against the configuration
that would result, and the repeated checks 7, 9 and 10 (02 R73, R75). -/

namespace Sys2Proof.Machine

/-- A failed check: its number, the first failing entry, the status. -/
structure Failure where
  check : Nat
  entry : Nat
  status : Nat
  deriving DecidableEq, Repr

/-! ## The configuration that results (02 R68) -/

/-- Bytes of device memory from `a` up, as an image reader. -/
def imageAt (s : State) (a : Nat) (off n : Nat) : List Byte := s.bytes (a + off) n

/-- Bytes of a list, as an image reader. -/
def imageOf (bs : List Byte) (off n : Nat) : List Byte := (bs.drop off).take n

/-- A row or section written into a configuration (02 R643). `rd` reads the image, `n` is its length, `a` the
device address a model keeps. -/
def writeRow (c : Cfg) (table idx : Nat) (rd : Nat → Nat → List Byte) (n a : Nat) : Cfg :=
  let bs := rd 0 n
  if table = 4 then { c with streams := Table.set {} idx (parseStreamRow bs) c.streams }
  else if table = 5 then { c with zones := Table.set {} idx (parseZoneRow bs) c.zones }
  else if table = 6 then { c with zoneModel := some (parseModel rd a n true) }
  else if table = 7 then { c with accounts := Table.set {} idx (parseAccountRow bs) c.accounts }
  else if table = 8 then { c with policies := parsePolicies bs }
  else if table = 9 then { c with peer := some (parsePeer bs) }
  else if table = 10 then { c with adapt := some (parseAdapt bs) }
  else c

/-- A row or section removed (02 R643). -/
def deleteRow (c : Cfg) (table idx : Nat) : Cfg :=
  if table = 4 then { c with streams := Table.set {} idx {} c.streams }
  else if table = 5 then { c with zones := Table.set {} idx {} c.zones }
  else if table = 6 then { c with zoneModel := none }
  else if table = 7 then { c with accounts := Table.set {} idx {} c.accounts }
  else if table = 9 then { c with peer := none }
  else if table = 10 then { c with adapt := none }
  else c

/-- A settled register under a mask. -/
def writeMasked (r : Settled) (off value mask : Nat) : Settled :=
  let v := (r.read off).toNat
  r.write off (BitVec.ofNat 32 ((v &&& (0xFFFFFFFF ^^^ mask)) ||| (value &&& mask)))

/-- One entry applied. -/
def applyEntry (s : State) (c : Cfg) (e : Entry) : Cfg :=
  if e.kind = 1 then { c with regs := writeMasked c.regs e.index e.value (e.mask % 0x100000000) }
  else if e.kind = 2 then writeRow c e.table e.index (imageAt s e.value) e.mask e.value
  else if e.kind = 3 then deleteRow c e.table e.index
  else if e.kind = 4 then { c with model := parseModel (imageAt s e.value) e.value e.mask false }
  else c

/-- Every entry applied in buffer order (02 R68). -/
def applyEntries (s : State) (c : Cfg) (es : List Entry) : Cfg := es.foldl (applyEntry s) c

/-- The batch is a model switch (02 R79). -/
def isSwitch (es : List Entry) : Bool := es.any (·.kind == 4)

/-- The batch is a safety settlement (02 R71); the channel mapping is a field of the zone rows. -/
def isSafety (es : List Entry) : Bool :=
  es.any fun e => (e.kind == 2 || e.kind == 3) && (e.table == 5 || e.table == 6)

/-! ## Check 1 (02 R70, R643, 22 R635) -/

def rowsOf (table : Nat) : Nat :=
  if table = 4 then 1024 else if table = 5 ∨ table = 7 then 64
  else if table = 6 ∨ table = 8 ∨ table = 9 ∨ table = 10 then 1 else 0

def check1 (e : Entry) : Bool :=
  match e.kind with
  | 1 => (match settledMask e.index with
    | none => false
    | some m => decide (e.mask < 0x100000000) && (e.mask &&& m) == e.mask)
  | 2 => decide (e.index < rowsOf e.table)
  | 3 => decide (e.index < rowsOf e.table) && e.table != 8
  | 4 => true
  | _ => false

/-! ## Check 3 (02 R70, R643): image places, lengths, versions and voids -/

/-- The row size a table fixes; none for a section that carries its own length. -/
def rowSize (table : Nat) : Option Nat :=
  if table = 4 ∨ table = 5 then some 64 else if table = 7 then some 32 else if table = 8 then some 1024
  else if table = 10 then some 128 else none

/-- The image of an entry lies in device memory with the length its table requires. -/
def imagePlaced (e : Entry) : Bool :=
  inDeviceMemory e.value e.mask
    && (if e.kind = 4 ∨ e.table = 6 then decide (128 ≤ e.mask)
        else if e.table = 8 ∨ e.table = 10 then true
        else match rowSize e.table with
          | none => true
          | some n => e.mask == n)

/-- The format version of a model image (08 R259). -/
def versionOk (s : State) (e : Entry) : Bool :=
  if e.kind = 4 ∨ (e.kind = 2 ∧ e.table = 6) then s.word (e.value + 4) 2 == 2 else true

/-- The status check 3 gives an entry, when it fails. -/
def check3 (s : State) (e : Entry) : Option Nat :=
  if e.kind = 2 ∨ e.kind = 4 then
    if !imagePlaced e then some stBOUND
    else if s.anyVoid e.value e.mask then some stVOID
    else if !versionOk s e then some stBOUND else none
  else none

/-! ## Check 2: ranges -/

/-- The picture a zone's stream shows, for the rectangles of its row; any size when the stream is absent, which
check 4 reports. -/
def zonePicture (c : Cfg) (stream : Nat) : Nat × Nat :=
  let r := c.stream stream
  if r.width = 0 then (0x7FFF, 0x7FFF) else (r.width, r.height)

/-- A stream lies in its account's mask when the account exists (03 R117). -/
def regionInMask (c : Cfg) (r : StreamRow) : Bool :=
  (c.account r.account).mask == 0 || (c.account r.account).mask.testBit r.region

/-- The heads of the settings name adaptable tensors and stay within their bounds (13 R391). -/
def headsOk (c : Cfg) (a : AdaptSettings) : Bool :=
  (a.heads.all fun h => Config.tensorAdaptable c.model.image h.tensor h.n h.k)
    && decide ((a.heads.map fun h => h.n * h.k).sum ≤ 1000000) && decide ((a.heads.map (·.n)).sum ≤ 16384)

/-- A row or section image within its ranges; `rd` reads it. -/
def rowImageOk (new : Cfg) (table idx : Nat) (rd : Nat → Nat → List Byte) (n : Nat) : Bool :=
  let bs := rd 0 n
  if table = 4 then streamRowOk idx bs && regionInMask new (parseStreamRow bs)
  else if table = 5 then
    let p := zonePicture new (parseZoneRow bs).stream
    zoneRowOk idx bs p.1 p.2
  else if table = 6 then zoneModelOk rd
  else if table = 7 then accountRowOk idx bs
  else if table = 8 then policiesOk bs
  else if table = 9 then peerOk bs
  else adaptOk bs && headsOk new (parseAdapt bs)

/-- An image that check 3 will refuse is not read by check 2. -/
def check2 (s : State) (new : Cfg) (e : Entry) : Bool :=
  e.flags ≤ 1 && e.rest == 0 &&
  (match e.kind with
   | 1 => e.table == 0 && settledOk e.index (new.regs.read e.index).toNat
   | 2 =>
     (check3 s e).isSome || rowImageOk new e.table e.index (imageAt s e.value) e.mask
   | 4 => e.table == 0 && ((check3 s e).isSome || modelOk (imageAt s e.value) false)
   | _ => true)

/-- Rows the batch does not write must still agree with the rows it does: regions within masks, rectangles within
pictures, shares of accounts that hold streams. -/
def crossRangesOk (new : Cfg) : Bool :=
  (new.streams.all fun e => regionInMask new e.2)
    && (new.zones.all fun e =>
        let p := zonePicture new e.2.stream
        e.2.rects.all fun b => rectOk b p.1 p.2)
    && (new.active.all fun e => (new.account e.2.account).mask == 0 || decide (1 ≤ (new.account e.2.account).share))

/-! ## Check 4: references -/

/-- An account exists when its row is present; a row always has a region in its mask (03 R116). -/
def Cfg.hasAccount (c : Cfg) (a : Nat) : Bool := (c.account a).mask != 0

def streamRefOk (c : Cfg) (r : StreamRow) : Bool := c.hasAccount r.account

def zoneRefOk (c : Cfg) (z : ZoneRow) : Bool := (c.stream z.stream).zone && decide (z.channel < 16)

/-- An IPv4 or IPv6 destination is a multicast group. -/
def multicast (r : StreamRow) : Bool :=
  if r.ipv6 then r.addr % 256 == 0xFF else within (r.addr % 256) 224 239

/-- The conditions on a standby row (18 R532). -/
def standbyOk (c : Cfg) (b : Standby) : Bool :=
  !b.row.host && multicast b.row && !b.row.zone && !b.row.active && !(c.stream b.stream).active

def check4 (c : Cfg) : Bool :=
  (c.streams.all fun e => streamRefOk c e.2) && (c.zones.all fun e => zoneRefOk c e.2)
    && (match c.peer with
        | none => true
        | some p => p.standby.all (standbyOk c))

/-! ## Checks 5 to 10 -/

/-- Two rows share address, port and SSRC; a row that does not match its SSRC shares every one (04 R144). -/
def sharesKey (a b : StreamRow) : Bool :=
  a.ipv6 == b.ipv6 && a.addr == b.addr && a.udpPort == b.udpPort
    && (!a.matchSsrc || !b.matchSsrc || a.ssrc == b.ssrc)

/-- No two rows of a list share their key. -/
def noShared : List StreamRow → Bool
  | [] => true
  | r :: rest => (rest.all fun q => !sharesKey r q) && noShared rest

def check5 (c : Cfg) : Bool :=
  decide (c.active.length ≤ 768) && noShared (c.active.map (·.2))

/-- The accounts that hold streams (02 R70, check 6). -/
def Cfg.holders (c : Cfg) : List Nat := (List.range 64).filter fun a => c.active.any fun e => e.2.account == a

def check6 (c : Cfg) : Bool :=
  c.active.isEmpty || ((c.holders.map fun a => (c.account a).share).sum == 1024)

/-- Decode capacity in pixels per second (01 R39, 22 R636). -/
def State.decodeCapacity (s : State) : Nat := 3000000000 * s.decInService

def check7 (s : State) (c : Cfg) : Bool :=
  decide ((c.active.map fun e => e.2.pixelRate).sum ≤ 1000 * s.decodeCapacity)

/-- One mebibyte. -/
def mib : Nat := 1048576

/-- Bytes of DRAM in use under a configuration (16 R496); `pendingW` is the weight of a model being switched to. -/
def dramUse (c : Cfg) (pendingW : Nat) : Nat :=
  4756 * mib + c.journalBytes + c.traceBytes + c.clipBytes + c.galleryBytes + c.stagingBytes
    + (c.active.map fun e =>
        e.2.windowBytes + e.2.esBytes + c.policies.preBytes + 3 * c.model.perStream).sum
    + c.model.weights + pendingW

/-- Side S of a stored sample (13 R394). -/
def sampleSide (c : Cfg) : Nat := roundUp (ceilDiv ((c.model.inputs.headD {}).crop * 5) 4) 2

/-- Bytes of a stored sample: planes and 16 bytes of q, stream, label and colour (log entry 12). -/
def sampleBytes (c : Cfg) : Nat := sampleSide c * sampleSide c * 3 / 2 + 16

def sampleStoreOk (c : Cfg) : Bool :=
  match c.adapt with
  | none => true
  | some a => decide (a.capacity * sampleBytes c ≤ 768 * mib)

/-- The replicas of the standby rows fit in the replica share of the clip store (18 R532). -/
def replicasOk (c : Cfg) : Bool :=
  match c.peer with
  | none => true
  | some p => decide (2 * c.model.perStream * p.standby.length * 100 ≤ p.replicaShare * c.clipBytes)

/-- The size of a settled overlay (02 R80). -/
def overlayBytes (items : List OverlayItem) : Nat :=
  4096 + (items.map fun i => 32 + (match i with
    | .field _ _ _ => 0
    | .row _ _ im => (im.getD []).length
    | .model im => im.length)).sum

def check8 (old new : Cfg) (switch : Bool) (overlay : Option (List OverlayItem)) : Bool :=
  decide (dramUse new (if switch then old.model.weights else 0) ≤ 49152 * mib)
    && sampleStoreOk new && replicasOk new
    && (match overlay with
        | none => true
        | some o => decide (overlayBytes o ≤ mib))

/-- A sum of fractions as numerator and denominator, reduced. -/
def addFrac (x : Nat × Nat) (n d : Nat) : Nat × Nat :=
  let a := x.1 * d + n * x.2
  let b := x.2 * d
  let g := Nat.gcd a b
  (a / g, b / g)

/-- The load of region g in ns of solo latency a second, as an exact fraction (02 R646). -/
def regionLoad (c : Cfg) (g n : Nat) : Nat × Nat :=
  (c.active.filter fun e => e.2.region == g).foldl
    (fun acc e => addFrac acc (90000 * c.model.soloFor n) (if e.2.window = 0 then 1 else e.2.window)) (0, 1)

/-- The load of region g fits (02 R646). -/
def regionFits (s : State) (c : Cfg) (g : Nat) : Bool :=
  let n := s.inService g
  if n = 0 then !(c.active.any fun e => e.2.region == g)
  else
    let l := regionLoad c g n
    decide (l.1 ≤ 1000000000 * l.2)

def check9 (s : State) (c : Cfg) : Bool := (List.range 4).all (regionFits s c)

/-- One enabled zone: an active stream at its rate, and a zone model (02 R70). -/
def zoneCovered (c : Cfg) (z : ZoneRow) : Bool :=
  let r := c.stream z.stream
  r.active && decide (90000000 ≤ r.fpsMhz * r.zoneWindow) && c.zoneModel.isSome

def check10 (s : State) (c : Cfg) : Bool :=
  (c.enabledZones.all fun z => zoneCovered c (c.zone z))
    && (c.enabledZones.isEmpty || decide (2 ≤ s.ableRegions.length))

/-- Check 11: the resident firmware accepts the model that a batch switches to, and the zone model it brings (08 R259). -/
def check11 (s : State) (new : Cfg) (switch zone : Bool) : Bool :=
  (!switch || decide (new.model.firmware ≤ s.boot.firmwareVersion))
    && (!zone || match new.zoneModel with
        | none => true
        | some z => decide (z.firmware ≤ s.boot.firmwareVersion))

/-- Check 12: the instant lies 2 ms ahead, or the stream named is active (02 R70). -/
def check12 (s : State) : Option CommitAt → Bool
  | none => true
  | some (.time t) => decide (s.time.now + 2000000 ≤ t)
  | some (.event n _) => (s.cfg.stream n).active

/-! ## The run of the checks -/

/-- The first index of a list whose element fails a test. -/
def firstBad (ok : Entry → Bool) (es : List Entry) : Option Nat := es.findIdx? fun e => !ok e

/-- The first entry that writes a row for which `bad` holds; 0 when none does. -/
def entryOf (table : Nat) (bad : Nat → Bool) (es : List Entry) : Nat :=
  ((es.findIdx? fun e => (e.kind == 2 || e.kind == 3) && e.table == table && bad e.index)).getD 0

/-- Checks 4 to 11 on a resulting configuration, in order (02 R70). `first` is the index of the entry from which a check of the
whole configuration fails (log entry 194). -/
def checkResult (s : State) (old new : Cfg) (switch firmware : Bool) (es : List Entry) (overlay : Option (List OverlayItem)) (first : (Cfg → Bool) → Nat) :
    Option Failure :=
  if !check4 new then
    some ⟨4, (if new.zones.all fun e => zoneRefOk new e.2 then
        entryOf 4 (fun i => !streamRefOk new (new.stream i)) es
      else entryOf 5 (fun i => !zoneRefOk new (new.zone i)) es), stRANGE⟩
  else if !check5 new then some ⟨5, first check5, stRANGE⟩
  else if !check6 new then some ⟨6, first check6, stRANGE⟩
  else if !check7 s new then some ⟨7, first (check7 s), stBUDGET⟩
  else if !check8 old new switch overlay then some ⟨8, first fun c => check8 old c switch overlay, stBUDGET⟩
  else if !check9 s new then some ⟨9, first (check9 s), stBUDGET⟩
  else if !check10 s new then some ⟨10, entryOf 5 (fun i => (new.zone i).enabled && !zoneCovered new (new.zone i)) es, stRANGE⟩
  else if firmware && !check11 s new switch (es.any fun e => e.kind == 2 && e.table == 6) then some ⟨11, (es.findIdx? fun e => e.kind == 4 || e.table == 6).getD 0, stRANGE⟩
  else none

/-- The first entry check 3 refuses, with its status. -/
def firstImageFault (s : State) : Nat → List Entry → Option (Nat × Nat)
  | _, [] => none
  | i, e :: r => match check3 s e with
    | some st => some (i, st)
    | none => firstImageFault s (i + 1) r

/-- The index of the entry from which the configuration that the entries build fails a test; 0 when none of them makes it fail. -/
def firstFailing (s : State) (es : List Entry) (ok : Cfg → Bool) : Nat :=
  ((List.range es.length).find? fun i => !ok (applyEntries s s.cfg (es.take (i + 1)))).getD 0

/-- The twelve checks in order, stopping at the first failure (02 R70). Check 2 looks across rows with the images that check 3
admits. Check 12 concerns no entry and reports index 0 (log entry 194). -/
def runChecks (s : State) (es : List Entry) (at_ : Option CommitAt) (overlay : Option (List OverlayItem)) :
    Option Failure :=
  let new := applyEntries s s.cfg es
  match firstBad check1 es with
  | some i => some ⟨1, i, stRANGE⟩
  | none =>
  match firstBad (check2 s new) es with
  | some i => some ⟨2, i, stRANGE⟩
  | none =>
  let readable := es.filter fun e => (check3 s e).isNone
  if !crossRangesOk (applyEntries s s.cfg readable) then some ⟨2, firstFailing s readable crossRangesOk, stRANGE⟩ else
  match firstImageFault s 0 es with
  | some (i, st) => some ⟨3, i, st⟩
  | none =>
  match checkResult s s.cfg new (isSwitch es) true es overlay (firstFailing s es) with
  | some f => some f
  | none => if check12 s at_ then none else some ⟨12, 0, stRANGE⟩

/-- Checks 7, 9 and 10 repeated against the capacity in force (02 R73, R75). -/
def recheck (s : State) (new : Cfg) (es : List Entry) : Option Failure :=
  if !check7 s new then some ⟨7, firstFailing s es (check7 s), stBUDGET⟩
  else if !check9 s new then some ⟨9, firstFailing s es (check9 s), stBUDGET⟩
  else if !check10 s new then some ⟨10, entryOf 5 (fun i => (new.zone i).enabled && !zoneCovered new (new.zone i)) es, stRANGE⟩
  else none

/-! ## The settled overlay (02 R80) -/

/-- The overlay items with one persisted register write: net value and union of masks. -/
def overlayField (off value mask : Nat) : List OverlayItem → List OverlayItem
  | [] => [.field off (BitVec.ofNat 64 (value &&& mask)) (BitVec.ofNat 64 mask)]
  | .field o v m :: r =>
    if o = off then
      .field o ((v &&& ~~~(BitVec.ofNat 64 mask)) ||| BitVec.ofNat 64 (value &&& mask)) (m ||| BitVec.ofNat 64 mask) :: r
    else .field o v m :: overlayField off value mask r
  | i :: r => i :: overlayField off value mask r

/-- The overlay items with the last state of one row. -/
def overlayRow (table idx : Nat) (image : Option (List Byte)) : List OverlayItem → List OverlayItem
  | [] => [.row table idx image]
  | .row t i im :: r => if t = table ∧ i = idx then .row t i image :: r else .row t i im :: overlayRow table idx image r
  | x :: r => x :: overlayRow table idx image r

/-- The overlay items with the last persisted model switch. -/
def overlayModel (image : List Byte) : List OverlayItem → List OverlayItem
  | [] => [.model image]
  | .model _ :: r => .model image :: r
  | x :: r => x :: overlayModel image r

/-- One persisted entry added to the overlay. -/
def overlayEntry (s : State) (o : List OverlayItem) (e : Entry) : List OverlayItem :=
  if !e.persist then o
  else if e.kind = 1 then overlayField e.index e.value e.mask o
  else if e.kind = 2 then overlayRow e.table e.index (some (s.bytes e.value e.mask)) o
  else if e.kind = 3 then overlayRow e.table e.index none o
  else overlayModel (s.bytes e.value e.mask) o

/-- The overlay as the flash writes on their way leave it. -/
def State.overlayNow (s : State) : List OverlayItem :=
  s.flash.writes.foldl (fun o w => match w with
    | .overlay x => x
    | .overlayClear => []
    | _ => o) s.flash.overlay

/-- The overlay after a batch; none when no entry persists. -/
def overlayAfter (s : State) (es : List Entry) : Option (List OverlayItem) :=
  if es.any (·.persist) then some (es.foldl (overlayEntry s) s.overlayNow) else none

/-- One overlay item applied to a configuration at start (02 R62); images of models lie at `a`, of zone models at `z`. -/
def applyItem (a z : Nat) (c : Cfg) : OverlayItem → Cfg
  | .field off v m => { c with regs := writeMasked c.regs off v.toNat m.toNat }
  | .row t i (some im) => writeRow c t i (imageOf im) im.length z
  | .row t i none => deleteRow c t i
  | .model im => { c with model := parseModel (imageOf im) a im.length false }

end Sys2Proof.Machine
end

