-- ==== Sys2Proof/Machine/Settle.lean ====
section
/-! DEFINITION. Settlement up to the instant (02 R66 to R75, R81 to R85): pages, staging, checks, commit,
acknowledgements, arming, and aborts. -/

namespace Sys2Proof.Machine

/-! ## Pages -/

def Stl.page (t : Stl) : Src → Page
  | .host => t.host
  | .smbus => t.smbus
  | .internal => t.internal

def Stl.setPage (t : Stl) (src : Src) (p : Page) : Stl :=
  match src with
  | .host => { t with host := p }
  | .smbus => { t with smbus := p }
  | .internal => { t with internal := p }

def State.page (s : State) (src : Src) : Page := s.stl.page src
/-- A page replaced; a change of its phase is traced (20 R577). -/
def State.setPage (s : State) (src : Src) (p : Page) : State :=
  let s1 := { s with stl := s.stl.setPage src p }
  if (s.page src).phase = p.phase then s1
  else s1.trace ucSTL 0xFF 0x0040 (leBytes 2 s.stl.epoch.toNat ++ leBytes 1 p.phase ++ leBytes 1 (srcCode src) ++ leBytes 1 p.reason
    ++ leBytes 3 0 ++ leBytes 8 p.instant.toNat)

/-- The outcome of a command in STL_STATUS (02 R84). -/
def State.pageDone (s : State) (src : Src) (status : Nat) (reason entry : Nat := 0) : State :=
  s.setPage src { s.page src with status := status, reason := reason, entry := entry }

/-- A command rejected with STATE: counted, recorded, no other effect (02 R81). -/
def State.stlReject (s : State) (src : Src) (op : Nat) : State :=
  (s.countReject (srcCode src) op).setPage src { s.page src with status := stSTATE }

/-- The staging buffer of a source (02 R67). -/
def stagingBuffer (s : State) : Src → Nat
  | .host => s.layout.hostBuffer
  | .smbus => s.layout.smbusBuffer
  | .internal => s.layout.internalBuffer

/-- Why a page takes no command now: nothing runs in reset, the SMBus page takes only SMBus commands (22 R638), the
chip controller restarts (02 R82), the quiet state takes three commands (02 R66), the safe state one (14 R434), and
during start-up none but REBOOT. -/
def stlBarred (s : State) (page via : Src) (op : Nat) : Bool :=
  (page == .smbus && via != .smbus) || s.flt.chipRestarting
    || (match s.phase with
        | .running => false
        | .quiet => !(op == 0x10 || op == 0x11 || op == 0x13)
        | .safe => op != 0x13
        | .booting => op != 0x13
        | .inReset => true)

/-- A command that reaches its page: no effect in reset, a rejection where barred, else `f`. -/
def stlCommand (s : State) (page via : Src) (op : Nat) (f : State → State) : State :=
  if s.phase = .inReset then s
  else if stlBarred s page via op then s.stlReject page op
  else f s

/-! ## OPEN, STAGE, CHECK, DISCARD -/

/-- The pending batch, or the charter update, is a source's own: its phase is what STL_STATUS shows (02 R84). -/
def State.holdsPage (s : State) (page : Src) : Bool :=
  (s.stl.batch.map (·.src)) == some page || (s.stl.update.map (·.src)) == some page

/-- The phase of a page that holds nothing pending: open or idle. -/
def Page.rest (p : Page) : Nat := if p.opened then 1 else 0

def openBatch (page : Src) (s : State) : State :=
  if (s.page page).opened then s.stlReject page 0x01
  else s.setPage page { s.page page with
    status := stOK, reason := 0, entry := 0, phase := if s.holdsPage page then (s.page page).phase else 1, opened := true, staged := [] }

/-- STL command OPEN (02 R81). -/
def execStlOpen (page via : Src) (s : State) : Out := done (stlCommand s page via 0x01 (openBatch page))

/-- The next `count` entries of the staging buffer. -/
def bufferEntries (s : State) (page : Src) (count : Nat) : List (List Byte) :=
  (List.range count).map fun i => s.bytes (stagingBuffer s page + 32 * ((s.page page).staged.length + i)) 32

def stageBatch (page : Src) (count : Nat) (s : State) : State :=
  if !(s.page page).opened || decide (4096 < (s.page page).staged.length + count) then s.stlReject page 0x02
  else s.setPage page { s.page page with status := stOK, reason := 0, entry := 0,
                                         staged := (s.page page).staged ++ bufferEntries s page count }

/-- STL command STAGE (02 R81). -/
def execStlStage (page via : Src) (count : Nat) (s : State) : Out :=
  done (stlCommand s page via 0x02 (stageBatch page count))

/-- The entries of an open batch. -/
def State.staged (s : State) (page : Src) : List Entry := (s.page page).staged.map parseEntry

/-- The failure of a check in STL_STATUS (02 R70, R84). -/
def State.checkFailed (s : State) (page : Src) (f : Failure) : State := s.pageDone page f.status f.check f.entry

def checkBatch (page : Src) (s : State) : State :=
  if !(s.page page).opened then s.stlReject page 0x03
  else
    let es := s.staged page
    match runChecks s es none (overlayAfter s es) with
    | some f => s.checkFailed page f
    | none => s.pageDone page stOK

/-- STL command CHECK (02 R70). -/
def execStlCheck (page via : Src) (s : State) : Out := done (stlCommand s page via 0x03 (checkBatch page))

def discardBatch (page : Src) (s : State) : State :=
  if !(s.page page).opened then s.stlReject page 0x07
  else s.setPage page { s.page page with
    status := stOK, reason := 0, entry := 0, phase := if s.holdsPage page then (s.page page).phase else 0, opened := false, staged := [] }

/-- STL command DISCARD (02 R81). -/
def execStlDiscard (page via : Src) (s : State) : Out := done (stlCommand s page via 0x07 (discardBatch page))

/-! ## Affected units (02 R73) -/

/-- Units a register's settled field reaches. -/
def unitsOfField (off : Nat) : List StlUnit :=
  if off = 0x51018 then [.time]
  else if off = 0x54010 then [.region 0, .region 1, .region 2, .region 3]
  else if off = 0x82010 then [.preproc]
  else if off = 0xC0008 then [.net 0]
  else if off = 0xC1008 then [.net 1]
  else if off = 0x40410 then [.journal, .encode]
  else []

/-- The regions of a 4-bit mask. -/
def unitsOfMask (m : Nat) : List StlUnit := ((List.range 4).filter fun g => m.testBit g).map .region

/-- Units an entry reaches, given the two configurations (log entry 20). -/
def unitsOfEntry (old new : Cfg) (e : Entry) : List StlUnit :=
  if e.kind = 1 then unitsOfField e.index
  else if e.kind = 4 then [.region 0, .region 1, .region 2, .region 3, .preproc]
  else if e.table = 4 then
    let a := old.stream e.index
    let b := new.stream e.index
    let moved := { a with account := b.account, region := b.region } = b
    (if a.active then unitsOfMask (old.account a.account).mask else [])
      ++ (if b.active then unitsOfMask (new.account b.account).mask else [])
      ++ [.ingest, .journal] ++ (if moved then [] else [.decode, .preproc, .encode])
      ++ (if a.zone || b.zone then [.safety] else [])
  else if e.table = 5 ∨ e.table = 6 then [.safety, .region 0, .region 1, .region 2, .region 3]
  else if e.table = 7 then unitsOfMask ((old.account e.index).mask ||| (new.account e.index).mask)
  else if e.table = 8 then [.ingest, .time, .encode, .clearing 0, .clearing 1, .clearing 2, .clearing 3]
  else if e.table = 9 then [.net 0, .net 1, .journal]
  else if e.table = 10 then unitsOfMask 15
  else []

/-- Each unit once, in order of first mention. -/
def dedup : List StlUnit → List StlUnit → List StlUnit
  | seen, [] => seen
  | seen, u :: r => if seen.contains u then dedup seen r else dedup (seen ++ [u]) r

/-- The units a batch affects. -/
def affectedUnits (old new : Cfg) (es : List Entry) : List StlUnit := dedup [] (es.flatMap (unitsOfEntry old new))

/-- Every unit: what a charter update affects (02 R88). -/
def allUnits : List StlUnit :=
  [.region 0, .region 1, .region 2, .region 3, .clearing 0, .clearing 1, .clearing 2, .clearing 3, .ingest, .decode, .preproc,
   .encode, .journal, .time, .safety, .net 0, .net 1]

/-- The units that a batch affects under the old configuration. -/
def Batch.units (b : Batch) (old : Cfg) : List StlUnit :=
  if b.charter then allUnits else affectedUnits old b.new (b.entries.map parseEntry)

/-! ## Aborts (02 R74) -/

/-- The stream and moment of a commit in a record's payload (02 R641). -/
def CommitAt.stream : CommitAt → Nat
  | .time _ => 0xFFFF
  | .event s _ => s
def CommitAt.moment : CommitAt → Nat
  | .time t => t
  | .event _ t => t

/-- The payload of a record about a batch (02 R641), whose charter version and slot stay 0 (log entry 197). -/
def batchPayload (b : Batch) (reason check entry : Nat) : StlPl :=
  { source := srcCode b.src, reason := reason, check := check, entry := entry, entries := b.entries.length
    stream := b.at_.stream, instant := b.at_.moment }

/-- A settlement cause for the host when the batch was the host's (17 R517). -/
def State.settledCause (s : State) (src : Src) : State := if src = .host then s.raise 4 else s

/-- The pending batch goes without effect (02 R69, R74): its page shows aborted, an adoption may retry (13 R404). -/
def dropBatch (s : State) (b : Batch) (status reason entry : Nat) : State :=
  let s1 := (s.setPage b.src { s.page b.src with status := status, reason := reason, entry := entry, phase := 5 }).settledCause b.src
  { s1 with
    stl := { s1.stl with batch := none, update := if b.charter then none else s1.stl.update }
    adapt := if b.adoption then { s1.adapt with retry := true } else s1.adapt }

/-- A batch aborted before its instant under R74, with record 0x0102. -/
def abortBatch (s : State) (status reason check : Nat) (entry : Option Nat := none) : State :=
  match s.stl.batch with
  | none => s
  | some b =>
    let s1 := dropBatch s b status reason (entry.getD 0)
    s1.emit { s1.record 0x0102 ucSTL (.stl (batchPayload b reason check (entry.getD 0xFFFF))) with status := status }

/-- Abort with the outcome of a repeated check. -/
def abortOnCheck (s : State) (f : Failure) : State := abortBatch s f.status f.check f.check (some f.entry)

/-- The batch is pending before its instant. -/
def Batch.before (b : Batch) : Bool :=
  match b.phase with
  | .draining _ => false
  | _ => true

/-! ## Commit (02 R73, R75) -/

/-- Every acknowledgement of an event commit is in: checks 7, 9 and 10, then ingest is armed (02 R75). -/
def armWhenReady (s : State) : State :=
  match s.stl.batch with
  | none => s
  | some b =>
    match b.at_, b.phase with
    | .event _ _, .prepare =>
      if b.waiting.isEmpty then
        match recheck s b.new (b.entries.map parseEntry) with
        | some f => abortOnCheck s f
        | none => { s with stl := { s.stl with batch := some { b with phase := .armed s.time.elapsed } } }
      else s
    | _, _ => s

/-- Commit the open batch of a page for a moment (02 R73, R75): checks, then prepare. -/
def commitBatch (page : Src) (op : Nat) (at_ : CommitAt) (s : State) : State :=
  if !(s.page page).opened || s.stl.batch.isSome || s.stl.update.isSome then s.stlReject page op
  else
    let raw := (s.page page).staged
    let es := raw.map parseEntry
    let overlay := overlayAfter s es
    match runChecks s es (some at_) overlay with
    | some f => s.checkFailed page f
    | none =>
      let new := applyEntries s s.cfg es
      let b : Batch := { src := page, entries := raw, at_ := at_, waiting := affectedUnits s.cfg new es, new := new
                         overlay := overlay, safety := isSafety es, modelSwitch := isSwitch es }
      let s1 := s.setPage page { s.page page with status := stOK, reason := 0, entry := 0, phase := 3, opened := false, staged := [] }
      armWhenReady { s1 with stl := { s1.stl with batch := some b } }

/-- The instant or the stream and tick that STL_INSTANT holds (02 R85). -/
def instantTime (p : Page) : CommitAt := .time (bitsOf p.instant.toNat 0 64)
def instantEvent (p : Page) : CommitAt := .event (bitsOf p.instant.toNat 64 10) (bitsOf p.instant.toNat 0 64)

/-- STL command COMMIT_AT_TIME (02 R73). -/
def execCommitAtTime (page via : Src) (s : State) : Out :=
  done (stlCommand s page via 0x04 (commitBatch page 0x04 (instantTime (s.page page))))

/-- STL command COMMIT_AT_EVENT (02 R75). -/
def execCommitAtEvent (page via : Src) (s : State) : Out :=
  done (stlCommand s page via 0x05 (commitBatch page 0x05 (instantEvent (s.page page))))

/-! ## ABORT (02 R81) -/

/-- The batch can still be aborted by its source. -/
def abortable (s : State) (page : Src) (b : Batch) : Bool :=
  b.src == page && b.before && !b.charter && b.fixed.isNone
    && (match b.at_ with
        | .time t => decide (s.time.now + 100000 ≤ t)
        | .event _ _ => true)

def abortCommand (page : Src) (s : State) : State :=
  match s.stl.batch with
  | none => s.stlReject page 0x06
  | some b => if abortable s page b then dropBatch s b stOK 0 0 else s.stlReject page 0x06

/-- STL command ABORT (02 R81). -/
def execStlAbort (page via : Src) (s : State) : Out := done (stlCommand s page via 0x06 (abortCommand page))

/-! ## Acknowledgements and the repeated checks (02 R73 to R75) -/

/-- A granule of a row or model image of the batch is void (02 R74). -/
def batchImageVoid (s : State) (b : Batch) : Bool :=
  (b.entries.map parseEntry).any fun e => (e.kind == 2 || e.kind == 4) && s.anyVoid e.value e.mask

/-- A unit has loaded its new set: it acknowledges, unless it met a void granule of an image. -/
def prepareAck (u : StlUnit) (s : State) : State :=
  match s.stl.batch with
  | none => s
  | some b =>
    match b.phase with
    | .prepare =>
      if !b.waiting.contains u then s
      else if batchImageVoid s b then
        match b.at_ with
        | .event _ _ => abortBatch s stVOID 16 0
        | .time _ => { s with stl := { s.stl with batch := some { b with voidSeen := true } } }
      else
        armWhenReady { s with stl := { s.stl with batch := some { b with waiting := b.waiting.filter (· != u) } } }
    | _ => s

/-- SETTLEMENT_PREPARE_ACK (02 R73). -/
def execSettlementPrepareAck (u : StlUnit) (s : State) : Out := done (if s.running then prepareAck u s else s)

/-- The step at the instant minus 100 us (02 R73 step 3, R74). -/
def preInstant (s : State) : State :=
  match s.stl.batch with
  | none => s
  | some b =>
    match b.at_, b.phase with
    | .time t, .prepare =>
      let s1 := s.atStation (t - 100000)
      if b.voidSeen then abortBatch s1 stVOID 16 0
      else if !b.waiting.isEmpty then abortBatch s1 stSTATE 16 0
      else match recheck s1 b.new (b.entries.map parseEntry) with
        | some f => abortOnCheck s1 f
        | none => { s1 with stl := { s1.stl with batch := some { b with phase := .ready } } }
    | _, _ => s

/-- PRE_INSTANT_RECHECK (02 R74). -/
def execPreInstantRecheck (s : State) : Out := done (if s.running then preInstant s else s)

/-- EVENT_TIMEOUT (02 R75 step 5): no random-access point within the event timeout after arming. -/
def eventTimeout (s : State) : State :=
  match s.stl.batch with
  | none => s
  | some b =>
    match b.phase with
    | .armed since =>
      abortBatch (s.atElapsed (since + s.cfg.policies.eventTimeout * second)) stBUDGET 17 0
    | _ => s

/-- EVENT_TIMEOUT (02 R75). -/
def execEventTimeout (s : State) : Out := done (if s.running then eventTimeout s else s)

/-- Any fencing or controller restart: an armed batch is checked again at once (02 R75), and a unit that held an
acknowledged shadow no longer has it (02 R78). -/
def capacityChanged (s : State) (lost : List StlUnit := []) : State :=
  match s.stl.batch with
  | none => s
  | some b =>
    match b.phase with
    | .armed _ =>
      (match recheck s b.new (b.entries.map parseEntry) with
       | some f => abortOnCheck s f
       | none => s)
    | .prepare =>
      let again := lost.filter fun u => (b.units s.cfg).contains u
      { s with stl := { s.stl with batch := some { b with waiting := dedup b.waiting again } } }
    | .ready =>
      if lost.any fun u => (b.units s.cfg).contains u then
        abortBatch s stSTATE 16 0
      else s
    | .draining _ => s

/-- The 32 bytes of an entry (02 R67). -/
def entryBytes (e : Entry) : List Byte :=
  leBytes 1 e.kind ++ leBytes 1 e.flags ++ leBytes 2 e.table ++ leBytes 4 e.index ++ leBytes 8 e.value ++ leBytes 8 e.mask
    ++ leBytes 8 e.rest

/-- The checks of a batch whose configuration firmware has formed: its rows are right in form, so that checks 1 and 3 pass. -/
def internalChecks (s : State) (es : List Entry) (new : Cfg) (at_ : Nat) (overlay : Option (List OverlayItem)) : Option Failure :=
  if !crossRangesOk new then some ⟨2, 0, stRANGE⟩
  else match checkResult s s.cfg new (isSwitch es) true es overlay (fun _ => 0) with
    | some f => some f
    | none => if check12 s (some (.time at_)) then none else some ⟨12, 0, stRANGE⟩

/-- A batch that internal firmware commits (02 sources): checked and prepared as one of the internal page. -/
def internalBatch (s : State) (es : List Entry) (new : Cfg) (at_ : Nat) (adoption failover : Bool) (overlay : Option (List OverlayItem) := none) :
    State :=
  match internalChecks s es new at_ overlay with
  | some f => s.checkFailed .internal f
  | none =>
    let b : Batch := {
      src := .internal, entries := es.map entryBytes, at_ := .time at_, waiting := affectedUnits s.cfg new es, new := new
      overlay := overlay, safety := isSafety es, modelSwitch := isSwitch es, adoption := adoption, failover := failover }
    let s1 := s.setPage .internal { s.page .internal with status := stOK, reason := 0, entry := 0, phase := 3 }
    { s1 with stl := { s1.stl with batch := some b } }

end Sys2Proof.Machine
end

