-- ==== Sys2Proof/Machine/Cells.lean ====
section
/-! DEFINITION. The cells of an engine: the operand network with its weight banks (01 R25, 07 R235 to R239) and the
four stages of the cell pipeline (07 R228 to R234). Within a clock cycle the stages move before the network does. The passes
of a tile are given by its plan. -/

namespace Sys2Proof.Machine

/-- One pass: the stationary blocks by cell, the bytes of them one cell holds, and the A blocks in order (07 R231, R234). -/
structure PassPlan where
  codes : List (List (List Nat))
  bytes : Nat
  blocks : List ABlock
  deriving DecidableEq, Repr

/-- The blocks of a plan in the order of their delivery. -/
def blocksOf (plan : List PassPlan) : List ABlock := plan.flatMap (·.blocks)

/-- Every use of a block of a plan, with the stationary codes it meets. -/
def flightsOf (plan : List PassPlan) : List Flight :=
  (plan.zipIdx).flatMap fun (q, i) => q.blocks.flatMap fun b =>
    (List.range b.rows).map fun r => { blk := b, row := r, bank := i % 2, codes := q.codes }

/-- The bank of a pass: passes take W0 and W1 in turn. -/
def Pipeline.bank (c : Pipeline) (pass : Nat) : Bank := if pass % 2 = 0 then c.bank0 else c.bank1
def Pipeline.setBank (c : Pipeline) (pass : Nat) (b : Bank) : Pipeline :=
  if pass % 2 = 0 then { c with bank0 := b } else { c with bank1 := b }

/-! ## Operand network -/

/-- The queue slots that blocks take. -/
def roomOf (bs : List ABlock) : Nat := (bs.map (·.room)).sum

/-- The leading blocks that a payload of so many slots of 64 bytes carries. -/
def payloadOf : Nat → List ABlock → List ABlock
  | _, [] => []
  | n, b :: r => if b.room ≤ n then b :: payloadOf (n - b.room) r else []

/-- The next payload: 512 bytes of the blocks not yet delivered (07 R227). -/
def Pipeline.payload (c : Pipeline) (plan : List PassPlan) : List ABlock := payloadOf 8 ((blocksOf plan).drop c.delivered)

/-- The queues have room for the whole payload: sixteen slots of 64 bytes (07 R227, R235). -/
def Pipeline.hasRoom (c : Pipeline) (blocks : List ABlock) : Bool :=
  !blocks.isEmpty && decide (roomOf c.queue + roomOf blocks ≤ 16)

/-- The pass whose bank takes a load cycle now: never one that is active or checking (07 R236). -/
def Pipeline.nextLoad (c : Pipeline) (plan : List PassPlan) : Option PassPlan :=
  match plan[c.loaded]?, (c.bank c.loaded).state with
  | some q, .empty => some q
  | some q, .loading => some q
  | _, _ => none

/-- One load cycle brings 64 bytes to each cell; after the last the bank is checked for two cycles (07 R227, R235). -/
def Pipeline.load (c : Pipeline) (q : PassPlan) : Pipeline :=
  let last := decide (q.bytes ≤ 64 * (c.loadCycle + 1))
  let b : Bank := { state := if last then .checking 2 else .loading, tag := c.loaded % 256, codes := q.codes }
  { c.setBank c.loaded b with
    sinceLoad := 0, loaded := if last then c.loaded + 1 else c.loaded, loadCycle := if last then 0 else c.loadCycle + 1 }

/-- One cycle of the network: delivery first, but a load at the latest in every sixteenth cycle (01 R25). `can` and `fed` say
whether the banks of engine memory have granted the reads of the next payload and of the next load by this cycle (01 R23). -/
def Pipeline.network (c : Pipeline) (can fed : Bool) (plan : List PassPlan) : Pipeline :=
  let next := c.payload plan
  let blocks := if can && c.hasRoom next then next else []
  let deliver : Pipeline := if blocks.isEmpty then { c with sinceLoad := 0 } else { c with
    queue := c.queue ++ blocks, delivered := c.delivered + blocks.length, sinceLoad := min 15 (c.sinceLoad + 1) }
  match (if fed then c.nextLoad plan else none) with
  | some q => if blocks.isEmpty || decide (15 ≤ c.sinceLoad) then c.load q else deliver
  | none => deliver

/-! ## Stages -/

/-- A word of an accumulator slot; a slot of which nothing is written holds zero (07 R231). -/
def slotWord (rows : List (List W32)) (i j : Nat) : W32 := (rows.getD i []).getD j 0

/-- The rows of a slot of one cell. -/
def slotRows (acc : Table (List (List W32))) (slot cell : Nat) : List (List W32) := Table.get [] (8 * slot + cell) acc

/-- One reduction into an accumulator: exact groups each rounded once in the float modes, one exact saturating sum in
the integer modes (06 R204, R205, 07 R228, R233); with the saturations. -/
def reduceInto (fa fw : Nat) (acc : W32) (a w : List Nat) : W32 × Nat :=
  if pairFloat fa then (floatReduce (groupK fa) acc (List.zipWith (fun p q => exactMul (flOf fa p) (flOf fw q)) a w), 0)
  else
    let r := intReduce acc.toInt [(List.zipWith (fun p q => intOf fa p * intOf fw q) a w).sum]
    (BitVec.ofInt 32 r.1, r.2)

/-- The slot of one cell after a block, with the saturations: in full mode 8 rows by 8 columns, in thin mode one row of 16
outputs. -/
def cellSlot (c : Pipeline) (f : Flight) (cell : Nat) (old : List (List W32)) : List (List (W32 × Nat)) :=
  let bank := f.codes.getD cell []
  if c.thin then
    (List.range (max f.blk.rows 1)).map fun i => (List.range 16).map fun j =>
      if i = f.row then
        reduceInto c.fmtA c.fmtW (slotWord old i j) ((bank.getD i []).drop f.blk.kOff) (f.blk.codes.getD j [])
      else (slotWord old i j, 0)
  else
    (List.range 8).map fun i => (List.range 8).map fun j =>
      reduceInto c.fmtA c.fmtW (slotWord old i j) (f.blk.codes.getD i []) (bank.getD j [])

/-- AC adds the reduced block into its slot of one cell (07 R229, R230). -/
def Pipeline.accumulateCell (c : Pipeline) (f : Flight) (cell : Nat) : Pipeline :=
  let xs := cellSlot c f cell (slotRows c.acc f.blk.slot cell)
  { c with acc := Table.set [] (8 * f.blk.slot + cell) (xs.map fun r => r.map (·.1)) c.acc
           accSats := c.accSats + (xs.map fun r => (r.map (·.2)).sum).sum }

/-- AC adds the reduced block into its slot of every cell. -/
def Pipeline.accumulate (c : Pipeline) (f : Flight) : Pipeline :=
  let d := (List.range 8).foldl (fun (x : Pipeline) cell => x.accumulateCell f cell) c
  { d with uses := d.uses + 1 }

/-- The flight carries the pass's drain token as it leaves MU: with two rows in thin mode, on its second use. -/
def Flight.drains (f : Flight) : Bool := f.blk.token && decide (f.blk.rows ≤ f.row + 1)

/-- The head of the queue enters BC; in thin mode with two rows it stays there for two cycles (07 R234). -/
def Pipeline.fetch (c : Pipeline) : Pipeline :=
  match c.queue with
  | [] => { c with bc := none }
  | b :: r =>
    if c.row + 1 < b.rows then { c with bc := some { blk := b, row := c.row }, row := c.row + 1, entries := c.entries + 1 }
    else { c with bc := some { blk := b, row := c.row }, row := 0, queue := r, entries := c.entries + 1 }

/-- One cycle of a bank's check; true when it finishes (07 R235). -/
def Bank.tick (b : Bank) : Bank × Bool :=
  match b.state with
  | .checking 0 => ({ b with state := .ready }, true)
  | .checking (n + 1) => ({ b with state := .checking n }, false)
  | _ => (b, false)

/-- What a cycle of the pipeline finds: words corrected in a bank, words uncorrectable and tag mismatches, and the cells that
report any of them. Uncorrectable words and mismatches abandon the tile. -/
structure CellEvents where
  corrected : Nat := 0
  wrong : Nat := 0
  cells : Nat := 0
  deriving DecidableEq, Repr

/-- The bits of a list of cells. -/
def cellMask (cells : List Nat) : Nat := cells.foldl (fun m k => m ||| 2 ^ (k % 8)) 0

/-- A bank that finishes checking: corrected in place, or empty when a word of it is uncorrectable (07 R239). -/
def Bank.checked (b : Bank) (check : List BankCheck) : Bank :=
  if check.any fun k => decide (0 < k.uncorrectable) then {}
  else { b with badTags := (check.filter (·.badTag)).map (·.cell) }

/-- The banks tick; a finished check reports what the ECC found. -/
def Pipeline.checkBanks (c : Pipeline) (check : List BankCheck) : Pipeline × CellEvents :=
  let (b0, d0) := c.bank0.tick
  let (b1, d1) := c.bank1.tick
  if d0 || d1 then
    let hit := check.filter fun k => decide (0 < k.corrected) || decide (0 < k.uncorrectable)
    ({ c with bank0 := if d0 then b0.checked check else b0, bank1 := if d0 then b1 else b1.checked check },
      { corrected := (check.map (·.corrected)).sum, wrong := (check.map (·.uncorrectable)).sum, cells := cellMask (hit.map (·.cell)) })
  else ({ c with bank0 := b0, bank1 := b1 }, {})

/-- The cells whose bank has not the tag of a pass. -/
def Bank.mismatch (b : Bank) (pass : Nat) : List Nat := if b.tag = pass % 256 then b.badTags else List.range 8

/-- BC and MU advance: a block enters MU only with its bank ready or active and tagged for its pass; otherwise it stays in
BC, where its parity is not checked again (07 R237). A bank in that state with a wrong tag is a fault of its cells (07 R238). -/
def Pipeline.enterMu (c : Pipeline) : Pipeline × List Nat :=
  match c.bc with
  | none => ({ c with mu := none }.fetch, [])
  | some f =>
    let b := c.bank f.blk.pass
    if b.state = .ready ∨ b.state = .active then
      let bad := b.mismatch f.blk.pass
      if bad.isEmpty then
        (({ c with mu := some { f with bank := f.blk.pass % 2, codes := b.codes } }.setBank f.blk.pass { b with state := .active }).fetch, [])
      else (c, bad)
    else ({ c with mu := none, bc := some { f with entered := false } }, [])

/-- One cycle of all eight cells (07 R229 to R239). -/
def Pipeline.cycle (c : Pipeline) (check : List BankCheck) : Pipeline × CellEvents :=
  let (c1, ev) := c.checkBanks check
  if 0 < ev.wrong then (c1, ev) else
  let freed := match c1.mu with
    | some f => if f.drains then c1.setBank f.bank {} else c1
    | none => c1
  let (c2, bad) := { freed with ac := c1.rd, rd := c1.mu }.enterMu
  let c3 := match c2.ac with
    | some f => c2.accumulate f
    | none => c2
  (c3, { ev with wrong := bad.length, cells := ev.cells ||| cellMask bad })

/-- The last block of the last pass has left AC (07 R247). -/
def Pipeline.drained (c : Pipeline) (plan : List PassPlan) : Bool := decide ((flightsOf plan).length ≤ c.uses)

/-- The passes run to their end: every use not yet accumulated passes the stages in its turn (07 R229, R247). -/
def Pipeline.finish (c : Pipeline) (plan : List PassPlan) : Pipeline :=
  let d := ((flightsOf plan).drop c.uses).foldl Pipeline.accumulate c
  { d with queue := [], bc := none, mu := none, rd := none, ac := none, bank0 := {}, bank1 := {}
           delivered := (blocksOf plan).length, loaded := plan.length, entries := (flightsOf plan).length }

/-- A block may meet a parity error now: one that has just entered BC, or one that has yet to enter it (07 R237, R252). -/
def Pipeline.checksParity (c : Pipeline) (plan : List PassPlan) : Bool :=
  ((c.bc.map (·.entered)).getD false) || decide (c.entries < (flightsOf plan).length)

/-- The cells at the start of a tile: slots at zero, queues and banks empty (07 R231). -/
def Pipeline.fresh (fa fw : Nat) (thin : Bool) : Pipeline := { fmtA := fa, fmtW := fw, thin := thin }

end Sys2Proof.Machine
end

