-- ==== Sys2Proof/Machine/Tile.lean ====
section
/-! DEFINITION. What a tile computes (08, 09, 10): its command, descriptors, chain and start checks, the operands
it reads, its accumulators, its chain stages and the writes it makes. -/

namespace Sys2Proof.Machine

/-! ## Addresses of engine memory -/

/-- A device address with the logical engine windows resolved to the engine that holds the index (01 R33, 16 R476). -/
def State.resolve (s : State) (a : Nat) : Nat :=
  match placeOf a with
  | .logical l => match s.physOf l with
    | some p => engineBase p + (a - logicalBase l)
    | none => a
  | _ => a

/-- Size of one engine's memory. -/
def engineSize : Nat := 0x400000

/-- A range lies in the window of engine p, by either of its addresses (08 R268). -/
def inOwnWindow (s : State) (p a n : Nat) : Bool :=
  let l := (s.engine p).logical
  (decide (engineBase p ≤ a) && decide (a + n ≤ engineBase p + engineSize))
    || (decide (l < 64) && decide (logicalBase l ≤ a) && decide (a + n ≤ logicalBase l + engineSize))

/-! ## Commands (08 R263, 10 R315) -/

/-- A tile command. -/
structure TileCmd where
  raw : List Byte
  opcode : Nat
  flags : Nat
  fmtA : Nat
  fmtW : Nat
  fmtO : Nat
  mMax : Nat
  nMax : Nat
  kMax : Nat
  dA : Nat
  dW : Nat
  dO : Nat
  d0 : Nat
  d1 : Nat
  dL : Nat
  entries : Nat
  strides : List Int
  chain : Nat
  padA : Nat
  padW : Nat
  parts : Nat
  part : Nat
  combiner : Nat
  member : Nat
  buffer : Nat
  need : Nat
  needMask : Nat
  releaseMask : Nat
  job : Nat
  tile : Nat
  excluded : Nat
  deriving DecidableEq, Repr

def TileCmd.thin (c : TileCmd) : Bool := c.flags.testBit 0
def TileCmd.list (c : TileCmd) : Bool := c.flags.testBit 1
def TileCmd.split (c : TileCmd) : Bool := c.flags.testBit 2
def TileCmd.zone (c : TileCmd) : Bool := c.flags.testBit 3
def TileCmd.shapeWord (c : TileCmd) : Bool := c.flags.testBit 4
/-- Convolution and pooling carry a geometry block. -/
def TileCmd.geometric (c : TileCmd) : Bool := c.opcode == 2 || c.opcode == 4
/-- Product, convolution and combine tiles multiply pairs of R202. -/
def TileCmd.paired (c : TileCmd) : Bool := c.opcode == 1 || c.opcode == 2 || c.opcode == 3
/-- The products of the tile are float. -/
def TileCmd.float (c : TileCmd) : Bool := c.paired && pairFloat c.fmtA

/-- The parts of a tile command (08 R263). -/
def parseTile (bs : List Byte) : TileCmd :=
  { raw := bs, opcode := field bs 0 1, flags := field bs 1 1, fmtA := field bs 2 1 % 16, fmtW := field bs 2 1 / 16
    fmtO := field bs 3 1 % 16, mMax := field bs 4 2, nMax := field bs 6 2, kMax := field bs 8 2
    dA := field bs 24 1, dW := field bs 25 1, dO := field bs 26 1, d0 := field bs 27 1, d1 := field bs 28 1
    dL := field bs 29 1, entries := field bs 30 2
    strides := (List.range 5).map fun i => signed (field bs (32 + 4 * i) 4) 32
    chain := field bs 52 4, padA := field bs 56 2, padW := field bs 58 2, parts := field bs 60 1, part := field bs 61 1
    combiner := field bs 62 1, member := field bs 63 1, buffer := field bs 64 4, need := field bs 68 4
    needMask := field bs 72 1 % 16, releaseMask := field bs 72 1 / 16, job := field bs 76 4, tile := field bs 80 8
    excluded := field bs 88 8 }

/-- The geometry block of opcodes 0x02 and 0x04 (10 R315). -/
structure Geometry where
  kh : Nat
  kw : Nat
  sy : Nat
  sx : Nat
  dy : Nat
  dx : Nat
  pt : Nat
  pl : Nat
  h : Nat
  w : Nat
  oy0 : Nat
  ox0 : Nat
  rows : Nat
  cols : Nat
  iy0 : Nat
  cg : Nat
  fold : Nat
  op : Nat
  deriving DecidableEq, Repr

def TileCmd.geometry (c : TileCmd) : Geometry :=
  let f (o n : Nat) : Nat := field c.raw o n
  { kh := f 96 1, kw := f 97 1, sy := f 98 1, sx := f 99 1, dy := f 100 2, dx := f 102 2, pt := f 104 2, pl := f 106 2
    h := f 108 2, w := f 110 2, oy0 := f 112 2, ox0 := f 114 2, rows := f 116 2, cols := f 118 2, iy0 := f 120 2
    cg := f 122 2, fold := f 124 1, op := f 125 1 }

/-- Ranges of the geometry block and the cases of 10 R316. -/
def geometryOk (c : TileCmd) (compat : Bool) : Bool :=
  let g := c.geometry
  let r (v lo hi : Nat) : Bool := decide (lo ≤ v) && decide (v ≤ hi)
  let pool := c.opcode == 4
  let op := g.op % 4
  r g.kh 1 15 && r g.kw 1 15 && r g.sy 1 16 && r g.sx 1 16 && r g.dy 1 1024 && r g.dx 1 1024 && r g.pt 0 8191
    && r g.pl 0 8191 && r g.h 1 8192 && r g.w 1 8192 && r g.oy0 0 8191 && r g.ox0 0 8191 && r g.rows 0 4096
    && r g.cols 0 4096 && r g.iy0 0 8191 && (if pool then g.cg == 1 else r g.cg 1 4096) && (!pool || g.fold == 0xFF)
    && (if pool then g.op < 16 else g.op == 0) && field c.raw 126 2 == 0
    && !c.thin && !c.list && c.needMask / 4 == 0
    && (!pool || (c.fmtA == c.fmtW && c.fmtA == c.fmtO && c.fmtO != 2))
    && (!pool || op < 2 || (g.kh == 1 && g.kw == 1 && g.dy == 1 && g.dx == 1 && g.pt == 0 && g.pl == 0))
    && (!pool || !g.op.testBit 3 || compat)

/-! ## Descriptors (08 R266) -/

/-- A buffer descriptor; `fmtByte` and `flags` as stored. -/
structure Desc where
  base : Nat
  size : Nat
  rowStride : Nat
  planeStride : Nat
  fmtByte : Nat
  flags : Nat
  scale : Nat
  depth : Nat
  rows : Nat
  cols : Nat
  deriving DecidableEq, Repr

def Desc.fmt (d : Desc) : Nat := d.fmtByte % 16
def Desc.rowScaled (d : Desc) : Bool := d.flags.testBit 0
def Desc.colScaled (d : Desc) : Bool := d.flags.testBit 1
def Desc.ring (d : Desc) : Bool := d.flags.testBit 3

/-- A descriptor from its 32 bytes. -/
def parseDesc (bs : List Byte) : Desc :=
  { base := field bs 0 8, size := field bs 8 4, rowStride := field bs 12 4, planeStride := field bs 16 4
    fmtByte := field bs 20 1, flags := field bs 21 1, scale := field bs 22 1, depth := field bs 23 1
    rows := field bs 24 4, cols := field bs 28 4 }

/-- What a running tile reads from. -/
structure TileEnv where
  s : State
  p : Nat
  issue : TileIssue
  c : TileCmd
  /-- its accumulator slots, and the integer saturations on the way to them (07 R231, 06 R204) -/
  acc : Table (List (List W32)) := []
  accSats : Nat := 0
  deriving Repr

/-- Descriptor i of the tile's table. -/
def TileEnv.desc (x : TileEnv) (i : Nat) : Desc := parseDesc (x.s.bytes (x.s.resolve (x.issue.descBase + 32 * i)) 32)

/-- Bytes of the engine's own memory. -/
def TileEnv.own (x : TileEnv) (off n : Nat) : List Byte := x.s.bytes (engineBase x.p + off) n

/-- The compatibility flag by which the tile is judged (06 R218). -/
def TileEnv.compat (x : TileEnv) : Bool :=
  if x.issue.adaptation then false
  else if x.c.zone then ((x.s.cfgOf x.issue.epoch).zoneModel.map (·.compat)).getD false
  else (x.s.cfgOf x.issue.epoch).model.compat

/-- Run-time shapes M, N, K and outer count, from the command or its shape word (08 R264). -/
def TileEnv.shape (x : TileEnv) : Nat × Nat × Nat × Nat :=
  let bs := if x.c.shapeWord then x.own (field x.c.raw 20 4) 8 else (x.c.raw.drop 12).take 8
  (field bs 0 2, field bs 2 2, field bs 4 2, field bs 6 2)

/-! ## Pointer lists (08 R277) -/

/-- A pointer-list entry. -/
structure ListEntry where
  offs : List Nat
  m : Nat
  n : Nat
  k : Nat
  count : Nat
  member : Nat
  deriving DecidableEq, Repr

def parseListEntry (bs : List Byte) : ListEntry :=
  { offs := (List.range 5).map fun i => field bs (4 * i) 4, m := field bs 20 2, n := field bs 22 2, k := field bs 24 2
    count := field bs 26 2, member := field bs 28 2 }

/-- The entries of the tile's list. -/
def TileEnv.listEntries (x : TileEnv) : List ListEntry :=
  let d := x.desc x.c.dL
  (List.range x.c.entries).map fun i => parseListEntry (x.s.bytes (x.s.resolve (d.base + 32 * i)) 32)

/-- One product of the tile: an iteration of an entry, with the byte offset of each operand (A, stationary, output,
stream 0, stream 1), its shape and the batch slot it belongs to (0xFF none). -/
structure Work where
  entry : Nat
  iter : Nat
  offs : List Int
  m : Nat
  n : Nat
  k : Nat
  member : Nat
  deriving DecidableEq, Repr

/-- The offsets of one iteration (08 R274). -/
def iterOffs (base : List Nat) (strides : List Int) (b : Nat) : List Int :=
  (List.range 5).map fun i => ((base.getD i 0 : Nat) : Int) + (b : Int) * strides.getD i 0

/-- The work of a tile in order, excluded slots left out (08 R275, R277, R279). -/
def TileEnv.work (x : TileEnv) : List Work :=
  let (m, n, k, outer) := x.shape
  let all :=
    if x.c.list then
      (x.listEntries.zipIdx).flatMap fun (e, i) => (List.range e.count).map fun b =>
        { entry := i, iter := b, offs := iterOffs e.offs x.c.strides b, m := e.m, n := e.n, k := e.k
          member := if e.member < 64 then e.member else if x.c.member < 64 then x.c.member else 0xFF : Work }
    else (List.range outer).map fun b =>
      { entry := 0, iter := b, offs := iterOffs [] x.c.strides b, m := m, n := n, k := k
        member := if x.c.member = 0xFE then (if b < 64 then b else 0xFF) else if x.c.member < 64 then x.c.member else 0xFF : Work }
  all.filter fun u => !(decide (u.member < 64) && x.c.excluded.testBit u.member) && decide (u.m ≠ 0) && decide (u.n ≠ 0)

/-! ## Chains (09 R291, R292) -/

/-- A chain stage. -/
structure Stage where
  opcode : Nat
  fmtByte : Nat
  streamByte : Nat
  sub : Nat
  a : Nat
  b : Nat
  desc : Nat
  x : Nat
  y : Nat
  reserved : Nat
  deriving DecidableEq, Repr

def parseStage (bs : List Byte) : Stage :=
  { opcode := field bs 0 1, fmtByte := field bs 1 1, streamByte := field bs 2 1, sub := field bs 3 1, a := field bs 4 4
    b := field bs 8 4, desc := field bs 12 1, x := field bs 13 1, y := field bs 14 1, reserved := field bs 15 1 }

def Stage.stream (t : Stage) : Nat := t.streamByte % 4
def Stage.broadcast (t : Stage) : Nat := t.streamByte / 4 % 4
def Stage.target (t : Stage) : Nat := t.sub % 16
def Stage.mode (t : Stage) : Nat := t.sub / 16 % 2
def Stage.source (t : Stage) : Nat := t.sub / 32 % 4
def Stage.fromStats (t : Stage) : Bool := t.sub.testBit 7
/-- QUANT, IREQ or SEND: stages with no intermediate format. -/
def Stage.formless (t : Stage) : Bool := t.opcode == 6 || t.opcode == 9 || t.opcode == 0xB

/-- A chain: its header fields and its stages. -/
structure Chain where
  pro : List Stage := []
  epi : List Stage := []
  flags : Nat := 0
  faithfulByte : Nat := 0
  rowLen : Nat := 0
  inByte : Nat := 0
  reserved : Nat := 0
  deriving DecidableEq, Repr

/-- The tile names a chain. -/
def TileEnv.hasChain (x : TileEnv) : Bool := x.c.chain != 0xFFFFFFFF

/-- Bytes of the chain, from the stage counts of its header. -/
def TileEnv.chainBytes (x : TileEnv) : Nat := 16 + 16 * (field (x.own x.c.chain 16) 0 1 + field (x.own x.c.chain 16) 1 1)

/-- The chain as stored. -/
def TileEnv.chain (x : TileEnv) : Chain :=
  if !x.hasChain then {}
  else
    let h := x.own x.c.chain 16
    let np := field h 0 1
    let st (i : Nat) : Stage := parseStage (x.own (x.c.chain + 16 + 16 * i) 16)
    { pro := (List.range np).map st, epi := (List.range (field h 1 1)).map fun i => st (np + i)
      flags := field h 2 1, faithfulByte := field h 3 1, rowLen := field h 4 2, inByte := field h 6 1, reserved := field h 7 9 }

def Chain.faithful (c : Chain) : Bool := c.flags.testBit 0

/-- The format the A descriptor must have (09 R300). -/
def TileEnv.storedA (x : TileEnv) : Nat := if x.chain.pro.isEmpty then x.c.fmtA else x.chain.inByte % 16

/-! ## Start checks (08 R271) -/

/-- A failing start check and its status. -/
structure CheckFail where
  check : Nat
  status : Nat
  deriving DecidableEq, Repr

def tileCheck1 (x : TileEnv) : Bool :=
  let c := x.c
  c.raw.length == 128 && decide (1 ≤ c.opcode) && decide (c.opcode ≤ 5) && decide (c.flags < 32) && decide (field c.raw 3 1 < 16)
    && decide (c.fmtA < 8) && decide (c.fmtW < 8) && decide (c.fmtO < 8) && field c.raw 10 2 == 0 && field c.raw 73 3 == 0
    && (c.geometric || field c.raw 96 32 == 0) && (decide (c.member < 0x40) || c.member == 0xFE || c.member == 0xFF)
    && (!c.paired || pairOk c.fmtA c.fmtW) && (c.opcode != 5 || c.fmtA == c.fmtW) && (!c.geometric || geometryOk c x.compat)

/-- The operand and output descriptors of the tile, its streams, list and fold vector, with the format each must have; none where
any of 06 R194 is allowed (08 R271 check 2, 10 R325). -/
def TileEnv.operands (x : TileEnv) : List (Nat × Option Nat) :=
  let c := x.c
  [(c.dA, some x.storedA), (c.dO, some c.fmtO)]
    ++ (if c.paired then [(c.dW, some c.fmtW)] else [])
    ++ (if c.d0 = 0xFF then [] else [(c.d0, none)]) ++ (if c.d1 = 0xFF then [] else [(c.d1, none)])
    ++ (if c.list then [(c.dL, none)] else [])
    ++ (if c.opcode = 2 ∧ c.geometry.fold ≠ 0xFF then [(c.geometry.fold, some 7)] else [])

/-- The scale vectors of those descriptors, which are N16 and are checked like any operand (08 R267). -/
def TileEnv.scaleDescs (x : TileEnv) : List (Nat × Option Nat) :=
  x.operands.filterMap fun u =>
    let d := x.desc u.1
    if (d.rowScaled || d.colScaled) && d.scale != 0xFF then some (d.scale, some 5) else none

/-- The descriptors the tile uses with the format each must have. -/
def TileEnv.used (x : TileEnv) : List (Nat × Option Nat) := x.operands ++ x.scaleDescs

/-- The descriptors that STAT and SEND stages name. -/
def TileEnv.stageDescs (x : TileEnv) : List (Nat × Option Nat) :=
  (x.chain.epi.filter fun t => t.opcode == 7 || t.opcode == 9).map fun t => (t.desc, none)

/-- One descriptor of check 2: its index below the table's count, its format one of 06 R194 and the one its role asks for, and
its reserved bits zero. -/
def TileEnv.descOk (x : TileEnv) (u : Nat × Option Nat) : Bool :=
  decide (u.1 < x.issue.descCount) &&
    (let d := x.desc u.1
     decide (d.fmtByte < 8) && decide (d.flags < 16) && (match u.2 with
       | none => true
       | some v => d.fmt == v)
     && (!(d.rowScaled || d.colScaled) || decide (d.scale < x.issue.descCount)))

def tileCheck2 (x : TileEnv) : Bool := (x.used ++ x.stageDescs).all x.descOk

/-- A range within engine memory. -/
def inEngine (off n : Nat) : Bool := decide (off + n ≤ engineSize)

/-- The combine-buffer bytes of one part (08 R280). -/
def TileCmd.partBytes (c : TileCmd) : Nat := c.mMax * c.nMax * 4

def tileCheck3 (x : TileEnv) : Bool :=
  let c := x.c
  (x.used.all fun e => let d := x.desc e.1; inOwnWindow x.s x.p d.base d.size && (!d.ring || (decide (1 ≤ d.depth) && decide (d.depth ≤ 128))))
    && (!x.hasChain || (c.chain % 16 == 0 && inEngine c.chain 16 && inEngine c.chain x.chainBytes))
    && (!c.shapeWord || (field c.raw 20 4 % 8 == 0 && inEngine (field c.raw 20 4) 8))
    && (!c.split || inEngine (c.buffer + c.part * c.partBytes) c.partBytes)
    && (c.opcode != 3 || inEngine c.buffer (c.parts * c.partBytes))
    && (x.chain.epi.all fun t =>
      if t.opcode = 7 then
        let d := x.desc t.desc
        inOwnWindow x.s x.p d.base d.size ||
          (decide (regionBase (regionOf x.p) ≤ d.base) && decide (d.base + d.size ≤ regionBase (regionOf x.p) + 0x2000000))
      else if t.opcode = 9 then inEngine (x.desc t.desc).base (x.desc t.desc).size
      else true)

/-- M and K of a convolution or pooling tile as its geometry gives them (10 R317, R328). -/
def geometricShape (c : TileCmd) (m k : Nat) : Bool :=
  let g := c.geometry
  m == g.rows * g.cols && k == g.kh * g.kw * g.cg

def tileCheck4 (x : TileEnv) : Bool :=
  let (m, n, k, outer) := x.shape
  decide (m ≤ x.c.mMax) && decide (n ≤ x.c.nMax) && decide (k ≤ x.c.kMax)
    && (if x.c.list then decide (x.c.entries ≤ 4096) && decide (32 * x.c.entries ≤ (x.desc x.c.dL).size) else decide (outer ≤ 4096))
    && (!x.c.geometric || geometricShape x.c m k)

def tileCheck5 (x : TileEnv) : Bool :=
  !x.c.list || x.listEntries.all fun e =>
    decide (e.m ≤ x.c.mMax) && decide (e.n ≤ x.c.nMax) && decide (e.k ≤ x.c.kMax) &&
      ([(x.c.dA, 0), (x.c.dW, 1), (x.c.dO, 2)].all fun (i, o) =>
        let d := x.desc i
        !d.rowScaled || d.rowStride == 0 || e.offs.getD o 0 % d.rowStride == 0)

/-- Where R294 allows a stage: prologue, epilogue, and its place. -/
def stagePlaceOk (pro : Bool) (first last : Bool) (t : Stage) : Bool :=
  if t.opcode = 1 ∨ t.opcode = 0xB then !pro && first
  else if t.opcode = 2 ∨ t.opcode = 3 ∨ t.opcode = 4 ∨ t.opcode = 5 ∨ t.opcode = 6 then true
  else if t.opcode = 7 ∨ t.opcode = 8 then !pro
  else if t.opcode = 9 then !pro && last
  else t.opcode == 0xA && pro

/-- Sub-operation bits and reserved bits of a stage (09 R294, R309). -/
def stageSubOk (t : Stage) : Bool :=
  let subOk :=
    if t.opcode = 1 then decide (t.sub < 4) else if t.opcode = 2 then decide (t.sub < 2) else if t.opcode = 3 then decide (t.sub ≤ 5)
    else if t.opcode = 6 then true else if t.opcode = 8 then decide (t.sub ≤ 1) else if t.opcode = 0xB then t.sub == 0 || t.sub == 16
    else t.sub == 0
  subOk && t.reserved == 0 && decide (t.streamByte < 16) && decide (t.fmtByte < 16)
    && (if t.formless then t.fmtByte == 0 else decide (3 ≤ t.fmtByte) && decide (t.fmtByte ≤ 6))

/-- A stage that must read a stream does, and the stream it names exists (09 R295, R309). -/
def stageStreamOk (x : TileEnv) (t : Stage) : Bool :=
  let named := t.stream != 0
  let d := if t.stream = 1 then x.c.d0 else x.c.d1
  let needs := t.opcode == 4 || t.opcode == 5 || t.opcode == 0xA || t.opcode == 0xB || (t.opcode == 6 && (t.source == 2 || t.fromStats))
  decide (t.stream < 3) && (!named || d != 0xFF) && (!needs || named)
    && (!(named && (t.opcode == 2 || (t.opcode == 6 && t.source == 2))) || t.broadcast == 3)
    && (!(t.opcode == 0xA || (t.opcode == 6 && t.fromStats)) || ((x.desc d).fmt == 6 && t.broadcast == 1))
    && (t.opcode != 0xB || t.broadcast == 2)

/-- The zero point of a learned constant, by the signedness of its target (09 R297). -/
def stageZero (target v : Nat) : Int := if target = 1 then (v : Int) else signed v 8

/-- Targets and zero points of QUANT that can be tested at the start (09 R297 to R300, 06 R209, R212). -/
def quantOk (x : TileEnv) (pro first : Bool) (rowLenOk : Bool) (t : Stage) : Bool :=
  t.opcode != 6 ||
    (decide (t.target ≤ 5) && t.target == (if pro then x.c.fmtA else x.c.fmtO)
      && (t.source != 0 || decide (3 ≤ t.target))
      && (t.source != 1 || (if 3 ≤ t.target then t.x == 0 else t.target != 2 || (decide (-8 ≤ stageZero 2 t.x) && decide (stageZero 2 t.x ≤ 7))))
      && (t.source != 3 || (t.mode == 0 && (t.target == 0 || t.target == 2 || t.target == 3 || t.target == 4) && rowLenOk))
      && (!t.fromStats || (pro && first && t.source == 3 && decide (1 ≤ t.y) && decide (t.y ≤ 64)))
      && (t.mode == 0 || x.compat))

/-- Nothing but SEND follows a QUANT or IREQ, and each of STAT and SEND stands at most once. -/
def stageOrderOk : List Stage → Bool
  | [] => true
  | t :: r => (!(t.opcode == 6 || t.opcode == 0xB) || r.all fun u => u.opcode == 9) && stageOrderOk r

/-- The parameters of STAT, REDUCE, SEND, NORM and DEQ. -/
def stageParamOk (x : TileEnv) (ch : Chain) (t : Stage) : Bool :=
  if t.opcode = 1 then
    (!t.sub.testBit 0 || (x.desc x.c.dA).rowScaled || ch.pro.any fun u => u.opcode == 6 && u.source == 3)
      && (!t.sub.testBit 1 || (x.desc x.c.dW).colScaled)
  else if t.opcode = 7 then decide (1 ≤ t.y) && decide (t.y ≤ 64) && decide (t.x < t.y) && decide (t.desc < x.issue.descCount)
  else if t.opcode = 8 then decide (1 ≤ t.a) && decide (t.a ≤ 4096)
  else if t.opcode = 9 then decide (t.desc < x.issue.descCount) && decide (t.x < 64) && decide (t.x / 16 = regionOf x.p)
    && (t.y == 0xFF || (decide (t.y < 64) && decide (t.y / 16 = regionOf x.p)))
  else if t.opcode = 0xA then decide (1 ≤ t.y) && decide (t.y ≤ 64)
  else if t.opcode = 0xB then !x.c.float && x.c.opcode != 4 && x.c.opcode != 5 && (t.mode == 0 || x.compat)
  else true

/-- L equals the row extent of every piece of work (09 R298, R299). -/
def rowLenOk (x : TileEnv) (pro : Bool) : Bool :=
  let (_, n, k, _) := x.shape
  let len := x.chain.rowLen
  if x.c.list then x.listEntries.all fun e => (if pro then e.k else e.n) == len else (if pro then k else n) == len

/-- The chain of a zone tile (09 R307). -/
def zoneChainOk (ch : Chain) : Bool :=
  ch.pro.isEmpty && (match ch.epi with
    | [t] => t.opcode == 0xB
    | [t, u] => t.opcode == 0xB && u.opcode == 9
    | _ => false)

def stagesOk (x : TileEnv) (ch : Chain) (pro : Bool) (ts : List Stage) : Bool :=
  stageOrderOk ts && (ts.zipIdx).all fun (t, i) =>
    stagePlaceOk pro (i == 0) (i + 1 == ts.length) t && stageSubOk t && stageStreamOk x t
      && quantOk x pro (i == 0) (rowLenOk x pro && (pro || ((x.desc x.c.dO).rowScaled && !x.c.split))) t && stageParamOk x ch t

/-- A pooling tile without a chain forms its output; an INT32 one only by moving codes, since no conversion has an INT32 target
(06 R207, 10 R332). -/
def poolForms (x : TileEnv) : Bool := x.c.opcode == 4 && !x.hasChain && (x.c.fmtO != 7 || x.c.geometry.op % 4 != 1)

/-- An integer output is formed by QUANT, IREQ, or a pooling tile without a chain (09 R297, 10 R332). -/
def outputFormed (x : TileEnv) (ch : Chain) : Bool :=
  let formed := ch.epi.any fun t => t.opcode == 6 || t.opcode == 0xB
  let ireq := ch.epi.any fun t => t.opcode == 0xB
  if x.c.split then true
  else if x.c.fmtO = 7 then ireq || poolForms x
  else if x.c.fmtO ≤ 2 then formed || poolForms x
  else true

def tileCheck6 (x : TileEnv) : Bool :=
  let ch := x.chain
  outputFormed x ch && (!x.hasChain ||
    (decide (ch.pro.length + ch.epi.length ≤ 8) && decide (ch.flags < 2) && decide (ch.faithfulByte < 16)
      && (!ch.faithful || (decide (3 ≤ ch.faithfulByte) && decide (ch.faithfulByte ≤ 6)))
      && decide (ch.inByte < 8) && ch.reserved == 0
      && stagesOk x ch true ch.pro && stagesOk x ch false ch.epi
      && ((ch.epi.filter fun t => t.opcode == 7).length ≤ 1) && ((ch.epi.filter fun t => t.opcode == 9).length ≤ 1)
      && (ch.pro.isEmpty || (x.c.opcode == 1 || x.c.opcode == 2) && (decide (3 ≤ x.c.fmtA) || ch.pro.any fun t => t.opcode == 6))
      && (!x.c.split || ch.epi.isEmpty) && (!x.c.zone || zoneChainOk ch)
      && (x.c.opcode != 5 || ch.epi.all fun t => t.opcode != 1)))

def tileCheck7 (x : TileEnv) : Bool :=
  let c := x.c
  decide (1 ≤ c.parts) && decide (c.parts ≤ 16) && decide (c.part < c.parts)
    && (if c.split || c.opcode == 3 then decide (c.combiner < 64) && c.combiner / 16 == regionOf x.p else c.parts == 1)

def tileCheck8 (x : TileEnv) : Bool :=
  !(x.c.shapeWord && x.s.anyVoid (engineBase x.p + field x.c.raw 20 4) 8)
    && !(x.c.list && x.s.anyVoid (x.s.resolve (x.desc x.c.dL).base) (32 * x.c.entries))
    && !(x.hasChain && x.s.anyVoid (engineBase x.p + x.c.chain) x.chainBytes)
    && (x.used ++ x.stageDescs).all fun e => !x.s.anyVoid (x.s.resolve (x.issue.descBase + 32 * e.1)) 32

/-- The first failing start check. -/
def startCheck (x : TileEnv) : Option CheckFail :=
  if !tileCheck1 x then some ⟨1, stRANGE⟩
  else if !tileCheck2 x then some ⟨2, stRANGE⟩
  else if !tileCheck3 x then some ⟨3, stBOUND⟩
  else if !tileCheck4 x then some ⟨4, stBOUND⟩
  else if !tileCheck5 x then some ⟨5, stBOUND⟩
  else if !tileCheck6 x then some ⟨6, stRANGE⟩
  else if !tileCheck7 x then some ⟨7, stRANGE⟩
  else if !tileCheck8 x then some ⟨8, stVOID⟩
  else none

/-! ## Accesses (08 R269, R274) -/

/-- What ends a tile while it runs: an access outside its descriptor or a record out of range (cause 3), or a void
granule (cause 4). -/
structure TileFault where
  void : Bool := false
  status : Nat := stBOUND
  desc : Nat := 0
  offset : Int := 0
  iter : Nat := 0
  entry : Nat := 0
  write : Bool := false
  member : Nat := 0xFF
  addr : Nat := 0
  /-- writes that the piece of work made before the fault -/
  made : List (Nat × Int × List Byte) := []
  deriving DecidableEq, Repr

/-- A computation of a tile: its value, or the fault that ends it. -/
abbrev Tile (α : Type) := Except TileFault α

/-- The bytes of one access. -/
def TileEnv.read (x : TileEnv) (u : Work) (i : Nat) (off : Int) (n : Nat) : Tile (List Byte) :=
  let d := x.desc i
  if off < 0 ∨ (d.size : Int) < off + (n : Int) then
    .error { desc := i, offset := off, iter := u.iter, entry := u.entry, member := u.member }
  else
    let a := x.s.resolve (d.base + off.toNat)
    if x.s.anyVoid a n then .error { void := true, status := stVOID, desc := i, iter := u.iter, entry := u.entry, member := u.member, addr := a }
    else .ok (x.s.bytes a n)

/-- One element of a row of a format, at a byte offset of the row's start. -/
def TileEnv.readElem (x : TileEnv) (u : Work) (i fmt : Nat) (row : Int) (col : Nat) : Tile Nat :=
  if fmt = 2 then do
    let b ← x.read u i (row + ((col / 2 : Nat) : Int)) 1
    return bitsOf (field b 0 1) (4 * (col % 2)) 4
  else do
    let n := fmtBits fmt / 8
    let b ← x.read u i (row + ((col * n : Nat) : Int)) n
    return leNat b

/-- Operand element (row, col): the padding code beyond the valid extent, else the stored code (08 R269). -/
def TileEnv.operand (x : TileEnv) (u : Work) (i role pad row col : Nat) : Tile Nat :=
  let d := x.desc i
  if d.rows ≤ row ∨ d.cols ≤ col then .ok (pad % 2 ^ min 16 (fmtBits d.fmt))
  else x.readElem u i d.fmt (u.offs.getD role 0 + ((row * d.rowStride : Nat) : Int)) col

/-- The N16 scale at an index of a scale vector, as FP32 (08 R267). -/
def TileEnv.scaleAt (x : TileEnv) (u : Work) (i : Nat) (index : Int) : Tile W32 := do
  let b ← x.read u i (2 * index) 2
  return n16F32 (leNat b)

/-- Index of row i's scale for an access at byte offset o (08 R267). -/
def scaleIndex (o : Int) (rowStride i : Nat) : Int := (if rowStride = 0 then 0 else o / (rowStride : Int)) + (i : Int)

/-- Element of the layer's input at image row iy, column ix and plane c (10 R318, R320): the padding code outside the image, the
stored code in the band of the A descriptor or in the ring group of the north or south port, and elsewhere an access outside its
descriptor. -/
def TileEnv.imageElem (x : TileEnv) (u : Work) (iy ix : Int) (c : Nat) : Tile Nat :=
  let g := x.c.geometry
  let d := x.desc x.c.dA
  let fmt := d.fmt
  if iy < 0 ∨ (g.h : Int) ≤ iy ∨ ix < 0 ∨ (g.w : Int) ≤ ix then .ok (x.c.padA % 2 ^ min 16 (fmtBits fmt))
  else
    let rel := iy - (g.iy0 : Int)
    let row := u.offs.getD 0 0 + ((c * d.planeStride : Nat) : Int) + rel * (d.rowStride : Int)
    let outside : Tile Nat := .error { desc := x.c.dA, offset := row + ((ix.toNat * fmtBits fmt / 8 : Nat) : Int), iter := u.iter
                                       entry := u.entry, member := u.member }
    let ringRow (port : Nat) (k : Desc → Int) : Tile Nat :=
      let ri := ((x.s.engine x.p).haloRing).getD port 0
      let r := x.desc ri
      let slot := bitsOf x.c.need (8 * port) 8 % max r.depth 1
      if k r < 0 ∨ (r.rows : Int) ≤ k r then outside
      else x.readElem u ri fmt (((slot * (r.size / max r.depth 1) + c * r.planeStride : Nat) : Int) + k r * (r.rowStride : Int)) ix.toNat
    if rel < 0 then (if x.c.needMask.testBit 0 then ringRow 0 fun r => (r.rows : Int) + rel else outside)
    else if (d.rows : Int) ≤ rel then (if x.c.needMask.testBit 1 then ringRow 1 fun _ => rel - (d.rows : Int) else outside)
    else if (d.cols : Int) ≤ ix then outside
    else x.readElem u x.c.dA fmt row ix.toNat

/-- Element of a convolution's A operand for output (oy, ox), tap t and channel c (10 R317). -/
def TileEnv.convElem (x : TileEnv) (u : Work) (oy ox t c : Nat) : Tile Nat :=
  let g := x.c.geometry
  x.imageElem u (((oy * g.sy + t / g.kw * g.dy : Nat) : Int) - (g.pt : Int)) (((ox * g.sx + t % g.kw * g.dx : Nat) : Int) - (g.pl : Int)) c

/-- The A operand of a piece of work as rows of codes. -/
def TileEnv.aRows (x : TileEnv) (u : Work) : Tile (List (List Nat)) :=
  if x.c.opcode = 2 then
    let g := x.c.geometry
    (List.range u.m).mapM fun i => (List.range u.k).mapM fun k =>
      x.convElem u (g.oy0 + i / max g.cols 1) (g.ox0 + i % max g.cols 1) (k / max g.cg 1) (k % max g.cg 1)
  else (List.range u.m).mapM fun i => (List.range (if x.c.opcode = 5 then u.n else u.k)).mapM fun k => x.operand u x.c.dA 0 x.c.padA i k

/-- The stationary operand as N rows of K codes (08 R267). -/
def TileEnv.wRows (x : TileEnv) (u : Work) : Tile (List (List Nat)) :=
  (List.range u.n).mapM fun j => (List.range u.k).mapM fun k => x.operand u x.c.dW 1 x.c.padW j k

/-! ## Accumulators (06 R203 to R206, 07 R228, R232) -/

/-- K indices a cell reduces in one cycle (07 R228, R232). -/
def blockK (thin : Bool) (fa fw : Nat) : Nat :=
  if fa = 5 then (if thin then 8 else 2) else if fa = 2 ∧ fw = 2 then (if thin then 64 else 16) else (if thin then 32 else 8)

/-- An accumulator as FP32 (09 R293). -/
def accF32 (float : Bool) (w : W32) : W32 := if float then w else fOfInt w.toInt

/-! ## Chain stages (09 R293 to R308) -/

/-- Values on their way through a chain: M rows of FP32, the raw accumulators for IREQ, final codes once formed,
events counted and writes made. -/
structure Flow where
  rows : List (List W32) := []
  raw : List (List W32) := []
  codes : Option (List (List Nat)) := none
  scales : List W32 := []
  sats : Nat := 0
  nans : Nat := 0
  accSats : Nat := 0
  /-- format of the target of the last counted saturation -/
  lastSat : Option Nat := none
  /-- writes: descriptor, byte offset, bytes -/
  writes : List (Nat × Int × List Byte) := []
  deriving DecidableEq, Repr

/-- Count the events of conversions to a format. -/
def Flow.count (f : Flow) (fmt : Nat) (cs : List (List Conv)) : Flow :=
  let n := (cs.map fun r => (r.map fun c => bit c.sat).sum).sum
  { f with sats := f.sats + n
           lastSat := if n = 0 then f.lastSat else some fmt
           nans := f.nans + (cs.map fun r => (r.map fun c => bit c.nan).sum).sum }

/-- The rounding of a stage's result to its intermediate format; none for FP32 (09 R293, R311). -/
def Flow.rounded (f : Flow) (fmt : Nat) : Flow :=
  if fmt = 6 ∨ fmt = 0 then f
  else
    let cs := f.rows.map fun r => r.map fun v => convert fmt .even none v
    { f.count fmt cs with rows := cs.map fun r => r.map fun c => codeF32 fmt c.code }

/-- FP32 constants of R296: the nearest to n / d. -/
def const32 (n d : Nat) : W32 := toF32 (quotient false n 0 d 0)

/-- tanh (09 R296). -/
def fTanh (x : W32) : W32 :=
  if isNan x then nan32
  else if fLt (fOfInt 9) (fAbs x) then (if x.toNat.testBit 31 then 0xBF800000 else one32)
  else
    let t := fMul x x
    let p := fAdd (fMul (fAdd (fMul (fAdd t (fOfInt 378)) t) (fOfInt 17325)) t) (fOfInt 135135)
    let q := fAdd (fMul (fAdd (fMul (fAdd (fMul (fOfInt 28) t) (fOfInt 3150)) t) (fOfInt 62370)) t) (fOfInt 135135)
    let y := fDiv (fMul x p) q
    if fLt one32 y then one32 else if fLt y 0xBF800000 then 0xBF800000 else y

/-- 0.5 -/
def half32 : W32 := 0x3F000000

def fSigmoid (x : W32) : W32 := fAdd (fMul half32 (fTanh (fMul half32 x))) half32

/-- GELU; infinite inputs give the limit of the function. -/
def fGelu (x : W32) : W32 :=
  match f32 x with
  | .inf neg => if neg then 0 else x
  | _ =>
    let c := fMul (fMul x x) x
    let u := fMul (const32 7978845608 10000000000) (fAdd x (fMul (const32 44715 1000000) c))
    fMul (fMul half32 x) (fAdd one32 (fTanh u))

/-- The activations (09 R296). -/
def activate (sub : Nat) (a x : W32) : W32 :=
  if isNan x then nan32
  else if sub = 0 then (if fLt 0 x then x else 0)
  else if sub = 1 then (let r := if fLt 0 x then x else 0; if fLt a r then a else r)
  else if sub = 2 then (if fLt x 0 then fMul a x else x)
  else if sub = 3 then fSigmoid x
  else if sub = 4 then fTanh x
  else fGelu x

/-- The descriptor and operand role of a stage's stream. -/
def TileEnv.streamOf (x : TileEnv) (t : Stage) : Nat × Nat := if t.stream = 1 then (x.c.d0, 3) else (x.c.d1, 4)

/-- Stream element for value (i, j), converted to FP32 and scaled (09 R295); `second` picks the pair's second. -/
def TileEnv.streamElem (x : TileEnv) (u : Work) (t : Stage) (i j : Nat) (second : Bool := false) : Tile W32 := do
  let (di, role) := x.streamOf t
  let d := x.desc di
  let o := u.offs.getD role 0
  let (row, col) := if t.broadcast = 0 then (i, j) else if t.broadcast = 1 then (0, i) else if t.broadcast = 2 then (0, j)
    else (0, 2 * j + bit second)
  let code ← x.readElem u di d.fmt (o + ((row * d.rowStride : Nat) : Int)) col
  let v := codeF32 d.fmt code
  if d.rowScaled then do
    let sc ← x.scaleAt u d.scale (scaleIndex o d.rowStride row)
    return fMul v sc
  else return v

/-- Apply a function of (i, j) and the value to every element. -/
def mapRowsM (rows : List (List W32)) (f : Nat → Nat → W32 → Tile W32) : Tile (List (List W32)) :=
  (rows.zipIdx).mapM fun (r, i) => (r.zipIdx).mapM fun (v, j) => f i j v

/-- Row statistics of slots 0 to S − 1 combined left to right: amax, sum, sum of squares, count (09 R302). -/
def TileEnv.stats (x : TileEnv) (u : Work) (t : Stage) (i : Nat) : Tile (W32 × W32 × W32 × Nat) := do
  let (di, role) := x.streamOf t
  let a := x.desc x.c.dA
  let row := scaleIndex (u.offs.getD 0 0) a.rowStride i
  let recs ← (List.range t.y).mapM fun (slot : Nat) =>
    x.read u di (u.offs.getD role 0 + 16 * (row * (t.y : Int) + (slot : Int))) 16
  let w (b : List Byte) (o : Nat) : W32 := BitVec.ofNat 32 (field b o 4)
  match recs with
  | [] => return (0, 0, 0, 0)
  | r :: rs => return rs.foldl (fun (m, s, q, n) b =>
      (fMax m (w b 0), fAdd s (w b 4), fAdd q (w b 8), n + field b 12 4)) (w r 0, w r 4, w r 8, field r 12 4)

/-- NORM over one row (09 R302). -/
def normRow (eps sum sq : W32) (count : Nat) (r : List W32) : List W32 :=
  let n := fOfInt count
  let mean := if count = 0 then 0 else fDiv sum n
  let var0 := if count = 0 then 0 else fSub (fDiv sq n) (fMul mean mean)
  let var := if fLt var0 0 then 0 else var0
  let rstd := fDiv one32 (fSqrt (fAdd var eps))
  r.map fun v => fMul (fSub v mean) rstd

/-- The 16-byte statistics record of a row (09 R301). -/
def statRecord (r : List W32) : List Byte :=
  let w (v : W32) : List Byte := leBytes 4 v.toNat
  w (amax r) ++ w (r.foldl fAdd 0) ++ w (r.foldl (fun a v => fAdd a (fMul v v)) 0) ++ leBytes 4 (r.filter isFinite).length

/-- Reduction of the rows of one group (09 R308). -/
def reduceGroup (avg : Bool) (g : List (List W32)) : List W32 :=
  (List.range ((g.headD []).length)).map fun j =>
    let col := g.map (·.getD j 0)
    if avg then fDiv (col.foldl fAdd 0) (fOfInt col.length)
    else match col with
      | [] => 0
      | v :: vs => vs.foldl fMax (if isNan v then nan32 else v)

/-- One IREQ output (09 R306): the code, its saturations of conversion and of the accumulator. -/
def ireqOne (fmt mode : Nat) (z lo hi : Int) (acc b m : Int) (h : Nat) : Nat × Bool × Bool :=
  let (s, accSat) := sat32 (acc + b)
  let t := s * m
  let q := roundInt (rndOf mode) (decide (t < 0)) t.natAbs (-(h : Int)) + z
  let c := max lo (min hi q)
  let (least, most) : Int × Int :=
    if fmt = 1 then (0, 255) else if fmt = 2 then (-8, 7) else if fmt = 7 then (-2147483648, 2147483647) else (-128, 127)
  (twos (max least (min most c)) (fmtBits fmt), decide (c < least ∨ most < c), accSat)

/-- A fault that a record out of range raises, as an access fault (09 R297, R306). -/
def TileEnv.rangeFault (x : TileEnv) (u : Work) (t : Stage) (off : Int) : TileFault :=
  { status := stRANGE, desc := (x.streamOf t).1, offset := off, iter := u.iter, entry := u.entry, member := u.member }

/-- IREQ over the raw accumulators. -/
def TileEnv.ireq (x : TileEnv) (u : Work) (t : Stage) (f : Flow) : Tile Flow := do
  let (di, role) := x.streamOf t
  let z := stageZero x.c.fmtO t.x
  let lo := signed t.a 16
  let hi := signed (t.a / 65536) 16
  let outs : List (List (Nat × Bool × Bool)) ← f.raw.mapM fun r => (r.zipIdx).mapM fun (v, j) => do
    let off := u.offs.getD role 0 + ((16 * j : Nat) : Int)
    let b ← x.read u di off 16
    let m := signed (field b 4 4) 32
    let h := signed (field b 8 4) 32
    if m < 1 ∨ h < 0 ∨ 62 < h then .error (x.rangeFault u t off)
    else return ireqOne x.c.fmtO t.mode z lo hi v.toInt (signed (field b 0 4) 32) m h.toNat
  let sat := (outs.map fun r => (r.map fun o => bit o.2.1).sum).sum
  let acc := (outs.map fun r => (r.map fun o => bit o.2.2).sum).sum
  return { f with codes := some (outs.map fun r => r.map (·.1)), sats := f.sats + sat, accSats := f.accSats + acc
                  lastSat := if sat ≠ 0 then some x.c.fmtO else if acc ≠ 0 then some 7 else f.lastSat }

/-- QUANT over the rows (09 R297 to R299): the codes with their events, and the row scales of source 3. -/
def TileEnv.quant (x : TileEnv) (u : Work) (t : Stage) (f : Flow) : Tile Flow := do
  let tgt := t.target
  let isInt := decide (tgt ≤ 2)
  if t.source = 3 then
    let ams : List W32 ← (f.rows.zipIdx).mapM fun (r, i) =>
      if t.fromStats then do let (m, _, _, _) ← x.stats u t i; return m else return amax r
    let scales := ams.map (rowScale tgt)
    let cs : List (List Conv) := List.zipWith (fun (r : List W32) sc => r.map fun v => convert tgt .even none (fMul v (rowRecip sc))) f.rows scales
    return { f.count tgt cs with codes := some (cs.map fun (r : List Conv) => r.map (·.code)), scales := scales.map n16F32 }
  else
    let cs : List (List Conv) ← (f.rows.zipIdx).mapM fun (r, i) => (r.zipIdx).mapM fun (v, j) =>
      if t.source = 0 then return convert tgt (rndOf t.mode) none v
      else if t.source = 1 then
        return convert tgt (rndOf t.mode) (if isInt then some (stageZero tgt t.x) else none) (fMul v (BitVec.ofNat 32 t.a))
      else do
        let rcp ← x.streamElem u t i j
        let zv ← x.streamElem u t i j true
        let z : Option Int := match f32 zv with
          | .fin neg m e => if m = 0 then some 0 else if 0 ≤ e then some (if neg then -(shl m e : Int) else (shl m e : Int))
              else if m % 2 ^ (-e).toNat = 0 then some (if neg then -(m / 2 ^ (-e).toNat : Int) else (m / 2 ^ (-e).toNat : Int)) else none
          | _ => none
        let (lo, hi) := intRange tgt (some 0)
        let (di, role) := x.streamOf t
        let bad : TileFault := x.rangeFault u t (u.offs.getD role 0 + (((2 * j + 1) * fmtBits (x.desc di).fmt / 8 : Nat) : Int))
        match z with
        | none => .error bad
        | some zi =>
          if isInt then (if zi < lo ∨ hi < zi then .error bad else return convert tgt (rndOf t.mode) (some zi) (fMul v rcp))
          else if zi ≠ 0 then .error bad
          else return convert tgt (rndOf t.mode) none (fMul v rcp)
    return { f.count tgt cs with codes := some (cs.map fun (r : List Conv) => r.map (·.code)) }

/-- One stage of a chain. `saOf` gives s_a of a row, `swOf` s_w of a column. -/
def TileEnv.stage (x : TileEnv) (u : Work) (saOf swOf : Nat → Tile W32) (fmt : Nat) (t : Stage) (f : Flow) : Tile Flow := do
  if t.opcode = 1 then
    let rows ← mapRowsM f.rows fun i j v => do
      let v1 ← if t.sub.testBit 0 then do let a ← saOf i; pure (fMul v a) else pure v
      if t.sub.testBit 1 then do let w ← swOf j; pure (fMul v1 w) else pure v1
    return ({ f with rows := rows }).rounded fmt
  else if t.opcode = 2 then
    let rows ← mapRowsM f.rows fun i j v => do
      let a ← if t.stream = 0 then pure (BitVec.ofNat 32 t.a) else x.streamElem u t i j
      let b ← if t.stream = 0 then pure (BitVec.ofNat 32 t.b) else x.streamElem u t i j true
      pure (if t.sub.testBit 0 then fFma v a b else fAdd (fMul v a) b)
    return ({ f with rows := rows }).rounded fmt
  else if t.opcode = 3 then
    return ({ f with rows := f.rows.map fun (r : List W32) => r.map (activate t.sub (BitVec.ofNat 32 t.a)) }).rounded fmt
  else if t.opcode = 4 then
    let rows ← mapRowsM f.rows fun i j v => do let e ← x.streamElem u t i j; pure (fAdd v e)
    return ({ f with rows := rows }).rounded fmt
  else if t.opcode = 5 then
    let rows ← mapRowsM f.rows fun i j v => do let e ← x.streamElem u t i j; pure (fMul v e)
    return ({ f with rows := rows }).rounded fmt
  else if t.opcode = 6 then x.quant u t f
  else if t.opcode = 7 then
    let g := f.rounded fmt
    let o := u.offs.getD 2 0
    let rs := (x.desc x.c.dO).rowStride
    let recs := (g.rows.zipIdx).map fun (r, i) => (t.desc, scaleIndex o rs i * (t.y : Int) * 16 + ((16 * t.x : Nat) : Int), statRecord r)
    return { g with writes := g.writes ++ recs }
  else if t.opcode = 8 then
    return ({ f with rows := (chunks t.a f.rows.length f.rows).map (reduceGroup (t.sub == 1)) }).rounded fmt
  else if t.opcode = 0xA then
    let rows ← (f.rows.zipIdx).mapM fun (r, i) => do
      let (_, sum, sq, n) ← x.stats u t i
      pure (normRow (BitVec.ofNat 32 t.a) sum sq n r)
    return ({ f with rows := rows }).rounded fmt
  else if t.opcode = 0xB then x.ireq u t f
  else return f

/-- The format a stage rounds to: its own, or the faithful one except for the last stage of its part (09 R311). -/
def stageFmt (ch : Chain) (ts : List Stage) (i : Nat) (t : Stage) : Nat :=
  let lastIx := (ts.filter fun u => u.opcode != 9).length - 1
  if !ch.faithful then t.fmtByte % 16 else if i = lastIx then 6 else ch.faithfulByte % 16

/-- The stages of a part in order. -/
def TileEnv.stages (x : TileEnv) (u : Work) (saOf swOf : Nat → Tile W32) (ch : Chain) (ts : List Stage) (f : Flow) : Tile Flow :=
  (ts.zipIdx).foldlM (fun g (t, i) => x.stage u saOf swOf (stageFmt ch ts i t) t g) f

/-! ## Pooling (10 R328 to R332) -/

/-- The value of one position of a pooling window: outside the image, or its code. -/
def TileEnv.poolElem (x : TileEnv) (u : Work) (oy ox t plane : Nat) : Tile (Bool × Nat) := do
  let g := x.c.geometry
  let iy : Int := ((oy * g.sy + t / g.kw * g.dy : Nat) : Int) - (g.pt : Int)
  let ix : Int := ((ox * g.sx + t % g.kw * g.dx : Nat) : Int) - (g.pl : Int)
  let inside := decide (0 ≤ iy) && decide (iy < (g.h : Int)) && decide (0 ≤ ix) && decide (ix < (g.w : Int))
  let c ← x.convElem u oy ox t plane
  return (inside, c)

/-- The larger of two codes by value; a NaN wins as the canonical code (10 R329). -/
def maxCode (fmt a b : Nat) : Nat :=
  if flOf fmt a = .nan ∨ flOf fmt b = .nan then (if fmt = 5 then 0x7FC0 else nan32.toNat) else if flLt (flOf fmt a) (flOf fmt b) then b else a

/-- The pooled value of one output as FP32, with its code when the operation gives one exactly. -/
def poolOne (fmt pad op area : Nat) (vs : List (Bool × Nat)) : W32 × Option Nat :=
  let padCode := pad % 2 ^ min 16 (fmtBits fmt)
  if op % 4 < 2 && !vs.any (·.1) then (codeF32 fmt padCode, some padCode)
  else if op % 4 = 0 then
    let c := match vs with
      | [] => padCode
      | v :: r => r.foldl (fun a w => maxCode fmt a w.2) (maxCode fmt v.2 v.2)
    (codeF32 fmt c, some c)
  else if op % 4 = 1 then
    let used := if op.testBit 2 then vs else vs.filter (·.1)
    let n := if op.testBit 2 then area else used.length
    (fDiv ((used.map fun v => codeF32 fmt v.2).foldl fAdd 0) (fOfInt n), none)
  else let c := ((vs.headD (false, padCode)).2); (codeF32 fmt c, some c)

/-- One output of an upsampling (10 R328). -/
def TileEnv.upsample (x : TileEnv) (u : Work) (oy ox plane : Nat) : Tile Nat :=
  let g := x.c.geometry
  if g.op % 4 = 3 ∧ ¬(oy % g.sy = 0 ∧ ox % g.sx = 0) then .ok (x.c.padA % 2 ^ min 16 (fmtBits (x.desc x.c.dA).fmt))
  else x.imageElem u ((oy / max g.sy 1 : Nat) : Int) ((ox / max g.sx 1 : Nat) : Int) plane

/-- Pooled values of a piece of work, M rows of N planes, and the exact codes where every output has one. -/
def TileEnv.pooled (x : TileEnv) (u : Work) : Tile (List (List (W32 × Option Nat))) :=
  let g := x.c.geometry
  (List.range u.m).mapM fun i => (List.range u.n).mapM fun plane => do
    let oy := g.oy0 + i / max g.cols 1
    let ox := g.ox0 + i % max g.cols 1
    if g.op % 4 < 2 then do
      let vs ← (List.range (g.kh * g.kw)).mapM fun t => x.poolElem u oy ox t plane
      return poolOne x.c.fmtA x.c.padA g.op (g.kh * g.kw) vs
    else do
      let c ← x.upsample u oy ox plane
      return (codeF32 x.c.fmtA c, some c)

/-! ## The whole tile -/

/-- A write of one row of output codes, bounds checked (08 R274). -/
def TileEnv.rowWrite (x : TileEnv) (u : Work) (off : Int) (codes : List Nat) : Tile (Nat × Int × List Byte) :=
  let d := x.desc x.c.dO
  let bs := packCodes d.fmt codes
  if off < 0 ∨ (d.size : Int) < off + (bs.length : Int) then
    .error { desc := x.c.dO, offset := off, iter := u.iter, entry := u.entry, write := true, member := u.member }
  else .ok (x.c.dO, off, bs)

/-- Writes made one after another; the fault of one keeps those before it. -/
def collect : List (Tile (Nat × Int × List Byte)) → List (Nat × Int × List Byte) → Tile (List (Nat × Int × List Byte))
  | [], acc => .ok acc
  | .error f :: _, acc => .error { f with made := acc }
  | .ok w :: r, acc => collect r (acc ++ [w])

/-- Output codes written at the addresses of R274 or R319; elements beyond the valid extent are not written. -/
def TileEnv.outputs (x : TileEnv) (u : Work) (codes : List (List Nat)) : Tile (List (Nat × Int × List Byte)) :=
  let d := x.desc x.c.dO
  let o := u.offs.getD 2 0
  if x.c.geometric then
    let g := x.c.geometry
    let lines := (List.range u.n).flatMap fun j => (List.range (min g.rows d.rows)).map fun r => (j, r)
    collect (lines.map fun (j, r) =>
      x.rowWrite u (o + ((j * d.planeStride + r * d.rowStride : Nat) : Int))
        ((List.range (min g.cols d.cols)).map fun c => (codes.getD (r * g.cols + c) []).getD j 0)) []
  else
    collect (((codes.zipIdx).filter fun (_, i) => decide (i < d.rows)).map fun (r, i) =>
      x.rowWrite u (o + ((i * d.rowStride : Nat) : Int)) (r.take d.cols)) []

/-- Every other write of a chain is checked against its own descriptor, after the writes already made. -/
def TileEnv.checkWrites (x : TileEnv) (u : Work) (made ws : List (Nat × Int × List Byte)) : Tile (List (Nat × Int × List Byte)) :=
  collect (ws.map fun (i, off, bs) =>
    if off < 0 ∨ ((x.desc i).size : Int) < off + (bs.length : Int) then
      .error { desc := i, offset := off, iter := u.iter, entry := u.entry, write := true, member := u.member }
    else .ok (i, off, bs)) made

/-- The exact conversion of a code to its own format (10 R332): the float formats go through 06 R198, R200 and R210, so that 0x80
of an N8 format becomes 0x00 and an N16 NaN the canonical one, counted. -/
def exactConv (fmt code : Nat) : Conv :=
  if fmt = 3 ∨ fmt = 4 ∨ fmt = 5 then convert fmt .even none (codeF32 fmt code) else { code := code }

/-- The epilogue of a piece of work, from its first values to its writes. -/
def TileEnv.epilogue (x : TileEnv) (u : Work) (saOf : Nat → Tile W32) (f : Flow) (exact : Option (List (List Nat))) : Tile Flow := do
  let ch := x.chain
  let w := x.desc x.c.dW
  let swOf (j : Nat) : Tile W32 := x.scaleAt u w.scale (scaleIndex (u.offs.getD 1 0) w.rowStride j)
  let g ← x.stages u saOf swOf ch ch.epi f
  let (h, codes) : Flow × List (List Nat) := match g.codes, exact, ch.epi with
    | some c, _, _ => (g, c)
    | none, some c, [] =>
      let cs := c.map fun r => r.map (exactConv x.c.fmtO)
      (g.count x.c.fmtO cs, cs.map fun (r : List Conv) => r.map (·.code))
    | none, _, _ =>
      let mode := if x.c.opcode = 4 && ch.epi.isEmpty then (if x.c.geometry.op.testBit 3 then Rnd.away else Rnd.even) else Rnd.even
      let zp : Option Int := none
      let cs := g.rows.map fun r => r.map fun v => convert x.c.fmtO mode zp v
      (g.count x.c.fmtO cs, cs.map fun (r : List Conv) => r.map (·.code))
  let outs ← x.outputs u codes
  let o := x.desc x.c.dO
  let dyn := (ch.epi.any fun t => t.opcode == 6 && t.source == 3)
  let scaleWs := if dyn then (h.scales.zipIdx).map fun (sc, i) =>
      (o.scale, 2 * scaleIndex (u.offs.getD 2 0) o.rowStride i, leBytes 2 (sc.toNat / 65536)) else []
  let all ← x.checkWrites u outs (scaleWs ++ h.writes)
  return { h with writes := all }

/-- The prologue: the codes that reach the cells and the scales of its QUANT (09 R299, R300). -/
def TileEnv.prologue (x : TileEnv) (u : Work) (a : List (List Nat)) : Tile Flow := do
  let ch := x.chain
  if ch.pro.isEmpty then return { codes := some a }
  else
    let none_ (_ : Nat) : Tile W32 := .ok one32
    let g ← x.stages u none_ none_ ch ch.pro { rows := a.map fun r => r.map (codeF32 (ch.inByte % 16)) }
    match g.codes with
    | some _ => return g
    | none =>
      let cs := g.rows.map fun r => r.map fun v => convert x.c.fmtA .even none v
      return { g.count x.c.fmtA cs with codes := some (cs.map fun (r : List Conv) => r.map (·.code)) }

/-! ## Chunks left out (10 R323 to R326, R334) -/

/-- The padding code of the A operand, in its format (08 R270). -/
def TileCmd.padCodeA (c : TileCmd) : Nat := c.padA % 2 ^ min 16 (fmtBits c.fmtA)
def TileCmd.padCodeW (c : TileCmd) : Nat := c.padW % 2 ^ min 16 (fmtBits c.fmtW)

/-- Every position of a line of n outputs from o lies outside [0, size) for one tap. -/
def allOutside (o n stride tap pad size : Nat) : Bool :=
  let first : Int := ((o * stride + tap : Nat) : Int) - (pad : Int)
  let last : Int := (((o + n - 1) * stride + tap : Nat) : Int) - (pad : Int)
  decide (last < 0) || decide ((size : Int) ≤ first)

/-- Tap t lies wholly in padding. -/
def tapPadding (g : Geometry) (t : Nat) : Bool :=
  allOutside g.oy0 g.rows g.sy (t / g.kw * g.dy) g.pt g.h || allOutside g.ox0 g.cols g.sx (t % g.kw * g.dx) g.pl g.w

/-- The code reads as zero. -/
def codeZero (fmt code : Nat) : Bool :=
  match flOf fmt code with
  | .fin _ m _ => m == 0
  | _ => false

/-- What becomes of the chunks of a convolution tile that lie wholly in padding (10 R324). -/
inductive PadChunks where
  | run | skip | fold
  deriving DecidableEq, Repr

def TileCmd.padChunks (c : TileCmd) : PadChunks :=
  if c.opcode ≠ 2 then .run
  else if c.float then (if codeZero c.fmtA c.padCodeA then .skip else .run)
  else if intOf c.fmtA c.padCodeA = 0 then .skip
  else if c.geometry.fold != 0xFF then .fold else .run

/-- The taps that a K chunk of a convolution covers. -/
def TileCmd.chunkTaps (c : TileCmd) (ch : Nat) : List Nat :=
  let g := c.geometry
  let bk := blockK false c.fmtA c.fmtW
  let last := min ((ch + 1) * bk) (g.kh * g.kw * g.cg) - 1
  (List.range (last / max g.cg 1 + 1)).drop (ch * bk / max g.cg 1)

/-- The K chunks that a tap's products lie in. -/
def TileCmd.tapChunks (c : TileCmd) (t : Nat) : List Nat :=
  let bk := blockK false c.fmtA c.fmtW
  let cg := max c.geometry.cg 1
  (List.range (((t + 1) * cg - 1) / bk + 1)).drop (t * cg / bk)

/-- Every tap of a chunk lies wholly in padding (10 R323). -/
def TileCmd.chunkPadding (c : TileCmd) (ch : Nat) : Bool := (c.chunkTaps ch).all (tapPadding c.geometry)

/-- The taps whose chunks are not run under folding: all of them lie wholly in padding, so that F stands for exactly the
products left out (10 R325, R326). -/
def TileCmd.foldedTaps (c : TileCmd) : List Nat :=
  if c.padChunks = .fold then
    (List.range (c.geometry.kh * c.geometry.kw)).filter fun t => (c.tapChunks t).all c.chunkPadding
  else []

/-- A chunk is not run. -/
def TileCmd.chunkOut (c : TileCmd) (ch : Nat) : Bool :=
  match c.padChunks with
  | .run => false
  | .skip => c.chunkPadding ch
  | .fold => (c.chunkTaps ch).all c.foldedTaps.contains

/-- The K chunks a work of K elements runs, in order. -/
def TileCmd.chunksRun (c : TileCmd) (k : Nat) : List Nat :=
  (List.range (ceilDiv k (blockK false c.fmtA c.fmtW))).filter fun ch => !c.chunkOut ch

/-- Passes of a convolution tile not run: folded, and skipped with zero padding (10 R334). -/
def TileEnv.skipped (x : TileEnv) : Nat × Nat :=
  let out := (x.work.map fun u =>
    (ceilDiv u.k (blockK false x.c.fmtA x.c.fmtW) - (x.c.chunksRun u.k).length) * ceilDiv u.n 64 * ceilDiv u.m 512).sum
  match x.c.padChunks with
  | .run => (0, 0)
  | .skip => (0, out)
  | .fold => (out, 0)

/-! ## Accumulator slots (07 R227, R231, R234, 08 R278) -/

/-- Works that share accumulator slots: the first slot, and the work and rows of each cell in thin mode; in full mode one work
with all its rows, whose columns the eight cells take in turn. -/
structure SlotGroup where
  base : Nat
  units : List (Nat × List Nat)
  n : Nat
  k : Nat
  deriving DecidableEq, Repr

/-- The slots that a group takes. -/
def SlotGroup.slots (g : SlotGroup) (thin : Bool) : Nat :=
  if thin then ceilDiv g.n 16 else ceilDiv g.n 64 * ceilDiv ((g.units.map (·.2.length)).sum) 8

/-- Groups placed one after another; one that does not fit in what is left of the 64 slots opens a new round. -/
def placeGroups (thin : Bool) : Nat → List SlotGroup → List SlotGroup
  | _, [] => []
  | b, g :: r =>
    let n := g.slots thin
    let base := if b % 64 + n ≤ 64 then b else roundUp b 64
    { g with base := base } :: placeGroups thin (base + n) r

/-- The problems of a thin tile: a cell takes the one or two rows of a work, or one row of a work of more. -/
def thinUnits (i : Nat) (u : Work) : List (Nat × List Nat) :=
  if u.m ≤ 2 then [(i, List.range u.m)] else (List.range u.m).map fun r => (i, [r])

/-- Problems that share the weights join the cells, up to eight of one height. -/
def joinUnits (key : Nat → Int × Nat × Nat) : List (Nat × List Nat) → List SlotGroup → List SlotGroup
  | [], gs => gs
  | q :: r, gs =>
    let (_, n, k) := key q.1
    match gs.getLast? with
    | some g =>
      let same := match g.units.head? with
        | some h => key h.1 == key q.1 && h.2.length == q.2.length && decide (g.units.length < 8)
        | none => false
      if same then joinUnits key r (gs.dropLast ++ [{ g with units := g.units ++ [q] }])
      else joinUnits key r (gs ++ [{ base := 0, units := [q], n := n, k := k }])
    | none => joinUnits key r [{ base := 0, units := [q], n := n, k := k }]

/-- The slot groups of the tile, in the order of their passes. -/
def TileEnv.groups (x : TileEnv) : List SlotGroup :=
  let ws := x.work
  if x.c.thin then
    let key (i : Nat) : Int × Nat × Nat := match ws[i]? with
      | some u => (u.offs.getD 1 0, u.n, u.k)
      | none => (0, 0, 0)
    placeGroups true 0 (joinUnits key ((ws.zipIdx).flatMap fun (u, i) => thinUnits i u) [])
  else placeGroups false 0 ((ws.zipIdx).map fun (u, i) => { base := 0, units := [(i, List.range u.m)], n := u.n, k := u.k })

/-- The accumulators of work i, row by row, out of its slots. -/
def TileEnv.slots (x : TileEnv) (i : Nat) (u : Work) : List (List W32) :=
  let gs := x.groups
  (List.range u.m).map fun r =>
    match gs.find? fun g => g.units.any fun q => q.1 == i && q.2.contains r with
    | none => List.replicate u.n 0
    | some g => (List.range u.n).map fun j =>
      if x.c.thin then
        let cell := g.units.findIdx fun q => q.1 == i && q.2.contains r
        let row := ((g.units.getD cell (0, [])).2).findIdx (· == r)
        slotWord (slotRows x.acc (g.base + j / 16) cell) row (j % 16)
      else slotWord (slotRows x.acc (g.base + j / 64 * ceilDiv u.m 8 + r / 8) (j / 8 % 8)) (r % 8) (j % 8)

/-- F[t][j] of the fold vector (10 R325). -/
def TileEnv.foldSum (x : TileEnv) (u : Work) (t j : Nat) : Tile Int := do
  let g := x.c.geometry
  let b ← x.read u g.fold ((t * (x.desc g.fold).rowStride + 4 * j : Nat) : Int) 4
  return signed (leNat b) 32

/-- Additions to integer accumulators, each saturating and counted (06 R204). -/
def addAll (raw : List (List W32)) (terms : Nat → Nat → List Int) : List (List (W32 × Nat)) :=
  (raw.zipIdx).map fun (r, i) => (r.zipIdx).map fun (v, j) =>
    let q := intReduce v.toInt (terms i j)
    (BitVec.ofInt 32 q.1, q.2)

/-- The accumulators as they enter the epilogue, with the saturations on the way: the products left out under folding are added
as p times F (10 R325), and the correction for the stationary zero point takes away z_w times the row sums of A, which the
vector unit formed in the prologue (06 R203, R204); z_w is what the stationary padding code holds (08 R270). The rest of that
correction is in the column's bias (09 R306). -/
def TileEnv.corrected (x : TileEnv) (u : Work) (a : List (List Nat)) (raw : List (List W32)) : Tile (List (List W32) × Nat) := do
  if x.c.float then return (raw, 0)
  else
    let taps := x.c.foldedTaps
    let p := intOf x.c.fmtA x.c.padCodeA
    let f ← (List.range u.n).mapM fun j => taps.mapM fun t => x.foldSum u t j
    let r1 := if taps.isEmpty then raw.map fun r => r.map fun v => (v, 0) else addAll raw fun _ j => (f.getD j []).map (p * ·)
    let zw := intOf x.c.fmtW x.c.padCodeW
    let sum (i : Nat) : Int := ((a.getD i []).map (intOf x.c.fmtA)).sum
    let r2 := if zw = 0 ∨ x.c.split then (r1.map fun r => r.map fun v => (v.1, 0))
      else addAll (r1.map fun r => r.map (·.1)) fun i _ => [-(zw * sum i)]
    let count (y : List (List (W32 × Nat))) : Nat := (y.map fun r => (r.map (·.2)).sum).sum
    return (r2.map fun r => r.map (·.1), count r1 + count r2)

/-- The parts of a combine summed left to right (08 R281). -/
def TileEnv.combined (x : TileEnv) (u : Work) : Tile (List (List W32) × Nat) := do
  let at_ (part i j : Nat) : Tile W32 :=
    let a := engineBase x.p + x.c.buffer + part * x.c.partBytes + (i * x.c.nMax + j) * 4
    if x.s.anyVoid a 4 then .error { void := true, status := stVOID, iter := u.iter, member := u.member, addr := a }
    else .ok (BitVec.ofNat 32 (x.s.word a 4))
  let rows ← (List.range u.m).mapM fun i => (List.range u.n).mapM fun j => do
    let ps ← (List.range x.c.parts).mapM fun p => at_ p i j
    match ps with
    | [] => pure ((0 : W32), 0)
    | v :: vs =>
      if x.c.float then pure (vs.foldl fAdd v, 0)
      else
        let (r, n) := intReduce v.toInt (vs.map (·.toInt))
        pure (BitVec.ofInt 32 r, n)
  return (rows.map fun r => r.map (·.1), (rows.map fun r => (r.map (·.2)).sum).sum)

/-- One piece of work of a tile from its operands to its writes; a split part leaves its accumulators in `raw`. The products
have run through the cells: the epilogue reads their slots (07 R231). -/
def TileEnv.runWork (x : TileEnv) (ix : Nat) (u : Work) : Tile Flow := do
  let a := x.desc x.c.dA
  let rowScale_ (i : Nat) : Tile W32 :=
    x.scaleAt u a.scale (if x.c.opcode = 2 then 0 else scaleIndex (u.offs.getD 0 0) a.rowStride i)
  if x.c.opcode = 4 then
    let vs ← x.pooled u
    let codes := vs.map fun r => r.filterMap (·.2)
    let all := vs.all fun r => r.all fun v => v.2.isSome
    x.epilogue u rowScale_ { rows := vs.map fun r => r.map (·.1) } (if all then some codes else none)
  else if x.c.opcode = 5 then
    let r ← x.aRows u
    x.epilogue u rowScale_ { rows := r.map fun l => l.map (codeF32 x.c.fmtA) } none
  else if x.c.opcode = 3 then
    let (acc, n) ← x.combined u
    x.epilogue u rowScale_ { rows := acc.map fun r => r.map (accF32 x.c.float), raw := acc, accSats := n, lastSat := if n = 0 then none else some 7 } none
  else
    let r ← x.aRows u
    let pro ← x.prologue u r
    let _ ← x.wRows u
    let (raw, n) ← x.corrected u (pro.codes.getD []) (x.slots ix u)
    let f : Flow := { rows := raw.map fun l => l.map (accF32 x.c.float), raw := raw, sats := pro.sats, nans := pro.nans
                      accSats := n, lastSat := if x.accSats = 0 ∧ n = 0 then pro.lastSat else some 7 }
    if x.c.split then return f
    else
      let saOf (i : Nat) : Tile W32 := if pro.scales.isEmpty then rowScale_ i else .ok (pro.scales.getD i 0)
      x.epilogue u saOf f none

/-- What a finished tile leaves: events, writes, and the accumulators of a split part. -/
structure TileDone where
  flow : Flow := {}
  raw : List (List W32) := []
  deriving DecidableEq, Repr

/-- What a piece of work adds. -/
def TileDone.add (d : TileDone) (split : Bool) (f : Flow) : TileDone :=
  { flow := { sats := d.flow.sats + f.sats, nans := d.flow.nans + f.nans, accSats := d.flow.accSats + f.accSats
              lastSat := match f.lastSat with
                | none => d.flow.lastSat
                | some v => some v
              writes := d.flow.writes ++ f.writes }
    raw := if split then d.raw ++ f.raw else d.raw }

/-- The pieces of work in order, up to the first fault: what they left and the fault (08 R279). -/
def TileEnv.attemptFrom (x : TileEnv) : List (Work × Nat) → TileDone → TileDone × Option TileFault
  | [], d => (d, none)
  | (u, i) :: r, d => match x.runWork i u with
    | .ok f => x.attemptFrom r (d.add x.c.split f)
    | .error e => ({ d with flow := { d.flow with writes := d.flow.writes ++ e.made } }, some e)

/-- The whole tile: what it leaves, or its writes up to its fault. -/
def TileEnv.attempt (x : TileEnv) : TileDone × Option TileFault := x.attemptFrom x.work.zipIdx { flow := { accSats := x.accSats } }

end Sys2Proof.Machine
end

