-- ==== Sys2Proof/Machine/Adapt.lean ====
section
/-! DEFINITION. On-site adaptation (13): the sample store, jobs, the step's arithmetic, checkpoints and restarts, the
gate and the adoption. -/

namespace Sys2Proof.Machine

/-- A record of this chapter (13 R408). -/
def State.adpRecord (s : State) (type status : Nat) (p : AdpPl) (stream : Nat := 0xFFFF) (tick : Nat := 0) : State :=
  s.emit { s.record type ucCHP (.adp p) with status := status, stream := stream, tick := tick
                                             account := if stream = 0xFFFF then 0xFF else (s.cfg.stream stream).account }

/-- The settings in force, when adaptation is enabled. -/
def State.adaptOn (s : State) : Option AdaptSettings :=
  match s.cfg.adapt with
  | some a => if a.enabled then some a else none
  | none => none

/-! ## The sample store (13 R392 to R395) -/

/-- A sample of number q is kept for validation. -/
def isValidation (a : AdaptSettings) (q : Nat) : Bool := q % a.holdout == 0

/-- Samples the running job's snapshot names. -/
def State.pinnedSamples (s : State) : List Nat :=
  match s.adapt.job with
  | some j => j.snapshot
  | none => []

/-- The store with its oldest sample of a kind that is not pinned taken out. -/
def dropOldest (a : AdaptSettings) (validation : Bool) (pinned : List Nat) : List Sample → Option (List Sample)
  | [] => none
  | x :: r =>
    if isValidation a x.q = validation ∧ !pinned.contains x.q then some r
    else (dropOldest a validation pinned r).map (x :: ·)

/-- The input declaration that stored samples and their tensors follow. -/
def Cfg.sampleInput (c : Cfg) : InputDecl := c.model.inputs.headD {}

/-- The sample of a box of the confirming analysed frame (13 R394). -/
def sampleOf (c : Cfg) (q label : Nat) (f : Member) (box : Box) : Sample :=
  { q := q, stream := f.stream, label := label, tick := f.tick, box := box, colour := f.colour
    level := sampleLevel (c.stream f.stream) c.sampleInput.crop (sampleSide c) f.depth f.levels box }

/-- SAMPLE_CAPTURE: a track of class `label` became confirmed on a frame whose picture has no flag (13 R392 to R395). -/
def captureSample (s : State) (f : Member) (label : Nat) (box : Box) : State :=
  match s.adaptOn with
  | none => s
  | some a =>
    let n := f.stream
    let t := s.stream n
    let hour := s.time.elapsed / (3600 * second)
    let used := if t.captureHour = hour then t.captures else 0
    if f.concealed || f.substituted || f.void || !((s.cfgOf f.epoch).stream n).adaptSource || !(a.heads.any fun h => decide (label < h.n)) || decide (a.perHour ≤ used) then s
    else
      let q := s.adapt.nextQ
      let room := if s.adapt.samples.length < a.capacity then some s.adapt.samples
        else dropOldest a (isValidation a q) s.pinnedSamples s.adapt.samples
      match room with
      | none => { s with adapt := { s.adapt with dropped := s.adapt.dropped + 1 } }
      | some kept =>
        let s1 := s.setStream n { t with captures := used + 1, captureHour := hour }
        let x := sampleOf (s.cfgOf f.epoch) q label f box
        let s2 := { s1 with adapt := { s1.adapt with samples := kept ++ [x], nextQ := q + 1 } }
        s2.adpRecord 0x0500 stOK { job := s.adapt.nextJob, step := q, candidate := label } n f.tick

/-- SAMPLE_LABEL: a label entry of the host relabels or deletes a stored sample (13 R395). -/
def labelSample (s : State) (payload : List Byte) : State × Nat :=
  let q := field payload 0 8
  let cls := field payload 8 1
  if !(s.adapt.samples.any (·.q == q)) || s.pinnedSamples.contains q then (s, stSTATE)
  else if cls = 0xFF then ({ s with adapt := { s.adapt with samples := s.adapt.samples.filter (·.q != q) } }, stOK)
  else
    let xs : List Sample := s.adapt.samples.map fun x => if x.q = q then { x with label := cls } else x
    ({ s with adapt := { s.adapt with samples := xs } }, stOK)

/-! ## Heads -/

/-- The parameters of the heads: N rows of K for each, one after another. -/
def headSize (hs : List HeadEntry) : Nat := (hs.map fun h => h.n * h.k).sum

/-- The N16 weights of the compiled model's own heads, as FP32. -/
def baseWeights (c : Cfg) (hs : List HeadEntry) : List W32 :=
  hs.flatMap fun h => (List.range (h.n * h.k)).map fun i => n16F32 (Config.headWeight c.model.image h.tensor i)

/-- The weights in force: those adopted, else the compiled model's. -/
def State.headsInForce (s : State) (hs : List HeadEntry) : List W32 :=
  if s.adapt.adopted then s.adapt.headWeights else baseWeights s.cfg hs

/-- SHAKE256 digest of the resident model's image, the base of an adopted head image (13 R405). -/
def State.baseModelDigest (s : State) : Nat := leNat (digest256 (s.bytes s.cfg.model.image s.cfg.model.size))

/-- SHAKE256 digest of a head image, its N16 codes in order (13 R400). -/
def headImageDigest (w : List W32) : Nat := leNat (digest256 (w.flatMap fun x => leBytes 2 (x.toNat / 65536)))

/-- A flat list cut into the matrices of the heads. -/
def headMatrices : List HeadEntry → List W32 → List (List (List W32))
  | [], _ => []
  | h :: r, w => chunks h.k h.n (w.take (h.n * h.k)) :: headMatrices r (w.drop (h.n * h.k))

/-- A member's head inputs cut by head. -/
def headInputs : List HeadEntry → List W32 → List (List W32)
  | [], _ => []
  | h :: r, x => x.take h.k :: headInputs r (x.drop h.k)

/-! ## One step (13 R398, R399) -/

/-- Events that the conversions of a step count (06 R210, R221, R223). -/
structure Tally where
  sats : Nat := 0
  nans : Nat := 0
  deriving DecidableEq, Repr

def Tally.sum (ts : List Tally) : Tally := { sats := (ts.map (·.sats)).sum, nans := (ts.map (·.nans)).sum }

/-- The events of a row of conversions. -/
def tallyOf (cs : List Conv) : Tally := { sats := (cs.filter (·.sat)).length, nans := (cs.filter (·.nan)).length }

/-- A row converted to N16 with mode 0, as FP32, with its events. -/
def n16Row (xs : List W32) : List W32 × Tally :=
  let cs := xs.map (convert fmtN16 .even none)
  (cs.map fun c => n16F32 c.code, tallyOf cs)

/-- The logits of one head: the N16 product with the master weights (13 R398). -/
def logits (w : List (List W32)) (x : List W32) : List W32 :=
  w.map fun row => floatReduce 2 0 (List.zipWith (fun p q => exactMul (f32 p) (f32 q)) x row)

/-- dz of a head for a label. -/
def lossGradient (z : List W32) (label : Nat) : List W32 :=
  (z.zipIdx).map fun (v, j) => fSub (fSigmoid v) (if j = label then one32 else 0)

/-- A row stored with its dynamic scale and read back: code times scale (06 R214, R216), with its events. -/
def storedRow (f : Nat) (xs : List W32) : List W32 × Tally :=
  let r := dynamicRow f (amax xs) xs
  (r.2.map fun c => fMul (codeF32 f c.code) (n16F32 r.1), tallyOf r.2)

/-- One member's weight gradient of one head: the N8 product of dz and the head input, dequantised. -/
def memberGradient (w : List (List W32)) (input : List W32) (label : Nat) : List (List W32) × Tally :=
  let (x, t) := n16Row input
  let dz := lossGradient (logits w x) label
  let a := dynamicRow fmtN8E5 (amax dz) dz
  let b := dynamicRow fmtN8E4 (amax x) x
  (a.2.map fun p => b.2.map fun q =>
    fMul (fMul (floatReduce 8 0 [exactMul (flOf fmtN8E5 p.code) (flOf fmtN8E4 q.code)]) (n16F32 a.1)) (n16F32 b.1),
   Tally.sum [t, tallyOf a.2, tallyOf b.2])

/-- Matrices added element by element, left to right (08 R281). -/
def sumMatrices : List (List (List W32)) → List (List W32)
  | [] => []
  | m :: r => r.foldl (fun a b => List.zipWith (fun x y => List.zipWith fAdd x y) a b) m

/-- The dequantised stored gradient of one head: sum of the members, times 1 / B, as N8E5 rows (06 R220). -/
def headGradient (b : Nat) (w : List (List W32)) (members : List (List W32 × Nat)) : List (List W32) × Tally :=
  let parts := members.map fun m => memberGradient w m.1 m.2
  let r := fDiv one32 (fOfInt (b : Int))
  let rows := (sumMatrices (parts.map (·.1))).map fun row => storedRow fmtN8E5 (row.map fun v => fMul v r)
  (rows.map (·.1), Tally.sum (parts.map (·.2) ++ rows.map (·.2)))

/-- The optimiser on one element (13 R399): first moment, second moment, weight. -/
def optimise (a : AdaptSettings) (p1 p2 g m v w : W32) : W32 × W32 × W32 :=
  let m1 := fAdd (fMul a.beta1 m) (fMul (fSub one32 a.beta1) g)
  let v1 := fAdd (fMul a.beta2 v) (fMul (fSub one32 a.beta2) (fMul g g))
  let mh := fDiv m1 (fSub one32 p1)
  let vh := fDiv v1 (fSub one32 p2)
  let u := fMul a.lr (fDiv mh (fAdd (fSqrt vh) a.eps))
  (m1, v1, fSub w u)

/-- A row of second moments: a value below zero is stored as zero and counted as a saturation (06 R221). -/
def nonNegativeRow (vs : List W32) : List W32 × Tally :=
  (vs.map fun v => if fLt v 0 then 0 else v, { sats := (vs.filter fun v => fLt v 0).length })

/-- The optimiser on one row: moments as N8E4 with their scales, weights as N16 (06 R221, R222). -/
def optimiseRow (a : AdaptSettings) (p1 p2 : W32) (g m v w : List W32) : (List W32 × List W32 × List W32) × Tally :=
  let out := (List.range g.length).map fun i => optimise a p1 p2 (g.getD i 0) (m.getD i 0) (v.getD i 0) (w.getD i 0)
  let (v0, t0) := nonNegativeRow (out.map (·.2.1))
  let (m1, t1) := storedRow fmtN8E4 (out.map (·.1))
  let (v1, t2) := storedRow fmtN8E4 v0
  let (w1, t3) := n16Row (out.map (·.2.2))
  ((m1, v1, w1), Tally.sum [t0, t1, t2, t3])

/-- The optimiser on the heads, given their gradients. -/
def optimiseHeads (a : AdaptSettings) (p1 p2 : W32) (grads ms vs ws : List (List (List W32))) :
    List ((List W32 × List W32 × List W32) × Tally) :=
  (List.range grads.length).flatMap fun h =>
    let g := grads.getD h []
    (List.range g.length).map fun i =>
      optimiseRow a p1 p2 (g.getD i []) ((ms.getD h []).getD i []) ((vs.getD h []).getD i []) ((ws.getD h []).getD i [])

/-- The snapshot sample of position b of step t (13 R396). -/
def stepSample (s : State) (j : Job) (batch b : Nat) : Option Sample :=
  let n := j.snapshot.length
  if n = 0 then none else
  let q := j.snapshot.getD ((j.step * batch + b) % n) 0
  s.adapt.samples.find? (·.q == q)

/-- The augmented tensors of the members of a step, position b with draw index t × B + b, and their saturations (05 R180, 13 R396). -/
def stepTensors (s : State) (a : AdaptSettings) (j : Job) : List (List Byte × Nat) :=
  (List.range a.batch).filterMap fun b => (stepSample s j a.batch b).map fun x =>
    augmentedTensor a s.cfg.sampleInput (s.cfg.stream x.stream) x (j.step * a.batch + b)

/-- Tensors made by the pre-processing unit for an adaptation job: kept, their saturations counted (05 R180, 06 R225). -/
def makeTensors (s : State) (ts : List (List Byte × Nat)) : State :=
  { s with preConvSat := s.preConvSat + BitVec.ofNat 64 (ts.map (·.2)).sum, adapt := { s.adapt with tensors := ts.map (·.1) } }

/-- The members of a step: head inputs and label. -/
def stepMembers (s : State) (j : Job) (batch : Nat) (inputs : List (List W32)) : List (List W32 × Nat) :=
  (inputs.zipIdx).map fun (x, b) => (x, ((stepSample s j batch b).map (·.label)).getD 0)

/-- The job after one step on the head inputs of its members, with the events of its conversions. -/
def stepJob (s : State) (a : AdaptSettings) (j : Job) (inputs : List (List W32)) : Job × Tally :=
  let p1 := fMul j.p1 a.beta1
  let p2 := fMul j.p2 a.beta2
  let members := stepMembers s j a.batch inputs
  let ws := headMatrices a.heads j.weights
  let grads := (ws.zipIdx).map fun (w, h) => headGradient a.batch w (members.map fun (m : List W32 × Nat) => ((headInputs a.heads m.1).getD h [], m.2))
  let out := optimiseHeads a p1 p2 (grads.map (·.1)) (headMatrices a.heads j.m) (headMatrices a.heads j.v) ws
  let rows := out.map (·.1)
  ({ j with step := j.step + 1, p1 := p1, p2 := p2, m := rows.flatMap (·.1), v := rows.flatMap (·.2.1), weights := rows.flatMap (·.2.2) },
   Tally.sum (grads.map (·.2) ++ out.map (·.2)))

/-- The engine whose registers count a step's events: the lowest logical one in service of the region that runs the step. -/
def stepEngine (s : State) : Option Nat :=
  (List.range 64).findSome? fun l => if s.adapt.regions.testBit (l / 16) then s.physOf l else none

/-- The events of a step in the registers of its engine (06 R223). -/
def countStep (s : State) (t : Tally) : State :=
  match stepEngine s with
  | none => s
  | some p => s.modEngine p fun e => { e with
      convSat := e.convSat + BitVec.ofNat 64 t.sats, nanConv := e.nanConv + BitVec.ofNat 64 t.nans
      convSatSeen := e.convSatSeen || decide (0 < t.sats), nanSeen := e.nanSeen || decide (0 < t.nans) }

/-! ## Checkpoints (13 R400) -/

/-- The checkpoint of a job. -/
def jobCheckpoint (j : Job) : Checkpoint :=
  { job := j.number, step := j.step, p1 := j.p1, p2 := j.p2, first := j.snapshot.headD 0, last := j.snapshot.getLastD 0
    n := j.snapshot.length, baseDigest := j.baseDigest, weights := j.weights, m := j.m, v := j.v }

/-- The checkpoints due after a step: DRAM every 256, flash every 4,096. -/
def writeCheckpoints (s : State) (j : Job) : State :=
  let s1 := if j.step % 256 = 0 then { s with adapt := { s.adapt with dram := (jobCheckpoint j :: s.adapt.dram).take 2 } } else s
  if j.step % 4096 = 0 then { s1 with flash := { s1.flash with writes := s1.flash.writes ++ [.checkpoint (jobCheckpoint j)] } } else s1

/-! ## Jobs (13 R396, R401, R402, R407) -/

/-- Training samples stored, by rising number. -/
def State.training (s : State) (a : AdaptSettings) : List Nat :=
  (s.adapt.samples.filter fun x => !isValidation a x.q).map (·.q)

/-- A new job with its snapshot; after a reset it goes on from the flash checkpoint it resumes (13 R396, R402). -/
def newJob (s : State) (a : AdaptSettings) : Job :=
  let w := s.headsInForce a.heads
  let zero := List.replicate (headSize a.heads) (0 : W32)
  let fresh : Job := { number := s.adapt.nextJob, snapshot := s.training a, p1 := one32, p2 := one32, weights := w, m := zero, v := zero
                       baseDigest := headImageDigest w }
  match s.adapt.resume with
  | some c =>
    if c.baseDigest = fresh.baseDigest then
      { fresh with step := c.step, p1 := c.p1, p2 := c.p2, weights := c.weights, m := c.m, v := c.v }
    else fresh
  | none => fresh

/-- The job starts when the conditions of 13 R396 hold. -/
def startJob (s : State) : State :=
  match s.adaptOn with
  | none => s
  | some a =>
    if s.adapt.job.isSome || decide ((s.training a).length < a.batch) then s
    else
      let s1 := match s.adapt.lastEnd with
        | some t => s.atElapsed (t + 60 * second)
        | none => s
      let j := newJob s1 a
      let s2 := { s1 with adapt := { s1.adapt with
        job := some j, nextJob := j.number + 1, phase := if a.steps ≤ j.step then 3 else 1, step := BitVec.ofNat 64 j.step, resume := none
        dram := [], ownFlash := if j.step = 0 then 0 else 2 } }
      let s3 := s2.adpRecord 0x0501 stOK { job := j.number, step := j.step, samples := j.snapshot.length }
      if j.step = 0 then s3 else s3.adpRecord 0x0503 stOK { job := j.number, reason := 6, step := j.step }

/-- ADAPTATION_JOB_START (13 R396). -/
def execAdaptationJobStart (s : State) : Out := done (if s.mayBegin then startJob s else s)

/-- JOB_RESTART: the job goes back to its newer complete DRAM checkpoint, else to the flash one, else to step 0 (13 R401). -/
def restartJob (s : State) (reason : Nat) : State :=
  match s.adapt.job with
  | none => s
  | some j =>
    let own := (s.flash.checkpoints.take s.adapt.ownFlash).filter fun c => c.complete && c.baseDigest == j.baseDigest
    let from_ := match s.adapt.dram.find? (·.complete) with
      | some c => some c
      | none => own.head?
    let size := j.weights.length
    let back : Job := match from_ with
      | some c => { j with step := c.step, p1 := c.p1, p2 := c.p2, weights := c.weights, m := c.m, v := c.v }
      | none => { j with step := 0, p1 := one32, p2 := one32, m := List.replicate size 0, v := List.replicate size 0
                         weights := match s.cfg.adapt with
                           | some a => s.headsInForce a.heads
                           | none => j.weights }
    let steps := (s.cfg.adapt.map (·.steps)).getD 0
    let s1 := { s with adapt := { s.adapt with
      job := some back, step := BitVec.ofNat 64 back.step, phase := if 0 < back.step ∧ steps ≤ back.step then 3 else 1, regions := 0 } }
    s1.adpRecord 0x0503 stOK { job := j.number, reason := reason, step := back.step }

/-- What the phase shows without a running job: an adoption pending, or idle (13 R409). -/
def Adapt.restPhase (x : Adapt) : Nat := if x.candidate.isSome then 4 else 0

/-- A model switch or a change of the settings at an instant ends the running job, and its checkpoints are discarded (13 R407). -/
def settlementEndsJob (s : State) : State :=
  match s.adapt.job with
  | none => s
  | some j =>
    let mine (w : FlashWrite) : Bool := match w with
      | .checkpoint c => c.job == j.number
      | _ => false
    let s1 := { s with
      adapt := { s.adapt with
        job := none, phase := s.adapt.restPhase, regions := 0, status := stSTATE, dram := [], ownFlash := 0, resume := none
        lastEnd := some s.time.elapsed }
      flash := { s.flash with checkpoints := s.flash.checkpoints.drop s.adapt.ownFlash, writes := s.flash.writes.filter fun w => !mine w } }
    s1.adpRecord 0x0507 stSTATE { job := j.number, reason := 5, step := j.step }

/-- An adoption that was staged twice without effect is abandoned (13 R404). -/
def abandonAdoption (s : State) : State :=
  let s1 := { s with adapt := { s.adapt with
    candidate := none, retry := false, attempts := 0, readopting := false, status := stSTATE
    phase := if s.adapt.job.isSome then s.adapt.phase else 0 } }
  s1.adpRecord 0x0507 stSTATE { job := s.adapt.candidateJob, reason := 5 }

/-- One step has run on the head inputs of its batch (13 R398 to R400). -/
def stepComplete (s : State) (inputs : List (List W32)) : State :=
  match s.adaptOn, s.adapt.job with
  | some a, some j =>
    if s.adapt.phase ≠ 1 ∨ inputs.length ≠ a.batch ∨ a.steps ≤ j.step then s
    else
      let (j1, events) := stepJob s a j inputs
      let s0 := countStep (makeTensors s (stepTensors s a j)) events
      let s1 := { s0 with adapt := { s0.adapt with job := some j1, step := BitVec.ofNat 64 j1.step } }
      let s2 := writeCheckpoints s1 j1
      if a.steps ≤ j1.step then { s2 with adapt := { s2.adapt with phase := 3 } } else s2
  | _, _ => s

/-! ## Gate and adoption (13 R403, R404, R405) -/

/-- The logits of a head set with the model class each scores: column j of a head scores class j (13 R391). -/
def classed : List HeadEntry → List W32 → List (W32 × Nat)
  | [], _ => []
  | h :: r, z => (z.take h.n).zipIdx ++ classed r (z.drop h.n)

/-- The largest logit lies at the label; ties go to the lowest class. -/
def bestAt (z : List (W32 × Nat)) (label : Nat) : Bool :=
  let best := z.foldl (fun (b : Option (W32 × Nat)) x => match b with
    | none => some x
    | some y => if fLt y.1 x.1 || (!fLt x.1 y.1 && decide (x.2 < y.2)) then some x else b) none
  match best with
  | some (_, j) => j == label
  | none => false

/-- Validation samples stored, by rising number. -/
def State.validation (s : State) (a : AdaptSettings) : List Sample := s.adapt.samples.filter fun x => isValidation a x.q

/-- How many samples a head set gets right, by its logits for each. -/
def correctCount (hs : List HeadEntry) (samples : List Sample) (z : List (List W32)) : Nat :=
  ((List.zipWith (fun (x : Sample) l => bestAt (classed hs l) x.label) samples z).filter (·)).length

/-- The logits of the candidate heads for the head inputs of each validation sample, converted to N16 (13 R398, R403). -/
def candidateLogits (hs : List HeadEntry) (w : List W32) (inputs : List (List W32)) : List (List W32) :=
  inputs.map fun x => (List.zipWith (fun m i => logits m (n16Row i).1) (headMatrices hs w) (headInputs hs x)).flatten

/-- The one entry of an adoption: a model switch that names the candidate head image (13 R404). -/
def adoptionEntry (s : State) : Entry :=
  { kind := 4, flags := 0, table := 0, index := 0, value := s.layout.modelStaging, mask := 2 * (((s.adapt.candidate.map (·.2)).getD []).length), rest := 0 }

/-- The adoption of the candidate is staged as a model switch by internal firmware, one second ahead; one that fails a check of
its commit is tried again like one that was aborted (13 R404). -/
def stageAdoption (s : State) : State :=
  let s1 := internalBatch s [adoptionEntry s] s.cfg (s.time.now + second) true false
  { s1 with adapt := { s1.adapt with attempts := s1.adapt.attempts + 1, retry := s1.stl.batch.isNone } }

/-- The candidate passes the gate (13 R403). -/
def gatePasses (a : AdaptSettings) (v : List Sample) (candidate inForce : List (List W32)) : Bool :=
  decide (a.leastVal ≤ v.length) && decide (correctCount a.heads v inForce + a.margin ≤ correctCount a.heads v candidate)

/-- The end of a job at its gate: the record with both counts, and the candidate kept when it passes (13 R403). -/
def gateOutcome (s : State) (a : AdaptSettings) (j : Job) (candidate inForce : List (List W32)) : State :=
  let v := s.validation a
  let pass := gatePasses a v candidate inForce
  let d := headImageDigest j.weights
  let st := if pass then stOK else stRANGE
  let s0 := makeTensors s (v.map fun x => validationTensor s.cfg.sampleInput (s.cfg.stream x.stream) x)
  let s1 := s0.adpRecord 0x0504 st { job := j.number, step := j.step, candidate := correctCount a.heads v candidate
                                     inForce := correctCount a.heads v inForce, samples := v.length, digest := d }
  { s1 with adapt := { s1.adapt with
    job := none, status := st, lastEnd := some s.time.elapsed, attempts := 0, phase := if pass then 4 else 0
    candidate := if pass then some (d, j.weights) else none, candidateJob := j.number } }

/-- The gate, and the adoption of a candidate that passes (13 R403, R404): `inputs` are the head inputs of the validation samples as
the resident model computes them, `inForce` its own logits for them. An earlier candidate still to be adopted holds the gate. -/
def runGate (s : State) (inputs inForce : List (List W32)) : State :=
  match s.adaptOn, s.adapt.job with
  | some a, some j =>
    let v := s.validation a
    if s.adapt.phase ≠ 3 ∨ s.adapt.candidate.isSome ∨ inputs.length ≠ v.length ∨ inForce.length ≠ v.length then s
    else
      let candidate := candidateLogits a.heads j.weights inputs
      let s2 := gateOutcome s a j candidate inForce
      if !gatePasses a v candidate inForce then s2
      else if s2.stl.batch.isSome || s2.stl.update.isSome then { s2 with adapt := { s2.adapt with retry := true } }
      else stageAdoption s2
  | _, _ => s

/-- ADAPTATION_GATE (13 R403). -/
def execAdaptationGate (inputs inForce : List (List W32)) (s : State) : Out :=
  done (if s.mayBegin then runGate s inputs inForce else s)

/-- ADOPTION_RETRY (13 R404): once no batch is pending, an adoption that was held or aborted is staged; after its second
staging was aborted it is abandoned. -/
def execAdoptionRetry (s : State) : Out :=
  done (if s.running && s.adapt.retry && s.stl.batch.isNone && s.stl.update.isNone && s.adapt.candidate.isSome then
    if s.adapt.attempts < 2 then stageAdoption s else abandonAdoption s
  else s)

/-- HEAD_ADOPT: at its instant the candidate becomes the heads in force, and is copied to flash when it persists (13 R405). -/
def adoptHeads (s : State) : State :=
  match s.adapt.candidate with
  | none => s
  | some (d, w) =>
    let s1 := { s with adapt := { s.adapt with
      adopted := true, headDigest := d, headWeights := w, candidate := none, retry := false, attempts := 0
      phase := if s.adapt.job.isSome then s.adapt.phase else 0, readopting := false } }
    let s2 := if s.adapt.readopting then s1.adpRecord 0x0506 stOK { reason := 6, digest := d }
      else s1.adpRecord 0x0505 stOK { job := s.adapt.candidateJob, digest := d }
    let persist := match s.cfg.adapt with
      | some a => a.persist
      | none => false
    if persist && !s.adapt.readopting then
      let order := s2.flash.adopted.foldl (fun m a => max m (a.order + 1)) 0
      { s2 with flash := { s2.flash with writes := s2.flash.writes ++ [.adoptedHead { digest := d, baseDigest := s.baseModelDigest, weights := w, order := order }] } }
    else s2

/-- HEAD_READOPTION: after a reset the newest adopted image whose base is the charter's model is adopted again by
settlement, without a gate (13 R405). -/
def readoptHeads (s : State) : State :=
  match s.cfg.adapt with
  | none => s
  | some _ =>
    let newest := s.flash.adopted.foldl (fun (b : Option AdoptedImage) x => match b with
      | none => some x
      | some y => if y.order < x.order then some x else some y) none
    match newest with
    | none => s
    | some x =>
      if x.baseDigest ≠ s.baseModelDigest then s
      else
        stageAdoption { s with adapt := { s.adapt with candidate := some (x.digest, x.weights), readopting := true, phase := 4 } }

end Sys2Proof.Machine
end

