-- ==== Sys2Proof/Machine/Slot.lean ====
section
/-! DEFINITION. Flash images (02 R49 to R58): the directory, the charter image of a slot, its verification, and the
configuration that its tables give. -/

namespace Sys2Proof.Machine

/-! ## Flash bytes -/

/-- A flash device of a supported size: 128 MiB to 4 GiB with 4-byte addresses (R49). -/
def flashSupported (size : Nat) : Bool := decide (0x8000000 ≤ size) && decide (size ≤ 0x100000000)

/-- The flash address space: device 0 from address 0, and a second device of the same size after it. The device supports no other
arrangement: a second device of another size is not used, and without a supported device 0 there is no flash (R49). -/
def Flash.size (f : Flash) : Nat :=
  if flashSupported f.device0 then (if f.device1 = f.device0 then 2 * f.device0 else f.device0) else 0

/-- The byte at a flash address; erased flash reads 0xFF. -/
def State.flashByte (s : State) (a : Nat) : Byte := Table.get 0xFF#8 a s.flash.bytes

/-- `n` flash bytes from an address up. -/
def State.flashBytes (s : State) (a n : Nat) : List Byte := (List.range n).map fun i => s.flashByte (a + i)

/-- Flash cells with a byte list programmed from an address up. -/
def flashWrite (m : List Host.Cell) (a : Nat) : List Byte → List Host.Cell
  | [] => m
  | b :: bs => flashWrite (Table.set 0xFF#8 a b m) (a + 1) bs

/-- Flash cells with an address range erased. -/
def flashErase (m : List Host.Cell) (a n : Nat) : List Host.Cell := m.filter fun c => decide (c.1 < a) || decide (a + n ≤ c.1)

/-- A block of flash: 128 KiB. -/
def blockSize : Nat := 0x20000

/-! ## The directory (02 R50 to R53) -/

/-- A directory copy that is valid. -/
structure Directory where
  sequence : Nat
  startA : Nat
  sizeA : Nat
  startB : Nat
  sizeB : Nat
  sumStart : Nat
  sumSize : Nat
  preferred : Nat
  deriving DecidableEq, Repr

/-- Where the copies of the directory start. -/
def directoryAt (copy : Nat) : Nat := copy * blockSize

/-- Two flash ranges do not meet. -/
def apart (a n b m : Nat) : Bool := decide (a + n ≤ b) || decide (b + m ≤ a)

/-- Parts start on block boundaries, lie within the flash, and never overlap each other or the directory blocks (R53). -/
def directoryLayoutOk (size : Nat) (d : Directory) : Bool :=
  d.sumStart % blockSize == 0 && decide (2 * blockSize ≤ d.startA) && decide (2 * blockSize ≤ d.startB)
    && decide (2 * blockSize ≤ d.sumStart) && decide (d.startA + d.sizeA ≤ size) && decide (d.startB + d.sizeB ≤ size)
    && decide (d.sumStart + d.sumSize ≤ size) && apart d.startA d.sizeA d.startB d.sizeB
    && apart d.startA d.sizeA d.sumStart d.sumSize && apart d.startB d.sizeB d.sumStart d.sumSize

/-- A directory copy read, when it is valid (R50, R53): beside the magic, the CRC and the layout, the model asks for the flash size
found, zero reserved bytes and a slot A or B, which the manual does not say (log entry 196). -/
def readDirectory (s : State) (copy : Nat) : Option Directory :=
  let b := s.flashBytes (directoryAt copy) 64
  let d : Directory := {
    sequence := field b 4 4, startA := blockSize * field b 16 4, sizeA := blockSize * field b 20 4
    startB := blockSize * field b 24 4, sizeB := blockSize * field b 28 4, sumStart := field b 32 8, sumSize := field b 40 8
    preferred := field b 48 1 }
  if field b 0 4 = 0x4C4D4449 ∧ field b 8 8 = s.flash.size ∧ d.preferred ≤ 1 ∧ zeros b 49 11
      ∧ field b 60 4 = (crc32 (b.take 60)).toNat ∧ directoryLayoutOk s.flash.size d then some d else none

/-- The directory in use: the valid copy of higher sequence number (R51); of equal ones, which the manual leaves open, copy 0 (log
entry 196). -/
def directoryInUse (s : State) : Option Directory :=
  match readDirectory s 0, readDirectory s 1 with
  | some a, some b => if a.sequence < b.sequence then some b else some a
  | some a, none => some a
  | none, some b => some b
  | none, none => none

/-- The copy that a rewrite erases: the invalid one, or the one of lower sequence number (R52); of equal ones copy 0 (log entry
196). -/
def rewriteCopy (s : State) : Nat :=
  match readDirectory s 0, readDirectory s 1 with
  | some a, some b => if a.sequence ≤ b.sequence then 0 else 1
  | some _, none => 1
  | none, _ => 0

/-- The 64 bytes of a directory copy (R50). -/
def directoryBytes (size : Nat) (d : Directory) : List Byte :=
  let b := leBytes 4 0x4C4D4449 ++ leBytes 4 d.sequence ++ leBytes 8 size ++ leBytes 4 (d.startA / blockSize)
    ++ leBytes 4 (d.sizeA / blockSize) ++ leBytes 4 (d.startB / blockSize) ++ leBytes 4 (d.sizeB / blockSize)
    ++ leBytes 8 d.sumStart ++ leBytes 8 d.sumSize ++ leBytes 1 d.preferred ++ leBytes 11 0
  b ++ leBytes 4 (crc32 b).toNat

/-- The directory rewritten to prefer a slot (R52); the 32-bit sequence number wraps (log entry 196). -/
def rewriteDirectory (s : State) (slot : Nat) : State :=
  let old := directoryInUse s
  let d : Directory := {
    sequence := ((old.map (·.sequence)).getD 0 + 1) % 2 ^ 32, startA := s.boot.startA, sizeA := s.boot.sizeA
    startB := s.boot.startB, sizeB := s.boot.sizeB, sumStart := s.boot.sumStart, sumSize := s.boot.sumSize, preferred := slot }
  let at_ := directoryAt (rewriteCopy s)
  { s with flash := { s.flash with bytes := flashWrite (flashErase s.flash.bytes at_ blockSize) at_ (directoryBytes s.flash.size d) } }

/-! ## Charter images (02 R54, R55) -/

/-- An entry of the section table. -/
structure Section where
  type : Nat
  version : Nat
  flags : Nat
  off : Nat
  len : Nat
  digest : Nat
  deriving DecidableEq, Repr

/-- A slot's header and section table. -/
structure Slot where
  start : Nat
  length : Nat
  version : Nat
  charterRb : Nat
  firmwareRb : Nat
  holdHours : Nat
  sections : List Section
  deriving DecidableEq, Repr

/-- Start and size of slot 0 (A) or 1 (B). -/
def State.slotStart (s : State) (slot : Nat) : Nat := if slot = 0 then s.boot.startA else s.boot.startB
def State.slotSize (s : State) (slot : Nat) : Nat := if slot = 0 then s.boot.sizeA else s.boot.sizeB

def parseSection (b : List Byte) : Section :=
  { type := field b 0 2, version := field b 2 2, flags := field b 4 4, off := field b 8 8, len := field b 16 8, digest := field b 24 32 }

/-- The header and table of a slot as they stand. -/
def readSlot (s : State) (slot : Nat) : Slot :=
  let a := s.slotStart slot
  let h := s.flashBytes a 4096
  { start := a, length := 4096 * field h 20 4, version := field h 8 8, charterRb := field h 16 1, firmwareRb := field h 17 1
    holdHours := field h 18 2
    sections := (List.range (field h 6 2)).map fun i => parseSection (s.flashBytes (a + 4096 + 64 * i) 64) }

/-- The section of a type. -/
def Slot.find (x : Slot) (type : Nat) : Option Section := x.sections.find? (·.type == type)

/-- The bytes of a section. -/
def State.sectionBytes (s : State) (x : Slot) (y : Section) : List Byte := s.flashBytes (x.start + y.off) y.len

/-- The bytes of a section copied to an address of device memory. -/
def loadSection (s : State) (x : Slot) (type addr : Nat) : State :=
  match x.find type with
  | some y => s.store addr (s.sectionBytes x y)
  | none => s

/-- An image reader over a section in flash. -/
def sectionAt (s : State) (x : Slot) (y : Section) (off n : Nat) : List Byte := s.flashBytes (x.start + y.off + off) n

/-- A section entry is well formed: a known type or one not required, its firmware flag as R55 gives it, its place on a
4 KiB boundary inside the image. -/
def sectionOk (x : Slot) (b : List Byte) (y : Section) : Bool :=
  (within y.type 1 10 || !y.flags.testBit 0) && decide (y.flags < 4) && (y.flags.testBit 1 == within y.type 1 2)
    && y.off % 4096 == 0 && decide (4096 + 64 * x.sections.length ≤ y.off) && decide (y.off + y.len + 8192 ≤ x.length)
    && zeros b 56 8

/-- No section type occurs twice. -/
def distinctTypes : List Section → Bool
  | [] => true
  | y :: r => (r.all fun z => z.type != y.type) && distinctTypes r

/-- The sections every charter holds, and the zone model beside a zone table (R55). -/
def mandatoryOk (x : Slot) : Bool :=
  ([1, 2, 3, 4, 7, 8].all fun t => (x.find t).isSome) && ((x.find 5).isNone || (x.find 6).isSome)

/-- The header and section table are well formed (R54, R55, R58). -/
def slotFormOk (s : State) (slot : Nat) : Bool :=
  let a := s.slotStart slot
  let h := s.flashBytes a 4096
  let x := readSlot s slot
  field h 0 4 == 0x4C4D4348 && field h 4 2 == 3 && within (field h 6 2) 1 32 && within x.charterRb 0 127
    && within x.firmwareRb 0 127 && within x.holdHours 0 720 && zeros h 160 3936 && decide (x.length ≤ s.slotSize slot)
    && decide (4096 + 64 * x.sections.length + 8192 ≤ x.length)
    && ((List.range x.sections.length).all fun i =>
        let b := s.flashBytes (a + 4096 + 64 * i) 64
        sectionOk x b (parseSection b))
    && distinctTypes x.sections && mandatoryOk x

/-- The hash of a public key as the header places it (19 R553). -/
def keyHash (s : State) (a off : Nat) : Nat := leNat (digest256 (s.flashBytes (a + off) 68))

/-- The fuse the integrator's key is checked against: Dartoja's hash in manufacturing, else the integrator's (19 R555). -/
def charterKeyHash (f : Fuses) : Nat := if f.lifecycle = 0 then f.dartojaHash else f.integratorHash

/-- A key hash matches its fuse; a blank fuse matches no key (19 R551). -/
def keyMatches (fuse h : Nat) : Bool := fuse != 0 && h == fuse

/-- The digest of every section matches. -/
def digestsOk (s : State) (x : Slot) : Bool := x.sections.all fun y => leNat (digest256 (s.sectionBytes x y)) == y.digest

/-- The bytes of a digest as the section table holds them. -/
def digestsOf (ys : List Section) : List Byte := ys.flatMap fun y => leBytes 32 y.digest

/-- One signature block: the signature at offset 0, the rest zero. -/
def blockOk (s : State) (a : Nat) : Bool := (s.flashBytes (a + 2820) (4096 - 2820)).all (· == 0#8)

/-- Both signatures verify (R56, R57). -/
def signaturesOk (s : State) (x : Slot) : Bool :=
  let key (off n : Nat) : List Byte := s.flashBytes (x.start + off) n
  let fw := x.start + x.length - 8192
  let ch := x.start + x.length - 4096
  let fwMsg := s.flashBytes x.start 4096 ++ digestsOf (x.sections.filter fun y => y.flags.testBit 1)
  xmssVerify (key 92 4) (key 96 32) (key 128 32) fwMsg (s.flashBytes fw 2820)
    && xmssVerify (key 24 4) (key 28 32) (key 60 32) (s.flashBytes x.start (x.length - 4096)) (s.flashBytes ch 2820)
    && blockOk s fw && blockOk s ch

/-- The verification of a slot: OK, RANGE for a malformed image, SIG for a failed hash, signature or rollback value
(R58). -/
def slotStatus (s : State) (slot : Nat) : Nat :=
  let x := readSlot s slot
  if !slotFormOk s slot then stRANGE
  else if !digestsOk s x then stSIG
  else if !(keyMatches (charterKeyHash s.fuses) (keyHash s x.start 24) && keyMatches s.fuses.dartojaHash (keyHash s x.start 92)) then stSIG
  else if !signaturesOk s x then stSIG
  else if x.charterRb < s.fuses.charterRb ∨ x.firmwareRb < s.fuses.firmwareRb then stSIG
  else stOK

/-- The version of the region controller firmware of a slot. -/
def Slot.firmware (x : Slot) : Nat := match x.find 2 with
  | some y => Config.firmwareVersion y.digest
  | none => 0

/-- The digests of the firmware sections: two slots of equal ones hold the same firmware (R88). -/
def Slot.firmwareDigests (x : Slot) : List Nat := (x.sections.filter fun y => y.flags.testBit 1).map (·.digest)

/-! ## The tables of a charter (02 R55, R62) -/

/-- The rows of a table section with their indices; a row of zeros is no row. -/
def rowsIn (s : State) (x : Slot) (type size : Nat) : List (Nat × List Byte) :=
  match x.find type with
  | none => []
  | some y => ((List.range (y.len / size)).map fun i => (i, sectionAt s x y (size * i) size)).filter fun b => b.2.any (· != 0#8)

/-- The bytes of an optional section. -/
def optBytes (s : State) (x : Slot) (type : Nat) : Option (List Byte) := (x.find type).map (s.sectionBytes x)

/-- The configuration a slot's tables give; the model images are placed at `model` and `zone`. -/
def charterCfg (s : State) (x : Slot) (model zone : Nat) : Cfg :=
  { streams := (rowsIn s x 4 64).foldl (fun t b => Table.set {} b.1 (parseStreamRow b.2) t) []
    zones := (rowsIn s x 5 64).foldl (fun t b => Table.set {} b.1 (parseZoneRow b.2) t) []
    accounts := (rowsIn s x 7 32).foldl (fun t b => Table.set {} b.1 (parseAccountRow b.2) t) []
    policies := ((optBytes s x 8).map parsePolicies).getD {}
    peer := (optBytes s x 9).map parsePeer
    adapt := (optBytes s x 10).map parseAdapt
    zoneModel := (x.find 6).map fun y => parseModel (sectionAt s x y) zone y.len true
    model := match x.find 3 with
      | some y => parseModel (sectionAt s x y) model y.len false
      | none => {} }

/-- A table section is a whole number of its rows, and no longer than the table. -/
def tableLengthOk (x : Slot) (type size : Nat) : Bool := match x.find type with
  | some y => y.len % size == 0 && decide (y.len / size ≤ rowsOf type)
  | none => true

/-- The ranges of check 2 over a charter's tables. -/
def charterRangesOk (s : State) (x : Slot) (c : Cfg) : Bool :=
  ((rowsIn s x 4 64).all fun b => streamRowOk b.1 b.2 && regionInMask c (parseStreamRow b.2))
    && ((rowsIn s x 5 64).all fun b =>
        let p := zonePicture c (parseZoneRow b.2).stream
        zoneRowOk b.1 b.2 p.1 p.2)
    && ((rowsIn s x 7 32).all fun b => accountRowOk b.1 b.2)
    && ((optBytes s x 8).map policiesOk).getD true && ((optBytes s x 9).map peerOk).getD true
    && ((optBytes s x 10).map fun b => adaptOk b && headsOk c (parseAdapt b)).getD true
    && ((x.find 6).map fun y => zoneModelOk (sectionAt s x y)).getD true
    && ((x.find 3).map fun y => modelOk (sectionAt s x y) false).getD true && crossRangesOk c

/-- The lengths and versions of check 3 over a charter's tables. -/
def charterFormsOk (s : State) (x : Slot) : Bool :=
  tableLengthOk x 4 64 && tableLengthOk x 5 64 && tableLengthOk x 7 32
    && ((x.find 8).map (·.version == 1)).getD true
    && ((x.find 3).map fun y => field (sectionAt s x y 4 2) 0 2 == 2).getD true
    && ((x.find 6).map fun y => field (sectionAt s x y 4 2) 0 2 == 2).getD true

/-- Check 11 on the two models of a charter against the firmware it brings (08 R259). -/
def firmwareOk (firmware : Nat) (c : Cfg) : Bool :=
  decide (c.model.firmware ≤ firmware) && decide (((c.zoneModel.map (·.firmware)).getD 0) ≤ firmware)

/-- The checks of R70 on a charter's tables against the present capacity, and `old`, the configuration in force before; a charter
has no entries, and the index is 0 (log entry 194). -/
def charterChecks (s : State) (x : Slot) (old c : Cfg) : Option Failure :=
  if !charterRangesOk s x c then some ⟨2, 0, stRANGE⟩
  else if !charterFormsOk s x then some ⟨3, 0, stBOUND⟩
  else match checkResult s old c (old.model != c.model) false [] none (fun _ => 0) with
    | some f => some f
    | none => if firmwareOk x.firmware c then none else some ⟨11, 0, stRANGE⟩

end Sys2Proof.Machine
end

