-- ==== Sys2Proof/Machine/Guard.lean ====
section
/-! DEFINITION. The states of guarded zones and of the safety channels (15 R457 to R465): start, occupied causes, clear
earned, and what makes a channel toggle or stop. -/

namespace Sys2Proof.Machine

/-- The occupied causes of 15 R461, and 9 start and 10 readback of R470. -/
def causeVerdict : Nat := 1
def causeMajority : Nat := 2
def causeTwoRegions : Nat := 3
def causeMissing : Nat := 4
def causeUntrusted : Nat := 5
def causeAble : Nat := 6
def causeStream : Nat := 7
def causeStart : Nat := 9
def causeReadback : Nat := 10

/-! ## Channels (15 R462 to R465) -/

/-- The enabled zones that name a channel, by their rows in force at the safety unit. -/
def State.zonesOn (s : State) (n : Nat) : List Nat :=
  (s.saf.zones.filter fun e => decide (e.2.state ≠ .off) && e.2.row.channel == n).map (·.1)

/-- A zone holds its channel: it is not clear, or its decision is late. -/
def Zone.holds (z : Zone) : Bool := decide (z.state ≠ .clear) || !z.decided

/-- Channel n indicates clear (15 R462, 02 R63, 14 R436). -/
def State.indicatesClear (s : State) (n : Nat) : Bool :=
  s.saf.started && s.mayBegin && !(s.channel n).latched && !(s.zonesOn n).isEmpty
    && (s.zonesOn n).all fun z => !(s.zone z).holds

/-- A record of this chapter about zone z (15 R470). -/
def State.safRecord (s : State) (type z status : Nat) (p : SafPl) (stream : Nat := 0xFFFF) (tick : Nat := 0)
    (epoch : Option Nat := none) : State :=
  let r := s.record type ucSAF (.saf { p with zone := z, channel := (s.zone z).row.channel, u := (s.zone z).u })
  s.emit { r with status := status, stream := stream, tick := tick, epoch := epoch.getD r.epoch, inst := (s.zone z).row.channel }

/-- The zone that keeps a channel stopped, and its cause. -/
def State.stopper (s : State) (n : Nat) : Nat × Nat :=
  if (s.channel n).latched then (0xFF, causeReadback)
  else match (s.zonesOn n).find? fun z => (s.zone z).holds with
    | some z => (z, (s.zone z).cause)
    | none => (0xFF, 0)

/-- A channel follows 15 R462: it starts or stops, with record 0x0707 and the host cause (17 R517). -/
def settleChannel (s : State) (n : Nat) : State :=
  let c := s.channel n
  let want := s.indicatesClear n
  if c.toggling = want then s
  else
    let stop := if want then (0xFF, 0) else s.stopper n
    let s1 := s.setChannel n { c with toggling := want, highA := want }
    (s1.emit { s1.record 0x0707 ucSAF (.saf { zone := stop.1, channel := n, cause := stop.2 }) with inst := n }).raise 5

/-- Every channel follows its zones. -/
def settleChannels (s : State) : State := (List.range 16).foldl settleChannel s

/-! ## Zones (15 R458 to R461) -/

/-- What an occupied cause brings to a record: the evaluation's engines, deadline and arrival, and a cell. -/
def occupiedBy (s : State) (z cause : Nat) (p : SafPl := {}) (stream : Nat := 0xFFFF) (tick : Nat := 0)
    (epoch : Option Nat := none) : State :=
  let x := s.zone z
  if x.state = .off then s
  else
    let s1 := s.setZone z { x with state := .occupied, cause := cause, q := 0, since := s.time.now }
    let s2 := if x.state = .occupied then s1 else s1.safRecord 0x0700 z stOK { p with cause := cause } stream tick epoch
    settleChannel s2 x.row.channel

/-- An occupied cause with nothing more to tell. -/
def occupyZone (s : State) (z cause : Nat) : State := occupiedBy s z cause

/-- The zones of a stream, by the rows in force at the safety unit. -/
def State.zonesReading (s : State) (n : Nat) : List Nat :=
  (s.saf.zones.filter fun e => decide (e.2.state ≠ .off) && e.2.row.stream == n).map (·.1)

/-- The zones that are on. -/
def State.zonesOnAll (s : State) : List Nat := (s.saf.zones.filter fun e => decide (e.2.state ≠ .off)).map (·.1)

/-- The stream of zones stopped or became inactive (15 R461 cause 7). -/
def occupyStream (s : State) (n : Nat) : State := (s.zonesReading n).foldl (fun a z => occupyZone a z causeStream) s

/-- Fewer than two regions able: every zone is occupied at once (01 R47, 15 R469). -/
def checkAble (s : State) : State :=
  if s.ableRegions.length < 2 then s.zonesOnAll.foldl (fun a z => occupyZone a z causeAble) s else s

/-- Clear is earned (15 R460). -/
def tryClear (s : State) (z : Nat) : State :=
  let x := s.zone z
  if (x.state = .start ∨ x.state = .occupied) ∧ x.row.cCount ≤ x.q ∧ x.since + x.row.hold * 1000000 ≤ s.time.now then
    let s1 := s.setZone z { x with state := .clear }
    settleChannel (s1.safRecord 0x0701 z stOK {}) x.row.channel
  else s

/-- An untrusted input or a period without any (15 R457, R458): u reaches n, then cause 5. -/
def untrustedInput (s : State) (z : Nat) : State :=
  let x := s.zone z
  let s1 := s.setZone z { x with u := x.u + 1, q := 0, secUntrusted := x.secUntrusted + 1 }
  let s2 := { s1 with saf := { s1.saf with untrusted := s1.saf.untrusted + 1 } }
  if x.row.nLimit ≤ x.u + 1 then occupyZone s2 z causeUntrusted else s2

/-- Two columns or rows of level 0: cell i of n cells over w samples. -/
def cellSpan (i n w : Nat) : Int × Int := (((i * w / n : Nat) : Int), (((i + 1) * w / n : Nat) : Int))

/-- The cells that meet one of the rectangles (15 R447). -/
def zoneCells (gw gh w h : Nat) (rects : List Box) : List Nat :=
  (List.range (gw * gh)).filter fun i =>
    let cx := cellSpan (i % gw) gw w
    let cy := cellSpan (i / gw) gh h
    rects.any fun r => decide (max cx.1 r.x0 < min cx.2 r.x1) && decide (max cy.1 r.y0 < min cy.2 r.y1)

/-- The cells of a zone, by number v × Gw + u, in the picture that an evaluation is of (15 R447). -/
def State.cellsOf (s : State) (x : Eval) (z : Nat) : List Nat :=
  let m := (s.cfgOf x.epoch).zoneModel.getD {}
  zoneCells m.gw m.gh x.width x.height (s.zone z).row.rects

/-- The latch of a channel that a safety settlement names is lifted (15 R465). -/
def unlatch (s : State) (n : Nat) : State := s.setChannel n { s.channel n with latched := false, mismatches := 0 }

/-- A zone enters its start state under the configuration in force: occupied with cause 9 (15 R459, R461). -/
def enterStart (s : State) (z : Nat) : State :=
  let row := s.cfg.zone z
  let st := s.cfg.stream row.stream
  let old := s.zone z
  let s1 := settleChannel (s.setZone z { ({} : Zone) with secUntrusted := old.secUntrusted }) old.row.channel
  let s2 := s1.setZone z {
    state := .start, cause := causeStart, row := row, pz := st.zonePeriod, ageNs := row.age st.zoneWindow * 1000000
    t0 := s.time.now, since := s.time.now
    secUntrusted := old.secUntrusted }
  settleChannel s2 row.channel

/-- A zone that a settlement disabled goes off. -/
def zoneOff (s : State) (z : Nat) : State :=
  let old := s.zone z
  settleChannel (s.setZone z { ({} : Zone) with secUntrusted := old.secUntrusted }) old.row.channel

/-- A safety settlement applies to a zone: start or off, and the latches of the channels it names are lifted (02 R77). -/
def safetyApply (s : State) (z : Nat) : State :=
  let s0 := if (s.zone z).state = .off then s else unlatch s (s.zone z).row.channel
  let s1 := if s.cfg.zones.any (·.1 == z) then unlatch s0 (s.cfg.zone z).channel else s0
  let s2 := { s1 with stl := { s1.stl with safetyZones := s1.stl.safetyZones.filter (·.1 != z) }
                      saf := { s1.saf with epoch := s1.stl.epoch.toNat } }
  if (s.cfg.zone z).enabled then enterStart s2 z else zoneOff s2 z

/-! ## Results on a region that a charter update has restarted (02 R89) -/

/-- The region that the update in progress restarted last. -/
def Update.lastRegion (u : Update) : Option Nat := match u.done.getLast? with
  | some (.region g) => some g
  | _ => none

/-- An evaluation that a region runs. -/
def Eval.onRegion (x : Eval) (g : Nat) : Bool :=
  x.engines.any (fun l => l / 16 == g) || (x.thirdStarted && (x.third.map (· / 16)) == some g)

/-- An evaluation is placed on the region restarted last. -/
def noteEval (s : State) (x : Eval) : State :=
  match s.stl.update with
  | some u => if (u.lastRegion.map x.onRegion).getD false then { s with stl := { s.stl with update := some { u with hadEval := true } } } else s
  | none => s

/-- The outcome of an evaluation on the region restarted last, for every zone of its stream: `agrees g` tells whether the output
of region `g` agreed. -/
def noteResult (s : State) (x : Eval) (agrees : Nat → Bool) : State :=
  match s.stl.update with
  | some u => match u.lastRegion with
    | some g =>
      if x.onRegion g then
        let put (t : Table (Option Bool)) (z : Nat) : Table (Option Bool) := Table.set none z (some ((Table.get none z t).getD true && agrees g)) t
        { s with stl := { s.stl with update := some { u with results := (s.zonesReading x.stream).foldl put u.results } } }
      else s
    | none => s
  | none => s

/-- A period of a zone is complete: with results on that region that all agreed, the next controller may restart. -/
def notePeriod (s : State) (z : Nat) : State :=
  match s.stl.update with
  | some u => { s with stl := { s.stl with update := some { u with
      periodOk := u.periodOk || Table.get none z u.results == some true, results := Table.set none z none u.results } } }
  | none => s

/-! ## The third opinion (15 R454, R469) -/

/-- The physical engines of an evaluation's mappings, as records name them (15 R470). -/
def evalEngines (s : State) (x : Eval) : List Nat :=
  let phys (m l : Nat) : Nat := match x.outputs.getD m none with
    | some o => o.1
    | none => (s.physOf l).getD 0xFF
  [phys 0 (x.engines.getD 0 0xFF), phys 1 (x.engines.getD 1 0xFF), if x.thirdStarted then (x.third.map (phys 2)).getD 0xFF else 0xFF]

/-- What a record about an evaluation holds. -/
def evalPayload (s : State) (x : Eval) (cause mapping cell : Nat) : SafPl :=
  let e := evalEngines s x
  { cause := cause, mapping := mapping, engX := e.getD 0 0xFF, engY := e.getD 1 0xFF, engZ := e.getD 2 0xFF
    deadline := x.deadline, arrival := x.arrival, cell := cell }

/-- A record about an evaluation for every zone of its stream. -/
def evalRecords (s : State) (type status : Nat) (x : Eval) (cause mapping cell : Nat) : State :=
  (s.zonesReading x.stream).foldl (fun a z =>
    a.safRecord type z status (evalPayload a x cause mapping cell) x.stream x.tick (some x.epoch)) s

/-- The evaluation of one picture replaced. -/
def setEval (s : State) (x : Eval) : State :=
  { s with saf := { s.saf with evals := s.saf.evals.map fun y => if y.stream == x.stream && y.tick == x.tick then x else y } }

/-- Mapping Z starts on the third region at once, with record 0x0702. -/
def startThird (s : State) (x : Eval) (mapping cell : Nat) : State :=
  let y := { x with thirdStarted := true }
  evalRecords (setEval s y) 0x0702 stAUDIT y 0 mapping cell

/-- An engine whose evaluation has no output yet is lost: Z stands in where a third region is able. -/
def missingEvals (s : State) (l : Nat) : State :=
  s.saf.evals.foldl (fun a x =>
    match (x.engines.zip x.outputs).findIdx? fun e => e.1 == l && e.2.isNone with
    | some m => if x.third.isSome && !x.thirdStarted && !x.decided then startThird a x m 0xFFFF else a
    | none => a) s

/-- The same for every engine of a region. -/
def missingRegion (s : State) (g : Nat) : State := (List.range 16).foldl (fun a i => missingEvals a (16 * g + i)) s

end Sys2Proof.Machine
end

