-- ==== Sys2Proof/Machine/Faults.lean ====
section
/-! DEFINITION. Strikes, fencing, sparing, handover, retest and rotation of engines and decode engines (14 R424 to
R431, 01 R33 to R39), and the restoration of charter data (14 R416). -/

namespace Sys2Proof.Machine

/-- The rows of 14 R412 in table order, as a fault record's source names them. -/
def srcBridgeCrc : Nat := 1
def srcLane : Nat := 2
def srcBridgeLost : Nat := 3
def srcCrossing : Nat := 4
def srcMemSingle : Nat := 5
def srcMemDouble : Nat := 6
def srcDramSingle : Nat := 7
def srcDramDouble : Nat := 8
def srcStack : Nat := 9
def srcOperand : Nat := 10
def srcBankSingle : Nat := 11
def srcBankDouble : Nat := 12
def srcDescriptor : Nat := 13
def srcPower : Nat := 14
def srcTileWatchdog : Nat := 15
def srcAudit : Nat := 16
def srcDuplicate : Nat := 17
def srcMinority : Nat := 18
def srcThirdStrike : Nat := 19
def srcAssay : Nat := 20
def srcClearingWatchdog : Nat := 21
def srcClearingAudit : Nat := 22
def srcFlush : Nat := 23
def srcRegionWatchdog : Nat := 24
def srcChipWatchdog : Nat := 25
def srcWindow : Nat := 26
def srcMediaAssay : Nat := 27
def srcMonitor : Nat := 28
def srcSelfCheck : Nat := 29
def srcOverLimit : Nat := 30

/-- A day and thirty days of elapsed time (14 R424, R425). -/
def day : Nat := 86400 * second
def month : Nat := 2592000 * second

/-! ## The unit map (01 R33, 14 R425) -/

/-- The unit map as it stands: state and logical index of every engine that differs from reserve. -/
def State.unitMap (s : State) : Table UnitMapEntry :=
  (List.range 72).foldl (fun t p => Table.set {} p { state := (s.engine p).state, logical := (s.engine p).logical } t) []

/-- The soft repairs of both stacks, as the unit map holds them (16 R493, R494). -/
def State.repairs (s : State) : List (Nat × Nat) :=
  ((s.dram 0).repaired.map fun r => (0, r)) ++ (s.dram 1).repaired.map fun r => (1, r)

/-- Start a write of the unit map to flash. -/
def writeUnitMap (s : State) : State :=
  { s with flash := { s.flash with writes := s.flash.writes ++ [.unitMap s.unitMap s.repairs] } }

/-- Fewer than 16 engines that are neither fenced nor under assay: the region is degraded (01 R35). -/
def markDegraded (s : State) (g : Nat) : State :=
  s.modRegion g fun r => { r with degraded := decide (s.inService g < 16) }

/-! ## Strikes (14 R424) -/

/-- Strikes still held. -/
def heldStrikes (s : State) (ts : List Nat) : List Nat := recent s.time.elapsed day ts

/-- A record of this chapter about an engine. -/
def State.faultRecord (s : State) (type cls source p second third strikes status : Nat) : State :=
  s.emit { s.record type ucFLT (.flt { cls := cls, source := source, unit := p, second := second, third := third, strikes := strikes })
           with status := status }

/-- The reserve engine of a region that takes a fenced engine's place: most recent passed assay (14 R426). -/
def spareFor (s : State) (g : Nat) : Option Nat :=
  (enginesOf g).foldl (fun best q =>
    let e := s.engine q
    match e.assayPassed with
    | none => best
    | some t =>
      if e.state ≠ 1 ∨ e.underAssay then best
      else match best with
        | none => some q
        | some b => if ((s.engine b).assayPassed).getD 0 < t then some q else best) none

/-- The logical engine in service after `l` in its region, in the order of 14 R421, none of `avoid`. -/
def nextInService (s : State) (l : Nat) (avoid : List Nat) : Option Nat :=
  ((List.range 15).filterMap fun k => s.physOf (16 * (l / 16) + (l + k + 1) % 16)).find? fun p => !avoid.contains p

/-- Audits that a fenced engine took part in: its own are dropped and counted, its runs pass on to the next engine in service; a copy
that no engine is left to run is dropped (14 R439). -/
def dropAudits (s : State) (p : Nat) : State :=
  let g := regionOf p
  let next (a : Audit) : Option Audit :=
    if a.engine = p then none
    else if a.auditor = p then (nextInService s (s.engine a.engine).logical [a.engine, p]).map fun q => { a with auditor := q, third := none }
    else if a.third = some p then some { a with third := nextInService s (s.engine a.auditor).logical [a.engine, a.auditor, p] }
    else some a
  let kept := (s.region g).audits.filterMap next
  let lost := (s.region g).audits.length - kept.length
  let s1 := s.modRegion g fun r => { r with audits := kept }
  { s1 with flt := { s1.flt with auditsDropped := s1.flt.auditsDropped + BitVec.ofNat 16 lost } }

/-- An index passes from a leaving engine to an entering one; its work waits for the handover copy (14 R427). -/
def beginHandover (s : State) (p q : Nat) : State :=
  let e := s.engine p
  let s1 := s.modEngine q fun x => { x with
    state := 0, logical := e.logical, handoverFrom := some (p, s.time.elapsed), again := e.again ++ e.running.toList
    haloRx := e.haloRx, haloSent := e.haloSent, haloReleased := e.haloReleased, haloRing := e.haloRing, combines := e.combines
    dmas := e.dmas, sends := e.sends, failedJobs := e.failedJobs, descBase := e.descBase, slice := e.slice, sliceNo := e.sliceNo, carried := e.carried, till := e.till, idleSince := s.time.elapsed }
  s1.modEngine p fun x => { x with
    logical := 0xFF, running := none, again := [], combines := [], dmas := [], sends := [], failedJobs := [], slice := none, carried := [], rotateTo := none }

/-- ENGINE_FENCE: the engine leaves service, its strikes clear, a reserve engine takes its index or the region is
degraded; record 0x0605 and the unit map (14 R424 to R426). -/
def fenceEngine (s : State) (p source : Nat) : State :=
  let g := regionOf p
  let e := s.engine p
  let spare := if e.state = 0 then spareFor s g else none
  let s1 := match spare with
    | some q => beginHandover s p q
    | none => s.modEngine p fun x => { x with logical := 0xFF, running := none }
  let s2 := s1.modEngine p fun x => { x with
    state := 2, strikes := [], fences := recent s.time.elapsed month x.fences ++ [s.time.elapsed], fencePending := false
    underAssay := false, pipe := {} }
  let s3 := markDegraded (dropAudits s2 p) g
  let s4 := checkAble (missingEvals (s3.fenceEvent { source := source, unit := p, second := spare.getD 0xFF } stOK) e.logical)
  capacityChanged (writeUnitMap s4) [.region g]

/-- The region rotates: not while restarting, degraded, stopped, in a handover or being spared. -/
def rotationFree (s : State) (g : Nat) : Bool :=
  let r := s.region g
  decide (r.state = 0) && !r.degraded && !r.fenced && decide (s.flt.stopPhase = 0)
    && (enginesOf g).all fun p => (s.engine p).handoverFrom.isNone && !(s.engine p).fencePending

/-- The leaving engine hands its index over and runs its assay in reserve. -/
def rotate (s : State) (p q : Nat) : State :=
  let s1 := beginHandover s p q
  let s2 := s1.modEngine p fun x => { x with state := 1, underAssay := true, assayPassed := none, pipe := {} }
  writeUnitMap (s2.faultRecord 0x0606 0 0 p q 0xFF 0 stOK)

/-- A rotation that waited for the leaving engine's boundary takes place, unless its region is now held from rotating or the reserve
engine is no longer one that can enter (01 R33, 14 R430). -/
def rotateIfDue (s : State) (p : Nat) : State :=
  match (s.engine p).rotateTo with
  | none => s
  | some q =>
    if (s.engine p).running.isSome then s
    else
      let s1 := s.modEngine p fun e => { e with rotateTo := none }
      let e := s1.engine q
      if rotationFree s1 (regionOf p) && decide ((s1.engine p).state = 0) && decide (e.state = 1) && !e.underAssay then rotate s1 p q else s1

/-- An engine that is not running a tile is fenced at once when its fence is due, or hands its index over by a rotation that waits. -/
def fenceIfDue (s : State) (p : Nat) : State :=
  let e := s.engine p
  if e.fencePending && decide (e.state ≤ 1) && e.running.isNone then fenceEngine s p srcThirdStrike
  else rotateIfDue s p

/-- One strike: its record, and at the third held the fence (14 R424). -/
def strike (s : State) (p source job tile : Nat) : State :=
  let e := s.engine p
  if 1 < e.state then s
  else
    let held := heldStrikes s e.strikes ++ [s.time.elapsed]
    let s1 := s.modEngine p fun x => { x with strikes := held, fencePending := x.fencePending || decide (3 ≤ held.length) }
    let s2 := s1.emit (s1.record 0x0604 ucFLT (.flt { cls := 1, source := source, unit := p, strikes := held.length, job := job, tile := tile }))
    fenceIfDue s2 p

/-- STRIKE_EXPIRY (14 R424): the oldest strike is dropped 86,400 s after it fell. -/
def execStrikeExpiry (p : Nat) (s : State) : Out :=
  done (match (s.engine p).strikes with
    | [] => s
    | t :: r => if s.answers then let s1 := s.atElapsed (t + day); s1.modEngine p fun x => { x with strikes := r } else s)

/-! ## Assays of engines (14 R425, R428, R429) -/

/-- The verdict on an assay, none while no reference is set, and the reference and waiting digests after it: a digest that differs from
a set reference fails; the reference is set when two engines agree; when no two of three agree the part runs again under the next seed. -/
def judgeDigest (s : State) (r : AssayResult) : Option Bool × State :=
  let others := s.flt.candidates.filter fun c => c.1 != r.engine
  if !r.fixedOk || decide (16 < r.correctedErrors) then (some false, { s with flt := { s.flt with candidates := others } })
  else match s.flt.reference with
    | some d => (some (decide (r.digest = d)), s)
    | none =>
      if others.any fun c => c.2 == r.digest then (some true, { s with flt := { s.flt with reference := some r.digest, candidates := others } })
      else (none, { s with flt := { s.flt with candidates := if others.length < 2 then others ++ [(r.engine, r.digest)] else [] } })

/-- The record of an assay's result. -/
def assayRecord (s : State) (p : Nat) (pass : Bool) : State :=
  s.emit { s.record 0x0607 ucFLT (.flt { unit := p }) with inst := p, status := if pass then stOK else stAUDIT }

/-- An engine's assay passed: from reserve it stays in reserve; a retest of a fenced engine returns it unless it was
fenced before in the last 30 days, and then it is retired (14 R425). -/
def assayPass (s : State) (p : Nat) : State :=
  let e := s.engine p
  if e.state = 2 then
    if (recent s.time.elapsed month e.fences).length ≤ 1 then
      writeUnitMap (s.modEngine p fun x => { x with state := 1, underAssay := false, assayPassed := some s.time.elapsed })
    else
      let s1 := s.modEngine p fun x => { x with state := 3, underAssay := false }
      writeUnitMap (s1.faultRecord 0x060C 3 srcAssay p 0xFF 0xFF 0 stOK)
  else s.modEngine p fun x => { x with underAssay := false, assayPassed := some s.time.elapsed }

/-- An engine's assay failed: a reserve engine is fenced, a fenced one retired (14 R425). -/
def assayFail (s : State) (p : Nat) : State :=
  let e := s.engine p
  if e.state = 2 then
    let s1 := s.modEngine p fun x => { x with state := 3, underAssay := false }
    writeUnitMap (s1.faultRecord 0x060C 3 srcAssay p 0xFF 0xFF 0 stAUDIT)
  else if e.state = 3 then s
  else fenceEngine s p srcAssay

/-- An assay's result: its record, and what follows for the engine. -/
def assayEnds (s : State) (p : Nat) (pass : Bool) : State :=
  let s1 := assayRecord s p pass
  if pass then assayPass s1 p else assayFail s1 p

/-- Once a reference is set, the assays that waited for it end: an engine outside the agreeing pair fails. -/
def endWaiting (s : State) : State :=
  match s.flt.reference with
  | none => s
  | some d =>
    let s1 := s.flt.candidates.foldl (fun x c => if (x.engine c.1).underAssay then assayEnds x c.1 (c.2 == d) else x) s
    { s1 with flt := { s1.flt with candidates := [] } }

/-- ENGINE_ASSAY_COMPLETE (14 R428, R429): an engine whose digest has no reference yet stays under assay. -/
def execEngineAssayComplete (r : AssayResult) (s : State) : Out :=
  done (if s.answers && (s.engine r.engine).underAssay then
    let q := judgeDigest s r
    match q.1 with
    | none => q.2
    | some pass => endWaiting (assayEnds q.2 r.engine pass)
  else s)

/-- ENGINE_RETEST (14 R425): 86,400 s after its fencing the engine runs its retest assay. -/
def execEngineRetest (p : Nat) (s : State) : Out :=
  done (let e := s.engine p
    match e.fences.getLast? with
    | none => s
    | some t =>
      if s.mayBegin && decide (e.state = 2) && !e.underAssay then
        (s.atElapsed (t + day)).modEngine p fun x => { x with underAssay := true }
      else s)

/-! ## Rotation (14 R430, R431) -/

/-- The moment of the next rotation of region g: t mod 60P = 15Pr in seconds of elapsed time. -/
def nextRotation (s : State) (g : Nat) : Nat :=
  let period := 60 * s.cfg.rotateMin * second
  let phase := 15 * s.cfg.rotateMin * g * second
  if period = 0 then s.time.elapsed
  else if s.time.elapsed ≤ phase then phase else phase + roundUp (s.time.elapsed - phase) period

/-- The in-service engine with the oldest passed assay, ties to the lowest physical index. -/
def oldestAssay (s : State) (g : Nat) : Option Nat :=
  (enginesOf g).foldl (fun best p =>
    let e := s.engine p
    if e.state ≠ 0 ∨ e.handoverFrom.isSome then best
    else match best with
      | none => some p
      | some b => if (e.assayPassed).getD 0 < ((s.engine b).assayPassed).getD 0 then some p else best) none

/-- ENGINE_ROTATION (14 R430): the moment of the region's rotation comes; the index passes at the leaving engine's next tile
boundary. -/
def execEngineRotation (g : Nat) (s : State) : Out :=
  done (if s.mayBegin && decide (g < 4) then
    let s1 := s.atElapsed (nextRotation s g)
    match oldestAssay s1 g, spareFor s1 g with
    | some p, some q => if rotationFree s1 g then rotateIfDue (s1.modEngine p fun e => { e with rotateTo := some q }) p else s1
    | _, _ => s1
  else s)

/-! ## Decode engines (01 R39, 04 R141, 14 R431) -/

/-- The reserve decode engine with the lowest index. -/
def decSpare (s : State) : Option Nat :=
  (List.range 18).find? fun d => decide ((s.dec d).state = 1)

/-- DECODE_ENGINE_LEAVE: a decode engine that is free leaves service, fenced or for its assay, and a reserve takes
its place; capacity and D_dec follow (01 R39). -/
def decLeave (s : State) (d : Nat) : State :=
  let e := s.dec d
  if e.job.isSome || !(e.leaving || e.fence) then s
  else
    let wasIn := e.state = 0
    let spare := if wasIn then decSpare s else none
    let s1 := s.modDec d fun x => { x with state := if e.fence then 2 else 3, leaving := false, fence := false }
    let s2 := match spare with
      | some q => s1.modDec q fun x => { x with state := 0 }
      | none => s1
    let s3 := if e.fence then s2.fenceEvent { source := srcWindow, unit := d, second := spare.getD 0xFF } stBOUND else s2
    setDDec (capacityChanged s3 [])

/-- A window violation counted against the engine; the third within 24 hours fences it (04 R141). -/
def windowViolation (s : State) (d n tick account : Nat) : State :=
  let vs := recent s.time.elapsed day (s.dec d).violations ++ [s.time.elapsed]
  let s1 := s.modDec d fun x => { x with violations := vs, fence := x.fence || decide (3 ≤ vs.length) }
  let s2 := { s1 with flt := { s1.flt with contained := s1.flt.contained + 1, lastClass := 1 } }
  let r := s2.record 0x0601 ucFLT (.flt { cls := 2, source := srcWindow, unit := d })
  (s2.emit { r with status := stBOUND, stream := n, tick := tick, account := account }).raise 2

/-- The moment of the decode rotation: t mod 60P = 0, P the period of the settled register in minutes (14 R431). -/
def toDecodeRotation (s : State) : State :=
  if s.cfg.rotateMin = 0 then s else s.atMultiple (60 * s.cfg.rotateMin * second)

/-- The decode engine that rotates, one of those in service: the manual does not say which, so a free value chooses. -/
def rotatingDec (s : State) : Option Nat :=
  let ds := (List.range 18).filter fun d => decide ((s.dec d).state = 0) && !(s.dec d).leaving
  ds[Config.freeNat s.free % max ds.length 1]?

/-- An engine in service leaves at its next picture boundary when a reserve can take its place. -/
def rotateDecode (s0 : State) : State :=
  let s := s0.nextFree
  match decSpare s, rotatingDec s0 with
  | some q, some d =>
    let s1 := decLeave (s.modDec d fun x => { x with leaving := true }) d
    s1.emit (s1.record 0x0606 ucFLT (.flt { unit := d, second := q }))
  | _, _ => s0

/-- DECODE_ROTATION (14 R431). -/
def execDecodeRotation (s : State) : Out := done (if s.mayBegin then rotateDecode (toDecodeRotation s) else s)

/-- DECODE_ASSAY_COMPLETE (14 R431): passed engines return to reserve, failed ones are fenced. -/
def execDecodeAssayComplete (d : Nat) (pass : Bool) (s : State) : Out :=
  done (if s.answers && decide ((s.dec d).state = 3) then
    let s1 := s.emit { s.record 0x0607 ucDEC (.flt { unit := d }) with inst := d, status := if pass then stOK else stAUDIT }
    if pass then dispatch (setDDec (s1.modDec d fun x => { x with state := if s1.decInService < 16 then 0 else 1 }))
    else setDDec (capacityChanged ((s1.modDec d fun x => { x with state := 2 }).fenceEvent { source := srcMediaAssay, unit := d } stAUDIT) [])
  else s)

/-! ## Restoration (14 R416) -/

/-- VOID_RESTORE: a whole granule of charter data rewritten, which clears its mark (07 R244). -/
def execVoidRestore (addr : Nat) (bytes : List Byte) (s : State) : Out :=
  done (if s.answers && decide (addr % 64 = 0) && decide (bytes.length = 64) && inDeviceMemory addr 64 then
    s.store addr bytes
  else s)

end Sys2Proof.Machine
end

