-- ==== Sys2Proof/Machine/Sequencer.lean ====
section
/-! DEFINITION. The tile sequencer's plan: the passes of a product or convolution tile, with their stationary blocks and A blocks
out of the operands (07 R228, R231, R232, R234). -/

namespace Sys2Proof.Machine

/-- The A codes that reach the cells, after the prologue; none when an access faults. -/
def TileEnv.aCodes (x : TileEnv) (u : Work) : Option (List (List Nat)) :=
  match x.aRows u >>= x.prologue u with
  | .ok f => some (f.codes.getD [])
  | .error _ => none

/-- The stationary codes, a row for each output column; none when an access faults. -/
def TileEnv.wCodes (x : TileEnv) (u : Work) : Option (List (List Nat)) := (x.wRows u).toOption

/-- The blocks of a pass with its drain token on the last (07 R236). -/
def withToken (bs : List ABlock) : List ABlock :=
  (bs.zipIdx).map fun (b, i) => { b with token := decide (i + 1 = bs.length) }

/-- A K range of one row of codes. -/
def codesIn (row : List Nat) (start n : Nat) : List Nat := (row.drop start).take n

/-- The passes of a work in full mode: for each 64 columns and each 512 rows, one pass for every K chunk that runs; block j of a
pass goes to the slot of its eight rows (07 R228, R231). -/
def TileEnv.fullPasses (x : TileEnv) (base : Nat) (u : Work) (a w : List (List Nat)) : List PassPlan :=
  let bk := blockK false x.c.fmtA x.c.fmtW
  let high := ceilDiv u.m 8
  (List.range (ceilDiv u.n 64)).flatMap fun cg => (List.range (ceilDiv u.m 512)).flatMap fun rg =>
    (x.c.chunksRun u.k).map fun ch =>
      { codes := (List.range 8).map fun cell => (List.range 8).map fun j => codesIn (w.getD (64 * cg + 8 * cell + j) []) (bk * ch) bk
        bytes := ceilDiv (8 * bk * fmtBits x.c.fmtW) 8
        blocks := withToken (((List.range high).drop (64 * rg)).take 64 |>.map fun rb =>
          { pass := 0, slot := base + cg * high + rb, token := false
            codes := (List.range 8).map fun i => codesIn (a.getD (8 * rb + i) []) (bk * ch) bk }) }

/-- K elements of one row that a weight bank holds in thin mode (07 R232). -/
def thinRange (fa : Nat) : Nat := if fa = 2 then 1024 else if fa = 5 then 256 else 512

/-- The passes of a group in thin mode: for each K range of the banks, every block of 16 columns over all its K chunks (07 R232,
R234). -/
def TileEnv.thinPasses (x : TileEnv) (g : SlotGroup) (rowOf : Nat → Nat → List Nat) (w : List (List Nat)) : List PassPlan :=
  let bk := blockK true x.c.fmtA x.c.fmtW
  let high := max 1 ((g.units.head?.map (·.2.length)).getD 1)
  let range := thinRange x.c.fmtA / high
  (List.range (ceilDiv g.k range)).map fun kr =>
    let n := min range (g.k - kr * range)
    { codes := g.units.map fun q => q.2.map fun r => codesIn (rowOf q.1 r) (kr * range) n
      bytes := ceilDiv (high * n * fmtBits x.c.fmtA) 8
      blocks := withToken ((List.range (ceilDiv g.n 16)).flatMap fun nb => (List.range (ceilDiv n bk)).map fun ch =>
        { pass := 0, slot := g.base + nb, token := false, kOff := ch * bk, rows := high, room := ceilDiv (16 * bk * fmtBits x.c.fmtW) 512
          codes := (List.range 16).map fun j => codesIn (w.getD (16 * nb + j) []) (kr * range + ch * bk) (min bk (n - ch * bk)) }) }

/-- The passes of a slot group; none where an operand cannot be read, since the tile then ends with that access. -/
def TileEnv.groupPasses (x : TileEnv) (ws : List Work) (g : SlotGroup) : List PassPlan :=
  match g.units.head?.bind fun q => ws[q.1]? with
  | none => []
  | some u => match x.wCodes u with
    | none => []
    | some w =>
      if x.c.thin then
        let rowOf (i r : Nat) : List Nat := (((ws[i]?).bind x.aCodes).getD []).getD r []
        x.thinPasses g rowOf w
      else match x.aCodes u with
        | none => []
        | some a => x.fullPasses g.base u a w

/-- The passes of the tile, numbered from 0. -/
def TileEnv.plan (x : TileEnv) : List PassPlan :=
  if x.c.opcode = 1 ∨ x.c.opcode = 2 then
    ((x.groups.flatMap (x.groupPasses x.work)).zipIdx).map fun (q, i) => { q with blocks := q.blocks.map fun b => { b with pass := i } }
  else []

end Sys2Proof.Machine
end

