-- ==== Sys2Proof/Machine/Slices.lean ====
section
/-! DEFINITION. The sharing of engines: charges of cycles (03 R121 to R125), the selection of an account in a region (R118) and
its slices on the engines (R119 to R122). -/

namespace Sys2Proof.Machine

/-! ## Charges (03 R121 to R125, R127) -/

/-- Compute cycles on a die added to a till. -/
def addCycles (p n : Nat) (t : Till) : Till :=
  { t with cycles := t.cycles + BitVec.ofNat 64 n
           ms0 := if p / 36 = 0 then t.ms0 + n else t.ms0
           ms1 := if p / 36 = 0 then t.ms1 else t.ms1 + n }

/-- Cycles charged to a device till: 0 safety, 1 audit, 2 faults, 3 adaptation. -/
def chargeDev (s : State) (i p n : Nat) : State := s.modDevTill i (addCycles p n)

/-- A tile of a zone evaluation. -/
def isZone (t : TileIssue) : Bool := t.zone || (field t.cmd 1 1).testBit 3

/-- A tile that works for an account. -/
def isOwn (t : TileIssue) : Bool := !(isZone t || t.adaptation)

/-- The account that the configuration of a tile's epoch stamp names for its stream (03 R124). -/
def tileAccount (s : State) (t : TileIssue) : Nat := ((s.cfgOf t.epoch).stream t.stream).account

/-- The till a tile is charged to: below 64 an account's, from 64 the device's (03 R121, R124, 13 R397). -/
def tillOf (t : TileIssue) : Nat := if isZone t then 64 else if t.adaptation then 67 else t.account

/-- A change of the till of a number. -/
def chargeTo (s : State) (k : Nat) (f : Till → Till) : State := if k < 64 then s.modTill k f else s.modDevTill (k - 64) f

/-- Cycles of a committed tile charged to its till (03 R121, R123, R124, 13 R397). -/
def chargeTile (s : State) (t : TileIssue) (p n : Nat) : State := chargeTo s (tillOf t) (addCycles p n)

/-- Compute cycles in a span of elapsed time at 1.5 GHz, scaled by the engine's clock ratio (21 R613). -/
def cyclesIn (ratio ns : Nat) : Nat := ns * 3 * ratio / 32

/-- The span of elapsed time that so many compute cycles last. -/
def nsOf (ratio cycles : Nat) : Nat := ceilDiv (cycles * 32) (3 * max ratio 1)

/-! ## Ready accounts (03 R118) -/

/-- An account is ready in a region: a sample of it is admitted there, under a configuration that enables it in the
region. -/
def accountReady (s : State) (g a : Nat) : Bool :=
  (s.rollingOf g a).members.any fun m =>
    !m.removed && ((s.cfgOf m.epoch).account a).enabled && ((s.cfgOf m.epoch).account a).mask.testBit g

/-- The ready accounts of a region, rising. -/
def readyAccounts (s : State) (g : Nat) : List Nat := (List.range 64).filter (accountReady s g)

/-! ## Slices on an engine (03 R119, R120, R122) -/

/-- The nominal length of an account's slice on an engine in cycles. -/
def nominalSlice (s : State) (p a epoch : Nat) : Nat :=
  (s.cfgOf epoch).sliceOf a * 1500 - Table.get 0 a (s.engine p).carried

/-- The engine takes the region's present selection when its slice has ended (03 R119). -/
def enterSlice (s : State) (p : Nat) : State :=
  let r := s.region (regionOf p)
  let e := s.engine p
  if e.slice.isSome ∨ e.sliceNo = r.sliceNo then s
  else match r.account with
    | none => s
    | some a => s.modEngine p fun x => { x with slice := some (a, 0), sliceNo := r.sliceNo, idleSince := s.time.elapsed }

/-- The slice of an engine ends, and the next selection begins on it when it is made already. -/
def leaveSlice (s : State) (p : Nat) : State := enterSlice (s.modEngine p fun x => { x with slice := none }) p

/-- The slice ends at a boundary with an overdraft, which its account carries on the engine (03 R119). -/
def endSlice (s : State) (p a o : Nat) : State :=
  leaveSlice (s.modEngine p fun x => { x with overdraft := o, carried := Table.set 0 a o x.carried }) p

/-- Cycles an account uses in its slice in the region (03 R118). -/
def useSlice (s : State) (p a n : Nat) : State :=
  s.modRegion (regionOf p) fun r => { r with sliceCycles := Table.set 0 a (Table.get 0 a r.sliceCycles + n) r.sliceCycles }

/-- Idle cycles of a slice so far. -/
def idleCycles (s : State) (p : Nat) : Nat :=
  let e := s.engine p
  if e.running.isSome then 0 else cyclesIn e.ratio (s.time.elapsed - e.idleSince)

/-- Idle cycles within a slice, charged to its account; the slice ends when its nominal length has passed, or, without a charge
of the remainder, when its account has no admitted sample left in the region (03 R119, R122). -/
def chargeIdle (s : State) (p : Nat) : State :=
  match (s.engine p).slice with
  | none => s
  | some (a, used) =>
    if (s.engine p).running.isSome then s
    else if !accountReady s (regionOf p) a then leaveSlice s p
    else
      let left := nominalSlice s p a s.stl.epoch.toNat - used
      let n := min left (idleCycles s p)
      let s1 := (useSlice (s.modTill a (addCycles p n)) p a n).modEngine p fun x => { x with
        slice := some (a, used + n), idleSince := s.time.elapsed }
      if left ≤ n then endSlice s1 p a 0 else s1

/-- A slice ends at a tile boundary: the excess over its nominal length is the account's overdraft on the engine; without
an admitted sample left it ends early and keeps the overdraft it carried (03 R119, R122). -/
def endSliceIfDue (s : State) (p epoch : Nat) : State :=
  match (s.engine p).slice with
  | none => enterSlice s p
  | some (a, used) =>
    let nominal := nominalSlice s p a epoch
    if nominal ≤ used then endSlice s p a (used - nominal)
    else if accountReady s (regionOf p) a then s else leaveSlice s p

/-- The account's slice is open on an engine (03 R119). -/
def sliceOpen (s : State) (p a : Nat) : Bool :=
  match (s.engine p).slice with
  | none => false
  | some (b, used) => a == b && decide (used + idleCycles s p < nominalSlice s p a s.stl.epoch.toNat)

/-- The last sample of an account has left a region: its slice ends on every engine that is at a tile boundary (03 R122). -/
def endSlicesWithout (s : State) (g a : Nat) : State :=
  if accountReady s g a then s
  else (enginesOf g).foldl (fun x p =>
    if (x.engine p).running.isNone && ((x.engine p).slice.map (·.1)) == some a then leaveSlice x p else x) s

/-! ## Selection (03 R118, 13 R397) -/

/-- The finish tag of an account moved by the cycles its slice used: c × 1024 div share. -/
def chargeSlice (s : State) (g : Nat) : State :=
  let r := s.region g
  match r.account with
  | none => s
  | some a =>
    let n := s.inService g
    let c := if n = 0 then 0 else Table.get 0 a r.sliceCycles / n
    let share := (s.cfg.account a).share
    let add := if share = 0 then 0 else c * 1024 / share
    s.setRegion g { r with finish := Table.set 0 a (Table.get 0 a r.finish + add) r.finish, account := none
                           sliceCycles := Table.set 0 a 0 r.sliceCycles }

/-- Entering ready lifts a finish tag to the virtual time of the region. -/
def liftTags (vtime : Nat) (ready : List Nat) (finish : Table Nat) : Table Nat :=
  ready.foldl (fun t a => Table.set 0 a (max (Table.get 0 a t) vtime) t) finish

/-- The ready account of least finish tag, ties to the lowest number. -/
def leastFinish (finish : Table Nat) (ready : List Nat) : Option Nat :=
  ready.foldl (fun (b : Option Nat) a => match b with
    | none => some a
    | some x => if Table.get 0 a finish < Table.get 0 x finish then some a else some x) none

/-- The region controller issues tiles: it runs and is not fenced (01 R26). -/
def State.regionIssues (s : State) (g : Nat) : Bool := decide ((s.region g).state = 0) && !(s.region g).fenced

/-- A region can run a step of adaptation: it runs and is not degraded (13 R407). -/
def stepRegion (s : State) (g : Nat) : Bool := s.regionIssues g && !(s.region g).degraded

/-- Background work of a region: the step of the running job, when its mask names the region and no other runs it; with
no named region able the job waits (13 R397, R407). -/
def background (s : State) (g : Nat) : State :=
  match s.adaptOn, s.adapt.job with
  | some a, some _ =>
    if s.adapt.phase ≠ 1 ∧ s.adapt.phase ≠ 5 then s
    else if ((List.range 4).filter fun q => a.mask.testBit q && stepRegion s q).isEmpty then
      { s with adapt := { s.adapt with phase := 5, regions := 0 } }
    else if a.mask.testBit g && stepRegion s g && s.adapt.regions == 0 then
      { s with adapt := { s.adapt with phase := 1, regions := 2 ^ g } }
    else s
  | _, _ => s

/-- The region leaves background work. -/
def leaveBackground (s : State) (g : Nat) : State :=
  if s.adapt.regions.testBit g then { s with adapt := { s.adapt with regions := 0 } } else s

/-- Background work lasts 250 us. -/
def backgroundNs : Nat := 250000

/-- The end of the region's background work comes. -/
def afterBackground (s : State) (g : Nat) : State :=
  if (s.region g).background then s.atElapsed (s.region g).backUntil else s

/-- SLICE_START (03 R118): the region selects an account for its slice, which begins on every engine whose previous slice has
ended; with none ready it runs background work. -/
def startSlice (s0 : State) (g : Nat) : State :=
  let s := afterBackground s0 g
  let s1 := chargeSlice s g
  let r := s1.region g
  let ready := readyAccounts s1 g
  let finish := liftTags r.vtime ready r.finish
  match leastFinish finish ready with
  | none => background (s1.setRegion g { r with finish := finish, ready := ready, background := true
                                                backUntil := s.time.elapsed + backgroundNs }) g
  | some a =>
    let first := ((enginesOf g).find? fun p => decide ((s1.engine p).state = 0)).getD (18 * g)
    let s2 := s1.trace ucRGN g 0x0010 (leBytes 1 a ++ leBytes 1 (s1.inService g) ++ leBytes 2 0
      ++ leBytes 4 (Table.get 0 a (s1.engine first).carried))
    let s3 := leaveBackground (s2.setRegion g { r with
      finish := finish, ready := ready, account := some a, vtime := Table.get 0 a finish, background := false, sliceNo := r.sliceNo + 1 }) g
    (enginesOf g).foldl enterSlice s3

/-- The selection that the end of an engine's slice calls for, made at the latest when a tile is to be issued on it. -/
def callSlice (s : State) (p : Nat) : State :=
  let s1 := chargeIdle s p
  if (s1.engine p).slice.isSome then s1 else startSlice s1 (regionOf p)

end Sys2Proof.Machine
end

