-- ==== Sys2Proof/Machine/Watch.lean ====
section
/-! DEFINITION. Tensor watch (20 R582 to R590, R598): requests, the parts a watch captures, their statistics, and how a watch
ends. -/

namespace Sys2Proof.Machine

/-- A watch slot (20 R582). -/
def State.watch (s : State) (w : Nat) : Watch := Table.get {} w s.dbg.watches
def State.setWatch (s : State) (w : Nat) (x : Watch) : State :=
  { s with dbg := { s.dbg with watches := Table.set {} w x s.dbg.watches } }

/-- A watch request (20 R583). -/
structure WatchReq where
  kind : Nat
  flags : Nat
  stream : Nat
  tensor : Nat
  tick : Nat
  segment : Nat
  desc : Nat
  mask : Nat
  slotBytes : Nat
  addr : Nat
  size : Nat
  reserved : Nat
  deriving DecidableEq, Repr

def WatchReq.statsOnly (q : WatchReq) : Bool := q.flags.testBit 0
def WatchReq.toDump (q : WatchReq) : Bool := q.flags.testBit 1

/-- The 64 bytes of a slot's request. -/
def Watch.bytes (x : Watch) : List Byte := (List.range 64).map fun i => Table.get 0 i x.request

/-- The request of a slot. -/
def Watch.req (x : Watch) : WatchReq :=
  let b := x.bytes
  { kind := field b 0 1, flags := field b 1 1, stream := field b 2 2, tensor := field b 4 4, tick := field b 8 8, segment := field b 16 2
    desc := field b 18 1, mask := field b 20 2, slotBytes := field b 24 4, addr := field b 32 8, size := field b 40 4
    reserved := field b 19 1 + field b 22 2 + field b 28 4 + field b 44 20 }

/-- A watch ends: its slot is idle with the status, its result stands, and record 0x0A00 tells of it (20 R590, R599). -/
def endWatch (s : State) (w status : Nat) (result : List Byte) : State :=
  let x := s.watch w
  let q := x.req
  let s1 := s.setWatch w { x with state := 0, status := status, result := result }
  let r := s1.record 0x0A00 ucDBG (.dbg { slot := w, result := field result 0 1, tensor := q.tensor, digest := field result 56 8
                                          tick := field result 8 8 })
  s1.emit (if q.kind = 1 then { r with status := status, stream := q.stream, tick := field result 8 8, account := (s.cfg.stream q.stream).account }
           else { r with status := status })

/-- The result of a watch that captured nothing: its status alone (20 R587, R589). -/
def emptyResult (x : Watch) (status : Nat) : List Byte :=
  leBytes 1 (status + 16 * bit x.req.statsOnly)
    ++ (if x.state = 2 then leBytes 1 x.slot ++ leBytes 6 0 ++ leBytes 8 x.tick ++ leBytes 176 0 else leBytes 191 0)

/-- A watch ends without a capture. -/
def stopWatch (s : State) (w status : Nat) : State := endWatch s w status (emptyResult (s.watch w) status)

/-- The watches of a state that satisfy a test end with a status. -/
def stopWatches (s : State) (status : Nat) (p : Nat → Watch → Bool) : State :=
  s.dbg.watches.foldl (fun a e => if p e.1 e.2 then stopWatch a e.1 status else a) s

/-- The region whose engines a watch names: its stream's, or the lowest that runs the adaptation step (20 R585). -/
def watchRegion (s : State) (q : WatchReq) : Nat :=
  if q.kind = 1 then (s.cfg.stream q.stream).region else ((List.range 4).find? s.adapt.regions.testBit).getD 0

/-- A part of a captured tensor: its engine, its device address and its descriptor. -/
structure WatchPart where
  engine : Nat
  addr : Nat
  desc : Desc
  deriving DecidableEq, Repr

/-- The parts in increasing logical index (20 R586). -/
def watchParts (s : State) (q : WatchReq) (slot : Nat) : List WatchPart :=
  ((List.range 16).filter q.mask.testBit).filterMap fun l =>
    match s.physOf (16 * watchRegion s q + l) with
    | none => none
    | some p =>
      let d := parseDesc (s.bytes (s.resolve (((s.engine p).descBase).getD 0 + 32 * q.desc)) 32)
      some { engine := p, addr := s.resolve d.base + slot * q.slotBytes, desc := d }

/-- Planes of a part: the planes its bytes per slot hold. -/
def WatchPart.planes (x : WatchPart) (slotBytes : Nat) : Nat :=
  if x.desc.planeStride = 0 then 1 else max 1 (slotBytes / x.desc.planeStride)

/-- The rows of a part, plane by plane, as stored bytes without padding, and as codes. -/
def WatchPart.rows (s : State) (x : WatchPart) (slotBytes : Nat) : List (List Byte × List Nat) :=
  let n := fmtBytes x.desc.fmt x.desc.cols
  (List.range (x.planes slotBytes)).flatMap fun pl => (List.range x.desc.rows).map fun r =>
    let codes := unpackCodes x.desc.fmt x.desc.cols (s.bytes (x.addr + pl * x.desc.planeStride + r * x.desc.rowStride) n)
    (packCodes x.desc.fmt codes, codes)

/-- A running capture holds a tile that would write its range on a named engine (20 R585). -/
def watchHolds (s : State) (p segment account : Nat) (ranges : List (Nat × Nat)) : Bool :=
  s.dbg.watches.any fun e =>
    let q := e.2.req
    e.2.state == 2 && (q.kind == 2 || (q.segment == segment && (s.cfg.stream q.stream).account == account))
      && (watchParts s q e.2.slot).any fun x => x.engine == p && ranges.any fun r =>
          decide (x.addr < r.1 + r.2) && decide (r.1 < x.addr + q.slotBytes)

/-! ## Statistics (20 R588) -/

/-- The statistics of a sequence of FP32 values. -/
structure WatchStats where
  min : W32
  max : W32
  mean : W32
  nans : Nat
  infs : Nat
  hist : List Nat
  deriving DecidableEq, Repr

/-- The bin of a finite element between the least and the greatest. -/
def watchBin (m big x : W32) : Nat :=
  if !fLt m big then 0
  else
    let v := fDiv (fMul (fSub x m) (fOfInt 32)) (fSub big m)
    match f32 v with
    | .fin neg a e => if neg then 0 else min 31 (if 0 ≤ e then a * 2 ^ e.toNat else a / 2 ^ (-e).toNat)
    | _ => 31

/-- The statistics; the manual gives no least and greatest element when none remains: free values. -/
def watchStats (free : Nat) (xs : List W32) : WatchStats :=
  let live := xs.filter fun x => !isNan x
  let fin := live.filter isFinite
  let least (ys : List W32) : W32 := (ys.tail).foldl fMin (ys.headD (Config.freeWord free))
  let most (ys : List W32) : W32 := (ys.tail).foldl fMax (ys.headD (Config.freeWord (free + 1)))
  let sum := live.foldl fAdd (0 : W32)
  let bins := fin.map (watchBin (least fin) (most fin))
  { min := least live, max := most live
    mean := if live.isEmpty then 0 else fDiv sum (fOfInt live.length)
    nans := xs.length - live.length, infs := live.length - fin.length
    hist := (List.range 32).map fun b => (bins.filter (· == b)).length }

end Sys2Proof.Machine
end

