-- ==== Sys2Proof/Machine/Engines.lean ====
section
/-! DEFINITION. Tiles on an engine (07 R248 to R257, 08 R271 to R289, 03 R119 to R123): issue, commit, abandonment,
completion records, slices and charges, and the audit draw (14 R419). -/

namespace Sys2Proof.Machine

/-! ## Completion records (08 R289) -/

/-- A completion record for the region controller's queue. -/
def complete (s : State) (p : Nat) (x : Completion) : State :=
  s.modRegion (regionOf p) fun r => { r with completions := r.completions ++ [x] }

/-- The environment of a tile. -/
def State.tileEnv (s : State) (p : Nat) (t : TileIssue) : TileEnv :=
  { s := s, p := p, issue := t, c := parseTile t.cmd, acc := (s.engine p).pipe.acc, accSats := (s.engine p).pipe.accSats }

/-- The passes of a tile on an engine. -/
def State.planOf (s : State) (p : Nat) (t : TileIssue) : List PassPlan := (s.tileEnv p t).plan

/-! ## Jobs that fail (08 R275) -/

/-- The members of the batch a tile works for. -/
def tileMembers (s : State) (p : Nat) (t : TileIssue) : List Member :=
  ((s.rollingOf (regionOf p) t.account).members.filter fun m => !m.removed)

/-- The job of a tile dies: the member of a slot, or every member of the batch when none is named; outside a batch the
stream the tile works for restarts; a zone tile leaves a missing result, an adaptation job restarts. -/
def jobFail (s : State) (p : Nat) (t : TileIssue) (slot status reason tile : Nat) : State :=
  if isZone t then s
  else if t.adaptation then restartJob s reason
  else if !t.inBatch then restartStream s t.stream
  else
    let ms := tileMembers s p t
    let hit := if slot < 64 then ms.filter fun m => m.slot == slot else ms
    endSlicesWithout (hit.foldl (fun a m => removeMember a (regionOf p) t.account m.stream status tile) s) (regionOf p) t.account

/-! ## Inputs of a tile (03 R122, 08 R286, 09 R303, R305) -/

/-- Two byte ranges meet. -/
def overlap (a n b m : Nat) : Bool := decide (a < b + m) && decide (b < a + n)

/-- Every halo group the tile needs has been received (08 R286). -/
def haloReady (e : Engine) (c : TileCmd) : Bool :=
  (List.range 4).all fun q =>
    !c.needMask.testBit q || decide ((e.haloRx.getD q 0xFF + 256 - bitsOf c.need (8 * q) 8) % 256 < 128)

/-- Memory the tile reads or writes through its descriptors, as device ranges. -/
def tileRanges (x : TileEnv) : List (Nat × Nat) :=
  (x.used.map fun u => let d := x.desc u.1; (x.s.resolve d.base, d.size))
    ++ (if x.c.shapeWord then [(engineBase x.p + field x.c.raw 20 4, 8)] else [])

/-- The rows that a DMA command writes. -/
def dmaDest (s : State) (cmd : List Byte) : List (Nat × Nat) :=
  (List.range (field cmd 2 2)).map fun i => (s.resolve (field cmd 16 8 + i * field cmd 28 4), field cmd 4 4)

/-- The rows of a DMA command that lie in its destination, as one range. -/
def dmaRange (s : State) (cmd : List Byte) : Nat × Nat :=
  (s.resolve (field cmd 16 8), (field cmd 2 2 - 1) * field cmd 28 4 + field cmd 4 4)

/-- A transfer or a send that brings in data of these ranges has not finished. -/
def inputsPending (s : State) (p : Nat) (ranges : List (Nat × Nat)) : Bool :=
  (s.engine p).dmas.any (fun d => let r := dmaRange s d.cmd; ranges.any fun q => overlap r.1 r.2 q.1 q.2)
    || (enginesOf (regionOf p)).any fun e => (s.engine e).sends.any fun o =>
        o.part.isNone && o.dest == (s.engine p).logical
          && o.pieces.any fun pc => ranges.any fun q => overlap (engineBase p + pc.1) pc.2.1.length q.1 q.2

/-- The parts of a combine have all arrived (08 R281). -/
def partsArrived (e : Engine) (c : TileCmd) : Bool :=
  c.opcode != 3 || e.combines.any fun b => b.job == c.job && b.tile == c.tile && decide (c.parts ≤ b.arrived.length)

/-- The device address a write of a tile goes to. -/
def writeAddr (x : TileEnv) (w : Nat × Int × List Byte) : Nat := x.s.resolve ((x.desc w.1).base + w.2.1.toNat)

/-! ## What a committed tile sends -/

/-- What a committed tile sends: the accumulators of a split-K part (08 R280), or copies of its outputs (09 R304). -/
def sendsOf (x : TileEnv) (d : TileDone) (empty : Bool) : List SendOp :=
  if x.c.split then
    let area := x.c.buffer + x.c.part * x.c.partBytes
    let rows := (d.raw.zipIdx).map fun (r, i) => (area + i * x.c.nMax * 4, r.flatMap fun v => leBytes 4 v.toNat, false)
    [{ dest := x.c.combiner, pieces := if empty then [] else rows, part := some (x.c.job, x.c.tile, x.c.part, x.c.parts), empty := empty }]
  else if empty then []
  else match x.chain.epi.find? fun t => t.opcode == 9 with
    | none => []
    | some t =>
      let sd := x.desc t.desc
      let outs := d.flow.writes.filter fun w => w.1 == x.c.dO && decide (w.2.1.toNat + w.2.2.length ≤ sd.size)
      let pieces := outs.flatMap fun w => (piecesOf (writeAddr x w) w.2.2.length).map fun (o, n) =>
        (sd.base + w.2.1.toNat + o, (w.2.2.drop o).take n, x.s.anyVoid (writeAddr x w + o) n)
      [t.x, t.y].filterMap fun l => if l = 0xFF then none else some { dest := l, pieces := pieces }

/-! ## Audits in progress (14 R421, R422) -/

/-- Two byte ranges meet in a granule. -/
def meets (a n b m : Nat) : Bool :=
  decide (0 < n) && decide (0 < m) && decide (granule a ≤ granule (b + m - 1)) && decide (granule b ≤ granule (a + n - 1))

/-- The memory that the tiles under audit of a region read or wrote. -/
def auditedRanges (s : State) (g : Nat) : List (Nat × Nat) :=
  (s.region g).audits.flatMap fun a => tileRanges (s.tileEnv a.engine a.issue)

/-- A send would write one of the ranges. -/
def sendMeets (s : State) (held : List (Nat × Nat)) (o : SendOp) : Bool := match s.physOf o.dest with
  | none => false
  | some q => o.pieces.any fun pc => held.any fun r => meets (engineBase q + pc.1) pc.2.1.length r.1 r.2

/-- The tile or one of its sends would write a granule that a tile under audit read or wrote (14 R422). -/
def auditHolds (s : State) (p : Nat) (x : TileEnv) : Bool :=
  let held := auditedRanges s (regionOf p)
  !held.isEmpty && ((x.attempt.1.flow.writes.any fun w => held.any fun q => meets (writeAddr x w) w.2.2.length q.1 q.2)
    || (sendsOf x x.attempt.1 x.work.isEmpty).any (sendMeets s held))

/-- An audit copy or a third run waits for the engine: it comes before any account tile (14 R421, R423). -/
def auditWaits (s : State) (p : Nat) : Bool :=
  (s.region (regionOf p)).audits.any fun a => (a.auditor == p && a.third.isNone) || a.third == some p

/-- The die of an engine is under a droop (21 R616). -/
def State.drooping (s : State) (p : Nat) : Bool := if p / 36 = 0 then s.power.droop0.isSome else s.power.droop1.isSome

/-- A tile of a zone evaluation is pending on the engine: an evaluation placed on its index that has no result of it yet
(03 R121, 15 R452). -/
def zonePending (s : State) (p : Nat) : Bool :=
  s.saf.evals.any fun x => !x.decided
    && ((x.engines ++ (if x.thirdStarted then x.third.toList else [])).zipIdx).any fun (l, k) =>
        l == (s.engine p).logical && (x.outputs.getD k none).isNone

/-- The slice rule: a zone tile and then an audit copy come before every account tile, adaptation is background work, and an account's tile belongs to
the account of the open slice, which is the one its epoch stamp gives its stream (03 R118, R121, R122, R124). -/
def sliceAllows (s : State) (p : Nat) (t : TileIssue) : Bool :=
  isZone t || (!zonePending s p && !auditWaits s p && (if t.adaptation then (s.region (regionOf p)).background
    else sliceOpen s p t.account && t.account == tileAccount s t))

/-- A tile that waits for its re-execution comes before every other of its account, and runs again after its droop clears. -/
def againAllows (s : State) (p : Nat) (t : TileIssue) : Bool :=
  let wait := (s.engine p).again.filter fun r => tillOf r.issue == tillOf t
  wait.isEmpty || isZone t || wait.any fun r => r.issue == t && !(r.droop && s.drooping p)

/-- The indices of a region that no engine holds, rising, and its engines in service by rising index (01 R35). -/
def unstaffed (s : State) (g : Nat) : List Nat := ((List.range 16).map (16 * g + ·)).filter fun l => (s.physOf l).isNone
def staffed (s : State) (g : Nat) : List Nat := (List.range 16).filterMap fun k => s.physOf (16 * g + k)

/-- The engine that runs the tiles of an unstaffed index in alternation with its own: the k-th such index goes to the k-th lowest
in service (01 R35). -/
def standInEngine (s : State) (l : Nat) : Option Nat :=
  let q := staffed s (l / 16)
  if q.isEmpty then none else q[((unstaffed s (l / 16)).findIdx (· == l)) % q.length]?

/-- The tile belongs to the engine's own index or to one it stands in for. -/
def indexAllows (s : State) (p : Nat) (t : TileIssue) : Bool :=
  match t.index with
  | none => true
  | some l => decide (l / 16 = regionOf p) && (s.physOf l).isNone && standInEngine s l == some p

/-- A tile may be issued on the engine now. -/
def mayIssue (s : State) (p : Nat) (t : TileIssue) : Bool :=
  let e := s.engine p
  let x := s.tileEnv p t
  s.mayBegin && decide (p < 72) && decide (e.state = 0) && e.handoverFrom.isNone && e.running.isNone && !e.fencePending
    && s.regionIssues (regionOf p) && sliceAllows s p t && againAllows s p t && indexAllows s p t
    && haloReady e x.c && partsArrived e x.c && !inputsPending s p (tileRanges x) && !auditHolds s p x
    && !(s.dbg.watches.any (fun w => w.2.state == 2)
          && watchHolds s p t.segment t.account (x.attempt.1.flow.writes.map fun w => (writeAddr x w, w.2.2.length)))

/-! ## Transfers that wait for a tile (07 R248) -/

/-- The waiting transfers of a tile that has committed may run. -/
def releaseDmas (e : Engine) (job tile : Nat) : Engine :=
  { e with dmas := e.dmas.map fun d => if d.waits = some (job, tile) then { d with waits := none } else d }

/-- The waiting transfers of a tile that will not commit are dropped: its outputs never leave the engine. -/
def dropDmas (s : State) (p job tile : Nat) : State :=
  s.modEngine p fun e => { e with dmas := e.dmas.filter fun d => d.waits != some (job, tile) }

/-- The transfers of an engine that are under way are abandoned by an urgent stop: what they write is void (07 R253, 14 R436). -/
def abandonDmas (s : State) (p : Nat) : State :=
  let gone := (s.engine p).dmas.filter fun d => d.waits.isNone
  let s1 := gone.foldl (fun a d => (dmaDest a d.cmd).foldl (fun b q =>
    if inDeviceMemory q.1 q.2 then b.voidRange q.1 q.2 else b) a) s
  s1.modEngine p fun e => { e with dmas := e.dmas.filter fun d => d.waits.isSome }

/-! ## Start (08 R271) -/

/-- A tile that fails a start check completes at once with its status (08 R271, R275, R289). -/
def rejectTile (s : State) (p : Nat) (t : TileIssue) (c : TileCmd) (f : CheckFail) : State :=
  let s0 := (dropDmas s p c.job c.tile).trace ucENG p 0x0003 (leBytes 8 c.tile ++ leBytes 4 c.job ++ leBytes 1 0 ++ leBytes 1 f.check ++ leBytes 2 0)
  let s1 := complete s0 p { tile := c.tile, job := c.job, status := f.status, member := c.member, check := f.check }
  jobFail s1 p t c.member f.status 2 c.tile

/-- The tile starts: its idle time is charged, its cells are fresh, and its passes begin, or its epilogue when it has none
(03 R119, R121, 07 R231, R256). -/
def startTile (s : State) (p : Nat) (t : TileIssue) : State :=
  let e := s.engine p
  let x := s.tileEnv p t
  let c := x.c
  if e.failedJobs.contains c.job then
    let s1 := s.modEngine p fun y => { y with failedJobs := y.failedJobs.filter (· != c.job) }
    jobFail s1 p t c.member stRANGE 2 c.tile
  else match startCheck x with
  | some f => rejectTile s p t c f
  | none =>
    let s1 := chargeIdle (s.trace ucENG p 0x0001 (leBytes 8 c.tile ++ leBytes 4 c.job ++ leBytes 1 t.account ++ leBytes 1 c.opcode ++ leBytes 2 0)) p
    let before := (e.again.find? fun r => r.issue == t).map (·.watchdogs)
    s1.modEngine p fun y => { y with
      running := some { issue := t, start := s.time.elapsed, watchdogs := before.getD 0 }
      again := y.again.filter fun r => r.issue != t
      ratio := if isZone t then 16 else if p / 36 = 0 then s.power.cd0 else s.power.cd1
      account := t.account % 64, till := tillOf t, activity := if x.plan.isEmpty then 2 else 1, descBase := some t.descBase
      pipe := Pipeline.fresh c.fmtA c.fmtW c.thin }

/-- TILE_START (08 R271); where the engine's slice has ended, the selection of the next one comes first (03 R118). -/
def execTileStart (p : Nat) (t : TileIssue) (s : State) : Out :=
  done (if mayIssue s p t then startTile s p t
    else if s.mayBegin && decide (p < 72) && isOwn t && s.regionIssues (regionOf p) then
      let s1 := callSlice s p
      if mayIssue s1 p t then startTile s1 p t else s
    else s)

/-! ## Abandonment (07 R250, R251) -/

/-- The writes of a tile marked void in memory. -/
def voidWrites (s : State) (x : TileEnv) (ws : List (Nat × Int × List Byte)) : State :=
  ws.foldl (fun a w => a.voidRange (writeAddr x w) w.2.2.length) s

/-- Compute cycles since the tile's start, by the model's clock. -/
def cyclesSince (s : State) (p : Nat) (r : Running) : Nat := min 30000 (cyclesIn (s.engine p).ratio (s.time.elapsed - r.start))

/-- The activity field of an engine at a tile boundary: halted in a stop, once its transfers have ended and nothing it sends is
pending (07 R253, R256). -/
def restActivity (s : State) (e : Engine) : Nat :=
  if s.flt.stopPhase ≠ 0 && (e.dmas.all fun d => d.waits.isSome) && e.sends.isEmpty then 3 else 0

/-- An engine without a tile halts once nothing of it is pending. -/
def settleHalt (s : State) (p : Nat) : State :=
  if (s.engine p).running.isSome then s else s.modEngine p fun e => { e with activity := restActivity s e }

/-- The tile of an engine abandoned: its cells stop, the granules it wrote are void, its counts are dropped, and its cycles
are charged to the fault till (07 R250, 03 R123). `ws` are the writes it made. -/
def abandonWith (s : State) (p cause status cycles : Nat) (ws : List (Nat × Int × List Byte)) : State :=
  let e := s.engine p
  match e.running with
  | none => s
  | some r =>
    let x := s.tileEnv p r.issue
    let s1 := voidWrites (s.trace ucENG p 0x0003 (leBytes 8 x.c.tile ++ leBytes 4 x.c.job ++ leBytes 1 cause ++ leBytes 3 0)) x ws
    let s2 := s1.modEngine p fun y => { y with
      running := none, pipe := {}, abandons := y.abandons + 1, status := status, abandoned := true, cause := cause
      activity := restActivity s y, idleSince := s.time.elapsed }
    let s3 := complete s2 p { tile := x.c.tile, job := x.c.job, status := status, cause := cause, member := x.c.member, cycles := cycles }
    chargeDev s3 2 p cycles

/-- The writes a tile had made when a cause struck it from outside: how far it was is not fixed by the manual, so a free
number of its writes. -/
def writesSoFar (s : State) (p : Nat) : List (Nat × Int × List Byte) :=
  match (s.engine p).running with
  | none => []
  | some r =>
    let ws := (s.tileEnv p r.issue).attempt.1.flow.writes
    ws.take (Config.freeNat s.free % (ws.length + 1))

/-- A tile abandoned from outside, to run again on the engine that holds the logical index (07 R251). -/
def abandonTile (s : State) (p cause status cycles watchdogs : Nat) : State :=
  match (s.engine p).running with
  | none => s
  | some r =>
    let s1 := abandonWith s.nextFree p cause status cycles (writesSoFar s p)
    s1.modEngine p fun y => { y with again := y.again ++ [{ r with watchdogs := r.watchdogs + watchdogs }] }

/-- A tile command with a member's bit set in its exclusion mask (08 R263, R275). -/
def excludeMember (cmd : List Byte) (slot : Nat) : List Byte :=
  (cmd.take 88) ++ leBytes 8 (field cmd 88 8 ||| 2 ^ slot) ++ cmd.drop 96

/-- A tile that data of one member ended: the member dies, and the tile runs again without it; where the data is of no one member
its job dies, and its outputs never leave (05 R190, 08 R275). -/
def abandonMember (s : State) (p : Nat) (r : Running) (slot status reason : Nat) : State :=
  let c := parseTile r.issue.cmd
  if slot < 64 ∧ r.issue.inBatch ∧ isOwn r.issue then
    jobFail (s.modEngine p fun y => { y with
      again := y.again ++ [{ r with issue := { r.issue with cmd := excludeMember r.issue.cmd slot } }] }) p r.issue slot status reason c.tile
  else jobFail (dropDmas s p c.job c.tile) p r.issue slot status reason c.tile

/-- The tile and job of what runs on an engine. -/
def runningTile (s : State) (p : Nat) : Nat × Nat :=
  match (s.engine p).running with
  | none => (0, 0)
  | some r => let c := parseTile r.issue.cmd; (c.job, c.tile)

/-- OPERAND_PARITY_ERROR (07 R251 cause 1) on a block as it enters BC, which a block held there does again not (R237, R252): a
second one within 1 s is a strike. -/
def execOperandParityError (p cell : Nat) (s : State) : Out :=
  done (match (s.engine p).running with
    | none => s
    | some r =>
      let e := s.engine p
      if !s.running || !e.pipe.checksParity (s.planOf p r.issue) then s
      else
        let (job, tile) := runningTile s p
        let soon := match e.lastParity with
          | some t => decide (s.time.elapsed < t + second)
          | none => false
        let s1 := s.modEngine p fun y => { y with
          parity := min 255 (y.parity + 1), cellBits := y.cellBits ||| 2 ^ (cell % 8), lastParity := some s.time.elapsed }
        let s2 := abandonTile (s1.corrected srcOperand p) p 1 stAUDIT (cyclesSince s p r) 0
        if soon then strike s2 p srcOperand job tile else fenceIfDue s2 p)

/-- Weight-bank errors (07 R238, R239, R251 cause 2): each word or mismatch counted, the tile abandoned, one strike. -/
def bankError (s : State) (p : Nat) (ev : CellEvents) : State :=
  match (s.engine p).running with
  | none => s
  | some r =>
    let (job, tile) := runningTile s p
    let s1 := s.modEngine p fun y => { y with bankUe := min 255 (y.bankUe + ev.wrong) }
    strike (abandonTile (s1.corrected srcBankDouble p) p 2 stAUDIT (cyclesSince s p r) 0) p srcBankDouble job tile

/-- CELL_PIPELINE_CYCLE (07 R229); after the last block of the last pass the epilogue begins (R247, R256). -/
def execCellPipelineCycle (p : Nat) (check : List BankCheck) (s : State) : Out :=
  done (match (s.engine p).running with
    | none => s
    | some r =>
      if !s.running then s
      else
        let (c, ev) := (s.engine p).pipe.cycle check
        let s1 := s.modEngine p fun y => { y with
          pipe := c, bankCe := min 255 (y.bankCe + ev.corrected), cellBits := y.cellBits ||| ev.cells
          activity := if c.drained (s.planOf p r.issue) then 2 else 1 }
        let s2 := s1.corrected srcBankSingle p ev.corrected
        if 0 < ev.wrong then bankError s2 p ev else s2)

/-- OPERAND_NETWORK_CYCLE (01 R25, 07 R235): the sequencer's next payload or bank load. -/
def execOperandNetworkCycle (p : Nat) (deliver load : Bool) (s : State) : Out :=
  done (match (s.engine p).running with
    | none => s
    | some r => if s.running then s.modEngine p fun y => { y with pipe := y.pipe.network deliver load (s.planOf p r.issue) } else s)

/-- The word of ENGp_TILE_FAULT for a fault (08 R276). -/
def tileFaultWord (c : TileCmd) (f : TileFault) : W64 :=
  BitVec.ofNat 64 (fld (if f.offset < 0 ∨ 0xFFFFFFFF < f.offset then 0xFFFFFFFF else f.offset.toNat) 32 32
    + fld f.iter 20 12 + fld f.entry 8 12 + fld (bit f.write) 7 1 + fld (bit c.list) 6 1 + fld f.desc 0 6)

/-- DESCRIPTOR_ACCESS_FAULT (08 R274 to R276): the running tile issues an access outside its descriptor. -/
def execDescriptorAccessFault (p : Nat) (s : State) : Out :=
  done (match (s.engine p).running with
    | none => s
    | some r =>
      let x := s.tileEnv p r.issue
      match s.running, x.attempt with
      | true, (d, some f) =>
        if f.void then s
        else
          let s1 := abandonWith s p 3 f.status (cyclesSince s p r) d.flow.writes
          let s2 := s1.modEngine p fun y => { y with tileFault := tileFaultWord x.c f }
          let s3 := s2.contained { source := srcDescriptor, unit := p, job := x.c.job, tile := x.c.tile } f.status
            (stream := if isZone r.issue || r.issue.adaptation then 0xFFFF else r.issue.stream) (account := r.issue.account)
          fenceIfDue (abandonMember s3 p r (if f.member < 64 then f.member else x.c.member) f.status 2) p
      | _, _ => s)

/-- VOID_OPERAND (07 R245, 14 R415): the running tile reads a void granule. -/
def execVoidOperand (p : Nat) (s : State) : Out :=
  done (match (s.engine p).running with
    | none => s
    | some r =>
      let x := s.tileEnv p r.issue
      match s.running, x.attempt with
      | true, (d, some f) =>
        if !f.void then s
        else
          let s1 := abandonWith s p 4 stVOID (cyclesSince s p r) d.flow.writes
          fenceIfDue (abandonMember s1 p r (if f.member < 64 then f.member else x.c.member) stVOID 1) p
      | _, _ => s)

/-- TILE_WATCHDOG_EXPIRY (07 R251 cause 7), 30,000 cycles after the tile's start: re-executed once; at the second expiry the job fails. -/
def execTileWatchdogExpiry (p : Nat) (s : State) : Out :=
  done (match (s.engine p).running with
    | none => s
    | some r =>
      if !s.running then s
      else
        let c := parseTile r.issue.cmd
        let s0 := s.atElapsed (r.start + nsOf (s.engine p).ratio 30000)
        if r.watchdogs = 0 then fenceIfDue (abandonTile (s0.corrected srcTileWatchdog p) p 7 stBUDGET 30000 1) p
        else
          let s1 := dropDmas (abandonWith s0.nextFree p 7 stBUDGET 30000 (writesSoFar s0 p)) p c.job c.tile
          let s2 := s1.contained { source := srcTileWatchdog, unit := p, job := c.job, tile := c.tile } stBUDGET
            (stream := if isZone r.issue || r.issue.adaptation then 0xFFFF else r.issue.stream) (account := r.issue.account)
          fenceIfDue (jobFail s2 p r.issue c.member stBUDGET 4 c.tile) p)

/-! ## Audit draw (14 R419) -/

/-- The draw of a region controller: its counter advances, and the work is selected when w × D < 2^32. -/
def auditDraw (s : State) (g : Nat) : Bool × State :=
  let r := s.region g
  let c := r.draws + 1
  let w := leNat (shake256 (leBytes 32 r.seed ++ leBytes 1 g ++ leBytes 8 c) 4)
  (decide (w * s.cfg.auditDivisor < 2 ^ 32), s.modRegion g fun x => { x with draws := c })

/-- A selected tile is audited by the next logical engine in service; with none the audit is dropped (14 R421). -/
def selectAudit (s : State) (p : Nat) (t : TileIssue) (x : Completion) : State :=
  match nextInService s (s.engine p).logical [p] with
  | some q =>
    let a : Audit := { engine := p, auditor := q, completion := x, account := t.account, issue := t }
    s.modRegion (regionOf p) fun r => { r with audits := r.audits ++ [a] }
  | none => { s with flt := { s.flt with auditsDropped := s.flt.auditsDropped + 1 } }

/-! ## Commit (07 R249) -/

/-- The neighbouring logical engine a port faces, when it is connected: N, S, W, E (01 R31, R34). -/
def neighbour (l port : Nat) : Option Nat :=
  let k := l % 16
  let row := k / 6
  let col := k % 6
  if port = 0 then (if row = 0 then none else some (l - 6))
  else if port = 1 then (if k + 6 < 16 then some (l + 6) else none)
  else if port = 2 then (if col = 0 then none else some (l - 1))
  else (if col < 5 ∧ k + 1 < 16 then some (l + 1) else none)

/-- The port that faces back. -/
def opposite (port : Nat) : Nat := if port = 0 then 1 else if port = 1 then 0 else if port = 2 then 3 else 2

/-- The releases of a committed tile set off towards their senders (08 R285). -/
def releasesOf (s : State) (p : Nat) (c : TileCmd) : List (Nat × Nat × Nat) :=
  (List.range 4).filterMap fun q =>
    if c.releaseMask.testBit q then
      (neighbour (s.engine p).logical q).map fun l => (l, opposite q, (bitsOf c.need (8 * q) 8 + 1) % 256)
    else none

/-- Counts of a committed tile added to the engine's registers together (06 R223 to R225). -/
def addCounts (e : Engine) (f : Flow) : Engine :=
  { e with
    convSat := e.convSat + BitVec.ofNat 64 f.sats, accSat := e.accSat + BitVec.ofNat 64 f.accSats
    nanConv := e.nanConv + BitVec.ofNat 64 f.nans
    convSatSeen := e.convSatSeen || decide (0 < f.sats), accSatSeen := e.accSatSeen || decide (0 < f.accSats)
    nanSeen := e.nanSeen || decide (0 < f.nans)
    lastFmt := match f.lastSat with
      | some v => v
      | none => e.lastFmt }

/-- A pending clock ratio of the die takes effect at the tile boundary (21 R613). -/
def applyRatio (s : State) (p : Nat) : State :=
  s.modEngine p fun e => { e with ratio := if p / 36 = 0 then s.power.cd0 else s.power.cd1 }

/-- The boundary at the end of a commit: slice clock, slice end, fence, ratio (03 R119, 14 R424, 21 R613). -/
def tileBoundary (s : State) (p cycles : Nat) (t : TileIssue) : State :=
  let s1 := if isOwn t then useSlice (s.modEngine p fun e => { e with slice := e.slice.map fun q => (q.1, q.2 + cycles) }) p t.account cycles
    else s
  fenceIfDue (applyRatio (endSliceIfDue s1 p t.epoch) p) p

/-- The tile commits: its writes land, its counts, sends, releases, completion record, charge and audit draw follow. -/
def commitTile (s : State) (p cycles : Nat) (r : Running) (d : TileDone) (empty : Bool) : State :=
  let x := s.tileEnv p r.issue
  let c := x.c
  let s0 := s.trace ucENG p 0x0002 (leBytes 8 c.tile ++ leBytes 4 c.job ++ leBytes 4 cycles)
  let s1 := d.flow.writes.foldl (fun a w => a.store (writeAddr x w) w.2.2) s0
  let status := if empty then stEMPTY else stOK
  let sent := sendsOf { x with s := s1 } d empty
  let s2 := s1.modEngine p fun e => { releaseDmas (addCounts e d.flow) c.job c.tile with
    running := none, pipe := {}, tiles := e.tiles + 1, status := status, abandoned := false
    idleSince := s.time.elapsed, sends := e.sends ++ sent, convSkip := e.convSkip + BitVec.ofNat 64 x.skipped.2
    combines := if c.opcode = 3 then e.combines.filter fun b => !(b.job == c.job && b.tile == c.tile) else e.combines }
  let rec_ : Completion := { tile := c.tile, job := c.job, status := status, member := c.member, cycles := cycles
                             sats := d.flow.sats, nans := d.flow.nans, accSats := d.flow.accSats }
  let s3 := complete { s2 with haloBack := s2.haloBack ++ releasesOf s p c } p rec_
  let s4 := chargeTile s3 r.issue p cycles
  let s5 := if isZone r.issue then s4
    else
      let q := auditDraw s4 (regionOf p)
      if q.1 then selectAudit q.2 p r.issue rec_ else q.2
  settleHalt (tileBoundary s5 p cycles r.issue) p

/-- What is left of the passes runs: the last block of the last pass has left AC before the epilogue begins (07 R247). -/
def finishPasses (s : State) (p : Nat) (t : TileIssue) : State :=
  let plan := s.planOf p t
  s.modEngine p fun e => { e with pipe := e.pipe.finish plan, activity := 2 }

/-- TILE_COMMIT (07 R249): the passes end, the epilogue runs over the accumulator slots, and the tile commits, with every access in
bounds and no void operand. -/
def execTileCommit (p cycles : Nat) (s : State) : Out :=
  done (match (s.engine p).running with
    | none => s
    | some r =>
      if !s.running || decide (30000 < cycles) then s
      else
        let s1 := finishPasses s p r.issue
        let x := s1.tileEnv p r.issue
        let voidPart := x.c.opcode == 3 && (s.engine p).combines.any fun b => b.job == x.c.job && b.tile == x.c.tile && b.empty
        if x.work.isEmpty || voidPart then commitTile s1 p cycles r {} true
        else match x.attempt with
          | (d, none) => commitTile s1 p cycles r d false
          | (_, some _) => s)

/-- SLICE_NOMINAL_END (03 R119, R122): on an idle engine the slice ends when its nominal length has passed, or at once when its
account has no admitted sample left. -/
def execSliceNominalEnd (p : Nat) (s : State) : Out :=
  let e := s.engine p
  done (match e.slice with
    | none => s
    | some (a, used) =>
      if !s.running || e.running.isSome then s
      else if !accountReady s (regionOf p) a then leaveSlice s p
      else
        let left := nominalSlice s p a s.stl.epoch.toNat - used
        let s1 := s.atElapsed (e.idleSince + nsOf e.ratio left)
        endSlice (useSlice ((s1.modTill a (addCycles p left)).modEngine p fun y => { y with idleSince := s1.time.elapsed }) p a left) p a 0)

/-- ENGINE_SCRUB (07 R243, R246): a word of engine memory is corrected, or its granule is marked void. -/
def execEngineScrub (p addr : Nat) (ecc : Secded) (s : State) : Out :=
  done (if s.answers && decide (p < 72) && decide (addr < engineSize) then
    match ecc with
    | .clean => s
    | .single => (s.modEngine p fun e => { e with memCe := e.memCe + 1 }).corrected srcMemSingle p
    | .uncorrectable => (s.voidRange (engineBase p + addr) 1).contained { source := srcMemDouble, unit := p, address := engineBase p + addr } stVOID
  else s)

end Sys2Proof.Machine
end

