-- ==== Sys2Proof/Machine/Sanor.lean ====
section
/-! DEFINITION. Messages of the Sanor link (18 R534 to R542): what is sent to peers, kept until acknowledged, and taken
from them in order. -/

namespace Sys2Proof.Machine

/-! ## Message types (18 R534) -/

def msgHandover : Nat := 3
def msgHandoverAck : Nat := 4
def msgCloseCopy : Nat := 5
def msgQuery : Nat := 6
def msgResult : Nat := 7
def msgReplica : Nat := 8

/-! ## The link -/

/-- The Sanor link is on at port n (18 R531). -/
def State.sanorOn (s : State) (n : Nat) : Bool :=
  match s.cfg.peer with
  | some p => decide (p.domain ≠ 0) && (if n = 0 then p.sanor0 else n == 1 && p.sanor1)
  | none => false

/-- The link takes part in messages: on at some port, not isolated, and no stop (18 R537, R545). -/
def State.sanorTakes (s : State) : Bool := s.mayBegin && (s.sanorOn 0 || s.sanorOn 1) && !s.lnk.isolated

/-- A port that can send: up and not electrically idle. -/
def State.portUp (s : State) (n : Nat) : Bool :=
  decide ((s.netPort n).state = 2) && !(if n = 0 then s.pins.ethIdle0 else s.pins.ethIdle1)

/-- The port a message to a peer leaves on: where it was last heard, or the other Sanor port when that one is down (18 R534). -/
def State.sanorPort (s : State) (d : Nat) : Nat :=
  let p := (s.peer d).port
  if s.portUp p then p else if s.sanorOn (1 - p) then 1 - p else p

/-- A frame leaves on a port, with its bytes where this manual lays them out. -/
def transmit (s : State) (port code : Nat) (frame : List Byte) : State :=
  if s.portUp port then
    s.modNet port fun n => { n with out := n.out ++ [code], tx := n.tx + 1, frames := if frame.isEmpty then n.frames else n.frames ++ [frame] }
  else s

/-- A port's MAC address, from the fuses (18 R527). -/
def State.portMac (s : State) (n : Nat) : Nat := if n = 0 then s.fuses.mac0 else s.fuses.mac1

/-- A frame of a length that needs no tag: the 802.3 header, the body with its padding to the least frame, and the FCS. -/
def ethFrame (dst src etherType : Nat) (body : List Byte) : List Byte :=
  let f := leBytes 6 dst ++ leBytes 6 src ++ beBytes 2 etherType ++ body ++ List.replicate (46 - body.length) 0#8
  f ++ leBytes 4 (crc32 f).toNat

/-- The 32-byte Sanor header of a message of this device with its CRC field as given (18 R534). -/
def sanorHeader (s : State) (dst ack : Nat) (m : Msg) (crc : Nat) : List Byte :=
  leBytes 1 1 ++ leBytes 1 m.type ++ leBytes 2 ((s.cfg.peer.map (·.domain)).getD 0) ++ leBytes 2 ((s.cfg.peer.map (·.device)).getD 0) ++ leBytes 2 dst
    ++ leBytes 4 m.seq ++ leBytes 4 ack ++ leBytes 2 m.payload.length ++ leBytes 2 m.index ++ leBytes 2 m.fragments
    ++ leBytes 6 0 ++ leBytes 4 crc

/-- Header and payload of a message, the CRC over both with its own field as zero (18 R534). -/
def sanorMessage (s : State) (dst ack : Nat) (m : Msg) : List Byte :=
  sanorHeader s dst ack m (crc32 (sanorHeader s dst ack m 0 ++ m.payload)).toNat ++ m.payload

/-- The domain multicast address 03:44:4A:00:hh:ll, first octet lowest (18 R534). -/
def domainMac (domain : Nat) : Nat := leNat (leBytes 4 0x004A4403 ++ beBytes 2 domain)

/-- One Sanor message counted and sent to a peer, with the acknowledgement of what has come from it. -/
def sendSanor (s : State) (d : Nat) (m : Msg) : State :=
  let port := s.sanorPort d
  transmit { s with lnk := { s.lnk with sent := s.lnk.sent + 1 } } port outSanor
    (ethFrame (s.peer d).mac (s.portMac port) 0x88B5 (sanorMessage s d (s.peer d).received m))

/-- The payload of a heartbeat (18 R534). -/
def heartbeatBytes (s : State) (h : Heartbeat) : List Byte :=
  leBytes 1 h.state ++ leBytes 1 h.able ++ leBytes 8 h.identifier ++ leBytes 8 s.time.now ++ leBytes 4 h.freeDecode
    ++ leBytes 2 h.epoch ++ leBytes 8 h.charter ++ leBytes 6 h.mac

/-- The frame of a heartbeat sent on a port: to the domain, and to all devices. -/
def heartbeatFrame (s : State) (n : Nat) (h : Heartbeat) : List Byte :=
  ethFrame (domainMac ((s.cfg.peer.map (·.domain)).getD 0)) (s.portMac n) 0x88B5
    (sanorMessage s 0x3FF h.ack { seq := 0, type := 1, payload := heartbeatBytes s h })

/-- A reliable message sent and kept until the peer acknowledges it (18 R535). -/
def sendMsg (s : State) (d type : Nat) (payload : List Byte) (handle number : Nat := 0) (index : Nat := 0) (fragments : Nat := 1) : State :=
  let p := s.peer d
  let m : Msg := { seq := (p.nextSeq + 1) % 2 ^ 32, type := type, handle := handle, number := number, sent := s.time.elapsed
                   index := index, fragments := fragments, payload := payload }
  sendSanor (s.setPeer d { p with nextSeq := m.seq, unacked := p.unacked ++ [m] }) d m

/-- `a` is at or before `b` among sequence numbers of 32 bits. -/
def seqLe (a b : Nat) : Bool := decide ((b + 2 ^ 32 - a % 2 ^ 32) % 2 ^ 32 < 2 ^ 31)

/-- The cumulative acknowledgement of a destination advances (18 R535). -/
def takeAck (s : State) (d ack : Nat) : State :=
  s.modPeer d fun p => { p with unacked := p.unacked.filter fun m => !seqLe m.seq ack }

/-- A message of a peer in sequence order; duplicates and messages ahead of a gap are not taken. An acknowledgement is due
within 1 ms (18 R535). -/
def accept (s : State) (d seq : Nat) : Bool × State :=
  let p := s.peer d
  if !s.sanorTakes || !p.joined then (false, s)
  else
    let due := some (p.ackDue.getD (s.time.elapsed + 1000000))
    if seq = (p.received + 1) % 2 ^ 32 then (true, s.setPeer d { p with received := seq, ackDue := due })
    else (false, s.setPeer d { p with ackDue := due })

/-- A record of this chapter (18 R546). -/
def State.lnkRecord (s : State) (type cls status : Nat) (p : LnkPl) (inst : Nat := 0xFF) : State :=
  s.emit { s.record type cls (.lnk p) with status := status, inst := inst }

/-! ## Contexts on the link (11 R355, 18 R534) -/

/-- The code of a track's state. -/
def trackCode : TrackState → Nat
  | .free => 0
  | .tentative => 1
  | .confirmed => 2
  | .lost => 3
  | .closed => 4
  | .quarantine => 5

/-- A coordinate box as it lies in a context. -/
def box8 (b : Box) : List Byte :=
  leBytes 2 (twos b.x0 16) ++ leBytes 2 (twos b.y0 16) ++ leBytes 2 (twos b.x1 16) ++ leBytes 2 (twos b.y1 16)

/-- The 256 bytes of a context. -/
def contextBytes (handle : Nat) (t : Track) : List Byte :=
  let opaqueState := (t.opaque_ ++ List.replicate 128 0#8).take 128
  leBytes 4 handle ++ leBytes 1 (trackCode t.state) ++ leBytes 1 t.cls ++ leBytes 1 (t.owner % 4 + 4 * bit t.reverted) ++ leBytes 1 t.misses
    ++ leBytes 2 t.stream ++ leBytes 1 t.account ++ leBytes 1 t.hits ++ leBytes 4 t.revision.toNat ++ leBytes 8 t.identity
    ++ leBytes 8 t.opened ++ leBytes 8 t.updated ++ leBytes 8 t.tick ++ box8 t.box ++ box8 t.vel ++ box8 t.pred
    ++ leBytes 4 (twos t.score 32) ++ leBytes 4 t.gallery ++ leBytes 8 t.zones.toNat
    ++ leBytes 2 t.originDevice ++ leBytes 4 t.originHandle ++ leBytes 2 0 ++ opaqueState ++ List.replicate 32 0#8

/-- A box lies wholly within another. -/
def boxWithin (a b : Box) : Bool := decide (b.x0 ≤ a.x0) && decide (a.x1 ≤ b.x1) && decide (b.y0 ≤ a.y0) && decide (a.y1 ≤ b.y1)

/-- The gallery entry of a track's latest embedding; zeros when it has none. -/
def embeddingOf (s : State) (t : Track) : List Byte :=
  if t.gallery = 0xFFFFFFFF then List.replicate 256 0#8 else s.bytes (s.layout.gallery + 256 * t.gallery) 256

/-- HANDOVER_SEND (18 R538): a confirmed track whose predicted box lies wholly within an edge rectangle goes to that
entry's peer, unless it is in handover. -/
def handoverSend (s : State) (slot : Nat) : State :=
  let t := s.track slot
  let h := slot * 4096 + t.generation
  let busy := s.ledger.handovers.any fun x => x.handle == h && !x.expired
  let entry : Option Adjacency := match s.cfg.peer with
    | some p => p.adjacency.find? fun a => a.stream == t.stream && boxWithin t.pred a.edge && (s.peer a.peer).joined
    | none => none
  match entry with
  | some a =>
    if t.state ≠ TrackState.confirmed ∨ busy ∨ !s.sanorTakes then s
    else
      let s1 := sendMsg s a.peer msgHandover (contextBytes h t ++ embeddingOf s t ++ leBytes 2 a.peerStream) (handle := h)
      let x : Handover := { handle := h, peer := a.peer, sent := s.time.elapsed }
      { s1 with ledger := { s1.ledger with handovers := s1.ledger.handovers ++ [x] } }
  | none => s

/-! ## Gallery queries (18 R540) -/

/-- Peers that answer queries: joined and not isolated. -/
def State.queryPeers (s : State) : List Nat :=
  (s.lnk.peers.filter fun e => e.2.joined && decide (e.2.state ≠ 5)).map (·.1)

/-- QUERY sent to every joined peer that is not isolated, for one query of a KNN command with its local results. -/
def sendQuery (s : State) (cls k out : Nat) (embedding found : List Byte) : State :=
  let ps := s.queryPeers
  if !s.sanorTakes || ps.isEmpty then s
  else
    let n := s.lnk.nextQuery
    let q : Query := { number := n, waiting := ps, entries := [((s.cfg.peer.map (·.device)).getD 0, found)], since := s.time.elapsed, out := out, k := k }
    let s1 := ps.foldl (fun a d => sendMsg a d msgQuery (leBytes 4 n ++ leBytes 1 cls ++ leBytes 1 k ++ embedding) (number := n)) s
    { s1 with lnk := { s1.lnk with nextQuery := n + 1, queries := s1.lnk.queries ++ [q], queriesSent := s1.lnk.queriesSent + BitVec.ofNat 32 ps.length } }

end Sys2Proof.Machine
end

