-- ==== Sys2Proof/Machine/Clearing.lean ====
section
/-! DEFINITION. The clearing engines and the track ledger (11): handles and pools, association, suppression, gallery
search, identities, commits, audits, fences and handoffs. -/

namespace Sys2Proof.Machine

/-! ## Handles, pools and identities (11 R350 to R354) -/

/-- Slots of the ledger and of one pool. -/
def ledgerSlots : Nat := 1048576
def poolSlots : Nat := 262144

/-- The handle of a slot in its present generation. -/
def State.handleOf (s : State) (slot : Nat) : Nat := slot * 4096 + (s.track slot).generation

/-- A live context: tentative, confirmed or lost. -/
def Track.live (t : Track) : Bool := t.state == .tentative || t.state == .confirmed || t.state == .lost

/-- A handle is stale: another generation, or its slot is free or in quarantine (11 R353). -/
def State.stale (s : State) (h : Nat) : Bool :=
  let t := s.track (h / 4096)
  t.generation != h % 4096 || t.state == .free || t.state == .quarantine

/-- Device number in force (11 R350). -/
def State.deviceNumber (s : State) : Nat := (s.cfg.peer.map (·.device)).getD 0

/-- A free slot of pool `q`: those never used come first, then those released, in order. -/
def takeFrom (s : State) (q : Nat) : Option (Nat × State) :=
  let fresh := Table.get 0 q s.ledger.fresh
  if fresh < poolSlots then
    some (q * poolSlots + fresh, { s with ledger := { s.ledger with fresh := Table.set 0 q (fresh + 1) s.ledger.fresh } })
  else match Table.get [] q s.ledger.freed with
    | x :: r => some (x, { s with ledger := { s.ledger with freed := Table.set [] q r s.ledger.freed } })
    | [] => none

/-- Allocation for clearing engine r: its pool, then the next ones (11 R354). -/
def allocSlot (s : State) (r : Nat) : Option (Nat × State) :=
  (List.range 4).foldl (fun (a : Option (Nat × State)) k => match a with
    | some x => some x
    | none => takeFrom s ((r + k) % 4)) none

/-- Free slots and quarantined slots of a pool (11 R366). -/
def State.poolFree (s : State) (q : Nat) : Nat := poolSlots - Table.get 0 q s.ledger.fresh + (Table.get [] q s.ledger.freed).length
def State.poolQuarantined (s : State) (q : Nat) : Nat :=
  (s.ledger.quarantined.filter fun e => e.1 / poolSlots == q).length

def State.ident (s : State) (slot : Nat) : Ident := Table.get {} slot s.ledger.idents
def State.setIdent (s : State) (slot : Nat) (x : Ident) : State :=
  { s with ledger := { s.ledger with idents := Table.set {} slot x s.ledger.idents } }

/-- A record of this chapter (11 R363) about a slot. -/
def State.clrRecord (s : State) (type slot status : Nat) (p : ClrPl) : State :=
  let t := s.track slot
  s.emit { s.record type ucCLR (.clr { p with handle := s.handleOf slot, cls := t.cls, hits := t.hits, identity := t.identity, box := t.box, opened := t.opened })
           with stream := t.stream, account := t.account, tick := t.tick, status := status, inst := t.owner }

/-- A slot joins the tail of its pool (11 R352). -/
def joinTail (s : State) (slot : Nat) : State :=
  let q := slot / poolSlots
  { s with ledger := { s.ledger with freed := Table.set [] q (Table.get [] q s.ledger.freed ++ [slot]) s.ledger.freed } }

/-- Release of a closed slot: the next generation joins the free list, the last one goes into quarantine (11 R352). -/
def releaseSlot (s : State) (slot : Nat) : State :=
  let g := (s.track slot).generation
  if g = 0xFFF ∨ (slot = 1048575 ∧ g = 0xFFE) then
    let s1 := s.clrRecord 0x0306 slot stOK {}
    let s2 := s1.setTrack slot { generation := g, state := .quarantine, quarantineUntil := s.time.elapsed + 3600 * second }
    { s2 with ledger := { s2.ledger with quarantined := Table.set 0 slot (s.time.elapsed + 3600 * second) s2.ledger.quarantined } }
  else joinTail (s.setTrack slot { generation := g + 1 }) slot

/-- A closed slot without children is released and leaves its parent; a parent that is closed and has no child left is
released in turn (11 R346, R358). -/
def releaseClosed : Nat → State → Nat → State
  | 0, s, _ => s
  | n + 1, s, slot =>
    let i := s.ident slot
    if (s.track slot).state ≠ .closed ∨ i.children ≠ 0 then s
    else
      let s1 := (releaseSlot s slot).setIdent slot {}
      match i.parent with
      | none => s1
      | some h =>
        let q := h / 4096
        let pi := s1.ident q
        releaseClosed n (s1.setIdent q { pi with children := pi.children - 1 }) q

/-- A track is closed with a reason; record 0x0302 (11 R346, R363). -/
def closeTrack (s : State) (slot reason status : Nat) : State :=
  let t := s.track slot
  let s1 := s.clrRecord 0x0302 slot status { reason := reason }
  let s2 := (s1.setTrack slot { t with state := .closed }).modClr t.owner fun c => { c with closed := c.closed + 1 }
  releaseClosed 64 s2 slot

/-- The live tracks of a stream, by rising slot (11 R340). -/
def State.liveTracks (s : State) (n : Nat) : List Nat :=
  (s.ledger.tracks.filter fun e => e.2.live && e.2.stream == n).map (·.1)

/-- Every live track of a stream that stops or becomes inactive is closed with reason 3 (11 R346). -/
def closeStreamTracks (s : State) (n : Nat) : State := (s.liveTracks n).foldl (fun a slot => closeTrack a slot 3 stOK) s

/-- QUARANTINE_END (11 R352): the slot joins the tail with generation 0. -/
def execQuarantineEnd (slot : Nat) (s : State) : Out :=
  done (if s.answers && (s.track slot).state == .quarantine then
    let s1 := s.atElapsed (s.track slot).quarantineUntil
    let s2 := joinTail (s1.setTrack slot {}) slot
    { s2 with ledger := { s2.ledger with quarantined := Table.set 0 slot 0 s2.ledger.quarantined } }
  else s)

/-! ## The ledger cache (11 R356, R357) -/

/-- Make room in the set of a slot: the least recently used line of sixteen goes, written back. -/
def evictLine (lines : List Line) (slot : Nat) : List Line :=
  let same := lines.filter fun l => l.slot % 2048 == slot % 2048
  if same.length < 16 then lines
  else
    let oldest := same.foldl (fun m l => min m l.used) (same.headD { slot := 0, dirty := false, firstWrite := 0, used := 0 }).used
    lines.filter fun l => !(l.slot % 2048 == slot % 2048 && l.used == oldest)

/-- The owner's cache takes a write of a slot; `old` is the context before it. -/
def touchLine (s : State) (r slot : Nat) (old : Track) : State :=
  let now := s.time.elapsed
  s.modClr r fun c =>
    let rest := evictLine (c.lines.filter fun l => l.slot != slot) slot
    let line : Line := match c.lines.find? fun l => l.slot == slot with
      | some l => if l.dirty then { l with used := c.useClock } else { l with dirty := true, firstWrite := now, used := c.useClock, copy := old }
      | none => { slot := slot, dirty := true, firstWrite := now, used := c.useClock, copy := old }
    { c with lines := rest ++ [line], useClock := c.useClock + 1 }

/-- A context written through its owner's cache. -/
def writeTrack (s : State) (r slot : Nat) (t : Track) : State :=
  (touchLine s r slot (s.track slot)).setTrack slot t

/-- LEDGER_WRITEBACK (11 R357): a dirty line is written back to DRAM. -/
def execLedgerWriteback (r slot : Nat) (s : State) : Out :=
  done (if s.answers then s.modClr r fun c => { c with
      lines := c.lines.map fun l => if l.slot = slot then { l with dirty := false, copy := {} } else l } else s)

/-! ## Commands (11 R336) -/

structure ClrCmd where
  raw : List Byte
  opcode : Nat
  flags : Nat
  stream : Nat
  countA : Nat
  countB : Nat
  first : Nat
  inA : Nat
  inB : Nat
  out : Nat
  param : Nat
  job : Nat
  number : Nat
  member : Nat
  deriving DecidableEq, Repr

def parseClr (bs : List Byte) : ClrCmd :=
  { raw := bs, opcode := field bs 0 1, flags := field bs 1 1, stream := field bs 2 2, countA := field bs 4 4, countB := field bs 8 4
    first := field bs 12 4, inA := field bs 16 8, inB := field bs 24 8, out := field bs 32 8, param := field bs 40 8
    job := field bs 48 4, number := field bs 52 8, member := field bs 60 1 }

def ClrCmd.anyClass (c : ClrCmd) : Bool := c.flags.testBit 0

/-- The parameter block of a command. -/
def ClrCmd.block (c : ClrCmd) (s : State) : List Byte := s.bytes (s.resolve c.param) 64

/-- The parameters of ASSOC (11 R340). -/
structure AssocParam where
  sim : Nat
  aw : Int
  bw : Int
  rounds : Nat
  gate : Int
  tau : Int
  eps : Int
  confirm : Nat
  lost : Nat
  close : Nat
  alpha : Int
  beta : Int
  deriving DecidableEq, Repr

def parseAssoc (b : List Byte) : AssocParam :=
  { sim := field b 0 8, aw := field b 8 1, bw := field b 9 1, rounds := field b 10 2, gate := sfield b 12 4, tau := sfield b 16 4
    eps := field b 20 4, confirm := field b 24 1, lost := field b 25 1, close := field b 26 1, alpha := field b 28 2, beta := field b 30 2 }

def assocOk (c : ClrCmd) (b : List Byte) : Bool :=
  decide (c.countA ≤ 4096) && decide (c.countB ≤ 4096) && within (field b 10 2) 1 1024 && within (field b 20 4) 1 1048576
    && within (field b 24 1) 1 15 && within (field b 25 1) 1 255 && within (field b 26 1) 2 255 && decide (field b 25 1 < field b 26 1)
    && zeros b 27 1 && within (field b 28 2) 0 256 && within (field b 30 2) 0 256 && zeros b 32 28

def nmsOk (c : ClrCmd) (b : List Byte) : Bool :=
  decide (c.countA ≤ 16384) && within (field b 0 4) 0 65536 && within (field b 4 4) 1 16384 && zeros b 8 52

/-- Address ranges a command reads and writes. -/
def clrRanges (s : State) (c : ClrCmd) : List (Nat × Nat) :=
  let b := c.block s
  if c.opcode = 1 then [(c.inA, 16 * c.countA), (c.inB, 4 * c.countB), (field b 0 8, 4 * c.countA * c.countB)]
  else if c.opcode = 2 then [(c.inA, 16 * c.countA), (c.out, 4 * c.countA)]
  else if c.opcode = 3 then [(c.inA, 256 * c.countA), (c.out, 16 * field b 4 1 * c.countA)]
  else if c.opcode = 4 then [(c.inA, 16 * c.countA)]
  else [(c.inA, 0)]

/-- An address range of a command lies in the map (16 R477). -/
def placed (r : Nat × Nat) : Bool := r.2 == 0 || inDeviceMemory r.1 r.2 || decide (hostBase ≤ r.1)

/-- The start checks of a clearing command: the status of the first that fails (11 R336, R337, R340, R347, R348, 16 R477). -/
def clrCheck (s : State) (opcode : Nat) (c : ClrCmd) : Option Nat :=
  let b := c.block s
  if c.raw.length ≠ 64 ∨ c.opcode ≠ opcode ∨ 4 ≤ c.flags ∨ !zeros c.raw 61 3 ∨ !(c.member < 64 ∨ c.member = 0xFF) then some stRANGE
  else if c.opcode = 1 ∧ !assocOk c b then some stRANGE
  else if c.opcode = 2 ∧ !nmsOk c b then some stRANGE
  else if c.opcode = 3 ∧ !within (field b 4 1) 1 64 then some stRANGE
  else if 65536 < field b 60 4 then some stBOUND
  else if !placed (c.param, 64) || !(clrRanges s c).all placed then some stBOUND
  else none

/-! ## Association (11 R340 to R345) -/

/-- A detection: box, score, class. -/
structure Det where
  box : Box
  score : Int
  cls : Nat
  deriving DecidableEq, Repr

def parseDet (b : List Byte) : Det :=
  { box := { x0 := sfield b 0 2, y0 := sfield b 2 2, x1 := sfield b 4 2, y1 := sfield b 6 2 }, score := sfield b 8 4, cls := field b 12 1 }

/-- The detections of a command's input A. -/
def detsOf (s : State) (c : ClrCmd) : List Det :=
  (List.range c.countA).map fun i => parseDet (s.bytes (s.resolve (c.inA + 16 * i)) 16)

/-- Area of a box, sides below zero taken as zero. -/
def areaOf (b : Box) : Int := max 0 (b.x1 - b.x0) * max 0 (b.y1 - b.y0)

/-- iou16 of two boxes (11 R341). -/
def iou16 (a b : Box) : Int :=
  let i := max 0 (min a.x1 b.x1 - max a.x0 b.x0) * max 0 (min a.y1 b.y1 - max a.y0 b.y0)
  let u := areaOf a + areaOf b - i
  if u = 0 then 0 else i * 65536 / u

/-- The benefit of a pair (11 R341). -/
def benefit (p : AssocParam) (d : Box) (pred : Box) (sim : Int) : Int :=
  p.aw * iou16 d pred + p.bw * max (-1048576) (min 1048575 sim)

/-- What a detection holds. -/
inductive Slotting where
  | open_ | newTrack | track (j : Nat)
  deriving DecidableEq, Repr

/-- The auction: prices by track, holders by track, holdings by detection. -/
structure Auction where
  price : List Int
  holder : List (Option Nat)
  held : List Slotting
  deriving DecidableEq, Repr

/-- The best option of a bidder and the greatest value among the others; ties go to the lowest index, and the new-track
option, which stands last, loses every tie. -/
def bestOption : List (Option Nat × Int) → Option (Option Nat × Int × Int)
  | [] => none
  | o :: r =>
    let pick := r.foldl (fun b x => if b.2 < x.2 then x else b) o
    let others := (o :: r).filter fun x => x.1 != pick.1
    some (pick.1, pick.2, others.foldl (fun m x => max m x.2) (others.headD (pick.1, pick.2)).2)

/-- One bid. `b` gives the benefit of a candidate pair. -/
def bid (p : AssocParam) (b : Nat → Nat → Option Int) (tracks : Nat) (a : Auction) (i : Nat) : Auction :=
  let options := ((List.range tracks).filterMap fun j => (b i j).map fun v => (some j, v - a.price.getD j 0)) ++ [((none : Option Nat), p.tau)]
  match bestOption options with
  | none => a
  | some (none, _, _) => { a with held := a.held.set i .newTrack }
  | some (some j, v1, v2) =>
    let held := match a.holder.getD j none with
      | some h => a.held.set h .open_
      | none => a.held
    { price := a.price.set j (a.price.getD j 0 + (v1 - v2) + p.eps), holder := a.holder.set j (some i), held := held.set i (.track j) }

/-- Rounds of bidding until every detection is assigned or the limit is reached (11 R342). -/
def auctionRounds (p : AssocParam) (b : Nat → Nat → Option Int) (tracks : Nat) : Nat → Auction → Auction
  | 0, a => a
  | n + 1, a =>
    let bidders := (List.range a.held.length).filter fun i => a.held.getD i .open_ == .open_
    if bidders.isEmpty then a else auctionRounds p b tracks n (bidders.foldl (bid p b tracks) a)

/-- The result of ASSOC: assigned pairs (track index, detection), unassigned track indices, new and unresolved detections. -/
structure AssocResult where
  assigned : List (Nat × Nat)
  unassigned : List Nat
  fresh : List Nat
  unresolved : Nat
  deriving DecidableEq, Repr

/-- The handles of input B; none where stale (11 R353). -/
def trackHandles (s : State) (c : ClrCmd) : List (Option Nat) :=
  (List.range c.countB).map fun j =>
    let h := s.word (s.resolve (c.inB + 4 * j)) 4
    if s.stale h || !(s.track (h / 4096)).live || h / 4096 ≥ ledgerSlots then none else some (h / 4096)

/-- ASSOC on its inputs (11 R341, R342). -/
def associate (s : State) (c : ClrCmd) (p : AssocParam) (dets : List Det) (slots : List (Option Nat)) : AssocResult :=
  let b (i j : Nat) : Option Int :=
    match dets[i]?, slots.getD j none with
    | some d, some slot =>
      let t := s.track slot
      let v := benefit p d.box t.pred (signed (s.word (s.resolve (p.sim + 4 * (i * c.countB + j))) 4) 32)
      if (c.anyClass || d.cls == t.cls) && decide (p.gate ≤ v) then some v else none
    | _, _ => none
  let n := slots.length
  let a := auctionRounds p b n p.rounds { price := List.replicate n 0, holder := List.replicate n none, held := List.replicate dets.length .open_ }
  { assigned := (List.range n).filterMap fun j => match slots.getD j none, a.holder.getD j none with
      | some _, some i => some (j, i)
      | _, _ => none
    unassigned := (List.range n).filter fun j => (slots.getD j none).isSome && (a.holder.getD j none).isNone
    fresh := (List.range dets.length).filter fun i => a.held.getD i .open_ == .newTrack
    unresolved := ((List.range dets.length).filter fun i => a.held.getD i .open_ == .open_).length }

/-- Clamp to the signed 16-bit range. -/
def clamp16 (v : Int) : Int := max (-32768) (min 32767 v)

/-- One coordinate after n windows: box, velocity, predicted box (11 R345). -/
def advanceCoord (p : AssocParam) (n : Nat) (box v z : Int) : Int × Int × Int :=
  let pred := box + (v * (n : Int)).fdiv 16
  let r := z - pred
  let b := clamp16 (pred + (r * p.alpha).fdiv 256)
  let w := clamp16 (v + ((r * 16).tdiv (max n 1 : Nat) * p.beta).fdiv 256)
  (b, w, clamp16 (b + w.fdiv 16))

/-- A box made of four coordinates by one function of corresponding coordinates. -/
def mapBox (f : Int → Int → Int → Int) (a b c : Box) : Box :=
  { x0 := f a.x0 b.x0 c.x0, y0 := f a.y0 b.y0 c.y0, x1 := f a.x1 b.x1 c.x1, y1 := f a.y1 b.y1 c.y1 }

/-- Two boxes meet. -/
def boxesMeet (a b : Box) : Bool := decide (a.x0 < b.x1) && decide (b.x0 < a.x1) && decide (a.y0 < b.y1) && decide (b.y0 < a.y1)

/-- Zones of a stream whose areas a box meets (11 R355). -/
def zonesMet (c : Cfg) (n : Nat) (b : Box) : W64 :=
  (c.zonesOf n).foldl (fun m z => if ((zoneArea (c.zone z).rects).map (boxesMeet b)).getD false then m ||| BitVec.ofNat 64 (2 ^ z) else m) 0

/-- A flag of a member's picture (01 R44). -/
def Member.flagged (m : Member) : Bool := m.concealed || m.substituted || m.void

/-- The analysed frame a command issued in region g works for: the member its slot names, else the last analysed frame of its
stream, which a command that names no slot follows. -/
def frameOf (s : State) (g : Nat) (c : ClrCmd) : Option Member :=
  match (s.rolling.filter fun e => e.1 / 64 == g).findSome? fun e =>
      e.2.members.find? fun m => m.slot == c.member && m.stream == c.stream && !m.removed with
  | some m => some m
  | none => (s.stream c.stream).frame

/-- The frame of a job; without one, its stream's last tick under the job's epoch. -/
def ClrJob.frameOr (j : ClrJob) (s : State) (n : Nat) : Member :=
  j.frame.getD { stream := n, tick := (s.stream n).lastTick, epoch := j.epoch, window := ((s.stream n).lastWindow).getD 0 }

/-- The account that the configuration of a job's epoch gives its stream (02 R72, 03 R124). -/
def ClrJob.account (j : ClrJob) (s : State) (c : ClrCmd) : Nat :=
  if c.stream = 0xFFFF then 0xFF else ((s.cfgOf j.epoch).stream c.stream).account

/-- A confirmed track: record 0x0301 and the capture of a sample (11 R346, 13 R392). -/
def confirmTrack (s : State) (slot : Nat) (f : Member) : State :=
  let t := s.track slot
  captureSample (s.clrRecord 0x0301 slot stOK {}) f t.cls t.box

/-- An assigned track is updated (11 R345, R346). -/
def updateTrack (s : State) (r : Nat) (p : AssocParam) (f : Member) (slot : Nat) (d : Det) : State :=
  let t := s.track slot
  let n := max 1 (f.window - t.window)
  let step := fun b v z => advanceCoord p n b v z
  let hits := min 255 (t.hits + 1)
  let confirmed := t.state ≠ .tentative ∨ p.confirm ≤ hits
  let box := mapBox (fun b v z => (step b v z).1) t.box t.vel d.box
  let t1 := { t with
    box := box, vel := mapBox (fun b v z => (step b v z).2.1) t.box t.vel d.box
    pred := mapBox (fun b v z => (step b v z).2.2) t.box t.vel d.box
    hits := hits, misses := 0, score := d.score, revision := t.revision + 1, updated := s.time.now, tick := f.tick
    window := f.window, zones := zonesMet (s.cfgOf f.epoch) t.stream box, reverted := false, state := if confirmed then .confirmed else .tentative }
  let s1 := writeTrack s r slot t1
  if t.state = .tentative ∧ confirmed then confirmTrack s1 slot f else s1

/-- An unassigned track misses a frame: its predicted box advances by one window (11 R346). -/
def missTrack (s : State) (r : Nat) (p : AssocParam) (slot : Nat) : State :=
  let t := s.track slot
  let misses := min 255 (t.misses + 1)
  let t1 := { t with misses := misses, revision := t.revision + 1, pred := mapBox (fun b v _ => clamp16 (b + v.fdiv 16)) t.pred t.vel t.vel }
  if t.state = .tentative then closeTrack (writeTrack s r slot t1) slot 1 stOK
  else if p.close ≤ misses then closeTrack (writeTrack s r slot t1) slot 2 stOK
  else if p.lost ≤ misses then writeTrack s r slot { t1 with state := .lost }
  else writeTrack s r slot t1

/-- A new track in an allocated slot; false when every free list is empty (11 R346, R350, R354). -/
def openTrack (s : State) (r : Nat) (p : AssocParam) (f : Member) (n : Nat) (d : Det) : State × Bool :=
  match allocSlot s r with
  | none => (s, false)
  | some (slot, s1) =>
    let number := s.deviceNumber % 1024 * 2 ^ 54 + s.nextSeq % 2 ^ 54
    let t : Track := { (s1.track slot) with
      state := .tentative, cls := d.cls, owner := r, misses := 0, stream := n, account := ((s.cfgOf f.epoch).stream n).account, hits := 1
      revision := 1, identity := number, opened := s.time.now, updated := s.time.now, tick := f.tick, box := d.box, vel := ⟨0, 0, 0, 0⟩
      pred := d.box, score := d.score, zones := zonesMet (s.cfgOf f.epoch) n d.box, window := f.window }
    let s2 := (writeTrack s1 r slot t).setIdent slot { number := number }
    let s3 := (s2.clrRecord 0x0300 slot stOK {}).modClr r fun c => { c with opened := c.opened + 1 }
    if p.confirm ≤ 1 then (confirmTrack (s3.setTrack slot { t with state := .confirmed }) slot f, true) else (s3, true)

/-- The mask entry of an analysed frame: boxes of live tracks whose class a mask profile names (12 R372). -/
def maskEntry (s : State) (n : Nat) (f : Member) : MaskEntry :=
  let named (cls : Nat) : Bool := (s.cfgOf f.epoch).policies.profiles.any fun m => m.classes.getLsbD cls
  let boxes := ((s.liveTracks n).filter fun k => named (s.track k).cls).map fun k => ((s.track k).cls, (s.track k).box)
  { tick := f.tick, boxes := boxes, bytes := 16 + 16 * boxes.length, stored := s.time.now }

/-- The assigned tracks of a frame are updated and the unassigned ones miss (11 R344). -/
def updateFrame (s : State) (r : Nat) (p : AssocParam) (f : Member) (dets : List Det) (slotOf : Nat → Nat) (a : AssocResult) : State :=
  let s1 := a.assigned.foldl (fun x q => match dets[q.2]? with
    | some d => updateTrack x r p f (slotOf q.1) d
    | none => x) s
  a.unassigned.foldl (fun x j => missTrack x r p (slotOf j)) s1

/-- The detections no track took open tracks in input order; the number that found no slot (11 R344, R354). -/
def openFresh (s : State) (r : Nat) (p : AssocParam) (f : Member) (n : Nat) (dets : List Det) (fresh : List Nat) : State × Nat :=
  fresh.foldl (fun (x : State × Nat) i => match dets[i]? with
    | some d => ((openTrack x.1 r p f n d).1, if (openTrack x.1 r p f n d).2 then x.2 else x.2 + 1)
    | none => x) (s, 0)

/-- Unresolved detections of a frame: counted, and record 0x0307 (11 R344). -/
def noteUnresolved (s : State) (r n : Nat) (f : Member) (count : Nat) : State :=
  if count = 0 then s
  else (s.emit { s.record 0x0307 ucCLR (.clr { count := count }) with stream := n, account := ((s.cfgOf f.epoch).stream n).account, tick := f.tick, epoch := f.epoch, inst := r, status := stBUDGET }).modClr r
    fun e => { e with unresolved := e.unresolved + BitVec.ofNat 64 count }

/-- ASSOC applied at its commit in the order of 11 R344; the frame's detection boxes and the predicted boxes of live tracks go
back to pre-processing as regions of interest, in that order (11 R345, 05 R175). A detection that found no slot counts with the new
tracks (11 R354). -/
def applyAssoc (s : State) (r : Nat) (f : Member) (c : ClrCmd) : State × Nat × Nat × Nat × Nat :=
  let p := parseAssoc (c.block s)
  let dets := detsOf s c
  let slots := trackHandles s c
  let a := associate s c p dets slots
  let s2 := updateFrame s r p f dets (fun j => (slots.getD j none).getD 0) a
  let o := openFresh s2 r p f c.stream dets a.fresh
  let s4 := { o.1 with ledger := { o.1.ledger with secFull := o.1.ledger.secFull + o.2 } }
  let s5 := noteUnresolved s4 r c.stream f a.unresolved
  let s6 := s5.modStream c.stream fun t => { t with boxes := ((f.window, dets.map (·.box) ++ (s5.liveTracks c.stream).map fun k => (s5.track k).pred) :: t.boxes).take 2 }
  (appendMask s6 c.stream (maskEntry s6 c.stream f), if a.unresolved = 0 then stOK else stBUDGET, a.assigned.length,
    a.unassigned.length, a.fresh.length)

/-! ## Suppression (11 R347) -/

/-- Indices sorted by score descending, ties to the lower index. -/
def insertScore (x : Nat × Int) : List (Nat × Int) → List (Nat × Int)
  | [] => [x]
  | y :: r => if y.2 < x.2 then x :: y :: r else y :: insertScore x r

/-- Keep boxes in order until the cap; the boxes after it are cut. -/
def keepBoxes (any : Bool) (theta : Int) (cap : Nat) (dets : List Det) : List Nat → List Nat → Nat → List Nat × Nat × Nat
  | [], kept, sup => (kept, sup, 0)
  | i :: r, kept, sup =>
    if cap ≤ kept.length then (kept, sup, r.length + 1)
    else match dets[i]? with
      | none => keepBoxes any theta cap dets r kept sup
      | some d =>
        let hit := kept.any fun k => match dets[k]? with
          | some e => (any || d.cls == e.cls) && decide (theta < iou16 d.box e.box)
          | none => false
        if hit then keepBoxes any theta cap dets r kept (sup + 1) else keepBoxes any theta cap dets r (kept ++ [i]) sup

/-- NMS: kept indices, suppressed, cut. -/
def suppress (s : State) (c : ClrCmd) : List Nat × Nat × Nat :=
  let b := c.block s
  let dets := detsOf s c
  let order := ((dets.zipIdx).foldl (fun l (d, i) => insertScore (i, d.score) l) []).map (·.1)
  keepBoxes c.anyClass (field b 0 4) (field b 4 4) dets order [] 0

/-! ## Gallery search (11 R348, R349) -/

/-- The tag of a gallery entry. -/
def galleryTag (s : State) (i : Nat) : List Byte := s.bytes (s.layout.galleryTags + 8 * i) 8

/-- The score of an entry for a query: the float reduction of 06 R205 with groups of 8. -/
def galleryScore (s : State) (q : List Nat) (i : Nat) : W32 :=
  let e := unpackCodes fmtN8E4 256 (s.bytes (s.layout.gallery + 256 * i) 256)
  floatReduce 8 0 (List.zipWith (fun a b => exactMul (flOf fmtN8E4 a) (flOf fmtN8E4 b)) q e)

/-- A result entry before another: greater score, ties to the lower index. -/
def scoreBefore (a b : Nat × W32) : Bool := fLt b.2 a.2 || (!fLt a.2 b.2 && decide (a.1 < b.1))

def insertResult (x : Nat × W32) : List (Nat × W32) → List (Nat × W32)
  | [] => [x]
  | y :: r => if scoreBefore x y then x :: y :: r else y :: insertResult x r

/-- The k best entries of a range for a query. -/
def searchGallery (s : State) (query : List Nat) (first count k : Nat) (cls : Option Nat) : List (Nat × W32) :=
  (List.range count).foldl (fun best j =>
    let i := first + j
    let tag := galleryTag s i
    let ok := decide (256 * (i + 1) ≤ s.cfg.galleryBytes) && (field tag 5 1).testBit 0 && (match cls with
      | none => true
      | some v => field tag 4 1 == v)
    if !ok then best
    else
      let v := galleryScore s query i
      if isNan v then best else (insertResult (i, v) best).take k) []

/-- The output entries of a query, filled up to k (11 R349). -/
def resultBytes (s : State) (k : Nat) (xs : List (Nat × W32)) : List Byte :=
  (xs.flatMap fun x => leBytes 4 x.1 ++ leBytes 4 x.2.toNat ++ galleryTag s x.1)
    ++ (List.replicate (k - xs.length) (leBytes 4 0xFFFFFFFF ++ leBytes 12 0)).flatten

/-- KNN: the output bytes and the entries found. -/
def searchAll (s : State) (c : ClrCmd) : List Byte × Nat :=
  let b := c.block s
  let k := field b 4 1
  let rs := (List.range c.countA).map fun q =>
    searchGallery s (unpackCodes fmtN8E4 256 (s.bytes (s.resolve (c.inA + 256 * q)) 256)) c.first c.countB k (if c.anyClass then none else some (field b 0 1))
  (rs.flatMap (resultBytes s k), (rs.map (·.length)).sum)

/-! ## Identities (11 R351) -/

/-- The path from a slot to its root, the slot first. -/
def identPath (s : State) : Nat → Nat → List Nat
  | 0, slot => [slot]
  | n + 1, slot => match (s.ident slot).parent with
    | none => [slot]
    | some h => slot :: identPath s n (h / 4096)

/-- Relink one entry to a root, with the children counts; a closed parent that loses its last child is released. -/
def relink (s : State) (root slot : Nat) : State :=
  let i := s.ident slot
  match i.parent with
  | none => s
  | some h =>
    let q := h / 4096
    if q = root ∨ slot = root then s
    else
      let s1 := s.setIdent slot { i with parent := some (s.handleOf root) }
      let s2 := s1.setIdent root { s1.ident root with children := (s1.ident root).children + 1 }
      let s3 := s2.setIdent q { s2.ident q with children := (s2.ident q).children - 1 }
      releaseClosed 64 s3 q

/-- Find: the root of a slot, and the state with the path relinked. -/
def findRoot (s : State) (slot : Nat) : Nat × State :=
  let path := identPath s 4096 slot
  let root := path.getLastD slot
  (root, path.foldl (fun a x => relink a root x) s)

/-- Merge: the root with the higher number becomes a child of the other; record 0x0303 when a root changed. -/
def mergeIdent (s : State) (a b : Nat) : State × Bool :=
  let (ra, s1) := findRoot s a
  let (rb, s2) := findRoot s1 b
  if ra = rb then (s2, false)
  else
    let (keep, child) := if (s2.ident ra).number ≤ (s2.ident rb).number then (ra, rb) else (rb, ra)
    let s3 := s2.setIdent child { s2.ident child with parent := some (s2.handleOf keep) }
    let s4 := s3.setIdent keep { s3.ident keep with children := (s3.ident keep).children + 1 }
    (s4.clrRecord 0x0303 keep stOK { peerHandle := s4.handleOf child }, true)

/-- Adopt: the root takes the lower of its own and the foreign number; record 0x0303 (11 R351, R363). -/
def adoptIdent (s : State) (a foreign : Nat) : State × Bool :=
  let (ra, s1) := findRoot s a
  let i := s1.ident ra
  let s2 := if foreign < i.number then s1.setIdent ra { i with number := foreign } else s1
  (s2.clrRecord 0x0303 ra stOK {}, decide (foreign < i.number))

/-- One pair of IDENT: state, applied, root changed. A pair of another sub-operation is skipped with those of stale handles. -/
def identPair (s : State) (bs : List Byte) : State × Bool × Bool :=
  let op := field bs 0 4
  let a := field bs 4 4
  let b := field bs 8 4
  if s.stale a ∨ op = 0 ∨ 3 < op then (s, false, false)
  else if op = 2 then ((findRoot s (a / 4096)).2, true, false)
  else if op = 3 then let r := adoptIdent s (a / 4096) (field bs 8 8); (r.1, true, r.2)
  else if s.stale b then (s, false, false)
  else let r := mergeIdent s (a / 4096) (b / 4096); (r.1, true, r.2)

/-- IDENT: pairs in order; counts applied, skipped, roots changed. -/
def applyIdent (s : State) (c : ClrCmd) : State × Nat × Nat × Nat :=
  (List.range c.countA).foldl (fun x i =>
    let r := identPair x.1 (s.bytes (s.resolve (c.inA + 16 * i)) 16)
    (r.1, x.2.1 + bit r.2.1, x.2.2.1 + bit (!r.2.1), x.2.2.2 + bit r.2.2)) (s, 0, 0, 0)

/-! ## Issue -/

/-- A completion of a clearing command (11 R338). -/
def clrComplete (s : State) (r : Nat) (c : ClrCmd) (status : Nat) (c0 c1 c2 : Nat) : State :=
  let s0 := s.trace ucCLR r 0x0020 (leBytes 8 c.number ++ leBytes 4 c.job ++ leBytes 1 c.opcode ++ leBytes 1 status ++ leBytes 2 0)
  s0.modClr r fun e => { e with
    status := status, opcode := c.opcode % 8
    completions := e.completions ++ [{ number := c.number, job := c.job, status := status, member := c.member, c0 := c0, c1 := c1, c2 := c2 }] }

/-- The member or job of a clearing command dies (11 R337, 14 R415). -/
def clrJobFail (s : State) (j : ClrJob) (c : ClrCmd) (status : Nat) : State :=
  if c.stream = 0xFFFF then s
  else
    let a := j.account s c
    if (s.rollingOf j.region a).members.any fun m => m.stream == c.stream && !m.removed then removeMember s j.region a c.stream status c.number
    else restartStream s c.stream

/-- The tracks of the stream are all the engine's own, or their owner is out of service (11 R356, R360). -/
def ownsStream (s : State) (r : Nat) (c : ClrCmd) : Bool :=
  c.opcode != 1 || (s.liveTracks c.stream).all fun k => (s.track k).owner == r || (s.clr (s.track k).owner).fenced

/-- No association of the same stream with an earlier frame waits: two of one stream run in stream-tick order (11 R364). -/
def assocFirst (s : State) (held : List ClrJob) (j : ClrJob) : Bool :=
  let c := parseClr j.cmd
  c.opcode != 1 || held.all fun k =>
    let d := parseClr k.cmd
    d.opcode != 1 || d.stream != c.stream || decide ((j.frameOr s c.stream).tick ≤ (k.frameOr s c.stream).tick)

/-- A command begins to execute when its engine is free; a reverted or orphaned context passes to the engine; the
clock ratio of its die takes effect here (21 R613). -/
def beginNext (s : State) (r : Nat) : State :=
  let e := s.clr r
  if e.job.isSome || e.fenced || !s.mayBegin then s
  else match e.held.find? fun j => ownsStream s r (parseClr j.cmd) && assocFirst s e.held j with
    | none => s
    | some j => s.modClr r fun x => { x with
        job := some j, held := x.held.erase j, ratio := if r / 2 = 0 then s.power.cd0 else s.power.cd1 }

/-- A clearing command issued to the engine of region r: rejected by a start check, or begun, or held while the engine is
busy; IDENT runs on the keeper (11 R336, R337, R351). It carries its frame and epoch stamp with it (02 R72). -/
def issueClr (s : State) (r opcode : Nat) (cmd : List Byte) : State :=
  let c := parseClr cmd
  let f := frameOf s r c
  let j : ClrJob := { cmd := cmd, opcode := opcode, region := r, frame := f, epoch := (f.map (·.epoch)).getD s.stl.epoch.toNat }
  match (if opcode = 4 then s.keeper else s.clrServing r) with
  | none => s
  | some q =>
    match clrCheck s opcode c with
    | some st =>
      let s1 := clrComplete s q c st 0 0 0
      let s2 := if st = stBOUND && !(placed (c.param, 64) && (clrRanges s c).all placed) then
          s1.contained { unit := q, job := c.job, tile := c.number } stBOUND (stream := c.stream) (account := j.account s c)
        else s1
      clrJobFail s2 j c st
    | none => beginNext (s.modClr q fun e => { e with held := e.held ++ [j] }) q

/-- The clearing engine of region r takes commands. -/
def clrTakes (s : State) (r : Nat) : Bool := s.mayBegin && decide (r < 4) && s.regionIssues r

/-- ASSOC (11 R340). -/
def execAssoc (r : Nat) (cmd : List Byte) (s : State) : Out := done (if clrTakes s r then issueClr s r 1 cmd else s)
/-- NMS (11 R347). -/
def execNms (r : Nat) (cmd : List Byte) (s : State) : Out := done (if clrTakes s r then issueClr s r 2 cmd else s)
/-- KNN (11 R348). -/
def execKnn (r : Nat) (cmd : List Byte) (s : State) : Out := done (if clrTakes s r then issueClr s r 3 cmd else s)
/-- IDENT (11 R351). -/
def execIdent (r : Nat) (cmd : List Byte) (s : State) : Out := done (if clrTakes s r then issueClr s r 4 cmd else s)
/-- GATHER (11 R336): the manual gives no table format, so the result is open. -/
def execGather (r : Nat) (cmd : List Byte) (s : State) : Out := done (if clrTakes s r then issueClr s r 5 cmd else s)
/-- SCATTER (11 R336): the manual gives no table format, so the result is open. -/
def execScatter (r : Nat) (cmd : List Byte) (s : State) : Out := done (if clrTakes s r then issueClr s r 6 cmd else s)

/-! ## Commit and abandonment (11 R337, R344) -/

/-- Some input of the command is void. -/
def clrVoid (s : State) (c : ClrCmd) : Bool :=
  ((c.param, 64) :: (clrRanges s c)).any fun q => s.anyVoid (s.resolve q.1) q.2

/-- Confirmed tracks of a stream that lie in an edge rectangle go to its peer (18 R538). -/
def handOver (s : State) (n : Nat) : State := (s.liveTracks n).foldl handoverSend s

/-- The peer queries that a program names after a KNN command, one per query (18 R540), under the job's configuration. -/
def peerQueries (s : State) (m : Nat) (c : ClrCmd) : State :=
  if !Config.peerQuery m c.number then s
  else
    let b := c.block s
    let k := field b 4 1
    let cls := if c.anyClass then 0xFF else field b 0 1
    (List.range c.countA).foldl (fun a q =>
      let out := s.resolve c.out + 16 * k * q
      sendQuery a cls k out (s.bytes (s.resolve (c.inA + 256 * q)) 256) (s.bytes out (16 * k))) s

/-- The effect of a command at its commit: state, status and the three counts. -/
def runClr (s : State) (r : Nat) (j : ClrJob) (c : ClrCmd) : State × Nat × Nat × Nat × Nat :=
  if c.opcode = 1 then
    let x := applyAssoc s r (j.frameOr s c.stream) c
    (handOver x.1 c.stream, x.2)
  else if c.opcode = 2 then
    let (kept, sup, cut) := suppress s c
    (s.store (s.resolve c.out) (kept.flatMap fun i => leBytes 4 i), stOK, kept.length, sup, cut)
  else if c.opcode = 3 then
    let (bs, found) := searchAll s c
    (peerQueries (s.store (s.resolve c.out) bs) (s.cfgOf j.epoch).model.image c, stOK, c.countA, found, 0)
  else if c.opcode = 4 then
    let x := applyIdent s c
    (x.1, stOK, x.2.1, x.2.2.1, x.2.2.2)
  else ({ s with free := s.free + 3 }, stOK, Config.freeNat s.free % 2 ^ 32, Config.freeNat (s.free + 1) % 2 ^ 32, Config.freeNat (s.free + 2) % 2 ^ 32)

/-- The cycles a command ran, charged to the account of its epoch's configuration for the energy of its die, and the DRAM
units its inputs and outputs carried; work of no stream is the device's own (03 R124, R125, R127). -/
def chargeClr (s : State) (r : Nat) (j : ClrJob) (c : ClrCmd) (cycles : Nat) : State :=
  let inDram := (clrRanges s c).filter fun q => placeOf (s.resolve q.1) == .dram
  let bytes := (inDram.map (·.2)).sum + (if c.opcode = 3 then 264 * c.countB else 0)
  let add (t : Till) : Till := { t with
    ms0 := if r < 2 then t.ms0 + cycles else t.ms0, ms1 := if r < 2 then t.ms1 else t.ms1 + cycles }
  if c.stream = 0xFFFF then s
  else (s.modTill (j.account s c) add).chargeDie (j.account s c) bytes

/-- CLEARING_COMMAND_COMMIT (11 R337) after the cycles it ran: every write of the command is applied, its completion written,
the audit drawn, and the next command begins. -/
def execClearingCommandCommit (d : ClrDone) (s : State) : Out :=
  let r := d.engine
  done (match (s.clr r).job with
    | none => s
    | some j =>
      let c := parseClr j.cmd
      if !s.running || clrVoid s c || decide (3000000 < d.cycles) then s
      else
        let (s1, st, c0, c1, c2) := runClr (chargeClr s r j c d.cycles) r j c
        let s2 := (clrComplete s1 r c st c0 c1 c2).modClr r fun e => { e with
          job := none, commands := e.commands + 1, ratio := if r < 2 then s.power.cd0 else s.power.cd1 }
        let q := auditDraw s2 j.region
        beginNext (if q.1 then q.2.modClr r fun e => { e with auditDue := e.auditDue + 1 } else q.2) r)

/-- The command is abandoned and applies nothing; it completes with a status and its member or job dies. -/
def abandonClr (s : State) (r : Nat) (j : ClrJob) (status : Nat) : State :=
  let c := parseClr j.cmd
  clrJobFail ((clrComplete s r c status 0 0 0).modClr r fun e => { e with job := none }) j c status

/-- CLEARING_WATCHDOG_EXPIRY (11 R337): re-executed once; the second expiry fails the job. -/
def execClearingWatchdogExpiry (r : Nat) (s : State) : Out :=
  done (match (s.clr r).job with
    | none => s
    | some j =>
      if !s.running then s
      else
        let c := parseClr j.cmd
        if j.expiries = 0 then
          ((clrComplete (s.corrected srcClearingWatchdog r) r c stBUDGET 0 0 0)).modClr r fun e => { e with job := some { j with expiries := 1 } }
        else
          let s1 := s.contained { source := srcClearingWatchdog, unit := r, job := c.job, tile := c.number } stBUDGET
            (stream := c.stream) (account := j.account s c)
          beginNext (abandonClr s1 r j stBUDGET) r)

/-- CLEARING_VOID_READ (11 R337, 14 R415): a void gallery entry loses its valid bit and the KNN runs again; a void context
is closed with reason 5; otherwise the member or job dies. -/
def execClearingVoidRead (r addr : Nat) (s : State) : Out :=
  done (match (s.clr r).job with
    | none => s
    | some j =>
      if !s.running then s
      else
        let c := parseClr j.cmd
        let g := s.layout.gallery
        if c.opcode = 3 ∧ g ≤ addr ∧ addr < g + s.cfg.galleryBytes then
          let a := s.layout.galleryTags + 8 * ((addr - g) / 256) + 5
          clrComplete (s.store a [s.byte a &&& 0xFE#8]) r c stVOID 0 0 0
        else
          let slot := (addr - s.layout.ledger) / 256
          let s1 := if s.layout.ledger ≤ addr ∧ slot < ledgerSlots ∧ (s.track slot).live then closeTrack s slot 5 stVOID else s
          beginNext (abandonClr s1 r j stVOID) r)

/-- WRITE_LOG_OVERFLOW (11 R337): the write log would grow beyond its planned size. -/
def execWriteLogOverflow (r : Nat) (s : State) : Out :=
  done (match (s.clr r).job with
    | none => s
    | some j => if s.running then beginNext (abandonClr s r j stBOUND) r else s)

/-! ## Fence of a clearing engine (01 R29, R30, 11 R359) -/

/-- A dirty line flushed at a fence: written back, void where it reads with an uncorrectable error (a free choice). -/
def flushLine (s : State) (q : Nat) (failed : Bool) (k : Nat) (l : Line) : State :=
  if !l.dirty then s
  else if failed then s.setTrack l.slot { l.copy with owner := q }
  else if Config.freeBit (s.free + k) && (s.track l.slot).live then closeTrack s l.slot 5 stVOID else s

/-- The dirty lines of a fenced engine go to DRAM through the flush port; when the port has failed (a free choice) the DRAM
copies stand and every context of the engine is marked reverted. -/
def flushCache (s : State) (r q : Nat) : State :=
  let failed := Config.freeBit s.free
  let lines := (s.clr r).lines
  let s1 := ((lines.zipIdx).foldl (fun a (l, k) => flushLine a q failed (k + 1) l) { s with free := s.free }).modClr r fun e => { e with lines := [] }
  let owned := (s1.ledger.tracks.filter fun e => e.2.live && (e.2.owner == r)).map (·.1)
  let s2 := owned.foldl (fun a k => a.setTrack k { a.track k with owner := q, reverted := failed }) s1
  let s3 := { s2 with free := s.free + lines.length + 1 }
  if failed then
    let s4 := s3.contained { source := srcFlush, unit := r } stBOUND
    s4.emit { s4.record 0x0309 ucCLR (.clr { count := owned.length }) with inst := r }
  else s3

/-- A clearing engine is fenced; its command and cache pass to the engine that serves its region now. -/
def fenceClearing (s : State) (r source : Nat) : State :=
  if (s.clr r).fenced then s
  else
    let work := (s.clr r).job.toList ++ (s.clr r).held
    let s1 := s.modClr r fun e => { e with fenced := true, job := none, held := [], strikes := [] }
    let s2 := s1.fenceEvent { source := source, unit := r, second := (s1.clrServing r).getD 0xFF } stOK
    let s3 := match s1.clrServing r with
      | none => s2.modClr r fun e => { e with lines := [] }
      | some q => beginNext ((flushCache s2 r q).modClr q fun e => { e with held := e.held ++ work }) q
    capacityChanged s3 [.clearing r]

/-- CLEARING_AUDIT_COPY (11 R339) of a command that was drawn for audit: a difference is a strike; the third within 24 hours fences the engine. -/
def execClearingAuditCopy (r : Nat) (differs : Bool) (s : State) : Out :=
  done (if s.running && decide (r < 4) && !(s.clr r).fenced && decide (0 < (s.clr r).auditDue) then
    let s1 := { s with flt := { s.flt with auditsRun := s.flt.auditsRun + 1 } }
    let s2 := s1.modClr r fun e => { e with auditDue := e.auditDue - 1 }
    if !differs then s2
    else
      let held := heldStrikes s2 (s2.clr r).strikes ++ [s2.time.elapsed]
      let s3 := ({ s2 with flt := { s2.flt with disagree := s2.flt.disagree + 1 } }).corrected srcClearingAudit r
      let s4 := s3.modClr r fun e => { e with strikes := held }
      let s5 := s4.emit (s4.record 0x0604 ucFLT (.flt { cls := 1, source := srcClearingAudit, unit := r, strikes := held.length }))
      if 3 ≤ held.length then fenceClearing s5 r srcClearingAudit else s5
  else s)

/-! ## Ownership (11 R360) -/

/-- OWNERSHIP_HANDOFF (11 R360): the old owner writes back and drops the stream's lines, and the owner field names the
engine that serves the stream's region. -/
def execOwnershipHandoff (n : Nat) (s : State) : Out :=
  done (if s.running then
    match s.clrServing (s.cfg.stream n).region with
    | none => s
    | some q =>
      let slots := s.liveTracks n
      let s1 := (List.range 4).foldl (fun a r => if r = q then a else a.modClr r fun e => { e with
        lines := e.lines.filter fun l => !slots.contains l.slot }) s
      let s2 := slots.foldl (fun a k => a.setTrack k { a.track k with owner := q }) s1
      beginNext s2 q
  else s)

end Sys2Proof.Machine
end

