-- ==== Sys2Proof/Machine/Mesh.lean ====
section
/-! DEFINITION. Traffic between engines (08 R280 to R288, 09 R304, R305), audit runs (14 R420 to R423) and the handover
of an index (14 R427). -/

namespace Sys2Proof.Machine

/-! ## Sends and parts -/

/-- The pieces of a send written into an engine's memory. -/
def writePieces (s : State) (p : Nat) (pieces : List (Nat × List Byte × Bool)) : State :=
  pieces.foldl (fun a pc => a.store (engineBase p + pc.1) pc.2.1 pc.2.2) s

/-- The engine that receives for a logical index: none while no engine holds it or its handover lasts, and the arrival is
held (08 R288, 14 R427). -/
def receiver (s : State) (l : Nat) : Option Nat :=
  match s.physOf l with
  | some p => if (s.engine p).handoverFrom.isNone then some p else none
  | none => none

/-- The first send of a list that holds, taken out. -/
def takeSend (f : SendOp → Bool) : List SendOp → Option (SendOp × List SendOp)
  | [] => none
  | o :: r => if f o then some (o, r) else (takeSend f r).map fun x => (x.1, o :: x.2)

/-- SEND_COMPLETE (09 R305): the oldest send of engine p whose destination receives. -/
def execSendComplete (p : Nat) (s : State) : Out :=
  done (if s.running then
    match takeSend (fun o => o.part.isNone && (receiver s o.dest).isSome) (s.engine p).sends with
    | none => s
    | some (o, rest) =>
      match receiver s o.dest with
      | none => s
      | some q => settleHalt (writePieces (s.modEngine p fun e => { e with sends := rest }) q o.pieces) p
  else s)

/-- A part joins its combine at the combiner, which holds at most four with arrivals outstanding (08 R282). -/
def joinCombine (cs : List Combine) (job tile part parts : Nat) (empty : Bool) : Option (List Combine) :=
  if cs.any fun b => b.job == job && b.tile == tile then
    some (cs.map fun b => if b.job = job ∧ b.tile = tile then { b with arrived := b.arrived ++ [part], empty := b.empty || empty } else b)
  else if 4 ≤ cs.length then none
  else some (cs ++ [{ job := job, tile := tile, parts := parts, arrived := [part], empty := empty }])

/-- The part has arrived before. -/
def arrivedBefore (cs : List Combine) (job tile part : Nat) : Bool :=
  cs.any fun b => b.job == job && b.tile == tile && b.arrived.contains part

/-- PART_ARRIVAL (08 R280, R282): accumulators land in the combine buffer; a second arrival of a part is discarded and is an
error of its sender; a fifth combine waits at the sender. -/
def partArrival (s : State) (combiner sender job tile part parts : Nat) : State :=
  let e := s.engine combiner
  let sent := takeSend (fun o => o.part == some (job, tile, part, parts) && o.dest == e.logical) (s.engine sender).sends
  let drop (a : State) : State := match sent with
    | some (_, rest) => settleHalt (a.modEngine sender fun y => { y with sends := rest }) sender
    | none => a
  if arrivedBefore e.combines job tile part then
    let s1 := (drop s).modEngine sender fun y => { y with duplicates := y.duplicates + 1 }
    strike (s1.corrected srcDuplicate sender) sender srcDuplicate job tile
  else match sent, joinCombine e.combines job tile part parts ((sent.map (·.1.empty)).getD false) with
    | some (o, _), some cs => writePieces ((drop s).modEngine combiner fun y => { y with combines := cs }) combiner o.pieces
    | _, _ => s

/-- PART_ARRIVAL (08 R282). -/
def execPartArrival (combiner sender job tile part parts : Nat) (s : State) : Out :=
  done (if s.running && (s.engine combiner).handoverFrom.isNone && decide ((s.engine combiner).state = 0) then
    partArrival s combiner sender job tile part parts else s)

/-! ## Halo groups -/

/-- The descriptor of a halo ring in the receiving engine: entry i of the table of its program. -/
def ringDesc (s : State) (p i : Nat) : Option Desc :=
  let e := s.engine p
  let base := match e.running, e.again with
    | some r, _ => some r.issue.descBase
    | none, r :: _ => some r.issue.descBase
    | none, [] => e.descBase
  base.map fun b => parseDesc (s.bytes (s.resolve (b + 32 * i)) 32)

/-- Depth of a ring, at least one group. -/
def Desc.groups (d : Desc) : Nat := max d.depth 1

/-- Bytes of one slot of a ring. -/
def Desc.slotBytes (d : Desc) : Nat := d.size / d.groups

/-- Bytes written granule by granule, each granule with the void marks of the bytes that go to it (07 R244). -/
def storeMarked (s : State) (a : Nat) (bs : List Byte) (marks : List Bool) : State :=
  (piecesOf a bs.length).foldl (fun x pc =>
    x.store (a + pc.1) ((bs.drop pc.1).take pc.2) (((marks.drop pc.1).take pc.2).any id)) s

/-- A group's rows written into its slot, row stride apart, with their void marks (08 R284, R287). -/
def writeGroup (s : State) (d : Desc) (h : HaloMsg) : State :=
  let start := s.resolve d.base + (h.seq % d.groups) * d.slotBytes
  (h.rows.zipIdx).foldl (fun a (r, i) => storeMarked a (start + i * d.rowStride) r (h.void.getD i [])) s

/-- The sender may forward group g on a port: the receiver has released group g - D (08 R285). -/
def forwardable (s : State) (h : HaloMsg) (depth : Nat) : Bool :=
  match s.physOf h.sender with
  | none => true
  | some q => decide ((h.seq + 256 - (s.engine q).haloReleased.getD (opposite h.port) 0) % 256 < depth)

/-- The next group for a port of an engine, taken out of those on their way. -/
def takeGroup (l port : Nat) : List HaloMsg → Option (HaloMsg × List HaloMsg)
  | [] => none
  | h :: r => if h.dest = l ∧ h.port = port then some (h, r) else (takeGroup l port r).map fun x => (x.1, h :: x.2)

/-- HALO_GROUP_RECEIVED (08 R284): the next group in order lands in its ring slot and HALO_STATUS advances. -/
def execHaloGroupReceived (p port : Nat) (s : State) : Out :=
  let e := s.engine p
  done (if s.running && decide (e.state = 0) && e.handoverFrom.isNone then
    match takeGroup e.logical port s.halo with
    | none => s
    | some (h, rest) =>
      match ringDesc s p h.ring with
      | none => s
      | some d =>
        if forwardable s h d.groups then
          let s1 := writeGroup { s with halo := rest } d h
          s1.modEngine p fun y => { y with haloRx := y.haloRx.set port h.seq, haloRing := y.haloRing.set port h.ring }
        else s
  else s)

/-- The first release for a port of a logical engine, taken out of those on their way. -/
def takeRelease (l port : Nat) : List (Nat × Nat × Nat) → Option (Nat × List (Nat × Nat × Nat))
  | [] => none
  | r :: rs => if r.1 = l ∧ r.2.1 = port then some (r.2.2, rs) else (takeRelease l port rs).map fun x => (x.1, r :: x.2)

/-- HALO_RELEASE_ARRIVAL (08 R285): the sender learns how many groups of a port are released. -/
def execHaloReleaseArrival (p port : Nat) (s : State) : Out :=
  done (if s.running then
    match takeRelease (s.engine p).logical port s.haloBack with
    | none => s
    | some (n, rest) => ({ s with haloBack := rest }).modEngine p fun y => { y with haloReleased := y.haloReleased.set port n }
  else s)

/-! ## Audit runs (14 R421 to R423) -/

/-- The audits of a region without one. -/
def dropAudit (s : State) (g : Nat) (a : Audit) : State :=
  s.modRegion g fun r => { r with audits := r.audits.filter (· != a) }

/-- An audit without a verdict: counted as dropped (14 R423). -/
def auditVoid (s : State) (g : Nat) (a : Audit) : State :=
  let s1 := dropAudit s g a
  { s1 with flt := { s1.flt with auditsDropped := s1.flt.auditsDropped + 1 } }

/-- The granules the audited tile wrote marked void. -/
def voidAudited (s : State) (a : Audit) : State :=
  let x := s.tileEnv a.engine a.issue
  voidWrites s x x.attempt.1.flow.writes

/-- Members still in the batch that consumed the results die with AUDIT (14 R423). -/
def failAudited (s : State) (a : Audit) : State :=
  let c := parseTile a.issue.cmd
  if a.issue.inBatch then jobFail s a.engine a.issue c.member stAUDIT 0 c.tile else s

/-- The disagreement is recorded with the engines involved (14 R423). -/
def auditRecord (s : State) (a : Audit) (third addr : Nat) : State :=
  s.emit { s.record 0x0603 ucFLT (.flt { cls := 1, source := srcAudit, unit := a.engine, second := a.auditor, third := third
                                         job := a.completion.job, tile := a.completion.tile, address := addr })
           with status := stAUDIT, account := a.account }

/-- The verdict: strikes, and the audited tile's results voided unless the original stands (14 R423). -/
def auditVerdict (s : State) (a : Audit) (third addr : Nat) (strikeAudited strikeAuditor : Bool) : State :=
  let g := regionOf a.engine
  let s1 := auditRecord (dropAudit s g a) a third addr
  let s2 := if strikeAudited then failAudited (voidAudited s1 a) a else s1
  let s3 := if strikeAudited then strike s2 a.engine srcAudit a.completion.job a.completion.tile else s2
  if strikeAuditor then strike s3 a.auditor srcAudit a.completion.job a.completion.tile else s3

/-- The audit that engine p runs now as auditor (third false) or as third engine. -/
def auditOf (s : State) (p : Nat) (third : Bool) : Option Audit :=
  (s.region (regionOf p)).audits.find? fun a => if third then a.third == some p else a.auditor == p && a.third.isNone

/-- The engine is at a tile boundary, with no zone tile pending, and may run an audit copy (14 R421); under a global stop the verdict
is reached after the release (14 R439). -/
def auditReady (s : State) (p : Nat) : Bool :=
  s.mayBegin && decide ((s.engine p).state = 0) && (s.engine p).running.isNone && (s.engine p).handoverFrom.isNone && !zonePending s p

/-- The run meets a void granule among what the tile reads and what it left. -/
def auditMeetsVoid (s : State) (a : Audit) : Bool :=
  (tileRanges (s.tileEnv a.engine a.issue)).any fun r => s.anyVoid r.1 r.2

/-- The run's cycles go to the audit till, and are no idle time of an account (03 R121, R123). -/
def chargeAudit (s : State) (p : Nat) (a : Audit) : State :=
  (chargeDev s 1 p a.completion.cycles).modEngine p fun e => { e with
    idleSince := min s.time.elapsed (e.idleSince + nsOf e.ratio a.completion.cycles) }

/-- AUDIT_COPY (14 R421): the copy has compared outputs and counts; a difference calls for a third run. -/
def execAuditCopy (p : Nat) (differs void : Bool) (addr : Nat) (s : State) : Out :=
  done (match auditOf s p false with
    | none => s
    | some a =>
      if !auditReady s p then s
      else
        let g := regionOf p
        let s1 := chargeAudit s p a
        if void || auditMeetsVoid s a then auditVoid s1 g a
        else
          let s2 := { s1 with flt := { s1.flt with auditsRun := s1.flt.auditsRun + 1 } }
          if !differs then dropAudit s2 g a
          else
            let s3 := ({ s2 with flt := { s2.flt with disagree := s2.flt.disagree + 1 } }).corrected srcAudit a.engine
            match nextInService s3 (s3.engine p).logical [a.engine, p] with
            | some q =>
              let as := (s3.region g).audits.map fun b => if b = a then { b with third := some q, addr := addr } else b
              s3.modRegion g fun r => { r with audits := as }
            | none => auditVerdict s3 a 0xFF addr true true)

/-- AUDIT_THIRD_RUN (14 R423). -/
def execAuditThirdRun (p : Nat) (agreesOriginal agreesAuditor void : Bool) (s : State) : Out :=
  done (match auditOf s p true with
    | none => s
    | some a =>
      if !auditReady s p then s
      else
        let s1 := chargeAudit s p a
        if void || auditMeetsVoid s a then auditVoid s1 (regionOf p) a
        else if agreesOriginal then auditVerdict s1 a p a.addr false true
        else auditVerdict s1 a p a.addr true (!agreesAuditor))

/-- The hour of elapsed time after which a region's seed is replaced next. -/
def seedDue (s : State) (g : Nat) : Nat := ((s.region g).seedAt / (3600 * second) + 1) * (3600 * second)

/-- AUDIT_SEED_REPLACE (14 R420): at the first tile boundary of a region after the hour. -/
def execAuditSeedReplace (g seed : Nat) (s : State) : Out :=
  done (if s.running && decide (g < 4) then
    let s1 := s.atElapsed (seedDue s g)
    let s2 := s1.modRegion g fun r => { r with seed := seed % 2 ^ 256, draws := 0, seedAt := s1.time.elapsed }
    let known := (List.range 4).any fun r => r != g && (s.region r).seed == seed % 2 ^ 256
    let s3 := if known then s2 else { s2 with flt := { s2.flt with reference := none, candidates := [] } }
    s3.emit { s3.record 0x060B ucFLT (.flt { unit := g }) with inst := g }
  else s)

/-! ## Handover (14 R427) -/

/-- The bytes of one engine's memory copied over another's. -/
def copyEngineBytes (m : List Host.Cell) (src dst : Nat) : List Host.Cell :=
  let b := engineBase src
  let moved := m.filter fun c => decide (b ≤ c.1) && decide (c.1 < b + engineSize)
  let kept := m.filter fun c => !(decide (engineBase dst ≤ c.1) && decide (c.1 < engineBase dst + engineSize))
  moved.foldl (fun a c => Table.set 0#8 (engineBase dst + (c.1 - b)) c.2 a) kept

/-- The void granules of one engine's memory copied over another's. -/
def copyEngineVoids (v : List Nat) (src dst : Nat) : List Nat :=
  let b := granule (engineBase src)
  let n := engineSize / 64
  let moved := v.filter fun g => decide (b ≤ g) && decide (g < b + n)
  let kept := v.filter fun g => !(decide (granule (engineBase dst) ≤ g) && decide (g < granule (engineBase dst) + n))
  moved.foldl (fun a g => insertGranule (granule (engineBase dst) + (g - b)) a) kept

/-- ENGINE_HANDOVER_COPY_COMPLETE (14 R427): the copy ends; granules read with an uncorrectable error land void. -/
def execEngineHandoverCopyComplete (p : Nat) (badGranules : List Nat) (s : State) : Out :=
  done (match (s.engine p).handoverFrom with
    | none => s
    | some (q, _) =>
      if !s.answers then s
      else
        let s1 := { s with mem := copyEngineBytes s.mem q p, voids := copyEngineVoids s.voids q p }
        let s2 := badGranules.foldl (fun a g =>
          if g < engineSize / 64 then a.voidRange (engineBase p + 64 * g) 64 else a) s1
        fenceIfDue (s2.modEngine p fun e => { e with handoverFrom := none, idleSince := s.time.elapsed }) p)

/-- HANDOVER_NO_ANSWER (14 R427): after 100 us without an answer every granule with data in the leaving engine lands void. -/
def execHandoverNoAnswer (p : Nat) (s : State) : Out :=
  done (match (s.engine p).handoverFrom with
    | none => s
    | some (q, since) =>
      if !s.answers then s
      else
        let s1 := s.atElapsed (since + 100000)
        let b := engineBase q
        let live := ((s1.mem.filter fun c => decide (b ≤ c.1) && decide (c.1 < b + engineSize)).map fun c => granule c.1 - granule b)
          ++ ((s1.voids.filter fun g => decide (granule b ≤ g) && decide (g < granule b + engineSize / 64)).map fun g => g - granule b)
        let s2 := live.foldl (fun a g => a.voidRange (engineBase p + 64 * g) 64) s1
        fenceIfDue (s2.modEngine p fun e => { e with handoverFrom := none, idleSince := s1.time.elapsed }) p)

end Sys2Proof.Machine
end

