-- ==== Sys2Proof/Machine/Zones.lean ====
section
/-! DEFINITION. Zone evaluations (15 R451 to R458): tensors, placement on two regions, comparison of outputs with the
third opinion, verdicts, deadlines, the hold, and the SAFE pins (R463 to R465). -/

namespace Sys2Proof.Machine

/-! ## Tensors and placement (15 R451, R452, R457) -/

/-- The logical engine of a region that runs an evaluation: the named index, or the next one in service after it. -/
def zoneEngine (s : State) (g i : Nat) : Option Nat :=
  let l := 16 * g + i % 16
  match s.physOf l with
  | some _ => some l
  | none => (nextInService s l []).map fun p => (s.engine p).logical

/-- The able regions after one, wrapping. -/
def regionsAfter (able : List Nat) (g : Nat) : List Nat := (able.filter (g < ·)) ++ (able.filter (· < g))

/-- The first, second and third regions of an evaluation. -/
def zoneRegions (able : List Nat) (i : Nat) : Option (Nat × Nat × Option Nat) :=
  if able.length < 2 then none
  else
    let first := able.getD (i % able.length) 0
    let after := regionsAfter able first
    match (after.find? fun g => g / 2 != first / 2), after.head? with
    | some second, _ => some (first, second, (regionsAfter able second).find? (· != first))
    | none, some second => some (first, second, (regionsAfter able second).find? (· != first))
    | none, none => none

/-- Place the evaluations of a picture whose zone tensor is complete; with fewer than two regions able every zone of the
stream is occupied. -/
def placeEval (s : State) (p : Picture) (k : Nat) (good : Bool) (age : Nat) : State :=
  match zoneRegions s.ableRegions (p.stream + k) with
  | none => (s.zonesReading p.stream).foldl (fun a z =>
      occupiedBy a z causeAble { arrival := p.arrival, deadline := p.arrival + p.dDec + 19000000 } p.stream p.tick (some p.epoch)) s
  | some (g0, g1, g2) =>
    let i := p.stream + k
    let e : Eval := {
      stream := p.stream, tick := p.tick, epoch := p.epoch, arrival := p.arrival, deadline := p.arrival + p.dDec + 19000000
      good := good, age := age, engines := [(zoneEngine s g0 i).getD 0xFF, (zoneEngine s g1 i).getD 0xFF], width := p.width, height := p.height
      third := g2.bind fun g => zoneEngine s g i }
    let others := s.saf.evals.filter fun x => !(x.decided && x.stream == p.stream)
    noteEval { s with saf := { s.saf with evals := others ++ [e] } } e

/-- Counts of one zone at the completion of a tensor (15 R457, R458): `digest` tells whether it equals its predecessor's,
when the lanes agree. -/
def zoneInput (s : State) (z : Nat) (trusted : Bool) (digest : Option Bool) : State :=
  let x := s.zone z
  let e := match digest with
    | none => x.e
    | some true => x.e + 1
    | some false => 0
  let s1 := s.setZone z { x with e := e, inputThisPeriod := true }
  let s2 := if trusted then s1 else untrustedInput s1 z
  if x.row.fLimit ≤ e then occupyZone s2 z causeUntrusted else s2

/-- The digest of a tensor: the first 8 bytes of SHAKE256 over it (15 R451). -/
def tensorDigest (bs : List Byte) : Nat := leNat (shake256 bs 8)

/-- The zone tensor of a selected picture is complete at `addr`, its lanes' digests off by `lane0` and `lane1`; or the picture
yields none. Both lanes' conversions count (06 R225). -/
def zoneTensor (s : State) (p : Picture) (addr lane0 lane1 : Nat) : State :=
  let zones := s.zonesReading p.stream
  let t := s.stream p.stream
  let (bytes, sats) := zoneTensorOf s p
  let digest := tensorDigest bytes ^^^ lane0
  let s0 := if p.void then s else { s with preConvSat := s.preConvSat + BitVec.ofNat 64 (2 * sats) }
  let s1 := s0.setStream p.stream { t with zoneQueue := t.zoneQueue.filter (·.tick != p.tick) }
  if p.void ∨ lane0 ≠ lane1 then zones.foldl (fun a z => zoneInput a z false none) s1
  else
    let same := t.lastZoneDigest = some digest
    let good := !p.concealed && !p.substituted && !same
    let age := s.time.now - p.arrival
    let s2 := (s1.store addr bytes).modStream p.stream fun y => { y with lastZoneDigest := some digest }
    let s3 := zones.foldl (fun a z => zoneInput a z (good && decide (age ≤ (a.zone z).ageNs)) (some same)) s2
    if (s3.cfgOf p.epoch).zoneModel.isNone then s3 else placeEval s3 p (p.zoneWindow.getD 0) good age

/-- ZONE_TENSOR_COMPLETE (15 R451): lane 0's tensor lies from page `page` of 4 KiB. -/
def execZoneTensorComplete (n tick page : Nat) (lanes : ZoneLanes) (s : State) : Out :=
  done (match (s.stream n).zoneQueue.find? fun p => p.tick == tick with
    | some p => if s.mayBegin then zoneTensor s p (4096 * page) lanes.lane0 lanes.lane1 else s
    | none => s)

/-! ## Outputs (15 R453 to R458) -/

/-- The outcome of a picture in SAF_STATUS; its evaluation is decided. -/
def decideEval (s : State) (x : Eval) (status : Nat) : State :=
  let mask := (List.range 3).foldl (fun m i => m + bit (x.outputs.getD i none).isSome * 2 ^ i) 0
  let s0 := s.trace ucSAF 0xFF 0x0050 (leBytes 2 x.stream ++ leBytes 1 status ++ leBytes 1 mask ++ leBytes 4 0 ++ leBytes 8 x.deadline)
  let s1 := setEval s0 { x with decided := true }
  { s1 with saf := { s1.saf with status := status } }

/-- The verdict of an agreed output for one zone (15 R456, R458, R460, R469). -/
def zoneVerdict (s : State) (x : Eval) (codes : List Int) (z : Nat) : State :=
  let v := s.zone z
  match (s.cellsOf x z).find? fun i => decide (v.row.theta ≤ codes.getD i (-128)) with
  | some i => occupiedBy s z causeVerdict (evalPayload s x causeVerdict 0 i) x.stream x.tick (some x.epoch)
  | none =>
    if x.good && decide (x.age ≤ v.ageNs) then
      let old := x.epoch != s.stl.epoch.toNat && s.saf.epoch == s.stl.epoch.toNat
      let counts := decide (v.since < x.arrival) && !old
      tryClear (s.setZone z { v with u := 0, q := if counts then v.q + 1 else v.q }) z
    else s

/-- Two outputs agree: the verdicts follow, and the engine that Z outvoted receives a strike (15 R455, R456). -/
def agreed (s : State) (x : Eval) (codes : List Int) (minority : Option Nat) : State :=
  let agrees (g : Nat) : Bool := (List.range 3).any fun m =>
    ((x.outputs.getD m none).map fun o => regionOf o.1 == g && o.2 == some codes).getD false
  let s1 := noteResult (decideEval s x stOK) x agrees
  let s2 := match minority with
    | some p => strike (s1.corrected srcMinority p) p srcMinority 0 0
    | none => s1
  (s2.zonesReading x.stream).foldl (fun a z => zoneVerdict a x codes z) s2

/-- No agreement is possible any more: every zone of the stream is occupied, with record 0x0703. -/
def noMajority (s : State) (x : Eval) (cause mapping cell : Nat) : State :=
  let s1 := evalRecords (noteResult (decideEval s x stAUDIT) x fun _ => false) 0x0703 stAUDIT x cause mapping cell
  (s1.zonesReading x.stream).foldl (fun a z =>
    occupiedBy a z cause (evalPayload a x cause mapping cell) x.stream x.tick (some x.epoch)) s1

/-- The codes that mapping m has given, and whether it failed without any. -/
def Eval.codes (x : Eval) (m : Nat) : Option (List Int) := (x.outputs.getD m none).bind (·.2)
def Eval.failed (x : Eval) (m : Nat) : Bool := ((x.outputs.getD m none).map (·.2.isNone)).getD false
def Eval.engineOf (x : Eval) (m : Nat) : Option Nat := (x.outputs.getD m none).map (·.1)

/-- The first cell at which two outputs differ. -/
def firstDiff (a b : List Int) : Nat := ((a.zip b).findIdx? fun e => e.1 != e.2).getD 0xFFFF

/-- The mapping and cell a record about differing or failed outputs names. -/
def differing (x : Eval) : Nat × Nat :=
  if x.failed 0 then (0, 0xFFFF) else match x.codes 0, x.codes 1 with
    | some a, some b => (1, firstDiff a b)
    | _, _ => (1, 0xFFFF)

/-- The comparison of what has arrived (15 R454). -/
def compareOutputs (s : State) (x : Eval) : State :=
  let cx := x.codes 0
  let cy := x.codes 1
  let cz := x.codes 2
  let d := differing x
  match cx, cy, cz with
  | some a, some b, some c =>
    if a = b then agreed s x a none
    else if c = a then agreed s x a (x.engineOf 1)
    else if c = b then agreed s x b (x.engineOf 0)
    else noMajority s x causeMajority d.1 d.2
  | some a, some b, none =>
    if a = b then agreed s x a none
    else if x.third.isNone then noMajority s x causeTwoRegions d.1 d.2
    else if x.thirdStarted then s
    else startThird s x d.1 d.2
  | some a, none, some c => if a = c then agreed s x a none else s
  | none, some b, some c => if b = c then agreed s x b none else s
  | _, _, _ =>
    if !(x.failed 0 || x.failed 1) then s
    else if x.third.isNone then noMajority s x causeTwoRegions d.1 d.2
    else if x.thirdStarted then s
    else startThird s x d.1 d.2

/-- X and Y have just given outputs that differ: the picture counts in SAF_DISAGREE. -/
def countDiffer (s : State) (x : Eval) (m : Nat) : State :=
  match x.codes 0, x.codes 1 with
  | some a, some b => if a ≠ b ∧ m < 2 then { s with saf := { s.saf with disagree := s.saf.disagree + 1 } } else s
  | _, _ => s

/-- The logical engine that mapping m of an evaluation was placed on. -/
def Eval.placedOn (x : Eval) (m : Nat) : Option Nat :=
  if m < 2 then x.engines[m]? else if m = 2 ∧ x.thirdStarted then x.third else none

/-- The output names this evaluation: stream, tick, epoch, mapping and engine (15 R454). -/
def Eval.matches (s : State) (x : Eval) (o : ZoneOutput) : Bool :=
  x.stream == o.stream && x.tick == o.tick && x.epoch == o.epoch
    && ((x.placedOn o.mapping).bind s.physOf) == some o.engine

/-- An output that arrives: unmatched ones are discarded and counted, late ones discarded. -/
def zoneOutput (s : State) (o : ZoneOutput) : State :=
  match s.saf.evals.find? fun x => x.matches s o with
  | none => { s with saf := { s.saf with untrusted := s.saf.untrusted + 1 } }
  | some x =>
    if x.decided ∨ x.deadline ≤ s.time.now ∨ (x.outputs.getD o.mapping none).isSome then s
    else
      let y := { x with outputs := x.outputs.set o.mapping (some (o.engine, o.codes)) }
      let s1 := setEval s y
      let s2 := if o.codes.isSome then { s1 with saf := { s1.saf with evaluations := s1.saf.evaluations + 1 } } else s1
      compareOutputs (countDiffer s2 y o.mapping) y

/-- ZONE_EVAL_OUTPUT (15 R454). -/
def execZoneEvalOutput (o : ZoneOutput) (s : State) : Out := done (if s.mayBegin then zoneOutput s o else s)

/-- No two identical outputs from different regions at d: a missing result (15 R454). -/
def missingResult (s : State) (x : Eval) : State :=
  let s1 := evalRecords (noteResult (decideEval s x stBUDGET) x fun _ => false) 0x0704 stBUDGET x causeMissing 0 0xFFFF
  let s2 := { s1 with saf := { s1.saf with missed := s1.saf.missed + 1 } }
  (s2.zonesReading x.stream).foldl (fun a z =>
    occupiedBy a z causeMissing (evalPayload a x causeMissing 0 0xFFFF) x.stream x.tick (some x.epoch)) s2

/-- A selected picture whose tensor is not complete at its deadline. -/
def unplaced (p : Picture) : Eval :=
  { stream := p.stream, tick := p.tick, epoch := p.epoch, arrival := p.arrival, deadline := p.arrival + p.dDec + 19000000
    good := false, age := 0, engines := [] }

/-- ZONE_DEADLINE (15 R453): the deadline of a picture passes. -/
def execZoneDeadline (n tick : Nat) (s : State) : Out :=
  done (if !s.mayBegin then s
    else match s.saf.evals.find? fun x => x.stream == n && x.tick == tick && !x.decided with
      | some x => missingResult (s.atStation x.deadline) x
      | none => match (s.stream n).zoneQueue.find? fun p => p.tick == tick with
        | some p =>
          let s1 := s.atStation (unplaced p).deadline
          missingResult (s1.modStream n fun t => { t with zoneQueue := t.zoneQueue.filter (·.tick != tick) }) (unplaced p)
        | none => s)

/-! ## Decisions, holds and pins (15 R460, R463 to R465) -/

/-- The moment after which the decision of a zone's next period boundary is late (15 R464). -/
def decisionDue (s : State) (z : Nat) : Nat := (s.zone z).t0 + ((s.zone z).period + 1) * (s.zone z).pz + 1000000

/-- The decision of a zone is late: its channel stops. -/
def decisionLate (s : State) (z : Nat) : State :=
  settleChannel (s.modZone z fun y => { y with decided := false }) (s.zone z).row.channel

/-- ZONE_DECISION_TIMEOUT (15 R464): 1 ms after a boundary its decision has not arrived, so the channel stops. -/
def execZoneDecisionTimeout (z : Nat) (s : State) : Out :=
  done (let x := s.zone z
    if !s.mayBegin ∨ x.state = .off then s
    else
      decisionLate (s.atStation (decisionDue s z)) z)

/-- ZONE_HOLD_EXPIRY (15 R460): the hold passes, and a zone with enough trusted clear inputs earns clear. -/
def execZoneHoldExpiry (z : Nat) (s : State) : Out :=
  done (let x := s.zone z
    if !s.mayBegin ∨ x.state = .off then s
    else tryClear (s.atStation (x.since + x.row.hold * 1000000)) z)

/-- The levels a channel drives: A and B in antiphase while it toggles, both low when it has stopped (15 R463). -/
def Channel.levelA (c : Channel) : Bool := c.toggling && c.highA
def Channel.levelB (c : Channel) : Bool := c.toggling && !c.highA

/-- The second sample in a row that differs latches the channel, with record 0x0706 (15 R465). -/
def senseChannel (s : State) (n : Nat) (sensedA sensedB : Bool) : State :=
  let c := s.channel n
  if sensedA = c.levelA ∧ sensedB = c.levelB then s.setChannel n { c with mismatches := 0 }
  else if c.mismatches = 0 ∨ c.latched then s.setChannel n { c with mismatches := c.mismatches + 1 }
  else
    let s1 := s.setChannel n { c with mismatches := c.mismatches + 1, latched := true }
    settleChannel (s1.emit { s1.record 0x0706 ucSAF (.saf { zone := 0xFF, channel := n, cause := causeReadback }) with inst := n }) n

/-- SAFE_HALF_PERIOD (15 R463): the pins are sensed at the middle of the half period, and at its end a clear channel's
pair changes over. -/
def execSafeHalfPeriod (n : Nat) (sensedA sensedB : Bool) (s : State) : Out :=
  done (if s.answers && decide (n < 16) then
    let s1 := senseChannel s n sensedA sensedB
    let c := s1.channel n
    if c.toggling then s1.setChannel n { c with highA := !c.highA } else s1
  else s)

end Sys2Proof.Machine
end

