-- ==== Sys2Proof/Machine/Stop.lean ====
section
/-! DEFINITION. Global stops (14 R434 to R438): the stop token, work abandoned under the immediate flag, the cut, the
chip-fatal errors and the safe state; and the zone period boundary, whose self-check can be chip-fatal (15 R458, R464). -/

namespace Sys2Proof.Machine

/-! ## Abandoned work (14 R436) -/

/-- The running tile of every engine abandoned with cause 5 and its transfers with it under the immediate flag; an engine at a
boundary halts once nothing of it is pending (07 R251, R253, 14 R436). -/
def stopEngines (s : State) (immediate : Bool) : State :=
  (List.range 72).foldl (fun a p =>
    let a1 := if immediate then abandonDmas a p else a
    match (a1.engine p).running with
    | some r => if immediate then abandonTile a1 p 5 stSTATE (cyclesSince a1 p r) 0 else a1
    | none => if (a1.engine p).state ≤ 1 then settleHalt a1 p else a1) s

/-- The command of every clearing engine abandoned: it waits again. -/
def stopClearing (s : State) : State :=
  (List.range 4).foldl (fun a r => match (a.clr r).job with
    | some j => a.modClr r fun e => { e with job := none, held := j :: e.held }
    | none => a) s

/-- The picture of every decode engine abandoned: its unit stands at the head of its stream again. -/
def stopDecode (s : State) : State :=
  (List.range 18).foldl (fun a d =>
    let e := a.dec d
    match e.job, e.replay with
    | some (n, u), none =>
      (a.modStream n fun t => { t with es := u :: t.es, esBytes := t.esBytes + u.bytes, inDecode := false }).modDec d fun x => { x with job := none }
    | some _, some ident =>
      let outputs := a.evidence.outputs.map fun o => if !o.live && o.req.ident == ident then { o with replayed := o.replayed - 1 } else o
      ({ a with evidence := { a.evidence with outputs := outputs } }).modDec d fun x => { x with job := none, replay := none }
    | none, _ => a) s

/-- The picture of every account in pre-processing abandoned: it stands at the front of its queue again. -/
def stopPreprocess (s : State) : State :=
  s.accts.foldl (fun a e => match e.2.current with
    | some p => a.modAcct e.1 fun x => { x with current := none, queue := p :: x.queue }
    | none => a) s

/-! ## The token and the cut (14 R435 to R437, R443) -/

/-- A stop token: from its arrival no unit begins a new work item, and every SAFE pair is static. -/
def globalStop (s : State) (immediate fatal : Bool) : State :=
  let s1 := { s with flt := { s.flt with stopPhase := 1, immediate := immediate, fatal := fatal, state := if fatal then 3 else 1 } }
  let s2 := stopEngines s1 immediate
  let s3 := if immediate then stopPreprocess (stopDecode (stopClearing s2)) else s2
  settleChannels s3

/-- A halo group that can reach its ring: its receiver has an engine and room (08 R285, 14 R436). -/
def deliverable (s : State) (h : HaloMsg) : Bool :=
  match receiver s h.dest with
  | none => false
  | some p => decide ((s.engine p).state = 0) && (match ringDesc s p h.ring with
    | some d => forwardable s h d.groups
    | none => false)

/-- Units not yet at their cut (14 R436, R443). -/
def State.stopPending (s : State) : Nat :=
  if s.flt.stopPhase ≠ 1 then 0
  else
    let engines := (s.engines.filter fun e =>
      e.2.running.isSome || (e.2.dmas.any fun d => d.waits.isNone) || !e.2.sends.isEmpty).length
    let clrs := (s.clrs.filter fun e => e.2.job.isSome).length
    let decs := (s.decs.filter fun e => e.2.job.isSome).length
    let pre := (s.accts.filter fun e => e.2.current.isSome).length
    engines + clrs + decs + min 1 pre + (s.dbg.watches.filter fun e => e.2.state == 2).length + bit (!s.journal.waiting.isEmpty)
      + (s.halo.filter (deliverable s)).length

/-- STOP_CUT_COMPLETE (14 R437): every unit has reached its cut. -/
def execStopCutComplete (s : State) : Out :=
  done (if s.flt.stopPhase = 1 ∧ s.stopPending = 0 then
    { s with flt := { s.flt with stopPhase := 2, state := if s.flt.fatal then 3 else 2 } }
  else s)

/-! ## Chip-fatal errors (14 R434) -/

/-- The pending settlement is discarded without a record (02 R78). -/
def discardPending (s : State) : State :=
  let s1 := match s.stl.batch with
    | some b => s.setPage b.src { s.page b.src with phase := 5 }
    | none => s
  let s2 := match s1.stl.update with
    | some u => s1.setPage u.src { s1.page u.src with phase := 5 }
    | none => s1
  { s2 with stl := { s2.stl with batch := none, update := none }, switch := none }

/-! ## The end of an unlock (19 R566, 20 R592, R595, R598) -/

/-- A permission bit of the unlock in force (19 R564). -/
def State.permits (s : State) (b : Nat) : Bool := s.sec.perm.toNat.testBit b

/-- Test multiplexer groups may be used (20 R592). -/
def State.obsUsable (s : State) : Bool := decide (s.fuses.lifecycle ≤ 1) || s.permits 0

/-- Private JTAG instructions may be selected (20 R595). -/
def State.privateAllowed (s : State) : Bool := decide (s.fuses.lifecycle = 0) || s.permits 1

/-- The OBS pins return low, with record 0x0A02. -/
def obsOff (s : State) : State :=
  if !s.pins.obsActive then s
  else
    let s1 := { s with pins := { s.pins with obsActive := false }, dbg := { s.dbg with obsEnable := false } }
    s1.emit (s1.record 0x0A02 ucDBG (.dbg { code := s.dbg.obsGroup }))

/-- The OBS pins and the JTAG port under the permissions and the lifecycle as they now stand. -/
def checkAccess (s : State) : State :=
  let s1 := if s.obsUsable then s else obsOff s
  if 0x80 ≤ s1.dbg.jtag ∧ s1.dbg.jtag ≤ 0xFE ∧ !s1.privateAllowed then { s1 with dbg := { s1.dbg with jtag := 0xFF } } else s1

/-- An unlock ends: its permissions end at once, with record 0x0904. A debug halt made under it is released by the caller. -/
def dropUnlock (s : State) : State :=
  if s.sec.unlockEnd.isNone then s
  else
    let s1 := { s with sec := { s.sec with perm := 0, unlockEnd := none } }
    checkAccess (s1.emit (s1.record 0x0904 ucSEC (.sec { lifecycle := s.fuses.lifecycle })))

/-- What a chip-fatal error does to security and observation: the unlock ends, the trace stops, armed watches end with STATE,
the OBS pins are low (19 R566, 20 R579, R598). -/
def stopObservation (s : State) : State :=
  let s1 := obsOff (stopWatches (dropUnlock s) stSTATE fun _ x => x.state == 1)
  { s1 with dbg := { s1.dbg with traceState := if s1.dbg.traceState = 1 then 3 else s1.dbg.traceState } }

/-- A chip-fatal error: the safe state, with FAULT_N low, the Ethernet transmitters idle, an immediate stop, and record
0x0609 in the reserve and in the flash summary. -/
def chipFatal (s : State) (source unit_ : Nat) : State :=
  if s.phase = .inReset ∨ s.phase = .safe then s
  else
    let s1 := globalStop s true true
    let s2 := discardPending { s1 with
      phase := .safe
      pins := { s1.pins with faultLow := true, ethIdle0 := true, ethIdle1 := true }
      flt := { s1.flt with lastClass := 3, fatalSource := source }
      flash := { s1.flash with writes := s1.flash.writes ++ [.safeState s1.time.now] } }
    let s3 := s2.emit (s2.record 0x0609 ucFLT (.flt { cls := 4, source := source, unit := unit_ }))
    (stopObservation (settleChannels s3)).raise 3

/-- CHIP_FATAL (14 R434). -/
def execChipFatal (source unit_ : Nat) (s : State) : Out := done (chipFatal s source unit_)

/-- SUPPLY_MONITOR_FAULT (14 R412): a supply or clock monitor out of range, or a self-check of the safety unit or the
fault manager failed. -/
def execSupplyMonitorFault (selfCheck : Bool) (unit_ : Nat) (s : State) : Out :=
  done (chipFatal s (if selfCheck then srcSelfCheck else srcMonitor) unit_)

/-! ## The zone period boundary (15 R458, R464, 02 R77) -/

/-- A boundary of zone z: a safety settlement that is due applies to it; otherwise a period without input counts, and the
decision goes to the channel. -/
def zoneBoundary (s : State) (z : Nat) : State :=
  let due := s.stl.safetyZones.any fun e => e.1 == z && decide (e.2 ≤ s.time.now)
  if due then safetyApply s z
  else
    let x := s.zone z
    let s1 := notePeriod (s.setZone z { x with period := x.period + 1, inputThisPeriod := false, decided := true }) z
    let s2 := if x.inputThisPeriod then s1 else untrustedInput s1 z
    settleChannel s2 x.row.channel

/-- ZONE_PERIOD_BOUNDARY (15 R458): with the comparator's self-check, whose failure is chip-fatal. -/
def execZonePeriodBoundary (z : Nat) (selfCheckOk : Bool) (s : State) : Out :=
  done (let x := s.zone z
    if !s.mayBegin ∨ x.state = .off then s
    else
      let s1 := zoneBoundary (s.atStation (x.t0 + (x.period + 1) * x.pz)) z
      if selfCheckOk then s1 else chipFatal s1 srcSelfCheck 0xFF)

end Sys2Proof.Machine
end

