-- ==== Sys2Proof/Machine/Controllers.lean ====
section
/-! DEFINITION. Region and chip controllers (01 R26 to R28, 14 R433): watchdogs, restarts, the fence of a region and the
settlement that moves its streams; the failed start that ends a charter update (02 R90), and the settlement of
one (02 R88). -/

namespace Sys2Proof.Machine

/-- Windows of 14 R412 in elapsed time. -/
def hour : Nat := 3600 * second

/-! ## Streams of a fenced region (14 R433) -/

/-- One stream moved to the lowest other region of its account's mask that is not fenced and has room (check 9). -/
def moveStream (s : State) (c : Cfg) (n : Nat) : Option Cfg :=
  let row := c.stream n
  let try_ (g : Nat) : Cfg := { c with streams := Table.set {} n { row with region := g } c.streams }
  let fit := (List.range 4).find? fun g =>
    g != row.region && (c.account row.account).mask.testBit g && !(s.region g).fenced && regionFits s (try_ g) g
  fit.map try_

/-- The active streams of a region: zone streams first, then the others, by rising number. -/
def streamsToMove (c : Cfg) (g : Nat) : List Nat :=
  let own := c.active.filter fun e => e.2.region == g
  ((own.filter fun e => e.2.zone) ++ (own.filter fun e => !e.2.zone)).map (·.1)

/-- The configuration with every stream moved that fits, the streams moved, and how many stay. -/
def moveAll (s : State) : List Nat → Cfg → List Nat → Nat → Cfg × List Nat × Nat
  | [], c, moved, stay => (c, moved, stay)
  | n :: r, c, moved, stay => match moveStream s c n with
    | some c1 => moveAll s r c1 (moved ++ [n]) stay
    | none => moveAll s r c moved (stay + 1)

/-- Internal firmware stages the settlement that moves the streams of a fenced region; while another batch is pending the
commit is rejected and tried again (02 R87 example); streams that do not fit are counted in record 0x0605. -/
def stageMove (s : State) (g : Nat) : State :=
  if s.stl.batch.isSome || s.stl.update.isSome then
    let s1 := s.countReject 2 0x04
    { s1 with stl := { s1.stl with moves := s1.stl.moves.filter (· != g) ++ [g] } }
  else
    let (c, moved, stay) := moveAll s (streamsToMove s.cfg g) s.cfg [] 0
    let s0 := { s with stl := { s.stl with moves := s.stl.moves.filter (· != g) } }
    let es : List Entry := moved.map fun n =>
      { kind := 2, flags := 0, table := 4, index := n, value := s.layout.internalBuffer, mask := 64, rest := 0 }
    let s1 := if moved.isEmpty then s0 else internalBatch s0 es c (s0.time.now + second) false false
    if stay = 0 then s1
    else s1.emit (s1.record 0x0605 ucFLT (.flt { cls := 3, source := srcRegionWatchdog, unit := g, count := stay }))

/-- A move that waited for a pending batch is staged once none is. -/
def stageWaiting (s : State) : State :=
  match s.stl.moves with
  | [] => s
  | g :: _ => if s.stl.batch.isSome || s.stl.update.isSome then s else stageMove s g

/-! ## Fence of a region (14 R433) -/

/-- The region leaves service with its engines and its clearing engine; only a reset returns it. A tile that runs is abandoned for no
cause of 07 R251, so it ends as any tile does; the engine's other work is gone. -/
def fenceRegion (s : State) (g : Nat) : State :=
  let s1 := (enginesOf g).foldl (fun a p => a.modEngine p fun e =>
    let out : Engine := { e with
      state := if e.state = 3 then 3 else 2, logical := 0xFF, again := [], slice := none, fencePending := false, handoverFrom := none }
    if e.running.isSome then out else { out with pipe := {}, dmas := [], sends := [], combines := [] }) (missingRegion s g)
  let s2 := s1.modRegion g fun r => { r with state := 3, fenced := true, degraded := true, audits := [] }
  let s3 := s2.fenceEvent { source := srcRegionWatchdog, unit := g } stOK
  let s4 := checkAble (fenceClearing s3 g srcRegionWatchdog)
  stageMove (capacityChanged s4 [.region g]) g

/-! ## Restarts (01 R26, R27) -/

/-- Audits of a region outstanding at its restart are dropped and counted (14 R439). -/
def dropRegionAudits (s : State) (g : Nat) : State :=
  let n := (s.region g).audits.length
  let s1 := s.modRegion g fun r => { r with audits := [] }
  { s1 with flt := { s1.flt with auditsDropped := s1.flt.auditsDropped + BitVec.ofNat 16 n } }

/-- Samples that wait in a restarting region are carried by other regions as far as their capacity allows (01 R27). -/
def rehome (s : State) (g : Nat) : State :=
  (s.rolling.filter fun e => e.1 / 64 == g).foldl (fun a e =>
    e.2.waiting.foldl (fun x p => queueSample x (e.1 % 64) p) (a.setRolling g (e.1 % 64) { a.rollingOf g (e.1 % 64) with waiting := [] })) s

/-- A restart extends a model switch by the time it takes to restart and reload (03 R135). -/
def extendSwitch (s : State) (g : Nat) : State :=
  { s with switch := s.switch.map fun x =>
    if x.cutAt.isSome then { x with deadline := x.deadline + (s.time.elapsed - max ((x.cutAt).getD 0) (s.region g).restartedAt) } else x }

/-- The controller of a region restarts: its evaluations are missing, its audits dropped, its adaptation step lost; the
third restart within 3,600 s fences the region. -/
def restartRegion (s : State) (g : Nat) : State :=
  let times := recent s.time.elapsed hour (s.region g).restartTimes ++ [s.time.elapsed]
  let s1 := s.modRegion g fun r => { r with state := 1, restarts := r.restarts + 1, restartTimes := times, restartedAt := s.time.elapsed }
  let s2 := missingRegion (dropRegionAudits (stopWatches s1 stVOID fun _ x => x.state == 2 && watchRegion s1 x.req == g) g) g
  let s3 := if s2.adapt.regions.testBit g then restartJob s2 3 else s2
  let s4 := checkAble (rehome s3 g)
  if 3 ≤ times.length then fenceRegion s4 g else capacityChanged s4 [.region g]

/-! ## A charter update that fails at a start (02 R90) -/

/-- The payload of record 0x0104: the charter version is the new slot's. -/
def updatePayload (s : State) (u : Update) (reason : Nat) : StlPl :=
  { source := srcCode u.src, reason := reason, slotA := s.boot.slotA, slotB := s.boot.slotB, running := s.boot.running
    instant := u.instant, charter := (readSlot s u.slot).version }

/-- The update ends with STATE and reason firmware start, and its tables go without effect; the controllers already restarted return
in reverse order, but for the one that `restarting` names, which the fault manager restarts itself. STL_STATUS then shows phase 0,
which the manual does not say (log entry 198). -/
def failUpdate (s : State) (restarting : Option Ctrl) : State :=
  match s.stl.update with
  | none => s
  | some u =>
    let s1 := s.setPage u.src { s.page u.src with status := stSTATE, reason := 18, phase := 0 }
    let back := u.done.reverse.filter fun c => some c != restarting
    let s2 := { s1 with stl := { s1.stl with
      update := none, rollback := back, batch := s1.stl.batch.filter fun b => !b.charter } }
    s2.emit { s2.record 0x0104 ucSTL (.stl (updatePayload s u 18)) with status := stSTATE }

/-- The update's settlement has not taken effect. -/
def Update.open_ (s : State) : Bool := !((s.stl.batch.map fun b => b.charter && !b.before).getD false)

/-- A controller that the update has restarted fails before its tables take effect. -/
def failIfRestarted (s : State) (c : Ctrl) (restarting : Bool) : State :=
  match s.stl.update with
  | some u => if u.done.contains c && !u.drained && Update.open_ s then failUpdate s (if restarting then some c else none) else s
  | none => s

/-- CONTROLLER_START_FAILURE (02 R90). -/
def execControllerStartFailure (c : Ctrl) (s : State) : Out := done (if s.running then failIfRestarted s c false else s)

/-- REGION_WATCHDOG_EXPIRY (01 R26): 10 ms without service of the watchdog; record 0x0608. -/
def execRegionWatchdogExpiry (g : Nat) (s : State) : Out :=
  done (if s.running && decide (g < 4) && decide ((s.region g).state = 0) then
    let s1 := s.contained { source := srcRegionWatchdog, unit := g } stBUDGET (type := 0x0608)
    restartRegion (failIfRestarted s1 (.region g) true) g
  else s)

/-- REGION_RESTART_COMPLETE (01 R27): the controller has reloaded the configuration in force and its region resumes. -/
def execRegionRestartComplete (g : Nat) (s : State) : Out :=
  done (if s.answers && decide (g < 4) && decide ((s.region g).state = 1) && !(s.region g).fenced
      && decide (s.time.elapsed ≤ (s.region g).restartedAt + 50000000) then
    capacityChanged ((extendSwitch s g).modRegion g fun r => { r with state := 0 })
  else s)

/-- REGION_RESTART_TIMEOUT (14 R433): the restart has exceeded 50 ms; a charter update that restarted the region fails (02 R90). -/
def execRegionRestartTimeout (g : Nat) (s : State) : Out :=
  done (if s.running && decide (g < 4) && decide ((s.region g).state = 1) && !(s.region g).fenced then
    fenceRegion (failIfRestarted (extendSwitch (s.atElapsed ((s.region g).restartedAt + 50000000 + 1)) g) (.region g) true) g
  else s)

/-! ## The chip controller (01 R28) -/

/-- The batch pending before its instant is discarded, and remembered for record 0x0103. -/
def discardForRestart (s : State) : State :=
  match s.stl.batch with
  | some b =>
    if b.before then
      let s1 := dropBatch s b stSTATE 0 0
      { s1 with stl := { s1.stl with discarded := some (batchPayload b 0 0 0xFFFF) } }
    else s
  | none => s

/-- CHIP_WATCHDOG_EXPIRY (01 R28): 100 ms without service; the third restart within 3,600 s is chip-fatal. -/
def execChipWatchdogExpiry (s : State) : Out :=
  done (if (s.phase = .running ∨ s.phase = .quiet) ∧ s.flt.chipRestarting = false then
    let times := recent s.time.elapsed hour s.flt.chipRestarts ++ [s.time.elapsed]
    if 3 ≤ times.length then chipFatal s srcChipWatchdog 0xFF
    else
      let s1 := failIfRestarted (s.contained { source := srcChipWatchdog } stBUDGET (type := 0x0608)) .chip true
      let s2 := discardForRestart s1
      capacityChanged { s2 with flt := { s2.flt with chipRestarting := true, chipRestarts := times } }
  else s)

/-! ## The settlement of a charter update (02 R88 step 5) -/

/-- A place for a new image that the image in force does not use. -/
def freshArea (used a b : Nat) : Nat := if used = a then b else a

/-- A section of a slot equals the image in force at an address. -/
def sameSection (s : State) (x : Slot) (type at_ : Nat) : Bool := match x.find type with
  | some y => s.bytes at_ y.len == s.sectionBytes x y
  | none => false

/-- The configuration that a charter update settles: the new tables; the models in force where the new ones equal them; registers
that only settlements change keep their values. -/
def updateCfg (s : State) (u : Update) : Cfg :=
  let x := readSlot s u.slot
  let zoneNow := (s.cfg.zoneModel.map (·.image)).getD 0
  let fresh := charterCfg s x (freshArea s.cfg.model.image s.layout.modelArea s.layout.modelStaging)
    (freshArea zoneNow s.layout.zoneModel (s.layout.zoneModel + 0x10000000))
  { fresh with
    regs := s.cfg.regs
    model := if sameSection s x 3 s.cfg.model.image then s.cfg.model else fresh.model
    zoneModel := if s.cfg.zoneModel.isSome && sameSection s x 6 zoneNow then s.cfg.zoneModel else fresh.zoneModel }

/-- The batch of a charter update: it takes effect at the later of the instant and the end of step 4, which is now; where that is
now, the units prepare at once (log entry 199). -/
def updateBatch (s : State) (u : Update) (c : Cfg) : Batch :=
  { src := u.src, entries := [], at_ := .time (max u.instant s.time.now), waiting := allUnits, new := c, charter := true
    modelSwitch := c.model != s.cfg.model
    safety := c.zones != s.cfg.zones || c.zoneModel != s.cfg.zoneModel }

/-- The models of a slot that differ from those in force, loaded to where the new set has them. -/
def loadModels (s : State) (x : Slot) (old new : Cfg) : State :=
  let s1 := if new.model = old.model then s else loadSection s x 3 new.model.image
  if new.zoneModel = old.zoneModel then s1 else loadSection s1 x 6 ((new.zoneModel.map (·.image)).getD 0)

/-- The batch of an update's charter, pending; the slot's firmware is the one in use. -/
def stagedUpdate (s : State) (u : Update) (x : Slot) (c : Cfg) : State :=
  { s with
    boot := { s.boot with firmwareVersion := x.firmware }
    stl := { s.stl with batch := some (updateBatch s u c), update := some { u with settled := true } } }

/-- A staged charter after its checks: aborted, or its models loaded. -/
def chartered (s : State) (x : Slot) (old new : Cfg) : Option Failure → State
  | some f => abortOnCheck s f
  | none => loadModels s x old new

/-- Step 5: the new tables, and a new model that differs, are checked and prepared as one settlement; the firmware of the new slot
is then resident. A check that fails aborts the settlement, and with it the update, as R74 does. -/
def stageCharter (s : State) (u : Update) : State :=
  let x := readSlot s u.slot
  let c := updateCfg s u
  let s1 := stagedUpdate s u x c
  chartered s1 x s.cfg c (charterChecks s1 x s.cfg c)

/-- The chip controller was the last of a rolling restart: step 4 has ended. -/
def endRolling (s : State) : State :=
  match s.stl.update with
  | some u => if u.todo.isEmpty && !u.settled && u.done.getLast? == some .chip then stageCharter s u else s
  | none => s

/-- CHIP_CONTROLLER_RESTARTED (01 R28): it runs again, and record 0x0103 tells of a batch it discarded. -/
def execChipControllerRestarted (s : State) : Out :=
  done (if s.flt.chipRestarting && s.answers then
    let s1 := { s with flt := { s.flt with chipRestarting := false }, stl := { s.stl with discarded := none } }
    endRolling (match s.stl.discarded with
      | some p => s1.emit { s1.record 0x0103 ucSTL (.stl p) with status := stSTATE }
      | none => s1)
  else s)

end Sys2Proof.Machine
end

