-- ==== Sys2Proof/Machine/Net.lean ====
section
/-! DEFINITION. The Ethernet ports and the Sanor link (18): frames and their claims, links, heartbeats and membership,
handovers, peer queries, replicas and stream failover. -/

namespace Sys2Proof.Machine

/-! ## Ports (18 R527 to R529) -/

/-- A frame's size is one the port takes: 64 to 1,518 bytes, 4 more with its tag. -/
def frameSizeOk (f : Frame) : Bool := within f.size 64 (1518 + 4 * f.tags) && decide (f.tags ≤ 1)

/-- Who claims a frame (18 R529): none when it is dropped. -/
inductive Claim where
  | ptp | answer | sanor | ingest
  deriving DecidableEq, Repr

def claimOf (s : State) (port : Nat) (f : Frame) : Option Claim :=
  let ip := (s.cfg.peer.map fun p => p.ip.getD port 0).getD 0
  match f.kind with
  | .ptp => some .ptp
  | .arp t => if ip ≠ 0 ∧ ip < 2 ^ 32 ∧ t = ip then some .answer else none
  | .neighborSolicitation t => if ip ≠ 0 ∧ 2 ^ 32 ≤ ip ∧ t = ip then some .answer else none
  | .sanor d => if s.sanorOn port && (s.cfg.peer.map (·.domain)) == some d then some .sanor else none
  | .udp p m => if p = 319 ∨ p = 320 then some .ptp else if m then some .ingest else none
  | .pause => none
  | .other => none

/-- ETH_FRAME_RECEIVE (18 R529). -/
def execEthFrameReceive (port : Nat) (f : Frame) (s : State) : Out :=
  done (if !s.answers ∨ 2 ≤ port ∨ !s.portUp port then s
    else
      let s1 := s.modNet port fun n => { n with rx := n.rx + 1 }
      if f.fcsError then s1.modNet port fun n => { n with fcsErr := n.fcsErr + 1 }
      else if !frameSizeOk f then s1.modNet port fun n => { n with dropped := n.dropped + 1 }
      else match claimOf s port f with
        | some .answer => transmit s1 port outAnswer []
        | some _ => s1
        | none => s1.modNet port fun n => { n with dropped := n.dropped + 1 })

/-- NET_LINK_CHANGE (18 R528): a port gains its link, or loses it and retrains; record 0x0800. -/
def linkChange (s : State) (n : Nat) (up : Bool) (mode : Nat) : State :=
  let was := decide ((s.netPort n).state = 2)
  let s1 := s.modNet n fun x => { x with
    state := if up then 2 else 1, mode := if up then mode else 0, fecLock := up, downs := if was && !up then x.downs + 1 else x.downs }
  if was = up then s1 else s1.lnkRecord 0x0800 ucNET stOK { port := n } (inst := n)

def execNetLinkChange (n : Nat) (up fecLock : Bool) (mode : Nat) (s : State) : Out :=
  let idle := if n = 0 then s.pins.ethIdle0 else s.pins.ethIdle1
  done (if s.answers && decide (n < 2) && !idle then linkChange s n (up && fecLock && (mode == 1 || mode == 2) && !s.pins.refLostEth) mode else s)

/-! ## Heartbeats (18 R534, R536, R537) -/

/-- The state a heartbeat carries (18 R534). -/
def State.linkState (s : State) : Nat :=
  if s.phase = .safe then 3 else if s.phase = .quiet then 4 else if s.lnk.isolated then 5
  else if s.flt.stopPhase ≠ 0 then 2 else if (List.range 4).any fun g => (s.region g).degraded then 1 else 0

/-- Free decode capacity in Mpixel/s. -/
def State.freeDecode (s : State) : Nat :=
  (s.decodeCapacity * 1000 - (s.cfg.active.map fun e => e.2.pixelRate).sum) / 1000000000

/-- HEARTBEAT_SEND (18 R536): every heartbeat interval on each Sanor port; it goes on under a stop (R545). -/
def execHeartbeatSend (n : Nat) (s : State) : Out :=
  done (match s.cfg.peer with
    | none => s
    | some p =>
      if !s.running ∨ !s.sanorOn n then s
      else
        let s1 := s.atMultiple (p.interval * 1000000)
        if !s1.portUp n then s1
        else
          let h : Heartbeat := {
            device := p.device, identifier := s1.fuses.deviceId, state := s1.linkState, able := s1.ableRegions.length
            freeDecode := s1.freeDecode, epoch := s1.stl.epoch.toNat, charter := s1.boot.charterVersion, interval := p.interval
            mac := s1.portMac n, ack := 0 }
          let s2 := transmit { s1 with lnk := { s1.lnk with sent := s1.lnk.sent + 1 } } n outHeartbeat (heartbeatFrame s1 n h)
          s2.modNet n fun x => { x with heartbeat := some h })

/-! ## Failover (18 R543, R544) -/

/-- One standby row made active, when checks 7 to 9 still pass with it. -/
def takeRow (s : State) (c : Cfg) (b : Standby) : Option Cfg :=
  let c1 : Cfg := { c with streams := Table.set {} b.stream { b.row with active := true } c.streams }
  if check7 s c1 && check8 s.cfg c1 false none && check9 s c1 then some c1 else none

/-- The rows of a peer taken in order: the configuration, the streams taken, how many are left out. -/
def takeRows (s : State) : List Standby → Cfg → List Nat → Nat → Cfg × List Nat × Nat
  | [], c, taken, left => (c, taken, left)
  | b :: r, c, taken, left => match takeRow s c b with
    | some c1 => takeRows s r c1 (taken ++ [b.stream]) left
    | none => takeRows s r c taken (left + 1)

/-- FAILOVER_START: the standby rows of a protected peer become active 5 ms after staging, none when the batch fails a check; while another batch is pending
the commit is rejected and tried again after the drain (18 R545). -/
def startFailover (s : State) (d : Nat) : State :=
  match s.cfg.peer with
  | none => s
  | some p =>
    let rows := p.standby.filter fun b => b.peer == d
    if rows.isEmpty ∨ s.lnk.isolated ∨ !(s.peer d).takenRows.isEmpty ∨ !s.running then s
    else if s.stl.batch.isSome || s.stl.update.isSome then
      let s1 := s.countReject 2 0x04
      { s1 with lnk := { s1.lnk with failover := some d } }
    else
      let (c, taken, left) := takeRows s rows s.cfg [] 0
      let es : List Entry := taken.map fun n =>
        { kind := 2, flags := 0, table := 4, index := n, value := s.layout.internalBuffer, mask := 64, rest := 0 }
      let s0 := { s with lnk := { s.lnk with failover := none } }
      let s1 := if taken.isEmpty then s0 else internalBatch s0 es c (s0.time.now + 5000000) false true
      let rowsTaken := if s1.stl.batch.isSome then taken else []
      let s2 := s1.modPeer d fun x => { x with takenRows := rowsTaken }
      s2.lnkRecord 0x0804 ucLNK stOK { state := (s.peer d).state, peer := d, identifier := (s.peer d).identifier
                                       count := rowsTaken.length, left := left + (taken.length - rowsTaken.length) }

/-- A failover that waited for a pending batch starts once none is. -/
def failoverWaiting (s : State) : State :=
  match s.lnk.failover with
  | some d => if s.stl.batch.isSome || s.stl.update.isSome then s else startFailover s d
  | none => s

/-- FAILOVER_RELEASE (18 R544): after 60 s of healthy heartbeats the rows taken are deleted by a batch; when it fails a check of R70 they
stay taken. -/
def execFailoverRelease (d : Nat) (s : State) : Out :=
  let p := s.peer d
  done (match p.healthySince with
    | none => s
    | some t =>
      if !s.running ∨ p.takenRows.isEmpty then s
      else
        let s1 := s.atElapsed (t + 60 * second)
        if s1.stl.batch.isSome || s1.stl.update.isSome then s1.countReject 2 0x04
        else
          let es : List Entry := p.takenRows.map fun n =>
            { kind := 3, flags := 0, table := 4, index := n, value := 0, mask := 0, rest := 0 }
          let c : Cfg := { s1.cfg with streams := s1.cfg.streams.filter fun e => !p.takenRows.contains e.1 }
          let s2 := internalBatch s1 es c (s1.time.now + 5000000) false false
          if s2.stl.batch.isNone then s2 else
          let s3 := s2.modPeer d fun x => { x with takenRows := [] }
          s3.lnkRecord 0x0805 ucLNK stOK { state := p.state, peer := d, identifier := p.identifier, count := p.takenRows.length })

/-! ## Membership (18 R536, R537) -/

/-- Another device with the device's own number: the one with the higher identifier becomes isolated. -/
def numberConflict (s : State) (n : Nat) (h : Heartbeat) : State :=
  if s.lnk.isolated ∨ s.fuses.deviceId ≤ h.identifier then s
  else
    let s1 := { s with lnk := { s.lnk with isolated := true } }
    s1.lnkRecord 0x0803 ucLNK stSTATE { port := n, state := h.state, peer := h.device, identifier := h.identifier }

/-- A heartbeat of a peer: joined from the first, with its acknowledgement and state taken. -/
def peerHeard (s : State) (n : Nat) (h : Heartbeat) : State :=
  let p := s.peer h.device
  let healthy := h.state = 0 ∨ h.state = 1
  let p1 := { p with
    joined := true, identifier := h.identifier, state := h.state, lastHeard := s.time.elapsed, interval := h.interval, port := n, mac := h.mac
    healthySince := if healthy then some (p.healthySince.getD s.time.elapsed) else none }
  let s1 := s.setPeer h.device p1
  let s2 := if p.joined then s1
    else s1.lnkRecord 0x0801 ucLNK stOK { port := n, state := h.state, peer := h.device, identifier := h.identifier }
  let s3 := if h.ack = 0 then s2 else takeAck s2 h.device h.ack
  if h.state = 3 ∨ h.state = 4 then startFailover s3 h.device else s3

/-- SANOR_HEARTBEAT (18 R536). -/
def execSanorHeartbeat (n : Nat) (h : Heartbeat) (s : State) : Out :=
  done (match s.cfg.peer with
    | none => s
    | some p =>
      if !s.running ∨ 2 ≤ n ∨ !s.sanorOn n ∨ !s.portUp n ∨ 1024 ≤ h.device then s
      else if h.device = p.device then (if h.identifier = s.fuses.deviceId then s else numberConflict s n h)
      else peerHeard s n h)

/-! ## Handovers (11 R361, 18 R538, R539) -/

/-- A record of a handover out (11 R363). -/
def handoverRecord (s : State) (handle status peer peerHandle : Nat) : State :=
  s.clrRecord 0x0304 (handle / 4096) status { peer := peer, peerHandle := peerHandle }

/-- The handover of a handle times out: the track stays, and a late acknowledgement is still known. -/
def expireHandover (s : State) (handle : Nat) : State :=
  match s.ledger.handovers.find? fun x => x.handle == handle && !x.expired with
  | none => s
  | some h =>
    let hs := s.ledger.handovers.map fun x => if x = h then { x with expired := true } else x
    handoverRecord { s with ledger := { s.ledger with handovers := hs } } handle stBUDGET h.peer 0xFFFFFFFF

/-- HANDOVER_TIMEOUT (11 R361). -/
def execHandoverTimeout (handle : Nat) (s : State) : Out :=
  done (match s.ledger.handovers.find? fun x => x.handle == handle && !x.expired with
    | none => s
    | some h => if s.mayBegin then expireHandover (s.atElapsed (h.sent + s.cfg.policies.handover * 1000000)) handle else s)

/-- A received context opens a local slot, and its identity adopts the sender's number (11 R361). -/
def openReceived (s : State) (r n d : Nat) (context : List Byte) : Option (State × Nat) :=
  match allocSlot s r with
  | none => none
  | some (slot, s1) =>
    let box (o : Nat) : Box := ⟨sfield context o 2, sfield context (o + 2) 2, sfield context (o + 4) 2, sfield context (o + 6) 2⟩
    let number := s.deviceNumber % 1024 * 2 ^ 54 + s.nextSeq % 2 ^ 54
    let t : Track := { (s1.track slot) with
      state := .confirmed, cls := field context 5 1, owner := r, misses := 0, stream := n, account := (s.cfg.stream n).account
      hits := field context 11 1, revision := 1, identity := number, opened := s.time.now, updated := s.time.now
      tick := (s.stream n).lastTick, box := box 48, vel := box 56, pred := box 64, score := sfield context 72 4
      zones := zonesMet s.cfg n (box 48), originDevice := d, originHandle := field context 0 4
      window := ((s.stream n).lastWindow).getD 0, opaque_ := if zeros context 96 128 then [] else (context.drop 96).take 128 }
    let s2 := (writeTrack s1 r slot t).setIdent slot { number := number }
    let s3 := (s2.clrRecord 0x0305 slot stOK { peer := d, peerHandle := field context 0 4 }).modClr r fun c => { c with opened := c.opened + 1 }
    some ((adoptIdent s3 slot (field context 16 8)).1, slot)

/-- A HANDOVER taken: a slot opened, or the answer STATE or BUDGET (18 R538). -/
def takeHandover (s : State) (d : Nat) (context : List Byte) (n : Nat) : State :=
  let old := field context 0 4
  let answer (a : State) (new st : Nat) : State := sendMsg a d msgHandoverAck (leBytes 4 old ++ leBytes 4 new ++ leBytes 1 st)
  if !(s.cfg.stream n).active ∨ (s.stream n).state = 4 then answer s 0xFFFFFFFF stSTATE
  else match s.clrServing (s.cfg.stream n).region with
    | none => answer s 0xFFFFFFFF stSTATE
    | some r => match openReceived s r n d context with
      | none => answer s 0xFFFFFFFF stBUDGET
      | some (s1, slot) => answer { s1 with lnk := { s1.lnk with handIn := s1.lnk.handIn + 1 } } (s1.handleOf slot) stOK

/-- SANOR_HANDOVER (18 R538). -/
def execSanorHandover (d seq : Nat) (context _embedding : List Byte) (peerStream : Nat) (s : State) : Out :=
  let q := accept s d seq
  done (if q.1 then takeHandover q.2 d context peerStream else q.2)

/-- A HANDOVER_ACK taken: the track closes with reason 4, or stays; one after the timeout is answered with CLOSE_COPY. -/
def takeHandoverAck (s : State) (d old new status : Nat) : State :=
  match s.ledger.handovers.find? fun x => x.handle == old && x.peer == d with
  | none => s
  | some h =>
    let s1 := { s with ledger := { s.ledger with handovers := s.ledger.handovers.filter fun x => x ≠ h } }
    if h.expired then (if status = stOK then sendMsg s1 d msgCloseCopy (leBytes 4 new) else s1)
    else if status ≠ stOK then handoverRecord s1 old status d new
    else
      let s2 := handoverRecord { s1 with lnk := { s1.lnk with handOut := s1.lnk.handOut + 1 } } old stOK d new
      if s2.stale old ∨ !(s2.track (old / 4096)).live then s2 else closeTrack s2 (old / 4096) 4 stOK

/-- SANOR_HANDOVER_ACK (11 R361, 18 R539). -/
def execSanorHandoverAck (d seq old new status : Nat) (s : State) : Out :=
  let q := accept s d seq
  done (if q.1 then takeHandoverAck q.2 d old new status else q.2)

/-- SANOR_CLOSE_COPY (18 R539): the received copy closes with reason 4. -/
def execSanorCloseCopy (d seq handle : Nat) (s : State) : Out :=
  let q := accept s d seq
  let slot := handle / 4096
  done (if q.1 && !q.2.stale handle && (q.2.track slot).live && decide ((q.2.track slot).originDevice = d) then closeTrack q.2 slot 4 stOK else q.2)

/-! ## Peer queries (18 R540, R541) -/

/-- SANOR_QUERY (18 R541): answered with a KNN over the whole gallery, with no entries beyond the served rate. -/
def execSanorQuery (d seq number cls k : Nat) (embedding : List Byte) (s : State) : Out :=
  let q := accept s d seq
  done (if !q.1 then q.2
    else
      let s1 := q.2
      let rate := (s1.cfg.peer.map (·.served)).getD 0
      let found := if rate ≤ s1.lnk.servedSecond ∨ s1.keeper.isNone then []
        else searchGallery s1 (unpackCodes fmtN8E4 256 embedding) 0 (s1.cfg.galleryBytes / 256) (min k 64) (if cls = 0xFF then none else some cls)
      let bytes := found.flatMap fun x => leBytes 4 x.1 ++ leBytes 4 x.2.toNat ++ galleryTag s1 x.1
      let s2 := sendMsg s1 d msgResult (leBytes 4 number ++ leBytes 1 found.length ++ bytes) (number := number)
      { s2 with lnk := { s2.lnk with servedSecond := s2.lnk.servedSecond + 1, queriesAnswered := s2.lnk.queriesAnswered + 1 } })

/-- The 16-byte entries of a reply, each with its device. -/
def entriesOf (d : Nat) (bs : List Byte) : List (Nat × List Byte) :=
  (List.range (bs.length / 16)).map fun i => (d, piece bs 0 16 i)

/-- One reply entry goes before another: higher score, then lower device, then lower gallery index (18 R540). -/
def replyBefore (a b : Nat × List Byte) : Bool :=
  let sa := fp a.2 4
  let sb := fp b.2 4
  fLt sb sa || (!fLt sa sb && (decide (a.1 < b.1) || (a.1 == b.1 && decide (field a.2 0 4 < field b.2 0 4))))

def insertReply (x : Nat × List Byte) : List (Nat × List Byte) → List (Nat × List Byte)
  | [] => [x]
  | h :: r => if replyBefore x h then x :: h :: r else h :: insertReply x r

/-- The replies merged, and the k best written into the query's output area. -/
def mergeQuery (s : State) (q : Query) : State :=
  let all := q.entries.flatMap fun e => (entriesOf e.1 e.2).filter fun x => field x.2 0 4 != 0xFFFFFFFF
  let best := (all.foldl (fun acc x => insertReply x acc) []).take q.k
  let fill := (List.replicate (q.k - best.length) (leBytes 4 0xFFFFFFFF ++ leBytes 12 0)).flatten
  let s1 := s.store q.out (best.flatMap (·.2) ++ fill)
  { s1 with lnk := { s1.lnk with queries := s1.lnk.queries.filter fun x => x.number != q.number } }

/-- The merge lacks replies: marked partial, with record 0x0807. -/
def mergePartial (s : State) (q : Query) : State :=
  (mergeQuery s q).lnkRecord 0x0807 ucLNK stBUDGET { count := q.waiting.length }

/-- A reply, or the loss of a peer, settles a peer's part of a query; the last one merges. -/
def settleReply (s : State) (number d : Nat) (entries : Option (List Byte)) : State :=
  match s.lnk.queries.find? fun q => q.number == number && q.waiting.contains d with
  | none => s
  | some q =>
    let q1 := match entries with
      | some bs => { q with waiting := q.waiting.filter (· != d), entries := q.entries ++ [(d, bs)] }
      | none => { q with partialMerge := true }
    let s1 := { s with lnk := { s.lnk with queries := s.lnk.queries.map fun x => if x.number = number then q1 else x } }
    if q1.waiting.isEmpty then mergeQuery s1 q1
    else if q1.partialMerge ∧ q1.waiting.all fun w => !(s1.peer w).joined then mergePartial s1 q1
    else s1

/-- SANOR_RESULT (18 R540). -/
def execSanorResult (d seq number : Nat) (entries : List (List Byte)) (s : State) : Out :=
  let q := accept s d seq
  done (if q.1 then settleReply q.2 number d (some ((entries.take 64).flatMap fun e => (e ++ List.replicate 16 0#8).take 16)) else q.2)

/-- PEER_QUERY_TIMEOUT (18 R540): the merge is partial and the consumer is issued. -/
def execPeerQueryTimeout (number : Nat) (s : State) : Out :=
  done (match s.lnk.queries.find? fun q => q.number == number with
    | none => s
    | some q =>
      if !s.mayBegin then s
      else mergePartial (s.atElapsed (q.since + ((s.cfg.peer.map (·.queryTimeout)).getD 50) * 1000000)) q)

/-! ## Loss of a peer and reliable delivery (18 R535, R536, R545) -/

/-- A peer is lost: its handovers time out, its queries merge without it, and a protected one fails over. -/
def losePeer (s : State) (d : Nat) : State :=
  let p := s.peer d
  let s1 := s.setPeer d { p with joined := false, unacked := [], ackDue := none, healthySince := none, nextSeq := 0, received := 0 }
  let s2 := s1.lnkRecord 0x0802 ucLNK stOK { port := p.port, state := p.state, peer := d, identifier := p.identifier }
  let hs := (s2.ledger.handovers.filter fun x => x.peer == d && !x.expired).map (·.handle)
  let s3 := hs.foldl expireHandover s2
  let qs := (s3.lnk.queries.filter fun q => q.waiting.contains d).map (·.number)
  let s4 := qs.foldl (fun a n => settleReply a n d none) s3
  startFailover s4 d

/-- PEER_LOST (18 R536): no heartbeat for miss limit × its interval. -/
def execPeerLost (d : Nat) (s : State) : Out :=
  let p := s.peer d
  done (match s.cfg.peer with
    | none => s
    | some c =>
      if !s.running ∨ !p.joined then s
      else losePeer (s.atElapsed (p.lastHeard + c.miss * (if p.interval = 0 then c.interval else p.interval) * 1000000)) d)

/-- SANOR_ACK (18 R535). -/
def execSanorAck (d ack : Nat) (s : State) : Out :=
  done (if s.running && (s.sanorOn 0 || s.sanorOn 1) && (s.peer d).joined then takeAck s d ack else s)

/-- SANOR_ACK_DUE (18 R535): an ACK leaves 1 ms after an unacknowledged arrival. -/
def execSanorAckDue (d : Nat) (s : State) : Out :=
  done (match (s.peer d).ackDue with
    | none => s
    | some t => if s.sanorTakes then sendSanor ((s.atElapsed t).modPeer d fun p => { p with ackDue := none }) d { seq := 0, type := 2 } else s)

/-- SANOR_RETRANSMIT (18 R535): after 2 ms, five times; giving up counts as the timeout of a handover or query. -/
def execSanorRetransmit (d seq : Nat) (s : State) : Out :=
  done (match (s.peer d).unacked.find? fun m => m.seq == seq with
    | none => s
    | some m =>
      if !s.sanorTakes then s
      else
        let s1 := s.atElapsed (m.sent + 2000000)
        if m.tries < 5 then
          let again := { m with tries := m.tries + 1, sent := s1.time.elapsed }
          let s2 := s1.modPeer d fun p => { p with unacked := p.unacked.map fun x => if x.seq = seq then again else x }
          sendSanor { s2 with lnk := { s2.lnk with retrans := s2.lnk.retrans + 1 } } d again
        else
          let s2 := s1.modPeer d fun p => { p with unacked := p.unacked.filter fun x => x.seq != seq }
          if m.type = msgHandover then expireHandover s2 m.handle else s2)

/-! ## Replicas (18 R542) -/

/-- A checkpoint of a stream goes to the backup in fragments of at most 1,430 bytes of its state. -/
def sendReplica (s : State) (n tick : Nat) : State :=
  match s.cfg.peer with
  | none => s
  | some p =>
    let row := s.cfg.stream n
    if p.backup = 0xFFFF ∨ !(s.peer p.backup).joined ∨ !s.sanorTakes ∨ row.zone ∨ row.host ∨ !row.active ∨ !multicast row then s
    else
      let state := (((s.stream n).ckpts.head?).map (·.state)).getD []
      let count := max 1 (ceilDiv state.length 1430)
      (List.range count).foldl (fun a i =>
        sendMsg a p.backup msgReplica (leBytes 2 n ++ leBytes 8 tick ++ (state.drop (1430 * i)).take 1430) (index := i) (fragments := count)) s

/-- A fragment of a replica: the newest complete one of each standby row naming the sender is kept, others are discarded
and counted. -/
def takeReplica (s : State) (d stream tick index count : Nat) (fragment : List Byte) : State :=
  let mine := match s.cfg.peer with
    | some p => p.standby.any fun b => b.peer == d && b.stream == stream
    | none => false
  if !mine ∨ (s.cfg.stream stream).active then { s with lnk := { s.lnk with replicasDiscarded := s.lnk.replicasDiscarded + 1 } }
  else
    let held : Replica := Table.get { peer := d, tick := 0, count := 0 } (2 * stream + 1) s.lnk.replicas
    let cur : Replica := if held.tick = tick ∧ held.peer = d ∧ held.count = count then held else { peer := d, tick := tick, count := count }
    let cur1 : Replica := { cur with parts := if cur.parts.any (·.1 == index) ∨ count ≤ index then cur.parts else cur.parts ++ [(index, fragment)] }
    let none_ : Replica := { peer := d, tick := 0, count := 0 }
    if cur1.parts.length = count ∧ 0 < count then
      let kept : Replica := Table.get none_ (2 * stream) s.lnk.replicas
      let r1 := Table.set none_ (2 * stream + 1) none_ s.lnk.replicas
      if kept.count = 0 ∨ kept.tick ≤ tick then { s with lnk := { s.lnk with replicas := Table.set none_ (2 * stream) cur1 r1 } }
      else { s with lnk := { s.lnk with replicas := r1, replicasDiscarded := s.lnk.replicasDiscarded + 1 } }
    else { s with lnk := { s.lnk with replicas := Table.set none_ (2 * stream + 1) cur1 s.lnk.replicas } }

/-- SANOR_REPLICA (18 R542). -/
def execSanorReplica (d seq stream tick index count : Nat) (fragment : List Byte) (s : State) : Out :=
  let q := accept s d seq
  done (if q.1 then takeReplica q.2 d stream tick index count fragment else q.2)

end Sys2Proof.Machine
end

