-- ==== Sys2Proof/Machine/Instant.lean ====
section
/-! DEFINITION. The instant of a settlement and its drain (02 R68, R71 to R80, R88), what an instant does to streams, zones,
the model and the heads, and the steps of station time that pass an instant (03 R103). -/

namespace Sys2Proof.Machine

/-! ## Rows a batch names -/

/-- The entries of a batch. -/
def Batch.entryList (b : Batch) : List Entry := b.entries.map parseEntry

/-- Rows of a table that the batch writes or deletes. -/
def Batch.named (b : Batch) (table : Nat) : List Nat :=
  (b.entryList.filter fun e => (e.kind == 2 || e.kind == 3) && e.table == table).map (·.index)

/-- A rising list of numbers with `k` in it. -/
def insertNat (k : Nat) : List Nat → List Nat
  | [] => [k]
  | h :: r => if k < h then k :: h :: r else if k = h then h :: r else h :: insertNat k r

/-- The streams whose rows the batch writes or that differ between two configurations, rising. -/
def streamsChanged (old new : Cfg) (b : Batch) : List Nat :=
  let all := (old.streams.map (·.1) ++ new.streams.map (·.1) ++ b.named 4).foldl (fun l k => insertNat k l) []
  all.filter fun n => old.stream n != new.stream n || (b.named 4).contains n

/-- The zones that a safety settlement changes: by their row, or all of them by a zone model that differs, wherever its image
lies (02 R77). -/
def zonesChanged (s : State) (old new : Cfg) (b : Batch) : List Nat :=
  let all := (old.zones.map (·.1) ++ new.zones.map (·.1) ++ b.named 5).foldl (fun l k => insertNat k l) []
  let place (m : Model) : Model := { m with image := 0 }
  let same := (b.entryList.filter fun e => e.kind == 2 && e.table == 6).all fun e =>
    s.bytes e.value e.mask == s.bytes ((old.zoneModel.map (·.image)).getD 0) e.mask
  let model := old.zoneModel.map place != new.zoneModel.map place || !same
  all.filter fun z => model || old.zone z != new.zone z || (b.named 5).contains z

/-! ## Streams (04 R153, R154, R164) -/

/-- The picture-buffer windows and elementary-stream buffers of the other active streams: base and size. -/
def takenSpans (s : State) (n : Nat) : List (Nat × Nat) :=
  s.cfg.active.filterMap fun e =>
    if e.1 = n ∨ (s.stream e.1).winBase = 0 then none else some ((s.stream e.1).winBase, e.2.spanBytes)

/-- The base of a stream's window: the lowest 4 KiB boundary of the picture area, or after another stream's, from which it meets
no other (04 R140; the manual fixes no place, log entry 195). -/
def allocSpan (s : State) (n : Nat) : Nat :=
  let size := (s.cfg.stream n).spanBytes
  let taken := takenSpans s n
  let from_ := s.layout.pictures :: taken.map fun w => roundUp (w.1 + w.2) 4096
  let free := from_.filter fun b => taken.all fun w => decide (b + size ≤ w.1) || decide (w.1 + w.2 ≤ b)
  free.foldl min (from_.foldl max s.layout.pictures)

/-- What a stream has counted this second of units discarded and numbers lost is written when it starts or retires before the
second ends (04 R164, R645). -/
def flushCounts (s : State) (n : Nat) (row : StreamRow) : State :=
  let t := s.stream n
  let put (a : State) (type count : Nat) : State :=
    if count = 0 then a else
    let r := a.record type ucING (.stream { codec := row.codecByte, width := t.declared.1, height := t.declared.2, count := count })
    a.emit { r with stream := n, tick := t.lastTick, account := row.account, status := if type = 0x000A then stBUDGET else stOK }
  put (put s 0x000A t.secDiscarded) 0x000B t.secLost

/-- A stream that starts or starts anew: it waits for its first random-access point in a window of its own; its counters and the
last tick handed on stand. -/
def startStream (s : State) (n : Nat) : State :=
  let base := allocSpan s n
  (flushCounts s n (s.cfg.stream n)).modStream n fun t => { ({} : StreamSt) with
    state := 1, counters := t.counters, captures := t.captures, captureHour := t.captureHour, pushes := t.pushes
    lastTick := t.lastTick, winBase := base, stateBytes := s.cfg.model.perStream }

/-- The payload of a stream record (04 R164). -/
def streamPayload (row : StreamRow) (size : Nat × Nat) (cls count : Nat) : Payload :=
  .stream { cls := cls, codec := row.codecByte, width := size.1, height := size.2, count := count }

/-- A stream leaves the table: record 0x0002, its zones occupied, its clips ended (12 R376, 15 R461). -/
def stopRow (s : State) (old : Cfg) (n : Nat) : State :=
  let row := old.stream n
  let r := s.record 0x0002 ucING (streamPayload row (s.stream n).declared 0 0)
  endClips (occupyStream (s.emit { r with stream := n, account := row.account }) n) n 4

/-- A row that goes on with another size of window or buffer moves to a new place, and with another W its windows are
renumbered (04 R140, 03 R114). -/
def resizeStream (old : Cfg) (s : State) (n : Nat) : State :=
  let was := old.stream n
  let is := s.cfg.stream n
  let base := if was.spanBytes = is.spanBytes then (s.stream n).winBase else allocSpan s n
  s.modStream n fun t =>
    let t1 := if was.window = is.window ∧ was.zoneWindow = is.zoneWindow then t else renumber is t
    { t1 with winBase := base, lastGood := if base = t.winBase then t.lastGood else none }

/-- One changed row at the instant. -/
def applyStream (old : Cfg) (s : State) (n : Nat) : State :=
  let was := (old.stream n).active
  let is := (s.cfg.stream n).active
  if is && (!was || decide (4 ≤ (s.stream n).state)) then startStream s n
  else if was && !is then stopRow s old n
  else if is then resizeStream old s n
  else s

/-- A stream that is no longer active is inactive once its old work has drained; its live tracks are closed (11 R346). -/
def retireStream (s : State) (n : Nat) : State :=
  let t := s.stream n
  (closeStreamTracks (flushCounts s n ((s.cfgOld.getD s.cfg).stream n)) n).setStream n
    { ({} : StreamSt) with counters := t.counters, lastTick := t.lastTick, pushes := t.pushes }

/-- Every stream with moving state whose row is inactive. -/
def retireStreams (s : State) : State :=
  s.streams.foldl (fun a e => if e.2.state ≠ 0 ∧ !(s.cfg.stream e.1).active then retireStream a e.1 else a) s

/-! ## Zones, reserves, sources -/

/-- A safety settlement reaches the safety unit: zones that are off take their row at once, the others at their next
boundary (02 R77, 15 R459). -/
def applyZones (s : State) (zs : List Nat) (at_ : Nat) : State :=
  let s1 := { s with stl := { s.stl with safetyZones := (s.stl.safetyZones.filter fun e => !zs.contains e.1) ++ zs.map fun z => (z, at_) } }
  (zs.filter fun z => decide ((s.zone z).state = .off)).foldl safetyApply s1

/-- The journal's records that a smaller reserve still holds, rewritten where they then lie (16 R497). -/
def resizeJournal (s : State) (old : Cfg) : State :=
  if old.journalBytes = s.cfg.journalBytes then s
  else
    let s1 := reclaim s s.reserveSlots
    s1.journal.held.foldl (fun a r => a.store (a.recordAddr r.seq) (recordBytes r)) s1

/-- The oldest data beyond the new size of the clip store and the trace area goes. -/
def resizeStores (s : State) (old : Cfg) : State :=
  let s1 := { s with evidence := { s.evidence with store := trimStore s.cfg.clipStore s.evidence.store.length s.evidence.store } }
  if old.traceBytes = s.cfg.traceBytes then s1
  else { s1 with dbg := { s1.dbg with ptr := 0, wrapped := false } }

/-- The ranks of TIM_CTRL changed: a source that is ranked no longer gives way, and a qualified source that the new ranks admit
is taken in holdover or before any source was (03 R95, R96, R106). -/
def rerankSources (s : State) (old : Cfg) : State :=
  if old.regs.timCtrl = s.cfg.regs.timCtrl then s
  else if s.time.source = 0 ∨ s.time.source = 4 then
    match s.bestSource with
    | some k => changeSource s k
    | none => s
  else if s.ranks.contains s.time.source then s
  else changeSource s (s.bestSource.getD 4)

/-! ## The model and the heads (02 R79, 03 R132, R133, 13 R404, R407) -/

/-- Bytes that a switch loads: the heads of an adoption, else the weights of the new model. -/
def switchBytes (s : State) (b : Batch) : Nat :=
  if b.adoption then 2 * ((s.cfg.adapt.map fun a => headSize a.heads).getD 0) else b.new.model.weights

/-- A model switch begins at the instant; old-epoch samples are no longer admitted (03 R132). Where part of the per-stream state is
not convertible, the first frame of the new epoch is a full-frame pass (R134). -/
def beginSwitch (s : State) (old : Cfg) (b : Batch) (at_ : Nat) : State :=
  let s1 := { s with switch := some { instant := at_, new := b.new.model, adoption := b.adoption, bytes := switchBytes s b
                                      oldState := old.model.perStream, oldCompat := old.model.compat } }
  let s2 := if b.adoption ∨ old.model.perStream ≤ b.new.model.convBytes then s1
    else b.new.active.foldl (fun a e => a.modStream e.1 fun t => { t with fullEpoch := some s1.stl.epoch.toNat }) s1
  (List.range 4).foldl (fun a g => a.modRegion g fun r => { r with admitStopped := true, cut := false }) s2

/-- The settings of adaptation change with this batch. -/
def adaptChanged (old : Cfg) (b : Batch) : Bool := !(b.named 10).isEmpty || old.adapt != b.new.adapt

/-- What an instant does to armed watches: a model switch ends them, and so does, in an account slot, a move of their stream to
another account (20 R598). -/
def applyWatches (s : State) (switched : Bool) : State :=
  stopWatches s stSTATE fun w x =>
    let row := s.cfg.stream x.req.stream
    x.state == 1 && (switched || (decide (w < 64) && row.active && row.account != w))

/-- What an instant does to adaptation and the model. -/
def applyModel (s : State) (old : Cfg) (b : Batch) (at_ : Nat) : State :=
  let modelNew := b.modelSwitch || (b.charter && old.model != b.new.model)
  let s1 := if (modelNew && !b.adoption) || adaptChanged old b then settlementEndsJob s else s
  let s2 := if modelNew then beginSwitch s1 old b at_ else s1
  let s3 := applyWatches s2 modelNew
  if b.adoption then adoptHeads s3 else s3

/-! ## Failover (18 R543) -/

/-- The newest complete replica of a taken row becomes the stream's state. -/
def adoptReplica (s : State) (n : Nat) : State :=
  let none_ : Replica := { peer := 0, tick := 0, count := 0 }
  let kept := s.lnk.replicas.find? fun e => e.1 == 2 * n
  let s1 := s.modStream n fun t => { t with
    forceFull := true
    liveState := (kept.map (·.2.bytes)).getD []
    ckpts := match kept with
      | some e => [{ tick := e.2.tick, anchor := 0, count := 0, state := e.2.bytes }]
      | none => [] }
  { s1 with lnk := { s1.lnk with replicas := Table.set none_ (2 * n) none_ (Table.set none_ (2 * n + 1) none_ s1.lnk.replicas) } }

/-! ## The instant (02 R73 step 4) -/

/-- The streams a batch affects: those of its rows and accounts, or every active one. -/
def affectedStreams (old new : Cfg) (b : Batch) : List Nat :=
  let rows := streamsChanged old new b
  let accts := b.named 7
  let acts := (new.active ++ old.active)
  let whole := b.modelSwitch || b.charter || b.entryList.any fun e => e.kind == 1 || (decide (8 ≤ e.table) && e.kind != 4)
  if whole then acts.map (·.1)
  else rows ++ (acts.filter fun e => accts.contains e.2.account).map (·.1)
    ++ (if b.safety then (acts.filter fun e => e.2.zone).map (·.1) else [])

/-- The bound of the drain: two analysed frame periods of the slowest affected stream plus 50 ms (R76). -/
def drainBound (old new : Cfg) (b : Batch) (at_ : Nat) : Nat :=
  let w := ((affectedStreams old new b).map fun n => max (old.stream n).window (new.stream n).window).foldl max 0
  at_ + 2 * ceilDiv (w * 100000) 9 + 50000000

/-- The new epoch in force: the old set is held beside it until its work has drained. -/
def applyEpoch (s : State) (b : Batch) (at_ : Nat) : State :=
  let old := s.cfg
  let bound := drainBound old b.new b at_
  let s1 := (s.setPage b.src { s.page b.src with phase := if b.charter then 6 else 4 })
  let s2 := { s1 with
    cfgOld := some old, cfg := b.new, layout := s1.layout.withReserves b.new
    stl := { s1.stl with epoch := s1.stl.epoch + 1
                         batch := some { b with fixed := some at_, phase := .draining bound, waiting := b.units old } } }
  let s3 := (streamsChanged old b.new b).foldl (applyStream old) s2
  let s4 := if b.failover then (b.named 4).foldl adoptReplica s3 else s3
  let s5 := applyModel s4 old b at_
  let s6 := setDDec (rerankSources (resizeStores (resizeJournal s5 old) old) old)
  if b.safety || b.charter then applyZones s6 (zonesChanged s6 old b.new b) at_ else s6

/-! ## The end of the drain (02 R73 step 5, R80, R88 step 6) -/

/-- Rollback counters raised to the running charter's, never above 127, each with record 0x0900; a failed burn leaves a
counter and writes record 0x0905 (02 R59, 19 R552). -/
def secCounter (s : State) (counter value : Nat) (ok : Bool) : State :=
  let p : SecPl := { lifecycle := s.fuses.lifecycle, counter := counter, value := value }
  s.emit { s.record (if ok then 0x0900 else 0x0905) ucSEC (.sec p) with status := if ok then stOK else stRANGE }

def raiseOne (s : State) (counter : Nat) (burnOk : Bool) : State :=
  let fused := if counter = 0 then s.fuses.charterRb else s.fuses.firmwareRb
  let want := min 127 (if counter = 0 then s.boot.charterRb else s.boot.firmwareRb)
  if want ≤ fused then s
  else if !burnOk then secCounter s counter fused false
  else
    let f := if counter = 0 then { s.fuses with charterRb := want } else { s.fuses with firmwareRb := want }
    secCounter { s with fuses := f } counter want true

def raiseCounters (s : State) (burnOk : Bool) : State := raiseOne (raiseOne s 0 burnOk) 1 burnOk

/-- The running charter is that of a slot; its adoption hold begins, and a hold of 0 raises the counters at once (R59). -/
def runSlot (s : State) (slot : Nat) : State :=
  let x := readSlot s slot
  let s1 := { s with boot := { s.boot with
    running := slot, charterRb := x.charterRb, firmwareRb := x.firmwareRb, charterVersion := x.version, holdHours := x.holdHours
    firmwareVersion := x.firmware, holdSince := some s.time.now } }
  if x.holdHours = 0 then
    let s2 := raiseCounters s1 true
    { s2 with boot := { s2.boot with holdSince := none } }
  else s1

/-- A charter update has drained (step 6): the directory is to be rewritten to prefer the new slot, then the overlay and the adopted
heads cleared. -/
def finishUpdate (s : State) (u : Update) : State :=
  { s with
    stl := { s.stl with update := some { u with drained := true } }
    flash := { s.flash with writes := s.flash.writes ++ [.directory u.slot, .overlayClear, .adoptedErase] } }

/-- The directory prefers the new slot and the overlay is cleared: the new charter's adoption hold begins, and record 0x0104 ends the
update. -/
def endUpdate (s : State) (u : Update) : State :=
  let s1 := runSlot { s with stl := { s.stl with update := none, slotVerified := false } } u.slot
  let s2 := { s1 with boot := { s1.boot with
    slotA := if u.slot = 0 then stOK else s1.boot.slotA, slotB := if u.slot = 1 then stOK else s1.boot.slotB } }
  let s3 := s2.setPage u.src { s2.page u.src with phase := (s2.page u.src).rest }
  s3.emit (s3.record 0x0104 ucSTL (.stl (updatePayload s3 u 0)))

/-- The last unit has released: the batch is no longer pending, and persisted entries go to the overlay (R73, R80). -/
def finishDrain (s : State) (b : Batch) : State :=
  let s1 := (s.setPage b.src { s.page b.src with phase := if b.charter then 6 else (s.page b.src).rest }).settledCause b.src
  let writes := match b.overlay with
    | some o => if b.charter then [] else [FlashWrite.overlay o]
    | none => []
  let s2 := { retireStreams s1 with cfgOld := none }
  let s2 := { s2 with
    stl := { s1.stl with batch := none }, flash := { s1.flash with writes := s1.flash.writes ++ writes } }
  let s3 := match s2.stl.update with
    | some u => if b.charter then finishUpdate s2 u else s2
    | none => s2
  failoverWaiting (stageWaiting s3)

/-- An item's stamp is of the old epoch. -/
def State.oldStamp (s : State) (e : Nat) : Bool := e != s.stl.epoch.toNat

/-- A unit still holds an item of the old epoch. -/
def holdsOld (s : State) : StlUnit → Bool
  | .ingest => s.streams.any fun e => e.2.packets.any (s.oldStamp ·.epoch)
  | .decode =>
    (s.streams.any fun e => e.2.es.any (s.oldStamp ·.epoch) || e.2.dpb.any (s.oldStamp ·.epoch))
      || s.decs.any fun e => e.2.replay.isNone && ((e.2.job.map fun j => s.oldStamp j.2.epoch).getD false)
  | .preproc =>
    (s.accts.any fun e => e.2.queue.any (s.oldStamp ·.epoch) || ((e.2.current.map fun p => s.oldStamp p.epoch).getD false))
      || s.streams.any fun e => e.2.zoneQueue.any (s.oldStamp ·.epoch)
  | .region g =>
    (s.rolling.any fun e => e.1 / 64 == g && (e.2.members.any (s.oldStamp ·.epoch) || e.2.waiting.any (s.oldStamp ·.epoch)))
      || (enginesOf g).any fun p => ((s.engine p).running.toList ++ (s.engine p).again).any fun r => s.oldStamp r.issue.epoch
  | .safety => s.saf.evals.any fun x => !x.decided && s.oldStamp x.epoch
  | .journal => s.journal.waiting.any (s.oldStamp ·.epoch)
  | .clearing r => ((s.clr r).job.toList ++ (s.clr r).held).any (s.oldStamp ·.epoch)
  | .encode => s.evidence.outputs.any fun o => (o.coding.map s.oldStamp).getD false
  | .net n => s.lnk.exports.any fun e => (s.cfg.peer.map fun p => (p.dests.getD e.1 {}).port) == some n && e.2.any (s.oldStamp ·.epoch)
  | .time => false

/-- A batch that no unit holds back is drained: its units have released, and no other unit holds an item of the old epoch, which
keeps the old set as long (02 R72). -/
def drainIfEmpty (s : State) : State :=
  match s.stl.batch with
  | none => s
  | some b => match b.phase with
    | .draining _ =>
      if !b.waiting.isEmpty then s
      else
        let late := allUnits.filter (holdsOld s)
        if late.isEmpty then finishDrain s b
        else { s with stl := { s.stl with batch := some { b with waiting := late } } }
    | _ => s

/-- The instant of the pending batch at station time `at_`. -/
def reachInstant (s : State) (b : Batch) (at_ : Nat) : State := drainIfEmpty (applyEpoch s b at_)

/-- EPOCH_INSTANT (R73 step 4): the instant of a commit at a time comes. -/
def epochInstant (s : State) : State :=
  match s.stl.batch with
  | none => s
  | some b =>
    match b.at_, b.phase with
    | .time t, .ready => reachInstant (s.atStation t) b t
    | _, _ => s

def execEpochInstant (s : State) : Out := done (if s.running then epochInstant s else s)

/-- EVENT_INSTANT_FIX (R75 step 3): the first packet or accepted payload of a random-access unit of the stream, at or after
the tick, fixes the instant of an armed batch. -/
def fixEventInstant (s : State) (n tick : Nat) (rap : Rap) : State :=
  match s.stl.batch with
  | none => s
  | some b =>
    match b.at_, b.phase with
    | .event m t, .armed _ => if m = n ∧ rap ≠ .no ∧ t ≤ tick then reachInstant s b s.time.now else s
    | _, _ => s

/-! ## Drain (02 R73 step 5, R76) -/

/-- UNIT_DRAIN_RELEASE: a unit that holds no old item releases its old set; the last release ends the pending batch. -/
def drainRelease (s : State) (u : StlUnit) : State :=
  match s.stl.batch with
  | none => s
  | some b =>
    match b.phase with
    | .draining _ =>
      if !b.waiting.contains u || holdsOld s u then s
      else drainIfEmpty { s with stl := { s.stl with batch := some { b with waiting := b.waiting.filter (· != u) } } }
    | _ => s

def execUnitDrainRelease (u : StlUnit) (s : State) : Out := done (if s.running then drainRelease s u else s)

/-- The streams with an item of the old epoch anywhere. -/
def oldStreams (s : State) : List Nat :=
  let ofStreams := (s.streams.filter fun e =>
    e.2.packets.any (s.oldStamp ·.epoch) || e.2.es.any (s.oldStamp ·.epoch)
      || e.2.dpb.any (s.oldStamp ·.epoch) || e.2.zoneQueue.any (s.oldStamp ·.epoch)).map (·.1)
  let ofDecs := s.decs.filterMap fun e => e.2.job.bind fun j => if e.2.replay.isNone && s.oldStamp j.2.epoch then some j.1 else none
  let ofPre := s.accts.flatMap fun e => ((e.2.queue ++ e.2.current.toList).filter (s.oldStamp ·.epoch)).map (·.stream)
  let ofBatch := s.rolling.flatMap fun e =>
    ((e.2.members.filter fun m => s.oldStamp m.epoch && !m.removed).map (·.stream)) ++ ((e.2.waiting.filter (s.oldStamp ·.epoch)).map (·.stream))
  (ofStreams ++ ofDecs ++ ofPre ++ ofBatch).foldl (fun l k => insertNat k l) []

/-- The old items of a stream abandoned in ingest and decode. -/
def dropOldStream (s : State) (n : Nat) : State :=
  let cur := s.stl.epoch.toNat
  s.modStream n fun t => { t with
    packets := t.packets.filter (·.epoch == cur)
    es := t.es.filter (·.epoch == cur), esBytes := ((t.es.filter (·.epoch == cur)).map (·.bytes)).sum
    dpb := t.dpb.filter (·.epoch == cur), zoneQueue := t.zoneQueue.filter (·.epoch == cur) }

/-- The old pictures in decode engines, pre-processing and rolling batches abandoned. -/
def dropOldWork (s : State) : State :=
  let cur := s.stl.epoch.toNat
  let s1 := s.decs.foldl (fun a e => match e.2.job with
    | some (n, u) => if e.2.replay.isNone && u.epoch != cur then
        (a.modStream n fun t => { t with inDecode := false }).modDec e.1 fun x => { x with job := none } else a
    | none => a) s
  let s2 := s1.accts.foldl (fun a e => a.modAcct e.1 fun x => { x with
    queue := x.queue.filter (·.epoch == cur), current := x.current.filter (·.epoch == cur) }) s1
  s2.rolling.foldl (fun a e =>
    let gone := e.2.members.filter fun m => m.epoch != cur
    let r : Rolling := { e.2 with members := e.2.members.filter (fun m => m.epoch == cur), waiting := e.2.waiting.filter (fun p => p.epoch == cur) }
    gone.foldl (fun y m => releaseMember y (e.1 / 64) m) (a.setRolling (e.1 / 64) (e.1 % 64) r)) s2

/-- Old clearing commands abandoned, which apply nothing, and the next held command of the engine begun; the old picture an
encoder codes given up; old records not yet written or sent dropped. -/
def dropOldResults (s : State) : State :=
  let cur := s.stl.epoch.toNat
  let s1 := (List.range 4).foldl (fun a r =>
    let c := a.clr r
    if (c.job.toList ++ c.held).all fun j => j.epoch == cur then a
    else
      let gone := c.job.any fun j => j.epoch != cur
      let a1 := a.modClr r fun e => { e with job := e.job.filter (·.epoch == cur), held := e.held.filter (·.epoch == cur) }
      if gone then beginNext a1 r else a1) s
  { s1 with
    evidence := { s1.evidence with outputs := s1.evidence.outputs.map fun o =>
      if (o.coding.map fun e => e != cur).getD false then { o with coding := none } else o }
    journal := { s1.journal with waiting := s1.journal.waiting.filter (·.epoch == cur) }
    lnk := { s1.lnk with exports := s1.lnk.exports.foldl (fun t e => Table.set [] e.1 (e.2.filter (·.epoch == cur)) t) s1.lnk.exports } }

/-- Old tiles abandoned, to run no more. -/
def dropOldTiles (s : State) : State :=
  let cur := s.stl.epoch.toNat
  (List.range 72).foldl (fun a p =>
    let a1 := match (a.engine p).running with
      | some r => if r.issue.epoch != cur then abandonTile a p 5 stSTATE (cyclesSince a p r) 0 else a
      | none => a
    if (a1.engine p).again.all fun r => r.issue.epoch == cur then a1
    else a1.modEngine p fun e => { e with again := e.again.filter fun r => r.issue.epoch == cur }) s

/-- DRAIN_BOUND_EXPIRY (R76): items still of the old epoch are abandoned; each of their streams restarts from its
checkpoint (14 R418), and every unit releases. -/
def drainExpiry (s : State) : State :=
  match s.stl.batch with
  | none => s
  | some b =>
    match b.phase with
    | .draining bound =>
      let s1 := s.atStation bound
      let lost := oldStreams s1
      let s2 := dispatch (dropOldResults (dropOldTiles (dropOldWork (lost.foldl dropOldStream s1))))
      let s3 := { s2 with saf := { s2.saf with evals := s2.saf.evals.filter fun x => x.decided || x.epoch == s2.stl.epoch.toNat } }
      let s4 := lost.foldl restartStream s3
      finishDrain { s4 with stl := { s4.stl with batch := some { b with waiting := [] } } } b
    | _ => s

def execDrainBoundExpiry (s : State) : Out := done (if s.running then drainExpiry s else s)

/-! ## Steps of station time (03 R102, R103) -/

/-- Station time has stepped forward: the settlement instant it passed is reached at the moment of the step, with the repeated
checks due before it. -/
def passInstant (s : State) : State :=
  match s.stl.batch with
  | none => s
  | some b =>
    match b.at_ with
    | .time t =>
      if b.before && decide (t ≤ s.time.now + 100000) then
        let s1 := preInstant s
        if t ≤ s1.time.now then epochInstant s1 else s1
      else s
    | .event _ _ => s

/-- Deadlines of zone evaluations that a step has passed count as missed. -/
def passDeadlines (s : State) : State :=
  if !s.mayBegin then s
  else
    let due := s.saf.evals.filter fun x => !x.decided && decide (x.deadline ≤ s.time.now)
    let s1 := due.foldl missingResult s
    let late := s1.streams.flatMap fun e => e.2.zoneQueue.filter fun p => decide (p.arrival + p.dDec + 19000000 ≤ s1.time.now)
    late.foldl (fun a p => missingResult (a.modStream p.stream fun t => { t with zoneQueue := t.zoneQueue.filter (· != p) }) (unplaced p)) s1

/-- Pictures whose analysis deadline a step has passed are shed (05 R183). -/
def passPictures (s : State) : State :=
  s.accts.foldl (fun a e =>
    (e.2.queue.filter fun p => decide (a.pictureDeadline p ≤ a.time.now) && !(a.stream p.stream).hostTensors.contains p.tick).foldl (fun x p => shedPicture x e.1 p) a) s

/-- The bound of a drain that a step has passed (02 R76). -/
def passDrain (s : State) : State :=
  match s.stl.batch with
  | none => s
  | some b => match b.phase with
    | .draining bound => if bound ≤ s.time.now then drainExpiry s else s
    | _ => s

/-- Zones whose decision a step has made late: 1 ms after the end of their period (15 R464). -/
def passDecisions (s : State) : State :=
  if !s.mayBegin then s
  else (Table.keys s.saf.zones).foldl (fun a z => if (a.zone z).state ≠ .off ∧ decisionDue a z ≤ a.time.now then decisionLate a z else a) s

/-- Everything a forward step passes is reached. -/
def reachPassed (s : State) : State := passPictures (passDecisions (passDeadlines (passDrain (passInstant s))))

/-- A meaning of this chapter that may step station time, and what the step passes. -/
def withStep (s s1 : State) : State := if s.time.now < s1.time.now then reachPassed s1 else s1

/-- PTP_SYNC (03 R95, R102). -/
def execPtpSync (port domain sender : Nat) (twoStep : Bool) (origin correction rxMac : Int) (s : State) : Out :=
  done (if s.running && decide (port < 2) then withStep s (syncReceived s port domain sender twoStep origin correction rxMac) else s)

/-- PTP_FOLLOW_UP (03 R97). -/
def execPtpFollowUp (port domain sender : Nat) (origin correction : Int) (s : State) : Out :=
  done (if s.running && decide (port < 2) then withStep s (followUpReceived s port domain sender origin correction) else s)

/-- TIMEIN_PULSE (03 R95, R98, R100). -/
def execTimeinPulse (s : State) : Out :=
  done (if s.running then
    withStep s (if pulseAccepted s.time.timein s.time.elapsed then pulseTaken s else pulseRejected s)
  else s)

/-- STATION_TIME_STEP (03 R102): at the whole millisecond, station time steps forward by the offset. -/
def execStationTimeStep (s : State) : Out :=
  done (match s.time.pendingStep with
    | none => s
    | some (at_, theta) =>
      if !s.running then s
      else
        let s1 := s.atElapsed at_
        let before := s1.time.now
        let s2 := { s1 with time := { s1.time with now := ((before : Int) + theta).toNat, pendingStep := none, stepped := true } }
        reachPassed (s2.fixQuality.timRecord 0x0201 s2.time.source theta before))

end Sys2Proof.Machine
end

