-- ==== Sys2Proof/Machine/Passbook.lean ====
section
/-! DEFINITION. The Passbook (22 R626 to R640): the units, capacities and memory areas it publishes, its update, and the
bytes of its live and static copies. -/

namespace Sys2Proof.Machine

/-! ## What the live copy publishes (R632, R633, R636) -/

/-- A unit state of the Passbook from the register state of an engine or decode engine. -/
def entryState (state : Nat) : Nat := if state ≤ 2 then state else 3

/-- The unit entries, by kind and then by index. -/
def State.unitEntries (s : State) : List UnitEntry :=
  let eng (p : Nat) : UnitEntry :=
    let e := s.engine p
    { kind := 1, index := p, state := entryState e.state, logical := if e.state = 0 then e.logical else 0xFF, flags := 2 * bit e.underAssay
      region := regionOf p, detail := (e.assayPassed.getD 0) / second % 2 ^ 32 + 2 ^ 32 * (heldStrikes s e.strikes).length }
  let dec (d : Nat) : UnitEntry :=
    let e := s.dec d
    { kind := 2, index := d, state := if e.state = 3 then 1 else entryState e.state, flags := 2 * bit (e.state == 3)
      detail := min 255 (recent s.time.elapsed day e.violations).length }
  let enc (n : Nat) : UnitEntry := { kind := 3, index := n, state := 2 * bit (s.encoder n).fenced }
  let clr (r : Nat) : UnitEntry :=
    let served := (List.range 4).filter fun g => s.clrServing g == some r
    { kind := 4, index := r, state := 2 * bit (s.clr r).fenced, region := r
      flags := 4 * bit (s.keeper == some r) + 8 * bit (served.any (· != r)), detail := (served.map (2 ^ ·)).sum }
  let rgn (g : Nat) : UnitEntry :=
    let x := s.region g
    { kind := 5, index := g, state := 2 * bit x.fenced, flags := bit x.degraded + 16 * bit (x.state == 1), region := g
      detail := s.inService g + 256 * s.reserves g + 65536 * (recent s.time.elapsed (3600 * second) x.restartTimes).length }
  let mem (n : Nat) : UnitEntry :=
    { kind := 6, index := n, state := 3 * bit ((s.dram n).state == 3), detail := (s.dram n).remapFree + 65536 * min 255 (s.dram n).lanes }
  let net (n : Nat) : UnitEntry := { kind := 7, index := n, state := 0, detail := (s.netPort n).mode }
  let brg (b : Nat) : UnitEntry :=
    let x := s.bridge b
    { kind := 8, index := b, state := 3 * bit x.lost, detail := b + 256 * min x.spares x.sparesBack + 65536 * bit x.half }
  (List.range 72).map eng ++ (List.range 18).map dec ++ (List.range 4).map enc ++ (List.range 4).map clr ++ (List.range 4).map rgn
    ++ (List.range 2).map mem ++ (List.range 2).map net ++ (List.range 3).map brg

/-- The host staging area: 64 MiB, then the settlement staging buffer of 128 KiB (17 R506). -/
def hostStagingSize : Nat := 64 * 1048576 + 131072

/-- The memory areas: area, address, size. -/
def State.memoryAreas (s : State) : List (Nat × Nat × Nat) :=
  [(1, s.layout.hostStaging, hostStagingSize), (2, s.layout.hostBuffer, 131072), (3, s.layout.journal, s.cfg.journalBytes),
   (4, s.layout.trace, s.cfg.traceBytes), (5, s.layout.clips, s.cfg.clipBytes), (6, s.layout.gallery, s.cfg.galleryBytes),
   (7, s.layout.modelStaging, s.cfg.stagingBytes)]

/-- Everything the live copy says now, under a generation. -/
def State.publish (s : State) (generation : Nat) : Passbook :=
  { generation := generation, units := s.unitEntries, decodeEngines := s.decInService, encoders := s.encInService
    clearings := s.clrInService, able := s.ableRegions.length, gallery := s.cfg.galleryBytes / 256
    running := if s.boot.step = 8 then s.boot.running else 0xFF
    charter := s.boot.charterVersion, lifecycle := s.fuses.lifecycle, areas := s.memoryAreas }

/-- The update of R630: when anything has changed, the generation goes through odd to the next even value. -/
def updatePassbook (s : State) : State :=
  if s.publish s.passbook.generation = s.passbook then s
  else { s with passbook := s.publish (s.passbook.generation + 2) }

/-- PASSBOOK_UPDATE (22 R630). -/
def execPassbookUpdate (s : State) : Out := done (if s.answers then updatePassbook s else s)

/-! ## Entries -/

/-- An entry: type, length and body, filled to a multiple of 8 bytes. -/
def pbEntry (type : Nat) (body : List Byte) : List Byte :=
  let len := roundUp (4 + body.length) 8
  leBytes 2 type ++ leBytes 2 len ++ body ++ leBytes (len - 4 - body.length) 0

/-- The register blocks: prefix, instance, base, size (register summary, R634). -/
def registerBlocks : List (Nat × Nat × Nat × Nat) :=
  let many (prefix_ n base size : Nat) := (List.range n).map fun i => (prefix_, i, base + size * i, size)
  [(0x01, 0xFF, 0x40000, 0x10000)] ++ many 0x02 4 0xF0000 0x1000 ++ many 0x03 72 0x100000 0x1000 ++ many 0x04 4 0xF4000 0x1000
    ++ many 0x05 18 0xD0000 0x1000 ++ many 0x06 4 0xC8000 0x1000 ++ [(0x07, 0xFF, 0x82000, 0x2000), (0x08, 0xFF, 0xA0000, 0x20000)]
    ++ many 0x09 2 0xC4000 0x1000 ++ [(0x0A, 0xFF, 0x81000, 0x1000)] ++ many 0x0B 2 0xC0000 0x1000
    ++ [(0x0C, 0xFF, 0xC2000, 0x1000), (0x0D, 0xFF, 0x51000, 0x1000), (0x0E, 0xFF, 0x50000, 0x1000), (0x0F, 0xFF, 0x52000, 0x2000),
        (0x10, 0xFF, 0x54000, 0x2000), (0x11, 0xFF, 0x58000, 0x8000), (0x12, 0xFF, 0x70000, 0x10000), (0x13, 0xFF, 0x60000, 0x4000),
        (0x14, 0xFF, 0x80000, 0x1000)]

/-- The block, prefix and instance of a register offset. -/
def blockOf (off : Nat) : Option (Nat × Nat × Nat × Nat) :=
  registerBlocks.find? fun b => decide (b.2.2.1 ≤ off) && decide (off < b.2.2.1 + b.2.2.2)

/-- The die of a unit: 0 CD0, 1 CD1, 2 MD; a bridge's is the Passbook's. -/
def unitDie (u : UnitEntry) : Nat :=
  if u.kind = 1 then u.index / 36
  else if u.kind = 4 ∨ u.kind = 5 then u.index / 2
  else if u.kind = 8 then Config.passbookValue 10 u.index % 256
  else 2

def deviceEntry (s : State) (b : Passbook) : List Byte :=
  pbEntry 0x0001 (leBytes 8 s.fuses.deviceId ++ leBytes 1 s.fuses.grade ++ leBytes 1 pciRevision ++ leBytes 1 b.lifecycle ++ leBytes 1 b.running
    ++ leBytes 2 pciDeviceId ++ leBytes 6 s.fuses.mac0 ++ leBytes 6 s.fuses.mac1 ++ leBytes 2 0 ++ leBytes 8 b.charter ++ leBytes 8 0)

def blockEntry (b : Nat × Nat × Nat × Nat) : List Byte :=
  pbEntry 0x0002 (leBytes 1 b.1 ++ leBytes 1 b.2.1 ++ leBytes 2 (Config.passbookValue 0 b.1) ++ leBytes 4 b.2.2.1 ++ leBytes 4 b.2.2.2)

def unitEntry (u : UnitEntry) : List Byte :=
  pbEntry 0x0003 (leBytes 1 u.kind ++ leBytes 1 u.index ++ leBytes 1 u.state ++ leBytes 1 u.logical ++ leBytes 1 u.flags ++ leBytes 1 (unitDie u)
    ++ leBytes 1 u.region ++ leBytes 1 0 ++ leBytes 8 u.detail ++ leBytes 4 0)

/-- Codec capabilities: codec, profile, depths, level, width, height, direction (04 R137, 12 R368). -/
def codecRows : List (Nat × Nat × Nat × Nat × Nat × Nat × Nat) :=
  [(1, 1, 1, 51, 4096, 2304, 0), (1, 2, 1, 51, 4096, 2304, 0), (1, 3, 1, 51, 4096, 2304, 0), (1, 3, 1, 51, 4096, 2304, 1),
   (2, 1, 1, 61, 8192, 4320, 0), (2, 1, 1, 61, 8192, 4320, 1), (2, 2, 3, 61, 8192, 4320, 0), (3, 0, 3, 60, 8192, 4320, 0)]

def codecEntry (c : Nat × Nat × Nat × Nat × Nat × Nat × Nat) : List Byte :=
  pbEntry 0x0004 (leBytes 1 c.1 ++ leBytes 1 c.2.1 ++ leBytes 1 c.2.2.1 ++ leBytes 1 c.2.2.2.1 ++ leBytes 2 c.2.2.2.2.1
    ++ leBytes 2 c.2.2.2.2.2.1 ++ leBytes 1 c.2.2.2.2.2.2 ++ leBytes 3 0)

def capacityEntry (b : Passbook) : List Byte :=
  pbEntry 0x0005 (leBytes 8 (3000000000 * b.decodeEngines) ++ leBytes 8 497664000 ++ leBytes 2 1024 ++ leBytes 2 768 ++ leBytes 1 64 ++ leBytes 1 64
    ++ leBytes 1 16 ++ leBytes 1 0xFF ++ leBytes 4 1048576 ++ leBytes 4 b.gallery ++ leBytes 2 1024 ++ leBytes 2 b.decodeEngines
    ++ leBytes 1 b.encoders ++ leBytes 1 b.clearings ++ leBytes 1 b.able ++ leBytes 21 0)

def settledEntry (f : Nat × Nat) : List Byte :=
  let b := (blockOf f.1).getD (0, 0xFF, 0, 0)
  pbEntry 0x0006 (leBytes 1 b.1 ++ leBytes 1 b.2.1 ++ leBytes 2 0 ++ leBytes 4 f.1 ++ leBytes 4 f.2)

def areaEntry (a : Nat × Nat × Nat) : List Byte :=
  pbEntry 0x0007 (leBytes 1 a.1 ++ leBytes 3 0 ++ leBytes 8 a.2.1 ++ leBytes 8 a.2.2)

def geometryEntry (n : Nat) : List Byte :=
  pbEntry 0x0008 (leBytes 1 n ++ leBytes 1 16 ++ leBytes 2 0 ++ leBytes 8 (Config.passbookValue 1 n) ++ leBytes 8 (Config.passbookValue 2 n)
    ++ leBytes 8 (Config.passbookValue 3 n))

/-- Observation groups the Passbook lists, at most 1,024, and the domain of one (20 R592, R594). -/
def obsGroups : Nat := Config.passbookValue 4 0 % 1025
def obsDomain (g : Nat) : Nat := Config.passbookValue 5 g % 4

def groupEntry (g : Nat) : List Byte :=
  pbEntry 0x0009 (leBytes 2 g ++ leBytes 1 (obsDomain g) ++ leBytes 1 0 ++ leBytes 32 (Config.passbookValue 6 g))

def sensorEntry (i : Nat) : List Byte :=
  pbEntry 0x000A (leBytes 1 i ++ leBytes 1 (Config.passbookValue 8 i) ++ leBytes 1 (Config.passbookValue 9 i) ++ leBytes 1 0)

/-! ## The two copies (R626 to R629) -/

/-- The settled fields in register order. -/
def settledInOrder : List (Nat × Nat) :=
  settledFields.take 2 ++ settledFields.drop 8 ++ (settledFields.drop 2).take 6

/-- A copy with its header and CRC. -/
def passbookBytes (s : State) (b : Passbook) (live : Bool) : List Byte :=
  let entries := [deviceEntry s b] ++ registerBlocks.map blockEntry ++ b.units.map unitEntry ++ codecRows.map codecEntry ++ [capacityEntry b]
    ++ settledInOrder.map settledEntry ++ b.areas.map areaEntry ++ (List.range 2).map geometryEntry
    ++ (List.range obsGroups).map groupEntry ++ (List.range (Config.passbookValue 7 0 % 257)).map sensorEntry
  let body := entries.flatten
  let head (crc : Nat) : List Byte := leBytes 4 0x4C4D5042 ++ leBytes 2 1 ++ leBytes 1 (bit live) ++ leBytes 1 0xB1
    ++ leBytes 8 b.generation ++ leBytes 4 (32 + body.length) ++ leBytes 4 entries.length ++ leBytes 4 crc ++ leBytes 4 0
  head (crc32 (head 0 ++ body)).toNat ++ body

/-- The live copy at BAR0 offset 0. -/
def livePassbook (s : State) : List Byte := passbookBytes s s.passbook true

/-- The static copy of the expansion ROM window: units in their first-start state under the reset configuration (R626). -/
def staticPassbook (s : State) : List Byte :=
  let first : State := { decs := (List.range 16).foldl (fun t d => Table.set {} d { state := 0 } t) [] }
  let b := first.publish 0
  passbookBytes s { b with lifecycle := s.fuses.lifecycle } false

end Sys2Proof.Machine
end

