-- ==== Sys2Proof/Machine/Scheduling.lean ====
section
/-! DEFINITION. The sharing of engines (03 R118, R127, R129, R130) and the model switch (03 R131 to R135). -/

namespace Sys2Proof.Machine

/-! ## Slices (03 R118, 13 R397) -/

def execSliceStart (g : Nat) (s : State) : Out :=
  done (if s.mayBegin && decide (g < 4) && s.regionIssues g then startSlice s g else s)

/-! ## Energy (03 R127) -/

/-- The first `k` of the weights' total. -/
def prefixSum (ws : List Nat) (k : Nat) : Nat := (ws.take k).sum

/-- The share of part `i` of an energy in proportion to weights, in nanojoules; the shares of all parts add up to it. -/
def shareOf (e : Nat) (ws : List Nat) (i : Nat) : Nat :=
  if ws.sum = 0 then 0 else e * prefixSum ws (i + 1) / ws.sum - e * prefixSum ws i / ws.sum

/-- An energy in nanojoules added to a till, with the remainder below 1 uJ carried. -/
def addEnergy (t : Till) (nj : Nat) : Till :=
  { t with energy := t.energy + BitVec.ofNat 64 ((t.remainder + nj) / 1000), remainder := (t.remainder + nj) % 1000 }

/-- The counts of a millisecond cleared. -/
def clearMs (t : Till) : Till := { t with ms0 := 0, ms1 := 0, msMedia := 0, msDram := 0 }

/-- The tills that share dynamic energy: those of the accounts, then the device's first four. -/
def State.sharingTills (s : State) : List Till := (List.range 64).map s.till ++ (List.range 4).map s.devTill

/-- What part `i` takes of a millisecond's energies. -/
def partOf (e : Energy) (ts : List Till) (i : Nat) : Nat :=
  shareOf e.cd0 (ts.map (·.ms0)) i + shareOf e.cd1 (ts.map (·.ms1)) i + shareOf e.media (ts.map (·.msMedia)) i
    + shareOf e.dram (ts.map (·.msDram)) i

/-- Energy that no work of the millisecond claims goes to the static till with the static energy, so that none is lost. -/
def unclaimed (e : Energy) (ts : List Till) : Nat :=
  (if (ts.map (·.ms0)).sum = 0 then e.cd0 else 0) + (if (ts.map (·.ms1)).sum = 0 then e.cd1 else 0)
    + (if (ts.map (·.msMedia)).sum = 0 then e.media else 0) + (if (ts.map (·.msDram)).sum = 0 then e.dram else 0)

/-- One millisecond's energies apportioned. -/
def apportion (s : State) (e : Energy) : State :=
  let ts := s.sharingTills
  let s1 := (List.range 64).foldl (fun a i => a.modTill i fun t => clearMs (addEnergy t (partOf e ts i))) s
  let s2 := (List.range 4).foldl (fun a i => a.modDevTill i fun t => clearMs (addEnergy t (partOf e ts (64 + i)))) s1
  s2.modDevTill 4 fun t => addEnergy t (e.idle + unclaimed e ts)

/-- ENERGY_APPORTION (03 R127): once per millisecond of elapsed time. -/
def execEnergyApportion (e : Energy) (s : State) : Out := done (if s.running then apportion (s.atMultiple 1000000) e else s)

/-! ## Slow-down (03 R129, R130) -/

/-- The mean of observed over solo latency in Q8.8, saturating; 0x0100 without a sample. -/
def slowRatio (xs : List (Nat × Nat)) : Nat :=
  let ys := xs.filter fun x => decide (0 < x.2)
  if ys.isEmpty then 0x0100
  else
    let t := ys.foldl (fun acc x => addFrac acc x.1 x.2) (0, 1)
    min 0xFFFF (256 * t.1 / (t.2 * ys.length))

/-- The ratio of an account and its alarm: at 10 seconds above the threshold, then each further 60. -/
def slowAccount (s : State) (a : Nat) : State :=
  let t := s.till a
  let ratio := slowRatio t.samples
  let limit := s.cfg.alarmOf a
  let above := if limit < ratio then t.overSeconds + 1 else 0
  let s1 := s.setTill a { t with slowdown := ratio, samples := [], overSeconds := above }
  if above ≠ 0 ∧ 10 ≤ above ∧ (above - 10) % 60 = 0 then
    s1.emit { s1.record 0x0203 ucRGN (.tim { ratio := ratio, threshold := limit, seconds := above }) with account := a }
  else s1

/-- SLOWDOWN_SECOND (03 R129): each second. -/
def execSlowdownSecond (s : State) : Out :=
  done (if s.running then (List.range 64).foldl slowAccount (s.atMultiple second) else s)

/-! ## The model switch (03 R132 to R135) -/

/-- A region has completed its admitted samples of the old epoch, and runs. -/
def regionCut (s : State) (g : Nat) : Bool :=
  (s.region g).fenced || (s.regionIssues g && !(s.rolling.any fun e => e.1 / 64 == g && e.2.members.any (s.oldStamp ·.epoch)))

/-- T_switch in ns (R133), with t_cut at the lowest clock ratio of the compute dies. -/
def switchNs (s : State) (w live : Nat) : Nat :=
  let ratio := max 1 (min s.power.cd0 s.power.cd1)
  ceilDiv (30000 * 32) (3 * ratio) + ceilDiv w 600 + ceilDiv live 400 + 1500000

/-- MODEL_SWITCH_CUT (R132): the last region has completed its old-epoch samples. -/
def execModelSwitchCut (s : State) : Out :=
  done (match s.switch with
    | none => s
    | some x =>
      if !s.running || x.cutAt.isSome || !(List.range 4).all (regionCut s) then s
      else
        let live := if x.adoption then 0 else x.new.convBytes * s.cfg.active.length
        let s1 := (List.range 4).foldl (fun a g => a.modRegion g fun r => { r with cut := true }) s
        { s1 with switch := some { x with cutAt := some s.time.elapsed, deadline := s.time.elapsed + switchNs s x.bytes live } })

/-- The per-stream state at the end of a switch: re-laid when the conversion program declares all of it convertible, else
discarded with the boxes and checkpoints made under the old model; its size is the new model's (03 R134). -/
def convertStreams (s : State) (x : Switch) : State :=
  let whole := decide (x.oldState ≤ x.new.convBytes)
  s.cfg.active.foldl (fun a e =>
    if whole then
      { a with free := a.free + x.new.perStream }.modStream e.1 fun t => { t with stateBytes := x.new.perStream, liveState := a.freeBytes x.new.perStream }
    else a.modStream e.1 fun t => { t with stateBytes := x.new.perStream, liveState := [], boxes := [], ckpts := [] }) s

/-- Samples of the old epoch that no region has admitted: with their model gone they are analysed no more (03 R132, R135). -/
def dropUnadmitted (s : State) : State :=
  s.rolling.foldl (fun a e =>
    a.setRolling (e.1 / 64) (e.1 % 64) { e.2 with waiting := e.2.waiting.filter fun p => p.epoch == s.stl.epoch.toNat }) s

/-- MODEL_SWITCH_END (R133, R134): the new model is resident, and waiting new-epoch samples are admitted. -/
def execModelSwitchEnd (s : State) : Out :=
  done (match s.switch with
    | none => s
    | some x =>
      if !s.running || x.cutAt.isNone || (List.range 4).any fun g => decide ((s.region g).state = 1) && !(s.region g).fenced then s
      else
        let s0 := s.atElapsed x.deadline
        let s1 := if x.adoption then s0 else dropUnadmitted (convertStreams s0 x)
        let s2 := (List.range 4).foldl (fun a g => a.modRegion g fun r => { r with cut := false, admitStopped := false }) { s1 with switch := none }
        s2.rolling.foldl (fun a e => joinLoop e.2.waiting.length a (e.1 / 64) (e.1 % 64)) s2)

end Sys2Proof.Machine
end

