-- ==== Sys2Proof/Machine/Pci.lean ====
section
/-! DEFINITION. The PCI Express endpoint (17): the link and its resets, configuration writes, BAR2, address translation, the
two rings' controls, the delivery of journal records, and the interrupt. -/

namespace Sys2Proof.Machine

/-- The endpoint answers memory requests: the link is up and the function is in D0. -/
def State.pciServes (s : State) : Bool := s.answers && s.pci.up && !s.pci.d3hot

/-! ## Host memory (16 R479, 17 R513, R514) -/

/-- Host addresses the endpoint can reach. -/
def hostReach : Nat := 2 ^ 47

/-- A host range can be read or written now. -/
def State.hostReachable (s : State) (h n : Nat) : Bool := s.pciServes && decide (h + n ≤ hostReach)

/-- Host memory at a host address. -/
def State.hostBytes (s : State) (h n : Nat) : List Byte := s.bytes (hostBase + h) n

/-- A host page used with ATS enabled: most recently used last, 1,024 kept (R514). -/
def touchPage (s : State) (h : Nat) : State :=
  if !s.pci.ats then s
  else
    let page := h / 4096
    let l := s.pci.atc.filter (· != page) ++ [page]
    { s with pci := { s.pci with atc := l.drop (l.length - 1024) } }

/-- Every host page of a range used. -/
def touchPages (s : State) (h n : Nat) : State :=
  if n = 0 then s
  else (List.range ((h + n - 1) / 4096 - h / 4096 + 1)).foldl (fun a i => touchPage a (4096 * (h / 4096 + i))) s

/-- Bytes written to host memory. -/
def State.hostStore (s : State) (h : Nat) (bs : List Byte) : State :=
  let s1 := touchPages s h bs.length
  { s1 with mem := memWrite s1.mem (hostBase + h) bs }

/-! ## Configuration space and the link (R504, R514, R516, R522 to R525) -/

/-- CONFIGURATION_WRITE. -/
def configure (s : State) : CfgField → State
  | .interruptDisable b => ({ s with pci := { s.pci with interruptDisable := b } }).updateInta
  | .atsEnable b => { s with pci := { s.pci with ats := b, atc := if b then s.pci.atc else [] } }
  | .bar2Size g => if g = 16 ∨ g = 32 ∨ g = 64 then { s with pci := { s.pci with bar2Gib := g } } else s

/-- The fields of the configuration header that identify the device, by offset, as a configuration read returns them (R502): vendor and
device identifier, revision, class code 0x120000. -/
def configHeader : List (Nat × List Byte) :=
  [(0x00, leBytes 2 Config.pciVendorId.toNat), (0x02, leBytes 2 pciDeviceId), (0x08, leBytes 1 pciRevision), (0x09, leBytes 3 0x120000)]

def execConfigurationWrite (f : CfgField) (s : State) : Out := done (if s.answers && s.pci.up then configure s f else s)

/-- PCIE_LINK_UP (R522, R523): the link trains unless the strap holds the endpoint off. -/
def execPcieLinkUp (speed width : Nat) (s : State) : Out :=
  done (if s.answers && !s.pins.pcieOff && !s.pins.refLostPcie && within speed 1 5 && [1, 2, 4, 8].contains width then
    ({ s with pci := { s.pci with up := true, speed := speed, width := width } }).updateInta
  else s)

/-- D3HOT_ENTRY and D0_RETURN (R525): every register is kept. -/
def execD3hotEntry (s : State) : Out :=
  done (if s.answers && s.pci.up then ({ s with pci := { s.pci with d3hot := true } }).updateInta else s)
def execD0Return (s : State) : Out :=
  done (if s.answers && s.pci.up then ({ s with pci := { s.pci with d3hot := false } }).updateInta else s)

/-- The endpoint's registers at their reset values, the counts of R522 kept (R524). -/
def resetPci (p : Pci) : Pci :=
  { ({} : Pci) with downs := p.downs, resets := p.resets, up := p.up, speed := p.speed, width := p.width }

/-- The pushes whose bytes are being read are lost: their reads fail (R513). -/
def dropPushes (s : State) : State :=
  s.streams.foldl (fun a e => if e.2.pushes.isEmpty then a else a.modStream e.1 fun t => { t with pushes := [] }) s

/-- An open batch of the host source is discarded (R524). -/
def discardOpenHost (s : State) : State :=
  if (s.page .host).opened then
    s.setPage .host { s.page .host with status := stOK, reason := 0, entry := 0, phase := 0, opened := false, staged := [] }
  else s

/-- What a link-down event or an endpoint reset does to the endpoint alone (R524, 05 R185). -/
def endpointReset (s : State) (e : EndpointEvent) : State :=
  let down := decide (e ≠ .flr)
  let p := resetPci s.pci
  let p1 := if down then { p with up := false, speed := 0, width := 0 } else p
  let p2 := if e = .linkDown then { p1 with downs := min 255 (p1.downs + 1) } else { p1 with resets := min 255 (p1.resets + 1) }
  (discardOpenHost (clearAllMarks (dropPushes { s with pci := p2 }))).updateInta

/-- ENDPOINT_RESET (R524). -/
def execEndpointReset (e : EndpointEvent) (s : State) : Out :=
  done (if s.answers && (s.pci.up || decide (e = .flr ∨ e = .hotReset ∨ e = .linkDisable)) then endpointReset s e else s)

/-! ## BAR2 (R506) -/

/-- The write lies inside one of the staging areas. -/
def inStaging (s : State) (off n : Nat) : Bool :=
  (decide (s.layout.hostStaging ≤ off) && decide (off + n ≤ s.layout.hostStaging + 0x4000000 + 0x20000))
    || (decide (s.layout.modelStaging ≤ off) && decide (off + n ≤ s.layout.modelStaging + s.cfg.stagingBytes))

/-- BAR2_WRITE: outside the staging areas it is dropped and counted. -/
def execBar2Write (off : Nat) (bytes : List Byte) (s : State) : Out :=
  done (if !s.pciServes || decide (s.pci.bar2Gib * 2 ^ 30 < off + bytes.length) then s
    else if inStaging s off bytes.length then s.store off bytes
    else { s with pci := { s.pci with dropped := s.pci.dropped + 1 } })

/-- BAR2_READ: zeros at or beyond 48 GiB; a read that touches a void granule completes poisoned (14 R414), with bytes that
the manual does not give. -/
def execBar2Read (off n : Nat) (s : State) : Out :=
  done (if !s.pciServes || decide (s.pci.bar2Gib * 2 ^ 30 < off + n) then s
    else if s.anyVoid off (min n (dramEnd - off)) && decide (off < dramEnd) then
      { s with poisoned := true, readback := (List.range n).map fun i => Config.freeByte (s.free + i), free := s.free + n }
    else
      { s with poisoned := false
               readback := (List.range n).map fun i => if off + i < dramEnd then s.byte (off + i) else 0#8 })

/-! ## Address translation (R514, R515) -/

/-- ATS_INVALIDATION: matching entries are removed; the completion follows. At most 32 wait. -/
def execAtsInvalidation (base size : Nat) (s : State) : Out :=
  done (if s.answers && s.pci.up && decide (s.pci.invalidating.length < 32) then
    { s with pci := { s.pci with
        atc := s.pci.atc.filter fun p => decide (4096 * p + 4096 ≤ base) || decide (base + size ≤ 4096 * p)
        invalidating := s.pci.invalidating ++ [(base, size)] } }
  else s)

/-- ATS_INVALIDATION_COMPLETE: every request that used the range has completed. -/
def execAtsInvalidationComplete (s : State) : Out :=
  done (match s.pci.invalidating with
    | [] => s
    | _ :: r => if s.answers && s.pci.up then
        { s with pci := { s.pci with invalidating := r, invalidations := s.pci.invalidations + 1 } } else s)

/-! ## Ring controls (R509, R511, R512, R520, R521) -/

/-- PCI_CMD_RING_CTRL written (R519, R520): read-only bits ignore the write (R8). An interval out of its range leaves the field, and a
size that changes while the ring is enabled is ignored; each is counted (log entry 155). -/
def writeCmdCtrl (s : State) (v : W32) : State :=
  let n := v.toNat
  let enable := n.testBit 31
  let size := bitsOf n 20 5
  let interval := if within (bitsOf n 0 16) 10 10000 then bitsOf n 0 16 else s.pci.cmdInterval
  let p := { s.pci with cmdInterval := interval }
  let count (a : State) : State :=
    if !within (bitsOf n 0 16) 10 10000 || (s.pci.cmdEnable && size != s.pci.cmdSize) then a.countIgnored else a
  count (
    if !enable then clearAllMarks { s with pci := { p with cmdEnable := false, cmdSize := if p.cmdEnable then p.cmdSize else size } }
    else if p.cmdEnable then { s with pci := p }
    else if !within size 6 16 then { s with pci := { p with cmdStatus := stRANGE, cmdSize := size } }
    else
      { s with pci := { p with cmdEnable := true, cmdSize := size, cmdHead := 0, cmdPhase := true, cmdStatus := stOK
                               bad := [], lastFetch := s.time.elapsed, fetchAgain := false } })

/-- CMD_RING_CTRL_WRITE. -/
def execCmdRingCtrlWrite (value : W32) (s : State) : Out := done (if s.answers then writeCmdCtrl s value else s)

/-- The first record that a ring enabled with a start code delivers (R521). -/
def deliveryStart (s : State) (code : Nat) : Nat :=
  let held := s.journal.held.map (·.seq)
  if code = 1 then held.headD s.journal.next
  else if code = 2 then (held.find? fun q => decide (s.pci.jrnFrom.toNat ≤ q)).getD s.journal.next
  else s.journal.next

/-- PCI_JRNL_RING_CTRL written (R519, R521): read-only bits ignore the write (R8). Start code 3, of which the manual says nothing,
leaves the field, and a size or start that changes while the ring is enabled is ignored; each is counted (log entry 155). -/
def writeJrnCtrl (s : State) (v : W32) : State :=
  let n := v.toNat
  let enable := n.testBit 31
  let start := if bitsOf n 29 2 = 3 then s.pci.jrnStart else bitsOf n 29 2
  let size := bitsOf n 24 5
  let p := s.pci
  let count (a : State) : State :=
    if bitsOf n 29 2 = 3 ∨ (p.jrnEnable && (size != p.jrnSize || start != p.jrnStart)) then a.countIgnored else a
  count (
    if !enable then
      { s with pci := { p with jrnEnable := false, jrnSize := if p.jrnEnable then p.jrnSize else size, jrnStart := if p.jrnEnable then p.jrnStart else start } }
    else if p.jrnEnable then s
    else if !within size 8 24 then { s with pci := { p with jrnStatus := stRANGE, jrnSize := size, jrnStart := start } }
    else
      { s with
        pci := { p with jrnEnable := true, jrnSize := size, jrnStart := start, jrnStatus := stOK, produced := 0, consumed := 0
                        jrnNext := deliveryStart s start, sinceInt := 0, oldestInt := none }
        journal := { s.journal with lostFirst := 0, lostCount := 0 } })

/-- JRNL_RING_CTRL_WRITE. -/
def execJrnlRingCtrlWrite (value : W32) (s : State) : Out := done (if s.answers then writeJrnCtrl s value else s)

/-! ## Delivery (R511, R512, R518) -/

/-- The journal ring is served: a running device, link up, in D0 and enabled. -/
def State.jrnServed (s : State) : Bool := s.pciServes && s.pci.jrnEnable && decide (s.phase = .running ∨ s.phase = .safe)

/-- CONSUMED_COUNT_READ: a count above the produced count stops the ring with RANGE (R512). -/
def readConsumed (s : State) : State :=
  if !s.jrnServed || !s.hostReachable s.pci.jrnState.toNat 16 then s
  else
    let c := leNat (s.hostBytes (s.pci.jrnState.toNat + 8) 8)
    let s1 := touchPages s s.pci.jrnState.toNat 16
    if s1.pci.produced < c then ({ s1 with pci := { s1.pci with jrnEnable := false, jrnStatus := stRANGE } }).raise 6
    else { s1 with pci := { s1.pci with consumed := c } }

/-- One record written to its slot of the ring. -/
def deliverRecord (s : State) (bs : List Byte) : State :=
  let slot := s.pci.jrnBase.toNat + 128 * (s.pci.produced % 2 ^ s.pci.jrnSize)
  let s1 := s.hostStore slot bs
  { s1 with pci := { s1.pci with
      produced := s1.pci.produced + 1, sinceInt := s1.pci.sinceInt + 1
      oldestInt := some (s1.pci.oldestInt.getD s1.time.elapsed) } }

/-- The slots the counts leave free. -/
def State.ringRoom (s : State) : Nat := 2 ^ s.pci.jrnSize - (s.pci.produced - s.pci.consumed)

/-- The record 0x060E that tells of records lost: the first number and the count (14 R414). -/
def gapRecord (s : State) (first count : Nat) : Rec :=
  { s.record 0x060E ucFLT (.flt { cls := 2, mark := first, count := count }) with seq := first, status := stVOID }

/-- Records that were reclaimed undelivered, or are void, are told of by one record 0x060E, with the gap cause. -/
def deliverGap (s : State) : State :=
  if s.journal.lostCount = 0 ∨ s.ringRoom = 0 then s
  else
    let r := gapRecord s s.journal.lostFirst s.journal.lostCount
    let s1 := deliverRecord s (recordBytes r)
    ({ s1 with journal := { s1.journal with lostFirst := 0, lostCount := 0 } }).raise 8

/-- The next record, in sequence order: delivered, or counted lost when it is void. -/
def deliverNext (s : State) : State :=
  match s.journal.held.find? fun r => decide (s.pci.jrnNext ≤ r.seq) with
  | none => deliverGap s
  | some r =>
    if s.recordVoid r.seq then
      { s with pci := { s.pci with jrnNext := r.seq + 1 }
               journal := { s.journal with
                 lostFirst := if s.journal.lostCount = 0 then r.seq else s.journal.lostFirst
                 lostCount := s.journal.lostCount + 1 } }
    else
      let s1 := deliverGap s
      if s1.ringRoom = 0 then s1
      else
        let s2 := deliverRecord s1 (recordBytes r)
        { s2 with pci := { s2.pci with jrnNext := r.seq + 1 } }

/-- A burst. -/
def deliverBurst : Nat → State → State
  | 0, s => s
  | k + 1, s => deliverBurst k (deliverNext s)

/-- The count of PCI_INT_MODERATION has been reached: the journal cause. -/
def moderate (s : State) : State :=
  if s.pci.intCount ≤ s.pci.sinceInt then
    ({ s with pci := { s.pci with sinceInt := 0, oldestInt := none } }).raise 0
  else s

/-- JOURNAL_RING_DELIVER (R511, R512): a burst of up to `count` records and then the produced count. -/
def execJournalRingDeliver (count : Nat) (s : State) : Out :=
  done (if !s.jrnServed then s
    else
      let s1 := readConsumed s
      if !s1.pci.jrnEnable then s1
      else if !s1.hostReachable s1.pci.jrnBase.toNat (128 * 2 ^ s1.pci.jrnSize) || !s1.hostReachable s1.pci.jrnState.toNat 16 then
        ({ s1 with pci := { s1.pci with jrnEnable := false, jrnStatus := stBOUND } }).raise 6
      else
        let s2 := deliverBurst count s1
        if s2.pci.produced = s1.pci.produced then s2
        else moderate (s2.hostStore s2.pci.jrnState.toNat (leBytes 8 s2.pci.produced)))

/-- JOURNAL_INT_MODERATION (R518): the oldest delivered record has waited the timer. -/
def execJournalIntModeration (s : State) : Out :=
  done (match s.pci.oldestInt with
    | none => s
    | some t =>
      if !s.answers then s
      else
        let s1 := s.atElapsed (t + 1000 * s.pci.intTimer)
        ({ s1 with pci := { s1.pci with sinceInt := 0, oldestInt := none } }).raise 0)

end Sys2Proof.Machine
end

