-- ==== Sys2Proof/Machine/Debug.lean ====
section
/-! DEFINITION. Observation (20): the trace's control and its writing to DRAM, watch commands and captures, the debug halt, the
test multiplexers and the JTAG port. -/

namespace Sys2Proof.Machine

/-! ## Trace (R576 to R581) -/

/-- Bytes of the trace area: the reserve below the dump area. -/
def State.traceArea (s : State) : Nat := s.cfg.traceBytes - s.dbg.dump * 0x1000000

/-- Record 0x0A01. -/
def traceRecord (s : State) : State := s.emit (s.record 0x0A01 ucDBG (.dbg {}))

/-- A privileged watch with a DRAM destination is armed. -/
def dumpArmed (s : State) : Bool := s.dbg.watches.any fun e => decide (64 ≤ e.1) && e.2.state != 0 && e.2.req.toDump

/-- A write of DBG_TRACE_CTRL (R580). -/
def writeTraceCtrl (s : State) (v : Nat) : State :=
  let enable := v.testBit 31
  let dump := bitsOf v 24 6
  let sources := bitsOf v 0 18
  let changes := dump != s.dbg.dump || sources != s.dbg.sources
  if (s.dbg.traceEnable && changes) || decide (s.cfg.traceBytes < dump * 0x1000000) || (dump != s.dbg.dump && dumpArmed s) then s.countIgnored
  else
    let d := { s.dbg with traceEnable := enable, traceStop := v.testBit 30, dump := dump, sources := sources }
    if enable && !s.dbg.traceEnable then
      traceRecord { s with dbg := { d with traceState := 1, traceSeq := 0, ptr := 0 } }
    else if !enable && s.dbg.traceEnable then traceRecord { s with dbg := { d with traceState := 0 } }
    else { s with dbg := d }

/-- TRACE_CTRL_WRITE (20 R580). -/
def execTraceCtrlWrite (_src : Src) (value : W32) (s : State) : Out := done (if s.answers then writeTraceCtrl s value.toNat else s)

/-- The 32 bytes of a trace record (R576). -/
def traceBytes (r : TraceRec) (seq : Nat) : List Byte :=
  leBytes 8 r.station ++ leBytes 1 r.cls ++ leBytes 1 r.inst ++ leBytes 2 r.code ++ leBytes 4 seq ++ leBytes 16 r.data

/-- One record written to the trace area: wrapping, or stopping when it does not fit (R579). -/
def writeTrace (s : State) (r : TraceRec) : State :=
  let area := s.traceArea
  if s.dbg.traceState ≠ 1 then s
  else if area < s.dbg.ptr + 32 ∧ (s.dbg.traceStop ∨ area < 32) then traceRecord { s with dbg := { s.dbg with traceState := 2 } }
  else
    let wraps := decide (area < s.dbg.ptr + 32)
    let p := if wraps then 0 else s.dbg.ptr
    let s1 := s.store (s.layout.trace + p) (traceBytes r s.dbg.traceSeq.toNat)
    { s1 with dbg := { s1.dbg with ptr := p + 32, wrapped := s1.dbg.wrapped || wraps, traceSeq := s1.dbg.traceSeq + 1 } }

/-- TRACE_BUFFER_FLUSH (20 R578): a unit's buffered records, in order. -/
def execTraceBufferFlush (cls inst : Nat) (s : State) : Out :=
  done (if s.answers then
    let key := 256 * cls + inst
    let rs := Table.get [] key s.dbg.buffers
    rs.foldl writeTrace { s with dbg := { s.dbg with buffers := Table.set [] key [] s.dbg.buffers } }
  else s)

/-! ## Watch commands (R582 to R584, R590) -/

/-- Descriptors of a segment and logical engine of the model in force (08 R261). -/
def descriptorCount (s : State) (segment l : Nat) : Nat :=
  field (s.bytes (s.cfg.model.image + s.cfg.model.segTable + 32 * (16 * segment + l)) 32) 24 2

/-- A request within its ranges (R583, R584). -/
def watchInRange (s : State) (w : Nat) (q : WatchReq) : Bool :=
  let dump := s.dbg.dump * 0x1000000
  (q.kind == 1 || q.kind == 2) && decide (q.flags < 4) && q.reserved == 0 && q.mask != 0
    && (if q.kind = 1 then decide (q.stream < 1024) && decide (q.segment < s.cfg.model.segments)
          && (((List.range 16).filter q.mask.testBit).all fun l => decide (q.desc < descriptorCount s q.segment l))
        else decide (q.desc < 64))
    && (if q.toDump then decide (q.addr + q.size ≤ dump) else decide (q.addr + q.size ≤ hostReach))
    && (decide (64 ≤ w) || (q.kind == 1 && !q.toDump))

/-- A safety settlement is pending (02 R77, R82). -/
def safetyPending (s : State) : Bool := ((s.stl.batch.map (·.safety)).getD false) || !s.stl.safetyZones.isEmpty

/-- ARM is not legal now. -/
def watchBarred (s : State) (w : Nat) (x : Watch) (q : WatchReq) : Bool :=
  let row := s.cfg.stream q.stream
  x.state != 0 || safetyPending s || (decide (w < 64) && !(row.active && row.account == w))

/-- A watch command names a slot through the view it arrives by (R574, R582). -/
def watchSlot (w : Nat) (account : Bool) : Bool := if account then decide (w < 64) else decide (w < 68)

/-- ARM (20 R584): a rejected one changes nothing but the status. -/
def arm (s : State) (w : Nat) : State :=
  let x := s.watch w
  let q := x.req
  if !watchInRange s w q then s.setWatch w { x with status := stRANGE }
  else if watchBarred s w x q then (s.setWatch w { x with status := stSTATE }).countReject 0 0x01
  else s.setWatch w { x with status := stOK, state := 1, armedAt := s.time.elapsed, tick := 0, slot := 0 }

def execArm (w : Nat) (account : Bool) (s : State) : Out := done (if s.answers && watchSlot w account then arm s w else s)

/-- DISARM (20 R590): an armed watch ends with EMPTY; there is nothing to end in an idle slot, and a copy in progress runs on. -/
def disarm (s : State) (w : Nat) : State :=
  let x := s.watch w
  if x.state = 1 then stopWatch s w stEMPTY
  else if x.state = 0 then s.setWatch w { x with status := stEMPTY }
  else (s.setWatch w { x with status := stSTATE }).countReject 0 0x02

def execDisarm (w : Nat) (account : Bool) (s : State) : Out := done (if s.answers && watchSlot w account then disarm s w else s)

/-! ## Captures (R585 to R589) -/

/-- Watches of kind 1 that a finished segment of a member fires: its stream, tick and segment. -/
def fireStream (s : State) (m : Member) : State :=
  s.dbg.watches.foldl (fun a e =>
    let q := e.2.req
    if e.2.state = 1 ∧ q.kind = 1 ∧ q.stream = m.stream ∧ q.tick ≤ m.tick ∧ q.segment = m.segment then
      a.setWatch e.1 { e.2 with state := 2, tick := m.tick, slot := m.slot }
    else a) s

/-- Watches of kind 2 that the end of a step fires. -/
def fireStep (s : State) (step : Nat) : State :=
  s.dbg.watches.foldl (fun a e =>
    let q := e.2.req
    if e.2.state = 1 ∧ q.kind = 2 ∧ q.tick = step then a.setWatch e.1 { e.2 with state := 2, tick := step } else a) s

/-- The result of a capture (R589). -/
def watchResult (status tick station : Nat) (slot sats written : Nat) (t : WatchStats) (elements : Nat) (digest : List Byte) (flags : Nat) :
    List Byte :=
  leBytes 1 (status + flags) ++ leBytes 1 slot ++ leBytes 2 0 ++ leBytes 4 elements ++ leBytes 8 tick ++ leBytes 8 station
    ++ leBytes 4 t.min.toNat ++ leBytes 4 t.max.toNat ++ leBytes 4 t.mean.toNat ++ leBytes 4 t.nans ++ leBytes 4 t.infs ++ leBytes 4 sats
    ++ leBytes 4 written ++ leBytes 4 0 ++ digest ++ t.hist.flatMap (leBytes 4)

/-- Each named engine's DMA copies its part at 128 bytes per cycle; a step's copy is charged to the adaptation till (R585). -/
def chargeCopy (s : State) (q : WatchReq) (parts : List WatchPart) : State :=
  if q.kind = 1 then s
  else parts.foldl (fun a x => chargeDev a 3 x.engine (ceilDiv q.slotBytes 128)) s

/-- The copy of a capture ends (R586 to R588). -/
def completeCopy (s : State) (w slot sats : Nat) (failed : Bool) : State :=
  let x := s.watch w
  let q := x.req
  let at_ := if q.kind = 1 then x.slot else slot
  let parts := watchParts s q at_
  if parts.any fun p => s.anyVoid p.addr q.slotBytes then stopWatch (s.setWatch w { x with slot := at_ }) w stVOID
  else
    let rows := parts.flatMap fun p => (p.rows s q.slotBytes).map fun r => (r.1, r.2.map (codeF32 p.desc.fmt))
    let bytes := rows.flatMap (·.1)
    let elems := rows.flatMap (·.2)
    let fits := decide (bytes.length ≤ q.size)
    let write := fits && !q.statsOnly
    let bad := write && !q.toDump && (failed || !s.hostReachable q.addr bytes.length)
    let st := if bad then stBOUND else stOK
    let landed := write && !bad
    let s1 := if !landed then s
      else if q.toDump then s.store (s.layout.trace + s.traceArea + q.addr) bytes
      else s.hostStore q.addr bytes
    let flags := 16 * bit q.statsOnly + 32 * bit (!fits) + 64 * bit landed
    let r := watchResult st x.tick s.time.now at_ sats (if landed then bytes.length else 0) (watchStats s.free elems) elems.length
      (shake256 bytes 8) flags
    endWatch { chargeCopy s1 q parts with free := s.free + 2 } w st r

/-- WATCH_COPY_COMPLETE (20 R587). -/
def execWatchCopyComplete (w slot sats : Nat) (hostWriteFailed : Bool) (s : State) : Out :=
  done (if s.running && decide ((s.watch w).state = 2) then completeCopy s w slot sats hostWriteFailed else s)

/-! ## Debug halt (R591, 14 R435, R438) -/

/-- Record 0x060A. -/
def stopRecord (s : State) : State := s.emit (s.record 0x060A ucFLT (.flt {}))

/-- The stop is released: every unit resumes from the cut, pictures past their deadlines are shed, zones re-enter start. -/
def releaseStop (s : State) : State :=
  let s1 := (List.range 72).foldl (fun a p =>
    if (a.engine p).activity = 3 then a.modEngine p fun e => { e with activity := 0, idleSince := a.time.elapsed } else a) s
  let s2 := stopRecord { s1 with flt := { s1.flt with
    stopPhase := 0, immediate := false, state := 0, debugHalt := false, haltByPerm := false } }
  let s3 := s2.zonesOnAll.foldl enterStart s2
  let s4 := (List.range 4).foldl beginNext (passPictures (passDeadlines s3))
  settleChannels (dispatch s4)

/-- The status of the last command of DBG_CMD. -/
def State.dbgStatus (s : State) (st : Nat) : State := { s with dbg := { s.dbg with status := st } }

/-- A halt command: permission bit 2 outside manufacturing, no halt in force, no batch pending, not in the safe state. -/
def halt (s : State) (op : Nat) (immediate : Bool) : State :=
  let free := s.fuses.lifecycle = 0
  if (!free && !s.permits 2) ∨ s.flt.debugHalt ∨ s.stl.batch.isSome ∨ s.phase = .safe then (s.dbgStatus stSTATE).countReject 0 op
  else
    let s1 := globalStop (s.dbgStatus stOK) immediate false
    stopRecord { s1 with flt := { s1.flt with debugHalt := true, haltByPerm := !free } }

def execHalt (s : State) : Out := done (if s.answers then halt s 0x01 false else s)
def execHaltImmediate (s : State) : Out := done (if s.answers then halt s 0x02 true else s)

/-- RELEASE (14 R438, 20 R591). -/
def execReleaseHalt (s : State) : Out :=
  done (if !s.answers then s
    else if s.flt.debugHalt && decide (s.phase ≠ .safe) then releaseStop (s.dbgStatus stOK)
    else (s.dbgStatus stSTATE).countReject 0 0x03)

/-- The unlock ends, and with it a debug halt made under its permission (19 R566). -/
def endUnlock (s : State) : State :=
  let had := s.sec.unlockEnd.isSome
  let s1 := dropUnlock s
  if had && s1.flt.debugHalt && s1.flt.haltByPerm && decide (s1.phase ≠ .safe) then releaseStop s1 else s1

/-! ## Test multiplexers (R592 to R594) -/

/-- The domain clock of a group in MHz: compute, media, control; any other is the Passbook's. -/
def groupMhz (g : Nat) : Nat :=
  if obsDomain g = 0 then 1500 else if obsDomain g = 1 then 1200 else if obsDomain g = 2 then 1000 else Config.passbookValue 11 g / 1000

/-- A write of OBS_SEL. -/
def writeObsSel (s : State) (v : Nat) : State :=
  let enable := v.testBit 31
  let group := bitsOf v 16 10
  let divider := bitsOf v 8 8
  let refuse (st : Nat) : State := ({ s with dbg := { s.dbg with obsStatus := st } }).countIgnored
  if enable && !s.obsUsable then refuse stSTATE
  else if enable && (decide (obsGroups ≤ group) || decide (divider < 5) || decide (200 * divider < groupMhz group)) then refuse stRANGE
  else
    let was := s.pins.obsActive
    let s1 := { s with
      dbg := { s.dbg with obsEnable := enable, obsGroup := group, obsDivider := divider, obsStatus := stOK }
      pins := { s.pins with obsActive := enable } }
    if enable || was then s1.emit (s1.record 0x0A02 ucDBG (.dbg { code := if enable then group else s.dbg.obsGroup })) else s1

/-- OBS_SEL_WRITE (20 R593). -/
def execObsSelWrite (_src : Src) (value : W32) (s : State) : Out :=
  done (if s.answers then writeObsSel s value.toNat else s)

/-! ## Boundary scan (R595, R596) -/

/-- The instruction an opcode selects. -/
def jtagSelect (s : State) (op : Nat) : Nat :=
  if op = 0x01 ∨ op = 0x02 then op
  else if (op = 0x00 ∨ op = 0x04 ∨ op = 0x05) ∧ !s.pins.resetN then op
  else if 0x80 ≤ op ∧ op ≤ 0xFE ∧ s.privateAllowed then op
  else 0xFF

/-- What IDCODE reads (20 R597): version 1 for stepping B1, the part, Dartoja's manufacturer code, and 1. -/
def idcode : W32 := BitVec.ofNat 32 (0x1 * 2 ^ 28 + pciDeviceId * 2 ^ 12 + Config.manufacturerCode.toNat * 2 + 1)

/-- The data register that the port shifts out under the instruction in force, where the manual gives its content: IDCODE, and the
single 0 of BYPASS (IEEE 1149.1). -/
def jtagData (s : State) : Option (Nat × W32) :=
  if s.dbg.jtag = 0x01 then some (32, idcode) else if s.dbg.jtag = 0xFF then some (1, 0) else none

/-- JTAG_INSTRUCTION: an instruction that is not allowed selects BYPASS; a private one writes record 0x0A03. -/
def execJtagInstruction (opcode : Nat) (s : State) : Out :=
  let op := jtagSelect s (opcode % 256)
  let s1 := { s with dbg := { s.dbg with jtag := op } }
  done (if 0x80 ≤ op ∧ op ≤ 0xFE ∧ s.answers then s1.emit (s1.record 0x0A03 ucDBG (.dbg { code := op })) else s1)

/-- TEST_LOGIC_RESET (20 R595). -/
def execTestLogicReset (s : State) : Out := done { s with dbg := { s.dbg with jtag := 0x01 } }

end Sys2Proof.Machine
end

