-- ==== Sys2Proof/Machine/Batches.lean ====
section
/-! DEFINITION. The boundaries of work that repeats: the steps of rolling batches (05 R188 to R190, 14 R417, 20 R585) and of
adaptation jobs (13 R398). -/

namespace Sys2Proof.Machine

/-- The members of a batch that finish their segment at its boundary. -/
def finishing (s : State) (g a : Nat) : List Member := (s.rollingOf g a).members.filter fun m => !m.removed

/-- A checkpoint that the boundary wrote for a member's stream goes to the backup (18 R542). -/
def replicate (before s : State) (m : Member) : State :=
  if (before.stream m.stream).ckpts = (s.stream m.stream).ckpts then s else sendReplica s m.stream m.tick

/-- The boundary of a step: watches fire for the segments that end, members leave and samples join, checkpoints are
written; without a sample left the account's slices end (03 R122). -/
def batchBoundary (s : State) (g a : Nat) : State :=
  let ms := finishing s g a
  let s1 := ms.foldl fireStream s
  let s2 := stepBoundary s1 g a
  endSlicesWithout (ms.foldl (replicate s1) s2) g a

/-- BATCH_STEP_BOUNDARY (05 R188). -/
def execBatchStepBoundary (g a : Nat) (s : State) : Out :=
  done (if s.running && decide (g < 4) && decide (a < 64) && s.regionIssues g then batchBoundary s g a else s)

/-- A step of the running job has ended: its watches fire. -/
def stepEnd (s : State) (inputs : List (List W32)) : State :=
  let s1 := stepComplete s inputs
  if s1.adapt.step = s.adapt.step then s1 else fireStep s1 s1.adapt.step.toNat

/-- ADAPTATION_STEP_COMPLETE (13 R398): in a region that runs the step. -/
def execAdaptationStepComplete (inputs : List (List W32)) (s : State) : Out :=
  done (if s.running && decide (s.adapt.regions ≠ 0) then stepEnd s inputs else s)

end Sys2Proof.Machine
end

