-- ==== Sys2Proof/Machine/Security.lean ====
section
/-! DEFINITION. The root of trust (19): the lifecycle, the identity key and its index counter, attestation, the debug unlock, and
the end of internal flash writes (02 R52, R80). -/

namespace Sys2Proof.Machine

/-! ## Commands -/

/-- The status of the last SEC command (R570). -/
def State.secStatus (s : State) (st : Nat) : State := { s with sec := { s.sec with status := st } }

/-- A SEC command that is not legal now (R556, R562, 02 R81). -/
def secReject (s : State) (op : Nat) : State := (s.secStatus stSTATE).countReject 0 op

/-- A record of this chapter; the lifecycle is the one after the event (R568). -/
def State.secRecord (s : State) (type status : Nat) (p : SecPl) : State :=
  s.emit { s.record type ucSEC (.sec { p with lifecycle := s.fuses.lifecycle }) with status := status }

/-! ## Debug unlock (R563 to R566) -/

/-- CHALLENGE loads random bytes, valid for 600 s. -/
def execChallenge (random : Nat) (s : State) : Out :=
  done (if s.answers then
    { s with sec := { s.sec with status := stOK, challenge := random % 2 ^ 256, challengeAt := some s.time.elapsed } }
  else s)

/-- The token in SEC_TOKEN_BUF: a 160-byte body and its signature (R564). -/
def State.tokenBytes (s : State) (off n : Nat) : List Byte := (List.range n).map fun i => Table.get 0 (off + i) s.sec.token

/-- A field of the token's body. -/
def State.tokenField (s : State) (off n : Nat) : Nat := leNat (s.tokenBytes off n)

/-- The magic, the version, the permission bits and the duration are as R564 gives them. -/
def tokenForm (s : State) : Bool :=
  s.tokenField 0 4 == 0x4C4D544B && s.tokenField 4 2 == 1 && decide (s.tokenField 48 8 < 16) && within (s.tokenField 56 4) 1 28800

/-- The signers whose tokens the lifecycle accepts (R555). -/
def signerAllowed (lifecycle signer : Nat) : Bool :=
  if lifecycle = 1 then decide (signer ≤ 1) else if lifecycle = 2 then signer == 1 else signer == 0

/-- The token names this device, this lifecycle and the valid challenge, and its signature verifies under an allowed key. -/
def tokenGood (s : State) : Bool :=
  let signer := s.tokenField 6 1
  let fuse := if signer = 0 then s.fuses.dartojaHash else s.fuses.integratorHash
  let valid := match s.sec.challengeAt with
    | some t => decide (s.time.elapsed < t + 600 * second)
    | none => false
  s.tokenField 7 1 == s.fuses.lifecycle && signerAllowed s.fuses.lifecycle signer && keyMatches fuse (leNat (digest256 (s.tokenBytes 64 68)))
    && s.tokenField 8 8 == s.fuses.deviceId && s.tokenField 16 32 == s.sec.challenge && valid
    && xmssVerify (s.tokenBytes 64 4) (s.tokenBytes 68 32) (s.tokenBytes 100 32) (s.tokenBytes 0 160) (s.tokenBytes 160 2820)

/-- UNLOCK (R565): RANGE for a malformed token, SIG with record 0x0905 for one that fails, else the permissions are granted. -/
def unlock (s : State) : State :=
  if !tokenForm s then s.secStatus stRANGE
  else
    let p : SecPl := { signer := s.tokenField 6 1, perms := s.tokenField 48 8, duration := s.tokenField 56 4 }
    if !tokenGood s then (s.secStatus stSIG).secRecord 0x0905 stSIG p
    else
      let s1 := { s with sec := { s.sec with
        status := stOK, perm := BitVec.ofNat 64 p.perms, unlockEnd := some (s.time.elapsed + p.duration * second), challengeAt := none } }
      checkAccess (s1.secRecord 0x0903 stOK p)

def execUnlock (s : State) : Out := done (if s.answers then unlock s else s)

/-- LOCK (R566): with no unlock in force there is nothing to end. -/
def execLock (s : State) : Out :=
  done (if !s.answers then s
    else if s.sec.unlockEnd.isSome then endUnlock (s.secStatus stOK) else s.secStatus stEMPTY)

/-- UNLOCK_EXPIRY (R566). -/
def execUnlockExpiry (s : State) : Out :=
  done (match s.sec.unlockEnd with
    | some t => if s.answers then endUnlock (s.atElapsed t) else s
    | none => s)

/-- CHALLENGE_EXPIRY (R563). -/
def execChallengeExpiry (s : State) : Out :=
  done (match s.sec.challengeAt with
    | some t => if s.answers then
        let s1 := s.atElapsed (t + 600 * second)
        { s1 with sec := { s1.sec with challengeAt := none } }
      else s
    | none => s)

/-! ## Lifecycle (R555, R556) -/

/-- The lifecycle moves on, with record 0x0902; the test multiplexers and the JTAG port follow it. -/
def setLifecycle (s : State) (lifecycle : Nat) : State :=
  let s1 := { s with fuses := { s.fuses with lifecycle := lifecycle } }
  checkAccess (s1.secRecord 0x0902 stOK {})

/-- PROGRAM_KEY: the hash of the key in the token buffer is burned; after a failed burn the field holds what it reads, which
the manual does not give: some of its bits (R552). -/
def programKey (s : State) (burnOk : Bool) : State :=
  if s.fuses.lifecycle ≠ 1 ∨ s.fuses.integratorHash ≠ 0 then secReject s 0x05
  else
    let h := leNat (digest256 (s.tokenBytes 0 68))
    if burnOk then
      (({ s with fuses := { s.fuses with integratorHash := h } }).secStatus stOK).secRecord 0x0906 stOK {}
    else
      let s1 := { s with fuses := { s.fuses with integratorHash := h &&& Config.freeNat s.free }, free := s.free + 1 }
      (s1.secStatus stRANGE).secRecord 0x0905 stRANGE {}

def execProgramKey (burnOk : Bool) (s : State) : Out := done (if s.answers then programKey s burnOk else s)

/-- DEPLOY: provisioned, with the integrator key burned, a charter running and no charter update in progress. -/
def execDeploy (s : State) : Out :=
  done (if !s.answers then s
    else if s.fuses.lifecycle ≠ 1 ∨ s.fuses.integratorHash = 0 ∨ s.boot.step ≠ 8 ∨ s.stl.update.isSome then secReject s 0x06
    else setLifecycle (s.secStatus stOK) 2)

/-- RETURN: deployed, under the return permission, with no ATTEST running; the secret seeds are burned to all ones. -/
def execReturnDevice (s : State) : Out :=
  done (if !s.answers then s
    else if s.fuses.lifecycle ≠ 2 ∨ !s.permits 3 ∨ s.sec.attesting then secReject s 0x07
    else
      let s1 := { s with
        fuses := { s.fuses with skSeed := 2 ^ 256 - 1, skPrf := 2 ^ 256 - 1 }
        sec := { s.sec with identity := false, nextTree := false } }
      setLifecycle (s1.secStatus stOK) 3)

/-- PROVISIONING (R557, R558): the identity key is drawn and burned, its certificate written, and the device provisioned. -/
def execProvisioning (skSeed skPrf pubSeed root : Nat) (certificate : List Byte) (s : State) : Out :=
  done (if !s.answers then s
    else if s.fuses.lifecycle ≠ 0 then secReject s 0x00
    else
      let s1 := { s with
        fuses := { s.fuses with skSeed := skSeed % 2 ^ 256, skPrf := skPrf % 2 ^ 256, identitySeed := pubSeed % 2 ^ 256, identityRoot := root % 2 ^ 256 }
        sec := { s.sec with cert := certificate.take 16384 } }
      setLifecycle s1 1)

/-! ## The index counter (R559 to R561) -/

/-- Indices of a span, and of a bottom-layer tree. -/
def spanSize : Nat := 2 ^ 31
def treeSize : Nat := 2 ^ 20

/-- The span in use holds no index more. -/
def spanUsed (s : State) : Bool := match s.sec.span with
  | none => true
  | some k => decide ((k + 1) * spanSize ≤ s.sec.idx)

/-- A 32-byte record of the identity counter's log (R560). -/
def identityBytes (span offset : Nat) : List Byte :=
  let b := leBytes 4 0x4C4D4958 ++ leBytes 4 span ++ leBytes 4 offset ++ leBytes 16 0
  b ++ leBytes 4 (crc32 b).toNat

/-- Span and offset of a record that is valid. -/
def identityEntry (b : List Byte) : Option (Nat × Nat) :=
  if b.length = 32 ∧ field b 0 4 = 0x4C4D4958 ∧ zeros b 12 16 ∧ field b 28 4 = (crc32 (b.take 28)).toNat then some (field b 4 4, field b 8 4) else none

/-- Records that half of the log holds: half of 256 KiB less the 16 KiB of the certificate. -/
def idHalfRecords : Nat := 3840

/-- A record appended to the log. When a half is full the other one is erased and filled, if the full one holds a valid
record (R560); a full half without one is itself erased. -/
def appendIdentity (f : Flash) (b : List Byte) : Flash :=
  if f.idLog.length < idHalfRecords then { f with idLog := f.idLog ++ [b] }
  else { f with idLog := [b], idOther := if f.idLog.any fun x => (identityEntry x).isSome then f.idLog else f.idOther }

/-- The last valid record of the log. -/
def lastIdentity (f : Flash) : Option (Nat × Nat) := (f.idOther ++ f.idLog).reverse.findSome? identityEntry

/-- Fuse bits burned so that the count exceeds the span of the last flash record (R559). -/
def catchUp (s : State) : Nat := match lastIdentity s.flash with
  | some (k, _) => max s.fuses.spans (k + 1)
  | none => s.fuses.spans

/-- A span opens: the next bit is burned, and the span is numbered by the count before it; records 0x0901 and, once a run,
0x0907; the flash record. -/
def openSpan (s : State) : State :=
  let k := catchUp s
  let s1 := { s with
    fuses := { s.fuses with spans := k + 1 }
    sec := { s.sec with span := some k, idx := k * spanSize }
    flash := { s.flash with writes := s.flash.writes ++ [FlashWrite.identityRecord k 0] } }
  let s2 := s1.secRecord 0x0901 stOK { counter := 2, value := k + 1 }
  if 512 - (k + 1) < 16 ∧ !s2.sec.warned then
    ({ s2 with sec := { s2.sec with warned := true } }).secRecord 0x0907 stOK { counter := 2, value := k + 1 }
  else s2

/-- BOTTOM_TREE_READY (R561): the tree in use, or the one after it, is ready for signing. -/
def execBottomTreeReady (s : State) : Out :=
  done (if s.answers && (s.fuses.lifecycle == 1 || s.fuses.lifecycle == 2) then
    if s.sec.identity then { s with sec := { s.sec with nextTree := true } } else { s with sec := { s.sec with identity := true } }
  else s)

/-! ## Attestation (R562) -/

/-- ATTEST: the lifecycle, key and rate conditions first, then the spans; it takes the nonce and an index stands ready. -/
def attest (s : State) : State :=
  let done_ := recent s.time.elapsed second s.sec.attests
  if s.fuses.lifecycle = 0 ∨ s.fuses.lifecycle = 3 ∨ s.sec.attesting ∨ 100 ≤ done_.length then secReject s 0x04
  else if 512 ≤ s.fuses.spans then s.secStatus stBUDGET
  else if spanUsed s ∧ 512 ≤ catchUp s then ({ s with fuses := { s.fuses with spans := 512 } }).secStatus stBUDGET
  else
    let s1 := if spanUsed s then openSpan s else s
    { s1 with sec := { s1.sec with attesting := true, busy := true, attestNonce := s1.sec.nonce, attests := done_ } }

def execAttest (s : State) : Out := done (if s.answers then attest s else s)

/-- The bits of regions with a property. -/
def regionBits (s : State) (p : Region → Bool) : Nat := ((List.range 4).map fun g => 2 ^ g * bit (p (s.region g))).sum

/-- The digest of the running slot, from its start to the end of its firmware signature block (02 R57). -/
def slotDigest (s : State) : Nat :=
  if s.boot.step = 8 then
    let x := readSlot s s.boot.running
    leNat (digest256 (s.flashBytes x.start (x.length - 4096)))
  else 0

/-- The 256-byte body of a report. The digest of an overlay that is present is free: the manual does not lay its bytes out. -/
def reportBody (s : State) : List Byte :=
  let running := s.boot.step = 8
  let overlay := if s.flash.overlay.isEmpty then 0 else Config.freeNat s.free % 2 ^ 256
  let head := if s.adapt.adopted then s.adapt.headDigest else 0
  let fenced := ((List.range 72).filter fun p => decide (2 ≤ (s.engine p).state)).length
  let flags := s.time.quality + 4 * bit s.sec.unlockEnd.isSome + 8 * bit (s.phase == .quiet) + 16 * bit (s.phase == .safe)
  leBytes 4 0x4C4D4154 ++ leBytes 2 1 ++ leBytes 1 s.fuses.lifecycle ++ leBytes 1 s.fuses.grade ++ leBytes 8 s.fuses.deviceId
    ++ leBytes 32 s.sec.attestNonce ++ leBytes 8 s.time.now ++ leBytes 8 s.time.elapsed ++ leBytes 8 s.sec.idx ++ leBytes 1 0xB1
    ++ leBytes 1 flags ++ leBytes 1 s.fuses.charterRb ++ leBytes 1 s.fuses.firmwareRb
    ++ leBytes 1 (if running then s.boot.running else 0xFF) ++ leBytes 1 (if running then s.boot.charterRb else 0)
    ++ leBytes 2 s.stl.epoch.toNat ++ leBytes 8 s.boot.charterVersion ++ leBytes 32 (slotDigest s) ++ leBytes 32 overlay ++ leBytes 32 head
    ++ leBytes 8 s.sec.perm.toNat ++ leBytes 1 fenced
    ++ leBytes 1 (regionBits s (·.fenced) + 16 * regionBits s (·.degraded)) ++ leBytes 1 s.decInService ++ leBytes 29 0
    ++ digest256 (livePassbook s)

/-- The index is used; at the end of a bottom tree the next one is taken, and every 65,536 signatures write the flash record. -/
def useIndex (s : State) : State :=
  let i := s.sec.idx + 1
  let edge := i % treeSize = 0
  let s1 := { s with sec := { s.sec with
    idx := i, identity := if edge then s.sec.nextTree else s.sec.identity, nextTree := if edge then false else s.sec.nextTree } }
  match s.sec.span with
  | some k => if (i - k * spanSize) % 65536 = 0 then
      { s1 with flash := { s1.flash with writes := s1.flash.writes ++ [FlashWrite.identityRecord k (i - k * spanSize)] } } else s1
  | none => s1

/-- ATTEST_COMPLETE (R562): once the tree is ready, the report is written with its signature over the body. -/
def attestComplete (s : State) (signature : List Byte) : State :=
  if !s.sec.attesting || !s.sec.identity || signature.length != 5605 then s
  else
    let report := reportBody s ++ signature
    let s1 := { s with sec := { s.sec with
      report := report, attesting := false, busy := false, status := stOK, attests := s.sec.attests ++ [s.time.elapsed] }
                       free := s.free + 1 }
    useIndex s1

def execAttestComplete (signature : List Byte) (s : State) : Out := done (if s.answers then attestComplete s signature else s)

/-! ## Internal flash writes (02 R52, R53, R80, 01 R33, 13 R400, R405, 14 R434) -/

/-- Two copies kept, the newest first: a write takes the place of the older. -/
def keepTwo {α : Type} (x : α) (l : List α) : List α := (x :: l).take 2

/-- The directory is rewritten; an update that has drained then has its new slot preferred (02 R88 step 6). -/
def directoryWritten (s : State) (slot : Nat) : State :=
  let s1 := rewriteDirectory s slot
  match s1.stl.update with
  | some u => if u.drained then { s1 with stl := { s1.stl with update := some { u with rewritten := true } } } else s1
  | none => s1

/-- The overlay is cleared, which is the last step of an update whose new slot is preferred. -/
def overlayCleared (s : State) : State :=
  let s1 := { s with flash := { s.flash with overlay := [] } }
  match s1.stl.update with
  | some u => if u.rewritten then endUpdate s1 u else s1
  | none => s1

/-- What a completed write leaves in flash. -/
def applyWrite (s : State) : FlashWrite → State
  | .directory slot => directoryWritten s slot
  | .overlay items => { s with flash := { s.flash with overlay := items } }
  | .overlayClear => overlayCleared s
  | .checkpoint c =>
    ({ s with flash := { s.flash with checkpoints := keepTwo c s.flash.checkpoints }
              adapt := { s.adapt with ownFlash := if (s.adapt.job.map fun (j : Job) => j.number) = some c.job then min 2 (s.adapt.ownFlash + 1) else s.adapt.ownFlash } }).adpRecord 0x0502 stOK { job := c.job, step := c.step }
  | .adoptedHead a => { s with flash := { s.flash with adopted := keepTwo a s.flash.adopted } }
  | .adoptedErase => { s with flash := { s.flash with adopted := [] } }
  | .unitMap e r => { s with flash := { s.flash with unitMap := e, repairs := r } }
  | .identityRecord k off => { s with flash := appendIdentity s.flash (identityBytes k off) }
  | .safeState t => { s with flash := { s.flash with safeState := s.flash.safeState ++ [t] } }

/-- FLASH_WRITE_COMPLETE (02 R52): the oldest internal write in progress is complete. -/
def execFlashWriteComplete (s : State) : Out :=
  done (match s.flash.writes with
    | [] => s
    | w :: r => if s.answers then applyWrite { s with flash := { s.flash with writes := r } } w else s)

end Sys2Proof.Machine
end

