-- ==== Sys2Proof/Machine/Boot.lean ====
section
/-! DEFINITION. Reset and start (02 R60 to R66, 21 R604 to R606, R625): what a reset keeps, the steps of the boot ROM, the
initial settlement, the quiet service state and the adoption hold (R59). -/

namespace Sys2Proof.Machine

/-! ## Reset (21 R604, R605) -/

/-- The device in reset: every field at its reset value but what no reset changes, which is the fuses, the flash with its
complete writes, the certificate, THERMTRIP_N, the straps, the JTAG port, and the host's own memory. -/
def resetState (s : State) : State :=
  let z : State := {}
  { z with
    pins := { z.pins with
      pwrgood := s.pins.pwrgood, resetN := s.pins.resetN, thermtripLow := s.pins.thermtripLow, smbAddr := s.pins.smbAddr, pcieOff := s.pins.pcieOff }
    fuses := s.fuses
    flash := { s.flash with writes := [] }
    layout := s.layout
    journal := { z.journal with marks := s.journal.marks, markPos := s.journal.markPos }
    sec := { z.sec with cert := s.sec.cert }
    dbg := { z.dbg with jtag := s.dbg.jtag }
    mem := s.mem.filter fun c => decide (hostBase ≤ c.1)
    free := s.free
    pending := s.pending }

/-- RESET_ASSERT (21 R605): pulses below 1 us are ignored, those from 10 us up reset, and those between do either. -/
def execResetAssert (width : Nat) (s : State) : Out :=
  let low (x : State) : State := { resetState x with pins := { (resetState x).pins with resetN := false } }
  done (if width < 1000 then s
    else if 10000 ≤ width then low s
    else if Config.freeBit s.free then low s.nextFree else s.nextFree)

/-- PWRGOOD_FALL (21 R604, R618). -/
def execPwrgoodFall (s : State) : Out :=
  done (let r := resetState s
    { r with pins := { r.pins with pwrgood := false, thermtripLow := false } })

/-! ## Start (02 R60) -/

/-- Step 1: the boot ROM runs, SMBus answers, links and DRAM begin to train; the journal writer resumes its numbers (04 R162);
an instruction allowed only in reset gives way to BYPASS (20 R595). -/
def bootBegin (s : State) : State :=
  let s1 := { s with
    phase := .booting
    boot := { s.boot with step := 1 }
    journal := resumeJournal s.journal
    dbg := { s.dbg with jtag := if s.dbg.jtag = 0x00 ∨ s.dbg.jtag = 0x04 ∨ s.dbg.jtag = 0x05 then 0xFF else s.dbg.jtag } }
  { s1 with passbook := s1.publish 0 }

/-- A strap as sampled; an open one is undefined (21 R606). -/
def strap (s : State) (straps : List (Option Bool)) (i : Nat) : Bool := (straps.getD i none).getD (Config.freeBit (s.free + i))

/-- BOOT_START: RESET_N rises with PWRGOOD high; the straps are SMB_ADDR[0], [1], [2] and PCIE_OFF. -/
def execBootStart (straps : List (Option Bool)) (s : State) : Out :=
  done (if s.phase = .inReset then
    let b (i : Nat) : Bool := strap s straps i
    let s1 := { s with
      pins := { s.pins with pwrgood := true, resetN := true, smbAddr := bit (b 0) + 2 * bit (b 1) + 4 * bit (b 2), pcieOff := b 3 }
      free := s.free + 4 }
    bootBegin s1
  else s)

/-- The default layout for a flash of 128 MiB (R51). -/
def defaultDirectory : Directory :=
  let b : Boot := {}
  { sequence := 0, startA := b.startA, sizeA := b.sizeA, startB := b.startB, sizeB := b.sizeB, sumStart := b.sumStart, sumSize := b.sumSize
    preferred := 0 }

/-- Step 2: the directory gives the layout; REBOOT names the slot for this boot only (R51, R87). -/
def readLayout (s : State) : State :=
  let found := directoryInUse s
  let d := found.getD defaultDirectory
  let first := s.boot.rebootSlot.getD d.preferred
  { s with boot := { s.boot with
      step := if s.boot.trained then 3 else 2, dirRead := true, dirDefault := found.isNone, preferred := d.preferred, trying := first
      firstTried := first, rebootSlot := none, startA := d.startA, sizeA := d.sizeA, startB := d.startB, sizeB := d.sizeB
      sumStart := d.sumStart, sumSize := d.sumSize } }

/-- DIRECTORY_READ_COMPLETE (R51). -/
def execDirectoryReadComplete (s : State) : Out :=
  done (if s.phase = .booting ∧ !s.boot.dirRead then readLayout s else s)

/-- Step 3: soft repairs of the unit map are applied again before training completes (16 R494); a stack that fails is lost
(R603). -/
def dramTrained (s : State) (ok0 ok1 : Bool) : State :=
  let one (a : State) (n : Nat) (ok : Bool) : State :=
    let rows := (s.flash.repairs.filter fun r => r.1 == n).map (·.2)
    let b := a.modDram n fun x => { x with state := if ok then 0 else 3, repaired := rows }
    if ok then b else chipFatal b srcStack n
  let s1 := { s with boot := { s.boot with trained := true, step := if s.boot.dirRead then 3 else s.boot.step } }
  one (one s1 0 ok0) 1 ok1

/-- DRAM_TRAINING_COMPLETE (R60). -/
def execDramTrainingComplete (ok0 ok1 : Bool) (s : State) : Out :=
  done (if s.phase = .booting ∧ !s.boot.trained then dramTrained s ok0 ok1 else s)

/-! ## Slots (R58, R61, R65) -/

/-- The status of a slot in CHP_BOOT_STATUS (R64). -/
def setSlot (s : State) (slot st : Nat) : State :=
  { s with boot := if slot = 0 then { s.boot with slotA := st } else { s.boot with slotB := st } }

/-- The quiet service state: FAULT_N low, Ethernet transmitters idle, every SAFE pair static. -/
def enterQuiet (s : State) : State :=
  settleChannels { s with
    phase := .quiet
    boot := { s.boot with step := 0xF, verified := false }
    pins := { s.pins with faultLow := true, ethIdle0 := true, ethIdle1 := true } }

/-- A slot has failed: the other one is tried, or no slot is left. -/
def slotFailed (s : State) (st : Nat) : State :=
  let s1 := setSlot s s.boot.trying st
  if s.boot.trying = s.boot.firstTried then
    { s1 with boot := { s1.boot with trying := 1 - s1.boot.trying, verified := false, step := 3 } }
  else enterQuiet s1

/-- The image of a slot in DRAM, where the device reads it to (step 4): the place is the model's, in the area of the picture
buffers, which no stream uses before step 8 (log entry 6). An image whose header is malformed has no length to read. -/
def readImage (s : State) (slot : Nat) : State :=
  if slotFormOk s slot then s.store s.layout.pictures (s.flashBytes (s.slotStart slot) (readSlot s slot).length) else s

/-- SLOT_READ_COMPLETE (R58): steps 4 and 5. -/
def execSlotReadComplete (s : State) : Out :=
  done (if s.phase = .booting ∧ s.boot.step = 3 then
    let st := slotStatus s s.boot.trying
    let s0 := readImage s s.boot.trying
    if st = stOK then
      let s1 := setSlot s0 s0.boot.trying stOK
      { s1 with boot := { s1.boot with verified := true, step := 5 } }
    else slotFailed s0 st
  else s)

/-- The tables of a slot in staging: the models in their areas, the tables one after another in the buffer of internal firmware, as
far as it reaches (step 6; the places are the model's, log entry 6). -/
def loadTables (s : State) (x : Slot) : State :=
  let s1 := loadSection (loadSection s x 3 s.layout.modelArea) x 6 s.layout.zoneModel
  let tables := [4, 5, 7, 8, 9, 10].flatMap fun t => ((x.find t).map (s.sectionBytes x)).getD []
  s1.store s1.layout.internalBuffer (tables.take 0x20000)

/-- FIRMWARE_STARTED: step 6; the controllers run and the tables are in staging. -/
def execFirmwareStarted (s : State) : Out :=
  done (if s.phase = .booting ∧ s.boot.step = 5 then
    let x := readSlot s s.boot.trying
    let s0 := loadTables s x
    let s1 := { s0 with boot := { s0.boot with step := 6, firmwareVersion := x.firmware } }
    (List.range 4).foldl (fun a g => a.modRegion g fun r => { r with state := 0 }) s1
  else s)

/-! ## Start-up assay and the unit map (R60 step 7, 01 R33, R37, 14 R429) -/

/-- State and logical index of an engine by the unit map, or at first start (01 R33). -/
def startEngine (s : State) (p : Nat) : UnitMapEntry :=
  if s.flash.unitMap.isEmpty then
    if p % 18 < 16 then { state := 0, logical := 16 * (p / 18) + p % 18 } else {}
  else Table.get {} p s.flash.unitMap

/-- The digest that most engines give; the first of equals. -/
def majority (ds : List Nat) : Option Nat :=
  ds.foldl (fun b d => match b with
    | none => some d
    | some x => if (ds.filter (· == x)).length < (ds.filter (· == d)).length then some d else b) none

/-- An engine that the start-up assay fails. -/
def startFails (reference : Option Nat) (r : AssayResult) : Bool :=
  !r.fixedOk || decide (16 < r.correctedErrors) || reference != some r.digest

/-- Step 7: the unit map, the assay, the engines that fail fenced and spared. -/
def assignEngines (s : State) (results : List AssayResult) : State :=
  let s1 := (List.range 72).foldl (fun a p =>
    let e := startEngine s p
    a.modEngine p fun x => { x with state := e.state, logical := e.logical, fences := if e.state = 2 then [a.time.elapsed] else [] }) s
  let live := results.filter fun r => decide (r.engine < 72) && decide ((s1.engine r.engine).state ≤ 1)
  let reference := majority (live.map (·.digest))
  let bad := (live.filter (startFails reference)).map (·.engine)
  let s2 := live.foldl (fun a r =>
    if bad.contains r.engine then a else a.modEngine r.engine fun x => { x with assayPassed := some a.time.elapsed }) s1
  let s3 := { s2 with flt := { s2.flt with reference := reference } }
  let s4 := bad.foldl (fun a p => fenceEngine a p srcAssay) s3
  let s5 := (List.range 72).foldl (fun a p => a.modEngine p fun x => { x with handoverFrom := none, idleSince := a.time.elapsed }) s4
  let s6 := (List.range 16).foldl (fun a d => a.modDec d fun x => { x with state := 0 }) s5
  let s7 := (List.range 4).foldl (fun a g => a.modRegion g fun r => { r with seed := Config.freeNat (a.free + g) % 2 ^ 256, seedAt := a.time.elapsed }) s6
  (List.range 4).foldl markDegraded { s7 with free := s7.free + 4, boot := { s7.boot with step := 7 } }

/-! ## The initial settlement (R62) -/

/-- An overlay item's row within its ranges (check 2 of 02 R70). -/
def itemOk (c : Cfg) : OverlayItem → Bool
  | .field off _ _ => (settledMask off).isSome && settledOk off (c.regs.read off).toNat
  | .row t i (some im) => rowImageOk c t i (imageOf im) im.length
  | .row _ _ none => true
  | .model im => modelOk (imageOf im) false

/-- The failing check of the overlay's result, when one fails. -/
def overlayFault (s : State) (base c : Cfg) : Option Failure :=
  if !(s.flash.overlay.all (itemOk c)) || !crossRangesOk c then some ⟨2, 0, stRANGE⟩
  else match checkResult s base c false false [] none (fun _ => 0) with
    | some f => some f
    | none => if firmwareOk s.boot.firmwareVersion c then none else some ⟨11, 0, stRANGE⟩

/-- The images of models and zone models that an overlay holds, copied to their areas. -/
def loadOverlay (s : State) : State :=
  s.flash.overlay.foldl (fun a i => match i with
    | .model im => a.store a.layout.modelArea im
    | .row 6 _ (some im) => a.store a.layout.zoneModel im
    | _ => a) s

/-- The charter's tables, then the overlay when it passes; a failing overlay is discarded with record 0x0101, whose failing check and
status tell why (reason 0: log entry 197). -/
def initialCfg (s1 : State) (x : Slot) (base : Cfg) : State × Cfg :=
  let s := s1
  if s.flash.overlay.isEmpty then (s1, base)
  else
    let c := s.flash.overlay.foldl (applyItem s.layout.modelArea s.layout.zoneModel) base
    match overlayFault s base c with
    | some f =>
      let p : StlPl := { check := f.check, slotA := s.boot.slotA, slotB := s.boot.slotB, running := s.boot.trying, charter := x.version }
      let s2 := { s1 with flash := { s1.flash with writes := s1.flash.writes ++ [FlashWrite.overlayClear] } }
      (s2.emit { s2.record 0x0101 ucSTL (.stl p) with status := f.status }, base)
    | none =>
      let s2 := loadOverlay s1
      ({ s2 with boot := { s2.boot with overlay := true } }, c)

/-- Record 0x0100: the boot slot results, with the status of the first slot tried (R641). Which payload fields a type uses is the
model's reading (log entry 197). -/
def bootRecord (s : State) : State :=
  let first := if s.boot.firstTried = 0 then s.boot.slotA else s.boot.slotB
  let p : StlPl := { slotA := s.boot.slotA, slotB := s.boot.slotB, running := s.boot.running, dirDefault := bit s.boot.dirDefault
                     charter := s.boot.charterVersion }
  s.emit { s.record 0x0100 ucSTL (.stl p) with status := first }

/-- Step 8: the tables apply, streams start, zones enter start, the adopted heads and the adaptation job are looked for. -/
def startRunning (s : State) (x : Slot) (base : Cfg) : State :=
  let (s1, c) := initialCfg s x base
  let s2 := runSlot { s1 with cfg := c, layout := s1.layout.withReserves c, phase := .running, boot := { s1.boot with step := 8 } } s1.boot.trying
  let s3 := bootRecord { s2 with
    pins := { s2.pins with ethIdle0 := false, ethIdle1 := false }
    saf := { s2.saf with started := true }
    adapt := { s2.adapt with resume := s2.flash.checkpoints.find? (·.complete) } }
  let s4 := (c.active.map (·.1)).foldl startStream s3
  let s5 := settleChannels (c.enabledZones.foldl enterStart (setDDec s4))
  readoptHeads s5

/-- BOOT_ASSAY_COMPLETE (14 R429, R62): steps 7 and 8; tables that fail a check fail their slot. -/
def bootAssay (s : State) (results : List AssayResult) : State :=
  let s1 := assignEngines s results
  let x := readSlot s1 s1.boot.trying
  let base := charterCfg s1 x s1.layout.modelArea s1.layout.zoneModel
  match charterChecks s1 x base base with
  | some f => slotFailed s1 f.status
  | none => startRunning s1 x base

def execBootAssayComplete (results : List AssayResult) (s : State) : Out :=
  done (if s.phase = .booting ∧ s.boot.step = 6 then bootAssay s results else s)

/-! ## The adoption hold (R59) -/

/-- ADOPTION_HOLD_EXPIRY: the hold has passed without a chip-fatal error, and the counters are raised. -/
def execAdoptionHoldExpiry (burnOk : Bool) (s : State) : Out :=
  done (match s.boot.holdSince with
    | some t =>
      if s.running then
        let s1 := raiseCounters (s.atStation (t + s.boot.holdHours * 3600 * second)) burnOk
        { s1 with boot := { s1.boot with holdSince := none } }
      else s
    | none => s)

/-! ## REBOOT (R87) -/

/-- REBOOT is accepted: the reset begins 1 ms later. -/
def rebootCommand (page : Src) (slot : Nat) (s : State) : State :=
  if 2 < slot then s.pageDone page stRANGE
  else if s.stl.update.isSome then s.stlReject page 0x13
  else
    let s1 := s.pageDone page stOK
    { s1 with boot := { s1.boot with rebootAt := some (s1.time.elapsed + 1000000), nextSlot := if slot = 2 then none else some slot } }

def execReboot (page via : Src) (slot : Nat) (s : State) : Out := done (stlCommand s page via 0x13 (rebootCommand page slot))

/-- REBOOT_RESET: the whole device resets with its straps as they were, and boots the slot named. -/
def execRebootReset (s : State) : Out :=
  done (match s.boot.rebootAt with
    | some _ =>
      let r := resetState s
      bootBegin { r with boot := { r.boot with rebootSlot := s.boot.nextSlot } }
    | none => s)

end Sys2Proof.Machine
end

