-- ==== Sys2Proof/Machine/Decoding.lean ====
section
/-! DEFINITION. The picture boundary of a decode engine (04 R151 to R157, R160, R164): error classes, flags, records, waits and
stops, analysis selection, and the handing on of pictures in output order. -/

namespace Sys2Proof.Machine

/-! ## Parameter sets (04 R151 classes P, F and D) -/

/-- The last valid parameter sets of a stream after those of an access unit; one in error leaves what it replaces. -/
def keepParams (t : Table (Option SeqParams)) (ps : List (Nat × Option SeqParams)) : Table (Option SeqParams) :=
  ps.foldl (fun a (i, p) => if p.isSome then Table.set none i p a else a) t

/-- A parameter set declares a format outside the row: class F. -/
def formatOutside (row : StreamRow) (p : SeqParams) : Bool :=
  decide (row.profile < p.profile) || decide (row.level < p.level) || decide (row.depth < p.depth) || p.interlaced || !p.chroma420

/-- A parameter set declares a larger picture, or more pictures in the DPB, than the row: class D. -/
def sizeOutside (row : StreamRow) (p : SeqParams) : Bool :=
  decide (row.width < p.width) || decide (row.height < p.height) || decide (row.dpbPics < p.dpb)

/-- The parameter sets that an access unit brings or refers to. -/
def declaredBy (t : StreamSt) (o : PictureOutcome) : List SeqParams :=
  o.params.filterMap (·.2) ++ (Table.get none o.uses (keepParams t.params o.params)).toList

/-! ## The window check (04 R141) -/

/-- An access that the hardware checks falls outside the stream's window, and a read outside the elementary-stream buffer too. -/
def outsideWindow (row : StreamRow) (t : StreamSt) (x : DecAccess) : Bool :=
  let es := t.winBase + roundUp row.windowBytes 4096
  !(decide (t.winBase ≤ x.addr) && decide (x.addr + x.n ≤ t.winBase + row.windowBytes))
    && (x.write || !(decide (es ≤ x.addr) && decide (x.addr + x.n ≤ es + row.esBytes)))

/-! ## CTUs (04 R647) -/

/-- CTUs in a row of them and in the picture; one that an edge cuts counts. -/
def ctuCols (p : SeqParams) : Nat := ceilDiv p.width (max p.ctu 1)
def ctuCount (p : SeqParams) : Nat := ctuCols p * ceilDiv p.height (max p.ctu 1)

/-- The CTUs concealed: those of the picture whose data was not completely decoded, among them those whose write was
suppressed. -/
def concealedList (row : StreamRow) (t : StreamSt) (p : SeqParams) (o : PictureOutcome) : List Nat :=
  let stray := (o.accesses.filter fun x => x.write && outsideWindow row t x).map (·.ctu)
  (List.range (ctuCount p)).filter fun i => o.lost.contains i || stray.contains i

/-! ## The classes and the flags of a picture (04 R151, R647) -/

/-- Every class that the boundary of a picture meets, in the order in which their actions rule each other out: a stop by F or
D; no picture by P; then the picture's own, an abandoned picture first. -/
def pictureClasses (s : State) (row : StreamRow) (t : StreamSt) (u : AccessUnit) (o : PictureOutcome) (exhausted : Bool) : List ErrClass :=
  let ps := declaredBy t o
  let missing := (Table.get none o.uses (keepParams t.params o.params)).isNone
  (if ps.any (formatOutside row) then [.f] else [])
    ++ (if ps.any (sizeOutside row) then [.d] else [])
    ++ (if (o.params.any fun x => x.2.isNone) || (missing && !o.parameterSetsOnly && !u.parameterSets) then [.p] else [])
    ++ (if o.accesses.any (outsideWindow row t) then [.w] else [])
    ++ (if o.accesses.any fun x => !x.write && s.anyVoid x.addr x.n then [.v] else [])
    ++ (if exhausted then [.b] else [])
    ++ (if u.incomplete || o.errors.contains .l then [.l] else [])
    ++ (if o.errors.contains .s then [.s] else [])
    ++ (if o.errors.contains .h then [.h] else [])
    ++ (if o.errors.contains .m then [.m] else [])

/-- The status of a class (04 R151). -/
def classStatus : ErrClass → Nat
  | .l | .s | .h | .m => stOK
  | .p | .f => stRANGE
  | .d | .w => stBOUND
  | .b => stBUDGET
  | .v => stVOID

/-- Classes that abandon the picture. -/
def classAbandons : ErrClass → Bool
  | .b | .w | .v => true
  | .l | .s | .h | .p | .f | .d | .m => false

/-- Classes that conceal what was not decoded. -/
def classConceals : ErrClass → Bool
  | .l | .s | .h | .b | .w | .v => true
  | .p | .f | .d | .m => false

/-- The media cycles of the picture, within the residency cap (04 R157); at an exhausted budget, the budget and the
concealment copy. -/
def pictureCycles (row : StreamRow) (cs : List ErrClass) (concealed : Nat) (o : PictureOutcome) : Nat :=
  let copy := if concealed = 0 then 0 else ceilDiv row.pictureBytes 32
  if cs.contains .b then row.budgetCycles + copy else min o.cycles row.residency

/-- A picture carries a flag. -/
def Picture.flagged (p : Picture) : Bool := p.concealed || p.substituted || p.void

/-- The window offsets a new picture may take: those that no picture waiting for output, no last good picture and, when there
is one, no picture still queued for pre-processing lies at (04 R140). -/
def freeOffsets (s : State) (n : Nat) (row : StreamRow) : List Nat :=
  let t := s.stream n
  let all := (List.range (row.dpbPics + 2)).map (· * row.pictureBytes)
  let kept := (t.dpb ++ t.lastGood.toList).map (·.offset)
  let queued := ((s.accts.flatMap fun e => e.2.queue ++ e.2.current.toList) ++ t.zoneQueue).filterMap fun p =>
    if p.stream = n then some p.offset else none
  let free := all.filter fun x => !kept.contains x
  let best := free.filter fun x => !queued.contains x
  if best.isEmpty then free else best

/-- The offset of a new picture: the manual leaves open which of the free ones, a free value. -/
def chooseOffset (s : State) (n : Nat) (row : StreamRow) : Nat :=
  let l := freeOffsets s n row
  l.getD (Config.freeNat s.free % max l.length 1) 0

/-- The picture of an access unit with its flags (01 R44, 04 R159, R160, R647): concealed when a CTU is, or within a recovery
(R153). -/
def pictureOf (n base offset : Nat) (u : AccessUnit) (p : SeqParams) (cs : List ErrClass) (concealed : Nat) (o : PictureOutcome) : Picture :=
  { stream := n, tick := u.tick, arrival := u.arrival, epoch := u.epoch, dDec := u.dDec, base := base, offset := offset
    concealed := decide (0 < concealed) || o.inRecovery, substituted := cs.contains .m, void := cs.contains .v
    concealedCtus := concealed, depth := p.depth, stride := roundUp p.width 64, lines := roundUp p.height 64
    cropX := p.cropLeft, cropY := p.cropTop, width := p.width - p.cropLeft - p.cropRight, height := p.height - p.cropTop - p.cropBottom
    colour := p.colour, order := o.order }

/-! ## The samples (04 R152, R159) -/

/-- The sample that stands in for a CTU not decoded: the co-located one of the last good picture, mid-grey without one. -/
def standIn (s : State) (good : Option Picture) (p : Picture) (plane x y : Nat) : Nat :=
  match good with
  | none => if p.depth = 10 then 512 else 128
  | some g => s.sampleAt g plane x y

/-- A sample of the picture as it is stored; (x, y) in its own plane. A concealed CTU is copied, every other one is the
decoder's, which has the last good picture in the place of a missing reference. -/
def storedSample (s : State) (good : Option Picture) (sub : List Byte) (sp : SeqParams) (hidden : List Nat) (p : Picture)
    (plane x y : Nat) : Nat :=
  let k := if plane = 0 then 1 else 2
  let c := max sp.ctu 1
  let i := (y * k / c) * ctuCols sp + x * k / c
  if hidden.contains i && decide (x * k < sp.width) && decide (y * k < sp.height) then standIn s good p plane x y
  else Config.sample p.stream p.tick plane x y sub % 2 ^ p.depth

/-- The rows of a stored picture: Y, then interleaved CbCr, each row Wa samples (04 R159). -/
def storedRows (s : State) (good : Option Picture) (sub : List Byte) (sp : SeqParams) (hidden : List Nat) (p : Picture) : List (List Nat) :=
  let f := storedSample s good sub sp hidden p
  ((List.range p.lines).map fun y => (List.range p.stride).map fun x => f 0 x y)
    ++ (List.range (p.lines / 2)).map fun y => (List.range p.stride).map fun x => f (1 + x % 2) (x / 2) y

/-- The picture written into its place in the window (04 R159); the class W writes never reach memory. -/
def writePicture (s : State) (sp : SeqParams) (hidden : List Nat) (p : Picture) : State :=
  let good := (s.stream p.stream).lastGood
  let sub := if p.substituted then match good with
      | some g => s.bytes (g.base + g.offset) g.bytes
      | none => (List.replicate p.bytes (if p.depth = 10 then [0#8, 2#8] else [128#8])).flatten
    else []
  let w := if p.depth = 10 then 2 else 1
  s.store (p.base + p.offset) ((storedRows s good sub sp hidden p).flatten.flatMap (leBytes w))

/-- The picture payload (04 R164). -/
def picturePayload (d ctus : Nat) (row : StreamRow) (u : AccessUnit) (c : ErrClass) (cs : List ErrClass) (o : PictureOutcome)
    (p : Picture) : PicturePl :=
  { engine := d, cls := classLetter c
    flags := bit p.concealed + 2 * bit p.substituted + 4 * bit p.void + 8 * bit (classAbandons c)
    ctus := ctus, concealed := p.concealedCtus, errOffset := o.errorOffset.getD 0xFFFFFFFF
    cycles := pictureCycles row cs p.concealedCtus o, budget := row.budgetCycles, arrival := u.arrival, missing := u.missing }

/-! ## Records of a picture (04 R164) -/

/-- A stream-payload record of the decoder. -/
def decStreamRecord (s : State) (type inst n : Nat) (u : AccessUnit) (cls : Option ErrClass) (status width height count : Nat) : State :=
  let row := (s.cfgOf u.epoch).stream n
  s.streamRecord type ucDEC inst n u.epoch u.tick status
    (.stream { cls := (cls.map classLetter).getD 0, codec := row.codecByte, width := width, height := height, count := count })

/-- The first picture of a stream, and the first after a wait that a record 0x0007 opened. -/
def resumeRecords (s : State) (n : Nat) (u : AccessUnit) (p : SeqParams) : State :=
  let t := s.stream n
  let s1 := if !t.started then decStreamRecord s 0x0001 0xFF n u none stOK p.width p.height t.skipped
    else if t.waitRap && t.waitRecorded then decStreamRecord s 0x0008 0xFF n u none stOK p.width p.height t.skipped
    else s
  s1.modStream n fun t => { t with started := true, waitRap := false, waitRecorded := false, skipped := 0,
                                        declared := (p.width, p.height) }

/-- A record of a run of concealed pictures, or of substituted ones: the first at once, the others at the end of the second. -/
def runRecord (s : State) (concealRun : Bool) (r : Rec) : State :=
  let t := s.stream r.stream
  if concealRun then
    if t.runConcealed then s.setStream r.stream { t with secConcealed := t.secConcealed + 1, concealRec := some r }
    else (s.emit r).setStream r.stream { t with runConcealed := true }
  else
    if t.runMissing then s.setStream r.stream { t with secMissing := t.secMissing + 1, missRec := some r }
    else (s.emit r).setStream r.stream { t with runMissing := true }

/-- The wait for a random-access point that classes P, B, W and V open, with record 0x0007 except in the wait before the
stream's first picture. -/
def openWait (s : State) (d n : Nat) (u : AccessUnit) (c : ErrClass) (width height : Nat) : State :=
  let t := s.stream n
  if !t.started then s.setStream n { t with waitRap := true, state := 1, last := classStatus c }
  else (decStreamRecord s 0x0007 d n u (some c) (classStatus c) width height 0).setStream n
    { t with waitRap := true, waitRecorded := true, state := 3, last := classStatus c }

/-- The record of a class of a picture. -/
def classRecord (s : State) (d n ctus : Nat) (u : AccessUnit) (c : ErrClass) (cs : List ErrClass) (o : PictureOutcome) (p : Picture)
    (type : Nat) : Rec :=
  let row := (s.cfgOf u.epoch).stream n
  { s.record type ucDEC (.picture (picturePayload d ctus row u c cs o p)) with
    stream := n, epoch := u.epoch, tick := u.tick, status := classStatus c, inst := d, account := row.account }

/-- What the classes of a picture bring beside its flags (04 R151): a concealed run, a run with a missing reference, and for an
abandoned picture its record and the wait. -/
def classRecords (s : State) (d n : Nat) (u : AccessUnit) (sp : SeqParams) (cs : List ErrClass) (o : PictureOutcome) (p : Picture) : State :=
  let row := (s.cfgOf u.epoch).stream n
  let mk (c : ErrClass) (type : Nat) := classRecord s d n (ctuCount sp) u c cs o p type
  let s1 := match cs.find? fun c => c == .l || c == .s || c == .h with
    | some c => if 0 < p.concealedCtus then runRecord s true (mk c 0x0004) else s
    | none => s
  let s2 := if cs.contains .m then runRecord s1 false (mk .m 0x0006) else s1
  match cs.find? classAbandons with
  | some .w => openWait (windowViolation (s2.emit (mk .w 0x0009)) d n u.tick row.account) d n u .w sp.width sp.height
  | some c => openWait ((s2.emit (mk c 0x0005)).modDec d fun e => { e with abandons := e.abandons + 1 }) d n u c sp.width sp.height
  | none => s2

/-! ## Stops (04 R151, R154) -/

/-- A stream stops with class F or D: it decodes and receives nothing until its row is written again. -/
def stopStream (s : State) (n : Nat) (u : AccessUnit) (c : ErrClass) (sp : Option SeqParams) : State :=
  let s1 := decStreamRecord s 0x0002 0xFF n u (some c) (classStatus c) ((sp.map (·.width)).getD 0) ((sp.map (·.height)).getD 0) 0
  let s2 := s1.modStream n fun t => { t with
    state := if c = .f then 4 else 5, last := classStatus c, es := [], esBytes := 0, packets := [], runConcealed := false
    runMissing := false }
  endClips (closeStreamTracks (occupyStream s2 n) n) n 4

/-! ## Handing on (04 R160, 03 R114) -/

/-- A picture handed on: shown as the stream's tick, queued where it was selected, and read by the live views. -/
def handOn (s : State) (p : Picture) : State :=
  let row := (s.cfgOf p.epoch).stream p.stream
  let s1 := s.modStream p.stream fun t => { t with
    lastTick := p.tick, dpb := t.dpb.filter (· != p)
    zoneQueue := if p.zoneWindow.isSome then t.zoneQueue ++ [p] else t.zoneQueue }
  let x : Source := { tick := p.tick, epoch := p.epoch, order := p.order, concealed := p.concealed, void := p.void, depth := p.depth, samples := level0 s p }
  let outputs := s1.evidence.outputs.map fun o => if o.live && o.req.stream == p.stream then { o with sources := o.sources ++ [x] } else o
  let s2 := { s1 with evidence := { s1.evidence with outputs := outputs } }
  if p.selected then hostAssist (s2.modAcct row.account fun x => { x with queue := queuePicture p x.queue }) row.account else s2

/-- The picture of a stream that comes first in output order among those not handed on. -/
def firstOut (ps : List Picture) : Option Picture :=
  ps.foldl (fun b p => match b with
    | none => some p
    | some q => if p.order < q.order then some p else some q) none

/-- The pictures that leave at a boundary, in output order (04 R160). -/
def handOnAll (n : Nat) : Nat → State → State
  | 0, s => s
  | k + 1, s => match firstOut (s.stream n).dpb with
    | some p => handOnAll n k (handOn s p)
    | none => s

/-! ## The boundary -/

/-- A picture stored: counted, and selected for its windows. -/
def storePicture (s : State) (n : Nat) (row : StreamRow) (p : Picture) (abandoned : Bool) : State :=
  let t := s.stream n
  let sel := selectPicture row t p
  let c := t.counters
  let t1 : StreamSt := sel.2
  s.setStream n { t1 with
    dpb := t1.dpb ++ [sel.1]
    lastGood := if p.flagged then t1.lastGood else some p
    runConcealed := t1.runConcealed && p.flagged, runMissing := t1.runMissing && p.flagged
    secFlagged := t1.secFlagged + bit p.flagged
    counters := { c with
      pictures := if p.flagged then c.pictures else c.pictures + 1
      concealed := if p.concealed || p.substituted then c.concealed + 1 else c.concealed
      abandoned := if abandoned then c.abandoned + 1 else c.abandoned } }

/-- A picture of a stream decoded to its boundary: written into the window, stored, and its records. -/
def decodedPicture (s : State) (d n : Nat) (u : AccessUnit) (sp : SeqParams) (cs : List ErrClass) (o : PictureOutcome) : State :=
  let row := (s.cfgOf u.epoch).stream n
  let t := s.stream n
  let hidden := if cs.any classConceals then concealedList row t sp o else []
  let p := pictureOf n t.winBase (chooseOffset s n row) u sp cs hidden.length o
  let s1 := resumeRecords ((writePicture s.nextFree sp hidden p).chargeMedia row.account 0 p.bytes) n u sp
  let s2 := s1.modStream n fun x => { x with state := 2, last := (cs.head?.map classStatus).getD stOK }
  classRecords (storePicture s2 n row p (cs.any classAbandons)) d n u sp cs o p

/-- A boundary of a live picture: a stop, no picture for class P, parameter sets alone or a leading picture skipped as RASL
(R153), else the picture. -/
def liveBoundary (s : State) (d n : Nat) (u : AccessUnit) (cs : List ErrClass) (o : PictureOutcome) : State :=
  let s1 := s.modStream n fun t => { t with params := keepParams t.params o.params }
  let sp := Table.get none o.uses (s1.stream n).params
  let w := (sp.map (·.width)).getD 0
  let h := (sp.map (·.height)).getD 0
  let row := (s.cfgOf u.epoch).stream n
  let ps := declaredBy (s.stream n) o
  if cs.contains .f then stopStream s1 n u .f (ps.find? (formatOutside row))
  else if cs.contains .d then stopStream s1 n u .d (ps.find? (sizeOutside row))
  else if cs.contains .p then openWait (s1.modStream n fun t => { t with skipped := if t.waitRap then t.skipped + 1 else 0 }) d n u .p w h
  else if o.rasl || o.parameterSetsOnly || u.parameterSets then s1
  else match sp with
    | some p => decodedPicture s1 d n u p cs o
    | none => s1

/-- A plane of a replay picture after cropping: concealed CTUs from the clip's last good picture, the others the decoder's (12 R375). -/
def replayPlane (good : Option Level) (sub : List Byte) (sp : SeqParams) (hidden : List Nat) (p : Picture) (plane : Nat) : Plane :=
  let k := if plane = 0 then 1 else 2
  let c := max sp.ctu 1
  let old := good.map fun l => if plane = 0 then l.y else if plane = 1 then l.cb else l.cr
  let at_ (x y : Nat) : Nat :=
    let u := p.cropX / k + x
    let v := p.cropY / k + y
    if hidden.contains ((v * k / c) * ctuCols sp + u * k / c) then
      (old.map fun q => (q.rows.getD y []).getD x 0).getD (if p.depth = 10 then 512 else 128)
    else Config.sample p.stream p.tick plane u v sub % 2 ^ p.depth
  { w := p.width / k, h := p.height / k, rows := (List.range (p.height / k)).map fun y => (List.range (p.width / k)).map fun x => at_ x y }

/-- A replay picture as decoded. -/
def replayLevel (good : Option Level) (sp : SeqParams) (hidden : List Nat) (p : Picture) : Level :=
  let w := if p.depth = 10 then 2 else 1
  let sub := if p.substituted then (good.map fun l => (l.y.rows ++ l.cb.rows ++ l.cr.rows).flatten.flatMap (leBytes w)).getD [] else []
  { y := replayPlane good sub sp hidden p 0, cb := replayPlane good sub sp hidden p 1, cr := replayPlane good sub sp hidden p 2 }

/-- A picture decoded into a clip's replay window. -/
def replayPicture (sp : SeqParams) (u : AccessUnit) (cs : List ErrClass) (hidden : List Nat) (o : PictureOutcome) (x : Output) : Output :=
  let p := pictureOf x.req.stream 0 0 u sp cs hidden.length o
  let l := replayLevel x.good sp hidden p
  let y : Source := { tick := u.tick, epoch := x.req.epoch, order := o.order, concealed := p.concealed, void := p.void, depth := p.depth, samples := l }
  { x with dpb := x.dpb ++ [y], good := if p.flagged then x.good else some l }

/-- A boundary of a replay picture (12 R374, R375, R387): the clip carries the flags; the stream's own state is not touched. -/
def replayBoundary (s : State) (d n ident : Nat) (u : AccessUnit) (sp : Option SeqParams) (cs : List ErrClass) (hidden : List Nat)
    (o : PictureOutcome) : State :=
  let add := (if hidden.isEmpty then 0 else 8) + (if cs.contains .v then 16 else 0)
  let none_ := cs.any (fun c => c == .f || c == .d || c == .p) || o.rasl || o.parameterSetsOnly || u.parameterSets
  let code (x : Output) : Output :=
    let y := if decide (x.first ≤ u.tick) then { x with flags := x.flags ||| add } else x
    replayHandOn o.leaving (match sp with
      | some p => if none_ then y else replayPicture p u cs hidden o y
      | none => y)
  let outputs := s.evidence.outputs.map fun x => if !x.live && x.req.ident == ident then code x else x
  let s1 := flushClips { s with evidence := { s.evidence with outputs := outputs } } n
  match cs.find? classAbandons with
  | some .w => windowViolation s1 d n u.tick ((s.cfgOf u.epoch).stream n).account
  | some _ => s1.modDec d fun e => { e with abandons := e.abandons + 1 }
  | none => s1

/-- A decode engine at its picture boundary: the picture, the pictures handed on, the engine's leaving, and the next
dispatch (04 R155). -/
def pictureBoundary (s : State) (d n : Nat) (u : AccessUnit) (o : PictureOutcome) (exhausted : Bool) : State :=
  let row := (s.cfgOf u.epoch).stream n
  let t := s.stream n
  let cs := pictureClasses s row t u o exhausted
  let sp := Table.get none o.uses (keepParams t.params o.params)
  let hidden := if cs.any classConceals then (sp.map fun p => concealedList row t p o).getD [] else []
  let cycles := pictureCycles row cs hidden.length o
  let replay := (s.dec d).replay
  let s1 := s.trace ucDEC d 0x0031 (leBytes 2 n ++ leBytes 1 ((cs.head?.map classLetter).getD 0) ++ leBytes 1 0 ++ leBytes 4 cycles ++ leBytes 8 u.tick)
  let s2 := (s1.modDec d fun e => { e with job := none, replay := none }).chargeMedia row.account cycles u.bytes
  let s3 := match replay with
    | some ident => replayBoundary s2 d n ident u sp cs hidden o
    | none =>
      let x := liveBoundary (s2.modStream n fun y => { y with inDecode := false }) d n u cs o
      handOnAll n o.leaving x
  dispatch (decLeave s3 d)

/-- DECODE_PICTURE_COMPLETE (04 R151, R157, R160). -/
def execDecodePictureComplete (d : Nat) (o : PictureOutcome) (s : State) : Out :=
  done (match (s.dec d).job with
    | none => s
    | some (n, u) => if s.running then pictureBoundary s d n u o false else s)

/-- DECODE_BUDGET_EXHAUSTED (04 R156): the picture reaches its budget and is class B. -/
def execDecodeBudgetExhausted (d : Nat) (o : PictureOutcome) (s : State) : Out :=
  done (match (s.dec d).job with
    | none => s
    | some (n, u) => if s.running then pictureBoundary s d n u o true else s)

end Sys2Proof.Machine
end

