-- ==== Sys2Proof/Machine/Ingest.lean ====
section
/-! DEFINITION. Ingest (04 R142 to R150, 02 R75) and the host command ring (17 R508 to R513): datagrams, the reorder hold, ring
entries, host pushes, and reads of host memory that fail. -/

namespace Sys2Proof.Machine

/-! ## Datagrams (04 R142 to R146) -/

/-- A row takes an RTP packet of a datagram (04 R143). -/
def rowTakes (row : StreamRow) (d : Datagram) (p : Rtp) : Bool :=
  row.active && !row.host && row.ports.testBit d.port && row.ipv6 == d.ipv6 && row.addr == d.dest && row.udpPort == d.udpPort
    && (row.payloadType == 0xFF || row.payloadType == p.payloadType) && (!row.matchSsrc || row.ssrc == p.ssrc)

/-- The stream a datagram belongs to, by the table of the epoch in force (04 R143, R145). -/
def streamOf (s : State) (d : Datagram) (p : Rtp) : Option Nat := (s.cfg.streams.find? fun e => rowTakes e.2 d p).map (·.1)

/-- A stream that decodes or waits receives (04 R154). -/
def StreamSt.receives (t : StreamSt) : Bool := decide (t.state < 4)

/-- The datagram is the first of its access unit to arrive. -/
def beginsUnit (t : StreamSt) (ts : Nat) : Bool := !(t.packets.any (·.timestamp == ts)) && t.lastReleasedTs != some ts

/-- The tick that an access unit with timestamp `ts` would take now. -/
def predictedTick (s : State) (t : StreamSt) (bits : Nat) (force : Bool) (ts : Nat) : Nat :=
  (unwrap bits s.cfg.policies force t ts s.time.now).1

/-- An RTP packet of stream n: it may fix the instant of an armed batch, and is held in sequence order (02 R75, 04 R145). A
payload in a packetization that is not supported never enters an access unit, so that its number is missing (log entry 191). The
table in force as it arrives has matched it; when it fixes the instant it carries the new epoch (log entry 192). -/
def takeDatagram (s : State) (n : Nat) (p : Rtp) : State :=
  let codec := (s.cfg.stream n).codec
  if !supported codec p.payload then s
  else
    let t := s.stream n
    let rap := packetRap codec p.payload
    let s1 := if beginsUnit t p.timestamp && decide (rap ≠ .no) then fixEventInstant s n (predictedTick s t 32 false p.timestamp) rap else s
    dispatch (holdPacket s1 n p.seq p.timestamp p.marker rap p.payload)

/-- A datagram of one of the IP versions: fragments and failed checksums are dropped and counted; a routing header, another
protocol than UDP, RTCP and another version than RTP 2 are dropped (04 R142); PTP's ports are not ingest's (18 R529). -/
def rtpDatagram (s : State) (d : Datagram) : State :=
  if d.fragment then s.modNet d.port fun n => { n with fragments := n.fragments + 1 }
  else if d.proto ≠ 17 ∨ (d.ipv6 ∧ d.routing) then s
  else if !d.checksumOk then s.modNet d.port fun n => { n with checksumFails := n.checksumFails + 1 }
  else if isRtcp d.payload ∨ d.udpPort = 319 ∨ d.udpPort = 320 then s
  else match parseRtp d.payload with
    | none => { s with ingUnmatched := s.ingUnmatched + 1 }
    | some p => match streamOf s d p with
      | none => { s with ingUnmatched := s.ingUnmatched + 1 }
      | some n => if (s.stream n).receives then takeDatagram s n p else s

/-- RTP_DATAGRAM (04 R143). -/
def execRtpDatagram (d : Datagram) (s : State) : Out := done (if s.running && decide (d.port < 2) then rtpDatagram s d else s)

/-- REORDER_HOLD_EXPIRY (04 R146): the head access unit of a stream becomes ready by its reorder hold. -/
def holdExpiry (s : State) (n : Nat) : State :=
  let t := s.stream n
  let (run, rest) := headRun t.packets
  match run with
  | [] => s
  | p :: _ =>
    match headDeadline (((s.cfgOf p.epoch).stream n).holdMs * 1000000) run rest with
    | none => s
    | some due => dispatch (releaseReady (t.packets.length + 1) (s.atElapsed due) n)

def execReorderHoldExpiry (n : Nat) (s : State) : Out := done (if s.running then holdExpiry s n else s)

/-! ## Ring entries (17 R508) -/

/-- Entries of the command ring. -/
def Pci.ringSize (p : Pci) : Nat := 2 ^ p.cmdSize

/-- The host address of an entry. -/
def Pci.entryAddr (p : Pci) (i : Nat) : Nat := p.cmdBase.toNat + 128 * i

/-- The payload length of a kind. -/
def kindLength (kind : Nat) : Option Nat :=
  if kind = 1 ∨ kind = 2 then some 24 else if kind = 3 then some 64 else if kind = 4 then some 16 else none

/-- The CRC of an entry holds, byte 4 taken as zero. -/
def entryCrcOk (e : List Byte) : Bool := field e 124 4 == (crc32 ((e.take 124).set 4 0)).toNat

/-- Kind, length and reserved bytes of an entry are right. -/
def entryFormOk (e : List Byte) : Bool :=
  match kindLength (field e 0 1) with
  | none => false
  | some n => field e 2 2 == n && bitsOf (field e 1 1) 2 6 == 0 && zeros e 5 3 && zeros e 16 16 && zeros e (32 + n) (88 - n)
      && zeros e 120 4

/-- An entry completes: its done byte is written, it is counted, and the completion cause is set when it asks for it
(17 R508, R517). -/
def completeEntry (s : State) (i : Nat) (irq : Bool) (status : Nat) : State :=
  let s1 := s.hostStore (s.pci.entryAddr i + 4) (leBytes 1 (0x80 + status))
  let s2 := { s1 with pci := { s1.pci with entries := s1.pci.entries + 1 } }
  if irq then s2.raise 1 else s2

/-! ## Bitstream pushes (04 R148, R149) -/

/-- The free space of a stream's elementary-stream buffer, less what accepted pushes will fill. -/
def esFree (s : State) (n : Nat) : Nat :=
  let t := s.stream n
  (s.cfg.stream n).esBytes - t.esBytes - (t.pushes.map (·.bytes)).sum

/-- The status that a push payload is rejected with, when it is (04 R149). -/
def pushReject (s : State) (p : List Byte) : Option Nat :=
  let n := field p 0 2
  let row := s.cfg.stream n
  let len := field p 4 4
  if !row.active || !row.host || !(s.stream n).receives then some stSTATE
  else if !within len 1 row.esBytes || bitsOf (field p 2 2) 3 13 != 0 || field p 8 8 % 4 != 0 then some stRANGE
  else if esFree s n < len then some stBUDGET
  else if !s.hostReachable (field p 8 8) len then some stBOUND
  else none

/-- The access unit of a push payload; its tick is the presentation time until its bytes have arrived. -/
def pushUnit (p : List Byte) : AccessUnit :=
  let flags := field p 2 2
  let time := field p 16 8
  { tick := if flags.testBit 0 then time else time % 2 ^ 33, arrival := 0, epoch := 0, rap := .no, bytes := field p 4 4
    source := field p 8 8
    discontinuity := flags.testBit 1, parameterSets := flags.testBit 2, wide := flags.testBit 0 }

/-- BITSTREAM_PUSH: an accepted payload's bytes are read; the entry completes when they have arrived (04 R149). -/
def bitstreamPush (s : State) (i : Nat) (irq : Bool) (p : List Byte) : State :=
  match pushReject s p with
  | some st => completeEntry (if st = stBOUND then { s with pci := { s.pci with timeouts := s.pci.timeouts + 1 } } else s) i irq st
  | none =>
    let n := field p 0 2
    let s1 := touchPages s (field p 8 8) (field p 4 4)
    let s2 := s1.modStream n fun t => { t with
      pushes := t.pushes ++ [pushUnit p], counters := { t.counters with packets := t.counters.packets + 1 } }
    { s2 with pci := { s2.pci with fetching := s2.pci.fetching ++ [(i, irq, n)] } }

/-- A tensor push (05 R186), whose bytes must be readable. -/
def tensorEntry (s : State) (p : List Byte) : State × Nat :=
  let r := tensorPush s (field p 0 2) (field p 4 4) (field p 8 8) (field p 16 8)
  if r.2 = stOK ∧ !s.hostReachable (field p 8 8) (field p 4 4) then
    ({ s with pci := { s.pci with timeouts := s.pci.timeouts + 1 } }, stBOUND)
  else r

/-- An entry acted on (17 R509). -/
def actOn (s : State) (i : Nat) (e : List Byte) : State :=
  let irq := (field e 1 1).testBit 1
  let kind := field e 0 1
  let p := (e.drop 32).take 88
  if !entryFormOk e then completeEntry s i irq stRANGE
  else if kind = 1 then bitstreamPush s i irq p
  else if kind = 2 then let r := tensorEntry s p; completeEntry r.1 i irq r.2
  else if kind = 3 then let r := takeEvidence s (p.take 64); completeEntry r.1 i irq r.2
  else let r := labelSample s p; completeEntry r.1 i irq r.2

/-! ## The fetch (17 R509, R510) -/

/-- The head moves past an entry, and the expected phase turns over at the end of the ring. -/
def advanceHead (s : State) : State :=
  let next := (s.pci.cmdHead + 1) % s.pci.ringSize
  { s with pci := { s.pci with
      bad := Table.set 0 s.pci.cmdHead 0 s.pci.bad, cmdHead := next, cmdPhase := if next = 0 then !s.pci.cmdPhase else s.pci.cmdPhase } }

/-- The entries read, in ring order, from the head; the number taken. -/
def takeEntries : List (List Byte) → State → Nat → State × Nat
  | [], s, k => (s, k)
  | e :: r, s, k =>
    let h := s.pci.cmdHead
    if (field e 1 1).testBit 0 != s.pci.cmdPhase || !s.pci.cmdEnable then (s, k)
    else if entryCrcOk e then takeEntries r (advanceHead (actOn s h e)) (k + 1)
    else
      let bad := Table.get 0 h s.pci.bad + 1
      let s1 := { s with pci := { s.pci with bad := Table.set 0 h bad s.pci.bad } }
      if bad < 8 then (s1, k)
      else takeEntries r (advanceHead (completeEntry s1 h ((field e 1 1).testBit 1) stRANGE)) (k + 1)

/-- The ring indices of a fetch. -/
def fetchIndices (p : Pci) : List Nat := (List.range 32).map fun i => (p.cmdHead + i) % p.ringSize

/-- The moment of a fetch: an interval after the start of the previous one, or at once after one that took 32 entries. -/
def fetchTime (s : State) : State :=
  if s.pci.fetchAgain then s else s.atElapsed (s.pci.lastFetch + 1000 * s.pci.cmdInterval)

/-- The ring is fetched: enabled, served, and neither stopped, quiet nor safe (17 R526, 14 R436). -/
def State.ringFetched (s : State) : Bool := s.mayBegin && s.pciServes && s.pci.cmdEnable

/-- One fetch of up to 32 entries; entries that cannot be read are not taken, and the failure is counted (17 R513). -/
def fetchRing (s : State) : State :=
  let idx := fetchIndices s.pci
  if idx.all fun i => s.hostReachable (s.pci.entryAddr i) 128 then
    let s1 := idx.foldl (fun a i => touchPages a (s.pci.entryAddr i) 128) s
    let r := takeEntries (idx.map fun i => s.hostBytes (s.pci.entryAddr i) 128) s1 0
    { r.1 with pci := { r.1.pci with fetchAgain := decide (r.2 = 32) } }
  else { s with pci := { s.pci with timeouts := s.pci.timeouts + 1, fetchAgain := false } }

/-- COMMAND_RING_FETCH: the consumed count of the journal ring is read at each interval, whether or not the command ring is
enabled (17 R511). -/
def commandRingFetch (s : State) : State :=
  let s1 := fetchTime s
  let s2 := readConsumed { s1 with pci := { s1.pci with lastFetch := s1.time.elapsed, fetchAgain := false } }
  if s2.ringFetched then fetchRing s2 else s2

def execCommandRingFetch (s : State) : Out := done (if s.pciServes then commandRingFetch s else s)

/-! ## The bytes of a push (04 R149, 02 R75) -/

/-- The first fetch in progress for a stream, taken out. -/
def takeFetching (n : Nat) : List (Nat × Bool × Nat) → Option ((Nat × Bool) × List (Nat × Bool × Nat))
  | [] => none
  | (i, irq, m) :: r => if m = n then some ((i, irq), r) else (takeFetching n r).map fun x => (x.1, (i, irq, m) :: x.2)

/-- The oldest push of a stream ends: its entry completes with a status. -/
def endPush (s : State) (n i : Nat) (irq : Bool) (rest : List (Nat × Bool × Nat)) (status : Nat) : State :=
  let s1 := s.modStream n fun t => { t with pushes := t.pushes.drop 1 }
  completeEntry { s1 with pci := { s1.pci with fetching := rest } } i irq status

/-- The record 0x0003 of a push that jumps: found by the limits, or flagged by the host (03 R107 to R109). -/
def pushJump (t : StreamSt) (u : AccessUnit) (now : Nat) (jump : Option (Int × Int)) : Option (Int × Int) :=
  if u.wide && u.discontinuity && t.hasTick then some ((u.tick : Int) - (t.lastT : Int), tickEstimate now t.lastA) else jump

/-- The bytes of a push have arrived: its access unit takes its tick, arrival and epoch and enters the buffer. -/
def arrivePush (s : State) (n : Nat) (u : AccessUnit) : State :=
  let now := s.time.now
  let data := s.hostBytes u.source u.bytes
  let rap := pushRap (s.cfg.stream n).codec data
  let t := s.stream n
  let tick0 := if u.wide then u.tick else predictedTick s t 33 u.discontinuity u.tick
  let s1 := fixEventInstant s n tick0 rap
  let t1 := s1.stream n
  let (tick, t2, jump) := if u.wide then (u.tick, unwrapWide t1 u.tick now, none)
    else unwrap 33 s1.cfg.policies u.discontinuity t1 u.tick now
  let s2 := s1.setStream n (addOrigin t2 now tick)
  let s3 := match pushJump t1 u now jump with
    | some (d, e) => s2.streamRecord 0x0003 ucING 0xFF n s2.stl.epoch.toNat tick stOK (.discontinuity u.tick d e)
    | none => s2
  enterEs s3 n { u with tick := tick, arrival := now, epoch := s3.stl.epoch.toNat, rap := rap, data := data
                        discontinuity := u.discontinuity || jump.isSome, dDec := t1.dDec }

/-- PUSH_PAYLOAD_COMPLETE: the last byte of the oldest accepted push of a stream is written; for a stream that has stopped or
left the table meanwhile the entry completes with STATE. -/
def pushComplete (s : State) (n : Nat) : State :=
  match takeFetching n s.pci.fetching, (s.stream n).pushes with
  | some ((i, irq), rest), u :: _ =>
    let row := s.cfg.stream n
    if row.active && row.host && (s.stream n).receives then dispatch (arrivePush (endPush s n i irq rest stOK) n u)
    else endPush s n i irq rest stSTATE
  | _, _ => s

def execPushPayloadComplete (n tick : Nat) (s : State) : Out :=
  done (if s.running && decide (((s.stream n).pushes.head?.map (·.tick)) = some tick) then pushComplete s n else s)

end Sys2Proof.Machine
end

