-- ==== Sys2Proof/Machine/Update.lean ====
section
/-! DEFINITION. Flash programming, slot verification and charter updates (02 R81, R86, R88 to R91). -/

namespace Sys2Proof.Machine

/-! ## FLASH_PROGRAM (R86) -/

/-- The blocks of 128 KiB that a range meets, as one range. -/
def blockRange (a n : Nat) : Nat × Nat := (a / blockSize * blockSize, roundUp (a % blockSize + n) blockSize)

/-- The command's values are in range. -/
def programInRange (s : State) (count : Nat) (p : Page) : Bool :=
  let n := count * 4096
  count != 0 && p.flashSrc.toNat % 4096 == 0 && inDram p.flashSrc.toNat n && p.flashDst.toNat % blockSize == 0
    && decide (p.flashDst.toNat + n ≤ s.flash.size)

/-- The range meets the running slot, the summary area or the directory. -/
def programProtected (s : State) (a n : Nat) : Bool :=
  let meets (b m : Nat) : Bool := !apart a n b m
  meets 0 (2 * blockSize) || meets s.boot.sumStart s.boot.sumSize || meets (s.slotStart s.boot.running) (s.slotSize s.boot.running)

/-- What an erase of part of the summary area takes with it (R53), every part at its offset although they add up to more than the
default area (log entry 204). -/
def eraseSummary (s : State) (a n : Nat) : State :=
  let hit (off m : Nat) : Bool := !apart a n (s.boot.sumStart + off) m
  let f := s.flash
  let f1 := if hit 0 0x40000 then { f with unitMap := [], repairs := [] } else f
  let f2 := if hit 0x40000 0x40000 then { f1 with idLog := [], idOther := [] } else f1
  let f3 := if hit 0x80000 0x100000 then { f2 with overlay := [] } else f2
  let f4 := if hit 0x180000 0x800000 then { f3 with checkpoints := [] } else f3
  let f5 := if hit 0x980000 0x800000 then { f4 with adopted := [] } else f4
  let rest := hit 0x1180000 (s.boot.sumSize - 0x1180000)
  { s with
    flash := if rest then { f5 with safeState := [] } else f5
    journal := if rest then { s.journal with marks := [] } else s.journal
    sec := if hit 0x40000 0x40000 then { s.sec with cert := [] } else s.sec }

/-- The blocks are erased; the inactive slot is no longer verified when the range meets it. -/
def startProgram (page : Src) (count : Nat) (s : State) : State :=
  let p := s.page page
  let n := count * 4096
  let r := blockRange p.flashDst.toNat n
  let other := 1 - s.boot.running
  let s1 := if apart r.1 r.2 s.boot.sumStart s.boot.sumSize then s else eraseSummary s r.1 r.2
  let keep := apart r.1 r.2 (s.slotStart other) (s.slotSize other)
  { s1 with
    flash := { s1.flash with bytes := flashErase s1.flash.bytes r.1 r.2 }
    stl := { s1.stl with
      program := some (page, p.flashSrc.toNat, p.flashDst.toNat, n), slotVerified := s1.stl.slotVerified && keep } }

def programCommand (page : Src) (count : Nat) (s : State) : State :=
  let p := s.page page
  let r := blockRange p.flashDst.toNat (count * 4096)
  if !programInRange s count p then s.pageDone page stRANGE
  else if (s.phase ≠ .quiet && programProtected s r.1 r.2) || s.stl.program.isSome then s.stlReject page 0x10
  else startProgram page count s

/-- STL command FLASH_PROGRAM (R86). -/
def execFlashProgram (page via : Src) (count : Nat) (s : State) : Out :=
  done (stlCommand s page via 0x10 (programCommand page count))

/-- FLASH_PROGRAM_COMPLETE: the bytes are programmed and read back; where the read-back differs, what the flash holds is
free. -/
def execFlashProgramComplete (differs : Bool) (s : State) : Out :=
  done (match s.stl.program with
    | none => s
    | some (page, a, d, n) =>
      let bytes := if differs then (List.range n).map fun i => Config.freeByte (s.free + i) else s.bytes a n
      let s1 := { s with
        flash := { s.flash with bytes := flashWrite s.flash.bytes d bytes }
        stl := { s.stl with program := none }
        free := if differs then s.free + n else s.free }
      s1.pageDone page (if differs then stBOUND else stOK))

/-! ## VERIFY_SLOT (R88 step 2) -/

def verifyCommand (page : Src) (slot : Nat) (s : State) : State :=
  if 1 < slot then s.pageDone page stRANGE
  else if s.stl.update.isSome then s.stlReject page 0x11
  else { s with stl := { s.stl with verify := some (page, slot) } }

/-- STL command VERIFY_SLOT (R81). -/
def execVerifySlot (page via : Src) (slot : Nat) (s : State) : Out := done (stlCommand s page via 0x11 (verifyCommand page slot))

/-- The slot's verification, and the checks on its tables against present capacity. -/
def verifyResult (s : State) (slot : Nat) : Nat × Nat :=
  let st := slotStatus s slot
  if st ≠ stOK then (st, 0)
  else
    let x := readSlot s slot
    let c := charterCfg s x s.layout.modelStaging s.layout.zoneModel
    match charterChecks s x (if sameSection s x 3 s.cfg.model.image then { s.cfg with model := c.model } else s.cfg) c with
    | some f => (f.status, f.check)
    | none => (stOK, 0)

/-- VERIFY_SLOT_COMPLETE (R88). -/
def execVerifySlotComplete (s : State) : Out :=
  done (match s.stl.verify with
    | none => s
    | some (page, slot) =>
      let (st, reason) := verifyResult s slot
      let s1 := { s with stl := { s.stl with
        verify := none, slotVerified := if slot = s.boot.running then s.stl.slotVerified else decide (st = stOK) } }
      s1.pageDone page st reason)

/-! ## CHARTER_UPDATE (R88 to R91) -/

/-- One controller restarts with the firmware it now holds. -/
def restartController (s : State) : Ctrl → State
  | .region g => restartRegion s g
  | .chip =>
    let times := recent s.time.elapsed hour s.flt.chipRestarts ++ [s.time.elapsed]
    if 3 ≤ times.length then chipFatal s srcChipWatchdog 0xFF
    else
      let s1 := discardForRestart s
      { s1 with flt := { s1.flt with chipRestarting := true, chipRestarts := times } }

/-- The controllers of a rolling restart: the regions that are not fenced, then the chip. -/
def rollingOrder (s : State) : List Ctrl :=
  (((List.range 4).filter fun g => !(s.region g).fenced).map Ctrl.region) ++ [Ctrl.chip]

/-- The next controller of the update that is not fenced restarts, or its tables are staged when none is left. -/
def advanceUpdate (s : State) (u : Update) : State :=
  let able (c : Ctrl) : Bool := match c with
    | .region g => !(s.region g).fenced
    | .chip => true
  match u.todo.filter able with
  | [] => stageCharter s u
  | c :: r =>
    let u1 : Update := { u with todo := r, done := u.done ++ [c], restartedAt := s.time.elapsed, hadEval := false,
                                 results := [], periodOk := false }
    restartController { s with stl := { s.stl with update := some u1 } } c

/-- Any batch is pending or open. -/
def anyBatch (s : State) : Bool :=
  s.stl.batch.isSome || s.stl.host.opened || s.stl.smbus.opened || s.stl.internal.opened

def updateCommand (page : Src) (s : State) : State :=
  let at_ := bitsOf (s.page page).instant.toNat 0 64
  if anyBatch s || !s.stl.slotVerified || s.stl.update.isSome then s.stlReject page 0x12
  else if at_ < s.time.now + second then s.pageDone page stRANGE 12
  else
    let slot := 1 - s.boot.running
    let same := (readSlot s slot).firmwareDigests == (readSlot s s.boot.running).firmwareDigests
    let u : Update := { src := page, slot := slot, instant := at_, todo := if same then [] else rollingOrder s }
    let s1 := s.setPage page { s.page page with status := stOK, reason := 0, entry := 0, phase := 6 }
    advanceUpdate s1 u

/-- STL command CHARTER_UPDATE (R88 step 3). -/
def execCharterUpdate (page via : Src) (s : State) : Out := done (stlCommand s page via 0x12 (updateCommand page))

/-- The controller restarted last runs again. -/
def lastRuns (s : State) : List Ctrl → Bool
  | [] => true
  | cs => match cs.getLast? with
    | some (.region g) => decide ((s.region g).state ≠ 1)
    | some .chip => !s.flt.chipRestarting
    | none => true

/-- The region restarted last lets the next controller restart: it has completed a zone period with agreeing results, or has had no
zone evaluation, and 200 ms since its restart then pass. -/
def mayRoll (u : Update) (agreed : Bool) : Bool := if agreed then u.periodOk else !u.hadEval

/-- ROLLING_RESTART_NEXT (R89): the next controller restarts; after the chip controller the settlement is staged as it runs again.
A failed update returns its controllers the same way (R90). -/
def rollNext (s : State) (agreed : Bool) : State :=
  match s.stl.update, s.stl.rollback with
  | some u, _ =>
    if u.settled || u.todo.isEmpty || !lastRuns s u.done || !mayRoll u agreed then s
    else advanceUpdate (if agreed then s else s.atElapsed (u.restartedAt + 200000000)) u
  | none, c :: r =>
    let regions := (List.range 4).all fun g => decide ((s.region g).state ≠ 1)
    if regions && !s.flt.chipRestarting then restartController { s with stl := { s.stl with rollback := r } } c else s
  | none, [] => s

def execRollingRestartNext (agreed : Bool) (s : State) : Out := done (if s.running then rollNext s agreed else s)

end Sys2Proof.Machine
end

