-- ==== Sys2Proof/Machine/Power.lean ====
section
/-! DEFINITION. Power, clocks and temperature (21 R607, R608, R613 to R618): lost references, the cap controller, the droop
monitors, the over-limit temperature and the thermal trip. -/

namespace Sys2Proof.Machine

/-! ## Reference clocks (R607, R608) -/

/-- Both Ethernet ports lose their link (R607). -/
def bothPortsDown (s : State) : State := linkChange (linkChange s 0 false 0) 1 false 0

/-- REFERENCE_CLOCK_LOSS: the loss of SYSCLK25 is chip-fatal, of the PCIe reference takes the link down, of the Ethernet
reference takes both ports down. -/
def execReferenceClockLoss (c : RefClock) (s : State) : Out :=
  done (if !s.answers then s
    else match c with
      | .sysclk25 => chipFatal s srcMonitor 0xFF
      | .pcie =>
        let s1 := { s with pins := { s.pins with refLostPcie := true } }
        if s.pci.up then endpointReset s1 .linkDown else s1
      | .ethernet => bothPortsDown { s with pins := { s.pins with refLostEth := true } })

/-- REFERENCE_CLOCK_RETURN: the reference is used again, and the link trains. -/
def execReferenceClockReturn (c : RefClock) (s : State) : Out :=
  done (if !s.answers then s
    else match c with
      | .sysclk25 => s
      | .pcie => { s with pins := { s.pins with refLostPcie := false } }
      | .ethernet => { s with pins := { s.pins with refLostEth := false } })

/-! ## The cap controller (R613 to R615) -/

/-- The thresholds of the grade in degrees: throttle, over-limit, trip (R617). -/
def throttleAt (s : State) : Int := if s.fuses.grade = 0 then 92 else 102
def overLimitFrom (s : State) : Int := if s.fuses.grade = 0 then 95 else 105
def tripAt (s : State) : Nat := if s.fuses.grade = 0 then 110 else 120

/-- The ratios the controller works on: those before a droop while one lasts (R625), media at 16 while a zone is enabled. -/
def Power.bases (p : Power) (zones : Bool) : Nat × Nat × Nat :=
  (p.droop0.getD p.cd0, p.droop1.getD p.cd1, if zones then 16 else p.droopM.getD p.media)

/-- New ratios, kept for the end of a droop where one lasts. -/
def Power.setBases (p : Power) (r : Nat × Nat × Nat) : Power :=
  { p with
    cd0 := if p.droop0.isSome then p.cd0 else r.1, droop0 := p.droop0.map fun _ => r.1
    cd1 := if p.droop1.isSome then p.cd1 else r.2.1, droop1 := p.droop1.map fun _ => r.2.1
    media := if p.droopM.isSome then p.media else r.2.2, droopM := p.droopM.map fun _ => r.2.2 }

/-- One step down: the compute die of the higher ratio, ties to CD0; the media units last and never with a zone enabled. -/
def lowerRatio (zones : Bool) : Nat × Nat × Nat → Nat × Nat × Nat
  | (c0, c1, m) =>
    if 8 < c0 ∨ 8 < c1 then (if c1 ≤ c0 then (c0 - 1, c1, m) else (c0, c1 - 1, m))
    else if !zones && decide (8 < m) then (c0, c1, m - 1)
    else (c0, c1, m)

/-- One step up: the lowest ratio below 16, media last; between equal compute dies the manual names none. -/
def raiseRatio (free : Bool) : Nat × Nat × Nat → Nat × Nat × Nat
  | (c0, c1, m) =>
    if c0 < 16 ∧ (c0 < c1 ∨ (c0 = c1 ∧ free)) then (c0 + 1, c1, m)
    else if c1 < 16 then (c0, c1 + 1, m)
    else (c0, c1, if m < 16 then m + 1 else m)

/-- The cap in milliwatts (R621). -/
def Cfg.capMilliwatts (c : Cfg) : Nat := 60000 + 5000 * bitsOf c.regs.powerCap.toNat 0 4

/-- One tick of the cap controller with package power in mW and the hottest junction (R615, R622, R623). -/
def capTick (s : State) (mw : Nat) (celsius : Int) (sensor : Nat) : State :=
  let zones := !s.cfg.enabledZones.isEmpty
  let limit := s.cfg.capMilliwatts
  let p : Power := { s.power with power := min 255 (mw / 1000), temp := celsius, sensor := sensor }
  let old := p.bases zones
  let overPower := decide (limit < mw)
  let overTemp := decide (throttleAt s < celsius)
  let q : Power × Bool :=
    if overPower || overTemp then
      let new := lowerRatio zones old
      ({ p.setBases new with
          below := 0
          capLimited := p.capLimited || (overPower && new != old)
          thermalLimited := p.thermalLimited || (overTemp && new != old) }, false)
    else if mw + 5000 < limit ∧ celsius ≤ throttleAt s - 3 then
      if p.below + 1 < 10 then ({ p.setBases old with below := p.below + 1 }, false)
      else ({ p.setBases (raiseRatio (Config.freeBit s.free) old) with below := 0 }, true)
    else ({ p.setBases old with below := 0 }, false)
  let full := decide (q.1.bases zones = (16, 16, 16))
  let power := if full then { q.1 with capLimited := false, thermalLimited := false } else q.1
  let s1 := { s with power := power }
  trackAll (if q.2 then s1.nextFree else s1)

/-- POWER_CAP_TICK (R615): every 10 ms. -/
def execPowerCapTick (milliwatts : Nat) (celsius : Int) (sensor : Nat) (s : State) : Out :=
  done (if s.running then capTick (s.atMultiple 10000000) milliwatts celsius sensor else s)

/-! ## Droops (R616, 07 R251 cause 6) -/

/-- The running tile of an engine abandoned by the droop of its die, to run again after it; zone tiles stay. -/
def droopTile (s : State) (p : Nat) : State :=
  match (s.engine p).running with
  | none => s
  | some r =>
    if isZone r.issue then s
    else
      let s1 := abandonTile (s.corrected srcPower p) p 6 stBUDGET (cyclesSince s p r) 0
      fenceIfDue (s1.modEngine p fun e => { e with again := e.again.map fun x => if x.issue = r.issue then { x with droop := true } else x }) p

/-- A droop of a compute die: its tiles abandoned, its ratio 8 for 1 ms. -/
def droopDie (s : State) (d : Nat) : State :=
  let w := s.power
  let p : Power := if d = 0 then { w with droop0 := some (w.droop0.getD w.cd0), cd0 := 8, droopAt0 := s.time.elapsed, droopSeen := true }
    else { w with droop1 := some (w.droop1.getD w.cd1), cd1 := 8, droopAt1 := s.time.elapsed, droopSeen := true }
  ((List.range 36).map (36 * d + ·)).foldl droopTile { s with power := p }

/-- A droop of MD: the media ratio is 8 for 1 ms, or the encoders and the non-zone pre-processing are held for it. -/
def droopMedia (s : State) : State :=
  let w := s.power
  if s.cfg.enabledZones.isEmpty then
    trackAll { s with power := { w with droopM := some (w.droopM.getD w.media), media := 8, droopAtM := s.time.elapsed, droopSeen := true } }
  else { s with power := { w with mediaHold := true, droopAtM := s.time.elapsed, droopSeen := true } }

/-- DROOP_DETECTED. -/
def execDroopDetected (d : Die) (s : State) : Out :=
  done (if !s.answers then s
    else match d with
      | .cd0 => droopDie s 0
      | .cd1 => droopDie s 1
      | .md => droopMedia s)

/-- DROOP_HOLD_END: 1 ms after the droop the ratio before it returns. -/
def execDroopHoldEnd (d : Die) (s : State) : Out :=
  done (if !s.answers then s
    else match d with
      | .cd0 => match s.power.droop0 with
        | none => s
        | some r => let s1 := s.atElapsed (s.power.droopAt0 + 1000000)
                    { s1 with power := { s1.power with cd0 := r, droop0 := none } }
      | .cd1 => match s.power.droop1 with
        | none => s
        | some r => let s1 := s.atElapsed (s.power.droopAt1 + 1000000)
                    { s1 with power := { s1.power with cd1 := r, droop1 := none } }
      | .md =>
        if s.power.droopM.isNone && !s.power.mediaHold then s
        else
          let s1 := s.atElapsed (s.power.droopAtM + 1000000)
          trackAll { s1 with power := { s1.power with media := s1.power.droopM.getD s1.power.media, droopM := none, mediaHold := false } })

/-! ## Temperature (R617, R618) -/

/-- OVER_LIMIT_TEMP: the junction has stood above the over-limit threshold for 1 s; record 0x060F once per minute. -/
def execOverLimitTemp (celsius : Int) (sensor : Nat) (s : State) : Out :=
  done (if !s.answers ∨ celsius ≤ overLimitFrom s then s
    else
      let s1 := { s with power := { s.power with temp := celsius, sensor := sensor } }
      let due := match s.power.overLimitAt with
        | some t => decide (t + 60 * second ≤ s.time.elapsed)
        | none => true
      if !due then s1
      else
        let s2 := { s1 with
          power := { s1.power with overLimitAt := some s1.time.elapsed }
          flt := { s1.flt with corrected := s1.flt.corrected + 1, lastClass := 0 } }
        s2.emit (s2.record 0x060F ucFLT (.flt { cls := 1, source := srcOverLimit, unit := sensor })))

/-- THERMAL_TRIP: THERMTRIP_N low until PWRGOOD falls, and the safe state. -/
def execThermalTrip (s : State) : Out :=
  done (if !s.answers then s else chipFatal { s with pins := { s.pins with thermtripLow := true } } srcMonitor 0xFF)

end Sys2Proof.Machine
end

