-- ==== Sys2Proof/Machine/Regfile.lean ====
section
/-! DEFINITION. What every register reads (22 register summary and the register rules of each chapter): the register at each
offset of each block, with its value and its width. -/

namespace Sys2Proof.Machine

/-- A register as it stands: its value, and whether it is 64 bits wide (or two adjacent words). -/
structure Reg where
  value : Nat
  wide : Bool
  deriving DecidableEq, Repr

/-- A 32-bit register and a 64-bit one. -/
def r32 (v : Nat) : Option Reg := some { value := v % 2 ^ 32, wide := false }
def r64 (v : Nat) : Option Reg := some { value := v % 2 ^ 64, wide := true }

/-- One bit of a mask for each number below n that satisfies a test. -/
def maskOf (n : Nat) (p : Nat → Bool) : Nat := ((List.range n).map fun i => if p i then 2 ^ i else 0).sum

/-- Eight bytes of a buffer as a register. -/
def bytesReg (b : Nat → Byte) (o : Nat) : Option Reg := r64 (leNat ((List.range 8).map fun i => b (o + i)))

/-! ## The chip, settlement and time blocks -/

/-- CHP_BOOT_STATUS (02 R64). -/
def bootStatus (s : State) : Nat :=
  let b := s.boot
  fld b.step 28 4 + fld b.slotA 24 4 + fld b.slotB 20 4 + fld b.running 19 1 + fld (bit b.overlay) 18 1 + fld (bit b.dirDefault) 17 1
    + fld b.charterRb 8 7 + fld s.fuses.charterRb 0 7

/-- CHP_ADAPT_STATUS (13 R409). -/
def adaptStatus (s : State) : Nat :=
  let a := s.adapt
  fld a.phase 29 3 + fld a.regions 25 4 + fld a.status 21 4 + fld (bit a.adopted) 20 1 + fld a.samples.length 0 16

/-- CHP_POWER_STATUS (21 R622). -/
def powerStatus (s : State) : Nat :=
  let p := s.power
  fld p.power 24 8 + fld p.cd0 19 5 + fld p.cd1 14 5 + fld s.mediaRatio 9 5 + fld (bit p.capLimited) 8 1
    + fld (bit p.thermalLimited) 7 1 + fld (bit p.droopSeen) 6 1

/-- CHP_THERMAL (21 R623). -/
def thermal (s : State) : Nat :=
  fld (twos s.power.temp 8) 24 8 + fld s.power.sensor 16 8 + fld (tripAt s) 8 8 + fld (twos (throttleAt s) 8) 0 8

/-- A settled register of the configuration in force. -/
def settledReg (s : State) (off : Nat) : Option Reg := r32 (s.cfg.regs.read off).toNat

def chpReg (s : State) (o : Nat) : Option Reg :=
  if o = 0x0000 then r32 (bootStatus s)
  else if o = 0x0010 then settledReg s 0x40010
  else if o = 0x0400 then r32 (adaptStatus s)
  else if o = 0x0408 then r64 s.adapt.step.toNat
  else if o = 0x0410 then settledReg s 0x40410
  else if o = 0x0420 then settledReg s 0x40420
  else if o = 0x0428 then r32 (powerStatus s)
  else if o = 0x0430 then r32 (thermal s)
  else if o = 0x0438 then r32 (fld s.pins.smbAddr 0 3 + fld (bit s.pins.pcieOff) 3 1)
  else if 0x0440 ≤ o ∧ o < 0x0460 then
    r64 ((s.cfg.regs.read (0x40000 + o)).toNat + (s.cfg.regs.read (0x40004 + o)).toNat * 2 ^ 32)
  else none

/-- The page of an STL offset (02 R67, 22 R638). -/
def pageOf (o : Nat) : Option Src :=
  if o / 0x100 = 0 then some .host else if o / 0x100 = 1 then some .smbus else if o / 0x100 = 2 then some .internal else none

/-- STL_STATUS of a page (02 R84). -/
def stlStatus (s : State) (p : Page) : Nat :=
  fld p.status 28 4 + fld p.phase 25 3 + fld p.reason 20 5 + fld ((s.stl.batch.map fun b => srcCode b.src).getD 0xF) 16 4 + fld p.entry 0 12

def stlReg (s : State) (o : Nat) : Option Reg :=
  match pageOf o with
  | none => none
  | some src =>
    let p := s.page src
    let r := o % 0x100
    if r = 0x00 then r32 0
    else if r = 0x08 then r32 (stlStatus s p)
    else if r = 0x10 then r64 (bitsOf p.instant.toNat 0 64)
    else if r = 0x18 then r64 (bitsOf p.instant.toNat 64 64)
    else if r = 0x20 then r32 s.stl.epoch.toNat
    else if r = 0x28 then r32 (fld s.stl.rejectSrc 8 2 + fld s.stl.rejectOp 0 8)
    else if r = 0x30 then r64 p.flashSrc.toNat
    else if r = 0x38 then r64 p.flashDst.toNat
    else none

/-- TIM_STATUS.offset saturates (03 R105). -/
def satOffset (theta : Int) : Int := max (-32767) (min 32767 theta)

/-- TIM_STATUS (03 R105). -/
def timStatus (s : State) : Nat :=
  let t := s.time
  fld t.source 28 4 + fld t.quality 26 2 + fld (bit t.stepped) 25 1 + fld (bit t.reject) 24 1 + satBits t.rejects 8 * 2 ^ 16
    + fld (twos (satOffset t.offset) 16) 0 16

def timReg (s : State) (o : Nat) : Option Reg :=
  if o = 0x00 then r64 s.time.now
  else if o = 0x08 then r64 s.time.elapsed
  else if o = 0x10 then r32 (timStatus s)
  else if o = 0x18 then settledReg s 0x51018
  else if o = 0x20 then r64 s.time.timein.todNext.toNat
  else if o = 0x28 then r32 (twos s.time.utcOffset 32)
  else none

/-! ## Safety and faults -/

/-- SAF_STATUS (15 R471). -/
def safStatus (s : State) : Nat :=
  fld (maskOf 16 fun n => (s.channel n).toggling) 16 16 + fld s.ableRegions.length 13 3 + fld (bit s.saf.started) 12 1 + fld s.saf.status 8 4

/-- SAF_CHn_STATUS (15 R474). -/
def channelStatus (s : State) (n : Nat) : Nat :=
  let c := s.channel n
  let zones := (s.zonesOn n).length
  let st := if !s.saf.started then 0 else if zones = 0 then 3 else if c.latched then 2 else if c.toggling then 1 else 0
  fld st 30 2 + fld zones 23 7

/-- SAF_ZONEz_STATUS (15 R473). -/
def zoneStatus (s : State) (z : Nat) : Nat :=
  let x := s.zone z
  let st := match x.state with
    | .off => 0
    | .start => 1
    | .occupied => 2
    | .clear => 3
  fld st 30 2 + fld x.cause 26 4 + fld x.u 22 4 + satBits x.q 6 * 2 ^ 16 + satBits x.e 8 * 2 ^ 8

def safReg (s : State) (o : Nat) : Option Reg :=
  if o = 0x0000 then r32 (safStatus s)
  else if o = 0x0008 then r32 s.saf.dDec.toNat
  else if 0x0100 ≤ o ∧ o < 0x0200 then (if o % 16 = 0 then r32 (channelStatus s ((o - 0x0100) / 16)) else none)
  else if o = 0x0200 then r64 s.saf.evaluations.toNat
  else if o = 0x0208 then r64 s.saf.disagree.toNat
  else if o = 0x0210 then r64 s.saf.missed.toNat
  else if o = 0x0218 then r64 s.saf.untrusted.toNat
  else if 0x1000 ≤ o ∧ o < 0x1400 then (if o % 16 = 0 then r32 (zoneStatus s ((o - 0x1000) / 16)) else none)
  else none

/-- FLT_STATUS (14 R441). -/
def fltStatus (s : State) : Nat :=
  let out := ((List.range 72).filter fun p => decide (2 ≤ (s.engine p).state)).length
  fld s.flt.state 29 3 + fld s.flt.lastClass 27 2 + fld (maskOf 4 fun g => (s.region g).fenced) 12 4
    + fld (maskOf 4 fun g => (s.region g).degraded) 8 4 + fld out 0 8

/-- FLT_STOP_STATUS (14 R443). -/
def stopStatus (s : State) : Nat :=
  fld s.flt.stopPhase 30 2 + fld (bit s.flt.immediate) 29 1 + fld (bit s.flt.fatal) 28 1 + satBits s.stopPending 16

/-- FLT_ENGp_STRIKE (14 R445). -/
def strikeStatus (s : State) (p : Nat) : Nat :=
  let held := heldStrikes s (s.engine p).strikes
  satBits held.length 2 * 2 ^ 30 + satBits (recent s.time.elapsed month (s.engine p).fences).length 2 * 2 ^ 28
    + (held.foldl min (held.headD 0)) / second % 2 ^ 20

def fltReg (s : State) (o : Nat) : Option Reg :=
  if o = 0x0000 then r32 (fltStatus s)
  else if o = 0x0010 then settledReg s 0x54010
  else if o = 0x0020 then r32 (stopStatus s)
  else if o = 0x0100 then r64 s.flt.corrected.toNat
  else if o = 0x0108 then r64 s.flt.contained.toNat
  else if o = 0x0110 then r64 s.flt.fenced.toNat
  else if o = 0x0118 then r64 (s.flt.auditsRun.toNat + s.flt.auditsDropped.toNat * 2 ^ 48)
  else if o = 0x0120 then r64 s.flt.disagree.toNat
  else if 0x1000 ≤ o ∧ o < 0x1240 then r32 (strikeStatus s ((o - 0x1000) / 8))
  else none

/-! ## Security, tallies, observation -/

/-- SEC_STATUS (19 R570). -/
def secStatusReg (s : State) : Nat :=
  fld s.fuses.lifecycle 30 2 + fld s.sec.status 26 4 + fld (bit s.sec.busy) 25 1 + fld (bit s.sec.unlockEnd.isSome) 24 1
    + fld (bit (s.fuses.integratorHash != 0)) 23 1 + fld (bit s.sec.identity) 22 1 + fld s.fuses.spans 12 10 + fld s.fuses.firmwareRb 5 7

def secReg (s : State) (o : Nat) : Option Reg :=
  if o = 0x0000 then r32 (secStatusReg s)
  else if o = 0x0008 then r32 0
  else if o = 0x0010 then r64 s.sec.idx
  else if o = 0x0018 then r64 s.sec.perm.toNat
  else if o = 0x0020 then r32 ((s.sec.unlockEnd.map fun t => ceilDiv (t - s.time.elapsed) second).getD 0)
  else if 0x0040 ≤ o ∧ o < 0x0060 then r64 (s.sec.challenge / 2 ^ (8 * (o - 0x0040)))
  else if 0x0060 ≤ o ∧ o < 0x0080 then r64 (s.sec.nonce / 2 ^ (8 * (o - 0x0060)))
  else if 0x1000 ≤ o ∧ o < 0x2000 then bytesReg (fun i => Table.get 0 i s.sec.token) (o - 0x1000)
  else if 0x2000 ≤ o ∧ o < 0x4000 then bytesReg (fun i => s.sec.report.getD i 0) (o - 0x2000)
  else if 0x4000 ≤ o ∧ o < 0x8000 then bytesReg (fun i => s.sec.cert.getD i 0) (o - 0x4000)
  else none

/-- The registers of a till (03 R125). -/
def tillReg (t : Till) (r : Nat) : Option Reg :=
  if r = 0x00 then r64 t.cycles.toNat
  else if r = 0x08 then r64 t.dram.toNat
  else if r = 0x10 then r64 t.bridge.toNat
  else if r = 0x18 then r64 t.energy.toNat
  else if r = 0x20 then r32 t.slowdown
  else none

def talReg (s : State) (o : Nat) : Option Reg :=
  if o = 0x0000 then r64 s.stl.stateRejects.toNat
  else if o = 0x0008 then r64 s.stl.ignoredWrites.toNat
  else if 0x1000 ≤ o ∧ o < 0x2000 then tillReg (s.till ((o - 0x1000) / 0x40)) (o % 0x40)
  else if 0x2000 ≤ o ∧ o < 0x2140 then tillReg (s.devTill ((o - 0x2000) / 0x40)) (o % 0x40)
  else none

/-- The registers of a watch slot (20 R582, R590). -/
def watchReg (s : State) (w r : Nat) : Option Reg :=
  let x := s.watch w
  if r < 0x40 then bytesReg (fun i => Table.get 0 i x.request) r
  else if r < 0x100 then bytesReg (fun i => x.result.getD i 0) (r - 0x40)
  else if r = 0x100 then r32 (fld x.status 28 4 + fld x.state 26 2)
  else none

/-- DBG_TRACE_CTRL (20 R580). -/
def traceCtrl (s : State) : Nat :=
  fld (bit s.dbg.traceEnable) 31 1 + fld (bit s.dbg.traceStop) 30 1 + fld s.dbg.dump 24 6 + fld s.dbg.sources 0 18

/-- The slot of a DBG offset and the offset within it (20 R582). -/
def watchAt (o : Nat) : Option (Nat × Nat) :=
  if 0x1000 ≤ o ∧ o < 0x1800 then some (64 + (o - 0x1000) / 0x200, o % 0x200)
  else if 0x4000 ≤ o ∧ o < 0xC000 then some ((o - 0x4000) / 0x200, o % 0x200)
  else none

def dbgReg (s : State) (o : Nat) : Option Reg :=
  if o = 0x0000 then r32 0
  else if o = 0x0008 then r32 (fld s.dbg.status 28 4 + fld (bit s.flt.debugHalt) 27 1)
  else if o = 0x0010 then r32 (traceCtrl s)
  else if o = 0x0018 then r32 (fld s.dbg.traceState 30 2 + fld (bit s.dbg.wrapped) 29 1)
  else if o = 0x0020 then r64 s.dbg.ptr
  else if o = 0x0028 then r64 s.dbg.lost.toNat
  else match watchAt o with
    | some (w, r) => watchReg s w r
    | none => none

/-- OBS_SEL and OBS_STATUS (20 R593, R594). -/
def obsReg (s : State) (o : Nat) : Option Reg :=
  if o = 0x0000 then r32 (fld (bit s.dbg.obsEnable) 31 1 + fld s.dbg.obsGroup 16 10 + fld s.dbg.obsDivider 8 8)
  else if o = 0x0008 then
    r32 (fld s.dbg.obsStatus 28 4 + fld (bit s.pins.obsActive) 27 1 + fld (if s.pins.obsActive then obsDomain s.dbg.obsGroup else 0) 25 2)
  else none

/-! ## Host endpoint, pre-processing, ingest -/

/-- PCI_LINK_STATUS (17 R522). -/
def linkStatus (p : Pci) : Nat :=
  fld p.speed 28 4 + fld p.width 24 4 + fld (bit p.up) 23 1 + fld (bit p.ats) 22 1 + fld (bit p.d3hot) 21 1 + fld p.downs 8 8 + fld p.resets 0 8

/-- The phase a ring expects, and its controls (17 R520, R521). -/
def cmdRingCtrl (p : Pci) : Nat :=
  fld (bit p.cmdEnable) 31 1 + fld (bit (p.cmdEnable && p.cmdPhase)) 30 1 + fld p.cmdSize 20 5 + fld p.cmdStatus 16 4 + fld p.cmdInterval 0 16
def jrnRingCtrl (p : Pci) : Nat :=
  fld (bit p.jrnEnable) 31 1 + fld p.jrnStart 29 2 + fld p.jrnSize 24 5 + fld p.jrnStatus 20 4

def pciReg (s : State) (o : Nat) : Option Reg :=
  let p := s.pci
  if o = 0x0000 then r32 (linkStatus p)
  else if o = 0x0008 then r64 p.cmdBase.toNat
  else if o = 0x0010 then r32 (cmdRingCtrl p)
  else if o = 0x0018 then r32 (fld p.cmdHead 0 16)
  else if o = 0x0020 then r64 p.jrnBase.toNat
  else if o = 0x0028 then r32 (jrnRingCtrl p)
  else if o = 0x0030 then r64 p.jrnState.toNat
  else if o = 0x0038 then r64 p.jrnFrom.toNat
  else if o = 0x0040 then r32 p.intCause.toNat
  else if o = 0x0048 then r32 p.intEnable.toNat
  else if o = 0x0050 then r32 (fld p.intCount 16 16 + fld p.intTimer 0 16)
  else if o = 0x0100 then r64 p.entries.toNat
  else if o = 0x0108 then r64 p.timeouts.toNat
  else if o = 0x0110 then r64 p.dropped.toNat
  else if o = 0x0118 then r64 p.invalidations.toNat
  else none

/-- PRE_ACCTa_STATUS (05 R193). -/
def acctStatus (s : State) (a : Nat) : Nat :=
  satBits (s.backlog a / 100000) 16 * 2 ^ 16 + fld (bit (decide (s.cfg.highMark < s.backlog a))) 15 1 + fld (s.acct a).marks.length 5 10

def preReg (s : State) (o : Nat) : Option Reg :=
  if o = 0x0010 then settledReg s 0x82010
  else if o = 0x0020 then r64 s.preConvSat.toNat
  else if 0x1000 ≤ o ∧ o < 0x1400 then
    (if o % 16 = 0 then r32 (acctStatus s ((o - 0x1000) / 16)) else r64 (s.acct ((o - 0x1000) / 16)).shed.toNat)
  else none

/-- ING_STRMs_STATUS (04 R166). -/
def streamStatus (s : State) (n : Nat) : Nat :=
  let t := s.stream n
  let row := s.cfg.stream n
  fld t.state 29 3 + fld (bit row.zone) 28 1 + fld t.last 24 4 + satBits t.shownFlagged 8 * 2 ^ 16 + satBits (t.esBytes * 1024 / row.esBytes) 10

/-- The registers of a stream (04 R166). -/
def streamReg (s : State) (n r : Nat) : Option Reg :=
  let c := (s.stream n).counters
  if r = 0x00 then r32 (streamStatus s n)
  else if r = 0x08 then r64 c.packets.toNat
  else if r = 0x10 then r64 c.lost.toNat
  else if r = 0x18 then r64 c.bytes.toNat
  else if r = 0x20 then r64 c.pictures.toNat
  else if r = 0x28 then r64 c.concealed.toNat
  else if r = 0x30 then r64 c.abandoned.toNat
  else r64 (s.stream n).lastTick

def ingReg (s : State) (o : Nat) : Option Reg :=
  if o = 0x0100 then r64 s.ingUnmatched.toNat
  else if 0x10000 ≤ o then streamReg s ((o - 0x10000) / 0x40) (o % 0x40)
  else none

/-! ## Network, memory, media, regions, clearing, engines -/

/-- NETn_STATUS (18 R547) and its counters (R550). -/
def netReg (s : State) (n o : Nat) : Option Reg :=
  let x := s.netPort n
  if o = 0x0000 then r32 (fld x.state 30 2 + fld x.mode 28 2 + fld (bit x.fecLock) 27 1 + satBits x.fecUe 8 * 2 ^ 16 + satBits x.downs 8 * 2 ^ 8)
  else if o = 0x0008 then settledReg s (0xC0008 + 0x1000 * n)
  else if o = 0x0010 then r64 x.rx.toNat
  else if o = 0x0018 then r64 x.tx.toNat
  else if o = 0x0020 then r64 x.fcsErr.toNat
  else if o = 0x0028 then r64 x.dropped.toNat
  else none

/-- Membership: off without a Sanor port, joining until a peer is joined, isolated on a number conflict (18 R549). -/
def lnkState (s : State) : Nat :=
  if s.lnk.isolated then 3
  else if !(s.sanorOn 0 || s.sanorOn 1) then 0
  else if s.lnk.peers.any fun e => e.2.joined then 2 else 1

def lnkReg (s : State) (o : Nat) : Option Reg :=
  if o = 0x0000 then r32 (fld (lnkState s) 30 2 + fld s.deviceNumber 20 10 + fld ((s.cfg.peer.map (·.domain)).getD 0) 0 16)
  else if o = 0x0008 then r32 (fld (s.lnk.peers.filter fun e => e.2.joined).length 0 11)
  else if o = 0x0010 then r64 s.lnk.sent.toNat
  else if o = 0x0018 then r64 s.lnk.retrans.toNat
  else if o = 0x0020 then r64 (s.lnk.handOut.toNat + s.lnk.handIn.toNat * 2 ^ 32)
  else if o = 0x0028 then r64 (s.lnk.queriesSent.toNat + s.lnk.queriesAnswered.toNat * 2 ^ 32)
  else if 0x0100 ≤ o ∧ o < 0x0180 then r64 (maskOf 64 fun i => (s.peer (8 * (o - 0x0100) + i)).joined)
  else none

/-- MEMn_STATUS (16 R499) and its counters (R500). -/
def memReg (s : State) (n o : Nat) : Option Reg :=
  let d := s.dram n
  if o = 0x0000 then
    r32 (fld d.state 30 2 + satBits d.lanes 6 * 2 ^ 24 + satBits d.temp 8 * 2 ^ 16 + fld (bit d.refresh2x) 15 1 + fld d.remapFree 0 11)
  else if o = 0x0008 then r64 d.ce.toNat
  else if o = 0x0010 then r64 d.odecc.toNat
  else if o = 0x0018 then r64 d.ue.toNat
  else if o = 0x0020 then r64 (d.repairs.toNat + d.kept.toNat * 2 ^ 32)
  else if o = 0x0028 then r64 (d.panics.toNat + d.panicLost.toNat * 2 ^ 48)
  else if o = 0x0030 then r64 d.retrain.toNat
  else none

/-- ENCn_STATUS and its counters (12 R389). -/
def encReg (s : State) (n o : Nat) : Option Reg :=
  let e := s.encoder n
  let mine := s.evidence.outputs.filter fun x => x.encoder == n
  if o = 0x0000 then
    r32 (fld (2 * bit e.fenced) 30 2 + fld e.status 26 4 + fld (mine.filter fun x => !x.live).length 21 5 + fld (mine.filter (·.live)).length 16 5
      + satBits s.evidence.queue.length 6 * 2 ^ 10 + satBits (s.encLoad n * 1024 / encCapacity) 10)
  else if o = 0x0008 then r64 e.pictures.toNat
  else if o = 0x0010 then r64 e.bits.toNat
  else if o = 0x0018 then r64 e.fallback.toNat
  else if o = 0x0020 then r64 e.missed.toNat
  else none

/-- DECn_STATUS (04 R165). -/
def decReg (s : State) (d o : Nat) : Option Reg :=
  let e := s.dec d
  if o = 0x0000 then
    r32 (fld e.state 30 2 + fld (bit e.job.isSome) 29 1 + fld ((e.job.map (·.1)).getD 0) 19 10
      + satBits (recent s.time.elapsed day e.violations).length 8 * 2 ^ 8 + satBits e.abandons 8)
  else none

/-- RGNr_STATUS (22 R639); the counts of engines read zero until the initial settlement. -/
def rgnReg (s : State) (g o : Nat) : Option Reg :=
  let x := s.region g
  let st := if x.fenced then 3 else if x.state = 1 then 1 else if x.degraded then 2 else 0
  if o = 0x0000 then
    r32 (fld st 30 2 + (if s.saf.started then satBits (s.inService g) 5 * 2 ^ 25 + satBits (s.reserves g) 2 * 2 ^ 23 else 0)
      + satBits x.restarts 7 * 2 ^ 16)
  else none

/-- CLRr_STATUS (11 R365) and its counters (R366). -/
def clrReg (s : State) (r o : Nat) : Option Reg :=
  let e := s.clr r
  let served := (List.range 4).filter fun g => s.clrServing g == some r
  if o = 0x0000 then
    r32 (fld (if e.fenced then 2 else if served.any (· != r) then 1 else 0) 30 2 + fld (served.map (2 ^ ·)).sum 26 4
      + fld (bit (s.keeper == some r)) 25 1 + fld e.status 21 4 + fld e.opcode 18 3 + satBits (e.lines.filter (·.dirty)).length 16)
  else if o = 0x0010 then r64 e.commands.toNat
  else if o = 0x0018 then r64 e.opened.toNat
  else if o = 0x0020 then r64 e.closed.toNat
  else if o = 0x0028 then r64 e.unresolved.toNat
  else if o = 0x0030 then r64 e.cacheCe.toNat
  else if o = 0x0038 then r64 (fld (s.poolQuarantined r) 32 19 + fld (s.poolFree r) 0 19)
  else none

/-- ENGp_IDENTITY (01 R36). -/
def engIdentity (e : Engine) (p : Nat) : Nat :=
  fld e.state 26 2 + fld (if e.state = 0 then e.logical else 0xFF) 18 8 + fld (p / 36) 17 1 + fld (p / 18) 15 2 + fld (p % 18 / 6) 13 2
    + fld (p % 6) 10 3 + fld p 0 7

/-- ENGp_TILE_STATUS (07 R256). -/
def tileStatus (e : Engine) : Nat :=
  fld e.status 28 4 + fld e.activity 26 2 + fld (bit e.abandoned) 25 1 + fld e.cause 22 3 + fld e.account 16 6 + fld e.overdraft 0 15

/-- ENGp_CELL_ERR (07 R257). -/
def cellErr (e : Engine) : Nat := satBits e.parity 8 * 2 ^ 24 + satBits e.bankCe 8 * 2 ^ 16 + satBits e.bankUe 8 * 2 ^ 8 + fld e.cellBits 0 8

/-- ENGp_HALO_STATUS (08 R287). -/
def haloStatus (e : Engine) : Nat :=
  fld (e.haloRx.getD 3 0xFF) 24 8 + fld (e.haloRx.getD 2 0xFF) 16 8 + fld (e.haloRx.getD 1 0xFF) 8 8 + fld (e.haloRx.getD 0 0xFF) 0 8

/-- ENGp_COMBINE_STATUS (08 R290). -/
def combineStatus (e : Engine) : Nat :=
  let oldest := e.combines.head?
  fld ((oldest.map fun c => maskOf 16 c.arrived.contains).getD 0) 16 16 + satBits e.combines.length 3 * 2 ^ 13
    + fld ((oldest.map (·.parts)).getD 0) 8 5 + satBits e.duplicates 8

/-- The resident model has the compatibility flag set: the old one's until a model switch ends (03 R132, 06 R224). -/
def State.residentCompat (s : State) : Bool :=
  match s.switch with
  | some x => if x.adoption then s.cfg.model.compat else x.oldCompat
  | none => s.cfg.model.compat

/-- ENGp_NUM_STATUS (06 R224). -/
def numStatus (s : State) (e : Engine) : Nat :=
  fld e.lastFmt 8 4 + fld (bit s.residentCompat) 3 1 + fld (bit e.nanSeen) 2 1 + fld (bit e.accSatSeen) 1 1 + fld (bit e.convSatSeen) 0 1

def engReg (s : State) (p o : Nat) : Option Reg :=
  let e := s.engine p
  if o = 0x0000 then r32 (engIdentity e p)
  else if o = 0x0010 then r32 (tileStatus e)
  else if o = 0x0018 then r64 e.tiles.toNat
  else if o = 0x0020 then r64 e.abandons.toNat
  else if o = 0x0028 then r64 e.memCe.toNat
  else if o = 0x0030 then r32 (cellErr e)
  else if o = 0x0040 then r64 e.tileFault.toNat
  else if o = 0x0048 then r32 (haloStatus e)
  else if o = 0x0050 then r32 (combineStatus e)
  else if o = 0x0058 then r64 e.convSkip.toNat
  else if o = 0x0200 then r64 e.convSat.toNat
  else if o = 0x0208 then r64 e.accSat.toNat
  else if o = 0x0210 then r64 e.nanConv.toNat
  else if o = 0x0218 then r32 (numStatus s e)
  else none

/-! ## The privileged view (20 R573) -/

/-- The register whose first byte lies at a BAR0 offset that is a multiple of 8; none where the Passbook lists none. -/
def regAt (s : State) (off : Nat) : Option Reg :=
  match blockOf off with
  | none => none
  | some (code, inst, base, _) =>
    let o := off - base
    if code = 0x01 then chpReg s o
    else if code = 0x02 then rgnReg s inst o
    else if code = 0x03 then engReg s inst o
    else if code = 0x04 then clrReg s inst o
    else if code = 0x05 then decReg s inst o
    else if code = 0x06 then encReg s inst o
    else if code = 0x07 then preReg s o
    else if code = 0x08 then ingReg s o
    else if code = 0x09 then memReg s inst o
    else if code = 0x0A then pciReg s o
    else if code = 0x0B then netReg s inst o
    else if code = 0x0C then lnkReg s o
    else if code = 0x0D then timReg s o
    else if code = 0x0E then stlReg s o
    else if code = 0x0F then safReg s o
    else if code = 0x10 then fltReg s o
    else if code = 0x11 then secReg s o
    else if code = 0x12 then dbgReg s o
    else if code = 0x13 then talReg s o
    else obsReg s o

/-- A 4-byte word is listed. -/
def State.listed (s : State) (off : Nat) : Bool :=
  match regAt s (off / 8 * 8) with
  | none => false
  | some r => off % 8 == 0 || r.wide

/-- The live value of a word of the privileged view: the live Passbook below 256 KiB, registers above, zero where nothing is
listed (00 R10, 22 R627). -/
def State.liveWord (s : State) (off : Nat) : Nat :=
  if off < 0x40000 then leNat (((livePassbook s).drop off).take 4)
  else match regAt s (off / 8 * 8) with
    | none => 0
    | some r => if off % 8 = 0 then r.value % 2 ^ 32 else if r.wide then r.value / 2 ^ 32 else 0

/-! ## Account windows (20 R573, R574) -/

/-- The privileged offset that a BAR0 offset of the host names: an account window shows its own streams, till, queue and watch
slot and nothing else. -/
def windowOffset (s : State) (off : Nat) : Option Nat :=
  let a := (off - 0x3800000) / 0x20000
  let w := (off - 0x3800000) % 0x20000
  if w < 0x10000 then
    let n := w / 0x40
    if s.cfg.streams.any (fun e => e.1 == n && e.2.account == a) then some (0xB0000 + w) else none
  else if w < 0x10028 then some (0x61000 + 0x40 * a + (w - 0x10000))
  else if 0x10100 ≤ w ∧ w < 0x10110 then some (0x83000 + 0x10 * a + (w - 0x10100))
  else if 0x10200 ≤ w ∧ w < 0x10308 then some (0x74000 + 0x200 * a + (w - 0x10200))
  else none

/-- The offset lies in an account window, as the host sees BAR0. -/
def inWindow (src : Src) (off : Nat) : Bool := src == .host && decide (0x3800000 ≤ off) && decide (off < 0x4000000)

/-- The privileged offset of a read. -/
def readOffset (s : State) (src : Src) (off : Nat) : Option Nat := if inWindow src off then windowOffset s off else some off

/-- The privileged offset of a write: of a window only the watch slot takes writes. -/
def writeOffset (s : State) (src : Src) (off : Nat) : Option Nat :=
  if !inWindow src off then some off
  else if 0x10200 ≤ (off - 0x3800000) % 0x20000 then windowOffset s off else none

/-! ## Reads with their latches (03 R93, R126, 04 R166, 06 R223, 07 R255, 11 R366, 12 R389, 14 R444, 15 R475, 16 R500, 18 R550) -/

/-- How many words after the low word of a latching register a read of it latches; 0 for every other word. -/
def latchSpan (off : Nat) : Nat :=
  if off = 0x51000 then 1
  else if 0x61000 ≤ off ∧ off < 0x62000 ∧ off % 0x40 = 0 then 7
  else if 0xB0000 ≤ off ∧ off < 0xC0000 ∧ off % 0x40 = 0x08 then 13
  else if 0x100000 ≤ off ∧ off < 0x148000 ∧ off % 0x1000 = 0x018 then 5
  else if 0x100000 ≤ off ∧ off < 0x148000 ∧ off % 0x1000 = 0x200 then 5
  else if 0xF4000 ≤ off ∧ off < 0xF8000 ∧ off % 0x1000 = 0x010 then 11
  else if 0xC8000 ≤ off ∧ off < 0xCC000 ∧ off % 0x1000 = 0x008 then 7
  else if off = 0x54100 then 9
  else if off = 0x52200 then 7
  else if 0xC4000 ≤ off ∧ off < 0xC6000 ∧ off % 0x1000 = 0x008 then 11
  else if 0xC0000 ≤ off ∧ off < 0xC3000 ∧ off % 0x1000 = 0x010 then 7
  else 0

/-- The words latched by a read of a low word, in rising order. -/
def latchWords (s : State) (off n : Nat) : List (Nat × W32) :=
  (List.range n).map fun i => (off + 4 * (i + 1), BitVec.ofNat 32 (s.liveWord (off + 4 * (i + 1))))

/-- One 4-byte read: of a latching low word it latches the rest of its group; a latched word is returned once. -/
def readWord (s : State) (off : Nat) : State × Nat :=
  let n := latchSpan off
  if n ≠ 0 then
    let others := s.latched.filter fun e => decide (e.1 < off) || decide (off + 4 * n < e.1)
    ({ s with latched := others ++ latchWords s off n }, s.liveWord off)
  else match s.latched.find? (·.1 == off) with
    | some (_, v) => ({ s with latched := s.latched.filter (·.1 != off) }, v.toNat)
    | none => (s, s.liveWord off)

/-- The words from an offset up, read in increasing address; a word that the view does not show reads zero. -/
def readWords (src : Src) : Nat → State → Nat → State × List Byte
  | 0, s, _ => (s, [])
  | k + 1, s, off =>
    let q := match readOffset s src off with
      | some o => readWord s o
      | none => (s, 0)
    let r := readWords src k q.1 (off + 4)
    (r.1, leBytes 4 q.2 ++ r.2)

/-- The bytes of a read and the state after it: each aligned word it touches is read once (17 R505). -/
def readBytes (s : State) (src : Src) (off n : Nat) : State × List Byte :=
  let first := off / 4 * 4
  let q := readWords src ((off + n - first + 3) / 4) s first
  (q.1, (q.2.drop (off - first)).take n)

/-- A read whose bytes are returned. -/
def regRead (s : State) (src : Src) (off n : Nat) : State :=
  if !s.answers then s
  else
    let q := readBytes s src off n
    { q.1 with readback := q.2, poisoned := false }

/-- BAR0_UNALIGNED_READ (17 R505). -/
def execBar0UnalignedRead (off n : Nat) (s : State) : Out := done (if s.pciServes then regRead s .host off n else s)

/-- The latching reads of a low word, with the upper word in the same access when wide. -/
def lowRead (s : State) (off : Nat) (wide : Bool) : State := regRead s .internal off (if wide then 8 else 4)

def execTimNowLowRead (wide : Bool) (s : State) : Out := done (lowRead s 0x51000 wide)
def execTillCyclesRead (a : Nat) (wide : Bool) (s : State) : Out := done (if a < 64 then lowRead s (0x61000 + 0x40 * a) wide else s)
def execIngPacketsRead (n : Nat) (wide : Bool) (s : State) : Out := done (if n < 1024 then lowRead s (0xB0008 + 0x40 * n) wide else s)
def execEngConvSatRead (p : Nat) (wide : Bool) (s : State) : Out := done (if p < 72 then lowRead s (0x100200 + 0x1000 * p) wide else s)
def execEngTilesRead (p : Nat) (wide : Bool) (s : State) : Out := done (if p < 72 then lowRead s (0x100018 + 0x1000 * p) wide else s)
def execClrCommandsRead (r : Nat) (wide : Bool) (s : State) : Out := done (if r < 4 then lowRead s (0xF4010 + 0x1000 * r) wide else s)
def execEncPicturesRead (n : Nat) (wide : Bool) (s : State) : Out := done (if n < 4 then lowRead s (0xC8008 + 0x1000 * n) wide else s)
def execFltCorrectedRead (wide : Bool) (s : State) : Out := done (lowRead s 0x54100 wide)
def execSafEvalsRead (wide : Bool) (s : State) : Out := done (lowRead s 0x52200 wide)
def execMemCeRead (n : Nat) (wide : Bool) (s : State) : Out := done (if n < 2 then lowRead s (0xC4008 + 0x1000 * n) wide else s)

/-- The first counter of a network block (18 R550). -/
def netCounterAt : NetBlk → Nat
  | .net0 => 0xC0010
  | .net1 => 0xC1010
  | .lnk => 0xC2010
def execNetLnkCounterRead (b : NetBlk) (wide : Bool) (s : State) : Out := done (lowRead s (netCounterAt b) wide)

end Sys2Proof.Machine
end

