-- ==== Sys2Proof/Machine/Registers.lean ====
section
/-! DEFINITION. Register writes (00 R8 to R10, 02 R82, 17 R505) and the SMBus port (21 R611, R612). -/

namespace Sys2Proof.Machine

/-- The state after a meaning that is used within another; none of them stops. -/
def after (s : State) (o : Out) : State :=
  match o with
  | .next t => t
  | _ => s

/-! ## Command registers (access WO) -/

/-- A write of STL_CMD on a page (02 R81, R83): an opcode not listed is rejected with RANGE. -/
def writeStlCmd (s : State) (page via : Src) (v : Nat) : State :=
  let op := bitsOf v 0 8
  let n := bitsOf v 8 16
  after s (
    if op = 0x01 then execStlOpen page via s
    else if op = 0x02 then execStlStage page via n s
    else if op = 0x03 then execStlCheck page via s
    else if op = 0x04 then execCommitAtTime page via s
    else if op = 0x05 then execCommitAtEvent page via s
    else if op = 0x06 then execStlAbort page via s
    else if op = 0x07 then execStlDiscard page via s
    else if op = 0x10 then execFlashProgram page via n s
    else if op = 0x11 then execVerifySlot page via n s
    else if op = 0x12 then execCharterUpdate page via s
    else if op = 0x13 then execReboot page via n s
    else done (stlCommand s page via op fun t => t.pageDone page stRANGE))

/-- A write of SEC_CMD (19 R571). What chance a challenge takes and whether a fuse burns, the write does not say: free values. -/
def writeSecCmd (s : State) (v : Nat) : State :=
  let op := bitsOf v 0 8
  after s (
    if op = 0x01 then execChallenge (Config.freeNat s.free) s.nextFree
    else if op = 0x02 then execUnlock s
    else if op = 0x03 then execLock s
    else if op = 0x04 then execAttest s
    else if op = 0x05 then execProgramKey (Config.freeBit s.free) s.nextFree
    else if op = 0x06 then execDeploy s
    else if op = 0x07 then execReturnDevice s
    else done (s.secStatus stRANGE))

/-- A write of DBG_CMD (20 R591). -/
def writeDbgCmd (s : State) (v : Nat) : State :=
  let op := bitsOf v 0 8
  after s (
    if op = 0x01 then execHalt s
    else if op = 0x02 then execHaltImmediate s
    else if op = 0x03 then execReleaseHalt s
    else done (s.dbgStatus stRANGE))

/-- A write of DBG_WATCHw_CTRL (20 R590). -/
def writeWatchCtrl (s : State) (w v : Nat) : State :=
  let op := bitsOf v 0 8
  if op = 0x01 then arm s w
  else if op = 0x02 then disarm s w
  else s.setWatch w { s.watch w with status := stRANGE }

/-! ## Fields set or cleared (access RW and RW1C) -/

/-- A buffer of bytes with some written. -/
def writeBuffer (t : Table Byte) (at_ : Nat) : List Byte → Table Byte
  | [] => t
  | b :: bs => writeBuffer (Table.set 0 at_ b t) (at_ + 1) bs

/-- A host address register: 4 KiB aligned (16 bytes for the state block), below 2^47, unchanged while its ring runs (17 R519). -/
def addressField (v low : Nat) : W64 := BitVec.ofNat 64 (v % 2 ^ 47 / 2 ^ low * 2 ^ low)

/-- A write of a PCI register (17 R517 to R521). -/
def writePci (s : State) (o v : Nat) : State :=
  let p := s.pci
  if o = 0x0008 then (if p.cmdEnable then s.countIgnored else { s with pci := { p with cmdBase := addressField v 12 } })
  else if o = 0x0010 then writeCmdCtrl s (BitVec.ofNat 32 v)
  else if o = 0x0020 then (if p.jrnEnable then s.countIgnored else { s with pci := { p with jrnBase := addressField v 12 } })
  else if o = 0x0028 then writeJrnCtrl s (BitVec.ofNat 32 v)
  else if o = 0x0030 then (if p.jrnEnable then s.countIgnored else { s with pci := { p with jrnState := addressField v 4 } })
  else if o = 0x0038 then { s with pci := { p with jrnFrom := BitVec.ofNat 64 v } }
  else if o = 0x0040 then ({ s with pci := { p with intCause := p.intCause &&& ~~~ BitVec.ofNat 32 v } }).updateInta
  else if o = 0x0048 then ({ s with pci := { p with intEnable := BitVec.ofNat 32 (v % 512) } }).updateInta
  else if o = 0x0050 then
    (if within (bitsOf v 16 16) 1 65535 && within (bitsOf v 0 16) 10 65535 then
      { s with pci := { p with intCount := bitsOf v 16 16, intTimer := bitsOf v 0 16 } }
    else s.countIgnored)
  else s

/-- A write of a page's register: the command, or the instant and the flash addresses (02 R85, R86). -/
def writeStl (s : State) (via : Src) (o v : Nat) : State :=
  match pageOf o with
  | none => s
  | some src =>
    let p := s.page src
    let r := o % 0x100
    if r = 0x00 then writeStlCmd s src via v
    else if r = 0x10 then s.setPage src { p with instant := BitVec.ofNat 128 (bitsOf p.instant.toNat 64 64 * 2 ^ 64 + v % 2 ^ 64) }
    else if r = 0x18 then s.setPage src { p with instant := BitVec.ofNat 128 (v % 2 ^ 64 * 2 ^ 64 + bitsOf p.instant.toNat 0 64) }
    else if r = 0x30 then s.setPage src { p with flashSrc := BitVec.ofNat 64 v }
    else if r = 0x38 then s.setPage src { p with flashDst := BitVec.ofNat 64 v }
    else s

/-- A write of the time block: the sticky bits, and TIM_TOD_NEXT (03 R99, R105). -/
def writeTim (s : State) (o v : Nat) : State :=
  let t := s.time
  if o = 0x10 then { s with time := { t with stepped := t.stepped && !v.testBit 25, reject := t.reject && !v.testBit 24 } }
  else if o = 0x20 then { s with time := { t with timein := { t.timein with todNext := BitVec.ofNat 64 v, todWritten := true } } }
  else s

/-- A write of the security block: the command, the nonce and the token buffer (19 R569). -/
def writeSec (s : State) (o v : Nat) : State :=
  if o = 0x0008 then writeSecCmd s v
  else if 0x0060 ≤ o ∧ o < 0x0080 then { s with sec := { s.sec with nonce := setField s.sec.nonce (8 * (o - 0x0060)) 64 v } }
  else if 0x1000 ≤ o ∧ o < 0x2000 then { s with sec := { s.sec with token := writeBuffer s.sec.token (o - 0x1000) (leBytes 8 v) } }
  else s

/-- A write of the debug block: command, trace, and the request and command of a watch slot (20 R580 to R582, R590). -/
def writeDbg (s : State) (o v : Nat) : State :=
  if o = 0x0000 then writeDbgCmd s v
  else if o = 0x0010 then writeTraceCtrl s v
  else if o = 0x0018 then { s with dbg := { s.dbg with wrapped := s.dbg.wrapped && !v.testBit 29 } }
  else match watchAt o with
    | none => s
    | some (w, r) =>
      let x := s.watch w
      if r < 0x40 then s.setWatch w { x with request := writeBuffer x.request r (leBytes 8 v) }
      else if r = 0x100 then writeWatchCtrl s w v
      else s

/-- A write of an engine block: the sticky bits of ENGp_NUM_STATUS (06 R224). -/
def writeEng (s : State) (p o v : Nat) : State :=
  if o = 0x0218 then s.modEngine p fun e => { e with
    nanSeen := e.nanSeen && !v.testBit 2, accSatSeen := e.accSatSeen && !v.testBit 1, convSatSeen := e.convSatSeen && !v.testBit 0 }
  else s

/-- A write of the chip block: the sticky bit of CHP_POWER_STATUS (21 R622). -/
def writeChp (s : State) (o v : Nat) : State :=
  if o = 0x0428 then { s with power := { s.power with droopSeen := s.power.droopSeen && !v.testBit 6 } } else s

/-! ## A write of BAR0 or SMBus -/

/-- What a register holds for a write that does not cover all of it: its RW bits as they read, its RW1C and WO bits 0. Only
64-bit registers and byte buffers are written in part, and they are RW throughout (00 R8). -/
def heldValue (s : State) (off : Nat) : Nat := match regAt s off with
  | some r => if r.wide then r.value else 0
  | none => 0

/-- A write of the register at a privileged offset; its read-only fields and its reserved bits ignore it. -/
def writeReg (s : State) (via : Src) (off v : Nat) : State :=
  match blockOf off with
  | none => s
  | some (code, inst, base, _) =>
    let o := off - base
    if code = 0x01 then writeChp s o v
    else if code = 0x03 then writeEng s inst o v
    else if code = 0x0A then writePci s o v
    else if code = 0x0D then writeTim s o v
    else if code = 0x0E then writeStl s via o v
    else if code = 0x11 then writeSec s o v
    else if code = 0x12 then writeDbg s o v
    else if code = 0x14 then (if o = 0x0000 then writeObsSel s v else s)
    else s

/-- The words of a write: their privileged offsets with their values; none for an offset that its view does not show. -/
def writeWords (s : State) (src : Src) (off width v : Nat) : List (Option Nat × Nat) :=
  (List.range (width / 4)).map fun i => (writeOffset s src (off + 4 * i), bitsOf v (32 * i) 32)

/-- One register written with the words that a write covers: both together when it covers both (17 R505). -/
def writeWordsOf (via : Src) (s : State) (ws : List (Nat × Nat)) : State :=
  match ws with
  | [(a, v)] =>
    let r := a / 8 * 8
    if a % 8 = 0 then writeReg s via r (setField (heldValue s r) 0 32 v) else writeReg s via r (setField (heldValue s r) 32 32 v)
  | [(a, v), (b, w)] =>
    if a / 8 = b / 8 then writeReg s via a (v + w * 2 ^ 32) else s
  | _ => s

/-- The write of R8 to R10, R82 and R505: misaligned or of another size, it is ignored and counted; covering a word with a
settled field, it is rejected whole; else every listed word takes it, and a word not listed is counted once. -/
def regWrite (s : State) (src : Src) (off width v : Nat) : State :=
  if !(width == 4 || width == 8) || off % width != 0 then s.countIgnored
  else
    let ws := writeWords s src off width v
    if ws.any fun w => (w.1.bind settledMask).isSome then s.countReject (srcCode src) 0xFF
    else
      let shown := ws.filterMap fun w => match w.1 with
        | some o => if 0x40000 ≤ o && s.listed o then some (o, w.2) else none
        | none => none
      let s1 := if shown.length = ws.length then s else s.countIgnored
      writeWordsOf src s1 shown

/-- REGISTER_WRITE (00 R8): by the host through BAR0, by SMBus, or by internal firmware. -/
def execRegisterWrite (src : Src) (off width : Nat) (value : W64) (s : State) : Out :=
  done (if !s.answers || (src == .host && !s.pciServes) then s else regWrite s src off width value.toNat)

/-! ## SMBus (21 R611, R612) -/

/-- A transfer acknowledged or not. -/
def State.ack (s : State) (ok : Bool) : State := { s with nak := !ok }

/-- SMBUS_SET_OFFSET: command 0x01, a block write of 4 bytes. -/
def execSmbusSetOffset (bytes : List Byte) (pecOk : Bool) (s : State) : Out :=
  done (if !s.answers then s
    else if bytes.length = 4 ∧ pecOk then ({ s with smbOffset := leNat bytes }).ack true
    else s.ack false)

/-- SMBUS_WRITE: command 0x02, a block write of 4 or 8 bytes at the offset, which then advances. -/
def execSmbusWrite (bytes : List Byte) (pecOk : Bool) (s : State) : Out :=
  done (if !s.answers then s
    else if (bytes.length = 4 ∨ bytes.length = 8) ∧ pecOk then
      let s1 := regWrite s .smbus s.smbOffset bytes.length (leNat bytes)
      ({ s1 with smbOffset := (s.smbOffset + bytes.length) % 2 ^ 32 }).ack true
    else s.ack false)

/-- SMBUS_READ: command 0x03, a block read of 4 bytes at the offset, which then advances. -/
def execSmbusRead (count : Nat) (s : State) : Out :=
  done (if !s.answers then s
    else if count = 4 then
      let s1 := regRead s .smbus s.smbOffset 4
      ({ s1 with smbOffset := (s.smbOffset + 4) % 2 ^ 32 }).ack true
    else s.ack false)

/-- SMBUS_TIMEOUT: the transfer is abandoned and the bus released. -/
def execSmbusTimeout (s : State) : Out := done (if s.answers then { s with readback := [], nak := false } else s)

/-- SMBUS_ALERT_RESPONSE: while SMB_ALERT_N is asserted the device answers with its address. -/
def execSmbusAlertResponse (s : State) : Out :=
  done (if !s.answers then s
    else if s.pins.smbAlert then ({ s with readback := [BitVec.ofNat 8 (2 * (0x58 + s.pins.smbAddr))] }).ack true
    else ({ s with readback := [] }).ack false)

end Sys2Proof.Machine
end

