-- ==== Sys2Proof/Machine/Dma.lean ====
section
/-! DEFINITION. DMA commands of an engine (08 R265, R283, 07 R244, R248, 16 R477 to R479): validity, rows copied with their void
marks, halo groups forwarded, and reads of host memory that fail (17 R513). -/

namespace Sys2Proof.Machine

/-! ## The command (08 R265) -/

/-- The fields of a DMA command. -/
structure DmaCmd where
  wait : Bool
  rows : Nat
  len : Nat
  src : Nat
  dst : Nat
  srcStride : Nat
  dstStride : Nat
  mask : Nat
  f : Nat
  rings : Nat
  deriving DecidableEq, Repr

def parseDma (b : List Byte) : DmaCmd :=
  { wait := (field b 1 1).testBit 0, rows := field b 2 2, len := field b 4 4, src := field b 8 8, dst := field b 16 8
    srcStride := field b 24 4, dstStride := field b 28 4, mask := bitsOf (field b 32 1) 0 4, f := field b 33 1, rings := field b 36 4 }

/-- The command keeps the table of R265. -/
def dmaOk (b : List Byte) : Bool :=
  within (field b 2 2) 1 65535 && within (field b 4 4) 1 65536 && bitsOf (field b 1 1) 1 7 == 0 && bitsOf (field b 32 1) 4 4 == 0
    && zeros b 34 2 && zeros b 40 88

/-- Start addresses of row i. -/
def DmaCmd.srcRow (c : DmaCmd) (i : Nat) : Nat := c.src + i * c.srcStride
def DmaCmd.dstRow (c : DmaCmd) (i : Nat) : Nat := c.dst + i * c.dstStride

/-! ## Addresses (16 R476 to R479) -/

/-- Every byte of a range is mapped. -/
def mapped (a n : Nat) : Bool :=
  inDeviceMemory a n || (decide (0x020000000000 ≤ a) && decide (a + n ≤ 0x020004000000))
    || (decide (hostBase ≤ a) && decide (a + n ≤ 0x1000000000000))

/-- The host window can be reached: a host is present, and the function is in D0 (16 R479, 05 R182). -/
def State.hostWindow (s : State) : Bool := s.hostPresent && s.pciServes

/-- The physical window of a fenced or retired engine (16 R478). -/
def engineGone (s : State) (p : Nat) : Bool := decide (2 ≤ (s.engine p).state)

/-- How a read of host memory answers (17 R513). -/
inductive HostData where
  | good | poisoned | failed
  deriving DecidableEq, Repr

/-- One byte read by a transfer, with its void mark; what cannot be read is zero, and poisoned host data is void. -/
def dmaByte (s : State) (host : HostData) (a : Nat) : Byte × Bool :=
  match placeOf a with
  | .dram | .region _ => (s.byte a, s.voids.contains (granule a))
  | .engine p => if engineGone s p then (0, false) else (s.byte a, s.voids.contains (granule a))
  | .logical l => match s.physOf l with
    | some p => let x := engineBase p + (a - logicalBase l); (s.byte x, s.voids.contains (granule x))
    | none => (0, false)
  | .register =>
    let o := a - 0x020000000000
    ((leBytes 4 (s.liveWord (o / 4 * 4))).getD (o % 4) 0, false)
  | .host => if s.hostWindow && decide (host ≠ .failed) then (s.byte a, host == .poisoned) else (0, false)
  | .unmapped => (0, false)

/-- A write to the register space: aligned words, as internal firmware writes them; what covers no whole word is ignored and
counted (00 R10). -/
def dmaRegisters (s : State) (o : Nat) (bs : List Byte) : State :=
  if o % 4 = 0 ∧ bs.length % 4 = 0 then
    (List.range (bs.length / 4)).foldl (fun a i => regWrite a .internal (o + 4 * i) 4 (field bs (4 * i) 4)) s
  else s.countIgnored

/-- A write to host memory: dropped and counted when no host is present; void data never leaves (14 R414). -/
def dmaHost (s : State) (h : Nat) (bs : List Byte) (mark : Bool) : State :=
  if s.hostWindow && !mark then s.hostStore h bs
  else { s with pci := { s.pci with hostDropped := s.pci.hostDropped + 1 } }

/-- One piece written where its address leads, with its mark; a fenced engine's window drops it. -/
def dmaPiece (s : State) (a : Nat) (bs : List Byte) (mark : Bool) : State :=
  match placeOf a with
  | .dram | .region _ => s.store a bs mark
  | .engine p => if engineGone s p then s else s.store a bs mark
  | .logical l => match s.physOf l with
    | some p => s.store (engineBase p + (a - logicalBase l)) bs mark
    | none => s
  | .register => dmaRegisters s (a - 0x020000000000) bs
  | .host => dmaHost s (a - hostBase) bs mark
  | .unmapped => s

/-- One row: its bytes read with their marks, then written granule by granule (07 R244). -/
def dmaRow (s : State) (host : HostData) (src dst n : Nat) : State :=
  let data := (List.range n).map fun i => dmaByte s host (src + i)
  (piecesOf dst n).foldl (fun a pc =>
    let part := (data.drop pc.1).take pc.2
    dmaPiece a (dst + pc.1) (part.map (·.1)) (part.any (·.2))) s

/-! ## Charges (03 R125, R127) -/

/-- Granules of a range that lie in DRAM. -/
def dramUnits (a n : Nat) : Nat := if inDram a n then (granulesOf a n).length else 0

/-- The die of an address: 0 CD0, 1 CD1, 2 MD. -/
def dieOf (s : State) (a : Nat) : Nat :=
  match placeOf a with
  | .region r => r / 2
  | .engine p => p / 36
  | .logical l => (s.physOf l).getD 0 / 36
  | .dram | .register | .host | .unmapped => 2

/-- Bridges a transfer between two dies crosses: between the compute dies two, through MD, when their own is lost (01 R18). -/
def crossings (s : State) (d0 d1 : Nat) : Nat :=
  if d0 = d1 then 0 else if d0 < 2 ∧ d1 < 2 ∧ (List.range 3).any fun b => (s.bridge b).rerouted then 2 else 1

/-- Units of one row: DRAM and bridges. -/
def rowUnits (s : State) (src dst n : Nat) : Nat × Nat :=
  (dramUnits src n + dramUnits dst n, crossings s (dieOf s src) (dieOf s dst) * (granulesOf dst n).length)

/-! ## Issue (08 R265, 14 R422) -/

/-- The ranges a transfer writes. -/
def dmaWrites (s : State) (c : DmaCmd) : List (Nat × Nat) :=
  (List.range c.rows).map fun i => (s.resolve (c.dstRow i), c.len)

/-- The transfer would write a granule that a tile under audit of the region read or wrote. -/
def dmaHeld (s : State) (p : Nat) (c : DmaCmd) : Bool :=
  let held := auditedRanges s (regionOf p)
  !held.isEmpty && ((dmaWrites s c).any fun w => held.any fun q => meets w.1 w.2 q.1 q.2)

/-- The DMA unit has room for one more transfer: sixteen outstanding (07 R227). -/
def dmaRoom (e : Engine) : Bool := decide ((e.dmas.filter fun d => d.waits.isNone).length < 16)

/-- A command may be issued on the engine now. -/
def mayTransfer (s : State) (p : Nat) (cmd : List Byte) : Bool :=
  let e := s.engine p
  s.mayBegin && decide (p < 72) && decide (e.state = 0) && e.handoverFrom.isNone && s.regionIssues (regionOf p)
    && field cmd 0 1 == 0x10 && decide (cmd.length = 128) && ((parseDma cmd).wait || dmaRoom e) && !(dmaOk cmd && dmaHeld s p (parseDma cmd))

/-- A command that breaks the table moves nothing; the job of the next tile fails at its start. -/
def rejectDma (s : State) (p nextJob : Nat) : State :=
  let s1 := complete s p { tile := 0xFFFFFFFFFFFFFFFF, job := nextJob, status := stRANGE, check := 1 }
  if nextJob = 0 then s1 else s1.modEngine p fun e => { e with failedJobs := e.failedJobs ++ [nextJob] }

/-- The tile before a command that waits for its commit (07 R248). -/
def previousTile (e : Engine) : Option (Nat × Nat) :=
  match e.running, e.again.getLast? with
  | some r, _ => let c := parseTile r.issue.cmd; some (c.job, c.tile)
  | none, some r => let c := parseTile r.issue.cmd; some (c.job, c.tile)
  | none, none => none

/-- DMA_COMMAND (08 R265); its traffic is charged as the tile it is issued with (03 R124). -/
def issueDma (s : State) (p : Nat) (cmd : List Byte) (nextJob : Nat) : State :=
  if dmaOk cmd then
    s.modEngine p fun e => { e with
      dmas := e.dmas ++ [{ cmd := cmd, waits := if (parseDma cmd).wait then previousTile e else none, till := e.till }] }
  else rejectDma s p nextJob

def execDmaCommand (p : Nat) (cmd : List Byte) (nextJob : Nat) (s : State) : Out :=
  done (if mayTransfer s p cmd then issueDma s p cmd nextJob else s)

/-! ## Halo groups forwarded (08 R283) -/

/-- The rows that go to a port: the first f to N and W, the last f to S and E. -/
def portRows (c : DmaCmd) (port : Nat) : List Nat :=
  let n := min c.f c.rows
  if port = 0 ∨ port = 2 then List.range n else (List.range n).map fun i => c.rows - n + i

/-- One group set off to the neighbour of a port. -/
def forwardGroup (s0 : State) (host : HostData) (p : Nat) (c : DmaCmd) (s : State) (port : Nat) : State :=
  let e := s.engine p
  match c.mask.testBit port, neighbour e.logical port with
  | true, some d =>
    let rows := (portRows c port).map fun i => (List.range c.len).map fun k => dmaByte s0 host (c.srcRow i + k)
    let h : HaloMsg := { dest := d, port := opposite port, ring := bitsOf c.rings (8 * port) 8, seq := e.haloSent.getD port 0
                         rows := rows.map fun r => r.map (·.1), void := rows.map fun r => r.map (·.2), sender := e.logical }
    ({ s with halo := s.halo ++ [h] }).modEngine p fun x => { x with haloSent := x.haloSent.set port ((h.seq + 1) % 256) }
  | _, _ => s

/-! ## The transfer (16 R477) -/

/-- The rows from i on, to the first that touches an unmapped address: that address when there is one. -/
def dmaRows (host : HostData) (till : Nat) (c : DmaCmd) : Nat → Nat → State → State × Option Nat
  | 0, _, s => (s, none)
  | k + 1, i, s =>
    let a := c.srcRow i
    let b := c.dstRow i
    if !mapped a c.len then (s, some a)
    else if !mapped b c.len then (s, some b)
    else
      let u := rowUnits s a b c.len
      dmaRows host till c k (i + 1) (chargeTo (dmaRow s host a b c.len) till (addUnits u.1 u.2))

/-- A row names a logical engine whose handover copy has not ended: the transfer waits (16 R478). -/
def waitsHandover (s : State) (c : DmaCmd) : Bool :=
  (List.range c.rows).any fun i => [c.srcRow i, c.dstRow i].any fun a =>
    match placeOf a with
    | .logical l => ((s.physOf l).map fun p => (s.engine p).handoverFrom.isSome).getD false
    | _ => false

/-- A transfer runs to its end: rows, groups forwarded when every row was moved, and an unmapped row counted as a class 2 error. -/
def runDma (s : State) (host : HostData) (p till : Nat) (c : DmaCmd) : State :=
  let r := dmaRows host till c c.rows 0 s
  match r.2 with
  | none => (List.range 4).foldl (forwardGroup s host p c) r.1
  | some a => r.1.contained { source := srcDescriptor, unit := p, address := a } stBOUND

/-- The oldest transfer of a list that may run, taken out. -/
def takeDma : List Dma → Option (Dma × List Dma)
  | [] => none
  | d :: r => if d.waits.isNone then some (d, r) else (takeDma r).map fun x => (x.1, d :: x.2)

/-- The next transfer of an engine runs; none does after the cut of a stop (07 R253, 14 R436). -/
def nextDma (s : State) (host : HostData) (p : Nat) : State :=
  match takeDma (s.engine p).dmas with
  | none => s
  | some (d, rest) =>
    let c := parseDma d.cmd
    if waitsHandover s c ∨ s.flt.stopPhase = 2 then s
    else settleHalt (runDma (s.modEngine p fun e => { e with dmas := rest }) host p d.till c) p

/-- DMA_COMPLETE (08 R265). -/
def execDmaComplete (p : Nat) (s : State) : Out :=
  done (if s.running && (s.engine p).handoverFrom.isNone then nextDma s .good p else s)

/-! ## Reads of host memory that fail (17 R513) -/

/-- A host read fails: counted in PCI_CPL_TIMEOUTS. -/
def readFails (s : State) : State := { s with pci := { s.pci with timeouts := s.pci.timeouts + 1 } }

/-- The outcomes of the table of R513. -/
def hostReadFailure (s : State) : HostAccess → State
  | .ringFetch =>
    if s.pci.cmdEnable then
      let s1 := fetchTime s
      readFails { s1 with pci := { s1.pci with lastFetch := s1.time.elapsed, fetchAgain := false } }
    else s
  | .pushPayload n poisoned => match takeFetching n s.pci.fetching with
    | some ((i, irq), rest) => endPush (if poisoned then s else readFails s) n i irq rest (if poisoned then stVOID else stBOUND)
    | none => s
  | .journalState => if s.pci.jrnEnable then readFails s else s
  | .journalWrite =>
    if s.pci.jrnEnable then ({ s with pci := { s.pci with jrnEnable := false, jrnStatus := stBOUND } }).raise 6 else s
  | .dmaRead p poisoned =>
    if (takeDma (s.engine p).dmas).isNone || (s.engine p).handoverFrom.isSome then s
    else if poisoned then nextDma s .poisoned p else nextDma (readFails s) .failed p

/-- HOST_READ_FAILURE (17 R513). -/
def execHostReadFailure (a : HostAccess) (s : State) : Out := done (if s.running then hostReadFailure s a else s)

end Sys2Proof.Machine
end

