-- ==== Sys2Proof/Machine/Dram.lean ====
section
/-! DEFINITION. The die-to-die bridges (01 R14 to R18), the arbiters (01 R19 to R23), and the DRAM controllers with their
ECC, row repair, refresh, retraining and panic (16 R480 to R495); scrubs of region memory and ledger caches (14 R413). -/

namespace Sys2Proof.Machine

/-! ## Bridges: 0 CD0–MD, 1 CD1–MD, 2 CD0–CD1 (01 R14 to R18, 22 R633) -/

/-- FLIT_CRC_REPLAY (01 R15): replayed, counted by bridge and lane; lanes 0 to 383 carry one direction, 384 to 767 the other. -/
def execFlitCrcReplay (b lane : Nat) (s : State) : Out :=
  done (if s.answers && decide (b < 3) && decide (lane < 768) && !(s.bridge b).lost then
    (s.modBridge b fun x => { x with replays := x.replays + 1, laneReplays := Table.upd 0 lane (· + 1) x.laneReplays }).corrected srcBridgeCrc b
  else s)

/-- The bridge is lost: CD0–CD1 traffic goes through MD; a CD–MD bridge is chip-fatal (01 R18). -/
def loseBridge (s : State) (b : Nat) : State :=
  let s1 := s.modBridge b fun x => { x with lost := true, rerouted := decide (b = 2) }
  if b = 2 then s1.fenceEvent { source := srcLane, unit := b } stOK else chipFatal s1 srcBridgeLost b

/-- BRIDGE_LOST (01 R18). -/
def execBridgeLost (b : Nat) (s : State) : Out :=
  done (if s.answers && decide (b < 3) && !(s.bridge b).lost then loseBridge s b else s)

/-- The spare lanes left in the direction of a lane. -/
def Bridge.sparesOf (x : Bridge) (lane : Nat) : Nat := if lane < 384 then x.spares else x.sparesBack

/-- A spare lane of its direction stands in for a lane, whose count starts anew. -/
def Bridge.replaceLane (x : Bridge) (lane : Nat) : Bridge :=
  let y := { x with laneReplays := Table.set 0 lane 0 x.laneReplays }
  if lane < 384 then { y with spares := x.spares - 1 } else { y with sparesBack := x.sparesBack - 1 }

/-- LANE_SPARE (01 R16): a lane over the threshold is replaced by a spare, with record 0x060D. -/
def execLaneSpare (b lane : Nat) (s : State) : Out :=
  let x := s.bridge b
  done (if s.answers && decide (b < 3) && decide (lane < 768) && !x.lost && decide (0 < x.sparesOf lane)
      && decide (Config.laneThreshold < Table.get 0 lane x.laneReplays) then
    (s.modBridge b fun y => y.replaceLane lane).fenceEvent { source := srcLane, unit := b, second := lane % 256 } stOK (type := 0x060D)
  else s)

/-- BRIDGE_HALF_WIDTH (01 R17): one more lane fails with no spare of its direction left; at half width the bridge is lost. -/
def execBridgeHalfWidth (l : BridgeLane) (s : State) : Out :=
  let x := s.bridge l.bridge
  done (if s.answers && decide (l.bridge < 3) && decide (l.lane < 768) && !x.lost && decide (x.sparesOf l.lane = 0) then
    if x.half then loseBridge s l.bridge
    else (s.modBridge l.bridge fun y => { y with half := true }).fenceEvent { source := srcLane, unit := l.bridge } stOK
  else s)

/-! ## DRAM reads and rows (16 R481, R489 to R493) -/

/-- The stack of a DRAM address: bit 4 of the channel index (16 R481). -/
def channelIndex (a : Nat) : Nat := (bitsOf a 6 5 ^^^ bitsOf a 11 5) ^^^ bitsOf a 16 5
def stackOf (a : Nat) : Nat := channelIndex a / 16

/-- A row is marked for repair: a remap entry is allocated, and from then on the shadow row serves it (16 R493 step 1); with
no entry free the stack cannot be repaired (R495). -/
def markRow (s : State) (n row : Nat) : State :=
  let d := s.dram n
  if d.remapped.contains row then s
  else if d.remapFree = 0 then chipFatal s srcStack n
  else
    let again := d.repaired.contains row
    s.modDram n fun x => { x with
      remapFree := x.remapFree - 1, remapped := x.remapped ++ [row], rowErrors := Table.set [] row [] x.rowErrors
      marked := if again then x.marked else x.marked ++ [row], kept := if again then x.kept + 1 else x.kept }

/-- One counted correctable error of a row: the fourth within 86,400 s marks it (16 R492). -/
def countRow (s : State) (n row : Nat) : State :=
  let ts := recent s.time.elapsed day (Table.get [] row (s.dram n).rowErrors) ++ [s.time.elapsed]
  let s1 := s.modDram n fun x => { x with rowErrors := Table.set [] row ts x.rowErrors }
  if 4 ≤ ts.length then markRow s1 n row else s1

/-- A read of a DRAM granule, classed by what the stack and the controller report (16 R490). -/
def dramRead (s : State) (a : Nat) (onDie : Bool) (ecc : Secded) : State :=
  let n := stackOf a
  let row := Config.dramRow a
  if s.voids.contains (granule a) then s
  else
    let s1 := if onDie then s.modDram n fun x => { x with odecc := x.odecc + 1 } else s
    match ecc with
    | .clean => if onDie then countRow (s1.corrected srcDramSingle n) n row else s1
    | .single => countRow ((s1.modDram n fun x => { x with ce := x.ce + 1 }).corrected srcDramSingle n) n row
    | .uncorrectable =>
      let s2 := (s1.voidRange a 1).modDram n fun x => { x with ue := x.ue + 1 }
      markRow (s2.contained { source := srcDramDouble, unit := n, address := 64 * granule a } stVOID) n row

/-- DRAM_SCRUB (16 R491). -/
def execDramScrub (addr : Nat) (onDie : Bool) (ecc : Secded) (s : State) : Out :=
  done (if s.answers && decide (addr < dramEnd) then dramRead s addr onDie ecc else s)

/-- A word of on-die memory read: corrected, or its granule marked void (07 R243). -/
def dieRead (s : State) (a unit_ : Nat) (ecc : Secded) : State :=
  match ecc with
  | .clean => s
  | .single => s.corrected srcMemSingle unit_
  | .uncorrectable =>
    if s.voids.contains (granule a) then s
    else (s.voidRange a 1).contained { source := srcMemDouble, unit := unit_, address := 64 * granule a } stVOID

/-- REGION_SCRUB (14 R413): a word of region memory, or of a ledger cache by its offset in the ledger. -/
def execRegionScrub (area : ScrubArea) (addr : Nat) (ecc : Secded) (s : State) : Out :=
  done (if !s.answers then s
    else match area with
      | .region g => if g < 4 ∧ addr < 0x2000000 then dieRead s (regionBase g + addr) g ecc else s
      | .ledgerCache r =>
        if r < 4 ∧ addr < 0x10000000 then
          let s1 := if ecc = .single then s.modClr r fun e => { e with cacheCe := e.cacheCe + 1 } else s
          dieRead s1 (s.layout.ledger + addr) r ecc
        else s)

/-! ## Arbiters (01 R19 to R23, 16 R484) -/

/-- The stack that an access goes to, by its address; none where it is not to DRAM. -/
def opStack : MemOp → Option Nat
  | .idle => none
  | .read a _ _ _ _ => if a < dramEnd then some (stackOf a) else none
  | .write a _ _ => if a < dramEnd then some (stackOf a) else none

/-- The first requester after `last` in turn, of a list. -/
def nextTurn (last : Nat) (rs : List ArbReq) : Option ArbReq :=
  let least (xs : List ArbReq) : Option ArbReq := xs.foldl (fun b r => match b with
    | none => some r
    | some q => if r.who < q.who then some r else some q) none
  match least (rs.filter fun r => decide (last < r.who)) with
  | some r => some r
  | none => least rs

/-- The request that has waited longest, ties to the lower requester. -/
def oldest (rs : List ArbReq) : Option ArbReq :=
  rs.foldl (fun b r => match b with
    | none => some r
    | some q => if q.waited < r.waited then some r else some q) none

/-- The bulk weight of a chip requester: regions 0 to 3, media, host (01 R20, R21). -/
def bulkWeight (s : State) (who : Nat) : Nat := bitsOf s.cfg.regs.arbWeight.toNat (4 * who) 4

/-- The bulk requester served next: the one being served while it has credit, then the next in turn (01 R19). -/
def bulkTurn (a : Arbiter) (rs : List ArbReq) : Option ArbReq :=
  match rs.find? fun r => r.who == a.lastBulk && decide (0 < a.credit) with
  | some r => some r
  | none => nextTurn a.lastBulk rs

/-- The class of a DRAM port (16 R484). -/
def portCls : DramPort → Cls
  | .ingestWrites | .decodeFetch | .decodeWrites | .zonePath | .ledger | .guardUnits => .realTime
  | .engines | .gallery | .transfers => .bulk
  | .background | .upkeep => .background

/-- The service class of a request: its port's where it goes to DRAM. -/
def serviceOf (r : ArbReq) : Cls := if (opStack r.op).isSome then portCls r.port else r.cls

/-- The grant within the classes, by service class. -/
def classTurn (a : Arbiter) (weighted : Bool) (rs : List ArbReq) : Option ArbReq :=
  let of (c : Cls) : List ArbReq := rs.filter fun r => serviceOf r == c
  if !(of .realTime).isEmpty then nextTurn a.lastRt (of .realTime)
  else if !(of .bulk).isEmpty then (if weighted then bulkTurn a (of .bulk) else nextTurn a.lastBulk (of .bulk))
  else nextTurn a.lastBg (of .background)

/-- The arbiter after a grant: the turn of its class has passed to the requester, a bulk one with its credit. -/
def arbAfter (s : State) (a : Arbiter) (r : ArbReq) : Arbiter :=
  match serviceOf r with
  | .realTime => { a with lastRt := r.who, granted := some r.who }
  | .bulk =>
    let credit := if r.who = a.lastBulk ∧ 0 < a.credit then a.credit - 1 else bulkWeight s r.who - 1
    { a with lastBulk := r.who, credit := credit, granted := some r.who }
  | .background => { a with lastBg := r.who, granted := some r.who }

/-- Where an access at a device address arrives (16 R478): a logical window at the engine that holds the index; the window of a fenced or
retired engine, and a logical index that no engine holds, nowhere: the access reads zeros and is dropped as a write. -/
def State.reaches (s : State) (a : Nat) : Option Nat :=
  match placeOf a with
  | .engine p => if 2 ≤ (s.engine p).state then none else some a
  | .logical l => (s.physOf l).map fun p => engineBase p + (a - logicalBase l)
  | _ => some a

/-- The granted access. A parity error at the crossing marks the data void at its destination (01 R42, 14 R412): the granules
written, or those that a read delivers to; a job that consumes them dies by the void operand (14 R415). -/
def perform (s : State) (op : MemOp) (parity : Bool) (unit_ : Nat) : State :=
  match op with
  | .idle => s
  | .read a n onDie ecc dest =>
    let s1 := match s.reaches a with
      | some x => if inDram x n then dramRead s x onDie ecc else if inDeviceMemory x n then dieRead s x unit_ ecc else s
      | none => s
    if parity then
      let s2 := match dest.bind s1.reaches with
        | some d => if inDeviceMemory d n then s1.voidRange d n else s1
        | none => s1
      s2.contained { source := srcCrossing, unit := unit_, address := a } stVOID
    else s1
  | .write a bytes mark =>
    let s1 := match s.reaches a with
      | some x => if inDeviceMemory x bytes.length then s.store x bytes (mark || parity) else s
      | none => s
    if parity then s1.contained { source := srcCrossing, unit := unit_, address := a } stVOID else s1

/-- The panic signal of a request's port (16 R484, R485): a decode reference fetch whose prefetch buffer holds less than 25 %, until it
holds 50 %; the zone path while a request has waited 2 us; no other port. -/
def wantsPanic (s : State) (n : Nat) (r : ArbReq) : Bool :=
  match r.port with
  | .decodeFetch => decide (r.fill < 25) || ((Table.get 0 r.who (s.dram n).panic != 0 || (s.dram n).noPanic.contains r.who) && decide (r.fill < 50))
  | .zonePath => decide (2000 ≤ r.waited)
  | _ => false

/-- A request of the same port and stack wants panic. -/
def portPanic (s : State) (n : Nat) (reqs : List ArbReq) (r : ArbReq) : Bool :=
  reqs.any fun q => q.who == r.who && (opStack q.op) == some n && wantsPanic s n q

/-- A port releases panic: the time it held it is remembered as long as it can count (16 R486). -/
def endPanic (now who : Nat) (x : Dram) : Dram :=
  let t := Table.get 0 who x.panic
  let past := (Table.get [] who x.panicPast).filter fun q => decide (now < q.2 + 200000)
  { x with panic := Table.set 0 who 0 x.panic, panicPast := Table.set [] who (if t = 0 then past else past ++ [(t - 1, now)]) x.panicPast }

/-- Ports raise, hold and release panic (16 R485, R486): a port in panic is remembered with the time it raised it. -/
def notePanic (s : State) (n who : Nat) (raised : Bool) : State :=
  let d := s.dram n
  if raised then
    if (Table.get 0 who d.panic ≠ 0) ∨ d.noPanic.contains who then s
    else s.modDram n fun x => { x with panics := x.panics + 1, panic := Table.set 0 who (s.time.elapsed + 1) x.panic }
  else s.modDram n fun x => { endPanic s.time.elapsed who x with noPanic := x.noPanic.filter (· != who) }

/-- A panic request whose port has not lost panic. -/
def panics (s : State) (n : Nat) (reqs : List ArbReq) (r : ArbReq) : Bool := portPanic s n reqs r && !(s.dram n).noPanic.contains r.who

/-- CHIP_ARB_GRANT (01 R19, R20): panic before age before class; round-robin, weighted for bulk. -/
def execChipArbGrant (port : Nat) (reqs : List ArbReq) (parity : Bool) (s : State) : Out :=
  done (if !s.answers ∨ 16 ≤ port then s
    else
      let s1 := reqs.foldl (fun a r => match (opStack r.op) with
        | some n => notePanic a n r.who (portPanic s n reqs r)
        | none => a) s
      let a := s1.arb port
      let urgent := reqs.filter fun r => match (opStack r.op) with
        | some n => panics s1 n reqs r
        | none => false
      let aged := reqs.filter fun r => decide (10000 ≤ r.waited)
      let pick := if !urgent.isEmpty then nextTurn a.lastRt urgent
        else if !aged.isEmpty then oldest aged else classTurn a true reqs
      match pick with
      | none => s1.setArb port { a with granted := none }
      | some r => perform (s1.setArb port (arbAfter s1 a r)) r.op parity 0xFF)

/-- REGION_XBAR_GRANT (01 R22): age of 2,048 compute cycles before class; round-robin within a class. -/
def execRegionXbarGrant (g port : Nat) (reqs : List ArbReq) (parity : Bool) (s : State) : Out :=
  done (if !s.answers ∨ 4 ≤ g ∨ 32 ≤ port then s
    else
      let k := 100 + 32 * g + port
      let a := s.arb k
      let aged := reqs.filter fun r => decide (2048 ≤ r.waited)
      match (if !aged.isEmpty then oldest aged else classTurn a false reqs) with
      | none => s.setArb k { a with granted := none }
      | some r =>
        let b : Arbiter := match serviceOf r with
          | .realTime => { a with lastRt := r.who, granted := some r.who }
          | .bulk => { a with lastBulk := r.who, granted := some r.who }
          | .background => { a with lastBg := r.who, granted := some r.who }
        perform (s.setArb k b) r.op parity g)

/-- The place of a requester in the fixed order of a bank (01 R23). -/
def bankOrder : BankUser → Nat
  | .compute => 0
  | .halo => 1
  | .dma => 2
  | .audit => 3

/-- The request first in the fixed order. -/
def firstBank (rs : List BankReq) : Option BankReq :=
  rs.foldl (fun b r => match b with
    | none => some r
    | some q => if bankOrder r.who < bankOrder q.who then some r else some q) none

/-- The bank of an access: address bits [9:6] (07 R242). -/
def opBank : MemOp → Option Nat
  | .idle => none
  | .read a _ _ _ _ => some (bitsOf a 6 4)
  | .write a _ _ => some (bitsOf a 6 4)

/-- ENGINE_BANK_GRANT (01 R23, 07 R242): of the requests for the bank, the fixed order, but a request other than compute that has waited 64 cycles goes before
compute for one access. Addresses count within the engine's memory. -/
def execEngineBankGrant (p bank : Nat) (reqs : List BankReq) (s : State) : Out :=
  done (if !s.answers ∨ 72 ≤ p ∨ 16 ≤ bank then s
    else
      let here := reqs.filter fun r => opBank r.op == some bank
      let aged := here.filter fun r => decide (r.who ≠ .compute) && decide (64 ≤ r.waited)
      match firstBank (if aged.isEmpty then here else aged) with
      | none => s
      | some r => match r.op with
        | .idle => s
        | .read a _ _ ecc _ =>
          let s1 := if ecc = .single then s.modEngine p fun e => { e with memCe := e.memCe + 1 } else s
          if a < engineSize then dieRead s1 (engineBase p + a) p ecc else s
        | .write a bytes mark => if a + bytes.length ≤ engineSize then s.store (engineBase p + a) bytes mark else s)

/-! ## The controllers (16 R485 to R488, R493) -/

/-- How long a port that raised panic at `since` has held it within the 200 us before a time. -/
def panicHeld (past : List (Nat × Nat)) (since at_ : Nat) : Nat :=
  ((past ++ [(since, at_)]).map fun q => min q.2 at_ - max q.1 (at_ - 200000)).sum

/-- The moment at which it has held it for 50 us within 200 us: between two moments at which a time held begins or ceases to
count, the time held grows steadily or not at all. -/
def panicDue (past : List (Nat × Nat)) (since : Nat) : Nat :=
  let turns := since :: (past.flatMap fun q => [q.1 + 200000, q.2 + 200000]).filter (since ≤ ·)
  let due := (turns.flatMap fun p => [p, p + (50000 - panicHeld past since p)]).filter fun c => decide (50000 ≤ panicHeld past since c)
  due.foldl min (since + 50000)

/-- PANIC_LIMIT (16 R486): a port that has held panic for 50 us within 200 us loses it until it next releases it. -/
def execPanicLimit (n port : Nat) (s : State) : Out :=
  let t := Table.get 0 port (s.dram n).panic
  done (if s.answers && decide (n < 2) && decide (t ≠ 0) then
    let s1 := s.atElapsed (panicDue (Table.get [] port (s.dram n).panicPast) (t - 1))
    s1.modDram n fun x => { endPanic s1.time.elapsed port x with panicLost := x.panicLost + 1, noPanic := x.noPanic ++ [port] }
  else s)

/-- DRAM_REFRESH (16 R487): a per-bank refresh; nothing of what memory holds changes. -/
def execDramRefresh (n channel bank : Nat) (s : State) : Out :=
  done (if s.answers && decide (n < 2) && decide (channel < 16) && decide (bank < 64) && decide ((s.dram n).state = 0) then
    s.modDram n fun x => { x with refreshes := x.refreshes + 1 }
  else s)

/-- DRAM_TEMP_READ (16 R480, R487): every 1 ms; refresh doubles above 85 °C and returns below 80 °C. -/
def execDramTempRead (n celsius : Nat) (s : State) : Out :=
  done (if s.answers && decide (n < 2) && decide ((s.dram n).state ≠ 3) then
    (s.atMultiple 1000000).modDram n fun x => { x with
      temp := min 255 celsius, refresh2x := if 85 < celsius then true else if celsius < 80 then false else x.refresh2x }
  else s)

/-- A pseudo-channel that fails three times in a row is lost, and its stack with it (16 R488, R495). -/
def retrainCount (s : State) (n k : Nat) (failed : Bool) : State :=
  let c := if failed then Table.get 0 k (s.dram n).retrainFails + 1 else 0
  let s1 := s.modDram n fun x => { x with retrainFails := Table.set 0 k c x.retrainFails }
  if c < 3 then s1 else chipFatal (s1.modDram n fun x => { x with state := 3 }) srcStack n

/-- DRAM_RETRAIN (16 R488): an all-bank refresh pause of one channel; lanes that fail are repaired with record 0x060D. -/
def execDramRetrain (n channel lanesRepaired : Nat) (failed0 failed1 : Bool) (s : State) : Out :=
  done (if s.answers && decide (n < 2) && decide (channel < 16) && decide ((s.dram n).state = 0) then
    let s1 := s.modDram n fun x => { x with retrain := x.retrain + 1, lanes := min 0x3F (x.lanes + lanesRepaired) }
    let s2 := (List.range lanesRepaired).foldl (fun a _ => a.fenceEvent { source := srcLane, unit := n } stOK (type := 0x060D)) s1
    retrainCount (retrainCount s2 n (2 * channel) failed0) n (2 * channel + 1) failed1
  else s)

/-- SOFT_REPAIR (16 R493 steps 2 and 4): a marked row is repaired when its bank's resource is free; otherwise its remap
entry is kept. -/
def execSoftRepair (n row : Nat) (s : State) : Out :=
  let d := s.dram n
  done (if s.answers && decide (n < 2) && d.marked.contains row && d.repairing.isNone then
    if d.repaired.any fun r => decide (Config.dramBank r = Config.dramBank row) then
      s.modDram n fun x => { x with marked := x.marked.filter (· != row), kept := x.kept + 1 }
    else s.modDram n fun x => { x with marked := x.marked.filter (· != row), repairing := some row }
  else s)

/-- SOFT_REPAIR_COMPLETE (16 R493 step 3): the shadow row is copied back, its entry released, and the repair recorded in the
unit map. -/
def execSoftRepairComplete (n row : Nat) (s : State) : Out :=
  done (if s.answers && decide (n < 2) && decide ((s.dram n).repairing = some row) then
    writeUnitMap (s.modDram n fun x => { x with
      repairing := none, remapped := x.remapped.filter (· != row), remapFree := x.remapFree + 1
      repaired := x.repaired ++ [row], repairs := x.repairs + 1 })
  else s)

end Sys2Proof.Machine
end

