-- ==== Sys2Proof/Machine/Encode.lean ====
section
/-! DEFINITION. What an encoder codes (12 R369, R378 to R385): the masked source, the motion search, the modes, and slices under
rate control. What the codecs' standards give is free (`Config.codeBlock` and its neighbours). -/

namespace Sys2Proof.Machine

/-! ## Masks (12 R378, R379) -/

/-- Round a rectangle outward to a grid and clamp it to the picture. -/
def onGrid (g w h : Nat) (b : Box) : Box :=
  let down (v : Int) : Int := v.fdiv g * g
  let up (v : Int) : Int := -((-v).fdiv g) * g
  let at_ (v : Int) (n : Nat) : Int := max 0 (min (n : Int) v)
  { x0 := at_ (down b.x0) w, y0 := at_ (down b.y0) h, x1 := at_ (up b.x1) w, y1 := at_ (up b.y1) h }

/-- The grid of a profile: its mosaic blocks, or even coordinates. -/
def MaskProfile.grid (m : MaskProfile) : Nat := if m.mosaic then max m.block 1 else 2

/-- The masked rectangles of a picture of w × h: the areas of the zones of its stream that the profile names, and the dilated
boxes of the applying entry's tracks of masked classes; or the whole picture (12 R378). -/
def maskedArea (s : State) (o : Output) (tick w h : Nat) : List Box :=
  let c := s.cfgOf o.req.epoch
  let m := o.req.profileData
  if wholeMasked s o tick then [{ x0 := 0, y0 := 0, x1 := w, y1 := h }]
  else
    let zones := ((c.zonesOf o.req.stream).filter fun z => m.zones.getLsbD z).filterMap fun z => zoneArea (c.zone z).rects
    let boxes := ((maskFor s o tick).map (·.boxes)).getD []
    let tracks := (boxes.filter fun b => m.classes.getLsbD b.1).map fun b => dilate m.margin w h b.2
    (zones ++ tracks).map (onGrid m.grid w h)

/-- A sample of a plane lies in one of the rectangles; k luma samples to one of the plane. -/
def inArea (area : List Box) (k x y : Nat) : Bool :=
  area.any fun b => decide (b.x0 ≤ (k * x : Nat)) && decide (((k * x : Nat) : Int) < b.x1) && decide (b.y0 ≤ (k * y : Nat)) && decide (((k * y : Nat) : Int) < b.y1)

/-- The mean of the samples of the block of side b that holds (x, y), of those inside the plane (12 R379). -/
def blockMean (p : Plane) (b x y : Nat) : Nat :=
  let rows := (p.rows.drop (y / b * b)).take b
  let vs := rows.flatMap fun r => (r.drop (x / b * b)).take b
  (vs.sum + vs.length / 2) / max vs.length 1

/-- A plane masked: opaque samples take `fill`, those of a mosaic the mean of their block. -/
def maskPlane (m : MaskProfile) (area : List Box) (k fill : Nat) (p : Plane) : Plane :=
  { p with rows := (p.rows.zipIdx).map fun (r, y) => (r.zipIdx).map fun (v, x) =>
      if inArea area k x y then (if m.mosaic then blockMean p (m.grid / k) x y else fill) else v }

/-- The masked picture (12 R379): an opaque sample is Y = 16, Cb = Cr = 128. -/
def maskLevel (m : MaskProfile) (area : List Box) (l : Level) : Level :=
  { y := maskPlane m area 1 16 l.y, cb := maskPlane m area 2 128 l.cb, cr := maskPlane m area 2 128 l.cr }

/-- A picture as 8 bits (12 R369). -/
def eightBitLevel (depth : Nat) (l : Level) : Level :=
  { y := eightBitPlane depth l.y, cb := eightBitPlane depth l.cb, cr := eightBitPlane depth l.cr }

/-- What the encoder codes of a source picture. -/
def maskedSource (s : State) (o : Output) (x : Source) : Level :=
  let l := eightBitLevel x.depth x.samples
  maskLevel o.req.profileData (maskedArea s o x.tick l.y.w l.y.h) l

/-! ## The motion search (12 R380) -/

/-- A sample of a plane; outside it the nearest one, the codecs' edge extension. -/
def planeAt (p : Plane) (x y : Int) : Nat :=
  (p.rows.getD (min y.toNat (p.h - 1)) []).getD (min x.toNat (p.w - 1)) 0

/-- A plane of means of n × n samples. -/
def meanPlane (n : Nat) (p : Plane) : Plane :=
  { w := p.w / n, h := p.h / n
    rows := (List.range (p.h / n)).map fun y => (List.range (p.w / n)).map fun x =>
      (((List.range (n * n)).map fun i => planeAt p (n * x + i % n : Nat) (n * y + i / n : Nat)).sum + n * n / 2) / (n * n) }

/-- The sum of absolute differences of a block of side b against a prediction. -/
def sadOf (src : Plane) (b x0 y0 : Nat) (pred : Nat → Nat → Nat) : Nat :=
  ((List.range (b * b)).map fun i =>
    (((planeAt src (x0 + i % b : Nat) (y0 + i / b : Nat) : Nat) : Int) - (pred (i % b) (i / b) : Nat)).natAbs).sum

/-- λ of a QP. -/
def lambdaOf (qp : Nat) : Nat := 2 ^ ((qp - 12) / 6)

/-- The bits of a signed exponent-Golomb code. -/
def golombBits (v : Int) : Nat := 2 * Nat.log2 (2 * v.natAbs + (if 0 < v then 0 else 1)) + 1

/-- The bits of a vector against the predictor, in quarter samples. -/
def vectorBits (p v : Int × Int) : Nat := golombBits (v.1 - p.1) + golombBits (v.2 - p.2)

/-- The candidate that comes first: the least cost, then the smaller |x| + |y|, then the smaller y, then the smaller x. -/
def better (a b : Nat × Int × Int) : Bool :=
  let n (v : Int × Int) : Nat := v.1.natAbs + v.2.natAbs
  decide (a.1 < b.1) || (a.1 == b.1 && (decide (n a.2 < n b.2) || (n a.2 == n b.2 &&
    (decide (a.2.2 < b.2.2) || (a.2.2 == b.2.2 && decide (a.2.1 < b.2.1))))))

/-- The best of a list of candidates with a cost function: cost and vector. -/
def bestOf (cost : Int × Int → Nat) (cs : List (Int × Int)) : Nat × Int × Int :=
  (cs.map fun c => (cost c, c)).foldl (fun (b : Option (Nat × Int × Int)) c => match b with
    | none => some c
    | some d => if better c d then some c else some d) none |>.getD (0, 0, 0)

/-- The positions within ±n of a point, at a step. -/
def around (n step : Nat) (c : Int × Int) : List (Int × Int) :=
  (List.range ((2 * n + 1) * (2 * n + 1))).map fun (i : Nat) =>
    (c.1 + (step : Int) * (((i % (2 * n + 1) : Nat) : Int) - (n : Int)), c.2 + (step : Int) * (((i / (2 * n + 1) : Nat) : Int) - (n : Int)))

/-- The second start of step 2: the predictor as full samples toward zero, clamped to ±64, halved toward zero. -/
def secondStart (p : Int × Int) : Int × Int :=
  let half (v : Int) : Int := (max (-64) (min 64 (v.tdiv 4))).tdiv 2
  (half p.1, half p.2)

/-- The vector of a block, in quarter samples, with its cost J (12 R380). -/
def motion (codec qp : Nat) (src ref : Plane) (pred : Int × Int) (col row : Nat) : Nat × Int × Int :=
  let l := lambdaOf qp
  let whole (s r : Plane) (b : Nat) (scale : Int) (v : Int × Int) : Nat :=
    sadOf s b (b * col) (b * row) (fun i j => planeAt r (v.1 + (b * col + i : Nat)) (v.2 + (b * row + j : Nat)))
      + l * vectorBits pred (scale * v.1, scale * v.2)
  let fine (v : Int × Int) : Nat :=
    sadOf src 16 (16 * col) (16 * row) (fun i j => Config.lumaAt codec ref (v.1 + (4 * (16 * col + i) : Nat)) (v.2 + (4 * (16 * row + j) : Nat)))
      + l * vectorBits pred v
  let v1 := (bestOf (whole (meanPlane 4 src) (meanPlane 4 ref) 4 16) (around 16 1 (0, 0))).2
  let v2 := (bestOf (whole (meanPlane 2 src) (meanPlane 2 ref) 8 8) (around 2 1 (2 * v1.1, 2 * v1.2) ++ around 2 1 (secondStart pred))).2
  let v3 := (bestOf (whole src ref 16 4) (around 2 1 (2 * v2.1, 2 * v2.2))).2
  let v4 := (bestOf fine (around 1 2 (4 * v3.1, 4 * v3.2))).2
  bestOf fine (around 1 1 v4)

/-! ## Modes (12 R381) -/

/-- The best of the four intra modes, the first of equal ones: SAD and mode. -/
def bestIntra (codec : Nat) (src : Plane) (recon : Level) (col row : Nat) : Nat × Nat :=
  let sad (m : Nat) : Nat := sadOf src 16 (16 * col) (16 * row) fun i j => Config.intraAt codec m recon (16 * col + i) (16 * row + j)
  (List.range 3).foldl (fun b i => if sad (i + 1) < b.1 then (sad (i + 1), i + 1) else b) (sad 0, 0)

/-- A block takes the least of three costs: skip, then inter, then intra among equal ones (12 R381); in an I picture intra. -/
def chooseBlock (codec qp : Nat) (intra : Bool) (o : Output) (col row : Nat) : Block :=
  let l := lambdaOf qp
  let src := o.masked.y
  let (di, mi) := bestIntra codec src o.recon col row
  let b : Block := { col := col, row := row, mode := .intra mi, qp := qp }
  match o.reference, intra with
  | some ref, false =>
    let sv := Config.skipVector codec o.blocks col row
    let skip := sadOf src 16 (16 * col) (16 * row) (fun i j =>
      Config.lumaAt codec ref.y (sv.1 + (4 * (16 * col + i) : Nat)) (sv.2 + (4 * (16 * row + j) : Nat))) + l
    let (j, v) := motion codec qp src ref.y (Config.mvPredictor codec o.blocks col row) col row
    if skip ≤ j + 2 * l ∧ skip ≤ di + 4 * l then { b with mode := .skip, mv := sv, residual := false }
    else if j + 2 * l ≤ di + 4 * l then { b with mode := .inter, mv := v }
    else b
  | _, _ => b

/-- A block of a row that the budget no longer reaches: skip with zero motion, in an I picture DC intra at QP 51, neither with a
residual (12 R384). -/
def spareBlock (intra : Bool) (qp col row : Nat) : Block :=
  if intra then { col := col, row := row, mode := .intra 0, qp := 51, residual := false }
  else { col := col, row := row, mode := .skip, qp := qp, residual := false }

/-- A block coded: its bits, and the reconstruction with it. -/
def putBlock (codec : Nat) (b : Block) (o : Output) : Output × Nat :=
  let (bits, recon) := Config.codeBlock codec o.masked o.recon (o.reference.getD {}) o.blocks b
  ({ o with recon := recon, blocks := o.blocks ++ [b] }, bits)

/-- The blocks of a CTU in coding order: one macroblock, or four coding units (12 R368). -/
def ctuBlocks (codec c r : Nat) : List (Nat × Nat) :=
  if codec = 2 then [(2 * c, 2 * r), (2 * c + 1, 2 * r), (2 * c, 2 * r + 1), (2 * c + 1, 2 * r + 1)] else [(c, r)]

/-- One CTU coded at the row's QP, or as the budget leaves it; then it takes at most 4 bits (12 R384). -/
def codeCtu (codec : Nat) (intra : Bool) (r : Nat) (acc : Output × Nat) (c : Nat) : Output × Nat :=
  let inside := (ctuBlocks codec c r).filter fun b => decide (16 * b.1 < acc.1.masked.y.w) && decide (16 * b.2 < acc.1.masked.y.h)
  let (o, n) := inside.foldl (fun (x : Output × Nat) b =>
    let k := if x.1.skipping then spareBlock intra x.1.qp b.1 b.2 else chooseBlock codec x.1.qp intra x.1 b.1 b.2
    let (y, m) := putBlock codec k x.1
    (y, x.2 + m)) (acc.1, 0)
  (o, acc.2 + (if o.skipping then min n 4 else n))

/-- A CTU row coded under rate control, with its bits (12 R383, R384). -/
def codeRow (a : Int) (rows cols ramp : Nat) (intra : Bool) (acc : Output × Nat) : Output × Nat :=
  let o := startRow a rows cols ramp acc.1.req.qc acc.1
  let (o1, n) := (List.range cols).foldl (codeCtu o.req.codec intra o.row) (o, 0)
  ({ o1 with spent := o1.spent + n, row := o1.row + 1 }, acc.2 + n)

/-! ## Slices (12 R369, R385) -/

/-- The first picture of a clip or view is an I picture, and every G-th after it (12 R369). -/
def intraPicture (o : Output) : Bool := o.gop % max o.req.gop 1 == 0 || o.reference.isNone

/-- The picture in coding: at its first slice it starts from its masked source at the target QP; a missed one is all skip (12 R386). -/
def startPicture (s : State) (o : Output) (x : Source) : Output :=
  if o.row = 0 then
    { o with qp := o.req.qt, spent := 0, raises := 0, skips := 0, slice := 0, skipping := x.missed, coding := some x.epoch
             masked := if x.missed then o.reference.getD {} else maskedSource s o x, recon := {}, blocks := [] }
  else o

/-- The CTU rows and columns of the pictures of an output. -/
def Output.ctus (o : Output) : Nat × Nat :=
  (ceilDiv o.masked.y.h (ctuSide o.req.codec), ceilDiv o.masked.y.w (ctuSide o.req.codec))

/-- The next slice of a picture coded: the output after its rows, and the slice's bits. -/
def codeSlice (s : State) (o : Output) (x : Source) : Output × Nat :=
  let o0 := startPicture s o x
  let (rows, cols) := o0.ctus
  let intra := intraPicture o0
  let n := if o.req.rowsPerSlice = 0 then rows - o0.row else min o.req.rowsPerSlice (rows - o0.row)
  let head := Config.headerBits o.req.codec intra o0.emitted o0.slice o0.qp
  let ramp := (s.cfgOf o.req.epoch).policies.qpStep
  let (o1, bits) := (List.range n).foldl (fun acc _ => codeRow (budgetA o0 x.tick) rows cols ramp intra acc)
    ({ o0 with spent := o0.spent + head }, head)
  ({ o1 with slice := o1.slice + 1, bits := o.bits + bits, lastCoded := x.tick
             firstCoded := if o.emitted = 0 then x.tick else o.firstCoded
             flags := o1.flags ||| (if x.concealed then 8 else 0) ||| (if x.void then 16 else 0) }, bits)

/-- The slice just coded ends its picture. -/
def Output.pictureDone (o : Output) : Bool := decide (o.ctus.1 ≤ o.row)

/-- The output once its picture has been coded: the reconstruction is the next one's reference (12 R379). -/
def closePicture (o : Output) (x : Source) : Output :=
  { o with emitted := o.emitted + 1, gop := o.gop + 1, sources := o.sources.drop 1, row := 0, reference := some o.recon, coding := none
           history := (o.history ++ [(x.tick, o.spent)]).filter fun h => decide (x.tick ≤ h.1 + o.req.window * 9000) }

/-- The descriptor of a slice and where it goes: the clip store, and the host and the network as the request selects (12 R385). -/
def sliceOut (s : State) (o o1 : Output) (x : Source) (bits : Nat) : SliceOut :=
  { ident := o.req.ident, tick := x.tick, station := s.time.now, picture := o.emitted, slice := o1.slice - 1
    flags := bit (decide (o.row = 0)) + 2 * bit o1.pictureDone + 4 * bit o1.skipping + 8 * bit (wholeMasked s o x.tick), bits := bits
    toHost := o.req.toHost, toNet := if o.req.toNet then some (x.tick % 2 ^ 32) else none }

/-- The next slice of an output coded and emitted. -/
def emitSlice (s : State) (o : Output) (x : Source) : State :=
  let (o1, bits) := codeSlice s o x
  let last := o1.pictureDone
  let o2 := if last then closePicture o1 x else o1
  let fell := o1.raises ≠ 0 ∨ o1.skips ≠ 0
  let store := trimStore s.cfg.clipStore (s.evidence.store.length + 1) (s.evidence.store ++ [sliceOut s o o1 x bits])
  let s1 := { s with evidence := { s.evidence with store := store, outputs := s.evidence.outputs.map fun y => if y = o then o2 else y } }
  let s2 := s1.modEncoder o.encoder fun e => { e with
      bits := e.bits + BitVec.ofNat 64 bits
      ratio := if o.row = 0 then s.mediaRatio else e.ratio
      pictures := if last then e.pictures + 1 else e.pictures
      fallback := if last ∧ fell then e.fallback + 1 else e.fallback }
  if last ∧ fell then
    s2.encRecord 0x0403 stBUDGET o.req.stream { ident := o.req.ident, encoder := o.encoder, raises := o1.raises, emitted := o1.skips } x.tick
  else s2

/-- SLICE_EMIT (12 R385): the slice of a row of an output's next picture, the rows in order; held at a slice boundary while a
droop of MD holds the encoders (21 R616). -/
def execSliceEmit (n ident row : Nat) (s : State) : Out :=
  done (match s.output n ident with
    | none => s
    | some o => match o.sources.head? with
      | none => s
      | some x => if s.running && !s.power.mediaHold && o.row == row then emitSlice s o x else s)

/-! ## Requests (12 R367, R370, R374) -/

/-- A request of the kind its command is for. -/
def kindRequest (kind : Nat) (req : List Byte) (s : State) : State :=
  if s.mayBegin && field req 0 1 == kind then (takeEvidence s req).1 else s

/-- CLIP_REQUEST (12 R374). -/
def execClipRequest (req : List Byte) (_src : Src) (s : State) : Out := done (kindRequest 1 req s)
/-- LIVE_VIEW_START (12 R370). -/
def execLiveViewStart (req : List Byte) (_src : Src) (s : State) : Out := done (kindRequest 2 req s)
/-- LIVE_VIEW_STOP (12 R367). -/
def execLiveViewStop (req : List Byte) (_src : Src) (s : State) : Out := done (kindRequest 3 req s)

/-- CLIP_START (12 R375). -/
def execClipStart (s : State) : Out := done (if s.mayBegin then clipTurn s else s)

/-- CLIP_COMPLETE (12 R376): a clip completes once its last picture has been emitted. -/
def execClipComplete (n ident : Nat) (s : State) : Out :=
  done (match s.output n ident with
    | none => s
    | some o => if s.running && !o.live && o.sources.isEmpty && clipFed s o then completeClip s o else s)

/-! ## Encoders (12 R387, 14 R431) -/

/-- A view on another encoder from its next picture on: the picture in coding is given up (12 R387). -/
def Output.restarted (o : Output) (n : Nat) : Output :=
  { o with encoder := n, sources := if o.row = 0 then o.sources else o.sources.drop 1, row := 0, gop := 0, blocks := [], reference := none
           coding := none }

/-- The replay picture of a clip is given up: its engine is free. -/
def stopReplay (s : State) (ident : Nat) : State :=
  (List.range 18).foldl (fun a d =>
    if (a.dec d).replay = some ident then decLeave (a.modDec d fun e => { e with job := none, replay := none }) d else a) s

/-- A live view of a fenced encoder begins a new I picture on the one of least load that has room, or ends (12 R387). -/
def moveView (s : State) (o : Output) : State :=
  match s.pickEncoder o.load true with
  | some n => { s with evidence := { s.evidence with outputs := s.evidence.outputs ++ [o.restarted n] } }
  | none => s.encRecord 0x0405 stBUDGET o.req.stream
      { ident := o.req.ident, encoder := o.encoder, flags := o.flags, emitted := o.emitted, bits := o.bits, first := o.firstCoded, last := o.lastCoded }

/-- A clip of a fenced encoder starts anew from its stored units on another, or waits in the queue by its event time (12 R387). -/
def moveClip (s : State) (o : Output) : State :=
  let req := { o.req with flags := (o.flags % 8) ||| 32, cut := if o.flags.testBit 1 || o.flags.testBit 2 then some o.last else none }
  match s.pickEncoder o.load false with
  | some n =>
    let fresh : Output := { req := o.req, encoder := n, first := o.first, last := o.last, flags := (o.flags % 8) ||| 32, load := o.load, replay := o.replay }
    { s with evidence := { s.evidence with outputs := s.evidence.outputs ++ [fresh] } }
  | none => { s with evidence := { s.evidence with queue := queueClip req s.evidence.queue, replayUsed := s.evidence.replayUsed - o.replay } }

/-- An output of a fenced encoder moves (12 R387). -/
def moveOutput (s : State) (o : Output) : State :=
  let without := { s with evidence := { s.evidence with outputs := s.evidence.outputs.filter (· != o) } }
  if o.live then moveView without o else moveClip (stopReplay without o.req.ident) o

/-- An encoder fails its assay: fenced, capacity falls, its outputs move (01 R40, 14 R431). -/
def fenceEncoder (s : State) (n : Nat) : State :=
  let s1 := s.modEncoder n fun e => { e with fenced := true }
  let s2 := (s.evidence.outputs.filter fun o => o.encoder == n).foldl moveOutput s1
  dispatch (s2.fenceEvent { source := 27, unit := n } stOK)

/-- ENCODER_ASSAY (14 R431): an encoder runs its assay at start-up, and then whenever it has held no clip or view for P minutes. -/
def execEncoderAssay (n : Nat) (pass : Bool) (s : State) : Out :=
  done (if s.mayBegin && decide (n < 4) && !(s.encoder n).fenced && s.encLoad n == 0 then
    let s1 := if (s.encoder n).assayed then s.atElapsed ((s.encoder n).idleSince + s.cfg.rotateMin * 60 * second) else s
    let s2 := s1.modEncoder n fun e => { e with idleSince := s1.time.elapsed, assayed := true }
    let s3 := s2.emit { s2.record 0x0607 ucENC (.flt { cls := 0, unit := n }) with inst := n, status := if pass then stOK else stAUDIT }
    if pass then s3 else fenceEncoder s3 n
  else s)

end Sys2Proof.Machine
end

