-- ==== Sys2Proof/Machine/Seconds.lean ====
section
/-! DEFINITION. The summaries of a second of elapsed time (04 R164, R645): what was counted in it is written in one record for each
unit, with the station time at which the second ended, and the counts start again. -/

namespace Sys2Proof.Machine

/-- A kept record of a run with the count of the pictures it covers. -/
def summaryOf (s : State) (r : Rec) (n : Nat) : Rec :=
  let payload := match r.payload with
    | .picture p => .picture { p with run := n }
    | p => p
  { r with station := s.time.now, payload := payload }

/-- The summary of a run, when the second had pictures of it. -/
def runSummary (s : State) (r : Option Rec) (n : Nat) : State :=
  match r with
  | some x => if n = 0 then s else s.emit (summaryOf s x n)
  | none => s

/-- A count of ingest for a second (04 R164). -/
def ingestSummary (s : State) (type n status count : Nat) : State :=
  if count = 0 then s
  else s.streamRecord type ucING 0xFF n s.stl.epoch.toNat 0 status (.stream { codec := (s.cfg.stream n).codecByte, count := count })

/-- The summaries of one stream: runs, discarded units and lost numbers; the flagged pictures of the second are shown
until the next summary (log entry 205). -/
def streamSecond (s : State) (n : Nat) : State :=
  let t := s.stream n
  let s1 := runSummary s t.concealRec t.secConcealed
  let s2 := runSummary s1 t.missRec t.secMissing
  let s3 := ingestSummary s2 0x000A n stBUDGET t.secDiscarded
  let s4 := ingestSummary s3 0x000B n stOK t.secLost
  s4.modStream n fun x => { x with
    shownFlagged := x.secFlagged, secFlagged := 0, secConcealed := 0, secMissing := 0, concealRec := none, missRec := none
    secDiscarded := 0, secLost := 0 }

/-- Frames shed by an account (05 R191). -/
def shedSecond (s : State) (a : Nat) : State :=
  let x := s.acct a
  if x.secShed = 0 then s
  else
    let r := s.record 0x0044 ucPRE (.pre { value := x.secShed, tile := x.secShedFull })
    (s.emit { r with account := a }).modAcct a fun y => { y with secShed := 0, secShedFull := 0 }

/-- Detections that found no free slot (11 R354). -/
def fullSecond (s : State) : State :=
  let n := s.ledger.secFull
  if n = 0 then s
  else
    let s1 := s.emit { s.record 0x0308 ucCLR (.clr { count := n }) with status := stBUDGET }
    { s1 with ledger := { s1.ledger with secFull := 0 } }

/-- Pictures an encoder's live views missed, one record for each view (12 R386). -/
def missedSecond (s : State) (n : Nat) : State :=
  let s1 := (s.encoder n).secMissed.foldl (fun a e =>
    a.encRecord 0x0406 stOK e.1.2 { ident := e.1.1, encoder := n, emitted := e.2 }) s
  s1.modEncoder n fun y => { y with secMissed := [] }

/-- Corrected errors, per source and unit (14 R410). -/
def correctedSecond (s : State) : State :=
  let s1 := s.flt.secCorrected.foldl (fun a e =>
    a.emit (a.record 0x0600 ucFLT (.flt { cls := 1, source := e.1.1, unit := e.1.2, count := e.2 }))) s
  { s1 with flt := { s1.flt with secCorrected := [] } }

/-- Untrusted inputs of a zone (15 R470). -/
def untrustedSecond (s : State) (z : Nat) : State :=
  let x := s.zone z
  if x.secUntrusted = 0 then s
  else (s.safRecord 0x0705 z stOK { count := x.secUntrusted } x.row.stream).modZone z fun y => { y with secUntrusted := 0 }

/-- Export records dropped, and the second of the query limit (18 R533, R540). -/
def linkSecond (s : State) : State :=
  let n := s.lnk.exportDropped
  let s1 := if n = 0 then s else s.emit (s.record 0x0806 ucLNK (.lnk { count := n }))
  { s1 with lnk := { s1.lnk with exportDropped := 0, servedSecond := 0 } }

/-- The end of the next second whose summaries are not written: each command ends one second. -/
def secondEnd (s : State) : Nat := (s.journal.summed + 1) * second

/-- Every summary, in the order of the chapters. -/
def secondSummary (s : State) : State :=
  let due := secondEnd s
  let s1 := s.atElapsed due
  let s2 := { s1 with journal := { s1.journal with summed := due / second } }
  let s3 := (s2.streams.map (·.1)).foldl streamSecond s2
  let s4 := (s3.accts.map (·.1)).foldl shedSecond s3
  let s5 := (List.range 4).foldl missedSecond (fullSecond s4)
  let s6 := correctedSecond s5
  linkSecond ((s6.saf.zones.map (·.1)).foldl untrustedSecond s6)

/-- SECOND_SUMMARY (04 R645). -/
def execSecondSummary (s : State) : Out := done (if s.running then secondSummary s else s)

end Sys2Proof.Machine
end

