-- ==== Sys2Proof/Machine/Dispatch.lean ====
section
/-! DEFINITION. One arm per command: its meaning, or its rejection by name. -/

namespace Sys2Proof.Machine

def exec (i : Instr) (s : State) : Host.Outcome State Fault Refusal :=
  match i with
  | .registerWrite src off width value => Sys2Proof.Machine.execRegisterWrite src off width value s
  | .bar0UnalignedRead off n => Sys2Proof.Machine.execBar0UnalignedRead off n s
  | .timNowLowRead wide => Sys2Proof.Machine.execTimNowLowRead wide s
  | .tillCyclesRead a wide => Sys2Proof.Machine.execTillCyclesRead a wide s
  | .ingPacketsRead k wide => Sys2Proof.Machine.execIngPacketsRead k wide s
  | .engConvSatRead p wide => Sys2Proof.Machine.execEngConvSatRead p wide s
  | .engTilesRead p wide => Sys2Proof.Machine.execEngTilesRead p wide s
  | .clrCommandsRead r wide => Sys2Proof.Machine.execClrCommandsRead r wide s
  | .encPicturesRead n wide => Sys2Proof.Machine.execEncPicturesRead n wide s
  | .fltCorrectedRead wide => Sys2Proof.Machine.execFltCorrectedRead wide s
  | .safEvalsRead wide => Sys2Proof.Machine.execSafEvalsRead wide s
  | .memCeRead n wide => Sys2Proof.Machine.execMemCeRead n wide s
  | .netLnkCounterRead b wide => Sys2Proof.Machine.execNetLnkCounterRead b wide s
  | .flitCrcReplay b lane => Sys2Proof.Machine.execFlitCrcReplay b lane s
  | .laneSpare b lane => Sys2Proof.Machine.execLaneSpare b lane s
  | .bridgeHalfWidth l => Sys2Proof.Machine.execBridgeHalfWidth l s
  | .bridgeLost b => Sys2Proof.Machine.execBridgeLost b s
  | .chipArbGrant port reqs parity => Sys2Proof.Machine.execChipArbGrant port reqs parity s
  | .regionXbarGrant g port reqs parity => Sys2Proof.Machine.execRegionXbarGrant g port reqs parity s
  | .engineBankGrant p bank reqs => Sys2Proof.Machine.execEngineBankGrant p bank reqs s
  | .operandNetworkCycle p deliver load => Sys2Proof.Machine.execOperandNetworkCycle p deliver load s
  | .cellPipelineCycle p check => Sys2Proof.Machine.execCellPipelineCycle p check s
  | .regionWatchdogExpiry g => Sys2Proof.Machine.execRegionWatchdogExpiry g s
  | .regionRestartComplete g => Sys2Proof.Machine.execRegionRestartComplete g s
  | .regionRestartTimeout g => Sys2Proof.Machine.execRegionRestartTimeout g s
  | .chipWatchdogExpiry => Sys2Proof.Machine.execChipWatchdogExpiry s
  | .chipControllerRestarted => Sys2Proof.Machine.execChipControllerRestarted s
  | .resetAssert width => Sys2Proof.Machine.execResetAssert width s
  | .pwrgoodFall => Sys2Proof.Machine.execPwrgoodFall s
  | .bootStart straps => Sys2Proof.Machine.execBootStart straps s
  | .directoryReadComplete => Sys2Proof.Machine.execDirectoryReadComplete s
  | .dramTrainingComplete ok0 ok1 => Sys2Proof.Machine.execDramTrainingComplete ok0 ok1 s
  | .slotReadComplete => Sys2Proof.Machine.execSlotReadComplete s
  | .firmwareStarted => Sys2Proof.Machine.execFirmwareStarted s
  | .bootAssayComplete results => Sys2Proof.Machine.execBootAssayComplete results s
  | .adoptionHoldExpiry burnOk => Sys2Proof.Machine.execAdoptionHoldExpiry burnOk s
  | .stlOpen page via => Sys2Proof.Machine.execStlOpen page via s
  | .stlStage page via count => Sys2Proof.Machine.execStlStage page via count s
  | .stlCheck page via => Sys2Proof.Machine.execStlCheck page via s
  | .commitAtTime page via => Sys2Proof.Machine.execCommitAtTime page via s
  | .commitAtEvent page via => Sys2Proof.Machine.execCommitAtEvent page via s
  | .stlAbort page via => Sys2Proof.Machine.execStlAbort page via s
  | .stlDiscard page via => Sys2Proof.Machine.execStlDiscard page via s
  | .flashProgram page via count => Sys2Proof.Machine.execFlashProgram page via count s
  | .flashProgramComplete differs => Sys2Proof.Machine.execFlashProgramComplete differs s
  | .verifySlot page via slot => Sys2Proof.Machine.execVerifySlot page via slot s
  | .verifySlotComplete => Sys2Proof.Machine.execVerifySlotComplete s
  | .charterUpdate page via => Sys2Proof.Machine.execCharterUpdate page via s
  | .reboot page via slot => Sys2Proof.Machine.execReboot page via slot s
  | .rebootReset => Sys2Proof.Machine.execRebootReset s
  | .settlementPrepareAck u => Sys2Proof.Machine.execSettlementPrepareAck u s
  | .preInstantRecheck => Sys2Proof.Machine.execPreInstantRecheck s
  | .epochInstant => Sys2Proof.Machine.execEpochInstant s
  | .eventTimeout => Sys2Proof.Machine.execEventTimeout s
  | .unitDrainRelease u => Sys2Proof.Machine.execUnitDrainRelease u s
  | .drainBoundExpiry => Sys2Proof.Machine.execDrainBoundExpiry s
  | .rollingRestartNext agreed => Sys2Proof.Machine.execRollingRestartNext agreed s
  | .controllerStartFailure c => Sys2Proof.Machine.execControllerStartFailure c s
  | .ptpSync port domain sender twoStep origin correction rxMac => Sys2Proof.Machine.execPtpSync port domain sender twoStep origin correction rxMac s
  | .ptpFollowUp port domain sender origin correction => Sys2Proof.Machine.execPtpFollowUp port domain sender origin correction s
  | .ptpAnnounce port domain a => Sys2Proof.Machine.execPtpAnnounce port domain a s
  | .ptpDelayResp port domain sender receipt correction => Sys2Proof.Machine.execPtpDelayResp port domain sender receipt correction s
  | .ptpPdelayMessage port domain sender m correction rxMac => Sys2Proof.Machine.execPtpPdelayMessage port domain sender m correction rxMac s
  | .ptpDelayReqSend port peer txMac => Sys2Proof.Machine.execPtpDelayReqSend port peer txMac s
  | .ptpSyncLoss port => Sys2Proof.Machine.execPtpSyncLoss port s
  | .announceReceiptTimeout port => Sys2Proof.Machine.execAnnounceReceiptTimeout port s
  | .timeinPulse => Sys2Proof.Machine.execTimeinPulse s
  | .timeinLoss => Sys2Proof.Machine.execTimeinLoss s
  | .sourcePromotion => Sys2Proof.Machine.execSourcePromotion s
  | .stationTimeStep => Sys2Proof.Machine.execStationTimeStep s
  | .tickMappingUpdate => Sys2Proof.Machine.execTickMappingUpdate s
  | .sliceStart g => Sys2Proof.Machine.execSliceStart g s
  | .energyApportion e => Sys2Proof.Machine.execEnergyApportion e s
  | .slowdownSecond => Sys2Proof.Machine.execSlowdownSecond s
  | .modelSwitchCut => Sys2Proof.Machine.execModelSwitchCut s
  | .modelSwitchEnd => Sys2Proof.Machine.execModelSwitchEnd s
  | .ethFrameReceive port f => Sys2Proof.Machine.execEthFrameReceive port f s
  | .rtpDatagram d => Sys2Proof.Machine.execRtpDatagram d s
  | .reorderHoldExpiry k => Sys2Proof.Machine.execReorderHoldExpiry k s
  | .commandRingFetch => Sys2Proof.Machine.execCommandRingFetch s
  | .pushPayloadComplete k tick => Sys2Proof.Machine.execPushPayloadComplete k tick s
  | .decodePictureComplete d o => Sys2Proof.Machine.execDecodePictureComplete d o s
  | .decodeBudgetExhausted d o => Sys2Proof.Machine.execDecodeBudgetExhausted d o s
  | .secondSummary => Sys2Proof.Machine.execSecondSummary s
  | .journalRecordAppend => Sys2Proof.Machine.execJournalRecordAppend s
  | .journalMarkStart => Sys2Proof.Machine.execJournalMarkStart s
  | .journalMarkComplete ok => Sys2Proof.Machine.execJournalMarkComplete ok s
  | .preprocessStart a => Sys2Proof.Machine.execPreprocessStart a s
  | .preprocessComplete a stream tick page => Sys2Proof.Machine.execPreprocessComplete a stream tick page s
  | .pictureDeadline k tick => Sys2Proof.Machine.execPictureDeadline k tick s
  | .hostAssistClear a => Sys2Proof.Machine.execHostAssistClear a s
  | .batchStepBoundary g a => Sys2Proof.Machine.execBatchStepBoundary g a s
  | .tileStart p t => Sys2Proof.Machine.execTileStart p t s
  | .tileCommit p cycles => Sys2Proof.Machine.execTileCommit p cycles s
  | .operandParityError p cell => Sys2Proof.Machine.execOperandParityError p cell s
  | .descriptorAccessFault p => Sys2Proof.Machine.execDescriptorAccessFault p s
  | .voidOperand p => Sys2Proof.Machine.execVoidOperand p s
  | .tileWatchdogExpiry p => Sys2Proof.Machine.execTileWatchdogExpiry p s
  | .engineScrub p addr ecc => Sys2Proof.Machine.execEngineScrub p addr ecc s
  | .dmaCommand p cmd nextJob => Sys2Proof.Machine.execDmaCommand p cmd nextJob s
  | .dmaComplete p => Sys2Proof.Machine.execDmaComplete p s
  | .haloGroupReceived p port => Sys2Proof.Machine.execHaloGroupReceived p port s
  | .haloReleaseArrival p port => Sys2Proof.Machine.execHaloReleaseArrival p port s
  | .partArrival combiner sender job tile part parts => Sys2Proof.Machine.execPartArrival combiner sender job tile part parts s
  | .sendComplete p => Sys2Proof.Machine.execSendComplete p s
  | .assoc r cmd => Sys2Proof.Machine.execAssoc r cmd s
  | .nms r cmd => Sys2Proof.Machine.execNms r cmd s
  | .knn r cmd => Sys2Proof.Machine.execKnn r cmd s
  | .ident r cmd => Sys2Proof.Machine.execIdent r cmd s
  | .gather r cmd => Sys2Proof.Machine.execGather r cmd s
  | .scatter r cmd => Sys2Proof.Machine.execScatter r cmd s
  | .clearingCommandCommit d => Sys2Proof.Machine.execClearingCommandCommit d s
  | .clearingWatchdogExpiry r => Sys2Proof.Machine.execClearingWatchdogExpiry r s
  | .clearingVoidRead r addr => Sys2Proof.Machine.execClearingVoidRead r addr s
  | .writeLogOverflow r => Sys2Proof.Machine.execWriteLogOverflow r s
  | .clearingAuditCopy r differs => Sys2Proof.Machine.execClearingAuditCopy r differs s
  | .ledgerWriteback r slot => Sys2Proof.Machine.execLedgerWriteback r slot s
  | .quarantineEnd slot => Sys2Proof.Machine.execQuarantineEnd slot s
  | .ownershipHandoff k => Sys2Proof.Machine.execOwnershipHandoff k s
  | .clipRequest req src => Sys2Proof.Machine.execClipRequest req src s
  | .liveViewStart req src => Sys2Proof.Machine.execLiveViewStart req src s
  | .liveViewStop req src => Sys2Proof.Machine.execLiveViewStop req src s
  | .clipStart => Sys2Proof.Machine.execClipStart s
  | .sliceEmit n ident row => Sys2Proof.Machine.execSliceEmit n ident row s
  | .clipComplete n ident => Sys2Proof.Machine.execClipComplete n ident s
  | .preEventReclaim k => Sys2Proof.Machine.execPreEventReclaim k s
  | .encoderAssay n pass => Sys2Proof.Machine.execEncoderAssay n pass s
  | .adaptationJobStart => Sys2Proof.Machine.execAdaptationJobStart s
  | .adaptationStepComplete inputs => Sys2Proof.Machine.execAdaptationStepComplete inputs s
  | .adaptationGate candidate inForce => Sys2Proof.Machine.execAdaptationGate candidate inForce s
  | .adoptionRetry => Sys2Proof.Machine.execAdoptionRetry s
  | .voidRestore addr bytes => Sys2Proof.Machine.execVoidRestore addr bytes s
  | .auditCopy p differs void addr => Sys2Proof.Machine.execAuditCopy p differs void addr s
  | .auditThirdRun p agreesOriginal agreesAuditor void => Sys2Proof.Machine.execAuditThirdRun p agreesOriginal agreesAuditor void s
  | .auditSeedReplace g seed => Sys2Proof.Machine.execAuditSeedReplace g seed s
  | .strikeExpiry p => Sys2Proof.Machine.execStrikeExpiry p s
  | .engineRetest p => Sys2Proof.Machine.execEngineRetest p s
  | .engineAssayComplete r => Sys2Proof.Machine.execEngineAssayComplete r s
  | .engineRotation g => Sys2Proof.Machine.execEngineRotation g s
  | .decodeRotation => Sys2Proof.Machine.execDecodeRotation s
  | .decodeAssayComplete d pass => Sys2Proof.Machine.execDecodeAssayComplete d pass s
  | .engineHandoverCopyComplete p badGranules => Sys2Proof.Machine.execEngineHandoverCopyComplete p badGranules s
  | .handoverNoAnswer p => Sys2Proof.Machine.execHandoverNoAnswer p s
  | .supplyMonitorFault selfCheck unit => Sys2Proof.Machine.execSupplyMonitorFault selfCheck unit s
  | .chipFatal source unit => Sys2Proof.Machine.execChipFatal source unit s
  | .stopCutComplete => Sys2Proof.Machine.execStopCutComplete s
  | .zoneTensorComplete k tick page lanes => Sys2Proof.Machine.execZoneTensorComplete k tick page lanes s
  | .zoneEvalOutput o => Sys2Proof.Machine.execZoneEvalOutput o s
  | .zoneDeadline k tick => Sys2Proof.Machine.execZoneDeadline k tick s
  | .zonePeriodBoundary z selfCheckOk => Sys2Proof.Machine.execZonePeriodBoundary z selfCheckOk s
  | .zoneDecisionTimeout z => Sys2Proof.Machine.execZoneDecisionTimeout z s
  | .zoneHoldExpiry z => Sys2Proof.Machine.execZoneHoldExpiry z s
  | .safeHalfPeriod n sensedA sensedB => Sys2Proof.Machine.execSafeHalfPeriod n sensedA sensedB s
  | .panicLimit n port => Sys2Proof.Machine.execPanicLimit n port s
  | .dramRefresh n channel bank => Sys2Proof.Machine.execDramRefresh n channel bank s
  | .dramTempRead n celsius => Sys2Proof.Machine.execDramTempRead n celsius s
  | .dramRetrain n channel lanesRepaired failed0 failed1 => Sys2Proof.Machine.execDramRetrain n channel lanesRepaired failed0 failed1 s
  | .dramScrub addr onDie ecc => Sys2Proof.Machine.execDramScrub addr onDie ecc s
  | .regionScrub area addr ecc => Sys2Proof.Machine.execRegionScrub area addr ecc s
  | .softRepair n row => Sys2Proof.Machine.execSoftRepair n row s
  | .softRepairComplete n row => Sys2Proof.Machine.execSoftRepairComplete n row s
  | .journalRingDeliver count => Sys2Proof.Machine.execJournalRingDeliver count s
  | .journalIntModeration => Sys2Proof.Machine.execJournalIntModeration s
  | .hostReadFailure a => Sys2Proof.Machine.execHostReadFailure a s
  | .atsInvalidation base size => Sys2Proof.Machine.execAtsInvalidation base size s
  | .atsInvalidationComplete => Sys2Proof.Machine.execAtsInvalidationComplete s
  | .endpointReset e => Sys2Proof.Machine.execEndpointReset e s
  | .pcieLinkUp speed width => Sys2Proof.Machine.execPcieLinkUp speed width s
  | .d3hotEntry => Sys2Proof.Machine.execD3hotEntry s
  | .d0Return => Sys2Proof.Machine.execD0Return s
  | .bar2Write off bytes => Sys2Proof.Machine.execBar2Write off bytes s
  | .bar2Read off n => Sys2Proof.Machine.execBar2Read off n s
  | .cmdRingCtrlWrite value => Sys2Proof.Machine.execCmdRingCtrlWrite value s
  | .jrnlRingCtrlWrite value => Sys2Proof.Machine.execJrnlRingCtrlWrite value s
  | .netLinkChange n up fecLock mode => Sys2Proof.Machine.execNetLinkChange n up fecLock mode s
  | .heartbeatSend n => Sys2Proof.Machine.execHeartbeatSend n s
  | .sanorHeartbeat n h => Sys2Proof.Machine.execSanorHeartbeat n h s
  | .peerLost d => Sys2Proof.Machine.execPeerLost d s
  | .failoverRelease d => Sys2Proof.Machine.execFailoverRelease d s
  | .sanorAck d ack => Sys2Proof.Machine.execSanorAck d ack s
  | .sanorAckDue d => Sys2Proof.Machine.execSanorAckDue d s
  | .sanorRetransmit d seq => Sys2Proof.Machine.execSanorRetransmit d seq s
  | .sanorHandover d seq context embedding peerStream => Sys2Proof.Machine.execSanorHandover d seq context embedding peerStream s
  | .sanorHandoverAck d seq old new status => Sys2Proof.Machine.execSanorHandoverAck d seq old new status s
  | .handoverTimeout handle => Sys2Proof.Machine.execHandoverTimeout handle s
  | .sanorCloseCopy d seq handle => Sys2Proof.Machine.execSanorCloseCopy d seq handle s
  | .sanorQuery d seq number cls k embedding => Sys2Proof.Machine.execSanorQuery d seq number cls k embedding s
  | .sanorResult d seq number entries => Sys2Proof.Machine.execSanorResult d seq number entries s
  | .peerQueryTimeout number => Sys2Proof.Machine.execPeerQueryTimeout number s
  | .sanorReplica d seq stream tick index count fragment => Sys2Proof.Machine.execSanorReplica d seq stream tick index count fragment s
  | .exportDatagramSend dest => Sys2Proof.Machine.execExportDatagramSend dest s
  | .challenge random => Sys2Proof.Machine.execChallenge random s
  | .unlock => Sys2Proof.Machine.execUnlock s
  | .lock => Sys2Proof.Machine.execLock s
  | .attest => Sys2Proof.Machine.execAttest s
  | .attestComplete signature => Sys2Proof.Machine.execAttestComplete signature s
  | .programKey burnOk => Sys2Proof.Machine.execProgramKey burnOk s
  | .deploy => Sys2Proof.Machine.execDeploy s
  | .returnDevice => Sys2Proof.Machine.execReturnDevice s
  | .provisioning skSeed skPrf pubSeed root certificate => Sys2Proof.Machine.execProvisioning skSeed skPrf pubSeed root certificate s
  | .bottomTreeReady => Sys2Proof.Machine.execBottomTreeReady s
  | .unlockExpiry => Sys2Proof.Machine.execUnlockExpiry s
  | .challengeExpiry => Sys2Proof.Machine.execChallengeExpiry s
  | .traceCtrlWrite src value => Sys2Proof.Machine.execTraceCtrlWrite src value s
  | .traceBufferFlush cls inst => Sys2Proof.Machine.execTraceBufferFlush cls inst s
  | .arm w account => Sys2Proof.Machine.execArm w account s
  | .disarm w account => Sys2Proof.Machine.execDisarm w account s
  | .watchCopyComplete w slot sats hostWriteFailed => Sys2Proof.Machine.execWatchCopyComplete w slot sats hostWriteFailed s
  | .halt => Sys2Proof.Machine.execHalt s
  | .haltImmediate => Sys2Proof.Machine.execHaltImmediate s
  | .releaseHalt => Sys2Proof.Machine.execReleaseHalt s
  | .obsSelWrite src value => Sys2Proof.Machine.execObsSelWrite src value s
  | .jtagInstruction opcode => Sys2Proof.Machine.execJtagInstruction opcode s
  | .referenceClockLoss c => Sys2Proof.Machine.execReferenceClockLoss c s
  | .referenceClockReturn c => Sys2Proof.Machine.execReferenceClockReturn c s
  | .powerCapTick milliwatts celsius sensor => Sys2Proof.Machine.execPowerCapTick milliwatts celsius sensor s
  | .droopDetected d => Sys2Proof.Machine.execDroopDetected d s
  | .droopHoldEnd d => Sys2Proof.Machine.execDroopHoldEnd d s
  | .overLimitTemp celsius sensor => Sys2Proof.Machine.execOverLimitTemp celsius sensor s
  | .thermalTrip => Sys2Proof.Machine.execThermalTrip s
  | .gpioPulseEnd g => Sys2Proof.Machine.execGpioPulseEnd g s
  | .smbusSetOffset bytes pecOk => Sys2Proof.Machine.execSmbusSetOffset bytes pecOk s
  | .smbusWrite bytes pecOk => Sys2Proof.Machine.execSmbusWrite bytes pecOk s
  | .smbusRead count => Sys2Proof.Machine.execSmbusRead count s
  | .smbusTimeout => Sys2Proof.Machine.execSmbusTimeout s
  | .smbusAlertResponse => Sys2Proof.Machine.execSmbusAlertResponse s
  | .passbookUpdate => Sys2Proof.Machine.execPassbookUpdate s
  | .sliceNominalEnd p => Sys2Proof.Machine.execSliceNominalEnd p s
  | .configurationWrite f => Sys2Proof.Machine.execConfigurationWrite f s
  | .testLogicReset => Sys2Proof.Machine.execTestLogicReset s
  | .flashWriteComplete => Sys2Proof.Machine.execFlashWriteComplete s

end Sys2Proof.Machine
end

