-- ==== Sys2Proof/WellFormed.lean ====
section
/-! DEFINITION. Well-formed commands: every index and length lies in the range the manual gives its object (00 R12 and
the chapters named). What depends on the state is no part of it. -/

namespace Sys2Proof

/-- A stream number (00 R12). -/
def isStream (n : Nat) : Bool := decide (n < 1024)
/-- An account number (00 R12). -/
def isAccount (a : Nat) : Bool := decide (a < 64)
/-- A physical engine (00 R12). -/
def isEngine (p : Nat) : Bool := decide (p < 72)
/-- A region (00 R12). -/
def isRegion (g : Nat) : Bool := decide (g < 4)
/-- A clearing engine, one for each region (01 R29). -/
def isClearing (r : Nat) : Bool := decide (r < 4)
/-- A decode engine (01 R39). -/
def isDecoder (d : Nat) : Bool := decide (d < 18)
/-- An encoder (01 R40). -/
def isEncoder (n : Nat) : Bool := decide (n < 4)
/-- A zone (00 R12). -/
def isZoneIndex (z : Nat) : Bool := decide (z < 64)
/-- A safety channel (00 R12). -/
def isSafeChannel (n : Nat) : Bool := decide (n < 16)
/-- A device of the peer domain (00 R12). -/
def isDevice (d : Nat) : Bool := decide (d < 1024)
/-- An Ethernet port (18 R527). -/
def isPort (n : Nat) : Bool := decide (n < 2)
/-- A DRAM stack (16 R481). -/
def isStack (n : Nat) : Bool := decide (n < 2)
/-- A die-to-die bridge (01 R13). -/
def isBridge (b : Nat) : Bool := decide (b < 3)
/-- A halo port N, S, W or E (08 R283). -/
def isHaloPort (q : Nat) : Bool := decide (q < 4)
/-- A watch slot: of an account in its window, any by the privileged offsets (20 R582). -/
def isWatch (w : Nat) (account : Bool) : Bool := decide (w < if account then 64 else 68)
/-- A register access inside register space (00 R8, 16 R476). -/
def isRegister (off width : Nat) : Bool := decide (off + width ≤ 0x4000000)
/-- A byte list of one length. -/
def hasLength (bs : List Byte) (n : Nat) : Bool := decide (bs.length = n)

/-- The index that names a unit of a settlement. -/
def StlUnit.wf : StlUnit → Bool
  | .region g => isRegion g
  | .clearing r => isClearing r
  | .net n => isPort n
  | .ingest | .decode | .preproc | .encode | .journal | .time | .safety => true

/-- The index that names a controller. -/
def Ctrl.wf : Ctrl → Bool
  | .region g => isRegion g
  | .chip => true

/-- The index of a scrub area. -/
def ScrubArea.wf : ScrubArea → Bool
  | .region g => isRegion g
  | .ledgerCache r => isClearing r

/-- The index of a host access that fails. -/
def HostAccess.wf : HostAccess → Bool
  | .pushPayload n _ => isStream n
  | .dmaRead p _ => isEngine p
  | .ringFetch | .journalState | .journalWrite => true

/-- The indices of a command lie in their ranges. -/
def Instr.wf : Instr → Bool
  | .registerWrite _ off width _ => isRegister off width && decide (width ≤ 8)
  | .bar0UnalignedRead off n => isRegister off n
  | .timNowLowRead _ => true
  | .tillCyclesRead a _ => isAccount a
  | .ingPacketsRead s _ => isStream s
  | .engConvSatRead p _ => isEngine p
  | .engTilesRead p _ => isEngine p
  | .clrCommandsRead r _ => isClearing r
  | .encPicturesRead n _ => isEncoder n
  | .fltCorrectedRead _ => true
  | .safEvalsRead _ => true
  | .memCeRead n _ => isStack n
  | .netLnkCounterRead _ _ => true
  | .flitCrcReplay b lane => isBridge b && decide (lane < 768)
  | .laneSpare b lane => isBridge b && decide (lane < 768)
  | .bridgeHalfWidth l => isBridge l.bridge && decide (l.lane < 768)
  | .bridgeLost b => isBridge b
  | .chipArbGrant port _ _ => decide (port < 16)
  | .regionXbarGrant g port _ _ => isRegion g && decide (port < 32)
  | .engineBankGrant p bank _ => isEngine p && decide (bank < 16)
  | .operandNetworkCycle p _ _ => isEngine p
  | .cellPipelineCycle p _ => isEngine p
  | .regionWatchdogExpiry g => isRegion g
  | .regionRestartComplete g => isRegion g
  | .regionRestartTimeout g => isRegion g
  | .chipWatchdogExpiry => true
  | .chipControllerRestarted => true
  | .resetAssert _ => true
  | .pwrgoodFall => true
  | .bootStart straps => decide (straps.length = 4)
  | .directoryReadComplete => true
  | .dramTrainingComplete _ _ => true
  | .slotReadComplete => true
  | .firmwareStarted => true
  | .bootAssayComplete results => results.all fun r => isEngine r.engine
  | .adoptionHoldExpiry _ => true
  | .stlOpen _ _ => true
  | .stlStage _ _ count => decide (count < 65536)
  | .stlCheck _ _ => true
  | .commitAtTime _ _ => true
  | .commitAtEvent _ _ => true
  | .stlAbort _ _ => true
  | .stlDiscard _ _ => true
  | .flashProgram _ _ count => decide (count < 65536)
  | .flashProgramComplete _ => true
  | .verifySlot _ _ slot => decide (slot < 65536)
  | .verifySlotComplete => true
  | .charterUpdate _ _ => true
  | .reboot _ _ slot => decide (slot < 65536)
  | .rebootReset => true
  | .settlementPrepareAck u => u.wf
  | .preInstantRecheck => true
  | .epochInstant => true
  | .eventTimeout => true
  | .unitDrainRelease u => u.wf
  | .drainBoundExpiry => true
  | .rollingRestartNext _ => true
  | .controllerStartFailure c => c.wf
  | .ptpSync port _ _ _ _ _ _ => isPort port
  | .ptpFollowUp port _ _ _ _ => isPort port
  | .ptpAnnounce port _ _ => isPort port
  | .ptpDelayResp port _ _ _ _ => isPort port
  | .ptpPdelayMessage port _ _ _ _ _ => isPort port
  | .ptpDelayReqSend port _ _ => isPort port
  | .ptpSyncLoss port => isPort port
  | .announceReceiptTimeout port => isPort port
  | .timeinPulse => true
  | .timeinLoss => true
  | .sourcePromotion => true
  | .stationTimeStep => true
  | .tickMappingUpdate => true
  | .sliceStart g => isRegion g
  | .energyApportion _ => true
  | .slowdownSecond => true
  | .modelSwitchCut => true
  | .modelSwitchEnd => true
  | .ethFrameReceive port _ => isPort port
  | .rtpDatagram d => isPort d.port
  | .reorderHoldExpiry s => isStream s
  | .commandRingFetch => true
  | .pushPayloadComplete s _ => isStream s
  | .decodePictureComplete d _ => isDecoder d
  | .decodeBudgetExhausted d _ => isDecoder d
  | .secondSummary => true
  | .journalRecordAppend => true
  | .journalMarkStart => true
  | .journalMarkComplete _ => true
  | .preprocessStart a => isAccount a
  | .preprocessComplete a s _ _ => isAccount a && isStream s
  | .pictureDeadline s _ => isStream s
  | .hostAssistClear a => isAccount a
  | .batchStepBoundary g a => isRegion g && isAccount a
  | .tileStart p t => isEngine p && hasLength t.cmd 128
  | .tileCommit p _ => isEngine p
  | .operandParityError p cell => isEngine p && decide (cell < 8)
  | .descriptorAccessFault p => isEngine p
  | .voidOperand p => isEngine p
  | .tileWatchdogExpiry p => isEngine p
  | .engineScrub p addr _ => isEngine p && decide (addr < 0x400000)
  | .dmaCommand p cmd _ => isEngine p && hasLength cmd 128
  | .dmaComplete p => isEngine p
  | .haloGroupReceived p port => isEngine p && isHaloPort port
  | .haloReleaseArrival p port => isEngine p && isHaloPort port
  | .partArrival combiner sender _ _ _ _ => isEngine combiner && isEngine sender
  | .sendComplete p => isEngine p
  | .assoc r cmd => isClearing r && hasLength cmd 64
  | .nms r cmd => isClearing r && hasLength cmd 64
  | .knn r cmd => isClearing r && hasLength cmd 64
  | .ident r cmd => isClearing r && hasLength cmd 64
  | .gather r cmd => isClearing r && hasLength cmd 64
  | .scatter r cmd => isClearing r && hasLength cmd 64
  | .clearingCommandCommit d => isClearing d.engine
  | .clearingWatchdogExpiry r => isClearing r
  | .clearingVoidRead r _ => isClearing r
  | .writeLogOverflow r => isClearing r
  | .clearingAuditCopy r _ => isClearing r
  | .ledgerWriteback r slot => isClearing r && decide (slot < 2 ^ 20)
  | .quarantineEnd slot => decide (slot < 2 ^ 20)
  | .ownershipHandoff s => isStream s
  | .clipRequest req _ => hasLength req 64
  | .liveViewStart req _ => hasLength req 64
  | .liveViewStop req _ => hasLength req 64
  | .clipStart => true
  | .sliceEmit n _ _ => isEncoder n
  | .clipComplete n _ => isEncoder n
  | .preEventReclaim s => isStream s
  | .encoderAssay n _ => isEncoder n
  | .adaptationJobStart => true
  | .adaptationStepComplete _ => true
  | .adaptationGate _ _ => true
  | .adoptionRetry => true
  | .voidRestore _ bytes => hasLength bytes 64
  | .auditCopy p _ _ _ => isEngine p
  | .auditThirdRun p _ _ _ => isEngine p
  | .auditSeedReplace g _ => isRegion g
  | .strikeExpiry p => isEngine p
  | .engineRetest p => isEngine p
  | .engineAssayComplete r => isEngine r.engine
  | .engineRotation g => isRegion g
  | .decodeRotation => true
  | .decodeAssayComplete d _ => isDecoder d
  | .engineHandoverCopyComplete p _ => isEngine p
  | .handoverNoAnswer p => isEngine p
  | .supplyMonitorFault _ _ => true
  | .chipFatal _ _ => true
  | .stopCutComplete => true
  | .zoneTensorComplete s _ _ _ => isStream s
  | .zoneEvalOutput o => isStream o.stream && isEngine o.engine && decide (o.mapping < 3)
  | .zoneDeadline s _ => isStream s
  | .zonePeriodBoundary z _ => isZoneIndex z
  | .zoneDecisionTimeout z => isZoneIndex z
  | .zoneHoldExpiry z => isZoneIndex z
  | .safeHalfPeriod n _ _ => isSafeChannel n
  | .panicLimit n _ => isStack n
  | .dramRefresh n channel _ => isStack n && decide (channel < 16)
  | .dramTempRead n _ => isStack n
  | .dramRetrain n channel _ _ _ => isStack n && decide (channel < 16)
  | .dramScrub _ _ _ => true
  | .regionScrub area _ _ => area.wf
  | .softRepair n _ => isStack n
  | .softRepairComplete n _ => isStack n
  | .journalRingDeliver _ => true
  | .journalIntModeration => true
  | .hostReadFailure a => a.wf
  | .atsInvalidation _ _ => true
  | .atsInvalidationComplete => true
  | .endpointReset _ => true
  | .pcieLinkUp _ _ => true
  | .d3hotEntry => true
  | .d0Return => true
  | .bar2Write off bytes => decide (off + bytes.length ≤ 0x1000000000)
  | .bar2Read off n => decide (off + n ≤ 0x1000000000)
  | .cmdRingCtrlWrite _ => true
  | .jrnlRingCtrlWrite _ => true
  | .netLinkChange n _ _ _ => isPort n
  | .heartbeatSend n => isPort n
  | .sanorHeartbeat n h => isPort n && isDevice h.device
  | .peerLost d => isDevice d
  | .failoverRelease d => isDevice d
  | .sanorAck d _ => isDevice d
  | .sanorAckDue d => isDevice d
  | .sanorRetransmit d _ => isDevice d
  | .sanorHandover d _ _ _ _ => isDevice d
  | .sanorHandoverAck d _ _ _ _ => isDevice d
  | .handoverTimeout _ => true
  | .sanorCloseCopy d _ _ => isDevice d
  | .sanorQuery d _ _ _ _ _ => isDevice d
  | .sanorResult d _ _ _ => isDevice d
  | .peerQueryTimeout _ => true
  | .sanorReplica d _ stream _ _ _ _ => isDevice d && isStream stream
  | .exportDatagramSend dest => decide (dest < 4)
  | .challenge _ => true
  | .unlock => true
  | .lock => true
  | .attest => true
  | .attestComplete _ => true
  | .programKey _ => true
  | .deploy => true
  | .returnDevice => true
  | .provisioning _ _ _ _ _ => true
  | .bottomTreeReady => true
  | .unlockExpiry => true
  | .challengeExpiry => true
  | .traceCtrlWrite _ _ => true
  | .traceBufferFlush cls inst => decide (cls < 256) && decide (inst < 256)
  | .arm w account => isWatch w account
  | .disarm w account => isWatch w account
  | .watchCopyComplete w _ _ _ => decide (w < 68)
  | .halt => true
  | .haltImmediate => true
  | .releaseHalt => true
  | .obsSelWrite _ _ => true
  | .jtagInstruction opcode => decide (opcode < 256)
  | .referenceClockLoss _ => true
  | .referenceClockReturn _ => true
  | .powerCapTick _ _ _ => true
  | .droopDetected _ => true
  | .droopHoldEnd _ => true
  | .overLimitTemp _ _ => true
  | .thermalTrip => true
  | .gpioPulseEnd g => decide (g < 8)
  | .smbusSetOffset _ _ => true
  | .smbusWrite _ _ => true
  | .smbusRead _ => true
  | .smbusTimeout => true
  | .smbusAlertResponse => true
  | .passbookUpdate => true
  | .sliceNominalEnd p => isEngine p
  | .configurationWrite _ => true
  | .testLogicReset => true
  | .flashWriteComplete => true

end Sys2Proof
end

