-- ==== Sys2Proof/Safety.lean ====
section
/-! DEFINITION. What the claims are stated in: the invariant of stored data, the queue of well-formed commands, and the
parts of the state a command may write. -/

namespace Sys2Proof.Machine

/-- Strictly rising numbers. -/
def rising : List Nat → Bool
  | [] => true
  | a :: r => (r.all fun b => decide (a < b)) && rising r

/-- Memory and the void granules are in their canonical form: every byte is listed at most once, in rising order and
never as the value an unlisted byte reads as, and every void granule is listed once, in rising order (07 R244, 16 R476). -/
def State.Stored (s : State) : Prop := Memory.wf s.mem = true ∧ rising s.voids = true

/-- The waiting commands are well formed. -/
def State.QueueOk (s : State) : Prop := ∀ c ∈ s.pending, c.wf = true

/-- The parts of the state, one for each field. -/
inductive Part where
  | phase | boot | pins | power | fuses | flash | layout | cfg | cfgOld | stl | time | journal | streams | decs
  | accts | rolling | preConvSat | ingUnmatched | engines | halo | haloBack | regions | switch | clrs | ledger | encs | evidence | adapt
  | flt | saf | drams | pci | nets | lnk | sec | dbg | tills | devTills | bridges | arbs | passbook | mem
  | voids | smbOffset | latched | readback | poisoned | nak | free | pending
  deriving DecidableEq, Repr

/-- Two states agree in a part. -/
def Part.same (s t : State) : Part → Prop
  | .phase => t.phase = s.phase
  | .boot => t.boot = s.boot
  | .pins => t.pins = s.pins
  | .power => t.power = s.power
  | .fuses => t.fuses = s.fuses
  | .flash => t.flash = s.flash
  | .layout => t.layout = s.layout
  | .cfg => t.cfg = s.cfg
  | .cfgOld => t.cfgOld = s.cfgOld
  | .stl => t.stl = s.stl
  | .time => t.time = s.time
  | .journal => t.journal = s.journal
  | .streams => t.streams = s.streams
  | .decs => t.decs = s.decs
  | .accts => t.accts = s.accts
  | .rolling => t.rolling = s.rolling
  | .preConvSat => t.preConvSat = s.preConvSat
  | .ingUnmatched => t.ingUnmatched = s.ingUnmatched
  | .engines => t.engines = s.engines
  | .halo => t.halo = s.halo
  | .haloBack => t.haloBack = s.haloBack
  | .regions => t.regions = s.regions
  | .switch => t.switch = s.switch
  | .clrs => t.clrs = s.clrs
  | .ledger => t.ledger = s.ledger
  | .encs => t.encs = s.encs
  | .evidence => t.evidence = s.evidence
  | .adapt => t.adapt = s.adapt
  | .flt => t.flt = s.flt
  | .saf => t.saf = s.saf
  | .drams => t.drams = s.drams
  | .pci => t.pci = s.pci
  | .nets => t.nets = s.nets
  | .lnk => t.lnk = s.lnk
  | .sec => t.sec = s.sec
  | .dbg => t.dbg = s.dbg
  | .tills => t.tills = s.tills
  | .devTills => t.devTills = s.devTills
  | .bridges => t.bridges = s.bridges
  | .arbs => t.arbs = s.arbs
  | .passbook => t.passbook = s.passbook
  | .mem => t.mem = s.mem
  | .voids => t.voids = s.voids
  | .smbOffset => t.smbOffset = s.smbOffset
  | .latched => t.latched = s.latched
  | .readback => t.readback = s.readback
  | .poisoned => t.poisoned = s.poisoned
  | .nak => t.nak = s.nak
  | .free => t.free = s.free
  | .pending => t.pending = s.pending

/-- The parts a command may write; it leaves every other part of the state as it was (95: what each step holds). No command
writes the queue: the step alone takes from it. -/
def writes : Instr → List Part
  | .registerWrite _ _ _ _ => [.phase, .boot, .pins, .power, .fuses, .flash, .stl, .time, .journal, .streams, .decs, .accts,
      .rolling, .engines, .regions, .switch, .clrs, .ledger, .encs, .evidence, .adapt, .flt, .saf, .pci, .sec, .dbg, .devTills,
      .mem, .voids, .free]
  | .bar0UnalignedRead _ _ => [.latched, .readback, .poisoned]
  | .timNowLowRead _ => [.latched, .readback, .poisoned]
  | .tillCyclesRead _ _ => [.latched, .readback, .poisoned]
  | .ingPacketsRead _ _ => [.latched, .readback, .poisoned]
  | .engConvSatRead _ _ => [.latched, .readback, .poisoned]
  | .engTilesRead _ _ => [.latched, .readback, .poisoned]
  | .clrCommandsRead _ _ => [.latched, .readback, .poisoned]
  | .encPicturesRead _ _ => [.latched, .readback, .poisoned]
  | .fltCorrectedRead _ => [.latched, .readback, .poisoned]
  | .safEvalsRead _ => [.latched, .readback, .poisoned]
  | .memCeRead _ _ => [.latched, .readback, .poisoned]
  | .netLnkCounterRead _ _ => [.latched, .readback, .poisoned]
  | .flitCrcReplay _ _ => [.flt, .bridges]
  | .laneSpare _ _ => [.pins, .journal, .flt, .pci, .bridges]
  | .bridgeHalfWidth _ => [.phase, .pins, .flash, .stl, .journal, .streams, .decs, .accts, .engines, .regions, .switch, .clrs,
      .evidence, .flt, .saf, .pci, .sec, .dbg, .devTills, .bridges, .voids, .free]
  | .bridgeLost _ => [.phase, .pins, .flash, .stl, .journal, .streams, .decs, .accts, .engines, .regions, .switch, .clrs,
      .evidence, .flt, .saf, .pci, .sec, .dbg, .devTills, .bridges, .voids, .free]
  | .chipArbGrant _ _ _ => [.phase, .pins, .flash, .stl, .journal, .streams, .decs, .accts, .engines, .regions, .switch, .clrs,
      .evidence, .flt, .saf, .drams, .pci, .sec, .dbg, .devTills, .arbs, .mem, .voids, .free]
  | .regionXbarGrant _ _ _ _ => [.phase, .pins, .flash, .stl, .journal, .streams, .decs, .accts, .engines, .regions, .switch,
      .clrs, .evidence, .flt, .saf, .drams, .pci, .sec, .dbg, .devTills, .arbs, .mem, .voids, .free]
  | .engineBankGrant _ _ _ => [.pins, .journal, .engines, .flt, .pci, .mem, .voids]
  | .operandNetworkCycle _ _ _ => [.engines]
  | .cellPipelineCycle _ _ => [.pins, .flash, .stl, .journal, .engines, .regions, .adapt, .flt, .saf, .pci, .dbg, .devTills,
      .voids, .free]
  | .regionWatchdogExpiry _ => [.pins, .stl, .journal, .rolling, .engines, .regions, .clrs, .ledger, .adapt, .flt, .saf, .pci,
      .dbg, .free]
  | .regionRestartComplete _ => [.pins, .stl, .journal, .regions, .switch, .adapt, .pci, .dbg]
  | .regionRestartTimeout _ => [.pins, .stl, .time, .journal, .engines, .regions, .switch, .clrs, .ledger, .adapt, .flt, .saf,
      .pci, .dbg, .free]
  | .chipWatchdogExpiry => [.phase, .pins, .flash, .stl, .journal, .streams, .decs, .accts, .engines, .regions, .switch, .clrs,
      .evidence, .adapt, .flt, .saf, .pci, .sec, .dbg, .devTills, .voids, .free]
  | .chipControllerRestarted => [.boot, .pins, .stl, .journal, .adapt, .flt, .pci, .dbg, .mem, .voids]
  | .resetAssert _ => [.phase, .boot, .pins, .power, .flash, .cfg, .cfgOld, .stl, .time, .journal, .streams, .decs, .accts,
      .rolling, .preConvSat, .ingUnmatched, .engines, .halo, .haloBack, .regions, .switch, .clrs, .ledger, .encs, .evidence,
      .adapt, .flt, .saf, .drams, .pci, .nets, .lnk, .sec, .dbg, .tills, .devTills, .bridges, .arbs, .passbook, .mem, .voids,
      .smbOffset, .latched, .readback, .poisoned, .nak, .free]
  | .pwrgoodFall => [.phase, .boot, .pins, .power, .flash, .cfg, .cfgOld, .stl, .time, .journal, .streams, .decs, .accts,
      .rolling, .preConvSat, .ingUnmatched, .engines, .halo, .haloBack, .regions, .switch, .clrs, .ledger, .encs, .evidence,
      .adapt, .flt, .saf, .drams, .pci, .nets, .lnk, .sec, .dbg, .tills, .devTills, .bridges, .arbs, .passbook, .mem, .voids,
      .smbOffset, .latched, .readback, .poisoned, .nak]
  | .bootStart _ => [.phase, .boot, .pins, .journal, .dbg, .passbook, .free]
  | .directoryReadComplete => [.boot]
  | .dramTrainingComplete _ _ => [.phase, .boot, .pins, .flash, .stl, .journal, .streams, .decs, .accts, .engines, .regions,
      .switch, .clrs, .evidence, .flt, .saf, .drams, .pci, .sec, .dbg, .devTills, .voids, .free]
  | .slotReadComplete => [.phase, .boot, .pins, .journal, .saf, .pci, .mem, .voids]
  | .firmwareStarted => [.boot, .regions, .mem, .voids]
  | .bootAssayComplete _ => [.phase, .boot, .pins, .fuses, .flash, .layout, .cfg, .stl, .journal, .streams, .decs, .engines,
      .regions, .adapt, .flt, .saf, .pci, .dbg, .mem, .voids, .free]
  | .adoptionHoldExpiry _ => [.boot, .fuses, .time, .journal]
  | .stlOpen _ _ => [.stl, .dbg]
  | .stlStage _ _ _ => [.stl, .dbg]
  | .stlCheck _ _ => [.stl, .dbg]
  | .commitAtTime _ _ => [.pins, .stl, .journal, .adapt, .pci, .dbg]
  | .commitAtEvent _ _ => [.pins, .stl, .journal, .adapt, .pci, .dbg]
  | .stlAbort _ _ => [.pins, .stl, .adapt, .pci, .dbg]
  | .stlDiscard _ _ => [.stl, .dbg]
  | .flashProgram _ _ _ => [.flash, .stl, .journal, .sec, .dbg]
  | .flashProgramComplete _ => [.flash, .stl, .dbg, .free]
  | .verifySlot _ _ _ => [.stl, .dbg]
  | .verifySlotComplete => [.stl, .dbg]
  | .charterUpdate _ _ => [.phase, .boot, .pins, .flash, .stl, .journal, .streams, .decs, .accts, .rolling, .engines, .regions,
      .switch, .clrs, .ledger, .evidence, .adapt, .flt, .saf, .pci, .sec, .dbg, .devTills, .mem, .voids, .free]
  | .reboot _ _ _ => [.boot, .stl, .dbg]
  | .rebootReset => [.phase, .boot, .pins, .power, .flash, .cfg, .cfgOld, .stl, .time, .journal, .streams, .decs, .accts,
      .rolling, .preConvSat, .ingUnmatched, .engines, .halo, .haloBack, .regions, .switch, .clrs, .ledger, .encs, .evidence,
      .adapt, .flt, .saf, .drams, .pci, .nets, .lnk, .sec, .dbg, .tills, .devTills, .bridges, .arbs, .passbook, .mem, .voids,
      .smbOffset, .latched, .readback, .poisoned, .nak]
  | .settlementPrepareAck _ => [.pins, .stl, .journal, .adapt, .pci, .dbg]
  | .preInstantRecheck => [.pins, .stl, .time, .journal, .adapt, .pci, .dbg]
  | .epochInstant => [.pins, .flash, .layout, .cfg, .cfgOld, .stl, .time, .journal, .streams, .regions, .switch, .clrs,
      .ledger, .evidence, .adapt, .saf, .pci, .lnk, .dbg, .mem, .voids, .free]
  | .eventTimeout => [.pins, .stl, .time, .journal, .adapt, .pci, .dbg]
  | .unitDrainRelease _ => [.pins, .flash, .cfgOld, .stl, .journal, .streams, .clrs, .ledger, .pci, .lnk, .dbg]
  | .drainBoundExpiry => [.pins, .flash, .cfgOld, .stl, .time, .journal, .streams, .decs, .accts, .rolling, .engines, .regions,
      .clrs, .ledger, .encs, .evidence, .saf, .pci, .lnk, .dbg, .devTills, .voids, .free]
  | .rollingRestartNext _ => [.phase, .boot, .pins, .flash, .stl, .time, .journal, .streams, .decs, .accts, .rolling, .engines,
      .regions, .switch, .clrs, .ledger, .evidence, .adapt, .flt, .saf, .pci, .sec, .dbg, .devTills, .mem, .voids, .free]
  | .controllerStartFailure _ => [.stl, .journal, .dbg]
  | .ptpSync _ _ _ _ _ _ _ => [.pins, .flash, .layout, .cfg, .cfgOld, .stl, .time, .journal, .streams, .decs, .accts, .rolling,
      .engines, .regions, .switch, .clrs, .ledger, .encs, .evidence, .adapt, .saf, .pci, .lnk, .dbg, .devTills, .mem, .voids,
      .free]
  | .ptpFollowUp _ _ _ _ _ => [.pins, .flash, .layout, .cfg, .cfgOld, .stl, .time, .journal, .streams, .decs, .accts, .rolling,
      .engines, .regions, .switch, .clrs, .ledger, .encs, .evidence, .adapt, .saf, .pci, .lnk, .dbg, .devTills, .mem, .voids,
      .free]
  | .ptpAnnounce _ _ _ => [.time]
  | .ptpDelayResp _ _ _ _ _ => [.time]
  | .ptpPdelayMessage _ _ _ _ _ _ => [.time, .nets]
  | .ptpDelayReqSend _ _ _ => [.time, .nets]
  | .ptpSyncLoss _ => [.pins, .time, .journal, .pci, .dbg, .free]
  | .announceReceiptTimeout _ => [.pins, .time, .journal, .pci, .dbg, .free]
  | .timeinPulse => [.pins, .flash, .layout, .cfg, .cfgOld, .stl, .time, .journal, .streams, .decs, .accts, .rolling, .engines,
      .regions, .switch, .clrs, .ledger, .encs, .evidence, .adapt, .saf, .pci, .lnk, .dbg, .devTills, .mem, .voids, .free]
  | .timeinLoss => [.pins, .time, .journal, .pci, .dbg, .free]
  | .sourcePromotion => [.pins, .time, .journal, .pci, .dbg, .free]
  | .stationTimeStep => [.pins, .flash, .layout, .cfg, .cfgOld, .stl, .time, .journal, .streams, .decs, .accts, .rolling,
      .engines, .regions, .switch, .clrs, .ledger, .encs, .evidence, .adapt, .saf, .pci, .lnk, .dbg, .devTills, .mem, .voids,
      .free]
  | .tickMappingUpdate => [.time, .streams]
  | .sliceStart _ => [.time, .engines, .regions, .adapt, .dbg]
  | .energyApportion _ => [.time, .tills, .devTills]
  | .slowdownSecond => [.time, .journal, .tills]
  | .modelSwitchCut => [.regions, .switch]
  | .modelSwitchEnd => [.time, .journal, .streams, .rolling, .regions, .switch, .free]
  | .ethFrameReceive _ _ => [.nets]
  | .rtpDatagram _ => [.pins, .flash, .layout, .cfg, .cfgOld, .stl, .time, .journal, .streams, .decs, .ingUnmatched, .regions,
      .switch, .clrs, .ledger, .encs, .evidence, .adapt, .saf, .pci, .nets, .lnk, .dbg, .tills, .mem, .voids, .free]
  | .reorderHoldExpiry _ => [.time, .journal, .streams, .decs, .encs, .evidence, .dbg, .tills, .free]
  | .commandRingFetch => [.pins, .time, .journal, .streams, .decs, .accts, .rolling, .encs, .evidence, .adapt, .pci, .dbg,
      .mem, .free]
  | .pushPayloadComplete _ _ => [.pins, .flash, .layout, .cfg, .cfgOld, .stl, .time, .journal, .streams, .decs, .regions,
      .switch, .clrs, .ledger, .encs, .evidence, .adapt, .saf, .pci, .lnk, .dbg, .tills, .mem, .voids, .free]
  | .decodePictureComplete _ _ => [.pins, .stl, .journal, .streams, .decs, .accts, .clrs, .ledger, .encs, .evidence, .adapt,
      .flt, .saf, .pci, .dbg, .tills, .mem, .voids, .free]
  | .decodeBudgetExhausted _ _ => [.pins, .stl, .journal, .streams, .decs, .accts, .clrs, .ledger, .encs, .evidence, .adapt,
      .flt, .saf, .pci, .dbg, .tills, .mem, .voids, .free]
  | .secondSummary => [.time, .journal, .streams, .accts, .ledger, .encs, .flt, .saf, .lnk]
  | .journalRecordAppend => [.pins, .journal, .lnk, .mem, .voids]
  | .journalMarkStart => [.time, .journal]
  | .journalMarkComplete _ => [.journal, .free]
  | .preprocessStart _ => [.journal, .streams, .accts]
  | .preprocessComplete _ _ _ _ => [.journal, .streams, .accts, .rolling, .preConvSat, .tills, .mem, .voids]
  | .pictureDeadline _ _ => [.time, .streams, .accts, .rolling]
  | .hostAssistClear _ => [.time, .journal, .streams, .accts]
  | .batchStepBoundary _ _ => [.journal, .streams, .rolling, .engines, .regions, .nets, .lnk, .dbg, .tills, .free]
  | .tileStart _ _ => [.time, .journal, .streams, .rolling, .engines, .regions, .adapt, .dbg, .tills]
  | .tileCommit _ _ => [.pins, .flash, .stl, .journal, .engines, .haloBack, .regions, .adapt, .flt, .saf, .pci, .dbg, .tills,
      .devTills, .mem, .voids]
  | .operandParityError _ _ => [.pins, .flash, .stl, .journal, .engines, .regions, .adapt, .flt, .saf, .pci, .dbg, .devTills,
      .voids, .free]
  | .descriptorAccessFault _ => [.pins, .flash, .stl, .journal, .streams, .rolling, .engines, .regions, .adapt, .flt, .saf,
      .pci, .dbg, .devTills, .voids]
  | .voidOperand _ => [.pins, .flash, .stl, .journal, .streams, .rolling, .engines, .regions, .adapt, .flt, .saf, .pci, .dbg,
      .devTills, .voids]
  | .tileWatchdogExpiry _ => [.pins, .flash, .stl, .time, .journal, .streams, .rolling, .engines, .regions, .adapt, .flt, .saf,
      .pci, .dbg, .devTills, .voids, .free]
  | .engineScrub _ _ _ => [.pins, .journal, .engines, .flt, .pci, .voids]
  | .dmaCommand _ _ _ => [.engines, .regions]
  | .dmaComplete _ => [.phase, .boot, .pins, .power, .fuses, .flash, .stl, .time, .journal, .streams, .decs, .accts, .rolling,
      .engines, .halo, .regions, .switch, .clrs, .ledger, .encs, .evidence, .adapt, .flt, .saf, .pci, .sec, .dbg, .tills,
      .devTills, .mem, .voids, .free]
  | .haloGroupReceived _ _ => [.engines, .halo, .mem, .voids]
  | .haloReleaseArrival _ _ => [.engines, .haloBack]
  | .partArrival _ _ _ _ _ _ => [.pins, .flash, .stl, .journal, .engines, .regions, .adapt, .flt, .saf, .pci, .dbg, .mem, .voids]
  | .sendComplete _ => [.engines, .mem, .voids]
  | .assoc _ _ => [.pins, .journal, .streams, .rolling, .clrs, .flt, .pci, .dbg]
  | .nms _ _ => [.pins, .journal, .streams, .rolling, .clrs, .flt, .pci, .dbg]
  | .knn _ _ => [.pins, .journal, .streams, .rolling, .clrs, .flt, .pci, .dbg]
  | .ident _ _ => [.pins, .journal, .streams, .rolling, .clrs, .flt, .pci, .dbg]
  | .gather _ _ => [.pins, .journal, .streams, .rolling, .clrs, .flt, .pci, .dbg]
  | .scatter _ _ => [.pins, .journal, .streams, .rolling, .clrs, .flt, .pci, .dbg]
  | .clearingCommandCommit _ => [.journal, .streams, .regions, .clrs, .ledger, .evidence, .adapt, .nets, .lnk, .dbg, .tills,
      .mem, .voids, .free]
  | .clearingWatchdogExpiry _ => [.pins, .journal, .streams, .rolling, .clrs, .flt, .pci, .dbg]
  | .clearingVoidRead _ _ => [.journal, .streams, .rolling, .clrs, .ledger, .dbg, .mem, .voids]
  | .writeLogOverflow _ => [.journal, .streams, .rolling, .clrs, .dbg]
  | .clearingAuditCopy _ _ => [.pins, .stl, .journal, .clrs, .ledger, .adapt, .flt, .pci, .dbg, .free]
  | .ledgerWriteback _ _ => [.clrs]
  | .quarantineEnd _ => [.time, .ledger]
  | .ownershipHandoff _ => [.clrs, .ledger]
  | .clipRequest _ _ => [.journal, .streams, .decs, .encs, .evidence, .dbg, .free]
  | .liveViewStart _ _ => [.journal, .streams, .decs, .encs, .evidence, .dbg, .free]
  | .liveViewStop _ _ => [.journal, .streams, .decs, .encs, .evidence, .dbg, .free]
  | .clipStart => [.journal, .streams, .decs, .encs, .evidence, .dbg, .free]
  | .sliceEmit _ _ _ => [.journal, .encs, .evidence]
  | .clipComplete _ _ => [.journal, .streams, .encs, .evidence]
  | .preEventReclaim _ => [.streams]
  | .encoderAssay _ _ => [.pins, .stl, .time, .journal, .streams, .decs, .encs, .evidence, .adapt, .flt, .saf, .pci, .dbg, .free]
  | .adaptationJobStart => [.time, .journal, .adapt]
  | .adaptationStepComplete _ => [.flash, .preConvSat, .engines, .adapt, .dbg]
  | .adaptationGate _ _ => [.stl, .journal, .preConvSat, .adapt, .dbg]
  | .adoptionRetry => [.stl, .journal, .adapt, .dbg]
  | .voidRestore _ _ => [.mem, .voids]
  | .auditCopy _ _ _ _ => [.pins, .flash, .stl, .journal, .streams, .rolling, .engines, .regions, .adapt, .flt, .saf, .pci,
      .dbg, .devTills, .voids]
  | .auditThirdRun _ _ _ _ => [.pins, .flash, .stl, .journal, .streams, .rolling, .engines, .regions, .adapt, .flt, .saf, .pci,
      .dbg, .devTills, .voids]
  | .auditSeedReplace _ _ => [.time, .journal, .regions, .flt]
  | .strikeExpiry _ => [.time, .engines]
  | .engineRetest _ => [.time, .engines]
  | .engineAssayComplete _ => [.pins, .flash, .stl, .journal, .engines, .regions, .adapt, .flt, .saf, .pci, .dbg]
  | .engineRotation _ => [.flash, .time, .journal, .engines]
  | .decodeRotation => [.pins, .stl, .time, .journal, .streams, .decs, .adapt, .flt, .saf, .pci, .dbg, .free]
  | .decodeAssayComplete _ _ => [.pins, .stl, .journal, .streams, .decs, .encs, .evidence, .adapt, .flt, .saf, .pci, .dbg, .free]
  | .engineHandoverCopyComplete _ _ => [.pins, .flash, .stl, .journal, .engines, .regions, .adapt, .flt, .saf, .pci, .dbg,
      .mem, .voids]
  | .handoverNoAnswer _ => [.pins, .flash, .stl, .time, .journal, .engines, .regions, .adapt, .flt, .saf, .pci, .dbg, .voids]
  | .supplyMonitorFault _ _ => [.phase, .pins, .flash, .stl, .journal, .streams, .decs, .accts, .engines, .regions, .switch,
      .clrs, .evidence, .flt, .saf, .pci, .sec, .dbg, .devTills, .voids, .free]
  | .chipFatal _ _ => [.phase, .pins, .flash, .stl, .journal, .streams, .decs, .accts, .engines, .regions, .switch, .clrs,
      .evidence, .flt, .saf, .pci, .sec, .dbg, .devTills, .voids, .free]
  | .stopCutComplete => [.flt]
  | .zoneTensorComplete _ _ _ _ => [.pins, .stl, .journal, .streams, .preConvSat, .saf, .pci, .mem, .voids]
  | .zoneEvalOutput _ => [.pins, .flash, .stl, .journal, .engines, .regions, .adapt, .flt, .saf, .pci, .dbg]
  | .zoneDeadline _ _ => [.pins, .stl, .time, .journal, .streams, .saf, .pci, .dbg]
  | .zonePeriodBoundary _ _ => [.phase, .pins, .flash, .stl, .time, .journal, .streams, .decs, .accts, .engines, .regions,
      .switch, .clrs, .evidence, .flt, .saf, .pci, .sec, .dbg, .devTills, .voids, .free]
  | .zoneDecisionTimeout _ => [.pins, .time, .journal, .saf, .pci]
  | .zoneHoldExpiry _ => [.pins, .time, .journal, .saf, .pci]
  | .safeHalfPeriod _ _ _ => [.pins, .journal, .saf, .pci]
  | .panicLimit _ _ => [.time, .drams]
  | .dramRefresh _ _ _ => [.drams]
  | .dramTempRead _ _ => [.time, .drams]
  | .dramRetrain _ _ _ _ _ => [.phase, .pins, .flash, .stl, .journal, .streams, .decs, .accts, .engines, .regions, .switch,
      .clrs, .evidence, .flt, .saf, .drams, .pci, .sec, .dbg, .devTills, .voids, .free]
  | .dramScrub _ _ _ => [.phase, .pins, .flash, .stl, .journal, .streams, .decs, .accts, .engines, .regions, .switch, .clrs,
      .evidence, .flt, .saf, .drams, .pci, .sec, .dbg, .devTills, .voids, .free]
  | .regionScrub _ _ _ => [.pins, .journal, .clrs, .flt, .pci, .voids]
  | .softRepair _ _ => [.drams]
  | .softRepairComplete _ _ => [.flash, .drams]
  | .journalRingDeliver _ => [.pins, .journal, .pci, .mem]
  | .journalIntModeration => [.pins, .time, .pci]
  | .hostReadFailure _ => [.phase, .boot, .pins, .power, .fuses, .flash, .stl, .time, .journal, .streams, .decs, .accts,
      .rolling, .engines, .halo, .regions, .switch, .clrs, .ledger, .encs, .evidence, .adapt, .flt, .saf, .pci, .sec, .dbg,
      .tills, .devTills, .mem, .voids, .free]
  | .atsInvalidation _ _ => [.pci]
  | .atsInvalidationComplete => [.pci]
  | .endpointReset _ => [.pins, .stl, .journal, .streams, .accts, .pci, .dbg]
  | .pcieLinkUp _ _ => [.pins, .pci]
  | .d3hotEntry => [.pins, .pci]
  | .d0Return => [.pins, .pci]
  | .bar2Write _ _ => [.pci, .mem, .voids]
  | .bar2Read _ _ => [.readback, .poisoned, .free]
  | .cmdRingCtrlWrite _ => [.stl, .journal, .streams, .accts, .pci]
  | .jrnlRingCtrlWrite _ => [.stl, .journal, .pci]
  | .netLinkChange _ _ _ _ => [.journal, .nets]
  | .heartbeatSend _ => [.time, .nets, .lnk]
  | .sanorHeartbeat _ _ => [.stl, .journal, .lnk, .dbg]
  | .peerLost _ => [.stl, .time, .journal, .ledger, .lnk, .dbg, .mem, .voids]
  | .failoverRelease _ => [.stl, .time, .journal, .lnk, .dbg]
  | .sanorAck _ _ => [.lnk]
  | .sanorAckDue _ => [.time, .nets, .lnk]
  | .sanorRetransmit _ _ => [.time, .journal, .ledger, .nets, .lnk]
  | .sanorHandover _ _ _ _ _ => [.journal, .clrs, .ledger, .nets, .lnk]
  | .sanorHandoverAck _ _ _ _ _ => [.journal, .clrs, .ledger, .nets, .lnk]
  | .handoverTimeout _ => [.time, .journal, .ledger]
  | .sanorCloseCopy _ _ _ => [.journal, .clrs, .ledger, .lnk]
  | .sanorQuery _ _ _ _ _ _ => [.nets, .lnk]
  | .sanorResult _ _ _ _ => [.journal, .lnk, .mem, .voids]
  | .peerQueryTimeout _ => [.time, .journal, .lnk, .mem, .voids]
  | .sanorReplica _ _ _ _ _ _ _ => [.lnk]
  | .exportDatagramSend _ => [.time, .nets, .lnk]
  | .challenge _ => [.sec]
  | .unlock => [.pins, .journal, .sec, .dbg]
  | .lock => [.pins, .stl, .journal, .streams, .decs, .accts, .rolling, .engines, .clrs, .encs, .evidence, .flt, .saf, .pci,
      .sec, .dbg, .free]
  | .attest => [.fuses, .flash, .stl, .journal, .sec]
  | .attestComplete _ => [.flash, .sec, .free]
  | .programKey _ => [.fuses, .stl, .journal, .sec, .free]
  | .deploy => [.pins, .fuses, .stl, .journal, .sec, .dbg]
  | .returnDevice => [.pins, .fuses, .stl, .journal, .sec, .dbg]
  | .provisioning _ _ _ _ _ => [.pins, .fuses, .stl, .journal, .sec, .dbg]
  | .bottomTreeReady => [.sec]
  | .unlockExpiry => [.pins, .stl, .time, .journal, .streams, .decs, .accts, .rolling, .engines, .clrs, .encs, .evidence, .flt,
      .saf, .pci, .sec, .dbg, .free]
  | .challengeExpiry => [.time, .sec]
  | .traceCtrlWrite _ _ => [.stl, .journal, .dbg]
  | .traceBufferFlush _ _ => [.journal, .dbg, .mem, .voids]
  | .arm _ _ => [.stl, .dbg]
  | .disarm _ _ => [.stl, .journal, .dbg]
  | .watchCopyComplete _ _ _ _ => [.journal, .pci, .dbg, .devTills, .mem, .voids, .free]
  | .halt => [.pins, .stl, .journal, .streams, .decs, .accts, .engines, .regions, .clrs, .evidence, .flt, .saf, .pci, .dbg,
      .devTills, .voids, .free]
  | .haltImmediate => [.pins, .stl, .journal, .streams, .decs, .accts, .engines, .regions, .clrs, .evidence, .flt, .saf, .pci,
      .dbg, .devTills, .voids, .free]
  | .releaseHalt => [.pins, .stl, .journal, .streams, .decs, .accts, .rolling, .engines, .clrs, .encs, .evidence, .flt, .saf,
      .pci, .dbg, .free]
  | .obsSelWrite _ _ => [.pins, .stl, .journal, .dbg]
  | .jtagInstruction _ => [.journal, .dbg]
  | .referenceClockLoss _ => [.phase, .pins, .flash, .stl, .journal, .streams, .decs, .accts, .engines, .regions, .switch,
      .clrs, .evidence, .flt, .saf, .pci, .nets, .sec, .dbg, .devTills, .voids, .free]
  | .referenceClockReturn _ => [.pins]
  | .powerCapTick _ _ _ => [.power, .time, .accts, .free]
  | .droopDetected _ => [.pins, .power, .flash, .stl, .journal, .accts, .engines, .regions, .adapt, .flt, .saf, .pci, .dbg,
      .devTills, .voids, .free]
  | .droopHoldEnd _ => [.power, .time, .accts]
  | .overLimitTemp _ _ => [.power, .journal, .flt]
  | .thermalTrip => [.phase, .pins, .flash, .stl, .journal, .streams, .decs, .accts, .engines, .regions, .switch, .clrs,
      .evidence, .flt, .saf, .pci, .sec, .dbg, .devTills, .voids, .free]
  | .gpioPulseEnd _ => [.pins, .time]
  | .smbusSetOffset _ _ => [.smbOffset, .nak]
  | .smbusWrite _ _ => [.phase, .boot, .pins, .power, .fuses, .flash, .stl, .time, .journal, .streams, .decs, .accts, .rolling,
      .engines, .regions, .switch, .clrs, .ledger, .encs, .evidence, .adapt, .flt, .saf, .pci, .sec, .dbg, .devTills, .mem,
      .voids, .smbOffset, .nak, .free]
  | .smbusRead _ => [.smbOffset, .latched, .readback, .poisoned, .nak]
  | .smbusTimeout => [.readback, .nak]
  | .smbusAlertResponse => [.readback, .nak]
  | .passbookUpdate => [.passbook]
  | .sliceNominalEnd _ => [.time, .engines, .regions, .tills]
  | .configurationWrite _ => [.pins, .pci]
  | .testLogicReset => [.dbg]
  | .flashWriteComplete => [.boot, .fuses, .flash, .stl, .journal, .adapt, .dbg]

/-- A read that latches a group of `n` words after the one at `off`: alone it returns that word, wide it returns that word and
the next, and either way every word of the group is latched as it stood until it is read. -/
def LatchingRead (s : State) (c : Bool → Instr) (off n : Nat) : Prop :=
  s.answers = true →
    (∃ t, exec (c false) s = .next t ∧ t.readback = leBytes 4 (s.liveWord off)
      ∧ ∀ i, i < n → (off + 4 * (i + 1), BitVec.ofNat 32 (s.liveWord (off + 4 * (i + 1)))) ∈ t.latched)
    ∧ ∃ t, exec (c true) s = .next t ∧ t.readback = leBytes 4 (s.liveWord off) ++ leBytes 4 (s.liveWord (off + 4) % 2 ^ 32)
      ∧ ∀ i, i < n → 0 < i → (off + 4 * (i + 1), BitVec.ofNat 32 (s.liveWord (off + 4 * (i + 1)))) ∈ t.latched

/-- The command writes no byte of memory outside the places of the journal's records (04 R162). -/
def KeepsOutsideJournal (c : Instr) : Prop :=
  ∀ (s t : State) (a : Nat), exec c s = .next t → (∀ q, a < t.recordAddr q ∨ t.recordAddr q + 128 ≤ a) → t.byte a = s.byte a

/-- No word of a register access lies in the settlement block (02 R81), whose commands may reach memory. -/
def outsideSettlement (s : State) (src : Src) (off width v : Nat) : Prop :=
  ∀ w ∈ writeWords s src off width v, ∀ o, w.1 = some o → o < 0x50000 ∨ 0x51000 ≤ o

end Sys2Proof.Machine
end

