-- ==== Sys2Proof/Certificates/Slice0/Obligations.lean ====
section
/-! DEFINITION. The statements about the block, family by family, for the provers. -/

open Sys2Proof Sys2Proof.Machine

/-! ## The machine as a whole -/

/-- The state right after reset (02 R60, R64, 03 R94, 04 R162, 16 R476, 21 R604, R606): the device is held in reset with power good, nothing is
configured, no record waits and none is numbered, time stands at zero and no command waits; a byte that nothing has written reads 0 (log entry 3: the
model's choice). Stored data is canonical right after reset. The queue right after reset is well formed. -/
def Obligations.ResetLeavesItsState : Prop :=
  (State.reset.phase = .inReset ∧ State.reset.pending = [] ∧ State.reset.mem = [] ∧ State.reset.voids = []
    ∧ State.reset.stl.epoch = 0 ∧ State.reset.stl.batch = none ∧ State.reset.cfg.streams = [] ∧ State.reset.cfg.zones = []
    ∧ State.reset.time.elapsed = 0 ∧ State.reset.journal.waiting = [] ∧ State.reset.journal.next = 0
    ∧ State.reset.pci.cmdEnable = false ∧ State.reset.pci.jrnEnable = false ∧ State.reset.pci.up = false
    ∧ State.reset.pci.intCause = 0 ∧ State.reset.dbg.traceState = 0 ∧ (∀ a, State.reset.byte a = 0))
  ∧ (State.reset.Stored)
  ∧ (State.reset.QueueOk)

/-- A step takes the command at the front of the queue and runs it with the queue's rest. -/
def Obligations.StepRunsFrontCommand : Prop :=
  ∀ (c : Instr) (rest : List Instr) (s : State), s.pending = c :: rest → step s = exec c { s with pending := rest }

/-- Every command leaves every part of the state outside the list of parts it may write as it was, and none of these lists holds the queue. -/
def Obligations.EveryCommandKeepsItsFrame : Prop :=
  ∀ (c : Instr) (s t : State), exec c s = .next t → ∀ p : Part, p ∉ writes c → p.same s t

/-- Every command gives a next state in every state: no fault and no refusal (log entry 4). -/
def Obligations.EveryCommandGivesANextState : Prop :=
  ∀ (c : Instr) (s : State), ∃ t, exec c s = .next t

/-- Every step keeps stored data canonical: memory lists each byte once, rising, none zero, and the void granules rise. -/
def Obligations.StepKeepsStoredDataCanonical : Prop :=
  ∀ s t : State, s.Stored → step s = .next t → t.Stored

/-- Every step keeps the queue well formed and takes exactly its front command: first in, first out. With no command waiting one control cycle of 1 ns of
elapsed time passes, outside reset, and nothing but time moves (log entry 1: the model's choice). -/
def Obligations.QueueIsFirstInFirstOut : Prop :=
  (∀ s t : State, s.QueueOk → step s = .next t → t.QueueOk ∧ t.pending = s.pending.tail)
  ∧ ((∀ s : State, s.pending = [] → s.phase ≠ .inReset →
    ∃ t, step s = .next t ∧ t.time.elapsed = s.time.elapsed + 1 ∧ t = { s with time := t.time })
  ∧ ∀ s : State, s.pending = [] → s.phase = .inReset → step s = .next s)

/-- The configuration in force changes only where an epoch instant passes, at start and at a reset: no other command moves the epoch configuration (02
R71, R73). A clock that steps or an access unit that fixes an event instant can pass one. Nothing but a reset leaves the safe state, and no reset or
power loss changes a fuse (14 R434, 19 R551). -/
def Obligations.ConfigurationSafeStateAndFusesStand : Prop :=
  (∀ (c : Instr) (s t : State), exec c s = .next t → t.cfg ≠ s.cfg →
    c = .epochInstant ∨ c = .stationTimeStep ∨ c = .timeinPulse ∨ (∃ p a b w o k r, c = .ptpSync p a b w o k r)
      ∨ (∃ p a b o k, c = .ptpFollowUp p a b o k) ∨ (∃ d, c = .rtpDatagram d) ∨ (∃ n k, c = .pushPayloadComplete n k)
      ∨ (∃ rs, c = .bootAssayComplete rs) ∨ (∃ w, c = .resetAssert w) ∨ c = .pwrgoodFall ∨ c = .rebootReset)
  ∧ ((∀ (c : Instr) (s t : State), exec c s = .next t → s.phase = .safe → t.phase ≠ .safe →
    (∃ w, c = .resetAssert w) ∨ c = .pwrgoodFall ∨ c = .rebootReset)
  ∧ ∀ (s t : State) (w : Nat), exec (.resetAssert w) s = .next t ∨ exec .pwrgoodFall s = .next t ∨ exec .rebootReset s = .next t →
    t.fuses = s.fuses)

/-- The commands that write memory only by laying out the journal anew, by staging tables or through a register (02 R83, R88, 04 R162, 17 R505): those of
time and of arriving datagrams write only the places of journal records; ROLLING_RESTART_NEXT writes no byte while the chip controller is still to
restart; a register access outside the settlement block writes none. -/
def Obligations.MemoryOutsideIsKept : Prop :=
  (∀ a b c d e f g, KeepsOutsideJournal (.ptpSync a b c d e f g)) ∧ (∀ a b c d e, KeepsOutsideJournal (.ptpFollowUp a b c d e))
  ∧ KeepsOutsideJournal .timeinPulse ∧ KeepsOutsideJournal .stationTimeStep ∧ (∀ d, KeepsOutsideJournal (.rtpDatagram d))
  ∧ (∀ (s t : State) (agreed : Bool), exec (.rollingRestartNext agreed) s = .next t → (∀ u, s.stl.update = some u → u.settled = true ∨ .chip ∈ u.todo) →
    ∀ a, t.byte a = s.byte a)
  ∧ (∀ (s t : State) (src : Src) (off width : Nat) (v : W64), exec (.registerWrite src off width v) s = .next t →
    outsideSettlement s src off width v.toNat → ∀ a, t.byte a = s.byte a)
  ∧ ∀ (s t : State) (bytes : List Byte) (pec : Bool), exec (.smbusWrite bytes pec) s = .next t →
    outsideSettlement s .smbus s.smbOffset bytes.length (leNat bytes) → ∀ a, t.byte a = s.byte a

/-! ## Registers and interconnect (00, 01) -/

/-- REGISTER_WRITE (00 R9, R10): an access of another width or off its boundary is ignored and counted; a word of a settled register is rejected with a
count and shown with its source and operation 0xFF; a write of PCI_JRNL_FROM or PCI_INT_ENABLE, registers of access RW, stores its fields, and INTA
follows the latter (17 R516, R517). -/
def Obligations.RegisterWriteTakesEffect : Prop :=
  (∀ (s : State) (src : Src) (off width : Nat) (v : W64), s.answers = true → (src = .host → s.pciServes = true) →
    (width ≠ 4 ∧ width ≠ 8 ∨ off % width ≠ 0) →
    exec (.registerWrite src off width v) s = .next { s with stl := { s.stl with ignoredWrites := s.stl.ignoredWrites + 1 } })
  ∧ (∀ (s : State) (v : W64) (off : Nat), s.answers = true → off ∈ [0x40010, 0x40410, 0x40420, 0x51018, 0x54010, 0x82010, 0xC0008, 0xC1008] →
    exec (.registerWrite .internal off 4 v) s = .next
      { s with stl := { s.stl with stateRejects := s.stl.stateRejects + 1, rejectSrc := 2, rejectOp := 0xFF } })
  ∧ (∀ (s : State) (v : W64), s.answers = true →
    exec (.registerWrite .internal 0x81038 8 v) s = .next { s with pci := { s.pci with jrnFrom := v } })
  ∧ ∀ (s : State) (v : W64), s.answers = true →
    ∃ t, exec (.registerWrite .internal 0x81048 4 v) s = .next t ∧ t.pci.intEnable = BitVec.ofNat 32 (v.toNat % 512)
      ∧ t.pins.smbAlert = decide (t.pci.intCause &&& t.pci.intEnable ≠ 0)

/-- The reads that latch counters (03 R93, R126, 04 R166, 07 R223, R255, 11 R366, 12 R389, 14 R444, 15 R475, 16 R500, 18 R550): a read of the low word
returns it and latches every later word of the group as it stands, so that they are read as one. BAR0_UNALIGNED_READ (17 R505): the read is performed
as 4-byte reads of the words it touches, and returns its own bytes; a word that latches nothing and is not latched reads as it stands. -/
def Obligations.RegisterReadsLatchAndReturn : Prop :=
  ((∀ s : State, LatchingRead s .timNowLowRead 0x51000 1) ∧ (∀ (s : State) (a : Nat), a < 64 → LatchingRead s (.tillCyclesRead a) (0x61000 + 0x40 * a) 7)
  ∧ (∀ (s : State) (n : Nat), n < 1024 → LatchingRead s (.ingPacketsRead n) (0xB0008 + 0x40 * n) 13)
  ∧ (∀ (s : State) (p : Nat), p < 72 → LatchingRead s (.engConvSatRead p) (0x100200 + 0x1000 * p) 5)
  ∧ (∀ (s : State) (p : Nat), p < 72 → LatchingRead s (.engTilesRead p) (0x100018 + 0x1000 * p) 5)
  ∧ (∀ (s : State) (r : Nat), r < 4 → LatchingRead s (.clrCommandsRead r) (0xF4010 + 0x1000 * r) 11)
  ∧ (∀ (s : State) (n : Nat), n < 4 → LatchingRead s (.encPicturesRead n) (0xC8008 + 0x1000 * n) 7)
  ∧ (∀ s : State, LatchingRead s .fltCorrectedRead 0x54100 9) ∧ (∀ s : State, LatchingRead s .safEvalsRead 0x52200 7)
  ∧ (∀ (s : State) (n : Nat), n < 2 → LatchingRead s (.memCeRead n) (0xC4008 + 0x1000 * n) 11)
  ∧ ∀ s : State, LatchingRead s (.netLnkCounterRead .net0) 0xC0010 7 ∧ LatchingRead s (.netLnkCounterRead .net1) 0xC1010 7
    ∧ LatchingRead s (.netLnkCounterRead .lnk) 0xC2010 7)
  ∧ (∀ (s : State) (off n : Nat), s.pciServes = true → off % 4 + n ≤ 4 → inWindow .host (off / 4 * 4) = false →
    latchSpan (off / 4 * 4) = 0 → (∀ e ∈ s.latched, e.1 ≠ off / 4 * 4) →
    exec (.bar0UnalignedRead off n) s = .next
      { s with readback := ((leBytes 4 (s.liveWord (off / 4 * 4))).drop (off % 4)).take n, poisoned := false })

/-- FLIT_CRC_REPLAY, LANE_SPARE, BRIDGE_HALF_WIDTH and BRIDGE_LOST (01 R15 to R18): a replay is counted for the bridge and the lane; a lane above the
threshold takes one spare and starts anew; a bridge with no spare left in a lane's direction goes to half width, one that fails again is lost; a lost
CD0-CD1 bridge is rerouted, a lost CD-MD bridge is chip-fatal. -/
def Obligations.BridgeEventsTakeEffect : Prop :=
  (∀ (s : State) (b lane : Nat), s.answers = true → b < 3 → lane < 768 → (s.bridge b).lost = false →
    ∃ t, exec (.flitCrcReplay b lane) s = .next t ∧ (t.bridge b).replays = (s.bridge b).replays + 1
      ∧ Table.get 0 lane (t.bridge b).laneReplays = Table.get 0 lane (s.bridge b).laneReplays + 1
      ∧ t.flt.corrected = s.flt.corrected + 1 ∧ ∀ j, j ≠ b → t.bridge j = s.bridge j)
  ∧ (∀ (s : State) (b lane : Nat), s.answers = true → b < 3 → lane < 768 → (s.bridge b).lost = false → 0 < (s.bridge b).sparesOf lane →
    Config.laneThreshold < Table.get 0 lane (s.bridge b).laneReplays →
    ∃ t, exec (.laneSpare b lane) s = .next t ∧ (t.bridge b).sparesOf lane = (s.bridge b).sparesOf lane - 1
      ∧ (∀ other, (decide (lane < 384) != decide (other < 384)) = true → (t.bridge b).sparesOf other = (s.bridge b).sparesOf other)
      ∧ Table.get 0 lane (t.bridge b).laneReplays = 0 ∧ t.flt.fenced = s.flt.fenced + 1
      ∧ ∃ r, t.journal.waiting = s.journal.waiting ++ [r] ∧ r.type = 0x060D)
  ∧ (∀ (s : State) (b lane : Nat), s.answers = true → b < 3 → lane < 768 → (s.bridge b).lost = false → (s.bridge b).sparesOf lane = 0 →
    (s.bridge b).half = false →
    ∃ t, exec (.bridgeHalfWidth ⟨b, lane⟩) s = .next t ∧ (t.bridge b).half = true ∧ (t.bridge b).lost = false
      ∧ ∃ r, t.journal.waiting = s.journal.waiting ++ [r] ∧ r.type = 0x0605)
  ∧ (∀ (s : State) (lane : Nat), s.answers = true → lane < 768 → (s.bridge 2).lost = false → (s.bridge 2).sparesOf lane = 0 →
    (s.bridge 2).half = true →
    ∃ t, exec (.bridgeHalfWidth ⟨2, lane⟩) s = .next t ∧ (t.bridge 2).lost = true ∧ (t.bridge 2).rerouted = true)
  ∧ (∀ s : State, s.answers = true → (s.bridge 2).lost = false →
    ∃ t, exec (.bridgeLost 2) s = .next t ∧ (t.bridge 2).lost = true ∧ (t.bridge 2).rerouted = true ∧ t.phase = s.phase)
  ∧ ∀ (s : State) (b : Nat), s.answers = true → b < 2 → (s.bridge b).lost = false →
    ∃ t, exec (.bridgeLost b) s = .next t ∧ (t.bridge b).lost = true ∧ t.phase = .safe

/-- CHIP_ARB_GRANT, REGION_XBAR_GRANT and ENGINE_BANK_GRANT (01 R19 to R23): the one request that waits at a port or a bank is granted; a granted write
stores its bytes where its address leads and nowhere else, and nothing where it leads nowhere (16 R478); with no request nothing is granted.
OPERAND_NETWORK_CYCLE and CELL_PIPELINE_CYCLE (01 R25, 07 R229): while an engine runs a tile, its cells take one cycle of operand delivery or weight
load after the tile's plan, as engine memory grants them, or advance one cycle of their stages, and no other engine moves. -/
def Obligations.ArbitersGrantAndCellsAdvance : Prop :=
  ((∀ (s : State) (port who waited fill a x : Nat) (dp : DramPort) (bytes : List Byte) (mark : Bool), s.answers = true → port < 16 →
    s.reaches a = some x → inDeviceMemory x bytes.length = true →
    ∃ t, exec (.chipArbGrant port [⟨who, .realTime, waited, dp, fill, .write a bytes mark⟩] false) s = .next t
      ∧ (t.arb port).granted = some who ∧ (∀ i, (h : i < bytes.length) → t.byte (x + i) = bytes[i])
      ∧ ∀ j, j < x ∨ x + bytes.length ≤ j → t.byte j = s.byte j)
  ∧ (∀ (s : State) (g port who waited fill a x : Nat) (dp : DramPort) (bytes : List Byte) (mark : Bool) (c : Cls), s.answers = true → g < 4 → port < 32 →
    s.reaches a = some x → inDeviceMemory x bytes.length = true →
    ∃ t, exec (.regionXbarGrant g port [⟨who, c, waited, dp, fill, .write a bytes mark⟩] false) s = .next t
      ∧ (t.arb (100 + 32 * g + port)).granted = some who ∧ (∀ i, (h : i < bytes.length) → t.byte (x + i) = bytes[i])
      ∧ ∀ j, j < x ∨ x + bytes.length ≤ j → t.byte j = s.byte j)
  ∧ (∀ (s : State) (port who waited fill a : Nat) (dp : DramPort) (bytes : List Byte) (mark : Bool), s.answers = true → port < 16 →
    s.reaches a = none →
    ∃ t, exec (.chipArbGrant port [⟨who, .realTime, waited, dp, fill, .write a bytes mark⟩] false) s = .next t
      ∧ (t.arb port).granted = some who ∧ ∀ j, t.byte j = s.byte j)
  ∧ (∀ (s : State) (g port : Nat) (parity : Bool), s.answers = true → g < 4 → port < 32 →
    ∃ t, exec (.regionXbarGrant g port [] parity) s = .next t ∧ (t.arb (100 + 32 * g + port)).granted = none)
  ∧ ∀ (s : State) (p bank waited a : Nat) (who : BankUser) (bytes : List Byte) (mark : Bool) , s.answers = true → p < 72 → bank < 16 →
    opBank (.write a bytes mark) = some bank → a + bytes.length ≤ engineSize →
    ∃ t, exec (.engineBankGrant p bank [⟨who, waited, .write a bytes mark⟩]) s = .next t
      ∧ (∀ i, (h : i < bytes.length) → t.byte (engineBase p + a + i) = bytes[i])
      ∧ ∀ j, j < engineBase p + a ∨ engineBase p + a + bytes.length ≤ j → t.byte j = s.byte j)
  ∧ ((∀ (s : State) (p : Nat) (deliver load : Bool) (r : Running), s.running = true → (s.engine p).running = some r →
    ∃ t, exec (.operandNetworkCycle p deliver load) s = .next t ∧ (t.engine p).pipe = (s.engine p).pipe.network deliver load (s.planOf p r.issue)
      ∧ (t.engine p).running = some r ∧ ∀ j, j ≠ p → t.engine j = s.engine j)
  ∧ ∀ (s : State) (p : Nat) (check : List BankCheck), s.running = true → (s.engine p).running.isSome = true →
    ((s.engine p).pipe.cycle check).2.wrong = 0 →
    ∃ t, exec (.cellPipelineCycle p check) s = .next t ∧ (t.engine p).pipe = ((s.engine p).pipe.cycle check).1
      ∧ (t.engine p).bankCe = min 255 ((s.engine p).bankCe + ((s.engine p).pipe.cycle check).2.corrected)
      ∧ ∀ j, j ≠ p → t.engine j = s.engine j)

/-- The controllers' watchdogs and restarts (01 R26 to R28, 14 R433): a region controller that expires is restarted, at the third time within an hour its
region is fenced; its region resumes when it runs again within 50 ms; a restart beyond 50 ms fences the region; the chip controller restarts without
its batch, at the third time within an hour the error is chip-fatal, and record 0x0103 is written for the batch it discarded. -/
def Obligations.ControllersRestart : Prop :=
  (∀ (s : State) (g : Nat), s.running = true → g < 4 → (s.region g).state = 0 → (recent s.time.elapsed hour (s.region g).restartTimes).length < 2 →
    ∃ t, exec (.regionWatchdogExpiry g) s = .next t ∧ (t.region g).state = 1 ∧ (t.region g).restarts = (s.region g).restarts + 1
      ∧ (t.region g).restartedAt = s.time.elapsed ∧ t.flt.contained = s.flt.contained + 1)
  ∧ (∀ (s : State) (g : Nat), s.running = true → g < 4 → (s.region g).state = 0 → 2 ≤ (recent s.time.elapsed hour (s.region g).restartTimes).length →
    ∃ t, exec (.regionWatchdogExpiry g) s = .next t ∧ (t.region g).state = 3 ∧ (t.region g).fenced = true)
  ∧ (∀ (s : State) (g : Nat), s.answers = true → g < 4 → (s.region g).state = 1 → (s.region g).fenced = false →
    s.time.elapsed ≤ (s.region g).restartedAt + 50000000 →
    ∃ t, exec (.regionRestartComplete g) s = .next t ∧ (t.region g).state = 0 ∧ ∀ j, j ≠ g → t.region j = s.region j)
  ∧ (∀ (s : State) (g : Nat), s.running = true → g < 4 → (s.region g).state = 1 → (s.region g).fenced = false →
    ∃ t, exec (.regionRestartTimeout g) s = .next t ∧ (t.region g).state = 3 ∧ (t.region g).fenced = true)
  ∧ (∀ s : State, s.running = true → s.flt.chipRestarting = false → (recent s.time.elapsed hour s.flt.chipRestarts).length < 2 →
    ∃ t, exec .chipWatchdogExpiry s = .next t ∧ t.flt.chipRestarting = true ∧ t.flt.contained = s.flt.contained + 1 ∧ t.phase = s.phase)
  ∧ (∀ s : State, s.running = true → s.flt.chipRestarting = false → 2 ≤ (recent s.time.elapsed hour s.flt.chipRestarts).length →
    ∃ t, exec .chipWatchdogExpiry s = .next t ∧ t.phase = .safe)
  ∧ (∀ (s : State) (p : StlPl), s.flt.chipRestarting = true → s.answers = true → s.stl.update = none → s.stl.discarded = some p →
    ∃ t, exec .chipControllerRestarted s = .next t ∧ t.flt.chipRestarting = false ∧ t.stl.discarded = none
      ∧ ∃ r, t.journal.waiting = s.journal.waiting ++ [r] ∧ r.type = 0x0103 ∧ r.payload = .stl p)
  ∧ (∀ s : State, s.flt.chipRestarting = true → s.answers = true → s.stl.update = none → s.stl.discarded = none →
    ∃ t, exec .chipControllerRestarted s = .next t ∧ t.flt.chipRestarting = false ∧ t.journal = s.journal)
  ∧ ∀ s : State, s.flt.chipRestarting = true → s.answers = true →
    ∃ t, exec .chipControllerRestarted s = .next t ∧ t.flt.chipRestarting = false

/-! ## Reset and start (02, 21) -/

/-- RESET_ASSERT, PWRGOOD_FALL and REBOOT_RESET (21 R604, R605, R618, 02 R87): a reset puts every part at its reset value but the fuses, the flash without
its incomplete writes, the journal's marks and the host's own memory; a pulse below 1 us does nothing, one from 10 us up resets, and one between does
either. REBOOT begins the start at once with the slot it names. -/
def Obligations.ResetKeepsOnlyWhatItMay : Prop :=
  (∀ (s : State) (w : Nat), w < 1000 → exec (.resetAssert w) s = .next s)
  ∧ (∀ (s : State) (w : Nat), 10000 ≤ w →
    ∃ t, exec (.resetAssert w) s = .next t ∧ t.phase = .inReset ∧ t.pins.resetN = false ∧ t.fuses = s.fuses
      ∧ t.flash = { s.flash with writes := [] } ∧ t.journal.marks = s.journal.marks ∧ t.stl = {} ∧ t.cfg = {} ∧ t.streams = []
      ∧ t.engines = [] ∧ t.voids = [] ∧ (∀ a, hostBase ≤ a → t.byte a = s.byte a) ∧ ∀ a, a < hostBase → t.byte a = 0)
  ∧ (∀ (s : State) (w : Nat), 1000 ≤ w → w < 10000 →
    ∃ t, exec (.resetAssert w) s = .next t ∧ (t.phase = .inReset ∧ t.cfg = {} ∧ t.fuses = s.fuses ∨ t = s.nextFree))
  ∧ (∀ s : State,
    ∃ t, exec .pwrgoodFall s = .next t ∧ t.phase = .inReset ∧ t.pins.pwrgood = false ∧ t.pins.thermtripLow = false ∧ t.fuses = s.fuses
      ∧ t.flash = { s.flash with writes := [] } ∧ t.stl = {} ∧ t.cfg = {} ∧ (∀ a, hostBase ≤ a → t.byte a = s.byte a)
      ∧ ∀ a, a < hostBase → t.byte a = 0)
  ∧ ∀ s : State, s.boot.rebootAt ≠ none →
    ∃ t, exec .rebootReset s = .next t ∧ t.phase = .booting ∧ t.boot.step = 1 ∧ t.boot.rebootSlot = s.boot.nextSlot
      ∧ t.fuses = s.fuses ∧ t.cfg = {} ∧ (∀ a, hostBase ≤ a → t.byte a = s.byte a) ∧ ∀ a, a < hostBase → t.byte a = 0

/-- BOOT_START, DIRECTORY_READ_COMPLETE, DRAM_TRAINING_COMPLETE, SLOT_READ_COMPLETE and FIRMWARE_STARTED (02 R51, R60, R61, R63, R65, 21 R603, R606): the
straps are taken as RESET_N rises; the directory names the slot to try; a stack that does not train is lost; a slot that verifies is started, one that
fails gives way to the other, and with no slot left the device is quiet. -/
def Obligations.StartStepsFollow : Prop :=
  (∀ (s : State) (a b c d : Bool), s.phase = .inReset →
    ∃ t, exec (.bootStart [some a, some b, some c, some d]) s = .next t ∧ t.phase = .booting ∧ t.boot.step = 1
      ∧ t.pins.pwrgood = true ∧ t.pins.resetN = true ∧ t.pins.smbAddr = a.toNat + 2 * b.toNat + 4 * c.toNat ∧ t.pins.pcieOff = d)
  ∧ (∀ s : State, s.phase = .booting → s.boot.dirRead = false →
    ∃ t, exec .directoryReadComplete s = .next t ∧ t.boot.dirRead = true ∧ (s.boot.trained = true → t.boot.step = 3)
      ∧ t.boot.dirDefault = (directoryInUse s).isNone
      ∧ t.boot.trying = s.boot.rebootSlot.getD ((directoryInUse s).getD defaultDirectory).preferred)
  ∧ (∀ s : State, s.phase = .booting → s.boot.trained = false →
    ∃ t, exec (.dramTrainingComplete true true) s = .next t ∧ t.phase = .booting ∧ t.boot.trained = true
      ∧ (t.dram 0).state = 0 ∧ (t.dram 1).state = 0)
  ∧ (∀ (s : State) (ok0 ok1 : Bool), s.phase = .booting → s.boot.trained = false → (ok0 && ok1) = false →
    ∃ t, exec (.dramTrainingComplete ok0 ok1) s = .next t ∧ t.phase = .safe)
  ∧ (∀ s : State, s.phase = .booting → s.boot.step = 3 →
    ∃ t, exec .slotReadComplete s = .next t
      ∧ (if slotStatus s s.boot.trying = stOK then t.boot.step = 5 ∧ t.boot.verified = true ∧ t.boot.trying = s.boot.trying ∧ t.phase = .booting
         else if s.boot.trying = s.boot.firstTried then t.boot.step = 3 ∧ t.boot.trying = 1 - s.boot.trying ∧ t.phase = .booting
         else t.boot.step = 0xF ∧ t.phase = .quiet))
  ∧ ∀ s : State, s.phase = .booting → s.boot.step = 5 →
    ∃ t, exec .firmwareStarted s = .next t ∧ t.boot.step = 6
      ∧ t.boot.firmwareVersion = (readSlot s s.boot.trying).firmware ∧ (∀ g, g < 4 → (t.region g).state = 0)
      ∧ t.mem = (loadTables s (readSlot s s.boot.trying)).mem

/-- BOOT_ASSAY_COMPLETE (02 R60, R62): the charter's tables, when they pass the checks, apply as the initial settlement and the device runs with them, no
byte of memory changed; tables that fail a check fail their slot. ADOPTION_HOLD_EXPIRY (R59): at the end of the hold the rollback counters are raised
to the slot's. -/
def Obligations.InitialSettlementAndAdoption : Prop :=
  (∀ (s : State) (rs : List AssayResult) (u : State) (x : Slot) (c : Cfg), s.phase = .booting → s.boot.step = 6 → s.flash.overlay = [] →
    u = assignEngines s rs → x = readSlot u u.boot.trying →
    c = charterCfg u x u.layout.modelArea u.layout.zoneModel → charterChecks u x c c = none →
    ∃ t, exec (.bootAssayComplete rs) s = .next t ∧ t.phase = .running ∧ t.boot.step = 8 ∧ t.cfg = c ∧ ∀ a, t.byte a = s.byte a)
  ∧ (∀ (s : State) (rs : List AssayResult) (u : State) (x : Slot) (c : Cfg) (f : Failure), s.phase = .booting → s.boot.step = 6 →
    u = assignEngines s rs → x = readSlot u u.boot.trying →
    c = charterCfg u x u.layout.modelArea u.layout.zoneModel → charterChecks u x c c = some f →
    ∃ t, exec (.bootAssayComplete rs) s = .next t ∧ t.phase ≠ .running ∧ t.cfg = s.cfg)
  ∧ ∀ (s : State) (since : Nat), s.running = true → s.boot.holdSince = some since →
    ∃ t, exec (.adoptionHoldExpiry true) s = .next t ∧ t.boot.holdSince = none
      ∧ t.fuses.charterRb = max s.fuses.charterRb (min 127 s.boot.charterRb)
      ∧ t.fuses.firmwareRb = max s.fuses.firmwareRb (min 127 s.boot.firmwareRb)

/-! ## Settlements (02) -/

/-- The settlement commands that open, fill, check and discard a batch (02 R67, R70, R81, R84, R85): each shows its outcome on its own page; a command
that its page bars or that has no open batch is rejected with STATE, counted and shown. -/
def Obligations.PageCommandsTakeEffect : Prop :=
  (∀ (s : State) (page via : Src), s.phase ≠ .inReset → stlBarred s page via 0x01 = false → (s.page page).opened = false →
    ∃ t, exec (.stlOpen page via) s = .next t
      ∧ t.page page = { s.page page with status := stOK, reason := 0, entry := 0,
                                         phase := if s.holdsPage page then (s.page page).phase else 1, opened := true, staged := [] }
      ∧ ∀ q, q ≠ page → t.page q = s.page q)
  ∧ (∀ (s : State) (page via : Src) (n : Nat), s.phase ≠ .inReset → stlBarred s page via 0x02 = false → (s.page page).opened = true →
    (s.page page).staged.length + n ≤ 4096 →
    ∃ t, exec (.stlStage page via n) s = .next t
      ∧ t.page page = { s.page page with status := stOK, reason := 0, entry := 0,
                                         staged := (s.page page).staged ++ bufferEntries s page n }
      ∧ ∀ q, q ≠ page → t.page q = s.page q)
  ∧ (∀ (s : State) (page via : Src), s.phase ≠ .inReset → stlBarred s page via 0x03 = false → (s.page page).opened = true →
    ∃ t, exec (.stlCheck page via) s = .next t ∧ t.page page = { s.page page with
      status := ((runChecks s (s.staged page) none (overlayAfter s (s.staged page))).map (·.status)).getD stOK
      reason := ((runChecks s (s.staged page) none (overlayAfter s (s.staged page))).map (·.check)).getD 0
      entry := ((runChecks s (s.staged page) none (overlayAfter s (s.staged page))).map (·.entry)).getD 0 })
  ∧ (∀ (s : State) (page via : Src), s.phase ≠ .inReset → stlBarred s page via 0x07 = false → (s.page page).opened = true →
    ∃ t, exec (.stlDiscard page via) s = .next t
      ∧ t.page page = { s.page page with status := stOK, reason := 0, entry := 0,
                                         phase := if s.holdsPage page then (s.page page).phase else 0, opened := false, staged := [] })
  ∧ ∀ (s : State) (page via : Src) (c : Instr) (op : Nat), s.phase ≠ .inReset →
    (c = .stlOpen page via ∧ op = 0x01 ∨ (∃ n, c = .stlStage page via n ∧ op = 0x02) ∨ c = .stlCheck page via ∧ op = 0x03
      ∨ c = .commitAtTime page via ∧ op = 0x04 ∨ c = .commitAtEvent page via ∧ op = 0x05 ∨ c = .stlAbort page via ∧ op = 0x06
      ∨ c = .stlDiscard page via ∧ op = 0x07 ∨ (∃ n, c = .flashProgram page via n ∧ op = 0x10)
      ∨ (∃ n, c = .verifySlot page via n ∧ op = 0x11) ∨ c = .charterUpdate page via ∧ op = 0x12 ∨ ∃ n, c = .reboot page via n ∧ op = 0x13) →
    stlBarred s page via op = true →
    ∃ t, exec c s = .next t ∧ (t.page page).status = stSTATE ∧ t.stl.stateRejects = s.stl.stateRejects + 1
      ∧ t.stl.rejectSrc = srcCode page ∧ t.stl.rejectOp = op ∧ t.stl.batch = s.stl.batch

/-- COMMIT_AT_TIME, COMMIT_AT_EVENT and ABORT (02 R69, R73, R75, R81): a batch that passes every check is pending with the units it affects still to
acknowledge, and nothing of the configuration changes yet; a batch its source may abort is no more. SETTLEMENT_PREPARE_ACK, PRE_INSTANT_RECHECK and
EVENT_TIMEOUT (02 R73 to R75): a unit acknowledges once; 100 us before its instant a batch that every unit has acknowledged and that still passes its
checks is ready, else it is aborted; an armed batch that meets no random-access point in time is aborted. An aborted batch changes nothing and writes
record 0x0102. -/
def Obligations.BatchesArePreparedOrAborted : Prop :=
  ((∀ (s : State) (page via : Src) (at_ : CommitAt) (c : Instr) (es : List Entry), s.phase ≠ .inReset →
    (c = .commitAtTime page via ∧ at_ = instantTime (s.page page) ∧ stlBarred s page via 0x04 = false
      ∨ c = .commitAtEvent page via ∧ at_ = instantEvent (s.page page) ∧ stlBarred s page via 0x05 = false) →
    (s.page page).opened = true → s.stl.batch = none → s.stl.update = none → es = s.staged page →
    runChecks s es (some at_) (overlayAfter s es) = none → affectedUnits s.cfg (applyEntries s s.cfg es) es ≠ [] →
    ∃ t b, exec c s = .next t ∧ t.stl.batch = some b ∧ b.src = page ∧ b.at_ = at_ ∧ b.phase = .prepare
      ∧ b.new = applyEntries s s.cfg es ∧ b.waiting = affectedUnits s.cfg b.new es ∧ t.cfg = s.cfg ∧ t.stl.epoch = s.stl.epoch
      ∧ (t.page page).status = stOK ∧ (t.page page).phase = 3 ∧ (t.page page).opened = false)
  ∧ (∀ (s : State) (page via : Src) (f : Failure), s.phase ≠ .inReset → stlBarred s page via 0x04 = false →
    (s.page page).opened = true → s.stl.batch = none → s.stl.update = none →
    runChecks s (s.staged page) (some (instantTime (s.page page))) (overlayAfter s (s.staged page)) = some f →
    ∃ t, exec (.commitAtTime page via) s = .next t ∧ t.stl.batch = none ∧ (t.page page).status = f.status
      ∧ (t.page page).reason = f.check ∧ (t.page page).entry = f.entry ∧ (t.page page).opened = true)
  ∧ ∀ (s : State) (page via : Src) (b : Batch), s.phase ≠ .inReset → stlBarred s page via 0x06 = false →
    s.stl.batch = some b → abortable s page b = true →
    ∃ t, exec (.stlAbort page via) s = .next t ∧ t.stl.batch = none ∧ (t.page page).phase = 5 ∧ (t.page page).status = stOK
      ∧ t.cfg = s.cfg)
  ∧ ((∀ (s : State) (b : Batch) (u : StlUnit) (at_ : Nat), s.running = true → s.stl.batch = some b → b.phase = .prepare → b.at_ = .time at_ →
    b.waiting.contains u = true → batchImageVoid s b = false →
    exec (.settlementPrepareAck u) s = .next
      { s with stl := { s.stl with batch := some { b with waiting := b.waiting.filter (· != u) } } })
  ∧ (∀ (s : State) (b : Batch) (u : StlUnit) (n tick : Nat), s.running = true → s.stl.batch = some b → b.phase = .prepare →
    b.at_ = .event n tick → b.waiting = [u] → batchImageVoid s b = false → 
    recheck { s with stl := { s.stl with batch := some { b with waiting := [] } } } b.new (b.entries.map parseEntry) = none →
    ∃ t, exec (.settlementPrepareAck u) s = .next t ∧ t.stl.batch.map (·.phase) = some (.armed s.time.elapsed) ∧ t.cfg = s.cfg)
  ∧ (∀ (s : State) (b : Batch) (at_ : Nat), s.running = true → s.stl.batch = some b → b.phase = .prepare → b.at_ = .time at_ →
    b.voidSeen = false → b.waiting = [] → recheck (s.atStation (at_ - 100000)) b.new (b.entries.map parseEntry) = none →
    ∃ t, exec .preInstantRecheck s = .next t ∧ t.stl.batch = some { b with phase := .ready } ∧ t.cfg = s.cfg)
  ∧ (∀ (s : State) (b : Batch) (at_ : Nat), s.running = true → s.stl.batch = some b → b.phase = .prepare → b.at_ = .time at_ →
    b.voidSeen = true ∨ b.waiting ≠ [] →
    ∃ t, exec .preInstantRecheck s = .next t ∧ t.stl.batch = none ∧ t.cfg = s.cfg ∧ (t.page b.src).phase = 5
      ∧ (t.page b.src).reason = 16 ∧ ∃ r, t.journal.waiting = s.journal.waiting ++ [r] ∧ r.type = 0x0102)
  ∧ ∀ (s : State) (b : Batch) (since : Nat), s.running = true → s.stl.batch = some b → b.phase = .armed since →
    ∃ t, exec .eventTimeout s = .next t ∧ t.stl.batch = none ∧ t.cfg = s.cfg ∧ (t.page b.src).phase = 5
      ∧ (t.page b.src).status = stBUDGET ∧ ∃ r, t.journal.waiting = s.journal.waiting ++ [r] ∧ r.type = 0x0102)

/-- FLASH_PROGRAM, FLASH_PROGRAM_COMPLETE, VERIFY_SLOT, VERIFY_SLOT_COMPLETE and REBOOT (02 R81, R86 to R88): the blocks of the destination are erased,
then hold the bytes of DRAM, and no other flash byte changes; a slot that verifies is noted; a reboot is due after 1 ms with the slot named.
PASSBOOK_UPDATE and FLASH_WRITE_COMPLETE (02 R80, 13 R400, 14 R425, 19 R560, 22 R630): a changed live Passbook is rewritten under the next even
generation; the oldest flash write that has not completed takes its effect, and only it: an overlay, a checkpoint with record 0x0502, a head, the unit
map, a 32-byte record of the identity counter appended to the half of the log being filled (log entry 246: the model's halves) or a note of the safe
state. -/
def Obligations.FlashCommandsAndWrites : Prop :=
  ((∀ (s : State) (page via : Src) (n : Nat) (r : Nat × Nat), s.phase ≠ .inReset → stlBarred s page via 0x10 = false →
    programInRange s n (s.page page) = true → r = blockRange (s.page page).flashDst.toNat (n * 4096) →
    (s.phase = .quiet ∨ programProtected s r.1 r.2 = false) → s.stl.program = none →
    ∃ t, exec (.flashProgram page via n) s = .next t
      ∧ t.stl.program = some (page, (s.page page).flashSrc.toNat, (s.page page).flashDst.toNat, n * 4096)
      ∧ (∀ a, r.1 ≤ a → a < r.1 + r.2 → t.flashByte a = 0xFF) ∧ ∀ a, a < r.1 ∨ r.1 + r.2 ≤ a → t.flashByte a = s.flashByte a)
  ∧ (∀ (s : State) (page : Src) (a d n : Nat), s.stl.program = some (page, a, d, n) →
    ∃ t, exec (.flashProgramComplete false) s = .next t ∧ t.stl.program = none ∧ (t.page page).status = stOK
      ∧ (∀ i, i < n → t.flashByte (d + i) = s.byte (a + i)) ∧ ∀ j, j < d ∨ d + n ≤ j → t.flashByte j = s.flashByte j)
  ∧ (∀ (s : State) (page : Src) (a d n : Nat), s.stl.program = some (page, a, d, n) →
    ∃ t, exec (.flashProgramComplete true) s = .next t ∧ t.stl.program = none ∧ (t.page page).status = stBOUND
      ∧ ∀ j, j < d ∨ d + n ≤ j → t.flashByte j = s.flashByte j)
  ∧ (∀ (s : State) (page via : Src) (slot : Nat), s.phase ≠ .inReset → stlBarred s page via 0x11 = false → slot ≤ 1 →
    s.stl.update = none → exec (.verifySlot page via slot) s = .next { s with stl := { s.stl with verify := some (page, slot) } })
  ∧ (∀ (s : State) (page : Src) (slot : Nat), s.stl.verify = some (page, slot) →
    ∃ t, exec .verifySlotComplete s = .next t ∧ t.stl.verify = none ∧ (t.page page).status = (verifyResult s slot).1
      ∧ (t.page page).reason = (verifyResult s slot).2
      ∧ (slot ≠ s.boot.running → t.stl.slotVerified = decide ((verifyResult s slot).1 = stOK)))
  ∧ ∀ (s : State) (page via : Src) (slot : Nat), s.phase ≠ .inReset → stlBarred s page via 0x13 = false → slot ≤ 2 →
    s.stl.update = none →
    ∃ t, exec (.reboot page via slot) s = .next t ∧ t.boot.rebootAt = some (s.time.elapsed + 1000000)
      ∧ t.boot.nextSlot = (if slot = 2 then none else some slot) ∧ (t.page page).status = stOK)
  ∧ ((∀ s : State, s.answers = true →
    (s.publish s.passbook.generation = s.passbook → exec .passbookUpdate s = .next s)
    ∧ (s.publish s.passbook.generation ≠ s.passbook →
      ∃ t, exec .passbookUpdate s = .next t ∧ t.passbook.generation = s.passbook.generation + 2 ∧ t.passbook.units = s.unitEntries
        ∧ t.passbook.charter = s.boot.charterVersion ∧ t.passbook.lifecycle = s.fuses.lifecycle ∧ t.passbook.decodeEngines = s.decInService
        ∧ t.passbook.encoders = s.encInService ∧ t.passbook.clearings = s.clrInService ∧ t.passbook.areas = s.memoryAreas))
  ∧ (∀ (s : State) (r : List FlashWrite), s.answers = true →
    (s.flash.writes = [] → exec .flashWriteComplete s = .next s)
    ∧ (∀ x, s.flash.writes = .overlay x :: r → exec .flashWriteComplete s = .next { s with flash := { s.flash with writes := r, overlay := x } })
    ∧ (s.flash.writes = .overlayClear :: r → (∀ u, s.stl.update = some u → u.rewritten = false) → exec .flashWriteComplete s = .next { s with flash := { s.flash with writes := r, overlay := [] } })
    ∧ (∀ x, s.flash.writes = .checkpoint x :: r → ∃ t e, exec .flashWriteComplete s = .next t
      ∧ t.flash = { s.flash with writes := r, checkpoints := (x :: s.flash.checkpoints).take 2 } ∧ t.journal.waiting = s.journal.waiting ++ [e]
      ∧ e.type = 0x0502)
    ∧ (∀ x, s.flash.writes = .adoptedHead x :: r →
      exec .flashWriteComplete s = .next { s with flash := { s.flash with writes := r, adopted := (x :: s.flash.adopted).take 2 } })
    ∧ (s.flash.writes = .adoptedErase :: r → exec .flashWriteComplete s = .next { s with flash := { s.flash with writes := r, adopted := [] } })
    ∧ (∀ m n, s.flash.writes = .unitMap m n :: r →
      exec .flashWriteComplete s = .next { s with flash := { s.flash with writes := r, unitMap := m, repairs := n } })
    ∧ (∀ k o, s.flash.writes = .identityRecord k o :: r →
      exec .flashWriteComplete s = .next { s with flash := appendIdentity { s.flash with writes := r } (identityBytes k o) })
    ∧ ∀ x, s.flash.writes = .safeState x :: r →
      exec .flashWriteComplete s = .next { s with flash := { s.flash with writes := r, safeState := s.flash.safeState ++ [x] } }))

/-- CHARTER_UPDATE, ROLLING_RESTART_NEXT and CONTROLLER_START_FAILURE (02 R88 to R90): with other firmware the first region that is not fenced restarts;
with the same firmware the tables are staged at once as one settlement of every unit, and only the areas the new images are loaded to change in
memory, unless the new tables fail a check, which ends the update and is shown; the next controller restarts when the last one runs and R89 lets it; a
controller that fails to start ends the update, with record 0x0104. -/
def Obligations.CharterUpdates : Prop :=
  (∀ (s : State) (page via : Src) (u : Update) (s1 : State), s.phase ≠ .inReset → stlBarred s page via 0x12 = false →
    anyBatch s = false → s.stl.slotVerified = true → s.stl.update = none →
    s.time.now + second ≤ bitsOf (s.page page).instant.toNat 0 64 →
    (readSlot s (1 - s.boot.running)).firmwareDigests = (readSlot s s.boot.running).firmwareDigests →
    u = { src := page, slot := 1 - s.boot.running, instant := bitsOf (s.page page).instant.toNat 0 64, todo := [] } →
    s1 = s.setPage page { s.page page with status := stOK, reason := 0, entry := 0, phase := 6 } →
    charterChecks (stagedUpdate s1 u (readSlot s1 u.slot) (updateCfg s1 u)) (readSlot s1 u.slot) s1.cfg (updateCfg s1 u) = none →
    ∃ t b, exec (.charterUpdate page via) s = .next t ∧ t.stl.batch = some b ∧ b.charter = true ∧ b.waiting = allUnits
      ∧ b.new.regs = s.cfg.regs ∧ t.stl.update.map (·.settled) = some true ∧ (t.page page).phase = 6 ∧ t.cfg = s.cfg
      ∧ ∀ a, (∀ y, (readSlot s (1 - s.boot.running)).find 3 = some y →
          a < freshArea s.cfg.model.image s.layout.modelArea s.layout.modelStaging
            ∨ freshArea s.cfg.model.image s.layout.modelArea s.layout.modelStaging
                + (s.sectionBytes (readSlot s (1 - s.boot.running)) y).length ≤ a) →
        (∀ y, (readSlot s (1 - s.boot.running)).find 6 = some y →
          a < freshArea ((s.cfg.zoneModel.map (·.image)).getD 0) s.layout.zoneModel (s.layout.zoneModel + 0x10000000)
            ∨ freshArea ((s.cfg.zoneModel.map (·.image)).getD 0) s.layout.zoneModel (s.layout.zoneModel + 0x10000000)
                + (s.sectionBytes (readSlot s (1 - s.boot.running)) y).length ≤ a) →
        t.byte a = s.byte a)
  ∧ (∀ (s : State) (page via : Src) (u : Update) (s1 : State) (f : Failure), s.phase ≠ .inReset →
    stlBarred s page via 0x12 = false → anyBatch s = false → s.stl.slotVerified = true → s.stl.update = none →
    s.time.now + second ≤ bitsOf (s.page page).instant.toNat 0 64 →
    (readSlot s (1 - s.boot.running)).firmwareDigests = (readSlot s s.boot.running).firmwareDigests →
    u = { src := page, slot := 1 - s.boot.running, instant := bitsOf (s.page page).instant.toNat 0 64, todo := [] } →
    s1 = s.setPage page { s.page page with status := stOK, reason := 0, entry := 0, phase := 6 } →
    charterChecks (stagedUpdate s1 u (readSlot s1 u.slot) (updateCfg s1 u)) (readSlot s1 u.slot) s1.cfg (updateCfg s1 u) = some f →
    ∃ t, exec (.charterUpdate page via) s = .next t ∧ t.stl.batch = none ∧ t.stl.update = none ∧ t.cfg = s.cfg
      ∧ (t.page page).status = f.status ∧ (t.page page).reason = f.check ∧ (t.page page).entry = f.entry)
  ∧ (∀ (s : State) (page via : Src), s.phase ≠ .inReset → stlBarred s page via 0x12 = false → anyBatch s = false →
    s.stl.slotVerified = true → s.stl.update = none → s.time.now + second ≤ bitsOf (s.page page).instant.toNat 0 64 →
    (readSlot s (1 - s.boot.running)).firmwareDigests ≠ (readSlot s s.boot.running).firmwareDigests →
    (s.region 0).fenced = false → (recent s.time.elapsed hour (s.region 0).restartTimes).length < 2 →
    ∃ t, exec (.charterUpdate page via) s = .next t ∧ (t.region 0).state = 1 ∧ t.cfg = s.cfg
      ∧ t.stl.update.map (·.done) = some [.region 0] ∧ ∀ a, t.byte a = s.byte a)
  ∧ (∀ (s : State) (u : Update) (g : Nat) (r : List Ctrl) (agreed : Bool), s.running = true → s.stl.update = some u →
    s.stl.batch = none →
    u.settled = false → lastRuns s u.done = true → u.todo = .region g :: r →
    mayRoll u agreed = true → (s.region g).fenced = false → (∀ k, .region k ∈ r → (s.region k).fenced = false) →
    (s.region g).restartTimes.length < 2 →
    ∃ t, exec (.rollingRestartNext agreed) s = .next t ∧ (t.region g).state = 1
      ∧ t.stl.update.map (·.todo) = some r ∧ t.stl.update.map (·.done) = some (u.done ++ [.region g]))
  ∧ ∀ (s : State) (u : Update) (c : Ctrl), s.running = true → s.stl.update = some u → u.drained = false →
    Update.open_ s = true → u.done.contains c = true →
    ∃ t, exec (.controllerStartFailure c) s = .next t ∧ t.stl.update = none ∧ t.stl.rollback = u.done.reverse
      ∧ (t.page u.src).status = stSTATE ∧ (t.page u.src).reason = 18
      ∧ ∃ r, t.journal.waiting = s.journal.waiting ++ [r] ∧ r.type = 0x0104

/-- EPOCH_INSTANT (02 R71, R73 step 4): at its instant a ready batch comes into force as a whole, the epoch counter advances, and no byte of memory
changes unless the journal reserve changes its size. UNIT_DRAIN_RELEASE and DRAIN_BOUND_EXPIRY (02 R73 step 5, R76): a unit that holds no item of the
old epoch releases its old set; the last release, once no unit holds such an item, ends the batch, the old set goes and the page shows idle, or open
where a new batch is open; at the bound what is left is abandoned and the batch ends. -/
def Obligations.BatchesComeIntoForceAndDrain : Prop :=
  (∀ (s : State) (b : Batch) (at_ : Nat), s.running = true → s.stl.batch = some b → b.phase = .ready → b.at_ = .time at_ →
    ∃ t, exec .epochInstant s = .next t ∧ t.cfg = b.new ∧ t.stl.epoch = s.stl.epoch + 1
      ∧ (b.new.journalBytes = s.cfg.journalBytes → ∀ a, t.byte a = s.byte a))
  ∧ ((∀ (s : State) (b : Batch) (u v : StlUnit) (bound : Nat) (w : List StlUnit), s.running = true → s.stl.batch = some b →
    b.phase = .draining bound → b.waiting = u :: v :: w → u ≠ v → holdsOld s u = false →
    exec (.unitDrainRelease u) s = .next
      { s with stl := { s.stl with batch := some { b with waiting := b.waiting.filter (· != u) } } })
  ∧ (∀ (s : State) (b : Batch) (u : StlUnit) (bound : Nat), s.running = true → s.stl.batch = some b → b.phase = .draining bound →
    b.waiting = [u] → (∀ x, holdsOld s x = false) → b.charter = false → s.stl.moves = [] → s.lnk.failover = none →
    ∃ t, exec (.unitDrainRelease u) s = .next t ∧ t.stl.batch = none ∧ t.cfgOld = none ∧ t.cfg = s.cfg ∧ (t.page b.src).phase = (s.page b.src).rest)
  ∧ (∀ (s : State) (b : Batch) (u : StlUnit) (bound : Nat), s.running = true → s.stl.batch = some b → b.phase = .draining bound →
    holdsOld s u = true → exec (.unitDrainRelease u) s = .next s)
  ∧ ∀ (s : State) (b : Batch) (bound : Nat), s.running = true → s.stl.batch = some b → b.phase = .draining bound → b.charter = false →
    s.stl.moves = [] → s.lnk.failover = none →
    ∃ t, exec .drainBoundExpiry s = .next t ∧ t.stl.batch = none ∧ t.cfgOld = none ∧ t.cfg = s.cfg ∧ (t.page b.src).phase = (s.page b.src).rest)

/-! ## Time (03) -/

/-- The PTP messages (03 R95, R97, 18 R530): a Sync of the selected master is measured at its line receive time, at once or with its Follow_Up; an
Announce of a better master is taken; Delay_Resp and the Pdelay messages give the path delay, halving without the responder's own time; what the port
sends is stamped at its line transmit time. -/
def Obligations.PtpMessagesAreMeasured : Prop :=
  (∀ (s : State) (port domain sender : Nat) (o c rx : Int), s.running = true → port < 2 → fromMaster s port domain sender = true →
    ∃ t, exec (.ptpSync port domain sender true o c rx) s = .next t
      ∧ (t.ptpPort port).awaiting = some (sender, rx - ingressNs s port - c) ∧ (t.ptpPort port).lastSync = s.time.elapsed
      ∧ t.time.now = s.time.now)
  ∧ (∀ (s : State) (port domain sender : Nat) (o c rx th : Int), s.running = true → port < 2 → fromMaster s port domain sender = true →
    s.time.source ≠ port + 1 → (s.ptpPort port).good < 15 → th = o + c + (s.ptpPort port).pathDelay - (rx - ingressNs s port) →
    ∃ t, exec (.ptpSync port domain sender false o c rx) s = .next t ∧ t.time.offset = th ∧ t.time.now = s.time.now
      ∧ (t.ptpPort port).t1 = o + c ∧ (t.ptpPort port).t2 = rx - ingressNs s port
      ∧ (t.ptpPort port).qualified = (s.ptpPort port).qualified
      ∧ (t.ptpPort port).good = (if 0 < (s.ptpPort port).good ∧ th - (s.ptpPort port).runOffset ≤ 1000
          ∧ (s.ptpPort port).runOffset - th ≤ 1000 then (s.ptpPort port).good + 1 else 1))
  ∧ (∀ (s : State) (port domain sender : Nat) (o c t2 th : Int), s.running = true → port < 2 → fromMaster s port domain sender = true →
    (s.ptpPort port).awaiting = some (sender, t2) → s.time.source ≠ port + 1 → s.time.source ≠ 0 → s.time.source ≠ 4 →
    (s.ptpPort port).good = 15 → (s.ptpPort port).qualified = false → th = o + c + (s.ptpPort port).pathDelay - t2 →
    th - (s.ptpPort port).runOffset ≤ 1000 → (s.ptpPort port).runOffset - th ≤ 1000 →
    ∃ t, exec (.ptpFollowUp port domain sender o c) s = .next t ∧ (t.ptpPort port).qualified = true
      ∧ (t.ptpPort port).qualifiedSince = s.time.elapsed ∧ t.time.source = s.time.source)
  ∧ (∀ (s : State) (port : Nat) (a : Announce), s.running = true → port < 2 →
    ((s.ptpPort port).master = none ∨ ∃ m, (s.ptpPort port).master = some m ∧ m.sender ≠ a.sender
      ∧ keyBefore (announceKey a) (announceKey m) = true) →
    ∃ t, exec (.ptpAnnounce port s.ptpDomain a) s = .next t ∧ (t.ptpPort port).master = some a
      ∧ (t.ptpPort port).lastAnnounce = s.time.elapsed ∧ (t.ptpPort port).good = 0)
  ∧ (∀ (s : State) (port : Nat) (a m : Announce), s.running = true → port < 2 → (s.ptpPort port).master = some m →
    m.sender ≠ a.sender → keyBefore (announceKey a) (announceKey m) = false → exec (.ptpAnnounce port s.ptpDomain a) s = .next s)
  ∧ (∀ (s : State) (port domain sender : Nat) (r c : Int), s.running = true → port < 2 → fromMaster s port domain sender = true →
    ∃ t, exec (.ptpDelayResp port domain sender r c) s = .next t ∧ (t.ptpPort port).pathDelay
      = (((s.ptpPort port).t2 - (s.ptpPort port).t1) + (r - c - (s.ptpPort port).t3)) / 2)
  ∧ (∀ (s : State) (port sender : Nat) (c rx : Int), s.running = true → port < 2 →
    ∃ t, exec (.ptpPdelayMessage port s.ptpDomain sender .req c rx) s = .next t
      ∧ (t.netPort port).out = (s.netPort port).out ++ [outPdelayResp] ∧ (t.ptpPort port).pdelayReqRx = rx - ingressNs s port)
  ∧ (∀ (s : State) (port sender : Nat) (c rx : Int), s.running = true → port < 2 →
    ∃ t, exec (.ptpPdelayMessage port s.ptpDomain sender (.resp 0) c rx) s = .next t
      ∧ (t.ptpPort port).pathDelay = (rx - ingressNs s port - c - (s.ptpPort port).pdelayT1) / 2)
  ∧ (∀ (s : State) (port sender : Nat) (o c rx : Int), s.running = true → port < 2 →
    ∃ t, exec (.ptpPdelayMessage port s.ptpDomain sender (.respFollowUp o) c rx) s = .next t
      ∧ (t.ptpPort port).pathDelay = ((s.ptpPort port).pdelayT4 - (s.ptpPort port).pdelayT1
          - (o - (s.ptpPort port).pdelayTurn) - c) / 2)
  ∧ ∀ (s : State) (port : Nat) (tx : Int), s.running = true → port < 2 →
    (∃ t, exec (.ptpDelayReqSend port false tx) s = .next t ∧ (t.ptpPort port).t3 = tx + egressNs s port
      ∧ (t.netPort port).out = (s.netPort port).out ++ [outDelayReq])
    ∧ ∃ t, exec (.ptpDelayReqSend port true tx) s = .next t ∧ (t.ptpPort port).pdelayT1 = tx + egressNs s port
      ∧ (t.netPort port).out = (s.netPort port).out ++ [outPdelayReq]

/-- PTP_SYNC_LOSS, ANNOUNCE_RECEIPT_TIMEOUT, TIMEIN_LOSS and SOURCE_PROMOTION (03 R95, R96, R97): a lost source is no longer qualified, and when it was in
use the best one left or holdover takes its place, with record 0x0200; a higher-ranked source that has been qualified for 60 s takes over. -/
def Obligations.SourcesAreLostAndPromoted : Prop :=
  (∀ (s : State) (port : Nat), s.running = true → port < 2 →
    ∃ t, exec (.ptpSyncLoss port) s = .next t ∧ (t.ptpPort port).qualified = false ∧ (t.ptpPort port).good = 0
      ∧ (s.time.source ≠ port + 1 → t.time.source = s.time.source ∧ t.journal = s.journal)
      ∧ (s.time.source = port + 1 → (∀ c ∈ s.ranks, c ≠ port + 1 → s.qualified c = false) →
        t.time.source = 4 ∧ ∃ r, t.journal.waiting = s.journal.waiting ++ [r] ∧ r.type = 0x0200))
  ∧ (∀ (s : State) (port : Nat) (m : Announce), s.running = true → port < 2 → (s.ptpPort port).master = some m →
    ∃ t, exec (.announceReceiptTimeout port) s = .next t ∧ (t.ptpPort port).master = none ∧ (t.ptpPort port).qualified = false
      ∧ t.time.elapsed = max s.time.elapsed ((s.ptpPort port).lastAnnounce + announceTimeoutNs m))
  ∧ (∀ (s : State) (l : Nat), s.running = true → s.time.timein.lastPulse = some l →
    ∃ t, exec .timeinLoss s = .next t ∧ t.time.timein.qualified = false ∧ t.time.timein.lastPulse = none
      ∧ t.time.timein.accepted = 0 ∧ t.time.elapsed = max s.time.elapsed (l + 1500000000)
      ∧ (s.time.source ≠ 3 → t.time.source = s.time.source))
  ∧ ∀ (s : State) (c : Nat), s.running = true → s.time.source ≠ 0 → s.time.source ≠ 4 → s.higher = [c] →
    ∃ t, exec .sourcePromotion s = .next t ∧ t.time.source = c
      ∧ t.time.elapsed = max s.time.elapsed (s.qualifiedSince c + 60 * second)
      ∧ ∃ r, t.journal.waiting = s.journal.waiting ++ [r] ∧ r.type = 0x0200

/-- TIMEIN_PULSE, STATION_TIME_STEP and TICK_MAPPING_UPDATE (03 R98 to R102, R110): a pulse one second after the last accepted one is accepted and
labelled, another is counted and rejected, and the third rejected in a row loses the source; a forward step puts station time forward by the offset at
its millisecond; every 60 s each stream's tick rate follows its least origin. -/
def Obligations.PulsesStepsAndTickRates : Prop :=
  (∀ s : State, s.running = true → pulseAccepted s.time.timein s.time.elapsed = true → s.time.source ≠ 3 →
    s.time.timein.accepted < 3 →
    ∃ t, exec .timeinPulse s = .next t ∧ t.time.timein.label = some (pulseLabel s) ∧ t.time.timein.lastAccepted = some s.time.elapsed
      ∧ t.time.timein.accepted = s.time.timein.accepted + 1 ∧ t.time.timein.rejectedRun = 0
      ∧ t.time.offset = (pulseLabel s : Int) - s.time.now ∧ t.time.now = s.time.now)
  ∧ (∀ s : State, s.running = true → pulseAccepted s.time.timein s.time.elapsed = false → s.time.timein.rejectedRun < 2 →
    ∃ t, exec .timeinPulse s = .next t ∧ t.time.rejects = min 255 (s.time.rejects + 1)
      ∧ t.time.timein.rejectedRun = s.time.timein.rejectedRun + 1 ∧ t.time.timein.qualified = s.time.timein.qualified
      ∧ t.time.timein.label = s.time.timein.label)
  ∧ (∀ s : State, s.running = true → pulseAccepted s.time.timein s.time.elapsed = false → s.time.timein.rejectedRun = 2 →
    ∃ t, exec .timeinPulse s = .next t ∧ t.time.timein.qualified = false ∧ t.time.timein.lastAccepted = none)
  ∧ (∀ (s : State) (at_ : Nat) (th : Int), s.running = true → s.time.pendingStep = some (at_, th) → s.stl.batch = none → 0 ≤ th →
    ∃ t, exec .stationTimeStep s = .next t ∧ t.time.pendingStep = none ∧ t.time.stepped = true
      ∧ (t.time.now : Int) = (s.atElapsed at_).time.now + th)
  ∧ ∀ s : State, s.running = true →
    ∃ t, exec .tickMappingUpdate s = .next t ∧ t.time.elapsed = roundUp s.time.elapsed (60 * second)
      ∧ ∀ n, n < 1024 → t.stream n = adjustRate (s.stream n)

/-! ## Accounts, slices and energy (03) -/

/-- SLICE_START and SLICE_NOMINAL_END (03 R118, R121, R122): the next slice of a region goes to the ready account of least finish tag, ties to the lowest
number, once the last slice is charged and entering accounts are lifted to the region's virtual time; with none ready the region runs background work.
A slice that its nominal length ends is used in full, and nothing carries; one whose account has no sample left ends without a charge; the engine's
next slice begins where the last one ended. -/
def Obligations.SlicesGoToTheLeastFinishTag : Prop :=
  (∀ (s u : State) (g : Nat) (tags : Table Nat), s.mayBegin = true → g < 4 → s.regionIssues g = true →
    u = chargeSlice (afterBackground s g) g → tags = liftTags (u.region g).vtime (readyAccounts u g) (u.region g).finish → readyAccounts u g ≠ [] →
    ∃ t a, exec (.sliceStart g) s = .next t ∧ (t.region g).account = some a ∧ a ∈ readyAccounts u g
      ∧ (∀ b ∈ readyAccounts u g, Table.get 0 a tags < Table.get 0 b tags ∨ Table.get 0 a tags = Table.get 0 b tags ∧ a ≤ b)
      ∧ (t.region g).vtime = Table.get 0 a tags ∧ (t.region g).finish = tags ∧ (t.region g).background = false)
  ∧ (∀ (s u : State) (g : Nat), s.mayBegin = true → g < 4 → s.regionIssues g = true →
    u = chargeSlice (afterBackground s g) g → readyAccounts u g = [] →
    ∃ t, exec (.sliceStart g) s = .next t ∧ (t.region g).background = true ∧ (t.region g).account = none
      ∧ (t.region g).backUntil = u.time.elapsed + 250000
      ∧ (t.region g).finish = (u.region g).finish)
  ∧ (∀ (s : State) (p a used : Nat), s.running = true → (s.engine p).slice = some (a, used) → (s.engine p).running = none →
    accountReady s (regionOf p) a = false → (s.engine p).sliceNo = (s.region (regionOf p)).sliceNo →
    ∃ t, exec (.sliceNominalEnd p) s = .next t ∧ (t.engine p).slice = none ∧ (t.engine p).carried = (s.engine p).carried
      ∧ t.till a = s.till a)
  ∧ ∀ (s : State) (p a used left : Nat), s.running = true → (s.engine p).slice = some (a, used) → (s.engine p).running = none →
    accountReady s (regionOf p) a = true → left = nominalSlice s p a s.stl.epoch.toNat - used →
    ∃ t, exec (.sliceNominalEnd p) s = .next t ∧ (t.engine p).overdraft = 0
      ∧ ((s.engine p).sliceNo = (s.region (regionOf p)).sliceNo → (t.engine p).slice = none)
      ∧ (∀ c, (s.engine p).sliceNo ≠ (s.region (regionOf p)).sliceNo → (s.region (regionOf p)).account = some c →
        (t.engine p).slice = some (c, 0))
      ∧ Table.get 0 a (t.engine p).carried = 0 ∧ t.till a = addCycles p left (s.till a)
      ∧ t.time.elapsed = max s.time.elapsed ((s.engine p).idleSince + ceilDiv (left * 32) (3 * max (s.engine p).ratio 1))

/-- ENERGY_APPORTION (03 R127): each millisecond's energies go to the tills in proportion to what each did, and none is lost: the parts and what the
static till takes add up to the energies measured. SLOWDOWN_SECOND (03 R129, R130): each second an account's ratio is the mean of its samples, its
seconds above the threshold are counted, and at the tenth record 0x0203 names it. MODEL_SWITCH_CUT and MODEL_SWITCH_END (03 R132 to R134): once every
region has completed its old-epoch samples the switch runs for T_switch; at its end, no earlier than that and not while a region restarts, the new
model is resident and every region admits again. -/
def Obligations.EnergySlowdownAndModelSwitch : Prop :=
  ((∀ (s : State) (e : Energy), s.running = true →
    ∃ t, exec (.energyApportion e) s = .next t
      ∧ (∀ i, i < 64 → t.till i = clearMs (addEnergy (s.till i) (partOf e s.sharingTills i)))
      ∧ (∀ i, i < 4 → t.devTill i = clearMs (addEnergy (s.devTill i) (partOf e s.sharingTills (64 + i))))
      ∧ t.devTill 4 = addEnergy (s.devTill 4) (e.idle + unclaimed e s.sharingTills))
  ∧ ∀ (s : State) (e : Energy),
    ((List.range 68).map (partOf e s.sharingTills)).sum + unclaimed e s.sharingTills = e.cd0 + e.cd1 + e.media + e.dram)
  ∧ (∀ s : State, s.running = true →
    ∃ t, exec .slowdownSecond s = .next t ∧ t.time.elapsed = roundUp s.time.elapsed second
      ∧ ∀ a, a < 64 → (t.till a).slowdown = slowRatio (s.till a).samples ∧ (t.till a).samples = []
        ∧ (t.till a).overSeconds = (if s.cfg.alarmOf a < slowRatio (s.till a).samples then (s.till a).overSeconds + 1 else 0)
        ∧ (s.cfg.alarmOf a < slowRatio (s.till a).samples → (s.till a).overSeconds = 9 →
          ∃ r ∈ t.journal.waiting, r.type = 0x0203 ∧ r.account = a))
  ∧ ((∀ (s : State) (x : Switch), s.running = true → s.switch = some x → x.cutAt = none → (List.range 4).all (regionCut s) = true →
    ∃ t y, exec .modelSwitchCut s = .next t ∧ t.switch = some y ∧ y.cutAt = some s.time.elapsed ∧ y.new = x.new
      ∧ (x.adoption = true → y.deadline = s.time.elapsed + switchNs s x.bytes 0)
      ∧ (x.adoption = false → y.deadline = s.time.elapsed + switchNs s x.bytes (x.new.convBytes * s.cfg.active.length))
      ∧ ∀ g, g < 4 → (t.region g).cut = true)
  ∧ (∀ (s : State) (x : Switch), s.running = true → s.switch = some x → x.cutAt = none → (List.range 4).all (regionCut s) = false →
    exec .modelSwitchCut s = .next s)
  ∧ (∀ (s : State) (x : Switch), s.running = true → s.switch = some x → x.cutAt ≠ none →
    ((List.range 4).any fun g => decide ((s.region g).state = 1) && !(s.region g).fenced) = false →
    ∃ t, exec .modelSwitchEnd s = .next t ∧ t.switch = none ∧ t.time.elapsed = max s.time.elapsed x.deadline)
  ∧ (∀ (s : State) (x : Switch), s.running = true → s.switch = some x → x.cutAt ≠ none →
    ((List.range 4).any fun g => decide ((s.region g).state = 1) && !(s.region g).fenced) = true →
    exec .modelSwitchEnd s = .next s)
  ∧ ∀ (s : State) (x : Switch), s.running = true → s.switch = some x → x.cutAt ≠ none → s.rolling = [] →
    ((List.range 4).any fun g => decide ((s.region g).state = 1) && !(s.region g).fenced) = false →
    ∃ t, exec .modelSwitchEnd s = .next t ∧ ∀ g, g < 4 → (t.region g).cut = false ∧ (t.region g).admitStopped = false)

/-! ## Ingest and the command ring (04, 17, 18) -/

/-- ETH_FRAME_RECEIVE and RTP_DATAGRAM (04 R142, R143, R145, R146, 18 R527, R529): a frame is counted, a bad or unclaimed one is dropped and counted, an
address query for the port is answered; fragments and failed checksums are counted and dropped; RTCP, other protocols, routing headers and unsupported
packetizations are dropped; a datagram no row matches is counted, and one that a row matches counts for its stream and is held with its sequence
number and the epoch in force. REORDER_HOLD_EXPIRY (04 R146, R147): when the hold of the head access unit of a stream ends, that unit is released and
no packet of it is held any more. -/
def Obligations.DatagramsAreTakenAndReleased : Prop :=
  ((∀ (s : State) (port : Nat) (f : Frame), s.answers = true → port < 2 → s.portUp port = true →
    ∃ t, exec (.ethFrameReceive port f) s = .next t ∧ (t.netPort port).rx = (s.netPort port).rx + 1
      ∧ (t.netPort port).fcsErr = (s.netPort port).fcsErr + (if f.fcsError then 1 else 0)
      ∧ (t.netPort port).dropped = (s.netPort port).dropped
          + (if f.fcsError = false ∧ (frameSizeOk f = false ∨ claimOf s port f = none) then 1 else 0)
      ∧ (t.netPort port).out = (if f.fcsError = false ∧ frameSizeOk f = true ∧ claimOf s port f = some .answer then
          (s.netPort port).out ++ [outAnswer] else (s.netPort port).out))
  ∧ (∀ (s : State) (d : Datagram), s.running = true → d.port < 2 → d.fragment = true →
    ∃ t, exec (.rtpDatagram d) s = .next t ∧ (t.netPort d.port).fragments = (s.netPort d.port).fragments + 1 ∧ t.streams = s.streams)
  ∧ (∀ (s : State) (d : Datagram), s.running = true → d.port < 2 → d.fragment = false →
    d.proto ≠ 17 ∨ d.ipv6 = true ∧ d.routing = true → exec (.rtpDatagram d) s = .next s)
  ∧ (∀ (s : State) (d : Datagram), s.running = true → d.port < 2 → d.fragment = false → d.proto = 17 → d.ipv6 = false ∨ d.routing = false →
    d.checksumOk = false →
    ∃ t, exec (.rtpDatagram d) s = .next t ∧ (t.netPort d.port).checksumFails = (s.netPort d.port).checksumFails + 1
      ∧ t.streams = s.streams)
  ∧ (∀ (s : State) (d : Datagram), s.running = true → d.port < 2 → d.fragment = false → d.proto = 17 → d.ipv6 = false ∨ d.routing = false →
    d.checksumOk = true → isRtcp d.payload = true ∨ d.udpPort = 319 ∨ d.udpPort = 320 → exec (.rtpDatagram d) s = .next s)
  ∧ (∀ (s : State) (d : Datagram), s.running = true → d.port < 2 → d.fragment = false → d.proto = 17 → d.ipv6 = false ∨ d.routing = false →
    d.checksumOk = true → isRtcp d.payload = false → d.udpPort ≠ 319 → d.udpPort ≠ 320 →
    (parseRtp d.payload).bind (streamOf s d) = none →
    ∃ t, exec (.rtpDatagram d) s = .next t ∧ t.ingUnmatched = s.ingUnmatched + 1 ∧ t.streams = s.streams)
  ∧ (∀ (s : State) (d : Datagram) (p : Rtp) (n : Nat), s.running = true → d.port < 2 → d.fragment = false → d.proto = 17 →
    d.ipv6 = false ∨ d.routing = false → d.checksumOk = true → isRtcp d.payload = false → d.udpPort ≠ 319 → d.udpPort ≠ 320 →
    parseRtp d.payload = some p → streamOf s d p = some n →
    (s.stream n).receives = false ∨ supported (s.cfg.stream n).codec p.payload = false → exec (.rtpDatagram d) s = .next s)
  ∧ ∀ (s : State) (d : Datagram) (p : Rtp) (n : Nat), s.running = true → d.port < 2 → d.fragment = false → d.proto = 17 →
    d.ipv6 = false ∨ d.routing = false → d.checksumOk = true → isRtcp d.payload = false → d.udpPort ≠ 319 → d.udpPort ≠ 320 →
    parseRtp d.payload = some p → streamOf s d p = some n → (s.stream n).receives = true →
    supported (s.cfg.stream n).codec p.payload = true → s.stl.batch = none →
    ∃ t, exec (.rtpDatagram d) s = .next t ∧ (t.stream n).counters.packets = (s.stream n).counters.packets + 1
      ∧ (∀ a, t.byte a = s.byte a)
      ∧ ((s.stream n).packets = [] → (s.stream n).released = none → (s.stream n).seqBase = none → p.marker = false →
        (t.stream n).packets.map (fun q => (q.seq, q.timestamp, q.arrival, q.epoch, q.data))
          = [(65536 + p.seq % 65536, p.timestamp, s.time.now, s.stl.epoch.toNat, p.payload)]))
  ∧ (∀ (s : State) (n due : Nat) (p : Packet) (run rest : List Packet), s.running = true → headRun (s.stream n).packets = (p :: run, rest) →
    headDeadline (((s.cfgOf p.epoch).stream n).holdMs * 1000000) (p :: run) rest = some due →
    ∃ t, exec (.reorderHoldExpiry n) s = .next t ∧ t.time.elapsed = max s.time.elapsed due
      ∧ (∃ k, (t.stream n).packets = rest.drop k) ∧ (t.stream n).lastReleasedTs ≠ none)

/-- COMMAND_RING_FETCH (17 R508 to R513): entries are taken in order from the head while their phase bit is the expected one; an entry that is ill formed
is completed with RANGE in its done byte; one whose CRC fails is left and counted; an unreachable ring counts a failure. Nothing but the host's memory
is written. PUSH_PAYLOAD_COMPLETE (04 R149): when the last byte of a stream's oldest push has arrived its entry is completed in the host's ring, with
STATE for a stream that no longer takes it; no other byte changes while no batch is pending. -/
def Obligations.CommandRingAndPushesAreServed : Prop :=
  ((∀ s : State, s.pciServes = true →
    ∃ t, exec .commandRingFetch s = .next t ∧ t.pci.lastFetch = t.time.elapsed ∧ ∀ a, a < hostBase → t.byte a = s.byte a)
  ∧ (∀ (s u : State), s.pciServes = true → u = readConsumed { fetchTime s with pci := { (fetchTime s).pci with
      lastFetch := (fetchTime s).time.elapsed, fetchAgain := false } } → u.ringFetched = true →
    ((fetchIndices u.pci).all fun i => u.hostReachable (u.pci.entryAddr i) 128) = false →
    ∃ t, exec .commandRingFetch s = .next t ∧ t.pci.timeouts = u.pci.timeouts + 1 ∧ t.pci.cmdHead = u.pci.cmdHead)
  ∧ (∀ (s : State) (e : List Byte) (r : List (List Byte)), s.pci.cmdEnable = true → (field e 1 1).testBit 0 ≠ s.pci.cmdPhase →
    takeEntries (e :: r) s 0 = (s, 0))
  ∧ (∀ (s : State) (e : List Byte) (k : Nat), s.pci.cmdEnable = true → (field e 1 1).testBit 0 = s.pci.cmdPhase → entryCrcOk e = true →
    entryFormOk e = false →
    (takeEntries [e] s k).2 = k + 1 ∧ (takeEntries [e] s k).1.pci.entries = s.pci.entries + 1
      ∧ (takeEntries [e] s k).1.pci.cmdHead = (s.pci.cmdHead + 1) % s.pci.ringSize
      ∧ (takeEntries [e] s k).1.byte (hostBase + (s.pci.entryAddr s.pci.cmdHead + 4)) = BitVec.ofNat 8 (0x80 + stRANGE)
      ∧ ∀ a, a ≠ hostBase + (s.pci.entryAddr s.pci.cmdHead + 4) → (takeEntries [e] s k).1.byte a = s.byte a)
  ∧ ∀ (s : State) (e : List Byte) (r : List (List Byte)) (k : Nat), s.pci.cmdEnable = true → (field e 1 1).testBit 0 = s.pci.cmdPhase →
    entryCrcOk e = false → Table.get 0 s.pci.cmdHead s.pci.bad + 1 < 8 →
    (takeEntries (e :: r) s k).2 = k ∧ (takeEntries (e :: r) s k).1.pci.cmdHead = s.pci.cmdHead
      ∧ Table.get 0 s.pci.cmdHead (takeEntries (e :: r) s k).1.pci.bad = Table.get 0 s.pci.cmdHead s.pci.bad + 1)
  ∧ (∀ (s : State) (n i : Nat) (irq : Bool) (rest : List (Nat × Bool × Nat)) (u : AccessUnit) (us : List AccessUnit) (st : Nat),
    s.running = true → takeFetching n s.pci.fetching = some ((i, irq), rest) → (s.stream n).pushes = u :: us → s.stl.batch = none →
    st = (if ((s.cfg.stream n).active && (s.cfg.stream n).host && (s.stream n).receives) = true then stOK else stSTATE) →
    ∃ t, exec (.pushPayloadComplete n u.tick) s = .next t ∧ (t.stream n).pushes = us ∧ t.pci.entries = s.pci.entries + 1
      ∧ t.pci.fetching = rest ∧ t.byte (hostBase + (s.pci.entryAddr i + 4)) = BitVec.ofNat 8 (0x80 + st)
      ∧ ∀ a, a ≠ hostBase + (s.pci.entryAddr i + 4) → t.byte a = s.byte a)

/-! ## Decoding (04) -/

/-- DECODE_PICTURE_COMPLETE and DECODE_BUDGET_EXHAUSTED (04 R151 to R157, R160): a picture at its boundary is counted once, as complete or flagged, and
its media cycles are charged; classes B and V abandon it and the stream waits for a random-access point; class P opens the wait without a picture;
classes F and D stop the stream. A replay leaves its stream's own counters alone. -/
def Obligations.PictureBoundariesCount : Prop :=
  (∀ (s : State) (d n : Nat) (u : AccessUnit) (o : PictureOutcome) (cs : List ErrClass) (row : StreamRow) (sp : SeqParams) (hidden : List Nat),
    s.running = true → (s.dec d).job = some (n, u) → (s.dec d).replay = none → row = (s.cfgOf u.epoch).stream n →
    cs = pictureClasses s row (s.stream n) u o false → .p ∉ cs → .f ∉ cs → .d ∉ cs →
    Table.get none o.uses (keepParams (s.stream n).params o.params) = some sp →
    hidden = (if cs.any classConceals = true then concealedList row (s.stream n) sp o else []) →
    o.rasl = false → o.parameterSetsOnly = false → u.parameterSets = false →
    ∃ t, exec (.decodePictureComplete d o) s = .next t
      ∧ (t.stream n).counters.pictures = (s.stream n).counters.pictures
          + (if hidden ≠ [] ∨ o.inRecovery = true ∨ .m ∈ cs ∨ .v ∈ cs then 0 else 1)
      ∧ (t.stream n).counters.abandoned = (s.stream n).counters.abandoned + (if cs.any classAbandons = true then 1 else 0)
      ∧ (t.stream n).started = true
      ∧ (t.till row.account).msMedia = (s.till row.account).msMedia + pictureCycles row cs hidden.length o)
  ∧ (∀ (s : State) (d n : Nat) (u : AccessUnit) (o : PictureOutcome) (cs : List ErrClass), s.running = true →
    (s.dec d).job = some (n, u) → (s.dec d).replay = none → cs = pictureClasses s ((s.cfgOf u.epoch).stream n) (s.stream n) u o true →
    .p ∉ cs → .f ∉ cs → .d ∉ cs → .w ∉ cs → .v ∉ cs →
    o.rasl = false → o.parameterSetsOnly = false → u.parameterSets = false →
    ∃ t r, exec (.decodeBudgetExhausted d o) s = .next t ∧ (t.stream n).state = 3 ∧ (t.stream n).waitRap = true
      ∧ (t.stream n).counters.abandoned = (s.stream n).counters.abandoned + 1
      ∧ r ∈ t.journal.waiting ∧ r.type = 0x0005 ∧ r.status = stBUDGET ∧ r.stream = n ∧ r.tick = u.tick)
  ∧ (∀ (s : State) (d n : Nat) (u : AccessUnit) (o : PictureOutcome) (cs : List ErrClass), s.running = true →
    (s.dec d).job = some (n, u) → (s.dec d).replay = none → cs = pictureClasses s ((s.cfgOf u.epoch).stream n) (s.stream n) u o false →
    .p ∈ cs → .f ∉ cs → .d ∉ cs →
    ∃ t, exec (.decodePictureComplete d o) s = .next t ∧ (t.stream n).waitRap = true
      ∧ (t.stream n).state = (if (s.stream n).started then 3 else 1) ∧ (t.stream n).counters = (s.stream n).counters)
  ∧ (∀ (s : State) (d n : Nat) (u : AccessUnit) (o : PictureOutcome) (cs : List ErrClass), s.running = true →
    (s.dec d).job = some (n, u) → (s.dec d).replay = none → cs = pictureClasses s ((s.cfgOf u.epoch).stream n) (s.stream n) u o false →
    .f ∈ cs ∨ .d ∈ cs →
    ∃ t r, exec (.decodePictureComplete d o) s = .next t ∧ (t.stream n).state = (if .f ∈ cs then 4 else 5)
      ∧ r ∈ t.journal.waiting ∧ r.type = 0x0002 ∧ r.stream = n)
  ∧ ∀ (s : State) (d n ident : Nat) (u : AccessUnit) (o : PictureOutcome), s.running = true → (s.dec d).job = some (n, u) →
    (s.dec d).replay = some ident →
    ∃ t, exec (.decodePictureComplete d o) s = .next t ∧ (t.stream n).counters = (s.stream n).counters
      ∧ (t.stream n).lastTick = (s.stream n).lastTick

/-! ## The journal (04) -/

/-- JOURNAL_RECORD_APPEND (04 R161, R162): the oldest waiting record takes the next number, is held, and is written to the reserve as its 128 bytes; no
other byte changes. A record that would reach the last complete mark waits. JOURNAL_MARK_START and JOURNAL_MARK_COMPLETE (04 R162): a mark holds the
number then being written plus 2^18, and one begins 1 s after the last began or once numbering comes within 2^17 of the last; once complete it is the
last mark and kept, as its 32 bytes, with the newest of the others; a failed one is retried at the next place. SECOND_SUMMARY (04 R164, R645, 05 R191,
11 R354, 12 R386, 14 R410, 15 R470, 18 R533): at the end of a second what was counted in it is written and every count starts again. -/
def Obligations.RecordsMarksAndSummaries : Prop :=
  ((∀ (s : State) (r : Rec) (rest : List Rec), s.answers = true → s.journal.waiting = r :: rest → s.journal.next < s.journal.lastMark →
    ∃ t, exec .journalRecordAppend s = .next t ∧ t.journal.waiting = rest ∧ t.journal.next = s.journal.next + 1
      ∧ (∀ i, (h : i < (recordBytes { r with seq := s.journal.next }).length) →
        t.byte (s.recordAddr s.journal.next + i) = (recordBytes { r with seq := s.journal.next })[i])
      ∧ ∀ j, j < s.recordAddr s.journal.next
          ∨ s.recordAddr s.journal.next + (recordBytes { r with seq := s.journal.next }).length ≤ j → t.byte j = s.byte j)
  ∧ (∀ s : State, s.answers = true → s.journal.lastMark ≤ s.journal.next → exec .journalRecordAppend s = .next s)
  ∧ ∀ r : Rec, (recordBytes r).length = 128)
  ∧ ((∀ s : State, s.answers = true → s.journal.marking = none →
    ∃ t, exec .journalMarkStart s = .next t ∧ t.journal.marking = some (s.journal.next + 2 ^ 18)
      ∧ t.journal.lastMarkStart = t.time.elapsed ∧ t.journal.lastMark = s.journal.lastMark
      ∧ t.time.elapsed = (if s.journal.lastMark ≤ s.journal.next + 2 ^ 17 then s.time.elapsed
          else max s.time.elapsed (s.journal.lastMarkStart + second)))
  ∧ (∀ (s : State) (m : Nat), s.answers = true → s.journal.marking = some m →
    ∃ t, exec (.journalMarkComplete true) s = .next t ∧ t.journal.marking = none ∧ t.journal.lastMark = m
      ∧ t.journal.marks.getLast? = some ⟨s.journal.markPos, markBytes m⟩ ∧ t.journal.marks.length ≤ 8
      ∧ t.journal.markPos = s.journal.markPos + 1)
  ∧ (∀ m, (markBytes m).length = 32)
  ∧ ∀ (s : State) (m : Nat), s.answers = true → s.journal.marking = some m →
    ∃ t, exec (.journalMarkComplete false) s = .next t ∧ t.journal.marking = some m ∧ t.journal.lastMark = s.journal.lastMark
      ∧ t.journal.markPos = s.journal.markPos + 1)
  ∧ (∀ s : State, s.running = true →
    ∃ t, exec .secondSummary s = .next t ∧ t.time.elapsed = max s.time.elapsed (secondEnd s) ∧ t.journal.summed = secondEnd s / second
      ∧ t.flt.secCorrected = [] ∧ t.ledger.secFull = 0 ∧ t.lnk.exportDropped = 0 ∧ t.lnk.servedSecond = 0
      ∧ (∀ n ∈ s.streams.map (·.1), (t.stream n).secFlagged = 0 ∧ (t.stream n).secLost = 0 ∧ (t.stream n).secDiscarded = 0
        ∧ (t.stream n).concealRec = none ∧ (t.stream n).missRec = none)
      ∧ (∀ e ∈ s.flt.secCorrected, ∃ r ∈ t.journal.waiting, r.type = 0x0600
        ∧ r.payload = .flt { cls := 1, source := e.1.1, unit := e.1.2, count := e.2 })
      ∧ ∀ r ∈ s.journal.waiting, r ∈ t.journal.waiting)

/-! ## Pre-processing and rolling batches (05) -/

/-- PREPROCESS_START, PREPROCESS_COMPLETE, PICTURE_DEADLINE and HOST_ASSIST_CLEAR (05 R174, R181 to R186, 14 R415): while no zone picture waits, the
oldest picture that may start leaves the queue for the unit; its tensors, formed from its samples, are stored at the 4 KiB page told, and nowhere
else, and its sample queues for its region; a void picture gives no sample and its stream restarts; a picture at its deadline is shed; the mark set
last is cleared when its work fits below the low watermark. BATCH_STEP_BOUNDARY (05 R188, R189): at the boundary of a step every member left advances
one segment, members that have run their last segment or were removed leave, and samples that join start at segment 0. -/
def Obligations.PicturesBecomeSamplesInBatches : Prop :=
  ((∀ (s : State) (a : Nat) (p : Picture), s.mayBegin = true → (s.acct a).current = none → zoneWaits s = false → nextPicture s a = some p →
    ∃ t, exec (.preprocessStart a) s = .next t ∧ (t.acct a).queue = (s.acct a).queue.filter (· != p)
      ∧ (t.acct a).current = some { p with
          fullFrame := fullFramePass ((s.cfgOf p.epoch).stream p.stream) (s.stream p.stream) p.analysisWindow p.epoch }
      ∧ (t.stream p.stream).forceFull = false)
  ∧ (∀ (s : State) (a : Nat), s.mayBegin = true → (s.acct a).current = none → zoneWaits s = false → nextPicture s a = none →
    ∃ t, exec (.preprocessStart a) s = .next t ∧ (t.acct a).queue = (s.acct a).queue ∧ (t.acct a).current = none)
  ∧ (∀ (s : State) (a : Nat), zoneWaits s = true → exec (.preprocessStart a) s = .next s)
  ∧ (∀ (s u : State) (a page sats g : Nat) (p : Picture) (row : StreamRow) (bytes : List Byte) (fell : Bool), s.running = true →
    (s.acct a).current = some p → p.voidIn s = false → row = (s.cfgOf p.epoch).stream p.stream → (s.stream p.stream).hostTensors = [] →
    u = s.modAcct a (fun x => { x with current := none }) → g = (homeRegion u p).getD row.region →
    tensorsOf u (s.cfgOf p.epoch).model row (u.stream p.stream) p = (some (bytes, sats), fell) →
    ∃ t q, exec (.preprocessComplete a p.stream p.tick page) s = .next t ∧ (t.acct a).current = none
      ∧ (t.rollingOf g a).waiting = (s.rollingOf g a).waiting ++ [q] ∧ q.stream = p.stream ∧ q.tick = p.tick ∧ q.epoch = p.epoch
      ∧ t.preConvSat = s.preConvSat + BitVec.ofNat 64 sats
      ∧ (t.stream p.stream).forceFull = (fell || (s.stream p.stream).forceFull)
      ∧ (∀ i, (h : i < bytes.length) → t.byte (4096 * page + i) = bytes[i])
      ∧ ∀ j, j < 4096 * page ∨ 4096 * page + bytes.length ≤ j → t.byte j = s.byte j)
  ∧ (∀ (s : State) (a page : Nat) (p : Picture), s.running = true → (s.acct a).current = some p → p.voidIn s = true →
    (s.stream p.stream).hostTensors = [] →
    ∃ t, exec (.preprocessComplete a p.stream p.tick page) s = .next t ∧ (t.acct a).current = none ∧ t.rolling = s.rolling
      ∧ (∃ r, r ∈ t.journal.waiting ∧ r.type = 0x0602 ∧ r.stream = p.stream) ∧ ∀ j, t.byte j = s.byte j)
  ∧ (∀ (s : State) (a n tick : Nat) (p : Picture), s.running = true → (s.stream n).hostTensors.contains tick = false →
    (s.accts.findSome? fun e => (e.2.queue.find? fun p => p.stream == n && p.tick == tick).map fun p => (e.1, p)) = some (a, p) →
    ∃ t, exec (.pictureDeadline n tick) s = .next t ∧ (t.acct a).shed = (s.acct a).shed + 1
      ∧ ((s.stream n).hostTensors = [] → (t.acct a).queue = (s.acct a).queue.filter (· != p)))
  ∧ (∀ (s : State) (a n since : Nat) (ms : List Nat), s.running = true → (s.acct a).lowSince = some since →
    (s.acct a).marks = ms ++ [n] →
    s.backlog a + s.costNs ((((s.acct a).queue.filter fun p => p.stream == n).map fun p => pictureCost (s.cfgOf p.epoch).model p).sum) ≤ s.cfg.lowMark →
    ∃ t r, exec (.hostAssistClear a) s = .next t ∧ (t.stream n).assisted = false ∧ n ∉ (t.acct a).marks
      ∧ t.time.elapsed = max s.time.elapsed (since + second) ∧ r ∈ t.journal.waiting ∧ r.type = 0x0041 ∧ r.stream = n ∧ r.account = a)
  ∧ ∀ (s : State) (a n since : Nat) (ms : List Nat), s.running = true → (s.acct a).lowSince = some since →
    (s.acct a).marks = ms ++ [n] →
    s.cfg.lowMark < s.backlog a + s.costNs ((((s.acct a).queue.filter fun p => p.stream == n).map fun p => pictureCost (s.cfgOf p.epoch).model p).sum) →
    ∃ t, exec (.hostAssistClear a) s = .next t ∧ (t.acct a).marks = (s.acct a).marks ∧ t.streams = s.streams)
  ∧ (∀ (s : State) (g a : Nat), s.running = true → g < 4 → a < 64 → s.regionIssues g = true →
    ∃ t, exec (.batchStepBoundary g a) s = .next t ∧ (t.rollingOf g a).step = (s.rollingOf g a).step + 1
      ∧ (∀ x ∈ (s.rollingOf g a).members, x.removed = false → x.segment + 1 < (s.cfgOf x.epoch).model.segments →
        { x with segment := x.segment + 1 } ∈ (t.rollingOf g a).members)
      ∧ ∀ y ∈ (t.rollingOf g a).members, y.removed = false ∧ (y.segment = 0 ∨ ∃ x ∈ (s.rollingOf g a).members,
        y = { x with segment := x.segment + 1 } ∧ x.segment + 1 < (s.cfgOf x.epoch).model.segments))

/-! ## Tiles (07, 08) -/

/-- TILE_START (08 R271, R289): a tile that the engine may take and that passes every check of its start runs from now on; one that fails a check is
rejected: its completion carries the status and the number of the first check it fails, and the engine runs nothing. TILE_COMMIT (07 R247, R249, 08
R289): once the last block of a tile's last pass has drained, a tile that meets no fault writes its outputs where its descriptors place them and
nowhere else, is counted, and completes with OK and its cycles; one with no work, or a combine with a void part, completes with EMPTY and writes
nothing. The engine then runs nothing. -/
def Obligations.TilesStartAndCommit : Prop :=
  ((∀ (s : State) (p : Nat) (i : TileIssue), mayIssue s p i = true → (s.engine p).failedJobs.contains (parseTile i.cmd).job = false →
    startCheck (s.tileEnv p i) = none →
    ∃ t r, exec (.tileStart p i) s = .next t ∧ (t.engine p).running = some r ∧ r.issue = i ∧ r.start = s.time.elapsed
      ∧ (t.engine p).activity = (if (s.tileEnv p i).plan.isEmpty then 2 else 1))
  ∧ ∀ (s : State) (p : Nat) (i : TileIssue) (f : CheckFail), mayIssue s p i = true →
    (s.engine p).failedJobs.contains (parseTile i.cmd).job = false → startCheck (s.tileEnv p i) = some f →
    ∃ t c, exec (.tileStart p i) s = .next t ∧ (t.engine p).running = none
      ∧ (t.region (regionOf p)).completions = (s.region (regionOf p)).completions ++ [c]
      ∧ c.tile = (parseTile i.cmd).tile ∧ c.job = (parseTile i.cmd).job ∧ c.status = f.status ∧ c.check = f.check)
  ∧ (∀ (s u : State) (p cycles : Nat) (r : Running) (x : TileEnv) (voidPart : Bool), s.running = true → (s.engine p).running = some r →
    cycles ≤ 30000 → u = finishPasses s p r.issue → x = u.tileEnv p r.issue →
    voidPart = (x.c.opcode == 3 && (s.engine p).combines.any fun b => b.job == x.c.job && b.tile == x.c.tile && b.empty) →
    (∀ d : TileDone, x.attempt = (d, none) → x.work ≠ [] → voidPart = false →
      ∃ t, exec (.tileCommit p cycles) s = .next t ∧ (t.engine p).running = none ∧ (t.engine p).tiles = (s.engine p).tiles + 1
        ∧ (∃ c ∈ (t.region (regionOf p)).completions, c.tile = x.c.tile ∧ c.job = x.c.job ∧ c.status = stOK ∧ c.cycles = cycles)
        ∧ (∀ a, (∀ w ∈ d.flow.writes, a < writeAddr x w ∨ writeAddr x w + w.2.2.length ≤ a) → t.byte a = s.byte a)
        ∧ ∀ pre w post, d.flow.writes = pre ++ w :: post →
          (∀ v ∈ post, writeAddr x v + v.2.2.length ≤ writeAddr x w ∨ writeAddr x w + w.2.2.length ≤ writeAddr x v) →
          ∀ i, (h : i < w.2.2.length) → t.byte (writeAddr x w + i) = w.2.2[i])
    ∧ (x.work = [] ∨ voidPart = true →
      ∃ t, exec (.tileCommit p cycles) s = .next t ∧ (t.engine p).running = none ∧ (t.engine p).tiles = (s.engine p).tiles + 1
        ∧ (∃ c ∈ (t.region (regionOf p)).completions, c.tile = x.c.tile ∧ c.job = x.c.job ∧ c.status = stEMPTY)
        ∧ ∀ a, t.byte a = s.byte a))

/-- OPERAND_PARITY_ERROR, DESCRIPTOR_ACCESS_FAULT, VOID_OPERAND, TILE_WATCHDOG_EXPIRY and ENGINE_SCRUB (07 R245, R246, R251, 08 R274): a tile with a
parity error, an access outside its descriptors, a void operand or more cycles than it may take is abandoned and the engine runs nothing; the first
watchdog expiry of a tile is a corrected error and the tile waits to run again, the second is contained; a scrubbed word is left, corrected and
counted, or marked void. -/
def Obligations.TilesAreAbandonedOnFaults : Prop :=
  (∀ (s : State) (p cell : Nat) (r : Running), s.running = true → (s.engine p).running = some r →
    (s.engine p).pipe.checksParity (s.planOf p r.issue) = true →
    ∃ t, exec (.operandParityError p cell) s = .next t ∧ (t.engine p).running = none
      ∧ (t.engine p).parity = min 255 ((s.engine p).parity + 1) ∧ (t.engine p).cellBits = (s.engine p).cellBits ||| 2 ^ (cell % 8)
      ∧ (t.engine p).abandons = (s.engine p).abandons + 1 ∧ t.flt.corrected = s.flt.corrected + 1
      ∧ ((s.engine p).fencePending = false → (s.engine p).rotateTo = none → (s.engine p).lastParity = none → (t.engine p).again = (s.engine p).again ++ [r]))
  ∧ (∀ (s : State) (p cell : Nat) (r : Running), (s.engine p).running = some r →
    (s.engine p).pipe.checksParity (s.planOf p r.issue) = false → exec (.operandParityError p cell) s = .next s)
  ∧ (∀ (s : State) (p : Nat) (r : Running) (d : TileDone) (f : TileFault), s.running = true → (s.engine p).running = some r →
    (s.tileEnv p r.issue).attempt = (d, some f) → f.void = false →
    ∃ t c, exec (.descriptorAccessFault p) s = .next t ∧ (t.engine p).running = none
      ∧ (t.engine p).tileFault = tileFaultWord (parseTile r.issue.cmd) f ∧ (t.engine p).abandons = (s.engine p).abandons + 1
      ∧ t.flt.contained = s.flt.contained + 1 ∧ c ∈ (t.region (regionOf p)).completions ∧ c.status = f.status ∧ c.cause = 3
      ∧ c.tile = (parseTile r.issue.cmd).tile)
  ∧ (∀ (s : State) (p : Nat) (r : Running) (d : TileDone) (f : TileFault), s.running = true → (s.engine p).running = some r →
    (s.tileEnv p r.issue).attempt = (d, some f) → f.void = true →
    ∃ t c, exec (.voidOperand p) s = .next t ∧ (t.engine p).running = none ∧ (t.engine p).abandons = (s.engine p).abandons + 1
      ∧ c ∈ (t.region (regionOf p)).completions ∧ c.status = stVOID ∧ c.cause = 4 ∧ c.tile = (parseTile r.issue.cmd).tile)
  ∧ (∀ (s : State) (p : Nat) (r : Running), s.running = true → (s.engine p).running = some r → r.watchdogs = 0 →
    ∃ t, exec (.tileWatchdogExpiry p) s = .next t ∧ (t.engine p).running = none
      ∧ t.time.elapsed = max s.time.elapsed (r.start + nsOf (s.engine p).ratio 30000) ∧ t.flt.corrected = s.flt.corrected + 1
      ∧ ((s.engine p).fencePending = false → (s.engine p).rotateTo = none →
        (t.engine p).again = (s.engine p).again ++ [{ r with watchdogs := 1 }]))
  ∧ (∀ (s : State) (p : Nat) (r : Running), s.running = true → (s.engine p).running = some r → r.watchdogs ≠ 0 →
    ∃ t, exec (.tileWatchdogExpiry p) s = .next t ∧ (t.engine p).running = none ∧ t.flt.contained = s.flt.contained + 1
      ∧ ((s.engine p).fencePending = false → (s.engine p).rotateTo = none → (t.engine p).again = (s.engine p).again))
  ∧ ∀ (s : State) (p a : Nat), s.answers = true → p < 72 → a < engineSize →
    exec (.engineScrub p a .clean) s = .next s
    ∧ (∃ t, exec (.engineScrub p a .single) s = .next t ∧ (t.engine p).memCe = (s.engine p).memCe + 1
      ∧ t.flt.corrected = s.flt.corrected + 1 ∧ t.voids = s.voids)
    ∧ ∃ t, exec (.engineScrub p a .uncorrectable) s = .next t ∧ t.anyVoid (engineBase p + a) 1 = true
      ∧ t.flt.contained = s.flt.contained + 1 ∧ t.engines = s.engines

/-! ## Transfers between engines (07, 08, 09) -/

/-- DMA_COMMAND and DMA_COMPLETE (08 R265, 07 R244, R248): a command that keeps the table waits with the tile it names; one that breaks it moves nothing,
completes at once with RANGE, and fails the job of the next tile. When a transfer runs it leaves the engine's list; a row within DRAM is copied with
its void marks; nothing outside the rows it writes changes. -/
def Obligations.DmaMovesRows : Prop :=
  (∀ (s : State) (p job : Nat) (cmd : List Byte), mayTransfer s p cmd = true → dmaOk cmd = true →
    ∃ t d, exec (.dmaCommand p cmd job) s = .next t ∧ (t.engine p).dmas = (s.engine p).dmas ++ [d] ∧ d.cmd = cmd
      ∧ d.waits = (if (parseDma cmd).wait then previousTile (s.engine p) else none) ∧ t.regions = s.regions)
  ∧ (∀ (s : State) (p job : Nat) (cmd : List Byte), mayTransfer s p cmd = true → dmaOk cmd = false →
    ∃ t c, exec (.dmaCommand p cmd job) s = .next t ∧ (t.engine p).dmas = (s.engine p).dmas
      ∧ (t.region (regionOf p)).completions = (s.region (regionOf p)).completions ++ [c]
      ∧ c.tile = 0xFFFFFFFFFFFFFFFF ∧ c.job = job ∧ c.status = stRANGE ∧ c.check = 1
      ∧ (t.engine p).failedJobs = (s.engine p).failedJobs ++ (if job = 0 then [] else [job]))
  ∧ (∀ (s : State) (p : Nat) (d : Dma) (rest : List Dma) (c : DmaCmd), s.running = true → (s.engine p).handoverFrom = none →
    takeDma (s.engine p).dmas = some (d, rest) → c = parseDma d.cmd → waitsHandover s c = false →
    s.flt.stopPhase ≠ 2 →
    (∀ i < c.rows, ∀ k < c.len, placeOf (c.dstRow i + k) ≠ .register) →
    ∃ t, exec (.dmaComplete p) s = .next t ∧ (t.engine p).dmas = rest
      ∧ ∀ a, (∀ i < c.rows, ∀ k < c.len, s.resolve (c.dstRow i + k) ≠ a) → t.byte a = s.byte a)
  ∧ ∀ (s : State) (p : Nat) (d : Dma) (rest : List Dma) (c : DmaCmd), s.running = true → (s.engine p).handoverFrom = none →
    takeDma (s.engine p).dmas = some (d, rest) → c = parseDma d.cmd → s.flt.stopPhase ≠ 2 → c.rows = 1 → inDram c.src c.len = true → inDram c.dst c.len = true →
    ∃ t, exec (.dmaComplete p) s = .next t ∧ (t.engine p).dmas = rest ∧ (∀ k < c.len, t.byte (c.dst + k) = s.byte (c.src + k))
      ∧ (s.anyVoid c.src c.len = true → t.anyVoid c.dst c.len = true)
      ∧ (s.anyVoid c.src c.len = false → c.dst % 64 = 0 → c.len % 64 = 0 → t.anyVoid c.dst c.len = false)

/-- HALO_GROUP_RECEIVED and HALO_RELEASE_ARRIVAL (08 R284, R285): the group that waits for a port is written into its slot of the ring and nowhere else,
and its sequence is the last received; a release that waits for a port frees its slot at the sender. PART_ARRIVAL and SEND_COMPLETE (08 R282, 09
R305): the first arrival of a part joins its combine and its bytes are written in the combiner; a second arrival is discarded and counted as an error
of the sender; a send is written in its destination engine. Nothing else in memory changes. -/
def Obligations.HaloGroupsPartsAndSendsTravel : Prop :=
  ((∀ (s : State) (p port : Nat) (h : HaloMsg) (rest : List HaloMsg) (d : Desc), s.running = true → (s.engine p).state = 0 →
    (s.engine p).handoverFrom = none → takeGroup (s.engine p).logical port s.halo = some (h, rest) → ringDesc s p h.ring = some d →
    forwardable s h d.groups = true →
    ∃ t, exec (.haloGroupReceived p port) s = .next t ∧ t.halo = rest
      ∧ (t.engine p).haloRx = (s.engine p).haloRx.set port h.seq ∧ (t.engine p).haloRing = (s.engine p).haloRing.set port h.ring
      ∧ (∀ r i, h.rows = [r] → (k : i < r.length) → t.byte (s.resolve d.base + (h.seq % d.groups) * d.slotBytes + i) = r[i])
      ∧ ∀ a, (∀ x ∈ h.rows.zipIdx, a < s.resolve d.base + (h.seq % d.groups) * d.slotBytes + x.2 * d.rowStride
        ∨ s.resolve d.base + (h.seq % d.groups) * d.slotBytes + x.2 * d.rowStride + x.1.length ≤ a) → t.byte a = s.byte a)
  ∧ ∀ (s : State) (p port n : Nat) (rest : List (Nat × Nat × Nat)), s.running = true →
    takeRelease (s.engine p).logical port s.haloBack = some (n, rest) →
    ∃ t, exec (.haloReleaseArrival p port) s = .next t ∧ t.haloBack = rest
      ∧ (t.engine p).haloReleased = (s.engine p).haloReleased.set port n)
  ∧ ((∀ (s : State) (c p job tile part parts : Nat) (o : SendOp) (rest : List SendOp) (cs : List Combine), s.running = true →
    (s.engine c).state = 0 → (s.engine c).handoverFrom = none → arrivedBefore (s.engine c).combines job tile part = false →
    takeSend (fun o => o.part == some (job, tile, part, parts) && o.dest == (s.engine c).logical) (s.engine p).sends = some (o, rest) →
    joinCombine (s.engine c).combines job tile part parts o.empty = some cs →
    ∃ t, exec (.partArrival c p job tile part parts) s = .next t ∧ (t.engine c).combines = cs ∧ (t.engine p).sends = rest
      ∧ (∀ pre w post, o.pieces = pre ++ w :: post →
        (∀ v ∈ post, v.1 + v.2.1.length ≤ w.1 ∨ w.1 + w.2.1.length ≤ v.1) →
        ∀ i, (h : i < w.2.1.length) → t.byte (engineBase c + w.1 + i) = w.2.1[i])
      ∧ ∀ a, (∀ w ∈ o.pieces, a < engineBase c + w.1 ∨ engineBase c + w.1 + w.2.1.length ≤ a) → t.byte a = s.byte a)
  ∧ (∀ (s : State) (c p job tile part parts : Nat), s.running = true → (s.engine c).state = 0 → (s.engine c).handoverFrom = none →
    arrivedBefore (s.engine c).combines job tile part = true →
    ∃ t, exec (.partArrival c p job tile part parts) s = .next t ∧ (t.engine p).duplicates = (s.engine p).duplicates + 1
      ∧ t.flt.corrected = s.flt.corrected + 1 ∧ ∀ a, t.byte a = s.byte a)
  ∧ ∀ (s : State) (p q : Nat) (o : SendOp) (rest : List SendOp), s.running = true →
    takeSend (fun o => o.part.isNone && (receiver s o.dest).isSome) (s.engine p).sends = some (o, rest) → receiver s o.dest = some q →
    ∃ t, exec (.sendComplete p) s = .next t ∧ (t.engine p).sends = rest
      ∧ (∀ pre w post, o.pieces = pre ++ w :: post →
        (∀ v ∈ post, v.1 + v.2.1.length ≤ w.1 ∨ w.1 + w.2.1.length ≤ v.1) →
        ∀ i, (h : i < w.2.1.length) → t.byte (engineBase q + w.1 + i) = w.2.1[i])
      ∧ ∀ a, (∀ w ∈ o.pieces, a < engineBase q + w.1 ∨ engineBase q + w.1 + w.2.1.length ≤ a) → t.byte a = s.byte a)

/-! ## Clearing and the track ledger (11) -/

/-- ASSOC, NMS, KNN, IDENT, GATHER and SCATTER (11 R336, R337, R351): a command that passes its start checks begins on a free engine, or waits behind the
one in execution; IDENT goes to the keeper, the others to the engine that serves the region; one that fails a check completes at once with its status.
CLEARING_COMMAND_COMMIT (11 R337, R347, R348): every output of a command and its completion appear at its commit; suppression and gallery search write
their output area alone, the other commands no memory. -/
def Obligations.ClearingCommandsRunAndCommit : Prop :=
  (∀ (s : State) (r k q : Nat) (cmd : List Byte) (i : Instr), clrTakes s r = true →
    (k, i) ∈ [(1, Instr.assoc r cmd), (2, Instr.nms r cmd), (3, Instr.knn r cmd), (4, Instr.ident r cmd), (5, Instr.gather r cmd),
      (6, Instr.scatter r cmd)] →
    (if k = 4 then s.keeper else s.clrServing r) = some q →
    (clrCheck s k (parseClr cmd) = none → (s.clr q).job = none → (s.clr q).held = [] → (s.clr q).fenced = false →
      ownsStream s q (parseClr cmd) = true →
      ∃ t, exec i s = .next t ∧ (∃ j, (t.clr q).job = some j ∧ j.cmd = cmd ∧ j.opcode = k ∧ j.region = r) ∧ (t.clr q).held = [])
    ∧ (clrCheck s k (parseClr cmd) = none → (s.clr q).job ≠ none →
      ∃ t j, exec i s = .next t ∧ (t.clr q).job = (s.clr q).job ∧ (t.clr q).held = (s.clr q).held ++ [j] ∧ j.cmd = cmd ∧ j.opcode = k
        ∧ j.region = r)
    ∧ ∀ st, clrCheck s k (parseClr cmd) = some st →
      ∃ t c, exec i s = .next t ∧ (t.clr q).job = (s.clr q).job ∧ (t.clr q).completions = (s.clr q).completions ++ [c]
        ∧ c.number = (parseClr cmd).number ∧ c.status = st)
  ∧ (∀ (s u : State) (r cycles : Nat) (j : ClrJob) (c : ClrCmd), s.running = true → (s.clr r).job = some j → c = parseClr j.cmd →
    clrVoid s c = false → cycles ≤ 3000000 → u = chargeClr s r j c cycles →
    ∃ t z, exec (.clearingCommandCommit ⟨r, cycles⟩) s = .next t ∧ (t.clr r).commands = (s.clr r).commands + 1
      ∧ (t.clr r).completions = (s.clr r).completions ++ [z] ∧ z.number = c.number ∧ z.job = c.job ∧ z.status = (runClr u r j c).2.1
      ∧ ((s.clr r).held = [] → (t.clr r).job = none)
      ∧ (c.opcode = 2 → ∀ i, (h : i < ((suppress u c).1.flatMap fun i => leBytes 4 i).length) →
        t.byte (u.resolve c.out + i) = ((suppress u c).1.flatMap fun i => leBytes 4 i)[i])
      ∧ (c.opcode = 3 → ∀ i, (h : i < (searchAll u c).1.length) → t.byte (u.resolve c.out + i) = (searchAll u c).1[i])
      ∧ (c.opcode = 2 → ∀ a, a < u.resolve c.out ∨ u.resolve c.out + ((suppress u c).1.flatMap fun i => leBytes 4 i).length ≤ a →
        t.byte a = s.byte a)
      ∧ (c.opcode = 3 → ∀ a, a < u.resolve c.out ∨ u.resolve c.out + (searchAll u c).1.length ≤ a → t.byte a = s.byte a)
      ∧ (c.opcode ≠ 2 → c.opcode ≠ 3 → ∀ a, t.byte a = s.byte a))

/-- CLEARING_WATCHDOG_EXPIRY, CLEARING_VOID_READ, WRITE_LOG_OVERFLOW and CLEARING_AUDIT_COPY (11 R337, R339, 14 R415, R424): an abandoned command applies
nothing and completes with its status; the first watchdog expiry runs it again; a void gallery entry loses its valid bit and nothing else is written;
an audit difference is a strike and the third within a day fences the engine. -/
def Obligations.ClearingCommandsAreAbandonedOrAudited : Prop :=
  (∀ (s : State) (r : Nat) (j : ClrJob), s.running = true → (s.clr r).job = some j → j.expiries = 0 →
    ∃ t z, exec (.clearingWatchdogExpiry r) s = .next t ∧ (t.clr r).job = some { j with expiries := 1 }
      ∧ (t.clr r).completions = (s.clr r).completions ++ [z] ∧ z.status = stBUDGET ∧ t.flt.corrected = s.flt.corrected + 1
      ∧ t.ledger = s.ledger)
  ∧ (∀ (s : State) (r : Nat) (j : ClrJob), s.running = true → (s.clr r).job = some j → j.expiries ≠ 0 → (s.clr r).held = [] →
    ∃ t z, exec (.clearingWatchdogExpiry r) s = .next t ∧ (t.clr r).job = none
      ∧ (t.clr r).completions = (s.clr r).completions ++ [z] ∧ z.status = stBUDGET ∧ t.flt.contained = s.flt.contained + 1
      ∧ t.ledger = s.ledger)
  ∧ (∀ (s : State) (r a : Nat) (j : ClrJob), s.running = true → (s.clr r).job = some j → (parseClr j.cmd).opcode = 3 →
    s.layout.gallery ≤ a → a < s.layout.gallery + s.cfg.galleryBytes →
    ∃ t, exec (.clearingVoidRead r a) s = .next t ∧ (t.clr r).job = some j
      ∧ t.byte (s.layout.galleryTags + 8 * ((a - s.layout.gallery) / 256) + 5)
        = s.byte (s.layout.galleryTags + 8 * ((a - s.layout.gallery) / 256) + 5) &&& 0xFE#8
      ∧ ∀ b, b ≠ s.layout.galleryTags + 8 * ((a - s.layout.gallery) / 256) + 5 → t.byte b = s.byte b)
  ∧ (∀ (s : State) (r a : Nat) (j : ClrJob), s.running = true → (s.clr r).job = some j → (s.clr r).held = [] →
    (parseClr j.cmd).opcode ≠ 3 ∨ a < s.layout.gallery ∨ s.layout.gallery + s.cfg.galleryBytes ≤ a →
    ∃ t z, exec (.clearingVoidRead r a) s = .next t ∧ (t.clr r).job = none
      ∧ (t.clr r).completions = (s.clr r).completions ++ [z] ∧ z.status = stVOID ∧ ∀ b, t.byte b = s.byte b)
  ∧ (∀ (s : State) (r : Nat) (j : ClrJob), s.running = true → (s.clr r).job = some j → (s.clr r).held = [] →
    ∃ t z, exec (.writeLogOverflow r) s = .next t ∧ (t.clr r).job = none
      ∧ (t.clr r).completions = (s.clr r).completions ++ [z] ∧ z.status = stBOUND ∧ t.ledger = s.ledger)
  ∧ (∀ (s : State) (r : Nat), s.running = true → r < 4 → (s.clr r).fenced = false → 0 < (s.clr r).auditDue →
    ∃ t, exec (.clearingAuditCopy r false) s = .next t ∧ t.flt.auditsRun = s.flt.auditsRun + 1
      ∧ (t.clr r).auditDue = (s.clr r).auditDue - 1 ∧ (t.clr r).strikes = (s.clr r).strikes ∧ t.journal = s.journal)
  ∧ (∀ (s : State) (r : Nat), s.running = true → r < 4 → (s.clr r).fenced = false → 0 < (s.clr r).auditDue →
    (heldStrikes s (s.clr r).strikes).length < 2 →
    ∃ t, exec (.clearingAuditCopy r true) s = .next t ∧ t.flt.disagree = s.flt.disagree + 1 ∧ t.flt.corrected = s.flt.corrected + 1
      ∧ (t.clr r).strikes = heldStrikes s (s.clr r).strikes ++ [s.time.elapsed] ∧ (t.clr r).fenced = false
      ∧ ∃ z, t.journal.waiting = s.journal.waiting ++ [z] ∧ z.type = 0x0604)
  ∧ ∀ (s : State) (r : Nat), s.running = true → r < 4 → (s.clr r).fenced = false → 0 < (s.clr r).auditDue →
    2 ≤ (heldStrikes s (s.clr r).strikes).length →
    ∃ t, exec (.clearingAuditCopy r true) s = .next t ∧ t.flt.disagree = s.flt.disagree + 1 ∧ (t.clr r).fenced = true

/-- LEDGER_WRITEBACK, QUARANTINE_END and OWNERSHIP_HANDOFF (11 R352, R357, R360): a line written back is clean; a slot that leaves quarantine is free with
generation 0 at the tail of its pool; a stream's tracks pass to the engine that serves its region and the other engines drop their lines of them. -/
def Obligations.LedgerLinesSlotsAndOwners : Prop :=
  (∀ (s : State) (r slot : Nat), s.answers = true →
    ∃ t, exec (.ledgerWriteback r slot) s = .next t ∧ (∀ l ∈ (t.clr r).lines, l.slot = slot → l.dirty = false)
      ∧ (∀ l ∈ (s.clr r).lines, l.slot ≠ slot → l ∈ (t.clr r).lines) ∧ t.ledger = s.ledger)
  ∧ (∀ (s : State) (slot : Nat), s.answers = true → (s.track slot).state = .quarantine →
    ∃ t, exec (.quarantineEnd slot) s = .next t ∧ (t.track slot).generation = 0 ∧ (t.track slot).state = .free
      ∧ Table.get [] (slot / poolSlots) t.ledger.freed = Table.get [] (slot / poolSlots) s.ledger.freed ++ [slot])
  ∧ ∀ (s : State) (n q : Nat), s.running = true → s.clrServing (s.cfg.stream n).region = some q →
    ∃ t, exec (.ownershipHandoff n) s = .next t ∧ (∀ k ∈ s.liveTracks n, (t.track k).owner = q)
      ∧ (∀ k, k ∉ s.liveTracks n → t.track k = s.track k)
      ∧ ∀ r < 4, r ≠ q → ∀ l ∈ (t.clr r).lines, l.slot ∉ s.liveTracks n

/-! ## Evidence (12) -/

/-- CLIP_REQUEST, LIVE_VIEW_START, LIVE_VIEW_STOP and CLIP_START (12 R367, R370, R374, R375): a request out of range changes nothing but the encoders'
status; a clip or view goes to the encoder with room, a clip takes its replay window and its data is pinned; without room a view is rejected with
BUDGET and a clip waits; a view that is stopped ends with record 0x0405. SLICE_EMIT, CLIP_COMPLETE, PRE_EVENT_RECLAIM and ENCODER_ASSAY (12 R372,
R376, R385, 14 R431): the next slice of an output's oldest picture is coded, its bits are counted and its descriptor ends the clip store, and nothing
is emitted while the media droop holds the encoders or no picture waits; a clip that completes gives back its window and its pins; what is neither
pinned nor young enough leaves the pre-event buffer; a failed assay fences the encoder. -/
def Obligations.EvidenceIsServed : Prop :=
  ((∀ (s : State) (req : List Byte) (src : Src) (k : Nat) (i : Instr), s.mayBegin = true → field req 0 1 = k → evReqOk s.cfg req = false →
    (k, i) ∈ [(1, Instr.clipRequest req src), (2, Instr.liveViewStart req src), (3, Instr.liveViewStop req src)] →
    ∃ t, exec i s = .next t ∧ t.evidence = s.evidence ∧ t.streams = s.streams ∧ t.journal = s.journal
      ∧ ∀ n < 4, (t.encoder n).status = stRANGE)
  ∧ (∀ (s : State) (req : List Byte) (src : Src) (r : EvReq) (row : StreamRow), s.mayBegin = true → r = parseEvReq req → r.kind = 1 →
    evReqOk s.cfg req = true → row = s.cfg.stream r.stream → replayPool < row.windowBytes →
    ∃ t x, exec (.clipRequest req src) s = .next t ∧ t.evidence = s.evidence ∧ t.streams = s.streams
      ∧ t.journal.waiting = (s.emit x).journal.waiting ∧ x.type = 0x0402 ∧ x.status = stBUDGET)
  ∧ (∀ (s : State) (req : List Byte) (src : Src) (r : EvReq) (row : StreamRow) (n : Nat), s.mayBegin = true → r = parseEvReq req → r.kind = 1 →
    evReqOk s.cfg req = true → row = s.cfg.stream r.stream → s.evidence.queue = [] → s.pickEncoder row.pixelRate false = some n →
    s.evidence.replayUsed + row.windowBytes ≤ replayPool →
    ∃ t o x, exec (.clipRequest req src) s = .next (dispatch t) ∧ t.evidence.outputs = s.evidence.outputs ++ [o] ∧ t.evidence.queue = []
      ∧ o.encoder = n ∧ o.live = false ∧ o.req.ident = r.ident ∧ o.last = r.te + r.after ∧ r.te - r.before ≤ o.first
      ∧ t.evidence.replayUsed = s.evidence.replayUsed + row.windowBytes
      ∧ t.journal.waiting = (s.emit x).journal.waiting ∧ x.type = 0x0400
      ∧ ∀ e ∈ (s.stream r.stream).pre, ((clipStart (s.stream r.stream) (r.te - r.before)).getD (r.te - r.before, true)).1 ≤ e.au.tick →
        e.au.tick ≤ r.te + r.after → { e with pins := e.pins ++ [r.ident] } ∈ (t.stream r.stream).pre)
  ∧ (∀ (s : State) (req : List Byte) (src : Src) (r : EvReq) (row : StreamRow), s.mayBegin = true → r = parseEvReq req → r.kind = 1 →
    evReqOk s.cfg req = true → row = s.cfg.stream r.stream → s.evidence.queue = [] → row.windowBytes ≤ replayPool →
    s.pickEncoder row.pixelRate false = none ∨ replayPool < s.evidence.replayUsed + row.windowBytes →
    ∃ t q, exec (.clipRequest req src) s = .next (dispatch t) ∧ t.evidence.outputs = s.evidence.outputs ∧ t.evidence.queue = [q]
      ∧ q.ident = r.ident ∧ t.journal = s.journal)
  ∧ (∀ (s : State) (req : List Byte) (src : Src) (r : EvReq) (n : Nat), s.mayBegin = true → r = parseEvReq req → r.kind = 2 →
    evReqOk s.cfg req = true → s.pickEncoder (s.cfg.stream r.stream).pixelRate true = some n →
    ∃ t o x, exec (.liveViewStart req src) s = .next t ∧ t.evidence.outputs = s.evidence.outputs ++ [o] ∧ o.encoder = n ∧ o.live = true
      ∧ o.req.ident = r.ident ∧ t.journal.waiting = (s.emit x).journal.waiting ∧ x.type = 0x0404)
  ∧ (∀ (s : State) (req : List Byte) (src : Src) (r : EvReq), s.mayBegin = true → r = parseEvReq req → r.kind = 2 →
    evReqOk s.cfg req = true → s.pickEncoder (s.cfg.stream r.stream).pixelRate true = none →
    ∃ t x, exec (.liveViewStart req src) s = .next t ∧ t.evidence = s.evidence
      ∧ t.journal.waiting = (s.emit x).journal.waiting ∧ x.type = 0x0402 ∧ x.status = stBUDGET)
  ∧ (∀ (s : State) (req : List Byte) (src : Src) (r : EvReq) (o : Output), s.mayBegin = true → r = parseEvReq req → r.kind = 3 →
    evReqOk s.cfg req = true → (s.evidence.outputs.find? fun o => o.live && o.req.ident == r.ident) = some o →
    ∃ t x, exec (.liveViewStop req src) s = .next t ∧ t.evidence.outputs = s.evidence.outputs.filter (· != o)
      ∧ t.journal.waiting = (s.emit x).journal.waiting ∧ x.type = 0x0405)
  ∧ ∀ (s : State) (r : EvReq) (rest : List EvReq) (row : StreamRow) (n : Nat), s.mayBegin = true → s.evidence.queue = r :: rest →
    row = (s.cfgOf r.epoch).stream r.stream → s.pickEncoder row.pixelRate false = some n → s.evidence.replayUsed + row.windowBytes ≤ replayPool →
    ∃ t o x, exec .clipStart s = .next (dispatch t) ∧ t.evidence.outputs = s.evidence.outputs ++ [o] ∧ t.evidence.queue = rest
      ∧ o.encoder = n ∧ o.req = r ∧ t.evidence.replayUsed = s.evidence.replayUsed + row.windowBytes
      ∧ t.journal.waiting = (s.emit x).journal.waiting ∧ x.type = 0x0400)
  ∧ ((∀ (s : State) (n ident : Nat) (o : Output) (x : Source), s.running = true → s.power.mediaHold = false → s.output n ident = some o →
    o.sources.head? = some x →
    ∃ t y, exec (.sliceEmit n ident o.row) s = .next t
      ∧ (t.encoder n).bits = (s.encoder n).bits + BitVec.ofNat 64 (codeSlice s o x).2
      ∧ (t.encoder n).pictures = (s.encoder n).pictures + (if (codeSlice s o x).1.pictureDone = true then 1 else 0)
      ∧ t.evidence.store = trimStore s.cfg.clipStore (s.evidence.store.length + 1) (s.evidence.store ++ [y])
      ∧ y.ident = o.req.ident ∧ y.tick = x.tick ∧ y.station = s.time.now ∧ y.picture = o.emitted ∧ y.bits = (codeSlice s o x).2)
  ∧ (∀ (s : State) (n ident row : Nat) (o : Output), s.output n ident = some o →
    s.power.mediaHold = true ∨ o.sources = [] ∨ o.row ≠ row → exec (.sliceEmit n ident row) s = .next s)
  ∧ (∀ (s : State) (n ident : Nat) (o : Output), s.running = true → s.output n ident = some o → o.live = false → o.sources = [] → clipFed s o = true →
    ∃ t x, exec (.clipComplete n ident) s = .next t ∧ t.evidence.outputs = s.evidence.outputs.filter (· != o)
      ∧ t.evidence.replayUsed = s.evidence.replayUsed - o.replay ∧ (∀ e ∈ (t.stream o.req.stream).pre, ident ∉ e.pins)
      ∧ t.journal.waiting = (s.emit x).journal.waiting ∧ x.type = 0x0401 ∧ x.tick = o.req.te)
  ∧ (∀ (s : State) (n : Nat), s.running = true →
    ∃ t, exec (.preEventReclaim n) s = .next t ∧ ∀ e, e ∈ (t.stream n).pre ↔
      e ∈ (s.stream n).pre ∧ (e.pins ≠ [] ∨ s.time.now ≤ e.au.arrival + s.cfg.policies.preSeconds * second))
  ∧ (∀ (s : State) (n : Nat), s.mayBegin = true → n < 4 → (s.encoder n).fenced = false → s.encLoad n = 0 →
    ∃ t x, exec (.encoderAssay n true) s = .next t ∧ (t.encoder n).fenced = false ∧ (t.encoder n).idleSince = t.time.elapsed
      ∧ t.time.elapsed = (if (s.encoder n).assayed = true then max s.time.elapsed ((s.encoder n).idleSince + s.cfg.rotateMin * 60 * second) else s.time.elapsed)
      ∧ t.journal.waiting = (s.emit x).journal.waiting ∧ x.type = 0x0607 ∧ x.status = stOK)
  ∧ ∀ (s : State) (n : Nat), s.mayBegin = true → n < 4 → (s.encoder n).fenced = false → s.encLoad n = 0 →
    ∃ t x, exec (.encoderAssay n false) s = .next t ∧ (t.encoder n).fenced = true ∧ t.flt.fenced = s.flt.fenced + 1
      ∧ x ∈ t.journal.waiting ∧ x.type = 0x0607 ∧ x.status = stAUDIT)

/-! ## On-site adaptation and restored data (13, 14 R416) -/

/-- ADAPTATION_JOB_START, ADAPTATION_STEP_COMPLETE, ADAPTATION_GATE, ADOPTION_RETRY and VOID_RESTORE (13 R396, R398, R403, R404, 14 R416): a job starts
with a snapshot of the training samples stored, no sooner than 60 s after the last one ended; a step moves it on and the last step leaves it at the
gate; the gate passes when enough samples were validated and the candidate gets at least the margin more of them right, and then an adoption is staged
one second ahead; a granule rewritten whole is no longer void. -/
def Obligations.HeadsAreAdaptedAndAdopted : Prop :=
  (∀ (s : State) (a : AdaptSettings), s.mayBegin = true → s.adaptOn = some a → s.adapt.job = none →
    a.batch ≤ (s.training a).length →
    ∃ t j x, exec .adaptationJobStart s = .next t ∧ t.adapt.job = some j ∧ j.snapshot = s.training a ∧ j.number = s.adapt.nextJob
      ∧ t.adapt.nextJob = s.adapt.nextJob + 1 ∧ t.adapt.phase = (if a.steps ≤ j.step then 3 else 1) ∧ x ∈ t.journal.waiting ∧ x.type = 0x0501
      ∧ (∀ e, s.adapt.lastEnd = some e → e + 60 * second ≤ t.time.elapsed)
      ∧ (s.adapt.resume = none → j.step = 0 ∧ j.weights = s.headsInForce a.heads))
  ∧ (∀ (s : State) (a : AdaptSettings) (j : Job) (inputs : List (List W32)), s.running = true → s.adapt.regions ≠ 0 → s.adaptOn = some a →
    s.adapt.job = some j → s.adapt.phase = 1 → inputs.length = a.batch → j.step < a.steps →
    ∃ t, exec (.adaptationStepComplete inputs) s = .next t ∧ t.adapt.job = some (stepJob s a j inputs).1
      ∧ t.adapt.step = BitVec.ofNat 64 (j.step + 1) ∧ t.adapt.phase = (if a.steps ≤ j.step + 1 then 3 else 1)
      ∧ ((j.step + 1) % 256 = 0 → t.adapt.dram.head? = some (jobCheckpoint (stepJob s a j inputs).1))
      ∧ ((j.step + 1) % 256 ≠ 0 → t.adapt.dram = s.adapt.dram))
  ∧ (∀ (s : State) (a : AdaptSettings) (j : Job) (p q : List (List W32)), s.mayBegin = true → s.adaptOn = some a → s.adapt.job = some j →
    s.adapt.phase = 3 → s.adapt.candidate = none → p.length = (s.validation a).length → q.length = (s.validation a).length → s.stl.batch = none → s.stl.update = none →
    a.leastVal ≤ (s.validation a).length → correctCount a.heads (s.validation a) q + a.margin ≤ correctCount a.heads (s.validation a) (candidateLogits a.heads j.weights p) →
    internalChecks (gateOutcome s a j (candidateLogits a.heads j.weights p) q) [adoptionEntry (gateOutcome s a j (candidateLogits a.heads j.weights p) q)] s.cfg (s.time.now + second) none = none →
    ∃ t b x, exec (.adaptationGate p q) s = .next t ∧ t.adapt.job = none ∧ t.adapt.candidate = some (headImageDigest j.weights, j.weights)
      ∧ t.stl.batch = some b ∧ b.adoption = true ∧ b.src = .internal ∧ b.at_ = .time (s.time.now + second)
      ∧ t.journal.waiting = s.journal.waiting ++ [x] ∧ x.type = 0x0504 ∧ x.status = stOK)
  ∧ (∀ (s : State) (a : AdaptSettings) (j : Job) (p q : List (List W32)), s.mayBegin = true → s.adaptOn = some a → s.adapt.job = some j →
    s.adapt.phase = 3 → s.adapt.candidate = none → p.length = (s.validation a).length → q.length = (s.validation a).length →
    (s.validation a).length < a.leastVal ∨ correctCount a.heads (s.validation a) (candidateLogits a.heads j.weights p) < correctCount a.heads (s.validation a) q + a.margin →
    ∃ t x, exec (.adaptationGate p q) s = .next t ∧ t.adapt.job = none ∧ t.adapt.candidate = none ∧ t.adapt.phase = 0 ∧ t.stl = s.stl
      ∧ t.journal.waiting = s.journal.waiting ++ [x] ∧ x.type = 0x0504)
  ∧ (∀ s : State, s.running = true → s.adapt.retry = true → s.stl.batch = none → s.stl.update = none → s.adapt.candidate ≠ none →
    s.adapt.attempts < 2 → internalChecks s [adoptionEntry s] s.cfg (s.time.now + second) none = none →
    ∃ t b, exec .adoptionRetry s = .next t ∧ t.stl.batch = some b ∧ b.adoption = true ∧ t.adapt.retry = false
      ∧ t.adapt.attempts = s.adapt.attempts + 1 ∧ t.adapt.candidate = s.adapt.candidate)
  ∧ (∀ s : State, s.running = true → s.adapt.retry = true → s.stl.batch = none → s.stl.update = none → s.adapt.candidate ≠ none →
    s.adapt.attempts < 2 → internalChecks s [adoptionEntry s] s.cfg (s.time.now + second) none ≠ none →
    ∃ t, exec .adoptionRetry s = .next t ∧ t.stl.batch = none ∧ t.adapt.retry = true ∧ t.adapt.attempts = s.adapt.attempts + 1)
  ∧ (∀ s : State, s.running = true → s.adapt.retry = true → s.stl.batch = none → s.stl.update = none → s.adapt.candidate ≠ none →
    2 ≤ s.adapt.attempts →
    ∃ t x, exec .adoptionRetry s = .next t ∧ t.stl.batch = none ∧ t.adapt.candidate = none ∧ (s.adapt.job = none → t.adapt.phase = 0)
      ∧ t.journal.waiting = s.journal.waiting ++ [x] ∧ x.type = 0x0507)
  ∧ ∀ (s : State) (a : Nat) (bs : List Byte), s.answers = true → a % 64 = 0 → bs.length = 64 → inDeviceMemory a 64 = true →
    ∃ t, exec (.voidRestore a bs) s = .next t ∧ t.anyVoid a 64 = false ∧ (∀ i, (h : i < bs.length) → t.byte (a + i) = bs[i])
      ∧ ∀ b, b < a ∨ a + 64 ≤ b → t.byte b = s.byte b

/-! ## Audits, assays and handovers (14) -/

/-- AUDIT_COPY, AUDIT_THIRD_RUN, AUDIT_SEED_REPLACE and STRIKE_EXPIRY (14 R420, R421, R423, R424): an audit that agrees ends; one that differs is settled
by a third engine, or without one against both; one that meets void data is dropped; record 0x0603 names what was settled and a strike goes to the
engine that stood alone; the hourly seed restarts the draws; an old strike is dropped. -/
def Obligations.AuditsAreSettled : Prop :=
  (∀ (s : State) (p addr : Nat) (differs : Bool) (a : Audit), auditReady s p = true → auditOf s p false = some a →
    ∃ t, exec (.auditCopy p differs true addr) s = .next t ∧ t.flt.auditsDropped = s.flt.auditsDropped + 1
      ∧ (t.region (regionOf p)).audits = (s.region (regionOf p)).audits.filter (· != a) ∧ t.flt.auditsRun = s.flt.auditsRun)
  ∧ (∀ (s : State) (p addr : Nat) (a : Audit), auditReady s p = true → auditOf s p false = some a → auditMeetsVoid s a = false →
    ∃ t, exec (.auditCopy p false false addr) s = .next t ∧ t.flt.auditsRun = s.flt.auditsRun + 1 ∧ t.flt.disagree = s.flt.disagree
      ∧ (t.region (regionOf p)).audits = (s.region (regionOf p)).audits.filter (· != a) ∧ t.journal = s.journal)
  ∧ (∀ (s : State) (p q addr : Nat) (a : Audit), auditReady s p = true → auditOf s p false = some a → auditMeetsVoid s a = false →
    nextInService s (s.engine p).logical [a.engine, p] = some q →
    ∃ t, exec (.auditCopy p true false addr) s = .next t ∧ t.flt.auditsRun = s.flt.auditsRun + 1 ∧ t.flt.disagree = s.flt.disagree + 1
      ∧ t.flt.corrected = s.flt.corrected + 1 ∧ { a with third := some q, addr := addr } ∈ (t.region (regionOf p)).audits
      ∧ t.journal = s.journal)
  ∧ (∀ (s : State) (p addr : Nat) (a : Audit), auditReady s p = true → auditOf s p false = some a → auditMeetsVoid s a = false →
    nextInService s (s.engine p).logical [a.engine, p] = none →
    ∃ t x, exec (.auditCopy p true false addr) s = .next t ∧ t.flt.auditsRun = s.flt.auditsRun + 1 ∧ t.flt.disagree = s.flt.disagree + 1
      ∧ t.flt.corrected = s.flt.corrected + 1 ∧ x ∈ t.journal.waiting ∧ x.type = 0x0603)
  ∧ (∀ (s : State) (p : Nat) (b c v : Bool) (a : Audit), auditReady s p = true → auditOf s p true = some a →
    v = true ∨ auditMeetsVoid s a = true →
    ∃ t, exec (.auditThirdRun p b c v) s = .next t ∧ t.flt.auditsDropped = s.flt.auditsDropped + 1
      ∧ (t.region (regionOf p)).audits = (s.region (regionOf p)).audits.filter (· != a) ∧ ∀ q, q ≠ p → t.engine q = s.engine q)
  ∧ (∀ (s : State) (p : Nat) (c : Bool) (a : Audit), auditReady s p = true → auditOf s p true = some a → auditMeetsVoid s a = false →
    (s.engine a.auditor).state ≤ 1 → (s.engine a.auditor).fencePending = false → (s.engine a.auditor).rotateTo = none → (heldStrikes s (s.engine a.auditor).strikes).length < 2 →
    ∃ t x, exec (.auditThirdRun p true c false) s = .next t ∧ x ∈ t.journal.waiting ∧ x.type = 0x0603
      ∧ (t.engine a.auditor).strikes = heldStrikes s (s.engine a.auditor).strikes ++ [s.time.elapsed]
      ∧ (∀ q, q ≠ a.auditor → q ≠ p → t.engine q = s.engine q) ∧ t.voids = s.voids)
  ∧ (∀ (s : State) (p : Nat) (a : Audit), auditReady s p = true → auditOf s p true = some a → auditMeetsVoid s a = false →
    (s.engine a.engine).state ≤ 1 → (s.engine a.engine).fencePending = false → (s.engine a.engine).rotateTo = none → (heldStrikes s (s.engine a.engine).strikes).length < 2 →
    ∃ t x, exec (.auditThirdRun p false true false) s = .next t ∧ x ∈ t.journal.waiting ∧ x.type = 0x0603
      ∧ (t.engine a.engine).strikes = heldStrikes s (s.engine a.engine).strikes ++ [s.time.elapsed]
      ∧ (a.issue.inBatch = false → ∀ q, q ≠ a.engine → q ≠ p → t.engine q = s.engine q))
  ∧ (∀ (s : State) (g seed : Nat), s.running = true → g < 4 →
    ∃ t x, exec (.auditSeedReplace g seed) s = .next t ∧ (t.region g).seed = seed % 2 ^ 256 ∧ (t.region g).draws = 0
      ∧ t.time.elapsed = max s.time.elapsed (seedDue s g)
      ∧ t.journal.waiting = s.journal.waiting ++ [x] ∧ x.type = 0x060B ∧ x.inst = g)
  ∧ ∀ (s : State) (p h : Nat) (r : List Nat), s.answers = true → (s.engine p).strikes = h :: r →
    ∃ t, exec (.strikeExpiry p) s = .next t ∧ (t.engine p).strikes = r ∧ t.time.elapsed = max s.time.elapsed (h + day)

/-- ENGINE_RETEST, ENGINE_ASSAY_COMPLETE, ENGINE_ROTATION, DECODE_ROTATION, DECODE_ASSAY_COMPLETE, ENGINE_HANDOVER_COPY_COMPLETE and HANDOVER_NO_ANSWER
(14 R425, R427 to R431, 01 R36, R39): engines move between service, reserve, fenced and retired as the table says; a rotation passes the logical index
on; a handover copies the engine's memory, or leaves it void when the leaving engine does not answer. -/
def Obligations.EnginesChangeState : Prop :=
  (∀ (s : State) (p f : Nat) (fs : List Nat), s.mayBegin = true → (s.engine p).state = 2 → (s.engine p).underAssay = false →
    (s.engine p).fences = fs ++ [f] →
    ∃ t, exec (.engineRetest p) s = .next t ∧ (t.engine p).underAssay = true ∧ (t.engine p).state = 2
      ∧ t.time.elapsed = max s.time.elapsed (f + day))
  ∧ (∀ (s : State) (r : AssayResult), s.answers = true → (s.engine r.engine).underAssay = true →
    r.fixedOk = false ∨ 16 < r.correctedErrors → s.flt.candidates = [] →
    ∃ t x, exec (.engineAssayComplete r) s = .next t ∧ x ∈ t.journal.waiting ∧ x.type = 0x0607 ∧ x.inst = r.engine ∧ x.status = stAUDIT
      ∧ ((s.engine r.engine).state = 1 → (t.engine r.engine).state = 2 ∧ t.flt.fenced = s.flt.fenced + 1)
      ∧ ((s.engine r.engine).state = 2 → (t.engine r.engine).state = 3))
  ∧ (∀ (s : State) (r : AssayResult), s.answers = true → (s.engine r.engine).underAssay = true →
    r.fixedOk = true → r.correctedErrors ≤ 16 → s.flt.candidates = [] → s.flt.reference = some r.digest →
    ∃ t x, exec (.engineAssayComplete r) s = .next t ∧ x ∈ t.journal.waiting ∧ x.type = 0x0607 ∧ x.inst = r.engine ∧ x.status = stOK
      ∧ (t.engine r.engine).underAssay = false
      ∧ ((s.engine r.engine).state = 1 → (t.engine r.engine).state = 1 ∧ (t.engine r.engine).assayPassed = some s.time.elapsed)
      ∧ ((s.engine r.engine).state = 2 → (recent s.time.elapsed month (s.engine r.engine).fences).length ≤ 1 →
        (t.engine r.engine).state = 1)
      ∧ ((s.engine r.engine).state = 2 → 2 ≤ (recent s.time.elapsed month (s.engine r.engine).fences).length →
        (t.engine r.engine).state = 3))
  ∧ (∀ (s : State) (r : AssayResult) (q : Nat), s.answers = true → (s.engine r.engine).underAssay = true →
    r.fixedOk = true → r.correctedErrors ≤ 16 → s.flt.candidates = [(q, r.digest)] → q ≠ r.engine → s.flt.reference = none →
    ∃ t, exec (.engineAssayComplete r) s = .next t ∧ t.flt.reference = some r.digest)
  ∧ (∀ (s u : State) (g p q : Nat), s.mayBegin = true → g < 4 → u = s.atElapsed (nextRotation s g) → oldestAssay u g = some p →
    spareFor u g = some q → rotationFree u g = true → (s.engine p).running = none →
    ∃ t x, exec (.engineRotation g) s = .next t ∧ (t.engine q).logical = (s.engine p).logical ∧ (t.engine q).state = 0
      ∧ (t.engine p).state = 1 ∧ (t.engine p).underAssay = true ∧ (t.engine p).logical = 0xFF
      ∧ t.journal.waiting = s.journal.waiting ++ [x] ∧ x.type = 0x0606)
  ∧ (∀ (s u : State) (d q : Nat), s.mayBegin = true → u = toDecodeRotation s → decSpare u = some q →
    rotatingDec u = some d → (s.dec d).job = none →
    (s.dec d).fence = false →
    ∃ t x, exec .decodeRotation s = .next t ∧ (t.dec d).state = 3 ∧ (t.dec q).state = 0 ∧ x ∈ t.journal.waiting ∧ x.type = 0x0606)
  ∧ (∀ (s u : State) (d q : Nat), s.mayBegin = true → u = toDecodeRotation s → decSpare u = some q →
    rotatingDec u = some d → (s.dec d).job ≠ none →
    ∃ t, exec .decodeRotation s = .next t ∧ (t.dec d).leaving = true ∧ (t.dec d).state = 0)
  ∧ (∀ (s : State) (d : Nat), s.answers = true → (s.dec d).state = 3 →
    (∃ t, exec (.decodeAssayComplete d true) s = .next t ∧ (t.dec d).state = if s.decInService < 16 then 0 else 1)
    ∧ ∃ t, exec (.decodeAssayComplete d false) s = .next t ∧ (t.dec d).state = 2 ∧ t.flt.fenced = s.flt.fenced + 1)
  ∧ (∀ (s : State) (p q since : Nat) (bad : List Nat), s.answers = true → s.Stored → (s.engine p).handoverFrom = some (q, since) →
    ∃ t, exec (.engineHandoverCopyComplete p bad) s = .next t ∧ (t.engine p).handoverFrom = none
      ∧ (∀ i < engineSize, t.byte (engineBase p + i) = s.byte (engineBase q + i))
      ∧ (∀ a, a < engineBase p ∨ engineBase p + engineSize ≤ a → t.byte a = s.byte a)
      ∧ ∀ g ∈ bad, g < engineSize / 64 → t.anyVoid (engineBase p + 64 * g) 64 = true)
  ∧ ∀ (s : State) (p q since : Nat), s.answers = true → (s.engine p).handoverFrom = some (q, since) →
    ∃ t, exec (.handoverNoAnswer p) s = .next t ∧ (t.engine p).handoverFrom = none
      ∧ (∀ i < engineSize, s.byte (engineBase q + i) ≠ 0 → t.anyVoid (engineBase p + i) 1 = true) ∧ ∀ a, t.byte a = s.byte a

/-! ## Stops, zones and channels (14, 15) -/

/-- SUPPLY_MONITOR_FAULT, CHIP_FATAL and STOP_CUT_COMPLETE (14 R434 to R437, 15 R463): a chip-fatal error leads to the safe state: no tile, clearing
command or picture is in progress, no channel toggles, FAULT_N is low, the Ethernet transmitters idle, a pending settlement is discarded, and record
0x0609 is written; in the safe state a further error changes nothing; when every unit has reached its cut the stop is complete. HALT, HALT_IMMEDIATE
and RELEASE (14 R435, R438, 20 R591): outside the manufacturing state a halt needs permission bit 2; it is rejected with STATE while a halt is in
force, while a batch is pending, or in the safe state; it issues the stop, with record 0x060A, and RELEASE ends it. -/
def Obligations.StopsAndHaltsTakeEffect : Prop :=
  ((∀ (s : State) (source unit : Nat) (b : Bool) (c : Instr), s.phase ≠ .inReset → s.phase ≠ .safe →
    c = .chipFatal source unit ∨ c = .supplyMonitorFault b unit →
    ∃ t x, exec c s = .next t ∧ t.phase = .safe ∧ t.pins.faultLow = true ∧ t.pins.ethIdle0 = true ∧ t.pins.ethIdle1 = true
      ∧ (∀ n < 16, (t.channel n).toggling = false) ∧ (∀ p < 72, (t.engine p).running = none) ∧ (∀ r < 4, (t.clr r).job = none)
      ∧ (∀ d < 18, (t.dec d).job = none) ∧ t.stl.batch = none ∧ t.stl.update = none ∧ t.flt.stopPhase = 1
      ∧ x ∈ t.journal.waiting ∧ x.type = 0x0609)
  ∧ (∀ (s : State) (source unit : Nat), s.phase = .safe →
    exec (.chipFatal source unit) s = .next s ∧ ∀ b, exec (.supplyMonitorFault b unit) s = .next s)
  ∧ ∀ s : State, s.flt.stopPhase = 1 → s.stopPending = 0 →
    ∃ t, exec .stopCutComplete s = .next t ∧ t.flt.stopPhase = 2 ∧ t.flt.state = (if s.flt.fatal then 3 else 2))
  ∧ ((∀ (s : State) (c : Instr) (imm : Bool), s.answers = true → (c, imm) ∈ [(Instr.halt, false), (Instr.haltImmediate, true)] →
    (s.fuses.lifecycle = 0 ∨ s.permits 2 = true → s.flt.debugHalt = false → s.stl.batch = none → s.phase ≠ .safe →
      ∃ t x, exec c s = .next t ∧ t.flt.stopPhase = 1 ∧ t.flt.immediate = imm ∧ t.flt.fatal = false ∧ t.flt.debugHalt = true ∧ t.dbg.status = stOK
        ∧ t.journal.waiting.getLast? = some x ∧ x.type = 0x060A)
    ∧ ((s.fuses.lifecycle ≠ 0 ∧ s.permits 2 = false) ∨ s.flt.debugHalt = true ∨ s.stl.batch ≠ none ∨ s.phase = .safe →
      ∃ t, exec c s = .next t ∧ t.dbg.status = stSTATE ∧ t.stl.stateRejects = s.stl.stateRejects + 1 ∧ t.flt = s.flt ∧ t.engines = s.engines))
  ∧ (∀ s : State, s.answers = true → s.flt.debugHalt = true → s.phase ≠ .safe →
    ∃ t, exec .releaseHalt s = .next t ∧ t.flt.stopPhase = 0 ∧ t.flt.debugHalt = false ∧ t.flt.immediate = false ∧ t.dbg.status = stOK)
  ∧ ∀ s : State, s.answers = true → s.flt.debugHalt = false ∨ s.phase = .safe →
    ∃ t, exec .releaseHalt s = .next t ∧ t.dbg.status = stSTATE ∧ t.stl.stateRejects = s.stl.stateRejects + 1 ∧ t.flt = s.flt)

/-- ZONE_TENSOR_COMPLETE, ZONE_EVAL_OUTPUT and ZONE_DEADLINE (15 R451 to R458): a picture that yields no tensor, or whose two lanes differ, is an
untrusted input of every zone of the stream; a good one is stored in its page, its digest kept, and evaluated on two regions; an output that names no
evaluation is counted; two identical outputs decide the zones, two that differ call a third region or, without one, occupy the zones; so does a
deadline without two that agree. -/
def Obligations.ZonesAreEvaluated : Prop :=
  (∀ (s : State) (n tick page l0 l1 z : Nat) (p : Picture), s.mayBegin = true → ((s.stream n).zoneQueue.find? fun p => p.tick == tick) = some p →
    p.void = true ∨ l0 ≠ l1 → z ∈ s.zonesReading p.stream →
    ∃ t, exec (.zoneTensorComplete n tick page ⟨l0, l1⟩) s = .next t ∧ (t.zone z).q = 0 ∧ (t.zone z).inputThisPeriod = true
      ∧ t.saf.untrusted = s.saf.untrusted + BitVec.ofNat 64 (s.zonesReading p.stream).length ∧ t.saf.evals = s.saf.evals
      ∧ (t.stream p.stream).zoneQueue = (s.stream p.stream).zoneQueue.filter (·.tick != p.tick)
      ∧ ((s.zonesReading p.stream).Nodup → (t.zone z).u = (s.zone z).u + 1) ∧ ∀ a, t.byte a = s.byte a)
  ∧ (∀ (s : State) (n tick page l g0 g1 : Nat) (g2 : Option Nat) (p : Picture), s.mayBegin = true →
    ((s.stream n).zoneQueue.find? fun p => p.tick == tick) = some p → p.void = false → (s.cfgOf p.epoch).zoneModel ≠ none →
    zoneRegions s.ableRegions (p.stream + p.zoneWindow.getD 0) = some (g0, g1, g2) →
    ∃ t e, exec (.zoneTensorComplete n tick page ⟨l, l⟩) s = .next t ∧ e ∈ t.saf.evals ∧ e.stream = p.stream ∧ e.tick = p.tick ∧ e.epoch = p.epoch
      ∧ e.deadline = p.arrival + p.dDec + 19000000 ∧ e.decided = false ∧ e.outputs = [none, none, none]
      ∧ (t.stream p.stream).lastZoneDigest = some (tensorDigest (zoneTensorOf s p).1 ^^^ l)
      ∧ t.preConvSat = s.preConvSat + BitVec.ofNat 64 (2 * (zoneTensorOf s p).2)
      ∧ (∀ i, (h : i < (zoneTensorOf s p).1.length) → t.byte (4096 * page + i) = (zoneTensorOf s p).1[i])
      ∧ ∀ a, a < 4096 * page ∨ 4096 * page + (zoneTensorOf s p).1.length ≤ a → t.byte a = s.byte a)
  ∧ (∀ (s : State) (o : ZoneOutput), s.mayBegin = true → (s.saf.evals.find? fun x => x.matches s o) = none →
    ∃ t, exec (.zoneEvalOutput o) s = .next t ∧ t.saf.untrusted = s.saf.untrusted + 1 ∧ t.saf.evals = s.saf.evals
      ∧ t.saf.zones = s.saf.zones)
  ∧ (∀ (s : State) (o : ZoneOutput) (x : Eval) (c : List Int), s.mayBegin = true → (s.saf.evals.find? fun x => x.matches s o) = some x →
    x.decided = false → s.time.now < x.deadline → x.outputs = [none, none, none] → o.mapping < 2 → o.codes = some c →
    ∃ t e, exec (.zoneEvalOutput o) s = .next t ∧ t.saf.evaluations = s.saf.evaluations + 1 ∧ t.saf.zones = s.saf.zones
      ∧ e ∈ t.saf.evals ∧ e.outputs = x.outputs.set o.mapping (some (o.engine, some c)) ∧ e.decided = false)
  ∧ (∀ (s : State) (o : ZoneOutput) (x : Eval) (c : List Int) (e0 z i : Nat), s.mayBegin = true →
    (s.saf.evals.find? fun x => x.matches s o) = some x → x.decided = false → s.time.now < x.deadline →
    x.outputs = [some (e0, some c), none, none] → o.mapping = 1 → o.codes = some c → z ∈ s.zonesReading x.stream →
    (s.zone z).state ≠ .off →
    ((s.cellsOf x z).find? fun i => decide ((s.zone z).row.theta ≤ c.getD i (-128))) = some i →
    ∃ t, exec (.zoneEvalOutput o) s = .next t ∧ t.saf.evaluations = s.saf.evaluations + 1 ∧ t.saf.disagree = s.saf.disagree
      ∧ (t.zone z).state = .occupied ∧ (t.zone z).cause = causeVerdict ∧ (t.zone z).q = 0)
  ∧ (∀ (s : State) (o : ZoneOutput) (x : Eval) (c : List Int) (e0 z : Nat), s.mayBegin = true →
    (s.saf.evals.find? fun x => x.matches s o) = some x → x.decided = false → s.time.now < x.deadline →
    x.outputs = [some (e0, some c), none, none] → o.mapping = 1 → o.codes = some c → (s.zonesReading x.stream).Nodup →
    z ∈ s.zonesReading x.stream →
    ((s.cellsOf x z).find? fun i => decide ((s.zone z).row.theta ≤ c.getD i (-128))) = none → x.good = true → x.age ≤ (s.zone z).ageNs →
    x.epoch = s.stl.epoch.toNat → (s.zone z).since < x.arrival →
    ∃ t, exec (.zoneEvalOutput o) s = .next t ∧ (t.zone z).u = 0 ∧ (t.zone z).q = (s.zone z).q + 1)
  ∧ (∀ (s : State) (o : ZoneOutput) (x : Eval) (c d : List Int) (e0 l : Nat), s.mayBegin = true →
    (s.saf.evals.find? fun x => x.matches s o) = some x → x.decided = false → s.time.now < x.deadline →
    x.outputs = [some (e0, some c), none, none] → o.mapping = 1 → o.codes = some d → c ≠ d → x.third = some l → x.thirdStarted = false →
    ∃ t e, exec (.zoneEvalOutput o) s = .next t ∧ t.saf.disagree = s.saf.disagree + 1 ∧ e ∈ t.saf.evals ∧ e.thirdStarted = true
      ∧ e.decided = false ∧ t.saf.zones = s.saf.zones)
  ∧ (∀ (s : State) (o : ZoneOutput) (x : Eval) (c d : List Int) (e0 z : Nat), s.mayBegin = true →
    (s.saf.evals.find? fun x => x.matches s o) = some x → x.decided = false → s.time.now < x.deadline →
    x.outputs = [some (e0, some c), none, none] → o.mapping = 1 → o.codes = some d → c ≠ d → x.third = none →
    z ∈ s.zonesReading x.stream → (s.zone z).state ≠ .off →
    ∃ t, exec (.zoneEvalOutput o) s = .next t ∧ t.saf.disagree = s.saf.disagree + 1 ∧ (t.zone z).state = .occupied
      ∧ (t.zone z).cause = causeTwoRegions)
  ∧ (∀ (s : State) (n tick z : Nat) (x : Eval), s.mayBegin = true →
    (s.saf.evals.find? fun x => x.stream == n && x.tick == tick && !x.decided) = some x → z ∈ s.zonesReading n → (s.zone z).state ≠ .off →
    ∃ t, exec (.zoneDeadline n tick) s = .next t ∧ t.saf.missed = s.saf.missed + 1 ∧ (t.zone z).state = .occupied
      ∧ (t.zone z).cause = causeMissing)
  ∧ ∀ (s : State) (n tick z : Nat) (p : Picture), s.mayBegin = true →
    (s.saf.evals.find? fun x => x.stream == n && x.tick == tick && !x.decided) = none →
    ((s.stream n).zoneQueue.find? fun p => p.tick == tick) = some p → p.stream = n → z ∈ s.zonesReading n → (s.zone z).state ≠ .off →
    ∃ t, exec (.zoneDeadline n tick) s = .next t ∧ t.saf.missed = s.saf.missed + 1 ∧ (t.zone z).state = .occupied
      ∧ (t.zone z).cause = causeMissing ∧ (t.stream n).zoneQueue = (s.stream n).zoneQueue.filter (·.tick != tick)

/-- ZONE_PERIOD_BOUNDARY, ZONE_DECISION_TIMEOUT, ZONE_HOLD_EXPIRY and SAFE_HALF_PERIOD (15 R458, R460, R463 to R465): a period without input counts as an
untrusted one; a late decision stops the channel; a failed self-check is chip-fatal; a zone with enough trusted clear inputs earns clear when its hold
has passed; a clear channel changes its pair over each half period, and the second sample in a row that differs latches it. -/
def Obligations.ZonePeriodsAndChannels : Prop :=
  (∀ (s : State) (z : Nat), s.mayBegin = true → (s.zone z).state ≠ .off → (∀ e ∈ s.stl.safetyZones, e.1 ≠ z) → (s.zone z).inputThisPeriod = true →
    ∃ t, exec (.zonePeriodBoundary z true) s = .next t ∧ (t.zone z).period = (s.zone z).period + 1 ∧ (t.zone z).inputThisPeriod = false
      ∧ (t.zone z).decided = true ∧ (t.zone z).u = (s.zone z).u ∧ (t.zone z).state = (s.zone z).state)
  ∧ (∀ (s : State) (z : Nat), s.mayBegin = true → (s.zone z).state ≠ .off → (∀ e ∈ s.stl.safetyZones, e.1 ≠ z) → (s.zone z).inputThisPeriod = false →
    ∃ t, exec (.zonePeriodBoundary z true) s = .next t ∧ (t.zone z).period = (s.zone z).period + 1 ∧ (t.zone z).u = (s.zone z).u + 1
      ∧ (t.zone z).q = 0 ∧ t.saf.untrusted = s.saf.untrusted + 1
      ∧ ((s.zone z).row.nLimit ≤ (s.zone z).u + 1 → (t.zone z).state = .occupied ∧ (t.zone z).cause = causeUntrusted))
  ∧ (∀ (s : State) (z : Nat), s.mayBegin = true → (s.zone z).state ≠ .off →
    ∃ t x, exec (.zonePeriodBoundary z false) s = .next t ∧ t.phase = .safe ∧ x ∈ t.journal.waiting ∧ x.type = 0x0609)
  ∧ (∀ (s : State) (z : Nat), s.mayBegin = true → (s.zone z).state ≠ .off →
    ∃ t, exec (.zoneDecisionTimeout z) s = .next t ∧ (t.zone z).decided = false ∧ (t.channel (s.zone z).row.channel).toggling = false)
  ∧ (∀ (s u : State) (z : Nat), s.mayBegin = true → (s.zone z).state = .start ∨ (s.zone z).state = .occupied →
    u = s.atStation ((s.zone z).since + (s.zone z).row.hold * 1000000) → (s.zone z).row.cCount ≤ (s.zone z).q →
    (s.zone z).since + (s.zone z).row.hold * 1000000 ≤ u.time.now →
    ∃ t x, exec (.zoneHoldExpiry z) s = .next t ∧ (t.zone z).state = .clear ∧ x ∈ t.journal.waiting ∧ x.type = 0x0701)
  ∧ (∀ (s : State) (z : Nat), s.mayBegin = true → (s.zone z).state ≠ .off → (s.zone z).q < (s.zone z).row.cCount →
    ∃ t, exec (.zoneHoldExpiry z) s = .next t ∧ t.saf = s.saf)
  ∧ (∀ (s : State) (n : Nat), s.answers = true → n < 16 → (s.channel n).toggling = true →
    ∃ t, exec (.safeHalfPeriod n (s.channel n).highA (!(s.channel n).highA)) s = .next t
      ∧ (t.channel n).highA = !(s.channel n).highA ∧ (t.channel n).toggling = true ∧ (t.channel n).mismatches = 0)
  ∧ (∀ (s : State) (n : Nat), s.answers = true → n < 16 → (s.channel n).toggling = false →
    ∃ t, exec (.safeHalfPeriod n false false) s = .next t ∧ (t.channel n).toggling = false ∧ (t.channel n).mismatches = 0)
  ∧ ∀ (s : State) (n : Nat) (a b : Bool), s.answers = true → n < 16 → (s.channel n).latched = false → (s.channel n).mismatches ≠ 0 →
    a ≠ (s.channel n).levelA ∨ b ≠ (s.channel n).levelB →
    ∃ t x, exec (.safeHalfPeriod n a b) s = .next t ∧ (t.channel n).latched = true ∧ (t.channel n).toggling = false
      ∧ x ∈ t.journal.waiting ∧ x.type = 0x0706

/-! ## DRAM and scrubs (16, 14 R413) -/

/-- PANIC_LIMIT, DRAM_REFRESH, DRAM_TEMP_READ, DRAM_RETRAIN, DRAM_SCRUB, REGION_SCRUB, SOFT_REPAIR and SOFT_REPAIR_COMPLETE (16 R480, R486 to R493, 14
R413): a port that held panic too long loses it; refresh doubles above 85 degrees and returns below 80; a retraining repairs lanes, and the third
failure in a row of a pseudo-channel loses the stack; a scrub corrects and counts, or marks the granule void; the fourth error of a row within a day
and every uncorrectable one give it a shadow row; a marked row is repaired when its bank is free. -/
def Obligations.DramIsKeptAndRepaired : Prop :=
  (∀ (s : State) (n port : Nat), s.answers = true → n < 2 → Table.get 0 port (s.dram n).panic ≠ 0 →
    ∃ t, exec (.panicLimit n port) s = .next t ∧ (t.dram n).panicLost = (s.dram n).panicLost + 1 ∧ port ∈ (t.dram n).noPanic
      ∧ Table.get 0 port (t.dram n).panic = 0 ∧ t.time.elapsed = max s.time.elapsed (panicDue (Table.get [] port (s.dram n).panicPast) (Table.get 0 port (s.dram n).panic - 1)))
  ∧ (∀ (s : State) (n c b : Nat), s.answers = true → n < 2 → c < 16 → b < 64 → (s.dram n).state = 0 →
    ∃ t, exec (.dramRefresh n c b) s = .next t ∧ (t.dram n).refreshes = (s.dram n).refreshes + 1 ∧ t.voids = s.voids ∧ t.mem = s.mem)
  ∧ (∀ (s : State) (n k : Nat), s.answers = true → n < 2 → (s.dram n).state ≠ 3 →
    ∃ t, exec (.dramTempRead n k) s = .next t ∧ (t.dram n).temp = min 255 k
      ∧ (85 < k → (t.dram n).refresh2x = true) ∧ (k < 80 → (t.dram n).refresh2x = false)
      ∧ (80 ≤ k → k ≤ 85 → (t.dram n).refresh2x = (s.dram n).refresh2x))
  ∧ (∀ (s : State) (n c k : Nat), s.answers = true → n < 2 → c < 16 → (s.dram n).state = 0 →
    ∃ t, exec (.dramRetrain n c k false false) s = .next t ∧ (t.dram n).retrain = (s.dram n).retrain + 1
      ∧ (t.dram n).lanes = min 0x3F ((s.dram n).lanes + k) ∧ (t.dram n).state = 0 ∧ t.phase = s.phase
      ∧ Table.get 0 (2 * c) (t.dram n).retrainFails = 0 ∧ Table.get 0 (2 * c + 1) (t.dram n).retrainFails = 0
      ∧ t.flt.fenced = s.flt.fenced + BitVec.ofNat 64 k)
  ∧ (∀ (s : State) (n c : Nat), s.answers = true → n < 2 → c < 16 → (s.dram n).state = 0 →
    2 ≤ Table.get 0 (2 * c) (s.dram n).retrainFails →
    ∃ t, exec (.dramRetrain n c 0 true false) s = .next t ∧ (t.dram n).state = 3 ∧ t.phase = .safe)
  ∧ (∀ (s : State) (a : Nat) (o : Bool) (e : Secded), s.answers = true → a < dramEnd → s.anyVoid a 1 = true →
    exec (.dramScrub a o e) s = .next s)
  ∧ (∀ (s : State) (a : Nat), s.answers = true → a < dramEnd → exec (.dramScrub a false .clean) s = .next s)
  ∧ (∀ (s : State) (a n row : Nat), s.answers = true → a < dramEnd → s.anyVoid a 1 = false → n = stackOf a → row = Config.dramRow a →
    (recent s.time.elapsed day (Table.get [] row (s.dram n).rowErrors)).length < 3 →
    (∃ t, exec (.dramScrub a true .clean) s = .next t ∧ (t.dram n).odecc = (s.dram n).odecc + 1 ∧ t.flt.corrected = s.flt.corrected + 1
      ∧ (t.dram n).remapped = (s.dram n).remapped ∧ t.voids = s.voids)
    ∧ ∃ t, exec (.dramScrub a false .single) s = .next t ∧ (t.dram n).ce = (s.dram n).ce + 1 ∧ t.flt.corrected = s.flt.corrected + 1
      ∧ (t.dram n).remapped = (s.dram n).remapped ∧ t.voids = s.voids)
  ∧ (∀ (s : State) (a n row : Nat), s.answers = true → a < dramEnd → s.anyVoid a 1 = false → n = stackOf a → row = Config.dramRow a →
    3 ≤ (recent s.time.elapsed day (Table.get [] row (s.dram n).rowErrors)).length → (s.dram n).remapped.contains row = false →
    (s.dram n).remapFree ≠ 0 →
    ∃ t, exec (.dramScrub a false .single) s = .next t ∧ (t.dram n).remapped = (s.dram n).remapped ++ [row]
      ∧ (t.dram n).remapFree = (s.dram n).remapFree - 1)
  ∧ (∀ (s : State) (a n row : Nat), s.answers = true → a < dramEnd → s.anyVoid a 1 = false → n = stackOf a → row = Config.dramRow a →
    (s.dram n).remapped.contains row = false → (s.dram n).remapFree ≠ 0 →
    ∃ t, exec (.dramScrub a false .uncorrectable) s = .next t ∧ t.anyVoid a 1 = true ∧ (t.dram n).ue = (s.dram n).ue + 1
      ∧ t.flt.contained = s.flt.contained + 1 ∧ (t.dram n).remapped = (s.dram n).remapped ++ [row])
  ∧ (∀ (s : State) (g a : Nat), s.answers = true → g < 4 → a < 0x2000000 → s.anyVoid (regionBase g + a) 1 = false →
    exec (.regionScrub (.region g) a .clean) s = .next s
    ∧ (∃ t, exec (.regionScrub (.region g) a .single) s = .next t ∧ t.flt.corrected = s.flt.corrected + 1 ∧ t.voids = s.voids)
    ∧ ∃ t, exec (.regionScrub (.region g) a .uncorrectable) s = .next t ∧ t.flt.contained = s.flt.contained + 1
      ∧ t.anyVoid (regionBase g + a) 1 = true)
  ∧ (∀ (s : State) (r a : Nat), s.answers = true → r < 4 → a < 0x10000000 → s.anyVoid (s.layout.ledger + a) 1 = false →
    (∃ t, exec (.regionScrub (.ledgerCache r) a .single) s = .next t ∧ (t.clr r).cacheCe = (s.clr r).cacheCe + 1
      ∧ t.flt.corrected = s.flt.corrected + 1)
    ∧ ∃ t, exec (.regionScrub (.ledgerCache r) a .uncorrectable) s = .next t ∧ t.flt.contained = s.flt.contained + 1
      ∧ t.anyVoid (s.layout.ledger + a) 1 = true)
  ∧ (∀ (s : State) (n row : Nat), s.answers = true → n < 2 → row ∈ (s.dram n).marked → (s.dram n).repairing = none →
    ((s.dram n).repaired.any fun r => decide (Config.dramBank r = Config.dramBank row)) = false →
    ∃ t, exec (.softRepair n row) s = .next t ∧ (t.dram n).repairing = some row ∧ row ∉ (t.dram n).marked
      ∧ (t.dram n).remapFree = (s.dram n).remapFree)
  ∧ (∀ (s : State) (n row : Nat), s.answers = true → n < 2 → row ∈ (s.dram n).marked → (s.dram n).repairing = none →
    ((s.dram n).repaired.any fun r => decide (Config.dramBank r = Config.dramBank row)) = true →
    ∃ t, exec (.softRepair n row) s = .next t ∧ (t.dram n).kept = (s.dram n).kept + 1 ∧ row ∉ (t.dram n).marked
      ∧ (t.dram n).remapFree = (s.dram n).remapFree)
  ∧ ∀ (s : State) (n row : Nat), s.answers = true → n < 2 → (s.dram n).repairing = some row →
    ∃ t, exec (.softRepairComplete n row) s = .next t ∧ (t.dram n).repairing = none ∧ (t.dram n).repaired = (s.dram n).repaired ++ [row]
      ∧ (t.dram n).remapFree = (s.dram n).remapFree + 1 ∧ row ∉ (t.dram n).remapped ∧ t.flash.writes ≠ []

/-! ## The PCI Express endpoint (17) -/

/-- PCIE_LINK_UP, D3HOT_ENTRY, D0_RETURN, CONFIGURATION_WRITE, ENDPOINT_RESET, BAR2_WRITE, BAR2_READ, ATS_INVALIDATION and ATS_INVALIDATION_COMPLETE (17
R504, R506, R514 to R516, R522 to R525): the link comes up at a speed and width; INTA needs an enabled cause, the link up, D0 and no Interrupt
Disable; a reset of the endpoint takes its registers and rings alone; BAR2 writes land only in the staging areas and reads return DRAM, zeros beyond
48 GiB, or a poisoned completion for void data; an invalidation removes the pages it names. -/
def Obligations.TheEndpointAnswersTheHost : Prop :=
  (∀ (s : State) (v w : Nat), s.answers = true → s.pins.pcieOff = false → s.pins.refLostPcie = false → 1 ≤ v → v ≤ 5 → w ∈ [1, 2, 4, 8] →
    ∃ t, exec (.pcieLinkUp v w) s = .next t ∧ t.pci = { s.pci with up := true, speed := v, width := w }
      ∧ t.pins.inta = (decide (s.pci.intCause &&& s.pci.intEnable ≠ 0) && !s.pci.interruptDisable && !s.pci.d3hot))
  ∧ (∀ s : State, s.answers = true → s.pci.up = true →
    (∃ t, exec .d3hotEntry s = .next t ∧ t.pci = { s.pci with d3hot := true } ∧ t.pins.inta = false ∧ t.pciServes = false)
    ∧ ∃ t, exec .d0Return s = .next t ∧ t.pci = { s.pci with d3hot := false } ∧ t.pciServes = true
      ∧ t.pins.inta = (decide (s.pci.intCause &&& s.pci.intEnable ≠ 0) && !s.pci.interruptDisable))
  ∧ (∀ s : State, s.answers = true → s.pci.up = true →
    (∀ b, ∃ t, exec (.configurationWrite (.interruptDisable b)) s = .next t ∧ t.pci = { s.pci with interruptDisable := b }
      ∧ t.pins.inta = (decide (s.pci.intCause &&& s.pci.intEnable ≠ 0) && !b && !s.pci.d3hot))
    ∧ (∃ t, exec (.configurationWrite (.atsEnable true)) s = .next t ∧ t.pci = { s.pci with ats := true })
    ∧ (∃ t, exec (.configurationWrite (.atsEnable false)) s = .next t ∧ t.pci = { s.pci with ats := false, atc := [] })
    ∧ (∀ g ∈ [16, 32, 64], ∃ t, exec (.configurationWrite (.bar2Size g)) s = .next t ∧ t.pci = { s.pci with bar2Gib := g })
    ∧ ∀ g, g ∉ [16, 32, 64] → exec (.configurationWrite (.bar2Size g)) s = .next s)
  ∧ (∀ (s : State) (e : EndpointEvent), s.answers = true → s.pci.up = true →
    ∃ t, exec (.endpointReset e) s = .next t ∧ t.pci.cmdEnable = false ∧ t.pci.jrnEnable = false ∧ t.pci.intCause = 0 ∧ t.pci.intEnable = 0
      ∧ t.pci.atc = [] ∧ t.pci.ats = false ∧ t.pci.bar2Gib = 16 ∧ t.pci.interruptDisable = false ∧ t.pci.up = decide (e = .flr)
      ∧ t.pci.downs = (if e = .linkDown then min 255 (s.pci.downs + 1) else s.pci.downs)
      ∧ t.pci.resets = (if e = .linkDown then s.pci.resets else min 255 (s.pci.resets + 1))
      ∧ t.stl.batch = s.stl.batch ∧ (t.page .host).opened = false ∧ (∀ n, (t.stream n).pushes = []) ∧ t.phase = s.phase ∧ t.cfg = s.cfg)
  ∧ (∀ (s : State) (off : Nat) (bs : List Byte), s.pciServes = true → off + bs.length ≤ s.pci.bar2Gib * 2 ^ 30 →
    (inStaging s off bs.length = true →
      ∃ t, exec (.bar2Write off bs) s = .next t ∧ (∀ i, (h : i < bs.length) → t.byte (off + i) = bs[i])
        ∧ ∀ a, a < off ∨ off + bs.length ≤ a → t.byte a = s.byte a)
    ∧ (inStaging s off bs.length = false →
      ∃ t, exec (.bar2Write off bs) s = .next t ∧ t.pci.dropped = s.pci.dropped + 1 ∧ ∀ a, t.byte a = s.byte a))
  ∧ (∀ (s : State) (off n : Nat), s.pciServes = true → off + n ≤ s.pci.bar2Gib * 2 ^ 30 → off + n ≤ dramEnd →
    (s.anyVoid off n = false →
      ∃ t, exec (.bar2Read off n) s = .next t ∧ t.readback = (List.range n).map (fun i => s.byte (off + i)) ∧ t.poisoned = false)
    ∧ (s.anyVoid off n = true →
      ∃ t, exec (.bar2Read off n) s = .next t ∧ t.readback.length = n ∧ t.poisoned = true))
  ∧ (∀ (s : State) (off n : Nat), s.pciServes = true → off + n ≤ s.pci.bar2Gib * 2 ^ 30 → dramEnd ≤ off →
    ∃ t, exec (.bar2Read off n) s = .next t ∧ t.readback = List.replicate n 0 ∧ t.poisoned = false)
  ∧ (∀ (s : State) (base size : Nat), s.answers = true → s.pci.up = true → s.pci.invalidating.length < 32 →
    ∃ t, exec (.atsInvalidation base size) s = .next t ∧ t.pci.invalidating = s.pci.invalidating ++ [(base, size)]
      ∧ ∀ p, p ∈ t.pci.atc ↔ p ∈ s.pci.atc ∧ (4096 * p + 4096 ≤ base ∨ base + size ≤ 4096 * p))
  ∧ ∀ (s : State) (x : Nat × Nat) (r : List (Nat × Nat)), s.answers = true → s.pci.up = true → s.pci.invalidating = x :: r →
    ∃ t, exec .atsInvalidationComplete s = .next t ∧ t.pci.invalidating = r ∧ t.pci.invalidations = s.pci.invalidations + 1

/-- CMD_RING_CTRL_WRITE, JRNL_RING_CTRL_WRITE, JOURNAL_RING_DELIVER, JOURNAL_INT_MODERATION and HOST_READ_FAILURE (17 R511 to R513, R518, R520, R521): a
ring is enabled only with a size in its range, and from its start; an interval out of range leaves the field as it was and is counted (log entry 155:
the model's choice); records are delivered in sequence order to free slots and nothing else of memory changes; the journal cause follows the count or
the timer; a read or write of the host that fails has the outcome the table gives. -/
def Obligations.TheRingsAreControlledAndServed : Prop :=
  (∀ (s : State) (v : W32), s.answers = true → bitsOf v.toNat 0 16 < 10 ∨ 10000 < bitsOf v.toNat 0 16 →
    ∃ t, exec (.cmdRingCtrlWrite v) s = .next t ∧ t.pci.cmdInterval = s.pci.cmdInterval ∧ t.stl.ignoredWrites = s.stl.ignoredWrites + 1)
  ∧ (∀ (s : State) (v : W32), s.answers = true → 10 ≤ bitsOf v.toNat 0 16 → bitsOf v.toNat 0 16 ≤ 10000 →
    (v.toNat.testBit 31 = true → s.pci.cmdEnable = false → 6 ≤ bitsOf v.toNat 20 5 → bitsOf v.toNat 20 5 ≤ 16 →
      ∃ t, exec (.cmdRingCtrlWrite v) s = .next t ∧ t.pci.cmdEnable = true ∧ t.pci.cmdSize = bitsOf v.toNat 20 5
        ∧ t.pci.cmdInterval = bitsOf v.toNat 0 16 ∧ t.pci.cmdHead = 0 ∧ t.pci.cmdPhase = true ∧ t.pci.cmdStatus = stOK)
    ∧ (v.toNat.testBit 31 = true → s.pci.cmdEnable = false → bitsOf v.toNat 20 5 < 6 ∨ 16 < bitsOf v.toNat 20 5 →
      ∃ t, exec (.cmdRingCtrlWrite v) s = .next t ∧ t.pci.cmdEnable = false ∧ t.pci.cmdStatus = stRANGE)
    ∧ (v.toNat.testBit 31 = false →
      ∃ t, exec (.cmdRingCtrlWrite v) s = .next t ∧ t.pci.cmdEnable = false ∧ t.pci.cmdHead = s.pci.cmdHead
        ∧ t.pci.cmdInterval = bitsOf v.toNat 0 16)
    ∧ (v.toNat.testBit 31 = true → s.pci.cmdEnable = true → bitsOf v.toNat 20 5 = s.pci.cmdSize →
      exec (.cmdRingCtrlWrite v) s = .next { s with pci := { s.pci with cmdInterval := bitsOf v.toNat 0 16 } }))
  ∧ (∀ (s : State) (v : W32), s.answers = true → v.toNat.testBit 31 = true → s.pci.jrnEnable = true → bitsOf v.toNat 24 5 = s.pci.jrnSize →
    bitsOf v.toNat 29 2 = s.pci.jrnStart → bitsOf v.toNat 29 2 ≠ 3 → exec (.jrnlRingCtrlWrite v) s = .next s)
  ∧ (∀ (s : State) (v : W32), s.answers = true → bitsOf v.toNat 29 2 ≠ 3 →
    (v.toNat.testBit 31 = true → s.pci.jrnEnable = false → 8 ≤ bitsOf v.toNat 24 5 → bitsOf v.toNat 24 5 ≤ 24 →
      ∃ t, exec (.jrnlRingCtrlWrite v) s = .next t ∧ t.pci.jrnEnable = true ∧ t.pci.jrnSize = bitsOf v.toNat 24 5
        ∧ t.pci.jrnStart = bitsOf v.toNat 29 2 ∧ t.pci.produced = 0 ∧ t.pci.consumed = 0 ∧ t.pci.jrnStatus = stOK
        ∧ t.pci.jrnNext = deliveryStart s (bitsOf v.toNat 29 2))
    ∧ (v.toNat.testBit 31 = true → s.pci.jrnEnable = false → bitsOf v.toNat 24 5 < 8 ∨ 24 < bitsOf v.toNat 24 5 →
      ∃ t, exec (.jrnlRingCtrlWrite v) s = .next t ∧ t.pci.jrnEnable = false ∧ t.pci.jrnStatus = stRANGE)
    ∧ (v.toNat.testBit 31 = false →
      ∃ t, exec (.jrnlRingCtrlWrite v) s = .next t ∧ t.pci.jrnEnable = false ∧ t.pci.produced = s.pci.produced))
  ∧ (∀ (s : State) (k : Nat), s.jrnServed = true →
    ∃ t, exec (.journalRingDeliver k) s = .next t
      ∧ ∀ a, a < hostBase + s.pci.jrnBase.toNat ∨ hostBase + s.pci.jrnBase.toNat + 128 * 2 ^ s.pci.jrnSize ≤ a →
        a < hostBase + s.pci.jrnState.toNat ∨ hostBase + s.pci.jrnState.toNat + 8 ≤ a → t.byte a = s.byte a)
  ∧ (∀ (s : State) (r : Rec) (slot : Nat), s.jrnServed = true → s.journal.lostCount = 0 →
    (s.journal.held.find? fun r => decide (s.pci.jrnNext ≤ r.seq)) = some r → s.recordVoid r.seq = false →
    s.hostReachable s.pci.jrnBase.toNat (128 * 2 ^ s.pci.jrnSize) = true → s.hostReachable s.pci.jrnState.toNat 16 = true →
    leNat (s.hostBytes (s.pci.jrnState.toNat + 8) 8) ≤ s.pci.produced →
    s.pci.produced - leNat (s.hostBytes (s.pci.jrnState.toNat + 8) 8) < 2 ^ s.pci.jrnSize →
    slot = s.pci.jrnBase.toNat + 128 * (s.pci.produced % 2 ^ s.pci.jrnSize) →
    slot + 128 ≤ s.pci.jrnState.toNat ∨ s.pci.jrnState.toNat + 8 ≤ slot →
    ∃ t, exec (.journalRingDeliver 1) s = .next t ∧ t.pci.produced = s.pci.produced + 1 ∧ t.pci.jrnNext = r.seq + 1
      ∧ (∀ i, (h : i < (recordBytes r).length) → t.byte (hostBase + slot + i) = (recordBytes r)[i])
      ∧ leNat (t.hostBytes s.pci.jrnState.toNat 8) = (s.pci.produced + 1) % 2 ^ 64
      ∧ (s.pci.intCount ≤ s.pci.sinceInt + 1 → t.pci.intCause &&& 1 = 1 ∧ t.pci.sinceInt = 0))
  ∧ (∀ s : State, s.jrnServed = true → s.hostReachable s.pci.jrnState.toNat 16 = true →
    s.pci.produced < leNat (s.hostBytes (s.pci.jrnState.toNat + 8) 8) →
    ∃ t, exec (.journalRingDeliver 1) s = .next t ∧ t.pci.jrnEnable = false ∧ t.pci.jrnStatus = stRANGE ∧ t.pci.intCause.toNat.testBit 6 = true)
  ∧ (∀ (s : State) (h : Nat), s.answers = true → s.pci.oldestInt = some h →
    ∃ t, exec .journalIntModeration s = .next t ∧ t.pci.intCause.toNat.testBit 0 = true ∧ t.pci.sinceInt = 0 ∧ t.pci.oldestInt = none
      ∧ t.time.elapsed = max s.time.elapsed (h + 1000 * s.pci.intTimer))
  ∧ ∀ s : State, s.running = true →
    (s.pci.cmdEnable = true → ∃ t, exec (.hostReadFailure .ringFetch) s = .next t ∧ t.pci.timeouts = s.pci.timeouts + 1
      ∧ t.pci.cmdHead = s.pci.cmdHead ∧ ∀ a, t.byte a = s.byte a)
    ∧ (s.pci.jrnEnable = true → ∃ t, exec (.hostReadFailure .journalState) s = .next t ∧ t.pci.timeouts = s.pci.timeouts + 1
      ∧ t.pci.jrnEnable = true ∧ ∀ a, t.byte a = s.byte a)
    ∧ (s.pci.jrnEnable = true → ∃ t, exec (.hostReadFailure .journalWrite) s = .next t ∧ t.pci.jrnEnable = false ∧ t.pci.jrnStatus = stBOUND
      ∧ t.pci.intCause.toNat.testBit 6 = true ∧ t.journal = s.journal ∧ ∀ a, t.byte a = s.byte a)
    ∧ (∀ (n i : Nat) (irq b : Bool) (rest : List (Nat × Bool × Nat)), takeFetching n s.pci.fetching = some ((i, irq), rest) →
      ∃ t, exec (.hostReadFailure (.pushPayload n b)) s = .next t ∧ (t.stream n).pushes = (s.stream n).pushes.drop 1
        ∧ t.pci.fetching = rest ∧ t.pci.timeouts = s.pci.timeouts + (if b then 0 else 1)
        ∧ t.byte (hostBase + (s.pci.entryAddr i + 4)) = BitVec.ofNat 8 (0x80 + (if b then stVOID else stBOUND))
        ∧ ∀ a, a ≠ hostBase + (s.pci.entryAddr i + 4) → t.byte a = s.byte a)
    ∧ ∀ (p : Nat) (b : Bool) (d : Dma) (rest : List Dma) (c : DmaCmd), s.flt.stopPhase ≠ 2 → (s.engine p).handoverFrom = none →
      takeDma (s.engine p).dmas = some (d, rest) → c = parseDma d.cmd → waitsHandover s c = false →
      (∀ i < c.rows, ∀ k < c.len, placeOf (c.dstRow i + k) ≠ .register) →
      ∃ t, exec (.hostReadFailure (.dmaRead p b)) s = .next t ∧ (t.engine p).dmas = rest
        ∧ t.pci.timeouts = s.pci.timeouts + (if b then 0 else 1)
        ∧ ∀ a, (∀ i < c.rows, ∀ k < c.len, s.resolve (c.dstRow i + k) ≠ a) → t.byte a = s.byte a

/-! ## The ports and the Sanor link (18, 11 R361) -/

/-- NET_LINK_CHANGE, HEARTBEAT_SEND, SANOR_HEARTBEAT, PEER_LOST, FAILOVER_RELEASE, SANOR_ACK, SANOR_ACK_DUE, SANOR_RETRANSMIT and EXPORT_DATAGRAM_SEND (18
R528, R533, R535 to R537, R543, R544): a port gains or loses its link with record 0x0800; a peer joins at its first heartbeat and is lost after the
limit, and what waited for it is settled; a backup gives taken rows back after 60 s of healthy heartbeats, and keeps them when that batch fails a
check (log entry 118: the model's choice); messages are kept until acknowledged and retransmitted five times; export datagrams carry up to 11 records.
The frames of heartbeats and acknowledgements are those of 18 R534, and an export datagram is that of R533 (log entry 245: what the frames hold
beside). -/
def Obligations.LinksPeersAndDelivery : Prop :=
  (∀ (s : State) (n mode : Nat), s.answers = true → n < 2 → (if n = 0 then s.pins.ethIdle0 else s.pins.ethIdle1) = false →
    (mode = 1 ∨ mode = 2 → s.pins.refLostEth = false → (s.netPort n).state ≠ 2 →
      ∃ t x, exec (.netLinkChange n true true mode) s = .next t ∧ (t.netPort n).state = 2 ∧ (t.netPort n).mode = mode
        ∧ t.journal.waiting = s.journal.waiting ++ [x] ∧ x.type = 0x0800)
    ∧ ((s.netPort n).state = 2 →
      ∃ t x, exec (.netLinkChange n false false mode) s = .next t ∧ (t.netPort n).state = 1 ∧ (t.netPort n).downs = (s.netPort n).downs + 1
        ∧ t.journal.waiting = s.journal.waiting ++ [x] ∧ x.type = 0x0800))
  ∧ (∀ (s : State) (n : Nat), s.running = true → s.sanorOn n = true → s.portUp n = true →
    ∃ t h, exec (.heartbeatSend n) s = .next t ∧ (t.netPort n).heartbeat = some h ∧ (s.cfg.peer.map (·.device)) = some h.device
      ∧ h.identifier = s.fuses.deviceId ∧ h.state = s.linkState ∧ h.epoch = s.stl.epoch.toNat
      ∧ t.lnk.sent = s.lnk.sent + 1 ∧ (t.netPort n).tx = (s.netPort n).tx + 1
      ∧ (t.netPort n).frames = (s.netPort n).frames ++ [heartbeatFrame t n h])
  ∧ (∀ (s : State) (n : Nat) (h : Heartbeat) (p : PeerSettings), s.running = true → n < 2 → s.sanorOn n = true → s.portUp n = true → s.cfg.peer = some p →
    h.device < 1024 → h.device ≠ p.device →
    ∃ t, exec (.sanorHeartbeat n h) s = .next t ∧ (t.peer h.device).joined = true ∧ (t.peer h.device).identifier = h.identifier
      ∧ (t.peer h.device).state = h.state ∧ (t.peer h.device).lastHeard = s.time.elapsed
      ∧ ((s.peer h.device).joined = false → ∃ x ∈ t.journal.waiting, x.type = 0x0801)
      ∧ (h.state = 3 ∨ h.state = 4 → (t.peer h.device).healthySince = none)
      ∧ (h.ack = 0 → (t.peer h.device).unacked = (s.peer h.device).unacked))
  ∧ (∀ (s : State) (n : Nat) (h : Heartbeat) (p : PeerSettings), s.running = true → n < 2 → s.sanorOn n = true → s.portUp n = true → s.cfg.peer = some p →
    h.device < 1024 → h.device = p.device → s.fuses.deviceId ≠ h.identifier →
    ∃ t, exec (.sanorHeartbeat n h) s = .next t ∧ t.lnk.isolated = (s.lnk.isolated || decide (h.identifier < s.fuses.deviceId))
      ∧ t.lnk.peers = s.lnk.peers)
  ∧ (∀ (s : State) (d : Nat), s.running = true → s.cfg.peer ≠ none → (s.peer d).joined = true →
    ∃ t x, exec (.peerLost d) s = .next t ∧ (t.peer d).joined = false ∧ (t.peer d).unacked = [] ∧ x ∈ t.journal.waiting ∧ x.type = 0x0802
      ∧ (∀ h ∈ s.ledger.handovers, h.peer = d → ∃ g ∈ t.ledger.handovers, g.handle = h.handle)
      ∧ ∀ a, (∀ q ∈ s.lnk.queries, d ∈ q.waiting → a < q.out ∨ q.out + 16 * q.k ≤ a) → t.byte a = s.byte a)
  ∧ (∀ (s u : State) (es : List Entry) (c : Cfg) (d h : Nat), s.running = true → (s.peer d).healthySince = some h → (s.peer d).takenRows ≠ [] →
    s.stl.batch = none → s.stl.update = none → u = s.atElapsed (h + 60 * second) →
    es = (s.peer d).takenRows.map (fun n => { kind := 3, flags := 0, table := 4, index := n, value := 0, mask := 0, rest := 0 }) →
    c = { s.cfg with streams := s.cfg.streams.filter fun e => !(s.peer d).takenRows.contains e.1 } →
    internalChecks u es c (u.time.now + 5000000) none = none →
    ∃ t b x, exec (.failoverRelease d) s = .next t ∧ t.stl.batch = some b ∧ (t.peer d).takenRows = []
      ∧ (∀ e ∈ b.new.streams, e.1 ∉ (s.peer d).takenRows) ∧ t.journal.waiting = s.journal.waiting ++ [x] ∧ x.type = 0x0805
      ∧ t.time.elapsed = max s.time.elapsed (h + 60 * second))
  ∧ (∀ (s u : State) (es : List Entry) (c : Cfg) (d h : Nat), s.running = true → (s.peer d).healthySince = some h → (s.peer d).takenRows ≠ [] →
    s.stl.batch = none → s.stl.update = none → u = s.atElapsed (h + 60 * second) →
    es = (s.peer d).takenRows.map (fun n => { kind := 3, flags := 0, table := 4, index := n, value := 0, mask := 0, rest := 0 }) →
    c = { s.cfg with streams := s.cfg.streams.filter fun e => !(s.peer d).takenRows.contains e.1 } →
    internalChecks u es c (u.time.now + 5000000) none ≠ none →
    ∃ t, exec (.failoverRelease d) s = .next t ∧ t.stl.batch = none ∧ (t.peer d).takenRows = (s.peer d).takenRows ∧ t.journal = s.journal)
  ∧ (∀ (s : State) (d h : Nat), s.running = true → (s.peer d).healthySince = some h → (s.peer d).takenRows ≠ [] →
    s.stl.batch ≠ none ∨ s.stl.update ≠ none →
    ∃ t, exec (.failoverRelease d) s = .next t ∧ t.stl.batch = s.stl.batch ∧ t.stl.stateRejects = s.stl.stateRejects + 1
      ∧ t.lnk = s.lnk)
  ∧ (∀ (s : State) (d ack : Nat), s.running = true → s.sanorOn 0 = true ∨ s.sanorOn 1 = true → (s.peer d).joined = true →
    ∃ t, exec (.sanorAck d ack) s = .next t ∧ (t.peer d).unacked = (s.peer d).unacked.filter fun m => !seqLe m.seq ack)
  ∧ (∀ (s : State) (d h : Nat), s.sanorTakes = true → (s.peer d).ackDue = some h →
    ∃ t, exec (.sanorAckDue d) s = .next t ∧ (t.peer d).ackDue = none ∧ t.lnk.sent = s.lnk.sent + 1
      ∧ t.time.elapsed = max s.time.elapsed h
      ∧ (s.portUp (s.sanorPort d) = true → (t.netPort (s.sanorPort d)).frames = (s.netPort (s.sanorPort d)).frames
        ++ [ethFrame (s.peer d).mac (s.portMac (s.sanorPort d)) 0x88B5 (sanorMessage s d (s.peer d).received { seq := 0, type := 2 })]))
  ∧ (∀ (s : State) (d q : Nat) (m : Msg), s.sanorTakes = true → ((s.peer d).unacked.find? fun m => m.seq == q) = some m →
    (m.tries < 5 → ∃ t, exec (.sanorRetransmit d q) s = .next t ∧ t.lnk.retrans = s.lnk.retrans + 1
      ∧ { m with tries := m.tries + 1, sent := t.time.elapsed } ∈ (t.peer d).unacked
      ∧ t.time.elapsed = max s.time.elapsed (m.sent + 2000000))
    ∧ (5 ≤ m.tries → ∃ t, exec (.sanorRetransmit d q) s = .next t ∧ (∀ x ∈ (t.peer d).unacked, x.seq ≠ q) ∧ t.lnk.retrans = s.lnk.retrans))
  ∧ ∀ (s : State) (e port : Nat) (p : PeerSettings), s.running = true → s.cfg.peer = some p → Table.get [] e s.lnk.exports ≠ [] →
    port = (p.dests.getD e {}).port →
    (s.portUp port = true → ((Table.get [] e s.lnk.exports).take 11).any (fun r => !s.recordVoid r.seq) = true → port < 2 →
      ∃ t, exec (.exportDatagramSend e) s = .next t ∧ Table.get [] e t.lnk.exports = (Table.get [] e s.lnk.exports).drop 11
        ∧ (t.netPort port).tx = (s.netPort port).tx + 1
        ∧ (t.netPort port).frames = (s.netPort port).frames
          ++ [exportDatagram p.device (((Table.get [] e s.lnk.exports).take 11).filter fun r => !s.recordVoid r.seq)])
    ∧ ((s.netPort port).state ≠ 2 →
      ∃ t, exec (.exportDatagramSend e) s = .next t ∧ Table.get [] e t.lnk.exports = (Table.get [] e s.lnk.exports).drop 11 ∧ t.nets = s.nets
        ∧ t.lnk.exportDropped = s.lnk.exportDropped + (((Table.get [] e s.lnk.exports).take 11).filter fun r => !s.recordVoid r.seq).length)

/-- SANOR_HANDOVER, SANOR_HANDOVER_ACK, HANDOVER_TIMEOUT, SANOR_CLOSE_COPY, SANOR_QUERY, SANOR_RESULT, PEER_QUERY_TIMEOUT and SANOR_REPLICA (11 R361, 18
R535, R538 to R542): a message next in sequence is taken, another is not; a handover opens a confirmed track or is answered with STATE or BUDGET; its
acknowledgement closes the sender's track, one after the timeout is answered with CLOSE_COPY, and without one the track stays; a query is answered
within the served rate; replies are merged into the query's output area and nothing else of memory changes; the newest complete replica is kept. -/
def Obligations.SanorMessagesAreTaken : Prop :=
  (∀ (s : State) (d seq : Nat) (c : Instr), s.sanorTakes = true → (s.peer d).joined = true → seq ≠ ((s.peer d).received + 1) % 2 ^ 32 →
    (∃ x y z, c = .sanorHandover d seq x y z) ∨ (∃ x y z, c = .sanorHandoverAck d seq x y z) ∨ (∃ x, c = .sanorCloseCopy d seq x)
      ∨ (∃ x y z w, c = .sanorQuery d seq x y z w) ∨ (∃ x y, c = .sanorResult d seq x y) ∨ (∃ x y z w v, c = .sanorReplica d seq x y z w v) →
    ∃ t, exec c s = .next t ∧ (t.peer d).received = (s.peer d).received ∧ (t.peer d).ackDue ≠ none ∧ t.ledger = s.ledger
      ∧ t.journal = s.journal ∧ ∀ a, t.byte a = s.byte a)
  ∧ (∀ (s : State) (d seq n : Nat) (ctx emb : List Byte), s.sanorTakes = true → (s.peer d).joined = true →
    seq = ((s.peer d).received + 1) % 2 ^ 32 → (s.cfg.stream n).active = false ∨ (s.stream n).state = 4 →
    ∃ t m, exec (.sanorHandover d seq ctx emb n) s = .next t ∧ (t.peer d).received = seq ∧ t.ledger = s.ledger
      ∧ (t.peer d).unacked = (s.peer d).unacked ++ [m] ∧ m.type = msgHandoverAck
      ∧ m.payload = leBytes 4 (field ctx 0 4) ++ leBytes 4 0xFFFFFFFF ++ leBytes 1 stSTATE)
  ∧ (∀ (s : State) (d seq n r : Nat) (ctx emb : List Byte), s.sanorTakes = true → (s.peer d).joined = true →
    seq = ((s.peer d).received + 1) % 2 ^ 32 → (s.cfg.stream n).active = true → (s.stream n).state ≠ 4 →
    s.clrServing (s.cfg.stream n).region = some r → allocSlot s r = none →
    ∃ t m, exec (.sanorHandover d seq ctx emb n) s = .next t ∧ t.ledger = s.ledger
      ∧ (t.peer d).unacked = (s.peer d).unacked ++ [m] ∧ m.type = msgHandoverAck
      ∧ m.payload = leBytes 4 (field ctx 0 4) ++ leBytes 4 0xFFFFFFFF ++ leBytes 1 stBUDGET)
  ∧ (∀ (s u : State) (d seq n r slot : Nat) (ctx emb : List Byte), s.sanorTakes = true → (s.peer d).joined = true →
    seq = ((s.peer d).received + 1) % 2 ^ 32 → (s.cfg.stream n).active = true → (s.stream n).state ≠ 4 →
    s.clrServing (s.cfg.stream n).region = some r → allocSlot s r = some (slot, u) →
    ∃ t m x, exec (.sanorHandover d seq ctx emb n) s = .next t ∧ (t.track slot).state = .confirmed ∧ (t.track slot).stream = n
      ∧ (t.track slot).owner = r ∧ (t.track slot).originDevice = d ∧ (t.track slot).originHandle = field ctx 0 4
      ∧ t.lnk.handIn = s.lnk.handIn + 1 ∧ (t.peer d).unacked = (s.peer d).unacked ++ [m] ∧ m.type = msgHandoverAck
      ∧ m.payload = leBytes 4 (field ctx 0 4) ++ leBytes 4 (t.handleOf slot) ++ leBytes 1 stOK
      ∧ x ∈ t.journal.waiting ∧ x.type = 0x0305)
  ∧ (∀ (s : State) (d seq old new st : Nat) (h : Handover), s.sanorTakes = true → (s.peer d).joined = true →
    seq = ((s.peer d).received + 1) % 2 ^ 32 → (s.ledger.handovers.find? fun x => x.handle == old && x.peer == d) = some h →
    (h.expired = false → st = stOK → s.stale old = false → (s.track (old / 4096)).live = true →
      ∃ t, exec (.sanorHandoverAck d seq old new st) s = .next t ∧ (t.track (old / 4096)).live = false
        ∧ t.lnk.handOut = s.lnk.handOut + 1 ∧ (∃ x ∈ t.journal.waiting, x.type = 0x0304 ∧ x.status = stOK)
        ∧ ∃ x ∈ t.journal.waiting, x.type = 0x0302)
    ∧ (h.expired = false → st ≠ stOK →
      ∃ t x, exec (.sanorHandoverAck d seq old new st) s = .next t ∧ t.ledger.tracks = s.ledger.tracks
        ∧ t.ledger.handovers = (s.ledger.handovers.filter fun x => x ≠ h)
        ∧ t.journal.waiting = (s.emit x).journal.waiting ∧ x.type = 0x0304 ∧ x.status = st)
    ∧ (h.expired = true → st = stOK →
      ∃ t m, exec (.sanorHandoverAck d seq old new st) s = .next t ∧ t.ledger.tracks = s.ledger.tracks
        ∧ (t.peer d).unacked = (s.peer d).unacked ++ [m] ∧ m.type = msgCloseCopy ∧ m.payload = leBytes 4 new))
  ∧ (∀ (s : State) (old : Nat) (h : Handover), s.mayBegin = true →
    (s.ledger.handovers.find? fun x => x.handle == old && !x.expired) = some h →
    ∃ t x, exec (.handoverTimeout old) s = .next t ∧ t.ledger.tracks = s.ledger.tracks ∧ { h with expired := true } ∈ t.ledger.handovers
      ∧ t.journal.waiting = (s.emit x).journal.waiting ∧ x.type = 0x0304 ∧ x.status = stBUDGET
      ∧ t.time.elapsed = max s.time.elapsed (h.sent + s.cfg.policies.handover * 1000000))
  ∧ (∀ (s : State) (d seq old : Nat), s.sanorTakes = true → (s.peer d).joined = true →
    seq = ((s.peer d).received + 1) % 2 ^ 32 → s.stale old = false → (s.track (old / 4096)).live = true →
    (s.track (old / 4096)).originDevice = d →
    ∃ t x, exec (.sanorCloseCopy d seq old) s = .next t ∧ (t.track (old / 4096)).live = false ∧ x ∈ t.journal.waiting ∧ x.type = 0x0302)
  ∧ (∀ (s : State) (d seq number cls k : Nat) (emb : List Byte), s.sanorTakes = true → (s.peer d).joined = true →
    seq = ((s.peer d).received + 1) % 2 ^ 32 →
    ∃ t m, exec (.sanorQuery d seq number cls k emb) s = .next t ∧ t.lnk.queriesAnswered = s.lnk.queriesAnswered + 1
      ∧ (t.peer d).unacked = (s.peer d).unacked ++ [m] ∧ m.type = msgResult
      ∧ ((s.cfg.peer.map (·.served)).getD 0 ≤ s.lnk.servedSecond → m.payload = leBytes 4 number ++ leBytes 1 0))
  ∧ (∀ (s : State) (d seq number : Nat) (es : List (List Byte)) (q : Query), s.sanorTakes = true → (s.peer d).joined = true →
    seq = ((s.peer d).received + 1) % 2 ^ 32 →
    (s.lnk.queries.find? fun q => q.number == number && q.waiting.contains d) = some q →
    (q.waiting = [d] → ∃ t, exec (.sanorResult d seq number es) s = .next t ∧ (∀ x ∈ t.lnk.queries, x.number ≠ number)
      ∧ ∀ a, a < q.out ∨ q.out + 16 * q.k ≤ a → t.byte a = s.byte a)
    ∧ ((∃ w ∈ q.waiting, w ≠ d ∧ (s.peer w).joined = true) → ∃ t, exec (.sanorResult d seq number es) s = .next t
      ∧ (∃ x ∈ t.lnk.queries, x.number = number ∧ x.waiting = q.waiting.filter (· != d)) ∧ ∀ a, t.byte a = s.byte a))
  ∧ (∀ (s : State) (number : Nat) (q : Query), s.mayBegin = true → (s.lnk.queries.find? fun q => q.number == number) = some q →
    ∃ t x, exec (.peerQueryTimeout number) s = .next t ∧ (∀ y ∈ t.lnk.queries, y.number ≠ number)
      ∧ t.journal.waiting = s.journal.waiting ++ [x] ∧ x.type = 0x0807
      ∧ ∀ a, a < q.out ∨ q.out + 16 * q.k ≤ a → t.byte a = s.byte a)
  ∧ ∀ (s : State) (d seq n tick : Nat) (p : PeerSettings) (fr : List Byte), s.sanorTakes = true → (s.peer d).joined = true →
    seq = ((s.peer d).received + 1) % 2 ^ 32 → s.cfg.peer = some p →
    ((p.standby.any fun b => b.peer == d && b.stream == n) = true → (s.cfg.stream n).active = false →
      (Table.get { peer := d, tick := 0, count := 0 } (2 * n) s.lnk.replicas).count = 0 →
      (Table.get { peer := d, tick := 0, count := 0 } (2 * n + 1) s.lnk.replicas).tick ≠ tick →
      ∃ t, exec (.sanorReplica d seq n tick 0 1 fr) s = .next t
        ∧ (Table.get { peer := d, tick := 0, count := 0 } (2 * n) t.lnk.replicas).tick = tick
        ∧ (Table.get { peer := d, tick := 0, count := 0 } (2 * n) t.lnk.replicas).count = 1)
    ∧ ((p.standby.any fun b => b.peer == d && b.stream == n) = false ∨ (s.cfg.stream n).active = true →
      ∃ t, exec (.sanorReplica d seq n tick 0 1 fr) s = .next t ∧ t.lnk.replicas = s.lnk.replicas
        ∧ t.lnk.replicasDiscarded = s.lnk.replicasDiscarded + 1)

/-! ## The root of trust (19) -/

/-- CHALLENGE, CHALLENGE_EXPIRY, LOCK, UNLOCK_EXPIRY, PROGRAM_KEY, DEPLOY, RETURN and PROVISIONING (19 R556, R558, R563, R566): a challenge holds for 600
s; a lock, or the duration of an unlock, ends it with record 0x0904; the lifecycle moves only as the table says, and a command in any other state is
rejected with STATE and counted. A burn of the key hash that fails leaves an open value in the bits it was to burn (log entry 91: the model's choice). -/
def Obligations.UnlocksAndLifecycle : Prop :=
  (∀ (s : State) (x : Nat), s.answers = true →
    ∃ t, exec (.challenge x) s = .next t ∧ t.sec.challenge = x % 2 ^ 256 ∧ t.sec.challengeAt = some s.time.elapsed ∧ t.sec.status = stOK
      ∧ t.sec.perm = s.sec.perm)
  ∧ (∀ (s : State) (h : Nat), s.answers = true → s.sec.challengeAt = some h →
    ∃ t, exec .challengeExpiry s = .next t ∧ t.sec.challengeAt = none ∧ t.time.elapsed = max s.time.elapsed (h + 600 * second))
  ∧ (∀ s : State, s.answers = true →
    (s.sec.unlockEnd = none → ∃ t, exec .lock s = .next t ∧ t.sec = { s.sec with status := stEMPTY })
    ∧ (s.sec.unlockEnd ≠ none → ∃ t x, exec .lock s = .next t ∧ t.sec.perm = 0 ∧ t.sec.unlockEnd = none ∧ t.sec.status = stOK
      ∧ x ∈ t.journal.waiting ∧ x.type = 0x0904)
    ∧ ∀ h, s.sec.unlockEnd = some h → ∃ t x, exec .unlockExpiry s = .next t ∧ t.sec.perm = 0 ∧ t.sec.unlockEnd = none
      ∧ t.time.elapsed = max s.time.elapsed h ∧ x ∈ t.journal.waiting ∧ x.type = 0x0904)
  ∧ (∀ s : State, s.answers = true →
    (s.fuses.lifecycle = 1 → s.fuses.integratorHash = 0 → ∃ t x, exec (.programKey true) s = .next t
      ∧ t.fuses = { s.fuses with integratorHash := leNat (digest256 (s.tokenBytes 0 68)) } ∧ t.sec.status = stOK
      ∧ t.journal.waiting = s.journal.waiting ++ [x] ∧ x.type = 0x0906)
    ∧ (s.fuses.lifecycle = 1 → s.fuses.integratorHash = 0 → ∃ t x, exec (.programKey false) s = .next t
      ∧ t.fuses = { s.fuses with integratorHash := leNat (digest256 (s.tokenBytes 0 68)) &&& Config.freeNat s.free } ∧ t.sec.status = stRANGE
      ∧ t.journal.waiting = s.journal.waiting ++ [x] ∧ x.type = 0x0905)
    ∧ ∀ b, s.fuses.lifecycle ≠ 1 ∨ s.fuses.integratorHash ≠ 0 → ∃ t, exec (.programKey b) s = .next t ∧ t.fuses = s.fuses
      ∧ t.sec = { s.sec with status := stSTATE } ∧ t.stl.stateRejects = s.stl.stateRejects + 1 ∧ t.journal = s.journal)
  ∧ (∀ s : State, s.answers = true →
    (s.fuses.lifecycle = 1 → s.fuses.integratorHash ≠ 0 → s.boot.step = 8 → s.stl.update = none → ∃ t x, exec .deploy s = .next t
      ∧ t.fuses = { s.fuses with lifecycle := 2 } ∧ t.sec.status = stOK ∧ x ∈ t.journal.waiting ∧ x.type = 0x0902)
    ∧ (s.fuses.lifecycle ≠ 1 ∨ s.fuses.integratorHash = 0 ∨ s.boot.step ≠ 8 ∨ s.stl.update ≠ none → ∃ t, exec .deploy s = .next t
      ∧ t.fuses = s.fuses ∧ t.sec = { s.sec with status := stSTATE } ∧ t.stl.stateRejects = s.stl.stateRejects + 1))
  ∧ (∀ s : State, s.answers = true →
    (s.fuses.lifecycle = 2 → s.permits 3 = true → s.sec.attesting = false → ∃ t x, exec .returnDevice s = .next t
      ∧ t.fuses = { s.fuses with skSeed := 2 ^ 256 - 1, skPrf := 2 ^ 256 - 1, lifecycle := 3 } ∧ t.sec.identity = false
      ∧ x ∈ t.journal.waiting ∧ x.type = 0x0902)
    ∧ (s.fuses.lifecycle ≠ 2 ∨ s.permits 3 = false ∨ s.sec.attesting = true → ∃ t, exec .returnDevice s = .next t ∧ t.fuses = s.fuses
      ∧ t.sec = { s.sec with status := stSTATE } ∧ t.stl.stateRejects = s.stl.stateRejects + 1))
  ∧ ∀ (s : State) (a b c d : Nat) (cert : List Byte), s.answers = true →
    (s.fuses.lifecycle = 0 → ∃ t x, exec (.provisioning a b c d cert) s = .next t
      ∧ t.fuses = { s.fuses with skSeed := a % 2 ^ 256, skPrf := b % 2 ^ 256, identitySeed := c % 2 ^ 256, identityRoot := d % 2 ^ 256, lifecycle := 1 }
      ∧ t.sec.cert = cert.take 16384 ∧ x ∈ t.journal.waiting ∧ x.type = 0x0902)
    ∧ (s.fuses.lifecycle ≠ 0 → ∃ t, exec (.provisioning a b c d cert) s = .next t ∧ t.fuses = s.fuses
      ∧ t.stl.stateRejects = s.stl.stateRejects + 1 ∧ t.sec.cert = s.sec.cert)

/-- UNLOCK (19 R565): a malformed field gives RANGE; a token of the present lifecycle, device and valid challenge, by an allowed signer whose key hashes
to its fuse, with a signature that verifies, puts its permissions and duration in force, consumes the challenge and writes record 0x0903; any other
failure gives SIG and writes record 0x0905. -/
def Obligations.UnlockGrantsWhatItsTokenProves : Prop :=
  (∀ s : State, tokenForm s = true ↔
    s.tokenField 0 4 = 0x4C4D544B ∧ s.tokenField 4 2 = 1 ∧ s.tokenField 48 8 < 16 ∧ 1 ≤ s.tokenField 56 4 ∧ s.tokenField 56 4 ≤ 28800)
  ∧ (∀ s : State, tokenGood s = true ↔
    s.tokenField 7 1 = s.fuses.lifecycle ∧ signerAllowed s.fuses.lifecycle (s.tokenField 6 1) = true
      ∧ keyMatches (if s.tokenField 6 1 = 0 then s.fuses.dartojaHash else s.fuses.integratorHash) (leNat (digest256 (s.tokenBytes 64 68))) = true
      ∧ s.tokenField 8 8 = s.fuses.deviceId ∧ s.tokenField 16 32 = s.sec.challenge
      ∧ (∃ h, s.sec.challengeAt = some h ∧ s.time.elapsed < h + 600 * second)
      ∧ xmssVerify (s.tokenBytes 64 4) (s.tokenBytes 68 32) (s.tokenBytes 100 32) (s.tokenBytes 0 160) (s.tokenBytes 160 2820) = true)
  ∧ ∀ s : State, s.answers = true →
    (tokenForm s = false → ∃ t, exec .unlock s = .next t ∧ t.sec = { s.sec with status := stRANGE } ∧ t.journal = s.journal)
    ∧ (tokenForm s = true → ∃ t x, exec .unlock s = .next t ∧ x ∈ t.journal.waiting
      ∧ (if tokenGood s = true then t.sec.perm = BitVec.ofNat 64 (s.tokenField 48 8)
            ∧ t.sec.unlockEnd = some (s.time.elapsed + s.tokenField 56 4 * second) ∧ t.sec.challengeAt = none ∧ t.sec.status = stOK ∧ x.type = 0x0903
         else t.sec = { s.sec with status := stSIG } ∧ t.journal.waiting = s.journal.waiting ++ [x] ∧ x.type = 0x0905))

/-- ATTEST, ATTEST_COMPLETE and BOTTOM_TREE_READY (19 R559 to R562): an attestation takes the nonce once the state, the rate and the spans allow it,
opening a span when none has an index left; its report is written with the signature and uses one index; each tree that becomes ready is the one in
use or the next. -/
def Obligations.AttestationsAreMade : Prop :=
  (∀ s : State, s.answers = true →
    s.fuses.lifecycle = 0 ∨ s.fuses.lifecycle = 3 ∨ s.sec.attesting = true ∨ 100 ≤ (recent s.time.elapsed second s.sec.attests).length →
    ∃ t, exec .attest s = .next t ∧ t.sec = { s.sec with status := stSTATE } ∧ t.fuses = s.fuses
      ∧ t.stl.stateRejects = s.stl.stateRejects + 1)
  ∧ (∀ s : State, s.answers = true → s.fuses.lifecycle = 1 ∨ s.fuses.lifecycle = 2 → s.sec.attesting = false →
    (recent s.time.elapsed second s.sec.attests).length < 100 → s.fuses.spans < 512 →
    (spanUsed s = false → ∃ t, exec .attest s = .next t ∧ t.sec.attesting = true ∧ t.sec.attestNonce = s.sec.nonce ∧ t.sec.idx = s.sec.idx
      ∧ t.fuses = s.fuses)
    ∧ (spanUsed s = true → catchUp s < 512 → ∃ t x, exec .attest s = .next t ∧ t.sec.attesting = true ∧ t.sec.attestNonce = s.sec.nonce
      ∧ t.fuses = { s.fuses with spans := catchUp s + 1 } ∧ t.sec.span = some (catchUp s) ∧ t.sec.idx = catchUp s * spanSize
      ∧ x ∈ t.journal.waiting ∧ x.type = 0x0901)
    ∧ (spanUsed s = true → 512 ≤ catchUp s → ∃ t, exec .attest s = .next t ∧ t.sec = { s.sec with status := stBUDGET } ∧ t.fuses = s.fuses))
  ∧ (∀ (s : State) (sig : List Byte), s.answers = true → s.sec.attesting = true → s.sec.identity = true → sig.length = 5605 →
    ∃ t, exec (.attestComplete sig) s = .next t ∧ t.sec.report = reportBody s ++ sig ∧ t.sec.attesting = false
      ∧ t.sec.status = stOK ∧ t.sec.idx = s.sec.idx + 1 ∧ t.sec.attests = s.sec.attests ++ [s.time.elapsed])
  ∧ ∀ s : State, s.answers = true → s.fuses.lifecycle = 1 ∨ s.fuses.lifecycle = 2 →
    (s.sec.identity = false → exec .bottomTreeReady s = .next { s with sec := { s.sec with identity := true } })
    ∧ (s.sec.identity = true → exec .bottomTreeReady s = .next { s with sec := { s.sec with nextTree := true } })

/-! ## Observation (20) -/

/-- TRACE_CTRL_WRITE and TRACE_BUFFER_FLUSH (20 R578 to R581): a write that changes the dump area or the sources of a running trace, or sets a dump area
above the reserve, is ignored and counted; enabling restarts the sequence number and the offset at 0 and disabling turns the trace off; a unit's
buffered records go to the trace area in order, and to no other byte. OBS_SEL_WRITE (20 R592 to R594): a write that drives a group is refused and
counted where the group is not allowed, not listed or too fast; otherwise the pins carry it, with record 0x0A02; a write that drives none leaves the
pins low. -/
def Obligations.TracesAndTestGroups : Prop :=
  ((∀ (s : State) (src : Src) (v : W32), s.answers = true →
    (s.dbg.traceEnable = true ∧ (bitsOf v.toNat 24 6 ≠ s.dbg.dump ∨ bitsOf v.toNat 0 18 ≠ s.dbg.sources)) ∨ s.cfg.traceBytes < bitsOf v.toNat 24 6 * 0x1000000
      ∨ (bitsOf v.toNat 24 6 ≠ s.dbg.dump ∧ dumpArmed s = true) →
    exec (.traceCtrlWrite src v) s = .next { s with stl := { s.stl with ignoredWrites := s.stl.ignoredWrites + 1 } })
  ∧ (∀ (s : State) (src : Src) (v : W32), s.answers = true → v.toNat.testBit 31 = true → s.dbg.traceEnable = false →
    bitsOf v.toNat 24 6 * 0x1000000 ≤ s.cfg.traceBytes → bitsOf v.toNat 24 6 = s.dbg.dump ∨ dumpArmed s = false →
    ∃ t x, exec (.traceCtrlWrite src v) s = .next t ∧ t.dbg.traceEnable = true ∧ t.dbg.traceState = 1 ∧ t.dbg.traceSeq = 0 ∧ t.dbg.ptr = 0
      ∧ t.dbg.traceStop = v.toNat.testBit 30 ∧ t.dbg.dump = bitsOf v.toNat 24 6 ∧ t.dbg.sources = bitsOf v.toNat 0 18
      ∧ t.journal.waiting = s.journal.waiting ++ [x] ∧ x.type = 0x0A01)
  ∧ (∀ (s : State) (src : Src) (v : W32), s.answers = true → v.toNat.testBit 31 = false → s.dbg.traceEnable = true →
    bitsOf v.toNat 24 6 = s.dbg.dump → bitsOf v.toNat 0 18 = s.dbg.sources → s.dbg.dump * 0x1000000 ≤ s.cfg.traceBytes →
    ∃ t x, exec (.traceCtrlWrite src v) s = .next t ∧ t.dbg.traceEnable = false ∧ t.dbg.traceState = 0 ∧ t.dbg.ptr = s.dbg.ptr
      ∧ t.journal.waiting = s.journal.waiting ++ [x] ∧ x.type = 0x0A01)
  ∧ (∀ (s : State) (src : Src) (v : W32), s.answers = true → v.toNat.testBit 31 = s.dbg.traceEnable → bitsOf v.toNat 24 6 * 0x1000000 ≤ s.cfg.traceBytes →
    (s.dbg.traceEnable = true → bitsOf v.toNat 24 6 = s.dbg.dump ∧ bitsOf v.toNat 0 18 = s.dbg.sources) → bitsOf v.toNat 24 6 = s.dbg.dump ∨ dumpArmed s = false →
    exec (.traceCtrlWrite src v) s = .next { s with dbg := { s.dbg with
      traceStop := v.toNat.testBit 30, dump := bitsOf v.toNat 24 6, sources := bitsOf v.toNat 0 18 } })
  ∧ (∀ (s : State) (cls inst : Nat), s.answers = true →
    ∃ t, exec (.traceBufferFlush cls inst) s = .next t ∧ Table.get [] (256 * cls + inst) t.dbg.buffers = []
      ∧ (∀ j, j < s.layout.trace ∨ s.layout.trace + s.traceArea ≤ j → t.byte j = s.byte j))
  ∧ (∀ (s : State) (cls inst : Nat) (r : TraceRec), s.answers = true → Table.get [] (256 * cls + inst) s.dbg.buffers = [r] → s.dbg.traceState = 1 →
    s.dbg.ptr + 32 ≤ s.traceArea →
    ∃ t, exec (.traceBufferFlush cls inst) s = .next t ∧ t.dbg.ptr = s.dbg.ptr + 32 ∧ t.dbg.traceSeq = s.dbg.traceSeq + 1 ∧ t.dbg.wrapped = s.dbg.wrapped
      ∧ (∀ i, (h : i < (traceBytes r s.dbg.traceSeq.toNat).length) → t.byte (s.layout.trace + s.dbg.ptr + i) = (traceBytes r s.dbg.traceSeq.toNat)[i])
      ∧ ∀ j, j < s.layout.trace + s.dbg.ptr ∨ s.layout.trace + s.dbg.ptr + (traceBytes r s.dbg.traceSeq.toNat).length ≤ j → t.byte j = s.byte j)
  ∧ ∀ (s : State) (cls inst : Nat) (r : TraceRec), s.answers = true → Table.get [] (256 * cls + inst) s.dbg.buffers = [r] → s.dbg.traceState = 1 →
    s.traceArea < s.dbg.ptr + 32 →
    (s.dbg.traceStop = true → ∃ t x, exec (.traceBufferFlush cls inst) s = .next t ∧ t.dbg.traceState = 2 ∧ t.journal.waiting = s.journal.waiting ++ [x]
      ∧ x.type = 0x0A01 ∧ ∀ j, t.byte j = s.byte j)
    ∧ (s.dbg.traceStop = false → 32 ≤ s.traceArea → ∃ t, exec (.traceBufferFlush cls inst) s = .next t ∧ t.dbg.traceState = 1 ∧ t.dbg.wrapped = true
      ∧ t.dbg.ptr = 32 ∧ ∀ j, j < s.layout.trace ∨ s.layout.trace + (traceBytes r s.dbg.traceSeq.toNat).length ≤ j → t.byte j = s.byte j))
  ∧ (∀ (s : State) (src : Src) (v : W32), s.answers = true →
    (v.toNat.testBit 31 = true → s.obsUsable = false →
      ∃ t, exec (.obsSelWrite src v) s = .next t ∧ t.dbg = { s.dbg with obsStatus := stSTATE } ∧ t.pins = s.pins
        ∧ t.stl.ignoredWrites = s.stl.ignoredWrites + 1)
    ∧ (v.toNat.testBit 31 = true → s.obsUsable = true →
      ∃ t, exec (.obsSelWrite src v) s = .next t
        ∧ (if bitsOf v.toNat 16 10 < obsGroups ∧ 5 ≤ bitsOf v.toNat 8 8 ∧ groupMhz (bitsOf v.toNat 16 10) ≤ 200 * bitsOf v.toNat 8 8 then
            t.pins.obsActive = true ∧ t.dbg.obsGroup = bitsOf v.toNat 16 10 ∧ t.dbg.obsDivider = bitsOf v.toNat 8 8 ∧ t.dbg.obsStatus = stOK
              ∧ ∃ x, t.journal.waiting = s.journal.waiting ++ [x] ∧ x.type = 0x0A02
          else t.dbg = { s.dbg with obsStatus := stRANGE } ∧ t.pins = s.pins ∧ t.stl.ignoredWrites = s.stl.ignoredWrites + 1))
    ∧ (v.toNat.testBit 31 = false → ∃ t, exec (.obsSelWrite src v) s = .next t ∧ t.pins.obsActive = false ∧ t.dbg.obsEnable = false ∧ t.dbg.obsStatus = stOK))

/-- ARM, DISARM and WATCH_COPY_COMPLETE (20 R584 to R590): ARM arms an idle slot or shows RANGE or STATE; DISARM ends an armed watch with EMPTY and record
0x0A00, and shows the model's choice on an idle or capturing one (log entry 90); a capture ends its watch, writing no byte outside its destination,
none for statistics only, void data or a failed host write. -/
def Obligations.WatchesAreArmedAndCaptured : Prop :=
  (∀ (s : State) (w : Nat) (b : Bool), s.answers = true → watchSlot w b = true →
    (watchInRange s w (s.watch w).req = false → ∃ t, exec (.arm w b) s = .next t ∧ t.watch w = { s.watch w with status := stRANGE })
    ∧ (watchInRange s w (s.watch w).req = true → watchBarred s w (s.watch w) (s.watch w).req = true →
      ∃ t, exec (.arm w b) s = .next t ∧ t.watch w = { s.watch w with status := stSTATE } ∧ t.stl.stateRejects = s.stl.stateRejects + 1)
    ∧ (watchInRange s w (s.watch w).req = true → watchBarred s w (s.watch w) (s.watch w).req = false →
      ∃ t, exec (.arm w b) s = .next t ∧ (t.watch w).state = 1 ∧ (t.watch w).status = stOK ∧ (t.watch w).armedAt = s.time.elapsed
        ∧ (t.watch w).request = (s.watch w).request ∧ ∀ v, v ≠ w → t.watch v = s.watch v))
  ∧ (∀ (s : State) (w : Nat) (b : Bool), s.answers = true → watchSlot w b = true →
    ((s.watch w).state = 1 → ∃ t x, exec (.disarm w b) s = .next t ∧ (t.watch w).state = 0 ∧ (t.watch w).status = stEMPTY
      ∧ t.journal.waiting = (s.emit x).journal.waiting ∧ x.type = 0x0A00)
    ∧ ((s.watch w).state = 0 → ∃ t, exec (.disarm w b) s = .next t ∧ t.watch w = { s.watch w with status := stEMPTY } ∧ t.journal = s.journal)
    ∧ ((s.watch w).state = 2 → ∃ t, exec (.disarm w b) s = .next t ∧ t.watch w = { s.watch w with status := stSTATE }
      ∧ t.stl.stateRejects = s.stl.stateRejects + 1))
  ∧ ∀ (s : State) (w slot sats : Nat) (failed : Bool) (q : WatchReq) (k : Nat) (parts : List WatchPart), s.running = true → (s.watch w).state = 2 →
    q = (s.watch w).req → k = (if q.kind = 1 then (s.watch w).slot else slot) → parts = watchParts s q k →
    ((parts.any fun p => s.anyVoid p.addr q.slotBytes) = true →
      ∃ t x, exec (.watchCopyComplete w slot sats failed) s = .next t ∧ (t.watch w).state = 0 ∧ (t.watch w).status = stVOID
        ∧ t.journal.waiting = (s.emit x).journal.waiting ∧ x.type = 0x0A00 ∧ ∀ a, t.byte a = s.byte a)
    ∧ ((parts.any fun p => s.anyVoid p.addr q.slotBytes) = false →
      (∃ t x, exec (.watchCopyComplete w slot sats failed) s = .next t ∧ (t.watch w).state = 0 ∧ ((t.watch w).status = stOK ∨ (t.watch w).status = stBOUND)
        ∧ t.journal.waiting = (s.emit x).journal.waiting ∧ x.type = 0x0A00 ∧ (q.statsOnly = true → (t.watch w).status = stOK)
        ∧ (q.statsOnly = true ∨ (q.toDump = false ∧ failed = true) → ∀ a, t.byte a = s.byte a)
        ∧ (q.toDump = true → ∀ a, a < s.layout.trace + s.traceArea + q.addr ∨ s.layout.trace + s.traceArea + q.addr + q.size ≤ a → t.byte a = s.byte a)
        ∧ (q.toDump = false → ∀ a, a < hostBase + q.addr ∨ hostBase + q.addr + q.size ≤ a → t.byte a = s.byte a))
      ∧ ∀ bytes, bytes = (parts.flatMap fun p => p.rows s q.slotBytes).flatMap (·.1) → bytes.length ≤ q.size → q.statsOnly = false → q.toDump = true →
        ∃ t, exec (.watchCopyComplete w slot sats failed) s = .next t ∧ (t.watch w).status = stOK
          ∧ ∀ i, (h : i < bytes.length) → t.byte (s.layout.trace + s.traceArea + q.addr + i) = bytes[i])

/-- JTAG_INSTRUCTION and TEST_LOGIC_RESET (20 R595): BYPASS, IDCODE and SAMPLE/PRELOAD are always allowed, EXTEST, CLAMP and HIGHZ only while RESET_N is
low, a private instruction only in the manufacturing state or under permission bit 1, when it writes record 0x0A03; any other opcode selects BYPASS;
test-logic reset selects IDCODE. -/
def Obligations.JtagSelectsAllowedInstructions : Prop :=
  (∀ (s : State) (op : Nat), op < 256 →
    (op = 1 ∨ op = 2 → ∃ t, exec (.jtagInstruction op) s = .next t ∧ t.dbg = { s.dbg with jtag := op } ∧ t.journal = s.journal)
    ∧ (op = 0 ∨ op = 4 ∨ op = 5 → ∃ t, exec (.jtagInstruction op) s = .next t ∧ t.journal = s.journal
      ∧ t.dbg = { s.dbg with jtag := if s.pins.resetN = true then 0xFF else op })
    ∧ (0x80 ≤ op → op ≤ 0xFE → s.fuses.lifecycle ≠ 0 → s.permits 1 = false → ∃ t, exec (.jtagInstruction op) s = .next t ∧ t.dbg = { s.dbg with jtag := 0xFF }
      ∧ t.journal = s.journal)
    ∧ (0x80 ≤ op → op ≤ 0xFE → s.fuses.lifecycle = 0 ∨ s.permits 1 = true → s.answers = true → ∃ t x, exec (.jtagInstruction op) s = .next t
      ∧ t.dbg = { s.dbg with jtag := op } ∧ t.journal.waiting = s.journal.waiting ++ [x] ∧ x.type = 0x0A03)
    ∧ (op = 3 ∨ (6 ≤ op ∧ op < 0x80) ∨ op = 0xFF → ∃ t, exec (.jtagInstruction op) s = .next t ∧ t.dbg = { s.dbg with jtag := 0xFF }
      ∧ t.journal = s.journal))
  ∧ ∀ s : State, exec .testLogicReset s = .next { s with dbg := { s.dbg with jtag := 0x01 } }

/-! ## Clocks, power, temperature and pins (21) -/

/-- REFERENCE_CLOCK_LOSS and REFERENCE_CLOCK_RETURN (21 R607, R608): the loss of SYSCLK25 is chip-fatal; that of the PCIe reference takes the endpoint's
link down and that of the Ethernet reference takes both ports down, with a record 0x0800 for each port that was up; a reference that returns is used
again. OVER_LIMIT_TEMP, THERMAL_TRIP and GPIO_PULSE_END (21 R617, R618, R620): above the over-limit threshold record 0x060F is written and counted as
a class 1 error, once per minute; a trip drives THERMTRIP_N low and enters the safe state; a pulse of a GPIO ends at its time. -/
def Obligations.ReferencesLimitsAndTrips : Prop :=
  ((∀ s : State, s.answers = true → ∃ t, exec (.referenceClockLoss .sysclk25) s = .next t ∧ t.phase = .safe)
  ∧ (∀ s : State, s.answers = true → s.pci.up = true →
    ∃ t, exec (.referenceClockLoss .pcie) s = .next t ∧ t.pins.refLostPcie = true ∧ t.pci.up = false ∧ t.pci.downs = min 255 (s.pci.downs + 1)
      ∧ t.phase = s.phase)
  ∧ (∀ s : State, s.answers = true → (s.netPort 0).state = 2 → (s.netPort 1).state = 2 →
    ∃ t x y, exec (.referenceClockLoss .ethernet) s = .next t ∧ t.pins.refLostEth = true ∧ (t.netPort 0).state = 1 ∧ (t.netPort 1).state = 1
      ∧ (t.netPort 0).downs = (s.netPort 0).downs + 1 ∧ (t.netPort 1).downs = (s.netPort 1).downs + 1
      ∧ t.journal.waiting = s.journal.waiting ++ [x, y] ∧ x.type = 0x0800 ∧ y.type = 0x0800 ∧ x.inst = 0 ∧ y.inst = 1)
  ∧ (∀ s : State, s.answers = true →
    exec (.referenceClockReturn .pcie) s = .next { s with pins := { s.pins with refLostPcie := false } }
    ∧ exec (.referenceClockReturn .ethernet) s = .next { s with pins := { s.pins with refLostEth := false } }))
  ∧ ((∀ (s : State) (c : Int) (sensor : Nat), s.answers = true → overLimitFrom s < c →
    ((∀ h, s.power.overLimitAt = some h → h + 60 * second ≤ s.time.elapsed) →
      ∃ t x, exec (.overLimitTemp c sensor) s = .next t ∧ t.power.temp = c ∧ t.power.overLimitAt = some s.time.elapsed
        ∧ t.flt.corrected = s.flt.corrected + 1 ∧ t.journal.waiting = s.journal.waiting ++ [x] ∧ x.type = 0x060F)
    ∧ ∀ h, s.power.overLimitAt = some h → s.time.elapsed < h + 60 * second →
      ∃ t, exec (.overLimitTemp c sensor) s = .next t ∧ t.power.temp = c ∧ t.power.overLimitAt = some h ∧ t.journal = s.journal ∧ t.flt = s.flt)
  ∧ (∀ s : State, s.answers = true → ∃ t, exec .thermalTrip s = .next t ∧ t.pins.thermtripLow = true ∧ t.phase = .safe
    ∧ (s.phase ≠ .safe → t.pins.faultLow = true ∧ ∃ x, x ∈ t.journal.waiting ∧ x.type = 0x0609))
  ∧ ∀ (s : State) (g : Nat), s.answers = true → Table.get 0 g s.pins.gpioUntil ≠ 0 →
    ∃ t, exec (.gpioPulseEnd g) s = .next t ∧ Table.get 0 g t.pins.gpioUntil = 0
      ∧ t.time.elapsed = max s.time.elapsed (Table.get 0 g s.pins.gpioUntil))

/-- POWER_CAP_TICK (21 R613 to R615, R617, R621): above the cap or the throttle threshold the compute die of the higher ratio goes down by 1, ties to CD0,
and the media units last and only with no zone enabled; ten ticks well below both raise the lowest ratio by 1, media last; between, the count starts
anew; with a zone enabled the media ratio is 16. DROOP_DETECTED and DROOP_HOLD_END (21 R616): a droop of a compute die sets its ratio to 8 and
abandons its running tiles, but no zone tile; on MD it sets the media ratio to 8, or with a zone enabled leaves it and holds the encoders and the
other pre-processing; 1 ms later the ratio before it returns. -/
def Obligations.CapAndDroopsSetTheRatios : Prop :=
  (∀ (s : State) (mw : Nat) (c : Int) (sensor m : Nat), s.running = true → s.power.droop0 = none → s.power.droop1 = none → s.power.droopM = none →
    m = (if s.cfg.enabledZones = [] then s.power.media else 16) →
    (s.cfg.capMilliwatts < mw ∨ throttleAt s < c →
      ∃ t, exec (.powerCapTick mw c sensor) s = .next t ∧ t.power.below = 0
        ∧ (8 < s.power.cd0 → s.power.cd1 ≤ s.power.cd0 → t.power.cd0 = s.power.cd0 - 1 ∧ t.power.cd1 = s.power.cd1 ∧ t.power.media = m)
        ∧ (8 < s.power.cd1 → s.power.cd0 < s.power.cd1 → t.power.cd0 = s.power.cd0 ∧ t.power.cd1 = s.power.cd1 - 1 ∧ t.power.media = m)
        ∧ (s.power.cd0 ≤ 8 → s.power.cd1 ≤ 8 → t.power.cd0 = s.power.cd0 ∧ t.power.cd1 = s.power.cd1
          ∧ t.power.media = if s.cfg.enabledZones = [] ∧ 8 < m then m - 1 else m))
    ∧ (mw + 5000 < s.cfg.capMilliwatts → c ≤ throttleAt s - 3 → s.power.below + 1 < 10 →
      ∃ t, exec (.powerCapTick mw c sensor) s = .next t ∧ t.power.below = s.power.below + 1 ∧ t.power.cd0 = s.power.cd0 ∧ t.power.cd1 = s.power.cd1
        ∧ t.power.media = m)
    ∧ (mw + 5000 < s.cfg.capMilliwatts → c ≤ throttleAt s - 3 → 10 ≤ s.power.below + 1 →
      ∃ t, exec (.powerCapTick mw c sensor) s = .next t ∧ t.power.below = 0
        ∧ (s.power.cd0 < 16 → s.power.cd0 < s.power.cd1 → t.power.cd0 = s.power.cd0 + 1 ∧ t.power.cd1 = s.power.cd1 ∧ t.power.media = m)
        ∧ (s.power.cd1 < 16 → s.power.cd1 < s.power.cd0 → t.power.cd0 = s.power.cd0 ∧ t.power.cd1 = s.power.cd1 + 1 ∧ t.power.media = m)
        ∧ (s.power.cd0 < 16 → s.power.cd0 = s.power.cd1 → t.power.cd0 + t.power.cd1 = s.power.cd0 + s.power.cd1 + 1 ∧ s.power.cd0 ≤ t.power.cd0
          ∧ s.power.cd1 ≤ t.power.cd1 ∧ t.power.media = m)
        ∧ (16 ≤ s.power.cd0 → 16 ≤ s.power.cd1 → t.power.cd0 = s.power.cd0 ∧ t.power.cd1 = s.power.cd1 ∧ t.power.media = if m < 16 then m + 1 else m))
    ∧ (mw ≤ s.cfg.capMilliwatts → c ≤ throttleAt s → s.cfg.capMilliwatts ≤ mw + 5000 ∨ throttleAt s - 3 < c →
      ∃ t, exec (.powerCapTick mw c sensor) s = .next t ∧ t.power.below = 0 ∧ t.power.cd0 = s.power.cd0 ∧ t.power.cd1 = s.power.cd1 ∧ t.power.media = m))
  ∧ ((∀ s : State, s.answers = true →
    ∃ t, exec (.droopDetected .cd0) s = .next t ∧ t.power.cd0 = 8 ∧ t.power.cd1 = s.power.cd1 ∧ t.power.media = s.power.media
      ∧ t.power.droop0 = some (s.power.droop0.getD s.power.cd0) ∧ t.power.droopAt0 = s.time.elapsed
      ∧ ∀ p r, p < 36 → (s.engine p).running = some r → (t.engine p).running = if isZone r.issue = true then some r else none)
  ∧ (∀ s : State, s.answers = true →
    ∃ t, exec (.droopDetected .cd1) s = .next t ∧ t.power.cd1 = 8 ∧ t.power.cd0 = s.power.cd0 ∧ t.power.media = s.power.media
      ∧ t.power.droop1 = some (s.power.droop1.getD s.power.cd1) ∧ t.power.droopAt1 = s.time.elapsed
      ∧ ∀ p r, 36 ≤ p → p < 72 → (s.engine p).running = some r → (t.engine p).running = if isZone r.issue = true then some r else none)
  ∧ (∀ s : State, s.answers = true →
    (s.cfg.enabledZones = [] → exec (.droopDetected .md) s = .next (trackAll { s with power := { s.power with
      droopM := some (s.power.droopM.getD s.power.media), media := 8, droopAtM := s.time.elapsed, droopSeen := true } }))
    ∧ (s.cfg.enabledZones ≠ [] → exec (.droopDetected .md) s = .next { s with power := { s.power with
      mediaHold := true, droopAtM := s.time.elapsed, droopSeen := true } }))
  ∧ (∀ (s : State) (r : Nat), s.answers = true →
    (s.power.droop0 = some r → ∃ t, exec (.droopHoldEnd .cd0) s = .next t ∧ t.power.cd0 = r ∧ t.power.droop0 = none
      ∧ t.time.elapsed = max s.time.elapsed (s.power.droopAt0 + 1000000))
    ∧ (s.power.droop1 = some r → ∃ t, exec (.droopHoldEnd .cd1) s = .next t ∧ t.power.cd1 = r ∧ t.power.droop1 = none
      ∧ t.time.elapsed = max s.time.elapsed (s.power.droopAt1 + 1000000))
    ∧ (s.power.droopM = some r → ∃ t, exec (.droopHoldEnd .md) s = .next t ∧ t.power.media = r ∧ t.power.droopM = none ∧ t.power.mediaHold = false
      ∧ t.time.elapsed = max s.time.elapsed (s.power.droopAtM + 1000000))))

/-! ## Management port, Passbook and flash (01, 02, 21, 22) -/

/-- The SMBus commands and the alert response (21 R611, R612): the offset is set and advances by the bytes transferred; a write is a register write at
that offset; any other length, or a failed check code, is not acknowledged and changes nothing else; the alert response is the strap address while
SMB_ALERT_N is asserted; the timeout releases the bus. -/
def Obligations.TheManagementPortAnswers : Prop :=
  (∀ (s : State) (bs : List Byte) (pec : Bool), s.answers = true →
    (bs.length = 4 → pec = true → exec (.smbusSetOffset bs pec) s = .next { s with smbOffset := leNat bs, nak := false })
    ∧ (bs.length ≠ 4 ∨ pec = false → exec (.smbusSetOffset bs pec) s = .next { s with nak := true }))
  ∧ (∀ (s : State) (bs : List Byte) (pec : Bool), s.answers = true →
    (bs.length = 4 ∨ bs.length = 8 → pec = true →
      ∃ t u, exec (.smbusWrite bs pec) s = .next t ∧ exec (.registerWrite .smbus s.smbOffset bs.length (BitVec.ofNat 64 (leNat bs))) s = .next u
        ∧ t = { u with smbOffset := (s.smbOffset + bs.length) % 2 ^ 32, nak := false })
    ∧ ((bs.length ≠ 4 ∧ bs.length ≠ 8) ∨ pec = false → exec (.smbusWrite bs pec) s = .next { s with nak := true }))
  ∧ (∀ s : State, s.answers = true → s.smbOffset % 4 = 0 → latchSpan s.smbOffset = 0 → (∀ e ∈ s.latched, e.1 ≠ s.smbOffset) →
    exec (.smbusRead 4) s = .next { s with readback := leBytes 4 (s.liveWord s.smbOffset), poisoned := false
                                           smbOffset := (s.smbOffset + 4) % 2 ^ 32, nak := false })
  ∧ (∀ s : State, s.answers = true → ∃ t, exec (.smbusRead 4) s = .next t ∧ t.readback = (regRead s .smbus s.smbOffset 4).readback
    ∧ t.smbOffset = (s.smbOffset + 4) % 2 ^ 32 ∧ t.nak = false)
  ∧ (∀ (s : State) (n : Nat), s.answers = true → n ≠ 4 → exec (.smbusRead n) s = .next { s with nak := true })
  ∧ ∀ s : State, s.answers = true →
    exec .smbusTimeout s = .next { s with readback := [], nak := false }
    ∧ (s.pins.smbAlert = true → exec .smbusAlertResponse s = .next
      { s with readback := [BitVec.ofNat 8 (2 * (0x58 + s.pins.smbAddr))], nak := false })
    ∧ (s.pins.smbAlert = false → exec .smbusAlertResponse s = .next { s with readback := [], nak := true })

/-- FLASH_WRITE_COMPLETE of a directory (02 R50, R52): the copy of the lower sequence number, or the invalid one, is erased and programmed with the number
after the other's; the other copy and every byte outside the rewritten one stay, so that a valid copy is left. -/
def Obligations.DirectoryRewritesTouchOneCopy : Prop :=
  ∀ (s : State) (slot c n : Nat) (r : List FlashWrite), s.answers = true → s.flash.writes = .directory slot :: r →
    ((c = 0 ∧ ∃ b, readDirectory s 1 = some b ∧ n = b.sequence ∧ ∀ a, readDirectory s 0 = some a → a.sequence < b.sequence)
      ∨ (c = 1 ∧ ∃ a, readDirectory s 0 = some a ∧ n = a.sequence ∧ ∀ b, readDirectory s 1 = some b → b.sequence < a.sequence)) →
    ∃ t, exec .flashWriteComplete s = .next t ∧ t.flash.writes = r
      ∧ t.flashBytes (directoryAt c) 64 = directoryBytes s.flash.size {
          sequence := (n + 1) % 2 ^ 32, startA := s.boot.startA, sizeA := s.boot.sizeA, startB := s.boot.startB, sizeB := s.boot.sizeB
          sumStart := s.boot.sumStart, sumSize := s.boot.sumSize, preferred := slot }
      ∧ (∀ j, directoryAt c + 64 ≤ j → j < directoryAt c + blockSize → t.flashByte j = 0xFF)
      ∧ (∀ j, j < directoryAt c ∨ directoryAt c + blockSize ≤ j → t.flashByte j = s.flashByte j)
      ∧ readDirectory t (1 - c) = readDirectory s (1 - c)
end

