-- ==== Sys2Proof/Laws/Frame.lean ====
section
/-! SUPPORT. Frames: `s.erase m` is `s` with the parts of the mask `m` emptied, so that `t.erase m = s.erase m` says that only
the parts of `m` differ. Bit i of a mask is the i-th part of State. -/

set_option linter.all false

namespace Sys2Proof.Machine
open State

def State.erase (m : Nat) (s : State) : State :=
  { phase := if m.testBit 0 then .inReset else s.phase
    boot := if m.testBit 1 then {} else s.boot
    pins := if m.testBit 2 then {} else s.pins
    power := if m.testBit 3 then {} else s.power
    fuses := if m.testBit 4 then {} else s.fuses
    flash := if m.testBit 5 then {} else s.flash
    layout := if m.testBit 6 then {} else s.layout
    cfg := if m.testBit 7 then {} else s.cfg
    cfgOld := if m.testBit 8 then none else s.cfgOld
    stl := if m.testBit 9 then {} else s.stl
    time := if m.testBit 10 then {} else s.time
    journal := if m.testBit 11 then {} else s.journal
    streams := if m.testBit 12 then [] else s.streams
    decs := if m.testBit 13 then [] else s.decs
    accts := if m.testBit 14 then [] else s.accts
    rolling := if m.testBit 15 then [] else s.rolling
    preConvSat := if m.testBit 16 then 0 else s.preConvSat
    ingUnmatched := if m.testBit 17 then 0 else s.ingUnmatched
    engines := if m.testBit 18 then [] else s.engines
    halo := if m.testBit 19 then [] else s.halo
    haloBack := if m.testBit 20 then [] else s.haloBack
    regions := if m.testBit 21 then [] else s.regions
    switch := if m.testBit 22 then none else s.switch
    clrs := if m.testBit 23 then [] else s.clrs
    ledger := if m.testBit 24 then {} else s.ledger
    encs := if m.testBit 25 then [] else s.encs
    evidence := if m.testBit 26 then {} else s.evidence
    adapt := if m.testBit 27 then {} else s.adapt
    flt := if m.testBit 28 then {} else s.flt
    saf := if m.testBit 29 then {} else s.saf
    drams := if m.testBit 30 then [] else s.drams
    pci := if m.testBit 31 then {} else s.pci
    nets := if m.testBit 32 then [] else s.nets
    lnk := if m.testBit 33 then {} else s.lnk
    sec := if m.testBit 34 then {} else s.sec
    dbg := if m.testBit 35 then {} else s.dbg
    tills := if m.testBit 36 then [] else s.tills
    devTills := if m.testBit 37 then [] else s.devTills
    bridges := if m.testBit 38 then [] else s.bridges
    arbs := if m.testBit 39 then [] else s.arbs
    passbook := if m.testBit 40 then {} else s.passbook
    mem := if m.testBit 41 then [] else s.mem
    voids := if m.testBit 42 then [] else s.voids
    smbOffset := if m.testBit 43 then 0 else s.smbOffset
    latched := if m.testBit 44 then [] else s.latched
    readback := if m.testBit 45 then [] else s.readback
    poisoned := if m.testBit 46 then false else s.poisoned
    nak := if m.testBit 47 then false else s.nak
    free := if m.testBit 48 then 0 else s.free
    pending := if m.testBit 49 then [] else s.pending }

theorem sub_trans {a b m : Nat} (e : a &&& b = a) (h : b &&& m = b) : a &&& m = a := by
  rw [← e, Nat.and_assoc, h]
theorem sub_bit {a m : Nat} (h : a &&& m = a) (i : Nat) (e : a.testBit i = true) : m.testBit i = true := by
  rw [← h, Nat.testBit_and, Bool.and_eq_true] at e; exact e.2
theorem erase_ite {c : Prop} [Decidable c] {m : Nat} {a b s : State} (ha : a.erase m = s.erase m) (hb : b.erase m = s.erase m) :
    (if c then a else b).erase m = s.erase m := by
  split
  · exact ha
  · exact hb
theorem erase_foldl {α : Type} {m : Nat} {f : State → α → State} (h : ∀ t a, (f t a).erase m = t.erase m) (l : List α)
    (s : State) : (l.foldl f s).erase m = s.erase m := by
  induction l generalizing s with
  | nil => rfl
  | cons a l ih => exact (ih (f s a)).trans (h s a)
theorem erase_foldl1 {α β : Type} {m : Nat} {f : State × β → α → State × β} (h : ∀ t a, (f t a).1.erase m = t.1.erase m) (l : List α)
    (s : State × β) : (l.foldl f s).1.erase m = s.1.erase m := by
  induction l generalizing s with
  | nil => rfl
  | cons a l ih => exact (ih (f s a)).trans (h s a)
theorem put_accts (X : State) {v0 : _} {m : Nat} (h : 0x4000 &&& m = 0x4000) :
    ({ X with accts := v0 } : State).erase m = X.erase m := by
  simp only [State.erase, sub_bit h 14 (by decide), if_true]
theorem put_adapt (X : State) {v0 : _} {m : Nat} (h : 0x8000000 &&& m = 0x8000000) :
    ({ X with adapt := v0 } : State).erase m = X.erase m := by
  simp only [State.erase, sub_bit h 27 (by decide), if_true]
theorem put_arbs (X : State) {v0 : _} {m : Nat} (h : 0x8000000000 &&& m = 0x8000000000) :
    ({ X with arbs := v0 } : State).erase m = X.erase m := by
  simp only [State.erase, sub_bit h 39 (by decide), if_true]
theorem put_boot (X : State) {v0 : _} {m : Nat} (h : 0x2 &&& m = 0x2) :
    ({ X with boot := v0 } : State).erase m = X.erase m := by
  simp only [State.erase, sub_bit h 1 (by decide), if_true]
theorem put_boot_flash (X : State) {v0 : _} {v1 : _} {m : Nat} (h : 0x22 &&& m = 0x22) :
    ({ X with boot := v0, flash := v1 } : State).erase m = X.erase m := by
  simp only [State.erase, sub_bit h 1 (by decide), sub_bit h 5 (by decide), if_true]
theorem put_boot_flt_free (X : State) {v0 : _} {v1 : _} {v2 : _} {m : Nat} (h : 0x1000010000002 &&& m = 0x1000010000002) :
    ({ X with boot := v0, flt := v1, free := v2 } : State).erase m = X.erase m := by
  simp only [State.erase, sub_bit h 1 (by decide), sub_bit h 28 (by decide), sub_bit h 48 (by decide), if_true]
theorem put_boot_stl (X : State) {v0 : _} {v1 : _} {m : Nat} (h : 0x202 &&& m = 0x202) :
    ({ X with boot := v0, stl := v1 } : State).erase m = X.erase m := by
  simp only [State.erase, sub_bit h 1 (by decide), sub_bit h 9 (by decide), if_true]
theorem put_bridges (X : State) {v0 : _} {m : Nat} (h : 0x4000000000 &&& m = 0x4000000000) :
    ({ X with bridges := v0 } : State).erase m = X.erase m := by
  simp only [State.erase, sub_bit h 38 (by decide), if_true]
theorem put_clrs (X : State) {v0 : _} {m : Nat} (h : 0x800000 &&& m = 0x800000) :
    ({ X with clrs := v0 } : State).erase m = X.erase m := by
  simp only [State.erase, sub_bit h 23 (by decide), if_true]
theorem put_dbg (X : State) {v0 : _} {m : Nat} (h : 0x800000000 &&& m = 0x800000000) :
    ({ X with dbg := v0 } : State).erase m = X.erase m := by
  simp only [State.erase, sub_bit h 35 (by decide), if_true]
theorem put_decs (X : State) {v0 : _} {m : Nat} (h : 0x2000 &&& m = 0x2000) :
    ({ X with decs := v0 } : State).erase m = X.erase m := by
  simp only [State.erase, sub_bit h 13 (by decide), if_true]
theorem put_devTills (X : State) {v0 : _} {m : Nat} (h : 0x2000000000 &&& m = 0x2000000000) :
    ({ X with devTills := v0 } : State).erase m = X.erase m := by
  simp only [State.erase, sub_bit h 37 (by decide), if_true]
theorem put_drams (X : State) {v0 : _} {m : Nat} (h : 0x40000000 &&& m = 0x40000000) :
    ({ X with drams := v0 } : State).erase m = X.erase m := by
  simp only [State.erase, sub_bit h 30 (by decide), if_true]
theorem put_encs (X : State) {v0 : _} {m : Nat} (h : 0x2000000 &&& m = 0x2000000) :
    ({ X with encs := v0 } : State).erase m = X.erase m := by
  simp only [State.erase, sub_bit h 25 (by decide), if_true]
theorem put_engines (X : State) {v0 : _} {m : Nat} (h : 0x40000 &&& m = 0x40000) :
    ({ X with engines := v0 } : State).erase m = X.erase m := by
  simp only [State.erase, sub_bit h 18 (by decide), if_true]
theorem put_evidence (X : State) {v0 : _} {m : Nat} (h : 0x4000000 &&& m = 0x4000000) :
    ({ X with evidence := v0 } : State).erase m = X.erase m := by
  simp only [State.erase, sub_bit h 26 (by decide), if_true]
theorem put_evidence_dbg (X : State) {v0 : _} {v1 : _} {m : Nat} (h : 0x804000000 &&& m = 0x804000000) :
    ({ X with evidence := v0, dbg := v1 } : State).erase m = X.erase m := by
  simp only [State.erase, sub_bit h 26 (by decide), sub_bit h 35 (by decide), if_true]
theorem put_flash (X : State) {v0 : _} {m : Nat} (h : 0x20 &&& m = 0x20) :
    ({ X with flash := v0 } : State).erase m = X.erase m := by
  simp only [State.erase, sub_bit h 5 (by decide), if_true]
theorem put_flash_adapt (X : State) {v0 : _} {v1 : _} {m : Nat} (h : 0x8000020 &&& m = 0x8000020) :
    ({ X with flash := v0, adapt := v1 } : State).erase m = X.erase m := by
  simp only [State.erase, sub_bit h 5 (by decide), sub_bit h 27 (by decide), if_true]
theorem put_flash_cfgOld_stl (X : State) {v0 : _} {v1 : _} {v2 : _} {m : Nat} (h : 0x320 &&& m = 0x320) :
    ({ X with flash := v0, cfgOld := v1, stl := v2 } : State).erase m = X.erase m := by
  simp only [State.erase, sub_bit h 5 (by decide), sub_bit h 8 (by decide), sub_bit h 9 (by decide), if_true]
theorem put_flash_journal_sec (X : State) {v0 : _} {v1 : _} {v2 : _} {m : Nat} (h : 0x400000820 &&& m = 0x400000820) :
    ({ X with flash := v0, journal := v1, sec := v2 } : State).erase m = X.erase m := by
  simp only [State.erase, sub_bit h 5 (by decide), sub_bit h 11 (by decide), sub_bit h 34 (by decide), if_true]
theorem put_flash_sec (X : State) {v0 : _} {v1 : _} {m : Nat} (h : 0x400000020 &&& m = 0x400000020) :
    ({ X with flash := v0, sec := v1 } : State).erase m = X.erase m := by
  simp only [State.erase, sub_bit h 5 (by decide), sub_bit h 34 (by decide), if_true]
theorem put_flash_stl (X : State) {v0 : _} {v1 : _} {m : Nat} (h : 0x220 &&& m = 0x220) :
    ({ X with flash := v0, stl := v1 } : State).erase m = X.erase m := by
  simp only [State.erase, sub_bit h 5 (by decide), sub_bit h 9 (by decide), if_true]
theorem put_flash_stl_free (X : State) {v0 : _} {v1 : _} {v2 : _} {m : Nat} (h : 0x1000000000220 &&& m = 0x1000000000220) :
    ({ X with flash := v0, stl := v1, free := v2 } : State).erase m = X.erase m := by
  simp only [State.erase, sub_bit h 5 (by decide), sub_bit h 9 (by decide), sub_bit h 48 (by decide), if_true]
theorem put_flt (X : State) {v0 : _} {m : Nat} (h : 0x10000000 &&& m = 0x10000000) :
    ({ X with flt := v0 } : State).erase m = X.erase m := by
  simp only [State.erase, sub_bit h 28 (by decide), if_true]
theorem put_free (X : State) {v0 : _} {m : Nat} (h : 0x1000000000000 &&& m = 0x1000000000000) :
    ({ X with free := v0 } : State).erase m = X.erase m := by
  simp only [State.erase, sub_bit h 48 (by decide), if_true]
theorem put_fuses (X : State) {v0 : _} {m : Nat} (h : 0x10 &&& m = 0x10) :
    ({ X with fuses := v0 } : State).erase m = X.erase m := by
  simp only [State.erase, sub_bit h 4 (by decide), if_true]
theorem put_fuses_flash_sec (X : State) {v0 : _} {v1 : _} {v2 : _} {m : Nat} (h : 0x400000030 &&& m = 0x400000030) :
    ({ X with fuses := v0, flash := v1, sec := v2 } : State).erase m = X.erase m := by
  simp only [State.erase, sub_bit h 4 (by decide), sub_bit h 5 (by decide), sub_bit h 34 (by decide), if_true]
theorem put_fuses_free (X : State) {v0 : _} {v1 : _} {m : Nat} (h : 0x1000000000010 &&& m = 0x1000000000010) :
    ({ X with fuses := v0, free := v1 } : State).erase m = X.erase m := by
  simp only [State.erase, sub_bit h 4 (by decide), sub_bit h 48 (by decide), if_true]
theorem put_fuses_sec (X : State) {v0 : _} {v1 : _} {m : Nat} (h : 0x400000010 &&& m = 0x400000010) :
    ({ X with fuses := v0, sec := v1 } : State).erase m = X.erase m := by
  simp only [State.erase, sub_bit h 4 (by decide), sub_bit h 34 (by decide), if_true]
theorem put_halo (X : State) {v0 : _} {m : Nat} (h : 0x80000 &&& m = 0x80000) :
    ({ X with halo := v0 } : State).erase m = X.erase m := by
  simp only [State.erase, sub_bit h 19 (by decide), if_true]
theorem put_haloBack (X : State) {v0 : _} {m : Nat} (h : 0x100000 &&& m = 0x100000) :
    ({ X with haloBack := v0 } : State).erase m = X.erase m := by
  simp only [State.erase, sub_bit h 20 (by decide), if_true]
theorem put_ingUnmatched (X : State) {v0 : _} {m : Nat} (h : 0x20000 &&& m = 0x20000) :
    ({ X with ingUnmatched := v0 } : State).erase m = X.erase m := by
  simp only [State.erase, sub_bit h 17 (by decide), if_true]
theorem put_journal (X : State) {v0 : _} {m : Nat} (h : 0x800 &&& m = 0x800) :
    ({ X with journal := v0 } : State).erase m = X.erase m := by
  simp only [State.erase, sub_bit h 11 (by decide), if_true]
theorem put_journal_evidence_lnk (X : State) {v0 : _} {v1 : _} {v2 : _} {m : Nat} (h : 0x204000800 &&& m = 0x204000800) :
    ({ X with journal := v0, evidence := v1, lnk := v2 } : State).erase m = X.erase m := by
  simp only [State.erase, sub_bit h 11 (by decide), sub_bit h 26 (by decide), sub_bit h 33 (by decide), if_true]
theorem put_journal_free (X : State) {v0 : _} {v1 : _} {m : Nat} (h : 0x1000000000800 &&& m = 0x1000000000800) :
    ({ X with journal := v0, free := v1 } : State).erase m = X.erase m := by
  simp only [State.erase, sub_bit h 11 (by decide), sub_bit h 48 (by decide), if_true]
theorem put_journal_pci (X : State) {v0 : _} {v1 : _} {m : Nat} (h : 0x80000800 &&& m = 0x80000800) :
    ({ X with journal := v0, pci := v1 } : State).erase m = X.erase m := by
  simp only [State.erase, sub_bit h 11 (by decide), sub_bit h 31 (by decide), if_true]
theorem put_latched (X : State) {v0 : _} {m : Nat} (h : 0x100000000000 &&& m = 0x100000000000) :
    ({ X with latched := v0 } : State).erase m = X.erase m := by
  simp only [State.erase, sub_bit h 44 (by decide), if_true]
theorem put_layout_cfg_cfgOld_stl (X : State) {v0 : _} {v1 : _} {v2 : _} {v3 : _} {m : Nat} (h : 0x3c0 &&& m = 0x3c0) :
    ({ X with layout := v0, cfg := v1, cfgOld := v2, stl := v3 } : State).erase m = X.erase m := by
  simp only [State.erase, sub_bit h 6 (by decide), sub_bit h 7 (by decide), sub_bit h 8 (by decide), sub_bit h 9 (by decide), if_true]
theorem put_ledger (X : State) {v0 : _} {m : Nat} (h : 0x1000000 &&& m = 0x1000000) :
    ({ X with ledger := v0 } : State).erase m = X.erase m := by
  simp only [State.erase, sub_bit h 24 (by decide), if_true]
theorem put_ledger_lnk (X : State) {v0 : _} {v1 : _} {m : Nat} (h : 0x201000000 &&& m = 0x201000000) :
    ({ X with ledger := v0, lnk := v1 } : State).erase m = X.erase m := by
  simp only [State.erase, sub_bit h 24 (by decide), sub_bit h 33 (by decide), if_true]
theorem put_lnk (X : State) {v0 : _} {m : Nat} (h : 0x200000000 &&& m = 0x200000000) :
    ({ X with lnk := v0 } : State).erase m = X.erase m := by
  simp only [State.erase, sub_bit h 33 (by decide), if_true]
theorem put_mem (X : State) {v0 : _} {m : Nat} (h : 0x20000000000 &&& m = 0x20000000000) :
    ({ X with mem := v0 } : State).erase m = X.erase m := by
  simp only [State.erase, sub_bit h 41 (by decide), if_true]
theorem put_mem_voids (X : State) {v0 : _} {v1 : _} {m : Nat} (h : 0x60000000000 &&& m = 0x60000000000) :
    ({ X with mem := v0, voids := v1 } : State).erase m = X.erase m := by
  simp only [State.erase, sub_bit h 41 (by decide), sub_bit h 42 (by decide), if_true]
theorem put_nak (X : State) {v0 : _} {m : Nat} (h : 0x800000000000 &&& m = 0x800000000000) :
    ({ X with nak := v0 } : State).erase m = X.erase m := by
  simp only [State.erase, sub_bit h 47 (by decide), if_true]
theorem put_nets (X : State) {v0 : _} {m : Nat} (h : 0x100000000 &&& m = 0x100000000) :
    ({ X with nets := v0 } : State).erase m = X.erase m := by
  simp only [State.erase, sub_bit h 32 (by decide), if_true]
theorem put_passbook (X : State) {v0 : _} {m : Nat} (h : 0x10000000000 &&& m = 0x10000000000) :
    ({ X with passbook := v0 } : State).erase m = X.erase m := by
  simp only [State.erase, sub_bit h 40 (by decide), if_true]
theorem put_pci (X : State) {v0 : _} {m : Nat} (h : 0x80000000 &&& m = 0x80000000) :
    ({ X with pci := v0 } : State).erase m = X.erase m := by
  simp only [State.erase, sub_bit h 31 (by decide), if_true]
theorem put_phase_boot_journal_dbg_passbook (X : State) {v0 : _} {v1 : _} {v2 : _} {v3 : _} {v4 : _} {m : Nat} (h : 0x10800000803 &&& m = 0x10800000803) :
    ({ X with phase := v0, boot := v1, journal := v2, dbg := v3, passbook := v4 } : State).erase m = X.erase m := by
  simp only [State.erase, sub_bit h 0 (by decide), sub_bit h 1 (by decide), sub_bit h 11 (by decide), sub_bit h 35 (by decide), sub_bit h 40 (by decide), if_true]
theorem put_phase_boot_pins (X : State) {v0 : _} {v1 : _} {v2 : _} {m : Nat} (h : 0x7 &&& m = 0x7) :
    ({ X with phase := v0, boot := v1, pins := v2 } : State).erase m = X.erase m := by
  simp only [State.erase, sub_bit h 0 (by decide), sub_bit h 1 (by decide), sub_bit h 2 (by decide), if_true]
theorem put_phase_boot_pins_layout_cfg_adapt_saf (X : State) {v0 : _} {v1 : _} {v2 : _} {v3 : _} {v4 : _} {v5 : _} {v6 : _} {m : Nat} (h : 0x280000c7 &&& m = 0x280000c7) :
    ({ X with phase := v0, boot := v1, pins := v2, layout := v3, cfg := v4, adapt := v5, saf := v6 } : State).erase m = X.erase m := by
  simp only [State.erase, sub_bit h 0 (by decide), sub_bit h 1 (by decide), sub_bit h 2 (by decide), sub_bit h 6 (by decide), sub_bit h 7 (by decide), sub_bit h 27 (by decide), sub_bit h 29 (by decide), if_true]
theorem put_phase_pins_flash_flt (X : State) {v0 : _} {v1 : _} {v2 : _} {v3 : _} {m : Nat} (h : 0x10000025 &&& m = 0x10000025) :
    ({ X with phase := v0, pins := v1, flash := v2, flt := v3 } : State).erase m = X.erase m := by
  simp only [State.erase, sub_bit h 0 (by decide), sub_bit h 2 (by decide), sub_bit h 5 (by decide), sub_bit h 28 (by decide), if_true]
theorem put_pins (X : State) {v0 : _} {m : Nat} (h : 0x4 &&& m = 0x4) :
    ({ X with pins := v0 } : State).erase m = X.erase m := by
  simp only [State.erase, sub_bit h 2 (by decide), if_true]
theorem put_pins_dbg (X : State) {v0 : _} {v1 : _} {m : Nat} (h : 0x800000004 &&& m = 0x800000004) :
    ({ X with pins := v0, dbg := v1 } : State).erase m = X.erase m := by
  simp only [State.erase, sub_bit h 2 (by decide), sub_bit h 35 (by decide), if_true]
theorem put_pins_free (X : State) {v0 : _} {v1 : _} {m : Nat} (h : 0x1000000000004 &&& m = 0x1000000000004) :
    ({ X with pins := v0, free := v1 } : State).erase m = X.erase m := by
  simp only [State.erase, sub_bit h 2 (by decide), sub_bit h 48 (by decide), if_true]
theorem put_power (X : State) {v0 : _} {m : Nat} (h : 0x8 &&& m = 0x8) :
    ({ X with power := v0 } : State).erase m = X.erase m := by
  simp only [State.erase, sub_bit h 3 (by decide), if_true]
theorem put_power_flt (X : State) {v0 : _} {v1 : _} {m : Nat} (h : 0x10000008 &&& m = 0x10000008) :
    ({ X with power := v0, flt := v1 } : State).erase m = X.erase m := by
  simp only [State.erase, sub_bit h 3 (by decide), sub_bit h 28 (by decide), if_true]
theorem put_preConvSat (X : State) {v0 : _} {m : Nat} (h : 0x10000 &&& m = 0x10000) :
    ({ X with preConvSat := v0 } : State).erase m = X.erase m := by
  simp only [State.erase, sub_bit h 16 (by decide), if_true]
theorem put_preConvSat_adapt (X : State) {v0 : _} {v1 : _} {m : Nat} (h : 0x8010000 &&& m = 0x8010000) :
    ({ X with preConvSat := v0, adapt := v1 } : State).erase m = X.erase m := by
  simp only [State.erase, sub_bit h 16 (by decide), sub_bit h 27 (by decide), if_true]
theorem put_readback (X : State) {v0 : _} {m : Nat} (h : 0x200000000000 &&& m = 0x200000000000) :
    ({ X with readback := v0 } : State).erase m = X.erase m := by
  simp only [State.erase, sub_bit h 45 (by decide), if_true]
theorem put_readback_nak (X : State) {v0 : _} {v1 : _} {m : Nat} (h : 0xa00000000000 &&& m = 0xa00000000000) :
    ({ X with readback := v0, nak := v1 } : State).erase m = X.erase m := by
  simp only [State.erase, sub_bit h 45 (by decide), sub_bit h 47 (by decide), if_true]
theorem put_readback_poisoned (X : State) {v0 : _} {v1 : _} {m : Nat} (h : 0x600000000000 &&& m = 0x600000000000) :
    ({ X with readback := v0, poisoned := v1 } : State).erase m = X.erase m := by
  simp only [State.erase, sub_bit h 45 (by decide), sub_bit h 46 (by decide), if_true]
theorem put_readback_poisoned_free (X : State) {v0 : _} {v1 : _} {v2 : _} {m : Nat} (h : 0x1600000000000 &&& m = 0x1600000000000) :
    ({ X with readback := v0, poisoned := v1, free := v2 } : State).erase m = X.erase m := by
  simp only [State.erase, sub_bit h 45 (by decide), sub_bit h 46 (by decide), sub_bit h 48 (by decide), if_true]
theorem put_regions (X : State) {v0 : _} {m : Nat} (h : 0x200000 &&& m = 0x200000) :
    ({ X with regions := v0 } : State).erase m = X.erase m := by
  simp only [State.erase, sub_bit h 21 (by decide), if_true]
theorem put_rolling (X : State) {v0 : _} {m : Nat} (h : 0x8000 &&& m = 0x8000) :
    ({ X with rolling := v0 } : State).erase m = X.erase m := by
  simp only [State.erase, sub_bit h 15 (by decide), if_true]
theorem put_saf (X : State) {v0 : _} {m : Nat} (h : 0x20000000 &&& m = 0x20000000) :
    ({ X with saf := v0 } : State).erase m = X.erase m := by
  simp only [State.erase, sub_bit h 29 (by decide), if_true]
theorem put_sec (X : State) {v0 : _} {m : Nat} (h : 0x400000000 &&& m = 0x400000000) :
    ({ X with sec := v0 } : State).erase m = X.erase m := by
  simp only [State.erase, sub_bit h 34 (by decide), if_true]
theorem put_sec_free (X : State) {v0 : _} {v1 : _} {m : Nat} (h : 0x1000400000000 &&& m = 0x1000400000000) :
    ({ X with sec := v0, free := v1 } : State).erase m = X.erase m := by
  simp only [State.erase, sub_bit h 34 (by decide), sub_bit h 48 (by decide), if_true]
theorem put_smbOffset (X : State) {v0 : _} {m : Nat} (h : 0x80000000000 &&& m = 0x80000000000) :
    ({ X with smbOffset := v0 } : State).erase m = X.erase m := by
  simp only [State.erase, sub_bit h 43 (by decide), if_true]
theorem put_stl (X : State) {v0 : _} {m : Nat} (h : 0x200 &&& m = 0x200) :
    ({ X with stl := v0 } : State).erase m = X.erase m := by
  simp only [State.erase, sub_bit h 9 (by decide), if_true]
theorem put_stl_adapt (X : State) {v0 : _} {v1 : _} {m : Nat} (h : 0x8000200 &&& m = 0x8000200) :
    ({ X with stl := v0, adapt := v1 } : State).erase m = X.erase m := by
  simp only [State.erase, sub_bit h 9 (by decide), sub_bit h 27 (by decide), if_true]
theorem put_stl_flt (X : State) {v0 : _} {v1 : _} {m : Nat} (h : 0x10000200 &&& m = 0x10000200) :
    ({ X with stl := v0, flt := v1 } : State).erase m = X.erase m := by
  simp only [State.erase, sub_bit h 9 (by decide), sub_bit h 28 (by decide), if_true]
theorem put_stl_saf (X : State) {v0 : _} {v1 : _} {m : Nat} (h : 0x20000200 &&& m = 0x20000200) :
    ({ X with stl := v0, saf := v1 } : State).erase m = X.erase m := by
  simp only [State.erase, sub_bit h 9 (by decide), sub_bit h 29 (by decide), if_true]
theorem put_stl_switch (X : State) {v0 : _} {v1 : _} {m : Nat} (h : 0x400200 &&& m = 0x400200) :
    ({ X with stl := v0, switch := v1 } : State).erase m = X.erase m := by
  simp only [State.erase, sub_bit h 9 (by decide), sub_bit h 22 (by decide), if_true]
theorem put_streams (X : State) {v0 : _} {m : Nat} (h : 0x1000 &&& m = 0x1000) :
    ({ X with streams := v0 } : State).erase m = X.erase m := by
  simp only [State.erase, sub_bit h 12 (by decide), if_true]
theorem put_switch (X : State) {v0 : _} {m : Nat} (h : 0x400000 &&& m = 0x400000) :
    ({ X with switch := v0 } : State).erase m = X.erase m := by
  simp only [State.erase, sub_bit h 22 (by decide), if_true]
theorem put_tills (X : State) {v0 : _} {m : Nat} (h : 0x1000000000 &&& m = 0x1000000000) :
    ({ X with tills := v0 } : State).erase m = X.erase m := by
  simp only [State.erase, sub_bit h 36 (by decide), if_true]
theorem put_time (X : State) {v0 : _} {m : Nat} (h : 0x400 &&& m = 0x400) :
    ({ X with time := v0 } : State).erase m = X.erase m := by
  simp only [State.erase, sub_bit h 10 (by decide), if_true]
theorem put_time_free (X : State) {v0 : _} {v1 : _} {m : Nat} (h : 0x1000000000400 &&& m = 0x1000000000400) :
    ({ X with time := v0, free := v1 } : State).erase m = X.erase m := by
  simp only [State.erase, sub_bit h 10 (by decide), sub_bit h 48 (by decide), if_true]
theorem put_voids (X : State) {v0 : _} {m : Nat} (h : 0x40000000000 &&& m = 0x40000000000) :
    ({ X with voids := v0 } : State).erase m = X.erase m := by
  simp only [State.erase, sub_bit h 42 (by decide), if_true]

/-- The bit of a part in a mask. -/
def Part.num : Part → Nat
  | .phase => 0
  | .boot => 1
  | .pins => 2
  | .power => 3
  | .fuses => 4
  | .flash => 5
  | .layout => 6
  | .cfg => 7
  | .cfgOld => 8
  | .stl => 9
  | .time => 10
  | .journal => 11
  | .streams => 12
  | .decs => 13
  | .accts => 14
  | .rolling => 15
  | .preConvSat => 16
  | .ingUnmatched => 17
  | .engines => 18
  | .halo => 19
  | .haloBack => 20
  | .regions => 21
  | .switch => 22
  | .clrs => 23
  | .ledger => 24
  | .encs => 25
  | .evidence => 26
  | .adapt => 27
  | .flt => 28
  | .saf => 29
  | .drams => 30
  | .pci => 31
  | .nets => 32
  | .lnk => 33
  | .sec => 34
  | .dbg => 35
  | .tills => 36
  | .devTills => 37
  | .bridges => 38
  | .arbs => 39
  | .passbook => 40
  | .mem => 41
  | .voids => 42
  | .smbOffset => 43
  | .latched => 44
  | .readback => 45
  | .poisoned => 46
  | .nak => 47
  | .free => 48
  | .pending => 49

/-- The mask of a list of parts. -/
def maskOfParts (l : List Part) : Nat := l.foldr (fun p m => m ||| 2 ^ p.num) 0

theorem Part.num_inj : ∀ p q : Part, p.num = q.num → p = q := by
  intro p q h; cases p <;> cases q <;> first | rfl | exact absurd h (by decide)

theorem maskOfParts_not_mem (l : List Part) (p : Part) (h : p ∉ l) : (maskOfParts l).testBit p.num = false := by
  induction l with
  | nil => exact Nat.zero_testBit _
  | cons q l ih =>
    have hq : q.num ≠ p.num := fun e => h (Part.num_inj q p e ▸ List.mem_cons_self ..)
    show ((maskOfParts l) ||| 2 ^ q.num).testBit p.num = false
    rw [Nat.testBit_or, ih (fun m => h (List.mem_cons_of_mem _ m)), Nat.testBit_two_pow_of_ne hq]; rfl

theorem keeps_phase {m : Nat} {s t : State} (h : t.erase m = s.erase m) (hm : m.testBit 0 = false) : t.phase = s.phase := by
  have e := congrArg State.phase h
  simpa only [State.erase, hm, Bool.false_eq_true, if_false] using e
theorem keeps_boot {m : Nat} {s t : State} (h : t.erase m = s.erase m) (hm : m.testBit 1 = false) : t.boot = s.boot := by
  have e := congrArg State.boot h
  simpa only [State.erase, hm, Bool.false_eq_true, if_false] using e
theorem keeps_pins {m : Nat} {s t : State} (h : t.erase m = s.erase m) (hm : m.testBit 2 = false) : t.pins = s.pins := by
  have e := congrArg State.pins h
  simpa only [State.erase, hm, Bool.false_eq_true, if_false] using e
theorem keeps_power {m : Nat} {s t : State} (h : t.erase m = s.erase m) (hm : m.testBit 3 = false) : t.power = s.power := by
  have e := congrArg State.power h
  simpa only [State.erase, hm, Bool.false_eq_true, if_false] using e
theorem keeps_fuses {m : Nat} {s t : State} (h : t.erase m = s.erase m) (hm : m.testBit 4 = false) : t.fuses = s.fuses := by
  have e := congrArg State.fuses h
  simpa only [State.erase, hm, Bool.false_eq_true, if_false] using e
theorem keeps_flash {m : Nat} {s t : State} (h : t.erase m = s.erase m) (hm : m.testBit 5 = false) : t.flash = s.flash := by
  have e := congrArg State.flash h
  simpa only [State.erase, hm, Bool.false_eq_true, if_false] using e
theorem keeps_layout {m : Nat} {s t : State} (h : t.erase m = s.erase m) (hm : m.testBit 6 = false) : t.layout = s.layout := by
  have e := congrArg State.layout h
  simpa only [State.erase, hm, Bool.false_eq_true, if_false] using e
theorem keeps_cfg {m : Nat} {s t : State} (h : t.erase m = s.erase m) (hm : m.testBit 7 = false) : t.cfg = s.cfg := by
  have e := congrArg State.cfg h
  simpa only [State.erase, hm, Bool.false_eq_true, if_false] using e
theorem keeps_cfgOld {m : Nat} {s t : State} (h : t.erase m = s.erase m) (hm : m.testBit 8 = false) : t.cfgOld = s.cfgOld := by
  have e := congrArg State.cfgOld h
  simpa only [State.erase, hm, Bool.false_eq_true, if_false] using e
theorem keeps_stl {m : Nat} {s t : State} (h : t.erase m = s.erase m) (hm : m.testBit 9 = false) : t.stl = s.stl := by
  have e := congrArg State.stl h
  simpa only [State.erase, hm, Bool.false_eq_true, if_false] using e
theorem keeps_time {m : Nat} {s t : State} (h : t.erase m = s.erase m) (hm : m.testBit 10 = false) : t.time = s.time := by
  have e := congrArg State.time h
  simpa only [State.erase, hm, Bool.false_eq_true, if_false] using e
theorem keeps_journal {m : Nat} {s t : State} (h : t.erase m = s.erase m) (hm : m.testBit 11 = false) : t.journal = s.journal := by
  have e := congrArg State.journal h
  simpa only [State.erase, hm, Bool.false_eq_true, if_false] using e
theorem keeps_streams {m : Nat} {s t : State} (h : t.erase m = s.erase m) (hm : m.testBit 12 = false) : t.streams = s.streams := by
  have e := congrArg State.streams h
  simpa only [State.erase, hm, Bool.false_eq_true, if_false] using e
theorem keeps_decs {m : Nat} {s t : State} (h : t.erase m = s.erase m) (hm : m.testBit 13 = false) : t.decs = s.decs := by
  have e := congrArg State.decs h
  simpa only [State.erase, hm, Bool.false_eq_true, if_false] using e
theorem keeps_accts {m : Nat} {s t : State} (h : t.erase m = s.erase m) (hm : m.testBit 14 = false) : t.accts = s.accts := by
  have e := congrArg State.accts h
  simpa only [State.erase, hm, Bool.false_eq_true, if_false] using e
theorem keeps_rolling {m : Nat} {s t : State} (h : t.erase m = s.erase m) (hm : m.testBit 15 = false) : t.rolling = s.rolling := by
  have e := congrArg State.rolling h
  simpa only [State.erase, hm, Bool.false_eq_true, if_false] using e
theorem keeps_preConvSat {m : Nat} {s t : State} (h : t.erase m = s.erase m) (hm : m.testBit 16 = false) : t.preConvSat = s.preConvSat := by
  have e := congrArg State.preConvSat h
  simpa only [State.erase, hm, Bool.false_eq_true, if_false] using e
theorem keeps_ingUnmatched {m : Nat} {s t : State} (h : t.erase m = s.erase m) (hm : m.testBit 17 = false) : t.ingUnmatched = s.ingUnmatched := by
  have e := congrArg State.ingUnmatched h
  simpa only [State.erase, hm, Bool.false_eq_true, if_false] using e
theorem keeps_engines {m : Nat} {s t : State} (h : t.erase m = s.erase m) (hm : m.testBit 18 = false) : t.engines = s.engines := by
  have e := congrArg State.engines h
  simpa only [State.erase, hm, Bool.false_eq_true, if_false] using e
theorem keeps_halo {m : Nat} {s t : State} (h : t.erase m = s.erase m) (hm : m.testBit 19 = false) : t.halo = s.halo := by
  have e := congrArg State.halo h
  simpa only [State.erase, hm, Bool.false_eq_true, if_false] using e
theorem keeps_haloBack {m : Nat} {s t : State} (h : t.erase m = s.erase m) (hm : m.testBit 20 = false) : t.haloBack = s.haloBack := by
  have e := congrArg State.haloBack h
  simpa only [State.erase, hm, Bool.false_eq_true, if_false] using e
theorem keeps_regions {m : Nat} {s t : State} (h : t.erase m = s.erase m) (hm : m.testBit 21 = false) : t.regions = s.regions := by
  have e := congrArg State.regions h
  simpa only [State.erase, hm, Bool.false_eq_true, if_false] using e
theorem keeps_switch {m : Nat} {s t : State} (h : t.erase m = s.erase m) (hm : m.testBit 22 = false) : t.switch = s.switch := by
  have e := congrArg State.switch h
  simpa only [State.erase, hm, Bool.false_eq_true, if_false] using e
theorem keeps_clrs {m : Nat} {s t : State} (h : t.erase m = s.erase m) (hm : m.testBit 23 = false) : t.clrs = s.clrs := by
  have e := congrArg State.clrs h
  simpa only [State.erase, hm, Bool.false_eq_true, if_false] using e
theorem keeps_ledger {m : Nat} {s t : State} (h : t.erase m = s.erase m) (hm : m.testBit 24 = false) : t.ledger = s.ledger := by
  have e := congrArg State.ledger h
  simpa only [State.erase, hm, Bool.false_eq_true, if_false] using e
theorem keeps_encs {m : Nat} {s t : State} (h : t.erase m = s.erase m) (hm : m.testBit 25 = false) : t.encs = s.encs := by
  have e := congrArg State.encs h
  simpa only [State.erase, hm, Bool.false_eq_true, if_false] using e
theorem keeps_evidence {m : Nat} {s t : State} (h : t.erase m = s.erase m) (hm : m.testBit 26 = false) : t.evidence = s.evidence := by
  have e := congrArg State.evidence h
  simpa only [State.erase, hm, Bool.false_eq_true, if_false] using e
theorem keeps_adapt {m : Nat} {s t : State} (h : t.erase m = s.erase m) (hm : m.testBit 27 = false) : t.adapt = s.adapt := by
  have e := congrArg State.adapt h
  simpa only [State.erase, hm, Bool.false_eq_true, if_false] using e
theorem keeps_flt {m : Nat} {s t : State} (h : t.erase m = s.erase m) (hm : m.testBit 28 = false) : t.flt = s.flt := by
  have e := congrArg State.flt h
  simpa only [State.erase, hm, Bool.false_eq_true, if_false] using e
theorem keeps_saf {m : Nat} {s t : State} (h : t.erase m = s.erase m) (hm : m.testBit 29 = false) : t.saf = s.saf := by
  have e := congrArg State.saf h
  simpa only [State.erase, hm, Bool.false_eq_true, if_false] using e
theorem keeps_drams {m : Nat} {s t : State} (h : t.erase m = s.erase m) (hm : m.testBit 30 = false) : t.drams = s.drams := by
  have e := congrArg State.drams h
  simpa only [State.erase, hm, Bool.false_eq_true, if_false] using e
theorem keeps_pci {m : Nat} {s t : State} (h : t.erase m = s.erase m) (hm : m.testBit 31 = false) : t.pci = s.pci := by
  have e := congrArg State.pci h
  simpa only [State.erase, hm, Bool.false_eq_true, if_false] using e
theorem keeps_nets {m : Nat} {s t : State} (h : t.erase m = s.erase m) (hm : m.testBit 32 = false) : t.nets = s.nets := by
  have e := congrArg State.nets h
  simpa only [State.erase, hm, Bool.false_eq_true, if_false] using e
theorem keeps_lnk {m : Nat} {s t : State} (h : t.erase m = s.erase m) (hm : m.testBit 33 = false) : t.lnk = s.lnk := by
  have e := congrArg State.lnk h
  simpa only [State.erase, hm, Bool.false_eq_true, if_false] using e
theorem keeps_sec {m : Nat} {s t : State} (h : t.erase m = s.erase m) (hm : m.testBit 34 = false) : t.sec = s.sec := by
  have e := congrArg State.sec h
  simpa only [State.erase, hm, Bool.false_eq_true, if_false] using e
theorem keeps_dbg {m : Nat} {s t : State} (h : t.erase m = s.erase m) (hm : m.testBit 35 = false) : t.dbg = s.dbg := by
  have e := congrArg State.dbg h
  simpa only [State.erase, hm, Bool.false_eq_true, if_false] using e
theorem keeps_tills {m : Nat} {s t : State} (h : t.erase m = s.erase m) (hm : m.testBit 36 = false) : t.tills = s.tills := by
  have e := congrArg State.tills h
  simpa only [State.erase, hm, Bool.false_eq_true, if_false] using e
theorem keeps_devTills {m : Nat} {s t : State} (h : t.erase m = s.erase m) (hm : m.testBit 37 = false) : t.devTills = s.devTills := by
  have e := congrArg State.devTills h
  simpa only [State.erase, hm, Bool.false_eq_true, if_false] using e
theorem keeps_bridges {m : Nat} {s t : State} (h : t.erase m = s.erase m) (hm : m.testBit 38 = false) : t.bridges = s.bridges := by
  have e := congrArg State.bridges h
  simpa only [State.erase, hm, Bool.false_eq_true, if_false] using e
theorem keeps_arbs {m : Nat} {s t : State} (h : t.erase m = s.erase m) (hm : m.testBit 39 = false) : t.arbs = s.arbs := by
  have e := congrArg State.arbs h
  simpa only [State.erase, hm, Bool.false_eq_true, if_false] using e
theorem keeps_passbook {m : Nat} {s t : State} (h : t.erase m = s.erase m) (hm : m.testBit 40 = false) : t.passbook = s.passbook := by
  have e := congrArg State.passbook h
  simpa only [State.erase, hm, Bool.false_eq_true, if_false] using e
theorem keeps_mem {m : Nat} {s t : State} (h : t.erase m = s.erase m) (hm : m.testBit 41 = false) : t.mem = s.mem := by
  have e := congrArg State.mem h
  simpa only [State.erase, hm, Bool.false_eq_true, if_false] using e
theorem keeps_voids {m : Nat} {s t : State} (h : t.erase m = s.erase m) (hm : m.testBit 42 = false) : t.voids = s.voids := by
  have e := congrArg State.voids h
  simpa only [State.erase, hm, Bool.false_eq_true, if_false] using e
theorem keeps_smbOffset {m : Nat} {s t : State} (h : t.erase m = s.erase m) (hm : m.testBit 43 = false) : t.smbOffset = s.smbOffset := by
  have e := congrArg State.smbOffset h
  simpa only [State.erase, hm, Bool.false_eq_true, if_false] using e
theorem keeps_latched {m : Nat} {s t : State} (h : t.erase m = s.erase m) (hm : m.testBit 44 = false) : t.latched = s.latched := by
  have e := congrArg State.latched h
  simpa only [State.erase, hm, Bool.false_eq_true, if_false] using e
theorem keeps_readback {m : Nat} {s t : State} (h : t.erase m = s.erase m) (hm : m.testBit 45 = false) : t.readback = s.readback := by
  have e := congrArg State.readback h
  simpa only [State.erase, hm, Bool.false_eq_true, if_false] using e
theorem keeps_poisoned {m : Nat} {s t : State} (h : t.erase m = s.erase m) (hm : m.testBit 46 = false) : t.poisoned = s.poisoned := by
  have e := congrArg State.poisoned h
  simpa only [State.erase, hm, Bool.false_eq_true, if_false] using e
theorem keeps_nak {m : Nat} {s t : State} (h : t.erase m = s.erase m) (hm : m.testBit 47 = false) : t.nak = s.nak := by
  have e := congrArg State.nak h
  simpa only [State.erase, hm, Bool.false_eq_true, if_false] using e
theorem keeps_free {m : Nat} {s t : State} (h : t.erase m = s.erase m) (hm : m.testBit 48 = false) : t.free = s.free := by
  have e := congrArg State.free h
  simpa only [State.erase, hm, Bool.false_eq_true, if_false] using e
theorem keeps_pending {m : Nat} {s t : State} (h : t.erase m = s.erase m) (hm : m.testBit 49 = false) : t.pending = s.pending := by
  have e := congrArg State.pending h
  simpa only [State.erase, hm, Bool.false_eq_true, if_false] using e

/-- A part outside the mask is the same in both states. -/
theorem same_of_erase {m : Nat} {s t : State} (h : t.erase m = s.erase m) (p : Part) (hp : m.testBit p.num = false) : p.same s t := by
  cases p
  · exact keeps_phase h hp
  · exact keeps_boot h hp
  · exact keeps_pins h hp
  · exact keeps_power h hp
  · exact keeps_fuses h hp
  · exact keeps_flash h hp
  · exact keeps_layout h hp
  · exact keeps_cfg h hp
  · exact keeps_cfgOld h hp
  · exact keeps_stl h hp
  · exact keeps_time h hp
  · exact keeps_journal h hp
  · exact keeps_streams h hp
  · exact keeps_decs h hp
  · exact keeps_accts h hp
  · exact keeps_rolling h hp
  · exact keeps_preConvSat h hp
  · exact keeps_ingUnmatched h hp
  · exact keeps_engines h hp
  · exact keeps_halo h hp
  · exact keeps_haloBack h hp
  · exact keeps_regions h hp
  · exact keeps_switch h hp
  · exact keeps_clrs h hp
  · exact keeps_ledger h hp
  · exact keeps_encs h hp
  · exact keeps_evidence h hp
  · exact keeps_adapt h hp
  · exact keeps_flt h hp
  · exact keeps_saf h hp
  · exact keeps_drams h hp
  · exact keeps_pci h hp
  · exact keeps_nets h hp
  · exact keeps_lnk h hp
  · exact keeps_sec h hp
  · exact keeps_dbg h hp
  · exact keeps_tills h hp
  · exact keeps_devTills h hp
  · exact keeps_bridges h hp
  · exact keeps_arbs h hp
  · exact keeps_passbook h hp
  · exact keeps_mem h hp
  · exact keeps_voids h hp
  · exact keeps_smbOffset h hp
  · exact keeps_latched h hp
  · exact keeps_readback h hp
  · exact keeps_poisoned h hp
  · exact keeps_nak h hp
  · exact keeps_free h hp
  · exact keeps_pending h hp

end Sys2Proof.Machine
end

