-- ==== Sys2Proof/Laws/Frames1.lean ====
section
/-! SUPPORT. What each operation may write, as masks of parts (see Laws/Frame.lean): part 1, in the order of the model. -/

set_option linter.all false

namespace Sys2Proof.Machine
open State

theorem State.voidRange_erase (s : State) (a : ℕ) (n : ℕ) {mk : Nat} (hk : 0x40000000000 &&& mk = 0x40000000000) : ((State.voidRange s a n)).erase mk = s.erase mk := by
  unfold State.voidRange
  repeat' (first | with_reducible rfl | with_reducible refine erase_ite ?_ ?_ | simp (disch := exact sub_trans rfl hk) only [↓put_voids, apply_ite (State.erase mk), ite_self] | (refine (erase_foldl (fun t a => ?_) _ _).trans ?_) | (refine (erase_foldl1 (fun t a => ?_) _ _).trans ?_) | split)

theorem State.store_erase (s : State) (a : ℕ) (bs : List Byte) (mark : Bool) {mk : Nat} (hk : 0x60000000000 &&& mk = 0x60000000000) : ((State.store s a bs mark)).erase mk = s.erase mk := by
  unfold State.store
  repeat' (first | with_reducible rfl | with_reducible refine erase_ite ?_ ?_ | simp (disch := exact sub_trans rfl hk) only [↓put_mem_voids, apply_ite (State.erase mk), ite_self] | (refine (erase_foldl (fun t a => ?_) _ _).trans ?_) | (refine (erase_foldl1 (fun t a => ?_) _ _).trans ?_) | split)

theorem State.setStream_erase (s : State) (n : ℕ) (x : StreamSt) {mk : Nat} (hk : 0x1000 &&& mk = 0x1000) : ((State.setStream s n x)).erase mk = s.erase mk := by
  unfold State.setStream
  repeat' (first | with_reducible rfl | with_reducible refine erase_ite ?_ ?_ | simp (disch := exact sub_trans rfl hk) only [↓put_streams, apply_ite (State.erase mk), ite_self] | (refine (erase_foldl (fun t a => ?_) _ _).trans ?_) | (refine (erase_foldl1 (fun t a => ?_) _ _).trans ?_) | split)

theorem State.modStream_erase (s : State) (n : ℕ) (f : StreamSt → StreamSt) {mk : Nat} (hk : 0x1000 &&& mk = 0x1000) : ((State.modStream s n f)).erase mk = s.erase mk := by
  unfold State.modStream
  repeat' (first | with_reducible rfl | with_reducible refine erase_ite ?_ ?_ | simp (disch := exact sub_trans rfl hk) only [↓State.setStream_erase, apply_ite (State.erase mk), ite_self] | (refine (erase_foldl (fun t a => ?_) _ _).trans ?_) | (refine (erase_foldl1 (fun t a => ?_) _ _).trans ?_) | split)

theorem State.setEngine_erase (s : State) (p : ℕ) (x : Engine) {mk : Nat} (hk : 0x40000 &&& mk = 0x40000) : ((State.setEngine s p x)).erase mk = s.erase mk := by
  unfold State.setEngine
  repeat' (first | with_reducible rfl | with_reducible refine erase_ite ?_ ?_ | simp (disch := exact sub_trans rfl hk) only [↓put_engines, apply_ite (State.erase mk), ite_self] | (refine (erase_foldl (fun t a => ?_) _ _).trans ?_) | (refine (erase_foldl1 (fun t a => ?_) _ _).trans ?_) | split)

theorem State.modEngine_erase (s : State) (p : ℕ) (f : Engine → Engine) {mk : Nat} (hk : 0x40000 &&& mk = 0x40000) : ((State.modEngine s p f)).erase mk = s.erase mk := by
  unfold State.modEngine
  repeat' (first | with_reducible rfl | with_reducible refine erase_ite ?_ ?_ | simp (disch := exact sub_trans rfl hk) only [↓State.setEngine_erase, apply_ite (State.erase mk), ite_self] | (refine (erase_foldl (fun t a => ?_) _ _).trans ?_) | (refine (erase_foldl1 (fun t a => ?_) _ _).trans ?_) | split)

theorem State.setRegion_erase (s : State) (g : ℕ) (x : Region) {mk : Nat} (hk : 0x200000 &&& mk = 0x200000) : ((State.setRegion s g x)).erase mk = s.erase mk := by
  unfold State.setRegion
  repeat' (first | with_reducible rfl | with_reducible refine erase_ite ?_ ?_ | simp (disch := exact sub_trans rfl hk) only [↓put_regions, apply_ite (State.erase mk), ite_self] | (refine (erase_foldl (fun t a => ?_) _ _).trans ?_) | (refine (erase_foldl1 (fun t a => ?_) _ _).trans ?_) | split)

theorem State.modRegion_erase (s : State) (g : ℕ) (f : Region → Region) {mk : Nat} (hk : 0x200000 &&& mk = 0x200000) : ((State.modRegion s g f)).erase mk = s.erase mk := by
  unfold State.modRegion
  repeat' (first | with_reducible rfl | with_reducible refine erase_ite ?_ ?_ | simp (disch := exact sub_trans rfl hk) only [↓State.setRegion_erase, apply_ite (State.erase mk), ite_self] | (refine (erase_foldl (fun t a => ?_) _ _).trans ?_) | (refine (erase_foldl1 (fun t a => ?_) _ _).trans ?_) | split)

theorem State.setDec_erase (s : State) (d : ℕ) (x : DecEngine) {mk : Nat} (hk : 0x2000 &&& mk = 0x2000) : ((State.setDec s d x)).erase mk = s.erase mk := by
  unfold State.setDec
  repeat' (first | with_reducible rfl | with_reducible refine erase_ite ?_ ?_ | simp (disch := exact sub_trans rfl hk) only [↓put_decs, apply_ite (State.erase mk), ite_self] | (refine (erase_foldl (fun t a => ?_) _ _).trans ?_) | (refine (erase_foldl1 (fun t a => ?_) _ _).trans ?_) | split)

theorem State.modDec_erase (s : State) (d : ℕ) (f : DecEngine → DecEngine) {mk : Nat} (hk : 0x2000 &&& mk = 0x2000) : ((State.modDec s d f)).erase mk = s.erase mk := by
  unfold State.modDec
  repeat' (first | with_reducible rfl | with_reducible refine erase_ite ?_ ?_ | simp (disch := exact sub_trans rfl hk) only [↓State.setDec_erase, apply_ite (State.erase mk), ite_self] | (refine (erase_foldl (fun t a => ?_) _ _).trans ?_) | (refine (erase_foldl1 (fun t a => ?_) _ _).trans ?_) | split)

theorem State.setClr_erase (s : State) (r : ℕ) (x : Clearing) {mk : Nat} (hk : 0x800000 &&& mk = 0x800000) : ((State.setClr s r x)).erase mk = s.erase mk := by
  unfold State.setClr
  repeat' (first | with_reducible rfl | with_reducible refine erase_ite ?_ ?_ | simp (disch := exact sub_trans rfl hk) only [↓put_clrs, apply_ite (State.erase mk), ite_self] | (refine (erase_foldl (fun t a => ?_) _ _).trans ?_) | (refine (erase_foldl1 (fun t a => ?_) _ _).trans ?_) | split)

theorem State.modClr_erase (s : State) (r : ℕ) (f : Clearing → Clearing) {mk : Nat} (hk : 0x800000 &&& mk = 0x800000) : ((State.modClr s r f)).erase mk = s.erase mk := by
  unfold State.modClr
  repeat' (first | with_reducible rfl | with_reducible refine erase_ite ?_ ?_ | simp (disch := exact sub_trans rfl hk) only [↓State.setClr_erase, apply_ite (State.erase mk), ite_self] | (refine (erase_foldl (fun t a => ?_) _ _).trans ?_) | (refine (erase_foldl1 (fun t a => ?_) _ _).trans ?_) | split)

theorem State.setEncoder_erase (s : State) (n : ℕ) (x : Encoder) {mk : Nat} (hk : 0x2000000 &&& mk = 0x2000000) : ((State.setEncoder s n x)).erase mk = s.erase mk := by
  unfold State.setEncoder
  repeat' (first | with_reducible rfl | with_reducible refine erase_ite ?_ ?_ | simp (disch := exact sub_trans rfl hk) only [↓put_encs, apply_ite (State.erase mk), ite_self] | (refine (erase_foldl (fun t a => ?_) _ _).trans ?_) | (refine (erase_foldl1 (fun t a => ?_) _ _).trans ?_) | split)

theorem State.modEncoder_erase (s : State) (n : ℕ) (f : Encoder → Encoder) {mk : Nat} (hk : 0x2000000 &&& mk = 0x2000000) : ((State.modEncoder s n f)).erase mk = s.erase mk := by
  unfold State.modEncoder
  repeat' (first | with_reducible rfl | with_reducible refine erase_ite ?_ ?_ | simp (disch := exact sub_trans rfl hk) only [↓State.setEncoder_erase, apply_ite (State.erase mk), ite_self] | (refine (erase_foldl (fun t a => ?_) _ _).trans ?_) | (refine (erase_foldl1 (fun t a => ?_) _ _).trans ?_) | split)

theorem State.setAcct_erase (s : State) (a : ℕ) (x : PreAcct) {mk : Nat} (hk : 0x4000 &&& mk = 0x4000) : ((State.setAcct s a x)).erase mk = s.erase mk := by
  unfold State.setAcct
  repeat' (first | with_reducible rfl | with_reducible refine erase_ite ?_ ?_ | simp (disch := exact sub_trans rfl hk) only [↓put_accts, apply_ite (State.erase mk), ite_self] | (refine (erase_foldl (fun t a => ?_) _ _).trans ?_) | (refine (erase_foldl1 (fun t a => ?_) _ _).trans ?_) | split)

theorem State.modAcct_erase (s : State) (a : ℕ) (f : PreAcct → PreAcct) {mk : Nat} (hk : 0x4000 &&& mk = 0x4000) : ((State.modAcct s a f)).erase mk = s.erase mk := by
  unfold State.modAcct
  repeat' (first | with_reducible rfl | with_reducible refine erase_ite ?_ ?_ | simp (disch := exact sub_trans rfl hk) only [↓State.setAcct_erase, apply_ite (State.erase mk), ite_self] | (refine (erase_foldl (fun t a => ?_) _ _).trans ?_) | (refine (erase_foldl1 (fun t a => ?_) _ _).trans ?_) | split)

theorem State.setTill_erase (s : State) (a : ℕ) (x : Till) {mk : Nat} (hk : 0x1000000000 &&& mk = 0x1000000000) : ((State.setTill s a x)).erase mk = s.erase mk := by
  unfold State.setTill
  repeat' (first | with_reducible rfl | with_reducible refine erase_ite ?_ ?_ | simp (disch := exact sub_trans rfl hk) only [↓put_tills, apply_ite (State.erase mk), ite_self] | (refine (erase_foldl (fun t a => ?_) _ _).trans ?_) | (refine (erase_foldl1 (fun t a => ?_) _ _).trans ?_) | split)

theorem State.modTill_erase (s : State) (a : ℕ) (f : Till → Till) {mk : Nat} (hk : 0x1000000000 &&& mk = 0x1000000000) : ((State.modTill s a f)).erase mk = s.erase mk := by
  unfold State.modTill
  repeat' (first | with_reducible rfl | with_reducible refine erase_ite ?_ ?_ | simp (disch := exact sub_trans rfl hk) only [↓State.setTill_erase, apply_ite (State.erase mk), ite_self] | (refine (erase_foldl (fun t a => ?_) _ _).trans ?_) | (refine (erase_foldl1 (fun t a => ?_) _ _).trans ?_) | split)

theorem State.modDevTill_erase (s : State) (i : ℕ) (f : Till → Till) {mk : Nat} (hk : 0x2000000000 &&& mk = 0x2000000000) : ((State.modDevTill s i f)).erase mk = s.erase mk := by
  unfold State.modDevTill
  repeat' (first | with_reducible rfl | with_reducible refine erase_ite ?_ ?_ | simp (disch := exact sub_trans rfl hk) only [↓put_devTills, apply_ite (State.erase mk), ite_self] | (refine (erase_foldl (fun t a => ?_) _ _).trans ?_) | (refine (erase_foldl1 (fun t a => ?_) _ _).trans ?_) | split)

theorem State.setDram_erase (s : State) (n : ℕ) (x : Dram) {mk : Nat} (hk : 0x40000000 &&& mk = 0x40000000) : ((State.setDram s n x)).erase mk = s.erase mk := by
  unfold State.setDram
  repeat' (first | with_reducible rfl | with_reducible refine erase_ite ?_ ?_ | simp (disch := exact sub_trans rfl hk) only [↓put_drams, apply_ite (State.erase mk), ite_self] | (refine (erase_foldl (fun t a => ?_) _ _).trans ?_) | (refine (erase_foldl1 (fun t a => ?_) _ _).trans ?_) | split)

theorem State.modDram_erase (s : State) (n : ℕ) (f : Dram → Dram) {mk : Nat} (hk : 0x40000000 &&& mk = 0x40000000) : ((State.modDram s n f)).erase mk = s.erase mk := by
  unfold State.modDram
  repeat' (first | with_reducible rfl | with_reducible refine erase_ite ?_ ?_ | simp (disch := exact sub_trans rfl hk) only [↓State.setDram_erase, apply_ite (State.erase mk), ite_self] | (refine (erase_foldl (fun t a => ?_) _ _).trans ?_) | (refine (erase_foldl1 (fun t a => ?_) _ _).trans ?_) | split)

theorem State.modNet_erase (s : State) (n : ℕ) (f : NetPort → NetPort) {mk : Nat} (hk : 0x100000000 &&& mk = 0x100000000) : ((State.modNet s n f)).erase mk = s.erase mk := by
  unfold State.modNet
  repeat' (first | with_reducible rfl | with_reducible refine erase_ite ?_ ?_ | simp (disch := exact sub_trans rfl hk) only [↓put_nets, apply_ite (State.erase mk), ite_self] | (refine (erase_foldl (fun t a => ?_) _ _).trans ?_) | (refine (erase_foldl1 (fun t a => ?_) _ _).trans ?_) | split)

theorem State.modBridge_erase (s : State) (b : ℕ) (f : Bridge → Bridge) {mk : Nat} (hk : 0x4000000000 &&& mk = 0x4000000000) : ((State.modBridge s b f)).erase mk = s.erase mk := by
  unfold State.modBridge
  repeat' (first | with_reducible rfl | with_reducible refine erase_ite ?_ ?_ | simp (disch := exact sub_trans rfl hk) only [↓put_bridges, apply_ite (State.erase mk), ite_self] | (refine (erase_foldl (fun t a => ?_) _ _).trans ?_) | (refine (erase_foldl1 (fun t a => ?_) _ _).trans ?_) | split)

theorem State.setArb_erase (s : State) (k : ℕ) (x : Arbiter) {mk : Nat} (hk : 0x8000000000 &&& mk = 0x8000000000) : ((State.setArb s k x)).erase mk = s.erase mk := by
  unfold State.setArb
  repeat' (first | with_reducible rfl | with_reducible refine erase_ite ?_ ?_ | simp (disch := exact sub_trans rfl hk) only [↓put_arbs, apply_ite (State.erase mk), ite_self] | (refine (erase_foldl (fun t a => ?_) _ _).trans ?_) | (refine (erase_foldl1 (fun t a => ?_) _ _).trans ?_) | split)

theorem State.setRolling_erase (s : State) (g : ℕ) (a : ℕ) (x : Rolling) {mk : Nat} (hk : 0x8000 &&& mk = 0x8000) : ((State.setRolling s g a x)).erase mk = s.erase mk := by
  unfold State.setRolling
  repeat' (first | with_reducible rfl | with_reducible refine erase_ite ?_ ?_ | simp (disch := exact sub_trans rfl hk) only [↓put_rolling, apply_ite (State.erase mk), ite_self] | (refine (erase_foldl (fun t a => ?_) _ _).trans ?_) | (refine (erase_foldl1 (fun t a => ?_) _ _).trans ?_) | split)

theorem State.setChannel_erase (s : State) (n : ℕ) (x : Channel) {mk : Nat} (hk : 0x20000000 &&& mk = 0x20000000) : ((State.setChannel s n x)).erase mk = s.erase mk := by
  unfold State.setChannel
  repeat' (first | with_reducible rfl | with_reducible refine erase_ite ?_ ?_ | simp (disch := exact sub_trans rfl hk) only [↓put_saf, apply_ite (State.erase mk), ite_self] | (refine (erase_foldl (fun t a => ?_) _ _).trans ?_) | (refine (erase_foldl1 (fun t a => ?_) _ _).trans ?_) | split)

theorem State.setZone_erase (s : State) (z : ℕ) (x : Zone) {mk : Nat} (hk : 0x20000000 &&& mk = 0x20000000) : ((State.setZone s z x)).erase mk = s.erase mk := by
  unfold State.setZone
  repeat' (first | with_reducible rfl | with_reducible refine erase_ite ?_ ?_ | simp (disch := exact sub_trans rfl hk) only [↓put_saf, apply_ite (State.erase mk), ite_self] | (refine (erase_foldl (fun t a => ?_) _ _).trans ?_) | (refine (erase_foldl1 (fun t a => ?_) _ _).trans ?_) | split)

theorem State.modZone_erase (s : State) (z : ℕ) (f : Zone → Zone) {mk : Nat} (hk : 0x20000000 &&& mk = 0x20000000) : ((State.modZone s z f)).erase mk = s.erase mk := by
  unfold State.modZone
  repeat' (first | with_reducible rfl | with_reducible refine erase_ite ?_ ?_ | simp (disch := exact sub_trans rfl hk) only [↓State.setZone_erase, apply_ite (State.erase mk), ite_self] | (refine (erase_foldl (fun t a => ?_) _ _).trans ?_) | (refine (erase_foldl1 (fun t a => ?_) _ _).trans ?_) | split)

theorem State.setTrack_erase (s : State) (n : ℕ) (x : Track) {mk : Nat} (hk : 0x1000000 &&& mk = 0x1000000) : ((State.setTrack s n x)).erase mk = s.erase mk := by
  unfold State.setTrack
  repeat' (first | with_reducible rfl | with_reducible refine erase_ite ?_ ?_ | simp (disch := exact sub_trans rfl hk) only [↓put_ledger, apply_ite (State.erase mk), ite_self] | (refine (erase_foldl (fun t a => ?_) _ _).trans ?_) | (refine (erase_foldl1 (fun t a => ?_) _ _).trans ?_) | split)

theorem State.setPeer_erase (s : State) (d : ℕ) (x : Peer) {mk : Nat} (hk : 0x200000000 &&& mk = 0x200000000) : ((State.setPeer s d x)).erase mk = s.erase mk := by
  unfold State.setPeer
  repeat' (first | with_reducible rfl | with_reducible refine erase_ite ?_ ?_ | simp (disch := exact sub_trans rfl hk) only [↓put_lnk, apply_ite (State.erase mk), ite_self] | (refine (erase_foldl (fun t a => ?_) _ _).trans ?_) | (refine (erase_foldl1 (fun t a => ?_) _ _).trans ?_) | split)

theorem State.modPeer_erase (s : State) (d : ℕ) (f : Peer → Peer) {mk : Nat} (hk : 0x200000000 &&& mk = 0x200000000) : ((State.modPeer s d f)).erase mk = s.erase mk := by
  unfold State.modPeer
  repeat' (first | with_reducible rfl | with_reducible refine erase_ite ?_ ?_ | simp (disch := exact sub_trans rfl hk) only [↓State.setPeer_erase, apply_ite (State.erase mk), ite_self] | (refine (erase_foldl (fun t a => ?_) _ _).trans ?_) | (refine (erase_foldl1 (fun t a => ?_) _ _).trans ?_) | split)

theorem State.countReject_erase (s : State) (src : ℕ) (op : ℕ) {mk : Nat} (hk : 0x200 &&& mk = 0x200) : ((State.countReject s src op)).erase mk = s.erase mk := by
  unfold State.countReject
  repeat' (first | with_reducible rfl | with_reducible refine erase_ite ?_ ?_ | simp (disch := exact sub_trans rfl hk) only [↓put_stl, apply_ite (State.erase mk), ite_self] | (refine (erase_foldl (fun t a => ?_) _ _).trans ?_) | (refine (erase_foldl1 (fun t a => ?_) _ _).trans ?_) | split)

theorem State.countIgnored_erase (s : State) {mk : Nat} (hk : 0x200 &&& mk = 0x200) : ((State.countIgnored s)).erase mk = s.erase mk := by
  unfold State.countIgnored
  repeat' (first | with_reducible rfl | with_reducible refine erase_ite ?_ ?_ | simp (disch := exact sub_trans rfl hk) only [↓put_stl, apply_ite (State.erase mk), ite_self] | (refine (erase_foldl (fun t a => ?_) _ _).trans ?_) | (refine (erase_foldl1 (fun t a => ?_) _ _).trans ?_) | split)

theorem State.nextFree_erase (s : State) {mk : Nat} (hk : 0x1000000000000 &&& mk = 0x1000000000000) : ((State.nextFree s)).erase mk = s.erase mk := by
  unfold State.nextFree
  repeat' (first | with_reducible rfl | with_reducible refine erase_ite ?_ ?_ | simp (disch := exact sub_trans rfl hk) only [↓put_free, apply_ite (State.erase mk), ite_self] | (refine (erase_foldl (fun t a => ?_) _ _).trans ?_) | (refine (erase_foldl1 (fun t a => ?_) _ _).trans ?_) | split)

theorem State.emit_erase (s : State) (r : Rec) {mk : Nat} (hk : 0x800 &&& mk = 0x800) : ((State.emit s r)).erase mk = s.erase mk := by
  unfold State.emit
  repeat' (first | with_reducible rfl | with_reducible refine erase_ite ?_ ?_ | simp (disch := exact sub_trans rfl hk) only [↓put_journal, apply_ite (State.erase mk), ite_self] | (refine (erase_foldl (fun t a => ?_) _ _).trans ?_) | (refine (erase_foldl1 (fun t a => ?_) _ _).trans ?_) | split)

theorem State.emitAll_erase (s : State) (rs : List Rec) {mk : Nat} (hk : 0x800 &&& mk = 0x800) : ((State.emitAll s rs)).erase mk = s.erase mk := by
  unfold State.emitAll
  repeat' (first | with_reducible rfl | with_reducible refine erase_ite ?_ ?_ | simp (disch := exact sub_trans rfl hk) only [↓State.emit_erase, apply_ite (State.erase mk), ite_self] | (refine (erase_foldl (fun t a => ?_) _ _).trans ?_) | (refine (erase_foldl1 (fun t a => ?_) _ _).trans ?_) | split)

theorem State.trace_erase (s : State) (cls : ℕ) (inst : ℕ) (code : ℕ) (data : List Byte) {mk : Nat} (hk : 0x800000000 &&& mk = 0x800000000) : ((State.trace s cls inst code data)).erase mk = s.erase mk := by
  unfold State.trace
  repeat' (first | with_reducible rfl | with_reducible refine erase_ite ?_ ?_ | simp (disch := exact sub_trans rfl hk) only [↓put_dbg, apply_ite (State.erase mk), ite_self] | (refine (erase_foldl (fun t a => ?_) _ _).trans ?_) | (refine (erase_foldl1 (fun t a => ?_) _ _).trans ?_) | split)

theorem State.cause_erase (s : State) (bitNo : ℕ) {mk : Nat} (hk : 0x80000000 &&& mk = 0x80000000) : ((State.cause s bitNo)).erase mk = s.erase mk := by
  unfold State.cause
  repeat' (first | with_reducible rfl | with_reducible refine erase_ite ?_ ?_ | simp (disch := exact sub_trans rfl hk) only [↓put_pci, apply_ite (State.erase mk), ite_self] | (refine (erase_foldl (fun t a => ?_) _ _).trans ?_) | (refine (erase_foldl1 (fun t a => ?_) _ _).trans ?_) | split)

theorem State.updateInta_erase (s : State) {mk : Nat} (hk : 0x4 &&& mk = 0x4) : ((State.updateInta s)).erase mk = s.erase mk := by
  unfold State.updateInta
  repeat' (first | with_reducible rfl | with_reducible refine erase_ite ?_ ?_ | simp (disch := exact sub_trans rfl hk) only [↓put_pins, apply_ite (State.erase mk), ite_self] | (refine (erase_foldl (fun t a => ?_) _ _).trans ?_) | (refine (erase_foldl1 (fun t a => ?_) _ _).trans ?_) | split)

theorem State.raise_erase (s : State) (bitNo : ℕ) {mk : Nat} (hk : 0x80000004 &&& mk = 0x80000004) : ((State.raise s bitNo)).erase mk = s.erase mk := by
  unfold State.raise
  repeat' (first | with_reducible rfl | with_reducible refine erase_ite ?_ ?_ | simp (disch := exact sub_trans rfl hk) only [↓State.updateInta_erase, ↓State.cause_erase, apply_ite (State.erase mk), ite_self] | (refine (erase_foldl (fun t a => ?_) _ _).trans ?_) | (refine (erase_foldl1 (fun t a => ?_) _ _).trans ?_) | split)

theorem State.corrected_erase (s : State) (source : ℕ) (unit_ : ℕ) (n : ℕ) {mk : Nat} (hk : 0x10000000 &&& mk = 0x10000000) : ((State.corrected s source unit_ n)).erase mk = s.erase mk := by
  unfold State.corrected
  repeat' (first | with_reducible rfl | with_reducible refine erase_ite ?_ ?_ | simp (disch := exact sub_trans rfl hk) only [↓put_flt, apply_ite (State.erase mk), ite_self] | (refine (erase_foldl (fun t a => ?_) _ _).trans ?_) | (refine (erase_foldl1 (fun t a => ?_) _ _).trans ?_) | split)

theorem State.contained_erase (s : State) (p : FltPl) (status : ℕ) (stream : ℕ) (tick : ℕ) (account : ℕ) (type : ℕ) {mk : Nat} (hk : 0x90000804 &&& mk = 0x90000804) : ((State.contained s p status stream tick account type)).erase mk = s.erase mk := by
  unfold State.contained
  repeat' (first | with_reducible rfl | with_reducible refine erase_ite ?_ ?_ | simp (disch := exact sub_trans rfl hk) only [↓State.raise_erase, ↓State.emit_erase, ↓put_flt, apply_ite (State.erase mk), ite_self] | (refine (erase_foldl (fun t a => ?_) _ _).trans ?_) | (refine (erase_foldl1 (fun t a => ?_) _ _).trans ?_) | split)

theorem State.fenceEvent_erase (s : State) (p : FltPl) (status : ℕ) (type : ℕ) {mk : Nat} (hk : 0x90000804 &&& mk = 0x90000804) : ((State.fenceEvent s p status type)).erase mk = s.erase mk := by
  unfold State.fenceEvent
  repeat' (first | with_reducible rfl | with_reducible refine erase_ite ?_ ?_ | simp (disch := exact sub_trans rfl hk) only [↓State.raise_erase, ↓State.emit_erase, ↓put_flt, apply_ite (State.erase mk), ite_self] | (refine (erase_foldl (fun t a => ?_) _ _).trans ?_) | (refine (erase_foldl1 (fun t a => ?_) _ _).trans ?_) | split)

theorem State.chargeMedia_erase (s : State) (a : ℕ) (cycles : ℕ) (bytes : ℕ) {mk : Nat} (hk : 0x1000000000 &&& mk = 0x1000000000) : ((State.chargeMedia s a cycles bytes)).erase mk = s.erase mk := by
  unfold State.chargeMedia
  repeat' (first | with_reducible rfl | with_reducible refine erase_ite ?_ ?_ | simp (disch := exact sub_trans rfl hk) only [↓State.modTill_erase, apply_ite (State.erase mk), ite_self] | (refine (erase_foldl (fun t a => ?_) _ _).trans ?_) | (refine (erase_foldl1 (fun t a => ?_) _ _).trans ?_) | split)

theorem State.chargeDie_erase (s : State) (a : ℕ) (bytes : ℕ) {mk : Nat} (hk : 0x1000000000 &&& mk = 0x1000000000) : ((State.chargeDie s a bytes)).erase mk = s.erase mk := by
  unfold State.chargeDie
  repeat' (first | with_reducible rfl | with_reducible refine erase_ite ?_ ?_ | simp (disch := exact sub_trans rfl hk) only [↓State.modTill_erase, apply_ite (State.erase mk), ite_self] | (refine (erase_foldl (fun t a => ?_) _ _).trans ?_) | (refine (erase_foldl1 (fun t a => ?_) _ _).trans ?_) | split)

theorem State.advance_erase (s : State) (dt : ℕ) {mk : Nat} (hk : 0x400 &&& mk = 0x400) : ((State.advance s dt)).erase mk = s.erase mk := by
  unfold State.advance
  repeat' (first | with_reducible rfl | with_reducible refine erase_ite ?_ ?_ | simp (disch := exact sub_trans rfl hk) only [↓put_time, apply_ite (State.erase mk), ite_self] | (refine (erase_foldl (fun t a => ?_) _ _).trans ?_) | (refine (erase_foldl1 (fun t a => ?_) _ _).trans ?_) | split)

theorem clockTick_erase (s : State) {mk : Nat} (hk : 0x400 &&& mk = 0x400) : ((clockTick s)).erase mk = s.erase mk := by
  unfold clockTick
  repeat' (first | with_reducible rfl | with_reducible refine erase_ite ?_ ?_ | simp (disch := exact sub_trans rfl hk) only [↓State.advance_erase, apply_ite (State.erase mk), ite_self] | (refine (erase_foldl (fun t a => ?_) _ _).trans ?_) | (refine (erase_foldl1 (fun t a => ?_) _ _).trans ?_) | split)

theorem State.atStation_erase (s : State) (t : ℕ) {mk : Nat} (hk : 0x400 &&& mk = 0x400) : ((State.atStation s t)).erase mk = s.erase mk := by
  unfold State.atStation
  repeat' (first | with_reducible rfl | with_reducible refine erase_ite ?_ ?_ | simp (disch := exact sub_trans rfl hk) only [↓put_time, apply_ite (State.erase mk), ite_self] | (refine (erase_foldl (fun t a => ?_) _ _).trans ?_) | (refine (erase_foldl1 (fun t a => ?_) _ _).trans ?_) | split)

theorem State.atElapsed_erase (s : State) (t : ℕ) {mk : Nat} (hk : 0x400 &&& mk = 0x400) : ((State.atElapsed s t)).erase mk = s.erase mk := by
  unfold State.atElapsed
  repeat' (first | with_reducible rfl | with_reducible refine erase_ite ?_ ?_ | simp (disch := exact sub_trans rfl hk) only [↓State.advance_erase, apply_ite (State.erase mk), ite_self] | (refine (erase_foldl (fun t a => ?_) _ _).trans ?_) | (refine (erase_foldl1 (fun t a => ?_) _ _).trans ?_) | split)

theorem State.atMultiple_erase (s : State) (n : ℕ) {mk : Nat} (hk : 0x400 &&& mk = 0x400) : ((State.atMultiple s n)).erase mk = s.erase mk := by
  unfold State.atMultiple
  repeat' (first | with_reducible rfl | with_reducible refine erase_ite ?_ ?_ | simp (disch := exact sub_trans rfl hk) only [↓State.atElapsed_erase, apply_ite (State.erase mk), ite_self] | (refine (erase_foldl (fun t a => ?_) _ _).trans ?_) | (refine (erase_foldl1 (fun t a => ?_) _ _).trans ?_) | split)

theorem State.setPtp_erase (s : State) (port : ℕ) (p : PtpPort) {mk : Nat} (hk : 0x400 &&& mk = 0x400) : ((State.setPtp s port p)).erase mk = s.erase mk := by
  unfold State.setPtp
  repeat' (first | with_reducible rfl | with_reducible refine erase_ite ?_ ?_ | simp (disch := exact sub_trans rfl hk) only [↓put_time, apply_ite (State.erase mk), ite_self] | (refine (erase_foldl (fun t a => ?_) _ _).trans ?_) | (refine (erase_foldl1 (fun t a => ?_) _ _).trans ?_) | split)

theorem State.fixQuality_erase (s : State) {mk : Nat} (hk : 0x400 &&& mk = 0x400) : ((State.fixQuality s)).erase mk = s.erase mk := by
  unfold State.fixQuality
  repeat' (first | with_reducible rfl | with_reducible refine erase_ite ?_ ?_ | simp (disch := exact sub_trans rfl hk) only [↓put_time, apply_ite (State.erase mk), ite_self] | (refine (erase_foldl (fun t a => ?_) _ _).trans ?_) | (refine (erase_foldl1 (fun t a => ?_) _ _).trans ?_) | split)

theorem State.timRecord_erase (s : State) (type : ℕ) (before : ℕ) (step : ℤ) (stationBefore : ℕ) {mk : Nat} (hk : 0x880000804 &&& mk = 0x880000804) : ((State.timRecord s type before step stationBefore)).erase mk = s.erase mk := by
  unfold State.timRecord
  repeat' (first | with_reducible rfl | with_reducible refine erase_ite ?_ ?_ | simp (disch := exact sub_trans rfl hk) only [↓State.emit_erase, ↓State.trace_erase, ↓State.raise_erase, apply_ite (State.erase mk), ite_self] | (refine (erase_foldl (fun t a => ?_) _ _).trans ?_) | (refine (erase_foldl1 (fun t a => ?_) _ _).trans ?_) | split)

theorem keepFrequency_erase (s : State) (code : ℕ) {mk : Nat} (hk : 0x1000000000400 &&& mk = 0x1000000000400) : ((keepFrequency s code)).erase mk = s.erase mk := by
  unfold keepFrequency
  repeat' (first | with_reducible rfl | with_reducible refine erase_ite ?_ ?_ | simp (disch := exact sub_trans rfl hk) only [↓put_time_free, apply_ite (State.erase mk), ite_self] | (refine (erase_foldl (fun t a => ?_) _ _).trans ?_) | (refine (erase_foldl1 (fun t a => ?_) _ _).trans ?_) | split)

theorem changeSource_erase (s : State) (code : ℕ) {mk : Nat} (hk : 0x1000880000c04 &&& mk = 0x1000880000c04) : ((changeSource s code)).erase mk = s.erase mk := by
  unfold changeSource
  repeat' (first | with_reducible rfl | with_reducible refine erase_ite ?_ ?_ | simp (disch := exact sub_trans rfl hk) only [↓keepFrequency_erase, ↓State.timRecord_erase, ↓State.fixQuality_erase, ↓put_time, apply_ite (State.erase mk), ite_self] | (refine (erase_foldl (fun t a => ?_) _ _).trans ?_) | (refine (erase_foldl1 (fun t a => ?_) _ _).trans ?_) | split)

theorem clearSource_erase (s : State) (code : ℕ) {mk : Nat} (hk : 0x400 &&& mk = 0x400) : ((clearSource s code)).erase mk = s.erase mk := by
  unfold clearSource
  repeat' (first | with_reducible rfl | with_reducible refine erase_ite ?_ ?_ | simp (disch := exact sub_trans rfl hk) only [↓State.setPtp_erase, ↓put_time, apply_ite (State.erase mk), ite_self] | (refine (erase_foldl (fun t a => ?_) _ _).trans ?_) | (refine (erase_foldl1 (fun t a => ?_) _ _).trans ?_) | split)

theorem loseSource_erase (s : State) (code : ℕ) {mk : Nat} (hk : 0x1000880000c04 &&& mk = 0x1000880000c04) : ((loseSource s code)).erase mk = s.erase mk := by
  unfold loseSource
  repeat' (first | with_reducible rfl | with_reducible refine erase_ite ?_ ?_ | simp (disch := exact sub_trans rfl hk) only [↓clearSource_erase, ↓changeSource_erase, apply_ite (State.erase mk), ite_self] | (refine (erase_foldl (fun t a => ?_) _ _).trans ?_) | (refine (erase_foldl1 (fun t a => ?_) _ _).trans ?_) | split)

theorem applyOffset_erase (s : State) (theta : ℤ) {mk : Nat} (hk : 0x1000880000c04 &&& mk = 0x1000880000c04) : ((applyOffset s theta)).erase mk = s.erase mk := by
  unfold applyOffset
  repeat' (first | with_reducible rfl | with_reducible refine erase_ite ?_ ?_ | simp (disch := exact sub_trans rfl hk) only [↓loseSource_erase, ↓State.timRecord_erase, ↓State.fixQuality_erase, ↓put_time, apply_ite (State.erase mk), ite_self] | (refine (erase_foldl (fun t a => ?_) _ _).trans ?_) | (refine (erase_foldl1 (fun t a => ?_) _ _).trans ?_) | split)

theorem firstStep_erase (s : State) (code : ℕ) (theta : ℤ) {mk : Nat} (hk : 0x1000880000c04 &&& mk = 0x1000880000c04) : ((firstStep s code theta)).erase mk = s.erase mk := by
  unfold firstStep
  repeat' (first | with_reducible rfl | with_reducible refine erase_ite ?_ ?_ | simp (disch := exact sub_trans rfl hk) only [↓State.fixQuality_erase, ↓changeSource_erase, ↓State.timRecord_erase, ↓put_time, apply_ite (State.erase mk), ite_self] | (refine (erase_foldl (fun t a => ?_) _ _).trans ?_) | (refine (erase_foldl1 (fun t a => ?_) _ _).trans ?_) | split)

theorem onQualify_erase (s : State) (code : ℕ) (theta : ℤ) {mk : Nat} (hk : 0x1000880000c04 &&& mk = 0x1000880000c04) : ((onQualify s code theta)).erase mk = s.erase mk := by
  unfold onQualify
  repeat' (first | with_reducible rfl | with_reducible refine erase_ite ?_ ?_ | simp (disch := exact sub_trans rfl hk) only [↓applyOffset_erase, ↓changeSource_erase, ↓firstStep_erase, apply_ite (State.erase mk), ite_self] | (refine (erase_foldl (fun t a => ?_) _ _).trans ?_) | (refine (erase_foldl1 (fun t a => ?_) _ _).trans ?_) | split)

theorem measured_erase (s : State) (code : ℕ) (theta : ℤ) {mk : Nat} (hk : 0x1000880000c04 &&& mk = 0x1000880000c04) : ((measured s code theta)).erase mk = s.erase mk := by
  unfold measured
  repeat' (first | with_reducible rfl | with_reducible refine erase_ite ?_ ?_ | simp (disch := exact sub_trans rfl hk) only [↓applyOffset_erase, ↓firstStep_erase, ↓put_time, apply_ite (State.erase mk), ite_self] | (refine (erase_foldl (fun t a => ?_) _ _).trans ?_) | (refine (erase_foldl1 (fun t a => ?_) _ _).trans ?_) | split)

theorem syncMeasured_erase (s : State) (port : ℕ) (t1 : ℤ) (t2 : ℤ) {mk : Nat} (hk : 0x1000880000c04 &&& mk = 0x1000880000c04) : ((syncMeasured s port t1 t2)).erase mk = s.erase mk := by
  unfold syncMeasured
  repeat' (first | with_reducible rfl | with_reducible refine erase_ite ?_ ?_ | simp (disch := exact sub_trans rfl hk) only [↓measured_erase, ↓State.setPtp_erase, ↓onQualify_erase, apply_ite (State.erase mk), ite_self] | (refine (erase_foldl (fun t a => ?_) _ _).trans ?_) | (refine (erase_foldl1 (fun t a => ?_) _ _).trans ?_) | split)

theorem syncReceived_erase (s : State) (port : ℕ) (domain : ℕ) (sender : ℕ) (twoStep : Bool) (origin : ℤ) (correction : ℤ) (rxMac : ℤ) {mk : Nat} (hk : 0x1000880000c04 &&& mk = 0x1000880000c04) : ((syncReceived s port domain sender twoStep origin correction rxMac)).erase mk = s.erase mk := by
  unfold syncReceived
  repeat' (first | with_reducible rfl | with_reducible refine erase_ite ?_ ?_ | simp (disch := exact sub_trans rfl hk) only [↓State.setPtp_erase, ↓syncMeasured_erase, apply_ite (State.erase mk), ite_self] | (refine (erase_foldl (fun t a => ?_) _ _).trans ?_) | (refine (erase_foldl1 (fun t a => ?_) _ _).trans ?_) | split)

theorem followUpReceived_erase (s : State) (port : ℕ) (domain : ℕ) (sender : ℕ) (origin : ℤ) (correction : ℤ) {mk : Nat} (hk : 0x1000880000c04 &&& mk = 0x1000880000c04) : ((followUpReceived s port domain sender origin correction)).erase mk = s.erase mk := by
  unfold followUpReceived
  repeat' (first | with_reducible rfl | with_reducible refine erase_ite ?_ ?_ | simp (disch := exact sub_trans rfl hk) only [↓syncMeasured_erase, apply_ite (State.erase mk), ite_self] | (refine (erase_foldl (fun t a => ?_) _ _).trans ?_) | (refine (erase_foldl1 (fun t a => ?_) _ _).trans ?_) | split)

theorem announceReceived_erase (s : State) (port : ℕ) (domain : ℕ) (a : Announce) {mk : Nat} (hk : 0x400 &&& mk = 0x400) : ((announceReceived s port domain a)).erase mk = s.erase mk := by
  unfold announceReceived
  repeat' (first | with_reducible rfl | with_reducible refine erase_ite ?_ ?_ | simp (disch := exact sub_trans rfl hk) only [↓State.setPtp_erase, ↓put_time, apply_ite (State.erase mk), ite_self] | (refine (erase_foldl (fun t a => ?_) _ _).trans ?_) | (refine (erase_foldl1 (fun t a => ?_) _ _).trans ?_) | split)

theorem execPtpAnnounce_erase (port : ℕ) (domain : ℕ) (a : Announce) (s : State) {mk : Nat} (hk : 0x400 &&& mk = 0x400) (tx : State) (ex : (execPtpAnnounce port domain a s) = .next tx) : tx.erase mk = s.erase mk := by
  unfold execPtpAnnounce done at ex
  injection ex with ex
  subst ex
  repeat' (first | with_reducible rfl | with_reducible refine erase_ite ?_ ?_ | simp (disch := exact sub_trans rfl hk) only [↓announceReceived_erase, apply_ite (State.erase mk), ite_self] | (refine (erase_foldl (fun t a => ?_) _ _).trans ?_) | (refine (erase_foldl1 (fun t a => ?_) _ _).trans ?_) | split)

theorem delayResp_erase (s : State) (port : ℕ) (domain : ℕ) (sender : ℕ) (receipt : ℤ) (correction : ℤ) {mk : Nat} (hk : 0x400 &&& mk = 0x400) : ((delayResp s port domain sender receipt correction)).erase mk = s.erase mk := by
  unfold delayResp
  repeat' (first | with_reducible rfl | with_reducible refine erase_ite ?_ ?_ | simp (disch := exact sub_trans rfl hk) only [↓State.setPtp_erase, apply_ite (State.erase mk), ite_self] | (refine (erase_foldl (fun t a => ?_) _ _).trans ?_) | (refine (erase_foldl1 (fun t a => ?_) _ _).trans ?_) | split)

theorem execPtpDelayResp_erase (port : ℕ) (domain : ℕ) (sender : ℕ) (receipt : ℤ) (correction : ℤ) (s : State) {mk : Nat} (hk : 0x400 &&& mk = 0x400) (tx : State) (ex : (execPtpDelayResp port domain sender receipt correction s) = .next tx) : tx.erase mk = s.erase mk := by
  unfold execPtpDelayResp done at ex
  injection ex with ex
  subst ex
  repeat' (first | with_reducible rfl | with_reducible refine erase_ite ?_ ?_ | simp (disch := exact sub_trans rfl hk) only [↓delayResp_erase, apply_ite (State.erase mk), ite_self] | (refine (erase_foldl (fun t a => ?_) _ _).trans ?_) | (refine (erase_foldl1 (fun t a => ?_) _ _).trans ?_) | split)

theorem State.send_erase (s : State) (port : ℕ) (code : ℕ) {mk : Nat} (hk : 0x100000000 &&& mk = 0x100000000) : ((State.send s port code)).erase mk = s.erase mk := by
  unfold State.send
  repeat' (first | with_reducible rfl | with_reducible refine erase_ite ?_ ?_ | simp (disch := exact sub_trans rfl hk) only [↓State.modNet_erase, apply_ite (State.erase mk), ite_self] | (refine (erase_foldl (fun t a => ?_) _ _).trans ?_) | (refine (erase_foldl1 (fun t a => ?_) _ _).trans ?_) | split)

theorem pdelayMessage_erase (s : State) (port : ℕ) (domain : ℕ) (_sender : ℕ) (m : Pdelay) (correction : ℤ) (rxMac : ℤ) {mk : Nat} (hk : 0x100000400 &&& mk = 0x100000400) : ((pdelayMessage s port domain _sender m correction rxMac)).erase mk = s.erase mk := by
  unfold pdelayMessage
  repeat' (first | with_reducible rfl | with_reducible refine erase_ite ?_ ?_ | simp (disch := exact sub_trans rfl hk) only [↓State.send_erase, ↓State.setPtp_erase, apply_ite (State.erase mk), ite_self] | (refine (erase_foldl (fun t a => ?_) _ _).trans ?_) | (refine (erase_foldl1 (fun t a => ?_) _ _).trans ?_) | split)

theorem execPtpPdelayMessage_erase (port : ℕ) (domain : ℕ) (sender : ℕ) (m : Pdelay) (correction : ℤ) (rxMac : ℤ) (s : State) {mk : Nat} (hk : 0x100000400 &&& mk = 0x100000400) (tx : State) (ex : (execPtpPdelayMessage port domain sender m correction rxMac s) = .next tx) : tx.erase mk = s.erase mk := by
  unfold execPtpPdelayMessage done at ex
  injection ex with ex
  subst ex
  repeat' (first | with_reducible rfl | with_reducible refine erase_ite ?_ ?_ | simp (disch := exact sub_trans rfl hk) only [↓pdelayMessage_erase, apply_ite (State.erase mk), ite_self] | (refine (erase_foldl (fun t a => ?_) _ _).trans ?_) | (refine (erase_foldl1 (fun t a => ?_) _ _).trans ?_) | split)

theorem execPtpDelayReqSend_erase (port : ℕ) (peer : Bool) (txMac : ℤ) (s : State) {mk : Nat} (hk : 0x100000400 &&& mk = 0x100000400) (tx : State) (ex : (execPtpDelayReqSend port peer txMac s) = .next tx) : tx.erase mk = s.erase mk := by
  unfold execPtpDelayReqSend done at ex
  injection ex with ex
  subst ex
  repeat' (first | with_reducible rfl | with_reducible refine erase_ite ?_ ?_ | simp (disch := exact sub_trans rfl hk) only [↓State.send_erase, ↓State.setPtp_erase, apply_ite (State.erase mk), ite_self] | (refine (erase_foldl (fun t a => ?_) _ _).trans ?_) | (refine (erase_foldl1 (fun t a => ?_) _ _).trans ?_) | split)

theorem execPtpSyncLoss_erase (port : ℕ) (s : State) {mk : Nat} (hk : 0x1000880000c04 &&& mk = 0x1000880000c04) (tx : State) (ex : (execPtpSyncLoss port s) = .next tx) : tx.erase mk = s.erase mk := by
  unfold execPtpSyncLoss done at ex
  injection ex with ex
  subst ex
  repeat' (first | with_reducible rfl | with_reducible refine erase_ite ?_ ?_ | simp (disch := exact sub_trans rfl hk) only [↓loseSource_erase, apply_ite (State.erase mk), ite_self] | (refine (erase_foldl (fun t a => ?_) _ _).trans ?_) | (refine (erase_foldl1 (fun t a => ?_) _ _).trans ?_) | split)

theorem execAnnounceReceiptTimeout_erase (port : ℕ) (s : State) {mk : Nat} (hk : 0x1000880000c04 &&& mk = 0x1000880000c04) (tx : State) (ex : (execAnnounceReceiptTimeout port s) = .next tx) : tx.erase mk = s.erase mk := by
  unfold execAnnounceReceiptTimeout done at ex
  injection ex with ex
  subst ex
  repeat' (first | with_reducible rfl | with_reducible refine erase_ite ?_ ?_ | simp (disch := exact sub_trans rfl hk) only [↓State.atElapsed_erase, ↓loseSource_erase, ↓State.setPtp_erase, apply_ite (State.erase mk), ite_self] | (refine (erase_foldl (fun t a => ?_) _ _).trans ?_) | (refine (erase_foldl1 (fun t a => ?_) _ _).trans ?_) | split)

theorem pulseTaken_erase (s : State) {mk : Nat} (hk : 0x1000880000c04 &&& mk = 0x1000880000c04) : ((pulseTaken s)).erase mk = s.erase mk := by
  unfold pulseTaken
  repeat' (first | with_reducible rfl | with_reducible refine erase_ite ?_ ?_ | simp (disch := exact sub_trans rfl hk) only [↓measured_erase, ↓onQualify_erase, ↓put_time, apply_ite (State.erase mk), ite_self] | (refine (erase_foldl (fun t a => ?_) _ _).trans ?_) | (refine (erase_foldl1 (fun t a => ?_) _ _).trans ?_) | split)

theorem pulseRejected_erase (s : State) {mk : Nat} (hk : 0x1000880000c04 &&& mk = 0x1000880000c04) : ((pulseRejected s)).erase mk = s.erase mk := by
  unfold pulseRejected
  repeat' (first | with_reducible rfl | with_reducible refine erase_ite ?_ ?_ | simp (disch := exact sub_trans rfl hk) only [↓loseSource_erase, ↓put_time, apply_ite (State.erase mk), ite_self] | (refine (erase_foldl (fun t a => ?_) _ _).trans ?_) | (refine (erase_foldl1 (fun t a => ?_) _ _).trans ?_) | split)

theorem execTimeinLoss_erase (s : State) {mk : Nat} (hk : 0x1000880000c04 &&& mk = 0x1000880000c04) (tx : State) (ex : (execTimeinLoss s) = .next tx) : tx.erase mk = s.erase mk := by
  unfold execTimeinLoss done at ex
  injection ex with ex
  subst ex
  repeat' (first | with_reducible rfl | with_reducible refine erase_ite ?_ ?_ | simp (disch := exact sub_trans rfl hk) only [↓State.atElapsed_erase, ↓loseSource_erase, ↓put_time, apply_ite (State.erase mk), ite_self] | (refine (erase_foldl (fun t a => ?_) _ _).trans ?_) | (refine (erase_foldl1 (fun t a => ?_) _ _).trans ?_) | split)

theorem promote_erase (s : State) {mk : Nat} (hk : 0x1000880000c04 &&& mk = 0x1000880000c04) : ((promote s)).erase mk = s.erase mk := by
  unfold promote
  repeat' (first | with_reducible rfl | with_reducible refine erase_ite ?_ ?_ | simp (disch := exact sub_trans rfl hk) only [↓State.atElapsed_erase, ↓changeSource_erase, apply_ite (State.erase mk), ite_self] | (refine (erase_foldl (fun t a => ?_) _ _).trans ?_) | (refine (erase_foldl1 (fun t a => ?_) _ _).trans ?_) | split)

theorem execSourcePromotion_erase (s : State) {mk : Nat} (hk : 0x1000880000c04 &&& mk = 0x1000880000c04) (tx : State) (ex : (execSourcePromotion s) = .next tx) : tx.erase mk = s.erase mk := by
  unfold execSourcePromotion done at ex
  injection ex with ex
  subst ex
  repeat' (first | with_reducible rfl | with_reducible refine erase_ite ?_ ?_ | simp (disch := exact sub_trans rfl hk) only [↓promote_erase, apply_ite (State.erase mk), ite_self] | (refine (erase_foldl (fun t a => ?_) _ _).trans ?_) | (refine (erase_foldl1 (fun t a => ?_) _ _).trans ?_) | split)

theorem execTickMappingUpdate_erase (s : State) {mk : Nat} (hk : 0x1400 &&& mk = 0x1400) (tx : State) (ex : (execTickMappingUpdate s) = .next tx) : tx.erase mk = s.erase mk := by
  unfold execTickMappingUpdate done at ex
  injection ex with ex
  subst ex
  repeat' (first | with_reducible rfl | with_reducible refine erase_ite ?_ ?_ | simp (disch := exact sub_trans rfl hk) only [↓State.atMultiple_erase, ↓State.modStream_erase, apply_ite (State.erase mk), ite_self] | (refine (erase_foldl (fun t a => ?_) _ _).trans ?_) | (refine (erase_foldl1 (fun t a => ?_) _ _).trans ?_) | split)

theorem State.encStatus_erase (s : State) (ns : List ℕ) (st : ℕ) {mk : Nat} (hk : 0x2000000 &&& mk = 0x2000000) : ((State.encStatus s ns st)).erase mk = s.erase mk := by
  unfold State.encStatus
  repeat' (first | with_reducible rfl | with_reducible refine erase_ite ?_ ?_ | simp (disch := exact sub_trans rfl hk) only [↓State.modEncoder_erase, apply_ite (State.erase mk), ite_self] | (refine (erase_foldl (fun t a => ?_) _ _).trans ?_) | (refine (erase_foldl1 (fun t a => ?_) _ _).trans ?_) | split)

theorem State.encRecord_erase (s : State) (type : ℕ) (status : ℕ) (stream : ℕ) (p : EncPl) (tick : ℕ) {mk : Nat} (hk : 0x800 &&& mk = 0x800) : ((State.encRecord s type status stream p tick)).erase mk = s.erase mk := by
  unfold State.encRecord
  repeat' (first | with_reducible rfl | with_reducible refine erase_ite ?_ ?_ | simp (disch := exact sub_trans rfl hk) only [↓State.emit_erase, apply_ite (State.erase mk), ite_self] | (refine (erase_foldl (fun t a => ?_) _ _).trans ?_) | (refine (erase_foldl1 (fun t a => ?_) _ _).trans ?_) | split)

theorem flushClips_erase (s : State) (n : ℕ) {mk : Nat} (hk : 0x4000000 &&& mk = 0x4000000) : ((flushClips s n)).erase mk = s.erase mk := by
  unfold flushClips
  repeat' (first | with_reducible rfl | with_reducible refine erase_ite ?_ ?_ | simp (disch := exact sub_trans rfl hk) only [↓put_evidence, apply_ite (State.erase mk), ite_self] | (refine (erase_foldl (fun t a => ?_) _ _).trans ?_) | (refine (erase_foldl1 (fun t a => ?_) _ _).trans ?_) | split)

theorem endClips_erase (s : State) (n : ℕ) (flag : ℕ) {mk : Nat} (hk : 0x4000000 &&& mk = 0x4000000) : ((endClips s n flag)).erase mk = s.erase mk := by
  unfold endClips
  repeat' (first | with_reducible rfl | with_reducible refine erase_ite ?_ ?_ | simp (disch := exact sub_trans rfl hk) only [↓flushClips_erase, ↓put_evidence, apply_ite (State.erase mk), ite_self] | (refine (erase_foldl (fun t a => ?_) _ _).trans ?_) | (refine (erase_foldl1 (fun t a => ?_) _ _).trans ?_) | split)

theorem storePre_erase (s : State) (n : ℕ) (au : AccessUnit) {mk : Nat} (hk : 0x4001000 &&& mk = 0x4001000) : ((storePre s n au)).erase mk = s.erase mk := by
  unfold storePre
  repeat' (first | with_reducible rfl | with_reducible refine erase_ite ?_ ?_ | simp (disch := exact sub_trans rfl hk) only [↓flushClips_erase, ↓State.setStream_erase, ↓endClips_erase, apply_ite (State.erase mk), ite_self] | (refine (erase_foldl (fun t a => ?_) _ _).trans ?_) | (refine (erase_foldl1 (fun t a => ?_) _ _).trans ?_) | split)

theorem appendMask_erase (s : State) (n : ℕ) (m : MaskEntry) {mk : Nat} (hk : 0x4001000 &&& mk = 0x4001000) : ((appendMask s n m)).erase mk = s.erase mk := by
  unfold appendMask
  repeat' (first | with_reducible rfl | with_reducible refine erase_ite ?_ ?_ | simp (disch := exact sub_trans rfl hk) only [↓State.setStream_erase, ↓endClips_erase, apply_ite (State.erase mk), ite_self] | (refine (erase_foldl (fun t a => ?_) _ _).trans ?_) | (refine (erase_foldl1 (fun t a => ?_) _ _).trans ?_) | split)

theorem reclaimPre_erase (s : State) (n : ℕ) {mk : Nat} (hk : 0x1000 &&& mk = 0x1000) : ((reclaimPre s n)).erase mk = s.erase mk := by
  unfold reclaimPre
  repeat' (first | with_reducible rfl | with_reducible refine erase_ite ?_ ?_ | simp (disch := exact sub_trans rfl hk) only [↓State.setStream_erase, apply_ite (State.erase mk), ite_self] | (refine (erase_foldl (fun t a => ?_) _ _).trans ?_) | (refine (erase_foldl1 (fun t a => ?_) _ _).trans ?_) | split)

theorem execPreEventReclaim_erase (n : ℕ) (s : State) {mk : Nat} (hk : 0x1000 &&& mk = 0x1000) (tx : State) (ex : (execPreEventReclaim n s) = .next tx) : tx.erase mk = s.erase mk := by
  unfold execPreEventReclaim done at ex
  injection ex with ex
  subst ex
  repeat' (first | with_reducible rfl | with_reducible refine erase_ite ?_ ?_ | simp (disch := exact sub_trans rfl hk) only [↓reclaimPre_erase, apply_ite (State.erase mk), ite_self] | (refine (erase_foldl (fun t a => ?_) _ _).trans ?_) | (refine (erase_foldl1 (fun t a => ?_) _ _).trans ?_) | split)

theorem startClip_erase (s : State) {mk : Nat} (hk : 0x6000800 &&& mk = 0x6000800) : ((startClip s)).erase mk = s.erase mk := by
  unfold startClip
  repeat' (first | with_reducible rfl | with_reducible refine erase_ite ?_ ?_ | simp (disch := exact sub_trans rfl hk) only [↓State.encRecord_erase, ↓State.encStatus_erase, ↓put_evidence, apply_ite (State.erase mk), ite_self] | (refine (erase_foldl (fun t a => ?_) _ _).trans ?_) | (refine (erase_foldl1 (fun t a => ?_) _ _).trans ?_) | split)

theorem clipRequest_erase (s : State) (r : EvReq) {mk : Nat} (hk : 0x6001800 &&& mk = 0x6001800) : (clipRequest s r).1.erase mk = s.erase mk := by
  unfold clipRequest
  repeat' (first | with_reducible rfl | with_reducible refine erase_ite ?_ ?_ | simp (disch := exact sub_trans rfl hk) only [↓State.encRecord_erase, ↓State.encStatus_erase, ↓State.setStream_erase, ↓startClip_erase, ↓put_evidence, apply_ite (State.erase mk), ite_self] | (refine (erase_foldl (fun t a => ?_) _ _).trans ?_) | (refine (erase_foldl1 (fun t a => ?_) _ _).trans ?_) | split)

theorem liveStart_erase (s : State) (r : EvReq) {mk : Nat} (hk : 0x6000800 &&& mk = 0x6000800) : (liveStart s r).1.erase mk = s.erase mk := by
  unfold liveStart
  repeat' (first | with_reducible rfl | with_reducible refine erase_ite ?_ ?_ | simp (disch := exact sub_trans rfl hk) only [↓State.encRecord_erase, ↓State.encStatus_erase, ↓put_evidence, apply_ite (State.erase mk), ite_self] | (refine (erase_foldl (fun t a => ?_) _ _).trans ?_) | (refine (erase_foldl1 (fun t a => ?_) _ _).trans ?_) | split)

theorem liveStop_erase (s : State) (r : EvReq) {mk : Nat} (hk : 0x6000800 &&& mk = 0x6000800) : (liveStop s r).1.erase mk = s.erase mk := by
  unfold liveStop
  repeat' (first | with_reducible rfl | with_reducible refine erase_ite ?_ ?_ | simp (disch := exact sub_trans rfl hk) only [↓State.encStatus_erase, ↓State.encRecord_erase, ↓put_evidence, apply_ite (State.erase mk), ite_self] | (refine (erase_foldl (fun t a => ?_) _ _).trans ?_) | (refine (erase_foldl1 (fun t a => ?_) _ _).trans ?_) | split)

theorem evidenceRequest_erase (s : State) (bs : List Byte) {mk : Nat} (hk : 0x6001800 &&& mk = 0x6001800) : (evidenceRequest s bs).1.erase mk = s.erase mk := by
  unfold evidenceRequest
  repeat' (first | with_reducible rfl | with_reducible refine erase_ite ?_ ?_ | simp (disch := exact sub_trans rfl hk) only [↓State.encStatus_erase, ↓clipRequest_erase, ↓liveStart_erase, ↓liveStop_erase, apply_ite (State.erase mk), ite_self] | (refine (erase_foldl (fun t a => ?_) _ _).trans ?_) | (refine (erase_foldl1 (fun t a => ?_) _ _).trans ?_) | split)

theorem completeClip_erase (s : State) (o : Output) {mk : Nat} (hk : 0x6001800 &&& mk = 0x6001800) : ((completeClip s o)).erase mk = s.erase mk := by
  unfold completeClip
  repeat' (first | with_reducible rfl | with_reducible refine erase_ite ?_ ?_ | simp (disch := exact sub_trans rfl hk) only [↓State.setStream_erase, ↓State.modEncoder_erase, ↓State.encRecord_erase, ↓put_evidence, apply_ite (State.erase mk), ite_self] | (refine (erase_foldl (fun t a => ?_) _ _).trans ?_) | (refine (erase_foldl1 (fun t a => ?_) _ _).trans ?_) | split)

theorem State.streamRecord_erase (s : State) (type : ℕ) (cls : ℕ) (inst : ℕ) (n : ℕ) (epoch : ℕ) (tick : ℕ) (status : ℕ) (p : Payload) {mk : Nat} (hk : 0x800 &&& mk = 0x800) : ((State.streamRecord s type cls inst n epoch tick status p)).erase mk = s.erase mk := by
  unfold State.streamRecord
  repeat' (first | with_reducible rfl | with_reducible refine erase_ite ?_ ?_ | simp (disch := exact sub_trans rfl hk) only [↓State.emit_erase, apply_ite (State.erase mk), ite_self] | (refine (erase_foldl (fun t a => ?_) _ _).trans ?_) | (refine (erase_foldl1 (fun t a => ?_) _ _).trans ?_) | split)

theorem enterEs_erase (s : State) (n : ℕ) (u : AccessUnit) {mk : Nat} (hk : 0x1004001000 &&& mk = 0x1004001000) : ((enterEs s n u)).erase mk = s.erase mk := by
  unfold enterEs
  repeat' (first | with_reducible rfl | with_reducible refine erase_ite ?_ ?_ | simp (disch := exact sub_trans rfl hk) only [↓State.setStream_erase, ↓storePre_erase, ↓State.chargeMedia_erase, apply_ite (State.erase mk), ite_self] | (refine (erase_foldl (fun t a => ?_) _ _).trans ?_) | (refine (erase_foldl1 (fun t a => ?_) _ _).trans ?_) | split)

theorem releaseRun_erase (s : State) (n : ℕ) (run : List Packet) (rest : List Packet) {mk : Nat} (hk : 0x1004001800 &&& mk = 0x1004001800) : ((releaseRun s n run rest)).erase mk = s.erase mk := by
  unfold releaseRun
  repeat' (first | with_reducible rfl | with_reducible refine erase_ite ?_ ?_ | simp (disch := exact sub_trans rfl hk) only [↓State.setStream_erase, ↓State.streamRecord_erase, ↓enterEs_erase, apply_ite (State.erase mk), ite_self] | (refine (erase_foldl (fun t a => ?_) _ _).trans ?_) | (refine (erase_foldl1 (fun t a => ?_) _ _).trans ?_) | split)

theorem releaseReady_erase (y0 : ℕ) (y1 : State) (y2 : ℕ) {mk : Nat} (hk : 0x1004001800 &&& mk = 0x1004001800) : ((releaseReady y0 y1 y2)).erase mk = y1.erase mk := by
  induction y0 generalizing y1 with
  | zero => rfl
  | succ k ih =>
    unfold releaseReady
    repeat' (first | with_reducible rfl | with_reducible refine erase_ite ?_ ?_ | simp (disch := exact sub_trans rfl hk) only [↓ih, ↓releaseRun_erase, apply_ite (State.erase mk), ite_self] | (refine (erase_foldl (fun t a => ?_) _ _).trans ?_) | (refine (erase_foldl1 (fun t a => ?_) _ _).trans ?_) | split)

theorem holdPacket_erase (s : State) (n : ℕ) (seq : ℕ) (timestamp : ℕ) (marker : Bool) (rap : Rap) (data : List Byte) {mk : Nat} (hk : 0x1004001800 &&& mk = 0x1004001800) : ((holdPacket s n seq timestamp marker rap data)).erase mk = s.erase mk := by
  unfold holdPacket
  repeat' (first | with_reducible rfl | with_reducible refine erase_ite ?_ ?_ | simp (disch := exact sub_trans rfl hk) only [↓State.setStream_erase, ↓releaseReady_erase, apply_ite (State.erase mk), ite_self] | (refine (erase_foldl (fun t a => ?_) _ _).trans ?_) | (refine (erase_foldl1 (fun t a => ?_) _ _).trans ?_) | split)

theorem reuseBuffers_erase (s : State) (n : ℕ) (dpb : ℕ) {mk : Nat} (hk : 0x6000000 &&& mk = 0x6000000) : ((reuseBuffers s n dpb)).erase mk = s.erase mk := by
  unfold reuseBuffers
  repeat' (first | with_reducible rfl | with_reducible refine erase_ite ?_ ?_ | simp (disch := exact sub_trans rfl hk) only [↓State.modEncoder_erase, ↓put_evidence, apply_ite (State.erase mk), ite_self] | (refine (erase_foldl (fun t a => ?_) _ _).trans ?_) | (refine (erase_foldl1 (fun t a => ?_) _ _).trans ?_) | split)

theorem startDecode_erase (s : State) (d : ℕ) (n : ℕ) (u : AccessUnit) {mk : Nat} (hk : 0x806003000 &&& mk = 0x806003000) : ((startDecode s d n u)).erase mk = s.erase mk := by
  unfold startDecode
  repeat' (first | with_reducible rfl | with_reducible refine erase_ite ?_ ?_ | simp (disch := exact sub_trans rfl hk) only [↓reuseBuffers_erase, ↓State.setStream_erase, ↓State.modDec_erase, ↓State.trace_erase, apply_ite (State.erase mk), ite_self] | (refine (erase_foldl (fun t a => ?_) _ _).trans ?_) | (refine (erase_foldl1 (fun t a => ?_) _ _).trans ?_) | split)

theorem startReplay_erase (s : State) (d : ℕ) (o : Output) (u : AccessUnit) {mk : Nat} (hk : 0x804002000 &&& mk = 0x804002000) : ((startReplay s d o u)).erase mk = s.erase mk := by
  unfold startReplay
  repeat' (first | with_reducible rfl | with_reducible refine erase_ite ?_ ?_ | simp (disch := exact sub_trans rfl hk) only [↓State.modDec_erase, ↓State.trace_erase, ↓put_evidence, apply_ite (State.erase mk), ite_self] | (refine (erase_foldl (fun t a => ?_) _ _).trans ?_) | (refine (erase_foldl1 (fun t a => ?_) _ _).trans ?_) | split)

theorem dispatchOne_erase (s : State) {mk : Nat} (hk : 0x1000806003000 &&& mk = 0x1000806003000) (t : State) (h : dispatchOne s = some t) :
    t.erase mk = s.erase mk := by
  unfold dispatchOne at h
  split at h
  · cases h
  · extract_lets s0 el zo at h
    have h0 : s0.erase mk = s.erase mk := by
      simp only [s0]
      split
      · rfl
      · exact State.nextFree_erase s (sub_trans rfl hk)
    split at h
    · cases h
      exact (startDecode_erase _ _ _ _ (sub_trans rfl hk)).trans h0
    · split at h
      · cases h
      · cases h
        exact (startReplay_erase _ _ _ _ (sub_trans rfl hk)).trans h0

theorem dispatchLoop_erase (n : Nat) (s : State) {mk : Nat} (hk : 0x1000806003000 &&& mk = 0x1000806003000) : (dispatchLoop n s).erase mk = s.erase mk := by
  induction n generalizing s with
  | zero => rfl
  | succ k ih =>
    unfold dispatchLoop
    split
    · rfl
    · exact (ih _).trans (dispatchOne_erase s (sub_trans rfl hk) _ ‹_›)

theorem dispatch_erase (s : State) {mk : Nat} (hk : 0x1000806003000 &&& mk = 0x1000806003000) : ((dispatch s)).erase mk = s.erase mk := by
  unfold dispatch
  repeat' (first | with_reducible rfl | with_reducible refine erase_ite ?_ ?_ | simp (disch := exact sub_trans rfl hk) only [↓State.modStream_erase, ↓dispatchLoop_erase, apply_ite (State.erase mk), ite_self] | (refine (erase_foldl (fun t a => ?_) _ _).trans ?_) | (refine (erase_foldl1 (fun t a => ?_) _ _).trans ?_) | split)

theorem clipTurn_erase (s : State) {mk : Nat} (hk : 0x1000806003800 &&& mk = 0x1000806003800) : ((clipTurn s)).erase mk = s.erase mk := by
  unfold clipTurn
  repeat' (first | with_reducible rfl | with_reducible refine erase_ite ?_ ?_ | simp (disch := exact sub_trans rfl hk) only [↓dispatch_erase, ↓startClip_erase, apply_ite (State.erase mk), ite_self] | (refine (erase_foldl (fun t a => ?_) _ _).trans ?_) | (refine (erase_foldl1 (fun t a => ?_) _ _).trans ?_) | split)

theorem takeEvidence_erase (s : State) (bs : List Byte) {mk : Nat} (hk : 0x1000806003800 &&& mk = 0x1000806003800) : (takeEvidence s bs).1.erase mk = s.erase mk := by
  unfold takeEvidence
  repeat' (first | with_reducible rfl | with_reducible refine erase_ite ?_ ?_ | simp (disch := exact sub_trans rfl hk) only [↓evidenceRequest_erase, ↓dispatch_erase, apply_ite (State.erase mk), ite_self] | (refine (erase_foldl (fun t a => ?_) _ _).trans ?_) | (refine (erase_foldl1 (fun t a => ?_) _ _).trans ?_) | split)

theorem setDDec_erase (s : State) {mk : Nat} (hk : 0x20001000 &&& mk = 0x20001000) : ((setDDec s)).erase mk = s.erase mk := by
  unfold setDDec
  repeat' (first | with_reducible rfl | with_reducible refine erase_ite ?_ ?_ | simp (disch := exact sub_trans rfl hk) only [↓State.modStream_erase, ↓put_saf, apply_ite (State.erase mk), ite_self] | (refine (erase_foldl (fun t a => ?_) _ _).trans ?_) | (refine (erase_foldl1 (fun t a => ?_) _ _).trans ?_) | split)

theorem checkpoint_erase (s : State) (n : ℕ) (tick : ℕ) {mk : Nat} (hk : 0x1000000001000 &&& mk = 0x1000000001000) : ((checkpoint s n tick)).erase mk = s.erase mk := by
  unfold checkpoint
  repeat' (first | with_reducible rfl | with_reducible refine erase_ite ?_ ?_ | simp (disch := exact sub_trans rfl hk) only [↓State.setStream_erase, ↓put_free, apply_ite (State.erase mk), ite_self] | (refine (erase_foldl (fun t a => ?_) _ _).trans ?_) | (refine (erase_foldl1 (fun t a => ?_) _ _).trans ?_) | split)

theorem restartStream_erase (s : State) (n : ℕ) {mk : Nat} (hk : 0x1800 &&& mk = 0x1800) : ((restartStream s n)).erase mk = s.erase mk := by
  unfold restartStream
  repeat' (first | with_reducible rfl | with_reducible refine erase_ite ?_ ?_ | simp (disch := exact sub_trans rfl hk) only [↓State.setStream_erase, ↓State.emit_erase, apply_ite (State.erase mk), ite_self] | (refine (erase_foldl (fun t a => ?_) _ _).trans ?_) | (refine (erase_foldl1 (fun t a => ?_) _ _).trans ?_) | split)

theorem reclaim_erase (s : State) (n : ℕ) {mk : Nat} (hk : 0x800 &&& mk = 0x800) : ((reclaim s n)).erase mk = s.erase mk := by
  unfold reclaim
  repeat' (first | with_reducible rfl | with_reducible refine erase_ite ?_ ?_ | simp (disch := exact sub_trans rfl hk) only [↓put_journal, apply_ite (State.erase mk), ite_self] | (refine (erase_foldl (fun t a => ?_) _ _).trans ?_) | (refine (erase_foldl1 (fun t a => ?_) _ _).trans ?_) | split)

theorem exportRecord_erase (s : State) (r : Rec) {mk : Nat} (hk : 0x200000000 &&& mk = 0x200000000) : ((exportRecord s r)).erase mk = s.erase mk := by
  unfold exportRecord
  repeat' (first | with_reducible rfl | with_reducible refine erase_ite ?_ ?_ | simp (disch := exact sub_trans rfl hk) only [↓put_lnk, apply_ite (State.erase mk), ite_self] | (refine (erase_foldl (fun t a => ?_) _ _).trans ?_) | (refine (erase_foldl1 (fun t a => ?_) _ _).trans ?_) | split)

theorem gpioPulses_erase (s : State) (type : ℕ) {mk : Nat} (hk : 0x4 &&& mk = 0x4) : ((gpioPulses s type)).erase mk = s.erase mk := by
  unfold gpioPulses
  repeat' (first | with_reducible rfl | with_reducible refine erase_ite ?_ ?_ | simp (disch := exact sub_trans rfl hk) only [↓put_pins, apply_ite (State.erase mk), ite_self] | (refine (erase_foldl (fun t a => ?_) _ _).trans ?_) | (refine (erase_foldl1 (fun t a => ?_) _ _).trans ?_) | split)

theorem appendRecord_erase (s : State) {mk : Nat} (hk : 0x60200000804 &&& mk = 0x60200000804) : ((appendRecord s)).erase mk = s.erase mk := by
  unfold appendRecord
  repeat' (first | with_reducible rfl | with_reducible refine erase_ite ?_ ?_ | simp (disch := exact sub_trans rfl hk) only [↓State.store_erase, ↓gpioPulses_erase, ↓exportRecord_erase, ↓reclaim_erase, ↓put_journal, apply_ite (State.erase mk), ite_self] | (refine (erase_foldl (fun t a => ?_) _ _).trans ?_) | (refine (erase_foldl1 (fun t a => ?_) _ _).trans ?_) | split)

theorem execJournalRecordAppend_erase (s : State) {mk : Nat} (hk : 0x60200000804 &&& mk = 0x60200000804) (tx : State) (ex : (execJournalRecordAppend s) = .next tx) : tx.erase mk = s.erase mk := by
  unfold execJournalRecordAppend done at ex
  injection ex with ex
  subst ex
  repeat' (first | with_reducible rfl | with_reducible refine erase_ite ?_ ?_ | simp (disch := exact sub_trans rfl hk) only [↓appendRecord_erase, apply_ite (State.erase mk), ite_self] | (refine (erase_foldl (fun t a => ?_) _ _).trans ?_) | (refine (erase_foldl1 (fun t a => ?_) _ _).trans ?_) | split)

theorem execJournalMarkStart_erase (s : State) {mk : Nat} (hk : 0xc00 &&& mk = 0xc00) (tx : State) (ex : (execJournalMarkStart s) = .next tx) : tx.erase mk = s.erase mk := by
  unfold execJournalMarkStart done at ex
  injection ex with ex
  subst ex
  repeat' (first | with_reducible rfl | with_reducible refine erase_ite ?_ ?_ | simp (disch := exact sub_trans rfl hk) only [↓State.atElapsed_erase, ↓put_journal, apply_ite (State.erase mk), ite_self] | (refine (erase_foldl (fun t a => ?_) _ _).trans ?_) | (refine (erase_foldl1 (fun t a => ?_) _ _).trans ?_) | split)

theorem execJournalMarkComplete_erase (ok : Bool) (s : State) {mk : Nat} (hk : 0x1000000000800 &&& mk = 0x1000000000800) (tx : State) (ex : (execJournalMarkComplete ok s) = .next tx) : tx.erase mk = s.erase mk := by
  unfold execJournalMarkComplete done at ex
  injection ex with ex
  subst ex
  repeat' (first | with_reducible rfl | with_reducible refine erase_ite ?_ ?_ | simp (disch := exact sub_trans rfl hk) only [↓put_journal_free, apply_ite (State.erase mk), ite_self] | (refine (erase_foldl (fun t a => ?_) _ _).trans ?_) | (refine (erase_foldl1 (fun t a => ?_) _ _).trans ?_) | split)

theorem execExportDatagramSend_erase (dest : ℕ) (s : State) {mk : Nat} (hk : 0x300000400 &&& mk = 0x300000400) (tx : State) (ex : (execExportDatagramSend dest s) = .next tx) : tx.erase mk = s.erase mk := by
  unfold execExportDatagramSend done at ex
  injection ex with ex
  subst ex
  repeat' (first | with_reducible rfl | with_reducible refine erase_ite ?_ ?_ | simp (disch := exact sub_trans rfl hk) only [↓State.atElapsed_erase, ↓State.modNet_erase, ↓put_lnk, apply_ite (State.erase mk), ite_self] | (refine (erase_foldl (fun t a => ?_) _ _).trans ?_) | (refine (erase_foldl1 (fun t a => ?_) _ _).trans ?_) | split)

theorem execGpioPulseEnd_erase (g : ℕ) (s : State) {mk : Nat} (hk : 0x404 &&& mk = 0x404) (tx : State) (ex : (execGpioPulseEnd g s) = .next tx) : tx.erase mk = s.erase mk := by
  unfold execGpioPulseEnd done at ex
  injection ex with ex
  subst ex
  repeat' (first | with_reducible rfl | with_reducible refine erase_ite ?_ ?_ | simp (disch := exact sub_trans rfl hk) only [↓State.atElapsed_erase, ↓put_pins, apply_ite (State.erase mk), ite_self] | (refine (erase_foldl (fun t a => ?_) _ _).trans ?_) | (refine (erase_foldl1 (fun t a => ?_) _ _).trans ?_) | split)

theorem State.assistRecord_erase (s : State) (type : ℕ) (a : ℕ) (n : ℕ) {mk : Nat} (hk : 0x800 &&& mk = 0x800) : ((State.assistRecord s type a n)).erase mk = s.erase mk := by
  unfold State.assistRecord
  repeat' (first | with_reducible rfl | with_reducible refine erase_ite ?_ ?_ | simp (disch := exact sub_trans rfl hk) only [↓State.emit_erase, apply_ite (State.erase mk), ite_self] | (refine (erase_foldl (fun t a => ?_) _ _).trans ?_) | (refine (erase_foldl1 (fun t a => ?_) _ _).trans ?_) | split)

theorem markStream_erase (s : State) (a : ℕ) (n : ℕ) {mk : Nat} (hk : 0x5800 &&& mk = 0x5800) : ((markStream s a n)).erase mk = s.erase mk := by
  unfold markStream
  repeat' (first | with_reducible rfl | with_reducible refine erase_ite ?_ ?_ | simp (disch := exact sub_trans rfl hk) only [↓State.assistRecord_erase, ↓State.modAcct_erase, ↓State.modStream_erase, apply_ite (State.erase mk), ite_self] | (refine (erase_foldl (fun t a => ?_) _ _).trans ?_) | (refine (erase_foldl1 (fun t a => ?_) _ _).trans ?_) | split)

theorem clearMark_erase (s : State) (a : ℕ) (n : ℕ) {mk : Nat} (hk : 0x5800 &&& mk = 0x5800) : ((clearMark s a n)).erase mk = s.erase mk := by
  unfold clearMark
  repeat' (first | with_reducible rfl | with_reducible refine erase_ite ?_ ?_ | simp (disch := exact sub_trans rfl hk) only [↓State.modAcct_erase, ↓State.modStream_erase, ↓State.assistRecord_erase, apply_ite (State.erase mk), ite_self] | (refine (erase_foldl (fun t a => ?_) _ _).trans ?_) | (refine (erase_foldl1 (fun t a => ?_) _ _).trans ?_) | split)

theorem trackLow_erase (s : State) (a : ℕ) {mk : Nat} (hk : 0x4000 &&& mk = 0x4000) : ((trackLow s a)).erase mk = s.erase mk := by
  unfold trackLow
  repeat' (first | with_reducible rfl | with_reducible refine erase_ite ?_ ?_ | simp (disch := exact sub_trans rfl hk) only [↓State.modAcct_erase, apply_ite (State.erase mk), ite_self] | (refine (erase_foldl (fun t a => ?_) _ _).trans ?_) | (refine (erase_foldl1 (fun t a => ?_) _ _).trans ?_) | split)

theorem hostAssist_erase (s : State) (a : ℕ) {mk : Nat} (hk : 0x5800 &&& mk = 0x5800) : ((hostAssist s a)).erase mk = s.erase mk := by
  unfold hostAssist
  repeat' (first | with_reducible rfl | with_reducible refine erase_ite ?_ ?_ | simp (disch := exact sub_trans rfl hk) only [↓markStream_erase, ↓trackLow_erase, apply_ite (State.erase mk), ite_self] | (refine (erase_foldl (fun t a => ?_) _ _).trans ?_) | (refine (erase_foldl1 (fun t a => ?_) _ _).trans ?_) | split)

theorem trackAll_erase (s : State) {mk : Nat} (hk : 0x4000 &&& mk = 0x4000) : ((trackAll s)).erase mk = s.erase mk := by
  unfold trackAll
  repeat' (first | with_reducible rfl | with_reducible refine erase_ite ?_ ?_ | simp (disch := exact sub_trans rfl hk) only [↓trackLow_erase, apply_ite (State.erase mk), ite_self] | (refine (erase_foldl (fun t a => ?_) _ _).trans ?_) | (refine (erase_foldl1 (fun t a => ?_) _ _).trans ?_) | split)

theorem clearAllMarks_erase (s : State) {mk : Nat} (hk : 0x5800 &&& mk = 0x5800) : ((clearAllMarks s)).erase mk = s.erase mk := by
  unfold clearAllMarks
  repeat' (first | with_reducible rfl | with_reducible refine erase_ite ?_ ?_ | simp (disch := exact sub_trans rfl hk) only [↓trackAll_erase, ↓clearMark_erase, apply_ite (State.erase mk), ite_self] | (refine (erase_foldl (fun t a => ?_) _ _).trans ?_) | (refine (erase_foldl1 (fun t a => ?_) _ _).trans ?_) | split)

theorem clearLoop_erase (a : ℕ) (y1 : List ℕ) (y2 : State) {mk : Nat} (hk : 0x5800 &&& mk = 0x5800) : ((clearLoop a y1 y2)).erase mk = y2.erase mk := by
  induction y1 generalizing y2 with
  | nil => rfl
  | cons b l ih =>
    unfold clearLoop
    repeat' (first | with_reducible rfl | with_reducible refine erase_ite ?_ ?_ | simp (disch := exact sub_trans rfl hk) only [↓ih, ↓clearMark_erase, apply_ite (State.erase mk), ite_self] | (refine (erase_foldl (fun t a => ?_) _ _).trans ?_) | (refine (erase_foldl1 (fun t a => ?_) _ _).trans ?_) | split)

theorem execHostAssistClear_erase (a : ℕ) (s : State) {mk : Nat} (hk : 0x5c00 &&& mk = 0x5c00) (tx : State) (ex : (execHostAssistClear a s) = .next tx) : tx.erase mk = s.erase mk := by
  unfold execHostAssistClear done at ex
  injection ex with ex
  subst ex
  repeat' (first | with_reducible rfl | with_reducible refine erase_ite ?_ ?_ | simp (disch := exact sub_trans rfl hk) only [↓State.atElapsed_erase, ↓clearLoop_erase, apply_ite (State.erase mk), ite_self] | (refine (erase_foldl (fun t a => ?_) _ _).trans ?_) | (refine (erase_foldl1 (fun t a => ?_) _ _).trans ?_) | split)

theorem queueSample_erase (s : State) (a : ℕ) (p : Picture) {mk : Nat} (hk : 0x8000 &&& mk = 0x8000) : ((queueSample s a p)).erase mk = s.erase mk := by
  unfold queueSample
  repeat' (first | with_reducible rfl | with_reducible refine erase_ite ?_ ?_ | simp (disch := exact sub_trans rfl hk) only [↓State.setRolling_erase, apply_ite (State.erase mk), ite_self] | (refine (erase_foldl (fun t a => ?_) _ _).trans ?_) | (refine (erase_foldl1 (fun t a => ?_) _ _).trans ?_) | split)

theorem flushHost_erase (y0 : ℕ) (y1 : State) (y2 : ℕ) (y3 : ℕ) {mk : Nat} (hk : 0xd000 &&& mk = 0xd000) : ((flushHost y0 y1 y2 y3)).erase mk = y1.erase mk := by
  induction y0 generalizing y1 with
  | zero => rfl
  | succ k ih =>
    unfold flushHost
    repeat' (first | with_reducible rfl | with_reducible refine erase_ite ?_ ?_ | simp (disch := exact sub_trans rfl hk) only [↓ih, ↓State.modAcct_erase, ↓State.modStream_erase, ↓queueSample_erase, apply_ite (State.erase mk), ite_self] | (refine (erase_foldl (fun t a => ?_) _ _).trans ?_) | (refine (erase_foldl1 (fun t a => ?_) _ _).trans ?_) | split)

theorem flushStream_erase (s : State) (a : ℕ) (n : ℕ) {mk : Nat} (hk : 0xd000 &&& mk = 0xd000) : ((flushStream s a n)).erase mk = s.erase mk := by
  unfold flushStream
  repeat' (first | with_reducible rfl | with_reducible refine erase_ite ?_ ?_ | simp (disch := exact sub_trans rfl hk) only [↓flushHost_erase, apply_ite (State.erase mk), ite_self] | (refine (erase_foldl (fun t a => ?_) _ _).trans ?_) | (refine (erase_foldl1 (fun t a => ?_) _ _).trans ?_) | split)

theorem shedPicture_erase (s : State) (a : ℕ) (p : Picture) {mk : Nat} (hk : 0xd000 &&& mk = 0xd000) : ((shedPicture s a p)).erase mk = s.erase mk := by
  unfold shedPicture
  repeat' (first | with_reducible rfl | with_reducible refine erase_ite ?_ ?_ | simp (disch := exact sub_trans rfl hk) only [↓State.modAcct_erase, ↓flushStream_erase, ↓trackLow_erase, ↓State.modStream_erase, apply_ite (State.erase mk), ite_self] | (refine (erase_foldl (fun t a => ?_) _ _).trans ?_) | (refine (erase_foldl1 (fun t a => ?_) _ _).trans ?_) | split)

theorem execPictureDeadline_erase (n : ℕ) (tick : ℕ) (s : State) {mk : Nat} (hk : 0xd400 &&& mk = 0xd400) (tx : State) (ex : (execPictureDeadline n tick s) = .next tx) : tx.erase mk = s.erase mk := by
  unfold execPictureDeadline done at ex
  injection ex with ex
  subst ex
  repeat' (first | with_reducible rfl | with_reducible refine erase_ite ?_ ?_ | simp (disch := exact sub_trans rfl hk) only [↓shedPicture_erase, ↓State.atStation_erase, apply_ite (State.erase mk), ite_self] | (refine (erase_foldl (fun t a => ?_) _ _).trans ?_) | (refine (erase_foldl1 (fun t a => ?_) _ _).trans ?_) | split)

theorem tensorPush_erase (s : State) (n : ℕ) (len : ℕ) (addr : ℕ) (tick : ℕ) {mk : Nat} (hk : 0xd000 &&& mk = 0xd000) : (tensorPush s n len addr tick).1.erase mk = s.erase mk := by
  unfold tensorPush
  repeat' (first | with_reducible rfl | with_reducible refine erase_ite ?_ ?_ | simp (disch := exact sub_trans rfl hk) only [↓State.modStream_erase, ↓flushStream_erase, apply_ite (State.erase mk), ite_self] | (refine (erase_foldl (fun t a => ?_) _ _).trans ?_) | (refine (erase_foldl1 (fun t a => ?_) _ _).trans ?_) | split)

theorem execPreprocessStart_erase (a : ℕ) (s : State) {mk : Nat} (hk : 0x5800 &&& mk = 0x5800) (tx : State) (ex : (execPreprocessStart a s) = .next tx) : tx.erase mk = s.erase mk := by
  unfold execPreprocessStart done at ex
  injection ex with ex
  subst ex
  repeat' (first | with_reducible rfl | with_reducible refine erase_ite ?_ ?_ | simp (disch := exact sub_trans rfl hk) only [↓hostAssist_erase, ↓State.modAcct_erase, ↓State.modStream_erase, apply_ite (State.erase mk), ite_self] | (refine (erase_foldl (fun t a => ?_) _ _).trans ?_) | (refine (erase_foldl1 (fun t a => ?_) _ _).trans ?_) | split)

theorem execPreprocessComplete_erase (a : ℕ) (stream : ℕ) (tick : ℕ) (page : ℕ) (s : State) {mk : Nat} (hk : 0x6100001d800 &&& mk = 0x6100001d800) (tx : State) (ex : (execPreprocessComplete a stream tick page s) = .next tx) : tx.erase mk = s.erase mk := by
  unfold execPreprocessComplete done at ex
  injection ex with ex
  subst ex
  repeat' (first | with_reducible rfl | with_reducible refine erase_ite ?_ ?_ | simp (disch := exact sub_trans rfl hk) only [↓State.modAcct_erase, ↓flushStream_erase, ↓restartStream_erase, ↓State.store_erase, ↓State.modStream_erase, ↓queueSample_erase, ↓State.chargeMedia_erase, ↓put_preConvSat, apply_ite (State.erase mk), ite_self] | (refine (erase_foldl (fun t a => ?_) _ _).trans ?_) | (refine (erase_foldl1 (fun t a => ?_) _ _).trans ?_) | split)

theorem joinLoop_erase (y0 : ℕ) (y1 : State) (y2 : ℕ) (y3 : ℕ) {mk : Nat} (hk : 0x209800 &&& mk = 0x209800) : ((joinLoop y0 y1 y2 y3)).erase mk = y1.erase mk := by
  induction y0 generalizing y1 with
  | zero => rfl
  | succ k ih =>
    unfold joinLoop
    repeat' (first | with_reducible rfl | with_reducible refine erase_ite ?_ ?_ | simp (disch := exact sub_trans rfl hk) only [↓ih, ↓State.modStream_erase, ↓State.setRolling_erase, ↓State.modRegion_erase, ↓State.emit_erase, apply_ite (State.erase mk), ite_self] | (refine (erase_foldl (fun t a => ?_) _ _).trans ?_) | (refine (erase_foldl1 (fun t a => ?_) _ _).trans ?_) | split)

theorem releaseMember_erase (s : State) (g : ℕ) (x : Member) {mk : Nat} (hk : 0x200000 &&& mk = 0x200000) : ((releaseMember s g x)).erase mk = s.erase mk := by
  unfold releaseMember
  repeat' (first | with_reducible rfl | with_reducible refine erase_ite ?_ ?_ | simp (disch := exact sub_trans rfl hk) only [↓State.modRegion_erase, apply_ite (State.erase mk), ite_self] | (refine (erase_foldl (fun t a => ?_) _ _).trans ?_) | (refine (erase_foldl1 (fun t a => ?_) _ _).trans ?_) | split)

theorem finishMember_erase (s : State) (g : ℕ) (a : ℕ) (x : Member) {mk : Nat} (hk : 0x1001000001000 &&& mk = 0x1001000001000) : ((finishMember s g a x)).erase mk = s.erase mk := by
  unfold finishMember
  repeat' (first | with_reducible rfl | with_reducible refine erase_ite ?_ ?_ | simp (disch := exact sub_trans rfl hk) only [↓checkpoint_erase, ↓State.modTill_erase, apply_ite (State.erase mk), ite_self] | (refine (erase_foldl (fun t a => ?_) _ _).trans ?_) | (refine (erase_foldl1 (fun t a => ?_) _ _).trans ?_) | split)

theorem stepBoundary_erase (s : State) (g : ℕ) (a : ℕ) {mk : Nat} (hk : 0x1001000209800 &&& mk = 0x1001000209800) : ((stepBoundary s g a)).erase mk = s.erase mk := by
  unfold stepBoundary
  repeat' (first | with_reducible rfl | with_reducible refine erase_ite ?_ ?_ | simp (disch := exact sub_trans rfl hk) only [↓State.setRolling_erase, ↓releaseMember_erase, ↓finishMember_erase, ↓joinLoop_erase, apply_ite (State.erase mk), ite_self] | (refine (erase_foldl (fun t a => ?_) _ _).trans ?_) | (refine (erase_foldl1 (fun t a => ?_) _ _).trans ?_) | split)

theorem removeMember_erase (s : State) (g : ℕ) (a : ℕ) (n : ℕ) (status : ℕ) (tile : ℕ) {mk : Nat} (hk : 0x9800 &&& mk = 0x9800) : ((removeMember s g a n status tile)).erase mk = s.erase mk := by
  unfold removeMember
  repeat' (first | with_reducible rfl | with_reducible refine erase_ite ?_ ?_ | simp (disch := exact sub_trans rfl hk) only [↓State.setRolling_erase, ↓State.emit_erase, ↓restartStream_erase, ↓State.emitAll_erase, apply_ite (State.erase mk), ite_self] | (refine (erase_foldl (fun t a => ?_) _ _).trans ?_) | (refine (erase_foldl1 (fun t a => ?_) _ _).trans ?_) | split)

theorem State.setPage_erase (s : State) (src : Src) (p : Page) {mk : Nat} (hk : 0x800000200 &&& mk = 0x800000200) : ((State.setPage s src p)).erase mk = s.erase mk := by
  unfold State.setPage
  repeat' (first | with_reducible rfl | with_reducible refine erase_ite ?_ ?_ | simp (disch := exact sub_trans rfl hk) only [↓State.trace_erase, ↓put_stl, apply_ite (State.erase mk), ite_self] | (refine (erase_foldl (fun t a => ?_) _ _).trans ?_) | (refine (erase_foldl1 (fun t a => ?_) _ _).trans ?_) | split)

theorem State.pageDone_erase (s : State) (src : Src) (status : ℕ) (reason : ℕ) (entry : ℕ) {mk : Nat} (hk : 0x800000200 &&& mk = 0x800000200) : ((State.pageDone s src status reason entry)).erase mk = s.erase mk := by
  unfold State.pageDone
  repeat' (first | with_reducible rfl | with_reducible refine erase_ite ?_ ?_ | simp (disch := exact sub_trans rfl hk) only [↓State.setPage_erase, apply_ite (State.erase mk), ite_self] | (refine (erase_foldl (fun t a => ?_) _ _).trans ?_) | (refine (erase_foldl1 (fun t a => ?_) _ _).trans ?_) | split)

theorem State.stlReject_erase (s : State) (src : Src) (op : ℕ) {mk : Nat} (hk : 0x800000200 &&& mk = 0x800000200) : ((State.stlReject s src op)).erase mk = s.erase mk := by
  unfold State.stlReject
  repeat' (first | with_reducible rfl | with_reducible refine erase_ite ?_ ?_ | simp (disch := exact sub_trans rfl hk) only [↓State.setPage_erase, ↓State.countReject_erase, apply_ite (State.erase mk), ite_self] | (refine (erase_foldl (fun t a => ?_) _ _).trans ?_) | (refine (erase_foldl1 (fun t a => ?_) _ _).trans ?_) | split)

theorem stlCommand_erase (s : State) (page via : Src) (op : Nat) (f : State → State) {mk : Nat} (hk : 0x800000200 &&& mk = 0x800000200)
    (hf : ∀ t, (f t).erase mk = t.erase mk) : (stlCommand s page via op f).erase mk = s.erase mk := by
  unfold stlCommand
  repeat' (first | with_reducible rfl | simp (disch := exact sub_trans rfl hk) only [↓State.stlReject_erase, ↓hf] | split)

theorem openBatch_erase (page : Src) (s : State) {mk : Nat} (hk : 0x800000200 &&& mk = 0x800000200) : ((openBatch page s)).erase mk = s.erase mk := by
  unfold openBatch
  repeat' (first | with_reducible rfl | with_reducible refine erase_ite ?_ ?_ | simp (disch := exact sub_trans rfl hk) only [↓State.stlReject_erase, ↓State.setPage_erase, apply_ite (State.erase mk), ite_self] | (refine (erase_foldl (fun t a => ?_) _ _).trans ?_) | (refine (erase_foldl1 (fun t a => ?_) _ _).trans ?_) | split)

theorem execStlOpen_erase (page : Src) (via : Src) (s : State) {mk : Nat} (hk : 0x800000200 &&& mk = 0x800000200) (tx : State) (ex : (execStlOpen page via s) = .next tx) : tx.erase mk = s.erase mk := by
  unfold execStlOpen done at ex
  injection ex with ex
  subst ex
  repeat' (first | refine stlCommand_erase _ _ _ _ _ (sub_trans rfl hk) (fun t => ?_) | with_reducible rfl | with_reducible refine erase_ite ?_ ?_ | simp (disch := exact sub_trans rfl hk) only [↓openBatch_erase, apply_ite (State.erase mk), ite_self] | (refine (erase_foldl (fun t a => ?_) _ _).trans ?_) | (refine (erase_foldl1 (fun t a => ?_) _ _).trans ?_) | split)

theorem stageBatch_erase (page : Src) (count : ℕ) (s : State) {mk : Nat} (hk : 0x800000200 &&& mk = 0x800000200) : ((stageBatch page count s)).erase mk = s.erase mk := by
  unfold stageBatch
  repeat' (first | with_reducible rfl | with_reducible refine erase_ite ?_ ?_ | simp (disch := exact sub_trans rfl hk) only [↓State.stlReject_erase, ↓State.setPage_erase, apply_ite (State.erase mk), ite_self] | (refine (erase_foldl (fun t a => ?_) _ _).trans ?_) | (refine (erase_foldl1 (fun t a => ?_) _ _).trans ?_) | split)

theorem execStlStage_erase (page : Src) (via : Src) (count : ℕ) (s : State) {mk : Nat} (hk : 0x800000200 &&& mk = 0x800000200) (tx : State) (ex : (execStlStage page via count s) = .next tx) : tx.erase mk = s.erase mk := by
  unfold execStlStage done at ex
  injection ex with ex
  subst ex
  repeat' (first | refine stlCommand_erase _ _ _ _ _ (sub_trans rfl hk) (fun t => ?_) | with_reducible rfl | with_reducible refine erase_ite ?_ ?_ | simp (disch := exact sub_trans rfl hk) only [↓stageBatch_erase, apply_ite (State.erase mk), ite_self] | (refine (erase_foldl (fun t a => ?_) _ _).trans ?_) | (refine (erase_foldl1 (fun t a => ?_) _ _).trans ?_) | split)

theorem State.checkFailed_erase (s : State) (page : Src) (f : Failure) {mk : Nat} (hk : 0x800000200 &&& mk = 0x800000200) : ((State.checkFailed s page f)).erase mk = s.erase mk := by
  unfold State.checkFailed
  repeat' (first | with_reducible rfl | with_reducible refine erase_ite ?_ ?_ | simp (disch := exact sub_trans rfl hk) only [↓State.pageDone_erase, apply_ite (State.erase mk), ite_self] | (refine (erase_foldl (fun t a => ?_) _ _).trans ?_) | (refine (erase_foldl1 (fun t a => ?_) _ _).trans ?_) | split)

end Sys2Proof.Machine
end

