-- ==== Sys2Proof/Laws/Frames2.lean ====
section
/-! SUPPORT. What each operation may write, as masks of parts (see Laws/Frame.lean): part 2, in the order of the model. -/

set_option linter.all false

namespace Sys2Proof.Machine
open State

theorem checkBatch_erase (page : Src) (s : State) {mk : Nat} (hk : 0x800000200 &&& mk = 0x800000200) : ((checkBatch page s)).erase mk = s.erase mk := by
  unfold checkBatch
  repeat' (first | with_reducible rfl | with_reducible refine erase_ite ?_ ?_ | simp (disch := exact sub_trans rfl hk) only [↓State.stlReject_erase, ↓State.checkFailed_erase, ↓State.pageDone_erase, apply_ite (State.erase mk), ite_self] | (refine (erase_foldl (fun t a => ?_) _ _).trans ?_) | (refine (erase_foldl1 (fun t a => ?_) _ _).trans ?_) | split)

theorem execStlCheck_erase (page : Src) (via : Src) (s : State) {mk : Nat} (hk : 0x800000200 &&& mk = 0x800000200) (tx : State) (ex : (execStlCheck page via s) = .next tx) : tx.erase mk = s.erase mk := by
  unfold execStlCheck done at ex
  injection ex with ex
  subst ex
  repeat' (first | refine stlCommand_erase _ _ _ _ _ (sub_trans rfl hk) (fun t => ?_) | with_reducible rfl | with_reducible refine erase_ite ?_ ?_ | simp (disch := exact sub_trans rfl hk) only [↓checkBatch_erase, apply_ite (State.erase mk), ite_self] | (refine (erase_foldl (fun t a => ?_) _ _).trans ?_) | (refine (erase_foldl1 (fun t a => ?_) _ _).trans ?_) | split)

theorem discardBatch_erase (page : Src) (s : State) {mk : Nat} (hk : 0x800000200 &&& mk = 0x800000200) : ((discardBatch page s)).erase mk = s.erase mk := by
  unfold discardBatch
  repeat' (first | with_reducible rfl | with_reducible refine erase_ite ?_ ?_ | simp (disch := exact sub_trans rfl hk) only [↓State.stlReject_erase, ↓State.setPage_erase, apply_ite (State.erase mk), ite_self] | (refine (erase_foldl (fun t a => ?_) _ _).trans ?_) | (refine (erase_foldl1 (fun t a => ?_) _ _).trans ?_) | split)

theorem execStlDiscard_erase (page : Src) (via : Src) (s : State) {mk : Nat} (hk : 0x800000200 &&& mk = 0x800000200) (tx : State) (ex : (execStlDiscard page via s) = .next tx) : tx.erase mk = s.erase mk := by
  unfold execStlDiscard done at ex
  injection ex with ex
  subst ex
  repeat' (first | refine stlCommand_erase _ _ _ _ _ (sub_trans rfl hk) (fun t => ?_) | with_reducible rfl | with_reducible refine erase_ite ?_ ?_ | simp (disch := exact sub_trans rfl hk) only [↓discardBatch_erase, apply_ite (State.erase mk), ite_self] | (refine (erase_foldl (fun t a => ?_) _ _).trans ?_) | (refine (erase_foldl1 (fun t a => ?_) _ _).trans ?_) | split)

theorem State.settledCause_erase (s : State) (src : Src) {mk : Nat} (hk : 0x80000004 &&& mk = 0x80000004) : ((State.settledCause s src)).erase mk = s.erase mk := by
  unfold State.settledCause
  repeat' (first | with_reducible rfl | with_reducible refine erase_ite ?_ ?_ | simp (disch := exact sub_trans rfl hk) only [↓State.raise_erase, apply_ite (State.erase mk), ite_self] | (refine (erase_foldl (fun t a => ?_) _ _).trans ?_) | (refine (erase_foldl1 (fun t a => ?_) _ _).trans ?_) | split)

theorem dropBatch_erase (s : State) (b : Batch) (status : ℕ) (reason : ℕ) (entry : ℕ) {mk : Nat} (hk : 0x888000204 &&& mk = 0x888000204) : ((dropBatch s b status reason entry)).erase mk = s.erase mk := by
  unfold dropBatch
  repeat' (first | with_reducible rfl | with_reducible refine erase_ite ?_ ?_ | simp (disch := exact sub_trans rfl hk) only [↓State.settledCause_erase, ↓State.setPage_erase, ↓put_stl_adapt, apply_ite (State.erase mk), ite_self] | (refine (erase_foldl (fun t a => ?_) _ _).trans ?_) | (refine (erase_foldl1 (fun t a => ?_) _ _).trans ?_) | split)

theorem abortBatch_erase (s : State) (status : ℕ) (reason : ℕ) (check : ℕ) (entry : Option ℕ) {mk : Nat} (hk : 0x888000a04 &&& mk = 0x888000a04) : ((abortBatch s status reason check entry)).erase mk = s.erase mk := by
  unfold abortBatch
  repeat' (first | with_reducible rfl | with_reducible refine erase_ite ?_ ?_ | simp (disch := exact sub_trans rfl hk) only [↓dropBatch_erase, ↓State.emit_erase, apply_ite (State.erase mk), ite_self] | (refine (erase_foldl (fun t a => ?_) _ _).trans ?_) | (refine (erase_foldl1 (fun t a => ?_) _ _).trans ?_) | split)

theorem abortOnCheck_erase (s : State) (f : Failure) {mk : Nat} (hk : 0x888000a04 &&& mk = 0x888000a04) : ((abortOnCheck s f)).erase mk = s.erase mk := by
  unfold abortOnCheck
  repeat' (first | with_reducible rfl | with_reducible refine erase_ite ?_ ?_ | simp (disch := exact sub_trans rfl hk) only [↓abortBatch_erase, apply_ite (State.erase mk), ite_self] | (refine (erase_foldl (fun t a => ?_) _ _).trans ?_) | (refine (erase_foldl1 (fun t a => ?_) _ _).trans ?_) | split)

theorem armWhenReady_erase (s : State) {mk : Nat} (hk : 0x888000a04 &&& mk = 0x888000a04) : ((armWhenReady s)).erase mk = s.erase mk := by
  unfold armWhenReady
  repeat' (first | with_reducible rfl | with_reducible refine erase_ite ?_ ?_ | simp (disch := exact sub_trans rfl hk) only [↓abortOnCheck_erase, ↓put_stl, apply_ite (State.erase mk), ite_self] | (refine (erase_foldl (fun t a => ?_) _ _).trans ?_) | (refine (erase_foldl1 (fun t a => ?_) _ _).trans ?_) | split)

theorem commitBatch_erase (page : Src) (op : ℕ) (at_ : CommitAt) (s : State) {mk : Nat} (hk : 0x888000a04 &&& mk = 0x888000a04) : ((commitBatch page op at_ s)).erase mk = s.erase mk := by
  unfold commitBatch
  repeat' (first | with_reducible rfl | with_reducible refine erase_ite ?_ ?_ | simp (disch := exact sub_trans rfl hk) only [↓State.stlReject_erase, ↓State.checkFailed_erase, ↓State.setPage_erase, ↓armWhenReady_erase, ↓put_stl, apply_ite (State.erase mk), ite_self] | (refine (erase_foldl (fun t a => ?_) _ _).trans ?_) | (refine (erase_foldl1 (fun t a => ?_) _ _).trans ?_) | split)

theorem execCommitAtTime_erase (page : Src) (via : Src) (s : State) {mk : Nat} (hk : 0x888000a04 &&& mk = 0x888000a04) (tx : State) (ex : (execCommitAtTime page via s) = .next tx) : tx.erase mk = s.erase mk := by
  unfold execCommitAtTime done at ex
  injection ex with ex
  subst ex
  repeat' (first | refine stlCommand_erase _ _ _ _ _ (sub_trans rfl hk) (fun t => ?_) | with_reducible rfl | with_reducible refine erase_ite ?_ ?_ | simp (disch := exact sub_trans rfl hk) only [↓commitBatch_erase, apply_ite (State.erase mk), ite_self] | (refine (erase_foldl (fun t a => ?_) _ _).trans ?_) | (refine (erase_foldl1 (fun t a => ?_) _ _).trans ?_) | split)

theorem execCommitAtEvent_erase (page : Src) (via : Src) (s : State) {mk : Nat} (hk : 0x888000a04 &&& mk = 0x888000a04) (tx : State) (ex : (execCommitAtEvent page via s) = .next tx) : tx.erase mk = s.erase mk := by
  unfold execCommitAtEvent done at ex
  injection ex with ex
  subst ex
  repeat' (first | refine stlCommand_erase _ _ _ _ _ (sub_trans rfl hk) (fun t => ?_) | with_reducible rfl | with_reducible refine erase_ite ?_ ?_ | simp (disch := exact sub_trans rfl hk) only [↓commitBatch_erase, apply_ite (State.erase mk), ite_self] | (refine (erase_foldl (fun t a => ?_) _ _).trans ?_) | (refine (erase_foldl1 (fun t a => ?_) _ _).trans ?_) | split)

theorem abortCommand_erase (page : Src) (s : State) {mk : Nat} (hk : 0x888000204 &&& mk = 0x888000204) : ((abortCommand page s)).erase mk = s.erase mk := by
  unfold abortCommand
  repeat' (first | with_reducible rfl | with_reducible refine erase_ite ?_ ?_ | simp (disch := exact sub_trans rfl hk) only [↓State.stlReject_erase, ↓dropBatch_erase, apply_ite (State.erase mk), ite_self] | (refine (erase_foldl (fun t a => ?_) _ _).trans ?_) | (refine (erase_foldl1 (fun t a => ?_) _ _).trans ?_) | split)

theorem execStlAbort_erase (page : Src) (via : Src) (s : State) {mk : Nat} (hk : 0x888000204 &&& mk = 0x888000204) (tx : State) (ex : (execStlAbort page via s) = .next tx) : tx.erase mk = s.erase mk := by
  unfold execStlAbort done at ex
  injection ex with ex
  subst ex
  repeat' (first | refine stlCommand_erase _ _ _ _ _ (sub_trans rfl hk) (fun t => ?_) | with_reducible rfl | with_reducible refine erase_ite ?_ ?_ | simp (disch := exact sub_trans rfl hk) only [↓abortCommand_erase, apply_ite (State.erase mk), ite_self] | (refine (erase_foldl (fun t a => ?_) _ _).trans ?_) | (refine (erase_foldl1 (fun t a => ?_) _ _).trans ?_) | split)

theorem prepareAck_erase (u : StlUnit) (s : State) {mk : Nat} (hk : 0x888000a04 &&& mk = 0x888000a04) : ((prepareAck u s)).erase mk = s.erase mk := by
  unfold prepareAck
  repeat' (first | with_reducible rfl | with_reducible refine erase_ite ?_ ?_ | simp (disch := exact sub_trans rfl hk) only [↓abortBatch_erase, ↓armWhenReady_erase, ↓put_stl, apply_ite (State.erase mk), ite_self] | (refine (erase_foldl (fun t a => ?_) _ _).trans ?_) | (refine (erase_foldl1 (fun t a => ?_) _ _).trans ?_) | split)

theorem execSettlementPrepareAck_erase (u : StlUnit) (s : State) {mk : Nat} (hk : 0x888000a04 &&& mk = 0x888000a04) (tx : State) (ex : (execSettlementPrepareAck u s) = .next tx) : tx.erase mk = s.erase mk := by
  unfold execSettlementPrepareAck done at ex
  injection ex with ex
  subst ex
  repeat' (first | with_reducible rfl | with_reducible refine erase_ite ?_ ?_ | simp (disch := exact sub_trans rfl hk) only [↓prepareAck_erase, apply_ite (State.erase mk), ite_self] | (refine (erase_foldl (fun t a => ?_) _ _).trans ?_) | (refine (erase_foldl1 (fun t a => ?_) _ _).trans ?_) | split)

theorem preInstant_erase (s : State) {mk : Nat} (hk : 0x888000e04 &&& mk = 0x888000e04) : ((preInstant s)).erase mk = s.erase mk := by
  unfold preInstant
  repeat' (first | with_reducible rfl | with_reducible refine erase_ite ?_ ?_ | simp (disch := exact sub_trans rfl hk) only [↓State.atStation_erase, ↓abortBatch_erase, ↓abortOnCheck_erase, ↓put_stl, apply_ite (State.erase mk), ite_self] | (refine (erase_foldl (fun t a => ?_) _ _).trans ?_) | (refine (erase_foldl1 (fun t a => ?_) _ _).trans ?_) | split)

theorem execPreInstantRecheck_erase (s : State) {mk : Nat} (hk : 0x888000e04 &&& mk = 0x888000e04) (tx : State) (ex : (execPreInstantRecheck s) = .next tx) : tx.erase mk = s.erase mk := by
  unfold execPreInstantRecheck done at ex
  injection ex with ex
  subst ex
  repeat' (first | with_reducible rfl | with_reducible refine erase_ite ?_ ?_ | simp (disch := exact sub_trans rfl hk) only [↓preInstant_erase, apply_ite (State.erase mk), ite_self] | (refine (erase_foldl (fun t a => ?_) _ _).trans ?_) | (refine (erase_foldl1 (fun t a => ?_) _ _).trans ?_) | split)

theorem eventTimeout_erase (s : State) {mk : Nat} (hk : 0x888000e04 &&& mk = 0x888000e04) : ((eventTimeout s)).erase mk = s.erase mk := by
  unfold eventTimeout
  repeat' (first | with_reducible rfl | with_reducible refine erase_ite ?_ ?_ | simp (disch := exact sub_trans rfl hk) only [↓abortBatch_erase, ↓State.atElapsed_erase, apply_ite (State.erase mk), ite_self] | (refine (erase_foldl (fun t a => ?_) _ _).trans ?_) | (refine (erase_foldl1 (fun t a => ?_) _ _).trans ?_) | split)

theorem execEventTimeout_erase (s : State) {mk : Nat} (hk : 0x888000e04 &&& mk = 0x888000e04) (tx : State) (ex : (execEventTimeout s) = .next tx) : tx.erase mk = s.erase mk := by
  unfold execEventTimeout done at ex
  injection ex with ex
  subst ex
  repeat' (first | with_reducible rfl | with_reducible refine erase_ite ?_ ?_ | simp (disch := exact sub_trans rfl hk) only [↓eventTimeout_erase, apply_ite (State.erase mk), ite_self] | (refine (erase_foldl (fun t a => ?_) _ _).trans ?_) | (refine (erase_foldl1 (fun t a => ?_) _ _).trans ?_) | split)

theorem capacityChanged_erase (s : State) (lost : List StlUnit) {mk : Nat} (hk : 0x888000a04 &&& mk = 0x888000a04) : ((capacityChanged s lost)).erase mk = s.erase mk := by
  unfold capacityChanged
  repeat' (first | with_reducible rfl | with_reducible refine erase_ite ?_ ?_ | simp (disch := exact sub_trans rfl hk) only [↓abortOnCheck_erase, ↓abortBatch_erase, ↓put_stl, apply_ite (State.erase mk), ite_self] | (refine (erase_foldl (fun t a => ?_) _ _).trans ?_) | (refine (erase_foldl1 (fun t a => ?_) _ _).trans ?_) | split)

theorem internalBatch_erase (s : State) (es : List Entry) (new : Cfg) (at_ : ℕ) (adoption : Bool) (failover : Bool) (overlay : Option (List OverlayItem)) {mk : Nat} (hk : 0x800000200 &&& mk = 0x800000200) : ((internalBatch s es new at_ adoption failover overlay)).erase mk = s.erase mk := by
  unfold internalBatch
  repeat' (first | with_reducible rfl | with_reducible refine erase_ite ?_ ?_ | simp (disch := exact sub_trans rfl hk) only [↓State.checkFailed_erase, ↓State.setPage_erase, ↓put_stl, apply_ite (State.erase mk), ite_self] | (refine (erase_foldl (fun t a => ?_) _ _).trans ?_) | (refine (erase_foldl1 (fun t a => ?_) _ _).trans ?_) | split)

theorem State.adpRecord_erase (s : State) (type : ℕ) (status : ℕ) (p : AdpPl) (stream : ℕ) (tick : ℕ) {mk : Nat} (hk : 0x800 &&& mk = 0x800) : ((State.adpRecord s type status p stream tick)).erase mk = s.erase mk := by
  unfold State.adpRecord
  repeat' (first | with_reducible rfl | with_reducible refine erase_ite ?_ ?_ | simp (disch := exact sub_trans rfl hk) only [↓State.emit_erase, apply_ite (State.erase mk), ite_self] | (refine (erase_foldl (fun t a => ?_) _ _).trans ?_) | (refine (erase_foldl1 (fun t a => ?_) _ _).trans ?_) | split)

theorem captureSample_erase (s : State) (f : Member) (label : ℕ) (box : Box) {mk : Nat} (hk : 0x8001800 &&& mk = 0x8001800) : ((captureSample s f label box)).erase mk = s.erase mk := by
  unfold captureSample
  repeat' (first | with_reducible rfl | with_reducible refine erase_ite ?_ ?_ | simp (disch := exact sub_trans rfl hk) only [↓State.setStream_erase, ↓State.adpRecord_erase, ↓put_adapt, apply_ite (State.erase mk), ite_self] | (refine (erase_foldl (fun t a => ?_) _ _).trans ?_) | (refine (erase_foldl1 (fun t a => ?_) _ _).trans ?_) | split)

theorem labelSample_erase (s : State) (payload : List Byte) {mk : Nat} (hk : 0x8000000 &&& mk = 0x8000000) : (labelSample s payload).1.erase mk = s.erase mk := by
  unfold labelSample
  repeat' (first | with_reducible rfl | with_reducible refine erase_ite ?_ ?_ | simp (disch := exact sub_trans rfl hk) only [↓put_adapt, apply_ite (State.erase mk), ite_self] | (refine (erase_foldl (fun t a => ?_) _ _).trans ?_) | (refine (erase_foldl1 (fun t a => ?_) _ _).trans ?_) | split)

theorem makeTensors_erase (s : State) (ts : List (List Byte × ℕ)) {mk : Nat} (hk : 0x8010000 &&& mk = 0x8010000) : ((makeTensors s ts)).erase mk = s.erase mk := by
  unfold makeTensors
  repeat' (first | with_reducible rfl | with_reducible refine erase_ite ?_ ?_ | simp (disch := exact sub_trans rfl hk) only [↓put_preConvSat_adapt, apply_ite (State.erase mk), ite_self] | (refine (erase_foldl (fun t a => ?_) _ _).trans ?_) | (refine (erase_foldl1 (fun t a => ?_) _ _).trans ?_) | split)

theorem countStep_erase (s : State) (t : Tally) {mk : Nat} (hk : 0x40000 &&& mk = 0x40000) : ((countStep s t)).erase mk = s.erase mk := by
  unfold countStep
  repeat' (first | with_reducible rfl | with_reducible refine erase_ite ?_ ?_ | simp (disch := exact sub_trans rfl hk) only [↓State.modEngine_erase, apply_ite (State.erase mk), ite_self] | (refine (erase_foldl (fun t a => ?_) _ _).trans ?_) | (refine (erase_foldl1 (fun t a => ?_) _ _).trans ?_) | split)

theorem writeCheckpoints_erase (s : State) (j : Job) {mk : Nat} (hk : 0x8000020 &&& mk = 0x8000020) : ((writeCheckpoints s j)).erase mk = s.erase mk := by
  unfold writeCheckpoints
  repeat' (first | with_reducible rfl | with_reducible refine erase_ite ?_ ?_ | simp (disch := exact sub_trans rfl hk) only [↓put_flash_adapt, apply_ite (State.erase mk), ite_self] | (refine (erase_foldl (fun t a => ?_) _ _).trans ?_) | (refine (erase_foldl1 (fun t a => ?_) _ _).trans ?_) | split)

theorem startJob_erase (s : State) {mk : Nat} (hk : 0x8000c00 &&& mk = 0x8000c00) : ((startJob s)).erase mk = s.erase mk := by
  unfold startJob
  repeat' (first | with_reducible rfl | with_reducible refine erase_ite ?_ ?_ | simp (disch := exact sub_trans rfl hk) only [↓State.atElapsed_erase, ↓State.adpRecord_erase, ↓put_adapt, apply_ite (State.erase mk), ite_self] | (refine (erase_foldl (fun t a => ?_) _ _).trans ?_) | (refine (erase_foldl1 (fun t a => ?_) _ _).trans ?_) | split)

theorem execAdaptationJobStart_erase (s : State) {mk : Nat} (hk : 0x8000c00 &&& mk = 0x8000c00) (tx : State) (ex : (execAdaptationJobStart s) = .next tx) : tx.erase mk = s.erase mk := by
  unfold execAdaptationJobStart done at ex
  injection ex with ex
  subst ex
  repeat' (first | with_reducible rfl | with_reducible refine erase_ite ?_ ?_ | simp (disch := exact sub_trans rfl hk) only [↓startJob_erase, apply_ite (State.erase mk), ite_self] | (refine (erase_foldl (fun t a => ?_) _ _).trans ?_) | (refine (erase_foldl1 (fun t a => ?_) _ _).trans ?_) | split)

theorem restartJob_erase (s : State) (reason : ℕ) {mk : Nat} (hk : 0x8000800 &&& mk = 0x8000800) : ((restartJob s reason)).erase mk = s.erase mk := by
  unfold restartJob
  repeat' (first | with_reducible rfl | with_reducible refine erase_ite ?_ ?_ | simp (disch := exact sub_trans rfl hk) only [↓State.adpRecord_erase, ↓put_adapt, apply_ite (State.erase mk), ite_self] | (refine (erase_foldl (fun t a => ?_) _ _).trans ?_) | (refine (erase_foldl1 (fun t a => ?_) _ _).trans ?_) | split)

theorem settlementEndsJob_erase (s : State) {mk : Nat} (hk : 0x8000820 &&& mk = 0x8000820) : ((settlementEndsJob s)).erase mk = s.erase mk := by
  unfold settlementEndsJob
  repeat' (first | with_reducible rfl | with_reducible refine erase_ite ?_ ?_ | simp (disch := exact sub_trans rfl hk) only [↓State.adpRecord_erase, ↓put_flash_adapt, apply_ite (State.erase mk), ite_self] | (refine (erase_foldl (fun t a => ?_) _ _).trans ?_) | (refine (erase_foldl1 (fun t a => ?_) _ _).trans ?_) | split)

theorem abandonAdoption_erase (s : State) {mk : Nat} (hk : 0x8000800 &&& mk = 0x8000800) : ((abandonAdoption s)).erase mk = s.erase mk := by
  unfold abandonAdoption
  repeat' (first | with_reducible rfl | with_reducible refine erase_ite ?_ ?_ | simp (disch := exact sub_trans rfl hk) only [↓State.adpRecord_erase, ↓put_adapt, apply_ite (State.erase mk), ite_self] | (refine (erase_foldl (fun t a => ?_) _ _).trans ?_) | (refine (erase_foldl1 (fun t a => ?_) _ _).trans ?_) | split)

theorem stepComplete_erase (s : State) (inputs : List (List W32)) {mk : Nat} (hk : 0x8050020 &&& mk = 0x8050020) : ((stepComplete s inputs)).erase mk = s.erase mk := by
  unfold stepComplete
  repeat' (first | with_reducible rfl | with_reducible refine erase_ite ?_ ?_ | simp (disch := exact sub_trans rfl hk) only [↓countStep_erase, ↓makeTensors_erase, ↓writeCheckpoints_erase, ↓put_adapt, apply_ite (State.erase mk), ite_self] | (refine (erase_foldl (fun t a => ?_) _ _).trans ?_) | (refine (erase_foldl1 (fun t a => ?_) _ _).trans ?_) | split)

theorem stageAdoption_erase (s : State) {mk : Nat} (hk : 0x808000200 &&& mk = 0x808000200) : ((stageAdoption s)).erase mk = s.erase mk := by
  unfold stageAdoption
  repeat' (first | with_reducible rfl | with_reducible refine erase_ite ?_ ?_ | simp (disch := exact sub_trans rfl hk) only [↓internalBatch_erase, ↓put_adapt, apply_ite (State.erase mk), ite_self] | (refine (erase_foldl (fun t a => ?_) _ _).trans ?_) | (refine (erase_foldl1 (fun t a => ?_) _ _).trans ?_) | split)

theorem gateOutcome_erase (s : State) (a : AdaptSettings) (j : Job) (candidate : List (List W32)) (inForce : List (List W32)) {mk : Nat} (hk : 0x8010800 &&& mk = 0x8010800) : ((gateOutcome s a j candidate inForce)).erase mk = s.erase mk := by
  unfold gateOutcome
  repeat' (first | with_reducible rfl | with_reducible refine erase_ite ?_ ?_ | simp (disch := exact sub_trans rfl hk) only [↓makeTensors_erase, ↓State.adpRecord_erase, ↓put_adapt, apply_ite (State.erase mk), ite_self] | (refine (erase_foldl (fun t a => ?_) _ _).trans ?_) | (refine (erase_foldl1 (fun t a => ?_) _ _).trans ?_) | split)

theorem runGate_erase (s : State) (inputs : List (List W32)) (inForce : List (List W32)) {mk : Nat} (hk : 0x808010a00 &&& mk = 0x808010a00) : ((runGate s inputs inForce)).erase mk = s.erase mk := by
  unfold runGate
  repeat' (first | with_reducible rfl | with_reducible refine erase_ite ?_ ?_ | simp (disch := exact sub_trans rfl hk) only [↓gateOutcome_erase, ↓stageAdoption_erase, ↓put_adapt, apply_ite (State.erase mk), ite_self] | (refine (erase_foldl (fun t a => ?_) _ _).trans ?_) | (refine (erase_foldl1 (fun t a => ?_) _ _).trans ?_) | split)

theorem execAdaptationGate_erase (inputs : List (List W32)) (inForce : List (List W32)) (s : State) {mk : Nat} (hk : 0x808010a00 &&& mk = 0x808010a00) (tx : State) (ex : (execAdaptationGate inputs inForce s) = .next tx) : tx.erase mk = s.erase mk := by
  unfold execAdaptationGate done at ex
  injection ex with ex
  subst ex
  repeat' (first | with_reducible rfl | with_reducible refine erase_ite ?_ ?_ | simp (disch := exact sub_trans rfl hk) only [↓runGate_erase, apply_ite (State.erase mk), ite_self] | (refine (erase_foldl (fun t a => ?_) _ _).trans ?_) | (refine (erase_foldl1 (fun t a => ?_) _ _).trans ?_) | split)

theorem execAdoptionRetry_erase (s : State) {mk : Nat} (hk : 0x808000a00 &&& mk = 0x808000a00) (tx : State) (ex : (execAdoptionRetry s) = .next tx) : tx.erase mk = s.erase mk := by
  unfold execAdoptionRetry done at ex
  injection ex with ex
  subst ex
  repeat' (first | with_reducible rfl | with_reducible refine erase_ite ?_ ?_ | simp (disch := exact sub_trans rfl hk) only [↓stageAdoption_erase, ↓abandonAdoption_erase, apply_ite (State.erase mk), ite_self] | (refine (erase_foldl (fun t a => ?_) _ _).trans ?_) | (refine (erase_foldl1 (fun t a => ?_) _ _).trans ?_) | split)

theorem adoptHeads_erase (s : State) {mk : Nat} (hk : 0x8000820 &&& mk = 0x8000820) : ((adoptHeads s)).erase mk = s.erase mk := by
  unfold adoptHeads
  repeat' (first | with_reducible rfl | with_reducible refine erase_ite ?_ ?_ | simp (disch := exact sub_trans rfl hk) only [↓State.adpRecord_erase, ↓put_flash_adapt, apply_ite (State.erase mk), ite_self] | (refine (erase_foldl (fun t a => ?_) _ _).trans ?_) | (refine (erase_foldl1 (fun t a => ?_) _ _).trans ?_) | split)

theorem readoptHeads_erase (s : State) {mk : Nat} (hk : 0x808000200 &&& mk = 0x808000200) : ((readoptHeads s)).erase mk = s.erase mk := by
  unfold readoptHeads
  repeat' (first | with_reducible rfl | with_reducible refine erase_ite ?_ ?_ | simp (disch := exact sub_trans rfl hk) only [↓stageAdoption_erase, ↓put_adapt, apply_ite (State.erase mk), ite_self] | (refine (erase_foldl (fun t a => ?_) _ _).trans ?_) | (refine (erase_foldl1 (fun t a => ?_) _ _).trans ?_) | split)

theorem State.safRecord_erase (s : State) (type : ℕ) (z : ℕ) (status : ℕ) (p : SafPl) (stream : ℕ) (tick : ℕ) (epoch : Option ℕ) {mk : Nat} (hk : 0x800 &&& mk = 0x800) : ((State.safRecord s type z status p stream tick epoch)).erase mk = s.erase mk := by
  unfold State.safRecord
  repeat' (first | with_reducible rfl | with_reducible refine erase_ite ?_ ?_ | simp (disch := exact sub_trans rfl hk) only [↓State.emit_erase, apply_ite (State.erase mk), ite_self] | (refine (erase_foldl (fun t a => ?_) _ _).trans ?_) | (refine (erase_foldl1 (fun t a => ?_) _ _).trans ?_) | split)

theorem settleChannel_erase (s : State) (n : ℕ) {mk : Nat} (hk : 0xa0000804 &&& mk = 0xa0000804) : ((settleChannel s n)).erase mk = s.erase mk := by
  unfold settleChannel
  repeat' (first | with_reducible rfl | with_reducible refine erase_ite ?_ ?_ | simp (disch := exact sub_trans rfl hk) only [↓State.setChannel_erase, ↓State.raise_erase, ↓State.emit_erase, apply_ite (State.erase mk), ite_self] | (refine (erase_foldl (fun t a => ?_) _ _).trans ?_) | (refine (erase_foldl1 (fun t a => ?_) _ _).trans ?_) | split)

theorem settleChannels_erase (s : State) {mk : Nat} (hk : 0xa0000804 &&& mk = 0xa0000804) : ((settleChannels s)).erase mk = s.erase mk := by
  unfold settleChannels
  repeat' (first | with_reducible rfl | with_reducible refine erase_ite ?_ ?_ | simp (disch := exact sub_trans rfl hk) only [↓settleChannel_erase, apply_ite (State.erase mk), ite_self] | (refine (erase_foldl (fun t a => ?_) _ _).trans ?_) | (refine (erase_foldl1 (fun t a => ?_) _ _).trans ?_) | split)

theorem occupiedBy_erase (s : State) (z : ℕ) (cause : ℕ) (p : SafPl) (stream : ℕ) (tick : ℕ) (epoch : Option ℕ) {mk : Nat} (hk : 0xa0000804 &&& mk = 0xa0000804) : ((occupiedBy s z cause p stream tick epoch)).erase mk = s.erase mk := by
  unfold occupiedBy
  repeat' (first | with_reducible rfl | with_reducible refine erase_ite ?_ ?_ | simp (disch := exact sub_trans rfl hk) only [↓State.setZone_erase, ↓State.safRecord_erase, ↓settleChannel_erase, apply_ite (State.erase mk), ite_self] | (refine (erase_foldl (fun t a => ?_) _ _).trans ?_) | (refine (erase_foldl1 (fun t a => ?_) _ _).trans ?_) | split)

theorem occupyZone_erase (s : State) (z : ℕ) (cause : ℕ) {mk : Nat} (hk : 0xa0000804 &&& mk = 0xa0000804) : ((occupyZone s z cause)).erase mk = s.erase mk := by
  unfold occupyZone
  repeat' (first | with_reducible rfl | with_reducible refine erase_ite ?_ ?_ | simp (disch := exact sub_trans rfl hk) only [↓occupiedBy_erase, apply_ite (State.erase mk), ite_self] | (refine (erase_foldl (fun t a => ?_) _ _).trans ?_) | (refine (erase_foldl1 (fun t a => ?_) _ _).trans ?_) | split)

theorem occupyStream_erase (s : State) (n : ℕ) {mk : Nat} (hk : 0xa0000804 &&& mk = 0xa0000804) : ((occupyStream s n)).erase mk = s.erase mk := by
  unfold occupyStream
  repeat' (first | with_reducible rfl | with_reducible refine erase_ite ?_ ?_ | simp (disch := exact sub_trans rfl hk) only [↓occupyZone_erase, apply_ite (State.erase mk), ite_self] | (refine (erase_foldl (fun t a => ?_) _ _).trans ?_) | (refine (erase_foldl1 (fun t a => ?_) _ _).trans ?_) | split)

theorem checkAble_erase (s : State) {mk : Nat} (hk : 0xa0000804 &&& mk = 0xa0000804) : ((checkAble s)).erase mk = s.erase mk := by
  unfold checkAble
  repeat' (first | with_reducible rfl | with_reducible refine erase_ite ?_ ?_ | simp (disch := exact sub_trans rfl hk) only [↓occupyZone_erase, apply_ite (State.erase mk), ite_self] | (refine (erase_foldl (fun t a => ?_) _ _).trans ?_) | (refine (erase_foldl1 (fun t a => ?_) _ _).trans ?_) | split)

theorem tryClear_erase (s : State) (z : ℕ) {mk : Nat} (hk : 0xa0000804 &&& mk = 0xa0000804) : ((tryClear s z)).erase mk = s.erase mk := by
  unfold tryClear
  repeat' (first | with_reducible rfl | with_reducible refine erase_ite ?_ ?_ | simp (disch := exact sub_trans rfl hk) only [↓State.setZone_erase, ↓settleChannel_erase, ↓State.safRecord_erase, apply_ite (State.erase mk), ite_self] | (refine (erase_foldl (fun t a => ?_) _ _).trans ?_) | (refine (erase_foldl1 (fun t a => ?_) _ _).trans ?_) | split)

theorem untrustedInput_erase (s : State) (z : ℕ) {mk : Nat} (hk : 0xa0000804 &&& mk = 0xa0000804) : ((untrustedInput s z)).erase mk = s.erase mk := by
  unfold untrustedInput
  repeat' (first | with_reducible rfl | with_reducible refine erase_ite ?_ ?_ | simp (disch := exact sub_trans rfl hk) only [↓State.setZone_erase, ↓occupyZone_erase, ↓put_saf, apply_ite (State.erase mk), ite_self] | (refine (erase_foldl (fun t a => ?_) _ _).trans ?_) | (refine (erase_foldl1 (fun t a => ?_) _ _).trans ?_) | split)

theorem unlatch_erase (s : State) (n : ℕ) {mk : Nat} (hk : 0x20000000 &&& mk = 0x20000000) : ((unlatch s n)).erase mk = s.erase mk := by
  unfold unlatch
  repeat' (first | with_reducible rfl | with_reducible refine erase_ite ?_ ?_ | simp (disch := exact sub_trans rfl hk) only [↓State.setChannel_erase, apply_ite (State.erase mk), ite_self] | (refine (erase_foldl (fun t a => ?_) _ _).trans ?_) | (refine (erase_foldl1 (fun t a => ?_) _ _).trans ?_) | split)

theorem enterStart_erase (s : State) (z : ℕ) {mk : Nat} (hk : 0xa0000804 &&& mk = 0xa0000804) : ((enterStart s z)).erase mk = s.erase mk := by
  unfold enterStart
  repeat' (first | with_reducible rfl | with_reducible refine erase_ite ?_ ?_ | simp (disch := exact sub_trans rfl hk) only [↓settleChannel_erase, ↓State.setZone_erase, apply_ite (State.erase mk), ite_self] | (refine (erase_foldl (fun t a => ?_) _ _).trans ?_) | (refine (erase_foldl1 (fun t a => ?_) _ _).trans ?_) | split)

theorem zoneOff_erase (s : State) (z : ℕ) {mk : Nat} (hk : 0xa0000804 &&& mk = 0xa0000804) : ((zoneOff s z)).erase mk = s.erase mk := by
  unfold zoneOff
  repeat' (first | with_reducible rfl | with_reducible refine erase_ite ?_ ?_ | simp (disch := exact sub_trans rfl hk) only [↓settleChannel_erase, ↓State.setZone_erase, apply_ite (State.erase mk), ite_self] | (refine (erase_foldl (fun t a => ?_) _ _).trans ?_) | (refine (erase_foldl1 (fun t a => ?_) _ _).trans ?_) | split)

theorem safetyApply_erase (s : State) (z : ℕ) {mk : Nat} (hk : 0xa0000a04 &&& mk = 0xa0000a04) : ((safetyApply s z)).erase mk = s.erase mk := by
  unfold safetyApply
  repeat' (first | with_reducible rfl | with_reducible refine erase_ite ?_ ?_ | simp (disch := exact sub_trans rfl hk) only [↓unlatch_erase, ↓enterStart_erase, ↓zoneOff_erase, ↓put_stl_saf, apply_ite (State.erase mk), ite_self] | (refine (erase_foldl (fun t a => ?_) _ _).trans ?_) | (refine (erase_foldl1 (fun t a => ?_) _ _).trans ?_) | split)

theorem noteEval_erase (s : State) (x : Eval) {mk : Nat} (hk : 0x200 &&& mk = 0x200) : ((noteEval s x)).erase mk = s.erase mk := by
  unfold noteEval
  repeat' (first | with_reducible rfl | with_reducible refine erase_ite ?_ ?_ | simp (disch := exact sub_trans rfl hk) only [↓put_stl, apply_ite (State.erase mk), ite_self] | (refine (erase_foldl (fun t a => ?_) _ _).trans ?_) | (refine (erase_foldl1 (fun t a => ?_) _ _).trans ?_) | split)

theorem noteResult_erase (s : State) (x : Eval) (agrees : ℕ → Bool) {mk : Nat} (hk : 0x200 &&& mk = 0x200) : ((noteResult s x agrees)).erase mk = s.erase mk := by
  unfold noteResult
  repeat' (first | with_reducible rfl | with_reducible refine erase_ite ?_ ?_ | simp (disch := exact sub_trans rfl hk) only [↓put_stl, apply_ite (State.erase mk), ite_self] | (refine (erase_foldl (fun t a => ?_) _ _).trans ?_) | (refine (erase_foldl1 (fun t a => ?_) _ _).trans ?_) | split)

theorem notePeriod_erase (s : State) (z : ℕ) {mk : Nat} (hk : 0x200 &&& mk = 0x200) : ((notePeriod s z)).erase mk = s.erase mk := by
  unfold notePeriod
  repeat' (first | with_reducible rfl | with_reducible refine erase_ite ?_ ?_ | simp (disch := exact sub_trans rfl hk) only [↓put_stl, apply_ite (State.erase mk), ite_self] | (refine (erase_foldl (fun t a => ?_) _ _).trans ?_) | (refine (erase_foldl1 (fun t a => ?_) _ _).trans ?_) | split)

theorem evalRecords_erase (s : State) (type : ℕ) (status : ℕ) (x : Eval) (cause : ℕ) (mapping : ℕ) (cell : ℕ) {mk : Nat} (hk : 0x800 &&& mk = 0x800) : ((evalRecords s type status x cause mapping cell)).erase mk = s.erase mk := by
  unfold evalRecords
  repeat' (first | with_reducible rfl | with_reducible refine erase_ite ?_ ?_ | simp (disch := exact sub_trans rfl hk) only [↓State.safRecord_erase, apply_ite (State.erase mk), ite_self] | (refine (erase_foldl (fun t a => ?_) _ _).trans ?_) | (refine (erase_foldl1 (fun t a => ?_) _ _).trans ?_) | split)

theorem setEval_erase (s : State) (x : Eval) {mk : Nat} (hk : 0x20000000 &&& mk = 0x20000000) : ((setEval s x)).erase mk = s.erase mk := by
  unfold setEval
  repeat' (first | with_reducible rfl | with_reducible refine erase_ite ?_ ?_ | simp (disch := exact sub_trans rfl hk) only [↓put_saf, apply_ite (State.erase mk), ite_self] | (refine (erase_foldl (fun t a => ?_) _ _).trans ?_) | (refine (erase_foldl1 (fun t a => ?_) _ _).trans ?_) | split)

theorem startThird_erase (s : State) (x : Eval) (mapping : ℕ) (cell : ℕ) {mk : Nat} (hk : 0x20000800 &&& mk = 0x20000800) : ((startThird s x mapping cell)).erase mk = s.erase mk := by
  unfold startThird
  repeat' (first | with_reducible rfl | with_reducible refine erase_ite ?_ ?_ | simp (disch := exact sub_trans rfl hk) only [↓evalRecords_erase, ↓setEval_erase, apply_ite (State.erase mk), ite_self] | (refine (erase_foldl (fun t a => ?_) _ _).trans ?_) | (refine (erase_foldl1 (fun t a => ?_) _ _).trans ?_) | split)

theorem missingEvals_erase (s : State) (l : ℕ) {mk : Nat} (hk : 0x20000800 &&& mk = 0x20000800) : ((missingEvals s l)).erase mk = s.erase mk := by
  unfold missingEvals
  repeat' (first | with_reducible rfl | with_reducible refine erase_ite ?_ ?_ | simp (disch := exact sub_trans rfl hk) only [↓startThird_erase, apply_ite (State.erase mk), ite_self] | (refine (erase_foldl (fun t a => ?_) _ _).trans ?_) | (refine (erase_foldl1 (fun t a => ?_) _ _).trans ?_) | split)

theorem missingRegion_erase (s : State) (g : ℕ) {mk : Nat} (hk : 0x20000800 &&& mk = 0x20000800) : ((missingRegion s g)).erase mk = s.erase mk := by
  unfold missingRegion
  repeat' (first | with_reducible rfl | with_reducible refine erase_ite ?_ ?_ | simp (disch := exact sub_trans rfl hk) only [↓missingEvals_erase, apply_ite (State.erase mk), ite_self] | (refine (erase_foldl (fun t a => ?_) _ _).trans ?_) | (refine (erase_foldl1 (fun t a => ?_) _ _).trans ?_) | split)

theorem writeUnitMap_erase (s : State) {mk : Nat} (hk : 0x20 &&& mk = 0x20) : ((writeUnitMap s)).erase mk = s.erase mk := by
  unfold writeUnitMap
  repeat' (first | with_reducible rfl | with_reducible refine erase_ite ?_ ?_ | simp (disch := exact sub_trans rfl hk) only [↓put_flash, apply_ite (State.erase mk), ite_self] | (refine (erase_foldl (fun t a => ?_) _ _).trans ?_) | (refine (erase_foldl1 (fun t a => ?_) _ _).trans ?_) | split)

theorem markDegraded_erase (s : State) (g : ℕ) {mk : Nat} (hk : 0x200000 &&& mk = 0x200000) : ((markDegraded s g)).erase mk = s.erase mk := by
  unfold markDegraded
  repeat' (first | with_reducible rfl | with_reducible refine erase_ite ?_ ?_ | simp (disch := exact sub_trans rfl hk) only [↓State.modRegion_erase, apply_ite (State.erase mk), ite_self] | (refine (erase_foldl (fun t a => ?_) _ _).trans ?_) | (refine (erase_foldl1 (fun t a => ?_) _ _).trans ?_) | split)

theorem State.faultRecord_erase (s : State) (type : ℕ) (cls : ℕ) (source : ℕ) (p : ℕ) (second : ℕ) (third : ℕ) (strikes : ℕ) (status : ℕ) {mk : Nat} (hk : 0x800 &&& mk = 0x800) : ((State.faultRecord s type cls source p second third strikes status)).erase mk = s.erase mk := by
  unfold State.faultRecord
  repeat' (first | with_reducible rfl | with_reducible refine erase_ite ?_ ?_ | simp (disch := exact sub_trans rfl hk) only [↓State.emit_erase, apply_ite (State.erase mk), ite_self] | (refine (erase_foldl (fun t a => ?_) _ _).trans ?_) | (refine (erase_foldl1 (fun t a => ?_) _ _).trans ?_) | split)

theorem dropAudits_erase (s : State) (p : ℕ) {mk : Nat} (hk : 0x10200000 &&& mk = 0x10200000) : ((dropAudits s p)).erase mk = s.erase mk := by
  unfold dropAudits
  repeat' (first | with_reducible rfl | with_reducible refine erase_ite ?_ ?_ | simp (disch := exact sub_trans rfl hk) only [↓State.modRegion_erase, ↓put_flt, apply_ite (State.erase mk), ite_self] | (refine (erase_foldl (fun t a => ?_) _ _).trans ?_) | (refine (erase_foldl1 (fun t a => ?_) _ _).trans ?_) | split)

theorem beginHandover_erase (s : State) (p : ℕ) (q : ℕ) {mk : Nat} (hk : 0x40000 &&& mk = 0x40000) : ((beginHandover s p q)).erase mk = s.erase mk := by
  unfold beginHandover
  repeat' (first | with_reducible rfl | with_reducible refine erase_ite ?_ ?_ | simp (disch := exact sub_trans rfl hk) only [↓State.modEngine_erase, apply_ite (State.erase mk), ite_self] | (refine (erase_foldl (fun t a => ?_) _ _).trans ?_) | (refine (erase_foldl1 (fun t a => ?_) _ _).trans ?_) | split)

theorem fenceEngine_erase (s : State) (p : ℕ) (source : ℕ) {mk : Nat} (hk : 0x8b8240a24 &&& mk = 0x8b8240a24) : ((fenceEngine s p source)).erase mk = s.erase mk := by
  unfold fenceEngine
  repeat' (first | with_reducible rfl | with_reducible refine erase_ite ?_ ?_ | simp (disch := exact sub_trans rfl hk) only [↓beginHandover_erase, ↓State.modEngine_erase, ↓markDegraded_erase, ↓dropAudits_erase, ↓checkAble_erase, ↓missingEvals_erase, ↓State.fenceEvent_erase, ↓capacityChanged_erase, ↓writeUnitMap_erase, apply_ite (State.erase mk), ite_self] | (refine (erase_foldl (fun t a => ?_) _ _).trans ?_) | (refine (erase_foldl1 (fun t a => ?_) _ _).trans ?_) | split)

theorem rotate_erase (s : State) (p : ℕ) (q : ℕ) {mk : Nat} (hk : 0x40820 &&& mk = 0x40820) : ((rotate s p q)).erase mk = s.erase mk := by
  unfold rotate
  repeat' (first | with_reducible rfl | with_reducible refine erase_ite ?_ ?_ | simp (disch := exact sub_trans rfl hk) only [↓beginHandover_erase, ↓State.modEngine_erase, ↓writeUnitMap_erase, ↓State.faultRecord_erase, apply_ite (State.erase mk), ite_self] | (refine (erase_foldl (fun t a => ?_) _ _).trans ?_) | (refine (erase_foldl1 (fun t a => ?_) _ _).trans ?_) | split)

theorem rotateIfDue_erase (s : State) (p : ℕ) {mk : Nat} (hk : 0x40820 &&& mk = 0x40820) : ((rotateIfDue s p)).erase mk = s.erase mk := by
  unfold rotateIfDue
  repeat' (first | with_reducible rfl | with_reducible refine erase_ite ?_ ?_ | simp (disch := exact sub_trans rfl hk) only [↓State.modEngine_erase, ↓rotate_erase, apply_ite (State.erase mk), ite_self] | (refine (erase_foldl (fun t a => ?_) _ _).trans ?_) | (refine (erase_foldl1 (fun t a => ?_) _ _).trans ?_) | split)

theorem fenceIfDue_erase (s : State) (p : ℕ) {mk : Nat} (hk : 0x8b8240a24 &&& mk = 0x8b8240a24) : ((fenceIfDue s p)).erase mk = s.erase mk := by
  unfold fenceIfDue
  repeat' (first | with_reducible rfl | with_reducible refine erase_ite ?_ ?_ | simp (disch := exact sub_trans rfl hk) only [↓fenceEngine_erase, ↓rotateIfDue_erase, apply_ite (State.erase mk), ite_self] | (refine (erase_foldl (fun t a => ?_) _ _).trans ?_) | (refine (erase_foldl1 (fun t a => ?_) _ _).trans ?_) | split)

theorem strike_erase (s : State) (p : ℕ) (source : ℕ) (job : ℕ) (tile : ℕ) {mk : Nat} (hk : 0x8b8240a24 &&& mk = 0x8b8240a24) : ((strike s p source job tile)).erase mk = s.erase mk := by
  unfold strike
  repeat' (first | with_reducible rfl | with_reducible refine erase_ite ?_ ?_ | simp (disch := exact sub_trans rfl hk) only [↓State.modEngine_erase, ↓State.emit_erase, ↓fenceIfDue_erase, apply_ite (State.erase mk), ite_self] | (refine (erase_foldl (fun t a => ?_) _ _).trans ?_) | (refine (erase_foldl1 (fun t a => ?_) _ _).trans ?_) | split)

theorem execStrikeExpiry_erase (p : ℕ) (s : State) {mk : Nat} (hk : 0x40400 &&& mk = 0x40400) (tx : State) (ex : (execStrikeExpiry p s) = .next tx) : tx.erase mk = s.erase mk := by
  unfold execStrikeExpiry done at ex
  injection ex with ex
  subst ex
  repeat' (first | with_reducible rfl | with_reducible refine erase_ite ?_ ?_ | simp (disch := exact sub_trans rfl hk) only [↓State.atElapsed_erase, ↓State.modEngine_erase, apply_ite (State.erase mk), ite_self] | (refine (erase_foldl (fun t a => ?_) _ _).trans ?_) | (refine (erase_foldl1 (fun t a => ?_) _ _).trans ?_) | split)

theorem judgeDigest_erase (s : State) (r : AssayResult) {mk : Nat} (hk : 0x10000000 &&& mk = 0x10000000) : (judgeDigest s r).2.erase mk = s.erase mk := by
  unfold judgeDigest
  repeat' (first | with_reducible rfl | with_reducible refine erase_ite ?_ ?_ | simp (disch := exact sub_trans rfl hk) only [↓put_flt, apply_ite (State.erase mk), ite_self] | (refine (erase_foldl (fun t a => ?_) _ _).trans ?_) | (refine (erase_foldl1 (fun t a => ?_) _ _).trans ?_) | split)

theorem assayRecord_erase (s : State) (p : ℕ) (pass : Bool) {mk : Nat} (hk : 0x800 &&& mk = 0x800) : ((assayRecord s p pass)).erase mk = s.erase mk := by
  unfold assayRecord
  repeat' (first | with_reducible rfl | with_reducible refine erase_ite ?_ ?_ | simp (disch := exact sub_trans rfl hk) only [↓State.emit_erase, apply_ite (State.erase mk), ite_self] | (refine (erase_foldl (fun t a => ?_) _ _).trans ?_) | (refine (erase_foldl1 (fun t a => ?_) _ _).trans ?_) | split)

theorem assayPass_erase (s : State) (p : ℕ) {mk : Nat} (hk : 0x40820 &&& mk = 0x40820) : ((assayPass s p)).erase mk = s.erase mk := by
  unfold assayPass
  repeat' (first | with_reducible rfl | with_reducible refine erase_ite ?_ ?_ | simp (disch := exact sub_trans rfl hk) only [↓writeUnitMap_erase, ↓State.modEngine_erase, ↓State.faultRecord_erase, apply_ite (State.erase mk), ite_self] | (refine (erase_foldl (fun t a => ?_) _ _).trans ?_) | (refine (erase_foldl1 (fun t a => ?_) _ _).trans ?_) | split)

theorem assayFail_erase (s : State) (p : ℕ) {mk : Nat} (hk : 0x8b8240a24 &&& mk = 0x8b8240a24) : ((assayFail s p)).erase mk = s.erase mk := by
  unfold assayFail
  repeat' (first | with_reducible rfl | with_reducible refine erase_ite ?_ ?_ | simp (disch := exact sub_trans rfl hk) only [↓State.modEngine_erase, ↓writeUnitMap_erase, ↓State.faultRecord_erase, ↓fenceEngine_erase, apply_ite (State.erase mk), ite_self] | (refine (erase_foldl (fun t a => ?_) _ _).trans ?_) | (refine (erase_foldl1 (fun t a => ?_) _ _).trans ?_) | split)

theorem assayEnds_erase (s : State) (p : ℕ) (pass : Bool) {mk : Nat} (hk : 0x8b8240a24 &&& mk = 0x8b8240a24) : ((assayEnds s p pass)).erase mk = s.erase mk := by
  unfold assayEnds
  repeat' (first | with_reducible rfl | with_reducible refine erase_ite ?_ ?_ | simp (disch := exact sub_trans rfl hk) only [↓assayRecord_erase, ↓assayPass_erase, ↓assayFail_erase, apply_ite (State.erase mk), ite_self] | (refine (erase_foldl (fun t a => ?_) _ _).trans ?_) | (refine (erase_foldl1 (fun t a => ?_) _ _).trans ?_) | split)

theorem endWaiting_erase (s : State) {mk : Nat} (hk : 0x8b8240a24 &&& mk = 0x8b8240a24) : ((endWaiting s)).erase mk = s.erase mk := by
  unfold endWaiting
  repeat' (first | with_reducible rfl | with_reducible refine erase_ite ?_ ?_ | simp (disch := exact sub_trans rfl hk) only [↓assayEnds_erase, ↓put_flt, apply_ite (State.erase mk), ite_self] | (refine (erase_foldl (fun t a => ?_) _ _).trans ?_) | (refine (erase_foldl1 (fun t a => ?_) _ _).trans ?_) | split)

theorem execEngineAssayComplete_erase (r : AssayResult) (s : State) {mk : Nat} (hk : 0x8b8240a24 &&& mk = 0x8b8240a24) (tx : State) (ex : (execEngineAssayComplete r s) = .next tx) : tx.erase mk = s.erase mk := by
  unfold execEngineAssayComplete done at ex
  injection ex with ex
  subst ex
  repeat' (first | with_reducible rfl | with_reducible refine erase_ite ?_ ?_ | simp (disch := exact sub_trans rfl hk) only [↓judgeDigest_erase, ↓endWaiting_erase, ↓assayEnds_erase, apply_ite (State.erase mk), ite_self] | (refine (erase_foldl (fun t a => ?_) _ _).trans ?_) | (refine (erase_foldl1 (fun t a => ?_) _ _).trans ?_) | split)

theorem execEngineRetest_erase (p : ℕ) (s : State) {mk : Nat} (hk : 0x40400 &&& mk = 0x40400) (tx : State) (ex : (execEngineRetest p s) = .next tx) : tx.erase mk = s.erase mk := by
  unfold execEngineRetest done at ex
  injection ex with ex
  subst ex
  repeat' (first | with_reducible rfl | with_reducible refine erase_ite ?_ ?_ | simp (disch := exact sub_trans rfl hk) only [↓State.modEngine_erase, ↓State.atElapsed_erase, apply_ite (State.erase mk), ite_self] | (refine (erase_foldl (fun t a => ?_) _ _).trans ?_) | (refine (erase_foldl1 (fun t a => ?_) _ _).trans ?_) | split)

theorem execEngineRotation_erase (g : ℕ) (s : State) {mk : Nat} (hk : 0x40c20 &&& mk = 0x40c20) (tx : State) (ex : (execEngineRotation g s) = .next tx) : tx.erase mk = s.erase mk := by
  unfold execEngineRotation done at ex
  injection ex with ex
  subst ex
  repeat' (first | with_reducible rfl | with_reducible refine erase_ite ?_ ?_ | simp (disch := exact sub_trans rfl hk) only [↓State.atElapsed_erase, ↓rotateIfDue_erase, ↓State.modEngine_erase, apply_ite (State.erase mk), ite_self] | (refine (erase_foldl (fun t a => ?_) _ _).trans ?_) | (refine (erase_foldl1 (fun t a => ?_) _ _).trans ?_) | split)

theorem decLeave_erase (s : State) (d : ℕ) {mk : Nat} (hk : 0x8b8003a04 &&& mk = 0x8b8003a04) : ((decLeave s d)).erase mk = s.erase mk := by
  unfold decLeave
  repeat' (first | with_reducible rfl | with_reducible refine erase_ite ?_ ?_ | simp (disch := exact sub_trans rfl hk) only [↓State.modDec_erase, ↓State.fenceEvent_erase, ↓setDDec_erase, ↓capacityChanged_erase, apply_ite (State.erase mk), ite_self] | (refine (erase_foldl (fun t a => ?_) _ _).trans ?_) | (refine (erase_foldl1 (fun t a => ?_) _ _).trans ?_) | split)

theorem windowViolation_erase (s : State) (d : ℕ) (n : ℕ) (tick : ℕ) (account : ℕ) {mk : Nat} (hk : 0x90002804 &&& mk = 0x90002804) : ((windowViolation s d n tick account)).erase mk = s.erase mk := by
  unfold windowViolation
  repeat' (first | with_reducible rfl | with_reducible refine erase_ite ?_ ?_ | simp (disch := exact sub_trans rfl hk) only [↓State.modDec_erase, ↓State.raise_erase, ↓State.emit_erase, ↓put_flt, apply_ite (State.erase mk), ite_self] | (refine (erase_foldl (fun t a => ?_) _ _).trans ?_) | (refine (erase_foldl1 (fun t a => ?_) _ _).trans ?_) | split)

theorem toDecodeRotation_erase (s : State) {mk : Nat} (hk : 0x400 &&& mk = 0x400) : ((toDecodeRotation s)).erase mk = s.erase mk := by
  unfold toDecodeRotation
  repeat' (first | with_reducible rfl | with_reducible refine erase_ite ?_ ?_ | simp (disch := exact sub_trans rfl hk) only [↓State.atMultiple_erase, apply_ite (State.erase mk), ite_self] | (refine (erase_foldl (fun t a => ?_) _ _).trans ?_) | (refine (erase_foldl1 (fun t a => ?_) _ _).trans ?_) | split)

theorem rotateDecode_erase (s0 : State) {mk : Nat} (hk : 0x10008b8003a04 &&& mk = 0x10008b8003a04) : ((rotateDecode s0)).erase mk = s0.erase mk := by
  unfold rotateDecode
  repeat' (first | with_reducible rfl | with_reducible refine erase_ite ?_ ?_ | simp (disch := exact sub_trans rfl hk) only [↓State.nextFree_erase, ↓decLeave_erase, ↓State.modDec_erase, ↓State.emit_erase, apply_ite (State.erase mk), ite_self] | (refine (erase_foldl (fun t a => ?_) _ _).trans ?_) | (refine (erase_foldl1 (fun t a => ?_) _ _).trans ?_) | split)

theorem execDecodeRotation_erase (s : State) {mk : Nat} (hk : 0x10008b8003e04 &&& mk = 0x10008b8003e04) (tx : State) (ex : (execDecodeRotation s) = .next tx) : tx.erase mk = s.erase mk := by
  unfold execDecodeRotation done at ex
  injection ex with ex
  subst ex
  repeat' (first | with_reducible rfl | with_reducible refine erase_ite ?_ ?_ | simp (disch := exact sub_trans rfl hk) only [↓rotateDecode_erase, ↓toDecodeRotation_erase, apply_ite (State.erase mk), ite_self] | (refine (erase_foldl (fun t a => ?_) _ _).trans ?_) | (refine (erase_foldl1 (fun t a => ?_) _ _).trans ?_) | split)

theorem execDecodeAssayComplete_erase (d : ℕ) (pass : Bool) (s : State) {mk : Nat} (hk : 0x10008be003a04 &&& mk = 0x10008be003a04) (tx : State) (ex : (execDecodeAssayComplete d pass s) = .next tx) : tx.erase mk = s.erase mk := by
  unfold execDecodeAssayComplete done at ex
  injection ex with ex
  subst ex
  repeat' (first | with_reducible rfl | with_reducible refine erase_ite ?_ ?_ | simp (disch := exact sub_trans rfl hk) only [↓State.emit_erase, ↓dispatch_erase, ↓setDDec_erase, ↓State.modDec_erase, ↓capacityChanged_erase, ↓State.fenceEvent_erase, apply_ite (State.erase mk), ite_self] | (refine (erase_foldl (fun t a => ?_) _ _).trans ?_) | (refine (erase_foldl1 (fun t a => ?_) _ _).trans ?_) | split)

theorem execVoidRestore_erase (addr : ℕ) (bytes : List Byte) (s : State) {mk : Nat} (hk : 0x60000000000 &&& mk = 0x60000000000) (tx : State) (ex : (execVoidRestore addr bytes s) = .next tx) : tx.erase mk = s.erase mk := by
  unfold execVoidRestore done at ex
  injection ex with ex
  subst ex
  repeat' (first | with_reducible rfl | with_reducible refine erase_ite ?_ ?_ | simp (disch := exact sub_trans rfl hk) only [↓State.store_erase, apply_ite (State.erase mk), ite_self] | (refine (erase_foldl (fun t a => ?_) _ _).trans ?_) | (refine (erase_foldl1 (fun t a => ?_) _ _).trans ?_) | split)

theorem chargeDev_erase (s : State) (i : ℕ) (p : ℕ) (n : ℕ) {mk : Nat} (hk : 0x2000000000 &&& mk = 0x2000000000) : ((chargeDev s i p n)).erase mk = s.erase mk := by
  unfold chargeDev
  repeat' (first | with_reducible rfl | with_reducible refine erase_ite ?_ ?_ | simp (disch := exact sub_trans rfl hk) only [↓State.modDevTill_erase, apply_ite (State.erase mk), ite_self] | (refine (erase_foldl (fun t a => ?_) _ _).trans ?_) | (refine (erase_foldl1 (fun t a => ?_) _ _).trans ?_) | split)

theorem chargeTo_erase (s : State) (k : ℕ) (f : Till → Till) {mk : Nat} (hk : 0x3000000000 &&& mk = 0x3000000000) : ((chargeTo s k f)).erase mk = s.erase mk := by
  unfold chargeTo
  repeat' (first | with_reducible rfl | with_reducible refine erase_ite ?_ ?_ | simp (disch := exact sub_trans rfl hk) only [↓State.modTill_erase, ↓State.modDevTill_erase, apply_ite (State.erase mk), ite_self] | (refine (erase_foldl (fun t a => ?_) _ _).trans ?_) | (refine (erase_foldl1 (fun t a => ?_) _ _).trans ?_) | split)

theorem chargeTile_erase (s : State) (t : TileIssue) (p : ℕ) (n : ℕ) {mk : Nat} (hk : 0x3000000000 &&& mk = 0x3000000000) : ((chargeTile s t p n)).erase mk = s.erase mk := by
  unfold chargeTile
  repeat' (first | with_reducible rfl | with_reducible refine erase_ite ?_ ?_ | simp (disch := exact sub_trans rfl hk) only [↓chargeTo_erase, apply_ite (State.erase mk), ite_self] | (refine (erase_foldl (fun t a => ?_) _ _).trans ?_) | (refine (erase_foldl1 (fun t a => ?_) _ _).trans ?_) | split)

theorem enterSlice_erase (s : State) (p : ℕ) {mk : Nat} (hk : 0x40000 &&& mk = 0x40000) : ((enterSlice s p)).erase mk = s.erase mk := by
  unfold enterSlice
  repeat' (first | with_reducible rfl | with_reducible refine erase_ite ?_ ?_ | simp (disch := exact sub_trans rfl hk) only [↓State.modEngine_erase, apply_ite (State.erase mk), ite_self] | (refine (erase_foldl (fun t a => ?_) _ _).trans ?_) | (refine (erase_foldl1 (fun t a => ?_) _ _).trans ?_) | split)

theorem leaveSlice_erase (s : State) (p : ℕ) {mk : Nat} (hk : 0x40000 &&& mk = 0x40000) : ((leaveSlice s p)).erase mk = s.erase mk := by
  unfold leaveSlice
  repeat' (first | with_reducible rfl | with_reducible refine erase_ite ?_ ?_ | simp (disch := exact sub_trans rfl hk) only [↓enterSlice_erase, ↓State.modEngine_erase, apply_ite (State.erase mk), ite_self] | (refine (erase_foldl (fun t a => ?_) _ _).trans ?_) | (refine (erase_foldl1 (fun t a => ?_) _ _).trans ?_) | split)

theorem endSlice_erase (s : State) (p : ℕ) (a : ℕ) (o : ℕ) {mk : Nat} (hk : 0x40000 &&& mk = 0x40000) : ((endSlice s p a o)).erase mk = s.erase mk := by
  unfold endSlice
  repeat' (first | with_reducible rfl | with_reducible refine erase_ite ?_ ?_ | simp (disch := exact sub_trans rfl hk) only [↓leaveSlice_erase, ↓State.modEngine_erase, apply_ite (State.erase mk), ite_self] | (refine (erase_foldl (fun t a => ?_) _ _).trans ?_) | (refine (erase_foldl1 (fun t a => ?_) _ _).trans ?_) | split)

theorem useSlice_erase (s : State) (p : ℕ) (a : ℕ) (n : ℕ) {mk : Nat} (hk : 0x200000 &&& mk = 0x200000) : ((useSlice s p a n)).erase mk = s.erase mk := by
  unfold useSlice
  repeat' (first | with_reducible rfl | with_reducible refine erase_ite ?_ ?_ | simp (disch := exact sub_trans rfl hk) only [↓State.modRegion_erase, apply_ite (State.erase mk), ite_self] | (refine (erase_foldl (fun t a => ?_) _ _).trans ?_) | (refine (erase_foldl1 (fun t a => ?_) _ _).trans ?_) | split)

theorem chargeIdle_erase (s : State) (p : ℕ) {mk : Nat} (hk : 0x1000240000 &&& mk = 0x1000240000) : ((chargeIdle s p)).erase mk = s.erase mk := by
  unfold chargeIdle
  repeat' (first | with_reducible rfl | with_reducible refine erase_ite ?_ ?_ | simp (disch := exact sub_trans rfl hk) only [↓leaveSlice_erase, ↓State.modEngine_erase, ↓useSlice_erase, ↓State.modTill_erase, ↓endSlice_erase, apply_ite (State.erase mk), ite_self] | (refine (erase_foldl (fun t a => ?_) _ _).trans ?_) | (refine (erase_foldl1 (fun t a => ?_) _ _).trans ?_) | split)

theorem endSliceIfDue_erase (s : State) (p : ℕ) (epoch : ℕ) {mk : Nat} (hk : 0x40000 &&& mk = 0x40000) : ((endSliceIfDue s p epoch)).erase mk = s.erase mk := by
  unfold endSliceIfDue
  repeat' (first | with_reducible rfl | with_reducible refine erase_ite ?_ ?_ | simp (disch := exact sub_trans rfl hk) only [↓enterSlice_erase, ↓endSlice_erase, ↓leaveSlice_erase, apply_ite (State.erase mk), ite_self] | (refine (erase_foldl (fun t a => ?_) _ _).trans ?_) | (refine (erase_foldl1 (fun t a => ?_) _ _).trans ?_) | split)

theorem endSlicesWithout_erase (s : State) (g : ℕ) (a : ℕ) {mk : Nat} (hk : 0x40000 &&& mk = 0x40000) : ((endSlicesWithout s g a)).erase mk = s.erase mk := by
  unfold endSlicesWithout
  repeat' (first | with_reducible rfl | with_reducible refine erase_ite ?_ ?_ | simp (disch := exact sub_trans rfl hk) only [↓leaveSlice_erase, apply_ite (State.erase mk), ite_self] | (refine (erase_foldl (fun t a => ?_) _ _).trans ?_) | (refine (erase_foldl1 (fun t a => ?_) _ _).trans ?_) | split)

theorem chargeSlice_erase (s : State) (g : ℕ) {mk : Nat} (hk : 0x200000 &&& mk = 0x200000) : ((chargeSlice s g)).erase mk = s.erase mk := by
  unfold chargeSlice
  repeat' (first | with_reducible rfl | with_reducible refine erase_ite ?_ ?_ | simp (disch := exact sub_trans rfl hk) only [↓State.setRegion_erase, apply_ite (State.erase mk), ite_self] | (refine (erase_foldl (fun t a => ?_) _ _).trans ?_) | (refine (erase_foldl1 (fun t a => ?_) _ _).trans ?_) | split)

theorem background_erase (s : State) (g : ℕ) {mk : Nat} (hk : 0x8000000 &&& mk = 0x8000000) : ((background s g)).erase mk = s.erase mk := by
  unfold background
  repeat' (first | with_reducible rfl | with_reducible refine erase_ite ?_ ?_ | simp (disch := exact sub_trans rfl hk) only [↓put_adapt, apply_ite (State.erase mk), ite_self] | (refine (erase_foldl (fun t a => ?_) _ _).trans ?_) | (refine (erase_foldl1 (fun t a => ?_) _ _).trans ?_) | split)

theorem leaveBackground_erase (s : State) (g : ℕ) {mk : Nat} (hk : 0x8000000 &&& mk = 0x8000000) : ((leaveBackground s g)).erase mk = s.erase mk := by
  unfold leaveBackground
  repeat' (first | with_reducible rfl | with_reducible refine erase_ite ?_ ?_ | simp (disch := exact sub_trans rfl hk) only [↓put_adapt, apply_ite (State.erase mk), ite_self] | (refine (erase_foldl (fun t a => ?_) _ _).trans ?_) | (refine (erase_foldl1 (fun t a => ?_) _ _).trans ?_) | split)

theorem afterBackground_erase (s : State) (g : ℕ) {mk : Nat} (hk : 0x400 &&& mk = 0x400) : ((afterBackground s g)).erase mk = s.erase mk := by
  unfold afterBackground
  repeat' (first | with_reducible rfl | with_reducible refine erase_ite ?_ ?_ | simp (disch := exact sub_trans rfl hk) only [↓State.atElapsed_erase, apply_ite (State.erase mk), ite_self] | (refine (erase_foldl (fun t a => ?_) _ _).trans ?_) | (refine (erase_foldl1 (fun t a => ?_) _ _).trans ?_) | split)

theorem startSlice_erase (s0 : State) (g : ℕ) {mk : Nat} (hk : 0x808240400 &&& mk = 0x808240400) : ((startSlice s0 g)).erase mk = s0.erase mk := by
  unfold startSlice
  repeat' (first | with_reducible rfl | with_reducible refine erase_ite ?_ ?_ | simp (disch := exact sub_trans rfl hk) only [↓afterBackground_erase, ↓chargeSlice_erase, ↓background_erase, ↓State.setRegion_erase, ↓State.trace_erase, ↓leaveBackground_erase, ↓enterSlice_erase, apply_ite (State.erase mk), ite_self] | (refine (erase_foldl (fun t a => ?_) _ _).trans ?_) | (refine (erase_foldl1 (fun t a => ?_) _ _).trans ?_) | split)

theorem callSlice_erase (s : State) (p : ℕ) {mk : Nat} (hk : 0x1808240400 &&& mk = 0x1808240400) : ((callSlice s p)).erase mk = s.erase mk := by
  unfold callSlice
  repeat' (first | with_reducible rfl | with_reducible refine erase_ite ?_ ?_ | simp (disch := exact sub_trans rfl hk) only [↓chargeIdle_erase, ↓startSlice_erase, apply_ite (State.erase mk), ite_self] | (refine (erase_foldl (fun t a => ?_) _ _).trans ?_) | (refine (erase_foldl1 (fun t a => ?_) _ _).trans ?_) | split)

theorem State.setWatch_erase (s : State) (w : ℕ) (x : Watch) {mk : Nat} (hk : 0x800000000 &&& mk = 0x800000000) : ((State.setWatch s w x)).erase mk = s.erase mk := by
  unfold State.setWatch
  repeat' (first | with_reducible rfl | with_reducible refine erase_ite ?_ ?_ | simp (disch := exact sub_trans rfl hk) only [↓put_dbg, apply_ite (State.erase mk), ite_self] | (refine (erase_foldl (fun t a => ?_) _ _).trans ?_) | (refine (erase_foldl1 (fun t a => ?_) _ _).trans ?_) | split)

theorem endWatch_erase (s : State) (w : ℕ) (status : ℕ) (result : List Byte) {mk : Nat} (hk : 0x800000800 &&& mk = 0x800000800) : ((endWatch s w status result)).erase mk = s.erase mk := by
  unfold endWatch
  repeat' (first | with_reducible rfl | with_reducible refine erase_ite ?_ ?_ | simp (disch := exact sub_trans rfl hk) only [↓State.setWatch_erase, ↓State.emit_erase, apply_ite (State.erase mk), ite_self] | (refine (erase_foldl (fun t a => ?_) _ _).trans ?_) | (refine (erase_foldl1 (fun t a => ?_) _ _).trans ?_) | split)

theorem stopWatch_erase (s : State) (w : ℕ) (status : ℕ) {mk : Nat} (hk : 0x800000800 &&& mk = 0x800000800) : ((stopWatch s w status)).erase mk = s.erase mk := by
  unfold stopWatch
  repeat' (first | with_reducible rfl | with_reducible refine erase_ite ?_ ?_ | simp (disch := exact sub_trans rfl hk) only [↓endWatch_erase, apply_ite (State.erase mk), ite_self] | (refine (erase_foldl (fun t a => ?_) _ _).trans ?_) | (refine (erase_foldl1 (fun t a => ?_) _ _).trans ?_) | split)

theorem stopWatches_erase (s : State) (status : ℕ) (p : ℕ → Watch → Bool) {mk : Nat} (hk : 0x800000800 &&& mk = 0x800000800) : ((stopWatches s status p)).erase mk = s.erase mk := by
  unfold stopWatches
  repeat' (first | with_reducible rfl | with_reducible refine erase_ite ?_ ?_ | simp (disch := exact sub_trans rfl hk) only [↓stopWatch_erase, apply_ite (State.erase mk), ite_self] | (refine (erase_foldl (fun t a => ?_) _ _).trans ?_) | (refine (erase_foldl1 (fun t a => ?_) _ _).trans ?_) | split)

theorem complete_erase (s : State) (p : ℕ) (x : Completion) {mk : Nat} (hk : 0x200000 &&& mk = 0x200000) : ((complete s p x)).erase mk = s.erase mk := by
  unfold complete
  repeat' (first | with_reducible rfl | with_reducible refine erase_ite ?_ ?_ | simp (disch := exact sub_trans rfl hk) only [↓State.modRegion_erase, apply_ite (State.erase mk), ite_self] | (refine (erase_foldl (fun t a => ?_) _ _).trans ?_) | (refine (erase_foldl1 (fun t a => ?_) _ _).trans ?_) | split)

theorem jobFail_erase (s : State) (p : ℕ) (t : TileIssue) (slot : ℕ) (status : ℕ) (reason : ℕ) (tile : ℕ) {mk : Nat} (hk : 0x8049800 &&& mk = 0x8049800) : ((jobFail s p t slot status reason tile)).erase mk = s.erase mk := by
  unfold jobFail
  repeat' (first | with_reducible rfl | with_reducible refine erase_ite ?_ ?_ | simp (disch := exact sub_trans rfl hk) only [↓restartJob_erase, ↓restartStream_erase, ↓endSlicesWithout_erase, ↓removeMember_erase, apply_ite (State.erase mk), ite_self] | (refine (erase_foldl (fun t a => ?_) _ _).trans ?_) | (refine (erase_foldl1 (fun t a => ?_) _ _).trans ?_) | split)

theorem dropDmas_erase (s : State) (p : ℕ) (job : ℕ) (tile : ℕ) {mk : Nat} (hk : 0x40000 &&& mk = 0x40000) : ((dropDmas s p job tile)).erase mk = s.erase mk := by
  unfold dropDmas
  repeat' (first | with_reducible rfl | with_reducible refine erase_ite ?_ ?_ | simp (disch := exact sub_trans rfl hk) only [↓State.modEngine_erase, apply_ite (State.erase mk), ite_self] | (refine (erase_foldl (fun t a => ?_) _ _).trans ?_) | (refine (erase_foldl1 (fun t a => ?_) _ _).trans ?_) | split)

theorem abandonDmas_erase (s : State) (p : ℕ) {mk : Nat} (hk : 0x40000040000 &&& mk = 0x40000040000) : ((abandonDmas s p)).erase mk = s.erase mk := by
  unfold abandonDmas
  repeat' (first | with_reducible rfl | with_reducible refine erase_ite ?_ ?_ | simp (disch := exact sub_trans rfl hk) only [↓State.voidRange_erase, ↓State.modEngine_erase, apply_ite (State.erase mk), ite_self] | (refine (erase_foldl (fun t a => ?_) _ _).trans ?_) | (refine (erase_foldl1 (fun t a => ?_) _ _).trans ?_) | split)

theorem rejectTile_erase (s : State) (p : ℕ) (t : TileIssue) (c : TileCmd) (f : CheckFail) {mk : Nat} (hk : 0x808249800 &&& mk = 0x808249800) : ((rejectTile s p t c f)).erase mk = s.erase mk := by
  unfold rejectTile
  repeat' (first | with_reducible rfl | with_reducible refine erase_ite ?_ ?_ | simp (disch := exact sub_trans rfl hk) only [↓State.trace_erase, ↓dropDmas_erase, ↓complete_erase, ↓jobFail_erase, apply_ite (State.erase mk), ite_self] | (refine (erase_foldl (fun t a => ?_) _ _).trans ?_) | (refine (erase_foldl1 (fun t a => ?_) _ _).trans ?_) | split)

theorem startTile_erase (s : State) (p : ℕ) (t : TileIssue) {mk : Nat} (hk : 0x1808249800 &&& mk = 0x1808249800) : ((startTile s p t)).erase mk = s.erase mk := by
  unfold startTile
  repeat' (first | with_reducible rfl | with_reducible refine erase_ite ?_ ?_ | simp (disch := exact sub_trans rfl hk) only [↓State.modEngine_erase, ↓jobFail_erase, ↓rejectTile_erase, ↓chargeIdle_erase, ↓State.trace_erase, apply_ite (State.erase mk), ite_self] | (refine (erase_foldl (fun t a => ?_) _ _).trans ?_) | (refine (erase_foldl1 (fun t a => ?_) _ _).trans ?_) | split)

theorem execTileStart_erase (p : ℕ) (t : TileIssue) (s : State) {mk : Nat} (hk : 0x1808249c00 &&& mk = 0x1808249c00) (tx : State) (ex : (execTileStart p t s) = .next tx) : tx.erase mk = s.erase mk := by
  unfold execTileStart done at ex
  injection ex with ex
  subst ex
  repeat' (first | with_reducible rfl | with_reducible refine erase_ite ?_ ?_ | simp (disch := exact sub_trans rfl hk) only [↓startTile_erase, ↓callSlice_erase, apply_ite (State.erase mk), ite_self] | (refine (erase_foldl (fun t a => ?_) _ _).trans ?_) | (refine (erase_foldl1 (fun t a => ?_) _ _).trans ?_) | split)

theorem voidWrites_erase (s : State) (x : TileEnv) (ws : List (ℕ × ℤ × List Byte)) {mk : Nat} (hk : 0x40000000000 &&& mk = 0x40000000000) : ((voidWrites s x ws)).erase mk = s.erase mk := by
  unfold voidWrites
  repeat' (first | with_reducible rfl | with_reducible refine erase_ite ?_ ?_ | simp (disch := exact sub_trans rfl hk) only [↓State.voidRange_erase, apply_ite (State.erase mk), ite_self] | (refine (erase_foldl (fun t a => ?_) _ _).trans ?_) | (refine (erase_foldl1 (fun t a => ?_) _ _).trans ?_) | split)

theorem settleHalt_erase (s : State) (p : ℕ) {mk : Nat} (hk : 0x40000 &&& mk = 0x40000) : ((settleHalt s p)).erase mk = s.erase mk := by
  unfold settleHalt
  repeat' (first | with_reducible rfl | with_reducible refine erase_ite ?_ ?_ | simp (disch := exact sub_trans rfl hk) only [↓State.modEngine_erase, apply_ite (State.erase mk), ite_self] | (refine (erase_foldl (fun t a => ?_) _ _).trans ?_) | (refine (erase_foldl1 (fun t a => ?_) _ _).trans ?_) | split)

theorem abandonWith_erase (s : State) (p : ℕ) (cause : ℕ) (status : ℕ) (cycles : ℕ) (ws : List (ℕ × ℤ × List Byte)) {mk : Nat} (hk : 0x42800240000 &&& mk = 0x42800240000) : ((abandonWith s p cause status cycles ws)).erase mk = s.erase mk := by
  unfold abandonWith
  repeat' (first | with_reducible rfl | with_reducible refine erase_ite ?_ ?_ | simp (disch := exact sub_trans rfl hk) only [↓voidWrites_erase, ↓State.trace_erase, ↓State.modEngine_erase, ↓complete_erase, ↓chargeDev_erase, apply_ite (State.erase mk), ite_self] | (refine (erase_foldl (fun t a => ?_) _ _).trans ?_) | (refine (erase_foldl1 (fun t a => ?_) _ _).trans ?_) | split)

theorem abandonTile_erase (s : State) (p : ℕ) (cause : ℕ) (status : ℕ) (cycles : ℕ) (watchdogs : ℕ) {mk : Nat} (hk : 0x1042800240000 &&& mk = 0x1042800240000) : ((abandonTile s p cause status cycles watchdogs)).erase mk = s.erase mk := by
  unfold abandonTile
  repeat' (first | with_reducible rfl | with_reducible refine erase_ite ?_ ?_ | simp (disch := exact sub_trans rfl hk) only [↓abandonWith_erase, ↓State.nextFree_erase, ↓State.modEngine_erase, apply_ite (State.erase mk), ite_self] | (refine (erase_foldl (fun t a => ?_) _ _).trans ?_) | (refine (erase_foldl1 (fun t a => ?_) _ _).trans ?_) | split)

theorem abandonMember_erase (s : State) (p : ℕ) (r : Running) (slot : ℕ) (status : ℕ) (reason : ℕ) {mk : Nat} (hk : 0x8049800 &&& mk = 0x8049800) : ((abandonMember s p r slot status reason)).erase mk = s.erase mk := by
  unfold abandonMember
  repeat' (first | with_reducible rfl | with_reducible refine erase_ite ?_ ?_ | simp (disch := exact sub_trans rfl hk) only [↓jobFail_erase, ↓State.modEngine_erase, ↓dropDmas_erase, apply_ite (State.erase mk), ite_self] | (refine (erase_foldl (fun t a => ?_) _ _).trans ?_) | (refine (erase_foldl1 (fun t a => ?_) _ _).trans ?_) | split)

theorem execOperandParityError_erase (p : ℕ) (cell : ℕ) (s : State) {mk : Nat} (hk : 0x10428b8240a24 &&& mk = 0x10428b8240a24) (tx : State) (ex : (execOperandParityError p cell s) = .next tx) : tx.erase mk = s.erase mk := by
  unfold execOperandParityError done at ex
  injection ex with ex
  subst ex
  repeat' (first | with_reducible rfl | with_reducible refine erase_ite ?_ ?_ | simp (disch := exact sub_trans rfl hk) only [↓State.modEngine_erase, ↓abandonTile_erase, ↓State.corrected_erase, ↓strike_erase, ↓fenceIfDue_erase, apply_ite (State.erase mk), ite_self] | (refine (erase_foldl (fun t a => ?_) _ _).trans ?_) | (refine (erase_foldl1 (fun t a => ?_) _ _).trans ?_) | split)

theorem bankError_erase (s : State) (p : ℕ) (ev : CellEvents) {mk : Nat} (hk : 0x10428b8240a24 &&& mk = 0x10428b8240a24) : ((bankError s p ev)).erase mk = s.erase mk := by
  unfold bankError
  repeat' (first | with_reducible rfl | with_reducible refine erase_ite ?_ ?_ | simp (disch := exact sub_trans rfl hk) only [↓State.modEngine_erase, ↓strike_erase, ↓abandonTile_erase, ↓State.corrected_erase, apply_ite (State.erase mk), ite_self] | (refine (erase_foldl (fun t a => ?_) _ _).trans ?_) | (refine (erase_foldl1 (fun t a => ?_) _ _).trans ?_) | split)

theorem execCellPipelineCycle_erase (p : ℕ) (check : List BankCheck) (s : State) {mk : Nat} (hk : 0x10428b8240a24 &&& mk = 0x10428b8240a24) (tx : State) (ex : (execCellPipelineCycle p check s) = .next tx) : tx.erase mk = s.erase mk := by
  unfold execCellPipelineCycle done at ex
  injection ex with ex
  subst ex
  repeat' (first | with_reducible rfl | with_reducible refine erase_ite ?_ ?_ | simp (disch := exact sub_trans rfl hk) only [↓State.modEngine_erase, ↓State.corrected_erase, ↓bankError_erase, apply_ite (State.erase mk), ite_self] | (refine (erase_foldl (fun t a => ?_) _ _).trans ?_) | (refine (erase_foldl1 (fun t a => ?_) _ _).trans ?_) | split)

theorem execOperandNetworkCycle_erase (p : ℕ) (deliver : Bool) (load : Bool) (s : State) {mk : Nat} (hk : 0x40000 &&& mk = 0x40000) (tx : State) (ex : (execOperandNetworkCycle p deliver load s) = .next tx) : tx.erase mk = s.erase mk := by
  unfold execOperandNetworkCycle done at ex
  injection ex with ex
  subst ex
  repeat' (first | with_reducible rfl | with_reducible refine erase_ite ?_ ?_ | simp (disch := exact sub_trans rfl hk) only [↓State.modEngine_erase, apply_ite (State.erase mk), ite_self] | (refine (erase_foldl (fun t a => ?_) _ _).trans ?_) | (refine (erase_foldl1 (fun t a => ?_) _ _).trans ?_) | split)

theorem execDescriptorAccessFault_erase (p : ℕ) (s : State) {mk : Nat} (hk : 0x428b8249a24 &&& mk = 0x428b8249a24) (tx : State) (ex : (execDescriptorAccessFault p s) = .next tx) : tx.erase mk = s.erase mk := by
  unfold execDescriptorAccessFault done at ex
  injection ex with ex
  subst ex
  repeat' (first | with_reducible rfl | with_reducible refine erase_ite ?_ ?_ | simp (disch := exact sub_trans rfl hk) only [↓abandonWith_erase, ↓State.modEngine_erase, ↓State.contained_erase, ↓fenceIfDue_erase, ↓abandonMember_erase, apply_ite (State.erase mk), ite_self] | (refine (erase_foldl (fun t a => ?_) _ _).trans ?_) | (refine (erase_foldl1 (fun t a => ?_) _ _).trans ?_) | split)

theorem execVoidOperand_erase (p : ℕ) (s : State) {mk : Nat} (hk : 0x428b8249a24 &&& mk = 0x428b8249a24) (tx : State) (ex : (execVoidOperand p s) = .next tx) : tx.erase mk = s.erase mk := by
  unfold execVoidOperand done at ex
  injection ex with ex
  subst ex
  repeat' (first | with_reducible rfl | with_reducible refine erase_ite ?_ ?_ | simp (disch := exact sub_trans rfl hk) only [↓abandonWith_erase, ↓fenceIfDue_erase, ↓abandonMember_erase, apply_ite (State.erase mk), ite_self] | (refine (erase_foldl (fun t a => ?_) _ _).trans ?_) | (refine (erase_foldl1 (fun t a => ?_) _ _).trans ?_) | split)

theorem execTileWatchdogExpiry_erase (p : ℕ) (s : State) {mk : Nat} (hk : 0x10428b8249e24 &&& mk = 0x10428b8249e24) (tx : State) (ex : (execTileWatchdogExpiry p s) = .next tx) : tx.erase mk = s.erase mk := by
  unfold execTileWatchdogExpiry done at ex
  injection ex with ex
  subst ex
  repeat' (first | with_reducible rfl | with_reducible refine erase_ite ?_ ?_ | simp (disch := exact sub_trans rfl hk) only [↓State.atElapsed_erase, ↓fenceIfDue_erase, ↓abandonTile_erase, ↓State.corrected_erase, ↓dropDmas_erase, ↓abandonWith_erase, ↓State.nextFree_erase, ↓State.contained_erase, ↓jobFail_erase, apply_ite (State.erase mk), ite_self] | (refine (erase_foldl (fun t a => ?_) _ _).trans ?_) | (refine (erase_foldl1 (fun t a => ?_) _ _).trans ?_) | split)

theorem auditDraw_erase (s : State) (g : ℕ) {mk : Nat} (hk : 0x200000 &&& mk = 0x200000) : (auditDraw s g).2.erase mk = s.erase mk := by
  unfold auditDraw
  repeat' (first | with_reducible rfl | with_reducible refine erase_ite ?_ ?_ | simp (disch := exact sub_trans rfl hk) only [↓State.modRegion_erase, apply_ite (State.erase mk), ite_self] | (refine (erase_foldl (fun t a => ?_) _ _).trans ?_) | (refine (erase_foldl1 (fun t a => ?_) _ _).trans ?_) | split)

theorem selectAudit_erase (s : State) (p : ℕ) (t : TileIssue) (x : Completion) {mk : Nat} (hk : 0x10200000 &&& mk = 0x10200000) : ((selectAudit s p t x)).erase mk = s.erase mk := by
  unfold selectAudit
  repeat' (first | with_reducible rfl | with_reducible refine erase_ite ?_ ?_ | simp (disch := exact sub_trans rfl hk) only [↓State.modRegion_erase, ↓put_flt, apply_ite (State.erase mk), ite_self] | (refine (erase_foldl (fun t a => ?_) _ _).trans ?_) | (refine (erase_foldl1 (fun t a => ?_) _ _).trans ?_) | split)

theorem applyRatio_erase (s : State) (p : ℕ) {mk : Nat} (hk : 0x40000 &&& mk = 0x40000) : ((applyRatio s p)).erase mk = s.erase mk := by
  unfold applyRatio
  repeat' (first | with_reducible rfl | with_reducible refine erase_ite ?_ ?_ | simp (disch := exact sub_trans rfl hk) only [↓State.modEngine_erase, apply_ite (State.erase mk), ite_self] | (refine (erase_foldl (fun t a => ?_) _ _).trans ?_) | (refine (erase_foldl1 (fun t a => ?_) _ _).trans ?_) | split)

theorem tileBoundary_erase (s : State) (p : ℕ) (cycles : ℕ) (t : TileIssue) {mk : Nat} (hk : 0x8b8240a24 &&& mk = 0x8b8240a24) : ((tileBoundary s p cycles t)).erase mk = s.erase mk := by
  unfold tileBoundary
  repeat' (first | with_reducible rfl | with_reducible refine erase_ite ?_ ?_ | simp (disch := exact sub_trans rfl hk) only [↓useSlice_erase, ↓State.modEngine_erase, ↓fenceIfDue_erase, ↓applyRatio_erase, ↓endSliceIfDue_erase, apply_ite (State.erase mk), ite_self] | (refine (erase_foldl (fun t a => ?_) _ _).trans ?_) | (refine (erase_foldl1 (fun t a => ?_) _ _).trans ?_) | split)

theorem commitTile_erase (s : State) (p : ℕ) (cycles : ℕ) (r : Running) (d : TileDone) (empty : Bool) {mk : Nat} (hk : 0x638b8340a24 &&& mk = 0x638b8340a24) : ((commitTile s p cycles r d empty)).erase mk = s.erase mk := by
  unfold commitTile
  repeat' (first | with_reducible rfl | with_reducible refine erase_ite ?_ ?_ | simp (disch := exact sub_trans rfl hk) only [↓State.trace_erase, ↓State.store_erase, ↓State.modEngine_erase, ↓complete_erase, ↓chargeTile_erase, ↓auditDraw_erase, ↓selectAudit_erase, ↓settleHalt_erase, ↓tileBoundary_erase, ↓put_haloBack, apply_ite (State.erase mk), ite_self] | (refine (erase_foldl (fun t a => ?_) _ _).trans ?_) | (refine (erase_foldl1 (fun t a => ?_) _ _).trans ?_) | split)

theorem finishPasses_erase (s : State) (p : ℕ) (t : TileIssue) {mk : Nat} (hk : 0x40000 &&& mk = 0x40000) : ((finishPasses s p t)).erase mk = s.erase mk := by
  unfold finishPasses
  repeat' (first | with_reducible rfl | with_reducible refine erase_ite ?_ ?_ | simp (disch := exact sub_trans rfl hk) only [↓State.modEngine_erase, apply_ite (State.erase mk), ite_self] | (refine (erase_foldl (fun t a => ?_) _ _).trans ?_) | (refine (erase_foldl1 (fun t a => ?_) _ _).trans ?_) | split)

theorem execTileCommit_erase (p : ℕ) (cycles : ℕ) (s : State) {mk : Nat} (hk : 0x638b8340a24 &&& mk = 0x638b8340a24) (tx : State) (ex : (execTileCommit p cycles s) = .next tx) : tx.erase mk = s.erase mk := by
  unfold execTileCommit done at ex
  injection ex with ex
  subst ex
  repeat' (first | with_reducible rfl | with_reducible refine erase_ite ?_ ?_ | simp (disch := exact sub_trans rfl hk) only [↓finishPasses_erase, ↓commitTile_erase, apply_ite (State.erase mk), ite_self] | (refine (erase_foldl (fun t a => ?_) _ _).trans ?_) | (refine (erase_foldl1 (fun t a => ?_) _ _).trans ?_) | split)

theorem execSliceNominalEnd_erase (p : ℕ) (s : State) {mk : Nat} (hk : 0x1000240400 &&& mk = 0x1000240400) (tx : State) (ex : (execSliceNominalEnd p s) = .next tx) : tx.erase mk = s.erase mk := by
  unfold execSliceNominalEnd done at ex
  injection ex with ex
  subst ex
  repeat' (first | with_reducible rfl | with_reducible refine erase_ite ?_ ?_ | simp (disch := exact sub_trans rfl hk) only [↓leaveSlice_erase, ↓State.atElapsed_erase, ↓endSlice_erase, ↓useSlice_erase, ↓State.modEngine_erase, ↓State.modTill_erase, apply_ite (State.erase mk), ite_self] | (refine (erase_foldl (fun t a => ?_) _ _).trans ?_) | (refine (erase_foldl1 (fun t a => ?_) _ _).trans ?_) | split)

theorem execEngineScrub_erase (p : ℕ) (addr : ℕ) (ecc : Secded) (s : State) {mk : Nat} (hk : 0x40090040804 &&& mk = 0x40090040804) (tx : State) (ex : (execEngineScrub p addr ecc s) = .next tx) : tx.erase mk = s.erase mk := by
  unfold execEngineScrub done at ex
  injection ex with ex
  subst ex
  repeat' (first | with_reducible rfl | with_reducible refine erase_ite ?_ ?_ | simp (disch := exact sub_trans rfl hk) only [↓State.corrected_erase, ↓State.modEngine_erase, ↓State.contained_erase, ↓State.voidRange_erase, apply_ite (State.erase mk), ite_self] | (refine (erase_foldl (fun t a => ?_) _ _).trans ?_) | (refine (erase_foldl1 (fun t a => ?_) _ _).trans ?_) | split)

theorem writePieces_erase (s : State) (p : ℕ) (pieces : List (ℕ × List Byte × Bool)) {mk : Nat} (hk : 0x60000000000 &&& mk = 0x60000000000) : ((writePieces s p pieces)).erase mk = s.erase mk := by
  unfold writePieces
  repeat' (first | with_reducible rfl | with_reducible refine erase_ite ?_ ?_ | simp (disch := exact sub_trans rfl hk) only [↓State.store_erase, apply_ite (State.erase mk), ite_self] | (refine (erase_foldl (fun t a => ?_) _ _).trans ?_) | (refine (erase_foldl1 (fun t a => ?_) _ _).trans ?_) | split)

theorem execSendComplete_erase (p : ℕ) (s : State) {mk : Nat} (hk : 0x60000040000 &&& mk = 0x60000040000) (tx : State) (ex : (execSendComplete p s) = .next tx) : tx.erase mk = s.erase mk := by
  unfold execSendComplete done at ex
  injection ex with ex
  subst ex
  repeat' (first | with_reducible rfl | with_reducible refine erase_ite ?_ ?_ | simp (disch := exact sub_trans rfl hk) only [↓settleHalt_erase, ↓writePieces_erase, ↓State.modEngine_erase, apply_ite (State.erase mk), ite_self] | (refine (erase_foldl (fun t a => ?_) _ _).trans ?_) | (refine (erase_foldl1 (fun t a => ?_) _ _).trans ?_) | split)

theorem partArrival_erase (s : State) (combiner : ℕ) (sender : ℕ) (job : ℕ) (tile : ℕ) (part : ℕ) (parts : ℕ) {mk : Nat} (hk : 0x608b8240a24 &&& mk = 0x608b8240a24) : ((partArrival s combiner sender job tile part parts)).erase mk = s.erase mk := by
  unfold partArrival
  repeat' (first | with_reducible rfl | with_reducible refine erase_ite ?_ ?_ | simp (disch := exact sub_trans rfl hk) only [↓settleHalt_erase, ↓State.modEngine_erase, ↓strike_erase, ↓State.corrected_erase, ↓writePieces_erase, apply_ite (State.erase mk), ite_self] | (refine (erase_foldl (fun t a => ?_) _ _).trans ?_) | (refine (erase_foldl1 (fun t a => ?_) _ _).trans ?_) | split)

theorem execPartArrival_erase (combiner : ℕ) (sender : ℕ) (job : ℕ) (tile : ℕ) (part : ℕ) (parts : ℕ) (s : State) {mk : Nat} (hk : 0x608b8240a24 &&& mk = 0x608b8240a24) (tx : State) (ex : (execPartArrival combiner sender job tile part parts s) = .next tx) : tx.erase mk = s.erase mk := by
  unfold execPartArrival done at ex
  injection ex with ex
  subst ex
  repeat' (first | with_reducible rfl | with_reducible refine erase_ite ?_ ?_ | simp (disch := exact sub_trans rfl hk) only [↓partArrival_erase, apply_ite (State.erase mk), ite_self] | (refine (erase_foldl (fun t a => ?_) _ _).trans ?_) | (refine (erase_foldl1 (fun t a => ?_) _ _).trans ?_) | split)

theorem storeMarked_erase (s : State) (a : ℕ) (bs : List Byte) (marks : List Bool) {mk : Nat} (hk : 0x60000000000 &&& mk = 0x60000000000) : ((storeMarked s a bs marks)).erase mk = s.erase mk := by
  unfold storeMarked
  repeat' (first | with_reducible rfl | with_reducible refine erase_ite ?_ ?_ | simp (disch := exact sub_trans rfl hk) only [↓State.store_erase, apply_ite (State.erase mk), ite_self] | (refine (erase_foldl (fun t a => ?_) _ _).trans ?_) | (refine (erase_foldl1 (fun t a => ?_) _ _).trans ?_) | split)

theorem writeGroup_erase (s : State) (d : Desc) (h : HaloMsg) {mk : Nat} (hk : 0x60000000000 &&& mk = 0x60000000000) : ((writeGroup s d h)).erase mk = s.erase mk := by
  unfold writeGroup
  repeat' (first | with_reducible rfl | with_reducible refine erase_ite ?_ ?_ | simp (disch := exact sub_trans rfl hk) only [↓storeMarked_erase, apply_ite (State.erase mk), ite_self] | (refine (erase_foldl (fun t a => ?_) _ _).trans ?_) | (refine (erase_foldl1 (fun t a => ?_) _ _).trans ?_) | split)

theorem execHaloGroupReceived_erase (p : ℕ) (port : ℕ) (s : State) {mk : Nat} (hk : 0x600000c0000 &&& mk = 0x600000c0000) (tx : State) (ex : (execHaloGroupReceived p port s) = .next tx) : tx.erase mk = s.erase mk := by
  unfold execHaloGroupReceived done at ex
  injection ex with ex
  subst ex
  repeat' (first | with_reducible rfl | with_reducible refine erase_ite ?_ ?_ | simp (disch := exact sub_trans rfl hk) only [↓writeGroup_erase, ↓State.modEngine_erase, ↓put_halo, apply_ite (State.erase mk), ite_self] | (refine (erase_foldl (fun t a => ?_) _ _).trans ?_) | (refine (erase_foldl1 (fun t a => ?_) _ _).trans ?_) | split)

theorem execHaloReleaseArrival_erase (p : ℕ) (port : ℕ) (s : State) {mk : Nat} (hk : 0x140000 &&& mk = 0x140000) (tx : State) (ex : (execHaloReleaseArrival p port s) = .next tx) : tx.erase mk = s.erase mk := by
  unfold execHaloReleaseArrival done at ex
  injection ex with ex
  subst ex
  repeat' (first | with_reducible rfl | with_reducible refine erase_ite ?_ ?_ | simp (disch := exact sub_trans rfl hk) only [↓State.modEngine_erase, ↓put_haloBack, apply_ite (State.erase mk), ite_self] | (refine (erase_foldl (fun t a => ?_) _ _).trans ?_) | (refine (erase_foldl1 (fun t a => ?_) _ _).trans ?_) | split)

theorem dropAudit_erase (s : State) (g : ℕ) (a : Audit) {mk : Nat} (hk : 0x200000 &&& mk = 0x200000) : ((dropAudit s g a)).erase mk = s.erase mk := by
  unfold dropAudit
  repeat' (first | with_reducible rfl | with_reducible refine erase_ite ?_ ?_ | simp (disch := exact sub_trans rfl hk) only [↓State.modRegion_erase, apply_ite (State.erase mk), ite_self] | (refine (erase_foldl (fun t a => ?_) _ _).trans ?_) | (refine (erase_foldl1 (fun t a => ?_) _ _).trans ?_) | split)

theorem auditVoid_erase (s : State) (g : ℕ) (a : Audit) {mk : Nat} (hk : 0x10200000 &&& mk = 0x10200000) : ((auditVoid s g a)).erase mk = s.erase mk := by
  unfold auditVoid
  repeat' (first | with_reducible rfl | with_reducible refine erase_ite ?_ ?_ | simp (disch := exact sub_trans rfl hk) only [↓dropAudit_erase, ↓put_flt, apply_ite (State.erase mk), ite_self] | (refine (erase_foldl (fun t a => ?_) _ _).trans ?_) | (refine (erase_foldl1 (fun t a => ?_) _ _).trans ?_) | split)

theorem voidAudited_erase (s : State) (a : Audit) {mk : Nat} (hk : 0x40000000000 &&& mk = 0x40000000000) : ((voidAudited s a)).erase mk = s.erase mk := by
  unfold voidAudited
  repeat' (first | with_reducible rfl | with_reducible refine erase_ite ?_ ?_ | simp (disch := exact sub_trans rfl hk) only [↓voidWrites_erase, apply_ite (State.erase mk), ite_self] | (refine (erase_foldl (fun t a => ?_) _ _).trans ?_) | (refine (erase_foldl1 (fun t a => ?_) _ _).trans ?_) | split)

theorem failAudited_erase (s : State) (a : Audit) {mk : Nat} (hk : 0x8049800 &&& mk = 0x8049800) : ((failAudited s a)).erase mk = s.erase mk := by
  unfold failAudited
  repeat' (first | with_reducible rfl | with_reducible refine erase_ite ?_ ?_ | simp (disch := exact sub_trans rfl hk) only [↓jobFail_erase, apply_ite (State.erase mk), ite_self] | (refine (erase_foldl (fun t a => ?_) _ _).trans ?_) | (refine (erase_foldl1 (fun t a => ?_) _ _).trans ?_) | split)

theorem auditRecord_erase (s : State) (a : Audit) (third : ℕ) (addr : ℕ) {mk : Nat} (hk : 0x800 &&& mk = 0x800) : ((auditRecord s a third addr)).erase mk = s.erase mk := by
  unfold auditRecord
  repeat' (first | with_reducible rfl | with_reducible refine erase_ite ?_ ?_ | simp (disch := exact sub_trans rfl hk) only [↓State.emit_erase, apply_ite (State.erase mk), ite_self] | (refine (erase_foldl (fun t a => ?_) _ _).trans ?_) | (refine (erase_foldl1 (fun t a => ?_) _ _).trans ?_) | split)

end Sys2Proof.Machine
end

