-- ==== Sys2Proof/Laws/Frames3.lean ====
section
/-! SUPPORT. What each operation may write, as masks of parts (see Laws/Frame.lean): part 3, in the order of the model. -/

set_option linter.all false

namespace Sys2Proof.Machine
open State

theorem auditVerdict_erase (s : State) (a : Audit) (third : ℕ) (addr : ℕ) (strikeAudited : Bool) (strikeAuditor : Bool) {mk : Nat} (hk : 0x408b8249a24 &&& mk = 0x408b8249a24) : ((auditVerdict s a third addr strikeAudited strikeAuditor)).erase mk = s.erase mk := by
  unfold auditVerdict
  repeat' (first | with_reducible rfl | with_reducible refine erase_ite ?_ ?_ | simp (disch := exact sub_trans rfl hk) only [↓auditRecord_erase, ↓dropAudit_erase, ↓failAudited_erase, ↓voidAudited_erase, ↓strike_erase, apply_ite (State.erase mk), ite_self] | (refine (erase_foldl (fun t a => ?_) _ _).trans ?_) | (refine (erase_foldl1 (fun t a => ?_) _ _).trans ?_) | split)

theorem chargeAudit_erase (s : State) (p : ℕ) (a : Audit) {mk : Nat} (hk : 0x2000040000 &&& mk = 0x2000040000) : ((chargeAudit s p a)).erase mk = s.erase mk := by
  unfold chargeAudit
  repeat' (first | with_reducible rfl | with_reducible refine erase_ite ?_ ?_ | simp (disch := exact sub_trans rfl hk) only [↓State.modEngine_erase, ↓chargeDev_erase, apply_ite (State.erase mk), ite_self] | (refine (erase_foldl (fun t a => ?_) _ _).trans ?_) | (refine (erase_foldl1 (fun t a => ?_) _ _).trans ?_) | split)

theorem execAuditCopy_erase (p : ℕ) (differs : Bool) (void : Bool) (addr : ℕ) (s : State) {mk : Nat} (hk : 0x428b8249a24 &&& mk = 0x428b8249a24) (tx : State) (ex : (execAuditCopy p differs void addr s) = .next tx) : tx.erase mk = s.erase mk := by
  unfold execAuditCopy done at ex
  injection ex with ex
  subst ex
  repeat' (first | with_reducible rfl | with_reducible refine erase_ite ?_ ?_ | simp (disch := exact sub_trans rfl hk) only [↓chargeAudit_erase, ↓auditVoid_erase, ↓dropAudit_erase, ↓State.corrected_erase, ↓State.modRegion_erase, ↓auditVerdict_erase, ↓put_flt, apply_ite (State.erase mk), ite_self] | (refine (erase_foldl (fun t a => ?_) _ _).trans ?_) | (refine (erase_foldl1 (fun t a => ?_) _ _).trans ?_) | split)

theorem execAuditThirdRun_erase (p : ℕ) (agreesOriginal : Bool) (agreesAuditor : Bool) (void : Bool) (s : State) {mk : Nat} (hk : 0x428b8249a24 &&& mk = 0x428b8249a24) (tx : State) (ex : (execAuditThirdRun p agreesOriginal agreesAuditor void s) = .next tx) : tx.erase mk = s.erase mk := by
  unfold execAuditThirdRun done at ex
  injection ex with ex
  subst ex
  repeat' (first | with_reducible rfl | with_reducible refine erase_ite ?_ ?_ | simp (disch := exact sub_trans rfl hk) only [↓chargeAudit_erase, ↓auditVoid_erase, ↓auditVerdict_erase, apply_ite (State.erase mk), ite_self] | (refine (erase_foldl (fun t a => ?_) _ _).trans ?_) | (refine (erase_foldl1 (fun t a => ?_) _ _).trans ?_) | split)

theorem execAuditSeedReplace_erase (g : ℕ) (seed : ℕ) (s : State) {mk : Nat} (hk : 0x10200c00 &&& mk = 0x10200c00) (tx : State) (ex : (execAuditSeedReplace g seed s) = .next tx) : tx.erase mk = s.erase mk := by
  unfold execAuditSeedReplace done at ex
  injection ex with ex
  subst ex
  repeat' (first | with_reducible rfl | with_reducible refine erase_ite ?_ ?_ | simp (disch := exact sub_trans rfl hk) only [↓State.atElapsed_erase, ↓State.modRegion_erase, ↓State.emit_erase, ↓put_flt, apply_ite (State.erase mk), ite_self] | (refine (erase_foldl (fun t a => ?_) _ _).trans ?_) | (refine (erase_foldl1 (fun t a => ?_) _ _).trans ?_) | split)

theorem execEngineHandoverCopyComplete_erase (p : ℕ) (badGranules : List ℕ) (s : State) {mk : Nat} (hk : 0x608b8240a24 &&& mk = 0x608b8240a24) (tx : State) (ex : (execEngineHandoverCopyComplete p badGranules s) = .next tx) : tx.erase mk = s.erase mk := by
  unfold execEngineHandoverCopyComplete done at ex
  injection ex with ex
  subst ex
  repeat' (first | with_reducible rfl | with_reducible refine erase_ite ?_ ?_ | simp (disch := exact sub_trans rfl hk) only [↓State.voidRange_erase, ↓fenceIfDue_erase, ↓State.modEngine_erase, ↓put_mem_voids, apply_ite (State.erase mk), ite_self] | (refine (erase_foldl (fun t a => ?_) _ _).trans ?_) | (refine (erase_foldl1 (fun t a => ?_) _ _).trans ?_) | split)

theorem execHandoverNoAnswer_erase (p : ℕ) (s : State) {mk : Nat} (hk : 0x408b8240e24 &&& mk = 0x408b8240e24) (tx : State) (ex : (execHandoverNoAnswer p s) = .next tx) : tx.erase mk = s.erase mk := by
  unfold execHandoverNoAnswer done at ex
  injection ex with ex
  subst ex
  repeat' (first | with_reducible rfl | with_reducible refine erase_ite ?_ ?_ | simp (disch := exact sub_trans rfl hk) only [↓State.atElapsed_erase, ↓State.voidRange_erase, ↓fenceIfDue_erase, ↓State.modEngine_erase, apply_ite (State.erase mk), ite_self] | (refine (erase_foldl (fun t a => ?_) _ _).trans ?_) | (refine (erase_foldl1 (fun t a => ?_) _ _).trans ?_) | split)

theorem transmit_erase (s : State) (port : ℕ) (code : ℕ) (frame : List Byte) {mk : Nat} (hk : 0x100000000 &&& mk = 0x100000000) : ((transmit s port code frame)).erase mk = s.erase mk := by
  unfold transmit
  repeat' (first | with_reducible rfl | with_reducible refine erase_ite ?_ ?_ | simp (disch := exact sub_trans rfl hk) only [↓State.modNet_erase, apply_ite (State.erase mk), ite_self] | (refine (erase_foldl (fun t a => ?_) _ _).trans ?_) | (refine (erase_foldl1 (fun t a => ?_) _ _).trans ?_) | split)

theorem sendSanor_erase (s : State) (d : ℕ) (m : Msg) {mk : Nat} (hk : 0x300000000 &&& mk = 0x300000000) : ((sendSanor s d m)).erase mk = s.erase mk := by
  unfold sendSanor
  repeat' (first | with_reducible rfl | with_reducible refine erase_ite ?_ ?_ | simp (disch := exact sub_trans rfl hk) only [↓transmit_erase, ↓put_lnk, apply_ite (State.erase mk), ite_self] | (refine (erase_foldl (fun t a => ?_) _ _).trans ?_) | (refine (erase_foldl1 (fun t a => ?_) _ _).trans ?_) | split)

theorem sendMsg_erase (s : State) (d : ℕ) (type : ℕ) (payload : List Byte) (handle : ℕ) (number : ℕ) (index : ℕ) (fragments : ℕ) {mk : Nat} (hk : 0x300000000 &&& mk = 0x300000000) : ((sendMsg s d type payload handle number index fragments)).erase mk = s.erase mk := by
  unfold sendMsg
  repeat' (first | with_reducible rfl | with_reducible refine erase_ite ?_ ?_ | simp (disch := exact sub_trans rfl hk) only [↓sendSanor_erase, ↓State.setPeer_erase, apply_ite (State.erase mk), ite_self] | (refine (erase_foldl (fun t a => ?_) _ _).trans ?_) | (refine (erase_foldl1 (fun t a => ?_) _ _).trans ?_) | split)

theorem takeAck_erase (s : State) (d : ℕ) (ack : ℕ) {mk : Nat} (hk : 0x200000000 &&& mk = 0x200000000) : ((takeAck s d ack)).erase mk = s.erase mk := by
  unfold takeAck
  repeat' (first | with_reducible rfl | with_reducible refine erase_ite ?_ ?_ | simp (disch := exact sub_trans rfl hk) only [↓State.modPeer_erase, apply_ite (State.erase mk), ite_self] | (refine (erase_foldl (fun t a => ?_) _ _).trans ?_) | (refine (erase_foldl1 (fun t a => ?_) _ _).trans ?_) | split)

theorem accept_erase (s : State) (d : ℕ) (seq : ℕ) {mk : Nat} (hk : 0x200000000 &&& mk = 0x200000000) : (accept s d seq).2.erase mk = s.erase mk := by
  unfold accept
  repeat' (first | with_reducible rfl | with_reducible refine erase_ite ?_ ?_ | simp (disch := exact sub_trans rfl hk) only [↓State.setPeer_erase, apply_ite (State.erase mk), ite_self] | (refine (erase_foldl (fun t a => ?_) _ _).trans ?_) | (refine (erase_foldl1 (fun t a => ?_) _ _).trans ?_) | split)

theorem State.lnkRecord_erase (s : State) (type : ℕ) (cls : ℕ) (status : ℕ) (p : LnkPl) (inst : ℕ) {mk : Nat} (hk : 0x800 &&& mk = 0x800) : ((State.lnkRecord s type cls status p inst)).erase mk = s.erase mk := by
  unfold State.lnkRecord
  repeat' (first | with_reducible rfl | with_reducible refine erase_ite ?_ ?_ | simp (disch := exact sub_trans rfl hk) only [↓State.emit_erase, apply_ite (State.erase mk), ite_self] | (refine (erase_foldl (fun t a => ?_) _ _).trans ?_) | (refine (erase_foldl1 (fun t a => ?_) _ _).trans ?_) | split)

theorem handoverSend_erase (s : State) (slot : ℕ) {mk : Nat} (hk : 0x301000000 &&& mk = 0x301000000) : ((handoverSend s slot)).erase mk = s.erase mk := by
  unfold handoverSend
  repeat' (first | with_reducible rfl | with_reducible refine erase_ite ?_ ?_ | simp (disch := exact sub_trans rfl hk) only [↓sendMsg_erase, ↓put_ledger, apply_ite (State.erase mk), ite_self] | (refine (erase_foldl (fun t a => ?_) _ _).trans ?_) | (refine (erase_foldl1 (fun t a => ?_) _ _).trans ?_) | split)

theorem sendQuery_erase (s : State) (cls : ℕ) (k : ℕ) (out : ℕ) (embedding : List Byte) (found : List Byte) {mk : Nat} (hk : 0x300000000 &&& mk = 0x300000000) : ((sendQuery s cls k out embedding found)).erase mk = s.erase mk := by
  unfold sendQuery
  repeat' (first | with_reducible rfl | with_reducible refine erase_ite ?_ ?_ | simp (disch := exact sub_trans rfl hk) only [↓sendMsg_erase, ↓put_lnk, apply_ite (State.erase mk), ite_self] | (refine (erase_foldl (fun t a => ?_) _ _).trans ?_) | (refine (erase_foldl1 (fun t a => ?_) _ _).trans ?_) | split)

theorem takeFrom_erase (s : State) (q : Nat) {mk : Nat} (hk : 0x1000000 &&& mk = 0x1000000) (t : Nat × State) (h : takeFrom s q = some t) :
    t.2.erase mk = s.erase mk := by
  revert h
  unfold takeFrom
  dsimp only
  split
  · intro h; cases h; exact put_ledger s hk
  · split
    · intro h; cases h; exact put_ledger s hk
    · exact fun h => nomatch h

theorem allocSlot_erase (s : State) (r : Nat) {mk : Nat} (hk : 0x1000000 &&& mk = 0x1000000) (t : Nat × State) (h : allocSlot s r = some t) :
    t.2.erase mk = s.erase mk := by
  have key : ∀ (l : List Nat) (o : Option (Nat × State)), (∀ t, o = some t → t.2.erase mk = s.erase mk) →
      ∀ t, l.foldl (fun (a : Option (Nat × State)) k => match a with
        | some x => some x
        | none => takeFrom s ((r + k) % 4)) o = some t → t.2.erase mk = s.erase mk := by
    intro l
    induction l with
    | nil => exact fun o ho t e => ho t e
    | cons a l ih =>
      intro o ho
      refine ih _ ?_
      cases o with
      | none => exact fun t e => takeFrom_erase s _ hk t e
      | some x => exact fun t e => ho t e
  exact key _ none (fun t e => nomatch e) t h

theorem State.setIdent_erase (s : State) (slot : ℕ) (x : Ident) {mk : Nat} (hk : 0x1000000 &&& mk = 0x1000000) : ((State.setIdent s slot x)).erase mk = s.erase mk := by
  unfold State.setIdent
  repeat' (first | with_reducible rfl | with_reducible refine erase_ite ?_ ?_ | simp (disch := exact sub_trans rfl hk) only [↓put_ledger, apply_ite (State.erase mk), ite_self] | (refine (erase_foldl (fun t a => ?_) _ _).trans ?_) | (refine (erase_foldl1 (fun t a => ?_) _ _).trans ?_) | split)

theorem State.clrRecord_erase (s : State) (type : ℕ) (slot : ℕ) (status : ℕ) (p : ClrPl) {mk : Nat} (hk : 0x800 &&& mk = 0x800) : ((State.clrRecord s type slot status p)).erase mk = s.erase mk := by
  unfold State.clrRecord
  repeat' (first | with_reducible rfl | with_reducible refine erase_ite ?_ ?_ | simp (disch := exact sub_trans rfl hk) only [↓State.emit_erase, apply_ite (State.erase mk), ite_self] | (refine (erase_foldl (fun t a => ?_) _ _).trans ?_) | (refine (erase_foldl1 (fun t a => ?_) _ _).trans ?_) | split)

theorem joinTail_erase (s : State) (slot : ℕ) {mk : Nat} (hk : 0x1000000 &&& mk = 0x1000000) : ((joinTail s slot)).erase mk = s.erase mk := by
  unfold joinTail
  repeat' (first | with_reducible rfl | with_reducible refine erase_ite ?_ ?_ | simp (disch := exact sub_trans rfl hk) only [↓put_ledger, apply_ite (State.erase mk), ite_self] | (refine (erase_foldl (fun t a => ?_) _ _).trans ?_) | (refine (erase_foldl1 (fun t a => ?_) _ _).trans ?_) | split)

theorem releaseSlot_erase (s : State) (slot : ℕ) {mk : Nat} (hk : 0x1000800 &&& mk = 0x1000800) : ((releaseSlot s slot)).erase mk = s.erase mk := by
  unfold releaseSlot
  repeat' (first | with_reducible rfl | with_reducible refine erase_ite ?_ ?_ | simp (disch := exact sub_trans rfl hk) only [↓State.clrRecord_erase, ↓State.setTrack_erase, ↓joinTail_erase, ↓put_ledger, apply_ite (State.erase mk), ite_self] | (refine (erase_foldl (fun t a => ?_) _ _).trans ?_) | (refine (erase_foldl1 (fun t a => ?_) _ _).trans ?_) | split)

theorem releaseClosed_erase (y0 : ℕ) (y1 : State) (y2 : ℕ) {mk : Nat} (hk : 0x1000800 &&& mk = 0x1000800) : ((releaseClosed y0 y1 y2)).erase mk = y1.erase mk := by
  induction y0 generalizing y1 y2 with
  | zero => rfl
  | succ k ih =>
    unfold releaseClosed
    repeat' (first | with_reducible rfl | with_reducible refine erase_ite ?_ ?_ | simp (disch := exact sub_trans rfl hk) only [↓ih, ↓State.setIdent_erase, ↓releaseSlot_erase, apply_ite (State.erase mk), ite_self] | (refine (erase_foldl (fun t a => ?_) _ _).trans ?_) | (refine (erase_foldl1 (fun t a => ?_) _ _).trans ?_) | split)

theorem closeTrack_erase (s : State) (slot : ℕ) (reason : ℕ) (status : ℕ) {mk : Nat} (hk : 0x1800800 &&& mk = 0x1800800) : ((closeTrack s slot reason status)).erase mk = s.erase mk := by
  unfold closeTrack
  repeat' (first | with_reducible rfl | with_reducible refine erase_ite ?_ ?_ | simp (disch := exact sub_trans rfl hk) only [↓State.clrRecord_erase, ↓State.modClr_erase, ↓State.setTrack_erase, ↓releaseClosed_erase, apply_ite (State.erase mk), ite_self] | (refine (erase_foldl (fun t a => ?_) _ _).trans ?_) | (refine (erase_foldl1 (fun t a => ?_) _ _).trans ?_) | split)

theorem closeStreamTracks_erase (s : State) (n : ℕ) {mk : Nat} (hk : 0x1800800 &&& mk = 0x1800800) : ((closeStreamTracks s n)).erase mk = s.erase mk := by
  unfold closeStreamTracks
  repeat' (first | with_reducible rfl | with_reducible refine erase_ite ?_ ?_ | simp (disch := exact sub_trans rfl hk) only [↓closeTrack_erase, apply_ite (State.erase mk), ite_self] | (refine (erase_foldl (fun t a => ?_) _ _).trans ?_) | (refine (erase_foldl1 (fun t a => ?_) _ _).trans ?_) | split)

theorem execQuarantineEnd_erase (slot : ℕ) (s : State) {mk : Nat} (hk : 0x1000400 &&& mk = 0x1000400) (tx : State) (ex : (execQuarantineEnd slot s) = .next tx) : tx.erase mk = s.erase mk := by
  unfold execQuarantineEnd done at ex
  injection ex with ex
  subst ex
  repeat' (first | with_reducible rfl | with_reducible refine erase_ite ?_ ?_ | simp (disch := exact sub_trans rfl hk) only [↓State.atElapsed_erase, ↓joinTail_erase, ↓State.setTrack_erase, ↓put_ledger, apply_ite (State.erase mk), ite_self] | (refine (erase_foldl (fun t a => ?_) _ _).trans ?_) | (refine (erase_foldl1 (fun t a => ?_) _ _).trans ?_) | split)

theorem touchLine_erase (s : State) (r : ℕ) (slot : ℕ) (old : Track) {mk : Nat} (hk : 0x800000 &&& mk = 0x800000) : ((touchLine s r slot old)).erase mk = s.erase mk := by
  unfold touchLine
  repeat' (first | with_reducible rfl | with_reducible refine erase_ite ?_ ?_ | simp (disch := exact sub_trans rfl hk) only [↓State.modClr_erase, apply_ite (State.erase mk), ite_self] | (refine (erase_foldl (fun t a => ?_) _ _).trans ?_) | (refine (erase_foldl1 (fun t a => ?_) _ _).trans ?_) | split)

theorem writeTrack_erase (s : State) (r : ℕ) (slot : ℕ) (t : Track) {mk : Nat} (hk : 0x1800000 &&& mk = 0x1800000) : ((writeTrack s r slot t)).erase mk = s.erase mk := by
  unfold writeTrack
  repeat' (first | with_reducible rfl | with_reducible refine erase_ite ?_ ?_ | simp (disch := exact sub_trans rfl hk) only [↓State.setTrack_erase, ↓touchLine_erase, apply_ite (State.erase mk), ite_self] | (refine (erase_foldl (fun t a => ?_) _ _).trans ?_) | (refine (erase_foldl1 (fun t a => ?_) _ _).trans ?_) | split)

theorem execLedgerWriteback_erase (r : ℕ) (slot : ℕ) (s : State) {mk : Nat} (hk : 0x800000 &&& mk = 0x800000) (tx : State) (ex : (execLedgerWriteback r slot s) = .next tx) : tx.erase mk = s.erase mk := by
  unfold execLedgerWriteback done at ex
  injection ex with ex
  subst ex
  repeat' (first | with_reducible rfl | with_reducible refine erase_ite ?_ ?_ | simp (disch := exact sub_trans rfl hk) only [↓State.modClr_erase, apply_ite (State.erase mk), ite_self] | (refine (erase_foldl (fun t a => ?_) _ _).trans ?_) | (refine (erase_foldl1 (fun t a => ?_) _ _).trans ?_) | split)

theorem confirmTrack_erase (s : State) (slot : ℕ) (f : Member) {mk : Nat} (hk : 0x8001800 &&& mk = 0x8001800) : ((confirmTrack s slot f)).erase mk = s.erase mk := by
  unfold confirmTrack
  repeat' (first | with_reducible rfl | with_reducible refine erase_ite ?_ ?_ | simp (disch := exact sub_trans rfl hk) only [↓captureSample_erase, ↓State.clrRecord_erase, apply_ite (State.erase mk), ite_self] | (refine (erase_foldl (fun t a => ?_) _ _).trans ?_) | (refine (erase_foldl1 (fun t a => ?_) _ _).trans ?_) | split)

theorem updateTrack_erase (s : State) (r : ℕ) (p : AssocParam) (f : Member) (slot : ℕ) (d : Det) {mk : Nat} (hk : 0x9801800 &&& mk = 0x9801800) : ((updateTrack s r p f slot d)).erase mk = s.erase mk := by
  unfold updateTrack
  repeat' (first | with_reducible rfl | with_reducible refine erase_ite ?_ ?_ | simp (disch := exact sub_trans rfl hk) only [↓writeTrack_erase, ↓confirmTrack_erase, apply_ite (State.erase mk), ite_self] | (refine (erase_foldl (fun t a => ?_) _ _).trans ?_) | (refine (erase_foldl1 (fun t a => ?_) _ _).trans ?_) | split)

theorem missTrack_erase (s : State) (r : ℕ) (p : AssocParam) (slot : ℕ) {mk : Nat} (hk : 0x1800800 &&& mk = 0x1800800) : ((missTrack s r p slot)).erase mk = s.erase mk := by
  unfold missTrack
  repeat' (first | with_reducible rfl | with_reducible refine erase_ite ?_ ?_ | simp (disch := exact sub_trans rfl hk) only [↓closeTrack_erase, ↓writeTrack_erase, apply_ite (State.erase mk), ite_self] | (refine (erase_foldl (fun t a => ?_) _ _).trans ?_) | (refine (erase_foldl1 (fun t a => ?_) _ _).trans ?_) | split)

theorem openTrack_erase (s : State) (r : Nat) (p : AssocParam) (f : Member) (n : Nat) (d : Det) {mk : Nat} (hk : 0x9801800 &&& mk = 0x9801800) :
    (openTrack s r p f n d).1.erase mk = s.erase mk := by
  unfold openTrack
  split
  · rfl
  · refine Eq.trans ?_ (allocSlot_erase s r (sub_trans rfl hk) _ ‹_›)
    repeat' (first | with_reducible rfl | with_reducible refine erase_ite ?_ ?_ | simp (disch := exact sub_trans rfl hk) only [↓allocSlot_erase, ↓State.setIdent_erase, ↓writeTrack_erase, ↓State.modClr_erase, ↓State.clrRecord_erase, ↓confirmTrack_erase, ↓State.setTrack_erase, apply_ite (State.erase mk), ite_self] | (refine (erase_foldl (fun t a => ?_) _ _).trans ?_) | (refine (erase_foldl1 (fun t a => ?_) _ _).trans ?_) | split)

theorem updateFrame_erase (s : State) (r : ℕ) (p : AssocParam) (f : Member) (dets : List Det) (slotOf : ℕ → ℕ) (a : AssocResult) {mk : Nat} (hk : 0x9801800 &&& mk = 0x9801800) : ((updateFrame s r p f dets slotOf a)).erase mk = s.erase mk := by
  unfold updateFrame
  repeat' (first | with_reducible rfl | with_reducible refine erase_ite ?_ ?_ | simp (disch := exact sub_trans rfl hk) only [↓updateTrack_erase, ↓missTrack_erase, apply_ite (State.erase mk), ite_self] | (refine (erase_foldl (fun t a => ?_) _ _).trans ?_) | (refine (erase_foldl1 (fun t a => ?_) _ _).trans ?_) | split)

theorem openFresh_erase (s : State) (r : ℕ) (p : AssocParam) (f : Member) (n : ℕ) (dets : List Det) (fresh : List ℕ) {mk : Nat} (hk : 0x9801800 &&& mk = 0x9801800) : (openFresh s r p f n dets fresh).1.erase mk = s.erase mk := by
  unfold openFresh
  repeat' (first | with_reducible rfl | with_reducible refine erase_ite ?_ ?_ | simp (disch := exact sub_trans rfl hk) only [↓openTrack_erase, apply_ite (State.erase mk), ite_self] | (refine (erase_foldl (fun t a => ?_) _ _).trans ?_) | (refine (erase_foldl1 (fun t a => ?_) _ _).trans ?_) | split)

theorem noteUnresolved_erase (s : State) (r : ℕ) (n : ℕ) (f : Member) (count : ℕ) {mk : Nat} (hk : 0x800800 &&& mk = 0x800800) : ((noteUnresolved s r n f count)).erase mk = s.erase mk := by
  unfold noteUnresolved
  repeat' (first | with_reducible rfl | with_reducible refine erase_ite ?_ ?_ | simp (disch := exact sub_trans rfl hk) only [↓State.modClr_erase, ↓State.emit_erase, apply_ite (State.erase mk), ite_self] | (refine (erase_foldl (fun t a => ?_) _ _).trans ?_) | (refine (erase_foldl1 (fun t a => ?_) _ _).trans ?_) | split)

theorem applyAssoc_erase (s : State) (r : ℕ) (f : Member) (c : ClrCmd) {mk : Nat} (hk : 0xd801800 &&& mk = 0xd801800) : (applyAssoc s r f c).1.erase mk = s.erase mk := by
  unfold applyAssoc
  repeat' (first | with_reducible rfl | with_reducible refine erase_ite ?_ ?_ | simp (disch := exact sub_trans rfl hk) only [↓updateFrame_erase, ↓openFresh_erase, ↓noteUnresolved_erase, ↓State.modStream_erase, ↓appendMask_erase, ↓put_ledger, apply_ite (State.erase mk), ite_self] | (refine (erase_foldl (fun t a => ?_) _ _).trans ?_) | (refine (erase_foldl1 (fun t a => ?_) _ _).trans ?_) | split)

theorem relink_erase (s : State) (root : ℕ) (slot : ℕ) {mk : Nat} (hk : 0x1000800 &&& mk = 0x1000800) : ((relink s root slot)).erase mk = s.erase mk := by
  unfold relink
  repeat' (first | with_reducible rfl | with_reducible refine erase_ite ?_ ?_ | simp (disch := exact sub_trans rfl hk) only [↓State.setIdent_erase, ↓releaseClosed_erase, apply_ite (State.erase mk), ite_self] | (refine (erase_foldl (fun t a => ?_) _ _).trans ?_) | (refine (erase_foldl1 (fun t a => ?_) _ _).trans ?_) | split)

theorem findRoot_erase (s : State) (slot : ℕ) {mk : Nat} (hk : 0x1000800 &&& mk = 0x1000800) : (findRoot s slot).2.erase mk = s.erase mk := by
  unfold findRoot
  repeat' (first | with_reducible rfl | with_reducible refine erase_ite ?_ ?_ | simp (disch := exact sub_trans rfl hk) only [↓relink_erase, apply_ite (State.erase mk), ite_self] | (refine (erase_foldl (fun t a => ?_) _ _).trans ?_) | (refine (erase_foldl1 (fun t a => ?_) _ _).trans ?_) | split)

theorem mergeIdent_erase (s : State) (a : ℕ) (b : ℕ) {mk : Nat} (hk : 0x1000800 &&& mk = 0x1000800) : (mergeIdent s a b).1.erase mk = s.erase mk := by
  unfold mergeIdent
  repeat' (first | with_reducible rfl | with_reducible refine erase_ite ?_ ?_ | simp (disch := exact sub_trans rfl hk) only [↓findRoot_erase, ↓State.setIdent_erase, ↓State.clrRecord_erase, apply_ite (State.erase mk), ite_self] | (refine (erase_foldl (fun t a => ?_) _ _).trans ?_) | (refine (erase_foldl1 (fun t a => ?_) _ _).trans ?_) | split)

theorem adoptIdent_erase (s : State) (a : ℕ) (foreign : ℕ) {mk : Nat} (hk : 0x1000800 &&& mk = 0x1000800) : (adoptIdent s a foreign).1.erase mk = s.erase mk := by
  unfold adoptIdent
  repeat' (first | with_reducible rfl | with_reducible refine erase_ite ?_ ?_ | simp (disch := exact sub_trans rfl hk) only [↓findRoot_erase, ↓State.setIdent_erase, ↓State.clrRecord_erase, apply_ite (State.erase mk), ite_self] | (refine (erase_foldl (fun t a => ?_) _ _).trans ?_) | (refine (erase_foldl1 (fun t a => ?_) _ _).trans ?_) | split)

theorem identPair_erase (s : State) (bs : List Byte) {mk : Nat} (hk : 0x1000800 &&& mk = 0x1000800) : (identPair s bs).1.erase mk = s.erase mk := by
  unfold identPair
  repeat' (first | with_reducible rfl | with_reducible refine erase_ite ?_ ?_ | simp (disch := exact sub_trans rfl hk) only [↓findRoot_erase, ↓adoptIdent_erase, ↓mergeIdent_erase, apply_ite (State.erase mk), ite_self] | (refine (erase_foldl (fun t a => ?_) _ _).trans ?_) | (refine (erase_foldl1 (fun t a => ?_) _ _).trans ?_) | split)

theorem applyIdent_erase (s : State) (c : ClrCmd) {mk : Nat} (hk : 0x1000800 &&& mk = 0x1000800) : (applyIdent s c).1.erase mk = s.erase mk := by
  unfold applyIdent
  repeat' (first | with_reducible rfl | with_reducible refine erase_ite ?_ ?_ | simp (disch := exact sub_trans rfl hk) only [↓identPair_erase, apply_ite (State.erase mk), ite_self] | (refine (erase_foldl (fun t a => ?_) _ _).trans ?_) | (refine (erase_foldl1 (fun t a => ?_) _ _).trans ?_) | split)

theorem clrComplete_erase (s : State) (r : ℕ) (c : ClrCmd) (status : ℕ) (c0 : ℕ) (c1 : ℕ) (c2 : ℕ) {mk : Nat} (hk : 0x800800000 &&& mk = 0x800800000) : ((clrComplete s r c status c0 c1 c2)).erase mk = s.erase mk := by
  unfold clrComplete
  repeat' (first | with_reducible rfl | with_reducible refine erase_ite ?_ ?_ | simp (disch := exact sub_trans rfl hk) only [↓State.trace_erase, ↓State.modClr_erase, apply_ite (State.erase mk), ite_self] | (refine (erase_foldl (fun t a => ?_) _ _).trans ?_) | (refine (erase_foldl1 (fun t a => ?_) _ _).trans ?_) | split)

theorem clrJobFail_erase (s : State) (j : ClrJob) (c : ClrCmd) (status : ℕ) {mk : Nat} (hk : 0x9800 &&& mk = 0x9800) : ((clrJobFail s j c status)).erase mk = s.erase mk := by
  unfold clrJobFail
  repeat' (first | with_reducible rfl | with_reducible refine erase_ite ?_ ?_ | simp (disch := exact sub_trans rfl hk) only [↓removeMember_erase, ↓restartStream_erase, apply_ite (State.erase mk), ite_self] | (refine (erase_foldl (fun t a => ?_) _ _).trans ?_) | (refine (erase_foldl1 (fun t a => ?_) _ _).trans ?_) | split)

theorem beginNext_erase (s : State) (r : ℕ) {mk : Nat} (hk : 0x800000 &&& mk = 0x800000) : ((beginNext s r)).erase mk = s.erase mk := by
  unfold beginNext
  repeat' (first | with_reducible rfl | with_reducible refine erase_ite ?_ ?_ | simp (disch := exact sub_trans rfl hk) only [↓State.modClr_erase, apply_ite (State.erase mk), ite_self] | (refine (erase_foldl (fun t a => ?_) _ _).trans ?_) | (refine (erase_foldl1 (fun t a => ?_) _ _).trans ?_) | split)

theorem issueClr_erase (s : State) (r : ℕ) (opcode : ℕ) (cmd : List Byte) {mk : Nat} (hk : 0x890809804 &&& mk = 0x890809804) : ((issueClr s r opcode cmd)).erase mk = s.erase mk := by
  unfold issueClr
  repeat' (first | with_reducible rfl | with_reducible refine erase_ite ?_ ?_ | simp (disch := exact sub_trans rfl hk) only [↓clrComplete_erase, ↓State.contained_erase, ↓clrJobFail_erase, ↓beginNext_erase, ↓State.modClr_erase, apply_ite (State.erase mk), ite_self] | (refine (erase_foldl (fun t a => ?_) _ _).trans ?_) | (refine (erase_foldl1 (fun t a => ?_) _ _).trans ?_) | split)

theorem execAssoc_erase (r : ℕ) (cmd : List Byte) (s : State) {mk : Nat} (hk : 0x890809804 &&& mk = 0x890809804) (tx : State) (ex : (execAssoc r cmd s) = .next tx) : tx.erase mk = s.erase mk := by
  unfold execAssoc done at ex
  injection ex with ex
  subst ex
  repeat' (first | with_reducible rfl | with_reducible refine erase_ite ?_ ?_ | simp (disch := exact sub_trans rfl hk) only [↓issueClr_erase, apply_ite (State.erase mk), ite_self] | (refine (erase_foldl (fun t a => ?_) _ _).trans ?_) | (refine (erase_foldl1 (fun t a => ?_) _ _).trans ?_) | split)

theorem execNms_erase (r : ℕ) (cmd : List Byte) (s : State) {mk : Nat} (hk : 0x890809804 &&& mk = 0x890809804) (tx : State) (ex : (execNms r cmd s) = .next tx) : tx.erase mk = s.erase mk := by
  unfold execNms done at ex
  injection ex with ex
  subst ex
  repeat' (first | with_reducible rfl | with_reducible refine erase_ite ?_ ?_ | simp (disch := exact sub_trans rfl hk) only [↓issueClr_erase, apply_ite (State.erase mk), ite_self] | (refine (erase_foldl (fun t a => ?_) _ _).trans ?_) | (refine (erase_foldl1 (fun t a => ?_) _ _).trans ?_) | split)

theorem execKnn_erase (r : ℕ) (cmd : List Byte) (s : State) {mk : Nat} (hk : 0x890809804 &&& mk = 0x890809804) (tx : State) (ex : (execKnn r cmd s) = .next tx) : tx.erase mk = s.erase mk := by
  unfold execKnn done at ex
  injection ex with ex
  subst ex
  repeat' (first | with_reducible rfl | with_reducible refine erase_ite ?_ ?_ | simp (disch := exact sub_trans rfl hk) only [↓issueClr_erase, apply_ite (State.erase mk), ite_self] | (refine (erase_foldl (fun t a => ?_) _ _).trans ?_) | (refine (erase_foldl1 (fun t a => ?_) _ _).trans ?_) | split)

theorem execIdent_erase (r : ℕ) (cmd : List Byte) (s : State) {mk : Nat} (hk : 0x890809804 &&& mk = 0x890809804) (tx : State) (ex : (execIdent r cmd s) = .next tx) : tx.erase mk = s.erase mk := by
  unfold execIdent done at ex
  injection ex with ex
  subst ex
  repeat' (first | with_reducible rfl | with_reducible refine erase_ite ?_ ?_ | simp (disch := exact sub_trans rfl hk) only [↓issueClr_erase, apply_ite (State.erase mk), ite_self] | (refine (erase_foldl (fun t a => ?_) _ _).trans ?_) | (refine (erase_foldl1 (fun t a => ?_) _ _).trans ?_) | split)

theorem execGather_erase (r : ℕ) (cmd : List Byte) (s : State) {mk : Nat} (hk : 0x890809804 &&& mk = 0x890809804) (tx : State) (ex : (execGather r cmd s) = .next tx) : tx.erase mk = s.erase mk := by
  unfold execGather done at ex
  injection ex with ex
  subst ex
  repeat' (first | with_reducible rfl | with_reducible refine erase_ite ?_ ?_ | simp (disch := exact sub_trans rfl hk) only [↓issueClr_erase, apply_ite (State.erase mk), ite_self] | (refine (erase_foldl (fun t a => ?_) _ _).trans ?_) | (refine (erase_foldl1 (fun t a => ?_) _ _).trans ?_) | split)

theorem execScatter_erase (r : ℕ) (cmd : List Byte) (s : State) {mk : Nat} (hk : 0x890809804 &&& mk = 0x890809804) (tx : State) (ex : (execScatter r cmd s) = .next tx) : tx.erase mk = s.erase mk := by
  unfold execScatter done at ex
  injection ex with ex
  subst ex
  repeat' (first | with_reducible rfl | with_reducible refine erase_ite ?_ ?_ | simp (disch := exact sub_trans rfl hk) only [↓issueClr_erase, apply_ite (State.erase mk), ite_self] | (refine (erase_foldl (fun t a => ?_) _ _).trans ?_) | (refine (erase_foldl1 (fun t a => ?_) _ _).trans ?_) | split)

theorem handOver_erase (s : State) (n : ℕ) {mk : Nat} (hk : 0x301000000 &&& mk = 0x301000000) : ((handOver s n)).erase mk = s.erase mk := by
  unfold handOver
  repeat' (first | with_reducible rfl | with_reducible refine erase_ite ?_ ?_ | simp (disch := exact sub_trans rfl hk) only [↓handoverSend_erase, apply_ite (State.erase mk), ite_self] | (refine (erase_foldl (fun t a => ?_) _ _).trans ?_) | (refine (erase_foldl1 (fun t a => ?_) _ _).trans ?_) | split)

theorem peerQueries_erase (s : State) (m : ℕ) (c : ClrCmd) {mk : Nat} (hk : 0x300000000 &&& mk = 0x300000000) : ((peerQueries s m c)).erase mk = s.erase mk := by
  unfold peerQueries
  repeat' (first | with_reducible rfl | with_reducible refine erase_ite ?_ ?_ | simp (disch := exact sub_trans rfl hk) only [↓sendQuery_erase, apply_ite (State.erase mk), ite_self] | (refine (erase_foldl (fun t a => ?_) _ _).trans ?_) | (refine (erase_foldl1 (fun t a => ?_) _ _).trans ?_) | split)

theorem runClr_erase (s : State) (r : ℕ) (j : ClrJob) (c : ClrCmd) {mk : Nat} (hk : 0x106030d801800 &&& mk = 0x106030d801800) : (runClr s r j c).1.erase mk = s.erase mk := by
  unfold runClr
  repeat' (first | with_reducible rfl | with_reducible refine erase_ite ?_ ?_ | simp (disch := exact sub_trans rfl hk) only [↓applyAssoc_erase, ↓handOver_erase, ↓State.store_erase, ↓peerQueries_erase, ↓applyIdent_erase, ↓put_free, apply_ite (State.erase mk), ite_self] | (refine (erase_foldl (fun t a => ?_) _ _).trans ?_) | (refine (erase_foldl1 (fun t a => ?_) _ _).trans ?_) | split)

theorem chargeClr_erase (s : State) (r : ℕ) (j : ClrJob) (c : ClrCmd) (cycles : ℕ) {mk : Nat} (hk : 0x1000000000 &&& mk = 0x1000000000) : ((chargeClr s r j c cycles)).erase mk = s.erase mk := by
  unfold chargeClr
  repeat' (first | with_reducible rfl | with_reducible refine erase_ite ?_ ?_ | simp (disch := exact sub_trans rfl hk) only [↓State.chargeDie_erase, ↓State.modTill_erase, apply_ite (State.erase mk), ite_self] | (refine (erase_foldl (fun t a => ?_) _ _).trans ?_) | (refine (erase_foldl1 (fun t a => ?_) _ _).trans ?_) | split)

theorem execClearingCommandCommit_erase (d : ClrDone) (s : State) {mk : Nat} (hk : 0x1061b0da01800 &&& mk = 0x1061b0da01800) (tx : State) (ex : (execClearingCommandCommit d s) = .next tx) : tx.erase mk = s.erase mk := by
  unfold execClearingCommandCommit done at ex
  injection ex with ex
  subst ex
  repeat' (first | with_reducible rfl | with_reducible refine erase_ite ?_ ?_ | simp (disch := exact sub_trans rfl hk) only [↓runClr_erase, ↓chargeClr_erase, ↓State.modClr_erase, ↓clrComplete_erase, ↓auditDraw_erase, ↓beginNext_erase, apply_ite (State.erase mk), ite_self] | (refine (erase_foldl (fun t a => ?_) _ _).trans ?_) | (refine (erase_foldl1 (fun t a => ?_) _ _).trans ?_) | split)

theorem abandonClr_erase (s : State) (r : ℕ) (j : ClrJob) (status : ℕ) {mk : Nat} (hk : 0x800809800 &&& mk = 0x800809800) : ((abandonClr s r j status)).erase mk = s.erase mk := by
  unfold abandonClr
  repeat' (first | with_reducible rfl | with_reducible refine erase_ite ?_ ?_ | simp (disch := exact sub_trans rfl hk) only [↓clrJobFail_erase, ↓State.modClr_erase, ↓clrComplete_erase, apply_ite (State.erase mk), ite_self] | (refine (erase_foldl (fun t a => ?_) _ _).trans ?_) | (refine (erase_foldl1 (fun t a => ?_) _ _).trans ?_) | split)

theorem execClearingWatchdogExpiry_erase (r : ℕ) (s : State) {mk : Nat} (hk : 0x890809804 &&& mk = 0x890809804) (tx : State) (ex : (execClearingWatchdogExpiry r s) = .next tx) : tx.erase mk = s.erase mk := by
  unfold execClearingWatchdogExpiry done at ex
  injection ex with ex
  subst ex
  repeat' (first | with_reducible rfl | with_reducible refine erase_ite ?_ ?_ | simp (disch := exact sub_trans rfl hk) only [↓State.modClr_erase, ↓clrComplete_erase, ↓State.corrected_erase, ↓State.contained_erase, ↓beginNext_erase, ↓abandonClr_erase, apply_ite (State.erase mk), ite_self] | (refine (erase_foldl (fun t a => ?_) _ _).trans ?_) | (refine (erase_foldl1 (fun t a => ?_) _ _).trans ?_) | split)

theorem execClearingVoidRead_erase (r : ℕ) (addr : ℕ) (s : State) {mk : Nat} (hk : 0x60801809800 &&& mk = 0x60801809800) (tx : State) (ex : (execClearingVoidRead r addr s) = .next tx) : tx.erase mk = s.erase mk := by
  unfold execClearingVoidRead done at ex
  injection ex with ex
  subst ex
  repeat' (first | with_reducible rfl | with_reducible refine erase_ite ?_ ?_ | simp (disch := exact sub_trans rfl hk) only [↓clrComplete_erase, ↓State.store_erase, ↓closeTrack_erase, ↓beginNext_erase, ↓abandonClr_erase, apply_ite (State.erase mk), ite_self] | (refine (erase_foldl (fun t a => ?_) _ _).trans ?_) | (refine (erase_foldl1 (fun t a => ?_) _ _).trans ?_) | split)

theorem execWriteLogOverflow_erase (r : ℕ) (s : State) {mk : Nat} (hk : 0x800809800 &&& mk = 0x800809800) (tx : State) (ex : (execWriteLogOverflow r s) = .next tx) : tx.erase mk = s.erase mk := by
  unfold execWriteLogOverflow done at ex
  injection ex with ex
  subst ex
  repeat' (first | with_reducible rfl | with_reducible refine erase_ite ?_ ?_ | simp (disch := exact sub_trans rfl hk) only [↓beginNext_erase, ↓abandonClr_erase, apply_ite (State.erase mk), ite_self] | (refine (erase_foldl (fun t a => ?_) _ _).trans ?_) | (refine (erase_foldl1 (fun t a => ?_) _ _).trans ?_) | split)

theorem flushLine_erase (s : State) (q : ℕ) (failed : Bool) (k : ℕ) (l : Line) {mk : Nat} (hk : 0x1800800 &&& mk = 0x1800800) : ((flushLine s q failed k l)).erase mk = s.erase mk := by
  unfold flushLine
  repeat' (first | with_reducible rfl | with_reducible refine erase_ite ?_ ?_ | simp (disch := exact sub_trans rfl hk) only [↓State.setTrack_erase, ↓closeTrack_erase, apply_ite (State.erase mk), ite_self] | (refine (erase_foldl (fun t a => ?_) _ _).trans ?_) | (refine (erase_foldl1 (fun t a => ?_) _ _).trans ?_) | split)

theorem flushCache_erase (s : State) (r : ℕ) (q : ℕ) {mk : Nat} (hk : 0x1000091800804 &&& mk = 0x1000091800804) : ((flushCache s r q)).erase mk = s.erase mk := by
  unfold flushCache
  repeat' (first | with_reducible rfl | with_reducible refine erase_ite ?_ ?_ | simp (disch := exact sub_trans rfl hk) only [↓State.modClr_erase, ↓flushLine_erase, ↓State.setTrack_erase, ↓State.contained_erase, ↓State.emit_erase, ↓put_free, apply_ite (State.erase mk), ite_self] | (refine (erase_foldl (fun t a => ?_) _ _).trans ?_) | (refine (erase_foldl1 (fun t a => ?_) _ _).trans ?_) | split)

theorem fenceClearing_erase (s : State) (r : ℕ) (source : ℕ) {mk : Nat} (hk : 0x1000899800a04 &&& mk = 0x1000899800a04) : ((fenceClearing s r source)).erase mk = s.erase mk := by
  unfold fenceClearing
  repeat' (first | with_reducible rfl | with_reducible refine erase_ite ?_ ?_ | simp (disch := exact sub_trans rfl hk) only [↓State.modClr_erase, ↓State.fenceEvent_erase, ↓beginNext_erase, ↓flushCache_erase, ↓capacityChanged_erase, apply_ite (State.erase mk), ite_self] | (refine (erase_foldl (fun t a => ?_) _ _).trans ?_) | (refine (erase_foldl1 (fun t a => ?_) _ _).trans ?_) | split)

theorem execClearingAuditCopy_erase (r : ℕ) (differs : Bool) (s : State) {mk : Nat} (hk : 0x1000899800a04 &&& mk = 0x1000899800a04) (tx : State) (ex : (execClearingAuditCopy r differs s) = .next tx) : tx.erase mk = s.erase mk := by
  unfold execClearingAuditCopy done at ex
  injection ex with ex
  subst ex
  repeat' (first | with_reducible rfl | with_reducible refine erase_ite ?_ ?_ | simp (disch := exact sub_trans rfl hk) only [↓State.modClr_erase, ↓State.corrected_erase, ↓State.emit_erase, ↓fenceClearing_erase, ↓put_flt, apply_ite (State.erase mk), ite_self] | (refine (erase_foldl (fun t a => ?_) _ _).trans ?_) | (refine (erase_foldl1 (fun t a => ?_) _ _).trans ?_) | split)

theorem execOwnershipHandoff_erase (n : ℕ) (s : State) {mk : Nat} (hk : 0x1800000 &&& mk = 0x1800000) (tx : State) (ex : (execOwnershipHandoff n s) = .next tx) : tx.erase mk = s.erase mk := by
  unfold execOwnershipHandoff done at ex
  injection ex with ex
  subst ex
  repeat' (first | with_reducible rfl | with_reducible refine erase_ite ?_ ?_ | simp (disch := exact sub_trans rfl hk) only [↓State.modClr_erase, ↓State.setTrack_erase, ↓beginNext_erase, apply_ite (State.erase mk), ite_self] | (refine (erase_foldl (fun t a => ?_) _ _).trans ?_) | (refine (erase_foldl1 (fun t a => ?_) _ _).trans ?_) | split)

theorem placeEval_erase (s : State) (p : Picture) (k : ℕ) (good : Bool) (age : ℕ) {mk : Nat} (hk : 0xa0000a04 &&& mk = 0xa0000a04) : ((placeEval s p k good age)).erase mk = s.erase mk := by
  unfold placeEval
  repeat' (first | with_reducible rfl | with_reducible refine erase_ite ?_ ?_ | simp (disch := exact sub_trans rfl hk) only [↓occupiedBy_erase, ↓noteEval_erase, ↓put_saf, apply_ite (State.erase mk), ite_self] | (refine (erase_foldl (fun t a => ?_) _ _).trans ?_) | (refine (erase_foldl1 (fun t a => ?_) _ _).trans ?_) | split)

theorem zoneInput_erase (s : State) (z : ℕ) (trusted : Bool) (digest : Option Bool) {mk : Nat} (hk : 0xa0000804 &&& mk = 0xa0000804) : ((zoneInput s z trusted digest)).erase mk = s.erase mk := by
  unfold zoneInput
  repeat' (first | with_reducible rfl | with_reducible refine erase_ite ?_ ?_ | simp (disch := exact sub_trans rfl hk) only [↓State.setZone_erase, ↓untrustedInput_erase, ↓occupyZone_erase, apply_ite (State.erase mk), ite_self] | (refine (erase_foldl (fun t a => ?_) _ _).trans ?_) | (refine (erase_foldl1 (fun t a => ?_) _ _).trans ?_) | split)

theorem zoneTensor_erase (s : State) (p : Picture) (addr : ℕ) (lane0 : ℕ) (lane1 : ℕ) {mk : Nat} (hk : 0x600a0011a04 &&& mk = 0x600a0011a04) : ((zoneTensor s p addr lane0 lane1)).erase mk = s.erase mk := by
  unfold zoneTensor
  repeat' (first | with_reducible rfl | with_reducible refine erase_ite ?_ ?_ | simp (disch := exact sub_trans rfl hk) only [↓State.setStream_erase, ↓zoneInput_erase, ↓State.modStream_erase, ↓State.store_erase, ↓placeEval_erase, ↓put_preConvSat, apply_ite (State.erase mk), ite_self] | (refine (erase_foldl (fun t a => ?_) _ _).trans ?_) | (refine (erase_foldl1 (fun t a => ?_) _ _).trans ?_) | split)

theorem execZoneTensorComplete_erase (n : ℕ) (tick : ℕ) (page : ℕ) (lanes : ZoneLanes) (s : State) {mk : Nat} (hk : 0x600a0011a04 &&& mk = 0x600a0011a04) (tx : State) (ex : (execZoneTensorComplete n tick page lanes s) = .next tx) : tx.erase mk = s.erase mk := by
  unfold execZoneTensorComplete done at ex
  injection ex with ex
  subst ex
  repeat' (first | with_reducible rfl | with_reducible refine erase_ite ?_ ?_ | simp (disch := exact sub_trans rfl hk) only [↓zoneTensor_erase, apply_ite (State.erase mk), ite_self] | (refine (erase_foldl (fun t a => ?_) _ _).trans ?_) | (refine (erase_foldl1 (fun t a => ?_) _ _).trans ?_) | split)

theorem decideEval_erase (s : State) (x : Eval) (status : ℕ) {mk : Nat} (hk : 0x820000000 &&& mk = 0x820000000) : ((decideEval s x status)).erase mk = s.erase mk := by
  unfold decideEval
  repeat' (first | with_reducible rfl | with_reducible refine erase_ite ?_ ?_ | simp (disch := exact sub_trans rfl hk) only [↓State.trace_erase, ↓setEval_erase, ↓put_saf, apply_ite (State.erase mk), ite_self] | (refine (erase_foldl (fun t a => ?_) _ _).trans ?_) | (refine (erase_foldl1 (fun t a => ?_) _ _).trans ?_) | split)

theorem zoneVerdict_erase (s : State) (x : Eval) (codes : List ℤ) (z : ℕ) {mk : Nat} (hk : 0xa0000804 &&& mk = 0xa0000804) : ((zoneVerdict s x codes z)).erase mk = s.erase mk := by
  unfold zoneVerdict
  repeat' (first | with_reducible rfl | with_reducible refine erase_ite ?_ ?_ | simp (disch := exact sub_trans rfl hk) only [↓occupiedBy_erase, ↓tryClear_erase, ↓State.setZone_erase, apply_ite (State.erase mk), ite_self] | (refine (erase_foldl (fun t a => ?_) _ _).trans ?_) | (refine (erase_foldl1 (fun t a => ?_) _ _).trans ?_) | split)

theorem agreed_erase (s : State) (x : Eval) (codes : List ℤ) (minority : Option ℕ) {mk : Nat} (hk : 0x8b8240a24 &&& mk = 0x8b8240a24) : ((agreed s x codes minority)).erase mk = s.erase mk := by
  unfold agreed
  repeat' (first | with_reducible rfl | with_reducible refine erase_ite ?_ ?_ | simp (disch := exact sub_trans rfl hk) only [↓noteResult_erase, ↓decideEval_erase, ↓strike_erase, ↓State.corrected_erase, ↓zoneVerdict_erase, apply_ite (State.erase mk), ite_self] | (refine (erase_foldl (fun t a => ?_) _ _).trans ?_) | (refine (erase_foldl1 (fun t a => ?_) _ _).trans ?_) | split)

theorem noMajority_erase (s : State) (x : Eval) (cause : ℕ) (mapping : ℕ) (cell : ℕ) {mk : Nat} (hk : 0x8a0000a04 &&& mk = 0x8a0000a04) : ((noMajority s x cause mapping cell)).erase mk = s.erase mk := by
  unfold noMajority
  repeat' (first | with_reducible rfl | with_reducible refine erase_ite ?_ ?_ | simp (disch := exact sub_trans rfl hk) only [↓evalRecords_erase, ↓noteResult_erase, ↓decideEval_erase, ↓occupiedBy_erase, apply_ite (State.erase mk), ite_self] | (refine (erase_foldl (fun t a => ?_) _ _).trans ?_) | (refine (erase_foldl1 (fun t a => ?_) _ _).trans ?_) | split)

theorem compareOutputs_erase (s : State) (x : Eval) {mk : Nat} (hk : 0x8b8240a24 &&& mk = 0x8b8240a24) : ((compareOutputs s x)).erase mk = s.erase mk := by
  unfold compareOutputs
  repeat' (first | with_reducible rfl | with_reducible refine erase_ite ?_ ?_ | simp (disch := exact sub_trans rfl hk) only [↓agreed_erase, ↓noMajority_erase, ↓startThird_erase, apply_ite (State.erase mk), ite_self] | (refine (erase_foldl (fun t a => ?_) _ _).trans ?_) | (refine (erase_foldl1 (fun t a => ?_) _ _).trans ?_) | split)

theorem countDiffer_erase (s : State) (x : Eval) (m : ℕ) {mk : Nat} (hk : 0x20000000 &&& mk = 0x20000000) : ((countDiffer s x m)).erase mk = s.erase mk := by
  unfold countDiffer
  repeat' (first | with_reducible rfl | with_reducible refine erase_ite ?_ ?_ | simp (disch := exact sub_trans rfl hk) only [↓put_saf, apply_ite (State.erase mk), ite_self] | (refine (erase_foldl (fun t a => ?_) _ _).trans ?_) | (refine (erase_foldl1 (fun t a => ?_) _ _).trans ?_) | split)

theorem zoneOutput_erase (s : State) (o : ZoneOutput) {mk : Nat} (hk : 0x8b8240a24 &&& mk = 0x8b8240a24) : ((zoneOutput s o)).erase mk = s.erase mk := by
  unfold zoneOutput
  repeat' (first | with_reducible rfl | with_reducible refine erase_ite ?_ ?_ | simp (disch := exact sub_trans rfl hk) only [↓setEval_erase, ↓compareOutputs_erase, ↓countDiffer_erase, ↓put_saf, apply_ite (State.erase mk), ite_self] | (refine (erase_foldl (fun t a => ?_) _ _).trans ?_) | (refine (erase_foldl1 (fun t a => ?_) _ _).trans ?_) | split)

theorem execZoneEvalOutput_erase (o : ZoneOutput) (s : State) {mk : Nat} (hk : 0x8b8240a24 &&& mk = 0x8b8240a24) (tx : State) (ex : (execZoneEvalOutput o s) = .next tx) : tx.erase mk = s.erase mk := by
  unfold execZoneEvalOutput done at ex
  injection ex with ex
  subst ex
  repeat' (first | with_reducible rfl | with_reducible refine erase_ite ?_ ?_ | simp (disch := exact sub_trans rfl hk) only [↓zoneOutput_erase, apply_ite (State.erase mk), ite_self] | (refine (erase_foldl (fun t a => ?_) _ _).trans ?_) | (refine (erase_foldl1 (fun t a => ?_) _ _).trans ?_) | split)

theorem missingResult_erase (s : State) (x : Eval) {mk : Nat} (hk : 0x8a0000a04 &&& mk = 0x8a0000a04) : ((missingResult s x)).erase mk = s.erase mk := by
  unfold missingResult
  repeat' (first | with_reducible rfl | with_reducible refine erase_ite ?_ ?_ | simp (disch := exact sub_trans rfl hk) only [↓evalRecords_erase, ↓noteResult_erase, ↓decideEval_erase, ↓occupiedBy_erase, ↓put_saf, apply_ite (State.erase mk), ite_self] | (refine (erase_foldl (fun t a => ?_) _ _).trans ?_) | (refine (erase_foldl1 (fun t a => ?_) _ _).trans ?_) | split)

theorem execZoneDeadline_erase (n : ℕ) (tick : ℕ) (s : State) {mk : Nat} (hk : 0x8a0001e04 &&& mk = 0x8a0001e04) (tx : State) (ex : (execZoneDeadline n tick s) = .next tx) : tx.erase mk = s.erase mk := by
  unfold execZoneDeadline done at ex
  injection ex with ex
  subst ex
  repeat' (first | with_reducible rfl | with_reducible refine erase_ite ?_ ?_ | simp (disch := exact sub_trans rfl hk) only [↓missingResult_erase, ↓State.atStation_erase, ↓State.modStream_erase, apply_ite (State.erase mk), ite_self] | (refine (erase_foldl (fun t a => ?_) _ _).trans ?_) | (refine (erase_foldl1 (fun t a => ?_) _ _).trans ?_) | split)

theorem decisionLate_erase (s : State) (z : ℕ) {mk : Nat} (hk : 0xa0000804 &&& mk = 0xa0000804) : ((decisionLate s z)).erase mk = s.erase mk := by
  unfold decisionLate
  repeat' (first | with_reducible rfl | with_reducible refine erase_ite ?_ ?_ | simp (disch := exact sub_trans rfl hk) only [↓settleChannel_erase, ↓State.modZone_erase, apply_ite (State.erase mk), ite_self] | (refine (erase_foldl (fun t a => ?_) _ _).trans ?_) | (refine (erase_foldl1 (fun t a => ?_) _ _).trans ?_) | split)

theorem execZoneDecisionTimeout_erase (z : ℕ) (s : State) {mk : Nat} (hk : 0xa0000c04 &&& mk = 0xa0000c04) (tx : State) (ex : (execZoneDecisionTimeout z s) = .next tx) : tx.erase mk = s.erase mk := by
  unfold execZoneDecisionTimeout done at ex
  injection ex with ex
  subst ex
  repeat' (first | with_reducible rfl | with_reducible refine erase_ite ?_ ?_ | simp (disch := exact sub_trans rfl hk) only [↓decisionLate_erase, ↓State.atStation_erase, apply_ite (State.erase mk), ite_self] | (refine (erase_foldl (fun t a => ?_) _ _).trans ?_) | (refine (erase_foldl1 (fun t a => ?_) _ _).trans ?_) | split)

theorem execZoneHoldExpiry_erase (z : ℕ) (s : State) {mk : Nat} (hk : 0xa0000c04 &&& mk = 0xa0000c04) (tx : State) (ex : (execZoneHoldExpiry z s) = .next tx) : tx.erase mk = s.erase mk := by
  unfold execZoneHoldExpiry done at ex
  injection ex with ex
  subst ex
  repeat' (first | with_reducible rfl | with_reducible refine erase_ite ?_ ?_ | simp (disch := exact sub_trans rfl hk) only [↓tryClear_erase, ↓State.atStation_erase, apply_ite (State.erase mk), ite_self] | (refine (erase_foldl (fun t a => ?_) _ _).trans ?_) | (refine (erase_foldl1 (fun t a => ?_) _ _).trans ?_) | split)

theorem senseChannel_erase (s : State) (n : ℕ) (sensedA : Bool) (sensedB : Bool) {mk : Nat} (hk : 0xa0000804 &&& mk = 0xa0000804) : ((senseChannel s n sensedA sensedB)).erase mk = s.erase mk := by
  unfold senseChannel
  repeat' (first | with_reducible rfl | with_reducible refine erase_ite ?_ ?_ | simp (disch := exact sub_trans rfl hk) only [↓State.setChannel_erase, ↓settleChannel_erase, ↓State.emit_erase, apply_ite (State.erase mk), ite_self] | (refine (erase_foldl (fun t a => ?_) _ _).trans ?_) | (refine (erase_foldl1 (fun t a => ?_) _ _).trans ?_) | split)

theorem execSafeHalfPeriod_erase (n : ℕ) (sensedA : Bool) (sensedB : Bool) (s : State) {mk : Nat} (hk : 0xa0000804 &&& mk = 0xa0000804) (tx : State) (ex : (execSafeHalfPeriod n sensedA sensedB s) = .next tx) : tx.erase mk = s.erase mk := by
  unfold execSafeHalfPeriod done at ex
  injection ex with ex
  subst ex
  repeat' (first | with_reducible rfl | with_reducible refine erase_ite ?_ ?_ | simp (disch := exact sub_trans rfl hk) only [↓senseChannel_erase, ↓State.setChannel_erase, apply_ite (State.erase mk), ite_self] | (refine (erase_foldl (fun t a => ?_) _ _).trans ?_) | (refine (erase_foldl1 (fun t a => ?_) _ _).trans ?_) | split)

theorem stopEngines_erase (s : State) (immediate : Bool) {mk : Nat} (hk : 0x1042800240000 &&& mk = 0x1042800240000) : ((stopEngines s immediate)).erase mk = s.erase mk := by
  unfold stopEngines
  repeat' (first | with_reducible rfl | with_reducible refine erase_ite ?_ ?_ | simp (disch := exact sub_trans rfl hk) only [↓abandonDmas_erase, ↓abandonTile_erase, ↓settleHalt_erase, apply_ite (State.erase mk), ite_self] | (refine (erase_foldl (fun t a => ?_) _ _).trans ?_) | (refine (erase_foldl1 (fun t a => ?_) _ _).trans ?_) | split)

theorem stopClearing_erase (s : State) {mk : Nat} (hk : 0x800000 &&& mk = 0x800000) : ((stopClearing s)).erase mk = s.erase mk := by
  unfold stopClearing
  repeat' (first | with_reducible rfl | with_reducible refine erase_ite ?_ ?_ | simp (disch := exact sub_trans rfl hk) only [↓State.modClr_erase, apply_ite (State.erase mk), ite_self] | (refine (erase_foldl (fun t a => ?_) _ _).trans ?_) | (refine (erase_foldl1 (fun t a => ?_) _ _).trans ?_) | split)

theorem stopDecode_erase (s : State) {mk : Nat} (hk : 0x4003000 &&& mk = 0x4003000) : ((stopDecode s)).erase mk = s.erase mk := by
  unfold stopDecode
  repeat' (first | with_reducible rfl | with_reducible refine erase_ite ?_ ?_ | simp (disch := exact sub_trans rfl hk) only [↓State.modDec_erase, ↓State.modStream_erase, ↓put_evidence, apply_ite (State.erase mk), ite_self] | (refine (erase_foldl (fun t a => ?_) _ _).trans ?_) | (refine (erase_foldl1 (fun t a => ?_) _ _).trans ?_) | split)

theorem stopPreprocess_erase (s : State) {mk : Nat} (hk : 0x4000 &&& mk = 0x4000) : ((stopPreprocess s)).erase mk = s.erase mk := by
  unfold stopPreprocess
  repeat' (first | with_reducible rfl | with_reducible refine erase_ite ?_ ?_ | simp (disch := exact sub_trans rfl hk) only [↓State.modAcct_erase, apply_ite (State.erase mk), ite_self] | (refine (erase_foldl (fun t a => ?_) _ _).trans ?_) | (refine (erase_foldl1 (fun t a => ?_) _ _).trans ?_) | split)

theorem globalStop_erase (s : State) (immediate : Bool) (fatal : Bool) {mk : Nat} (hk : 0x10428b4a47804 &&& mk = 0x10428b4a47804) : ((globalStop s immediate fatal)).erase mk = s.erase mk := by
  unfold globalStop
  repeat' (first | with_reducible rfl | with_reducible refine erase_ite ?_ ?_ | simp (disch := exact sub_trans rfl hk) only [↓stopEngines_erase, ↓stopPreprocess_erase, ↓stopDecode_erase, ↓stopClearing_erase, ↓settleChannels_erase, ↓put_flt, apply_ite (State.erase mk), ite_self] | (refine (erase_foldl (fun t a => ?_) _ _).trans ?_) | (refine (erase_foldl1 (fun t a => ?_) _ _).trans ?_) | split)

theorem execStopCutComplete_erase (s : State) {mk : Nat} (hk : 0x10000000 &&& mk = 0x10000000) (tx : State) (ex : (execStopCutComplete s) = .next tx) : tx.erase mk = s.erase mk := by
  unfold execStopCutComplete done at ex
  injection ex with ex
  subst ex
  repeat' (first | with_reducible rfl | with_reducible refine erase_ite ?_ ?_ | simp (disch := exact sub_trans rfl hk) only [↓put_flt, apply_ite (State.erase mk), ite_self] | (refine (erase_foldl (fun t a => ?_) _ _).trans ?_) | (refine (erase_foldl1 (fun t a => ?_) _ _).trans ?_) | split)

theorem discardPending_erase (s : State) {mk : Nat} (hk : 0x800400200 &&& mk = 0x800400200) : ((discardPending s)).erase mk = s.erase mk := by
  unfold discardPending
  repeat' (first | with_reducible rfl | with_reducible refine erase_ite ?_ ?_ | simp (disch := exact sub_trans rfl hk) only [↓State.setPage_erase, ↓put_stl_switch, apply_ite (State.erase mk), ite_self] | (refine (erase_foldl (fun t a => ?_) _ _).trans ?_) | (refine (erase_foldl1 (fun t a => ?_) _ _).trans ?_) | split)

theorem obsOff_erase (s : State) {mk : Nat} (hk : 0x800000804 &&& mk = 0x800000804) : ((obsOff s)).erase mk = s.erase mk := by
  unfold obsOff
  repeat' (first | with_reducible rfl | with_reducible refine erase_ite ?_ ?_ | simp (disch := exact sub_trans rfl hk) only [↓State.emit_erase, ↓put_pins_dbg, apply_ite (State.erase mk), ite_self] | (refine (erase_foldl (fun t a => ?_) _ _).trans ?_) | (refine (erase_foldl1 (fun t a => ?_) _ _).trans ?_) | split)

theorem checkAccess_erase (s : State) {mk : Nat} (hk : 0x800000804 &&& mk = 0x800000804) : ((checkAccess s)).erase mk = s.erase mk := by
  unfold checkAccess
  repeat' (first | with_reducible rfl | with_reducible refine erase_ite ?_ ?_ | simp (disch := exact sub_trans rfl hk) only [↓obsOff_erase, ↓put_dbg, apply_ite (State.erase mk), ite_self] | (refine (erase_foldl (fun t a => ?_) _ _).trans ?_) | (refine (erase_foldl1 (fun t a => ?_) _ _).trans ?_) | split)

theorem dropUnlock_erase (s : State) {mk : Nat} (hk : 0xc00000804 &&& mk = 0xc00000804) : ((dropUnlock s)).erase mk = s.erase mk := by
  unfold dropUnlock
  repeat' (first | with_reducible rfl | with_reducible refine erase_ite ?_ ?_ | simp (disch := exact sub_trans rfl hk) only [↓checkAccess_erase, ↓State.emit_erase, ↓put_sec, apply_ite (State.erase mk), ite_self] | (refine (erase_foldl (fun t a => ?_) _ _).trans ?_) | (refine (erase_foldl1 (fun t a => ?_) _ _).trans ?_) | split)

theorem stopObservation_erase (s : State) {mk : Nat} (hk : 0xc00000804 &&& mk = 0xc00000804) : ((stopObservation s)).erase mk = s.erase mk := by
  unfold stopObservation
  repeat' (first | with_reducible rfl | with_reducible refine erase_ite ?_ ?_ | simp (disch := exact sub_trans rfl hk) only [↓obsOff_erase, ↓stopWatches_erase, ↓dropUnlock_erase, ↓put_dbg, apply_ite (State.erase mk), ite_self] | (refine (erase_foldl (fun t a => ?_) _ _).trans ?_) | (refine (erase_foldl1 (fun t a => ?_) _ _).trans ?_) | split)

theorem chipFatal_erase (s : State) (source : ℕ) (unit_ : ℕ) {mk : Nat} (hk : 0x1042cb4e47a25 &&& mk = 0x1042cb4e47a25) : ((chipFatal s source unit_)).erase mk = s.erase mk := by
  unfold chipFatal
  repeat' (first | with_reducible rfl | with_reducible refine erase_ite ?_ ?_ | simp (disch := exact sub_trans rfl hk) only [↓globalStop_erase, ↓discardPending_erase, ↓State.emit_erase, ↓State.raise_erase, ↓stopObservation_erase, ↓settleChannels_erase, ↓put_phase_pins_flash_flt, apply_ite (State.erase mk), ite_self] | (refine (erase_foldl (fun t a => ?_) _ _).trans ?_) | (refine (erase_foldl1 (fun t a => ?_) _ _).trans ?_) | split)

theorem execChipFatal_erase (source : ℕ) (unit_ : ℕ) (s : State) {mk : Nat} (hk : 0x1042cb4e47a25 &&& mk = 0x1042cb4e47a25) (tx : State) (ex : (execChipFatal source unit_ s) = .next tx) : tx.erase mk = s.erase mk := by
  unfold execChipFatal done at ex
  injection ex with ex
  subst ex
  repeat' (first | with_reducible rfl | with_reducible refine erase_ite ?_ ?_ | simp (disch := exact sub_trans rfl hk) only [↓chipFatal_erase, apply_ite (State.erase mk), ite_self] | (refine (erase_foldl (fun t a => ?_) _ _).trans ?_) | (refine (erase_foldl1 (fun t a => ?_) _ _).trans ?_) | split)

theorem execSupplyMonitorFault_erase (selfCheck : Bool) (unit_ : ℕ) (s : State) {mk : Nat} (hk : 0x1042cb4e47a25 &&& mk = 0x1042cb4e47a25) (tx : State) (ex : (execSupplyMonitorFault selfCheck unit_ s) = .next tx) : tx.erase mk = s.erase mk := by
  unfold execSupplyMonitorFault done at ex
  injection ex with ex
  subst ex
  repeat' (first | with_reducible rfl | with_reducible refine erase_ite ?_ ?_ | simp (disch := exact sub_trans rfl hk) only [↓chipFatal_erase, apply_ite (State.erase mk), ite_self] | (refine (erase_foldl (fun t a => ?_) _ _).trans ?_) | (refine (erase_foldl1 (fun t a => ?_) _ _).trans ?_) | split)

theorem zoneBoundary_erase (s : State) (z : ℕ) {mk : Nat} (hk : 0xa0000a04 &&& mk = 0xa0000a04) : ((zoneBoundary s z)).erase mk = s.erase mk := by
  unfold zoneBoundary
  repeat' (first | with_reducible rfl | with_reducible refine erase_ite ?_ ?_ | simp (disch := exact sub_trans rfl hk) only [↓safetyApply_erase, ↓notePeriod_erase, ↓State.setZone_erase, ↓untrustedInput_erase, ↓settleChannel_erase, apply_ite (State.erase mk), ite_self] | (refine (erase_foldl (fun t a => ?_) _ _).trans ?_) | (refine (erase_foldl1 (fun t a => ?_) _ _).trans ?_) | split)

theorem execZonePeriodBoundary_erase (z : ℕ) (selfCheckOk : Bool) (s : State) {mk : Nat} (hk : 0x1042cb4e47e25 &&& mk = 0x1042cb4e47e25) (tx : State) (ex : (execZonePeriodBoundary z selfCheckOk s) = .next tx) : tx.erase mk = s.erase mk := by
  unfold execZonePeriodBoundary done at ex
  injection ex with ex
  subst ex
  repeat' (first | with_reducible rfl | with_reducible refine erase_ite ?_ ?_ | simp (disch := exact sub_trans rfl hk) only [↓zoneBoundary_erase, ↓State.atStation_erase, ↓chipFatal_erase, apply_ite (State.erase mk), ite_self] | (refine (erase_foldl (fun t a => ?_) _ _).trans ?_) | (refine (erase_foldl1 (fun t a => ?_) _ _).trans ?_) | split)

theorem rewriteDirectory_erase (s : State) (slot : ℕ) {mk : Nat} (hk : 0x20 &&& mk = 0x20) : ((rewriteDirectory s slot)).erase mk = s.erase mk := by
  unfold rewriteDirectory
  repeat' (first | with_reducible rfl | with_reducible refine erase_ite ?_ ?_ | simp (disch := exact sub_trans rfl hk) only [↓put_flash, apply_ite (State.erase mk), ite_self] | (refine (erase_foldl (fun t a => ?_) _ _).trans ?_) | (refine (erase_foldl1 (fun t a => ?_) _ _).trans ?_) | split)

theorem loadSection_erase (s : State) (x : Slot) (type : ℕ) (addr : ℕ) {mk : Nat} (hk : 0x60000000000 &&& mk = 0x60000000000) : ((loadSection s x type addr)).erase mk = s.erase mk := by
  unfold loadSection
  repeat' (first | with_reducible rfl | with_reducible refine erase_ite ?_ ?_ | simp (disch := exact sub_trans rfl hk) only [↓State.store_erase, apply_ite (State.erase mk), ite_self] | (refine (erase_foldl (fun t a => ?_) _ _).trans ?_) | (refine (erase_foldl1 (fun t a => ?_) _ _).trans ?_) | split)

theorem stageMove_erase (s : State) (g : ℕ) {mk : Nat} (hk : 0x800000a00 &&& mk = 0x800000a00) : ((stageMove s g)).erase mk = s.erase mk := by
  unfold stageMove
  repeat' (first | with_reducible rfl | with_reducible refine erase_ite ?_ ?_ | simp (disch := exact sub_trans rfl hk) only [↓State.countReject_erase, ↓internalBatch_erase, ↓State.emit_erase, ↓put_stl, apply_ite (State.erase mk), ite_self] | (refine (erase_foldl (fun t a => ?_) _ _).trans ?_) | (refine (erase_foldl1 (fun t a => ?_) _ _).trans ?_) | split)

theorem stageWaiting_erase (s : State) {mk : Nat} (hk : 0x800000a00 &&& mk = 0x800000a00) : ((stageWaiting s)).erase mk = s.erase mk := by
  unfold stageWaiting
  repeat' (first | with_reducible rfl | with_reducible refine erase_ite ?_ ?_ | simp (disch := exact sub_trans rfl hk) only [↓stageMove_erase, apply_ite (State.erase mk), ite_self] | (refine (erase_foldl (fun t a => ?_) _ _).trans ?_) | (refine (erase_foldl1 (fun t a => ?_) _ _).trans ?_) | split)

theorem fenceRegion_erase (s : State) (g : ℕ) {mk : Nat} (hk : 0x10008b9a40a04 &&& mk = 0x10008b9a40a04) : ((fenceRegion s g)).erase mk = s.erase mk := by
  unfold fenceRegion
  repeat' (first | with_reducible rfl | with_reducible refine erase_ite ?_ ?_ | simp (disch := exact sub_trans rfl hk) only [↓State.modEngine_erase, ↓missingRegion_erase, ↓State.modRegion_erase, ↓State.fenceEvent_erase, ↓checkAble_erase, ↓fenceClearing_erase, ↓stageMove_erase, ↓capacityChanged_erase, apply_ite (State.erase mk), ite_self] | (refine (erase_foldl (fun t a => ?_) _ _).trans ?_) | (refine (erase_foldl1 (fun t a => ?_) _ _).trans ?_) | split)

theorem dropRegionAudits_erase (s : State) (g : ℕ) {mk : Nat} (hk : 0x10200000 &&& mk = 0x10200000) : ((dropRegionAudits s g)).erase mk = s.erase mk := by
  unfold dropRegionAudits
  repeat' (first | with_reducible rfl | with_reducible refine erase_ite ?_ ?_ | simp (disch := exact sub_trans rfl hk) only [↓State.modRegion_erase, ↓put_flt, apply_ite (State.erase mk), ite_self] | (refine (erase_foldl (fun t a => ?_) _ _).trans ?_) | (refine (erase_foldl1 (fun t a => ?_) _ _).trans ?_) | split)

theorem rehome_erase (s : State) (g : ℕ) {mk : Nat} (hk : 0x8000 &&& mk = 0x8000) : ((rehome s g)).erase mk = s.erase mk := by
  unfold rehome
  repeat' (first | with_reducible rfl | with_reducible refine erase_ite ?_ ?_ | simp (disch := exact sub_trans rfl hk) only [↓queueSample_erase, ↓State.setRolling_erase, apply_ite (State.erase mk), ite_self] | (refine (erase_foldl (fun t a => ?_) _ _).trans ?_) | (refine (erase_foldl1 (fun t a => ?_) _ _).trans ?_) | split)

theorem extendSwitch_erase (s : State) (g : ℕ) {mk : Nat} (hk : 0x400000 &&& mk = 0x400000) : ((extendSwitch s g)).erase mk = s.erase mk := by
  unfold extendSwitch
  repeat' (first | with_reducible rfl | with_reducible refine erase_ite ?_ ?_ | simp (disch := exact sub_trans rfl hk) only [↓put_switch, apply_ite (State.erase mk), ite_self] | (refine (erase_foldl (fun t a => ?_) _ _).trans ?_) | (refine (erase_foldl1 (fun t a => ?_) _ _).trans ?_) | split)

theorem restartRegion_erase (s : State) (g : ℕ) {mk : Nat} (hk : 0x10008b9a48a04 &&& mk = 0x10008b9a48a04) : ((restartRegion s g)).erase mk = s.erase mk := by
  unfold restartRegion
  repeat' (first | with_reducible rfl | with_reducible refine erase_ite ?_ ?_ | simp (disch := exact sub_trans rfl hk) only [↓State.modRegion_erase, ↓missingRegion_erase, ↓dropRegionAudits_erase, ↓stopWatches_erase, ↓restartJob_erase, ↓checkAble_erase, ↓rehome_erase, ↓fenceRegion_erase, ↓capacityChanged_erase, apply_ite (State.erase mk), ite_self] | (refine (erase_foldl (fun t a => ?_) _ _).trans ?_) | (refine (erase_foldl1 (fun t a => ?_) _ _).trans ?_) | split)

theorem failUpdate_erase (s : State) (restarting : Option Ctrl) {mk : Nat} (hk : 0x800000a00 &&& mk = 0x800000a00) : ((failUpdate s restarting)).erase mk = s.erase mk := by
  unfold failUpdate
  repeat' (first | with_reducible rfl | with_reducible refine erase_ite ?_ ?_ | simp (disch := exact sub_trans rfl hk) only [↓State.setPage_erase, ↓State.emit_erase, ↓put_stl, apply_ite (State.erase mk), ite_self] | (refine (erase_foldl (fun t a => ?_) _ _).trans ?_) | (refine (erase_foldl1 (fun t a => ?_) _ _).trans ?_) | split)

theorem failIfRestarted_erase (s : State) (c : Ctrl) (restarting : Bool) {mk : Nat} (hk : 0x800000a00 &&& mk = 0x800000a00) : ((failIfRestarted s c restarting)).erase mk = s.erase mk := by
  unfold failIfRestarted
  repeat' (first | with_reducible rfl | with_reducible refine erase_ite ?_ ?_ | simp (disch := exact sub_trans rfl hk) only [↓failUpdate_erase, apply_ite (State.erase mk), ite_self] | (refine (erase_foldl (fun t a => ?_) _ _).trans ?_) | (refine (erase_foldl1 (fun t a => ?_) _ _).trans ?_) | split)

theorem execControllerStartFailure_erase (c : Ctrl) (s : State) {mk : Nat} (hk : 0x800000a00 &&& mk = 0x800000a00) (tx : State) (ex : (execControllerStartFailure c s) = .next tx) : tx.erase mk = s.erase mk := by
  unfold execControllerStartFailure done at ex
  injection ex with ex
  subst ex
  repeat' (first | with_reducible rfl | with_reducible refine erase_ite ?_ ?_ | simp (disch := exact sub_trans rfl hk) only [↓failIfRestarted_erase, apply_ite (State.erase mk), ite_self] | (refine (erase_foldl (fun t a => ?_) _ _).trans ?_) | (refine (erase_foldl1 (fun t a => ?_) _ _).trans ?_) | split)

theorem execRegionWatchdogExpiry_erase (g : ℕ) (s : State) {mk : Nat} (hk : 0x10008b9a48a04 &&& mk = 0x10008b9a48a04) (tx : State) (ex : (execRegionWatchdogExpiry g s) = .next tx) : tx.erase mk = s.erase mk := by
  unfold execRegionWatchdogExpiry done at ex
  injection ex with ex
  subst ex
  repeat' (first | with_reducible rfl | with_reducible refine erase_ite ?_ ?_ | simp (disch := exact sub_trans rfl hk) only [↓State.contained_erase, ↓restartRegion_erase, ↓failIfRestarted_erase, apply_ite (State.erase mk), ite_self] | (refine (erase_foldl (fun t a => ?_) _ _).trans ?_) | (refine (erase_foldl1 (fun t a => ?_) _ _).trans ?_) | split)

theorem execRegionRestartComplete_erase (g : ℕ) (s : State) {mk : Nat} (hk : 0x888600a04 &&& mk = 0x888600a04) (tx : State) (ex : (execRegionRestartComplete g s) = .next tx) : tx.erase mk = s.erase mk := by
  unfold execRegionRestartComplete done at ex
  injection ex with ex
  subst ex
  repeat' (first | with_reducible rfl | with_reducible refine erase_ite ?_ ?_ | simp (disch := exact sub_trans rfl hk) only [↓capacityChanged_erase, ↓State.modRegion_erase, ↓extendSwitch_erase, apply_ite (State.erase mk), ite_self] | (refine (erase_foldl (fun t a => ?_) _ _).trans ?_) | (refine (erase_foldl1 (fun t a => ?_) _ _).trans ?_) | split)

theorem execRegionRestartTimeout_erase (g : ℕ) (s : State) {mk : Nat} (hk : 0x10008b9e40e04 &&& mk = 0x10008b9e40e04) (tx : State) (ex : (execRegionRestartTimeout g s) = .next tx) : tx.erase mk = s.erase mk := by
  unfold execRegionRestartTimeout done at ex
  injection ex with ex
  subst ex
  repeat' (first | with_reducible rfl | with_reducible refine erase_ite ?_ ?_ | simp (disch := exact sub_trans rfl hk) only [↓fenceRegion_erase, ↓failIfRestarted_erase, ↓extendSwitch_erase, ↓State.atElapsed_erase, apply_ite (State.erase mk), ite_self] | (refine (erase_foldl (fun t a => ?_) _ _).trans ?_) | (refine (erase_foldl1 (fun t a => ?_) _ _).trans ?_) | split)

theorem discardForRestart_erase (s : State) {mk : Nat} (hk : 0x888000204 &&& mk = 0x888000204) : ((discardForRestart s)).erase mk = s.erase mk := by
  unfold discardForRestart
  repeat' (first | with_reducible rfl | with_reducible refine erase_ite ?_ ?_ | simp (disch := exact sub_trans rfl hk) only [↓dropBatch_erase, ↓put_stl, apply_ite (State.erase mk), ite_self] | (refine (erase_foldl (fun t a => ?_) _ _).trans ?_) | (refine (erase_foldl1 (fun t a => ?_) _ _).trans ?_) | split)

theorem execChipWatchdogExpiry_erase (s : State) {mk : Nat} (hk : 0x1042cbce47a25 &&& mk = 0x1042cbce47a25) (tx : State) (ex : (execChipWatchdogExpiry s) = .next tx) : tx.erase mk = s.erase mk := by
  unfold execChipWatchdogExpiry done at ex
  injection ex with ex
  subst ex
  repeat' (first | with_reducible rfl | with_reducible refine erase_ite ?_ ?_ | simp (disch := exact sub_trans rfl hk) only [↓chipFatal_erase, ↓failIfRestarted_erase, ↓State.contained_erase, ↓discardForRestart_erase, ↓capacityChanged_erase, ↓put_flt, apply_ite (State.erase mk), ite_self] | (refine (erase_foldl (fun t a => ?_) _ _).trans ?_) | (refine (erase_foldl1 (fun t a => ?_) _ _).trans ?_) | split)

theorem loadModels_erase (s : State) (x : Slot) (old : Cfg) (new : Cfg) {mk : Nat} (hk : 0x60000000000 &&& mk = 0x60000000000) : ((loadModels s x old new)).erase mk = s.erase mk := by
  unfold loadModels
  repeat' (first | with_reducible rfl | with_reducible refine erase_ite ?_ ?_ | simp (disch := exact sub_trans rfl hk) only [↓loadSection_erase, apply_ite (State.erase mk), ite_self] | (refine (erase_foldl (fun t a => ?_) _ _).trans ?_) | (refine (erase_foldl1 (fun t a => ?_) _ _).trans ?_) | split)

theorem stagedUpdate_erase (s : State) (u : Update) (x : Slot) (c : Cfg) {mk : Nat} (hk : 0x202 &&& mk = 0x202) : ((stagedUpdate s u x c)).erase mk = s.erase mk := by
  unfold stagedUpdate
  repeat' (first | with_reducible rfl | with_reducible refine erase_ite ?_ ?_ | simp (disch := exact sub_trans rfl hk) only [↓put_boot_stl, apply_ite (State.erase mk), ite_self] | (refine (erase_foldl (fun t a => ?_) _ _).trans ?_) | (refine (erase_foldl1 (fun t a => ?_) _ _).trans ?_) | split)

theorem chartered_erase (s : State) (x : Slot) (old : Cfg) (new : Cfg) (y4 : Option Failure) {mk : Nat} (hk : 0x60888000a04 &&& mk = 0x60888000a04) : ((chartered s x old new y4)).erase mk = s.erase mk := by
  unfold chartered
  repeat' (first | with_reducible rfl | with_reducible refine erase_ite ?_ ?_ | simp (disch := exact sub_trans rfl hk) only [↓abortOnCheck_erase, ↓loadModels_erase, apply_ite (State.erase mk), ite_self] | (refine (erase_foldl (fun t a => ?_) _ _).trans ?_) | (refine (erase_foldl1 (fun t a => ?_) _ _).trans ?_) | split)

theorem stageCharter_erase (s : State) (u : Update) {mk : Nat} (hk : 0x60888000a06 &&& mk = 0x60888000a06) : ((stageCharter s u)).erase mk = s.erase mk := by
  unfold stageCharter
  repeat' (first | with_reducible rfl | with_reducible refine erase_ite ?_ ?_ | simp (disch := exact sub_trans rfl hk) only [↓stagedUpdate_erase, ↓chartered_erase, apply_ite (State.erase mk), ite_self] | (refine (erase_foldl (fun t a => ?_) _ _).trans ?_) | (refine (erase_foldl1 (fun t a => ?_) _ _).trans ?_) | split)

theorem endRolling_erase (s : State) {mk : Nat} (hk : 0x60888000a06 &&& mk = 0x60888000a06) : ((endRolling s)).erase mk = s.erase mk := by
  unfold endRolling
  repeat' (first | with_reducible rfl | with_reducible refine erase_ite ?_ ?_ | simp (disch := exact sub_trans rfl hk) only [↓stageCharter_erase, apply_ite (State.erase mk), ite_self] | (refine (erase_foldl (fun t a => ?_) _ _).trans ?_) | (refine (erase_foldl1 (fun t a => ?_) _ _).trans ?_) | split)

theorem execChipControllerRestarted_erase (s : State) {mk : Nat} (hk : 0x60898000a06 &&& mk = 0x60898000a06) (tx : State) (ex : (execChipControllerRestarted s) = .next tx) : tx.erase mk = s.erase mk := by
  unfold execChipControllerRestarted done at ex
  injection ex with ex
  subst ex
  repeat' (first | with_reducible rfl | with_reducible refine erase_ite ?_ ?_ | simp (disch := exact sub_trans rfl hk) only [↓endRolling_erase, ↓State.emit_erase, ↓put_stl_flt, apply_ite (State.erase mk), ite_self] | (refine (erase_foldl (fun t a => ?_) _ _).trans ?_) | (refine (erase_foldl1 (fun t a => ?_) _ _).trans ?_) | split)

theorem execEthFrameReceive_erase (port : ℕ) (f : Frame) (s : State) {mk : Nat} (hk : 0x100000000 &&& mk = 0x100000000) (tx : State) (ex : (execEthFrameReceive port f s) = .next tx) : tx.erase mk = s.erase mk := by
  unfold execEthFrameReceive done at ex
  injection ex with ex
  subst ex
  repeat' (first | with_reducible rfl | with_reducible refine erase_ite ?_ ?_ | simp (disch := exact sub_trans rfl hk) only [↓State.modNet_erase, ↓transmit_erase, apply_ite (State.erase mk), ite_self] | (refine (erase_foldl (fun t a => ?_) _ _).trans ?_) | (refine (erase_foldl1 (fun t a => ?_) _ _).trans ?_) | split)

theorem linkChange_erase (s : State) (n : ℕ) (up : Bool) (mode : ℕ) {mk : Nat} (hk : 0x100000800 &&& mk = 0x100000800) : ((linkChange s n up mode)).erase mk = s.erase mk := by
  unfold linkChange
  repeat' (first | with_reducible rfl | with_reducible refine erase_ite ?_ ?_ | simp (disch := exact sub_trans rfl hk) only [↓State.modNet_erase, ↓State.lnkRecord_erase, apply_ite (State.erase mk), ite_self] | (refine (erase_foldl (fun t a => ?_) _ _).trans ?_) | (refine (erase_foldl1 (fun t a => ?_) _ _).trans ?_) | split)

theorem execNetLinkChange_erase (n : ℕ) (up : Bool) (fecLock : Bool) (mode : ℕ) (s : State) {mk : Nat} (hk : 0x100000800 &&& mk = 0x100000800) (tx : State) (ex : (execNetLinkChange n up fecLock mode s) = .next tx) : tx.erase mk = s.erase mk := by
  unfold execNetLinkChange done at ex
  injection ex with ex
  subst ex
  repeat' (first | with_reducible rfl | with_reducible refine erase_ite ?_ ?_ | simp (disch := exact sub_trans rfl hk) only [↓linkChange_erase, apply_ite (State.erase mk), ite_self] | (refine (erase_foldl (fun t a => ?_) _ _).trans ?_) | (refine (erase_foldl1 (fun t a => ?_) _ _).trans ?_) | split)

theorem execHeartbeatSend_erase (n : ℕ) (s : State) {mk : Nat} (hk : 0x300000400 &&& mk = 0x300000400) (tx : State) (ex : (execHeartbeatSend n s) = .next tx) : tx.erase mk = s.erase mk := by
  unfold execHeartbeatSend done at ex
  injection ex with ex
  subst ex
  repeat' (first | with_reducible rfl | with_reducible refine erase_ite ?_ ?_ | simp (disch := exact sub_trans rfl hk) only [↓State.atMultiple_erase, ↓transmit_erase, ↓State.modNet_erase, ↓put_lnk, apply_ite (State.erase mk), ite_self] | (refine (erase_foldl (fun t a => ?_) _ _).trans ?_) | (refine (erase_foldl1 (fun t a => ?_) _ _).trans ?_) | split)

theorem startFailover_erase (s : State) (d : ℕ) {mk : Nat} (hk : 0xa00000a00 &&& mk = 0xa00000a00) : ((startFailover s d)).erase mk = s.erase mk := by
  unfold startFailover
  repeat' (first | with_reducible rfl | with_reducible refine erase_ite ?_ ?_ | simp (disch := exact sub_trans rfl hk) only [↓State.countReject_erase, ↓internalBatch_erase, ↓State.modPeer_erase, ↓State.lnkRecord_erase, ↓put_lnk, apply_ite (State.erase mk), ite_self] | (refine (erase_foldl (fun t a => ?_) _ _).trans ?_) | (refine (erase_foldl1 (fun t a => ?_) _ _).trans ?_) | split)

theorem failoverWaiting_erase (s : State) {mk : Nat} (hk : 0xa00000a00 &&& mk = 0xa00000a00) : ((failoverWaiting s)).erase mk = s.erase mk := by
  unfold failoverWaiting
  repeat' (first | with_reducible rfl | with_reducible refine erase_ite ?_ ?_ | simp (disch := exact sub_trans rfl hk) only [↓startFailover_erase, apply_ite (State.erase mk), ite_self] | (refine (erase_foldl (fun t a => ?_) _ _).trans ?_) | (refine (erase_foldl1 (fun t a => ?_) _ _).trans ?_) | split)

theorem execFailoverRelease_erase (d : ℕ) (s : State) {mk : Nat} (hk : 0xa00000e00 &&& mk = 0xa00000e00) (tx : State) (ex : (execFailoverRelease d s) = .next tx) : tx.erase mk = s.erase mk := by
  unfold execFailoverRelease done at ex
  injection ex with ex
  subst ex
  repeat' (first | with_reducible rfl | with_reducible refine erase_ite ?_ ?_ | simp (disch := exact sub_trans rfl hk) only [↓State.atElapsed_erase, ↓State.countReject_erase, ↓internalBatch_erase, ↓State.modPeer_erase, ↓State.lnkRecord_erase, apply_ite (State.erase mk), ite_self] | (refine (erase_foldl (fun t a => ?_) _ _).trans ?_) | (refine (erase_foldl1 (fun t a => ?_) _ _).trans ?_) | split)

theorem numberConflict_erase (s : State) (n : ℕ) (h : Heartbeat) {mk : Nat} (hk : 0x200000800 &&& mk = 0x200000800) : ((numberConflict s n h)).erase mk = s.erase mk := by
  unfold numberConflict
  repeat' (first | with_reducible rfl | with_reducible refine erase_ite ?_ ?_ | simp (disch := exact sub_trans rfl hk) only [↓State.lnkRecord_erase, ↓put_lnk, apply_ite (State.erase mk), ite_self] | (refine (erase_foldl (fun t a => ?_) _ _).trans ?_) | (refine (erase_foldl1 (fun t a => ?_) _ _).trans ?_) | split)

theorem peerHeard_erase (s : State) (n : ℕ) (h : Heartbeat) {mk : Nat} (hk : 0xa00000a00 &&& mk = 0xa00000a00) : ((peerHeard s n h)).erase mk = s.erase mk := by
  unfold peerHeard
  repeat' (first | with_reducible rfl | with_reducible refine erase_ite ?_ ?_ | simp (disch := exact sub_trans rfl hk) only [↓State.setPeer_erase, ↓State.lnkRecord_erase, ↓takeAck_erase, ↓startFailover_erase, apply_ite (State.erase mk), ite_self] | (refine (erase_foldl (fun t a => ?_) _ _).trans ?_) | (refine (erase_foldl1 (fun t a => ?_) _ _).trans ?_) | split)

theorem execSanorHeartbeat_erase (n : ℕ) (h : Heartbeat) (s : State) {mk : Nat} (hk : 0xa00000a00 &&& mk = 0xa00000a00) (tx : State) (ex : (execSanorHeartbeat n h s) = .next tx) : tx.erase mk = s.erase mk := by
  unfold execSanorHeartbeat done at ex
  injection ex with ex
  subst ex
  repeat' (first | with_reducible rfl | with_reducible refine erase_ite ?_ ?_ | simp (disch := exact sub_trans rfl hk) only [↓numberConflict_erase, ↓peerHeard_erase, apply_ite (State.erase mk), ite_self] | (refine (erase_foldl (fun t a => ?_) _ _).trans ?_) | (refine (erase_foldl1 (fun t a => ?_) _ _).trans ?_) | split)

theorem handoverRecord_erase (s : State) (handle : ℕ) (status : ℕ) (peer : ℕ) (peerHandle : ℕ) {mk : Nat} (hk : 0x800 &&& mk = 0x800) : ((handoverRecord s handle status peer peerHandle)).erase mk = s.erase mk := by
  unfold handoverRecord
  repeat' (first | with_reducible rfl | with_reducible refine erase_ite ?_ ?_ | simp (disch := exact sub_trans rfl hk) only [↓State.clrRecord_erase, apply_ite (State.erase mk), ite_self] | (refine (erase_foldl (fun t a => ?_) _ _).trans ?_) | (refine (erase_foldl1 (fun t a => ?_) _ _).trans ?_) | split)

theorem expireHandover_erase (s : State) (handle : ℕ) {mk : Nat} (hk : 0x1000800 &&& mk = 0x1000800) : ((expireHandover s handle)).erase mk = s.erase mk := by
  unfold expireHandover
  repeat' (first | with_reducible rfl | with_reducible refine erase_ite ?_ ?_ | simp (disch := exact sub_trans rfl hk) only [↓handoverRecord_erase, ↓put_ledger, apply_ite (State.erase mk), ite_self] | (refine (erase_foldl (fun t a => ?_) _ _).trans ?_) | (refine (erase_foldl1 (fun t a => ?_) _ _).trans ?_) | split)

theorem execHandoverTimeout_erase (handle : ℕ) (s : State) {mk : Nat} (hk : 0x1000c00 &&& mk = 0x1000c00) (tx : State) (ex : (execHandoverTimeout handle s) = .next tx) : tx.erase mk = s.erase mk := by
  unfold execHandoverTimeout done at ex
  injection ex with ex
  subst ex
  repeat' (first | with_reducible rfl | with_reducible refine erase_ite ?_ ?_ | simp (disch := exact sub_trans rfl hk) only [↓expireHandover_erase, ↓State.atElapsed_erase, apply_ite (State.erase mk), ite_self] | (refine (erase_foldl (fun t a => ?_) _ _).trans ?_) | (refine (erase_foldl1 (fun t a => ?_) _ _).trans ?_) | split)

theorem openReceived_erase (s : State) (r n d : Nat) (context : List Byte) {mk : Nat} (hk : 0x1800800 &&& mk = 0x1800800) (t : State × Nat)
    (h : openReceived s r n d context = some t) : t.1.erase mk = s.erase mk := by
  revert h
  unfold openReceived
  split
  · exact fun h => nomatch h
  · intro h
    cases h
    refine Eq.trans ?_ (allocSlot_erase s r (sub_trans rfl hk) _ ‹_›)
    repeat' (first | with_reducible rfl | with_reducible refine erase_ite ?_ ?_ | simp (disch := exact sub_trans rfl hk) only [↓allocSlot_erase, ↓State.setIdent_erase, ↓writeTrack_erase, ↓State.modClr_erase, ↓State.clrRecord_erase, ↓adoptIdent_erase, apply_ite (State.erase mk), ite_self] | (refine (erase_foldl (fun t a => ?_) _ _).trans ?_) | (refine (erase_foldl1 (fun t a => ?_) _ _).trans ?_) | split)

theorem takeHandover_erase (s : State) (d : Nat) (context : List Byte) (n : Nat) {mk : Nat} (hk : 0x301800800 &&& mk = 0x301800800) :
    (takeHandover s d context n).erase mk = s.erase mk := by
  unfold takeHandover
  dsimp only
  split
  · exact sendMsg_erase _ _ _ _ _ _ _ _ (sub_trans rfl hk)
  · split
    · exact sendMsg_erase _ _ _ _ _ _ _ _ (sub_trans rfl hk)
    · split
      · exact sendMsg_erase _ _ _ _ _ _ _ _ (sub_trans rfl hk)
      · exact (sendMsg_erase _ _ _ _ _ _ _ _ (sub_trans rfl hk)).trans
          ((put_lnk _ (sub_trans rfl hk)).trans (openReceived_erase s _ n d context (sub_trans rfl hk) _ ‹_›))

theorem execSanorHandover_erase (d : ℕ) (seq : ℕ) (context : List Byte) (_embedding : List Byte) (peerStream : ℕ) (s : State) {mk : Nat} (hk : 0x301800800 &&& mk = 0x301800800) (tx : State) (ex : (execSanorHandover d seq context _embedding peerStream s) = .next tx) : tx.erase mk = s.erase mk := by
  unfold execSanorHandover done at ex
  injection ex with ex
  subst ex
  repeat' (first | with_reducible rfl | with_reducible refine erase_ite ?_ ?_ | simp (disch := exact sub_trans rfl hk) only [↓accept_erase, ↓takeHandover_erase, apply_ite (State.erase mk), ite_self] | (refine (erase_foldl (fun t a => ?_) _ _).trans ?_) | (refine (erase_foldl1 (fun t a => ?_) _ _).trans ?_) | split)

theorem takeHandoverAck_erase (s : State) (d : ℕ) (old : ℕ) (new : ℕ) (status : ℕ) {mk : Nat} (hk : 0x301800800 &&& mk = 0x301800800) : ((takeHandoverAck s d old new status)).erase mk = s.erase mk := by
  unfold takeHandoverAck
  repeat' (first | with_reducible rfl | with_reducible refine erase_ite ?_ ?_ | simp (disch := exact sub_trans rfl hk) only [↓sendMsg_erase, ↓handoverRecord_erase, ↓closeTrack_erase, ↓put_ledger_lnk, apply_ite (State.erase mk), ite_self] | (refine (erase_foldl (fun t a => ?_) _ _).trans ?_) | (refine (erase_foldl1 (fun t a => ?_) _ _).trans ?_) | split)

theorem execSanorHandoverAck_erase (d : ℕ) (seq : ℕ) (old : ℕ) (new : ℕ) (status : ℕ) (s : State) {mk : Nat} (hk : 0x301800800 &&& mk = 0x301800800) (tx : State) (ex : (execSanorHandoverAck d seq old new status s) = .next tx) : tx.erase mk = s.erase mk := by
  unfold execSanorHandoverAck done at ex
  injection ex with ex
  subst ex
  repeat' (first | with_reducible rfl | with_reducible refine erase_ite ?_ ?_ | simp (disch := exact sub_trans rfl hk) only [↓accept_erase, ↓takeHandoverAck_erase, apply_ite (State.erase mk), ite_self] | (refine (erase_foldl (fun t a => ?_) _ _).trans ?_) | (refine (erase_foldl1 (fun t a => ?_) _ _).trans ?_) | split)

theorem execSanorCloseCopy_erase (d : ℕ) (seq : ℕ) (handle : ℕ) (s : State) {mk : Nat} (hk : 0x201800800 &&& mk = 0x201800800) (tx : State) (ex : (execSanorCloseCopy d seq handle s) = .next tx) : tx.erase mk = s.erase mk := by
  unfold execSanorCloseCopy done at ex
  injection ex with ex
  subst ex
  repeat' (first | with_reducible rfl | with_reducible refine erase_ite ?_ ?_ | simp (disch := exact sub_trans rfl hk) only [↓accept_erase, ↓closeTrack_erase, apply_ite (State.erase mk), ite_self] | (refine (erase_foldl (fun t a => ?_) _ _).trans ?_) | (refine (erase_foldl1 (fun t a => ?_) _ _).trans ?_) | split)

theorem execSanorQuery_erase (d : ℕ) (seq : ℕ) (number : ℕ) (cls : ℕ) (k : ℕ) (embedding : List Byte) (s : State) {mk : Nat} (hk : 0x300000000 &&& mk = 0x300000000) (tx : State) (ex : (execSanorQuery d seq number cls k embedding s) = .next tx) : tx.erase mk = s.erase mk := by
  unfold execSanorQuery done at ex
  injection ex with ex
  subst ex
  repeat' (first | with_reducible rfl | with_reducible refine erase_ite ?_ ?_ | simp (disch := exact sub_trans rfl hk) only [↓accept_erase, ↓sendMsg_erase, ↓put_lnk, apply_ite (State.erase mk), ite_self] | (refine (erase_foldl (fun t a => ?_) _ _).trans ?_) | (refine (erase_foldl1 (fun t a => ?_) _ _).trans ?_) | split)

theorem mergeQuery_erase (s : State) (q : Query) {mk : Nat} (hk : 0x60200000000 &&& mk = 0x60200000000) : ((mergeQuery s q)).erase mk = s.erase mk := by
  unfold mergeQuery
  repeat' (first | with_reducible rfl | with_reducible refine erase_ite ?_ ?_ | simp (disch := exact sub_trans rfl hk) only [↓State.store_erase, ↓put_lnk, apply_ite (State.erase mk), ite_self] | (refine (erase_foldl (fun t a => ?_) _ _).trans ?_) | (refine (erase_foldl1 (fun t a => ?_) _ _).trans ?_) | split)

theorem mergePartial_erase (s : State) (q : Query) {mk : Nat} (hk : 0x60200000800 &&& mk = 0x60200000800) : ((mergePartial s q)).erase mk = s.erase mk := by
  unfold mergePartial
  repeat' (first | with_reducible rfl | with_reducible refine erase_ite ?_ ?_ | simp (disch := exact sub_trans rfl hk) only [↓State.lnkRecord_erase, ↓mergeQuery_erase, apply_ite (State.erase mk), ite_self] | (refine (erase_foldl (fun t a => ?_) _ _).trans ?_) | (refine (erase_foldl1 (fun t a => ?_) _ _).trans ?_) | split)

theorem settleReply_erase (s : State) (number : ℕ) (d : ℕ) (entries : Option (List Byte)) {mk : Nat} (hk : 0x60200000800 &&& mk = 0x60200000800) : ((settleReply s number d entries)).erase mk = s.erase mk := by
  unfold settleReply
  repeat' (first | with_reducible rfl | with_reducible refine erase_ite ?_ ?_ | simp (disch := exact sub_trans rfl hk) only [↓mergeQuery_erase, ↓mergePartial_erase, ↓put_lnk, apply_ite (State.erase mk), ite_self] | (refine (erase_foldl (fun t a => ?_) _ _).trans ?_) | (refine (erase_foldl1 (fun t a => ?_) _ _).trans ?_) | split)

theorem execSanorResult_erase (d : ℕ) (seq : ℕ) (number : ℕ) (entries : List (List Byte)) (s : State) {mk : Nat} (hk : 0x60200000800 &&& mk = 0x60200000800) (tx : State) (ex : (execSanorResult d seq number entries s) = .next tx) : tx.erase mk = s.erase mk := by
  unfold execSanorResult done at ex
  injection ex with ex
  subst ex
  repeat' (first | with_reducible rfl | with_reducible refine erase_ite ?_ ?_ | simp (disch := exact sub_trans rfl hk) only [↓accept_erase, ↓settleReply_erase, apply_ite (State.erase mk), ite_self] | (refine (erase_foldl (fun t a => ?_) _ _).trans ?_) | (refine (erase_foldl1 (fun t a => ?_) _ _).trans ?_) | split)

theorem execPeerQueryTimeout_erase (number : ℕ) (s : State) {mk : Nat} (hk : 0x60200000c00 &&& mk = 0x60200000c00) (tx : State) (ex : (execPeerQueryTimeout number s) = .next tx) : tx.erase mk = s.erase mk := by
  unfold execPeerQueryTimeout done at ex
  injection ex with ex
  subst ex
  repeat' (first | with_reducible rfl | with_reducible refine erase_ite ?_ ?_ | simp (disch := exact sub_trans rfl hk) only [↓mergePartial_erase, ↓State.atElapsed_erase, apply_ite (State.erase mk), ite_self] | (refine (erase_foldl (fun t a => ?_) _ _).trans ?_) | (refine (erase_foldl1 (fun t a => ?_) _ _).trans ?_) | split)

theorem losePeer_erase (s : State) (d : ℕ) {mk : Nat} (hk : 0x60a01000a00 &&& mk = 0x60a01000a00) : ((losePeer s d)).erase mk = s.erase mk := by
  unfold losePeer
  repeat' (first | with_reducible rfl | with_reducible refine erase_ite ?_ ?_ | simp (disch := exact sub_trans rfl hk) only [↓State.setPeer_erase, ↓State.lnkRecord_erase, ↓expireHandover_erase, ↓settleReply_erase, ↓startFailover_erase, apply_ite (State.erase mk), ite_self] | (refine (erase_foldl (fun t a => ?_) _ _).trans ?_) | (refine (erase_foldl1 (fun t a => ?_) _ _).trans ?_) | split)

end Sys2Proof.Machine
end

