-- ==== Sys2Proof/Laws/Frames4.lean ====
section
/-! SUPPORT. What each operation may write, as masks of parts (see Laws/Frame.lean): part 4, in the order of the model. -/

set_option linter.all false

namespace Sys2Proof.Machine
open State

theorem execPeerLost_erase (d : ℕ) (s : State) {mk : Nat} (hk : 0x60a01000e00 &&& mk = 0x60a01000e00) (tx : State) (ex : (execPeerLost d s) = .next tx) : tx.erase mk = s.erase mk := by
  unfold execPeerLost done at ex
  injection ex with ex
  subst ex
  repeat' (first | with_reducible rfl | with_reducible refine erase_ite ?_ ?_ | simp (disch := exact sub_trans rfl hk) only [↓losePeer_erase, ↓State.atElapsed_erase, apply_ite (State.erase mk), ite_self] | (refine (erase_foldl (fun t a => ?_) _ _).trans ?_) | (refine (erase_foldl1 (fun t a => ?_) _ _).trans ?_) | split)

theorem execSanorAck_erase (d : ℕ) (ack : ℕ) (s : State) {mk : Nat} (hk : 0x200000000 &&& mk = 0x200000000) (tx : State) (ex : (execSanorAck d ack s) = .next tx) : tx.erase mk = s.erase mk := by
  unfold execSanorAck done at ex
  injection ex with ex
  subst ex
  repeat' (first | with_reducible rfl | with_reducible refine erase_ite ?_ ?_ | simp (disch := exact sub_trans rfl hk) only [↓takeAck_erase, apply_ite (State.erase mk), ite_self] | (refine (erase_foldl (fun t a => ?_) _ _).trans ?_) | (refine (erase_foldl1 (fun t a => ?_) _ _).trans ?_) | split)

theorem execSanorAckDue_erase (d : ℕ) (s : State) {mk : Nat} (hk : 0x300000400 &&& mk = 0x300000400) (tx : State) (ex : (execSanorAckDue d s) = .next tx) : tx.erase mk = s.erase mk := by
  unfold execSanorAckDue done at ex
  injection ex with ex
  subst ex
  repeat' (first | with_reducible rfl | with_reducible refine erase_ite ?_ ?_ | simp (disch := exact sub_trans rfl hk) only [↓sendSanor_erase, ↓State.modPeer_erase, ↓State.atElapsed_erase, apply_ite (State.erase mk), ite_self] | (refine (erase_foldl (fun t a => ?_) _ _).trans ?_) | (refine (erase_foldl1 (fun t a => ?_) _ _).trans ?_) | split)

theorem execSanorRetransmit_erase (d : ℕ) (seq : ℕ) (s : State) {mk : Nat} (hk : 0x301000c00 &&& mk = 0x301000c00) (tx : State) (ex : (execSanorRetransmit d seq s) = .next tx) : tx.erase mk = s.erase mk := by
  unfold execSanorRetransmit done at ex
  injection ex with ex
  subst ex
  repeat' (first | with_reducible rfl | with_reducible refine erase_ite ?_ ?_ | simp (disch := exact sub_trans rfl hk) only [↓State.atElapsed_erase, ↓State.modPeer_erase, ↓sendSanor_erase, ↓expireHandover_erase, ↓put_lnk, apply_ite (State.erase mk), ite_self] | (refine (erase_foldl (fun t a => ?_) _ _).trans ?_) | (refine (erase_foldl1 (fun t a => ?_) _ _).trans ?_) | split)

theorem sendReplica_erase (s : State) (n : ℕ) (tick : ℕ) {mk : Nat} (hk : 0x300000000 &&& mk = 0x300000000) : ((sendReplica s n tick)).erase mk = s.erase mk := by
  unfold sendReplica
  repeat' (first | with_reducible rfl | with_reducible refine erase_ite ?_ ?_ | simp (disch := exact sub_trans rfl hk) only [↓sendMsg_erase, apply_ite (State.erase mk), ite_self] | (refine (erase_foldl (fun t a => ?_) _ _).trans ?_) | (refine (erase_foldl1 (fun t a => ?_) _ _).trans ?_) | split)

theorem takeReplica_erase (s : State) (d : ℕ) (stream : ℕ) (tick : ℕ) (index : ℕ) (count : ℕ) (fragment : List Byte) {mk : Nat} (hk : 0x200000000 &&& mk = 0x200000000) : ((takeReplica s d stream tick index count fragment)).erase mk = s.erase mk := by
  unfold takeReplica
  repeat' (first | with_reducible rfl | with_reducible refine erase_ite ?_ ?_ | simp (disch := exact sub_trans rfl hk) only [↓put_lnk, apply_ite (State.erase mk), ite_self] | (refine (erase_foldl (fun t a => ?_) _ _).trans ?_) | (refine (erase_foldl1 (fun t a => ?_) _ _).trans ?_) | split)

theorem execSanorReplica_erase (d : ℕ) (seq : ℕ) (stream : ℕ) (tick : ℕ) (index : ℕ) (count : ℕ) (fragment : List Byte) (s : State) {mk : Nat} (hk : 0x200000000 &&& mk = 0x200000000) (tx : State) (ex : (execSanorReplica d seq stream tick index count fragment s) = .next tx) : tx.erase mk = s.erase mk := by
  unfold execSanorReplica done at ex
  injection ex with ex
  subst ex
  repeat' (first | with_reducible rfl | with_reducible refine erase_ite ?_ ?_ | simp (disch := exact sub_trans rfl hk) only [↓accept_erase, ↓takeReplica_erase, apply_ite (State.erase mk), ite_self] | (refine (erase_foldl (fun t a => ?_) _ _).trans ?_) | (refine (erase_foldl1 (fun t a => ?_) _ _).trans ?_) | split)

theorem flushCounts_erase (s : State) (n : ℕ) (row : StreamRow) {mk : Nat} (hk : 0x800 &&& mk = 0x800) : ((flushCounts s n row)).erase mk = s.erase mk := by
  unfold flushCounts
  repeat' (first | with_reducible rfl | with_reducible refine erase_ite ?_ ?_ | simp (disch := exact sub_trans rfl hk) only [↓State.emit_erase, apply_ite (State.erase mk), ite_self] | (refine (erase_foldl (fun t a => ?_) _ _).trans ?_) | (refine (erase_foldl1 (fun t a => ?_) _ _).trans ?_) | split)

theorem startStream_erase (s : State) (n : ℕ) {mk : Nat} (hk : 0x1800 &&& mk = 0x1800) : ((startStream s n)).erase mk = s.erase mk := by
  unfold startStream
  repeat' (first | with_reducible rfl | with_reducible refine erase_ite ?_ ?_ | simp (disch := exact sub_trans rfl hk) only [↓State.modStream_erase, ↓flushCounts_erase, apply_ite (State.erase mk), ite_self] | (refine (erase_foldl (fun t a => ?_) _ _).trans ?_) | (refine (erase_foldl1 (fun t a => ?_) _ _).trans ?_) | split)

theorem stopRow_erase (s : State) (old : Cfg) (n : ℕ) {mk : Nat} (hk : 0xa4000804 &&& mk = 0xa4000804) : ((stopRow s old n)).erase mk = s.erase mk := by
  unfold stopRow
  repeat' (first | with_reducible rfl | with_reducible refine erase_ite ?_ ?_ | simp (disch := exact sub_trans rfl hk) only [↓endClips_erase, ↓occupyStream_erase, ↓State.emit_erase, apply_ite (State.erase mk), ite_self] | (refine (erase_foldl (fun t a => ?_) _ _).trans ?_) | (refine (erase_foldl1 (fun t a => ?_) _ _).trans ?_) | split)

theorem resizeStream_erase (old : Cfg) (s : State) (n : ℕ) {mk : Nat} (hk : 0x1000 &&& mk = 0x1000) : ((resizeStream old s n)).erase mk = s.erase mk := by
  unfold resizeStream
  repeat' (first | with_reducible rfl | with_reducible refine erase_ite ?_ ?_ | simp (disch := exact sub_trans rfl hk) only [↓State.modStream_erase, apply_ite (State.erase mk), ite_self] | (refine (erase_foldl (fun t a => ?_) _ _).trans ?_) | (refine (erase_foldl1 (fun t a => ?_) _ _).trans ?_) | split)

theorem applyStream_erase (old : Cfg) (s : State) (n : ℕ) {mk : Nat} (hk : 0xa4001804 &&& mk = 0xa4001804) : ((applyStream old s n)).erase mk = s.erase mk := by
  unfold applyStream
  repeat' (first | with_reducible rfl | with_reducible refine erase_ite ?_ ?_ | simp (disch := exact sub_trans rfl hk) only [↓startStream_erase, ↓stopRow_erase, ↓resizeStream_erase, apply_ite (State.erase mk), ite_self] | (refine (erase_foldl (fun t a => ?_) _ _).trans ?_) | (refine (erase_foldl1 (fun t a => ?_) _ _).trans ?_) | split)

theorem retireStream_erase (s : State) (n : ℕ) {mk : Nat} (hk : 0x1801800 &&& mk = 0x1801800) : ((retireStream s n)).erase mk = s.erase mk := by
  unfold retireStream
  repeat' (first | with_reducible rfl | with_reducible refine erase_ite ?_ ?_ | simp (disch := exact sub_trans rfl hk) only [↓State.setStream_erase, ↓closeStreamTracks_erase, ↓flushCounts_erase, apply_ite (State.erase mk), ite_self] | (refine (erase_foldl (fun t a => ?_) _ _).trans ?_) | (refine (erase_foldl1 (fun t a => ?_) _ _).trans ?_) | split)

theorem retireStreams_erase (s : State) {mk : Nat} (hk : 0x1801800 &&& mk = 0x1801800) : ((retireStreams s)).erase mk = s.erase mk := by
  unfold retireStreams
  repeat' (first | with_reducible rfl | with_reducible refine erase_ite ?_ ?_ | simp (disch := exact sub_trans rfl hk) only [↓retireStream_erase, apply_ite (State.erase mk), ite_self] | (refine (erase_foldl (fun t a => ?_) _ _).trans ?_) | (refine (erase_foldl1 (fun t a => ?_) _ _).trans ?_) | split)

theorem applyZones_erase (s : State) (zs : List ℕ) (at_ : ℕ) {mk : Nat} (hk : 0xa0000a04 &&& mk = 0xa0000a04) : ((applyZones s zs at_)).erase mk = s.erase mk := by
  unfold applyZones
  repeat' (first | with_reducible rfl | with_reducible refine erase_ite ?_ ?_ | simp (disch := exact sub_trans rfl hk) only [↓safetyApply_erase, ↓put_stl, apply_ite (State.erase mk), ite_self] | (refine (erase_foldl (fun t a => ?_) _ _).trans ?_) | (refine (erase_foldl1 (fun t a => ?_) _ _).trans ?_) | split)

theorem resizeJournal_erase (s : State) (old : Cfg) {mk : Nat} (hk : 0x60000000800 &&& mk = 0x60000000800) : ((resizeJournal s old)).erase mk = s.erase mk := by
  unfold resizeJournal
  repeat' (first | with_reducible rfl | with_reducible refine erase_ite ?_ ?_ | simp (disch := exact sub_trans rfl hk) only [↓reclaim_erase, ↓State.store_erase, apply_ite (State.erase mk), ite_self] | (refine (erase_foldl (fun t a => ?_) _ _).trans ?_) | (refine (erase_foldl1 (fun t a => ?_) _ _).trans ?_) | split)

theorem resizeStores_erase (s : State) (old : Cfg) {mk : Nat} (hk : 0x804000000 &&& mk = 0x804000000) : ((resizeStores s old)).erase mk = s.erase mk := by
  unfold resizeStores
  repeat' (first | with_reducible rfl | with_reducible refine erase_ite ?_ ?_ | simp (disch := exact sub_trans rfl hk) only [↓put_evidence_dbg, apply_ite (State.erase mk), ite_self] | (refine (erase_foldl (fun t a => ?_) _ _).trans ?_) | (refine (erase_foldl1 (fun t a => ?_) _ _).trans ?_) | split)

theorem rerankSources_erase (s : State) (old : Cfg) {mk : Nat} (hk : 0x1000880000c04 &&& mk = 0x1000880000c04) : ((rerankSources s old)).erase mk = s.erase mk := by
  unfold rerankSources
  repeat' (first | with_reducible rfl | with_reducible refine erase_ite ?_ ?_ | simp (disch := exact sub_trans rfl hk) only [↓changeSource_erase, apply_ite (State.erase mk), ite_self] | (refine (erase_foldl (fun t a => ?_) _ _).trans ?_) | (refine (erase_foldl1 (fun t a => ?_) _ _).trans ?_) | split)

theorem beginSwitch_erase (s : State) (old : Cfg) (b : Batch) (at_ : ℕ) {mk : Nat} (hk : 0x601000 &&& mk = 0x601000) : ((beginSwitch s old b at_)).erase mk = s.erase mk := by
  unfold beginSwitch
  repeat' (first | with_reducible rfl | with_reducible refine erase_ite ?_ ?_ | simp (disch := exact sub_trans rfl hk) only [↓State.modStream_erase, ↓State.modRegion_erase, ↓put_switch, apply_ite (State.erase mk), ite_self] | (refine (erase_foldl (fun t a => ?_) _ _).trans ?_) | (refine (erase_foldl1 (fun t a => ?_) _ _).trans ?_) | split)

theorem applyWatches_erase (s : State) (switched : Bool) {mk : Nat} (hk : 0x800000800 &&& mk = 0x800000800) : ((applyWatches s switched)).erase mk = s.erase mk := by
  unfold applyWatches
  repeat' (first | with_reducible rfl | with_reducible refine erase_ite ?_ ?_ | simp (disch := exact sub_trans rfl hk) only [↓stopWatches_erase, apply_ite (State.erase mk), ite_self] | (refine (erase_foldl (fun t a => ?_) _ _).trans ?_) | (refine (erase_foldl1 (fun t a => ?_) _ _).trans ?_) | split)

theorem applyModel_erase (s : State) (old : Cfg) (b : Batch) (at_ : ℕ) {mk : Nat} (hk : 0x808601820 &&& mk = 0x808601820) : ((applyModel s old b at_)).erase mk = s.erase mk := by
  unfold applyModel
  repeat' (first | with_reducible rfl | with_reducible refine erase_ite ?_ ?_ | simp (disch := exact sub_trans rfl hk) only [↓settlementEndsJob_erase, ↓beginSwitch_erase, ↓applyWatches_erase, ↓adoptHeads_erase, apply_ite (State.erase mk), ite_self] | (refine (erase_foldl (fun t a => ?_) _ _).trans ?_) | (refine (erase_foldl1 (fun t a => ?_) _ _).trans ?_) | split)

theorem adoptReplica_erase (s : State) (n : ℕ) {mk : Nat} (hk : 0x200001000 &&& mk = 0x200001000) : ((adoptReplica s n)).erase mk = s.erase mk := by
  unfold adoptReplica
  repeat' (first | with_reducible rfl | with_reducible refine erase_ite ?_ ?_ | simp (disch := exact sub_trans rfl hk) only [↓State.modStream_erase, ↓put_lnk, apply_ite (State.erase mk), ite_self] | (refine (erase_foldl (fun t a => ?_) _ _).trans ?_) | (refine (erase_foldl1 (fun t a => ?_) _ _).trans ?_) | split)

theorem applyEpoch_erase (s : State) (b : Batch) (at_ : ℕ) {mk : Nat} (hk : 0x1060aac601fe4 &&& mk = 0x1060aac601fe4) : ((applyEpoch s b at_)).erase mk = s.erase mk := by
  unfold applyEpoch
  repeat' (first | with_reducible rfl | with_reducible refine erase_ite ?_ ?_ | simp (disch := exact sub_trans rfl hk) only [↓State.setPage_erase, ↓applyStream_erase, ↓adoptReplica_erase, ↓applyModel_erase, ↓setDDec_erase, ↓rerankSources_erase, ↓resizeStores_erase, ↓resizeJournal_erase, ↓applyZones_erase, ↓put_layout_cfg_cfgOld_stl, apply_ite (State.erase mk), ite_self] | (refine (erase_foldl (fun t a => ?_) _ _).trans ?_) | (refine (erase_foldl1 (fun t a => ?_) _ _).trans ?_) | split)

theorem secCounter_erase (s : State) (counter : ℕ) (value : ℕ) (ok : Bool) {mk : Nat} (hk : 0x800 &&& mk = 0x800) : ((secCounter s counter value ok)).erase mk = s.erase mk := by
  unfold secCounter
  repeat' (first | with_reducible rfl | with_reducible refine erase_ite ?_ ?_ | simp (disch := exact sub_trans rfl hk) only [↓State.emit_erase, apply_ite (State.erase mk), ite_self] | (refine (erase_foldl (fun t a => ?_) _ _).trans ?_) | (refine (erase_foldl1 (fun t a => ?_) _ _).trans ?_) | split)

theorem raiseOne_erase (s : State) (counter : ℕ) (burnOk : Bool) {mk : Nat} (hk : 0x810 &&& mk = 0x810) : ((raiseOne s counter burnOk)).erase mk = s.erase mk := by
  unfold raiseOne
  repeat' (first | with_reducible rfl | with_reducible refine erase_ite ?_ ?_ | simp (disch := exact sub_trans rfl hk) only [↓secCounter_erase, ↓put_fuses, apply_ite (State.erase mk), ite_self] | (refine (erase_foldl (fun t a => ?_) _ _).trans ?_) | (refine (erase_foldl1 (fun t a => ?_) _ _).trans ?_) | split)

theorem raiseCounters_erase (s : State) (burnOk : Bool) {mk : Nat} (hk : 0x810 &&& mk = 0x810) : ((raiseCounters s burnOk)).erase mk = s.erase mk := by
  unfold raiseCounters
  repeat' (first | with_reducible rfl | with_reducible refine erase_ite ?_ ?_ | simp (disch := exact sub_trans rfl hk) only [↓raiseOne_erase, apply_ite (State.erase mk), ite_self] | (refine (erase_foldl (fun t a => ?_) _ _).trans ?_) | (refine (erase_foldl1 (fun t a => ?_) _ _).trans ?_) | split)

theorem runSlot_erase (s : State) (slot : ℕ) {mk : Nat} (hk : 0x812 &&& mk = 0x812) : ((runSlot s slot)).erase mk = s.erase mk := by
  unfold runSlot
  repeat' (first | with_reducible rfl | with_reducible refine erase_ite ?_ ?_ | simp (disch := exact sub_trans rfl hk) only [↓raiseCounters_erase, ↓put_boot, apply_ite (State.erase mk), ite_self] | (refine (erase_foldl (fun t a => ?_) _ _).trans ?_) | (refine (erase_foldl1 (fun t a => ?_) _ _).trans ?_) | split)

theorem finishUpdate_erase (s : State) (u : Update) {mk : Nat} (hk : 0x220 &&& mk = 0x220) : ((finishUpdate s u)).erase mk = s.erase mk := by
  unfold finishUpdate
  repeat' (first | with_reducible rfl | with_reducible refine erase_ite ?_ ?_ | simp (disch := exact sub_trans rfl hk) only [↓put_flash_stl, apply_ite (State.erase mk), ite_self] | (refine (erase_foldl (fun t a => ?_) _ _).trans ?_) | (refine (erase_foldl1 (fun t a => ?_) _ _).trans ?_) | split)

theorem endUpdate_erase (s : State) (u : Update) {mk : Nat} (hk : 0x800000a12 &&& mk = 0x800000a12) : ((endUpdate s u)).erase mk = s.erase mk := by
  unfold endUpdate
  repeat' (first | with_reducible rfl | with_reducible refine erase_ite ?_ ?_ | simp (disch := exact sub_trans rfl hk) only [↓runSlot_erase, ↓State.setPage_erase, ↓State.emit_erase, ↓put_boot_stl, apply_ite (State.erase mk), ite_self] | (refine (erase_foldl (fun t a => ?_) _ _).trans ?_) | (refine (erase_foldl1 (fun t a => ?_) _ _).trans ?_) | split)

theorem finishDrain_erase (s : State) (b : Batch) {mk : Nat} (hk : 0xa81801b24 &&& mk = 0xa81801b24) : ((finishDrain s b)).erase mk = s.erase mk := by
  unfold finishDrain
  repeat' (first | with_reducible rfl | with_reducible refine erase_ite ?_ ?_ | simp (disch := exact sub_trans rfl hk) only [↓State.settledCause_erase, ↓State.setPage_erase, ↓retireStreams_erase, ↓finishUpdate_erase, ↓failoverWaiting_erase, ↓stageWaiting_erase, ↓put_flash_cfgOld_stl, apply_ite (State.erase mk), ite_self] | (refine (erase_foldl (fun t a => ?_) _ _).trans ?_) | (refine (erase_foldl1 (fun t a => ?_) _ _).trans ?_) | split)

theorem drainIfEmpty_erase (s : State) {mk : Nat} (hk : 0xa81801b24 &&& mk = 0xa81801b24) : ((drainIfEmpty s)).erase mk = s.erase mk := by
  unfold drainIfEmpty
  repeat' (first | with_reducible rfl | with_reducible refine erase_ite ?_ ?_ | simp (disch := exact sub_trans rfl hk) only [↓finishDrain_erase, ↓put_stl, apply_ite (State.erase mk), ite_self] | (refine (erase_foldl (fun t a => ?_) _ _).trans ?_) | (refine (erase_foldl1 (fun t a => ?_) _ _).trans ?_) | split)

theorem reachInstant_erase (s : State) (b : Batch) (at_ : ℕ) {mk : Nat} (hk : 0x1060aade01fe4 &&& mk = 0x1060aade01fe4) : ((reachInstant s b at_)).erase mk = s.erase mk := by
  unfold reachInstant
  repeat' (first | with_reducible rfl | with_reducible refine erase_ite ?_ ?_ | simp (disch := exact sub_trans rfl hk) only [↓drainIfEmpty_erase, ↓applyEpoch_erase, apply_ite (State.erase mk), ite_self] | (refine (erase_foldl (fun t a => ?_) _ _).trans ?_) | (refine (erase_foldl1 (fun t a => ?_) _ _).trans ?_) | split)

theorem epochInstant_erase (s : State) {mk : Nat} (hk : 0x1060aade01fe4 &&& mk = 0x1060aade01fe4) : ((epochInstant s)).erase mk = s.erase mk := by
  unfold epochInstant
  repeat' (first | with_reducible rfl | with_reducible refine erase_ite ?_ ?_ | simp (disch := exact sub_trans rfl hk) only [↓reachInstant_erase, ↓State.atStation_erase, apply_ite (State.erase mk), ite_self] | (refine (erase_foldl (fun t a => ?_) _ _).trans ?_) | (refine (erase_foldl1 (fun t a => ?_) _ _).trans ?_) | split)

theorem execEpochInstant_erase (s : State) {mk : Nat} (hk : 0x1060aade01fe4 &&& mk = 0x1060aade01fe4) (tx : State) (ex : (execEpochInstant s) = .next tx) : tx.erase mk = s.erase mk := by
  unfold execEpochInstant done at ex
  injection ex with ex
  subst ex
  repeat' (first | with_reducible rfl | with_reducible refine erase_ite ?_ ?_ | simp (disch := exact sub_trans rfl hk) only [↓epochInstant_erase, apply_ite (State.erase mk), ite_self] | (refine (erase_foldl (fun t a => ?_) _ _).trans ?_) | (refine (erase_foldl1 (fun t a => ?_) _ _).trans ?_) | split)

theorem fixEventInstant_erase (s : State) (n : ℕ) (tick : ℕ) (rap : Rap) {mk : Nat} (hk : 0x1060aade01fe4 &&& mk = 0x1060aade01fe4) : ((fixEventInstant s n tick rap)).erase mk = s.erase mk := by
  unfold fixEventInstant
  repeat' (first | with_reducible rfl | with_reducible refine erase_ite ?_ ?_ | simp (disch := exact sub_trans rfl hk) only [↓reachInstant_erase, apply_ite (State.erase mk), ite_self] | (refine (erase_foldl (fun t a => ?_) _ _).trans ?_) | (refine (erase_foldl1 (fun t a => ?_) _ _).trans ?_) | split)

theorem drainRelease_erase (s : State) (u : StlUnit) {mk : Nat} (hk : 0xa81801b24 &&& mk = 0xa81801b24) : ((drainRelease s u)).erase mk = s.erase mk := by
  unfold drainRelease
  repeat' (first | with_reducible rfl | with_reducible refine erase_ite ?_ ?_ | simp (disch := exact sub_trans rfl hk) only [↓drainIfEmpty_erase, ↓put_stl, apply_ite (State.erase mk), ite_self] | (refine (erase_foldl (fun t a => ?_) _ _).trans ?_) | (refine (erase_foldl1 (fun t a => ?_) _ _).trans ?_) | split)

theorem execUnitDrainRelease_erase (u : StlUnit) (s : State) {mk : Nat} (hk : 0xa81801b24 &&& mk = 0xa81801b24) (tx : State) (ex : (execUnitDrainRelease u s) = .next tx) : tx.erase mk = s.erase mk := by
  unfold execUnitDrainRelease done at ex
  injection ex with ex
  subst ex
  repeat' (first | with_reducible rfl | with_reducible refine erase_ite ?_ ?_ | simp (disch := exact sub_trans rfl hk) only [↓drainRelease_erase, apply_ite (State.erase mk), ite_self] | (refine (erase_foldl (fun t a => ?_) _ _).trans ?_) | (refine (erase_foldl1 (fun t a => ?_) _ _).trans ?_) | split)

theorem dropOldStream_erase (s : State) (n : ℕ) {mk : Nat} (hk : 0x1000 &&& mk = 0x1000) : ((dropOldStream s n)).erase mk = s.erase mk := by
  unfold dropOldStream
  repeat' (first | with_reducible rfl | with_reducible refine erase_ite ?_ ?_ | simp (disch := exact sub_trans rfl hk) only [↓State.modStream_erase, apply_ite (State.erase mk), ite_self] | (refine (erase_foldl (fun t a => ?_) _ _).trans ?_) | (refine (erase_foldl1 (fun t a => ?_) _ _).trans ?_) | split)

theorem dropOldWork_erase (s : State) {mk : Nat} (hk : 0x20f000 &&& mk = 0x20f000) : ((dropOldWork s)).erase mk = s.erase mk := by
  unfold dropOldWork
  repeat' (first | with_reducible rfl | with_reducible refine erase_ite ?_ ?_ | simp (disch := exact sub_trans rfl hk) only [↓State.modDec_erase, ↓State.modStream_erase, ↓State.modAcct_erase, ↓releaseMember_erase, ↓State.setRolling_erase, apply_ite (State.erase mk), ite_self] | (refine (erase_foldl (fun t a => ?_) _ _).trans ?_) | (refine (erase_foldl1 (fun t a => ?_) _ _).trans ?_) | split)

theorem dropOldResults_erase (s : State) {mk : Nat} (hk : 0x204800800 &&& mk = 0x204800800) : ((dropOldResults s)).erase mk = s.erase mk := by
  unfold dropOldResults
  repeat' (first | with_reducible rfl | with_reducible refine erase_ite ?_ ?_ | simp (disch := exact sub_trans rfl hk) only [↓State.modClr_erase, ↓beginNext_erase, ↓put_journal_evidence_lnk, apply_ite (State.erase mk), ite_self] | (refine (erase_foldl (fun t a => ?_) _ _).trans ?_) | (refine (erase_foldl1 (fun t a => ?_) _ _).trans ?_) | split)

theorem dropOldTiles_erase (s : State) {mk : Nat} (hk : 0x1042800240000 &&& mk = 0x1042800240000) : ((dropOldTiles s)).erase mk = s.erase mk := by
  unfold dropOldTiles
  repeat' (first | with_reducible rfl | with_reducible refine erase_ite ?_ ?_ | simp (disch := exact sub_trans rfl hk) only [↓abandonTile_erase, ↓State.modEngine_erase, apply_ite (State.erase mk), ite_self] | (refine (erase_foldl (fun t a => ?_) _ _).trans ?_) | (refine (erase_foldl1 (fun t a => ?_) _ _).trans ?_) | split)

theorem drainExpiry_erase (s : State) {mk : Nat} (hk : 0x1042aa7a4ff24 &&& mk = 0x1042aa7a4ff24) : ((drainExpiry s)).erase mk = s.erase mk := by
  unfold drainExpiry
  repeat' (first | with_reducible rfl | with_reducible refine erase_ite ?_ ?_ | simp (disch := exact sub_trans rfl hk) only [↓State.atStation_erase, ↓dispatch_erase, ↓dropOldResults_erase, ↓dropOldTiles_erase, ↓dropOldWork_erase, ↓dropOldStream_erase, ↓restartStream_erase, ↓finishDrain_erase, ↓put_stl_saf, apply_ite (State.erase mk), ite_self] | (refine (erase_foldl (fun t a => ?_) _ _).trans ?_) | (refine (erase_foldl1 (fun t a => ?_) _ _).trans ?_) | split)

theorem execDrainBoundExpiry_erase (s : State) {mk : Nat} (hk : 0x1042aa7a4ff24 &&& mk = 0x1042aa7a4ff24) (tx : State) (ex : (execDrainBoundExpiry s) = .next tx) : tx.erase mk = s.erase mk := by
  unfold execDrainBoundExpiry done at ex
  injection ex with ex
  subst ex
  repeat' (first | with_reducible rfl | with_reducible refine erase_ite ?_ ?_ | simp (disch := exact sub_trans rfl hk) only [↓drainExpiry_erase, apply_ite (State.erase mk), ite_self] | (refine (erase_foldl (fun t a => ?_) _ _).trans ?_) | (refine (erase_foldl1 (fun t a => ?_) _ _).trans ?_) | split)

theorem passInstant_erase (s : State) {mk : Nat} (hk : 0x1060aade01fe4 &&& mk = 0x1060aade01fe4) : ((passInstant s)).erase mk = s.erase mk := by
  unfold passInstant
  repeat' (first | with_reducible rfl | with_reducible refine erase_ite ?_ ?_ | simp (disch := exact sub_trans rfl hk) only [↓preInstant_erase, ↓epochInstant_erase, apply_ite (State.erase mk), ite_self] | (refine (erase_foldl (fun t a => ?_) _ _).trans ?_) | (refine (erase_foldl1 (fun t a => ?_) _ _).trans ?_) | split)

theorem passDeadlines_erase (s : State) {mk : Nat} (hk : 0x8a0001a04 &&& mk = 0x8a0001a04) : ((passDeadlines s)).erase mk = s.erase mk := by
  unfold passDeadlines
  repeat' (first | with_reducible rfl | with_reducible refine erase_ite ?_ ?_ | simp (disch := exact sub_trans rfl hk) only [↓missingResult_erase, ↓State.modStream_erase, apply_ite (State.erase mk), ite_self] | (refine (erase_foldl (fun t a => ?_) _ _).trans ?_) | (refine (erase_foldl1 (fun t a => ?_) _ _).trans ?_) | split)

theorem passPictures_erase (s : State) {mk : Nat} (hk : 0xd000 &&& mk = 0xd000) : ((passPictures s)).erase mk = s.erase mk := by
  unfold passPictures
  repeat' (first | with_reducible rfl | with_reducible refine erase_ite ?_ ?_ | simp (disch := exact sub_trans rfl hk) only [↓shedPicture_erase, apply_ite (State.erase mk), ite_self] | (refine (erase_foldl (fun t a => ?_) _ _).trans ?_) | (refine (erase_foldl1 (fun t a => ?_) _ _).trans ?_) | split)

theorem passDrain_erase (s : State) {mk : Nat} (hk : 0x1042aa7a4ff24 &&& mk = 0x1042aa7a4ff24) : ((passDrain s)).erase mk = s.erase mk := by
  unfold passDrain
  repeat' (first | with_reducible rfl | with_reducible refine erase_ite ?_ ?_ | simp (disch := exact sub_trans rfl hk) only [↓drainExpiry_erase, apply_ite (State.erase mk), ite_self] | (refine (erase_foldl (fun t a => ?_) _ _).trans ?_) | (refine (erase_foldl1 (fun t a => ?_) _ _).trans ?_) | split)

theorem passDecisions_erase (s : State) {mk : Nat} (hk : 0xa0000804 &&& mk = 0xa0000804) : ((passDecisions s)).erase mk = s.erase mk := by
  unfold passDecisions
  repeat' (first | with_reducible rfl | with_reducible refine erase_ite ?_ ?_ | simp (disch := exact sub_trans rfl hk) only [↓decisionLate_erase, apply_ite (State.erase mk), ite_self] | (refine (erase_foldl (fun t a => ?_) _ _).trans ?_) | (refine (erase_foldl1 (fun t a => ?_) _ _).trans ?_) | split)

theorem reachPassed_erase (s : State) {mk : Nat} (hk : 0x1062aafe4ffe4 &&& mk = 0x1062aafe4ffe4) : ((reachPassed s)).erase mk = s.erase mk := by
  unfold reachPassed
  repeat' (first | with_reducible rfl | with_reducible refine erase_ite ?_ ?_ | simp (disch := exact sub_trans rfl hk) only [↓passPictures_erase, ↓passDecisions_erase, ↓passDeadlines_erase, ↓passDrain_erase, ↓passInstant_erase, apply_ite (State.erase mk), ite_self] | (refine (erase_foldl (fun t a => ?_) _ _).trans ?_) | (refine (erase_foldl1 (fun t a => ?_) _ _).trans ?_) | split)

theorem withStep_erase (s s1 : State) {mk : Nat} (hk : 0x1062aafe4ffe4 &&& mk = 0x1062aafe4ffe4) (h1 : s1.erase mk = s.erase mk) :
    (withStep s s1).erase mk = s.erase mk := by
  unfold withStep
  split
  · exact (reachPassed_erase _ hk).trans h1
  · exact h1

theorem execPtpSync_erase (port : ℕ) (domain : ℕ) (sender : ℕ) (twoStep : Bool) (origin : ℤ) (correction : ℤ) (rxMac : ℤ) (s : State) {mk : Nat} (hk : 0x1062aafe4ffe4 &&& mk = 0x1062aafe4ffe4) (tx : State) (ex : (execPtpSync port domain sender twoStep origin correction rxMac s) = .next tx) : tx.erase mk = s.erase mk := by
  unfold execPtpSync done at ex
  injection ex with ex
  subst ex
  repeat' (first | refine withStep_erase _ _ (sub_trans rfl hk) ?_ | with_reducible rfl | with_reducible refine erase_ite ?_ ?_ | simp (disch := exact sub_trans rfl hk) only [↓syncReceived_erase, apply_ite (State.erase mk), ite_self] | (refine (erase_foldl (fun t a => ?_) _ _).trans ?_) | (refine (erase_foldl1 (fun t a => ?_) _ _).trans ?_) | split)

theorem execPtpFollowUp_erase (port : ℕ) (domain : ℕ) (sender : ℕ) (origin : ℤ) (correction : ℤ) (s : State) {mk : Nat} (hk : 0x1062aafe4ffe4 &&& mk = 0x1062aafe4ffe4) (tx : State) (ex : (execPtpFollowUp port domain sender origin correction s) = .next tx) : tx.erase mk = s.erase mk := by
  unfold execPtpFollowUp done at ex
  injection ex with ex
  subst ex
  repeat' (first | refine withStep_erase _ _ (sub_trans rfl hk) ?_ | with_reducible rfl | with_reducible refine erase_ite ?_ ?_ | simp (disch := exact sub_trans rfl hk) only [↓followUpReceived_erase, apply_ite (State.erase mk), ite_self] | (refine (erase_foldl (fun t a => ?_) _ _).trans ?_) | (refine (erase_foldl1 (fun t a => ?_) _ _).trans ?_) | split)

theorem execTimeinPulse_erase (s : State) {mk : Nat} (hk : 0x1062aafe4ffe4 &&& mk = 0x1062aafe4ffe4) (tx : State) (ex : (execTimeinPulse s) = .next tx) : tx.erase mk = s.erase mk := by
  unfold execTimeinPulse done at ex
  injection ex with ex
  subst ex
  repeat' (first | refine withStep_erase _ _ (sub_trans rfl hk) ?_ | with_reducible rfl | with_reducible refine erase_ite ?_ ?_ | simp (disch := exact sub_trans rfl hk) only [↓pulseTaken_erase, ↓pulseRejected_erase, apply_ite (State.erase mk), ite_self] | (refine (erase_foldl (fun t a => ?_) _ _).trans ?_) | (refine (erase_foldl1 (fun t a => ?_) _ _).trans ?_) | split)

theorem execStationTimeStep_erase (s : State) {mk : Nat} (hk : 0x1062aafe4ffe4 &&& mk = 0x1062aafe4ffe4) (tx : State) (ex : (execStationTimeStep s) = .next tx) : tx.erase mk = s.erase mk := by
  unfold execStationTimeStep done at ex
  injection ex with ex
  subst ex
  repeat' (first | with_reducible rfl | with_reducible refine erase_ite ?_ ?_ | simp (disch := exact sub_trans rfl hk) only [↓State.atElapsed_erase, ↓reachPassed_erase, ↓State.timRecord_erase, ↓State.fixQuality_erase, ↓put_time, apply_ite (State.erase mk), ite_self] | (refine (erase_foldl (fun t a => ?_) _ _).trans ?_) | (refine (erase_foldl1 (fun t a => ?_) _ _).trans ?_) | split)

theorem updatePassbook_erase (s : State) {mk : Nat} (hk : 0x10000000000 &&& mk = 0x10000000000) : ((updatePassbook s)).erase mk = s.erase mk := by
  unfold updatePassbook
  repeat' (first | with_reducible rfl | with_reducible refine erase_ite ?_ ?_ | simp (disch := exact sub_trans rfl hk) only [↓put_passbook, apply_ite (State.erase mk), ite_self] | (refine (erase_foldl (fun t a => ?_) _ _).trans ?_) | (refine (erase_foldl1 (fun t a => ?_) _ _).trans ?_) | split)

theorem execPassbookUpdate_erase (s : State) {mk : Nat} (hk : 0x10000000000 &&& mk = 0x10000000000) (tx : State) (ex : (execPassbookUpdate s) = .next tx) : tx.erase mk = s.erase mk := by
  unfold execPassbookUpdate done at ex
  injection ex with ex
  subst ex
  repeat' (first | with_reducible rfl | with_reducible refine erase_ite ?_ ?_ | simp (disch := exact sub_trans rfl hk) only [↓updatePassbook_erase, apply_ite (State.erase mk), ite_self] | (refine (erase_foldl (fun t a => ?_) _ _).trans ?_) | (refine (erase_foldl1 (fun t a => ?_) _ _).trans ?_) | split)

theorem execSliceStart_erase (g : ℕ) (s : State) {mk : Nat} (hk : 0x808240400 &&& mk = 0x808240400) (tx : State) (ex : (execSliceStart g s) = .next tx) : tx.erase mk = s.erase mk := by
  unfold execSliceStart done at ex
  injection ex with ex
  subst ex
  repeat' (first | with_reducible rfl | with_reducible refine erase_ite ?_ ?_ | simp (disch := exact sub_trans rfl hk) only [↓startSlice_erase, apply_ite (State.erase mk), ite_self] | (refine (erase_foldl (fun t a => ?_) _ _).trans ?_) | (refine (erase_foldl1 (fun t a => ?_) _ _).trans ?_) | split)

theorem apportion_erase (s : State) (e : Energy) {mk : Nat} (hk : 0x3000000000 &&& mk = 0x3000000000) : ((apportion s e)).erase mk = s.erase mk := by
  unfold apportion
  repeat' (first | with_reducible rfl | with_reducible refine erase_ite ?_ ?_ | simp (disch := exact sub_trans rfl hk) only [↓State.modTill_erase, ↓State.modDevTill_erase, apply_ite (State.erase mk), ite_self] | (refine (erase_foldl (fun t a => ?_) _ _).trans ?_) | (refine (erase_foldl1 (fun t a => ?_) _ _).trans ?_) | split)

theorem execEnergyApportion_erase (e : Energy) (s : State) {mk : Nat} (hk : 0x3000000400 &&& mk = 0x3000000400) (tx : State) (ex : (execEnergyApportion e s) = .next tx) : tx.erase mk = s.erase mk := by
  unfold execEnergyApportion done at ex
  injection ex with ex
  subst ex
  repeat' (first | with_reducible rfl | with_reducible refine erase_ite ?_ ?_ | simp (disch := exact sub_trans rfl hk) only [↓apportion_erase, ↓State.atMultiple_erase, apply_ite (State.erase mk), ite_self] | (refine (erase_foldl (fun t a => ?_) _ _).trans ?_) | (refine (erase_foldl1 (fun t a => ?_) _ _).trans ?_) | split)

theorem slowAccount_erase (s : State) (a : ℕ) {mk : Nat} (hk : 0x1000000800 &&& mk = 0x1000000800) : ((slowAccount s a)).erase mk = s.erase mk := by
  unfold slowAccount
  repeat' (first | with_reducible rfl | with_reducible refine erase_ite ?_ ?_ | simp (disch := exact sub_trans rfl hk) only [↓State.setTill_erase, ↓State.emit_erase, apply_ite (State.erase mk), ite_self] | (refine (erase_foldl (fun t a => ?_) _ _).trans ?_) | (refine (erase_foldl1 (fun t a => ?_) _ _).trans ?_) | split)

theorem execSlowdownSecond_erase (s : State) {mk : Nat} (hk : 0x1000000c00 &&& mk = 0x1000000c00) (tx : State) (ex : (execSlowdownSecond s) = .next tx) : tx.erase mk = s.erase mk := by
  unfold execSlowdownSecond done at ex
  injection ex with ex
  subst ex
  repeat' (first | with_reducible rfl | with_reducible refine erase_ite ?_ ?_ | simp (disch := exact sub_trans rfl hk) only [↓slowAccount_erase, ↓State.atMultiple_erase, apply_ite (State.erase mk), ite_self] | (refine (erase_foldl (fun t a => ?_) _ _).trans ?_) | (refine (erase_foldl1 (fun t a => ?_) _ _).trans ?_) | split)

theorem execModelSwitchCut_erase (s : State) {mk : Nat} (hk : 0x600000 &&& mk = 0x600000) (tx : State) (ex : (execModelSwitchCut s) = .next tx) : tx.erase mk = s.erase mk := by
  unfold execModelSwitchCut done at ex
  injection ex with ex
  subst ex
  repeat' (first | with_reducible rfl | with_reducible refine erase_ite ?_ ?_ | simp (disch := exact sub_trans rfl hk) only [↓State.modRegion_erase, ↓put_switch, apply_ite (State.erase mk), ite_self] | (refine (erase_foldl (fun t a => ?_) _ _).trans ?_) | (refine (erase_foldl1 (fun t a => ?_) _ _).trans ?_) | split)

theorem convertStreams_erase (s : State) (x : Switch) {mk : Nat} (hk : 0x1000000001000 &&& mk = 0x1000000001000) : ((convertStreams s x)).erase mk = s.erase mk := by
  unfold convertStreams
  repeat' (first | with_reducible rfl | with_reducible refine erase_ite ?_ ?_ | simp (disch := exact sub_trans rfl hk) only [↓State.modStream_erase, ↓put_free, apply_ite (State.erase mk), ite_self] | (refine (erase_foldl (fun t a => ?_) _ _).trans ?_) | (refine (erase_foldl1 (fun t a => ?_) _ _).trans ?_) | split)

theorem dropUnadmitted_erase (s : State) {mk : Nat} (hk : 0x8000 &&& mk = 0x8000) : ((dropUnadmitted s)).erase mk = s.erase mk := by
  unfold dropUnadmitted
  repeat' (first | with_reducible rfl | with_reducible refine erase_ite ?_ ?_ | simp (disch := exact sub_trans rfl hk) only [↓State.setRolling_erase, apply_ite (State.erase mk), ite_self] | (refine (erase_foldl (fun t a => ?_) _ _).trans ?_) | (refine (erase_foldl1 (fun t a => ?_) _ _).trans ?_) | split)

theorem execModelSwitchEnd_erase (s : State) {mk : Nat} (hk : 0x1000000609c00 &&& mk = 0x1000000609c00) (tx : State) (ex : (execModelSwitchEnd s) = .next tx) : tx.erase mk = s.erase mk := by
  unfold execModelSwitchEnd done at ex
  injection ex with ex
  subst ex
  repeat' (first | with_reducible rfl | with_reducible refine erase_ite ?_ ?_ | simp (disch := exact sub_trans rfl hk) only [↓State.atElapsed_erase, ↓dropUnadmitted_erase, ↓convertStreams_erase, ↓State.modRegion_erase, ↓joinLoop_erase, ↓put_switch, apply_ite (State.erase mk), ite_self] | (refine (erase_foldl (fun t a => ?_) _ _).trans ?_) | (refine (erase_foldl1 (fun t a => ?_) _ _).trans ?_) | split)

theorem touchPage_erase (s : State) (h : ℕ) {mk : Nat} (hk : 0x80000000 &&& mk = 0x80000000) : ((touchPage s h)).erase mk = s.erase mk := by
  unfold touchPage
  repeat' (first | with_reducible rfl | with_reducible refine erase_ite ?_ ?_ | simp (disch := exact sub_trans rfl hk) only [↓put_pci, apply_ite (State.erase mk), ite_self] | (refine (erase_foldl (fun t a => ?_) _ _).trans ?_) | (refine (erase_foldl1 (fun t a => ?_) _ _).trans ?_) | split)

theorem touchPages_erase (s : State) (h : ℕ) (n : ℕ) {mk : Nat} (hk : 0x80000000 &&& mk = 0x80000000) : ((touchPages s h n)).erase mk = s.erase mk := by
  unfold touchPages
  repeat' (first | with_reducible rfl | with_reducible refine erase_ite ?_ ?_ | simp (disch := exact sub_trans rfl hk) only [↓touchPage_erase, apply_ite (State.erase mk), ite_self] | (refine (erase_foldl (fun t a => ?_) _ _).trans ?_) | (refine (erase_foldl1 (fun t a => ?_) _ _).trans ?_) | split)

theorem State.hostStore_erase (s : State) (h : ℕ) (bs : List Byte) {mk : Nat} (hk : 0x20080000000 &&& mk = 0x20080000000) : ((State.hostStore s h bs)).erase mk = s.erase mk := by
  unfold State.hostStore
  repeat' (first | with_reducible rfl | with_reducible refine erase_ite ?_ ?_ | simp (disch := exact sub_trans rfl hk) only [↓touchPages_erase, ↓put_mem, apply_ite (State.erase mk), ite_self] | (refine (erase_foldl (fun t a => ?_) _ _).trans ?_) | (refine (erase_foldl1 (fun t a => ?_) _ _).trans ?_) | split)

theorem configure_erase (s : State) (y1 : CfgField) {mk : Nat} (hk : 0x80000004 &&& mk = 0x80000004) : ((configure s y1)).erase mk = s.erase mk := by
  unfold configure
  repeat' (first | with_reducible rfl | with_reducible refine erase_ite ?_ ?_ | simp (disch := exact sub_trans rfl hk) only [↓State.updateInta_erase, ↓put_pci, apply_ite (State.erase mk), ite_self] | (refine (erase_foldl (fun t a => ?_) _ _).trans ?_) | (refine (erase_foldl1 (fun t a => ?_) _ _).trans ?_) | split)

theorem execConfigurationWrite_erase (f : CfgField) (s : State) {mk : Nat} (hk : 0x80000004 &&& mk = 0x80000004) (tx : State) (ex : (execConfigurationWrite f s) = .next tx) : tx.erase mk = s.erase mk := by
  unfold execConfigurationWrite done at ex
  injection ex with ex
  subst ex
  repeat' (first | with_reducible rfl | with_reducible refine erase_ite ?_ ?_ | simp (disch := exact sub_trans rfl hk) only [↓configure_erase, apply_ite (State.erase mk), ite_self] | (refine (erase_foldl (fun t a => ?_) _ _).trans ?_) | (refine (erase_foldl1 (fun t a => ?_) _ _).trans ?_) | split)

theorem execPcieLinkUp_erase (speed : ℕ) (width : ℕ) (s : State) {mk : Nat} (hk : 0x80000004 &&& mk = 0x80000004) (tx : State) (ex : (execPcieLinkUp speed width s) = .next tx) : tx.erase mk = s.erase mk := by
  unfold execPcieLinkUp done at ex
  injection ex with ex
  subst ex
  repeat' (first | with_reducible rfl | with_reducible refine erase_ite ?_ ?_ | simp (disch := exact sub_trans rfl hk) only [↓State.updateInta_erase, ↓put_pci, apply_ite (State.erase mk), ite_self] | (refine (erase_foldl (fun t a => ?_) _ _).trans ?_) | (refine (erase_foldl1 (fun t a => ?_) _ _).trans ?_) | split)

theorem execD3hotEntry_erase (s : State) {mk : Nat} (hk : 0x80000004 &&& mk = 0x80000004) (tx : State) (ex : (execD3hotEntry s) = .next tx) : tx.erase mk = s.erase mk := by
  unfold execD3hotEntry done at ex
  injection ex with ex
  subst ex
  repeat' (first | with_reducible rfl | with_reducible refine erase_ite ?_ ?_ | simp (disch := exact sub_trans rfl hk) only [↓State.updateInta_erase, ↓put_pci, apply_ite (State.erase mk), ite_self] | (refine (erase_foldl (fun t a => ?_) _ _).trans ?_) | (refine (erase_foldl1 (fun t a => ?_) _ _).trans ?_) | split)

theorem execD0Return_erase (s : State) {mk : Nat} (hk : 0x80000004 &&& mk = 0x80000004) (tx : State) (ex : (execD0Return s) = .next tx) : tx.erase mk = s.erase mk := by
  unfold execD0Return done at ex
  injection ex with ex
  subst ex
  repeat' (first | with_reducible rfl | with_reducible refine erase_ite ?_ ?_ | simp (disch := exact sub_trans rfl hk) only [↓State.updateInta_erase, ↓put_pci, apply_ite (State.erase mk), ite_self] | (refine (erase_foldl (fun t a => ?_) _ _).trans ?_) | (refine (erase_foldl1 (fun t a => ?_) _ _).trans ?_) | split)

theorem dropPushes_erase (s : State) {mk : Nat} (hk : 0x1000 &&& mk = 0x1000) : ((dropPushes s)).erase mk = s.erase mk := by
  unfold dropPushes
  repeat' (first | with_reducible rfl | with_reducible refine erase_ite ?_ ?_ | simp (disch := exact sub_trans rfl hk) only [↓State.modStream_erase, apply_ite (State.erase mk), ite_self] | (refine (erase_foldl (fun t a => ?_) _ _).trans ?_) | (refine (erase_foldl1 (fun t a => ?_) _ _).trans ?_) | split)

theorem discardOpenHost_erase (s : State) {mk : Nat} (hk : 0x800000200 &&& mk = 0x800000200) : ((discardOpenHost s)).erase mk = s.erase mk := by
  unfold discardOpenHost
  repeat' (first | with_reducible rfl | with_reducible refine erase_ite ?_ ?_ | simp (disch := exact sub_trans rfl hk) only [↓State.setPage_erase, apply_ite (State.erase mk), ite_self] | (refine (erase_foldl (fun t a => ?_) _ _).trans ?_) | (refine (erase_foldl1 (fun t a => ?_) _ _).trans ?_) | split)

theorem endpointReset_erase (s : State) (e : EndpointEvent) {mk : Nat} (hk : 0x880005a04 &&& mk = 0x880005a04) : ((endpointReset s e)).erase mk = s.erase mk := by
  unfold endpointReset
  repeat' (first | with_reducible rfl | with_reducible refine erase_ite ?_ ?_ | simp (disch := exact sub_trans rfl hk) only [↓State.updateInta_erase, ↓discardOpenHost_erase, ↓clearAllMarks_erase, ↓dropPushes_erase, ↓put_pci, apply_ite (State.erase mk), ite_self] | (refine (erase_foldl (fun t a => ?_) _ _).trans ?_) | (refine (erase_foldl1 (fun t a => ?_) _ _).trans ?_) | split)

theorem execEndpointReset_erase (e : EndpointEvent) (s : State) {mk : Nat} (hk : 0x880005a04 &&& mk = 0x880005a04) (tx : State) (ex : (execEndpointReset e s) = .next tx) : tx.erase mk = s.erase mk := by
  unfold execEndpointReset done at ex
  injection ex with ex
  subst ex
  repeat' (first | with_reducible rfl | with_reducible refine erase_ite ?_ ?_ | simp (disch := exact sub_trans rfl hk) only [↓endpointReset_erase, apply_ite (State.erase mk), ite_self] | (refine (erase_foldl (fun t a => ?_) _ _).trans ?_) | (refine (erase_foldl1 (fun t a => ?_) _ _).trans ?_) | split)

theorem execBar2Write_erase (off : ℕ) (bytes : List Byte) (s : State) {mk : Nat} (hk : 0x60080000000 &&& mk = 0x60080000000) (tx : State) (ex : (execBar2Write off bytes s) = .next tx) : tx.erase mk = s.erase mk := by
  unfold execBar2Write done at ex
  injection ex with ex
  subst ex
  repeat' (first | with_reducible rfl | with_reducible refine erase_ite ?_ ?_ | simp (disch := exact sub_trans rfl hk) only [↓State.store_erase, ↓put_pci, apply_ite (State.erase mk), ite_self] | (refine (erase_foldl (fun t a => ?_) _ _).trans ?_) | (refine (erase_foldl1 (fun t a => ?_) _ _).trans ?_) | split)

theorem execBar2Read_erase (off : ℕ) (n : ℕ) (s : State) {mk : Nat} (hk : 0x1600000000000 &&& mk = 0x1600000000000) (tx : State) (ex : (execBar2Read off n s) = .next tx) : tx.erase mk = s.erase mk := by
  unfold execBar2Read done at ex
  injection ex with ex
  subst ex
  repeat' (first | with_reducible rfl | with_reducible refine erase_ite ?_ ?_ | simp (disch := exact sub_trans rfl hk) only [↓put_readback_poisoned_free, apply_ite (State.erase mk), ite_self] | (refine (erase_foldl (fun t a => ?_) _ _).trans ?_) | (refine (erase_foldl1 (fun t a => ?_) _ _).trans ?_) | split)

theorem execAtsInvalidation_erase (base : ℕ) (size : ℕ) (s : State) {mk : Nat} (hk : 0x80000000 &&& mk = 0x80000000) (tx : State) (ex : (execAtsInvalidation base size s) = .next tx) : tx.erase mk = s.erase mk := by
  unfold execAtsInvalidation done at ex
  injection ex with ex
  subst ex
  repeat' (first | with_reducible rfl | with_reducible refine erase_ite ?_ ?_ | simp (disch := exact sub_trans rfl hk) only [↓put_pci, apply_ite (State.erase mk), ite_self] | (refine (erase_foldl (fun t a => ?_) _ _).trans ?_) | (refine (erase_foldl1 (fun t a => ?_) _ _).trans ?_) | split)

theorem execAtsInvalidationComplete_erase (s : State) {mk : Nat} (hk : 0x80000000 &&& mk = 0x80000000) (tx : State) (ex : (execAtsInvalidationComplete s) = .next tx) : tx.erase mk = s.erase mk := by
  unfold execAtsInvalidationComplete done at ex
  injection ex with ex
  subst ex
  repeat' (first | with_reducible rfl | with_reducible refine erase_ite ?_ ?_ | simp (disch := exact sub_trans rfl hk) only [↓put_pci, apply_ite (State.erase mk), ite_self] | (refine (erase_foldl (fun t a => ?_) _ _).trans ?_) | (refine (erase_foldl1 (fun t a => ?_) _ _).trans ?_) | split)

theorem writeCmdCtrl_erase (s : State) (v : W32) {mk : Nat} (hk : 0x80005a00 &&& mk = 0x80005a00) : ((writeCmdCtrl s v)).erase mk = s.erase mk := by
  unfold writeCmdCtrl
  repeat' (first | with_reducible rfl | with_reducible refine erase_ite ?_ ?_ | simp (disch := exact sub_trans rfl hk) only [↓State.countIgnored_erase, ↓clearAllMarks_erase, ↓put_pci, apply_ite (State.erase mk), ite_self] | (refine (erase_foldl (fun t a => ?_) _ _).trans ?_) | (refine (erase_foldl1 (fun t a => ?_) _ _).trans ?_) | split)

theorem execCmdRingCtrlWrite_erase (value : W32) (s : State) {mk : Nat} (hk : 0x80005a00 &&& mk = 0x80005a00) (tx : State) (ex : (execCmdRingCtrlWrite value s) = .next tx) : tx.erase mk = s.erase mk := by
  unfold execCmdRingCtrlWrite done at ex
  injection ex with ex
  subst ex
  repeat' (first | with_reducible rfl | with_reducible refine erase_ite ?_ ?_ | simp (disch := exact sub_trans rfl hk) only [↓writeCmdCtrl_erase, apply_ite (State.erase mk), ite_self] | (refine (erase_foldl (fun t a => ?_) _ _).trans ?_) | (refine (erase_foldl1 (fun t a => ?_) _ _).trans ?_) | split)

theorem writeJrnCtrl_erase (s : State) (v : W32) {mk : Nat} (hk : 0x80000a00 &&& mk = 0x80000a00) : ((writeJrnCtrl s v)).erase mk = s.erase mk := by
  unfold writeJrnCtrl
  repeat' (first | with_reducible rfl | with_reducible refine erase_ite ?_ ?_ | simp (disch := exact sub_trans rfl hk) only [↓State.countIgnored_erase, ↓put_journal_pci, apply_ite (State.erase mk), ite_self] | (refine (erase_foldl (fun t a => ?_) _ _).trans ?_) | (refine (erase_foldl1 (fun t a => ?_) _ _).trans ?_) | split)

theorem execJrnlRingCtrlWrite_erase (value : W32) (s : State) {mk : Nat} (hk : 0x80000a00 &&& mk = 0x80000a00) (tx : State) (ex : (execJrnlRingCtrlWrite value s) = .next tx) : tx.erase mk = s.erase mk := by
  unfold execJrnlRingCtrlWrite done at ex
  injection ex with ex
  subst ex
  repeat' (first | with_reducible rfl | with_reducible refine erase_ite ?_ ?_ | simp (disch := exact sub_trans rfl hk) only [↓writeJrnCtrl_erase, apply_ite (State.erase mk), ite_self] | (refine (erase_foldl (fun t a => ?_) _ _).trans ?_) | (refine (erase_foldl1 (fun t a => ?_) _ _).trans ?_) | split)

theorem readConsumed_erase (s : State) {mk : Nat} (hk : 0x80000004 &&& mk = 0x80000004) : ((readConsumed s)).erase mk = s.erase mk := by
  unfold readConsumed
  repeat' (first | with_reducible rfl | with_reducible refine erase_ite ?_ ?_ | simp (disch := exact sub_trans rfl hk) only [↓touchPages_erase, ↓State.raise_erase, ↓put_pci, apply_ite (State.erase mk), ite_self] | (refine (erase_foldl (fun t a => ?_) _ _).trans ?_) | (refine (erase_foldl1 (fun t a => ?_) _ _).trans ?_) | split)

theorem deliverRecord_erase (s : State) (bs : List Byte) {mk : Nat} (hk : 0x20080000000 &&& mk = 0x20080000000) : ((deliverRecord s bs)).erase mk = s.erase mk := by
  unfold deliverRecord
  repeat' (first | with_reducible rfl | with_reducible refine erase_ite ?_ ?_ | simp (disch := exact sub_trans rfl hk) only [↓State.hostStore_erase, ↓put_pci, apply_ite (State.erase mk), ite_self] | (refine (erase_foldl (fun t a => ?_) _ _).trans ?_) | (refine (erase_foldl1 (fun t a => ?_) _ _).trans ?_) | split)

theorem deliverGap_erase (s : State) {mk : Nat} (hk : 0x20080000804 &&& mk = 0x20080000804) : ((deliverGap s)).erase mk = s.erase mk := by
  unfold deliverGap
  repeat' (first | with_reducible rfl | with_reducible refine erase_ite ?_ ?_ | simp (disch := exact sub_trans rfl hk) only [↓deliverRecord_erase, ↓State.raise_erase, ↓put_journal, apply_ite (State.erase mk), ite_self] | (refine (erase_foldl (fun t a => ?_) _ _).trans ?_) | (refine (erase_foldl1 (fun t a => ?_) _ _).trans ?_) | split)

theorem deliverNext_erase (s : State) {mk : Nat} (hk : 0x20080000804 &&& mk = 0x20080000804) : ((deliverNext s)).erase mk = s.erase mk := by
  unfold deliverNext
  repeat' (first | with_reducible rfl | with_reducible refine erase_ite ?_ ?_ | simp (disch := exact sub_trans rfl hk) only [↓deliverGap_erase, ↓deliverRecord_erase, ↓put_journal_pci, apply_ite (State.erase mk), ite_self] | (refine (erase_foldl (fun t a => ?_) _ _).trans ?_) | (refine (erase_foldl1 (fun t a => ?_) _ _).trans ?_) | split)

theorem deliverBurst_erase (y0 : ℕ) (y1 : State) {mk : Nat} (hk : 0x20080000804 &&& mk = 0x20080000804) : ((deliverBurst y0 y1)).erase mk = y1.erase mk := by
  induction y0 generalizing y1 with
  | zero => rfl
  | succ k ih =>
    unfold deliverBurst
    repeat' (first | with_reducible rfl | with_reducible refine erase_ite ?_ ?_ | simp (disch := exact sub_trans rfl hk) only [↓ih, ↓deliverNext_erase, apply_ite (State.erase mk), ite_self] | (refine (erase_foldl (fun t a => ?_) _ _).trans ?_) | (refine (erase_foldl1 (fun t a => ?_) _ _).trans ?_) | split)

theorem moderate_erase (s : State) {mk : Nat} (hk : 0x80000004 &&& mk = 0x80000004) : ((moderate s)).erase mk = s.erase mk := by
  unfold moderate
  repeat' (first | with_reducible rfl | with_reducible refine erase_ite ?_ ?_ | simp (disch := exact sub_trans rfl hk) only [↓State.raise_erase, ↓put_pci, apply_ite (State.erase mk), ite_self] | (refine (erase_foldl (fun t a => ?_) _ _).trans ?_) | (refine (erase_foldl1 (fun t a => ?_) _ _).trans ?_) | split)

theorem execJournalRingDeliver_erase (count : ℕ) (s : State) {mk : Nat} (hk : 0x20080000804 &&& mk = 0x20080000804) (tx : State) (ex : (execJournalRingDeliver count s) = .next tx) : tx.erase mk = s.erase mk := by
  unfold execJournalRingDeliver done at ex
  injection ex with ex
  subst ex
  repeat' (first | with_reducible rfl | with_reducible refine erase_ite ?_ ?_ | simp (disch := exact sub_trans rfl hk) only [↓readConsumed_erase, ↓State.raise_erase, ↓deliverBurst_erase, ↓moderate_erase, ↓State.hostStore_erase, ↓put_pci, apply_ite (State.erase mk), ite_self] | (refine (erase_foldl (fun t a => ?_) _ _).trans ?_) | (refine (erase_foldl1 (fun t a => ?_) _ _).trans ?_) | split)

theorem execJournalIntModeration_erase (s : State) {mk : Nat} (hk : 0x80000404 &&& mk = 0x80000404) (tx : State) (ex : (execJournalIntModeration s) = .next tx) : tx.erase mk = s.erase mk := by
  unfold execJournalIntModeration done at ex
  injection ex with ex
  subst ex
  repeat' (first | with_reducible rfl | with_reducible refine erase_ite ?_ ?_ | simp (disch := exact sub_trans rfl hk) only [↓State.atElapsed_erase, ↓State.raise_erase, ↓put_pci, apply_ite (State.erase mk), ite_self] | (refine (erase_foldl (fun t a => ?_) _ _).trans ?_) | (refine (erase_foldl1 (fun t a => ?_) _ _).trans ?_) | split)

theorem traceRecord_erase (s : State) {mk : Nat} (hk : 0x800 &&& mk = 0x800) : ((traceRecord s)).erase mk = s.erase mk := by
  unfold traceRecord
  repeat' (first | with_reducible rfl | with_reducible refine erase_ite ?_ ?_ | simp (disch := exact sub_trans rfl hk) only [↓State.emit_erase, apply_ite (State.erase mk), ite_self] | (refine (erase_foldl (fun t a => ?_) _ _).trans ?_) | (refine (erase_foldl1 (fun t a => ?_) _ _).trans ?_) | split)

theorem writeTraceCtrl_erase (s : State) (v : ℕ) {mk : Nat} (hk : 0x800000a00 &&& mk = 0x800000a00) : ((writeTraceCtrl s v)).erase mk = s.erase mk := by
  unfold writeTraceCtrl
  repeat' (first | with_reducible rfl | with_reducible refine erase_ite ?_ ?_ | simp (disch := exact sub_trans rfl hk) only [↓State.countIgnored_erase, ↓traceRecord_erase, ↓put_dbg, apply_ite (State.erase mk), ite_self] | (refine (erase_foldl (fun t a => ?_) _ _).trans ?_) | (refine (erase_foldl1 (fun t a => ?_) _ _).trans ?_) | split)

theorem execTraceCtrlWrite_erase (_src : Src) (value : W32) (s : State) {mk : Nat} (hk : 0x800000a00 &&& mk = 0x800000a00) (tx : State) (ex : (execTraceCtrlWrite _src value s) = .next tx) : tx.erase mk = s.erase mk := by
  unfold execTraceCtrlWrite done at ex
  injection ex with ex
  subst ex
  repeat' (first | with_reducible rfl | with_reducible refine erase_ite ?_ ?_ | simp (disch := exact sub_trans rfl hk) only [↓writeTraceCtrl_erase, apply_ite (State.erase mk), ite_self] | (refine (erase_foldl (fun t a => ?_) _ _).trans ?_) | (refine (erase_foldl1 (fun t a => ?_) _ _).trans ?_) | split)

theorem writeTrace_erase (s : State) (r : TraceRec) {mk : Nat} (hk : 0x60800000800 &&& mk = 0x60800000800) : ((writeTrace s r)).erase mk = s.erase mk := by
  unfold writeTrace
  repeat' (first | with_reducible rfl | with_reducible refine erase_ite ?_ ?_ | simp (disch := exact sub_trans rfl hk) only [↓traceRecord_erase, ↓State.store_erase, ↓put_dbg, apply_ite (State.erase mk), ite_self] | (refine (erase_foldl (fun t a => ?_) _ _).trans ?_) | (refine (erase_foldl1 (fun t a => ?_) _ _).trans ?_) | split)

theorem execTraceBufferFlush_erase (cls : ℕ) (inst : ℕ) (s : State) {mk : Nat} (hk : 0x60800000800 &&& mk = 0x60800000800) (tx : State) (ex : (execTraceBufferFlush cls inst s) = .next tx) : tx.erase mk = s.erase mk := by
  unfold execTraceBufferFlush done at ex
  injection ex with ex
  subst ex
  repeat' (first | with_reducible rfl | with_reducible refine erase_ite ?_ ?_ | simp (disch := exact sub_trans rfl hk) only [↓writeTrace_erase, ↓put_dbg, apply_ite (State.erase mk), ite_self] | (refine (erase_foldl (fun t a => ?_) _ _).trans ?_) | (refine (erase_foldl1 (fun t a => ?_) _ _).trans ?_) | split)

theorem arm_erase (s : State) (w : ℕ) {mk : Nat} (hk : 0x800000200 &&& mk = 0x800000200) : ((arm s w)).erase mk = s.erase mk := by
  unfold arm
  repeat' (first | with_reducible rfl | with_reducible refine erase_ite ?_ ?_ | simp (disch := exact sub_trans rfl hk) only [↓State.setWatch_erase, ↓State.countReject_erase, apply_ite (State.erase mk), ite_self] | (refine (erase_foldl (fun t a => ?_) _ _).trans ?_) | (refine (erase_foldl1 (fun t a => ?_) _ _).trans ?_) | split)

theorem execArm_erase (w : ℕ) (account : Bool) (s : State) {mk : Nat} (hk : 0x800000200 &&& mk = 0x800000200) (tx : State) (ex : (execArm w account s) = .next tx) : tx.erase mk = s.erase mk := by
  unfold execArm done at ex
  injection ex with ex
  subst ex
  repeat' (first | with_reducible rfl | with_reducible refine erase_ite ?_ ?_ | simp (disch := exact sub_trans rfl hk) only [↓arm_erase, apply_ite (State.erase mk), ite_self] | (refine (erase_foldl (fun t a => ?_) _ _).trans ?_) | (refine (erase_foldl1 (fun t a => ?_) _ _).trans ?_) | split)

theorem disarm_erase (s : State) (w : ℕ) {mk : Nat} (hk : 0x800000a00 &&& mk = 0x800000a00) : ((disarm s w)).erase mk = s.erase mk := by
  unfold disarm
  repeat' (first | with_reducible rfl | with_reducible refine erase_ite ?_ ?_ | simp (disch := exact sub_trans rfl hk) only [↓stopWatch_erase, ↓State.setWatch_erase, ↓State.countReject_erase, apply_ite (State.erase mk), ite_self] | (refine (erase_foldl (fun t a => ?_) _ _).trans ?_) | (refine (erase_foldl1 (fun t a => ?_) _ _).trans ?_) | split)

theorem execDisarm_erase (w : ℕ) (account : Bool) (s : State) {mk : Nat} (hk : 0x800000a00 &&& mk = 0x800000a00) (tx : State) (ex : (execDisarm w account s) = .next tx) : tx.erase mk = s.erase mk := by
  unfold execDisarm done at ex
  injection ex with ex
  subst ex
  repeat' (first | with_reducible rfl | with_reducible refine erase_ite ?_ ?_ | simp (disch := exact sub_trans rfl hk) only [↓disarm_erase, apply_ite (State.erase mk), ite_self] | (refine (erase_foldl (fun t a => ?_) _ _).trans ?_) | (refine (erase_foldl1 (fun t a => ?_) _ _).trans ?_) | split)

theorem fireStream_erase (s : State) (m : Member) {mk : Nat} (hk : 0x800000000 &&& mk = 0x800000000) : ((fireStream s m)).erase mk = s.erase mk := by
  unfold fireStream
  repeat' (first | with_reducible rfl | with_reducible refine erase_ite ?_ ?_ | simp (disch := exact sub_trans rfl hk) only [↓State.setWatch_erase, apply_ite (State.erase mk), ite_self] | (refine (erase_foldl (fun t a => ?_) _ _).trans ?_) | (refine (erase_foldl1 (fun t a => ?_) _ _).trans ?_) | split)

theorem fireStep_erase (s : State) (step : ℕ) {mk : Nat} (hk : 0x800000000 &&& mk = 0x800000000) : ((fireStep s step)).erase mk = s.erase mk := by
  unfold fireStep
  repeat' (first | with_reducible rfl | with_reducible refine erase_ite ?_ ?_ | simp (disch := exact sub_trans rfl hk) only [↓State.setWatch_erase, apply_ite (State.erase mk), ite_self] | (refine (erase_foldl (fun t a => ?_) _ _).trans ?_) | (refine (erase_foldl1 (fun t a => ?_) _ _).trans ?_) | split)

theorem chargeCopy_erase (s : State) (q : WatchReq) (parts : List WatchPart) {mk : Nat} (hk : 0x2000000000 &&& mk = 0x2000000000) : ((chargeCopy s q parts)).erase mk = s.erase mk := by
  unfold chargeCopy
  repeat' (first | with_reducible rfl | with_reducible refine erase_ite ?_ ?_ | simp (disch := exact sub_trans rfl hk) only [↓chargeDev_erase, apply_ite (State.erase mk), ite_self] | (refine (erase_foldl (fun t a => ?_) _ _).trans ?_) | (refine (erase_foldl1 (fun t a => ?_) _ _).trans ?_) | split)

theorem completeCopy_erase (s : State) (w : ℕ) (slot : ℕ) (sats : ℕ) (failed : Bool) {mk : Nat} (hk : 0x1062880000800 &&& mk = 0x1062880000800) : ((completeCopy s w slot sats failed)).erase mk = s.erase mk := by
  unfold completeCopy
  repeat' (first | with_reducible rfl | with_reducible refine erase_ite ?_ ?_ | simp (disch := exact sub_trans rfl hk) only [↓stopWatch_erase, ↓State.setWatch_erase, ↓State.store_erase, ↓State.hostStore_erase, ↓endWatch_erase, ↓chargeCopy_erase, ↓put_free, apply_ite (State.erase mk), ite_self] | (refine (erase_foldl (fun t a => ?_) _ _).trans ?_) | (refine (erase_foldl1 (fun t a => ?_) _ _).trans ?_) | split)

theorem execWatchCopyComplete_erase (w : ℕ) (slot : ℕ) (sats : ℕ) (hostWriteFailed : Bool) (s : State) {mk : Nat} (hk : 0x1062880000800 &&& mk = 0x1062880000800) (tx : State) (ex : (execWatchCopyComplete w slot sats hostWriteFailed s) = .next tx) : tx.erase mk = s.erase mk := by
  unfold execWatchCopyComplete done at ex
  injection ex with ex
  subst ex
  repeat' (first | with_reducible rfl | with_reducible refine erase_ite ?_ ?_ | simp (disch := exact sub_trans rfl hk) only [↓completeCopy_erase, apply_ite (State.erase mk), ite_self] | (refine (erase_foldl (fun t a => ?_) _ _).trans ?_) | (refine (erase_foldl1 (fun t a => ?_) _ _).trans ?_) | split)

theorem stopRecord_erase (s : State) {mk : Nat} (hk : 0x800 &&& mk = 0x800) : ((stopRecord s)).erase mk = s.erase mk := by
  unfold stopRecord
  repeat' (first | with_reducible rfl | with_reducible refine erase_ite ?_ ?_ | simp (disch := exact sub_trans rfl hk) only [↓State.emit_erase, apply_ite (State.erase mk), ite_self] | (refine (erase_foldl (fun t a => ?_) _ _).trans ?_) | (refine (erase_foldl1 (fun t a => ?_) _ _).trans ?_) | split)

theorem releaseStop_erase (s : State) {mk : Nat} (hk : 0x10008b684fa04 &&& mk = 0x10008b684fa04) : ((releaseStop s)).erase mk = s.erase mk := by
  unfold releaseStop
  repeat' (first | with_reducible rfl | with_reducible refine erase_ite ?_ ?_ | simp (disch := exact sub_trans rfl hk) only [↓State.modEngine_erase, ↓stopRecord_erase, ↓enterStart_erase, ↓beginNext_erase, ↓passPictures_erase, ↓passDeadlines_erase, ↓settleChannels_erase, ↓dispatch_erase, ↓put_flt, apply_ite (State.erase mk), ite_self] | (refine (erase_foldl (fun t a => ?_) _ _).trans ?_) | (refine (erase_foldl1 (fun t a => ?_) _ _).trans ?_) | split)

theorem State.dbgStatus_erase (s : State) (st : ℕ) {mk : Nat} (hk : 0x800000000 &&& mk = 0x800000000) : ((State.dbgStatus s st)).erase mk = s.erase mk := by
  unfold State.dbgStatus
  repeat' (first | with_reducible rfl | with_reducible refine erase_ite ?_ ?_ | simp (disch := exact sub_trans rfl hk) only [↓put_dbg, apply_ite (State.erase mk), ite_self] | (refine (erase_foldl (fun t a => ?_) _ _).trans ?_) | (refine (erase_foldl1 (fun t a => ?_) _ _).trans ?_) | split)

theorem halt_erase (s : State) (op : ℕ) (immediate : Bool) {mk : Nat} (hk : 0x10428b4a47a04 &&& mk = 0x10428b4a47a04) : ((halt s op immediate)).erase mk = s.erase mk := by
  unfold halt
  repeat' (first | with_reducible rfl | with_reducible refine erase_ite ?_ ?_ | simp (disch := exact sub_trans rfl hk) only [↓State.countReject_erase, ↓State.dbgStatus_erase, ↓globalStop_erase, ↓stopRecord_erase, ↓put_flt, apply_ite (State.erase mk), ite_self] | (refine (erase_foldl (fun t a => ?_) _ _).trans ?_) | (refine (erase_foldl1 (fun t a => ?_) _ _).trans ?_) | split)

theorem execHalt_erase (s : State) {mk : Nat} (hk : 0x10428b4a47a04 &&& mk = 0x10428b4a47a04) (tx : State) (ex : (execHalt s) = .next tx) : tx.erase mk = s.erase mk := by
  unfold execHalt done at ex
  injection ex with ex
  subst ex
  repeat' (first | with_reducible rfl | with_reducible refine erase_ite ?_ ?_ | simp (disch := exact sub_trans rfl hk) only [↓halt_erase, apply_ite (State.erase mk), ite_self] | (refine (erase_foldl (fun t a => ?_) _ _).trans ?_) | (refine (erase_foldl1 (fun t a => ?_) _ _).trans ?_) | split)

theorem execHaltImmediate_erase (s : State) {mk : Nat} (hk : 0x10428b4a47a04 &&& mk = 0x10428b4a47a04) (tx : State) (ex : (execHaltImmediate s) = .next tx) : tx.erase mk = s.erase mk := by
  unfold execHaltImmediate done at ex
  injection ex with ex
  subst ex
  repeat' (first | with_reducible rfl | with_reducible refine erase_ite ?_ ?_ | simp (disch := exact sub_trans rfl hk) only [↓halt_erase, apply_ite (State.erase mk), ite_self] | (refine (erase_foldl (fun t a => ?_) _ _).trans ?_) | (refine (erase_foldl1 (fun t a => ?_) _ _).trans ?_) | split)

theorem execReleaseHalt_erase (s : State) {mk : Nat} (hk : 0x10008b684fa04 &&& mk = 0x10008b684fa04) (tx : State) (ex : (execReleaseHalt s) = .next tx) : tx.erase mk = s.erase mk := by
  unfold execReleaseHalt done at ex
  injection ex with ex
  subst ex
  repeat' (first | with_reducible rfl | with_reducible refine erase_ite ?_ ?_ | simp (disch := exact sub_trans rfl hk) only [↓releaseStop_erase, ↓State.dbgStatus_erase, ↓State.countReject_erase, apply_ite (State.erase mk), ite_self] | (refine (erase_foldl (fun t a => ?_) _ _).trans ?_) | (refine (erase_foldl1 (fun t a => ?_) _ _).trans ?_) | split)

theorem endUnlock_erase (s : State) {mk : Nat} (hk : 0x1000cb684fa04 &&& mk = 0x1000cb684fa04) : ((endUnlock s)).erase mk = s.erase mk := by
  unfold endUnlock
  repeat' (first | with_reducible rfl | with_reducible refine erase_ite ?_ ?_ | simp (disch := exact sub_trans rfl hk) only [↓dropUnlock_erase, ↓releaseStop_erase, apply_ite (State.erase mk), ite_self] | (refine (erase_foldl (fun t a => ?_) _ _).trans ?_) | (refine (erase_foldl1 (fun t a => ?_) _ _).trans ?_) | split)

theorem writeObsSel_erase (s : State) (v : ℕ) {mk : Nat} (hk : 0x800000a04 &&& mk = 0x800000a04) : ((writeObsSel s v)).erase mk = s.erase mk := by
  unfold writeObsSel
  repeat' (first | with_reducible rfl | with_reducible refine erase_ite ?_ ?_ | simp (disch := exact sub_trans rfl hk) only [↓State.countIgnored_erase, ↓State.emit_erase, ↓put_pins_dbg, apply_ite (State.erase mk), ite_self] | (refine (erase_foldl (fun t a => ?_) _ _).trans ?_) | (refine (erase_foldl1 (fun t a => ?_) _ _).trans ?_) | split)

theorem execObsSelWrite_erase (_src : Src) (value : W32) (s : State) {mk : Nat} (hk : 0x800000a04 &&& mk = 0x800000a04) (tx : State) (ex : (execObsSelWrite _src value s) = .next tx) : tx.erase mk = s.erase mk := by
  unfold execObsSelWrite done at ex
  injection ex with ex
  subst ex
  repeat' (first | with_reducible rfl | with_reducible refine erase_ite ?_ ?_ | simp (disch := exact sub_trans rfl hk) only [↓writeObsSel_erase, apply_ite (State.erase mk), ite_self] | (refine (erase_foldl (fun t a => ?_) _ _).trans ?_) | (refine (erase_foldl1 (fun t a => ?_) _ _).trans ?_) | split)

theorem execJtagInstruction_erase (opcode : ℕ) (s : State) {mk : Nat} (hk : 0x800000800 &&& mk = 0x800000800) (tx : State) (ex : (execJtagInstruction opcode s) = .next tx) : tx.erase mk = s.erase mk := by
  unfold execJtagInstruction done at ex
  injection ex with ex
  subst ex
  repeat' (first | with_reducible rfl | with_reducible refine erase_ite ?_ ?_ | simp (disch := exact sub_trans rfl hk) only [↓State.emit_erase, ↓put_dbg, apply_ite (State.erase mk), ite_self] | (refine (erase_foldl (fun t a => ?_) _ _).trans ?_) | (refine (erase_foldl1 (fun t a => ?_) _ _).trans ?_) | split)

theorem execTestLogicReset_erase (s : State) {mk : Nat} (hk : 0x800000000 &&& mk = 0x800000000) (tx : State) (ex : (execTestLogicReset s) = .next tx) : tx.erase mk = s.erase mk := by
  unfold execTestLogicReset done at ex
  injection ex with ex
  subst ex
  repeat' (first | with_reducible rfl | with_reducible refine erase_ite ?_ ?_ | simp (disch := exact sub_trans rfl hk) only [↓put_dbg, apply_ite (State.erase mk), ite_self] | (refine (erase_foldl (fun t a => ?_) _ _).trans ?_) | (refine (erase_foldl1 (fun t a => ?_) _ _).trans ?_) | split)

theorem replicate_erase (before : State) (s : State) (m : Member) {mk : Nat} (hk : 0x300000000 &&& mk = 0x300000000) : ((replicate before s m)).erase mk = s.erase mk := by
  unfold replicate
  repeat' (first | with_reducible rfl | with_reducible refine erase_ite ?_ ?_ | simp (disch := exact sub_trans rfl hk) only [↓sendReplica_erase, apply_ite (State.erase mk), ite_self] | (refine (erase_foldl (fun t a => ?_) _ _).trans ?_) | (refine (erase_foldl1 (fun t a => ?_) _ _).trans ?_) | split)

theorem batchBoundary_erase (s : State) (g : ℕ) (a : ℕ) {mk : Nat} (hk : 0x1001b00249800 &&& mk = 0x1001b00249800) : ((batchBoundary s g a)).erase mk = s.erase mk := by
  unfold batchBoundary
  repeat' (first | with_reducible rfl | with_reducible refine erase_ite ?_ ?_ | simp (disch := exact sub_trans rfl hk) only [↓fireStream_erase, ↓stepBoundary_erase, ↓endSlicesWithout_erase, ↓replicate_erase, apply_ite (State.erase mk), ite_self] | (refine (erase_foldl (fun t a => ?_) _ _).trans ?_) | (refine (erase_foldl1 (fun t a => ?_) _ _).trans ?_) | split)

theorem execBatchStepBoundary_erase (g : ℕ) (a : ℕ) (s : State) {mk : Nat} (hk : 0x1001b00249800 &&& mk = 0x1001b00249800) (tx : State) (ex : (execBatchStepBoundary g a s) = .next tx) : tx.erase mk = s.erase mk := by
  unfold execBatchStepBoundary done at ex
  injection ex with ex
  subst ex
  repeat' (first | with_reducible rfl | with_reducible refine erase_ite ?_ ?_ | simp (disch := exact sub_trans rfl hk) only [↓batchBoundary_erase, apply_ite (State.erase mk), ite_self] | (refine (erase_foldl (fun t a => ?_) _ _).trans ?_) | (refine (erase_foldl1 (fun t a => ?_) _ _).trans ?_) | split)

theorem stepEnd_erase (s : State) (inputs : List (List W32)) {mk : Nat} (hk : 0x808050020 &&& mk = 0x808050020) : ((stepEnd s inputs)).erase mk = s.erase mk := by
  unfold stepEnd
  repeat' (first | with_reducible rfl | with_reducible refine erase_ite ?_ ?_ | simp (disch := exact sub_trans rfl hk) only [↓stepComplete_erase, ↓fireStep_erase, apply_ite (State.erase mk), ite_self] | (refine (erase_foldl (fun t a => ?_) _ _).trans ?_) | (refine (erase_foldl1 (fun t a => ?_) _ _).trans ?_) | split)

theorem execAdaptationStepComplete_erase (inputs : List (List W32)) (s : State) {mk : Nat} (hk : 0x808050020 &&& mk = 0x808050020) (tx : State) (ex : (execAdaptationStepComplete inputs s) = .next tx) : tx.erase mk = s.erase mk := by
  unfold execAdaptationStepComplete done at ex
  injection ex with ex
  subst ex
  repeat' (first | with_reducible rfl | with_reducible refine erase_ite ?_ ?_ | simp (disch := exact sub_trans rfl hk) only [↓stepEnd_erase, apply_ite (State.erase mk), ite_self] | (refine (erase_foldl (fun t a => ?_) _ _).trans ?_) | (refine (erase_foldl1 (fun t a => ?_) _ _).trans ?_) | split)

theorem State.secStatus_erase (s : State) (st : ℕ) {mk : Nat} (hk : 0x400000000 &&& mk = 0x400000000) : ((State.secStatus s st)).erase mk = s.erase mk := by
  unfold State.secStatus
  repeat' (first | with_reducible rfl | with_reducible refine erase_ite ?_ ?_ | simp (disch := exact sub_trans rfl hk) only [↓put_sec, apply_ite (State.erase mk), ite_self] | (refine (erase_foldl (fun t a => ?_) _ _).trans ?_) | (refine (erase_foldl1 (fun t a => ?_) _ _).trans ?_) | split)

theorem secReject_erase (s : State) (op : ℕ) {mk : Nat} (hk : 0x400000200 &&& mk = 0x400000200) : ((secReject s op)).erase mk = s.erase mk := by
  unfold secReject
  repeat' (first | with_reducible rfl | with_reducible refine erase_ite ?_ ?_ | simp (disch := exact sub_trans rfl hk) only [↓State.countReject_erase, ↓State.secStatus_erase, apply_ite (State.erase mk), ite_self] | (refine (erase_foldl (fun t a => ?_) _ _).trans ?_) | (refine (erase_foldl1 (fun t a => ?_) _ _).trans ?_) | split)

theorem State.secRecord_erase (s : State) (type : ℕ) (status : ℕ) (p : SecPl) {mk : Nat} (hk : 0x800 &&& mk = 0x800) : ((State.secRecord s type status p)).erase mk = s.erase mk := by
  unfold State.secRecord
  repeat' (first | with_reducible rfl | with_reducible refine erase_ite ?_ ?_ | simp (disch := exact sub_trans rfl hk) only [↓State.emit_erase, apply_ite (State.erase mk), ite_self] | (refine (erase_foldl (fun t a => ?_) _ _).trans ?_) | (refine (erase_foldl1 (fun t a => ?_) _ _).trans ?_) | split)

theorem execChallenge_erase (random : ℕ) (s : State) {mk : Nat} (hk : 0x400000000 &&& mk = 0x400000000) (tx : State) (ex : (execChallenge random s) = .next tx) : tx.erase mk = s.erase mk := by
  unfold execChallenge done at ex
  injection ex with ex
  subst ex
  repeat' (first | with_reducible rfl | with_reducible refine erase_ite ?_ ?_ | simp (disch := exact sub_trans rfl hk) only [↓put_sec, apply_ite (State.erase mk), ite_self] | (refine (erase_foldl (fun t a => ?_) _ _).trans ?_) | (refine (erase_foldl1 (fun t a => ?_) _ _).trans ?_) | split)

theorem unlock_erase (s : State) {mk : Nat} (hk : 0xc00000804 &&& mk = 0xc00000804) : ((unlock s)).erase mk = s.erase mk := by
  unfold unlock
  repeat' (first | with_reducible rfl | with_reducible refine erase_ite ?_ ?_ | simp (disch := exact sub_trans rfl hk) only [↓State.secStatus_erase, ↓State.secRecord_erase, ↓checkAccess_erase, ↓put_sec, apply_ite (State.erase mk), ite_self] | (refine (erase_foldl (fun t a => ?_) _ _).trans ?_) | (refine (erase_foldl1 (fun t a => ?_) _ _).trans ?_) | split)

theorem execUnlock_erase (s : State) {mk : Nat} (hk : 0xc00000804 &&& mk = 0xc00000804) (tx : State) (ex : (execUnlock s) = .next tx) : tx.erase mk = s.erase mk := by
  unfold execUnlock done at ex
  injection ex with ex
  subst ex
  repeat' (first | with_reducible rfl | with_reducible refine erase_ite ?_ ?_ | simp (disch := exact sub_trans rfl hk) only [↓unlock_erase, apply_ite (State.erase mk), ite_self] | (refine (erase_foldl (fun t a => ?_) _ _).trans ?_) | (refine (erase_foldl1 (fun t a => ?_) _ _).trans ?_) | split)

theorem execLock_erase (s : State) {mk : Nat} (hk : 0x1000cb684fa04 &&& mk = 0x1000cb684fa04) (tx : State) (ex : (execLock s) = .next tx) : tx.erase mk = s.erase mk := by
  unfold execLock done at ex
  injection ex with ex
  subst ex
  repeat' (first | with_reducible rfl | with_reducible refine erase_ite ?_ ?_ | simp (disch := exact sub_trans rfl hk) only [↓endUnlock_erase, ↓State.secStatus_erase, apply_ite (State.erase mk), ite_self] | (refine (erase_foldl (fun t a => ?_) _ _).trans ?_) | (refine (erase_foldl1 (fun t a => ?_) _ _).trans ?_) | split)

theorem execUnlockExpiry_erase (s : State) {mk : Nat} (hk : 0x1000cb684fe04 &&& mk = 0x1000cb684fe04) (tx : State) (ex : (execUnlockExpiry s) = .next tx) : tx.erase mk = s.erase mk := by
  unfold execUnlockExpiry done at ex
  injection ex with ex
  subst ex
  repeat' (first | with_reducible rfl | with_reducible refine erase_ite ?_ ?_ | simp (disch := exact sub_trans rfl hk) only [↓endUnlock_erase, ↓State.atElapsed_erase, apply_ite (State.erase mk), ite_self] | (refine (erase_foldl (fun t a => ?_) _ _).trans ?_) | (refine (erase_foldl1 (fun t a => ?_) _ _).trans ?_) | split)

theorem execChallengeExpiry_erase (s : State) {mk : Nat} (hk : 0x400000400 &&& mk = 0x400000400) (tx : State) (ex : (execChallengeExpiry s) = .next tx) : tx.erase mk = s.erase mk := by
  unfold execChallengeExpiry done at ex
  injection ex with ex
  subst ex
  repeat' (first | with_reducible rfl | with_reducible refine erase_ite ?_ ?_ | simp (disch := exact sub_trans rfl hk) only [↓State.atElapsed_erase, ↓put_sec, apply_ite (State.erase mk), ite_self] | (refine (erase_foldl (fun t a => ?_) _ _).trans ?_) | (refine (erase_foldl1 (fun t a => ?_) _ _).trans ?_) | split)

theorem setLifecycle_erase (s : State) (lifecycle : ℕ) {mk : Nat} (hk : 0x800000814 &&& mk = 0x800000814) : ((setLifecycle s lifecycle)).erase mk = s.erase mk := by
  unfold setLifecycle
  repeat' (first | with_reducible rfl | with_reducible refine erase_ite ?_ ?_ | simp (disch := exact sub_trans rfl hk) only [↓checkAccess_erase, ↓State.secRecord_erase, ↓put_fuses, apply_ite (State.erase mk), ite_self] | (refine (erase_foldl (fun t a => ?_) _ _).trans ?_) | (refine (erase_foldl1 (fun t a => ?_) _ _).trans ?_) | split)

theorem programKey_erase (s : State) (burnOk : Bool) {mk : Nat} (hk : 0x1000400000a10 &&& mk = 0x1000400000a10) : ((programKey s burnOk)).erase mk = s.erase mk := by
  unfold programKey
  repeat' (first | with_reducible rfl | with_reducible refine erase_ite ?_ ?_ | simp (disch := exact sub_trans rfl hk) only [↓secReject_erase, ↓State.secRecord_erase, ↓State.secStatus_erase, ↓put_fuses_free, apply_ite (State.erase mk), ite_self] | (refine (erase_foldl (fun t a => ?_) _ _).trans ?_) | (refine (erase_foldl1 (fun t a => ?_) _ _).trans ?_) | split)

theorem execProgramKey_erase (burnOk : Bool) (s : State) {mk : Nat} (hk : 0x1000400000a10 &&& mk = 0x1000400000a10) (tx : State) (ex : (execProgramKey burnOk s) = .next tx) : tx.erase mk = s.erase mk := by
  unfold execProgramKey done at ex
  injection ex with ex
  subst ex
  repeat' (first | with_reducible rfl | with_reducible refine erase_ite ?_ ?_ | simp (disch := exact sub_trans rfl hk) only [↓programKey_erase, apply_ite (State.erase mk), ite_self] | (refine (erase_foldl (fun t a => ?_) _ _).trans ?_) | (refine (erase_foldl1 (fun t a => ?_) _ _).trans ?_) | split)

theorem execDeploy_erase (s : State) {mk : Nat} (hk : 0xc00000a14 &&& mk = 0xc00000a14) (tx : State) (ex : (execDeploy s) = .next tx) : tx.erase mk = s.erase mk := by
  unfold execDeploy done at ex
  injection ex with ex
  subst ex
  repeat' (first | with_reducible rfl | with_reducible refine erase_ite ?_ ?_ | simp (disch := exact sub_trans rfl hk) only [↓secReject_erase, ↓setLifecycle_erase, ↓State.secStatus_erase, apply_ite (State.erase mk), ite_self] | (refine (erase_foldl (fun t a => ?_) _ _).trans ?_) | (refine (erase_foldl1 (fun t a => ?_) _ _).trans ?_) | split)

theorem execReturnDevice_erase (s : State) {mk : Nat} (hk : 0xc00000a14 &&& mk = 0xc00000a14) (tx : State) (ex : (execReturnDevice s) = .next tx) : tx.erase mk = s.erase mk := by
  unfold execReturnDevice done at ex
  injection ex with ex
  subst ex
  repeat' (first | with_reducible rfl | with_reducible refine erase_ite ?_ ?_ | simp (disch := exact sub_trans rfl hk) only [↓secReject_erase, ↓setLifecycle_erase, ↓State.secStatus_erase, ↓put_fuses_sec, apply_ite (State.erase mk), ite_self] | (refine (erase_foldl (fun t a => ?_) _ _).trans ?_) | (refine (erase_foldl1 (fun t a => ?_) _ _).trans ?_) | split)

theorem execProvisioning_erase (skSeed : ℕ) (skPrf : ℕ) (pubSeed : ℕ) (root : ℕ) (certificate : List Byte) (s : State) {mk : Nat} (hk : 0xc00000a14 &&& mk = 0xc00000a14) (tx : State) (ex : (execProvisioning skSeed skPrf pubSeed root certificate s) = .next tx) : tx.erase mk = s.erase mk := by
  unfold execProvisioning done at ex
  injection ex with ex
  subst ex
  repeat' (first | with_reducible rfl | with_reducible refine erase_ite ?_ ?_ | simp (disch := exact sub_trans rfl hk) only [↓secReject_erase, ↓setLifecycle_erase, ↓put_fuses_sec, apply_ite (State.erase mk), ite_self] | (refine (erase_foldl (fun t a => ?_) _ _).trans ?_) | (refine (erase_foldl1 (fun t a => ?_) _ _).trans ?_) | split)

theorem openSpan_erase (s : State) {mk : Nat} (hk : 0x400000830 &&& mk = 0x400000830) : ((openSpan s)).erase mk = s.erase mk := by
  unfold openSpan
  repeat' (first | with_reducible rfl | with_reducible refine erase_ite ?_ ?_ | simp (disch := exact sub_trans rfl hk) only [↓State.secRecord_erase, ↓put_fuses_flash_sec, apply_ite (State.erase mk), ite_self] | (refine (erase_foldl (fun t a => ?_) _ _).trans ?_) | (refine (erase_foldl1 (fun t a => ?_) _ _).trans ?_) | split)

theorem execBottomTreeReady_erase (s : State) {mk : Nat} (hk : 0x400000000 &&& mk = 0x400000000) (tx : State) (ex : (execBottomTreeReady s) = .next tx) : tx.erase mk = s.erase mk := by
  unfold execBottomTreeReady done at ex
  injection ex with ex
  subst ex
  repeat' (first | with_reducible rfl | with_reducible refine erase_ite ?_ ?_ | simp (disch := exact sub_trans rfl hk) only [↓put_sec, apply_ite (State.erase mk), ite_self] | (refine (erase_foldl (fun t a => ?_) _ _).trans ?_) | (refine (erase_foldl1 (fun t a => ?_) _ _).trans ?_) | split)

theorem attest_erase (s : State) {mk : Nat} (hk : 0x400000a30 &&& mk = 0x400000a30) : ((attest s)).erase mk = s.erase mk := by
  unfold attest
  repeat' (first | with_reducible rfl | with_reducible refine erase_ite ?_ ?_ | simp (disch := exact sub_trans rfl hk) only [↓secReject_erase, ↓State.secStatus_erase, ↓openSpan_erase, ↓put_fuses_sec, apply_ite (State.erase mk), ite_self] | (refine (erase_foldl (fun t a => ?_) _ _).trans ?_) | (refine (erase_foldl1 (fun t a => ?_) _ _).trans ?_) | split)

theorem execAttest_erase (s : State) {mk : Nat} (hk : 0x400000a30 &&& mk = 0x400000a30) (tx : State) (ex : (execAttest s) = .next tx) : tx.erase mk = s.erase mk := by
  unfold execAttest done at ex
  injection ex with ex
  subst ex
  repeat' (first | with_reducible rfl | with_reducible refine erase_ite ?_ ?_ | simp (disch := exact sub_trans rfl hk) only [↓attest_erase, apply_ite (State.erase mk), ite_self] | (refine (erase_foldl (fun t a => ?_) _ _).trans ?_) | (refine (erase_foldl1 (fun t a => ?_) _ _).trans ?_) | split)

theorem useIndex_erase (s : State) {mk : Nat} (hk : 0x400000020 &&& mk = 0x400000020) : ((useIndex s)).erase mk = s.erase mk := by
  unfold useIndex
  repeat' (first | with_reducible rfl | with_reducible refine erase_ite ?_ ?_ | simp (disch := exact sub_trans rfl hk) only [↓put_flash_sec, apply_ite (State.erase mk), ite_self] | (refine (erase_foldl (fun t a => ?_) _ _).trans ?_) | (refine (erase_foldl1 (fun t a => ?_) _ _).trans ?_) | split)

theorem attestComplete_erase (s : State) (signature : List Byte) {mk : Nat} (hk : 0x1000400000020 &&& mk = 0x1000400000020) : ((attestComplete s signature)).erase mk = s.erase mk := by
  unfold attestComplete
  repeat' (first | with_reducible rfl | with_reducible refine erase_ite ?_ ?_ | simp (disch := exact sub_trans rfl hk) only [↓useIndex_erase, ↓put_sec_free, apply_ite (State.erase mk), ite_self] | (refine (erase_foldl (fun t a => ?_) _ _).trans ?_) | (refine (erase_foldl1 (fun t a => ?_) _ _).trans ?_) | split)

theorem execAttestComplete_erase (signature : List Byte) (s : State) {mk : Nat} (hk : 0x1000400000020 &&& mk = 0x1000400000020) (tx : State) (ex : (execAttestComplete signature s) = .next tx) : tx.erase mk = s.erase mk := by
  unfold execAttestComplete done at ex
  injection ex with ex
  subst ex
  repeat' (first | with_reducible rfl | with_reducible refine erase_ite ?_ ?_ | simp (disch := exact sub_trans rfl hk) only [↓attestComplete_erase, apply_ite (State.erase mk), ite_self] | (refine (erase_foldl (fun t a => ?_) _ _).trans ?_) | (refine (erase_foldl1 (fun t a => ?_) _ _).trans ?_) | split)

theorem directoryWritten_erase (s : State) (slot : ℕ) {mk : Nat} (hk : 0x220 &&& mk = 0x220) : ((directoryWritten s slot)).erase mk = s.erase mk := by
  unfold directoryWritten
  repeat' (first | with_reducible rfl | with_reducible refine erase_ite ?_ ?_ | simp (disch := exact sub_trans rfl hk) only [↓rewriteDirectory_erase, ↓put_stl, apply_ite (State.erase mk), ite_self] | (refine (erase_foldl (fun t a => ?_) _ _).trans ?_) | (refine (erase_foldl1 (fun t a => ?_) _ _).trans ?_) | split)

theorem overlayCleared_erase (s : State) {mk : Nat} (hk : 0x800000a32 &&& mk = 0x800000a32) : ((overlayCleared s)).erase mk = s.erase mk := by
  unfold overlayCleared
  repeat' (first | with_reducible rfl | with_reducible refine erase_ite ?_ ?_ | simp (disch := exact sub_trans rfl hk) only [↓endUpdate_erase, ↓put_flash, apply_ite (State.erase mk), ite_self] | (refine (erase_foldl (fun t a => ?_) _ _).trans ?_) | (refine (erase_foldl1 (fun t a => ?_) _ _).trans ?_) | split)

theorem applyWrite_erase (s : State) (y1 : FlashWrite) {mk : Nat} (hk : 0x808000a32 &&& mk = 0x808000a32) : ((applyWrite s y1)).erase mk = s.erase mk := by
  unfold applyWrite
  repeat' (first | with_reducible rfl | with_reducible refine erase_ite ?_ ?_ | simp (disch := exact sub_trans rfl hk) only [↓directoryWritten_erase, ↓overlayCleared_erase, ↓State.adpRecord_erase, ↓put_flash_adapt, apply_ite (State.erase mk), ite_self] | (refine (erase_foldl (fun t a => ?_) _ _).trans ?_) | (refine (erase_foldl1 (fun t a => ?_) _ _).trans ?_) | split)

theorem execFlashWriteComplete_erase (s : State) {mk : Nat} (hk : 0x808000a32 &&& mk = 0x808000a32) (tx : State) (ex : (execFlashWriteComplete s) = .next tx) : tx.erase mk = s.erase mk := by
  unfold execFlashWriteComplete done at ex
  injection ex with ex
  subst ex
  repeat' (first | with_reducible rfl | with_reducible refine erase_ite ?_ ?_ | simp (disch := exact sub_trans rfl hk) only [↓applyWrite_erase, ↓put_flash, apply_ite (State.erase mk), ite_self] | (refine (erase_foldl (fun t a => ?_) _ _).trans ?_) | (refine (erase_foldl1 (fun t a => ?_) _ _).trans ?_) | split)

end Sys2Proof.Machine
end

