-- ==== Sys2Proof/Laws/Frames5.lean ====
section
/-! SUPPORT. What each operation may write, as masks of parts (see Laws/Frame.lean): part 5, in the order of the model. -/

set_option linter.all false

namespace Sys2Proof.Machine
open State

theorem resetState_erase (s : State) {mk : Nat} (hk : 0xffffffffffaf &&& mk = 0xffffffffffaf) : (resetState s).erase mk = s.erase mk := by
  simp only [State.erase, resetState, sub_bit hk 0 (by decide), sub_bit hk 1 (by decide), sub_bit hk 2 (by decide), sub_bit hk 3 (by decide), sub_bit hk 5 (by decide), sub_bit hk 7 (by decide), sub_bit hk 8 (by decide), sub_bit hk 9 (by decide), sub_bit hk 10 (by decide), sub_bit hk 11 (by decide), sub_bit hk 12 (by decide), sub_bit hk 13 (by decide), sub_bit hk 14 (by decide), sub_bit hk 15 (by decide), sub_bit hk 16 (by decide), sub_bit hk 17 (by decide), sub_bit hk 18 (by decide), sub_bit hk 19 (by decide), sub_bit hk 20 (by decide), sub_bit hk 21 (by decide), sub_bit hk 22 (by decide), sub_bit hk 23 (by decide), sub_bit hk 24 (by decide), sub_bit hk 25 (by decide), sub_bit hk 26 (by decide), sub_bit hk 27 (by decide), sub_bit hk 28 (by decide), sub_bit hk 29 (by decide), sub_bit hk 30 (by decide), sub_bit hk 31 (by decide), sub_bit hk 32 (by decide), sub_bit hk 33 (by decide), sub_bit hk 34 (by decide), sub_bit hk 35 (by decide), sub_bit hk 36 (by decide), sub_bit hk 37 (by decide), sub_bit hk 38 (by decide), sub_bit hk 39 (by decide), sub_bit hk 40 (by decide), sub_bit hk 41 (by decide), sub_bit hk 42 (by decide), sub_bit hk 43 (by decide), sub_bit hk 44 (by decide), sub_bit hk 45 (by decide), sub_bit hk 46 (by decide), sub_bit hk 47 (by decide), if_true]

theorem execResetAssert_erase (width : ℕ) (s : State) {mk : Nat} (hk : 0x1ffffffffffaf &&& mk = 0x1ffffffffffaf) (tx : State) (ex : (execResetAssert width s) = .next tx) : tx.erase mk = s.erase mk := by
  unfold execResetAssert done at ex
  injection ex with ex
  subst ex
  repeat' (first | with_reducible rfl | with_reducible refine erase_ite ?_ ?_ | simp (disch := exact sub_trans rfl hk) only [↓resetState_erase, ↓State.nextFree_erase, ↓put_pins, apply_ite (State.erase mk), ite_self] | (refine (erase_foldl (fun t a => ?_) _ _).trans ?_) | (refine (erase_foldl1 (fun t a => ?_) _ _).trans ?_) | split)

theorem execPwrgoodFall_erase (s : State) {mk : Nat} (hk : 0xffffffffffaf &&& mk = 0xffffffffffaf) (tx : State) (ex : (execPwrgoodFall s) = .next tx) : tx.erase mk = s.erase mk := by
  unfold execPwrgoodFall done at ex
  injection ex with ex
  subst ex
  repeat' (first | with_reducible rfl | with_reducible refine erase_ite ?_ ?_ | simp (disch := exact sub_trans rfl hk) only [↓resetState_erase, ↓put_pins, apply_ite (State.erase mk), ite_self] | (refine (erase_foldl (fun t a => ?_) _ _).trans ?_) | (refine (erase_foldl1 (fun t a => ?_) _ _).trans ?_) | split)

theorem bootBegin_erase (s : State) {mk : Nat} (hk : 0x10800000803 &&& mk = 0x10800000803) : ((bootBegin s)).erase mk = s.erase mk := by
  unfold bootBegin
  repeat' (first | with_reducible rfl | with_reducible refine erase_ite ?_ ?_ | simp (disch := exact sub_trans rfl hk) only [↓put_phase_boot_journal_dbg_passbook, apply_ite (State.erase mk), ite_self] | (refine (erase_foldl (fun t a => ?_) _ _).trans ?_) | (refine (erase_foldl1 (fun t a => ?_) _ _).trans ?_) | split)

theorem execBootStart_erase (straps : List (Option Bool)) (s : State) {mk : Nat} (hk : 0x1010800000807 &&& mk = 0x1010800000807) (tx : State) (ex : (execBootStart straps s) = .next tx) : tx.erase mk = s.erase mk := by
  unfold execBootStart done at ex
  injection ex with ex
  subst ex
  repeat' (first | with_reducible rfl | with_reducible refine erase_ite ?_ ?_ | simp (disch := exact sub_trans rfl hk) only [↓bootBegin_erase, ↓put_pins_free, apply_ite (State.erase mk), ite_self] | (refine (erase_foldl (fun t a => ?_) _ _).trans ?_) | (refine (erase_foldl1 (fun t a => ?_) _ _).trans ?_) | split)

theorem readLayout_erase (s : State) {mk : Nat} (hk : 0x2 &&& mk = 0x2) : ((readLayout s)).erase mk = s.erase mk := by
  unfold readLayout
  repeat' (first | with_reducible rfl | with_reducible refine erase_ite ?_ ?_ | simp (disch := exact sub_trans rfl hk) only [↓put_boot, apply_ite (State.erase mk), ite_self] | (refine (erase_foldl (fun t a => ?_) _ _).trans ?_) | (refine (erase_foldl1 (fun t a => ?_) _ _).trans ?_) | split)

theorem execDirectoryReadComplete_erase (s : State) {mk : Nat} (hk : 0x2 &&& mk = 0x2) (tx : State) (ex : (execDirectoryReadComplete s) = .next tx) : tx.erase mk = s.erase mk := by
  unfold execDirectoryReadComplete done at ex
  injection ex with ex
  subst ex
  repeat' (first | with_reducible rfl | with_reducible refine erase_ite ?_ ?_ | simp (disch := exact sub_trans rfl hk) only [↓readLayout_erase, apply_ite (State.erase mk), ite_self] | (refine (erase_foldl (fun t a => ?_) _ _).trans ?_) | (refine (erase_foldl1 (fun t a => ?_) _ _).trans ?_) | split)

theorem dramTrained_erase (s : State) (ok0 : Bool) (ok1 : Bool) {mk : Nat} (hk : 0x1042cf4e47a27 &&& mk = 0x1042cf4e47a27) : ((dramTrained s ok0 ok1)).erase mk = s.erase mk := by
  unfold dramTrained
  repeat' (first | with_reducible rfl | with_reducible refine erase_ite ?_ ?_ | simp (disch := exact sub_trans rfl hk) only [↓State.modDram_erase, ↓chipFatal_erase, ↓put_boot, apply_ite (State.erase mk), ite_self] | (refine (erase_foldl (fun t a => ?_) _ _).trans ?_) | (refine (erase_foldl1 (fun t a => ?_) _ _).trans ?_) | split)

theorem execDramTrainingComplete_erase (ok0 : Bool) (ok1 : Bool) (s : State) {mk : Nat} (hk : 0x1042cf4e47a27 &&& mk = 0x1042cf4e47a27) (tx : State) (ex : (execDramTrainingComplete ok0 ok1 s) = .next tx) : tx.erase mk = s.erase mk := by
  unfold execDramTrainingComplete done at ex
  injection ex with ex
  subst ex
  repeat' (first | with_reducible rfl | with_reducible refine erase_ite ?_ ?_ | simp (disch := exact sub_trans rfl hk) only [↓dramTrained_erase, apply_ite (State.erase mk), ite_self] | (refine (erase_foldl (fun t a => ?_) _ _).trans ?_) | (refine (erase_foldl1 (fun t a => ?_) _ _).trans ?_) | split)

theorem setSlot_erase (s : State) (slot : ℕ) (st : ℕ) {mk : Nat} (hk : 0x2 &&& mk = 0x2) : ((setSlot s slot st)).erase mk = s.erase mk := by
  unfold setSlot
  repeat' (first | with_reducible rfl | with_reducible refine erase_ite ?_ ?_ | simp (disch := exact sub_trans rfl hk) only [↓put_boot, apply_ite (State.erase mk), ite_self] | (refine (erase_foldl (fun t a => ?_) _ _).trans ?_) | (refine (erase_foldl1 (fun t a => ?_) _ _).trans ?_) | split)

theorem enterQuiet_erase (s : State) {mk : Nat} (hk : 0xa0000807 &&& mk = 0xa0000807) : ((enterQuiet s)).erase mk = s.erase mk := by
  unfold enterQuiet
  repeat' (first | with_reducible rfl | with_reducible refine erase_ite ?_ ?_ | simp (disch := exact sub_trans rfl hk) only [↓settleChannels_erase, ↓put_phase_boot_pins, apply_ite (State.erase mk), ite_self] | (refine (erase_foldl (fun t a => ?_) _ _).trans ?_) | (refine (erase_foldl1 (fun t a => ?_) _ _).trans ?_) | split)

theorem slotFailed_erase (s : State) (st : ℕ) {mk : Nat} (hk : 0xa0000807 &&& mk = 0xa0000807) : ((slotFailed s st)).erase mk = s.erase mk := by
  unfold slotFailed
  repeat' (first | with_reducible rfl | with_reducible refine erase_ite ?_ ?_ | simp (disch := exact sub_trans rfl hk) only [↓setSlot_erase, ↓enterQuiet_erase, ↓put_boot, apply_ite (State.erase mk), ite_self] | (refine (erase_foldl (fun t a => ?_) _ _).trans ?_) | (refine (erase_foldl1 (fun t a => ?_) _ _).trans ?_) | split)

theorem readImage_erase (s : State) (slot : ℕ) {mk : Nat} (hk : 0x60000000000 &&& mk = 0x60000000000) : ((readImage s slot)).erase mk = s.erase mk := by
  unfold readImage
  repeat' (first | with_reducible rfl | with_reducible refine erase_ite ?_ ?_ | simp (disch := exact sub_trans rfl hk) only [↓State.store_erase, apply_ite (State.erase mk), ite_self] | (refine (erase_foldl (fun t a => ?_) _ _).trans ?_) | (refine (erase_foldl1 (fun t a => ?_) _ _).trans ?_) | split)

theorem execSlotReadComplete_erase (s : State) {mk : Nat} (hk : 0x600a0000807 &&& mk = 0x600a0000807) (tx : State) (ex : (execSlotReadComplete s) = .next tx) : tx.erase mk = s.erase mk := by
  unfold execSlotReadComplete done at ex
  injection ex with ex
  subst ex
  repeat' (first | with_reducible rfl | with_reducible refine erase_ite ?_ ?_ | simp (disch := exact sub_trans rfl hk) only [↓readImage_erase, ↓setSlot_erase, ↓slotFailed_erase, ↓put_boot, apply_ite (State.erase mk), ite_self] | (refine (erase_foldl (fun t a => ?_) _ _).trans ?_) | (refine (erase_foldl1 (fun t a => ?_) _ _).trans ?_) | split)

theorem loadTables_erase (s : State) (x : Slot) {mk : Nat} (hk : 0x60000000000 &&& mk = 0x60000000000) : ((loadTables s x)).erase mk = s.erase mk := by
  unfold loadTables
  repeat' (first | with_reducible rfl | with_reducible refine erase_ite ?_ ?_ | simp (disch := exact sub_trans rfl hk) only [↓loadSection_erase, ↓State.store_erase, apply_ite (State.erase mk), ite_self] | (refine (erase_foldl (fun t a => ?_) _ _).trans ?_) | (refine (erase_foldl1 (fun t a => ?_) _ _).trans ?_) | split)

theorem execFirmwareStarted_erase (s : State) {mk : Nat} (hk : 0x60000200002 &&& mk = 0x60000200002) (tx : State) (ex : (execFirmwareStarted s) = .next tx) : tx.erase mk = s.erase mk := by
  unfold execFirmwareStarted done at ex
  injection ex with ex
  subst ex
  repeat' (first | with_reducible rfl | with_reducible refine erase_ite ?_ ?_ | simp (disch := exact sub_trans rfl hk) only [↓loadTables_erase, ↓State.modRegion_erase, ↓put_boot, apply_ite (State.erase mk), ite_self] | (refine (erase_foldl (fun t a => ?_) _ _).trans ?_) | (refine (erase_foldl1 (fun t a => ?_) _ _).trans ?_) | split)

theorem assignEngines_erase (s : State) (results : List AssayResult) {mk : Nat} (hk : 0x10008b8242a26 &&& mk = 0x10008b8242a26) : ((assignEngines s results)).erase mk = s.erase mk := by
  unfold assignEngines
  repeat' (first | with_reducible rfl | with_reducible refine erase_ite ?_ ?_ | simp (disch := exact sub_trans rfl hk) only [↓State.modEngine_erase, ↓fenceEngine_erase, ↓State.modDec_erase, ↓State.modRegion_erase, ↓markDegraded_erase, ↓put_boot_flt_free, apply_ite (State.erase mk), ite_self] | (refine (erase_foldl (fun t a => ?_) _ _).trans ?_) | (refine (erase_foldl1 (fun t a => ?_) _ _).trans ?_) | split)

theorem loadOverlay_erase (s : State) {mk : Nat} (hk : 0x60000000000 &&& mk = 0x60000000000) : ((loadOverlay s)).erase mk = s.erase mk := by
  unfold loadOverlay
  repeat' (first | with_reducible rfl | with_reducible refine erase_ite ?_ ?_ | simp (disch := exact sub_trans rfl hk) only [↓State.store_erase, apply_ite (State.erase mk), ite_self] | (refine (erase_foldl (fun t a => ?_) _ _).trans ?_) | (refine (erase_foldl1 (fun t a => ?_) _ _).trans ?_) | split)

theorem initialCfg_erase (s1 : State) (x : Slot) (base : Cfg) {mk : Nat} (hk : 0x60000000822 &&& mk = 0x60000000822) : (initialCfg s1 x base).1.erase mk = s1.erase mk := by
  unfold initialCfg
  repeat' (first | with_reducible rfl | with_reducible refine erase_ite ?_ ?_ | simp (disch := exact sub_trans rfl hk) only [↓State.emit_erase, ↓loadOverlay_erase, ↓put_boot_flash, apply_ite (State.erase mk), ite_self] | (refine (erase_foldl (fun t a => ?_) _ _).trans ?_) | (refine (erase_foldl1 (fun t a => ?_) _ _).trans ?_) | split)

theorem bootRecord_erase (s : State) {mk : Nat} (hk : 0x800 &&& mk = 0x800) : ((bootRecord s)).erase mk = s.erase mk := by
  unfold bootRecord
  repeat' (first | with_reducible rfl | with_reducible refine erase_ite ?_ ?_ | simp (disch := exact sub_trans rfl hk) only [↓State.emit_erase, apply_ite (State.erase mk), ite_self] | (refine (erase_foldl (fun t a => ?_) _ _).trans ?_) | (refine (erase_foldl1 (fun t a => ?_) _ _).trans ?_) | split)

theorem startRunning_erase (s : State) (x : Slot) (base : Cfg) {mk : Nat} (hk : 0x608a8001af7 &&& mk = 0x608a8001af7) : ((startRunning s x base)).erase mk = s.erase mk := by
  unfold startRunning
  repeat' (first | with_reducible rfl | with_reducible refine erase_ite ?_ ?_ | simp (disch := exact sub_trans rfl hk) only [↓initialCfg_erase, ↓runSlot_erase, ↓bootRecord_erase, ↓startStream_erase, ↓settleChannels_erase, ↓enterStart_erase, ↓setDDec_erase, ↓readoptHeads_erase, ↓put_phase_boot_pins_layout_cfg_adapt_saf, apply_ite (State.erase mk), ite_self] | (refine (erase_foldl (fun t a => ?_) _ _).trans ?_) | (refine (erase_foldl1 (fun t a => ?_) _ _).trans ?_) | split)

theorem bootAssay_erase (s : State) (results : List AssayResult) {mk : Nat} (hk : 0x10608b8243af7 &&& mk = 0x10608b8243af7) :
    (bootAssay s results).erase mk = s.erase mk := by
  unfold bootAssay
  extract_lets s1 x base
  refine Eq.trans ?_ (assignEngines_erase s results (sub_trans rfl hk))
  split
  · exact slotFailed_erase _ _ (sub_trans rfl hk)
  · exact startRunning_erase _ _ _ (sub_trans rfl hk)

theorem execBootAssayComplete_erase (results : List AssayResult) (s : State) {mk : Nat} (hk : 0x10608b8243af7 &&& mk = 0x10608b8243af7) (tx : State) (ex : (execBootAssayComplete results s) = .next tx) : tx.erase mk = s.erase mk := by
  unfold execBootAssayComplete done at ex
  injection ex with ex
  subst ex
  repeat' (first | with_reducible rfl | with_reducible refine erase_ite ?_ ?_ | simp (disch := exact sub_trans rfl hk) only [↓bootAssay_erase, apply_ite (State.erase mk), ite_self] | (refine (erase_foldl (fun t a => ?_) _ _).trans ?_) | (refine (erase_foldl1 (fun t a => ?_) _ _).trans ?_) | split)

theorem execAdoptionHoldExpiry_erase (burnOk : Bool) (s : State) {mk : Nat} (hk : 0xc12 &&& mk = 0xc12) (tx : State) (ex : (execAdoptionHoldExpiry burnOk s) = .next tx) : tx.erase mk = s.erase mk := by
  unfold execAdoptionHoldExpiry done at ex
  injection ex with ex
  subst ex
  repeat' (first | with_reducible rfl | with_reducible refine erase_ite ?_ ?_ | simp (disch := exact sub_trans rfl hk) only [↓raiseCounters_erase, ↓State.atStation_erase, ↓put_boot, apply_ite (State.erase mk), ite_self] | (refine (erase_foldl (fun t a => ?_) _ _).trans ?_) | (refine (erase_foldl1 (fun t a => ?_) _ _).trans ?_) | split)

theorem rebootCommand_erase (page : Src) (slot : ℕ) (s : State) {mk : Nat} (hk : 0x800000202 &&& mk = 0x800000202) : ((rebootCommand page slot s)).erase mk = s.erase mk := by
  unfold rebootCommand
  repeat' (first | with_reducible rfl | with_reducible refine erase_ite ?_ ?_ | simp (disch := exact sub_trans rfl hk) only [↓State.pageDone_erase, ↓State.stlReject_erase, ↓put_boot, apply_ite (State.erase mk), ite_self] | (refine (erase_foldl (fun t a => ?_) _ _).trans ?_) | (refine (erase_foldl1 (fun t a => ?_) _ _).trans ?_) | split)

theorem execReboot_erase (page : Src) (via : Src) (slot : ℕ) (s : State) {mk : Nat} (hk : 0x800000202 &&& mk = 0x800000202) (tx : State) (ex : (execReboot page via slot s) = .next tx) : tx.erase mk = s.erase mk := by
  unfold execReboot done at ex
  injection ex with ex
  subst ex
  repeat' (first | refine stlCommand_erase _ _ _ _ _ (sub_trans rfl hk) (fun t => ?_) | with_reducible rfl | with_reducible refine erase_ite ?_ ?_ | simp (disch := exact sub_trans rfl hk) only [↓rebootCommand_erase, apply_ite (State.erase mk), ite_self] | (refine (erase_foldl (fun t a => ?_) _ _).trans ?_) | (refine (erase_foldl1 (fun t a => ?_) _ _).trans ?_) | split)

theorem execRebootReset_erase (s : State) {mk : Nat} (hk : 0xffffffffffaf &&& mk = 0xffffffffffaf) (tx : State) (ex : (execRebootReset s) = .next tx) : tx.erase mk = s.erase mk := by
  unfold execRebootReset done at ex
  injection ex with ex
  subst ex
  repeat' (first | with_reducible rfl | with_reducible refine erase_ite ?_ ?_ | simp (disch := exact sub_trans rfl hk) only [↓resetState_erase, ↓bootBegin_erase, ↓put_boot, apply_ite (State.erase mk), ite_self] | (refine (erase_foldl (fun t a => ?_) _ _).trans ?_) | (refine (erase_foldl1 (fun t a => ?_) _ _).trans ?_) | split)

theorem writePicture_erase (s : State) (sp : SeqParams) (hidden : List ℕ) (p : Picture) {mk : Nat} (hk : 0x60000000000 &&& mk = 0x60000000000) : ((writePicture s sp hidden p)).erase mk = s.erase mk := by
  unfold writePicture
  repeat' (first | with_reducible rfl | with_reducible refine erase_ite ?_ ?_ | simp (disch := exact sub_trans rfl hk) only [↓State.store_erase, apply_ite (State.erase mk), ite_self] | (refine (erase_foldl (fun t a => ?_) _ _).trans ?_) | (refine (erase_foldl1 (fun t a => ?_) _ _).trans ?_) | split)

theorem decStreamRecord_erase (s : State) (type : ℕ) (inst : ℕ) (n : ℕ) (u : AccessUnit) (cls : Option ErrClass) (status : ℕ) (width : ℕ) (height : ℕ) (count : ℕ) {mk : Nat} (hk : 0x800 &&& mk = 0x800) : ((decStreamRecord s type inst n u cls status width height count)).erase mk = s.erase mk := by
  unfold decStreamRecord
  repeat' (first | with_reducible rfl | with_reducible refine erase_ite ?_ ?_ | simp (disch := exact sub_trans rfl hk) only [↓State.streamRecord_erase, apply_ite (State.erase mk), ite_self] | (refine (erase_foldl (fun t a => ?_) _ _).trans ?_) | (refine (erase_foldl1 (fun t a => ?_) _ _).trans ?_) | split)

theorem resumeRecords_erase (s : State) (n : ℕ) (u : AccessUnit) (p : SeqParams) {mk : Nat} (hk : 0x1800 &&& mk = 0x1800) : ((resumeRecords s n u p)).erase mk = s.erase mk := by
  unfold resumeRecords
  repeat' (first | with_reducible rfl | with_reducible refine erase_ite ?_ ?_ | simp (disch := exact sub_trans rfl hk) only [↓decStreamRecord_erase, ↓State.modStream_erase, apply_ite (State.erase mk), ite_self] | (refine (erase_foldl (fun t a => ?_) _ _).trans ?_) | (refine (erase_foldl1 (fun t a => ?_) _ _).trans ?_) | split)

theorem runRecord_erase (s : State) (concealRun : Bool) (r : Rec) {mk : Nat} (hk : 0x1800 &&& mk = 0x1800) : ((runRecord s concealRun r)).erase mk = s.erase mk := by
  unfold runRecord
  repeat' (first | with_reducible rfl | with_reducible refine erase_ite ?_ ?_ | simp (disch := exact sub_trans rfl hk) only [↓State.setStream_erase, ↓State.emit_erase, apply_ite (State.erase mk), ite_self] | (refine (erase_foldl (fun t a => ?_) _ _).trans ?_) | (refine (erase_foldl1 (fun t a => ?_) _ _).trans ?_) | split)

theorem openWait_erase (s : State) (d : ℕ) (n : ℕ) (u : AccessUnit) (c : ErrClass) (width : ℕ) (height : ℕ) {mk : Nat} (hk : 0x1800 &&& mk = 0x1800) : ((openWait s d n u c width height)).erase mk = s.erase mk := by
  unfold openWait
  repeat' (first | with_reducible rfl | with_reducible refine erase_ite ?_ ?_ | simp (disch := exact sub_trans rfl hk) only [↓State.setStream_erase, ↓decStreamRecord_erase, apply_ite (State.erase mk), ite_self] | (refine (erase_foldl (fun t a => ?_) _ _).trans ?_) | (refine (erase_foldl1 (fun t a => ?_) _ _).trans ?_) | split)

theorem classRecords_erase (s : State) (d : ℕ) (n : ℕ) (u : AccessUnit) (sp : SeqParams) (cs : List ErrClass) (o : PictureOutcome) (p : Picture) {mk : Nat} (hk : 0x90003804 &&& mk = 0x90003804) : ((classRecords s d n u sp cs o p)).erase mk = s.erase mk := by
  unfold classRecords
  repeat' (first | with_reducible rfl | with_reducible refine erase_ite ?_ ?_ | simp (disch := exact sub_trans rfl hk) only [↓runRecord_erase, ↓openWait_erase, ↓windowViolation_erase, ↓State.emit_erase, ↓State.modDec_erase, apply_ite (State.erase mk), ite_self] | (refine (erase_foldl (fun t a => ?_) _ _).trans ?_) | (refine (erase_foldl1 (fun t a => ?_) _ _).trans ?_) | split)

theorem stopStream_erase (s : State) (n : ℕ) (u : AccessUnit) (c : ErrClass) (sp : Option SeqParams) {mk : Nat} (hk : 0xa5801804 &&& mk = 0xa5801804) : ((stopStream s n u c sp)).erase mk = s.erase mk := by
  unfold stopStream
  repeat' (first | with_reducible rfl | with_reducible refine erase_ite ?_ ?_ | simp (disch := exact sub_trans rfl hk) only [↓decStreamRecord_erase, ↓State.modStream_erase, ↓endClips_erase, ↓closeStreamTracks_erase, ↓occupyStream_erase, apply_ite (State.erase mk), ite_self] | (refine (erase_foldl (fun t a => ?_) _ _).trans ?_) | (refine (erase_foldl1 (fun t a => ?_) _ _).trans ?_) | split)

theorem handOn_erase (s : State) (p : Picture) {mk : Nat} (hk : 0x4005800 &&& mk = 0x4005800) : ((handOn s p)).erase mk = s.erase mk := by
  unfold handOn
  repeat' (first | with_reducible rfl | with_reducible refine erase_ite ?_ ?_ | simp (disch := exact sub_trans rfl hk) only [↓State.modStream_erase, ↓hostAssist_erase, ↓State.modAcct_erase, ↓put_evidence, apply_ite (State.erase mk), ite_self] | (refine (erase_foldl (fun t a => ?_) _ _).trans ?_) | (refine (erase_foldl1 (fun t a => ?_) _ _).trans ?_) | split)

theorem handOnAll_erase (n : ℕ) (y1 : ℕ) (y2 : State) {mk : Nat} (hk : 0x4005800 &&& mk = 0x4005800) : ((handOnAll n y1 y2)).erase mk = y2.erase mk := by
  induction y1 generalizing y2 with
  | zero => rfl
  | succ k ih =>
    unfold handOnAll
    repeat' (first | with_reducible rfl | with_reducible refine erase_ite ?_ ?_ | simp (disch := exact sub_trans rfl hk) only [↓ih, ↓handOn_erase, apply_ite (State.erase mk), ite_self] | (refine (erase_foldl (fun t a => ?_) _ _).trans ?_) | (refine (erase_foldl1 (fun t a => ?_) _ _).trans ?_) | split)

theorem storePicture_erase (s : State) (n : ℕ) (row : StreamRow) (p : Picture) (abandoned : Bool) {mk : Nat} (hk : 0x1000 &&& mk = 0x1000) : ((storePicture s n row p abandoned)).erase mk = s.erase mk := by
  unfold storePicture
  repeat' (first | with_reducible rfl | with_reducible refine erase_ite ?_ ?_ | simp (disch := exact sub_trans rfl hk) only [↓State.setStream_erase, apply_ite (State.erase mk), ite_self] | (refine (erase_foldl (fun t a => ?_) _ _).trans ?_) | (refine (erase_foldl1 (fun t a => ?_) _ _).trans ?_) | split)

theorem decodedPicture_erase (s : State) (d : ℕ) (n : ℕ) (u : AccessUnit) (sp : SeqParams) (cs : List ErrClass) (o : PictureOutcome) {mk : Nat} (hk : 0x1061090003804 &&& mk = 0x1061090003804) : ((decodedPicture s d n u sp cs o)).erase mk = s.erase mk := by
  unfold decodedPicture
  repeat' (first | with_reducible rfl | with_reducible refine erase_ite ?_ ?_ | simp (disch := exact sub_trans rfl hk) only [↓resumeRecords_erase, ↓State.chargeMedia_erase, ↓writePicture_erase, ↓State.nextFree_erase, ↓State.modStream_erase, ↓classRecords_erase, ↓storePicture_erase, apply_ite (State.erase mk), ite_self] | (refine (erase_foldl (fun t a => ?_) _ _).trans ?_) | (refine (erase_foldl1 (fun t a => ?_) _ _).trans ?_) | split)

theorem liveBoundary_erase (s : State) (d : ℕ) (n : ℕ) (u : AccessUnit) (cs : List ErrClass) (o : PictureOutcome) {mk : Nat} (hk : 0x10610b5803804 &&& mk = 0x10610b5803804) : ((liveBoundary s d n u cs o)).erase mk = s.erase mk := by
  unfold liveBoundary
  repeat' (first | with_reducible rfl | with_reducible refine erase_ite ?_ ?_ | simp (disch := exact sub_trans rfl hk) only [↓State.modStream_erase, ↓stopStream_erase, ↓openWait_erase, ↓decodedPicture_erase, apply_ite (State.erase mk), ite_self] | (refine (erase_foldl (fun t a => ?_) _ _).trans ?_) | (refine (erase_foldl1 (fun t a => ?_) _ _).trans ?_) | split)

theorem replayBoundary_erase (s : State) (d : ℕ) (n : ℕ) (ident : ℕ) (u : AccessUnit) (sp : Option SeqParams) (cs : List ErrClass) (hidden : List ℕ) (o : PictureOutcome) {mk : Nat} (hk : 0x94002804 &&& mk = 0x94002804) : ((replayBoundary s d n ident u sp cs hidden o)).erase mk = s.erase mk := by
  unfold replayBoundary
  repeat' (first | with_reducible rfl | with_reducible refine erase_ite ?_ ?_ | simp (disch := exact sub_trans rfl hk) only [↓flushClips_erase, ↓windowViolation_erase, ↓State.modDec_erase, ↓put_evidence, apply_ite (State.erase mk), ite_self] | (refine (erase_foldl (fun t a => ?_) _ _).trans ?_) | (refine (erase_foldl1 (fun t a => ?_) _ _).trans ?_) | split)

theorem pictureBoundary_erase (s : State) (d : ℕ) (n : ℕ) (u : AccessUnit) (o : PictureOutcome) (exhausted : Bool) {mk : Nat} (hk : 0x10618bf807a04 &&& mk = 0x10618bf807a04) : ((pictureBoundary s d n u o exhausted)).erase mk = s.erase mk := by
  unfold pictureBoundary
  repeat' (first | with_reducible rfl | with_reducible refine erase_ite ?_ ?_ | simp (disch := exact sub_trans rfl hk) only [↓State.trace_erase, ↓State.chargeMedia_erase, ↓State.modDec_erase, ↓replayBoundary_erase, ↓liveBoundary_erase, ↓State.modStream_erase, ↓handOnAll_erase, ↓dispatch_erase, ↓decLeave_erase, apply_ite (State.erase mk), ite_self] | (refine (erase_foldl (fun t a => ?_) _ _).trans ?_) | (refine (erase_foldl1 (fun t a => ?_) _ _).trans ?_) | split)

theorem execDecodePictureComplete_erase (d : ℕ) (o : PictureOutcome) (s : State) {mk : Nat} (hk : 0x10618bf807a04 &&& mk = 0x10618bf807a04) (tx : State) (ex : (execDecodePictureComplete d o s) = .next tx) : tx.erase mk = s.erase mk := by
  unfold execDecodePictureComplete done at ex
  injection ex with ex
  subst ex
  repeat' (first | with_reducible rfl | with_reducible refine erase_ite ?_ ?_ | simp (disch := exact sub_trans rfl hk) only [↓pictureBoundary_erase, apply_ite (State.erase mk), ite_self] | (refine (erase_foldl (fun t a => ?_) _ _).trans ?_) | (refine (erase_foldl1 (fun t a => ?_) _ _).trans ?_) | split)

theorem execDecodeBudgetExhausted_erase (d : ℕ) (o : PictureOutcome) (s : State) {mk : Nat} (hk : 0x10618bf807a04 &&& mk = 0x10618bf807a04) (tx : State) (ex : (execDecodeBudgetExhausted d o s) = .next tx) : tx.erase mk = s.erase mk := by
  unfold execDecodeBudgetExhausted done at ex
  injection ex with ex
  subst ex
  repeat' (first | with_reducible rfl | with_reducible refine erase_ite ?_ ?_ | simp (disch := exact sub_trans rfl hk) only [↓pictureBoundary_erase, apply_ite (State.erase mk), ite_self] | (refine (erase_foldl (fun t a => ?_) _ _).trans ?_) | (refine (erase_foldl1 (fun t a => ?_) _ _).trans ?_) | split)

theorem takeDatagram_erase (s : State) (n : ℕ) (p : Rtp) {mk : Nat} (hk : 0x1061aafe03fe4 &&& mk = 0x1061aafe03fe4) : ((takeDatagram s n p)).erase mk = s.erase mk := by
  unfold takeDatagram
  repeat' (first | with_reducible rfl | with_reducible refine erase_ite ?_ ?_ | simp (disch := exact sub_trans rfl hk) only [↓fixEventInstant_erase, ↓dispatch_erase, ↓holdPacket_erase, apply_ite (State.erase mk), ite_self] | (refine (erase_foldl (fun t a => ?_) _ _).trans ?_) | (refine (erase_foldl1 (fun t a => ?_) _ _).trans ?_) | split)

theorem rtpDatagram_erase (s : State) (d : Datagram) {mk : Nat} (hk : 0x1061bafe23fe4 &&& mk = 0x1061bafe23fe4) : ((rtpDatagram s d)).erase mk = s.erase mk := by
  unfold rtpDatagram
  repeat' (first | with_reducible rfl | with_reducible refine erase_ite ?_ ?_ | simp (disch := exact sub_trans rfl hk) only [↓State.modNet_erase, ↓takeDatagram_erase, ↓put_ingUnmatched, apply_ite (State.erase mk), ite_self] | (refine (erase_foldl (fun t a => ?_) _ _).trans ?_) | (refine (erase_foldl1 (fun t a => ?_) _ _).trans ?_) | split)

theorem execRtpDatagram_erase (d : Datagram) (s : State) {mk : Nat} (hk : 0x1061bafe23fe4 &&& mk = 0x1061bafe23fe4) (tx : State) (ex : (execRtpDatagram d s) = .next tx) : tx.erase mk = s.erase mk := by
  unfold execRtpDatagram done at ex
  injection ex with ex
  subst ex
  repeat' (first | with_reducible rfl | with_reducible refine erase_ite ?_ ?_ | simp (disch := exact sub_trans rfl hk) only [↓rtpDatagram_erase, apply_ite (State.erase mk), ite_self] | (refine (erase_foldl (fun t a => ?_) _ _).trans ?_) | (refine (erase_foldl1 (fun t a => ?_) _ _).trans ?_) | split)

theorem holdExpiry_erase (s : State) (n : ℕ) {mk : Nat} (hk : 0x1001806003c00 &&& mk = 0x1001806003c00) : ((holdExpiry s n)).erase mk = s.erase mk := by
  unfold holdExpiry
  repeat' (first | with_reducible rfl | with_reducible refine erase_ite ?_ ?_ | simp (disch := exact sub_trans rfl hk) only [↓dispatch_erase, ↓releaseReady_erase, ↓State.atElapsed_erase, apply_ite (State.erase mk), ite_self] | (refine (erase_foldl (fun t a => ?_) _ _).trans ?_) | (refine (erase_foldl1 (fun t a => ?_) _ _).trans ?_) | split)

theorem execReorderHoldExpiry_erase (n : ℕ) (s : State) {mk : Nat} (hk : 0x1001806003c00 &&& mk = 0x1001806003c00) (tx : State) (ex : (execReorderHoldExpiry n s) = .next tx) : tx.erase mk = s.erase mk := by
  unfold execReorderHoldExpiry done at ex
  injection ex with ex
  subst ex
  repeat' (first | with_reducible rfl | with_reducible refine erase_ite ?_ ?_ | simp (disch := exact sub_trans rfl hk) only [↓holdExpiry_erase, apply_ite (State.erase mk), ite_self] | (refine (erase_foldl (fun t a => ?_) _ _).trans ?_) | (refine (erase_foldl1 (fun t a => ?_) _ _).trans ?_) | split)

theorem completeEntry_erase (s : State) (i : ℕ) (irq : Bool) (status : ℕ) {mk : Nat} (hk : 0x20080000004 &&& mk = 0x20080000004) : ((completeEntry s i irq status)).erase mk = s.erase mk := by
  unfold completeEntry
  repeat' (first | with_reducible rfl | with_reducible refine erase_ite ?_ ?_ | simp (disch := exact sub_trans rfl hk) only [↓State.hostStore_erase, ↓State.raise_erase, ↓put_pci, apply_ite (State.erase mk), ite_self] | (refine (erase_foldl (fun t a => ?_) _ _).trans ?_) | (refine (erase_foldl1 (fun t a => ?_) _ _).trans ?_) | split)

theorem bitstreamPush_erase (s : State) (i : ℕ) (irq : Bool) (p : List Byte) {mk : Nat} (hk : 0x20080001004 &&& mk = 0x20080001004) : ((bitstreamPush s i irq p)).erase mk = s.erase mk := by
  unfold bitstreamPush
  repeat' (first | with_reducible rfl | with_reducible refine erase_ite ?_ ?_ | simp (disch := exact sub_trans rfl hk) only [↓completeEntry_erase, ↓touchPages_erase, ↓State.modStream_erase, ↓put_pci, apply_ite (State.erase mk), ite_self] | (refine (erase_foldl (fun t a => ?_) _ _).trans ?_) | (refine (erase_foldl1 (fun t a => ?_) _ _).trans ?_) | split)

theorem tensorEntry_erase (s : State) (p : List Byte) {mk : Nat} (hk : 0x8000d000 &&& mk = 0x8000d000) : (tensorEntry s p).1.erase mk = s.erase mk := by
  unfold tensorEntry
  repeat' (first | with_reducible rfl | with_reducible refine erase_ite ?_ ?_ | simp (disch := exact sub_trans rfl hk) only [↓tensorPush_erase, ↓put_pci, apply_ite (State.erase mk), ite_self] | (refine (erase_foldl (fun t a => ?_) _ _).trans ?_) | (refine (erase_foldl1 (fun t a => ?_) _ _).trans ?_) | split)

theorem actOn_erase (s : State) (i : ℕ) (e : List Byte) {mk : Nat} (hk : 0x102088e00f804 &&& mk = 0x102088e00f804) : ((actOn s i e)).erase mk = s.erase mk := by
  unfold actOn
  repeat' (first | with_reducible rfl | with_reducible refine erase_ite ?_ ?_ | simp (disch := exact sub_trans rfl hk) only [↓completeEntry_erase, ↓bitstreamPush_erase, ↓tensorEntry_erase, ↓takeEvidence_erase, ↓labelSample_erase, apply_ite (State.erase mk), ite_self] | (refine (erase_foldl (fun t a => ?_) _ _).trans ?_) | (refine (erase_foldl1 (fun t a => ?_) _ _).trans ?_) | split)

theorem advanceHead_erase (s : State) {mk : Nat} (hk : 0x80000000 &&& mk = 0x80000000) : ((advanceHead s)).erase mk = s.erase mk := by
  unfold advanceHead
  repeat' (first | with_reducible rfl | with_reducible refine erase_ite ?_ ?_ | simp (disch := exact sub_trans rfl hk) only [↓put_pci, apply_ite (State.erase mk), ite_self] | (refine (erase_foldl (fun t a => ?_) _ _).trans ?_) | (refine (erase_foldl1 (fun t a => ?_) _ _).trans ?_) | split)

theorem takeEntries_erase (y0 : List (List Byte)) (y1 : State) (y2 : ℕ) {mk : Nat} (hk : 0x102088e00f804 &&& mk = 0x102088e00f804) : (takeEntries y0 y1 y2).1.erase mk = y1.erase mk := by
  induction y0 generalizing y1 y2 with
  | nil => rfl
  | cons b l ih =>
    unfold takeEntries
    repeat' (first | with_reducible rfl | with_reducible refine erase_ite ?_ ?_ | simp (disch := exact sub_trans rfl hk) only [↓ih, ↓advanceHead_erase, ↓actOn_erase, ↓completeEntry_erase, ↓put_pci, apply_ite (State.erase mk), ite_self] | (refine (erase_foldl (fun t a => ?_) _ _).trans ?_) | (refine (erase_foldl1 (fun t a => ?_) _ _).trans ?_) | split)

theorem fetchTime_erase (s : State) {mk : Nat} (hk : 0x400 &&& mk = 0x400) : ((fetchTime s)).erase mk = s.erase mk := by
  unfold fetchTime
  repeat' (first | with_reducible rfl | with_reducible refine erase_ite ?_ ?_ | simp (disch := exact sub_trans rfl hk) only [↓State.atElapsed_erase, apply_ite (State.erase mk), ite_self] | (refine (erase_foldl (fun t a => ?_) _ _).trans ?_) | (refine (erase_foldl1 (fun t a => ?_) _ _).trans ?_) | split)

theorem fetchRing_erase (s : State) {mk : Nat} (hk : 0x102088e00f804 &&& mk = 0x102088e00f804) : ((fetchRing s)).erase mk = s.erase mk := by
  unfold fetchRing
  repeat' (first | with_reducible rfl | with_reducible refine erase_ite ?_ ?_ | simp (disch := exact sub_trans rfl hk) only [↓touchPages_erase, ↓takeEntries_erase, ↓put_pci, apply_ite (State.erase mk), ite_self] | (refine (erase_foldl (fun t a => ?_) _ _).trans ?_) | (refine (erase_foldl1 (fun t a => ?_) _ _).trans ?_) | split)

theorem commandRingFetch_erase (s : State) {mk : Nat} (hk : 0x102088e00fc04 &&& mk = 0x102088e00fc04) : ((commandRingFetch s)).erase mk = s.erase mk := by
  unfold commandRingFetch
  repeat' (first | with_reducible rfl | with_reducible refine erase_ite ?_ ?_ | simp (disch := exact sub_trans rfl hk) only [↓fetchTime_erase, ↓readConsumed_erase, ↓fetchRing_erase, ↓put_pci, apply_ite (State.erase mk), ite_self] | (refine (erase_foldl (fun t a => ?_) _ _).trans ?_) | (refine (erase_foldl1 (fun t a => ?_) _ _).trans ?_) | split)

theorem execCommandRingFetch_erase (s : State) {mk : Nat} (hk : 0x102088e00fc04 &&& mk = 0x102088e00fc04) (tx : State) (ex : (execCommandRingFetch s) = .next tx) : tx.erase mk = s.erase mk := by
  unfold execCommandRingFetch done at ex
  injection ex with ex
  subst ex
  repeat' (first | with_reducible rfl | with_reducible refine erase_ite ?_ ?_ | simp (disch := exact sub_trans rfl hk) only [↓commandRingFetch_erase, apply_ite (State.erase mk), ite_self] | (refine (erase_foldl (fun t a => ?_) _ _).trans ?_) | (refine (erase_foldl1 (fun t a => ?_) _ _).trans ?_) | split)

theorem endPush_erase (s : State) (n : ℕ) (i : ℕ) (irq : Bool) (rest : List (ℕ × Bool × ℕ)) (status : ℕ) {mk : Nat} (hk : 0x20080001004 &&& mk = 0x20080001004) : ((endPush s n i irq rest status)).erase mk = s.erase mk := by
  unfold endPush
  repeat' (first | with_reducible rfl | with_reducible refine erase_ite ?_ ?_ | simp (disch := exact sub_trans rfl hk) only [↓State.modStream_erase, ↓completeEntry_erase, ↓put_pci, apply_ite (State.erase mk), ite_self] | (refine (erase_foldl (fun t a => ?_) _ _).trans ?_) | (refine (erase_foldl1 (fun t a => ?_) _ _).trans ?_) | split)

theorem arrivePush_erase (s : State) (n : ℕ) (u : AccessUnit) {mk : Nat} (hk : 0x1061aade01fe4 &&& mk = 0x1061aade01fe4) : ((arrivePush s n u)).erase mk = s.erase mk := by
  unfold arrivePush
  repeat' (first | with_reducible rfl | with_reducible refine erase_ite ?_ ?_ | simp (disch := exact sub_trans rfl hk) only [↓fixEventInstant_erase, ↓State.setStream_erase, ↓State.streamRecord_erase, ↓enterEs_erase, apply_ite (State.erase mk), ite_self] | (refine (erase_foldl (fun t a => ?_) _ _).trans ?_) | (refine (erase_foldl1 (fun t a => ?_) _ _).trans ?_) | split)

theorem pushComplete_erase (s : State) (n : ℕ) {mk : Nat} (hk : 0x1061aafe03fe4 &&& mk = 0x1061aafe03fe4) : ((pushComplete s n)).erase mk = s.erase mk := by
  unfold pushComplete
  repeat' (first | with_reducible rfl | with_reducible refine erase_ite ?_ ?_ | simp (disch := exact sub_trans rfl hk) only [↓dispatch_erase, ↓arrivePush_erase, ↓endPush_erase, apply_ite (State.erase mk), ite_self] | (refine (erase_foldl (fun t a => ?_) _ _).trans ?_) | (refine (erase_foldl1 (fun t a => ?_) _ _).trans ?_) | split)

theorem execPushPayloadComplete_erase (n : ℕ) (tick : ℕ) (s : State) {mk : Nat} (hk : 0x1061aafe03fe4 &&& mk = 0x1061aafe03fe4) (tx : State) (ex : (execPushPayloadComplete n tick s) = .next tx) : tx.erase mk = s.erase mk := by
  unfold execPushPayloadComplete done at ex
  injection ex with ex
  subst ex
  repeat' (first | with_reducible rfl | with_reducible refine erase_ite ?_ ?_ | simp (disch := exact sub_trans rfl hk) only [↓pushComplete_erase, apply_ite (State.erase mk), ite_self] | (refine (erase_foldl (fun t a => ?_) _ _).trans ?_) | (refine (erase_foldl1 (fun t a => ?_) _ _).trans ?_) | split)

theorem eraseSummary_erase (s : State) (a : ℕ) (n : ℕ) {mk : Nat} (hk : 0x400000820 &&& mk = 0x400000820) : ((eraseSummary s a n)).erase mk = s.erase mk := by
  unfold eraseSummary
  repeat' (first | with_reducible rfl | with_reducible refine erase_ite ?_ ?_ | simp (disch := exact sub_trans rfl hk) only [↓put_flash_journal_sec, apply_ite (State.erase mk), ite_self] | (refine (erase_foldl (fun t a => ?_) _ _).trans ?_) | (refine (erase_foldl1 (fun t a => ?_) _ _).trans ?_) | split)

theorem startProgram_erase (page : Src) (count : ℕ) (s : State) {mk : Nat} (hk : 0x400000a20 &&& mk = 0x400000a20) : ((startProgram page count s)).erase mk = s.erase mk := by
  unfold startProgram
  repeat' (first | with_reducible rfl | with_reducible refine erase_ite ?_ ?_ | simp (disch := exact sub_trans rfl hk) only [↓eraseSummary_erase, ↓put_flash_stl, apply_ite (State.erase mk), ite_self] | (refine (erase_foldl (fun t a => ?_) _ _).trans ?_) | (refine (erase_foldl1 (fun t a => ?_) _ _).trans ?_) | split)

theorem programCommand_erase (page : Src) (count : ℕ) (s : State) {mk : Nat} (hk : 0xc00000a20 &&& mk = 0xc00000a20) : ((programCommand page count s)).erase mk = s.erase mk := by
  unfold programCommand
  repeat' (first | with_reducible rfl | with_reducible refine erase_ite ?_ ?_ | simp (disch := exact sub_trans rfl hk) only [↓State.pageDone_erase, ↓State.stlReject_erase, ↓startProgram_erase, apply_ite (State.erase mk), ite_self] | (refine (erase_foldl (fun t a => ?_) _ _).trans ?_) | (refine (erase_foldl1 (fun t a => ?_) _ _).trans ?_) | split)

theorem execFlashProgram_erase (page : Src) (via : Src) (count : ℕ) (s : State) {mk : Nat} (hk : 0xc00000a20 &&& mk = 0xc00000a20) (tx : State) (ex : (execFlashProgram page via count s) = .next tx) : tx.erase mk = s.erase mk := by
  unfold execFlashProgram done at ex
  injection ex with ex
  subst ex
  repeat' (first | refine stlCommand_erase _ _ _ _ _ (sub_trans rfl hk) (fun t => ?_) | with_reducible rfl | with_reducible refine erase_ite ?_ ?_ | simp (disch := exact sub_trans rfl hk) only [↓programCommand_erase, apply_ite (State.erase mk), ite_self] | (refine (erase_foldl (fun t a => ?_) _ _).trans ?_) | (refine (erase_foldl1 (fun t a => ?_) _ _).trans ?_) | split)

theorem execFlashProgramComplete_erase (differs : Bool) (s : State) {mk : Nat} (hk : 0x1000800000220 &&& mk = 0x1000800000220) (tx : State) (ex : (execFlashProgramComplete differs s) = .next tx) : tx.erase mk = s.erase mk := by
  unfold execFlashProgramComplete done at ex
  injection ex with ex
  subst ex
  repeat' (first | with_reducible rfl | with_reducible refine erase_ite ?_ ?_ | simp (disch := exact sub_trans rfl hk) only [↓State.pageDone_erase, ↓put_flash_stl_free, apply_ite (State.erase mk), ite_self] | (refine (erase_foldl (fun t a => ?_) _ _).trans ?_) | (refine (erase_foldl1 (fun t a => ?_) _ _).trans ?_) | split)

theorem verifyCommand_erase (page : Src) (slot : ℕ) (s : State) {mk : Nat} (hk : 0x800000200 &&& mk = 0x800000200) : ((verifyCommand page slot s)).erase mk = s.erase mk := by
  unfold verifyCommand
  repeat' (first | with_reducible rfl | with_reducible refine erase_ite ?_ ?_ | simp (disch := exact sub_trans rfl hk) only [↓State.pageDone_erase, ↓State.stlReject_erase, ↓put_stl, apply_ite (State.erase mk), ite_self] | (refine (erase_foldl (fun t a => ?_) _ _).trans ?_) | (refine (erase_foldl1 (fun t a => ?_) _ _).trans ?_) | split)

theorem execVerifySlot_erase (page : Src) (via : Src) (slot : ℕ) (s : State) {mk : Nat} (hk : 0x800000200 &&& mk = 0x800000200) (tx : State) (ex : (execVerifySlot page via slot s) = .next tx) : tx.erase mk = s.erase mk := by
  unfold execVerifySlot done at ex
  injection ex with ex
  subst ex
  repeat' (first | refine stlCommand_erase _ _ _ _ _ (sub_trans rfl hk) (fun t => ?_) | with_reducible rfl | with_reducible refine erase_ite ?_ ?_ | simp (disch := exact sub_trans rfl hk) only [↓verifyCommand_erase, apply_ite (State.erase mk), ite_self] | (refine (erase_foldl (fun t a => ?_) _ _).trans ?_) | (refine (erase_foldl1 (fun t a => ?_) _ _).trans ?_) | split)

theorem execVerifySlotComplete_erase (s : State) {mk : Nat} (hk : 0x800000200 &&& mk = 0x800000200) (tx : State) (ex : (execVerifySlotComplete s) = .next tx) : tx.erase mk = s.erase mk := by
  unfold execVerifySlotComplete done at ex
  injection ex with ex
  subst ex
  repeat' (first | with_reducible rfl | with_reducible refine erase_ite ?_ ?_ | simp (disch := exact sub_trans rfl hk) only [↓State.pageDone_erase, ↓put_stl, apply_ite (State.erase mk), ite_self] | (refine (erase_foldl (fun t a => ?_) _ _).trans ?_) | (refine (erase_foldl1 (fun t a => ?_) _ _).trans ?_) | split)

theorem restartController_erase (s : State) (y1 : Ctrl) {mk : Nat} (hk : 0x1042cbde4fa25 &&& mk = 0x1042cbde4fa25) : ((restartController s y1)).erase mk = s.erase mk := by
  unfold restartController
  repeat' (first | with_reducible rfl | with_reducible refine erase_ite ?_ ?_ | simp (disch := exact sub_trans rfl hk) only [↓restartRegion_erase, ↓chipFatal_erase, ↓discardForRestart_erase, ↓put_flt, apply_ite (State.erase mk), ite_self] | (refine (erase_foldl (fun t a => ?_) _ _).trans ?_) | (refine (erase_foldl1 (fun t a => ?_) _ _).trans ?_) | split)

theorem advanceUpdate_erase (s : State) (u : Update) {mk : Nat} (hk : 0x1062cbde4fa27 &&& mk = 0x1062cbde4fa27) : ((advanceUpdate s u)).erase mk = s.erase mk := by
  unfold advanceUpdate
  repeat' (first | with_reducible rfl | with_reducible refine erase_ite ?_ ?_ | simp (disch := exact sub_trans rfl hk) only [↓stageCharter_erase, ↓restartController_erase, ↓put_stl, apply_ite (State.erase mk), ite_self] | (refine (erase_foldl (fun t a => ?_) _ _).trans ?_) | (refine (erase_foldl1 (fun t a => ?_) _ _).trans ?_) | split)

theorem updateCommand_erase (page : Src) (s : State) {mk : Nat} (hk : 0x1062cbde4fa27 &&& mk = 0x1062cbde4fa27) : ((updateCommand page s)).erase mk = s.erase mk := by
  unfold updateCommand
  repeat' (first | with_reducible rfl | with_reducible refine erase_ite ?_ ?_ | simp (disch := exact sub_trans rfl hk) only [↓State.stlReject_erase, ↓State.pageDone_erase, ↓State.setPage_erase, ↓advanceUpdate_erase, apply_ite (State.erase mk), ite_self] | (refine (erase_foldl (fun t a => ?_) _ _).trans ?_) | (refine (erase_foldl1 (fun t a => ?_) _ _).trans ?_) | split)

theorem execCharterUpdate_erase (page : Src) (via : Src) (s : State) {mk : Nat} (hk : 0x1062cbde4fa27 &&& mk = 0x1062cbde4fa27) (tx : State) (ex : (execCharterUpdate page via s) = .next tx) : tx.erase mk = s.erase mk := by
  unfold execCharterUpdate done at ex
  injection ex with ex
  subst ex
  repeat' (first | refine stlCommand_erase _ _ _ _ _ (sub_trans rfl hk) (fun t => ?_) | with_reducible rfl | with_reducible refine erase_ite ?_ ?_ | simp (disch := exact sub_trans rfl hk) only [↓updateCommand_erase, apply_ite (State.erase mk), ite_self] | (refine (erase_foldl (fun t a => ?_) _ _).trans ?_) | (refine (erase_foldl1 (fun t a => ?_) _ _).trans ?_) | split)

theorem rollNext_erase (s : State) (agreed : Bool) {mk : Nat} (hk : 0x1062cbde4fe27 &&& mk = 0x1062cbde4fe27) : ((rollNext s agreed)).erase mk = s.erase mk := by
  unfold rollNext
  repeat' (first | with_reducible rfl | with_reducible refine erase_ite ?_ ?_ | simp (disch := exact sub_trans rfl hk) only [↓advanceUpdate_erase, ↓State.atElapsed_erase, ↓restartController_erase, ↓put_stl, apply_ite (State.erase mk), ite_self] | (refine (erase_foldl (fun t a => ?_) _ _).trans ?_) | (refine (erase_foldl1 (fun t a => ?_) _ _).trans ?_) | split)

theorem execRollingRestartNext_erase (agreed : Bool) (s : State) {mk : Nat} (hk : 0x1062cbde4fe27 &&& mk = 0x1062cbde4fe27) (tx : State) (ex : (execRollingRestartNext agreed s) = .next tx) : tx.erase mk = s.erase mk := by
  unfold execRollingRestartNext done at ex
  injection ex with ex
  subst ex
  repeat' (first | with_reducible rfl | with_reducible refine erase_ite ?_ ?_ | simp (disch := exact sub_trans rfl hk) only [↓rollNext_erase, apply_ite (State.erase mk), ite_self] | (refine (erase_foldl (fun t a => ?_) _ _).trans ?_) | (refine (erase_foldl1 (fun t a => ?_) _ _).trans ?_) | split)

theorem bothPortsDown_erase (s : State) {mk : Nat} (hk : 0x100000800 &&& mk = 0x100000800) : ((bothPortsDown s)).erase mk = s.erase mk := by
  unfold bothPortsDown
  repeat' (first | with_reducible rfl | with_reducible refine erase_ite ?_ ?_ | simp (disch := exact sub_trans rfl hk) only [↓linkChange_erase, apply_ite (State.erase mk), ite_self] | (refine (erase_foldl (fun t a => ?_) _ _).trans ?_) | (refine (erase_foldl1 (fun t a => ?_) _ _).trans ?_) | split)

theorem execReferenceClockLoss_erase (c : RefClock) (s : State) {mk : Nat} (hk : 0x1042db4e47a25 &&& mk = 0x1042db4e47a25) (tx : State) (ex : (execReferenceClockLoss c s) = .next tx) : tx.erase mk = s.erase mk := by
  unfold execReferenceClockLoss done at ex
  injection ex with ex
  subst ex
  repeat' (first | with_reducible rfl | with_reducible refine erase_ite ?_ ?_ | simp (disch := exact sub_trans rfl hk) only [↓chipFatal_erase, ↓endpointReset_erase, ↓bothPortsDown_erase, ↓put_pins, apply_ite (State.erase mk), ite_self] | (refine (erase_foldl (fun t a => ?_) _ _).trans ?_) | (refine (erase_foldl1 (fun t a => ?_) _ _).trans ?_) | split)

theorem execReferenceClockReturn_erase (c : RefClock) (s : State) {mk : Nat} (hk : 0x4 &&& mk = 0x4) (tx : State) (ex : (execReferenceClockReturn c s) = .next tx) : tx.erase mk = s.erase mk := by
  unfold execReferenceClockReturn done at ex
  injection ex with ex
  subst ex
  repeat' (first | with_reducible rfl | with_reducible refine erase_ite ?_ ?_ | simp (disch := exact sub_trans rfl hk) only [↓put_pins, apply_ite (State.erase mk), ite_self] | (refine (erase_foldl (fun t a => ?_) _ _).trans ?_) | (refine (erase_foldl1 (fun t a => ?_) _ _).trans ?_) | split)

theorem capTick_erase (s : State) (mw : ℕ) (celsius : ℤ) (sensor : ℕ) {mk : Nat} (hk : 0x1000000004008 &&& mk = 0x1000000004008) : ((capTick s mw celsius sensor)).erase mk = s.erase mk := by
  unfold capTick
  repeat' (first | with_reducible rfl | with_reducible refine erase_ite ?_ ?_ | simp (disch := exact sub_trans rfl hk) only [↓trackAll_erase, ↓State.nextFree_erase, ↓put_power, apply_ite (State.erase mk), ite_self] | (refine (erase_foldl (fun t a => ?_) _ _).trans ?_) | (refine (erase_foldl1 (fun t a => ?_) _ _).trans ?_) | split)

theorem execPowerCapTick_erase (milliwatts : ℕ) (celsius : ℤ) (sensor : ℕ) (s : State) {mk : Nat} (hk : 0x1000000004408 &&& mk = 0x1000000004408) (tx : State) (ex : (execPowerCapTick milliwatts celsius sensor s) = .next tx) : tx.erase mk = s.erase mk := by
  unfold execPowerCapTick done at ex
  injection ex with ex
  subst ex
  repeat' (first | with_reducible rfl | with_reducible refine erase_ite ?_ ?_ | simp (disch := exact sub_trans rfl hk) only [↓capTick_erase, ↓State.atMultiple_erase, apply_ite (State.erase mk), ite_self] | (refine (erase_foldl (fun t a => ?_) _ _).trans ?_) | (refine (erase_foldl1 (fun t a => ?_) _ _).trans ?_) | split)

theorem droopTile_erase (s : State) (p : ℕ) {mk : Nat} (hk : 0x10428b8240a24 &&& mk = 0x10428b8240a24) : ((droopTile s p)).erase mk = s.erase mk := by
  unfold droopTile
  repeat' (first | with_reducible rfl | with_reducible refine erase_ite ?_ ?_ | simp (disch := exact sub_trans rfl hk) only [↓abandonTile_erase, ↓State.corrected_erase, ↓fenceIfDue_erase, ↓State.modEngine_erase, apply_ite (State.erase mk), ite_self] | (refine (erase_foldl (fun t a => ?_) _ _).trans ?_) | (refine (erase_foldl1 (fun t a => ?_) _ _).trans ?_) | split)

theorem droopDie_erase (s : State) (d : ℕ) {mk : Nat} (hk : 0x10428b8240a2c &&& mk = 0x10428b8240a2c) : ((droopDie s d)).erase mk = s.erase mk := by
  unfold droopDie
  repeat' (first | with_reducible rfl | with_reducible refine erase_ite ?_ ?_ | simp (disch := exact sub_trans rfl hk) only [↓droopTile_erase, ↓put_power, apply_ite (State.erase mk), ite_self] | (refine (erase_foldl (fun t a => ?_) _ _).trans ?_) | (refine (erase_foldl1 (fun t a => ?_) _ _).trans ?_) | split)

theorem droopMedia_erase (s : State) {mk : Nat} (hk : 0x4008 &&& mk = 0x4008) : ((droopMedia s)).erase mk = s.erase mk := by
  unfold droopMedia
  repeat' (first | with_reducible rfl | with_reducible refine erase_ite ?_ ?_ | simp (disch := exact sub_trans rfl hk) only [↓trackAll_erase, ↓put_power, apply_ite (State.erase mk), ite_self] | (refine (erase_foldl (fun t a => ?_) _ _).trans ?_) | (refine (erase_foldl1 (fun t a => ?_) _ _).trans ?_) | split)

theorem execDroopDetected_erase (d : Die) (s : State) {mk : Nat} (hk : 0x10428b8244a2c &&& mk = 0x10428b8244a2c) (tx : State) (ex : (execDroopDetected d s) = .next tx) : tx.erase mk = s.erase mk := by
  unfold execDroopDetected done at ex
  injection ex with ex
  subst ex
  repeat' (first | with_reducible rfl | with_reducible refine erase_ite ?_ ?_ | simp (disch := exact sub_trans rfl hk) only [↓droopDie_erase, ↓droopMedia_erase, apply_ite (State.erase mk), ite_self] | (refine (erase_foldl (fun t a => ?_) _ _).trans ?_) | (refine (erase_foldl1 (fun t a => ?_) _ _).trans ?_) | split)

theorem execDroopHoldEnd_erase (d : Die) (s : State) {mk : Nat} (hk : 0x4408 &&& mk = 0x4408) (tx : State) (ex : (execDroopHoldEnd d s) = .next tx) : tx.erase mk = s.erase mk := by
  unfold execDroopHoldEnd done at ex
  injection ex with ex
  subst ex
  repeat' (first | with_reducible rfl | with_reducible refine erase_ite ?_ ?_ | simp (disch := exact sub_trans rfl hk) only [↓State.atElapsed_erase, ↓trackAll_erase, ↓put_power, apply_ite (State.erase mk), ite_self] | (refine (erase_foldl (fun t a => ?_) _ _).trans ?_) | (refine (erase_foldl1 (fun t a => ?_) _ _).trans ?_) | split)

theorem execOverLimitTemp_erase (celsius : ℤ) (sensor : ℕ) (s : State) {mk : Nat} (hk : 0x10000808 &&& mk = 0x10000808) (tx : State) (ex : (execOverLimitTemp celsius sensor s) = .next tx) : tx.erase mk = s.erase mk := by
  unfold execOverLimitTemp done at ex
  injection ex with ex
  subst ex
  repeat' (first | with_reducible rfl | with_reducible refine erase_ite ?_ ?_ | simp (disch := exact sub_trans rfl hk) only [↓State.emit_erase, ↓put_power_flt, apply_ite (State.erase mk), ite_self] | (refine (erase_foldl (fun t a => ?_) _ _).trans ?_) | (refine (erase_foldl1 (fun t a => ?_) _ _).trans ?_) | split)

theorem execThermalTrip_erase (s : State) {mk : Nat} (hk : 0x1042cb4e47a25 &&& mk = 0x1042cb4e47a25) (tx : State) (ex : (execThermalTrip s) = .next tx) : tx.erase mk = s.erase mk := by
  unfold execThermalTrip done at ex
  injection ex with ex
  subst ex
  repeat' (first | with_reducible rfl | with_reducible refine erase_ite ?_ ?_ | simp (disch := exact sub_trans rfl hk) only [↓chipFatal_erase, ↓put_pins, apply_ite (State.erase mk), ite_self] | (refine (erase_foldl (fun t a => ?_) _ _).trans ?_) | (refine (erase_foldl1 (fun t a => ?_) _ _).trans ?_) | split)

theorem readWord_erase (s : State) (off : ℕ) {mk : Nat} (hk : 0x100000000000 &&& mk = 0x100000000000) : (readWord s off).1.erase mk = s.erase mk := by
  unfold readWord
  repeat' (first | with_reducible rfl | with_reducible refine erase_ite ?_ ?_ | simp (disch := exact sub_trans rfl hk) only [↓put_latched, apply_ite (State.erase mk), ite_self] | (refine (erase_foldl (fun t a => ?_) _ _).trans ?_) | (refine (erase_foldl1 (fun t a => ?_) _ _).trans ?_) | split)

theorem readWords_erase (src : Src) (y1 : ℕ) (y2 : State) (y3 : ℕ) {mk : Nat} (hk : 0x100000000000 &&& mk = 0x100000000000) : (readWords src y1 y2 y3).1.erase mk = y2.erase mk := by
  induction y1 generalizing y2 y3 with
  | zero => rfl
  | succ k ih =>
    unfold readWords
    repeat' (first | with_reducible rfl | with_reducible refine erase_ite ?_ ?_ | simp (disch := exact sub_trans rfl hk) only [↓ih, ↓readWord_erase, apply_ite (State.erase mk), ite_self] | (refine (erase_foldl (fun t a => ?_) _ _).trans ?_) | (refine (erase_foldl1 (fun t a => ?_) _ _).trans ?_) | split)

theorem readBytes_erase (s : State) (src : Src) (off : ℕ) (n : ℕ) {mk : Nat} (hk : 0x100000000000 &&& mk = 0x100000000000) : (readBytes s src off n).1.erase mk = s.erase mk := by
  unfold readBytes
  repeat' (first | with_reducible rfl | with_reducible refine erase_ite ?_ ?_ | simp (disch := exact sub_trans rfl hk) only [↓readWords_erase, apply_ite (State.erase mk), ite_self] | (refine (erase_foldl (fun t a => ?_) _ _).trans ?_) | (refine (erase_foldl1 (fun t a => ?_) _ _).trans ?_) | split)

theorem regRead_erase (s : State) (src : Src) (off : ℕ) (n : ℕ) {mk : Nat} (hk : 0x700000000000 &&& mk = 0x700000000000) : ((regRead s src off n)).erase mk = s.erase mk := by
  unfold regRead
  repeat' (first | with_reducible rfl | with_reducible refine erase_ite ?_ ?_ | simp (disch := exact sub_trans rfl hk) only [↓readBytes_erase, ↓put_readback_poisoned, apply_ite (State.erase mk), ite_self] | (refine (erase_foldl (fun t a => ?_) _ _).trans ?_) | (refine (erase_foldl1 (fun t a => ?_) _ _).trans ?_) | split)

theorem execBar0UnalignedRead_erase (off : ℕ) (n : ℕ) (s : State) {mk : Nat} (hk : 0x700000000000 &&& mk = 0x700000000000) (tx : State) (ex : (execBar0UnalignedRead off n s) = .next tx) : tx.erase mk = s.erase mk := by
  unfold execBar0UnalignedRead done at ex
  injection ex with ex
  subst ex
  repeat' (first | with_reducible rfl | with_reducible refine erase_ite ?_ ?_ | simp (disch := exact sub_trans rfl hk) only [↓regRead_erase, apply_ite (State.erase mk), ite_self] | (refine (erase_foldl (fun t a => ?_) _ _).trans ?_) | (refine (erase_foldl1 (fun t a => ?_) _ _).trans ?_) | split)

theorem lowRead_erase (s : State) (off : ℕ) (wide : Bool) {mk : Nat} (hk : 0x700000000000 &&& mk = 0x700000000000) : ((lowRead s off wide)).erase mk = s.erase mk := by
  unfold lowRead
  repeat' (first | with_reducible rfl | with_reducible refine erase_ite ?_ ?_ | simp (disch := exact sub_trans rfl hk) only [↓regRead_erase, apply_ite (State.erase mk), ite_self] | (refine (erase_foldl (fun t a => ?_) _ _).trans ?_) | (refine (erase_foldl1 (fun t a => ?_) _ _).trans ?_) | split)

theorem execTimNowLowRead_erase (wide : Bool) (s : State) {mk : Nat} (hk : 0x700000000000 &&& mk = 0x700000000000) (tx : State) (ex : (execTimNowLowRead wide s) = .next tx) : tx.erase mk = s.erase mk := by
  unfold execTimNowLowRead done at ex
  injection ex with ex
  subst ex
  repeat' (first | with_reducible rfl | with_reducible refine erase_ite ?_ ?_ | simp (disch := exact sub_trans rfl hk) only [↓lowRead_erase, apply_ite (State.erase mk), ite_self] | (refine (erase_foldl (fun t a => ?_) _ _).trans ?_) | (refine (erase_foldl1 (fun t a => ?_) _ _).trans ?_) | split)

theorem execTillCyclesRead_erase (a : ℕ) (wide : Bool) (s : State) {mk : Nat} (hk : 0x700000000000 &&& mk = 0x700000000000) (tx : State) (ex : (execTillCyclesRead a wide s) = .next tx) : tx.erase mk = s.erase mk := by
  unfold execTillCyclesRead done at ex
  injection ex with ex
  subst ex
  repeat' (first | with_reducible rfl | with_reducible refine erase_ite ?_ ?_ | simp (disch := exact sub_trans rfl hk) only [↓lowRead_erase, apply_ite (State.erase mk), ite_self] | (refine (erase_foldl (fun t a => ?_) _ _).trans ?_) | (refine (erase_foldl1 (fun t a => ?_) _ _).trans ?_) | split)

theorem execIngPacketsRead_erase (n : ℕ) (wide : Bool) (s : State) {mk : Nat} (hk : 0x700000000000 &&& mk = 0x700000000000) (tx : State) (ex : (execIngPacketsRead n wide s) = .next tx) : tx.erase mk = s.erase mk := by
  unfold execIngPacketsRead done at ex
  injection ex with ex
  subst ex
  repeat' (first | with_reducible rfl | with_reducible refine erase_ite ?_ ?_ | simp (disch := exact sub_trans rfl hk) only [↓lowRead_erase, apply_ite (State.erase mk), ite_self] | (refine (erase_foldl (fun t a => ?_) _ _).trans ?_) | (refine (erase_foldl1 (fun t a => ?_) _ _).trans ?_) | split)

theorem execEngConvSatRead_erase (p : ℕ) (wide : Bool) (s : State) {mk : Nat} (hk : 0x700000000000 &&& mk = 0x700000000000) (tx : State) (ex : (execEngConvSatRead p wide s) = .next tx) : tx.erase mk = s.erase mk := by
  unfold execEngConvSatRead done at ex
  injection ex with ex
  subst ex
  repeat' (first | with_reducible rfl | with_reducible refine erase_ite ?_ ?_ | simp (disch := exact sub_trans rfl hk) only [↓lowRead_erase, apply_ite (State.erase mk), ite_self] | (refine (erase_foldl (fun t a => ?_) _ _).trans ?_) | (refine (erase_foldl1 (fun t a => ?_) _ _).trans ?_) | split)

theorem execEngTilesRead_erase (p : ℕ) (wide : Bool) (s : State) {mk : Nat} (hk : 0x700000000000 &&& mk = 0x700000000000) (tx : State) (ex : (execEngTilesRead p wide s) = .next tx) : tx.erase mk = s.erase mk := by
  unfold execEngTilesRead done at ex
  injection ex with ex
  subst ex
  repeat' (first | with_reducible rfl | with_reducible refine erase_ite ?_ ?_ | simp (disch := exact sub_trans rfl hk) only [↓lowRead_erase, apply_ite (State.erase mk), ite_self] | (refine (erase_foldl (fun t a => ?_) _ _).trans ?_) | (refine (erase_foldl1 (fun t a => ?_) _ _).trans ?_) | split)

theorem execClrCommandsRead_erase (r : ℕ) (wide : Bool) (s : State) {mk : Nat} (hk : 0x700000000000 &&& mk = 0x700000000000) (tx : State) (ex : (execClrCommandsRead r wide s) = .next tx) : tx.erase mk = s.erase mk := by
  unfold execClrCommandsRead done at ex
  injection ex with ex
  subst ex
  repeat' (first | with_reducible rfl | with_reducible refine erase_ite ?_ ?_ | simp (disch := exact sub_trans rfl hk) only [↓lowRead_erase, apply_ite (State.erase mk), ite_self] | (refine (erase_foldl (fun t a => ?_) _ _).trans ?_) | (refine (erase_foldl1 (fun t a => ?_) _ _).trans ?_) | split)

theorem execEncPicturesRead_erase (n : ℕ) (wide : Bool) (s : State) {mk : Nat} (hk : 0x700000000000 &&& mk = 0x700000000000) (tx : State) (ex : (execEncPicturesRead n wide s) = .next tx) : tx.erase mk = s.erase mk := by
  unfold execEncPicturesRead done at ex
  injection ex with ex
  subst ex
  repeat' (first | with_reducible rfl | with_reducible refine erase_ite ?_ ?_ | simp (disch := exact sub_trans rfl hk) only [↓lowRead_erase, apply_ite (State.erase mk), ite_self] | (refine (erase_foldl (fun t a => ?_) _ _).trans ?_) | (refine (erase_foldl1 (fun t a => ?_) _ _).trans ?_) | split)

theorem execFltCorrectedRead_erase (wide : Bool) (s : State) {mk : Nat} (hk : 0x700000000000 &&& mk = 0x700000000000) (tx : State) (ex : (execFltCorrectedRead wide s) = .next tx) : tx.erase mk = s.erase mk := by
  unfold execFltCorrectedRead done at ex
  injection ex with ex
  subst ex
  repeat' (first | with_reducible rfl | with_reducible refine erase_ite ?_ ?_ | simp (disch := exact sub_trans rfl hk) only [↓lowRead_erase, apply_ite (State.erase mk), ite_self] | (refine (erase_foldl (fun t a => ?_) _ _).trans ?_) | (refine (erase_foldl1 (fun t a => ?_) _ _).trans ?_) | split)

theorem execSafEvalsRead_erase (wide : Bool) (s : State) {mk : Nat} (hk : 0x700000000000 &&& mk = 0x700000000000) (tx : State) (ex : (execSafEvalsRead wide s) = .next tx) : tx.erase mk = s.erase mk := by
  unfold execSafEvalsRead done at ex
  injection ex with ex
  subst ex
  repeat' (first | with_reducible rfl | with_reducible refine erase_ite ?_ ?_ | simp (disch := exact sub_trans rfl hk) only [↓lowRead_erase, apply_ite (State.erase mk), ite_self] | (refine (erase_foldl (fun t a => ?_) _ _).trans ?_) | (refine (erase_foldl1 (fun t a => ?_) _ _).trans ?_) | split)

theorem execMemCeRead_erase (n : ℕ) (wide : Bool) (s : State) {mk : Nat} (hk : 0x700000000000 &&& mk = 0x700000000000) (tx : State) (ex : (execMemCeRead n wide s) = .next tx) : tx.erase mk = s.erase mk := by
  unfold execMemCeRead done at ex
  injection ex with ex
  subst ex
  repeat' (first | with_reducible rfl | with_reducible refine erase_ite ?_ ?_ | simp (disch := exact sub_trans rfl hk) only [↓lowRead_erase, apply_ite (State.erase mk), ite_self] | (refine (erase_foldl (fun t a => ?_) _ _).trans ?_) | (refine (erase_foldl1 (fun t a => ?_) _ _).trans ?_) | split)

theorem execNetLnkCounterRead_erase (b : NetBlk) (wide : Bool) (s : State) {mk : Nat} (hk : 0x700000000000 &&& mk = 0x700000000000) (tx : State) (ex : (execNetLnkCounterRead b wide s) = .next tx) : tx.erase mk = s.erase mk := by
  unfold execNetLnkCounterRead done at ex
  injection ex with ex
  subst ex
  repeat' (first | with_reducible rfl | with_reducible refine erase_ite ?_ ?_ | simp (disch := exact sub_trans rfl hk) only [↓lowRead_erase, apply_ite (State.erase mk), ite_self] | (refine (erase_foldl (fun t a => ?_) _ _).trans ?_) | (refine (erase_foldl1 (fun t a => ?_) _ _).trans ?_) | split)

theorem after_erase (s : State) (o : Out) {mk : Nat} (h1 : ∀ t, o = .next t → t.erase mk = s.erase mk) :
    (after s o).erase mk = s.erase mk := by
  unfold after
  split
  · exact h1 _ rfl
  · rfl

theorem writeStlCmd_erase (s : State) (page via : Src) (v : Nat) {mk : Nat} (hk : 0x1062cbde4fa27 &&& mk = 0x1062cbde4fa27) : (writeStlCmd s page via v).erase mk = s.erase mk := by
  unfold writeStlCmd
  refine after_erase _ _ (fun t e => ?_)
  split at e
  · exact execStlOpen_erase page via s (sub_trans rfl hk) t e
  split at e
  · exact execStlStage_erase page via _ s (sub_trans rfl hk) t e
  split at e
  · exact execStlCheck_erase page via s (sub_trans rfl hk) t e
  split at e
  · exact execCommitAtTime_erase page via s (sub_trans rfl hk) t e
  split at e
  · exact execCommitAtEvent_erase page via s (sub_trans rfl hk) t e
  split at e
  · exact execStlAbort_erase page via s (sub_trans rfl hk) t e
  split at e
  · exact execStlDiscard_erase page via s (sub_trans rfl hk) t e
  split at e
  · exact execFlashProgram_erase page via _ s (sub_trans rfl hk) t e
  split at e
  · exact execVerifySlot_erase page via _ s (sub_trans rfl hk) t e
  split at e
  · exact execCharterUpdate_erase page via s (sub_trans rfl hk) t e
  split at e
  · exact execReboot_erase page via _ s (sub_trans rfl hk) t e
  unfold done at e
  injection e with e
  subst e
  exact stlCommand_erase _ _ _ _ _ (sub_trans rfl hk) (fun t => State.pageDone_erase _ _ _ _ _ (sub_trans rfl hk))

theorem writeSecCmd_erase (s : State) (v : Nat) {mk : Nat} (hk : 0x1000cb684fa34 &&& mk = 0x1000cb684fa34) : (writeSecCmd s v).erase mk = s.erase mk := by
  unfold writeSecCmd
  refine after_erase _ _ (fun t e => ?_)
  split at e
  · exact (execChallenge_erase _ _ (sub_trans rfl hk) t e).trans (State.nextFree_erase s (sub_trans rfl hk))
  split at e
  · exact execUnlock_erase s (sub_trans rfl hk) t e
  split at e
  · exact execLock_erase s (sub_trans rfl hk) t e
  split at e
  · exact execAttest_erase s (sub_trans rfl hk) t e
  split at e
  · exact (execProgramKey_erase _ _ (sub_trans rfl hk) t e).trans (State.nextFree_erase s (sub_trans rfl hk))
  split at e
  · exact execDeploy_erase s (sub_trans rfl hk) t e
  split at e
  · exact execReturnDevice_erase s (sub_trans rfl hk) t e
  unfold done at e
  injection e with e
  subst e
  exact State.secStatus_erase _ _ (sub_trans rfl hk)

theorem writeDbgCmd_erase (s : State) (v : Nat) {mk : Nat} (hk : 0x10428b6a4fa04 &&& mk = 0x10428b6a4fa04) : (writeDbgCmd s v).erase mk = s.erase mk := by
  unfold writeDbgCmd
  refine after_erase _ _ (fun t e => ?_)
  split at e
  · exact execHalt_erase s (sub_trans rfl hk) t e
  split at e
  · exact execHaltImmediate_erase s (sub_trans rfl hk) t e
  split at e
  · exact execReleaseHalt_erase s (sub_trans rfl hk) t e
  unfold done at e
  injection e with e
  subst e
  exact State.dbgStatus_erase _ _ (sub_trans rfl hk)

theorem writeWatchCtrl_erase (s : State) (w : ℕ) (v : ℕ) {mk : Nat} (hk : 0x800000a00 &&& mk = 0x800000a00) : ((writeWatchCtrl s w v)).erase mk = s.erase mk := by
  unfold writeWatchCtrl
  repeat' (first | with_reducible rfl | with_reducible refine erase_ite ?_ ?_ | simp (disch := exact sub_trans rfl hk) only [↓arm_erase, ↓disarm_erase, ↓State.setWatch_erase, apply_ite (State.erase mk), ite_self] | (refine (erase_foldl (fun t a => ?_) _ _).trans ?_) | (refine (erase_foldl1 (fun t a => ?_) _ _).trans ?_) | split)

theorem writePci_erase (s : State) (o v : Nat) {mk : Nat} (hk : 0x80005a04 &&& mk = 0x80005a04) : (writePci s o v).erase mk = s.erase mk := by
  unfold writePci
  extract_lets p
  clear_value p
  repeat' (first | with_reducible rfl | with_reducible refine erase_ite ?_ ?_ | simp (disch := exact sub_trans rfl hk) only [↓State.countIgnored_erase, ↓writeCmdCtrl_erase, ↓writeJrnCtrl_erase, ↓State.updateInta_erase, ↓put_pci, apply_ite (State.erase mk), ite_self] | (refine (erase_foldl (fun t a => ?_) _ _).trans ?_) | (refine (erase_foldl1 (fun t a => ?_) _ _).trans ?_) | split)

theorem writeStl_erase (s : State) (via : Src) (o : ℕ) (v : ℕ) {mk : Nat} (hk : 0x1062cbde4fa27 &&& mk = 0x1062cbde4fa27) : ((writeStl s via o v)).erase mk = s.erase mk := by
  unfold writeStl
  repeat' (first | with_reducible rfl | with_reducible refine erase_ite ?_ ?_ | simp (disch := exact sub_trans rfl hk) only [↓writeStlCmd_erase, ↓State.setPage_erase, apply_ite (State.erase mk), ite_self] | (refine (erase_foldl (fun t a => ?_) _ _).trans ?_) | (refine (erase_foldl1 (fun t a => ?_) _ _).trans ?_) | split)

theorem writeTim_erase (s : State) (o : ℕ) (v : ℕ) {mk : Nat} (hk : 0x400 &&& mk = 0x400) : ((writeTim s o v)).erase mk = s.erase mk := by
  unfold writeTim
  repeat' (first | with_reducible rfl | with_reducible refine erase_ite ?_ ?_ | simp (disch := exact sub_trans rfl hk) only [↓put_time, apply_ite (State.erase mk), ite_self] | (refine (erase_foldl (fun t a => ?_) _ _).trans ?_) | (refine (erase_foldl1 (fun t a => ?_) _ _).trans ?_) | split)

theorem writeSec_erase (s : State) (o : ℕ) (v : ℕ) {mk : Nat} (hk : 0x1000cb684fa34 &&& mk = 0x1000cb684fa34) : ((writeSec s o v)).erase mk = s.erase mk := by
  unfold writeSec
  repeat' (first | with_reducible rfl | with_reducible refine erase_ite ?_ ?_ | simp (disch := exact sub_trans rfl hk) only [↓writeSecCmd_erase, ↓put_sec, apply_ite (State.erase mk), ite_self] | (refine (erase_foldl (fun t a => ?_) _ _).trans ?_) | (refine (erase_foldl1 (fun t a => ?_) _ _).trans ?_) | split)

theorem writeDbg_erase (s : State) (o : ℕ) (v : ℕ) {mk : Nat} (hk : 0x10428b6a4fa04 &&& mk = 0x10428b6a4fa04) : ((writeDbg s o v)).erase mk = s.erase mk := by
  unfold writeDbg
  repeat' (first | with_reducible rfl | with_reducible refine erase_ite ?_ ?_ | simp (disch := exact sub_trans rfl hk) only [↓writeDbgCmd_erase, ↓writeTraceCtrl_erase, ↓State.setWatch_erase, ↓writeWatchCtrl_erase, ↓put_dbg, apply_ite (State.erase mk), ite_self] | (refine (erase_foldl (fun t a => ?_) _ _).trans ?_) | (refine (erase_foldl1 (fun t a => ?_) _ _).trans ?_) | split)

theorem writeEng_erase (s : State) (p : ℕ) (o : ℕ) (v : ℕ) {mk : Nat} (hk : 0x40000 &&& mk = 0x40000) : ((writeEng s p o v)).erase mk = s.erase mk := by
  unfold writeEng
  repeat' (first | with_reducible rfl | with_reducible refine erase_ite ?_ ?_ | simp (disch := exact sub_trans rfl hk) only [↓State.modEngine_erase, apply_ite (State.erase mk), ite_self] | (refine (erase_foldl (fun t a => ?_) _ _).trans ?_) | (refine (erase_foldl1 (fun t a => ?_) _ _).trans ?_) | split)

theorem writeChp_erase (s : State) (o : ℕ) (v : ℕ) {mk : Nat} (hk : 0x8 &&& mk = 0x8) : ((writeChp s o v)).erase mk = s.erase mk := by
  unfold writeChp
  repeat' (first | with_reducible rfl | with_reducible refine erase_ite ?_ ?_ | simp (disch := exact sub_trans rfl hk) only [↓put_power, apply_ite (State.erase mk), ite_self] | (refine (erase_foldl (fun t a => ?_) _ _).trans ?_) | (refine (erase_foldl1 (fun t a => ?_) _ _).trans ?_) | split)

theorem writeReg_erase (s : State) (via : Src) (off : ℕ) (v : ℕ) {mk : Nat} (hk : 0x1062cbfe4fe3f &&& mk = 0x1062cbfe4fe3f) : ((writeReg s via off v)).erase mk = s.erase mk := by
  unfold writeReg
  repeat' (first | with_reducible rfl | with_reducible refine erase_ite ?_ ?_ | simp (disch := exact sub_trans rfl hk) only [↓writeChp_erase, ↓writeEng_erase, ↓writePci_erase, ↓writeTim_erase, ↓writeStl_erase, ↓writeSec_erase, ↓writeDbg_erase, ↓writeObsSel_erase, apply_ite (State.erase mk), ite_self] | (refine (erase_foldl (fun t a => ?_) _ _).trans ?_) | (refine (erase_foldl1 (fun t a => ?_) _ _).trans ?_) | split)

theorem writeWordsOf_erase (via : Src) (s : State) (ws : List (ℕ × ℕ)) {mk : Nat} (hk : 0x1062cbfe4fe3f &&& mk = 0x1062cbfe4fe3f) : ((writeWordsOf via s ws)).erase mk = s.erase mk := by
  unfold writeWordsOf
  repeat' (first | with_reducible rfl | with_reducible refine erase_ite ?_ ?_ | simp (disch := exact sub_trans rfl hk) only [↓writeReg_erase, apply_ite (State.erase mk), ite_self] | (refine (erase_foldl (fun t a => ?_) _ _).trans ?_) | (refine (erase_foldl1 (fun t a => ?_) _ _).trans ?_) | split)

theorem regWrite_erase (s : State) (src : Src) (off : ℕ) (width : ℕ) (v : ℕ) {mk : Nat} (hk : 0x1062cbfe4fe3f &&& mk = 0x1062cbfe4fe3f) : ((regWrite s src off width v)).erase mk = s.erase mk := by
  unfold regWrite
  repeat' (first | with_reducible rfl | with_reducible refine erase_ite ?_ ?_ | simp (disch := exact sub_trans rfl hk) only [↓State.countIgnored_erase, ↓State.countReject_erase, ↓writeWordsOf_erase, apply_ite (State.erase mk), ite_self] | (refine (erase_foldl (fun t a => ?_) _ _).trans ?_) | (refine (erase_foldl1 (fun t a => ?_) _ _).trans ?_) | split)

theorem execRegisterWrite_erase (src : Src) (off : ℕ) (width : ℕ) (value : W64) (s : State) {mk : Nat} (hk : 0x1062cbfe4fe3f &&& mk = 0x1062cbfe4fe3f) (tx : State) (ex : (execRegisterWrite src off width value s) = .next tx) : tx.erase mk = s.erase mk := by
  unfold execRegisterWrite done at ex
  injection ex with ex
  subst ex
  repeat' (first | with_reducible rfl | with_reducible refine erase_ite ?_ ?_ | simp (disch := exact sub_trans rfl hk) only [↓regWrite_erase, apply_ite (State.erase mk), ite_self] | (refine (erase_foldl (fun t a => ?_) _ _).trans ?_) | (refine (erase_foldl1 (fun t a => ?_) _ _).trans ?_) | split)

theorem State.ack_erase (s : State) (ok : Bool) {mk : Nat} (hk : 0x800000000000 &&& mk = 0x800000000000) : ((State.ack s ok)).erase mk = s.erase mk := by
  unfold State.ack
  repeat' (first | with_reducible rfl | with_reducible refine erase_ite ?_ ?_ | simp (disch := exact sub_trans rfl hk) only [↓put_nak, apply_ite (State.erase mk), ite_self] | (refine (erase_foldl (fun t a => ?_) _ _).trans ?_) | (refine (erase_foldl1 (fun t a => ?_) _ _).trans ?_) | split)

theorem execSmbusSetOffset_erase (bytes : List Byte) (pecOk : Bool) (s : State) {mk : Nat} (hk : 0x880000000000 &&& mk = 0x880000000000) (tx : State) (ex : (execSmbusSetOffset bytes pecOk s) = .next tx) : tx.erase mk = s.erase mk := by
  unfold execSmbusSetOffset done at ex
  injection ex with ex
  subst ex
  repeat' (first | with_reducible rfl | with_reducible refine erase_ite ?_ ?_ | simp (disch := exact sub_trans rfl hk) only [↓State.ack_erase, ↓put_smbOffset, apply_ite (State.erase mk), ite_self] | (refine (erase_foldl (fun t a => ?_) _ _).trans ?_) | (refine (erase_foldl1 (fun t a => ?_) _ _).trans ?_) | split)

theorem execSmbusWrite_erase (bytes : List Byte) (pecOk : Bool) (s : State) {mk : Nat} (hk : 0x18e2cbfe4fe3f &&& mk = 0x18e2cbfe4fe3f) (tx : State) (ex : (execSmbusWrite bytes pecOk s) = .next tx) : tx.erase mk = s.erase mk := by
  unfold execSmbusWrite done at ex
  injection ex with ex
  subst ex
  repeat' (first | with_reducible rfl | with_reducible refine erase_ite ?_ ?_ | simp (disch := exact sub_trans rfl hk) only [↓regWrite_erase, ↓State.ack_erase, ↓put_smbOffset, apply_ite (State.erase mk), ite_self] | (refine (erase_foldl (fun t a => ?_) _ _).trans ?_) | (refine (erase_foldl1 (fun t a => ?_) _ _).trans ?_) | split)

theorem execSmbusRead_erase (count : ℕ) (s : State) {mk : Nat} (hk : 0xf80000000000 &&& mk = 0xf80000000000) (tx : State) (ex : (execSmbusRead count s) = .next tx) : tx.erase mk = s.erase mk := by
  unfold execSmbusRead done at ex
  injection ex with ex
  subst ex
  repeat' (first | with_reducible rfl | with_reducible refine erase_ite ?_ ?_ | simp (disch := exact sub_trans rfl hk) only [↓regRead_erase, ↓State.ack_erase, ↓put_smbOffset, apply_ite (State.erase mk), ite_self] | (refine (erase_foldl (fun t a => ?_) _ _).trans ?_) | (refine (erase_foldl1 (fun t a => ?_) _ _).trans ?_) | split)

theorem execSmbusTimeout_erase (s : State) {mk : Nat} (hk : 0xa00000000000 &&& mk = 0xa00000000000) (tx : State) (ex : (execSmbusTimeout s) = .next tx) : tx.erase mk = s.erase mk := by
  unfold execSmbusTimeout done at ex
  injection ex with ex
  subst ex
  repeat' (first | with_reducible rfl | with_reducible refine erase_ite ?_ ?_ | simp (disch := exact sub_trans rfl hk) only [↓put_readback_nak, apply_ite (State.erase mk), ite_self] | (refine (erase_foldl (fun t a => ?_) _ _).trans ?_) | (refine (erase_foldl1 (fun t a => ?_) _ _).trans ?_) | split)

theorem execSmbusAlertResponse_erase (s : State) {mk : Nat} (hk : 0xa00000000000 &&& mk = 0xa00000000000) (tx : State) (ex : (execSmbusAlertResponse s) = .next tx) : tx.erase mk = s.erase mk := by
  unfold execSmbusAlertResponse done at ex
  injection ex with ex
  subst ex
  repeat' (first | with_reducible rfl | with_reducible refine erase_ite ?_ ?_ | simp (disch := exact sub_trans rfl hk) only [↓State.ack_erase, ↓put_readback, apply_ite (State.erase mk), ite_self] | (refine (erase_foldl (fun t a => ?_) _ _).trans ?_) | (refine (erase_foldl1 (fun t a => ?_) _ _).trans ?_) | split)

theorem dmaRegisters_erase (s : State) (o : ℕ) (bs : List Byte) {mk : Nat} (hk : 0x1062cbfe4fe3f &&& mk = 0x1062cbfe4fe3f) : ((dmaRegisters s o bs)).erase mk = s.erase mk := by
  unfold dmaRegisters
  repeat' (first | with_reducible rfl | with_reducible refine erase_ite ?_ ?_ | simp (disch := exact sub_trans rfl hk) only [↓regWrite_erase, ↓State.countIgnored_erase, apply_ite (State.erase mk), ite_self] | (refine (erase_foldl (fun t a => ?_) _ _).trans ?_) | (refine (erase_foldl1 (fun t a => ?_) _ _).trans ?_) | split)

theorem dmaHost_erase (s : State) (h : ℕ) (bs : List Byte) (mark : Bool) {mk : Nat} (hk : 0x20080000000 &&& mk = 0x20080000000) : ((dmaHost s h bs mark)).erase mk = s.erase mk := by
  unfold dmaHost
  repeat' (first | with_reducible rfl | with_reducible refine erase_ite ?_ ?_ | simp (disch := exact sub_trans rfl hk) only [↓State.hostStore_erase, ↓put_pci, apply_ite (State.erase mk), ite_self] | (refine (erase_foldl (fun t a => ?_) _ _).trans ?_) | (refine (erase_foldl1 (fun t a => ?_) _ _).trans ?_) | split)

theorem dmaPiece_erase (s : State) (a : ℕ) (bs : List Byte) (mark : Bool) {mk : Nat} (hk : 0x1062cbfe4fe3f &&& mk = 0x1062cbfe4fe3f) : ((dmaPiece s a bs mark)).erase mk = s.erase mk := by
  unfold dmaPiece
  repeat' (first | with_reducible rfl | with_reducible refine erase_ite ?_ ?_ | simp (disch := exact sub_trans rfl hk) only [↓State.store_erase, ↓dmaRegisters_erase, ↓dmaHost_erase, apply_ite (State.erase mk), ite_self] | (refine (erase_foldl (fun t a => ?_) _ _).trans ?_) | (refine (erase_foldl1 (fun t a => ?_) _ _).trans ?_) | split)

theorem dmaRow_erase (s : State) (host : HostData) (src : ℕ) (dst : ℕ) (n : ℕ) {mk : Nat} (hk : 0x1062cbfe4fe3f &&& mk = 0x1062cbfe4fe3f) : ((dmaRow s host src dst n)).erase mk = s.erase mk := by
  unfold dmaRow
  repeat' (first | with_reducible rfl | with_reducible refine erase_ite ?_ ?_ | simp (disch := exact sub_trans rfl hk) only [↓dmaPiece_erase, apply_ite (State.erase mk), ite_self] | (refine (erase_foldl (fun t a => ?_) _ _).trans ?_) | (refine (erase_foldl1 (fun t a => ?_) _ _).trans ?_) | split)

theorem rejectDma_erase (s : State) (p : ℕ) (nextJob : ℕ) {mk : Nat} (hk : 0x240000 &&& mk = 0x240000) : ((rejectDma s p nextJob)).erase mk = s.erase mk := by
  unfold rejectDma
  repeat' (first | with_reducible rfl | with_reducible refine erase_ite ?_ ?_ | simp (disch := exact sub_trans rfl hk) only [↓complete_erase, ↓State.modEngine_erase, apply_ite (State.erase mk), ite_self] | (refine (erase_foldl (fun t a => ?_) _ _).trans ?_) | (refine (erase_foldl1 (fun t a => ?_) _ _).trans ?_) | split)

theorem issueDma_erase (s : State) (p : ℕ) (cmd : List Byte) (nextJob : ℕ) {mk : Nat} (hk : 0x240000 &&& mk = 0x240000) : ((issueDma s p cmd nextJob)).erase mk = s.erase mk := by
  unfold issueDma
  repeat' (first | with_reducible rfl | with_reducible refine erase_ite ?_ ?_ | simp (disch := exact sub_trans rfl hk) only [↓State.modEngine_erase, ↓rejectDma_erase, apply_ite (State.erase mk), ite_self] | (refine (erase_foldl (fun t a => ?_) _ _).trans ?_) | (refine (erase_foldl1 (fun t a => ?_) _ _).trans ?_) | split)

theorem execDmaCommand_erase (p : ℕ) (cmd : List Byte) (nextJob : ℕ) (s : State) {mk : Nat} (hk : 0x240000 &&& mk = 0x240000) (tx : State) (ex : (execDmaCommand p cmd nextJob s) = .next tx) : tx.erase mk = s.erase mk := by
  unfold execDmaCommand done at ex
  injection ex with ex
  subst ex
  repeat' (first | with_reducible rfl | with_reducible refine erase_ite ?_ ?_ | simp (disch := exact sub_trans rfl hk) only [↓issueDma_erase, apply_ite (State.erase mk), ite_self] | (refine (erase_foldl (fun t a => ?_) _ _).trans ?_) | (refine (erase_foldl1 (fun t a => ?_) _ _).trans ?_) | split)

theorem forwardGroup_erase (s0 : State) (host : HostData) (p : ℕ) (c : DmaCmd) (s : State) (port : ℕ) {mk : Nat} (hk : 0xc0000 &&& mk = 0xc0000) : ((forwardGroup s0 host p c s port)).erase mk = s.erase mk := by
  unfold forwardGroup
  repeat' (first | with_reducible rfl | with_reducible refine erase_ite ?_ ?_ | simp (disch := exact sub_trans rfl hk) only [↓State.modEngine_erase, ↓put_halo, apply_ite (State.erase mk), ite_self] | (refine (erase_foldl (fun t a => ?_) _ _).trans ?_) | (refine (erase_foldl1 (fun t a => ?_) _ _).trans ?_) | split)

theorem dmaRows_erase (host : HostData) (till : ℕ) (c : DmaCmd) (y3 : ℕ) (y4 : ℕ) (y5 : State) {mk : Nat} (hk : 0x1063cbfe4fe3f &&& mk = 0x1063cbfe4fe3f) : (dmaRows host till c y3 y4 y5).1.erase mk = y5.erase mk := by
  induction y3 generalizing y4 y5 with
  | zero => rfl
  | succ k ih =>
    unfold dmaRows
    repeat' (first | with_reducible rfl | with_reducible refine erase_ite ?_ ?_ | simp (disch := exact sub_trans rfl hk) only [↓ih, ↓chargeTo_erase, ↓dmaRow_erase, apply_ite (State.erase mk), ite_self] | (refine (erase_foldl (fun t a => ?_) _ _).trans ?_) | (refine (erase_foldl1 (fun t a => ?_) _ _).trans ?_) | split)

theorem runDma_erase (s : State) (host : HostData) (p : ℕ) (till : ℕ) (c : DmaCmd) {mk : Nat} (hk : 0x1063cbfecfe3f &&& mk = 0x1063cbfecfe3f) : ((runDma s host p till c)).erase mk = s.erase mk := by
  unfold runDma
  repeat' (first | with_reducible rfl | with_reducible refine erase_ite ?_ ?_ | simp (disch := exact sub_trans rfl hk) only [↓dmaRows_erase, ↓forwardGroup_erase, ↓State.contained_erase, apply_ite (State.erase mk), ite_self] | (refine (erase_foldl (fun t a => ?_) _ _).trans ?_) | (refine (erase_foldl1 (fun t a => ?_) _ _).trans ?_) | split)

theorem nextDma_erase (s : State) (host : HostData) (p : ℕ) {mk : Nat} (hk : 0x1063cbfecfe3f &&& mk = 0x1063cbfecfe3f) : ((nextDma s host p)).erase mk = s.erase mk := by
  unfold nextDma
  repeat' (first | with_reducible rfl | with_reducible refine erase_ite ?_ ?_ | simp (disch := exact sub_trans rfl hk) only [↓settleHalt_erase, ↓runDma_erase, ↓State.modEngine_erase, apply_ite (State.erase mk), ite_self] | (refine (erase_foldl (fun t a => ?_) _ _).trans ?_) | (refine (erase_foldl1 (fun t a => ?_) _ _).trans ?_) | split)

theorem execDmaComplete_erase (p : ℕ) (s : State) {mk : Nat} (hk : 0x1063cbfecfe3f &&& mk = 0x1063cbfecfe3f) (tx : State) (ex : (execDmaComplete p s) = .next tx) : tx.erase mk = s.erase mk := by
  unfold execDmaComplete done at ex
  injection ex with ex
  subst ex
  repeat' (first | with_reducible rfl | with_reducible refine erase_ite ?_ ?_ | simp (disch := exact sub_trans rfl hk) only [↓nextDma_erase, apply_ite (State.erase mk), ite_self] | (refine (erase_foldl (fun t a => ?_) _ _).trans ?_) | (refine (erase_foldl1 (fun t a => ?_) _ _).trans ?_) | split)

theorem readFails_erase (s : State) {mk : Nat} (hk : 0x80000000 &&& mk = 0x80000000) : ((readFails s)).erase mk = s.erase mk := by
  unfold readFails
  repeat' (first | with_reducible rfl | with_reducible refine erase_ite ?_ ?_ | simp (disch := exact sub_trans rfl hk) only [↓put_pci, apply_ite (State.erase mk), ite_self] | (refine (erase_foldl (fun t a => ?_) _ _).trans ?_) | (refine (erase_foldl1 (fun t a => ?_) _ _).trans ?_) | split)

theorem hostReadFailure_erase (s : State) (y1 : HostAccess) {mk : Nat} (hk : 0x1063cbfecfe3f &&& mk = 0x1063cbfecfe3f) : ((hostReadFailure s y1)).erase mk = s.erase mk := by
  unfold hostReadFailure
  repeat' (first | with_reducible rfl | with_reducible refine erase_ite ?_ ?_ | simp (disch := exact sub_trans rfl hk) only [↓fetchTime_erase, ↓readFails_erase, ↓endPush_erase, ↓State.raise_erase, ↓nextDma_erase, ↓put_pci, apply_ite (State.erase mk), ite_self] | (refine (erase_foldl (fun t a => ?_) _ _).trans ?_) | (refine (erase_foldl1 (fun t a => ?_) _ _).trans ?_) | split)

theorem execHostReadFailure_erase (a : HostAccess) (s : State) {mk : Nat} (hk : 0x1063cbfecfe3f &&& mk = 0x1063cbfecfe3f) (tx : State) (ex : (execHostReadFailure a s) = .next tx) : tx.erase mk = s.erase mk := by
  unfold execHostReadFailure done at ex
  injection ex with ex
  subst ex
  repeat' (first | with_reducible rfl | with_reducible refine erase_ite ?_ ?_ | simp (disch := exact sub_trans rfl hk) only [↓hostReadFailure_erase, apply_ite (State.erase mk), ite_self] | (refine (erase_foldl (fun t a => ?_) _ _).trans ?_) | (refine (erase_foldl1 (fun t a => ?_) _ _).trans ?_) | split)

theorem execFlitCrcReplay_erase (b : ℕ) (lane : ℕ) (s : State) {mk : Nat} (hk : 0x4010000000 &&& mk = 0x4010000000) (tx : State) (ex : (execFlitCrcReplay b lane s) = .next tx) : tx.erase mk = s.erase mk := by
  unfold execFlitCrcReplay done at ex
  injection ex with ex
  subst ex
  repeat' (first | with_reducible rfl | with_reducible refine erase_ite ?_ ?_ | simp (disch := exact sub_trans rfl hk) only [↓State.corrected_erase, ↓State.modBridge_erase, apply_ite (State.erase mk), ite_self] | (refine (erase_foldl (fun t a => ?_) _ _).trans ?_) | (refine (erase_foldl1 (fun t a => ?_) _ _).trans ?_) | split)

theorem loseBridge_erase (s : State) (b : ℕ) {mk : Nat} (hk : 0x1046cb4e47a25 &&& mk = 0x1046cb4e47a25) : ((loseBridge s b)).erase mk = s.erase mk := by
  unfold loseBridge
  repeat' (first | with_reducible rfl | with_reducible refine erase_ite ?_ ?_ | simp (disch := exact sub_trans rfl hk) only [↓State.modBridge_erase, ↓State.fenceEvent_erase, ↓chipFatal_erase, apply_ite (State.erase mk), ite_self] | (refine (erase_foldl (fun t a => ?_) _ _).trans ?_) | (refine (erase_foldl1 (fun t a => ?_) _ _).trans ?_) | split)

theorem execBridgeLost_erase (b : ℕ) (s : State) {mk : Nat} (hk : 0x1046cb4e47a25 &&& mk = 0x1046cb4e47a25) (tx : State) (ex : (execBridgeLost b s) = .next tx) : tx.erase mk = s.erase mk := by
  unfold execBridgeLost done at ex
  injection ex with ex
  subst ex
  repeat' (first | with_reducible rfl | with_reducible refine erase_ite ?_ ?_ | simp (disch := exact sub_trans rfl hk) only [↓loseBridge_erase, apply_ite (State.erase mk), ite_self] | (refine (erase_foldl (fun t a => ?_) _ _).trans ?_) | (refine (erase_foldl1 (fun t a => ?_) _ _).trans ?_) | split)

theorem execLaneSpare_erase (b : ℕ) (lane : ℕ) (s : State) {mk : Nat} (hk : 0x4090000804 &&& mk = 0x4090000804) (tx : State) (ex : (execLaneSpare b lane s) = .next tx) : tx.erase mk = s.erase mk := by
  unfold execLaneSpare done at ex
  injection ex with ex
  subst ex
  repeat' (first | with_reducible rfl | with_reducible refine erase_ite ?_ ?_ | simp (disch := exact sub_trans rfl hk) only [↓State.fenceEvent_erase, ↓State.modBridge_erase, apply_ite (State.erase mk), ite_self] | (refine (erase_foldl (fun t a => ?_) _ _).trans ?_) | (refine (erase_foldl1 (fun t a => ?_) _ _).trans ?_) | split)

theorem execBridgeHalfWidth_erase (l : BridgeLane) (s : State) {mk : Nat} (hk : 0x1046cb4e47a25 &&& mk = 0x1046cb4e47a25) (tx : State) (ex : (execBridgeHalfWidth l s) = .next tx) : tx.erase mk = s.erase mk := by
  unfold execBridgeHalfWidth done at ex
  injection ex with ex
  subst ex
  repeat' (first | with_reducible rfl | with_reducible refine erase_ite ?_ ?_ | simp (disch := exact sub_trans rfl hk) only [↓loseBridge_erase, ↓State.fenceEvent_erase, ↓State.modBridge_erase, apply_ite (State.erase mk), ite_self] | (refine (erase_foldl (fun t a => ?_) _ _).trans ?_) | (refine (erase_foldl1 (fun t a => ?_) _ _).trans ?_) | split)

theorem markRow_erase (s : State) (n : ℕ) (row : ℕ) {mk : Nat} (hk : 0x1042cf4e47a25 &&& mk = 0x1042cf4e47a25) : ((markRow s n row)).erase mk = s.erase mk := by
  unfold markRow
  repeat' (first | with_reducible rfl | with_reducible refine erase_ite ?_ ?_ | simp (disch := exact sub_trans rfl hk) only [↓chipFatal_erase, ↓State.modDram_erase, apply_ite (State.erase mk), ite_self] | (refine (erase_foldl (fun t a => ?_) _ _).trans ?_) | (refine (erase_foldl1 (fun t a => ?_) _ _).trans ?_) | split)

theorem countRow_erase (s : State) (n : ℕ) (row : ℕ) {mk : Nat} (hk : 0x1042cf4e47a25 &&& mk = 0x1042cf4e47a25) : ((countRow s n row)).erase mk = s.erase mk := by
  unfold countRow
  repeat' (first | with_reducible rfl | with_reducible refine erase_ite ?_ ?_ | simp (disch := exact sub_trans rfl hk) only [↓State.modDram_erase, ↓markRow_erase, apply_ite (State.erase mk), ite_self] | (refine (erase_foldl (fun t a => ?_) _ _).trans ?_) | (refine (erase_foldl1 (fun t a => ?_) _ _).trans ?_) | split)

theorem dramRead_erase (s : State) (a : ℕ) (onDie : Bool) (ecc : Secded) {mk : Nat} (hk : 0x1042cf4e47a25 &&& mk = 0x1042cf4e47a25) : ((dramRead s a onDie ecc)).erase mk = s.erase mk := by
  unfold dramRead
  repeat' (first | with_reducible rfl | with_reducible refine erase_ite ?_ ?_ | simp (disch := exact sub_trans rfl hk) only [↓State.modDram_erase, ↓countRow_erase, ↓State.corrected_erase, ↓State.voidRange_erase, ↓markRow_erase, ↓State.contained_erase, apply_ite (State.erase mk), ite_self] | (refine (erase_foldl (fun t a => ?_) _ _).trans ?_) | (refine (erase_foldl1 (fun t a => ?_) _ _).trans ?_) | split)

end Sys2Proof.Machine
end

