-- ==== Sys2Proof/Laws/Frames6.lean ====
section
/-! SUPPORT. What each operation may write, as masks of parts (see Laws/Frame.lean): part 6, in the order of the model. -/

set_option linter.all false

namespace Sys2Proof.Machine
open State

theorem execDramScrub_erase (addr : ℕ) (onDie : Bool) (ecc : Secded) (s : State) {mk : Nat} (hk : 0x1042cf4e47a25 &&& mk = 0x1042cf4e47a25) (tx : State) (ex : (execDramScrub addr onDie ecc s) = .next tx) : tx.erase mk = s.erase mk := by
  unfold execDramScrub done at ex
  injection ex with ex
  subst ex
  repeat' (first | with_reducible rfl | with_reducible refine erase_ite ?_ ?_ | simp (disch := exact sub_trans rfl hk) only [↓dramRead_erase, apply_ite (State.erase mk), ite_self] | (refine (erase_foldl (fun t a => ?_) _ _).trans ?_) | (refine (erase_foldl1 (fun t a => ?_) _ _).trans ?_) | split)

theorem dieRead_erase (s : State) (a : ℕ) (unit_ : ℕ) (ecc : Secded) {mk : Nat} (hk : 0x40090000804 &&& mk = 0x40090000804) : ((dieRead s a unit_ ecc)).erase mk = s.erase mk := by
  unfold dieRead
  repeat' (first | with_reducible rfl | with_reducible refine erase_ite ?_ ?_ | simp (disch := exact sub_trans rfl hk) only [↓State.corrected_erase, ↓State.contained_erase, ↓State.voidRange_erase, apply_ite (State.erase mk), ite_self] | (refine (erase_foldl (fun t a => ?_) _ _).trans ?_) | (refine (erase_foldl1 (fun t a => ?_) _ _).trans ?_) | split)

theorem execRegionScrub_erase (area : ScrubArea) (addr : ℕ) (ecc : Secded) (s : State) {mk : Nat} (hk : 0x40090800804 &&& mk = 0x40090800804) (tx : State) (ex : (execRegionScrub area addr ecc s) = .next tx) : tx.erase mk = s.erase mk := by
  unfold execRegionScrub done at ex
  injection ex with ex
  subst ex
  repeat' (first | with_reducible rfl | with_reducible refine erase_ite ?_ ?_ | simp (disch := exact sub_trans rfl hk) only [↓dieRead_erase, ↓State.modClr_erase, apply_ite (State.erase mk), ite_self] | (refine (erase_foldl (fun t a => ?_) _ _).trans ?_) | (refine (erase_foldl1 (fun t a => ?_) _ _).trans ?_) | split)

theorem perform_erase (s : State) (op : MemOp) (parity : Bool) (unit_ : ℕ) {mk : Nat} (hk : 0x1062cf4e47a25 &&& mk = 0x1062cf4e47a25) : ((perform s op parity unit_)).erase mk = s.erase mk := by
  unfold perform
  repeat' (first | with_reducible rfl | with_reducible refine erase_ite ?_ ?_ | simp (disch := exact sub_trans rfl hk) only [↓dramRead_erase, ↓dieRead_erase, ↓State.voidRange_erase, ↓State.contained_erase, ↓State.store_erase, apply_ite (State.erase mk), ite_self] | (refine (erase_foldl (fun t a => ?_) _ _).trans ?_) | (refine (erase_foldl1 (fun t a => ?_) _ _).trans ?_) | split)

theorem notePanic_erase (s : State) (n : ℕ) (who : ℕ) (raised : Bool) {mk : Nat} (hk : 0x40000000 &&& mk = 0x40000000) : ((notePanic s n who raised)).erase mk = s.erase mk := by
  unfold notePanic
  repeat' (first | with_reducible rfl | with_reducible refine erase_ite ?_ ?_ | simp (disch := exact sub_trans rfl hk) only [↓State.modDram_erase, apply_ite (State.erase mk), ite_self] | (refine (erase_foldl (fun t a => ?_) _ _).trans ?_) | (refine (erase_foldl1 (fun t a => ?_) _ _).trans ?_) | split)

theorem execChipArbGrant_erase (port : ℕ) (reqs : List ArbReq) (parity : Bool) (s : State) {mk : Nat} (hk : 0x106acf4e47a25 &&& mk = 0x106acf4e47a25) (tx : State) (ex : (execChipArbGrant port reqs parity s) = .next tx) : tx.erase mk = s.erase mk := by
  unfold execChipArbGrant done at ex
  injection ex with ex
  subst ex
  repeat' (first | with_reducible rfl | with_reducible refine erase_ite ?_ ?_ | simp (disch := exact sub_trans rfl hk) only [↓notePanic_erase, ↓State.setArb_erase, ↓perform_erase, apply_ite (State.erase mk), ite_self] | (refine (erase_foldl (fun t a => ?_) _ _).trans ?_) | (refine (erase_foldl1 (fun t a => ?_) _ _).trans ?_) | split)

theorem execRegionXbarGrant_erase (g : ℕ) (port : ℕ) (reqs : List ArbReq) (parity : Bool) (s : State) {mk : Nat} (hk : 0x106acf4e47a25 &&& mk = 0x106acf4e47a25) (tx : State) (ex : (execRegionXbarGrant g port reqs parity s) = .next tx) : tx.erase mk = s.erase mk := by
  unfold execRegionXbarGrant done at ex
  injection ex with ex
  subst ex
  repeat' (first | with_reducible rfl | with_reducible refine erase_ite ?_ ?_ | simp (disch := exact sub_trans rfl hk) only [↓State.setArb_erase, ↓perform_erase, apply_ite (State.erase mk), ite_self] | (refine (erase_foldl (fun t a => ?_) _ _).trans ?_) | (refine (erase_foldl1 (fun t a => ?_) _ _).trans ?_) | split)

theorem execEngineBankGrant_erase (p : ℕ) (bank : ℕ) (reqs : List BankReq) (s : State) {mk : Nat} (hk : 0x60090040804 &&& mk = 0x60090040804) (tx : State) (ex : (execEngineBankGrant p bank reqs s) = .next tx) : tx.erase mk = s.erase mk := by
  unfold execEngineBankGrant done at ex
  injection ex with ex
  subst ex
  repeat' (first | with_reducible rfl | with_reducible refine erase_ite ?_ ?_ | simp (disch := exact sub_trans rfl hk) only [↓State.modEngine_erase, ↓dieRead_erase, ↓State.store_erase, apply_ite (State.erase mk), ite_self] | (refine (erase_foldl (fun t a => ?_) _ _).trans ?_) | (refine (erase_foldl1 (fun t a => ?_) _ _).trans ?_) | split)

theorem execPanicLimit_erase (n : ℕ) (port : ℕ) (s : State) {mk : Nat} (hk : 0x40000400 &&& mk = 0x40000400) (tx : State) (ex : (execPanicLimit n port s) = .next tx) : tx.erase mk = s.erase mk := by
  unfold execPanicLimit done at ex
  injection ex with ex
  subst ex
  repeat' (first | with_reducible rfl | with_reducible refine erase_ite ?_ ?_ | simp (disch := exact sub_trans rfl hk) only [↓State.atElapsed_erase, ↓State.modDram_erase, apply_ite (State.erase mk), ite_self] | (refine (erase_foldl (fun t a => ?_) _ _).trans ?_) | (refine (erase_foldl1 (fun t a => ?_) _ _).trans ?_) | split)

theorem execDramRefresh_erase (n : ℕ) (channel : ℕ) (bank : ℕ) (s : State) {mk : Nat} (hk : 0x40000000 &&& mk = 0x40000000) (tx : State) (ex : (execDramRefresh n channel bank s) = .next tx) : tx.erase mk = s.erase mk := by
  unfold execDramRefresh done at ex
  injection ex with ex
  subst ex
  repeat' (first | with_reducible rfl | with_reducible refine erase_ite ?_ ?_ | simp (disch := exact sub_trans rfl hk) only [↓State.modDram_erase, apply_ite (State.erase mk), ite_self] | (refine (erase_foldl (fun t a => ?_) _ _).trans ?_) | (refine (erase_foldl1 (fun t a => ?_) _ _).trans ?_) | split)

theorem execDramTempRead_erase (n : ℕ) (celsius : ℕ) (s : State) {mk : Nat} (hk : 0x40000400 &&& mk = 0x40000400) (tx : State) (ex : (execDramTempRead n celsius s) = .next tx) : tx.erase mk = s.erase mk := by
  unfold execDramTempRead done at ex
  injection ex with ex
  subst ex
  repeat' (first | with_reducible rfl | with_reducible refine erase_ite ?_ ?_ | simp (disch := exact sub_trans rfl hk) only [↓State.modDram_erase, ↓State.atMultiple_erase, apply_ite (State.erase mk), ite_self] | (refine (erase_foldl (fun t a => ?_) _ _).trans ?_) | (refine (erase_foldl1 (fun t a => ?_) _ _).trans ?_) | split)

theorem retrainCount_erase (s : State) (n : ℕ) (k : ℕ) (failed : Bool) {mk : Nat} (hk : 0x1042cf4e47a25 &&& mk = 0x1042cf4e47a25) : ((retrainCount s n k failed)).erase mk = s.erase mk := by
  unfold retrainCount
  repeat' (first | with_reducible rfl | with_reducible refine erase_ite ?_ ?_ | simp (disch := exact sub_trans rfl hk) only [↓State.modDram_erase, ↓chipFatal_erase, apply_ite (State.erase mk), ite_self] | (refine (erase_foldl (fun t a => ?_) _ _).trans ?_) | (refine (erase_foldl1 (fun t a => ?_) _ _).trans ?_) | split)

theorem execDramRetrain_erase (n : ℕ) (channel : ℕ) (lanesRepaired : ℕ) (failed0 : Bool) (failed1 : Bool) (s : State) {mk : Nat} (hk : 0x1042cf4e47a25 &&& mk = 0x1042cf4e47a25) (tx : State) (ex : (execDramRetrain n channel lanesRepaired failed0 failed1 s) = .next tx) : tx.erase mk = s.erase mk := by
  unfold execDramRetrain done at ex
  injection ex with ex
  subst ex
  repeat' (first | with_reducible rfl | with_reducible refine erase_ite ?_ ?_ | simp (disch := exact sub_trans rfl hk) only [↓State.modDram_erase, ↓State.fenceEvent_erase, ↓retrainCount_erase, apply_ite (State.erase mk), ite_self] | (refine (erase_foldl (fun t a => ?_) _ _).trans ?_) | (refine (erase_foldl1 (fun t a => ?_) _ _).trans ?_) | split)

theorem execSoftRepair_erase (n : ℕ) (row : ℕ) (s : State) {mk : Nat} (hk : 0x40000000 &&& mk = 0x40000000) (tx : State) (ex : (execSoftRepair n row s) = .next tx) : tx.erase mk = s.erase mk := by
  unfold execSoftRepair done at ex
  injection ex with ex
  subst ex
  repeat' (first | with_reducible rfl | with_reducible refine erase_ite ?_ ?_ | simp (disch := exact sub_trans rfl hk) only [↓State.modDram_erase, apply_ite (State.erase mk), ite_self] | (refine (erase_foldl (fun t a => ?_) _ _).trans ?_) | (refine (erase_foldl1 (fun t a => ?_) _ _).trans ?_) | split)

theorem execSoftRepairComplete_erase (n : ℕ) (row : ℕ) (s : State) {mk : Nat} (hk : 0x40000020 &&& mk = 0x40000020) (tx : State) (ex : (execSoftRepairComplete n row s) = .next tx) : tx.erase mk = s.erase mk := by
  unfold execSoftRepairComplete done at ex
  injection ex with ex
  subst ex
  repeat' (first | with_reducible rfl | with_reducible refine erase_ite ?_ ?_ | simp (disch := exact sub_trans rfl hk) only [↓writeUnitMap_erase, ↓State.modDram_erase, apply_ite (State.erase mk), ite_self] | (refine (erase_foldl (fun t a => ?_) _ _).trans ?_) | (refine (erase_foldl1 (fun t a => ?_) _ _).trans ?_) | split)

theorem emitSlice_erase (s : State) (o : Output) (x : Source) {mk : Nat} (hk : 0x6000800 &&& mk = 0x6000800) : ((emitSlice s o x)).erase mk = s.erase mk := by
  unfold emitSlice
  repeat' (first | with_reducible rfl | with_reducible refine erase_ite ?_ ?_ | simp (disch := exact sub_trans rfl hk) only [↓State.modEncoder_erase, ↓State.encRecord_erase, ↓put_evidence, apply_ite (State.erase mk), ite_self] | (refine (erase_foldl (fun t a => ?_) _ _).trans ?_) | (refine (erase_foldl1 (fun t a => ?_) _ _).trans ?_) | split)

theorem execSliceEmit_erase (n : ℕ) (ident : ℕ) (row : ℕ) (s : State) {mk : Nat} (hk : 0x6000800 &&& mk = 0x6000800) (tx : State) (ex : (execSliceEmit n ident row s) = .next tx) : tx.erase mk = s.erase mk := by
  unfold execSliceEmit done at ex
  injection ex with ex
  subst ex
  repeat' (first | with_reducible rfl | with_reducible refine erase_ite ?_ ?_ | simp (disch := exact sub_trans rfl hk) only [↓emitSlice_erase, apply_ite (State.erase mk), ite_self] | (refine (erase_foldl (fun t a => ?_) _ _).trans ?_) | (refine (erase_foldl1 (fun t a => ?_) _ _).trans ?_) | split)

theorem kindRequest_erase (kind : ℕ) (req : List Byte) (s : State) {mk : Nat} (hk : 0x1000806003800 &&& mk = 0x1000806003800) : ((kindRequest kind req s)).erase mk = s.erase mk := by
  unfold kindRequest
  repeat' (first | with_reducible rfl | with_reducible refine erase_ite ?_ ?_ | simp (disch := exact sub_trans rfl hk) only [↓takeEvidence_erase, apply_ite (State.erase mk), ite_self] | (refine (erase_foldl (fun t a => ?_) _ _).trans ?_) | (refine (erase_foldl1 (fun t a => ?_) _ _).trans ?_) | split)

theorem execClipRequest_erase (req : List Byte) (_src : Src) (s : State) {mk : Nat} (hk : 0x1000806003800 &&& mk = 0x1000806003800) (tx : State) (ex : (execClipRequest req _src s) = .next tx) : tx.erase mk = s.erase mk := by
  unfold execClipRequest done at ex
  injection ex with ex
  subst ex
  repeat' (first | with_reducible rfl | with_reducible refine erase_ite ?_ ?_ | simp (disch := exact sub_trans rfl hk) only [↓kindRequest_erase, apply_ite (State.erase mk), ite_self] | (refine (erase_foldl (fun t a => ?_) _ _).trans ?_) | (refine (erase_foldl1 (fun t a => ?_) _ _).trans ?_) | split)

theorem execLiveViewStart_erase (req : List Byte) (_src : Src) (s : State) {mk : Nat} (hk : 0x1000806003800 &&& mk = 0x1000806003800) (tx : State) (ex : (execLiveViewStart req _src s) = .next tx) : tx.erase mk = s.erase mk := by
  unfold execLiveViewStart done at ex
  injection ex with ex
  subst ex
  repeat' (first | with_reducible rfl | with_reducible refine erase_ite ?_ ?_ | simp (disch := exact sub_trans rfl hk) only [↓kindRequest_erase, apply_ite (State.erase mk), ite_self] | (refine (erase_foldl (fun t a => ?_) _ _).trans ?_) | (refine (erase_foldl1 (fun t a => ?_) _ _).trans ?_) | split)

theorem execLiveViewStop_erase (req : List Byte) (_src : Src) (s : State) {mk : Nat} (hk : 0x1000806003800 &&& mk = 0x1000806003800) (tx : State) (ex : (execLiveViewStop req _src s) = .next tx) : tx.erase mk = s.erase mk := by
  unfold execLiveViewStop done at ex
  injection ex with ex
  subst ex
  repeat' (first | with_reducible rfl | with_reducible refine erase_ite ?_ ?_ | simp (disch := exact sub_trans rfl hk) only [↓kindRequest_erase, apply_ite (State.erase mk), ite_self] | (refine (erase_foldl (fun t a => ?_) _ _).trans ?_) | (refine (erase_foldl1 (fun t a => ?_) _ _).trans ?_) | split)

theorem execClipStart_erase (s : State) {mk : Nat} (hk : 0x1000806003800 &&& mk = 0x1000806003800) (tx : State) (ex : (execClipStart s) = .next tx) : tx.erase mk = s.erase mk := by
  unfold execClipStart done at ex
  injection ex with ex
  subst ex
  repeat' (first | with_reducible rfl | with_reducible refine erase_ite ?_ ?_ | simp (disch := exact sub_trans rfl hk) only [↓clipTurn_erase, apply_ite (State.erase mk), ite_self] | (refine (erase_foldl (fun t a => ?_) _ _).trans ?_) | (refine (erase_foldl1 (fun t a => ?_) _ _).trans ?_) | split)

theorem execClipComplete_erase (n : ℕ) (ident : ℕ) (s : State) {mk : Nat} (hk : 0x6001800 &&& mk = 0x6001800) (tx : State) (ex : (execClipComplete n ident s) = .next tx) : tx.erase mk = s.erase mk := by
  unfold execClipComplete done at ex
  injection ex with ex
  subst ex
  repeat' (first | with_reducible rfl | with_reducible refine erase_ite ?_ ?_ | simp (disch := exact sub_trans rfl hk) only [↓completeClip_erase, apply_ite (State.erase mk), ite_self] | (refine (erase_foldl (fun t a => ?_) _ _).trans ?_) | (refine (erase_foldl1 (fun t a => ?_) _ _).trans ?_) | split)

theorem stopReplay_erase (s : State) (ident : ℕ) {mk : Nat} (hk : 0x8b8003a04 &&& mk = 0x8b8003a04) : ((stopReplay s ident)).erase mk = s.erase mk := by
  unfold stopReplay
  repeat' (first | with_reducible rfl | with_reducible refine erase_ite ?_ ?_ | simp (disch := exact sub_trans rfl hk) only [↓decLeave_erase, ↓State.modDec_erase, apply_ite (State.erase mk), ite_self] | (refine (erase_foldl (fun t a => ?_) _ _).trans ?_) | (refine (erase_foldl1 (fun t a => ?_) _ _).trans ?_) | split)

theorem moveView_erase (s : State) (o : Output) {mk : Nat} (hk : 0x4000800 &&& mk = 0x4000800) : ((moveView s o)).erase mk = s.erase mk := by
  unfold moveView
  repeat' (first | with_reducible rfl | with_reducible refine erase_ite ?_ ?_ | simp (disch := exact sub_trans rfl hk) only [↓State.encRecord_erase, ↓put_evidence, apply_ite (State.erase mk), ite_self] | (refine (erase_foldl (fun t a => ?_) _ _).trans ?_) | (refine (erase_foldl1 (fun t a => ?_) _ _).trans ?_) | split)

theorem moveClip_erase (s : State) (o : Output) {mk : Nat} (hk : 0x4000000 &&& mk = 0x4000000) : ((moveClip s o)).erase mk = s.erase mk := by
  unfold moveClip
  repeat' (first | with_reducible rfl | with_reducible refine erase_ite ?_ ?_ | simp (disch := exact sub_trans rfl hk) only [↓put_evidence, apply_ite (State.erase mk), ite_self] | (refine (erase_foldl (fun t a => ?_) _ _).trans ?_) | (refine (erase_foldl1 (fun t a => ?_) _ _).trans ?_) | split)

theorem moveOutput_erase (s : State) (o : Output) {mk : Nat} (hk : 0x8bc003a04 &&& mk = 0x8bc003a04) : ((moveOutput s o)).erase mk = s.erase mk := by
  unfold moveOutput
  repeat' (first | with_reducible rfl | with_reducible refine erase_ite ?_ ?_ | simp (disch := exact sub_trans rfl hk) only [↓moveView_erase, ↓moveClip_erase, ↓stopReplay_erase, ↓put_evidence, apply_ite (State.erase mk), ite_self] | (refine (erase_foldl (fun t a => ?_) _ _).trans ?_) | (refine (erase_foldl1 (fun t a => ?_) _ _).trans ?_) | split)

theorem fenceEncoder_erase (s : State) (n : ℕ) {mk : Nat} (hk : 0x10008be003a04 &&& mk = 0x10008be003a04) : ((fenceEncoder s n)).erase mk = s.erase mk := by
  unfold fenceEncoder
  repeat' (first | with_reducible rfl | with_reducible refine erase_ite ?_ ?_ | simp (disch := exact sub_trans rfl hk) only [↓State.modEncoder_erase, ↓moveOutput_erase, ↓dispatch_erase, ↓State.fenceEvent_erase, apply_ite (State.erase mk), ite_self] | (refine (erase_foldl (fun t a => ?_) _ _).trans ?_) | (refine (erase_foldl1 (fun t a => ?_) _ _).trans ?_) | split)

theorem execEncoderAssay_erase (n : ℕ) (pass : Bool) (s : State) {mk : Nat} (hk : 0x10008be003e04 &&& mk = 0x10008be003e04) (tx : State) (ex : (execEncoderAssay n pass s) = .next tx) : tx.erase mk = s.erase mk := by
  unfold execEncoderAssay done at ex
  injection ex with ex
  subst ex
  repeat' (first | with_reducible rfl | with_reducible refine erase_ite ?_ ?_ | simp (disch := exact sub_trans rfl hk) only [↓State.atElapsed_erase, ↓State.modEncoder_erase, ↓State.emit_erase, ↓fenceEncoder_erase, apply_ite (State.erase mk), ite_self] | (refine (erase_foldl (fun t a => ?_) _ _).trans ?_) | (refine (erase_foldl1 (fun t a => ?_) _ _).trans ?_) | split)

theorem runSummary_erase (s : State) (r : Option Rec) (n : ℕ) {mk : Nat} (hk : 0x800 &&& mk = 0x800) : ((runSummary s r n)).erase mk = s.erase mk := by
  unfold runSummary
  repeat' (first | with_reducible rfl | with_reducible refine erase_ite ?_ ?_ | simp (disch := exact sub_trans rfl hk) only [↓State.emit_erase, apply_ite (State.erase mk), ite_self] | (refine (erase_foldl (fun t a => ?_) _ _).trans ?_) | (refine (erase_foldl1 (fun t a => ?_) _ _).trans ?_) | split)

theorem ingestSummary_erase (s : State) (type : ℕ) (n : ℕ) (status : ℕ) (count : ℕ) {mk : Nat} (hk : 0x800 &&& mk = 0x800) : ((ingestSummary s type n status count)).erase mk = s.erase mk := by
  unfold ingestSummary
  repeat' (first | with_reducible rfl | with_reducible refine erase_ite ?_ ?_ | simp (disch := exact sub_trans rfl hk) only [↓State.streamRecord_erase, apply_ite (State.erase mk), ite_self] | (refine (erase_foldl (fun t a => ?_) _ _).trans ?_) | (refine (erase_foldl1 (fun t a => ?_) _ _).trans ?_) | split)

theorem streamSecond_erase (s : State) (n : ℕ) {mk : Nat} (hk : 0x1800 &&& mk = 0x1800) : ((streamSecond s n)).erase mk = s.erase mk := by
  unfold streamSecond
  repeat' (first | with_reducible rfl | with_reducible refine erase_ite ?_ ?_ | simp (disch := exact sub_trans rfl hk) only [↓runSummary_erase, ↓ingestSummary_erase, ↓State.modStream_erase, apply_ite (State.erase mk), ite_self] | (refine (erase_foldl (fun t a => ?_) _ _).trans ?_) | (refine (erase_foldl1 (fun t a => ?_) _ _).trans ?_) | split)

theorem shedSecond_erase (s : State) (a : ℕ) {mk : Nat} (hk : 0x4800 &&& mk = 0x4800) : ((shedSecond s a)).erase mk = s.erase mk := by
  unfold shedSecond
  repeat' (first | with_reducible rfl | with_reducible refine erase_ite ?_ ?_ | simp (disch := exact sub_trans rfl hk) only [↓State.modAcct_erase, ↓State.emit_erase, apply_ite (State.erase mk), ite_self] | (refine (erase_foldl (fun t a => ?_) _ _).trans ?_) | (refine (erase_foldl1 (fun t a => ?_) _ _).trans ?_) | split)

theorem fullSecond_erase (s : State) {mk : Nat} (hk : 0x1000800 &&& mk = 0x1000800) : ((fullSecond s)).erase mk = s.erase mk := by
  unfold fullSecond
  repeat' (first | with_reducible rfl | with_reducible refine erase_ite ?_ ?_ | simp (disch := exact sub_trans rfl hk) only [↓State.emit_erase, ↓put_ledger, apply_ite (State.erase mk), ite_self] | (refine (erase_foldl (fun t a => ?_) _ _).trans ?_) | (refine (erase_foldl1 (fun t a => ?_) _ _).trans ?_) | split)

theorem missedSecond_erase (s : State) (n : ℕ) {mk : Nat} (hk : 0x2000800 &&& mk = 0x2000800) : ((missedSecond s n)).erase mk = s.erase mk := by
  unfold missedSecond
  repeat' (first | with_reducible rfl | with_reducible refine erase_ite ?_ ?_ | simp (disch := exact sub_trans rfl hk) only [↓State.encRecord_erase, ↓State.modEncoder_erase, apply_ite (State.erase mk), ite_self] | (refine (erase_foldl (fun t a => ?_) _ _).trans ?_) | (refine (erase_foldl1 (fun t a => ?_) _ _).trans ?_) | split)

theorem correctedSecond_erase (s : State) {mk : Nat} (hk : 0x10000800 &&& mk = 0x10000800) : ((correctedSecond s)).erase mk = s.erase mk := by
  unfold correctedSecond
  repeat' (first | with_reducible rfl | with_reducible refine erase_ite ?_ ?_ | simp (disch := exact sub_trans rfl hk) only [↓State.emit_erase, ↓put_flt, apply_ite (State.erase mk), ite_self] | (refine (erase_foldl (fun t a => ?_) _ _).trans ?_) | (refine (erase_foldl1 (fun t a => ?_) _ _).trans ?_) | split)

theorem untrustedSecond_erase (s : State) (z : ℕ) {mk : Nat} (hk : 0x20000800 &&& mk = 0x20000800) : ((untrustedSecond s z)).erase mk = s.erase mk := by
  unfold untrustedSecond
  repeat' (first | with_reducible rfl | with_reducible refine erase_ite ?_ ?_ | simp (disch := exact sub_trans rfl hk) only [↓State.modZone_erase, ↓State.safRecord_erase, apply_ite (State.erase mk), ite_self] | (refine (erase_foldl (fun t a => ?_) _ _).trans ?_) | (refine (erase_foldl1 (fun t a => ?_) _ _).trans ?_) | split)

theorem linkSecond_erase (s : State) {mk : Nat} (hk : 0x200000800 &&& mk = 0x200000800) : ((linkSecond s)).erase mk = s.erase mk := by
  unfold linkSecond
  repeat' (first | with_reducible rfl | with_reducible refine erase_ite ?_ ?_ | simp (disch := exact sub_trans rfl hk) only [↓State.emit_erase, ↓put_lnk, apply_ite (State.erase mk), ite_self] | (refine (erase_foldl (fun t a => ?_) _ _).trans ?_) | (refine (erase_foldl1 (fun t a => ?_) _ _).trans ?_) | split)

theorem secondSummary_erase (s : State) {mk : Nat} (hk : 0x233005c00 &&& mk = 0x233005c00) : ((secondSummary s)).erase mk = s.erase mk := by
  unfold secondSummary
  repeat' (first | with_reducible rfl | with_reducible refine erase_ite ?_ ?_ | simp (disch := exact sub_trans rfl hk) only [↓State.atElapsed_erase, ↓streamSecond_erase, ↓shedSecond_erase, ↓missedSecond_erase, ↓fullSecond_erase, ↓correctedSecond_erase, ↓linkSecond_erase, ↓untrustedSecond_erase, ↓put_journal, apply_ite (State.erase mk), ite_self] | (refine (erase_foldl (fun t a => ?_) _ _).trans ?_) | (refine (erase_foldl1 (fun t a => ?_) _ _).trans ?_) | split)

theorem execSecondSummary_erase (s : State) {mk : Nat} (hk : 0x233005c00 &&& mk = 0x233005c00) (tx : State) (ex : (execSecondSummary s) = .next tx) : tx.erase mk = s.erase mk := by
  unfold execSecondSummary done at ex
  injection ex with ex
  subst ex
  repeat' (first | with_reducible rfl | with_reducible refine erase_ite ?_ ?_ | simp (disch := exact sub_trans rfl hk) only [↓secondSummary_erase, apply_ite (State.erase mk), ite_self] | (refine (erase_foldl (fun t a => ?_) _ _).trans ?_) | (refine (erase_foldl1 (fun t a => ?_) _ _).trans ?_) | split)

end Sys2Proof.Machine
end

