-- ==== Sys2Proof/Laws/Table.lean ====
section
/-! SUPPORT. The laws of sparse tables: what is read after a write, and that writes keep the canonical form. -/

namespace Sys2Proof.Machine

variable {α : Type}

/-- What a table of defaults reads as. -/
@[simp] theorem Table.get_nil (d : α) (k : Nat) : Table.get d k [] = d := rfl

/-- The head entry is read at its own key. -/
theorem Table.get_cons (d : α) (k j : Nat) (v : α) (r : Table α) :
    Table.get d k ((j, v) :: r) = if k = j then v else Table.get d k r := rfl

/-- A key below every listed key reads as the default. -/
theorem Table.get_above (d : α) (k : Nat) (t : Table α) (h : Table.above k t = true) : Table.get d k t = d := by
  induction t with
  | nil => rfl
  | cons e r ih =>
    obtain ⟨j, v⟩ := e
    simp only [Table.above, List.all_cons, Bool.and_eq_true, decide_eq_true_eq] at h
    rw [Table.get_cons, if_neg (Nat.ne_of_lt h.1)]
    exact ih h.2

/-- A bound below another is a bound. -/
theorem Table.above_mono {j k : Nat} (hjk : j ≤ k) (t : Table α) (h : Table.above k t = true) : Table.above j t = true := by
  simp only [Table.above, List.all_eq_true, decide_eq_true_eq] at *
  exact fun e he => Nat.lt_of_le_of_lt hjk (h e he)

variable [DecidableEq α]

/-- A write lists no key at or below a bound below it. -/
theorem Table.above_set (d : α) (j k : Nat) (v : α) (t : Table α) (hk : j < k) (h : Table.above j t = true) :
    Table.above j (Table.set d k v t) = true := by
  induction t with
  | nil => unfold Table.set; split <;> simp [Table.above, hk]
  | cons e r ih =>
    obtain ⟨i, u⟩ := e
    simp only [Table.above, List.all_cons, Bool.and_eq_true, decide_eq_true_eq] at h ih ⊢
    unfold Table.set
    split
    · split
      · exact ih h.2
      · simp [h.2, hk]
    · split
      · simp [h.1, h.2, hk]
      · simp [h.1, ih h.2]

/-- Writing the default under a key below every listed one changes nothing. -/
theorem Table.set_default (d : α) (k : Nat) (t : Table α) (h : Table.above k t = true) : Table.set d k d t = t := by
  induction t with
  | nil => simp [Table.set]
  | cons e r ih =>
    obtain ⟨i, u⟩ := e
    simp only [Table.above, List.all_cons, Bool.and_eq_true, decide_eq_true_eq] at h ih
    unfold Table.set
    rw [if_neg (Nat.ne_of_lt h.1), if_neg (fun c => c.2 rfl), ih h.2]

/-- A write keeps the canonical form. -/
theorem Table.wf_set (d : α) (k : Nat) (v : α) (t : Table α) (h : Table.wf d t = true) :
    Table.wf d (Table.set d k v t) = true := by
  induction t with
  | nil => unfold Table.set; split <;> simp_all [Table.wf, Table.above]
  | cons e r ih =>
    obtain ⟨j, u⟩ := e
    have h0 := h
    simp only [Table.wf, Bool.and_eq_true, decide_eq_true_eq] at h
    unfold Table.set
    split
    · rename_i hkj
      subst hkj
      split
      · exact ih h.2
      · rename_i hv
        simp only [Table.wf, Bool.and_eq_true, decide_eq_true_eq]
        exact ⟨⟨hv, h.1.2⟩, h.2⟩
    · split
      · rename_i hkj
        have ha := Table.above_mono (Nat.le_of_lt hkj.1) r h.1.2
        have hc : Table.above k ((j, u) :: r) = true := by
          simp only [Table.above, List.all_cons, Bool.and_eq_true, decide_eq_true_eq] at ha ⊢
          exact ⟨hkj.1, ha⟩
        simp only [Table.wf, Bool.and_eq_true, decide_eq_true_eq]
        exact ⟨⟨hkj.2, hc⟩, ⟨h.1, h.2⟩⟩
      · rename_i hne hc
        by_cases hjk : j < k
        · simp only [Table.wf, Bool.and_eq_true, decide_eq_true_eq]
          exact ⟨⟨h.1.1, Table.above_set d j k v r hjk h.1.2⟩, ih h.2⟩
        · have hkj : k < j := by omega
          have hv : v = d := by
            by_contra hv
            exact hc ⟨hkj, hv⟩
          rw [hv, Table.set_default d k r (Table.above_mono (Nat.le_of_lt hkj) r h.1.2)]
          exact h0

/-- What is written is what is read. -/
@[simp] theorem Table.get_set_self (d : α) (k : Nat) (v : α) (t : Table α) : Table.get d k (Table.set d k v t) = v := by
  induction t with
  | nil => unfold Table.set; split <;> simp_all [Table.get]
  | cons e r ih =>
    obtain ⟨j, u⟩ := e
    unfold Table.set
    split
    · split
      · exact ih
      · simp [Table.get]
    · rename_i hkj
      split
      · simp [Table.get]
      · rw [Table.get_cons, if_neg hkj]
        exact ih

/-- A write leaves every other key alone. -/
theorem Table.get_set_ne (d : α) (j k : Nat) (v : α) (t : Table α) (hjk : j ≠ k) :
    Table.get d j (Table.set d k v t) = Table.get d j t := by
  induction t with
  | nil => unfold Table.set; split <;> simp [Table.get, hjk]
  | cons e r ih =>
    obtain ⟨i, u⟩ := e
    unfold Table.set
    split
    · rename_i hki
      subst hki
      split
      · simp [Table.get, hjk, ih]
      · simp [Table.get, hjk]
    · split
      · simp [Table.get, hjk]
      · simp only [Table.get, ih]

/-- What any key reads after a write. -/
theorem Table.get_set (d : α) (j k : Nat) (v : α) (t : Table α) :
    Table.get d j (Table.set d k v t) = if j = k then v else Table.get d j t := by
  split
  · rename_i h
    rw [h, Table.get_set_self]
  · rename_i h
    exact Table.get_set_ne d j k v t h

/-- Entries dropped from a canonical table leave a canonical one. -/
theorem Table.wf_filter (d : α) (f : Nat × α → Bool) (t : Table α) (h : Table.wf d t = true) :
    Table.wf d (t.filter f) = true := by
  induction t with
  | nil => exact h
  | cons e r ih =>
    obtain ⟨j, u⟩ := e
    simp only [Table.wf, Bool.and_eq_true, decide_eq_true_eq] at h
    rw [List.filter_cons]
    split
    · simp only [Table.wf, Bool.and_eq_true, decide_eq_true_eq]
      refine ⟨⟨h.1.1, ?_⟩, ih h.2⟩
      have h2 := h.1.2
      simp only [Table.above, List.all_eq_true, decide_eq_true_eq] at h2 ⊢
      exact fun e he => h2 e (List.mem_of_mem_filter he)
    · exact ih h.2

end Sys2Proof.Machine
end

