-- ==== Sys2Proof/Laws/Memory.lean ====
section
/-! SUPPORT. The laws of device memory: read after write, what a store leaves alone, and that stores keep the canonical
form. -/

namespace Sys2Proof.Machine

/-- A write keeps the canonical form. -/
theorem memWrite_wf (m : List Host.Cell) (a : Nat) (bs : List Byte) (h : Memory.wf m = true) :
    Memory.wf (memWrite m a bs) = true := by
  induction bs generalizing m a with
  | nil => exact h
  | cons b bs ih => exact ih _ _ (Table.wf_set _ _ _ _ h)

/-- A write leaves every byte outside its range alone. -/
theorem memWrite_get_outside (m : List Host.Cell) (a j : Nat) (bs : List Byte) (h : j < a ∨ a + bs.length ≤ j) :
    Table.get 0#8 j (memWrite m a bs) = Table.get 0#8 j m := by
  induction bs generalizing m a with
  | nil => rfl
  | cons b bs ih =>
    rw [List.length_cons] at h
    unfold memWrite
    rw [ih _ _ (by omega), Table.get_set_ne _ _ _ _ _ (by omega)]

/-- A written byte is what is read. -/
theorem memWrite_get_inside (m : List Host.Cell) (a i : Nat) (bs : List Byte) (h : i < bs.length) :
    Table.get 0#8 (a + i) (memWrite m a bs) = bs[i] := by
  induction bs generalizing m a i with
  | nil => exact absurd h (Nat.not_lt_zero i)
  | cons b bs ih =>
    unfold memWrite
    cases i with
    | zero =>
      rw [memWrite_get_outside _ _ _ _ (by omega)]
      exact Table.get_set_self _ _ _ _
    | succ i =>
      have := ih (Table.set 0#8 a b m) (a + 1) i (by simpa using h)
      rw [show a + (i + 1) = a + 1 + i by omega, this]
      rfl

/-- Everything a store does to memory. -/
theorem State.store_mem (s : State) (a : Nat) (bs : List Byte) (mark : Bool) : (s.store a bs mark).mem = memWrite s.mem a bs := rfl

/-- A store leaves every byte outside its range alone. -/
theorem State.store_byte_outside (s : State) (a j : Nat) (bs : List Byte) (mark : Bool) (h : j < a ∨ a + bs.length ≤ j) :
    (s.store a bs mark).byte j = s.byte j := memWrite_get_outside s.mem a j bs h

/-- A stored byte is what is read. -/
theorem State.store_byte_inside (s : State) (a i : Nat) (bs : List Byte) (mark : Bool) (h : i < bs.length) :
    (s.store a bs mark).byte (a + i) = bs[i] := memWrite_get_inside s.mem a i bs h

/-- A store keeps the canonical form. -/
theorem State.store_memWf (s : State) (a : Nat) (bs : List Byte) (mark : Bool) (w : Memory.wf s.mem = true) :
    Memory.wf (s.store a bs mark).mem = true := memWrite_wf s.mem a bs w

/-- One engine's bytes copied over another's keep the canonical form. -/
theorem foldl_set_wf {β : Type} (f : β → Nat) (g : β → Byte) (l : List β) (m : List Host.Cell) (h : Memory.wf m = true) :
    Memory.wf (l.foldl (fun a c => Table.set 0#8 (f c) (g c) a) m) = true := by
  induction l generalizing m with
  | nil => exact h
  | cons c l ih => exact ih _ (Table.wf_set _ _ _ _ h)

/-- Cells dropped from canonical memory leave canonical memory. -/
theorem filter_memWf (f : Host.Cell → Bool) (m : List Host.Cell) (h : Memory.wf m = true) : Memory.wf (m.filter f) = true :=
  Table.wf_filter 0#8 f m h

/-- A granule joins a rising list in its place. -/
theorem insertGranule_all (P : Nat → Prop) (g : Nat) (l : List Nat) (hg : P g) (hl : ∀ x ∈ l, P x) : ∀ x ∈ insertGranule g l, P x := by
  induction l with
  | nil => intro x hx; simp only [insertGranule, List.mem_singleton] at hx; exact hx ▸ hg
  | cons h r ih =>
    unfold insertGranule
    split
    · intro x hx
      rcases List.mem_cons.1 hx with e | hx
      · exact e ▸ hg
      · exact hl x hx
    · split
      · exact hl
      · intro x hx
        rcases List.mem_cons.1 hx with e | hx
        · exact e ▸ hl h (List.mem_cons_self ..)
        · exact ih (fun y hy => hl y (List.mem_cons_of_mem _ hy)) x hx

/-- A granule joins a rising list and it stays rising. -/
theorem insertGranule_rising (g : Nat) (l : List Nat) (h : rising l = true) : rising (insertGranule g l) = true := by
  induction l with
  | nil => rfl
  | cons a r ih =>
    have h' := h
    simp only [rising, Bool.and_eq_true, List.all_eq_true, decide_eq_true_eq] at h
    unfold insertGranule
    split
    · rename_i hga
      simp only [rising, Bool.and_eq_true, List.all_eq_true, decide_eq_true_eq]
      refine ⟨fun x hx => ?_, h⟩
      rcases List.mem_cons.1 hx with e | hx
      · exact e ▸ hga
      · exact Nat.lt_trans hga (h.1 x hx)
    · split
      · exact h'
      · simp only [rising, Bool.and_eq_true, List.all_eq_true, decide_eq_true_eq]
        exact ⟨insertGranule_all (a < ·) g r (by omega) h.1, ih h.2⟩

/-- Several granules join. -/
theorem foldl_insertGranule_rising {β : Type} (f : β → Nat) (l : List β) (v : List Nat) (h : rising v = true) :
    rising (l.foldl (fun v g => insertGranule (f g) v) v) = true := by
  induction l generalizing v with
  | nil => exact h
  | cons g l ih => exact ih _ (insertGranule_rising _ _ h)

/-- Granules dropped from a rising list leave a rising list. -/
theorem filter_rising (f : Nat → Bool) (v : List Nat) (h : rising v = true) : rising (v.filter f) = true := by
  induction v with
  | nil => rfl
  | cons a r ih =>
    simp only [rising, Bool.and_eq_true, List.all_eq_true, decide_eq_true_eq] at h
    rw [List.filter_cons]
    split
    · simp only [rising, Bool.and_eq_true, List.all_eq_true, decide_eq_true_eq]
      exact ⟨fun x hx => h.1 x (List.mem_of_mem_filter hx), ih h.2⟩
    · exact ih h.2

/-- A store keeps stored data canonical. -/
theorem State.store_stored (s : State) (a : Nat) (bs : List Byte) (mark : Bool) (st : s.Stored) : (s.store a bs mark).Stored := by
  refine ⟨memWrite_wf _ _ _ st.1, ?_⟩
  unfold State.store
  dsimp only
  split
  · exact foldl_insertGranule_rising (fun g => g) _ _ (filter_rising _ _ st.2)
  · exact filter_rising _ _ st.2

/-- Marking a range void keeps stored data canonical. -/
theorem State.voidRange_stored (s : State) (a n : Nat) (st : s.Stored) : (s.voidRange a n).Stored :=
  ⟨st.1, foldl_insertGranule_rising (fun g => g) _ _ st.2⟩

end Sys2Proof.Machine
end

