-- ==== Sys2Proof/Laws/State.lean ====
section
/-! SUPPORT. What each named update of the state leaves as it was, one lemma for each field, and what it changes. -/

namespace Sys2Proof.Machine

/-! ### `State.setStream` -/

@[simp] theorem State.setStream_phase (s : State) (n : Nat) (x : StreamSt) : (s.setStream n x).phase = s.phase := rfl
@[simp] theorem State.setStream_boot (s : State) (n : Nat) (x : StreamSt) : (s.setStream n x).boot = s.boot := rfl
@[simp] theorem State.setStream_pins (s : State) (n : Nat) (x : StreamSt) : (s.setStream n x).pins = s.pins := rfl
@[simp] theorem State.setStream_power (s : State) (n : Nat) (x : StreamSt) : (s.setStream n x).power = s.power := rfl
@[simp] theorem State.setStream_fuses (s : State) (n : Nat) (x : StreamSt) : (s.setStream n x).fuses = s.fuses := rfl
@[simp] theorem State.setStream_flash (s : State) (n : Nat) (x : StreamSt) : (s.setStream n x).flash = s.flash := rfl
@[simp] theorem State.setStream_layout (s : State) (n : Nat) (x : StreamSt) : (s.setStream n x).layout = s.layout := rfl
@[simp] theorem State.setStream_cfg (s : State) (n : Nat) (x : StreamSt) : (s.setStream n x).cfg = s.cfg := rfl
@[simp] theorem State.setStream_cfgOld (s : State) (n : Nat) (x : StreamSt) : (s.setStream n x).cfgOld = s.cfgOld := rfl
@[simp] theorem State.setStream_stl (s : State) (n : Nat) (x : StreamSt) : (s.setStream n x).stl = s.stl := rfl
@[simp] theorem State.setStream_time (s : State) (n : Nat) (x : StreamSt) : (s.setStream n x).time = s.time := rfl
@[simp] theorem State.setStream_journal (s : State) (n : Nat) (x : StreamSt) : (s.setStream n x).journal = s.journal := rfl
@[simp] theorem State.setStream_decs (s : State) (n : Nat) (x : StreamSt) : (s.setStream n x).decs = s.decs := rfl
@[simp] theorem State.setStream_accts (s : State) (n : Nat) (x : StreamSt) : (s.setStream n x).accts = s.accts := rfl
@[simp] theorem State.setStream_rolling (s : State) (n : Nat) (x : StreamSt) : (s.setStream n x).rolling = s.rolling := rfl
@[simp] theorem State.setStream_preConvSat (s : State) (n : Nat) (x : StreamSt) : (s.setStream n x).preConvSat = s.preConvSat := rfl
@[simp] theorem State.setStream_ingUnmatched (s : State) (n : Nat) (x : StreamSt) : (s.setStream n x).ingUnmatched = s.ingUnmatched := rfl
@[simp] theorem State.setStream_engines (s : State) (n : Nat) (x : StreamSt) : (s.setStream n x).engines = s.engines := rfl
@[simp] theorem State.setStream_halo (s : State) (n : Nat) (x : StreamSt) : (s.setStream n x).halo = s.halo := rfl
@[simp] theorem State.setStream_haloBack (s : State) (n : Nat) (x : StreamSt) : (s.setStream n x).haloBack = s.haloBack := rfl
@[simp] theorem State.setStream_regions (s : State) (n : Nat) (x : StreamSt) : (s.setStream n x).regions = s.regions := rfl
@[simp] theorem State.setStream_switch (s : State) (n : Nat) (x : StreamSt) : (s.setStream n x).switch = s.switch := rfl
@[simp] theorem State.setStream_clrs (s : State) (n : Nat) (x : StreamSt) : (s.setStream n x).clrs = s.clrs := rfl
@[simp] theorem State.setStream_ledger (s : State) (n : Nat) (x : StreamSt) : (s.setStream n x).ledger = s.ledger := rfl
@[simp] theorem State.setStream_encs (s : State) (n : Nat) (x : StreamSt) : (s.setStream n x).encs = s.encs := rfl
@[simp] theorem State.setStream_evidence (s : State) (n : Nat) (x : StreamSt) : (s.setStream n x).evidence = s.evidence := rfl
@[simp] theorem State.setStream_adapt (s : State) (n : Nat) (x : StreamSt) : (s.setStream n x).adapt = s.adapt := rfl
@[simp] theorem State.setStream_flt (s : State) (n : Nat) (x : StreamSt) : (s.setStream n x).flt = s.flt := rfl
@[simp] theorem State.setStream_saf (s : State) (n : Nat) (x : StreamSt) : (s.setStream n x).saf = s.saf := rfl
@[simp] theorem State.setStream_drams (s : State) (n : Nat) (x : StreamSt) : (s.setStream n x).drams = s.drams := rfl
@[simp] theorem State.setStream_pci (s : State) (n : Nat) (x : StreamSt) : (s.setStream n x).pci = s.pci := rfl
@[simp] theorem State.setStream_nets (s : State) (n : Nat) (x : StreamSt) : (s.setStream n x).nets = s.nets := rfl
@[simp] theorem State.setStream_lnk (s : State) (n : Nat) (x : StreamSt) : (s.setStream n x).lnk = s.lnk := rfl
@[simp] theorem State.setStream_sec (s : State) (n : Nat) (x : StreamSt) : (s.setStream n x).sec = s.sec := rfl
@[simp] theorem State.setStream_dbg (s : State) (n : Nat) (x : StreamSt) : (s.setStream n x).dbg = s.dbg := rfl
@[simp] theorem State.setStream_tills (s : State) (n : Nat) (x : StreamSt) : (s.setStream n x).tills = s.tills := rfl
@[simp] theorem State.setStream_devTills (s : State) (n : Nat) (x : StreamSt) : (s.setStream n x).devTills = s.devTills := rfl
@[simp] theorem State.setStream_bridges (s : State) (n : Nat) (x : StreamSt) : (s.setStream n x).bridges = s.bridges := rfl
@[simp] theorem State.setStream_arbs (s : State) (n : Nat) (x : StreamSt) : (s.setStream n x).arbs = s.arbs := rfl
@[simp] theorem State.setStream_passbook (s : State) (n : Nat) (x : StreamSt) : (s.setStream n x).passbook = s.passbook := rfl
@[simp] theorem State.setStream_mem (s : State) (n : Nat) (x : StreamSt) : (s.setStream n x).mem = s.mem := rfl
@[simp] theorem State.setStream_voids (s : State) (n : Nat) (x : StreamSt) : (s.setStream n x).voids = s.voids := rfl
@[simp] theorem State.setStream_smbOffset (s : State) (n : Nat) (x : StreamSt) : (s.setStream n x).smbOffset = s.smbOffset := rfl
@[simp] theorem State.setStream_latched (s : State) (n : Nat) (x : StreamSt) : (s.setStream n x).latched = s.latched := rfl
@[simp] theorem State.setStream_readback (s : State) (n : Nat) (x : StreamSt) : (s.setStream n x).readback = s.readback := rfl
@[simp] theorem State.setStream_poisoned (s : State) (n : Nat) (x : StreamSt) : (s.setStream n x).poisoned = s.poisoned := rfl
@[simp] theorem State.setStream_nak (s : State) (n : Nat) (x : StreamSt) : (s.setStream n x).nak = s.nak := rfl
@[simp] theorem State.setStream_free (s : State) (n : Nat) (x : StreamSt) : (s.setStream n x).free = s.free := rfl
@[simp] theorem State.setStream_pending (s : State) (n : Nat) (x : StreamSt) : (s.setStream n x).pending = s.pending := rfl
/-- What is read after the update. -/
@[simp] theorem State.setStream_get (s : State) (n : Nat) (x : StreamSt) (j : Nat) : (s.setStream n x).stream j = if j = n then x else s.stream j :=
  Table.get_set _ j n x _

/-! ### `State.setEngine` -/

@[simp] theorem State.setEngine_phase (s : State) (n : Nat) (x : Engine) : (s.setEngine n x).phase = s.phase := rfl
@[simp] theorem State.setEngine_boot (s : State) (n : Nat) (x : Engine) : (s.setEngine n x).boot = s.boot := rfl
@[simp] theorem State.setEngine_pins (s : State) (n : Nat) (x : Engine) : (s.setEngine n x).pins = s.pins := rfl
@[simp] theorem State.setEngine_power (s : State) (n : Nat) (x : Engine) : (s.setEngine n x).power = s.power := rfl
@[simp] theorem State.setEngine_fuses (s : State) (n : Nat) (x : Engine) : (s.setEngine n x).fuses = s.fuses := rfl
@[simp] theorem State.setEngine_flash (s : State) (n : Nat) (x : Engine) : (s.setEngine n x).flash = s.flash := rfl
@[simp] theorem State.setEngine_layout (s : State) (n : Nat) (x : Engine) : (s.setEngine n x).layout = s.layout := rfl
@[simp] theorem State.setEngine_cfg (s : State) (n : Nat) (x : Engine) : (s.setEngine n x).cfg = s.cfg := rfl
@[simp] theorem State.setEngine_cfgOld (s : State) (n : Nat) (x : Engine) : (s.setEngine n x).cfgOld = s.cfgOld := rfl
@[simp] theorem State.setEngine_stl (s : State) (n : Nat) (x : Engine) : (s.setEngine n x).stl = s.stl := rfl
@[simp] theorem State.setEngine_time (s : State) (n : Nat) (x : Engine) : (s.setEngine n x).time = s.time := rfl
@[simp] theorem State.setEngine_journal (s : State) (n : Nat) (x : Engine) : (s.setEngine n x).journal = s.journal := rfl
@[simp] theorem State.setEngine_streams (s : State) (n : Nat) (x : Engine) : (s.setEngine n x).streams = s.streams := rfl
@[simp] theorem State.setEngine_decs (s : State) (n : Nat) (x : Engine) : (s.setEngine n x).decs = s.decs := rfl
@[simp] theorem State.setEngine_accts (s : State) (n : Nat) (x : Engine) : (s.setEngine n x).accts = s.accts := rfl
@[simp] theorem State.setEngine_rolling (s : State) (n : Nat) (x : Engine) : (s.setEngine n x).rolling = s.rolling := rfl
@[simp] theorem State.setEngine_preConvSat (s : State) (n : Nat) (x : Engine) : (s.setEngine n x).preConvSat = s.preConvSat := rfl
@[simp] theorem State.setEngine_ingUnmatched (s : State) (n : Nat) (x : Engine) : (s.setEngine n x).ingUnmatched = s.ingUnmatched := rfl
@[simp] theorem State.setEngine_halo (s : State) (n : Nat) (x : Engine) : (s.setEngine n x).halo = s.halo := rfl
@[simp] theorem State.setEngine_haloBack (s : State) (n : Nat) (x : Engine) : (s.setEngine n x).haloBack = s.haloBack := rfl
@[simp] theorem State.setEngine_regions (s : State) (n : Nat) (x : Engine) : (s.setEngine n x).regions = s.regions := rfl
@[simp] theorem State.setEngine_switch (s : State) (n : Nat) (x : Engine) : (s.setEngine n x).switch = s.switch := rfl
@[simp] theorem State.setEngine_clrs (s : State) (n : Nat) (x : Engine) : (s.setEngine n x).clrs = s.clrs := rfl
@[simp] theorem State.setEngine_ledger (s : State) (n : Nat) (x : Engine) : (s.setEngine n x).ledger = s.ledger := rfl
@[simp] theorem State.setEngine_encs (s : State) (n : Nat) (x : Engine) : (s.setEngine n x).encs = s.encs := rfl
@[simp] theorem State.setEngine_evidence (s : State) (n : Nat) (x : Engine) : (s.setEngine n x).evidence = s.evidence := rfl
@[simp] theorem State.setEngine_adapt (s : State) (n : Nat) (x : Engine) : (s.setEngine n x).adapt = s.adapt := rfl
@[simp] theorem State.setEngine_flt (s : State) (n : Nat) (x : Engine) : (s.setEngine n x).flt = s.flt := rfl
@[simp] theorem State.setEngine_saf (s : State) (n : Nat) (x : Engine) : (s.setEngine n x).saf = s.saf := rfl
@[simp] theorem State.setEngine_drams (s : State) (n : Nat) (x : Engine) : (s.setEngine n x).drams = s.drams := rfl
@[simp] theorem State.setEngine_pci (s : State) (n : Nat) (x : Engine) : (s.setEngine n x).pci = s.pci := rfl
@[simp] theorem State.setEngine_nets (s : State) (n : Nat) (x : Engine) : (s.setEngine n x).nets = s.nets := rfl
@[simp] theorem State.setEngine_lnk (s : State) (n : Nat) (x : Engine) : (s.setEngine n x).lnk = s.lnk := rfl
@[simp] theorem State.setEngine_sec (s : State) (n : Nat) (x : Engine) : (s.setEngine n x).sec = s.sec := rfl
@[simp] theorem State.setEngine_dbg (s : State) (n : Nat) (x : Engine) : (s.setEngine n x).dbg = s.dbg := rfl
@[simp] theorem State.setEngine_tills (s : State) (n : Nat) (x : Engine) : (s.setEngine n x).tills = s.tills := rfl
@[simp] theorem State.setEngine_devTills (s : State) (n : Nat) (x : Engine) : (s.setEngine n x).devTills = s.devTills := rfl
@[simp] theorem State.setEngine_bridges (s : State) (n : Nat) (x : Engine) : (s.setEngine n x).bridges = s.bridges := rfl
@[simp] theorem State.setEngine_arbs (s : State) (n : Nat) (x : Engine) : (s.setEngine n x).arbs = s.arbs := rfl
@[simp] theorem State.setEngine_passbook (s : State) (n : Nat) (x : Engine) : (s.setEngine n x).passbook = s.passbook := rfl
@[simp] theorem State.setEngine_mem (s : State) (n : Nat) (x : Engine) : (s.setEngine n x).mem = s.mem := rfl
@[simp] theorem State.setEngine_voids (s : State) (n : Nat) (x : Engine) : (s.setEngine n x).voids = s.voids := rfl
@[simp] theorem State.setEngine_smbOffset (s : State) (n : Nat) (x : Engine) : (s.setEngine n x).smbOffset = s.smbOffset := rfl
@[simp] theorem State.setEngine_latched (s : State) (n : Nat) (x : Engine) : (s.setEngine n x).latched = s.latched := rfl
@[simp] theorem State.setEngine_readback (s : State) (n : Nat) (x : Engine) : (s.setEngine n x).readback = s.readback := rfl
@[simp] theorem State.setEngine_poisoned (s : State) (n : Nat) (x : Engine) : (s.setEngine n x).poisoned = s.poisoned := rfl
@[simp] theorem State.setEngine_nak (s : State) (n : Nat) (x : Engine) : (s.setEngine n x).nak = s.nak := rfl
@[simp] theorem State.setEngine_free (s : State) (n : Nat) (x : Engine) : (s.setEngine n x).free = s.free := rfl
@[simp] theorem State.setEngine_pending (s : State) (n : Nat) (x : Engine) : (s.setEngine n x).pending = s.pending := rfl
/-- What is read after the update. -/
@[simp] theorem State.setEngine_get (s : State) (n : Nat) (x : Engine) (j : Nat) : (s.setEngine n x).engine j = if j = n then x else s.engine j :=
  Table.get_set _ j n x _

/-! ### `State.setRegion` -/

@[simp] theorem State.setRegion_phase (s : State) (n : Nat) (x : Region) : (s.setRegion n x).phase = s.phase := rfl
@[simp] theorem State.setRegion_boot (s : State) (n : Nat) (x : Region) : (s.setRegion n x).boot = s.boot := rfl
@[simp] theorem State.setRegion_pins (s : State) (n : Nat) (x : Region) : (s.setRegion n x).pins = s.pins := rfl
@[simp] theorem State.setRegion_power (s : State) (n : Nat) (x : Region) : (s.setRegion n x).power = s.power := rfl
@[simp] theorem State.setRegion_fuses (s : State) (n : Nat) (x : Region) : (s.setRegion n x).fuses = s.fuses := rfl
@[simp] theorem State.setRegion_flash (s : State) (n : Nat) (x : Region) : (s.setRegion n x).flash = s.flash := rfl
@[simp] theorem State.setRegion_layout (s : State) (n : Nat) (x : Region) : (s.setRegion n x).layout = s.layout := rfl
@[simp] theorem State.setRegion_cfg (s : State) (n : Nat) (x : Region) : (s.setRegion n x).cfg = s.cfg := rfl
@[simp] theorem State.setRegion_cfgOld (s : State) (n : Nat) (x : Region) : (s.setRegion n x).cfgOld = s.cfgOld := rfl
@[simp] theorem State.setRegion_stl (s : State) (n : Nat) (x : Region) : (s.setRegion n x).stl = s.stl := rfl
@[simp] theorem State.setRegion_time (s : State) (n : Nat) (x : Region) : (s.setRegion n x).time = s.time := rfl
@[simp] theorem State.setRegion_journal (s : State) (n : Nat) (x : Region) : (s.setRegion n x).journal = s.journal := rfl
@[simp] theorem State.setRegion_streams (s : State) (n : Nat) (x : Region) : (s.setRegion n x).streams = s.streams := rfl
@[simp] theorem State.setRegion_decs (s : State) (n : Nat) (x : Region) : (s.setRegion n x).decs = s.decs := rfl
@[simp] theorem State.setRegion_accts (s : State) (n : Nat) (x : Region) : (s.setRegion n x).accts = s.accts := rfl
@[simp] theorem State.setRegion_rolling (s : State) (n : Nat) (x : Region) : (s.setRegion n x).rolling = s.rolling := rfl
@[simp] theorem State.setRegion_preConvSat (s : State) (n : Nat) (x : Region) : (s.setRegion n x).preConvSat = s.preConvSat := rfl
@[simp] theorem State.setRegion_ingUnmatched (s : State) (n : Nat) (x : Region) : (s.setRegion n x).ingUnmatched = s.ingUnmatched := rfl
@[simp] theorem State.setRegion_engines (s : State) (n : Nat) (x : Region) : (s.setRegion n x).engines = s.engines := rfl
@[simp] theorem State.setRegion_halo (s : State) (n : Nat) (x : Region) : (s.setRegion n x).halo = s.halo := rfl
@[simp] theorem State.setRegion_haloBack (s : State) (n : Nat) (x : Region) : (s.setRegion n x).haloBack = s.haloBack := rfl
@[simp] theorem State.setRegion_switch (s : State) (n : Nat) (x : Region) : (s.setRegion n x).switch = s.switch := rfl
@[simp] theorem State.setRegion_clrs (s : State) (n : Nat) (x : Region) : (s.setRegion n x).clrs = s.clrs := rfl
@[simp] theorem State.setRegion_ledger (s : State) (n : Nat) (x : Region) : (s.setRegion n x).ledger = s.ledger := rfl
@[simp] theorem State.setRegion_encs (s : State) (n : Nat) (x : Region) : (s.setRegion n x).encs = s.encs := rfl
@[simp] theorem State.setRegion_evidence (s : State) (n : Nat) (x : Region) : (s.setRegion n x).evidence = s.evidence := rfl
@[simp] theorem State.setRegion_adapt (s : State) (n : Nat) (x : Region) : (s.setRegion n x).adapt = s.adapt := rfl
@[simp] theorem State.setRegion_flt (s : State) (n : Nat) (x : Region) : (s.setRegion n x).flt = s.flt := rfl
@[simp] theorem State.setRegion_saf (s : State) (n : Nat) (x : Region) : (s.setRegion n x).saf = s.saf := rfl
@[simp] theorem State.setRegion_drams (s : State) (n : Nat) (x : Region) : (s.setRegion n x).drams = s.drams := rfl
@[simp] theorem State.setRegion_pci (s : State) (n : Nat) (x : Region) : (s.setRegion n x).pci = s.pci := rfl
@[simp] theorem State.setRegion_nets (s : State) (n : Nat) (x : Region) : (s.setRegion n x).nets = s.nets := rfl
@[simp] theorem State.setRegion_lnk (s : State) (n : Nat) (x : Region) : (s.setRegion n x).lnk = s.lnk := rfl
@[simp] theorem State.setRegion_sec (s : State) (n : Nat) (x : Region) : (s.setRegion n x).sec = s.sec := rfl
@[simp] theorem State.setRegion_dbg (s : State) (n : Nat) (x : Region) : (s.setRegion n x).dbg = s.dbg := rfl
@[simp] theorem State.setRegion_tills (s : State) (n : Nat) (x : Region) : (s.setRegion n x).tills = s.tills := rfl
@[simp] theorem State.setRegion_devTills (s : State) (n : Nat) (x : Region) : (s.setRegion n x).devTills = s.devTills := rfl
@[simp] theorem State.setRegion_bridges (s : State) (n : Nat) (x : Region) : (s.setRegion n x).bridges = s.bridges := rfl
@[simp] theorem State.setRegion_arbs (s : State) (n : Nat) (x : Region) : (s.setRegion n x).arbs = s.arbs := rfl
@[simp] theorem State.setRegion_passbook (s : State) (n : Nat) (x : Region) : (s.setRegion n x).passbook = s.passbook := rfl
@[simp] theorem State.setRegion_mem (s : State) (n : Nat) (x : Region) : (s.setRegion n x).mem = s.mem := rfl
@[simp] theorem State.setRegion_voids (s : State) (n : Nat) (x : Region) : (s.setRegion n x).voids = s.voids := rfl
@[simp] theorem State.setRegion_smbOffset (s : State) (n : Nat) (x : Region) : (s.setRegion n x).smbOffset = s.smbOffset := rfl
@[simp] theorem State.setRegion_latched (s : State) (n : Nat) (x : Region) : (s.setRegion n x).latched = s.latched := rfl
@[simp] theorem State.setRegion_readback (s : State) (n : Nat) (x : Region) : (s.setRegion n x).readback = s.readback := rfl
@[simp] theorem State.setRegion_poisoned (s : State) (n : Nat) (x : Region) : (s.setRegion n x).poisoned = s.poisoned := rfl
@[simp] theorem State.setRegion_nak (s : State) (n : Nat) (x : Region) : (s.setRegion n x).nak = s.nak := rfl
@[simp] theorem State.setRegion_free (s : State) (n : Nat) (x : Region) : (s.setRegion n x).free = s.free := rfl
@[simp] theorem State.setRegion_pending (s : State) (n : Nat) (x : Region) : (s.setRegion n x).pending = s.pending := rfl
/-- What is read after the update. -/
@[simp] theorem State.setRegion_get (s : State) (n : Nat) (x : Region) (j : Nat) : (s.setRegion n x).region j = if j = n then x else s.region j :=
  Table.get_set _ j n x _

/-! ### `State.setDec` -/

@[simp] theorem State.setDec_phase (s : State) (n : Nat) (x : DecEngine) : (s.setDec n x).phase = s.phase := rfl
@[simp] theorem State.setDec_boot (s : State) (n : Nat) (x : DecEngine) : (s.setDec n x).boot = s.boot := rfl
@[simp] theorem State.setDec_pins (s : State) (n : Nat) (x : DecEngine) : (s.setDec n x).pins = s.pins := rfl
@[simp] theorem State.setDec_power (s : State) (n : Nat) (x : DecEngine) : (s.setDec n x).power = s.power := rfl
@[simp] theorem State.setDec_fuses (s : State) (n : Nat) (x : DecEngine) : (s.setDec n x).fuses = s.fuses := rfl
@[simp] theorem State.setDec_flash (s : State) (n : Nat) (x : DecEngine) : (s.setDec n x).flash = s.flash := rfl
@[simp] theorem State.setDec_layout (s : State) (n : Nat) (x : DecEngine) : (s.setDec n x).layout = s.layout := rfl
@[simp] theorem State.setDec_cfg (s : State) (n : Nat) (x : DecEngine) : (s.setDec n x).cfg = s.cfg := rfl
@[simp] theorem State.setDec_cfgOld (s : State) (n : Nat) (x : DecEngine) : (s.setDec n x).cfgOld = s.cfgOld := rfl
@[simp] theorem State.setDec_stl (s : State) (n : Nat) (x : DecEngine) : (s.setDec n x).stl = s.stl := rfl
@[simp] theorem State.setDec_time (s : State) (n : Nat) (x : DecEngine) : (s.setDec n x).time = s.time := rfl
@[simp] theorem State.setDec_journal (s : State) (n : Nat) (x : DecEngine) : (s.setDec n x).journal = s.journal := rfl
@[simp] theorem State.setDec_streams (s : State) (n : Nat) (x : DecEngine) : (s.setDec n x).streams = s.streams := rfl
@[simp] theorem State.setDec_accts (s : State) (n : Nat) (x : DecEngine) : (s.setDec n x).accts = s.accts := rfl
@[simp] theorem State.setDec_rolling (s : State) (n : Nat) (x : DecEngine) : (s.setDec n x).rolling = s.rolling := rfl
@[simp] theorem State.setDec_preConvSat (s : State) (n : Nat) (x : DecEngine) : (s.setDec n x).preConvSat = s.preConvSat := rfl
@[simp] theorem State.setDec_ingUnmatched (s : State) (n : Nat) (x : DecEngine) : (s.setDec n x).ingUnmatched = s.ingUnmatched := rfl
@[simp] theorem State.setDec_engines (s : State) (n : Nat) (x : DecEngine) : (s.setDec n x).engines = s.engines := rfl
@[simp] theorem State.setDec_halo (s : State) (n : Nat) (x : DecEngine) : (s.setDec n x).halo = s.halo := rfl
@[simp] theorem State.setDec_haloBack (s : State) (n : Nat) (x : DecEngine) : (s.setDec n x).haloBack = s.haloBack := rfl
@[simp] theorem State.setDec_regions (s : State) (n : Nat) (x : DecEngine) : (s.setDec n x).regions = s.regions := rfl
@[simp] theorem State.setDec_switch (s : State) (n : Nat) (x : DecEngine) : (s.setDec n x).switch = s.switch := rfl
@[simp] theorem State.setDec_clrs (s : State) (n : Nat) (x : DecEngine) : (s.setDec n x).clrs = s.clrs := rfl
@[simp] theorem State.setDec_ledger (s : State) (n : Nat) (x : DecEngine) : (s.setDec n x).ledger = s.ledger := rfl
@[simp] theorem State.setDec_encs (s : State) (n : Nat) (x : DecEngine) : (s.setDec n x).encs = s.encs := rfl
@[simp] theorem State.setDec_evidence (s : State) (n : Nat) (x : DecEngine) : (s.setDec n x).evidence = s.evidence := rfl
@[simp] theorem State.setDec_adapt (s : State) (n : Nat) (x : DecEngine) : (s.setDec n x).adapt = s.adapt := rfl
@[simp] theorem State.setDec_flt (s : State) (n : Nat) (x : DecEngine) : (s.setDec n x).flt = s.flt := rfl
@[simp] theorem State.setDec_saf (s : State) (n : Nat) (x : DecEngine) : (s.setDec n x).saf = s.saf := rfl
@[simp] theorem State.setDec_drams (s : State) (n : Nat) (x : DecEngine) : (s.setDec n x).drams = s.drams := rfl
@[simp] theorem State.setDec_pci (s : State) (n : Nat) (x : DecEngine) : (s.setDec n x).pci = s.pci := rfl
@[simp] theorem State.setDec_nets (s : State) (n : Nat) (x : DecEngine) : (s.setDec n x).nets = s.nets := rfl
@[simp] theorem State.setDec_lnk (s : State) (n : Nat) (x : DecEngine) : (s.setDec n x).lnk = s.lnk := rfl
@[simp] theorem State.setDec_sec (s : State) (n : Nat) (x : DecEngine) : (s.setDec n x).sec = s.sec := rfl
@[simp] theorem State.setDec_dbg (s : State) (n : Nat) (x : DecEngine) : (s.setDec n x).dbg = s.dbg := rfl
@[simp] theorem State.setDec_tills (s : State) (n : Nat) (x : DecEngine) : (s.setDec n x).tills = s.tills := rfl
@[simp] theorem State.setDec_devTills (s : State) (n : Nat) (x : DecEngine) : (s.setDec n x).devTills = s.devTills := rfl
@[simp] theorem State.setDec_bridges (s : State) (n : Nat) (x : DecEngine) : (s.setDec n x).bridges = s.bridges := rfl
@[simp] theorem State.setDec_arbs (s : State) (n : Nat) (x : DecEngine) : (s.setDec n x).arbs = s.arbs := rfl
@[simp] theorem State.setDec_passbook (s : State) (n : Nat) (x : DecEngine) : (s.setDec n x).passbook = s.passbook := rfl
@[simp] theorem State.setDec_mem (s : State) (n : Nat) (x : DecEngine) : (s.setDec n x).mem = s.mem := rfl
@[simp] theorem State.setDec_voids (s : State) (n : Nat) (x : DecEngine) : (s.setDec n x).voids = s.voids := rfl
@[simp] theorem State.setDec_smbOffset (s : State) (n : Nat) (x : DecEngine) : (s.setDec n x).smbOffset = s.smbOffset := rfl
@[simp] theorem State.setDec_latched (s : State) (n : Nat) (x : DecEngine) : (s.setDec n x).latched = s.latched := rfl
@[simp] theorem State.setDec_readback (s : State) (n : Nat) (x : DecEngine) : (s.setDec n x).readback = s.readback := rfl
@[simp] theorem State.setDec_poisoned (s : State) (n : Nat) (x : DecEngine) : (s.setDec n x).poisoned = s.poisoned := rfl
@[simp] theorem State.setDec_nak (s : State) (n : Nat) (x : DecEngine) : (s.setDec n x).nak = s.nak := rfl
@[simp] theorem State.setDec_free (s : State) (n : Nat) (x : DecEngine) : (s.setDec n x).free = s.free := rfl
@[simp] theorem State.setDec_pending (s : State) (n : Nat) (x : DecEngine) : (s.setDec n x).pending = s.pending := rfl
/-- What is read after the update. -/
@[simp] theorem State.setDec_get (s : State) (n : Nat) (x : DecEngine) (j : Nat) : (s.setDec n x).dec j = if j = n then x else s.dec j :=
  Table.get_set _ j n x _

/-! ### `State.setClr` -/

@[simp] theorem State.setClr_phase (s : State) (n : Nat) (x : Clearing) : (s.setClr n x).phase = s.phase := rfl
@[simp] theorem State.setClr_boot (s : State) (n : Nat) (x : Clearing) : (s.setClr n x).boot = s.boot := rfl
@[simp] theorem State.setClr_pins (s : State) (n : Nat) (x : Clearing) : (s.setClr n x).pins = s.pins := rfl
@[simp] theorem State.setClr_power (s : State) (n : Nat) (x : Clearing) : (s.setClr n x).power = s.power := rfl
@[simp] theorem State.setClr_fuses (s : State) (n : Nat) (x : Clearing) : (s.setClr n x).fuses = s.fuses := rfl
@[simp] theorem State.setClr_flash (s : State) (n : Nat) (x : Clearing) : (s.setClr n x).flash = s.flash := rfl
@[simp] theorem State.setClr_layout (s : State) (n : Nat) (x : Clearing) : (s.setClr n x).layout = s.layout := rfl
@[simp] theorem State.setClr_cfg (s : State) (n : Nat) (x : Clearing) : (s.setClr n x).cfg = s.cfg := rfl
@[simp] theorem State.setClr_cfgOld (s : State) (n : Nat) (x : Clearing) : (s.setClr n x).cfgOld = s.cfgOld := rfl
@[simp] theorem State.setClr_stl (s : State) (n : Nat) (x : Clearing) : (s.setClr n x).stl = s.stl := rfl
@[simp] theorem State.setClr_time (s : State) (n : Nat) (x : Clearing) : (s.setClr n x).time = s.time := rfl
@[simp] theorem State.setClr_journal (s : State) (n : Nat) (x : Clearing) : (s.setClr n x).journal = s.journal := rfl
@[simp] theorem State.setClr_streams (s : State) (n : Nat) (x : Clearing) : (s.setClr n x).streams = s.streams := rfl
@[simp] theorem State.setClr_decs (s : State) (n : Nat) (x : Clearing) : (s.setClr n x).decs = s.decs := rfl
@[simp] theorem State.setClr_accts (s : State) (n : Nat) (x : Clearing) : (s.setClr n x).accts = s.accts := rfl
@[simp] theorem State.setClr_rolling (s : State) (n : Nat) (x : Clearing) : (s.setClr n x).rolling = s.rolling := rfl
@[simp] theorem State.setClr_preConvSat (s : State) (n : Nat) (x : Clearing) : (s.setClr n x).preConvSat = s.preConvSat := rfl
@[simp] theorem State.setClr_ingUnmatched (s : State) (n : Nat) (x : Clearing) : (s.setClr n x).ingUnmatched = s.ingUnmatched := rfl
@[simp] theorem State.setClr_engines (s : State) (n : Nat) (x : Clearing) : (s.setClr n x).engines = s.engines := rfl
@[simp] theorem State.setClr_halo (s : State) (n : Nat) (x : Clearing) : (s.setClr n x).halo = s.halo := rfl
@[simp] theorem State.setClr_haloBack (s : State) (n : Nat) (x : Clearing) : (s.setClr n x).haloBack = s.haloBack := rfl
@[simp] theorem State.setClr_regions (s : State) (n : Nat) (x : Clearing) : (s.setClr n x).regions = s.regions := rfl
@[simp] theorem State.setClr_switch (s : State) (n : Nat) (x : Clearing) : (s.setClr n x).switch = s.switch := rfl
@[simp] theorem State.setClr_ledger (s : State) (n : Nat) (x : Clearing) : (s.setClr n x).ledger = s.ledger := rfl
@[simp] theorem State.setClr_encs (s : State) (n : Nat) (x : Clearing) : (s.setClr n x).encs = s.encs := rfl
@[simp] theorem State.setClr_evidence (s : State) (n : Nat) (x : Clearing) : (s.setClr n x).evidence = s.evidence := rfl
@[simp] theorem State.setClr_adapt (s : State) (n : Nat) (x : Clearing) : (s.setClr n x).adapt = s.adapt := rfl
@[simp] theorem State.setClr_flt (s : State) (n : Nat) (x : Clearing) : (s.setClr n x).flt = s.flt := rfl
@[simp] theorem State.setClr_saf (s : State) (n : Nat) (x : Clearing) : (s.setClr n x).saf = s.saf := rfl
@[simp] theorem State.setClr_drams (s : State) (n : Nat) (x : Clearing) : (s.setClr n x).drams = s.drams := rfl
@[simp] theorem State.setClr_pci (s : State) (n : Nat) (x : Clearing) : (s.setClr n x).pci = s.pci := rfl
@[simp] theorem State.setClr_nets (s : State) (n : Nat) (x : Clearing) : (s.setClr n x).nets = s.nets := rfl
@[simp] theorem State.setClr_lnk (s : State) (n : Nat) (x : Clearing) : (s.setClr n x).lnk = s.lnk := rfl
@[simp] theorem State.setClr_sec (s : State) (n : Nat) (x : Clearing) : (s.setClr n x).sec = s.sec := rfl
@[simp] theorem State.setClr_dbg (s : State) (n : Nat) (x : Clearing) : (s.setClr n x).dbg = s.dbg := rfl
@[simp] theorem State.setClr_tills (s : State) (n : Nat) (x : Clearing) : (s.setClr n x).tills = s.tills := rfl
@[simp] theorem State.setClr_devTills (s : State) (n : Nat) (x : Clearing) : (s.setClr n x).devTills = s.devTills := rfl
@[simp] theorem State.setClr_bridges (s : State) (n : Nat) (x : Clearing) : (s.setClr n x).bridges = s.bridges := rfl
@[simp] theorem State.setClr_arbs (s : State) (n : Nat) (x : Clearing) : (s.setClr n x).arbs = s.arbs := rfl
@[simp] theorem State.setClr_passbook (s : State) (n : Nat) (x : Clearing) : (s.setClr n x).passbook = s.passbook := rfl
@[simp] theorem State.setClr_mem (s : State) (n : Nat) (x : Clearing) : (s.setClr n x).mem = s.mem := rfl
@[simp] theorem State.setClr_voids (s : State) (n : Nat) (x : Clearing) : (s.setClr n x).voids = s.voids := rfl
@[simp] theorem State.setClr_smbOffset (s : State) (n : Nat) (x : Clearing) : (s.setClr n x).smbOffset = s.smbOffset := rfl
@[simp] theorem State.setClr_latched (s : State) (n : Nat) (x : Clearing) : (s.setClr n x).latched = s.latched := rfl
@[simp] theorem State.setClr_readback (s : State) (n : Nat) (x : Clearing) : (s.setClr n x).readback = s.readback := rfl
@[simp] theorem State.setClr_poisoned (s : State) (n : Nat) (x : Clearing) : (s.setClr n x).poisoned = s.poisoned := rfl
@[simp] theorem State.setClr_nak (s : State) (n : Nat) (x : Clearing) : (s.setClr n x).nak = s.nak := rfl
@[simp] theorem State.setClr_free (s : State) (n : Nat) (x : Clearing) : (s.setClr n x).free = s.free := rfl
@[simp] theorem State.setClr_pending (s : State) (n : Nat) (x : Clearing) : (s.setClr n x).pending = s.pending := rfl
/-- What is read after the update. -/
@[simp] theorem State.setClr_get (s : State) (n : Nat) (x : Clearing) (j : Nat) : (s.setClr n x).clr j = if j = n then x else s.clr j :=
  Table.get_set _ j n x _

/-! ### `State.setEncoder` -/

@[simp] theorem State.setEncoder_phase (s : State) (n : Nat) (x : Encoder) : (s.setEncoder n x).phase = s.phase := rfl
@[simp] theorem State.setEncoder_boot (s : State) (n : Nat) (x : Encoder) : (s.setEncoder n x).boot = s.boot := rfl
@[simp] theorem State.setEncoder_pins (s : State) (n : Nat) (x : Encoder) : (s.setEncoder n x).pins = s.pins := rfl
@[simp] theorem State.setEncoder_power (s : State) (n : Nat) (x : Encoder) : (s.setEncoder n x).power = s.power := rfl
@[simp] theorem State.setEncoder_fuses (s : State) (n : Nat) (x : Encoder) : (s.setEncoder n x).fuses = s.fuses := rfl
@[simp] theorem State.setEncoder_flash (s : State) (n : Nat) (x : Encoder) : (s.setEncoder n x).flash = s.flash := rfl
@[simp] theorem State.setEncoder_layout (s : State) (n : Nat) (x : Encoder) : (s.setEncoder n x).layout = s.layout := rfl
@[simp] theorem State.setEncoder_cfg (s : State) (n : Nat) (x : Encoder) : (s.setEncoder n x).cfg = s.cfg := rfl
@[simp] theorem State.setEncoder_cfgOld (s : State) (n : Nat) (x : Encoder) : (s.setEncoder n x).cfgOld = s.cfgOld := rfl
@[simp] theorem State.setEncoder_stl (s : State) (n : Nat) (x : Encoder) : (s.setEncoder n x).stl = s.stl := rfl
@[simp] theorem State.setEncoder_time (s : State) (n : Nat) (x : Encoder) : (s.setEncoder n x).time = s.time := rfl
@[simp] theorem State.setEncoder_journal (s : State) (n : Nat) (x : Encoder) : (s.setEncoder n x).journal = s.journal := rfl
@[simp] theorem State.setEncoder_streams (s : State) (n : Nat) (x : Encoder) : (s.setEncoder n x).streams = s.streams := rfl
@[simp] theorem State.setEncoder_decs (s : State) (n : Nat) (x : Encoder) : (s.setEncoder n x).decs = s.decs := rfl
@[simp] theorem State.setEncoder_accts (s : State) (n : Nat) (x : Encoder) : (s.setEncoder n x).accts = s.accts := rfl
@[simp] theorem State.setEncoder_rolling (s : State) (n : Nat) (x : Encoder) : (s.setEncoder n x).rolling = s.rolling := rfl
@[simp] theorem State.setEncoder_preConvSat (s : State) (n : Nat) (x : Encoder) : (s.setEncoder n x).preConvSat = s.preConvSat := rfl
@[simp] theorem State.setEncoder_ingUnmatched (s : State) (n : Nat) (x : Encoder) : (s.setEncoder n x).ingUnmatched = s.ingUnmatched := rfl
@[simp] theorem State.setEncoder_engines (s : State) (n : Nat) (x : Encoder) : (s.setEncoder n x).engines = s.engines := rfl
@[simp] theorem State.setEncoder_halo (s : State) (n : Nat) (x : Encoder) : (s.setEncoder n x).halo = s.halo := rfl
@[simp] theorem State.setEncoder_haloBack (s : State) (n : Nat) (x : Encoder) : (s.setEncoder n x).haloBack = s.haloBack := rfl
@[simp] theorem State.setEncoder_regions (s : State) (n : Nat) (x : Encoder) : (s.setEncoder n x).regions = s.regions := rfl
@[simp] theorem State.setEncoder_switch (s : State) (n : Nat) (x : Encoder) : (s.setEncoder n x).switch = s.switch := rfl
@[simp] theorem State.setEncoder_clrs (s : State) (n : Nat) (x : Encoder) : (s.setEncoder n x).clrs = s.clrs := rfl
@[simp] theorem State.setEncoder_ledger (s : State) (n : Nat) (x : Encoder) : (s.setEncoder n x).ledger = s.ledger := rfl
@[simp] theorem State.setEncoder_evidence (s : State) (n : Nat) (x : Encoder) : (s.setEncoder n x).evidence = s.evidence := rfl
@[simp] theorem State.setEncoder_adapt (s : State) (n : Nat) (x : Encoder) : (s.setEncoder n x).adapt = s.adapt := rfl
@[simp] theorem State.setEncoder_flt (s : State) (n : Nat) (x : Encoder) : (s.setEncoder n x).flt = s.flt := rfl
@[simp] theorem State.setEncoder_saf (s : State) (n : Nat) (x : Encoder) : (s.setEncoder n x).saf = s.saf := rfl
@[simp] theorem State.setEncoder_drams (s : State) (n : Nat) (x : Encoder) : (s.setEncoder n x).drams = s.drams := rfl
@[simp] theorem State.setEncoder_pci (s : State) (n : Nat) (x : Encoder) : (s.setEncoder n x).pci = s.pci := rfl
@[simp] theorem State.setEncoder_nets (s : State) (n : Nat) (x : Encoder) : (s.setEncoder n x).nets = s.nets := rfl
@[simp] theorem State.setEncoder_lnk (s : State) (n : Nat) (x : Encoder) : (s.setEncoder n x).lnk = s.lnk := rfl
@[simp] theorem State.setEncoder_sec (s : State) (n : Nat) (x : Encoder) : (s.setEncoder n x).sec = s.sec := rfl
@[simp] theorem State.setEncoder_dbg (s : State) (n : Nat) (x : Encoder) : (s.setEncoder n x).dbg = s.dbg := rfl
@[simp] theorem State.setEncoder_tills (s : State) (n : Nat) (x : Encoder) : (s.setEncoder n x).tills = s.tills := rfl
@[simp] theorem State.setEncoder_devTills (s : State) (n : Nat) (x : Encoder) : (s.setEncoder n x).devTills = s.devTills := rfl
@[simp] theorem State.setEncoder_bridges (s : State) (n : Nat) (x : Encoder) : (s.setEncoder n x).bridges = s.bridges := rfl
@[simp] theorem State.setEncoder_arbs (s : State) (n : Nat) (x : Encoder) : (s.setEncoder n x).arbs = s.arbs := rfl
@[simp] theorem State.setEncoder_passbook (s : State) (n : Nat) (x : Encoder) : (s.setEncoder n x).passbook = s.passbook := rfl
@[simp] theorem State.setEncoder_mem (s : State) (n : Nat) (x : Encoder) : (s.setEncoder n x).mem = s.mem := rfl
@[simp] theorem State.setEncoder_voids (s : State) (n : Nat) (x : Encoder) : (s.setEncoder n x).voids = s.voids := rfl
@[simp] theorem State.setEncoder_smbOffset (s : State) (n : Nat) (x : Encoder) : (s.setEncoder n x).smbOffset = s.smbOffset := rfl
@[simp] theorem State.setEncoder_latched (s : State) (n : Nat) (x : Encoder) : (s.setEncoder n x).latched = s.latched := rfl
@[simp] theorem State.setEncoder_readback (s : State) (n : Nat) (x : Encoder) : (s.setEncoder n x).readback = s.readback := rfl
@[simp] theorem State.setEncoder_poisoned (s : State) (n : Nat) (x : Encoder) : (s.setEncoder n x).poisoned = s.poisoned := rfl
@[simp] theorem State.setEncoder_nak (s : State) (n : Nat) (x : Encoder) : (s.setEncoder n x).nak = s.nak := rfl
@[simp] theorem State.setEncoder_free (s : State) (n : Nat) (x : Encoder) : (s.setEncoder n x).free = s.free := rfl
@[simp] theorem State.setEncoder_pending (s : State) (n : Nat) (x : Encoder) : (s.setEncoder n x).pending = s.pending := rfl
/-- What is read after the update. -/
@[simp] theorem State.setEncoder_get (s : State) (n : Nat) (x : Encoder) (j : Nat) : (s.setEncoder n x).encoder j = if j = n then x else s.encoder j :=
  Table.get_set _ j n x _

/-! ### `State.setAcct` -/

@[simp] theorem State.setAcct_phase (s : State) (n : Nat) (x : PreAcct) : (s.setAcct n x).phase = s.phase := rfl
@[simp] theorem State.setAcct_boot (s : State) (n : Nat) (x : PreAcct) : (s.setAcct n x).boot = s.boot := rfl
@[simp] theorem State.setAcct_pins (s : State) (n : Nat) (x : PreAcct) : (s.setAcct n x).pins = s.pins := rfl
@[simp] theorem State.setAcct_power (s : State) (n : Nat) (x : PreAcct) : (s.setAcct n x).power = s.power := rfl
@[simp] theorem State.setAcct_fuses (s : State) (n : Nat) (x : PreAcct) : (s.setAcct n x).fuses = s.fuses := rfl
@[simp] theorem State.setAcct_flash (s : State) (n : Nat) (x : PreAcct) : (s.setAcct n x).flash = s.flash := rfl
@[simp] theorem State.setAcct_layout (s : State) (n : Nat) (x : PreAcct) : (s.setAcct n x).layout = s.layout := rfl
@[simp] theorem State.setAcct_cfg (s : State) (n : Nat) (x : PreAcct) : (s.setAcct n x).cfg = s.cfg := rfl
@[simp] theorem State.setAcct_cfgOld (s : State) (n : Nat) (x : PreAcct) : (s.setAcct n x).cfgOld = s.cfgOld := rfl
@[simp] theorem State.setAcct_stl (s : State) (n : Nat) (x : PreAcct) : (s.setAcct n x).stl = s.stl := rfl
@[simp] theorem State.setAcct_time (s : State) (n : Nat) (x : PreAcct) : (s.setAcct n x).time = s.time := rfl
@[simp] theorem State.setAcct_journal (s : State) (n : Nat) (x : PreAcct) : (s.setAcct n x).journal = s.journal := rfl
@[simp] theorem State.setAcct_streams (s : State) (n : Nat) (x : PreAcct) : (s.setAcct n x).streams = s.streams := rfl
@[simp] theorem State.setAcct_decs (s : State) (n : Nat) (x : PreAcct) : (s.setAcct n x).decs = s.decs := rfl
@[simp] theorem State.setAcct_rolling (s : State) (n : Nat) (x : PreAcct) : (s.setAcct n x).rolling = s.rolling := rfl
@[simp] theorem State.setAcct_preConvSat (s : State) (n : Nat) (x : PreAcct) : (s.setAcct n x).preConvSat = s.preConvSat := rfl
@[simp] theorem State.setAcct_ingUnmatched (s : State) (n : Nat) (x : PreAcct) : (s.setAcct n x).ingUnmatched = s.ingUnmatched := rfl
@[simp] theorem State.setAcct_engines (s : State) (n : Nat) (x : PreAcct) : (s.setAcct n x).engines = s.engines := rfl
@[simp] theorem State.setAcct_halo (s : State) (n : Nat) (x : PreAcct) : (s.setAcct n x).halo = s.halo := rfl
@[simp] theorem State.setAcct_haloBack (s : State) (n : Nat) (x : PreAcct) : (s.setAcct n x).haloBack = s.haloBack := rfl
@[simp] theorem State.setAcct_regions (s : State) (n : Nat) (x : PreAcct) : (s.setAcct n x).regions = s.regions := rfl
@[simp] theorem State.setAcct_switch (s : State) (n : Nat) (x : PreAcct) : (s.setAcct n x).switch = s.switch := rfl
@[simp] theorem State.setAcct_clrs (s : State) (n : Nat) (x : PreAcct) : (s.setAcct n x).clrs = s.clrs := rfl
@[simp] theorem State.setAcct_ledger (s : State) (n : Nat) (x : PreAcct) : (s.setAcct n x).ledger = s.ledger := rfl
@[simp] theorem State.setAcct_encs (s : State) (n : Nat) (x : PreAcct) : (s.setAcct n x).encs = s.encs := rfl
@[simp] theorem State.setAcct_evidence (s : State) (n : Nat) (x : PreAcct) : (s.setAcct n x).evidence = s.evidence := rfl
@[simp] theorem State.setAcct_adapt (s : State) (n : Nat) (x : PreAcct) : (s.setAcct n x).adapt = s.adapt := rfl
@[simp] theorem State.setAcct_flt (s : State) (n : Nat) (x : PreAcct) : (s.setAcct n x).flt = s.flt := rfl
@[simp] theorem State.setAcct_saf (s : State) (n : Nat) (x : PreAcct) : (s.setAcct n x).saf = s.saf := rfl
@[simp] theorem State.setAcct_drams (s : State) (n : Nat) (x : PreAcct) : (s.setAcct n x).drams = s.drams := rfl
@[simp] theorem State.setAcct_pci (s : State) (n : Nat) (x : PreAcct) : (s.setAcct n x).pci = s.pci := rfl
@[simp] theorem State.setAcct_nets (s : State) (n : Nat) (x : PreAcct) : (s.setAcct n x).nets = s.nets := rfl
@[simp] theorem State.setAcct_lnk (s : State) (n : Nat) (x : PreAcct) : (s.setAcct n x).lnk = s.lnk := rfl
@[simp] theorem State.setAcct_sec (s : State) (n : Nat) (x : PreAcct) : (s.setAcct n x).sec = s.sec := rfl
@[simp] theorem State.setAcct_dbg (s : State) (n : Nat) (x : PreAcct) : (s.setAcct n x).dbg = s.dbg := rfl
@[simp] theorem State.setAcct_tills (s : State) (n : Nat) (x : PreAcct) : (s.setAcct n x).tills = s.tills := rfl
@[simp] theorem State.setAcct_devTills (s : State) (n : Nat) (x : PreAcct) : (s.setAcct n x).devTills = s.devTills := rfl
@[simp] theorem State.setAcct_bridges (s : State) (n : Nat) (x : PreAcct) : (s.setAcct n x).bridges = s.bridges := rfl
@[simp] theorem State.setAcct_arbs (s : State) (n : Nat) (x : PreAcct) : (s.setAcct n x).arbs = s.arbs := rfl
@[simp] theorem State.setAcct_passbook (s : State) (n : Nat) (x : PreAcct) : (s.setAcct n x).passbook = s.passbook := rfl
@[simp] theorem State.setAcct_mem (s : State) (n : Nat) (x : PreAcct) : (s.setAcct n x).mem = s.mem := rfl
@[simp] theorem State.setAcct_voids (s : State) (n : Nat) (x : PreAcct) : (s.setAcct n x).voids = s.voids := rfl
@[simp] theorem State.setAcct_smbOffset (s : State) (n : Nat) (x : PreAcct) : (s.setAcct n x).smbOffset = s.smbOffset := rfl
@[simp] theorem State.setAcct_latched (s : State) (n : Nat) (x : PreAcct) : (s.setAcct n x).latched = s.latched := rfl
@[simp] theorem State.setAcct_readback (s : State) (n : Nat) (x : PreAcct) : (s.setAcct n x).readback = s.readback := rfl
@[simp] theorem State.setAcct_poisoned (s : State) (n : Nat) (x : PreAcct) : (s.setAcct n x).poisoned = s.poisoned := rfl
@[simp] theorem State.setAcct_nak (s : State) (n : Nat) (x : PreAcct) : (s.setAcct n x).nak = s.nak := rfl
@[simp] theorem State.setAcct_free (s : State) (n : Nat) (x : PreAcct) : (s.setAcct n x).free = s.free := rfl
@[simp] theorem State.setAcct_pending (s : State) (n : Nat) (x : PreAcct) : (s.setAcct n x).pending = s.pending := rfl
/-- What is read after the update. -/
@[simp] theorem State.setAcct_get (s : State) (n : Nat) (x : PreAcct) (j : Nat) : (s.setAcct n x).acct j = if j = n then x else s.acct j :=
  Table.get_set _ j n x _

/-! ### `State.setTill` -/

@[simp] theorem State.setTill_phase (s : State) (n : Nat) (x : Till) : (s.setTill n x).phase = s.phase := rfl
@[simp] theorem State.setTill_boot (s : State) (n : Nat) (x : Till) : (s.setTill n x).boot = s.boot := rfl
@[simp] theorem State.setTill_pins (s : State) (n : Nat) (x : Till) : (s.setTill n x).pins = s.pins := rfl
@[simp] theorem State.setTill_power (s : State) (n : Nat) (x : Till) : (s.setTill n x).power = s.power := rfl
@[simp] theorem State.setTill_fuses (s : State) (n : Nat) (x : Till) : (s.setTill n x).fuses = s.fuses := rfl
@[simp] theorem State.setTill_flash (s : State) (n : Nat) (x : Till) : (s.setTill n x).flash = s.flash := rfl
@[simp] theorem State.setTill_layout (s : State) (n : Nat) (x : Till) : (s.setTill n x).layout = s.layout := rfl
@[simp] theorem State.setTill_cfg (s : State) (n : Nat) (x : Till) : (s.setTill n x).cfg = s.cfg := rfl
@[simp] theorem State.setTill_cfgOld (s : State) (n : Nat) (x : Till) : (s.setTill n x).cfgOld = s.cfgOld := rfl
@[simp] theorem State.setTill_stl (s : State) (n : Nat) (x : Till) : (s.setTill n x).stl = s.stl := rfl
@[simp] theorem State.setTill_time (s : State) (n : Nat) (x : Till) : (s.setTill n x).time = s.time := rfl
@[simp] theorem State.setTill_journal (s : State) (n : Nat) (x : Till) : (s.setTill n x).journal = s.journal := rfl
@[simp] theorem State.setTill_streams (s : State) (n : Nat) (x : Till) : (s.setTill n x).streams = s.streams := rfl
@[simp] theorem State.setTill_decs (s : State) (n : Nat) (x : Till) : (s.setTill n x).decs = s.decs := rfl
@[simp] theorem State.setTill_accts (s : State) (n : Nat) (x : Till) : (s.setTill n x).accts = s.accts := rfl
@[simp] theorem State.setTill_rolling (s : State) (n : Nat) (x : Till) : (s.setTill n x).rolling = s.rolling := rfl
@[simp] theorem State.setTill_preConvSat (s : State) (n : Nat) (x : Till) : (s.setTill n x).preConvSat = s.preConvSat := rfl
@[simp] theorem State.setTill_ingUnmatched (s : State) (n : Nat) (x : Till) : (s.setTill n x).ingUnmatched = s.ingUnmatched := rfl
@[simp] theorem State.setTill_engines (s : State) (n : Nat) (x : Till) : (s.setTill n x).engines = s.engines := rfl
@[simp] theorem State.setTill_halo (s : State) (n : Nat) (x : Till) : (s.setTill n x).halo = s.halo := rfl
@[simp] theorem State.setTill_haloBack (s : State) (n : Nat) (x : Till) : (s.setTill n x).haloBack = s.haloBack := rfl
@[simp] theorem State.setTill_regions (s : State) (n : Nat) (x : Till) : (s.setTill n x).regions = s.regions := rfl
@[simp] theorem State.setTill_switch (s : State) (n : Nat) (x : Till) : (s.setTill n x).switch = s.switch := rfl
@[simp] theorem State.setTill_clrs (s : State) (n : Nat) (x : Till) : (s.setTill n x).clrs = s.clrs := rfl
@[simp] theorem State.setTill_ledger (s : State) (n : Nat) (x : Till) : (s.setTill n x).ledger = s.ledger := rfl
@[simp] theorem State.setTill_encs (s : State) (n : Nat) (x : Till) : (s.setTill n x).encs = s.encs := rfl
@[simp] theorem State.setTill_evidence (s : State) (n : Nat) (x : Till) : (s.setTill n x).evidence = s.evidence := rfl
@[simp] theorem State.setTill_adapt (s : State) (n : Nat) (x : Till) : (s.setTill n x).adapt = s.adapt := rfl
@[simp] theorem State.setTill_flt (s : State) (n : Nat) (x : Till) : (s.setTill n x).flt = s.flt := rfl
@[simp] theorem State.setTill_saf (s : State) (n : Nat) (x : Till) : (s.setTill n x).saf = s.saf := rfl
@[simp] theorem State.setTill_drams (s : State) (n : Nat) (x : Till) : (s.setTill n x).drams = s.drams := rfl
@[simp] theorem State.setTill_pci (s : State) (n : Nat) (x : Till) : (s.setTill n x).pci = s.pci := rfl
@[simp] theorem State.setTill_nets (s : State) (n : Nat) (x : Till) : (s.setTill n x).nets = s.nets := rfl
@[simp] theorem State.setTill_lnk (s : State) (n : Nat) (x : Till) : (s.setTill n x).lnk = s.lnk := rfl
@[simp] theorem State.setTill_sec (s : State) (n : Nat) (x : Till) : (s.setTill n x).sec = s.sec := rfl
@[simp] theorem State.setTill_dbg (s : State) (n : Nat) (x : Till) : (s.setTill n x).dbg = s.dbg := rfl
@[simp] theorem State.setTill_devTills (s : State) (n : Nat) (x : Till) : (s.setTill n x).devTills = s.devTills := rfl
@[simp] theorem State.setTill_bridges (s : State) (n : Nat) (x : Till) : (s.setTill n x).bridges = s.bridges := rfl
@[simp] theorem State.setTill_arbs (s : State) (n : Nat) (x : Till) : (s.setTill n x).arbs = s.arbs := rfl
@[simp] theorem State.setTill_passbook (s : State) (n : Nat) (x : Till) : (s.setTill n x).passbook = s.passbook := rfl
@[simp] theorem State.setTill_mem (s : State) (n : Nat) (x : Till) : (s.setTill n x).mem = s.mem := rfl
@[simp] theorem State.setTill_voids (s : State) (n : Nat) (x : Till) : (s.setTill n x).voids = s.voids := rfl
@[simp] theorem State.setTill_smbOffset (s : State) (n : Nat) (x : Till) : (s.setTill n x).smbOffset = s.smbOffset := rfl
@[simp] theorem State.setTill_latched (s : State) (n : Nat) (x : Till) : (s.setTill n x).latched = s.latched := rfl
@[simp] theorem State.setTill_readback (s : State) (n : Nat) (x : Till) : (s.setTill n x).readback = s.readback := rfl
@[simp] theorem State.setTill_poisoned (s : State) (n : Nat) (x : Till) : (s.setTill n x).poisoned = s.poisoned := rfl
@[simp] theorem State.setTill_nak (s : State) (n : Nat) (x : Till) : (s.setTill n x).nak = s.nak := rfl
@[simp] theorem State.setTill_free (s : State) (n : Nat) (x : Till) : (s.setTill n x).free = s.free := rfl
@[simp] theorem State.setTill_pending (s : State) (n : Nat) (x : Till) : (s.setTill n x).pending = s.pending := rfl
/-- What is read after the update. -/
@[simp] theorem State.setTill_get (s : State) (n : Nat) (x : Till) (j : Nat) : (s.setTill n x).till j = if j = n then x else s.till j :=
  Table.get_set _ j n x _

/-! ### `State.setDram` -/

@[simp] theorem State.setDram_phase (s : State) (n : Nat) (x : Dram) : (s.setDram n x).phase = s.phase := rfl
@[simp] theorem State.setDram_boot (s : State) (n : Nat) (x : Dram) : (s.setDram n x).boot = s.boot := rfl
@[simp] theorem State.setDram_pins (s : State) (n : Nat) (x : Dram) : (s.setDram n x).pins = s.pins := rfl
@[simp] theorem State.setDram_power (s : State) (n : Nat) (x : Dram) : (s.setDram n x).power = s.power := rfl
@[simp] theorem State.setDram_fuses (s : State) (n : Nat) (x : Dram) : (s.setDram n x).fuses = s.fuses := rfl
@[simp] theorem State.setDram_flash (s : State) (n : Nat) (x : Dram) : (s.setDram n x).flash = s.flash := rfl
@[simp] theorem State.setDram_layout (s : State) (n : Nat) (x : Dram) : (s.setDram n x).layout = s.layout := rfl
@[simp] theorem State.setDram_cfg (s : State) (n : Nat) (x : Dram) : (s.setDram n x).cfg = s.cfg := rfl
@[simp] theorem State.setDram_cfgOld (s : State) (n : Nat) (x : Dram) : (s.setDram n x).cfgOld = s.cfgOld := rfl
@[simp] theorem State.setDram_stl (s : State) (n : Nat) (x : Dram) : (s.setDram n x).stl = s.stl := rfl
@[simp] theorem State.setDram_time (s : State) (n : Nat) (x : Dram) : (s.setDram n x).time = s.time := rfl
@[simp] theorem State.setDram_journal (s : State) (n : Nat) (x : Dram) : (s.setDram n x).journal = s.journal := rfl
@[simp] theorem State.setDram_streams (s : State) (n : Nat) (x : Dram) : (s.setDram n x).streams = s.streams := rfl
@[simp] theorem State.setDram_decs (s : State) (n : Nat) (x : Dram) : (s.setDram n x).decs = s.decs := rfl
@[simp] theorem State.setDram_accts (s : State) (n : Nat) (x : Dram) : (s.setDram n x).accts = s.accts := rfl
@[simp] theorem State.setDram_rolling (s : State) (n : Nat) (x : Dram) : (s.setDram n x).rolling = s.rolling := rfl
@[simp] theorem State.setDram_preConvSat (s : State) (n : Nat) (x : Dram) : (s.setDram n x).preConvSat = s.preConvSat := rfl
@[simp] theorem State.setDram_ingUnmatched (s : State) (n : Nat) (x : Dram) : (s.setDram n x).ingUnmatched = s.ingUnmatched := rfl
@[simp] theorem State.setDram_engines (s : State) (n : Nat) (x : Dram) : (s.setDram n x).engines = s.engines := rfl
@[simp] theorem State.setDram_halo (s : State) (n : Nat) (x : Dram) : (s.setDram n x).halo = s.halo := rfl
@[simp] theorem State.setDram_haloBack (s : State) (n : Nat) (x : Dram) : (s.setDram n x).haloBack = s.haloBack := rfl
@[simp] theorem State.setDram_regions (s : State) (n : Nat) (x : Dram) : (s.setDram n x).regions = s.regions := rfl
@[simp] theorem State.setDram_switch (s : State) (n : Nat) (x : Dram) : (s.setDram n x).switch = s.switch := rfl
@[simp] theorem State.setDram_clrs (s : State) (n : Nat) (x : Dram) : (s.setDram n x).clrs = s.clrs := rfl
@[simp] theorem State.setDram_ledger (s : State) (n : Nat) (x : Dram) : (s.setDram n x).ledger = s.ledger := rfl
@[simp] theorem State.setDram_encs (s : State) (n : Nat) (x : Dram) : (s.setDram n x).encs = s.encs := rfl
@[simp] theorem State.setDram_evidence (s : State) (n : Nat) (x : Dram) : (s.setDram n x).evidence = s.evidence := rfl
@[simp] theorem State.setDram_adapt (s : State) (n : Nat) (x : Dram) : (s.setDram n x).adapt = s.adapt := rfl
@[simp] theorem State.setDram_flt (s : State) (n : Nat) (x : Dram) : (s.setDram n x).flt = s.flt := rfl
@[simp] theorem State.setDram_saf (s : State) (n : Nat) (x : Dram) : (s.setDram n x).saf = s.saf := rfl
@[simp] theorem State.setDram_pci (s : State) (n : Nat) (x : Dram) : (s.setDram n x).pci = s.pci := rfl
@[simp] theorem State.setDram_nets (s : State) (n : Nat) (x : Dram) : (s.setDram n x).nets = s.nets := rfl
@[simp] theorem State.setDram_lnk (s : State) (n : Nat) (x : Dram) : (s.setDram n x).lnk = s.lnk := rfl
@[simp] theorem State.setDram_sec (s : State) (n : Nat) (x : Dram) : (s.setDram n x).sec = s.sec := rfl
@[simp] theorem State.setDram_dbg (s : State) (n : Nat) (x : Dram) : (s.setDram n x).dbg = s.dbg := rfl
@[simp] theorem State.setDram_tills (s : State) (n : Nat) (x : Dram) : (s.setDram n x).tills = s.tills := rfl
@[simp] theorem State.setDram_devTills (s : State) (n : Nat) (x : Dram) : (s.setDram n x).devTills = s.devTills := rfl
@[simp] theorem State.setDram_bridges (s : State) (n : Nat) (x : Dram) : (s.setDram n x).bridges = s.bridges := rfl
@[simp] theorem State.setDram_arbs (s : State) (n : Nat) (x : Dram) : (s.setDram n x).arbs = s.arbs := rfl
@[simp] theorem State.setDram_passbook (s : State) (n : Nat) (x : Dram) : (s.setDram n x).passbook = s.passbook := rfl
@[simp] theorem State.setDram_mem (s : State) (n : Nat) (x : Dram) : (s.setDram n x).mem = s.mem := rfl
@[simp] theorem State.setDram_voids (s : State) (n : Nat) (x : Dram) : (s.setDram n x).voids = s.voids := rfl
@[simp] theorem State.setDram_smbOffset (s : State) (n : Nat) (x : Dram) : (s.setDram n x).smbOffset = s.smbOffset := rfl
@[simp] theorem State.setDram_latched (s : State) (n : Nat) (x : Dram) : (s.setDram n x).latched = s.latched := rfl
@[simp] theorem State.setDram_readback (s : State) (n : Nat) (x : Dram) : (s.setDram n x).readback = s.readback := rfl
@[simp] theorem State.setDram_poisoned (s : State) (n : Nat) (x : Dram) : (s.setDram n x).poisoned = s.poisoned := rfl
@[simp] theorem State.setDram_nak (s : State) (n : Nat) (x : Dram) : (s.setDram n x).nak = s.nak := rfl
@[simp] theorem State.setDram_free (s : State) (n : Nat) (x : Dram) : (s.setDram n x).free = s.free := rfl
@[simp] theorem State.setDram_pending (s : State) (n : Nat) (x : Dram) : (s.setDram n x).pending = s.pending := rfl
/-- What is read after the update. -/
@[simp] theorem State.setDram_get (s : State) (n : Nat) (x : Dram) (j : Nat) : (s.setDram n x).dram j = if j = n then x else s.dram j :=
  Table.get_set _ j n x _

/-! ### `State.setArb` -/

@[simp] theorem State.setArb_phase (s : State) (n : Nat) (x : Arbiter) : (s.setArb n x).phase = s.phase := rfl
@[simp] theorem State.setArb_boot (s : State) (n : Nat) (x : Arbiter) : (s.setArb n x).boot = s.boot := rfl
@[simp] theorem State.setArb_pins (s : State) (n : Nat) (x : Arbiter) : (s.setArb n x).pins = s.pins := rfl
@[simp] theorem State.setArb_power (s : State) (n : Nat) (x : Arbiter) : (s.setArb n x).power = s.power := rfl
@[simp] theorem State.setArb_fuses (s : State) (n : Nat) (x : Arbiter) : (s.setArb n x).fuses = s.fuses := rfl
@[simp] theorem State.setArb_flash (s : State) (n : Nat) (x : Arbiter) : (s.setArb n x).flash = s.flash := rfl
@[simp] theorem State.setArb_layout (s : State) (n : Nat) (x : Arbiter) : (s.setArb n x).layout = s.layout := rfl
@[simp] theorem State.setArb_cfg (s : State) (n : Nat) (x : Arbiter) : (s.setArb n x).cfg = s.cfg := rfl
@[simp] theorem State.setArb_cfgOld (s : State) (n : Nat) (x : Arbiter) : (s.setArb n x).cfgOld = s.cfgOld := rfl
@[simp] theorem State.setArb_stl (s : State) (n : Nat) (x : Arbiter) : (s.setArb n x).stl = s.stl := rfl
@[simp] theorem State.setArb_time (s : State) (n : Nat) (x : Arbiter) : (s.setArb n x).time = s.time := rfl
@[simp] theorem State.setArb_journal (s : State) (n : Nat) (x : Arbiter) : (s.setArb n x).journal = s.journal := rfl
@[simp] theorem State.setArb_streams (s : State) (n : Nat) (x : Arbiter) : (s.setArb n x).streams = s.streams := rfl
@[simp] theorem State.setArb_decs (s : State) (n : Nat) (x : Arbiter) : (s.setArb n x).decs = s.decs := rfl
@[simp] theorem State.setArb_accts (s : State) (n : Nat) (x : Arbiter) : (s.setArb n x).accts = s.accts := rfl
@[simp] theorem State.setArb_rolling (s : State) (n : Nat) (x : Arbiter) : (s.setArb n x).rolling = s.rolling := rfl
@[simp] theorem State.setArb_preConvSat (s : State) (n : Nat) (x : Arbiter) : (s.setArb n x).preConvSat = s.preConvSat := rfl
@[simp] theorem State.setArb_ingUnmatched (s : State) (n : Nat) (x : Arbiter) : (s.setArb n x).ingUnmatched = s.ingUnmatched := rfl
@[simp] theorem State.setArb_engines (s : State) (n : Nat) (x : Arbiter) : (s.setArb n x).engines = s.engines := rfl
@[simp] theorem State.setArb_halo (s : State) (n : Nat) (x : Arbiter) : (s.setArb n x).halo = s.halo := rfl
@[simp] theorem State.setArb_haloBack (s : State) (n : Nat) (x : Arbiter) : (s.setArb n x).haloBack = s.haloBack := rfl
@[simp] theorem State.setArb_regions (s : State) (n : Nat) (x : Arbiter) : (s.setArb n x).regions = s.regions := rfl
@[simp] theorem State.setArb_switch (s : State) (n : Nat) (x : Arbiter) : (s.setArb n x).switch = s.switch := rfl
@[simp] theorem State.setArb_clrs (s : State) (n : Nat) (x : Arbiter) : (s.setArb n x).clrs = s.clrs := rfl
@[simp] theorem State.setArb_ledger (s : State) (n : Nat) (x : Arbiter) : (s.setArb n x).ledger = s.ledger := rfl
@[simp] theorem State.setArb_encs (s : State) (n : Nat) (x : Arbiter) : (s.setArb n x).encs = s.encs := rfl
@[simp] theorem State.setArb_evidence (s : State) (n : Nat) (x : Arbiter) : (s.setArb n x).evidence = s.evidence := rfl
@[simp] theorem State.setArb_adapt (s : State) (n : Nat) (x : Arbiter) : (s.setArb n x).adapt = s.adapt := rfl
@[simp] theorem State.setArb_flt (s : State) (n : Nat) (x : Arbiter) : (s.setArb n x).flt = s.flt := rfl
@[simp] theorem State.setArb_saf (s : State) (n : Nat) (x : Arbiter) : (s.setArb n x).saf = s.saf := rfl
@[simp] theorem State.setArb_drams (s : State) (n : Nat) (x : Arbiter) : (s.setArb n x).drams = s.drams := rfl
@[simp] theorem State.setArb_pci (s : State) (n : Nat) (x : Arbiter) : (s.setArb n x).pci = s.pci := rfl
@[simp] theorem State.setArb_nets (s : State) (n : Nat) (x : Arbiter) : (s.setArb n x).nets = s.nets := rfl
@[simp] theorem State.setArb_lnk (s : State) (n : Nat) (x : Arbiter) : (s.setArb n x).lnk = s.lnk := rfl
@[simp] theorem State.setArb_sec (s : State) (n : Nat) (x : Arbiter) : (s.setArb n x).sec = s.sec := rfl
@[simp] theorem State.setArb_dbg (s : State) (n : Nat) (x : Arbiter) : (s.setArb n x).dbg = s.dbg := rfl
@[simp] theorem State.setArb_tills (s : State) (n : Nat) (x : Arbiter) : (s.setArb n x).tills = s.tills := rfl
@[simp] theorem State.setArb_devTills (s : State) (n : Nat) (x : Arbiter) : (s.setArb n x).devTills = s.devTills := rfl
@[simp] theorem State.setArb_bridges (s : State) (n : Nat) (x : Arbiter) : (s.setArb n x).bridges = s.bridges := rfl
@[simp] theorem State.setArb_passbook (s : State) (n : Nat) (x : Arbiter) : (s.setArb n x).passbook = s.passbook := rfl
@[simp] theorem State.setArb_mem (s : State) (n : Nat) (x : Arbiter) : (s.setArb n x).mem = s.mem := rfl
@[simp] theorem State.setArb_voids (s : State) (n : Nat) (x : Arbiter) : (s.setArb n x).voids = s.voids := rfl
@[simp] theorem State.setArb_smbOffset (s : State) (n : Nat) (x : Arbiter) : (s.setArb n x).smbOffset = s.smbOffset := rfl
@[simp] theorem State.setArb_latched (s : State) (n : Nat) (x : Arbiter) : (s.setArb n x).latched = s.latched := rfl
@[simp] theorem State.setArb_readback (s : State) (n : Nat) (x : Arbiter) : (s.setArb n x).readback = s.readback := rfl
@[simp] theorem State.setArb_poisoned (s : State) (n : Nat) (x : Arbiter) : (s.setArb n x).poisoned = s.poisoned := rfl
@[simp] theorem State.setArb_nak (s : State) (n : Nat) (x : Arbiter) : (s.setArb n x).nak = s.nak := rfl
@[simp] theorem State.setArb_free (s : State) (n : Nat) (x : Arbiter) : (s.setArb n x).free = s.free := rfl
@[simp] theorem State.setArb_pending (s : State) (n : Nat) (x : Arbiter) : (s.setArb n x).pending = s.pending := rfl
/-- What is read after the update. -/
@[simp] theorem State.setArb_get (s : State) (n : Nat) (x : Arbiter) (j : Nat) : (s.setArb n x).arb j = if j = n then x else s.arb j :=
  Table.get_set _ j n x _

/-! ### `State.setZone` -/

@[simp] theorem State.setZone_phase (s : State) (n : Nat) (x : Zone) : (s.setZone n x).phase = s.phase := rfl
@[simp] theorem State.setZone_boot (s : State) (n : Nat) (x : Zone) : (s.setZone n x).boot = s.boot := rfl
@[simp] theorem State.setZone_pins (s : State) (n : Nat) (x : Zone) : (s.setZone n x).pins = s.pins := rfl
@[simp] theorem State.setZone_power (s : State) (n : Nat) (x : Zone) : (s.setZone n x).power = s.power := rfl
@[simp] theorem State.setZone_fuses (s : State) (n : Nat) (x : Zone) : (s.setZone n x).fuses = s.fuses := rfl
@[simp] theorem State.setZone_flash (s : State) (n : Nat) (x : Zone) : (s.setZone n x).flash = s.flash := rfl
@[simp] theorem State.setZone_layout (s : State) (n : Nat) (x : Zone) : (s.setZone n x).layout = s.layout := rfl
@[simp] theorem State.setZone_cfg (s : State) (n : Nat) (x : Zone) : (s.setZone n x).cfg = s.cfg := rfl
@[simp] theorem State.setZone_cfgOld (s : State) (n : Nat) (x : Zone) : (s.setZone n x).cfgOld = s.cfgOld := rfl
@[simp] theorem State.setZone_stl (s : State) (n : Nat) (x : Zone) : (s.setZone n x).stl = s.stl := rfl
@[simp] theorem State.setZone_time (s : State) (n : Nat) (x : Zone) : (s.setZone n x).time = s.time := rfl
@[simp] theorem State.setZone_journal (s : State) (n : Nat) (x : Zone) : (s.setZone n x).journal = s.journal := rfl
@[simp] theorem State.setZone_streams (s : State) (n : Nat) (x : Zone) : (s.setZone n x).streams = s.streams := rfl
@[simp] theorem State.setZone_decs (s : State) (n : Nat) (x : Zone) : (s.setZone n x).decs = s.decs := rfl
@[simp] theorem State.setZone_accts (s : State) (n : Nat) (x : Zone) : (s.setZone n x).accts = s.accts := rfl
@[simp] theorem State.setZone_rolling (s : State) (n : Nat) (x : Zone) : (s.setZone n x).rolling = s.rolling := rfl
@[simp] theorem State.setZone_preConvSat (s : State) (n : Nat) (x : Zone) : (s.setZone n x).preConvSat = s.preConvSat := rfl
@[simp] theorem State.setZone_ingUnmatched (s : State) (n : Nat) (x : Zone) : (s.setZone n x).ingUnmatched = s.ingUnmatched := rfl
@[simp] theorem State.setZone_engines (s : State) (n : Nat) (x : Zone) : (s.setZone n x).engines = s.engines := rfl
@[simp] theorem State.setZone_halo (s : State) (n : Nat) (x : Zone) : (s.setZone n x).halo = s.halo := rfl
@[simp] theorem State.setZone_haloBack (s : State) (n : Nat) (x : Zone) : (s.setZone n x).haloBack = s.haloBack := rfl
@[simp] theorem State.setZone_regions (s : State) (n : Nat) (x : Zone) : (s.setZone n x).regions = s.regions := rfl
@[simp] theorem State.setZone_switch (s : State) (n : Nat) (x : Zone) : (s.setZone n x).switch = s.switch := rfl
@[simp] theorem State.setZone_clrs (s : State) (n : Nat) (x : Zone) : (s.setZone n x).clrs = s.clrs := rfl
@[simp] theorem State.setZone_ledger (s : State) (n : Nat) (x : Zone) : (s.setZone n x).ledger = s.ledger := rfl
@[simp] theorem State.setZone_encs (s : State) (n : Nat) (x : Zone) : (s.setZone n x).encs = s.encs := rfl
@[simp] theorem State.setZone_evidence (s : State) (n : Nat) (x : Zone) : (s.setZone n x).evidence = s.evidence := rfl
@[simp] theorem State.setZone_adapt (s : State) (n : Nat) (x : Zone) : (s.setZone n x).adapt = s.adapt := rfl
@[simp] theorem State.setZone_flt (s : State) (n : Nat) (x : Zone) : (s.setZone n x).flt = s.flt := rfl
@[simp] theorem State.setZone_drams (s : State) (n : Nat) (x : Zone) : (s.setZone n x).drams = s.drams := rfl
@[simp] theorem State.setZone_pci (s : State) (n : Nat) (x : Zone) : (s.setZone n x).pci = s.pci := rfl
@[simp] theorem State.setZone_nets (s : State) (n : Nat) (x : Zone) : (s.setZone n x).nets = s.nets := rfl
@[simp] theorem State.setZone_lnk (s : State) (n : Nat) (x : Zone) : (s.setZone n x).lnk = s.lnk := rfl
@[simp] theorem State.setZone_sec (s : State) (n : Nat) (x : Zone) : (s.setZone n x).sec = s.sec := rfl
@[simp] theorem State.setZone_dbg (s : State) (n : Nat) (x : Zone) : (s.setZone n x).dbg = s.dbg := rfl
@[simp] theorem State.setZone_tills (s : State) (n : Nat) (x : Zone) : (s.setZone n x).tills = s.tills := rfl
@[simp] theorem State.setZone_devTills (s : State) (n : Nat) (x : Zone) : (s.setZone n x).devTills = s.devTills := rfl
@[simp] theorem State.setZone_bridges (s : State) (n : Nat) (x : Zone) : (s.setZone n x).bridges = s.bridges := rfl
@[simp] theorem State.setZone_arbs (s : State) (n : Nat) (x : Zone) : (s.setZone n x).arbs = s.arbs := rfl
@[simp] theorem State.setZone_passbook (s : State) (n : Nat) (x : Zone) : (s.setZone n x).passbook = s.passbook := rfl
@[simp] theorem State.setZone_mem (s : State) (n : Nat) (x : Zone) : (s.setZone n x).mem = s.mem := rfl
@[simp] theorem State.setZone_voids (s : State) (n : Nat) (x : Zone) : (s.setZone n x).voids = s.voids := rfl
@[simp] theorem State.setZone_smbOffset (s : State) (n : Nat) (x : Zone) : (s.setZone n x).smbOffset = s.smbOffset := rfl
@[simp] theorem State.setZone_latched (s : State) (n : Nat) (x : Zone) : (s.setZone n x).latched = s.latched := rfl
@[simp] theorem State.setZone_readback (s : State) (n : Nat) (x : Zone) : (s.setZone n x).readback = s.readback := rfl
@[simp] theorem State.setZone_poisoned (s : State) (n : Nat) (x : Zone) : (s.setZone n x).poisoned = s.poisoned := rfl
@[simp] theorem State.setZone_nak (s : State) (n : Nat) (x : Zone) : (s.setZone n x).nak = s.nak := rfl
@[simp] theorem State.setZone_free (s : State) (n : Nat) (x : Zone) : (s.setZone n x).free = s.free := rfl
@[simp] theorem State.setZone_pending (s : State) (n : Nat) (x : Zone) : (s.setZone n x).pending = s.pending := rfl
/-- What is read after the update. -/
@[simp] theorem State.setZone_get (s : State) (n : Nat) (x : Zone) (j : Nat) : (s.setZone n x).zone j = if j = n then x else s.zone j :=
  Table.get_set _ j n x _

/-! ### `State.setChannel` -/

@[simp] theorem State.setChannel_phase (s : State) (n : Nat) (x : Channel) : (s.setChannel n x).phase = s.phase := rfl
@[simp] theorem State.setChannel_boot (s : State) (n : Nat) (x : Channel) : (s.setChannel n x).boot = s.boot := rfl
@[simp] theorem State.setChannel_pins (s : State) (n : Nat) (x : Channel) : (s.setChannel n x).pins = s.pins := rfl
@[simp] theorem State.setChannel_power (s : State) (n : Nat) (x : Channel) : (s.setChannel n x).power = s.power := rfl
@[simp] theorem State.setChannel_fuses (s : State) (n : Nat) (x : Channel) : (s.setChannel n x).fuses = s.fuses := rfl
@[simp] theorem State.setChannel_flash (s : State) (n : Nat) (x : Channel) : (s.setChannel n x).flash = s.flash := rfl
@[simp] theorem State.setChannel_layout (s : State) (n : Nat) (x : Channel) : (s.setChannel n x).layout = s.layout := rfl
@[simp] theorem State.setChannel_cfg (s : State) (n : Nat) (x : Channel) : (s.setChannel n x).cfg = s.cfg := rfl
@[simp] theorem State.setChannel_cfgOld (s : State) (n : Nat) (x : Channel) : (s.setChannel n x).cfgOld = s.cfgOld := rfl
@[simp] theorem State.setChannel_stl (s : State) (n : Nat) (x : Channel) : (s.setChannel n x).stl = s.stl := rfl
@[simp] theorem State.setChannel_time (s : State) (n : Nat) (x : Channel) : (s.setChannel n x).time = s.time := rfl
@[simp] theorem State.setChannel_journal (s : State) (n : Nat) (x : Channel) : (s.setChannel n x).journal = s.journal := rfl
@[simp] theorem State.setChannel_streams (s : State) (n : Nat) (x : Channel) : (s.setChannel n x).streams = s.streams := rfl
@[simp] theorem State.setChannel_decs (s : State) (n : Nat) (x : Channel) : (s.setChannel n x).decs = s.decs := rfl
@[simp] theorem State.setChannel_accts (s : State) (n : Nat) (x : Channel) : (s.setChannel n x).accts = s.accts := rfl
@[simp] theorem State.setChannel_rolling (s : State) (n : Nat) (x : Channel) : (s.setChannel n x).rolling = s.rolling := rfl
@[simp] theorem State.setChannel_preConvSat (s : State) (n : Nat) (x : Channel) : (s.setChannel n x).preConvSat = s.preConvSat := rfl
@[simp] theorem State.setChannel_ingUnmatched (s : State) (n : Nat) (x : Channel) : (s.setChannel n x).ingUnmatched = s.ingUnmatched := rfl
@[simp] theorem State.setChannel_engines (s : State) (n : Nat) (x : Channel) : (s.setChannel n x).engines = s.engines := rfl
@[simp] theorem State.setChannel_halo (s : State) (n : Nat) (x : Channel) : (s.setChannel n x).halo = s.halo := rfl
@[simp] theorem State.setChannel_haloBack (s : State) (n : Nat) (x : Channel) : (s.setChannel n x).haloBack = s.haloBack := rfl
@[simp] theorem State.setChannel_regions (s : State) (n : Nat) (x : Channel) : (s.setChannel n x).regions = s.regions := rfl
@[simp] theorem State.setChannel_switch (s : State) (n : Nat) (x : Channel) : (s.setChannel n x).switch = s.switch := rfl
@[simp] theorem State.setChannel_clrs (s : State) (n : Nat) (x : Channel) : (s.setChannel n x).clrs = s.clrs := rfl
@[simp] theorem State.setChannel_ledger (s : State) (n : Nat) (x : Channel) : (s.setChannel n x).ledger = s.ledger := rfl
@[simp] theorem State.setChannel_encs (s : State) (n : Nat) (x : Channel) : (s.setChannel n x).encs = s.encs := rfl
@[simp] theorem State.setChannel_evidence (s : State) (n : Nat) (x : Channel) : (s.setChannel n x).evidence = s.evidence := rfl
@[simp] theorem State.setChannel_adapt (s : State) (n : Nat) (x : Channel) : (s.setChannel n x).adapt = s.adapt := rfl
@[simp] theorem State.setChannel_flt (s : State) (n : Nat) (x : Channel) : (s.setChannel n x).flt = s.flt := rfl
@[simp] theorem State.setChannel_drams (s : State) (n : Nat) (x : Channel) : (s.setChannel n x).drams = s.drams := rfl
@[simp] theorem State.setChannel_pci (s : State) (n : Nat) (x : Channel) : (s.setChannel n x).pci = s.pci := rfl
@[simp] theorem State.setChannel_nets (s : State) (n : Nat) (x : Channel) : (s.setChannel n x).nets = s.nets := rfl
@[simp] theorem State.setChannel_lnk (s : State) (n : Nat) (x : Channel) : (s.setChannel n x).lnk = s.lnk := rfl
@[simp] theorem State.setChannel_sec (s : State) (n : Nat) (x : Channel) : (s.setChannel n x).sec = s.sec := rfl
@[simp] theorem State.setChannel_dbg (s : State) (n : Nat) (x : Channel) : (s.setChannel n x).dbg = s.dbg := rfl
@[simp] theorem State.setChannel_tills (s : State) (n : Nat) (x : Channel) : (s.setChannel n x).tills = s.tills := rfl
@[simp] theorem State.setChannel_devTills (s : State) (n : Nat) (x : Channel) : (s.setChannel n x).devTills = s.devTills := rfl
@[simp] theorem State.setChannel_bridges (s : State) (n : Nat) (x : Channel) : (s.setChannel n x).bridges = s.bridges := rfl
@[simp] theorem State.setChannel_arbs (s : State) (n : Nat) (x : Channel) : (s.setChannel n x).arbs = s.arbs := rfl
@[simp] theorem State.setChannel_passbook (s : State) (n : Nat) (x : Channel) : (s.setChannel n x).passbook = s.passbook := rfl
@[simp] theorem State.setChannel_mem (s : State) (n : Nat) (x : Channel) : (s.setChannel n x).mem = s.mem := rfl
@[simp] theorem State.setChannel_voids (s : State) (n : Nat) (x : Channel) : (s.setChannel n x).voids = s.voids := rfl
@[simp] theorem State.setChannel_smbOffset (s : State) (n : Nat) (x : Channel) : (s.setChannel n x).smbOffset = s.smbOffset := rfl
@[simp] theorem State.setChannel_latched (s : State) (n : Nat) (x : Channel) : (s.setChannel n x).latched = s.latched := rfl
@[simp] theorem State.setChannel_readback (s : State) (n : Nat) (x : Channel) : (s.setChannel n x).readback = s.readback := rfl
@[simp] theorem State.setChannel_poisoned (s : State) (n : Nat) (x : Channel) : (s.setChannel n x).poisoned = s.poisoned := rfl
@[simp] theorem State.setChannel_nak (s : State) (n : Nat) (x : Channel) : (s.setChannel n x).nak = s.nak := rfl
@[simp] theorem State.setChannel_free (s : State) (n : Nat) (x : Channel) : (s.setChannel n x).free = s.free := rfl
@[simp] theorem State.setChannel_pending (s : State) (n : Nat) (x : Channel) : (s.setChannel n x).pending = s.pending := rfl
/-- What is read after the update. -/
@[simp] theorem State.setChannel_get (s : State) (n : Nat) (x : Channel) (j : Nat) : (s.setChannel n x).channel j = if j = n then x else s.channel j :=
  Table.get_set _ j n x _

/-! ### `State.setTrack` -/

@[simp] theorem State.setTrack_phase (s : State) (n : Nat) (x : Track) : (s.setTrack n x).phase = s.phase := rfl
@[simp] theorem State.setTrack_boot (s : State) (n : Nat) (x : Track) : (s.setTrack n x).boot = s.boot := rfl
@[simp] theorem State.setTrack_pins (s : State) (n : Nat) (x : Track) : (s.setTrack n x).pins = s.pins := rfl
@[simp] theorem State.setTrack_power (s : State) (n : Nat) (x : Track) : (s.setTrack n x).power = s.power := rfl
@[simp] theorem State.setTrack_fuses (s : State) (n : Nat) (x : Track) : (s.setTrack n x).fuses = s.fuses := rfl
@[simp] theorem State.setTrack_flash (s : State) (n : Nat) (x : Track) : (s.setTrack n x).flash = s.flash := rfl
@[simp] theorem State.setTrack_layout (s : State) (n : Nat) (x : Track) : (s.setTrack n x).layout = s.layout := rfl
@[simp] theorem State.setTrack_cfg (s : State) (n : Nat) (x : Track) : (s.setTrack n x).cfg = s.cfg := rfl
@[simp] theorem State.setTrack_cfgOld (s : State) (n : Nat) (x : Track) : (s.setTrack n x).cfgOld = s.cfgOld := rfl
@[simp] theorem State.setTrack_stl (s : State) (n : Nat) (x : Track) : (s.setTrack n x).stl = s.stl := rfl
@[simp] theorem State.setTrack_time (s : State) (n : Nat) (x : Track) : (s.setTrack n x).time = s.time := rfl
@[simp] theorem State.setTrack_journal (s : State) (n : Nat) (x : Track) : (s.setTrack n x).journal = s.journal := rfl
@[simp] theorem State.setTrack_streams (s : State) (n : Nat) (x : Track) : (s.setTrack n x).streams = s.streams := rfl
@[simp] theorem State.setTrack_decs (s : State) (n : Nat) (x : Track) : (s.setTrack n x).decs = s.decs := rfl
@[simp] theorem State.setTrack_accts (s : State) (n : Nat) (x : Track) : (s.setTrack n x).accts = s.accts := rfl
@[simp] theorem State.setTrack_rolling (s : State) (n : Nat) (x : Track) : (s.setTrack n x).rolling = s.rolling := rfl
@[simp] theorem State.setTrack_preConvSat (s : State) (n : Nat) (x : Track) : (s.setTrack n x).preConvSat = s.preConvSat := rfl
@[simp] theorem State.setTrack_ingUnmatched (s : State) (n : Nat) (x : Track) : (s.setTrack n x).ingUnmatched = s.ingUnmatched := rfl
@[simp] theorem State.setTrack_engines (s : State) (n : Nat) (x : Track) : (s.setTrack n x).engines = s.engines := rfl
@[simp] theorem State.setTrack_halo (s : State) (n : Nat) (x : Track) : (s.setTrack n x).halo = s.halo := rfl
@[simp] theorem State.setTrack_haloBack (s : State) (n : Nat) (x : Track) : (s.setTrack n x).haloBack = s.haloBack := rfl
@[simp] theorem State.setTrack_regions (s : State) (n : Nat) (x : Track) : (s.setTrack n x).regions = s.regions := rfl
@[simp] theorem State.setTrack_switch (s : State) (n : Nat) (x : Track) : (s.setTrack n x).switch = s.switch := rfl
@[simp] theorem State.setTrack_clrs (s : State) (n : Nat) (x : Track) : (s.setTrack n x).clrs = s.clrs := rfl
@[simp] theorem State.setTrack_encs (s : State) (n : Nat) (x : Track) : (s.setTrack n x).encs = s.encs := rfl
@[simp] theorem State.setTrack_evidence (s : State) (n : Nat) (x : Track) : (s.setTrack n x).evidence = s.evidence := rfl
@[simp] theorem State.setTrack_adapt (s : State) (n : Nat) (x : Track) : (s.setTrack n x).adapt = s.adapt := rfl
@[simp] theorem State.setTrack_flt (s : State) (n : Nat) (x : Track) : (s.setTrack n x).flt = s.flt := rfl
@[simp] theorem State.setTrack_saf (s : State) (n : Nat) (x : Track) : (s.setTrack n x).saf = s.saf := rfl
@[simp] theorem State.setTrack_drams (s : State) (n : Nat) (x : Track) : (s.setTrack n x).drams = s.drams := rfl
@[simp] theorem State.setTrack_pci (s : State) (n : Nat) (x : Track) : (s.setTrack n x).pci = s.pci := rfl
@[simp] theorem State.setTrack_nets (s : State) (n : Nat) (x : Track) : (s.setTrack n x).nets = s.nets := rfl
@[simp] theorem State.setTrack_lnk (s : State) (n : Nat) (x : Track) : (s.setTrack n x).lnk = s.lnk := rfl
@[simp] theorem State.setTrack_sec (s : State) (n : Nat) (x : Track) : (s.setTrack n x).sec = s.sec := rfl
@[simp] theorem State.setTrack_dbg (s : State) (n : Nat) (x : Track) : (s.setTrack n x).dbg = s.dbg := rfl
@[simp] theorem State.setTrack_tills (s : State) (n : Nat) (x : Track) : (s.setTrack n x).tills = s.tills := rfl
@[simp] theorem State.setTrack_devTills (s : State) (n : Nat) (x : Track) : (s.setTrack n x).devTills = s.devTills := rfl
@[simp] theorem State.setTrack_bridges (s : State) (n : Nat) (x : Track) : (s.setTrack n x).bridges = s.bridges := rfl
@[simp] theorem State.setTrack_arbs (s : State) (n : Nat) (x : Track) : (s.setTrack n x).arbs = s.arbs := rfl
@[simp] theorem State.setTrack_passbook (s : State) (n : Nat) (x : Track) : (s.setTrack n x).passbook = s.passbook := rfl
@[simp] theorem State.setTrack_mem (s : State) (n : Nat) (x : Track) : (s.setTrack n x).mem = s.mem := rfl
@[simp] theorem State.setTrack_voids (s : State) (n : Nat) (x : Track) : (s.setTrack n x).voids = s.voids := rfl
@[simp] theorem State.setTrack_smbOffset (s : State) (n : Nat) (x : Track) : (s.setTrack n x).smbOffset = s.smbOffset := rfl
@[simp] theorem State.setTrack_latched (s : State) (n : Nat) (x : Track) : (s.setTrack n x).latched = s.latched := rfl
@[simp] theorem State.setTrack_readback (s : State) (n : Nat) (x : Track) : (s.setTrack n x).readback = s.readback := rfl
@[simp] theorem State.setTrack_poisoned (s : State) (n : Nat) (x : Track) : (s.setTrack n x).poisoned = s.poisoned := rfl
@[simp] theorem State.setTrack_nak (s : State) (n : Nat) (x : Track) : (s.setTrack n x).nak = s.nak := rfl
@[simp] theorem State.setTrack_free (s : State) (n : Nat) (x : Track) : (s.setTrack n x).free = s.free := rfl
@[simp] theorem State.setTrack_pending (s : State) (n : Nat) (x : Track) : (s.setTrack n x).pending = s.pending := rfl
/-- What is read after the update. -/
@[simp] theorem State.setTrack_get (s : State) (n : Nat) (x : Track) (j : Nat) : (s.setTrack n x).track j = if j = n then x else s.track j :=
  Table.get_set _ j n x _

/-! ### `State.setPeer` -/

@[simp] theorem State.setPeer_phase (s : State) (n : Nat) (x : Peer) : (s.setPeer n x).phase = s.phase := rfl
@[simp] theorem State.setPeer_boot (s : State) (n : Nat) (x : Peer) : (s.setPeer n x).boot = s.boot := rfl
@[simp] theorem State.setPeer_pins (s : State) (n : Nat) (x : Peer) : (s.setPeer n x).pins = s.pins := rfl
@[simp] theorem State.setPeer_power (s : State) (n : Nat) (x : Peer) : (s.setPeer n x).power = s.power := rfl
@[simp] theorem State.setPeer_fuses (s : State) (n : Nat) (x : Peer) : (s.setPeer n x).fuses = s.fuses := rfl
@[simp] theorem State.setPeer_flash (s : State) (n : Nat) (x : Peer) : (s.setPeer n x).flash = s.flash := rfl
@[simp] theorem State.setPeer_layout (s : State) (n : Nat) (x : Peer) : (s.setPeer n x).layout = s.layout := rfl
@[simp] theorem State.setPeer_cfg (s : State) (n : Nat) (x : Peer) : (s.setPeer n x).cfg = s.cfg := rfl
@[simp] theorem State.setPeer_cfgOld (s : State) (n : Nat) (x : Peer) : (s.setPeer n x).cfgOld = s.cfgOld := rfl
@[simp] theorem State.setPeer_stl (s : State) (n : Nat) (x : Peer) : (s.setPeer n x).stl = s.stl := rfl
@[simp] theorem State.setPeer_time (s : State) (n : Nat) (x : Peer) : (s.setPeer n x).time = s.time := rfl
@[simp] theorem State.setPeer_journal (s : State) (n : Nat) (x : Peer) : (s.setPeer n x).journal = s.journal := rfl
@[simp] theorem State.setPeer_streams (s : State) (n : Nat) (x : Peer) : (s.setPeer n x).streams = s.streams := rfl
@[simp] theorem State.setPeer_decs (s : State) (n : Nat) (x : Peer) : (s.setPeer n x).decs = s.decs := rfl
@[simp] theorem State.setPeer_accts (s : State) (n : Nat) (x : Peer) : (s.setPeer n x).accts = s.accts := rfl
@[simp] theorem State.setPeer_rolling (s : State) (n : Nat) (x : Peer) : (s.setPeer n x).rolling = s.rolling := rfl
@[simp] theorem State.setPeer_preConvSat (s : State) (n : Nat) (x : Peer) : (s.setPeer n x).preConvSat = s.preConvSat := rfl
@[simp] theorem State.setPeer_ingUnmatched (s : State) (n : Nat) (x : Peer) : (s.setPeer n x).ingUnmatched = s.ingUnmatched := rfl
@[simp] theorem State.setPeer_engines (s : State) (n : Nat) (x : Peer) : (s.setPeer n x).engines = s.engines := rfl
@[simp] theorem State.setPeer_halo (s : State) (n : Nat) (x : Peer) : (s.setPeer n x).halo = s.halo := rfl
@[simp] theorem State.setPeer_haloBack (s : State) (n : Nat) (x : Peer) : (s.setPeer n x).haloBack = s.haloBack := rfl
@[simp] theorem State.setPeer_regions (s : State) (n : Nat) (x : Peer) : (s.setPeer n x).regions = s.regions := rfl
@[simp] theorem State.setPeer_switch (s : State) (n : Nat) (x : Peer) : (s.setPeer n x).switch = s.switch := rfl
@[simp] theorem State.setPeer_clrs (s : State) (n : Nat) (x : Peer) : (s.setPeer n x).clrs = s.clrs := rfl
@[simp] theorem State.setPeer_ledger (s : State) (n : Nat) (x : Peer) : (s.setPeer n x).ledger = s.ledger := rfl
@[simp] theorem State.setPeer_encs (s : State) (n : Nat) (x : Peer) : (s.setPeer n x).encs = s.encs := rfl
@[simp] theorem State.setPeer_evidence (s : State) (n : Nat) (x : Peer) : (s.setPeer n x).evidence = s.evidence := rfl
@[simp] theorem State.setPeer_adapt (s : State) (n : Nat) (x : Peer) : (s.setPeer n x).adapt = s.adapt := rfl
@[simp] theorem State.setPeer_flt (s : State) (n : Nat) (x : Peer) : (s.setPeer n x).flt = s.flt := rfl
@[simp] theorem State.setPeer_saf (s : State) (n : Nat) (x : Peer) : (s.setPeer n x).saf = s.saf := rfl
@[simp] theorem State.setPeer_drams (s : State) (n : Nat) (x : Peer) : (s.setPeer n x).drams = s.drams := rfl
@[simp] theorem State.setPeer_pci (s : State) (n : Nat) (x : Peer) : (s.setPeer n x).pci = s.pci := rfl
@[simp] theorem State.setPeer_nets (s : State) (n : Nat) (x : Peer) : (s.setPeer n x).nets = s.nets := rfl
@[simp] theorem State.setPeer_sec (s : State) (n : Nat) (x : Peer) : (s.setPeer n x).sec = s.sec := rfl
@[simp] theorem State.setPeer_dbg (s : State) (n : Nat) (x : Peer) : (s.setPeer n x).dbg = s.dbg := rfl
@[simp] theorem State.setPeer_tills (s : State) (n : Nat) (x : Peer) : (s.setPeer n x).tills = s.tills := rfl
@[simp] theorem State.setPeer_devTills (s : State) (n : Nat) (x : Peer) : (s.setPeer n x).devTills = s.devTills := rfl
@[simp] theorem State.setPeer_bridges (s : State) (n : Nat) (x : Peer) : (s.setPeer n x).bridges = s.bridges := rfl
@[simp] theorem State.setPeer_arbs (s : State) (n : Nat) (x : Peer) : (s.setPeer n x).arbs = s.arbs := rfl
@[simp] theorem State.setPeer_passbook (s : State) (n : Nat) (x : Peer) : (s.setPeer n x).passbook = s.passbook := rfl
@[simp] theorem State.setPeer_mem (s : State) (n : Nat) (x : Peer) : (s.setPeer n x).mem = s.mem := rfl
@[simp] theorem State.setPeer_voids (s : State) (n : Nat) (x : Peer) : (s.setPeer n x).voids = s.voids := rfl
@[simp] theorem State.setPeer_smbOffset (s : State) (n : Nat) (x : Peer) : (s.setPeer n x).smbOffset = s.smbOffset := rfl
@[simp] theorem State.setPeer_latched (s : State) (n : Nat) (x : Peer) : (s.setPeer n x).latched = s.latched := rfl
@[simp] theorem State.setPeer_readback (s : State) (n : Nat) (x : Peer) : (s.setPeer n x).readback = s.readback := rfl
@[simp] theorem State.setPeer_poisoned (s : State) (n : Nat) (x : Peer) : (s.setPeer n x).poisoned = s.poisoned := rfl
@[simp] theorem State.setPeer_nak (s : State) (n : Nat) (x : Peer) : (s.setPeer n x).nak = s.nak := rfl
@[simp] theorem State.setPeer_free (s : State) (n : Nat) (x : Peer) : (s.setPeer n x).free = s.free := rfl
@[simp] theorem State.setPeer_pending (s : State) (n : Nat) (x : Peer) : (s.setPeer n x).pending = s.pending := rfl
/-- What is read after the update. -/
@[simp] theorem State.setPeer_get (s : State) (n : Nat) (x : Peer) (j : Nat) : (s.setPeer n x).peer j = if j = n then x else s.peer j :=
  Table.get_set _ j n x _

/-! ### `State.modStream` -/

@[simp] theorem State.modStream_phase (s : State) (n : Nat) (f : StreamSt → StreamSt) : (s.modStream n f).phase = s.phase := rfl
@[simp] theorem State.modStream_boot (s : State) (n : Nat) (f : StreamSt → StreamSt) : (s.modStream n f).boot = s.boot := rfl
@[simp] theorem State.modStream_pins (s : State) (n : Nat) (f : StreamSt → StreamSt) : (s.modStream n f).pins = s.pins := rfl
@[simp] theorem State.modStream_power (s : State) (n : Nat) (f : StreamSt → StreamSt) : (s.modStream n f).power = s.power := rfl
@[simp] theorem State.modStream_fuses (s : State) (n : Nat) (f : StreamSt → StreamSt) : (s.modStream n f).fuses = s.fuses := rfl
@[simp] theorem State.modStream_flash (s : State) (n : Nat) (f : StreamSt → StreamSt) : (s.modStream n f).flash = s.flash := rfl
@[simp] theorem State.modStream_layout (s : State) (n : Nat) (f : StreamSt → StreamSt) : (s.modStream n f).layout = s.layout := rfl
@[simp] theorem State.modStream_cfg (s : State) (n : Nat) (f : StreamSt → StreamSt) : (s.modStream n f).cfg = s.cfg := rfl
@[simp] theorem State.modStream_cfgOld (s : State) (n : Nat) (f : StreamSt → StreamSt) : (s.modStream n f).cfgOld = s.cfgOld := rfl
@[simp] theorem State.modStream_stl (s : State) (n : Nat) (f : StreamSt → StreamSt) : (s.modStream n f).stl = s.stl := rfl
@[simp] theorem State.modStream_time (s : State) (n : Nat) (f : StreamSt → StreamSt) : (s.modStream n f).time = s.time := rfl
@[simp] theorem State.modStream_journal (s : State) (n : Nat) (f : StreamSt → StreamSt) : (s.modStream n f).journal = s.journal := rfl
@[simp] theorem State.modStream_decs (s : State) (n : Nat) (f : StreamSt → StreamSt) : (s.modStream n f).decs = s.decs := rfl
@[simp] theorem State.modStream_accts (s : State) (n : Nat) (f : StreamSt → StreamSt) : (s.modStream n f).accts = s.accts := rfl
@[simp] theorem State.modStream_rolling (s : State) (n : Nat) (f : StreamSt → StreamSt) : (s.modStream n f).rolling = s.rolling := rfl
@[simp] theorem State.modStream_preConvSat (s : State) (n : Nat) (f : StreamSt → StreamSt) : (s.modStream n f).preConvSat = s.preConvSat := rfl
@[simp] theorem State.modStream_ingUnmatched (s : State) (n : Nat) (f : StreamSt → StreamSt) : (s.modStream n f).ingUnmatched = s.ingUnmatched := rfl
@[simp] theorem State.modStream_engines (s : State) (n : Nat) (f : StreamSt → StreamSt) : (s.modStream n f).engines = s.engines := rfl
@[simp] theorem State.modStream_halo (s : State) (n : Nat) (f : StreamSt → StreamSt) : (s.modStream n f).halo = s.halo := rfl
@[simp] theorem State.modStream_haloBack (s : State) (n : Nat) (f : StreamSt → StreamSt) : (s.modStream n f).haloBack = s.haloBack := rfl
@[simp] theorem State.modStream_regions (s : State) (n : Nat) (f : StreamSt → StreamSt) : (s.modStream n f).regions = s.regions := rfl
@[simp] theorem State.modStream_switch (s : State) (n : Nat) (f : StreamSt → StreamSt) : (s.modStream n f).switch = s.switch := rfl
@[simp] theorem State.modStream_clrs (s : State) (n : Nat) (f : StreamSt → StreamSt) : (s.modStream n f).clrs = s.clrs := rfl
@[simp] theorem State.modStream_ledger (s : State) (n : Nat) (f : StreamSt → StreamSt) : (s.modStream n f).ledger = s.ledger := rfl
@[simp] theorem State.modStream_encs (s : State) (n : Nat) (f : StreamSt → StreamSt) : (s.modStream n f).encs = s.encs := rfl
@[simp] theorem State.modStream_evidence (s : State) (n : Nat) (f : StreamSt → StreamSt) : (s.modStream n f).evidence = s.evidence := rfl
@[simp] theorem State.modStream_adapt (s : State) (n : Nat) (f : StreamSt → StreamSt) : (s.modStream n f).adapt = s.adapt := rfl
@[simp] theorem State.modStream_flt (s : State) (n : Nat) (f : StreamSt → StreamSt) : (s.modStream n f).flt = s.flt := rfl
@[simp] theorem State.modStream_saf (s : State) (n : Nat) (f : StreamSt → StreamSt) : (s.modStream n f).saf = s.saf := rfl
@[simp] theorem State.modStream_drams (s : State) (n : Nat) (f : StreamSt → StreamSt) : (s.modStream n f).drams = s.drams := rfl
@[simp] theorem State.modStream_pci (s : State) (n : Nat) (f : StreamSt → StreamSt) : (s.modStream n f).pci = s.pci := rfl
@[simp] theorem State.modStream_nets (s : State) (n : Nat) (f : StreamSt → StreamSt) : (s.modStream n f).nets = s.nets := rfl
@[simp] theorem State.modStream_lnk (s : State) (n : Nat) (f : StreamSt → StreamSt) : (s.modStream n f).lnk = s.lnk := rfl
@[simp] theorem State.modStream_sec (s : State) (n : Nat) (f : StreamSt → StreamSt) : (s.modStream n f).sec = s.sec := rfl
@[simp] theorem State.modStream_dbg (s : State) (n : Nat) (f : StreamSt → StreamSt) : (s.modStream n f).dbg = s.dbg := rfl
@[simp] theorem State.modStream_tills (s : State) (n : Nat) (f : StreamSt → StreamSt) : (s.modStream n f).tills = s.tills := rfl
@[simp] theorem State.modStream_devTills (s : State) (n : Nat) (f : StreamSt → StreamSt) : (s.modStream n f).devTills = s.devTills := rfl
@[simp] theorem State.modStream_bridges (s : State) (n : Nat) (f : StreamSt → StreamSt) : (s.modStream n f).bridges = s.bridges := rfl
@[simp] theorem State.modStream_arbs (s : State) (n : Nat) (f : StreamSt → StreamSt) : (s.modStream n f).arbs = s.arbs := rfl
@[simp] theorem State.modStream_passbook (s : State) (n : Nat) (f : StreamSt → StreamSt) : (s.modStream n f).passbook = s.passbook := rfl
@[simp] theorem State.modStream_mem (s : State) (n : Nat) (f : StreamSt → StreamSt) : (s.modStream n f).mem = s.mem := rfl
@[simp] theorem State.modStream_voids (s : State) (n : Nat) (f : StreamSt → StreamSt) : (s.modStream n f).voids = s.voids := rfl
@[simp] theorem State.modStream_smbOffset (s : State) (n : Nat) (f : StreamSt → StreamSt) : (s.modStream n f).smbOffset = s.smbOffset := rfl
@[simp] theorem State.modStream_latched (s : State) (n : Nat) (f : StreamSt → StreamSt) : (s.modStream n f).latched = s.latched := rfl
@[simp] theorem State.modStream_readback (s : State) (n : Nat) (f : StreamSt → StreamSt) : (s.modStream n f).readback = s.readback := rfl
@[simp] theorem State.modStream_poisoned (s : State) (n : Nat) (f : StreamSt → StreamSt) : (s.modStream n f).poisoned = s.poisoned := rfl
@[simp] theorem State.modStream_nak (s : State) (n : Nat) (f : StreamSt → StreamSt) : (s.modStream n f).nak = s.nak := rfl
@[simp] theorem State.modStream_free (s : State) (n : Nat) (f : StreamSt → StreamSt) : (s.modStream n f).free = s.free := rfl
@[simp] theorem State.modStream_pending (s : State) (n : Nat) (f : StreamSt → StreamSt) : (s.modStream n f).pending = s.pending := rfl
/-- What is read after the update. -/
@[simp] theorem State.modStream_get (s : State) (n : Nat) (f : StreamSt → StreamSt) (j : Nat) : (s.modStream n f).stream j = if j = n then f (s.stream n) else s.stream j :=
  Table.get_set _ j n _ _

/-! ### `State.modEngine` -/

@[simp] theorem State.modEngine_phase (s : State) (n : Nat) (f : Engine → Engine) : (s.modEngine n f).phase = s.phase := rfl
@[simp] theorem State.modEngine_boot (s : State) (n : Nat) (f : Engine → Engine) : (s.modEngine n f).boot = s.boot := rfl
@[simp] theorem State.modEngine_pins (s : State) (n : Nat) (f : Engine → Engine) : (s.modEngine n f).pins = s.pins := rfl
@[simp] theorem State.modEngine_power (s : State) (n : Nat) (f : Engine → Engine) : (s.modEngine n f).power = s.power := rfl
@[simp] theorem State.modEngine_fuses (s : State) (n : Nat) (f : Engine → Engine) : (s.modEngine n f).fuses = s.fuses := rfl
@[simp] theorem State.modEngine_flash (s : State) (n : Nat) (f : Engine → Engine) : (s.modEngine n f).flash = s.flash := rfl
@[simp] theorem State.modEngine_layout (s : State) (n : Nat) (f : Engine → Engine) : (s.modEngine n f).layout = s.layout := rfl
@[simp] theorem State.modEngine_cfg (s : State) (n : Nat) (f : Engine → Engine) : (s.modEngine n f).cfg = s.cfg := rfl
@[simp] theorem State.modEngine_cfgOld (s : State) (n : Nat) (f : Engine → Engine) : (s.modEngine n f).cfgOld = s.cfgOld := rfl
@[simp] theorem State.modEngine_stl (s : State) (n : Nat) (f : Engine → Engine) : (s.modEngine n f).stl = s.stl := rfl
@[simp] theorem State.modEngine_time (s : State) (n : Nat) (f : Engine → Engine) : (s.modEngine n f).time = s.time := rfl
@[simp] theorem State.modEngine_journal (s : State) (n : Nat) (f : Engine → Engine) : (s.modEngine n f).journal = s.journal := rfl
@[simp] theorem State.modEngine_streams (s : State) (n : Nat) (f : Engine → Engine) : (s.modEngine n f).streams = s.streams := rfl
@[simp] theorem State.modEngine_decs (s : State) (n : Nat) (f : Engine → Engine) : (s.modEngine n f).decs = s.decs := rfl
@[simp] theorem State.modEngine_accts (s : State) (n : Nat) (f : Engine → Engine) : (s.modEngine n f).accts = s.accts := rfl
@[simp] theorem State.modEngine_rolling (s : State) (n : Nat) (f : Engine → Engine) : (s.modEngine n f).rolling = s.rolling := rfl
@[simp] theorem State.modEngine_preConvSat (s : State) (n : Nat) (f : Engine → Engine) : (s.modEngine n f).preConvSat = s.preConvSat := rfl
@[simp] theorem State.modEngine_ingUnmatched (s : State) (n : Nat) (f : Engine → Engine) : (s.modEngine n f).ingUnmatched = s.ingUnmatched := rfl
@[simp] theorem State.modEngine_halo (s : State) (n : Nat) (f : Engine → Engine) : (s.modEngine n f).halo = s.halo := rfl
@[simp] theorem State.modEngine_haloBack (s : State) (n : Nat) (f : Engine → Engine) : (s.modEngine n f).haloBack = s.haloBack := rfl
@[simp] theorem State.modEngine_regions (s : State) (n : Nat) (f : Engine → Engine) : (s.modEngine n f).regions = s.regions := rfl
@[simp] theorem State.modEngine_switch (s : State) (n : Nat) (f : Engine → Engine) : (s.modEngine n f).switch = s.switch := rfl
@[simp] theorem State.modEngine_clrs (s : State) (n : Nat) (f : Engine → Engine) : (s.modEngine n f).clrs = s.clrs := rfl
@[simp] theorem State.modEngine_ledger (s : State) (n : Nat) (f : Engine → Engine) : (s.modEngine n f).ledger = s.ledger := rfl
@[simp] theorem State.modEngine_encs (s : State) (n : Nat) (f : Engine → Engine) : (s.modEngine n f).encs = s.encs := rfl
@[simp] theorem State.modEngine_evidence (s : State) (n : Nat) (f : Engine → Engine) : (s.modEngine n f).evidence = s.evidence := rfl
@[simp] theorem State.modEngine_adapt (s : State) (n : Nat) (f : Engine → Engine) : (s.modEngine n f).adapt = s.adapt := rfl
@[simp] theorem State.modEngine_flt (s : State) (n : Nat) (f : Engine → Engine) : (s.modEngine n f).flt = s.flt := rfl
@[simp] theorem State.modEngine_saf (s : State) (n : Nat) (f : Engine → Engine) : (s.modEngine n f).saf = s.saf := rfl
@[simp] theorem State.modEngine_drams (s : State) (n : Nat) (f : Engine → Engine) : (s.modEngine n f).drams = s.drams := rfl
@[simp] theorem State.modEngine_pci (s : State) (n : Nat) (f : Engine → Engine) : (s.modEngine n f).pci = s.pci := rfl
@[simp] theorem State.modEngine_nets (s : State) (n : Nat) (f : Engine → Engine) : (s.modEngine n f).nets = s.nets := rfl
@[simp] theorem State.modEngine_lnk (s : State) (n : Nat) (f : Engine → Engine) : (s.modEngine n f).lnk = s.lnk := rfl
@[simp] theorem State.modEngine_sec (s : State) (n : Nat) (f : Engine → Engine) : (s.modEngine n f).sec = s.sec := rfl
@[simp] theorem State.modEngine_dbg (s : State) (n : Nat) (f : Engine → Engine) : (s.modEngine n f).dbg = s.dbg := rfl
@[simp] theorem State.modEngine_tills (s : State) (n : Nat) (f : Engine → Engine) : (s.modEngine n f).tills = s.tills := rfl
@[simp] theorem State.modEngine_devTills (s : State) (n : Nat) (f : Engine → Engine) : (s.modEngine n f).devTills = s.devTills := rfl
@[simp] theorem State.modEngine_bridges (s : State) (n : Nat) (f : Engine → Engine) : (s.modEngine n f).bridges = s.bridges := rfl
@[simp] theorem State.modEngine_arbs (s : State) (n : Nat) (f : Engine → Engine) : (s.modEngine n f).arbs = s.arbs := rfl
@[simp] theorem State.modEngine_passbook (s : State) (n : Nat) (f : Engine → Engine) : (s.modEngine n f).passbook = s.passbook := rfl
@[simp] theorem State.modEngine_mem (s : State) (n : Nat) (f : Engine → Engine) : (s.modEngine n f).mem = s.mem := rfl
@[simp] theorem State.modEngine_voids (s : State) (n : Nat) (f : Engine → Engine) : (s.modEngine n f).voids = s.voids := rfl
@[simp] theorem State.modEngine_smbOffset (s : State) (n : Nat) (f : Engine → Engine) : (s.modEngine n f).smbOffset = s.smbOffset := rfl
@[simp] theorem State.modEngine_latched (s : State) (n : Nat) (f : Engine → Engine) : (s.modEngine n f).latched = s.latched := rfl
@[simp] theorem State.modEngine_readback (s : State) (n : Nat) (f : Engine → Engine) : (s.modEngine n f).readback = s.readback := rfl
@[simp] theorem State.modEngine_poisoned (s : State) (n : Nat) (f : Engine → Engine) : (s.modEngine n f).poisoned = s.poisoned := rfl
@[simp] theorem State.modEngine_nak (s : State) (n : Nat) (f : Engine → Engine) : (s.modEngine n f).nak = s.nak := rfl
@[simp] theorem State.modEngine_free (s : State) (n : Nat) (f : Engine → Engine) : (s.modEngine n f).free = s.free := rfl
@[simp] theorem State.modEngine_pending (s : State) (n : Nat) (f : Engine → Engine) : (s.modEngine n f).pending = s.pending := rfl
/-- What is read after the update. -/
@[simp] theorem State.modEngine_get (s : State) (n : Nat) (f : Engine → Engine) (j : Nat) : (s.modEngine n f).engine j = if j = n then f (s.engine n) else s.engine j :=
  Table.get_set _ j n _ _

/-! ### `State.modRegion` -/

@[simp] theorem State.modRegion_phase (s : State) (n : Nat) (f : Region → Region) : (s.modRegion n f).phase = s.phase := rfl
@[simp] theorem State.modRegion_boot (s : State) (n : Nat) (f : Region → Region) : (s.modRegion n f).boot = s.boot := rfl
@[simp] theorem State.modRegion_pins (s : State) (n : Nat) (f : Region → Region) : (s.modRegion n f).pins = s.pins := rfl
@[simp] theorem State.modRegion_power (s : State) (n : Nat) (f : Region → Region) : (s.modRegion n f).power = s.power := rfl
@[simp] theorem State.modRegion_fuses (s : State) (n : Nat) (f : Region → Region) : (s.modRegion n f).fuses = s.fuses := rfl
@[simp] theorem State.modRegion_flash (s : State) (n : Nat) (f : Region → Region) : (s.modRegion n f).flash = s.flash := rfl
@[simp] theorem State.modRegion_layout (s : State) (n : Nat) (f : Region → Region) : (s.modRegion n f).layout = s.layout := rfl
@[simp] theorem State.modRegion_cfg (s : State) (n : Nat) (f : Region → Region) : (s.modRegion n f).cfg = s.cfg := rfl
@[simp] theorem State.modRegion_cfgOld (s : State) (n : Nat) (f : Region → Region) : (s.modRegion n f).cfgOld = s.cfgOld := rfl
@[simp] theorem State.modRegion_stl (s : State) (n : Nat) (f : Region → Region) : (s.modRegion n f).stl = s.stl := rfl
@[simp] theorem State.modRegion_time (s : State) (n : Nat) (f : Region → Region) : (s.modRegion n f).time = s.time := rfl
@[simp] theorem State.modRegion_journal (s : State) (n : Nat) (f : Region → Region) : (s.modRegion n f).journal = s.journal := rfl
@[simp] theorem State.modRegion_streams (s : State) (n : Nat) (f : Region → Region) : (s.modRegion n f).streams = s.streams := rfl
@[simp] theorem State.modRegion_decs (s : State) (n : Nat) (f : Region → Region) : (s.modRegion n f).decs = s.decs := rfl
@[simp] theorem State.modRegion_accts (s : State) (n : Nat) (f : Region → Region) : (s.modRegion n f).accts = s.accts := rfl
@[simp] theorem State.modRegion_rolling (s : State) (n : Nat) (f : Region → Region) : (s.modRegion n f).rolling = s.rolling := rfl
@[simp] theorem State.modRegion_preConvSat (s : State) (n : Nat) (f : Region → Region) : (s.modRegion n f).preConvSat = s.preConvSat := rfl
@[simp] theorem State.modRegion_ingUnmatched (s : State) (n : Nat) (f : Region → Region) : (s.modRegion n f).ingUnmatched = s.ingUnmatched := rfl
@[simp] theorem State.modRegion_engines (s : State) (n : Nat) (f : Region → Region) : (s.modRegion n f).engines = s.engines := rfl
@[simp] theorem State.modRegion_halo (s : State) (n : Nat) (f : Region → Region) : (s.modRegion n f).halo = s.halo := rfl
@[simp] theorem State.modRegion_haloBack (s : State) (n : Nat) (f : Region → Region) : (s.modRegion n f).haloBack = s.haloBack := rfl
@[simp] theorem State.modRegion_switch (s : State) (n : Nat) (f : Region → Region) : (s.modRegion n f).switch = s.switch := rfl
@[simp] theorem State.modRegion_clrs (s : State) (n : Nat) (f : Region → Region) : (s.modRegion n f).clrs = s.clrs := rfl
@[simp] theorem State.modRegion_ledger (s : State) (n : Nat) (f : Region → Region) : (s.modRegion n f).ledger = s.ledger := rfl
@[simp] theorem State.modRegion_encs (s : State) (n : Nat) (f : Region → Region) : (s.modRegion n f).encs = s.encs := rfl
@[simp] theorem State.modRegion_evidence (s : State) (n : Nat) (f : Region → Region) : (s.modRegion n f).evidence = s.evidence := rfl
@[simp] theorem State.modRegion_adapt (s : State) (n : Nat) (f : Region → Region) : (s.modRegion n f).adapt = s.adapt := rfl
@[simp] theorem State.modRegion_flt (s : State) (n : Nat) (f : Region → Region) : (s.modRegion n f).flt = s.flt := rfl
@[simp] theorem State.modRegion_saf (s : State) (n : Nat) (f : Region → Region) : (s.modRegion n f).saf = s.saf := rfl
@[simp] theorem State.modRegion_drams (s : State) (n : Nat) (f : Region → Region) : (s.modRegion n f).drams = s.drams := rfl
@[simp] theorem State.modRegion_pci (s : State) (n : Nat) (f : Region → Region) : (s.modRegion n f).pci = s.pci := rfl
@[simp] theorem State.modRegion_nets (s : State) (n : Nat) (f : Region → Region) : (s.modRegion n f).nets = s.nets := rfl
@[simp] theorem State.modRegion_lnk (s : State) (n : Nat) (f : Region → Region) : (s.modRegion n f).lnk = s.lnk := rfl
@[simp] theorem State.modRegion_sec (s : State) (n : Nat) (f : Region → Region) : (s.modRegion n f).sec = s.sec := rfl
@[simp] theorem State.modRegion_dbg (s : State) (n : Nat) (f : Region → Region) : (s.modRegion n f).dbg = s.dbg := rfl
@[simp] theorem State.modRegion_tills (s : State) (n : Nat) (f : Region → Region) : (s.modRegion n f).tills = s.tills := rfl
@[simp] theorem State.modRegion_devTills (s : State) (n : Nat) (f : Region → Region) : (s.modRegion n f).devTills = s.devTills := rfl
@[simp] theorem State.modRegion_bridges (s : State) (n : Nat) (f : Region → Region) : (s.modRegion n f).bridges = s.bridges := rfl
@[simp] theorem State.modRegion_arbs (s : State) (n : Nat) (f : Region → Region) : (s.modRegion n f).arbs = s.arbs := rfl
@[simp] theorem State.modRegion_passbook (s : State) (n : Nat) (f : Region → Region) : (s.modRegion n f).passbook = s.passbook := rfl
@[simp] theorem State.modRegion_mem (s : State) (n : Nat) (f : Region → Region) : (s.modRegion n f).mem = s.mem := rfl
@[simp] theorem State.modRegion_voids (s : State) (n : Nat) (f : Region → Region) : (s.modRegion n f).voids = s.voids := rfl
@[simp] theorem State.modRegion_smbOffset (s : State) (n : Nat) (f : Region → Region) : (s.modRegion n f).smbOffset = s.smbOffset := rfl
@[simp] theorem State.modRegion_latched (s : State) (n : Nat) (f : Region → Region) : (s.modRegion n f).latched = s.latched := rfl
@[simp] theorem State.modRegion_readback (s : State) (n : Nat) (f : Region → Region) : (s.modRegion n f).readback = s.readback := rfl
@[simp] theorem State.modRegion_poisoned (s : State) (n : Nat) (f : Region → Region) : (s.modRegion n f).poisoned = s.poisoned := rfl
@[simp] theorem State.modRegion_nak (s : State) (n : Nat) (f : Region → Region) : (s.modRegion n f).nak = s.nak := rfl
@[simp] theorem State.modRegion_free (s : State) (n : Nat) (f : Region → Region) : (s.modRegion n f).free = s.free := rfl
@[simp] theorem State.modRegion_pending (s : State) (n : Nat) (f : Region → Region) : (s.modRegion n f).pending = s.pending := rfl
/-- What is read after the update. -/
@[simp] theorem State.modRegion_get (s : State) (n : Nat) (f : Region → Region) (j : Nat) : (s.modRegion n f).region j = if j = n then f (s.region n) else s.region j :=
  Table.get_set _ j n _ _

/-! ### `State.modDec` -/

@[simp] theorem State.modDec_phase (s : State) (n : Nat) (f : DecEngine → DecEngine) : (s.modDec n f).phase = s.phase := rfl
@[simp] theorem State.modDec_boot (s : State) (n : Nat) (f : DecEngine → DecEngine) : (s.modDec n f).boot = s.boot := rfl
@[simp] theorem State.modDec_pins (s : State) (n : Nat) (f : DecEngine → DecEngine) : (s.modDec n f).pins = s.pins := rfl
@[simp] theorem State.modDec_power (s : State) (n : Nat) (f : DecEngine → DecEngine) : (s.modDec n f).power = s.power := rfl
@[simp] theorem State.modDec_fuses (s : State) (n : Nat) (f : DecEngine → DecEngine) : (s.modDec n f).fuses = s.fuses := rfl
@[simp] theorem State.modDec_flash (s : State) (n : Nat) (f : DecEngine → DecEngine) : (s.modDec n f).flash = s.flash := rfl
@[simp] theorem State.modDec_layout (s : State) (n : Nat) (f : DecEngine → DecEngine) : (s.modDec n f).layout = s.layout := rfl
@[simp] theorem State.modDec_cfg (s : State) (n : Nat) (f : DecEngine → DecEngine) : (s.modDec n f).cfg = s.cfg := rfl
@[simp] theorem State.modDec_cfgOld (s : State) (n : Nat) (f : DecEngine → DecEngine) : (s.modDec n f).cfgOld = s.cfgOld := rfl
@[simp] theorem State.modDec_stl (s : State) (n : Nat) (f : DecEngine → DecEngine) : (s.modDec n f).stl = s.stl := rfl
@[simp] theorem State.modDec_time (s : State) (n : Nat) (f : DecEngine → DecEngine) : (s.modDec n f).time = s.time := rfl
@[simp] theorem State.modDec_journal (s : State) (n : Nat) (f : DecEngine → DecEngine) : (s.modDec n f).journal = s.journal := rfl
@[simp] theorem State.modDec_streams (s : State) (n : Nat) (f : DecEngine → DecEngine) : (s.modDec n f).streams = s.streams := rfl
@[simp] theorem State.modDec_accts (s : State) (n : Nat) (f : DecEngine → DecEngine) : (s.modDec n f).accts = s.accts := rfl
@[simp] theorem State.modDec_rolling (s : State) (n : Nat) (f : DecEngine → DecEngine) : (s.modDec n f).rolling = s.rolling := rfl
@[simp] theorem State.modDec_preConvSat (s : State) (n : Nat) (f : DecEngine → DecEngine) : (s.modDec n f).preConvSat = s.preConvSat := rfl
@[simp] theorem State.modDec_ingUnmatched (s : State) (n : Nat) (f : DecEngine → DecEngine) : (s.modDec n f).ingUnmatched = s.ingUnmatched := rfl
@[simp] theorem State.modDec_engines (s : State) (n : Nat) (f : DecEngine → DecEngine) : (s.modDec n f).engines = s.engines := rfl
@[simp] theorem State.modDec_halo (s : State) (n : Nat) (f : DecEngine → DecEngine) : (s.modDec n f).halo = s.halo := rfl
@[simp] theorem State.modDec_haloBack (s : State) (n : Nat) (f : DecEngine → DecEngine) : (s.modDec n f).haloBack = s.haloBack := rfl
@[simp] theorem State.modDec_regions (s : State) (n : Nat) (f : DecEngine → DecEngine) : (s.modDec n f).regions = s.regions := rfl
@[simp] theorem State.modDec_switch (s : State) (n : Nat) (f : DecEngine → DecEngine) : (s.modDec n f).switch = s.switch := rfl
@[simp] theorem State.modDec_clrs (s : State) (n : Nat) (f : DecEngine → DecEngine) : (s.modDec n f).clrs = s.clrs := rfl
@[simp] theorem State.modDec_ledger (s : State) (n : Nat) (f : DecEngine → DecEngine) : (s.modDec n f).ledger = s.ledger := rfl
@[simp] theorem State.modDec_encs (s : State) (n : Nat) (f : DecEngine → DecEngine) : (s.modDec n f).encs = s.encs := rfl
@[simp] theorem State.modDec_evidence (s : State) (n : Nat) (f : DecEngine → DecEngine) : (s.modDec n f).evidence = s.evidence := rfl
@[simp] theorem State.modDec_adapt (s : State) (n : Nat) (f : DecEngine → DecEngine) : (s.modDec n f).adapt = s.adapt := rfl
@[simp] theorem State.modDec_flt (s : State) (n : Nat) (f : DecEngine → DecEngine) : (s.modDec n f).flt = s.flt := rfl
@[simp] theorem State.modDec_saf (s : State) (n : Nat) (f : DecEngine → DecEngine) : (s.modDec n f).saf = s.saf := rfl
@[simp] theorem State.modDec_drams (s : State) (n : Nat) (f : DecEngine → DecEngine) : (s.modDec n f).drams = s.drams := rfl
@[simp] theorem State.modDec_pci (s : State) (n : Nat) (f : DecEngine → DecEngine) : (s.modDec n f).pci = s.pci := rfl
@[simp] theorem State.modDec_nets (s : State) (n : Nat) (f : DecEngine → DecEngine) : (s.modDec n f).nets = s.nets := rfl
@[simp] theorem State.modDec_lnk (s : State) (n : Nat) (f : DecEngine → DecEngine) : (s.modDec n f).lnk = s.lnk := rfl
@[simp] theorem State.modDec_sec (s : State) (n : Nat) (f : DecEngine → DecEngine) : (s.modDec n f).sec = s.sec := rfl
@[simp] theorem State.modDec_dbg (s : State) (n : Nat) (f : DecEngine → DecEngine) : (s.modDec n f).dbg = s.dbg := rfl
@[simp] theorem State.modDec_tills (s : State) (n : Nat) (f : DecEngine → DecEngine) : (s.modDec n f).tills = s.tills := rfl
@[simp] theorem State.modDec_devTills (s : State) (n : Nat) (f : DecEngine → DecEngine) : (s.modDec n f).devTills = s.devTills := rfl
@[simp] theorem State.modDec_bridges (s : State) (n : Nat) (f : DecEngine → DecEngine) : (s.modDec n f).bridges = s.bridges := rfl
@[simp] theorem State.modDec_arbs (s : State) (n : Nat) (f : DecEngine → DecEngine) : (s.modDec n f).arbs = s.arbs := rfl
@[simp] theorem State.modDec_passbook (s : State) (n : Nat) (f : DecEngine → DecEngine) : (s.modDec n f).passbook = s.passbook := rfl
@[simp] theorem State.modDec_mem (s : State) (n : Nat) (f : DecEngine → DecEngine) : (s.modDec n f).mem = s.mem := rfl
@[simp] theorem State.modDec_voids (s : State) (n : Nat) (f : DecEngine → DecEngine) : (s.modDec n f).voids = s.voids := rfl
@[simp] theorem State.modDec_smbOffset (s : State) (n : Nat) (f : DecEngine → DecEngine) : (s.modDec n f).smbOffset = s.smbOffset := rfl
@[simp] theorem State.modDec_latched (s : State) (n : Nat) (f : DecEngine → DecEngine) : (s.modDec n f).latched = s.latched := rfl
@[simp] theorem State.modDec_readback (s : State) (n : Nat) (f : DecEngine → DecEngine) : (s.modDec n f).readback = s.readback := rfl
@[simp] theorem State.modDec_poisoned (s : State) (n : Nat) (f : DecEngine → DecEngine) : (s.modDec n f).poisoned = s.poisoned := rfl
@[simp] theorem State.modDec_nak (s : State) (n : Nat) (f : DecEngine → DecEngine) : (s.modDec n f).nak = s.nak := rfl
@[simp] theorem State.modDec_free (s : State) (n : Nat) (f : DecEngine → DecEngine) : (s.modDec n f).free = s.free := rfl
@[simp] theorem State.modDec_pending (s : State) (n : Nat) (f : DecEngine → DecEngine) : (s.modDec n f).pending = s.pending := rfl
/-- What is read after the update. -/
@[simp] theorem State.modDec_get (s : State) (n : Nat) (f : DecEngine → DecEngine) (j : Nat) : (s.modDec n f).dec j = if j = n then f (s.dec n) else s.dec j :=
  Table.get_set _ j n _ _

/-! ### `State.modClr` -/

@[simp] theorem State.modClr_phase (s : State) (n : Nat) (f : Clearing → Clearing) : (s.modClr n f).phase = s.phase := rfl
@[simp] theorem State.modClr_boot (s : State) (n : Nat) (f : Clearing → Clearing) : (s.modClr n f).boot = s.boot := rfl
@[simp] theorem State.modClr_pins (s : State) (n : Nat) (f : Clearing → Clearing) : (s.modClr n f).pins = s.pins := rfl
@[simp] theorem State.modClr_power (s : State) (n : Nat) (f : Clearing → Clearing) : (s.modClr n f).power = s.power := rfl
@[simp] theorem State.modClr_fuses (s : State) (n : Nat) (f : Clearing → Clearing) : (s.modClr n f).fuses = s.fuses := rfl
@[simp] theorem State.modClr_flash (s : State) (n : Nat) (f : Clearing → Clearing) : (s.modClr n f).flash = s.flash := rfl
@[simp] theorem State.modClr_layout (s : State) (n : Nat) (f : Clearing → Clearing) : (s.modClr n f).layout = s.layout := rfl
@[simp] theorem State.modClr_cfg (s : State) (n : Nat) (f : Clearing → Clearing) : (s.modClr n f).cfg = s.cfg := rfl
@[simp] theorem State.modClr_cfgOld (s : State) (n : Nat) (f : Clearing → Clearing) : (s.modClr n f).cfgOld = s.cfgOld := rfl
@[simp] theorem State.modClr_stl (s : State) (n : Nat) (f : Clearing → Clearing) : (s.modClr n f).stl = s.stl := rfl
@[simp] theorem State.modClr_time (s : State) (n : Nat) (f : Clearing → Clearing) : (s.modClr n f).time = s.time := rfl
@[simp] theorem State.modClr_journal (s : State) (n : Nat) (f : Clearing → Clearing) : (s.modClr n f).journal = s.journal := rfl
@[simp] theorem State.modClr_streams (s : State) (n : Nat) (f : Clearing → Clearing) : (s.modClr n f).streams = s.streams := rfl
@[simp] theorem State.modClr_decs (s : State) (n : Nat) (f : Clearing → Clearing) : (s.modClr n f).decs = s.decs := rfl
@[simp] theorem State.modClr_accts (s : State) (n : Nat) (f : Clearing → Clearing) : (s.modClr n f).accts = s.accts := rfl
@[simp] theorem State.modClr_rolling (s : State) (n : Nat) (f : Clearing → Clearing) : (s.modClr n f).rolling = s.rolling := rfl
@[simp] theorem State.modClr_preConvSat (s : State) (n : Nat) (f : Clearing → Clearing) : (s.modClr n f).preConvSat = s.preConvSat := rfl
@[simp] theorem State.modClr_ingUnmatched (s : State) (n : Nat) (f : Clearing → Clearing) : (s.modClr n f).ingUnmatched = s.ingUnmatched := rfl
@[simp] theorem State.modClr_engines (s : State) (n : Nat) (f : Clearing → Clearing) : (s.modClr n f).engines = s.engines := rfl
@[simp] theorem State.modClr_halo (s : State) (n : Nat) (f : Clearing → Clearing) : (s.modClr n f).halo = s.halo := rfl
@[simp] theorem State.modClr_haloBack (s : State) (n : Nat) (f : Clearing → Clearing) : (s.modClr n f).haloBack = s.haloBack := rfl
@[simp] theorem State.modClr_regions (s : State) (n : Nat) (f : Clearing → Clearing) : (s.modClr n f).regions = s.regions := rfl
@[simp] theorem State.modClr_switch (s : State) (n : Nat) (f : Clearing → Clearing) : (s.modClr n f).switch = s.switch := rfl
@[simp] theorem State.modClr_ledger (s : State) (n : Nat) (f : Clearing → Clearing) : (s.modClr n f).ledger = s.ledger := rfl
@[simp] theorem State.modClr_encs (s : State) (n : Nat) (f : Clearing → Clearing) : (s.modClr n f).encs = s.encs := rfl
@[simp] theorem State.modClr_evidence (s : State) (n : Nat) (f : Clearing → Clearing) : (s.modClr n f).evidence = s.evidence := rfl
@[simp] theorem State.modClr_adapt (s : State) (n : Nat) (f : Clearing → Clearing) : (s.modClr n f).adapt = s.adapt := rfl
@[simp] theorem State.modClr_flt (s : State) (n : Nat) (f : Clearing → Clearing) : (s.modClr n f).flt = s.flt := rfl
@[simp] theorem State.modClr_saf (s : State) (n : Nat) (f : Clearing → Clearing) : (s.modClr n f).saf = s.saf := rfl
@[simp] theorem State.modClr_drams (s : State) (n : Nat) (f : Clearing → Clearing) : (s.modClr n f).drams = s.drams := rfl
@[simp] theorem State.modClr_pci (s : State) (n : Nat) (f : Clearing → Clearing) : (s.modClr n f).pci = s.pci := rfl
@[simp] theorem State.modClr_nets (s : State) (n : Nat) (f : Clearing → Clearing) : (s.modClr n f).nets = s.nets := rfl
@[simp] theorem State.modClr_lnk (s : State) (n : Nat) (f : Clearing → Clearing) : (s.modClr n f).lnk = s.lnk := rfl
@[simp] theorem State.modClr_sec (s : State) (n : Nat) (f : Clearing → Clearing) : (s.modClr n f).sec = s.sec := rfl
@[simp] theorem State.modClr_dbg (s : State) (n : Nat) (f : Clearing → Clearing) : (s.modClr n f).dbg = s.dbg := rfl
@[simp] theorem State.modClr_tills (s : State) (n : Nat) (f : Clearing → Clearing) : (s.modClr n f).tills = s.tills := rfl
@[simp] theorem State.modClr_devTills (s : State) (n : Nat) (f : Clearing → Clearing) : (s.modClr n f).devTills = s.devTills := rfl
@[simp] theorem State.modClr_bridges (s : State) (n : Nat) (f : Clearing → Clearing) : (s.modClr n f).bridges = s.bridges := rfl
@[simp] theorem State.modClr_arbs (s : State) (n : Nat) (f : Clearing → Clearing) : (s.modClr n f).arbs = s.arbs := rfl
@[simp] theorem State.modClr_passbook (s : State) (n : Nat) (f : Clearing → Clearing) : (s.modClr n f).passbook = s.passbook := rfl
@[simp] theorem State.modClr_mem (s : State) (n : Nat) (f : Clearing → Clearing) : (s.modClr n f).mem = s.mem := rfl
@[simp] theorem State.modClr_voids (s : State) (n : Nat) (f : Clearing → Clearing) : (s.modClr n f).voids = s.voids := rfl
@[simp] theorem State.modClr_smbOffset (s : State) (n : Nat) (f : Clearing → Clearing) : (s.modClr n f).smbOffset = s.smbOffset := rfl
@[simp] theorem State.modClr_latched (s : State) (n : Nat) (f : Clearing → Clearing) : (s.modClr n f).latched = s.latched := rfl
@[simp] theorem State.modClr_readback (s : State) (n : Nat) (f : Clearing → Clearing) : (s.modClr n f).readback = s.readback := rfl
@[simp] theorem State.modClr_poisoned (s : State) (n : Nat) (f : Clearing → Clearing) : (s.modClr n f).poisoned = s.poisoned := rfl
@[simp] theorem State.modClr_nak (s : State) (n : Nat) (f : Clearing → Clearing) : (s.modClr n f).nak = s.nak := rfl
@[simp] theorem State.modClr_free (s : State) (n : Nat) (f : Clearing → Clearing) : (s.modClr n f).free = s.free := rfl
@[simp] theorem State.modClr_pending (s : State) (n : Nat) (f : Clearing → Clearing) : (s.modClr n f).pending = s.pending := rfl
/-- What is read after the update. -/
@[simp] theorem State.modClr_get (s : State) (n : Nat) (f : Clearing → Clearing) (j : Nat) : (s.modClr n f).clr j = if j = n then f (s.clr n) else s.clr j :=
  Table.get_set _ j n _ _

/-! ### `State.modEncoder` -/

@[simp] theorem State.modEncoder_phase (s : State) (n : Nat) (f : Encoder → Encoder) : (s.modEncoder n f).phase = s.phase := rfl
@[simp] theorem State.modEncoder_boot (s : State) (n : Nat) (f : Encoder → Encoder) : (s.modEncoder n f).boot = s.boot := rfl
@[simp] theorem State.modEncoder_pins (s : State) (n : Nat) (f : Encoder → Encoder) : (s.modEncoder n f).pins = s.pins := rfl
@[simp] theorem State.modEncoder_power (s : State) (n : Nat) (f : Encoder → Encoder) : (s.modEncoder n f).power = s.power := rfl
@[simp] theorem State.modEncoder_fuses (s : State) (n : Nat) (f : Encoder → Encoder) : (s.modEncoder n f).fuses = s.fuses := rfl
@[simp] theorem State.modEncoder_flash (s : State) (n : Nat) (f : Encoder → Encoder) : (s.modEncoder n f).flash = s.flash := rfl
@[simp] theorem State.modEncoder_layout (s : State) (n : Nat) (f : Encoder → Encoder) : (s.modEncoder n f).layout = s.layout := rfl
@[simp] theorem State.modEncoder_cfg (s : State) (n : Nat) (f : Encoder → Encoder) : (s.modEncoder n f).cfg = s.cfg := rfl
@[simp] theorem State.modEncoder_cfgOld (s : State) (n : Nat) (f : Encoder → Encoder) : (s.modEncoder n f).cfgOld = s.cfgOld := rfl
@[simp] theorem State.modEncoder_stl (s : State) (n : Nat) (f : Encoder → Encoder) : (s.modEncoder n f).stl = s.stl := rfl
@[simp] theorem State.modEncoder_time (s : State) (n : Nat) (f : Encoder → Encoder) : (s.modEncoder n f).time = s.time := rfl
@[simp] theorem State.modEncoder_journal (s : State) (n : Nat) (f : Encoder → Encoder) : (s.modEncoder n f).journal = s.journal := rfl
@[simp] theorem State.modEncoder_streams (s : State) (n : Nat) (f : Encoder → Encoder) : (s.modEncoder n f).streams = s.streams := rfl
@[simp] theorem State.modEncoder_decs (s : State) (n : Nat) (f : Encoder → Encoder) : (s.modEncoder n f).decs = s.decs := rfl
@[simp] theorem State.modEncoder_accts (s : State) (n : Nat) (f : Encoder → Encoder) : (s.modEncoder n f).accts = s.accts := rfl
@[simp] theorem State.modEncoder_rolling (s : State) (n : Nat) (f : Encoder → Encoder) : (s.modEncoder n f).rolling = s.rolling := rfl
@[simp] theorem State.modEncoder_preConvSat (s : State) (n : Nat) (f : Encoder → Encoder) : (s.modEncoder n f).preConvSat = s.preConvSat := rfl
@[simp] theorem State.modEncoder_ingUnmatched (s : State) (n : Nat) (f : Encoder → Encoder) : (s.modEncoder n f).ingUnmatched = s.ingUnmatched := rfl
@[simp] theorem State.modEncoder_engines (s : State) (n : Nat) (f : Encoder → Encoder) : (s.modEncoder n f).engines = s.engines := rfl
@[simp] theorem State.modEncoder_halo (s : State) (n : Nat) (f : Encoder → Encoder) : (s.modEncoder n f).halo = s.halo := rfl
@[simp] theorem State.modEncoder_haloBack (s : State) (n : Nat) (f : Encoder → Encoder) : (s.modEncoder n f).haloBack = s.haloBack := rfl
@[simp] theorem State.modEncoder_regions (s : State) (n : Nat) (f : Encoder → Encoder) : (s.modEncoder n f).regions = s.regions := rfl
@[simp] theorem State.modEncoder_switch (s : State) (n : Nat) (f : Encoder → Encoder) : (s.modEncoder n f).switch = s.switch := rfl
@[simp] theorem State.modEncoder_clrs (s : State) (n : Nat) (f : Encoder → Encoder) : (s.modEncoder n f).clrs = s.clrs := rfl
@[simp] theorem State.modEncoder_ledger (s : State) (n : Nat) (f : Encoder → Encoder) : (s.modEncoder n f).ledger = s.ledger := rfl
@[simp] theorem State.modEncoder_evidence (s : State) (n : Nat) (f : Encoder → Encoder) : (s.modEncoder n f).evidence = s.evidence := rfl
@[simp] theorem State.modEncoder_adapt (s : State) (n : Nat) (f : Encoder → Encoder) : (s.modEncoder n f).adapt = s.adapt := rfl
@[simp] theorem State.modEncoder_flt (s : State) (n : Nat) (f : Encoder → Encoder) : (s.modEncoder n f).flt = s.flt := rfl
@[simp] theorem State.modEncoder_saf (s : State) (n : Nat) (f : Encoder → Encoder) : (s.modEncoder n f).saf = s.saf := rfl
@[simp] theorem State.modEncoder_drams (s : State) (n : Nat) (f : Encoder → Encoder) : (s.modEncoder n f).drams = s.drams := rfl
@[simp] theorem State.modEncoder_pci (s : State) (n : Nat) (f : Encoder → Encoder) : (s.modEncoder n f).pci = s.pci := rfl
@[simp] theorem State.modEncoder_nets (s : State) (n : Nat) (f : Encoder → Encoder) : (s.modEncoder n f).nets = s.nets := rfl
@[simp] theorem State.modEncoder_lnk (s : State) (n : Nat) (f : Encoder → Encoder) : (s.modEncoder n f).lnk = s.lnk := rfl
@[simp] theorem State.modEncoder_sec (s : State) (n : Nat) (f : Encoder → Encoder) : (s.modEncoder n f).sec = s.sec := rfl
@[simp] theorem State.modEncoder_dbg (s : State) (n : Nat) (f : Encoder → Encoder) : (s.modEncoder n f).dbg = s.dbg := rfl
@[simp] theorem State.modEncoder_tills (s : State) (n : Nat) (f : Encoder → Encoder) : (s.modEncoder n f).tills = s.tills := rfl
@[simp] theorem State.modEncoder_devTills (s : State) (n : Nat) (f : Encoder → Encoder) : (s.modEncoder n f).devTills = s.devTills := rfl
@[simp] theorem State.modEncoder_bridges (s : State) (n : Nat) (f : Encoder → Encoder) : (s.modEncoder n f).bridges = s.bridges := rfl
@[simp] theorem State.modEncoder_arbs (s : State) (n : Nat) (f : Encoder → Encoder) : (s.modEncoder n f).arbs = s.arbs := rfl
@[simp] theorem State.modEncoder_passbook (s : State) (n : Nat) (f : Encoder → Encoder) : (s.modEncoder n f).passbook = s.passbook := rfl
@[simp] theorem State.modEncoder_mem (s : State) (n : Nat) (f : Encoder → Encoder) : (s.modEncoder n f).mem = s.mem := rfl
@[simp] theorem State.modEncoder_voids (s : State) (n : Nat) (f : Encoder → Encoder) : (s.modEncoder n f).voids = s.voids := rfl
@[simp] theorem State.modEncoder_smbOffset (s : State) (n : Nat) (f : Encoder → Encoder) : (s.modEncoder n f).smbOffset = s.smbOffset := rfl
@[simp] theorem State.modEncoder_latched (s : State) (n : Nat) (f : Encoder → Encoder) : (s.modEncoder n f).latched = s.latched := rfl
@[simp] theorem State.modEncoder_readback (s : State) (n : Nat) (f : Encoder → Encoder) : (s.modEncoder n f).readback = s.readback := rfl
@[simp] theorem State.modEncoder_poisoned (s : State) (n : Nat) (f : Encoder → Encoder) : (s.modEncoder n f).poisoned = s.poisoned := rfl
@[simp] theorem State.modEncoder_nak (s : State) (n : Nat) (f : Encoder → Encoder) : (s.modEncoder n f).nak = s.nak := rfl
@[simp] theorem State.modEncoder_free (s : State) (n : Nat) (f : Encoder → Encoder) : (s.modEncoder n f).free = s.free := rfl
@[simp] theorem State.modEncoder_pending (s : State) (n : Nat) (f : Encoder → Encoder) : (s.modEncoder n f).pending = s.pending := rfl
/-- What is read after the update. -/
@[simp] theorem State.modEncoder_get (s : State) (n : Nat) (f : Encoder → Encoder) (j : Nat) : (s.modEncoder n f).encoder j = if j = n then f (s.encoder n) else s.encoder j :=
  Table.get_set _ j n _ _

/-! ### `State.modAcct` -/

@[simp] theorem State.modAcct_phase (s : State) (n : Nat) (f : PreAcct → PreAcct) : (s.modAcct n f).phase = s.phase := rfl
@[simp] theorem State.modAcct_boot (s : State) (n : Nat) (f : PreAcct → PreAcct) : (s.modAcct n f).boot = s.boot := rfl
@[simp] theorem State.modAcct_pins (s : State) (n : Nat) (f : PreAcct → PreAcct) : (s.modAcct n f).pins = s.pins := rfl
@[simp] theorem State.modAcct_power (s : State) (n : Nat) (f : PreAcct → PreAcct) : (s.modAcct n f).power = s.power := rfl
@[simp] theorem State.modAcct_fuses (s : State) (n : Nat) (f : PreAcct → PreAcct) : (s.modAcct n f).fuses = s.fuses := rfl
@[simp] theorem State.modAcct_flash (s : State) (n : Nat) (f : PreAcct → PreAcct) : (s.modAcct n f).flash = s.flash := rfl
@[simp] theorem State.modAcct_layout (s : State) (n : Nat) (f : PreAcct → PreAcct) : (s.modAcct n f).layout = s.layout := rfl
@[simp] theorem State.modAcct_cfg (s : State) (n : Nat) (f : PreAcct → PreAcct) : (s.modAcct n f).cfg = s.cfg := rfl
@[simp] theorem State.modAcct_cfgOld (s : State) (n : Nat) (f : PreAcct → PreAcct) : (s.modAcct n f).cfgOld = s.cfgOld := rfl
@[simp] theorem State.modAcct_stl (s : State) (n : Nat) (f : PreAcct → PreAcct) : (s.modAcct n f).stl = s.stl := rfl
@[simp] theorem State.modAcct_time (s : State) (n : Nat) (f : PreAcct → PreAcct) : (s.modAcct n f).time = s.time := rfl
@[simp] theorem State.modAcct_journal (s : State) (n : Nat) (f : PreAcct → PreAcct) : (s.modAcct n f).journal = s.journal := rfl
@[simp] theorem State.modAcct_streams (s : State) (n : Nat) (f : PreAcct → PreAcct) : (s.modAcct n f).streams = s.streams := rfl
@[simp] theorem State.modAcct_decs (s : State) (n : Nat) (f : PreAcct → PreAcct) : (s.modAcct n f).decs = s.decs := rfl
@[simp] theorem State.modAcct_rolling (s : State) (n : Nat) (f : PreAcct → PreAcct) : (s.modAcct n f).rolling = s.rolling := rfl
@[simp] theorem State.modAcct_preConvSat (s : State) (n : Nat) (f : PreAcct → PreAcct) : (s.modAcct n f).preConvSat = s.preConvSat := rfl
@[simp] theorem State.modAcct_ingUnmatched (s : State) (n : Nat) (f : PreAcct → PreAcct) : (s.modAcct n f).ingUnmatched = s.ingUnmatched := rfl
@[simp] theorem State.modAcct_engines (s : State) (n : Nat) (f : PreAcct → PreAcct) : (s.modAcct n f).engines = s.engines := rfl
@[simp] theorem State.modAcct_halo (s : State) (n : Nat) (f : PreAcct → PreAcct) : (s.modAcct n f).halo = s.halo := rfl
@[simp] theorem State.modAcct_haloBack (s : State) (n : Nat) (f : PreAcct → PreAcct) : (s.modAcct n f).haloBack = s.haloBack := rfl
@[simp] theorem State.modAcct_regions (s : State) (n : Nat) (f : PreAcct → PreAcct) : (s.modAcct n f).regions = s.regions := rfl
@[simp] theorem State.modAcct_switch (s : State) (n : Nat) (f : PreAcct → PreAcct) : (s.modAcct n f).switch = s.switch := rfl
@[simp] theorem State.modAcct_clrs (s : State) (n : Nat) (f : PreAcct → PreAcct) : (s.modAcct n f).clrs = s.clrs := rfl
@[simp] theorem State.modAcct_ledger (s : State) (n : Nat) (f : PreAcct → PreAcct) : (s.modAcct n f).ledger = s.ledger := rfl
@[simp] theorem State.modAcct_encs (s : State) (n : Nat) (f : PreAcct → PreAcct) : (s.modAcct n f).encs = s.encs := rfl
@[simp] theorem State.modAcct_evidence (s : State) (n : Nat) (f : PreAcct → PreAcct) : (s.modAcct n f).evidence = s.evidence := rfl
@[simp] theorem State.modAcct_adapt (s : State) (n : Nat) (f : PreAcct → PreAcct) : (s.modAcct n f).adapt = s.adapt := rfl
@[simp] theorem State.modAcct_flt (s : State) (n : Nat) (f : PreAcct → PreAcct) : (s.modAcct n f).flt = s.flt := rfl
@[simp] theorem State.modAcct_saf (s : State) (n : Nat) (f : PreAcct → PreAcct) : (s.modAcct n f).saf = s.saf := rfl
@[simp] theorem State.modAcct_drams (s : State) (n : Nat) (f : PreAcct → PreAcct) : (s.modAcct n f).drams = s.drams := rfl
@[simp] theorem State.modAcct_pci (s : State) (n : Nat) (f : PreAcct → PreAcct) : (s.modAcct n f).pci = s.pci := rfl
@[simp] theorem State.modAcct_nets (s : State) (n : Nat) (f : PreAcct → PreAcct) : (s.modAcct n f).nets = s.nets := rfl
@[simp] theorem State.modAcct_lnk (s : State) (n : Nat) (f : PreAcct → PreAcct) : (s.modAcct n f).lnk = s.lnk := rfl
@[simp] theorem State.modAcct_sec (s : State) (n : Nat) (f : PreAcct → PreAcct) : (s.modAcct n f).sec = s.sec := rfl
@[simp] theorem State.modAcct_dbg (s : State) (n : Nat) (f : PreAcct → PreAcct) : (s.modAcct n f).dbg = s.dbg := rfl
@[simp] theorem State.modAcct_tills (s : State) (n : Nat) (f : PreAcct → PreAcct) : (s.modAcct n f).tills = s.tills := rfl
@[simp] theorem State.modAcct_devTills (s : State) (n : Nat) (f : PreAcct → PreAcct) : (s.modAcct n f).devTills = s.devTills := rfl
@[simp] theorem State.modAcct_bridges (s : State) (n : Nat) (f : PreAcct → PreAcct) : (s.modAcct n f).bridges = s.bridges := rfl
@[simp] theorem State.modAcct_arbs (s : State) (n : Nat) (f : PreAcct → PreAcct) : (s.modAcct n f).arbs = s.arbs := rfl
@[simp] theorem State.modAcct_passbook (s : State) (n : Nat) (f : PreAcct → PreAcct) : (s.modAcct n f).passbook = s.passbook := rfl
@[simp] theorem State.modAcct_mem (s : State) (n : Nat) (f : PreAcct → PreAcct) : (s.modAcct n f).mem = s.mem := rfl
@[simp] theorem State.modAcct_voids (s : State) (n : Nat) (f : PreAcct → PreAcct) : (s.modAcct n f).voids = s.voids := rfl
@[simp] theorem State.modAcct_smbOffset (s : State) (n : Nat) (f : PreAcct → PreAcct) : (s.modAcct n f).smbOffset = s.smbOffset := rfl
@[simp] theorem State.modAcct_latched (s : State) (n : Nat) (f : PreAcct → PreAcct) : (s.modAcct n f).latched = s.latched := rfl
@[simp] theorem State.modAcct_readback (s : State) (n : Nat) (f : PreAcct → PreAcct) : (s.modAcct n f).readback = s.readback := rfl
@[simp] theorem State.modAcct_poisoned (s : State) (n : Nat) (f : PreAcct → PreAcct) : (s.modAcct n f).poisoned = s.poisoned := rfl
@[simp] theorem State.modAcct_nak (s : State) (n : Nat) (f : PreAcct → PreAcct) : (s.modAcct n f).nak = s.nak := rfl
@[simp] theorem State.modAcct_free (s : State) (n : Nat) (f : PreAcct → PreAcct) : (s.modAcct n f).free = s.free := rfl
@[simp] theorem State.modAcct_pending (s : State) (n : Nat) (f : PreAcct → PreAcct) : (s.modAcct n f).pending = s.pending := rfl
/-- What is read after the update. -/
@[simp] theorem State.modAcct_get (s : State) (n : Nat) (f : PreAcct → PreAcct) (j : Nat) : (s.modAcct n f).acct j = if j = n then f (s.acct n) else s.acct j :=
  Table.get_set _ j n _ _

/-! ### `State.modTill` -/

@[simp] theorem State.modTill_phase (s : State) (n : Nat) (f : Till → Till) : (s.modTill n f).phase = s.phase := rfl
@[simp] theorem State.modTill_boot (s : State) (n : Nat) (f : Till → Till) : (s.modTill n f).boot = s.boot := rfl
@[simp] theorem State.modTill_pins (s : State) (n : Nat) (f : Till → Till) : (s.modTill n f).pins = s.pins := rfl
@[simp] theorem State.modTill_power (s : State) (n : Nat) (f : Till → Till) : (s.modTill n f).power = s.power := rfl
@[simp] theorem State.modTill_fuses (s : State) (n : Nat) (f : Till → Till) : (s.modTill n f).fuses = s.fuses := rfl
@[simp] theorem State.modTill_flash (s : State) (n : Nat) (f : Till → Till) : (s.modTill n f).flash = s.flash := rfl
@[simp] theorem State.modTill_layout (s : State) (n : Nat) (f : Till → Till) : (s.modTill n f).layout = s.layout := rfl
@[simp] theorem State.modTill_cfg (s : State) (n : Nat) (f : Till → Till) : (s.modTill n f).cfg = s.cfg := rfl
@[simp] theorem State.modTill_cfgOld (s : State) (n : Nat) (f : Till → Till) : (s.modTill n f).cfgOld = s.cfgOld := rfl
@[simp] theorem State.modTill_stl (s : State) (n : Nat) (f : Till → Till) : (s.modTill n f).stl = s.stl := rfl
@[simp] theorem State.modTill_time (s : State) (n : Nat) (f : Till → Till) : (s.modTill n f).time = s.time := rfl
@[simp] theorem State.modTill_journal (s : State) (n : Nat) (f : Till → Till) : (s.modTill n f).journal = s.journal := rfl
@[simp] theorem State.modTill_streams (s : State) (n : Nat) (f : Till → Till) : (s.modTill n f).streams = s.streams := rfl
@[simp] theorem State.modTill_decs (s : State) (n : Nat) (f : Till → Till) : (s.modTill n f).decs = s.decs := rfl
@[simp] theorem State.modTill_accts (s : State) (n : Nat) (f : Till → Till) : (s.modTill n f).accts = s.accts := rfl
@[simp] theorem State.modTill_rolling (s : State) (n : Nat) (f : Till → Till) : (s.modTill n f).rolling = s.rolling := rfl
@[simp] theorem State.modTill_preConvSat (s : State) (n : Nat) (f : Till → Till) : (s.modTill n f).preConvSat = s.preConvSat := rfl
@[simp] theorem State.modTill_ingUnmatched (s : State) (n : Nat) (f : Till → Till) : (s.modTill n f).ingUnmatched = s.ingUnmatched := rfl
@[simp] theorem State.modTill_engines (s : State) (n : Nat) (f : Till → Till) : (s.modTill n f).engines = s.engines := rfl
@[simp] theorem State.modTill_halo (s : State) (n : Nat) (f : Till → Till) : (s.modTill n f).halo = s.halo := rfl
@[simp] theorem State.modTill_haloBack (s : State) (n : Nat) (f : Till → Till) : (s.modTill n f).haloBack = s.haloBack := rfl
@[simp] theorem State.modTill_regions (s : State) (n : Nat) (f : Till → Till) : (s.modTill n f).regions = s.regions := rfl
@[simp] theorem State.modTill_switch (s : State) (n : Nat) (f : Till → Till) : (s.modTill n f).switch = s.switch := rfl
@[simp] theorem State.modTill_clrs (s : State) (n : Nat) (f : Till → Till) : (s.modTill n f).clrs = s.clrs := rfl
@[simp] theorem State.modTill_ledger (s : State) (n : Nat) (f : Till → Till) : (s.modTill n f).ledger = s.ledger := rfl
@[simp] theorem State.modTill_encs (s : State) (n : Nat) (f : Till → Till) : (s.modTill n f).encs = s.encs := rfl
@[simp] theorem State.modTill_evidence (s : State) (n : Nat) (f : Till → Till) : (s.modTill n f).evidence = s.evidence := rfl
@[simp] theorem State.modTill_adapt (s : State) (n : Nat) (f : Till → Till) : (s.modTill n f).adapt = s.adapt := rfl
@[simp] theorem State.modTill_flt (s : State) (n : Nat) (f : Till → Till) : (s.modTill n f).flt = s.flt := rfl
@[simp] theorem State.modTill_saf (s : State) (n : Nat) (f : Till → Till) : (s.modTill n f).saf = s.saf := rfl
@[simp] theorem State.modTill_drams (s : State) (n : Nat) (f : Till → Till) : (s.modTill n f).drams = s.drams := rfl
@[simp] theorem State.modTill_pci (s : State) (n : Nat) (f : Till → Till) : (s.modTill n f).pci = s.pci := rfl
@[simp] theorem State.modTill_nets (s : State) (n : Nat) (f : Till → Till) : (s.modTill n f).nets = s.nets := rfl
@[simp] theorem State.modTill_lnk (s : State) (n : Nat) (f : Till → Till) : (s.modTill n f).lnk = s.lnk := rfl
@[simp] theorem State.modTill_sec (s : State) (n : Nat) (f : Till → Till) : (s.modTill n f).sec = s.sec := rfl
@[simp] theorem State.modTill_dbg (s : State) (n : Nat) (f : Till → Till) : (s.modTill n f).dbg = s.dbg := rfl
@[simp] theorem State.modTill_devTills (s : State) (n : Nat) (f : Till → Till) : (s.modTill n f).devTills = s.devTills := rfl
@[simp] theorem State.modTill_bridges (s : State) (n : Nat) (f : Till → Till) : (s.modTill n f).bridges = s.bridges := rfl
@[simp] theorem State.modTill_arbs (s : State) (n : Nat) (f : Till → Till) : (s.modTill n f).arbs = s.arbs := rfl
@[simp] theorem State.modTill_passbook (s : State) (n : Nat) (f : Till → Till) : (s.modTill n f).passbook = s.passbook := rfl
@[simp] theorem State.modTill_mem (s : State) (n : Nat) (f : Till → Till) : (s.modTill n f).mem = s.mem := rfl
@[simp] theorem State.modTill_voids (s : State) (n : Nat) (f : Till → Till) : (s.modTill n f).voids = s.voids := rfl
@[simp] theorem State.modTill_smbOffset (s : State) (n : Nat) (f : Till → Till) : (s.modTill n f).smbOffset = s.smbOffset := rfl
@[simp] theorem State.modTill_latched (s : State) (n : Nat) (f : Till → Till) : (s.modTill n f).latched = s.latched := rfl
@[simp] theorem State.modTill_readback (s : State) (n : Nat) (f : Till → Till) : (s.modTill n f).readback = s.readback := rfl
@[simp] theorem State.modTill_poisoned (s : State) (n : Nat) (f : Till → Till) : (s.modTill n f).poisoned = s.poisoned := rfl
@[simp] theorem State.modTill_nak (s : State) (n : Nat) (f : Till → Till) : (s.modTill n f).nak = s.nak := rfl
@[simp] theorem State.modTill_free (s : State) (n : Nat) (f : Till → Till) : (s.modTill n f).free = s.free := rfl
@[simp] theorem State.modTill_pending (s : State) (n : Nat) (f : Till → Till) : (s.modTill n f).pending = s.pending := rfl
/-- What is read after the update. -/
@[simp] theorem State.modTill_get (s : State) (n : Nat) (f : Till → Till) (j : Nat) : (s.modTill n f).till j = if j = n then f (s.till n) else s.till j :=
  Table.get_set _ j n _ _

/-! ### `State.modDram` -/

@[simp] theorem State.modDram_phase (s : State) (n : Nat) (f : Dram → Dram) : (s.modDram n f).phase = s.phase := rfl
@[simp] theorem State.modDram_boot (s : State) (n : Nat) (f : Dram → Dram) : (s.modDram n f).boot = s.boot := rfl
@[simp] theorem State.modDram_pins (s : State) (n : Nat) (f : Dram → Dram) : (s.modDram n f).pins = s.pins := rfl
@[simp] theorem State.modDram_power (s : State) (n : Nat) (f : Dram → Dram) : (s.modDram n f).power = s.power := rfl
@[simp] theorem State.modDram_fuses (s : State) (n : Nat) (f : Dram → Dram) : (s.modDram n f).fuses = s.fuses := rfl
@[simp] theorem State.modDram_flash (s : State) (n : Nat) (f : Dram → Dram) : (s.modDram n f).flash = s.flash := rfl
@[simp] theorem State.modDram_layout (s : State) (n : Nat) (f : Dram → Dram) : (s.modDram n f).layout = s.layout := rfl
@[simp] theorem State.modDram_cfg (s : State) (n : Nat) (f : Dram → Dram) : (s.modDram n f).cfg = s.cfg := rfl
@[simp] theorem State.modDram_cfgOld (s : State) (n : Nat) (f : Dram → Dram) : (s.modDram n f).cfgOld = s.cfgOld := rfl
@[simp] theorem State.modDram_stl (s : State) (n : Nat) (f : Dram → Dram) : (s.modDram n f).stl = s.stl := rfl
@[simp] theorem State.modDram_time (s : State) (n : Nat) (f : Dram → Dram) : (s.modDram n f).time = s.time := rfl
@[simp] theorem State.modDram_journal (s : State) (n : Nat) (f : Dram → Dram) : (s.modDram n f).journal = s.journal := rfl
@[simp] theorem State.modDram_streams (s : State) (n : Nat) (f : Dram → Dram) : (s.modDram n f).streams = s.streams := rfl
@[simp] theorem State.modDram_decs (s : State) (n : Nat) (f : Dram → Dram) : (s.modDram n f).decs = s.decs := rfl
@[simp] theorem State.modDram_accts (s : State) (n : Nat) (f : Dram → Dram) : (s.modDram n f).accts = s.accts := rfl
@[simp] theorem State.modDram_rolling (s : State) (n : Nat) (f : Dram → Dram) : (s.modDram n f).rolling = s.rolling := rfl
@[simp] theorem State.modDram_preConvSat (s : State) (n : Nat) (f : Dram → Dram) : (s.modDram n f).preConvSat = s.preConvSat := rfl
@[simp] theorem State.modDram_ingUnmatched (s : State) (n : Nat) (f : Dram → Dram) : (s.modDram n f).ingUnmatched = s.ingUnmatched := rfl
@[simp] theorem State.modDram_engines (s : State) (n : Nat) (f : Dram → Dram) : (s.modDram n f).engines = s.engines := rfl
@[simp] theorem State.modDram_halo (s : State) (n : Nat) (f : Dram → Dram) : (s.modDram n f).halo = s.halo := rfl
@[simp] theorem State.modDram_haloBack (s : State) (n : Nat) (f : Dram → Dram) : (s.modDram n f).haloBack = s.haloBack := rfl
@[simp] theorem State.modDram_regions (s : State) (n : Nat) (f : Dram → Dram) : (s.modDram n f).regions = s.regions := rfl
@[simp] theorem State.modDram_switch (s : State) (n : Nat) (f : Dram → Dram) : (s.modDram n f).switch = s.switch := rfl
@[simp] theorem State.modDram_clrs (s : State) (n : Nat) (f : Dram → Dram) : (s.modDram n f).clrs = s.clrs := rfl
@[simp] theorem State.modDram_ledger (s : State) (n : Nat) (f : Dram → Dram) : (s.modDram n f).ledger = s.ledger := rfl
@[simp] theorem State.modDram_encs (s : State) (n : Nat) (f : Dram → Dram) : (s.modDram n f).encs = s.encs := rfl
@[simp] theorem State.modDram_evidence (s : State) (n : Nat) (f : Dram → Dram) : (s.modDram n f).evidence = s.evidence := rfl
@[simp] theorem State.modDram_adapt (s : State) (n : Nat) (f : Dram → Dram) : (s.modDram n f).adapt = s.adapt := rfl
@[simp] theorem State.modDram_flt (s : State) (n : Nat) (f : Dram → Dram) : (s.modDram n f).flt = s.flt := rfl
@[simp] theorem State.modDram_saf (s : State) (n : Nat) (f : Dram → Dram) : (s.modDram n f).saf = s.saf := rfl
@[simp] theorem State.modDram_pci (s : State) (n : Nat) (f : Dram → Dram) : (s.modDram n f).pci = s.pci := rfl
@[simp] theorem State.modDram_nets (s : State) (n : Nat) (f : Dram → Dram) : (s.modDram n f).nets = s.nets := rfl
@[simp] theorem State.modDram_lnk (s : State) (n : Nat) (f : Dram → Dram) : (s.modDram n f).lnk = s.lnk := rfl
@[simp] theorem State.modDram_sec (s : State) (n : Nat) (f : Dram → Dram) : (s.modDram n f).sec = s.sec := rfl
@[simp] theorem State.modDram_dbg (s : State) (n : Nat) (f : Dram → Dram) : (s.modDram n f).dbg = s.dbg := rfl
@[simp] theorem State.modDram_tills (s : State) (n : Nat) (f : Dram → Dram) : (s.modDram n f).tills = s.tills := rfl
@[simp] theorem State.modDram_devTills (s : State) (n : Nat) (f : Dram → Dram) : (s.modDram n f).devTills = s.devTills := rfl
@[simp] theorem State.modDram_bridges (s : State) (n : Nat) (f : Dram → Dram) : (s.modDram n f).bridges = s.bridges := rfl
@[simp] theorem State.modDram_arbs (s : State) (n : Nat) (f : Dram → Dram) : (s.modDram n f).arbs = s.arbs := rfl
@[simp] theorem State.modDram_passbook (s : State) (n : Nat) (f : Dram → Dram) : (s.modDram n f).passbook = s.passbook := rfl
@[simp] theorem State.modDram_mem (s : State) (n : Nat) (f : Dram → Dram) : (s.modDram n f).mem = s.mem := rfl
@[simp] theorem State.modDram_voids (s : State) (n : Nat) (f : Dram → Dram) : (s.modDram n f).voids = s.voids := rfl
@[simp] theorem State.modDram_smbOffset (s : State) (n : Nat) (f : Dram → Dram) : (s.modDram n f).smbOffset = s.smbOffset := rfl
@[simp] theorem State.modDram_latched (s : State) (n : Nat) (f : Dram → Dram) : (s.modDram n f).latched = s.latched := rfl
@[simp] theorem State.modDram_readback (s : State) (n : Nat) (f : Dram → Dram) : (s.modDram n f).readback = s.readback := rfl
@[simp] theorem State.modDram_poisoned (s : State) (n : Nat) (f : Dram → Dram) : (s.modDram n f).poisoned = s.poisoned := rfl
@[simp] theorem State.modDram_nak (s : State) (n : Nat) (f : Dram → Dram) : (s.modDram n f).nak = s.nak := rfl
@[simp] theorem State.modDram_free (s : State) (n : Nat) (f : Dram → Dram) : (s.modDram n f).free = s.free := rfl
@[simp] theorem State.modDram_pending (s : State) (n : Nat) (f : Dram → Dram) : (s.modDram n f).pending = s.pending := rfl
/-- What is read after the update. -/
@[simp] theorem State.modDram_get (s : State) (n : Nat) (f : Dram → Dram) (j : Nat) : (s.modDram n f).dram j = if j = n then f (s.dram n) else s.dram j :=
  Table.get_set _ j n _ _

/-! ### `State.modZone` -/

@[simp] theorem State.modZone_phase (s : State) (n : Nat) (f : Zone → Zone) : (s.modZone n f).phase = s.phase := rfl
@[simp] theorem State.modZone_boot (s : State) (n : Nat) (f : Zone → Zone) : (s.modZone n f).boot = s.boot := rfl
@[simp] theorem State.modZone_pins (s : State) (n : Nat) (f : Zone → Zone) : (s.modZone n f).pins = s.pins := rfl
@[simp] theorem State.modZone_power (s : State) (n : Nat) (f : Zone → Zone) : (s.modZone n f).power = s.power := rfl
@[simp] theorem State.modZone_fuses (s : State) (n : Nat) (f : Zone → Zone) : (s.modZone n f).fuses = s.fuses := rfl
@[simp] theorem State.modZone_flash (s : State) (n : Nat) (f : Zone → Zone) : (s.modZone n f).flash = s.flash := rfl
@[simp] theorem State.modZone_layout (s : State) (n : Nat) (f : Zone → Zone) : (s.modZone n f).layout = s.layout := rfl
@[simp] theorem State.modZone_cfg (s : State) (n : Nat) (f : Zone → Zone) : (s.modZone n f).cfg = s.cfg := rfl
@[simp] theorem State.modZone_cfgOld (s : State) (n : Nat) (f : Zone → Zone) : (s.modZone n f).cfgOld = s.cfgOld := rfl
@[simp] theorem State.modZone_stl (s : State) (n : Nat) (f : Zone → Zone) : (s.modZone n f).stl = s.stl := rfl
@[simp] theorem State.modZone_time (s : State) (n : Nat) (f : Zone → Zone) : (s.modZone n f).time = s.time := rfl
@[simp] theorem State.modZone_journal (s : State) (n : Nat) (f : Zone → Zone) : (s.modZone n f).journal = s.journal := rfl
@[simp] theorem State.modZone_streams (s : State) (n : Nat) (f : Zone → Zone) : (s.modZone n f).streams = s.streams := rfl
@[simp] theorem State.modZone_decs (s : State) (n : Nat) (f : Zone → Zone) : (s.modZone n f).decs = s.decs := rfl
@[simp] theorem State.modZone_accts (s : State) (n : Nat) (f : Zone → Zone) : (s.modZone n f).accts = s.accts := rfl
@[simp] theorem State.modZone_rolling (s : State) (n : Nat) (f : Zone → Zone) : (s.modZone n f).rolling = s.rolling := rfl
@[simp] theorem State.modZone_preConvSat (s : State) (n : Nat) (f : Zone → Zone) : (s.modZone n f).preConvSat = s.preConvSat := rfl
@[simp] theorem State.modZone_ingUnmatched (s : State) (n : Nat) (f : Zone → Zone) : (s.modZone n f).ingUnmatched = s.ingUnmatched := rfl
@[simp] theorem State.modZone_engines (s : State) (n : Nat) (f : Zone → Zone) : (s.modZone n f).engines = s.engines := rfl
@[simp] theorem State.modZone_halo (s : State) (n : Nat) (f : Zone → Zone) : (s.modZone n f).halo = s.halo := rfl
@[simp] theorem State.modZone_haloBack (s : State) (n : Nat) (f : Zone → Zone) : (s.modZone n f).haloBack = s.haloBack := rfl
@[simp] theorem State.modZone_regions (s : State) (n : Nat) (f : Zone → Zone) : (s.modZone n f).regions = s.regions := rfl
@[simp] theorem State.modZone_switch (s : State) (n : Nat) (f : Zone → Zone) : (s.modZone n f).switch = s.switch := rfl
@[simp] theorem State.modZone_clrs (s : State) (n : Nat) (f : Zone → Zone) : (s.modZone n f).clrs = s.clrs := rfl
@[simp] theorem State.modZone_ledger (s : State) (n : Nat) (f : Zone → Zone) : (s.modZone n f).ledger = s.ledger := rfl
@[simp] theorem State.modZone_encs (s : State) (n : Nat) (f : Zone → Zone) : (s.modZone n f).encs = s.encs := rfl
@[simp] theorem State.modZone_evidence (s : State) (n : Nat) (f : Zone → Zone) : (s.modZone n f).evidence = s.evidence := rfl
@[simp] theorem State.modZone_adapt (s : State) (n : Nat) (f : Zone → Zone) : (s.modZone n f).adapt = s.adapt := rfl
@[simp] theorem State.modZone_flt (s : State) (n : Nat) (f : Zone → Zone) : (s.modZone n f).flt = s.flt := rfl
@[simp] theorem State.modZone_drams (s : State) (n : Nat) (f : Zone → Zone) : (s.modZone n f).drams = s.drams := rfl
@[simp] theorem State.modZone_pci (s : State) (n : Nat) (f : Zone → Zone) : (s.modZone n f).pci = s.pci := rfl
@[simp] theorem State.modZone_nets (s : State) (n : Nat) (f : Zone → Zone) : (s.modZone n f).nets = s.nets := rfl
@[simp] theorem State.modZone_lnk (s : State) (n : Nat) (f : Zone → Zone) : (s.modZone n f).lnk = s.lnk := rfl
@[simp] theorem State.modZone_sec (s : State) (n : Nat) (f : Zone → Zone) : (s.modZone n f).sec = s.sec := rfl
@[simp] theorem State.modZone_dbg (s : State) (n : Nat) (f : Zone → Zone) : (s.modZone n f).dbg = s.dbg := rfl
@[simp] theorem State.modZone_tills (s : State) (n : Nat) (f : Zone → Zone) : (s.modZone n f).tills = s.tills := rfl
@[simp] theorem State.modZone_devTills (s : State) (n : Nat) (f : Zone → Zone) : (s.modZone n f).devTills = s.devTills := rfl
@[simp] theorem State.modZone_bridges (s : State) (n : Nat) (f : Zone → Zone) : (s.modZone n f).bridges = s.bridges := rfl
@[simp] theorem State.modZone_arbs (s : State) (n : Nat) (f : Zone → Zone) : (s.modZone n f).arbs = s.arbs := rfl
@[simp] theorem State.modZone_passbook (s : State) (n : Nat) (f : Zone → Zone) : (s.modZone n f).passbook = s.passbook := rfl
@[simp] theorem State.modZone_mem (s : State) (n : Nat) (f : Zone → Zone) : (s.modZone n f).mem = s.mem := rfl
@[simp] theorem State.modZone_voids (s : State) (n : Nat) (f : Zone → Zone) : (s.modZone n f).voids = s.voids := rfl
@[simp] theorem State.modZone_smbOffset (s : State) (n : Nat) (f : Zone → Zone) : (s.modZone n f).smbOffset = s.smbOffset := rfl
@[simp] theorem State.modZone_latched (s : State) (n : Nat) (f : Zone → Zone) : (s.modZone n f).latched = s.latched := rfl
@[simp] theorem State.modZone_readback (s : State) (n : Nat) (f : Zone → Zone) : (s.modZone n f).readback = s.readback := rfl
@[simp] theorem State.modZone_poisoned (s : State) (n : Nat) (f : Zone → Zone) : (s.modZone n f).poisoned = s.poisoned := rfl
@[simp] theorem State.modZone_nak (s : State) (n : Nat) (f : Zone → Zone) : (s.modZone n f).nak = s.nak := rfl
@[simp] theorem State.modZone_free (s : State) (n : Nat) (f : Zone → Zone) : (s.modZone n f).free = s.free := rfl
@[simp] theorem State.modZone_pending (s : State) (n : Nat) (f : Zone → Zone) : (s.modZone n f).pending = s.pending := rfl
/-- What is read after the update. -/
@[simp] theorem State.modZone_get (s : State) (n : Nat) (f : Zone → Zone) (j : Nat) : (s.modZone n f).zone j = if j = n then f (s.zone n) else s.zone j :=
  Table.get_set _ j n _ _

/-! ### `State.modPeer` -/

@[simp] theorem State.modPeer_phase (s : State) (n : Nat) (f : Peer → Peer) : (s.modPeer n f).phase = s.phase := rfl
@[simp] theorem State.modPeer_boot (s : State) (n : Nat) (f : Peer → Peer) : (s.modPeer n f).boot = s.boot := rfl
@[simp] theorem State.modPeer_pins (s : State) (n : Nat) (f : Peer → Peer) : (s.modPeer n f).pins = s.pins := rfl
@[simp] theorem State.modPeer_power (s : State) (n : Nat) (f : Peer → Peer) : (s.modPeer n f).power = s.power := rfl
@[simp] theorem State.modPeer_fuses (s : State) (n : Nat) (f : Peer → Peer) : (s.modPeer n f).fuses = s.fuses := rfl
@[simp] theorem State.modPeer_flash (s : State) (n : Nat) (f : Peer → Peer) : (s.modPeer n f).flash = s.flash := rfl
@[simp] theorem State.modPeer_layout (s : State) (n : Nat) (f : Peer → Peer) : (s.modPeer n f).layout = s.layout := rfl
@[simp] theorem State.modPeer_cfg (s : State) (n : Nat) (f : Peer → Peer) : (s.modPeer n f).cfg = s.cfg := rfl
@[simp] theorem State.modPeer_cfgOld (s : State) (n : Nat) (f : Peer → Peer) : (s.modPeer n f).cfgOld = s.cfgOld := rfl
@[simp] theorem State.modPeer_stl (s : State) (n : Nat) (f : Peer → Peer) : (s.modPeer n f).stl = s.stl := rfl
@[simp] theorem State.modPeer_time (s : State) (n : Nat) (f : Peer → Peer) : (s.modPeer n f).time = s.time := rfl
@[simp] theorem State.modPeer_journal (s : State) (n : Nat) (f : Peer → Peer) : (s.modPeer n f).journal = s.journal := rfl
@[simp] theorem State.modPeer_streams (s : State) (n : Nat) (f : Peer → Peer) : (s.modPeer n f).streams = s.streams := rfl
@[simp] theorem State.modPeer_decs (s : State) (n : Nat) (f : Peer → Peer) : (s.modPeer n f).decs = s.decs := rfl
@[simp] theorem State.modPeer_accts (s : State) (n : Nat) (f : Peer → Peer) : (s.modPeer n f).accts = s.accts := rfl
@[simp] theorem State.modPeer_rolling (s : State) (n : Nat) (f : Peer → Peer) : (s.modPeer n f).rolling = s.rolling := rfl
@[simp] theorem State.modPeer_preConvSat (s : State) (n : Nat) (f : Peer → Peer) : (s.modPeer n f).preConvSat = s.preConvSat := rfl
@[simp] theorem State.modPeer_ingUnmatched (s : State) (n : Nat) (f : Peer → Peer) : (s.modPeer n f).ingUnmatched = s.ingUnmatched := rfl
@[simp] theorem State.modPeer_engines (s : State) (n : Nat) (f : Peer → Peer) : (s.modPeer n f).engines = s.engines := rfl
@[simp] theorem State.modPeer_halo (s : State) (n : Nat) (f : Peer → Peer) : (s.modPeer n f).halo = s.halo := rfl
@[simp] theorem State.modPeer_haloBack (s : State) (n : Nat) (f : Peer → Peer) : (s.modPeer n f).haloBack = s.haloBack := rfl
@[simp] theorem State.modPeer_regions (s : State) (n : Nat) (f : Peer → Peer) : (s.modPeer n f).regions = s.regions := rfl
@[simp] theorem State.modPeer_switch (s : State) (n : Nat) (f : Peer → Peer) : (s.modPeer n f).switch = s.switch := rfl
@[simp] theorem State.modPeer_clrs (s : State) (n : Nat) (f : Peer → Peer) : (s.modPeer n f).clrs = s.clrs := rfl
@[simp] theorem State.modPeer_ledger (s : State) (n : Nat) (f : Peer → Peer) : (s.modPeer n f).ledger = s.ledger := rfl
@[simp] theorem State.modPeer_encs (s : State) (n : Nat) (f : Peer → Peer) : (s.modPeer n f).encs = s.encs := rfl
@[simp] theorem State.modPeer_evidence (s : State) (n : Nat) (f : Peer → Peer) : (s.modPeer n f).evidence = s.evidence := rfl
@[simp] theorem State.modPeer_adapt (s : State) (n : Nat) (f : Peer → Peer) : (s.modPeer n f).adapt = s.adapt := rfl
@[simp] theorem State.modPeer_flt (s : State) (n : Nat) (f : Peer → Peer) : (s.modPeer n f).flt = s.flt := rfl
@[simp] theorem State.modPeer_saf (s : State) (n : Nat) (f : Peer → Peer) : (s.modPeer n f).saf = s.saf := rfl
@[simp] theorem State.modPeer_drams (s : State) (n : Nat) (f : Peer → Peer) : (s.modPeer n f).drams = s.drams := rfl
@[simp] theorem State.modPeer_pci (s : State) (n : Nat) (f : Peer → Peer) : (s.modPeer n f).pci = s.pci := rfl
@[simp] theorem State.modPeer_nets (s : State) (n : Nat) (f : Peer → Peer) : (s.modPeer n f).nets = s.nets := rfl
@[simp] theorem State.modPeer_sec (s : State) (n : Nat) (f : Peer → Peer) : (s.modPeer n f).sec = s.sec := rfl
@[simp] theorem State.modPeer_dbg (s : State) (n : Nat) (f : Peer → Peer) : (s.modPeer n f).dbg = s.dbg := rfl
@[simp] theorem State.modPeer_tills (s : State) (n : Nat) (f : Peer → Peer) : (s.modPeer n f).tills = s.tills := rfl
@[simp] theorem State.modPeer_devTills (s : State) (n : Nat) (f : Peer → Peer) : (s.modPeer n f).devTills = s.devTills := rfl
@[simp] theorem State.modPeer_bridges (s : State) (n : Nat) (f : Peer → Peer) : (s.modPeer n f).bridges = s.bridges := rfl
@[simp] theorem State.modPeer_arbs (s : State) (n : Nat) (f : Peer → Peer) : (s.modPeer n f).arbs = s.arbs := rfl
@[simp] theorem State.modPeer_passbook (s : State) (n : Nat) (f : Peer → Peer) : (s.modPeer n f).passbook = s.passbook := rfl
@[simp] theorem State.modPeer_mem (s : State) (n : Nat) (f : Peer → Peer) : (s.modPeer n f).mem = s.mem := rfl
@[simp] theorem State.modPeer_voids (s : State) (n : Nat) (f : Peer → Peer) : (s.modPeer n f).voids = s.voids := rfl
@[simp] theorem State.modPeer_smbOffset (s : State) (n : Nat) (f : Peer → Peer) : (s.modPeer n f).smbOffset = s.smbOffset := rfl
@[simp] theorem State.modPeer_latched (s : State) (n : Nat) (f : Peer → Peer) : (s.modPeer n f).latched = s.latched := rfl
@[simp] theorem State.modPeer_readback (s : State) (n : Nat) (f : Peer → Peer) : (s.modPeer n f).readback = s.readback := rfl
@[simp] theorem State.modPeer_poisoned (s : State) (n : Nat) (f : Peer → Peer) : (s.modPeer n f).poisoned = s.poisoned := rfl
@[simp] theorem State.modPeer_nak (s : State) (n : Nat) (f : Peer → Peer) : (s.modPeer n f).nak = s.nak := rfl
@[simp] theorem State.modPeer_free (s : State) (n : Nat) (f : Peer → Peer) : (s.modPeer n f).free = s.free := rfl
@[simp] theorem State.modPeer_pending (s : State) (n : Nat) (f : Peer → Peer) : (s.modPeer n f).pending = s.pending := rfl
/-- What is read after the update. -/
@[simp] theorem State.modPeer_get (s : State) (n : Nat) (f : Peer → Peer) (j : Nat) : (s.modPeer n f).peer j = if j = n then f (s.peer n) else s.peer j :=
  Table.get_set _ j n _ _

/-! ### `State.modDevTill` -/

@[simp] theorem State.modDevTill_phase (s : State) (n : Nat) (f : Till → Till) : (s.modDevTill n f).phase = s.phase := rfl
@[simp] theorem State.modDevTill_boot (s : State) (n : Nat) (f : Till → Till) : (s.modDevTill n f).boot = s.boot := rfl
@[simp] theorem State.modDevTill_pins (s : State) (n : Nat) (f : Till → Till) : (s.modDevTill n f).pins = s.pins := rfl
@[simp] theorem State.modDevTill_power (s : State) (n : Nat) (f : Till → Till) : (s.modDevTill n f).power = s.power := rfl
@[simp] theorem State.modDevTill_fuses (s : State) (n : Nat) (f : Till → Till) : (s.modDevTill n f).fuses = s.fuses := rfl
@[simp] theorem State.modDevTill_flash (s : State) (n : Nat) (f : Till → Till) : (s.modDevTill n f).flash = s.flash := rfl
@[simp] theorem State.modDevTill_layout (s : State) (n : Nat) (f : Till → Till) : (s.modDevTill n f).layout = s.layout := rfl
@[simp] theorem State.modDevTill_cfg (s : State) (n : Nat) (f : Till → Till) : (s.modDevTill n f).cfg = s.cfg := rfl
@[simp] theorem State.modDevTill_cfgOld (s : State) (n : Nat) (f : Till → Till) : (s.modDevTill n f).cfgOld = s.cfgOld := rfl
@[simp] theorem State.modDevTill_stl (s : State) (n : Nat) (f : Till → Till) : (s.modDevTill n f).stl = s.stl := rfl
@[simp] theorem State.modDevTill_time (s : State) (n : Nat) (f : Till → Till) : (s.modDevTill n f).time = s.time := rfl
@[simp] theorem State.modDevTill_journal (s : State) (n : Nat) (f : Till → Till) : (s.modDevTill n f).journal = s.journal := rfl
@[simp] theorem State.modDevTill_streams (s : State) (n : Nat) (f : Till → Till) : (s.modDevTill n f).streams = s.streams := rfl
@[simp] theorem State.modDevTill_decs (s : State) (n : Nat) (f : Till → Till) : (s.modDevTill n f).decs = s.decs := rfl
@[simp] theorem State.modDevTill_accts (s : State) (n : Nat) (f : Till → Till) : (s.modDevTill n f).accts = s.accts := rfl
@[simp] theorem State.modDevTill_rolling (s : State) (n : Nat) (f : Till → Till) : (s.modDevTill n f).rolling = s.rolling := rfl
@[simp] theorem State.modDevTill_preConvSat (s : State) (n : Nat) (f : Till → Till) : (s.modDevTill n f).preConvSat = s.preConvSat := rfl
@[simp] theorem State.modDevTill_ingUnmatched (s : State) (n : Nat) (f : Till → Till) : (s.modDevTill n f).ingUnmatched = s.ingUnmatched := rfl
@[simp] theorem State.modDevTill_engines (s : State) (n : Nat) (f : Till → Till) : (s.modDevTill n f).engines = s.engines := rfl
@[simp] theorem State.modDevTill_halo (s : State) (n : Nat) (f : Till → Till) : (s.modDevTill n f).halo = s.halo := rfl
@[simp] theorem State.modDevTill_haloBack (s : State) (n : Nat) (f : Till → Till) : (s.modDevTill n f).haloBack = s.haloBack := rfl
@[simp] theorem State.modDevTill_regions (s : State) (n : Nat) (f : Till → Till) : (s.modDevTill n f).regions = s.regions := rfl
@[simp] theorem State.modDevTill_switch (s : State) (n : Nat) (f : Till → Till) : (s.modDevTill n f).switch = s.switch := rfl
@[simp] theorem State.modDevTill_clrs (s : State) (n : Nat) (f : Till → Till) : (s.modDevTill n f).clrs = s.clrs := rfl
@[simp] theorem State.modDevTill_ledger (s : State) (n : Nat) (f : Till → Till) : (s.modDevTill n f).ledger = s.ledger := rfl
@[simp] theorem State.modDevTill_encs (s : State) (n : Nat) (f : Till → Till) : (s.modDevTill n f).encs = s.encs := rfl
@[simp] theorem State.modDevTill_evidence (s : State) (n : Nat) (f : Till → Till) : (s.modDevTill n f).evidence = s.evidence := rfl
@[simp] theorem State.modDevTill_adapt (s : State) (n : Nat) (f : Till → Till) : (s.modDevTill n f).adapt = s.adapt := rfl
@[simp] theorem State.modDevTill_flt (s : State) (n : Nat) (f : Till → Till) : (s.modDevTill n f).flt = s.flt := rfl
@[simp] theorem State.modDevTill_saf (s : State) (n : Nat) (f : Till → Till) : (s.modDevTill n f).saf = s.saf := rfl
@[simp] theorem State.modDevTill_drams (s : State) (n : Nat) (f : Till → Till) : (s.modDevTill n f).drams = s.drams := rfl
@[simp] theorem State.modDevTill_pci (s : State) (n : Nat) (f : Till → Till) : (s.modDevTill n f).pci = s.pci := rfl
@[simp] theorem State.modDevTill_nets (s : State) (n : Nat) (f : Till → Till) : (s.modDevTill n f).nets = s.nets := rfl
@[simp] theorem State.modDevTill_lnk (s : State) (n : Nat) (f : Till → Till) : (s.modDevTill n f).lnk = s.lnk := rfl
@[simp] theorem State.modDevTill_sec (s : State) (n : Nat) (f : Till → Till) : (s.modDevTill n f).sec = s.sec := rfl
@[simp] theorem State.modDevTill_dbg (s : State) (n : Nat) (f : Till → Till) : (s.modDevTill n f).dbg = s.dbg := rfl
@[simp] theorem State.modDevTill_tills (s : State) (n : Nat) (f : Till → Till) : (s.modDevTill n f).tills = s.tills := rfl
@[simp] theorem State.modDevTill_bridges (s : State) (n : Nat) (f : Till → Till) : (s.modDevTill n f).bridges = s.bridges := rfl
@[simp] theorem State.modDevTill_arbs (s : State) (n : Nat) (f : Till → Till) : (s.modDevTill n f).arbs = s.arbs := rfl
@[simp] theorem State.modDevTill_passbook (s : State) (n : Nat) (f : Till → Till) : (s.modDevTill n f).passbook = s.passbook := rfl
@[simp] theorem State.modDevTill_mem (s : State) (n : Nat) (f : Till → Till) : (s.modDevTill n f).mem = s.mem := rfl
@[simp] theorem State.modDevTill_voids (s : State) (n : Nat) (f : Till → Till) : (s.modDevTill n f).voids = s.voids := rfl
@[simp] theorem State.modDevTill_smbOffset (s : State) (n : Nat) (f : Till → Till) : (s.modDevTill n f).smbOffset = s.smbOffset := rfl
@[simp] theorem State.modDevTill_latched (s : State) (n : Nat) (f : Till → Till) : (s.modDevTill n f).latched = s.latched := rfl
@[simp] theorem State.modDevTill_readback (s : State) (n : Nat) (f : Till → Till) : (s.modDevTill n f).readback = s.readback := rfl
@[simp] theorem State.modDevTill_poisoned (s : State) (n : Nat) (f : Till → Till) : (s.modDevTill n f).poisoned = s.poisoned := rfl
@[simp] theorem State.modDevTill_nak (s : State) (n : Nat) (f : Till → Till) : (s.modDevTill n f).nak = s.nak := rfl
@[simp] theorem State.modDevTill_free (s : State) (n : Nat) (f : Till → Till) : (s.modDevTill n f).free = s.free := rfl
@[simp] theorem State.modDevTill_pending (s : State) (n : Nat) (f : Till → Till) : (s.modDevTill n f).pending = s.pending := rfl
/-- What is read after the update. -/
@[simp] theorem State.modDevTill_get (s : State) (n : Nat) (f : Till → Till) (j : Nat) : (s.modDevTill n f).devTill j = if j = n then f (s.devTill n) else s.devTill j :=
  Table.get_set _ j n _ _

/-! ### `State.modNet` -/

@[simp] theorem State.modNet_phase (s : State) (n : Nat) (f : NetPort → NetPort) : (s.modNet n f).phase = s.phase := rfl
@[simp] theorem State.modNet_boot (s : State) (n : Nat) (f : NetPort → NetPort) : (s.modNet n f).boot = s.boot := rfl
@[simp] theorem State.modNet_pins (s : State) (n : Nat) (f : NetPort → NetPort) : (s.modNet n f).pins = s.pins := rfl
@[simp] theorem State.modNet_power (s : State) (n : Nat) (f : NetPort → NetPort) : (s.modNet n f).power = s.power := rfl
@[simp] theorem State.modNet_fuses (s : State) (n : Nat) (f : NetPort → NetPort) : (s.modNet n f).fuses = s.fuses := rfl
@[simp] theorem State.modNet_flash (s : State) (n : Nat) (f : NetPort → NetPort) : (s.modNet n f).flash = s.flash := rfl
@[simp] theorem State.modNet_layout (s : State) (n : Nat) (f : NetPort → NetPort) : (s.modNet n f).layout = s.layout := rfl
@[simp] theorem State.modNet_cfg (s : State) (n : Nat) (f : NetPort → NetPort) : (s.modNet n f).cfg = s.cfg := rfl
@[simp] theorem State.modNet_cfgOld (s : State) (n : Nat) (f : NetPort → NetPort) : (s.modNet n f).cfgOld = s.cfgOld := rfl
@[simp] theorem State.modNet_stl (s : State) (n : Nat) (f : NetPort → NetPort) : (s.modNet n f).stl = s.stl := rfl
@[simp] theorem State.modNet_time (s : State) (n : Nat) (f : NetPort → NetPort) : (s.modNet n f).time = s.time := rfl
@[simp] theorem State.modNet_journal (s : State) (n : Nat) (f : NetPort → NetPort) : (s.modNet n f).journal = s.journal := rfl
@[simp] theorem State.modNet_streams (s : State) (n : Nat) (f : NetPort → NetPort) : (s.modNet n f).streams = s.streams := rfl
@[simp] theorem State.modNet_decs (s : State) (n : Nat) (f : NetPort → NetPort) : (s.modNet n f).decs = s.decs := rfl
@[simp] theorem State.modNet_accts (s : State) (n : Nat) (f : NetPort → NetPort) : (s.modNet n f).accts = s.accts := rfl
@[simp] theorem State.modNet_rolling (s : State) (n : Nat) (f : NetPort → NetPort) : (s.modNet n f).rolling = s.rolling := rfl
@[simp] theorem State.modNet_preConvSat (s : State) (n : Nat) (f : NetPort → NetPort) : (s.modNet n f).preConvSat = s.preConvSat := rfl
@[simp] theorem State.modNet_ingUnmatched (s : State) (n : Nat) (f : NetPort → NetPort) : (s.modNet n f).ingUnmatched = s.ingUnmatched := rfl
@[simp] theorem State.modNet_engines (s : State) (n : Nat) (f : NetPort → NetPort) : (s.modNet n f).engines = s.engines := rfl
@[simp] theorem State.modNet_halo (s : State) (n : Nat) (f : NetPort → NetPort) : (s.modNet n f).halo = s.halo := rfl
@[simp] theorem State.modNet_haloBack (s : State) (n : Nat) (f : NetPort → NetPort) : (s.modNet n f).haloBack = s.haloBack := rfl
@[simp] theorem State.modNet_regions (s : State) (n : Nat) (f : NetPort → NetPort) : (s.modNet n f).regions = s.regions := rfl
@[simp] theorem State.modNet_switch (s : State) (n : Nat) (f : NetPort → NetPort) : (s.modNet n f).switch = s.switch := rfl
@[simp] theorem State.modNet_clrs (s : State) (n : Nat) (f : NetPort → NetPort) : (s.modNet n f).clrs = s.clrs := rfl
@[simp] theorem State.modNet_ledger (s : State) (n : Nat) (f : NetPort → NetPort) : (s.modNet n f).ledger = s.ledger := rfl
@[simp] theorem State.modNet_encs (s : State) (n : Nat) (f : NetPort → NetPort) : (s.modNet n f).encs = s.encs := rfl
@[simp] theorem State.modNet_evidence (s : State) (n : Nat) (f : NetPort → NetPort) : (s.modNet n f).evidence = s.evidence := rfl
@[simp] theorem State.modNet_adapt (s : State) (n : Nat) (f : NetPort → NetPort) : (s.modNet n f).adapt = s.adapt := rfl
@[simp] theorem State.modNet_flt (s : State) (n : Nat) (f : NetPort → NetPort) : (s.modNet n f).flt = s.flt := rfl
@[simp] theorem State.modNet_saf (s : State) (n : Nat) (f : NetPort → NetPort) : (s.modNet n f).saf = s.saf := rfl
@[simp] theorem State.modNet_drams (s : State) (n : Nat) (f : NetPort → NetPort) : (s.modNet n f).drams = s.drams := rfl
@[simp] theorem State.modNet_pci (s : State) (n : Nat) (f : NetPort → NetPort) : (s.modNet n f).pci = s.pci := rfl
@[simp] theorem State.modNet_lnk (s : State) (n : Nat) (f : NetPort → NetPort) : (s.modNet n f).lnk = s.lnk := rfl
@[simp] theorem State.modNet_sec (s : State) (n : Nat) (f : NetPort → NetPort) : (s.modNet n f).sec = s.sec := rfl
@[simp] theorem State.modNet_dbg (s : State) (n : Nat) (f : NetPort → NetPort) : (s.modNet n f).dbg = s.dbg := rfl
@[simp] theorem State.modNet_tills (s : State) (n : Nat) (f : NetPort → NetPort) : (s.modNet n f).tills = s.tills := rfl
@[simp] theorem State.modNet_devTills (s : State) (n : Nat) (f : NetPort → NetPort) : (s.modNet n f).devTills = s.devTills := rfl
@[simp] theorem State.modNet_bridges (s : State) (n : Nat) (f : NetPort → NetPort) : (s.modNet n f).bridges = s.bridges := rfl
@[simp] theorem State.modNet_arbs (s : State) (n : Nat) (f : NetPort → NetPort) : (s.modNet n f).arbs = s.arbs := rfl
@[simp] theorem State.modNet_passbook (s : State) (n : Nat) (f : NetPort → NetPort) : (s.modNet n f).passbook = s.passbook := rfl
@[simp] theorem State.modNet_mem (s : State) (n : Nat) (f : NetPort → NetPort) : (s.modNet n f).mem = s.mem := rfl
@[simp] theorem State.modNet_voids (s : State) (n : Nat) (f : NetPort → NetPort) : (s.modNet n f).voids = s.voids := rfl
@[simp] theorem State.modNet_smbOffset (s : State) (n : Nat) (f : NetPort → NetPort) : (s.modNet n f).smbOffset = s.smbOffset := rfl
@[simp] theorem State.modNet_latched (s : State) (n : Nat) (f : NetPort → NetPort) : (s.modNet n f).latched = s.latched := rfl
@[simp] theorem State.modNet_readback (s : State) (n : Nat) (f : NetPort → NetPort) : (s.modNet n f).readback = s.readback := rfl
@[simp] theorem State.modNet_poisoned (s : State) (n : Nat) (f : NetPort → NetPort) : (s.modNet n f).poisoned = s.poisoned := rfl
@[simp] theorem State.modNet_nak (s : State) (n : Nat) (f : NetPort → NetPort) : (s.modNet n f).nak = s.nak := rfl
@[simp] theorem State.modNet_free (s : State) (n : Nat) (f : NetPort → NetPort) : (s.modNet n f).free = s.free := rfl
@[simp] theorem State.modNet_pending (s : State) (n : Nat) (f : NetPort → NetPort) : (s.modNet n f).pending = s.pending := rfl
/-- What is read after the update. -/
@[simp] theorem State.modNet_get (s : State) (n : Nat) (f : NetPort → NetPort) (j : Nat) : (s.modNet n f).netPort j = if j = n then f (s.netPort n) else s.netPort j :=
  Table.get_set _ j n _ _

/-! ### `State.modBridge` -/

@[simp] theorem State.modBridge_phase (s : State) (n : Nat) (f : Bridge → Bridge) : (s.modBridge n f).phase = s.phase := rfl
@[simp] theorem State.modBridge_boot (s : State) (n : Nat) (f : Bridge → Bridge) : (s.modBridge n f).boot = s.boot := rfl
@[simp] theorem State.modBridge_pins (s : State) (n : Nat) (f : Bridge → Bridge) : (s.modBridge n f).pins = s.pins := rfl
@[simp] theorem State.modBridge_power (s : State) (n : Nat) (f : Bridge → Bridge) : (s.modBridge n f).power = s.power := rfl
@[simp] theorem State.modBridge_fuses (s : State) (n : Nat) (f : Bridge → Bridge) : (s.modBridge n f).fuses = s.fuses := rfl
@[simp] theorem State.modBridge_flash (s : State) (n : Nat) (f : Bridge → Bridge) : (s.modBridge n f).flash = s.flash := rfl
@[simp] theorem State.modBridge_layout (s : State) (n : Nat) (f : Bridge → Bridge) : (s.modBridge n f).layout = s.layout := rfl
@[simp] theorem State.modBridge_cfg (s : State) (n : Nat) (f : Bridge → Bridge) : (s.modBridge n f).cfg = s.cfg := rfl
@[simp] theorem State.modBridge_cfgOld (s : State) (n : Nat) (f : Bridge → Bridge) : (s.modBridge n f).cfgOld = s.cfgOld := rfl
@[simp] theorem State.modBridge_stl (s : State) (n : Nat) (f : Bridge → Bridge) : (s.modBridge n f).stl = s.stl := rfl
@[simp] theorem State.modBridge_time (s : State) (n : Nat) (f : Bridge → Bridge) : (s.modBridge n f).time = s.time := rfl
@[simp] theorem State.modBridge_journal (s : State) (n : Nat) (f : Bridge → Bridge) : (s.modBridge n f).journal = s.journal := rfl
@[simp] theorem State.modBridge_streams (s : State) (n : Nat) (f : Bridge → Bridge) : (s.modBridge n f).streams = s.streams := rfl
@[simp] theorem State.modBridge_decs (s : State) (n : Nat) (f : Bridge → Bridge) : (s.modBridge n f).decs = s.decs := rfl
@[simp] theorem State.modBridge_accts (s : State) (n : Nat) (f : Bridge → Bridge) : (s.modBridge n f).accts = s.accts := rfl
@[simp] theorem State.modBridge_rolling (s : State) (n : Nat) (f : Bridge → Bridge) : (s.modBridge n f).rolling = s.rolling := rfl
@[simp] theorem State.modBridge_preConvSat (s : State) (n : Nat) (f : Bridge → Bridge) : (s.modBridge n f).preConvSat = s.preConvSat := rfl
@[simp] theorem State.modBridge_ingUnmatched (s : State) (n : Nat) (f : Bridge → Bridge) : (s.modBridge n f).ingUnmatched = s.ingUnmatched := rfl
@[simp] theorem State.modBridge_engines (s : State) (n : Nat) (f : Bridge → Bridge) : (s.modBridge n f).engines = s.engines := rfl
@[simp] theorem State.modBridge_halo (s : State) (n : Nat) (f : Bridge → Bridge) : (s.modBridge n f).halo = s.halo := rfl
@[simp] theorem State.modBridge_haloBack (s : State) (n : Nat) (f : Bridge → Bridge) : (s.modBridge n f).haloBack = s.haloBack := rfl
@[simp] theorem State.modBridge_regions (s : State) (n : Nat) (f : Bridge → Bridge) : (s.modBridge n f).regions = s.regions := rfl
@[simp] theorem State.modBridge_switch (s : State) (n : Nat) (f : Bridge → Bridge) : (s.modBridge n f).switch = s.switch := rfl
@[simp] theorem State.modBridge_clrs (s : State) (n : Nat) (f : Bridge → Bridge) : (s.modBridge n f).clrs = s.clrs := rfl
@[simp] theorem State.modBridge_ledger (s : State) (n : Nat) (f : Bridge → Bridge) : (s.modBridge n f).ledger = s.ledger := rfl
@[simp] theorem State.modBridge_encs (s : State) (n : Nat) (f : Bridge → Bridge) : (s.modBridge n f).encs = s.encs := rfl
@[simp] theorem State.modBridge_evidence (s : State) (n : Nat) (f : Bridge → Bridge) : (s.modBridge n f).evidence = s.evidence := rfl
@[simp] theorem State.modBridge_adapt (s : State) (n : Nat) (f : Bridge → Bridge) : (s.modBridge n f).adapt = s.adapt := rfl
@[simp] theorem State.modBridge_flt (s : State) (n : Nat) (f : Bridge → Bridge) : (s.modBridge n f).flt = s.flt := rfl
@[simp] theorem State.modBridge_saf (s : State) (n : Nat) (f : Bridge → Bridge) : (s.modBridge n f).saf = s.saf := rfl
@[simp] theorem State.modBridge_drams (s : State) (n : Nat) (f : Bridge → Bridge) : (s.modBridge n f).drams = s.drams := rfl
@[simp] theorem State.modBridge_pci (s : State) (n : Nat) (f : Bridge → Bridge) : (s.modBridge n f).pci = s.pci := rfl
@[simp] theorem State.modBridge_nets (s : State) (n : Nat) (f : Bridge → Bridge) : (s.modBridge n f).nets = s.nets := rfl
@[simp] theorem State.modBridge_lnk (s : State) (n : Nat) (f : Bridge → Bridge) : (s.modBridge n f).lnk = s.lnk := rfl
@[simp] theorem State.modBridge_sec (s : State) (n : Nat) (f : Bridge → Bridge) : (s.modBridge n f).sec = s.sec := rfl
@[simp] theorem State.modBridge_dbg (s : State) (n : Nat) (f : Bridge → Bridge) : (s.modBridge n f).dbg = s.dbg := rfl
@[simp] theorem State.modBridge_tills (s : State) (n : Nat) (f : Bridge → Bridge) : (s.modBridge n f).tills = s.tills := rfl
@[simp] theorem State.modBridge_devTills (s : State) (n : Nat) (f : Bridge → Bridge) : (s.modBridge n f).devTills = s.devTills := rfl
@[simp] theorem State.modBridge_arbs (s : State) (n : Nat) (f : Bridge → Bridge) : (s.modBridge n f).arbs = s.arbs := rfl
@[simp] theorem State.modBridge_passbook (s : State) (n : Nat) (f : Bridge → Bridge) : (s.modBridge n f).passbook = s.passbook := rfl
@[simp] theorem State.modBridge_mem (s : State) (n : Nat) (f : Bridge → Bridge) : (s.modBridge n f).mem = s.mem := rfl
@[simp] theorem State.modBridge_voids (s : State) (n : Nat) (f : Bridge → Bridge) : (s.modBridge n f).voids = s.voids := rfl
@[simp] theorem State.modBridge_smbOffset (s : State) (n : Nat) (f : Bridge → Bridge) : (s.modBridge n f).smbOffset = s.smbOffset := rfl
@[simp] theorem State.modBridge_latched (s : State) (n : Nat) (f : Bridge → Bridge) : (s.modBridge n f).latched = s.latched := rfl
@[simp] theorem State.modBridge_readback (s : State) (n : Nat) (f : Bridge → Bridge) : (s.modBridge n f).readback = s.readback := rfl
@[simp] theorem State.modBridge_poisoned (s : State) (n : Nat) (f : Bridge → Bridge) : (s.modBridge n f).poisoned = s.poisoned := rfl
@[simp] theorem State.modBridge_nak (s : State) (n : Nat) (f : Bridge → Bridge) : (s.modBridge n f).nak = s.nak := rfl
@[simp] theorem State.modBridge_free (s : State) (n : Nat) (f : Bridge → Bridge) : (s.modBridge n f).free = s.free := rfl
@[simp] theorem State.modBridge_pending (s : State) (n : Nat) (f : Bridge → Bridge) : (s.modBridge n f).pending = s.pending := rfl
/-- What is read after the update. -/
@[simp] theorem State.modBridge_get (s : State) (n : Nat) (f : Bridge → Bridge) (j : Nat) : (s.modBridge n f).bridge j = if j = n then f (s.bridge n) else s.bridge j :=
  Table.get_set _ j n _ _

/-! ### `State.setRolling` -/

@[simp] theorem State.setRolling_phase (s : State) (g a : Nat) (x : Rolling) : (s.setRolling g a x).phase = s.phase := rfl
@[simp] theorem State.setRolling_boot (s : State) (g a : Nat) (x : Rolling) : (s.setRolling g a x).boot = s.boot := rfl
@[simp] theorem State.setRolling_pins (s : State) (g a : Nat) (x : Rolling) : (s.setRolling g a x).pins = s.pins := rfl
@[simp] theorem State.setRolling_power (s : State) (g a : Nat) (x : Rolling) : (s.setRolling g a x).power = s.power := rfl
@[simp] theorem State.setRolling_fuses (s : State) (g a : Nat) (x : Rolling) : (s.setRolling g a x).fuses = s.fuses := rfl
@[simp] theorem State.setRolling_flash (s : State) (g a : Nat) (x : Rolling) : (s.setRolling g a x).flash = s.flash := rfl
@[simp] theorem State.setRolling_layout (s : State) (g a : Nat) (x : Rolling) : (s.setRolling g a x).layout = s.layout := rfl
@[simp] theorem State.setRolling_cfg (s : State) (g a : Nat) (x : Rolling) : (s.setRolling g a x).cfg = s.cfg := rfl
@[simp] theorem State.setRolling_cfgOld (s : State) (g a : Nat) (x : Rolling) : (s.setRolling g a x).cfgOld = s.cfgOld := rfl
@[simp] theorem State.setRolling_stl (s : State) (g a : Nat) (x : Rolling) : (s.setRolling g a x).stl = s.stl := rfl
@[simp] theorem State.setRolling_time (s : State) (g a : Nat) (x : Rolling) : (s.setRolling g a x).time = s.time := rfl
@[simp] theorem State.setRolling_journal (s : State) (g a : Nat) (x : Rolling) : (s.setRolling g a x).journal = s.journal := rfl
@[simp] theorem State.setRolling_streams (s : State) (g a : Nat) (x : Rolling) : (s.setRolling g a x).streams = s.streams := rfl
@[simp] theorem State.setRolling_decs (s : State) (g a : Nat) (x : Rolling) : (s.setRolling g a x).decs = s.decs := rfl
@[simp] theorem State.setRolling_accts (s : State) (g a : Nat) (x : Rolling) : (s.setRolling g a x).accts = s.accts := rfl
@[simp] theorem State.setRolling_preConvSat (s : State) (g a : Nat) (x : Rolling) : (s.setRolling g a x).preConvSat = s.preConvSat := rfl
@[simp] theorem State.setRolling_ingUnmatched (s : State) (g a : Nat) (x : Rolling) : (s.setRolling g a x).ingUnmatched = s.ingUnmatched := rfl
@[simp] theorem State.setRolling_engines (s : State) (g a : Nat) (x : Rolling) : (s.setRolling g a x).engines = s.engines := rfl
@[simp] theorem State.setRolling_halo (s : State) (g a : Nat) (x : Rolling) : (s.setRolling g a x).halo = s.halo := rfl
@[simp] theorem State.setRolling_haloBack (s : State) (g a : Nat) (x : Rolling) : (s.setRolling g a x).haloBack = s.haloBack := rfl
@[simp] theorem State.setRolling_regions (s : State) (g a : Nat) (x : Rolling) : (s.setRolling g a x).regions = s.regions := rfl
@[simp] theorem State.setRolling_switch (s : State) (g a : Nat) (x : Rolling) : (s.setRolling g a x).switch = s.switch := rfl
@[simp] theorem State.setRolling_clrs (s : State) (g a : Nat) (x : Rolling) : (s.setRolling g a x).clrs = s.clrs := rfl
@[simp] theorem State.setRolling_ledger (s : State) (g a : Nat) (x : Rolling) : (s.setRolling g a x).ledger = s.ledger := rfl
@[simp] theorem State.setRolling_encs (s : State) (g a : Nat) (x : Rolling) : (s.setRolling g a x).encs = s.encs := rfl
@[simp] theorem State.setRolling_evidence (s : State) (g a : Nat) (x : Rolling) : (s.setRolling g a x).evidence = s.evidence := rfl
@[simp] theorem State.setRolling_adapt (s : State) (g a : Nat) (x : Rolling) : (s.setRolling g a x).adapt = s.adapt := rfl
@[simp] theorem State.setRolling_flt (s : State) (g a : Nat) (x : Rolling) : (s.setRolling g a x).flt = s.flt := rfl
@[simp] theorem State.setRolling_saf (s : State) (g a : Nat) (x : Rolling) : (s.setRolling g a x).saf = s.saf := rfl
@[simp] theorem State.setRolling_drams (s : State) (g a : Nat) (x : Rolling) : (s.setRolling g a x).drams = s.drams := rfl
@[simp] theorem State.setRolling_pci (s : State) (g a : Nat) (x : Rolling) : (s.setRolling g a x).pci = s.pci := rfl
@[simp] theorem State.setRolling_nets (s : State) (g a : Nat) (x : Rolling) : (s.setRolling g a x).nets = s.nets := rfl
@[simp] theorem State.setRolling_lnk (s : State) (g a : Nat) (x : Rolling) : (s.setRolling g a x).lnk = s.lnk := rfl
@[simp] theorem State.setRolling_sec (s : State) (g a : Nat) (x : Rolling) : (s.setRolling g a x).sec = s.sec := rfl
@[simp] theorem State.setRolling_dbg (s : State) (g a : Nat) (x : Rolling) : (s.setRolling g a x).dbg = s.dbg := rfl
@[simp] theorem State.setRolling_tills (s : State) (g a : Nat) (x : Rolling) : (s.setRolling g a x).tills = s.tills := rfl
@[simp] theorem State.setRolling_devTills (s : State) (g a : Nat) (x : Rolling) : (s.setRolling g a x).devTills = s.devTills := rfl
@[simp] theorem State.setRolling_bridges (s : State) (g a : Nat) (x : Rolling) : (s.setRolling g a x).bridges = s.bridges := rfl
@[simp] theorem State.setRolling_arbs (s : State) (g a : Nat) (x : Rolling) : (s.setRolling g a x).arbs = s.arbs := rfl
@[simp] theorem State.setRolling_passbook (s : State) (g a : Nat) (x : Rolling) : (s.setRolling g a x).passbook = s.passbook := rfl
@[simp] theorem State.setRolling_mem (s : State) (g a : Nat) (x : Rolling) : (s.setRolling g a x).mem = s.mem := rfl
@[simp] theorem State.setRolling_voids (s : State) (g a : Nat) (x : Rolling) : (s.setRolling g a x).voids = s.voids := rfl
@[simp] theorem State.setRolling_smbOffset (s : State) (g a : Nat) (x : Rolling) : (s.setRolling g a x).smbOffset = s.smbOffset := rfl
@[simp] theorem State.setRolling_latched (s : State) (g a : Nat) (x : Rolling) : (s.setRolling g a x).latched = s.latched := rfl
@[simp] theorem State.setRolling_readback (s : State) (g a : Nat) (x : Rolling) : (s.setRolling g a x).readback = s.readback := rfl
@[simp] theorem State.setRolling_poisoned (s : State) (g a : Nat) (x : Rolling) : (s.setRolling g a x).poisoned = s.poisoned := rfl
@[simp] theorem State.setRolling_nak (s : State) (g a : Nat) (x : Rolling) : (s.setRolling g a x).nak = s.nak := rfl
@[simp] theorem State.setRolling_free (s : State) (g a : Nat) (x : Rolling) : (s.setRolling g a x).free = s.free := rfl
@[simp] theorem State.setRolling_pending (s : State) (g a : Nat) (x : Rolling) : (s.setRolling g a x).pending = s.pending := rfl

/-! ### `State.countReject` -/

@[simp] theorem State.countReject_phase (s : State) (src op : Nat) : (s.countReject src op).phase = s.phase := rfl
@[simp] theorem State.countReject_boot (s : State) (src op : Nat) : (s.countReject src op).boot = s.boot := rfl
@[simp] theorem State.countReject_pins (s : State) (src op : Nat) : (s.countReject src op).pins = s.pins := rfl
@[simp] theorem State.countReject_power (s : State) (src op : Nat) : (s.countReject src op).power = s.power := rfl
@[simp] theorem State.countReject_fuses (s : State) (src op : Nat) : (s.countReject src op).fuses = s.fuses := rfl
@[simp] theorem State.countReject_flash (s : State) (src op : Nat) : (s.countReject src op).flash = s.flash := rfl
@[simp] theorem State.countReject_layout (s : State) (src op : Nat) : (s.countReject src op).layout = s.layout := rfl
@[simp] theorem State.countReject_cfg (s : State) (src op : Nat) : (s.countReject src op).cfg = s.cfg := rfl
@[simp] theorem State.countReject_cfgOld (s : State) (src op : Nat) : (s.countReject src op).cfgOld = s.cfgOld := rfl
@[simp] theorem State.countReject_time (s : State) (src op : Nat) : (s.countReject src op).time = s.time := rfl
@[simp] theorem State.countReject_journal (s : State) (src op : Nat) : (s.countReject src op).journal = s.journal := rfl
@[simp] theorem State.countReject_streams (s : State) (src op : Nat) : (s.countReject src op).streams = s.streams := rfl
@[simp] theorem State.countReject_decs (s : State) (src op : Nat) : (s.countReject src op).decs = s.decs := rfl
@[simp] theorem State.countReject_accts (s : State) (src op : Nat) : (s.countReject src op).accts = s.accts := rfl
@[simp] theorem State.countReject_rolling (s : State) (src op : Nat) : (s.countReject src op).rolling = s.rolling := rfl
@[simp] theorem State.countReject_preConvSat (s : State) (src op : Nat) : (s.countReject src op).preConvSat = s.preConvSat := rfl
@[simp] theorem State.countReject_ingUnmatched (s : State) (src op : Nat) : (s.countReject src op).ingUnmatched = s.ingUnmatched := rfl
@[simp] theorem State.countReject_engines (s : State) (src op : Nat) : (s.countReject src op).engines = s.engines := rfl
@[simp] theorem State.countReject_halo (s : State) (src op : Nat) : (s.countReject src op).halo = s.halo := rfl
@[simp] theorem State.countReject_haloBack (s : State) (src op : Nat) : (s.countReject src op).haloBack = s.haloBack := rfl
@[simp] theorem State.countReject_regions (s : State) (src op : Nat) : (s.countReject src op).regions = s.regions := rfl
@[simp] theorem State.countReject_switch (s : State) (src op : Nat) : (s.countReject src op).switch = s.switch := rfl
@[simp] theorem State.countReject_clrs (s : State) (src op : Nat) : (s.countReject src op).clrs = s.clrs := rfl
@[simp] theorem State.countReject_ledger (s : State) (src op : Nat) : (s.countReject src op).ledger = s.ledger := rfl
@[simp] theorem State.countReject_encs (s : State) (src op : Nat) : (s.countReject src op).encs = s.encs := rfl
@[simp] theorem State.countReject_evidence (s : State) (src op : Nat) : (s.countReject src op).evidence = s.evidence := rfl
@[simp] theorem State.countReject_adapt (s : State) (src op : Nat) : (s.countReject src op).adapt = s.adapt := rfl
@[simp] theorem State.countReject_flt (s : State) (src op : Nat) : (s.countReject src op).flt = s.flt := rfl
@[simp] theorem State.countReject_saf (s : State) (src op : Nat) : (s.countReject src op).saf = s.saf := rfl
@[simp] theorem State.countReject_drams (s : State) (src op : Nat) : (s.countReject src op).drams = s.drams := rfl
@[simp] theorem State.countReject_pci (s : State) (src op : Nat) : (s.countReject src op).pci = s.pci := rfl
@[simp] theorem State.countReject_nets (s : State) (src op : Nat) : (s.countReject src op).nets = s.nets := rfl
@[simp] theorem State.countReject_lnk (s : State) (src op : Nat) : (s.countReject src op).lnk = s.lnk := rfl
@[simp] theorem State.countReject_sec (s : State) (src op : Nat) : (s.countReject src op).sec = s.sec := rfl
@[simp] theorem State.countReject_dbg (s : State) (src op : Nat) : (s.countReject src op).dbg = s.dbg := rfl
@[simp] theorem State.countReject_tills (s : State) (src op : Nat) : (s.countReject src op).tills = s.tills := rfl
@[simp] theorem State.countReject_devTills (s : State) (src op : Nat) : (s.countReject src op).devTills = s.devTills := rfl
@[simp] theorem State.countReject_bridges (s : State) (src op : Nat) : (s.countReject src op).bridges = s.bridges := rfl
@[simp] theorem State.countReject_arbs (s : State) (src op : Nat) : (s.countReject src op).arbs = s.arbs := rfl
@[simp] theorem State.countReject_passbook (s : State) (src op : Nat) : (s.countReject src op).passbook = s.passbook := rfl
@[simp] theorem State.countReject_mem (s : State) (src op : Nat) : (s.countReject src op).mem = s.mem := rfl
@[simp] theorem State.countReject_voids (s : State) (src op : Nat) : (s.countReject src op).voids = s.voids := rfl
@[simp] theorem State.countReject_smbOffset (s : State) (src op : Nat) : (s.countReject src op).smbOffset = s.smbOffset := rfl
@[simp] theorem State.countReject_latched (s : State) (src op : Nat) : (s.countReject src op).latched = s.latched := rfl
@[simp] theorem State.countReject_readback (s : State) (src op : Nat) : (s.countReject src op).readback = s.readback := rfl
@[simp] theorem State.countReject_poisoned (s : State) (src op : Nat) : (s.countReject src op).poisoned = s.poisoned := rfl
@[simp] theorem State.countReject_nak (s : State) (src op : Nat) : (s.countReject src op).nak = s.nak := rfl
@[simp] theorem State.countReject_free (s : State) (src op : Nat) : (s.countReject src op).free = s.free := rfl
@[simp] theorem State.countReject_pending (s : State) (src op : Nat) : (s.countReject src op).pending = s.pending := rfl

/-! ### `State.countIgnored` -/

@[simp] theorem State.countIgnored_phase (s : State)  : (s.countIgnored ).phase = s.phase := rfl
@[simp] theorem State.countIgnored_boot (s : State)  : (s.countIgnored ).boot = s.boot := rfl
@[simp] theorem State.countIgnored_pins (s : State)  : (s.countIgnored ).pins = s.pins := rfl
@[simp] theorem State.countIgnored_power (s : State)  : (s.countIgnored ).power = s.power := rfl
@[simp] theorem State.countIgnored_fuses (s : State)  : (s.countIgnored ).fuses = s.fuses := rfl
@[simp] theorem State.countIgnored_flash (s : State)  : (s.countIgnored ).flash = s.flash := rfl
@[simp] theorem State.countIgnored_layout (s : State)  : (s.countIgnored ).layout = s.layout := rfl
@[simp] theorem State.countIgnored_cfg (s : State)  : (s.countIgnored ).cfg = s.cfg := rfl
@[simp] theorem State.countIgnored_cfgOld (s : State)  : (s.countIgnored ).cfgOld = s.cfgOld := rfl
@[simp] theorem State.countIgnored_time (s : State)  : (s.countIgnored ).time = s.time := rfl
@[simp] theorem State.countIgnored_journal (s : State)  : (s.countIgnored ).journal = s.journal := rfl
@[simp] theorem State.countIgnored_streams (s : State)  : (s.countIgnored ).streams = s.streams := rfl
@[simp] theorem State.countIgnored_decs (s : State)  : (s.countIgnored ).decs = s.decs := rfl
@[simp] theorem State.countIgnored_accts (s : State)  : (s.countIgnored ).accts = s.accts := rfl
@[simp] theorem State.countIgnored_rolling (s : State)  : (s.countIgnored ).rolling = s.rolling := rfl
@[simp] theorem State.countIgnored_preConvSat (s : State)  : (s.countIgnored ).preConvSat = s.preConvSat := rfl
@[simp] theorem State.countIgnored_ingUnmatched (s : State)  : (s.countIgnored ).ingUnmatched = s.ingUnmatched := rfl
@[simp] theorem State.countIgnored_engines (s : State)  : (s.countIgnored ).engines = s.engines := rfl
@[simp] theorem State.countIgnored_halo (s : State)  : (s.countIgnored ).halo = s.halo := rfl
@[simp] theorem State.countIgnored_haloBack (s : State)  : (s.countIgnored ).haloBack = s.haloBack := rfl
@[simp] theorem State.countIgnored_regions (s : State)  : (s.countIgnored ).regions = s.regions := rfl
@[simp] theorem State.countIgnored_switch (s : State)  : (s.countIgnored ).switch = s.switch := rfl
@[simp] theorem State.countIgnored_clrs (s : State)  : (s.countIgnored ).clrs = s.clrs := rfl
@[simp] theorem State.countIgnored_ledger (s : State)  : (s.countIgnored ).ledger = s.ledger := rfl
@[simp] theorem State.countIgnored_encs (s : State)  : (s.countIgnored ).encs = s.encs := rfl
@[simp] theorem State.countIgnored_evidence (s : State)  : (s.countIgnored ).evidence = s.evidence := rfl
@[simp] theorem State.countIgnored_adapt (s : State)  : (s.countIgnored ).adapt = s.adapt := rfl
@[simp] theorem State.countIgnored_flt (s : State)  : (s.countIgnored ).flt = s.flt := rfl
@[simp] theorem State.countIgnored_saf (s : State)  : (s.countIgnored ).saf = s.saf := rfl
@[simp] theorem State.countIgnored_drams (s : State)  : (s.countIgnored ).drams = s.drams := rfl
@[simp] theorem State.countIgnored_pci (s : State)  : (s.countIgnored ).pci = s.pci := rfl
@[simp] theorem State.countIgnored_nets (s : State)  : (s.countIgnored ).nets = s.nets := rfl
@[simp] theorem State.countIgnored_lnk (s : State)  : (s.countIgnored ).lnk = s.lnk := rfl
@[simp] theorem State.countIgnored_sec (s : State)  : (s.countIgnored ).sec = s.sec := rfl
@[simp] theorem State.countIgnored_dbg (s : State)  : (s.countIgnored ).dbg = s.dbg := rfl
@[simp] theorem State.countIgnored_tills (s : State)  : (s.countIgnored ).tills = s.tills := rfl
@[simp] theorem State.countIgnored_devTills (s : State)  : (s.countIgnored ).devTills = s.devTills := rfl
@[simp] theorem State.countIgnored_bridges (s : State)  : (s.countIgnored ).bridges = s.bridges := rfl
@[simp] theorem State.countIgnored_arbs (s : State)  : (s.countIgnored ).arbs = s.arbs := rfl
@[simp] theorem State.countIgnored_passbook (s : State)  : (s.countIgnored ).passbook = s.passbook := rfl
@[simp] theorem State.countIgnored_mem (s : State)  : (s.countIgnored ).mem = s.mem := rfl
@[simp] theorem State.countIgnored_voids (s : State)  : (s.countIgnored ).voids = s.voids := rfl
@[simp] theorem State.countIgnored_smbOffset (s : State)  : (s.countIgnored ).smbOffset = s.smbOffset := rfl
@[simp] theorem State.countIgnored_latched (s : State)  : (s.countIgnored ).latched = s.latched := rfl
@[simp] theorem State.countIgnored_readback (s : State)  : (s.countIgnored ).readback = s.readback := rfl
@[simp] theorem State.countIgnored_poisoned (s : State)  : (s.countIgnored ).poisoned = s.poisoned := rfl
@[simp] theorem State.countIgnored_nak (s : State)  : (s.countIgnored ).nak = s.nak := rfl
@[simp] theorem State.countIgnored_free (s : State)  : (s.countIgnored ).free = s.free := rfl
@[simp] theorem State.countIgnored_pending (s : State)  : (s.countIgnored ).pending = s.pending := rfl

/-! ### `State.nextFree` -/

@[simp] theorem State.nextFree_phase (s : State)  : (s.nextFree ).phase = s.phase := rfl
@[simp] theorem State.nextFree_boot (s : State)  : (s.nextFree ).boot = s.boot := rfl
@[simp] theorem State.nextFree_pins (s : State)  : (s.nextFree ).pins = s.pins := rfl
@[simp] theorem State.nextFree_power (s : State)  : (s.nextFree ).power = s.power := rfl
@[simp] theorem State.nextFree_fuses (s : State)  : (s.nextFree ).fuses = s.fuses := rfl
@[simp] theorem State.nextFree_flash (s : State)  : (s.nextFree ).flash = s.flash := rfl
@[simp] theorem State.nextFree_layout (s : State)  : (s.nextFree ).layout = s.layout := rfl
@[simp] theorem State.nextFree_cfg (s : State)  : (s.nextFree ).cfg = s.cfg := rfl
@[simp] theorem State.nextFree_cfgOld (s : State)  : (s.nextFree ).cfgOld = s.cfgOld := rfl
@[simp] theorem State.nextFree_stl (s : State)  : (s.nextFree ).stl = s.stl := rfl
@[simp] theorem State.nextFree_time (s : State)  : (s.nextFree ).time = s.time := rfl
@[simp] theorem State.nextFree_journal (s : State)  : (s.nextFree ).journal = s.journal := rfl
@[simp] theorem State.nextFree_streams (s : State)  : (s.nextFree ).streams = s.streams := rfl
@[simp] theorem State.nextFree_decs (s : State)  : (s.nextFree ).decs = s.decs := rfl
@[simp] theorem State.nextFree_accts (s : State)  : (s.nextFree ).accts = s.accts := rfl
@[simp] theorem State.nextFree_rolling (s : State)  : (s.nextFree ).rolling = s.rolling := rfl
@[simp] theorem State.nextFree_preConvSat (s : State)  : (s.nextFree ).preConvSat = s.preConvSat := rfl
@[simp] theorem State.nextFree_ingUnmatched (s : State)  : (s.nextFree ).ingUnmatched = s.ingUnmatched := rfl
@[simp] theorem State.nextFree_engines (s : State)  : (s.nextFree ).engines = s.engines := rfl
@[simp] theorem State.nextFree_halo (s : State)  : (s.nextFree ).halo = s.halo := rfl
@[simp] theorem State.nextFree_haloBack (s : State)  : (s.nextFree ).haloBack = s.haloBack := rfl
@[simp] theorem State.nextFree_regions (s : State)  : (s.nextFree ).regions = s.regions := rfl
@[simp] theorem State.nextFree_switch (s : State)  : (s.nextFree ).switch = s.switch := rfl
@[simp] theorem State.nextFree_clrs (s : State)  : (s.nextFree ).clrs = s.clrs := rfl
@[simp] theorem State.nextFree_ledger (s : State)  : (s.nextFree ).ledger = s.ledger := rfl
@[simp] theorem State.nextFree_encs (s : State)  : (s.nextFree ).encs = s.encs := rfl
@[simp] theorem State.nextFree_evidence (s : State)  : (s.nextFree ).evidence = s.evidence := rfl
@[simp] theorem State.nextFree_adapt (s : State)  : (s.nextFree ).adapt = s.adapt := rfl
@[simp] theorem State.nextFree_flt (s : State)  : (s.nextFree ).flt = s.flt := rfl
@[simp] theorem State.nextFree_saf (s : State)  : (s.nextFree ).saf = s.saf := rfl
@[simp] theorem State.nextFree_drams (s : State)  : (s.nextFree ).drams = s.drams := rfl
@[simp] theorem State.nextFree_pci (s : State)  : (s.nextFree ).pci = s.pci := rfl
@[simp] theorem State.nextFree_nets (s : State)  : (s.nextFree ).nets = s.nets := rfl
@[simp] theorem State.nextFree_lnk (s : State)  : (s.nextFree ).lnk = s.lnk := rfl
@[simp] theorem State.nextFree_sec (s : State)  : (s.nextFree ).sec = s.sec := rfl
@[simp] theorem State.nextFree_dbg (s : State)  : (s.nextFree ).dbg = s.dbg := rfl
@[simp] theorem State.nextFree_tills (s : State)  : (s.nextFree ).tills = s.tills := rfl
@[simp] theorem State.nextFree_devTills (s : State)  : (s.nextFree ).devTills = s.devTills := rfl
@[simp] theorem State.nextFree_bridges (s : State)  : (s.nextFree ).bridges = s.bridges := rfl
@[simp] theorem State.nextFree_arbs (s : State)  : (s.nextFree ).arbs = s.arbs := rfl
@[simp] theorem State.nextFree_passbook (s : State)  : (s.nextFree ).passbook = s.passbook := rfl
@[simp] theorem State.nextFree_mem (s : State)  : (s.nextFree ).mem = s.mem := rfl
@[simp] theorem State.nextFree_voids (s : State)  : (s.nextFree ).voids = s.voids := rfl
@[simp] theorem State.nextFree_smbOffset (s : State)  : (s.nextFree ).smbOffset = s.smbOffset := rfl
@[simp] theorem State.nextFree_latched (s : State)  : (s.nextFree ).latched = s.latched := rfl
@[simp] theorem State.nextFree_readback (s : State)  : (s.nextFree ).readback = s.readback := rfl
@[simp] theorem State.nextFree_poisoned (s : State)  : (s.nextFree ).poisoned = s.poisoned := rfl
@[simp] theorem State.nextFree_nak (s : State)  : (s.nextFree ).nak = s.nak := rfl
@[simp] theorem State.nextFree_pending (s : State)  : (s.nextFree ).pending = s.pending := rfl

/-! ### `State.emit` -/

@[simp] theorem State.emit_phase (s : State) (r : Rec) : (s.emit r).phase = s.phase := rfl
@[simp] theorem State.emit_boot (s : State) (r : Rec) : (s.emit r).boot = s.boot := rfl
@[simp] theorem State.emit_pins (s : State) (r : Rec) : (s.emit r).pins = s.pins := rfl
@[simp] theorem State.emit_power (s : State) (r : Rec) : (s.emit r).power = s.power := rfl
@[simp] theorem State.emit_fuses (s : State) (r : Rec) : (s.emit r).fuses = s.fuses := rfl
@[simp] theorem State.emit_flash (s : State) (r : Rec) : (s.emit r).flash = s.flash := rfl
@[simp] theorem State.emit_layout (s : State) (r : Rec) : (s.emit r).layout = s.layout := rfl
@[simp] theorem State.emit_cfg (s : State) (r : Rec) : (s.emit r).cfg = s.cfg := rfl
@[simp] theorem State.emit_cfgOld (s : State) (r : Rec) : (s.emit r).cfgOld = s.cfgOld := rfl
@[simp] theorem State.emit_stl (s : State) (r : Rec) : (s.emit r).stl = s.stl := rfl
@[simp] theorem State.emit_time (s : State) (r : Rec) : (s.emit r).time = s.time := rfl
@[simp] theorem State.emit_streams (s : State) (r : Rec) : (s.emit r).streams = s.streams := rfl
@[simp] theorem State.emit_decs (s : State) (r : Rec) : (s.emit r).decs = s.decs := rfl
@[simp] theorem State.emit_accts (s : State) (r : Rec) : (s.emit r).accts = s.accts := rfl
@[simp] theorem State.emit_rolling (s : State) (r : Rec) : (s.emit r).rolling = s.rolling := rfl
@[simp] theorem State.emit_preConvSat (s : State) (r : Rec) : (s.emit r).preConvSat = s.preConvSat := rfl
@[simp] theorem State.emit_ingUnmatched (s : State) (r : Rec) : (s.emit r).ingUnmatched = s.ingUnmatched := rfl
@[simp] theorem State.emit_engines (s : State) (r : Rec) : (s.emit r).engines = s.engines := rfl
@[simp] theorem State.emit_halo (s : State) (r : Rec) : (s.emit r).halo = s.halo := rfl
@[simp] theorem State.emit_haloBack (s : State) (r : Rec) : (s.emit r).haloBack = s.haloBack := rfl
@[simp] theorem State.emit_regions (s : State) (r : Rec) : (s.emit r).regions = s.regions := rfl
@[simp] theorem State.emit_switch (s : State) (r : Rec) : (s.emit r).switch = s.switch := rfl
@[simp] theorem State.emit_clrs (s : State) (r : Rec) : (s.emit r).clrs = s.clrs := rfl
@[simp] theorem State.emit_ledger (s : State) (r : Rec) : (s.emit r).ledger = s.ledger := rfl
@[simp] theorem State.emit_encs (s : State) (r : Rec) : (s.emit r).encs = s.encs := rfl
@[simp] theorem State.emit_evidence (s : State) (r : Rec) : (s.emit r).evidence = s.evidence := rfl
@[simp] theorem State.emit_adapt (s : State) (r : Rec) : (s.emit r).adapt = s.adapt := rfl
@[simp] theorem State.emit_flt (s : State) (r : Rec) : (s.emit r).flt = s.flt := rfl
@[simp] theorem State.emit_saf (s : State) (r : Rec) : (s.emit r).saf = s.saf := rfl
@[simp] theorem State.emit_drams (s : State) (r : Rec) : (s.emit r).drams = s.drams := rfl
@[simp] theorem State.emit_pci (s : State) (r : Rec) : (s.emit r).pci = s.pci := rfl
@[simp] theorem State.emit_nets (s : State) (r : Rec) : (s.emit r).nets = s.nets := rfl
@[simp] theorem State.emit_lnk (s : State) (r : Rec) : (s.emit r).lnk = s.lnk := rfl
@[simp] theorem State.emit_sec (s : State) (r : Rec) : (s.emit r).sec = s.sec := rfl
@[simp] theorem State.emit_dbg (s : State) (r : Rec) : (s.emit r).dbg = s.dbg := rfl
@[simp] theorem State.emit_tills (s : State) (r : Rec) : (s.emit r).tills = s.tills := rfl
@[simp] theorem State.emit_devTills (s : State) (r : Rec) : (s.emit r).devTills = s.devTills := rfl
@[simp] theorem State.emit_bridges (s : State) (r : Rec) : (s.emit r).bridges = s.bridges := rfl
@[simp] theorem State.emit_arbs (s : State) (r : Rec) : (s.emit r).arbs = s.arbs := rfl
@[simp] theorem State.emit_passbook (s : State) (r : Rec) : (s.emit r).passbook = s.passbook := rfl
@[simp] theorem State.emit_mem (s : State) (r : Rec) : (s.emit r).mem = s.mem := rfl
@[simp] theorem State.emit_voids (s : State) (r : Rec) : (s.emit r).voids = s.voids := rfl
@[simp] theorem State.emit_smbOffset (s : State) (r : Rec) : (s.emit r).smbOffset = s.smbOffset := rfl
@[simp] theorem State.emit_latched (s : State) (r : Rec) : (s.emit r).latched = s.latched := rfl
@[simp] theorem State.emit_readback (s : State) (r : Rec) : (s.emit r).readback = s.readback := rfl
@[simp] theorem State.emit_poisoned (s : State) (r : Rec) : (s.emit r).poisoned = s.poisoned := rfl
@[simp] theorem State.emit_nak (s : State) (r : Rec) : (s.emit r).nak = s.nak := rfl
@[simp] theorem State.emit_free (s : State) (r : Rec) : (s.emit r).free = s.free := rfl
@[simp] theorem State.emit_pending (s : State) (r : Rec) : (s.emit r).pending = s.pending := rfl

/-! ### `State.cause` -/

@[simp] theorem State.cause_phase (s : State) (b : Nat) : (s.cause b).phase = s.phase := rfl
@[simp] theorem State.cause_boot (s : State) (b : Nat) : (s.cause b).boot = s.boot := rfl
@[simp] theorem State.cause_pins (s : State) (b : Nat) : (s.cause b).pins = s.pins := rfl
@[simp] theorem State.cause_power (s : State) (b : Nat) : (s.cause b).power = s.power := rfl
@[simp] theorem State.cause_fuses (s : State) (b : Nat) : (s.cause b).fuses = s.fuses := rfl
@[simp] theorem State.cause_flash (s : State) (b : Nat) : (s.cause b).flash = s.flash := rfl
@[simp] theorem State.cause_layout (s : State) (b : Nat) : (s.cause b).layout = s.layout := rfl
@[simp] theorem State.cause_cfg (s : State) (b : Nat) : (s.cause b).cfg = s.cfg := rfl
@[simp] theorem State.cause_cfgOld (s : State) (b : Nat) : (s.cause b).cfgOld = s.cfgOld := rfl
@[simp] theorem State.cause_stl (s : State) (b : Nat) : (s.cause b).stl = s.stl := rfl
@[simp] theorem State.cause_time (s : State) (b : Nat) : (s.cause b).time = s.time := rfl
@[simp] theorem State.cause_journal (s : State) (b : Nat) : (s.cause b).journal = s.journal := rfl
@[simp] theorem State.cause_streams (s : State) (b : Nat) : (s.cause b).streams = s.streams := rfl
@[simp] theorem State.cause_decs (s : State) (b : Nat) : (s.cause b).decs = s.decs := rfl
@[simp] theorem State.cause_accts (s : State) (b : Nat) : (s.cause b).accts = s.accts := rfl
@[simp] theorem State.cause_rolling (s : State) (b : Nat) : (s.cause b).rolling = s.rolling := rfl
@[simp] theorem State.cause_preConvSat (s : State) (b : Nat) : (s.cause b).preConvSat = s.preConvSat := rfl
@[simp] theorem State.cause_ingUnmatched (s : State) (b : Nat) : (s.cause b).ingUnmatched = s.ingUnmatched := rfl
@[simp] theorem State.cause_engines (s : State) (b : Nat) : (s.cause b).engines = s.engines := rfl
@[simp] theorem State.cause_halo (s : State) (b : Nat) : (s.cause b).halo = s.halo := rfl
@[simp] theorem State.cause_haloBack (s : State) (b : Nat) : (s.cause b).haloBack = s.haloBack := rfl
@[simp] theorem State.cause_regions (s : State) (b : Nat) : (s.cause b).regions = s.regions := rfl
@[simp] theorem State.cause_switch (s : State) (b : Nat) : (s.cause b).switch = s.switch := rfl
@[simp] theorem State.cause_clrs (s : State) (b : Nat) : (s.cause b).clrs = s.clrs := rfl
@[simp] theorem State.cause_ledger (s : State) (b : Nat) : (s.cause b).ledger = s.ledger := rfl
@[simp] theorem State.cause_encs (s : State) (b : Nat) : (s.cause b).encs = s.encs := rfl
@[simp] theorem State.cause_evidence (s : State) (b : Nat) : (s.cause b).evidence = s.evidence := rfl
@[simp] theorem State.cause_adapt (s : State) (b : Nat) : (s.cause b).adapt = s.adapt := rfl
@[simp] theorem State.cause_flt (s : State) (b : Nat) : (s.cause b).flt = s.flt := rfl
@[simp] theorem State.cause_saf (s : State) (b : Nat) : (s.cause b).saf = s.saf := rfl
@[simp] theorem State.cause_drams (s : State) (b : Nat) : (s.cause b).drams = s.drams := rfl
@[simp] theorem State.cause_nets (s : State) (b : Nat) : (s.cause b).nets = s.nets := rfl
@[simp] theorem State.cause_lnk (s : State) (b : Nat) : (s.cause b).lnk = s.lnk := rfl
@[simp] theorem State.cause_sec (s : State) (b : Nat) : (s.cause b).sec = s.sec := rfl
@[simp] theorem State.cause_dbg (s : State) (b : Nat) : (s.cause b).dbg = s.dbg := rfl
@[simp] theorem State.cause_tills (s : State) (b : Nat) : (s.cause b).tills = s.tills := rfl
@[simp] theorem State.cause_devTills (s : State) (b : Nat) : (s.cause b).devTills = s.devTills := rfl
@[simp] theorem State.cause_bridges (s : State) (b : Nat) : (s.cause b).bridges = s.bridges := rfl
@[simp] theorem State.cause_arbs (s : State) (b : Nat) : (s.cause b).arbs = s.arbs := rfl
@[simp] theorem State.cause_passbook (s : State) (b : Nat) : (s.cause b).passbook = s.passbook := rfl
@[simp] theorem State.cause_mem (s : State) (b : Nat) : (s.cause b).mem = s.mem := rfl
@[simp] theorem State.cause_voids (s : State) (b : Nat) : (s.cause b).voids = s.voids := rfl
@[simp] theorem State.cause_smbOffset (s : State) (b : Nat) : (s.cause b).smbOffset = s.smbOffset := rfl
@[simp] theorem State.cause_latched (s : State) (b : Nat) : (s.cause b).latched = s.latched := rfl
@[simp] theorem State.cause_readback (s : State) (b : Nat) : (s.cause b).readback = s.readback := rfl
@[simp] theorem State.cause_poisoned (s : State) (b : Nat) : (s.cause b).poisoned = s.poisoned := rfl
@[simp] theorem State.cause_nak (s : State) (b : Nat) : (s.cause b).nak = s.nak := rfl
@[simp] theorem State.cause_free (s : State) (b : Nat) : (s.cause b).free = s.free := rfl
@[simp] theorem State.cause_pending (s : State) (b : Nat) : (s.cause b).pending = s.pending := rfl

/-! ### `State.updateInta` -/

@[simp] theorem State.updateInta_phase (s : State)  : (s.updateInta ).phase = s.phase := rfl
@[simp] theorem State.updateInta_boot (s : State)  : (s.updateInta ).boot = s.boot := rfl
@[simp] theorem State.updateInta_power (s : State)  : (s.updateInta ).power = s.power := rfl
@[simp] theorem State.updateInta_fuses (s : State)  : (s.updateInta ).fuses = s.fuses := rfl
@[simp] theorem State.updateInta_flash (s : State)  : (s.updateInta ).flash = s.flash := rfl
@[simp] theorem State.updateInta_layout (s : State)  : (s.updateInta ).layout = s.layout := rfl
@[simp] theorem State.updateInta_cfg (s : State)  : (s.updateInta ).cfg = s.cfg := rfl
@[simp] theorem State.updateInta_cfgOld (s : State)  : (s.updateInta ).cfgOld = s.cfgOld := rfl
@[simp] theorem State.updateInta_stl (s : State)  : (s.updateInta ).stl = s.stl := rfl
@[simp] theorem State.updateInta_time (s : State)  : (s.updateInta ).time = s.time := rfl
@[simp] theorem State.updateInta_journal (s : State)  : (s.updateInta ).journal = s.journal := rfl
@[simp] theorem State.updateInta_streams (s : State)  : (s.updateInta ).streams = s.streams := rfl
@[simp] theorem State.updateInta_decs (s : State)  : (s.updateInta ).decs = s.decs := rfl
@[simp] theorem State.updateInta_accts (s : State)  : (s.updateInta ).accts = s.accts := rfl
@[simp] theorem State.updateInta_rolling (s : State)  : (s.updateInta ).rolling = s.rolling := rfl
@[simp] theorem State.updateInta_preConvSat (s : State)  : (s.updateInta ).preConvSat = s.preConvSat := rfl
@[simp] theorem State.updateInta_ingUnmatched (s : State)  : (s.updateInta ).ingUnmatched = s.ingUnmatched := rfl
@[simp] theorem State.updateInta_engines (s : State)  : (s.updateInta ).engines = s.engines := rfl
@[simp] theorem State.updateInta_halo (s : State)  : (s.updateInta ).halo = s.halo := rfl
@[simp] theorem State.updateInta_haloBack (s : State)  : (s.updateInta ).haloBack = s.haloBack := rfl
@[simp] theorem State.updateInta_regions (s : State)  : (s.updateInta ).regions = s.regions := rfl
@[simp] theorem State.updateInta_switch (s : State)  : (s.updateInta ).switch = s.switch := rfl
@[simp] theorem State.updateInta_clrs (s : State)  : (s.updateInta ).clrs = s.clrs := rfl
@[simp] theorem State.updateInta_ledger (s : State)  : (s.updateInta ).ledger = s.ledger := rfl
@[simp] theorem State.updateInta_encs (s : State)  : (s.updateInta ).encs = s.encs := rfl
@[simp] theorem State.updateInta_evidence (s : State)  : (s.updateInta ).evidence = s.evidence := rfl
@[simp] theorem State.updateInta_adapt (s : State)  : (s.updateInta ).adapt = s.adapt := rfl
@[simp] theorem State.updateInta_flt (s : State)  : (s.updateInta ).flt = s.flt := rfl
@[simp] theorem State.updateInta_saf (s : State)  : (s.updateInta ).saf = s.saf := rfl
@[simp] theorem State.updateInta_drams (s : State)  : (s.updateInta ).drams = s.drams := rfl
@[simp] theorem State.updateInta_pci (s : State)  : (s.updateInta ).pci = s.pci := rfl
@[simp] theorem State.updateInta_nets (s : State)  : (s.updateInta ).nets = s.nets := rfl
@[simp] theorem State.updateInta_lnk (s : State)  : (s.updateInta ).lnk = s.lnk := rfl
@[simp] theorem State.updateInta_sec (s : State)  : (s.updateInta ).sec = s.sec := rfl
@[simp] theorem State.updateInta_dbg (s : State)  : (s.updateInta ).dbg = s.dbg := rfl
@[simp] theorem State.updateInta_tills (s : State)  : (s.updateInta ).tills = s.tills := rfl
@[simp] theorem State.updateInta_devTills (s : State)  : (s.updateInta ).devTills = s.devTills := rfl
@[simp] theorem State.updateInta_bridges (s : State)  : (s.updateInta ).bridges = s.bridges := rfl
@[simp] theorem State.updateInta_arbs (s : State)  : (s.updateInta ).arbs = s.arbs := rfl
@[simp] theorem State.updateInta_passbook (s : State)  : (s.updateInta ).passbook = s.passbook := rfl
@[simp] theorem State.updateInta_mem (s : State)  : (s.updateInta ).mem = s.mem := rfl
@[simp] theorem State.updateInta_voids (s : State)  : (s.updateInta ).voids = s.voids := rfl
@[simp] theorem State.updateInta_smbOffset (s : State)  : (s.updateInta ).smbOffset = s.smbOffset := rfl
@[simp] theorem State.updateInta_latched (s : State)  : (s.updateInta ).latched = s.latched := rfl
@[simp] theorem State.updateInta_readback (s : State)  : (s.updateInta ).readback = s.readback := rfl
@[simp] theorem State.updateInta_poisoned (s : State)  : (s.updateInta ).poisoned = s.poisoned := rfl
@[simp] theorem State.updateInta_nak (s : State)  : (s.updateInta ).nak = s.nak := rfl
@[simp] theorem State.updateInta_free (s : State)  : (s.updateInta ).free = s.free := rfl
@[simp] theorem State.updateInta_pending (s : State)  : (s.updateInta ).pending = s.pending := rfl

/-! ### `State.emitAll` -/

@[simp] theorem State.emitAll_phase (s : State) (rs : List Rec) : (s.emitAll rs).phase = s.phase := by
  induction rs generalizing s with
  | nil => rfl
  | cons r l ih => exact ih (s.emit r)
@[simp] theorem State.emitAll_boot (s : State) (rs : List Rec) : (s.emitAll rs).boot = s.boot := by
  induction rs generalizing s with
  | nil => rfl
  | cons r l ih => exact ih (s.emit r)
@[simp] theorem State.emitAll_pins (s : State) (rs : List Rec) : (s.emitAll rs).pins = s.pins := by
  induction rs generalizing s with
  | nil => rfl
  | cons r l ih => exact ih (s.emit r)
@[simp] theorem State.emitAll_power (s : State) (rs : List Rec) : (s.emitAll rs).power = s.power := by
  induction rs generalizing s with
  | nil => rfl
  | cons r l ih => exact ih (s.emit r)
@[simp] theorem State.emitAll_fuses (s : State) (rs : List Rec) : (s.emitAll rs).fuses = s.fuses := by
  induction rs generalizing s with
  | nil => rfl
  | cons r l ih => exact ih (s.emit r)
@[simp] theorem State.emitAll_flash (s : State) (rs : List Rec) : (s.emitAll rs).flash = s.flash := by
  induction rs generalizing s with
  | nil => rfl
  | cons r l ih => exact ih (s.emit r)
@[simp] theorem State.emitAll_layout (s : State) (rs : List Rec) : (s.emitAll rs).layout = s.layout := by
  induction rs generalizing s with
  | nil => rfl
  | cons r l ih => exact ih (s.emit r)
@[simp] theorem State.emitAll_cfg (s : State) (rs : List Rec) : (s.emitAll rs).cfg = s.cfg := by
  induction rs generalizing s with
  | nil => rfl
  | cons r l ih => exact ih (s.emit r)
@[simp] theorem State.emitAll_cfgOld (s : State) (rs : List Rec) : (s.emitAll rs).cfgOld = s.cfgOld := by
  induction rs generalizing s with
  | nil => rfl
  | cons r l ih => exact ih (s.emit r)
@[simp] theorem State.emitAll_stl (s : State) (rs : List Rec) : (s.emitAll rs).stl = s.stl := by
  induction rs generalizing s with
  | nil => rfl
  | cons r l ih => exact ih (s.emit r)
@[simp] theorem State.emitAll_time (s : State) (rs : List Rec) : (s.emitAll rs).time = s.time := by
  induction rs generalizing s with
  | nil => rfl
  | cons r l ih => exact ih (s.emit r)
@[simp] theorem State.emitAll_streams (s : State) (rs : List Rec) : (s.emitAll rs).streams = s.streams := by
  induction rs generalizing s with
  | nil => rfl
  | cons r l ih => exact ih (s.emit r)
@[simp] theorem State.emitAll_decs (s : State) (rs : List Rec) : (s.emitAll rs).decs = s.decs := by
  induction rs generalizing s with
  | nil => rfl
  | cons r l ih => exact ih (s.emit r)
@[simp] theorem State.emitAll_accts (s : State) (rs : List Rec) : (s.emitAll rs).accts = s.accts := by
  induction rs generalizing s with
  | nil => rfl
  | cons r l ih => exact ih (s.emit r)
@[simp] theorem State.emitAll_rolling (s : State) (rs : List Rec) : (s.emitAll rs).rolling = s.rolling := by
  induction rs generalizing s with
  | nil => rfl
  | cons r l ih => exact ih (s.emit r)
@[simp] theorem State.emitAll_preConvSat (s : State) (rs : List Rec) : (s.emitAll rs).preConvSat = s.preConvSat := by
  induction rs generalizing s with
  | nil => rfl
  | cons r l ih => exact ih (s.emit r)
@[simp] theorem State.emitAll_ingUnmatched (s : State) (rs : List Rec) : (s.emitAll rs).ingUnmatched = s.ingUnmatched := by
  induction rs generalizing s with
  | nil => rfl
  | cons r l ih => exact ih (s.emit r)
@[simp] theorem State.emitAll_engines (s : State) (rs : List Rec) : (s.emitAll rs).engines = s.engines := by
  induction rs generalizing s with
  | nil => rfl
  | cons r l ih => exact ih (s.emit r)
@[simp] theorem State.emitAll_halo (s : State) (rs : List Rec) : (s.emitAll rs).halo = s.halo := by
  induction rs generalizing s with
  | nil => rfl
  | cons r l ih => exact ih (s.emit r)
@[simp] theorem State.emitAll_haloBack (s : State) (rs : List Rec) : (s.emitAll rs).haloBack = s.haloBack := by
  induction rs generalizing s with
  | nil => rfl
  | cons r l ih => exact ih (s.emit r)
@[simp] theorem State.emitAll_regions (s : State) (rs : List Rec) : (s.emitAll rs).regions = s.regions := by
  induction rs generalizing s with
  | nil => rfl
  | cons r l ih => exact ih (s.emit r)
@[simp] theorem State.emitAll_switch (s : State) (rs : List Rec) : (s.emitAll rs).switch = s.switch := by
  induction rs generalizing s with
  | nil => rfl
  | cons r l ih => exact ih (s.emit r)
@[simp] theorem State.emitAll_clrs (s : State) (rs : List Rec) : (s.emitAll rs).clrs = s.clrs := by
  induction rs generalizing s with
  | nil => rfl
  | cons r l ih => exact ih (s.emit r)
@[simp] theorem State.emitAll_ledger (s : State) (rs : List Rec) : (s.emitAll rs).ledger = s.ledger := by
  induction rs generalizing s with
  | nil => rfl
  | cons r l ih => exact ih (s.emit r)
@[simp] theorem State.emitAll_encs (s : State) (rs : List Rec) : (s.emitAll rs).encs = s.encs := by
  induction rs generalizing s with
  | nil => rfl
  | cons r l ih => exact ih (s.emit r)
@[simp] theorem State.emitAll_evidence (s : State) (rs : List Rec) : (s.emitAll rs).evidence = s.evidence := by
  induction rs generalizing s with
  | nil => rfl
  | cons r l ih => exact ih (s.emit r)
@[simp] theorem State.emitAll_adapt (s : State) (rs : List Rec) : (s.emitAll rs).adapt = s.adapt := by
  induction rs generalizing s with
  | nil => rfl
  | cons r l ih => exact ih (s.emit r)
@[simp] theorem State.emitAll_flt (s : State) (rs : List Rec) : (s.emitAll rs).flt = s.flt := by
  induction rs generalizing s with
  | nil => rfl
  | cons r l ih => exact ih (s.emit r)
@[simp] theorem State.emitAll_saf (s : State) (rs : List Rec) : (s.emitAll rs).saf = s.saf := by
  induction rs generalizing s with
  | nil => rfl
  | cons r l ih => exact ih (s.emit r)
@[simp] theorem State.emitAll_drams (s : State) (rs : List Rec) : (s.emitAll rs).drams = s.drams := by
  induction rs generalizing s with
  | nil => rfl
  | cons r l ih => exact ih (s.emit r)
@[simp] theorem State.emitAll_pci (s : State) (rs : List Rec) : (s.emitAll rs).pci = s.pci := by
  induction rs generalizing s with
  | nil => rfl
  | cons r l ih => exact ih (s.emit r)
@[simp] theorem State.emitAll_nets (s : State) (rs : List Rec) : (s.emitAll rs).nets = s.nets := by
  induction rs generalizing s with
  | nil => rfl
  | cons r l ih => exact ih (s.emit r)
@[simp] theorem State.emitAll_lnk (s : State) (rs : List Rec) : (s.emitAll rs).lnk = s.lnk := by
  induction rs generalizing s with
  | nil => rfl
  | cons r l ih => exact ih (s.emit r)
@[simp] theorem State.emitAll_sec (s : State) (rs : List Rec) : (s.emitAll rs).sec = s.sec := by
  induction rs generalizing s with
  | nil => rfl
  | cons r l ih => exact ih (s.emit r)
@[simp] theorem State.emitAll_dbg (s : State) (rs : List Rec) : (s.emitAll rs).dbg = s.dbg := by
  induction rs generalizing s with
  | nil => rfl
  | cons r l ih => exact ih (s.emit r)
@[simp] theorem State.emitAll_tills (s : State) (rs : List Rec) : (s.emitAll rs).tills = s.tills := by
  induction rs generalizing s with
  | nil => rfl
  | cons r l ih => exact ih (s.emit r)
@[simp] theorem State.emitAll_devTills (s : State) (rs : List Rec) : (s.emitAll rs).devTills = s.devTills := by
  induction rs generalizing s with
  | nil => rfl
  | cons r l ih => exact ih (s.emit r)
@[simp] theorem State.emitAll_bridges (s : State) (rs : List Rec) : (s.emitAll rs).bridges = s.bridges := by
  induction rs generalizing s with
  | nil => rfl
  | cons r l ih => exact ih (s.emit r)
@[simp] theorem State.emitAll_arbs (s : State) (rs : List Rec) : (s.emitAll rs).arbs = s.arbs := by
  induction rs generalizing s with
  | nil => rfl
  | cons r l ih => exact ih (s.emit r)
@[simp] theorem State.emitAll_passbook (s : State) (rs : List Rec) : (s.emitAll rs).passbook = s.passbook := by
  induction rs generalizing s with
  | nil => rfl
  | cons r l ih => exact ih (s.emit r)
@[simp] theorem State.emitAll_mem (s : State) (rs : List Rec) : (s.emitAll rs).mem = s.mem := by
  induction rs generalizing s with
  | nil => rfl
  | cons r l ih => exact ih (s.emit r)
@[simp] theorem State.emitAll_voids (s : State) (rs : List Rec) : (s.emitAll rs).voids = s.voids := by
  induction rs generalizing s with
  | nil => rfl
  | cons r l ih => exact ih (s.emit r)
@[simp] theorem State.emitAll_smbOffset (s : State) (rs : List Rec) : (s.emitAll rs).smbOffset = s.smbOffset := by
  induction rs generalizing s with
  | nil => rfl
  | cons r l ih => exact ih (s.emit r)
@[simp] theorem State.emitAll_latched (s : State) (rs : List Rec) : (s.emitAll rs).latched = s.latched := by
  induction rs generalizing s with
  | nil => rfl
  | cons r l ih => exact ih (s.emit r)
@[simp] theorem State.emitAll_readback (s : State) (rs : List Rec) : (s.emitAll rs).readback = s.readback := by
  induction rs generalizing s with
  | nil => rfl
  | cons r l ih => exact ih (s.emit r)
@[simp] theorem State.emitAll_poisoned (s : State) (rs : List Rec) : (s.emitAll rs).poisoned = s.poisoned := by
  induction rs generalizing s with
  | nil => rfl
  | cons r l ih => exact ih (s.emit r)
@[simp] theorem State.emitAll_nak (s : State) (rs : List Rec) : (s.emitAll rs).nak = s.nak := by
  induction rs generalizing s with
  | nil => rfl
  | cons r l ih => exact ih (s.emit r)
@[simp] theorem State.emitAll_free (s : State) (rs : List Rec) : (s.emitAll rs).free = s.free := by
  induction rs generalizing s with
  | nil => rfl
  | cons r l ih => exact ih (s.emit r)
@[simp] theorem State.emitAll_pending (s : State) (rs : List Rec) : (s.emitAll rs).pending = s.pending := by
  induction rs generalizing s with
  | nil => rfl
  | cons r l ih => exact ih (s.emit r)

/-- The journal after a record of no stream tick, or of none that a waiting record follows, is handed over. -/
theorem State.emit_journal (s : State) (r : Rec) (h : s.journal.waiting.any r.later = false) :
    (s.emit r).journal = { s.journal with waiting := s.journal.waiting ++ [r] } := by simp [State.emit, h]

/-- A record of no stream, or of no tick, comes last. -/
theorem State.emit_journal_plain (s : State) (r : Rec) (h : r.stream = 0xFFFF ∨ r.tick = 0) :
    (s.emit r).journal = { s.journal with waiting := s.journal.waiting ++ [r] } :=
  s.emit_journal r (by rcases h with h | h <;> simp [Rec.later, h])

/-- The settlement unit after a rejected command. -/
@[simp] theorem State.countReject_stl (s : State) (src op : Nat) :
    (s.countReject src op).stl = { s.stl with stateRejects := s.stl.stateRejects + 1, rejectSrc := src, rejectOp := op } := rfl

/-- The settlement unit after an ignored write. -/
@[simp] theorem State.countIgnored_stl (s : State) : s.countIgnored.stl = { s.stl with ignoredWrites := s.stl.ignoredWrites + 1 } := rfl

/-- A free value taken. -/
@[simp] theorem State.nextFree_free (s : State) : s.nextFree.free = s.free + 1 := rfl

/-- A rolling batch after its update. -/
@[simp] theorem State.setRolling_get (s : State) (g a : Nat) (x : Rolling) : (s.setRolling g a x).rollingOf g a = x :=
  Table.get_set_self _ _ _ _

end Sys2Proof.Machine
end

