-- ==== Sys2Proof/Laws/Stored.lean ====
section
/-! SUPPORT. Every operation keeps stored data canonical (State.Stored). -/

set_option linter.all false

namespace Sys2Proof.Machine
open State


theorem stored_of_erase {m : Nat} {s t : State} (h : t.erase m = s.erase m) (hm : m.testBit 41 = false) (hv : m.testBit 42 = false)
    (st : s.Stored) : t.Stored := by
  have e := congrArg State.mem h
  have f := congrArg State.voids h
  simp only [State.erase, hm, hv, Bool.false_eq_true, if_false] at e f
  exact ⟨e ▸ st.1, f ▸ st.2⟩
theorem stored_eq {m : Nat} {s t : State} (h : t.erase m = s.erase m) (hm : m.testBit 41 = false) (hv : m.testBit 42 = false) :
    t.Stored = s.Stored :=
  propext ⟨stored_of_erase h.symm hm hv, stored_of_erase h hm hv⟩
theorem stored_ite {c : Prop} [Decidable c] {a b : State} (ha : a.Stored) (hb : b.Stored) : (if c then a else b).Stored := by
  split
  · exact ha
  · exact hb
theorem foldl_stored {α : Type} {f : State → α → State} (h : ∀ t a, t.Stored → (f t a).Stored) (l : List α) (s : State)
    (st : s.Stored) : (l.foldl f s).Stored := by
  induction l generalizing s with
  | nil => exact st
  | cons a l ih => exact ih _ (h s a st)
theorem foldl1_stored {α β : Type} {f : State × β → α → State × β} (h : ∀ t a, t.1.Stored → (f t a).1.Stored) (l : List α) (s : State × β)
    (st : s.1.Stored) : (l.foldl f s).1.Stored := by
  induction l generalizing s with
  | nil => exact st
  | cons a l ih => exact ih _ (h s a st)
theorem after_stored (s : State) (o : Out) (st : s.Stored) (h : ∀ t, o = .next t → t.Stored) : (after s o).Stored := by
  unfold after
  split
  · exact h _ rfl
  · exact st
theorem stlCommand_stored (s : State) (page via : Src) (op : Nat) (f : State → State) (h : ∀ t : State, t.Stored → (f t).Stored)
    (st : s.Stored) : (stlCommand s page via op f).Stored := by
  unfold stlCommand
  split
  · exact st
  · split
    · exact stored_of_erase (State.stlReject_erase (hk := Nat.and_self _) ..) rfl rfl st
    · exact h s st

theorem appendRecord_stored (s : State) (st : s.Stored) : State.Stored (appendRecord s) := by
  unfold appendRecord
  repeat' (first | (with_reducible exact st) | (with_reducible refine State.store_stored (st := ?_) ..) | (with_reducible refine stored_ite ?_ ?_) | (simp only [↓stored_eq (gpioPulses_erase _ _ (Nat.and_self _)) rfl rfl, ↓stored_eq (exportRecord_erase _ _ (Nat.and_self _)) rfl rfl, ↓stored_eq (reclaim_erase _ _ (Nat.and_self _)) rfl rfl, ↓stored_eq (put_journal _ (Nat.and_self _)) rfl rfl]) | (with_reducible refine foldl_stored (fun t a st => ?_) _ _ ?_) | (with_reducible refine foldl1_stored (fun t a st => ?_) _ _ ?_) | (split))

theorem execJournalRecordAppend_stored (s : State) (st : s.Stored) (tx : State) (ex : (execJournalRecordAppend s) = .next tx) : tx.Stored := by
  unfold execJournalRecordAppend done at ex
  injection ex with ex
  subst ex
  repeat' (first | (with_reducible exact st) | (with_reducible refine appendRecord_stored (st := ?_) ..) | (with_reducible refine stored_ite ?_ ?_) | (with_reducible refine foldl_stored (fun t a st => ?_) _ _ ?_) | (with_reducible refine foldl1_stored (fun t a st => ?_) _ _ ?_) | (split))

theorem execPreprocessComplete_stored (a : ℕ) (stream : ℕ) (tick : ℕ) (page : ℕ) (s : State) (st : s.Stored) (tx : State) (ex : (execPreprocessComplete a stream tick page s) = .next tx) : tx.Stored := by
  unfold execPreprocessComplete done at ex
  injection ex with ex
  subst ex
  repeat' (first | (with_reducible exact st) | (with_reducible refine State.store_stored (st := ?_) ..) | (with_reducible refine stored_ite ?_ ?_) | (simp only [↓stored_eq (State.modAcct_erase _ _ _ (Nat.and_self _)) rfl rfl, ↓stored_eq (flushStream_erase _ _ _ (Nat.and_self _)) rfl rfl, ↓stored_eq (restartStream_erase _ _ (Nat.and_self _)) rfl rfl, ↓stored_eq (State.modStream_erase _ _ _ (Nat.and_self _)) rfl rfl, ↓stored_eq (queueSample_erase _ _ _ (Nat.and_self _)) rfl rfl, ↓stored_eq (State.chargeMedia_erase _ _ _ _ (Nat.and_self _)) rfl rfl, ↓stored_eq (put_preConvSat _ (Nat.and_self _)) rfl rfl]) | (with_reducible refine foldl_stored (fun t a st => ?_) _ _ ?_) | (with_reducible refine foldl1_stored (fun t a st => ?_) _ _ ?_) | (split))

theorem execVoidRestore_stored (addr : ℕ) (bytes : List Byte) (s : State) (st : s.Stored) (tx : State) (ex : (execVoidRestore addr bytes s) = .next tx) : tx.Stored := by
  unfold execVoidRestore done at ex
  injection ex with ex
  subst ex
  repeat' (first | (with_reducible exact st) | (with_reducible refine State.store_stored (st := ?_) ..) | (with_reducible refine stored_ite ?_ ?_) | (with_reducible refine foldl_stored (fun t a st => ?_) _ _ ?_) | (with_reducible refine foldl1_stored (fun t a st => ?_) _ _ ?_) | (split))

theorem abandonDmas_stored (s : State) (p : ℕ) (st : s.Stored) : State.Stored (abandonDmas s p) := by
  unfold abandonDmas
  repeat' (first | (with_reducible exact st) | (with_reducible refine State.voidRange_stored (st := ?_) ..) | (with_reducible refine stored_ite ?_ ?_) | (simp only [↓stored_eq (State.modEngine_erase _ _ _ (Nat.and_self _)) rfl rfl]) | (with_reducible refine foldl_stored (fun t a st => ?_) _ _ ?_) | (with_reducible refine foldl1_stored (fun t a st => ?_) _ _ ?_) | (split))

theorem voidWrites_stored (s : State) (x : TileEnv) (ws : List (ℕ × ℤ × List Byte)) (st : s.Stored) : State.Stored (voidWrites s x ws) := by
  unfold voidWrites
  repeat' (first | (with_reducible exact st) | (with_reducible refine State.voidRange_stored (st := ?_) ..) | (with_reducible refine stored_ite ?_ ?_) | (with_reducible refine foldl_stored (fun t a st => ?_) _ _ ?_) | (with_reducible refine foldl1_stored (fun t a st => ?_) _ _ ?_) | (split))

theorem abandonWith_stored (s : State) (p : ℕ) (cause : ℕ) (status : ℕ) (cycles : ℕ) (ws : List (ℕ × ℤ × List Byte)) (st : s.Stored) : State.Stored (abandonWith s p cause status cycles ws) := by
  unfold abandonWith
  repeat' (first | (with_reducible exact st) | (with_reducible refine voidWrites_stored (st := ?_) ..) | (with_reducible refine stored_ite ?_ ?_) | (simp only [↓stored_eq (State.trace_erase _ _ _ _ _ (Nat.and_self _)) rfl rfl, ↓stored_eq (State.modEngine_erase _ _ _ (Nat.and_self _)) rfl rfl, ↓stored_eq (complete_erase _ _ _ (Nat.and_self _)) rfl rfl, ↓stored_eq (chargeDev_erase _ _ _ _ (Nat.and_self _)) rfl rfl]) | (with_reducible refine foldl_stored (fun t a st => ?_) _ _ ?_) | (with_reducible refine foldl1_stored (fun t a st => ?_) _ _ ?_) | (split))

theorem abandonTile_stored (s : State) (p : ℕ) (cause : ℕ) (status : ℕ) (cycles : ℕ) (watchdogs : ℕ) (st : s.Stored) : State.Stored (abandonTile s p cause status cycles watchdogs) := by
  unfold abandonTile
  repeat' (first | (with_reducible exact st) | (with_reducible refine abandonWith_stored (st := ?_) ..) | (with_reducible refine stored_ite ?_ ?_) | (simp only [↓stored_eq (State.nextFree_erase _ (Nat.and_self _)) rfl rfl, ↓stored_eq (State.modEngine_erase _ _ _ (Nat.and_self _)) rfl rfl]) | (with_reducible refine foldl_stored (fun t a st => ?_) _ _ ?_) | (with_reducible refine foldl1_stored (fun t a st => ?_) _ _ ?_) | (split))

theorem execOperandParityError_stored (p : ℕ) (cell : ℕ) (s : State) (st : s.Stored) (tx : State) (ex : (execOperandParityError p cell s) = .next tx) : tx.Stored := by
  unfold execOperandParityError done at ex
  injection ex with ex
  subst ex
  repeat' (first | (with_reducible exact st) | (with_reducible refine abandonTile_stored (st := ?_) ..) | (with_reducible refine stored_ite ?_ ?_) | (simp only [↓stored_eq (State.modEngine_erase _ _ _ (Nat.and_self _)) rfl rfl, ↓stored_eq (State.corrected_erase _ _ _ _ (Nat.and_self _)) rfl rfl, ↓stored_eq (strike_erase _ _ _ _ _ (Nat.and_self _)) rfl rfl, ↓stored_eq (fenceIfDue_erase _ _ (Nat.and_self _)) rfl rfl]) | (with_reducible refine foldl_stored (fun t a st => ?_) _ _ ?_) | (with_reducible refine foldl1_stored (fun t a st => ?_) _ _ ?_) | (split))

theorem bankError_stored (s : State) (p : ℕ) (ev : CellEvents) (st : s.Stored) : State.Stored (bankError s p ev) := by
  unfold bankError
  repeat' (first | (with_reducible exact st) | (with_reducible refine abandonTile_stored (st := ?_) ..) | (with_reducible refine stored_ite ?_ ?_) | (simp only [↓stored_eq (State.modEngine_erase _ _ _ (Nat.and_self _)) rfl rfl, ↓stored_eq (strike_erase _ _ _ _ _ (Nat.and_self _)) rfl rfl, ↓stored_eq (State.corrected_erase _ _ _ _ (Nat.and_self _)) rfl rfl]) | (with_reducible refine foldl_stored (fun t a st => ?_) _ _ ?_) | (with_reducible refine foldl1_stored (fun t a st => ?_) _ _ ?_) | (split))

theorem execCellPipelineCycle_stored (p : ℕ) (check : List BankCheck) (s : State) (st : s.Stored) (tx : State) (ex : (execCellPipelineCycle p check s) = .next tx) : tx.Stored := by
  unfold execCellPipelineCycle done at ex
  injection ex with ex
  subst ex
  repeat' (first | (with_reducible exact st) | (with_reducible refine bankError_stored (st := ?_) ..) | (with_reducible refine stored_ite ?_ ?_) | (simp only [↓stored_eq (State.modEngine_erase _ _ _ (Nat.and_self _)) rfl rfl, ↓stored_eq (State.corrected_erase _ _ _ _ (Nat.and_self _)) rfl rfl]) | (with_reducible refine foldl_stored (fun t a st => ?_) _ _ ?_) | (with_reducible refine foldl1_stored (fun t a st => ?_) _ _ ?_) | (split))

theorem execDescriptorAccessFault_stored (p : ℕ) (s : State) (st : s.Stored) (tx : State) (ex : (execDescriptorAccessFault p s) = .next tx) : tx.Stored := by
  unfold execDescriptorAccessFault done at ex
  injection ex with ex
  subst ex
  repeat' (first | (with_reducible exact st) | (with_reducible refine abandonWith_stored (st := ?_) ..) | (with_reducible refine stored_ite ?_ ?_) | (simp only [↓stored_eq (State.modEngine_erase _ _ _ (Nat.and_self _)) rfl rfl, ↓stored_eq (State.contained_erase _ _ _ _ _ _ _ (Nat.and_self _)) rfl rfl, ↓stored_eq (fenceIfDue_erase _ _ (Nat.and_self _)) rfl rfl, ↓stored_eq (abandonMember_erase _ _ _ _ _ _ (Nat.and_self _)) rfl rfl]) | (with_reducible refine foldl_stored (fun t a st => ?_) _ _ ?_) | (with_reducible refine foldl1_stored (fun t a st => ?_) _ _ ?_) | (split))

theorem execVoidOperand_stored (p : ℕ) (s : State) (st : s.Stored) (tx : State) (ex : (execVoidOperand p s) = .next tx) : tx.Stored := by
  unfold execVoidOperand done at ex
  injection ex with ex
  subst ex
  repeat' (first | (with_reducible exact st) | (with_reducible refine abandonWith_stored (st := ?_) ..) | (with_reducible refine stored_ite ?_ ?_) | (simp only [↓stored_eq (fenceIfDue_erase _ _ (Nat.and_self _)) rfl rfl, ↓stored_eq (abandonMember_erase _ _ _ _ _ _ (Nat.and_self _)) rfl rfl]) | (with_reducible refine foldl_stored (fun t a st => ?_) _ _ ?_) | (with_reducible refine foldl1_stored (fun t a st => ?_) _ _ ?_) | (split))

theorem execTileWatchdogExpiry_stored (p : ℕ) (s : State) (st : s.Stored) (tx : State) (ex : (execTileWatchdogExpiry p s) = .next tx) : tx.Stored := by
  unfold execTileWatchdogExpiry done at ex
  injection ex with ex
  subst ex
  repeat' (first | (with_reducible exact st) | (with_reducible refine abandonTile_stored (st := ?_) ..) | (with_reducible refine abandonWith_stored (st := ?_) ..) | (with_reducible refine stored_ite ?_ ?_) | (simp only [↓stored_eq (State.atElapsed_erase _ _ (Nat.and_self _)) rfl rfl, ↓stored_eq (fenceIfDue_erase _ _ (Nat.and_self _)) rfl rfl, ↓stored_eq (State.corrected_erase _ _ _ _ (Nat.and_self _)) rfl rfl, ↓stored_eq (dropDmas_erase _ _ _ _ (Nat.and_self _)) rfl rfl, ↓stored_eq (State.nextFree_erase _ (Nat.and_self _)) rfl rfl, ↓stored_eq (State.contained_erase _ _ _ _ _ _ _ (Nat.and_self _)) rfl rfl, ↓stored_eq (jobFail_erase _ _ _ _ _ _ _ (Nat.and_self _)) rfl rfl]) | (with_reducible refine foldl_stored (fun t a st => ?_) _ _ ?_) | (with_reducible refine foldl1_stored (fun t a st => ?_) _ _ ?_) | (split))

theorem commitTile_stored (s : State) (p : ℕ) (cycles : ℕ) (r : Running) (d : TileDone) (empty : Bool) (st : s.Stored) : State.Stored (commitTile s p cycles r d empty) := by
  unfold commitTile
  repeat' (first | (with_reducible exact st) | (with_reducible refine State.store_stored (st := ?_) ..) | (with_reducible refine stored_ite ?_ ?_) | (simp only [↓stored_eq (State.trace_erase _ _ _ _ _ (Nat.and_self _)) rfl rfl, ↓stored_eq (State.modEngine_erase _ _ _ (Nat.and_self _)) rfl rfl, ↓stored_eq (complete_erase _ _ _ (Nat.and_self _)) rfl rfl, ↓stored_eq (chargeTile_erase _ _ _ _ (Nat.and_self _)) rfl rfl, ↓stored_eq (auditDraw_erase _ _ (Nat.and_self _)) rfl rfl, ↓stored_eq (selectAudit_erase _ _ _ _ (Nat.and_self _)) rfl rfl, ↓stored_eq (settleHalt_erase _ _ (Nat.and_self _)) rfl rfl, ↓stored_eq (tileBoundary_erase _ _ _ _ (Nat.and_self _)) rfl rfl, ↓stored_eq (put_haloBack _ (Nat.and_self _)) rfl rfl]) | (with_reducible refine foldl_stored (fun t a st => ?_) _ _ ?_) | (with_reducible refine foldl1_stored (fun t a st => ?_) _ _ ?_) | (split))

theorem execTileCommit_stored (p : ℕ) (cycles : ℕ) (s : State) (st : s.Stored) (tx : State) (ex : (execTileCommit p cycles s) = .next tx) : tx.Stored := by
  unfold execTileCommit done at ex
  injection ex with ex
  subst ex
  repeat' (first | (with_reducible exact st) | (with_reducible refine commitTile_stored (st := ?_) ..) | (with_reducible refine stored_ite ?_ ?_) | (simp only [↓stored_eq (finishPasses_erase _ _ _ (Nat.and_self _)) rfl rfl]) | (with_reducible refine foldl_stored (fun t a st => ?_) _ _ ?_) | (with_reducible refine foldl1_stored (fun t a st => ?_) _ _ ?_) | (split))

theorem execEngineScrub_stored (p : ℕ) (addr : ℕ) (ecc : Secded) (s : State) (st : s.Stored) (tx : State) (ex : (execEngineScrub p addr ecc s) = .next tx) : tx.Stored := by
  unfold execEngineScrub done at ex
  injection ex with ex
  subst ex
  repeat' (first | (with_reducible exact st) | (with_reducible refine State.voidRange_stored (st := ?_) ..) | (with_reducible refine stored_ite ?_ ?_) | (simp only [↓stored_eq (State.corrected_erase _ _ _ _ (Nat.and_self _)) rfl rfl, ↓stored_eq (State.modEngine_erase _ _ _ (Nat.and_self _)) rfl rfl, ↓stored_eq (State.contained_erase _ _ _ _ _ _ _ (Nat.and_self _)) rfl rfl]) | (with_reducible refine foldl_stored (fun t a st => ?_) _ _ ?_) | (with_reducible refine foldl1_stored (fun t a st => ?_) _ _ ?_) | (split))

theorem writePieces_stored (s : State) (p : ℕ) (pieces : List (ℕ × List Byte × Bool)) (st : s.Stored) : State.Stored (writePieces s p pieces) := by
  unfold writePieces
  repeat' (first | (with_reducible exact st) | (with_reducible refine State.store_stored (st := ?_) ..) | (with_reducible refine stored_ite ?_ ?_) | (with_reducible refine foldl_stored (fun t a st => ?_) _ _ ?_) | (with_reducible refine foldl1_stored (fun t a st => ?_) _ _ ?_) | (split))

theorem execSendComplete_stored (p : ℕ) (s : State) (st : s.Stored) (tx : State) (ex : (execSendComplete p s) = .next tx) : tx.Stored := by
  unfold execSendComplete done at ex
  injection ex with ex
  subst ex
  repeat' (first | (with_reducible exact st) | (with_reducible refine writePieces_stored (st := ?_) ..) | (with_reducible refine stored_ite ?_ ?_) | (simp only [↓stored_eq (settleHalt_erase _ _ (Nat.and_self _)) rfl rfl, ↓stored_eq (State.modEngine_erase _ _ _ (Nat.and_self _)) rfl rfl]) | (with_reducible refine foldl_stored (fun t a st => ?_) _ _ ?_) | (with_reducible refine foldl1_stored (fun t a st => ?_) _ _ ?_) | (split))

theorem partArrival_stored (s : State) (combiner : ℕ) (sender : ℕ) (job : ℕ) (tile : ℕ) (part : ℕ) (parts : ℕ) (st : s.Stored) : State.Stored (partArrival s combiner sender job tile part parts) := by
  unfold partArrival
  repeat' (first | (with_reducible exact st) | (with_reducible refine writePieces_stored (st := ?_) ..) | (with_reducible refine stored_ite ?_ ?_) | (simp only [↓stored_eq (settleHalt_erase _ _ (Nat.and_self _)) rfl rfl, ↓stored_eq (State.modEngine_erase _ _ _ (Nat.and_self _)) rfl rfl, ↓stored_eq (strike_erase _ _ _ _ _ (Nat.and_self _)) rfl rfl, ↓stored_eq (State.corrected_erase _ _ _ _ (Nat.and_self _)) rfl rfl]) | (with_reducible refine foldl_stored (fun t a st => ?_) _ _ ?_) | (with_reducible refine foldl1_stored (fun t a st => ?_) _ _ ?_) | (split))

theorem execPartArrival_stored (combiner : ℕ) (sender : ℕ) (job : ℕ) (tile : ℕ) (part : ℕ) (parts : ℕ) (s : State) (st : s.Stored) (tx : State) (ex : (execPartArrival combiner sender job tile part parts s) = .next tx) : tx.Stored := by
  unfold execPartArrival done at ex
  injection ex with ex
  subst ex
  repeat' (first | (with_reducible exact st) | (with_reducible refine partArrival_stored (st := ?_) ..) | (with_reducible refine stored_ite ?_ ?_) | (with_reducible refine foldl_stored (fun t a st => ?_) _ _ ?_) | (with_reducible refine foldl1_stored (fun t a st => ?_) _ _ ?_) | (split))

theorem storeMarked_stored (s : State) (a : ℕ) (bs : List Byte) (marks : List Bool) (st : s.Stored) : State.Stored (storeMarked s a bs marks) := by
  unfold storeMarked
  repeat' (first | (with_reducible exact st) | (with_reducible refine State.store_stored (st := ?_) ..) | (with_reducible refine stored_ite ?_ ?_) | (with_reducible refine foldl_stored (fun t a st => ?_) _ _ ?_) | (with_reducible refine foldl1_stored (fun t a st => ?_) _ _ ?_) | (split))

theorem writeGroup_stored (s : State) (d : Desc) (h : HaloMsg) (st : s.Stored) : State.Stored (writeGroup s d h) := by
  unfold writeGroup
  repeat' (first | (with_reducible exact st) | (with_reducible refine storeMarked_stored (st := ?_) ..) | (with_reducible refine stored_ite ?_ ?_) | (with_reducible refine foldl_stored (fun t a st => ?_) _ _ ?_) | (with_reducible refine foldl1_stored (fun t a st => ?_) _ _ ?_) | (split))

theorem execHaloGroupReceived_stored (p : ℕ) (port : ℕ) (s : State) (st : s.Stored) (tx : State) (ex : (execHaloGroupReceived p port s) = .next tx) : tx.Stored := by
  unfold execHaloGroupReceived done at ex
  injection ex with ex
  subst ex
  repeat' (first | (with_reducible exact st) | (with_reducible refine writeGroup_stored (st := ?_) ..) | (with_reducible refine stored_ite ?_ ?_) | (simp only [↓stored_eq (State.modEngine_erase _ _ _ (Nat.and_self _)) rfl rfl, ↓stored_eq (put_halo _ (Nat.and_self _)) rfl rfl]) | (with_reducible refine foldl_stored (fun t a st => ?_) _ _ ?_) | (with_reducible refine foldl1_stored (fun t a st => ?_) _ _ ?_) | (split))

theorem voidAudited_stored (s : State) (a : Audit) (st : s.Stored) : State.Stored (voidAudited s a) := by
  unfold voidAudited
  repeat' (first | (with_reducible exact st) | (with_reducible refine voidWrites_stored (st := ?_) ..) | (with_reducible refine stored_ite ?_ ?_) | (with_reducible refine foldl_stored (fun t a st => ?_) _ _ ?_) | (with_reducible refine foldl1_stored (fun t a st => ?_) _ _ ?_) | (split))

theorem auditVerdict_stored (s : State) (a : Audit) (third : ℕ) (addr : ℕ) (strikeAudited : Bool) (strikeAuditor : Bool) (st : s.Stored) : State.Stored (auditVerdict s a third addr strikeAudited strikeAuditor) := by
  unfold auditVerdict
  repeat' (first | (with_reducible exact st) | (with_reducible refine voidAudited_stored (st := ?_) ..) | (with_reducible refine stored_ite ?_ ?_) | (simp only [↓stored_eq (auditRecord_erase _ _ _ _ (Nat.and_self _)) rfl rfl, ↓stored_eq (dropAudit_erase _ _ _ (Nat.and_self _)) rfl rfl, ↓stored_eq (failAudited_erase _ _ (Nat.and_self _)) rfl rfl, ↓stored_eq (strike_erase _ _ _ _ _ (Nat.and_self _)) rfl rfl]) | (with_reducible refine foldl_stored (fun t a st => ?_) _ _ ?_) | (with_reducible refine foldl1_stored (fun t a st => ?_) _ _ ?_) | (split))

theorem execAuditCopy_stored (p : ℕ) (differs : Bool) (void : Bool) (addr : ℕ) (s : State) (st : s.Stored) (tx : State) (ex : (execAuditCopy p differs void addr s) = .next tx) : tx.Stored := by
  unfold execAuditCopy done at ex
  injection ex with ex
  subst ex
  repeat' (first | (with_reducible exact st) | (with_reducible refine auditVerdict_stored (st := ?_) ..) | (with_reducible refine stored_ite ?_ ?_) | (simp only [↓stored_eq (chargeAudit_erase _ _ _ (Nat.and_self _)) rfl rfl, ↓stored_eq (auditVoid_erase _ _ _ (Nat.and_self _)) rfl rfl, ↓stored_eq (dropAudit_erase _ _ _ (Nat.and_self _)) rfl rfl, ↓stored_eq (State.corrected_erase _ _ _ _ (Nat.and_self _)) rfl rfl, ↓stored_eq (State.modRegion_erase _ _ _ (Nat.and_self _)) rfl rfl, ↓stored_eq (put_flt _ (Nat.and_self _)) rfl rfl]) | (with_reducible refine foldl_stored (fun t a st => ?_) _ _ ?_) | (with_reducible refine foldl1_stored (fun t a st => ?_) _ _ ?_) | (split))

theorem execAuditThirdRun_stored (p : ℕ) (agreesOriginal : Bool) (agreesAuditor : Bool) (void : Bool) (s : State) (st : s.Stored) (tx : State) (ex : (execAuditThirdRun p agreesOriginal agreesAuditor void s) = .next tx) : tx.Stored := by
  unfold execAuditThirdRun done at ex
  injection ex with ex
  subst ex
  repeat' (first | (with_reducible exact st) | (with_reducible refine auditVerdict_stored (st := ?_) ..) | (with_reducible refine stored_ite ?_ ?_) | (simp only [↓stored_eq (chargeAudit_erase _ _ _ (Nat.and_self _)) rfl rfl, ↓stored_eq (auditVoid_erase _ _ _ (Nat.and_self _)) rfl rfl]) | (with_reducible refine foldl_stored (fun t a st => ?_) _ _ ?_) | (with_reducible refine foldl1_stored (fun t a st => ?_) _ _ ?_) | (split))

theorem copyEngine_stored (s : State) (q p : Nat) (st : s.Stored) :
    ({ s with mem := copyEngineBytes s.mem q p, voids := copyEngineVoids s.voids q p } : State).Stored :=
  ⟨foldl_set_wf _ _ _ _ (filter_memWf _ _ st.1), foldl_insertGranule_rising _ _ _ (filter_rising _ _ st.2)⟩

theorem execEngineHandoverCopyComplete_stored (p : ℕ) (badGranules : List ℕ) (s : State) (st : s.Stored) (tx : State)
    (ex : execEngineHandoverCopyComplete p badGranules s = .next tx) : tx.Stored := by
  unfold execEngineHandoverCopyComplete done at ex
  injection ex with ex
  subst ex
  repeat' (first | (with_reducible exact st) | (with_reducible exact copyEngine_stored _ _ _ st) | (with_reducible refine State.voidRange_stored (st := ?_) ..) | (with_reducible refine stored_ite ?_ ?_) | (simp only [↓stored_eq (State.modEngine_erase _ _ _ (Nat.and_self _)) rfl rfl, ↓stored_eq (fenceIfDue_erase _ _ (Nat.and_self _)) rfl rfl]) | (with_reducible refine foldl_stored (fun t a st => ?_) _ _ ?_) | split)

theorem execHandoverNoAnswer_stored (p : ℕ) (s : State) (st : s.Stored) (tx : State) (ex : (execHandoverNoAnswer p s) = .next tx) : tx.Stored := by
  unfold execHandoverNoAnswer done at ex
  injection ex with ex
  subst ex
  repeat' (first | (with_reducible exact st) | (with_reducible refine State.voidRange_stored (st := ?_) ..) | (with_reducible refine stored_ite ?_ ?_) | (simp only [↓stored_eq (State.atElapsed_erase _ _ (Nat.and_self _)) rfl rfl, ↓stored_eq (fenceIfDue_erase _ _ (Nat.and_self _)) rfl rfl, ↓stored_eq (State.modEngine_erase _ _ _ (Nat.and_self _)) rfl rfl]) | (with_reducible refine foldl_stored (fun t a st => ?_) _ _ ?_) | (with_reducible refine foldl1_stored (fun t a st => ?_) _ _ ?_) | (split))

theorem runClr_stored (s : State) (r : ℕ) (j : ClrJob) (c : ClrCmd) (st : s.Stored) : State.Stored (runClr s r j c).1 := by
  unfold runClr
  repeat' (first | (with_reducible exact st) | (with_reducible refine State.store_stored (st := ?_) ..) | (with_reducible refine stored_ite ?_ ?_) | (simp only [↓stored_eq (applyAssoc_erase _ _ _ _ (Nat.and_self _)) rfl rfl, ↓stored_eq (handOver_erase _ _ (Nat.and_self _)) rfl rfl, ↓stored_eq (peerQueries_erase _ _ _ (Nat.and_self _)) rfl rfl, ↓stored_eq (applyIdent_erase _ _ (Nat.and_self _)) rfl rfl, ↓stored_eq (put_free _ (Nat.and_self _)) rfl rfl]) | (with_reducible refine foldl_stored (fun t a st => ?_) _ _ ?_) | (with_reducible refine foldl1_stored (fun t a st => ?_) _ _ ?_) | (split))

theorem execClearingCommandCommit_stored (d : ClrDone) (s : State) (st : s.Stored) (tx : State) (ex : (execClearingCommandCommit d s) = .next tx) : tx.Stored := by
  unfold execClearingCommandCommit done at ex
  injection ex with ex
  subst ex
  repeat' (first | (with_reducible exact st) | (with_reducible refine runClr_stored (st := ?_) ..) | (with_reducible refine stored_ite ?_ ?_) | (simp only [↓stored_eq (chargeClr_erase _ _ _ _ _ (Nat.and_self _)) rfl rfl, ↓stored_eq (State.modClr_erase _ _ _ (Nat.and_self _)) rfl rfl, ↓stored_eq (clrComplete_erase _ _ _ _ _ _ _ (Nat.and_self _)) rfl rfl, ↓stored_eq (auditDraw_erase _ _ (Nat.and_self _)) rfl rfl, ↓stored_eq (beginNext_erase _ _ (Nat.and_self _)) rfl rfl]) | (with_reducible refine foldl_stored (fun t a st => ?_) _ _ ?_) | (with_reducible refine foldl1_stored (fun t a st => ?_) _ _ ?_) | (split))

theorem execClearingVoidRead_stored (r : ℕ) (addr : ℕ) (s : State) (st : s.Stored) (tx : State) (ex : (execClearingVoidRead r addr s) = .next tx) : tx.Stored := by
  unfold execClearingVoidRead done at ex
  injection ex with ex
  subst ex
  repeat' (first | (with_reducible exact st) | (with_reducible refine State.store_stored (st := ?_) ..) | (with_reducible refine stored_ite ?_ ?_) | (simp only [↓stored_eq (clrComplete_erase _ _ _ _ _ _ _ (Nat.and_self _)) rfl rfl, ↓stored_eq (closeTrack_erase _ _ _ _ (Nat.and_self _)) rfl rfl, ↓stored_eq (beginNext_erase _ _ (Nat.and_self _)) rfl rfl, ↓stored_eq (abandonClr_erase _ _ _ _ (Nat.and_self _)) rfl rfl]) | (with_reducible refine foldl_stored (fun t a st => ?_) _ _ ?_) | (with_reducible refine foldl1_stored (fun t a st => ?_) _ _ ?_) | (split))

theorem zoneTensor_stored (s : State) (p : Picture) (addr : ℕ) (lane0 : ℕ) (lane1 : ℕ) (st : s.Stored) : State.Stored (zoneTensor s p addr lane0 lane1) := by
  unfold zoneTensor
  repeat' (first | (with_reducible exact st) | (with_reducible refine State.store_stored (st := ?_) ..) | (with_reducible refine stored_ite ?_ ?_) | (simp only [↓stored_eq (State.setStream_erase _ _ _ (Nat.and_self _)) rfl rfl, ↓stored_eq (zoneInput_erase _ _ _ _ (Nat.and_self _)) rfl rfl, ↓stored_eq (State.modStream_erase _ _ _ (Nat.and_self _)) rfl rfl, ↓stored_eq (placeEval_erase _ _ _ _ _ (Nat.and_self _)) rfl rfl, ↓stored_eq (put_preConvSat _ (Nat.and_self _)) rfl rfl]) | (with_reducible refine foldl_stored (fun t a st => ?_) _ _ ?_) | (with_reducible refine foldl1_stored (fun t a st => ?_) _ _ ?_) | (split))

theorem execZoneTensorComplete_stored (n : ℕ) (tick : ℕ) (page : ℕ) (lanes : ZoneLanes) (s : State) (st : s.Stored) (tx : State) (ex : (execZoneTensorComplete n tick page lanes s) = .next tx) : tx.Stored := by
  unfold execZoneTensorComplete done at ex
  injection ex with ex
  subst ex
  repeat' (first | (with_reducible exact st) | (with_reducible refine zoneTensor_stored (st := ?_) ..) | (with_reducible refine stored_ite ?_ ?_) | (with_reducible refine foldl_stored (fun t a st => ?_) _ _ ?_) | (with_reducible refine foldl1_stored (fun t a st => ?_) _ _ ?_) | (split))

theorem stopEngines_stored (s : State) (immediate : Bool) (st : s.Stored) : State.Stored (stopEngines s immediate) := by
  unfold stopEngines
  repeat' (first | (with_reducible exact st) | (with_reducible refine abandonDmas_stored (st := ?_) ..) | (with_reducible refine abandonTile_stored (st := ?_) ..) | (with_reducible refine stored_ite ?_ ?_) | (simp only [↓stored_eq (settleHalt_erase _ _ (Nat.and_self _)) rfl rfl]) | (with_reducible refine foldl_stored (fun t a st => ?_) _ _ ?_) | (with_reducible refine foldl1_stored (fun t a st => ?_) _ _ ?_) | (split))

theorem globalStop_stored (s : State) (immediate : Bool) (fatal : Bool) (st : s.Stored) : State.Stored (globalStop s immediate fatal) := by
  unfold globalStop
  repeat' (first | (with_reducible exact st) | (with_reducible refine stopEngines_stored (st := ?_) ..) | (with_reducible refine stored_ite ?_ ?_) | (simp only [↓stored_eq (stopPreprocess_erase _ (Nat.and_self _)) rfl rfl, ↓stored_eq (stopDecode_erase _ (Nat.and_self _)) rfl rfl, ↓stored_eq (stopClearing_erase _ (Nat.and_self _)) rfl rfl, ↓stored_eq (settleChannels_erase _ (Nat.and_self _)) rfl rfl, ↓stored_eq (put_flt _ (Nat.and_self _)) rfl rfl]) | (with_reducible refine foldl_stored (fun t a st => ?_) _ _ ?_) | (with_reducible refine foldl1_stored (fun t a st => ?_) _ _ ?_) | (split))

theorem chipFatal_stored (s : State) (source : ℕ) (unit_ : ℕ) (st : s.Stored) : State.Stored (chipFatal s source unit_) := by
  unfold chipFatal
  repeat' (first | (with_reducible exact st) | (with_reducible refine globalStop_stored (st := ?_) ..) | (with_reducible refine stored_ite ?_ ?_) | (simp only [↓stored_eq (discardPending_erase _ (Nat.and_self _)) rfl rfl, ↓stored_eq (State.emit_erase _ _ (Nat.and_self _)) rfl rfl, ↓stored_eq (State.raise_erase _ _ (Nat.and_self _)) rfl rfl, ↓stored_eq (stopObservation_erase _ (Nat.and_self _)) rfl rfl, ↓stored_eq (settleChannels_erase _ (Nat.and_self _)) rfl rfl, ↓stored_eq (put_phase_pins_flash_flt _ (Nat.and_self _)) rfl rfl]) | (with_reducible refine foldl_stored (fun t a st => ?_) _ _ ?_) | (with_reducible refine foldl1_stored (fun t a st => ?_) _ _ ?_) | (split))

theorem execChipFatal_stored (source : ℕ) (unit_ : ℕ) (s : State) (st : s.Stored) (tx : State) (ex : (execChipFatal source unit_ s) = .next tx) : tx.Stored := by
  unfold execChipFatal done at ex
  injection ex with ex
  subst ex
  repeat' (first | (with_reducible exact st) | (with_reducible refine chipFatal_stored (st := ?_) ..) | (with_reducible refine stored_ite ?_ ?_) | (with_reducible refine foldl_stored (fun t a st => ?_) _ _ ?_) | (with_reducible refine foldl1_stored (fun t a st => ?_) _ _ ?_) | (split))

theorem execSupplyMonitorFault_stored (selfCheck : Bool) (unit_ : ℕ) (s : State) (st : s.Stored) (tx : State) (ex : (execSupplyMonitorFault selfCheck unit_ s) = .next tx) : tx.Stored := by
  unfold execSupplyMonitorFault done at ex
  injection ex with ex
  subst ex
  repeat' (first | (with_reducible exact st) | (with_reducible refine chipFatal_stored (st := ?_) ..) | (with_reducible refine stored_ite ?_ ?_) | (with_reducible refine foldl_stored (fun t a st => ?_) _ _ ?_) | (with_reducible refine foldl1_stored (fun t a st => ?_) _ _ ?_) | (split))

theorem execZonePeriodBoundary_stored (z : ℕ) (selfCheckOk : Bool) (s : State) (st : s.Stored) (tx : State) (ex : (execZonePeriodBoundary z selfCheckOk s) = .next tx) : tx.Stored := by
  unfold execZonePeriodBoundary done at ex
  injection ex with ex
  subst ex
  repeat' (first | (with_reducible exact st) | (with_reducible refine chipFatal_stored (st := ?_) ..) | (with_reducible refine stored_ite ?_ ?_) | (simp only [↓stored_eq (zoneBoundary_erase _ _ (Nat.and_self _)) rfl rfl, ↓stored_eq (State.atStation_erase _ _ (Nat.and_self _)) rfl rfl]) | (with_reducible refine foldl_stored (fun t a st => ?_) _ _ ?_) | (with_reducible refine foldl1_stored (fun t a st => ?_) _ _ ?_) | (split))

theorem loadSection_stored (s : State) (x : Slot) (type : ℕ) (addr : ℕ) (st : s.Stored) : State.Stored (loadSection s x type addr) := by
  unfold loadSection
  repeat' (first | (with_reducible exact st) | (with_reducible refine State.store_stored (st := ?_) ..) | (with_reducible refine stored_ite ?_ ?_) | (with_reducible refine foldl_stored (fun t a st => ?_) _ _ ?_) | (with_reducible refine foldl1_stored (fun t a st => ?_) _ _ ?_) | (split))

theorem execChipWatchdogExpiry_stored (s : State) (st : s.Stored) (tx : State) (ex : (execChipWatchdogExpiry s) = .next tx) : tx.Stored := by
  unfold execChipWatchdogExpiry done at ex
  injection ex with ex
  subst ex
  repeat' (first | (with_reducible exact st) | (with_reducible refine chipFatal_stored (st := ?_) ..) | (with_reducible refine stored_ite ?_ ?_) | (simp only [↓stored_eq (failIfRestarted_erase _ _ _ (Nat.and_self _)) rfl rfl, ↓stored_eq (State.contained_erase _ _ _ _ _ _ _ (Nat.and_self _)) rfl rfl, ↓stored_eq (discardForRestart_erase _ (Nat.and_self _)) rfl rfl, ↓stored_eq (capacityChanged_erase _ _ (Nat.and_self _)) rfl rfl, ↓stored_eq (put_flt _ (Nat.and_self _)) rfl rfl]) | (with_reducible refine foldl_stored (fun t a st => ?_) _ _ ?_) | (with_reducible refine foldl1_stored (fun t a st => ?_) _ _ ?_) | (split))

theorem loadModels_stored (s : State) (x : Slot) (old : Cfg) (new : Cfg) (st : s.Stored) : State.Stored (loadModels s x old new) := by
  unfold loadModels
  repeat' (first | (with_reducible exact st) | (with_reducible refine loadSection_stored (st := ?_) ..) | (with_reducible refine stored_ite ?_ ?_) | (with_reducible refine foldl_stored (fun t a st => ?_) _ _ ?_) | (with_reducible refine foldl1_stored (fun t a st => ?_) _ _ ?_) | (split))

theorem chartered_stored (s : State) (x : Slot) (old : Cfg) (new : Cfg) (y4 : Option Failure) (st : s.Stored) : State.Stored (chartered s x old new y4) := by
  unfold chartered
  repeat' (first | (with_reducible exact st) | (with_reducible refine loadModels_stored (st := ?_) ..) | (with_reducible refine stored_ite ?_ ?_) | (simp only [↓stored_eq (abortOnCheck_erase _ _ (Nat.and_self _)) rfl rfl]) | (with_reducible refine foldl_stored (fun t a st => ?_) _ _ ?_) | (with_reducible refine foldl1_stored (fun t a st => ?_) _ _ ?_) | (split))

theorem stageCharter_stored (s : State) (u : Update) (st : s.Stored) : State.Stored (stageCharter s u) := by
  unfold stageCharter
  repeat' (first | (with_reducible exact st) | (with_reducible refine chartered_stored (st := ?_) ..) | (with_reducible refine stored_ite ?_ ?_) | (simp only [↓stored_eq (stagedUpdate_erase _ _ _ _ (Nat.and_self _)) rfl rfl]) | (with_reducible refine foldl_stored (fun t a st => ?_) _ _ ?_) | (with_reducible refine foldl1_stored (fun t a st => ?_) _ _ ?_) | (split))

theorem endRolling_stored (s : State) (st : s.Stored) : State.Stored (endRolling s) := by
  unfold endRolling
  repeat' (first | (with_reducible exact st) | (with_reducible refine stageCharter_stored (st := ?_) ..) | (with_reducible refine stored_ite ?_ ?_) | (with_reducible refine foldl_stored (fun t a st => ?_) _ _ ?_) | (with_reducible refine foldl1_stored (fun t a st => ?_) _ _ ?_) | (split))

theorem execChipControllerRestarted_stored (s : State) (st : s.Stored) (tx : State) (ex : (execChipControllerRestarted s) = .next tx) : tx.Stored := by
  unfold execChipControllerRestarted done at ex
  injection ex with ex
  subst ex
  repeat' (first | (with_reducible exact st) | (with_reducible refine endRolling_stored (st := ?_) ..) | (with_reducible refine stored_ite ?_ ?_) | (simp only [↓stored_eq (State.emit_erase _ _ (Nat.and_self _)) rfl rfl, ↓stored_eq (put_stl_flt _ (Nat.and_self _)) rfl rfl]) | (with_reducible refine foldl_stored (fun t a st => ?_) _ _ ?_) | (with_reducible refine foldl1_stored (fun t a st => ?_) _ _ ?_) | (split))

theorem mergeQuery_stored (s : State) (q : Query) (st : s.Stored) : State.Stored (mergeQuery s q) := by
  unfold mergeQuery
  repeat' (first | (with_reducible exact st) | (with_reducible refine State.store_stored (st := ?_) ..) | (with_reducible refine stored_ite ?_ ?_) | (simp only [↓stored_eq (put_lnk _ (Nat.and_self _)) rfl rfl]) | (with_reducible refine foldl_stored (fun t a st => ?_) _ _ ?_) | (with_reducible refine foldl1_stored (fun t a st => ?_) _ _ ?_) | (split))

theorem mergePartial_stored (s : State) (q : Query) (st : s.Stored) : State.Stored (mergePartial s q) := by
  unfold mergePartial
  repeat' (first | (with_reducible exact st) | (with_reducible refine mergeQuery_stored (st := ?_) ..) | (with_reducible refine stored_ite ?_ ?_) | (simp only [↓stored_eq (State.lnkRecord_erase _ _ _ _ _ _ (Nat.and_self _)) rfl rfl]) | (with_reducible refine foldl_stored (fun t a st => ?_) _ _ ?_) | (with_reducible refine foldl1_stored (fun t a st => ?_) _ _ ?_) | (split))

theorem settleReply_stored (s : State) (number : ℕ) (d : ℕ) (entries : Option (List Byte)) (st : s.Stored) : State.Stored (settleReply s number d entries) := by
  unfold settleReply
  repeat' (first | (with_reducible exact st) | (with_reducible refine mergeQuery_stored (st := ?_) ..) | (with_reducible refine mergePartial_stored (st := ?_) ..) | (with_reducible refine stored_ite ?_ ?_) | (simp only [↓stored_eq (put_lnk _ (Nat.and_self _)) rfl rfl]) | (with_reducible refine foldl_stored (fun t a st => ?_) _ _ ?_) | (with_reducible refine foldl1_stored (fun t a st => ?_) _ _ ?_) | (split))

theorem execSanorResult_stored (d : ℕ) (seq : ℕ) (number : ℕ) (entries : List (List Byte)) (s : State) (st : s.Stored) (tx : State) (ex : (execSanorResult d seq number entries s) = .next tx) : tx.Stored := by
  unfold execSanorResult done at ex
  injection ex with ex
  subst ex
  repeat' (first | (with_reducible exact st) | (with_reducible refine settleReply_stored (st := ?_) ..) | (with_reducible refine stored_ite ?_ ?_) | (simp only [↓stored_eq (accept_erase _ _ _ (Nat.and_self _)) rfl rfl]) | (with_reducible refine foldl_stored (fun t a st => ?_) _ _ ?_) | (with_reducible refine foldl1_stored (fun t a st => ?_) _ _ ?_) | (split))

theorem execPeerQueryTimeout_stored (number : ℕ) (s : State) (st : s.Stored) (tx : State) (ex : (execPeerQueryTimeout number s) = .next tx) : tx.Stored := by
  unfold execPeerQueryTimeout done at ex
  injection ex with ex
  subst ex
  repeat' (first | (with_reducible exact st) | (with_reducible refine mergePartial_stored (st := ?_) ..) | (with_reducible refine stored_ite ?_ ?_) | (simp only [↓stored_eq (State.atElapsed_erase _ _ (Nat.and_self _)) rfl rfl]) | (with_reducible refine foldl_stored (fun t a st => ?_) _ _ ?_) | (with_reducible refine foldl1_stored (fun t a st => ?_) _ _ ?_) | (split))

theorem losePeer_stored (s : State) (d : ℕ) (st : s.Stored) : State.Stored (losePeer s d) := by
  unfold losePeer
  repeat' (first | (with_reducible exact st) | (with_reducible refine settleReply_stored (st := ?_) ..) | (with_reducible refine stored_ite ?_ ?_) | (simp only [↓stored_eq (State.setPeer_erase _ _ _ (Nat.and_self _)) rfl rfl, ↓stored_eq (State.lnkRecord_erase _ _ _ _ _ _ (Nat.and_self _)) rfl rfl, ↓stored_eq (expireHandover_erase _ _ (Nat.and_self _)) rfl rfl, ↓stored_eq (startFailover_erase _ _ (Nat.and_self _)) rfl rfl]) | (with_reducible refine foldl_stored (fun t a st => ?_) _ _ ?_) | (with_reducible refine foldl1_stored (fun t a st => ?_) _ _ ?_) | (split))

theorem execPeerLost_stored (d : ℕ) (s : State) (st : s.Stored) (tx : State) (ex : (execPeerLost d s) = .next tx) : tx.Stored := by
  unfold execPeerLost done at ex
  injection ex with ex
  subst ex
  repeat' (first | (with_reducible exact st) | (with_reducible refine losePeer_stored (st := ?_) ..) | (with_reducible refine stored_ite ?_ ?_) | (simp only [↓stored_eq (State.atElapsed_erase _ _ (Nat.and_self _)) rfl rfl]) | (with_reducible refine foldl_stored (fun t a st => ?_) _ _ ?_) | (with_reducible refine foldl1_stored (fun t a st => ?_) _ _ ?_) | (split))

theorem resizeJournal_stored (s : State) (old : Cfg) (st : s.Stored) : State.Stored (resizeJournal s old) := by
  unfold resizeJournal
  repeat' (first | (with_reducible exact st) | (with_reducible refine State.store_stored (st := ?_) ..) | (with_reducible refine stored_ite ?_ ?_) | (simp only [↓stored_eq (reclaim_erase _ _ (Nat.and_self _)) rfl rfl]) | (with_reducible refine foldl_stored (fun t a st => ?_) _ _ ?_) | (with_reducible refine foldl1_stored (fun t a st => ?_) _ _ ?_) | (split))

theorem applyEpoch_stored (s : State) (b : Batch) (at_ : ℕ) (st : s.Stored) : State.Stored (applyEpoch s b at_) := by
  unfold applyEpoch
  repeat' (first | (with_reducible exact st) | (with_reducible refine resizeJournal_stored (st := ?_) ..) | (with_reducible refine stored_ite ?_ ?_) | (simp only [↓stored_eq (State.setPage_erase _ _ _ (Nat.and_self _)) rfl rfl, ↓stored_eq (applyStream_erase _ _ _ (Nat.and_self _)) rfl rfl, ↓stored_eq (adoptReplica_erase _ _ (Nat.and_self _)) rfl rfl, ↓stored_eq (applyModel_erase _ _ _ _ (Nat.and_self _)) rfl rfl, ↓stored_eq (setDDec_erase _ (Nat.and_self _)) rfl rfl, ↓stored_eq (rerankSources_erase _ _ (Nat.and_self _)) rfl rfl, ↓stored_eq (resizeStores_erase _ _ (Nat.and_self _)) rfl rfl, ↓stored_eq (applyZones_erase _ _ _ (Nat.and_self _)) rfl rfl, ↓stored_eq (put_layout_cfg_cfgOld_stl _ (Nat.and_self _)) rfl rfl]) | (with_reducible refine foldl_stored (fun t a st => ?_) _ _ ?_) | (with_reducible refine foldl1_stored (fun t a st => ?_) _ _ ?_) | (split))

theorem reachInstant_stored (s : State) (b : Batch) (at_ : ℕ) (st : s.Stored) : State.Stored (reachInstant s b at_) := by
  unfold reachInstant
  repeat' (first | (with_reducible exact st) | (with_reducible refine applyEpoch_stored (st := ?_) ..) | (with_reducible refine stored_ite ?_ ?_) | (simp only [↓stored_eq (drainIfEmpty_erase _ (Nat.and_self _)) rfl rfl]) | (with_reducible refine foldl_stored (fun t a st => ?_) _ _ ?_) | (with_reducible refine foldl1_stored (fun t a st => ?_) _ _ ?_) | (split))

theorem epochInstant_stored (s : State) (st : s.Stored) : State.Stored (epochInstant s) := by
  unfold epochInstant
  repeat' (first | (with_reducible exact st) | (with_reducible refine reachInstant_stored (st := ?_) ..) | (with_reducible refine stored_ite ?_ ?_) | (simp only [↓stored_eq (State.atStation_erase _ _ (Nat.and_self _)) rfl rfl]) | (with_reducible refine foldl_stored (fun t a st => ?_) _ _ ?_) | (with_reducible refine foldl1_stored (fun t a st => ?_) _ _ ?_) | (split))

theorem execEpochInstant_stored (s : State) (st : s.Stored) (tx : State) (ex : (execEpochInstant s) = .next tx) : tx.Stored := by
  unfold execEpochInstant done at ex
  injection ex with ex
  subst ex
  repeat' (first | (with_reducible exact st) | (with_reducible refine epochInstant_stored (st := ?_) ..) | (with_reducible refine stored_ite ?_ ?_) | (with_reducible refine foldl_stored (fun t a st => ?_) _ _ ?_) | (with_reducible refine foldl1_stored (fun t a st => ?_) _ _ ?_) | (split))

theorem fixEventInstant_stored (s : State) (n : ℕ) (tick : ℕ) (rap : Rap) (st : s.Stored) : State.Stored (fixEventInstant s n tick rap) := by
  unfold fixEventInstant
  repeat' (first | (with_reducible exact st) | (with_reducible refine reachInstant_stored (st := ?_) ..) | (with_reducible refine stored_ite ?_ ?_) | (with_reducible refine foldl_stored (fun t a st => ?_) _ _ ?_) | (with_reducible refine foldl1_stored (fun t a st => ?_) _ _ ?_) | (split))

theorem dropOldTiles_stored (s : State) (st : s.Stored) : State.Stored (dropOldTiles s) := by
  unfold dropOldTiles
  repeat' (first | (with_reducible exact st) | (with_reducible refine abandonTile_stored (st := ?_) ..) | (with_reducible refine stored_ite ?_ ?_) | (simp only [↓stored_eq (State.modEngine_erase _ _ _ (Nat.and_self _)) rfl rfl]) | (with_reducible refine foldl_stored (fun t a st => ?_) _ _ ?_) | (with_reducible refine foldl1_stored (fun t a st => ?_) _ _ ?_) | (split))

theorem drainExpiry_stored (s : State) (st : s.Stored) : State.Stored (drainExpiry s) := by
  unfold drainExpiry
  repeat' (first | (with_reducible exact st) | (with_reducible refine dropOldTiles_stored (st := ?_) ..) | (with_reducible refine stored_ite ?_ ?_) | (simp only [↓stored_eq (State.atStation_erase _ _ (Nat.and_self _)) rfl rfl, ↓stored_eq (dispatch_erase _ (Nat.and_self _)) rfl rfl, ↓stored_eq (dropOldResults_erase _ (Nat.and_self _)) rfl rfl, ↓stored_eq (dropOldWork_erase _ (Nat.and_self _)) rfl rfl, ↓stored_eq (dropOldStream_erase _ _ (Nat.and_self _)) rfl rfl, ↓stored_eq (restartStream_erase _ _ (Nat.and_self _)) rfl rfl, ↓stored_eq (finishDrain_erase _ _ (Nat.and_self _)) rfl rfl, ↓stored_eq (put_stl_saf _ (Nat.and_self _)) rfl rfl]) | (with_reducible refine foldl_stored (fun t a st => ?_) _ _ ?_) | (with_reducible refine foldl1_stored (fun t a st => ?_) _ _ ?_) | (split))

theorem execDrainBoundExpiry_stored (s : State) (st : s.Stored) (tx : State) (ex : (execDrainBoundExpiry s) = .next tx) : tx.Stored := by
  unfold execDrainBoundExpiry done at ex
  injection ex with ex
  subst ex
  repeat' (first | (with_reducible exact st) | (with_reducible refine drainExpiry_stored (st := ?_) ..) | (with_reducible refine stored_ite ?_ ?_) | (with_reducible refine foldl_stored (fun t a st => ?_) _ _ ?_) | (with_reducible refine foldl1_stored (fun t a st => ?_) _ _ ?_) | (split))

theorem passInstant_stored (s : State) (st : s.Stored) : State.Stored (passInstant s) := by
  unfold passInstant
  repeat' (first | (with_reducible exact st) | (with_reducible refine epochInstant_stored (st := ?_) ..) | (with_reducible refine stored_ite ?_ ?_) | (simp only [↓stored_eq (preInstant_erase _ (Nat.and_self _)) rfl rfl]) | (with_reducible refine foldl_stored (fun t a st => ?_) _ _ ?_) | (with_reducible refine foldl1_stored (fun t a st => ?_) _ _ ?_) | (split))

theorem passDrain_stored (s : State) (st : s.Stored) : State.Stored (passDrain s) := by
  unfold passDrain
  repeat' (first | (with_reducible exact st) | (with_reducible refine drainExpiry_stored (st := ?_) ..) | (with_reducible refine stored_ite ?_ ?_) | (with_reducible refine foldl_stored (fun t a st => ?_) _ _ ?_) | (with_reducible refine foldl1_stored (fun t a st => ?_) _ _ ?_) | (split))

theorem reachPassed_stored (s : State) (st : s.Stored) : State.Stored (reachPassed s) := by
  unfold reachPassed
  repeat' (first | (with_reducible exact st) | (with_reducible refine passDrain_stored (st := ?_) ..) | (with_reducible refine passInstant_stored (st := ?_) ..) | (with_reducible refine stored_ite ?_ ?_) | (simp only [↓stored_eq (passPictures_erase _ (Nat.and_self _)) rfl rfl, ↓stored_eq (passDecisions_erase _ (Nat.and_self _)) rfl rfl, ↓stored_eq (passDeadlines_erase _ (Nat.and_self _)) rfl rfl]) | (with_reducible refine foldl_stored (fun t a st => ?_) _ _ ?_) | (with_reducible refine foldl1_stored (fun t a st => ?_) _ _ ?_) | (split))

theorem withStep_stored (s s1 : State) (st : s1.Stored) : (withStep s s1).Stored := by
  unfold withStep
  split
  · exact reachPassed_stored _ st
  · exact st

theorem execPtpSync_stored (port : ℕ) (domain : ℕ) (sender : ℕ) (twoStep : Bool) (origin : ℤ) (correction : ℤ) (rxMac : ℤ) (s : State) (st : s.Stored) (tx : State) (ex : (execPtpSync port domain sender twoStep origin correction rxMac s) = .next tx) : tx.Stored := by
  unfold execPtpSync done at ex
  injection ex with ex
  subst ex
  repeat' (first | (with_reducible exact st) | (with_reducible refine withStep_stored (st := ?_) ..) | (with_reducible refine stored_ite ?_ ?_) | (simp only [↓stored_eq (syncReceived_erase _ _ _ _ _ _ _ _ (Nat.and_self _)) rfl rfl]) | (with_reducible refine foldl_stored (fun t a st => ?_) _ _ ?_) | (with_reducible refine foldl1_stored (fun t a st => ?_) _ _ ?_) | (split))

theorem execPtpFollowUp_stored (port : ℕ) (domain : ℕ) (sender : ℕ) (origin : ℤ) (correction : ℤ) (s : State) (st : s.Stored) (tx : State) (ex : (execPtpFollowUp port domain sender origin correction s) = .next tx) : tx.Stored := by
  unfold execPtpFollowUp done at ex
  injection ex with ex
  subst ex
  repeat' (first | (with_reducible exact st) | (with_reducible refine withStep_stored (st := ?_) ..) | (with_reducible refine stored_ite ?_ ?_) | (simp only [↓stored_eq (followUpReceived_erase _ _ _ _ _ _ (Nat.and_self _)) rfl rfl]) | (with_reducible refine foldl_stored (fun t a st => ?_) _ _ ?_) | (with_reducible refine foldl1_stored (fun t a st => ?_) _ _ ?_) | (split))

theorem execTimeinPulse_stored (s : State) (st : s.Stored) (tx : State) (ex : (execTimeinPulse s) = .next tx) : tx.Stored := by
  unfold execTimeinPulse done at ex
  injection ex with ex
  subst ex
  repeat' (first | (with_reducible exact st) | (with_reducible refine withStep_stored (st := ?_) ..) | (with_reducible refine stored_ite ?_ ?_) | (simp only [↓stored_eq (pulseTaken_erase _ (Nat.and_self _)) rfl rfl, ↓stored_eq (pulseRejected_erase _ (Nat.and_self _)) rfl rfl]) | (with_reducible refine foldl_stored (fun t a st => ?_) _ _ ?_) | (with_reducible refine foldl1_stored (fun t a st => ?_) _ _ ?_) | (split))

theorem execStationTimeStep_stored (s : State) (st : s.Stored) (tx : State) (ex : (execStationTimeStep s) = .next tx) : tx.Stored := by
  unfold execStationTimeStep done at ex
  injection ex with ex
  subst ex
  repeat' (first | (with_reducible exact st) | (with_reducible refine reachPassed_stored (st := ?_) ..) | (with_reducible refine stored_ite ?_ ?_) | (simp only [↓stored_eq (State.atElapsed_erase _ _ (Nat.and_self _)) rfl rfl, ↓stored_eq (State.timRecord_erase _ _ _ _ _ (Nat.and_self _)) rfl rfl, ↓stored_eq (State.fixQuality_erase _ (Nat.and_self _)) rfl rfl, ↓stored_eq (put_time _ (Nat.and_self _)) rfl rfl]) | (with_reducible refine foldl_stored (fun t a st => ?_) _ _ ?_) | (with_reducible refine foldl1_stored (fun t a st => ?_) _ _ ?_) | (split))

theorem State.hostStore_stored (s : State) (h : ℕ) (bs : List Byte) (st : s.Stored) : (s.hostStore h bs).Stored := by
  have e := stored_of_erase (touchPages_erase s h bs.length (Nat.and_self _)) rfl rfl st
  exact ⟨memWrite_wf _ _ _ e.1, e.2⟩

theorem execBar2Write_stored (off : ℕ) (bytes : List Byte) (s : State) (st : s.Stored) (tx : State) (ex : (execBar2Write off bytes s) = .next tx) : tx.Stored := by
  unfold execBar2Write done at ex
  injection ex with ex
  subst ex
  repeat' (first | (with_reducible exact st) | (with_reducible refine State.store_stored (st := ?_) ..) | (with_reducible refine stored_ite ?_ ?_) | (simp only [↓stored_eq (put_pci _ (Nat.and_self _)) rfl rfl]) | (with_reducible refine foldl_stored (fun t a st => ?_) _ _ ?_) | (with_reducible refine foldl1_stored (fun t a st => ?_) _ _ ?_) | (split))

theorem deliverRecord_stored (s : State) (bs : List Byte) (st : s.Stored) : State.Stored (deliverRecord s bs) := by
  unfold deliverRecord
  repeat' (first | (with_reducible exact st) | (with_reducible refine State.hostStore_stored (st := ?_) ..) | (with_reducible refine stored_ite ?_ ?_) | (simp only [↓stored_eq (put_pci _ (Nat.and_self _)) rfl rfl]) | (with_reducible refine foldl_stored (fun t a st => ?_) _ _ ?_) | (with_reducible refine foldl1_stored (fun t a st => ?_) _ _ ?_) | (split))

theorem deliverGap_stored (s : State) (st : s.Stored) : State.Stored (deliverGap s) := by
  unfold deliverGap
  repeat' (first | (with_reducible exact st) | (with_reducible refine deliverRecord_stored (st := ?_) ..) | (with_reducible refine stored_ite ?_ ?_) | (simp only [↓stored_eq (State.raise_erase _ _ (Nat.and_self _)) rfl rfl, ↓stored_eq (put_journal _ (Nat.and_self _)) rfl rfl]) | (with_reducible refine foldl_stored (fun t a st => ?_) _ _ ?_) | (with_reducible refine foldl1_stored (fun t a st => ?_) _ _ ?_) | (split))

theorem deliverNext_stored (s : State) (st : s.Stored) : State.Stored (deliverNext s) := by
  unfold deliverNext
  repeat' (first | (with_reducible exact st) | (with_reducible refine deliverGap_stored (st := ?_) ..) | (with_reducible refine deliverRecord_stored (st := ?_) ..) | (with_reducible refine stored_ite ?_ ?_) | (simp only [↓stored_eq (put_journal_pci _ (Nat.and_self _)) rfl rfl]) | (with_reducible refine foldl_stored (fun t a st => ?_) _ _ ?_) | (with_reducible refine foldl1_stored (fun t a st => ?_) _ _ ?_) | (split))

theorem deliverBurst_stored (y0 : ℕ) (y1 : State) (st : y1.Stored) : State.Stored (deliverBurst y0 y1) := by
  induction y0 generalizing y1 with
  | zero => exact st
  | succ k ih =>
    unfold deliverBurst
    repeat' (first | (with_reducible exact st) | (with_reducible refine deliverNext_stored (st := ?_) ..) | (with_reducible refine stored_ite ?_ ?_) | (with_reducible refine ih (st := ?_) ..) | (with_reducible refine foldl_stored (fun t a st => ?_) _ _ ?_) | (with_reducible refine foldl1_stored (fun t a st => ?_) _ _ ?_) | (split))

theorem execJournalRingDeliver_stored (count : ℕ) (s : State) (st : s.Stored) (tx : State) (ex : (execJournalRingDeliver count s) = .next tx) : tx.Stored := by
  unfold execJournalRingDeliver done at ex
  injection ex with ex
  subst ex
  repeat' (first | (with_reducible exact st) | (with_reducible refine deliverBurst_stored (st := ?_) ..) | (with_reducible refine State.hostStore_stored (st := ?_) ..) | (with_reducible refine stored_ite ?_ ?_) | (simp only [↓stored_eq (readConsumed_erase _ (Nat.and_self _)) rfl rfl, ↓stored_eq (State.raise_erase _ _ (Nat.and_self _)) rfl rfl, ↓stored_eq (moderate_erase _ (Nat.and_self _)) rfl rfl, ↓stored_eq (put_pci _ (Nat.and_self _)) rfl rfl]) | (with_reducible refine foldl_stored (fun t a st => ?_) _ _ ?_) | (with_reducible refine foldl1_stored (fun t a st => ?_) _ _ ?_) | (split))

theorem writeTrace_stored (s : State) (r : TraceRec) (st : s.Stored) : State.Stored (writeTrace s r) := by
  unfold writeTrace
  repeat' (first | (with_reducible exact st) | (with_reducible refine State.store_stored (st := ?_) ..) | (with_reducible refine stored_ite ?_ ?_) | (simp only [↓stored_eq (traceRecord_erase _ (Nat.and_self _)) rfl rfl, ↓stored_eq (put_dbg _ (Nat.and_self _)) rfl rfl]) | (with_reducible refine foldl_stored (fun t a st => ?_) _ _ ?_) | (with_reducible refine foldl1_stored (fun t a st => ?_) _ _ ?_) | (split))

theorem execTraceBufferFlush_stored (cls : ℕ) (inst : ℕ) (s : State) (st : s.Stored) (tx : State) (ex : (execTraceBufferFlush cls inst s) = .next tx) : tx.Stored := by
  unfold execTraceBufferFlush done at ex
  injection ex with ex
  subst ex
  repeat' (first | (with_reducible exact st) | (with_reducible refine writeTrace_stored (st := ?_) ..) | (with_reducible refine stored_ite ?_ ?_) | (simp only [↓stored_eq (put_dbg _ (Nat.and_self _)) rfl rfl]) | (with_reducible refine foldl_stored (fun t a st => ?_) _ _ ?_) | (with_reducible refine foldl1_stored (fun t a st => ?_) _ _ ?_) | (split))

theorem completeCopy_stored (s : State) (w : ℕ) (slot : ℕ) (sats : ℕ) (failed : Bool) (st : s.Stored) : State.Stored (completeCopy s w slot sats failed) := by
  unfold completeCopy
  repeat' (first | (with_reducible exact st) | (with_reducible refine State.store_stored (st := ?_) ..) | (with_reducible refine State.hostStore_stored (st := ?_) ..) | (with_reducible refine stored_ite ?_ ?_) | (simp only [↓stored_eq (stopWatch_erase _ _ _ (Nat.and_self _)) rfl rfl, ↓stored_eq (State.setWatch_erase _ _ _ (Nat.and_self _)) rfl rfl, ↓stored_eq (endWatch_erase _ _ _ _ (Nat.and_self _)) rfl rfl, ↓stored_eq (chargeCopy_erase _ _ _ (Nat.and_self _)) rfl rfl, ↓stored_eq (put_free _ (Nat.and_self _)) rfl rfl]) | (with_reducible refine foldl_stored (fun t a st => ?_) _ _ ?_) | (with_reducible refine foldl1_stored (fun t a st => ?_) _ _ ?_) | (split))

theorem execWatchCopyComplete_stored (w : ℕ) (slot : ℕ) (sats : ℕ) (hostWriteFailed : Bool) (s : State) (st : s.Stored) (tx : State) (ex : (execWatchCopyComplete w slot sats hostWriteFailed s) = .next tx) : tx.Stored := by
  unfold execWatchCopyComplete done at ex
  injection ex with ex
  subst ex
  repeat' (first | (with_reducible exact st) | (with_reducible refine completeCopy_stored (st := ?_) ..) | (with_reducible refine stored_ite ?_ ?_) | (with_reducible refine foldl_stored (fun t a st => ?_) _ _ ?_) | (with_reducible refine foldl1_stored (fun t a st => ?_) _ _ ?_) | (split))

theorem halt_stored (s : State) (op : ℕ) (immediate : Bool) (st : s.Stored) : State.Stored (halt s op immediate) := by
  unfold halt
  repeat' (first | (with_reducible exact st) | (with_reducible refine globalStop_stored (st := ?_) ..) | (with_reducible refine stored_ite ?_ ?_) | (simp only [↓stored_eq (State.countReject_erase _ _ _ (Nat.and_self _)) rfl rfl, ↓stored_eq (State.dbgStatus_erase _ _ (Nat.and_self _)) rfl rfl, ↓stored_eq (stopRecord_erase _ (Nat.and_self _)) rfl rfl, ↓stored_eq (put_flt _ (Nat.and_self _)) rfl rfl]) | (with_reducible refine foldl_stored (fun t a st => ?_) _ _ ?_) | (with_reducible refine foldl1_stored (fun t a st => ?_) _ _ ?_) | (split))

theorem execHalt_stored (s : State) (st : s.Stored) (tx : State) (ex : (execHalt s) = .next tx) : tx.Stored := by
  unfold execHalt done at ex
  injection ex with ex
  subst ex
  repeat' (first | (with_reducible exact st) | (with_reducible refine halt_stored (st := ?_) ..) | (with_reducible refine stored_ite ?_ ?_) | (with_reducible refine foldl_stored (fun t a st => ?_) _ _ ?_) | (with_reducible refine foldl1_stored (fun t a st => ?_) _ _ ?_) | (split))

theorem execHaltImmediate_stored (s : State) (st : s.Stored) (tx : State) (ex : (execHaltImmediate s) = .next tx) : tx.Stored := by
  unfold execHaltImmediate done at ex
  injection ex with ex
  subst ex
  repeat' (first | (with_reducible exact st) | (with_reducible refine halt_stored (st := ?_) ..) | (with_reducible refine stored_ite ?_ ?_) | (with_reducible refine foldl_stored (fun t a st => ?_) _ _ ?_) | (with_reducible refine foldl1_stored (fun t a st => ?_) _ _ ?_) | (split))

theorem resetState_stored (s : State) (st : s.Stored) : (resetState s).Stored := ⟨filter_memWf _ _ st.1, rfl⟩

theorem execResetAssert_stored (width : ℕ) (s : State) (st : s.Stored) (tx : State) (ex : (execResetAssert width s) = .next tx) : tx.Stored := by
  unfold execResetAssert done at ex
  injection ex with ex
  subst ex
  repeat' (first | (with_reducible exact st) | (with_reducible refine resetState_stored (st := ?_) ..) | (with_reducible refine stored_ite ?_ ?_) | (simp only [↓stored_eq (State.nextFree_erase _ (Nat.and_self _)) rfl rfl, ↓stored_eq (put_pins _ (Nat.and_self _)) rfl rfl]) | (with_reducible refine foldl_stored (fun t a st => ?_) _ _ ?_) | (with_reducible refine foldl1_stored (fun t a st => ?_) _ _ ?_) | (split))

theorem execPwrgoodFall_stored (s : State) (st : s.Stored) (tx : State) (ex : (execPwrgoodFall s) = .next tx) : tx.Stored := by
  unfold execPwrgoodFall done at ex
  injection ex with ex
  subst ex
  repeat' (first | (with_reducible exact st) | (with_reducible refine resetState_stored (st := ?_) ..) | (with_reducible refine stored_ite ?_ ?_) | (simp only [↓stored_eq (put_pins _ (Nat.and_self _)) rfl rfl]) | (with_reducible refine foldl_stored (fun t a st => ?_) _ _ ?_) | (with_reducible refine foldl1_stored (fun t a st => ?_) _ _ ?_) | (split))

theorem dramTrained_stored (s : State) (ok0 : Bool) (ok1 : Bool) (st : s.Stored) : State.Stored (dramTrained s ok0 ok1) := by
  unfold dramTrained
  repeat' (first | (with_reducible exact st) | (with_reducible refine chipFatal_stored (st := ?_) ..) | (with_reducible refine stored_ite ?_ ?_) | (simp only [↓stored_eq (State.modDram_erase _ _ _ (Nat.and_self _)) rfl rfl, ↓stored_eq (put_boot _ (Nat.and_self _)) rfl rfl]) | (with_reducible refine foldl_stored (fun t a st => ?_) _ _ ?_) | (with_reducible refine foldl1_stored (fun t a st => ?_) _ _ ?_) | (split))

theorem execDramTrainingComplete_stored (ok0 : Bool) (ok1 : Bool) (s : State) (st : s.Stored) (tx : State) (ex : (execDramTrainingComplete ok0 ok1 s) = .next tx) : tx.Stored := by
  unfold execDramTrainingComplete done at ex
  injection ex with ex
  subst ex
  repeat' (first | (with_reducible exact st) | (with_reducible refine dramTrained_stored (st := ?_) ..) | (with_reducible refine stored_ite ?_ ?_) | (with_reducible refine foldl_stored (fun t a st => ?_) _ _ ?_) | (with_reducible refine foldl1_stored (fun t a st => ?_) _ _ ?_) | (split))

theorem readImage_stored (s : State) (slot : ℕ) (st : s.Stored) : State.Stored (readImage s slot) := by
  unfold readImage
  repeat' (first | (with_reducible exact st) | (with_reducible refine State.store_stored (st := ?_) ..) | (with_reducible refine stored_ite ?_ ?_) | (with_reducible refine foldl_stored (fun t a st => ?_) _ _ ?_) | (with_reducible refine foldl1_stored (fun t a st => ?_) _ _ ?_) | (split))

theorem execSlotReadComplete_stored (s : State) (st : s.Stored) (tx : State) (ex : (execSlotReadComplete s) = .next tx) : tx.Stored := by
  unfold execSlotReadComplete done at ex
  injection ex with ex
  subst ex
  repeat' (first | (with_reducible exact st) | (with_reducible refine readImage_stored (st := ?_) ..) | (with_reducible refine stored_ite ?_ ?_) | (simp only [↓stored_eq (setSlot_erase _ _ _ (Nat.and_self _)) rfl rfl, ↓stored_eq (slotFailed_erase _ _ (Nat.and_self _)) rfl rfl, ↓stored_eq (put_boot _ (Nat.and_self _)) rfl rfl]) | (with_reducible refine foldl_stored (fun t a st => ?_) _ _ ?_) | (with_reducible refine foldl1_stored (fun t a st => ?_) _ _ ?_) | (split))

theorem loadTables_stored (s : State) (x : Slot) (st : s.Stored) : State.Stored (loadTables s x) := by
  unfold loadTables
  repeat' (first | (with_reducible exact st) | (with_reducible refine loadSection_stored (st := ?_) ..) | (with_reducible refine State.store_stored (st := ?_) ..) | (with_reducible refine stored_ite ?_ ?_) | (with_reducible refine foldl_stored (fun t a st => ?_) _ _ ?_) | (with_reducible refine foldl1_stored (fun t a st => ?_) _ _ ?_) | (split))

theorem execFirmwareStarted_stored (s : State) (st : s.Stored) (tx : State) (ex : (execFirmwareStarted s) = .next tx) : tx.Stored := by
  unfold execFirmwareStarted done at ex
  injection ex with ex
  subst ex
  repeat' (first | (with_reducible exact st) | (with_reducible refine loadTables_stored (st := ?_) ..) | (with_reducible refine stored_ite ?_ ?_) | (simp only [↓stored_eq (State.modRegion_erase _ _ _ (Nat.and_self _)) rfl rfl, ↓stored_eq (put_boot _ (Nat.and_self _)) rfl rfl]) | (with_reducible refine foldl_stored (fun t a st => ?_) _ _ ?_) | (with_reducible refine foldl1_stored (fun t a st => ?_) _ _ ?_) | (split))

theorem loadOverlay_stored (s : State) (st : s.Stored) : State.Stored (loadOverlay s) := by
  unfold loadOverlay
  repeat' (first | (with_reducible exact st) | (with_reducible refine State.store_stored (st := ?_) ..) | (with_reducible refine stored_ite ?_ ?_) | (with_reducible refine foldl_stored (fun t a st => ?_) _ _ ?_) | (with_reducible refine foldl1_stored (fun t a st => ?_) _ _ ?_) | (split))

theorem initialCfg_stored (s1 : State) (x : Slot) (base : Cfg) (st : s1.Stored) : State.Stored (initialCfg s1 x base).1 := by
  unfold initialCfg
  repeat' (first | (with_reducible exact st) | (with_reducible refine loadOverlay_stored (st := ?_) ..) | (with_reducible refine stored_ite ?_ ?_) | (simp only [↓stored_eq (State.emit_erase _ _ (Nat.and_self _)) rfl rfl, ↓stored_eq (put_boot_flash _ (Nat.and_self _)) rfl rfl]) | (with_reducible refine foldl_stored (fun t a st => ?_) _ _ ?_) | (with_reducible refine foldl1_stored (fun t a st => ?_) _ _ ?_) | (split))

theorem startRunning_stored (s : State) (x : Slot) (base : Cfg) (st : s.Stored) : State.Stored (startRunning s x base) := by
  unfold startRunning
  repeat' (first | (with_reducible exact st) | (with_reducible refine initialCfg_stored (st := ?_) ..) | (with_reducible refine stored_ite ?_ ?_) | (simp only [↓stored_eq (runSlot_erase _ _ (Nat.and_self _)) rfl rfl, ↓stored_eq (bootRecord_erase _ (Nat.and_self _)) rfl rfl, ↓stored_eq (startStream_erase _ _ (Nat.and_self _)) rfl rfl, ↓stored_eq (settleChannels_erase _ (Nat.and_self _)) rfl rfl, ↓stored_eq (enterStart_erase _ _ (Nat.and_self _)) rfl rfl, ↓stored_eq (setDDec_erase _ (Nat.and_self _)) rfl rfl, ↓stored_eq (readoptHeads_erase _ (Nat.and_self _)) rfl rfl, ↓stored_eq (put_phase_boot_pins_layout_cfg_adapt_saf _ (Nat.and_self _)) rfl rfl]) | (with_reducible refine foldl_stored (fun t a st => ?_) _ _ ?_) | (with_reducible refine foldl1_stored (fun t a st => ?_) _ _ ?_) | (split))

theorem bootAssay_stored (s : State) (results : List AssayResult) (st : s.Stored) : State.Stored (bootAssay s results) := by
  unfold bootAssay
  repeat' (first | (with_reducible exact st) | (with_reducible refine startRunning_stored (st := ?_) ..) | (with_reducible refine stored_ite ?_ ?_) | (simp only [↓stored_eq (assignEngines_erase _ _ (Nat.and_self _)) rfl rfl, ↓stored_eq (slotFailed_erase _ _ (Nat.and_self _)) rfl rfl]) | (with_reducible refine foldl_stored (fun t a st => ?_) _ _ ?_) | (with_reducible refine foldl1_stored (fun t a st => ?_) _ _ ?_) | (split))

theorem execBootAssayComplete_stored (results : List AssayResult) (s : State) (st : s.Stored) (tx : State) (ex : (execBootAssayComplete results s) = .next tx) : tx.Stored := by
  unfold execBootAssayComplete done at ex
  injection ex with ex
  subst ex
  repeat' (first | (with_reducible exact st) | (with_reducible refine bootAssay_stored (st := ?_) ..) | (with_reducible refine stored_ite ?_ ?_) | (with_reducible refine foldl_stored (fun t a st => ?_) _ _ ?_) | (with_reducible refine foldl1_stored (fun t a st => ?_) _ _ ?_) | (split))

theorem execRebootReset_stored (s : State) (st : s.Stored) (tx : State) (ex : (execRebootReset s) = .next tx) : tx.Stored := by
  unfold execRebootReset done at ex
  injection ex with ex
  subst ex
  repeat' (first | (with_reducible exact st) | (with_reducible refine resetState_stored (st := ?_) ..) | (with_reducible refine stored_ite ?_ ?_) | (simp only [↓stored_eq (bootBegin_erase _ (Nat.and_self _)) rfl rfl, ↓stored_eq (put_boot _ (Nat.and_self _)) rfl rfl]) | (with_reducible refine foldl_stored (fun t a st => ?_) _ _ ?_) | (with_reducible refine foldl1_stored (fun t a st => ?_) _ _ ?_) | (split))

theorem writePicture_stored (s : State) (sp : SeqParams) (hidden : List ℕ) (p : Picture) (st : s.Stored) : State.Stored (writePicture s sp hidden p) := by
  unfold writePicture
  repeat' (first | (with_reducible exact st) | (with_reducible refine State.store_stored (st := ?_) ..) | (with_reducible refine stored_ite ?_ ?_) | (with_reducible refine foldl_stored (fun t a st => ?_) _ _ ?_) | (with_reducible refine foldl1_stored (fun t a st => ?_) _ _ ?_) | (split))

theorem decodedPicture_stored (s : State) (d : ℕ) (n : ℕ) (u : AccessUnit) (sp : SeqParams) (cs : List ErrClass) (o : PictureOutcome) (st : s.Stored) : State.Stored (decodedPicture s d n u sp cs o) := by
  unfold decodedPicture
  repeat' (first | (with_reducible exact st) | (with_reducible refine writePicture_stored (st := ?_) ..) | (with_reducible refine stored_ite ?_ ?_) | (simp only [↓stored_eq (resumeRecords_erase _ _ _ _ (Nat.and_self _)) rfl rfl, ↓stored_eq (State.chargeMedia_erase _ _ _ _ (Nat.and_self _)) rfl rfl, ↓stored_eq (State.nextFree_erase _ (Nat.and_self _)) rfl rfl, ↓stored_eq (State.modStream_erase _ _ _ (Nat.and_self _)) rfl rfl, ↓stored_eq (classRecords_erase _ _ _ _ _ _ _ _ (Nat.and_self _)) rfl rfl, ↓stored_eq (storePicture_erase _ _ _ _ _ (Nat.and_self _)) rfl rfl]) | (with_reducible refine foldl_stored (fun t a st => ?_) _ _ ?_) | (with_reducible refine foldl1_stored (fun t a st => ?_) _ _ ?_) | (split))

theorem liveBoundary_stored (s : State) (d : ℕ) (n : ℕ) (u : AccessUnit) (cs : List ErrClass) (o : PictureOutcome) (st : s.Stored) : State.Stored (liveBoundary s d n u cs o) := by
  unfold liveBoundary
  repeat' (first | (with_reducible exact st) | (with_reducible refine decodedPicture_stored (st := ?_) ..) | (with_reducible refine stored_ite ?_ ?_) | (simp only [↓stored_eq (State.modStream_erase _ _ _ (Nat.and_self _)) rfl rfl, ↓stored_eq (stopStream_erase _ _ _ _ _ (Nat.and_self _)) rfl rfl, ↓stored_eq (openWait_erase _ _ _ _ _ _ _ (Nat.and_self _)) rfl rfl]) | (with_reducible refine foldl_stored (fun t a st => ?_) _ _ ?_) | (with_reducible refine foldl1_stored (fun t a st => ?_) _ _ ?_) | (split))

theorem pictureBoundary_stored (s : State) (d : ℕ) (n : ℕ) (u : AccessUnit) (o : PictureOutcome) (exhausted : Bool) (st : s.Stored) : State.Stored (pictureBoundary s d n u o exhausted) := by
  unfold pictureBoundary
  repeat' (first | (with_reducible exact st) | (with_reducible refine liveBoundary_stored (st := ?_) ..) | (with_reducible refine stored_ite ?_ ?_) | (simp only [↓stored_eq (State.trace_erase _ _ _ _ _ (Nat.and_self _)) rfl rfl, ↓stored_eq (State.chargeMedia_erase _ _ _ _ (Nat.and_self _)) rfl rfl, ↓stored_eq (State.modDec_erase _ _ _ (Nat.and_self _)) rfl rfl, ↓stored_eq (replayBoundary_erase _ _ _ _ _ _ _ _ _ (Nat.and_self _)) rfl rfl, ↓stored_eq (State.modStream_erase _ _ _ (Nat.and_self _)) rfl rfl, ↓stored_eq (handOnAll_erase _ _ _ (Nat.and_self _)) rfl rfl, ↓stored_eq (dispatch_erase _ (Nat.and_self _)) rfl rfl, ↓stored_eq (decLeave_erase _ _ (Nat.and_self _)) rfl rfl]) | (with_reducible refine foldl_stored (fun t a st => ?_) _ _ ?_) | (with_reducible refine foldl1_stored (fun t a st => ?_) _ _ ?_) | (split))

theorem execDecodePictureComplete_stored (d : ℕ) (o : PictureOutcome) (s : State) (st : s.Stored) (tx : State) (ex : (execDecodePictureComplete d o s) = .next tx) : tx.Stored := by
  unfold execDecodePictureComplete done at ex
  injection ex with ex
  subst ex
  repeat' (first | (with_reducible exact st) | (with_reducible refine pictureBoundary_stored (st := ?_) ..) | (with_reducible refine stored_ite ?_ ?_) | (with_reducible refine foldl_stored (fun t a st => ?_) _ _ ?_) | (with_reducible refine foldl1_stored (fun t a st => ?_) _ _ ?_) | (split))

theorem execDecodeBudgetExhausted_stored (d : ℕ) (o : PictureOutcome) (s : State) (st : s.Stored) (tx : State) (ex : (execDecodeBudgetExhausted d o s) = .next tx) : tx.Stored := by
  unfold execDecodeBudgetExhausted done at ex
  injection ex with ex
  subst ex
  repeat' (first | (with_reducible exact st) | (with_reducible refine pictureBoundary_stored (st := ?_) ..) | (with_reducible refine stored_ite ?_ ?_) | (with_reducible refine foldl_stored (fun t a st => ?_) _ _ ?_) | (with_reducible refine foldl1_stored (fun t a st => ?_) _ _ ?_) | (split))

theorem takeDatagram_stored (s : State) (n : ℕ) (p : Rtp) (st : s.Stored) : State.Stored (takeDatagram s n p) := by
  unfold takeDatagram
  repeat' (first | (with_reducible exact st) | (with_reducible refine fixEventInstant_stored (st := ?_) ..) | (with_reducible refine stored_ite ?_ ?_) | (simp only [↓stored_eq (dispatch_erase _ (Nat.and_self _)) rfl rfl, ↓stored_eq (holdPacket_erase _ _ _ _ _ _ _ (Nat.and_self _)) rfl rfl]) | (with_reducible refine foldl_stored (fun t a st => ?_) _ _ ?_) | (with_reducible refine foldl1_stored (fun t a st => ?_) _ _ ?_) | (split))

theorem rtpDatagram_stored (s : State) (d : Datagram) (st : s.Stored) : State.Stored (rtpDatagram s d) := by
  unfold rtpDatagram
  repeat' (first | (with_reducible exact st) | (with_reducible refine takeDatagram_stored (st := ?_) ..) | (with_reducible refine stored_ite ?_ ?_) | (simp only [↓stored_eq (State.modNet_erase _ _ _ (Nat.and_self _)) rfl rfl, ↓stored_eq (put_ingUnmatched _ (Nat.and_self _)) rfl rfl]) | (with_reducible refine foldl_stored (fun t a st => ?_) _ _ ?_) | (with_reducible refine foldl1_stored (fun t a st => ?_) _ _ ?_) | (split))

theorem execRtpDatagram_stored (d : Datagram) (s : State) (st : s.Stored) (tx : State) (ex : (execRtpDatagram d s) = .next tx) : tx.Stored := by
  unfold execRtpDatagram done at ex
  injection ex with ex
  subst ex
  repeat' (first | (with_reducible exact st) | (with_reducible refine rtpDatagram_stored (st := ?_) ..) | (with_reducible refine stored_ite ?_ ?_) | (with_reducible refine foldl_stored (fun t a st => ?_) _ _ ?_) | (with_reducible refine foldl1_stored (fun t a st => ?_) _ _ ?_) | (split))

theorem completeEntry_stored (s : State) (i : ℕ) (irq : Bool) (status : ℕ) (st : s.Stored) : State.Stored (completeEntry s i irq status) := by
  unfold completeEntry
  repeat' (first | (with_reducible exact st) | (with_reducible refine State.hostStore_stored (st := ?_) ..) | (with_reducible refine stored_ite ?_ ?_) | (simp only [↓stored_eq (State.raise_erase _ _ (Nat.and_self _)) rfl rfl, ↓stored_eq (put_pci _ (Nat.and_self _)) rfl rfl]) | (with_reducible refine foldl_stored (fun t a st => ?_) _ _ ?_) | (with_reducible refine foldl1_stored (fun t a st => ?_) _ _ ?_) | (split))

theorem bitstreamPush_stored (s : State) (i : ℕ) (irq : Bool) (p : List Byte) (st : s.Stored) : State.Stored (bitstreamPush s i irq p) := by
  unfold bitstreamPush
  repeat' (first | (with_reducible exact st) | (with_reducible refine completeEntry_stored (st := ?_) ..) | (with_reducible refine stored_ite ?_ ?_) | (simp only [↓stored_eq (touchPages_erase _ _ _ (Nat.and_self _)) rfl rfl, ↓stored_eq (State.modStream_erase _ _ _ (Nat.and_self _)) rfl rfl, ↓stored_eq (put_pci _ (Nat.and_self _)) rfl rfl]) | (with_reducible refine foldl_stored (fun t a st => ?_) _ _ ?_) | (with_reducible refine foldl1_stored (fun t a st => ?_) _ _ ?_) | (split))

theorem actOn_stored (s : State) (i : ℕ) (e : List Byte) (st : s.Stored) : State.Stored (actOn s i e) := by
  unfold actOn
  repeat' (first | (with_reducible exact st) | (with_reducible refine completeEntry_stored (st := ?_) ..) | (with_reducible refine bitstreamPush_stored (st := ?_) ..) | (with_reducible refine stored_ite ?_ ?_) | (simp only [↓stored_eq (tensorEntry_erase _ _ (Nat.and_self _)) rfl rfl, ↓stored_eq (takeEvidence_erase _ _ (Nat.and_self _)) rfl rfl, ↓stored_eq (labelSample_erase _ _ (Nat.and_self _)) rfl rfl]) | (with_reducible refine foldl_stored (fun t a st => ?_) _ _ ?_) | (with_reducible refine foldl1_stored (fun t a st => ?_) _ _ ?_) | (split))

theorem takeEntries_stored (y0 : List (List Byte)) (y1 : State) (y2 : ℕ) (st : y1.Stored) : State.Stored (takeEntries y0 y1 y2).1 := by
  induction y0 generalizing y1 y2 with
  | nil => exact st
  | cons b l ih =>
    unfold takeEntries
    repeat' (first | (with_reducible exact st) | (with_reducible refine actOn_stored (st := ?_) ..) | (with_reducible refine completeEntry_stored (st := ?_) ..) | (with_reducible refine stored_ite ?_ ?_) | (simp only [↓stored_eq (advanceHead_erase _ (Nat.and_self _)) rfl rfl, ↓stored_eq (put_pci _ (Nat.and_self _)) rfl rfl]) | (with_reducible refine ih (st := ?_) ..) | (with_reducible refine foldl_stored (fun t a st => ?_) _ _ ?_) | (with_reducible refine foldl1_stored (fun t a st => ?_) _ _ ?_) | (split))

theorem fetchRing_stored (s : State) (st : s.Stored) : State.Stored (fetchRing s) := by
  unfold fetchRing
  repeat' (first | (with_reducible exact st) | (with_reducible refine takeEntries_stored (st := ?_) ..) | (with_reducible refine stored_ite ?_ ?_) | (simp only [↓stored_eq (touchPages_erase _ _ _ (Nat.and_self _)) rfl rfl, ↓stored_eq (put_pci _ (Nat.and_self _)) rfl rfl]) | (with_reducible refine foldl_stored (fun t a st => ?_) _ _ ?_) | (with_reducible refine foldl1_stored (fun t a st => ?_) _ _ ?_) | (split))

theorem commandRingFetch_stored (s : State) (st : s.Stored) : State.Stored (commandRingFetch s) := by
  unfold commandRingFetch
  repeat' (first | (with_reducible exact st) | (with_reducible refine fetchRing_stored (st := ?_) ..) | (with_reducible refine stored_ite ?_ ?_) | (simp only [↓stored_eq (fetchTime_erase _ (Nat.and_self _)) rfl rfl, ↓stored_eq (readConsumed_erase _ (Nat.and_self _)) rfl rfl, ↓stored_eq (put_pci _ (Nat.and_self _)) rfl rfl]) | (with_reducible refine foldl_stored (fun t a st => ?_) _ _ ?_) | (with_reducible refine foldl1_stored (fun t a st => ?_) _ _ ?_) | (split))

theorem execCommandRingFetch_stored (s : State) (st : s.Stored) (tx : State) (ex : (execCommandRingFetch s) = .next tx) : tx.Stored := by
  unfold execCommandRingFetch done at ex
  injection ex with ex
  subst ex
  repeat' (first | (with_reducible exact st) | (with_reducible refine commandRingFetch_stored (st := ?_) ..) | (with_reducible refine stored_ite ?_ ?_) | (with_reducible refine foldl_stored (fun t a st => ?_) _ _ ?_) | (with_reducible refine foldl1_stored (fun t a st => ?_) _ _ ?_) | (split))

theorem endPush_stored (s : State) (n : ℕ) (i : ℕ) (irq : Bool) (rest : List (ℕ × Bool × ℕ)) (status : ℕ) (st : s.Stored) : State.Stored (endPush s n i irq rest status) := by
  unfold endPush
  repeat' (first | (with_reducible exact st) | (with_reducible refine completeEntry_stored (st := ?_) ..) | (with_reducible refine stored_ite ?_ ?_) | (simp only [↓stored_eq (State.modStream_erase _ _ _ (Nat.and_self _)) rfl rfl, ↓stored_eq (put_pci _ (Nat.and_self _)) rfl rfl]) | (with_reducible refine foldl_stored (fun t a st => ?_) _ _ ?_) | (with_reducible refine foldl1_stored (fun t a st => ?_) _ _ ?_) | (split))

theorem arrivePush_stored (s : State) (n : ℕ) (u : AccessUnit) (st : s.Stored) : State.Stored (arrivePush s n u) := by
  unfold arrivePush
  repeat' (first | (with_reducible exact st) | (with_reducible refine fixEventInstant_stored (st := ?_) ..) | (with_reducible refine stored_ite ?_ ?_) | (simp only [↓stored_eq (State.setStream_erase _ _ _ (Nat.and_self _)) rfl rfl, ↓stored_eq (State.streamRecord_erase _ _ _ _ _ _ _ _ _ (Nat.and_self _)) rfl rfl, ↓stored_eq (enterEs_erase _ _ _ (Nat.and_self _)) rfl rfl]) | (with_reducible refine foldl_stored (fun t a st => ?_) _ _ ?_) | (with_reducible refine foldl1_stored (fun t a st => ?_) _ _ ?_) | (split))

theorem pushComplete_stored (s : State) (n : ℕ) (st : s.Stored) : State.Stored (pushComplete s n) := by
  unfold pushComplete
  repeat' (first | (with_reducible exact st) | (with_reducible refine arrivePush_stored (st := ?_) ..) | (with_reducible refine endPush_stored (st := ?_) ..) | (with_reducible refine stored_ite ?_ ?_) | (simp only [↓stored_eq (dispatch_erase _ (Nat.and_self _)) rfl rfl]) | (with_reducible refine foldl_stored (fun t a st => ?_) _ _ ?_) | (with_reducible refine foldl1_stored (fun t a st => ?_) _ _ ?_) | (split))

theorem execPushPayloadComplete_stored (n : ℕ) (tick : ℕ) (s : State) (st : s.Stored) (tx : State) (ex : (execPushPayloadComplete n tick s) = .next tx) : tx.Stored := by
  unfold execPushPayloadComplete done at ex
  injection ex with ex
  subst ex
  repeat' (first | (with_reducible exact st) | (with_reducible refine pushComplete_stored (st := ?_) ..) | (with_reducible refine stored_ite ?_ ?_) | (with_reducible refine foldl_stored (fun t a st => ?_) _ _ ?_) | (with_reducible refine foldl1_stored (fun t a st => ?_) _ _ ?_) | (split))

theorem restartController_stored (s : State) (y1 : Ctrl) (st : s.Stored) : State.Stored (restartController s y1) := by
  unfold restartController
  repeat' (first | (with_reducible exact st) | (with_reducible refine chipFatal_stored (st := ?_) ..) | (with_reducible refine stored_ite ?_ ?_) | (simp only [↓stored_eq (restartRegion_erase _ _ (Nat.and_self _)) rfl rfl, ↓stored_eq (discardForRestart_erase _ (Nat.and_self _)) rfl rfl, ↓stored_eq (put_flt _ (Nat.and_self _)) rfl rfl]) | (with_reducible refine foldl_stored (fun t a st => ?_) _ _ ?_) | (with_reducible refine foldl1_stored (fun t a st => ?_) _ _ ?_) | (split))

theorem advanceUpdate_stored (s : State) (u : Update) (st : s.Stored) : State.Stored (advanceUpdate s u) := by
  unfold advanceUpdate
  repeat' (first | (with_reducible exact st) | (with_reducible refine stageCharter_stored (st := ?_) ..) | (with_reducible refine restartController_stored (st := ?_) ..) | (with_reducible refine stored_ite ?_ ?_) | (simp only [↓stored_eq (put_stl _ (Nat.and_self _)) rfl rfl]) | (with_reducible refine foldl_stored (fun t a st => ?_) _ _ ?_) | (with_reducible refine foldl1_stored (fun t a st => ?_) _ _ ?_) | (split))

theorem updateCommand_stored (page : Src) (s : State) (st : s.Stored) : State.Stored (updateCommand page s) := by
  unfold updateCommand
  repeat' (first | (with_reducible exact st) | (with_reducible refine advanceUpdate_stored (st := ?_) ..) | (with_reducible refine stored_ite ?_ ?_) | (simp only [↓stored_eq (State.stlReject_erase _ _ _ (Nat.and_self _)) rfl rfl, ↓stored_eq (State.pageDone_erase _ _ _ _ _ (Nat.and_self _)) rfl rfl, ↓stored_eq (State.setPage_erase _ _ _ (Nat.and_self _)) rfl rfl]) | (with_reducible refine foldl_stored (fun t a st => ?_) _ _ ?_) | (with_reducible refine foldl1_stored (fun t a st => ?_) _ _ ?_) | (split))

theorem execCharterUpdate_stored (page : Src) (via : Src) (s : State) (st : s.Stored) (tx : State) (ex : (execCharterUpdate page via s) = .next tx) : tx.Stored := by
  unfold execCharterUpdate done at ex
  injection ex with ex
  subst ex
  repeat' (first | (with_reducible exact st) | (with_reducible refine updateCommand_stored (st := ?_) ..) | (refine stlCommand_stored _ _ _ _ _ (fun t st => ?_) ?_) | (with_reducible refine stored_ite ?_ ?_) | (with_reducible refine foldl_stored (fun t a st => ?_) _ _ ?_) | (with_reducible refine foldl1_stored (fun t a st => ?_) _ _ ?_) | (split))

theorem rollNext_stored (s : State) (agreed : Bool) (st : s.Stored) : State.Stored (rollNext s agreed) := by
  unfold rollNext
  repeat' (first | (with_reducible exact st) | (with_reducible refine advanceUpdate_stored (st := ?_) ..) | (with_reducible refine restartController_stored (st := ?_) ..) | (with_reducible refine stored_ite ?_ ?_) | (simp only [↓stored_eq (State.atElapsed_erase _ _ (Nat.and_self _)) rfl rfl, ↓stored_eq (put_stl _ (Nat.and_self _)) rfl rfl]) | (with_reducible refine foldl_stored (fun t a st => ?_) _ _ ?_) | (with_reducible refine foldl1_stored (fun t a st => ?_) _ _ ?_) | (split))

theorem execRollingRestartNext_stored (agreed : Bool) (s : State) (st : s.Stored) (tx : State) (ex : (execRollingRestartNext agreed s) = .next tx) : tx.Stored := by
  unfold execRollingRestartNext done at ex
  injection ex with ex
  subst ex
  repeat' (first | (with_reducible exact st) | (with_reducible refine rollNext_stored (st := ?_) ..) | (with_reducible refine stored_ite ?_ ?_) | (with_reducible refine foldl_stored (fun t a st => ?_) _ _ ?_) | (with_reducible refine foldl1_stored (fun t a st => ?_) _ _ ?_) | (split))

theorem execReferenceClockLoss_stored (c : RefClock) (s : State) (st : s.Stored) (tx : State) (ex : (execReferenceClockLoss c s) = .next tx) : tx.Stored := by
  unfold execReferenceClockLoss done at ex
  injection ex with ex
  subst ex
  repeat' (first | (with_reducible exact st) | (with_reducible refine chipFatal_stored (st := ?_) ..) | (with_reducible refine stored_ite ?_ ?_) | (simp only [↓stored_eq (endpointReset_erase _ _ (Nat.and_self _)) rfl rfl, ↓stored_eq (bothPortsDown_erase _ (Nat.and_self _)) rfl rfl, ↓stored_eq (put_pins _ (Nat.and_self _)) rfl rfl]) | (with_reducible refine foldl_stored (fun t a st => ?_) _ _ ?_) | (with_reducible refine foldl1_stored (fun t a st => ?_) _ _ ?_) | (split))

theorem droopTile_stored (s : State) (p : ℕ) (st : s.Stored) : State.Stored (droopTile s p) := by
  unfold droopTile
  repeat' (first | (with_reducible exact st) | (with_reducible refine abandonTile_stored (st := ?_) ..) | (with_reducible refine stored_ite ?_ ?_) | (simp only [↓stored_eq (State.corrected_erase _ _ _ _ (Nat.and_self _)) rfl rfl, ↓stored_eq (fenceIfDue_erase _ _ (Nat.and_self _)) rfl rfl, ↓stored_eq (State.modEngine_erase _ _ _ (Nat.and_self _)) rfl rfl]) | (with_reducible refine foldl_stored (fun t a st => ?_) _ _ ?_) | (with_reducible refine foldl1_stored (fun t a st => ?_) _ _ ?_) | (split))

theorem droopDie_stored (s : State) (d : ℕ) (st : s.Stored) : State.Stored (droopDie s d) := by
  unfold droopDie
  repeat' (first | (with_reducible exact st) | (with_reducible refine droopTile_stored (st := ?_) ..) | (with_reducible refine stored_ite ?_ ?_) | (simp only [↓stored_eq (put_power _ (Nat.and_self _)) rfl rfl]) | (with_reducible refine foldl_stored (fun t a st => ?_) _ _ ?_) | (with_reducible refine foldl1_stored (fun t a st => ?_) _ _ ?_) | (split))

theorem execDroopDetected_stored (d : Die) (s : State) (st : s.Stored) (tx : State) (ex : (execDroopDetected d s) = .next tx) : tx.Stored := by
  unfold execDroopDetected done at ex
  injection ex with ex
  subst ex
  repeat' (first | (with_reducible exact st) | (with_reducible refine droopDie_stored (st := ?_) ..) | (with_reducible refine stored_ite ?_ ?_) | (simp only [↓stored_eq (droopMedia_erase _ (Nat.and_self _)) rfl rfl]) | (with_reducible refine foldl_stored (fun t a st => ?_) _ _ ?_) | (with_reducible refine foldl1_stored (fun t a st => ?_) _ _ ?_) | (split))

theorem execThermalTrip_stored (s : State) (st : s.Stored) (tx : State) (ex : (execThermalTrip s) = .next tx) : tx.Stored := by
  unfold execThermalTrip done at ex
  injection ex with ex
  subst ex
  repeat' (first | (with_reducible exact st) | (with_reducible refine chipFatal_stored (st := ?_) ..) | (with_reducible refine stored_ite ?_ ?_) | (simp only [↓stored_eq (put_pins _ (Nat.and_self _)) rfl rfl]) | (with_reducible refine foldl_stored (fun t a st => ?_) _ _ ?_) | (with_reducible refine foldl1_stored (fun t a st => ?_) _ _ ?_) | (split))

theorem writeStlCmd_stored (s : State) (page via : Src) (v : Nat) (st : s.Stored) : (writeStlCmd s page via v).Stored := by
  unfold writeStlCmd
  refine after_stored _ _ st (fun t e => ?_)
  split at e
  · exact stored_of_erase (execStlOpen_erase page via s (Nat.and_self _) t e) rfl rfl st
  split at e
  · exact stored_of_erase (execStlStage_erase page via _ s (Nat.and_self _) t e) rfl rfl st
  split at e
  · exact stored_of_erase (execStlCheck_erase page via s (Nat.and_self _) t e) rfl rfl st
  split at e
  · exact stored_of_erase (execCommitAtTime_erase page via s (Nat.and_self _) t e) rfl rfl st
  split at e
  · exact stored_of_erase (execCommitAtEvent_erase page via s (Nat.and_self _) t e) rfl rfl st
  split at e
  · exact stored_of_erase (execStlAbort_erase page via s (Nat.and_self _) t e) rfl rfl st
  split at e
  · exact stored_of_erase (execStlDiscard_erase page via s (Nat.and_self _) t e) rfl rfl st
  split at e
  · exact stored_of_erase (execFlashProgram_erase page via _ s (Nat.and_self _) t e) rfl rfl st
  split at e
  · exact stored_of_erase (execVerifySlot_erase page via _ s (Nat.and_self _) t e) rfl rfl st
  split at e
  · exact execCharterUpdate_stored page via s st t e
  split at e
  · exact stored_of_erase (execReboot_erase page via _ s (Nat.and_self _) t e) rfl rfl st
  unfold done at e
  injection e with e
  subst e
  exact stlCommand_stored _ _ _ _ _ (fun t st => stored_of_erase (State.pageDone_erase _ _ _ _ _ (Nat.and_self _)) rfl rfl st) st

theorem writeDbgCmd_stored (s : State) (v : Nat) (st : s.Stored) : (writeDbgCmd s v).Stored := by
  unfold writeDbgCmd
  refine after_stored _ _ st (fun t e => ?_)
  split at e
  · exact execHalt_stored s st t e
  split at e
  · exact execHaltImmediate_stored s st t e
  split at e
  · exact stored_of_erase (execReleaseHalt_erase s (Nat.and_self _) t e) rfl rfl st
  unfold done at e
  injection e with e
  subst e
  exact stored_of_erase (State.dbgStatus_erase _ _ (Nat.and_self _)) rfl rfl st

theorem writeStl_stored (s : State) (via : Src) (o : ℕ) (v : ℕ) (st : s.Stored) : State.Stored (writeStl s via o v) := by
  unfold writeStl
  repeat' (first | (with_reducible exact st) | (with_reducible refine writeStlCmd_stored (st := ?_) ..) | (with_reducible refine stored_ite ?_ ?_) | (simp only [↓stored_eq (State.setPage_erase _ _ _ (Nat.and_self _)) rfl rfl]) | (with_reducible refine foldl_stored (fun t a st => ?_) _ _ ?_) | (with_reducible refine foldl1_stored (fun t a st => ?_) _ _ ?_) | (split))

theorem writeDbg_stored (s : State) (o : ℕ) (v : ℕ) (st : s.Stored) : State.Stored (writeDbg s o v) := by
  unfold writeDbg
  repeat' (first | (with_reducible exact st) | (with_reducible refine writeDbgCmd_stored (st := ?_) ..) | (with_reducible refine stored_ite ?_ ?_) | (simp only [↓stored_eq (writeTraceCtrl_erase _ _ (Nat.and_self _)) rfl rfl, ↓stored_eq (State.setWatch_erase _ _ _ (Nat.and_self _)) rfl rfl, ↓stored_eq (writeWatchCtrl_erase _ _ _ (Nat.and_self _)) rfl rfl, ↓stored_eq (put_dbg _ (Nat.and_self _)) rfl rfl]) | (with_reducible refine foldl_stored (fun t a st => ?_) _ _ ?_) | (with_reducible refine foldl1_stored (fun t a st => ?_) _ _ ?_) | (split))

theorem writeReg_stored (s : State) (via : Src) (off : ℕ) (v : ℕ) (st : s.Stored) : State.Stored (writeReg s via off v) := by
  unfold writeReg
  repeat' (first | (with_reducible exact st) | (with_reducible refine writeStl_stored (st := ?_) ..) | (with_reducible refine writeDbg_stored (st := ?_) ..) | (with_reducible refine stored_ite ?_ ?_) | (simp only [↓stored_eq (writeChp_erase _ _ _ (Nat.and_self _)) rfl rfl, ↓stored_eq (writeEng_erase _ _ _ _ (Nat.and_self _)) rfl rfl, ↓stored_eq (writePci_erase _ _ _ (Nat.and_self _)) rfl rfl, ↓stored_eq (writeTim_erase _ _ _ (Nat.and_self _)) rfl rfl, ↓stored_eq (writeSec_erase _ _ _ (Nat.and_self _)) rfl rfl, ↓stored_eq (writeObsSel_erase _ _ (Nat.and_self _)) rfl rfl]) | (with_reducible refine foldl_stored (fun t a st => ?_) _ _ ?_) | (with_reducible refine foldl1_stored (fun t a st => ?_) _ _ ?_) | (split))

theorem writeWordsOf_stored (via : Src) (s : State) (ws : List (ℕ × ℕ)) (st : s.Stored) : State.Stored (writeWordsOf via s ws) := by
  unfold writeWordsOf
  repeat' (first | (with_reducible exact st) | (with_reducible refine writeReg_stored (st := ?_) ..) | (with_reducible refine stored_ite ?_ ?_) | (with_reducible refine foldl_stored (fun t a st => ?_) _ _ ?_) | (with_reducible refine foldl1_stored (fun t a st => ?_) _ _ ?_) | (split))

theorem regWrite_stored (s : State) (src : Src) (off : ℕ) (width : ℕ) (v : ℕ) (st : s.Stored) : State.Stored (regWrite s src off width v) := by
  unfold regWrite
  repeat' (first | (with_reducible exact st) | (with_reducible refine writeWordsOf_stored (st := ?_) ..) | (with_reducible refine stored_ite ?_ ?_) | (simp only [↓stored_eq (State.countIgnored_erase _ (Nat.and_self _)) rfl rfl, ↓stored_eq (State.countReject_erase _ _ _ (Nat.and_self _)) rfl rfl]) | (with_reducible refine foldl_stored (fun t a st => ?_) _ _ ?_) | (with_reducible refine foldl1_stored (fun t a st => ?_) _ _ ?_) | (split))

theorem execRegisterWrite_stored (src : Src) (off : ℕ) (width : ℕ) (value : W64) (s : State) (st : s.Stored) (tx : State) (ex : (execRegisterWrite src off width value s) = .next tx) : tx.Stored := by
  unfold execRegisterWrite done at ex
  injection ex with ex
  subst ex
  repeat' (first | (with_reducible exact st) | (with_reducible refine regWrite_stored (st := ?_) ..) | (with_reducible refine stored_ite ?_ ?_) | (with_reducible refine foldl_stored (fun t a st => ?_) _ _ ?_) | (with_reducible refine foldl1_stored (fun t a st => ?_) _ _ ?_) | (split))

theorem execSmbusWrite_stored (bytes : List Byte) (pecOk : Bool) (s : State) (st : s.Stored) (tx : State) (ex : (execSmbusWrite bytes pecOk s) = .next tx) : tx.Stored := by
  unfold execSmbusWrite done at ex
  injection ex with ex
  subst ex
  repeat' (first | (with_reducible exact st) | (with_reducible refine regWrite_stored (st := ?_) ..) | (with_reducible refine stored_ite ?_ ?_) | (simp only [↓stored_eq (State.ack_erase _ _ (Nat.and_self _)) rfl rfl, ↓stored_eq (put_smbOffset _ (Nat.and_self _)) rfl rfl]) | (with_reducible refine foldl_stored (fun t a st => ?_) _ _ ?_) | (with_reducible refine foldl1_stored (fun t a st => ?_) _ _ ?_) | (split))

theorem dmaRegisters_stored (s : State) (o : ℕ) (bs : List Byte) (st : s.Stored) : State.Stored (dmaRegisters s o bs) := by
  unfold dmaRegisters
  repeat' (first | (with_reducible exact st) | (with_reducible refine regWrite_stored (st := ?_) ..) | (with_reducible refine stored_ite ?_ ?_) | (simp only [↓stored_eq (State.countIgnored_erase _ (Nat.and_self _)) rfl rfl]) | (with_reducible refine foldl_stored (fun t a st => ?_) _ _ ?_) | (with_reducible refine foldl1_stored (fun t a st => ?_) _ _ ?_) | (split))

theorem dmaHost_stored (s : State) (h : ℕ) (bs : List Byte) (mark : Bool) (st : s.Stored) : State.Stored (dmaHost s h bs mark) := by
  unfold dmaHost
  repeat' (first | (with_reducible exact st) | (with_reducible refine State.hostStore_stored (st := ?_) ..) | (with_reducible refine stored_ite ?_ ?_) | (simp only [↓stored_eq (put_pci _ (Nat.and_self _)) rfl rfl]) | (with_reducible refine foldl_stored (fun t a st => ?_) _ _ ?_) | (with_reducible refine foldl1_stored (fun t a st => ?_) _ _ ?_) | (split))

theorem dmaPiece_stored (s : State) (a : ℕ) (bs : List Byte) (mark : Bool) (st : s.Stored) : State.Stored (dmaPiece s a bs mark) := by
  unfold dmaPiece
  repeat' (first | (with_reducible exact st) | (with_reducible refine State.store_stored (st := ?_) ..) | (with_reducible refine dmaRegisters_stored (st := ?_) ..) | (with_reducible refine dmaHost_stored (st := ?_) ..) | (with_reducible refine stored_ite ?_ ?_) | (with_reducible refine foldl_stored (fun t a st => ?_) _ _ ?_) | (with_reducible refine foldl1_stored (fun t a st => ?_) _ _ ?_) | (split))

theorem dmaRow_stored (s : State) (host : HostData) (src : ℕ) (dst : ℕ) (n : ℕ) (st : s.Stored) : State.Stored (dmaRow s host src dst n) := by
  unfold dmaRow
  repeat' (first | (with_reducible exact st) | (with_reducible refine dmaPiece_stored (st := ?_) ..) | (with_reducible refine stored_ite ?_ ?_) | (with_reducible refine foldl_stored (fun t a st => ?_) _ _ ?_) | (with_reducible refine foldl1_stored (fun t a st => ?_) _ _ ?_) | (split))

theorem dmaRows_stored (host : HostData) (till : ℕ) (c : DmaCmd) (y3 : ℕ) (y4 : ℕ) (y5 : State) (st : y5.Stored) : State.Stored (dmaRows host till c y3 y4 y5).1 := by
  induction y3 generalizing y4 y5 with
  | zero => exact st
  | succ k ih =>
    unfold dmaRows
    repeat' (first | (with_reducible exact st) | (with_reducible refine dmaRow_stored (st := ?_) ..) | (with_reducible refine stored_ite ?_ ?_) | (simp only [↓stored_eq (chargeTo_erase _ _ _ (Nat.and_self _)) rfl rfl]) | (with_reducible refine ih (st := ?_) ..) | (with_reducible refine foldl_stored (fun t a st => ?_) _ _ ?_) | (with_reducible refine foldl1_stored (fun t a st => ?_) _ _ ?_) | (split))

theorem runDma_stored (s : State) (host : HostData) (p : ℕ) (till : ℕ) (c : DmaCmd) (st : s.Stored) : State.Stored (runDma s host p till c) := by
  unfold runDma
  repeat' (first | (with_reducible exact st) | (with_reducible refine dmaRows_stored (st := ?_) ..) | (with_reducible refine stored_ite ?_ ?_) | (simp only [↓stored_eq (forwardGroup_erase _ _ _ _ _ _ (Nat.and_self _)) rfl rfl, ↓stored_eq (State.contained_erase _ _ _ _ _ _ _ (Nat.and_self _)) rfl rfl]) | (with_reducible refine foldl_stored (fun t a st => ?_) _ _ ?_) | (with_reducible refine foldl1_stored (fun t a st => ?_) _ _ ?_) | (split))

theorem nextDma_stored (s : State) (host : HostData) (p : ℕ) (st : s.Stored) : State.Stored (nextDma s host p) := by
  unfold nextDma
  repeat' (first | (with_reducible exact st) | (with_reducible refine runDma_stored (st := ?_) ..) | (with_reducible refine stored_ite ?_ ?_) | (simp only [↓stored_eq (settleHalt_erase _ _ (Nat.and_self _)) rfl rfl, ↓stored_eq (State.modEngine_erase _ _ _ (Nat.and_self _)) rfl rfl]) | (with_reducible refine foldl_stored (fun t a st => ?_) _ _ ?_) | (with_reducible refine foldl1_stored (fun t a st => ?_) _ _ ?_) | (split))

theorem execDmaComplete_stored (p : ℕ) (s : State) (st : s.Stored) (tx : State) (ex : (execDmaComplete p s) = .next tx) : tx.Stored := by
  unfold execDmaComplete done at ex
  injection ex with ex
  subst ex
  repeat' (first | (with_reducible exact st) | (with_reducible refine nextDma_stored (st := ?_) ..) | (with_reducible refine stored_ite ?_ ?_) | (with_reducible refine foldl_stored (fun t a st => ?_) _ _ ?_) | (with_reducible refine foldl1_stored (fun t a st => ?_) _ _ ?_) | (split))

theorem hostReadFailure_stored (s : State) (y1 : HostAccess) (st : s.Stored) : State.Stored (hostReadFailure s y1) := by
  unfold hostReadFailure
  repeat' (first | (with_reducible exact st) | (with_reducible refine endPush_stored (st := ?_) ..) | (with_reducible refine nextDma_stored (st := ?_) ..) | (with_reducible refine stored_ite ?_ ?_) | (simp only [↓stored_eq (fetchTime_erase _ (Nat.and_self _)) rfl rfl, ↓stored_eq (readFails_erase _ (Nat.and_self _)) rfl rfl, ↓stored_eq (State.raise_erase _ _ (Nat.and_self _)) rfl rfl, ↓stored_eq (put_pci _ (Nat.and_self _)) rfl rfl]) | (with_reducible refine foldl_stored (fun t a st => ?_) _ _ ?_) | (with_reducible refine foldl1_stored (fun t a st => ?_) _ _ ?_) | (split))

theorem execHostReadFailure_stored (a : HostAccess) (s : State) (st : s.Stored) (tx : State) (ex : (execHostReadFailure a s) = .next tx) : tx.Stored := by
  unfold execHostReadFailure done at ex
  injection ex with ex
  subst ex
  repeat' (first | (with_reducible exact st) | (with_reducible refine hostReadFailure_stored (st := ?_) ..) | (with_reducible refine stored_ite ?_ ?_) | (with_reducible refine foldl_stored (fun t a st => ?_) _ _ ?_) | (with_reducible refine foldl1_stored (fun t a st => ?_) _ _ ?_) | (split))

theorem loseBridge_stored (s : State) (b : ℕ) (st : s.Stored) : State.Stored (loseBridge s b) := by
  unfold loseBridge
  repeat' (first | (with_reducible exact st) | (with_reducible refine chipFatal_stored (st := ?_) ..) | (with_reducible refine stored_ite ?_ ?_) | (simp only [↓stored_eq (State.modBridge_erase _ _ _ (Nat.and_self _)) rfl rfl, ↓stored_eq (State.fenceEvent_erase _ _ _ _ (Nat.and_self _)) rfl rfl]) | (with_reducible refine foldl_stored (fun t a st => ?_) _ _ ?_) | (with_reducible refine foldl1_stored (fun t a st => ?_) _ _ ?_) | (split))

theorem execBridgeLost_stored (b : ℕ) (s : State) (st : s.Stored) (tx : State) (ex : (execBridgeLost b s) = .next tx) : tx.Stored := by
  unfold execBridgeLost done at ex
  injection ex with ex
  subst ex
  repeat' (first | (with_reducible exact st) | (with_reducible refine loseBridge_stored (st := ?_) ..) | (with_reducible refine stored_ite ?_ ?_) | (with_reducible refine foldl_stored (fun t a st => ?_) _ _ ?_) | (with_reducible refine foldl1_stored (fun t a st => ?_) _ _ ?_) | (split))

theorem execBridgeHalfWidth_stored (l : BridgeLane) (s : State) (st : s.Stored) (tx : State) (ex : (execBridgeHalfWidth l s) = .next tx) : tx.Stored := by
  unfold execBridgeHalfWidth done at ex
  injection ex with ex
  subst ex
  repeat' (first | (with_reducible exact st) | (with_reducible refine loseBridge_stored (st := ?_) ..) | (with_reducible refine stored_ite ?_ ?_) | (simp only [↓stored_eq (State.fenceEvent_erase _ _ _ _ (Nat.and_self _)) rfl rfl, ↓stored_eq (State.modBridge_erase _ _ _ (Nat.and_self _)) rfl rfl]) | (with_reducible refine foldl_stored (fun t a st => ?_) _ _ ?_) | (with_reducible refine foldl1_stored (fun t a st => ?_) _ _ ?_) | (split))

theorem markRow_stored (s : State) (n : ℕ) (row : ℕ) (st : s.Stored) : State.Stored (markRow s n row) := by
  unfold markRow
  repeat' (first | (with_reducible exact st) | (with_reducible refine chipFatal_stored (st := ?_) ..) | (with_reducible refine stored_ite ?_ ?_) | (simp only [↓stored_eq (State.modDram_erase _ _ _ (Nat.and_self _)) rfl rfl]) | (with_reducible refine foldl_stored (fun t a st => ?_) _ _ ?_) | (with_reducible refine foldl1_stored (fun t a st => ?_) _ _ ?_) | (split))

theorem countRow_stored (s : State) (n : ℕ) (row : ℕ) (st : s.Stored) : State.Stored (countRow s n row) := by
  unfold countRow
  repeat' (first | (with_reducible exact st) | (with_reducible refine markRow_stored (st := ?_) ..) | (with_reducible refine stored_ite ?_ ?_) | (simp only [↓stored_eq (State.modDram_erase _ _ _ (Nat.and_self _)) rfl rfl]) | (with_reducible refine foldl_stored (fun t a st => ?_) _ _ ?_) | (with_reducible refine foldl1_stored (fun t a st => ?_) _ _ ?_) | (split))

theorem dramRead_stored (s : State) (a : ℕ) (onDie : Bool) (ecc : Secded) (st : s.Stored) : State.Stored (dramRead s a onDie ecc) := by
  unfold dramRead
  repeat' (first | (with_reducible exact st) | (with_reducible refine countRow_stored (st := ?_) ..) | (with_reducible refine State.voidRange_stored (st := ?_) ..) | (with_reducible refine markRow_stored (st := ?_) ..) | (with_reducible refine stored_ite ?_ ?_) | (simp only [↓stored_eq (State.modDram_erase _ _ _ (Nat.and_self _)) rfl rfl, ↓stored_eq (State.corrected_erase _ _ _ _ (Nat.and_self _)) rfl rfl, ↓stored_eq (State.contained_erase _ _ _ _ _ _ _ (Nat.and_self _)) rfl rfl]) | (with_reducible refine foldl_stored (fun t a st => ?_) _ _ ?_) | (with_reducible refine foldl1_stored (fun t a st => ?_) _ _ ?_) | (split))

theorem execDramScrub_stored (addr : ℕ) (onDie : Bool) (ecc : Secded) (s : State) (st : s.Stored) (tx : State) (ex : (execDramScrub addr onDie ecc s) = .next tx) : tx.Stored := by
  unfold execDramScrub done at ex
  injection ex with ex
  subst ex
  repeat' (first | (with_reducible exact st) | (with_reducible refine dramRead_stored (st := ?_) ..) | (with_reducible refine stored_ite ?_ ?_) | (with_reducible refine foldl_stored (fun t a st => ?_) _ _ ?_) | (with_reducible refine foldl1_stored (fun t a st => ?_) _ _ ?_) | (split))

theorem dieRead_stored (s : State) (a : ℕ) (unit_ : ℕ) (ecc : Secded) (st : s.Stored) : State.Stored (dieRead s a unit_ ecc) := by
  unfold dieRead
  repeat' (first | (with_reducible exact st) | (with_reducible refine State.voidRange_stored (st := ?_) ..) | (with_reducible refine stored_ite ?_ ?_) | (simp only [↓stored_eq (State.corrected_erase _ _ _ _ (Nat.and_self _)) rfl rfl, ↓stored_eq (State.contained_erase _ _ _ _ _ _ _ (Nat.and_self _)) rfl rfl]) | (with_reducible refine foldl_stored (fun t a st => ?_) _ _ ?_) | (with_reducible refine foldl1_stored (fun t a st => ?_) _ _ ?_) | (split))

theorem execRegionScrub_stored (area : ScrubArea) (addr : ℕ) (ecc : Secded) (s : State) (st : s.Stored) (tx : State) (ex : (execRegionScrub area addr ecc s) = .next tx) : tx.Stored := by
  unfold execRegionScrub done at ex
  injection ex with ex
  subst ex
  repeat' (first | (with_reducible exact st) | (with_reducible refine dieRead_stored (st := ?_) ..) | (with_reducible refine stored_ite ?_ ?_) | (simp only [↓stored_eq (State.modClr_erase _ _ _ (Nat.and_self _)) rfl rfl]) | (with_reducible refine foldl_stored (fun t a st => ?_) _ _ ?_) | (with_reducible refine foldl1_stored (fun t a st => ?_) _ _ ?_) | (split))

theorem perform_stored (s : State) (op : MemOp) (parity : Bool) (unit_ : ℕ) (st : s.Stored) : State.Stored (perform s op parity unit_) := by
  unfold perform
  repeat' (first | (with_reducible exact st) | (with_reducible refine dramRead_stored (st := ?_) ..) | (with_reducible refine dieRead_stored (st := ?_) ..) | (with_reducible refine State.voidRange_stored (st := ?_) ..) | (with_reducible refine State.store_stored (st := ?_) ..) | (with_reducible refine stored_ite ?_ ?_) | (simp only [↓stored_eq (State.contained_erase _ _ _ _ _ _ _ (Nat.and_self _)) rfl rfl]) | (with_reducible refine foldl_stored (fun t a st => ?_) _ _ ?_) | (with_reducible refine foldl1_stored (fun t a st => ?_) _ _ ?_) | (split))

theorem execChipArbGrant_stored (port : ℕ) (reqs : List ArbReq) (parity : Bool) (s : State) (st : s.Stored) (tx : State) (ex : (execChipArbGrant port reqs parity s) = .next tx) : tx.Stored := by
  unfold execChipArbGrant done at ex
  injection ex with ex
  subst ex
  repeat' (first | (with_reducible exact st) | (with_reducible refine perform_stored (st := ?_) ..) | (with_reducible refine stored_ite ?_ ?_) | (simp only [↓stored_eq (notePanic_erase _ _ _ _ (Nat.and_self _)) rfl rfl, ↓stored_eq (State.setArb_erase _ _ _ (Nat.and_self _)) rfl rfl]) | (with_reducible refine foldl_stored (fun t a st => ?_) _ _ ?_) | (with_reducible refine foldl1_stored (fun t a st => ?_) _ _ ?_) | (split))

theorem execRegionXbarGrant_stored (g : ℕ) (port : ℕ) (reqs : List ArbReq) (parity : Bool) (s : State) (st : s.Stored) (tx : State) (ex : (execRegionXbarGrant g port reqs parity s) = .next tx) : tx.Stored := by
  unfold execRegionXbarGrant done at ex
  injection ex with ex
  subst ex
  repeat' (first | (with_reducible exact st) | (with_reducible refine perform_stored (st := ?_) ..) | (with_reducible refine stored_ite ?_ ?_) | (simp only [↓stored_eq (State.setArb_erase _ _ _ (Nat.and_self _)) rfl rfl]) | (with_reducible refine foldl_stored (fun t a st => ?_) _ _ ?_) | (with_reducible refine foldl1_stored (fun t a st => ?_) _ _ ?_) | (split))

theorem execEngineBankGrant_stored (p : ℕ) (bank : ℕ) (reqs : List BankReq) (s : State) (st : s.Stored) (tx : State) (ex : (execEngineBankGrant p bank reqs s) = .next tx) : tx.Stored := by
  unfold execEngineBankGrant done at ex
  injection ex with ex
  subst ex
  repeat' (first | (with_reducible exact st) | (with_reducible refine dieRead_stored (st := ?_) ..) | (with_reducible refine State.store_stored (st := ?_) ..) | (with_reducible refine stored_ite ?_ ?_) | (simp only [↓stored_eq (State.modEngine_erase _ _ _ (Nat.and_self _)) rfl rfl]) | (with_reducible refine foldl_stored (fun t a st => ?_) _ _ ?_) | (with_reducible refine foldl1_stored (fun t a st => ?_) _ _ ?_) | (split))

theorem retrainCount_stored (s : State) (n : ℕ) (k : ℕ) (failed : Bool) (st : s.Stored) : State.Stored (retrainCount s n k failed) := by
  unfold retrainCount
  repeat' (first | (with_reducible exact st) | (with_reducible refine chipFatal_stored (st := ?_) ..) | (with_reducible refine stored_ite ?_ ?_) | (simp only [↓stored_eq (State.modDram_erase _ _ _ (Nat.and_self _)) rfl rfl]) | (with_reducible refine foldl_stored (fun t a st => ?_) _ _ ?_) | (with_reducible refine foldl1_stored (fun t a st => ?_) _ _ ?_) | (split))

theorem execDramRetrain_stored (n : ℕ) (channel : ℕ) (lanesRepaired : ℕ) (failed0 : Bool) (failed1 : Bool) (s : State) (st : s.Stored) (tx : State) (ex : (execDramRetrain n channel lanesRepaired failed0 failed1 s) = .next tx) : tx.Stored := by
  unfold execDramRetrain done at ex
  injection ex with ex
  subst ex
  repeat' (first | (with_reducible exact st) | (with_reducible refine retrainCount_stored (st := ?_) ..) | (with_reducible refine stored_ite ?_ ?_) | (simp only [↓stored_eq (State.modDram_erase _ _ _ (Nat.and_self _)) rfl rfl, ↓stored_eq (State.fenceEvent_erase _ _ _ _ (Nat.and_self _)) rfl rfl]) | (with_reducible refine foldl_stored (fun t a st => ?_) _ _ ?_) | (with_reducible refine foldl1_stored (fun t a st => ?_) _ _ ?_) | (split))

end Sys2Proof.Machine
end

