-- ==== Sys2Proof/Machine/Pins.lean ====
section
/-! DEFINITION. The package's pins: where their balls lie (21 R600, R601), and what each presents in every condition of the powered
device (15 R463, 20 R592, 21 R609, R616, R620). The levels follow from the fields of State; they hold none of their own. -/

namespace Sys2Proof.Machine

/-! ## Ball map (R600, R601) -/

/-- A ball: row 0 is AA and row 50 is BY; columns are 1 to 51. -/
structure Ball where
  row : Nat
  col : Nat
  deriving DecidableEq, Repr

/-- The letters of a row: AA to AZ, then BA to BY. -/
def rowName (row : Nat) : List Char :=
  [if row < 26 then 'A' else 'B', (("ABCDEFGHIJKLMNOPQRSTUVWXYZ".toList)[row % 26]?).getD 'A']

/-- The signals of R600; n is the lane, channel or bit, k the port. -/
inductive Signal where
  | petP (n : Nat) | petN (n : Nat) | perP (n : Nat) | perN (n : Nat)
  | netTxP (k l : Nat) | netTxN (k l : Nat) | netRxP (k l : Nat) | netRxN (k l : Nat)
  | sysclk25 | pcieRefP | pcieRefN | ethRefP | ethRefN
  | xspiClk | xspiCs0 | xspiCs1 | xspiDqs | xspiDq (n : Nat) | xspiReset
  | obs (n : Nat) | obsClk
  | smbScl | smbSda | smbAlert | smbAddr (n : Nat) | pcieOff
  | tck | tms | tdi | tdo | trst
  | gpio (n : Nat) | safeA (n : Nat) | safeB (n : Nat)
  | fault | thermtrip | reset | pwrgood | timein
  deriving DecidableEq, Repr

/-- The ball of a signal (R600). -/
def ballOf : Signal → Ball
  | .petP n => ⟨0, 4 + 6 * n⟩
  | .petN n => ⟨0, 5 + 6 * n⟩
  | .perP n => ⟨2, 4 + 6 * n⟩
  | .perN n => ⟨2, 5 + 6 * n⟩
  | .netTxP k l => ⟨4, 4 + 6 * (4 * k + l)⟩
  | .netTxN k l => ⟨4, 5 + 6 * (4 * k + l)⟩
  | .netRxP k l => ⟨6, 4 + 6 * (4 * k + l)⟩
  | .netRxN k l => ⟨6, 5 + 6 * (4 * k + l)⟩
  | .sysclk25 => ⟨44, 1⟩
  | .pcieRefP => ⟨44, 5⟩
  | .pcieRefN => ⟨44, 6⟩
  | .ethRefP => ⟨44, 9⟩
  | .ethRefN => ⟨44, 10⟩
  | .xspiClk => ⟨46, 21⟩
  | .xspiCs0 => ⟨46, 23⟩
  | .xspiDqs => ⟨46, 25⟩
  | .xspiDq n => ⟨46, 27 + 2 * n⟩
  | .xspiReset => ⟨46, 43⟩
  | .xspiCs1 => ⟨46, 45⟩
  | .obs n => ⟨46, 1 + 2 * n⟩
  | .obsClk => ⟨46, 17⟩
  | .smbScl => ⟨48, 21⟩
  | .smbSda => ⟨48, 23⟩
  | .smbAlert => ⟨48, 25⟩
  | .smbAddr n => ⟨48, 27 + 2 * n⟩
  | .pcieOff => ⟨48, 33⟩
  | .tck => ⟨48, 37⟩
  | .tms => ⟨48, 39⟩
  | .tdi => ⟨48, 41⟩
  | .tdo => ⟨48, 43⟩
  | .trst => ⟨48, 45⟩
  | .gpio n => ⟨48, 1 + 2 * n⟩
  | .safeA n => ⟨50, 2 * n + 1⟩
  | .safeB n => ⟨50, 2 * n + 2⟩
  | .fault => ⟨50, 35⟩
  | .thermtrip => ⟨50, 37⟩
  | .reset => ⟨50, 39⟩
  | .pwrgood => ⟨50, 41⟩
  | .timein => ⟨50, 43⟩

/-- Every signal of the package. -/
def signals : List Signal :=
  let eight (f : Nat → Signal) : List Signal := (List.range 8).map f
  eight .petP ++ eight .petN ++ eight .perP ++ eight .perN
    ++ (List.range 2).flatMap (fun k => (List.range 4).flatMap fun l => [.netTxP k l, .netTxN k l, .netRxP k l, .netRxN k l])
    ++ [.sysclk25, .pcieRefP, .pcieRefN, .ethRefP, .ethRefN, .xspiClk, .xspiCs0, .xspiCs1, .xspiDqs, .xspiReset, .obsClk]
    ++ eight .xspiDq ++ eight .obs ++ eight .gpio ++ [.smbScl, .smbSda, .smbAlert, .pcieOff, .tck, .tms, .tdi, .tdo, .trst]
    ++ (List.range 3).map .smbAddr ++ (List.range 16).map .safeA ++ (List.range 16).map .safeB
    ++ [.fault, .thermtrip, .reset, .pwrgood, .timein]

/-- The supply rails (R601), with their nets' nominal millivolts and greatest current in amperes. -/
inductive Rail where
  | core | sram | stacks | dramIo | serdes | io18 | io33
  deriving DecidableEq, Repr

def Rail.millivolts : Rail → Nat
  | .core => 750
  | .sram => 800
  | .stacks => 1100
  | .dramIo => 400
  | .serdes => 1200
  | .io18 => 1800
  | .io33 => 3300

def Rail.amperes : Rail → Nat
  | .core => 140
  | .sram => 40
  | .stacks => 12
  | .dramIo => 14
  | .serdes => 9
  | .io18 => 3
  | .io33 => 1

/-- The area of a rail holds a ball. -/
def Rail.area (r : Rail) (b : Ball) : Bool :=
  match r with
  | .core => within b.row 11 27 && within b.col 12 40
  | .sram => within b.row 28 35 && within b.col 12 40
  | .stacks => within b.row 11 35 && (within b.col 2 10 || within b.col 42 50)
  | .dramIo => within b.row 36 39 && within b.col 2 50
  | .serdes => within b.row 8 10 && within b.col 2 50
  | .io18 => within b.row 41 43 && within b.col 2 30
  | .io33 => within b.row 41 43 && within b.col 32 50

/-- What a ball carries: a signal, a supply in an even column of its area, or VSS. -/
inductive BallUse where
  | signal (s : Signal) | supply (r : Rail) | vss
  deriving DecidableEq, Repr

def ballUse (b : Ball) : BallUse :=
  match signals.find? fun s => ballOf s == b with
  | some s => .signal s
  | none => match [Rail.core, .sram, .stacks, .dramIo, .serdes, .io18, .io33].find? fun r => r.area b && b.col % 2 == 0 with
    | some r => .supply r
    | none => .vss

/-! ## Levels (R609) -/

/-- What a pin presents. An idle pin is a transmitter electrically idle; an active one carries its interface's traffic. -/
inductive Level where
  | highZ | released | low | high | idle | active
  deriving DecidableEq, Repr

/-- Driven to a logic value. -/
def driven (b : Bool) : Level := if b then .high else .low

/-- In reset with the rails up. -/
def State.held (s : State) : Bool := !s.pins.pwrgood || !s.pins.resetN || decide (s.phase = .inReset)

/-- The pins of a SAFE pair: in antiphase while the channel toggles, else low (15 R463). -/
def safePair (s : State) (n : Nat) : Level × Level :=
  let c := s.channel n
  if s.held then (.highZ, .highZ)
  else if s.phase = .quiet ∨ s.phase = .safe ∨ !c.toggling then (.low, .low)
  else (driven c.highA, driven (!c.highA))

def faultPin (s : State) : Level := if !s.held && s.pins.faultLow then .low else .released

/-- THERMTRIP_N stays low through a reset, until PWRGOOD falls (21 R618, R625). -/
def thermtripPin (s : State) : Level := if s.pins.thermtripLow then .low else .released

def pcieTransmitters (s : State) : Level := if s.held || s.pins.pcieOff then .idle else .active

def ethTransmitters (s : State) (port : Nat) : Level :=
  if s.held || decide (s.phase = .quiet ∨ s.phase = .safe) || (if port = 0 then s.pins.ethIdle0 else s.pins.ethIdle1) then .idle else .active

def smbAlertPin (s : State) : Level := if !s.held && s.pins.smbAlert then .low else .released
def xspiResetPin (s : State) : Level := if s.held then .low else .high

/-- The flash interface: in the safe state until its writes end. -/
def xspiPins (s : State) : Level := if s.held || (decide (s.phase = .safe) && s.flash.writes.isEmpty) then .highZ else .active

/-- OBS and OBSCLK: low unless a group is driven. -/
def obsPins (s : State) : Level := if !s.held && decide (s.phase ≠ .quiet ∧ s.phase ≠ .safe) && s.pins.obsActive then .active else .low

/-! ## GPIO alarms (R620) -/

/-- A unit is fenced, or a region degraded. -/
def anyFenced (s : State) : Bool := s.unitEntries.any fun u => u.state == 2 || (u.kind == 5 && u.flags.testBit 0)

/-- The alarm of a GPIO is asserted. -/
def gpioAsserted (s : State) (g : Nat) : Bool :=
  let c := (s.cfg.gpio g).toNat
  let parameter := bitsOf c 0 16
  match bitsOf c 28 4 with
  | 1 => anyFenced s
  | 2 => decide ((s.zone parameter).state ≠ .clear)
  | 3 => !(s.channel parameter).toggling
  | 4 => decide (s.time.elapsed < Table.get 0 g s.pins.gpioUntil)
  | 5 => !s.pci.up
  | _ => false

/-- A GPIO pin: an open-drain one is driven only to low. -/
def gpioPin (s : State) (g : Nat) : Level :=
  let c := (s.cfg.gpio g).toNat
  let value := gpioAsserted s g == c.testBit 27
  if s.held || decide (s.phase ≠ .running) || bitsOf c 28 4 == 0 then .highZ
  else if !c.testBit 26 && value then .highZ
  else driven value

end Sys2Proof.Machine
end

