-- ==== Sys2Proof/Tests/Slice0.lean ====
section
/-! SUPPORT. Tests: for every statement with hypotheses, states and operands that meet them, clause by clause, at the ends
of their ranges where they have ends; the check of well-formedness refuses an ill-formed command for each of its tests; and
the manual's worked examples. -/

namespace Sys2Proof.Tests
open Sys2Proof.Machine
set_option Elab.async false

/-! ## States of the tests -/

/-- The device in operation: reset released, started, the endpoint's link up. -/
def up : State := { State.reset with phase := .running, boot := { step := 8 }, pins := { resetN := true }, pci := { up := true } }

/-- A batch entry that sets the watermarks of pre-processing (02 R67). -/
def markEntry : List Byte :=
  leBytes 1 1 ++ leBytes 1 0 ++ leBytes 2 0 ++ leBytes 4 0x82010 ++ leBytes 8 0x00C80032 ++ leBytes 8 0xFFFFFFFF ++ leBytes 8 0

/-- A pending batch in a phase. -/
def batchIn (p : BatchPhase) (w : List StlUnit) : Batch := { src := .host, entries := [], at_ := .time 3000000, phase := p, waiting := w, new := {} }

/-- The device with a pending batch. -/
def withBatch (b : Batch) : State := { up with stl := { batch := some b } }

/-- The device with one engine's state. -/
def withEngine (p : Nat) (e : Engine) : State := { up with engines := [(p, e)] }

/-- The device with the table of a PTP port's master. -/
def master : Announce := ⟨128, 248, 254, 65535, 128, 7, 0, 7, 1, 37⟩

/-- A host page with an open batch of one entry, to commit at 3 ms. -/
def opened : State := { up with stl := { host := { opened := true, staged := [markEntry], instant := 3000000 } } }

/-- A pending batch that waits for a stream event. -/
def eventBatch (p : BatchPhase) : Batch := { batchIn p [.decode] with at_ := .event 1 0 }

/-- A tile without a command. -/
def idleIssue : TileIssue := ⟨[], 0, 0, 0, 0, 0, 0, 0, false, false, false, none⟩

/-- A running tile. -/
def busy : Running := { issue := idleIssue }

/-- A flash checkpoint. -/
def ckpt : Checkpoint := { job := 0, step := 4096, p1 := 0, p2 := 0, first := 0, last := 0, n := 0, baseDigest := 0, weights := [], m := [], v := [] }

/-- The device at the start-up assay with flash bytes. -/
def bootWith (bs : List Host.Cell) : State := { State.reset with phase := .booting, boot := { step := 6 }, flash := { bytes := bs } }

/-- Flash whose first slot has one section, of type 10, empty. -/
def badSection : List Host.Cell :=
  [(0x40006, 1), (0x40007, 0), (0x41000, 10), (0x41001, 0)] ++ (List.range 8).map fun i => (0x41010 + i, 0)

/-- The same section in the second slot, beside an empty first one. -/
def badSecond : List Host.Cell :=
  [(0x40006, 0), (0x40007, 0), (0x3840006, 1), (0x3840007, 0), (0x3841000, 10), (0x3841001, 0), (0x3841004, 0)] ++ (List.range 8).map fun i => (0x3841010 + i, 0)

/-- The device with a verified slot, told an instant one second ahead. -/
def updating (bs : List Host.Cell) : State :=
  { up with flash := { bytes := bs }, stl := { slotVerified := true, host := { instant := 1000000000 } } }

/-- The device with the master of port 0 in use. -/
def withMaster (source : Nat) : State := { up with time := { source := source, ptp0 := { master := some master } } }

/-- A tile command of opcode 5 on one element of one format, from descriptor 0 to descriptor 1 (08 R263). -/
def tileBytes (op : Nat) : List Byte :=
  leBytes 1 op ++ leBytes 1 0 ++ leBytes 1 0x33 ++ leBytes 1 3 ++ leBytes 2 1 ++ leBytes 2 1 ++ leBytes 2 1 ++ leBytes 2 0
    ++ leBytes 2 1 ++ leBytes 2 1 ++ leBytes 2 1 ++ leBytes 2 1 ++ leBytes 4 0 ++ leBytes 1 0 ++ leBytes 1 0 ++ leBytes 1 1
    ++ leBytes 3 0xFFFFFF ++ leBytes 2 0 ++ leBytes 20 0 ++ leBytes 4 0xFFFFFFFF ++ leBytes 4 0 ++ leBytes 1 1 ++ leBytes 1 0
    ++ leBytes 1 0 ++ leBytes 1 0xFF ++ leBytes 64 0

/-- A descriptor of `size` bytes holding one element (08 R266). -/
def descBytes (base size : Nat) : List Byte :=
  leBytes 8 base ++ leBytes 4 size ++ leBytes 4 16 ++ leBytes 4 0 ++ leBytes 1 3 ++ leBytes 1 0 ++ leBytes 1 0xFF ++ leBytes 1 0
    ++ leBytes 4 1 ++ leBytes 4 1

/-- The tile above with its two descriptors at the start of DRAM. -/
def issue (op : Nat) : TileIssue := ⟨tileBytes op, 0, 2, 0, 0, 0, 0, 0, false, false, false, none⟩

/-- The device in operation with those descriptors, the source of `size` bytes, and engine 0 in service. -/
def withDescs (size : Nat) (e : Engine) : State :=
  ({ up with
      cfg := { accounts := [(0, { enabled := true, share := 1024, mask := 1 })] }
      engines := [(0, { e with state := 0, logical := 0 })]
      regions := [(0, { state := 0 })] }).store 0
    (descBytes (engineBase 0) size ++ descBytes (engineBase 0 + 32) 16)

/-- The device with region 0, or every region, in service. -/
def inRegion : State := { up with regions := [(0, { state := 0 })] }
def inAllRegions : State := { up with regions := (List.range 4).map fun g => (g, { state := 0 }) }

/-- A region with one account ready. -/
def ready : State :=
  { inRegion with cfg := { accounts := [(5, { enabled := true, share := 1024, mask := 1 })] }, regions := [(0, { state := 0, ready := [5] })]
                  rolling := [(5, { members := [{ stream := 0, tick := 0, epoch := 0 }] })] }

/-- A datagram for the row below, and the device with that row as stream 3. -/
def rtp : List Byte := [0x80, 96, 0, 1, 0, 0, 0, 0, 0, 0, 0, 9, 0x65, 0]
def datagram : Datagram := ⟨0, false, 7, 5004, 17, false, false, true, rtp⟩
def streamRow : StreamRow := { active := true, ports := 1, addr := 7, udpPort := 5004, payloadType := 96, ssrc := 9 }
def withStream (t : StreamSt) : State := { up with cfg := { streams := [(3, streamRow)] }, streams := [(3, t)] }

/-- An access unit. -/
def unit : AccessUnit := { tick := 0, arrival := 0, epoch := 0, rap := .idr, bytes := 0 }

/-- The command ring enabled on a host that answers nothing there, and an entry of no kind with a good CRC. -/
def ringOn : State := { up with pci := { up := true, cmdEnable := true, cmdBase := 0x800000000000 } }
def badEntry : List Byte := List.replicate 124 0#8 ++ leBytes 4 (crc32 (List.replicate 124 0#8)).toNat

/-- A decode engine at work on stream 3, or replaying for a clip. -/
def decoding (r : Option Nat) : State :=
  { up with cfg := { streams := [(3, { streamRow with profile := 1, level := 10, depth := 8, width := 16, height := 16, dpb := 1 })] }
            decs := [(0, { state := 0, job := some (3, unit), replay := r })] }

/-- A sequence's parameters. -/
def aSequence : SeqParams := ⟨1, 10, 8, false, true, 16, 16, 1, 16, 0, 0, 0, 0, { fullRange := false, matrix := none }⟩

/-- An outcome without errors: a picture of 16 by 16 samples. -/
def goodPicture : PictureOutcome := ⟨[], [(0, some aSequence)], 0, [], [], none, 0, false, false, false, 0, 0⟩

/-- A record, and a picture of stream 3 that waits for pre-processing or is in it. -/
def aRecord : Rec := { type := 0x0700, unitClass := 0, payload := .saf {} }
def picture : Picture := { stream := 3, tick := 0, arrival := 1000000000, epoch := 0, fullFrame := true, width := 1000, height := 1000 }
def queued : State := { inRegion with accts := [(0, { queue := [picture] })] }
def processing : State := { up with accts := [(0, { current := some picture })] }

/-- A tile without work, and the environments of the tile of `issue 5` running on engine 0. -/
def noWork : TileIssue := { issue 5 with cmd := (tileBytes 5).set 12 0#8 }
def tileE (size : Nat) (voids : List Nat) : TileEnv :=
  ({ withDescs size { running := some { issue := issue 5 } } with voids := voids }).tileEnv 0 (issue 5)
def tileX : TileEnv := tileE 16 []
def tileY : TileEnv := (finishPasses tileX.s 0 (issue 5)).tileEnv 0 (issue 5)

/-- A DMA command of some rows of 4 bytes within DRAM (08 R265). -/
def dmaBytes (rows : Nat) : List Byte :=
  leBytes 1 0x10 ++ leBytes 1 0 ++ leBytes 2 rows ++ leBytes 4 4 ++ leBytes 8 0 ++ leBytes 8 64 ++ leBytes 104 0

/-- A clearing command of zeros but its opcode. -/
def clrBytes (op : Nat) : List Byte := leBytes 1 op ++ leBytes 63 0

/-- An evidence request for stream 3, of codec 2 (12 R370), and the device with every encoder fenced. -/
def evReq (kind : Nat) : List Byte :=
  leBytes 1 kind ++ leBytes 1 2 ++ leBytes 2 3 ++ leBytes 1 0xFF ++ leBytes 1 10 ++ leBytes 1 20 ++ leBytes 1 0 ++ leBytes 4 1000
    ++ leBytes 1 5 ++ leBytes 1 1 ++ leBytes 2 0 ++ leBytes 8 0 ++ leBytes 8 0 ++ leBytes 8 7 ++ leBytes 16 0 ++ leBytes 2 5004 ++ leBytes 1 96
    ++ leBytes 5 0
def noEncoder : State := { withStream {} with encs := (List.range 4).map fun n => (n, { fenced := true }) }

/-- Adaptation enabled, with one training sample. -/
def adaptOn : AdaptSettings := { enabled := true, leastVal := 0 }
def adapting (t : StreamSt) : State :=
  { withStream t with cfg := { adapt := some adaptOn }, adapt := { samples := [{ q := 1, stream := 3, label := 0, tick := 0, box := ⟨0, 0, 0, 0⟩ }] } }

/-- An audit of engine 0 by engine 1. -/
def audit : Audit := { engine := 0, auditor := 1, completion := {}, account := 0, issue := idleIssue }
def auditing (a : Audit) : State :=
  { up with regions := [(0, { state := 0, audits := [a] })], engines := [(1, { state := 0, logical := 1 }), (5, { state := 0, logical := 5 })] }

/-- Region 0 with an engine in service and a spare one. -/
def rotating : State := { inRegion with engines := [(0, { state := 0, logical := 0 }), (1, { assayPassed := some 0 })] }

/-- A zone on stream 3 that starts, the queue of its stream and the zone model; engines 0 to 2 in service. -/
def zoned : State :=
  { inAllRegions with
    engines := (List.range 3).map fun p => (p, { state := 0, logical := p })
    cfg := { zoneModel := some { gw := 1, gh := 1 }, streams := [(3, streamRow)] }, streams := [(3, { zoneQueue := [picture] })]
    saf := { zones := [(0, { state := .start, row := { stream := 3, theta := 50, rects := [⟨0, 0, 1, 1⟩] }, ageNs := 1000000 })] } }

/-- The same with an evaluation under way. -/
def evaluating (x : Eval) : State := { zoned with saf := { zoned.saf with evals := [x] } }

/-- A zone, a safety channel, a DRAM stack in some state. -/
def oneZone (z : Zone) : State := { up with saf := { zones := [(0, z)] } }
def oneChannel (c : Channel) : State := { up with saf := { channels := [(0, c)] } }
def oneStack (d : Dram) : State := { up with drams := [(0, d)] }

/-- The journal ring enabled with its state block behind its entries, and one record held. -/
def journalOn : State :=
  { up with pci := { up := true, jrnEnable := true, jrnState := 0x80000 }, journal := { held := [aRecord] } }

/-- The first port up in a peer domain, with the peer 2. -/
def inDomain (p : Peer) : State :=
  { up with pins := { up.pins with ethIdle0 := false }, nets := [(0, { state := 2 })]
            cfg := { peer := some { domain := 1, device := 1, sanor0 := true }, streams := [(3, streamRow)] }
            lnk := { peers := [(2, p)] } }
def joined : State := inDomain { joined := true }
def beat (device identifier : Nat) : Heartbeat := ⟨device, identifier, 0, 0, 0, 0, 0, 10, 5, 0⟩

/-- A confirmed track in slot 0 that came from peer 2, handed over to it. -/
def handed (x : Bool) : State :=
  { joined with ledger := { tracks := [(0, { state := .confirmed, originDevice := 2 })], handovers := [⟨0, 2, 0, x⟩] } }

/-- A query that waits for peers. -/
def querying (ds : List Nat) : State :=
  { joined with lnk := { peers := ds.map fun d => (d, { joined := true }), queries := [{ number := 0, waiting := ds, since := 0 }] } }

/-- A token of the right form. -/
def withToken : State :=
  { up with sec := { token := [(0, 0x4B), (1, 0x54), (2, 0x4D), (3, 0x4C), (4, 1), (56, 1)] } }
def fused (l k : Nat) : State := { up with fuses := { lifecycle := l, integratorHash := k } }

/-- The trace in state 1 with one record in a buffer. -/
def traced (p : Nat) (stop : Bool) : State :=
  { up with dbg := { traceEnable := true, traceState := 1, ptr := p, traceStop := stop, buffers := [(0, [⟨0, 0, 0, 0, 0⟩])] } }

/-- A watch slot of the device with a request for one lane of the step, and it captured from engine 0. -/
def stepWatch : Watch := { request := [(0, 2), (1, 2), (20, 1), (24, 16)] }
def watching (st : Nat) (voids : List Nat) : State :=
  { inRegion with engines := [(0, { state := 0, logical := 0 })], dbg := { watches := [(64, { stepWatch with state := st })], dump := 1 }, voids := voids }

/-- A power hold: the flash with one valid directory copy, and a rewrite of it waiting. -/
def aDirectory : Directory := ⟨7, 0x40000, 0x3800000, 0x3840000, 0x3800000, 0x7040000, 0xFC0000, 0⟩
def rewriting : State :=
  { up with flash := { bytes := (directoryBytes 0x8000000 aDirectory).zipIdx.map fun x => (directoryAt 1 + x.2, x.1), writes := [.directory 0] } }

/-- With one decode engine in service, that one rotates. -/
theorem oneDec (s : State) (h : ((List.range 18).filter fun d => decide ((s.dec d).state = 0) && !(s.dec d).leaving) = [0]) :
    rotatingDec s = some 0 := by
  simp [rotatingDec, h, Nat.mod_one]

/-! ## The hypotheses of the statements can be met -/

theorem test_meetsStepRunsFrontCommand :
    ∃ (c : Instr) (rest : List Instr) (s : State), s.pending = c :: rest :=
  ⟨.thermalTrip, [], { State.reset with pending := [.thermalTrip] }, rfl⟩

theorem test_meetsEveryCommandKeepsItsFrame :
    ∃ (c : Instr) (s : State) (t : State) (p : Part), exec c s = .next t ∧ p ∉ writes c :=
  ⟨.timNowLowRead false, State.reset, State.reset, .mem, rfl, by decide⟩

theorem test_meetsStepKeepsStoredDataCanonical :
    ∃ (s : State) (t : State), s.Stored ∧ step s = .next t :=
  ⟨State.reset, State.reset, ⟨by decide, by decide⟩, rfl⟩

theorem test_meetsQueueIsFirstInFirstOut :
    (∃ (s : State) (t : State), s.QueueOk ∧ step s = .next t)
    ∧ (∃ (s : State), s.pending = [] ∧ s.phase ≠ .inReset)
    ∧ (∃ (s : State), s.pending = [] ∧ s.phase = .inReset) :=
  ⟨⟨State.reset, State.reset, (fun c h => by cases h), rfl⟩,
   ⟨up, by decide +kernel⟩,
   ⟨State.reset, by decide +kernel⟩⟩

theorem test_meetsConfigurationSafeStateAndFusesStand :
    (∃ (c : Instr) (s : State) (t : State), exec c s = .next t ∧ t.cfg ≠ s.cfg)
    ∧ (∃ (c : Instr) (s : State) (t : State), exec c s = .next t ∧ s.phase = .safe ∧ t.phase ≠ .safe)
    ∧ (∃ (s : State) (t : State) (w : Nat), (exec (.resetAssert w) s = .next t ∨ exec .pwrgoodFall s = .next t ∨ exec .rebootReset s = .next t)) :=
  ⟨⟨.resetAssert 10000, { up with cfg := { peer := some {} } }, _, rfl, by decide +kernel⟩,
   ⟨.resetAssert 10000, { up with phase := .safe }, _, rfl, by decide +kernel⟩,
   ⟨up, _, 10000, Or.inl rfl⟩⟩

theorem test_meetsMemoryOutsideIsKept :
    (∃ (s : State) (t : State) (agreed : Bool), exec (.rollingRestartNext agreed) s = .next t ∧ (∀ u, s.stl.update = some u → u.settled = true ∨ .chip ∈
      u.todo))
    ∧ (∃ (s : State) (t : State) (src : Src) (off : Nat) (width : Nat) (v : W64), exec (.registerWrite src off width v) s = .next t ∧
      outsideSettlement s src off width v.toNat)
    ∧ (∃ (s : State) (t : State) (bytes : List Byte) (pec : Bool), exec (.smbusWrite bytes pec) s = .next t ∧ outsideSettlement s .smbus s.smbOffset
      bytes.length (leNat bytes)) :=
  ⟨⟨up, up, true, rfl, fun u h => nomatch h⟩,
   ⟨up, _, .internal, 0x81038, 8, 5, rfl, by simp [outsideSettlement, writeWords, writeOffset, inWindow, List.range, List.range.loop]⟩,
   ⟨{ up with smbOffset := 0x81048 }, _, [0#8, 0#8, 0#8, 0#8], true, rfl, by simp [outsideSettlement, writeWords, writeOffset, inWindow, List.range, List.range.loop]⟩⟩

theorem test_meetsRegisterWriteTakesEffect :
    (∃ (s : State) (src : Src) (off : Nat) (width : Nat), s.answers = true ∧ (src = .host → s.pciServes = true) ∧ (width ≠ 4 ∧ width ≠ 8 ∨ off % width ≠
      0))
    ∧ (∃ (s : State) (off : Nat), s.answers = true ∧ off ∈ [0x40010, 0x40410, 0x40420, 0x51018, 0x54010, 0x82010, 0xC0008, 0xC1008])
    ∧ (∃ (s : State), s.answers = true) :=
  ⟨⟨up, .host, 2, 4, by decide +kernel⟩,
   ⟨up, 0xC1008, by decide +kernel⟩,
   ⟨up, by decide +kernel⟩⟩

theorem test_meetsRegisterReadsLatchAndReturn :
    (∃ (a : Nat), a < 64)
    ∧ (∃ (n : Nat), n < 1024)
    ∧ (∃ (p : Nat), p < 72)
    ∧ (∃ (r : Nat), r < 4)
    ∧ (∃ (n : Nat), n < 4)
    ∧ (∃ (n : Nat), n < 2)
    ∧ (∃ (s : State) (off : Nat) (n : Nat), s.pciServes = true ∧ off % 4 + n ≤ 4 ∧ inWindow .host (off / 4 * 4) = false ∧ latchSpan (off / 4 * 4) = 0
      ∧ (∀ e ∈ s.latched, e.1 ≠ off / 4 * 4)) :=
  ⟨⟨63, by decide +kernel⟩,
   ⟨1023, by decide +kernel⟩,
   ⟨71, by decide +kernel⟩,
   ⟨3, by decide +kernel⟩,
   ⟨3, by decide +kernel⟩,
   ⟨1, by decide +kernel⟩,
   ⟨up, 0x40002, 2, by decide +kernel⟩⟩

theorem test_meetsBridgeEventsTakeEffect :
    (∃ (s : State) (b : Nat) (lane : Nat), s.answers = true ∧ b < 3 ∧ lane < 768 ∧ (s.bridge b).lost = false)
    ∧ (∃ (s : State) (b : Nat) (lane : Nat), s.answers = true ∧ b < 3 ∧ lane < 768 ∧ (s.bridge b).lost = false ∧ 0 < (s.bridge b).sparesOf lane ∧
      Config.laneThreshold < Table.get 0 lane (s.bridge b).laneReplays)
    ∧ (∃ (s : State) (b : Nat) (lane : Nat), s.answers = true ∧ b < 3 ∧ lane < 768 ∧ (s.bridge b).lost = false ∧ (s.bridge b).sparesOf lane = 0 ∧
      (s.bridge b).half = false)
    ∧ (∃ (s : State) (lane : Nat), s.answers = true ∧ lane < 768 ∧ (s.bridge 2).lost = false ∧ (s.bridge 2).sparesOf lane = 0 ∧ (s.bridge 2).half =
      true)
    ∧ (∃ (s : State), s.answers = true ∧ (s.bridge 2).lost = false)
    ∧ (∃ (s : State) (b : Nat), s.answers = true ∧ b < 2 ∧ (s.bridge b).lost = false) :=
  ⟨⟨up, 2, 767, by decide +kernel⟩,
   ⟨{ up with bridges := [(0, { laneReplays := [(0, Config.laneThreshold + 1)] })] }, 0, 0, rfl, by decide, by decide, rfl, by decide, Nat.lt_succ_self _⟩,
   ⟨{ up with bridges := [(2, { spares := 0 })] }, 2, 383, by decide +kernel⟩,
   ⟨{ up with bridges := [(2, { sparesBack := 0, half := true })] }, 767, by decide +kernel⟩,
   ⟨up, by decide +kernel⟩,
   ⟨up, 1, by decide +kernel⟩⟩

theorem test_meetsArbitersGrantAndCellsAdvance :
    (∃ (s : State) (port : Nat) (a : Nat) (x : Nat) (bytes : List Byte), s.answers = true ∧ port < 16 ∧ s.reaches a = some x ∧ inDeviceMemory x
      bytes.length = true)
    ∧ (∃ (s : State) (g : Nat) (port : Nat) (a : Nat) (x : Nat) (bytes : List Byte), s.answers = true ∧ g < 4 ∧ port < 32 ∧ s.reaches a = some x ∧
      inDeviceMemory x bytes.length = true)
    ∧ (∃ (s : State) (port : Nat) (a : Nat), s.answers = true ∧ port < 16 ∧ s.reaches a = none)
    ∧ (∃ (s : State) (g : Nat) (port : Nat), s.answers = true ∧ g < 4 ∧ port < 32)
    ∧ (∃ (s : State) (p : Nat) (bank : Nat) (a : Nat) (bytes : List Byte) (mark : Bool), s.answers = true ∧ p < 72 ∧ bank < 16 ∧ opBank (.write a
      bytes mark) = some bank ∧ a + bytes.length ≤ engineSize)
    ∧ (∃ (s : State) (p : Nat) (r : Running), s.running = true ∧ (s.engine p).running = some r)
    ∧ (∃ (s : State) (p : Nat) (check : List BankCheck), s.running = true ∧ (s.engine p).running.isSome = true ∧ ((s.engine p).pipe.cycle
      check).2.wrong = 0) :=
  ⟨⟨up, 15, engineBase 0, engineBase 0, [1#8, 2#8], by decide +kernel⟩,
   ⟨up, 3, 31, 0, 0, [1#8], by decide +kernel⟩,
   ⟨withEngine 71 { state := 3 }, 15, engineBase 71, by decide +kernel⟩,
   ⟨up, 3, 31, by decide +kernel⟩,
   ⟨up, 71, 15, engineSize - 1, [1#8], false, by decide +kernel⟩,
   ⟨withEngine 0 { running := some busy }, 0, busy, by decide +kernel⟩,
   ⟨withEngine 0 { running := some busy }, 0, [], by decide +kernel⟩⟩

theorem test_meetsControllersRestart :
    (∃ (s : State) (g : Nat), s.running = true ∧ g < 4 ∧ (s.region g).state = 0 ∧ (recent s.time.elapsed hour (s.region g).restartTimes).length < 2)
    ∧ (∃ (s : State) (g : Nat), s.running = true ∧ g < 4 ∧ (s.region g).state = 0 ∧ 2 ≤ (recent s.time.elapsed hour (s.region g).restartTimes).length)
    ∧ (∃ (s : State) (g : Nat), s.answers = true ∧ g < 4 ∧ (s.region g).state = 1 ∧ (s.region g).fenced = false ∧ s.time.elapsed ≤ (s.region
      g).restartedAt + 50000000)
    ∧ (∃ (s : State) (g : Nat), s.running = true ∧ g < 4 ∧ (s.region g).state = 1 ∧ (s.region g).fenced = false)
    ∧ (∃ (s : State), s.running = true ∧ s.flt.chipRestarting = false ∧ (recent s.time.elapsed hour s.flt.chipRestarts).length < 2)
    ∧ (∃ (s : State), s.running = true ∧ s.flt.chipRestarting = false ∧ 2 ≤ (recent s.time.elapsed hour s.flt.chipRestarts).length)
    ∧ (∃ (s : State) (p : StlPl), s.flt.chipRestarting = true ∧ s.answers = true ∧ s.stl.update = none ∧ s.stl.discarded = some p)
    ∧ (∃ (s : State), s.flt.chipRestarting = true ∧ s.answers = true ∧ s.stl.update = none ∧ s.stl.discarded = none)
    ∧ (∃ (s : State), s.flt.chipRestarting = true ∧ s.answers = true) :=
  ⟨⟨{ up with regions := [(3, { state := 0 })] }, 3, by decide +kernel⟩,
   ⟨{ up with regions := [(3, { state := 0, restartTimes := [0, 0] })] }, 3, by decide +kernel⟩,
   ⟨{ up with regions := [(3, { state := 1 })] }, 3, by decide +kernel⟩,
   ⟨{ up with regions := [(3, { state := 1 })] }, 3, by decide +kernel⟩,
   ⟨up, by decide +kernel⟩,
   ⟨{ up with flt := { chipRestarts := [0, 0] } }, by decide +kernel⟩,
   ⟨{ up with flt := { chipRestarting := true }, stl := { discarded := some {} } }, {}, by decide +kernel⟩,
   ⟨{ up with flt := { chipRestarting := true } }, by decide +kernel⟩,
   ⟨{ up with flt := { chipRestarting := true }, stl := { discarded := some {} } }, by decide +kernel⟩⟩

theorem test_meetsResetKeepsOnlyWhatItMay :
    (∃ (w : Nat), w < 1000)
    ∧ (∃ (w : Nat), 10000 ≤ w)
    ∧ (∃ (w : Nat), 1000 ≤ w ∧ w < 10000)
    ∧ (∃ (s : State), s.boot.rebootAt ≠ none) :=
  ⟨⟨999, by decide +kernel⟩,
   ⟨10000, by decide +kernel⟩,
   ⟨1000, by decide +kernel⟩,
   ⟨{ up with boot := { rebootAt := some 0 } }, by decide +kernel⟩⟩

theorem test_meetsStartStepsFollow :
    (∃ (s : State), s.phase = .inReset)
    ∧ (∃ (s : State), s.phase = .booting ∧ s.boot.dirRead = false)
    ∧ (∃ (s : State), s.phase = .booting ∧ s.boot.trained = false)
    ∧ (∃ (s : State) (ok0 : Bool) (ok1 : Bool), s.phase = .booting ∧ s.boot.trained = false ∧ (ok0 && ok1) = false)
    ∧ (∃ (s : State), s.phase = .booting ∧ s.boot.step = 3)
    ∧ (∃ (s : State), s.phase = .booting ∧ s.boot.step = 5) :=
  ⟨⟨State.reset, by decide +kernel⟩,
   ⟨{ State.reset with phase := .booting }, by decide +kernel⟩,
   ⟨{ State.reset with phase := .booting }, by decide +kernel⟩,
   ⟨{ State.reset with phase := .booting }, true, false, by decide +kernel⟩,
   ⟨{ State.reset with phase := .booting, boot := { step := 3 } }, by decide +kernel⟩,
   ⟨{ State.reset with phase := .booting, boot := { step := 5 } }, by decide +kernel⟩⟩

theorem test_meetsInitialSettlementAndAdoption :
    (∃ (s : State) (rs : List AssayResult) (u : State) (x : Slot) (c : Cfg), s.phase = .booting ∧ s.boot.step = 6 ∧ s.flash.overlay = [] ∧ u =
      assignEngines s rs ∧ x = readSlot u u.boot.trying ∧ c = charterCfg u x u.layout.modelArea u.layout.zoneModel ∧ charterChecks u x c c = none)
    ∧ (∃ (s : State) (rs : List AssayResult) (u : State) (x : Slot) (c : Cfg) (f : Failure), s.phase = .booting ∧ s.boot.step = 6 ∧ u = assignEngines
      s rs ∧ x = readSlot u u.boot.trying ∧ c = charterCfg u x u.layout.modelArea u.layout.zoneModel ∧ charterChecks u x c c = some f)
    ∧ (∃ (s : State) (since : Nat), s.running = true ∧ s.boot.holdSince = some since) :=
  ⟨⟨bootWith [(0x40006, 0), (0x40007, 0)], [], _, _, _, rfl, rfl, rfl, rfl, rfl, rfl, by decide +kernel⟩,
   ⟨bootWith badSection, [], _, _, _, ⟨2, 0, stRANGE⟩, rfl, rfl, rfl, rfl, rfl, by decide +kernel⟩,
   ⟨{ up with boot := { step := 8, holdSince := some 0 } }, 0, by decide +kernel⟩⟩

theorem test_meetsPageCommandsTakeEffect :
    (∃ (s : State) (page : Src) (via : Src), s.phase ≠ .inReset ∧ stlBarred s page via 0x01 = false ∧ (s.page page).opened = false)
    ∧ (∃ (s : State) (page : Src) (via : Src) (n : Nat), s.phase ≠ .inReset ∧ stlBarred s page via 0x02 = false ∧ (s.page page).opened = true ∧
      (s.page page).staged.length + n ≤ 4096)
    ∧ (∃ (s : State) (page : Src) (via : Src), s.phase ≠ .inReset ∧ stlBarred s page via 0x03 = false ∧ (s.page page).opened = true)
    ∧ (∃ (s : State) (page : Src) (via : Src), s.phase ≠ .inReset ∧ stlBarred s page via 0x07 = false ∧ (s.page page).opened = true)
    ∧ (∃ (s : State) (page : Src) (via : Src) (c : Instr) (op : Nat), s.phase ≠ .inReset ∧ (c = .stlOpen page via ∧ op = 0x01 ∨ (∃ n, c = .stlStage
      page via n ∧ op = 0x02) ∨ c = .stlCheck page via ∧ op = 0x03 ∨ c = .commitAtTime page via ∧ op = 0x04 ∨ c = .commitAtEvent page via ∧ op = 0x05
      ∨ c = .stlAbort page via ∧ op = 0x06 ∨ c = .stlDiscard page via ∧ op = 0x07 ∨ (∃ n, c = .flashProgram page via n ∧ op = 0x10) ∨ (∃ n, c =
      .verifySlot page via n ∧ op = 0x11) ∨ c = .charterUpdate page via ∧ op = 0x12 ∨ ∃ n, c = .reboot page via n ∧ op = 0x13) ∧ stlBarred s page via
      op = true) :=
  ⟨⟨up, .host, .host, by decide +kernel⟩,
   ⟨opened, .host, .host, 4095, by decide +kernel⟩,
   ⟨opened, .host, .host, by decide +kernel⟩,
   ⟨opened, .host, .host, by decide +kernel⟩,
   ⟨up, .smbus, .host, .stlOpen .smbus .host, 1, by decide, Or.inl ⟨rfl, rfl⟩, by decide⟩⟩

theorem test_meetsBatchesArePreparedOrAborted :
    (∃ (s : State) (page : Src) (via : Src) (at_ : CommitAt) (c : Instr) (es : List Entry), s.phase ≠ .inReset ∧ (c = .commitAtTime page via ∧ at_ =
      instantTime (s.page page) ∧ stlBarred s page via 0x04 = false ∨ c = .commitAtEvent page via ∧ at_ = instantEvent (s.page page) ∧ stlBarred s
      page via 0x05 = false) ∧ (s.page page).opened = true ∧ s.stl.batch = none ∧ s.stl.update = none ∧ es = s.staged page ∧ runChecks s es (some at_)
      (overlayAfter s es) = none ∧ affectedUnits s.cfg (applyEntries s s.cfg es) es ≠ [])
    ∧ (∃ (s : State) (page : Src) (via : Src) (f : Failure), s.phase ≠ .inReset ∧ stlBarred s page via 0x04 = false ∧ (s.page page).opened = true ∧
      s.stl.batch = none ∧ s.stl.update = none ∧ runChecks s (s.staged page) (some (instantTime (s.page page))) (overlayAfter s (s.staged page)) =
      some f)
    ∧ (∃ (s : State) (page : Src) (via : Src) (b : Batch), s.phase ≠ .inReset ∧ stlBarred s page via 0x06 = false ∧ s.stl.batch = some b ∧ abortable s
      page b = true)
    ∧ (∃ (s : State) (b : Batch) (u : StlUnit) (at_ : Nat), s.running = true ∧ s.stl.batch = some b ∧ b.phase = .prepare ∧ b.at_ = .time at_ ∧
      b.waiting.contains u = true ∧ batchImageVoid s b = false)
    ∧ (∃ (s : State) (b : Batch) (u : StlUnit) (n : Nat) (tick : Nat), s.running = true ∧ s.stl.batch = some b ∧ b.phase = .prepare ∧ b.at_ = .event n
      tick ∧ b.waiting = [u] ∧ batchImageVoid s b = false ∧ recheck { s with stl := { s.stl with batch := some { b with waiting := [] } } } b.new
      (b.entries.map parseEntry) = none)
    ∧ (∃ (s : State) (b : Batch) (at_ : Nat), s.running = true ∧ s.stl.batch = some b ∧ b.phase = .prepare ∧ b.at_ = .time at_ ∧ b.voidSeen = false ∧
      b.waiting = [] ∧ recheck (s.atStation (at_ - 100000)) b.new (b.entries.map parseEntry) = none)
    ∧ (∃ (s : State) (b : Batch) (at_ : Nat), s.running = true ∧ s.stl.batch = some b ∧ b.phase = .prepare ∧ b.at_ = .time at_ ∧ (b.voidSeen = true ∨
      b.waiting ≠ []))
    ∧ (∃ (s : State) (b : Batch) (since : Nat), s.running = true ∧ s.stl.batch = some b ∧ b.phase = .armed since) :=
  ⟨⟨opened, .host, .host, .time 3000000, .commitAtTime .host .host, [parseEntry markEntry], by decide, Or.inl ⟨rfl, rfl, rfl⟩, by decide +kernel⟩,
   ⟨{ up with stl := { host := { opened := true } } }, .host, .host, ⟨12, 0, stRANGE⟩, by decide +kernel⟩,
   ⟨withBatch (batchIn .prepare []), .host, .host, batchIn .prepare [], by decide +kernel⟩,
   ⟨withBatch (batchIn .prepare [.decode]), batchIn .prepare [.decode], .decode, 3000000, by decide +kernel⟩,
   ⟨withBatch (eventBatch .prepare), eventBatch .prepare, .decode, 1, 0, by decide +kernel⟩,
   ⟨withBatch (batchIn .prepare []), batchIn .prepare [], 3000000, by decide +kernel⟩,
   ⟨withBatch (batchIn .prepare [.decode]), batchIn .prepare [.decode], 3000000, by decide +kernel⟩,
   ⟨withBatch (eventBatch (.armed 0)), eventBatch (.armed 0), 0, by decide +kernel⟩⟩

theorem test_meetsFlashCommandsAndWrites :
    (∃ (s : State) (page : Src) (via : Src) (n : Nat) (r : Nat × Nat), s.phase ≠ .inReset ∧ stlBarred s page via 0x10 = false ∧ programInRange s n (s.page
      page) = true ∧ r = blockRange (s.page page).flashDst.toNat (n * 4096) ∧ (s.phase = .quiet ∨ programProtected s r.1 r.2 = false) ∧ s.stl.program
      = none)
    ∧ (∃ (s : State) (page : Src) (a : Nat) (d : Nat) (n : Nat), s.stl.program = some (page, a, d, n))
    ∧ (∃ (s : State) (page : Src) (via : Src) (slot : Nat), s.phase ≠ .inReset ∧ stlBarred s page via 0x11 = false ∧ slot ≤ 1 ∧ s.stl.update = none)
    ∧ (∃ (s : State) (page : Src) (slot : Nat), s.stl.verify = some (page, slot))
    ∧ (∃ (s : State) (page : Src) (via : Src) (slot : Nat), s.phase ≠ .inReset ∧ stlBarred s page via 0x13 = false ∧ slot ≤ 2 ∧ s.stl.update = none)
    ∧ (∃ (s : State), s.answers = true ∧ s.publish s.passbook.generation = s.passbook)
    ∧ (∃ (s : State), s.answers = true ∧ s.publish s.passbook.generation ≠ s.passbook)
    ∧ (∃ (s : State), s.answers = true ∧ s.flash.writes = [])
    ∧ (∃ (s : State) (r : List FlashWrite) (x : _), s.answers = true ∧ s.flash.writes = .overlay x :: r)
    ∧ (∃ (s : State) (r : List FlashWrite), s.answers = true ∧ s.flash.writes = .overlayClear :: r ∧ (∀ u, s.stl.update = some u → u.rewritten =
      false))
    ∧ (∃ (s : State) (r : List FlashWrite) (x : _), s.answers = true ∧ s.flash.writes = .checkpoint x :: r)
    ∧ (∃ (s : State) (r : List FlashWrite) (x : _), s.answers = true ∧ s.flash.writes = .adoptedHead x :: r)
    ∧ (∃ (s : State) (r : List FlashWrite), s.answers = true ∧ s.flash.writes = .adoptedErase :: r)
    ∧ (∃ (s : State) (r : List FlashWrite) (m : _) (n : _), s.answers = true ∧ s.flash.writes = .unitMap m n :: r)
    ∧ (∃ (s : State) (r : List FlashWrite) (k : _) (o : _), s.answers = true ∧ s.flash.writes = .identityRecord k o :: r)
    ∧ (∃ (s : State) (r : List FlashWrite) (x : _), s.answers = true ∧ s.flash.writes = .safeState x :: r) :=
  ⟨⟨{ up with stl := { host := { flashDst := 0x3840000 } } }, .host, .host, 1, (0x3840000, 0x20000), by decide +kernel⟩,
   ⟨{ up with stl := { program := some (.host, 0, 0, 4096) } }, .host, 0, 0, 4096, by decide +kernel⟩,
   ⟨up, .host, .host, 1, by decide +kernel⟩,
   ⟨{ up with stl := { verify := some (.host, 1) } }, .host, 1, by decide +kernel⟩,
   ⟨up, .host, .host, 2, by decide +kernel⟩,
   ⟨{ up with passbook := up.publish 0 }, by decide +kernel⟩,
   ⟨up, by decide +kernel⟩,
   ⟨up, by decide +kernel⟩,
   ⟨{ up with flash := { writes := [.overlay []] } }, [], [], by decide +kernel⟩,
   ⟨{ up with flash := { writes := [.overlayClear] } }, [], by decide +kernel⟩,
   ⟨{ up with flash := { writes := [.checkpoint ckpt] } }, [], ckpt, by decide +kernel⟩,
   ⟨{ up with flash := { writes := [.adoptedHead ⟨0, 0, [], 0⟩] } }, [], ⟨0, 0, [], 0⟩, by decide +kernel⟩,
   ⟨{ up with flash := { writes := [.adoptedErase] } }, [], by decide +kernel⟩,
   ⟨{ up with flash := { writes := [.unitMap [] []] } }, [], [], [], by decide +kernel⟩,
   ⟨{ up with flash := { writes := [.identityRecord 1 2] } }, [], 1, 2, by decide +kernel⟩,
   ⟨{ up with flash := { writes := [.safeState 5] } }, [], 5, by decide +kernel⟩⟩

theorem test_meetsCharterUpdates :
    (∃ (s : State) (page : Src) (via : Src) (u : Update) (s1 : State), s.phase ≠ .inReset ∧ stlBarred s page via 0x12 = false ∧ anyBatch s = false ∧
      s.stl.slotVerified = true ∧ s.stl.update = none ∧ s.time.now + second ≤ bitsOf (s.page page).instant.toNat 0 64 ∧ (readSlot s (1 -
      s.boot.running)).firmwareDigests = (readSlot s s.boot.running).firmwareDigests ∧ u =
      { src := page, slot := 1 - s.boot.running, instant := bitsOf (s.page page).instant.toNat 0 64, todo := [] } ∧ s1 = s.setPage page
      { s.page page with status := stOK, reason := 0, entry := 0, phase := 6 } ∧ charterChecks (stagedUpdate s1 u (readSlot s1 u.slot) (updateCfg s1
      u)) (readSlot s1 u.slot) s1.cfg (updateCfg s1 u) = none)
    ∧ (∃ (s : State) (page : Src) (via : Src) (u : Update) (s1 : State) (f : Failure), s.phase ≠ .inReset ∧ stlBarred s page via 0x12 = false ∧
      anyBatch s = false ∧ s.stl.slotVerified = true ∧ s.stl.update = none ∧ s.time.now + second ≤ bitsOf (s.page page).instant.toNat 0 64 ∧ (readSlot
      s (1 - s.boot.running)).firmwareDigests = (readSlot s s.boot.running).firmwareDigests ∧ u =
      { src := page, slot := 1 - s.boot.running, instant := bitsOf (s.page page).instant.toNat 0 64, todo := [] } ∧ s1 = s.setPage page
      { s.page page with status := stOK, reason := 0, entry := 0, phase := 6 } ∧ charterChecks (stagedUpdate s1 u (readSlot s1 u.slot) (updateCfg s1
      u)) (readSlot s1 u.slot) s1.cfg (updateCfg s1 u) = some f)
    ∧ (∃ (s : State) (page : Src) (via : Src), s.phase ≠ .inReset ∧ stlBarred s page via 0x12 = false ∧ anyBatch s = false ∧ s.stl.slotVerified = true
      ∧ s.stl.update = none ∧ s.time.now + second ≤ bitsOf (s.page page).instant.toNat 0 64 ∧ (readSlot s (1 - s.boot.running)).firmwareDigests ≠
      (readSlot s s.boot.running).firmwareDigests ∧ (s.region 0).fenced = false ∧ (recent s.time.elapsed hour (s.region 0).restartTimes).length < 2)
    ∧ (∃ (s : State) (u : Update) (g : Nat) (r : List Ctrl) (agreed : Bool), s.running = true ∧ s.stl.update = some u ∧ s.stl.batch = none ∧ u.settled
      = false ∧ lastRuns s u.done = true ∧ u.todo = .region g :: r ∧ mayRoll u agreed = true ∧ (s.region g).fenced = false ∧ (∀ k, .region k ∈ r →
      (s.region k).fenced = false) ∧ (s.region g).restartTimes.length < 2)
    ∧ (∃ (s : State) (u : Update) (c : Ctrl), s.running = true ∧ s.stl.update = some u ∧ u.drained = false ∧ Update.open_ s = true ∧ u.done.contains c
      = true) :=
  ⟨⟨updating [(0x40006, 0), (0x40007, 0), (0x3840006, 0), (0x3840007, 0)], .host, .host, _, _, by decide, by decide, by decide +kernel, by decide, rfl, by decide +kernel, by decide +kernel, rfl, rfl, by decide +kernel⟩,
   ⟨updating badSecond, .host, .host, _, _, ⟨2, 0, stRANGE⟩, by decide, by decide, by decide +kernel, by decide, rfl, by decide +kernel, by decide +kernel, rfl, rfl, by decide +kernel⟩,
   ⟨updating [(0x40006, 0), (0x40007, 0), (0x3840006, 1), (0x3840007, 0)], .host, .host, by decide +kernel⟩,
   ⟨{ up with stl := { update := some { src := .host, slot := 1, instant := 0, todo := [.region 3] } } }, { src := .host, slot := 1, instant := 0, todo := [.region 3] }, 3, [], false, rfl, rfl, rfl, rfl, rfl, rfl, by decide, rfl, (fun k h => nomatch h), by decide⟩,
   ⟨{ up with stl := { update := some { src := .host, slot := 1, instant := 0, todo := [], done := [.region 0] } } }, { src := .host, slot := 1, instant := 0, todo := [], done := [.region 0] }, .region 0, by decide +kernel⟩⟩

theorem test_meetsBatchesComeIntoForceAndDrain :
    (∃ (s : State) (b : Batch) (at_ : Nat), s.running = true ∧ s.stl.batch = some b ∧ b.phase = .ready ∧ b.at_ = .time at_)
    ∧ (∃ (s : State) (b : Batch) (u : StlUnit) (v : StlUnit) (bound : Nat) (w : List StlUnit), s.running = true ∧ s.stl.batch = some b ∧ b.phase =
      .draining bound ∧ b.waiting = u :: v :: w ∧ u ≠ v ∧ holdsOld s u = false)
    ∧ (∃ (s : State) (b : Batch) (u : StlUnit) (bound : Nat), s.running = true ∧ s.stl.batch = some b ∧ b.phase = .draining bound ∧ b.waiting = [u] ∧
      (∀ x, holdsOld s x = false) ∧ b.charter = false ∧ s.stl.moves = [] ∧ s.lnk.failover = none)
    ∧ (∃ (s : State) (b : Batch) (u : StlUnit) (bound : Nat), s.running = true ∧ s.stl.batch = some b ∧ b.phase = .draining bound ∧ holdsOld s u =
      true)
    ∧ (∃ (s : State) (b : Batch) (bound : Nat), s.running = true ∧ s.stl.batch = some b ∧ b.phase = .draining bound ∧ b.charter = false ∧ s.stl.moves
      = [] ∧ s.lnk.failover = none) :=
  ⟨⟨withBatch (batchIn .ready []), batchIn .ready [], 3000000, by decide +kernel⟩,
   ⟨withBatch (batchIn (.draining 0) [.decode, .journal]), batchIn (.draining 0) [.decode, .journal], .decode, .journal, 0, [], by decide +kernel⟩,
   ⟨withBatch (batchIn (.draining 0) [.decode]), batchIn (.draining 0) [.decode], .decode, 0, rfl, rfl, rfl, rfl, (by intro x; cases x <;> rfl), rfl, rfl, rfl⟩,
   ⟨{ withBatch (batchIn (.draining 0) [.safety]) with saf := { evals := [⟨0, 0, 1, 0, 0, true, 0, [], 0, 0, none, false, [], false⟩] } }, batchIn (.draining 0) [.safety], .safety, 0, by decide +kernel⟩,
   ⟨withBatch (batchIn (.draining 0) [.decode]), batchIn (.draining 0) [.decode], 0, by decide +kernel⟩⟩

theorem test_meetsPtpMessagesAreMeasured :
    (∃ (s : State) (port : Nat) (domain : Nat) (sender : Nat), s.running = true ∧ port < 2 ∧ fromMaster s port domain sender = true)
    ∧ (∃ (s : State) (port : Nat) (domain : Nat) (sender : Nat) (o : Int) (c : Int) (rx : Int) (th : Int), s.running = true ∧ port < 2 ∧ fromMaster s
      port domain sender = true ∧ s.time.source ≠ port + 1 ∧ (s.ptpPort port).good < 15 ∧ th = o + c + (s.ptpPort port).pathDelay - (rx - ingressNs s
      port))
    ∧ (∃ (s : State) (port : Nat) (domain : Nat) (sender : Nat) (o : Int) (c : Int) (t2 : Int) (th : Int), s.running = true ∧ port < 2 ∧ fromMaster s
      port domain sender = true ∧ (s.ptpPort port).awaiting = some (sender, t2) ∧ s.time.source ≠ port + 1 ∧ s.time.source ≠ 0 ∧ s.time.source ≠ 4 ∧
      (s.ptpPort port).good = 15 ∧ (s.ptpPort port).qualified = false ∧ th = o + c + (s.ptpPort port).pathDelay - t2 ∧ th - (s.ptpPort port).runOffset
      ≤ 1000 ∧ (s.ptpPort port).runOffset - th ≤ 1000)
    ∧ (∃ (s : State) (port : Nat) (a : Announce), s.running = true ∧ port < 2 ∧ ((s.ptpPort port).master = none ∨ ∃ m, (s.ptpPort port).master = some
      m ∧ m.sender ≠ a.sender ∧ keyBefore (announceKey a) (announceKey m) = true))
    ∧ (∃ (s : State) (port : Nat) (a : Announce) (m : Announce), s.running = true ∧ port < 2 ∧ (s.ptpPort port).master = some m ∧ m.sender ≠ a.sender
      ∧ keyBefore (announceKey a) (announceKey m) = false)
    ∧ (∃ (s : State) (port : Nat), s.running = true ∧ port < 2) :=
  ⟨⟨withMaster 0, 0, 0, 7, by decide +kernel⟩,
   ⟨withMaster 0, 0, 0, 7, 0, 0, 0, _, rfl, by decide, by decide, by decide, by decide, rfl⟩,
   ⟨{ withMaster 0 with time := { source := 3, ptp0 := { master := some master, awaiting := some (7, 0), good := 15 } } }, 0, 0, 7, 0, 0, 0, 0, by decide +kernel⟩,
   ⟨up, 1, master, rfl, by decide, Or.inl rfl⟩,
   ⟨withMaster 0, 0, { master with sender := 8, priority1 := 200 }, master, by decide +kernel⟩,
   ⟨up, 1, by decide +kernel⟩⟩

theorem test_meetsSourcesAreLostAndPromoted :
    (∃ (s : State) (port : Nat), s.running = true ∧ port < 2)
    ∧ (∃ (s : State) (port : Nat) (m : Announce), s.running = true ∧ port < 2 ∧ (s.ptpPort port).master = some m)
    ∧ (∃ (s : State) (l : Nat), s.running = true ∧ s.time.timein.lastPulse = some l)
    ∧ (∃ (s : State) (c : Nat), s.running = true ∧ s.time.source ≠ 0 ∧ s.time.source ≠ 4 ∧ s.higher = [c]) :=
  ⟨⟨up, 1, by decide +kernel⟩,
   ⟨withMaster 0, 0, master, by decide +kernel⟩,
   ⟨{ up with time := { timein := { lastPulse := some 0 } } }, 0, by decide +kernel⟩,
   ⟨{ up with time := { source := 3, ptp0 := { qualified := true } } }, 1, by decide +kernel⟩⟩

theorem test_meetsPulsesStepsAndTickRates :
    (∃ (s : State), s.running = true ∧ pulseAccepted s.time.timein s.time.elapsed = true ∧ s.time.source ≠ 3 ∧ s.time.timein.accepted < 3)
    ∧ (∃ (s : State), s.running = true ∧ pulseAccepted s.time.timein s.time.elapsed = false ∧ s.time.timein.rejectedRun < 2)
    ∧ (∃ (s : State), s.running = true ∧ pulseAccepted s.time.timein s.time.elapsed = false ∧ s.time.timein.rejectedRun = 2)
    ∧ (∃ (s : State) (at_ : Nat) (th : Int), s.running = true ∧ s.time.pendingStep = some (at_, th) ∧ s.stl.batch = none ∧ 0 ≤ th)
    ∧ (∃ (s : State), s.running = true) :=
  ⟨⟨up, by decide +kernel⟩,
   ⟨{ up with time := { timein := { lastAccepted := some 0 } } }, by decide +kernel⟩,
   ⟨{ up with time := { timein := { lastAccepted := some 0, rejectedRun := 2 } } }, by decide +kernel⟩,
   ⟨{ up with time := { pendingStep := some (1000000, 5) } }, 1000000, 5, by decide +kernel⟩,
   ⟨up, by decide +kernel⟩⟩

theorem test_meetsSlicesGoToTheLeastFinishTag :
    (∃ (s : State) (u : State) (g : Nat) (tags : Table Nat), s.mayBegin = true ∧ g < 4 ∧ s.regionIssues g = true ∧ u = chargeSlice (afterBackground s g) g
      ∧ tags = liftTags (u.region g).vtime (readyAccounts u g) (u.region g).finish ∧ readyAccounts u g ≠ [])
    ∧ (∃ (s : State) (u : State) (g : Nat), s.mayBegin = true ∧ g < 4 ∧ s.regionIssues g = true ∧ u = chargeSlice (afterBackground s g) g ∧
      readyAccounts u g = [])
    ∧ (∃ (s : State) (p : Nat) (a : Nat) (used : Nat), s.running = true ∧ (s.engine p).slice = some (a, used) ∧ (s.engine p).running = none ∧
      accountReady s (regionOf p) a = false ∧ (s.engine p).sliceNo = (s.region (regionOf p)).sliceNo)
    ∧ (∃ (s : State) (p : Nat) (a : Nat) (used : Nat) (left : Nat), s.running = true ∧ (s.engine p).slice = some (a, used) ∧ (s.engine p).running =
      none ∧ accountReady s (regionOf p) a = true ∧ left = nominalSlice s p a s.stl.epoch.toNat - used) :=
  ⟨⟨ready, chargeSlice (afterBackground ready 0) 0, 0, _, by decide, by decide, by decide, rfl, rfl, by decide +kernel⟩,
   ⟨inRegion, chargeSlice (afterBackground inRegion 0) 0, 0, by decide, by decide, by decide, rfl, by decide +kernel⟩,
   ⟨withEngine 0 { slice := some (0, 5) }, 0, 0, 5, by decide +kernel⟩,
   ⟨{ ready with engines := [(0, { slice := some (5, 1) })] }, 0, 5, 1, _, rfl, rfl, rfl, by decide +kernel, rfl⟩⟩

theorem test_meetsEnergySlowdownAndModelSwitch :
    (∃ (s : State), s.running = true)
    ∧ (∃ (s : State) (x : Switch), s.running = true ∧ s.switch = some x ∧ x.cutAt = none ∧ (List.range 4).all (regionCut s) = true)
    ∧ (∃ (s : State) (x : Switch), s.running = true ∧ s.switch = some x ∧ x.cutAt = none ∧ (List.range 4).all (regionCut s) = false)
    ∧ (∃ (s : State) (x : Switch), s.running = true ∧ s.switch = some x ∧ x.cutAt ≠ none ∧ (((List.range 4).any fun g => decide ((s.region g).state =
      1) && !(s.region g).fenced) = false))
    ∧ (∃ (s : State) (x : Switch), s.running = true ∧ s.switch = some x ∧ x.cutAt ≠ none ∧ (((List.range 4).any fun g => decide ((s.region g).state =
      1) && !(s.region g).fenced) = true))
    ∧ (∃ (s : State) (x : Switch), s.running = true ∧ s.switch = some x ∧ x.cutAt ≠ none ∧ s.rolling = [] ∧ (((List.range 4).any fun g => decide
      ((s.region g).state = 1) && !(s.region g).fenced) = false)) :=
  ⟨⟨up, by decide +kernel⟩,
   ⟨{ inAllRegions with switch := some { instant := 0, new := {} } }, { instant := 0, new := {} }, by decide +kernel⟩,
   ⟨{ up with switch := some { instant := 0, new := {} } }, { instant := 0, new := {} }, by decide +kernel⟩,
   ⟨{ inAllRegions with switch := some { instant := 0, cutAt := some 0, new := {} } }, { instant := 0, cutAt := some 0, new := {} }, by decide +kernel⟩,
   ⟨{ up with regions := [(3, { state := 1 })], switch := some { instant := 0, cutAt := some 0, new := {} } }, { instant := 0, cutAt := some 0, new := {} }, by decide +kernel⟩,
   ⟨{ inAllRegions with switch := some { instant := 0, cutAt := some 0, new := {} } }, { instant := 0, cutAt := some 0, new := {} }, by decide +kernel⟩⟩

theorem test_meetsDatagramsAreTakenAndReleased :
    (∃ (s : State) (port : Nat), s.answers = true ∧ port < 2 ∧ s.portUp port = true)
    ∧ (∃ (s : State) (d : Datagram), s.running = true ∧ d.port < 2 ∧ d.fragment = true)
    ∧ (∃ (s : State) (d : Datagram), s.running = true ∧ d.port < 2 ∧ d.fragment = false ∧ (d.proto ≠ 17 ∨ d.ipv6 = true ∧ d.routing = true))
    ∧ (∃ (s : State) (d : Datagram), s.running = true ∧ d.port < 2 ∧ d.fragment = false ∧ d.proto = 17 ∧ (d.ipv6 = false ∨ d.routing = false) ∧
      d.checksumOk = false)
    ∧ (∃ (s : State) (d : Datagram), s.running = true ∧ d.port < 2 ∧ d.fragment = false ∧ d.proto = 17 ∧ (d.ipv6 = false ∨ d.routing = false) ∧
      d.checksumOk = true ∧ (isRtcp d.payload = true ∨ d.udpPort = 319 ∨ d.udpPort = 320))
    ∧ (∃ (s : State) (d : Datagram), s.running = true ∧ d.port < 2 ∧ d.fragment = false ∧ d.proto = 17 ∧ (d.ipv6 = false ∨ d.routing = false) ∧
      d.checksumOk = true ∧ isRtcp d.payload = false ∧ d.udpPort ≠ 319 ∧ d.udpPort ≠ 320 ∧ (parseRtp d.payload).bind (streamOf s d) = none)
    ∧ (∃ (s : State) (d : Datagram) (p : Rtp) (n : Nat), s.running = true ∧ d.port < 2 ∧ d.fragment = false ∧ d.proto = 17 ∧ (d.ipv6 = false ∨
      d.routing = false) ∧ d.checksumOk = true ∧ isRtcp d.payload = false ∧ d.udpPort ≠ 319 ∧ d.udpPort ≠ 320 ∧ parseRtp d.payload = some p ∧ streamOf
      s d p = some n ∧ ((s.stream n).receives = false ∨ supported (s.cfg.stream n).codec p.payload = false))
    ∧ (∃ (s : State) (d : Datagram) (p : Rtp) (n : Nat), s.running = true ∧ d.port < 2 ∧ d.fragment = false ∧ d.proto = 17 ∧ (d.ipv6 = false ∨
      d.routing = false) ∧ d.checksumOk = true ∧ isRtcp d.payload = false ∧ d.udpPort ≠ 319 ∧ d.udpPort ≠ 320 ∧ parseRtp d.payload = some p ∧ streamOf
      s d p = some n ∧ (s.stream n).receives = true ∧ supported (s.cfg.stream n).codec p.payload = true ∧ s.stl.batch = none)
    ∧ (∃ (s : State) (n : Nat) (due : Nat) (p : Packet) (run : List Packet) (rest : List Packet), s.running = true ∧ headRun (s.stream n).packets = (p
      :: run, rest) ∧ headDeadline (((s.cfgOf p.epoch).stream n).holdMs * 1000000) (p :: run) rest = some due) :=
  ⟨⟨{ up with nets := [(1, { state := 2 })], pins := { ethIdle1 := false } }, 1, by decide +kernel⟩,
   ⟨up, { datagram with fragment := true }, by decide +kernel⟩,
   ⟨up, { datagram with proto := 136 }, by decide +kernel⟩,
   ⟨up, { datagram with checksumOk := false }, by decide +kernel⟩,
   ⟨up, { datagram with udpPort := 319 }, by decide +kernel⟩,
   ⟨up, datagram, by decide +kernel⟩,
   ⟨withStream { state := 4 }, datagram, { marker := false, payloadType := 96, seq := 1, timestamp := 0, ssrc := 9, payload := [0x65, 0] }, 3, by decide +kernel⟩,
   ⟨withStream {}, datagram, { marker := false, payloadType := 96, seq := 1, timestamp := 0, ssrc := 9, payload := [0x65, 0] }, 3, by decide +kernel⟩,
   ⟨withStream { packets := [{ seq := 0, timestamp := 0, marker := true, arrival := 0, elapsedAt := 0, rap := .no, epoch := 0 }] }, 3, 0, { seq := 0, timestamp := 0, marker := true, arrival := 0, elapsedAt := 0, rap := .no, epoch := 0 }, [], [], by decide +kernel⟩⟩

set_option maxRecDepth 20000 in
theorem test_meetsCommandRingAndPushesAreServed :
    (∃ (s : State), s.pciServes = true)
    ∧ (∃ (s : State) (u : State), s.pciServes = true ∧ u = readConsumed
      { fetchTime s with pci := { (fetchTime s).pci with lastFetch := (fetchTime s).time.elapsed, fetchAgain := false } } ∧ u.ringFetched = true ∧
      (((fetchIndices u.pci).all fun i => u.hostReachable (u.pci.entryAddr i) 128) = false))
    ∧ (∃ (s : State) (e : List Byte), s.pci.cmdEnable = true ∧ (field e 1 1).testBit 0 ≠ s.pci.cmdPhase)
    ∧ (∃ (s : State) (e : List Byte), s.pci.cmdEnable = true ∧ (field e 1 1).testBit 0 = s.pci.cmdPhase ∧ entryCrcOk e = true ∧ entryFormOk e = false)
    ∧ (∃ (s : State) (e : List Byte) (a : _), s.pci.cmdEnable = true ∧ (field e 1 1).testBit 0 = s.pci.cmdPhase ∧ entryCrcOk e = true ∧ entryFormOk e
      = false ∧ a ≠ hostBase + (s.pci.entryAddr s.pci.cmdHead + 4))
    ∧ (∃ (s : State) (e : List Byte), s.pci.cmdEnable = true ∧ (field e 1 1).testBit 0 = s.pci.cmdPhase ∧ entryCrcOk e = false ∧ Table.get 0
      s.pci.cmdHead s.pci.bad + 1 < 8)
    ∧ (∃ (s : State) (n : Nat) (i : Nat) (irq : Bool) (rest : List (Nat × Bool × Nat)) (u : AccessUnit) (us : List AccessUnit) (st : Nat), s.running =
      true ∧ takeFetching n s.pci.fetching = some ((i, irq), rest) ∧ (s.stream n).pushes = u :: us ∧ s.stl.batch = none ∧ (st = (if ((s.cfg.stream
      n).active && (s.cfg.stream n).host && (s.stream n).receives) = true then stOK else stSTATE))) :=
  ⟨⟨up, by decide +kernel⟩,
   ⟨ringOn, _, rfl, rfl, rfl, by decide +kernel⟩,
   ⟨ringOn, [0#8, 1#8], by decide +kernel⟩,
   ⟨ringOn, badEntry, by decide +kernel⟩,
   ⟨ringOn, badEntry, 0, by decide +kernel⟩,
   ⟨ringOn, List.replicate 128 0#8, by decide +kernel⟩,
   ⟨{ withStream { pushes := [unit] } with pci := { up := true, fetching := [(0, false, 3)] } }, 3, 0, false, [], unit, [], stSTATE, by decide +kernel⟩⟩

theorem test_meetsPictureBoundariesCount :
    (∃ (s : State) (d : Nat) (n : Nat) (u : AccessUnit) (o : PictureOutcome) (cs : List ErrClass) (row : StreamRow) (sp : SeqParams) (hidden : List Nat),
      s.running = true ∧ (s.dec d).job = some (n, u) ∧ (s.dec d).replay = none ∧ row = (s.cfgOf u.epoch).stream n ∧ cs = pictureClasses s row
      (s.stream n) u o false ∧ .p ∉ cs ∧ .f ∉ cs ∧ .d ∉ cs ∧ Table.get none o.uses (keepParams (s.stream n).params o.params) = some sp ∧ (hidden = (if
      cs.any classConceals = true then concealedList row (s.stream n) sp o else [])) ∧ o.rasl = false ∧ o.parameterSetsOnly = false ∧ u.parameterSets
      = false)
    ∧ (∃ (s : State) (d : Nat) (n : Nat) (u : AccessUnit) (o : PictureOutcome) (cs : List ErrClass), s.running = true ∧ (s.dec d).job = some (n, u) ∧
      (s.dec d).replay = none ∧ cs = pictureClasses s ((s.cfgOf u.epoch).stream n) (s.stream n) u o true ∧ .p ∉ cs ∧ .f ∉ cs ∧ .d ∉ cs ∧ .w ∉ cs ∧ .v
      ∉ cs ∧ o.rasl = false ∧ o.parameterSetsOnly = false ∧ u.parameterSets = false)
    ∧ (∃ (s : State) (d : Nat) (n : Nat) (u : AccessUnit) (o : PictureOutcome) (cs : List ErrClass), s.running = true ∧ (s.dec d).job = some (n, u) ∧
      (s.dec d).replay = none ∧ cs = pictureClasses s ((s.cfgOf u.epoch).stream n) (s.stream n) u o false ∧ .p ∈ cs ∧ .f ∉ cs ∧ .d ∉ cs)
    ∧ (∃ (s : State) (d : Nat) (n : Nat) (u : AccessUnit) (o : PictureOutcome) (cs : List ErrClass), s.running = true ∧ (s.dec d).job = some (n, u) ∧
      (s.dec d).replay = none ∧ cs = pictureClasses s ((s.cfgOf u.epoch).stream n) (s.stream n) u o false ∧ (.f ∈ cs ∨ .d ∈ cs))
    ∧ (∃ (s : State) (d : Nat) (n : Nat) (ident : Nat) (u : AccessUnit), s.running = true ∧ (s.dec d).job = some (n, u) ∧ (s.dec d).replay = some
      ident) :=
  ⟨⟨decoding none, 0, 3, unit, goodPicture, _, _, aSequence, _, rfl, rfl, rfl, rfl, rfl, by decide +kernel, by decide +kernel, by decide +kernel, by decide +kernel, rfl, rfl, rfl, rfl⟩,
   ⟨decoding none, 0, 3, unit, goodPicture, pictureClasses (decoding none) (((decoding none).cfgOf 0).stream 3) ((decoding none).stream 3) unit goodPicture true, by decide +kernel⟩,
   ⟨decoding none, 0, 3, unit, { goodPicture with uses := 1 }, _, rfl, rfl, rfl, rfl, by decide +kernel, by decide +kernel, by decide +kernel⟩,
   ⟨decoding none, 0, 3, unit, { goodPicture with params := [(0, some { aSequence with interlaced := true })] }, _, rfl, rfl, rfl, rfl, by decide +kernel⟩,
   ⟨decoding (some 9), 0, 3, 9, unit, by decide +kernel⟩⟩

theorem test_meetsRecordsMarksAndSummaries :
    (∃ (s : State) (r : Rec) (rest : List Rec), s.answers = true ∧ s.journal.waiting = r :: rest ∧ s.journal.next < s.journal.lastMark)
    ∧ (∃ (s : State), s.answers = true ∧ s.journal.lastMark ≤ s.journal.next)
    ∧ (∃ (s : State), s.answers = true ∧ s.journal.marking = none)
    ∧ (∃ (s : State) (m : Nat), s.answers = true ∧ s.journal.marking = some m)
    ∧ (∃ (s : State), s.running = true) :=
  ⟨⟨{ up with journal := { waiting := [aRecord], lastMark := 1 } }, aRecord, [], by decide +kernel⟩,
   ⟨up, by decide +kernel⟩,
   ⟨up, by decide +kernel⟩,
   ⟨{ up with journal := { marking := some 262144 } }, 262144, by decide +kernel⟩,
   ⟨up, by decide +kernel⟩⟩

theorem test_meetsPicturesBecomeSamplesInBatches :
    (∃ (s : State) (a : Nat) (p : Picture), s.mayBegin = true ∧ (s.acct a).current = none ∧ zoneWaits s = false ∧ nextPicture s a = some p)
    ∧ (∃ (s : State) (a : Nat), s.mayBegin = true ∧ (s.acct a).current = none ∧ zoneWaits s = false ∧ nextPicture s a = none)
    ∧ (∃ (s : State), zoneWaits s = true)
    ∧ (∃ (s : State) (u : State) (a : Nat) (sats : Nat) (g : Nat) (p : Picture) (row : StreamRow) (bytes : List Byte) (fell : Bool), s.running = true
      ∧ (s.acct a).current = some p ∧ p.voidIn s = false ∧ row = (s.cfgOf p.epoch).stream p.stream ∧ (s.stream p.stream).hostTensors = [] ∧ (u =
      s.modAcct a (fun x => { x with current := none })) ∧ g = (homeRegion u p).getD row.region ∧ tensorsOf u (s.cfgOf p.epoch).model row (u.stream
      p.stream) p = (some (bytes, sats), fell))
    ∧ (∃ (s : State) (a : Nat) (p : Picture), s.running = true ∧ (s.acct a).current = some p ∧ p.voidIn s = true ∧ (s.stream p.stream).hostTensors =
      [])
    ∧ (∃ (s : State) (a : Nat) (n : Nat) (tick : Nat) (p : Picture), s.running = true ∧ (s.stream n).hostTensors.contains tick = false ∧
      ((s.accts.findSome? fun e => (e.2.queue.find? fun p => p.stream == n && p.tick == tick).map fun p => (e.1, p)) = some (a, p)))
    ∧ (∃ (s : State) (a : Nat) (n : Nat) (since : Nat) (ms : List Nat), s.running = true ∧ (s.acct a).lowSince = some since ∧ (s.acct a).marks = ms ++
      [n] ∧ (s.backlog a + s.costNs ((((s.acct a).queue.filter fun p => p.stream == n).map fun p => pictureCost (s.cfgOf p.epoch).model p).sum) ≤
      s.cfg.lowMark))
    ∧ (∃ (s : State) (a : Nat) (n : Nat) (since : Nat) (ms : List Nat), s.running = true ∧ (s.acct a).lowSince = some since ∧ (s.acct a).marks = ms ++
      [n] ∧ (s.cfg.lowMark < s.backlog a + s.costNs ((((s.acct a).queue.filter fun p => p.stream == n).map fun p => pictureCost (s.cfgOf
      p.epoch).model p).sum)))
    ∧ (∃ (s : State) (g : Nat) (a : Nat), s.running = true ∧ g < 4 ∧ a < 64 ∧ s.regionIssues g = true) :=
  ⟨⟨queued, 0, picture, by decide +kernel⟩,
   ⟨up, 0, by decide +kernel⟩,
   ⟨{ up with streams := [(3, { zoneQueue := [picture] })] }, by decide +kernel⟩,
   ⟨processing, _, 0, _, _, picture, _, _, _, rfl, rfl, by decide +kernel, rfl, rfl, rfl, rfl, rfl⟩,
   ⟨{ up with accts := [(0, { current := some { picture with stride := 16, lines := 16 } })], voids := [0] }, 0, { picture with stride := 16, lines := 16 }, by decide +kernel⟩,
   ⟨queued, 0, 3, 0, picture, by decide +kernel⟩,
   ⟨{ up with accts := [(0, { marks := [3], lowSince := some 0 })] }, 0, 3, 0, [], by decide +kernel⟩,
   ⟨{ queued with cfg := { model := { inputs := [{ cost := 10000000 }] } }, accts := [(0, { queue := [picture], marks := [3], lowSince := some 0 })] }, 0, 3, 0, [], by decide +kernel⟩,
   ⟨inRegion, 0, 63, by decide +kernel⟩⟩

theorem test_meetsTilesStartAndCommit :
    (∃ (s : State) (p : Nat) (i : TileIssue), mayIssue s p i = true ∧ (s.engine p).failedJobs.contains (parseTile i.cmd).job = false ∧ startCheck
      (s.tileEnv p i) = none)
    ∧ (∃ (s : State) (p : Nat) (i : TileIssue) (f : CheckFail), mayIssue s p i = true ∧ (s.engine p).failedJobs.contains (parseTile i.cmd).job = false
      ∧ startCheck (s.tileEnv p i) = some f)
    ∧ (∃ (s : State) (u : State) (p : Nat) (cycles : Nat) (r : Running) (x : TileEnv) (voidPart : Bool) (d : TileDone), s.running = true ∧ (s.engine
      p).running = some r ∧ cycles ≤ 30000 ∧ u = finishPasses s p r.issue ∧ x = u.tileEnv p r.issue ∧ (voidPart = (x.c.opcode == 3 && (s.engine
      p).combines.any fun b => b.job == x.c.job && b.tile == x.c.tile && b.empty)) ∧ x.attempt = (d, none) ∧ x.work ≠ [] ∧ voidPart = false)
    ∧ (∃ (s : State) (u : State) (p : Nat) (cycles : Nat) (r : Running) (x : TileEnv) (voidPart : Bool), s.running = true ∧ (s.engine p).running =
      some r ∧ cycles ≤ 30000 ∧ u = finishPasses s p r.issue ∧ x = u.tileEnv p r.issue ∧ (voidPart = (x.c.opcode == 3 && (s.engine p).combines.any fun
      b => b.job == x.c.job && b.tile == x.c.tile && b.empty)) ∧ (x.work = [] ∨ voidPart = true)) :=
  ⟨⟨withDescs 16 { slice := some (0, 0) }, 0, issue 5, by decide +kernel⟩,
   ⟨withDescs 16 { slice := some (0, 0) }, 0, issue 9, ⟨1, stRANGE⟩, by decide +kernel⟩,
   ⟨tileX.s, finishPasses tileX.s 0 (issue 5), 0, 30000, { issue := issue 5 }, tileY, false, tileY.attempt.1, by decide, by decide, by decide, rfl, rfl, by decide +kernel, Prod.ext rfl (by decide +kernel), by decide +kernel, rfl⟩,
   ⟨withDescs 16 { running := some { issue := noWork } }, _, 0, 0, { issue := noWork }, _, false, by decide, by decide, by decide, rfl, rfl, by decide +kernel, Or.inl (by decide +kernel)⟩⟩

theorem test_meetsTilesAreAbandonedOnFaults :
    (∃ (s : State) (p : Nat) (r : Running), s.running = true ∧ (s.engine p).running = some r ∧ (s.engine p).pipe.checksParity (s.planOf p r.issue) = true)
    ∧ (∃ (s : State) (p : Nat) (r : Running), (s.engine p).running = some r ∧ (s.engine p).pipe.checksParity (s.planOf p r.issue) = false)
    ∧ (∃ (s : State) (p : Nat) (r : Running) (d : TileDone) (f : TileFault), s.running = true ∧ (s.engine p).running = some r ∧ (s.tileEnv p
      r.issue).attempt = (d, some f) ∧ f.void = false)
    ∧ (∃ (s : State) (p : Nat) (r : Running) (d : TileDone) (f : TileFault), s.running = true ∧ (s.engine p).running = some r ∧ (s.tileEnv p
      r.issue).attempt = (d, some f) ∧ f.void = true)
    ∧ (∃ (s : State) (p : Nat) (r : Running), s.running = true ∧ (s.engine p).running = some r ∧ r.watchdogs = 0)
    ∧ (∃ (s : State) (p : Nat) (r : Running), s.running = true ∧ (s.engine p).running = some r ∧ r.watchdogs ≠ 0)
    ∧ (∃ (s : State) (p : Nat) (a : Nat), s.answers = true ∧ p < 72 ∧ a < engineSize) :=
  ⟨⟨withDescs 16 { running := some { issue := issue 5 }, pipe := { bc := some { blk := { pass := 0, slot := 0, token := false, codes := [] } } } }, 0, { issue := issue 5 }, by decide +kernel⟩,
   ⟨tileX.s, 0, { issue := issue 5 }, by decide +kernel⟩,
   ⟨(tileE 0 []).s, 0, { issue := issue 5 }, (tileE 0 []).attempt.1, ⟨false, 3, 0, 0, 0, 0, false, 255, 0, []⟩, by decide, by decide, Prod.ext rfl (by decide +kernel), rfl⟩,
   ⟨(tileE 16 [granule (engineBase 0)]).s, 0, { issue := issue 5 }, (tileE 16 [granule (engineBase 0)]).attempt.1, ⟨true, 4, 0, 0, 0, 0, false, 255, engineBase 0, []⟩, by decide, by decide, Prod.ext rfl (by decide +kernel), rfl⟩,
   ⟨tileX.s, 0, { issue := issue 5 }, by decide +kernel⟩,
   ⟨withDescs 16 { running := some { issue := issue 5, watchdogs := 1 } }, 0, { issue := issue 5, watchdogs := 1 }, by decide +kernel⟩,
   ⟨up, 71, engineSize - 1, by decide +kernel⟩⟩

theorem test_meetsDmaMovesRows :
    (∃ (s : State) (p : Nat) (cmd : List Byte), mayTransfer s p cmd = true ∧ dmaOk cmd = true)
    ∧ (∃ (s : State) (p : Nat) (cmd : List Byte), mayTransfer s p cmd = true ∧ dmaOk cmd = false)
    ∧ (∃ (s : State) (p : Nat) (d : Dma) (rest : List Dma) (c : DmaCmd), s.running = true ∧ (s.engine p).handoverFrom = none ∧ takeDma (s.engine
      p).dmas = some (d, rest) ∧ c = parseDma d.cmd ∧ waitsHandover s c = false ∧ s.flt.stopPhase ≠ 2 ∧ (∀ i < c.rows, ∀ k < c.len, placeOf (c.dstRow
      i + k) ≠ .register))
    ∧ (∃ (s : State) (p : Nat) (d : Dma) (rest : List Dma) (c : DmaCmd), s.running = true ∧ (s.engine p).handoverFrom = none ∧ takeDma (s.engine
      p).dmas = some (d, rest) ∧ c = parseDma d.cmd ∧ s.flt.stopPhase ≠ 2 ∧ c.rows = 1 ∧ inDram c.src c.len = true ∧ inDram c.dst c.len = true) :=
  ⟨⟨withDescs 16 {}, 0, dmaBytes 1, by decide +kernel⟩,
   ⟨withDescs 16 {}, 0, dmaBytes 0, by decide +kernel⟩,
   ⟨withDescs 16 { dmas := [{ cmd := dmaBytes 1 }] }, 0, { cmd := dmaBytes 1 }, [], parseDma (dmaBytes 1), by decide, by decide, by decide, rfl, by decide +kernel, by decide +kernel⟩,
   ⟨withDescs 16 { dmas := [{ cmd := dmaBytes 1 }] }, 0, { cmd := dmaBytes 1 }, [], parseDma (dmaBytes 1), by decide, by decide, by decide, rfl, by decide +kernel, by decide +kernel, by decide +kernel⟩⟩

theorem test_meetsHaloGroupsPartsAndSendsTravel :
    (∃ (s : State) (p : Nat) (port : Nat) (h : HaloMsg) (rest : List HaloMsg) (d : Desc), s.running = true ∧ (s.engine p).state = 0 ∧ (s.engine
      p).handoverFrom = none ∧ takeGroup (s.engine p).logical port s.halo = some (h, rest) ∧ ringDesc s p h.ring = some d ∧ forwardable s h d.groups =
      true)
    ∧ (∃ (s : State) (p : Nat) (port : Nat) (n : Nat) (rest : List (Nat × Nat × Nat)), s.running = true ∧ takeRelease (s.engine p).logical port
      s.haloBack = some (n, rest))
    ∧ (∃ (s : State) (c : Nat) (p : Nat) (job : Nat) (tile : Nat) (part : Nat) (parts : Nat) (o : SendOp) (rest : List SendOp) (cs : List Combine),
      s.running = true ∧ (s.engine c).state = 0 ∧ (s.engine c).handoverFrom = none ∧ arrivedBefore (s.engine c).combines job tile part = false ∧
      (takeSend (fun o => o.part == some (job, tile, part, parts) && o.dest == (s.engine c).logical) (s.engine p).sends = some (o, rest)) ∧
      joinCombine (s.engine c).combines job tile part parts o.empty = some cs)
    ∧ (∃ (s : State) (c : Nat) (job : Nat) (tile : Nat) (part : Nat), s.running = true ∧ (s.engine c).state = 0 ∧ (s.engine c).handoverFrom = none ∧
      arrivedBefore (s.engine c).combines job tile part = true)
    ∧ (∃ (s : State) (p : Nat) (q : Nat) (o : SendOp) (rest : List SendOp), s.running = true ∧ (takeSend (fun o => o.part.isNone && (receiver s
      o.dest).isSome) (s.engine p).sends = some (o, rest)) ∧ receiver s o.dest = some q) :=
  ⟨⟨{ withDescs 16 { descBase := some 0 } with halo := [⟨0, 0, 0, 0, [], [], 63⟩] }, 0, 0, ⟨0, 0, 0, 0, [], [], 63⟩, [], parseDesc (descBytes (engineBase 0) 16), by decide +kernel⟩,
   ⟨{ up with haloBack := [(0xFF, 1, 2)] }, 0, 1, 2, [], by decide +kernel⟩,
   ⟨{ up with engines := [(0, { state := 0, logical := 0 }), (1, { sends := [⟨0, [], some (0, 0, 0, 1), false⟩] })] }, 0, 1, 0, 0, 0, 1, ⟨0, [], some (0, 0, 0, 1), false⟩, [], [{ job := 0, tile := 0, parts := 1, arrived := [0] }], by decide +kernel⟩,
   ⟨withEngine 0 { state := 0, combines := [{ job := 0, tile := 0, parts := 1, arrived := [0] }] }, 0, 0, 0, 0, by decide +kernel⟩,
   ⟨{ up with engines := [(0, { state := 0, logical := 0 }), (1, { sends := [⟨0, [], none, false⟩] })] }, 1, 0, ⟨0, [], none, false⟩, [], by decide +kernel⟩⟩

theorem test_meetsClearingCommandsRunAndCommit :
    (∃ (s : State) (r : Nat) (k : Nat) (q : Nat) (cmd : List Byte) (i : Instr), clrTakes s r = true ∧ (k, i) ∈ [(1, Instr.assoc r cmd), (2, Instr.nms r
      cmd), (3, Instr.knn r cmd), (4, Instr.ident r cmd), (5, Instr.gather r cmd), (6, Instr.scatter r cmd)] ∧ ((if k = 4 then s.keeper else
      s.clrServing r) = some q) ∧ clrCheck s k (parseClr cmd) = none ∧ (s.clr q).job = none ∧ (s.clr q).held = [] ∧ (s.clr q).fenced = false ∧
      ownsStream s q (parseClr cmd) = true)
    ∧ (∃ (s : State) (r : Nat) (k : Nat) (q : Nat) (cmd : List Byte) (i : Instr), clrTakes s r = true ∧ (k, i) ∈ [(1, Instr.assoc r cmd), (2,
      Instr.nms r cmd), (3, Instr.knn r cmd), (4, Instr.ident r cmd), (5, Instr.gather r cmd), (6, Instr.scatter r cmd)] ∧ ((if k = 4 then s.keeper
      else s.clrServing r) = some q) ∧ clrCheck s k (parseClr cmd) = none ∧ (s.clr q).job ≠ none)
    ∧ (∃ (s : State) (r : Nat) (k : Nat) (q : Nat) (cmd : List Byte) (i : Instr) (st : _), clrTakes s r = true ∧ (k, i) ∈ [(1, Instr.assoc r cmd), (2,
      Instr.nms r cmd), (3, Instr.knn r cmd), (4, Instr.ident r cmd), (5, Instr.gather r cmd), (6, Instr.scatter r cmd)] ∧ ((if k = 4 then s.keeper
      else s.clrServing r) = some q) ∧ clrCheck s k (parseClr cmd) = some st)
    ∧ (∃ (s : State) (u : State) (r : Nat) (cycles : Nat) (j : ClrJob) (c : ClrCmd), s.running = true ∧ (s.clr r).job = some j ∧ c = parseClr j.cmd ∧
      clrVoid s c = false ∧ cycles ≤ 3000000 ∧ u = chargeClr s r j c cycles) :=
  ⟨⟨inRegion, 0, 5, 0, clrBytes 5, .gather 0 (clrBytes 5), by decide +kernel⟩,
   ⟨{ inRegion with clrs := [(0, { job := some { cmd := clrBytes 6, opcode := 6, expiries := 0 } })] }, 0, 6, 0, clrBytes 6, .scatter 0 (clrBytes 6), by decide +kernel⟩,
   ⟨inRegion, 0, 1, 0, clrBytes 2, .assoc 0 (clrBytes 2), stRANGE, by decide +kernel⟩,
   ⟨{ up with clrs := [(3, { job := some { cmd := clrBytes 6, opcode := 6 } })] }, _, 3, 0, { cmd := clrBytes 6, opcode := 6 }, parseClr (clrBytes 6), rfl, rfl, rfl, by decide +kernel, by decide, rfl⟩⟩

theorem test_meetsClearingCommandsAreAbandonedOrAudited :
    (∃ (s : State) (r : Nat) (j : ClrJob), s.running = true ∧ (s.clr r).job = some j ∧ j.expiries = 0)
    ∧ (∃ (s : State) (r : Nat) (j : ClrJob), s.running = true ∧ (s.clr r).job = some j ∧ j.expiries ≠ 0 ∧ (s.clr r).held = [])
    ∧ (∃ (s : State) (r : Nat) (a : Nat) (j : ClrJob), s.running = true ∧ (s.clr r).job = some j ∧ (parseClr j.cmd).opcode = 3 ∧ s.layout.gallery ≤ a
      ∧ a < s.layout.gallery + s.cfg.galleryBytes)
    ∧ (∃ (s : State) (r : Nat) (a : Nat) (j : ClrJob), s.running = true ∧ (s.clr r).job = some j ∧ (s.clr r).held = [] ∧ ((parseClr j.cmd).opcode ≠ 3
      ∨ a < s.layout.gallery ∨ s.layout.gallery + s.cfg.galleryBytes ≤ a))
    ∧ (∃ (s : State) (r : Nat) (j : ClrJob), s.running = true ∧ (s.clr r).job = some j ∧ (s.clr r).held = [])
    ∧ (∃ (s : State) (r : Nat), s.running = true ∧ r < 4 ∧ (s.clr r).fenced = false ∧ 0 < (s.clr r).auditDue)
    ∧ (∃ (s : State) (r : Nat), s.running = true ∧ r < 4 ∧ (s.clr r).fenced = false ∧ 0 < (s.clr r).auditDue ∧ (heldStrikes s (s.clr
      r).strikes).length < 2)
    ∧ (∃ (s : State) (r : Nat), s.running = true ∧ r < 4 ∧ (s.clr r).fenced = false ∧ 0 < (s.clr r).auditDue ∧ 2 ≤ (heldStrikes s (s.clr
      r).strikes).length) :=
  ⟨⟨{ up with clrs := [(3, { job := some { cmd := clrBytes 5, opcode := 5, expiries := 0 } })] }, 3, { cmd := clrBytes 5, opcode := 5, expiries := 0 }, by decide +kernel⟩,
   ⟨{ up with clrs := [(3, { job := some { cmd := clrBytes 5, opcode := 5, expiries := 1 } })] }, 3, { cmd := clrBytes 5, opcode := 5, expiries := 1 }, by decide +kernel⟩,
   ⟨{ up with clrs := [(0, { job := some { cmd := clrBytes 3, opcode := 3, expiries := 0 } })] }, 0, 0x740000000, { cmd := clrBytes 3, opcode := 3, expiries := 0 }, by decide +kernel⟩,
   ⟨{ up with clrs := [(3, { job := some { cmd := clrBytes 5, opcode := 5, expiries := 0 } })] }, 3, 0, { cmd := clrBytes 5, opcode := 5, expiries := 0 }, by decide +kernel⟩,
   ⟨{ up with clrs := [(3, { job := some { cmd := clrBytes 5, opcode := 5, expiries := 0 } })] }, 3, { cmd := clrBytes 5, opcode := 5, expiries := 0 }, by decide +kernel⟩,
   ⟨{ up with clrs := [(3, { auditDue := 1 })] }, 3, by decide +kernel⟩,
   ⟨{ up with clrs := [(3, { auditDue := 1 })] }, 3, by decide +kernel⟩,
   ⟨{ up with clrs := [(3, { auditDue := 1, strikes := [0, 0] })] }, 3, by decide +kernel⟩⟩

theorem test_meetsLedgerLinesSlotsAndOwners :
    (∃ (s : State), s.answers = true)
    ∧ (∃ (s : State) (slot : Nat), s.answers = true ∧ (s.track slot).state = .quarantine)
    ∧ (∃ (s : State) (n : Nat) (q : Nat), s.running = true ∧ s.clrServing (s.cfg.stream n).region = some q) :=
  ⟨⟨up, by decide +kernel⟩,
   ⟨{ up with ledger := { tracks := [(5, { state := .quarantine })] } }, 5, by decide +kernel⟩,
   ⟨up, 0, 0, by decide +kernel⟩⟩

theorem test_meetsEvidenceIsServed :
    (∃ (s : State) (req : List Byte) (src : Src) (k : Nat) (i : Instr), s.mayBegin = true ∧ field req 0 1 = k ∧ evReqOk s.cfg req = false ∧ (k, i) ∈ [(1,
      Instr.clipRequest req src), (2, Instr.liveViewStart req src), (3, Instr.liveViewStop req src)])
    ∧ (∃ (s : State) (req : List Byte) (r : EvReq) (row : StreamRow), s.mayBegin = true ∧ r = parseEvReq req ∧ r.kind = 1 ∧ evReqOk s.cfg req = true ∧
      row = s.cfg.stream r.stream ∧ replayPool < row.windowBytes)
    ∧ (∃ (s : State) (req : List Byte) (r : EvReq) (row : StreamRow) (n : Nat), s.mayBegin = true ∧ r = parseEvReq req ∧ r.kind = 1 ∧ evReqOk s.cfg
      req = true ∧ row = s.cfg.stream r.stream ∧ s.evidence.queue = [] ∧ s.pickEncoder row.pixelRate false = some n ∧ s.evidence.replayUsed +
      row.windowBytes ≤ replayPool)
    ∧ (∃ (s : State) (req : List Byte) (r : EvReq) (row : StreamRow), s.mayBegin = true ∧ r = parseEvReq req ∧ r.kind = 1 ∧ evReqOk s.cfg req = true ∧
      row = s.cfg.stream r.stream ∧ s.evidence.queue = [] ∧ row.windowBytes ≤ replayPool ∧ (s.pickEncoder row.pixelRate false = none ∨ replayPool <
      s.evidence.replayUsed + row.windowBytes))
    ∧ (∃ (s : State) (req : List Byte) (r : EvReq) (n : Nat), s.mayBegin = true ∧ r = parseEvReq req ∧ r.kind = 2 ∧ evReqOk s.cfg req = true ∧
      s.pickEncoder (s.cfg.stream r.stream).pixelRate true = some n)
    ∧ (∃ (s : State) (req : List Byte) (r : EvReq), s.mayBegin = true ∧ r = parseEvReq req ∧ r.kind = 2 ∧ evReqOk s.cfg req = true ∧ s.pickEncoder
      (s.cfg.stream r.stream).pixelRate true = none)
    ∧ (∃ (s : State) (req : List Byte) (r : EvReq) (o : Output), s.mayBegin = true ∧ r = parseEvReq req ∧ r.kind = 3 ∧ evReqOk s.cfg req = true ∧
      ((s.evidence.outputs.find? fun o => o.live && o.req.ident == r.ident) = some o))
    ∧ (∃ (s : State) (r : EvReq) (rest : List EvReq) (row : StreamRow) (n : Nat), s.mayBegin = true ∧ s.evidence.queue = r :: rest ∧ row = (s.cfgOf
      r.epoch).stream r.stream ∧ s.pickEncoder row.pixelRate false = some n ∧ s.evidence.replayUsed + row.windowBytes ≤ replayPool)
    ∧ (∃ (s : State) (n : Nat) (ident : Nat) (o : Output) (x : Source), s.running = true ∧ s.power.mediaHold = false ∧ s.output n ident = some o ∧
      o.sources.head? = some x)
    ∧ (∃ (s : State) (n : Nat) (ident : Nat) (row : Nat) (o : Output), s.output n ident = some o ∧ (s.power.mediaHold = true ∨ o.sources = [] ∨ o.row
      ≠ row))
    ∧ (∃ (s : State) (n : Nat) (ident : Nat) (o : Output), s.running = true ∧ s.output n ident = some o ∧ o.live = false ∧ o.sources = [] ∧ clipFed s
      o = true)
    ∧ (∃ (s : State), s.running = true)
    ∧ (∃ (s : State) (n : Nat), s.mayBegin = true ∧ n < 4 ∧ (s.encoder n).fenced = false ∧ s.encLoad n = 0) :=
  ⟨⟨up, evReq 1, .host, 1, .clipRequest (evReq 1) .host, by decide +kernel⟩,
   ⟨{ up with cfg := { streams := [(3, { streamRow with width := 8192, height := 8192, dpb := 16 })] } }, evReq 1, parseEvReq (evReq 1), { streamRow with width := 8192, height := 8192, dpb := 16 }, by decide +kernel⟩,
   ⟨withStream {}, evReq 1, parseEvReq (evReq 1), streamRow, 0, by decide +kernel⟩,
   ⟨noEncoder, evReq 1, parseEvReq (evReq 1), streamRow, by decide +kernel⟩,
   ⟨withStream {}, evReq 2, parseEvReq (evReq 2), 0, by decide +kernel⟩,
   ⟨noEncoder, evReq 2, parseEvReq (evReq 2), by decide +kernel⟩,
   ⟨{ withStream {} with evidence := { outputs := [{ req := parseEvReq (evReq 3), live := true }] } }, evReq 3, parseEvReq (evReq 3), { req := parseEvReq (evReq 3), live := true }, by decide +kernel⟩,
   ⟨{ withStream {} with evidence := { queue := [{ stream := 3 }] } }, { stream := 3 }, [], streamRow, 0, by decide +kernel⟩,
   ⟨{ up with evidence := { outputs := [{ req := { ident := 7 }, sources := [{ tick := 0, epoch := 0 }] }] } }, 0, 7, { req := { ident := 7 }, sources := [{ tick := 0, epoch := 0 }] }, { tick := 0, epoch := 0 }, rfl, rfl, rfl, rfl⟩,
   ⟨{ up with evidence := { outputs := [{ req := { ident := 7 } }] } }, 0, 7, 0, { req := { ident := 7 } }, by decide +kernel⟩,
   ⟨{ up with evidence := { outputs := [{ req := { ident := 7 }, flags := 2 }] } }, 0, 7, { req := { ident := 7 }, flags := 2 }, by decide +kernel⟩,
   ⟨up, by decide +kernel⟩,
   ⟨up, 3, by decide +kernel⟩⟩

theorem test_meetsHeadsAreAdaptedAndAdopted :
    (∃ (s : State) (a : AdaptSettings), s.mayBegin = true ∧ s.adaptOn = some a ∧ s.adapt.job = none ∧ a.batch ≤ (s.training a).length)
    ∧ (∃ (s : State) (a : AdaptSettings) (j : Job) (inputs : List (List W32)), s.running = true ∧ s.adapt.regions ≠ 0 ∧ s.adaptOn = some a ∧
      s.adapt.job = some j ∧ s.adapt.phase = 1 ∧ inputs.length = a.batch ∧ j.step < a.steps)
    ∧ (∃ (s : State) (a : AdaptSettings) (j : Job) (p : List (List W32)) (q : List (List W32)), s.mayBegin = true ∧ s.adaptOn = some a ∧ s.adapt.job =
      some j ∧ s.adapt.phase = 3 ∧ s.adapt.candidate = none ∧ p.length = (s.validation a).length ∧ q.length = (s.validation a).length ∧ s.stl.batch =
      none ∧ s.stl.update = none ∧ a.leastVal ≤ (s.validation a).length ∧ correctCount a.heads (s.validation a) q + a.margin ≤ correctCount a.heads
      (s.validation a) (candidateLogits a.heads j.weights p) ∧ internalChecks (gateOutcome s a j (candidateLogits a.heads j.weights p) q)
      [adoptionEntry (gateOutcome s a j (candidateLogits a.heads j.weights p) q)] s.cfg (s.time.now + second) none = none)
    ∧ (∃ (s : State) (a : AdaptSettings) (j : Job) (p : List (List W32)) (q : List (List W32)), s.mayBegin = true ∧ s.adaptOn = some a ∧ s.adapt.job =
      some j ∧ s.adapt.phase = 3 ∧ s.adapt.candidate = none ∧ p.length = (s.validation a).length ∧ q.length = (s.validation a).length ∧ ((s.validation
      a).length < a.leastVal ∨ correctCount a.heads (s.validation a) (candidateLogits a.heads j.weights p) < correctCount a.heads (s.validation a) q +
      a.margin))
    ∧ (∃ (s : State), s.running = true ∧ s.adapt.retry = true ∧ s.stl.batch = none ∧ s.stl.update = none ∧ s.adapt.candidate ≠ none ∧ s.adapt.attempts
      < 2 ∧ internalChecks s [adoptionEntry s] s.cfg (s.time.now + second) none = none)
    ∧ (∃ (s : State), s.running = true ∧ s.adapt.retry = true ∧ s.stl.batch = none ∧ s.stl.update = none ∧ s.adapt.candidate ≠ none ∧ s.adapt.attempts
      < 2 ∧ internalChecks s [adoptionEntry s] s.cfg (s.time.now + second) none ≠ none)
    ∧ (∃ (s : State), s.running = true ∧ s.adapt.retry = true ∧ s.stl.batch = none ∧ s.stl.update = none ∧ s.adapt.candidate ≠ none ∧ 2 ≤
      s.adapt.attempts)
    ∧ (∃ (s : State) (a : Nat) (bs : List Byte), s.answers = true ∧ a % 64 = 0 ∧ bs.length = 64 ∧ inDeviceMemory a 64 = true) :=
  ⟨⟨adapting {}, adaptOn, by decide +kernel⟩,
   ⟨{ adapting {} with adapt := { regions := 1, phase := 1, job := some { number := 0, snapshot := [], p1 := 0, p2 := 0 } } }, adaptOn, { number := 0, snapshot := [], p1 := 0, p2 := 0 }, [[]], by decide +kernel⟩,
   ⟨{ adapting {} with adapt := { phase := 3, job := some { number := 0, snapshot := [], p1 := 0, p2 := 0 }, samples := [] } }, adaptOn, { number := 0, snapshot := [], p1 := 0, p2 := 0 }, [], [], by decide +kernel⟩,
   ⟨{ adapting {} with adapt := { phase := 3, job := some { number := 0, snapshot := [], p1 := 0, p2 := 0 }, samples := [] }, cfg := { adapt := some { adaptOn with leastVal := 16 } } }, { adaptOn with leastVal := 16 }, { number := 0, snapshot := [], p1 := 0, p2 := 0 }, [], [], by decide +kernel⟩,
   ⟨{ up with adapt := { retry := true, candidate := some (0, []) } }, by decide +kernel⟩,
   ⟨{ withStream {} with cfg := { streams := [(3, streamRow)], accounts := [(0, { mask := 1 })] }, adapt := { retry := true, candidate := some (0, []) } }, by decide +kernel⟩,
   ⟨{ up with adapt := { retry := true, candidate := some (0, []), attempts := 2 } }, by decide +kernel⟩,
   ⟨up, 0, List.replicate 64 1#8, by decide +kernel⟩⟩

theorem test_meetsAuditsAreSettled :
    (∃ (s : State) (p : Nat) (a : Audit), auditReady s p = true ∧ auditOf s p false = some a)
    ∧ (∃ (s : State) (p : Nat) (a : Audit), auditReady s p = true ∧ auditOf s p false = some a ∧ auditMeetsVoid s a = false)
    ∧ (∃ (s : State) (p : Nat) (q : Nat) (a : Audit), auditReady s p = true ∧ auditOf s p false = some a ∧ auditMeetsVoid s a = false ∧ nextInService
      s (s.engine p).logical [a.engine, p] = some q)
    ∧ (∃ (s : State) (p : Nat) (a : Audit), auditReady s p = true ∧ auditOf s p false = some a ∧ auditMeetsVoid s a = false ∧ nextInService s
      (s.engine p).logical [a.engine, p] = none)
    ∧ (∃ (s : State) (p : Nat) (v : Bool) (a : Audit), auditReady s p = true ∧ auditOf s p true = some a ∧ (v = true ∨ auditMeetsVoid s a = true))
    ∧ (∃ (s : State) (p : Nat) (a : Audit), auditReady s p = true ∧ auditOf s p true = some a ∧ auditMeetsVoid s a = false ∧ (s.engine
      a.auditor).state ≤ 1 ∧ (s.engine a.auditor).fencePending = false ∧ (s.engine a.auditor).rotateTo = none ∧ (heldStrikes s (s.engine
      a.auditor).strikes).length < 2)
    ∧ (∃ (s : State) (p : Nat) (a : Audit), auditReady s p = true ∧ auditOf s p true = some a ∧ auditMeetsVoid s a = false ∧ (s.engine a.engine).state
      ≤ 1 ∧ (s.engine a.engine).fencePending = false ∧ (s.engine a.engine).rotateTo = none ∧ (heldStrikes s (s.engine a.engine).strikes).length < 2)
    ∧ (∃ (s : State) (g : Nat), s.running = true ∧ g < 4)
    ∧ (∃ (s : State) (p : Nat) (h : Nat) (r : List Nat), s.answers = true ∧ (s.engine p).strikes = h :: r) :=
  ⟨⟨auditing audit, 1, audit, by decide +kernel⟩,
   ⟨auditing audit, 1, audit, by decide +kernel⟩,
   ⟨{ auditing audit with engines := [(1, { state := 0, logical := 1 }), (2, { state := 0, logical := 2 })] }, 1, 2, audit, by decide +kernel⟩,
   ⟨{ auditing audit with engines := [(1, { state := 0, logical := 1 })] }, 1, audit, by decide +kernel⟩,
   ⟨auditing { audit with third := some 5 }, 5, true, { audit with third := some 5 }, by decide +kernel⟩,
   ⟨auditing { audit with third := some 5 }, 5, { audit with third := some 5 }, by decide +kernel⟩,
   ⟨auditing { audit with third := some 5 }, 5, { audit with third := some 5 }, by decide +kernel⟩,
   ⟨up, 3, by decide +kernel⟩,
   ⟨withEngine 3 { strikes := [5] }, 3, 5, [], by decide +kernel⟩⟩

theorem test_meetsEnginesChangeState :
    (∃ (s : State) (p : Nat) (f : Nat) (fs : List Nat), s.mayBegin = true ∧ (s.engine p).state = 2 ∧ (s.engine p).underAssay = false ∧ (s.engine p).fences
      = fs ++ [f])
    ∧ (∃ (s : State) (r : AssayResult), s.answers = true ∧ (s.engine r.engine).underAssay = true ∧ (r.fixedOk = false ∨ 16 < r.correctedErrors) ∧
      s.flt.candidates = [])
    ∧ (∃ (s : State) (r : AssayResult), s.answers = true ∧ (s.engine r.engine).underAssay = true ∧ r.fixedOk = true ∧ r.correctedErrors ≤ 16 ∧
      s.flt.candidates = [] ∧ s.flt.reference = some r.digest)
    ∧ (∃ (s : State) (r : AssayResult) (q : Nat), s.answers = true ∧ (s.engine r.engine).underAssay = true ∧ r.fixedOk = true ∧ r.correctedErrors ≤ 16
      ∧ s.flt.candidates = [(q, r.digest)] ∧ q ≠ r.engine ∧ s.flt.reference = none)
    ∧ (∃ (s : State) (u : State) (g : Nat) (p : Nat) (q : Nat), s.mayBegin = true ∧ g < 4 ∧ u = s.atElapsed (nextRotation s g) ∧ oldestAssay u g =
      some p ∧ spareFor u g = some q ∧ rotationFree u g = true ∧ (s.engine p).running = none)
    ∧ (∃ (s : State) (u : State) (d : Nat) (q : Nat), s.mayBegin = true ∧ u = toDecodeRotation s ∧ decSpare u = some q ∧ rotatingDec u = some d ∧
      (s.dec d).job = none ∧ (s.dec d).fence = false)
    ∧ (∃ (s : State) (u : State) (d : Nat) (q : Nat), s.mayBegin = true ∧ u = toDecodeRotation s ∧ decSpare u = some q ∧ rotatingDec u = some d ∧
      (s.dec d).job ≠ none)
    ∧ (∃ (s : State) (d : Nat), s.answers = true ∧ (s.dec d).state = 3)
    ∧ (∃ (s : State) (p : Nat) (q : Nat) (since : Nat), s.answers = true ∧ s.Stored ∧ (s.engine p).handoverFrom = some (q, since))
    ∧ (∃ (s : State) (p : Nat) (q : Nat) (since : Nat), s.answers = true ∧ (s.engine p).handoverFrom = some (q, since)) :=
  ⟨⟨withEngine 71 { state := 2, fences := [0] }, 71, 0, [], by decide +kernel⟩,
   ⟨withEngine 0 { underAssay := true }, ⟨0, false, 0, 7⟩, by decide +kernel⟩,
   ⟨{ withEngine 0 { underAssay := true } with flt := { reference := some 7 } }, ⟨0, true, 16, 7⟩, by decide +kernel⟩,
   ⟨{ withEngine 0 { underAssay := true } with flt := { candidates := [(5, 7)] } }, ⟨0, true, 0, 7⟩, 5, by decide +kernel⟩,
   ⟨rotating, rotating.atElapsed (nextRotation rotating 0), 0, 0, 1, rfl, by decide, rfl, by decide +kernel, by decide +kernel, by decide +kernel, by decide⟩,
   ⟨{ up with decs := [(0, { state := 0 })] }, toDecodeRotation { up with decs := [(0, { state := 0 })] }, 0, 1, rfl, rfl, by decide +kernel, oneDec _ (by decide +kernel), rfl, rfl⟩,
   ⟨decoding none, toDecodeRotation (decoding none), 0, 1, rfl, rfl, by decide +kernel, oneDec _ (by decide +kernel), by decide⟩,
   ⟨{ up with decs := [(2, { state := 3 })] }, 2, by decide +kernel⟩,
   ⟨withEngine 0 { handoverFrom := some (1, 0) }, 0, 1, 0, rfl, ⟨by decide, by decide⟩, rfl⟩,
   ⟨withEngine 0 { handoverFrom := some (1, 0) }, 0, 1, 0, by decide +kernel⟩⟩

theorem test_meetsStopsAndHaltsTakeEffect :
    (∃ (s : State) (source : Nat) (unit : Nat) (b : Bool) (c : Instr), s.phase ≠ .inReset ∧ s.phase ≠ .safe ∧ (c = .chipFatal source unit ∨ c =
      .supplyMonitorFault b unit))
    ∧ (∃ (s : State), s.phase = .safe)
    ∧ (∃ (s : State), s.flt.stopPhase = 1 ∧ s.stopPending = 0)
    ∧ (∃ (s : State) (c : Instr) (imm : Bool), s.answers = true ∧ (c, imm) ∈ [(Instr.halt, false), (Instr.haltImmediate, true)] ∧ (s.fuses.lifecycle =
      0 ∨ s.permits 2 = true) ∧ s.flt.debugHalt = false ∧ s.stl.batch = none ∧ s.phase ≠ .safe)
    ∧ (∃ (s : State) (c : Instr) (imm : Bool), s.answers = true ∧ (c, imm) ∈ [(Instr.halt, false), (Instr.haltImmediate, true)] ∧ ((s.fuses.lifecycle
      ≠ 0 ∧ s.permits 2 = false) ∨ s.flt.debugHalt = true ∨ s.stl.batch ≠ none ∨ s.phase = .safe))
    ∧ (∃ (s : State), s.answers = true ∧ s.flt.debugHalt = true ∧ s.phase ≠ .safe)
    ∧ (∃ (s : State), s.answers = true ∧ (s.flt.debugHalt = false ∨ s.phase = .safe)) :=
  ⟨⟨up, 0, 0, true, .chipFatal 0 0, by decide, by decide, Or.inl rfl⟩,
   ⟨{ up with phase := .safe }, by decide +kernel⟩,
   ⟨{ up with flt := { stopPhase := 1 } }, by decide +kernel⟩,
   ⟨up, .halt, false, by decide +kernel⟩,
   ⟨{ up with fuses := { lifecycle := 2 } }, .haltImmediate, true, by decide +kernel⟩,
   ⟨{ up with flt := { debugHalt := true } }, by decide +kernel⟩,
   ⟨up, by decide +kernel⟩⟩

theorem test_meetsZonesAreEvaluated :
    (∃ (s : State) (n : Nat) (tick : Nat) (l0 : Nat) (l1 : Nat) (z : Nat) (p : Picture), s.mayBegin = true ∧ (((s.stream n).zoneQueue.find? fun p =>
      p.tick == tick) = some p) ∧ (p.void = true ∨ l0 ≠ l1) ∧ z ∈ s.zonesReading p.stream)
    ∧ (∃ (s : State) (n : Nat) (tick : Nat) (g0 : Nat) (g1 : Nat) (g2 : Option Nat) (p : Picture), s.mayBegin = true ∧ (((s.stream n).zoneQueue.find?
      fun p => p.tick == tick) = some p) ∧ p.void = false ∧ (s.cfgOf p.epoch).zoneModel ≠ none ∧ zoneRegions s.ableRegions (p.stream +
      p.zoneWindow.getD 0) = some (g0, g1, g2))
    ∧ (∃ (s : State) (o : ZoneOutput), s.mayBegin = true ∧ ((s.saf.evals.find? fun x => x.matches s o) = none))
    ∧ (∃ (s : State) (o : ZoneOutput) (x : Eval) (c : List Int), s.mayBegin = true ∧ ((s.saf.evals.find? fun x => x.matches s o) = some x) ∧ x.decided
      = false ∧ s.time.now < x.deadline ∧ x.outputs = [none, none, none] ∧ o.mapping < 2 ∧ o.codes = some c)
    ∧ (∃ (s : State) (o : ZoneOutput) (x : Eval) (c : List Int) (e0 : Nat) (z : Nat) (i : Nat), s.mayBegin = true ∧ ((s.saf.evals.find? fun x =>
      x.matches s o) = some x) ∧ x.decided = false ∧ s.time.now < x.deadline ∧ x.outputs = [some (e0, some c), none, none] ∧ o.mapping = 1 ∧ o.codes =
      some c ∧ z ∈ s.zonesReading x.stream ∧ (s.zone z).state ≠ .off ∧ (((s.cellsOf x z).find? fun i => decide ((s.zone z).row.theta ≤ c.getD i
      (-128))) = some i))
    ∧ (∃ (s : State) (o : ZoneOutput) (x : Eval) (c : List Int) (e0 : Nat) (z : Nat), s.mayBegin = true ∧ ((s.saf.evals.find? fun x => x.matches s o)
      = some x) ∧ x.decided = false ∧ s.time.now < x.deadline ∧ x.outputs = [some (e0, some c), none, none] ∧ o.mapping = 1 ∧ o.codes = some c ∧
      (s.zonesReading x.stream).Nodup ∧ z ∈ s.zonesReading x.stream ∧ (((s.cellsOf x z).find? fun i => decide ((s.zone z).row.theta ≤ c.getD i
      (-128))) = none) ∧ x.good = true ∧ x.age ≤ (s.zone z).ageNs ∧ x.epoch = s.stl.epoch.toNat ∧ (s.zone z).since < x.arrival)
    ∧ (∃ (s : State) (o : ZoneOutput) (x : Eval) (c : List Int) (d : List Int) (e0 : Nat) (l : Nat), s.mayBegin = true ∧ ((s.saf.evals.find? fun x =>
      x.matches s o) = some x) ∧ x.decided = false ∧ s.time.now < x.deadline ∧ x.outputs = [some (e0, some c), none, none] ∧ o.mapping = 1 ∧ o.codes =
      some d ∧ c ≠ d ∧ x.third = some l ∧ x.thirdStarted = false)
    ∧ (∃ (s : State) (o : ZoneOutput) (x : Eval) (c : List Int) (d : List Int) (e0 : Nat) (z : Nat), s.mayBegin = true ∧ ((s.saf.evals.find? fun x =>
      x.matches s o) = some x) ∧ x.decided = false ∧ s.time.now < x.deadline ∧ x.outputs = [some (e0, some c), none, none] ∧ o.mapping = 1 ∧ o.codes =
      some d ∧ c ≠ d ∧ x.third = none ∧ z ∈ s.zonesReading x.stream ∧ (s.zone z).state ≠ .off)
    ∧ (∃ (s : State) (n : Nat) (tick : Nat) (z : Nat) (x : Eval), s.mayBegin = true ∧ ((s.saf.evals.find? fun x => x.stream == n && x.tick == tick &&
      !x.decided) = some x) ∧ z ∈ s.zonesReading n ∧ (s.zone z).state ≠ .off)
    ∧ (∃ (s : State) (n : Nat) (tick : Nat) (z : Nat) (p : Picture), s.mayBegin = true ∧ ((s.saf.evals.find? fun x => x.stream == n && x.tick == tick
      && !x.decided) = none) ∧ (((s.stream n).zoneQueue.find? fun p => p.tick == tick) = some p) ∧ p.stream = n ∧ z ∈ s.zonesReading n ∧ (s.zone
      z).state ≠ .off) :=
  ⟨⟨{ zoned with streams := [(3, { zoneQueue := [{ picture with void := true }] })] }, 3, 0, 0, 0, 0, { picture with void := true }, by decide +kernel⟩,
   ⟨{ zoned with engines := [0, 18, 36, 54].map fun p => (p, { state := 0, logical := p }) }, 3, 0, 3, 0, some 1, picture, by decide +kernel⟩,
   ⟨up, ⟨3, 0, 0, 0, 0, some []⟩, by decide +kernel⟩,
   ⟨evaluating { stream := 3, tick := 0, epoch := 0, arrival := 1, deadline := 1000, good := true, age := 0, engines := [0, 1], width := 1, height := 1 }, ⟨3, 0, 0, 0, 0, some [5]⟩, { stream := 3, tick := 0, epoch := 0, arrival := 1, deadline := 1000, good := true, age := 0, engines := [0, 1], width := 1, height := 1 }, [5], by decide +kernel⟩,
   ⟨evaluating ({ stream := 3, tick := 0, epoch := 0, arrival := 1, deadline := 1000, good := true, age := 0, engines := [0, 1], width := 1, height := 1, outputs := [some (0, some [100]), none, none] }), ⟨3, 0, 0, 1, 1, some [100]⟩, { stream := 3, tick := 0, epoch := 0, arrival := 1, deadline := 1000, good := true, age := 0, engines := [0, 1], width := 1, height := 1, outputs := [some (0, some [100]), none, none] }, [100], 0, 0, 0, by decide +kernel⟩,
   ⟨evaluating ({ stream := 3, tick := 0, epoch := 0, arrival := 1, deadline := 1000, good := true, age := 0, engines := [0, 1], width := 1, height := 1, outputs := [some (0, some [0]), none, none] }), ⟨3, 0, 0, 1, 1, some [0]⟩, { stream := 3, tick := 0, epoch := 0, arrival := 1, deadline := 1000, good := true, age := 0, engines := [0, 1], width := 1, height := 1, outputs := [some (0, some [0]), none, none] }, [0], 0, 0, by decide +kernel⟩,
   ⟨evaluating ({ stream := 3, tick := 0, epoch := 0, arrival := 1, deadline := 1000, good := true, age := 0, engines := [0, 1], width := 1, height := 1, third := some 2, outputs := [some (0, some [5]), none, none] }), ⟨3, 0, 0, 1, 1, some [6]⟩, { stream := 3, tick := 0, epoch := 0, arrival := 1, deadline := 1000, good := true, age := 0, engines := [0, 1], width := 1, height := 1, third := some 2, outputs := [some (0, some [5]), none, none] }, [5], [6], 0, 2, by decide +kernel⟩,
   ⟨evaluating ({ stream := 3, tick := 0, epoch := 0, arrival := 1, deadline := 1000, good := true, age := 0, engines := [0, 1], width := 1, height := 1, outputs := [some (0, some [5]), none, none] }), ⟨3, 0, 0, 1, 1, some [6]⟩, { stream := 3, tick := 0, epoch := 0, arrival := 1, deadline := 1000, good := true, age := 0, engines := [0, 1], width := 1, height := 1, outputs := [some (0, some [5]), none, none] }, [5], [6], 0, 0, by decide +kernel⟩,
   ⟨evaluating ({ stream := 3, tick := 0, epoch := 0, arrival := 1, deadline := 1000, good := true, age := 0, engines := [0, 1], width := 1, height := 1 }), 3, 0, 0, { stream := 3, tick := 0, epoch := 0, arrival := 1, deadline := 1000, good := true, age := 0, engines := [0, 1], width := 1, height := 1 }, by decide +kernel⟩,
   ⟨zoned, 3, 0, 0, picture, by decide +kernel⟩⟩

theorem test_meetsZonePeriodsAndChannels :
    (∃ (s : State) (z : Nat), s.mayBegin = true ∧ (s.zone z).state ≠ .off ∧ (∀ e ∈ s.stl.safetyZones, e.1 ≠ z) ∧ (s.zone z).inputThisPeriod = true)
    ∧ (∃ (s : State) (z : Nat), s.mayBegin = true ∧ (s.zone z).state ≠ .off ∧ (∀ e ∈ s.stl.safetyZones, e.1 ≠ z) ∧ (s.zone z).inputThisPeriod = false)
    ∧ (∃ (s : State) (z : Nat), s.mayBegin = true ∧ (s.zone z).state ≠ .off)
    ∧ (∃ (s : State) (u : State) (z : Nat), s.mayBegin = true ∧ ((s.zone z).state = .start ∨ (s.zone z).state = .occupied) ∧ u = s.atStation ((s.zone
      z).since + (s.zone z).row.hold * 1000000) ∧ (s.zone z).row.cCount ≤ (s.zone z).q ∧ (s.zone z).since + (s.zone z).row.hold * 1000000 ≤
      u.time.now)
    ∧ (∃ (s : State) (z : Nat), s.mayBegin = true ∧ (s.zone z).state ≠ .off ∧ (s.zone z).q < (s.zone z).row.cCount)
    ∧ (∃ (s : State) (n : Nat), s.answers = true ∧ n < 16 ∧ (s.channel n).toggling = true)
    ∧ (∃ (s : State) (n : Nat), s.answers = true ∧ n < 16 ∧ (s.channel n).toggling = false)
    ∧ (∃ (s : State) (n : Nat) (a : Bool) (b : Bool), s.answers = true ∧ n < 16 ∧ (s.channel n).latched = false ∧ (s.channel n).mismatches ≠ 0 ∧ (a ≠
      (s.channel n).levelA ∨ b ≠ (s.channel n).levelB)) :=
  ⟨⟨oneZone { state := .clear, inputThisPeriod := true }, 0, by decide +kernel⟩,
   ⟨oneZone { state := .clear }, 0, by decide +kernel⟩,
   ⟨oneZone { state := .clear }, 0, by decide +kernel⟩,
   ⟨oneZone { state := .start, q := 9, row := { holdMs := 1 } }, (oneZone { state := .start, q := 9, row := { holdMs := 1 } }).atStation 1000000, 0, by decide +kernel⟩,
   ⟨oneZone { state := .start }, 0, by decide +kernel⟩,
   ⟨oneChannel { toggling := true }, 0, by decide +kernel⟩,
   ⟨oneChannel {}, 15, by decide +kernel⟩,
   ⟨oneChannel { mismatches := 1 }, 0, true, false, by decide +kernel⟩⟩

theorem test_meetsDramIsKeptAndRepaired :
    (∃ (s : State) (n : Nat) (port : Nat), s.answers = true ∧ n < 2 ∧ Table.get 0 port (s.dram n).panic ≠ 0)
    ∧ (∃ (s : State) (n : Nat) (c : Nat) (b : Nat), s.answers = true ∧ n < 2 ∧ c < 16 ∧ b < 64 ∧ (s.dram n).state = 0)
    ∧ (∃ (s : State) (n : Nat), s.answers = true ∧ n < 2 ∧ (s.dram n).state ≠ 3)
    ∧ (∃ (s : State) (n : Nat) (c : Nat), s.answers = true ∧ n < 2 ∧ c < 16 ∧ (s.dram n).state = 0)
    ∧ (∃ (s : State) (n : Nat) (c : Nat), s.answers = true ∧ n < 2 ∧ c < 16 ∧ (s.dram n).state = 0 ∧ 2 ≤ Table.get 0 (2 * c) (s.dram n).retrainFails)
    ∧ (∃ (s : State) (a : Nat), s.answers = true ∧ a < dramEnd ∧ s.anyVoid a 1 = true)
    ∧ (∃ (s : State) (a : Nat), s.answers = true ∧ a < dramEnd)
    ∧ (∃ (s : State) (a : Nat) (n : Nat) (row : Nat), s.answers = true ∧ a < dramEnd ∧ s.anyVoid a 1 = false ∧ n = stackOf a ∧ row = Config.dramRow a
      ∧ (recent s.time.elapsed day (Table.get [] row (s.dram n).rowErrors)).length < 3)
    ∧ (∃ (s : State) (a : Nat) (n : Nat) (row : Nat), s.answers = true ∧ a < dramEnd ∧ s.anyVoid a 1 = false ∧ n = stackOf a ∧ row = Config.dramRow a
      ∧ 3 ≤ (recent s.time.elapsed day (Table.get [] row (s.dram n).rowErrors)).length ∧ (s.dram n).remapped.contains row = false ∧ (s.dram
      n).remapFree ≠ 0)
    ∧ (∃ (s : State) (a : Nat) (n : Nat) (row : Nat), s.answers = true ∧ a < dramEnd ∧ s.anyVoid a 1 = false ∧ n = stackOf a ∧ row = Config.dramRow a
      ∧ (s.dram n).remapped.contains row = false ∧ (s.dram n).remapFree ≠ 0)
    ∧ (∃ (s : State) (g : Nat) (a : Nat), s.answers = true ∧ g < 4 ∧ a < 0x2000000 ∧ s.anyVoid (regionBase g + a) 1 = false)
    ∧ (∃ (s : State) (r : Nat) (a : Nat), s.answers = true ∧ r < 4 ∧ a < 0x10000000 ∧ s.anyVoid (s.layout.ledger + a) 1 = false)
    ∧ (∃ (s : State) (n : Nat) (row : Nat), s.answers = true ∧ n < 2 ∧ row ∈ (s.dram n).marked ∧ (s.dram n).repairing = none ∧ (((s.dram
      n).repaired.any fun r => decide (Config.dramBank r = Config.dramBank row)) = false))
    ∧ (∃ (s : State) (n : Nat) (row : Nat), s.answers = true ∧ n < 2 ∧ row ∈ (s.dram n).marked ∧ (s.dram n).repairing = none ∧ (((s.dram
      n).repaired.any fun r => decide (Config.dramBank r = Config.dramBank row)) = true))
    ∧ (∃ (s : State) (n : Nat) (row : Nat), s.answers = true ∧ n < 2 ∧ (s.dram n).repairing = some row) :=
  ⟨⟨oneStack { panic := [(7, 1)] }, 0, 7, by decide +kernel⟩,
   ⟨oneStack { state := 0 }, 0, 15, 63, by decide +kernel⟩,
   ⟨up, 1, by decide +kernel⟩,
   ⟨oneStack { state := 0 }, 0, 15, by decide +kernel⟩,
   ⟨oneStack { state := 0, retrainFails := [(30, 2)] }, 0, 15, by decide +kernel⟩,
   ⟨{ up with voids := [0] }, 0, by decide +kernel⟩,
   ⟨up, dramEnd - 1, by decide +kernel⟩,
   ⟨up, 0, 0, Config.dramRow 0, by decide +kernel, by decide, by decide +kernel, by decide +kernel, rfl, by decide⟩,
   ⟨oneStack { rowErrors := [(Config.dramRow 0, [0, 0, 0])] }, 0, 0, Config.dramRow 0, rfl, by decide, by decide +kernel, by decide +kernel, rfl, by simp [oneStack, State.dram, Table.get, up, recent, State.reset, day, second], rfl, by decide⟩,
   ⟨up, 0, 0, Config.dramRow 0, by decide +kernel, by decide, by decide +kernel, by decide +kernel, rfl, rfl, by decide⟩,
   ⟨up, 3, 0x1FFFFFF, by decide +kernel⟩,
   ⟨up, 3, 0xFFFFFFF, by decide +kernel⟩,
   ⟨oneStack { marked := [7] }, 0, 7, rfl, by decide, by decide, rfl, rfl⟩,
   ⟨oneStack { marked := [7], repaired := [7] }, 0, 7, rfl, by decide, by decide, rfl, by simp [oneStack, State.dram, Table.get]⟩,
   ⟨oneStack { repairing := some 7 }, 0, 7, by decide +kernel⟩⟩

theorem test_meetsTheEndpointAnswersTheHost :
    (∃ (s : State) (v : Nat) (w : Nat), s.answers = true ∧ s.pins.pcieOff = false ∧ s.pins.refLostPcie = false ∧ 1 ≤ v ∧ v ≤ 5 ∧ w ∈ [1, 2, 4, 8])
    ∧ (∃ (s : State), s.answers = true ∧ s.pci.up = true)
    ∧ (∃ (s : State) (g : _), g ∈ [16, 32, 64] ∧ s.answers = true ∧ s.pci.up = true)
    ∧ (∃ (s : State) (g : _), s.answers = true ∧ s.pci.up = true ∧ g ∉ [16, 32, 64])
    ∧ (∃ (s : State) (off : Nat) (bs : List Byte), s.pciServes = true ∧ off + bs.length ≤ s.pci.bar2Gib * 2 ^ 30 ∧ inStaging s off bs.length = true)
    ∧ (∃ (s : State) (off : Nat) (bs : List Byte), s.pciServes = true ∧ off + bs.length ≤ s.pci.bar2Gib * 2 ^ 30 ∧ inStaging s off bs.length = false)
    ∧ (∃ (s : State) (off : Nat) (n : Nat), s.pciServes = true ∧ off + n ≤ s.pci.bar2Gib * 2 ^ 30 ∧ off + n ≤ dramEnd ∧ s.anyVoid off n = false)
    ∧ (∃ (s : State) (off : Nat) (n : Nat), s.pciServes = true ∧ off + n ≤ s.pci.bar2Gib * 2 ^ 30 ∧ off + n ≤ dramEnd ∧ s.anyVoid off n = true)
    ∧ (∃ (s : State) (off : Nat) (n : Nat), s.pciServes = true ∧ off + n ≤ s.pci.bar2Gib * 2 ^ 30 ∧ dramEnd ≤ off)
    ∧ (∃ (s : State), s.answers = true ∧ s.pci.up = true ∧ s.pci.invalidating.length < 32)
    ∧ (∃ (s : State) (x : Nat × Nat) (r : List (Nat × Nat)), s.answers = true ∧ s.pci.up = true ∧ s.pci.invalidating = x :: r) :=
  ⟨⟨up, 5, 8, by decide +kernel⟩,
   ⟨up, by decide +kernel⟩,
   ⟨up, 64, by decide +kernel⟩,
   ⟨up, 48, by decide +kernel⟩,
   ⟨up, 0x10000000, [1#8], by decide +kernel⟩,
   ⟨up, 0, [1#8], by decide +kernel⟩,
   ⟨up, 0, 4, by decide +kernel⟩,
   ⟨{ up with voids := [0] }, 0, 4, by decide +kernel⟩,
   ⟨{ up with pci := { up := true, bar2Gib := 64 } }, dramEnd, 4, by decide +kernel⟩,
   ⟨up, by decide +kernel⟩,
   ⟨{ up with pci := { up := true, invalidating := [(0, 4096)] } }, (0, 4096), [], by decide +kernel⟩⟩

theorem test_meetsTheRingsAreControlledAndServed :
    (∃ (s : State) (v : W32), s.answers = true ∧ (bitsOf v.toNat 0 16 < 10 ∨ 10000 < bitsOf v.toNat 0 16))
    ∧ (∃ (s : State) (v : W32), s.answers = true ∧ 10 ≤ bitsOf v.toNat 0 16 ∧ bitsOf v.toNat 0 16 ≤ 10000 ∧ v.toNat.testBit 31 = true ∧
      s.pci.cmdEnable = false ∧ 6 ≤ bitsOf v.toNat 20 5 ∧ bitsOf v.toNat 20 5 ≤ 16)
    ∧ (∃ (s : State) (v : W32), s.answers = true ∧ 10 ≤ bitsOf v.toNat 0 16 ∧ bitsOf v.toNat 0 16 ≤ 10000 ∧ v.toNat.testBit 31 = true ∧
      s.pci.cmdEnable = false ∧ (bitsOf v.toNat 20 5 < 6 ∨ 16 < bitsOf v.toNat 20 5))
    ∧ (∃ (s : State) (v : W32), s.answers = true ∧ 10 ≤ bitsOf v.toNat 0 16 ∧ bitsOf v.toNat 0 16 ≤ 10000 ∧ v.toNat.testBit 31 = false)
    ∧ (∃ (s : State) (v : W32), s.answers = true ∧ 10 ≤ bitsOf v.toNat 0 16 ∧ bitsOf v.toNat 0 16 ≤ 10000 ∧ v.toNat.testBit 31 = true ∧
      s.pci.cmdEnable = true ∧ bitsOf v.toNat 20 5 = s.pci.cmdSize)
    ∧ (∃ (s : State) (v : W32), s.answers = true ∧ v.toNat.testBit 31 = true ∧ s.pci.jrnEnable = true ∧ bitsOf v.toNat 24 5 = s.pci.jrnSize ∧ bitsOf
      v.toNat 29 2 = s.pci.jrnStart ∧ bitsOf v.toNat 29 2 ≠ 3)
    ∧ (∃ (s : State) (v : W32), s.answers = true ∧ bitsOf v.toNat 29 2 ≠ 3 ∧ v.toNat.testBit 31 = true ∧ s.pci.jrnEnable = false ∧ 8 ≤ bitsOf v.toNat
      24 5 ∧ bitsOf v.toNat 24 5 ≤ 24)
    ∧ (∃ (s : State) (v : W32), s.answers = true ∧ bitsOf v.toNat 29 2 ≠ 3 ∧ v.toNat.testBit 31 = true ∧ s.pci.jrnEnable = false ∧ (bitsOf v.toNat 24
      5 < 8 ∨ 24 < bitsOf v.toNat 24 5))
    ∧ (∃ (s : State) (v : W32), s.answers = true ∧ bitsOf v.toNat 29 2 ≠ 3 ∧ v.toNat.testBit 31 = false)
    ∧ (∃ (s : State), s.jrnServed = true)
    ∧ (∃ (s : State) (r : Rec) (slot : Nat), s.jrnServed = true ∧ s.journal.lostCount = 0 ∧ ((s.journal.held.find? fun r => decide (s.pci.jrnNext ≤
      r.seq)) = some r) ∧ s.recordVoid r.seq = false ∧ s.hostReachable s.pci.jrnBase.toNat (128 * 2 ^ s.pci.jrnSize) = true ∧ s.hostReachable
      s.pci.jrnState.toNat 16 = true ∧ leNat (s.hostBytes (s.pci.jrnState.toNat + 8) 8) ≤ s.pci.produced ∧ s.pci.produced - leNat (s.hostBytes
      (s.pci.jrnState.toNat + 8) 8) < 2 ^ s.pci.jrnSize ∧ slot = s.pci.jrnBase.toNat + 128 * (s.pci.produced % 2 ^ s.pci.jrnSize) ∧ (slot + 128 ≤
      s.pci.jrnState.toNat ∨ s.pci.jrnState.toNat + 8 ≤ slot))
    ∧ (∃ (s : State), s.jrnServed = true ∧ s.hostReachable s.pci.jrnState.toNat 16 = true ∧ s.pci.produced < leNat (s.hostBytes (s.pci.jrnState.toNat
      + 8) 8))
    ∧ (∃ (s : State) (h : Nat), s.answers = true ∧ s.pci.oldestInt = some h)
    ∧ (∃ (s : State), s.running = true ∧ s.pci.cmdEnable = true)
    ∧ (∃ (s : State), s.running = true ∧ s.pci.jrnEnable = true)
    ∧ (∃ (s : State) (n : Nat) (i : Nat) (irq : Bool) (rest : List (Nat × Bool × Nat)), s.running = true ∧ takeFetching n s.pci.fetching = some ((i,
      irq), rest))
    ∧ (∃ (s : State) (p : Nat) (d : Dma) (rest : List Dma) (c : DmaCmd), s.running = true ∧ s.flt.stopPhase ≠ 2 ∧ (s.engine p).handoverFrom = none ∧
      takeDma (s.engine p).dmas = some (d, rest) ∧ c = parseDma d.cmd ∧ waitsHandover s c = false ∧ (∀ i < c.rows, ∀ k < c.len, placeOf (c.dstRow i +
      k) ≠ .register)) :=
  ⟨⟨up, 0#32, by decide +kernel⟩,
   ⟨up, 0x80600064#32, by decide +kernel⟩,
   ⟨up, 0x80000064#32, by decide +kernel⟩,
   ⟨up, 0x64#32, by decide +kernel⟩,
   ⟨{ up with pci := { up := true, cmdEnable := true } }, 0x80600064#32, by decide +kernel⟩,
   ⟨{ up with pci := { up := true, jrnEnable := true } }, 0x8C000001#32, by decide +kernel⟩,
   ⟨up, 0x88000000#32, by decide +kernel⟩,
   ⟨up, 0x80000000#32, by decide +kernel⟩,
   ⟨up, 0#32, by decide +kernel⟩,
   ⟨journalOn, by decide +kernel⟩,
   ⟨journalOn, aRecord, 0x0, by decide +kernel⟩,
   ⟨{ journalOn with mem := [(0x800000080008, 1)] }, by decide +kernel⟩,
   ⟨{ up with pci := { oldestInt := some 0 } }, 0, by decide +kernel⟩,
   ⟨ringOn, by decide +kernel⟩,
   ⟨journalOn, by decide +kernel⟩,
   ⟨{ up with pci := { up := true, fetching := [(0, false, 3)] } }, 3, 0, false, [], by decide +kernel⟩,
   ⟨withEngine 0 { dmas := [{ cmd := dmaBytes 2 }] }, 0, { cmd := dmaBytes 2 }, [], parseDma (dmaBytes 2), by decide +kernel⟩⟩

theorem test_meetsLinksPeersAndDelivery :
    (∃ (s : State) (n : Nat) (mode : Nat), s.answers = true ∧ n < 2 ∧ ((if n = 0 then s.pins.ethIdle0 else s.pins.ethIdle1) = false) ∧ (mode = 1 ∨ mode =
      2) ∧ s.pins.refLostEth = false ∧ (s.netPort n).state ≠ 2)
    ∧ (∃ (s : State) (n : Nat), s.answers = true ∧ n < 2 ∧ ((if n = 0 then s.pins.ethIdle0 else s.pins.ethIdle1) = false) ∧ (s.netPort n).state = 2)
    ∧ (∃ (s : State) (n : Nat), s.running = true ∧ s.sanorOn n = true ∧ s.portUp n = true)
    ∧ (∃ (s : State) (n : Nat) (h : Heartbeat) (p : PeerSettings), s.running = true ∧ n < 2 ∧ s.sanorOn n = true ∧ s.portUp n = true ∧ s.cfg.peer =
      some p ∧ h.device < 1024 ∧ h.device ≠ p.device)
    ∧ (∃ (s : State) (n : Nat) (h : Heartbeat) (p : PeerSettings), s.running = true ∧ n < 2 ∧ s.sanorOn n = true ∧ s.portUp n = true ∧ s.cfg.peer =
      some p ∧ h.device < 1024 ∧ h.device = p.device ∧ s.fuses.deviceId ≠ h.identifier)
    ∧ (∃ (s : State) (d : Nat), s.running = true ∧ s.cfg.peer ≠ none ∧ (s.peer d).joined = true)
    ∧ (∃ (s : State) (u : State) (es : List Entry) (c : Cfg) (d : Nat) (h : Nat), s.running = true ∧ (s.peer d).healthySince = some h ∧ (s.peer
      d).takenRows ≠ [] ∧ s.stl.batch = none ∧ s.stl.update = none ∧ u = s.atElapsed (h + 60 * second) ∧ (es = (s.peer d).takenRows.map (fun n =>
      { kind := 3, flags := 0, table := 4, index := n, value := 0, mask := 0, rest := 0 })) ∧ (c =
      { s.cfg with streams := s.cfg.streams.filter fun e => !(s.peer d).takenRows.contains e.1 }) ∧ internalChecks u es c (u.time.now + 5000000) none
      = none)
    ∧ (∃ (s : State) (u : State) (es : List Entry) (c : Cfg) (d : Nat) (h : Nat), s.running = true ∧ (s.peer d).healthySince = some h ∧ (s.peer
      d).takenRows ≠ [] ∧ s.stl.batch = none ∧ s.stl.update = none ∧ u = s.atElapsed (h + 60 * second) ∧ (es = (s.peer d).takenRows.map (fun n =>
      { kind := 3, flags := 0, table := 4, index := n, value := 0, mask := 0, rest := 0 })) ∧ (c =
      { s.cfg with streams := s.cfg.streams.filter fun e => !(s.peer d).takenRows.contains e.1 }) ∧ internalChecks u es c (u.time.now + 5000000) none
      ≠ none)
    ∧ (∃ (s : State) (d : Nat) (h : Nat), s.running = true ∧ (s.peer d).healthySince = some h ∧ (s.peer d).takenRows ≠ [] ∧ (s.stl.batch ≠ none ∨
      s.stl.update ≠ none))
    ∧ (∃ (s : State) (d : Nat), s.running = true ∧ (s.sanorOn 0 = true ∨ s.sanorOn 1 = true) ∧ (s.peer d).joined = true)
    ∧ (∃ (s : State) (d : Nat) (h : Nat), s.sanorTakes = true ∧ (s.peer d).ackDue = some h)
    ∧ (∃ (s : State) (d : Nat) (q : Nat) (m : Msg), s.sanorTakes = true ∧ (((s.peer d).unacked.find? fun m => m.seq == q) = some m) ∧ m.tries < 5)
    ∧ (∃ (s : State) (d : Nat) (q : Nat) (m : Msg), s.sanorTakes = true ∧ (((s.peer d).unacked.find? fun m => m.seq == q) = some m) ∧ 5 ≤ m.tries)
    ∧ (∃ (s : State) (e : Nat) (port : Nat) (p : PeerSettings), s.running = true ∧ s.cfg.peer = some p ∧ Table.get [] e s.lnk.exports ≠ [] ∧ port =
      (p.dests.getD e {}).port ∧ s.portUp port = true ∧ (((Table.get [] e s.lnk.exports).take 11).any (fun r => !s.recordVoid r.seq) = true) ∧ port <
      2)
    ∧ (∃ (s : State) (e : Nat) (port : Nat) (p : PeerSettings), s.running = true ∧ s.cfg.peer = some p ∧ Table.get [] e s.lnk.exports ≠ [] ∧ port =
      (p.dests.getD e {}).port ∧ (s.netPort port).state ≠ 2) :=
  ⟨⟨{ up with pins := { up.pins with ethIdle0 := false } }, 0, 2, by decide +kernel⟩,
   ⟨joined, 0, by decide +kernel⟩,
   ⟨joined, 0, by decide +kernel⟩,
   ⟨joined, 0, beat 2 9, { domain := 1, device := 1, sanor0 := true }, by decide +kernel⟩,
   ⟨joined, 0, beat 1 9, { domain := 1, device := 1, sanor0 := true }, by decide +kernel⟩,
   ⟨joined, 2, by decide +kernel⟩,
   ⟨inDomain { healthySince := some 0, takenRows := [3] }, State.atElapsed (inDomain { healthySince := some 0, takenRows := [3] }) (60 * second), [{ kind := 3, flags := 0, table := 4, index := 3, value := 0, mask := 0, rest := 0 }], { peer := some { domain := 1, device := 1, sanor0 := true }, streams := [] }, 2, 0, by decide, rfl, by decide, rfl, rfl, rfl, rfl, rfl, by decide +kernel⟩,
   ⟨{ inDomain { healthySince := some 0, takenRows := [3] } with cfg := { peer := some { domain := 1, device := 1, sanor0 := true }, streams := [(3, streamRow)], zones := [(0, { enabled := true, stream := 3 })] } }, State.atElapsed ({ inDomain { healthySince := some 0, takenRows := [3] } with cfg := { peer := some { domain := 1, device := 1, sanor0 := true }, streams := [(3, streamRow)], zones := [(0, { enabled := true, stream := 3 })] } }) (60 * second), [{ kind := 3, flags := 0, table := 4, index := 3, value := 0, mask := 0, rest := 0 }], { peer := some { domain := 1, device := 1, sanor0 := true }, streams := [], zones := [(0, { enabled := true, stream := 3 })] }, 2, 0, by decide, rfl, by decide, rfl, rfl, rfl, rfl, rfl, by decide +kernel⟩,
   ⟨{ inDomain { healthySince := some 0, takenRows := [3] } with stl := { batch := some (batchIn .prepare [.decode]) } }, 2, 0, by decide +kernel⟩,
   ⟨joined, 2, by decide +kernel⟩,
   ⟨inDomain { ackDue := some 0 }, 2, 0, by decide +kernel⟩,
   ⟨inDomain { unacked := [{ seq := 5, type := 3 }] }, 2, 5, { seq := 5, type := 3 }, by decide +kernel⟩,
   ⟨inDomain { unacked := [{ seq := 5, type := 3, tries := 5 }] }, 2, 5, { seq := 5, type := 3, tries := 5 }, by decide +kernel⟩,
   ⟨{ joined with lnk := { exports := [(0, [aRecord])] } }, 0, 0, { domain := 1, device := 1, sanor0 := true }, by decide +kernel⟩,
   ⟨{ joined with nets := [], lnk := { exports := [(0, [aRecord])] } }, 0, 0, { domain := 1, device := 1, sanor0 := true }, by decide +kernel⟩⟩

theorem test_meetsSanorMessagesAreTaken :
    (∃ (s : State) (d : Nat) (seq : Nat) (c : Instr), s.sanorTakes = true ∧ (s.peer d).joined = true ∧ seq ≠ ((s.peer d).received + 1) % 2 ^ 32 ∧ ((∃ x y
      z, c = .sanorHandover d seq x y z) ∨ (∃ x y z, c = .sanorHandoverAck d seq x y z) ∨ (∃ x, c = .sanorCloseCopy d seq x) ∨ (∃ x y z w, c =
      .sanorQuery d seq x y z w) ∨ (∃ x y, c = .sanorResult d seq x y) ∨ (∃ x y z w v, c = .sanorReplica d seq x y z w v)))
    ∧ (∃ (s : State) (d : Nat) (seq : Nat) (n : Nat), s.sanorTakes = true ∧ (s.peer d).joined = true ∧ seq = ((s.peer d).received + 1) % 2 ^ 32 ∧
      ((s.cfg.stream n).active = false ∨ (s.stream n).state = 4))
    ∧ (∃ (s : State) (d : Nat) (seq : Nat) (n : Nat) (r : Nat), s.sanorTakes = true ∧ (s.peer d).joined = true ∧ seq = ((s.peer d).received + 1) % 2 ^
      32 ∧ (s.cfg.stream n).active = true ∧ (s.stream n).state ≠ 4 ∧ s.clrServing (s.cfg.stream n).region = some r ∧ allocSlot s r = none)
    ∧ (∃ (s : State) (u : State) (d : Nat) (seq : Nat) (n : Nat) (r : Nat) (slot : Nat), s.sanorTakes = true ∧ (s.peer d).joined = true ∧ seq =
      ((s.peer d).received + 1) % 2 ^ 32 ∧ (s.cfg.stream n).active = true ∧ (s.stream n).state ≠ 4 ∧ s.clrServing (s.cfg.stream n).region = some r ∧
      allocSlot s r = some (slot, u))
    ∧ (∃ (s : State) (d : Nat) (seq : Nat) (old : Nat) (st : Nat) (h : Handover), s.sanorTakes = true ∧ (s.peer d).joined = true ∧ seq = ((s.peer
      d).received + 1) % 2 ^ 32 ∧ ((s.ledger.handovers.find? fun x => x.handle == old && x.peer == d) = some h) ∧ h.expired = false ∧ st = stOK ∧
      s.stale old = false ∧ (s.track (old / 4096)).live = true)
    ∧ (∃ (s : State) (d : Nat) (seq : Nat) (old : Nat) (st : Nat) (h : Handover), s.sanorTakes = true ∧ (s.peer d).joined = true ∧ seq = ((s.peer
      d).received + 1) % 2 ^ 32 ∧ ((s.ledger.handovers.find? fun x => x.handle == old && x.peer == d) = some h) ∧ h.expired = false ∧ st ≠ stOK)
    ∧ (∃ (s : State) (d : Nat) (seq : Nat) (old : Nat) (st : Nat) (h : Handover), s.sanorTakes = true ∧ (s.peer d).joined = true ∧ seq = ((s.peer
      d).received + 1) % 2 ^ 32 ∧ ((s.ledger.handovers.find? fun x => x.handle == old && x.peer == d) = some h) ∧ h.expired = true ∧ st = stOK)
    ∧ (∃ (s : State) (old : Nat) (h : Handover), s.mayBegin = true ∧ ((s.ledger.handovers.find? fun x => x.handle == old && !x.expired) = some h))
    ∧ (∃ (s : State) (d : Nat) (seq : Nat) (old : Nat), s.sanorTakes = true ∧ (s.peer d).joined = true ∧ seq = ((s.peer d).received + 1) % 2 ^ 32 ∧
      s.stale old = false ∧ (s.track (old / 4096)).live = true ∧ (s.track (old / 4096)).originDevice = d)
    ∧ (∃ (s : State) (d : Nat) (seq : Nat), s.sanorTakes = true ∧ (s.peer d).joined = true ∧ seq = ((s.peer d).received + 1) % 2 ^ 32)
    ∧ (∃ (s : State) (d : Nat) (seq : Nat) (number : Nat) (q : Query), s.sanorTakes = true ∧ (s.peer d).joined = true ∧ seq = ((s.peer d).received +
      1) % 2 ^ 32 ∧ ((s.lnk.queries.find? fun q => q.number == number && q.waiting.contains d) = some q) ∧ q.waiting = [d])
    ∧ (∃ (s : State) (d : Nat) (seq : Nat) (number : Nat) (q : Query), s.sanorTakes = true ∧ (s.peer d).joined = true ∧ seq = ((s.peer d).received +
      1) % 2 ^ 32 ∧ ((s.lnk.queries.find? fun q => q.number == number && q.waiting.contains d) = some q) ∧ (∃ w ∈ q.waiting, w ≠ d ∧ (s.peer w).joined
      = true))
    ∧ (∃ (s : State) (number : Nat) (q : Query), s.mayBegin = true ∧ ((s.lnk.queries.find? fun q => q.number == number) = some q))
    ∧ (∃ (s : State) (d : Nat) (seq : Nat) (n : Nat) (tick : Nat) (p : PeerSettings), s.sanorTakes = true ∧ (s.peer d).joined = true ∧ seq = ((s.peer
      d).received + 1) % 2 ^ 32 ∧ s.cfg.peer = some p ∧ ((p.standby.any fun b => b.peer == d && b.stream == n) = true) ∧ (s.cfg.stream n).active =
      false ∧ (Table.get { peer := d, tick := 0, count := 0 } (2 * n) s.lnk.replicas).count = 0 ∧ (Table.get { peer := d, tick := 0, count := 0 } (2 *
      n + 1) s.lnk.replicas).tick ≠ tick)
    ∧ (∃ (s : State) (d : Nat) (seq : Nat) (n : Nat) (p : PeerSettings), s.sanorTakes = true ∧ (s.peer d).joined = true ∧ seq = ((s.peer d).received +
      1) % 2 ^ 32 ∧ s.cfg.peer = some p ∧ ((p.standby.any fun b => b.peer == d && b.stream == n) = false ∨ (s.cfg.stream n).active = true)) :=
  ⟨⟨joined, 2, 5, .sanorCloseCopy 2 5 0, by decide +kernel, by decide, by decide, .inr (.inr (.inl ⟨0, rfl⟩))⟩,
   ⟨joined, 2, 1, 0, by decide +kernel⟩,
   ⟨{ joined with ledger := { fresh := (List.range 4).map fun q => (q, poolSlots) } }, 2, 1, 3, 0, by decide +kernel⟩,
   ⟨joined, ((allocSlot joined 0).getD (0, joined)).2, 2, 1, 3, 0, ((allocSlot joined 0).getD (0, joined)).1, by decide +kernel⟩,
   ⟨handed false, 2, 1, 0, stOK, ⟨0, 2, 0, false⟩, by decide +kernel⟩,
   ⟨handed false, 2, 1, 0, stRANGE, ⟨0, 2, 0, false⟩, by decide +kernel⟩,
   ⟨handed true, 2, 1, 0, stOK, ⟨0, 2, 0, true⟩, by decide +kernel⟩,
   ⟨handed false, 0, ⟨0, 2, 0, false⟩, by decide +kernel⟩,
   ⟨handed false, 2, 1, 0, by decide +kernel⟩,
   ⟨joined, 2, 1, by decide +kernel⟩,
   ⟨querying [2], 2, 1, 0, { number := 0, waiting := [2], since := 0 }, by decide +kernel⟩,
   ⟨querying [2, 3], 2, 1, 0, { number := 0, waiting := [2, 3], since := 0 }, by decide +kernel⟩,
   ⟨querying [2], 0, { number := 0, waiting := [2], since := 0 }, by decide +kernel⟩,
   ⟨{ joined with cfg := { peer := some { domain := 1, device := 1, sanor0 := true, standby := [⟨2, 4, {}⟩] } } }, 2, 1, 4, 77, { domain := 1, device := 1, sanor0 := true, standby := [⟨2, 4, {}⟩] }, by decide +kernel⟩,
   ⟨joined, 2, 1, 4, { domain := 1, device := 1, sanor0 := true }, by decide +kernel⟩⟩

theorem test_meetsUnlocksAndLifecycle :
    (∃ (s : State), s.answers = true)
    ∧ (∃ (s : State) (h : Nat), s.answers = true ∧ s.sec.challengeAt = some h)
    ∧ (∃ (s : State), s.answers = true ∧ s.sec.unlockEnd = none)
    ∧ (∃ (s : State), s.answers = true ∧ s.sec.unlockEnd ≠ none)
    ∧ (∃ (s : State) (h : _), s.answers = true ∧ s.sec.unlockEnd = some h)
    ∧ (∃ (s : State), s.answers = true ∧ s.fuses.lifecycle = 1 ∧ s.fuses.integratorHash = 0)
    ∧ (∃ (s : State), s.answers = true ∧ (s.fuses.lifecycle ≠ 1 ∨ s.fuses.integratorHash ≠ 0))
    ∧ (∃ (s : State), s.answers = true ∧ s.fuses.lifecycle = 1 ∧ s.fuses.integratorHash ≠ 0 ∧ s.boot.step = 8 ∧ s.stl.update = none)
    ∧ (∃ (s : State), s.answers = true ∧ (s.fuses.lifecycle ≠ 1 ∨ s.fuses.integratorHash = 0 ∨ s.boot.step ≠ 8 ∨ s.stl.update ≠ none))
    ∧ (∃ (s : State), s.answers = true ∧ s.fuses.lifecycle = 2 ∧ s.permits 3 = true ∧ s.sec.attesting = false)
    ∧ (∃ (s : State), s.answers = true ∧ (s.fuses.lifecycle ≠ 2 ∨ s.permits 3 = false ∨ s.sec.attesting = true))
    ∧ (∃ (s : State), s.answers = true ∧ s.fuses.lifecycle = 0)
    ∧ (∃ (s : State), s.answers = true ∧ s.fuses.lifecycle ≠ 0) :=
  ⟨⟨up, by decide +kernel⟩,
   ⟨{ up with sec := { challengeAt := some 0 } }, 0, by decide +kernel⟩,
   ⟨up, by decide +kernel⟩,
   ⟨{ up with sec := { unlockEnd := some 1 } }, by decide +kernel⟩,
   ⟨{ up with sec := { unlockEnd := some 1 } }, 1, by decide +kernel⟩,
   ⟨fused 1 0, by decide +kernel⟩,
   ⟨fused 1 5, by decide +kernel⟩,
   ⟨fused 1 5, by decide +kernel⟩,
   ⟨fused 0 5, by decide +kernel⟩,
   ⟨{ fused 2 5 with sec := { perm := 8 } }, by decide +kernel⟩,
   ⟨fused 2 5, by decide +kernel⟩,
   ⟨up, by decide +kernel⟩,
   ⟨fused 1 0, by decide +kernel⟩⟩

theorem test_meetsUnlockGrantsWhatItsTokenProves :
    (∃ (s : State), s.answers = true ∧ tokenForm s = false)
    ∧ (∃ (s : State), s.answers = true ∧ tokenForm s = true) :=
  ⟨⟨up, by decide +kernel⟩,
   ⟨withToken, by decide +kernel⟩⟩

theorem test_meetsAttestationsAreMade :
    (∃ (s : State), s.answers = true ∧ (s.fuses.lifecycle = 0 ∨ s.fuses.lifecycle = 3 ∨ s.sec.attesting = true ∨ 100 ≤ (recent s.time.elapsed second
      s.sec.attests).length))
    ∧ (∃ (s : State), s.answers = true ∧ (s.fuses.lifecycle = 1 ∨ s.fuses.lifecycle = 2) ∧ s.sec.attesting = false ∧ (recent s.time.elapsed second
      s.sec.attests).length < 100 ∧ s.fuses.spans < 512 ∧ spanUsed s = false)
    ∧ (∃ (s : State), s.answers = true ∧ (s.fuses.lifecycle = 1 ∨ s.fuses.lifecycle = 2) ∧ s.sec.attesting = false ∧ (recent s.time.elapsed second
      s.sec.attests).length < 100 ∧ s.fuses.spans < 512 ∧ spanUsed s = true ∧ catchUp s < 512)
    ∧ (∃ (s : State), s.answers = true ∧ (s.fuses.lifecycle = 1 ∨ s.fuses.lifecycle = 2) ∧ s.sec.attesting = false ∧ (recent s.time.elapsed second
      s.sec.attests).length < 100 ∧ s.fuses.spans < 512 ∧ spanUsed s = true ∧ 512 ≤ catchUp s)
    ∧ (∃ (s : State) (sig : List Byte), s.answers = true ∧ s.sec.attesting = true ∧ s.sec.identity = true ∧ sig.length = 5605)
    ∧ (∃ (s : State), s.answers = true ∧ (s.fuses.lifecycle = 1 ∨ s.fuses.lifecycle = 2) ∧ s.sec.identity = false)
    ∧ (∃ (s : State), s.answers = true ∧ (s.fuses.lifecycle = 1 ∨ s.fuses.lifecycle = 2) ∧ s.sec.identity = true) :=
  ⟨⟨fused 3 0, by decide +kernel⟩,
   ⟨{ fused 1 0 with sec := { span := some 0 } }, by decide +kernel⟩,
   ⟨fused 1 0, by decide +kernel⟩,
   ⟨{ fused 1 0 with flash := { idLog := [identityBytes 511 0] } }, by decide +kernel⟩,
   ⟨{ up with sec := { attesting := true, identity := true } }, List.replicate 5605 0#8, rfl, rfl, rfl, List.length_replicate⟩,
   ⟨fused 1 0, by decide +kernel⟩,
   ⟨{ fused 2 0 with sec := { identity := true } }, by decide +kernel⟩⟩

theorem test_meetsTracesAndTestGroups :
    (∃ (s : State) (v : W32), s.answers = true ∧ ((s.dbg.traceEnable = true ∧ (bitsOf v.toNat 24 6 ≠ s.dbg.dump ∨ bitsOf v.toNat 0 18 ≠ s.dbg.sources)) ∨
      s.cfg.traceBytes < bitsOf v.toNat 24 6 * 0x1000000 ∨ (bitsOf v.toNat 24 6 ≠ s.dbg.dump ∧ dumpArmed s = true)))
    ∧ (∃ (s : State) (v : W32), s.answers = true ∧ v.toNat.testBit 31 = true ∧ s.dbg.traceEnable = false ∧ bitsOf v.toNat 24 6 * 0x1000000 ≤
      s.cfg.traceBytes ∧ (bitsOf v.toNat 24 6 = s.dbg.dump ∨ dumpArmed s = false))
    ∧ (∃ (s : State) (v : W32), s.answers = true ∧ v.toNat.testBit 31 = false ∧ s.dbg.traceEnable = true ∧ bitsOf v.toNat 24 6 = s.dbg.dump ∧ bitsOf
      v.toNat 0 18 = s.dbg.sources ∧ s.dbg.dump * 0x1000000 ≤ s.cfg.traceBytes)
    ∧ (∃ (s : State) (v : W32), s.answers = true ∧ v.toNat.testBit 31 = s.dbg.traceEnable ∧ bitsOf v.toNat 24 6 * 0x1000000 ≤ s.cfg.traceBytes ∧
      (s.dbg.traceEnable = true → bitsOf v.toNat 24 6 = s.dbg.dump ∧ bitsOf v.toNat 0 18 = s.dbg.sources) ∧ (bitsOf v.toNat 24 6 = s.dbg.dump ∨
      dumpArmed s = false))
    ∧ (∃ (s : State), s.answers = true)
    ∧ (∃ (s : State) (cls : Nat) (inst : Nat) (r : TraceRec), s.answers = true ∧ Table.get [] (256 * cls + inst) s.dbg.buffers = [r] ∧
      s.dbg.traceState = 1 ∧ s.dbg.ptr + 32 ≤ s.traceArea)
    ∧ (∃ (s : State) (cls : Nat) (inst : Nat) (r : TraceRec), s.answers = true ∧ Table.get [] (256 * cls + inst) s.dbg.buffers = [r] ∧
      s.dbg.traceState = 1 ∧ s.traceArea < s.dbg.ptr + 32 ∧ s.dbg.traceStop = true)
    ∧ (∃ (s : State) (cls : Nat) (inst : Nat) (r : TraceRec), s.answers = true ∧ Table.get [] (256 * cls + inst) s.dbg.buffers = [r] ∧
      s.dbg.traceState = 1 ∧ s.traceArea < s.dbg.ptr + 32 ∧ s.dbg.traceStop = false ∧ 32 ≤ s.traceArea)
    ∧ (∃ (s : State) (v : W32), s.answers = true ∧ v.toNat.testBit 31 = true ∧ s.obsUsable = false)
    ∧ (∃ (s : State) (v : W32), s.answers = true ∧ v.toNat.testBit 31 = true ∧ s.obsUsable = true)
    ∧ (∃ (s : State) (v : W32), s.answers = true ∧ v.toNat.testBit 31 = false) :=
  ⟨⟨traced 0 false, 1#32, by decide +kernel⟩,
   ⟨up, 0x80000000#32, by decide +kernel⟩,
   ⟨traced 0 false, 0#32, by decide +kernel⟩,
   ⟨up, 0x3#32, by decide +kernel⟩,
   ⟨up, by decide +kernel⟩,
   ⟨traced 0 false, 0, 0, ⟨0, 0, 0, 0, 0⟩, by decide +kernel⟩,
   ⟨traced 0x40000000 true, 0, 0, ⟨0, 0, 0, 0, 0⟩, by decide +kernel⟩,
   ⟨traced 0x40000000 false, 0, 0, ⟨0, 0, 0, 0, 0⟩, by decide +kernel⟩,
   ⟨fused 2 0, 0x80000000#32, by decide +kernel⟩,
   ⟨up, 0x80000000#32, by decide +kernel⟩,
   ⟨up, 0#32, by decide +kernel⟩⟩

theorem test_meetsWatchesAreArmedAndCaptured :
    (∃ (s : State) (w : Nat) (b : Bool), s.answers = true ∧ watchSlot w b = true ∧ watchInRange s w (s.watch w).req = false)
    ∧ (∃ (s : State) (w : Nat) (b : Bool), s.answers = true ∧ watchSlot w b = true ∧ watchInRange s w (s.watch w).req = true ∧ watchBarred s w
      (s.watch w) (s.watch w).req = true)
    ∧ (∃ (s : State) (w : Nat) (b : Bool), s.answers = true ∧ watchSlot w b = true ∧ watchInRange s w (s.watch w).req = true ∧ watchBarred s w
      (s.watch w) (s.watch w).req = false)
    ∧ (∃ (s : State) (w : Nat) (b : Bool), s.answers = true ∧ watchSlot w b = true ∧ (s.watch w).state = 1)
    ∧ (∃ (s : State) (w : Nat) (b : Bool), s.answers = true ∧ watchSlot w b = true ∧ (s.watch w).state = 0)
    ∧ (∃ (s : State) (w : Nat) (b : Bool), s.answers = true ∧ watchSlot w b = true ∧ (s.watch w).state = 2)
    ∧ (∃ (s : State) (w : Nat) (slot : Nat) (q : WatchReq) (k : Nat) (parts : List WatchPart), s.running = true ∧ (s.watch w).state = 2 ∧ q = (s.watch
      w).req ∧ (k = (if q.kind = 1 then (s.watch w).slot else slot)) ∧ parts = watchParts s q k ∧ ((parts.any fun p => s.anyVoid p.addr q.slotBytes) =
      true))
    ∧ (∃ (s : State) (w : Nat) (slot : Nat) (q : WatchReq) (k : Nat) (parts : List WatchPart), s.running = true ∧ (s.watch w).state = 2 ∧ q = (s.watch
      w).req ∧ (k = (if q.kind = 1 then (s.watch w).slot else slot)) ∧ parts = watchParts s q k ∧ ((parts.any fun p => s.anyVoid p.addr q.slotBytes) =
      false))
    ∧ (∃ (s : State) (w : Nat) (slot : Nat) (q : WatchReq) (k : Nat) (parts : List WatchPart) (bytes : _), s.running = true ∧ (s.watch w).state = 2 ∧
      q = (s.watch w).req ∧ (k = (if q.kind = 1 then (s.watch w).slot else slot)) ∧ parts = watchParts s q k ∧ ((parts.any fun p => s.anyVoid p.addr
      q.slotBytes) = false) ∧ (bytes = (parts.flatMap fun p => p.rows s q.slotBytes).flatMap (·.1)) ∧ bytes.length ≤ q.size ∧ q.statsOnly = false ∧
      q.toDump = true) :=
  ⟨⟨up, 67, false, by decide +kernel⟩,
   ⟨watching 1 [], 64, false, by decide +kernel⟩,
   ⟨watching 0 [], 64, false, by decide +kernel⟩,
   ⟨watching 1 [], 64, false, by decide +kernel⟩,
   ⟨up, 63, true, by decide +kernel⟩,
   ⟨watching 2 [], 64, false, by decide +kernel⟩,
   ⟨watching 2 [0], 64, 0, stepWatch.req, 0, watchParts (watching 2 [0]) (stepWatch).req 0, by decide +kernel⟩,
   ⟨watching 2 [], 64, 0, stepWatch.req, 0, watchParts (watching 2 []) (stepWatch).req 0, by decide +kernel⟩,
   ⟨watching 2 [], 64, 0, stepWatch.req, 0, watchParts (watching 2 []) (stepWatch).req 0, [], by decide +kernel⟩⟩

theorem test_meetsJtagSelectsAllowedInstructions :
    (∃ (op : Nat), op < 256 ∧ (op = 1 ∨ op = 2))
    ∧ (∃ (op : Nat), op < 256 ∧ (op = 0 ∨ op = 4 ∨ op = 5))
    ∧ (∃ (s : State) (op : Nat), op < 256 ∧ 0x80 ≤ op ∧ op ≤ 0xFE ∧ s.fuses.lifecycle ≠ 0 ∧ s.permits 1 = false)
    ∧ (∃ (s : State) (op : Nat), op < 256 ∧ 0x80 ≤ op ∧ op ≤ 0xFE ∧ (s.fuses.lifecycle = 0 ∨ s.permits 1 = true) ∧ s.answers = true)
    ∧ (∃ (op : Nat), op < 256 ∧ (op = 3 ∨ (6 ≤ op ∧ op < 0x80) ∨ op = 0xFF)) :=
  ⟨⟨2, by decide +kernel⟩,
   ⟨5, by decide +kernel⟩,
   ⟨fused 2 0, 0x80, by decide +kernel⟩,
   ⟨up, 0xFE, by decide +kernel⟩,
   ⟨0xFF, by decide +kernel⟩⟩

theorem test_meetsReferencesLimitsAndTrips :
    (∃ (s : State), s.answers = true)
    ∧ (∃ (s : State), s.answers = true ∧ s.pci.up = true)
    ∧ (∃ (s : State), s.answers = true ∧ (s.netPort 0).state = 2 ∧ (s.netPort 1).state = 2)
    ∧ (∃ (s : State) (c : Int), s.answers = true ∧ overLimitFrom s < c ∧ (∀ h, s.power.overLimitAt = some h → h + 60 * second ≤ s.time.elapsed))
    ∧ (∃ (s : State) (c : Int) (h : _), s.answers = true ∧ overLimitFrom s < c ∧ s.power.overLimitAt = some h ∧ s.time.elapsed < h + 60 * second)
    ∧ (∃ (s : State) (g : Nat), s.answers = true ∧ Table.get 0 g s.pins.gpioUntil ≠ 0) :=
  ⟨⟨up, by decide +kernel⟩,
   ⟨up, by decide +kernel⟩,
   ⟨{ up with nets := [(0, { state := 2 }), (1, { state := 2 })] }, by decide +kernel⟩,
   ⟨up, 96, rfl, by decide, fun h e => nomatch (show (none : Option Nat) = some h from e)⟩,
   ⟨{ up with power := { overLimitAt := some 0 } }, 96, 0, by decide +kernel⟩,
   ⟨{ up with pins := { gpioUntil := [(7, 1)] } }, 7, by decide +kernel⟩⟩

theorem test_meetsCapAndDroopsSetTheRatios :
    (∃ (s : State) (mw : Nat) (c : Int) (m : Nat), s.running = true ∧ s.power.droop0 = none ∧ s.power.droop1 = none ∧ s.power.droopM = none ∧ (m = (if
      s.cfg.enabledZones = [] then s.power.media else 16)) ∧ (s.cfg.capMilliwatts < mw ∨ throttleAt s < c))
    ∧ (∃ (s : State) (mw : Nat) (c : Int) (m : Nat), s.running = true ∧ s.power.droop0 = none ∧ s.power.droop1 = none ∧ s.power.droopM = none ∧ (m =
      (if s.cfg.enabledZones = [] then s.power.media else 16)) ∧ mw + 5000 < s.cfg.capMilliwatts ∧ c ≤ throttleAt s - 3 ∧ s.power.below + 1 < 10)
    ∧ (∃ (s : State) (mw : Nat) (c : Int) (m : Nat), s.running = true ∧ s.power.droop0 = none ∧ s.power.droop1 = none ∧ s.power.droopM = none ∧ (m =
      (if s.cfg.enabledZones = [] then s.power.media else 16)) ∧ mw + 5000 < s.cfg.capMilliwatts ∧ c ≤ throttleAt s - 3 ∧ 10 ≤ s.power.below + 1)
    ∧ (∃ (s : State) (mw : Nat) (c : Int) (m : Nat), s.running = true ∧ s.power.droop0 = none ∧ s.power.droop1 = none ∧ s.power.droopM = none ∧ (m =
      (if s.cfg.enabledZones = [] then s.power.media else 16)) ∧ mw ≤ s.cfg.capMilliwatts ∧ c ≤ throttleAt s ∧ (s.cfg.capMilliwatts ≤ mw + 5000 ∨
      throttleAt s - 3 < c))
    ∧ (∃ (s : State), s.answers = true)
    ∧ (∃ (s : State), s.answers = true ∧ s.cfg.enabledZones = [])
    ∧ (∃ (s : State), s.answers = true ∧ s.cfg.enabledZones ≠ [])
    ∧ (∃ (s : State) (r : Nat), s.answers = true ∧ s.power.droop0 = some r)
    ∧ (∃ (s : State) (r : Nat), s.answers = true ∧ s.power.droop1 = some r)
    ∧ (∃ (s : State) (r : Nat), s.answers = true ∧ s.power.droopM = some r) :=
  ⟨⟨up, 1000000, 0, 16, by decide +kernel⟩,
   ⟨up, 0, 89, 16, by decide +kernel⟩,
   ⟨{ up with power := { below := 9 } }, 0, 89, 16, by decide +kernel⟩,
   ⟨up, up.cfg.capMilliwatts, 92, 16, by decide +kernel⟩,
   ⟨up, by decide +kernel⟩,
   ⟨up, by decide +kernel⟩,
   ⟨{ up with cfg := { zones := [(0, { enabled := true })] } }, by decide +kernel⟩,
   ⟨{ up with power := { droop0 := some 16 } }, 16, by decide +kernel⟩,
   ⟨{ up with power := { droop1 := some 16 } }, 16, by decide +kernel⟩,
   ⟨{ up with power := { droopM := some 16 } }, 16, by decide +kernel⟩⟩

theorem test_meetsTheManagementPortAnswers :
    (∃ (s : State) (bs : List Byte) (pec : Bool), s.answers = true ∧ bs.length = 4 ∧ pec = true)
    ∧ (∃ (s : State) (bs : List Byte) (pec : Bool), s.answers = true ∧ (bs.length ≠ 4 ∨ pec = false))
    ∧ (∃ (s : State) (bs : List Byte) (pec : Bool), s.answers = true ∧ (bs.length = 4 ∨ bs.length = 8) ∧ pec = true)
    ∧ (∃ (s : State) (bs : List Byte) (pec : Bool), s.answers = true ∧ ((bs.length ≠ 4 ∧ bs.length ≠ 8) ∨ pec = false))
    ∧ (∃ (s : State), s.answers = true ∧ s.smbOffset % 4 = 0 ∧ latchSpan s.smbOffset = 0 ∧ (∀ e ∈ s.latched, e.1 ≠ s.smbOffset))
    ∧ (∃ (s : State), s.answers = true)
    ∧ (∃ (s : State) (n : Nat), s.answers = true ∧ n ≠ 4)
    ∧ (∃ (s : State), s.answers = true ∧ s.pins.smbAlert = true)
    ∧ (∃ (s : State), s.answers = true ∧ s.pins.smbAlert = false) :=
  ⟨⟨up, [0, 0, 0, 0], true, by decide +kernel⟩,
   ⟨up, [], true, by decide +kernel⟩,
   ⟨up, [0, 0, 0, 0], true, by decide +kernel⟩,
   ⟨up, [0], true, by decide +kernel⟩,
   ⟨up, rfl, rfl, rfl, by decide⟩,
   ⟨up, by decide +kernel⟩,
   ⟨up, 8, by decide +kernel⟩,
   ⟨{ up with pins := { smbAlert := true } }, by decide +kernel⟩,
   ⟨up, by decide +kernel⟩⟩

theorem test_meetsDirectoryRewritesTouchOneCopy :
    ∃ (s : State) (slot : Nat) (c : Nat) (n : Nat) (r : List FlashWrite), s.answers = true ∧ s.flash.writes = .directory slot :: r ∧ ((c = 0 ∧ ∃ b,
      readDirectory s 1 = some b ∧ n = b.sequence ∧ ∀ a, readDirectory s 0 = some a → a.sequence < b.sequence) ∨ (c = 1 ∧ ∃ a, readDirectory s 0 =
      some a ∧ n = a.sequence ∧ ∀ b, readDirectory s 1 = some b → b.sequence < a.sequence)) :=
  ⟨rewriting, 0, 0, 7, [], rfl, rfl, .inl ⟨rfl, aDirectory, by decide +kernel, rfl, fun a h => by rw [show readDirectory rewriting 0 = none by decide +kernel] at h; cases h⟩⟩

/-! ## Ill-formed commands are refused: one for each check -/

theorem test_wf_stream : Instr.wf (.reorderHoldExpiry 1024) = false ∧ Instr.wf (.reorderHoldExpiry 1023) = true := by decide
theorem test_wf_account : Instr.wf (.preprocessStart 64) = false ∧ Instr.wf (.preprocessStart 63) = true := by decide
theorem test_wf_engine : Instr.wf (.strikeExpiry 72) = false ∧ Instr.wf (.strikeExpiry 71) = true := by decide
theorem test_wf_region : Instr.wf (.sliceStart 4) = false ∧ Instr.wf (.sliceStart 3) = true := by decide
theorem test_wf_clearing : Instr.wf (.writeLogOverflow 4) = false ∧ Instr.wf (.writeLogOverflow 3) = true := by decide
theorem test_wf_decoder : Instr.wf (.decodeAssayComplete 18 true) = false ∧ Instr.wf (.decodeAssayComplete 17 true) = true := by decide
theorem test_wf_encoder : Instr.wf (.encoderAssay 4 true) = false ∧ Instr.wf (.encoderAssay 3 true) = true := by decide
theorem test_wf_zone : Instr.wf (.zoneHoldExpiry 64) = false ∧ Instr.wf (.zoneHoldExpiry 63) = true := by decide
theorem test_wf_channel : Instr.wf (.safeHalfPeriod 16 true true) = false ∧ Instr.wf (.safeHalfPeriod 15 true true) = true := by decide
theorem test_wf_device : Instr.wf (.peerLost 1024) = false ∧ Instr.wf (.peerLost 1023) = true := by decide
theorem test_wf_port : Instr.wf (.heartbeatSend 2) = false ∧ Instr.wf (.heartbeatSend 1) = true := by decide
theorem test_wf_stack : Instr.wf (.softRepair 2 0) = false ∧ Instr.wf (.softRepair 1 0) = true := by decide
theorem test_wf_bridge : Instr.wf (.bridgeLost 3) = false ∧ Instr.wf (.bridgeLost 2) = true := by decide
theorem test_wf_lane : Instr.wf (.laneSpare 0 768) = false ∧ Instr.wf (.laneSpare 0 767) = true := by decide
theorem test_wf_chip_port : Instr.wf (.chipArbGrant 16 [] false) = false ∧ Instr.wf (.chipArbGrant 15 [] false) = true := by decide
theorem test_wf_cell : Instr.wf (.operandParityError 0 8) = false ∧ Instr.wf (.operandParityError 0 7) = true := by decide
theorem test_wf_halo_port : Instr.wf (.haloGroupReceived 0 4) = false ∧ Instr.wf (.haloGroupReceived 0 3) = true := by decide
theorem test_wf_channel_of_stack : Instr.wf (.dramRefresh 0 16 0) = false ∧ Instr.wf (.dramRefresh 0 15 0) = true := by decide
theorem test_wf_watch :
    Instr.wf (.arm 68 false) = false ∧ Instr.wf (.arm 64 true) = false ∧ Instr.wf (.arm 67 false) = true := by decide
theorem test_wf_register : Instr.wf (.registerWrite .host 0x3FFFFFD 4 0) = false ∧ Instr.wf (.registerWrite .host 0x3FFFFFC 4 0) = true := by
  decide
theorem test_wf_straps : Instr.wf (.bootStart [true]) = false ∧ Instr.wf (.bootStart [true, true, true, true]) = true := by decide
theorem test_wf_unit : Instr.wf (.unitDrainRelease (.region 4)) = false ∧ Instr.wf (.unitDrainRelease (.net 1)) = true := by decide
theorem test_wf_controller : Instr.wf (.controllerStartFailure (.region 4)) = false ∧ Instr.wf (.controllerStartFailure .chip) = true := by
  decide
theorem test_wf_bytes : Instr.wf (.voidRestore 0 []) = false ∧ Instr.wf (.voidRestore 0 (List.replicate 64 0)) = true := by decide
theorem test_wf_slot : Instr.wf (.quarantineEnd 1048576) = false ∧ Instr.wf (.quarantineEnd 1048575) = true := by decide
theorem test_wf_mapping :
    Instr.wf (.zoneEvalOutput ⟨0, 0, 0, 3, 0, none⟩) = false ∧ Instr.wf (.zoneEvalOutput ⟨0, 0, 0, 2, 0, none⟩) = true := by decide
theorem test_wf_scrub :
    Instr.wf (.regionScrub (.ledgerCache 4) 0 .clean) = false ∧ Instr.wf (.regionScrub (.region 3) 0 .clean) = true := by decide
theorem test_wf_host_access :
    Instr.wf (.hostReadFailure (.dmaRead 72 true)) = false ∧ Instr.wf (.hostReadFailure .ringFetch) = true := by decide
theorem test_wf_bar2 : Instr.wf (.bar2Read 0xFFFFFFFFF 2) = false ∧ Instr.wf (.bar2Read 0xFFFFFFFFF 1) = true := by decide
theorem test_wf_destination : Instr.wf (.exportDatagramSend 4) = false ∧ Instr.wf (.exportDatagramSend 3) = true := by decide
theorem test_wf_opcode : Instr.wf (.jtagInstruction 256) = false ∧ Instr.wf (.jtagInstruction 255) = true := by decide
theorem test_wf_pin : Instr.wf (.gpioPulseEnd 8) = false ∧ Instr.wf (.gpioPulseEnd 7) = true := by decide

/-! ## The manual's worked examples -/

/-- 03, the example under R108: a wrap of the timestamp, and a late picture that does not advance the stream. -/
def wrapping : StreamSt := { hasTick := true, lastT := 0x1FFFFFF00, lastR := 0xFFFFFF00, lastA := 0 }

theorem test_unwrap_wraps : (unwrap 32 {} false wrapping 0xAB8 33333333).1 = 0x200000AB8 := by decide +kernel

theorem test_unwrap_late :
    (unwrap 32 {} false (unwrap 32 {} false wrapping 0xAB8 33333333).2.1 0xFFFFF348 43333333).1 = 0x1FFFFF348
      ∧ (unwrap 32 {} false (unwrap 32 {} false wrapping 0xAB8 33333333).2.1 0xFFFFF348 43333333).2.1.lastT = 0x200000AB8 := by
  decide +kernel

/-- 06, conversions at every hard case: integer targets. -/
theorem test_convert_int :
    ((convert 0 .even none 0x40200000).code, (convert 0 .away none 0x40200000).code) = (0x02, 0x03)
      ∧ ((convert 0 .even none 0xC0200000).code, (convert 0 .away none 0xC0200000).code) = (0xFE, 0xFD)
      ∧ convert 0 .even none 0x42FECCCD = { code := 0x7F } ∧ convert 0 .even none 0x42FF0000 = { code := 0x7F, sat := true }
      ∧ convert 0 .away none 0xC2FF0000 = { code := 0x81, sat := true } ∧ convert 0 .even (some 0) 0xC2FF0000 = { code := 0x80 }
      ∧ convert 2 .even none 0x40F00000 = { code := 0x7, sat := true } := by decide +kernel

/-- 06, the same: float targets. -/
theorem test_convert_float :
    ((convert 3 .even none 0x41880000).code, (convert 3 .away none 0x41880000).code) = (0x58, 0x59)
      ∧ convert 3 .even none 0x43F50000 = { code := 0x7F } ∧ convert 3 .even none 0x43F80000 = { code := 0x7F, sat := true }
      ∧ convert 3 .away none 0xC3F80000 = { code := 0xFF, sat := true }
      ∧ ((convert 3 .even none 0x3A800000).code, (convert 3 .away none 0x3A800000).code) = (0x00, 0x01)
      ∧ convert 4 .even none 0x47EFA000 = { code := 0x7F } ∧ convert 4 .away none 0x47F00000 = { code := 0x7F, sat := true }
      ∧ ((convert 5 .even none 0x3F808000).code, (convert 5 .away none 0x3F808000).code) = (0x3F80, 0x3F81)
      ∧ convert 5 .even none 0x7F7FFFFF = { code := 0x7F7F, sat := true } := by decide +kernel

/-- 06: 0.3 in three formats. -/
theorem test_convert_point_three :
    (convert 3 .even none 0x3E99999A).code = 0x2A ∧ (convert 4 .even none 0x3E99999A).code = 0x35
      ∧ (convert 5 .even none 0x3E99999A).code = 0x3E9A := by decide +kernel

/-- 06: the scale pass over one INT8 row. -/
theorem test_dynamic_row :
    (dynamicRow 0 0x40400000 [0x40400000, 0xBF99999A, 0x3F000000, 0x3FC00000, 0, 0xC0100000, 0x3C23D70A, 0x4039999A]).1 = 0x3CC2
      ∧ (dynamicRow 0 0x40400000 [0x40400000, 0xBF99999A, 0x3F000000, 0x3FC00000, 0, 0xC0100000, 0x3C23D70A, 0x4039999A]).2.map (·.code)
        = [0x7F, 0xCD, 0x15, 0x3F, 0x00, 0xA1, 0x00, 0x7A] := by decide +kernel

/-- 06: one value in both modes, zero point 3. -/
theorem test_zero_point :
    (convert 1 .away (some 3) 0x40200000).code = 6 ∧ (convert 1 .even (some 3) 0x40200000).code = 5
      ∧ convert 1 .away (some 3) 0x437C0000 = { code := 255 } ∧ convert 1 .away (some 3) 0x437D0000 = { code := 255, sat := true } := by
  decide +kernel

/-- 09: one IREQ output in both modes, and the clamp. -/
theorem test_ireq :
    (ireqOne 0 0 0 0 127 181 20 32768 16).1 = 0x64 ∧ (ireqOne 0 1 0 0 127 181 20 32768 16).1 = 0x65
      ∧ ireqOne 0 0 0 0 127 (-400) 20 32768 16 = (0x00, false, false) := by decide +kernel

/-- 09: the statistics records of a row split between two engines. -/
theorem test_stat_record :
    statRecord [0x3F800000, 0x40000000, 0x40400000] = leBytes 4 0x40400000 ++ leBytes 4 0x40C00000 ++ leBytes 4 0x41600000 ++ leBytes 4 3
      ∧ statRecord [0x40800000, 0xC0000000, 0] = leBytes 4 0x40800000 ++ leBytes 4 0x40000000 ++ leBytes 4 0x41A00000 ++ leBytes 4 3 := by
  decide +kernel

/-- 10: one average-pooling output under both rules. -/
def pooledWindow : List (Bool × Nat) :=
  [(false, 10), (false, 10), (false, 10), (false, 10), (true, 30), (true, 42), (false, 10), (true, 19), (true, 23)]

theorem test_average_pool :
    (convert 1 .even (some 0) (poolOne 1 10 1 9 pooledWindow).1).code = 28
      ∧ (convert 1 .away (some 0) (poolOne 1 10 1 9 pooledWindow).1).code = 29
      ∧ (convert 1 .even (some 0) (poolOne 1 10 5 9 pooledWindow).1).code = 18 := by decide +kernel

/-- 13: one weight in its first step, at two rates. -/
def firstStep (lr : W32) : W32 × W32 × W32 :=
  optimise { beta1 := 0x3F600000, beta2 := 0x3F7C0000, eps := 0x35800000, lr := lr } 0x3F600000 0x3F7C0000 0x3F000000 0 0 0x3F800000

theorem test_first_step :
    (firstStep 0x3A800000).1 = 0x3D800000 ∧ (firstStep 0x3A800000).2.1 = 0x3B800000
      ∧ (convert 5 .even none (firstStep 0x3A800000).2.2).code = 0x3F80 ∧ (convert 5 .even none (firstStep 0x3C800000).2.2).code = 0x3F7C := by
  decide +kernel

/-- 05: the default pyramid of a 1080p stream. -/
theorem test_pyramid :
    levelSizes 181 6 1920 1080 = [(1920, 1080), (1356, 762), (958, 538), (676, 380), (476, 268), (336, 188)] := by decide +kernel

/-- 04: the window of a 1080p H.265 Main stream with the default DPB. -/
theorem test_window : StreamRow.windowBytes { width := 1920, height := 1080 } = 18800640 := by decide +kernel

/-- 11: three detections and two tracks. -/
def benefits (i j : Nat) : Option Int :=
  match i, j with
  | 0, 0 => some 5000
  | 0, 1 => some 4000
  | 1, 0 => some 4800
  | 1, 1 => some 1500
  | 2, 1 => some 3000
  | _, _ => none

theorem test_auction :
    auctionRounds { parseAssoc [] with gate := 1200, tau := 1000, eps := 100 } benefits 2 3 ⟨[0, 0], [none, none], [.open_, .open_, .open_]⟩
      = ⟨[3400, 2500], [some 1, some 0], [.track 1, .track 0, .newTrack]⟩ := by decide +kernel

/-- 15, the example under R467: the regions of stream 40 and zone window 1001, all four able. -/
theorem test_zone_regions : zoneRegions [0, 1, 2, 3] (40 + 1001) = some (1, 2, some 3) := by decide

/-! ## Single commands -/

/-- The state of a command's next state. -/
def after (o : Host.Outcome State Fault Refusal) : State :=
  match o with
  | .next t => t
  | _ => State.reset

/-- 00 R10: the write of PCI_JRNL_FROM is read back by the read of the same word. -/
theorem test_register_write_read :
    (regRead (after (exec (.registerWrite .host 0x81038 4 0x12345678) up)) .host 0x81038 4).readback = leBytes 4 0x12345678 := by decide +kernel

/-- 03 R93: the high half of TIM_NOW comes from the read of its low half. -/
theorem test_tim_now_latched :
    (after (exec (.timNowLowRead false) { up with time := { now := 0x500000007 } })).latched.any (fun e => e.2 == 5#32) = true := by
  decide +kernel

/-- 01 R15, R16: a CRC error is replayed and counted; the last of 16 spares is used up by the sixteenth lane. -/
theorem test_flit_replay : ((after (exec (.flitCrcReplay 0 5) up)).bridge 0).replays = 1 := by decide +kernel

/-- 17 R509: an enabled ring with an allowed size runs; SMBus timeouts return nothing; fuses stand over reset. -/
theorem test_ring_enabled : (after (exec (.cmdRingCtrlWrite 0x80600064) up)).pci.cmdEnable = true := by decide +kernel

theorem test_challenge : (after (exec (.challenge 77) up)).sec.challenge = 77 := by decide +kernel

theorem test_jtag_bypass : (after (exec (.jtagInstruction 0x80) (fused 2 0))).dbg.jtag = 0xFF := by decide +kernel

theorem test_reset_keeps_fuses : (after (exec (.resetAssert 10000) (fused 2 5))).fuses = (fused 2 5).fuses := by decide +kernel

theorem test_droop : (after (exec (.droopDetected .cd0) up)).power.droop0 = some 16 := by decide +kernel

/-- An empty queue: one nanosecond of elapsed time passes. -/
theorem test_idle : (after (step up)).time.elapsed = up.time.elapsed + 1 := by decide +kernel

end Sys2Proof.Tests
end

/-! What a REGISTER_WRITE does: one rule for each way the write can go, and from them the effect of the command. -/

namespace Sys2Proof.Machine

/-! ## The register map -/

/-- No other register block reaches into the 4 KiB of the PCI block. -/
theorem registerBlocks_apart_from_pci : ∀ b ∈ registerBlocks,
    b = (0x0A, 0xFF, 0x81000, 0x1000) ∨ b.2.2.1 + b.2.2.2 ≤ 0x81000 ∨ 0x82000 ≤ b.2.2.1 := by
  decide

theorem blockOf_pci {o : Nat} (ho : o < 0x1000) : blockOf (0x81000 + o) = some (0x0A, 0xFF, 0x81000, 0x1000) := by
  cases hb : blockOf (0x81000 + o) with
  | none =>
    have hpci : (0x0A, 0xFF, 0x81000, 0x1000) ∈ registerBlocks := by decide
    have hout := List.find?_eq_none.mp hb _ hpci
    simp only [Bool.and_eq_true, decide_eq_true_eq] at hout
    omega
  | some b =>
    have hin := List.find?_some hb
    simp only [Bool.and_eq_true, decide_eq_true_eq] at hin
    rcases registerBlocks_apart_from_pci b (List.mem_of_find?_eq_some hb) with heq | hbelow | habove
    · rw [heq]
    · omega
    · omega

theorem regAt_pci (s : State) {o : Nat} (ho : o < 0x1000) : regAt s (0x81000 + o) = pciReg s o := by
  simp [regAt, blockOf_pci ho]

theorem writeReg_pci (s : State) (via : Src) {o : Nat} (v : Nat) (ho : o < 0x1000) :
    writeReg s via (0x81000 + o) v = writePci s o v := by
  simp [writeReg, blockOf_pci ho]

/-! ## The words of a write below the account windows -/

theorem writeOffset_below_windows (s : State) (src : Src) {off : Nat} (h : off < 0x3800000) :
    writeOffset s src off = some off := by
  have hout : inWindow src off = false := by simp [inWindow]; omega
  simp [writeOffset, hout]

theorem writeWords_four (s : State) (src : Src) (v : Nat) {off : Nat} (h : off < 0x3800000) :
    writeWords s src off 4 v = [(some off, bitsOf v 0 32)] := by
  simp [writeWords, writeOffset_below_windows s src h]

theorem writeWords_eight (s : State) (src : Src) (v : Nat) {off : Nat} (h : off + 4 < 0x3800000) :
    writeWords s src off 8 v = [(some off, bitsOf v 0 32), (some (off + 4), bitsOf v 32 32)] := by
  have hlow : off < 0x3800000 := by omega
  simp [writeWords, List.range_succ, writeOffset_below_windows s src h, writeOffset_below_windows s src hlow]

theorem setField_zero (v len : Nat) : setField 0 0 len v = v % 2 ^ len := by
  simp [setField, fld, bitsOf]

/-- The two words of a 64-bit value make up the value. -/
theorem bitsOf_words {v : Nat} (h : v < 2 ^ 64) : bitsOf v 0 32 + bitsOf v 32 32 * 2 ^ 32 = v := by
  simp only [bitsOf, Nat.shiftRight_eq_div_pow]
  omega

/-! ## The ways a write can go -/

/-- 17 R505, 00 R10: neither 4 nor 8 bytes, or off its boundary. -/
theorem regWrite_misaligned (s : State) (src : Src) {off width : Nat} (v : Nat)
    (h : width ≠ 4 ∧ width ≠ 8 ∨ off % width ≠ 0) : regWrite s src off width v = s.countIgnored := by
  have hbad : (!(width == 4 || width == 8) || off % width != 0) = true := by simpa using h
  rw [regWrite, if_pos hbad]

/-- 02 R82: a 4-byte write of a word with a settled field. -/
theorem regWrite_settled (s : State) (src : Src) {off : Nat} (v : Nat) (halign : off % 4 = 0) (hhi : off < 0x3800000)
    (hset : (settledMask off).isSome = true) : regWrite s src off 4 v = s.countReject (srcCode src) 0xFF := by
  simp [regWrite, halign, writeWords_four s src v hhi, hset]

/-- A 4-byte write of a 32-bit register without settled fields writes the register and counts nothing. -/
theorem regWrite_narrow (s : State) (src : Src) {off : Nat} (v : Nat) {r : Reg} (halign : off % 8 = 0)
    (hlo : 0x40000 ≤ off) (hhi : off < 0x3800000) (hset : settledMask off = none)
    (hreg : regAt s off = some r) (hnarrow : r.wide = false) :
    regWrite s src off 4 v = writeReg s src off (v % 2 ^ 32) := by
  have halign4 : off % 4 = 0 := by omega
  have hbase : off / 8 * 8 = off := by omega
  have hlisted : s.listed off = true := by simp [State.listed, hbase, hreg, halign]
  have hheld : heldValue s off = 0 := by simp [heldValue, hreg, hnarrow]
  simp [regWrite, halign4, writeWords_four s src v hhi, hset, hlo, hlisted, writeWordsOf, halign, hbase, hheld,
    setField_zero, bitsOf]

/-- An 8-byte write of a 64-bit register without settled fields writes the register and counts nothing. -/
theorem regWrite_wide (s : State) (src : Src) {off v : Nat} {r : Reg} (halign : off % 8 = 0)
    (hlo : 0x40000 ≤ off) (hhi : off + 4 < 0x3800000) (hset : settledMask off = none) (hset' : settledMask (off + 4) = none)
    (hreg : regAt s off = some r) (hwide : r.wide = true) (hv : v < 2 ^ 64) :
    regWrite s src off 8 v = writeReg s src off v := by
  have hbase : off / 8 * 8 = off := by omega
  have hhalf : (off + 4) / 8 = off / 8 := by omega
  have hlow : s.listed off = true := by simp [State.listed, hbase, hreg, halign]
  have hhigh : s.listed (off + 4) = true := by simp [State.listed, hhalf, hbase, hreg, hwide]
  have hlo' : 0x40000 ≤ off + 4 := by omega
  simp [-Nat.reducePow, regWrite, halign, writeWords_eight s src v hhi, hset, hset', hlo, hlo', hlow, hhigh,
    writeWordsOf, hhalf, bitsOf_words hv]

/-- 17 R519: PCI_JRNL_FROM takes all of an 8-byte write. -/
theorem regWrite_pciJrnlFrom (s : State) (src : Src) (v : W64) :
    regWrite s src 0x81038 8 v.toNat = { s with pci := { s.pci with jrnFrom := v } } := by
  have hreg : regAt s 0x81038 = some ⟨s.pci.jrnFrom.toNat % 2 ^ 64, true⟩ := regAt_pci s (o := 0x38) (by decide)
  calc regWrite s src 0x81038 8 v.toNat
    _ = writeReg s src 0x81038 v.toNat :=
        regWrite_wide s src (by decide) (by decide) (by decide) (by decide) (by decide) hreg rfl v.isLt
    _ = writePci s 0x38 v.toNat := writeReg_pci s src (o := 0x38) v.toNat (by decide)
    _ = _ := by simp [writePci]

/-- 17 R516, R517: PCI_INT_ENABLE takes its nine fields, its reserved bits ignore the write, and INTA follows. -/
theorem regWrite_pciIntEnable (s : State) (src : Src) (v : Nat) :
    regWrite s src 0x81048 4 v =
      ({ s with pci := { s.pci with intEnable := BitVec.ofNat 32 (v % 512) } }).updateInta := by
  have hreg : regAt s 0x81048 = some ⟨s.pci.intEnable.toNat % 2 ^ 32, false⟩ := regAt_pci s (o := 0x48) (by decide)
  have hfields : v % 2 ^ 32 % 512 = v % 512 := Nat.mod_mod_of_dvd v (by decide)
  calc regWrite s src 0x81048 4 v
    _ = writeReg s src 0x81048 (v % 2 ^ 32) :=
        regWrite_narrow s src v (by decide) (by decide) (by decide) (by decide) hreg rfl
    _ = writePci s 0x48 (v % 2 ^ 32) := writeReg_pci s src (o := 0x48) _ (by decide)
    _ = _ := by rw [← hfields]; rfl

/-! ## The command -/

/-- The command is `execRegisterWrite`. -/
theorem exec_registerWrite (src : Src) (off width : Nat) (v : W64) (s : State) :
    exec (.registerWrite src off width v) s = execRegisterWrite src off width v s := rfl

/-- A write that reaches the device, over a working link when it is the host's, is the write of the register file. -/
theorem exec_registerWrite_of_answers {s : State} {src : Src} (off width : Nat) (v : W64) (hans : s.answers = true)
    (hlink : src = .host → s.pciServes = true) :
    exec (.registerWrite src off width v) s = .next (regWrite s src off width v.toNat) := by
  have hreach : (!s.answers || (src == .host && !s.pciServes)) = false := by
    by_cases hsrc : src = .host
    · simp [hans, hlink hsrc]
    · simp [hans, hsrc]
  rw [exec_registerWrite, execRegisterWrite, hreach]
  rfl

/-- Internal firmware needs no link. -/
theorem exec_registerWrite_internal {s : State} (off width : Nat) (v : W64) (hans : s.answers = true) :
    exec (.registerWrite .internal off width v) s = .next (regWrite s .internal off width v.toNat) :=
  exec_registerWrite_of_answers off width v hans nofun

/-- Settles O9: each clause is the rule of its kind of write above, under the command's own rule. -/
theorem registerWriteTakesEffect : Obligations.RegisterWriteTakesEffect := by
  refine ⟨fun s src off width v hans hlink hbad => ?misaligned, fun s v off hans hoff => ?settled,
    fun s v hans => ?jrnlFrom, fun s v hans => ?intEnable⟩
  case misaligned =>
    rw [exec_registerWrite_of_answers off width v hans hlink, regWrite_misaligned s src v.toNat hbad]
    rfl
  case settled =>
    have hfacts : ∀ off ∈ [0x40010, 0x40410, 0x40420, 0x51018, 0x54010, 0x82010, 0xC0008, 0xC1008],
        off % 4 = 0 ∧ off < 0x3800000 ∧ (settledMask off).isSome = true := by decide
    obtain ⟨halign, hhi, hset⟩ := hfacts off hoff
    rw [exec_registerWrite_internal off 4 v hans, regWrite_settled s .internal v.toNat halign hhi hset]
    rfl
  case jrnlFrom =>
    rw [exec_registerWrite_internal 0x81038 8 v hans, regWrite_pciJrnlFrom]
  case intEnable =>
    exact ⟨_, by rw [exec_registerWrite_internal 0x81048 4 v hans, regWrite_pciIntEnable], rfl, rfl⟩

end Sys2Proof.Machine

/-! What an operation leaves of the parts that its frame does not name: from the masks of Laws/Frame, one rule for each
part that the proofs about the interconnect and the controllers read. -/

namespace Sys2Proof.Machine

section
variable {m : Nat} {s t : State}

theorem State.phase_of_erase (h : t.erase m = s.erase m) (hm : m.testBit 0 = false) : t.phase = s.phase := by
  simpa only [State.erase, hm, Bool.false_eq_true, if_false] using congrArg State.phase h

theorem State.time_of_erase (h : t.erase m = s.erase m) (hm : m.testBit 10 = false) : t.time = s.time := by
  simpa only [State.erase, hm, Bool.false_eq_true, if_false] using congrArg State.time h

theorem State.flt_of_erase (h : t.erase m = s.erase m) (hm : m.testBit 28 = false) : t.flt = s.flt := by
  simpa only [State.erase, hm, Bool.false_eq_true, if_false] using congrArg State.flt h

theorem State.engines_of_erase (h : t.erase m = s.erase m) (hm : m.testBit 18 = false) : t.engines = s.engines := by
  simpa only [State.erase, hm, Bool.false_eq_true, if_false] using congrArg State.engines h

theorem State.mem_of_erase (h : t.erase m = s.erase m) (hm : m.testBit 41 = false) : t.mem = s.mem := by
  simpa only [State.erase, hm, Bool.false_eq_true, if_false] using congrArg State.mem h

theorem State.region_of_erase (h : t.erase m = s.erase m) (hm : m.testBit 21 = false) (g : Nat) :
    t.region g = s.region g := by
  have hregions : t.regions = s.regions := by
    simpa only [State.erase, hm, Bool.false_eq_true, if_false] using congrArg State.regions h
  rw [State.region, State.region, hregions]

theorem State.bridge_of_erase (h : t.erase m = s.erase m) (hm : m.testBit 38 = false) (b : Nat) :
    t.bridge b = s.bridge b := by
  have hbridges : t.bridges = s.bridges := by
    simpa only [State.erase, hm, Bool.false_eq_true, if_false] using congrArg State.bridges h
  rw [State.bridge, State.bridge, hbridges]

end

theorem State.phase_of_running {s : State} (h : s.running = true) : s.phase = .running := by
  simpa [State.running] using h

theorem State.answers_of_running {s : State} (h : s.running = true) : s.answers = true := by
  simp [State.answers, State.phase_of_running h]

/-! ## Errors reported to the fault manager -/

/-- 14 R410: a class 3 event is counted. -/
@[simp] theorem State.fenceEvent_flt (s : State) (p : FltPl) (status type : Nat) :
    (s.fenceEvent p status type).flt = { s.flt with fenced := s.flt.fenced + 1, lastClass := 2 } := rfl

@[simp] theorem State.fenceEvent_phase (s : State) (p : FltPl) (status type : Nat) :
    (s.fenceEvent p status type).phase = s.phase := rfl

@[simp] theorem State.fenceEvent_bridge (s : State) (p : FltPl) (status type b : Nat) :
    (s.fenceEvent p status type).bridge b = s.bridge b := rfl

@[simp] theorem State.fenceEvent_region (s : State) (p : FltPl) (status type g : Nat) :
    (s.fenceEvent p status type).region g = s.region g := rfl

/-- The record of a class 3 event is of no stream, so it comes last of the waiting ones. -/
theorem State.fenceEvent_journal (s : State) (p : FltPl) (status type : Nat) :
    ∃ r, (s.fenceEvent p status type).journal.waiting = s.journal.waiting ++ [r] ∧ r.type = type := by
  rw [State.fenceEvent, State.raise, State.updateInta_journal, State.cause_journal,
    State.emit_journal_plain _ _ (Or.inl rfl)]
  exact ⟨_, rfl, rfl⟩

/-- 14 R410: a class 2 error is counted. -/
@[simp] theorem State.contained_flt (s : State) (p : FltPl) (status stream tick account type : Nat) :
    (s.contained p status stream tick account type).flt
      = { s.flt with contained := s.flt.contained + 1, lastClass := 1 } := rfl

@[simp] theorem State.contained_phase (s : State) (p : FltPl) (status stream tick account type : Nat) :
    (s.contained p status stream tick account type).phase = s.phase := rfl

@[simp] theorem State.contained_time (s : State) (p : FltPl) (status stream tick account type : Nat) :
    (s.contained p status stream tick account type).time = s.time := rfl

@[simp] theorem State.contained_region (s : State) (p : FltPl) (status stream tick account type g : Nat) :
    (s.contained p status stream tick account type).region g = s.region g := rfl

/-- 14 R434: a chip-fatal error leaves the device in the safe state, whether it entered it now or was in it. -/
theorem chipFatal_phase {s : State} (source unit_ : Nat) (hans : s.answers = true) :
    (chipFatal s source unit_).phase = .safe := by
  have hreset : s.phase ≠ .inReset := by simpa [State.answers] using hans
  rw [chipFatal]
  split
  case isTrue hstays => exact hstays.resolve_left hreset
  case isFalse =>
    rw [State.raise, State.updateInta_phase, State.cause_phase,
      State.phase_of_erase (stopObservation_erase _ (Nat.and_self _)) rfl,
      State.phase_of_erase (settleChannels_erase _ (Nat.and_self _)) rfl, State.emit_phase,
      State.phase_of_erase (discardPending_erase _ (Nat.and_self _)) rfl]

/-- 14 R410: class 1 errors are counted. -/
@[simp] theorem State.corrected_flt_corrected (s : State) (source unit_ : Nat) :
    (s.corrected source unit_).flt.corrected = s.flt.corrected + 1 := rfl

@[simp] theorem State.corrected_bridge (s : State) (source unit_ n b : Nat) :
    (s.corrected source unit_ n).bridge b = s.bridge b :=
  State.bridge_of_erase (State.corrected_erase s source unit_ n (Nat.and_self _)) rfl b

@[simp] theorem State.corrected_engine (s : State) (source unit_ n p : Nat) :
    (s.corrected source unit_ n).engine p = s.engine p := by
  rw [State.engine, State.engine, State.engines_of_erase (State.corrected_erase s source unit_ n (Nat.and_self _)) rfl]

@[simp] theorem chipFatal_bridge (s : State) (source unit_ b : Nat) :
    (chipFatal s source unit_).bridge b = s.bridge b :=
  State.bridge_of_erase (chipFatal_erase s source unit_ (Nat.and_self _)) rfl b

end Sys2Proof.Machine

/-! What the events of a die-to-die bridge do: replays, spare lanes, half width and loss (01 R15 to R18). -/

namespace Sys2Proof.Machine

/-! ## The lanes of a bridge -/

theorem Bridge.sparesOf_replaceLane (x : Bridge) (lane : Nat) :
    (x.replaceLane lane).sparesOf lane = x.sparesOf lane - 1 := by
  unfold Bridge.replaceLane Bridge.sparesOf
  split <;> rfl

/-- 01 R14: the spares of the other direction stand. -/
theorem Bridge.sparesOf_replaceLane_other (x : Bridge) {lane other : Nat}
    (hdir : (decide (lane < 384) != decide (other < 384)) = true) :
    (x.replaceLane lane).sparesOf other = x.sparesOf other := by
  by_cases hlane : lane < 384
  · have hother : ¬ other < 384 := by simpa [hlane] using hdir
    simp [Bridge.replaceLane, Bridge.sparesOf, hlane, hother]
  · have hother : other < 384 := by simpa [hlane] using hdir
    simp [Bridge.replaceLane, Bridge.sparesOf, hlane, hother]

theorem Bridge.laneReplays_replaceLane (x : Bridge) (lane : Nat) :
    Table.get 0 lane (x.replaceLane lane).laneReplays = 0 := by
  unfold Bridge.replaceLane
  split <;> exact Table.get_set_self 0 lane 0 x.laneReplays

/-! ## A lost bridge -/

@[simp] theorem loseBridge_bridge (s : State) (b : Nat) :
    (loseBridge s b).bridge b = { s.bridge b with lost := true, rerouted := decide (b = 2) } := by
  unfold loseBridge
  split <;> simp

/-- 01 R18: the loss of the CD0–CD1 bridge is no chip-fatal error. -/
theorem loseBridge_two_phase (s : State) : (loseBridge s 2).phase = s.phase := by
  simp [loseBridge]

/-- 01 R18: the loss of a CD–MD bridge is chip-fatal. -/
theorem loseBridge_phase_safe {s : State} {b : Nat} (hb : b < 2) (hans : s.answers = true) :
    (loseBridge s b).phase = .safe := by
  rw [loseBridge, if_neg (by omega)]
  exact chipFatal_phase srcBridgeLost b hans

/-! ## The commands -/

section
variable {s : State} {b lane : Nat} (hans : s.answers = true) (hb : b < 3) (hup : (s.bridge b).lost = false)
include hans hb hup

theorem exec_bridgeLost : exec (.bridgeLost b) s = .next (loseBridge s b) := by
  change execBridgeLost b s = _
  simp [execBridgeLost, done, hans, hb, hup]

variable (hlane : lane < 768)
include hlane

theorem exec_flitCrcReplay : exec (.flitCrcReplay b lane) s = .next ((s.modBridge b fun x =>
    { x with replays := x.replays + 1, laneReplays := Table.upd 0 lane (· + 1) x.laneReplays }).corrected srcBridgeCrc b) := by
  change execFlitCrcReplay b lane s = _
  simp [execFlitCrcReplay, done, hans, hb, hlane, hup]

theorem exec_laneSpare (hspare : 0 < (s.bridge b).sparesOf lane)
    (hover : Config.laneThreshold < Table.get 0 lane (s.bridge b).laneReplays) :
    exec (.laneSpare b lane) s = .next ((s.modBridge b fun y => y.replaceLane lane).fenceEvent
      { source := srcLane, unit := b, second := lane % 256 } stOK (type := 0x060D)) := by
  change execLaneSpare b lane s = _
  simp [execLaneSpare, done, hans, hb, hlane, hup, hspare, hover]

theorem exec_bridgeHalfWidth_full (hspare : (s.bridge b).sparesOf lane = 0) (hfull : (s.bridge b).half = false) :
    exec (.bridgeHalfWidth ⟨b, lane⟩) s = .next ((s.modBridge b fun y => { y with half := true }).fenceEvent
      { source := srcLane, unit := b } stOK) := by
  change execBridgeHalfWidth ⟨b, lane⟩ s = _
  simp [execBridgeHalfWidth, done, hans, hb, hlane, hup, hspare, hfull]

theorem exec_bridgeHalfWidth_half (hspare : (s.bridge b).sparesOf lane = 0) (hhalf : (s.bridge b).half = true) :
    exec (.bridgeHalfWidth ⟨b, lane⟩) s = .next (loseBridge s b) := by
  change execBridgeHalfWidth ⟨b, lane⟩ s = _
  simp [execBridgeHalfWidth, done, hans, hb, hlane, hup, hspare, hhalf]

end

/-- Settles O11: each clause reads the changed bridge off the state that its command's rule above gives. -/
theorem bridgeEventsTakeEffect : Obligations.BridgeEventsTakeEffect := by
  refine ⟨fun s b lane hans hb hlane hup => ?replay, fun s b lane hans hb hlane hup hspare hover => ?spare,
    fun s b lane hans hb hlane hup hspare hfull => ?half, fun s lane hans hlane hup hspare hhalf => ?halfAgain,
    fun s hans hup => ?rerouted, fun s b hans hb hup => ?fatal⟩
  case replay =>
    exact ⟨_, exec_flitCrcReplay hans hb hup hlane, by simp, by simp [Table.upd], by simp, fun j hj => by simp [hj]⟩
  case spare =>
    obtain ⟨r, hr⟩ := State.fenceEvent_journal (s.modBridge b fun y => y.replaceLane lane)
      { source := srcLane, unit := b, second := lane % 256 } stOK 0x060D
    refine ⟨_, exec_laneSpare hans hb hup hlane hspare hover, ?_, fun other hdir => ?_, ?_, by simp, r, hr⟩ <;>
      rw [State.fenceEvent_bridge, State.modBridge_get, if_pos rfl]
    · exact Bridge.sparesOf_replaceLane _ lane
    · exact Bridge.sparesOf_replaceLane_other _ hdir
    · exact Bridge.laneReplays_replaceLane _ lane
  case half =>
    obtain ⟨r, hr⟩ := State.fenceEvent_journal (s.modBridge b fun y => { y with half := true })
      { source := srcLane, unit := b } stOK 0x0605
    exact ⟨_, exec_bridgeHalfWidth_full hans hb hup hlane hspare hfull, by simp, by simpa using hup, r, hr⟩
  case halfAgain =>
    exact ⟨_, exec_bridgeHalfWidth_half hans (by decide) hup hlane hspare hhalf, by simp, by simp⟩
  case rerouted =>
    exact ⟨_, exec_bridgeLost hans (by decide) hup, by simp, by simp, loseBridge_two_phase s⟩
  case fatal =>
    exact ⟨_, exec_bridgeLost hans (by omega) hup, by simp, loseBridge_phase_safe hb hans⟩

end Sys2Proof.Machine

/-! What the arbiters grant when one request waits, what a granted write stores (01 R19 to R23, 16 R478), and how the cells
of an engine advance (01 R25, 07 R229). -/

namespace Sys2Proof.Machine

/-! ## The choice of one request -/

@[simp] theorem nextTurn_singleton (last : Nat) (r : ArbReq) : nextTurn last [r] = some r := by
  by_cases hturn : last < r.who <;> simp [nextTurn, hturn]

@[simp] theorem oldest_singleton (r : ArbReq) : oldest [r] = some r := rfl

/-- 01 R19: with one bulk request, its credit decides nothing. -/
@[simp] theorem bulkTurn_singleton (a : Arbiter) (r : ArbReq) : bulkTurn a [r] = some r := by
  unfold bulkTurn
  split
  case h_1 q hq => rw [List.mem_singleton.mp (List.mem_of_find?_eq_some hq)]
  case h_2 => exact nextTurn_singleton a.lastBulk r

@[simp] theorem classTurn_nil (a : Arbiter) (weighted : Bool) : classTurn a weighted [] = none := rfl

/-- A request of any class is the choice when no other waits. -/
@[simp] theorem classTurn_singleton (a : Arbiter) (weighted : Bool) (r : ArbReq) : classTurn a weighted [r] = some r := by
  cases hcls : serviceOf r <;> simp [classTurn, hcls]

@[simp] theorem arbAfter_granted (s : State) (a : Arbiter) (r : ArbReq) : (arbAfter s a r).granted = some r.who := by
  unfold arbAfter
  split <;> rfl

/-! ## The granted access -/

theorem State.reaches_congr {s t : State} (h : t.engines = s.engines) (a : Nat) : t.reaches a = s.reaches a := by
  have hengine : t.engine = s.engine := funext fun p => by rw [State.engine, State.engine, h]
  unfold State.reaches State.physOf
  rw [hengine]

/-- A write whose address leads into memory is stored there. -/
theorem perform_write_reached {s : State} {a x : Nat} {bytes : List Byte} (mark : Bool) (unit_ : Nat)
    (hreach : s.reaches a = some x) (hmem : inDeviceMemory x bytes.length = true) :
    perform s (.write a bytes mark) false unit_ = s.store x bytes mark := by
  simp [perform, hreach, hmem]

/-- 16 R478: a write whose address leads nowhere is dropped. -/
theorem perform_write_dropped {s : State} {a : Nat} (bytes : List Byte) (mark : Bool) (unit_ : Nat)
    (hreach : s.reaches a = none) : perform s (.write a bytes mark) false unit_ = s := by
  simp [perform, hreach]

/-- The state that an arbiter performs the granted access on: the port shows the grant, and engines and memory stand. -/
structure Granted (s t : State) (port who : Nat) : Prop where
  granted : (t.arb port).granted = some who
  engines : t.engines = s.engines
  mem : t.mem = s.mem

/-- A port's entry with the grant, written to a state that has the engines and the memory. -/
theorem Granted.setArb {s t : State} {port who : Nat} {x : Arbiter} (hx : x.granted = some who)
    (hengines : t.engines = s.engines) (hmem : t.mem = s.mem) : Granted s (t.setArb port x) port who :=
  { granted := by simp [hx]
    engines := hengines
    mem := hmem }

namespace Granted
variable {s t : State} {port who : Nat} (h : Granted s t port who)
include h

theorem byte_eq (j : Nat) : t.byte j = s.byte j := by
  rw [State.byte, State.byte, h.mem]

/-- The write that is granted is stored where its address leads and nowhere else. -/
theorem perform_stores {a x : Nat} {bytes : List Byte} (mark : Bool) (unit_ : Nat)
    (hreach : s.reaches a = some x) (hmem : inDeviceMemory x bytes.length = true) :
    ((perform t (.write a bytes mark) false unit_).arb port).granted = some who
      ∧ (∀ i, (hi : i < bytes.length) → (perform t (.write a bytes mark) false unit_).byte (x + i) = bytes[i])
      ∧ ∀ j, j < x ∨ x + bytes.length ≤ j → (perform t (.write a bytes mark) false unit_).byte j = s.byte j := by
  rw [perform_write_reached mark unit_ ((State.reaches_congr h.engines a).trans hreach) hmem]
  exact ⟨h.granted, fun i hi => State.store_byte_inside t x i bytes mark hi,
    fun j hj => (State.store_byte_outside t x j bytes mark hj).trans (h.byte_eq j)⟩

end Granted

/-! ## The arbiters -/

/-- 16 R485: the panic that a lone request to DRAM raises, holds or releases is noted before the grant. -/
def panicNoted (s : State) (r : ArbReq) : State :=
  match opStack r.op with
  | some n => notePanic s n r.who (portPanic s n [r] r)
  | none => s

theorem panicNoted_erase (s : State) (r : ArbReq) : (panicNoted s r).erase 0x40000000 = s.erase 0x40000000 := by
  unfold panicNoted
  split
  · exact notePanic_erase s _ _ _ (Nat.and_self _)
  · rfl

/-- Aged, or in its class: a lone request is the one picked. -/
theorem agedTurn_singleton (aged : ArbReq → Bool) (a : Arbiter) (weighted : Bool) (r : ArbReq) :
    (if !([r].filter aged).isEmpty then oldest ([r].filter aged) else classTurn a weighted [r]) = some r := by
  cases haged : aged r <;> simp [haged]

/-- In panic or not, a lone request is the one picked. -/
theorem panicTurn_singleton (urgent aged : ArbReq → Bool) (last : Nat) (a : Arbiter) (weighted : Bool) (r : ArbReq) :
    (if !([r].filter urgent).isEmpty then nextTurn last ([r].filter urgent)
      else if !([r].filter aged).isEmpty then oldest ([r].filter aged) else classTurn a weighted [r]) = some r := by
  rw [agedTurn_singleton]
  cases hurgent : urgent r <;> simp [hurgent]

/-- CHIP_ARB_GRANT with one request. -/
theorem exec_chipArbGrant_singleton {s : State} {port : Nat} (r : ArbReq) (parity : Bool) (hans : s.answers = true)
    (hport : port < 16) :
    ∃ u, Granted s u port r.who ∧ exec (.chipArbGrant port [r] parity) s = .next (perform u r.op parity 0xFF) := by
  have hframe := panicNoted_erase s r
  refine ⟨_, .setArb (arbAfter_granted (panicNoted s r) ((panicNoted s r).arb port) r)
    (State.engines_of_erase hframe rfl) (State.mem_of_erase hframe (by decide)), ?_⟩
  change execChipArbGrant port [r] parity s = _
  have hserved : ¬ ((!s.answers) = true ∨ 16 ≤ port) := by simp [hans, hport]
  rw [execChipArbGrant, if_neg hserved]
  simp only [panicTurn_singleton]
  rfl

/-- REGION_XBAR_GRANT with one request. -/
theorem exec_regionXbarGrant_singleton {s : State} {g port : Nat} (r : ArbReq) (parity : Bool) (hans : s.answers = true)
    (hg : g < 4) (hport : port < 32) :
    ∃ u, Granted s u (100 + 32 * g + port) r.who
      ∧ exec (.regionXbarGrant g port [r] parity) s = .next (perform u r.op parity g) := by
  change ∃ u, _ ∧ execRegionXbarGrant g port [r] parity s = _
  have hserved : ¬ ((!s.answers) = true ∨ 4 ≤ g ∨ 32 ≤ port) := by simp [hans, hg, hport]
  rw [execRegionXbarGrant, if_neg hserved]
  simp only [agedTurn_singleton]
  refine ⟨_, .setArb ?_ rfl rfl, rfl⟩
  cases serviceOf r <;> rfl

theorem exec_regionXbarGrant_nil {s : State} {g port : Nat} (parity : Bool) (hans : s.answers = true)
    (hg : g < 4) (hport : port < 32) :
    exec (.regionXbarGrant g port [] parity) s = .next
      (s.setArb (100 + 32 * g + port) { s.arb (100 + 32 * g + port) with granted := none }) := by
  change execRegionXbarGrant g port [] parity s = _
  have hserved : ¬ (s.answers = false ∨ 4 ≤ g ∨ 32 ≤ port) := by simp [hans, hg, hport]
  simp [execRegionXbarGrant, done, hserved]

/-- 01 R23: aged or not, a lone request is the first of its bank. -/
theorem firstBank_singleton (aged : BankReq → Bool) (r : BankReq) :
    firstBank (if ([r].filter aged).isEmpty then [r] else [r].filter aged) = some r := by
  cases haged : aged r <;> simp [haged, firstBank]

/-- ENGINE_BANK_GRANT with one write of the bank, within engine memory. -/
theorem exec_engineBankGrant_write {s : State} {p bank waited a : Nat} (who : BankUser) {bytes : List Byte} {mark : Bool}
    (hans : s.answers = true) (hp : p < 72) (hbank : bank < 16) (hop : opBank (.write a bytes mark) = some bank)
    (hin : a + bytes.length ≤ engineSize) :
    exec (.engineBankGrant p bank [⟨who, waited, .write a bytes mark⟩]) s
      = .next (s.store (engineBase p + a) bytes mark) := by
  change execEngineBankGrant p bank _ s = _
  have hserved : ¬ ((!s.answers) = true ∨ 72 ≤ p ∨ 16 ≤ bank) := by simp [hans, hp, hbank]
  have hhere : [(⟨who, waited, .write a bytes mark⟩ : BankReq)].filter (fun q => opBank q.op == some bank)
      = [⟨who, waited, .write a bytes mark⟩] := by simp [hop]
  rw [execEngineBankGrant, if_neg hserved]
  simp only [hhere, firstBank_singleton, if_pos hin]
  rfl

/-! ## The cells of an engine -/

section
variable {s : State} {p : Nat} {r : Running} (hrun : s.running = true) (hr : (s.engine p).running = some r)
include hrun hr

theorem exec_operandNetworkCycle (deliver load : Bool) : exec (.operandNetworkCycle p deliver load) s = .next
    (s.modEngine p fun y => { y with pipe := y.pipe.network deliver load (s.planOf p r.issue) }) := by
  change execOperandNetworkCycle p deliver load s = _
  simp [execOperandNetworkCycle, done, hrun, hr]

theorem exec_cellPipelineCycle {check : List BankCheck} (hsound : ((s.engine p).pipe.cycle check).2.wrong = 0) :
    exec (.cellPipelineCycle p check) s = .next ((s.modEngine p fun y => { y with
      pipe := ((s.engine p).pipe.cycle check).1
      bankCe := min 255 (y.bankCe + ((s.engine p).pipe.cycle check).2.corrected)
      cellBits := y.cellBits ||| ((s.engine p).pipe.cycle check).2.cells
      activity := if ((s.engine p).pipe.cycle check).1.drained (s.planOf p r.issue) then 2 else 1 }).corrected
        srcBankSingle p ((s.engine p).pipe.cycle check).2.corrected) := by
  change execCellPipelineCycle p check s = _
  simp [execCellPipelineCycle, done, hrun, hr, hsound]

end

/-- Settles O12: a lone request is the one granted, and the granted write is a store where its address leads. -/
theorem arbitersGrantAndCellsAdvance : Obligations.ArbitersGrantAndCellsAdvance := by
  refine ⟨⟨fun s port who waited fill a x dp bytes mark hans hport hreach hmem => ?chip,
    fun s g port who waited fill a x dp bytes mark c hans hg hport hreach hmem => ?xbar,
    fun s port who waited fill a dp bytes mark hans hport hreach => ?nowhere,
    fun s g port parity hans hg hport => ?idle,
    fun s p bank waited a who bytes mark hans hp hbank hop hin => ?bank⟩,
    fun s p deliver load r hrun hr => ?network, fun s p check hrun hbusy hsound => ?cycle⟩
  case chip =>
    obtain ⟨u, hu, hexec⟩ := exec_chipArbGrant_singleton ⟨who, .realTime, waited, dp, fill, .write a bytes mark⟩ false hans hport
    exact ⟨_, hexec, hu.perform_stores mark 0xFF hreach hmem⟩
  case xbar =>
    obtain ⟨u, hu, hexec⟩ := exec_regionXbarGrant_singleton ⟨who, c, waited, dp, fill, .write a bytes mark⟩ false hans hg hport
    exact ⟨_, hexec, hu.perform_stores mark g hreach hmem⟩
  case nowhere =>
    obtain ⟨u, hu, hexec⟩ := exec_chipArbGrant_singleton ⟨who, .realTime, waited, dp, fill, .write a bytes mark⟩ false hans hport
    rw [perform_write_dropped bytes mark 0xFF ((State.reaches_congr hu.engines a).trans hreach)] at hexec
    exact ⟨u, hexec, hu.granted, hu.byte_eq⟩
  case idle =>
    exact ⟨_, exec_regionXbarGrant_nil parity hans hg hport, by simp⟩
  case bank =>
    exact ⟨_, exec_engineBankGrant_write who hans hp hbank hop hin,
      fun i hi => State.store_byte_inside s _ i bytes mark hi, fun j hj => State.store_byte_outside s _ j bytes mark hj⟩
  case network =>
    exact ⟨_, exec_operandNetworkCycle hrun hr deliver load, by simp, by simp [hr], fun j hj => by simp [hj]⟩
  case cycle =>
    obtain ⟨r, hr⟩ := Option.isSome_iff_exists.mp hbusy
    exact ⟨_, exec_cellPipelineCycle hrun hr hsound, by simp, by simp, fun j hj => by simp [hj]⟩

end Sys2Proof.Machine

/-! The watchdogs and restarts of the region and chip controllers (01 R26 to R28, 14 R433). -/

namespace Sys2Proof.Machine

/-! ## What the steps of a restart leave as it is -/

@[simp] theorem capacityChanged_region (s : State) (lost : List StlUnit) (g : Nat) :
    (capacityChanged s lost).region g = s.region g :=
  State.region_of_erase (capacityChanged_erase s lost (Nat.and_self _)) rfl g

@[simp] theorem capacityChanged_flt (s : State) (lost : List StlUnit) : (capacityChanged s lost).flt = s.flt :=
  State.flt_of_erase (capacityChanged_erase s lost (Nat.and_self _)) rfl

@[simp] theorem capacityChanged_phase (s : State) (lost : List StlUnit) : (capacityChanged s lost).phase = s.phase :=
  State.phase_of_erase (capacityChanged_erase s lost (Nat.and_self _)) rfl

@[simp] theorem checkAble_region (s : State) (g : Nat) : (checkAble s).region g = s.region g :=
  State.region_of_erase (checkAble_erase s (Nat.and_self _)) rfl g

@[simp] theorem checkAble_flt (s : State) : (checkAble s).flt = s.flt :=
  State.flt_of_erase (checkAble_erase s (Nat.and_self _)) rfl

@[simp] theorem rehome_region (s : State) (r g : Nat) : (rehome s r).region g = s.region g :=
  State.region_of_erase (rehome_erase s r (Nat.and_self _)) rfl g

@[simp] theorem rehome_flt (s : State) (r : Nat) : (rehome s r).flt = s.flt :=
  State.flt_of_erase (rehome_erase s r (Nat.and_self _)) rfl

@[simp] theorem restartJob_region (s : State) (reason g : Nat) : (restartJob s reason).region g = s.region g :=
  State.region_of_erase (restartJob_erase s reason (Nat.and_self _)) rfl g

@[simp] theorem restartJob_flt (s : State) (reason : Nat) : (restartJob s reason).flt = s.flt :=
  State.flt_of_erase (restartJob_erase s reason (Nat.and_self _)) rfl

@[simp] theorem missingRegion_region (s : State) (r g : Nat) : (missingRegion s r).region g = s.region g :=
  State.region_of_erase (missingRegion_erase s r (Nat.and_self _)) rfl g

@[simp] theorem missingRegion_flt (s : State) (r : Nat) : (missingRegion s r).flt = s.flt :=
  State.flt_of_erase (missingRegion_erase s r (Nat.and_self _)) rfl

@[simp] theorem stopWatches_region (s : State) (status : Nat) (p : Nat → Watch → Bool) (g : Nat) :
    (stopWatches s status p).region g = s.region g :=
  State.region_of_erase (stopWatches_erase s status p (Nat.and_self _)) rfl g

@[simp] theorem stopWatches_flt (s : State) (status : Nat) (p : Nat → Watch → Bool) :
    (stopWatches s status p).flt = s.flt :=
  State.flt_of_erase (stopWatches_erase s status p (Nat.and_self _)) rfl

@[simp] theorem failIfRestarted_region (s : State) (c : Ctrl) (restarting : Bool) (g : Nat) :
    (failIfRestarted s c restarting).region g = s.region g :=
  State.region_of_erase (failIfRestarted_erase s c restarting (Nat.and_self _)) rfl g

@[simp] theorem failIfRestarted_flt (s : State) (c : Ctrl) (restarting : Bool) :
    (failIfRestarted s c restarting).flt = s.flt :=
  State.flt_of_erase (failIfRestarted_erase s c restarting (Nat.and_self _)) rfl

@[simp] theorem failIfRestarted_phase (s : State) (c : Ctrl) (restarting : Bool) :
    (failIfRestarted s c restarting).phase = s.phase :=
  State.phase_of_erase (failIfRestarted_erase s c restarting (Nat.and_self _)) rfl

@[simp] theorem failIfRestarted_time (s : State) (c : Ctrl) (restarting : Bool) :
    (failIfRestarted s c restarting).time = s.time :=
  State.time_of_erase (failIfRestarted_erase s c restarting (Nat.and_self _)) rfl

@[simp] theorem fenceClearing_region (s : State) (r source g : Nat) : (fenceClearing s r source).region g = s.region g :=
  State.region_of_erase (fenceClearing_erase s r source (Nat.and_self _)) rfl g

@[simp] theorem stageMove_region (s : State) (r g : Nat) : (stageMove s r).region g = s.region g :=
  State.region_of_erase (stageMove_erase s r (Nat.and_self _)) rfl g

@[simp] theorem discardForRestart_flt (s : State) : (discardForRestart s).flt = s.flt :=
  State.flt_of_erase (discardForRestart_erase s (Nat.and_self _)) rfl

@[simp] theorem discardForRestart_phase (s : State) : (discardForRestart s).phase = s.phase :=
  State.phase_of_erase (discardForRestart_erase s (Nat.and_self _)) rfl

@[simp] theorem endRolling_flt (s : State) : (endRolling s).flt = s.flt :=
  State.flt_of_erase (endRolling_erase s (Nat.and_self _)) rfl

/-- 02 R88: without a charter update no rolling restart ends. -/
theorem endRolling_of_no_update {s : State} (h : s.stl.update = none) : endRolling s = s := by
  simp [endRolling, h]

@[simp] theorem extendSwitch_region (s : State) (r g : Nat) : (extendSwitch s r).region g = s.region g := rfl

/-- 14 R439: only the audits of the restarting region's controller are dropped. -/
@[simp] theorem dropRegionAudits_region (s : State) (g : Nat) :
    (dropRegionAudits s g).region g = { s.region g with audits := [] } := by
  simp [dropRegionAudits, State.region, State.modRegion, State.setRegion]

@[simp] theorem dropRegionAudits_contained (s : State) (g : Nat) :
    (dropRegionAudits s g).flt.contained = s.flt.contained := rfl

/-! ## Restart and fence of a region -/

/-- 01 R26, R28: the restart at hand counts with those of the hour before it. -/
theorem thirdRestart_iff {times : List Nat} {now : Nat} : 3 ≤ (times ++ [now]).length ↔ 2 ≤ times.length := by simp

/-- 14 R433: a fenced region is out of service. -/
theorem fenceRegion_region (s : State) (g : Nat) :
    ((fenceRegion s g).region g).state = 3 ∧ ((fenceRegion s g).region g).fenced = true := by
  simp [fenceRegion]

/-- 01 R26: the controller restarts now, and the restart counts within the hour. -/
theorem restartRegion_of_few {s : State} {g : Nat}
    (hfew : (recent s.time.elapsed hour (s.region g).restartTimes).length < 2) :
    ((restartRegion s g).region g).state = 1 ∧ ((restartRegion s g).region g).restarts = (s.region g).restarts + 1
      ∧ ((restartRegion s g).region g).restartedAt = s.time.elapsed
      ∧ (restartRegion s g).flt.contained = s.flt.contained := by
  rw [restartRegion, if_neg (thirdRestart_iff.not.mpr (Nat.not_le.mpr hfew))]
  split <;> simp

/-- 01 R26: the third restart within an hour fences the region. -/
theorem restartRegion_of_third {s : State} {g : Nat}
    (hthird : 2 ≤ (recent s.time.elapsed hour (s.region g).restartTimes).length) :
    ((restartRegion s g).region g).state = 3 ∧ ((restartRegion s g).region g).fenced = true := by
  rw [restartRegion, if_pos (thirdRestart_iff.mpr hthird)]
  exact fenceRegion_region _ g

/-! ## The commands of a region -/

section
variable {s : State} {g : Nat} (hg : g < 4)
include hg

theorem exec_regionWatchdogExpiry (hrun : s.running = true) (hstate : (s.region g).state = 0) :
    exec (.regionWatchdogExpiry g) s = .next (restartRegion (failIfRestarted
      (s.contained { source := srcRegionWatchdog, unit := g } stBUDGET (type := 0x0608)) (.region g) true) g) := by
  change execRegionWatchdogExpiry g s = _
  simp [execRegionWatchdogExpiry, done, hrun, hg, hstate]

variable (hstate : (s.region g).state = 1) (hopen : (s.region g).fenced = false)
include hstate hopen

theorem exec_regionRestartComplete (hans : s.answers = true)
    (hintime : s.time.elapsed ≤ (s.region g).restartedAt + 50000000) :
    exec (.regionRestartComplete g) s
      = .next (capacityChanged ((extendSwitch s g).modRegion g fun r => { r with state := 0 })) := by
  change execRegionRestartComplete g s = _
  simp [execRegionRestartComplete, done, hans, hg, hstate, hopen, hintime]

theorem exec_regionRestartTimeout (hrun : s.running = true) :
    exec (.regionRestartTimeout g) s = .next (fenceRegion (failIfRestarted
      (extendSwitch (s.atElapsed ((s.region g).restartedAt + 50000000 + 1)) g) (.region g) true) g) := by
  change execRegionRestartTimeout g s = _
  simp [execRegionRestartTimeout, done, hrun, hg, hstate, hopen]

end

/-! ## The commands of the chip controller -/

section
variable {s : State} (hrun : s.running = true) (hup : s.flt.chipRestarting = false)
include hrun hup

/-- The chip controller restarts, and the restart counts within the hour. -/
theorem exec_chipWatchdogExpiry_of_few (hfew : (recent s.time.elapsed hour s.flt.chipRestarts).length < 2) :
    ∃ u, exec .chipWatchdogExpiry s = .next (capacityChanged u) ∧ u.phase = s.phase ∧ u.flt.chipRestarting = true
      ∧ u.flt.contained = s.flt.contained + 1 := by
  change ∃ u, execChipWatchdogExpiry s = _ ∧ _
  rw [execChipWatchdogExpiry, if_pos ⟨.inl (State.phase_of_running hrun), hup⟩,
    if_neg (thirdRestart_iff.not.mpr (Nat.not_le.mpr hfew))]
  exact ⟨_, rfl, by simp, rfl, by simp⟩

/-- The third restart within an hour is chip-fatal. -/
theorem exec_chipWatchdogExpiry_of_third (hthird : 2 ≤ (recent s.time.elapsed hour s.flt.chipRestarts).length) :
    exec .chipWatchdogExpiry s = .next (chipFatal s srcChipWatchdog 0xFF) := by
  change execChipWatchdogExpiry s = _
  rw [execChipWatchdogExpiry, if_pos ⟨.inl (State.phase_of_running hrun), hup⟩, if_pos (thirdRestart_iff.mpr hthird)]
  rfl

end

section
variable {s : State} (hdown : s.flt.chipRestarting = true) (hans : s.answers = true)
include hdown hans

/-- 01 R28: with no batch discarded there is nothing to tell. -/
theorem exec_chipControllerRestarted_of_none (hnone : s.stl.discarded = none) :
    exec .chipControllerRestarted s = .next (endRolling
      { s with flt := { s.flt with chipRestarting := false }, stl := { s.stl with discarded := none } }) := by
  change execChipControllerRestarted s = _
  simp [execChipControllerRestarted, done, hdown, hans, hnone]

/-- 01 R28: the record of a discarded batch is of no stream, so it comes last of the waiting ones. -/
theorem exec_chipControllerRestarted_of_discarded {p : StlPl} (hdisc : s.stl.discarded = some p) :
    ∃ u, exec .chipControllerRestarted s = .next (endRolling u) ∧ u.flt.chipRestarting = false
      ∧ u.stl = { s.stl with discarded := none }
      ∧ ∃ r, u.journal.waiting = s.journal.waiting ++ [r] ∧ r.type = 0x0103 ∧ r.payload = .stl p := by
  change ∃ u, execChipControllerRestarted s = _ ∧ _
  simp only [execChipControllerRestarted, done, hdown, hans, hdisc, Bool.and_self, if_true]
  refine ⟨_, rfl, rfl, rfl, ?_⟩
  rw [State.emit_journal_plain _ _ (Or.inl rfl)]
  exact ⟨_, rfl, rfl, rfl⟩

end

/-- Settles O13: what restarts, fences and stops is read off the rules of each restart above; nothing that follows a restart
touches a region's controller or the count of errors. -/
theorem controllersRestart : Obligations.ControllersRestart := by
  refine ⟨fun s g hrun hg hstate hfew => ?restart, fun s g hrun hg hstate hthird => ?third,
    fun s g hans hg hstate hopen hintime => ?resume, fun s g hrun hg hstate hopen => ?timeout,
    fun s hrun hup hfew => ?chip, fun s hrun hup hthird => ?fatal, fun s p hdown hans hupdate hdisc => ?record,
    fun s hdown hans hupdate hnone => ?noRecord, fun s hdown hans => ?runs⟩
  case restart =>
    obtain ⟨hrestart, hcount, hat, hcontained⟩ := restartRegion_of_few (g := g) (s := failIfRestarted
      (s.contained { source := srcRegionWatchdog, unit := g } stBUDGET (type := 0x0608)) (.region g) true) (by simpa using hfew)
    exact ⟨_, exec_regionWatchdogExpiry hg hrun hstate, hrestart, by simpa using hcount, by simpa using hat,
      by simpa using hcontained⟩
  case third =>
    exact ⟨_, exec_regionWatchdogExpiry hg hrun hstate, restartRegion_of_third (by simpa using hthird)⟩
  case resume =>
    exact ⟨_, exec_regionRestartComplete hg hstate hopen hans hintime, by simp, fun j hj => by simp [hj]⟩
  case timeout =>
    exact ⟨_, exec_regionRestartTimeout hg hstate hopen hrun, fenceRegion_region _ g⟩
  case chip =>
    obtain ⟨u, hexec, hphase, hdown, hcontained⟩ := exec_chipWatchdogExpiry_of_few hrun hup hfew
    exact ⟨_, hexec, by simpa using hdown, by simpa using hcontained, by simpa using hphase⟩
  case fatal =>
    exact ⟨_, exec_chipWatchdogExpiry_of_third hrun hup hthird,
      chipFatal_phase srcChipWatchdog 0xFF (State.answers_of_running hrun)⟩
  case record =>
    obtain ⟨u, hexec, hruns, hstl, hrecord⟩ := exec_chipControllerRestarted_of_discarded hdown hans hdisc
    have hnoUpdate : u.stl.update = none := by rw [hstl]; exact hupdate
    rw [endRolling_of_no_update hnoUpdate] at hexec
    exact ⟨u, hexec, hruns, by rw [hstl], hrecord⟩
  case noRecord =>
    exact ⟨_, (exec_chipControllerRestarted_of_none hdown hans hnone).trans
      (congrArg Host.Outcome.next (endRolling_of_no_update hupdate)), rfl, rfl⟩
  case runs =>
    cases hdisc : s.stl.discarded with
    | none => exact ⟨_, exec_chipControllerRestarted_of_none hdown hans hdisc, by simp⟩
    | some p =>
      obtain ⟨u, hexec, hruns, -⟩ := exec_chipControllerRestarted_of_discarded hdown hans hdisc
      exact ⟨_, hexec, by simpa using hruns⟩

end Sys2Proof.Machine

/-! The start of the device (02 R50 to R65, 21 R604 to R606): the state right after reset and the steps up to the firmware. -/

namespace Sys2Proof.Machine

/-- Settles O1: every part has its reset value, and an empty memory and queue hold nothing out of form. -/
theorem resetLeavesItsState : Obligations.ResetLeavesItsState := by
  refine ⟨?parts, ?stored, ?queue⟩
  case parts =>
    exact ⟨rfl, rfl, rfl, rfl, rfl, rfl, rfl, rfl, rfl, rfl, rfl, rfl, rfl, rfl, rfl, rfl, fun a => Table.get_nil 0#8 a⟩
  case stored => exact ⟨rfl, rfl⟩
  case queue => exact fun c hc => absurd hc List.not_mem_nil

theorem State.answers_of_phase {s : State} (h : s.phase ≠ .inReset) : s.answers = true := decide_eq_true h

/-! ## The boot ROM's steps -/

@[simp] theorem bootBegin_phase (s : State) : (bootBegin s).phase = .booting := rfl
@[simp] theorem bootBegin_boot (s : State) : (bootBegin s).boot = { s.boot with step := 1 } := rfl
@[simp] theorem bootBegin_pins (s : State) : (bootBegin s).pins = s.pins := rfl

theorem bit_eq_toNat (b : Bool) : bit b = b.toNat := by cases b <;> rfl

/-- 21 R606: the straps are taken as RESET_N rises. -/
theorem exec_bootStart {s : State} (a b c d : Bool) (hreset : s.phase = .inReset) :
    exec (.bootStart [some a, some b, some c, some d]) s = .next (bootBegin { s with
      pins := { s.pins with pwrgood := true, resetN := true, smbAddr := a.toNat + 2 * b.toNat + 4 * c.toNat, pcieOff := d }
      free := s.free + 4 }) := by
  change execBootStart _ s = _
  simp [execBootStart, done, hreset, strap, bit_eq_toNat]

/-- 02 R51: the directory is read once. -/
theorem exec_directoryReadComplete {s : State} (hboot : s.phase = .booting) (hunread : s.boot.dirRead = false) :
    exec .directoryReadComplete s = .next (readLayout s) := by
  change execDirectoryReadComplete s = _
  simp [execDirectoryReadComplete, done, hboot, hunread]

/-- 02 R60: DRAM trains once. -/
theorem exec_dramTrainingComplete {s : State} (ok0 ok1 : Bool) (hboot : s.phase = .booting) (huntrained : s.boot.trained = false) :
    exec (.dramTrainingComplete ok0 ok1) s = .next (dramTrained s ok0 ok1) := by
  change execDramTrainingComplete ok0 ok1 s = _
  simp [execDramTrainingComplete, done, hboot, huntrained]

/-- One stack of DRAM trained or lost, with the soft repairs of its rows applied again (16 R494, 21 R603). -/
def trainStack (repairs : List (Nat × Nat)) (a : State) (n : Nat) (ok : Bool) : State :=
  let b := a.modDram n fun x =>
    { x with state := if ok then 0 else 3, repaired := (repairs.filter fun r => r.1 == n).map (·.2) }
  if ok then b else chipFatal b srcStack n

theorem dramTrained_eq (s : State) (ok0 ok1 : Bool) :
    dramTrained s ok0 ok1 = trainStack s.flash.repairs (trainStack s.flash.repairs
      { s with boot := { s.boot with trained := true, step := if s.boot.dirRead then 3 else s.boot.step } } 0 ok0) 1 ok1 := rfl

@[simp] theorem trainStack_true_phase (repairs : List (Nat × Nat)) (a : State) (n : Nat) :
    (trainStack repairs a n true).phase = a.phase := rfl

@[simp] theorem trainStack_true_boot (repairs : List (Nat × Nat)) (a : State) (n : Nat) :
    (trainStack repairs a n true).boot = a.boot := rfl

@[simp] theorem trainStack_true_dram (repairs : List (Nat × Nat)) (a : State) (n j : Nat) :
    ((trainStack repairs a n true).dram j).state = if j = n then 0 else (a.dram j).state := by
  simp only [trainStack, if_true, State.modDram_get]
  split <;> rfl

/-- 21 R603: the loss of a stack is chip-fatal. -/
theorem trainStack_false_phase (repairs : List (Nat × Nat)) {a : State} (n : Nat) (ha : a.phase ≠ .inReset) :
    (trainStack repairs a n false).phase = .safe :=
  chipFatal_phase srcStack n (State.answers_of_phase ha)

theorem trainStacks_phase_safe (repairs : List (Nat × Nat)) {a : State} {ok0 ok1 : Bool} (ha : a.phase ≠ .inReset)
    (hlost : (ok0 && ok1) = false) : (trainStack repairs (trainStack repairs a 0 ok0) 1 ok1).phase = .safe := by
  cases ok0 with
  | true =>
    obtain rfl : ok1 = false := by simpa using hlost
    exact trainStack_false_phase repairs 1 (by rwa [trainStack_true_phase])
  | false =>
    have hfirst := trainStack_false_phase repairs 0 ha
    cases ok1 with
    | true => rw [trainStack_true_phase, hfirst]
    | false => exact trainStack_false_phase repairs 1 (by rw [hfirst]; decide)

theorem dramTrained_phase_safe {s : State} {ok0 ok1 : Bool} (hreset : s.phase ≠ .inReset) (hlost : (ok0 && ok1) = false) :
    (dramTrained s ok0 ok1).phase = .safe := by
  rw [dramTrained_eq]
  exact trainStacks_phase_safe _ (by exact hreset) hlost

/-! ## Slots -/

@[simp] theorem readImage_boot (s : State) (slot : Nat) : (readImage s slot).boot = s.boot :=
  keeps_boot (readImage_erase s slot (Nat.and_self _)) rfl

@[simp] theorem readImage_phase (s : State) (slot : Nat) : (readImage s slot).phase = s.phase :=
  keeps_phase (readImage_erase s slot (Nat.and_self _)) rfl

@[simp] theorem setSlot_phase (s : State) (slot st : Nat) : (setSlot s slot st).phase = s.phase := rfl

/-- The status of a slot is all that changes of the boot ROM's place. -/
theorem setSlot_trying (s : State) (slot st : Nat) : (setSlot s slot st).boot.trying = s.boot.trying := by
  unfold setSlot
  split <;> rfl

/-- 02 R65: with no slot left the device is quiet. -/
theorem enterQuiet_quiet (s : State) : (enterQuiet s).phase = .quiet ∧ (enterQuiet s).boot.step = 0xF := by
  unfold enterQuiet
  exact ⟨keeps_phase (settleChannels_erase _ (Nat.and_self _)) rfl,
    by rw [keeps_boot (settleChannels_erase _ (Nat.and_self _)) rfl]⟩

/-- 02 R61: the first slot that fails gives way to the other. -/
theorem slotFailed_first {s : State} (st : Nat) (hfirst : s.boot.trying = s.boot.firstTried) :
    (slotFailed s st).boot.step = 3 ∧ (slotFailed s st).boot.trying = 1 - s.boot.trying ∧ (slotFailed s st).phase = s.phase := by
  simp [slotFailed, hfirst, setSlot_trying]

/-- 02 R65: the second slot that fails leaves none. -/
theorem slotFailed_second {s : State} (st : Nat) (hsecond : s.boot.trying ≠ s.boot.firstTried) :
    slotFailed s st = enterQuiet (setSlot s s.boot.trying st) := by
  simp [slotFailed, hsecond]

section
variable {s : State} (hboot : s.phase = .booting) (hstep : s.boot.step = 3)
include hboot hstep

theorem exec_slotReadComplete_of_ok (hok : slotStatus s s.boot.trying = stOK) :
    ∃ t, exec .slotReadComplete s = .next t ∧ t.boot.step = 5 ∧ t.boot.verified = true ∧ t.boot.trying = s.boot.trying
      ∧ t.phase = .booting := by
  change ∃ t, execSlotReadComplete s = _ ∧ _
  simp [execSlotReadComplete, done, hboot, hstep, hok, setSlot_trying]

theorem exec_slotReadComplete_of_failed (hfail : slotStatus s s.boot.trying ≠ stOK) :
    exec .slotReadComplete s = .next (slotFailed (readImage s s.boot.trying) (slotStatus s s.boot.trying)) := by
  change execSlotReadComplete s = _
  simp [execSlotReadComplete, done, hboot, hstep, hfail]

end

/-! ## The firmware -/

/-- 02 R60 step 6: the controllers run. -/
def runRegions (l : List Nat) (s : State) : State := l.foldl (fun a g => a.modRegion g fun r => { r with state := 0 }) s

@[simp] theorem runRegions_boot (l : List Nat) (s : State) : (runRegions l s).boot = s.boot :=
  keeps_boot (erase_foldl (fun t g => State.modRegion_erase t g _ (Nat.and_self _)) l s) rfl

@[simp] theorem runRegions_mem (l : List Nat) (s : State) : (runRegions l s).mem = s.mem :=
  keeps_mem (erase_foldl (fun t g => State.modRegion_erase t g _ (Nat.and_self _)) l s) rfl

theorem runRegions_region (l : List Nat) (s : State) (g : Nat) :
    (runRegions l s).region g = if g ∈ l then { s.region g with state := 0 } else s.region g := by
  induction l generalizing s with
  | nil => rfl
  | cons j l ih =>
    change (runRegions l (s.modRegion j _)).region g = _
    rw [ih, State.modRegion_get]
    by_cases hj : g = j <;> by_cases hl : g ∈ l <;> simp [hj, hl]

theorem exec_firmwareStarted {s : State} (hboot : s.phase = .booting) (hstep : s.boot.step = 5) :
    exec .firmwareStarted s = .next (runRegions (List.range 4) { loadTables s (readSlot s s.boot.trying) with
      boot := { s.boot with step := 6, firmwareVersion := (readSlot s s.boot.trying).firmware } }) := by
  have hkept : (loadTables s (readSlot s s.boot.trying)).boot = s.boot :=
    keeps_boot (loadTables_erase s _ (Nat.and_self _)) rfl
  change execFirmwareStarted s = _
  simp [execFirmwareStarted, done, hboot, hstep, hkept, runRegions]

/-- Settles O15: each step of the start is read off the rule of its command above. -/
theorem startStepsFollow : Obligations.StartStepsFollow := by
  refine ⟨fun s a b c d hreset => ?straps, fun s hboot hunread => ?directory, fun s hboot huntrained => ?trained,
    fun s ok0 ok1 hboot huntrained hlost => ?lost, fun s hboot hstep => ?slot, fun s hboot hstep => ?firmware⟩
  case straps => exact ⟨_, exec_bootStart a b c d hreset, rfl, rfl, rfl, rfl, rfl, rfl⟩
  case directory =>
    refine ⟨_, exec_directoryReadComplete hboot hunread, rfl, fun htrained => ?_, rfl, rfl⟩
    simp [readLayout, htrained]
  case trained =>
    exact ⟨_, exec_dramTrainingComplete true true hboot huntrained, by simp [dramTrained_eq, hboot],
      by simp [dramTrained_eq], by simp [dramTrained_eq], by simp [dramTrained_eq]⟩
  case lost =>
    exact ⟨_, exec_dramTrainingComplete ok0 ok1 hboot huntrained, dramTrained_phase_safe (by simp [hboot]) hlost⟩
  case slot =>
    by_cases hok : slotStatus s s.boot.trying = stOK
    · simpa only [hok, if_true] using exec_slotReadComplete_of_ok hboot hstep hok
    · refine ⟨_, exec_slotReadComplete_of_failed hboot hstep hok, ?_⟩
      rw [if_neg hok]
      by_cases hfirst : s.boot.trying = s.boot.firstTried
      · simpa [hfirst, hboot] using slotFailed_first (s := readImage s s.boot.trying) (slotStatus s s.boot.trying) (by simpa using hfirst)
      · rw [if_neg hfirst, slotFailed_second _ (by simpa using hfirst)]
        exact (enterQuiet_quiet _).symm
  case firmware =>
    refine ⟨_, exec_firmwareStarted hboot hstep, by simp, by simp, fun g hg => ?_, by simp⟩
    simp [runRegions_region, hg]

end Sys2Proof.Machine

/-! The pages of the settlement unit (02 R67, R81 to R85): what a command leaves on its page, what it leaves as it is, and
the commands that open, fill, check and discard a batch. -/

namespace Sys2Proof.Machine

/-! ## Pages -/

@[simp] theorem Stl.setPage_page (t : Stl) (src q : Src) (p : Page) :
    (t.setPage src p).page q = if q = src then p else t.page q := by
  cases src <;> cases q <;> rfl

@[simp] theorem Stl.setPage_batch (t : Stl) (src : Src) (p : Page) : (t.setPage src p).batch = t.batch := by cases src <;> rfl
@[simp] theorem Stl.setPage_update (t : Stl) (src : Src) (p : Page) : (t.setPage src p).update = t.update := by cases src <;> rfl
@[simp] theorem Stl.setPage_epoch (t : Stl) (src : Src) (p : Page) : (t.setPage src p).epoch = t.epoch := by cases src <;> rfl
@[simp] theorem Stl.setPage_program (t : Stl) (src : Src) (p : Page) : (t.setPage src p).program = t.program := by cases src <;> rfl
@[simp] theorem Stl.setPage_verify (t : Stl) (src : Src) (p : Page) : (t.setPage src p).verify = t.verify := by cases src <;> rfl
@[simp] theorem Stl.setPage_rollback (t : Stl) (src : Src) (p : Page) : (t.setPage src p).rollback = t.rollback := by
  cases src <;> rfl
@[simp] theorem Stl.setPage_slotVerified (t : Stl) (src : Src) (p : Page) : (t.setPage src p).slotVerified = t.slotVerified := by
  cases src <;> rfl
@[simp] theorem Stl.setPage_stateRejects (t : Stl) (src : Src) (p : Page) : (t.setPage src p).stateRejects = t.stateRejects := by
  cases src <;> rfl
@[simp] theorem Stl.setPage_rejectSrc (t : Stl) (src : Src) (p : Page) : (t.setPage src p).rejectSrc = t.rejectSrc := by
  cases src <;> rfl
@[simp] theorem Stl.setPage_rejectOp (t : Stl) (src : Src) (p : Page) : (t.setPage src p).rejectOp = t.rejectOp := by
  cases src <;> rfl

/-- 20 R577: the trace of a page's phase writes no part of the settlement unit. -/
@[simp] theorem State.setPage_stl (s : State) (src : Src) (p : Page) : (s.setPage src p).stl = s.stl.setPage src p := by
  unfold State.setPage
  dsimp only
  split
  · rfl
  · exact keeps_stl (State.trace_erase _ _ _ _ _ (Nat.and_self _)) rfl

@[simp] theorem State.setPage_page (s : State) (src q : Src) (p : Page) :
    (s.setPage src p).page q = if q = src then p else s.page q := by
  rw [State.page, State.setPage_stl, Stl.setPage_page, State.page]

section
variable (s : State) (src : Src) (p : Page)

@[simp] theorem State.setPage_phase : (s.setPage src p).phase = s.phase := keeps_phase (s.setPage_erase src p (Nat.and_self _)) rfl
@[simp] theorem State.setPage_boot : (s.setPage src p).boot = s.boot := keeps_boot (s.setPage_erase src p (Nat.and_self _)) rfl
@[simp] theorem State.setPage_fuses : (s.setPage src p).fuses = s.fuses := keeps_fuses (s.setPage_erase src p (Nat.and_self _)) rfl
@[simp] theorem State.setPage_flash : (s.setPage src p).flash = s.flash := keeps_flash (s.setPage_erase src p (Nat.and_self _)) rfl
@[simp] theorem State.setPage_layout : (s.setPage src p).layout = s.layout := keeps_layout (s.setPage_erase src p (Nat.and_self _)) rfl
@[simp] theorem State.setPage_cfg : (s.setPage src p).cfg = s.cfg := keeps_cfg (s.setPage_erase src p (Nat.and_self _)) rfl
@[simp] theorem State.setPage_cfgOld : (s.setPage src p).cfgOld = s.cfgOld := keeps_cfgOld (s.setPage_erase src p (Nat.and_self _)) rfl
@[simp] theorem State.setPage_time : (s.setPage src p).time = s.time := keeps_time (s.setPage_erase src p (Nat.and_self _)) rfl
@[simp] theorem State.setPage_journal : (s.setPage src p).journal = s.journal := keeps_journal (s.setPage_erase src p (Nat.and_self _)) rfl
@[simp] theorem State.setPage_regions : (s.setPage src p).regions = s.regions := keeps_regions (s.setPage_erase src p (Nat.and_self _)) rfl
@[simp] theorem State.setPage_flt : (s.setPage src p).flt = s.flt := keeps_flt (s.setPage_erase src p (Nat.and_self _)) rfl
@[simp] theorem State.setPage_adapt : (s.setPage src p).adapt = s.adapt := keeps_adapt (s.setPage_erase src p (Nat.and_self _)) rfl
@[simp] theorem State.setPage_lnk : (s.setPage src p).lnk = s.lnk := keeps_lnk (s.setPage_erase src p (Nat.and_self _)) rfl
@[simp] theorem State.setPage_mem : (s.setPage src p).mem = s.mem := keeps_mem (s.setPage_erase src p (Nat.and_self _)) rfl

end

@[simp] theorem State.countReject_page (s : State) (n op : Nat) (q : Src) : (s.countReject n op).page q = s.page q := by
  cases q <;> rfl

/-! ## Outcomes and rejections -/

/-- 02 R84: the outcome of a command is all that changes on its page. -/
theorem State.pageDone_page (s : State) (src q : Src) (status reason entry : Nat) :
    (s.pageDone src status reason entry).page q
      = if q = src then { s.page src with status := status, reason := reason, entry := entry } else s.page q :=
  State.setPage_page s src q _

theorem State.pageDone_stl (s : State) (src : Src) (status reason entry : Nat) :
    (s.pageDone src status reason entry).stl
      = s.stl.setPage src { s.page src with status := status, reason := reason, entry := entry } :=
  State.setPage_stl s src _

theorem State.stlReject_page (s : State) (src q : Src) (op : Nat) :
    (s.stlReject src op).page q = if q = src then { s.page src with status := stSTATE } else s.page q := by
  rw [State.stlReject, State.setPage_page, State.countReject_page]

theorem State.stlReject_stl (s : State) (src : Src) (op : Nat) :
    (s.stlReject src op).stl = { s.stl with
      stateRejects := s.stl.stateRejects + 1, rejectSrc := srcCode src, rejectOp := op }.setPage src
        { s.page src with status := stSTATE } := by
  rw [State.stlReject, State.setPage_stl, State.countReject_stl]

section
variable {s : State} {page via : Src} {op : Nat} (hreset : s.phase ≠ .inReset)
include hreset

/-- A command that its page takes has its effect. -/
theorem stlCommand_of_taken (f : State → State) (hopen : stlBarred s page via op = false) :
    stlCommand s page via op f = f s := by
  rw [stlCommand, if_neg hreset, hopen, if_neg Bool.false_ne_true]

/-- 02 R81, R82: a command that its page does not take is rejected. -/
theorem stlCommand_of_barred (f : State → State) (hbar : stlBarred s page via op = true) :
    stlCommand s page via op f = s.stlReject page op := by
  rw [stlCommand, if_neg hreset, hbar, if_pos rfl]

end

/-- The command that each opcode of a page spells (02 R81). -/
def IsPageCommand (page via : Src) (c : Instr) (op : Nat) : Prop :=
  c = .stlOpen page via ∧ op = 0x01 ∨ (∃ n, c = .stlStage page via n ∧ op = 0x02) ∨ c = .stlCheck page via ∧ op = 0x03
    ∨ c = .commitAtTime page via ∧ op = 0x04 ∨ c = .commitAtEvent page via ∧ op = 0x05 ∨ c = .stlAbort page via ∧ op = 0x06
    ∨ c = .stlDiscard page via ∧ op = 0x07 ∨ (∃ n, c = .flashProgram page via n ∧ op = 0x10)
    ∨ (∃ n, c = .verifySlot page via n ∧ op = 0x11) ∨ c = .charterUpdate page via ∧ op = 0x12 ∨ ∃ n, c = .reboot page via n ∧ op = 0x13

/-- Every page command goes through its page. -/
theorem exec_pageCommand {page via : Src} {c : Instr} {op : Nat} (h : IsPageCommand page via c op) (s : State) :
    ∃ f, exec c s = .next (stlCommand s page via op f) := by
  rcases h with ⟨rfl, rfl⟩ | ⟨n, rfl, rfl⟩ | ⟨rfl, rfl⟩ | ⟨rfl, rfl⟩ | ⟨rfl, rfl⟩ | ⟨rfl, rfl⟩ | ⟨rfl, rfl⟩ | ⟨n, rfl, rfl⟩
    | ⟨n, rfl, rfl⟩ | ⟨rfl, rfl⟩ | ⟨n, rfl, rfl⟩ <;> exact ⟨_, rfl⟩

/-! ## OPEN, STAGE, CHECK, DISCARD -/

section
variable {s : State} {page via : Src} (hreset : s.phase ≠ .inReset)
include hreset

theorem exec_stlOpen (hopen : stlBarred s page via 0x01 = false) (hclosed : (s.page page).opened = false) :
    exec (.stlOpen page via) s = .next (s.setPage page { s.page page with
      status := stOK, reason := 0, entry := 0, phase := if s.holdsPage page then (s.page page).phase else 1
      opened := true, staged := [] }) := by
  change Host.Outcome.next (stlCommand s page via 0x01 (openBatch page)) = _
  rw [stlCommand_of_taken hreset _ hopen, openBatch, hclosed, if_neg Bool.false_ne_true]

theorem exec_stlStage {n : Nat} (hopen : stlBarred s page via 0x02 = false) (hopened : (s.page page).opened = true)
    (hroom : (s.page page).staged.length + n ≤ 4096) :
    exec (.stlStage page via n) s = .next (s.setPage page { s.page page with
      status := stOK, reason := 0, entry := 0, staged := (s.page page).staged ++ bufferEntries s page n }) := by
  change Host.Outcome.next (stlCommand s page via 0x02 (stageBatch page n)) = _
  rw [stlCommand_of_taken hreset _ hopen, stageBatch, if_neg (by simp [hopened, hroom])]

/-- 02 R70: the outcome of CHECK is that of the checks. -/
theorem exec_stlCheck (hopen : stlBarred s page via 0x03 = false) (hopened : (s.page page).opened = true) :
    exec (.stlCheck page via) s = .next
      (match runChecks s (s.staged page) none (overlayAfter s (s.staged page)) with
      | some f => s.checkFailed page f
      | none => s.pageDone page stOK) := by
  change Host.Outcome.next (stlCommand s page via 0x03 (checkBatch page)) = _
  rw [stlCommand_of_taken hreset _ hopen, checkBatch, hopened]
  rfl

theorem exec_stlDiscard (hopen : stlBarred s page via 0x07 = false) (hopened : (s.page page).opened = true) :
    exec (.stlDiscard page via) s = .next (s.setPage page { s.page page with
      status := stOK, reason := 0, entry := 0, phase := if s.holdsPage page then (s.page page).phase else 0
      opened := false, staged := [] }) := by
  change Host.Outcome.next (stlCommand s page via 0x07 (discardBatch page)) = _
  rw [stlCommand_of_taken hreset _ hopen, discardBatch, hopened]
  rfl

end

/-- Settles O17: each command's outcome is on its page by the rules of a page above, and a barred command is the rejection that
every page command shares. -/
theorem pageCommandsTakeEffect : Obligations.PageCommandsTakeEffect := by
  refine ⟨fun s page via hreset hopen hclosed => ?open_, fun s page via n hreset hopen hopened hroom => ?stage,
    fun s page via hreset hopen hopened => ?check, fun s page via hreset hopen hopened => ?discard,
    fun s page via c op hreset hc hbar => ?barred⟩
  case open_ => exact ⟨_, exec_stlOpen hreset hopen hclosed, by simp, fun q hq => by simp [hq]⟩
  case stage => exact ⟨_, exec_stlStage hreset hopen hopened hroom, by simp, fun q hq => by simp [hq]⟩
  case check =>
    refine ⟨_, exec_stlCheck hreset hopen hopened, ?_⟩
    cases runChecks s (s.staged page) none (overlayAfter s (s.staged page)) with
    | none => exact (s.pageDone_page page page stOK 0 0).trans (if_pos rfl)
    | some f => exact (s.pageDone_page page page f.status f.check f.entry).trans (if_pos rfl)
  case discard => exact ⟨_, exec_stlDiscard hreset hopen hopened, by simp⟩
  case barred =>
    obtain ⟨f, hexec⟩ := exec_pageCommand hc s
    rw [stlCommand_of_barred hreset f hbar] at hexec
    exact ⟨_, hexec, by simp [State.stlReject_page], by simp [State.stlReject_stl], by simp [State.stlReject_stl],
      by simp [State.stlReject_stl], by simp [State.stlReject_stl]⟩

end Sys2Proof.Machine

/-! Flash (02 R49 to R53, R80, R86 to R88): what its bytes read after an erase and after a write, the rewrite of a directory copy,
the commands that program and verify it, and the completion of the device's own writes. -/

namespace Sys2Proof.Machine

/-! ## Flash bytes -/

/-- An erased byte reads 0xFF, and no other byte changes. -/
theorem flashErase_get (m : List Host.Cell) (a n j : Nat) :
    Table.get 0xFF#8 j (flashErase m a n) = if j < a ∨ a + n ≤ j then Table.get 0xFF#8 j m else 0xFF#8 := by
  induction m with
  | nil => split <;> rfl
  | cons c m ih =>
    obtain ⟨k, v⟩ := c
    have hcons : flashErase ((k, v) :: m) a n
        = if k < a ∨ a + n ≤ k then (k, v) :: flashErase m a n else flashErase m a n := by
      simp [flashErase, List.filter_cons]
    rw [hcons, Table.get_cons]
    by_cases hjk : j = k
    · subst hjk
      by_cases hout : j < a ∨ a + n ≤ j
      · simp [hout, Table.get_cons]
      · rw [if_neg hout, if_neg hout, ih, if_neg hout]
    · rw [if_neg hjk, ← ih]
      split
      · rw [Table.get_cons, if_neg hjk]
      · rfl

theorem flashWrite_get_outside (m : List Host.Cell) (a j : Nat) (bs : List Byte) (h : j < a ∨ a + bs.length ≤ j) :
    Table.get 0xFF#8 j (flashWrite m a bs) = Table.get 0xFF#8 j m := by
  induction bs generalizing m a with
  | nil => rfl
  | cons b bs ih =>
    rw [List.length_cons] at h
    rw [flashWrite, ih _ _ (by omega), Table.get_set_ne _ _ _ _ _ (by omega)]

theorem flashWrite_get_inside (m : List Host.Cell) (a i : Nat) (bs : List Byte) (h : i < bs.length) :
    Table.get 0xFF#8 (a + i) (flashWrite m a bs) = bs[i] := by
  induction bs generalizing m a i with
  | nil => exact absurd h (Nat.not_lt_zero i)
  | cons b bs ih =>
    rw [flashWrite]
    cases i with
    | zero => exact (flashWrite_get_outside _ _ _ _ (by omega)).trans (Table.get_set_self _ _ _ _)
    | succ i =>
      rw [show a + (i + 1) = a + 1 + i by omega, ih _ _ i (by simpa using h)]
      rfl

section
variable {s t : State} {m : List Host.Cell} {a : Nat} {bs : List Byte} (ht : t.flash.bytes = flashWrite m a bs)
include ht

theorem State.flashByte_of_write_outside {j : Nat} (h : j < a ∨ a + bs.length ≤ j) : t.flashByte j = Table.get 0xFF#8 j m := by
  rw [State.flashByte, ht, flashWrite_get_outside m a j bs h]

theorem State.flashByte_of_write_inside {i : Nat} (h : i < bs.length) : t.flashByte (a + i) = bs[i] := by
  rw [State.flashByte, ht, flashWrite_get_inside m a i bs h]

/-- What is programmed is what is read. -/
theorem State.flashBytes_of_write : t.flashBytes a bs.length = bs := by
  refine List.ext_getElem (by simp [State.flashBytes]) fun i _ h => ?_
  simpa [State.flashBytes] using State.flashByte_of_write_inside ht h

end

/-! ## The directory -/

@[simp] theorem length_leBytes (n v : Nat) : (leBytes n v).length = n := by
  induction n generalizing v with
  | zero => rfl
  | succ n ih => simp [leBytes, ih]

/-- 02 R50: a directory copy is 64 bytes. -/
@[simp] theorem length_directoryBytes (size : Nat) (d : Directory) : (directoryBytes size d).length = 64 := by
  simp [directoryBytes]

/-- 02 R49: the size of the flash is that of its devices. -/
theorem Flash.size_congr {f g : Flash} (h0 : f.device0 = g.device0) (h1 : f.device1 = g.device1) : f.size = g.size := by
  simp only [Flash.size, h0, h1]

/-- A copy reads by its own bytes and the size of the flash. -/
theorem readDirectory_congr {s t : State} {copy : Nat} (hsize : t.flash.size = s.flash.size)
    (hbytes : ∀ j, directoryAt copy ≤ j → j < directoryAt copy + 64 → t.flashByte j = s.flashByte j) :
    readDirectory t copy = readDirectory s copy := by
  have hread : t.flashBytes (directoryAt copy) 64 = s.flashBytes (directoryAt copy) 64 :=
    List.map_congr_left fun i hi => hbytes _ (Nat.le_add_right _ _) (by have := List.mem_range.mp hi; omega)
  simp only [readDirectory, hread, hsize]

/-- 02 R50, R52: the directory that prefers a slot and follows number `n`. -/
def directoryAfter (s : State) (slot n : Nat) : Directory :=
  { sequence := (n + 1) % 2 ^ 32, startA := s.boot.startA, sizeA := s.boot.sizeA, startB := s.boot.startB, sizeB := s.boot.sizeB
    sumStart := s.boot.sumStart, sumSize := s.boot.sumSize, preferred := slot }

/-- The bytes of a flash whose copy `c` is rewritten. -/
def rewrittenBytes (s : State) (c : Nat) (d : Directory) : List Host.Cell :=
  flashWrite (flashErase s.flash.bytes (directoryAt c) blockSize) (directoryAt c) (directoryBytes s.flash.size d)

theorem rewriteDirectory_flash (s : State) (slot : Nat) :
    (rewriteDirectory s slot).flash = { s.flash with
      bytes := rewrittenBytes s (rewriteCopy s) (directoryAfter s slot (((directoryInUse s).map (·.sequence)).getD 0)) } := rfl

@[simp] theorem directoryWritten_flash (s : State) (slot : Nat) :
    (directoryWritten s slot).flash = (rewriteDirectory s slot).flash := by
  unfold directoryWritten
  dsimp only
  split
  · split <;> rfl
  · rfl

/-- Copy `c` is the one to rewrite, and the other one is valid with sequence number `n`. -/
def RewritesCopy (s : State) (c n : Nat) : Prop :=
  (c = 0 ∧ ∃ b, readDirectory s 1 = some b ∧ n = b.sequence ∧ ∀ a, readDirectory s 0 = some a → a.sequence < b.sequence)
    ∨ (c = 1 ∧ ∃ a, readDirectory s 0 = some a ∧ n = a.sequence ∧ ∀ b, readDirectory s 1 = some b → b.sequence < a.sequence)

/-- 02 R51, R52: the valid copy of the higher number is in use, and the other one is rewritten. -/
theorem rewriteCopy_of_rewrites {s : State} {c n : Nat} (h : RewritesCopy s c n) :
    rewriteCopy s = c ∧ (directoryInUse s).map (·.sequence) = some n := by
  rcases h with ⟨rfl, b, hb, rfl, hlow⟩ | ⟨rfl, a, ha, rfl, hlow⟩
  · cases ha : readDirectory s 0 with
    | none => simp [rewriteCopy, directoryInUse, ha, hb]
    | some a => simp [rewriteCopy, directoryInUse, ha, hb, hlow a ha, Nat.le_of_lt (hlow a ha)]
  · cases hb : readDirectory s 1 with
    | none => simp [rewriteCopy, directoryInUse, ha, hb]
    | some b => simp [rewriteCopy, directoryInUse, ha, hb, Nat.not_le.mpr (hlow b hb), Nat.lt_asymm (hlow b hb)]

/-- The rewritten copy holds the new directory and is erased up to the end of its block; no other byte changes. -/
theorem directoryWritten_flash_of_rewrites {s : State} {c n : Nat} (slot : Nat) (h : RewritesCopy s c n) :
    (directoryWritten s slot).flash = { s.flash with bytes := rewrittenBytes s c (directoryAfter s slot n) } := by
  obtain ⟨hrewrite, hseq⟩ := rewriteCopy_of_rewrites h
  rw [directoryWritten_flash, rewriteDirectory_flash, hrewrite, hseq, Option.getD_some]

section
variable {s t : State} {c : Nat} {d : Directory} (ht : t.flash.bytes = rewrittenBytes s c d)
include ht

theorem flashBytes_of_rewritten : t.flashBytes (directoryAt c) 64 = directoryBytes s.flash.size d := by
  have hread := State.flashBytes_of_write ht
  rwa [length_directoryBytes] at hread

theorem flashByte_of_rewritten_erased {j : Nat} (hlow : directoryAt c + 64 ≤ j) (hhigh : j < directoryAt c + blockSize) :
    t.flashByte j = 0xFF := by
  rw [State.flashByte_of_write_outside ht (by rw [length_directoryBytes]; omega), flashErase_get, if_neg (by omega)]
  rfl

theorem flashByte_of_rewritten_outside {j : Nat} (hout : j < directoryAt c ∨ directoryAt c + blockSize ≤ j) :
    t.flashByte j = s.flashByte j := by
  have hblock : directoryAt c + 64 ≤ directoryAt c + blockSize := Nat.add_le_add_left (by decide) _
  rw [State.flashByte_of_write_outside ht (by rw [length_directoryBytes]; omega), flashErase_get, if_pos hout]
  rfl

end

/-! ## The completion of an internal write -/

/-- The state with the writes that are left in progress. -/
def State.withWrites (s : State) (r : List FlashWrite) : State := { s with flash := { s.flash with writes := r } }

@[simp] theorem readDirectory_withWrites (s : State) (r : List FlashWrite) (copy : Nat) :
    readDirectory (s.withWrites r) copy = readDirectory s copy :=
  readDirectory_congr (Flash.size_congr rfl rfl) fun _ _ _ => rfl

/-- 02 R52: the oldest write in progress takes its effect. -/
theorem exec_flashWriteComplete {s : State} {w : FlashWrite} {r : List FlashWrite} (hans : s.answers = true)
    (hwrites : s.flash.writes = w :: r) : exec .flashWriteComplete s = .next (applyWrite (s.withWrites r) w) := by
  change execFlashWriteComplete s = _
  simp [execFlashWriteComplete, done, hwrites, hans, State.withWrites]

/-- Settles O60: the rewritten copy holds the bytes of the new directory at its start and is erased up to the end of its block;
the other copy, in the other block, reads as before. -/
theorem directoryRewritesTouchOneCopy : Obligations.DirectoryRewritesTouchOneCopy := by
  intro s slot c n r hans hwrites hcopy
  have hcopy' : RewritesCopy (s.withWrites r) c n := by simpa only [RewritesCopy, readDirectory_withWrites] using hcopy
  have hflash := directoryWritten_flash_of_rewrites slot hcopy'
  refine ⟨_, exec_flashWriteComplete hans hwrites, ?_⟩
  rw [applyWrite]
  generalize directoryWritten (s.withWrites r) slot = t at hflash ⊢
  have hbytes : t.flash.bytes = rewrittenBytes (s.withWrites r) c (directoryAfter (s.withWrites r) slot n) := by rw [hflash]
  have hsize : t.flash.size = s.flash.size := Flash.size_congr (by rw [hflash]; rfl) (by rw [hflash]; rfl)
  have hother : ∀ j, directoryAt (1 - c) ≤ j → j < directoryAt (1 - c) + 64 → t.flashByte j = s.flashByte j := by
    intro j hlow hhigh
    have hc : c ≤ 1 := by rcases hcopy with ⟨rfl, -⟩ | ⟨rfl, -⟩ <;> decide
    refine flashByte_of_rewritten_outside hbytes ?_
    simp only [directoryAt, blockSize] at hlow hhigh ⊢
    omega
  refine ⟨by rw [hflash]; rfl, ?_, ?_, ?_, ?_⟩
  · rw [flashBytes_of_rewritten hbytes, Flash.size_congr (f := (s.withWrites r).flash) (g := s.flash) rfl rfl]
    rfl
  · exact fun j => flashByte_of_rewritten_erased hbytes
  · exact fun j => flashByte_of_rewritten_outside hbytes
  · exact readDirectory_congr hsize hother

/-! ## FLASH_PROGRAM -/

/-- 02 R53: an erase of the summary area keeps the bytes of the flash. -/
theorem eraseSummary_bytes (s : State) (a n : Nat) : (eraseSummary s a n).flash.bytes = s.flash.bytes := by
  simp only [eraseSummary]
  split <;> split <;> split <;> split <;> split <;> split <;> rfl

/-- 02 R86: the blocks that the range meets are erased. -/
theorem startProgram_bytes (page : Src) (n : Nat) (s : State) :
    (startProgram page n s).flash.bytes = flashErase s.flash.bytes
      (blockRange (s.page page).flashDst.toNat (n * 4096)).1 (blockRange (s.page page).flashDst.toNat (n * 4096)).2 := by
  simp only [startProgram]
  split
  · rfl
  · rw [eraseSummary_bytes]

theorem startProgram_program (page : Src) (n : Nat) (s : State) :
    (startProgram page n s).stl.program
      = some (page, (s.page page).flashSrc.toNat, (s.page page).flashDst.toNat, n * 4096) := rfl

section
variable {s : State} {page via : Src} {n : Nat}

theorem exec_flashProgram {r : Nat × Nat} (hreset : s.phase ≠ .inReset) (hopen : stlBarred s page via 0x10 = false)
    (hrange : programInRange s n (s.page page) = true) (hr : r = blockRange (s.page page).flashDst.toNat (n * 4096))
    (hfree : s.phase = .quiet ∨ programProtected s r.1 r.2 = false) (hidle : s.stl.program = none) :
    exec (.flashProgram page via n) s = .next (startProgram page n s) := by
  have hallowed : ((s.phase ≠ .quiet && programProtected s r.1 r.2) || s.stl.program.isSome) = false := by
    rcases hfree with h | h <;> simp [h, hidle]
  subst hr
  change Host.Outcome.next (stlCommand s page via 0x10 (programCommand page n)) = _
  rw [stlCommand_of_taken hreset _ hopen, programCommand, hrange, hallowed]
  rfl

/-- 02 R86: the bytes programmed, or where the read-back differs what the flash then holds. -/
def programmedBytes (differs : Bool) (s : State) (a n : Nat) : List Byte :=
  if differs then (List.range n).map fun i => Config.freeByte (s.free + i) else s.bytes a n

theorem length_programmedBytes (differs : Bool) (s : State) (a n : Nat) : (programmedBytes differs s a n).length = n := by
  unfold programmedBytes
  split <;> simp [State.bytes]

theorem exec_flashProgramComplete {a d : Nat} (differs : Bool) (hprogram : s.stl.program = some (page, a, d, n)) :
    ∃ t, exec (.flashProgramComplete differs) s = .next t ∧ t.stl.program = none
      ∧ (t.page page).status = (if differs then stBOUND else stOK)
      ∧ t.flash.bytes = flashWrite s.flash.bytes d (programmedBytes differs s a n) := by
  change ∃ t, execFlashProgramComplete differs s = _ ∧ _
  simp only [execFlashProgramComplete, done, hprogram]
  refine ⟨_, rfl, ?_, ?_, ?_⟩
  · rw [State.pageDone_stl, Stl.setPage_program]
  · rw [State.pageDone_page, if_pos rfl]
  · rw [State.pageDone, State.setPage_flash]
    rfl

/-! ## VERIFY_SLOT and REBOOT -/

theorem exec_verifySlot {slot : Nat} (hreset : s.phase ≠ .inReset) (hopen : stlBarred s page via 0x11 = false) (hslot : slot ≤ 1)
    (hupdate : s.stl.update = none) :
    exec (.verifySlot page via slot) s = .next { s with stl := { s.stl with verify := some (page, slot) } } := by
  change Host.Outcome.next (stlCommand s page via 0x11 (verifyCommand page slot)) = _
  rw [stlCommand_of_taken hreset _ hopen, verifyCommand, if_neg (Nat.not_lt.mpr hslot), hupdate]
  rfl

/-- 02 R88: the verification is shown on the page, and that of the other slot is noted. -/
theorem exec_verifySlotComplete {slot : Nat} (hverify : s.stl.verify = some (page, slot)) :
    exec .verifySlotComplete s = .next (({ s with stl := { s.stl with
      verify := none
      slotVerified := if slot = s.boot.running then s.stl.slotVerified else decide ((verifyResult s slot).1 = stOK) } }).pageDone
        page (verifyResult s slot).1 (verifyResult s slot).2) := by
  change execVerifySlotComplete s = _
  simp [execVerifySlotComplete, done, hverify]

/-- 02 R87: the reset is due 1 ms later. -/
theorem exec_reboot {slot : Nat} (hreset : s.phase ≠ .inReset) (hopen : stlBarred s page via 0x13 = false) (hslot : slot ≤ 2)
    (hupdate : s.stl.update = none) :
    exec (.reboot page via slot) s = .next { s.pageDone page stOK with boot := { (s.pageDone page stOK).boot with
      rebootAt := some ((s.pageDone page stOK).time.elapsed + 1000000), nextSlot := if slot = 2 then none else some slot } } := by
  change Host.Outcome.next (stlCommand s page via 0x13 (rebootCommand page slot)) = _
  rw [stlCommand_of_taken hreset _ hopen, rebootCommand, if_neg (Nat.not_lt.mpr hslot), hupdate]
  rfl

end

/-! ## What the device writes for itself -/

/-- 02 R80, R88 step 6: a cleared overlay ends no update whose directory is not yet rewritten. -/
theorem overlayCleared_of_not_rewritten {s : State} (h : ∀ u, s.stl.update = some u → u.rewritten = false) :
    overlayCleared s = { s with flash := { s.flash with overlay := [] } } := by
  simp only [overlayCleared]
  split
  · next u hu => rw [h u hu, if_neg Bool.false_ne_true]
  · rfl

/-- 13 R400: the record of a checkpoint is of no stream, so it comes last of the waiting ones. -/
theorem applyWrite_checkpoint (s : State) (x : Checkpoint) :
    (applyWrite s (.checkpoint x)).flash = { s.flash with checkpoints := (x :: s.flash.checkpoints).take 2 }
      ∧ ∃ e, (applyWrite s (.checkpoint x)).journal.waiting = s.journal.waiting ++ [e] ∧ e.type = 0x0502 := by
  refine ⟨rfl, ?_⟩
  rw [applyWrite, State.adpRecord, State.emit_journal_plain _ _ (Or.inl rfl)]
  exact ⟨_, rfl, rfl⟩

/-- 22 R630: the live Passbook stands while it says what the device is. -/
theorem exec_passbookUpdate {s : State} (hans : s.answers = true) : exec .passbookUpdate s = .next (updatePassbook s) := by
  change execPassbookUpdate s = _
  simp [execPassbookUpdate, done, hans]

section
variable {s : State} {r : List FlashWrite} (hans : s.answers = true)
include hans

/-- Each internal write but a directory's, with its own part of the flash. -/
theorem exec_flashWriteComplete_kinds :
    (s.flash.writes = [] → exec .flashWriteComplete s = .next s)
    ∧ (∀ x, s.flash.writes = .overlay x :: r → exec .flashWriteComplete s = .next { s with flash := { s.flash with writes := r, overlay := x } })
    ∧ (s.flash.writes = .overlayClear :: r → (∀ u, s.stl.update = some u → u.rewritten = false) →
      exec .flashWriteComplete s = .next { s with flash := { s.flash with writes := r, overlay := [] } })
    ∧ (∀ x, s.flash.writes = .checkpoint x :: r → ∃ t e, exec .flashWriteComplete s = .next t
      ∧ t.flash = { s.flash with writes := r, checkpoints := (x :: s.flash.checkpoints).take 2 }
      ∧ t.journal.waiting = s.journal.waiting ++ [e] ∧ e.type = 0x0502) := by
  refine ⟨fun hnone => ?_, fun x hw => exec_flashWriteComplete hans hw, fun hw hupdate => ?_, fun x hw => ?_⟩
  · change execFlashWriteComplete s = _
    simp [execFlashWriteComplete, done, hnone]
  · rw [exec_flashWriteComplete hans hw, applyWrite, overlayCleared_of_not_rewritten (s := s.withWrites r) hupdate]
    rfl
  · obtain ⟨hflash, e, hwaiting, htype⟩ := applyWrite_checkpoint (s.withWrites r) x
    exact ⟨_, e, exec_flashWriteComplete hans hw, hflash, hwaiting, htype⟩

end

/-- Settles O19: each command and each kind of internal write is read off its rule above. -/
theorem flashCommandsAndWrites : Obligations.FlashCommandsAndWrites := by
  refine ⟨⟨fun s page via n r hreset hopen hrange hr hfree hidle => ?program, fun s page a d n hprogram => ?programmed,
    fun s page a d n hprogram => ?differs, fun s page via slot => exec_verifySlot, fun s page slot hverify => ?verified,
    fun s page via slot hreset hopen hslot hupdate => ?reboot⟩, fun s hans => ⟨fun hsame => ?same, fun hchanged => ?changed⟩,
    fun s r hans => ?writes⟩
  case program =>
    have hbytes := startProgram_bytes page n s
    rw [← hr] at hbytes
    refine ⟨_, exec_flashProgram hreset hopen hrange hr hfree hidle, startProgram_program page n s, fun a hlow hhigh => ?_,
      fun a hout => ?_⟩
    · rw [State.flashByte, hbytes, flashErase_get, if_neg (by omega)]
      rfl
    · rw [State.flashByte, hbytes, flashErase_get, if_pos hout]
      rfl
  case programmed =>
    obtain ⟨t, hexec, hdone, hstatus, hbytes⟩ := exec_flashProgramComplete false hprogram
    refine ⟨t, hexec, hdone, hstatus, fun i hi => ?_, fun j hj => ?_⟩
    · rw [State.flashByte_of_write_inside hbytes (by rwa [length_programmedBytes])]
      simp [programmedBytes, State.bytes]
    · exact State.flashByte_of_write_outside hbytes (by rwa [length_programmedBytes])
  case differs =>
    obtain ⟨t, hexec, hdone, hstatus, hbytes⟩ := exec_flashProgramComplete true hprogram
    exact ⟨t, hexec, hdone, hstatus, fun j hj => State.flashByte_of_write_outside hbytes (by rwa [length_programmedBytes])⟩
  case verified =>
    exact ⟨_, exec_verifySlotComplete hverify, by simp [State.pageDone_stl], by simp [State.pageDone_page],
      by simp [State.pageDone_page], fun hother => by simp [State.pageDone_stl, hother]⟩
  case reboot =>
    refine ⟨_, exec_reboot hreset hopen hslot hupdate, ?_, rfl, ?_⟩
    · rw [State.pageDone, State.setPage_time]
    · exact congrArg Page.status ((s.pageDone_page page page stOK 0 0).trans (if_pos rfl))
  case same => rw [exec_passbookUpdate hans, updatePassbook, if_pos hsame]
  case changed =>
    rw [exec_passbookUpdate hans, updatePassbook, if_neg hchanged]
    exact ⟨_, rfl, rfl, rfl, rfl, rfl, rfl, rfl, rfl, rfl⟩
  case writes =>
    obtain ⟨hnone, hoverlay, hclear, hcheckpoint⟩ := exec_flashWriteComplete_kinds (r := r) hans
    exact ⟨hnone, hoverlay, hclear, hcheckpoint, fun x hw => exec_flashWriteComplete hans hw,
      fun hw => exec_flashWriteComplete hans hw, fun m n hw => exec_flashWriteComplete hans hw,
      fun k o hw => exec_flashWriteComplete hans hw, fun x hw => exec_flashWriteComplete hans hw⟩

end Sys2Proof.Machine

/-! The pending batch before its instant (02 R69, R73 to R75): commit, acknowledgement, the repeated checks and the aborts. -/

namespace Sys2Proof.Machine

/-! ## What the passing of time leaves as it is -/

section
variable (s : State) (n : Nat)

@[simp] theorem State.atStation_stl : (s.atStation n).stl = s.stl := keeps_stl (s.atStation_erase n (Nat.and_self _)) rfl
@[simp] theorem State.atStation_cfg : (s.atStation n).cfg = s.cfg := keeps_cfg (s.atStation_erase n (Nat.and_self _)) rfl
@[simp] theorem State.atStation_journal : (s.atStation n).journal = s.journal :=
  keeps_journal (s.atStation_erase n (Nat.and_self _)) rfl
@[simp] theorem State.atElapsed_stl : (s.atElapsed n).stl = s.stl := keeps_stl (s.atElapsed_erase n (Nat.and_self _)) rfl
@[simp] theorem State.atElapsed_cfg : (s.atElapsed n).cfg = s.cfg := keeps_cfg (s.atElapsed_erase n (Nat.and_self _)) rfl
@[simp] theorem State.atElapsed_journal : (s.atElapsed n).journal = s.journal :=
  keeps_journal (s.atElapsed_erase n (Nat.and_self _)) rfl

end

/-! ## The pending batch replaced -/

/-- The state with another pending batch, or none. -/
def State.withBatch (s : State) (b : Option Batch) : State := { s with stl := { s.stl with batch := b } }

@[simp] theorem State.withBatch_batch (s : State) (b : Option Batch) : (s.withBatch b).stl.batch = b := rfl
@[simp] theorem State.withBatch_epoch (s : State) (b : Option Batch) : (s.withBatch b).stl.epoch = s.stl.epoch := rfl
@[simp] theorem State.withBatch_update (s : State) (b : Option Batch) : (s.withBatch b).stl.update = s.stl.update := rfl
@[simp] theorem State.withBatch_cfg (s : State) (b : Option Batch) : (s.withBatch b).cfg = s.cfg := rfl
@[simp] theorem State.withBatch_time (s : State) (b : Option Batch) : (s.withBatch b).time = s.time := rfl
@[simp] theorem State.withBatch_page (s : State) (b : Option Batch) (q : Src) : (s.withBatch b).page q = s.page q := by
  cases q <;> rfl

/-! ## Aborts -/

@[simp] theorem State.settledCause_stl (s : State) (src : Src) : (s.settledCause src).stl = s.stl :=
  keeps_stl (s.settledCause_erase src (Nat.and_self _)) rfl

/-- 02 R69, R74: the batch goes, its page shows the abort, and neither the configuration nor the journal changes. -/
theorem dropBatch_effect (s : State) (b : Batch) (status reason entry : Nat) :
    (dropBatch s b status reason entry).stl.batch = none
      ∧ (dropBatch s b status reason entry).page b.src
        = { s.page b.src with status := status, reason := reason, entry := entry, phase := 5 }
      ∧ (dropBatch s b status reason entry).cfg = s.cfg
      ∧ (dropBatch s b status reason entry).journal = s.journal := by
  refine ⟨rfl, ?_, keeps_cfg (dropBatch_erase s b status reason entry (Nat.and_self _)) rfl,
    keeps_journal (dropBatch_erase s b status reason entry (Nat.and_self _)) rfl⟩
  have hpage : (dropBatch s b status reason entry).page b.src = ((s.setPage b.src { s.page b.src with
      status := status, reason := reason, entry := entry, phase := 5 }).settledCause b.src).page b.src := by
    unfold State.page dropBatch
    cases b.src <;> rfl
  rw [hpage, State.page, State.settledCause_stl, State.setPage_stl, Stl.setPage_page, if_pos rfl]

/-- The record of an abort is of no stream, so it comes last of the waiting ones. -/
theorem abortBatch_effect {s : State} {b : Batch} (status reason check : Nat) (entry : Option Nat) (hbatch : s.stl.batch = some b) :
    (abortBatch s status reason check entry).stl.batch = none ∧ (abortBatch s status reason check entry).cfg = s.cfg
      ∧ ((abortBatch s status reason check entry).page b.src).phase = 5
      ∧ ((abortBatch s status reason check entry).page b.src).status = status
      ∧ ((abortBatch s status reason check entry).page b.src).reason = reason
      ∧ ∃ r, (abortBatch s status reason check entry).journal.waiting = s.journal.waiting ++ [r] ∧ r.type = 0x0102 := by
  obtain ⟨hnone, hpage, hcfg, hjournal⟩ := dropBatch_effect s b status reason (entry.getD 0)
  simp only [abortBatch, hbatch, State.emit_cfg, State.page, State.emit_stl] at hpage ⊢
  refine ⟨hnone, hcfg, by rw [hpage], by rw [hpage], by rw [hpage], ?_⟩
  rw [State.emit_journal_plain _ _ (Or.inl rfl), hjournal]
  exact ⟨_, rfl, rfl⟩

/-! ## Arming -/

theorem armWhenReady_of_waiting {s : State} {b : Batch} (hbatch : s.stl.batch = some b) (hwait : b.waiting ≠ []) :
    armWhenReady s = s := by
  have hfull : b.waiting.isEmpty = false := by simpa using hwait
  simp only [armWhenReady, hbatch, hfull]
  split <;> rfl

theorem armWhenReady_of_time {s : State} {b : Batch} {n : Nat} (hbatch : s.stl.batch = some b) (hat : b.at_ = .time n) :
    armWhenReady s = s := by
  simp only [armWhenReady, hbatch, hat]

/-- 02 R75: ingest is armed once every unit has acknowledged and the checks still pass. -/
theorem armWhenReady_of_ready {s : State} {b : Batch} {n tick : Nat} (hbatch : s.stl.batch = some b) (hat : b.at_ = .event n tick)
    (hphase : b.phase = .prepare) (hall : b.waiting = []) (hcheck : recheck s b.new (b.entries.map parseEntry) = none) :
    armWhenReady s = s.withBatch (some { b with phase := .armed s.time.elapsed }) := by
  simp only [armWhenReady, hbatch, hat, hphase, hall, List.isEmpty_nil, if_true, hcheck, State.withBatch]

/-! ## Commit -/

/-- The batch that a page commits (02 R69). -/
def committedBatch (s : State) (page : Src) (at_ : CommitAt) : Batch :=
  let es := s.staged page
  { src := page, entries := (s.page page).staged, at_ := at_, waiting := affectedUnits s.cfg (applyEntries s s.cfg es) es
    new := applyEntries s s.cfg es, overlay := overlayAfter s es, safety := isSafety es, modelSwitch := isSwitch es }

section
variable {s : State} {page : Src} {at_ : CommitAt} (op : Nat) (hopened : (s.page page).opened = true)
  (hbatch : s.stl.batch = none) (hupdate : s.stl.update = none)
include hopened hbatch hupdate

/-- 02 R73: a batch that passes every check is prepared. -/
theorem commitBatch_of_pass
    (hpass : runChecks s (s.staged page) (some at_) (overlayAfter s (s.staged page)) = none) :
    commitBatch page op at_ s = armWhenReady ((s.setPage page { s.page page with
      status := stOK, reason := 0, entry := 0, phase := 3, opened := false, staged := [] }).withBatch
        (some (committedBatch s page at_))) := by
  have hfree : (!(s.page page).opened || s.stl.batch.isSome || s.stl.update.isSome) = false := by simp [hopened, hbatch, hupdate]
  rw [State.staged] at hpass
  simp only [commitBatch, hfree, hpass]
  rfl

/-- 02 R70: a batch that fails a check stays open, and the page shows the check. -/
theorem commitBatch_of_fail {f : Failure}
    (hfail : runChecks s (s.staged page) (some at_) (overlayAfter s (s.staged page)) = some f) :
    commitBatch page op at_ s = s.checkFailed page f := by
  have hfree : (!(s.page page).opened || s.stl.batch.isSome || s.stl.update.isSome) = false := by simp [hopened, hbatch, hupdate]
  rw [State.staged] at hfail
  simp only [commitBatch, hfree, hfail]
  rfl

end

section
variable {s : State} {page via : Src} (hreset : s.phase ≠ .inReset)
include hreset

theorem exec_commitAtTime (hopen : stlBarred s page via 0x04 = false) :
    exec (.commitAtTime page via) s = .next (commitBatch page 0x04 (instantTime (s.page page)) s) :=
  congrArg Host.Outcome.next (stlCommand_of_taken hreset _ hopen)

theorem exec_commitAtEvent (hopen : stlBarred s page via 0x05 = false) :
    exec (.commitAtEvent page via) s = .next (commitBatch page 0x05 (instantEvent (s.page page)) s) :=
  congrArg Host.Outcome.next (stlCommand_of_taken hreset _ hopen)

/-- 02 R81: a batch that its source may abort goes without effect. -/
theorem exec_stlAbort {b : Batch} (hopen : stlBarred s page via 0x06 = false) (hbatch : s.stl.batch = some b)
    (hable : abortable s page b = true) : exec (.stlAbort page via) s = .next (dropBatch s b stOK 0 0) := by
  change Host.Outcome.next (stlCommand s page via 0x06 (abortCommand page)) = _
  simp only [stlCommand_of_taken hreset _ hopen, abortCommand, hbatch, hable, if_true]

end

theorem src_of_abortable {s : State} {page : Src} {b : Batch} (h : abortable s page b = true) : b.src = page := by
  simp only [abortable, Bool.and_eq_true, beq_iff_eq] at h
  exact h.1.1.1.1

/-! ## Acknowledgement, the repeated checks and the event's timeout -/

section
variable {s : State} {b : Batch} (hrun : s.running = true) (hbatch : s.stl.batch = some b)
include hrun hbatch

/-- 02 R73: a unit that has loaded its new set acknowledges. -/
theorem exec_settlementPrepareAck {u : StlUnit} (hphase : b.phase = .prepare) (hwait : b.waiting.contains u = true)
    (hsound : batchImageVoid s b = false) :
    exec (.settlementPrepareAck u) s
      = .next (armWhenReady (s.withBatch (some { b with waiting := b.waiting.filter (· != u) }))) := by
  change execSettlementPrepareAck u s = _
  simp only [execSettlementPrepareAck, done, hrun, if_true, prepareAck, hbatch, hphase, hwait, hsound, Bool.not_true,
    Bool.false_eq_true, if_false, State.withBatch]

section
variable {n : Nat} (hphase : b.phase = .prepare) (hat : b.at_ = .time n)
include hphase hat

/-- 02 R73 step 3: every unit has acknowledged and the checks still pass. -/
theorem exec_preInstantRecheck_of_ready (hsound : b.voidSeen = false) (hall : b.waiting = [])
    (hcheck : recheck (s.atStation (n - 100000)) b.new (b.entries.map parseEntry) = none) :
    exec .preInstantRecheck s = .next ((s.atStation (n - 100000)).withBatch (some { b with phase := .ready })) := by
  change execPreInstantRecheck s = _
  simp only [execPreInstantRecheck, done, hrun, if_true, preInstant, hbatch, hat, hphase, hsound, Bool.false_eq_true, if_false,
    hall, List.isEmpty_nil, Bool.not_true, hcheck, State.withBatch]

/-- 02 R74: an image with a void granule, or a unit that has not acknowledged, aborts the batch. -/
theorem exec_preInstantRecheck_of_unready (hunready : b.voidSeen = true ∨ b.waiting ≠ []) :
    ∃ status, exec .preInstantRecheck s = .next (abortBatch (s.atStation (n - 100000)) status 16 0) := by
  change ∃ status, execPreInstantRecheck s = _
  simp only [execPreInstantRecheck, done, hrun, if_true, preInstant, hbatch, hat, hphase]
  cases hvoid : b.voidSeen with
  | true => exact ⟨stVOID, rfl⟩
  | false =>
    have hwait : (!b.waiting.isEmpty) = true := by simpa [hvoid] using hunready
    rw [hwait]
    exact ⟨stSTATE, rfl⟩

end

/-- 02 R75 step 5: no random-access point came within the event timeout. -/
theorem exec_eventTimeout {since : Nat} (hphase : b.phase = .armed since) :
    exec .eventTimeout s
      = .next (abortBatch (s.atElapsed (since + s.cfg.policies.eventTimeout * second)) stBUDGET 17 0) := by
  change execEventTimeout s = _
  simp only [execEventTimeout, done, hrun, if_true, eventTimeout, hbatch, hphase]

end

/-- Settles O18: what a commit, an acknowledgement, a repeated check and an abort leave is read off their rules above; all but
the page, the batch and the abort's record stand. -/
theorem batchesArePreparedOrAborted : Obligations.BatchesArePreparedOrAborted := by
  refine ⟨⟨fun s page via at_ c es hreset hc hopened hbatch hupdate hes hpass hunits => ?commit,
      fun s page via f hreset hopen hopened hbatch hupdate hfail => ?failed,
      fun s page via b hreset hopen hbatch hable => ?abort⟩,
    fun s b u n hrun hbatch hphase hat hwait hsound => ?ack,
    fun s b u n tick hrun hbatch hphase hat hwait hsound hcheck => ?armed,
    fun s b n hrun hbatch hphase hat hsound hall hcheck => ?ready,
    fun s b n hrun hbatch hphase hat hunready => ?unready, fun s b since hrun hbatch hphase => ?timeout⟩
  case commit =>
    subst hes
    have hwaits (t : State) : armWhenReady (t.withBatch (some (committedBatch s page at_)))
        = t.withBatch (some (committedBatch s page at_)) := armWhenReady_of_waiting rfl hunits
    have hexec : ∃ op, exec c s = .next (commitBatch page op at_ s) := by
      rcases hc with ⟨rfl, rfl, hopen⟩ | ⟨rfl, rfl, hopen⟩
      · exact ⟨_, exec_commitAtTime hreset hopen⟩
      · exact ⟨_, exec_commitAtEvent hreset hopen⟩
    obtain ⟨op, hexec⟩ := hexec
    rw [commitBatch_of_pass op hopened hbatch hupdate hpass, hwaits] at hexec
    exact ⟨_, _, hexec, rfl, rfl, rfl, rfl, rfl, rfl, by simp, by simp, by simp, by simp, by simp⟩
  case failed =>
    refine ⟨_, exec_commitAtTime hreset hopen, ?_⟩
    rw [commitBatch_of_fail _ hopened hbatch hupdate hfail, State.checkFailed, State.pageDone_stl, Stl.setPage_batch,
      State.pageDone_page, if_pos rfl]
    exact ⟨hbatch, rfl, rfl, rfl, hopened⟩
  case abort =>
    obtain ⟨hnone, hpage, hcfg, -⟩ := dropBatch_effect s b stOK 0 0
    rw [src_of_abortable hable] at hpage
    exact ⟨_, exec_stlAbort hreset hopen hbatch hable, hnone, by rw [hpage], by rw [hpage], hcfg⟩
  case ack =>
    exact (exec_settlementPrepareAck hrun hbatch hphase hwait hsound).trans
      (congrArg Host.Outcome.next (armWhenReady_of_time (State.withBatch_batch s _) hat))
  case armed =>
    have hlast : b.waiting.filter (· != u) = [] := by simp [hwait]
    have harm := armWhenReady_of_ready (State.withBatch_batch s (some { b with waiting := [] })) hat hphase rfl hcheck
    rw [exec_settlementPrepareAck hrun hbatch hphase (by simp [hwait]) hsound, hlast]
    exact ⟨_, congrArg Host.Outcome.next harm, rfl, rfl⟩
  case ready =>
    exact ⟨_, exec_preInstantRecheck_of_ready hrun hbatch hphase hat hsound hall hcheck, rfl, by simp⟩
  case unready =>
    obtain ⟨status, hexec⟩ := exec_preInstantRecheck_of_unready hrun hbatch hphase hat hunready
    obtain ⟨hnone, hcfg, hphase', -, hreason, hrecord⟩ :=
      abortBatch_effect (s := s.atStation (n - 100000)) status 16 0 none (by simpa using hbatch)
    exact ⟨_, hexec, hnone, by simpa using hcfg, hphase', hreason, by simpa using hrecord⟩
  case timeout =>
    obtain ⟨hnone, hcfg, hphase', hstatus, -, hrecord⟩ :=
      abortBatch_effect (s := s.atElapsed (since + s.cfg.policies.eventTimeout * second)) stBUDGET 17 0 none (by simpa using hbatch)
    exact ⟨_, exec_eventTimeout hrun hbatch hphase, hnone, by simpa using hcfg, hphase', hstatus, by simpa using hrecord⟩

end Sys2Proof.Machine

/-! The instant of a batch and its drain (02 R71, R73 steps 4 and 5, R76): what the new epoch leaves as it is, what the end of a drain
does to the batch and its page, and when a drain ends. -/

namespace Sys2Proof.Machine

/-- A part that one update leaves as it was stands over a list of them. -/
theorem foldl_keeps {α β : Type} (p : State → β) {f : State → α → State} (h : ∀ s a, p (f s a) = p s) (l : List α) (s : State) :
    p (l.foldl f s) = p s := by
  induction l generalizing s with
  | nil => rfl
  | cons a l ih => exact (ih (f s a)).trans (h s a)

/-! ## The number of the epoch in force -/

@[simp] theorem enterStart_stl (s : State) (z : Nat) : (enterStart s z).stl = s.stl :=
  keeps_stl (enterStart_erase s z (Nat.and_self _)) rfl

@[simp] theorem zoneOff_stl (s : State) (z : Nat) : (zoneOff s z).stl = s.stl := keeps_stl (zoneOff_erase s z (Nat.and_self _)) rfl

@[simp] theorem unlatch_stl (s : State) (n : Nat) : (unlatch s n).stl = s.stl := rfl

theorem safetyApply_epoch (s : State) (z : Nat) : (safetyApply s z).stl.epoch = s.stl.epoch := by
  simp only [safetyApply]
  split <;> simp only [enterStart_stl, zoneOff_stl] <;> split <;> split <;> simp only [unlatch_stl]

theorem applyZones_epoch (s : State) (zs : List Nat) (n : Nat) : (applyZones s zs n).stl.epoch = s.stl.epoch := by
  rw [applyZones, foldl_keeps (fun t => t.stl.epoch) safetyApply_epoch]

theorem checkFailed_epoch (s : State) (page : Src) (f : Failure) : (s.checkFailed page f).stl.epoch = s.stl.epoch := by
  rw [State.checkFailed, State.pageDone_stl, Stl.setPage_epoch]

theorem internalBatch_epoch (s : State) (es : List Entry) (new : Cfg) (n : Nat) (adoption failover : Bool)
    (overlay : Option (List OverlayItem)) : (internalBatch s es new n adoption failover overlay).stl.epoch = s.stl.epoch := by
  simp only [internalBatch]
  split
  · exact checkFailed_epoch s .internal _
  · rw [State.setPage_stl, Stl.setPage_epoch]

theorem stageMove_epoch (s : State) (g : Nat) : (stageMove s g).stl.epoch = s.stl.epoch := by
  simp only [stageMove]
  split
  · rfl
  · split
    · split
      · rfl
      · rw [internalBatch_epoch]
    · rw [State.emit_stl]
      split
      · rfl
      · rw [internalBatch_epoch]

theorem stageWaiting_epoch (s : State) : (stageWaiting s).stl.epoch = s.stl.epoch := by
  rw [stageWaiting]
  split
  · rfl
  · split
    · rfl
    · exact stageMove_epoch s _

@[simp] theorem State.lnkRecord_stl (s : State) (type cls status : Nat) (p : LnkPl) (stream : Nat) :
    (s.lnkRecord type cls status p stream).stl = s.stl :=
  keeps_stl (s.lnkRecord_erase type cls status p stream (Nat.and_self _)) rfl

theorem startFailover_epoch (s : State) (d : Nat) : (startFailover s d).stl.epoch = s.stl.epoch := by
  simp only [startFailover]
  split
  · rfl
  · split
    · rfl
    · split
      · rfl
      · rw [State.lnkRecord_stl, State.modPeer_stl]
        split
        · rfl
        · rw [internalBatch_epoch]

theorem failoverWaiting_epoch (s : State) : (failoverWaiting s).stl.epoch = s.stl.epoch := by
  rw [failoverWaiting]
  split
  · split
    · rfl
    · exact startFailover_epoch s _
  · rfl

/-! ## The end of a drain -/

/-- The state of a batch whose last unit has released (02 R73 step 5), before what waited for it begins. -/
def drained (s : State) (b : Batch) : State :=
  let s1 := (s.setPage b.src { s.page b.src with phase := if b.charter then 6 else (s.page b.src).rest }).settledCause b.src
  let writes := match b.overlay with
    | some o => if b.charter then [] else [FlashWrite.overlay o]
    | none => []
  { retireStreams s1 with
    cfgOld := none, stl := { s1.stl with batch := none }, flash := { s1.flash with writes := s1.flash.writes ++ writes } }

theorem drained_stl (s : State) (b : Batch) :
    (drained s b).stl = { s.stl.setPage b.src { s.page b.src with phase := if b.charter then 6 else (s.page b.src).rest } with
      batch := none } := by
  simp only [drained, State.settledCause_stl, State.setPage_stl]

@[simp] theorem drained_cfg (s : State) (b : Batch) : (drained s b).cfg = s.cfg := by
  have hretire (t : State) : (retireStreams t).cfg = t.cfg := keeps_cfg (retireStreams_erase t (Nat.and_self _)) rfl
  exact (hretire _).trans ((keeps_cfg (State.settledCause_erase _ _ (Nat.and_self _)) rfl).trans (State.setPage_cfg _ _ _))

@[simp] theorem drained_lnk (s : State) (b : Batch) : (drained s b).lnk = s.lnk := by
  have hretire (t : State) : (retireStreams t).lnk = t.lnk := keeps_lnk (retireStreams_erase t (Nat.and_self _)) rfl
  exact (hretire _).trans ((keeps_lnk (State.settledCause_erase _ _ (Nat.and_self _)) rfl).trans (State.setPage_lnk _ _ _))

/-- 02 R88 step 6: the drain of a charter's batch is the last step of the update but the flash's. -/
def afterDrain (b : Batch) (s : State) : State :=
  match s.stl.update with
  | some u => if b.charter then finishUpdate s u else s
  | none => s

theorem finishDrain_eq (s : State) (b : Batch) :
    finishDrain s b = failoverWaiting (stageWaiting (afterDrain b (drained s b))) := rfl

theorem afterDrain_of_plain {b : Batch} (s : State) (hcharter : b.charter = false) : afterDrain b s = s := by
  rw [afterDrain, hcharter]
  split <;> rfl

theorem afterDrain_epoch (b : Batch) (s : State) : (afterDrain b s).stl.epoch = s.stl.epoch := by
  rw [afterDrain]
  split
  · split <;> rfl
  · rfl

theorem finishDrain_epoch (s : State) (b : Batch) : (finishDrain s b).stl.epoch = s.stl.epoch := by
  rw [finishDrain_eq, failoverWaiting_epoch, stageWaiting_epoch, afterDrain_epoch, drained_stl]
  exact Stl.setPage_epoch _ _ _

@[simp] theorem Stl.setPage_moves (t : Stl) (src : Src) (p : Page) : (t.setPage src p).moves = t.moves := by cases src <;> rfl

/-- With no batch of the device's own waiting, the drain leaves no pending batch and no old set. -/
theorem finishDrain_effect {s : State} {b : Batch} (hcharter : b.charter = false) (hmoves : s.stl.moves = [])
    (hfailover : s.lnk.failover = none) :
    (finishDrain s b).stl.batch = none ∧ (finishDrain s b).cfgOld = none ∧ (finishDrain s b).cfg = s.cfg
      ∧ ((finishDrain s b).page b.src).phase = (s.page b.src).rest := by
  have hnoMove : (drained s b).stl.moves = [] := by rw [drained_stl]; exact (Stl.setPage_moves _ _ _).trans hmoves
  have hend : finishDrain s b = drained s b := by
    rw [finishDrain_eq, afterDrain_of_plain _ hcharter, stageWaiting, hnoMove]
    simp only [failoverWaiting, drained_lnk, hfailover]
  rw [hend]
  refine ⟨by rw [drained_stl], rfl, drained_cfg s b, ?_⟩
  rw [State.page, drained_stl]
  have hpage (t : Stl) (o : Option Batch) : Stl.page { t with batch := o } b.src = t.page b.src := by cases b.src <;> rfl
  rw [hpage, Stl.setPage_page, if_pos rfl, hcharter]
  rfl

theorem drainIfEmpty_epoch (s : State) : (drainIfEmpty s).stl.epoch = s.stl.epoch := by
  simp only [drainIfEmpty]
  split
  · rfl
  · split
    · split
      · rfl
      · split
        · exact finishDrain_epoch s _
        · rfl
    · rfl

/-! ## The instant -/

/-- The new set in force beside the old one, and nothing of it taken up yet (02 R71, R73 step 4). -/
def State.putInForce (s : State) (old : Cfg) (b : Batch) (at_ bound : Nat) : State :=
  { s with
    cfgOld := some old, cfg := b.new, layout := s.layout.withReserves b.new
    stl := { s.stl with
      epoch := s.stl.epoch + 1
      batch := some { b with fixed := some at_, phase := .draining bound, waiting := b.units old } } }

section
variable (s : State) (old : Cfg) (b : Batch) (at_ bound : Nat)

theorem State.putInForce_cfg : (s.putInForce old b at_ bound).cfg = b.new := rfl

theorem State.putInForce_epoch : (s.putInForce old b at_ bound).stl.epoch = s.stl.epoch + 1 := rfl

theorem State.putInForce_mem : (s.putInForce old b at_ bound).mem = s.mem := by rw [State.putInForce]

/-- Streams and the model take up the new set. -/
def epochTaken : State :=
  let s3 := (streamsChanged old b.new b).foldl (applyStream old) s
  applyModel (if b.failover then (b.named 4).foldl adoptReplica s3 else s3) old b at_

/-- Stores and sources take up the new set. -/
def epochSettled : State := setDDec (rerankSources (resizeStores s old) old)

/-- The zones whose model changed take up the new set. -/
def epochZones : State := if b.safety || b.charter then applyZones s (zonesChanged s old b.new b) at_ else s

theorem applyEpoch_eq :
    applyEpoch s b at_ =
      epochZones (epochSettled (resizeJournal (epochTaken
        ((s.setPage b.src { s.page b.src with phase := if b.charter then 6 else 4 }).putInForce s.cfg b at_
          (drainBound s.cfg b.new b at_)) s.cfg b at_) s.cfg) s.cfg) s.cfg b at_ := by
  simp only [applyEpoch, epochZones, epochSettled, epochTaken, State.putInForce]

theorem epochTaken_erase : (epochTaken s old b at_).erase 0xaac601824 = s.erase 0xaac601824 := by
  refine (applyModel_erase _ _ _ _ (by decide)).trans ?_
  have hstreams := erase_foldl (m := 0xaac601824) (f := applyStream old)
    (fun t n => applyStream_erase old t n (by decide)) (streamsChanged old b.new b) s
  split
  · exact (erase_foldl (fun t n => adoptReplica_erase t n (by decide)) _ _).trans hstreams
  · exact hstreams

theorem epochSettled_erase : (epochSettled s old).erase 0x10008a4001c04 = s.erase 0x10008a4001c04 :=
  (setDDec_erase _ (by decide)).trans ((rerankSources_erase _ _ (by decide)).trans (resizeStores_erase _ _ (by decide)))

theorem epochZones_cfg : (epochZones s old b at_).cfg = s.cfg := by
  rw [epochZones]
  split
  · exact keeps_cfg (applyZones_erase _ _ _ (Nat.and_self _)) rfl
  · rfl

theorem epochZones_mem : (epochZones s old b at_).mem = s.mem := by
  rw [epochZones]
  split
  · exact keeps_mem (applyZones_erase _ _ _ (Nat.and_self _)) rfl
  · rfl

theorem epochZones_epoch : (epochZones s old b at_).stl.epoch = s.stl.epoch := by
  rw [epochZones]
  split
  · exact applyZones_epoch _ _ _
  · rfl

/-- 16 R497: the journal is laid out anew only where its reserve changes its size. -/
theorem resizeJournal_of_same (h : old.journalBytes = s.cfg.journalBytes) : resizeJournal s old = s := by
  rw [resizeJournal, if_pos h]

theorem applyEpoch_cfg : (applyEpoch s b at_).cfg = b.new := by
  rw [applyEpoch_eq, epochZones_cfg, keeps_cfg (epochSettled_erase _ _) rfl, keeps_cfg (resizeJournal_erase _ _ (Nat.and_self _)) rfl,
    keeps_cfg (epochTaken_erase _ _ _ _) rfl, State.putInForce_cfg]

/-- 02 R71: the epoch advances by one. -/
theorem applyEpoch_epoch : (applyEpoch s b at_).stl.epoch = s.stl.epoch + 1 := by
  rw [applyEpoch_eq, epochZones_epoch, keeps_stl (epochSettled_erase _ _) rfl,
    keeps_stl (resizeJournal_erase _ _ (Nat.and_self _)) rfl, keeps_stl (epochTaken_erase _ _ _ _) rfl, State.putInForce_epoch,
    State.setPage_stl, Stl.setPage_epoch]

theorem applyEpoch_mem (h : b.new.journalBytes = s.cfg.journalBytes) : (applyEpoch s b at_).mem = s.mem := by
  rw [applyEpoch_eq, epochZones_mem, keeps_mem (epochSettled_erase _ _) rfl, resizeJournal_of_same,
    keeps_mem (epochTaken_erase _ _ _ _) rfl, State.putInForce_mem, State.setPage_mem]
  rw [keeps_cfg (epochTaken_erase _ _ _ _) rfl, State.putInForce_cfg, h]

end

/-- 02 R71: what the instant of a batch changes for good. -/
theorem reachInstant_effect (s : State) (b : Batch) (at_ : Nat) :
    (reachInstant s b at_).cfg = b.new ∧ (reachInstant s b at_).stl.epoch = s.stl.epoch + 1
      ∧ (b.new.journalBytes = s.cfg.journalBytes → (reachInstant s b at_).mem = s.mem) := by
  have herase := drainIfEmpty_erase (applyEpoch s b at_) (Nat.and_self _)
  exact ⟨(keeps_cfg herase rfl).trans (applyEpoch_cfg s b at_), (drainIfEmpty_epoch _).trans (applyEpoch_epoch s b at_),
    fun h => (keeps_mem herase rfl).trans (applyEpoch_mem s b at_ h)⟩

/-! ## The drain -/

/-- Which items a unit holds does not depend on the pending batch. -/
@[simp] theorem holdsOld_withBatch (s : State) (b : Option Batch) (u : StlUnit) : holdsOld (s.withBatch b) u = holdsOld s u := by
  cases u <;> rfl

theorem drainIfEmpty_of_waiting {s : State} {b : Batch} {bound : Nat} (hbatch : s.stl.batch = some b)
    (hphase : b.phase = .draining bound) (hwait : b.waiting ≠ []) : drainIfEmpty s = s := by
  have hfull : (!b.waiting.isEmpty) = true := by simpa using hwait
  simp only [drainIfEmpty, hbatch, hphase, hfull, if_true]

/-- 02 R72, R73: with every set released and no old item left the drain ends. -/
theorem drainIfEmpty_of_released {s : State} {b : Batch} {bound : Nat} (hbatch : s.stl.batch = some b)
    (hphase : b.phase = .draining bound) (hwait : b.waiting = []) (hold : ∀ u, holdsOld s u = false) :
    drainIfEmpty s = finishDrain s b := by
  have hlate : (allUnits.filter (holdsOld s)).isEmpty = true := by simp [hold]
  simp only [drainIfEmpty, hbatch, hphase, hwait, List.isEmpty_nil, Bool.not_true, Bool.false_eq_true, if_false, hlate, if_true]

/-- The items of the old epoch abandoned (02 R76), each unit looking for its next one. -/
def abandonItems (s : State) (lost : List Nat) : State :=
  dispatch (dropOldResults (dropOldTiles (dropOldWork (lost.foldl dropOldStream s))))

/-- The evaluations of an earlier epoch that are not decided, abandoned. -/
def abandonEvals (s : State) : State :=
  { s with saf := { s.saf with evals := s.saf.evals.filter fun x => x.decided || x.epoch == s.stl.epoch.toNat } }

/-- Everything of the old epoch abandoned, as the bound of the drain does (02 R76), before the units release. -/
def abandonOld (s : State) : State := (oldStreams s).foldl restartStream (abandonEvals (abandonItems s (oldStreams s)))

theorem abandonItems_erase (s : State) (lost : List Nat) : (abandonItems s lost).erase 0x1042a26a4f800 = s.erase 0x1042a26a4f800 := by
  refine (dispatch_erase _ (by decide)).trans ((dropOldResults_erase _ (by decide)).trans ?_)
  refine (dropOldTiles_erase _ (by decide)).trans ((dropOldWork_erase _ (by decide)).trans ?_)
  exact erase_foldl (fun t n => dropOldStream_erase t n (by decide)) _ _

theorem abandonOld_erase (s : State) : (abandonOld s).erase 0x1042a26a4f800 = s.erase 0x1042a26a4f800 :=
  (erase_foldl (fun t n => restartStream_erase t n (by decide)) _ _).trans
    ((put_saf _ (by decide)).trans (abandonItems_erase s _))

theorem abandonEvals_lnk (s : State) : (abandonEvals s).lnk = s.lnk := rfl

theorem dropOldResults_failover (s : State) : (dropOldResults s).lnk.failover = s.lnk.failover := by
  simp only [dropOldResults]
  refine foldl_keeps (fun u => u.lnk.failover) (fun u r => ?_) _ _
  split
  · rfl
  · split
    · rw [keeps_lnk (beginNext_erase _ _ (Nat.and_self _)) rfl]
      rfl
    · rfl

theorem abandonItems_failover (s : State) (lost : List Nat) : (abandonItems s lost).lnk.failover = s.lnk.failover := by
  rw [abandonItems, keeps_lnk (dispatch_erase _ (Nat.and_self _)) rfl, dropOldResults_failover,
    keeps_lnk (dropOldTiles_erase _ (Nat.and_self _)) rfl, keeps_lnk (dropOldWork_erase _ (Nat.and_self _)) rfl,
    keeps_lnk (erase_foldl (fun t n => dropOldStream_erase t n (Nat.and_self _)) _ _) rfl]

/-- Of the link, only records not yet sent are abandoned. -/
theorem abandonOld_failover (s : State) : (abandonOld s).lnk.failover = s.lnk.failover := by
  rw [abandonOld, keeps_lnk (erase_foldl (fun t n => restartStream_erase t n (Nat.and_self _)) _ _) rfl, abandonEvals_lnk,
    abandonItems_failover]

section
variable {s : State} {b : Batch} (hrun : s.running = true) (hbatch : s.stl.batch = some b)
include hrun hbatch

theorem exec_epochInstant {n : Nat} (hphase : b.phase = .ready) (hat : b.at_ = .time n) :
    exec .epochInstant s = .next (reachInstant (s.atStation n) b n) := by
  change execEpochInstant s = _
  simp only [execEpochInstant, done, hrun, if_true, epochInstant, hbatch, hat, hphase]

variable {bound : Nat} (hphase : b.phase = .draining bound)
include hphase

theorem exec_unitDrainRelease_of_holding {u : StlUnit} (hold : holdsOld s u = true) : exec (.unitDrainRelease u) s = .next s := by
  change execUnitDrainRelease u s = _
  simp only [execUnitDrainRelease, done, hrun, if_true, drainRelease, hbatch, hphase, hold, Bool.or_true]

theorem exec_unitDrainRelease_of_free {u : StlUnit} (hwait : b.waiting.contains u = true) (hfree : holdsOld s u = false) :
    exec (.unitDrainRelease u) s
      = .next (drainIfEmpty (s.withBatch (some { b with waiting := b.waiting.filter (· != u) }))) := by
  change execUnitDrainRelease u s = _
  simp only [execUnitDrainRelease, done, hrun, if_true, drainRelease, hbatch, hphase, hwait, hfree, Bool.not_true, Bool.or_false,
    Bool.false_eq_true, if_false, State.withBatch]

theorem exec_drainBoundExpiry :
    exec .drainBoundExpiry s
      = .next (finishDrain ((abandonOld (s.atStation bound)).withBatch (some { b with waiting := [] })) b) := by
  change execDrainBoundExpiry s = _
  simp only [execDrainBoundExpiry, done, hrun, if_true, drainExpiry, hbatch, hphase, abandonOld, abandonEvals, abandonItems,
    State.withBatch]

end

@[simp] theorem State.atStation_mem (s : State) (n : Nat) : (s.atStation n).mem = s.mem :=
  keeps_mem (s.atStation_erase n (Nat.and_self _)) rfl

@[simp] theorem State.atStation_lnk (s : State) (n : Nat) : (s.atStation n).lnk = s.lnk :=
  keeps_lnk (s.atStation_erase n (Nat.and_self _)) rfl

/-- Settles O21: the instant by `reachInstant_effect`; a release ends the drain, by `finishDrain_effect`, once no unit waits, and the
bound ends it after what is left is abandoned. -/
theorem batchesComeIntoForceAndDrain : Obligations.BatchesComeIntoForceAndDrain := by
  refine ⟨fun s b n hrun hbatch hphase hat => ?instant, fun s b u v bound w hrun hbatch hphase hwait hne hfree => ?release,
    fun s b u bound hrun hbatch hphase hwait hfree hcharter hmoves hfailover => ?last,
    fun s b u bound hrun hbatch hphase hold => exec_unitDrainRelease_of_holding hrun hbatch hphase hold,
    fun s b bound hrun hbatch hphase hcharter hmoves hfailover => ?bound⟩
  case instant =>
    obtain ⟨hcfg, hepoch, hmem⟩ := reachInstant_effect (s.atStation n) b n
    refine ⟨_, exec_epochInstant hrun hbatch hphase hat, hcfg, by simpa using hepoch, fun hsize a => ?_⟩
    rw [State.byte, State.byte, hmem (by simpa using hsize), State.atStation_mem]
  case release =>
    have hleft : b.waiting.filter (· != u) ≠ [] := by simp [hwait, Ne.symm hne]
    rw [exec_unitDrainRelease_of_free hrun hbatch hphase (by simp [hwait]) hfree]
    exact congrArg Host.Outcome.next (drainIfEmpty_of_waiting (State.withBatch_batch s _) hphase hleft)
  case last =>
    have hleft : b.waiting.filter (· != u) = [] := by simp [hwait]
    have hend := drainIfEmpty_of_released (State.withBatch_batch s (some { b with waiting := [] })) hphase rfl
      (fun x => (holdsOld_withBatch s _ x).trans (hfree x))
    obtain ⟨hnone, hold, hcfg, hpage⟩ := finishDrain_effect (s := s.withBatch (some { b with waiting := [] }))
      (b := { b with waiting := [] }) hcharter hmoves hfailover
    rw [exec_unitDrainRelease_of_free hrun hbatch hphase (by simp [hwait]) (hfree u), hleft]
    exact ⟨_, congrArg Host.Outcome.next hend, hnone, hold, hcfg, by simpa using hpage⟩
  case bound =>
    have herase := abandonOld_erase (s.atStation bound)
    have hstl : (abandonOld (s.atStation bound)).stl = s.stl := (keeps_stl herase rfl).trans (s.atStation_stl bound)
    have hcfgKept : (abandonOld (s.atStation bound)).cfg = s.cfg := (keeps_cfg herase rfl).trans (s.atStation_cfg bound)
    have hlnk : (abandonOld (s.atStation bound)).lnk.failover = none := by rw [abandonOld_failover, State.atStation_lnk, hfailover]
    obtain ⟨hnone, hold, hcfg, hpage⟩ := finishDrain_effect
      (s := (abandonOld (s.atStation bound)).withBatch (some { b with waiting := [] })) (b := b) hcharter
      ((congrArg Stl.moves hstl).trans hmoves) hlnk
    refine ⟨_, exec_drainBoundExpiry hrun hbatch hphase, hnone, hold, hcfg.trans hcfgKept, ?_⟩
    have hkept : (abandonOld (s.atStation bound)).page b.src = s.page b.src := by rw [State.page, hstl, State.page]
    rwa [State.withBatch_page, hkept] at hpage

end Sys2Proof.Machine

/-! Charter updates (02 R88 to R90): what the staging of a slot's tables does to the pending batch and to memory, when the next
controller restarts, and how an update ends. -/

namespace Sys2Proof.Machine

/-! ## The models of a slot -/

theorem loadSection_byte {s : State} {x : Slot} {type addr a : Nat}
    (h : ∀ y, x.find type = some y → a < addr ∨ addr + (s.sectionBytes x y).length ≤ a) :
    (loadSection s x type addr).byte a = s.byte a := by
  rw [loadSection]
  split
  next y hy => exact s.store_byte_outside addr a _ false (h y hy)
  · rfl

/-- An image of the new set that differs from the one in force lies in its fresh area (02 R88 step 5). -/
theorem updateCfg_model (s : State) (u : Update) {y : Section} (hfind : (readSlot s u.slot).find 3 = some y)
    (hnew : (updateCfg s u).model ≠ s.cfg.model) :
    (updateCfg s u).model.image = freshArea s.cfg.model.image s.layout.modelArea s.layout.modelStaging := by
  simp only [updateCfg] at hnew ⊢
  split at hnew
  · exact absurd rfl hnew
  next hdiff => simp only [hdiff, Bool.false_eq_true, if_false, charterCfg, hfind, parseModel]

theorem updateCfg_zoneModel (s : State) (u : Update) {y : Section} (hfind : (readSlot s u.slot).find 6 = some y)
    (hnew : (updateCfg s u).zoneModel ≠ s.cfg.zoneModel) :
    ((updateCfg s u).zoneModel.map (·.image)).getD 0 =
      freshArea ((s.cfg.zoneModel.map (·.image)).getD 0) s.layout.zoneModel (s.layout.zoneModel + 0x10000000) := by
  simp only [updateCfg] at hnew ⊢
  split at hnew
  · exact absurd rfl hnew
  next hdiff => simp only [hdiff, Bool.false_eq_true, if_false, charterCfg, hfind, parseModel, Option.map_some, Option.getD_some]

theorem updateCfg_regs (s : State) (u : Update) : (updateCfg s u).regs = s.cfg.regs := by rw [updateCfg]

theorem updateBatch_new (s : State) (u : Update) (c : Cfg) : (updateBatch s u c).new = c := rfl

theorem loadSection_flash (s : State) (x : Slot) (type addr : Nat) : (loadSection s x type addr).flash = s.flash :=
  keeps_flash (loadSection_erase s x type addr (Nat.and_self _)) rfl

theorem sectionBytes_congr {s t : State} (h : t.flash = s.flash) (x : Slot) (y : Section) : t.sectionBytes x y = s.sectionBytes x y := by
  simp only [State.sectionBytes, State.flashBytes, State.flashByte, h]

theorem readSlot_congr {s t : State} (hflash : t.flash = s.flash) (hboot : t.boot = s.boot) (n : Nat) : readSlot t n = readSlot s n := by
  simp only [readSlot, State.slotStart, State.flashBytes, State.flashByte, hflash, hboot]

/-- Only the areas that a new model and a new zone model are loaded to change. -/
theorem loadModels_byte {s : State} {x : Slot} {old new : Cfg} {a : Nat}
    (hmodel : new.model ≠ old.model → ∀ y, x.find 3 = some y →
      a < new.model.image ∨ new.model.image + (s.sectionBytes x y).length ≤ a)
    (hzone : new.zoneModel ≠ old.zoneModel → ∀ y, x.find 6 = some y →
      a < (new.zoneModel.map (·.image)).getD 0
        ∨ (new.zoneModel.map (·.image)).getD 0 + (s.sectionBytes x y).length ≤ a) :
    (loadModels s x old new).byte a = s.byte a := by
  have hfirst : (if new.model = old.model then s else loadSection s x 3 new.model.image).byte a = s.byte a := by
    split
    · rfl
    next hdiff => exact loadSection_byte (hmodel hdiff)
  have hflash : (if new.model = old.model then s else loadSection s x 3 new.model.image).flash = s.flash := by
    split
    · rfl
    · exact loadSection_flash _ _ _ _
  simp only [loadModels]
  split
  · exact hfirst
  next hdiff =>
    refine (loadSection_byte fun y hy => ?_).trans hfirst
    rw [sectionBytes_congr hflash]
    exact hzone hdiff y hy

/-! ## The staging of the new tables -/

theorem stageCharter_eq (s : State) (u : Update) :
    stageCharter s u = chartered (stagedUpdate s u (readSlot s u.slot) (updateCfg s u)) (readSlot s u.slot) s.cfg (updateCfg s u)
      (charterChecks (stagedUpdate s u (readSlot s u.slot) (updateCfg s u)) (readSlot s u.slot) s.cfg (updateCfg s u)) := rfl

theorem stagedUpdate_batch (s : State) (u : Update) (x : Slot) (c : Cfg) :
    (stagedUpdate s u x c).stl.batch = some (updateBatch s u c) := rfl

theorem stagedUpdate_update (s : State) (u : Update) (x : Slot) (c : Cfg) :
    (stagedUpdate s u x c).stl.update = some { u with settled := true } := rfl

theorem stagedUpdate_page (s : State) (u : Update) (x : Slot) (c : Cfg) (q : Src) : (stagedUpdate s u x c).page q = s.page q := by
  cases q <;> rfl

theorem stagedUpdate_cfg (s : State) (u : Update) (x : Slot) (c : Cfg) : (stagedUpdate s u x c).cfg = s.cfg := rfl

theorem stagedUpdate_mem (s : State) (u : Update) (x : Slot) (c : Cfg) : (stagedUpdate s u x c).mem = s.mem := rfl

theorem stagedUpdate_flash (s : State) (u : Update) (x : Slot) (c : Cfg) : (stagedUpdate s u x c).flash = s.flash := rfl

/-- 02 R88 step 5: tables that pass wait for every unit, with the models that differ loaded. -/
theorem stageCharter_of_pass {s : State} {u : Update}
    (hpass : charterChecks (stagedUpdate s u (readSlot s u.slot) (updateCfg s u)) (readSlot s u.slot) s.cfg (updateCfg s u) = none) :
    stageCharter s u
      = loadModels (stagedUpdate s u (readSlot s u.slot) (updateCfg s u)) (readSlot s u.slot) s.cfg (updateCfg s u) := by
  rw [stageCharter_eq, hpass, chartered]

theorem stageCharter_of_fail {s : State} {u : Update} {f : Failure}
    (hfail : charterChecks (stagedUpdate s u (readSlot s u.slot) (updateCfg s u)) (readSlot s u.slot) s.cfg (updateCfg s u) = some f) :
    stageCharter s u = abortOnCheck (stagedUpdate s u (readSlot s u.slot) (updateCfg s u)) f := by
  rw [stageCharter_eq, hfail, chartered]

/-- What the staging leaves of the settlement, its page and the configuration, with the places it may change. -/
theorem stageCharter_pass_effect {s : State} {u : Update}
    (hpass : charterChecks (stagedUpdate s u (readSlot s u.slot) (updateCfg s u)) (readSlot s u.slot) s.cfg (updateCfg s u) = none) :
    (stageCharter s u).stl.batch = some (updateBatch s u (updateCfg s u))
      ∧ (stageCharter s u).stl.update = some { u with settled := true }
      ∧ (∀ q, (stageCharter s u).page q = s.page q) ∧ (stageCharter s u).cfg = s.cfg := by
  rw [stageCharter_of_pass hpass]
  have herase := loadModels_erase (stagedUpdate s u (readSlot s u.slot) (updateCfg s u)) (readSlot s u.slot) s.cfg (updateCfg s u)
    (Nat.and_self _)
  have hstl := keeps_stl herase rfl
  refine ⟨by rw [hstl, stagedUpdate_batch], by rw [hstl, stagedUpdate_update], fun q => ?_, ?_⟩
  · rw [State.page, hstl, ← State.page, stagedUpdate_page]
  · rw [keeps_cfg herase rfl, stagedUpdate_cfg]

theorem stageCharter_byte {s : State} {u : Update} {a : Nat}
    (hpass : charterChecks (stagedUpdate s u (readSlot s u.slot) (updateCfg s u)) (readSlot s u.slot) s.cfg (updateCfg s u) = none)
    (hmodel : ∀ y, (readSlot s u.slot).find 3 = some y →
      a < freshArea s.cfg.model.image s.layout.modelArea s.layout.modelStaging
        ∨ freshArea s.cfg.model.image s.layout.modelArea s.layout.modelStaging
            + (s.sectionBytes (readSlot s u.slot) y).length ≤ a)
    (hzone : ∀ y, (readSlot s u.slot).find 6 = some y →
      a < freshArea ((s.cfg.zoneModel.map (·.image)).getD 0) s.layout.zoneModel (s.layout.zoneModel + 0x10000000)
        ∨ freshArea ((s.cfg.zoneModel.map (·.image)).getD 0) s.layout.zoneModel (s.layout.zoneModel + 0x10000000)
            + (s.sectionBytes (readSlot s u.slot) y).length ≤ a) :
    (stageCharter s u).byte a = s.byte a := by
  rw [stageCharter_of_pass hpass]
  refine (loadModels_byte (fun hnew y hy => ?_) fun hnew y hy => ?_).trans (by rw [State.byte, stagedUpdate_mem, ← State.byte])
  · rw [updateCfg_model s u hy hnew, sectionBytes_congr (stagedUpdate_flash _ _ _ _)]
    exact hmodel y hy
  · rw [updateCfg_zoneModel s u hy hnew, sectionBytes_congr (stagedUpdate_flash _ _ _ _)]
    exact hzone y hy

/-- An aborted charter takes its update with it, and its page names the entry. -/
theorem abortOnCheck_charter {s : State} {b : Batch} (f : Failure) (hbatch : s.stl.batch = some b) (hcharter : b.charter = true) :
    (abortOnCheck s f).stl.batch = none ∧ (abortOnCheck s f).stl.update = none ∧ (abortOnCheck s f).cfg = s.cfg
      ∧ ((abortOnCheck s f).page b.src).status = f.status ∧ ((abortOnCheck s f).page b.src).reason = f.check
      ∧ ((abortOnCheck s f).page b.src).entry = f.entry := by
  obtain ⟨hnone, hpage, hcfg, -⟩ := dropBatch_effect s b f.status f.check f.entry
  have hupdate : (dropBatch s b f.status f.check f.entry).stl.update = none := by simp only [dropBatch, hcharter, if_true]
  simp only [abortOnCheck, abortBatch, hbatch, State.emit_cfg, State.page, State.emit_stl, Option.getD_some] at hpage ⊢
  exact ⟨hnone, hupdate, hcfg, by rw [hpage], by rw [hpage], by rw [hpage]⟩

/-! ## The restart of a region -/

/-- With no batch pending the restart of a region leaves the settlement as it is. -/
theorem restartRegion_stl {s : State} {g : Nat} (hfew : (recent s.time.elapsed hour (s.region g).restartTimes).length < 2)
    (hbatch : s.stl.batch = none) : (restartRegion s g).stl = s.stl := by
  have hnone (t : State) (lost : List StlUnit) (h : t.stl = s.stl) : (capacityChanged t lost).stl = s.stl := by
    rw [capacityChanged, h, hbatch]
    exact h
  have hjob (t : State) : (if t.adapt.regions.testBit g then restartJob t 3 else t).stl = t.stl := by
    split
    · exact keeps_stl (restartJob_erase _ _ (Nat.and_self _)) rfl
    · rfl
  rw [restartRegion, if_neg (thirdRestart_iff.not.mpr (Nat.not_le.mpr hfew))]
  refine hnone _ _ ?_
  rw [keeps_stl (checkAble_erase _ (Nat.and_self _)) rfl, keeps_stl (rehome_erase _ _ (Nat.and_self _)) rfl, hjob,
    keeps_stl (missingRegion_erase _ _ (Nat.and_self _)) rfl, keeps_stl (dropRegionAudits_erase _ _ (Nat.and_self _)) rfl,
    keeps_stl (stopWatches_erase _ _ _ (Nat.and_self _)) rfl, State.modRegion_stl]

/-- The update with its next controller restarted (02 R89). -/
def Update.rolled (u : Update) (c : Ctrl) (r : List Ctrl) (now : Nat) : Update :=
  { u with todo := r, done := u.done ++ [c], restartedAt := now, hadEval := false, results := [], periodOk := false }

/-- A charter update under way in the settlement. -/
def State.withUpdate (s : State) (u : Update) : State := { s with stl := { s.stl with update := some u } }

@[simp] theorem State.withUpdate_update (s : State) (u : Update) : (s.withUpdate u).stl.update = some u := rfl
@[simp] theorem State.withUpdate_batch (s : State) (u : Update) : (s.withUpdate u).stl.batch = s.stl.batch := rfl
@[simp] theorem State.withUpdate_cfg (s : State) (u : Update) : (s.withUpdate u).cfg = s.cfg := rfl
@[simp] theorem State.withUpdate_mem (s : State) (u : Update) : (s.withUpdate u).mem = s.mem := rfl
@[simp] theorem State.withUpdate_time (s : State) (u : Update) : (s.withUpdate u).time = s.time := rfl
@[simp] theorem State.withUpdate_region (s : State) (u : Update) (g : Nat) : (s.withUpdate u).region g = s.region g := rfl

/-- A controller that a rolling restart does not pass over. -/
def State.ableCtrl (s : State) : Ctrl → Bool
  | .region g => !(s.region g).fenced
  | .chip => true

theorem State.ableCtrl_congr {s t : State} (h : ∀ g, t.region g = s.region g) : t.ableCtrl = s.ableCtrl := by
  funext c
  cases c with
  | chip => rfl
  | region g => simp only [State.ableCtrl, h]

theorem advanceUpdate_eq (s : State) (u : Update) :
    advanceUpdate s u = match u.todo.filter s.ableCtrl with
      | [] => stageCharter s u
      | c :: r => restartController (s.withUpdate (u.rolled c r s.time.elapsed)) c := by
  have hable : s.ableCtrl = fun c => match c with
      | .region g => !(s.region g).fenced
      | .chip => true := by
    funext c
    cases c <;> rfl
  rw [hable]
  rfl

/-- With no controller left the tables are staged. -/
theorem advanceUpdate_of_done {s : State} {u : Update} (h : u.todo = []) : advanceUpdate s u = stageCharter s u := by
  simp only [advanceUpdate_eq, h, List.filter_nil]

/-- With a region next, the update notes it and the region restarts; memory and the configuration stand. -/
theorem advanceUpdate_of_region {s : State} {u : Update} {g : Nat} {r : List Ctrl} (hnext : u.todo.filter s.ableCtrl = .region g :: r)
    (hfew : (recent s.time.elapsed hour (s.region g).restartTimes).length < 2) (hbatch : s.stl.batch = none) :
    ((advanceUpdate s u).region g).state = 1 ∧ (advanceUpdate s u).cfg = s.cfg ∧ (advanceUpdate s u).mem = s.mem
      ∧ (advanceUpdate s u).stl.update = some (u.rolled (.region g) r s.time.elapsed) := by
  have hrestart : advanceUpdate s u = restartRegion (s.withUpdate (u.rolled (.region g) r s.time.elapsed)) g := by
    simp only [advanceUpdate_eq, hnext, restartController]
  have hfew' : (recent (s.withUpdate (u.rolled (.region g) r s.time.elapsed)).time.elapsed hour
      ((s.withUpdate (u.rolled (.region g) r s.time.elapsed)).region g).restartTimes).length < 2 := by simpa using hfew
  have herase := restartRegion_erase (s.withUpdate (u.rolled (.region g) r s.time.elapsed)) g (Nat.and_self _)
  rw [hrestart]
  refine ⟨(restartRegion_of_few hfew').1, keeps_cfg herase rfl, keeps_mem herase rfl, ?_⟩
  rw [restartRegion_stl hfew' (by simpa using hbatch), State.withUpdate_update]

/-! ## The commands -/

/-- What a CHARTER_UPDATE that is taken notes (02 R88 step 3). -/
def newUpdate (s : State) (page : Src) (todo : List Ctrl) : Update :=
  { src := page, slot := 1 - s.boot.running, instant := bitsOf (s.page page).instant.toNat 0 64, todo := todo }

theorem newUpdate_slot (s : State) (page : Src) (todo : List Ctrl) : (newUpdate s page todo).slot = 1 - s.boot.running := rfl

/-- The page of an update under way. -/
def State.pageUpdating (s : State) (page : Src) : State :=
  s.setPage page { s.page page with status := stOK, reason := 0, entry := 0, phase := 6 }

section
variable {s : State} {page via : Src} (hreset : s.phase ≠ .inReset) (hopen : stlBarred s page via 0x12 = false)
  (hany : anyBatch s = false) (hverified : s.stl.slotVerified = true) (hnone : s.stl.update = none)
  (hlate : s.time.now + second ≤ bitsOf (s.page page).instant.toNat 0 64)
include hreset hopen hany hverified hnone hlate

theorem exec_charterUpdate :
    exec (.charterUpdate page via) s = .next (advanceUpdate (s.pageUpdating page) (newUpdate s page
      (if (readSlot s (1 - s.boot.running)).firmwareDigests == (readSlot s s.boot.running).firmwareDigests then []
       else rollingOrder s))) := by
  change execCharterUpdate page via s = _
  rw [execCharterUpdate, done, stlCommand_of_taken hreset _ hopen]
  have hopened : (anyBatch s || !s.stl.slotVerified || s.stl.update.isSome) = false := by rw [hany, hverified, hnone]; rfl
  simp only [updateCommand, hopened, Bool.false_eq_true, if_false, Nat.not_lt.mpr hlate, newUpdate, State.pageUpdating]

/-- With the firmware of the running slot the tables are staged at once. -/
theorem exec_charterUpdate_same
    (hsame : (readSlot s (1 - s.boot.running)).firmwareDigests = (readSlot s s.boot.running).firmwareDigests) :
    exec (.charterUpdate page via) s = .next (stageCharter (s.pageUpdating page) (newUpdate s page [])) := by
  rw [exec_charterUpdate hreset hopen hany hverified hnone hlate, hsame, beq_self_eq_true, if_pos rfl, advanceUpdate_of_done rfl]

end

section
variable (s : State) (page : Src)

@[simp] theorem State.pageUpdating_cfg : (s.pageUpdating page).cfg = s.cfg := State.setPage_cfg _ _ _
@[simp] theorem State.pageUpdating_layout : (s.pageUpdating page).layout = s.layout := State.setPage_layout _ _ _
@[simp] theorem State.pageUpdating_flash : (s.pageUpdating page).flash = s.flash := State.setPage_flash _ _ _
@[simp] theorem State.pageUpdating_boot : (s.pageUpdating page).boot = s.boot := State.setPage_boot _ _ _
@[simp] theorem State.pageUpdating_mem : (s.pageUpdating page).mem = s.mem := State.setPage_mem _ _ _
@[simp] theorem State.pageUpdating_time : (s.pageUpdating page).time = s.time := State.setPage_time _ _ _
@[simp] theorem State.pageUpdating_batch : (s.pageUpdating page).stl.batch = s.stl.batch := by
  rw [State.pageUpdating, State.setPage_stl, Stl.setPage_batch]
@[simp] theorem State.pageUpdating_region (g : Nat) : (s.pageUpdating page).region g = s.region g := by
  rw [State.region, State.pageUpdating, State.setPage_regions, State.region]
theorem State.pageUpdating_phase : ((s.pageUpdating page).page page).phase = 6 := by
  rw [State.pageUpdating, State.setPage_page, if_pos rfl]

end

theorem batch_of_not_anyBatch {s : State} (h : anyBatch s = false) : s.stl.batch = none := by
  simp only [anyBatch, Bool.or_eq_false_iff] at h
  obtain ⟨⟨⟨hbatch, -⟩, -⟩, -⟩ := h
  exact Option.isNone_iff_eq_none.mp (Option.isSome_eq_false_iff.mp hbatch)

/-- The first region that is not fenced leads a rolling restart. -/
theorem rollingOrder_of_first {s : State} (h : (s.region 0).fenced = false) :
    (rollingOrder s).filter s.ableCtrl = .region 0 :: (rollingOrder s).tail.filter s.ableCtrl := by
  have hhead : rollingOrder s = .region 0 :: (rollingOrder s).tail := by
    simp [rollingOrder, List.range_succ_eq_map, h]
  conv_lhs => rw [hhead]
  rw [List.filter_cons_of_pos (by simp [State.ableCtrl, h])]

theorem exec_rollingRestartNext {s : State} {u : Update} {agreed : Bool} (hrun : s.running = true) (hupdate : s.stl.update = some u)
    (hopen : u.settled = false) (hleft : u.todo ≠ []) (hlast : lastRuns s u.done = true) (hmay : mayRoll u agreed = true) :
    exec (.rollingRestartNext agreed) s
      = .next (advanceUpdate (if agreed then s else s.atElapsed (u.restartedAt + 200000000)) u) := by
  have hgo : (u.settled || u.todo.isEmpty || !lastRuns s u.done || !mayRoll u agreed) = false := by simp [hopen, hleft, hlast, hmay]
  change execRollingRestartNext agreed s = _
  simp only [execRollingRestartNext, done, hrun, if_true, rollNext, hupdate, hgo, Bool.false_eq_true, if_false]

/-- 02 R90: the update ends, and what it restarted returns in reverse order. -/
theorem exec_controllerStartFailure {s : State} {u : Update} {c : Ctrl} (hrun : s.running = true) (hupdate : s.stl.update = some u)
    (hdrained : u.drained = false) (hopen : Update.open_ s = true) (hdone : u.done.contains c = true) :
    exec (.controllerStartFailure c) s = .next (failUpdate s none) := by
  change execControllerStartFailure c s = _
  simp only [execControllerStartFailure, done, hrun, if_true, failIfRestarted, hupdate, hdrained, hopen, hdone, Bool.not_false,
    Bool.and_true, Bool.false_eq_true, if_false]

theorem failUpdate_effect {s : State} {u : Update} (hupdate : s.stl.update = some u) :
    (failUpdate s none).stl.update = none ∧ (failUpdate s none).stl.rollback = u.done.reverse
      ∧ ((failUpdate s none).page u.src).status = stSTATE ∧ ((failUpdate s none).page u.src).reason = 18
      ∧ ∃ r, (failUpdate s none).journal.waiting = s.journal.waiting ++ [r] ∧ r.type = 0x0104 := by
  have hpage (t : Stl) (v : Option Update) (l : List Ctrl) (b : Option Batch) :
      Stl.page { t with update := v, rollback := l, batch := b } u.src = t.page u.src := by cases u.src <;> rfl
  have hback : u.done.reverse.filter (fun c => some c != none) = u.done.reverse := List.filter_eq_self.mpr (by simp)
  simp only [failUpdate, hupdate, State.emit_stl, State.page, State.setPage_stl, hpage, Stl.setPage_page, if_true, hback]
  rw [State.emit_journal_plain _ _ (Or.inl rfl)]
  simp only [State.setPage_journal]
  exact ⟨trivial, trivial, trivial, trivial, _, rfl, rfl⟩

/-- Settles O20: with the same firmware by `stageCharter_pass_effect` and `abortOnCheck_charter`, with other firmware and for the next
controller by `advanceUpdate_of_region`, and for a failed start by `failUpdate_effect`. -/
theorem charterUpdates : Obligations.CharterUpdates := by
  refine ⟨fun s page via u s1 hreset hopen hany hverified hnone hlate hsame (hu : u = newUpdate s page [])
      (hs1 : s1 = s.pageUpdating page) hpass => ?pass,
    fun s page via u s1 f hreset hopen hany hverified hnone hlate hsame (hu : u = newUpdate s page [])
      (hs1 : s1 = s.pageUpdating page) hfail => ?fail,
    fun s page via hreset hopen hany hverified hnone hlate hother hfree hfew => ?other,
    fun s u g r agreed hrun hupdate hbatch hopen hlast htodo hmay hfree hrest hfew => ?next,
    fun s u c hrun hupdate hdrained hopen hdone => ?failed⟩
  case pass =>
    subst hu hs1
    have hslot (n : Nat) : readSlot (s.pageUpdating page) n = readSlot s n := readSlot_congr (by simp) (by simp) n
    obtain ⟨hb, hup, hpage, hcfg⟩ := stageCharter_pass_effect hpass
    refine ⟨_, _, exec_charterUpdate_same hreset hopen hany hverified hnone hlate hsame, hb, rfl, rfl, ?_, ?_, ?_, ?_,
      fun a hmodel hzone => ?_⟩
    · rw [updateBatch_new, updateCfg_regs, State.pageUpdating_cfg]
    · rw [hup, Option.map_some]
    · rw [hpage, State.pageUpdating_phase]
    · rw [hcfg, State.pageUpdating_cfg]
    · refine (stageCharter_byte hpass ?_ ?_).trans (by rw [State.byte, State.pageUpdating_mem, State.byte])
        <;> simp only [hslot, newUpdate_slot, State.pageUpdating_cfg, State.pageUpdating_layout,
          sectionBytes_congr (s.pageUpdating_flash page)]
      exacts [hmodel, hzone]
  case fail =>
    subst hu hs1
    obtain ⟨hb, hup, hcfg, hstatus, hreason, hentry⟩ := abortOnCheck_charter f (stagedUpdate_batch _ _ _ _) rfl
    rw [← stageCharter_of_fail hfail] at hb hup hcfg hstatus hreason hentry
    exact ⟨_, exec_charterUpdate_same hreset hopen hany hverified hnone hlate hsame, hb, hup,
      hcfg.trans ((stagedUpdate_cfg _ _ _ _).trans (s.pageUpdating_cfg page)), hstatus, hreason, hentry⟩
  case other =>
    have hexec := exec_charterUpdate hreset hopen hany hverified hnone hlate
    rw [if_neg (by simpa using hother)] at hexec
    have horder : (newUpdate s page (rollingOrder s)).todo.filter (s.pageUpdating page).ableCtrl
        = .region 0 :: (rollingOrder s).tail.filter s.ableCtrl := by
      rw [State.ableCtrl_congr (s.pageUpdating_region page)]
      exact rollingOrder_of_first hfree
    obtain ⟨hstate, hcfg, hmem, hup⟩ := advanceUpdate_of_region horder (by simpa using hfew)
      (by rw [State.pageUpdating_batch, batch_of_not_anyBatch hany])
    refine ⟨_, hexec, hstate, hcfg.trans (s.pageUpdating_cfg page), by rw [hup]; rfl, fun a => ?_⟩
    rw [State.byte, hmem, State.pageUpdating_mem, State.byte]
  case next =>
    have hexec := exec_rollingRestartNext hrun hupdate hopen (by simp [htodo]) hlast hmay
    have hkept : (if agreed then s else s.atElapsed (u.restartedAt + 200000000)).stl = s.stl := by split <;> simp
    have hregion (k : Nat) : (if agreed then s else s.atElapsed (u.restartedAt + 200000000)).region k = s.region k := by
      split
      · rfl
      · rw [State.region, keeps_regions (s.atElapsed_erase _ (Nat.and_self _)) rfl, State.region]
    generalize (if agreed then s else s.atElapsed (u.restartedAt + 200000000)) = t at hexec hkept hregion
    have hable : u.todo.filter t.ableCtrl = .region g :: r := by
      rw [htodo, State.ableCtrl_congr hregion, List.filter_eq_self]
      intro c hc
      cases c with
      | chip => rfl
      | region k =>
        rcases List.mem_cons.mp hc with heq | hmem
        · cases heq
          simp [State.ableCtrl, hfree]
        · simp [State.ableCtrl, hrest k hmem]
    obtain ⟨hstate, -, -, hup⟩ := advanceUpdate_of_region hable
      (lt_of_le_of_lt (List.length_filter_le _ _) (by rw [hregion]; exact hfew)) (by rw [hkept, hbatch])
    exact ⟨_, hexec, hstate, by rw [hup]; rfl, by rw [hup]; rfl⟩
  case failed =>
    exact ⟨_, exec_controllerStartFailure hrun hupdate hdrained hopen hdone, failUpdate_effect hupdate⟩

end Sys2Proof.Machine

/-! The initial settlement (02 R60, R62) and the end of the adoption hold (R59): what the start-up assay leaves as it is, the tables'
coming into force, and the rise of the rollback counters. -/

namespace Sys2Proof.Machine

/-! ## The start-up assay -/

/-- Fencing an engine queues a write of the unit map, and leaves the overlay in flash. -/
theorem fenceEngine_overlay (s : State) (p source : Nat) : (fenceEngine s p source).flash.overlay = s.flash.overlay := by
  have hmap (t : State) (lost : List StlUnit) : (capacityChanged (writeUnitMap t) lost).flash.overlay = t.flash.overlay := by
    rw [keeps_flash (capacityChanged_erase _ _ (Nat.and_self _)) rfl]
    rfl
  have hspare (spare : Option Nat) (t : State) (h : t.flash = s.flash) : (match spare with
      | some q => beginHandover t p q
      | none => t.modEngine p fun x => { x with logical := 0xFF, running := none }).flash = s.flash := by
    cases spare with
    | none => exact h
    | some q => exact (keeps_flash (beginHandover_erase _ _ _ (Nat.and_self _)) rfl).trans h
  rw [fenceEngine, hmap]
  rw [keeps_flash (checkAble_erase _ (Nat.and_self _)) rfl, keeps_flash (missingEvals_erase _ _ (Nat.and_self _)) rfl,
    keeps_flash (State.fenceEvent_erase _ _ _ _ (Nat.and_self _)) rfl, keeps_flash (markDegraded_erase _ _ (Nat.and_self _)) rfl,
    keeps_flash (dropAudits_erase _ _ (Nat.and_self _)) rfl, keeps_flash (State.modEngine_erase _ _ _ (Nat.and_self _)) rfl]
  exact congrArg (·.overlay) (hspare _ _ rfl)

theorem assignEngines_overlay (s : State) (rs : List AssayResult) : (assignEngines s rs).flash.overlay = s.flash.overlay := by
  have hengine (t : State) (p : Nat) (f : Engine → Engine) : (t.modEngine p f).flash.overlay = t.flash.overlay :=
    congrArg (·.overlay) (keeps_flash (State.modEngine_erase _ _ _ (Nat.and_self _)) rfl)
  have hregion (t : State) (p : Nat) (f : Region → Region) : (t.modRegion p f).flash.overlay = t.flash.overlay :=
    congrArg (·.overlay) (keeps_flash (State.modRegion_erase _ _ _ (Nat.and_self _)) rfl)
  have hkeep {α : Type} {f : State → α → State} (h : ∀ t a, (f t a).flash.overlay = t.flash.overlay) (l : List α) (t : State) :
      (l.foldl f t).flash.overlay = t.flash.overlay := foldl_keeps (·.flash.overlay) h l t
  unfold assignEngines
  extract_lets s1 live reference bad s2 flt s3 s4 s5 s6 s7
  have h1 : s1.flash.overlay = s.flash.overlay := hkeep (fun t p => hengine t p _) _ _
  have h2 : s2.flash.overlay = s1.flash.overlay := hkeep (fun t r => by split; exacts [rfl, hengine t _ _]) _ _
  have h3 : s3.flash.overlay = s2.flash.overlay := rfl
  have h4 : s4.flash.overlay = s3.flash.overlay := hkeep (fun t p => fenceEngine_overlay t p _) _ _
  have h5 : s5.flash.overlay = s4.flash.overlay := hkeep (fun t p => hengine t p _) _ _
  have h6 : s6.flash.overlay = s5.flash.overlay :=
    hkeep (fun t d => congrArg (·.overlay) (keeps_flash (State.modDec_erase t d _ (Nat.and_self _)) rfl)) _ _
  have h7 : s7.flash.overlay = s6.flash.overlay := hkeep (fun t g => hregion t g _) _ _
  refine (hkeep (fun t g => hregion t g _) _ _).trans ?_
  exact h7.trans (h6.trans (h5.trans (h4.trans (h3.trans (h2.trans h1)))))

/-! ## The tables come into force -/

/-- Step 8 with the tables in force and nothing started yet (02 R62). -/
def State.tablesApplied (s : State) (c : Cfg) : State :=
  { s with cfg := c, layout := s.layout.withReserves c, phase := .running, boot := { s.boot with step := 8 } }

theorem State.tablesApplied_cfg (s : State) (c : Cfg) : (s.tablesApplied c).cfg = c := rfl

theorem State.tablesApplied_phase (s : State) (c : Cfg) : (s.tablesApplied c).phase = .running := rfl

theorem State.tablesApplied_step (s : State) (c : Cfg) : (s.tablesApplied c).boot.step = 8 := rfl

theorem State.tablesApplied_mem (s : State) (c : Cfg) : (s.tablesApplied c).mem = s.mem := by rw [State.tablesApplied]

/-- The parts that start with the tables: the network pins, the safety supervisor and the adaptation job. -/
def State.unitsStarted (s : State) : State :=
  { s with
    pins := { s.pins with ethIdle0 := false, ethIdle1 := false }
    saf := { s.saf with started := true }
    adapt := { s.adapt with resume := s.flash.checkpoints.find? (·.complete) } }

/-- Streams, zones and the adopted heads start. -/
def startServices (s : State) (c : Cfg) : State :=
  readoptHeads (settleChannels (c.enabledZones.foldl enterStart (setDDec ((c.active.map (·.1)).foldl startStream s))))

/-- Without an overlay the charter's tables are the initial configuration. -/
theorem startRunning_of_plain {s : State} (x : Slot) (base : Cfg) (hplain : s.flash.overlay = []) :
    startRunning s x base
      = startServices (bootRecord (runSlot (s.tablesApplied base) s.boot.trying).unitsStarted) base := by
  have hinitial : initialCfg s x base = (s, base) := by simp only [initialCfg, hplain, List.isEmpty_nil, if_true]
  simp only [startRunning, hinitial, startServices, State.unitsStarted, State.tablesApplied]

section
variable (s : State)

theorem State.unitsStarted_phase : s.unitsStarted.phase = s.phase := rfl
theorem State.unitsStarted_boot : s.unitsStarted.boot = s.boot := rfl
theorem State.unitsStarted_cfg : s.unitsStarted.cfg = s.cfg := rfl
theorem State.unitsStarted_mem : s.unitsStarted.mem = s.mem := rfl

end

theorem startServices_erase (s : State) (c : Cfg) : (startServices s c).erase 0x8a8001a04 = s.erase 0x8a8001a04 := by
  refine (readoptHeads_erase _ (by decide)).trans ((settleChannels_erase _ (by decide)).trans ?_)
  refine (erase_foldl (fun t z => enterStart_erase t z (by decide)) _ _).trans ((setDDec_erase _ (by decide)).trans ?_)
  exact erase_foldl (fun t n => startStream_erase t n (by decide)) _ _

theorem runSlot_step (s : State) (slot : Nat) : (runSlot s slot).boot.step = s.boot.step := by
  simp only [runSlot]
  split
  · rw [keeps_boot (raiseCounters_erase _ _ (Nat.and_self _)) rfl]
  · rfl

/-- 02 R62: the device runs with the charter's tables, and no byte of memory changes. -/
theorem startRunning_effect {s : State} (x : Slot) (base : Cfg) (hplain : s.flash.overlay = []) :
    (startRunning s x base).phase = .running ∧ (startRunning s x base).boot.step = 8 ∧ (startRunning s x base).cfg = base
      ∧ (startRunning s x base).mem = s.mem := by
  have hservices := startServices_erase (bootRecord (runSlot (s.tablesApplied base) s.boot.trying).unitsStarted) base
  have hrecord := bootRecord_erase (runSlot (s.tablesApplied base) s.boot.trying).unitsStarted (Nat.and_self _)
  have hslot := runSlot_erase (s.tablesApplied base) s.boot.trying (Nat.and_self _)
  rw [startRunning_of_plain x base hplain]
  refine ⟨?_, ?_, ?_, ?_⟩
  · rw [keeps_phase hservices rfl, keeps_phase hrecord rfl, State.unitsStarted_phase, keeps_phase hslot rfl, State.tablesApplied_phase]
  · rw [keeps_boot hservices rfl, keeps_boot hrecord rfl, State.unitsStarted_boot, runSlot_step, State.tablesApplied_step]
  · rw [keeps_cfg hservices rfl, keeps_cfg hrecord rfl, State.unitsStarted_cfg, keeps_cfg hslot rfl, State.tablesApplied_cfg]
  · rw [keeps_mem hservices rfl, keeps_mem hrecord rfl, State.unitsStarted_mem, keeps_mem hslot rfl, State.tablesApplied_mem]

/-- 02 R61: a slot that fails leaves the device booting, or quiet. -/
theorem slotFailed_not_running {s : State} (st : Nat) (hboot : s.phase = .booting) : (slotFailed s st).phase ≠ .running := by
  by_cases hfirst : s.boot.trying = s.boot.firstTried
  · rw [(slotFailed_first st hfirst).2.2, hboot]
    decide
  · rw [slotFailed_second st hfirst, (enterQuiet_quiet _).1]
    decide

/-! ## The rollback counters -/

/-- 02 R59, 19 R552: a burn that succeeds raises one counter to the charter's, never above 127. -/
theorem raiseOne_charter (s : State) :
    (raiseOne s 0 true).fuses = { s.fuses with charterRb := max s.fuses.charterRb (min 127 s.boot.charterRb) } := by
  simp only [raiseOne, if_true, Bool.not_true, Bool.false_eq_true, if_false]
  split
  next hle => rw [max_eq_left hle]
  next hlt => rw [keeps_fuses (secCounter_erase _ _ _ _ (Nat.and_self _)) rfl, max_eq_right (Nat.le_of_not_le hlt)]

theorem raiseOne_firmware (s : State) :
    (raiseOne s 1 true).fuses = { s.fuses with firmwareRb := max s.fuses.firmwareRb (min 127 s.boot.firmwareRb) } := by
  simp only [raiseOne, one_ne_zero, Bool.not_true, Bool.false_eq_true, if_false]
  split
  next hle => rw [max_eq_left hle]
  next hlt => rw [keeps_fuses (secCounter_erase _ _ _ _ (Nat.and_self _)) rfl, max_eq_right (Nat.le_of_not_le hlt)]

theorem raiseCounters_fuses (s : State) :
    (raiseCounters s true).fuses = { s.fuses with
      charterRb := max s.fuses.charterRb (min 127 s.boot.charterRb)
      firmwareRb := max s.fuses.firmwareRb (min 127 s.boot.firmwareRb) } := by
  rw [raiseCounters, raiseOne_firmware, raiseOne_charter, keeps_boot (raiseOne_erase _ _ _ (Nat.and_self _)) rfl]

/-! ## The commands -/

section
variable {s : State} {rs : List AssayResult} {u : State} {x : Slot} {c : Cfg}
  (hu : u = assignEngines s rs) (hx : x = readSlot u u.boot.trying)
  (hc : c = charterCfg u x u.layout.modelArea u.layout.zoneModel)
include hu hx hc

theorem bootAssay_of_pass (hpass : charterChecks u x c c = none) : bootAssay s rs = startRunning u x c := by
  subst hc hx hu
  unfold bootAssay
  extract_lets u x c
  have hchecks : charterChecks u x c c = none := hpass
  rw [hchecks]

theorem bootAssay_of_fail {f : Failure} (hfail : charterChecks u x c c = some f) : bootAssay s rs = slotFailed u f.status := by
  subst hc hx hu
  unfold bootAssay
  extract_lets u x c
  have hchecks : charterChecks u x c c = some f := hfail
  rw [hchecks]

end

theorem exec_bootAssayComplete {s : State} (rs : List AssayResult) (hboot : s.phase = .booting) (hstep : s.boot.step = 6) :
    exec (.bootAssayComplete rs) s = .next (bootAssay s rs) := by
  change execBootAssayComplete rs s = _
  rw [execBootAssayComplete, done, if_pos ⟨hboot, hstep⟩]

theorem exec_adoptionHoldExpiry {s : State} {since : Nat} (burnOk : Bool) (hrun : s.running = true)
    (hhold : s.boot.holdSince = some since) :
    ∃ t, exec (.adoptionHoldExpiry burnOk) s = .next t ∧ t.boot.holdSince = none
      ∧ t.fuses = (raiseCounters (s.atStation (since + s.boot.holdHours * 3600 * second)) burnOk).fuses := by
  change ∃ t, execAdoptionHoldExpiry burnOk s = _ ∧ _
  simp only [execAdoptionHoldExpiry, done, hhold, hrun, if_true]
  exact ⟨_, rfl, rfl, rfl⟩

/-- Settles O16: a charter that passes by `startRunning_effect`, one that fails by `slotFailed_not_running`, and the end of the hold by
`raiseCounters_fuses`. -/
theorem initialSettlementAndAdoption : Obligations.InitialSettlementAndAdoption := by
  refine ⟨fun s rs u x c hboot hstep hplain hu hx hc hpass => ?pass, fun s rs u x c f hboot hstep hu hx hc hfail => ?fail,
    fun s since hrun hhold => ?hold⟩
  case pass =>
    have hkept : u.flash.overlay = [] := by rw [hu, assignEngines_overlay, hplain]
    have hmem : u.mem = s.mem := by rw [hu, keeps_mem (assignEngines_erase s rs (Nat.and_self _)) rfl]
    obtain ⟨hrunning, height, hcfg, hstart⟩ := startRunning_effect x c hkept
    rw [exec_bootAssayComplete rs hboot hstep, bootAssay_of_pass hu hx hc hpass]
    refine ⟨_, rfl, hrunning, height, hcfg, fun a => ?_⟩
    rw [State.byte, hstart, hmem, State.byte]
  case fail =>
    have hbooting : u.phase = .booting := by rw [hu, keeps_phase (assignEngines_erase s rs (Nat.and_self _)) rfl, hboot]
    have hcfg : u.cfg = s.cfg := by rw [hu, keeps_cfg (assignEngines_erase s rs (Nat.and_self _)) rfl]
    rw [exec_bootAssayComplete rs hboot hstep, bootAssay_of_fail hu hx hc hfail]
    exact ⟨_, rfl, slotFailed_not_running _ hbooting,
      (keeps_cfg (slotFailed_erase _ _ (Nat.and_self _)) rfl).trans hcfg⟩
  case hold =>
    obtain ⟨t, hexec, hnone, hfuses⟩ := exec_adoptionHoldExpiry true hrun hhold
    have hstation := s.atStation_erase (since + s.boot.holdHours * 3600 * second) (Nat.and_self _)
    rw [raiseCounters_fuses, keeps_fuses hstation rfl, keeps_boot hstation rfl] at hfuses
    exact ⟨t, hexec, hnone, by rw [hfuses], by rw [hfuses]⟩

end Sys2Proof.Machine

/-! What a command may write, by the model's own table: every command leaves the parts outside it as they were. -/

namespace Sys2Proof.Machine

/-- The parts of a list as the mask that `State.erase` takes. -/
def partsMask (ps : List Part) : Nat := ps.foldl (fun m p => m ||| 2 ^ p.ctorIdx) 0

theorem Part.ctorIdx_injective : Function.Injective Part.ctorIdx := Function.LeftInverse.injective Part.ofNat_ctorIdx

/-- A part of the list is left out by its mask, and no other is. -/
theorem testBit_partsMask (ps : List Part) (p : Part) : (partsMask ps).testBit p.ctorIdx = decide (p ∈ ps) := by
  have hfold (m : Nat) : (ps.foldl (fun m q => m ||| 2 ^ q.ctorIdx) m).testBit p.ctorIdx = (m.testBit p.ctorIdx || decide (p ∈ ps)) := by
    induction ps generalizing m with
    | nil => simp
    | cons q ps ih =>
      rw [List.foldl_cons, ih, Nat.testBit_or, Nat.testBit_two_pow]
      by_cases hq : q = p
      · simp [hq]
      · simp [Part.ctorIdx_injective.ne hq, Ne.symm hq]
  simpa [partsMask] using hfold 0

/-- With the parts it may write left out, a command's next state is the state it ran in. -/
theorem exec_erase {c : Instr} {s t : State} (h : exec c s = .next t) :
    t.erase (partsMask (writes c)) = s.erase (partsMask (writes c)) := by
  cases c with
  | registerWrite _ _ _ _ => exact execRegisterWrite_erase _ _ _ _ s (by rw [writes]; decide) t h
  | bar0UnalignedRead _ _ => exact execBar0UnalignedRead_erase _ _ s (by rw [writes]; decide) t h
  | timNowLowRead _ => exact execTimNowLowRead_erase _ s (by rw [writes]; decide) t h
  | tillCyclesRead _ _ => exact execTillCyclesRead_erase _ _ s (by rw [writes]; decide) t h
  | ingPacketsRead _ _ => exact execIngPacketsRead_erase _ _ s (by rw [writes]; decide) t h
  | engConvSatRead _ _ => exact execEngConvSatRead_erase _ _ s (by rw [writes]; decide) t h
  | engTilesRead _ _ => exact execEngTilesRead_erase _ _ s (by rw [writes]; decide) t h
  | clrCommandsRead _ _ => exact execClrCommandsRead_erase _ _ s (by rw [writes]; decide) t h
  | encPicturesRead _ _ => exact execEncPicturesRead_erase _ _ s (by rw [writes]; decide) t h
  | fltCorrectedRead _ => exact execFltCorrectedRead_erase _ s (by rw [writes]; decide) t h
  | safEvalsRead _ => exact execSafEvalsRead_erase _ s (by rw [writes]; decide) t h
  | memCeRead _ _ => exact execMemCeRead_erase _ _ s (by rw [writes]; decide) t h
  | netLnkCounterRead _ _ => exact execNetLnkCounterRead_erase _ _ s (by rw [writes]; decide) t h
  | flitCrcReplay _ _ => exact execFlitCrcReplay_erase _ _ s (by rw [writes]; decide) t h
  | laneSpare _ _ => exact execLaneSpare_erase _ _ s (by rw [writes]; decide) t h
  | bridgeHalfWidth _ => exact execBridgeHalfWidth_erase _ s (by rw [writes]; decide) t h
  | bridgeLost _ => exact execBridgeLost_erase _ s (by rw [writes]; decide) t h
  | chipArbGrant _ _ _ => exact execChipArbGrant_erase _ _ _ s (by rw [writes]; decide) t h
  | regionXbarGrant _ _ _ _ => exact execRegionXbarGrant_erase _ _ _ _ s (by rw [writes]; decide) t h
  | engineBankGrant _ _ _ => exact execEngineBankGrant_erase _ _ _ s (by rw [writes]; decide) t h
  | operandNetworkCycle _ _ _ => exact execOperandNetworkCycle_erase _ _ _ s (by rw [writes]; decide) t h
  | cellPipelineCycle _ _ => exact execCellPipelineCycle_erase _ _ s (by rw [writes]; decide) t h
  | regionWatchdogExpiry _ => exact execRegionWatchdogExpiry_erase _ s (by rw [writes]; decide) t h
  | regionRestartComplete _ => exact execRegionRestartComplete_erase _ s (by rw [writes]; decide) t h
  | regionRestartTimeout _ => exact execRegionRestartTimeout_erase _ s (by rw [writes]; decide) t h
  | chipWatchdogExpiry => exact execChipWatchdogExpiry_erase s (by rw [writes]; decide) t h
  | chipControllerRestarted => exact execChipControllerRestarted_erase s (by rw [writes]; decide) t h
  | resetAssert _ => exact execResetAssert_erase _ s (by rw [writes]; decide) t h
  | pwrgoodFall => exact execPwrgoodFall_erase s (by rw [writes]; decide) t h
  | bootStart _ => exact execBootStart_erase _ s (by rw [writes]; decide) t h
  | directoryReadComplete => exact execDirectoryReadComplete_erase s (by rw [writes]; decide) t h
  | dramTrainingComplete _ _ => exact execDramTrainingComplete_erase _ _ s (by rw [writes]; decide) t h
  | slotReadComplete => exact execSlotReadComplete_erase s (by rw [writes]; decide) t h
  | firmwareStarted => exact execFirmwareStarted_erase s (by rw [writes]; decide) t h
  | bootAssayComplete _ => exact execBootAssayComplete_erase _ s (by rw [writes]; decide) t h
  | adoptionHoldExpiry _ => exact execAdoptionHoldExpiry_erase _ s (by rw [writes]; decide) t h
  | stlOpen _ _ => exact execStlOpen_erase _ _ s (by rw [writes]; decide) t h
  | stlStage _ _ _ => exact execStlStage_erase _ _ _ s (by rw [writes]; decide) t h
  | stlCheck _ _ => exact execStlCheck_erase _ _ s (by rw [writes]; decide) t h
  | commitAtTime _ _ => exact execCommitAtTime_erase _ _ s (by rw [writes]; decide) t h
  | commitAtEvent _ _ => exact execCommitAtEvent_erase _ _ s (by rw [writes]; decide) t h
  | stlAbort _ _ => exact execStlAbort_erase _ _ s (by rw [writes]; decide) t h
  | stlDiscard _ _ => exact execStlDiscard_erase _ _ s (by rw [writes]; decide) t h
  | flashProgram _ _ _ => exact execFlashProgram_erase _ _ _ s (by rw [writes]; decide) t h
  | flashProgramComplete _ => exact execFlashProgramComplete_erase _ s (by rw [writes]; decide) t h
  | verifySlot _ _ _ => exact execVerifySlot_erase _ _ _ s (by rw [writes]; decide) t h
  | verifySlotComplete => exact execVerifySlotComplete_erase s (by rw [writes]; decide) t h
  | charterUpdate _ _ => exact execCharterUpdate_erase _ _ s (by rw [writes]; decide) t h
  | reboot _ _ _ => exact execReboot_erase _ _ _ s (by rw [writes]; decide) t h
  | rebootReset => exact execRebootReset_erase s (by rw [writes]; decide) t h
  | settlementPrepareAck _ => exact execSettlementPrepareAck_erase _ s (by rw [writes]; decide) t h
  | preInstantRecheck => exact execPreInstantRecheck_erase s (by rw [writes]; decide) t h
  | epochInstant => exact execEpochInstant_erase s (by rw [writes]; decide) t h
  | eventTimeout => exact execEventTimeout_erase s (by rw [writes]; decide) t h
  | unitDrainRelease _ => exact execUnitDrainRelease_erase _ s (by rw [writes]; decide) t h
  | drainBoundExpiry => exact execDrainBoundExpiry_erase s (by rw [writes]; decide) t h
  | rollingRestartNext _ => exact execRollingRestartNext_erase _ s (by rw [writes]; decide) t h
  | controllerStartFailure _ => exact execControllerStartFailure_erase _ s (by rw [writes]; decide) t h
  | ptpSync _ _ _ _ _ _ _ => exact execPtpSync_erase _ _ _ _ _ _ _ s (by rw [writes]; decide) t h
  | ptpFollowUp _ _ _ _ _ => exact execPtpFollowUp_erase _ _ _ _ _ s (by rw [writes]; decide) t h
  | ptpAnnounce _ _ _ => exact execPtpAnnounce_erase _ _ _ s (by rw [writes]; decide) t h
  | ptpDelayResp _ _ _ _ _ => exact execPtpDelayResp_erase _ _ _ _ _ s (by rw [writes]; decide) t h
  | ptpPdelayMessage _ _ _ _ _ _ => exact execPtpPdelayMessage_erase _ _ _ _ _ _ s (by rw [writes]; decide) t h
  | ptpDelayReqSend _ _ _ => exact execPtpDelayReqSend_erase _ _ _ s (by rw [writes]; decide) t h
  | ptpSyncLoss _ => exact execPtpSyncLoss_erase _ s (by rw [writes]; decide) t h
  | announceReceiptTimeout _ => exact execAnnounceReceiptTimeout_erase _ s (by rw [writes]; decide) t h
  | timeinPulse => exact execTimeinPulse_erase s (by rw [writes]; decide) t h
  | timeinLoss => exact execTimeinLoss_erase s (by rw [writes]; decide) t h
  | sourcePromotion => exact execSourcePromotion_erase s (by rw [writes]; decide) t h
  | stationTimeStep => exact execStationTimeStep_erase s (by rw [writes]; decide) t h
  | tickMappingUpdate => exact execTickMappingUpdate_erase s (by rw [writes]; decide) t h
  | sliceStart _ => exact execSliceStart_erase _ s (by rw [writes]; decide) t h
  | energyApportion _ => exact execEnergyApportion_erase _ s (by rw [writes]; decide) t h
  | slowdownSecond => exact execSlowdownSecond_erase s (by rw [writes]; decide) t h
  | modelSwitchCut => exact execModelSwitchCut_erase s (by rw [writes]; decide) t h
  | modelSwitchEnd => exact execModelSwitchEnd_erase s (by rw [writes]; decide) t h
  | ethFrameReceive _ _ => exact execEthFrameReceive_erase _ _ s (by rw [writes]; decide) t h
  | rtpDatagram _ => exact execRtpDatagram_erase _ s (by rw [writes]; decide) t h
  | reorderHoldExpiry _ => exact execReorderHoldExpiry_erase _ s (by rw [writes]; decide) t h
  | commandRingFetch => exact execCommandRingFetch_erase s (by rw [writes]; decide) t h
  | pushPayloadComplete _ _ => exact execPushPayloadComplete_erase _ _ s (by rw [writes]; decide) t h
  | decodePictureComplete _ _ => exact execDecodePictureComplete_erase _ _ s (by rw [writes]; decide) t h
  | decodeBudgetExhausted _ _ => exact execDecodeBudgetExhausted_erase _ _ s (by rw [writes]; decide) t h
  | secondSummary => exact execSecondSummary_erase s (by rw [writes]; decide) t h
  | journalRecordAppend => exact execJournalRecordAppend_erase s (by rw [writes]; decide) t h
  | journalMarkStart => exact execJournalMarkStart_erase s (by rw [writes]; decide) t h
  | journalMarkComplete _ => exact execJournalMarkComplete_erase _ s (by rw [writes]; decide) t h
  | preprocessStart _ => exact execPreprocessStart_erase _ s (by rw [writes]; decide) t h
  | preprocessComplete _ _ _ _ => exact execPreprocessComplete_erase _ _ _ _ s (by rw [writes]; decide) t h
  | pictureDeadline _ _ => exact execPictureDeadline_erase _ _ s (by rw [writes]; decide) t h
  | hostAssistClear _ => exact execHostAssistClear_erase _ s (by rw [writes]; decide) t h
  | batchStepBoundary _ _ => exact execBatchStepBoundary_erase _ _ s (by rw [writes]; decide) t h
  | tileStart _ _ => exact execTileStart_erase _ _ s (by rw [writes]; decide) t h
  | tileCommit _ _ => exact execTileCommit_erase _ _ s (by rw [writes]; decide) t h
  | operandParityError _ _ => exact execOperandParityError_erase _ _ s (by rw [writes]; decide) t h
  | descriptorAccessFault _ => exact execDescriptorAccessFault_erase _ s (by rw [writes]; decide) t h
  | voidOperand _ => exact execVoidOperand_erase _ s (by rw [writes]; decide) t h
  | tileWatchdogExpiry _ => exact execTileWatchdogExpiry_erase _ s (by rw [writes]; decide) t h
  | engineScrub _ _ _ => exact execEngineScrub_erase _ _ _ s (by rw [writes]; decide) t h
  | dmaCommand _ _ _ => exact execDmaCommand_erase _ _ _ s (by rw [writes]; decide) t h
  | dmaComplete _ => exact execDmaComplete_erase _ s (by rw [writes]; decide) t h
  | haloGroupReceived _ _ => exact execHaloGroupReceived_erase _ _ s (by rw [writes]; decide) t h
  | haloReleaseArrival _ _ => exact execHaloReleaseArrival_erase _ _ s (by rw [writes]; decide) t h
  | partArrival _ _ _ _ _ _ => exact execPartArrival_erase _ _ _ _ _ _ s (by rw [writes]; decide) t h
  | sendComplete _ => exact execSendComplete_erase _ s (by rw [writes]; decide) t h
  | assoc _ _ => exact execAssoc_erase _ _ s (by rw [writes]; decide) t h
  | nms _ _ => exact execNms_erase _ _ s (by rw [writes]; decide) t h
  | knn _ _ => exact execKnn_erase _ _ s (by rw [writes]; decide) t h
  | ident _ _ => exact execIdent_erase _ _ s (by rw [writes]; decide) t h
  | gather _ _ => exact execGather_erase _ _ s (by rw [writes]; decide) t h
  | scatter _ _ => exact execScatter_erase _ _ s (by rw [writes]; decide) t h
  | clearingCommandCommit _ => exact execClearingCommandCommit_erase _ s (by rw [writes]; decide) t h
  | clearingWatchdogExpiry _ => exact execClearingWatchdogExpiry_erase _ s (by rw [writes]; decide) t h
  | clearingVoidRead _ _ => exact execClearingVoidRead_erase _ _ s (by rw [writes]; decide) t h
  | writeLogOverflow _ => exact execWriteLogOverflow_erase _ s (by rw [writes]; decide) t h
  | clearingAuditCopy _ _ => exact execClearingAuditCopy_erase _ _ s (by rw [writes]; decide) t h
  | ledgerWriteback _ _ => exact execLedgerWriteback_erase _ _ s (by rw [writes]; decide) t h
  | quarantineEnd _ => exact execQuarantineEnd_erase _ s (by rw [writes]; decide) t h
  | ownershipHandoff _ => exact execOwnershipHandoff_erase _ s (by rw [writes]; decide) t h
  | clipRequest req src => exact execClipRequest_erase req src s (by rw [writes]; decide) t h
  | liveViewStart req src => exact execLiveViewStart_erase req src s (by rw [writes]; decide) t h
  | liveViewStop req src => exact execLiveViewStop_erase req src s (by rw [writes]; decide) t h
  | clipStart => exact execClipStart_erase s (by rw [writes]; decide) t h
  | sliceEmit _ _ _ => exact execSliceEmit_erase _ _ _ s (by rw [writes]; decide) t h
  | clipComplete _ _ => exact execClipComplete_erase _ _ s (by rw [writes]; decide) t h
  | preEventReclaim _ => exact execPreEventReclaim_erase _ s (by rw [writes]; decide) t h
  | encoderAssay _ _ => exact execEncoderAssay_erase _ _ s (by rw [writes]; decide) t h
  | adaptationJobStart => exact execAdaptationJobStart_erase s (by rw [writes]; decide) t h
  | adaptationStepComplete _ => exact execAdaptationStepComplete_erase _ s (by rw [writes]; decide) t h
  | adaptationGate _ _ => exact execAdaptationGate_erase _ _ s (by rw [writes]; decide) t h
  | adoptionRetry => exact execAdoptionRetry_erase s (by rw [writes]; decide) t h
  | voidRestore _ _ => exact execVoidRestore_erase _ _ s (by rw [writes]; decide) t h
  | auditCopy _ _ _ _ => exact execAuditCopy_erase _ _ _ _ s (by rw [writes]; decide) t h
  | auditThirdRun _ _ _ _ => exact execAuditThirdRun_erase _ _ _ _ s (by rw [writes]; decide) t h
  | auditSeedReplace _ _ => exact execAuditSeedReplace_erase _ _ s (by rw [writes]; decide) t h
  | strikeExpiry _ => exact execStrikeExpiry_erase _ s (by rw [writes]; decide) t h
  | engineRetest _ => exact execEngineRetest_erase _ s (by rw [writes]; decide) t h
  | engineAssayComplete _ => exact execEngineAssayComplete_erase _ s (by rw [writes]; decide) t h
  | engineRotation _ => exact execEngineRotation_erase _ s (by rw [writes]; decide) t h
  | decodeRotation => exact execDecodeRotation_erase s (by rw [writes]; decide) t h
  | decodeAssayComplete _ _ => exact execDecodeAssayComplete_erase _ _ s (by rw [writes]; decide) t h
  | engineHandoverCopyComplete _ _ => exact execEngineHandoverCopyComplete_erase _ _ s (by rw [writes]; decide) t h
  | handoverNoAnswer _ => exact execHandoverNoAnswer_erase _ s (by rw [writes]; decide) t h
  | supplyMonitorFault _ _ => exact execSupplyMonitorFault_erase _ _ s (by rw [writes]; decide) t h
  | chipFatal _ _ => exact execChipFatal_erase _ _ s (by rw [writes]; decide) t h
  | stopCutComplete => exact execStopCutComplete_erase s (by rw [writes]; decide) t h
  | zoneTensorComplete _ _ _ _ => exact execZoneTensorComplete_erase _ _ _ _ s (by rw [writes]; decide) t h
  | zoneEvalOutput _ => exact execZoneEvalOutput_erase _ s (by rw [writes]; decide) t h
  | zoneDeadline _ _ => exact execZoneDeadline_erase _ _ s (by rw [writes]; decide) t h
  | zonePeriodBoundary _ _ => exact execZonePeriodBoundary_erase _ _ s (by rw [writes]; decide) t h
  | zoneDecisionTimeout _ => exact execZoneDecisionTimeout_erase _ s (by rw [writes]; decide) t h
  | zoneHoldExpiry _ => exact execZoneHoldExpiry_erase _ s (by rw [writes]; decide) t h
  | safeHalfPeriod _ _ _ => exact execSafeHalfPeriod_erase _ _ _ s (by rw [writes]; decide) t h
  | panicLimit _ _ => exact execPanicLimit_erase _ _ s (by rw [writes]; decide) t h
  | dramRefresh _ _ _ => exact execDramRefresh_erase _ _ _ s (by rw [writes]; decide) t h
  | dramTempRead _ _ => exact execDramTempRead_erase _ _ s (by rw [writes]; decide) t h
  | dramRetrain _ _ _ _ _ => exact execDramRetrain_erase _ _ _ _ _ s (by rw [writes]; decide) t h
  | dramScrub _ _ _ => exact execDramScrub_erase _ _ _ s (by rw [writes]; decide) t h
  | regionScrub _ _ _ => exact execRegionScrub_erase _ _ _ s (by rw [writes]; decide) t h
  | softRepair _ _ => exact execSoftRepair_erase _ _ s (by rw [writes]; decide) t h
  | softRepairComplete _ _ => exact execSoftRepairComplete_erase _ _ s (by rw [writes]; decide) t h
  | journalRingDeliver _ => exact execJournalRingDeliver_erase _ s (by rw [writes]; decide) t h
  | journalIntModeration => exact execJournalIntModeration_erase s (by rw [writes]; decide) t h
  | hostReadFailure _ => exact execHostReadFailure_erase _ s (by rw [writes]; decide) t h
  | atsInvalidation _ _ => exact execAtsInvalidation_erase _ _ s (by rw [writes]; decide) t h
  | atsInvalidationComplete => exact execAtsInvalidationComplete_erase s (by rw [writes]; decide) t h
  | endpointReset _ => exact execEndpointReset_erase _ s (by rw [writes]; decide) t h
  | pcieLinkUp _ _ => exact execPcieLinkUp_erase _ _ s (by rw [writes]; decide) t h
  | d3hotEntry => exact execD3hotEntry_erase s (by rw [writes]; decide) t h
  | d0Return => exact execD0Return_erase s (by rw [writes]; decide) t h
  | bar2Write _ _ => exact execBar2Write_erase _ _ s (by rw [writes]; decide) t h
  | bar2Read _ _ => exact execBar2Read_erase _ _ s (by rw [writes]; decide) t h
  | cmdRingCtrlWrite _ => exact execCmdRingCtrlWrite_erase _ s (by rw [writes]; decide) t h
  | jrnlRingCtrlWrite _ => exact execJrnlRingCtrlWrite_erase _ s (by rw [writes]; decide) t h
  | netLinkChange _ _ _ _ => exact execNetLinkChange_erase _ _ _ _ s (by rw [writes]; decide) t h
  | heartbeatSend _ => exact execHeartbeatSend_erase _ s (by rw [writes]; decide) t h
  | sanorHeartbeat _ _ => exact execSanorHeartbeat_erase _ _ s (by rw [writes]; decide) t h
  | peerLost _ => exact execPeerLost_erase _ s (by rw [writes]; decide) t h
  | failoverRelease _ => exact execFailoverRelease_erase _ s (by rw [writes]; decide) t h
  | sanorAck _ _ => exact execSanorAck_erase _ _ s (by rw [writes]; decide) t h
  | sanorAckDue _ => exact execSanorAckDue_erase _ s (by rw [writes]; decide) t h
  | sanorRetransmit _ _ => exact execSanorRetransmit_erase _ _ s (by rw [writes]; decide) t h
  | sanorHandover d seq context embedding peerStream => exact execSanorHandover_erase d seq context embedding peerStream s (by rw [writes]; decide) t h
  | sanorHandoverAck _ _ _ _ _ => exact execSanorHandoverAck_erase _ _ _ _ _ s (by rw [writes]; decide) t h
  | handoverTimeout _ => exact execHandoverTimeout_erase _ s (by rw [writes]; decide) t h
  | sanorCloseCopy _ _ _ => exact execSanorCloseCopy_erase _ _ _ s (by rw [writes]; decide) t h
  | sanorQuery _ _ _ _ _ _ => exact execSanorQuery_erase _ _ _ _ _ _ s (by rw [writes]; decide) t h
  | sanorResult _ _ _ _ => exact execSanorResult_erase _ _ _ _ s (by rw [writes]; decide) t h
  | peerQueryTimeout _ => exact execPeerQueryTimeout_erase _ s (by rw [writes]; decide) t h
  | sanorReplica _ _ _ _ _ _ _ => exact execSanorReplica_erase _ _ _ _ _ _ _ s (by rw [writes]; decide) t h
  | exportDatagramSend _ => exact execExportDatagramSend_erase _ s (by rw [writes]; decide) t h
  | challenge _ => exact execChallenge_erase _ s (by rw [writes]; decide) t h
  | unlock => exact execUnlock_erase s (by rw [writes]; decide) t h
  | lock => exact execLock_erase s (by rw [writes]; decide) t h
  | attest => exact execAttest_erase s (by rw [writes]; decide) t h
  | attestComplete _ => exact execAttestComplete_erase _ s (by rw [writes]; decide) t h
  | programKey _ => exact execProgramKey_erase _ s (by rw [writes]; decide) t h
  | deploy => exact execDeploy_erase s (by rw [writes]; decide) t h
  | returnDevice => exact execReturnDevice_erase s (by rw [writes]; decide) t h
  | provisioning _ _ _ _ _ => exact execProvisioning_erase _ _ _ _ _ s (by rw [writes]; decide) t h
  | bottomTreeReady => exact execBottomTreeReady_erase s (by rw [writes]; decide) t h
  | unlockExpiry => exact execUnlockExpiry_erase s (by rw [writes]; decide) t h
  | challengeExpiry => exact execChallengeExpiry_erase s (by rw [writes]; decide) t h
  | traceCtrlWrite src value => exact execTraceCtrlWrite_erase src value s (by rw [writes]; decide) t h
  | traceBufferFlush _ _ => exact execTraceBufferFlush_erase _ _ s (by rw [writes]; decide) t h
  | arm _ _ => exact execArm_erase _ _ s (by rw [writes]; decide) t h
  | disarm _ _ => exact execDisarm_erase _ _ s (by rw [writes]; decide) t h
  | watchCopyComplete _ _ _ _ => exact execWatchCopyComplete_erase _ _ _ _ s (by rw [writes]; decide) t h
  | halt => exact execHalt_erase s (by rw [writes]; decide) t h
  | haltImmediate => exact execHaltImmediate_erase s (by rw [writes]; decide) t h
  | releaseHalt => exact execReleaseHalt_erase s (by rw [writes]; decide) t h
  | obsSelWrite src value => exact execObsSelWrite_erase src value s (by rw [writes]; decide) t h
  | jtagInstruction _ => exact execJtagInstruction_erase _ s (by rw [writes]; decide) t h
  | referenceClockLoss _ => exact execReferenceClockLoss_erase _ s (by rw [writes]; decide) t h
  | referenceClockReturn _ => exact execReferenceClockReturn_erase _ s (by rw [writes]; decide) t h
  | powerCapTick _ _ _ => exact execPowerCapTick_erase _ _ _ s (by rw [writes]; decide) t h
  | droopDetected _ => exact execDroopDetected_erase _ s (by rw [writes]; decide) t h
  | droopHoldEnd _ => exact execDroopHoldEnd_erase _ s (by rw [writes]; decide) t h
  | overLimitTemp _ _ => exact execOverLimitTemp_erase _ _ s (by rw [writes]; decide) t h
  | thermalTrip => exact execThermalTrip_erase s (by rw [writes]; decide) t h
  | gpioPulseEnd _ => exact execGpioPulseEnd_erase _ s (by rw [writes]; decide) t h
  | smbusSetOffset _ _ => exact execSmbusSetOffset_erase _ _ s (by rw [writes]; decide) t h
  | smbusWrite _ _ => exact execSmbusWrite_erase _ _ s (by rw [writes]; decide) t h
  | smbusRead _ => exact execSmbusRead_erase _ s (by rw [writes]; decide) t h
  | smbusTimeout => exact execSmbusTimeout_erase s (by rw [writes]; decide) t h
  | smbusAlertResponse => exact execSmbusAlertResponse_erase s (by rw [writes]; decide) t h
  | passbookUpdate => exact execPassbookUpdate_erase s (by rw [writes]; decide) t h
  | sliceNominalEnd _ => exact execSliceNominalEnd_erase _ s (by rw [writes]; decide) t h
  | configurationWrite _ => exact execConfigurationWrite_erase _ s (by rw [writes]; decide) t h
  | testLogicReset => exact execTestLogicReset_erase s (by rw [writes]; decide) t h
  | flashWriteComplete => exact execFlashWriteComplete_erase s (by rw [writes]; decide) t h


section
variable {c : Instr} {s t : State} (h : exec c s = .next t)
include h

theorem exec_keeps_cfg (hp : .cfg ∉ writes c) : t.cfg = s.cfg :=
  keeps_cfg (exec_erase h) ((testBit_partsMask _ .cfg).trans (decide_eq_false hp))

theorem exec_keeps_phase (hp : .phase ∉ writes c) : t.phase = s.phase :=
  keeps_phase (exec_erase h) ((testBit_partsMask _ .phase).trans (decide_eq_false hp))

theorem exec_keeps_fuses (hp : .fuses ∉ writes c) : t.fuses = s.fuses :=
  keeps_fuses (exec_erase h) ((testBit_partsMask _ .fuses).trans (decide_eq_false hp))

end

end Sys2Proof.Machine

/-! The configuration, the safe state and the fuses (02 R71, R73, 14 R434, 19 R551): which commands may write the configuration, and why
nothing but a reset leaves the safe state. -/

namespace Sys2Proof.Machine

/-- 02 R71: the commands that an epoch instant may pass in, the start and the resets. -/
theorem cfg_mem_writes {c : Instr} (h : .cfg ∈ writes c) :
    c = .epochInstant ∨ c = .stationTimeStep ∨ c = .timeinPulse ∨ (∃ p a b w o k r, c = .ptpSync p a b w o k r)
      ∨ (∃ p a b o k, c = .ptpFollowUp p a b o k) ∨ (∃ d, c = .rtpDatagram d) ∨ (∃ n k, c = .pushPayloadComplete n k)
      ∨ (∃ rs, c = .bootAssayComplete rs) ∨ (∃ w, c = .resetAssert w) ∨ c = .pwrgoodFall ∨ c = .rebootReset := by
  cases c with
  | epochInstant | stationTimeStep | timeinPulse | ptpSync | ptpFollowUp | rtpDatagram | pushPayloadComplete | bootAssayComplete
  | resetAssert | pwrgoodFall | rebootReset => simp
  | _ => exact absurd h (by rw [writes]; decide)

/-! ## The safe state -/

theorem next_safe {u t : State} (h : (.next u : Out) = .next t) (hu : u.phase = .safe) : t.phase = .safe := by
  rw [← Host.Outcome.next.inj h]
  exact hu

theorem ite_safe {c : Prop} [Decidable c] {a b : State} (ha : a.phase = .safe) (hb : b.phase = .safe) :
    (if c then a else b).phase = .safe := by
  split
  · exact ha
  · exact hb

theorem next_ite_safe {c : Prop} [Decidable c] {a b : Out} (ha : ∀ t, a = .next t → t.phase = .safe)
    (hb : ∀ t, b = .next t → t.phase = .safe) (t : State) (h : (if c then a else b) = .next t) : t.phase = .safe := by
  split at h
  · exact ha t h
  · exact hb t h

section
variable {s : State} (hsafe : s.phase = .safe)
include hsafe

theorem running_of_safe : s.running = false := by rw [State.running, hsafe]; rfl

/-- 14 R434: a device in the safe state enters it no second time. -/
theorem chipFatal_of_safe (source p : Nat) : chipFatal s source p = s := by rw [chipFatal, if_pos (Or.inr hsafe)]

theorem markRow_safe (n row : Nat) : (markRow s n row).phase = .safe := by
  simp only [markRow, chipFatal_of_safe hsafe, apply_ite State.phase, State.modDram_phase, hsafe, ite_self]

theorem countRow_safe (n row : Nat) : (countRow s n row).phase = .safe := by
  simp only [countRow]
  split
  · exact markRow_safe (by rw [State.modDram_phase, hsafe]) n row
  · rw [State.modDram_phase, hsafe]

theorem corrected_safe (source p : Nat) : (s.corrected source p).phase = .safe :=
  (keeps_phase (s.corrected_erase source p _ (Nat.and_self _)) rfl).trans hsafe

theorem voidRange_safe (a n : Nat) : (s.voidRange a n).phase = .safe :=
  (keeps_phase (s.voidRange_erase a n (Nat.and_self _)) rfl).trans hsafe

theorem dramRead_safe (a : Nat) (onDie : Bool) (ecc : Secded) : (dramRead s a onDie ecc).phase = .safe := by
  have hread : (if onDie then s.modDram (stackOf a) fun x => { x with odecc := x.odecc + 1 } else s).phase = .safe := by
    split
    · rw [State.modDram_phase, hsafe]
    · exact hsafe
  unfold dramRead
  extract_lets n row s1
  have h1 : s1.phase = .safe := hread
  split
  · exact hsafe
  · cases ecc with
    | clean =>
      dsimp only
      split
      · exact countRow_safe (corrected_safe h1 _ _) _ _
      · exact h1
    | single => exact countRow_safe (corrected_safe (by rw [State.modDram_phase, h1]) _ _) _ _
    | uncorrectable => exact markRow_safe (by rw [State.contained_phase, State.modDram_phase, voidRange_safe h1]) _ _

/-- An access through a port may lose a stack, which is fatal, but not twice. -/
theorem perform_safe (op : MemOp) (parity : Bool) (p : Nat) : (perform s op parity p).phase = .safe := by
  cases op with
  | idle => exact hsafe
  | read a n onDie ecc dest =>
    have hread (m : Option Nat) : (match m with
        | some x => if inDram x n then dramRead s x onDie ecc else if inDeviceMemory x n then dieRead s x p ecc else s
        | none => s).phase = .safe := by
      split
      · split
        · exact dramRead_safe hsafe _ onDie ecc
        · split
          · exact (keeps_phase (dieRead_erase _ _ _ _ (Nat.and_self _)) rfl).trans hsafe
          · exact hsafe
      · exact hsafe
    have hvoid (u : State) (hu : u.phase = .safe) (m : Option Nat) : (match m with
        | some d => if inDeviceMemory d n then u.voidRange d n else u
        | none => u).phase = .safe := by
      split
      · split
        · exact voidRange_safe hu _ n
        · exact hu
      · exact hu
    simp only [perform]
    split
    · rw [State.contained_phase]
      exact hvoid _ (hread _) _
    · exact hread _
  | write a bytes mark =>
    have hwrite (m : Option Nat) : (match m with
        | some x => if inDeviceMemory x bytes.length then s.store x bytes (mark || parity) else s
        | none => s).phase = .safe := by
      split
      · split
        · exact hsafe
        · exact hsafe
      · exact hsafe
    simp only [perform]
    split
    · rw [State.contained_phase]
      exact hwrite _
    · exact hwrite _

theorem retrainCount_safe (n k : Nat) (failed : Bool) : (retrainCount s n k failed).phase = .safe := by
  unfold retrainCount
  extract_lets c s1
  have h1 : s1.phase = .safe := hsafe
  split
  · exact h1
  · rw [chipFatal_of_safe (by rw [State.modDram_phase, h1]), State.modDram_phase, h1]

theorem loseBridge_safe (b : Nat) : (loseBridge s b).phase = .safe := by
  simp only [loseBridge]
  split
  · rw [State.fenceEvent_phase, State.modBridge_phase, hsafe]
  · rw [chipFatal_of_safe (by rw [State.modBridge_phase, hsafe]), State.modBridge_phase, hsafe]

end

/-! ## Register writes -/

/-- What a register outside the settlement block writes: neither the phase nor memory. -/
theorem writeReg_plain_erase (s : State) (via : Src) {off : Nat} (v : Nat) (hplain : ∀ b, blockOf off = some b → b.1 ≠ 0x0E) :
    (writeReg s via off v).erase 0x1042cb6a4fe3c = s.erase 0x1042cb6a4fe3c := by
  rw [writeReg]
  split
  · rfl
  next code inst base len hb =>
    simp only [show code ≠ 0x0E from hplain _ hb, if_false]
    exact erase_ite (writeChp_erase _ _ _ (by decide)) (erase_ite (writeEng_erase _ _ _ _ (by decide))
      (erase_ite (writePci_erase _ _ _ (by decide)) (erase_ite (writeTim_erase _ _ _ (by decide))
      (erase_ite (writeSec_erase _ _ _ (by decide)) (erase_ite (writeDbg_erase _ _ _ (by decide))
      (erase_ite (erase_ite (writeObsSel_erase _ _ (by decide)) rfl) rfl))))))

section
variable {s : State} (hsafe : s.phase = .safe)
include hsafe

theorem exec_safe_of_plain {c : Instr} {t : State} (h : exec c s = .next t) (hp : .phase ∉ writes c) : t.phase = .safe :=
  (exec_keeps_phase h hp).trans hsafe

theorem stlReject_safe (page : Src) (op : Nat) : (s.stlReject page op).phase = .safe :=
  (keeps_phase (s.stlReject_erase page op (Nat.and_self _)) rfl).trans hsafe

/-- 02 R82: in the safe state a page takes only REBOOT. -/
theorem stlBarred_of_safe (page via : Src) {op : Nat} (hop : op ≠ 0x13) : stlBarred s page via op = true := by
  simp [stlBarred, hsafe, hop]

theorem exec_charterUpdate_safe {page via : Src} {t : State} (h : exec (.charterUpdate page via) s = .next t) : t.phase = .safe := by
  change execCharterUpdate page via s = _ at h
  rw [execCharterUpdate, done, stlCommand_of_barred (by rw [hsafe]; decide) _ (stlBarred_of_safe hsafe page via (by decide))] at h
  cases h
  exact stlReject_safe hsafe page 0x12

theorem after_safe {o : Out} (h : ∀ t, o = .next t → t.phase = .safe) : (after s o).phase = .safe := by
  cases o with
  | next t => exact h t rfl
  | fault _ | refused _ => exact hsafe

theorem stlCommand_unknown_safe (page via : Src) (op status : Nat) :
    (stlCommand s page via op fun t => t.pageDone page status).phase = .safe := by
  rw [stlCommand]
  split
  · exact hsafe
  · split
    · exact stlReject_safe hsafe page op
    · exact (keeps_phase (s.pageDone_erase _ _ _ _ (Nat.and_self _)) rfl).trans hsafe

theorem writeStlCmd_safe (page via : Src) (v : Nat) : (writeStlCmd s page via v).phase = .safe := by
  have hplain (c : Instr) (hp : .phase ∉ writes c) (t : State) (h : exec c s = .next t) : t.phase = .safe :=
    exec_safe_of_plain hsafe h hp
  unfold writeStlCmd
  extract_lets op n
  refine after_safe hsafe ?_
  refine next_ite_safe (hplain (.stlOpen page via) (by rw [writes]; decide)) ?_
  refine next_ite_safe (hplain (.stlStage page via n) (by rw [writes]; decide)) ?_
  refine next_ite_safe (hplain (.stlCheck page via) (by rw [writes]; decide)) ?_
  refine next_ite_safe (hplain (.commitAtTime page via) (by rw [writes]; decide)) ?_
  refine next_ite_safe (hplain (.commitAtEvent page via) (by rw [writes]; decide)) ?_
  refine next_ite_safe (hplain (.stlAbort page via) (by rw [writes]; decide)) ?_
  refine next_ite_safe (hplain (.stlDiscard page via) (by rw [writes]; decide)) ?_
  refine next_ite_safe (hplain (.flashProgram page via n) (by rw [writes]; decide)) ?_
  refine next_ite_safe (hplain (.verifySlot page via n) (by rw [writes]; decide)) ?_
  refine next_ite_safe (fun t h => exec_charterUpdate_safe hsafe h) ?_
  refine next_ite_safe (hplain (.reboot page via n) (by rw [writes]; decide)) fun t h => ?_
  rw [← Host.Outcome.next.inj h]
  exact stlCommand_unknown_safe hsafe page via op stRANGE

theorem writeStl_safe (via : Src) (o v : Nat) : (writeStl s via o v).phase = .safe := by
  have hpage (src : Src) (p : Page) : (s.setPage src p).phase = .safe := (State.setPage_phase s src p).trans hsafe
  unfold writeStl
  split
  · exact hsafe
  · extract_lets p r
    split_ifs
    · exact writeStlCmd_safe hsafe _ via v
    · exact hpage _ _
    · exact hpage _ _
    · exact hpage _ _
    · exact hpage _ _
    · exact hsafe

theorem writeReg_safe (via : Src) (off v : Nat) : (writeReg s via off v).phase = .safe := by
  by_cases hplain : ∀ b, blockOf off = some b → b.1 ≠ 0x0E
  · exact (keeps_phase (writeReg_plain_erase s via v hplain) rfl).trans hsafe
  · push Not at hplain
    obtain ⟨⟨code, inst, base, len⟩, hb, rfl⟩ := hplain
    simp only [writeReg, hb]
    exact writeStl_safe hsafe via (off - base) v

theorem writeWordsOf_safe (via : Src) (ws : List (Nat × Nat)) : (writeWordsOf via s ws).phase = .safe := by
  unfold writeWordsOf
  split
  · split
    · exact writeReg_safe hsafe via _ _
    · exact writeReg_safe hsafe via _ _
  · split
    · exact writeReg_safe hsafe via _ _
    · exact hsafe
  · exact hsafe

theorem regWrite_safe (src : Src) (off width v : Nat) : (regWrite s src off width v).phase = .safe := by
  unfold regWrite
  split
  · exact hsafe
  · extract_lets ws shown s1
    split
    · exact hsafe
    · refine writeWordsOf_safe ?_ src shown
      change (if shown.length = ws.length then s else s.countIgnored).phase = .safe
      split
      · exact hsafe
      · exact hsafe

/-! ## The commands -/

theorem exec_chipArbGrant_safe {port : Nat} {reqs : List ArbReq} {parity : Bool} {t : State}
    (h : exec (.chipArbGrant port reqs parity) s = .next t) : t.phase = .safe := by
  have hnoted : (reqs.foldl (fun a r => match (opStack r.op) with
      | some n => notePanic a n r.who (portPanic s n reqs r)
      | none => a) s).phase = .safe := by
    refine (foldl_keeps State.phase (fun a r => ?_) reqs s).trans hsafe
    split
    · exact keeps_phase (notePanic_erase _ _ _ _ (Nat.and_self _)) rfl
    · rfl
  refine next_safe h (ite_safe hsafe ?_)
  extract_lets s1 a urgent aged pick
  have h1 : s1.phase = .safe := hnoted
  clear_value pick
  split
  · rw [State.setArb_phase, h1]
  · exact perform_safe (by rw [State.setArb_phase, h1]) _ parity 0xFF

theorem exec_regionXbarGrant_safe {g port : Nat} {reqs : List ArbReq} {parity : Bool} {t : State}
    (h : exec (.regionXbarGrant g port reqs parity) s = .next t) : t.phase = .safe := by
  refine next_safe h (ite_safe hsafe ?_)
  extract_lets k a aged
  split
  · rw [State.setArb_phase, hsafe]
  · exact perform_safe (by rw [State.setArb_phase, hsafe]) _ parity g

theorem exec_dramRetrain_safe {n channel lanes : Nat} {failed0 failed1 : Bool} {t : State}
    (h : exec (.dramRetrain n channel lanes failed0 failed1) s = .next t) : t.phase = .safe := by
  refine next_safe h (ite_safe ?_ hsafe)
  extract_lets s1 s2
  have h2 : s2.phase = .safe :=
    (foldl_keeps State.phase (fun a _ => a.fenceEvent_phase _ _ _) (List.range lanes) s1).trans hsafe
  exact retrainCount_safe (retrainCount_safe h2 n _ failed0) n _ failed1

theorem exec_referenceClockLoss_safe {clk : RefClock} {t : State} (h : exec (.referenceClockLoss clk) s = .next t) :
    t.phase = .safe := by
  refine next_safe h (ite_safe hsafe ?_)
  cases clk with
  | sysclk25 => rw [chipFatal_of_safe hsafe, hsafe]
  | pcie => exact ite_safe ((keeps_phase (endpointReset_erase _ _ (Nat.and_self _)) rfl).trans hsafe) hsafe
  | ethernet => exact (keeps_phase (bothPortsDown_erase _ (Nat.and_self _)) rfl).trans hsafe

theorem exec_thermalTrip_safe {t : State} (h : exec .thermalTrip s = .next t) : t.phase = .safe := by
  refine next_safe h (ite_safe hsafe ?_)
  rw [chipFatal_of_safe (by exact hsafe)]
  exact hsafe

/-- Every command but a reset that may write the phase leaves the safe state as it is: what needs the running or the starting
device does nothing, and a chip-fatal error is one already. -/
theorem exec_safe {c : Instr} {t : State} (h : exec c s = .next t) (hassert : ∀ w, c ≠ .resetAssert w) (hfall : c ≠ .pwrgoodFall)
    (hreboot : c ≠ .rebootReset) : t.phase = .safe := by
  have hfatal (u : State) (hu : u.phase = .safe) (source p : Nat) : (chipFatal u source p).phase = .safe := by
    rw [chipFatal_of_safe hu, hu]
  have hstopped : s.running = false := running_of_safe hsafe
  cases c with
  | resetAssert w => exact absurd rfl (hassert w)
  | pwrgoodFall => exact absurd rfl hfall
  | rebootReset => exact absurd rfl hreboot
  | registerWrite src off width v => exact next_safe h (ite_safe hsafe (regWrite_safe hsafe src off width v.toNat))
  | smbusWrite bytes pec => exact next_safe h (ite_safe hsafe (ite_safe (regWrite_safe hsafe .smbus _ _ _) hsafe))
  | charterUpdate page via => exact exec_charterUpdate_safe hsafe h
  | bridgeLost b => exact next_safe h (ite_safe (loseBridge_safe hsafe b) hsafe)
  | bridgeHalfWidth l =>
    have hhalf : ((s.modBridge l.bridge fun y => { y with half := true }).fenceEvent { source := srcLane, unit := l.bridge } stOK).phase
        = .safe := by rw [State.fenceEvent_phase, State.modBridge_phase, hsafe]
    exact next_safe h (ite_safe (ite_safe (loseBridge_safe hsafe l.bridge) hhalf) hsafe)
  | chipArbGrant port reqs parity => exact exec_chipArbGrant_safe hsafe h
  | regionXbarGrant g port reqs parity => exact exec_regionXbarGrant_safe hsafe h
  | dramScrub addr onDie ecc => exact next_safe h (ite_safe (dramRead_safe hsafe addr onDie ecc) hsafe)
  | dramRetrain n channel lanes failed0 failed1 => exact exec_dramRetrain_safe hsafe h
  | supplyMonitorFault selfCheck p => exact next_safe h (hfatal s hsafe _ p)
  | chipFatal source p => exact next_safe h (hfatal s hsafe source p)
  | thermalTrip => exact exec_thermalTrip_safe hsafe h
  | referenceClockLoss clk => exact exec_referenceClockLoss_safe hsafe h
  | zonePeriodBoundary z ok => exact next_safe h (by rw [if_pos (by simp [State.mayBegin, hstopped]), hsafe])
  | bootStart straps => exact next_safe h (by rw [if_neg (by rw [hsafe]; decide), hsafe])
  | dramTrainingComplete ok0 ok1 => exact next_safe h (by rw [if_neg (by rw [hsafe]; simp), hsafe])
  | slotReadComplete => exact next_safe h (by rw [if_neg (by rw [hsafe]; simp), hsafe])
  | bootAssayComplete rs => exact next_safe h (by rw [if_neg (by rw [hsafe]; simp), hsafe])
  | chipWatchdogExpiry => exact next_safe h (by rw [if_neg (by rw [hsafe]; simp), hsafe])
  | rollingRestartNext agreed => exact next_safe h (by rw [if_neg (by simp [hstopped]), hsafe])
  | dmaComplete p => exact next_safe h (by rw [if_neg (by simp [hstopped]), hsafe])
  | hostReadFailure a => exact next_safe h (by rw [if_neg (by simp [hstopped]), hsafe])
  | _ => exact exec_safe_of_plain hsafe h (by rw [writes]; decide)

end

/-- Settles O7: the table of what a command may write for the configuration and the fuses, and `exec_safe` for the safe state. -/
theorem configurationSafeStateAndFusesStand : Obligations.ConfigurationSafeStateAndFusesStand := by
  refine ⟨fun c s t h hne => ?cfg, fun c s t h hsafe hne => ?safe, fun s t w h => ?fuses⟩
  case cfg => exact cfg_mem_writes (not_imp_comm.mp (exec_keeps_cfg h) hne)
  case safe =>
    by_contra hreset
    simp only [not_or, not_exists] at hreset
    obtain ⟨hassert, hfall, hreboot⟩ := hreset
    exact hne (exec_safe hsafe h hassert hfall hreboot)
  case fuses =>
    rcases h with h | h | h
    · exact exec_keeps_fuses h (by rw [writes]; decide)
    · exact exec_keeps_fuses h (by rw [writes]; decide)
    · exact exec_keeps_fuses h (by rw [writes]; decide)

end Sys2Proof.Machine

/-! Commands that leave memory outside a few places as it was (02 R83, R88, 04 R162, 17 R505): an epoch instant lays out the journal anew
and writes nothing else, a rolling restart stages nothing while the chip controller is still to restart, and of the registers only the
settlement block reaches memory. -/

namespace Sys2Proof.Machine

/-! ## The places of journal records -/

@[simp] theorem length_padTo (n : Nat) (bs : List Byte) : (padTo n bs).length = n := by
  simp [padTo]

/-- 04 R163: a record takes 128 bytes. -/
@[simp] theorem length_recordBytes (r : Rec) : (recordBytes r).length = 128 := by
  simp [recordBytes, recordBody]

/-- Memory changed at most at the places of records in the reserve that the new state has (16 R497). -/
def JournalOnly (s t : State) : Prop :=
  ∀ a, (∀ q, a < t.recordAddr q ∨ t.recordAddr q + 128 ≤ a) → t.byte a = s.byte a

theorem JournalOnly.refl (s : State) : JournalOnly s s := fun _ _ => rfl

theorem recordAddr_congr {s t : State} (hlayout : t.layout = s.layout) (hcfg : t.cfg = s.cfg) (q : Nat) :
    t.recordAddr q = s.recordAddr q := by
  rw [State.recordAddr, State.recordAddr, State.reserveSlots, State.reserveSlots, hlayout, hcfg]

/-- What a frame leaves of memory, the layout and the configuration leaves the places of records. -/
theorem JournalOnly.of_erase {s t u : State} {m : Nat} (h : JournalOnly s t) (he : u.erase m = t.erase m)
    (hm : (m.testBit 6 || m.testBit 7 || m.testBit 41) = false) : JournalOnly s u := by
  simp only [Bool.or_eq_false_iff] at hm
  obtain ⟨⟨hlayout, hcfg⟩, hmem⟩ := hm
  intro a ha
  have haddr := recordAddr_congr (keeps_layout he hlayout) (keeps_cfg he hcfg)
  rw [State.byte, keeps_mem he hmem, ← State.byte]
  exact h a fun q => haddr q ▸ ha q

theorem JournalOnly.of_mem {s s' t : State} (hm : s'.mem = s.mem) (h : JournalOnly s' t) : JournalOnly s t := fun a ha => by
  rw [h a ha, State.byte, hm, State.byte]

theorem store_recordAddr (s : State) (a : Nat) (bs : List Byte) (q : Nat) : (s.store a bs).recordAddr q = s.recordAddr q :=
  have he := s.store_erase a bs false (Nat.and_self _)
  recordAddr_congr (keeps_layout he rfl) (keeps_cfg he rfl) q

/-- The records of the reserve, each at its place. -/
theorem storeRecords_journalOnly (l : List Rec) (s : State) :
    JournalOnly s (l.foldl (fun a r => a.store (a.recordAddr r.seq) (recordBytes r)) s) := by
  intro a ha
  have hkept (q : Nat) : (l.foldl (fun a r => a.store (a.recordAddr r.seq) (recordBytes r)) s).recordAddr q = s.recordAddr q :=
    foldl_keeps (fun t : State => t.recordAddr q) (fun t r => store_recordAddr t _ _ q) l s
  simp only [hkept] at ha
  clear hkept
  induction l generalizing s with
  | nil => rfl
  | cons r l ih =>
    rw [List.foldl_cons, ih (s.store (s.recordAddr r.seq) (recordBytes r)) fun q => by rw [store_recordAddr]; exact ha q]
    exact s.store_byte_outside _ a _ false (by rw [length_recordBytes]; exact ha r.seq)

theorem resizeJournal_journalOnly (s : State) (old : Cfg) : JournalOnly s (resizeJournal s old) := by
  unfold resizeJournal
  split
  · exact .refl s
  · exact .of_mem (keeps_mem (reclaim_erase s _ (Nat.and_self _)) rfl) (storeRecords_journalOnly _ _)

/-! ## An epoch instant -/

theorem applyEpoch_journalOnly (s : State) (b : Batch) (at_ : Nat) : JournalOnly s (applyEpoch s b at_) := by
  have hzones (t : State) (old : Cfg) : (epochZones t old b at_).erase 0xa0000a04 = t.erase 0xa0000a04 := by
    rw [epochZones]
    split
    · exact applyZones_erase _ _ _ (by decide)
    · rfl
  rw [applyEpoch_eq]
  refine .of_erase (.of_erase (.of_mem ?_ (resizeJournal_journalOnly _ _)) (epochSettled_erase _ _) rfl) (hzones _ _) rfl
  rw [keeps_mem (epochTaken_erase _ _ _ _) rfl, State.putInForce_mem, State.setPage_mem]

theorem reachInstant_journalOnly (s : State) (b : Batch) (at_ : Nat) : JournalOnly s (reachInstant s b at_) :=
  .of_erase (applyEpoch_journalOnly s b at_) (drainIfEmpty_erase _ (Nat.and_self _)) rfl

theorem epochInstant_journalOnly (s : State) : JournalOnly s (epochInstant s) := by
  unfold epochInstant
  split
  · exact .refl s
  · split
    · exact .of_mem (State.atStation_mem s _) (reachInstant_journalOnly _ _ _)
    · exact .refl s

theorem fixEventInstant_journalOnly (s : State) (n tick : Nat) (rap : Rap) : JournalOnly s (fixEventInstant s n tick rap) := by
  unfold fixEventInstant
  split
  · exact .refl s
  · split
    · split
      · exact reachInstant_journalOnly s _ _
      · exact .refl s
    · exact .refl s

theorem preInstant_mem (s : State) : (preInstant s).mem = s.mem := keeps_mem (preInstant_erase s (Nat.and_self _)) rfl

theorem passInstant_journalOnly (s : State) : JournalOnly s (passInstant s) := by
  have hpre : JournalOnly s (preInstant s) := .of_mem (preInstant_mem s) (.refl _)
  unfold passInstant
  split
  · exact .refl s
  · split
    · split
      · dsimp only
        split
        · exact .of_mem (preInstant_mem s) (epochInstant_journalOnly _)
        · exact hpre
      · exact .refl s
    · exact .refl s

/-- 03 R102: a step of station time passes what fell in it, and of that only an instant writes memory. -/
theorem reachPassed_journalOnly (s : State) : JournalOnly s (reachPassed s) := by
  refine .of_erase (m := 0x1042aa7a4ff24) (passInstant_journalOnly s) ?_ rfl
  exact (passPictures_erase _ (by decide)).trans ((passDecisions_erase _ (by decide)).trans
    ((passDeadlines_erase _ (by decide)).trans (passDrain_erase _ (by decide))))

theorem withStep_journalOnly {s s1 : State} (h : s1.mem = s.mem) : JournalOnly s (withStep s s1) := by
  unfold withStep
  split
  · exact .of_mem h (reachPassed_journalOnly s1)
  · exact .of_mem h (.refl s1)

theorem takeDatagram_journalOnly (s : State) (n : Nat) (p : Rtp) : JournalOnly s (takeDatagram s n p) := by
  unfold takeDatagram
  extract_lets codec t rap s1
  split
  · exact .refl s
  · have hfixed : JournalOnly s s1 := by
      change JournalOnly s (if _ then _ else s)
      split
      · exact fixEventInstant_journalOnly s n _ rap
      · exact .refl s
    exact .of_erase (m := 0x1001806003800) hfixed ((dispatch_erase _ (by decide)).trans (holdPacket_erase _ _ _ _ _ _ _ (by decide))) rfl

theorem rtpDatagram_journalOnly (s : State) (d : Datagram) : JournalOnly s (rtpDatagram s d) := by
  have hcount (f : NetPort → NetPort) : JournalOnly s (s.modNet d.port f) := .of_mem rfl (.refl _)
  unfold rtpDatagram
  split_ifs
  · exact hcount _
  · exact .refl s
  · exact hcount _
  · exact .refl s
  · split
    · exact .of_mem rfl (.refl _)
    · split
      · exact .of_mem rfl (.refl _)
      · split
        · exact takeDatagram_journalOnly s _ _
        · exact .refl s

/-! ## A rolling restart -/

/-- With the chip controller still to restart no tables are staged (02 R88). -/
theorem advanceUpdate_mem_of_chip {s : State} {u : Update} (hchip : .chip ∈ u.todo) : (advanceUpdate s u).mem = s.mem := by
  rw [advanceUpdate_eq]
  split
  next hdone => exact absurd (hdone ▸ List.mem_filter.mpr ⟨hchip, rfl⟩) List.not_mem_nil
  next c r _ =>
    rw [keeps_mem (restartController_erase _ c (Nat.and_self _)) rfl, State.withUpdate_mem]

theorem rollNext_mem {s : State} {agreed : Bool} (hupdate : ∀ u, s.stl.update = some u → u.settled = true ∨ .chip ∈ u.todo) :
    (rollNext s agreed).mem = s.mem := by
  unfold rollNext
  split
  next _ _ u hu =>
    split
    · rfl
    next hgo =>
      have hopen : u.settled = false := by
        by_contra h
        simp [h] at hgo
      rw [advanceUpdate_mem_of_chip ((hupdate u hu).resolve_left (by simp [hopen]))]
      split
      · rfl
      · exact keeps_mem (s.atElapsed_erase _ (Nat.and_self _)) rfl
  · extract_lets regions
    split
    · exact keeps_mem (restartController_erase _ _ (Nat.and_self _)) rfl
    · rfl
  · rfl

/-! ## Register writes -/

theorem registerBlocks_settlement : ∀ b ∈ registerBlocks, b.1 = 0x0E → b.2.2.1 = 0x50000 ∧ b.2.2.2 = 0x1000 := by decide

/-- Offsets outside the settlement block belong to other blocks. -/
theorem blockOf_outside {off : Nat} (h : off < 0x50000 ∨ 0x51000 ≤ off) : ∀ b, blockOf off = some b → b.1 ≠ 0x0E := by
  intro b hb hcode
  obtain ⟨hbase, hlen⟩ := registerBlocks_settlement b (List.mem_of_find?_eq_some hb) hcode
  have hin := List.find?_some hb
  simp only [Bool.and_eq_true, decide_eq_true_eq, hbase, hlen] at hin
  omega

theorem writeReg_mem_outside (s : State) (via : Src) {off : Nat} (v : Nat) (h : off < 0x50000 ∨ 0x51000 ≤ off) :
    (writeReg s via off v).mem = s.mem := keeps_mem (writeReg_plain_erase s via v (blockOf_outside h)) rfl

theorem writeWordsOf_mem_outside (s : State) (via : Src) {ws : List (Nat × Nat)}
    (h : ∀ w ∈ ws, w.1 < 0x50000 ∨ 0x51000 ≤ w.1) : (writeWordsOf via s ws).mem = s.mem := by
  unfold writeWordsOf
  split
  next a v =>
    have ha := h (a, v) (by simp)
    have hbase : a / 8 * 8 < 0x50000 ∨ 0x51000 ≤ a / 8 * 8 := by dsimp only at ha; omega
    dsimp only
    split
    · exact writeReg_mem_outside s via _ hbase
    · exact writeReg_mem_outside s via _ hbase
  next a v b w =>
    split
    · exact writeReg_mem_outside s via _ (h (a, v) (by simp))
    · rfl
  · rfl

theorem regWrite_mem_outside {s : State} {src : Src} {off width v : Nat} (h : outsideSettlement s src off width v) :
    (regWrite s src off width v).mem = s.mem := by
  unfold regWrite
  split
  · rfl
  · extract_lets ws shown s1
    split
    · rfl
    · have hshown : ∀ w ∈ shown, w.1 < 0x50000 ∨ 0x51000 ≤ w.1 := by
        intro w hw
        obtain ⟨x, hx, hxw⟩ := List.mem_filterMap.mp hw
        obtain ⟨_ | o, d⟩ := x
        · cases hxw
        · obtain ⟨-, heq⟩ := Option.ite_none_right_eq_some.mp hxw
          rw [← Option.some.inj heq]
          exact h _ hx o rfl
      rw [writeWordsOf_mem_outside s1 src hshown]
      change (if shown.length = ws.length then s else s.countIgnored).mem = s.mem
      split
      · rfl
      · rfl

/-! ## The commands -/

theorem byte_of_mem {s t : State} (h : t.mem = s.mem) (a : Nat) : t.byte a = s.byte a := by rw [State.byte, h, State.byte]

theorem ite_journalOnly {c : Prop} [Decidable c] {s u : State} (h : JournalOnly s u) : JournalOnly s (if c then u else s) := by
  split
  · exact h
  · exact .refl s

theorem keepsOutsideJournal_of_next {c : Instr} {f : State → State} (hexec : ∀ s, exec c s = .next (f s))
    (h : ∀ s, JournalOnly s (f s)) : KeepsOutsideJournal c := fun s t a ht ha => by
  obtain rfl := Host.Outcome.next.inj ((hexec s).symm.trans ht)
  exact h s a ha

theorem exec_rtpDatagram_journalOnly (d : Datagram) : KeepsOutsideJournal (.rtpDatagram d) :=
  keepsOutsideJournal_of_next (fun _ => rfl) fun s => ite_journalOnly (rtpDatagram_journalOnly s d)

theorem exec_ptpSync_journalOnly (port domain sender : Nat) (twoStep : Bool) (origin correction rxMac : Int) :
    KeepsOutsideJournal (.ptpSync port domain sender twoStep origin correction rxMac) :=
  keepsOutsideJournal_of_next (fun _ => rfl) fun s =>
    ite_journalOnly (withStep_journalOnly (keeps_mem (syncReceived_erase s _ _ _ _ _ _ _ (Nat.and_self _)) rfl))

theorem exec_ptpFollowUp_journalOnly (port domain sender : Nat) (origin correction : Int) :
    KeepsOutsideJournal (.ptpFollowUp port domain sender origin correction) :=
  keepsOutsideJournal_of_next (fun _ => rfl) fun s =>
    ite_journalOnly (withStep_journalOnly (keeps_mem (followUpReceived_erase s _ _ _ _ _ (Nat.and_self _)) rfl))

theorem exec_timeinPulse_journalOnly : KeepsOutsideJournal .timeinPulse := by
  refine keepsOutsideJournal_of_next (fun _ => rfl) fun s => ite_journalOnly (withStep_journalOnly ?_)
  split
  · exact keeps_mem (pulseTaken_erase s (Nat.and_self _)) rfl
  · exact keeps_mem (pulseRejected_erase s (Nat.and_self _)) rfl

theorem exec_stationTimeStep_journalOnly : KeepsOutsideJournal .stationTimeStep := by
  refine keepsOutsideJournal_of_next (fun _ => rfl) fun s => ?_
  split
  · exact .refl s
  · split
    · exact .refl s
    · extract_lets s1 before s2
      refine .of_mem ?_ (reachPassed_journalOnly _)
      rw [keeps_mem (State.timRecord_erase _ _ _ _ _ (Nat.and_self _)) rfl, keeps_mem (State.fixQuality_erase _ (Nat.and_self _)) rfl]
      exact keeps_mem (s.atElapsed_erase _ (Nat.and_self _)) rfl

/-- Settles O8: what an epoch instant writes by `applyEpoch_journalOnly`, a rolling restart by `rollNext_mem`, and a register access by
`regWrite_mem_outside`. -/
theorem memoryOutsideIsKept : Obligations.MemoryOutsideIsKept := by
  refine ⟨exec_ptpSync_journalOnly, exec_ptpFollowUp_journalOnly, exec_timeinPulse_journalOnly, exec_stationTimeStep_journalOnly,
    exec_rtpDatagram_journalOnly, fun s t agreed h hupdate a => ?rolling, fun s t src off width v h hout a => ?register,
    fun s t bytes pec h hout a => ?smbus⟩
  case rolling =>
    obtain rfl := Host.Outcome.next.inj h
    refine byte_of_mem ?_ a
    split
    · exact rollNext_mem hupdate
    · rfl
  case register =>
    obtain rfl := Host.Outcome.next.inj h
    refine byte_of_mem ?_ a
    split
    · rfl
    · exact regWrite_mem_outside hout
  case smbus =>
    obtain rfl := Host.Outcome.next.inj h
    refine byte_of_mem ?_ a
    split
    · rfl
    · split
      · exact regWrite_mem_outside hout
      · rfl

end Sys2Proof.Machine

/-! The queue of waiting commands (log entry 1): a step takes its front, and no command writes it. -/

namespace Sys2Proof.Machine

/-- No command is given the queue to write: the table of what each may write never names it. -/
theorem pending_notMem_writes (c : Instr) : .pending ∉ writes c := by
  cases c <;> (rw [writes]; decide)

/-- A command takes nothing from the queue and adds nothing to it. -/
theorem exec_keeps_pending {c : Instr} {s t : State} (h : exec c s = .next t) : t.pending = s.pending :=
  keeps_pending (exec_erase h) ((testBit_partsMask _ .pending).trans (decide_eq_false (pending_notMem_writes c)))

theorem step_of_nil {s : State} (h : s.pending = []) : step s = .next (clockTick s) := by rw [step, h]

theorem step_of_cons {s : State} {c : Instr} {rest : List Instr} (h : s.pending = c :: rest) :
    step s = exec c { s with pending := rest } := by rw [step, h]

/-- The front command leaves the queue, and an empty queue stays empty. -/
theorem step_pending {s t : State} (h : step s = .next t) : t.pending = s.pending.tail := by
  cases hq : s.pending with
  | nil =>
    rw [step_of_nil hq] at h
    rw [← Host.Outcome.next.inj h, keeps_pending (clockTick_erase s (Nat.and_self _)) rfl, hq, List.tail_nil]
  | cons c rest =>
    rw [step_of_cons hq] at h
    exact exec_keeps_pending h

theorem clockTick_of_not_inReset {s : State} (h : s.phase ≠ .inReset) :
    clockTick s = { s with time := s.time.advance 1 } := if_neg h

theorem clockTick_of_inReset {s : State} (h : s.phase = .inReset) : clockTick s = s := if_pos h

/-- Settles O6: no command writes the queue, by `pending_notMem_writes`, so a step leaves what its front command left; with no command
waiting a step is `clockTick`. -/
theorem queueIsFirstInFirstOut : Obligations.QueueIsFirstInFirstOut := by
  refine ⟨fun s t hok h => ?queue, fun s hempty hphase => ?tick, fun s hempty hphase => ?reset⟩
  case queue =>
    have htail : t.pending = s.pending.tail := step_pending h
    exact ⟨fun c hc => hok c (List.mem_of_mem_tail (htail ▸ hc)), htail⟩
  case tick =>
    exact ⟨_, (step_of_nil hempty).trans (congrArg _ (clockTick_of_not_inReset hphase)), rfl, rfl⟩
  case reset => rw [step_of_nil hempty, clockTick_of_inReset hphase]

end Sys2Proof.Machine

/-! Reads that latch counters, and reads within a word (03 R93, R126, 04 R166, 17 R505). -/

namespace Sys2Proof.Machine

/-! ## One word -/

section
variable {s : State} {off : Nat}

/-- A latching low word reads as it stands, and the words after it are latched as they stand. -/
theorem readWord_of_span (h : latchSpan off ≠ 0) : (readWord s off).2 = s.liveWord off
    ∧ (readWord s off).1.latched = (s.latched.filter fun e => decide (e.1 < off) || decide (off + 4 * latchSpan off < e.1))
      ++ latchWords s off (latchSpan off) := by
  simp only [readWord, if_pos h, and_self]

/-- A word that latches nothing and is not latched reads as it stands. -/
theorem readWord_of_plain (hspan : latchSpan off = 0) (hfree : ∀ e ∈ s.latched, e.1 ≠ off) :
    readWord s off = (s, s.liveWord off) := by
  have hnone : s.latched.find? (·.1 == off) = none := List.find?_eq_none.mpr fun e he => by simpa using hfree e he
  simp only [readWord, hspan, hnone, ne_eq, not_true, if_false]

/-- A latched word reads as it was latched, and then no longer is. -/
theorem readWord_of_latched {a : Nat} {v : W32} (hspan : latchSpan off = 0)
    (hfind : s.latched.find? (·.1 == off) = some (a, v)) :
    (readWord s off).2 = v.toNat ∧ (readWord s off).1.latched = s.latched.filter (·.1 != off) := by
  simp only [readWord, hspan, hfind, ne_eq, not_true, if_false, and_self]

/-- Every word of the group is latched by the read of its low word. -/
theorem latched_of_readWord {i : Nat} (hi : i < latchSpan off) :
    (off + 4 * (i + 1), BitVec.ofNat 32 (s.liveWord (off + 4 * (i + 1)))) ∈ (readWord s off).1.latched := by
  rw [(readWord_of_span (Nat.ne_zero_of_lt hi)).2]
  exact List.mem_append_right _ (List.mem_map.mpr ⟨i, List.mem_range.mpr hi, rfl⟩)

/-- What was latched under the next word before gives way to what the read of the low word latches. -/
theorem find_next_latched (h : latchSpan off ≠ 0) :
    (readWord s off).1.latched.find? (·.1 == off + 4) = some (off + 4, BitVec.ofNat 32 (s.liveWord (off + 4))) := by
  obtain ⟨n, hn⟩ := Nat.exists_eq_succ_of_ne_zero h
  have hothers : (s.latched.filter fun e => decide (e.1 < off) || decide (off + 4 * latchSpan off < e.1)).find? (·.1 == off + 4)
      = none := by
    refine List.find?_eq_none.mpr fun e he heq => ?_
    have hout := (List.mem_filter.mp he).2
    simp only [Bool.or_eq_true, decide_eq_true_eq, beq_iff_eq] at hout heq
    omega
  rw [(readWord_of_span h).2, List.find?_append, hothers, hn, latchWords, List.range_succ_eq_map]
  simp

end

/-! ## A register access -/

section
variable (s : State) (src : Src) {off n : Nat}

/-- A read within one word is the bytes it names of that word. -/
theorem readBytes_within_word (hword : off % 4 + n ≤ 4) (hsome : 0 < off % 4 + n) (hout : inWindow src (off / 4 * 4) = false) :
    readBytes s src off n = ((readWord s (off / 4 * 4)).1,
      ((leBytes 4 (readWord s (off / 4 * 4)).2).drop (off % 4)).take n) := by
  have hone : (off + n - off / 4 * 4 + 3) / 4 = 1 := by omega
  have hoff : off - off / 4 * 4 = off % 4 := by omega
  simp [readBytes, hone, hoff, readWords, readOffset, hout]

/-- An aligned 4-byte read is the word. -/
theorem readBytes_four (halign : off % 4 = 0) (hout : inWindow src off = false) :
    readBytes s src off 4 = ((readWord s off).1, leBytes 4 (readWord s off).2) := by
  have hbase : off / 4 * 4 = off := by omega
  rw [readBytes_within_word s src (by omega) (by omega) (by rw [hbase]; exact hout), hbase, halign]
  exact congrArg (Prod.mk _) (List.take_of_length_le (by simp))

/-- An aligned 8-byte read is the word and then the next one. -/
theorem readBytes_eight (halign : off % 4 = 0) (hlow : inWindow src off = false) (hnext : inWindow src (off + 4) = false) :
    readBytes s src off 8 = ((readWord (readWord s off).1 (off + 4)).1,
      leBytes 4 (readWord s off).2 ++ leBytes 4 (readWord (readWord s off).1 (off + 4)).2) := by
  have hfirst : off / 4 * 4 = off := by omega
  simp [readBytes, hfirst, readWords, readOffset, hlow, hnext, List.take_of_length_le]

theorem regRead_of_answers {s : State} (off n : Nat) (hans : s.answers = true) :
    regRead s src off n = { (readBytes s src off n).1 with readback := (readBytes s src off n).2, poisoned := false } := by
  rw [regRead, if_neg (by simp [hans])]

end

/-! ## The groups of counters -/

/-- Every low word lies at a multiple of 8. -/
theorem latchSpan_of_upper {off : Nat} (h : off % 8 ≠ 0) : latchSpan off = 0 := by
  rw [latchSpan]
  iterate 11 rw [if_neg (by omega)]

/-- What every command that reads a low word gives: the word, alone or with the next one, and the rest of the group latched. -/
theorem latchingRead_of_lowRead {s : State} {c : Bool → Instr} {off n : Nat}
    (hexec : ∀ wide, exec (c wide) s = .next (lowRead s off wide)) (hspan : latchSpan off = n) (hn : n ≠ 0) :
    LatchingRead s c off n := by
  subst hspan
  have hlow : off % 8 = 0 := not_imp_comm.mp latchSpan_of_upper hn
  have halign : off % 4 = 0 := by omega
  have hnext : latchSpan (off + 4) = 0 := latchSpan_of_upper (by omega)
  have hval : (readWord s off).2 = s.liveWord off := (readWord_of_span hn).1
  obtain ⟨hval', hkept⟩ := readWord_of_latched hnext (find_next_latched (s := s) hn)
  refine fun hans => ⟨⟨_, hexec false, ?value, ?latched⟩, _, hexec true, ?value2, ?latched2⟩
  case value => simp [lowRead, regRead_of_answers _ _ _ hans, readBytes_four s .internal halign rfl, hval]
  case latched =>
    intro i hi
    simpa [lowRead, regRead_of_answers _ _ _ hans, readBytes_four s .internal halign rfl] using latched_of_readWord hi
  case value2 => simp [lowRead, regRead_of_answers _ _ _ hans, readBytes_eight s .internal halign rfl rfl, hval, hval']
  case latched2 =>
    intro i hi hpos
    simp only [lowRead, if_true, regRead_of_answers _ _ _ hans, readBytes_eight s .internal halign rfl rfl, hkept]
    exact List.mem_filter.mpr ⟨latched_of_readWord hi, by simp only [bne_iff_ne, ne_eq]; omega⟩

section
variable {off : Nat}

theorem latchSpan_till (h : 0x61000 ≤ off ∧ off < 0x62000 ∧ off % 0x40 = 0) : latchSpan off = 7 := by
  unfold latchSpan
  split_ifs <;> omega

theorem latchSpan_ingest (h : 0xB0000 ≤ off ∧ off < 0xC0000 ∧ off % 0x40 = 8) : latchSpan off = 13 := by
  unfold latchSpan
  split_ifs <;> omega

theorem latchSpan_engConvSat (h : 0x100000 ≤ off ∧ off < 0x148000 ∧ off % 0x1000 = 0x200) : latchSpan off = 5 := by
  unfold latchSpan
  split_ifs <;> omega

theorem latchSpan_engTiles (h : 0x100000 ≤ off ∧ off < 0x148000 ∧ off % 0x1000 = 0x18) : latchSpan off = 5 := by
  unfold latchSpan
  split_ifs <;> omega

theorem latchSpan_clearing (h : 0xF4000 ≤ off ∧ off < 0xF8000 ∧ off % 0x1000 = 0x10) : latchSpan off = 11 := by
  unfold latchSpan
  split_ifs <;> omega

theorem latchSpan_encoder (h : 0xC8000 ≤ off ∧ off < 0xCC000 ∧ off % 0x1000 = 8) : latchSpan off = 7 := by
  unfold latchSpan
  split_ifs <;> omega

theorem latchSpan_dram (h : 0xC4000 ≤ off ∧ off < 0xC6000 ∧ off % 0x1000 = 8) : latchSpan off = 11 := by
  unfold latchSpan
  split_ifs <;> omega

end

theorem State.answers_of_pciServes {s : State} (h : s.pciServes = true) : s.answers = true := by
  simp only [State.pciServes, Bool.and_eq_true] at h
  obtain ⟨⟨hans, _⟩, _⟩ := h
  exact hans

/-- A read by the host within one word that latches nothing and is not latched. -/
theorem exec_bar0UnalignedRead_plain {s : State} {off n : Nat} (hserves : s.pciServes = true) (hword : off % 4 + n ≤ 4)
    (hout : inWindow .host (off / 4 * 4) = false) (hspan : latchSpan (off / 4 * 4) = 0)
    (hfree : ∀ e ∈ s.latched, e.1 ≠ off / 4 * 4) :
    exec (.bar0UnalignedRead off n) s = .next
      { s with readback := ((leBytes 4 (s.liveWord (off / 4 * 4))).drop (off % 4)).take n, poisoned := false } := by
  have hans := State.answers_of_pciServes hserves
  have hbytes : (readBytes s .host off n).1 = s
      ∧ (readBytes s .host off n).2 = ((leBytes 4 (s.liveWord (off / 4 * 4))).drop (off % 4)).take n := by
    rcases Nat.eq_zero_or_pos (off % 4 + n) with hnone | hsome
    · obtain ⟨halign, rfl⟩ := Nat.add_eq_zero_iff.mp hnone
      have hzero : (off - off / 4 * 4 + 3) / 4 = 0 := by omega
      simp [readBytes, readWords, hzero]
    · rw [readBytes_within_word s .host hword hsome hout, readWord_of_plain hspan hfree]
      exact ⟨rfl, rfl⟩
  obtain ⟨hstate, hread⟩ := hbytes
  change Host.Outcome.next (if s.pciServes = true then regRead s .host off n else s) = _
  rw [if_pos hserves, regRead_of_answers .host off n hans, hstate, hread]

/-- Settles O10: each group is `latchingRead_of_lowRead` at its own low word; the host's reads are `exec_bar0UnalignedRead_plain`. -/
theorem registerReadsLatchAndReturn : Obligations.RegisterReadsLatchAndReturn := by
  refine ⟨⟨fun s => ?time, fun s a ha => ?till, fun s n hn => ?ingest, fun s p hp => ?convSat, fun s p hp => ?tiles,
    fun s r hr => ?clearing, fun s n hn => ?encoder, fun s => ?faults, fun s => ?safety, fun s n hn => ?dram,
    fun s => ⟨?net0, ?net1, ?link⟩⟩, fun s off n hserves hword hout hspan hfree => ?unaligned⟩
  case time => exact latchingRead_of_lowRead (fun _ => rfl) rfl (by decide)
  case till => exact latchingRead_of_lowRead (fun _ => congrArg _ (if_pos ha)) (latchSpan_till (by omega)) (by decide)
  case ingest => exact latchingRead_of_lowRead (fun _ => congrArg _ (if_pos hn)) (latchSpan_ingest (by omega)) (by decide)
  case convSat => exact latchingRead_of_lowRead (fun _ => congrArg _ (if_pos hp)) (latchSpan_engConvSat (by omega)) (by decide)
  case tiles => exact latchingRead_of_lowRead (fun _ => congrArg _ (if_pos hp)) (latchSpan_engTiles (by omega)) (by decide)
  case clearing => exact latchingRead_of_lowRead (fun _ => congrArg _ (if_pos hr)) (latchSpan_clearing (by omega)) (by decide)
  case encoder => exact latchingRead_of_lowRead (fun _ => congrArg _ (if_pos hn)) (latchSpan_encoder (by omega)) (by decide)
  case faults => exact latchingRead_of_lowRead (fun _ => rfl) rfl (by decide)
  case safety => exact latchingRead_of_lowRead (fun _ => rfl) rfl (by decide)
  case dram => exact latchingRead_of_lowRead (fun _ => congrArg _ (if_pos hn)) (latchSpan_dram (by omega)) (by decide)
  case net0 => exact latchingRead_of_lowRead (fun _ => rfl) rfl (by decide)
  case net1 => exact latchingRead_of_lowRead (fun _ => rfl) rfl (by decide)
  case link => exact latchingRead_of_lowRead (fun _ => rfl) rfl (by decide)
  case unaligned => exact exec_bar0UnalignedRead_plain hserves hword hout hspan hfree

end Sys2Proof.Machine

/-! The moment that a timed command names (log entry 2): what bringing the clock to it gives, and what it leaves. -/

namespace Sys2Proof.Machine

theorem State.not_inReset_of_running {s : State} (h : s.running = true) : s.phase ≠ .inReset := by
  rw [State.phase_of_running h]
  decide

theorem State.till_of_erase {m : Nat} {s t : State} (h : t.erase m = s.erase m) (hm : m.testBit 36 = false) (a : Nat) :
    t.till a = s.till a := by
  rw [State.till, State.till, keeps_tills h hm]

theorem State.devTill_of_erase {m : Nat} {s t : State} (h : t.erase m = s.erase m) (hm : m.testBit 37 = false) (i : Nat) :
    t.devTill i = s.devTill i := by
  rw [State.devTill, State.devTill, keeps_devTills h hm]

@[simp] theorem State.modTill_engine (s : State) (a : Nat) (f : Till → Till) (p : Nat) :
    (s.modTill a f).engine p = s.engine p := rfl
@[simp] theorem State.modTill_region (s : State) (a : Nat) (f : Till → Till) (g : Nat) :
    (s.modTill a f).region g = s.region g := rfl
@[simp] theorem State.modEngine_till (s : State) (p : Nat) (f : Engine → Engine) (a : Nat) :
    (s.modEngine p f).till a = s.till a := rfl
@[simp] theorem State.modEngine_region (s : State) (p : Nat) (f : Engine → Engine) (g : Nat) :
    (s.modEngine p f).region g = s.region g := rfl
@[simp] theorem State.modRegion_till (s : State) (g : Nat) (f : Region → Region) (a : Nat) :
    (s.modRegion g f).till a = s.till a := rfl
@[simp] theorem State.modRegion_engine (s : State) (g : Nat) (f : Region → Region) (p : Nat) :
    (s.modRegion g f).engine p = s.engine p := rfl

/-- A number raised to the next whole multiple is not lowered. -/
theorem le_roundUp {m : Nat} (n : Nat) (hm : 0 < m) : n ≤ roundUp n m := by
  rw [roundUp]
  have hdiv := Nat.div_add_mod' (n + m - 1) m
  have hmod := Nat.mod_lt (n + m - 1) hm
  omega

section
variable (s : State) (n : Nat)

@[simp] theorem State.atElapsed_rolling : (s.atElapsed n).rolling = s.rolling :=
  keeps_rolling (s.atElapsed_erase n (Nat.and_self _)) rfl
@[simp] theorem State.atElapsed_region (g : Nat) : (s.atElapsed n).region g = s.region g :=
  State.region_of_erase (s.atElapsed_erase n (Nat.and_self _)) rfl g
@[simp] theorem State.atElapsed_engine (p : Nat) : (s.atElapsed n).engine p = s.engine p := by
  rw [State.engine, State.engine, State.engines_of_erase (s.atElapsed_erase n (Nat.and_self _)) rfl]
@[simp] theorem State.atElapsed_till (a : Nat) : (s.atElapsed n).till a = s.till a :=
  State.till_of_erase (s.atElapsed_erase n (Nat.and_self _)) rfl a

end

section
variable {s : State} (hphase : s.phase ≠ .inReset)
include hphase

theorem State.atElapsed_time (n : Nat) : (s.atElapsed n).time = s.time.advance (n - s.time.elapsed) := by
  rw [State.atElapsed, State.advance, if_neg hphase]

/-- Elapsed time comes to the moment unless it is past it already. -/
theorem State.atElapsed_elapsed (n : Nat) : (s.atElapsed n).time.elapsed = max s.time.elapsed n := by
  rw [State.atElapsed_time hphase]
  change s.time.elapsed + (n - s.time.elapsed) = _
  omega

theorem State.atMultiple_elapsed {n : Nat} (hn : 0 < n) : (s.atMultiple n).time.elapsed = roundUp s.time.elapsed n := by
  rw [State.atMultiple, State.atElapsed_elapsed hphase, max_eq_right (le_roundUp _ hn)]

end

end Sys2Proof.Machine

/-! How slices follow one another (03 R118, R119, R121, R122): the choice of the account, its start on the engines, and the end of a
slice at its nominal length. -/

namespace Sys2Proof.Machine

/-! ## The choice of the account -/

/-- `a` goes before `b`: its finish tag is less, or the same and its number lower. -/
def FinishBefore (finish : Table Nat) (a b : Nat) : Prop :=
  Table.get 0 a finish < Table.get 0 b finish ∨ Table.get 0 a finish = Table.get 0 b finish ∧ a ≤ b

theorem FinishBefore.refl (finish : Table Nat) (a : Nat) : FinishBefore finish a a := .inr ⟨rfl, le_rfl⟩

theorem FinishBefore.trans {finish : Table Nat} {a b c : Nat} (hab : FinishBefore finish a b) (hbc : FinishBefore finish b c) :
    FinishBefore finish a c := by
  unfold FinishBefore at *
  omega

/-- The earlier of two accounts, the first of lower number. -/
def pickFinish (finish : Table Nat) (x a : Nat) : Nat := if Table.get 0 a finish < Table.get 0 x finish then a else x

theorem pickFinish_before {finish : Table Nat} {x a : Nat} (h : x < a) :
    FinishBefore finish (pickFinish finish x a) x ∧ FinishBefore finish (pickFinish finish x a) a := by
  unfold pickFinish FinishBefore
  split <;> omega

theorem pickFinish_mem (finish : Table Nat) (x a : Nat) : pickFinish finish x a = x ∨ pickFinish finish x a = a := by
  unfold pickFinish
  split
  · exact .inr rfl
  · exact .inl rfl

theorem leastFinish_cons (finish : Table Nat) (x : Nat) (l : List Nat) :
    leastFinish finish (x :: l) = some (l.foldl (pickFinish finish) x) := by
  unfold leastFinish
  rw [List.foldl_cons]
  induction l generalizing x with
  | nil => rfl
  | cons a l ih =>
    rw [List.foldl_cons, List.foldl_cons, ← ih]
    refine congrArg (List.foldl _ · l) ?_
    exact (apply_ite some _ _ _).symm

/-- Of accounts in rising order the fold keeps the one that goes before all. -/
theorem foldl_pickFinish (finish : Table Nat) (l : List Nat) (x : Nat) (h : (x :: l).Pairwise (· < ·)) :
    l.foldl (pickFinish finish) x ∈ x :: l ∧ ∀ b ∈ x :: l, FinishBefore finish (l.foldl (pickFinish finish) x) b := by
  induction l generalizing x with
  | nil => simp [FinishBefore.refl]
  | cons a l ih =>
    obtain ⟨hx, hal⟩ := List.pairwise_cons.mp h
    obtain ⟨ha, hl⟩ := List.pairwise_cons.mp hal
    have hxa : x < a := hx a (by simp)
    have hpick := pickFinish_mem finish x a
    obtain ⟨hbx, hba⟩ := pickFinish_before (finish := finish) hxa
    rw [List.foldl_cons]
    generalize pickFinish finish x a = y at hpick hbx hba
    have hy : ∀ b ∈ l, y < b := fun b hb => by
      rcases hpick with rfl | rfl
      · exact hx b (List.mem_cons_of_mem _ hb)
      · exact ha b hb
    obtain ⟨hmem, hleast⟩ := ih y (List.pairwise_cons.mpr ⟨hy, hl⟩)
    have hfirst := hleast y (List.mem_cons_self ..)
    refine ⟨?_, fun b hb => ?_⟩
    · rcases List.mem_cons.mp hmem with h | h
      · rw [h]
        rcases hpick with rfl | rfl
        · exact List.mem_cons_self ..
        · exact List.mem_cons_of_mem _ (List.mem_cons_self ..)
      · exact List.mem_cons_of_mem _ (List.mem_cons_of_mem _ h)
    · rcases List.mem_cons.mp hb with rfl | hb
      · exact hfirst.trans hbx
      · rcases List.mem_cons.mp hb with rfl | hb
        · exact hfirst.trans hba
        · exact hleast b (List.mem_cons_of_mem _ hb)

/-- 03 R118: of ready accounts one is chosen, and it goes before every other. -/
theorem leastFinish_least (finish : Table Nat) {ready : List Nat} (hrising : ready.Pairwise (· < ·)) (hsome : ready ≠ []) :
    ∃ a, leastFinish finish ready = some a ∧ a ∈ ready ∧ ∀ b ∈ ready, FinishBefore finish a b := by
  obtain ⟨x, l, rfl⟩ := List.exists_cons_of_ne_nil hsome
  obtain ⟨hmem, hleast⟩ := foldl_pickFinish finish l x hrising
  exact ⟨_, leastFinish_cons finish x l, hmem, hleast⟩

theorem readyAccounts_rising (s : State) (g : Nat) : (readyAccounts s g).Pairwise (· < ·) := List.pairwise_lt_range.filter _

/-! ## The start of a slice -/

/-- 03 R121: once the last slice is charged the region has no account. -/
theorem chargeSlice_account (s : State) (g : Nat) : ((chargeSlice s g).region g).account = none := by
  rw [chargeSlice]
  dsimp only
  split
  · assumption
  · simp

/-- The region as a slice of account `a` begins. -/
def Region.selected (r : Region) (finish : Table Nat) (ready : List Nat) (a : Nat) : Region :=
  { r with finish := finish, ready := ready, account := some a, vtime := Table.get 0 a finish, background := false
           sliceNo := r.sliceNo + 1 }

/-- The region as background work begins. -/
def Region.idle (r : Region) (finish : Table Nat) (now : Nat) : Region :=
  { r with finish := finish, ready := [], background := true, backUntil := now + backgroundNs }

section
variable {s u : State} {g : Nat} (hu : u = chargeSlice (afterBackground s g) g)
include hu

theorem startSlice_of_ready {a : Nat}
    (ha : leastFinish (liftTags (u.region g).vtime (readyAccounts u g) (u.region g).finish) (readyAccounts u g) = some a) :
    (startSlice s g).region g
      = (u.region g).selected (liftTags (u.region g).vtime (readyAccounts u g) (u.region g).finish) (readyAccounts u g) a := by
  subst hu
  simp only [startSlice, ha]
  rw [State.region_of_erase (erase_foldl (fun t p => enterSlice_erase t p (Nat.and_self _)) _ _) rfl,
    State.region_of_erase (leaveBackground_erase _ g (Nat.and_self _)) rfl]
  simp [Region.selected]

theorem startSlice_of_none (hnone : readyAccounts u g = []) :
    (startSlice s g).region g = (u.region g).idle (u.region g).finish u.time.elapsed := by
  have htime : u.time = (afterBackground s g).time := by
    rw [hu, State.time_of_erase (chargeSlice_erase _ g (Nat.and_self _)) rfl]
  rw [htime]
  subst hu
  simp only [startSlice, hnone]
  change (background _ g).region g = _
  rw [State.region_of_erase (background_erase _ g (Nat.and_self _)) rfl]
  simp [Region.idle, liftTags]

end

theorem exec_sliceStart {s : State} {g : Nat} (hbegin : s.mayBegin = true) (hg : g < 4) (hissues : s.regionIssues g = true) :
    exec (.sliceStart g) s = .next (startSlice s g) := by
  change execSliceStart g s = _
  simp [execSliceStart, done, hbegin, hg, hissues]

/-! ## The end of a slice -/

/-- With the region's selection begun already an engine begins none. -/
theorem enterSlice_of_current {s : State} {p : Nat} (h : (s.engine p).sliceNo = (s.region (regionOf p)).sliceNo) :
    enterSlice s p = s := by
  rw [enterSlice]
  exact if_pos (Or.inr h)

/-- 03 R119: an engine without a slice takes the region's present selection. -/
theorem enterSlice_of_selected {s : State} {p c : Nat} (hnone : (s.engine p).slice = none)
    (hnew : (s.engine p).sliceNo ≠ (s.region (regionOf p)).sliceNo) (hsel : (s.region (regionOf p)).account = some c) :
    ((enterSlice s p).engine p).slice = some (c, 0) := by
  simp [enterSlice, hnone, hnew, hsel]

/-- What a slice's start on an engine leaves of what the accounts carry there. -/
theorem enterSlice_engine (s : State) (p : Nat) :
    ((enterSlice s p).engine p).carried = (s.engine p).carried ∧ ((enterSlice s p).engine p).overdraft = (s.engine p).overdraft := by
  unfold enterSlice
  extract_lets r e
  split
  · exact ⟨rfl, rfl⟩
  · split
    · exact ⟨rfl, rfl⟩
    · simp

@[simp] theorem leaveSlice_till (s : State) (p a : Nat) : (leaveSlice s p).till a = s.till a :=
  State.till_of_erase (leaveSlice_erase s p (Nat.and_self _)) rfl a

theorem leaveSlice_of_current {s : State} {p : Nat} (h : (s.engine p).sliceNo = (s.region (regionOf p)).sliceNo) :
    leaveSlice s p = s.modEngine p fun x => { x with slice := none } :=
  enterSlice_of_current (by rw [State.modEngine_get, if_pos rfl]; exact h)

/-- The state in which the rest of the slice is charged. -/
def idledOut (s : State) (p a left : Nat) : State :=
  let s1 := s.atElapsed ((s.engine p).idleSince + nsOf (s.engine p).ratio left)
  useSlice ((s1.modTill a (addCycles p left)).modEngine p fun y => { y with idleSince := s1.time.elapsed }) p a left

section
variable {s : State} {p a used : Nat} (hrun : s.running = true) (hslice : (s.engine p).slice = some (a, used))
  (hidle : (s.engine p).running = none)
include hrun hslice hidle

theorem exec_sliceNominalEnd_of_unready (hready : accountReady s (regionOf p) a = false) :
    exec (.sliceNominalEnd p) s = .next (leaveSlice s p) := by
  change execSliceNominalEnd p s = _
  simp [execSliceNominalEnd, done, hrun, hslice, hidle, hready]

theorem exec_sliceNominalEnd_of_ready (hready : accountReady s (regionOf p) a = true) :
    exec (.sliceNominalEnd p) s
      = .next (endSlice (idledOut s p a (nominalSlice s p a s.stl.epoch.toNat - used)) p a 0) := by
  change execSliceNominalEnd p s = _
  simp [execSliceNominalEnd, done, hrun, hslice, hidle, hready, idledOut]

end

section
variable (s : State) (p a left : Nat)

theorem idledOut_till : (idledOut s p a left).till a = addCycles p left (s.till a) := by simp [idledOut, useSlice]

theorem idledOut_engine : (idledOut s p a left).engine p
    = { s.engine p with idleSince := (s.atElapsed ((s.engine p).idleSince + nsOf (s.engine p).ratio left)).time.elapsed } := by
  simp [idledOut, useSlice]

theorem idledOut_region : ((idledOut s p a left).region (regionOf p)).sliceNo = (s.region (regionOf p)).sliceNo
    ∧ ((idledOut s p a left).region (regionOf p)).account = (s.region (regionOf p)).account := by
  simp [idledOut, useSlice]

theorem idledOut_elapsed (hrun : s.running = true) : (idledOut s p a left).time.elapsed
    = max s.time.elapsed ((s.engine p).idleSince + nsOf (s.engine p).ratio left) := by
  simp [idledOut, useSlice, State.atElapsed_elapsed (State.not_inReset_of_running hrun)]

end

/-! What the end of a slice with nothing over gives on its engine. -/

section
variable (s : State) (p a : Nat)

/-- The engine between the two slices. -/
def sliceClosed : State := (s.modEngine p fun x => { x with overdraft := 0, carried := Table.set 0 a 0 x.carried }).modEngine p
  fun x => { x with slice := none }

theorem endSlice_zero : endSlice s p a 0 = enterSlice (sliceClosed s p a) p := rfl

theorem sliceClosed_engine : (sliceClosed s p a).engine p
    = { s.engine p with overdraft := 0, carried := Table.set 0 a 0 (s.engine p).carried, slice := none } := by
  simp [sliceClosed]

theorem sliceClosed_region (g : Nat) : (sliceClosed s p a).region g = s.region g := rfl

theorem endSlice_zero_engine :
    ((endSlice s p a 0).engine p).overdraft = 0 ∧ Table.get 0 a ((endSlice s p a 0).engine p).carried = 0 := by
  obtain ⟨hcarried, hover⟩ := enterSlice_engine (sliceClosed s p a) p
  rw [endSlice_zero, hcarried, hover, sliceClosed_engine]
  simp

variable {s p a}

theorem endSlice_zero_of_current (h : (s.engine p).sliceNo = (s.region (regionOf p)).sliceNo) :
    ((endSlice s p a 0).engine p).slice = none := by
  rw [endSlice_zero, enterSlice_of_current (by rw [sliceClosed_engine, sliceClosed_region, h]), sliceClosed_engine]

theorem endSlice_zero_of_selected {c : Nat} (hnew : (s.engine p).sliceNo ≠ (s.region (regionOf p)).sliceNo)
    (hsel : (s.region (regionOf p)).account = some c) : ((endSlice s p a 0).engine p).slice = some (c, 0) := by
  rw [endSlice_zero, enterSlice_of_selected (by rw [sliceClosed_engine]) (by rw [sliceClosed_engine, sliceClosed_region]; exact hnew)
    (by rw [sliceClosed_region, hsel])]

theorem endSlice_till (o i : Nat) : (endSlice s p a o).till i = s.till i := leaveSlice_till _ p i

theorem endSlice_time (o : Nat) : (endSlice s p a o).time = s.time :=
  State.time_of_erase (leaveSlice_erase _ p (Nat.and_self _)) rfl

end

/-- Settles O25: the choice by `leastFinish_least`, background work by `startSlice_of_none`, and the ends of a slice by the rules above. -/
theorem slicesGoToTheLeastFinishTag : Obligations.SlicesGoToTheLeastFinishTag := by
  refine ⟨fun s u g tags hbegin hg hissues hu htags hready => ?ready, fun s u g hbegin hg hissues hu hnone => ?background,
    fun s p a used hrun hslice hidle hready hno => ?unready, fun s p a used left hrun hslice hidle hready hleft => ?nominal⟩
  case ready =>
    subst htags
    obtain ⟨a, ha, hmem, hleast⟩ := leastFinish_least (liftTags (u.region g).vtime (readyAccounts u g) (u.region g).finish)
      (readyAccounts_rising u g) hready
    refine ⟨_, a, exec_sliceStart hbegin hg hissues, ?_⟩
    rw [startSlice_of_ready hu ha]
    exact ⟨rfl, hmem, hleast, rfl, rfl, rfl⟩
  case background =>
    refine ⟨_, exec_sliceStart hbegin hg hissues, ?_⟩
    rw [startSlice_of_none hu hnone]
    exact ⟨rfl, hu ▸ chargeSlice_account _ g, rfl, rfl⟩
  case unready =>
    refine ⟨_, exec_sliceNominalEnd_of_unready hrun hslice hidle hready, ?_, ?_, leaveSlice_till s p a⟩
    · simp [leaveSlice_of_current hno]
    · simp [leaveSlice_of_current hno]
  case nominal =>
    subst hleft
    refine ⟨_, exec_sliceNominalEnd_of_ready hrun hslice hidle hready, ?_⟩
    generalize nominalSlice s p a s.stl.epoch.toNat - used = left
    obtain ⟨hover, hcarried⟩ := endSlice_zero_engine (idledOut s p a left) p a
    obtain ⟨hregionNo, haccount⟩ := idledOut_region s p a left
    have hsliceNo : ((idledOut s p a left).engine p).sliceNo = (s.engine p).sliceNo := by rw [idledOut_engine]
    refine ⟨hover, fun hcurrent => ?_, fun c hnew hsel => ?_, hcarried, ?_, ?_⟩
    · exact endSlice_zero_of_current (by rw [hsliceNo, hregionNo, hcurrent])
    · exact endSlice_zero_of_selected (by rwa [hsliceNo, hregionNo]) (haccount.trans hsel)
    · rw [endSlice_till, idledOut_till]
    · rw [endSlice_time, idledOut_elapsed _ _ _ _ hrun, nsOf]

end Sys2Proof.Machine

/-! Energy, slow-down and the model switch (03 R127, R129, R130, R132 to R134). -/

namespace Sys2Proof.Machine

/-- A fold that changes at each number only what stands there, by what `k` shows of the state and the fold leaves. -/
theorem foldl_each {κ β : Type} {f : State → Nat → State} (k : State → κ) (get : State → Nat → β) (v : κ → Nat → β → β)
    (hkeep : ∀ s a, k (f s a) = k s) (hself : ∀ s a, get (f s a) a = v (k s) a (get s a))
    (hother : ∀ s a j, j ≠ a → get (f s a) j = get s j) {l : List Nat} (hl : l.Nodup) (s : State) (j : Nat) :
    get (l.foldl f s) j = if j ∈ l then v (k s) j (get s j) else get s j := by
  induction l generalizing s with
  | nil => rfl
  | cons a l ih =>
    obtain ⟨ha, hl⟩ := List.nodup_cons.mp hl
    rw [List.foldl_cons, ih hl, hkeep]
    rcases eq_or_ne j a with rfl | hj
    · rw [if_neg ha, if_pos (List.mem_cons_self ..), hself]
    · simp only [List.mem_cons, hj, false_or, hother s a j hj]

/-! ## Energy -/

theorem prefixSum_le_succ (ws : List Nat) (k : Nat) : prefixSum ws k ≤ prefixSum ws (k + 1) := by
  rw [prefixSum, prefixSum, List.take_add_one, List.sum_append]
  exact Nat.le_add_right _ _

/-- The shares of the first `n` parts add up to the energy in proportion to their weights: each share is a difference of such. -/
theorem sum_shareOf (e : Nat) {ws : List Nat} (hsome : ws.sum ≠ 0) (n : Nat) :
    ((List.range n).map (shareOf e ws)).sum = e * prefixSum ws n / ws.sum := by
  induction n with
  | zero => simp [prefixSum]
  | succ n ih =>
    have hle : e * prefixSum ws n / ws.sum ≤ e * prefixSum ws (n + 1) / ws.sum :=
      Nat.div_le_div_right (Nat.mul_le_mul_left e (prefixSum_le_succ ws n))
    rw [List.range_succ, List.map_append, List.sum_append, ih, List.map_singleton, List.sum_singleton, shareOf, if_neg hsome]
    omega

/-- Shares for all parts, and all of it left over when no part did anything. -/
theorem sum_shareOf_all (e : Nat) {ws : List Nat} {n : Nat} (hn : ws.length ≤ n) :
    ((List.range n).map (shareOf e ws)).sum + (if ws.sum = 0 then e else 0) = e := by
  split
  next hnone =>
    have hzero : shareOf e ws = fun _ => 0 := funext fun _ => if_pos hnone
    simp [hzero]
  next hsome =>
    rw [sum_shareOf e hsome, prefixSum, List.take_of_length_le hn, Nat.mul_div_cancel _ (Nat.pos_of_ne_zero hsome), Nat.add_zero]

@[simp] theorem State.modDevTill_till (s : State) (i : Nat) (f : Till → Till) (a : Nat) : (s.modDevTill i f).till a = s.till a := rfl
@[simp] theorem State.modTill_devTill (s : State) (a : Nat) (f : Till → Till) (i : Nat) : (s.modTill a f).devTill i = s.devTill i := rfl

@[simp] theorem length_sharingTills (s : State) : s.sharingTills.length = 68 := by simp [State.sharingTills]

/-- 03 R127: nothing of the energies measured is lost. -/
theorem sum_partOf (e : Energy) {ts : List Till} (hts : ts.length = 68) :
    ((List.range 68).map (partOf e ts)).sum + unclaimed e ts = e.cd0 + e.cd1 + e.media + e.dram := by
  have hall (x : Nat) (f : Till → Nat) := sum_shareOf_all x (ws := ts.map f) (n := 68) (by simp [hts])
  have h0 := hall e.cd0 (·.ms0)
  have h1 := hall e.cd1 (·.ms1)
  have hm := hall e.media (·.msMedia)
  have hd := hall e.dram (·.msDram)
  unfold partOf
  rw [List.sum_map_add, List.sum_map_add, List.sum_map_add, unclaimed]
  omega

section
variable (f : Nat → Till → Till) (n : Nat) (s : State) (i : Nat)

theorem foldl_modTill_till :
    ((List.range n).foldl (fun a j => a.modTill j (f j)) s).till i = if i < n then f i (s.till i) else s.till i := by
  simpa using foldl_each (fun _ => ()) State.till (fun _ => f) (fun _ _ => rfl) (by simp) (fun _ _ _ hj => by simp [hj])
    (List.nodup_range (n := n)) s i

theorem foldl_modDevTill_devTill :
    ((List.range n).foldl (fun a j => a.modDevTill j (f j)) s).devTill i = if i < n then f i (s.devTill i) else s.devTill i := by
  simpa using foldl_each (fun _ => ()) State.devTill (fun _ => f) (fun _ _ => rfl) (by simp) (fun _ _ _ hj => by simp [hj])
    (List.nodup_range (n := n)) s i

theorem foldl_modTill_devTill : ((List.range n).foldl (fun a j => a.modTill j (f j)) s).devTill i = s.devTill i :=
  foldl_keeps (·.devTill i) (State.modTill_devTill · · _ i) _ s

theorem foldl_modDevTill_till : ((List.range n).foldl (fun a j => a.modDevTill j (f j)) s).till i = s.till i :=
  foldl_keeps (·.till i) (State.modDevTill_till · · _ i) _ s

end

section
variable (s : State) (e : Energy)

theorem apportion_till {i : Nat} (hi : i < 64) :
    (apportion s e).till i = clearMs (addEnergy (s.till i) (partOf e s.sharingTills i)) := by
  rw [apportion, State.modDevTill_till, foldl_modDevTill_till, foldl_modTill_till, if_pos hi]

theorem apportion_devTill {i : Nat} (hi : i < 4) :
    (apportion s e).devTill i = clearMs (addEnergy (s.devTill i) (partOf e s.sharingTills (64 + i))) := by
  rw [apportion, State.modDevTill_get, if_neg (Nat.ne_of_lt hi), foldl_modDevTill_devTill, if_pos hi, foldl_modTill_devTill]

/-- What no work claims goes to the static till. -/
theorem apportion_static :
    (apportion s e).devTill 4 = addEnergy (s.devTill 4) (e.idle + unclaimed e s.sharingTills) := by
  rw [apportion, State.modDevTill_get, if_pos rfl, foldl_modDevTill_devTill, if_neg (by decide), foldl_modTill_devTill]

end

@[simp] theorem State.atMultiple_till (s : State) (n a : Nat) : (s.atMultiple n).till a = s.till a := s.atElapsed_till _ a
@[simp] theorem State.atMultiple_devTill (s : State) (n i : Nat) : (s.atMultiple n).devTill i = s.devTill i :=
  State.devTill_of_erase (s.atMultiple_erase n (Nat.and_self _)) rfl i
@[simp] theorem State.atMultiple_cfg (s : State) (n : Nat) : (s.atMultiple n).cfg = s.cfg := s.atElapsed_cfg _

@[simp] theorem State.atMultiple_sharingTills (s : State) (n : Nat) : (s.atMultiple n).sharingTills = s.sharingTills := by
  simp only [State.sharingTills]
  congr 1
  · exact List.map_congr_left fun a _ => s.atMultiple_till n a
  · exact List.map_congr_left fun i _ => s.atMultiple_devTill n i

theorem exec_energyApportion {s : State} (e : Energy) (hrun : s.running = true) :
    exec (.energyApportion e) s = .next (apportion (s.atMultiple 1000000) e) := by
  change execEnergyApportion e s = _
  rw [execEnergyApportion, if_pos hrun]
  rfl

/-! ## Slow-down -/

/-- An account's till after its second. -/
def slowTill (c : Cfg) (a : Nat) (t : Till) : Till :=
  { t with slowdown := slowRatio t.samples, samples := []
           overSeconds := if c.alarmOf a < slowRatio t.samples then t.overSeconds + 1 else 0 }

theorem slowAccount_till (s : State) (a j : Nat) : (slowAccount s a).till j = if j = a then slowTill s.cfg a (s.till a) else s.till j := by
  unfold slowAccount
  extract_lets t ratio limit above s1
  split
  · exact State.setTill_get s a _ j
  · exact State.setTill_get s a _ j

@[simp] theorem slowAccount_cfg (s : State) (a : Nat) : (slowAccount s a).cfg = s.cfg :=
  keeps_cfg (slowAccount_erase s a (Nat.and_self _)) rfl

/-- A second writes no record but the alarm of its account, of no stream and so the last of those waiting. -/
theorem slowAccount_waiting (s : State) (a : Nat) :
    (slowAccount s a).journal.waiting = s.journal.waiting
      ∨ ∃ r, (slowAccount s a).journal.waiting = s.journal.waiting ++ [r] ∧ r.type = 0x0203 ∧ r.account = a := by
  unfold slowAccount
  extract_lets t ratio limit above s1
  split
  · rw [State.emit_journal_plain _ _ (.inl rfl)]
    exact .inr ⟨_, rfl, rfl, rfl⟩
  · exact .inl rfl

/-- 03 R130: at the tenth second above the threshold the record names the account. -/
theorem slowAccount_alarm {s : State} {a : Nat} (habove : s.cfg.alarmOf a < slowRatio (s.till a).samples)
    (htenth : (s.till a).overSeconds = 9) : ∃ r ∈ (slowAccount s a).journal.waiting, r.type = 0x0203 ∧ r.account = a := by
  unfold slowAccount
  extract_lets t ratio limit above s1
  have hten : above = 10 := (if_pos habove).trans (congrArg (· + 1) htenth)
  rw [if_pos (by rw [hten]; decide), State.emit_journal_plain _ _ (.inl rfl)]
  exact ⟨_, List.mem_append_right _ (List.mem_singleton_self _), rfl, rfl⟩

theorem waiting_subset_slowAccounts (l : List Nat) (s : State) : s.journal.waiting ⊆ (l.foldl slowAccount s).journal.waiting := by
  induction l generalizing s with
  | nil => exact List.Subset.refl _
  | cons a l ih =>
    refine List.Subset.trans ?_ (ih (slowAccount s a))
    rcases slowAccount_waiting s a with h | ⟨r, h, -⟩
    · rw [h]
      exact List.Subset.refl _
    · rw [h]
      exact List.subset_append_left ..

theorem slowAccounts_till {l : List Nat} (hl : l.Nodup) (s : State) (a : Nat) :
    (l.foldl slowAccount s).till a = if a ∈ l then slowTill s.cfg a (s.till a) else s.till a :=
  foldl_each State.cfg State.till slowTill slowAccount_cfg (fun s a => by rw [slowAccount_till, if_pos rfl])
    (fun s a j hj => by rw [slowAccount_till, if_neg hj]) hl s a

theorem slowAccounts_alarm {l : List Nat} {a : Nat} (ha : a ∈ l) {s : State}
    (habove : s.cfg.alarmOf a < slowRatio (s.till a).samples) (htenth : (s.till a).overSeconds = 9) :
    ∃ r ∈ (l.foldl slowAccount s).journal.waiting, r.type = 0x0203 ∧ r.account = a := by
  induction l generalizing s with
  | nil => exact absurd ha List.not_mem_nil
  | cons b l ih =>
    rcases eq_or_ne a b with rfl | hne
    · obtain ⟨r, hr, hfields⟩ := slowAccount_alarm habove htenth
      exact ⟨r, waiting_subset_slowAccounts l _ hr, hfields⟩
    · have hsame : (slowAccount s b).till a = s.till a := by rw [slowAccount_till, if_neg hne]
      exact ih ((List.mem_cons.mp ha).resolve_left hne) (by rwa [slowAccount_cfg, hsame]) (by rw [hsame, htenth])

theorem exec_slowdownSecond {s : State} (hrun : s.running = true) :
    exec .slowdownSecond s = .next ((List.range 64).foldl slowAccount (s.atMultiple second)) := by
  change execSlowdownSecond s = _
  rw [execSlowdownSecond, if_pos hrun]
  rfl

theorem slowAccounts_time (l : List Nat) (s : State) : (l.foldl slowAccount s).time = s.time :=
  foldl_keeps State.time (fun t a => State.time_of_erase (slowAccount_erase t a (Nat.and_self _)) rfl) l s

/-! ## The model switch -/

/-- One change made in every region. -/
def modRegions (s : State) (f : Region → Region) : State := (List.range 4).foldl (fun a g => a.modRegion g f) s

theorem modRegions_region (s : State) (f : Region → Region) {g : Nat} (hg : g < 4) : (modRegions s f).region g = f (s.region g) := by
  rw [modRegions, foldl_each (fun _ => ()) State.region (fun _ _ r => f r) (fun _ _ => rfl) (by simp) (fun _ _ _ hj => by simp [hj])
    List.nodup_range, if_pos (List.mem_range.mpr hg)]

theorem modRegions_erase (s : State) (f : Region → Region) : (modRegions s f).erase 0x200000 = s.erase 0x200000 :=
  erase_foldl (fun t g => t.modRegion_erase g f (Nat.and_self _)) _ s

/-- 03 R133: the switch from its cut on; an adoption converts no per-stream state. -/
def switchCut (s : State) (x : Switch) : Switch :=
  let live := if x.adoption then 0 else x.new.convBytes * s.cfg.active.length
  { x with cutAt := some s.time.elapsed, deadline := s.time.elapsed + switchNs s x.bytes live }

section
variable {s : State} {x : Switch} (hrun : s.running = true) (hswitch : s.switch = some x)
include hrun hswitch

section
variable (hopen : x.cutAt = none)
include hopen

/-- 03 R132: the regions are cut now, and the switch runs for T_switch. -/
theorem exec_modelSwitchCut (hcut : (List.range 4).all (regionCut s) = true) :
    exec .modelSwitchCut s
      = .next { modRegions s (fun r => { r with cut := true }) with switch := some (switchCut s x) } := by
  change execModelSwitchCut s = _
  simp only [execModelSwitchCut, done, hswitch, hrun, hopen, hcut, Bool.not_true, Option.isSome_none, Bool.or_self,
    Bool.false_eq_true, if_false]
  rfl

omit hrun hopen in
/-- A region that still has samples of the old epoch holds the switch. -/
theorem exec_modelSwitchCut_of_uncut (huncut : (List.range 4).all (regionCut s) = false) :
    exec .modelSwitchCut s = .next s := by
  change execModelSwitchCut s = _
  simp only [execModelSwitchCut, done, hswitch, huncut, Bool.not_false, Bool.or_true, if_true]

end

/-- The per-stream state converted, and what the old epoch left unadmitted gone; an adoption keeps both. -/
def convertedState (s : State) (x : Switch) : State :=
  if x.adoption then s.atElapsed x.deadline else dropUnadmitted (convertStreams (s.atElapsed x.deadline) x)

/-- The switch ended, in every region. -/
def switchEnded (s : State) (x : Switch) : State :=
  modRegions { convertedState s x with switch := none } fun r => { r with cut := false, admitStopped := false }

section
variable (hcut : x.cutAt ≠ none)
include hcut

/-- 03 R133, R134: the samples that wait are admitted once the switch has ended. -/
theorem exec_modelSwitchEnd
    (hup : ((List.range 4).any fun g => decide ((s.region g).state = 1) && !(s.region g).fenced) = false) :
    exec .modelSwitchEnd s = .next ((switchEnded s x).rolling.foldl
      (fun a e => joinLoop e.2.waiting.length a (e.1 / 64) (e.1 % 64)) (switchEnded s x)) := by
  obtain ⟨n, hn⟩ := Option.ne_none_iff_exists'.mp hcut
  change execModelSwitchEnd s = _
  simp only [execModelSwitchEnd, done, hswitch, hrun, hup, hn, Bool.not_true, Option.isNone_some, Bool.or_self, Bool.false_eq_true,
    if_false]
  rfl

omit hrun hcut in
theorem exec_modelSwitchEnd_of_restarting
    (hdown : ((List.range 4).any fun g => decide ((s.region g).state = 1) && !(s.region g).fenced) = true) :
    exec .modelSwitchEnd s = .next s := by
  change execModelSwitchEnd s = _
  simp only [execModelSwitchEnd, done, hswitch, hdown, Bool.or_true, if_true]

end

end

theorem convertedState_erase (s : State) (x : Switch) :
    (convertedState s x).erase 0x1000000009000 = (s.atElapsed x.deadline).erase 0x1000000009000 := by
  rw [convertedState]
  split
  · rfl
  · exact (dropUnadmitted_erase _ (by decide)).trans (convertStreams_erase _ x (by decide))

theorem switchEnded_time (s : State) (x : Switch) : (switchEnded s x).time = (s.atElapsed x.deadline).time := by
  rw [switchEnded, State.time_of_erase (modRegions_erase _ _) rfl, ← State.time_of_erase (convertedState_erase s x) rfl]

theorem switchEnded_switch (s : State) (x : Switch) : (switchEnded s x).switch = none :=
  keeps_switch (modRegions_erase _ _) rfl

/-- With no account waiting in a region the switch leaves none. -/
theorem switchEnded_rolling {s : State} {x : Switch} (hrolling : s.rolling = []) : (switchEnded s x).rolling = [] := by
  have hconv : (convertStreams (s.atElapsed x.deadline) x).rolling = [] := by
    rw [keeps_rolling (convertStreams_erase _ x (Nat.and_self _)) rfl, State.atElapsed_rolling, hrolling]
  have hconverted : (convertedState s x).rolling = [] := by
    rw [convertedState]
    split
    · rw [State.atElapsed_rolling, hrolling]
    · rw [dropUnadmitted, hconv]
      exact hconv
  rw [switchEnded, keeps_rolling (modRegions_erase _ _) rfl]
  exact hconverted

theorem joinLoops_erase (l : List (Nat × Rolling)) (s : State) :
    (l.foldl (fun a e => joinLoop e.2.waiting.length a (e.1 / 64) (e.1 % 64)) s).erase 0x209800 = s.erase 0x209800 :=
  erase_foldl (fun t _ => joinLoop_erase _ t _ _ (Nat.and_self _)) l s

/-- Settles O26: energy by `sum_partOf` and the rules of `apportion`, the second by `slowAccounts_till` and `slowAccounts_alarm`, the
switch by the rules of its cut and its end. -/
theorem energySlowdownAndModelSwitch : Obligations.EnergySlowdownAndModelSwitch := by
  refine ⟨⟨fun s e hrun => ?energy, fun s e => ?conserved⟩, fun s hrun => ?slowdown,
    fun s x hrun hswitch hopen hcut => ?cut, fun s x hrun hswitch hopen huncut => ?uncut,
    fun s x hrun hswitch hcut hup => ?ended, fun s x hrun hswitch hcut hdown => ?restarting,
    fun s x hrun hswitch hcut hrolling hup => ?admits⟩
  case energy =>
    refine ⟨_, exec_energyApportion e hrun, fun i hi => ?_, fun i hi => ?_, ?_⟩
    · rw [apportion_till _ e hi, State.atMultiple_till, State.atMultiple_sharingTills]
    · rw [apportion_devTill _ e hi, State.atMultiple_devTill, State.atMultiple_sharingTills]
    · rw [apportion_static, State.atMultiple_devTill, State.atMultiple_sharingTills]
  case conserved => exact sum_partOf e (length_sharingTills s)
  case slowdown =>
    refine ⟨_, exec_slowdownSecond hrun, ?_, fun a ha => ?_⟩
    · rw [slowAccounts_time, State.atMultiple_elapsed (State.not_inReset_of_running hrun) (by decide)]
    · have hmem : a ∈ List.range 64 := List.mem_range.mpr ha
      rw [slowAccounts_till List.nodup_range, if_pos hmem, State.atMultiple_cfg, State.atMultiple_till]
      exact ⟨rfl, rfl, rfl, fun habove htenth => slowAccounts_alarm hmem (by simpa using habove) (by simpa using htenth)⟩
  case cut =>
    refine ⟨_, _, exec_modelSwitchCut hrun hswitch hopen hcut, rfl, rfl, rfl, fun h => by simp [switchCut, h],
      fun h => by simp [switchCut, h], fun g hg => ?_⟩
    exact congrArg Region.cut (modRegions_region s (fun r => { r with cut := true }) hg)
  case uncut => exact exec_modelSwitchCut_of_uncut hswitch huncut
  case ended =>
    refine ⟨_, exec_modelSwitchEnd hrun hswitch hcut hup, ?_, ?_⟩
    · rw [keeps_switch (joinLoops_erase _ _) rfl, switchEnded_switch]
    · rw [State.time_of_erase (joinLoops_erase _ _) rfl, switchEnded_time,
        State.atElapsed_elapsed (State.not_inReset_of_running hrun)]
  case restarting => exact exec_modelSwitchEnd_of_restarting hswitch hdown
  case admits =>
    refine ⟨_, exec_modelSwitchEnd hrun hswitch hcut hup, fun g hg => ?_⟩
    rw [switchEnded_rolling hrolling, List.foldl_nil, switchEnded, modRegions_region _ _ hg]
    exact ⟨rfl, rfl⟩

end Sys2Proof.Machine

/-! The operations of station time (03 R95 to R104): ports, offsets, the choice of a source and its loss. One rule for each, with what it
leaves of the clock. -/

namespace Sys2Proof.Machine

/-! ## Ports -/

@[simp] theorem State.setPtp_ptpPort (s : State) (port : Nat) (p : PtpPort) : (s.setPtp port p).ptpPort port = p := by
  simp only [State.setPtp, State.ptpPort]
  split
  · rfl
  · rfl

/-- A port is a part of the clock, and no other part of it. -/
@[simp] theorem State.setPtp_time (s : State) (port : Nat) (p : PtpPort) : (s.setPtp port p).time
    = { s.time with ptp0 := if port = 0 then p else s.time.ptp0, ptp1 := if port = 0 then s.time.ptp1 else p } := by
  rw [State.setPtp]
  split
  · rfl
  · rfl

theorem State.setPtp_setPtp (s : State) (port : Nat) (p q : PtpPort) : (s.setPtp port p).setPtp port q = s.setPtp port q := by
  simp only [State.setPtp]
  split
  · rfl
  · rfl

@[simp] theorem State.send_ptpPort (s : State) (port code q : Nat) : (s.send port code).ptpPort q = s.ptpPort q := rfl

@[simp] theorem State.setPtp_netPort (s : State) (port : Nat) (p : PtpPort) (q : Nat) : (s.setPtp port p).netPort q = s.netPort q := by
  rw [State.netPort, State.netPort, keeps_nets (s.setPtp_erase port p (Nat.and_self _)) rfl]

/-- A message sent is the last of those on its port. -/
@[simp] theorem State.send_out (s : State) (port code : Nat) : ((s.send port code).netPort port).out = (s.netPort port).out ++ [code] := by
  rw [State.send, State.modNet_get, if_pos rfl]

@[simp] theorem State.setPtp_cfg (s : State) (port : Nat) (p : PtpPort) : (s.setPtp port p).cfg = s.cfg :=
  keeps_cfg (s.setPtp_erase port p (Nat.and_self _)) rfl

@[simp] theorem State.setPtp_journal (s : State) (port : Nat) (p : PtpPort) : (s.setPtp port p).journal = s.journal :=
  keeps_journal (s.setPtp_erase port p (Nat.and_self _)) rfl

theorem State.ptpPort_congr {s t : State} (h0 : t.time.ptp0 = s.time.ptp0) (h1 : t.time.ptp1 = s.time.ptp1) (port : Nat) :
    t.ptpPort port = s.ptpPort port := by
  rw [State.ptpPort, State.ptpPort, h0, h1]

/-- 03 R95: the source of a port is qualified when the port is. -/
theorem State.qualified_ptp (s : State) {port : Nat} (hport : port < 2) : s.qualified (port + 1) = (s.ptpPort port).qualified := by
  obtain rfl | rfl : port = 0 ∨ port = 1 := by omega
  · rfl
  · rfl

theorem State.setPtp_qualified (s : State) {port c : Nat} (hport : port < 2) (p : PtpPort) (hne : c ≠ port + 1) :
    (s.setPtp port p).qualified c = s.qualified c := by
  obtain rfl | rfl : port = 0 ∨ port = 1 := by omega
  · simp [State.qualified, hne]
  · simp [State.qualified, hne]

section
variable {s : State} (hphase : s.phase ≠ .inReset) (n c : Nat)
include hphase

theorem State.atElapsed_qualified : (s.atElapsed n).qualified c = s.qualified c := by
  simp only [State.qualified, State.atElapsed_time hphase]
  rfl

theorem State.atElapsed_qualifiedSince : (s.atElapsed n).qualifiedSince c = s.qualifiedSince c := by
  simp only [State.qualifiedSince, State.atElapsed_time hphase]
  rfl

end

theorem State.ranks_congr {s t : State} (h : t.cfg = s.cfg) : t.ranks = s.ranks := by rw [State.ranks, State.ranks, h]

/-! ## Records of the clock -/

@[simp] theorem State.timRecord_time (s : State) (type before : Nat) (step : Int) (stationBefore : Nat) :
    (s.timRecord type before step stationBefore).time = s.time :=
  keeps_time (s.timRecord_erase type before step stationBefore (Nat.and_self _)) rfl

/-- The record is of no stream, so it comes last of the waiting ones. -/
theorem State.timRecord_journal (s : State) (type before : Nat) (step : Int) (stationBefore : Nat) :
    ∃ r, (s.timRecord type before step stationBefore).journal.waiting = s.journal.waiting ++ [r] ∧ r.type = type := by
  unfold State.timRecord
  extract_lets p r s1 s2
  have hjournal : s1.journal.waiting = s.journal.waiting ++ [_] := congrArg Journal.waiting (State.emit_journal_plain s _ (.inl rfl))
  have htrace : s2.journal = s1.journal := keeps_journal (s1.trace_erase _ _ _ _ (Nat.and_self _)) rfl
  split
  · exact ⟨_, hjournal, rfl⟩
  · rw [State.raise, State.updateInta_journal, State.cause_journal, htrace]
    exact ⟨_, hjournal, rfl⟩

/-! ## The source in use -/

theorem State.fixQuality_time (s : State) : s.fixQuality.time = { s.time with quality := qualityOf s.time } := rfl

theorem keepFrequency_time (s : State) (code : Nat) : ∃ freq freqAcc, (keepFrequency s code).time
    = { s.time with freq := freq, freqAcc := freqAcc } := by
  unfold keepFrequency
  split
  · exact ⟨_, _, rfl⟩
  · exact ⟨_, _, rfl⟩

/-- A change of source moves the frequency kept and the quality besides, and nothing else of the clock. -/
theorem changeSource_time (s : State) (code : Nat) : ∃ freq freqAcc quality, (changeSource s code).time
    = { s.time with freq := freq, freqAcc := freqAcc, source := code, quality := quality } := by
  obtain ⟨freq, freqAcc, h⟩ := keepFrequency_time s code
  rw [changeSource, State.timRecord_time, State.fixQuality_time, h]
  exact ⟨freq, freqAcc, _, rfl⟩

section
variable (s : State) (code : Nat)

@[simp] theorem changeSource_source : (changeSource s code).time.source = code := by
  obtain ⟨_, _, _, h⟩ := changeSource_time s code
  rw [h]

@[simp] theorem changeSource_elapsed : (changeSource s code).time.elapsed = s.time.elapsed := by
  obtain ⟨_, _, _, h⟩ := changeSource_time s code
  rw [h]

@[simp] theorem changeSource_now : (changeSource s code).time.now = s.time.now := by
  obtain ⟨_, _, _, h⟩ := changeSource_time s code
  rw [h]

@[simp] theorem changeSource_timein : (changeSource s code).time.timein = s.time.timein := by
  obtain ⟨_, _, _, h⟩ := changeSource_time s code
  rw [h]

@[simp] theorem changeSource_ptpPort (port : Nat) : (changeSource s code).ptpPort port = s.ptpPort port := by
  obtain ⟨_, _, _, h⟩ := changeSource_time s code
  exact State.ptpPort_congr (by rw [h]) (by rw [h]) port

/-- 03 R96: record 0x0200 tells of the change. -/
theorem changeSource_journal :
    ∃ r, (changeSource s code).journal.waiting = s.journal.waiting ++ [r] ∧ r.type = 0x0200 := by
  have hkeep : (keepFrequency s code).journal = s.journal := keeps_journal (keepFrequency_erase s code (Nat.and_self _)) rfl
  rw [← hkeep]
  exact State.timRecord_journal _ _ _ _ _

end

/-- 03 R96: with no ranked source qualified there is none to take. -/
theorem bestSource_of_none {s : State} (h : ∀ c ∈ s.ranks, s.qualified c = false) : s.bestSource = none :=
  List.find?_eq_none.mpr fun c hc => by simp [h c hc]

/-! ## The loss of a source -/

theorem clearSource_ptp (s : State) {port : Nat} (hport : port < 2) :
    clearSource s (port + 1) = s.setPtp port { s.ptpPort port with qualified := false, good := 0 } := by
  have h3 : port + 1 ≠ 3 := by omega
  have h12 : port + 1 = 1 ∨ port + 1 = 2 := by omega
  simp only [clearSource, h3, h12, if_true, if_false, Nat.add_sub_cancel]

theorem loseSource_of_unused {s : State} {code : Nat} (h : s.time.source ≠ code) : loseSource s code = clearSource s code := if_neg h

theorem loseSource_of_used {s : State} {code : Nat} (h : s.time.source = code) :
    loseSource s code = changeSource (clearSource s code) ((clearSource s code).bestSource.getD 4) := if_pos h

section
variable (s : State) (code : Nat)

theorem loseSource_cases : loseSource s code = clearSource s code
    ∨ loseSource s code = changeSource (clearSource s code) ((clearSource s code).bestSource.getD 4) := by
  rcases eq_or_ne s.time.source code with h | h
  · exact .inr (loseSource_of_used h)
  · exact .inl (loseSource_of_unused h)

theorem loseSource_elapsed : (loseSource s code).time.elapsed = (clearSource s code).time.elapsed := by
  rcases loseSource_cases s code with h | h
  · rw [h]
  · rw [h, changeSource_elapsed]

theorem loseSource_now : (loseSource s code).time.now = (clearSource s code).time.now := by
  rcases loseSource_cases s code with h | h
  · rw [h]
  · rw [h, changeSource_now]

theorem loseSource_timein : (loseSource s code).time.timein = (clearSource s code).time.timein := by
  rcases loseSource_cases s code with h | h
  · rw [h]
  · rw [h, changeSource_timein]

theorem loseSource_ptpPort (port : Nat) : (loseSource s code).ptpPort port = (clearSource s code).ptpPort port := by
  rcases loseSource_cases s code with h | h
  · rw [h]
  · rw [h, changeSource_ptpPort]

end

/-- A port is lost: it is unqualified and its run starts again. -/
theorem loseSource_ptp (s : State) {port : Nat} (hport : port < 2) :
    (loseSource s (port + 1)).ptpPort port = { s.ptpPort port with qualified := false, good := 0 } := by
  rw [loseSource_ptpPort, clearSource_ptp s hport, State.setPtp_ptpPort]

/-! ## Offsets -/

/-- A measured offset shown. -/
def State.offsetShown (s : State) (theta : Int) : State := { s with time := { s.time with offset := theta } }

@[simp] theorem State.offsetShown_time (s : State) (theta : Int) :
    (s.offsetShown theta).time = { s.time with offset := theta } := rfl

@[simp] theorem State.offsetShown_ptpPort (s : State) (theta : Int) (port : Nat) :
    (s.offsetShown theta).ptpPort port = s.ptpPort port := rfl

/-- The offset of a source not in use is shown and no more. -/
theorem measured_of_unused {s : State} {code : Nat} (theta : Int) (h : s.time.source ≠ code) :
    measured s code theta = s.offsetShown theta := if_neg h

/-- A source that qualifies while another is in use takes over only by promotion. -/
theorem onQualify_of_used {s : State} (code : Nat) (theta : Int) (h0 : s.time.source ≠ 0) (h4 : s.time.source ≠ 4) :
    onQualify s code theta = s := if_neg (not_or.mpr ⟨h0, h4⟩)

/-! ## Steps of station time -/

/-- Where station time did not step nothing is passed. -/
theorem withStep_of_same {s s1 : State} (h : s1.time.now = s.time.now) : withStep s s1 = s1 := if_neg (h ▸ Nat.lt_irrefl _)

/-- With no batch pending a step passes nothing that touches the clock. -/
theorem reachPassed_time_of_no_batch {s : State} (h : s.stl.batch = none) : (reachPassed s).time = s.time := by
  have hinstant : passInstant s = s := by simp only [passInstant, h]
  have hdrain : passDrain s = s := by simp only [passDrain, h]
  rw [reachPassed, hinstant, hdrain, keeps_time (passPictures_erase _ (Nat.and_self _)) rfl,
    keeps_time (passDecisions_erase _ (Nat.and_self _)) rfl, keeps_time (passDeadlines_erase _ (Nat.and_self _)) rfl]

end Sys2Proof.Machine

/-! The PTP messages (03 R95, R97, 18 R530). -/

namespace Sys2Proof.Machine

section
variable {s : State} {port : Nat}

/-! ## Syncs -/

/-- The port after a Sync measured: the run goes on within 1 us of its first offset, and starts again otherwise. -/
def PtpPort.synced (p : PtpPort) (t1 t2 : Int) : PtpPort :=
  let theta := t1 + p.pathDelay - t2
  let inRun := 0 < p.good ∧ theta - p.runOffset ≤ 1000 ∧ p.runOffset - theta ≤ 1000
  { p with good := if inRun then p.good + 1 else 1, runOffset := if inRun then p.runOffset else theta, t1 := t1, t2 := t2
           awaiting := none }

theorem PtpPort.synced_good_pos (p : PtpPort) (t1 t2 : Int) : (p.synced t1 t2).good ≠ 0 := by
  simp only [PtpPort.synced]
  split
  · exact Nat.succ_ne_zero _
  · exact Nat.one_ne_zero

theorem PtpPort.synced_good_le (p : PtpPort) (t1 t2 : Int) : (p.synced t1 t2).good ≤ p.good + 1 := by
  simp only [PtpPort.synced]
  split
  · exact le_rfl
  · exact Nat.le_add_left _ _

/-- The state after the measurement of a port not in use. -/
def State.synced (s : State) (port : Nat) (t1 t2 : Int) : State :=
  (s.setPtp port ((s.ptpPort port).synced t1 t2)).offsetShown (t1 + (s.ptpPort port).pathDelay - t2)

theorem State.synced_ptpPort (t1 t2 : Int) : (s.synced port t1 t2).ptpPort port = (s.ptpPort port).synced t1 t2 := by
  simp [State.synced]

theorem State.synced_now (t1 t2 : Int) : (s.synced port t1 t2).time.now = s.time.now := by simp [State.synced]

theorem syncMeasured_of_unused {t1 t2 : Int} (hunused : s.time.source ≠ port + 1) : syncMeasured s port t1 t2
    = if (s.ptpPort port).qualified ∨ ((s.ptpPort port).synced t1 t2).good < 16 then s.synced port t1 t2
      else onQualify ((s.synced port t1 t2).setPtp port { (s.ptpPort port).synced t1 t2 with
        qualified := true, qualifiedSince := s.time.elapsed }) (port + 1) (t1 + (s.ptpPort port).pathDelay - t2) := by
  have hmeasured : measured (s.setPtp port ((s.ptpPort port).synced t1 t2)) (port + 1) (t1 + (s.ptpPort port).pathDelay - t2)
      = s.synced port t1 t2 := measured_of_unused _ (by simpa using hunused)
  have helapsed : (s.synced port t1 t2).time.elapsed = s.time.elapsed := by simp [State.synced]
  have hsome := (s.ptpPort port).synced_good_pos t1 t2
  have hqualified : ((s.ptpPort port).synced t1 t2).qualified = (s.ptpPort port).qualified := rfl
  unfold syncMeasured
  extract_lets p theta inRun good p1 s1 q
  have hs1 : s1 = s.synced port t1 t2 := hmeasured
  have hq : q = (s.ptpPort port).synced t1 t2 := (congrArg (State.ptpPort · port) hs1).trans (State.synced_ptpPort t1 t2)
  rw [hq, hs1, helapsed, hqualified]
  simp only [hsome, false_or]
  rfl

variable (hrun : s.running = true) (hport : port < 2)
include hrun hport

theorem exec_ptpSync (domain sender : Nat) (twoStep : Bool) (o c rx : Int) : exec (.ptpSync port domain sender twoStep o c rx) s
    = .next (withStep s (syncReceived s port domain sender twoStep o c rx)) := by
  change execPtpSync port domain sender twoStep o c rx s = _
  simp [execPtpSync, done, hrun, hport]

theorem exec_ptpFollowUp (domain sender : Nat) (o c : Int) : exec (.ptpFollowUp port domain sender o c) s
    = .next (withStep s (followUpReceived s port domain sender o c)) := by
  change execPtpFollowUp port domain sender o c s = _
  simp [execPtpFollowUp, done, hrun, hport]

/-- A Sync of the selected master with its Follow_Up to come. -/
theorem exec_ptpSync_twoStep {domain sender : Nat} (o c rx : Int) (hfrom : fromMaster s port domain sender = true) :
    exec (.ptpSync port domain sender true o c rx) s = .next (s.setPtp port { s.ptpPort port with
      lastSync := s.time.elapsed, awaiting := some (sender, rx - ingressNs s port - c) }) := by
  have hreceived : syncReceived s port domain sender true o c rx
      = (s.setPtp port { s.ptpPort port with lastSync := s.time.elapsed }).setPtp port { s.ptpPort port with
          lastSync := s.time.elapsed, awaiting := some (sender, rx - ingressNs s port - c) } := by
    simp [syncReceived, hfrom]
  rw [exec_ptpSync hrun hport, hreceived, withStep_of_same (by simp), State.setPtp_setPtp]

/-- A one-step Sync of the selected master, of a port not in use and too early to qualify it. -/
theorem exec_ptpSync_oneStep {domain sender : Nat} (o c rx : Int) (hfrom : fromMaster s port domain sender = true)
    (hunused : s.time.source ≠ port + 1) (hshort : (s.ptpPort port).good < 15) :
    exec (.ptpSync port domain sender false o c rx) s
      = .next ((s.setPtp port { s.ptpPort port with lastSync := s.time.elapsed }).synced port (o + c) (rx - ingressNs s port)) := by
  have hearly : (({ s.ptpPort port with lastSync := s.time.elapsed } : PtpPort).synced (o + c) (rx - ingressNs s port)).good < 16 :=
    Nat.lt_of_le_of_lt (PtpPort.synced_good_le _ _ _) (Nat.add_lt_add_right hshort 1)
  have hreceived : syncReceived s port domain sender false o c rx
      = (s.setPtp port { s.ptpPort port with lastSync := s.time.elapsed }).synced port (o + c) (rx - ingressNs s port) := by
    simp only [syncReceived, hfrom, Bool.not_true, Bool.false_eq_true, if_false]
    rw [syncMeasured_of_unused (by simpa using hunused), State.setPtp_ptpPort, if_pos (.inr hearly)]
  rw [exec_ptpSync hrun hport, hreceived, withStep_of_same (by rw [State.synced_now, State.setPtp_time])]

/-- The sixteenth measurement in a row qualifies the port; another source in use stays in use. -/
theorem exec_ptpFollowUp_qualifies {domain sender : Nat} {t2 : Int} (o c : Int) (hfrom : fromMaster s port domain sender = true)
    (hawaiting : (s.ptpPort port).awaiting = some (sender, t2)) (hunused : s.time.source ≠ port + 1) (h0 : s.time.source ≠ 0)
    (h4 : s.time.source ≠ 4) (hunqualified : (s.ptpPort port).qualified = false)
    (hfull : ((s.ptpPort port).synced (o + c) t2).good = 16) :
    exec (.ptpFollowUp port domain sender o c) s = .next ((s.synced port (o + c) t2).setPtp port
      { (s.ptpPort port).synced (o + c) t2 with qualified := true, qualifiedSince := s.time.elapsed }) := by
  have hsource : (s.synced port (o + c) t2).time.source = s.time.source := by simp [State.synced]
  have hreceived : followUpReceived s port domain sender o c = (s.synced port (o + c) t2).setPtp port
      { (s.ptpPort port).synced (o + c) t2 with qualified := true, qualifiedSince := s.time.elapsed } := by
    simp only [followUpReceived, hawaiting, hfrom, decide_true, Bool.and_self, if_true]
    rw [syncMeasured_of_unused hunused, if_neg (by simp [hunqualified, hfull]),
      onQualify_of_used _ _ (by simpa [hsource] using h0) (by simpa [hsource] using h4)]
  rw [exec_ptpFollowUp hrun hport, hreceived, withStep_of_same (by rw [State.setPtp_time, State.synced_now])]

/-! ## Announce -/

/-- The port with a master taken from the Announce. -/
def PtpPort.announced (p : PtpPort) (a : Announce) (now : Nat) : PtpPort :=
  { p with master := some a, lastAnnounce := now, good := 0, awaiting := none }

/-- 03 R97: with no master, or with a worse one, the sender of the Announce is selected. -/
theorem exec_ptpAnnounce_better (a : Announce) (hbetter : (s.ptpPort port).master = none ∨ ∃ m, (s.ptpPort port).master = some m
      ∧ m.sender ≠ a.sender ∧ keyBefore (announceKey a) (announceKey m) = true) :
    ∃ t, exec (.ptpAnnounce port s.ptpDomain a) s = .next t ∧ t.ptpPort port = (s.ptpPort port).announced a s.time.elapsed := by
  change ∃ t, execPtpAnnounce port s.ptpDomain a s = _ ∧ _
  have hreceived : (announceReceived s port s.ptpDomain a).ptpPort port = (s.ptpPort port).announced a s.time.elapsed := by
    unfold announceReceived
    extract_lets p take same s1
    have htake : take = true := by
      rcases hbetter with hnone | ⟨m, hm, -, hkey⟩
      · simp [take, p, hnone]
      · simp [take, p, hm, hkey]
    have hsame : same = false := by
      rcases hbetter with hnone | ⟨m, hm, hne, -⟩
      · simp [same, p, hnone]
      · simp [same, p, hm, hne]
    have hport1 : s1.ptpPort port = (s.ptpPort port).announced a s.time.elapsed := by simp [s1, hsame, p, PtpPort.announced]
    rw [if_neg (not_not.mpr rfl), if_neg (by simp [htake])]
    split
    · exact hport1
    · exact hport1
  exact ⟨_, by simp [execPtpAnnounce, done, hrun, hport], hreceived⟩

theorem exec_ptpAnnounce_worse {a m : Announce} (hm : (s.ptpPort port).master = some m) (hne : m.sender ≠ a.sender)
    (hworse : keyBefore (announceKey a) (announceKey m) = false) : exec (.ptpAnnounce port s.ptpDomain a) s = .next s := by
  change execPtpAnnounce port s.ptpDomain a s = _
  simp [execPtpAnnounce, done, hrun, hport, announceReceived, hm, hne, hworse]

/-! ## Delays -/

theorem exec_ptpDelayResp {domain sender : Nat} (r c : Int) (hfrom : fromMaster s port domain sender = true) :
    exec (.ptpDelayResp port domain sender r c) s = .next (s.setPtp port { s.ptpPort port with
      pathDelay := (((s.ptpPort port).t2 - (s.ptpPort port).t1) + (r - c - (s.ptpPort port).t3)) / 2 }) := by
  change execPtpDelayResp port domain sender r c s = _
  simp [execPtpDelayResp, done, hrun, hport, delayResp, hfrom]

theorem exec_ptpPdelayMessage (sender : Nat) (m : Pdelay) (c rx : Int) : exec (.ptpPdelayMessage port s.ptpDomain sender m c rx) s
    = .next (pdelayMessage s port s.ptpDomain sender m c rx) := by
  change execPtpPdelayMessage port s.ptpDomain sender m c rx s = _
  simp [execPtpPdelayMessage, done, hrun, hport]

theorem exec_ptpDelayReqSend (peer : Bool) (tx : Int) : exec (.ptpDelayReqSend port peer tx) s = .next ((s.setPtp port (if peer then
      { s.ptpPort port with pdelayT1 := tx + egressNs s port } else { s.ptpPort port with t3 := tx + egressNs s port })).send port
      (if peer then outPdelayReq else outDelayReq)) := by
  change execPtpDelayReqSend port peer tx s = _
  simp [execPtpDelayReqSend, done, hrun, hport]

end

/-- Settles O22: a message of each kind by the rule of its command above. -/
theorem ptpMessagesAreMeasured : Obligations.PtpMessagesAreMeasured := by
  refine ⟨fun s port domain sender o c rx hrun hport hfrom => ?twoStep,
    fun s port domain sender o c rx th hrun hport hfrom hunused hshort hth => ?oneStep,
    fun s port domain sender o c t2 th hrun hport hfrom hawaiting hunused h0 h4 hgood hunqualified hth hhigh hlow => ?qualifies,
    fun s port a hrun hport hbetter => ?better, fun s port a m hrun hport hm hne hworse => ?worse,
    fun s port domain sender r c hrun hport hfrom => ?delayResp, fun s port sender c rx hrun hport => ?request,
    fun s port sender c rx hrun hport => ?response, fun s port sender o c rx hrun hport => ?followUp,
    fun s port tx hrun hport => ⟨?delayReq, ?pdelayReq⟩⟩
  case twoStep => exact ⟨_, exec_ptpSync_twoStep hrun hport o c rx hfrom, by simp⟩
  case oneStep =>
    subst hth
    refine ⟨_, exec_ptpSync_oneStep hrun hport o c rx hfrom hunused hshort, ?_⟩
    rw [State.synced_ptpPort, State.synced_now, State.setPtp_ptpPort]
    simp [State.synced, PtpPort.synced]
  case qualifies =>
    subst hth
    have hfull : ((s.ptpPort port).synced (o + c) t2).good = 16 := by simp [PtpPort.synced, hgood, hhigh, hlow]
    refine ⟨_, exec_ptpFollowUp_qualifies hrun hport o c hfrom hawaiting hunused h0 h4 hunqualified hfull, ?_⟩
    simp [State.synced]
  case better =>
    obtain ⟨t, hexec, ht⟩ := exec_ptpAnnounce_better hrun hport a hbetter
    exact ⟨t, hexec, by simp [ht, PtpPort.announced]⟩
  case worse => exact exec_ptpAnnounce_worse hrun hport hm hne hworse
  case delayResp => exact ⟨_, exec_ptpDelayResp hrun hport r c hfrom, by simp⟩
  case request => exact ⟨_, exec_ptpPdelayMessage hrun hport sender .req c rx, by simp [pdelayMessage]⟩
  case response => exact ⟨_, exec_ptpPdelayMessage hrun hport sender (.resp 0) c rx, by simp [pdelayMessage, peerDelay]⟩
  case followUp => exact ⟨_, exec_ptpPdelayMessage hrun hport sender (.respFollowUp o) c rx, by simp [pdelayMessage, peerDelay]⟩
  case delayReq => exact ⟨_, exec_ptpDelayReqSend hrun hport false tx, by simp⟩
  case pdelayReq => exact ⟨_, exec_ptpDelayReqSend hrun hport true tx, by simp⟩

end Sys2Proof.Machine

/-! The loss of a time source and the promotion of a better one (03 R95 to R97). -/

namespace Sys2Proof.Machine

/-- With no other source of the ranks qualified, a port in use gives way to holdover, and the record tells of it. -/
theorem loseSource_to_holdover {s : State} {port : Nat} (hport : port < 2) (hused : s.time.source = port + 1)
    (hothers : ∀ c ∈ s.ranks, c ≠ port + 1 → s.qualified c = false) : (loseSource s (port + 1)).time.source = 4
      ∧ ∃ r, (loseSource s (port + 1)).journal.waiting = s.journal.waiting ++ [r] ∧ r.type = 0x0200 := by
  have hcleared := clearSource_ptp s hport
  have hbest : (clearSource s (port + 1)).bestSource = none := by
    refine bestSource_of_none fun c hc => ?_
    rw [hcleared] at hc ⊢
    rw [State.ranks_congr (s.setPtp_cfg port _)] at hc
    rcases eq_or_ne c (port + 1) with rfl | hne
    · rw [State.qualified_ptp _ hport, State.setPtp_ptpPort]
    · rw [State.setPtp_qualified s hport _ hne]
      exact hothers c hc hne
  rw [loseSource_of_used hused, hbest]
  refine ⟨changeSource_source _ _, ?_⟩
  obtain ⟨r, hr, htype⟩ := changeSource_journal (clearSource s (port + 1)) 4
  exact ⟨r, hr.trans (by rw [hcleared, State.setPtp_journal]), htype⟩

/-- The state in which a port has no master any more. -/
def State.masterless (s : State) (port : Nat) : State :=
  s.setPtp port { s.ptpPort port with master := none, awaiting := none }

/-- The state in which TIMEIN has had no pulse. -/
def State.pulseless (s : State) : State := { s with time := { s.time with timein := { s.time.timein with lastPulse := none } } }

section
variable {s : State} (hrun : s.running = true)
include hrun

theorem exec_ptpSyncLoss {port : Nat} (hport : port < 2) : exec (.ptpSyncLoss port) s = .next (loseSource s (port + 1)) := by
  change execPtpSyncLoss port s = _
  simp [execPtpSyncLoss, done, hrun, hport]

theorem exec_announceReceiptTimeout {port : Nat} {m : Announce} (hport : port < 2) (hm : (s.ptpPort port).master = some m) :
    exec (.announceReceiptTimeout port) s = .next (loseSource
      ((s.atElapsed ((s.ptpPort port).lastAnnounce + announceTimeoutNs m)).masterless port) (port + 1)) := by
  change execAnnounceReceiptTimeout port s = _
  simp only [execAnnounceReceiptTimeout, done, hrun, hport, decide_true, Bool.and_self, if_true, hm]
  rfl

theorem exec_timeinLoss {l : Nat} (hl : s.time.timein.lastPulse = some l) :
    exec .timeinLoss s = .next (loseSource (s.atElapsed (l + 1500000000)).pulseless 3) := by
  change execTimeinLoss s = _
  simp only [execTimeinLoss, done, hrun, hl, if_true]
  rfl

/-- 03 R96: the one better source that has been qualified for 60 s is taken then. -/
theorem exec_sourcePromotion {c : Nat} (h0 : s.time.source ≠ 0) (h4 : s.time.source ≠ 4) (hbetter : s.higher = [c]) :
    exec .sourcePromotion s = .next (changeSource (s.atElapsed (s.qualifiedSince c + 60 * second)) c) := by
  have hphase := State.not_inReset_of_running hrun
  have hhigher : (s.atElapsed (s.qualifiedSince c + 60 * second)).higher = [c] := by
    rw [← hbetter]
    simp only [State.higher, State.ranks_congr (s.atElapsed_cfg _), State.atElapsed_time hphase]
    exact List.filter_congr fun a _ => State.atElapsed_qualified hphase _ a
  have hdue : (s.atElapsed (s.qualifiedSince c + 60 * second)).qualifiedSince c + 60 * second
      ≤ (s.atElapsed (s.qualifiedSince c + 60 * second)).time.elapsed := by
    rw [State.atElapsed_qualifiedSince hphase, State.atElapsed_elapsed hphase]
    exact le_max_right _ _
  change execSourcePromotion s = _
  have hpromote : promote s = changeSource (s.atElapsed (s.qualifiedSince c + 60 * second)) c := by
    simp [promote, h0, h4, hbetter, leastOf, hhigher, hdue]
  rw [execSourcePromotion, if_pos hrun, hpromote]
  rfl

end

/-- Settles O23: the loss of a source in use by `loseSource_to_holdover`, of any by the rules of `loseSource`, a promotion by
`exec_sourcePromotion`. -/
theorem sourcesAreLostAndPromoted : Obligations.SourcesAreLostAndPromoted := by
  refine ⟨fun s port hrun hport => ?syncLoss, fun s port m hrun hport hm => ?announce, fun s l hrun hl => ?timein,
    fun s c hrun h0 h4 hbetter => ?promotion⟩
  case syncLoss =>
    refine ⟨_, exec_ptpSyncLoss hrun hport, ?_, ?_, fun hunused => ?_, fun hused hothers => loseSource_to_holdover hport hused hothers⟩
    · rw [loseSource_ptp s hport]
    · rw [loseSource_ptp s hport]
    · rw [loseSource_of_unused hunused, clearSource_ptp s hport, State.setPtp_time, State.setPtp_journal]
      exact ⟨rfl, rfl⟩
  case announce =>
    refine ⟨_, exec_announceReceiptTimeout hrun hport hm, ?_, ?_, ?_⟩
    · rw [loseSource_ptp _ hport, State.masterless, State.setPtp_ptpPort]
    · rw [loseSource_ptp _ hport]
    · rw [loseSource_elapsed, clearSource_ptp _ hport, State.setPtp_time, State.masterless, State.setPtp_time]
      exact State.atElapsed_elapsed (State.not_inReset_of_running hrun) _
  case timein =>
    have hphase := State.not_inReset_of_running hrun
    refine ⟨_, exec_timeinLoss hrun hl, ?_, ?_, ?_, ?_, fun hunused => ?_⟩
    · rw [loseSource_timein]
      rfl
    · rw [loseSource_timein]
      rfl
    · rw [loseSource_timein]
      rfl
    · rw [loseSource_elapsed]
      exact State.atElapsed_elapsed hphase _
    · have hsource : (s.atElapsed (l + 1500000000)).time.source = s.time.source := by rw [State.atElapsed_time hphase, Time.advance]
      rw [loseSource_of_unused (by rw [State.pulseless, hsource]; exact hunused)]
      exact hsource
  case promotion =>
    refine ⟨_, exec_sourcePromotion hrun h0 h4 hbetter, changeSource_source _ _, ?_, ?_⟩
    · rw [changeSource_elapsed, State.atElapsed_elapsed (State.not_inReset_of_running hrun)]
    · obtain ⟨r, hr, htype⟩ := changeSource_journal (s.atElapsed (s.qualifiedSince c + 60 * second)) c
      exact ⟨r, by rw [hr, State.atElapsed_journal], htype⟩

end Sys2Proof.Machine

/-! TIMEIN pulses, steps of station time and tick rates (03 R98 to R102, R110). -/

namespace Sys2Proof.Machine

/-! ## Pulses -/

/-- TIMEIN after an accepted pulse. -/
def Timein.taken (t : Timein) (label now : Nat) : Timein :=
  { t with label := some label, todWritten := false, accepted := t.accepted + 1, rejectedRun := 0
           lastAccepted := some now, lastPulse := some now }

/-- TIMEIN after a rejected pulse. -/
def Timein.rejected (t : Timein) (now : Nat) : Timein :=
  { t with accepted := 0, rejectedRun := t.rejectedRun + 1, lastPulse := some now }

/-- TIMEIN changed. -/
def State.withTimein (s : State) (t : Timein) : State := { s with time := { s.time with timein := t } }

/-- The step of station time, with the record that tells of it. -/
def State.stepTaken (s : State) (th : Int) : State :=
  let s1 := { s with time := { s.time with now := ((s.time.now : Int) + th).toNat, pendingStep := none, stepped := true } }
  s1.fixQuality.timRecord 0x0201 s.time.source th s.time.now

theorem State.stepTaken_time (s : State) (th : Int) : ∃ quality, (s.stepTaken th).time
    = { s.time with now := ((s.time.now : Int) + th).toNat, pendingStep := none, stepped := true, quality := quality } :=
  ⟨_, State.timRecord_time _ _ _ _ _⟩

theorem State.stepTaken_stl (s : State) (th : Int) : (s.stepTaken th).stl = s.stl := by
  rw [State.stepTaken, keeps_stl (State.timRecord_erase _ _ _ _ _ (Nat.and_self _)) rfl]
  rfl

section
variable {s : State}

/-- 03 R98: a pulse of a source not in use that does not yet qualify it is labelled, and its offset shown. -/
theorem pulseTaken_of_unused (hunused : s.time.source ≠ 3) (hfew : s.time.timein.accepted < 3) :
    pulseTaken s = (s.withTimein (s.time.timein.taken (pulseLabel s) s.time.elapsed)).offsetShown
      ((pulseLabel s : Int) - s.time.now) := by
  unfold pulseTaken
  extract_lets t label theta t1 r s1 u
  have hs1 : s1 = (s.withTimein (s.time.timein.taken (pulseLabel s) s.time.elapsed)).offsetShown
      ((pulseLabel s : Int) - s.time.now) := measured_of_unused _ hunused
  have haccepted : u.accepted < 4 := by
    change s1.time.timein.accepted < 4
    rw [hs1]
    exact Nat.add_lt_add_right hfew 1
  rw [if_pos (.inr haccepted), hs1]

/-- 03 R100: a rejected pulse is counted. -/
def State.pulseCounted (s : State) : State :=
  { s with time := { s.time with rejects := min 255 (s.time.rejects + 1), timein := s.time.timein.rejected s.time.elapsed } }

theorem pulseRejected_of_few (hfew : s.time.timein.rejectedRun < 2) : pulseRejected s = s.pulseCounted := by
  rw [pulseRejected]
  exact if_neg (by omega)

/-- 03 R100: the third in a row loses the source. -/
theorem pulseRejected_of_third (hthird : s.time.timein.rejectedRun = 2) : pulseRejected s = loseSource s.pulseCounted 3 := by
  rw [pulseRejected]
  exact if_pos (by omega)

variable (hrun : s.running = true)
include hrun

theorem exec_timeinPulse_accepted (hpulse : pulseAccepted s.time.timein s.time.elapsed = true) :
    exec .timeinPulse s = .next (withStep s (pulseTaken s)) := by
  change execTimeinPulse s = _
  rw [execTimeinPulse, if_pos hrun, if_pos hpulse]
  rfl

theorem exec_timeinPulse_rejected (hpulse : pulseAccepted s.time.timein s.time.elapsed = false) :
    exec .timeinPulse s = .next (withStep s (pulseRejected s)) := by
  change execTimeinPulse s = _
  rw [execTimeinPulse, if_pos hrun, if_neg (by simp [hpulse])]
  rfl

/-! ## Steps -/

theorem exec_stationTimeStep {at_ : Nat} {th : Int} (hstep : s.time.pendingStep = some (at_, th)) :
    exec .stationTimeStep s = .next (reachPassed ((s.atElapsed at_).stepTaken th)) := by
  change execStationTimeStep s = _
  simp only [execStationTimeStep, done, hstep, hrun, Bool.not_true, Bool.false_eq_true, if_false]
  rfl

/-! ## Tick rates -/

theorem exec_tickMappingUpdate : exec .tickMappingUpdate s
    = .next ((List.range 1024).foldl (fun a n => a.modStream n adjustRate) (s.atMultiple (60 * second))) := by
  change execTickMappingUpdate s = _
  rw [execTickMappingUpdate, if_pos hrun]
  rfl

end

theorem adjustRates_stream (s : State) (k n : Nat) : ((List.range k).foldl (fun a n => a.modStream n adjustRate) s).stream n
    = if n < k then adjustRate (s.stream n) else s.stream n := by
  simpa using foldl_each (fun _ => ()) State.stream (fun _ _ => adjustRate) (fun _ _ => rfl) (by simp)
    (fun _ _ _ hj => by simp [hj]) (List.nodup_range (n := k)) s n

theorem adjustRates_time (s : State) (k : Nat) : ((List.range k).foldl (fun a n => a.modStream n adjustRate) s).time = s.time :=
  foldl_keeps State.time (fun t n => t.modStream_time n adjustRate) _ s

/-- Settles O24: pulses by the rules of `pulseTaken` and `pulseRejected`, the step by `State.stepTaken_time`, tick rates by
`adjustRates_stream`. -/
theorem pulsesStepsAndTickRates : Obligations.PulsesStepsAndTickRates := by
  refine ⟨fun s hrun hpulse hunused hfew => ?accepted, fun s hrun hpulse hfew => ?rejected, fun s hrun hpulse hthird => ?third,
    fun s at_ th hrun hstep hbatch hforward => ?step, fun s hrun => ?ticks⟩
  case accepted =>
    refine ⟨_, exec_timeinPulse_accepted hrun hpulse, ?_⟩
    rw [pulseTaken_of_unused hunused hfew, withStep_of_same (by rfl)]
    exact ⟨rfl, rfl, rfl, rfl, rfl, rfl⟩
  case rejected =>
    refine ⟨_, exec_timeinPulse_rejected hrun hpulse, ?_⟩
    rw [pulseRejected_of_few hfew, withStep_of_same (by rfl)]
    exact ⟨rfl, rfl, rfl, rfl⟩
  case third =>
    refine ⟨_, exec_timeinPulse_rejected hrun hpulse, ?_⟩
    rw [pulseRejected_of_third hthird, withStep_of_same (by rw [loseSource_now]; rfl), loseSource_timein]
    exact ⟨rfl, rfl⟩
  case step =>
    obtain ⟨quality, htime⟩ := (s.atElapsed at_).stepTaken_time th
    refine ⟨_, exec_stationTimeStep hrun hstep, ?_⟩
    rw [reachPassed_time_of_no_batch (by rw [State.stepTaken_stl, State.atElapsed_stl, hbatch]), htime]
    exact ⟨rfl, rfl, Int.toNat_of_nonneg (Int.add_nonneg (Int.natCast_nonneg _) hforward)⟩
  case ticks =>
    refine ⟨_, exec_tickMappingUpdate hrun, ?_, fun n hn => ?_⟩
    · rw [adjustRates_time, State.atMultiple_elapsed (State.not_inReset_of_running hrun) (by decide)]
    · rw [adjustRates_stream, if_pos hn, State.stream, State.stream, keeps_streams (s.atMultiple_erase _ (Nat.and_self _)) rfl]

end Sys2Proof.Machine

/-! The records that wait for the journal writer (04 R162): what handing records over does to them, and which operations do no more to
the journal than that. -/

namespace Sys2Proof.Machine

/-! ## Records handed over -/

theorem putRecord_perm (r : Rec) (l : List Rec) : (putRecord r l).Perm (r :: l) := by
  induction l with
  | nil => rfl
  | cons x l ih =>
    rw [putRecord]
    split
    · exact (ih.cons x).trans (.swap r x l)
    · rfl

theorem State.mem_emit_waiting {s : State} {r x : Rec} :
    x ∈ (s.emit r).journal.waiting ↔ x = r ∨ x ∈ s.journal.waiting := by
  simp only [State.emit]
  split
  · rw [List.mem_reverse, (putRecord_perm r _).mem_iff, List.mem_cons, List.mem_reverse]
  · rw [List.mem_append, List.mem_singleton, or_comm]

/-- The journals differ in the waiting records alone, and every record that waited still waits. -/
structure RecordsAdded (s t : State) : Prop where
  kept : s.journal.waiting ⊆ t.journal.waiting
  rest : t.journal = { s.journal with waiting := t.journal.waiting }

namespace RecordsAdded

theorem of_journal {s t : State} (h : t.journal = s.journal) : RecordsAdded s t := ⟨h ▸ List.Subset.refl _, by rw [h]⟩

theorem trans {s t u : State} (h : RecordsAdded s t) (h' : RecordsAdded t u) : RecordsAdded s u :=
  ⟨List.Subset.trans h.kept h'.kept, by rw [h'.rest, h.rest]⟩

theorem emit (s : State) (r : Rec) : RecordsAdded s (s.emit r) :=
  ⟨fun _ hx => State.mem_emit_waiting.mpr (.inr hx), rfl⟩

theorem foldl {α : Type} {f : State → α → State} (h : ∀ s a, RecordsAdded s (f s a)) (l : List α) (s : State) :
    RecordsAdded s (l.foldl f s) := by
  induction l generalizing s with
  | nil => exact of_journal rfl
  | cons a l ih => exact (h s a).trans (ih (f s a))

end RecordsAdded

/-- What every step of a fold brings about for its own element, and no other step undoes, holds of every element in the end. -/
theorem foldl_all {α : Type} {f : State → α → State} {P : State → α → Prop} (hself : ∀ s a, P (f s a) a)
    (hkeep : ∀ s b a, P s a → P (f s b) a) {l : List α} (s : State) : ∀ a ∈ l, P (l.foldl f s) a := by
  induction l generalizing s with
  | nil => exact fun a ha => absurd ha List.not_mem_nil
  | cons b l ih =>
    intro a ha
    rcases List.mem_cons.mp ha with rfl | ha
    · exact List.foldlRecOn (motive := (P · a)) l f (hself s a) fun t ht b _ => hkeep t b a ht
    · exact ih _ a ha

end Sys2Proof.Machine

/-! The journal writer and its marks (04 R161, R162). -/

namespace Sys2Proof.Machine

/-! ## The bytes of records and marks -/

@[simp] theorem length_markBytes (n : Nat) : (markBytes n).length = 32 := by
  simp [markBytes]

/-! ## The writer -/

section
variable {s : State}

/-- The oldest waiting record numbered, held and written to the reserve. -/
def recordWritten (s : State) (r : Rec) (rest : List Rec) : State :=
  State.store { s with journal := { s.journal with
    waiting := rest, held := s.journal.held ++ [{ r with seq := s.journal.next }], next := s.journal.next + 1 } }
    (s.recordAddr s.journal.next) (recordBytes { r with seq := s.journal.next })

/-- 04 R162: the record takes the next number, and its bytes are all that memory is given. -/
theorem appendRecord_effect {r : Rec} {rest : List Rec} (hwait : s.journal.waiting = r :: rest)
    (hroom : s.journal.next < s.journal.lastMark) :
    (appendRecord s).journal.waiting = rest ∧ (appendRecord s).journal.next = s.journal.next + 1
      ∧ (appendRecord s).mem = memWrite s.mem (s.recordAddr s.journal.next) (recordBytes { r with seq := s.journal.next }) := by
  have happend : appendRecord s = gpioPulses (exportRecord (reclaim (recordWritten s r rest)
      (recordWritten s r rest).reserveSlots) { r with seq := s.journal.next }) r.type := by
    simp only [appendRecord, hwait, if_neg (Nat.not_le.mpr hroom)]
    rfl
  rw [happend, keeps_journal (gpioPulses_erase _ _ (Nat.and_self _)) rfl, keeps_journal (exportRecord_erase _ _ (Nat.and_self _)) rfl,
    keeps_mem (gpioPulses_erase _ _ (Nat.and_self _)) rfl, keeps_mem (exportRecord_erase _ _ (Nat.and_self _)) rfl,
    keeps_mem (reclaim_erase _ _ (Nat.and_self _)) rfl, recordWritten, State.store_mem]
  exact ⟨rfl, rfl, rfl⟩

/-- A record that would reach the last complete mark waits. -/
theorem appendRecord_of_full (hfull : s.journal.lastMark ≤ s.journal.next) : appendRecord s = s := by
  rw [appendRecord]
  split
  · rfl
  · exact if_pos hfull

theorem exec_journalRecordAppend (hans : s.answers = true) : exec .journalRecordAppend s = .next (appendRecord s) := by
  change execJournalRecordAppend s = _
  rw [execJournalRecordAppend, if_pos hans]
  rfl

end

/-! ## Marks -/

theorem length_keepMarks_le (ms : List Mark) : (keepMarks ms).length ≤ 8 := by
  rw [keepMarks, List.length_drop]
  omega

/-- The newest mark is kept. -/
theorem getLast?_keepMarks_append (ms : List Mark) (m : Mark) : (keepMarks (ms ++ [m])).getLast? = some m := by
  have hpos : 0 < (ms ++ [m]).length := by simp
  rw [keepMarks, List.getLast?_drop, if_neg (by omega), List.getLast?_concat]

/-- The moment a mark starts: at once when numbering has come near the last one, else a second after it. -/
def markTime (s : State) : State :=
  if s.journal.lastMark ≤ s.journal.next + 2 ^ 17 then s else s.atElapsed (s.journal.lastMarkStart + second)

theorem markTime_journal (s : State) : (markTime s).journal = s.journal := by
  rw [markTime]
  split
  · rfl
  · exact s.atElapsed_journal _

theorem markTime_elapsed {s : State} (hphase : s.phase ≠ .inReset) : (markTime s).time.elapsed
    = if s.journal.lastMark ≤ s.journal.next + 2 ^ 17 then s.time.elapsed
      else max s.time.elapsed (s.journal.lastMarkStart + second) := by
  rw [markTime]
  split
  · rfl
  · exact State.atElapsed_elapsed hphase _

/-- A mark started. -/
def markStarted (s : State) : State := { markTime s with journal := { (markTime s).journal with
  marking := some ((markTime s).journal.next + 2 ^ 18), lastMarkStart := (markTime s).time.elapsed } }

section
variable {s : State} (hans : s.answers = true)
include hans

theorem exec_journalMarkStart (hidle : s.journal.marking = none) : exec .journalMarkStart s = .next (markStarted s) := by
  change execJournalMarkStart s = _
  rw [execJournalMarkStart, if_pos (by simp [hans, hidle])]
  rfl

theorem exec_journalMarkComplete_programmed {m : Nat} (hmark : s.journal.marking = some m) :
    exec (.journalMarkComplete true) s = .next { s with journal := { s.journal with
      marking := none, lastMark := m, marks := keepMarks (s.journal.marks ++ [⟨s.journal.markPos, markBytes m⟩])
      markPos := s.journal.markPos + 1 } } := by
  change execJournalMarkComplete true s = _
  simp [execJournalMarkComplete, done, hmark, hans]

theorem exec_journalMarkComplete_failed {m : Nat} (hmark : s.journal.marking = some m) :
    ∃ t, exec (.journalMarkComplete false) s = .next t ∧ t.journal.marking = s.journal.marking
      ∧ t.journal.lastMark = s.journal.lastMark ∧ t.journal.markPos = s.journal.markPos + 1 := by
  change ∃ t, execJournalMarkComplete false s = _ ∧ _
  simp only [execJournalMarkComplete, done, hmark, hans]
  exact ⟨_, rfl, rfl, rfl, rfl⟩

end

end Sys2Proof.Machine

/-! The summaries of a second (04 R164, R645): each is a record handed over, and what it counted starts again. -/

namespace Sys2Proof.Machine

/-! ## Streams -/

/-- A stream at the start of a second. -/
def StreamSt.newSecond (t : StreamSt) : StreamSt :=
  { t with shownFlagged := t.secFlagged, secFlagged := 0, secConcealed := 0, secMissing := 0, concealRec := none, missRec := none
           secDiscarded := 0, secLost := 0 }

/-- Nothing is counted for the present second. -/
def StreamSt.Uncounted (t : StreamSt) : Prop :=
  t.secFlagged = 0 ∧ t.secLost = 0 ∧ t.secDiscarded = 0 ∧ t.concealRec = none ∧ t.missRec = none

/-- The summaries of a stream written, its counts as they were. -/
def streamReported (s : State) (n : Nat) : State :=
  ingestSummary (ingestSummary (runSummary (runSummary s (s.stream n).concealRec (s.stream n).secConcealed)
    (s.stream n).missRec (s.stream n).secMissing) 0x000A n stBUDGET (s.stream n).secDiscarded) 0x000B n stOK (s.stream n).secLost

theorem streamSecond_eq (s : State) (n : Nat) :
    streamSecond s n = (streamReported s n).modStream n StreamSt.newSecond := rfl

theorem streamReported_streams (s : State) (n : Nat) : (streamReported s n).streams = s.streams := by
  rw [streamReported, keeps_streams (ingestSummary_erase _ _ _ _ _ (Nat.and_self _)) rfl,
    keeps_streams (ingestSummary_erase _ _ _ _ _ (Nat.and_self _)) rfl, keeps_streams (runSummary_erase _ _ _ (Nat.and_self _)) rfl,
    keeps_streams (runSummary_erase _ _ _ (Nat.and_self _)) rfl]

theorem streamSecond_stream (s : State) (n j : Nat) :
    (streamSecond s n).stream j = if j = n then (s.stream n).newSecond else s.stream j := by
  have hsame (i : Nat) : (streamReported s n).stream i = s.stream i := by
    rw [State.stream, State.stream, streamReported_streams]
  rw [streamSecond_eq, State.modStream_get, hsame, hsame]

theorem RecordsAdded.runSummary (s : State) (r : Option Rec) (n : Nat) : RecordsAdded s (runSummary s r n) := by
  unfold Machine.runSummary
  split
  · split
    · exact .of_journal rfl
    · exact .emit _ _
  · exact .of_journal rfl

theorem RecordsAdded.ingestSummary (s : State) (type n status count : Nat) :
    RecordsAdded s (ingestSummary s type n status count) := by
  unfold Machine.ingestSummary
  split
  · exact .of_journal rfl
  · exact .emit _ _

theorem RecordsAdded.streamSecond (s : State) (n : Nat) : RecordsAdded s (streamSecond s n) := by
  have hreported : RecordsAdded s (streamReported s n) :=
    (((RecordsAdded.runSummary _ _ _).trans (.runSummary _ _ _)).trans (.ingestSummary _ _ _ _ _)).trans (.ingestSummary _ _ _ _ _)
  exact hreported.trans (.of_journal rfl)

/-! ## The other units -/

theorem RecordsAdded.shedSecond (s : State) (a : Nat) : RecordsAdded s (shedSecond s a) := by
  unfold Machine.shedSecond
  extract_lets x r
  split
  · exact .of_journal rfl
  · exact (RecordsAdded.emit s _).trans (.of_journal rfl)

theorem RecordsAdded.fullSecond (s : State) : RecordsAdded s (fullSecond s) := by
  unfold Machine.fullSecond
  extract_lets n s1
  split
  · exact .of_journal rfl
  · exact (RecordsAdded.emit s _).trans (.of_journal rfl)

theorem fullSecond_secFull (s : State) : (fullSecond s).ledger.secFull = 0 := by
  unfold fullSecond
  extract_lets n s1
  split
  next hnone => exact hnone
  next => rfl

theorem RecordsAdded.missedSecond (s : State) (n : Nat) : RecordsAdded s (missedSecond s n) :=
  (RecordsAdded.foldl (fun a _ => .emit a _) _ s).trans (.of_journal rfl)

/-- The record of the errors of a source and unit corrected in a second. -/
def correctedRecord (s : State) (e : (Nat × Nat) × Nat) : Rec :=
  s.record 0x0600 ucFLT (.flt { cls := 1, source := e.1.1, unit := e.1.2, count := e.2 })

theorem correctedSecond_journal (s : State) :
    (correctedSecond s).journal = (s.flt.secCorrected.foldl (fun a e => a.emit (correctedRecord a e)) s).journal := rfl

theorem RecordsAdded.correctedSecond (s : State) : RecordsAdded s (correctedSecond s) :=
  (RecordsAdded.foldl (fun a e => .emit a (correctedRecord a e)) s.flt.secCorrected s).trans (.of_journal (correctedSecond_journal s))

/-- 14 R410: every source and unit counted has its record. -/
theorem correctedSecond_records (s : State) : ∀ e ∈ s.flt.secCorrected, ∃ r ∈ (correctedSecond s).journal.waiting,
    r.type = 0x0600 ∧ r.payload = .flt { cls := 1, source := e.1.1, unit := e.1.2, count := e.2 } := by
  rw [correctedSecond_journal]
  refine foldl_all (P := fun (a : State) (e : (Nat × Nat) × Nat) => ∃ r ∈ a.journal.waiting, r.type = 0x0600
    ∧ r.payload = .flt { cls := 1, source := e.1.1, unit := e.1.2, count := e.2 }) (fun a e => ?_) (fun a b e => ?_) s
  · exact ⟨correctedRecord a e, State.mem_emit_waiting.mpr (.inl rfl), rfl, rfl⟩
  · rintro ⟨r, hr, hfields⟩
    exact ⟨r, (RecordsAdded.emit a (correctedRecord a b)).kept hr, hfields⟩

theorem RecordsAdded.untrustedSecond (s : State) (z : Nat) : RecordsAdded s (untrustedSecond s z) := by
  unfold Machine.untrustedSecond
  extract_lets x
  split
  · exact .of_journal rfl
  · exact (RecordsAdded.emit s _).trans (.of_journal rfl)

theorem RecordsAdded.linkSecond (s : State) : RecordsAdded s (linkSecond s) := by
  unfold Machine.linkSecond
  extract_lets n s1
  have hdropped : RecordsAdded s s1 := by
    unfold s1
    split
    · exact .of_journal rfl
    · exact .emit _ _
  exact hdropped.trans (.of_journal rfl)

/-! ## The whole second -/

/-- The summaries of the streams written. -/
def streamsReported (s : State) : State := (s.streams.map (·.1)).foldl streamSecond s

/-- The summaries of the accounts and the ledger written too. -/
def ledgerReported (s : State) : State :=
  fullSecond (((streamsReported s).accts.map (·.1)).foldl shedSecond (streamsReported s))

/-- The summaries of the encoders written too. -/
def encodersReported (s : State) : State := (List.range 4).foldl missedSecond (ledgerReported s)

/-- Every summary written. -/
def secondReported (s : State) : State :=
  let s6 := correctedSecond (encodersReported s)
  linkSecond ((s6.saf.zones.map (·.1)).foldl untrustedSecond s6)

/-- The second has ended and none of its summaries is written. -/
def secondEnded (s : State) : State :=
  { s.atElapsed (secondEnd s) with journal := { (s.atElapsed (secondEnd s)).journal with summed := secondEnd s / second } }

theorem secondSummary_eq (s : State) : secondSummary s = secondReported (secondEnded s) := by
  unfold secondSummary
  extract_lets due s1 journal s2 s3 s4 s5 s6
  have hended : s2 = secondEnded s := rfl
  rw [← hended]
  clear_value s2
  simp only [secondReported, encodersReported, ledgerReported, streamsReported, s3, s4, s5, s6]

section
variable (s : State)

theorem streamsReported_erase : (streamsReported s).erase 0x1800 = s.erase 0x1800 :=
  erase_foldl (fun t n => streamSecond_erase t n (Nat.and_self _)) _ _

theorem ledgerReported_erase : (ledgerReported s).erase 0x1004800 = (streamsReported s).erase 0x1004800 :=
  (fullSecond_erase _ (by decide)).trans (erase_foldl (fun t a => shedSecond_erase t a (by decide)) _ _)

theorem encodersReported_erase : (encodersReported s).erase 0x2000800 = (ledgerReported s).erase 0x2000800 :=
  erase_foldl (fun t n => missedSecond_erase t n (Nat.and_self _)) _ _

/-- What the last two summaries leave of the state in which the errors of the second are told. -/
theorem secondReported_erase :
    (secondReported s).erase 0x220000800 = (correctedSecond (encodersReported s)).erase 0x220000800 :=
  (linkSecond_erase _ (by decide)).trans (erase_foldl (fun t z => untrustedSecond_erase t z (by decide)) _ _)

theorem RecordsAdded.encodersReported : RecordsAdded s (encodersReported s) :=
  (((RecordsAdded.foldl .streamSecond _ _).trans (.foldl .shedSecond _ _)).trans (.fullSecond _)).trans (.foldl .missedSecond _ _)

theorem RecordsAdded.secondReported_corrected :
    RecordsAdded (Machine.correctedSecond (Machine.encodersReported s)) (secondReported s) :=
  (RecordsAdded.foldl .untrustedSecond _ _).trans (.linkSecond _)

theorem RecordsAdded.secondReported : RecordsAdded s (secondReported s) :=
  ((RecordsAdded.encodersReported s).trans (.correctedSecond _)).trans (.secondReported_corrected s)

theorem secondReported_time : (secondReported s).time = s.time := by
  rw [keeps_time (secondReported_erase s) rfl, keeps_time (correctedSecond_erase _ (Nat.and_self _)) rfl,
    keeps_time (encodersReported_erase s) rfl, keeps_time (ledgerReported_erase s) rfl, keeps_time (streamsReported_erase s) rfl]

theorem secondReported_secCorrected : (secondReported s).flt.secCorrected = [] := by
  rw [keeps_flt (secondReported_erase s) rfl]
  rfl

theorem secondReported_secFull : (secondReported s).ledger.secFull = 0 := by
  rw [keeps_ledger (secondReported_erase s) rfl, keeps_ledger (correctedSecond_erase _ (Nat.and_self _)) rfl,
    keeps_ledger (encodersReported_erase s) rfl]
  exact fullSecond_secFull _

/-- Every stream of the table starts its counts again. -/
theorem secondReported_uncounted : ∀ n ∈ s.streams.map (·.1), ((secondReported s).stream n).Uncounted := by
  have hstreams : (secondReported s).streams = (streamsReported s).streams := by
    rw [keeps_streams (secondReported_erase s) rfl, keeps_streams (correctedSecond_erase _ (Nat.and_self _)) rfl,
      keeps_streams (encodersReported_erase s) rfl, keeps_streams (ledgerReported_erase s) rfl]
  have hself (t : State) (n : Nat) : ((streamSecond t n).stream n).Uncounted := by
    rw [streamSecond_stream, if_pos rfl]
    exact ⟨rfl, rfl, rfl, rfl, rfl⟩
  have hall := foldl_all (P := fun t n => (t.stream n).Uncounted) hself (fun t m n hdone => by
    rcases eq_or_ne n m with rfl | hne
    · exact hself t n
    · rwa [streamSecond_stream, if_neg hne]) (l := s.streams.map (·.1)) s
  intro n hn
  rw [State.stream, hstreams]
  exact hall n hn

/-- Every source and unit with corrected errors has its record. -/
theorem secondReported_corrected : ∀ e ∈ s.flt.secCorrected, ∃ r ∈ (secondReported s).journal.waiting,
    r.type = 0x0600 ∧ r.payload = .flt { cls := 1, source := e.1.1, unit := e.1.2, count := e.2 } := by
  intro e he
  have hflt : (encodersReported s).flt = s.flt := by
    rw [keeps_flt (encodersReported_erase s) rfl, keeps_flt (ledgerReported_erase s) rfl, keeps_flt (streamsReported_erase s) rfl]
  have hcorrected := correctedSecond_records (encodersReported s)
  rw [hflt] at hcorrected
  obtain ⟨r, hr, hfields⟩ := hcorrected e he
  exact ⟨r, (RecordsAdded.secondReported_corrected s).kept hr, hfields⟩

end

section
variable (s : State)

theorem secondEnded_time : (secondEnded s).time = (s.atElapsed (secondEnd s)).time := by rw [secondEnded]

theorem secondEnded_journal :
    (secondEnded s).journal = { s.journal with summed := secondEnd s / second } := by
  rw [secondEnded, State.atElapsed_journal]

theorem secondEnded_streams : (secondEnded s).streams = s.streams := by
  rw [← keeps_streams (s.atElapsed_erase (secondEnd s) (Nat.and_self _)) rfl, secondEnded]

theorem secondEnded_flt : (secondEnded s).flt = s.flt := by
  rw [← keeps_flt (s.atElapsed_erase (secondEnd s) (Nat.and_self _)) rfl, secondEnded]

end

theorem exec_secondSummary {s : State} (hrun : s.running = true) :
    exec .secondSummary s = .next (secondReported (secondEnded s)) := by
  change execSecondSummary s = _
  rw [execSecondSummary, if_pos hrun, secondSummary_eq]
  rfl

/-- Settles O30: a record appended by `appendRecord_effect`, a mark by the rules of its start and its completion, the end of a second by
the rules of `secondSummary`. -/
theorem recordsMarksAndSummaries : Obligations.RecordsMarksAndSummaries := by
  refine ⟨⟨fun s r rest hans hwait hroom => ?append, fun s hans hfull => ?full, length_recordBytes⟩,
    ⟨fun s hans hidle => ?start, fun s m hans hmark => ?programmed, length_markBytes, fun s m hans hmark => ?failed⟩,
    fun s hrun => ?second⟩
  case append =>
    obtain ⟨hrest, hnext, hmem⟩ := appendRecord_effect hwait hroom
    refine ⟨_, exec_journalRecordAppend hans, hrest, hnext, fun i hi => ?_, fun j hj => ?_⟩
    · rw [State.byte, hmem, memWrite_get_inside _ _ _ _ hi]
    · rw [State.byte, hmem, memWrite_get_outside _ _ _ _ hj, State.byte]
  case full => rw [exec_journalRecordAppend hans, appendRecord_of_full hfull]
  case start =>
    have hphase : s.phase ≠ .inReset := by simpa [State.answers] using hans
    refine ⟨_, exec_journalMarkStart hans hidle, ?_, rfl, ?_, markTime_elapsed hphase⟩
    · rw [markStarted, markTime_journal]
    · rw [markStarted, markTime_journal]
  case programmed =>
    exact ⟨_, exec_journalMarkComplete_programmed hans hmark, rfl, rfl, getLast?_keepMarks_append _ _, length_keepMarks_le _, rfl⟩
  case failed =>
    obtain ⟨t, hexec, hmarking, hfields⟩ := exec_journalMarkComplete_failed hans hmark
    exact ⟨t, hexec, hmarking.trans hmark, hfields⟩
  case second =>
    have hadded := RecordsAdded.secondReported (secondEnded s)
    refine ⟨_, exec_secondSummary hrun, ?_, ?_, secondReported_secCorrected _, secondReported_secFull _, rfl, rfl,
      fun n hn => secondReported_uncounted _ n (by rwa [secondEnded_streams]),
      fun e he => secondReported_corrected _ e (by rwa [secondEnded_flt]), fun r hr => hadded.kept (by rwa [secondEnded_journal])⟩
    · rw [secondReported_time, secondEnded_time, State.atElapsed_elapsed (State.not_inReset_of_running hrun)]
    · rw [hadded.rest, secondEnded_journal]

end Sys2Proof.Machine

/-! What the release of access units and the dispatch of decode engines leave of a stream (04 R146, R147, R150, R155). -/

namespace Sys2Proof.Machine

theorem State.stream_congr {s t : State} (h : t.streams = s.streams) (n : Nat) : t.stream n = s.stream n := by
  rw [State.stream, State.stream, h]

/-- What `p` shows of the stream that is written it shows of every stream. -/
theorem State.setStream_keeps {β : Type} (p : StreamSt → β) {s : State} {n : Nat} {x : StreamSt} (h : p x = p (s.stream n)) (j : Nat) :
    p ((s.setStream n x).stream j) = p (s.stream j) := by
  rw [State.setStream_get]
  split
  next hj => rw [h, hj]
  next => rfl

theorem State.cfgOf_congr {s t : State} (hcfg : t.cfg = s.cfg) (hold : t.cfgOld = s.cfgOld) (hstl : t.stl = s.stl) (epoch : Nat) :
    t.cfgOf epoch = s.cfgOf epoch := by
  rw [State.cfgOf, State.cfgOf, hcfg, hold, hstl]

/-! ## Dispatch -/

/-- What `p` shows of a stream does not speak of the units in its buffer nor of those it has skipped. -/
def IgnoresBuffer {β : Type} (p : StreamSt → β) : Prop :=
  ∀ (t : StreamSt) (es : List AccessUnit) (esBytes skipped : Nat) (inDecode : Bool),
    p { t with es := es, esBytes := esBytes, skipped := skipped, inDecode := inDecode } = p t

/-- An engine is given a unit of a stream or of a clip. -/
theorem dispatchOne_cases {s t : State} (h : dispatchOne s = some t) : ∃ s0 d, s0.streams = s.streams
    ∧ ((∃ n u, t = startDecode s0 d n u) ∨ ∃ o u, t = startReplay s0 d o u) := by
  unfold dispatchOne at h
  split at h
  · cases h
  next d _ =>
    extract_lets s0 el zoneOnes at h
    refine ⟨s0, d, ?_, ?_⟩
    · unfold s0
      split
      · rfl
      · rfl
    · split at h
      next n u _ => exact .inl ⟨n, u, (Option.some.inj h).symm⟩
      · split at h
        · cases h
        next o u _ _ => exact .inr ⟨o, u, (Option.some.inj h).symm⟩

theorem startDecode_streams (s : State) (d n : Nat) (u : AccessUnit) : (startDecode s d n u).streams = (s.setStream n { s.stream n with
    es := (s.stream n).es.drop 1, esBytes := (s.stream n).esBytes - u.bytes, inDecode := true }).streams := by
  rw [startDecode, State.modDec_streams, keeps_streams (State.trace_erase _ _ _ _ _ (Nat.and_self _)) rfl,
    keeps_streams (reuseBuffers_erase _ _ _ (Nat.and_self _)) rfl]

theorem startReplay_streams (s : State) (d : Nat) (o : Output) (u : AccessUnit) : (startReplay s d o u).streams = s.streams :=
  keeps_streams (startReplay_erase s d o u (Nat.and_self _)) rfl

section
variable {β : Type} {p : StreamSt → β} (hp : IgnoresBuffer p)
include hp

theorem IgnoresBuffer.consumeWaiting (k : Nat) (t : StreamSt) : p (consumeWaiting k t) = p t := by
  induction k generalizing t with
  | zero => rfl
  | succ k ih =>
    unfold Machine.consumeWaiting
    split
    · rfl
    next u r hes =>
      split
      · rw [ih, dropHead]
        simp only [hes]
        exact hp t _ _ _ t.inDecode
      · rfl

theorem IgnoresBuffer.dispatchOne {s t : State} (h : dispatchOne s = some t) (n : Nat) : p (t.stream n) = p (s.stream n) := by
  obtain ⟨s0, d, hsame, ⟨m, u, rfl⟩ | ⟨o, u, rfl⟩⟩ := dispatchOne_cases h
  · rw [State.stream_congr (startDecode_streams _ _ _ _), ← State.stream_congr hsame]
    exact State.setStream_keeps p (hp _ _ _ (s0.stream m).skipped _) n
  · rw [State.stream_congr (startReplay_streams _ _ _ _), State.stream_congr hsame]

theorem IgnoresBuffer.dispatchLoop (k : Nat) (s : State) (n : Nat) : p ((dispatchLoop k s).stream n) = p (s.stream n) := by
  induction k generalizing s with
  | zero => rfl
  | succ k ih =>
    unfold Machine.dispatchLoop
    split
    · rfl
    next s1 h => rw [ih, hp.dispatchOne h]

/-- 04 R153, R155: dispatch takes units out of the buffers, and no more of a stream. -/
theorem IgnoresBuffer.dispatch (s : State) (n : Nat) : p ((dispatch s).stream n) = p (s.stream n) := by
  unfold Machine.dispatch
  split
  · rfl
  · rw [hp.dispatchLoop]
    exact foldl_keeps (fun a => p (a.stream n)) (fun a m => State.setStream_keeps p (hp.consumeWaiting _ _) n) _ s

end

/-! ## Access units entered -/

/-- What a stream knows of its packets: those held, the timestamp last released and how many came. -/
def StreamSt.received (t : StreamSt) : List Packet × Option Nat × W64 := (t.packets, t.lastReleasedTs, t.counters.packets)

theorem ignoresBuffer_received : IgnoresBuffer StreamSt.received := fun _ _ _ _ _ => rfl

theorem storePre_received (s : State) (n : Nat) (u : AccessUnit) (j : Nat) :
    ((storePre s n u).stream j).received = (s.stream j).received := by
  unfold storePre
  extract_lets t c
  split
  extract_lets size
  split
  · exact State.setStream_keeps StreamSt.received (by rfl) j
  · exact State.setStream_keeps StreamSt.received (by rfl) j

theorem enterEs_received (s : State) (n : Nat) (u : AccessUnit) (j : Nat) :
    ((enterEs s n u).stream j).received = (s.stream j).received := by
  unfold enterEs
  extract_lets t cap fits row
  split
  · exact State.setStream_keeps StreamSt.received (by rfl) j
  · rw [storePre_received]
    exact State.setStream_keeps StreamSt.received (by rfl) j

/-! ## Access units released -/

theorem headRun_append (ps : List Packet) : (headRun ps).1 ++ (headRun ps).2 = ps := by
  cases ps with
  | nil => rfl
  | cons p ps => exact congrArg (p :: ·) List.takeWhile_append_dropWhile

/-- A run has a packet that arrived last. -/
theorem exists_lastArrived {run : List Packet} (h : run ≠ []) : ∃ la, lastArrived run = some la := by
  obtain ⟨first, l, rfl⟩ := (List.eq_nil_or_concat' run).resolve_left h
  rw [lastArrived, List.foldl_append, List.foldl_cons, List.foldl_nil]
  split
  · exact ⟨_, rfl⟩
  · split
    · exact ⟨_, rfl⟩
    · exact ⟨_, rfl⟩

theorem unwrap_counters (bits : Nat) (p : Policies) (force : Bool) (t : StreamSt) (r a : Nat) :
    (unwrap bits p force t r a).2.1.counters = t.counters := by
  unfold unwrap
  split
  · rfl
  · extract_lets d e jump d1 tick t1
    change t1.counters = _
    unfold t1
    split
    · rfl
    · rfl

/-- 04 R147: the run leaves the reorder buffer, whether or not its unit fits in the elementary-stream buffer. -/
theorem releaseRun_received (s : State) (n : Nat) (p : Packet) (run rest : List Packet) :
    ((releaseRun s n (p :: run) rest).stream n).received = (rest, some p.timestamp, (s.stream n).counters.packets) := by
  obtain ⟨la, hla⟩ := exists_lastArrived (List.cons_ne_nil p run)
  unfold releaseRun
  split
  next la f l _ hfirst _ =>
    extract_lets t miss
    split
    next tick t1 jump hunwrap =>
      extract_lets top t2 u s1 s2
      have hcounters : t1.counters = (s.stream n).counters := by
        rw [← unwrap_counters 32 (s.cfgOf la.epoch).policies false (s.stream n) f.timestamp la.arrival, hunwrap]
      have hrecorded : s2.streams = s1.streams := by
        unfold s2
        split
        · rfl
        · exact keeps_streams (State.streamRecord_erase _ _ _ _ _ _ _ _ _ (Nat.and_self _)) rfl
      have ht2 : t2.received = (rest, some f.timestamp, t1.counters.packets) := rfl
      rw [enterEs_received, State.stream_congr hrecorded, State.setStream_get, if_pos rfl, ht2, hcounters,
        ← Option.some.inj hfirst]
  next hnone => exact absurd (List.getLast?_cons ..) (hnone la p _ hla rfl)

/-! ## What is released at one time -/

/-- A run that is complete, or whose time has come, is released. -/
theorem releaseReady_of_due {s : State} {n : Nat} {p : Packet} {run rest : List Packet} (k : Nat)
    (hrun : headRun (s.stream n).packets = (p :: run, rest)) {due : Nat}
    (hdue : headDeadline (((s.cfgOf p.epoch).stream n).holdMs * 1000000) (p :: run) rest = some due) (hpast : due ≤ s.time.elapsed) :
    releaseReady (k + 1) s n = releaseReady k (releaseRun s n (p :: run) rest) n := by
  simp [releaseReady, hrun, hdue, hpast]

/-- A run that is not complete and has no event to come stays, and all behind it. -/
theorem releaseReady_of_open {s : State} {n : Nat} {p : Packet} {run rest : List Packet} (k : Nat)
    (hrun : headRun (s.stream n).packets = (p :: run, rest))
    (hopen : headDeadline (((s.cfgOf p.epoch).stream n).holdMs * 1000000) (p :: run) rest = none)
    (hincomplete : headComplete (s.stream n) (p :: run) rest = false) : releaseReady (k + 1) s n = s := by
  simp [releaseReady, hrun, hopen, hincomplete]

theorem releaseReady_cases (k : Nat) (s : State) (n : Nat) : releaseReady (k + 1) s n = s
    ∨ ∃ p run rest, headRun (s.stream n).packets = (p :: run, rest)
      ∧ releaseReady (k + 1) s n = releaseReady k (releaseRun s n (p :: run) rest) n := by
  generalize hnext : releaseReady (k + 1) s n = u
  rw [releaseReady] at hnext
  split at hnext
  next run rest hrun =>
    split at hnext
    · exact .inl hnext.symm
    next p run =>
      extract_lets hold due at hnext
      split at hnext
      · exact .inr ⟨p, run, rest, hrun, hnext.symm⟩
      · exact .inl hnext.symm

/-- Of the packets held some at the front are released, and the timestamp last released is not forgotten. -/
theorem releaseReady_received (k : Nat) (s : State) (n : Nat) :
    (∃ j, ((releaseReady k s n).stream n).packets = (s.stream n).packets.drop j)
      ∧ ((s.stream n).lastReleasedTs ≠ none → ((releaseReady k s n).stream n).lastReleasedTs ≠ none)
      ∧ ((releaseReady k s n).stream n).counters.packets = (s.stream n).counters.packets := by
  induction k generalizing s with
  | zero => exact ⟨⟨0, rfl⟩, id, rfl⟩
  | succ k ih =>
    rcases releaseReady_cases k s n with hsame | ⟨p, run, rest, hrun, hnext⟩
    · rw [hsame]
      exact ⟨⟨0, rfl⟩, id, rfl⟩
    · obtain ⟨⟨j, hpackets⟩, hlast, hcount⟩ := ih (releaseRun s n (p :: run) rest)
      have hreleased := releaseRun_received s n p run rest
      simp only [StreamSt.received, Prod.mk.injEq] at hreleased
      obtain ⟨hleft, hts, hsame⟩ := hreleased
      have hheld := headRun_append (s.stream n).packets
      rw [hrun] at hheld
      rw [hnext, hpackets, hleft, hcount, hsame, ← hheld]
      refine ⟨⟨(p :: run).length + j, ?_⟩, fun _ => hlast (by rw [hts]; exact Option.some_ne_none _), rfl⟩
      rw [List.drop_append, Nat.add_sub_cancel_left, List.drop_of_length_le (Nat.le_add_right _ _), List.nil_append]

end Sys2Proof.Machine

/-! Frames, datagrams and the reorder hold (04 R142 to R147, 18 R527 to R529). -/

namespace Sys2Proof.Machine

/-! ## Frames -/

/-- A frame counted. -/
def frameCounted (s : State) (port : Nat) : State := s.modNet port fun n => { n with rx := n.rx + 1 }

theorem transmit_of_up {s : State} {port : Nat} (code : Nat) (hup : s.portUp port = true) : transmit s port code []
    = s.modNet port fun n => { n with out := n.out ++ [code], tx := n.tx + 1 } := by
  rw [transmit, if_pos hup]
  rfl

theorem frameCounted_portUp (s : State) (port : Nat) : (frameCounted s port).portUp port = s.portUp port := by
  simp [State.portUp, frameCounted]

section
variable {s : State} {port : Nat} {f : Frame} (hans : s.answers = true) (hport : port < 2) (hup : s.portUp port = true)
include hans hport hup

theorem exec_ethFrameReceive_of_bad (hbad : f.fcsError = true) :
    exec (.ethFrameReceive port f) s = .next ((frameCounted s port).modNet port fun n => { n with fcsErr := n.fcsErr + 1 }) := by
  change execEthFrameReceive port f s = _
  simp [execEthFrameReceive, done, hans, hport, hup, hbad, frameCounted]

variable (hgood : f.fcsError = false)
include hgood

theorem exec_ethFrameReceive_of_dropped (hdrop : frameSizeOk f = false ∨ claimOf s port f = none) :
    exec (.ethFrameReceive port f) s = .next ((frameCounted s port).modNet port fun n => { n with dropped := n.dropped + 1 }) := by
  change execEthFrameReceive port f s = _
  cases hsize : frameSizeOk f with
  | false => simp [execEthFrameReceive, done, hans, hport, hup, hgood, hsize, frameCounted]
  | true =>
    have hnone := hdrop.resolve_left (by simp [hsize])
    simp [execEthFrameReceive, done, hans, hport, hup, hgood, hsize, hnone, frameCounted]

variable (hsize : frameSizeOk f = true)
include hsize

/-- 18 R529: an address query for the port is answered. -/
theorem exec_ethFrameReceive_of_query (hquery : claimOf s port f = some .answer) : exec (.ethFrameReceive port f) s
    = .next ((frameCounted s port).modNet port fun n => { n with out := n.out ++ [outAnswer], tx := n.tx + 1 }) := by
  rw [← transmit_of_up outAnswer ((frameCounted_portUp s port).trans hup)]
  change execEthFrameReceive port f s = _
  simp [execEthFrameReceive, done, hans, hport, hup, hgood, hsize, hquery, frameCounted]

theorem exec_ethFrameReceive_of_claimed {c : Claim} (hclaim : claimOf s port f = some c) (hother : c ≠ .answer) :
    exec (.ethFrameReceive port f) s = .next (frameCounted s port) := by
  change execEthFrameReceive port f s = _
  cases c with
  | answer => exact absurd rfl hother
  | ptp => simp [execEthFrameReceive, done, hans, hport, hup, hgood, hsize, hclaim, frameCounted]
  | sanor => simp [execEthFrameReceive, done, hans, hport, hup, hgood, hsize, hclaim, frameCounted]
  | ingest => simp [execEthFrameReceive, done, hans, hport, hup, hgood, hsize, hclaim, frameCounted]

end

/-! ## RTP packets -/

theorem foldl_bytes_lt (l : List Byte) (a : Nat) :
    l.foldl (fun a b => 256 * a + b.toNat) a < (a + 1) * 256 ^ l.length := by
  induction l generalizing a with
  | nil => simp
  | cons b l ih =>
    have hb := b.isLt
    refine Nat.lt_of_lt_of_le (ih _) ?_
    rw [List.length_cons, Nat.pow_succ', ← Nat.mul_assoc]
    exact Nat.mul_le_mul_right _ (show 256 * a + b.toNat + 1 ≤ (a + 1) * 256 by omega)

theorem beField_lt (bs : List Byte) (off n : Nat) : beField bs off n < 256 ^ n := by
  refine Nat.lt_of_lt_of_le (foldl_bytes_lt _ 0) ?_
  rw [Nat.zero_add, Nat.one_mul]
  exact Nat.pow_le_pow_right (by decide) (List.length_take_le _ _)

/-- 04 R142: the sequence number of a packet has 16 bits. -/
theorem parseRtp_seq_lt {bs : List Byte} {p : Rtp} (h : parseRtp bs = some p) : p.seq < 65536 := by
  unfold parseRtp at h
  extract_lets b0 b1 csrc head pad at h
  split at h
  · cases h
  · rw [← Option.some.inj h]
    exact beField_lt bs 2 2

/-! ## Packets held -/

theorem extendSeq_received (t : StreamSt) (seq : Nat) : (extendSeq t seq).2.received = t.received := by
  unfold extendSeq
  split
  · rfl
  · extract_lets x
    change StreamSt.received (ite _ _ _) = _
    split
    · rfl
    · rfl

theorem extendSeq_of_none {t : StreamSt} (seq : Nat) (h : t.seqBase = none) :
    extendSeq t seq = (65536 + seq, { t with seqBase := some (65536 + seq) }) := by
  rw [extendSeq]
  simp only [h]

/-- A packet counts for its stream whether it is held, late or a duplicate. -/
theorem holdPacket_count (s : State) (n seq timestamp : Nat) (marker : Bool) (rap : Rap) (data : List Byte) :
    ((holdPacket s n seq timestamp marker rap data).stream n).counters.packets = (s.stream n).counters.packets + 1 := by
  unfold holdPacket
  extract_lets t0 counters t1
  split
  next x t2 hextend =>
    extract_lets late p s1
    split
    · rw [State.setStream_get, if_pos rfl]
    · obtain ⟨-, -, hcount⟩ := releaseReady_received ((s1.stream n).packets.length + 1) s1 n
      have hsame := extendSeq_received t1 seq
      rw [hextend] at hsame
      rw [hcount, State.setStream_get, if_pos rfl]
      exact congrArg (fun r => r.2.2) hsame

/-- The first packet of a stream, without its unit's marker, is held with its number, its arrival and the epoch in force. -/
theorem holdPacket_first {s : State} {n : Nat} (seq timestamp : Nat) (rap : Rap) (data : List Byte)
    (hempty : (s.stream n).packets = []) (hreleased : (s.stream n).released = none) (hbase : (s.stream n).seqBase = none) :
    ((holdPacket s n seq timestamp false rap data).stream n).packets = [{
      seq := 65536 + seq, timestamp := timestamp, marker := false, arrival := s.time.now, elapsedAt := s.time.elapsed, rap := rap
      data := data, epoch := s.stl.epoch.toNat, dDec := (s.stream n).dDec }] := by
  unfold holdPacket
  extract_lets t0 counters t1
  split
  next x t2 hextend =>
    cases (extendSeq_of_none (t := t1) seq hbase).symm.trans hextend
    extract_lets late p s1
    have hheld : (s1.stream n).packets = [p] := by simp [s1, insertPacket, t1, t0, hempty]
    rw [if_neg (by simp [late, t1, t0, hempty, hreleased]), releaseReady_of_open (p := p) (run := []) (rest := []) _
      (by rw [hheld]; rfl) rfl rfl, hheld]

end Sys2Proof.Machine

/-! Datagrams taken and access units released by the reorder hold (04 R142 to R147). -/

namespace Sys2Proof.Machine

/-! ## Datagrams -/

theorem exec_rtpDatagram {s : State} {d : Datagram} (hrun : s.running = true) (hport : d.port < 2) :
    exec (.rtpDatagram d) s = .next (rtpDatagram s d) := by
  change execRtpDatagram d s = _
  simp [execRtpDatagram, done, hrun, hport]

section
variable (s : State) {d : Datagram}

theorem rtpDatagram_of_fragment (hfragment : d.fragment = true) :
    rtpDatagram s d = s.modNet d.port fun n => { n with fragments := n.fragments + 1 } := by
  rw [rtpDatagram, if_pos hfragment]

variable (hwhole : d.fragment = false)
include hwhole

theorem rtpDatagram_of_foreign (hforeign : d.proto ≠ 17 ∨ d.ipv6 = true ∧ d.routing = true) : rtpDatagram s d = s := by
  rw [rtpDatagram, if_neg (by simp [hwhole]), if_pos hforeign]

variable (hudp : d.proto = 17) (hplain : d.ipv6 = false ∨ d.routing = false)
include hudp hplain

omit hwhole in
theorem not_foreign : ¬ (d.proto ≠ 17 ∨ d.ipv6 = true ∧ d.routing = true) := by
  rcases hplain with h | h <;> simp [hudp, h]

theorem rtpDatagram_of_corrupt (hcorrupt : d.checksumOk = false) :
    rtpDatagram s d = s.modNet d.port fun n => { n with checksumFails := n.checksumFails + 1 } := by
  rw [rtpDatagram, if_neg (by simp [hwhole]), if_neg (not_foreign hudp hplain), if_pos (by simp [hcorrupt])]

variable (hsound : d.checksumOk = true)
include hsound

theorem rtpDatagram_of_reserved (hreserved : isRtcp d.payload = true ∨ d.udpPort = 319 ∨ d.udpPort = 320) : rtpDatagram s d = s := by
  rw [rtpDatagram, if_neg (by simp [hwhole]), if_neg (not_foreign hudp hplain), if_neg (by simp [hsound]), if_pos hreserved]

variable (hrtp : isRtcp d.payload = false) (hevent : d.udpPort ≠ 319) (hgeneral : d.udpPort ≠ 320)
include hrtp hevent hgeneral

theorem rtpDatagram_of_unmatched (hnone : (parseRtp d.payload).bind (streamOf s d) = none) :
    rtpDatagram s d = { s with ingUnmatched := s.ingUnmatched + 1 } := by
  rw [rtpDatagram, if_neg (by simp [hwhole]), if_neg (not_foreign hudp hplain), if_neg (by simp [hsound]),
    if_neg (by simp [hrtp, hevent, hgeneral])]
  cases hparse : parseRtp d.payload with
  | none => rfl
  | some p =>
    rw [hparse, Option.bind_some] at hnone
    simp only [hnone]

theorem rtpDatagram_of_matched {p : Rtp} {n : Nat} (hparse : parseRtp d.payload = some p) (hstream : streamOf s d p = some n) :
    rtpDatagram s d = if (s.stream n).receives then takeDatagram s n p else s := by
  rw [rtpDatagram, if_neg (by simp [hwhole]), if_neg (not_foreign hudp hplain), if_neg (by simp [hsound]),
    if_neg (by simp [hrtp, hevent, hgeneral])]
  simp only [hparse, hstream]

end

section
variable {s : State} {n : Nat} {p : Rtp}

theorem takeDatagram_of_unsupported (h : supported (s.cfg.stream n).codec p.payload = false) : takeDatagram s n p = s := by
  rw [takeDatagram]
  exact if_pos (by simp [h])

/-- With no batch pending a packet fixes no instant: it is held, and what has become ready is decoded. -/
theorem takeDatagram_of_supported (h : supported (s.cfg.stream n).codec p.payload = true) (hbatch : s.stl.batch = none) :
    takeDatagram s n p = dispatch (holdPacket s n p.seq p.timestamp p.marker (packetRap (s.cfg.stream n).codec p.payload) p.payload) := by
  have hfix (tick : Nat) (rap : Rap) : fixEventInstant s n tick rap = s := by simp only [fixEventInstant, hbatch]
  simp only [takeDatagram, h, hfix, ite_self, Bool.not_true, Bool.false_eq_true, if_false]

end

section
variable (s : State) (n seq timestamp : Nat) (marker : Bool) (rap : Rap) (data : List Byte)

/-- The packets of the stream, and how many came, are those that holding one leaves. -/
theorem dispatch_holdPacket_received :
    ((dispatch (holdPacket s n seq timestamp marker rap data)).stream n).received
      = ((holdPacket s n seq timestamp marker rap data).stream n).received :=
  ignoresBuffer_received.dispatch _ n

theorem dispatch_holdPacket_byte (a : Nat) : (dispatch (holdPacket s n seq timestamp marker rap data)).byte a = s.byte a := by
  rw [State.byte, State.byte, keeps_mem (dispatch_erase _ (Nat.and_self _)) rfl,
    keeps_mem (holdPacket_erase _ _ _ _ _ _ _ (Nat.and_self _)) rfl]

end

/-! ## The reorder hold -/

section
variable {s : State} {n due : Nat} {p : Packet} {run rest : List Packet} (hrun : s.running = true)
  (hhead : headRun (s.stream n).packets = (p :: run, rest))
  (hdue : headDeadline (((s.cfgOf p.epoch).stream n).holdMs * 1000000) (p :: run) rest = some due)
include hrun hhead hdue

/-- 04 R146: the head unit is released when its hold ends, and then what else is ready. -/
theorem exec_reorderHoldExpiry : exec (.reorderHoldExpiry n) s = .next (dispatch
    (releaseReady (s.stream n).packets.length (releaseRun (s.atElapsed due) n (p :: run) rest) n)) := by
  have hsame : (s.atElapsed due).stream n = s.stream n :=
    State.stream_congr (keeps_streams (s.atElapsed_erase due (Nat.and_self _)) rfl) n
  have hcfg : (s.atElapsed due).cfgOf p.epoch = s.cfgOf p.epoch :=
    State.cfgOf_congr (s.atElapsed_cfg due) (keeps_cfgOld (s.atElapsed_erase due (Nat.and_self _)) rfl) (s.atElapsed_stl due) _
  have hpast : due ≤ (s.atElapsed due).time.elapsed := by
    rw [State.atElapsed_elapsed (State.not_inReset_of_running hrun)]
    exact le_max_right _ _
  rw [← releaseReady_of_due _ (by rw [hsame, hhead]) (by rw [hcfg, hdue]) hpast]
  change execReorderHoldExpiry n s = _
  simp only [execReorderHoldExpiry, done, hrun, if_true, holdExpiry, hhead, hdue]

end

theorem releaseReady_releaseRun_time (k : Nat) (s : State) (n : Nat) (run rest : List Packet) :
    (dispatch (releaseReady k (releaseRun s n run rest) n)).time = s.time := by
  rw [keeps_time (dispatch_erase _ (Nat.and_self _)) rfl, keeps_time (releaseReady_erase _ _ _ (Nat.and_self _)) rfl,
    keeps_time (releaseRun_erase _ _ _ _ (Nat.and_self _)) rfl]

/-- Settles O27: frames by the rules of ETH_FRAME_RECEIVE, datagrams by those of `rtpDatagram` and `holdPacket`, the hold's end by
`releaseRun_received` and `releaseReady_received`. -/
theorem datagramsAreTakenAndReleased : Obligations.DatagramsAreTakenAndReleased := by
  refine ⟨⟨fun s port f hans hport hup => ?frame, fun s d hrun hport hfragment => ?fragment,
    fun s d hrun hport hwhole hforeign => ?foreign, fun s d hrun hport hwhole hudp hplain hcorrupt => ?corrupt,
    fun s d hrun hport hwhole hudp hplain hsound hreserved => ?reserved,
    fun s d hrun hport hwhole hudp hplain hsound hrtp hevent hgeneral hnone => ?unmatched,
    fun s d p n hrun hport hwhole hudp hplain hsound hrtp hevent hgeneral hparse hstream hdeaf => ?deaf,
    fun s d p n hrun hport hwhole hudp hplain hsound hrtp hevent hgeneral hparse hstream hreceives hsupported hbatch => ?taken⟩,
    fun s n due p run rest hrun hhead hdue => ?hold⟩
  case frame =>
    cases hbad : f.fcsError with
    | true => exact ⟨_, exec_ethFrameReceive_of_bad hans hport hup hbad, by simp [frameCounted]⟩
    | false =>
      by_cases hdrop : frameSizeOk f = false ∨ claimOf s port f = none
      · refine ⟨_, exec_ethFrameReceive_of_dropped hans hport hup hbad hdrop, ?_⟩
        have hunanswered : ¬ (frameSizeOk f = true ∧ claimOf s port f = some .answer) := by
          rcases hdrop with h | h <;> simp [h]
        simp [frameCounted, hdrop, hunanswered]
      · obtain ⟨hsize, hclaimed⟩ := not_or.mp hdrop
        rw [Bool.not_eq_false] at hsize
        obtain ⟨c, hclaim⟩ := Option.ne_none_iff_exists'.mp hclaimed
        by_cases hquery : c = .answer
        · subst hquery
          exact ⟨_, exec_ethFrameReceive_of_query hans hport hup hbad hsize hclaim, by simp [frameCounted, hsize, hclaim]⟩
        · exact ⟨_, exec_ethFrameReceive_of_claimed hans hport hup hbad hsize hclaim hquery,
            by simp [frameCounted, hsize, hclaim, hquery]⟩
  case fragment =>
    refine ⟨_, exec_rtpDatagram hrun hport, ?_⟩
    rw [rtpDatagram_of_fragment s hfragment, State.modNet_get, if_pos rfl]
    exact ⟨rfl, rfl⟩
  case foreign => rw [exec_rtpDatagram hrun hport, rtpDatagram_of_foreign s hwhole hforeign]
  case corrupt =>
    refine ⟨_, exec_rtpDatagram hrun hport, ?_⟩
    rw [rtpDatagram_of_corrupt s hwhole hudp hplain hcorrupt, State.modNet_get, if_pos rfl]
    exact ⟨rfl, rfl⟩
  case reserved => rw [exec_rtpDatagram hrun hport, rtpDatagram_of_reserved s hwhole hudp hplain hsound hreserved]
  case unmatched =>
    refine ⟨_, exec_rtpDatagram hrun hport, ?_⟩
    rw [rtpDatagram_of_unmatched s hwhole hudp hplain hsound hrtp hevent hgeneral hnone]
    exact ⟨rfl, rfl⟩
  case deaf =>
    rw [exec_rtpDatagram hrun hport, rtpDatagram_of_matched s hwhole hudp hplain hsound hrtp hevent hgeneral hparse hstream]
    rcases hdeaf with hstopped | hunsupported
    · rw [if_neg (by simp [hstopped])]
    · rw [takeDatagram_of_unsupported hunsupported, ite_self]
  case taken =>
    refine ⟨_, exec_rtpDatagram hrun hport, ?_⟩
    rw [rtpDatagram_of_matched s hwhole hudp hplain hsound hrtp hevent hgeneral hparse hstream, if_pos hreceives,
      takeDatagram_of_supported hsupported hbatch]
    have hreceived := dispatch_holdPacket_received s n p.seq p.timestamp p.marker (packetRap (s.cfg.stream n).codec p.payload) p.payload
    simp only [StreamSt.received, Prod.mk.injEq] at hreceived
    obtain ⟨hpackets, -, hcount⟩ := hreceived
    refine ⟨by rw [hcount, holdPacket_count], dispatch_holdPacket_byte _ _ _ _ _ _ _, fun hempty hreleased hbase hmarker => ?_⟩
    rw [hpackets, hmarker, holdPacket_first _ _ _ _ hempty hreleased hbase, Nat.mod_eq_of_lt (parseRtp_seq_lt hparse)]
    rfl
  case hold =>
    refine ⟨_, exec_reorderHoldExpiry hrun hhead hdue, ?_, ?_⟩
    · rw [releaseReady_releaseRun_time, State.atElapsed_elapsed (State.not_inReset_of_running hrun)]
    · have hreleased := releaseRun_received (s.atElapsed due) n p run rest
      have hkept := ignoresBuffer_received.dispatch
        (releaseReady (s.stream n).packets.length (releaseRun (s.atElapsed due) n (p :: run) rest) n) n
      simp only [StreamSt.received, Prod.mk.injEq] at hreleased hkept
      obtain ⟨hleft, hts, -⟩ := hreleased
      obtain ⟨hpackets, hlast, -⟩ := hkept
      obtain ⟨⟨j, hlater⟩, hknown, -⟩ := releaseReady_received (s.stream n).packets.length
        (releaseRun (s.atElapsed due) n (p :: run) rest) n
      rw [hpackets, hlast, hlater, hleft]
      exact ⟨⟨j, rfl⟩, hknown (by rw [hts]; exact Option.some_ne_none _)⟩

end Sys2Proof.Machine

/-! What follows the boundary of a picture (04 R155, R160, 01 R39): pictures handed on, the engine's leaving and the next dispatch leave
the state of a stream's decoding and its counters as they were, and only add records. -/

namespace Sys2Proof.Machine

/-! ## Views of a stream -/

/-- How the decoding of a stream stands: its state, its wait, whether it has begun, and its counters. -/
def StreamSt.decoding (t : StreamSt) : Nat × Bool × Bool × StreamCounters := (t.state, t.waitRap, t.started, t.counters)

theorem ignoresBuffer_decoding : IgnoresBuffer StreamSt.decoding := fun _ _ _ _ _ => rfl

/-- What `p` shows of a stream does not speak of its D_dec. -/
def IgnoresDDec {β : Type} (p : StreamSt → β) : Prop := ∀ (t : StreamSt) (dDec : Nat), p { t with dDec := dDec } = p t

/-! ## Host assistance and handing on -/

theorem trackLow_streams (s : State) (a : Nat) : (trackLow s a).streams = s.streams := keeps_streams (trackLow_erase s a (Nat.and_self _)) rfl

theorem markStream_decoding (s : State) (a n j : Nat) : ((markStream s a n).stream j).decoding = (s.stream j).decoding :=
  State.setStream_keeps (s := s.assistRecord 0x0040 a n) StreamSt.decoding (by rfl) j

theorem RecordsAdded.markStream (s : State) (a n : Nat) : RecordsAdded s (markStream s a n) :=
  (RecordsAdded.emit s _).trans (.of_journal rfl)

theorem hostAssist_decoding (s : State) (a j : Nat) : ((hostAssist s a).stream j).decoding = (s.stream j).decoding := by
  unfold hostAssist
  extract_lets s1
  rw [State.stream_congr (trackLow_streams s1 a)]
  unfold s1
  split
  · refine foldl_keeps (fun t => (t.stream j).decoding) (fun t n => ?_) _ s
    split
    · rfl
    · exact markStream_decoding t a n j
  · rfl

theorem RecordsAdded.hostAssist (s : State) (a : Nat) : RecordsAdded s (hostAssist s a) := by
  unfold Machine.hostAssist
  extract_lets s1
  have hmarked : RecordsAdded s s1 := by
    unfold s1
    split
    · refine .foldl (fun t n => ?_) _ s
      split
      · exact .of_journal rfl
      · exact .markStream t a n
    · exact .of_journal rfl
  exact hmarked.trans (.of_journal rfl)

theorem handOn_decoding (s : State) (p : Picture) (j : Nat) : ((handOn s p).stream j).decoding = (s.stream j).decoding := by
  unfold handOn
  extract_lets row s1 x outputs evidence s2
  have hshown : (s2.stream j).decoding = (s.stream j).decoding := State.setStream_keeps StreamSt.decoding (by rfl) j
  split
  · rw [hostAssist_decoding]
    exact hshown
  · exact hshown

theorem RecordsAdded.handOn (s : State) (p : Picture) : RecordsAdded s (handOn s p) := by
  unfold Machine.handOn
  extract_lets row s1 x outputs evidence s2
  have hshown : RecordsAdded s s2 := .of_journal rfl
  split
  · exact (hshown.trans (.of_journal (State.modAcct_journal _ _ _))).trans (.hostAssist _ _)
  · exact hshown

theorem handOnAll_decoding (n k : Nat) (s : State) (j : Nat) : ((handOnAll n k s).stream j).decoding = (s.stream j).decoding := by
  induction k generalizing s with
  | zero => rfl
  | succ k ih =>
    unfold handOnAll
    split
    · rw [ih, handOn_decoding]
    · rfl

theorem RecordsAdded.handOnAll (n k : Nat) (s : State) : RecordsAdded s (handOnAll n k s) := by
  induction k generalizing s with
  | zero => exact .of_journal rfl
  | succ k ih =>
    unfold Machine.handOnAll
    split
    · exact (RecordsAdded.handOn s _).trans (ih _)
    · exact .of_journal rfl

/-! ## The leaving of a decode engine -/

theorem RecordsAdded.abortBatch (s : State) (status reason check : Nat) (entry : Option Nat) :
    RecordsAdded s (abortBatch s status reason check entry) := by
  unfold Machine.abortBatch
  split
  · exact .of_journal rfl
  next b _ =>
    obtain ⟨-, -, -, hjournal⟩ := dropBatch_effect s b status reason (entry.getD 0)
    exact (RecordsAdded.of_journal hjournal).trans (.emit _ _)

theorem RecordsAdded.capacityChanged (s : State) (lost : List StlUnit) : RecordsAdded s (capacityChanged s lost) := by
  unfold Machine.capacityChanged
  split
  · exact .of_journal rfl
  · split
    · split
      · exact .abortBatch _ _ _ _ _
      · exact .of_journal rfl
    · exact .of_journal rfl
    · split
      · exact .abortBatch _ _ _ _ _
      · exact .of_journal rfl
    · exact .of_journal rfl

theorem RecordsAdded.fenceEvent (s : State) (p : FltPl) (status type : Nat) : RecordsAdded s (s.fenceEvent p status type) := by
  unfold State.fenceEvent
  extract_lets flt s1 r
  have hcounted : RecordsAdded s s1 := .of_journal rfl
  exact (hcounted.trans (.emit _ _)).trans (.of_journal rfl)

theorem IgnoresDDec.setDDec {β : Type} {p : StreamSt → β} (hp : IgnoresDDec p) (s : State) (j : Nat) :
    p ((setDDec s).stream j) = p (s.stream j) := by
  unfold Machine.setDDec
  extract_lets n zones s1 top v
  refine foldl_keeps (fun a => p (a.stream j)) (fun a e => ?_) zones s
  obtain ⟨i, row⟩ := e
  exact State.setStream_keeps p (hp _ _) j

/-- An engine leaves: of the streams only D_dec changes. -/
theorem IgnoresDDec.decLeave {β : Type} {p : StreamSt → β} (hp : IgnoresDDec p) (s : State) (d j : Nat) :
    p ((decLeave s d).stream j) = p (s.stream j) := by
  unfold Machine.decLeave
  extract_lets e wasIn spare s1 s2 s3
  split
  · rfl
  have hspare : s2.streams = s.streams := by
    unfold s2 spare
    split
    · rfl
    · rfl
  have hfenced : s3.streams = s.streams := by
    unfold s3
    split
    · exact hspare
    · exact hspare
  rw [hp.setDDec, State.stream_congr ((keeps_streams (capacityChanged_erase s3 [] (Nat.and_self _)) rfl).trans hfenced)]

theorem RecordsAdded.decLeave (s : State) (d : Nat) : RecordsAdded s (decLeave s d) := by
  unfold Machine.decLeave
  extract_lets e wasIn spare s1 s2 s3
  split
  · exact .of_journal rfl
  have hspare : s2.journal = s.journal := by
    unfold s2 spare
    split
    · rfl
    · rfl
  have hfenced : RecordsAdded s s3 := by
    unfold s3
    split
    · exact (RecordsAdded.of_journal hspare).trans (.fenceEvent _ _ _ _)
    · exact .of_journal hspare
  exact (hfenced.trans (.capacityChanged _ _)).trans (.of_journal (keeps_journal (setDDec_erase _ (Nat.and_self _)) rfl))

/-! ## Together -/

/-- The boundary closed: pictures handed on, the engine gone if it is to leave, and free engines given units. -/
def boundaryClosed (s : State) (d n leaving : Nat) : State := dispatch (decLeave (handOnAll n leaving s) d)

section
variable (s : State) (d n leaving : Nat)

theorem boundaryClosed_decoding (j : Nat) : ((boundaryClosed s d n leaving).stream j).decoding = (s.stream j).decoding := by
  rw [boundaryClosed, ignoresBuffer_decoding.dispatch, IgnoresDDec.decLeave (p := StreamSt.decoding) fun _ _ => rfl, handOnAll_decoding]

theorem RecordsAdded.boundaryClosed : RecordsAdded s (boundaryClosed s d n leaving) :=
  ((RecordsAdded.handOnAll _ _ _).trans (.decLeave _ _)).trans (.of_journal (keeps_journal (dispatch_erase _ (Nat.and_self _)) rfl))

theorem boundaryClosed_till (a : Nat) : (boundaryClosed s d n leaving).till a = s.till a := by
  rw [boundaryClosed, State.till_of_erase (dispatch_erase _ (Nat.and_self _)) rfl,
    State.till_of_erase (decLeave_erase _ _ (Nat.and_self _)) rfl, State.till_of_erase (handOnAll_erase _ _ _ (Nat.and_self _)) rfl]

end

end Sys2Proof.Machine

/-! The boundary of a picture (04 R151 to R157): what each outcome does to its stream, and the records that tell of it. -/

namespace Sys2Proof.Machine

/-! ## Waits -/

theorem RecordsAdded.decStreamRecord (s : State) (type inst n : Nat) (u : AccessUnit) (cls : Option ErrClass)
    (status width height count : Nat) : RecordsAdded s (decStreamRecord s type inst n u cls status width height count) :=
  .emit _ _

theorem decStreamRecord_streams (s : State) (type inst n : Nat) (u : AccessUnit) (cls : Option ErrClass)
    (status width height count : Nat) : (decStreamRecord s type inst n u cls status width height count).streams = s.streams :=
  keeps_streams (decStreamRecord_erase s type inst n u cls status width height count (Nat.and_self _)) rfl

section
variable (s : State) (d n : Nat) (u : AccessUnit) (c : ErrClass) (width height : Nat)

/-- The stream waits for a random-access point; one that had begun shows it. -/
theorem openWait_decoding : ((openWait s d n u c width height).stream n).decoding
    = (if (s.stream n).started then 3 else 1, true, (s.stream n).started, (s.stream n).counters) := by
  unfold openWait
  extract_lets t
  split
  next hfresh =>
    rw [State.setStream_get, if_pos rfl, if_neg (by simpa using hfresh)]
    rfl
  next hstarted =>
    rw [State.setStream_get, if_pos rfl, if_pos (by simpa using hstarted)]
    rfl

theorem RecordsAdded.openWait : RecordsAdded s (openWait s d n u c width height) := by
  unfold Machine.openWait
  extract_lets t
  split
  · exact .of_journal rfl
  · exact (RecordsAdded.decStreamRecord _ _ _ _ _ _ _ _ _ _).trans (.of_journal rfl)

end

/-! ## Stops -/

theorem RecordsAdded.safRecord (s : State) (type z status : Nat) (p : SafPl) (stream tick : Nat) (epoch : Option Nat) :
    RecordsAdded s (s.safRecord type z status p stream tick epoch) := .emit _ _

theorem RecordsAdded.settleChannel (s : State) (n : Nat) : RecordsAdded s (settleChannel s n) := by
  unfold Machine.settleChannel
  extract_lets c want stop s1
  split
  · exact .of_journal rfl
  · have hset : RecordsAdded s s1 := .of_journal rfl
    exact (hset.trans (.emit _ _)).trans (.of_journal rfl)

theorem RecordsAdded.occupyZone (s : State) (z cause : Nat) : RecordsAdded s (occupyZone s z cause) := by
  unfold Machine.occupyZone occupiedBy
  extract_lets x s1 s2
  split
  · exact .of_journal rfl
  · have hzone : RecordsAdded s s1 := .of_journal rfl
    have htold : RecordsAdded s s2 := by
      unfold s2
      split
      · exact hzone
      · exact hzone.trans (.safRecord _ _ _ _ _ _ _ _)
    exact htold.trans (.settleChannel _ _)

theorem RecordsAdded.clrRecord (s : State) (type slot status : Nat) (p : ClrPl) : RecordsAdded s (s.clrRecord type slot status p) :=
  .emit _ _

theorem RecordsAdded.releaseSlot (s : State) (slot : Nat) : RecordsAdded s (releaseSlot s slot) := by
  unfold Machine.releaseSlot
  extract_lets g s1 s2
  split
  · exact (RecordsAdded.clrRecord s _ _ _ _).trans (.of_journal rfl)
  · exact .of_journal rfl

theorem RecordsAdded.releaseClosed (k : Nat) (s : State) (slot : Nat) : RecordsAdded s (releaseClosed k s slot) := by
  induction k generalizing s slot with
  | zero => exact .of_journal rfl
  | succ k ih =>
    unfold Machine.releaseClosed
    extract_lets i s1
    split
    · exact .of_journal rfl
    · have hreleased : RecordsAdded s s1 := (RecordsAdded.releaseSlot s slot).trans (.of_journal rfl)
      split
      · exact hreleased
      · exact (hreleased.trans (.of_journal (by rfl))).trans (ih _ _)

theorem RecordsAdded.closeTrack (s : State) (slot reason status : Nat) : RecordsAdded s (closeTrack s slot reason status) := by
  unfold Machine.closeTrack
  extract_lets t s1 s2
  have hclosed : RecordsAdded s s2 := (RecordsAdded.clrRecord s _ _ _ _).trans (.of_journal rfl)
  exact hclosed.trans (.releaseClosed _ _ _)

section
variable (s : State) (n : Nat) (u : AccessUnit) (c : ErrClass) (sp : Option SeqParams)

/-- The stream's record told and its state changed, its zones, tracks and clips still to follow. -/
def streamStopped : State :=
  (decStreamRecord s 0x0002 0xFF n u (some c) (classStatus c) ((sp.map (·.width)).getD 0) ((sp.map (·.height)).getD 0) 0).modStream n
    fun t => { t with
      state := if c = .f then 4 else 5, last := classStatus c, es := [], esBytes := 0, packets := [], runConcealed := false
      runMissing := false }

theorem stopStream_eq :
    stopStream s n u c sp = endClips (closeStreamTracks (occupyStream (streamStopped s n u c sp) n) n) n 4 := rfl

/-- 04 R154: classes F and D have a state each. -/
theorem stopStream_state : ((stopStream s n u c sp).stream n).state = if c = .f then 4 else 5 := by
  have hkept : (stopStream s n u c sp).streams = (streamStopped s n u c sp).streams := by
    rw [stopStream_eq, keeps_streams (endClips_erase _ _ _ (Nat.and_self _)) rfl,
      keeps_streams (closeStreamTracks_erase _ _ (Nat.and_self _)) rfl, keeps_streams (occupyStream_erase _ _ (Nat.and_self _)) rfl]
  rw [State.stream_congr hkept, streamStopped, State.modStream_get, if_pos rfl]

theorem RecordsAdded.stopStream : RecordsAdded (streamStopped s n u c sp) (stopStream s n u c sp) := by
  rw [stopStream_eq]
  exact ((RecordsAdded.foldl (fun a z => .occupyZone a z _) _ _).trans (.foldl (fun a slot => .closeTrack a slot _ _) _ _)).trans
    (.of_journal rfl)

/-- Record 0x0002 tells of the stop. -/
theorem stopStream_record : ∃ r ∈ (stopStream s n u c sp).journal.waiting, r.type = 0x0002 ∧ r.stream = n :=
  ⟨_, (RecordsAdded.stopStream s n u c sp).kept (State.mem_emit_waiting.mpr (.inl rfl)), rfl, rfl⟩

end

/-! ## Records of a picture -/

theorem runRecord_decoding (s : State) (concealRun : Bool) (r : Rec) (j : Nat) :
    ((runRecord s concealRun r).stream j).decoding = (s.stream j).decoding := by
  unfold runRecord
  extract_lets t
  split
  · split
    · exact State.setStream_keeps StreamSt.decoding (by rfl) j
    · exact State.setStream_keeps (s := s.emit r) StreamSt.decoding (by rfl) j
  · split
    · exact State.setStream_keeps StreamSt.decoding (by rfl) j
    · exact State.setStream_keeps (s := s.emit r) StreamSt.decoding (by rfl) j

theorem resumeRecords_decoding (s : State) (n : Nat) (u : AccessUnit) (p : SeqParams) : ((resumeRecords s n u p).stream n).decoding
    = ((s.stream n).state, false, true, (s.stream n).counters) := by
  unfold resumeRecords
  extract_lets t s1
  have hrecorded : s1.streams = s.streams := by
    unfold s1
    split
    · rfl
    · split
      · rfl
      · rfl
  rw [State.modStream_get, if_pos rfl, State.stream_congr hrecorded]
  rfl

section
variable (s : State) (d n : Nat) (u : AccessUnit) (sp : SeqParams) (cs : List ErrClass) (o : PictureOutcome) (p : Picture)

/-- The runs of a picture are told first; a picture that is not abandoned brings no more. One that is has its record and opens the wait,
for class W with the window violation. -/
theorem classRecords_cases : ∃ s2, (∀ j, (s2.stream j).decoding = (s.stream j).decoding)
    ∧ ((cs.find? classAbandons = none ∧ classRecords s d n u sp cs o p = s2)
      ∨ ∃ c s3, cs.find? classAbandons = some c ∧ classRecords s d n u sp cs o p = openWait s3 d n u c sp.width sp.height
        ∧ s3.streams = s2.streams
        ∧ (c ≠ .w → classRecord s d n (ctuCount sp) u c cs o p 0x0005 ∈ s3.journal.waiting)) := by
  unfold classRecords
  extract_lets row mk s1 s2
  have hconcealed (j : Nat) : (s1.stream j).decoding = (s.stream j).decoding := by
    unfold s1
    split
    · split
      · exact runRecord_decoding _ _ _ j
      · rfl
    · rfl
  have hruns (j : Nat) : (s2.stream j).decoding = (s.stream j).decoding := by
    unfold s2
    split
    · rw [runRecord_decoding, hconcealed]
    · exact hconcealed j
  refine ⟨s2, hruns, ?_⟩
  split
  next hfind =>
    refine .inr ⟨.w, _, hfind, rfl, ?_, fun hw => absurd rfl hw⟩
    exact keeps_streams (windowViolation_erase _ _ _ _ _ (Nat.and_self _)) rfl
  next c _ hfind => exact .inr ⟨c, _, hfind, rfl, rfl, fun _ => State.mem_emit_waiting.mpr (.inl rfl)⟩
  next hfind => exact .inl ⟨hfind, rfl⟩

/-- Whatever the classes, the counters stand, and so does whether the stream has begun. -/
theorem classRecords_counters : ((classRecords s d n u sp cs o p).stream n).started = (s.stream n).started
    ∧ ((classRecords s d n u sp cs o p).stream n).counters = (s.stream n).counters := by
  obtain ⟨s2, hruns, ⟨-, heq⟩ | ⟨c, s3, -, heq, hstreams, -⟩⟩ := classRecords_cases s d n u sp cs o p
  · have h := hruns n
    simp only [StreamSt.decoding, Prod.mk.injEq] at h
    obtain ⟨-, -, hstarted, hcounters⟩ := h
    rw [heq]
    exact ⟨hstarted, hcounters⟩
  · have h := openWait_decoding s3 d n u c sp.width sp.height
    rw [State.stream_congr hstreams] at h
    have h2 := hruns n
    simp only [StreamSt.decoding, Prod.mk.injEq] at h h2
    obtain ⟨-, -, hstarted, hcounters⟩ := h
    obtain ⟨-, -, hstarted2, hcounters2⟩ := h2
    rw [heq, hstarted, hcounters, hstarted2, hcounters2]
    exact ⟨rfl, rfl⟩

end

end Sys2Proof.Machine

/-! The boundary of a decode engine (04 R151 to R157, R160): the classes of a picture, the picture stored and charged, and the command. -/

namespace Sys2Proof.Machine

/-! ## Classes -/

section
variable {s : State} {row : StreamRow} {t : StreamSt} {u : AccessUnit} {o : PictureOutcome}

theorem mem_pictureClasses_of_exhausted : .b ∈ pictureClasses s row t u o true := by
  simp [pictureClasses]

/-- Without class P the parameter sets of the picture are known. -/
theorem params_of_not_mem_pictureClasses {exhausted : Bool} (hp : .p ∉ pictureClasses s row t u o exhausted)
    (honly : o.parameterSetsOnly = false) (hsets : u.parameterSets = false) :
    ∃ sp, Table.get none o.uses (keepParams t.params o.params) = some sp := by
  rw [← Option.isSome_iff_exists]
  by_contra hmissing
  have hnone := Option.not_isSome_iff_eq_none.mp hmissing
  exact hp (by simp [pictureClasses, honly, hsets, hnone])

end

/-- With neither W nor V it is class B that abandons a picture. -/
theorem find?_classAbandons_of_budget {cs : List ErrClass} (hb : .b ∈ cs) (hw : .w ∉ cs) (hv : .v ∉ cs) :
    cs.find? classAbandons = some .b := by
  cases hfind : cs.find? classAbandons with
  | none => exact absurd (List.find?_eq_none.mp hfind .b hb) (by decide)
  | some c =>
    have hmem := List.mem_of_find?_eq_some hfind
    have habandons := List.find?_some hfind
    cases c with
    | b => rfl
    | w => exact absurd hmem hw
    | v => exact absurd hmem hv
    | l | s | h | p | f | d | m => exact absurd habandons (by decide)

/-! ## Pictures -/

theorem pictureOf_flagged (n base offset : Nat) (u : AccessUnit) (sp : SeqParams) (cs : List ErrClass) (hidden : List Nat)
    (o : PictureOutcome) : (pictureOf n base offset u sp cs hidden.length o).flagged = true
      ↔ hidden ≠ [] ∨ o.inRecovery = true ∨ .m ∈ cs ∨ .v ∈ cs := by
  simp [Picture.flagged, pictureOf, List.length_pos_iff, or_assoc]

theorem selectPicture_started (row : StreamRow) (t : StreamSt) (p : Picture) : (selectPicture row t p).2.started = t.started := by
  unfold selectPicture
  extract_lets k t1 p1
  split
  · rfl
  · rfl

/-- A stored picture is counted once: as complete, or by its flags. -/
theorem storePicture_counters (s : State) (n : Nat) (row : StreamRow) (p : Picture) (abandoned : Bool) :
    ((storePicture s n row p abandoned).stream n).started = (s.stream n).started
      ∧ ((storePicture s n row p abandoned).stream n).counters.pictures
        = (s.stream n).counters.pictures + (if p.flagged then 0 else 1)
      ∧ ((storePicture s n row p abandoned).stream n).counters.abandoned
        = (s.stream n).counters.abandoned + (if abandoned then 1 else 0) := by
  unfold storePicture
  extract_lets t sel c t1
  rw [State.setStream_get, if_pos rfl]
  refine ⟨selectPicture_started row t p, ?_, ?_⟩
  · change (if p.flagged then c.pictures else c.pictures + 1) = _
    split
    · exact (BitVec.add_zero _).symm
    · rfl
  · change (if abandoned then c.abandoned + 1 else c.abandoned) = _
    split
    · rfl
    · exact (BitVec.add_zero _).symm

theorem concealedList_congr {t t' : StreamSt} (h : t'.winBase = t.winBase) (row : StreamRow) (sp : SeqParams) (o : PictureOutcome) :
    concealedList row t' sp o = concealedList row t sp o := by
  simp only [concealedList, outsideWindow, h]

theorem State.chargeMedia_msMedia (s : State) (a cycles bytes j : Nat) :
    ((s.chargeMedia a cycles bytes).till j).msMedia = (s.till j).msMedia + if j = a then cycles else 0 := by
  rw [State.chargeMedia, State.modTill_get]
  split
  next hj => rw [hj]; rfl
  next => rfl

section
variable (s : State) (d n : Nat) (u : AccessUnit) (sp : SeqParams) (cs : List ErrClass) (o : PictureOutcome)

/-- The CTUs concealed in a picture of a stream. -/
def hiddenCtus (row : StreamRow) (t : StreamSt) (sp : SeqParams) (cs : List ErrClass) (o : PictureOutcome) : List Nat :=
  if cs.any classConceals then concealedList row t sp o else []

/-- 04 R151, R152: the picture written and counted, its stream begun; then its classes are told. -/
theorem decodedPicture_cases : ∃ x p, decodedPicture s d n u sp cs o = classRecords x d n u sp cs o p
    ∧ (x.stream n).started = true
    ∧ (x.stream n).counters.pictures = (s.stream n).counters.pictures
      + (if hiddenCtus ((s.cfgOf u.epoch).stream n) (s.stream n) sp cs o ≠ [] ∨ o.inRecovery = true ∨ .m ∈ cs ∨ .v ∈ cs then 0 else 1)
    ∧ (x.stream n).counters.abandoned = (s.stream n).counters.abandoned + (if cs.any classAbandons = true then 1 else 0)
    ∧ ∀ a, (x.till a).msMedia = (s.till a).msMedia := by
  unfold decodedPicture
  extract_lets row t hidden p s1 s2
  obtain ⟨hstarted, hpictures, habandoned⟩ := storePicture_counters s2 n row p (cs.any classAbandons)
  have hwritten : ((writePicture s.nextFree sp hidden p).chargeMedia row.account 0 p.bytes).streams = s.streams := by
    rw [State.chargeMedia, State.modTill_streams, keeps_streams (writePicture_erase _ _ _ _ (Nat.and_self _)) rfl]
    rfl
  have hbegun := resumeRecords_decoding ((writePicture s.nextFree sp hidden p).chargeMedia row.account 0 p.bytes) n u sp
  rw [State.stream_congr hwritten] at hbegun
  simp only [StreamSt.decoding, Prod.mk.injEq] at hbegun
  obtain ⟨-, -, hstarted1, hcounters1⟩ := hbegun
  have hstream2 : s2.stream n = { s1.stream n with state := 2, last := (cs.head?.map classStatus).getD stOK } := by
    unfold s2
    rw [State.modStream_get, if_pos rfl]
  refine ⟨_, p, rfl, ?_, ?_, ?_, fun a => ?_⟩
  · rw [hstarted, hstream2]
    exact hstarted1
  · rw [hpictures, hstream2]
    change (s1.stream n).counters.pictures + _ = _
    rw [hcounters1]
    exact congrArg _ (if_congr (pictureOf_flagged _ _ _ _ _ _ hidden o) rfl rfl)
  · rw [habandoned, hstream2]
    change (s1.stream n).counters.abandoned + _ = _
    rw [hcounters1]
  · rw [State.till_of_erase (storePicture_erase _ _ _ _ _ (Nat.and_self _)) rfl,
      State.till_of_erase (State.modStream_erase _ _ _ (Nat.and_self _)) rfl,
      State.till_of_erase (resumeRecords_erase _ _ _ _ (Nat.and_self _)) rfl, State.chargeMedia_msMedia, ite_self,
      State.till_of_erase (writePicture_erase _ _ _ _ (Nat.and_self _)) rfl]
    rfl

end

/-! ## A live picture -/

/-- The parameter sets of an access unit kept. -/
def paramsTaken (s : State) (n : Nat) (o : PictureOutcome) : State :=
  s.modStream n fun t => { t with params := keepParams t.params o.params }

section
variable {s : State} {n : Nat} {cs : List ErrClass} {o : PictureOutcome} (d : Nat) (u : AccessUnit)

theorem paramsTaken_stream :
    (paramsTaken s n o).stream n = { s.stream n with params := keepParams (s.stream n).params o.params } := by
  rw [paramsTaken, State.modStream_get, if_pos rfl]

theorem liveBoundary_of_stop (hstop : .f ∈ cs ∨ .d ∈ cs) : ∃ sp,
    liveBoundary s d n u cs o = stopStream (paramsTaken s n o) n u (if .f ∈ cs then .f else .d) sp := by
  by_cases hf : .f ∈ cs
  · exact ⟨_, by rw [liveBoundary, if_pos hf, if_pos (by simpa using hf)]; rfl⟩
  · have hd := hstop.resolve_left hf
    exact ⟨_, by rw [liveBoundary, if_neg hf, if_neg (by simpa using hf), if_pos (by simpa using hd)]; rfl⟩

variable (hf : .f ∉ cs) (hd : .d ∉ cs)
include hf hd

theorem liveBoundary_of_missing (hp : .p ∈ cs) : ∃ x width height,
    liveBoundary s d n u cs o = openWait x d n u .p width height ∧ (x.stream n).decoding = (s.stream n).decoding := by
  refine ⟨(paramsTaken s n o).modStream n fun t => { t with skipped := if t.waitRap then t.skipped + 1 else 0 },
    ((Table.get none o.uses ((paramsTaken s n o).stream n).params).map (·.width)).getD 0,
    ((Table.get none o.uses ((paramsTaken s n o).stream n).params).map (·.height)).getD 0, ?_, ?_⟩
  · rw [liveBoundary, if_neg (by simpa using hf), if_neg (by simpa using hd), if_pos (by simpa using hp)]
    rfl
  · rw [State.modStream_get, if_pos rfl, paramsTaken_stream]
    rfl

theorem liveBoundary_of_picture (hp : .p ∉ cs) (hrasl : o.rasl = false) (honly : o.parameterSetsOnly = false)
    (hsets : u.parameterSets = false) {sp : SeqParams} (hsp : Table.get none o.uses (keepParams (s.stream n).params o.params) = some sp) :
    liveBoundary s d n u cs o = decodedPicture (paramsTaken s n o) d n u sp cs o := by
  unfold liveBoundary
  extract_lets s1 known width height row declared
  have hknown : known = some sp := (congrArg (fun t => Table.get none o.uses t.params) paramsTaken_stream).trans hsp
  rw [if_neg (by simpa using hf), if_neg (by simpa using hd), if_neg (by simpa using hp), if_neg (by simp [hrasl, honly, hsets]), hknown]
  rfl

end

end Sys2Proof.Machine

/-! The two commands that end a picture (04 R151 to R157, R160): DECODE_PICTURE_COMPLETE and DECODE_BUDGET_EXHAUSTED. -/

namespace Sys2Proof.Machine

/-! ## The engine freed -/

section
variable (s : State) (d n : Nat) (u : AccessUnit)

/-- The boundary traced, the engine without its unit, and the media cycles charged. -/
def engineFreed (data : List Byte) (account cycles : Nat) : State :=
  ((s.trace ucDEC d 0x0031 data).modDec d fun e => { e with job := none, replay := none }).chargeMedia account cycles u.bytes

/-- The engine freed, and the stream with no unit in decode. -/
def unitEnded (data : List Byte) (account cycles : Nat) : State :=
  (engineFreed s d u data account cycles).modStream n fun y => { y with inDecode := false }

variable (data : List Byte) (account cycles : Nat)

theorem engineFreed_erase {mk : Nat} (hk : 0x1800002000 &&& mk = 0x1800002000) :
    (engineFreed s d u data account cycles).erase mk = s.erase mk := by
  rw [engineFreed, State.chargeMedia_erase _ _ _ _ (sub_trans rfl hk), State.modDec_erase _ _ _ (sub_trans rfl hk),
    State.trace_erase _ _ _ _ _ (sub_trans rfl hk)]

theorem engineFreed_stream (j : Nat) : (engineFreed s d u data account cycles).stream j = s.stream j :=
  State.stream_congr (keeps_streams (engineFreed_erase _ _ _ _ _ _ (Nat.and_self _)) rfl) j

theorem unitEnded_stream : (unitEnded s d n u data account cycles).stream n = { s.stream n with inDecode := false } := by
  rw [unitEnded, State.modStream_get, if_pos rfl, engineFreed_stream]

theorem unitEnded_cfgOf (epoch : Nat) : (unitEnded s d n u data account cycles).cfgOf epoch = s.cfgOf epoch := by
  have hkept := engineFreed_erase s d u data account cycles (Nat.and_self 0x1800002000)
  exact State.cfgOf_congr (keeps_cfg hkept rfl) (keeps_cfgOld hkept rfl) (keeps_stl hkept rfl) epoch

/-- 04 R157: the cycles of a picture are charged to its account. -/
theorem unitEnded_msMedia :
    ((unitEnded s d n u data account cycles).till account).msMedia = (s.till account).msMedia + cycles := by
  have htraced : ((s.trace ucDEC d 0x0031 data).modDec d fun e => { e with job := none, replay := none }).till account = s.till account :=
    (State.till_of_erase (State.modDec_erase _ _ _ (Nat.and_self _)) rfl _).trans
      (State.till_of_erase (State.trace_erase _ _ _ _ _ (Nat.and_self _)) rfl _)
  rw [unitEnded, State.till_of_erase (State.modStream_erase _ _ _ (Nat.and_self _)) rfl, engineFreed, State.chargeMedia_msMedia,
    if_pos rfl, htraced]

end

/-! ## The boundary -/

/-- The classes of a unit decoded by the row in force for it. -/
def unitClasses (s : State) (n : Nat) (u : AccessUnit) (o : PictureOutcome) (exhausted : Bool) : List ErrClass :=
  pictureClasses s ((s.cfgOf u.epoch).stream n) (s.stream n) u o exhausted

/-- The CTUs concealed at a boundary: none without the parameter sets of the picture. -/
def unitHidden (s : State) (n : Nat) (u : AccessUnit) (o : PictureOutcome) (exhausted : Bool) : List Nat :=
  if (unitClasses s n u o exhausted).any classConceals then
    ((Table.get none o.uses (keepParams (s.stream n).params o.params)).map fun p =>
      concealedList ((s.cfgOf u.epoch).stream n) (s.stream n) p o).getD []
  else []

theorem unitHidden_of_params {s : State} {n : Nat} {u : AccessUnit} {o : PictureOutcome} {exhausted : Bool} {sp : SeqParams}
    (hsp : Table.get none o.uses (keepParams (s.stream n).params o.params) = some sp) : unitHidden s n u o exhausted
      = hiddenCtus ((s.cfgOf u.epoch).stream n) (s.stream n) sp (unitClasses s n u o exhausted) o := by
  rw [unitHidden, hsp]
  rfl

section
variable {s : State} {d n : Nat} {u : AccessUnit} {o : PictureOutcome} {exhausted : Bool}

/-- A live picture: its unit ended and its cycles charged, its outcome, and the boundary closed. -/
theorem pictureBoundary_of_live (hreplay : (s.dec d).replay = none) : ∃ e,
    pictureBoundary s d n u o exhausted = boundaryClosed (liveBoundary e d n u (unitClasses s n u o exhausted) o) d n o.leaving
      ∧ e.stream n = { s.stream n with inDecode := false } ∧ e.cfgOf u.epoch = s.cfgOf u.epoch
      ∧ (e.till ((s.cfgOf u.epoch).stream n).account).msMedia = (s.till ((s.cfgOf u.epoch).stream n).account).msMedia
        + pictureCycles ((s.cfgOf u.epoch).stream n) (unitClasses s n u o exhausted) (unitHidden s n u o exhausted).length o := by
  unfold pictureBoundary
  extract_lets row t cs sp hidden cycles replay s1 s2 x s3
  have hlive : replay = none := hreplay
  have hended : s3 = handOnAll n o.leaving x := by
    unfold s3
    rw [hlive]
  rw [hended]
  exact ⟨_, rfl, unitEnded_stream s d n u _ row.account cycles, unitEnded_cfgOf s d n u _ row.account cycles u.epoch,
    unitEnded_msMedia s d n u _ row.account cycles⟩

/-- 12 R374: a replay leaves every stream as it was. -/
theorem pictureBoundary_of_replay {ident : Nat} (hreplay : (s.dec d).replay = some ident) : ∃ x,
    pictureBoundary s d n u o exhausted = dispatch (decLeave x d) ∧ x.streams = s.streams := by
  unfold pictureBoundary
  extract_lets row t cs sp hidden cycles replay s1 s2 x s3
  have hreplayed : replay = some ident := hreplay
  have hended : s3 = replayBoundary s2 d n ident u sp cs hidden o := by
    unfold s3
    rw [hreplayed]
  refine ⟨s3, rfl, ?_⟩
  rw [hended]
  exact (keeps_streams (replayBoundary_erase _ _ _ _ _ _ _ _ _ (Nat.and_self _)) rfl).trans
    (keeps_streams (engineFreed_erase s d u _ row.account cycles (Nat.and_self _)) rfl)

variable (hrun : s.running = true) (hjob : (s.dec d).job = some (n, u))
include hrun hjob

theorem exec_decodePictureComplete : exec (.decodePictureComplete d o) s = .next (pictureBoundary s d n u o false) := by
  change execDecodePictureComplete d o s = _
  rw [execDecodePictureComplete, hjob]
  exact congrArg done (if_pos hrun)

theorem exec_decodeBudgetExhausted : exec (.decodeBudgetExhausted d o) s = .next (pictureBoundary s d n u o true) := by
  change execDecodeBudgetExhausted d o s = _
  rw [execDecodeBudgetExhausted, hjob]
  exact congrArg done (if_pos hrun)

end

/-! ## What each outcome leaves -/

section
variable {s : State} {d n : Nat} {u : AccessUnit} {o : PictureOutcome} {cs : List ErrClass}

/-- 04 R151, R152, R157: a decoded picture is counted once, its stream has begun, and it adds no cycles of its own. -/
theorem decodedBoundary_counts (sp : SeqParams) {row : StreamRow} (hrow : (s.cfgOf u.epoch).stream n = row) :
    ((decodedPicture (paramsTaken s n o) d n u sp cs o).stream n).counters.pictures = (s.stream n).counters.pictures
      + (if hiddenCtus row (s.stream n) sp cs o ≠ [] ∨ o.inRecovery = true ∨ .m ∈ cs ∨ .v ∈ cs then 0 else 1)
    ∧ ((decodedPicture (paramsTaken s n o) d n u sp cs o).stream n).counters.abandoned
      = (s.stream n).counters.abandoned + (if cs.any classAbandons = true then 1 else 0)
    ∧ ((decodedPicture (paramsTaken s n o) d n u sp cs o).stream n).started = true
    ∧ ∀ a, ((decodedPicture (paramsTaken s n o) d n u sp cs o).till a).msMedia = (s.till a).msMedia := by
  obtain ⟨x, p, heq, hstarted, hpictures, habandoned, hmedia⟩ := decodedPicture_cases (paramsTaken s n o) d n u sp cs o
  obtain ⟨hstarted', hcounters⟩ := classRecords_counters x d n u sp cs o p
  have hhidden : hiddenCtus (((paramsTaken s n o).cfgOf u.epoch).stream n) ((paramsTaken s n o).stream n) sp cs o
      = hiddenCtus row (s.stream n) sp cs o := by
    rw [paramsTaken_stream, hiddenCtus, hiddenCtus, ← hrow]
    exact if_congr Iff.rfl (concealedList_congr (by rfl) _ _ _) rfl
  have htaken : ((paramsTaken s n o).stream n).counters = (s.stream n).counters := by rw [paramsTaken_stream]
  rw [hhidden, htaken] at hpictures
  rw [htaken] at habandoned
  rw [heq, hcounters, hstarted']
  refine ⟨hpictures, habandoned, hstarted, fun a => ?_⟩
  rw [State.till_of_erase (classRecords_erase _ _ _ _ _ _ _ _ (Nat.and_self _)) rfl, hmedia]
  rfl

/-- 04 R156: a picture over its budget is abandoned and told, and its stream waits. -/
theorem decodedBoundary_of_budget (sp : SeqParams) (hb : .b ∈ cs) (hw : .w ∉ cs) (hv : .v ∉ cs) :
    ((decodedPicture s d n u sp cs o).stream n).state = 3 ∧ ((decodedPicture s d n u sp cs o).stream n).waitRap = true
    ∧ ∃ r ∈ (decodedPicture s d n u sp cs o).journal.waiting,
      r.type = 0x0005 ∧ r.status = stBUDGET ∧ r.stream = n ∧ r.tick = u.tick := by
  obtain ⟨x, p, heq, hstarted, -⟩ := decodedPicture_cases s d n u sp cs o
  obtain ⟨s2, hruns, ⟨hnone, -⟩ | ⟨c, s3, hfind, hwait, hstreams, hrecord⟩⟩ := classRecords_cases x d n u sp cs o p
  · exact absurd ((find?_classAbandons_of_budget hb hw hv).symm.trans hnone) (Option.some_ne_none _)
  obtain rfl : c = .b := Option.some.inj (hfind.symm.trans (find?_classAbandons_of_budget hb hw hv))
  have hwaits := openWait_decoding s3 d n u .b sp.width sp.height
  have hbegun := hruns n
  rw [State.stream_congr hstreams] at hwaits
  simp only [StreamSt.decoding, Prod.mk.injEq] at hwaits hbegun
  obtain ⟨hstate, hwaitRap, -⟩ := hwaits
  obtain ⟨-, -, hstarted2, -⟩ := hbegun
  rw [heq, hwait, hstate, hstarted2, hstarted]
  exact ⟨rfl, hwaitRap, _, (RecordsAdded.openWait ..).kept (hrecord (by decide)), rfl, rfl, rfl, rfl⟩

end

/-- The closing of a boundary changes nothing of how the decoding of a stream stands. -/
theorem boundaryClosed_fields (s : State) (d n leaving : Nat) :
    ((boundaryClosed s d n leaving).stream n).state = (s.stream n).state
    ∧ ((boundaryClosed s d n leaving).stream n).waitRap = (s.stream n).waitRap
    ∧ ((boundaryClosed s d n leaving).stream n).started = (s.stream n).started
    ∧ ((boundaryClosed s d n leaving).stream n).counters = (s.stream n).counters := by
  simpa only [StreamSt.decoding, Prod.mk.injEq] using boundaryClosed_decoding s d n leaving n

/-- 12 R374: a replay leaves the counters and the last tick of every stream. -/
theorem replayClosed_fields {s x : State} (hstreams : x.streams = s.streams) (d n : Nat) :
    ((dispatch (decLeave x d)).stream n).counters = (s.stream n).counters
    ∧ ((dispatch (decLeave x d)).stream n).lastTick = (s.stream n).lastTick := by
  have hdispatch := IgnoresBuffer.dispatch (p := fun t => (t.counters, t.lastTick)) (fun _ _ _ _ _ => rfl) (decLeave x d) n
  have hleave := IgnoresDDec.decLeave (p := fun t => (t.counters, t.lastTick)) (fun _ _ => rfl) x d n
  rw [State.stream_congr hstreams] at hleave
  exact Prod.mk.inj (hdispatch.trans hleave)

/-! ## The boundary of a live picture -/

section
variable {s : State} {d n : Nat} {u : AccessUnit} {o : PictureOutcome} {exhausted : Bool} (hreplay : (s.dec d).replay = none)
include hreplay

theorem pictureBoundary_of_decoded (hp : .p ∉ unitClasses s n u o exhausted) (hf : .f ∉ unitClasses s n u o exhausted)
    (hd : .d ∉ unitClasses s n u o exhausted) (hrasl : o.rasl = false) (honly : o.parameterSetsOnly = false)
    (hsets : u.parameterSets = false) {sp : SeqParams}
    (hsp : Table.get none o.uses (keepParams (s.stream n).params o.params) = some sp) : ∃ e,
    pictureBoundary s d n u o exhausted
        = boundaryClosed (decodedPicture (paramsTaken e n o) d n u sp (unitClasses s n u o exhausted) o) d n o.leaving
      ∧ e.stream n = { s.stream n with inDecode := false } ∧ e.cfgOf u.epoch = s.cfgOf u.epoch
      ∧ (e.till ((s.cfgOf u.epoch).stream n).account).msMedia = (s.till ((s.cfgOf u.epoch).stream n).account).msMedia
        + pictureCycles ((s.cfgOf u.epoch).stream n) (unitClasses s n u o exhausted) (unitHidden s n u o exhausted).length o := by
  obtain ⟨e, heq, hstream, hcfg, hcharged⟩ := pictureBoundary_of_live (n := n) (u := u) (o := o) (exhausted := exhausted) hreplay
  have hknown : Table.get none o.uses (keepParams (e.stream n).params o.params) = some sp := by rw [hstream]; exact hsp
  exact ⟨e, by rw [heq, liveBoundary_of_picture d u hf hd hp hrasl honly hsets hknown], hstream, hcfg, hcharged⟩

/-- 04 R151, R152, R157: what a decoded picture counts, its stream's beginning, and its cycles. -/
theorem pictureBoundary_counts (hp : .p ∉ unitClasses s n u o exhausted) (hf : .f ∉ unitClasses s n u o exhausted)
    (hd : .d ∉ unitClasses s n u o exhausted) (hrasl : o.rasl = false) (honly : o.parameterSetsOnly = false)
    (hsets : u.parameterSets = false) {sp : SeqParams}
    (hsp : Table.get none o.uses (keepParams (s.stream n).params o.params) = some sp) :
    ((pictureBoundary s d n u o exhausted).stream n).counters.pictures = (s.stream n).counters.pictures
      + (if unitHidden s n u o exhausted ≠ [] ∨ o.inRecovery = true ∨ .m ∈ unitClasses s n u o exhausted
          ∨ .v ∈ unitClasses s n u o exhausted then 0 else 1)
    ∧ ((pictureBoundary s d n u o exhausted).stream n).counters.abandoned = (s.stream n).counters.abandoned
      + (if (unitClasses s n u o exhausted).any classAbandons = true then 1 else 0)
    ∧ ((pictureBoundary s d n u o exhausted).stream n).started = true
    ∧ ((pictureBoundary s d n u o exhausted).till ((s.cfgOf u.epoch).stream n).account).msMedia
      = (s.till ((s.cfgOf u.epoch).stream n).account).msMedia
        + pictureCycles ((s.cfgOf u.epoch).stream n) (unitClasses s n u o exhausted) (unitHidden s n u o exhausted).length o := by
  obtain ⟨e, heq, hstream, hcfg, hcharged⟩ := pictureBoundary_of_decoded hreplay hp hf hd hrasl honly hsets hsp
  obtain ⟨hpictures, habandoned, hstarted, hmedia⟩ := decodedBoundary_counts (s := e) (d := d) (n := n) (u := u) (o := o)
    (cs := unitClasses s n u o exhausted) sp (row := (s.cfgOf u.epoch).stream n) (by rw [hcfg])
  obtain ⟨-, -, hbegun, hcounters⟩ := boundaryClosed_fields
    (decodedPicture (paramsTaken e n o) d n u sp (unitClasses s n u o exhausted) o) d n o.leaving
  rw [hstream] at hpictures habandoned
  rw [heq, hbegun, hcounters, boundaryClosed_till, hmedia, unitHidden_of_params hsp]
  rw [unitHidden_of_params hsp] at hcharged
  exact ⟨hpictures, habandoned, hstarted, hcharged⟩

/-- 04 R156: a picture over its budget is counted abandoned and told, and its stream waits. -/
theorem pictureBoundary_of_budget (hb : .b ∈ unitClasses s n u o exhausted) (hp : .p ∉ unitClasses s n u o exhausted)
    (hf : .f ∉ unitClasses s n u o exhausted) (hd : .d ∉ unitClasses s n u o exhausted)
    (hw : .w ∉ unitClasses s n u o exhausted) (hv : .v ∉ unitClasses s n u o exhausted) (hrasl : o.rasl = false)
    (honly : o.parameterSetsOnly = false) (hsets : u.parameterSets = false) :
    ((pictureBoundary s d n u o exhausted).stream n).state = 3
    ∧ ((pictureBoundary s d n u o exhausted).stream n).waitRap = true
    ∧ ((pictureBoundary s d n u o exhausted).stream n).counters.abandoned = (s.stream n).counters.abandoned + 1
    ∧ ∃ r ∈ (pictureBoundary s d n u o exhausted).journal.waiting,
      r.type = 0x0005 ∧ r.status = stBUDGET ∧ r.stream = n ∧ r.tick = u.tick := by
  obtain ⟨sp, hsp⟩ := params_of_not_mem_pictureClasses hp honly hsets
  obtain ⟨-, habandoned, -, -⟩ := pictureBoundary_counts (d := d) hreplay hp hf hd hrasl honly hsets hsp
  obtain ⟨e, heq, -⟩ := pictureBoundary_of_decoded (d := d) hreplay hp hf hd hrasl honly hsets hsp
  obtain ⟨hstate, hwait, r, hr, htold⟩ := decodedBoundary_of_budget (s := paramsTaken e n o) (d := d) (n := n) (u := u) (o := o) sp hb hw hv
  obtain ⟨hstate', hwait', -⟩ := boundaryClosed_fields
    (decodedPicture (paramsTaken e n o) d n u sp (unitClasses s n u o exhausted) o) d n o.leaving
  rw [if_pos (List.any_eq_true.mpr ⟨.b, hb, rfl⟩)] at habandoned
  refine ⟨?_, ?_, habandoned, r, ?_, htold⟩
  · rw [heq, hstate', hstate]
  · rw [heq, hwait', hwait]
  · rw [heq]
    exact (RecordsAdded.boundaryClosed ..).kept hr

/-- 04 R151, class P: without its parameter sets a picture only opens the wait. -/
theorem pictureBoundary_of_missing (hp : .p ∈ unitClasses s n u o exhausted) (hf : .f ∉ unitClasses s n u o exhausted)
    (hd : .d ∉ unitClasses s n u o exhausted) : ((pictureBoundary s d n u o exhausted).stream n).decoding
      = (if (s.stream n).started then 3 else 1, true, (s.stream n).started, (s.stream n).counters) := by
  obtain ⟨e, heq, hstream, -⟩ := pictureBoundary_of_live (n := n) (u := u) (o := o) (exhausted := exhausted) hreplay
  obtain ⟨x, width, height, hwait, hkept⟩ := liveBoundary_of_missing (s := e) (n := n) (o := o) d u hf hd hp
  rw [hstream] at hkept
  simp only [StreamSt.decoding, Prod.mk.injEq] at hkept
  obtain ⟨-, -, hstarted, hcounters⟩ := hkept
  rw [heq, hwait, boundaryClosed_decoding, openWait_decoding, hstarted, hcounters]

/-- 04 R154: a format or dimensions outside the row stop the stream, and record 0x0002 tells of it. -/
theorem pictureBoundary_of_stop (hstop : .f ∈ unitClasses s n u o exhausted ∨ .d ∈ unitClasses s n u o exhausted) :
    ((pictureBoundary s d n u o exhausted).stream n).state = (if .f ∈ unitClasses s n u o exhausted then 4 else 5)
    ∧ ∃ r ∈ (pictureBoundary s d n u o exhausted).journal.waiting, r.type = 0x0002 ∧ r.stream = n := by
  obtain ⟨e, heq, -⟩ := pictureBoundary_of_live (n := n) (u := u) (o := o) (exhausted := exhausted) hreplay
  obtain ⟨sp, hstopped⟩ := liveBoundary_of_stop (s := e) (n := n) (o := o) d u hstop
  rw [heq, hstopped]
  obtain ⟨hstate, -⟩ := boundaryClosed_fields
    (stopStream (paramsTaken e n o) n u (if .f ∈ unitClasses s n u o exhausted then .f else .d) sp) d n o.leaving
  obtain ⟨r, hr, htold⟩ := stopStream_record (paramsTaken e n o) n u (if .f ∈ unitClasses s n u o exhausted then .f else .d) sp
  refine ⟨?_, r, (RecordsAdded.boundaryClosed ..).kept hr, htold⟩
  rw [hstate, stopStream_state]
  by_cases hf : .f ∈ unitClasses s n u o exhausted
  · simp [hf]
  · simp [hf]

end

/-! ## The statement -/

/-- Settles O29: each clause is one outcome of the boundary of a live picture, kept by what closes the boundary; a replay never
writes a stream. -/
theorem pictureBoundariesCount : Obligations.PictureBoundariesCount := by
  unfold Obligations.PictureBoundariesCount
  refine ⟨fun s d n u o cs row sp hidden hrun hjob hreplay hrow hcs hp hf hd hsp hhidden hrasl honly hsets => ?picture,
    fun s d n u o cs hrun hjob hreplay hcs hp hf hd hw hv hrasl honly hsets => ?budget,
    fun s d n u o cs hrun hjob hreplay hcs hp hf hd => ?missing,
    fun s d n u o cs hrun hjob hreplay hcs hstop => ?stop,
    fun s d n ident u o hrun hjob hreplay => ?replay⟩
  case picture =>
    subst hrow
    obtain rfl : cs = unitClasses s n u o false := hcs
    obtain rfl : hidden = unitHidden s n u o false := hhidden.trans (unitHidden_of_params hsp).symm
    exact ⟨_, exec_decodePictureComplete hrun hjob, pictureBoundary_counts hreplay hp hf hd hrasl honly hsets hsp⟩
  case budget =>
    obtain rfl : cs = unitClasses s n u o true := hcs
    obtain ⟨hstate, hwait, habandoned, r, hr, htold⟩ := pictureBoundary_of_budget (d := d) hreplay mem_pictureClasses_of_exhausted
      hp hf hd hw hv hrasl honly hsets
    exact ⟨_, r, exec_decodeBudgetExhausted hrun hjob, hstate, hwait, habandoned, hr, htold⟩
  case missing =>
    obtain rfl : cs = unitClasses s n u o false := hcs
    have hwaits := pictureBoundary_of_missing (d := d) hreplay hp hf hd
    simp only [StreamSt.decoding, Prod.mk.injEq] at hwaits
    obtain ⟨hstate, hwait, -, hcounters⟩ := hwaits
    exact ⟨_, exec_decodePictureComplete hrun hjob, hwait, hstate, hcounters⟩
  case stop =>
    obtain rfl : cs = unitClasses s n u o false := hcs
    obtain ⟨hstate, r, hr, htold⟩ := pictureBoundary_of_stop (d := d) hreplay hstop
    exact ⟨_, r, exec_decodePictureComplete hrun hjob, hstate, hr, htold⟩
  case replay =>
    obtain ⟨x, heq, hstreams⟩ := pictureBoundary_of_replay (n := n) (u := u) (o := o) (exhausted := false) hreplay
    refine ⟨_, exec_decodePictureComplete hrun hjob, ?_⟩
    rw [heq]
    exact replayClosed_fields hstreams d n

end Sys2Proof.Machine

/-! The pre-processing queue of an account (05 R181 to R186): what host assistance leaves of it, what a picture at its deadline takes
from it, and the mark set last. -/

namespace Sys2Proof.Machine

/-! ## Accounts -/

/-- The work of an account's pre-processing: its queue, the picture in the unit, and how many it has shed. -/
def PreAcct.work (x : PreAcct) : List Picture × Option Picture × W64 := (x.queue, x.current, x.shed)

theorem PreAcct.work_lowSince (x : PreAcct) (since : Option Nat) : { x with lowSince := since }.work = x.work := rfl

theorem State.acct_congr {s t : State} (h : t.accts = s.accts) (a : Nat) : t.acct a = s.acct a := by rw [State.acct, State.acct, h]

theorem State.rollingOf_congr {s t : State} (h : t.rolling = s.rolling) (g a : Nat) : t.rollingOf g a = s.rollingOf g a := by
  rw [State.rollingOf, State.rollingOf, h]

/-- What `p` shows of the account that is changed it shows of every account. -/
theorem State.modAcct_keeps {β : Type} (p : PreAcct → β) {s : State} {a : Nat} {f : PreAcct → PreAcct}
    (h : p (f (s.acct a)) = p (s.acct a)) (j : Nat) : p ((s.modAcct a f).acct j) = p (s.acct j) := by
  rw [State.modAcct_get]
  split
  next hj => rw [h, hj]
  next => rfl

@[simp] theorem State.atStation_acct (s : State) (n a : Nat) : (s.atStation n).acct a = s.acct a :=
  State.acct_congr (keeps_accts (s.atStation_erase n (Nat.and_self _)) rfl) a
@[simp] theorem State.atElapsed_acct (s : State) (n a : Nat) : (s.atElapsed n).acct a = s.acct a :=
  State.acct_congr (keeps_accts (s.atElapsed_erase n (Nat.and_self _)) rfl) a
@[simp] theorem State.atStation_stream (s : State) (n j : Nat) : (s.atStation n).stream j = s.stream j :=
  State.stream_congr (keeps_streams (s.atStation_erase n (Nat.and_self _)) rfl) j

/-! ## Marking -/

theorem trackLow_work (s : State) (a j : Nat) : ((trackLow s a).acct j).work = (s.acct j).work :=
  State.modAcct_keeps PreAcct.work (PreAcct.work_lowSince _ _) j

/-- Host assistance only marks streams and looks at the backlog anew. -/
theorem hostAssist_keeps {β : Type} (p : State → β) {a : Nat} (hmark : ∀ t n, p (markStream t a n) = p t)
    (hlow : ∀ t, p (trackLow t a) = p t) (s : State) : p (hostAssist s a) = p s := by
  unfold hostAssist
  extract_lets s1
  have hmarked : p s1 = p s := by
    unfold s1
    split
    · refine foldl_keeps p (fun t n => ?_) _ s
      split
      · rfl
      · exact hmark t n
    · rfl
  exact (hlow s1).trans hmarked

theorem hostAssist_work (s : State) (a j : Nat) : ((hostAssist s a).acct j).work = (s.acct j).work :=
  hostAssist_keeps (fun t => (t.acct j).work) (fun _ _ => State.modAcct_keeps PreAcct.work (by rfl) j)
    (fun t => trackLow_work t a j) s

theorem hostAssist_forceFull (s : State) (a j : Nat) : ((hostAssist s a).stream j).forceFull = (s.stream j).forceFull :=
  hostAssist_keeps (fun t => (t.stream j).forceFull)
    (fun t _ => State.setStream_keeps (s := t.assistRecord 0x0040 a _) StreamSt.forceFull (by rfl) j)
    (fun t => by rw [State.stream_congr (trackLow_streams t a)]) s

/-! ## Clearing -/

/-- A stream is neither host-assisted nor among the marks of an account. -/
def Unmarked (s : State) (a n : Nat) : Prop := (s.stream n).assisted = false ∧ n ∉ (s.acct a).marks

/-- What the queued pictures of a stream cost, which its mark keeps out of the backlog (05 R184). -/
def State.heldNs (s : State) (a n : Nat) : Nat :=
  s.costNs (((s.acct a).queue.filter fun p => p.stream == n).map fun p => pictureCost (s.cfgOf p.epoch).model p).sum

theorem clearMark_stream (s : State) (a m j : Nat) :
    (clearMark s a m).stream j = if j = m then { s.stream m with assisted := false, markNo := 0 } else s.stream j :=
  s.modStream_get m (fun t => { t with assisted := false, markNo := 0 }) j

theorem clearMark_marks (s : State) (a m : Nat) : ((clearMark s a m).acct a).marks = (s.acct a).marks.filter (· != m) :=
  congrArg PreAcct.marks (((s.modStream m fun t => { t with assisted := false, markNo := 0 }).modAcct_get a
    (fun x => { x with marks := x.marks.filter (· != m) }) a).trans (if_pos rfl))

theorem unmarked_clearMark (s : State) (a n : Nat) : Unmarked (clearMark s a n) a n := by
  rw [Unmarked, clearMark_stream, if_pos rfl, clearMark_marks]
  exact ⟨rfl, by simp⟩

theorem Unmarked.clearMark {s : State} {a n : Nat} (h : Unmarked s a n) (m : Nat) : Unmarked (clearMark s a m) a n := by
  obtain ⟨hassisted, hmarks⟩ := h
  rw [Unmarked, clearMark_stream, clearMark_marks]
  refine ⟨?_, fun hn => hmarks (List.mem_of_mem_filter hn)⟩
  split
  · rfl
  · exact hassisted

theorem RecordsAdded.clearMark (s : State) (a m : Nat) : RecordsAdded s (clearMark s a m) := by
  unfold Machine.clearMark
  extract_lets s1
  have hcleared : RecordsAdded s s1 := .of_journal rfl
  exact hcleared.trans (.emit _ _)

/-- 05 R191: record 0x0041 tells of the cleared mark. -/
theorem clearMark_record (s : State) (a n : Nat) :
    ∃ r ∈ (clearMark s a n).journal.waiting, r.type = 0x0041 ∧ r.stream = n ∧ r.account = a :=
  ⟨_, State.mem_emit_waiting.mpr (.inl rfl), rfl, rfl, rfl⟩

/-- What no clearing of a mark undoes, the clearing of several leaves. -/
theorem clearLoop_keeps {P : State → Prop} {a : Nat} (h : ∀ t m, P t → P (clearMark t a m)) (l : List Nat) {s : State} (hs : P s) :
    P (clearLoop a l s) := by
  induction l generalizing s with
  | nil => exact hs
  | cons m l ih =>
    rw [clearLoop]
    split
    · exact hs
    · exact ih (h s m hs)

theorem Unmarked.clearLoop {s : State} {a n : Nat} (h : Unmarked s a n) (l : List Nat) : Unmarked (clearLoop a l s) a n :=
  clearLoop_keeps (P := fun t => Unmarked t a n) (fun _ m ht => ht.clearMark m) l h

theorem RecordsAdded.clearLoop (s : State) (a : Nat) (l : List Nat) : RecordsAdded s (clearLoop a l s) :=
  clearLoop_keeps (P := RecordsAdded s) (fun t m ht => ht.trans (.clearMark t a m)) l (.of_journal rfl)

theorem clearLoop_cons (s : State) (a n : Nat) (l : List Nat) : clearLoop a (n :: l) s
    = if s.cfg.lowMark < s.backlog a + s.heldNs a n then s else clearLoop a l (clearMark s a n) := rfl

theorem State.atElapsed_backlog (s : State) (n a : Nat) : (s.atElapsed n).backlog a = s.backlog a := by
  rw [State.atElapsed, State.advance]
  split
  · rfl
  · rfl

theorem State.atElapsed_heldNs (s : State) (t a n : Nat) : (s.atElapsed t).heldNs a n = s.heldNs a n := by
  rw [State.atElapsed, State.advance]
  split
  · rfl
  · rfl

section
variable {s : State} {a n since : Nat} {ms : List Nat} (hrun : s.running = true) (hlow : (s.acct a).lowSince = some since)
  (hmarks : (s.acct a).marks = ms ++ [n])
include hrun hlow hmarks

/-- 05 R184: a second below the low watermark, the mark set last is looked at first. -/
theorem exec_hostAssistClear :
    exec (.hostAssistClear a) s = .next (clearLoop a (n :: ms.reverse) (s.atElapsed (since + second))) := by
  have hsome : (ms ++ [n]).isEmpty = false := by simp
  change execHostAssistClear a s = _
  simp only [execHostAssistClear, done, hlow, hrun, hmarks, hsome, Bool.not_true, Bool.or_self, Bool.false_eq_true, if_false,
    State.atElapsed_acct, List.reverse_append, List.reverse_cons, List.reverse_nil, List.nil_append, List.cons_append]

theorem exec_hostAssistClear_of_fits (hfits : s.backlog a + s.heldNs a n ≤ s.cfg.lowMark) :
    exec (.hostAssistClear a) s = .next (clearLoop a ms.reverse (clearMark (s.atElapsed (since + second)) a n)) := by
  rw [exec_hostAssistClear hrun hlow hmarks, clearLoop_cons, State.atElapsed_cfg, State.atElapsed_backlog, State.atElapsed_heldNs,
    if_neg (not_lt.mpr hfits)]

theorem exec_hostAssistClear_of_full (hfull : s.cfg.lowMark < s.backlog a + s.heldNs a n) :
    exec (.hostAssistClear a) s = .next (s.atElapsed (since + second)) := by
  rw [exec_hostAssistClear hrun hlow hmarks, clearLoop_cons, State.atElapsed_cfg, State.atElapsed_backlog, State.atElapsed_heldNs,
    if_pos hfull]

end

/-! ## Host tensors -/

theorem queueSample_accts (s : State) (a : Nat) (p : Picture) : (queueSample s a p).accts = s.accts :=
  keeps_accts (queueSample_erase s a p (Nat.and_self _)) rfl

/-- A sample joins the end of its region's queue. -/
theorem queueSample_rollingOf (s : State) (a : Nat) (p : Picture) {g : Nat}
    (hg : g = (homeRegion s p).getD ((s.cfgOf p.epoch).stream p.stream).region) :
    (queueSample s a p).rollingOf g a = { s.rollingOf g a with waiting := (s.rollingOf g a).waiting ++ [keepLevels s p] } := by
  subst hg
  rw [queueSample]
  exact State.setRolling_get _ _ _ _

/-- Only the levels of a picture are kept with it. -/
theorem keepLevels_eq (s : State) (p : Picture) : ∃ levels, keepLevels s p = { p with levels := levels } := by
  rw [keepLevels]
  split
  · exact ⟨_, rfl⟩
  · exact ⟨p.levels, rfl⟩

/-- Without host tensors of the stream, no queued picture of it is passed on. -/
theorem flushStream_of_none {s : State} {n : Nat} (a : Nat) (h : (s.stream n).hostTensors = []) : flushStream s a n = s := by
  rw [flushStream]
  cases (s.acct a).queue.length with
  | zero => rfl
  | succ k =>
    rw [flushHost]
    split
    · rfl
    · rw [h]
      rfl

/-- The pictures passed on with their host tensors are not shed. -/
theorem flushHost_shed (k : Nat) (s : State) (a n j : Nat) : ((flushHost k s a n).acct j).shed = (s.acct j).shed := by
  induction k generalizing s with
  | zero => rfl
  | succ k ih =>
    rw [flushHost]
    split
    · rfl
    · split
      · rfl
      · rw [ih, State.acct_congr (queueSample_accts _ _ _)]
        exact State.modAcct_keeps (f := fun x => { x with queue := x.queue.filter _ }) PreAcct.shed (by rfl) j

/-! ## Deadlines -/

section
variable {s : State} {a : Nat} {p : Picture}

theorem shedPicture_eq : ∃ t, shedPicture s a p = flushStream t a p.stream
    ∧ (t.acct a).work = ((s.acct a).queue.filter (· != p), (s.acct a).current, (s.acct a).shed + 1)
    ∧ (t.stream p.stream).hostTensors = (s.stream p.stream).hostTensors := by
  refine ⟨_, rfl, ?_, ?_⟩
  · rw [trackLow_work, State.acct_congr (State.modStream_accts _ _ _), State.modAcct_get, if_pos rfl]
    rfl
  · rw [State.stream_congr (trackLow_streams _ _)]
    exact State.setStream_keeps StreamSt.hostTensors (by rfl) p.stream

theorem shedPicture_shed : ((shedPicture s a p).acct a).shed = (s.acct a).shed + 1 := by
  obtain ⟨t, heq, hwork, -⟩ := shedPicture_eq (s := s) (a := a) (p := p)
  rw [heq, flushStream, flushHost_shed]
  exact congrArg (·.2.2) hwork

theorem shedPicture_queue (h : (s.stream p.stream).hostTensors = []) :
    ((shedPicture s a p).acct a).queue = (s.acct a).queue.filter (· != p) := by
  obtain ⟨t, heq, hwork, htensors⟩ := shedPicture_eq (s := s) (a := a) (p := p)
  rw [heq, flushStream_of_none a (htensors.trans h)]
  exact congrArg (·.1) hwork

end

section
variable {s : State} {a n tick : Nat} {p : Picture}
  (hfound : (s.accts.findSome? fun e => (e.2.queue.find? fun p => p.stream == n && p.tick == tick).map fun p => (e.1, p)) = some (a, p))
include hfound

theorem stream_of_queued : p.stream = n := by
  obtain ⟨e, -, he⟩ := List.exists_of_findSome?_eq_some hfound
  obtain ⟨q, hq, hqp⟩ := Option.map_eq_some_iff.mp he
  have hnamed := List.find?_some hq
  simp only [Prod.mk.injEq] at hqp
  obtain ⟨-, rfl⟩ := hqp
  simp only [Bool.and_eq_true, beq_iff_eq] at hnamed
  exact hnamed.1

theorem exec_pictureDeadline (hrun : s.running = true) (hfree : (s.stream n).hostTensors.contains tick = false) :
    exec (.pictureDeadline n tick) s = .next (shedPicture (s.atStation (s.pictureDeadline p)) a p) := by
  change execPictureDeadline n tick s = _
  rw [execPictureDeadline, hfound]
  simp only [done, hrun, hfree, Bool.not_true, Bool.or_self, Bool.false_eq_true, if_false]

end

end Sys2Proof.Machine

/-! The pre-processing unit at work (05 R173, R174, R182, 14 R415): a picture taken into the unit, its tensors stored and its sample
queued, or the picture dead of void samples. -/

namespace Sys2Proof.Machine

/-! ## Pictures taken -/

/-- The picture leaves the queue for the unit, its pass decided. -/
def pictureTaken (s : State) (a : Nat) (p : Picture) : State :=
  let full := fullFramePass ((s.cfgOf p.epoch).stream p.stream) (s.stream p.stream) p.analysisWindow p.epoch
  (s.modAcct a fun x => { x with queue := x.queue.filter (· != p), current := some { p with fullFrame := full } }).modStream p.stream
    fun t => t.passDecided p.epoch

theorem pictureTaken_work (s : State) (a : Nat) (p : Picture) : ((pictureTaken s a p).acct a).work
    = ((s.acct a).queue.filter (· != p),
        some { p with fullFrame := fullFramePass ((s.cfgOf p.epoch).stream p.stream) (s.stream p.stream) p.analysisWindow p.epoch },
        (s.acct a).shed) := by
  rw [pictureTaken, State.acct_congr (State.modStream_accts _ _ _), State.modAcct_get, if_pos rfl]
  rfl

theorem pictureTaken_forceFull (s : State) (a : Nat) (p : Picture) : ((pictureTaken s a p).stream p.stream).forceFull = false := by
  rw [pictureTaken, State.modStream_get, if_pos rfl]
  rfl

section
variable {s : State} {a : Nat} (hmay : s.mayBegin = true) (hidle : (s.acct a).current = none) (hzone : zoneWaits s = false)
include hmay hidle hzone

theorem exec_preprocessStart_of_some {p : Picture} (hnext : nextPicture s a = some p) :
    exec (.preprocessStart a) s = .next (hostAssist (pictureTaken s a p) a) := by
  change execPreprocessStart a s = _
  simp only [execPreprocessStart, done, hmay, hidle, hzone, hnext, Option.isNone_none, Bool.not_false, Bool.and_self, if_true]
  rfl

theorem exec_preprocessStart_of_none (hnext : nextPicture s a = none) : exec (.preprocessStart a) s = .next (hostAssist s a) := by
  change execPreprocessStart a s = _
  simp only [execPreprocessStart, done, hmay, hidle, hzone, hnext, Option.isNone_none, Bool.not_false, Bool.and_self, if_true]

end

/-- 05 R178: zone pictures come ahead of every account's work. -/
theorem exec_preprocessStart_of_zone {s : State} (a : Nat) (hzone : zoneWaits s = true) : exec (.preprocessStart a) s = .next s := by
  change execPreprocessStart a s = _
  simp only [execPreprocessStart, done, hzone, Bool.not_true, Bool.and_false, Bool.false_eq_true, if_false]

/-! ## Void pictures -/

theorem restartStream_hostTensors (s : State) (n j : Nat) :
    ((restartStream s n).stream j).hostTensors = (s.stream j).hostTensors := by
  unfold restartStream
  extract_lets t copy tick since t1 s1 r
  exact State.setStream_keeps StreamSt.hostTensors (by rfl) j

/-- 14 R417: record 0x0602 tells of the restart. -/
theorem restartStream_record (s : State) (n : Nat) :
    ∃ r ∈ (restartStream s n).journal.waiting, r.type = 0x0602 ∧ r.stream = n :=
  ⟨_, State.mem_emit_waiting.mpr (.inl rfl), rfl, rfl⟩

/-! ## Tensors -/

/-- The unit holds no picture of the account. -/
def unitFreed (s : State) (a : Nat) : State := s.modAcct a fun x => { x with current := none }

theorem unitFreed_current (s : State) (a : Nat) : ((unitFreed s a).acct a).current = none :=
  congrArg PreAcct.current ((s.modAcct_get a (fun x => { x with current := none }) a).trans (if_pos rfl))

/-- The tensors of a picture read its samples from memory, and nothing else of the state. -/
theorem tensorsOf_congr {s t : State} (h : t.mem = s.mem) (m : Model) (row : StreamRow) (x : StreamSt) (p : Picture) :
    tensorsOf t m row x p = tensorsOf s m row x p := by
  have hsample : t.sampleAt = s.sampleAt := by
    funext q plane i j
    simp only [State.sampleAt, State.word, State.bytes, State.byte, h]
  have hlevel : level0 t p = level0 s p := by simp only [level0, picturePlane, hsample]
  simp only [tensorsOf, hlevel]

/-- The tensors stored and their saturations counted; a pass that fell back makes the next one full (05 R177). -/
def tensorsStored (s : State) (p : Picture) (page : Nat) (bytes : List Byte) (sats : Nat) (fell : Bool) : State :=
  let s1 := s.store (4096 * page) bytes
  let s2 := if fell then s1.modStream p.stream fun t => { t with forceFull := true } else s1
  { s2 with preConvSat := s2.preConvSat + BitVec.ofNat 64 sats }

/-- The sample queued for its region and its work charged to the stream's account. -/
def sampleQueued (s : State) (a cycles size : Nat) (p : Picture) : State :=
  (queueSample s a p).chargeMedia ((s.cfgOf p.epoch).stream p.stream).account cycles size

theorem sampleQueued_erase (s : State) (a cycles size : Nat) (p : Picture) :
    (sampleQueued s a cycles size p).erase 0x1000008000 = s.erase 0x1000008000 :=
  (State.chargeMedia_erase _ _ _ _ (by decide)).trans (queueSample_erase s a p (by decide))

theorem sampleQueued_rollingOf (s : State) (a cycles size : Nat) (p : Picture) {g : Nat}
    (hg : g = (homeRegion s p).getD ((s.cfgOf p.epoch).stream p.stream).region) : ∃ levels,
    ((sampleQueued s a cycles size p).rollingOf g a).waiting = (s.rollingOf g a).waiting ++ [{ p with levels := levels }] := by
  obtain ⟨levels, heq⟩ := keepLevels_eq s p
  refine ⟨levels, ?_⟩
  rw [← heq]
  exact congrArg Rolling.waiting (queueSample_rollingOf s a p hg)

section
variable (s : State) (p : Picture) (page : Nat) (bytes : List Byte) (sats : Nat) (fell : Bool)

/-- Beside memory, the streams and the saturations nothing is written. -/
theorem tensorsStored_erase : (tensorsStored s p page bytes sats fell).erase 0x60000011000 = s.erase 0x60000011000 := by
  unfold tensorsStored
  extract_lets s1 s2
  have hstored : s2.erase 0x60000011000 = s.erase 0x60000011000 := by
    unfold s2
    split
    · exact (s1.modStream_erase _ _ (by decide)).trans (s.store_erase _ _ _ (by decide))
    · exact s.store_erase _ _ _ (by decide)
  exact (put_preConvSat s2 (by decide)).trans hstored

theorem tensorsStored_mem : (tensorsStored s p page bytes sats fell).mem = (s.store (4096 * page) bytes).mem := by
  cases fell <;> rfl

theorem tensorsStored_preConvSat : (tensorsStored s p page bytes sats fell).preConvSat = s.preConvSat + BitVec.ofNat 64 sats := by
  cases fell <;> rfl

theorem tensorsStored_forceFull :
    ((tensorsStored s p page bytes sats fell).stream p.stream).forceFull = (fell || (s.stream p.stream).forceFull) := by
  cases fell with
  | false => rfl
  | true =>
    exact congrArg StreamSt.forceFull
      (((s.store (4096 * page) bytes).modStream_get p.stream (fun t => { t with forceFull := true }) p.stream).trans (if_pos rfl))

theorem tensorsStored_hostTensors (j : Nat) :
    ((tensorsStored s p page bytes sats fell).stream j).hostTensors = (s.stream j).hostTensors := by
  cases fell with
  | false => rfl
  | true => exact State.setStream_keeps (s := s.store (4096 * page) bytes) StreamSt.hostTensors (by rfl) j

theorem tensorsStored_homeRegion : homeRegion (tensorsStored s p page bytes sats fell) p = homeRegion s p := by
  cases fell <;> rfl

end

/-! ## Samples -/

/-- The unit done with a picture: its tensors stored, its sample queued. -/
def sampleMade (s : State) (a : Nat) (p : Picture) (page : Nat) (bytes : List Byte) (sats : Nat) (fell : Bool) : State :=
  sampleQueued (tensorsStored (unitFreed s a) p page bytes sats fell) a (pictureCost (s.cfgOf p.epoch).model p / 1000000)
    (p.bytes + bytes.length) p

section
variable (s : State) (a : Nat) (p : Picture) (page : Nat) (bytes : List Byte) (sats : Nat) (fell : Bool)

theorem sampleMade_erase : (sampleMade s a p page bytes sats fell).erase 0x1000008000
    = (tensorsStored (unitFreed s a) p page bytes sats fell).erase 0x1000008000 := sampleQueued_erase _ _ _ _ _

theorem sampleMade_current : ((sampleMade s a p page bytes sats fell).acct a).current = none := by
  rw [State.acct_congr (keeps_accts (sampleMade_erase ..) rfl), State.acct_congr (keeps_accts (tensorsStored_erase ..) rfl),
    unitFreed_current]

theorem sampleMade_waiting : ∃ levels,
    ((sampleMade s a p page bytes sats fell).rollingOf
        ((homeRegion (unitFreed s a) p).getD ((s.cfgOf p.epoch).stream p.stream).region) a).waiting
      = (s.rollingOf ((homeRegion (unitFreed s a) p).getD ((s.cfgOf p.epoch).stream p.stream).region) a).waiting
        ++ [{ p with levels := levels }] := by
  have hstored := tensorsStored_erase (unitFreed s a) p page bytes sats fell
  have hcfg : (tensorsStored (unitFreed s a) p page bytes sats fell).cfgOf p.epoch = s.cfgOf p.epoch :=
    State.cfgOf_congr (keeps_cfg hstored rfl) (keeps_cfgOld hstored rfl) (keeps_stl hstored rfl) p.epoch
  obtain ⟨levels, hwaiting⟩ := sampleQueued_rollingOf (tensorsStored (unitFreed s a) p page bytes sats fell) a
    (pictureCost (s.cfgOf p.epoch).model p / 1000000) (p.bytes + bytes.length) p rfl
  rw [State.rollingOf_congr (keeps_rolling hstored rfl), tensorsStored_homeRegion, hcfg] at hwaiting
  exact ⟨levels, hwaiting⟩

theorem sampleMade_preConvSat : (sampleMade s a p page bytes sats fell).preConvSat = s.preConvSat + BitVec.ofNat 64 sats :=
  (keeps_preConvSat (sampleMade_erase ..) rfl).trans (tensorsStored_preConvSat ..)

theorem sampleMade_forceFull :
    ((sampleMade s a p page bytes sats fell).stream p.stream).forceFull = (fell || (s.stream p.stream).forceFull) := by
  rw [State.stream_congr (keeps_streams (sampleMade_erase ..) rfl)]
  exact tensorsStored_forceFull (unitFreed s a) p page bytes sats fell

theorem sampleMade_hostTensors (j : Nat) :
    ((sampleMade s a p page bytes sats fell).stream j).hostTensors = (s.stream j).hostTensors := by
  rw [State.stream_congr (keeps_streams (sampleMade_erase ..) rfl)]
  exact tensorsStored_hostTensors (unitFreed s a) p page bytes sats fell j

theorem sampleMade_byte (j : Nat) : (sampleMade s a p page bytes sats fell).byte j = (s.store (4096 * page) bytes).byte j := by
  rw [State.byte, State.byte, keeps_mem (sampleMade_erase ..) rfl]
  exact congrArg (Table.get 0#8 j) (tensorsStored_mem (unitFreed s a) p page bytes sats fell)

end

section
variable {s : State} {a page : Nat} {p : Picture} (hrun : s.running = true) (hcur : (s.acct a).current = some p)
include hrun hcur

/-- 14 R415: a void picture gives no sample, and its stream restarts. -/
theorem exec_preprocessComplete_of_void (hvoid : p.voidIn s = true) (hnone : (s.stream p.stream).hostTensors = []) :
    exec (.preprocessComplete a p.stream p.tick page) s = .next (restartStream (unitFreed s a) p.stream) := by
  have hflush : flushStream (restartStream (unitFreed s a) p.stream) a p.stream = restartStream (unitFreed s a) p.stream :=
    flushStream_of_none a ((restartStream_hostTensors _ _ _).trans hnone)
  change execPreprocessComplete a p.stream p.tick page s = _
  rw [← hflush]
  simp only [execPreprocessComplete, done, hrun, hcur, hvoid, bne_self_eq_false, Bool.not_true, Bool.or_self, Bool.false_eq_true,
    if_false, if_true]
  rfl

/-- 05 R173: the tensors are stored at their page and the sample joins its region's queue. -/
theorem exec_preprocessComplete_of_tensors {bytes : List Byte} {sats : Nat} {fell : Bool} (hsound : p.voidIn s = false)
    (hnone : (s.stream p.stream).hostTensors = [])
    (htensors : tensorsOf (unitFreed s a) (s.cfgOf p.epoch).model ((s.cfgOf p.epoch).stream p.stream)
      ((unitFreed s a).stream p.stream) p = (some (bytes, sats), fell)) :
    exec (.preprocessComplete a p.stream p.tick page) s
      = .next (sampleMade s a p page bytes sats fell) := by
  have hflush : flushStream (sampleMade s a p page bytes sats fell) a p.stream = sampleMade s a p page bytes sats fell :=
    flushStream_of_none a ((sampleMade_hostTensors ..).trans hnone)
  rw [tensorsOf_congr (t := unitFreed s a) (s := s) rfl] at htensors
  change execPreprocessComplete a p.stream p.tick page s = _
  rw [← hflush]
  simp only [execPreprocessComplete, done, hrun, hcur, hsound, bne_self_eq_false, Bool.not_true, Bool.or_self, Bool.false_eq_true,
    if_false]
  split
  next hnothing => cases hnothing.symm.trans htensors
  next heq =>
    cases heq.symm.trans htensors
    cases fell <;> rfl

end

end Sys2Proof.Machine

/-! Rolling batches (05 R188 to R190): the members that stay at the boundary of a step, and the samples that join. -/

namespace Sys2Proof.Machine

/-- Of a batch only members have been added, each at segment 0. -/
structure Joined (r r' : Rolling) : Prop where
  step : r'.step = r.step
  members : ∃ l, r'.members = r.members ++ l ∧ ∀ y ∈ l, y.removed = false ∧ y.segment = 0

namespace Joined

theorem of_same {r r' : Rolling} (hstep : r'.step = r.step) (hmembers : r'.members = r.members) : Joined r r' :=
  ⟨hstep, [], by simp [hmembers], by simp⟩

theorem trans {r r' r'' : Rolling} (h : Joined r r') (h' : Joined r' r'') : Joined r r'' := by
  obtain ⟨hstep, l, hl, hnew⟩ := h
  obtain ⟨hstep', l', hl', hnew'⟩ := h'
  refine ⟨hstep'.trans hstep, l ++ l', by rw [hl', hl, List.append_assoc], fun y hy => ?_⟩
  exact (List.mem_append.mp hy).elim (hnew y) (hnew' y)

theorem setRolling (s : State) (g a : Nat) {r : Rolling} (h : Joined (s.rollingOf g a) r) :
    Joined (s.rollingOf g a) ((s.setRolling g a r).rollingOf g a) := by
  rwa [State.setRolling_get]

end Joined

/-- Samples join at segment 0, and no member is disturbed. -/
theorem joinLoop_joined (k : Nat) (s : State) (g a : Nat) : Joined (s.rollingOf g a) ((joinLoop k s g a).rollingOf g a) := by
  induction k generalizing s with
  | zero => exact .of_same rfl rfl
  | succ k ih =>
    rw [joinLoop]
    split
    · exact .of_same rfl rfl
    next p rest hwaiting =>
      split
      · exact .of_same rfl rfl
      extract_lets m x s1 s2 rec_
      split
      · refine .trans ?_ (ih _)
        exact .setRolling s g a ⟨rfl, [x], rfl, by simp [x, memberOf]⟩
      · split
        · refine .trans ?_ (ih _)
          exact .setRolling s g a (.of_same rfl rfl)
        · exact .setRolling s g a (.of_same rfl rfl)

/-! ## The boundary of a step -/

/-- A member that is removed, or has run its last segment, leaves. -/
def State.leaves (s : State) (x : Member) : Bool := x.removed || decide ((s.cfgOf x.epoch).model.segments ≤ x.segment)

/-- A batch advanced by one step: every member runs on by one segment, unless it leaves. -/
def State.stepped (s : State) (r : Rolling) : Rolling :=
  { r with members := (r.members.map fun x => { x with segment := x.segment + 1 }).filter fun x => !s.leaves x, step := r.step + 1 }

theorem State.mem_stepped {s : State} {r : Rolling} {y : Member} : y ∈ (s.stepped r).members ↔ ∃ x ∈ r.members,
    y = { x with segment := x.segment + 1 } ∧ x.removed = false ∧ x.segment + 1 < (s.cfgOf x.epoch).model.segments := by
  simp only [State.stepped, State.leaves, List.mem_filter, List.mem_map, Bool.not_or, Bool.and_eq_true, Bool.not_eq_true',
    decide_eq_false_iff_not, not_le]
  constructor
  · rintro ⟨⟨x, hx, rfl⟩, hstays, hmore⟩
    exact ⟨x, hx, rfl, hstays, hmore⟩
  · rintro ⟨x, hx, rfl, hstays, hmore⟩
    exact ⟨⟨x, hx, rfl⟩, hstays, hmore⟩

theorem State.stepped_congr {s t : State} (h : ∀ epoch, t.cfgOf epoch = s.cfgOf epoch) (r : Rolling) : t.stepped r = s.stepped r := by
  simp only [State.stepped, State.leaves, h]

theorem stepBoundary_joined (s : State) (g a : Nat) :
    Joined (s.stepped (s.rollingOf g a)) ((stepBoundary s g a).rollingOf g a) := by
  unfold stepBoundary
  extract_lets r moved isOut s1 s2 s3
  have hleft : s3.rolling = s1.rolling := by
    have hreleased : s2.rolling = s1.rolling :=
      foldl_keeps State.rolling (fun y x => keeps_rolling (releaseMember_erase y g x (Nat.and_self _)) rfl) _ s1
    exact (foldl_keeps State.rolling (fun y x => keeps_rolling (finishMember_erase y g a x (Nat.and_self _)) rfl) _ s2).trans hreleased
  have hstepped : s3.rollingOf g a = s.stepped r := (State.rollingOf_congr hleft g a).trans (s.setRolling_get g a _)
  rw [← hstepped]
  split
  · exact joinLoop_joined _ s3 g a
  · exact .of_same rfl rfl

theorem batchBoundary_joined (s : State) (g a : Nat) :
    Joined (s.stepped (s.rollingOf g a)) ((batchBoundary s g a).rollingOf g a) := by
  unfold batchBoundary
  extract_lets ms s1 s2
  have hfired : s1.erase 0x800000000 = s.erase 0x800000000 := erase_foldl (fun t m => fireStream_erase t m (Nat.and_self _)) ms s
  have hcfg (epoch : Nat) : s1.cfgOf epoch = s.cfgOf epoch :=
    State.cfgOf_congr (keeps_cfg hfired rfl) (keeps_cfgOld hfired rfl) (keeps_stl hfired rfl) epoch
  have hended : (endSlicesWithout (ms.foldl (replicate s1) s2) g a).rolling = s2.rolling :=
    (keeps_rolling (endSlicesWithout_erase _ g a (Nat.and_self _)) rfl).trans
      (foldl_keeps State.rolling (fun t m => keeps_rolling (replicate_erase s1 t m (Nat.and_self _)) rfl) ms s2)
  rw [State.rollingOf_congr hended, ← State.stepped_congr hcfg, ← State.rollingOf_congr (keeps_rolling hfired rfl)]
  exact stepBoundary_joined s1 g a

theorem exec_batchStepBoundary {s : State} {g a : Nat} (hrun : s.running = true) (hg : g < 4) (ha : a < 64)
    (hissues : s.regionIssues g = true) : exec (.batchStepBoundary g a) s = .next (batchBoundary s g a) := by
  change execBatchStepBoundary g a s = _
  simp only [execBatchStepBoundary, done, hrun, hg, ha, hissues, decide_true, Bool.and_self, if_true]

end Sys2Proof.Machine

/-! Pictures, samples and rolling batches together (05 R174 to R189, 14 R415). -/

namespace Sys2Proof.Machine

/-- Settles O31: a picture's start by `hostAssist_work`, its completion by the rules of `tensorsStored` and `sampleQueued`, its deadline by
those of `shedPicture`, the mark set last by those of `clearLoop`, a step of a batch by `batchBoundary_joined`. -/
theorem picturesBecomeSamplesInBatches : Obligations.PicturesBecomeSamplesInBatches := by
  unfold Obligations.PicturesBecomeSamplesInBatches
  refine ⟨⟨fun s a p hmay hidle hzone hnext => ?start, fun s a hmay hidle hzone hnext => ?idle, fun s a hzone => ?zone,
    fun s u a page sats g p row bytes fell hrun hcur hsound hrow hnone hu hg htensors => ?sample,
    fun s a page p hrun hcur hvoid hnone => ?void, fun s a n tick p hrun hfree hfound => ?deadline,
    fun s a n since ms hrun hlow hmarks hfits => ?clear, fun s a n since ms hrun hlow hmarks hfull => ?keep⟩,
    fun s g a hrun hg ha hissues => ?step⟩
  case start =>
    have hwork := (hostAssist_work (pictureTaken s a p) a a).trans (pictureTaken_work s a p)
    simp only [PreAcct.work, Prod.mk.injEq] at hwork
    obtain ⟨hqueue, hcurrent, -⟩ := hwork
    exact ⟨_, exec_preprocessStart_of_some hmay hidle hzone hnext, hqueue, hcurrent,
      (hostAssist_forceFull _ _ _).trans (pictureTaken_forceFull s a p)⟩
  case idle =>
    have hwork := hostAssist_work s a a
    simp only [PreAcct.work, Prod.mk.injEq] at hwork
    obtain ⟨hqueue, hcurrent, -⟩ := hwork
    exact ⟨_, exec_preprocessStart_of_none hmay hidle hzone hnext, hqueue, hcurrent.trans hidle⟩
  case zone => exact exec_preprocessStart_of_zone a hzone
  case sample =>
    obtain rfl : u = unitFreed s a := hu
    subst hrow hg
    obtain ⟨levels, hwaiting⟩ := sampleMade_waiting s a p page bytes sats fell
    refine ⟨_, { p with levels := levels }, exec_preprocessComplete_of_tensors hrun hcur hsound hnone htensors,
      sampleMade_current .., hwaiting, rfl, rfl, rfl, sampleMade_preConvSat .., sampleMade_forceFull .., fun i hi => ?_, fun j hj => ?_⟩
    · rw [sampleMade_byte, State.store_byte_inside]
    · rw [sampleMade_byte, State.store_byte_outside _ _ _ _ _ hj]
  case void =>
    have hrestart : (restartStream (unitFreed s a) p.stream).erase 0x1800 = (unitFreed s a).erase 0x1800 :=
      restartStream_erase _ _ (Nat.and_self _)
    refine ⟨_, exec_preprocessComplete_of_void hrun hcur hvoid hnone, ?_, (keeps_rolling hrestart rfl).trans rfl,
      restartStream_record _ _, fun j => ?_⟩
    · rw [State.acct_congr (keeps_accts hrestart rfl), unitFreed_current]
    · rw [State.byte, keeps_mem hrestart rfl]
      rfl
  case deadline =>
    obtain rfl := stream_of_queued hfound
    refine ⟨_, exec_pictureDeadline hfound hrun hfree, ?_, fun hnone => ?_⟩
    · rw [shedPicture_shed, State.atStation_acct]
    · rw [shedPicture_queue (by rwa [State.atStation_stream]), State.atStation_acct]
  case clear =>
    obtain ⟨hassisted, hunmarked⟩ := (unmarked_clearMark (s.atElapsed (since + second)) a n).clearLoop ms.reverse
    obtain ⟨r, hr, htold⟩ := clearMark_record (s.atElapsed (since + second)) a n
    have hkept := (RecordsAdded.clearLoop (clearMark (s.atElapsed (since + second)) a n) a ms.reverse).kept hr
    refine ⟨_, r, exec_hostAssistClear_of_fits hrun hlow hmarks hfits, hassisted, hunmarked, ?_, hkept, htold⟩
    rw [keeps_time (clearLoop_erase _ _ _ (Nat.and_self _)) rfl, keeps_time (clearMark_erase _ _ _ (Nat.and_self _)) rfl,
      State.atElapsed_elapsed (State.not_inReset_of_running hrun)]
  case keep =>
    refine ⟨_, exec_hostAssistClear_of_full hrun hlow hmarks hfull, ?_, keeps_streams (s.atElapsed_erase _ (Nat.and_self _)) rfl⟩
    rw [State.atElapsed_acct]
  case step =>
    obtain ⟨hstep, l, hmembers, hnew⟩ := batchBoundary_joined s g a
    refine ⟨_, exec_batchStepBoundary hrun hg ha hissues, hstep, fun x hx hstays hmore => ?_, fun y hy => ?_⟩
    · rw [hmembers]
      exact List.mem_append_left l (State.mem_stepped.mpr ⟨x, hx, rfl, hstays, hmore⟩)
    · rw [hmembers, List.mem_append] at hy
      rcases hy with hy | hy
      · obtain ⟨x, hx, rfl, hstays, hmore⟩ := State.mem_stepped.mp hy
        exact ⟨hstays, .inr ⟨x, hx, rfl, hmore⟩⟩
      · obtain ⟨hstays, hsegment⟩ := hnew y hy
        exact ⟨hstays, .inl hsegment⟩

end Sys2Proof.Machine

/-! A running tile abandoned (07 R250, R251): what then stands of its engine, of its region's completions and of the counts of the
fault manager, whatever follows for the engine and the tile's job. -/

namespace Sys2Proof.Machine

/-- The counts of faults that an engine shows. -/
def Engine.faultCounts (e : Engine) : Nat × Nat × W64 × W64 := (e.parity, e.cellBits, e.abandons, e.tileFault)

/-- The tiles that wait to run again on an engine, and what is due to take it out of service. -/
def Engine.due (e : Engine) : List Running × Bool × Option Nat := (e.again, e.fencePending, e.rotateTo)

theorem Engine.faultCounts_eq_iff {e : Engine} {parity cellBits : Nat} {abandons tileFault : W64} :
    e.faultCounts = (parity, cellBits, abandons, tileFault)
      ↔ e.parity = parity ∧ e.cellBits = cellBits ∧ e.abandons = abandons ∧ e.tileFault = tileFault := by
  simp only [Engine.faultCounts, Prod.mk.injEq]

theorem Engine.due_eq_iff {e : Engine} {again : List Running} {pending : Bool} {entering : Option Nat} :
    e.due = (again, pending, entering) ↔ e.again = again ∧ e.fencePending = pending ∧ e.rotateTo = entering := by
  simp only [Engine.due, Prod.mk.injEq]

/-- What stands of engine `p`'s fault from `s` to `t`: an idle engine stays idle, and its counts, its region's completions, the
counts of the fault manager and the time are the same. -/
structure FaultStands (p : Nat) (s t : State) : Prop where
  idle : (s.engine p).running = none → (t.engine p).running = none
  counts : (t.engine p).faultCounts = (s.engine p).faultCounts
  corrected : t.flt.corrected = s.flt.corrected
  contained : t.flt.contained = s.flt.contained
  time : t.time = s.time
  completions : (t.region (regionOf p)).completions = (s.region (regionOf p)).completions

theorem State.engine_of_erase {m : Nat} {s t : State} (h : t.erase m = s.erase m) (hm : m.testBit 18 = false) (p : Nat) :
    t.engine p = s.engine p := by
  rw [State.engine, State.engine, State.engines_of_erase h hm]

theorem State.modEngine_keeps {β : Type} (v : Engine → β) (s : State) {q : Nat} {f : Engine → Engine} (h : ∀ e, v (f e) = v e)
    (p : Nat) : v ((s.modEngine q f).engine p) = v (s.engine p) := by
  rw [State.modEngine_get]
  split
  next heq => rw [heq, h]
  next => rfl

namespace FaultStands

variable {p : Nat} {s t u : State}

theorem refl (p : Nat) (s : State) : FaultStands p s s := ⟨id, rfl, rfl, rfl, rfl, rfl⟩

theorem trans (h : FaultStands p s t) (h' : FaultStands p t u) : FaultStands p s u :=
  ⟨h'.idle ∘ h.idle, h'.counts.trans h.counts, h'.corrected.trans h.corrected, h'.contained.trans h.contained,
    h'.time.trans h.time, h'.completions.trans h.completions⟩

theorem of_erase {m : Nat} (h : t.erase m = s.erase m) (hm : ∀ i ∈ [10, 18, 21, 28], m.testBit i = false) : FaultStands p s t := by
  have hengine := State.engine_of_erase h (hm 18 (by decide)) p
  have hflt := State.flt_of_erase h (hm 28 (by decide))
  exact ⟨fun hidle => hengine ▸ hidle, by rw [hengine], by rw [hflt], by rw [hflt], State.time_of_erase h (hm 10 (by decide)),
    by rw [State.region_of_erase h (hm 21 (by decide))]⟩

theorem modEngine (s : State) (q : Nat) {f : Engine → Engine} (hidle : ∀ e, e.running = none → (f e).running = none)
    (hcounts : ∀ e, (f e).faultCounts = e.faultCounts) : FaultStands p s (s.modEngine q f) := by
  refine ⟨fun h => ?_, State.modEngine_keeps _ s hcounts p, rfl, rfl, rfl, rfl⟩
  rw [State.modEngine_get]
  split
  next heq => exact hidle _ (heq ▸ h)
  next => exact h

theorem modRegion (s : State) (g : Nat) {f : Region → Region} (h : ∀ x, (f x).completions = x.completions) :
    FaultStands p s (s.modRegion g f) := by
  refine ⟨id, rfl, rfl, rfl, rfl, ?_⟩
  rw [State.modRegion_get]
  split
  next heq => rw [heq, h]
  next => rfl

/-! ## A fence, a rotation, a strike -/

theorem beginHandover (s : State) (p' q : Nat) : FaultStands p s (beginHandover s p' q) := by
  unfold Machine.beginHandover
  extract_lets e s1
  have hentered : FaultStands p s s1 := .modEngine s q (fun _ h => h) fun _ => rfl
  refine hentered.trans (.modEngine s1 p' ?_ ?_)
  · exact fun _ _ => rfl
  · exact fun _ => rfl

theorem dropAudits (s : State) (q : Nat) : FaultStands p s (dropAudits s q) := by
  unfold Machine.dropAudits
  extract_lets g next kept lost s1
  have hdropped : FaultStands p s s1 := .modRegion s g fun _ => rfl
  exact ⟨hdropped.idle, hdropped.counts, hdropped.corrected, hdropped.contained, hdropped.time, hdropped.completions⟩

theorem fenceEvent (s : State) (x : FltPl) (status type : Nat) : FaultStands p s (s.fenceEvent x status type) :=
  ⟨id, rfl, rfl, rfl, rfl, rfl⟩

theorem fenceEngine (s : State) (q source : Nat) : FaultStands p s (fenceEngine s q source) := by
  unfold Machine.fenceEngine
  extract_lets g e spare s1 s2 s3 s4
  have hleft : FaultStands p s s1 := by
    unfold s1
    clear_value spare
    cases spare with
    | none => exact .modEngine s q (fun _ _ => rfl) fun _ => rfl
    | some entering => exact .beginHandover s q entering
  have hfenced : FaultStands p s1 s2 := .modEngine s1 q (fun _ h => h) fun _ => rfl
  have hmarked (t : State) : FaultStands p t (markDegraded t g) := .modRegion t g fun _ => rfl
  have haudits : FaultStands p s2 s3 := (dropAudits s2 q).trans (hmarked _)
  have htold : FaultStands p s3 s4 :=
    ((fenceEvent s3 _ _ _).trans (.of_erase (missingEvals_erase _ _ (Nat.and_self _)) (by decide))).trans
      (.of_erase (checkAble_erase _ (Nat.and_self _)) (by decide))
  have hmap : FaultStands p s4 (writeUnitMap s4) := .of_erase (writeUnitMap_erase s4 (Nat.and_self _)) (by decide)
  exact ((((hleft.trans hfenced).trans haudits).trans htold).trans hmap).trans
    (.of_erase (capacityChanged_erase _ _ (Nat.and_self _)) (by decide))

theorem rotate (s : State) (p' q : Nat) : FaultStands p s (rotate s p' q) := by
  unfold Machine.rotate
  extract_lets s1 s2
  have hleft : FaultStands p s s2 := (beginHandover s p' q).trans (.modEngine s1 p' (fun _ h => h) fun _ => rfl)
  exact (hleft.trans (.of_erase (State.faultRecord_erase _ _ _ _ _ _ _ _ _ (Nat.and_self _)) (by decide))).trans
    (.of_erase (writeUnitMap_erase _ (Nat.and_self _)) (by decide))

theorem rotateIfDue (s : State) (q : Nat) : FaultStands p s (rotateIfDue s q) := by
  unfold Machine.rotateIfDue
  split
  · exact .refl p s
  · split
    · exact .refl p s
    · extract_lets s1 e
      have htaken : FaultStands p s s1 := .modEngine s q (fun _ h => h) fun _ => rfl
      split
      · exact htaken.trans (.rotate _ _ _)
      · exact htaken

theorem fenceIfDue (s : State) (q : Nat) : FaultStands p s (fenceIfDue s q) := by
  unfold Machine.fenceIfDue
  extract_lets e
  split
  · exact .fenceEngine _ _ _
  · exact .rotateIfDue _ _

theorem strike (s : State) (q source job tile : Nat) : FaultStands p s (strike s q source job tile) := by
  unfold Machine.strike
  extract_lets e held s1 s2
  split
  · exact .refl p s
  · have hstruck : FaultStands p s s1 := .modEngine s q (fun _ h => h) fun _ => rfl
    have htold : FaultStands p s1 s2 := .of_erase (State.emit_erase _ _ (Nat.and_self _)) (by decide)
    exact (hstruck.trans htold).trans (.fenceIfDue _ _)

end FaultStands

/-- An engine that no fence and no rotation is due for stays as it is. -/
theorem fenceIfDue_of_none {s : State} {p : Nat} (hfence : (s.engine p).fencePending = false)
    (hrotate : (s.engine p).rotateTo = none) : fenceIfDue s p = s := by
  simp [fenceIfDue, rotateIfDue, hfence, hrotate]

/-! ## A job that fails (08 R275) -/

/-- What the change of slices on an engine leaves as it is. -/
def IgnoresSlice {β : Type} (v : Engine → β) : Prop :=
  ∀ e slice sliceNo idleSince, v { e with slice := slice, sliceNo := sliceNo, idleSince := idleSince } = v e

namespace IgnoresSlice

variable {β : Type} {v : Engine → β} (hv : IgnoresSlice v) (s : State) (p : Nat)
include hv

theorem enterSlice (q : Nat) : v ((enterSlice s q).engine p) = v (s.engine p) := by
  unfold Machine.enterSlice
  extract_lets r e
  split
  · rfl
  · split
    · rfl
    · exact State.modEngine_keeps v s (fun e => hv e _ _ _) p

theorem leaveSlice (q : Nat) : v ((leaveSlice s q).engine p) = v (s.engine p) :=
  (hv.enterSlice _ p q).trans (State.modEngine_keeps v s (fun e => hv e none e.sliceNo e.idleSince) p)

theorem endSlicesWithout (g a : Nat) : v ((endSlicesWithout s g a).engine p) = v (s.engine p) := by
  unfold Machine.endSlicesWithout
  split
  · rfl
  · refine foldl_keeps (fun x => v (x.engine p)) (fun x q => ?_) _ s
    split
    · exact hv.leaveSlice x p q
    · rfl

theorem jobFail (q : Nat) (t : TileIssue) (slot status reason tile : Nat) :
    v ((jobFail s q t slot status reason tile).engine p) = v (s.engine p) := by
  unfold Machine.jobFail
  split
  · rfl
  · split
    · rw [State.engine_of_erase (restartJob_erase _ _ (Nat.and_self _)) rfl]
    · split
      · rw [State.engine_of_erase (restartStream_erase _ _ (Nat.and_self _)) rfl]
      · rw [hv.endSlicesWithout]
        exact foldl_keeps (fun a => v (a.engine p))
          (fun a m => by rw [State.engine_of_erase (removeMember_erase _ _ _ _ _ _ (Nat.and_self _)) rfl]) _ s

end IgnoresSlice

theorem jobFail_due (s : State) (p q : Nat) (t : TileIssue) (slot status reason tile : Nat) :
    ((jobFail s q t slot status reason tile).engine p).due = (s.engine p).due :=
  IgnoresSlice.jobFail (v := Engine.due) (fun _ _ _ _ => rfl) s p q t slot status reason tile

theorem dropDmas_due (s : State) (p q job tile : Nat) : ((dropDmas s q job tile).engine p).due = (s.engine p).due := by
  unfold dropDmas
  refine State.modEngine_keeps Engine.due s ?_ p
  exact fun _ => rfl

namespace FaultStands

variable {p : Nat}

theorem jobFail (s : State) (q : Nat) (t : TileIssue) (slot status reason tile : Nat) :
    FaultStands p s (jobFail s q t slot status reason tile) := by
  have herase := jobFail_erase s q t slot status reason tile (Nat.and_self _)
  have hflt := State.flt_of_erase herase rfl
  refine ⟨fun hidle => ?_, IgnoresSlice.jobFail (v := Engine.faultCounts) (fun _ _ _ _ => rfl) s p q t slot status reason tile,
    by rw [hflt], by rw [hflt], State.time_of_erase herase rfl, by rw [State.region_of_erase herase rfl]⟩
  rw [IgnoresSlice.jobFail (v := Engine.running) (fun _ _ _ _ => rfl) s p q t slot status reason tile, hidle]

theorem dropDmas (s : State) (q job tile : Nat) : FaultStands p s (dropDmas s q job tile) :=
  .modEngine s q (fun _ h => h) fun _ => rfl

theorem abandonMember (s : State) (q : Nat) (r : Running) (slot status reason : Nat) :
    FaultStands p s (abandonMember s q r slot status reason) := by
  unfold Machine.abandonMember
  extract_lets c
  split
  · refine (modEngine s q ?_ ?_).trans (.jobFail _ _ _ _ _ _ _)
    · exact fun _ h => h
    · exact fun _ => rfl
  · exact (dropDmas s q _ _).trans (.jobFail _ _ _ _ _ _ _)

end FaultStands

/-! ## The tile abandoned (07 R250) -/

@[simp] theorem State.contained_engine (s : State) (x : FltPl) (status stream tick account type p : Nat) :
    (s.contained x status stream tick account type).engine p = s.engine p := rfl

@[simp] theorem State.trace_engine (s : State) (cls inst code : Nat) (data : List Byte) (p : Nat) :
    (s.trace cls inst code data).engine p = s.engine p :=
  State.engine_of_erase (State.trace_erase s cls inst code data (Nat.and_self _)) rfl p

@[simp] theorem voidWrites_engine (s : State) (x : TileEnv) (ws : List (Nat × Int × List Byte)) (p : Nat) :
    (voidWrites s x ws).engine p = s.engine p :=
  State.engine_of_erase (voidWrites_erase s x ws (Nat.and_self _)) rfl p

@[simp] theorem complete_engine (s : State) (q : Nat) (x : Completion) (p : Nat) : (complete s q x).engine p = s.engine p := rfl

@[simp] theorem complete_completions (s : State) (p : Nat) (x : Completion) :
    ((complete s p x).region (regionOf p)).completions = (s.region (regionOf p)).completions ++ [x] := by
  rw [complete, State.modRegion_get, if_pos rfl]

@[simp] theorem chargeDev_engine (s : State) (i q n p : Nat) : (chargeDev s i q n).engine p = s.engine p := rfl
@[simp] theorem chargeDev_region (s : State) (i q n g : Nat) : (chargeDev s i q n).region g = s.region g := rfl

theorem abandonWith_flt (s : State) (p cause status cycles : Nat) (ws : List (Nat × Int × List Byte)) :
    (abandonWith s p cause status cycles ws).flt = s.flt :=
  State.flt_of_erase (abandonWith_erase s p cause status cycles ws (Nat.and_self _)) rfl

theorem abandonTile_flt (s : State) (p cause status cycles watchdogs : Nat) :
    (abandonTile s p cause status cycles watchdogs).flt = s.flt :=
  State.flt_of_erase (abandonTile_erase s p cause status cycles watchdogs (Nat.and_self _)) rfl

theorem abandonTile_time (s : State) (p cause status cycles watchdogs : Nat) :
    (abandonTile s p cause status cycles watchdogs).time = s.time :=
  State.time_of_erase (abandonTile_erase s p cause status cycles watchdogs (Nat.and_self _)) rfl

section
variable {s : State} {p : Nat} {r : Running} (hcur : (s.engine p).running = some r) (cause status cycles : Nat)
  (ws : List (Nat × Int × List Byte))
include hcur

/-- The engine runs nothing and counts the tile; what waited on it waits on. -/
theorem abandonWith_engine :
    ((abandonWith s p cause status cycles ws).engine p).running = none
      ∧ ((abandonWith s p cause status cycles ws).engine p).faultCounts
        = ((s.engine p).parity, (s.engine p).cellBits, (s.engine p).abandons + 1, (s.engine p).tileFault)
      ∧ ((abandonWith s p cause status cycles ws).engine p).due = (s.engine p).due := by
  simp [abandonWith, hcur, Engine.faultCounts, Engine.due]

/-- 08 R289: its completion says why. -/
theorem abandonWith_completions : ∃ c ∈ ((abandonWith s p cause status cycles ws).region (regionOf p)).completions,
    c.status = status ∧ c.cause = cause ∧ c.tile = (parseTile r.issue.cmd).tile := by
  simp only [abandonWith, hcur, chargeDev_region, complete_completions]
  exact ⟨_, List.mem_append_right _ (List.mem_singleton_self _), rfl, rfl, rfl⟩

/-- 07 R251: the tile waits to run again. -/
theorem abandonTile_engine (watchdogs : Nat) :
    ((abandonTile s p cause status cycles watchdogs).engine p).running = none
      ∧ ((abandonTile s p cause status cycles watchdogs).engine p).faultCounts
        = ((s.engine p).parity, (s.engine p).cellBits, (s.engine p).abandons + 1, (s.engine p).tileFault)
      ∧ ((abandonTile s p cause status cycles watchdogs).engine p).due
        = ((s.engine p).again ++ [{ r with watchdogs := r.watchdogs + watchdogs }], (s.engine p).fencePending,
          (s.engine p).rotateTo) := by
  simp only [abandonTile, hcur]
  obtain ⟨hidle, hcounts, hdue⟩ := abandonWith_engine (s := s.nextFree) hcur cause status cycles (writesSoFar s p)
  obtain ⟨hagain, hpending, hto⟩ := Engine.due_eq_iff.mp hdue
  rw [State.modEngine_get, if_pos rfl]
  exact ⟨hidle, hcounts, Engine.due_eq_iff.mpr ⟨congrArg (· ++ _) hagain, hpending, hto⟩⟩

end

/-! ## The commands -/

/-- Engine `p` after a parity error: the error counted and the tile abandoned, to run again. -/
def parityAbandoned (s : State) (p cell : Nat) (r : Running) : State :=
  let counted := s.modEngine p fun y => { y with
    parity := min 255 (y.parity + 1), cellBits := y.cellBits ||| 2 ^ (cell % 8), lastParity := some s.time.elapsed }
  abandonTile (counted.corrected srcOperand p) p 1 stAUDIT (cyclesSince s p r) 0

/-- Engine `p` after an access outside its descriptors: the tile abandoned, the access shown and contained. -/
def accessAbandoned (s : State) (p : Nat) (r : Running) (d : TileDone) (f : TileFault) : State :=
  let c := parseTile r.issue.cmd
  let stopped := abandonWith s p 3 f.status (cyclesSince s p r) d.flow.writes
  (stopped.modEngine p fun y => { y with tileFault := tileFaultWord c f }).contained
    { source := srcDescriptor, unit := p, job := c.job, tile := c.tile } f.status
    (stream := if isZone r.issue || r.issue.adaptation then 0xFFFF else r.issue.stream) (account := r.issue.account)

/-- The moment a tile's watchdog expires. -/
def State.atWatchdog (s : State) (p : Nat) (r : Running) : State := s.atElapsed (r.start + nsOf (s.engine p).ratio 30000)

/-- Engine `p` after a second watchdog expiry of its tile: the tile abandoned, its transfers dropped, the error contained. -/
def watchdogAbandoned (s : State) (p : Nat) (r : Running) : State :=
  let c := parseTile r.issue.cmd
  let due := s.atWatchdog p r
  (dropDmas (abandonWith due.nextFree p 7 stBUDGET 30000 (writesSoFar due p)) p c.job c.tile).contained
    { source := srcTileWatchdog, unit := p, job := c.job, tile := c.tile } stBUDGET
    (stream := if isZone r.issue || r.issue.adaptation then 0xFFFF else r.issue.stream) (account := r.issue.account)

section
variable {s : State} {p : Nat} {r : Running} (hcur : (s.engine p).running = some r)
include hcur

/-- 07 R251: no block enters that a parity error could strike. -/
theorem exec_operandParityError_of_unchecked (cell : Nat) (hcheck : (s.engine p).pipe.checksParity (s.planOf p r.issue) = false) :
    exec (.operandParityError p cell) s = .next s := by
  change execOperandParityError p cell s = _
  simp only [execOperandParityError, done, hcur, hcheck, Bool.not_false, Bool.or_true, if_true]

variable (hrun : s.running = true)
include hrun

/-- A strike or what is due for the engine follows; with no error before it there is no strike. -/
theorem exec_operandParityError (cell : Nat) (hcheck : (s.engine p).pipe.checksParity (s.planOf p r.issue) = true) :
    ∃ t, exec (.operandParityError p cell) s = .next t ∧ FaultStands p (parityAbandoned s p cell r) t
      ∧ ((s.engine p).lastParity = none → t = fenceIfDue (parityAbandoned s p cell r) p) := by
  change ∃ t, execOperandParityError p cell s = .next t ∧ _
  simp only [execOperandParityError, done, hcur, hrun, hcheck, Bool.not_true, Bool.or_self, Bool.false_eq_true, if_false]
  have hfollows (u : State) (soon : Bool) (job tile : Nat) :
      FaultStands p u (if soon then strike u p srcOperand job tile else fenceIfDue u p) := by
    cases soon with
    | false => exact .fenceIfDue u p
    | true => exact .strike u p srcOperand job tile
  refine ⟨_, rfl, hfollows _ _ _ _, fun hfirst => ?_⟩
  rw [hfirst]
  rfl

theorem exec_descriptorAccessFault {d : TileDone} {f : TileFault} (hattempt : (s.tileEnv p r.issue).attempt = (d, some f))
    (haccess : f.void = false) :
    ∃ t, exec (.descriptorAccessFault p) s = .next t ∧ FaultStands p (accessAbandoned s p r d f) t := by
  change ∃ t, execDescriptorAccessFault p s = .next t ∧ _
  simp only [execDescriptorAccessFault, done, hcur, hrun, hattempt, haccess, Bool.false_eq_true, if_false]
  exact ⟨_, rfl, (FaultStands.abandonMember (accessAbandoned s p r d f) p r _ _ _).trans (.fenceIfDue _ _)⟩

theorem exec_voidOperand {d : TileDone} {f : TileFault} (hattempt : (s.tileEnv p r.issue).attempt = (d, some f))
    (hvoid : f.void = true) :
    ∃ t, exec (.voidOperand p) s = .next t
      ∧ FaultStands p (abandonWith s p 4 stVOID (cyclesSince s p r) d.flow.writes) t := by
  change ∃ t, execVoidOperand p s = .next t ∧ _
  simp only [execVoidOperand, done, hcur, hrun, hattempt, hvoid, Bool.not_true, Bool.false_eq_true, if_false]
  exact ⟨_, rfl, (FaultStands.abandonMember _ p r _ _ _).trans (.fenceIfDue _ _)⟩

theorem exec_tileWatchdogExpiry_of_first (hfirst : r.watchdogs = 0) : exec (.tileWatchdogExpiry p) s
    = .next (fenceIfDue (abandonTile ((s.atWatchdog p r).corrected srcTileWatchdog p) p 7 stBUDGET 30000 1) p) := by
  change execTileWatchdogExpiry p s = _
  simp only [execTileWatchdogExpiry, done, hcur, hrun, hfirst, Bool.not_true, Bool.false_eq_true, if_false, if_true]
  rfl

theorem exec_tileWatchdogExpiry_of_second (hsecond : r.watchdogs ≠ 0) : exec (.tileWatchdogExpiry p) s
    = .next (fenceIfDue (jobFail (watchdogAbandoned s p r) p r.issue (parseTile r.issue.cmd).member stBUDGET 4
      (parseTile r.issue.cmd).tile) p) := by
  change execTileWatchdogExpiry p s = _
  simp only [execTileWatchdogExpiry, done, hcur, hrun, hsecond, Bool.not_true, Bool.false_eq_true, if_false]
  rfl

end

/-! ## What the abandoned tile leaves -/

section
variable {s : State} {p : Nat} {r : Running} (hcur : (s.engine p).running = some r)
include hcur

theorem parityAbandoned_engine (cell : Nat) : ((parityAbandoned s p cell r).engine p).running = none
    ∧ ((parityAbandoned s p cell r).engine p).faultCounts
      = (min 255 ((s.engine p).parity + 1), (s.engine p).cellBits ||| 2 ^ (cell % 8), (s.engine p).abandons + 1, (s.engine p).tileFault)
    ∧ ((parityAbandoned s p cell r).engine p).due
      = ((s.engine p).again ++ [r], (s.engine p).fencePending, (s.engine p).rotateTo) := by
  unfold parityAbandoned
  extract_lets counted
  have hcounted : (counted.corrected srcOperand p).engine p = { s.engine p with
      parity := min 255 ((s.engine p).parity + 1), cellBits := (s.engine p).cellBits ||| 2 ^ (cell % 8),
      lastParity := some s.time.elapsed } := by
    rw [State.corrected_engine, State.modEngine_get, if_pos rfl]
  have hagain := abandonTile_engine (s := counted.corrected srcOperand p) (r := r) (by rw [hcounted]; exact hcur) 1 stAUDIT
    (cyclesSince s p r) 0
  rw [hcounted] at hagain
  exact hagain

theorem accessAbandoned_engine (d : TileDone) (f : TileFault) : ((accessAbandoned s p r d f).engine p).running = none
    ∧ ((accessAbandoned s p r d f).engine p).faultCounts
      = ((s.engine p).parity, (s.engine p).cellBits, (s.engine p).abandons + 1, tileFaultWord (parseTile r.issue.cmd) f) := by
  obtain ⟨hidle, hcounts, -⟩ := abandonWith_engine hcur 3 f.status (cyclesSince s p r) d.flow.writes
  obtain ⟨hparity, hcells, habandons, -⟩ := Engine.faultCounts_eq_iff.mp hcounts
  rw [accessAbandoned, State.contained_engine, State.modEngine_get, if_pos rfl]
  exact ⟨hidle, Engine.faultCounts_eq_iff.mpr ⟨hparity, hcells, habandons, rfl⟩⟩

theorem accessAbandoned_completions (d : TileDone) (f : TileFault) :
    ∃ c ∈ ((accessAbandoned s p r d f).region (regionOf p)).completions,
      c.status = f.status ∧ c.cause = 3 ∧ c.tile = (parseTile r.issue.cmd).tile := by
  rw [accessAbandoned, State.contained_region, State.modEngine_region]
  exact abandonWith_completions hcur 3 f.status (cyclesSince s p r) d.flow.writes

theorem watchdogAbandoned_engine : ((watchdogAbandoned s p r).engine p).running = none
    ∧ ((watchdogAbandoned s p r).engine p).due = (s.engine p).due := by
  have hdue : (s.atWatchdog p r).nextFree.engine p = s.engine p := State.atElapsed_engine s _ p
  obtain ⟨hidle, -, hwaits⟩ := abandonWith_engine (hdue ▸ hcur) 7 stBUDGET 30000 (writesSoFar (s.atWatchdog p r) p)
  rw [hdue] at hwaits
  rw [watchdogAbandoned, State.contained_engine]
  exact ⟨(FaultStands.dropDmas _ p _ _).idle hidle, (dropDmas_due _ p p _ _).trans hwaits⟩

end

section
variable (s : State) (p : Nat) (r : Running)

theorem parityAbandoned_corrected (cell : Nat) : (parityAbandoned s p cell r).flt.corrected = s.flt.corrected + 1 := by
  rw [parityAbandoned, abandonTile_flt, State.corrected_flt_corrected, State.modEngine_flt]

theorem accessAbandoned_contained (d : TileDone) (f : TileFault) :
    (accessAbandoned s p r d f).flt.contained = s.flt.contained + 1 := by
  rw [accessAbandoned, State.contained_flt, State.modEngine_flt, abandonWith_flt]

theorem State.atWatchdog_flt : (s.atWatchdog p r).flt = s.flt := State.flt_of_erase (s.atElapsed_erase _ (Nat.and_self _)) rfl

theorem watchdogAbandoned_contained : (watchdogAbandoned s p r).flt.contained = s.flt.contained + 1 := by
  rw [watchdogAbandoned, State.contained_flt, State.flt_of_erase (dropDmas_erase _ _ _ _ (Nat.and_self _)) rfl, abandonWith_flt,
    State.nextFree_flt, State.atWatchdog_flt]

end

/-! ## The scrub (07 R243, R246) -/

theorem mem_insertGranule_self (g : Nat) (l : List Nat) : g ∈ insertGranule g l := by
  induction l with
  | nil => simp [insertGranule]
  | cons h l ih =>
    unfold insertGranule
    split
    · exact List.mem_cons_self
    · split
      next heq => exact heq ▸ List.mem_cons_self
      next => exact List.mem_cons_of_mem h ih

theorem granulesOf_one (a : Nat) : granulesOf a 1 = [granule a] := by simp [granulesOf]

theorem State.anyVoid_congr {s t : State} (h : t.voids = s.voids) (a n : Nat) : t.anyVoid a n = s.anyVoid a n := by
  rw [State.anyVoid, State.anyVoid, h]

theorem voidRange_one_anyVoid (s : State) (a : Nat) : (s.voidRange a 1).anyVoid a 1 = true := by
  simp [State.anyVoid, State.voidRange, granulesOf_one, mem_insertGranule_self]

section
variable {s : State} {p a : Nat} (hans : s.answers = true) (hp : p < 72) (ha : a < engineSize)
include hans hp ha

theorem exec_engineScrub_clean : exec (.engineScrub p a .clean) s = .next s := by
  change execEngineScrub p a .clean s = _
  simp [execEngineScrub, done, hans, hp, ha]

theorem exec_engineScrub_single : exec (.engineScrub p a .single) s
    = .next ((s.modEngine p fun e => { e with memCe := e.memCe + 1 }).corrected srcMemSingle p) := by
  change execEngineScrub p a .single s = _
  simp [execEngineScrub, done, hans, hp, ha]

theorem exec_engineScrub_uncorrectable : exec (.engineScrub p a .uncorrectable) s
    = .next ((s.voidRange (engineBase p + a) 1).contained
      { source := srcMemDouble, unit := p, address := engineBase p + a } stVOID) := by
  change execEngineScrub p a .uncorrectable s = _
  simp [execEngineScrub, done, hans, hp, ha]

end

/-! ## Together -/

/-- Settles O33: what each fault leaves of its tile by `parityAbandoned_engine`, `accessAbandoned_engine`, `abandonWith_engine` and
`watchdogAbandoned_engine`, kept by `FaultStands` through the strike, fence or failing job that follows; a scrub by its rules. -/
theorem tilesAreAbandonedOnFaults : Obligations.TilesAreAbandonedOnFaults := by
  unfold Obligations.TilesAreAbandonedOnFaults
  refine ⟨fun s p cell r hrun hcur hcheck => ?parity, fun s p cell r hcur hcheck => ?unchecked,
    fun s p r d f hrun hcur hattempt haccess => ?access, fun s p r d f hrun hcur hattempt hvoid => ?void,
    fun s p r hrun hcur hfirst => ?first, fun s p r hrun hcur hsecond => ?second, fun s p a hans hp ha => ?scrub⟩
  case parity =>
    obtain ⟨t, hexec, hstands, hnone⟩ := exec_operandParityError hcur hrun cell hcheck
    obtain ⟨hidle, hcounts, hdue⟩ := parityAbandoned_engine hcur cell
    obtain ⟨hagain, hpending, hto⟩ := Engine.due_eq_iff.mp hdue
    obtain ⟨hparity, hcells, habandons, -⟩ := Engine.faultCounts_eq_iff.mp (hstands.counts.trans hcounts)
    refine ⟨t, hexec, hstands.idle hidle, hparity, hcells, habandons, hstands.corrected.trans (parityAbandoned_corrected s p r cell),
      fun hfence hrotate hlast => ?_⟩
    rw [hnone hlast, fenceIfDue_of_none (hpending.trans hfence) (hto.trans hrotate), hagain]
  case unchecked => exact exec_operandParityError_of_unchecked hcur cell hcheck
  case access =>
    obtain ⟨t, hexec, hstands⟩ := exec_descriptorAccessFault hcur hrun hattempt haccess
    obtain ⟨hidle, hcounts⟩ := accessAbandoned_engine hcur d f
    obtain ⟨-, -, habandons, hfault⟩ := Engine.faultCounts_eq_iff.mp (hstands.counts.trans hcounts)
    obtain ⟨c, hmem, hcompletion⟩ := accessAbandoned_completions hcur d f
    exact ⟨t, c, hexec, hstands.idle hidle, hfault, habandons, hstands.contained.trans (accessAbandoned_contained s p r d f),
      hstands.completions ▸ hmem, hcompletion⟩
  case void =>
    obtain ⟨t, hexec, hstands⟩ := exec_voidOperand hcur hrun hattempt hvoid
    obtain ⟨hidle, hcounts, -⟩ := abandonWith_engine hcur 4 stVOID (cyclesSince s p r) d.flow.writes
    obtain ⟨-, -, habandons, -⟩ := Engine.faultCounts_eq_iff.mp (hstands.counts.trans hcounts)
    obtain ⟨c, hmem, hcompletion⟩ := abandonWith_completions hcur 4 stVOID (cyclesSince s p r) d.flow.writes
    exact ⟨t, c, hexec, hstands.idle hidle, habandons, hstands.completions ▸ hmem, hcompletion⟩
  case first =>
    have hengine : ((s.atWatchdog p r).corrected srcTileWatchdog p).engine p = s.engine p :=
      (State.corrected_engine _ _ _ _ p).trans (State.atElapsed_engine s _ p)
    obtain ⟨hidle, -, hdue⟩ := abandonTile_engine (hengine ▸ hcur) 7 stBUDGET 30000 1
    rw [hengine, hfirst] at hdue
    obtain ⟨hagain, hpending, hto⟩ := Engine.due_eq_iff.mp hdue
    have hstands := FaultStands.fenceIfDue (p := p)
      (abandonTile ((s.atWatchdog p r).corrected srcTileWatchdog p) p 7 stBUDGET 30000 1) p
    refine ⟨_, exec_tileWatchdogExpiry_of_first hcur hrun hfirst, hstands.idle hidle, ?_, ?_, fun hfence hrotate => ?_⟩
    · rw [hstands.time, abandonTile_time, State.time_of_erase (State.corrected_erase _ _ _ _ (Nat.and_self _)) rfl, State.atWatchdog,
        State.atElapsed_elapsed (State.not_inReset_of_running hrun)]
    · rw [hstands.corrected, abandonTile_flt, State.corrected_flt_corrected, State.atWatchdog_flt]
    · rw [fenceIfDue_of_none (hpending.trans hfence) (hto.trans hrotate), hagain]
  case second =>
    obtain ⟨hidle, hdue⟩ := watchdogAbandoned_engine hcur
    have hfailed := FaultStands.jobFail (p := p) (watchdogAbandoned s p r) p r.issue (parseTile r.issue.cmd).member stBUDGET 4
      (parseTile r.issue.cmd).tile
    have hstands := hfailed.trans (.fenceIfDue _ p)
    obtain ⟨hagain, hpending, hto⟩ := Engine.due_eq_iff.mp ((jobFail_due _ p p _ _ _ _ _).trans hdue)
    refine ⟨_, exec_tileWatchdogExpiry_of_second hcur hrun hsecond, hstands.idle hidle,
      hstands.contained.trans (watchdogAbandoned_contained s p r), fun hfence hrotate => ?_⟩
    rw [fenceIfDue_of_none (hpending.trans hfence) (hto.trans hrotate), hagain]
  case scrub =>
    refine ⟨exec_engineScrub_clean hans hp ha, ⟨_, exec_engineScrub_single hans hp ha, ?_, ?_, ?_⟩,
      ⟨_, exec_engineScrub_uncorrectable hans hp ha, ?_, ?_, ?_⟩⟩
    · rw [State.corrected_engine, State.modEngine_get, if_pos rfl]
    · rw [State.corrected_flt_corrected, State.modEngine_flt]
    · rw [keeps_voids (State.corrected_erase _ _ _ _ (Nat.and_self _)) rfl, State.modEngine_voids]
    · rw [State.anyVoid_congr (keeps_voids (State.contained_erase _ _ _ _ _ _ _ (Nat.and_self _)) rfl), voidRange_one_anyVoid]
    · rw [State.contained_flt, State.flt_of_erase (State.voidRange_erase _ _ _ (Nat.and_self _)) rfl]
    · rw [State.engines_of_erase (State.contained_erase _ _ _ _ _ _ _ (Nat.and_self _)) rfl,
        State.engines_of_erase (State.voidRange_erase _ _ _ (Nat.and_self _)) rfl]

end Sys2Proof.Machine

/-! Stores one after another, and bytes written granule by granule (07 R244): what each place then reads, which granules are void, and
what stays as it was. -/

namespace Sys2Proof.Machine

/-! ## Stores one after another -/

/-- Every item of a list stored at its own address with its own mark, in order. -/
def State.storeEach {α : Type} (s : State) (addr : α → Nat) (bytes : α → List Byte) (mark : α → Bool) (l : List α) : State :=
  l.foldl (fun t w => t.store (addr w) (bytes w) (mark w)) s

section
variable {α : Type} (s : State) (addr : α → Nat) (bytes : α → List Byte) (mark : α → Bool)

theorem State.storeEach_cons (w : α) (l : List α) :
    s.storeEach addr bytes mark (w :: l) = (s.store (addr w) (bytes w) (mark w)).storeEach addr bytes mark l := rfl

theorem State.storeEach_erase (l : List α) {mk : Nat} (hk : 0x60000000000 &&& mk = 0x60000000000) :
    (s.storeEach addr bytes mark l).erase mk = s.erase mk :=
  erase_foldl (fun t w => t.store_erase (addr w) (bytes w) (mark w) hk) l s

theorem State.storeEach_mem (l : List α) :
    (s.storeEach addr bytes mark l).mem = l.foldl (fun m w => memWrite m (addr w) (bytes w)) s.mem := by
  induction l generalizing s with
  | nil => rfl
  | cons w l ih => rw [State.storeEach_cons, ih, State.store_mem, List.foldl_cons]

theorem State.storeEach_byte_outside {l : List α} {j : Nat} (h : ∀ w ∈ l, j < addr w ∨ addr w + (bytes w).length ≤ j) :
    (s.storeEach addr bytes mark l).byte j = s.byte j := by
  induction l generalizing s with
  | nil => rfl
  | cons w l ih =>
    rw [State.storeEach_cons, ih _ fun v hv => h v (List.mem_cons_of_mem w hv),
      State.store_byte_outside _ _ _ _ _ (h w List.mem_cons_self)]

/-- What nothing stored later meets is what is read. -/
theorem State.storeEach_byte_last {pre post : List α} {w : α}
    (h : ∀ v ∈ post, addr v + (bytes v).length ≤ addr w ∨ addr w + (bytes w).length ≤ addr v) {i : Nat} (hi : i < (bytes w).length) :
    (s.storeEach addr bytes mark (pre ++ w :: post)).byte (addr w + i) = (bytes w)[i] := by
  have hsplit : s.storeEach addr bytes mark (pre ++ w :: post)
      = ((s.storeEach addr bytes mark pre).store (addr w) (bytes w) (mark w)).storeEach addr bytes mark post := by
    rw [State.storeEach, List.foldl_append, List.foldl_cons]
    rfl
  rw [hsplit, State.storeEach_byte_outside, State.store_byte_inside _ _ _ _ _ hi]
  intro v hv
  have := h v hv
  omega

/-- Where every store agrees on a byte and one of them meets it, that byte is read. -/
theorem State.storeEach_byte_agreed {l : List α} {j : Nat} {b : Byte}
    (hagree : ∀ w ∈ l, ∀ i, (hi : i < (bytes w).length) → addr w + i = j → (bytes w)[i] = b)
    (hmeets : s.byte j = b ∨ ∃ w ∈ l, addr w ≤ j ∧ j < addr w + (bytes w).length) :
    (s.storeEach addr bytes mark l).byte j = b := by
  induction l generalizing s with
  | nil => exact hmeets.resolve_right fun ⟨_, hw, _⟩ => absurd hw List.not_mem_nil
  | cons w l ih =>
    refine ih _ (fun v hv => hagree v (List.mem_cons_of_mem w hv)) ?_
    by_cases hw : addr w ≤ j ∧ j < addr w + (bytes w).length
    · left
      have hj : addr w + (j - addr w) = j := by omega
      have hi : j - addr w < (bytes w).length := by omega
      rw [← hagree w List.mem_cons_self _ hi hj, ← State.store_byte_inside s (addr w) _ (bytes w) (mark w) hi, hj]
    · rw [State.store_byte_outside _ _ _ _ _ (by omega)]
      exact hmeets.imp_right fun ⟨v, hv, hmeet⟩ => ⟨v, (List.mem_cons.mp hv).resolve_left fun heq => hw (heq ▸ hmeet), hmeet⟩

end

/-! ## Granules -/

theorem mem_insertGranule {x g : Nat} {l : List Nat} : x ∈ insertGranule g l ↔ x = g ∨ x ∈ l := by
  induction l with
  | nil => simp [insertGranule]
  | cons h l ih =>
    unfold insertGranule
    split
    · simp
    · split
      next heq => simp [heq]
      next => simp [ih, or_left_comm]

theorem mem_foldl_insertGranule {x : Nat} {gs v : List Nat} :
    x ∈ gs.foldl (fun v g => insertGranule g v) v ↔ x ∈ gs ∨ x ∈ v := by
  induction gs generalizing v with
  | nil => simp
  | cons g gs ih => simp [ih, mem_insertGranule, or_assoc, or_left_comm]

theorem mem_granulesOf {g a n : Nat} : g ∈ granulesOf a n ↔ a < 64 * g + 64 ∧ 64 * g < a + n ∧ 0 < n := by
  unfold granulesOf granule
  split
  next hn => simp [hn]
  next hn =>
    simp only [List.mem_map, List.mem_range]
    constructor
    · rintro ⟨k, hk, rfl⟩
      omega
    · intro h
      exact ⟨g - a / 64, by omega, by omega⟩

theorem mem_wholeGranules {g a n : Nat} : g ∈ wholeGranules a n ↔ 0 < n ∧ a ≤ 64 * g ∧ 64 * g + 64 ≤ a + n := by
  simp only [wholeGranules, List.mem_filter, mem_granulesOf, Bool.and_eq_true, decide_eq_true_eq]
  omega

theorem State.mem_store_voids {s : State} {a : Nat} {bs : List Byte} {mark : Bool} {g : Nat} :
    g ∈ (s.store a bs mark).voids
      ↔ (mark = true ∧ g ∈ granulesOf a bs.length) ∨ (g ∈ s.voids ∧ g ∉ wholeGranules a bs.length) := by
  cases mark with
  | false => simp [State.store]
  | true => simp [State.store, mem_foldl_insertGranule]

theorem State.anyVoid_iff {s : State} {a n : Nat} : s.anyVoid a n = true ↔ ∃ g ∈ granulesOf a n, g ∈ s.voids := by
  simp [State.anyVoid]

/-- A piece of a range lies in one granule of it. -/
structure IsPiece (a n : Nat) (pc : Nat × Nat) : Prop where
  within : pc.1 + pc.2 ≤ n
  nonempty : 0 < pc.2
  granule : granule (a + pc.1 + pc.2 - 1) = granule (a + pc.1)

theorem mem_piecesOf {a n : Nat} {pc : Nat × Nat} :
    pc ∈ piecesOf a n ↔ ∃ g ∈ granulesOf a n, pc = (max a (64 * g) - a, min (a + n) (64 * g + 64) - max a (64 * g)) := by
  simp only [piecesOf, List.mem_map, eq_comm]

theorem isPiece_of_mem {a n : Nat} {pc : Nat × Nat} (h : pc ∈ piecesOf a n) : IsPiece a n pc := by
  obtain ⟨g, hg, rfl⟩ := mem_piecesOf.mp h
  rw [mem_granulesOf] at hg
  constructor <;> simp only [granule] <;> omega

/-- The pieces of a range cover it. -/
theorem piecesOf_cover {a n k : Nat} (h : k < n) : ∃ pc ∈ piecesOf a n, pc.1 ≤ k ∧ k < pc.1 + pc.2 := by
  refine ⟨_, mem_piecesOf.mpr ⟨granule (a + k), ?_, rfl⟩, ?_, ?_⟩
  · rw [mem_granulesOf, granule]
    omega
  · simp only [granule]
    omega
  · simp only [granule]
    omega

theorem length_pieceBytes {α : Type} {a : Nat} {bs : List α} {pc : Nat × Nat} (h : IsPiece a bs.length pc) :
    ((bs.drop pc.1).take pc.2).length = pc.2 := by
  rw [List.length_take, List.length_drop]
  have := h.within
  omega

/-! ## Void granules after stores (07 R244) -/

section
variable {α : Type} {addr : α → Nat} {bytes : α → List Byte} {mark : α → Bool} {g : Nat}

/-- A granule is void once a store marks it, where every store that covers it wholly does. -/
theorem State.storeEach_void {s : State} {l : List α} (hwhole : ∀ w ∈ l, g ∈ wholeGranules (addr w) (bytes w).length → mark w = true)
    (hmarked : g ∈ s.voids ∨ ∃ w ∈ l, mark w = true ∧ g ∈ granulesOf (addr w) (bytes w).length) :
    g ∈ (s.storeEach addr bytes mark l).voids := by
  induction l generalizing s with
  | nil => exact hmarked.resolve_right fun ⟨_, hw, _⟩ => absurd hw List.not_mem_nil
  | cons w l ih =>
    refine ih (fun v hv => hwhole v (List.mem_cons_of_mem w hv)) ?_
    rw [State.mem_store_voids]
    by_cases hw : mark w = true ∧ g ∈ granulesOf (addr w) (bytes w).length
    · exact .inl (.inl hw)
    · refine hmarked.imp (fun hg => .inr ⟨hg, fun hcovers => hw ?_⟩) fun ⟨v, hv, hvoid⟩ =>
        ⟨v, (List.mem_cons.mp hv).resolve_left fun heq => hw (heq ▸ hvoid), hvoid⟩
      exact ⟨hwhole w List.mem_cons_self hcovers, (List.mem_filter.mp hcovers).1⟩

/-- A granule is sound once a store covers it wholly, where no store marks it. -/
theorem State.storeEach_sound {s : State} {l : List α} (hunmarked : ∀ w ∈ l, g ∈ granulesOf (addr w) (bytes w).length → mark w = false)
    (hcovered : g ∉ s.voids ∨ ∃ w ∈ l, g ∈ wholeGranules (addr w) (bytes w).length) :
    g ∉ (s.storeEach addr bytes mark l).voids := by
  induction l generalizing s with
  | nil => exact hcovered.resolve_right fun ⟨_, hw, _⟩ => absurd hw List.not_mem_nil
  | cons w l ih =>
    refine ih (fun v hv => hunmarked v (List.mem_cons_of_mem w hv)) ?_
    have hunmarkedHere : ¬(mark w = true ∧ g ∈ granulesOf (addr w) (bytes w).length) := fun ⟨hmark, hg⟩ =>
      Bool.false_ne_true ((hunmarked w List.mem_cons_self hg).symm.trans hmark)
    rw [State.mem_store_voids]
    by_cases hw : g ∈ wholeGranules (addr w) (bytes w).length
    · exact .inl fun h => h.elim hunmarkedHere fun hkept => hkept.2 hw
    · exact hcovered.imp (fun hg h => h.elim hunmarkedHere fun hkept => hg hkept.1) fun ⟨v, hv, hcover⟩ =>
        ⟨v, (List.mem_cons.mp hv).resolve_left fun heq => hw (heq ▸ hcover), hcover⟩

end

/-! ## Bytes with their marks, granule by granule -/

theorem storeMarked_eq (s : State) (a : Nat) (bs : List Byte) (marks : List Bool) : storeMarked s a bs marks
    = s.storeEach (a + ·.1) (fun pc => (bs.drop pc.1).take pc.2) (fun pc => ((marks.drop pc.1).take pc.2).any id)
      (piecesOf a bs.length) := rfl

section
variable (s : State) (a : Nat) (bs : List Byte) (marks : List Bool)

theorem storeMarked_byte_outside {j : Nat} (h : j < a ∨ a + bs.length ≤ j) : (storeMarked s a bs marks).byte j = s.byte j := by
  rw [storeMarked_eq]
  refine State.storeEach_byte_outside _ _ _ _ fun pc hpc => ?_
  have hpiece := isPiece_of_mem hpc
  have := hpiece.within
  rw [length_pieceBytes hpiece]
  omega

theorem storeMarked_byte_inside {i : Nat} (hi : i < bs.length) : (storeMarked s a bs marks).byte (a + i) = bs[i] := by
  rw [storeMarked_eq]
  refine State.storeEach_byte_agreed _ _ _ _ (fun pc _ k hk hj => ?_) (.inr ?_)
  · obtain rfl : i = pc.1 + k := by omega
    rw [List.getElem_take, List.getElem_drop]
  · obtain ⟨pc, hpc, hlo, hhi⟩ := piecesOf_cover (a := a) hi
    refine ⟨pc, hpc, ?_, ?_⟩
    · omega
    · rw [length_pieceBytes (isPiece_of_mem hpc)]
      omega

variable {marks}

/-- The mark of one byte of a part is a mark of the part. -/
theorem any_part_of_marked {o n i : Nat} (hmark : marks[i]? = some true) (hlo : o ≤ i) (hhi : i < o + n) :
    ((marks.drop o).take n).any id = true := by
  refine List.any_eq_true.mpr ⟨true, List.mem_iff_getElem?.mpr ⟨i - o, ?_⟩, rfl⟩
  rw [List.getElem?_take_of_lt (by omega), List.getElem?_drop, show o + (i - o) = i by omega, hmark]

theorem storeMarked_void {i : Nat} (hi : i < bs.length) (hmark : marks[i]? = some true) :
    granule (a + i) ∈ (storeMarked s a bs marks).voids := by
  rw [storeMarked_eq]
  refine State.storeEach_void (fun pc hpc hcovers => ?_) (.inr ?_)
  · rw [length_pieceBytes (isPiece_of_mem hpc), mem_wholeGranules, granule] at hcovers
    exact any_part_of_marked hmark (by omega) (by omega)
  · obtain ⟨pc, hpc, hlo, hhi⟩ := piecesOf_cover (a := a) hi
    refine ⟨pc, hpc, any_part_of_marked hmark hlo hhi, ?_⟩
    rw [length_pieceBytes (isPiece_of_mem hpc), mem_granulesOf, granule]
    omega

/-- Sound bytes over whole granules leave none of them void. -/
theorem storeMarked_sound (ha : a % 64 = 0) (hlen : bs.length % 64 = 0) (hmarks : ∀ m ∈ marks, m = false) {g : Nat}
    (hg : g ∈ granulesOf a bs.length) : g ∉ (storeMarked s a bs marks).voids := by
  rw [storeMarked_eq]
  refine State.storeEach_sound (fun pc _ _ => ?_) (.inr ⟨_, mem_piecesOf.mpr ⟨g, hg, rfl⟩, ?_⟩)
  · rw [List.any_eq_false]
    intro m hm
    simp [hmarks m (List.mem_of_mem_drop (List.mem_of_mem_take hm))]
  · rw [length_pieceBytes (isPiece_of_mem (mem_piecesOf.mpr ⟨g, hg, rfl⟩)), mem_wholeGranules]
    rw [mem_granulesOf] at hg
    omega

end

end Sys2Proof.Machine

/-! Halo groups, releases, parts and sends on their way between engines (08 R280 to R285, 09 R305). -/

namespace Sys2Proof.Machine

/-! ## What an engine that leaves service, or halts, keeps of its counts -/

/-- What an engine counts of its work: tiles committed, parts sent twice. -/
def Engine.workCounts (e : Engine) : W64 × Nat := (e.tiles, e.duplicates)

/-- Engine `p` counts the same work in both states. -/
def SameWork (p : Nat) (s t : State) : Prop := (t.engine p).workCounts = (s.engine p).workCounts

namespace SameWork

variable {p : Nat} {s t u : State}

theorem trans (h : SameWork p s t) (h' : SameWork p t u) : SameWork p s u := Eq.trans h' h

theorem tiles (h : SameWork p s t) : (t.engine p).tiles = (s.engine p).tiles := congrArg Prod.fst h

theorem duplicates (h : SameWork p s t) : (t.engine p).duplicates = (s.engine p).duplicates := congrArg Prod.snd h

theorem of_erase {m : Nat} (h : t.erase m = s.erase m) (hm : m.testBit 18 = false) : SameWork p s t :=
  congrArg Engine.workCounts (State.engine_of_erase h hm p)

theorem modEngine (s : State) (q : Nat) {f : Engine → Engine} (h : ∀ e, (f e).workCounts = e.workCounts) :
    SameWork p s (s.modEngine q f) := State.modEngine_keeps Engine.workCounts s h p

theorem beginHandover (s : State) (p' q : Nat) : SameWork p s (beginHandover s p' q) := by
  unfold Machine.beginHandover
  extract_lets e s1
  have hentered : SameWork p s s1 := .modEngine s q fun _ => rfl
  refine hentered.trans (.modEngine s1 p' ?_)
  exact fun _ => rfl

theorem fenceEngine (s : State) (q source : Nat) : SameWork p s (fenceEngine s q source) := by
  unfold Machine.fenceEngine
  extract_lets g e spare s1 s2 s3 s4
  have hleft : SameWork p s s1 := by
    unfold s1
    clear_value spare
    cases spare with
    | none => exact .modEngine s q fun _ => rfl
    | some entering => exact .beginHandover s q entering
  have hfenced : SameWork p s1 s2 := .modEngine s1 q fun _ => rfl
  have haudits : SameWork p s2 s3 := (SameWork.of_erase (dropAudits_erase s2 q (Nat.and_self _)) rfl).trans
    (.of_erase (markDegraded_erase _ g (Nat.and_self _)) rfl)
  have htold : SameWork p s3 s4 :=
    ((SameWork.of_erase (State.fenceEvent_erase s3 _ _ _ (Nat.and_self _)) rfl).trans
      (.of_erase (missingEvals_erase _ _ (Nat.and_self _)) rfl)).trans (.of_erase (checkAble_erase _ (Nat.and_self _)) rfl)
  exact (((hleft.trans hfenced).trans haudits).trans htold).trans
    ((SameWork.of_erase (writeUnitMap_erase s4 (Nat.and_self _)) rfl).trans (.of_erase (capacityChanged_erase _ _ (Nat.and_self _)) rfl))

theorem rotate (s : State) (p' q : Nat) : SameWork p s (rotate s p' q) := by
  unfold Machine.rotate
  extract_lets s1 s2
  have hleft : SameWork p s s2 := (beginHandover s p' q).trans (.modEngine s1 p' fun _ => rfl)
  exact (hleft.trans (.of_erase (State.faultRecord_erase _ _ _ _ _ _ _ _ _ (Nat.and_self _)) rfl)).trans
    (.of_erase (writeUnitMap_erase _ (Nat.and_self _)) rfl)

theorem rotateIfDue (s : State) (q : Nat) : SameWork p s (rotateIfDue s q) := by
  unfold Machine.rotateIfDue
  split
  · rfl
  · split
    · rfl
    · extract_lets s1 e
      have htaken : SameWork p s s1 := .modEngine s q fun _ => rfl
      split
      · exact htaken.trans (.rotate _ _ _)
      · exact htaken

theorem fenceIfDue (s : State) (q : Nat) : SameWork p s (fenceIfDue s q) := by
  unfold Machine.fenceIfDue
  extract_lets e
  split
  · exact .fenceEngine _ _ _
  · exact .rotateIfDue _ _

theorem strike (s : State) (q source job tile : Nat) : SameWork p s (strike s q source job tile) := by
  unfold Machine.strike
  extract_lets e held s1 s2
  split
  · rfl
  · have hstruck : SameWork p s s1 := .modEngine s q fun _ => rfl
    exact (hstruck.trans (.of_erase (State.emit_erase _ _ (Nat.and_self _)) rfl)).trans (.fenceIfDue _ _)

end SameWork

/-- 07 R253: a halt shows in the activity alone. -/
theorem settleHalt_keeps {β : Type} {v : Engine → β} (hv : ∀ e activity, v { e with activity := activity } = v e) (s : State) (q p : Nat) :
    v ((settleHalt s q).engine p) = v (s.engine p) := by
  unfold settleHalt
  split
  · rfl
  · exact State.modEngine_keeps v s (fun e => hv e _) p

theorem State.byte_of_erase {m : Nat} {s t : State} (h : t.erase m = s.erase m) (hm : m.testBit 41 = false) (a : Nat) :
    t.byte a = s.byte a := by rw [State.byte, State.byte, State.mem_of_erase h hm]

theorem settleHalt_byte (s : State) (p a : Nat) : (settleHalt s p).byte a = s.byte a :=
  State.byte_of_erase (settleHalt_erase s p (Nat.and_self _)) rfl a

/-! ## A group lands in its slot (08 R284) -/

/-- Where the slot of a group begins. -/
def slotStart (s : State) (d : Desc) (h : HaloMsg) : Nat := s.resolve d.base + (h.seq % d.groups) * d.slotBytes

theorem writeGroup_eq (s : State) (d : Desc) (h : HaloMsg) : writeGroup s d h
    = h.rows.zipIdx.foldl (fun t x => storeMarked t (slotStart s d h + x.2 * d.rowStride) x.1 (h.void.getD x.2 [])) s := rfl

theorem writeGroup_byte_outside (s : State) (d : Desc) (h : HaloMsg) {a : Nat}
    (houtside : ∀ x ∈ h.rows.zipIdx, a < slotStart s d h + x.2 * d.rowStride
      ∨ slotStart s d h + x.2 * d.rowStride + x.1.length ≤ a) : (writeGroup s d h).byte a = s.byte a := by
  rw [writeGroup_eq]
  exact List.foldlRecOn (motive := fun t => t.byte a = s.byte a) _ _ rfl fun t ht x hx =>
    (storeMarked_byte_outside t _ _ _ (houtside x hx)).trans ht

theorem writeGroup_byte_row (s : State) (d : Desc) {h : HaloMsg} {r : List Byte} (hrows : h.rows = [r]) {i : Nat} (hi : i < r.length) :
    (writeGroup s d h).byte (slotStart s d h + i) = r[i] := by
  rw [writeGroup_eq, hrows, List.zipIdx_singleton, List.foldl_cons, List.foldl_nil, Nat.zero_mul, Nat.add_zero,
    storeMarked_byte_inside _ _ _ _ hi]

/-- A group received: taken from those on their way, in its slot, its sequence and its ring shown by the port. -/
def groupLanded (s : State) (p port : Nat) (h : HaloMsg) (rest : List HaloMsg) (d : Desc) : State :=
  (writeGroup { s with halo := rest } d h).modEngine p fun y => { y with
    haloRx := y.haloRx.set port h.seq, haloRing := y.haloRing.set port h.ring }

theorem exec_haloGroupReceived {s : State} {p port : Nat} {h : HaloMsg} {rest : List HaloMsg} {d : Desc} (hrun : s.running = true)
    (hstate : (s.engine p).state = 0) (hown : (s.engine p).handoverFrom = none)
    (hgroup : takeGroup (s.engine p).logical port s.halo = some (h, rest)) (hring : ringDesc s p h.ring = some d)
    (hforward : forwardable s h d.groups = true) :
    exec (.haloGroupReceived p port) s = .next (groupLanded s p port h rest d) := by
  change execHaloGroupReceived p port s = _
  simp [execHaloGroupReceived, done, hrun, hstate, hown, hgroup, hring, hforward, groupLanded]

section
variable (s : State) (p port : Nat) (h : HaloMsg) (rest : List HaloMsg) (d : Desc)

theorem groupLanded_halo : (groupLanded s p port h rest d).halo = rest := by
  rw [groupLanded, State.modEngine_halo, keeps_halo (writeGroup_erase _ d h (Nat.and_self _)) rfl]

theorem groupLanded_engine : (groupLanded s p port h rest d).engine p = { s.engine p with
    haloRx := (s.engine p).haloRx.set port h.seq, haloRing := (s.engine p).haloRing.set port h.ring } := by
  rw [groupLanded, State.modEngine_get, if_pos rfl, State.engine_of_erase (writeGroup_erase _ d h (Nat.and_self _)) rfl]
  rfl

end

/-! ## A release reaches its sender (08 R285) -/

theorem exec_haloReleaseArrival {s : State} {p port n : Nat} {rest : List (Nat × Nat × Nat)} (hrun : s.running = true)
    (hrelease : takeRelease (s.engine p).logical port s.haloBack = some (n, rest)) :
    exec (.haloReleaseArrival p port) s
      = .next (({ s with haloBack := rest }).modEngine p fun y => { y with haloReleased := y.haloReleased.set port n }) := by
  change execHaloReleaseArrival p port s = _
  simp [execHaloReleaseArrival, done, hrun, hrelease]

/-! ## Pieces written into an engine (08 R282, 09 R305) -/

theorem writePieces_eq (s : State) (p : Nat) (pieces : List (Nat × List Byte × Bool)) :
    writePieces s p pieces = s.storeEach (engineBase p + ·.1) (·.2.1) (·.2.2) pieces := rfl

theorem writePieces_engine (s : State) (q : Nat) (pieces : List (Nat × List Byte × Bool)) (p : Nat) :
    (writePieces s q pieces).engine p = s.engine p := State.engine_of_erase (writePieces_erase s q pieces (Nat.and_self _)) rfl p

theorem writePieces_byte_outside (s : State) {q a : Nat} {pieces : List (Nat × List Byte × Bool)}
    (h : ∀ w ∈ pieces, a < engineBase q + w.1 ∨ engineBase q + w.1 + w.2.1.length ≤ a) :
    (writePieces s q pieces).byte a = s.byte a := State.storeEach_byte_outside s _ _ _ h

/-- The last piece that meets a place is what it holds. -/
theorem writePieces_byte_last (s : State) (q : Nat) {pieces pre post : List (Nat × List Byte × Bool)} {w : Nat × List Byte × Bool}
    (hsplit : pieces = pre ++ w :: post) (hlast : ∀ v ∈ post, v.1 + v.2.1.length ≤ w.1 ∨ w.1 + w.2.1.length ≤ v.1) {i : Nat}
    (hi : i < w.2.1.length) : (writePieces s q pieces).byte (engineBase q + w.1 + i) = w.2.1[i] := by
  subst hsplit
  rw [writePieces_eq]
  refine State.storeEach_byte_last (α := Nat × List Byte × Bool) s (engineBase q + ·.1) (·.2.1) (·.2.2) (fun v hv => ?_) hi
  have := hlast v hv
  omega

/-- A send taken from engine `p`'s list, which may then halt. -/
def sendTaken (s : State) (p : Nat) (rest : List SendOp) : State := settleHalt (s.modEngine p fun y => { y with sends := rest }) p

section
variable (s : State) (p : Nat) (rest : List SendOp)

theorem sendTaken_sends : ((sendTaken s p rest).engine p).sends = rest := by
  rw [sendTaken, settleHalt_keeps (v := Engine.sends) (fun _ _ => rfl), State.modEngine_get, if_pos rfl]

theorem sendTaken_duplicates (q : Nat) : ((sendTaken s p rest).engine q).duplicates = (s.engine q).duplicates := by
  rw [sendTaken, settleHalt_keeps (v := Engine.duplicates) (fun _ _ => rfl)]
  refine State.modEngine_keeps Engine.duplicates s ?_ q
  exact fun _ => rfl

theorem sendTaken_flt : (sendTaken s p rest).flt = s.flt := by
  rw [sendTaken, State.flt_of_erase (settleHalt_erase _ _ (Nat.and_self _)) rfl, State.modEngine_flt]

theorem sendTaken_byte (a : Nat) : (sendTaken s p rest).byte a = s.byte a := settleHalt_byte _ p a

end

/-! ## A part arrives (08 R282) -/

/-- A first arrival: the part is in its combine and its bytes are in the combiner. -/
def partJoined (s : State) (c p : Nat) (o : SendOp) (rest : List SendOp) (cs : List Combine) : State :=
  writePieces ((sendTaken s p rest).modEngine c fun y => { y with combines := cs }) c o.pieces

section
variable {s : State} {c p job tile part parts : Nat} (hrun : s.running = true) (hstate : (s.engine c).state = 0)
  (hown : (s.engine c).handoverFrom = none)
include hrun hstate hown

theorem exec_partArrival : exec (.partArrival c p job tile part parts) s = .next (partArrival s c p job tile part parts) := by
  change execPartArrival c p job tile part parts s = _
  simp [execPartArrival, done, hrun, hstate, hown]

theorem exec_partArrival_of_first {o : SendOp} {rest : List SendOp} {cs : List Combine}
    (hfirst : arrivedBefore (s.engine c).combines job tile part = false)
    (hsend : takeSend (fun o => o.part == some (job, tile, part, parts) && o.dest == (s.engine c).logical) (s.engine p).sends
      = some (o, rest))
    (hjoin : joinCombine (s.engine c).combines job tile part parts o.empty = some cs) :
    exec (.partArrival c p job tile part parts) s = .next (partJoined s c p o rest cs) := by
  rw [exec_partArrival hrun hstate hown]
  simp [partArrival, hfirst, hsend, hjoin, partJoined, sendTaken]

end

/-- The send of a part to a combiner, where it stands in its sender's list. -/
def partSend (s : State) (c p job tile part parts : Nat) : Option (SendOp × List SendOp) :=
  takeSend (fun o => o.part == some (job, tile, part, parts) && o.dest == (s.engine c).logical) (s.engine p).sends

/-- The send of a part taken from its sender's list. -/
def partTaken (s : State) (p : Nat) : Option (SendOp × List SendOp) → State
  | some (_, rest) => sendTaken s p rest
  | none => s

section
variable (s : State) (p : Nat) (sent : Option (SendOp × List SendOp))

theorem partTaken_duplicates : ((partTaken s p sent).engine p).duplicates = (s.engine p).duplicates := by
  cases sent with
  | none => rfl
  | some x => exact sendTaken_duplicates s p x.2 p

theorem partTaken_flt : (partTaken s p sent).flt = s.flt := by
  cases sent with
  | none => rfl
  | some x => exact sendTaken_flt s p x.2

theorem partTaken_byte (a : Nat) : (partTaken s p sent).byte a = s.byte a := by
  cases sent with
  | none => rfl
  | some x => exact sendTaken_byte s p x.2 a

/-- A second arrival: the part is discarded and counted as an error of its sender. -/
def partDiscarded : State :=
  ((partTaken s p sent).modEngine p fun y => { y with duplicates := y.duplicates + 1 }).corrected srcDuplicate p

theorem partDiscarded_duplicates : ((partDiscarded s p sent).engine p).duplicates = (s.engine p).duplicates + 1 := by
  rw [partDiscarded, State.corrected_engine, State.modEngine_get, if_pos rfl, partTaken_duplicates]

theorem partDiscarded_corrected : (partDiscarded s p sent).flt.corrected = s.flt.corrected + 1 := by
  rw [partDiscarded, State.corrected_flt_corrected, State.modEngine_flt, partTaken_flt]

theorem partDiscarded_byte (a : Nat) : (partDiscarded s p sent).byte a = s.byte a := by
  rw [partDiscarded, State.byte_of_erase (State.corrected_erase _ _ _ _ (Nat.and_self _)) rfl]
  exact partTaken_byte s p sent a

end

/-- A strike of the sender follows a second arrival. -/
theorem exec_partArrival_of_second {s : State} {c p job tile part parts : Nat} (hrun : s.running = true)
    (hstate : (s.engine c).state = 0) (hown : (s.engine c).handoverFrom = none)
    (hsecond : arrivedBefore (s.engine c).combines job tile part = true) :
    exec (.partArrival c p job tile part parts) s
      = .next (strike (partDiscarded s p (partSend s c p job tile part parts)) p srcDuplicate job tile) := by
  rw [exec_partArrival hrun hstate hown, partArrival, if_pos hsecond]
  rfl

section
variable (s : State) (c p : Nat) (o : SendOp) (rest : List SendOp) (cs : List Combine)

theorem partJoined_combines : ((partJoined s c p o rest cs).engine c).combines = cs := by
  rw [partJoined, writePieces_engine, State.modEngine_get, if_pos rfl]

theorem partJoined_sends : ((partJoined s c p o rest cs).engine p).sends = rest := by
  rw [partJoined, writePieces_engine]
  refine (State.modEngine_keeps Engine.sends (sendTaken s p rest) ?_ p).trans (sendTaken_sends s p rest)
  exact fun _ => rfl

end

/-! ## A send completes (09 R305) -/

theorem exec_sendComplete {s : State} {p q : Nat} {o : SendOp} {rest : List SendOp} (hrun : s.running = true)
    (hsend : takeSend (fun o => o.part.isNone && (receiver s o.dest).isSome) (s.engine p).sends = some (o, rest))
    (hdest : receiver s o.dest = some q) : exec (.sendComplete p) s
      = .next (settleHalt (writePieces (s.modEngine p fun e => { e with sends := rest }) q o.pieces) p) := by
  change execSendComplete p s = _
  simp [execSendComplete, done, hrun, hsend, hdest]

/-! ## Together -/

/-- Settles O35: a group by `writeGroup_byte_row` and `writeGroup_byte_outside`, a first arrival and a send by the rules of
`writePieces`, a second arrival by `partDiscarded` and what a strike leaves. -/
theorem haloGroupsPartsAndSendsTravel : Obligations.HaloGroupsPartsAndSendsTravel := by
  unfold Obligations.HaloGroupsPartsAndSendsTravel
  refine ⟨⟨fun s p port h rest d hrun hstate hown hgroup hring hforward => ?group, fun s p port n rest hrun hrelease => ?release⟩,
    fun s c p job tile part parts o rest cs hrun hstate hown hfirst hsend hjoin => ?first,
    fun s c p job tile part parts hrun hstate hown hsecond => ?second, fun s p q o rest hrun hsend hdest => ?send⟩
  case group =>
    have hengine := groupLanded_engine s p port h rest d
    refine ⟨_, exec_haloGroupReceived hrun hstate hown hgroup hring hforward, groupLanded_halo s p port h rest d,
      by rw [hengine], by rw [hengine], fun r i hrows hi => ?_, fun a houtside => ?_⟩
    · exact writeGroup_byte_row { s with halo := rest } d hrows hi
    · exact writeGroup_byte_outside { s with halo := rest } d h houtside
  case release =>
    refine ⟨_, exec_haloReleaseArrival hrun hrelease, rfl, ?_⟩
    rw [State.modEngine_get, if_pos rfl]
    rfl
  case first =>
    refine ⟨_, exec_partArrival_of_first hrun hstate hown hfirst hsend hjoin, partJoined_combines s c p o rest cs,
      partJoined_sends s c p o rest cs, fun pre w post hsplit hlast i hi => writePieces_byte_last _ c hsplit hlast hi, fun a houtside => ?_⟩
    rw [partJoined, writePieces_byte_outside _ houtside]
    exact sendTaken_byte s p rest a
  case second =>
    refine ⟨_, exec_partArrival_of_second hrun hstate hown hsecond,
      (SameWork.strike _ p _ job tile).duplicates.trans (partDiscarded_duplicates s p _),
      (FaultStands.strike (p := p) _ p _ job tile).corrected.trans (partDiscarded_corrected s p _), fun a => ?_⟩
    rw [State.byte_of_erase (strike_erase _ _ _ _ _ (Nat.and_self _)) rfl, partDiscarded_byte]
  case send =>
    refine ⟨_, exec_sendComplete hrun hsend hdest, ?_, fun pre w post hsplit hlast i hi => ?_, fun a houtside => ?_⟩
    · rw [settleHalt_keeps (v := Engine.sends) (fun _ _ => rfl), writePieces_engine, State.modEngine_get, if_pos rfl]
    · rw [settleHalt_byte, writePieces_byte_last _ q hsplit hlast hi]
    · rw [settleHalt_byte, writePieces_byte_outside _ houtside]
      rfl

end Sys2Proof.Machine

/-! Transfers of the DMA unit (08 R265, 07 R244, R248, 16 R477): where a piece of a row lands, what a row in DRAM leaves, and the
commands. -/

namespace Sys2Proof.Machine

/-! ## The address map, granule by granule (16 R476) -/

/-- The rows of the address map, and the windows in them, begin and end at granules. -/
theorem placeOf_of_granule {a b : Nat} (h : granule b = granule a) : placeOf b = placeOf a := by
  unfold granule at h
  have hrow (lo hi : Nat) (hlo : 64 ∣ lo) (hhi : 64 ∣ hi) : lo ≤ b ∧ b < hi ↔ lo ≤ a ∧ a < hi := by
    obtain ⟨m, rfl⟩ := hlo
    obtain ⟨n, rfl⟩ := hhi
    omega
  have hwindow (base size : Nat) (hbase : 64 ∣ base) (hsize : 64 ∣ size) : (b - base) / size = (a - base) / size := by
    obtain ⟨m, rfl⟩ := hbase
    obtain ⟨n, rfl⟩ := hsize
    rw [← Nat.div_div_eq_div_mul, ← Nat.div_div_eq_div_mul, Nat.sub_mul_div, Nat.sub_mul_div, h]
  have hdram : b < dramEnd ↔ a < dramEnd := by
    unfold dramEnd
    omega
  exact if_congr hdram rfl
    (if_congr (hrow _ _ (by decide) (by decide)) (congrArg Place.region (hwindow _ _ (by decide) (by decide)))
    (if_congr (hrow _ _ (by decide) (by decide)) (congrArg Place.engine (hwindow _ _ (by decide) (by decide)))
    (if_congr (hrow _ _ (by decide) (by decide)) (congrArg Place.logical (hwindow _ _ (by decide) (by decide)))
    (if_congr (hrow _ _ (by decide) (by decide)) rfl (if_congr (hrow _ _ (by decide) (by decide)) rfl rfl)))))

theorem logicalBase_le {a l : Nat} (h : placeOf a = .logical l) : logicalBase l ≤ a := by
  unfold placeOf at h
  split_ifs at h
  obtain rfl := Place.logical.inj h
  unfold logicalBase
  omega

theorem hostBase_le {a : Nat} (h : placeOf a = .host) : hostBase ≤ a := by
  unfold placeOf at h
  split_ifs at h
  unfold hostBase
  omega

theorem placeOf_of_lt_dramEnd {a : Nat} (h : a < dramEnd) : placeOf a = .dram := if_pos h

theorem inDram_le {a n : Nat} (h : inDram a n = true) : a + n ≤ dramEnd := of_decide_eq_true h

theorem mapped_of_inDram {a n : Nat} (h : inDram a n = true) : mapped a n = true := by simp [mapped, inDeviceMemory, h]

/-- A row within DRAM begins in no engine's window, not even a row of no bytes at its end. -/
theorem placeOf_ne_logical_of_inDram {a n : Nat} (h : inDram a n = true) (l : Nat) : placeOf a ≠ .logical l := by
  have hle := inDram_le h
  rcases Nat.lt_or_ge a dramEnd with hlt | hge
  · rw [placeOf_of_lt_dramEnd hlt]
    exact Place.noConfusion
  · obtain rfl : a = dramEnd := by omega
    have hend : placeOf dramEnd = .unmapped := by decide
    rw [hend]
    exact Place.noConfusion

/-- The place of an engine in the array: its state and its logical index. -/
def Engine.seat (e : Engine) : Nat × Nat := (e.state, e.logical)

theorem State.physOf_congr {s t : State} (h : ∀ q, (t.engine q).seat = (s.engine q).seat) (l : Nat) : t.physOf l = s.physOf l := by
  have hstate (q : Nat) : (t.engine q).state = (s.engine q).state := congrArg Prod.fst (h q)
  have hlogical (q : Nat) : (t.engine q).logical = (s.engine q).logical := congrArg Prod.snd (h q)
  simp only [State.physOf, hstate, hlogical]

theorem State.resolve_congr {s t : State} (h : ∀ q, (t.engine q).seat = (s.engine q).seat) (a : Nat) : t.resolve a = s.resolve a := by
  unfold State.resolve
  simp only [State.physOf_congr h]

/-- Addresses of one granule lead to one granule. -/
theorem State.resolve_add (s : State) {a k : Nat} (h : granule (a + k) = granule a) : s.resolve (a + k) = s.resolve a + k := by
  unfold State.resolve
  rw [placeOf_of_granule h]
  split
  next l hplace =>
    have := logicalBase_le hplace
    cases s.physOf l with
    | none => rfl
    | some q =>
      dsimp only
      omega
  next => rfl

/-! ## One piece -/

theorem State.hostStore_byte_outside (s : State) (h : Nat) (bs : List Byte) {j : Nat} (hj : j < hostBase + h ∨ hostBase + h + bs.length ≤ j) :
    (s.hostStore h bs).byte j = s.byte j := by
  have hpages : (touchPages s h bs.length).mem = s.mem := keeps_mem (touchPages_erase s h bs.length (Nat.and_self _)) rfl
  rw [State.byte, State.byte, ← hpages]
  exact memWrite_get_outside _ _ _ _ hj

section
variable (s : State) {a : Nat} (bs : List Byte) (mark : Bool) (hmemory : placeOf a ≠ .register)
include hmemory

/-- A piece that leads to no register is written in memory alone, with the pages and counts of host accesses. -/
theorem dmaPiece_erase_of_memory {mk : Nat} (hk : 0x60080000000 &&& mk = 0x60080000000) :
    (dmaPiece s a bs mark).erase mk = s.erase mk := by
  have hstore (x : Nat) : (s.store x bs mark).erase mk = s.erase mk := s.store_erase x bs mark (sub_trans rfl hk)
  unfold dmaPiece
  split
  next => exact hstore a
  next => exact hstore a
  next => exact erase_ite rfl (hstore a)
  next =>
    split
    next => exact hstore _
    next => rfl
  next hplace => exact absurd hplace hmemory
  next => exact dmaHost_erase s _ bs mark (sub_trans rfl hk)
  next => rfl

theorem dmaPiece_byte_outside {j : Nat} (hj : j < s.resolve a ∨ s.resolve a + bs.length ≤ j) :
    (dmaPiece s a bs mark).byte j = s.byte j := by
  unfold State.resolve at hj
  unfold dmaPiece
  split at hj
  next l hplace =>
    rw [hplace]
    dsimp only
    cases hphys : s.physOf l with
    | none => rfl
    | some q => exact State.store_byte_outside s _ j bs mark (by simpa only [hphys] using hj)
  next hother =>
    split
    next => exact State.store_byte_outside s a j bs mark hj
    next => exact State.store_byte_outside s a j bs mark hj
    next =>
      split
      · rfl
      · exact State.store_byte_outside s a j bs mark hj
    next l hplace => exact absurd hplace (hother l)
    next hplace => exact absurd hplace hmemory
    next hplace =>
      have := hostBase_le hplace
      unfold dmaHost
      split
      · exact State.hostStore_byte_outside s _ bs (by omega)
      · rfl
    next => rfl

end

/-! ## One row -/

/-- The bytes of a row as they are read, with their marks. -/
def rowRead (s : State) (host : HostData) (src n : Nat) : List (Byte × Bool) := (List.range n).map fun i => dmaByte s host (src + i)

theorem length_rowRead (s : State) (host : HostData) (src n : Nat) : (rowRead s host src n).length = n := by
  rw [rowRead, List.length_map, List.length_range]

theorem dmaRow_eq (s : State) (host : HostData) (src dst n : Nat) : dmaRow s host src dst n
    = (piecesOf dst n).foldl (fun t pc => dmaPiece t (dst + pc.1) ((((rowRead s host src n).drop pc.1).take pc.2).map (·.1))
      ((((rowRead s host src n).drop pc.1).take pc.2).any (·.2))) s := rfl

/-- The engines, and the bytes at the addresses `J`, are the same in both states. -/
structure SameAt (J : Nat → Prop) (s t : State) : Prop where
  engines : t.engines = s.engines
  byte : ∀ j, J j → t.byte j = s.byte j

namespace SameAt

variable {J : Nat → Prop} {s t u : State}

theorem refl (J : Nat → Prop) (s : State) : SameAt J s s := ⟨rfl, fun _ _ => rfl⟩

theorem trans (h : SameAt J s t) (h' : SameAt J t u) : SameAt J s u :=
  ⟨h'.engines.trans h.engines, fun j hj => (h'.byte j hj).trans (h.byte j hj)⟩

theorem of_erase {m : Nat} (h : t.erase m = s.erase m) (hengines : m.testBit 18 = false) (hmem : m.testBit 41 = false) : SameAt J s t :=
  ⟨State.engines_of_erase h hengines, fun j _ => State.byte_of_erase h hmem j⟩

theorem resolve (h : SameAt J s t) (a : Nat) : t.resolve a = s.resolve a :=
  State.resolve_congr (fun q => by rw [State.engine, State.engine, h.engines]) a

end SameAt

/-- No byte of a row of `n` bytes leads to a register or to an address of `J`. -/
def Misses (s : State) (dst n : Nat) (J : Nat → Prop) : Prop := ∀ k < n, placeOf (dst + k) ≠ .register ∧ ¬J (s.resolve (dst + k))

theorem dmaRow_misses {s : State} (host : HostData) (src : Nat) {dst n : Nat} {J : Nat → Prop} (h : Misses s dst n J) :
    SameAt J s (dmaRow s host src dst n) := by
  rw [dmaRow_eq]
  refine List.foldlRecOn (motive := SameAt J s) _ _ (.refl J s) fun t ht pc hpc => ht.trans ?_
  have hpiece := isPiece_of_mem hpc
  have hwithin := hpiece.within
  have hnonempty := hpiece.nonempty
  have hgranule := hpiece.granule
  have hmemory := (h pc.1 (by omega)).1
  refine ⟨State.engines_of_erase (dmaPiece_erase_of_memory t _ _ hmemory (Nat.and_self _)) rfl, fun j hj =>
    dmaPiece_byte_outside t _ _ hmemory ?_⟩
  rw [List.length_map, length_pieceBytes (a := dst) ((length_rowRead s host src n).symm ▸ hpiece), ht.resolve]
  by_contra hmeets
  have hsame : granule (dst + pc.1 + (j - s.resolve (dst + pc.1))) = granule (dst + pc.1) := by
    unfold granule at hgranule ⊢
    omega
  have hleads : s.resolve (dst + (pc.1 + (j - s.resolve (dst + pc.1)))) = j := by
    rw [← Nat.add_assoc, s.resolve_add hsame]
    omega
  exact (h _ (by omega)).2 (hleads.symm ▸ hj)

/-- A row within DRAM is written with the marks of what it was read from. -/
theorem dmaRow_of_inDram (s : State) (host : HostData) (src : Nat) {dst n : Nat} (h : inDram dst n = true) : dmaRow s host src dst n
    = storeMarked s dst ((rowRead s host src n).map (·.1)) ((rowRead s host src n).map (·.2)) := by
  have hle := inDram_le h
  rw [dmaRow_eq, storeMarked, List.length_map, length_rowRead]
  refine List.foldl_ext _ _ s fun t pc hpc => ?_
  obtain ⟨hwithin, hnonempty, -⟩ := isPiece_of_mem hpc
  rw [dmaPiece, placeOf_of_lt_dramEnd (by omega)]
  simp only [← List.map_drop, ← List.map_take, List.any_map]
  rfl

theorem rowRead_of_inDram (s : State) (host : HostData) {src n : Nat} (h : inDram src n = true) : rowRead s host src n
    = (List.range n).map fun i => (s.byte (src + i), s.voids.contains (granule (src + i))) := by
  have hle := inDram_le h
  refine List.map_congr_left fun i hi => ?_
  rw [List.mem_range] at hi
  rw [dmaByte, placeOf_of_lt_dramEnd (by omega)]

section
variable (s : State) (host : HostData) {src dst n : Nat} (hsrc : inDram src n = true) (hdst : inDram dst n = true)
include hsrc hdst

theorem dmaRow_byte {k : Nat} (hk : k < n) : (dmaRow s host src dst n).byte (dst + k) = s.byte (src + k) := by
  rw [dmaRow_of_inDram s host src hdst, rowRead_of_inDram s host hsrc, storeMarked_byte_inside _ _ _ _ (by simpa using hk)]
  simp

/-- 07 R244: void data stays void where it lands. -/
theorem dmaRow_void (hvoid : s.anyVoid src n = true) : (dmaRow s host src dst n).anyVoid dst n = true := by
  obtain ⟨g, hg, hin⟩ := State.anyVoid_iff.mp hvoid
  obtain ⟨i, hi, rfl⟩ : ∃ i < n, granule (src + i) = g := by
    rw [mem_granulesOf] at hg
    refine ⟨max src (64 * g) - src, ?_, ?_⟩
    · omega
    · unfold granule
      omega
  refine State.anyVoid_iff.mpr ⟨granule (dst + i), ?_, ?_⟩
  · rw [mem_granulesOf, granule]
    omega
  · rw [dmaRow_of_inDram s host src hdst, rowRead_of_inDram s host hsrc]
    refine storeMarked_void _ _ _ (by simpa using hi) ?_
    simpa [hi] using hin

/-- 07 R244: sound data written over whole granules makes them sound. -/
theorem dmaRow_sound (hsound : s.anyVoid src n = false) (halign : dst % 64 = 0) (hlen : n % 64 = 0) :
    (dmaRow s host src dst n).anyVoid dst n = false := by
  rw [dmaRow_of_inDram s host src hdst, rowRead_of_inDram s host hsrc, Bool.eq_false_iff, Ne, State.anyVoid_iff]
  rintro ⟨g, hg, hvoid⟩
  refine storeMarked_sound _ _ _ halign (by simpa using hlen) (fun m hm => ?_) (by simpa using hg) hvoid
  rw [List.map_map, List.mem_map] at hm
  obtain ⟨i, hi, rfl⟩ := hm
  rw [List.mem_range] at hi
  rw [Bool.eq_false_iff, Ne, State.anyVoid_iff] at hsound
  refine Bool.eq_false_iff.mpr fun hin => hsound ⟨granule (src + i), ?_, by simpa using hin⟩
  rw [mem_granulesOf, granule]
  omega

end

/-! ## A transfer -/

theorem dmaRows_misses (host : HostData) (till : Nat) (c : DmaCmd) {J : Nat → Prop} (k i : Nat) {s : State}
    (h : ∀ r, i ≤ r → r < i + k → Misses s (c.dstRow r) c.len J) : SameAt J s (dmaRows host till c k i s).1 := by
  induction k generalizing i s with
  | zero => exact .refl J s
  | succ k ih =>
    unfold dmaRows
    extract_lets a b u
    have hrow : SameAt J s (dmaRow s host a b c.len) := dmaRow_misses host a (h i le_rfl (by omega))
    have hcharged : SameAt J s (chargeTo (dmaRow s host a b c.len) till (addUnits u.1 u.2)) :=
      hrow.trans (.of_erase (chargeTo_erase _ till _ (Nat.and_self _)) rfl rfl)
    split
    · exact .refl J s
    · split
      · exact .refl J s
      · refine hcharged.trans (ih (i + 1) fun r hlo hhi m hm => ?_)
        rw [hcharged.resolve]
        exact h r (by omega) (by omega) m hm

/-- A single row within DRAM is moved, and charged. -/
theorem dmaRows_single {s : State} (host : HostData) (till : Nat) {c : DmaCmd} (hsrc : inDram c.src c.len = true)
    (hdst : inDram c.dst c.len = true) : ∃ f, dmaRows host till c 1 0 s = (chargeTo (dmaRow s host c.src c.dst c.len) till f, none) := by
  simp [dmaRows, DmaCmd.srcRow, DmaCmd.dstRow, mapped_of_inDram hsrc, mapped_of_inDram hdst]

theorem forwardGroup_dmas (s0 : State) (host : HostData) (p : Nat) (c : DmaCmd) (s : State) (port q : Nat) :
    ((forwardGroup s0 host p c s port).engine q).dmas = (s.engine q).dmas := by
  unfold forwardGroup
  extract_lets e
  split
  · refine (State.modEngine_keeps Engine.dmas _ ?_ q).trans rfl
    exact fun _ => rfl
  · rfl

section
variable (s : State) (host : HostData) (p till : Nat) (c : DmaCmd)

/-- The groups it forwards, or the error of a row it could not move, are all that follows the rows of a transfer. -/
theorem runDma_erase_of_rows {mk : Nat} (hk : 0x900c0804 &&& mk = 0x900c0804) :
    (runDma s host p till c).erase mk = (dmaRows host till c c.rows 0 s).1.erase mk := by
  unfold runDma
  extract_lets r
  split
  · exact erase_foldl (fun t port => forwardGroup_erase s host p c t port (sub_trans rfl hk)) _ _
  · exact State.contained_erase _ _ _ _ _ _ _ (sub_trans rfl hk)

theorem runDma_dmas (q : Nat) : ((runDma s host p till c).engine q).dmas = ((dmaRows host till c c.rows 0 s).1.engine q).dmas := by
  unfold runDma
  extract_lets r
  split
  · exact foldl_keeps (fun t => (t.engine q).dmas) (fun t port => forwardGroup_dmas s host p c t port q) _ _
  · rfl

end

/-- The state in which a transfer runs: it has left the engine's list. -/
def transferTaken (s : State) (p : Nat) (rest : List Dma) : State := s.modEngine p fun e => { e with dmas := rest }

/-- A transfer run to its end; the engine may then halt. -/
def transferRun (s : State) (p till : Nat) (c : DmaCmd) (rest : List Dma) : State :=
  settleHalt (runDma (transferTaken s p rest) .good p till c) p

theorem transferTaken_resolve (s : State) (p : Nat) (rest : List Dma) (a : Nat) : (transferTaken s p rest).resolve a = s.resolve a := by
  refine State.resolve_congr (fun q => State.modEngine_keeps Engine.seat s ?_ q) a
  exact fun _ => rfl

theorem exec_dmaComplete {s : State} {p : Nat} {d : Dma} {rest : List Dma} {c : DmaCmd} (hrun : s.running = true)
    (hown : (s.engine p).handoverFrom = none) (htake : takeDma (s.engine p).dmas = some (d, rest))
    (hc : c = parseDma d.cmd) (hready : waitsHandover s c = false) (hstop : s.flt.stopPhase ≠ 2) :
    exec (.dmaComplete p) s = .next (transferRun s p d.till c rest) := by
  subst hc
  change execDmaComplete p s = _
  simp [execDmaComplete, done, nextDma, hrun, hown, htake, hready, hstop, transferRun, transferTaken]

/-- A single row between places in DRAM waits for no handover. -/
theorem waitsHandover_of_inDram (s : State) {c : DmaCmd} (hrows : c.rows = 1) (hsrc : inDram c.src c.len = true)
    (hdst : inDram c.dst c.len = true) : waitsHandover s c = false := by
  have hsound (a : Nat) (ha : ∀ l, placeOf a ≠ .logical l) : (match placeOf a with
      | .logical l => ((s.physOf l).map fun p => (s.engine p).handoverFrom.isSome).getD false
      | _ => false) = false := by
    split
    next l hplace => exact absurd hplace (ha l)
    next => rfl
  have hs := hsound c.src (placeOf_ne_logical_of_inDram hsrc)
  have hd := hsound c.dst (placeOf_ne_logical_of_inDram hdst)
  simp only [waitsHandover, hrows, List.range_one, List.any_cons, List.any_nil, DmaCmd.srcRow, DmaCmd.dstRow, Nat.zero_mul,
    Nat.add_zero, Bool.or_false, Bool.or_eq_false_iff]
  exact ⟨hs, hd⟩

section
variable (s : State) (p till : Nat) (c : DmaCmd) (rest : List Dma)

/-- Memory, void marks and engines' lists after a transfer are those that its rows leave. -/
theorem transferRun_byte (a : Nat) : (transferRun s p till c rest).byte a
    = (dmaRows .good till c c.rows 0 (transferTaken s p rest)).1.byte a := by
  rw [transferRun, settleHalt_byte, State.byte_of_erase (runDma_erase_of_rows _ _ _ _ _ (Nat.and_self _)) rfl]

theorem transferRun_anyVoid (a n : Nat) : (transferRun s p till c rest).anyVoid a n
    = (dmaRows .good till c c.rows 0 (transferTaken s p rest)).1.anyVoid a n := by
  rw [transferRun]
  exact State.anyVoid_congr ((keeps_voids (settleHalt_erase _ p (Nat.and_self _)) rfl).trans
    (keeps_voids (runDma_erase_of_rows _ _ _ _ _ (Nat.and_self _)) rfl)) a n

/-- Rows that miss the addresses `J` and lead to no register leave the engine's list and the bytes there as they were. -/
theorem transferRun_misses {J : Nat → Prop} (h : ∀ r < c.rows, Misses s (c.dstRow r) c.len J) :
    ((transferRun s p till c rest).engine p).dmas = rest ∧ ∀ j, J j → (transferRun s p till c rest).byte j = s.byte j := by
  have hrows := dmaRows_misses .good till c c.rows 0 (s := transferTaken s p rest)
    fun r _ hr k hk => by
      rw [transferTaken_resolve]
      exact h r (by omega) k hk
  refine ⟨?_, fun j hj => (transferRun_byte s p till c rest j).trans (hrows.byte j hj)⟩
  rw [transferRun, settleHalt_keeps (v := Engine.dmas) (fun _ _ => rfl), runDma_dmas, State.engine, hrows.engines, ← State.engine,
    transferTaken, State.modEngine_get, if_pos rfl]

end

/-- A single row within DRAM leaves memory and void marks as the row itself does. -/
theorem transferRun_single (s : State) (p till : Nat) {c : DmaCmd} (rest : List Dma) (hrows : c.rows = 1)
    (hsrc : inDram c.src c.len = true) (hdst : inDram c.dst c.len = true) :
    (∀ a, (transferRun s p till c rest).byte a = (dmaRow (transferTaken s p rest) .good c.src c.dst c.len).byte a)
      ∧ ∀ a n, (transferRun s p till c rest).anyVoid a n = (dmaRow (transferTaken s p rest) .good c.src c.dst c.len).anyVoid a n := by
  obtain ⟨f, hmoved⟩ := dmaRows_single (s := transferTaken s p rest) .good till hsrc hdst
  have hcharged := chargeTo_erase (dmaRow (transferTaken s p rest) .good c.src c.dst c.len) till f (Nat.and_self _)
  refine ⟨fun a => ?_, fun a n => ?_⟩
  · rw [transferRun_byte, hrows, hmoved, State.byte_of_erase hcharged rfl]
  · rw [transferRun_anyVoid, hrows, hmoved, State.anyVoid_congr (keeps_voids hcharged rfl)]

/-! ## The command -/

theorem exec_dmaCommand {s : State} {p job : Nat} {cmd : List Byte} (hmay : mayTransfer s p cmd = true) :
    exec (.dmaCommand p cmd job) s = .next (issueDma s p cmd job) := by
  change execDmaCommand p cmd job s = _
  simp [execDmaCommand, done, hmay]

/-- 08 R265: a command that breaks the table completes with RANGE, and the job of the next tile is to fail. -/
theorem rejectDma_effect (s : State) (p job : Nat) : ∃ c, ((rejectDma s p job).engine p).dmas = (s.engine p).dmas
    ∧ ((rejectDma s p job).region (regionOf p)).completions = (s.region (regionOf p)).completions ++ [c]
    ∧ c.tile = 0xFFFFFFFFFFFFFFFF ∧ c.job = job ∧ c.status = stRANGE ∧ c.check = 1
    ∧ ((rejectDma s p job).engine p).failedJobs = (s.engine p).failedJobs ++ (if job = 0 then [] else [job]) := by
  refine ⟨{ tile := 0xFFFFFFFFFFFFFFFF, job := job, status := stRANGE, check := 1 }, ?_, ?_, rfl, rfl, rfl, rfl, ?_⟩
  all_goals
    unfold rejectDma
    by_cases hjob : job = 0 <;> simp [hjob]

/-! ## Together -/

/-- Settles O34: a command by the rules of `issueDma` and `rejectDma`; a transfer by its rows, which by `dmaRows_misses` write only where
they lead, and in DRAM by the rules of `dmaRow`. -/
theorem dmaMovesRows : Obligations.DmaMovesRows := by
  unfold Obligations.DmaMovesRows
  refine ⟨fun s p job cmd hmay hok => ?issued, fun s p job cmd hmay hbad => ?rejected,
    fun s p d rest c hrun hown htake hc hready hstop hmemory => ?moved, fun s p d rest c hrun hown htake hc hstop hrows hsrc hdst => ?copied⟩
  case issued =>
    rw [exec_dmaCommand hmay, issueDma, if_pos hok]
    refine ⟨_, ⟨cmd, if (parseDma cmd).wait then previousTile (s.engine p) else none, (s.engine p).till⟩, rfl, ?_, rfl, rfl, rfl⟩
    rw [State.modEngine_get, if_pos rfl]
  case rejected =>
    rw [exec_dmaCommand hmay, issueDma, if_neg (by simp [hbad])]
    obtain ⟨c, heffect⟩ := rejectDma_effect s p job
    exact ⟨_, c, rfl, heffect⟩
  case moved =>
    obtain ⟨hleft, hkept⟩ := transferRun_misses s p d.till c rest (J := fun a => ∀ i < c.rows, ∀ k < c.len, s.resolve (c.dstRow i + k) ≠ a)
      fun r hr k hk => ⟨hmemory r hr k hk, fun hmiss => hmiss r hr k hk rfl⟩
    exact ⟨_, exec_dmaComplete hrun hown htake hc hready hstop, hleft, hkept⟩
  case copied =>
    obtain ⟨hbyte, hvoids⟩ := transferRun_single s p d.till rest hrows hsrc hdst
    have hready := waitsHandover_of_inDram s hrows hsrc hdst
    refine ⟨_, exec_dmaComplete hrun hown htake hc hready hstop, ?_, fun k hk => ?_, fun hvoid => ?_, fun hsound halign hlen => ?_⟩
    · refine (transferRun_misses s p d.till c rest (J := fun _ => False) fun r hr k hk => ⟨?_, id⟩).1
      have hle := inDram_le hdst
      obtain rfl : r = 0 := by omega
      rw [DmaCmd.dstRow, Nat.zero_mul, Nat.add_zero, placeOf_of_lt_dramEnd (by omega)]
      exact Place.noConfusion
    · exact (hbyte _).trans (dmaRow_byte (transferTaken s p rest) .good hsrc hdst hk)
    · exact (hvoids _ _).trans (dmaRow_void (transferTaken s p rest) .good hsrc hdst hvoid)
    · exact (hvoids _ _).trans (dmaRow_sound (transferTaken s p rest) .good hsrc hdst hsound halign hlen)

end Sys2Proof.Machine

/-! The start of a tile and its commit (07 R247, R249, 08 R271, R289): the checks of the start, what the commit writes, and what the
boundary that follows a commit leaves of it. -/

namespace Sys2Proof.Machine

/-! ## The start (08 R271) -/

theorem not_running_of_mayIssue {s : State} {p : Nat} {i : TileIssue} (h : mayIssue s p i = true) : (s.engine p).running = none := by
  simp only [mayIssue, Bool.and_eq_true, Option.isNone_iff_eq_none] at h
  tauto

theorem exec_tileStart {s : State} {p : Nat} {i : TileIssue} (hmay : mayIssue s p i = true) :
    exec (.tileStart p i) s = .next (startTile s p i) := by
  change execTileStart p i s = _
  simp only [execTileStart, done, hmay, if_true]

section
variable {s : State} {p : Nat} {i : TileIssue} (hjob : (s.engine p).failedJobs.contains (parseTile i.cmd).job = false)
include hjob

theorem startTile_of_pass (hcheck : startCheck (s.tileEnv p i) = none) : ∃ r, ((startTile s p i).engine p).running = some r
    ∧ r.issue = i ∧ r.start = s.time.elapsed
    ∧ ((startTile s p i).engine p).activity = (if (s.tileEnv p i).plan.isEmpty then 2 else 1) := by
  have hown : (s.engine p).failedJobs.contains (s.tileEnv p i).c.job = false := hjob
  simp only [startTile, hown, hcheck, Bool.false_eq_true, if_false, State.modEngine_get, if_true]
  exact ⟨_, rfl, rfl, rfl, trivial⟩

theorem startTile_of_fail {f : CheckFail} (hcheck : startCheck (s.tileEnv p i) = some f) :
    startTile s p i = rejectTile s p i (parseTile i.cmd) f := by
  have hown : (s.engine p).failedJobs.contains (s.tileEnv p i).c.job = false := hjob
  simp only [startTile, hown, hcheck, Bool.false_eq_true, if_false]
  rfl

end

/-- 08 R271, R289: the completion carries the status and the number of the check that failed. -/
theorem rejectTile_effect {s : State} {p : Nat} (hidle : (s.engine p).running = none) (t : TileIssue) (c : TileCmd) (f : CheckFail) :
    ((rejectTile s p t c f).engine p).running = none
      ∧ ∃ x, ((rejectTile s p t c f).region (regionOf p)).completions = (s.region (regionOf p)).completions ++ [x]
        ∧ x.tile = c.tile ∧ x.job = c.job ∧ x.status = f.status ∧ x.check = f.check := by
  unfold rejectTile
  extract_lets s0 s1
  have htold : FaultStands p s s0 :=
    (FaultStands.dropDmas s p c.job c.tile).trans (.of_erase (State.trace_erase _ _ _ _ _ (Nat.and_self _)) (by decide))
  have hfailed := FaultStands.jobFail (p := p) s1 p t c.member f.status 2 c.tile
  refine ⟨hfailed.idle (htold.idle hidle),
    { tile := c.tile, job := c.job, status := f.status, member := c.member, check := f.check }, ?_, rfl, rfl, rfl, rfl⟩
  rw [hfailed.completions, complete_completions, htold.completions]

/-! ## The boundary after a commit (03 R119, 14 R424) -/

/-- The end of a slice at a boundary changes the slice and the overdraft alone. -/
theorem endSliceIfDue_keeps {β : Type} {v : Engine → β} (hv : IgnoresSlice v)
    (hover : ∀ e overdraft carried, v { e with overdraft := overdraft, carried := carried } = v e) (s : State) (q epoch p : Nat) :
    v ((endSliceIfDue s q epoch).engine p) = v (s.engine p) := by
  unfold endSliceIfDue
  split
  · exact hv.enterSlice s p q
  · extract_lets nominal
    split
    · exact (hv.leaveSlice _ p q).trans (State.modEngine_keeps v s (fun e => hover e _ _) p)
    · split
      · rfl
      · exact hv.leaveSlice s p q

theorem FaultStands.endSliceIfDue {p : Nat} (s : State) (q epoch : Nat) : FaultStands p s (endSliceIfDue s q epoch) := by
  have herase := endSliceIfDue_erase s q epoch (Nat.and_self _)
  have hflt := State.flt_of_erase herase rfl
  refine ⟨fun hidle => ?_, endSliceIfDue_keeps (v := Engine.faultCounts) (fun _ _ _ _ => rfl) (fun _ _ _ => rfl) s q epoch p,
    by rw [hflt], by rw [hflt], State.time_of_erase herase rfl, by rw [State.region_of_erase herase rfl]⟩
  rw [endSliceIfDue_keeps (v := Engine.running) (fun _ _ _ _ => rfl) (fun _ _ _ => rfl), hidle]

theorem SameWork.endSliceIfDue {p : Nat} (s : State) (q epoch : Nat) : SameWork p s (endSliceIfDue s q epoch) :=
  endSliceIfDue_keeps (v := Engine.workCounts) (fun _ _ _ _ => rfl) (fun _ _ _ => rfl) s q epoch p

/-- What stands of a commit on engine `p` from `s` to `t`: its fault counts and completions, and the work it counts. -/
structure CommitStands (p : Nat) (s t : State) : Prop where
  fault : FaultStands p s t
  work : SameWork p s t

namespace CommitStands

variable {p : Nat} {s t u : State}

theorem refl (p : Nat) (s : State) : CommitStands p s s := ⟨.refl p s, rfl⟩

theorem trans (h : CommitStands p s t) (h' : CommitStands p t u) : CommitStands p s u := ⟨h.fault.trans h'.fault, h.work.trans h'.work⟩

theorem of_erase {m : Nat} (h : t.erase m = s.erase m) (hm : ∀ i ∈ [10, 18, 21, 28], m.testBit i = false) : CommitStands p s t :=
  ⟨.of_erase h hm, .of_erase h (hm 18 (by decide))⟩

theorem modEngine (s : State) (q : Nat) {f : Engine → Engine} (hidle : ∀ e, e.running = none → (f e).running = none)
    (hfault : ∀ e, (f e).faultCounts = e.faultCounts) (hwork : ∀ e, (f e).workCounts = e.workCounts) :
    CommitStands p s (s.modEngine q f) := ⟨.modEngine s q hidle hfault, .modEngine s q hwork⟩

theorem modRegion (s : State) (g : Nat) {f : Region → Region} (h : ∀ x, (f x).completions = x.completions) :
    CommitStands p s (s.modRegion g f) := ⟨.modRegion s g h, rfl⟩

theorem settleHalt (s : State) (q : Nat) : CommitStands p s (settleHalt s q) := by
  unfold Machine.settleHalt
  split
  · exact .refl p s
  · refine .modEngine s q ?_ ?_ ?_
    · exact fun _ h => h
    · exact fun _ => rfl
    · exact fun _ => rfl

theorem tileBoundary (s : State) (q cycles : Nat) (t : TileIssue) : CommitStands p s (tileBoundary s q cycles t) := by
  unfold Machine.tileBoundary
  extract_lets s1
  have hcharged : CommitStands p s s1 := by
    unfold s1
    split
    · have hslice : CommitStands p s (s.modEngine q fun e => { e with slice := e.slice.map fun x => (x.1, x.2 + cycles) }) :=
        .modEngine s q (fun _ h => h) (fun _ => rfl) fun _ => rfl
      refine hslice.trans (.modRegion _ _ ?_)
      exact fun _ => rfl
    · exact .refl p s
  have hended : CommitStands p s1 (endSliceIfDue s1 q t.epoch) := ⟨.endSliceIfDue s1 q t.epoch, .endSliceIfDue s1 q t.epoch⟩
  have hratio (a : State) : CommitStands p a (applyRatio a q) := .modEngine a q (fun _ h => h) (fun _ => rfl) fun _ => rfl
  exact ((hcharged.trans hended).trans (hratio _)).trans ⟨.fenceIfDue _ q, .fenceIfDue _ q⟩

theorem auditDraw (s : State) (g : Nat) : CommitStands p s (auditDraw s g).2 := by
  unfold Machine.auditDraw
  extract_lets r c w
  dsimp only
  refine .modRegion s g ?_
  exact fun _ => rfl

theorem selectAudit (s : State) (q : Nat) (t : TileIssue) (x : Completion) : CommitStands p s (selectAudit s q t x) := by
  unfold Machine.selectAudit
  split
  · extract_lets a
    refine .modRegion s _ ?_
    exact fun _ => rfl
  · exact ⟨⟨id, rfl, rfl, rfl, rfl, rfl⟩, rfl⟩

end CommitStands

/-! ## The commit (07 R249) -/

section
variable (s : State) (p cycles : Nat) (r : Running) (d : TileDone) (empty : Bool)

/-- The writes of a tile are all that its commit changes of memory. -/
theorem commitTile_byte (a : Nat) : (commitTile s p cycles r d empty).byte a
    = (s.storeEach (writeAddr (s.tileEnv p r.issue)) (·.2.2) (fun _ => false) d.flow.writes).byte a := by
  unfold commitTile
  extract_lets x c s0 s1 status sent s2 rec_ s3 s4 q s5
  have hwritten : s1.mem = (s.storeEach (writeAddr x) (·.2.2) (fun _ => false) d.flow.writes).mem := by
    change (s0.storeEach (writeAddr x) (·.2.2) (fun _ => false) d.flow.writes).mem = _
    rw [State.storeEach_mem, State.storeEach_mem, State.mem_of_erase (State.trace_erase _ _ _ _ _ (Nat.and_self _)) rfl]
  have hcharged : s4.mem = s3.mem := State.mem_of_erase (chargeTile_erase s3 r.issue p cycles (Nat.and_self _)) rfl
  have hdrawn : s5.mem = s4.mem := by
    unfold s5
    split
    · rfl
    · have hdraw : q.2.mem = s4.mem := State.mem_of_erase (auditDraw_erase s4 _ (Nat.and_self _)) rfl
      split
      · exact (State.mem_of_erase (selectAudit_erase q.2 p r.issue rec_ (Nat.and_self _)) rfl).trans hdraw
      · exact hdraw
  rw [settleHalt_byte, State.byte_of_erase (tileBoundary_erase s5 p cycles r.issue (Nat.and_self _)) rfl, State.byte, State.byte,
    hdrawn.trans (hcharged.trans hwritten)]

/-- The tile is counted and completes, and the engine runs nothing, whatever the boundary brings. -/
theorem commitTile_effect : ((commitTile s p cycles r d empty).engine p).running = none
    ∧ ((commitTile s p cycles r d empty).engine p).tiles = (s.engine p).tiles + 1
    ∧ ∃ c ∈ ((commitTile s p cycles r d empty).region (regionOf p)).completions, c.tile = (parseTile r.issue.cmd).tile
      ∧ c.job = (parseTile r.issue.cmd).job ∧ c.status = (if empty then stEMPTY else stOK) ∧ c.cycles = cycles := by
  unfold commitTile
  extract_lets x c s0 s1 status sent s2 rec_ s3 s4 q s5
  have hbefore : s1.engine p = s.engine p := by
    change (s0.storeEach (writeAddr x) (·.2.2) (fun _ => false) d.flow.writes).engine p = _
    rw [State.engine_of_erase (State.storeEach_erase _ _ _ _ _ (Nat.and_self _)) rfl, State.trace_engine]
  have hafter : (s3.engine p).running = none ∧ (s3.engine p).tiles = (s.engine p).tiles + 1 := by
    rw [← hbefore]
    change (s2.engine p).running = none ∧ (s2.engine p).tiles = _
    rw [State.modEngine_get, if_pos rfl]
    exact ⟨rfl, rfl⟩
  have hcharged : CommitStands p s3 s4 := .of_erase (chargeTile_erase s3 r.issue p cycles (Nat.and_self _)) (by decide)
  have hdrawn : CommitStands p s4 s5 := by
    unfold s5
    split
    · exact .refl p s4
    · have hdraw : CommitStands p s4 q.2 := .auditDraw s4 _
      split
      · exact hdraw.trans (.selectAudit q.2 p r.issue rec_)
      · exact hdraw
  have hstands := ((hcharged.trans hdrawn).trans (.tileBoundary s5 p cycles r.issue)).trans (.settleHalt _ p)
  refine ⟨hstands.fault.idle hafter.1, hstands.work.tiles.trans hafter.2, rec_, ?_, rfl, rfl, rfl, rfl⟩
  rw [hstands.fault.completions, complete_completions]
  exact List.mem_append_right _ (List.mem_singleton_self _)

end

/-- A part of the combine arrived with no data (08 R272). -/
def partVoid (s : State) (p : Nat) (c : TileCmd) : Bool :=
  c.opcode == 3 && (s.engine p).combines.any fun b => b.job == c.job && b.tile == c.tile && b.empty

section
variable {s : State} {p cycles : Nat} {r : Running} (hrun : s.running = true) (hcur : (s.engine p).running = some r)
  (hcycles : cycles ≤ 30000)
include hrun hcur hcycles

theorem exec_tileCommit_of_done {d : TileDone} (hattempt : ((finishPasses s p r.issue).tileEnv p r.issue).attempt = (d, none))
    (hwork : ((finishPasses s p r.issue).tileEnv p r.issue).work ≠ []) (hpart : partVoid s p (parseTile r.issue.cmd) = false) :
    exec (.tileCommit p cycles) s = .next (commitTile (finishPasses s p r.issue) p cycles r d false) := by
  change execTileCommit p cycles s = _
  simp only [execTileCommit, done, hcur, hrun, List.isEmpty_eq_false_iff.mpr hwork, hattempt, Bool.false_or]
  exact congrArg Host.Outcome.next ((if_neg (by simpa using hcycles)).trans (if_neg (Bool.eq_false_iff.mp hpart)))

theorem exec_tileCommit_of_empty
    (hnone : ((finishPasses s p r.issue).tileEnv p r.issue).work = [] ∨ partVoid s p (parseTile r.issue.cmd) = true) :
    exec (.tileCommit p cycles) s = .next (commitTile (finishPasses s p r.issue) p cycles r {} true) := by
  change execTileCommit p cycles s = _
  have hcond : (((finishPasses s p r.issue).tileEnv p r.issue).work.isEmpty || partVoid s p (parseTile r.issue.cmd)) = true := by
    simpa using hnone
  simp only [execTileCommit, done, hcur, hrun]
  exact congrArg Host.Outcome.next ((if_neg (by simpa using hcycles)).trans (if_pos hcond))

end

theorem finishPasses_tiles (s : State) (p : Nat) (t : TileIssue) : ((finishPasses s p t).engine p).tiles = (s.engine p).tiles := by
  refine State.modEngine_keeps Engine.tiles s ?_ p
  exact fun _ => rfl

/-! ## Together -/

/-- Settles O32: a start by `startTile_of_pass` or `rejectTile_effect`; a commit writes the tile's own writes by `commitTile_byte`, and what
else it shows is `commitTile_effect`. -/
theorem tilesStartAndCommit : Obligations.TilesStartAndCommit := by
  unfold Obligations.TilesStartAndCommit
  refine ⟨⟨fun s p i hmay hjob hcheck => ?started, fun s p i f hmay hjob hcheck => ?rejected⟩,
    fun s u p cycles r x voidPart hrun hcur hcycles hu hx hvoid => ?committed⟩
  case started =>
    obtain ⟨r, hstarted⟩ := startTile_of_pass hjob hcheck
    exact ⟨_, r, exec_tileStart hmay, hstarted⟩
  case rejected =>
    obtain ⟨hidle, c, hcompletion⟩ := rejectTile_effect (not_running_of_mayIssue hmay) i (parseTile i.cmd) f
    exact ⟨_, c, (exec_tileStart hmay).trans (congrArg _ (startTile_of_fail hjob hcheck)), hidle, hcompletion⟩
  case committed =>
    subst hu hx
    have htiles := finishPasses_tiles s p r.issue
    refine ⟨fun d hattempt hwork hpart => ?_, fun hnone => ?_⟩
    · obtain ⟨hidle, hcount, c, hmem, htile, hjob, hstatus, hc⟩ := commitTile_effect (finishPasses s p r.issue) p cycles r d false
      refine ⟨_, exec_tileCommit_of_done hrun hcur hcycles hattempt hwork (hvoid.symm.trans hpart), hidle, hcount.trans (by rw [htiles]),
        ⟨c, hmem, htile, hjob, hstatus, hc⟩, fun a houtside => ?_, fun pre w post hsplit hlast i hi => ?_⟩
      · rw [commitTile_byte, State.storeEach_byte_outside _ _ _ _ houtside]
        rfl
      · rw [commitTile_byte, hsplit]
        exact State.storeEach_byte_last _ _ _ _ hlast hi
    · obtain ⟨hidle, hcount, c, hmem, htile, hjob, hstatus, -⟩ := commitTile_effect (finishPasses s p r.issue) p cycles r {} true
      refine ⟨_, exec_tileCommit_of_empty hrun hcur hcycles (hnone.imp_right hvoid.symm.trans), hidle, hcount.trans (by rw [htiles]),
        ⟨c, hmem, htile, hjob, hstatus⟩, fun a => ?_⟩
      rw [commitTile_byte]
      rfl

end Sys2Proof.Machine

/-! What a clearing engine knows of its commands (11 R336 to R338, R364): which operations leave it as it was, how a command is issued and
begins, and how it completes. -/

namespace Sys2Proof.Machine

/-! ## The work of an engine -/

/-- What a clearing engine knows of its commands: the one in execution, those that wait, how many it has committed, their completions, and
whether it is in service. -/
structure ClrWork where
  job : Option ClrJob
  held : List ClrJob
  commands : W64
  completions : List ClrCompletion
  fenced : Bool

def Clearing.work (e : Clearing) : ClrWork := ⟨e.job, e.held, e.commands, e.completions, e.fenced⟩

theorem Clearing.work_eq_iff {e : Clearing} {job : Option ClrJob} {held : List ClrJob} {commands : W64} {completions : List ClrCompletion}
    {fenced : Bool} : e.work = ⟨job, held, commands, completions, fenced⟩
      ↔ e.job = job ∧ e.held = held ∧ e.commands = commands ∧ e.completions = completions ∧ e.fenced = fenced := by
  simp only [Clearing.work, ClrWork.mk.injEq]

theorem State.clr_of_erase {m : Nat} {s t : State} (h : t.erase m = s.erase m) (hm : m.testBit 23 = false) (r : Nat) : t.clr r = s.clr r := by
  rw [State.clr, State.clr, keeps_clrs h hm]

theorem State.modClr_keeps {β : Type} (v : Clearing → β) (s : State) {q : Nat} {f : Clearing → Clearing} (h : ∀ e, v (f e) = v e)
    (r : Nat) : v ((s.modClr q f).clr r) = v (s.clr r) := by
  rw [State.modClr_get]
  split
  next heq => rw [heq, h]
  next => rfl

theorem State.modClr_clr_self (s : State) (r : Nat) (f : Clearing → Clearing) : (s.modClr r f).clr r = f (s.clr r) := by
  rw [State.modClr_get, if_pos rfl]

@[simp] theorem State.contained_clr (s : State) (x : FltPl) (status stream tick account type r : Nat) :
    (s.contained x status stream tick account type).clr r = s.clr r := rfl

@[simp] theorem State.corrected_clr (s : State) (source unit_ n r : Nat) : (s.corrected source unit_ n).clr r = s.clr r :=
  State.clr_of_erase (s.corrected_erase source unit_ n (Nat.and_self _)) rfl r

@[simp] theorem clrJobFail_clr (s : State) (j : ClrJob) (c : ClrCmd) (status r : Nat) : (clrJobFail s j c status).clr r = s.clr r :=
  State.clr_of_erase (clrJobFail_erase s j c status (Nat.and_self _)) rfl r

/-! ## Completions (11 R338) -/

/-- The completion of a command with a status and three counts. -/
def ClrCmd.completion (c : ClrCmd) (status c0 c1 c2 : Nat) : ClrCompletion :=
  { number := c.number, job := c.job, status := status, member := c.member, c0 := c0, c1 := c1, c2 := c2 }

section
variable (s : State) (r : Nat) (c : ClrCmd) (status c0 c1 c2 : Nat)

/-- The engine of the command shows its status and lists its completion. -/
theorem clrComplete_clr_self : (clrComplete s r c status c0 c1 c2).clr r = { s.clr r with
    status := status, opcode := c.opcode % 8, completions := (s.clr r).completions ++ [c.completion status c0 c1 c2] } := by
  rw [clrComplete, State.modClr_clr_self, State.clr_of_erase (State.trace_erase s _ _ _ _ (Nat.and_self _)) rfl]
  rfl

@[simp] theorem clrComplete_mem : (clrComplete s r c status c0 c1 c2).mem = s.mem :=
  keeps_mem (clrComplete_erase s r c status c0 c1 c2 (Nat.and_self _)) rfl

@[simp] theorem clrComplete_flt : (clrComplete s r c status c0 c1 c2).flt = s.flt :=
  keeps_flt (clrComplete_erase s r c status c0 c1 c2 (Nat.and_self _)) rfl

@[simp] theorem clrComplete_ledger : (clrComplete s r c status c0 c1 c2).ledger = s.ledger :=
  keeps_ledger (clrComplete_erase s r c status c0 c1 c2 (Nat.and_self _)) rfl

end

/-! ## The next command begins (11 R364) -/

theorem beginNext_of_job {s : State} {r : Nat} (hjob : (s.clr r).job ≠ none) : beginNext s r = s := by
  rw [beginNext, Option.isSome_iff_ne_none.mpr hjob]
  rfl

theorem beginNext_of_held_nil {s : State} {r : Nat} (hheld : (s.clr r).held = []) : beginNext s r = s := by
  simp only [beginNext, hheld, List.find?_nil, ite_self]

/-- What does not speak of the command in execution, those that wait, or the clock ratio stands as the next command begins. -/
theorem beginNext_keeps {β : Type} (v : Clearing → β) (hv : ∀ e job held ratio, v { e with job := job, held := held, ratio := ratio } = v e)
    (s : State) (q r : Nat) : v ((beginNext s q).clr r) = v (s.clr r) := by
  unfold beginNext
  extract_lets e
  split
  · rfl
  · split
    · rfl
    · exact s.modClr_keeps v (fun e => hv e _ _ _) r

/-- Which contexts an engine owns does not speak of the commands that wait. -/
theorem ownsStream_modClr (s : State) (q r : Nat) (c : ClrCmd) {f : Clearing → Clearing} (hf : ∀ e, (f e).fenced = e.fenced) :
    ownsStream (s.modClr q f) r c = ownsStream s r c := by
  have hfenced (k : Nat) : ((s.modClr q f).clr k).fenced = (s.clr k).fenced := s.modClr_keeps Clearing.fenced hf k
  simp only [ownsStream, hfenced]
  rfl

/-- A command that alone waits has no association before it. -/
theorem assocFirst_single (s : State) (j : ClrJob) : assocFirst s [j] j = true := by
  simp [assocFirst]

/-- A free engine in service begins the one command that waits. -/
theorem beginNext_of_single {s : State} {r : Nat} {j : ClrJob} (hmay : s.mayBegin = true) (hidle : (s.clr r).job = none)
    (hserves : (s.clr r).fenced = false) (hheld : (s.clr r).held = [j]) (howns : ownsStream s r (parseClr j.cmd) = true) :
    ((beginNext s r).clr r).job = some j ∧ ((beginNext s r).clr r).held = [] := by
  have hfind : ((s.clr r).held.find? fun k => ownsStream s r (parseClr k.cmd) && assocFirst s (s.clr r).held k) = some j := by
    rw [hheld, List.find?_singleton, howns, assocFirst_single]
    rfl
  simp only [beginNext, hidle, hserves, hmay, hfind, Option.isSome_none, Bool.not_true, Bool.or_self, Bool.false_eq_true, if_false]
  rw [State.modClr_clr_self, hheld]
  exact ⟨rfl, List.erase_cons_head _ _⟩

/-! ## Issue (11 R336, R337, R351) -/

/-- The job of a command issued in region `r`: it carries its frame and its epoch stamp. -/
def issuedJob (s : State) (r opcode : Nat) (cmd : List Byte) : ClrJob :=
  let f := frameOf s r (parseClr cmd)
  { cmd := cmd, opcode := opcode, region := r, frame := f, epoch := (f.map (·.epoch)).getD s.stl.epoch.toNat }

section
variable {s : State} {r k q : Nat} {cmd : List Byte} (hengine : (if k = 4 then s.keeper else s.clrServing r) = some q)
include hengine

theorem issueClr_of_pass (hpass : clrCheck s k (parseClr cmd) = none) :
    issueClr s r k cmd = beginNext (s.modClr q fun e => { e with held := e.held ++ [issuedJob s r k cmd] }) q := by
  simp only [issueClr, hengine, hpass]
  rfl

/-- A command that fails a check completes; nothing begins. -/
theorem issueClr_of_fail {st : Nat} (hfail : clrCheck s k (parseClr cmd) = some st) :
    (issueClr s r k cmd).clr q = (clrComplete s q (parseClr cmd) st 0 0 0).clr q := by
  simp only [issueClr, hengine, hfail, clrJobFail_clr]
  split
  · exact State.contained_clr _ _ _ _ _ _ _ _
  · rfl

theorem issueClr_begins (hmay : s.mayBegin = true) (hpass : clrCheck s k (parseClr cmd) = none) (hidle : (s.clr q).job = none)
    (hheld : (s.clr q).held = []) (hserves : (s.clr q).fenced = false) (howns : ownsStream s q (parseClr cmd) = true) :
    ((issueClr s r k cmd).clr q).job = some (issuedJob s r k cmd) ∧ ((issueClr s r k cmd).clr q).held = [] := by
  rw [issueClr_of_pass hengine hpass]
  refine beginNext_of_single hmay ?_ ?_ ?_ ?_
  · rw [State.modClr_clr_self, hidle]
  · rw [State.modClr_clr_self, hserves]
  · rw [State.modClr_clr_self, hheld, List.nil_append]
  · exact (ownsStream_modClr s q q _ fun _ => by rfl).trans howns

theorem issueClr_waits (hpass : clrCheck s k (parseClr cmd) = none) (hbusy : (s.clr q).job ≠ none) :
    ((issueClr s r k cmd).clr q).job = (s.clr q).job ∧ ((issueClr s r k cmd).clr q).held = (s.clr q).held ++ [issuedJob s r k cmd] := by
  rw [issueClr_of_pass hengine hpass, beginNext_of_job (by rwa [State.modClr_clr_self]), State.modClr_clr_self]
  exact ⟨rfl, rfl⟩

end

/-- Each of the six commands is issued with its own operation code. -/
theorem exec_clearing {s : State} {r k : Nat} {cmd : List Byte} {i : Instr} (htakes : clrTakes s r = true)
    (hi : (k, i) ∈ [(1, Instr.assoc r cmd), (2, Instr.nms r cmd), (3, Instr.knn r cmd), (4, Instr.ident r cmd), (5, Instr.gather r cmd),
      (6, Instr.scatter r cmd)]) : exec i s = .next (issueClr s r k cmd) := by
  have hissued (opcode : Nat) : done (if clrTakes s r then issueClr s r opcode cmd else s) = .next (issueClr s r opcode cmd) := by
    rw [htakes]
    rfl
  simp only [List.mem_cons, Prod.mk.injEq, List.not_mem_nil, or_false] at hi
  rcases hi with ⟨rfl, rfl⟩ | ⟨rfl, rfl⟩ | ⟨rfl, rfl⟩ | ⟨rfl, rfl⟩ | ⟨rfl, rfl⟩ | ⟨rfl, rfl⟩ <;> exact hissued _

/-! ## Tracks written and closed (11 R344 to R346, R357) -/

section
variable (s : State) (r : Nat)

theorem closeTrack_work (slot reason status : Nat) : ((closeTrack s slot reason status).clr r).work = (s.clr r).work := by
  unfold closeTrack
  extract_lets t s1 s2
  rw [State.clr_of_erase (releaseClosed_erase 64 s2 slot (Nat.and_self _)) rfl]
  exact State.modClr_keeps Clearing.work (s1.setTrack slot _) (fun _ => by rfl) r

theorem touchLine_work (q slot : Nat) (old : Track) : ((touchLine s q slot old).clr r).work = (s.clr r).work := by
  unfold touchLine
  exact s.modClr_keeps Clearing.work (fun _ => by rfl) r

theorem writeTrack_work (q slot : Nat) (t : Track) : ((writeTrack s q slot t).clr r).work = (s.clr r).work :=
  touchLine_work s r q slot (s.track slot)

theorem confirmTrack_work (slot : Nat) (f : Member) : ((confirmTrack s slot f).clr r).work = (s.clr r).work := by
  rw [State.clr_of_erase (confirmTrack_erase s slot f (Nat.and_self _)) rfl]

theorem updateTrack_work (q : Nat) (p : AssocParam) (f : Member) (slot : Nat) (d : Det) :
    ((updateTrack s q p f slot d).clr r).work = (s.clr r).work := by
  unfold updateTrack
  extract_lets
  split
  · rw [confirmTrack_work, writeTrack_work]
  · rw [writeTrack_work]

theorem missTrack_work (q : Nat) (p : AssocParam) (slot : Nat) : ((missTrack s q p slot).clr r).work = (s.clr r).work := by
  unfold missTrack
  extract_lets
  repeat' split
  all_goals simp only [closeTrack_work, writeTrack_work]

theorem openTrack_work (q : Nat) (p : AssocParam) (f : Member) (n : Nat) (d : Det) :
    ((openTrack s q p f n d).1.clr r).work = (s.clr r).work := by
  unfold openTrack
  split
  · rfl
  next slot s1 halloc =>
    extract_lets number _ t s2 s3
    have hopened : (s3.clr r).work = (s.clr r).work := calc
      (s3.clr r).work = (s2.clr r).work := State.modClr_keeps Clearing.work (s2.clrRecord 0x0300 slot stOK {}) (fun _ => by rfl) r
      _ = (s1.clr r).work := writeTrack_work s1 r q slot t
      _ = (s.clr r).work := by rw [State.clr_of_erase (allocSlot_erase s q (Nat.and_self _) _ halloc) rfl]
    split
    · rw [confirmTrack_work]
      exact hopened
    · exact hopened

theorem updateFrame_work (q : Nat) (p : AssocParam) (f : Member) (dets : List Det) (slotOf : Nat → Nat) (a : AssocResult) :
    ((updateFrame s q p f dets slotOf a).clr r).work = (s.clr r).work := by
  unfold updateFrame
  extract_lets s1
  refine (foldl_keeps (fun t => (t.clr r).work) (fun t j => missTrack_work t r q p _) _ s1).trans
    (foldl_keeps (fun t => (t.clr r).work) (fun t e => ?_) _ s)
  split
  · exact updateTrack_work t r q p f _ _
  · rfl

theorem openFresh_work (q : Nat) (p : AssocParam) (f : Member) (n : Nat) (dets : List Det) (fresh : List Nat) :
    ((openFresh s q p f n dets fresh).1.clr r).work = (s.clr r).work := by
  unfold openFresh
  refine List.foldlRecOn (motive := fun x : State × Nat => (x.1.clr r).work = (s.clr r).work) fresh _ rfl fun x hx i _ => ?_
  split
  · exact (openTrack_work x.1 r q p f n _).trans hx
  · exact hx

theorem noteUnresolved_work (q n : Nat) (f : Member) (count : Nat) : ((noteUnresolved s q n f count).clr r).work = (s.clr r).work := by
  unfold noteUnresolved
  split
  · rfl
  · exact State.modClr_keeps Clearing.work (s.emit _) (fun _ => by rfl) r

theorem applyAssoc_work (q : Nat) (f : Member) (c : ClrCmd) : ((applyAssoc s q f c).1.clr r).work = (s.clr r).work := by
  unfold applyAssoc
  extract_lets p dets slots a s2 o _ _ s4 s5 s6
  calc ((appendMask s6 c.stream (maskEntry s6 c.stream f)).clr r).work
      = (s5.clr r).work := by rw [State.clr_of_erase (appendMask_erase s6 _ _ (Nat.and_self _)) rfl]; rfl
    _ = (s2.clr r).work := (noteUnresolved_work s4 r q _ f _).trans (openFresh_work s2 r q p f _ dets _)
    _ = (s.clr r).work := updateFrame_work s r q p f dets _ a

/-- 11 R336: the state after the effect of each command. -/
theorem runClr_fst (q : Nat) (j : ClrJob) (c : ClrCmd) : (runClr s q j c).1 =
    if c.opcode = 1 then handOver (applyAssoc s q (j.frameOr s c.stream) c).1 c.stream
    else if c.opcode = 2 then s.store (s.resolve c.out) ((suppress s c).1.flatMap fun i => leBytes 4 i)
    else if c.opcode = 3 then peerQueries (s.store (s.resolve c.out) (searchAll s c).1) (s.cfgOf j.epoch).model.image c
    else if c.opcode = 4 then (applyIdent s c).1
    else { s with free := s.free + 3 } := by
  unfold runClr
  generalize applyAssoc s q (j.frameOr s c.stream) c = assigned, suppress s c = kept, searchAll s c = found, applyIdent s c = linked
  split_ifs <;> rfl

/-- 11 R337: the effect of a command leaves what every engine knows of its commands. -/
theorem runClr_work (q : Nat) (j : ClrJob) (c : ClrCmd) : ((runClr s q j c).1.clr r).work = (s.clr r).work := by
  rw [runClr_fst]
  split_ifs
  · rw [State.clr_of_erase (handOver_erase _ _ (Nat.and_self _)) rfl, applyAssoc_work]
  · rfl
  · rw [State.clr_of_erase (peerQueries_erase _ _ _ (Nat.and_self _)) rfl]
    rfl
  · rw [State.clr_of_erase (applyIdent_erase s c (Nat.and_self _)) rfl]
  · rfl

end

end Sys2Proof.Machine

/-! Clearing commands from their issue to their commit (11 R336, R337, R347, R348, R351): what the effect of a command does to memory, and what
its commit leaves of the engine. -/

namespace Sys2Proof.Machine

/-! ## The effect on memory -/

section
variable (s : State) (r : Nat) (j : ClrJob) {c : ClrCmd}

theorem runClr_mem_of_nms (hop : c.opcode = 2) :
    (runClr s r j c).1.mem = (s.store (s.resolve c.out) ((suppress s c).1.flatMap fun i => leBytes 4 i)).mem := by
  rw [runClr_fst, if_neg (by omega), if_pos hop]

theorem runClr_mem_of_knn (hop : c.opcode = 3) : (runClr s r j c).1.mem = (s.store (s.resolve c.out) (searchAll s c).1).mem := by
  rw [runClr_fst, if_neg (by omega), if_neg (by omega), if_pos hop]
  exact keeps_mem (peerQueries_erase _ _ c (Nat.and_self _)) rfl

theorem runClr_mem_of_other (hnms : c.opcode ≠ 2) (hknn : c.opcode ≠ 3) : (runClr s r j c).1.mem = s.mem := by
  rw [runClr_fst, if_neg hnms, if_neg hknn]
  split_ifs
  · exact (keeps_mem (handOver_erase _ _ (Nat.and_self _)) rfl).trans (keeps_mem (applyAssoc_erase s r _ c (Nat.and_self _)) rfl)
  · exact keeps_mem (applyIdent_erase s c (Nat.and_self _)) rfl
  · rfl

end

/-! ## The commit (11 R337) -/

/-- The state at the commit of a job: its effect applied, its completion listed, and its engine free. -/
def clrCommitted (s : State) (r : Nat) (j : ClrJob) (cycles : Nat) : State :=
  let c := parseClr j.cmd
  let x := runClr (chargeClr s r j c cycles) r j c
  (clrComplete x.1 r c x.2.1 x.2.2.1 x.2.2.2.1 x.2.2.2.2).modClr r fun e => { e with
    job := none, commands := e.commands + 1, ratio := if r < 2 then s.power.cd0 else s.power.cd1 }

/-- The draw for an audit copy (11 R339). -/
def clrAuditDrawn (s : State) (r g : Nat) : State :=
  if (auditDraw s g).1 then (auditDraw s g).2.modClr r fun e => { e with auditDue := e.auditDue + 1 } else (auditDraw s g).2

theorem exec_clearingCommandCommit {s : State} {r cycles : Nat} {j : ClrJob} (hrun : s.running = true) (hjob : (s.clr r).job = some j)
    (hvoid : clrVoid s (parseClr j.cmd) = false) (hcycles : cycles ≤ 3000000) : exec (.clearingCommandCommit ⟨r, cycles⟩) s
      = .next (beginNext (clrAuditDrawn (clrCommitted s r j cycles) r j.region) r) := by
  change execClearingCommandCommit ⟨r, cycles⟩ s = _
  simp only [execClearingCommandCommit, done, hjob, hrun, hvoid]
  exact congrArg Host.Outcome.next (if_neg (by simpa using hcycles))

theorem clrAuditDrawn_work (s : State) (r g q : Nat) : ((clrAuditDrawn s r g).clr q).work = (s.clr q).work := by
  have hdraw : (auditDraw s g).2.clr q = s.clr q := State.clr_of_erase (auditDraw_erase s g (Nat.and_self _)) rfl q
  unfold clrAuditDrawn
  split
  · exact ((auditDraw s g).2.modClr_keeps Clearing.work (fun _ => by rfl) q).trans (congrArg Clearing.work hdraw)
  · exact congrArg Clearing.work hdraw

theorem clrAuditDrawn_mem (s : State) (r g : Nat) : (clrAuditDrawn s r g).mem = s.mem := by
  have hdraw : (auditDraw s g).2.mem = s.mem := keeps_mem (auditDraw_erase s g (Nat.and_self _)) rfl
  unfold clrAuditDrawn
  split <;> exact hdraw

section
variable (s : State) (r : Nat) (j : ClrJob) (cycles : Nat)

/-- The engine is free, counts the command and lists its completion; what waited on it waits on. -/
theorem clrCommitted_work : ∃ z, ((clrCommitted s r j cycles).clr r).work
      = ⟨none, (s.clr r).held, (s.clr r).commands + 1, (s.clr r).completions ++ [z], (s.clr r).fenced⟩
    ∧ z.number = (parseClr j.cmd).number ∧ z.job = (parseClr j.cmd).job
    ∧ z.status = (runClr (chargeClr s r j (parseClr j.cmd) cycles) r j (parseClr j.cmd)).2.1 := by
  have hrun : ((runClr (chargeClr s r j (parseClr j.cmd) cycles) r j (parseClr j.cmd)).1.clr r).work = (s.clr r).work :=
    (runClr_work _ r r j _).trans (congrArg Clearing.work (State.clr_of_erase (chargeClr_erase s r j _ cycles (Nat.and_self _)) rfl r))
  obtain ⟨-, hheld, hcommands, hcompletions, hfenced⟩ := Clearing.work_eq_iff.mp hrun
  unfold clrCommitted
  rw [State.modClr_clr_self, clrComplete_clr_self, ← hheld, ← hcommands, ← hcompletions, ← hfenced]
  exact ⟨_, rfl, rfl, rfl, rfl⟩

end

/-- Memory after the commit is that of the command's effect. -/
theorem clrCommit_byte (s : State) (r : Nat) (j : ClrJob) (cycles a : Nat) :
    (beginNext (clrAuditDrawn (clrCommitted s r j cycles) r j.region) r).byte a
      = (runClr (chargeClr s r j (parseClr j.cmd) cycles) r j (parseClr j.cmd)).1.byte a :=
  byte_of_mem (h := calc
    _ = (clrAuditDrawn (clrCommitted s r j cycles) r j.region).mem := keeps_mem (beginNext_erase _ r (Nat.and_self _)) rfl
    _ = (clrCommitted s r j cycles).mem := clrAuditDrawn_mem _ r _
    _ = _ := by rw [clrCommitted, State.modClr_mem, clrComplete_mem]) a

theorem chargeClr_byte (s : State) (r : Nat) (j : ClrJob) (c : ClrCmd) (cycles a : Nat) : (chargeClr s r j c cycles).byte a = s.byte a :=
  byte_of_mem (keeps_mem (chargeClr_erase s r j c cycles (Nat.and_self _)) rfl) a

/-! ## Together -/

/-- Settles O36: a command at its start by the rules of `issueClr`; at its commit its engine by `clrCommitted_work` and memory by the rules of
`runClr`. -/
theorem clearingCommandsRunAndCommit : Obligations.ClearingCommandsRunAndCommit := by
  unfold Obligations.ClearingCommandsRunAndCommit
  refine ⟨fun s r k q cmd i htakes hi hengine => ⟨fun hpass hidle hheld hserves howns => ?begun, fun hpass hbusy => ?waiting,
    fun st hfail => ?rejected⟩, fun s u r cycles j c hrun hjob hc hvoid hcycles hu => ?committed⟩
  case begun =>
    obtain ⟨⟨hmay, -⟩, -⟩ : (s.mayBegin = true ∧ decide (r < 4) = true) ∧ s.regionIssues r = true := by
      simpa only [clrTakes, Bool.and_eq_true] using htakes
    obtain ⟨hbegun, hnone⟩ := issueClr_begins (r := r) hengine hmay hpass hidle hheld hserves howns
    exact ⟨_, exec_clearing htakes hi, ⟨_, hbegun, rfl, rfl, rfl⟩, hnone⟩
  case waiting =>
    obtain ⟨hsame, hwaits⟩ := issueClr_waits (r := r) hengine hpass hbusy
    exact ⟨_, _, exec_clearing htakes hi, hsame, hwaits, rfl, rfl, rfl⟩
  case rejected =>
    have hcompleted := (issueClr_of_fail (r := r) hengine hfail).trans (clrComplete_clr_self s q (parseClr cmd) st 0 0 0)
    refine ⟨_, (parseClr cmd).completion st 0 0 0, exec_clearing htakes hi, ?_, ?_, rfl, rfl⟩ <;> rw [hcompleted]
  case committed =>
    subst hc hu
    obtain ⟨z, hwork, hnumber, hof, hstatus⟩ := clrCommitted_work s r j cycles
    obtain ⟨hidle, hheld, hcommands, hcompletions, -⟩ :=
      Clearing.work_eq_iff.mp ((clrAuditDrawn_work (clrCommitted s r j cycles) r j.region r).trans hwork)
    refine ⟨_, z, exec_clearingCommandCommit hrun hjob hvoid hcycles, ?_, ?_, hnumber, hof, hstatus, fun hnone => ?_, fun hop i hi => ?_,
      fun hop i hi => ?_, fun hop a ha => ?_, fun hop a ha => ?_, fun hnms hknn a => ?_⟩
    · rw [beginNext_keeps Clearing.commands (fun _ _ _ _ => rfl), hcommands]
    · rw [beginNext_keeps Clearing.completions (fun _ _ _ _ => rfl), hcompletions]
    · rw [beginNext_of_held_nil (hheld.trans hnone), hidle]
    · rw [clrCommit_byte, byte_of_mem (runClr_mem_of_nms _ r j hop)]
      exact State.store_byte_inside _ _ _ _ _ hi
    · rw [clrCommit_byte, byte_of_mem (runClr_mem_of_knn _ r j hop)]
      exact State.store_byte_inside _ _ _ _ _ hi
    · rw [clrCommit_byte, byte_of_mem (runClr_mem_of_nms _ r j hop)]
      exact (State.store_byte_outside _ _ _ _ _ ha).trans (chargeClr_byte ..)
    · rw [clrCommit_byte, byte_of_mem (runClr_mem_of_knn _ r j hop)]
      exact (State.store_byte_outside _ _ _ _ _ ha).trans (chargeClr_byte ..)
    · rw [clrCommit_byte, byte_of_mem (runClr_mem_of_other _ r j hnms hknn)]
      exact chargeClr_byte ..

end Sys2Proof.Machine

/-! Clearing commands that are abandoned, and the audit of the engines (11 R337, R339, 14 R415, R424). -/

namespace Sys2Proof.Machine

/-! ## A command abandoned (11 R337) -/

section
variable (s : State) (r : Nat) (j : ClrJob) (status : Nat)

/-- The engine is free and lists the completion with its status. -/
theorem abandonClr_clr_self : ∃ z, ((abandonClr s r j status).clr r).completions = (s.clr r).completions ++ [z] ∧ z.status = status
    ∧ ((abandonClr s r j status).clr r).job = none ∧ ((abandonClr s r j status).clr r).held = (s.clr r).held := by
  rw [abandonClr, clrJobFail_clr, State.modClr_clr_self, clrComplete_clr_self]
  exact ⟨_, rfl, rfl, rfl, rfl⟩

/-- With nothing waiting no command begins after it. -/
theorem beginNext_abandonClr (hheld : (s.clr r).held = []) : beginNext (abandonClr s r j status) r = abandonClr s r j status := by
  obtain ⟨z, -, -, -, hsame⟩ := abandonClr_clr_self s r j status
  exact beginNext_of_held_nil (hsame.trans hheld)

theorem abandonClr_ledger : (abandonClr s r j status).ledger = s.ledger := keeps_ledger (abandonClr_erase s r j status (Nat.and_self _)) rfl

theorem abandonClr_flt : (abandonClr s r j status).flt = s.flt := keeps_flt (abandonClr_erase s r j status (Nat.and_self _)) rfl

theorem abandonClr_mem : (abandonClr s r j status).mem = s.mem := keeps_mem (abandonClr_erase s r j status (Nat.and_self _)) rfl

end

/-! ## The commands -/

/-- A command that the watchdog stops the first time: the error counted, BUDGET listed, and the command to run again. -/
def clrRunAgain (s : State) (r : Nat) (j : ClrJob) : State :=
  (clrComplete (s.corrected srcClearingWatchdog r) r (parseClr j.cmd) stBUDGET 0 0 0).modClr r fun e =>
    { e with job := some { j with expiries := 1 } }

theorem clrRunAgain_clr_self (s : State) (r : Nat) (j : ClrJob) : ((clrRunAgain s r j).clr r).job = some { j with expiries := 1 }
    ∧ ((clrRunAgain s r j).clr r).completions = (s.clr r).completions ++ [(parseClr j.cmd).completion stBUDGET 0 0 0] := by
  rw [clrRunAgain, State.modClr_clr_self, clrComplete_clr_self, State.corrected_clr]
  exact ⟨rfl, rfl⟩

/-- The error of a command that the watchdog stops again. -/
def clrExpired (s : State) (r : Nat) (j : ClrJob) : State :=
  let c := parseClr j.cmd
  s.contained { source := srcClearingWatchdog, unit := r, job := c.job, tile := c.number } stBUDGET
    (stream := c.stream) (account := j.account s c)

/-- The tag byte that holds the valid bit of the gallery entry at `a`. -/
def galleryFlagAt (s : State) (a : Nat) : Nat := s.layout.galleryTags + 8 * ((a - s.layout.gallery) / 256) + 5

/-- 14 R415: the live context that lies at a void address of the ledger is closed. -/
def voidContextClosed (s : State) (a : Nat) : State :=
  let slot := (a - s.layout.ledger) / 256
  if s.layout.ledger ≤ a ∧ slot < ledgerSlots ∧ (s.track slot).live then closeTrack s slot 5 stVOID else s

theorem voidContextClosed_work (s : State) (a r : Nat) : ((voidContextClosed s a).clr r).work = (s.clr r).work := by
  unfold voidContextClosed
  extract_lets slot
  split
  · exact closeTrack_work s r slot 5 stVOID
  · rfl

theorem voidContextClosed_mem (s : State) (a : Nat) : (voidContextClosed s a).mem = s.mem := by
  unfold voidContextClosed
  extract_lets slot
  split
  · exact keeps_mem (closeTrack_erase s slot 5 stVOID (Nat.and_self _)) rfl
  · rfl

section
variable {s : State} {r : Nat} {j : ClrJob} (hrun : s.running = true) (hjob : (s.clr r).job = some j)
include hrun hjob

theorem exec_clearingWatchdogExpiry_of_first (hfirst : j.expiries = 0) : exec (.clearingWatchdogExpiry r) s = .next (clrRunAgain s r j) := by
  change execClearingWatchdogExpiry r s = _
  simp only [execClearingWatchdogExpiry, done, hjob, hrun, hfirst, Bool.not_true, Bool.false_eq_true, if_false, if_true]
  rfl

theorem exec_clearingWatchdogExpiry_of_again (hagain : j.expiries ≠ 0) (hheld : (s.clr r).held = []) :
    exec (.clearingWatchdogExpiry r) s = .next (abandonClr (clrExpired s r j) r j stBUDGET) := by
  change execClearingWatchdogExpiry r s = _
  simp only [execClearingWatchdogExpiry, done, hjob, hrun, hagain, Bool.not_true, Bool.false_eq_true, if_false]
  exact congrArg Host.Outcome.next (beginNext_abandonClr (clrExpired s r j) r j stBUDGET hheld)

theorem exec_clearingVoidRead_of_gallery {a : Nat} (hop : (parseClr j.cmd).opcode = 3) (hfrom : s.layout.gallery ≤ a)
    (hto : a < s.layout.gallery + s.cfg.galleryBytes) : exec (.clearingVoidRead r a) s
      = .next (clrComplete (s.store (galleryFlagAt s a) [s.byte (galleryFlagAt s a) &&& 0xFE#8]) r (parseClr j.cmd) stVOID 0 0 0) := by
  change execClearingVoidRead r a s = _
  simp only [execClearingVoidRead, done, hjob, hrun, hop, hfrom, hto, Bool.not_true, Bool.false_eq_true, if_false, and_self, if_true]
  rfl

theorem exec_clearingVoidRead_of_other {a : Nat}
    (hother : (parseClr j.cmd).opcode ≠ 3 ∨ a < s.layout.gallery ∨ s.layout.gallery + s.cfg.galleryBytes ≤ a) (hheld : (s.clr r).held = []) :
    exec (.clearingVoidRead r a) s = .next (abandonClr (voidContextClosed s a) r j stVOID) := by
  have hentry : ¬((parseClr j.cmd).opcode = 3 ∧ s.layout.gallery ≤ a ∧ a < s.layout.gallery + s.cfg.galleryBytes) := by omega
  have hwaits : ((voidContextClosed s a).clr r).held = [] :=
    (congrArg ClrWork.held (voidContextClosed_work s a r)).trans hheld
  change execClearingVoidRead r a s = _
  simp only [execClearingVoidRead, done, hjob, hrun, hentry, Bool.not_true, Bool.false_eq_true, if_false]
  exact congrArg Host.Outcome.next (beginNext_abandonClr (voidContextClosed s a) r j stVOID hwaits)

theorem exec_writeLogOverflow (hheld : (s.clr r).held = []) : exec (.writeLogOverflow r) s = .next (abandonClr s r j stBOUND) := by
  change execWriteLogOverflow r s = _
  simp only [execWriteLogOverflow, done, hjob, hrun, if_true]
  exact congrArg Host.Outcome.next (beginNext_abandonClr s r j stBOUND hheld)

end

/-! ## The fence of a clearing engine (01 R29, 11 R359) -/

section
variable (s : State) (r q : Nat)

theorem flushLine_work (failed : Bool) (k : Nat) (l : Line) (n : Nat) : ((flushLine s q failed k l).clr n).work = (s.clr n).work := by
  unfold flushLine
  split
  · rfl
  · split
    · rfl
    · split
      · exact closeTrack_work s n _ _ _
      · rfl

/-- The lines of a fenced engine flushed in order. -/
def flushLines (failed : Bool) (lines : List Line) : State := lines.zipIdx.foldl (fun a x => flushLine a q failed (x.2 + 1) x.1) s

theorem flushLines_work (failed : Bool) (lines : List Line) (n : Nat) : ((flushLines s q failed lines).clr n).work = (s.clr n).work :=
  foldl_keeps (fun t => (t.clr n).work) (fun t x => by exact flushLine_work t q failed (x.2 + 1) x.1 n) lines.zipIdx s

theorem flushLines_flt (failed : Bool) (lines : List Line) : (flushLines s q failed lines).flt = s.flt :=
  foldl_keeps State.flt (fun t x => by exact keeps_flt (flushLine_erase t q failed (x.2 + 1) x.1 (Nat.and_self _)) rfl) lines.zipIdx s

theorem flushCache_work (n : Nat) : ((flushCache s r q).clr n).work = (s.clr n).work := by
  unfold flushCache
  extract_lets failed lines s1 owned s2
  have hflushed : (s1.clr n).work = (s.clr n).work :=
    ((flushLines s q failed lines).modClr_keeps Clearing.work (fun _ => by rfl) n).trans (flushLines_work s q failed lines n)
  have hpassed : s2.clr n = s1.clr n := foldl_keeps (fun t => t.clr n) (fun _ _ => by rfl) owned s1
  have hcache : (s2.clr n).work = (s.clr n).work := (congrArg Clearing.work hpassed).trans hflushed
  clear_value s2
  split <;> exact hcache

theorem flushCache_disagree : (flushCache s r q).flt.disagree = s.flt.disagree := by
  unfold flushCache
  extract_lets failed lines s1 owned s2
  have hflushed : s1.flt = s.flt := flushLines_flt s q failed lines
  have hpassed : s2.flt = s1.flt := foldl_keeps State.flt (fun _ _ => by rfl) owned s1
  have hcache : s2.flt.disagree = s.flt.disagree := congrArg Flt.disagree (hpassed.trans hflushed)
  clear_value s2
  split <;> exact hcache

/-- The commands and the cache of fenced engine `r` pass to the engine that serves its region, when one does. -/
def passClrWork (s : State) (r : Nat) (work : List ClrJob) : Option Nat → State
  | none => s.modClr r fun e => { e with lines := [] }
  | some q => beginNext ((flushCache s r q).modClr q fun e => { e with held := e.held ++ work }) q

theorem passClrWork_fenced (work : List ClrJob) (heir : Option Nat) (n : Nat) :
    ((passClrWork s r work heir).clr n).fenced = (s.clr n).fenced := by
  cases heir with
  | none => exact s.modClr_keeps Clearing.fenced (fun _ => by rfl) n
  | some q =>
    rw [passClrWork, beginNext_keeps Clearing.fenced (fun _ _ _ _ => rfl), State.modClr_keeps Clearing.fenced _ (fun _ => by rfl)]
    exact congrArg ClrWork.fenced (flushCache_work s r q n)

theorem passClrWork_disagree (work : List ClrJob) (heir : Option Nat) : (passClrWork s r work heir).flt.disagree = s.flt.disagree := by
  cases heir with
  | none => rfl
  | some q => exact (congrArg Flt.disagree (keeps_flt (beginNext_erase _ q (Nat.and_self _)) rfl)).trans (flushCache_disagree s r q)

/-- The engine out of service: it has no command, holds none and its strikes are dropped. -/
def clrFenced (s : State) (r : Nat) : State := s.modClr r fun e => { e with fenced := true, job := none, held := [], strikes := [] }

theorem fenceClearing_eq {source : Nat} (hserves : (s.clr r).fenced = false) : fenceClearing s r source
    = capacityChanged (passClrWork ((clrFenced s r).fenceEvent
        { source := source, unit := r, second := ((clrFenced s r).clrServing r).getD 0xFF } stOK) r
        ((s.clr r).job.toList ++ (s.clr r).held) ((clrFenced s r).clrServing r)) [.clearing r] := by
  rw [fenceClearing, if_neg (Bool.eq_false_iff.mp hserves)]
  rfl

theorem fenceClearing_fenced {source : Nat} (hserves : (s.clr r).fenced = false) :
    ((fenceClearing s r source).clr r).fenced = true := by
  rw [fenceClearing_eq s r hserves, State.clr_of_erase (capacityChanged_erase _ _ (Nat.and_self _)) rfl, passClrWork_fenced]
  have hout : ((clrFenced s r).clr r).fenced = true := by rw [clrFenced, State.modClr_clr_self]
  exact hout

theorem fenceClearing_disagree {source : Nat} (hserves : (s.clr r).fenced = false) :
    (fenceClearing s r source).flt.disagree = s.flt.disagree := by
  rw [fenceClearing_eq s r hserves, capacityChanged_flt, passClrWork_disagree]
  rfl

end

/-! ## The audit copy (11 R339, 14 R424) -/

/-- An audit copy of a command that was drawn has run. -/
def clrAudited (s : State) (r : Nat) : State :=
  ({ s with flt := { s.flt with auditsRun := s.flt.auditsRun + 1 } } : State).modClr r fun e => { e with auditDue := e.auditDue - 1 }

/-- The strikes of a clearing engine with one more. -/
def clrStrikes (s : State) (r : Nat) : List Nat := heldStrikes s (s.clr r).strikes ++ [s.time.elapsed]

/-- A difference found by the copy: counted, a strike, and its record. -/
def clrStruck (s : State) (r : Nat) : State :=
  let counted := ({ s with flt := { s.flt with disagree := s.flt.disagree + 1 } } : State).corrected srcClearingAudit r
  let struck := counted.modClr r fun e => { e with strikes := clrStrikes s r }
  struck.emit (struck.record 0x0604 ucFLT (.flt { cls := 1, source := srcClearingAudit, unit := r, strikes := (clrStrikes s r).length }))

theorem clrAudited_clr_self (s : State) (r : Nat) : (clrAudited s r).clr r = { s.clr r with auditDue := (s.clr r).auditDue - 1 } :=
  State.modClr_clr_self _ r _

theorem clrStrikes_length (s : State) (r : Nat) : (clrStrikes s r).length = (heldStrikes s (s.clr r).strikes).length + 1 :=
  List.length_append

theorem clrStrikes_clrAudited (s : State) (r : Nat) : clrStrikes (clrAudited s r) r = clrStrikes s r := by
  rw [clrStrikes, clrAudited_clr_self]
  rfl

theorem clrStruck_clr_self (s : State) (r : Nat) : (clrStruck s r).clr r = { s.clr r with strikes := clrStrikes s r } := by
  unfold clrStruck
  extract_lets _ counted
  have hcounted : counted.clr r = s.clr r := State.corrected_clr _ _ _ _ _
  change (counted.modClr r fun e => { e with strikes := clrStrikes s r }).clr r = _
  rw [State.modClr_clr_self, hcounted]

/-- The record of a strike is of no stream, so it comes last of the waiting ones. -/
theorem clrStruck_journal (s : State) (r : Nat) :
    ∃ z, (clrStruck s r).journal.waiting = s.journal.waiting ++ [z] ∧ z.type = 0x0604 := by
  rw [clrStruck, State.emit_journal_plain _ _ (Or.inl rfl)]
  exact ⟨_, rfl, rfl⟩

section
variable {s : State} {r : Nat} (hrun : s.running = true) (hr : r < 4) (hserves : (s.clr r).fenced = false) (hdue : 0 < (s.clr r).auditDue)
include hrun hr hserves hdue

theorem exec_clearingAuditCopy_of_same : exec (.clearingAuditCopy r false) s = .next (clrAudited s r) := by
  change execClearingAuditCopy r false s = _
  simp only [execClearingAuditCopy, done, hrun, hr, hserves, hdue, decide_true, Bool.not_false, Bool.and_self, if_true]
  rfl

theorem exec_clearingAuditCopy_of_differs : exec (.clearingAuditCopy r true) s
    = .next (if 3 ≤ (clrStrikes s r).length then fenceClearing (clrStruck (clrAudited s r) r) r srcClearingAudit
      else clrStruck (clrAudited s r) r) := by
  change execClearingAuditCopy r true s = _
  rw [← clrStrikes_clrAudited]
  simp only [execClearingAuditCopy, done, hrun, hr, hserves, hdue, decide_true, Bool.not_false, Bool.not_true, Bool.and_self,
    Bool.false_eq_true, if_true, if_false]
  rfl

end

/-! ## Together -/

/-- Settles O37: an abandoned command by `abandonClr_clr_self` and the parts that `abandonClr` leaves; a void gallery entry by what its one
stored byte reads; an audit copy by `clrAudited` and `clrStruck`, and the third strike by `fenceClearing_fenced`. -/
theorem clearingCommandsAreAbandonedOrAudited : Obligations.ClearingCommandsAreAbandonedOrAudited := by
  unfold Obligations.ClearingCommandsAreAbandonedOrAudited
  refine ⟨fun s r j hrun hjob hfirst => ?first, fun s r j hrun hjob hagain hheld => ?again,
    fun s r a j hrun hjob hop hfrom hto => ?gallery, fun s r a j hrun hjob hheld hother => ?void,
    fun s r j hrun hjob hheld => ?overflow, fun s r hrun hr hserves hdue => ?same,
    fun s r hrun hr hserves hdue hfew => ?strike, fun s r hrun hr hserves hdue hmany => ?fence⟩
  case first =>
    obtain ⟨hstays, hlisted⟩ := clrRunAgain_clr_self s r j
    refine ⟨_, _, exec_clearingWatchdogExpiry_of_first hrun hjob hfirst, hstays, hlisted, rfl, ?_, ?_⟩
    · rw [clrRunAgain, State.modClr_flt, clrComplete_flt, State.corrected_flt_corrected]
    · rw [clrRunAgain, State.modClr_ledger, clrComplete_ledger]
      exact keeps_ledger (s.corrected_erase srcClearingWatchdog r 1 (Nat.and_self _)) rfl
  case again =>
    obtain ⟨z, hlisted, hstatus, hidle, -⟩ := abandonClr_clr_self (clrExpired s r j) r j stBUDGET
    exact ⟨_, z, exec_clearingWatchdogExpiry_of_again hrun hjob hagain hheld, hidle, hlisted, hstatus,
      congrArg Flt.contained (abandonClr_flt (clrExpired s r j) r j stBUDGET), abandonClr_ledger (clrExpired s r j) r j stBUDGET⟩
  case gallery =>
    have hbyte (b : Nat) (t : State) : (clrComplete t r (parseClr j.cmd) stVOID 0 0 0).byte b = t.byte b :=
      byte_of_mem (clrComplete_mem ..) b
    refine ⟨_, exec_clearingVoidRead_of_gallery hrun hjob hop hfrom hto, ?_, ?_, fun b hb => ?_⟩
    · rw [clrComplete_clr_self]
      exact hjob
    · rw [hbyte]
      exact State.store_byte_inside s (galleryFlagAt s a) 0 [_] false Nat.one_pos
    · rw [hbyte]
      exact State.store_byte_outside s _ b _ false (Nat.lt_or_gt_of_ne hb)
  case void =>
    obtain ⟨z, hlisted, hstatus, hidle, -⟩ := abandonClr_clr_self (voidContextClosed s a) r j stVOID
    have hbefore : ((voidContextClosed s a).clr r).completions = (s.clr r).completions :=
      congrArg ClrWork.completions (voidContextClosed_work s a r)
    have hmem : (abandonClr (voidContextClosed s a) r j stVOID).mem = s.mem := (abandonClr_mem ..).trans (voidContextClosed_mem s a)
    exact ⟨_, z, exec_clearingVoidRead_of_other hrun hjob hother hheld, hidle, hbefore ▸ hlisted, hstatus,
      byte_of_mem hmem⟩
  case overflow =>
    obtain ⟨z, hlisted, hstatus, hidle, -⟩ := abandonClr_clr_self s r j stBOUND
    exact ⟨_, z, exec_writeLogOverflow hrun hjob hheld, hidle, hlisted, hstatus, abandonClr_ledger s r j stBOUND⟩
  case same =>
    refine ⟨_, exec_clearingAuditCopy_of_same hrun hr hserves hdue, rfl, ?_, ?_, rfl⟩ <;> rw [clrAudited_clr_self]
  case strike =>
    have hheld : ¬3 ≤ (clrStrikes s r).length := by rw [clrStrikes_length]; omega
    obtain ⟨z, hwaiting, htype⟩ := clrStruck_journal (clrAudited s r) r
    refine ⟨_, (exec_clearingAuditCopy_of_differs hrun hr hserves hdue).trans (congrArg _ (if_neg hheld)), rfl, rfl, ?_, ?_, z, hwaiting, htype⟩
    · rw [clrStruck_clr_self, clrStrikes_clrAudited]
      rfl
    · rw [clrStruck_clr_self, clrAudited_clr_self]
      exact hserves
  case fence =>
    have hheld : 3 ≤ (clrStrikes s r).length := by rw [clrStrikes_length]; omega
    have hstill : ((clrStruck (clrAudited s r) r).clr r).fenced = false := by
      rw [clrStruck_clr_self, clrAudited_clr_self]
      exact hserves
    exact ⟨_, (exec_clearingAuditCopy_of_differs hrun hr hserves hdue).trans (congrArg _ (if_pos hheld)),
      fenceClearing_disagree _ r hstill, fenceClearing_fenced _ r hstill⟩

end Sys2Proof.Machine

/-! Lines, slots and owners of the track ledger (11 R352, R357, R360). -/

namespace Sys2Proof.Machine

/-! ## A line written back (11 R357) -/

/-- A line of `slot` is written back; any other stands. -/
def Line.writtenBack (slot : Nat) (l : Line) : Line := if l.slot = slot then { l with dirty := false, copy := {} } else l

theorem Line.writtenBack_of_ne {slot : Nat} {l : Line} (h : l.slot ≠ slot) : l.writtenBack slot = l := if_neg h

theorem Line.writtenBack_clean {slot : Nat} {l : Line} (h : (l.writtenBack slot).slot = slot) : (l.writtenBack slot).dirty = false := by
  unfold Line.writtenBack at h ⊢
  split
  · rfl
  next hne =>
    rw [if_neg hne] at h
    exact absurd h hne

theorem exec_ledgerWriteback {s : State} (r slot : Nat) (hans : s.answers = true) :
    exec (.ledgerWriteback r slot) s = .next (s.modClr r fun c => { c with lines := c.lines.map (Line.writtenBack slot) }) :=
  congrArg Host.Outcome.next (if_pos hans)

/-! ## A slot leaves quarantine (11 R352) -/

theorem joinTail_freed (s : State) (slot : Nat) : Table.get [] (slot / poolSlots) (joinTail s slot).ledger.freed
    = Table.get [] (slot / poolSlots) s.ledger.freed ++ [slot] :=
  Table.get_set_self _ _ _ _

/-- The slot is that of no track any more and joins the tail of its pool. -/
theorem exec_quarantineEnd {s : State} {slot : Nat} (hans : s.answers = true) (hstate : (s.track slot).state = .quarantine) :
    ∃ t, exec (.quarantineEnd slot) s = .next t ∧ t.track slot = {}
      ∧ Table.get [] (slot / poolSlots) t.ledger.freed = Table.get [] (slot / poolSlots) s.ledger.freed ++ [slot] := by
  have hledger : (s.atElapsed (s.track slot).quarantineUntil).ledger = s.ledger := keeps_ledger (s.atElapsed_erase _ (Nat.and_self _)) rfl
  have hends : (s.answers && (s.track slot).state == .quarantine) = true := by simp [hans, hstate]
  refine ⟨_, congrArg Host.Outcome.next (if_pos hends), Table.get_set_self _ _ _ _, ?_⟩
  rw [← hledger]
  exact joinTail_freed ((s.atElapsed _).setTrack slot {}) slot

/-! ## Tracks pass to another engine (11 R360) -/

/-- Engine `r` drops its lines of `slots`, unless it is the engine that keeps them. -/
def dropLines (slots : List Nat) (keeper : Nat) (s : State) (r : Nat) : State :=
  if r = keeper then s else s.modClr r fun e => { e with lines := e.lines.filter fun l => !slots.contains l.slot }

/-- No line of engine `r` is of one of `slots`. -/
def LinesDropped (slots : List Nat) (r : Nat) (s : State) : Prop := ∀ l ∈ (s.clr r).lines, l.slot ∉ slots

/-- A context names its new owner. -/
def giveTrack (owner : Nat) (s : State) (slot : Nat) : State := s.setTrack slot { s.track slot with owner := owner }

theorem State.track_congr {s t : State} (h : t.ledger = s.ledger) (k : Nat) : t.track k = s.track k := by
  rw [State.track, State.track, h]

theorem dropLines_ledger (slots : List Nat) (keeper : Nat) (s : State) (r : Nat) : (dropLines slots keeper s r).ledger = s.ledger := by
  unfold dropLines
  split <;> rfl

section
variable {slots : List Nat} {keeper r : Nat}

theorem linesDropped_dropLines_self (hne : r ≠ keeper) (s : State) : LinesDropped slots r (dropLines slots keeper s r) := by
  intro l hl
  rw [dropLines, if_neg hne, State.modClr_clr_self] at hl
  simpa using (List.mem_filter.mp hl).2

theorem LinesDropped.dropLines {s : State} (h : LinesDropped slots r s) (r' : Nat) : LinesDropped slots r (dropLines slots keeper s r') := by
  intro l hl
  refine h l ?_
  unfold Machine.dropLines at hl
  split at hl
  · exact hl
  · rw [State.modClr_get] at hl
    split at hl
    next heq => exact heq ▸ List.mem_of_mem_filter hl
    next => exact hl

theorem linesDropped_foldl (hne : r ≠ keeper) (rs : List Nat) {s : State} (h : r ∈ rs ∨ LinesDropped slots r s) :
    LinesDropped slots r (rs.foldl (dropLines slots keeper) s) := by
  induction rs generalizing s with
  | nil => exact h.resolve_left List.not_mem_nil
  | cons r' rs ih =>
    refine ih ?_
    rcases h with hmem | hdropped
    · rcases List.mem_cons.mp hmem with rfl | hrest
      · exact .inr (linesDropped_dropLines_self hne s)
      · exact .inl hrest
    · exact .inr (hdropped.dropLines r')

end

theorem giveTracks_track (owner : Nat) (slots : List Nat) (s : State) (k : Nat) :
    (slots.foldl (giveTrack owner) s).track k = if k ∈ slots then { s.track k with owner := owner } else s.track k := by
  induction slots generalizing s with
  | nil => rfl
  | cons slot slots ih =>
    rw [List.foldl_cons, ih, giveTrack, State.setTrack_get]
    by_cases heq : k = slot
    · subst heq
      simp
    · simp [heq]

/-- The ledger and lines after a handoff of a stream's tracks. -/
def handedOff (s : State) (n q : Nat) : State :=
  (s.liveTracks n).foldl (giveTrack q) ((List.range 4).foldl (dropLines (s.liveTracks n) q) s)

theorem exec_ownershipHandoff {s : State} {n q : Nat} (hrun : s.running = true)
    (hserves : s.clrServing (s.cfg.stream n).region = some q) : exec (.ownershipHandoff n) s = .next (beginNext (handedOff s n q) q) := by
  change execOwnershipHandoff n s = _
  simp only [execOwnershipHandoff, done, hrun, hserves, if_true]
  rfl

theorem handedOff_track (s : State) (n q k : Nat) :
    (handedOff s n q).track k = if k ∈ s.liveTracks n then { s.track k with owner := q } else s.track k := by
  have hdropped : ((List.range 4).foldl (dropLines (s.liveTracks n) q) s).track k = s.track k :=
    State.track_congr (foldl_keeps State.ledger (dropLines_ledger _ q) _ s) k
  rw [handedOff, giveTracks_track, hdropped]

theorem handedOff_lines (s : State) (n q : Nat) {r : Nat} (hr : r < 4) (hne : r ≠ q) : LinesDropped (s.liveTracks n) r (handedOff s n q) := by
  have hgiven : (handedOff s n q).clr r = ((List.range 4).foldl (dropLines (s.liveTracks n) q) s).clr r :=
    foldl_keeps (fun t => t.clr r) (fun _ _ => by rfl) _ _
  rw [LinesDropped, hgiven]
  exact linesDropped_foldl hne _ (.inl (List.mem_range.mpr hr))

/-! ## Together -/

/-- Settles O38: a line by `Line.writtenBack_clean`, a slot by `exec_quarantineEnd`, and owners by what `handedOff` leaves of the contexts and
of the lines, which the next command's beginning keeps. -/
theorem ledgerLinesSlotsAndOwners : Obligations.LedgerLinesSlotsAndOwners := by
  unfold Obligations.LedgerLinesSlotsAndOwners
  refine ⟨fun s r slot hans => ?line, fun s slot hans hstate => ?slot, fun s n q hrun hserves => ?owner⟩
  case line =>
    refine ⟨_, exec_ledgerWriteback r slot hans, fun l hl hslot => ?_, fun l hl hne => ?_, rfl⟩
    · rw [State.modClr_clr_self] at hl
      obtain ⟨x, -, rfl⟩ := List.mem_map.mp hl
      exact Line.writtenBack_clean hslot
    · rw [State.modClr_clr_self]
      exact List.mem_map.mpr ⟨l, hl, Line.writtenBack_of_ne hne⟩
  case slot =>
    obtain ⟨t, hexec, htrack, hfreed⟩ := exec_quarantineEnd hans hstate
    exact ⟨t, hexec, by rw [htrack], by rw [htrack], hfreed⟩
  case owner =>
    have htrack (k : Nat) : (beginNext (handedOff s n q) q).track k = (handedOff s n q).track k :=
      State.track_congr (keeps_ledger (beginNext_erase (handedOff s n q) q (Nat.and_self _)) rfl) k
    refine ⟨_, exec_ownershipHandoff hrun hserves, fun k hk => ?_, fun k hk => ?_, fun r hr hne => ?_⟩
    · rw [htrack, handedOff_track, if_pos hk]
    · rw [htrack, handedOff_track, if_neg hk]
    · rw [beginNext_keeps Clearing.lines (fun _ _ _ _ => rfl)]
      exact handedOff_lines s n q hr hne

end Sys2Proof.Machine

/-! A failed assay of an encoder that serves an output of load 0 (12 R387, 14 R431, 01 R39, R40). -/

namespace Sys2Proof.Machine

/-! ## What the fencing of an encoder counts -/

/-- Encoder `n` is fenced and its outputs have moved; the event of its own fencing is still to be counted. -/
def outputsMoved (s : State) (n : Nat) : State :=
  (s.evidence.outputs.filter fun o => o.encoder == n).foldl moveOutput (s.modEncoder n fun e => { e with fenced := true })

/-- What fences on the way, as the outputs move, is counted beside the encoder itself. -/
theorem fenceEncoder_fenced_count (s : State) (n : Nat) :
    (fenceEncoder s n).flt.fenced = (outputsMoved s n).flt.fenced + 1 := by
  have hdispatched : (fenceEncoder s n).flt = ((outputsMoved s n).fenceEvent { source := 27, unit := n } stOK).flt :=
    keeps_flt (dispatch_erase _ (Nat.and_self _)) rfl
  rw [hdispatched, State.fenceEvent_flt]

/-- The record of a failed assay of start-up is written. -/
def assayFailed (s : State) (n : Nat) : State :=
  let s1 := s.modEncoder n fun e => { e with idleSince := s.time.elapsed, assayed := true }
  s1.emit { s1.record 0x0607 ucENC (.flt { cls := 0, unit := n }) with inst := n, status := stAUDIT }

theorem exec_encoderAssay_failed {s : State} {n : Nat} (hbegin : s.mayBegin = true) (hn : n < 4) (hserves : (s.encoder n).fenced = false)
    (hempty : s.encLoad n = 0) (hfirst : (s.encoder n).assayed = false) :
    exec (.encoderAssay n false) s = .next (fenceEncoder (assayFailed s n) n) := by
  change execEncoderAssay n false s = _
  simp only [execEncoderAssay, done, hbegin, hn, hserves, hempty, hfirst, decide_true, Bool.not_false, Bool.and_self, beq_self_eq_true,
    Bool.false_eq_true, if_true, if_false]
  rfl

/-! ## An encoder without load whose clip replays on a decode engine about to be fenced -/

/-- A clip whose stream has no row in force, so that its load is 0 (12 R370), as it started on encoder 0. -/
def unloadedClip : Output := { req := { ident := 7 }, load := (Cfg.stream {} 0).pixelRate }

/-- The device in operation: decode engine 0 decodes a picture for the replay of the clip, and is fenced once it is free (04 R141). -/
def replayBeforeFence : State :=
  { State.reset with
    phase := .running
    evidence := { outputs := [unloadedClip] }
    decs := [(0, { state := 0, job := some (0, { tick := 0, arrival := 0, epoch := 0, rap := .no, bytes := 0 }), replay := some 7, fence := true })] }

/-- Giving up the clip's replay frees the decode engine, which is fenced there and then. -/
theorem outputsMoved_fences_decodeEngine : (outputsMoved (assayFailed replayBeforeFence 0) 0).flt.fenced = 1 := rfl

theorem failedAssay_counts_two_fences :
    (fenceEncoder (assayFailed replayBeforeFence 0) 0).flt.fenced = replayBeforeFence.flt.fenced + 2 := by
  rw [fenceEncoder_fenced_count, outputsMoved_fences_decodeEngine]
  rfl

/-- Refutes O39: a failed assay counts one fencing only if no output moves. With a clip of load 0 on it an encoder has `encLoad` 0 and
is assayed; the failure gives up the clip's replay, which frees a decode engine that waits to be fenced (01 R39), and two are counted. -/
theorem not_evidenceIsServed : ¬ Obligations.EvidenceIsServed := by
  unfold Obligations.EvidenceIsServed
  rintro ⟨-, -, -, -, -, -, hfailed⟩
  have hbegin : replayBeforeFence.mayBegin = true := by decide
  have hserves : (replayBeforeFence.encoder 0).fenced = false := by decide
  have hempty : replayBeforeFence.encLoad 0 = 0 := by decide
  obtain ⟨t, -, hexec, -, hcount, -⟩ := hfailed replayBeforeFence 0 hbegin (by decide) hserves hempty
  rw [exec_encoderAssay_failed hbegin (by decide) hserves hempty rfl] at hexec
  obtain rfl : fenceEncoder (assayFailed replayBeforeFence 0) 0 = t := Host.Outcome.next.inj hexec
  rw [failedAssay_counts_two_fences] at hcount
  exact absurd hcount (by decide)

end Sys2Proof.Machine

/-! On-site adaptation (13): a job's start, its steps, its gate, and the adoption of the candidate; void data rewritten (14 R416). -/

namespace Sys2Proof.Machine

/-! ## Records (13 R408) -/

/-- A record of adaptation names no stream, so it is handed over last. -/
theorem State.adpRecord_waiting (s : State) (type status : Nat) (p : AdpPl) :
    ∃ x, (s.adpRecord type status p).journal.waiting = s.journal.waiting ++ [x] ∧ x.type = type ∧ x.status = status :=
  ⟨_, congrArg Journal.waiting (State.emit_journal_plain s _ (.inl rfl)), rfl, rfl⟩

/-! ## A job starts (13 R396, R402) -/

/-- The state at the moment a job may start: 60 s after the last one ended. -/
def atJobStart (s : State) : State :=
  match s.adapt.lastEnd with
  | some e => s.atElapsed (e + 60 * second)
  | none => s

/-- The job is the one that runs, at the phase its step asks for. -/
def beginJob (s : State) (a : AdaptSettings) (j : Job) : State :=
  { s with adapt := { s.adapt with
    job := some j, nextJob := j.number + 1, phase := if a.steps ≤ j.step then 3 else 1, step := BitVec.ofNat 64 j.step, resume := none
    dram := [], ownFlash := if j.step = 0 then 0 else 2 } }

/-- The records of a job that starts: one that goes on from a checkpoint has a second. -/
def recordJobStart (s : State) (j : Job) : State :=
  let started := s.adpRecord 0x0501 stOK { job := j.number, step := j.step, samples := j.snapshot.length }
  if j.step = 0 then started else started.adpRecord 0x0503 stOK { job := j.number, reason := 6, step := j.step }

theorem atJobStart_adapt (s : State) : (atJobStart s).adapt = s.adapt := by
  unfold atJobStart
  split
  · exact keeps_adapt (s.atElapsed_erase _ (Nat.and_self _)) rfl
  · rfl

theorem atJobStart_cfg (s : State) : (atJobStart s).cfg = s.cfg := by
  unfold atJobStart
  split
  · exact s.atElapsed_cfg _
  · rfl

theorem atJobStart_elapsed {s : State} {e : Nat} (hphase : s.phase ≠ .inReset) (hlast : s.adapt.lastEnd = some e) :
    e + 60 * second ≤ (atJobStart s).time.elapsed := by
  simp only [atJobStart, hlast, State.atElapsed_elapsed hphase]
  exact le_max_right _ _

theorem recordJobStart_adapt (s : State) (j : Job) : (recordJobStart s j).adapt = s.adapt := by
  unfold recordJobStart
  split <;> rfl

theorem recordJobStart_time (s : State) (j : Job) : (recordJobStart s j).time = s.time := by
  unfold recordJobStart
  split <;> rfl

theorem recordJobStart_record (s : State) (j : Job) : ∃ x ∈ (recordJobStart s j).journal.waiting, x.type = 0x0501 := by
  unfold recordJobStart
  split
  · exact ⟨_, State.mem_emit_waiting.mpr (.inl rfl), rfl⟩
  · exact ⟨_, State.mem_emit_waiting.mpr (.inr (State.mem_emit_waiting.mpr (.inl rfl))), rfl⟩

/-- A new job is a function of the adaptation state and the configuration. -/
theorem newJob_congr {s t : State} (a : AdaptSettings) (hadapt : t.adapt = s.adapt) (hcfg : t.cfg = s.cfg) : newJob t a = newJob s a := by
  have hheads : t.headsInForce a.heads = s.headsInForce a.heads := by simp only [State.headsInForce, hadapt, hcfg]
  have htraining : t.training a = s.training a := by simp only [State.training, hadapt]
  rw [newJob, newJob, hheads, htraining, hadapt]

theorem newJob_snapshot_number (s : State) (a : AdaptSettings) :
    (newJob s a).snapshot = s.training a ∧ (newJob s a).number = s.adapt.nextJob := by
  unfold newJob
  split
  · dsimp only
    split <;> exact ⟨rfl, rfl⟩
  · exact ⟨rfl, rfl⟩

theorem newJob_fresh {s : State} (a : AdaptSettings) (hresume : s.adapt.resume = none) :
    (newJob s a).step = 0 ∧ (newJob s a).weights = s.headsInForce a.heads := by
  simp [newJob, hresume]

theorem startJob_of_due {s : State} {a : AdaptSettings} (hon : s.adaptOn = some a) (hidle : s.adapt.job = none)
    (hbatch : a.batch ≤ (s.training a).length) :
    startJob s = recordJobStart (beginJob (atJobStart s) a (newJob s a)) (newJob s a) := by
  rw [← newJob_congr a (atJobStart_adapt s) (atJobStart_cfg s)]
  have hdue : (s.adapt.job.isSome || decide ((s.training a).length < a.batch)) = false := by simp [hidle, hbatch]
  simp only [startJob, hon, hdue, Bool.false_eq_true, if_false]
  rfl

theorem exec_adaptationJobStart {s : State} {a : AdaptSettings} (hbegin : s.mayBegin = true) (hon : s.adaptOn = some a)
    (hidle : s.adapt.job = none) (hbatch : a.batch ≤ (s.training a).length) :
    exec .adaptationJobStart s = .next (recordJobStart (beginJob (atJobStart s) a (newJob s a)) (newJob s a)) := by
  rw [← startJob_of_due hon hidle hbatch]
  exact congrArg Host.Outcome.next (if_pos hbegin)

/-! ## A step completes (13 R398, R400) -/

theorem countStep_adapt (s : State) (t : Tally) : (countStep s t).adapt = s.adapt := keeps_adapt (countStep_erase s t (Nat.and_self _)) rfl

theorem fireStep_adapt (s : State) (n : Nat) : (fireStep s n).adapt = s.adapt := keeps_adapt (fireStep_erase s n (Nat.and_self _)) rfl

/-- Every 256 steps the newest DRAM checkpoint is the job's, beside the one before it. -/
theorem writeCheckpoints_adapt (s : State) (j : Job) : (writeCheckpoints s j).adapt
    = { s.adapt with dram := if j.step % 256 = 0 then (jobCheckpoint j :: s.adapt.dram).take 2 else s.adapt.dram } := by
  unfold writeCheckpoints
  by_cases hdram : j.step % 256 = 0
  · simp only [if_pos hdram]
    split <;> rfl
  · simp only [if_neg hdram]
    split <;> rfl

/-- What a step makes of the adaptation state. -/
theorem stepComplete_adapt {s : State} {a : AdaptSettings} {j : Job} {inputs : List (List W32)} (hon : s.adaptOn = some a)
    (hjob : s.adapt.job = some j) (hphase : s.adapt.phase = 1) (hlen : inputs.length = a.batch) (hstep : j.step < a.steps) :
    (stepComplete s inputs).adapt = { s.adapt with
      tensors := (stepTensors s a j).map (·.1), job := some (stepJob s a j inputs).1, step := BitVec.ofNat 64 (j.step + 1)
      dram := if (j.step + 1) % 256 = 0 then (jobCheckpoint (stepJob s a j inputs).1 :: s.adapt.dram).take 2 else s.adapt.dram
      phase := if a.steps ≤ j.step + 1 then 3 else 1 } := by
  have hruns : ¬(s.adapt.phase ≠ 1 ∨ inputs.length ≠ a.batch ∨ a.steps ≤ j.step) := by omega
  have hnext : (stepJob s a j inputs).1.step = j.step + 1 := rfl
  simp only [stepComplete, hon, hjob, if_neg hruns]
  by_cases hlast : a.steps ≤ j.step + 1 <;> simp [writeCheckpoints_adapt, countStep_adapt, makeTensors, hnext, hphase, hlast]

/-- The watches that fire at the end of a step leave the adaptation state. -/
theorem stepEnd_adapt (s : State) (inputs : List (List W32)) : (stepEnd s inputs).adapt = (stepComplete s inputs).adapt := by
  simp only [stepEnd]
  split
  · rfl
  · exact fireStep_adapt _ _

theorem exec_adaptationStepComplete {s : State} (inputs : List (List W32)) (hrun : s.running = true) (hregions : s.adapt.regions ≠ 0) :
    exec (.adaptationStepComplete inputs) s = .next (stepEnd s inputs) :=
  congrArg Host.Outcome.next (if_pos (by simp [hrun, hregions]))

/-! ## Internal firmware stages a batch (02 R73, 13 R404) -/

section
variable {s : State} {es : List Entry} {new : Cfg} {at_ : Nat} (adoption failover : Bool) {overlay : Option (List OverlayItem)}

theorem internalBatch_of_pass (hpass : internalChecks s es new at_ overlay = none) :
    ∃ b, (internalBatch s es new at_ adoption failover overlay).stl.batch = some b ∧ b.adoption = adoption ∧ b.src = .internal
      ∧ b.at_ = .time at_ := by
  simp only [internalBatch, hpass]
  exact ⟨_, rfl, rfl, rfl, rfl⟩

theorem internalBatch_of_fail (hfail : internalChecks s es new at_ overlay ≠ none) :
    (internalBatch s es new at_ adoption failover overlay).stl.batch = s.stl.batch := by
  obtain ⟨f, hf⟩ := Option.ne_none_iff_exists'.mp hfail
  simp only [internalBatch, hf, State.checkFailed, State.pageDone_stl, Stl.setPage_batch]

end

/-- What staging an adoption makes of the adaptation state: one more attempt, to be made again when no batch came of it. -/
theorem stageAdoption_adapt (s : State) : (stageAdoption s).adapt
    = { s.adapt with attempts := s.adapt.attempts + 1, retry := (stageAdoption s).stl.batch.isNone } := by
  have hkept : (internalBatch s [adoptionEntry s] s.cfg (s.time.now + second) true false).adapt = s.adapt :=
    keeps_adapt (internalBatch_erase _ _ _ _ _ _ _ (Nat.and_self _)) rfl
  simp only [stageAdoption, hkept]

theorem stageAdoption_journal (s : State) : (stageAdoption s).journal = s.journal :=
  keeps_journal (stageAdoption_erase s (Nat.and_self _)) rfl

theorem stageAdoption_of_pass {s : State} (hpass : internalChecks s [adoptionEntry s] s.cfg (s.time.now + second) none = none) :
    ∃ b, (stageAdoption s).stl.batch = some b ∧ b.adoption = true ∧ b.src = .internal ∧ b.at_ = .time (s.time.now + second) :=
  internalBatch_of_pass true false hpass

theorem stageAdoption_of_fail {s : State} (hfail : internalChecks s [adoptionEntry s] s.cfg (s.time.now + second) none ≠ none) :
    (stageAdoption s).stl.batch = s.stl.batch :=
  internalBatch_of_fail true false hfail

/-! ## The gate (13 R403) -/

theorem gatePasses_iff {a : AdaptSettings} {v : List Sample} {candidate inForce : List (List W32)} :
    gatePasses a v candidate inForce = true
      ↔ a.leastVal ≤ v.length ∧ correctCount a.heads v inForce + a.margin ≤ correctCount a.heads v candidate := by
  simp [gatePasses]

section
variable (s : State) (a : AdaptSettings) (j : Job) (candidate inForce : List (List W32))

/-- The job is over; a candidate that passes is kept for its adoption. -/
theorem gateOutcome_adapt : (gateOutcome s a j candidate inForce).adapt = { s.adapt with
    tensors := ((s.validation a).map fun x => validationTensor s.cfg.sampleInput (s.cfg.stream x.stream) x).map (·.1)
    job := none, status := if gatePasses a (s.validation a) candidate inForce then stOK else stRANGE
    lastEnd := some s.time.elapsed, attempts := 0, phase := if gatePasses a (s.validation a) candidate inForce then 4 else 0
    candidate := if gatePasses a (s.validation a) candidate inForce then some (headImageDigest j.weights, j.weights) else none
    candidateJob := j.number } := rfl

theorem gateOutcome_stl : (gateOutcome s a j candidate inForce).stl = s.stl := rfl

theorem gateOutcome_record : ∃ x, (gateOutcome s a j candidate inForce).journal.waiting = s.journal.waiting ++ [x] ∧ x.type = 0x0504
    ∧ x.status = if gatePasses a (s.validation a) candidate inForce then stOK else stRANGE :=
  State.adpRecord_waiting (makeTensors s _) _ _ _

end

section
variable {s : State} {a : AdaptSettings} {j : Job} {p q : List (List W32)} (hbegin : s.mayBegin = true) (hon : s.adaptOn = some a)
  (hjob : s.adapt.job = some j) (hphase : s.adapt.phase = 3) (hfree : s.adapt.candidate = none)
  (hp : p.length = (s.validation a).length) (hq : q.length = (s.validation a).length)
include hbegin hon hjob hphase hfree hp hq

/-- The gate of a job that has run its steps; a batch or an update that is pending holds the adoption. -/
theorem exec_adaptationGate : exec (.adaptationGate p q) s = .next (
    let outcome := gateOutcome s a j (candidateLogits a.heads j.weights p) q
    if !gatePasses a (s.validation a) (candidateLogits a.heads j.weights p) q then outcome
    else if s.stl.batch.isSome || s.stl.update.isSome then { outcome with adapt := { outcome.adapt with retry := true } }
    else stageAdoption outcome) := by
  have hready : ¬(s.adapt.phase ≠ 3 ∨ s.adapt.candidate.isSome = true ∨ p.length ≠ (s.validation a).length
      ∨ q.length ≠ (s.validation a).length) := by simp [hphase, hfree, hp, hq]
  change execAdaptationGate p q s = _
  simp only [execAdaptationGate, done, hbegin, if_true, runGate, hon, hjob, if_neg hready]
  rfl

theorem exec_adaptationGate_of_pass (hpass : gatePasses a (s.validation a) (candidateLogits a.heads j.weights p) q = true)
    (hbatch : s.stl.batch = none) (hupdate : s.stl.update = none) :
    exec (.adaptationGate p q) s = .next (stageAdoption (gateOutcome s a j (candidateLogits a.heads j.weights p) q)) := by
  rw [exec_adaptationGate hbegin hon hjob hphase hfree hp hq]
  simp [hpass, hbatch, hupdate]

theorem exec_adaptationGate_of_fail (hfail : gatePasses a (s.validation a) (candidateLogits a.heads j.weights p) q = false) :
    exec (.adaptationGate p q) s = .next (gateOutcome s a j (candidateLogits a.heads j.weights p) q) := by
  rw [exec_adaptationGate hbegin hon hjob hphase hfree hp hq]
  simp only [hfail, Bool.not_false, if_true]

end

/-! ## An adoption is tried again (13 R404) -/

/-- A candidate that waits is staged at most twice. -/
theorem exec_adoptionRetry {s : State} (hrun : s.running = true) (hretry : s.adapt.retry = true) (hbatch : s.stl.batch = none)
    (hupdate : s.stl.update = none) (hcandidate : s.adapt.candidate ≠ none) :
    exec .adoptionRetry s = .next (if s.adapt.attempts < 2 then stageAdoption s else abandonAdoption s) :=
  congrArg Host.Outcome.next (if_pos (by simp [hrun, hretry, hbatch, hupdate, Option.isSome_iff_ne_none, hcandidate]))

theorem abandonAdoption_record (s : State) :
    ∃ x, (abandonAdoption s).journal.waiting = s.journal.waiting ++ [x] ∧ x.type = 0x0507 :=
  let ⟨x, hwaiting, htype, _⟩ := State.adpRecord_waiting _ _ _ _
  ⟨x, hwaiting, htype⟩

/-! ## Void data rewritten (14 R416, 07 R244) -/

/-- Whole granules stored without a mark are not void. -/
theorem State.anyVoid_store_whole (s : State) {a : Nat} {bs : List Byte} (hstart : a % 64 = 0) (hend : bs.length % 64 = 0) :
    (s.store a bs).anyVoid a bs.length = false := by
  rw [Bool.eq_false_iff, Ne, State.anyVoid_iff]
  rintro ⟨g, hg, hvoid⟩
  have hkept : g ∉ wholeGranules a bs.length := ((State.mem_store_voids.mp hvoid).resolve_left fun h => Bool.false_ne_true h.1).2
  rw [mem_granulesOf] at hg
  exact hkept (mem_wholeGranules.mpr (by omega))

theorem exec_voidRestore {s : State} {a : Nat} {bs : List Byte} (hans : s.answers = true) (halign : a % 64 = 0) (hlen : bs.length = 64)
    (hmem : inDeviceMemory a 64 = true) : exec (.voidRestore a bs) s = .next (s.store a bs) :=
  congrArg Host.Outcome.next (if_pos (by simp [hans, halign, hlen, hmem]))

/-! ## Together -/

/-- Settles O40: a job's start by the rules of `newJob` and of its moment, a step by `stepComplete_adapt`, the gate by those of
`gateOutcome`, the staging of an adoption by those of `stageAdoption`, and a restored granule by those of a store. -/
theorem headsAreAdaptedAndAdopted : Obligations.HeadsAreAdaptedAndAdopted := by
  unfold Obligations.HeadsAreAdaptedAndAdopted
  refine ⟨fun s a hbegin hon hidle hbatch => ?start, fun s a j inputs hrun hregions hon hjob hphase hlen hstep => ?step,
    fun s a j p q hbegin hon hjob hphase hfree hp hq hbatch hupdate hleast hmargin hchecks => ?pass,
    fun s a j p q hbegin hon hjob hphase hfree hp hq hshort => ?fail,
    fun s hrun hretry hbatch hupdate hcandidate hfew hchecks => ?staged,
    fun s hrun hretry hbatch hupdate hcandidate hfew hchecks => ?again,
    fun s hrun hretry hbatch hupdate hcandidate hmany => ?abandoned, fun s a bs hans halign hlen hmem => ?restored⟩
  case start =>
    obtain ⟨hsnapshot, hnumber⟩ := newJob_snapshot_number s a
    obtain ⟨x, hx, htype⟩ := recordJobStart_record (beginJob (atJobStart s) a (newJob s a)) (newJob s a)
    refine ⟨_, newJob s a, x, exec_adaptationJobStart hbegin hon hidle hbatch, ?_, hsnapshot, hnumber, ?_, ?_, hx, htype,
      fun e hlast => ?_, newJob_fresh a⟩
    · rw [recordJobStart_adapt, beginJob]
    · rw [recordJobStart_adapt, beginJob, hnumber]
    · rw [recordJobStart_adapt, beginJob]
    · rw [recordJobStart_time]
      exact atJobStart_elapsed (State.not_inReset_of_running (Bool.and_eq_true_iff.mp hbegin).1) hlast
  case step =>
    refine ⟨_, exec_adaptationStepComplete inputs hrun hregions, ?_⟩
    rw [stepEnd_adapt, stepComplete_adapt hon hjob hphase hlen hstep]
    exact ⟨rfl, rfl, rfl, fun hdue => by simp [hdue], fun hnone => if_neg hnone⟩
  case pass =>
    have hpass := gatePasses_iff.mpr ⟨hleast, hmargin⟩
    obtain ⟨b, hstaged, hadoption, hsrc, hat⟩ := stageAdoption_of_pass hchecks
    obtain ⟨x, hx, htype, hstatus⟩ := gateOutcome_record s a j (candidateLogits a.heads j.weights p) q
    refine ⟨_, b, x, exec_adaptationGate_of_pass hbegin hon hjob hphase hfree hp hq hpass hbatch hupdate, ?_, ?_, hstaged, hadoption, hsrc,
      hat, ?_, htype, ?_⟩
    · rw [stageAdoption_adapt, gateOutcome_adapt]
    · rw [stageAdoption_adapt, gateOutcome_adapt, hpass]
      rfl
    · rw [stageAdoption_journal, hx]
    · rw [hstatus, hpass, if_pos rfl]
  case fail =>
    have hfail : gatePasses a (s.validation a) (candidateLogits a.heads j.weights p) q = false := by
      rw [Bool.eq_false_iff, Ne, gatePasses_iff]
      omega
    obtain ⟨x, hx, htype, -⟩ := gateOutcome_record s a j (candidateLogits a.heads j.weights p) q
    refine ⟨_, x, exec_adaptationGate_of_fail hbegin hon hjob hphase hfree hp hq hfail, ?_, ?_, ?_, gateOutcome_stl _ _ _ _ _, hx, htype⟩
    all_goals rw [gateOutcome_adapt, hfail]
    all_goals rfl
  case staged =>
    obtain ⟨b, hstaged, hadoption, -, -⟩ := stageAdoption_of_pass hchecks
    rw [exec_adoptionRetry hrun hretry hbatch hupdate hcandidate, if_pos hfew]
    refine ⟨_, b, rfl, hstaged, hadoption, ?_⟩
    rw [stageAdoption_adapt, hstaged]
    exact ⟨rfl, rfl, rfl⟩
  case again =>
    have hnone := (stageAdoption_of_fail hchecks).trans hbatch
    rw [exec_adoptionRetry hrun hretry hbatch hupdate hcandidate, if_pos hfew]
    refine ⟨_, rfl, hnone, ?_⟩
    rw [stageAdoption_adapt, hnone]
    exact ⟨rfl, rfl⟩
  case abandoned =>
    obtain ⟨x, hx, htype⟩ := abandonAdoption_record s
    rw [exec_adoptionRetry hrun hretry hbatch hupdate hcandidate, if_neg (by omega)]
    exact ⟨_, x, rfl, hbatch, rfl, fun hidle => if_neg (by simp [hidle]), hx, htype⟩
  case restored =>
    refine ⟨_, exec_voidRestore hans halign hlen hmem, ?_, fun i hi => s.store_byte_inside a i bs false hi,
      fun b hb => s.store_byte_outside a b bs false (by omega)⟩
    rw [← hlen]
    exact s.anyVoid_store_whole halign (by omega)

end Sys2Proof.Machine

/-! The machine as a whole (00, 95): a step runs its front command, every command answers a next state, leaves what its table of parts
does not name, and keeps stored data canonical. -/

namespace Sys2Proof.Machine

/-- Settles O2: `step_of_cons`. -/
theorem stepRunsFrontCommand : Obligations.StepRunsFrontCommand := fun _ _ _ h => step_of_cons h

/-- Settles O4: each command's meaning ends in `done`. -/
theorem everyCommandGivesANextState : Obligations.EveryCommandGivesANextState := by
  intro c s
  cases c <;> exact ⟨_, rfl⟩

/-- What the mask of a list of parts leaves in place agrees. -/
theorem Part.same_of_erase {m : Nat} {s t : State} (h : t.erase m = s.erase m) {p : Part} (hp : m.testBit p.ctorIdx = false) :
    p.same s t := by
  cases p with
  | phase => exact keeps_phase h hp
  | boot => exact keeps_boot h hp
  | pins => exact keeps_pins h hp
  | power => exact keeps_power h hp
  | fuses => exact keeps_fuses h hp
  | flash => exact keeps_flash h hp
  | layout => exact keeps_layout h hp
  | cfg => exact keeps_cfg h hp
  | cfgOld => exact keeps_cfgOld h hp
  | stl => exact keeps_stl h hp
  | time => exact keeps_time h hp
  | journal => exact keeps_journal h hp
  | streams => exact keeps_streams h hp
  | decs => exact keeps_decs h hp
  | accts => exact keeps_accts h hp
  | rolling => exact keeps_rolling h hp
  | preConvSat => exact keeps_preConvSat h hp
  | ingUnmatched => exact keeps_ingUnmatched h hp
  | engines => exact keeps_engines h hp
  | halo => exact keeps_halo h hp
  | haloBack => exact keeps_haloBack h hp
  | regions => exact keeps_regions h hp
  | switch => exact keeps_switch h hp
  | clrs => exact keeps_clrs h hp
  | ledger => exact keeps_ledger h hp
  | encs => exact keeps_encs h hp
  | evidence => exact keeps_evidence h hp
  | adapt => exact keeps_adapt h hp
  | flt => exact keeps_flt h hp
  | saf => exact keeps_saf h hp
  | drams => exact keeps_drams h hp
  | pci => exact keeps_pci h hp
  | nets => exact keeps_nets h hp
  | lnk => exact keeps_lnk h hp
  | sec => exact keeps_sec h hp
  | dbg => exact keeps_dbg h hp
  | tills => exact keeps_tills h hp
  | devTills => exact keeps_devTills h hp
  | bridges => exact keeps_bridges h hp
  | arbs => exact keeps_arbs h hp
  | passbook => exact keeps_passbook h hp
  | mem => exact keeps_mem h hp
  | voids => exact keeps_voids h hp
  | smbOffset => exact keeps_smbOffset h hp
  | latched => exact keeps_latched h hp
  | readback => exact keeps_readback h hp
  | poisoned => exact keeps_poisoned h hp
  | nak => exact keeps_nak h hp
  | free => exact keeps_free h hp
  | pending => exact keeps_pending h hp

/-- Settles O3: `exec_erase` leaves out exactly the parts of the command's list. -/
theorem everyCommandKeepsItsFrame : Obligations.EveryCommandKeepsItsFrame := fun _ _ _ h p hp =>
  Part.same_of_erase (exec_erase h) ((testBit_partsMask _ p).trans (decide_eq_false hp))

/-- A command that writes neither memory nor the void granules keeps stored data canonical. -/
theorem exec_stored_of_unwritten {c : Instr} {s t : State} (h : exec c s = .next t) (st : s.Stored) (hmem : .mem ∉ writes c)
    (hvoids : .voids ∉ writes c) : t.Stored :=
  stored_of_erase (exec_erase h) ((testBit_partsMask _ .mem).trans (decide_eq_false hmem))
    ((testBit_partsMask _ .voids).trans (decide_eq_false hvoids)) st

theorem exec_stored {c : Instr} {s t : State} (h : exec c s = .next t) (st : s.Stored) : t.Stored := by
  cases c with
  | registerWrite => exact execRegisterWrite_stored _ _ _ _ s st t h
  | bridgeHalfWidth => exact execBridgeHalfWidth_stored _ s st t h
  | bridgeLost => exact execBridgeLost_stored _ s st t h
  | chipArbGrant => exact execChipArbGrant_stored _ _ _ s st t h
  | regionXbarGrant => exact execRegionXbarGrant_stored _ _ _ _ s st t h
  | engineBankGrant => exact execEngineBankGrant_stored _ _ _ s st t h
  | cellPipelineCycle => exact execCellPipelineCycle_stored _ _ s st t h
  | chipWatchdogExpiry => exact execChipWatchdogExpiry_stored s st t h
  | chipControllerRestarted => exact execChipControllerRestarted_stored s st t h
  | resetAssert => exact execResetAssert_stored _ s st t h
  | pwrgoodFall => exact execPwrgoodFall_stored s st t h
  | dramTrainingComplete => exact execDramTrainingComplete_stored _ _ s st t h
  | slotReadComplete => exact execSlotReadComplete_stored s st t h
  | firmwareStarted => exact execFirmwareStarted_stored s st t h
  | bootAssayComplete => exact execBootAssayComplete_stored _ s st t h
  | charterUpdate => exact execCharterUpdate_stored _ _ s st t h
  | rebootReset => exact execRebootReset_stored s st t h
  | epochInstant => exact execEpochInstant_stored s st t h
  | drainBoundExpiry => exact execDrainBoundExpiry_stored s st t h
  | rollingRestartNext => exact execRollingRestartNext_stored _ s st t h
  | ptpSync => exact execPtpSync_stored _ _ _ _ _ _ _ s st t h
  | ptpFollowUp => exact execPtpFollowUp_stored _ _ _ _ _ s st t h
  | timeinPulse => exact execTimeinPulse_stored s st t h
  | stationTimeStep => exact execStationTimeStep_stored s st t h
  | rtpDatagram => exact execRtpDatagram_stored _ s st t h
  | commandRingFetch => exact execCommandRingFetch_stored s st t h
  | pushPayloadComplete => exact execPushPayloadComplete_stored _ _ s st t h
  | decodePictureComplete => exact execDecodePictureComplete_stored _ _ s st t h
  | decodeBudgetExhausted => exact execDecodeBudgetExhausted_stored _ _ s st t h
  | journalRecordAppend => exact execJournalRecordAppend_stored s st t h
  | preprocessComplete => exact execPreprocessComplete_stored _ _ _ _ s st t h
  | tileCommit => exact execTileCommit_stored _ _ s st t h
  | operandParityError => exact execOperandParityError_stored _ _ s st t h
  | descriptorAccessFault => exact execDescriptorAccessFault_stored _ s st t h
  | voidOperand => exact execVoidOperand_stored _ s st t h
  | tileWatchdogExpiry => exact execTileWatchdogExpiry_stored _ s st t h
  | engineScrub => exact execEngineScrub_stored _ _ _ s st t h
  | dmaComplete => exact execDmaComplete_stored _ s st t h
  | haloGroupReceived => exact execHaloGroupReceived_stored _ _ s st t h
  | partArrival => exact execPartArrival_stored _ _ _ _ _ _ s st t h
  | sendComplete => exact execSendComplete_stored _ s st t h
  | clearingCommandCommit => exact execClearingCommandCommit_stored _ s st t h
  | clearingVoidRead => exact execClearingVoidRead_stored _ _ s st t h
  | voidRestore => exact execVoidRestore_stored _ _ s st t h
  | auditCopy => exact execAuditCopy_stored _ _ _ _ s st t h
  | auditThirdRun => exact execAuditThirdRun_stored _ _ _ _ s st t h
  | engineHandoverCopyComplete => exact execEngineHandoverCopyComplete_stored _ _ s st t h
  | handoverNoAnswer => exact execHandoverNoAnswer_stored _ s st t h
  | supplyMonitorFault => exact execSupplyMonitorFault_stored _ _ s st t h
  | chipFatal => exact execChipFatal_stored _ _ s st t h
  | zoneTensorComplete => exact execZoneTensorComplete_stored _ _ _ _ s st t h
  | zonePeriodBoundary => exact execZonePeriodBoundary_stored _ _ s st t h
  | dramRetrain => exact execDramRetrain_stored _ _ _ _ _ s st t h
  | dramScrub => exact execDramScrub_stored _ _ _ s st t h
  | regionScrub => exact execRegionScrub_stored _ _ _ s st t h
  | journalRingDeliver => exact execJournalRingDeliver_stored _ s st t h
  | hostReadFailure => exact execHostReadFailure_stored _ s st t h
  | bar2Write => exact execBar2Write_stored _ _ s st t h
  | peerLost => exact execPeerLost_stored _ s st t h
  | sanorResult => exact execSanorResult_stored _ _ _ _ s st t h
  | peerQueryTimeout => exact execPeerQueryTimeout_stored _ s st t h
  | traceBufferFlush => exact execTraceBufferFlush_stored _ _ s st t h
  | watchCopyComplete => exact execWatchCopyComplete_stored _ _ _ _ s st t h
  | halt => exact execHalt_stored s st t h
  | haltImmediate => exact execHaltImmediate_stored s st t h
  | referenceClockLoss => exact execReferenceClockLoss_stored _ s st t h
  | droopDetected => exact execDroopDetected_stored _ s st t h
  | thermalTrip => exact execThermalTrip_stored s st t h
  | smbusWrite => exact execSmbusWrite_stored _ _ s st t h
  | _ => exact exec_stored_of_unwritten h st (by rw [writes]; decide) (by rw [writes]; decide)

/-- Settles O5: the front command by `exec_stored`, and an empty queue moves the clock alone. -/
theorem stepKeepsStoredDataCanonical : Obligations.StepKeepsStoredDataCanonical := by
  intro s t st h
  cases hq : s.pending with
  | nil =>
    rw [step_of_nil hq] at h
    exact Host.Outcome.next.inj h ▸ stored_of_erase (clockTick_erase s (Nat.and_self _)) rfl rfl st
  | cons c rest =>
    rw [step_of_cons hq] at h
    exact exec_stored h st

end Sys2Proof.Machine

/-! The JTAG port (20 R595): which instruction an opcode selects, and the record of one of the maker's. -/

namespace Sys2Proof.Machine

section
variable {s : State} {op : Nat}

/-- BYPASS, IDCODE and SAMPLE/PRELOAD need nothing. -/
theorem jtagSelect_always (h : op = 1 ∨ op = 2) : jtagSelect s op = op := if_pos h

theorem jtagSelect_boundary (h : op = 0 ∨ op = 4 ∨ op = 5) :
    jtagSelect s op = if s.pins.resetN = true then 0xFF else op := by
  have hplain : ¬ (op = 1 ∨ op = 2) := by omega
  have hprivate : ¬ (0x80 ≤ op ∧ op ≤ 0xFE ∧ s.privateAllowed) := by omega
  rw [jtagSelect, if_neg hplain, if_neg hprivate]
  cases hreset : s.pins.resetN <;> simp [h]

theorem jtagSelect_private (hlo : 0x80 ≤ op) (hhi : op ≤ 0xFE) :
    jtagSelect s op = if s.privateAllowed then op else 0xFF := by
  have hplain : ¬ (op = 1 ∨ op = 2) := by omega
  have hboundary : ¬ ((op = 0 ∨ op = 4 ∨ op = 5) ∧ !s.pins.resetN) := by omega
  rw [jtagSelect, if_neg hplain, if_neg hboundary]
  simp only [hlo, hhi, true_and]

theorem jtagSelect_unknown (h : op = 3 ∨ (6 ≤ op ∧ op < 0x80) ∨ op = 0xFF) : jtagSelect s op = 0xFF := by
  have hplain : ¬ (op = 1 ∨ op = 2) := by omega
  have hboundary : ¬ ((op = 0 ∨ op = 4 ∨ op = 5) ∧ !s.pins.resetN) := by omega
  have hprivate : ¬ (0x80 ≤ op ∧ op ≤ 0xFE ∧ s.privateAllowed) := by omega
  rw [jtagSelect, if_neg hplain, if_neg hboundary, if_neg hprivate]

/-- An instruction that is open to all is selected and writes no record. -/
theorem exec_jtagInstruction_public (hop : op < 256) {k : Nat} (hsel : jtagSelect s op = k) (hk : k < 0x80 ∨ k = 0xFF) :
    ∃ t, exec (.jtagInstruction op) s = .next t ∧ t.dbg = { s.dbg with jtag := k } ∧ t.journal = s.journal := by
  have hpublic : ¬ (0x80 ≤ k ∧ k ≤ 0xFE ∧ s.answers) := by omega
  have hexec : exec (.jtagInstruction op) s = .next { s with dbg := { s.dbg with jtag := k } } := by
    change execJtagInstruction op s = _
    simp only [execJtagInstruction, Nat.mod_eq_of_lt hop, hsel, if_neg hpublic, done]
  exact ⟨_, hexec, rfl, rfl⟩

/-- An instruction of the maker's that is allowed writes record 0x0A03. -/
theorem exec_jtagInstruction_private (hlo : 0x80 ≤ op) (hhi : op ≤ 0xFE) (hallowed : s.privateAllowed = true)
    (hans : s.answers = true) :
    ∃ t x, exec (.jtagInstruction op) s = .next t ∧ t.dbg = { s.dbg with jtag := op }
      ∧ t.journal.waiting = s.journal.waiting ++ [x] ∧ x.type = 0x0A03 := by
  have hsel : jtagSelect s op = op := by rw [jtagSelect_private hlo hhi, if_pos hallowed]
  have hexec : exec (.jtagInstruction op) s = .next (({ s with dbg := { s.dbg with jtag := op } } : State).emit
      (({ s with dbg := { s.dbg with jtag := op } } : State).record 0x0A03 ucDBG (.dbg { code := op }))) := by
    change execJtagInstruction op s = _
    simp only [execJtagInstruction, Nat.mod_eq_of_lt (show op < 256 by omega), hsel, hlo, hhi, hans, true_and, if_true, done]
  exact ⟨_, _, hexec, rfl, congrArg Journal.waiting (State.emit_journal_plain _ _ (.inl rfl)), rfl⟩

end

/-- Settles O56: what each range of opcodes selects, by the lemmas of `jtagSelect`, and whether it writes the record. -/
theorem jtagSelectsAllowedInstructions : Obligations.JtagSelectsAllowedInstructions := by
  refine ⟨fun s op hop => ⟨fun h => ?always, fun h => ?boundary, fun hlo hhi hlife hperm => ?barred,
    fun hlo hhi hallow hans => ?allowed, fun h => ?unknown⟩, fun s => rfl⟩
  case always => exact exec_jtagInstruction_public hop (jtagSelect_always h) (by omega)
  case boundary =>
    obtain ⟨t, ht, hdbg, hjournal⟩ := exec_jtagInstruction_public hop (jtagSelect_boundary (s := s) h) (by split <;> omega)
    exact ⟨t, ht, hjournal, hdbg⟩
  case barred =>
    have hbarred : s.privateAllowed = false := by simp [State.privateAllowed, hlife, hperm]
    refine exec_jtagInstruction_public hop ?_ (.inr rfl)
    rw [jtagSelect_private hlo hhi, hbarred]
    rfl
  case allowed => exact exec_jtagInstruction_private hlo hhi (by simpa [State.privateAllowed] using hallow) hans
  case unknown => exact exec_jtagInstruction_public hop (jtagSelect_unknown h) (.inr rfl)

end Sys2Proof.Machine

/-! The management port (21 R611, R612): what each SMBus command does to the offset, and through it to the register file. -/

namespace Sys2Proof.Machine

theorem leNat_lt (bs : List Byte) : leNat bs < 2 ^ (8 * bs.length) := by
  induction bs with
  | nil => simp [leNat]
  | cons b bs ih =>
    have hb := b.isLt
    have hpow : 2 ^ (8 * (bs.length + 1)) = 256 * 2 ^ (8 * bs.length) := by rw [Nat.mul_add, Nat.pow_add, Nat.mul_comm]
    rw [leNat, List.length_cons, hpow]
    omega

/-- Up to eight bytes make up a 64-bit value. -/
theorem toNat_ofNat_leNat {bs : List Byte} (h : bs.length ≤ 8) : (BitVec.ofNat 64 (leNat bs)).toNat = leNat bs := by
  rw [BitVec.toNat_ofNat, Nat.mod_eq_of_lt]
  exact (leNat_lt bs).trans_le (Nat.pow_le_pow_right (by decide) (by omega))

section
variable {s : State} {bs : List Byte} {pec : Bool} (hans : s.answers = true)
include hans

theorem exec_smbusSetOffset (hlen : bs.length = 4) (hpec : pec = true) :
    exec (.smbusSetOffset bs pec) s = .next { s with smbOffset := leNat bs, nak := false } := by
  change execSmbusSetOffset bs pec s = _
  simp [execSmbusSetOffset, hans, hlen, hpec, done, State.ack]

theorem exec_smbusSetOffset_nak (hbad : bs.length ≠ 4 ∨ pec = false) :
    exec (.smbusSetOffset bs pec) s = .next { s with nak := true } := by
  have hno : ¬ (bs.length = 4 ∧ pec = true) := by rcases hbad with h | h <;> simp [h]
  change execSmbusSetOffset bs pec s = _
  rw [execSmbusSetOffset, if_neg (by simp [hans]), if_neg hno]
  rfl

/-- A write of 4 or 8 bytes is a register write at the offset. -/
theorem exec_smbusWrite (hlen : bs.length = 4 ∨ bs.length = 8) (hpec : pec = true) :
    exec (.smbusWrite bs pec) s = .next { regWrite s .smbus s.smbOffset bs.length (leNat bs) with
      smbOffset := (s.smbOffset + bs.length) % 2 ^ 32, nak := false } := by
  change execSmbusWrite bs pec s = _
  rw [execSmbusWrite, if_neg (by simp [hans]), if_pos ⟨hlen, hpec⟩]
  rfl

theorem exec_smbusWrite_nak (hbad : (bs.length ≠ 4 ∧ bs.length ≠ 8) ∨ pec = false) :
    exec (.smbusWrite bs pec) s = .next { s with nak := true } := by
  have hno : ¬ ((bs.length = 4 ∨ bs.length = 8) ∧ pec = true) := by rcases hbad with h | h <;> simp [h]
  change execSmbusWrite bs pec s = _
  rw [execSmbusWrite, if_neg (by simp [hans]), if_neg hno]
  rfl

theorem exec_smbusRead : exec (.smbusRead 4) s = .next { regRead s .smbus s.smbOffset 4 with
    smbOffset := (s.smbOffset + 4) % 2 ^ 32, nak := false } := by
  change execSmbusRead 4 s = _
  rw [execSmbusRead, if_neg (by simp [hans]), if_pos rfl]
  rfl

/-- 21 R612: no account window lies on the SMBus. -/
theorem regRead_smbus_plain {off : Nat} (halign : off % 4 = 0) (hspan : latchSpan off = 0) (hfree : ∀ e ∈ s.latched, e.1 ≠ off) :
    regRead s .smbus off 4 = { s with readback := leBytes 4 (s.liveWord off), poisoned := false } := by
  rw [regRead_of_answers .smbus off 4 hans, readBytes_four s .smbus halign rfl, readWord_of_plain hspan hfree]

theorem exec_smbusRead_nak {n : Nat} (hn : n ≠ 4) : exec (.smbusRead n) s = .next { s with nak := true } := by
  change execSmbusRead n s = _
  rw [execSmbusRead, if_neg (by simp [hans]), if_neg hn]
  rfl

theorem exec_smbusTimeout : exec .smbusTimeout s = .next { s with readback := [], nak := false } := by
  change execSmbusTimeout s = _
  rw [execSmbusTimeout, if_pos hans]
  rfl

theorem exec_smbusAlertResponse (halert : s.pins.smbAlert = true) : exec .smbusAlertResponse s =
    .next { s with readback := [BitVec.ofNat 8 (2 * (0x58 + s.pins.smbAddr))], nak := false } := by
  change execSmbusAlertResponse s = _
  rw [execSmbusAlertResponse, if_neg (by simp [hans]), if_pos halert]
  rfl

theorem exec_smbusAlertResponse_nak (hquiet : s.pins.smbAlert = false) :
    exec .smbusAlertResponse s = .next { s with readback := [], nak := true } := by
  change execSmbusAlertResponse s = _
  rw [execSmbusAlertResponse, if_neg (by simp [hans]), if_neg (by simp [hquiet])]
  rfl

end

/-- Settles O59: one rule above for each command and for each way it is not acknowledged. -/
theorem theManagementPortAnswers : Obligations.TheManagementPortAnswers := by
  refine ⟨fun s bs pec hans => ⟨exec_smbusSetOffset hans, exec_smbusSetOffset_nak hans⟩,
    fun s bs pec hans => ⟨fun hlen hpec => ?write, exec_smbusWrite_nak hans⟩,
    fun s hans halign hspan hfree => ?plain, fun s hans => ⟨_, exec_smbusRead hans, rfl, rfl, rfl⟩,
    fun s n hans => exec_smbusRead_nak hans,
    fun s hans => ⟨exec_smbusTimeout hans, exec_smbusAlertResponse hans, exec_smbusAlertResponse_nak hans⟩⟩
  case write =>
    refine ⟨_, _, exec_smbusWrite hans hlen hpec, exec_registerWrite_of_answers _ _ _ hans nofun, ?_⟩
    rw [toNat_ofNat_leNat (by omega)]
  case plain => rw [exec_smbusRead hans, regRead_smbus_plain hans halign hspan hfree]

end Sys2Proof.Machine

/-! Stops and chip-fatal errors (14 R434 to R438, 15 R463): the SAFE channels as they settle, the work that an immediate stop abandons,
and what the safe state holds. -/

namespace Sys2Proof.Machine

/-! ## What an operation's frame leaves of engines, decode engines and clearing engines -/

section
variable {m : Nat} {s t : State} (h : t.erase m = s.erase m)
include h

theorem State.dec_of_erase (hm : m.testBit 13 = false) (d : Nat) : t.dec d = s.dec d := by
  rw [State.dec, State.dec, keeps_decs h hm]

theorem State.channel_of_erase (hm : m.testBit 29 = false) (n : Nat) : t.channel n = s.channel n := by
  rw [State.channel, State.channel, keeps_saf h hm]

theorem State.zone_of_erase (hm : m.testBit 29 = false) (z : Nat) : t.zone z = s.zone z := by
  rw [State.zone, State.zone, keeps_saf h hm]

theorem State.mayBegin_of_erase (hphase : m.testBit 0 = false) (hflt : m.testBit 28 = false) : t.mayBegin = s.mayBegin := by
  rw [State.mayBegin, State.mayBegin, State.running, State.running, keeps_phase h hphase, keeps_flt h hflt]

end

/-! ## The SAFE channels (15 R463) -/

@[simp] theorem settleChannel_mayBegin (s : State) (n : Nat) : (settleChannel s n).mayBegin = s.mayBegin :=
  State.mayBegin_of_erase (settleChannel_erase s n (Nat.and_self _)) rfl rfl

/-- A settled channel toggles while it indicates clear, and no other channel changes. -/
theorem settleChannel_toggling (s : State) (n m : Nat) :
    ((settleChannel s n).channel m).toggling = if m = n then s.indicatesClear n else (s.channel m).toggling := by
  simp only [settleChannel]
  split
  next hsettled =>
    split
    next heq => rw [heq, hsettled]
    next => rfl
  next =>
    rw [State.raise, State.channel_of_erase (State.updateInta_erase _ (Nat.and_self _)) rfl,
      State.channel_of_erase (State.cause_erase _ _ (Nat.and_self _)) rfl,
      State.channel_of_erase (State.emit_erase _ _ (Nat.and_self _)) rfl, State.setChannel_get]
    exact apply_ite Channel.toggling _ _ _

theorem indicatesClear_of_stopped {s : State} (h : s.mayBegin = false) (n : Nat) : s.indicatesClear n = false := by
  simp [State.indicatesClear, h]

/-- While no work may begin no channel toggles. -/
theorem settleChannels_stopped {s : State} (h : s.mayBegin = false) {n : Nat} (hn : n < 16) :
    ((settleChannels s).channel n).toggling = false := by
  refine foldl_all (P := fun t n => t.mayBegin = false → (t.channel n).toggling = false) (fun t n ht => ?_)
    (fun t m n hP ht => ?_) s n (List.mem_range.mpr hn) ?_
  · have ht' : t.mayBegin = false := (settleChannel_mayBegin t n).symm.trans ht
    rw [settleChannel_toggling, if_pos rfl, indicatesClear_of_stopped ht']
  · have ht' : t.mayBegin = false := (settleChannel_mayBegin t m).symm.trans ht
    rw [settleChannel_toggling, indicatesClear_of_stopped ht', hP ht', ite_self]
  · exact (State.mayBegin_of_erase (settleChannels_erase s (Nat.and_self _)) rfl rfl).trans h

theorem RecordsAdded.settleChannels (s : State) : RecordsAdded s (settleChannels s) := .foldl .settleChannel _ s

/-! ## Pins that an error drives -/

/-- The pins that no raised cause and no test group moves. -/
def Pins.driven (p : Pins) : Bool × Bool × Bool × Bool := (p.faultLow, p.ethIdle0, p.ethIdle1, p.thermtripLow)

@[simp] theorem State.raise_driven (s : State) (bitNo : Nat) : (s.raise bitNo).pins.driven = s.pins.driven := rfl

@[simp] theorem settleChannel_driven (s : State) (n : Nat) : (settleChannel s n).pins.driven = s.pins.driven := by
  simp only [settleChannel]
  split
  · rfl
  · rfl

@[simp] theorem settleChannels_driven (s : State) : (settleChannels s).pins.driven = s.pins.driven :=
  foldl_keeps (fun t => t.pins.driven) settleChannel_driven _ s

@[simp] theorem obsOff_driven (s : State) : (obsOff s).pins.driven = s.pins.driven := by
  unfold obsOff
  split
  · rfl
  · rfl

@[simp] theorem checkAccess_driven (s : State) : (checkAccess s).pins.driven = s.pins.driven := by
  simp only [checkAccess, apply_ite (fun t : State => t.pins.driven), obsOff_driven, ite_self]

@[simp] theorem dropUnlock_driven (s : State) : (dropUnlock s).pins.driven = s.pins.driven := by
  unfold dropUnlock
  split
  · rfl
  · exact checkAccess_driven _

@[simp] theorem stopObservation_driven (s : State) : (stopObservation s).pins.driven = s.pins.driven := by
  change (obsOff (stopWatches (dropUnlock s) stSTATE _)).pins.driven = _
  rw [obsOff_driven, keeps_pins (stopWatches_erase _ _ _ (Nat.and_self _)) rfl, dropUnlock_driven]

/-! ## Work abandoned at once (14 R436) -/

theorem abandonDmas_running (s : State) (q p : Nat) : ((abandonDmas s q).engine p).running = (s.engine p).running := by
  unfold abandonDmas
  extract_lets gone s1
  have hvoids : s1.engine p = s.engine p := by
    refine foldl_keeps (fun t => t.engine p) (fun a d => foldl_keeps (fun t => t.engine p) (fun b q => ?_) _ a) gone s
    split
    · rfl
    · rfl
  rw [← hvoids]
  refine State.modEngine_keeps Engine.running s1 ?_ p
  exact fun _ => rfl

theorem abandonWith_idle {s : State} {p : Nat} (q cause status cycles : Nat) (ws : List (Nat × Int × List Byte))
    (h : (s.engine p).running = none) : ((abandonWith s q cause status cycles ws).engine p).running = none := by
  simp only [abandonWith]
  split
  · exact h
  · simp only [chargeDev_engine, complete_engine, State.modEngine_get, voidWrites_engine, State.trace_engine]
    split
    · rfl
    · exact h

theorem abandonTile_idle {s : State} {p : Nat} (q cause status cycles watchdogs : Nat) (h : (s.engine p).running = none) :
    ((abandonTile s q cause status cycles watchdogs).engine p).running = none := by
  unfold abandonTile
  split
  · exact h
  · refine (State.modEngine_keeps Engine.running _ ?_ p).trans (abandonWith_idle (s := s.nextFree) q cause status cycles _ h)
    exact fun _ => rfl

theorem settleHalt_running (s : State) (q p : Nat) : ((settleHalt s q).engine p).running = (s.engine p).running := by
  unfold settleHalt
  split
  · rfl
  · refine State.modEngine_keeps Engine.running s ?_ p
    exact fun _ => rfl

/-- An immediate stop of one engine: its transfers and its tile are abandoned. -/
def stopEngineNow (s : State) (p : Nat) : State :=
  match ((abandonDmas s p).engine p).running with
  | some r => abandonTile (abandonDmas s p) p 5 stSTATE (cyclesSince (abandonDmas s p) p r) 0
  | none => if ((abandonDmas s p).engine p).state ≤ 1 then settleHalt (abandonDmas s p) p else abandonDmas s p

theorem stopEngines_immediate (s : State) : stopEngines s true = (List.range 72).foldl stopEngineNow s := rfl

theorem stopEngineNow_idle {s : State} {p : Nat} (q : Nat) (h : (s.engine p).running = none) :
    ((stopEngineNow s q).engine p).running = none := by
  have hdmas := (abandonDmas_running s q p).trans h
  unfold stopEngineNow
  split
  · exact abandonTile_idle q _ _ _ _ hdmas
  · split
    · exact (settleHalt_running _ q p).trans hdmas
    · exact hdmas

theorem stopEngineNow_self (s : State) (p : Nat) : ((stopEngineNow s p).engine p).running = none := by
  cases hcur : ((abandonDmas s p).engine p).running with
  | none => exact stopEngineNow_idle p ((abandonDmas_running s p p).symm.trans hcur)
  | some r =>
    unfold stopEngineNow
    simp only [hcur]
    exact (abandonTile_engine hcur 5 stSTATE _ 0).1

theorem stopEngines_idle (s : State) {p : Nat} (hp : p < 72) : ((stopEngines s true).engine p).running = none :=
  foldl_all (P := fun t p => (t.engine p).running = none) stopEngineNow_self (fun _ q _ h => stopEngineNow_idle q h) s p
    (List.mem_range.mpr hp)

theorem stopClearing_idle (s : State) {r : Nat} (hr : r < 4) : ((stopClearing s).clr r).job = none := by
  refine foldl_all (P := fun t r => (t.clr r).job = none) (fun t r => ?_) (fun t q r h => ?_) s r (List.mem_range.mpr hr)
  · split
    · rw [State.modClr_get, if_pos rfl]
    · assumption
  · split
    · rw [State.modClr_get]
      split
      · rfl
      · exact h
    · exact h

theorem stopDecode_idle (s : State) {d : Nat} (hd : d < 18) : ((stopDecode s).dec d).job = none := by
  have hidle (t : State) (q d : Nat) (f : DecEngine → DecEngine) (hf : ∀ x, (f x).job = none) (h : q = d ∨ (t.dec d).job = none) :
      ((t.modDec q f).dec d).job = none := by
    rw [State.modDec_get]
    split
    · exact hf _
    next hne => exact h.resolve_left fun he => hne he.symm
  refine foldl_all (P := fun t d => (t.dec d).job = none) (fun t d => ?_) (fun t q d h => ?_) s d (List.mem_range.mpr hd)
  · dsimp only
    split
    · exact hidle _ d d _ (fun _ => rfl) (.inl rfl)
    · exact hidle _ d d _ (fun _ => rfl) (.inl rfl)
    · assumption
  · dsimp only
    split
    · exact hidle _ q d _ (fun _ => rfl) (.inr h)
    · exact hidle _ q d _ (fun _ => rfl) (.inr h)
    · exact h

/-! ## The stop token (14 R435) -/

/-- The fault manager as a stop sets it. -/
def Flt.stopped (x : Flt) (immediate fatal : Bool) : Flt :=
  { x with stopPhase := 1, immediate := immediate, fatal := fatal, state := if fatal then 3 else 1 }

theorem globalStop_flt (s : State) (immediate fatal : Bool) : (globalStop s immediate fatal).flt = s.flt.stopped immediate fatal := by
  unfold globalStop
  extract_lets _ s1 s2 s3
  have h2 : s2.flt = s1.flt := keeps_flt (stopEngines_erase s1 immediate (Nat.and_self _)) rfl
  have h3 : s3.flt = s2.flt := by
    unfold s3
    split
    · rw [keeps_flt (stopPreprocess_erase _ (Nat.and_self _)) rfl, keeps_flt (stopDecode_erase _ (Nat.and_self _)) rfl,
        keeps_flt (stopClearing_erase _ (Nat.and_self _)) rfl]
    · rfl
  rw [keeps_flt (settleChannels_erase s3 (Nat.and_self _)) rfl, h3, h2]
  rfl

/-- Under the immediate flag no unit has work in progress. -/
theorem globalStop_idle (s : State) (fatal : Bool) :
    (∀ p < 72, ((globalStop s true fatal).engine p).running = none) ∧ (∀ r < 4, ((globalStop s true fatal).clr r).job = none)
      ∧ ∀ d < 18, ((globalStop s true fatal).dec d).job = none := by
  unfold globalStop
  extract_lets _ s1 s2 s3
  have hafter : (settleChannels s3).erase 0xa0004804 = (stopDecode (stopClearing s2)).erase 0xa0004804 :=
    (settleChannels_erase _ (by decide)).trans (stopPreprocess_erase _ (by decide))
  refine ⟨fun p hp => ?_, fun r hr => ?_, fun d hd => ?_⟩
  · rw [State.engine_of_erase hafter rfl, State.engine_of_erase (stopDecode_erase _ (Nat.and_self _)) rfl,
      State.engine_of_erase (stopClearing_erase _ (Nat.and_self _)) rfl]
    exact stopEngines_idle s1 hp
  · rw [State.clr_of_erase hafter rfl, State.clr_of_erase (stopDecode_erase _ (Nat.and_self _)) rfl]
    exact stopClearing_idle s2 hr
  · rw [State.dec_of_erase hafter rfl]
    exact stopDecode_idle _ hd

theorem globalStop_driven (s : State) (immediate fatal : Bool) : (globalStop s immediate fatal).pins.driven = s.pins.driven := by
  unfold globalStop
  extract_lets _ s1 s2 s3
  have h2 : s2.pins = s1.pins := keeps_pins (stopEngines_erase s1 immediate (Nat.and_self _)) rfl
  have h3 : s3.pins = s2.pins := by
    unfold s3
    split
    · rw [keeps_pins (stopPreprocess_erase _ (Nat.and_self _)) rfl, keeps_pins (stopDecode_erase _ (Nat.and_self _)) rfl,
        keeps_pins (stopClearing_erase _ (Nat.and_self _)) rfl]
    · rfl
  rw [settleChannels_driven, h3, h2]

/-! ## The safe state (14 R434) -/

/-- The safe state set on the stopped device. -/
def fatalSet (u : State) (source : Nat) : State :=
  { u with
    phase := .safe
    pins := { u.pins with faultLow := true, ethIdle0 := true, ethIdle1 := true }
    flt := { u.flt with lastClass := 3, fatalSource := source }
    flash := { u.flash with writes := u.flash.writes ++ [.safeState u.time.now] } }

/-- The safe state as it is entered, before it is told: work is abandoned and the pending settlement discarded. -/
def fatalEntered (s : State) (source : Nat) : State := discardPending (fatalSet (globalStop s true true) source)

/-- Record 0x0609. -/
def fatalRecord (s : State) (source unit_ : Nat) : Rec :=
  (fatalEntered s source).record 0x0609 ucFLT (.flt { cls := 4, source := source, unit := unit_ })

section
variable {s : State} {source unit_ : Nat}

theorem fatalSet_engine (u : State) (source p : Nat) : (fatalSet u source).engine p = u.engine p := rfl
theorem fatalSet_clr (u : State) (source r : Nat) : (fatalSet u source).clr r = u.clr r := rfl
theorem fatalSet_dec (u : State) (source d : Nat) : (fatalSet u source).dec d = u.dec d := rfl
theorem fatalSet_flt (u : State) (source : Nat) : (fatalSet u source).flt = { u.flt with lastClass := 3, fatalSource := source } := rfl
theorem fatalSet_driven (u : State) (source : Nat) :
    (fatalSet u source).pins.driven = (true, true, true, u.pins.driven.2.2.2) := rfl

theorem fatalEntered_erase (s : State) (source : Nat) :
    (fatalEntered s source).erase 0x800400200 = (fatalSet (globalStop s true true) source).erase 0x800400200 :=
  discardPending_erase _ (Nat.and_self _)

theorem fatalEntered_flt (s : State) (source : Nat) :
    (fatalEntered s source).flt = { s.flt.stopped true true with lastClass := 3, fatalSource := source } := by
  rw [keeps_flt (fatalEntered_erase s source) rfl, fatalSet_flt, globalStop_flt]

theorem fatalEntered_stl (s : State) (source : Nat) :
    (fatalEntered s source).stl.batch = none ∧ (fatalEntered s source).stl.update = none := ⟨rfl, rfl⟩

theorem fatalEntered_driven (s : State) (source : Nat) :
    (fatalEntered s source).pins.driven = (true, true, true, s.pins.thermtripLow) := by
  rw [keeps_pins (fatalEntered_erase s source) rfl, fatalSet_driven, globalStop_driven]
  rfl

theorem fatalEntered_mayBegin (s : State) (source : Nat) : (fatalEntered s source).mayBegin = false := by
  simp [State.mayBegin, fatalEntered_flt, Flt.stopped]

theorem fatalEntered_idle (s : State) (source : Nat) :
    (∀ p < 72, ((fatalEntered s source).engine p).running = none) ∧ (∀ r < 4, ((fatalEntered s source).clr r).job = none)
      ∧ ∀ d < 18, ((fatalEntered s source).dec d).job = none := by
  have hafter := fatalEntered_erase s source
  obtain ⟨hengines, hclrs, hdecs⟩ := globalStop_idle s true
  refine ⟨fun p hp => ?_, fun r hr => ?_, fun d hd => ?_⟩
  · rw [State.engine_of_erase hafter rfl, fatalSet_engine]
    exact hengines p hp
  · rw [State.clr_of_erase hafter rfl, fatalSet_clr]
    exact hclrs r hr
  · rw [State.dec_of_erase hafter rfl, fatalSet_dec]
    exact hdecs d hd

theorem chipFatal_eq (hreset : s.phase ≠ .inReset) (hsafe : s.phase ≠ .safe) : chipFatal s source unit_
    = (stopObservation (settleChannels ((fatalEntered s source).emit (fatalRecord s source unit_)))).raise 3 := by
  rw [chipFatal, if_neg (by simp [hreset, hsafe])]
  rfl

/-- After the safe state is entered the error is told, the channels settle and observation stops. -/
theorem chipFatal_erase_entered (hreset : s.phase ≠ .inReset) (hsafe : s.phase ≠ .safe) :
    (chipFatal s source unit_).erase 0xca0000804 = (fatalEntered s source).erase 0xca0000804 := by
  rw [chipFatal_eq hreset hsafe, State.raise_erase _ _ (by decide), stopObservation_erase _ (by decide),
    settleChannels_erase _ (by decide), State.emit_erase _ _ (by decide)]

theorem chipFatal_driven (hreset : s.phase ≠ .inReset) (hsafe : s.phase ≠ .safe) :
    (chipFatal s source unit_).pins.driven = (true, true, true, s.pins.thermtripLow) := by
  rw [chipFatal_eq hreset hsafe, State.raise_driven, stopObservation_driven, settleChannels_driven, State.emit_pins,
    fatalEntered_driven]

theorem chipFatal_toggling (hreset : s.phase ≠ .inReset) (hsafe : s.phase ≠ .safe) {n : Nat} (hn : n < 16) :
    ((chipFatal s source unit_).channel n).toggling = false := by
  rw [chipFatal_eq hreset hsafe, State.channel_of_erase (State.raise_erase _ _ (Nat.and_self _)) rfl,
    State.channel_of_erase (stopObservation_erase _ (Nat.and_self _)) rfl]
  refine settleChannels_stopped ?_ hn
  rw [State.mayBegin_of_erase (State.emit_erase _ _ (Nat.and_self _)) rfl rfl, fatalEntered_mayBegin]

end

/-- A record handed over after changes that leave the journal alone. -/
theorem RecordsAdded.emit_after (s : State) {u : State} (h : u.journal = s.journal) (r : Rec) : RecordsAdded s (u.emit r) :=
  (RecordsAdded.of_journal h).trans (.emit u r)

theorem RecordsAdded.endWatch (s : State) (w status : Nat) (result : List Byte) : RecordsAdded s (endWatch s w status result) := by
  unfold Machine.endWatch
  extract_lets x q s1 r
  exact .emit_after s (u := s1) rfl _

theorem RecordsAdded.stopWatches (s : State) (status : Nat) (p : Nat → Watch → Bool) : RecordsAdded s (stopWatches s status p) := by
  refine .foldl (fun a e => ?_) _ s
  split
  · exact .endWatch _ _ _ _
  · exact .of_journal rfl

theorem RecordsAdded.obsOff (s : State) : RecordsAdded s (obsOff s) := by
  unfold Machine.obsOff
  split
  · exact .of_journal rfl
  · extract_lets _ _ s1
    exact .emit_after s (u := s1) rfl _

theorem RecordsAdded.checkAccess (s : State) : RecordsAdded s (checkAccess s) := by
  unfold Machine.checkAccess
  extract_lets s1
  have hoff : RecordsAdded s s1 := by
    unfold s1
    split
    · exact .of_journal rfl
    · exact .obsOff s
  split
  · exact hoff.trans (.of_journal rfl)
  · exact hoff

theorem RecordsAdded.dropUnlock (s : State) : RecordsAdded s (dropUnlock s) := by
  unfold Machine.dropUnlock
  split
  · exact .of_journal rfl
  · extract_lets _ s1
    exact (RecordsAdded.emit_after s (u := s1) rfl _).trans (.checkAccess _)

theorem RecordsAdded.stopObservation (s : State) : RecordsAdded s (stopObservation s) := by
  unfold Machine.stopObservation
  extract_lets s1
  exact (((RecordsAdded.dropUnlock s).trans (.stopWatches _ _ _)).trans (.obsOff _)).trans (.of_journal (s := s1) rfl)

/-- 14 R434: record 0x0609 waits. -/
theorem fatalRecord_mem {s : State} {source unit_ : Nat} (hreset : s.phase ≠ .inReset) (hsafe : s.phase ≠ .safe) :
    fatalRecord s source unit_ ∈ (chipFatal s source unit_).journal.waiting := by
  rw [chipFatal_eq hreset hsafe, State.raise, State.updateInta_journal, State.cause_journal]
  exact ((RecordsAdded.settleChannels _).trans (.stopObservation _)).kept (State.mem_emit_waiting.mpr (.inl rfl))

end Sys2Proof.Machine

/-! The PCI Express endpoint (17 R504, R506, R514 to R516, R522 to R525): its link and interrupt line, its resets, BAR2 and address
translation. -/

namespace Sys2Proof.Machine

/-! ## The link and INTA (17 R516, R522, R525) -/

/-- INTA stands while an enabled cause stands, Interrupt Disable is clear, the link is up and the function is in D0. -/
theorem State.updateInta_inta (s : State) : s.updateInta.pins.inta =
    (decide (s.pci.intCause &&& s.pci.intEnable ≠ 0) && !s.pci.interruptDisable && s.pci.up && !s.pci.d3hot) := rfl

section
variable {s : State} (hans : s.answers = true)
include hans

theorem exec_pcieLinkUp {v w : Nat} (hstrap : s.pins.pcieOff = false) (hclock : s.pins.refLostPcie = false) (hlo : 1 ≤ v) (hhi : v ≤ 5)
    (hw : w ∈ [1, 2, 4, 8]) : exec (.pcieLinkUp v w) s
      = .next ({ s with pci := { s.pci with up := true, speed := v, width := w } }).updateInta := by
  have hfits : (s.answers && !s.pins.pcieOff && !s.pins.refLostPcie && within v 1 5 && [1, 2, 4, 8].contains w) = true := by
    simp only [hans, hstrap, hclock, within, hlo, hhi, List.contains_iff_mem.mpr hw, decide_true, Bool.and_self, Bool.not_false]
  change execPcieLinkUp v w s = _
  rw [execPcieLinkUp, if_pos hfits]
  rfl

variable (hup : s.pci.up = true)
include hup

theorem exec_d3hotEntry : exec .d3hotEntry s = .next ({ s with pci := { s.pci with d3hot := true } }).updateInta := by
  change execD3hotEntry s = _
  rw [execD3hotEntry, if_pos (by simp [hans, hup])]
  rfl

theorem exec_d0Return : exec .d0Return s = .next ({ s with pci := { s.pci with d3hot := false } }).updateInta := by
  change execD0Return s = _
  rw [execD0Return, if_pos (by simp [hans, hup])]
  rfl

theorem exec_configurationWrite (f : CfgField) : exec (.configurationWrite f) s = .next (configure s f) := by
  change execConfigurationWrite f s = _
  rw [execConfigurationWrite, if_pos (by simp [hans, hup])]
  rfl

end

/-- 17 R504: BAR2 is sized at 16, 32 or 64 GiB. -/
theorem configure_bar2Size (s : State) (g : Nat) :
    configure s (.bar2Size g) = if g ∈ [16, 32, 64] then { s with pci := { s.pci with bar2Gib := g } } else s := by
  simp only [configure, List.mem_cons, List.not_mem_nil, or_false]

/-! ## Resets of the endpoint (17 R524) -/

/-- The endpoint's registers after a reset event. -/
def endpointPci (p : Pci) (e : EndpointEvent) : Pci :=
  { resetPci p with
    up := if e = .flr then p.up else false, speed := if e = .flr then p.speed else 0, width := if e = .flr then p.width else 0
    downs := if e = .linkDown then min 255 (p.downs + 1) else p.downs
    resets := if e = .linkDown then p.resets else min 255 (p.resets + 1) }

theorem endpointReset_eq (s : State) (e : EndpointEvent) : endpointReset s e
    = (discardOpenHost (clearAllMarks (dropPushes { s with pci := endpointPci s.pci e }))).updateInta := by
  cases e <;> rfl

/-- The marks, the pushes and the open batch go; the registers are reset. -/
theorem endpointReset_pci (s : State) (e : EndpointEvent) : (endpointReset s e).pci = endpointPci s.pci e := by
  rw [endpointReset_eq, State.updateInta_pci, keeps_pci (discardOpenHost_erase _ (Nat.and_self _)) rfl,
    keeps_pci (clearAllMarks_erase _ (Nat.and_self _)) rfl, keeps_pci (dropPushes_erase _ (Nat.and_self _)) rfl]

theorem endpointReset_erase_pci (s : State) (e : EndpointEvent) :
    (endpointReset s e).erase 0x880005a04 = s.erase 0x880005a04 := endpointReset_erase s e (Nat.and_self _)

/-! ### The pushes -/

theorem Table.get_eq_or_mem {α : Type} (d : α) (k : Nat) (t : Table α) : Table.get d k t = d ∨ (k, Table.get d k t) ∈ t := by
  induction t with
  | nil => exact .inl rfl
  | cons e r ih =>
    obtain ⟨j, v⟩ := e
    rw [Table.get_cons]
    split
    next heq => exact .inr (heq ▸ List.mem_cons_self)
    next => exact ih.imp_right (List.mem_cons_of_mem _)

/-- One stream's pushes dropped, when it has any. -/
def dropPush (a : State) (e : Nat × StreamSt) : State :=
  if e.2.pushes.isEmpty then a else a.modStream e.1 fun t => { t with pushes := [] }

theorem dropPush_pushes (a : State) (e : Nat × StreamSt) (n : Nat) :
    ((dropPush a e).stream n).pushes = if n = e.1 ∧ e.2.pushes ≠ [] then [] else (a.stream n).pushes := by
  unfold dropPush
  by_cases hempty : e.2.pushes = []
  · simp [hempty]
  · rw [if_neg (by simpa using hempty), State.modStream_get]
    by_cases hn : n = e.1
    · simp [hn, hempty]
    · simp [hn]

/-- No stream has a push left: each is absent, has none, or lost them at its entry. -/
theorem dropPushes_pushes (s : State) (n : Nat) : ((dropPushes s).stream n).pushes = [] := by
  have hnone : ∀ (l : List (Nat × StreamSt)) (t : State), (t.stream n).pushes = [] ∨ (∃ e ∈ l, e.1 = n ∧ e.2.pushes ≠ []) →
      ((l.foldl dropPush t).stream n).pushes = [] := by
    intro l
    induction l with
    | nil => exact fun t h => h.resolve_right (by simp)
    | cons e l ih =>
      intro t h
      refine ih _ ?_
      rw [dropPush_pushes]
      by_cases he : n = e.1 ∧ e.2.pushes ≠ []
      · exact .inl (if_pos he)
      · rw [if_neg he]
        refine h.imp_right fun ⟨x, hx, hkey, hpush⟩ => ?_
        rcases List.mem_cons.mp hx with rfl | hx
        · exact absurd ⟨hkey.symm, hpush⟩ he
        · exact ⟨x, hx, hkey, hpush⟩
  refine hnone s.streams s ?_
  by_cases hpush : (s.stream n).pushes = []
  · exact .inl hpush
  · refine .inr ⟨(n, s.stream n), (Table.get_eq_or_mem ({} : StreamSt) n s.streams).resolve_left fun h => hpush ?_, rfl, hpush⟩
    rw [State.stream, h]

theorem clearAllMarks_pushes (s : State) (n : Nat) : ((clearAllMarks s).stream n).pushes = (s.stream n).pushes := by
  unfold clearAllMarks
  rw [State.stream, keeps_streams (trackAll_erase _ (Nat.and_self _)) rfl]
  refine foldl_keeps (fun t => (t.stream n).pushes) (fun t x => ?_) _ s
  rw [clearMark_stream]
  split
  next heq => rw [heq]
  next => rfl

theorem endpointReset_pushes (s : State) (e : EndpointEvent) (n : Nat) : ((endpointReset s e).stream n).pushes = [] := by
  rw [endpointReset_eq, State.stream, State.updateInta_streams, keeps_streams (discardOpenHost_erase _ (Nat.and_self _)) rfl]
  exact (clearAllMarks_pushes _ n).trans (dropPushes_pushes _ n)

/-! ### The open batch of the host -/

theorem discardOpenHost_opened (s : State) : ((discardOpenHost s).page .host).opened = false := by
  unfold discardOpenHost
  split
  · rw [State.setPage_page, if_pos rfl]
  next h => exact Bool.eq_false_iff.mpr h

theorem discardOpenHost_batch (s : State) : (discardOpenHost s).stl.batch = s.stl.batch := by
  unfold discardOpenHost
  split
  · rw [State.setPage_stl, Stl.setPage_batch]
  · rfl

theorem endpointReset_opened (s : State) (e : EndpointEvent) : ((endpointReset s e).page .host).opened = false := by
  rw [endpointReset_eq]
  exact discardOpenHost_opened _

theorem endpointReset_batch (s : State) (e : EndpointEvent) : (endpointReset s e).stl.batch = s.stl.batch := by
  rw [endpointReset_eq, State.updateInta_stl, discardOpenHost_batch, keeps_stl (clearAllMarks_erase _ (Nat.and_self _)) rfl,
    keeps_stl (dropPushes_erase _ (Nat.and_self _)) rfl]

theorem exec_endpointReset {s : State} (e : EndpointEvent) (hans : s.answers = true) (hup : s.pci.up = true) :
    exec (.endpointReset e) s = .next (endpointReset s e) := by
  change execEndpointReset e s = _
  rw [execEndpointReset, if_pos (by simp [hans, hup])]
  rfl

/-! ## BAR2 (17 R506) -/

section
variable {s : State} {off : Nat} (hserves : s.pciServes = true)
include hserves

theorem exec_bar2Write {bs : List Byte} (hfits : off + bs.length ≤ s.pci.bar2Gib * 2 ^ 30) : exec (.bar2Write off bs) s
    = .next (if inStaging s off bs.length then s.store off bs else { s with pci := { s.pci with dropped := s.pci.dropped + 1 } }) := by
  have hserved : (!s.pciServes || decide (s.pci.bar2Gib * 2 ^ 30 < off + bs.length)) = false := by
    rw [hserves, decide_eq_false (Nat.not_lt.mpr hfits)]
    rfl
  change execBar2Write off bs s = _
  rw [execBar2Write, hserved]
  rfl

/-- A read that meets no void granule below 48 GiB returns what is there, and zeros beyond. -/
theorem exec_bar2Read_sound {n : Nat} (hfits : off + n ≤ s.pci.bar2Gib * 2 ^ 30)
    (hsound : (s.anyVoid off (min n (dramEnd - off)) && decide (off < dramEnd)) = false) :
    exec (.bar2Read off n) s = .next { s with
      poisoned := false, readback := (List.range n).map fun i => if off + i < dramEnd then s.byte (off + i) else 0#8 } := by
  have hserved : (!s.pciServes || decide (s.pci.bar2Gib * 2 ^ 30 < off + n)) = false := by
    rw [hserves, decide_eq_false (Nat.not_lt.mpr hfits)]
    rfl
  change execBar2Read off n s = _
  rw [execBar2Read, hserved, hsound]
  rfl

/-- 14 R414: one that meets a void granule completes poisoned. -/
theorem exec_bar2Read_void {n : Nat} (hfits : off + n ≤ s.pci.bar2Gib * 2 ^ 30)
    (hvoid : (s.anyVoid off (min n (dramEnd - off)) && decide (off < dramEnd)) = true) :
    exec (.bar2Read off n) s = .next { s with
      poisoned := true, readback := (List.range n).map (fun i => Config.freeByte (s.free + i)), free := s.free + n } := by
  have hserved : (!s.pciServes || decide (s.pci.bar2Gib * 2 ^ 30 < off + n)) = false := by
    rw [hserves, decide_eq_false (Nat.not_lt.mpr hfits)]
    rfl
  change execBar2Read off n s = _
  rw [execBar2Read, hserved, hvoid]
  rfl

end

theorem anyVoid_pos {s : State} {a n : Nat} (h : s.anyVoid a n = true) : 0 < n := by
  refine Nat.pos_of_ne_zero fun hn => ?_
  simp [State.anyVoid, granulesOf, hn] at h

/-! ## Address translation (17 R514, R515) -/

theorem exec_atsInvalidation {s : State} (base size : Nat) (hans : s.answers = true) (hup : s.pci.up = true)
    (hroom : s.pci.invalidating.length < 32) : exec (.atsInvalidation base size) s = .next { s with pci := { s.pci with
      atc := s.pci.atc.filter fun p => decide (4096 * p + 4096 ≤ base) || decide (base + size ≤ 4096 * p)
      invalidating := s.pci.invalidating ++ [(base, size)] } } := by
  change execAtsInvalidation base size s = _
  rw [execAtsInvalidation, if_pos (by simp [hans, hup, hroom])]
  rfl

theorem exec_atsInvalidationComplete {s : State} {x : Nat × Nat} {r : List (Nat × Nat)} (hans : s.answers = true)
    (hup : s.pci.up = true) (hwait : s.pci.invalidating = x :: r) : exec .atsInvalidationComplete s
      = .next { s with pci := { s.pci with invalidating := r, invalidations := s.pci.invalidations + 1 } } := by
  change execAtsInvalidationComplete s = _
  simp only [execAtsInvalidationComplete, hwait, hans, hup, Bool.and_self, if_true, done]

/-- Settles O47: the command's own rule in each clause, and for a reset what `endpointPci`, `dropPushes` and `discardOpenHost` leave. -/
theorem theEndpointAnswersTheHost : Obligations.TheEndpointAnswersTheHost := by
  refine ⟨fun s v w hans hstrap hclock hlo hhi hw => ?linkUp, fun s hans hup => ⟨?d3hot, ?d0⟩,
    fun s hans hup => ⟨fun b => ?disable, ?ats, ?atsOff, fun g hg => ?bar2, fun g hg => ?bar2Other⟩, fun s e hans hup => ?reset,
    fun s off bs hserves hfits => ⟨fun hin => ?staged, fun hout => ?dropped⟩,
    fun s off n hserves hfits hend => ⟨fun hsound => ?sound, fun hvoid => ?void⟩, fun s off n hserves hfits hbeyond => ?beyond,
    fun s base size hans hup hroom => ?invalidation, fun s x r hans hup hwait => ?completion⟩
  case linkUp =>
    refine ⟨_, exec_pcieLinkUp hans hstrap hclock hlo hhi hw, rfl, ?_⟩
    rw [State.updateInta_inta, Bool.and_true]
  case d3hot =>
    refine ⟨_, exec_d3hotEntry hans hup, rfl, ?_, ?_⟩
    · rw [State.updateInta_inta, Bool.not_true, Bool.and_false]
    · exact Bool.and_false _
  case d0 =>
    refine ⟨_, exec_d0Return hans hup, rfl, ?_, ?_⟩
    · exact (Bool.and_true _).trans (Bool.and_eq_true_iff.mpr ⟨hans, hup⟩)
    · rw [State.updateInta_inta, hup, Bool.and_true, Bool.not_false, Bool.and_true]
  case disable =>
    refine ⟨_, exec_configurationWrite hans hup _, rfl, ?_⟩
    rw [configure, State.updateInta_inta, hup, Bool.and_true]
  case ats => exact ⟨_, exec_configurationWrite hans hup _, rfl⟩
  case atsOff => exact ⟨_, exec_configurationWrite hans hup _, rfl⟩
  case bar2 => exact ⟨_, exec_configurationWrite hans hup _, by rw [configure_bar2Size, if_pos hg]⟩
  case bar2Other => rw [exec_configurationWrite hans hup, configure_bar2Size, if_neg hg]
  case reset =>
    have herase := endpointReset_erase_pci s e
    refine ⟨_, exec_endpointReset e hans hup, ?_⟩
    rw [endpointReset_pci]
    refine ⟨rfl, rfl, rfl, rfl, rfl, rfl, rfl, rfl, ?_, rfl, rfl, endpointReset_batch s e, endpointReset_opened s e,
      endpointReset_pushes s e, keeps_phase herase rfl, keeps_cfg herase rfl⟩
    simp [endpointPci, hup]
  case staged =>
    refine ⟨_, exec_bar2Write hserves hfits, ?_⟩
    rw [if_pos hin]
    exact ⟨fun i hi => s.store_byte_inside off i bs false hi, fun a ha => s.store_byte_outside off a bs false ha⟩
  case dropped =>
    refine ⟨_, exec_bar2Write hserves hfits, ?_⟩
    rw [if_neg (by simp [hout])]
    exact ⟨rfl, fun _ => rfl⟩
  case sound =>
    refine ⟨_, exec_bar2Read_sound hserves hfits ?_, ?_, rfl⟩
    · rw [Nat.min_eq_left (by omega), hsound, Bool.false_and]
    · refine List.map_congr_left fun i hi => if_pos ?_
      have := List.mem_range.mp hi
      omega
  case void =>
    have hpos := anyVoid_pos hvoid
    refine ⟨_, exec_bar2Read_void hserves hfits ?_, by simp, rfl⟩
    rw [Nat.min_eq_left (by omega), hvoid, Bool.true_and, decide_eq_true_eq]
    omega
  case beyond =>
    refine ⟨_, exec_bar2Read_sound hserves hfits ?_, ?_, rfl⟩
    · rw [decide_eq_false (by omega), Bool.and_false]
    · refine (List.map_congr_left fun i _ => if_neg (by omega)).trans ?_
      rw [List.map_const', List.length_range]
      rfl
  case invalidation =>
    refine ⟨_, exec_atsInvalidation base size hans hup hroom, rfl, fun p => ?_⟩
    simp only [List.mem_filter, Bool.or_eq_true, decide_eq_true_eq]
  case completion => exact ⟨_, exec_atsInvalidationComplete hans hup hwait, rfl, rfl⟩

end Sys2Proof.Machine

/-! Clocks, temperature and pulses (21 R607, R608, R617, R618, R620): lost references, the links that go with them, the over-limit
record, the thermal trip and the end of a pulse. -/

namespace Sys2Proof.Machine

/-! ## The link of a port (18 R528) -/

@[simp] theorem lnkRecord_netPort (s : State) (type cls status : Nat) (p : LnkPl) (inst m : Nat) :
    (s.lnkRecord type cls status p inst).netPort m = s.netPort m := rfl

section
variable (s : State) (n : Nat)

theorem linkChange_pins (up : Bool) (mode : Nat) : (linkChange s n up mode).pins = s.pins :=
  keeps_pins (linkChange_erase s n up mode (Nat.and_self _)) rfl

theorem linkChange_netPort (up : Bool) (mode m : Nat) : (linkChange s n up mode).netPort m = if m = n then
    { s.netPort n with
      state := if up then 2 else 1, mode := if up then mode else 0, fecLock := up
      downs := if decide ((s.netPort n).state = 2) && !up then (s.netPort n).downs + 1 else (s.netPort n).downs }
    else s.netPort m := by
  simp only [linkChange]
  split
  · exact State.modNet_get _ _ _ _
  · rw [lnkRecord_netPort]
    exact State.modNet_get _ _ _ _

/-- Record 0x0800 of port `n`, as it is handed over. -/
def linkRecord (s : State) (n : Nat) : Rec :=
  { s.record 0x0800 ucNET (.lnk { port := n }) with status := stOK, inst := n }

/-- 18 R528: a link that comes or goes is told. -/
theorem linkChange_journal {up : Bool} (mode : Nat) (h : decide ((s.netPort n).state = 2) ≠ up) :
    (linkChange s n up mode).journal = { s.journal with waiting := s.journal.waiting ++ [linkRecord s n] } := by
  rw [linkChange, if_neg h]
  exact State.emit_journal_plain _ _ (.inl rfl)

end

/-! ## Reference clocks (21 R607, R608) -/

section
variable {s : State} (hans : s.answers = true)
include hans

theorem exec_referenceClockLoss_sysclk : exec (.referenceClockLoss .sysclk25) s = .next (chipFatal s srcMonitor 0xFF) := by
  change execReferenceClockLoss .sysclk25 s = _
  rw [execReferenceClockLoss, if_neg (by simp [hans])]
  rfl

theorem exec_referenceClockLoss_pcie (hup : s.pci.up = true) : exec (.referenceClockLoss .pcie) s
    = .next (endpointReset { s with pins := { s.pins with refLostPcie := true } } .linkDown) := by
  change execReferenceClockLoss .pcie s = _
  simp only [execReferenceClockLoss, hans, hup, Bool.not_true, Bool.false_eq_true, if_false, if_true, done]

theorem exec_referenceClockLoss_ethernet : exec (.referenceClockLoss .ethernet) s
    = .next (bothPortsDown { s with pins := { s.pins with refLostEth := true } }) := by
  change execReferenceClockLoss .ethernet s = _
  rw [execReferenceClockLoss, if_neg (by simp [hans])]
  rfl

theorem exec_referenceClockReturn_pcie :
    exec (.referenceClockReturn .pcie) s = .next { s with pins := { s.pins with refLostPcie := false } } := by
  change execReferenceClockReturn .pcie s = _
  rw [execReferenceClockReturn, if_neg (by simp [hans])]
  rfl

theorem exec_referenceClockReturn_ethernet :
    exec (.referenceClockReturn .ethernet) s = .next { s with pins := { s.pins with refLostEth := false } } := by
  change execReferenceClockReturn .ethernet s = _
  rw [execReferenceClockReturn, if_neg (by simp [hans])]
  rfl

end

theorem discardOpenHost_pins (s : State) : (discardOpenHost s).pins = s.pins := keeps_pins (discardOpenHost_erase s (Nat.and_self _)) rfl

/-- A reset of the endpoint moves its interrupt lines alone. -/
theorem endpointReset_refLostPcie (s : State) (e : EndpointEvent) : (endpointReset s e).pins.refLostPcie = s.pins.refLostPcie := by
  rw [endpointReset_eq]
  change (discardOpenHost _).pins.refLostPcie = _
  rw [discardOpenHost_pins, keeps_pins (clearAllMarks_erase _ (Nat.and_self _)) rfl, keeps_pins (dropPushes_erase _ (Nat.and_self _)) rfl]

/-- Both ports that were up go down, each with its record. -/
theorem bothPortsDown_of_up {s : State} (h0 : (s.netPort 0).state = 2) (h1 : (s.netPort 1).state = 2) :
    ((bothPortsDown s).netPort 0).state = 1 ∧ ((bothPortsDown s).netPort 1).state = 1
      ∧ ((bothPortsDown s).netPort 0).downs = (s.netPort 0).downs + 1 ∧ ((bothPortsDown s).netPort 1).downs = (s.netPort 1).downs + 1
      ∧ (bothPortsDown s).journal.waiting = s.journal.waiting ++ [linkRecord s 0, linkRecord (linkChange s 0 false 0) 1] := by
  have hother : (linkChange s 0 false 0).netPort 1 = s.netPort 1 := by rw [linkChange_netPort, if_neg (by decide)]
  refine ⟨?_, ?_, ?_, ?_, ?_⟩
  · rw [bothPortsDown, linkChange_netPort, if_neg (by decide), linkChange_netPort, if_pos rfl]
    rfl
  · rw [bothPortsDown, linkChange_netPort, if_pos rfl]
    rfl
  · rw [bothPortsDown, linkChange_netPort, if_neg (by decide), linkChange_netPort, if_pos rfl]
    simp [h0]
  · rw [bothPortsDown, linkChange_netPort, if_pos rfl, hother]
    simp [h1]
  · rw [bothPortsDown, linkChange_journal _ _ _ (by simp [hother, h1]), linkChange_journal _ _ _ (by simp [h0])]
    simp

/-! ## Temperature (21 R617, R618) -/

section
variable {s : State} {c : Int} {sensor : Nat} (hans : s.answers = true) (hover : overLimitFrom s < c)
include hans hover

/-- Once per minute the over-limit temperature is a class 1 error with record 0x060F. -/
theorem exec_overLimitTemp_due (hdue : ∀ h, s.power.overLimitAt = some h → h + 60 * second ≤ s.time.elapsed) :
    ∃ u : State, u.journal = s.journal ∧ u.power.temp = c ∧ u.power.overLimitAt = some s.time.elapsed
      ∧ u.flt.corrected = s.flt.corrected + 1
      ∧ exec (.overLimitTemp c sensor) s
        = .next (u.emit (u.record 0x060F ucFLT (.flt { cls := 1, source := srcOverLimit, unit := sensor }))) := by
  have hgo : ¬ ((!s.answers) = true ∨ c ≤ overLimitFrom s) := by simpa [hans] using hover
  have hwait : (match s.power.overLimitAt with
      | some t => decide (t + 60 * second ≤ s.time.elapsed)
      | none => true) = true := by
    split
    next h hh => exact decide_eq_true (hdue h hh)
    next => rfl
  refine ⟨{ s with
    power := { s.power with temp := c, sensor := sensor, overLimitAt := some s.time.elapsed }
    flt := { s.flt with corrected := s.flt.corrected + 1, lastClass := 0 } }, rfl, rfl, rfl, rfl, ?_⟩
  change execOverLimitTemp c sensor s = _
  rw [execOverLimitTemp, if_neg hgo]
  extract_lets _ s1 due s2
  have hdue : due = true := hwait
  rw [hdue]
  rfl

theorem exec_overLimitTemp_again {h : Nat} (hlast : s.power.overLimitAt = some h) (hsoon : s.time.elapsed < h + 60 * second) :
    exec (.overLimitTemp c sensor) s = .next { s with power := { s.power with temp := c, sensor := sensor } } := by
  have hgo : ¬ ((!s.answers) = true ∨ c ≤ overLimitFrom s) := by simpa [hans] using hover
  change execOverLimitTemp c sensor s = _
  rw [execOverLimitTemp, if_neg hgo]
  simp only [hlast, decide_eq_false (Nat.not_le.mpr hsoon), Bool.not_false, if_true, done]

end

theorem exec_thermalTrip {s : State} (hans : s.answers = true) : ∃ u : State, u.phase = s.phase ∧ u.pins.thermtripLow = true
    ∧ exec .thermalTrip s = .next (chipFatal u srcMonitor 0xFF) := by
  refine ⟨{ s with pins := { s.pins with thermtripLow := true } }, rfl, rfl, ?_⟩
  change execThermalTrip s = _
  rw [execThermalTrip, if_neg (by simp [hans])]
  rfl

theorem fatalRecord_type (s : State) (source unit_ : Nat) : (fatalRecord s source unit_).type = 0x0609 := by
  rw [fatalRecord, State.record]

theorem chipFatal_pins {s : State} {source unit_ : Nat} (hreset : s.phase ≠ .inReset) (hsafe : s.phase ≠ .safe) :
    (chipFatal s source unit_).pins.faultLow = true ∧ (chipFatal s source unit_).pins.ethIdle0 = true
      ∧ (chipFatal s source unit_).pins.ethIdle1 = true
      ∧ (chipFatal s source unit_).pins.thermtripLow = s.pins.thermtripLow := by
  simpa only [Pins.driven, Prod.mk.injEq] using chipFatal_driven (source := source) (unit_ := unit_) hreset hsafe

/-- A chip-fatal error leaves THERMTRIP_N as it is. -/
theorem chipFatal_thermtripLow (s : State) (source unit_ : Nat) :
    (chipFatal s source unit_).pins.thermtripLow = s.pins.thermtripLow := by
  by_cases hstays : s.phase = .inReset ∨ s.phase = .safe
  · rw [chipFatal, if_pos hstays]
  · obtain ⟨hreset, hsafe⟩ := not_or.mp hstays
    exact (chipFatal_pins hreset hsafe).2.2.2

theorem exec_gpioPulseEnd {s : State} {g : Nat} (hans : s.answers = true) (hset : Table.get 0 g s.pins.gpioUntil ≠ 0) :
    exec (.gpioPulseEnd g) s = .next { s.atElapsed (Table.get 0 g s.pins.gpioUntil) with
      pins := { s.pins with gpioUntil := Table.set 0 g 0 s.pins.gpioUntil } } := by
  have hpins : (s.atElapsed (Table.get 0 g s.pins.gpioUntil)).pins = s.pins := keeps_pins (s.atElapsed_erase _ (Nat.and_self _)) rfl
  change execGpioPulseEnd g s = _
  simp only [execGpioPulseEnd, hans, hset, ne_eq, not_false_eq_true, decide_true, Bool.and_self, if_true, done, hpins]

/-- Settles O57: `bothPortsDown_of_up`, what a reset of the endpoint leaves, and `chipFatal_driven` for the fatal ones. -/
theorem referencesLimitsAndTrips : Obligations.ReferencesLimitsAndTrips := by
  refine ⟨⟨fun s hans => ?sysclk, fun s hans hup => ?pcie, fun s hans h0 h1 => ?ethernet,
    fun s hans => ⟨exec_referenceClockReturn_pcie hans, exec_referenceClockReturn_ethernet hans⟩⟩,
    fun s c sensor hans hover => ⟨fun hdue => ?due, fun h hlast hsoon => ?again⟩, fun s hans => ?trip, fun s g hans hset => ?pulse⟩
  case sysclk => exact ⟨_, exec_referenceClockLoss_sysclk hans, chipFatal_phase _ _ hans⟩
  case pcie =>
    refine ⟨_, exec_referenceClockLoss_pcie hans hup, ?_, ?_, ?_, keeps_phase (endpointReset_erase_pci _ _) rfl⟩
    · rw [endpointReset_refLostPcie]
    · rw [endpointReset_pci]
      rfl
    · rw [endpointReset_pci]
      rfl
  case ethernet =>
    obtain ⟨hstate0, hstate1, hdowns0, hdowns1, hwaiting⟩ :=
      bothPortsDown_of_up (s := { s with pins := { s.pins with refLostEth := true } }) h0 h1
    refine ⟨_, _, _, exec_referenceClockLoss_ethernet hans, ?_, hstate0, hstate1, hdowns0, hdowns1, hwaiting, rfl, rfl, rfl, rfl⟩
    rw [bothPortsDown, linkChange_pins, linkChange_pins]
  case due =>
    obtain ⟨u, hjournal, htemp, hat, hflt, hexec⟩ := exec_overLimitTemp_due (sensor := sensor) hans hover hdue
    refine ⟨_, u.record 0x060F ucFLT (.flt { cls := 1, source := srcOverLimit, unit := sensor }), hexec, htemp, hat, hflt, ?_, rfl⟩
    rw [State.emit_journal_plain _ _ (.inl rfl), hjournal]
  case again => exact ⟨_, exec_overLimitTemp_again hans hover hlast hsoon, rfl, hlast, rfl, rfl⟩
  case trip =>
    obtain ⟨u, hphase, htrip, hexec⟩ := exec_thermalTrip hans
    have hreset : u.phase ≠ .inReset := by simpa [hphase, State.answers] using hans
    refine ⟨_, hexec, (chipFatal_thermtripLow _ _ _).trans htrip, chipFatal_phase _ _ (State.answers_of_phase hreset), fun hs => ?_⟩
    have hsafe : u.phase ≠ .safe := hphase ▸ hs
    exact ⟨(chipFatal_pins hreset hsafe).1, _, fatalRecord_mem hreset hsafe, fatalRecord_type _ _ _⟩
  case pulse =>
    refine ⟨_, exec_gpioPulseEnd hans hset, Table.get_set_self _ _ _ _, ?_⟩
    exact State.atElapsed_elapsed (by simpa [State.answers] using hans) _

end Sys2Proof.Machine

/-! Halts and their release (14 R435, R438, 20 R591): the status of a debug command stands through the work that a stop or a release
sets off, and what the fault manager holds after each. -/

namespace Sys2Proof.Machine

/-! ## The status of the last debug command -/

@[simp] theorem State.trace_status (s : State) (cls inst code : Nat) (data : List Byte) :
    (s.trace cls inst code data).dbg.status = s.dbg.status := by
  unfold State.trace
  extract_lets key held lost r l add
  split_ifs
  · rfl
  · rfl
  · rfl

theorem status_of_erase {m : Nat} {s t : State} (h : t.erase m = s.erase m) (hm : m.testBit 35 = false) :
    t.dbg.status = s.dbg.status := by rw [keeps_dbg h hm]

theorem abandonWith_status (s : State) (p cause status cycles : Nat) (ws : List (Nat × Int × List Byte)) :
    (abandonWith s p cause status cycles ws).dbg.status = s.dbg.status := by
  simp only [abandonWith]
  split
  · rfl
  next r _ =>
    rw [status_of_erase (chargeDev_erase _ _ _ _ (Nat.and_self _)) rfl, status_of_erase (complete_erase _ _ _ (Nat.and_self _)) rfl,
      State.modEngine_dbg, status_of_erase (voidWrites_erase _ _ _ (Nat.and_self _)) rfl, State.trace_status]

theorem abandonTile_status (s : State) (p cause status cycles watchdogs : Nat) :
    (abandonTile s p cause status cycles watchdogs).dbg.status = s.dbg.status := by
  unfold abandonTile
  split
  · rfl
  · exact abandonWith_status s.nextFree p cause status cycles _

theorem stopEngineNow_status (s : State) (p : Nat) : (stopEngineNow s p).dbg.status = s.dbg.status := by
  have hdmas : (abandonDmas s p).dbg.status = s.dbg.status := status_of_erase (abandonDmas_erase s p (Nat.and_self _)) rfl
  unfold stopEngineNow
  split
  · rw [abandonTile_status, hdmas]
  · split
    · rw [status_of_erase (settleHalt_erase _ p (Nat.and_self _)) rfl, hdmas]
    · exact hdmas

/-- A stop without the immediate flag: an engine between tiles halts. -/
def haltAtBoundary (s : State) (p : Nat) : State :=
  match (s.engine p).running with
  | some _ => s
  | none => if (s.engine p).state ≤ 1 then settleHalt s p else s

theorem haltAtBoundary_status (s : State) (p : Nat) : (haltAtBoundary s p).dbg.status = s.dbg.status := by
  unfold haltAtBoundary
  split
  · rfl
  · split
    · exact status_of_erase (settleHalt_erase s p (Nat.and_self _)) rfl
    · rfl

theorem stopEngines_deferred (s : State) : stopEngines s false = (List.range 72).foldl haltAtBoundary s := rfl

theorem stopEngines_status (s : State) (immediate : Bool) : (stopEngines s immediate).dbg.status = s.dbg.status := by
  cases immediate with
  | true =>
    rw [stopEngines_immediate]
    exact foldl_keeps (fun t => t.dbg.status) stopEngineNow_status (List.range 72) s
  | false =>
    rw [stopEngines_deferred]
    exact foldl_keeps (fun t => t.dbg.status) haltAtBoundary_status (List.range 72) s

theorem globalStop_status (s : State) (immediate fatal : Bool) : (globalStop s immediate fatal).dbg.status = s.dbg.status := by
  unfold globalStop
  extract_lets _ s1 s2 s3
  have h3 : s3.dbg.status = s2.dbg.status := by
    unfold s3
    split
    · rw [status_of_erase (stopPreprocess_erase _ (Nat.and_self _)) rfl, status_of_erase (stopDecode_erase _ (Nat.and_self _)) rfl,
        status_of_erase (stopClearing_erase _ (Nat.and_self _)) rfl]
    · rfl
  rw [status_of_erase (settleChannels_erase s3 (Nat.and_self _)) rfl, h3, stopEngines_status]

theorem missingResult_status (s : State) (x : Eval) : (missingResult s x).dbg.status = s.dbg.status := by
  unfold missingResult
  extract_lets s1 _ s2
  have hdecided : (decideEval s x stBUDGET).dbg.status = s.dbg.status := s.trace_status _ _ _ _
  have htold : s1.dbg.status = s.dbg.status := by
    rw [status_of_erase (evalRecords_erase _ _ _ _ _ _ _ (Nat.and_self _)) rfl,
      status_of_erase (noteResult_erase _ _ _ (Nat.and_self _)) rfl, hdecided]
  exact (foldl_keeps (fun t => t.dbg.status) (fun t z => status_of_erase (occupiedBy_erase t z _ _ _ _ _ (Nat.and_self _)) rfl) _ s2).trans
    htold

theorem passDeadlines_status (s : State) : (passDeadlines s).dbg.status = s.dbg.status := by
  unfold passDeadlines
  split
  · rfl
  · extract_lets due s1 late
    have hdue : s1.dbg.status = s.dbg.status := foldl_keeps (fun t => t.dbg.status) missingResult_status due s
    refine (foldl_keeps (fun t => t.dbg.status) (fun t p => ?_) late s1).trans hdue
    exact missingResult_status _ _

theorem reuseBuffers_status (s : State) (n dpb : Nat) : (reuseBuffers s n dpb).dbg.status = s.dbg.status :=
  status_of_erase (reuseBuffers_erase s n dpb (Nat.and_self _)) rfl

theorem startDecode_status (s : State) (d n : Nat) (u : AccessUnit) : (startDecode s d n u).dbg.status = s.dbg.status := by
  simp only [startDecode]
  rw [State.modDec_dbg, State.trace_status, reuseBuffers_status, State.setStream_dbg]

theorem startReplay_status (s : State) (d : Nat) (o : Output) (u : AccessUnit) :
    (startReplay s d o u).dbg.status = s.dbg.status := by
  simp only [startReplay]
  rw [State.modDec_dbg, State.trace_status]

theorem dispatchOne_status {s t : State} (h : dispatchOne s = some t) : t.dbg.status = s.dbg.status := by
  have hfree : (if (freeDecs s).length < 2 then s else s.nextFree).dbg.status = s.dbg.status := by
    split
    · rfl
    · rfl
  unfold dispatchOne at h
  split at h
  · cases h
  · dsimp only at h
    split at h
    · cases h
      rw [startDecode_status, hfree]
    · split at h
      · cases h
      · cases h
        rw [startReplay_status, hfree]

theorem dispatchLoop_status (k : Nat) (s : State) : (dispatchLoop k s).dbg.status = s.dbg.status := by
  induction k generalizing s with
  | zero => rfl
  | succ k ih =>
    rw [dispatchLoop]
    split
    · rfl
    next h => exact (ih _).trans (dispatchOne_status h)

theorem dispatch_status (s : State) : (dispatch s).dbg.status = s.dbg.status := by
  unfold dispatch
  split
  · rfl
  · refine (dispatchLoop_status 18 _).trans (foldl_keeps (fun t => t.dbg.status) (fun t n => ?_) _ s)
    rw [State.modStream_dbg]

/-! ## A released stop (14 R438) -/

/-- An engine that a stop held rests. -/
def restHeld (a : State) (p : Nat) : State :=
  if (a.engine p).activity = 3 then a.modEngine p fun e => { e with activity := 0, idleSince := a.time.elapsed } else a

/-- The fault manager without a stop. -/
def Flt.released (x : Flt) : Flt :=
  { x with stopPhase := 0, immediate := false, state := 0, debugHalt := false, haltByPerm := false }

/-- The engines that a stop held are at rest. -/
def allRest (s : State) : State := (List.range 72).foldl restHeld s

/-- The stop over, with record 0x060A. -/
def resumed (s : State) : State := stopRecord { s with flt := s.flt.released }

/-- Zones start anew, what is late is passed, and the clearing engines take their next commands. -/
def resumedWork (s : State) : State :=
  (List.range 4).foldl beginNext (passPictures (passDeadlines (s.zonesOnAll.foldl enterStart s)))

theorem releaseStop_eq (s : State) : releaseStop s = settleChannels (dispatch (resumedWork (resumed (allRest s)))) := by
  unfold releaseStop
  extract_lets s1 _ s2 s3 s4
  have h1 : s1 = allRest s := rfl
  have h2 : s2 = resumed (allRest s) := by rw [← h1]; rfl
  have h4 : s4 = resumedWork (resumed (allRest s)) := by rw [← h2]; rfl
  rw [h4]

theorem restHeld_flt (a : State) (p : Nat) : (restHeld a p).flt = a.flt := by
  unfold restHeld
  split
  · rfl
  · rfl

theorem restHeld_dbg (a : State) (p : Nat) : (restHeld a p).dbg = a.dbg := by
  unfold restHeld
  split
  · rfl
  · rfl

theorem allRest_flt (s : State) : (allRest s).flt = s.flt := foldl_keeps State.flt restHeld_flt (List.range 72) s

theorem allRest_dbg (s : State) : (allRest s).dbg = s.dbg := foldl_keeps State.dbg restHeld_dbg (List.range 72) s

theorem resumed_flt (s : State) : (resumed s).flt = s.flt.released := rfl

theorem resumed_dbg (s : State) : (resumed s).dbg = s.dbg := rfl

theorem resumedWork_status (s : State) : (resumedWork s).dbg.status = s.dbg.status := by
  unfold resumedWork
  rw [foldl_keeps (fun t => t.dbg.status) (fun a r => status_of_erase (beginNext_erase a r (Nat.and_self _)) rfl),
    status_of_erase (passPictures_erase _ (Nat.and_self _)) rfl, passDeadlines_status,
    foldl_keeps (fun t => t.dbg.status) fun a z => status_of_erase (enterStart_erase a z (Nat.and_self _)) rfl]

theorem resumedWork_flt (s : State) : (resumedWork s).flt = s.flt := by
  unfold resumedWork
  rw [foldl_keeps State.flt (fun a r => keeps_flt (beginNext_erase a r (Nat.and_self _)) rfl),
    keeps_flt (passPictures_erase _ (Nat.and_self _)) rfl, keeps_flt (passDeadlines_erase _ (Nat.and_self _)) rfl,
    foldl_keeps State.flt fun a z => keeps_flt (enterStart_erase a z (Nat.and_self _)) rfl]

theorem releaseStop_flt (s : State) : (releaseStop s).flt = s.flt.released := by
  rw [releaseStop_eq, keeps_flt (settleChannels_erase _ (Nat.and_self _)) rfl, keeps_flt (dispatch_erase _ (Nat.and_self _)) rfl,
    resumedWork_flt, resumed_flt, allRest_flt]

theorem releaseStop_status (s : State) : (releaseStop s).dbg.status = s.dbg.status := by
  rw [releaseStop_eq, status_of_erase (settleChannels_erase _ (Nat.and_self _)) rfl, dispatch_status, resumedWork_status,
    resumed_dbg, allRest_dbg]

/-! ## The halt commands (20 R591) -/

/-- A halt is barred outside the manufacturing state without permission bit 2, while one is in force or a batch pends, and in the safe
state. -/
def haltBarred (s : State) : Prop :=
  (s.fuses.lifecycle ≠ 0 ∧ s.permits 2 = false) ∨ s.flt.debugHalt = true ∨ s.stl.batch ≠ none ∨ s.phase = .safe

theorem halt_of_barred {s : State} (op : Nat) (immediate : Bool) (h : haltBarred s) :
    halt s op immediate = (s.dbgStatus stSTATE).countReject 0 op := by
  rw [halt, if_pos]
  simpa only [haltBarred, Bool.and_eq_true, Bool.not_eq_true', decide_eq_false_iff_not, Option.isSome_iff_ne_none] using h

/-- The halt noted on a stopped device. -/
def noteHalt (u : State) (byPerm : Bool) : State := { u with flt := { u.flt with debugHalt := true, haltByPerm := byPerm } }

/-- A halt that is taken: the stop, told by record 0x060A, and the halt noted. -/
theorem halt_of_taken {s : State} (op : Nat) (immediate : Bool) (h : ¬ haltBarred s) : halt s op immediate
    = stopRecord (noteHalt (globalStop (s.dbgStatus stOK) immediate false) !decide (s.fuses.lifecycle = 0)) := by
  rw [halt, if_neg]
  · rfl
  · simpa only [haltBarred, Bool.and_eq_true, Bool.not_eq_true', decide_eq_false_iff_not, Option.isSome_iff_ne_none] using h

theorem noteHalt_flt (u : State) (byPerm : Bool) :
    (noteHalt u byPerm).flt = { u.flt with debugHalt := true, haltByPerm := byPerm } := rfl

theorem noteHalt_dbg (u : State) (byPerm : Bool) : (noteHalt u byPerm).dbg = u.dbg := rfl

theorem exec_halts {s : State} {c : Instr} {imm : Bool} (hans : s.answers = true)
    (hc : (c, imm) ∈ [(Instr.halt, false), (Instr.haltImmediate, true)]) : ∃ op, exec c s = .next (halt s op imm) := by
  simp only [List.mem_cons, Prod.mk.injEq, List.not_mem_nil, or_false] at hc
  rcases hc with ⟨rfl, rfl⟩ | ⟨rfl, rfl⟩
  · exact ⟨0x01, congrArg Host.Outcome.next (if_pos hans)⟩
  · exact ⟨0x02, congrArg Host.Outcome.next (if_pos hans)⟩

theorem exec_releaseHalt_of_halted {s : State} (hans : s.answers = true) (hhalt : s.flt.debugHalt = true) (hsafe : s.phase ≠ .safe) :
    exec .releaseHalt s = .next (releaseStop (s.dbgStatus stOK)) := by
  change execReleaseHalt s = _
  rw [execReleaseHalt, if_neg (by simp [hans]), if_pos (by simp [hhalt, hsafe])]
  rfl

theorem exec_releaseHalt_of_free {s : State} (hans : s.answers = true) (hfree : s.flt.debugHalt = false ∨ s.phase = .safe) :
    exec .releaseHalt s = .next ((s.dbgStatus stSTATE).countReject 0 0x03) := by
  change execReleaseHalt s = _
  rw [execReleaseHalt, if_neg (by simp [hans]), if_neg (by rcases hfree with h | h <;> simp [h])]
  rfl

/-! ## The obligation -/

theorem exec_fatal {s : State} {source unit_ : Nat} {b : Bool} {c : Instr}
    (hc : c = .chipFatal source unit_ ∨ c = .supplyMonitorFault b unit_) : ∃ src, exec c s = .next (chipFatal s src unit_) := by
  rcases hc with rfl | rfl
  · exact ⟨_, rfl⟩
  · exact ⟨_, rfl⟩

/-- Settles O43: the lemmas of `chipFatal` for the safe state, `halt_of_taken` and `halt_of_barred` for the halts, and what
`releaseStop` leaves of the fault manager. -/
theorem stopsAndHaltsTakeEffect : Obligations.StopsAndHaltsTakeEffect := by
  refine ⟨⟨fun s source unit_ b c hreset hsafe hc => ?fatal, fun s source unit_ hsafe => ?safe, fun s hphase hcut => ?cut⟩,
    fun s c imm hans hc => ⟨fun hperm hhalt hbatch hsafe => ?taken, fun hbar => ?barred⟩, fun s hans hhalt hsafe => ?release,
    fun s hans hfree => ?free⟩
  case fatal =>
    obtain ⟨src, hexec⟩ := exec_fatal (s := s) hc
    have herase := chipFatal_erase_entered (source := src) (unit_ := unit_) hreset hsafe
    obtain ⟨hengines, hclrs, hdecs⟩ := fatalEntered_idle s src
    obtain ⟨hbatch, hupdate⟩ := fatalEntered_stl s src
    obtain ⟨hfault, hidle0, hidle1, -⟩ := chipFatal_pins (source := src) (unit_ := unit_) hreset hsafe
    refine ⟨_, _, hexec, chipFatal_phase _ _ (State.answers_of_phase hreset), hfault, hidle0, hidle1,
      fun n hn => chipFatal_toggling hreset hsafe hn, fun p hp => ?_, fun r hr => ?_, fun d hd => ?_, ?_, ?_, ?_,
      fatalRecord_mem hreset hsafe, fatalRecord_type _ _ _⟩
    · rw [State.engine_of_erase herase rfl, hengines p hp]
    · rw [State.clr_of_erase herase rfl, hclrs r hr]
    · rw [State.dec_of_erase herase rfl, hdecs d hd]
    · rw [keeps_stl herase rfl, hbatch]
    · rw [keeps_stl herase rfl, hupdate]
    · rw [keeps_flt herase rfl, fatalEntered_flt]
      rfl
  case safe =>
    exact ⟨congrArg Host.Outcome.next (chipFatal_of_safe hsafe _ _), fun b => congrArg Host.Outcome.next (chipFatal_of_safe hsafe _ _)⟩
  case cut => exact ⟨_, congrArg Host.Outcome.next (if_pos ⟨hphase, hcut⟩), rfl, rfl⟩
  case taken =>
    have hfree : ¬ haltBarred s := by
      rintro (⟨hlife, hno⟩ | hin | hpend | hin)
      · rcases hperm with h | h
        · exact hlife h
        · simp [hno] at h
      · simp [hhalt] at hin
      · exact hpend hbatch
      · exact hsafe hin
    obtain ⟨op, hexec⟩ := exec_halts hans hc
    refine ⟨_, (noteHalt (globalStop (s.dbgStatus stOK) imm false) !decide (s.fuses.lifecycle = 0)).record 0x060A ucFLT (.flt {}),
      hexec.trans (congrArg _ (halt_of_taken op imm hfree)), ?_⟩
    rw [stopRecord, State.emit_flt, noteHalt_flt, globalStop_flt, State.emit_dbg, noteHalt_dbg, globalStop_status,
      State.emit_journal_plain _ _ (.inl rfl), List.getLast?_concat]
    exact ⟨rfl, rfl, rfl, rfl, rfl, rfl, rfl⟩
  case barred =>
    obtain ⟨op, hexec⟩ := exec_halts hans hc
    exact ⟨_, hexec.trans (congrArg _ (halt_of_barred op imm hbar)), rfl, rfl, rfl, rfl⟩
  case release =>
    refine ⟨_, exec_releaseHalt_of_halted hans hhalt hsafe, ?_⟩
    rw [releaseStop_flt, releaseStop_status]
    exact ⟨rfl, rfl, rfl, rfl⟩
  case free => exact ⟨_, exec_releaseHalt_of_free hans hfree, rfl, rfl, rfl⟩

end Sys2Proof.Machine

/-! Zones (15 R458 to R465): what settling a channel leaves of them, an untrusted input, the hold, the period boundary and the sampled
pins of a channel. -/

namespace Sys2Proof.Machine

/-! ## What an operation leaves of the safety unit -/

@[simp] theorem State.atStation_saf (s : State) (n : Nat) : (s.atStation n).saf = s.saf := keeps_saf (s.atStation_erase n (Nat.and_self _)) rfl

@[simp] theorem State.atStation_zone (s : State) (n z : Nat) : (s.atStation n).zone z = s.zone z := by
  rw [State.zone, State.atStation_saf, State.zone]

@[simp] theorem State.atStation_mayBegin (s : State) (n : Nat) : (s.atStation n).mayBegin = s.mayBegin :=
  State.mayBegin_of_erase (s.atStation_erase n (Nat.and_self _)) rfl rfl

@[simp] theorem State.atStation_phase (s : State) (n : Nat) : (s.atStation n).phase = s.phase :=
  keeps_phase (s.atStation_erase n (Nat.and_self _)) rfl

@[simp] theorem State.safRecord_saf (s : State) (type z status : Nat) (p : SafPl) (stream tick : Nat) (epoch : Option Nat) :
    (s.safRecord type z status p stream tick epoch).saf = s.saf :=
  keeps_saf (s.safRecord_erase type z status p stream tick epoch (Nat.and_self _)) rfl

/-- A settled channel changes the channels alone of the safety unit. -/
theorem settleChannel_saf (s : State) (n : Nat) :
    (settleChannel s n).saf = { s.saf with channels := (settleChannel s n).saf.channels } := by
  simp only [settleChannel]
  split
  · rfl
  · rfl

@[simp] theorem settleChannel_zone (s : State) (n z : Nat) : (settleChannel s n).zone z = s.zone z := by
  rw [State.zone, settleChannel_saf, State.zone]

@[simp] theorem settleChannel_untrusted (s : State) (n : Nat) : (settleChannel s n).saf.untrusted = s.saf.untrusted := by
  rw [settleChannel_saf]

/-! ## Occupied and untrusted (15 R457, R461) -/

section
variable {s : State} {z : Nat}

theorem occupiedBy_zone (hon : (s.zone z).state ≠ .off) (cause : Nat) (p : SafPl) (stream tick : Nat) (epoch : Option Nat) (j : Nat) :
    (occupiedBy s z cause p stream tick epoch).zone j
      = if j = z then { s.zone z with state := .occupied, cause := cause, q := 0, since := s.time.now } else s.zone j := by
  have hsaf (t : State) (h : t.saf = (s.setZone z { s.zone z with state := .occupied, cause := cause, q := 0, since := s.time.now }).saf) :
      t.zone j = if j = z then { s.zone z with state := .occupied, cause := cause, q := 0, since := s.time.now } else s.zone j := by
    rw [State.zone, h]
    exact State.setZone_get _ _ _ _
  rw [occupiedBy, if_neg hon, settleChannel_zone]
  refine hsaf _ ?_
  split
  · rfl
  · exact State.safRecord_saf _ _ _ _ _ _ _ _

theorem occupiedBy_untrusted (cause : Nat) (p : SafPl) (stream tick : Nat) (epoch : Option Nat) :
    (occupiedBy s z cause p stream tick epoch).saf.untrusted = s.saf.untrusted := by
  rw [occupiedBy]
  split
  · rfl
  · rw [settleChannel_untrusted]
    split
    · rfl
    · rw [State.safRecord_saf]
      rfl

/-- An untrusted input counts for the zone and for the device. -/
theorem untrustedInput_zone (hon : (s.zone z).state ≠ .off) :
    ((untrustedInput s z).zone z).u = (s.zone z).u + 1 ∧ ((untrustedInput s z).zone z).q = 0
      ∧ ((untrustedInput s z).zone z).period = (s.zone z).period
      ∧ ((s.zone z).row.nLimit ≤ (s.zone z).u + 1 →
        ((untrustedInput s z).zone z).state = .occupied ∧ ((untrustedInput s z).zone z).cause = causeUntrusted) := by
  unfold untrustedInput
  extract_lets x s1 _ s2
  have hzone : s2.zone z = { x with u := x.u + 1, q := 0, secUntrusted := x.secUntrusted + 1 } := by
    change s1.zone z = _
    rw [State.setZone_get, if_pos rfl]
  split
  next hlimit =>
    rw [occupyZone, occupiedBy_zone (by rw [hzone]; exact hon), if_pos rfl, hzone]
    exact ⟨rfl, rfl, rfl, fun _ => ⟨rfl, rfl⟩⟩
  next hlimit =>
    rw [hzone]
    exact ⟨rfl, rfl, rfl, fun h => absurd h hlimit⟩

theorem untrustedInput_untrusted : (untrustedInput s z).saf.untrusted = s.saf.untrusted + 1 := by
  simp only [untrustedInput, apply_ite (fun t : State => t.saf.untrusted), occupyZone, occupiedBy_untrusted, State.setZone, ite_self]

end


/-! ## The period boundary (15 R458, R464) -/

/-- A zone whose period has passed. -/
def Zone.nextPeriod (x : Zone) : Zone := { x with period := x.period + 1, inputThisPeriod := false, decided := true }

section
variable {s : State} {z : Nat}

/-- A zone with no safety restart due: its period passes. -/
theorem zoneBoundary_of_free (hfree : ∀ e ∈ s.stl.safetyZones, e.1 ≠ z) : ∃ u : State, u.saf = (s.setZone z (s.zone z).nextPeriod).saf
    ∧ zoneBoundary s z
      = settleChannel (if (s.zone z).inputThisPeriod then u else untrustedInput u z) (s.zone z).row.channel := by
  have hdue : ¬ (s.stl.safetyZones.any fun e => e.1 == z && decide (e.2 ≤ s.time.now)) = true := by
    simp only [List.any_eq_true, Bool.and_eq_true, beq_iff_eq, not_exists, not_and]
    exact fun e he hz => absurd hz (hfree e he)
  refine ⟨notePeriod (s.setZone z (s.zone z).nextPeriod) z, keeps_saf (notePeriod_erase _ z (Nat.and_self _)) rfl, ?_⟩
  rw [zoneBoundary, if_neg hdue]
  rfl

theorem zone_of_saf {s t : State} (h : t.saf = s.saf) (z : Nat) : t.zone z = s.zone z := by rw [State.zone, h, State.zone]

theorem zoneBoundary_of_input (hfree : ∀ e ∈ s.stl.safetyZones, e.1 ≠ z) (hinput : (s.zone z).inputThisPeriod = true) :
    (zoneBoundary s z).zone z = (s.zone z).nextPeriod := by
  obtain ⟨u, hsaf, heq⟩ := zoneBoundary_of_free hfree
  rw [heq, if_pos hinput, settleChannel_zone, zone_of_saf hsaf, State.setZone_get, if_pos rfl]

/-- A period without input is an untrusted one. -/
theorem zoneBoundary_of_silent (hon : (s.zone z).state ≠ .off) (hfree : ∀ e ∈ s.stl.safetyZones, e.1 ≠ z)
    (hinput : (s.zone z).inputThisPeriod = false) :
    ((zoneBoundary s z).zone z).period = (s.zone z).period + 1 ∧ ((zoneBoundary s z).zone z).u = (s.zone z).u + 1
      ∧ ((zoneBoundary s z).zone z).q = 0 ∧ (zoneBoundary s z).saf.untrusted = s.saf.untrusted + 1
      ∧ ((s.zone z).row.nLimit ≤ (s.zone z).u + 1 →
        ((zoneBoundary s z).zone z).state = .occupied ∧ ((zoneBoundary s z).zone z).cause = causeUntrusted) := by
  obtain ⟨v, hsaf, heq⟩ := zoneBoundary_of_free hfree
  have hzone : v.zone z = (s.zone z).nextPeriod := by rw [zone_of_saf hsaf, State.setZone_get, if_pos rfl]
  obtain ⟨hu, hq, hperiod, hlimit⟩ := untrustedInput_zone (s := v) (z := z) (by rw [hzone]; exact hon)
  rw [heq, hinput, settleChannel_zone, settleChannel_untrusted, if_neg Bool.false_ne_true, untrustedInput_untrusted, hu, hq, hperiod, hsaf]
  rw [hzone] at hlimit ⊢
  exact ⟨rfl, rfl, rfl, rfl, hlimit⟩

variable (hgo : s.mayBegin = true) (hon : (s.zone z).state ≠ .off)
include hgo hon

theorem exec_zonePeriodBoundary_ok : exec (.zonePeriodBoundary z true) s
    = .next (zoneBoundary (s.atStation ((s.zone z).t0 + ((s.zone z).period + 1) * (s.zone z).pz)) z) := by
  change execZonePeriodBoundary z true s = _
  rw [execZonePeriodBoundary, if_neg (by simp [hgo, hon])]
  rfl

theorem exec_zonePeriodBoundary_failed : ∃ u : State, u.phase = s.phase
    ∧ exec (.zonePeriodBoundary z false) s = .next (chipFatal u srcSelfCheck 0xFF) := by
  refine ⟨zoneBoundary (s.atStation ((s.zone z).t0 + ((s.zone z).period + 1) * (s.zone z).pz)) z, ?_, ?_⟩
  · rw [keeps_phase (zoneBoundary_erase _ _ (Nat.and_self _)) rfl, State.atStation_phase]
  · change execZonePeriodBoundary z false s = _
    rw [execZonePeriodBoundary, if_neg (by simp [hgo, hon])]
    rfl

/-! ## Late decisions and holds (15 R460, R464) -/

theorem exec_zoneDecisionTimeout : exec (.zoneDecisionTimeout z) s = .next (decisionLate (s.atStation (decisionDue s z)) z) := by
  change execZoneDecisionTimeout z s = _
  rw [execZoneDecisionTimeout, if_neg (by simp [hgo, hon])]
  rfl

theorem exec_zoneHoldExpiry : exec (.zoneHoldExpiry z) s
    = .next (tryClear (s.atStation ((s.zone z).since + (s.zone z).row.hold * 1000000)) z) := by
  change execZoneHoldExpiry z s = _
  rw [execZoneHoldExpiry, if_neg (by simp [hgo, hon])]
  rfl

end

section
variable {s : State} {z n : Nat}

/-- An enabled zone is one of those of its channel. -/
theorem mem_zonesOn (hon : (s.zone z).state ≠ .off) : z ∈ s.zonesOn (s.zone z).row.channel := by
  obtain hdefault | hmem := Table.get_eq_or_mem ({} : Zone) z s.saf.zones
  · exact absurd (congrArg Zone.state hdefault) hon
  · refine List.mem_map.mpr ⟨(z, s.zone z), List.mem_filter.mpr ⟨hmem, ?_⟩, rfl⟩
    simp [hon]

/-- A zone that holds its channel keeps it from indicating clear (15 R462). -/
theorem indicatesClear_of_held (hon : (s.zone z).state ≠ .off) (hholds : (s.zone z).holds = true) :
    s.indicatesClear (s.zone z).row.channel = false := by
  have hall : ((s.zonesOn (s.zone z).row.channel).all fun z => !(s.zone z).holds) = false := by
    rw [List.all_eq_false]
    exact ⟨z, mem_zonesOn hon, by simp [hholds]⟩
  rw [State.indicatesClear, hall, Bool.and_false]

theorem decisionLate_stops (hon : (s.zone z).state ≠ .off) :
    ((decisionLate s z).zone z).decided = false ∧ ((decisionLate s z).channel (s.zone z).row.channel).toggling = false := by
  have hzone : (s.modZone z fun y => { y with decided := false }).zone z = { s.zone z with decided := false } := by
    rw [State.modZone, State.setZone_get, if_pos rfl]
  rw [decisionLate]
  refine ⟨by rw [settleChannel_zone, hzone], ?_⟩
  rw [settleChannel_toggling, if_pos rfl]
  have hheld := indicatesClear_of_held (s := s.modZone z fun y => { y with decided := false }) (z := z)
    (by rw [hzone]; exact hon) (by rw [hzone]; simp [Zone.holds])
  rwa [hzone] at hheld

/-- Clear is earned (15 R460): record 0x0701 tells it. -/
theorem tryClear_of_earned (hstate : (s.zone z).state = .start ∨ (s.zone z).state = .occupied) (hcount : (s.zone z).row.cCount ≤ (s.zone z).q)
    (hheld : (s.zone z).since + (s.zone z).row.hold * 1000000 ≤ s.time.now) :
    ((tryClear s z).zone z).state = .clear ∧ ∃ x ∈ (tryClear s z).journal.waiting, x.type = 0x0701 := by
  simp only [tryClear]
  rw [if_pos ⟨hstate, hcount, hheld⟩]
  constructor
  · rw [settleChannel_zone, zone_of_saf (State.safRecord_saf _ _ _ _ _ _ _ _), State.setZone_get, if_pos rfl]
  · exact ⟨_, (RecordsAdded.settleChannel _ _).kept (State.mem_emit_waiting.mpr (.inl rfl)), rfl⟩

theorem tryClear_of_short (h : (s.zone z).q < (s.zone z).row.cCount) : tryClear s z = s := by
  rw [tryClear]
  exact if_neg fun hc => absurd hc.2.1 (Nat.not_le.mpr h)

/-! ## The sampled pins of a channel (15 R463, R465) -/

theorem senseChannel_of_equal : senseChannel s n (s.channel n).levelA (s.channel n).levelB
    = s.setChannel n { s.channel n with mismatches := 0 } := by
  rw [senseChannel]
  exact if_pos ⟨rfl, rfl⟩

theorem indicatesClear_of_latched (h : (s.channel n).latched = true) : s.indicatesClear n = false := by
  simp [State.indicatesClear, h]

theorem settleChannel_latched (s : State) (n : Nat) : ((settleChannel s n).channel n).latched = (s.channel n).latched := by
  simp only [settleChannel]
  split
  · rfl
  · rw [State.raise, State.channel_of_erase (State.updateInta_erase _ (Nat.and_self _)) rfl,
      State.channel_of_erase (State.cause_erase _ _ (Nat.and_self _)) rfl,
      State.channel_of_erase (State.emit_erase _ _ (Nat.and_self _)) rfl, State.setChannel_get, if_pos rfl]

/-- The second sample in a row that differs latches the channel and stops it. -/
theorem senseChannel_of_second {a b : Bool} (hlatched : (s.channel n).latched = false) (hmis : (s.channel n).mismatches ≠ 0)
    (hdiff : a ≠ (s.channel n).levelA ∨ b ≠ (s.channel n).levelB) :
    ((senseChannel s n a b).channel n).latched = true ∧ ((senseChannel s n a b).channel n).toggling = false
      ∧ ∃ x ∈ (senseChannel s n a b).journal.waiting, x.type = 0x0706 := by
  have hne : ¬ (a = (s.channel n).levelA ∧ b = (s.channel n).levelB) := fun h => hdiff.elim (· h.1) (· h.2)
  rw [senseChannel, if_neg hne, if_neg (by simp [hlatched, hmis])]
  extract_lets s1
  have hset (r : Rec) : (s1.emit r).channel n = { s.channel n with mismatches := (s.channel n).mismatches + 1, latched := true } := by
    rw [State.channel_of_erase (State.emit_erase _ _ (Nat.and_self _)) rfl, State.setChannel_get, if_pos rfl]
  refine ⟨?_, ?_, _, (RecordsAdded.settleChannel _ _).kept (State.mem_emit_waiting.mpr (.inl rfl)), rfl⟩
  · rw [settleChannel_latched, hset]
  · rw [settleChannel_toggling, if_pos rfl, indicatesClear_of_latched (by rw [hset])]

variable (hans : s.answers = true) (hn : n < 16)
include hans hn

theorem exec_safeHalfPeriod (a b : Bool) : exec (.safeHalfPeriod n a b) s = .next
    (if ((senseChannel s n a b).channel n).toggling then
      (senseChannel s n a b).setChannel n { (senseChannel s n a b).channel n with highA := !((senseChannel s n a b).channel n).highA }
    else senseChannel s n a b) := by
  change execSafeHalfPeriod n a b s = _
  rw [execSafeHalfPeriod, if_pos (by simp [hans, hn])]
  rfl

end

/-- Settles O45: `zoneBoundary_of_input` and `zoneBoundary_of_silent` for the period, `indicatesClear_of_held` for a late decision,
`tryClear_of_earned` for the hold, and `senseChannel` for the pins. -/
theorem zonePeriodsAndChannels : Obligations.ZonePeriodsAndChannels := by
  refine ⟨fun s z hgo hon hfree hinput => ?input, fun s z hgo hon hfree hinput => ?silent, fun s z hgo hon => ?failed,
    fun s z hgo hon => ?late, fun s u z hgo hstate hu hcount hheld => ?earned, fun s z hgo hon hshort => ?short,
    fun s n hans hn htoggles => ?toggles, fun s n hans hn hstopped => ?stopped, fun s n a b hans hn hlatched hmis hdiff => ?latches⟩
  case input =>
    have hzone := zoneBoundary_of_input (s := s.atStation ((s.zone z).t0 + ((s.zone z).period + 1) * (s.zone z).pz))
      (z := z) (by rw [State.atStation_stl]; exact hfree) (by rw [State.atStation_zone]; exact hinput)
    rw [State.atStation_zone] at hzone
    refine ⟨_, exec_zonePeriodBoundary_ok hgo hon, ?_⟩
    rw [hzone]
    exact ⟨rfl, rfl, rfl, rfl, rfl⟩
  case silent =>
    have hzone := zoneBoundary_of_silent (s := s.atStation ((s.zone z).t0 + ((s.zone z).period + 1) * (s.zone z).pz))
      (z := z) (by rw [State.atStation_zone]; exact hon) (by rw [State.atStation_stl]; exact hfree) (by rw [State.atStation_zone]; exact hinput)
    rw [State.atStation_zone, State.atStation_saf] at hzone
    exact ⟨_, exec_zonePeriodBoundary_ok hgo hon, hzone⟩
  case failed =>
    obtain ⟨u, hphase, hexec⟩ := exec_zonePeriodBoundary_failed hgo hon
    have hrun : u.phase = .running := hphase.trans (State.phase_of_running (Bool.and_eq_true_iff.mp hgo).1)
    have hreset : u.phase ≠ .inReset := by rw [hrun]; exact nofun
    exact ⟨_, _, hexec, chipFatal_phase _ _ (State.answers_of_phase hreset), fatalRecord_mem hreset (by rw [hrun]; exact nofun),
      fatalRecord_type _ _ _⟩
  case late =>
    have hstops := decisionLate_stops (s := s.atStation (decisionDue s z)) (z := z) (by rw [State.atStation_zone]; exact hon)
    rw [State.atStation_zone] at hstops
    exact ⟨_, exec_zoneDecisionTimeout hgo hon, hstops⟩
  case earned =>
    have hon : (s.zone z).state ≠ .off := by
      obtain h | h := hstate
      · rw [h]; exact nofun
      · rw [h]; exact nofun
    subst hu
    obtain ⟨hclear, x, hx, htype⟩ := tryClear_of_earned (s := s.atStation ((s.zone z).since + (s.zone z).row.hold * 1000000)) (z := z)
      (by rw [State.atStation_zone]; exact hstate) (by rw [State.atStation_zone]; exact hcount)
      (by rw [State.atStation_zone]; exact hheld)
    exact ⟨_, x, exec_zoneHoldExpiry hgo hon, hclear, hx, htype⟩
  case short =>
    refine ⟨_, exec_zoneHoldExpiry hgo hon, ?_⟩
    rw [tryClear_of_short (by rw [State.atStation_zone]; exact hshort), State.atStation_saf]
  case toggles =>
    have hA : (s.channel n).highA = (s.channel n).levelA := by simp [Channel.levelA, htoggles]
    have hB : (!(s.channel n).highA) = (s.channel n).levelB := by simp [Channel.levelB, htoggles]
    have hsense : senseChannel s n (s.channel n).highA (!(s.channel n).highA) = s.setChannel n { s.channel n with mismatches := 0 } := by
      conv_lhs => rw [hB, hA]
      exact senseChannel_of_equal
    have hchan : (s.setChannel n { s.channel n with mismatches := 0 }).channel n = { s.channel n with mismatches := 0 } := by
      rw [State.setChannel_get, if_pos rfl]
    refine ⟨_, exec_safeHalfPeriod hans hn _ _, ?_⟩
    rw [hsense, hchan, if_pos htoggles, State.setChannel_get, if_pos rfl]
    exact ⟨rfl, htoggles, rfl⟩
  case stopped =>
    have hsense : senseChannel s n false false = s.setChannel n { s.channel n with mismatches := 0 } := by
      rw [senseChannel]
      exact if_pos ⟨by simp [Channel.levelA, hstopped], by simp [Channel.levelB, hstopped]⟩
    have hchan : (s.setChannel n { s.channel n with mismatches := 0 }).channel n = { s.channel n with mismatches := 0 } := by
      rw [State.setChannel_get, if_pos rfl]
    refine ⟨_, exec_safeHalfPeriod hans hn _ _, ?_⟩
    rw [hsense, hchan, hstopped, if_neg Bool.false_ne_true, hchan]
    exact ⟨hstopped, rfl⟩
  case latches =>
    obtain ⟨hlatch, hstop, x, hx, htype⟩ := senseChannel_of_second hlatched hmis hdiff
    refine ⟨_, x, exec_safeHalfPeriod hans hn a b, ?_⟩
    rw [hstop, if_neg Bool.false_ne_true]
    exact ⟨hlatch, hstop, hx, htype⟩

end Sys2Proof.Machine

/-! The power cap and droops (21 R613 to R616): the ratios a tick leaves, and the tiles that a droop abandons. -/

namespace Sys2Proof.Machine

/-! ## The cap controller (21 R615) -/

@[simp] theorem trackAll_power (s : State) : (trackAll s).power = s.power := keeps_power (trackAll_erase s (Nat.and_self _)) rfl

@[simp] theorem State.atMultiple_power (s : State) (n : Nat) : (s.atMultiple n).power = s.power :=
  keeps_power (s.atMultiple_erase n (Nat.and_self _)) rfl

@[simp] theorem throttleAt_atMultiple (s : State) (n : Nat) : throttleAt (s.atMultiple n) = throttleAt s := by
  rw [throttleAt, keeps_fuses (s.atMultiple_erase n (Nat.and_self _)) rfl, throttleAt]

/-- The ratios of CD0, CD1 and the media units. -/
def Power.ratios (p : Power) : Nat × Nat × Nat := (p.cd0, p.cd1, p.media)

/-- No droop lasts. -/
def Power.steady (p : Power) : Prop := p.droop0 = none ∧ p.droop1 = none ∧ p.droopM = none

/-- The package power and the hottest junction as a tick measures them. -/
def Power.measured (p : Power) (mw : Nat) (c : Int) (sensor : Nat) : Power :=
  { p with power := min 255 (mw / 1000), temp := c, sensor := sensor }

/-- Above a limit the controller takes a step down. -/
def Power.lowered (p : Power) (zones overPower overTemp : Bool) : Power :=
  { p.setBases (lowerRatio zones (p.bases zones)) with
    below := 0
    capLimited := p.capLimited || (overPower && lowerRatio zones (p.bases zones) != p.bases zones)
    thermalLimited := p.thermalLimited || (overTemp && lowerRatio zones (p.bases zones) != p.bases zones) }

theorem exec_powerCapTick {s : State} (mw : Nat) (c : Int) (sensor : Nat) (hrun : s.running = true) :
    exec (.powerCapTick mw c sensor) s = .next (capTick (s.atMultiple 10000000) mw c sensor) := by
  change execPowerCapTick mw c sensor s = _
  rw [execPowerCapTick, if_pos hrun]
  rfl

/-- The controller as a tick has moved it: its new ratios and count, and whether it chose between equal compute dies. -/
def capMoved (s : State) (p : Power) (mw : Nat) (c : Int) : Power × Bool :=
  if decide (s.cfg.capMilliwatts < mw) || decide (throttleAt s < c) then
    (p.lowered (!s.cfg.enabledZones.isEmpty) (decide (s.cfg.capMilliwatts < mw)) (decide (throttleAt s < c)), false)
  else if mw + 5000 < s.cfg.capMilliwatts ∧ c ≤ throttleAt s - 3 then
    if p.below + 1 < 10 then
      ({ p.setBases (p.bases (!s.cfg.enabledZones.isEmpty)) with below := p.below + 1 }, false)
    else
      ({ p.setBases (raiseRatio (Config.freeBit s.free) (p.bases (!s.cfg.enabledZones.isEmpty))) with below := 0 }, true)
  else ({ p.setBases (p.bases (!s.cfg.enabledZones.isEmpty)) with below := 0 }, false)

section
variable (s : State) (mw : Nat) (c : Int) (sensor : Nat)

/-- What a tick ends with leaves the count and the ratios as the controller moved them. -/
theorem capTick_power : (capTick s mw c sensor).power.below = (capMoved s (s.power.measured mw c sensor) mw c).1.below
    ∧ (capTick s mw c sensor).power.ratios = (capMoved s (s.power.measured mw c sensor) mw c).1.ratios := by
  have hlimits (q : Power) (full : Prop) [Decidable full] :
      (if full then { q with capLimited := false, thermalLimited := false } else q).below = q.below
        ∧ (if full then { q with capLimited := false, thermalLimited := false } else q).ratios = q.ratios := by
    split
    · exact ⟨rfl, rfl⟩
    · exact ⟨rfl, rfl⟩
  have hfree (t : State) (chose : Bool) : (trackAll (if chose then t.nextFree else t)).power = t.power := by
    rw [trackAll_power]
    split
    · rfl
    · rfl
  unfold capTick
  extract_lets _ _ _ _ _ _ _ _ _ _ _ q full _ power s1
  rw [hfree]
  exact hlimits q.1 (full = true)

end

section
variable {p : Power} (hsteady : p.steady)
include hsteady

theorem setBases_ratios (r : Nat × Nat × Nat) : (p.setBases r).ratios = r := by
  obtain ⟨h0, h1, hM⟩ := hsteady
  simp [Power.setBases, Power.ratios, h0, h1, hM]

theorem bases_of_steady (zones : Bool) : p.bases zones = (p.cd0, p.cd1, if zones then 16 else p.media) := by
  obtain ⟨h0, h1, hM⟩ := hsteady
  simp [Power.bases, h0, h1, hM]

end

/-- The ratios a tick starts from where no droop lasts: media at 16 while a zone is enabled. -/
def State.tickRatios (s : State) : Nat × Nat × Nat :=
  (s.power.cd0, s.power.cd1, if s.cfg.enabledZones = [] then s.power.media else 16)

section
variable {s : State} {mw : Nat} {c : Int} (sensor : Nat) (hsteady : s.power.steady)
include hsteady

theorem measured_bases (mw : Nat) (c : Int) : (s.power.measured mw c sensor).bases (!s.cfg.enabledZones.isEmpty) = s.tickRatios := by
  rw [bases_of_steady (p := s.power.measured mw c sensor) hsteady, State.tickRatios]
  cases hzones : s.cfg.enabledZones with
  | nil => rfl
  | cons z zs => rfl

theorem capTick_of_over (hover : s.cfg.capMilliwatts < mw ∨ throttleAt s < c) : (capTick s mw c sensor).power.below = 0
    ∧ (capTick s mw c sensor).power.ratios = lowerRatio (!s.cfg.enabledZones.isEmpty) s.tickRatios := by
  obtain ⟨hbelow, hratios⟩ := capTick_power s mw c sensor
  rw [hbelow, hratios, capMoved, if_pos (by simpa using hover), Power.lowered, measured_bases sensor hsteady]
  exact ⟨rfl, setBases_ratios (p := s.power.measured mw c sensor) hsteady _⟩

theorem capTick_of_below (hpower : mw + 5000 < s.cfg.capMilliwatts) (htemp : c ≤ throttleAt s - 3) (hcount : s.power.below + 1 < 10) :
    (capTick s mw c sensor).power.below = s.power.below + 1 ∧ (capTick s mw c sensor).power.ratios = s.tickRatios := by
  obtain ⟨hbelow, hratios⟩ := capTick_power s mw c sensor
  have hunder : ¬ (decide (s.cfg.capMilliwatts < mw) || decide (throttleAt s < c)) = true := by
    simp only [Bool.or_eq_true, decide_eq_true_eq]
    omega
  rw [hbelow, hratios, capMoved, if_neg hunder, if_pos ⟨hpower, htemp⟩,
    if_pos (c := (s.power.measured mw c sensor).below + 1 < 10) hcount, measured_bases sensor hsteady]
  exact ⟨rfl, setBases_ratios (p := s.power.measured mw c sensor) hsteady _⟩

theorem capTick_of_tenth (hpower : mw + 5000 < s.cfg.capMilliwatts) (htemp : c ≤ throttleAt s - 3) (hcount : 10 ≤ s.power.below + 1) :
    (capTick s mw c sensor).power.below = 0
      ∧ (capTick s mw c sensor).power.ratios = raiseRatio (Config.freeBit s.free) s.tickRatios := by
  obtain ⟨hbelow, hratios⟩ := capTick_power s mw c sensor
  have hunder : ¬ (decide (s.cfg.capMilliwatts < mw) || decide (throttleAt s < c)) = true := by
    simp only [Bool.or_eq_true, decide_eq_true_eq]
    omega
  rw [hbelow, hratios, capMoved, if_neg hunder, if_pos ⟨hpower, htemp⟩,
    if_neg (c := (s.power.measured mw c sensor).below + 1 < 10) (Nat.not_lt.mpr hcount), measured_bases sensor hsteady]
  exact ⟨rfl, setBases_ratios (p := s.power.measured mw c sensor) hsteady _⟩

theorem capTick_of_between (hpower : mw ≤ s.cfg.capMilliwatts) (htemp : c ≤ throttleAt s)
    (hnear : s.cfg.capMilliwatts ≤ mw + 5000 ∨ throttleAt s - 3 < c) :
    (capTick s mw c sensor).power.below = 0 ∧ (capTick s mw c sensor).power.ratios = s.tickRatios := by
  obtain ⟨hbelow, hratios⟩ := capTick_power s mw c sensor
  have hunder : ¬ (decide (s.cfg.capMilliwatts < mw) || decide (throttleAt s < c)) = true := by
    simp only [Bool.or_eq_true, decide_eq_true_eq]
    omega
  rw [hbelow, hratios, capMoved, if_neg hunder, if_neg (by omega), measured_bases sensor hsteady]
  exact ⟨rfl, setBases_ratios (p := s.power.measured mw c sensor) hsteady _⟩

end

/-! ## Droops (21 R616) -/

section
variable (s : State) (q p : Nat)

/-- A handover takes the leaving engine's tile from it, and from no other. -/
theorem beginHandover_running (entering : Nat) :
    ((beginHandover s q entering).engine p).running = if p = q then none else (s.engine p).running := by
  unfold beginHandover
  extract_lets e s1
  have hentered : (s1.engine p).running = (s.engine p).running := by
    refine State.modEngine_keeps Engine.running s ?_ p
    exact fun _ => rfl
  rw [State.modEngine_get, ← hentered]
  split
  · rfl
  · rfl

theorem fenceEngine_running (source : Nat) :
    ((fenceEngine s q source).engine p).running = if p = q then none else (s.engine p).running := by
  unfold fenceEngine
  extract_lets g e spare s1 s2 s3 s4
  have hleft : (s1.engine p).running = if p = q then none else (s.engine p).running := by
    unfold s1
    clear_value spare
    cases spare with
    | none =>
      dsimp only
      rw [State.modEngine_get]
      split
      · rfl
      · rfl
    | some entering => exact beginHandover_running s q p entering
  have hfenced : (s2.engine p).running = (s1.engine p).running := by
    refine State.modEngine_keeps Engine.running s1 ?_ p
    exact fun _ => rfl
  have hmap : (capacityChanged (writeUnitMap s4) [.region g]).engine p = s4.engine p := by
    rw [State.engine_of_erase (capacityChanged_erase _ _ (Nat.and_self _)) rfl,
      State.engine_of_erase (writeUnitMap_erase s4 (Nat.and_self _)) rfl]
  have htold : s4.engine p = s2.engine p := by
    rw [State.engine_of_erase (checkAble_erase _ (Nat.and_self _)) rfl,
      State.engine_of_erase (missingEvals_erase _ _ (Nat.and_self _)) rfl,
      State.engine_of_erase (State.fenceEvent_erase _ _ _ _ (Nat.and_self _)) rfl,
      State.engine_of_erase (markDegraded_erase _ g (Nat.and_self _)) rfl,
      State.engine_of_erase (dropAudits_erase s2 q (Nat.and_self _)) rfl]
  rw [hmap, htold, hfenced, hleft]

theorem rotate_running (entering : Nat) :
    ((rotate s q entering).engine p).running = if p = q then none else (s.engine p).running := by
  unfold rotate
  extract_lets s1 s2
  rw [State.engine_of_erase (writeUnitMap_erase _ (Nat.and_self _)) rfl,
    State.engine_of_erase (State.faultRecord_erase _ _ _ _ _ _ _ _ _ (Nat.and_self _)) rfl, ← beginHandover_running]
  refine State.modEngine_keeps Engine.running s1 ?_ p
  exact fun _ => rfl

theorem rotateIfDue_running : ((rotateIfDue s q).engine p).running = (s.engine p).running := by
  unfold rotateIfDue
  split
  · rfl
  · split
    · rfl
    next hidle =>
      extract_lets s1 e
      have hdue : (s1.engine p).running = (s.engine p).running := by
        refine State.modEngine_keeps Engine.running s ?_ p
        exact fun _ => rfl
      split
      · rw [rotate_running, hdue]
        split
        next heq => rw [heq, Option.not_isSome_iff_eq_none.mp hidle]
        next => rfl
      · exact hdue

/-- An engine is fenced or rotated only between its tiles, so that no engine's tile goes with it. -/
theorem fenceIfDue_running : ((fenceIfDue s q).engine p).running = (s.engine p).running := by
  unfold fenceIfDue
  extract_lets e
  split
  next hdue =>
    rw [fenceEngine_running]
    split
    next heq =>
      rw [heq]
      exact (Option.isNone_iff_eq_none.mp (Bool.and_eq_true_iff.mp hdue).2).symm
    next => rfl
  next => exact rotateIfDue_running s q p

theorem abandonTile_running (cause status cycles watchdogs : Nat) :
    ((abandonTile s q cause status cycles watchdogs).engine p).running = if p = q then none else (s.engine p).running := by
  cases hcur : (s.engine q).running with
  | none =>
    simp only [abandonTile, hcur]
    split
    next heq => rw [heq, hcur]
    next => rfl
  | some r =>
    split
    next heq =>
      rw [heq]
      exact (abandonTile_engine hcur cause status cycles watchdogs).1
    next hne =>
      simp only [abandonTile, hcur]
      rw [State.modEngine_get, if_neg hne]
      simp only [abandonWith]
      split
      · rfl
      · simp only [chargeDev_engine, complete_engine, State.modEngine_get, if_neg hne, voidWrites_engine, State.trace_engine]
        rfl

end

/-- What a droop of its die leaves running of a tile: a zone tile. -/
def keptByDroop (r : Option Running) : Option Running := r.filter fun x => isZone x.issue

theorem droopTile_running (s : State) (q p : Nat) :
    ((droopTile s q).engine p).running = if p = q then keptByDroop (s.engine p).running else (s.engine p).running := by
  cases hcur : (s.engine q).running with
  | none =>
    simp only [droopTile, hcur]
    split
    next heq =>
      rw [heq, hcur]
      rfl
    next => rfl
  | some r =>
    simp only [droopTile, hcur]
    split
    next hzone =>
      split
      next heq => rw [heq, hcur, keptByDroop, Option.filter_some, if_pos hzone]
      next => rfl
    next hzone =>
      rw [fenceIfDue_running]
      refine (State.modEngine_keeps Engine.running _ ?_ p).trans ?_
      · exact fun _ => rfl
      rw [abandonTile_running, State.engine_of_erase (State.corrected_erase _ _ _ _ (Nat.and_self _)) rfl]
      split
      next heq => rw [heq, hcur, keptByDroop, Option.filter_some, if_neg hzone]
      next => rfl

theorem droopTiles_running (qs : List Nat) (s : State) (p : Nat) :
    ((qs.foldl droopTile s).engine p).running = if p ∈ qs then keptByDroop (s.engine p).running else (s.engine p).running := by
  induction qs generalizing s with
  | nil => rfl
  | cons q qs ih =>
    rw [List.foldl_cons, ih, droopTile_running]
    by_cases heq : p = q
    · rw [if_pos heq, if_pos (List.mem_cons.mpr (.inl heq))]
      simp only [keptByDroop, Option.filter_filter, Bool.and_self, ite_self]
    · rw [if_neg heq]
      simp only [List.mem_cons, heq, false_or]


section
variable {s : State} (hans : s.answers = true)
include hans

theorem exec_droopDetected_cd0 : exec (.droopDetected .cd0) s = .next (droopDie s 0) := by
  change execDroopDetected .cd0 s = _
  rw [execDroopDetected, if_neg (by simp [hans])]
  rfl

theorem exec_droopDetected_cd1 : exec (.droopDetected .cd1) s = .next (droopDie s 1) := by
  change execDroopDetected .cd1 s = _
  rw [execDroopDetected, if_neg (by simp [hans])]
  rfl

theorem exec_droopDetected_md : exec (.droopDetected .md) s = .next (droopMedia s) := by
  change execDroopDetected .md s = _
  rw [execDroopDetected, if_neg (by simp [hans])]
  rfl

end

/-- The power state with a droop of a compute die begun. -/
def Power.drooped (w : Power) (d now : Nat) : Power :=
  if d = 0 then { w with droop0 := some (w.droop0.getD w.cd0), cd0 := 8, droopAt0 := now, droopSeen := true }
  else { w with droop1 := some (w.droop1.getD w.cd1), cd1 := 8, droopAt1 := now, droopSeen := true }

/-- The device as a droop of a compute die finds it, before its tiles are abandoned. -/
def droopBegun (s : State) (d : Nat) : State := { s with power := s.power.drooped d s.time.elapsed }

theorem droopBegun_engine (s : State) (d p : Nat) : (droopBegun s d).engine p = s.engine p := rfl

theorem droopDie_eq (s : State) (d : Nat) : droopDie s d = ((List.range 36).map (36 * d + ·)).foldl droopTile (droopBegun s d) := rfl

theorem droopDie_power (s : State) (d : Nat) : (droopDie s d).power = s.power.drooped d s.time.elapsed := by
  rw [droopDie_eq]
  exact foldl_keeps (fun t => t.power) (fun t q => keeps_power (droopTile_erase t q (Nat.and_self _)) rfl) _ _

/-- A droop of a die abandons its tiles, but no zone tile. -/
theorem droopDie_running {s : State} {d p : Nat} {r : Running} (hfrom : 36 * d ≤ p) (hto : p < 36 * d + 36)
    (hrun : (s.engine p).running = some r) :
    ((droopDie s d).engine p).running = if isZone r.issue = true then some r else none := by
  have hmem : p ∈ (List.range 36).map (36 * d + ·) := List.mem_map.mpr ⟨p - 36 * d, List.mem_range.mpr (by omega), by omega⟩
  rw [droopDie_eq, droopTiles_running, if_pos hmem, droopBegun_engine, hrun, keptByDroop, Option.filter_some]

section
variable {s : State} {r : Nat} (hans : s.answers = true)
include hans

theorem exec_droopHoldEnd_cd0 (hdroop : s.power.droop0 = some r) : exec (.droopHoldEnd .cd0) s
    = .next { s.atElapsed (s.power.droopAt0 + 1000000) with
        power := { (s.atElapsed (s.power.droopAt0 + 1000000)).power with cd0 := r, droop0 := none } } := by
  change execDroopHoldEnd .cd0 s = _
  simp only [execDroopHoldEnd, hans, hdroop, Bool.not_true, Bool.false_eq_true, if_false, done]

theorem exec_droopHoldEnd_cd1 (hdroop : s.power.droop1 = some r) : exec (.droopHoldEnd .cd1) s
    = .next { s.atElapsed (s.power.droopAt1 + 1000000) with
        power := { (s.atElapsed (s.power.droopAt1 + 1000000)).power with cd1 := r, droop1 := none } } := by
  change execDroopHoldEnd .cd1 s = _
  simp only [execDroopHoldEnd, hans, hdroop, Bool.not_true, Bool.false_eq_true, if_false, done]

/-- The media ratio before the droop returns and nothing of the media units is held. -/
theorem exec_droopHoldEnd_md (hdroop : s.power.droopM = some r) : ∃ u : State,
    u.power = { s.power with media := r, droopM := none, mediaHold := false }
      ∧ u.time = (s.atElapsed (s.power.droopAtM + 1000000)).time ∧ exec (.droopHoldEnd .md) s = .next (trackAll u) := by
  have hpower : (s.atElapsed (s.power.droopAtM + 1000000)).power = s.power := keeps_power (s.atElapsed_erase _ (Nat.and_self _)) rfl
  refine ⟨{ s.atElapsed (s.power.droopAtM + 1000000) with power := { s.power with media := r, droopM := none, mediaHold := false } },
    rfl, rfl, ?_⟩
  change execDroopHoldEnd .md s = _
  simp only [execDroopHoldEnd, hans, hdroop, hpower, Bool.not_true, Bool.false_eq_true, if_false, Option.isNone_some, Bool.false_and,
    Option.getD_some, done]

end

theorem Power.ratios_eq_iff {p : Power} {c0 c1 m : Nat} : p.ratios = (c0, c1, m) ↔ p.cd0 = c0 ∧ p.cd1 = c1 ∧ p.media = m := by
  simp [Power.ratios]

section
variable {zones free : Bool} {c0 c1 m : Nat}

theorem lowerRatio_cd0 (h0 : 8 < c0) (h : c1 ≤ c0) : lowerRatio zones (c0, c1, m) = (c0 - 1, c1, m) := by
  simp [lowerRatio, h0, h]

theorem lowerRatio_cd1 (h1 : 8 < c1) (h : c0 < c1) : lowerRatio zones (c0, c1, m) = (c0, c1 - 1, m) := by
  simp [lowerRatio, h1, Nat.not_le.mpr h]

theorem lowerRatio_media (h0 : c0 ≤ 8) (h1 : c1 ≤ 8) :
    lowerRatio zones (c0, c1, m) = (c0, c1, if zones = false ∧ 8 < m then m - 1 else m) := by
  simp only [lowerRatio, Nat.not_lt.mpr h0, Nat.not_lt.mpr h1, or_self, if_false, Bool.and_eq_true, Bool.not_eq_true', decide_eq_true_eq]
  split
  · rfl
  · rfl

theorem raiseRatio_cd0 (h0 : c0 < 16) (h : c0 < c1) : raiseRatio free (c0, c1, m) = (c0 + 1, c1, m) := by
  simp [raiseRatio, h0, h]

theorem raiseRatio_cd1 (h1 : c1 < 16) (h : c1 < c0) : raiseRatio free (c0, c1, m) = (c0, c1 + 1, m) := by
  simp [raiseRatio, h1, Nat.not_lt.mpr h.le, h.ne']

/-- Between equal compute dies either is raised. -/
theorem raiseRatio_either (h0 : c0 < 16) :
    raiseRatio free (c0, c0, m) = (c0 + 1, c0, m) ∨ raiseRatio free (c0, c0, m) = (c0, c0 + 1, m) := by
  cases free with
  | true => exact .inl (by simp [raiseRatio, h0])
  | false => exact .inr (by simp [raiseRatio, h0])

theorem raiseRatio_media (h0 : 16 ≤ c0) (h1 : 16 ≤ c1) :
    raiseRatio free (c0, c1, m) = (c0, c1, if m < 16 then m + 1 else m) := by
  simp [raiseRatio, Nat.not_lt.mpr h0, Nat.not_lt.mpr h1]

end

/-- Settles O58: `capTick_power` with one step of `lowerRatio` or `raiseRatio`, and `droopTiles_running` for a droop. -/
theorem capAndDroopsSetTheRatios : Obligations.CapAndDroopsSetTheRatios := by
  refine ⟨fun s mw c sensor m hrun h0 h1 hM hm => ?tick, fun s hans => ?cd0, fun s hans => ?cd1,
    fun s hans => ⟨fun hzones => ?media, fun hzones => ?held⟩,
    fun s r hans => ⟨fun hdroop => ?end0, fun hdroop => ?end1, fun hdroop => ?endM⟩⟩
  case tick =>
    have hsteady : (s.atMultiple 10000000).power.steady := by
      rw [State.atMultiple_power]
      exact ⟨h0, h1, hM⟩
    have hratios : (s.atMultiple 10000000).tickRatios = (s.power.cd0, s.power.cd1, m) := by
      rw [State.tickRatios, State.atMultiple_power, State.atMultiple_cfg, hm]
    have hexec := exec_powerCapTick mw c sensor hrun
    refine ⟨fun hover => ⟨_, hexec, ?_⟩, fun hpower htemp hcount => ⟨_, hexec, ?_⟩, fun hpower htemp hcount => ⟨_, hexec, ?_⟩,
      fun hpower htemp hnear => ⟨_, hexec, ?_⟩⟩
    · obtain ⟨hbelow, hnew⟩ := capTick_of_over (s := s.atMultiple 10000000) sensor hsteady (by simpa using hover)
      rw [hratios, State.atMultiple_cfg] at hnew
      refine ⟨hbelow, fun hd h => Power.ratios_eq_iff.mp (hnew.trans (lowerRatio_cd0 hd h)),
        fun hd h => Power.ratios_eq_iff.mp (hnew.trans (lowerRatio_cd1 hd h)), fun hd h => ?_⟩
      simpa using Power.ratios_eq_iff.mp (hnew.trans (lowerRatio_media hd h))
    · obtain ⟨hbelow, hnew⟩ := capTick_of_below (s := s.atMultiple 10000000) sensor hsteady (by simpa using hpower) (by simpa using htemp)
        (by simpa using hcount)
      rw [State.atMultiple_power] at hbelow
      exact ⟨hbelow, Power.ratios_eq_iff.mp (hnew.trans hratios)⟩
    · obtain ⟨hbelow, hnew⟩ := capTick_of_tenth (s := s.atMultiple 10000000) sensor hsteady (by simpa using hpower) (by simpa using htemp)
        (by simpa using hcount)
      rw [hratios] at hnew
      refine ⟨hbelow, fun hd h => Power.ratios_eq_iff.mp (hnew.trans (raiseRatio_cd0 hd h)),
        fun hd h => Power.ratios_eq_iff.mp (hnew.trans (raiseRatio_cd1 hd h)), fun hd h => ?_,
        fun hd h => Power.ratios_eq_iff.mp (hnew.trans (raiseRatio_media hd h))⟩
      rw [← h] at hnew ⊢
      obtain hraised | hraised := raiseRatio_either (free := Config.freeBit (s.atMultiple 10000000).free) (m := m) hd
      · obtain ⟨e0, e1, eM⟩ := Power.ratios_eq_iff.mp (hnew.trans hraised)
        exact ⟨by omega, by omega, by omega, eM⟩
      · obtain ⟨e0, e1, eM⟩ := Power.ratios_eq_iff.mp (hnew.trans hraised)
        exact ⟨by omega, by omega, by omega, eM⟩
    · obtain ⟨hbelow, hnew⟩ := capTick_of_between (s := s.atMultiple 10000000) sensor hsteady (by simpa using hpower) (by simpa using htemp)
        (by simpa using hnear)
      exact ⟨hbelow, Power.ratios_eq_iff.mp (hnew.trans hratios)⟩
  case cd0 =>
    refine ⟨_, exec_droopDetected_cd0 hans, ?_⟩
    rw [droopDie_power]
    exact ⟨rfl, rfl, rfl, rfl, rfl, fun p r hp hr => droopDie_running (Nat.zero_le _) (by omega) hr⟩
  case cd1 =>
    refine ⟨_, exec_droopDetected_cd1 hans, ?_⟩
    rw [droopDie_power]
    exact ⟨rfl, rfl, rfl, rfl, rfl, fun p r hp hp' hr => droopDie_running (by omega) (by omega) hr⟩
  case media => rw [exec_droopDetected_md hans, droopMedia, if_pos (List.isEmpty_iff.mpr hzones)]
  case held => rw [exec_droopDetected_md hans, droopMedia, if_neg fun h => hzones (List.isEmpty_iff.mp h)]
  case end0 => exact ⟨_, exec_droopHoldEnd_cd0 hans hdroop, rfl, rfl, State.atElapsed_elapsed (by simpa [State.answers] using hans) _⟩
  case end1 => exact ⟨_, exec_droopHoldEnd_cd1 hans hdroop, rfl, rfl, State.atElapsed_elapsed (by simpa [State.answers] using hans) _⟩
  case endM =>
    obtain ⟨u, hpower, htime, hexec⟩ := exec_droopHoldEnd_md hans hdroop
    refine ⟨_, hexec, ?_⟩
    rw [trackAll_power, hpower, keeps_time (trackAll_erase u (Nat.and_self _)) rfl, htime]
    exact ⟨rfl, rfl, rfl, State.atElapsed_elapsed (by simpa [State.answers] using hans) _⟩

end Sys2Proof.Machine

/-! What a reset keeps (21 R604, R605, R618, 02 R87). -/

namespace Sys2Proof.Machine

/-- Keeping the entries of some keys keeps what those read, and empties the others. -/
theorem Table.get_filter_key {α : Type} (d : α) (p : Nat → Bool) (k : Nat) (t : Table α) :
    Table.get d k (t.filter fun e => p e.1) = if p k = true then Table.get d k t else d := by
  induction t with
  | nil => exact (ite_self d).symm
  | cons e t ih =>
    obtain ⟨j, v⟩ := e
    by_cases heq : k = j
    · subst heq
      by_cases hp : p k = true
      · simp [hp, Table.get]
      · simpa [List.filter_cons, hp] using ih
    · by_cases hp : p j = true
      · simpa [List.filter_cons, hp, Table.get, heq] using ih
      · simpa [List.filter_cons, hp, Table.get, heq] using ih

/-- A reset leaves the host's own memory. -/
theorem resetState_byte (s : State) (a : Nat) : (resetState s).byte a = if hostBase ≤ a then s.byte a else 0 := by
  have h := Table.get_filter_key (0 : Byte) (fun a => decide (hostBase ≤ a)) a s.mem
  simp only [decide_eq_true_eq] at h
  exact h

theorem resetState_byte_of_host (s : State) {a : Nat} (h : hostBase ≤ a) : (resetState s).byte a = s.byte a := by
  rw [resetState_byte, if_pos h]

theorem resetState_byte_of_own (s : State) {a : Nat} (h : a < hostBase) : (resetState s).byte a = 0 := by
  rw [resetState_byte, if_neg (Nat.not_le.mpr h)]

/-- The device as RESET_N low leaves it. -/
def resetLow (s : State) : State := { resetState s with pins := { (resetState s).pins with resetN := false } }

theorem exec_resetAssert_of_short {s : State} {w : Nat} (hw : w < 1000) : exec (.resetAssert w) s = .next s := by
  change execResetAssert w s = _
  simp only [execResetAssert, if_pos hw, done]

theorem exec_resetAssert_of_long {s : State} {w : Nat} (hw : 10000 ≤ w) : exec (.resetAssert w) s = .next (resetLow s) := by
  change execResetAssert w s = _
  simp only [execResetAssert, if_neg (show ¬ w < 1000 by omega), if_pos hw, done]
  rfl

/-- A pulse between 1 us and 10 us resets or does not. -/
theorem exec_resetAssert_of_between {s : State} {w : Nat} (hlow : 1000 ≤ w) (hhigh : w < 10000) : exec (.resetAssert w) s
    = .next (if Config.freeBit s.free then resetLow s.nextFree else s.nextFree) := by
  change execResetAssert w s = _
  simp only [execResetAssert, if_neg (Nat.not_lt.mpr hlow), if_neg (Nat.not_le.mpr hhigh), done]
  rfl

theorem exec_rebootReset {s : State} {m : Nat} (hreboot : s.boot.rebootAt = some m) : exec .rebootReset s
    = .next (bootBegin { resetState s with boot := { (resetState s).boot with rebootSlot := s.boot.nextSlot } }) := by
  change execRebootReset s = _
  simp only [execRebootReset, hreboot, done]

theorem bootBegin_byte (s : State) (a : Nat) : (bootBegin s).byte a = s.byte a :=
  State.byte_of_erase (bootBegin_erase s (Nat.and_self _)) rfl a

/-- Settles O14: `resetState_byte` for memory; the rest is what `resetState` and `bootBegin` write. -/
theorem resetKeepsOnlyWhatItMay : Obligations.ResetKeepsOnlyWhatItMay := by
  refine ⟨fun s w hw => exec_resetAssert_of_short hw, fun s w hw => ?long, fun s w hlow hhigh => ?between, fun s => ?power,
    fun s hreboot => ?reboot⟩
  case long =>
    exact ⟨_, exec_resetAssert_of_long hw, rfl, rfl, rfl, rfl, rfl, rfl, rfl, rfl, rfl, rfl,
      fun a ha => resetState_byte_of_host s ha, fun a ha => resetState_byte_of_own s ha⟩
  case between =>
    refine ⟨_, exec_resetAssert_of_between hlow hhigh, ?_⟩
    split
    · exact .inl ⟨rfl, rfl, rfl⟩
    · exact .inr rfl
  case power =>
    exact ⟨_, rfl, rfl, rfl, rfl, rfl, rfl, rfl, rfl, fun a ha => resetState_byte_of_host s ha,
      fun a ha => resetState_byte_of_own s ha⟩
  case reboot =>
    obtain ⟨m, hm⟩ := Option.ne_none_iff_exists'.mp hreboot
    refine ⟨_, exec_rebootReset hm, bootBegin_phase _, by rw [bootBegin_boot], by rw [bootBegin_boot], rfl, rfl, fun a ha => ?_,
      fun a ha => ?_⟩
    · rw [bootBegin_byte]
      exact resetState_byte_of_host s ha
    · rw [bootBegin_byte]
      exact resetState_byte_of_own s ha

end Sys2Proof.Machine

/-! Trace control, flushes of trace buffers and test groups (20 R578 to R581, R592 to R594). -/

namespace Sys2Proof.Machine

/-! ## Trace control (20 R580) -/

theorem traceRecord_waiting (s : State) :
    ∃ x, (traceRecord s).journal.waiting = s.journal.waiting ++ [x] ∧ x.type = 0x0A01 :=
  ⟨s.record 0x0A01 ucDBG (.dbg {}), by rw [traceRecord, State.emit_journal_plain _ _ (.inl rfl)], rfl⟩

/-- A write of DBG_TRACE_CTRL is ignored: it changes the dump area or the sources of a running trace, sets a dump area above the
reserve, or moves the dump area under an armed watch. -/
def traceCtrlBarred (s : State) (v : Nat) : Prop :=
  (s.dbg.traceEnable = true ∧ (bitsOf v 24 6 ≠ s.dbg.dump ∨ bitsOf v 0 18 ≠ s.dbg.sources))
    ∨ s.cfg.traceBytes < bitsOf v 24 6 * 0x1000000 ∨ (bitsOf v 24 6 ≠ s.dbg.dump ∧ dumpArmed s = true)

/-- The control fields as a write sets them. -/
def traceCtrlSet (s : State) (v : Nat) : Dbg :=
  { s.dbg with traceEnable := v.testBit 31, traceStop := v.testBit 30, dump := bitsOf v 24 6, sources := bitsOf v 0 18 }

theorem writeTraceCtrl_of_barred {s : State} {v : Nat} (h : traceCtrlBarred s v) : writeTraceCtrl s v = s.countIgnored := by
  rw [writeTraceCtrl]
  refine if_pos ?_
  simpa [traceCtrlBarred, or_assoc] using h

theorem writeTraceCtrl_of_open {s : State} {v : Nat} (h : ¬ traceCtrlBarred s v) : writeTraceCtrl s v =
    if (v.testBit 31 && !s.dbg.traceEnable) = true then
      traceRecord { s with dbg := { traceCtrlSet s v with traceState := 1, traceSeq := 0, ptr := 0 } }
    else if (!v.testBit 31 && s.dbg.traceEnable) = true then traceRecord { s with dbg := { traceCtrlSet s v with traceState := 0 } }
    else { s with dbg := traceCtrlSet s v } := by
  rw [writeTraceCtrl]
  refine if_neg ?_
  simpa [traceCtrlBarred, or_assoc] using h

theorem exec_traceCtrlWrite {s : State} (src : Src) (v : W32) (hans : s.answers = true) :
    exec (.traceCtrlWrite src v) s = .next (writeTraceCtrl s v.toNat) := by
  change execTraceCtrlWrite src v s = _
  rw [execTraceCtrlWrite, if_pos hans]
  rfl

/-! ## Flushes (20 R578, R579) -/

theorem length_traceBytes (r : TraceRec) (seq : Nat) : (traceBytes r seq).length = 32 := by simp [traceBytes]

section
variable {s : State} (r : TraceRec)

theorem writeTrace_of_off (h : s.dbg.traceState ≠ 1) : writeTrace s r = s := by
  rw [writeTrace]
  exact if_pos h

/-- A record that does not fit stops a trace that may not wrap. -/
theorem writeTrace_of_full (hon : s.dbg.traceState = 1) (hfull : s.traceArea < s.dbg.ptr + 32)
    (hstop : s.dbg.traceStop = true ∨ s.traceArea < 32) :
    writeTrace s r = traceRecord { s with dbg := { s.dbg with traceState := 2 } } := by
  rw [writeTrace]
  exact (if_neg (not_not.mpr hon)).trans (if_pos ⟨hfull, hstop⟩)

/-- A trace with a record written at offset `p`. -/
def traceWritten (s : State) (p : Nat) (wraps : Bool) (r : TraceRec) : State :=
  let s1 := s.store (s.layout.trace + p) (traceBytes r s.dbg.traceSeq.toNat)
  { s1 with dbg := { s1.dbg with ptr := p + 32, wrapped := s1.dbg.wrapped || wraps, traceSeq := s1.dbg.traceSeq + 1 } }

theorem writeTrace_of_fits (hon : s.dbg.traceState = 1) (hfits : s.dbg.ptr + 32 ≤ s.traceArea) :
    writeTrace s r = traceWritten s s.dbg.ptr false r := by
  rw [writeTrace]
  refine (if_neg (not_not.mpr hon)).trans ((if_neg fun h => absurd h.1 (Nat.not_lt.mpr hfits)).trans ?_)
  simp only [decide_eq_false (Nat.not_lt.mpr hfits)]
  rfl

theorem writeTrace_of_wraps (hon : s.dbg.traceState = 1) (hfull : s.traceArea < s.dbg.ptr + 32) (hwrap : s.dbg.traceStop = false)
    (harea : 32 ≤ s.traceArea) : writeTrace s r = traceWritten s 0 true r := by
  rw [writeTrace]
  refine (if_neg (not_not.mpr hon)).trans ((if_neg ?_).trans ?_)
  · simpa [hwrap] using fun _ => harea
  · simp only [decide_eq_true hfull]
    rfl

theorem traceWritten_byte (p : Nat) (wraps : Bool) (j : Nat) : (traceWritten s p wraps r).byte j
    = (s.store (s.layout.trace + p) (traceBytes r s.dbg.traceSeq.toNat)).byte j := by
  simp only [traceWritten, State.byte]

theorem traceWritten_byte_outside (p : Nat) (wraps : Bool) {j : Nat} (hj : j < s.layout.trace + p ∨ s.layout.trace + p + 32 ≤ j) :
    (traceWritten s p wraps r).byte j = s.byte j := by
  rw [traceWritten_byte, State.store_byte_outside]
  rwa [length_traceBytes]

theorem traceWritten_byte_inside (p : Nat) (wraps : Bool) {i : Nat} (hi : i < (traceBytes r s.dbg.traceSeq.toNat).length) :
    (traceWritten s p wraps r).byte (s.layout.trace + p + i) = (traceBytes r s.dbg.traceSeq.toNat)[i] := by
  rw [traceWritten_byte, State.store_byte_inside]

theorem traceWritten_layout (p : Nat) (wraps : Bool) : (traceWritten s p wraps r).layout = s.layout := by
  simp only [traceWritten, State.store]

theorem traceWritten_cfg (p : Nat) (wraps : Bool) : (traceWritten s p wraps r).cfg = s.cfg := by
  simp only [traceWritten, State.store]

theorem traceWritten_dbg (p : Nat) (wraps : Bool) : (traceWritten s p wraps r).dbg
    = { s.dbg with ptr := p + 32, wrapped := s.dbg.wrapped || wraps, traceSeq := s.dbg.traceSeq + 1 } := by
  simp only [traceWritten, State.store]

end

/-- From `s` to `t` the trace area stays where it was, no byte outside it changes, and no buffer of records. -/
structure TraceWritten (s t : State) : Prop where
  layout : t.layout = s.layout
  area : t.traceArea = s.traceArea
  buffers : t.dbg.buffers = s.dbg.buffers
  outside : ∀ j, j < s.layout.trace ∨ s.layout.trace + s.traceArea ≤ j → t.byte j = s.byte j

theorem TraceWritten.refl (s : State) : TraceWritten s s := ⟨rfl, rfl, rfl, fun _ _ => rfl⟩

theorem TraceWritten.trans {s t u : State} (h : TraceWritten s t) (h' : TraceWritten t u) : TraceWritten s u where
  layout := h'.layout.trans h.layout
  area := h'.area.trans h.area
  buffers := h'.buffers.trans h.buffers
  outside j hj := (h'.outside j (by rwa [h.layout, h.area])).trans (h.outside j hj)

theorem TraceWritten.writeTrace (s : State) (r : TraceRec) : TraceWritten s (writeTrace s r) := by
  have hwritten {p : Nat} (wraps : Bool) (hp : p + 32 ≤ s.traceArea) : TraceWritten s (traceWritten s p wraps r) :=
    ⟨by rw [traceWritten_layout], by simp only [State.traceArea, traceWritten_cfg, traceWritten_dbg], by rw [traceWritten_dbg],
      fun j hj => traceWritten_byte_outside r p wraps (by omega)⟩
  by_cases hon : s.dbg.traceState = 1
  · by_cases hfits : s.dbg.ptr + 32 ≤ s.traceArea
    · rw [writeTrace_of_fits r hon hfits]
      exact hwritten false hfits
    · have hfull := Nat.not_le.mp hfits
      by_cases hstop : s.dbg.traceStop = true ∨ s.traceArea < 32
      · rw [writeTrace_of_full r hon hfull hstop]
        exact ⟨rfl, rfl, rfl, fun _ _ => rfl⟩
      · obtain ⟨hwrap, harea⟩ := not_or.mp hstop
        rw [writeTrace_of_wraps r hon hfull (Bool.eq_false_iff.mpr hwrap) (Nat.not_lt.mp harea)]
        exact hwritten true (by omega)
  · rw [writeTrace_of_off r hon]
    exact .refl s

theorem TraceWritten.foldl (rs : List TraceRec) (s : State) : TraceWritten s (rs.foldl Machine.writeTrace s) := by
  induction rs generalizing s with
  | nil => exact .refl s
  | cons r rs ih => exact (TraceWritten.writeTrace s r).trans (ih _)

/-- The buffer of a unit is taken. -/
def bufferTaken (s : State) (cls inst : Nat) : State :=
  { s with dbg := { s.dbg with buffers := Table.set [] (256 * cls + inst) [] s.dbg.buffers } }

theorem exec_traceBufferFlush {s : State} (cls inst : Nat) (hans : s.answers = true) : exec (.traceBufferFlush cls inst) s
    = .next ((Table.get [] (256 * cls + inst) s.dbg.buffers).foldl writeTrace (bufferTaken s cls inst)) := by
  change execTraceBufferFlush cls inst s = _
  rw [execTraceBufferFlush, if_pos hans]
  rfl

theorem exec_traceBufferFlush_of_one {s : State} {cls inst : Nat} {r : TraceRec} (hans : s.answers = true)
    (hone : Table.get [] (256 * cls + inst) s.dbg.buffers = [r]) :
    exec (.traceBufferFlush cls inst) s = .next (writeTrace (bufferTaken s cls inst) r) := by
  rw [exec_traceBufferFlush _ _ hans, hone]
  rfl

/-! ## Test groups (20 R592 to R594) -/

theorem exec_obsSelWrite {s : State} (src : Src) (v : W32) (hans : s.answers = true) :
    exec (.obsSelWrite src v) s = .next (writeObsSel s v.toNat) := by
  change execObsSelWrite src v s = _
  rw [execObsSelWrite, if_pos hans]
  rfl

section
variable {s : State} {v : Nat}

theorem writeObsSel_of_barred (hdrive : v.testBit 31 = true) (hbarred : s.obsUsable = false) :
    writeObsSel s v = ({ s with dbg := { s.dbg with obsStatus := stSTATE } }).countIgnored := by
  rw [writeObsSel]
  exact if_pos (by simp [hdrive, hbarred])

/-- A group that is listed, divided at least by 5, and slow enough for the pins. -/
def obsDrivable (v : Nat) : Prop :=
  bitsOf v 16 10 < obsGroups ∧ 5 ≤ bitsOf v 8 8 ∧ groupMhz (bitsOf v 16 10) ≤ 200 * bitsOf v 8 8

theorem writeObsSel_of_range (hdrive : v.testBit 31 = true) (husable : s.obsUsable = true) (hbad : ¬ obsDrivable v) :
    writeObsSel s v = ({ s with dbg := { s.dbg with obsStatus := stRANGE } }).countIgnored := by
  rw [writeObsSel]
  refine (if_neg (by simp [husable])).trans (if_pos ?_)
  simp only [hdrive, Bool.true_and, Bool.or_eq_true, decide_eq_true_eq]
  unfold obsDrivable at hbad
  omega

/-- The pins as a write that is taken sets them. -/
def obsSet (s : State) (v : Nat) : State :=
  { s with
    dbg := { s.dbg with obsEnable := v.testBit 31, obsGroup := bitsOf v 16 10, obsDivider := bitsOf v 8 8, obsStatus := stOK }
    pins := { s.pins with obsActive := v.testBit 31 } }

theorem writeObsSel_of_taken (h : v.testBit 31 = true → s.obsUsable = true ∧ obsDrivable v) :
    writeObsSel s v = if (v.testBit 31 || s.pins.obsActive) = true then
      (obsSet s v).emit ((obsSet s v).record 0x0A02 ucDBG (.dbg { code := if v.testBit 31 then bitsOf v 16 10 else s.dbg.obsGroup }))
    else obsSet s v := by
  have husable : ¬ (v.testBit 31 && !s.obsUsable) = true := by
    simp only [Bool.and_eq_true, Bool.not_eq_true', not_and, Bool.not_eq_false]
    exact fun hv => (h hv).1
  have hdrivable : ¬ (v.testBit 31 && (decide (obsGroups ≤ bitsOf v 16 10) || decide (bitsOf v 8 8 < 5)
      || decide (200 * bitsOf v 8 8 < groupMhz (bitsOf v 16 10)))) = true := by
    simp only [Bool.and_eq_true, Bool.or_eq_true, decide_eq_true_eq, not_and]
    intro hv
    obtain ⟨hgroup, hdivider, hrate⟩ := (h hv).2
    omega
  rw [writeObsSel]
  exact (if_neg husable).trans (if_neg hdrivable)

end

/-- Settles O54: `writeTraceCtrl_of_barred` and `writeTraceCtrl_of_open` for the control, `TraceWritten.foldl` for the flush, and the
cases of `writeObsSel` for the test groups. -/
theorem tracesAndTestGroups : Obligations.TracesAndTestGroups := by
  refine ⟨⟨fun s src v hans hbarred => ?barred, fun s src v hans hv hoff harea hdump => ?enable,
    fun s src v hans hv hon hdump hsources harea => ?disable, fun s src v hans hv harea hsame hdump => ?keep,
    fun s cls inst hans => ?flush, fun s cls inst r hans hone hon hfits => ?fits, fun s cls inst r hans hone hon hfull => ?full⟩,
    fun s src v hans => ⟨fun hv husable => ?refused, fun hv husable => ?driven, fun hv => ?idle⟩⟩
  case barred =>
    rw [exec_traceCtrlWrite src v hans, writeTraceCtrl_of_barred hbarred]
    rfl
  case enable =>
    have hopen : ¬ traceCtrlBarred s v.toNat := by
      rintro (⟨hon, _⟩ | harea' | ⟨hne, harmed⟩)
      · simp [hoff] at hon
      · omega
      · exact hdump.elim hne fun h => by simp [h] at harmed
    have hwrite := (writeTraceCtrl_of_open hopen).trans (if_pos (by simp [hv, hoff]))
    rw [exec_traceCtrlWrite src v hans, hwrite]
    obtain ⟨x, hx, htype⟩ := traceRecord_waiting { s with dbg := { traceCtrlSet s v.toNat with traceState := 1, traceSeq := 0, ptr := 0 } }
    exact ⟨_, x, rfl, hv, rfl, rfl, rfl, rfl, rfl, rfl, hx, htype⟩
  case disable =>
    have hopen : ¬ traceCtrlBarred s v.toNat := by
      rintro (⟨_, hne | hne⟩ | harea' | ⟨hne, _⟩)
      · exact hne hdump
      · exact hne hsources
      · omega
      · exact hne hdump
    have hwrite := ((writeTraceCtrl_of_open hopen).trans (if_neg (by simp [hv]))).trans (if_pos (by simp [hv, hon]))
    rw [exec_traceCtrlWrite src v hans, hwrite]
    obtain ⟨x, hx, htype⟩ := traceRecord_waiting { s with dbg := { traceCtrlSet s v.toNat with traceState := 0 } }
    exact ⟨_, x, rfl, hv, rfl, rfl, hx, htype⟩
  case keep =>
    have hopen : ¬ traceCtrlBarred s v.toNat := by
      rintro (⟨hon, hne⟩ | harea' | ⟨hne, harmed⟩)
      · exact hne.elim (· (hsame hon).1) (· (hsame hon).2)
      · omega
      · exact hdump.elim hne fun h => by simp [h] at harmed
    rw [exec_traceCtrlWrite src v hans, writeTraceCtrl_of_open hopen, if_neg (by simp [hv]), if_neg (by simp [hv]), traceCtrlSet, hv]
  case flush =>
    have htraced := TraceWritten.foldl (Table.get [] (256 * cls + inst) s.dbg.buffers) (bufferTaken s cls inst)
    refine ⟨_, exec_traceBufferFlush cls inst hans, ?_, htraced.outside⟩
    rw [htraced.buffers]
    exact Table.get_set_self _ _ _ _
  case fits =>
    refine ⟨_, exec_traceBufferFlush_of_one hans hone, ?_⟩
    rw [writeTrace_of_fits (s := bufferTaken s cls inst) r hon hfits]
    rw [traceWritten_dbg]
    refine ⟨rfl, rfl, Bool.or_false _, fun i hi => traceWritten_byte_inside (s := bufferTaken s cls inst) r _ _ hi, fun j hj => ?_⟩
    rw [length_traceBytes] at hj
    exact traceWritten_byte_outside (s := bufferTaken s cls inst) r _ _ hj
  case full =>
    refine ⟨fun hstop => ?_, fun hwrap harea => ⟨_, exec_traceBufferFlush_of_one hans hone, ?_⟩⟩
    · obtain ⟨x, hx, htype⟩ := traceRecord_waiting
        { bufferTaken s cls inst with dbg := { (bufferTaken s cls inst).dbg with traceState := 2 } }
      rw [exec_traceBufferFlush_of_one hans hone, writeTrace_of_full (s := bufferTaken s cls inst) r hon hfull (.inl hstop)]
      exact ⟨_, x, rfl, rfl, hx, htype, fun _ => rfl⟩
    · rw [writeTrace_of_wraps (s := bufferTaken s cls inst) r hon hfull hwrap harea]
      rw [traceWritten_dbg]
      refine ⟨hon, Bool.or_true _, rfl, fun j hj => ?_⟩
      rw [length_traceBytes] at hj
      exact traceWritten_byte_outside (s := bufferTaken s cls inst) r _ _ hj
  case refused =>
    refine ⟨_, exec_obsSelWrite src v hans, ?_⟩
    rw [writeObsSel_of_barred hv husable]
    exact ⟨rfl, rfl, rfl⟩
  case driven =>
    refine ⟨_, exec_obsSelWrite src v hans, ?_⟩
    split
    next hgood =>
      rw [writeObsSel_of_taken fun _ => ⟨husable, hgood⟩, if_pos (by simp [hv])]
      exact ⟨hv, rfl, rfl, rfl, _, by rw [State.emit_journal_plain _ _ (.inl rfl)]; rfl, rfl⟩
    next hbad =>
      rw [writeObsSel_of_range hv husable hbad]
      exact ⟨rfl, rfl, rfl⟩
  case idle =>
    refine ⟨_, exec_obsSelWrite src v hans, ?_⟩
    rw [writeObsSel_of_taken fun h => absurd h (by simp [hv])]
    split
    · exact ⟨hv, hv, rfl⟩
    · exact ⟨hv, hv, rfl⟩

end Sys2Proof.Machine

/-! Watches armed, disarmed and captured (20 R584 to R590). -/

namespace Sys2Proof.Machine

/-! ## Watch slots (20 R582) -/

@[simp] theorem State.setWatch_get (s : State) (w : Nat) (x : Watch) (v : Nat) :
    (s.setWatch w x).watch v = if v = w then x else s.watch v := Table.get_set _ v w x _

/-- A record handed over joins those that wait, whatever else has changed. -/
theorem emit_waiting_of_journal {s u : State} (h : u.journal = s.journal) (r : Rec) :
    (u.emit r).journal.waiting = (s.emit r).journal.waiting := by rw [State.emit, State.emit, h]

section
variable (s : State) (w status : Nat) (result : List Byte)

theorem endWatch_watch (v : Nat) : (endWatch s w status result).watch v
    = if v = w then { s.watch w with state := 0, status := status, result := result } else s.watch v :=
  Table.get_set _ v w _ _

theorem endWatch_byte (a : Nat) : (endWatch s w status result).byte a = s.byte a :=
  State.byte_of_erase (endWatch_erase s w status result (Nat.and_self _)) rfl a

/-- 20 R590: record 0x0A00 tells of a watch that ends. -/
theorem endWatch_waiting :
    ∃ x, (endWatch s w status result).journal.waiting = (s.emit x).journal.waiting ∧ x.type = 0x0A00 := by
  unfold endWatch
  extract_lets x q s1 r
  refine ⟨_, emit_waiting_of_journal (s := s) (u := s1) rfl _, ?_⟩
  split
  · rfl
  · rfl

end

/-! ## ARM and DISARM (20 R584, R590) -/

section
variable {s : State} {w : Nat} {b : Bool} (hans : s.answers = true) (hslot : watchSlot w b = true)
include hans hslot

theorem exec_arm : exec (.arm w b) s = .next (arm s w) := by
  change execArm w b s = _
  rw [execArm, if_pos (by simp [hans, hslot])]
  rfl

theorem exec_disarm : exec (.disarm w b) s = .next (disarm s w) := by
  change execDisarm w b s = _
  rw [execDisarm, if_pos (by simp [hans, hslot])]
  rfl

end

section
variable {s : State} {w : Nat}

theorem arm_of_range (h : watchInRange s w (s.watch w).req = false) : arm s w = s.setWatch w { s.watch w with status := stRANGE } := by
  rw [arm]
  exact if_pos (by simp [h])

theorem arm_of_barred (hrange : watchInRange s w (s.watch w).req = true) (h : watchBarred s w (s.watch w) (s.watch w).req = true) :
    arm s w = (s.setWatch w { s.watch w with status := stSTATE }).countReject 0 0x01 := by
  rw [arm]
  exact (if_neg (by simp [hrange])).trans (if_pos h)

theorem arm_of_free (hrange : watchInRange s w (s.watch w).req = true) (h : watchBarred s w (s.watch w) (s.watch w).req = false) :
    arm s w = s.setWatch w { s.watch w with status := stOK, state := 1, armedAt := s.time.elapsed, tick := 0, slot := 0 } := by
  rw [arm]
  exact (if_neg (by simp [hrange])).trans (if_neg (by simp [h]))

theorem disarm_of_armed (h : (s.watch w).state = 1) : disarm s w = stopWatch s w stEMPTY := by
  rw [disarm]
  exact if_pos h

theorem disarm_of_idle (h : (s.watch w).state = 0) : disarm s w = s.setWatch w { s.watch w with status := stEMPTY } := by
  rw [disarm]
  exact (if_neg (by simp [h])).trans (if_pos h)

theorem disarm_of_capturing (h : (s.watch w).state = 2) :
    disarm s w = (s.setWatch w { s.watch w with status := stSTATE }).countReject 0 0x02 := by
  rw [disarm]
  exact (if_neg (by simp [h])).trans (if_neg (by simp [h]))

end

/-! ## Captures (20 R585 to R589) -/

/-- The bytes of a capture: every row of every part, in order. -/
def capturedBytes (s : State) (q : WatchReq) (parts : List WatchPart) : List Byte :=
  (parts.flatMap fun p => p.rows s q.slotBytes).flatMap (·.1)

theorem capturedBytes_eq (s : State) (q : WatchReq) (parts : List WatchPart) (f : WatchPart → List Nat → List W32) :
    (parts.flatMap fun p => (p.rows s q.slotBytes).map fun r => (r.1, f p r.2)).flatMap (·.1) = capturedBytes s q parts := by
  simp only [capturedBytes, List.flatMap_assoc, List.flatMap_map]

/-- A capture's copy is written: it fits its destination and is not for statistics alone. -/
def copyWritten (s : State) (q : WatchReq) (parts : List WatchPart) : Bool :=
  decide ((capturedBytes s q parts).length ≤ q.size) && !q.statsOnly

/-- A copy to the host fails. -/
def copyFailed (s : State) (q : WatchReq) (parts : List WatchPart) (failed : Bool) : Bool :=
  copyWritten s q parts && !q.toDump && (failed || !s.hostReachable q.addr (capturedBytes s q parts).length)

/-- Memory as a capture's copy leaves it. -/
def copyLanded (s : State) (q : WatchReq) (parts : List WatchPart) (failed : Bool) : State :=
  if !(copyWritten s q parts && !copyFailed s q parts failed) then s
  else if q.toDump then s.store (s.layout.trace + s.traceArea + q.addr) (capturedBytes s q parts)
  else s.hostStore q.addr (capturedBytes s q parts)

/-- The state that a capture's end is told from. -/
def copyCharged (s : State) (q : WatchReq) (parts : List WatchPart) (failed : Bool) : State :=
  { chargeCopy (copyLanded s q parts failed) q parts with free := s.free + 2 }

section
variable {s : State} {w slot sats k : Nat} {failed : Bool} {q : WatchReq} {parts : List WatchPart}
  (hq : q = (s.watch w).req) (hk : k = (if q.kind = 1 then (s.watch w).slot else slot)) (hparts : parts = watchParts s q k)
include hq hk hparts

theorem completeCopy_of_void (hvoid : (parts.any fun p => s.anyVoid p.addr q.slotBytes) = true) :
    completeCopy s w slot sats failed = stopWatch (s.setWatch w { s.watch w with slot := k }) w stVOID := by
  subst hq hk hparts
  rw [completeCopy]
  exact if_pos hvoid

/-- A sound capture ends its watch after its copy. -/
theorem completeCopy_of_sound (hvoid : (parts.any fun p => s.anyVoid p.addr q.slotBytes) = false) : ∃ result,
    completeCopy s w slot sats failed = endWatch (copyCharged s q parts failed) w
      (if copyFailed s q parts failed then stBOUND else stOK) result := by
  subst hq hk hparts
  rw [completeCopy]
  simp only [hvoid, Bool.false_eq_true, if_false, capturedBytes_eq]
  exact ⟨_, rfl⟩

end

section
variable {s : State} {q : WatchReq} {parts : List WatchPart} {failed : Bool}

theorem copyLanded_erase (s : State) (q : WatchReq) (parts : List WatchPart) (failed : Bool) :
    (copyLanded s q parts failed).erase 0x60080000000 = s.erase 0x60080000000 := by
  unfold copyLanded
  split
  · rfl
  · split
    · exact State.store_erase _ _ _ _ (by decide)
    · exact State.hostStore_erase _ _ _ (by decide)

theorem copyCharged_journal : (copyCharged s q parts failed).journal = s.journal :=
  (keeps_journal (chargeCopy_erase (copyLanded s q parts failed) q parts (Nat.and_self _)) rfl).trans
    (keeps_journal (copyLanded_erase s q parts failed) rfl)

theorem copyCharged_byte (a : Nat) : (copyCharged s q parts failed).byte a = (copyLanded s q parts failed).byte a :=
  State.byte_of_erase (chargeCopy_erase (copyLanded s q parts failed) q parts (Nat.and_self _)) rfl a

/-- A copy that is not written leaves memory. -/
theorem copyLanded_of_unwritten (h : q.statsOnly = true ∨ (q.toDump = false ∧ failed = true)) : copyLanded s q parts failed = s := by
  rw [copyLanded]
  refine if_pos ?_
  obtain h | ⟨hhost, hfailed⟩ := h
  · simp [copyWritten, h]
  · simp [copyFailed, hhost, hfailed]

theorem copyFailed_of_stats (h : q.statsOnly = true) : copyFailed s q parts failed = false := by
  simp [copyFailed, copyWritten, h]

theorem copyFailed_of_dump (h : q.toDump = true) : copyFailed s q parts failed = false := by
  simp [copyFailed, h]

/-- Where a capture's copy goes. -/
def copyTarget (s : State) (q : WatchReq) : Nat :=
  if q.toDump then s.layout.trace + s.traceArea + q.addr else hostBase + q.addr

/-- A copy writes no byte outside its destination. -/
theorem copyLanded_byte_outside {a : Nat} (ha : a < copyTarget s q ∨ copyTarget s q + q.size ≤ a) :
    (copyLanded s q parts failed).byte a = s.byte a := by
  unfold copyLanded
  split
  · rfl
  next hlanded =>
    have hfits : (capturedBytes s q parts).length ≤ q.size := by
      simp only [copyWritten, Bool.not_eq_true', Bool.not_eq_false, Bool.and_eq_true, decide_eq_true_eq] at hlanded
      exact hlanded.1.1
    split
    next hdump =>
      rw [copyTarget, if_pos hdump] at ha
      exact State.store_byte_outside _ _ _ _ _ (by omega)
    next hdump =>
      rw [copyTarget, if_neg hdump] at ha
      exact State.hostStore_byte_outside _ _ _ (by omega)

/-- A copy that fits the dump area is what is read there. -/
theorem copyLanded_byte_inside (hfits : (capturedBytes s q parts).length ≤ q.size) (hstats : q.statsOnly = false) (hdump : q.toDump = true)
    {i : Nat} (hi : i < (capturedBytes s q parts).length) :
    (copyLanded s q parts failed).byte (s.layout.trace + s.traceArea + q.addr + i) = (capturedBytes s q parts)[i] := by
  rw [copyLanded, if_neg (by simp [copyFailed_of_dump hdump, copyWritten, hfits, hstats]), if_pos hdump]
  exact State.store_byte_inside _ _ _ _ _ hi

end

theorem exec_watchCopyComplete {s : State} {w : Nat} (slot sats : Nat) (failed : Bool) (hrun : s.running = true) (hstate : (s.watch w).state = 2) :
    exec (.watchCopyComplete w slot sats failed) s = .next (completeCopy s w slot sats failed) := by
  change execWatchCopyComplete w slot sats failed s = _
  rw [execWatchCopyComplete, if_pos (by simp [hrun, hstate])]
  rfl

/-- Settles O55: the cases of `arm` and `disarm`; `completeCopy_of_void` and `completeCopy_of_sound` for a capture, with
`copyLanded_byte_outside` for the bytes it leaves. -/
theorem watchesAreArmedAndCaptured : Obligations.WatchesAreArmedAndCaptured := by
  refine ⟨fun s w b hans hslot => ⟨fun hrange => ?range, fun hrange hbarred => ?barred, fun hrange hfree => ?arms⟩,
    fun s w b hans hslot => ⟨fun hstate => ?ends, fun hstate => ?idle, fun hstate => ?capturing⟩,
    fun s w slot sats failed q k parts hrun hstate hq hk hparts => ⟨fun hvoid => ?void, fun hsound => ⟨?copied, ?dumped⟩⟩⟩
  case range =>
    refine ⟨_, exec_arm hans hslot, ?_⟩
    rw [arm_of_range hrange, State.setWatch_get, if_pos rfl]
  case barred =>
    refine ⟨_, exec_arm hans hslot, ?_⟩
    rw [arm_of_barred hrange hbarred]
    refine ⟨?_, rfl⟩
    exact (State.setWatch_get _ _ _ _).trans (if_pos rfl)
  case arms =>
    refine ⟨_, exec_arm hans hslot, ?_⟩
    rw [arm_of_free hrange hfree, State.setWatch_get, if_pos rfl]
    exact ⟨rfl, rfl, rfl, rfl, fun v hv => by rw [State.setWatch_get, if_neg hv]⟩
  case ends =>
    obtain ⟨x, hx, htype⟩ := endWatch_waiting s w stEMPTY (emptyResult (s.watch w) stEMPTY)
    refine ⟨_, x, exec_disarm hans hslot, ?_⟩
    rw [disarm_of_armed hstate, stopWatch, endWatch_watch, if_pos rfl]
    exact ⟨rfl, rfl, hx, htype⟩
  case idle =>
    refine ⟨_, exec_disarm hans hslot, ?_⟩
    rw [disarm_of_idle hstate, State.setWatch_get, if_pos rfl]
    exact ⟨rfl, rfl⟩
  case capturing =>
    refine ⟨_, exec_disarm hans hslot, ?_⟩
    rw [disarm_of_capturing hstate]
    refine ⟨?_, rfl⟩
    exact (State.setWatch_get _ _ _ _).trans (if_pos rfl)
  case void =>
    obtain ⟨x, hx, htype⟩ := endWatch_waiting (s.setWatch w { s.watch w with slot := k }) w stVOID
      (emptyResult ((s.setWatch w { s.watch w with slot := k }).watch w) stVOID)
    refine ⟨_, x, exec_watchCopyComplete slot sats failed hrun hstate, ?_⟩
    rw [completeCopy_of_void hq hk hparts hvoid, stopWatch, endWatch_watch, if_pos rfl]
    exact ⟨rfl, rfl, hx, htype, fun a => endWatch_byte _ _ _ _ a⟩
  case copied =>
    obtain ⟨result, heq⟩ := completeCopy_of_sound (sats := sats) (failed := failed) hq hk hparts hsound
    obtain ⟨x, hx, htype⟩ := endWatch_waiting (copyCharged s q parts failed) w (if copyFailed s q parts failed then stBOUND else stOK) result
    refine ⟨_, x, exec_watchCopyComplete slot sats failed hrun hstate, ?_⟩
    rw [heq, endWatch_watch, if_pos rfl, hx]
    refine ⟨rfl, ?_, emit_waiting_of_journal copyCharged_journal x, htype, fun hstats => ?_, fun hunwritten a => ?_, fun hdump a ha => ?_,
      fun hhost a ha => ?_⟩
    · dsimp only
      split
      · exact .inr rfl
      · exact .inl rfl
    · exact if_neg (by rw [copyFailed_of_stats hstats]; exact nofun)
    · rw [endWatch_byte, copyCharged_byte, copyLanded_of_unwritten hunwritten]
    · rw [endWatch_byte, copyCharged_byte]
      exact copyLanded_byte_outside (by rwa [copyTarget, if_pos hdump])
    · rw [endWatch_byte, copyCharged_byte]
      exact copyLanded_byte_outside (by rwa [copyTarget, if_neg (by rw [hhost]; exact nofun)])
  case dumped =>
    rintro bytes rfl hfits hstats hdump
    obtain ⟨result, heq⟩ := completeCopy_of_sound (sats := sats) (failed := failed) hq hk hparts hsound
    refine ⟨_, exec_watchCopyComplete slot sats failed hrun hstate, ?_⟩
    rw [heq, endWatch_watch, if_pos rfl]
    refine ⟨if_neg (by rw [copyFailed_of_dump hdump]; exact nofun), fun i hi => ?_⟩
    rw [endWatch_byte, copyCharged_byte]
    exact copyLanded_byte_inside hfits hstats hdump hi

end Sys2Proof.Machine

/-! Challenges, unlocks and the lifecycle (19 R555 to R566). -/

namespace Sys2Proof.Machine

/-! ## Records that the release of a stop adds -/

section
variable (s : State)

theorem RecordsAdded.occupiedBy (z cause : Nat) (p : SafPl) (stream tick : Nat) (epoch : Option Nat) :
    RecordsAdded s (occupiedBy s z cause p stream tick epoch) := by
  unfold Machine.occupiedBy
  extract_lets x s1 s2
  split
  · exact .of_journal rfl
  · have hrecord : RecordsAdded s s2 := by
      unfold s2
      split
      · exact .of_journal rfl
      · exact (RecordsAdded.of_journal (s := s) (t := s1) rfl).trans (.safRecord _ _ _ _ _ _ _ _)
    exact hrecord.trans (.settleChannel _ _)

theorem RecordsAdded.evalRecords (type status : Nat) (x : Eval) (cause mapping cell : Nat) :
    RecordsAdded s (evalRecords s type status x cause mapping cell) :=
  .foldl (fun _ _ => .safRecord _ _ _ _ _ _ _ _) _ s

theorem RecordsAdded.missingResult (x : Eval) : RecordsAdded s (missingResult s x) := by
  unfold Machine.missingResult
  extract_lets s1 _ s2
  have hdecided : RecordsAdded s (noteResult (decideEval s x stBUDGET) x fun _ => false) :=
    .of_journal ((keeps_journal (noteResult_erase _ _ _ (Nat.and_self _)) rfl).trans
      (keeps_journal (decideEval_erase _ _ _ (Nat.and_self _)) rfl))
  have hmissed : RecordsAdded s s2 := (hdecided.trans (.evalRecords _ _ _ _ _ _ _)).trans (.of_journal (s := s1) (t := s2) rfl)
  exact hmissed.trans (.foldl (fun _ _ => .occupiedBy _ _ _ _ _ _ _) _ _)

theorem RecordsAdded.passDeadlines : RecordsAdded s (passDeadlines s) := by
  unfold Machine.passDeadlines
  split
  · exact .of_journal rfl
  · extract_lets due s1 late
    refine (RecordsAdded.foldl (fun _ _ => .missingResult _ _) due s).trans (.foldl (fun a p => ?_) late s1)
    exact (RecordsAdded.of_journal (keeps_journal (State.modStream_erase a _ _ (Nat.and_self _)) rfl)).trans (.missingResult _ _)

theorem RecordsAdded.enterStart (z : Nat) : RecordsAdded s (enterStart s z) := by
  unfold Machine.enterStart
  extract_lets row st old _ s1 s2
  have hoff : RecordsAdded s s1 := RecordsAdded.trans (t := s.setZone z { ({} : Zone) with secUntrusted := old.secUntrusted })
    (.of_journal rfl) (.settleChannel _ _)
  exact (hoff.trans (.of_journal (t := s2) rfl)).trans (.settleChannel _ _)

theorem RecordsAdded.resumed : RecordsAdded s (resumed s) :=
  .emit_after s (u := { s with flt := s.flt.released }) rfl _

theorem RecordsAdded.resumedWork : RecordsAdded s (resumedWork s) := by
  unfold Machine.resumedWork
  have hzones : RecordsAdded s (s.zonesOnAll.foldl Machine.enterStart s) := .foldl .enterStart _ s
  have hpictures : RecordsAdded s (passPictures (Machine.passDeadlines (s.zonesOnAll.foldl Machine.enterStart s))) :=
    (hzones.trans (.passDeadlines _)).trans (.of_journal (keeps_journal (passPictures_erase _ (Nat.and_self _)) rfl))
  exact hpictures.trans (.foldl (fun a r => .of_journal (keeps_journal (beginNext_erase a r (Nat.and_self _)) rfl)) _ _)

theorem RecordsAdded.releaseStop : RecordsAdded s (releaseStop s) := by
  rw [releaseStop_eq]
  have hrest : RecordsAdded s (allRest s) :=
    .of_journal (foldl_keeps State.journal (fun a p => by unfold restHeld; split <;> rfl) (List.range 72) s)
  have hwork : RecordsAdded s (Machine.resumedWork (Machine.resumed (allRest s))) :=
    (hrest.trans (.resumed _)).trans (.resumedWork _)
  exact (hwork.trans (.of_journal (keeps_journal (dispatch_erase _ (Nat.and_self _)) rfl))).trans (.settleChannels _)

end

/-! ## Unlocks that end (19 R566) -/

section
variable {s : State}

@[simp] theorem checkAccess_sec (s : State) : (checkAccess s).sec = s.sec := keeps_sec (checkAccess_erase s (Nat.and_self _)) rfl
@[simp] theorem checkAccess_fuses (s : State) : (checkAccess s).fuses = s.fuses := keeps_fuses (checkAccess_erase s (Nat.and_self _)) rfl

/-- An unlock in force ends with record 0x0904. -/
theorem dropUnlock_of_unlocked (h : s.sec.unlockEnd ≠ none) : (dropUnlock s).sec = { s.sec with perm := 0, unlockEnd := none }
    ∧ ∃ x ∈ (dropUnlock s).journal.waiting, x.type = 0x0904 := by
  rw [dropUnlock, if_neg (by simpa using h)]
  refine ⟨checkAccess_sec _, ?_⟩
  exact ⟨_, (RecordsAdded.checkAccess _).kept (State.mem_emit_waiting.mpr (.inl rfl)), rfl⟩

theorem endUnlock_sec (s : State) : (endUnlock s).sec = (dropUnlock s).sec := by
  unfold endUnlock
  extract_lets had s1
  split
  · exact keeps_sec (releaseStop_erase s1 (Nat.and_self _)) rfl
  · rfl

theorem RecordsAdded.endUnlock (s : State) : RecordsAdded (Machine.dropUnlock s) (endUnlock s) := by
  unfold Machine.endUnlock
  extract_lets had s1
  split
  · exact .releaseStop s1
  · exact .of_journal rfl

/-- An unlock in force that ends, and with it a halt made under its permission. -/
theorem endUnlock_of_unlocked (h : s.sec.unlockEnd ≠ none) : (endUnlock s).sec = { s.sec with perm := 0, unlockEnd := none }
    ∧ ∃ x ∈ (endUnlock s).journal.waiting, x.type = 0x0904 := by
  obtain ⟨hsec, x, hx, htype⟩ := dropUnlock_of_unlocked h
  exact ⟨(endUnlock_sec s).trans hsec, x, (RecordsAdded.endUnlock s).kept hx, htype⟩

theorem endUnlock_time (s : State) : (endUnlock s).time = s.time := by
  have hdrop : (dropUnlock s).time = s.time := keeps_time (dropUnlock_erase s (Nat.and_self _)) rfl
  unfold endUnlock
  extract_lets had s1
  split
  · exact (keeps_time (releaseStop_erase s1 (Nat.and_self _)) rfl).trans hdrop
  · exact hdrop

variable (hans : s.answers = true)
include hans

theorem exec_challenge (x : Nat) : exec (.challenge x) s = .next { s with
    sec := { s.sec with status := stOK, challenge := x % 2 ^ 256, challengeAt := some s.time.elapsed } } := by
  change execChallenge x s = _
  rw [execChallenge, if_pos hans]
  rfl

theorem exec_challengeExpiry {h : Nat} (hat : s.sec.challengeAt = some h) : exec .challengeExpiry s = .next
    { s.atElapsed (h + 600 * second) with sec := { (s.atElapsed (h + 600 * second)).sec with challengeAt := none } } := by
  change execChallengeExpiry s = _
  simp only [execChallengeExpiry, hat, hans, if_true, done]

theorem exec_lock_of_locked (h : s.sec.unlockEnd = none) : exec .lock s = .next (s.secStatus stEMPTY) := by
  change execLock s = _
  rw [execLock, if_neg (by simp [hans]), if_neg (by simp [h])]
  rfl

theorem exec_lock_of_unlocked (h : s.sec.unlockEnd ≠ none) : exec .lock s = .next (endUnlock (s.secStatus stOK)) := by
  change execLock s = _
  rw [execLock, if_neg (by simp [hans]), if_pos (Option.isSome_iff_ne_none.mpr h)]
  rfl

theorem exec_unlockExpiry {h : Nat} (hend : s.sec.unlockEnd = some h) : exec .unlockExpiry s = .next (endUnlock (s.atElapsed h)) := by
  change execUnlockExpiry s = _
  simp only [execUnlockExpiry, hend, hans, if_true, done]

end

/-! ## The lifecycle (19 R556) -/

/-- The lifecycle moves on, with record 0x0902. -/
theorem setLifecycle_moves (s : State) (lifecycle : Nat) : (setLifecycle s lifecycle).fuses = { s.fuses with lifecycle := lifecycle }
    ∧ (setLifecycle s lifecycle).sec = s.sec ∧ ∃ x ∈ (setLifecycle s lifecycle).journal.waiting, x.type = 0x0902 := by
  rw [setLifecycle]
  refine ⟨checkAccess_fuses _, checkAccess_sec _, ?_⟩
  exact ⟨_, (RecordsAdded.checkAccess _).kept (State.mem_emit_waiting.mpr (.inl rfl)), rfl⟩

/-- A record of this chapter is handed over at the end of the waiting ones. -/
theorem secRecord_waiting (s : State) (type status : Nat) (p : SecPl) :
    ∃ x, (s.secRecord type status p).journal.waiting = s.journal.waiting ++ [x] ∧ x.type = type :=
  ⟨{ s.record type ucSEC (.sec { p with lifecycle := s.fuses.lifecycle }) with status := status },
    by rw [State.secRecord, State.emit_journal_plain _ _ (.inl rfl)], rfl⟩

section
variable {s : State} (hans : s.answers = true)
include hans

theorem exec_programKey (b : Bool) : exec (.programKey b) s = .next (programKey s b) := by
  change execProgramKey b s = _
  rw [execProgramKey, if_pos hans]
  rfl

theorem exec_deploy_of_ready (hlife : s.fuses.lifecycle = 1) (hkey : s.fuses.integratorHash ≠ 0) (hstep : s.boot.step = 8)
    (hupdate : s.stl.update = none) : exec .deploy s = .next (setLifecycle (s.secStatus stOK) 2) := by
  change execDeploy s = _
  rw [execDeploy, if_neg (by simp [hans]), if_neg (by simp [hlife, hkey, hstep, hupdate])]
  rfl

theorem exec_deploy_of_barred (h : s.fuses.lifecycle ≠ 1 ∨ s.fuses.integratorHash = 0 ∨ s.boot.step ≠ 8 ∨ s.stl.update ≠ none) :
    exec .deploy s = .next (secReject s 0x06) := by
  change execDeploy s = _
  rw [execDeploy, if_neg (by simp [hans]), if_pos (by rwa [Option.isSome_iff_ne_none])]
  rfl

/-- The seeds burned and the identity gone, before the lifecycle moves to returned. -/
def seedsBurned (s : State) : State :=
  { s with
    fuses := { s.fuses with skSeed := 2 ^ 256 - 1, skPrf := 2 ^ 256 - 1 }
    sec := { s.sec with identity := false, nextTree := false } }

theorem exec_returnDevice_of_permitted (hlife : s.fuses.lifecycle = 2) (hperm : s.permits 3 = true) (hidle : s.sec.attesting = false) :
    exec .returnDevice s = .next (setLifecycle ((seedsBurned s).secStatus stOK) 3) := by
  change execReturnDevice s = _
  rw [execReturnDevice, if_neg (by simp [hans]), if_neg (by simp [hlife, hperm, hidle])]
  rfl

theorem exec_returnDevice_of_barred (h : s.fuses.lifecycle ≠ 2 ∨ s.permits 3 = false ∨ s.sec.attesting = true) :
    exec .returnDevice s = .next (secReject s 0x07) := by
  change execReturnDevice s = _
  rw [execReturnDevice, if_neg (by simp [hans]), if_pos (by simpa using h)]
  rfl

/-- The identity key drawn and burned, with its certificate, before the lifecycle moves to provisioned. -/
def identityBurned (s : State) (skSeed skPrf pubSeed root : Nat) (cert : List Byte) : State :=
  { s with
    fuses := { s.fuses with skSeed := skSeed % 2 ^ 256, skPrf := skPrf % 2 ^ 256, identitySeed := pubSeed % 2 ^ 256, identityRoot := root % 2 ^ 256 }
    sec := { s.sec with cert := cert.take 16384 } }

theorem exec_provisioning_of_blank (a b c d : Nat) (cert : List Byte) (hlife : s.fuses.lifecycle = 0) :
    exec (.provisioning a b c d cert) s = .next (setLifecycle (identityBurned s a b c d cert) 1) := by
  change execProvisioning a b c d cert s = _
  rw [execProvisioning, if_neg (by simp [hans]), if_neg (by simp [hlife])]
  rfl

theorem exec_provisioning_of_barred (a b c d : Nat) (cert : List Byte) (hlife : s.fuses.lifecycle ≠ 0) :
    exec (.provisioning a b c d cert) s = .next (secReject s 0x00) := by
  change execProvisioning a b c d cert s = _
  rw [execProvisioning, if_neg (by simp [hans]), if_pos hlife]
  rfl

end

section
variable {s : State}

theorem programKey_of_barred (b : Bool) (h : s.fuses.lifecycle ≠ 1 ∨ s.fuses.integratorHash ≠ 0) : programKey s b = secReject s 0x05 := by
  rw [programKey, if_pos h]

variable (hlife : s.fuses.lifecycle = 1) (hkey : s.fuses.integratorHash = 0)
include hlife hkey

theorem programKey_of_burned : programKey s true = State.secRecord (State.secStatus { s with
    fuses := { s.fuses with integratorHash := leNat (digest256 (s.tokenBytes 0 68)) } } stOK) 0x0906 stOK {} := by
  rw [programKey, if_neg (by simp [hlife, hkey])]
  rfl

theorem programKey_of_failed : programKey s false = State.secRecord (State.secStatus { s with
    fuses := { s.fuses with integratorHash := leNat (digest256 (s.tokenBytes 0 68)) &&& Config.freeNat s.free }
    free := s.free + 1 } stRANGE) 0x0905 stRANGE {} := by
  rw [programKey, if_neg (by simp [hlife, hkey])]
  rfl

end

/-- Settles O51: `endUnlock_of_unlocked` for what ends an unlock and `setLifecycle_moves` for the lifecycle. -/
theorem unlocksAndLifecycle : Obligations.UnlocksAndLifecycle := by
  refine ⟨fun s x hans => ⟨_, exec_challenge hans x, rfl, rfl, rfl, rfl⟩, fun s h hans hat => ?expiry,
    fun s hans => ⟨fun hlocked => ?locked, fun hunlocked => ?lock, fun h hend => ?unlockExpiry⟩,
    fun s hans => ⟨fun hlife hkey => ?burned, fun hlife hkey => ?failed, fun b hbarred => ?keyBarred⟩,
    fun s hans => ⟨fun hlife hkey hstep hupdate => ?deploy, fun hbarred => ?deployBarred⟩,
    fun s hans => ⟨fun hlife hperm hidle => ?returned, fun hbarred => ?returnBarred⟩,
    fun s a b c d cert hans => ⟨fun hlife => ?provisioned, fun hlife => ?provisionBarred⟩⟩
  case expiry => exact ⟨_, exec_challengeExpiry hans hat, rfl, State.atElapsed_elapsed (by simpa [State.answers] using hans) _⟩
  case locked => exact ⟨_, exec_lock_of_locked hans hlocked, rfl⟩
  case lock =>
    obtain ⟨hsec, x, hx, htype⟩ := endUnlock_of_unlocked (s := s.secStatus stOK) hunlocked
    refine ⟨_, x, exec_lock_of_unlocked hans hunlocked, ?_⟩
    rw [hsec]
    exact ⟨rfl, rfl, rfl, hx, htype⟩
  case unlockExpiry =>
    have hsame : (s.atElapsed h).sec = s.sec := keeps_sec (s.atElapsed_erase h (Nat.and_self _)) rfl
    obtain ⟨hsec, x, hx, htype⟩ := endUnlock_of_unlocked (s := s.atElapsed h) (by rw [hsame, hend]; exact nofun)
    refine ⟨_, x, exec_unlockExpiry hans hend, ?_⟩
    rw [hsec, endUnlock_time]
    exact ⟨rfl, rfl, State.atElapsed_elapsed (by simpa [State.answers] using hans) _, hx, htype⟩
  case burned =>
    rw [exec_programKey hans, programKey_of_burned hlife hkey]
    obtain ⟨x, hx, htype⟩ := secRecord_waiting (State.secStatus { s with
      fuses := { s.fuses with integratorHash := leNat (digest256 (s.tokenBytes 0 68)) } } stOK) 0x0906 stOK {}
    exact ⟨_, x, rfl, rfl, rfl, hx, htype⟩
  case failed =>
    rw [exec_programKey hans, programKey_of_failed hlife hkey]
    obtain ⟨x, hx, htype⟩ := secRecord_waiting (State.secStatus { s with
      fuses := { s.fuses with integratorHash := leNat (digest256 (s.tokenBytes 0 68)) &&& Config.freeNat s.free }
      free := s.free + 1 } stRANGE) 0x0905 stRANGE {}
    exact ⟨_, x, rfl, rfl, rfl, hx, htype⟩
  case keyBarred =>
    rw [exec_programKey hans, programKey_of_barred b hbarred]
    exact ⟨_, rfl, rfl, rfl, rfl, rfl⟩
  case deploy =>
    obtain ⟨hfuses, hsec, x, hx, htype⟩ := setLifecycle_moves (s.secStatus stOK) 2
    exact ⟨_, x, exec_deploy_of_ready hans hlife hkey hstep hupdate, hfuses, by rw [hsec]; rfl, hx, htype⟩
  case deployBarred => exact ⟨_, exec_deploy_of_barred hans hbarred, rfl, rfl, rfl⟩
  case returned =>
    obtain ⟨hfuses, hsec, x, hx, htype⟩ := setLifecycle_moves ((seedsBurned s).secStatus stOK) 3
    exact ⟨_, x, exec_returnDevice_of_permitted hans hlife hperm hidle, hfuses, by rw [hsec]; rfl, hx, htype⟩
  case returnBarred => exact ⟨_, exec_returnDevice_of_barred hans hbarred, rfl, rfl, rfl⟩
  case provisioned =>
    obtain ⟨hfuses, hsec, x, hx, htype⟩ := setLifecycle_moves (identityBurned s a b c d cert) 1
    exact ⟨_, x, exec_provisioning_of_blank hans a b c d cert hlife, hfuses, by rw [hsec]; rfl, hx, htype⟩
  case provisionBarred => exact ⟨_, exec_provisioning_of_barred hans a b c d cert hlife, rfl, rfl, rfl⟩

/-! ## The debug unlock (19 R565) -/

theorem tokenForm_iff (s : State) : tokenForm s = true ↔ s.tokenField 0 4 = 0x4C4D544B ∧ s.tokenField 4 2 = 1 ∧ s.tokenField 48 8 < 16
    ∧ 1 ≤ s.tokenField 56 4 ∧ s.tokenField 56 4 ≤ 28800 := by
  simp only [tokenForm, within, Bool.and_eq_true, beq_iff_eq, decide_eq_true_eq, and_assoc]

theorem tokenGood_iff (s : State) : tokenGood s = true ↔
    s.tokenField 7 1 = s.fuses.lifecycle ∧ signerAllowed s.fuses.lifecycle (s.tokenField 6 1) = true
      ∧ keyMatches (if s.tokenField 6 1 = 0 then s.fuses.dartojaHash else s.fuses.integratorHash) (leNat (digest256 (s.tokenBytes 64 68))) = true
      ∧ s.tokenField 8 8 = s.fuses.deviceId ∧ s.tokenField 16 32 = s.sec.challenge
      ∧ (∃ h, s.sec.challengeAt = some h ∧ s.time.elapsed < h + 600 * second)
      ∧ xmssVerify (s.tokenBytes 64 4) (s.tokenBytes 68 32) (s.tokenBytes 100 32) (s.tokenBytes 0 160) (s.tokenBytes 160 2820) = true := by
  cases hat : s.sec.challengeAt with
  | none => simp [tokenGood, hat]
  | some t => simp [tokenGood, hat, and_assoc]

theorem exec_unlock {s : State} (hans : s.answers = true) : exec .unlock s = .next (unlock s) := by
  change execUnlock s = _
  rw [execUnlock, if_pos hans]
  rfl

/-- What the records of an unlock tell of its token. -/
def tokenPayload (s : State) : SecPl := { signer := s.tokenField 6 1, perms := s.tokenField 48 8, duration := s.tokenField 56 4 }

/-- The permissions of the token in force. -/
def unlocked (s : State) : State :=
  { s with sec := { s.sec with
      status := stOK, perm := BitVec.ofNat 64 (s.tokenField 48 8)
      unlockEnd := some (s.time.elapsed + s.tokenField 56 4 * second), challengeAt := none } }

section
variable {s : State}

theorem unlock_of_malformed (h : tokenForm s = false) : unlock s = s.secStatus stRANGE := by
  rw [unlock, if_pos (by simp [h])]

variable (hform : tokenForm s = true)
include hform

theorem unlock_of_bad (h : tokenGood s = false) : unlock s = (s.secStatus stSIG).secRecord 0x0905 stSIG (tokenPayload s) := by
  rw [unlock, if_neg (by simp [hform])]
  exact if_pos (by simp [h])

theorem unlock_of_good (h : tokenGood s = true) : unlock s = checkAccess ((unlocked s).secRecord 0x0903 stOK (tokenPayload s)) := by
  rw [unlock, if_neg (by simp [hform])]
  exact if_neg (by simp [h])

end

/-- Settles O52: `tokenForm_iff` and `tokenGood_iff` say what the token proves, the three cases of `unlock` what it grants. -/
theorem unlockGrantsWhatItsTokenProves : Obligations.UnlockGrantsWhatItsTokenProves := by
  refine ⟨tokenForm_iff, tokenGood_iff, fun s hans => ⟨fun hform => ?malformed, fun hform => ?formed⟩⟩
  case malformed =>
    rw [exec_unlock hans, unlock_of_malformed hform]
    exact ⟨_, rfl, rfl, rfl⟩
  case formed =>
    split
    next hgood =>
      obtain ⟨x, hx, htype⟩ := secRecord_waiting (unlocked s) 0x0903 stOK (tokenPayload s)
      rw [exec_unlock hans, unlock_of_good hform hgood]
      refine ⟨_, x, rfl, (RecordsAdded.checkAccess _).kept (by simp [hx]), ?_⟩
      rw [checkAccess_sec]
      exact ⟨rfl, rfl, rfl, rfl, htype⟩
    next hbad =>
      obtain ⟨x, hx, htype⟩ := secRecord_waiting (s.secStatus stSIG) 0x0905 stSIG (tokenPayload s)
      rw [exec_unlock hans, unlock_of_bad hform (Bool.eq_false_iff.mpr hbad)]
      exact ⟨_, x, rfl, by simp [hx], rfl, hx, htype⟩

end Sys2Proof.Machine

/-! DRAM refreshed, retrained, scrubbed and repaired (16 R480, R486 to R493, 14 R413). -/

namespace Sys2Proof.Machine

theorem State.dram_of_erase {m : Nat} {s t : State} (h : t.erase m = s.erase m) (hm : m.testBit 30 = false) (n : Nat) :
    t.dram n = s.dram n := by
  rw [State.dram, State.dram, keeps_drams h hm]

@[simp] theorem State.corrected_dram (s : State) (source unit_ n j : Nat) : (s.corrected source unit_ n).dram j = s.dram j :=
  State.dram_of_erase (s.corrected_erase source unit_ n (Nat.and_self _)) rfl j

@[simp] theorem State.corrected_time (s : State) (source unit_ n : Nat) : (s.corrected source unit_ n).time = s.time :=
  keeps_time (s.corrected_erase source unit_ n (Nat.and_self _)) rfl

@[simp] theorem State.corrected_voids (s : State) (source unit_ n : Nat) : (s.corrected source unit_ n).voids = s.voids :=
  keeps_voids (s.corrected_erase source unit_ n (Nat.and_self _)) rfl

@[simp] theorem State.voidRange_dram (s : State) (a n j : Nat) : (s.voidRange a n).dram j = s.dram j := rfl

@[simp] theorem State.contained_dram (s : State) (x : FltPl) (status stream tick account type n : Nat) :
    (s.contained x status stream tick account type).dram n = s.dram n := rfl

@[simp] theorem State.contained_voids (s : State) (x : FltPl) (status stream tick account type : Nat) :
    (s.contained x status stream tick account type).voids = s.voids := rfl

/-! ## Refresh, temperature, retraining and panic (16 R480, R486 to R488) -/

section
variable {s : State} {n : Nat} (hans : s.answers = true) (hn : n < 2)
include hans hn

/-- A port that held panic too long loses it at the moment its time is full. -/
theorem exec_panicLimit {port : Nat} (hpanic : Table.get 0 port (s.dram n).panic ≠ 0) : ∃ u : State,
    u.time.elapsed = max s.time.elapsed (panicDue (Table.get [] port (s.dram n).panicPast) (Table.get 0 port (s.dram n).panic - 1))
      ∧ u.dram n = s.dram n ∧ exec (.panicLimit n port) s = .next (u.modDram n fun x => { endPanic u.time.elapsed port x with
        panicLost := x.panicLost + 1, noPanic := x.noPanic ++ [port] }) := by
  refine ⟨s.atElapsed (panicDue (Table.get [] port (s.dram n).panicPast) (Table.get 0 port (s.dram n).panic - 1)),
    State.atElapsed_elapsed (by simpa [State.answers] using hans) _, State.dram_of_erase (s.atElapsed_erase _ (Nat.and_self _)) rfl n, ?_⟩
  change execPanicLimit n port s = _
  simp only [execPanicLimit, hans, hn, hpanic, ne_eq, not_false_eq_true, decide_true, Bool.and_self, if_true, done]

theorem exec_dramRefresh {c b : Nat} (hc : c < 16) (hb : b < 64) (hstate : (s.dram n).state = 0) :
    exec (.dramRefresh n c b) s = .next (s.modDram n fun x => { x with refreshes := x.refreshes + 1 }) := by
  change execDramRefresh n c b s = _
  rw [execDramRefresh, if_pos (by simp [hans, hn, hc, hb, hstate])]
  rfl

theorem exec_dramTempRead (k : Nat) (hstate : (s.dram n).state ≠ 3) :
    exec (.dramTempRead n k) s = .next ((s.atMultiple 1000000).modDram n fun x => { x with
      temp := min 255 k, refresh2x := if 85 < k then true else if k < 80 then false else x.refresh2x }) := by
  change execDramTempRead n k s = _
  rw [execDramTempRead, if_pos (by simp [hans, hn, hstate])]
  rfl

end

/-- A channel's pause for a retraining that repaired some lanes. -/
def retrainPaused (s : State) (n lanes : Nat) : State :=
  (List.range lanes).foldl (fun a _ => a.fenceEvent { source := srcLane, unit := n } stOK (type := 0x060D))
    (s.modDram n fun x => { x with retrain := x.retrain + 1, lanes := min 0x3F (x.lanes + lanes) })

theorem exec_dramRetrain {s : State} {n c : Nat} (hans : s.answers = true) (hn : n < 2) (hc : c < 16) (hstate : (s.dram n).state = 0)
    (k : Nat) (failed0 failed1 : Bool) : exec (.dramRetrain n c k failed0 failed1) s
    = .next (retrainCount (retrainCount (retrainPaused s n k) n (2 * c) failed0) n (2 * c + 1) failed1) := by
  change execDramRetrain n c k failed0 failed1 s = _
  rw [execDramRetrain, if_pos (by simp [hans, hn, hc, hstate])]
  rfl

section
variable (s : State) (n k : Nat)

theorem retrainPaused_dram : (retrainPaused s n k).dram n
    = { s.dram n with retrain := (s.dram n).retrain + 1, lanes := min 0x3F ((s.dram n).lanes + k) } := by
  refine (foldl_keeps (fun t => t.dram n) (fun t _ => ?_) _ _).trans ?_
  · exact State.dram_of_erase (t.fenceEvent_erase _ _ _ (Nat.and_self _)) rfl n
  · rw [State.modDram_get, if_pos rfl]

theorem retrainPaused_phase : (retrainPaused s n k).phase = s.phase := by
  refine (foldl_keeps (fun t => t.phase) (fun t _ => ?_) _ _).trans (State.modDram_phase _ _ _)
  exact t.fenceEvent_phase _ _ _

/-- Every lane repaired is a fenced unit. -/
theorem retrainPaused_fenced : (retrainPaused s n k).flt.fenced = s.flt.fenced + BitVec.ofNat 64 k := by
  have hcount (l : List Nat) (t : State) :
      (l.foldl (fun a _ => a.fenceEvent { source := srcLane, unit := n } stOK (type := 0x060D)) t).flt.fenced
        = t.flt.fenced + BitVec.ofNat 64 l.length := by
    induction l generalizing t with
    | nil => simp
    | cons i l ih =>
      rw [List.foldl_cons, ih, State.fenceEvent_flt, List.length_cons]
      have hnat : BitVec.ofNat 64 (l.length + 1) = 1 + BitVec.ofNat 64 l.length := by
        rw [BitVec.ofNat_add, BitVec.add_comm]
        rfl
      rw [hnat, BitVec.add_assoc]
  rw [retrainPaused, hcount, List.length_range]
  rfl

/-- A pseudo-channel that did not fail counts none in a row. -/
theorem retrainCount_of_passed : retrainCount s n k false
    = s.modDram n fun x => { x with retrainFails := Table.set 0 k 0 x.retrainFails } := rfl

/-- The third failure in a row loses the stack. -/
theorem retrainCount_of_third {s : State} {n k : Nat} (hans : s.answers = true) (hfails : 2 ≤ Table.get 0 k (s.dram n).retrainFails) :
    ((retrainCount s n k true).dram n).state = 3 ∧ (retrainCount s n k true).phase = .safe := by
  simp only [retrainCount, if_true]
  rw [if_neg (by omega)]
  refine ⟨?_, chipFatal_phase _ _ hans⟩
  rw [State.dram_of_erase (chipFatal_erase _ _ _ (Nat.and_self _)) rfl, State.modDram_get, if_pos rfl]

end

/-! ## Rows and scrubs (16 R490 to R493, 14 R413) -/

/-- A stack with a row given its shadow row. -/
def Dram.shadowed (x : Dram) (row : Nat) (again : Bool) : Dram :=
  { x with
    remapFree := x.remapFree - 1, remapped := x.remapped ++ [row], rowErrors := Table.set [] row [] x.rowErrors
    marked := if again then x.marked else x.marked ++ [row], kept := if again then x.kept + 1 else x.kept }

/-- The counted errors of a row within a day, with one now. -/
def rowTimes (s : State) (n row : Nat) : List Nat :=
  recent s.time.elapsed day (Table.get [] row (s.dram n).rowErrors) ++ [s.time.elapsed]

/-- One more error of a row counted. -/
def rowCounted (s : State) (n row : Nat) : State :=
  s.modDram n fun x => { x with rowErrors := Table.set [] row (rowTimes s n row) x.rowErrors }

section
variable {s : State} {n row : Nat}

theorem markRow_of_free (hnew : (s.dram n).remapped.contains row = false) (hfree : (s.dram n).remapFree ≠ 0) :
    markRow s n row = s.modDram n fun x => x.shadowed row ((s.dram n).repaired.contains row) := by
  rw [markRow]
  exact (if_neg (by rw [hnew]; exact nofun)).trans (if_neg hfree)

theorem countRow_of_few (h : (recent s.time.elapsed day (Table.get [] row (s.dram n).rowErrors)).length < 3) :
    countRow s n row = rowCounted s n row := by
  rw [countRow]
  exact if_neg (by rw [List.length_append, List.length_singleton]; omega)

theorem countRow_of_fourth (h : 3 ≤ (recent s.time.elapsed day (Table.get [] row (s.dram n).rowErrors)).length) :
    countRow s n row = markRow (rowCounted s n row) n row := by
  rw [countRow]
  exact if_pos (by rw [List.length_append, List.length_singleton]; omega)

@[simp] theorem rowCounted_flt : (rowCounted s n row).flt = s.flt := State.modDram_flt _ _ _
@[simp] theorem rowCounted_voids : (rowCounted s n row).voids = s.voids := State.modDram_voids _ _ _

theorem rowCounted_dram : (rowCounted s n row).dram n
    = { s.dram n with rowErrors := Table.set [] row (rowTimes s n row) (s.dram n).rowErrors } := by
  rw [rowCounted, State.modDram_get, if_pos rfl]

end

theorem anyVoid_one_eq (s : State) (a : Nat) : s.anyVoid a 1 = s.voids.contains (granule a) := by
  rw [State.anyVoid, granulesOf_one, List.any_cons, List.any_nil, Bool.or_false]

section
variable {s : State} {a : Nat}

theorem dramRead_of_void (h : s.anyVoid a 1 = true) (onDie : Bool) (e : Secded) : dramRead s a onDie e = s := by
  rw [dramRead]
  exact if_pos (by rwa [← anyVoid_one_eq])

theorem dramRead_clean : dramRead s a false .clean = s := by
  rw [dramRead]
  exact ite_self s

variable (h : s.anyVoid a 1 = false)
include h

theorem dramRead_onDie : dramRead s a true .clean
    = countRow ((s.modDram (stackOf a) fun x => { x with odecc := x.odecc + 1 }).corrected srcDramSingle (stackOf a)) (stackOf a)
      (Config.dramRow a) := by
  rw [dramRead]
  exact if_neg (by rw [← anyVoid_one_eq, h]; exact nofun)

theorem dramRead_single : dramRead s a false .single
    = countRow ((s.modDram (stackOf a) fun x => { x with ce := x.ce + 1 }).corrected srcDramSingle (stackOf a)) (stackOf a)
      (Config.dramRow a) := by
  rw [dramRead]
  exact if_neg (by rw [← anyVoid_one_eq, h]; exact nofun)

theorem dramRead_uncorrectable : dramRead s a false .uncorrectable
    = markRow (((s.voidRange a 1).modDram (stackOf a) fun x => { x with ue := x.ue + 1 }).contained
      { source := srcDramDouble, unit := stackOf a, address := 64 * granule a } stVOID) (stackOf a) (Config.dramRow a) := by
  rw [dramRead]
  exact if_neg (by rw [← anyVoid_one_eq, h]; exact nofun)

/-- A word of on-die memory beyond correction: a contained error and a void granule. -/
theorem dieRead_uncorrectable (unit_ : Nat) : (dieRead s a unit_ .uncorrectable).flt.contained = s.flt.contained + 1
    ∧ (dieRead s a unit_ .uncorrectable).anyVoid a 1 = true := by
  have hread : dieRead s a unit_ .uncorrectable
      = (s.voidRange a 1).contained { source := srcMemDouble, unit := unit_, address := 64 * granule a } stVOID := by
    rw [dieRead]
    exact if_neg (by rw [← anyVoid_one_eq, h]; exact nofun)
  rw [hread, State.contained_flt, State.anyVoid_congr (State.contained_voids _ _ _ _ _ _ _)]
  exact ⟨rfl, voidRange_one_anyVoid s a⟩

end

section
variable {s : State} (hans : s.answers = true)
include hans

theorem exec_dramScrub {a : Nat} (ha : a < dramEnd) (onDie : Bool) (e : Secded) :
    exec (.dramScrub a onDie e) s = .next (dramRead s a onDie e) := by
  change execDramScrub a onDie e s = _
  rw [execDramScrub, if_pos (by simp [hans, ha])]
  rfl

theorem exec_regionScrub_region {g a : Nat} (hg : g < 4) (ha : a < 0x2000000) (e : Secded) :
    exec (.regionScrub (.region g) a e) s = .next (dieRead s (regionBase g + a) g e) := by
  change execRegionScrub (.region g) a e s = _
  simp only [execRegionScrub, hans, Bool.not_true, Bool.false_eq_true, if_false, if_pos (And.intro hg ha), done]

/-- The count of a ledger cache's corrected words. -/
def cacheCounted (s : State) (r : Nat) (e : Secded) : State :=
  if e = .single then s.modClr r fun x => { x with cacheCe := x.cacheCe + 1 } else s

theorem exec_regionScrub_ledgerCache {r a : Nat} (hr : r < 4) (ha : a < 0x10000000) (e : Secded) :
    exec (.regionScrub (.ledgerCache r) a e) s = .next (dieRead (cacheCounted s r e) (s.layout.ledger + a) r e) := by
  change execRegionScrub (.ledgerCache r) a e s = _
  simp only [execRegionScrub, hans, Bool.not_true, Bool.false_eq_true, if_false, if_pos (And.intro hr ha), done]
  rfl

/-! ## Soft repairs (16 R493) -/

variable {n row : Nat} (hn : n < 2)
include hn

section
variable (hmarked : row ∈ (s.dram n).marked) (hidle : (s.dram n).repairing = none)
include hmarked hidle

theorem exec_softRepair_of_free (hfree : ((s.dram n).repaired.any fun r => decide (Config.dramBank r = Config.dramBank row)) = false) :
    exec (.softRepair n row) s = .next (s.modDram n fun x => { x with marked := x.marked.filter (· != row), repairing := some row }) := by
  change execSoftRepair n row s = _
  rw [execSoftRepair]
  refine congrArg done ((if_pos ?_).trans (if_neg ?_))
  · simp [hans, hn, hmarked, hidle]
  · rw [hfree]
    exact nofun

theorem exec_softRepair_of_used (hused : ((s.dram n).repaired.any fun r => decide (Config.dramBank r = Config.dramBank row)) = true) :
    exec (.softRepair n row) s = .next (s.modDram n fun x => { x with marked := x.marked.filter (· != row), kept := x.kept + 1 }) := by
  change execSoftRepair n row s = _
  rw [execSoftRepair]
  refine congrArg done ((if_pos ?_).trans (if_pos hused))
  simp [hans, hn, hmarked, hidle]

end

/-- A stack with a repaired row. -/
def Dram.repairedRow (x : Dram) (row : Nat) : Dram :=
  { x with
    repairing := none, remapped := x.remapped.filter (· != row), remapFree := x.remapFree + 1
    repaired := x.repaired ++ [row], repairs := x.repairs + 1 }

theorem exec_softRepairComplete (hrepairing : (s.dram n).repairing = some row) :
    exec (.softRepairComplete n row) s = .next (writeUnitMap (s.modDram n fun x => x.repairedRow row)) := by
  change execSoftRepairComplete n row s = _
  rw [execSoftRepairComplete, if_pos (by simp [hans, hn, hrepairing])]
  rfl

end

/-- A row leaves the list it is filtered from. -/
theorem not_mem_filter_ne (row : Nat) (l : List Nat) : row ∉ l.filter (· != row) := by simp

/-- Settles O46: `countRow_of_few`, `countRow_of_fourth` and `markRow_of_free` for the rows, `retrainCount_of_third` for the lost
stack. -/
theorem dramIsKeptAndRepaired : Obligations.DramIsKeptAndRepaired := by
  refine ⟨fun s n port hans hn hpanic => ?panic, fun s n c b hans hn hc hb hstate => ?refresh, fun s n k hans hn hstate => ?temp,
    fun s n c k hans hn hc hstate => ?retrained, fun s n c hans hn hc hstate hfails => ?lost, fun s a o e hans ha hvoid => ?void,
    fun s a hans ha => ?clean, fun s a n row hans ha hsound hn hrow hfew => ⟨?onDie, ?single⟩,
    fun s a n row hans ha hsound hn hrow hmany hnew hfree => ?fourth, fun s a n row hans ha hsound hn hrow hnew hfree => ?uncorrectable,
    fun s g a hans hg ha hsound => ⟨?regionClean, ?regionSingle, ?regionVoid⟩,
    fun s r a hans hr ha hsound => ⟨?cacheSingle, ?cacheVoid⟩, fun s n row hans hn hmarked hidle hfree => ?repair,
    fun s n row hans hn hmarked hidle hused => ?kept, fun s n row hans hn hrepairing => ?repaired⟩
  case panic =>
    obtain ⟨u, helapsed, hdram, hexec⟩ := exec_panicLimit hans hn hpanic
    refine ⟨_, hexec, ?_⟩
    rw [State.modDram_get, if_pos rfl, hdram]
    exact ⟨rfl, List.mem_append_right _ (List.mem_singleton_self port), Table.get_set_self _ _ _ _, helapsed⟩
  case refresh =>
    refine ⟨_, exec_dramRefresh hans hn hc hb hstate, ?_, rfl, rfl⟩
    rw [State.modDram_get, if_pos rfl]
  case temp =>
    refine ⟨_, exec_dramTempRead hans hn k hstate, ?_⟩
    rw [State.modDram_get, if_pos rfl, State.dram_of_erase (s.atMultiple_erase _ (Nat.and_self _)) rfl]
    refine ⟨rfl, fun hhot => if_pos hhot, fun hcool => ?_, fun hlow hhigh => ?_⟩
    · exact (if_neg (by omega)).trans (if_pos hcool)
    · exact (if_neg (by omega)).trans (if_neg (by omega))
  case retrained =>
    refine ⟨_, exec_dramRetrain hans hn hc hstate k false false, ?_⟩
    rw [retrainCount_of_passed, retrainCount_of_passed, State.modDram_get, if_pos rfl, State.modDram_get, if_pos rfl, retrainPaused_dram]
    refine ⟨rfl, rfl, hstate, retrainPaused_phase s n k, ?_, Table.get_set_self _ _ _ _, retrainPaused_fenced s n k⟩
    exact (Table.get_set_ne _ _ _ _ _ (by omega)).trans (Table.get_set_self _ _ _ _)
  case lost =>
    have hphase : (retrainPaused s n 0).phase = s.phase := retrainPaused_phase s n 0
    obtain ⟨hstate3, hsafe⟩ := retrainCount_of_third (s := retrainPaused s n 0) (n := n) (k := 2 * c)
      (by rwa [State.answers, hphase]) (by rwa [retrainPaused_dram])
    refine ⟨_, exec_dramRetrain hans hn hc hstate 0 true false, ?_⟩
    rw [retrainCount_of_passed, State.modDram_get, if_pos rfl]
    exact ⟨hstate3, hsafe⟩
  case void => rw [exec_dramScrub hans ha, dramRead_of_void hvoid]
  case clean => rw [exec_dramScrub hans ha, dramRead_clean]
  case onDie =>
    subst hn hrow
    refine ⟨_, exec_dramScrub hans ha true .clean, ?_⟩
    rw [dramRead_onDie hsound, countRow_of_few (by simpa using hfew), rowCounted_dram]
    exact ⟨by simp, by simp, by simp, by simp⟩
  case single =>
    subst hn hrow
    refine ⟨_, exec_dramScrub hans ha false .single, ?_⟩
    rw [dramRead_single hsound, countRow_of_few (by simpa using hfew), rowCounted_dram]
    exact ⟨by simp, by simp, by simp, by simp⟩
  case fourth =>
    subst hn hrow
    refine ⟨_, exec_dramScrub hans ha false .single, ?_⟩
    rw [dramRead_single hsound, countRow_of_fourth (by simpa using hmany),
      markRow_of_free (by rw [rowCounted_dram]; simpa using hnew) (by rw [rowCounted_dram]; simpa using hfree),
      State.modDram_get, if_pos rfl, rowCounted_dram]
    exact ⟨by simp [Dram.shadowed], by simp [Dram.shadowed]⟩
  case uncorrectable =>
    subst hn hrow
    refine ⟨_, exec_dramScrub hans ha false .uncorrectable, ?_⟩
    rw [dramRead_uncorrectable hsound, markRow_of_free (by simpa using hnew) (by simpa using hfree), State.modDram_get, if_pos rfl]
    refine ⟨?_, by simp [Dram.shadowed], ?_, by simp [Dram.shadowed]⟩
    · rw [State.anyVoid_congr (t := State.modDram _ _ _) (s := s.voidRange a 1)]
      · exact voidRange_one_anyVoid s a
      · rw [State.modDram_voids, State.contained_voids, State.modDram_voids]
    · rw [State.modDram_flt, State.contained_flt, State.modDram_flt]
      rfl
  case regionClean => rw [exec_regionScrub_region hans hg ha, dieRead]
  case regionSingle => exact ⟨_, exec_regionScrub_region hans hg ha .single, rfl, rfl⟩
  case regionVoid =>
    exact ⟨_, exec_regionScrub_region hans hg ha .uncorrectable, dieRead_uncorrectable hsound g⟩
  case cacheSingle =>
    refine ⟨_, exec_regionScrub_ledgerCache hans hr ha .single, ?_, rfl⟩
    rw [dieRead, State.corrected_clr, cacheCounted, if_pos rfl, State.modClr_get, if_pos rfl]
  case cacheVoid =>
    refine ⟨_, exec_regionScrub_ledgerCache hans hr ha .uncorrectable, ?_⟩
    rw [cacheCounted, if_neg nofun]
    exact dieRead_uncorrectable hsound r
  case repair =>
    refine ⟨_, exec_softRepair_of_free hans hn hmarked hidle hfree, ?_⟩
    rw [State.modDram_get, if_pos rfl]
    exact ⟨rfl, not_mem_filter_ne row _, rfl⟩
  case kept =>
    refine ⟨_, exec_softRepair_of_used hans hn hmarked hidle hused, ?_⟩
    rw [State.modDram_get, if_pos rfl]
    exact ⟨rfl, not_mem_filter_ne row _, rfl⟩
  case repaired =>
    refine ⟨_, exec_softRepairComplete hans hn hrepairing, ?_⟩
    rw [State.dram_of_erase (writeUnitMap_erase _ (Nat.and_self _)) rfl, State.modDram_get, if_pos rfl]
    exact ⟨rfl, rfl, rfl, not_mem_filter_ne row _, by simp [writeUnitMap]⟩

end Sys2Proof.Machine

/-! Zone tensors and their evaluations (15 R451 to R458): what an input, an output and a deadline leave of the zones. -/

namespace Sys2Proof.Machine

/-! ## Folds over zones -/

section
variable {α : Type} {f : State → α → State} {z : α} {l : List α}

/-- What one element brings about stays, where every step keeps an invariant and the steps of other elements keep the outcome. -/
theorem foldl_reaches {Inv P : State → Prop} (hinv : ∀ t m, Inv t → Inv (f t m)) (hself : ∀ t, Inv t → P (f t z))
    (hother : ∀ t m, m ≠ z → P t → P (f t m)) (hmem : z ∈ l) {s : State} (hs : Inv s) : P (l.foldl f s) := by
  have hstep (t : State) (m : α) (ht : Inv t) (hp : P t) : P (f t m) := by
    by_cases heq : m = z
    · exact heq ▸ hself t ht
    · exact hother t m heq hp
  obtain ⟨before, after, rfl⟩ := List.append_of_mem hmem
  rw [List.foldl_append, List.foldl_cons]
  have hbefore : Inv (before.foldl f s) := List.foldlRecOn (motive := Inv) before f hs fun t ht m _ => hinv t m ht
  exact (List.foldlRecOn (motive := fun t => Inv t ∧ P t) after f ⟨hinv _ z hbefore, hself _ hbefore⟩
    fun t ht m _ => ⟨hinv t m ht.1, hstep t m ht.1 ht.2⟩).2

/-- Without repetition one element's step is all that a view of it sees. -/
theorem foldl_once {β : Type} (view : State → β) (hother : ∀ t m, m ≠ z → view (f t m) = view t) (hnodup : l.Nodup) (hmem : z ∈ l)
    (s : State) : ∃ t, view t = view s ∧ view (l.foldl f s) = view (f t z) := by
  obtain ⟨before, after, rfl⟩ := List.append_of_mem hmem
  rw [List.nodup_append, List.nodup_cons] at hnodup
  obtain ⟨-, ⟨hafter, -⟩, hbefore⟩ := hnodup
  rw [List.foldl_append, List.foldl_cons]
  refine ⟨before.foldl f s, ?_, ?_⟩
  · exact List.foldlRecOn (motive := fun t => view t = view s) before f rfl fun t ht m hm =>
      (hother t m (hbefore m hm z List.mem_cons_self)).trans ht
  · exact List.foldlRecOn (motive := fun t => view t = view (f (before.foldl f s) z)) after f rfl fun t ht m hm =>
      (hother t m fun heq => hafter (heq ▸ hm)).trans ht

end

/-! ## What the zones' operations leave of the safety unit -/

/-- The safety unit but for its zones and channels. -/
def Saf.core (x : Saf) : Saf := { x with zones := [], channels := [] }

theorem Saf.of_core {x y : Saf} (h : x.core = y.core) : x.evals = y.evals ∧ x.untrusted = y.untrusted ∧ x.missed = y.missed
    ∧ x.evaluations = y.evaluations ∧ x.disagree = y.disagree :=
  ⟨congrArg (·.evals) h, congrArg (·.untrusted) h, congrArg (·.missed) h, congrArg (·.evaluations) h, congrArg (·.disagree) h⟩

@[simp] theorem State.setZone_core (s : State) (z : Nat) (x : Zone) : (s.setZone z x).saf.core = s.saf.core := rfl

@[simp] theorem settleChannel_core (s : State) (n : Nat) : (settleChannel s n).saf.core = s.saf.core := by
  rw [settleChannel_saf]
  rfl

section
variable (s : State) (z : Nat)

@[simp] theorem occupiedBy_core (cause : Nat) (p : SafPl) (stream tick : Nat) (epoch : Option Nat) :
    (occupiedBy s z cause p stream tick epoch).saf.core = s.saf.core := by
  rw [occupiedBy]
  split
  · rfl
  · rw [settleChannel_core]
    split
    · rfl
    · rw [State.safRecord_saf, State.setZone_core]

/-- An occupied cause sets its zone alone, where that is on. -/
theorem occupiedBy_zone_cases (cause : Nat) (p : SafPl) (stream tick : Nat) (epoch : Option Nat) :
    (occupiedBy s z cause p stream tick epoch).zone z = s.zone z ∨ (occupiedBy s z cause p stream tick epoch).zone z
      = { s.zone z with state := .occupied, cause := cause, q := 0, since := s.time.now } := by
  by_cases hon : (s.zone z).state = .off
  · rw [occupiedBy, if_pos hon]
    exact .inl rfl
  · rw [occupiedBy_zone hon, if_pos rfl]
    exact .inr rfl

theorem occupiedBy_zone_ne {j : Nat} (hj : j ≠ z) (cause : Nat) (p : SafPl) (stream tick : Nat) (epoch : Option Nat) :
    (occupiedBy s z cause p stream tick epoch).zone j = s.zone j := by
  by_cases hon : (s.zone z).state = .off
  · rw [occupiedBy, if_pos hon]
  · rw [occupiedBy_zone hon, if_neg hj]

/-- A zone that is on stays on when a cause occupies it or another. -/
theorem occupiedBy_on {j : Nat} (h : (s.zone j).state ≠ .off) (cause : Nat) (p : SafPl) (stream tick : Nat) (epoch : Option Nat) :
    ((occupiedBy s z cause p stream tick epoch).zone j).state ≠ .off := by
  by_cases hj : j = z
  · subst hj
    rw [occupiedBy_zone h, if_pos rfl]
    exact nofun
  · rwa [occupiedBy_zone_ne s z hj]

/-! ## Inputs (15 R457, R458) -/

/-- A zone that an untrusted input has counted. -/
def Zone.distrusted (x : Zone) : Zone := { x with u := x.u + 1, q := 0, secUntrusted := x.secUntrusted + 1 }

/-- The untrusted input counted, before it may occupy the zone. -/
def inputDistrusted : State :=
  let s1 := s.setZone z (s.zone z).distrusted
  { s1 with saf := { s1.saf with untrusted := s1.saf.untrusted + 1 } }

theorem inputDistrusted_zone (j : Nat) : (inputDistrusted s z).zone j = if j = z then (s.zone z).distrusted else s.zone j :=
  State.setZone_get s z (s.zone z).distrusted j

theorem untrustedInput_eq : untrustedInput s z
    = if (s.zone z).row.nLimit ≤ (s.zone z).u + 1 then occupyZone (inputDistrusted s z) z causeUntrusted else inputDistrusted s z := rfl

theorem untrustedInput_core : (untrustedInput s z).saf.core = { s.saf.core with untrusted := s.saf.untrusted + 1 } := by
  rw [untrustedInput_eq]
  split
  · rw [occupyZone, occupiedBy_core]
    rfl
  · rfl

theorem untrustedInput_zone_ne {j : Nat} (hj : j ≠ z) : (untrustedInput s z).zone j = s.zone j := by
  rw [untrustedInput_eq]
  split
  · rw [occupyZone, occupiedBy_zone_ne _ z hj, inputDistrusted_zone, if_neg hj]
  · rw [inputDistrusted_zone, if_neg hj]

/-- What an untrusted input counts of its zone, on or off. -/
theorem untrustedInput_counts : ((untrustedInput s z).zone z).u = (s.zone z).u + 1 ∧ ((untrustedInput s z).zone z).q = 0
    ∧ ((untrustedInput s z).zone z).inputThisPeriod = (s.zone z).inputThisPeriod := by
  have hcounted : (inputDistrusted s z).zone z = (s.zone z).distrusted := (inputDistrusted_zone s z z).trans (if_pos rfl)
  rw [untrustedInput_eq]
  split
  · obtain heq | heq := occupiedBy_zone_cases (inputDistrusted s z) z causeUntrusted {} 0xFFFF 0 none
    · rw [occupyZone, heq, hcounted]
      exact ⟨rfl, rfl, rfl⟩
    · rw [occupyZone, heq, hcounted]
      exact ⟨rfl, rfl, rfl⟩
  · rw [hcounted]
    exact ⟨rfl, rfl, rfl⟩

/-- An input that is not trusted, its lanes' digests not compared. -/
def inputTaken : State := s.setZone z { s.zone z with inputThisPeriod := true }

theorem inputTaken_zone (j : Nat) : (inputTaken s z).zone j = if j = z then { s.zone z with inputThisPeriod := true } else s.zone j :=
  State.setZone_get _ _ _ _

theorem zoneInput_distrusted_eq : zoneInput s z false none = if (s.zone z).row.fLimit ≤ (s.zone z).e then
    occupyZone (untrustedInput (inputTaken s z) z) z causeUntrusted else untrustedInput (inputTaken s z) z := rfl

theorem zoneInput_distrusted_core : (zoneInput s z false none).saf.core = { s.saf.core with untrusted := s.saf.untrusted + 1 } := by
  have hinput : (untrustedInput (inputTaken s z) z).saf.core = { s.saf.core with untrusted := s.saf.untrusted + 1 } :=
    untrustedInput_core (inputTaken s z) z
  rw [zoneInput_distrusted_eq]
  split
  · rw [occupyZone, occupiedBy_core, hinput]
  · exact hinput

theorem zoneInput_distrusted_zone_ne {j : Nat} (hj : j ≠ z) : (zoneInput s z false none).zone j = s.zone j := by
  have hinput : (untrustedInput (inputTaken s z) z).zone j = s.zone j := by
    rw [untrustedInput_zone_ne _ _ hj, inputTaken_zone, if_neg hj]
  rw [zoneInput_distrusted_eq]
  split
  · rw [occupyZone, occupiedBy_zone_ne _ _ hj, hinput]
  · exact hinput

theorem zoneInput_distrusted_zone : ((zoneInput s z false none).zone z).u = (s.zone z).u + 1
    ∧ ((zoneInput s z false none).zone z).q = 0 ∧ ((zoneInput s z false none).zone z).inputThisPeriod = true := by
  have htaken : (inputTaken s z).zone z = { s.zone z with inputThisPeriod := true } := (inputTaken_zone s z z).trans (if_pos rfl)
  obtain ⟨hu, hq, hinput⟩ := untrustedInput_counts (inputTaken s z) z
  rw [htaken] at hu hinput
  rw [zoneInput_distrusted_eq]
  split
  · obtain heq | heq := occupiedBy_zone_cases (untrustedInput (inputTaken s z) z) z causeUntrusted {} 0xFFFF 0 none
    · rw [occupyZone, heq]
      exact ⟨hu, hq, hinput⟩
    · rw [occupyZone, heq]
      exact ⟨hu, rfl, hinput⟩
  · exact ⟨hu, hq, hinput⟩

end

/-- Every zone of a list counts one untrusted input. -/
theorem zoneInputs_distrusted_core (zs : List Nat) (s : State) : (zs.foldl (fun a z => zoneInput a z false none) s).saf.core
    = { s.saf.core with untrusted := s.saf.untrusted + BitVec.ofNat 64 zs.length } := by
  induction zs generalizing s with
  | nil => simp [Saf.core]
  | cons z zs ih =>
    have huntrusted : (zoneInput s z false none).saf.untrusted = s.saf.untrusted + 1 :=
      congrArg Saf.untrusted (zoneInput_distrusted_core s z)
    have hlength : BitVec.ofNat 64 (zs.length + 1) = 1 + BitVec.ofNat 64 zs.length := by
      rw [BitVec.ofNat_add, BitVec.add_comm]
      rfl
    rw [List.foldl_cons, ih, zoneInput_distrusted_core, huntrusted, List.length_cons, hlength, BitVec.add_assoc]


/-! ## Tensors (15 R451, R452) -/

theorem exec_zoneTensorComplete {s : State} {n tick : Nat} {p : Picture} (page l0 l1 : Nat) (hgo : s.mayBegin = true)
    (hfind : ((s.stream n).zoneQueue.find? fun p => p.tick == tick) = some p) :
    exec (.zoneTensorComplete n tick page ⟨l0, l1⟩) s = .next (zoneTensor s p (4096 * page) l0 l1) := by
  change execZoneTensorComplete n tick page ⟨l0, l1⟩ s = _
  simp only [execZoneTensorComplete, hfind, hgo, if_true, done]

/-- A picture that has left the queue of its stream's zones, its tensor's saturations counted. -/
def tensorQueued (s : State) (p : Picture) : State :=
  (if p.void then s else { s with preConvSat := s.preConvSat + BitVec.ofNat 64 (2 * (zoneTensorOf s p).2) }).setStream p.stream
    { s.stream p.stream with zoneQueue := (s.stream p.stream).zoneQueue.filter (·.tick != p.tick) }

section
variable (s : State) (p : Picture)

theorem tensorQueued_erase : (tensorQueued s p).erase 0x60000011000 = s.erase 0x60000011000 := by
  rw [tensorQueued, State.setStream_erase _ _ _ (by decide)]
  split
  · rfl
  · rfl

@[simp] theorem tensorQueued_saf : (tensorQueued s p).saf = s.saf := keeps_saf (tensorQueued_erase s p) rfl

theorem tensorQueued_stream : (tensorQueued s p).stream p.stream
    = { s.stream p.stream with zoneQueue := (s.stream p.stream).zoneQueue.filter (·.tick != p.tick) } := by
  rw [tensorQueued, State.setStream_get, if_pos rfl]

/-- A picture that yields no tensor, or whose lanes differ, is an untrusted input of every zone of its stream. -/
theorem zoneTensor_of_bad {s : State} {p : Picture} {l0 l1 : Nat} (h : p.void = true ∨ l0 ≠ l1) (addr : Nat) : zoneTensor s p addr l0 l1
    = (s.zonesReading p.stream).foldl (fun a z => zoneInput a z false none) (tensorQueued s p) := by
  rw [zoneTensor]
  exact if_pos h

/-- The digest of a tensor on lane 0. -/
def laneDigest (l : Nat) : Nat := tensorDigest (zoneTensorOf s p).1 ^^^ l

/-- The tensor of a sound picture in its page, its digest kept. -/
def tensorStored (addr l : Nat) : State :=
  ((tensorQueued s p).store addr (zoneTensorOf s p).1).modStream p.stream fun y => { y with lastZoneDigest := some (laneDigest s p l) }

/-- The digest of a tensor equals its predecessor's. -/
def tensorRepeats (l : Nat) : Bool := decide ((s.stream p.stream).lastZoneDigest = some (laneDigest s p l))

/-- The zones of the stream with the tensor counted as their input. -/
def tensorCounted (addr l : Nat) : State :=
  (s.zonesReading p.stream).foldl (fun a z => zoneInput a z ((!p.concealed && !p.substituted && !tensorRepeats s p l)
    && decide (s.time.now - p.arrival ≤ (a.zone z).ageNs)) (some (tensorRepeats s p l))) (tensorStored s p addr l)

theorem zoneTensor_of_good {s : State} {p : Picture} (hsound : p.void = false) (addr l : Nat) : zoneTensor s p addr l l
    = if (((tensorCounted s p addr l).cfgOf p.epoch).zoneModel).isNone then tensorCounted s p addr l
      else placeEval (tensorCounted s p addr l) p (p.zoneWindow.getD 0) (!p.concealed && !p.substituted && !tensorRepeats s p l)
        (s.time.now - p.arrival) := by
  rw [zoneTensor]
  exact if_neg (by simp [hsound])

theorem tensorCounted_erase (addr l : Nat) :
    (tensorCounted s p addr l).erase 0xa0000804 = (tensorStored s p addr l).erase 0xa0000804 :=
  erase_foldl (fun t z => zoneInput_erase t z _ _ (Nat.and_self _)) _ _

theorem tensorStored_erase (addr l : Nat) : (tensorStored s p addr l).erase 0x60000011000 = s.erase 0x60000011000 := by
  rw [tensorStored, State.modStream_erase _ _ _ (by decide), State.store_erase _ _ _ _ (by decide), tensorQueued_erase]

/-- What the zones' counts and the tensor's page leave of the device. -/
theorem tensorCounted_erase_all (addr l : Nat) : (tensorCounted s p addr l).erase 0x600a0011804 = s.erase 0x600a0011804 := by
  rw [tensorCounted, erase_foldl (fun t z => zoneInput_erase t z _ _ (by decide)), tensorStored,
    State.modStream_erase _ _ _ (by decide), State.store_erase _ _ _ _ (by decide), tensorQueued,
    State.setStream_erase _ _ _ (by decide)]
  split
  · rfl
  · rfl

theorem tensorQueued_byte (a : Nat) : (tensorQueued s p).byte a = s.byte a := by
  rw [State.byte, tensorQueued, State.setStream_mem, State.byte]
  split
  · rfl
  · rfl

theorem tensorCounted_byte (addr l a : Nat) :
    (tensorCounted s p addr l).byte a = ((tensorQueued s p).store addr (zoneTensorOf s p).1).byte a := by
  rw [State.byte_of_erase (tensorCounted_erase s p addr l) rfl, tensorStored, State.byte, State.modStream_mem, State.byte]

theorem tensorCounted_stream (addr l : Nat) :
    ((tensorCounted s p addr l).stream p.stream).lastZoneDigest = some (laneDigest s p l) := by
  have hstream : (tensorCounted s p addr l).stream p.stream = (tensorStored s p addr l).stream p.stream := by
    rw [State.stream, State.stream, keeps_streams (tensorCounted_erase s p addr l) rfl]
  rw [hstream, tensorStored, State.modStream_get, if_pos rfl]

theorem tensorCounted_preConvSat {s : State} {p : Picture} (hsound : p.void = false) (addr l : Nat) :
    (tensorCounted s p addr l).preConvSat = s.preConvSat + BitVec.ofNat 64 (2 * (zoneTensorOf s p).2) := by
  rw [keeps_preConvSat (tensorCounted_erase s p addr l) rfl, tensorStored, State.modStream_preConvSat,
    keeps_preConvSat (State.store_erase _ _ _ _ (Nat.and_self _)) rfl, tensorQueued, hsound]
  rfl

end

section
variable {m : Nat} {s t : State} (h : t.erase m = s.erase m)
include h

theorem State.ableRegions_of_erase (hengines : m.testBit 18 = false) (hregions : m.testBit 21 = false) : t.ableRegions = s.ableRegions := by
  have hservice (g : Nat) : t.inService g = s.inService g := by
    simp only [State.inService, State.engine_of_erase h hengines]
  have hable : t.regionAble = s.regionAble := funext fun g => by
    rw [State.regionAble, State.regionAble, State.region_of_erase h hregions, hservice]
  rw [State.ableRegions, State.ableRegions, hable]

theorem State.cfgOf_of_erase (hcfg : m.testBit 7 = false) (hold : m.testBit 8 = false) (hstl : m.testBit 9 = false) (epoch : Nat) :
    t.cfgOf epoch = s.cfgOf epoch := State.cfgOf_congr (keeps_cfg h hcfg) (keeps_cfgOld h hold) (keeps_stl h hstl) epoch

end

@[simp] theorem noteEval_saf (s : State) (x : Eval) : (noteEval s x).saf = s.saf := keeps_saf (noteEval_erase s x (Nat.and_self _)) rfl

/-- A picture's evaluation as it is placed on two regions. -/
theorem placeEval_of_regions {s : State} {p : Picture} {k g0 g1 : Nat} {g2 : Option Nat} (good : Bool) (age : Nat)
    (hregions : zoneRegions s.ableRegions (p.stream + k) = some (g0, g1, g2)) : ∃ e ∈ (placeEval s p k good age).saf.evals,
    e.stream = p.stream ∧ e.tick = p.tick ∧ e.epoch = p.epoch ∧ e.deadline = p.arrival + p.dDec + 19000000 ∧ e.decided = false
      ∧ e.outputs = [none, none, none] := by
  simp only [placeEval, hregions, noteEval_saf]
  exact ⟨_, List.mem_append_right _ (List.mem_singleton_self _), rfl, rfl, rfl, rfl, rfl, rfl⟩

/-- Placing an evaluation leaves memory, the streams and the conversion counts. -/
theorem placeEval_keeps (s : State) (p : Picture) (k : Nat) (good : Bool) (age : Nat) :
    (∀ a, (placeEval s p k good age).byte a = s.byte a) ∧ (∀ n, (placeEval s p k good age).stream n = s.stream n)
      ∧ (placeEval s p k good age).preConvSat = s.preConvSat := by
  have herase := placeEval_erase s p k good age (Nat.and_self _)
  refine ⟨fun a => State.byte_of_erase herase rfl a, fun n => ?_, keeps_preConvSat herase rfl⟩
  rw [State.stream, State.stream, keeps_streams herase rfl]

/-! ## Outputs (15 R453 to R456) -/

/-- An evaluation with an output taken. -/
def Eval.given (x : Eval) (o : ZoneOutput) : Eval := { x with outputs := x.outputs.set o.mapping (some (o.engine, o.codes)) }

/-- An output taken into its evaluation, and counted where it gives codes. -/
def outputTaken (s : State) (o : ZoneOutput) (x : Eval) : State :=
  if o.codes.isSome then
    { setEval s (x.given o) with saf := { (setEval s (x.given o)).saf with evaluations := (setEval s (x.given o)).saf.evaluations + 1 } }
  else setEval s (x.given o)

theorem exec_zoneEvalOutput {s : State} (o : ZoneOutput) (hgo : s.mayBegin = true) : exec (.zoneEvalOutput o) s = .next (zoneOutput s o) := by
  change execZoneEvalOutput o s = _
  rw [execZoneEvalOutput, if_pos hgo]
  rfl

section
variable {s : State} {o : ZoneOutput}

theorem zoneOutput_of_none (hfind : (s.saf.evals.find? fun x => x.matches s o) = none) :
    zoneOutput s o = { s with saf := { s.saf with untrusted := s.saf.untrusted + 1 } } := by
  simp only [zoneOutput, hfind]

/-- An output that arrives in time for an open evaluation is compared. -/
theorem zoneOutput_of_match {x : Eval} (hfind : (s.saf.evals.find? fun x => x.matches s o) = some x) (hopen : x.decided = false)
    (hdue : s.time.now < x.deadline) (hfirst : x.outputs.getD o.mapping none = none) :
    zoneOutput s o = compareOutputs (countDiffer (outputTaken s o x) (x.given o) o.mapping) (x.given o) := by
  simp only [zoneOutput, hfind]
  exact if_neg (by simp [hopen, Nat.not_le.mpr hdue, -List.getD_eq_getElem?_getD, hfirst])

/-- An evaluation replaced stands in the list. -/
theorem mem_setEval {x y : Eval} (hmem : x ∈ s.saf.evals) (hstream : x.stream = y.stream) (htick : x.tick = y.tick) :
    y ∈ (setEval s y).saf.evals :=
  List.mem_map.mpr ⟨x, hmem, by simp [hstream, htick]⟩

theorem outputTaken_saf (x : Eval) {c : List Int} (hcodes : o.codes = some c) : (outputTaken s o x).saf
    = { (setEval s (x.given o)).saf with evaluations := s.saf.evaluations + 1 } := by
  rw [outputTaken, hcodes]
  rfl

theorem outputTaken_counts (x : Eval) {c : List Int} (hcodes : o.codes = some c) :
    (outputTaken s o x).saf.evaluations = s.saf.evaluations + 1 ∧ (outputTaken s o x).saf.disagree = s.saf.disagree := by
  rw [outputTaken_saf x hcodes]
  exact ⟨rfl, rfl⟩

theorem outputTaken_zones (x : Eval) : (outputTaken s o x).saf.zones = s.saf.zones := by
  rw [outputTaken]
  split
  · rfl
  · rfl

end

/-- The picture counts in SAF_DISAGREE. -/
def disagreeCounted (s : State) : State := { s with saf := { s.saf with disagree := s.saf.disagree + 1 } }

section
variable {s : State} {x : Eval} {a b : List Int}

/-- While one of the first two outputs is missing, and the other did not fail, nothing follows. -/
theorem compareOutputs_of_one (m : Nat) (hm : m < 2) (hgiven : x.codes m = some a) (hother : x.codes (1 - m) = none)
    (hthird : x.codes 2 = none) (hsound : x.failed 0 = false ∧ x.failed 1 = false) : compareOutputs s x = s := by
  obtain ⟨hsound0, hsound1⟩ := hsound
  obtain rfl | rfl : m = 0 ∨ m = 1 := by omega
  · simp only [compareOutputs, hgiven, show x.codes 1 = none from hother, hthird, hsound0, hsound1, Bool.or_self, Bool.not_false, if_true]
  · simp only [compareOutputs, hgiven, show x.codes 0 = none from hother, hthird, hsound0, hsound1, Bool.or_self, Bool.not_false, if_true]

section
variable (h0 : x.codes 0 = some a)
include h0

theorem compareOutputs_of_equal (h1 : x.codes 1 = some a) (h2 : x.codes 2 = none) : compareOutputs s x = agreed s x a none := by
  simp only [compareOutputs, h0, h1, h2, if_true]

theorem countDiffer_of_equal (m : Nat) (h1 : x.codes 1 = some a) : countDiffer s x m = s := by
  simp only [countDiffer, h0, h1, ne_eq, not_true_eq_false, false_and, if_false]

theorem countDiffer_of_second_missing (m : Nat) (h1 : x.codes 1 = none) : countDiffer s x m = s := by
  simp only [countDiffer, h0, h1]

variable (h1 : x.codes 1 = some b) (hne : a ≠ b)
include h1 hne

theorem countDiffer_of_different {m : Nat} (hm : m < 2) :
    countDiffer s x m = disagreeCounted s := by
  simp only [countDiffer, disagreeCounted, h0, h1, ne_eq, hne, not_false_eq_true, hm, and_self, if_true]

variable (h2 : x.codes 2 = none)
include h2

theorem compareOutputs_of_third {l : Nat} (hthird : x.third = some l) (hidle : x.thirdStarted = false) :
    compareOutputs s x = startThird s x (differing x).1 (differing x).2 := by
  simp only [compareOutputs, h0, h1, h2, hne, if_false, hthird, hidle, Option.isNone_some, Bool.false_eq_true]

theorem compareOutputs_of_two (hthird : x.third = none) :
    compareOutputs s x = noMajority s x causeTwoRegions (differing x).1 (differing x).2 := by
  simp only [compareOutputs, h0, h1, h2, hne, if_false, hthird, Option.isNone_none, if_true]

end

theorem countDiffer_of_first_missing (m : Nat) (h0 : x.codes 0 = none) : countDiffer s x m = s := by
  simp only [countDiffer, h0]

end

/-! ## Decisions (15 R454 to R458) -/

theorem decideEval_saf (s : State) (x : Eval) (status : Nat) :
    (decideEval s x status).saf = { (setEval s { x with decided := true }).saf with status := status } := by
  unfold decideEval
  extract_lets mask s0 s1
  have htrace : s0.saf = s.saf := keeps_saf (s.trace_erase _ _ _ _ (Nat.and_self _)) rfl
  change { (setEval s0 _).saf with status := status } = _
  simp only [setEval, htrace]
  rfl

/-- A decided evaluation, its outcome noted for an update in progress. -/
def evalDecided (s : State) (x : Eval) (status : Nat) (agrees : Nat → Bool) : State := noteResult (decideEval s x status) x agrees

section
variable (s : State) (x : Eval) (status : Nat) (agrees : Nat → Bool)

theorem evalDecided_saf :
    (evalDecided s x status agrees).saf = { (setEval s { x with decided := true }).saf with status := status } :=
  (keeps_saf (noteResult_erase _ _ _ (Nat.and_self _)) rfl).trans (decideEval_saf s x status)

theorem noteResult_epoch : (noteResult s x agrees).stl.epoch = s.stl.epoch := by
  unfold noteResult
  split
  · split
    · split
      · rfl
      · rfl
    · rfl
  · rfl

theorem evalDecided_cfg : (evalDecided s x status agrees).cfg = s.cfg ∧ (evalDecided s x status agrees).cfgOld = s.cfgOld
    ∧ (evalDecided s x status agrees).stl.epoch = s.stl.epoch := by
  have hnote := noteResult_erase (decideEval s x status) x agrees (Nat.and_self _)
  have hdecide := decideEval_erase s x status (Nat.and_self _)
  refine ⟨(keeps_cfg hnote rfl).trans (keeps_cfg hdecide rfl), (keeps_cfgOld hnote rfl).trans (keeps_cfgOld hdecide rfl), ?_⟩
  exact (noteResult_epoch _ _ _).trans (congrArg Stl.epoch (keeps_stl hdecide rfl))

end

section
variable {s t : State} (h : t.saf.zones = s.saf.zones)
include h

theorem zone_of_zones (z : Nat) : t.zone z = s.zone z := by rw [State.zone, h, State.zone]

theorem zonesReading_of_zones (n : Nat) : t.zonesReading n = s.zonesReading n := by rw [State.zonesReading, h, State.zonesReading]

end

theorem evalDecided_zones (s : State) (x : Eval) (status : Nat) (agrees : Nat → Bool) :
    (evalDecided s x status agrees).saf.zones = s.saf.zones := by
  rw [evalDecided_saf]
  rfl

/-! ## Clear earned by a verdict (15 R460) -/

section
variable (s : State) (z : Nat)

theorem tryClear_zone_ne {j : Nat} (hj : j ≠ z) : (tryClear s z).zone j = s.zone j := by
  simp only [tryClear]
  split
  · rw [settleChannel_zone, zone_of_saf (State.safRecord_saf _ _ _ _ _ _ _ _), State.setZone_get, if_neg hj]
  · rfl

theorem tryClear_zone_cases : (tryClear s z).zone z = s.zone z ∨ (tryClear s z).zone z = { s.zone z with state := .clear } := by
  simp only [tryClear]
  split
  · rw [settleChannel_zone, zone_of_saf (State.safRecord_saf _ _ _ _ _ _ _ _), State.setZone_get, if_pos rfl]
    exact .inr rfl
  · exact .inl rfl

theorem tryClear_core : (tryClear s z).saf.core = s.saf.core := by
  simp only [tryClear]
  split
  · rw [settleChannel_core, State.safRecord_saf, State.setZone_core]
  · rfl

end

/-! ## Verdicts (15 R456, R458) -/

/-- A verdict occupies the zone at a cell. -/
def verdictOccupied (s : State) (x : Eval) (z i : Nat) : State :=
  occupiedBy s z causeVerdict (evalPayload s x causeVerdict 0 i) x.stream x.tick (some x.epoch)

/-- The output counts toward clear: its picture came after the zone's last cause, under an epoch that is not outdated. -/
def verdictCounts (s : State) (x : Eval) (z : Nat) : Bool :=
  decide ((s.zone z).since < x.arrival) && !(x.epoch != s.stl.epoch.toNat && s.saf.epoch == s.stl.epoch.toNat)

/-- A trusted clear verdict of a zone. -/
def verdictClear (s : State) (x : Eval) (z : Nat) : State :=
  s.setZone z { s.zone z with u := 0, q := if verdictCounts s x z then (s.zone z).q + 1 else (s.zone z).q }

section
variable (s : State) (x : Eval) (c : List Int) (z : Nat)

/-- The first cell of a zone that an output finds occupied. -/
def occupiedCell (s : State) (x : Eval) (c : List Int) (z : Nat) : Option Nat :=
  (s.cellsOf x z).find? fun i => decide ((s.zone z).row.theta ≤ c.getD i (-128))

theorem zoneVerdict_of_cell {i : Nat} (h : occupiedCell s x c z = some i) : zoneVerdict s x c z = verdictOccupied s x z i := by
  simp only [zoneVerdict, show ((s.cellsOf x z).find? fun i => decide ((s.zone z).row.theta ≤ c.getD i (-128))) = some i from h]
  rfl

theorem zoneVerdict_of_free (h : occupiedCell s x c z = none) : zoneVerdict s x c z
    = if (x.good && decide (x.age ≤ (s.zone z).ageNs)) = true then tryClear (verdictClear s x z) z else s := by
  simp only [zoneVerdict, show ((s.cellsOf x z).find? fun i => decide ((s.zone z).row.theta ≤ c.getD i (-128))) = none from h]
  rfl

theorem verdictClear_zone (j : Nat) : (verdictClear s x z).zone j
    = if j = z then { s.zone z with u := 0, q := if verdictCounts s x z then (s.zone z).q + 1 else (s.zone z).q } else s.zone j :=
  State.setZone_get _ _ _ _

theorem zoneVerdict_zone_ne {j : Nat} (hj : j ≠ z) : (zoneVerdict s x c z).zone j = s.zone j := by
  cases hcell : occupiedCell s x c z with
  | some i => rw [zoneVerdict_of_cell s x c z hcell, verdictOccupied, occupiedBy_zone_ne s z hj]
  | none =>
    rw [zoneVerdict_of_free s x c z hcell]
    split
    · rw [tryClear_zone_ne _ _ hj, verdictClear_zone, if_neg hj]
    · rfl

/-- A verdict leaves the row of its zone, and a zone that is on on. -/
theorem zoneVerdict_zone : ((zoneVerdict s x c z).zone z).row = (s.zone z).row
    ∧ ((s.zone z).state ≠ .off → ((zoneVerdict s x c z).zone z).state ≠ .off) := by
  cases hcell : occupiedCell s x c z with
  | some i =>
    rw [zoneVerdict_of_cell s x c z hcell, verdictOccupied]
    refine ⟨?_, fun hon => occupiedBy_on s z hon _ _ _ _ _⟩
    obtain heq | heq := occupiedBy_zone_cases s z causeVerdict (evalPayload s x causeVerdict 0 i) x.stream x.tick (some x.epoch)
    · rw [heq]
    · rw [heq]
  | none =>
    rw [zoneVerdict_of_free s x c z hcell]
    split
    · obtain heq | heq := tryClear_zone_cases (verdictClear s x z) z
      · rw [heq, verdictClear_zone, if_pos rfl]
        exact ⟨rfl, id⟩
      · rw [heq, verdictClear_zone, if_pos rfl]
        exact ⟨rfl, fun _ => nofun⟩
    · exact ⟨rfl, id⟩

theorem zoneVerdict_core : (zoneVerdict s x c z).saf.core = s.saf.core := by
  cases hcell : occupiedCell s x c z with
  | some i => rw [zoneVerdict_of_cell s x c z hcell, verdictOccupied, occupiedBy_core]
  | none =>
    rw [zoneVerdict_of_free s x c z hcell]
    split
    · rw [tryClear_core, verdictClear, State.setZone_core]
    · rfl

end

/-- Which regions gave the codes agreed on. -/
def regionAgrees (x : Eval) (c : List Int) (g : Nat) : Bool :=
  (List.range 3).any fun m => ((x.outputs.getD m none).map fun o => regionOf o.1 == g && o.2 == some c).getD false

theorem agreed_none (s : State) (x : Eval) (c : List Int) : agreed s x c none
    = ((evalDecided s x stOK (regionAgrees x c)).zonesReading x.stream).foldl (fun a z => zoneVerdict a x c z)
      (evalDecided s x stOK (regionAgrees x c)) := rfl

section
variable {s t : State} (x : Eval) (c : List Int) (z : Nat)

theorem occupiedCell_congr (hrow : (t.zone z).row = (s.zone z).row) (hcfg : t.cfgOf x.epoch = s.cfgOf x.epoch) :
    occupiedCell t x c z = occupiedCell s x c z := by
  rw [occupiedCell, occupiedCell, State.cellsOf, State.cellsOf, hrow, hcfg]

theorem zoneVerdict_cfgOf (s : State) (m epoch : Nat) : (zoneVerdict s x c m).cfgOf epoch = s.cfgOf epoch :=
  State.cfgOf_of_erase (zoneVerdict_erase s x c m (Nat.and_self _)) rfl rfl rfl epoch

/-- The verdict of a list of zones occupies one that is on and whose cell the output finds occupied. -/
theorem zoneVerdicts_occupied {zs : List Nat} {i : Nat} (hmem : z ∈ zs) (hon : (s.zone z).state ≠ .off)
    (hcell : occupiedCell s x c z = some i) :
    ((zs.foldl (fun a z => zoneVerdict a x c z) s).zone z).state = .occupied
      ∧ ((zs.foldl (fun a z => zoneVerdict a x c z) s).zone z).cause = causeVerdict
      ∧ ((zs.foldl (fun a z => zoneVerdict a x c z) s).zone z).q = 0 := by
  refine foldl_reaches (Inv := fun t => (t.zone z).state ≠ .off ∧ occupiedCell t x c z = some i)
    (P := fun t => (t.zone z).state = .occupied ∧ (t.zone z).cause = causeVerdict ∧ (t.zone z).q = 0)
    (fun t m ht => ?_) (fun t ht => ?_) (fun t m hm hp => ?_) hmem ⟨hon, hcell⟩
  · obtain ⟨hton, htcell⟩ := ht
    by_cases heq : m = z
    · subst heq
      obtain ⟨hrow, hstays⟩ := zoneVerdict_zone t x c m
      exact ⟨hstays hton, (occupiedCell_congr x c m hrow (zoneVerdict_cfgOf x c t m _)).trans htcell⟩
    · have hzone := zoneVerdict_zone_ne t x c m (Ne.symm heq)
      exact ⟨by rwa [hzone], (occupiedCell_congr x c z (by rw [hzone]) (zoneVerdict_cfgOf x c t m _)).trans htcell⟩
  · obtain ⟨hton, htcell⟩ := ht
    rw [zoneVerdict_of_cell t x c z htcell, verdictOccupied, occupiedBy_zone hton, if_pos rfl]
    exact ⟨rfl, rfl, rfl⟩
  · rwa [zoneVerdict_zone_ne t x c m hm.symm]

/-- The verdict of a list of zones counts a good clear output once for each. -/
theorem zoneVerdicts_clear {zs : List Nat} (hnodup : zs.Nodup) (hmem : z ∈ zs) (hcell : occupiedCell s x c z = none) (hgood : x.good = true)
    (hage : x.age ≤ (s.zone z).ageNs) (hepoch : x.epoch = s.stl.epoch.toNat) (hsince : (s.zone z).since < x.arrival) :
    ((zs.foldl (fun a z => zoneVerdict a x c z) s).zone z).u = 0
      ∧ ((zs.foldl (fun a z => zoneVerdict a x c z) s).zone z).q = (s.zone z).q + 1 := by
  obtain ⟨t, hview, hresult⟩ := foldl_once (f := fun a z => zoneVerdict a x c z) (z := z)
    (fun t => (t.zone z, t.cfgOf x.epoch, t.stl.epoch)) (fun t m hm => by
      rw [zoneVerdict_zone_ne t x c m hm.symm, zoneVerdict_cfgOf, keeps_stl (zoneVerdict_erase t x c m (Nat.and_self _)) rfl]) hnodup hmem s
  simp only [Prod.mk.injEq] at hview hresult
  obtain ⟨hzone, hcfg, hstl⟩ := hview
  obtain ⟨hresult, -, -⟩ := hresult
  have htcell : occupiedCell t x c z = none := (occupiedCell_congr x c z (by rw [hzone]) hcfg).trans hcell
  have hcounts : verdictCounts t x z = true := by
    simp [verdictCounts, hzone, hsince, hstl, hepoch]
  rw [hresult, zoneVerdict_of_free t x c z htcell, if_pos (by simp [hgood, hzone, hage])]
  obtain heq | heq := tryClear_zone_cases (verdictClear t x z) z
  · rw [heq, verdictClear_zone, if_pos rfl, if_pos hcounts, hzone]
    exact ⟨rfl, rfl⟩
  · rw [heq, verdictClear_zone, if_pos rfl, if_pos hcounts, hzone]
    exact ⟨rfl, rfl⟩

end

theorem zoneVerdicts_core (x : Eval) (c : List Int) (zs : List Nat) (s : State) :
    (zs.foldl (fun a z => zoneVerdict a x c z) s).saf.core = s.saf.core :=
  foldl_keeps (fun t => t.saf.core) (fun t z => zoneVerdict_core t x c z) zs s

/-- Every zone of a list that is on is occupied by a cause. -/
theorem zonesOccupied_zone {s : State} {z : Nat} {zs : List Nat} (cause : Nat) (p : State → SafPl) (stream tick : Nat) (epoch : Option Nat)
    (hmem : z ∈ zs) (hon : (s.zone z).state ≠ .off) :
    ((zs.foldl (fun a z => occupiedBy a z cause (p a) stream tick epoch) s).zone z).state = .occupied
      ∧ ((zs.foldl (fun a z => occupiedBy a z cause (p a) stream tick epoch) s).zone z).cause = cause := by
  refine foldl_reaches (Inv := fun t => (t.zone z).state ≠ .off)
    (P := fun t => (t.zone z).state = .occupied ∧ (t.zone z).cause = cause)
    (fun t m ht => occupiedBy_on t m ht _ _ _ _ _) (fun t ht => ?_) (fun t m hm hp => ?_) hmem hon
  · rw [occupiedBy_zone ht, if_pos rfl]
    exact ⟨rfl, rfl⟩
  · rwa [occupiedBy_zone_ne t m hm.symm]

theorem zonesOccupied_core (cause : Nat) (p : State → SafPl) (stream tick : Nat) (epoch : Option Nat) (zs : List Nat) (s : State) :
    (zs.foldl (fun a z => occupiedBy a z cause (p a) stream tick epoch) s).saf.core = s.saf.core :=
  foldl_keeps (fun t => t.saf.core) (fun t z => occupiedBy_core t z _ _ _ _ _) zs s

@[simp] theorem evalRecords_saf (s : State) (type status : Nat) (x : Eval) (cause mapping cell : Nat) :
    (evalRecords s type status x cause mapping cell).saf = s.saf :=
  keeps_saf (evalRecords_erase s type status x cause mapping cell (Nat.and_self _)) rfl

/-- The evaluation without a majority, its outcome recorded. -/
def majorityLost (s : State) (x : Eval) (cause mapping cell : Nat) : State :=
  evalRecords (evalDecided s x stAUDIT fun _ => false) 0x0703 stAUDIT x cause mapping cell

theorem noMajority_eq (s : State) (x : Eval) (cause mapping cell : Nat) : noMajority s x cause mapping cell
    = ((majorityLost s x cause mapping cell).zonesReading x.stream).foldl (fun a z =>
      occupiedBy a z cause (evalPayload a x cause mapping cell) x.stream x.tick (some x.epoch)) (majorityLost s x cause mapping cell) := rfl

/-- The evaluation whose result is missing, recorded and counted. -/
def resultMissed (s : State) (x : Eval) : State :=
  let s1 := evalRecords (evalDecided s x stBUDGET fun _ => false) 0x0704 stBUDGET x causeMissing 0 0xFFFF
  { s1 with saf := { s1.saf with missed := s1.saf.missed + 1 } }

theorem missingResult_eq (s : State) (x : Eval) : missingResult s x
    = ((resultMissed s x).zonesReading x.stream).foldl (fun a z =>
      occupiedBy a z causeMissing (evalPayload a x causeMissing 0 0xFFFF) x.stream x.tick (some x.epoch)) (resultMissed s x) := rfl

section
variable {s : State} {x : Eval} {z : Nat} (hmem : z ∈ s.zonesReading x.stream) (hon : (s.zone z).state ≠ .off)
include hmem hon

theorem noMajority_zone (cause mapping cell : Nat) : ((noMajority s x cause mapping cell).zone z).state = .occupied
    ∧ ((noMajority s x cause mapping cell).zone z).cause = cause
    ∧ (noMajority s x cause mapping cell).saf.disagree = s.saf.disagree := by
  have hsaf : (majorityLost s x cause mapping cell).saf = { (setEval s { x with decided := true }).saf with status := stAUDIT } :=
    (evalRecords_saf _ _ _ _ _ _ _).trans (evalDecided_saf _ _ _ _)
  have hzones : (majorityLost s x cause mapping cell).saf.zones = s.saf.zones := by rw [hsaf]; rfl
  rw [noMajority_eq, zonesReading_of_zones hzones]
  obtain ⟨hstate, hcause⟩ := zonesOccupied_zone (s := majorityLost s x cause mapping cell) cause
    (fun a => evalPayload a x cause mapping cell) x.stream x.tick (some x.epoch) hmem (by rwa [zone_of_zones hzones])
  refine ⟨hstate, hcause, ?_⟩
  obtain ⟨-, -, -, -, hdisagree⟩ := Saf.of_core (zonesOccupied_core cause (fun a => evalPayload a x cause mapping cell) x.stream x.tick
    (some x.epoch) (s.zonesReading x.stream) (majorityLost s x cause mapping cell))
  exact hdisagree.trans (by rw [hsaf]; rfl)

theorem missingResult_zone : ((missingResult s x).zone z).state = .occupied ∧ ((missingResult s x).zone z).cause = causeMissing
    ∧ (missingResult s x).saf.missed = s.saf.missed + 1 := by
  have hsaf : (resultMissed s x).saf = { (setEval s { x with decided := true }).saf with
      status := stBUDGET, missed := s.saf.missed + 1 } := by
    unfold resultMissed
    extract_lets s1 _
    have hrecords : s1.saf = { (setEval s { x with decided := true }).saf with status := stBUDGET } :=
      (evalRecords_saf _ _ _ _ _ _ _).trans (evalDecided_saf _ _ _ _)
    change { s1.saf with missed := s1.saf.missed + 1 } = _
    rw [hrecords]
    rfl
  have hzones : (resultMissed s x).saf.zones = s.saf.zones := by rw [hsaf]; rfl
  rw [missingResult_eq, zonesReading_of_zones hzones]
  obtain ⟨hstate, hcause⟩ := zonesOccupied_zone (s := resultMissed s x) causeMissing
    (fun a => evalPayload a x causeMissing 0 0xFFFF) x.stream x.tick (some x.epoch) hmem (by rwa [zone_of_zones hzones])
  refine ⟨hstate, hcause, ?_⟩
  obtain ⟨-, -, hmissed, -, -⟩ := Saf.of_core (zonesOccupied_core causeMissing (fun a => evalPayload a x causeMissing 0 0xFFFF) x.stream x.tick
    (some x.epoch) (s.zonesReading x.stream) (resultMissed s x))
  exact hmissed.trans (by rw [hsaf])

end

section
variable {s : State} {n tick : Nat} (hgo : s.mayBegin = true)
include hgo

theorem exec_zoneDeadline_of_eval {x : Eval} (hfind : (s.saf.evals.find? fun x => x.stream == n && x.tick == tick && !x.decided) = some x) :
    exec (.zoneDeadline n tick) s = .next (missingResult (s.atStation x.deadline) x) := by
  change execZoneDeadline n tick s = _
  simp only [execZoneDeadline, hgo, hfind, Bool.not_true, Bool.false_eq_true, if_false, done]

/-- A picture of the zones' queue leaves it at its deadline. -/
def pictureLate (s : State) (n tick : Nat) (p : Picture) : State :=
  (s.atStation (unplaced p).deadline).modStream n fun t => { t with zoneQueue := t.zoneQueue.filter (·.tick != tick) }

theorem exec_zoneDeadline_of_picture {p : Picture}
    (hnone : (s.saf.evals.find? fun x => x.stream == n && x.tick == tick && !x.decided) = none)
    (hfind : ((s.stream n).zoneQueue.find? fun p => p.tick == tick) = some p) :
    exec (.zoneDeadline n tick) s = .next (missingResult (pictureLate s n tick p) (unplaced p)) := by
  change execZoneDeadline n tick s = _
  simp only [execZoneDeadline, hgo, hnone, hfind, Bool.not_true, Bool.false_eq_true, if_false, done]
  rfl

end

theorem outputTaken_erase (s : State) (o : ZoneOutput) (x : Eval) : (outputTaken s o x).erase 0x20000000 = s.erase 0x20000000 := by
  rw [outputTaken]
  split
  · rfl
  · rfl

section
variable {x : Eval} {o : ZoneOutput} {c d : List Int} {e0 : Nat}

/-- The codes of an evaluation once the second output has arrived. -/
theorem given_second_codes (hout : x.outputs = [some (e0, some c), none, none]) (hmap : o.mapping = 1) (hcodes : o.codes = some d) :
    (x.given o).codes 0 = some c ∧ (x.given o).codes 1 = some d ∧ (x.given o).codes 2 = none
      ∧ x.outputs.getD o.mapping none = none := by
  simp [Eval.codes, Eval.given, hout, hmap, hcodes]

/-- The codes of an evaluation once a first output has arrived. -/
theorem given_first_codes (hout : x.outputs = [none, none, none]) (hmap : o.mapping < 2) (hcodes : o.codes = some c) :
    (x.given o).codes o.mapping = some c ∧ (x.given o).codes (1 - o.mapping) = none ∧ (x.given o).codes 2 = none
      ∧ ((x.given o).failed 0 = false ∧ (x.given o).failed 1 = false) ∧ x.outputs.getD o.mapping none = none := by
  obtain h | h : o.mapping = 0 ∨ o.mapping = 1 := by omega
  · simp [Eval.codes, Eval.failed, Eval.given, hout, h, hcodes]
  · simp [Eval.codes, Eval.failed, Eval.given, hout, h, hcodes]

end

/-- An evaluation whose output was taken stands in the list with it. -/
theorem given_mem {s : State} {o : ZoneOutput} {x : Eval} (hfind : (s.saf.evals.find? fun x => x.matches s o) = some x) {c : List Int}
    (hcodes : o.codes = some c) : x.given o ∈ (outputTaken s o x).saf.evals := by
  rw [outputTaken_saf x hcodes]
  exact mem_setEval (List.mem_of_find?_eq_some hfind) rfl rfl

/-- The evaluation decided by two identical outputs, before the zones hear of it. -/
def outputAgreed (s : State) (o : ZoneOutput) (x : Eval) (c : List Int) : State :=
  evalDecided (outputTaken s o x) (x.given o) stOK (regionAgrees (x.given o) c)

section
variable (s : State) (o : ZoneOutput) (x : Eval) (c : List Int)

theorem outputAgreed_zones : (outputAgreed s o x c).saf.zones = s.saf.zones := (evalDecided_zones _ _ _ _).trans (outputTaken_zones x)

theorem outputAgreed_epoch : (outputAgreed s o x c).stl.epoch = s.stl.epoch :=
  (evalDecided_cfg _ _ _ _).2.2.trans (congrArg Stl.epoch (keeps_stl (outputTaken_erase s o x) rfl))

theorem outputAgreed_cfgOf (epoch : Nat) : (outputAgreed s o x c).cfgOf epoch = s.cfgOf epoch := by
  obtain ⟨hcfg, hold, -⟩ := evalDecided_cfg (outputTaken s o x) (x.given o) stOK (regionAgrees (x.given o) c)
  have hcfg' : (outputAgreed s o x c).cfg = s.cfg := hcfg.trans (keeps_cfg (outputTaken_erase s o x) rfl)
  have hold' : (outputAgreed s o x c).cfgOld = s.cfgOld := hold.trans (keeps_cfgOld (outputTaken_erase s o x) rfl)
  rw [State.cfgOf, State.cfgOf, hcfg', hold', outputAgreed_epoch]

variable {s o x c} {e0 : Nat} (hfind : (s.saf.evals.find? fun x => x.matches s o) = some x) (hopen : x.decided = false)
  (hdue : s.time.now < x.deadline) (hout : x.outputs = [some (e0, some c), none, none]) (hmap : o.mapping = 1) (hcodes : o.codes = some c)
include hfind hopen hdue hout hmap hcodes

/-- Two identical outputs decide the zones of their stream. -/
theorem zoneOutput_of_agreement : zoneOutput s o
    = (s.zonesReading x.stream).foldl (fun a z => zoneVerdict a (x.given o) c z) (outputAgreed s o x c) := by
  obtain ⟨h0, h1, h2, hfree⟩ := given_second_codes hout hmap hcodes
  rw [zoneOutput_of_match hfind hopen hdue hfree, countDiffer_of_equal h0 _ h1, compareOutputs_of_equal h0 h1 h2, agreed_none]
  change ((outputAgreed s o x c).zonesReading x.stream).foldl _ _ = _
  rw [zonesReading_of_zones (outputAgreed_zones s o x c)]
  rfl

theorem zoneOutput_of_agreement_counts :
    (zoneOutput s o).saf.evaluations = s.saf.evaluations + 1 ∧ (zoneOutput s o).saf.disagree = s.saf.disagree := by
  rw [zoneOutput_of_agreement hfind hopen hdue hout hmap hcodes]
  obtain ⟨-, -, -, hevaluations, hdisagree⟩ :=
    Saf.of_core (zoneVerdicts_core (x.given o) c (s.zonesReading x.stream) (outputAgreed s o x c))
  rw [hevaluations, hdisagree, outputAgreed, evalDecided_saf]
  exact outputTaken_counts x hcodes

end

/-- Settles O44: `zoneInputs_distrusted_core` and `placeEval_of_regions` for a tensor, the cases of `compareOutputs` for an output,
`zoneVerdicts_occupied`, `zoneVerdicts_clear` and `noMajority_zone` for what they decide, `missingResult_zone` for a deadline. -/
theorem zonesAreEvaluated : Obligations.ZonesAreEvaluated := by
  refine ⟨fun s n tick page l0 l1 z p hgo hfind hbad hmem => ?bad,
    fun s n tick page l g0 g1 g2 p hgo hfind hsound hmodel hregions => ?placed, fun s o hgo hfind => ?unmatched,
    fun s o x c hgo hfind hopen hdue hout hmap hcodes => ?first,
    fun s o x c e0 z i hgo hfind hopen hdue hout hmap hcodes hmem hon hcell => ?occupied,
    fun s o x c e0 z hgo hfind hopen hdue hout hmap hcodes hnodup hmem hcell hgood hage hepoch hsince => ?clear,
    fun s o x c d e0 l hgo hfind hopen hdue hout hmap hcodes hne hthird hidle => ?third,
    fun s o x c d e0 z hgo hfind hopen hdue hout hmap hcodes hne hthird hmem hon => ?two,
    fun s n tick z x hgo hfind hmem hon => ?missed, fun s n tick z p hgo hnone hfind hstream hmem hon => ?unplaced⟩
  case bad =>
    refine ⟨_, exec_zoneTensorComplete page l0 l1 hgo hfind, ?_⟩
    rw [zoneTensor_of_bad hbad]
    have herase := erase_foldl (fun t z => zoneInput_erase t z false none (Nat.and_self _)) (s.zonesReading p.stream) (tensorQueued s p)
    have hcore := zoneInputs_distrusted_core (s.zonesReading p.stream) (tensorQueued s p)
    obtain ⟨hq, hinput⟩ := foldl_reaches (f := fun a z => zoneInput a z false none) (Inv := fun _ => True)
      (P := fun t => (t.zone z).q = 0 ∧ (t.zone z).inputThisPeriod = true) (fun _ _ _ => trivial)
      (fun t _ => (zoneInput_distrusted_zone t z).2) (fun t m hm hp => by rwa [zoneInput_distrusted_zone_ne t m hm.symm]) hmem
      (s := tensorQueued s p) trivial
    rw [tensorQueued_saf] at hcore
    refine ⟨hq, hinput, congrArg Saf.untrusted hcore, congrArg (·.evals) hcore, ?_, fun hnodup => ?_, fun a => ?_⟩
    · rw [State.stream, keeps_streams herase rfl]
      exact congrArg StreamSt.zoneQueue (tensorQueued_stream s p)
    · obtain ⟨t, hview, hresult⟩ := foldl_once (f := fun a z => zoneInput a z false none) (z := z) (fun t => t.zone z)
        (fun t m hm => zoneInput_distrusted_zone_ne t m hm.symm) hnodup hmem (tensorQueued s p)
      rw [hresult, (zoneInput_distrusted_zone t z).1, hview, zone_of_saf (tensorQueued_saf s p)]
    · rw [State.byte_of_erase herase rfl, tensorQueued_byte]
  case placed =>
    have hcounted := tensorCounted_erase_all s p (4096 * page) l
    have hplaced : zoneTensor s p (4096 * page) l l = placeEval (tensorCounted s p (4096 * page) l) p (p.zoneWindow.getD 0)
        (!p.concealed && !p.substituted && !tensorRepeats s p l) (s.time.now - p.arrival) := by
      rw [zoneTensor_of_good hsound, if_neg]
      rw [State.cfgOf_of_erase hcounted rfl rfl rfl]
      simpa using hmodel
    obtain ⟨e, hmem, hstream, htick, hepoch, hdeadline, hdecided, houtputs⟩ := placeEval_of_regions
      (s := tensorCounted s p (4096 * page) l) (!p.concealed && !p.substituted && !tensorRepeats s p l) (s.time.now - p.arrival)
      (by rwa [State.ableRegions_of_erase hcounted rfl rfl])
    obtain ⟨hbyte, hstreams, hsat⟩ := placeEval_keeps (tensorCounted s p (4096 * page) l) p (p.zoneWindow.getD 0)
      (!p.concealed && !p.substituted && !tensorRepeats s p l) (s.time.now - p.arrival)
    refine ⟨_, e, exec_zoneTensorComplete page l l hgo hfind, ?_⟩
    rw [hplaced]
    refine ⟨hmem, hstream, htick, hepoch, hdeadline, hdecided, houtputs, ?_, ?_, fun i hi => ?_, fun a ha => ?_⟩
    · rw [hstreams, tensorCounted_stream, laneDigest]
    · rw [hsat, tensorCounted_preConvSat hsound]
    · rw [hbyte, tensorCounted_byte, State.store_byte_inside]
    · rw [hbyte, tensorCounted_byte, State.store_byte_outside _ _ _ _ _ ha, tensorQueued_byte]
  case unmatched =>
    rw [exec_zoneEvalOutput o hgo, zoneOutput_of_none hfind]
    exact ⟨_, rfl, rfl, rfl, rfl⟩
  case first =>
    obtain ⟨hgiven, hother, hthird, hsound, hfree⟩ := given_first_codes hout hmap hcodes
    have hcount : countDiffer (outputTaken s o x) (x.given o) o.mapping = outputTaken s o x := by
      obtain h | h : o.mapping = 0 ∨ o.mapping = 1 := by omega
      · exact countDiffer_of_second_missing (h ▸ hgiven) _ (by rwa [h] at hother)
      · exact countDiffer_of_first_missing _ (by rwa [h] at hother)
    refine ⟨_, x.given o, exec_zoneEvalOutput o hgo, ?_⟩
    rw [zoneOutput_of_match hfind hopen hdue hfree, hcount, compareOutputs_of_one o.mapping hmap hgiven hother hthird hsound]
    refine ⟨?_, outputTaken_zones x, given_mem hfind hcodes, ?_, hopen⟩
    · rw [outputTaken_saf x hcodes]
    · rw [Eval.given, hcodes]
  case occupied =>
    have hzone := zone_of_zones (outputAgreed_zones s o x c) z
    obtain ⟨hevaluations, hdisagree⟩ := zoneOutput_of_agreement_counts hfind hopen hdue hout hmap hcodes
    refine ⟨_, exec_zoneEvalOutput o hgo, hevaluations, hdisagree, ?_⟩
    rw [zoneOutput_of_agreement hfind hopen hdue hout hmap hcodes]
    refine zoneVerdicts_occupied (x.given o) c z hmem (by rwa [hzone]) (i := i) ?_
    exact (occupiedCell_congr (s := s) (x.given o) c z (by rw [hzone]) (outputAgreed_cfgOf s o x c _)).trans hcell
  case clear =>
    have hzone := zone_of_zones (outputAgreed_zones s o x c) z
    refine ⟨_, exec_zoneEvalOutput o hgo, ?_⟩
    rw [zoneOutput_of_agreement hfind hopen hdue hout hmap hcodes, ← hzone]
    rw [← hzone] at hage hsince
    refine zoneVerdicts_clear (x.given o) c z hnodup hmem ?_ hgood hage ?_ hsince
    · exact (occupiedCell_congr (s := s) (x.given o) c z (by rw [hzone]) (outputAgreed_cfgOf s o x c _)).trans hcell
    · rw [outputAgreed_epoch]
      exact hepoch
  case third =>
    obtain ⟨h0, h1, h2, hfree⟩ := given_second_codes hout hmap hcodes
    refine ⟨_, { x.given o with thirdStarted := true }, exec_zoneEvalOutput o hgo, ?_⟩
    rw [zoneOutput_of_match hfind hopen hdue hfree, countDiffer_of_different h0 h1 hne (by omega),
      compareOutputs_of_third h0 h1 hne h2 hthird hidle, startThird, evalRecords_saf]
    refine ⟨?_, mem_setEval (given_mem hfind hcodes) rfl rfl, rfl, hopen, outputTaken_zones x⟩
    exact congrArg (· + 1) (outputTaken_counts x hcodes).2
  case two =>
    obtain ⟨h0, h1, h2, hfree⟩ := given_second_codes hout hmap hcodes
    refine ⟨_, exec_zoneEvalOutput o hgo, ?_⟩
    rw [zoneOutput_of_match hfind hopen hdue hfree, countDiffer_of_different h0 h1 hne (by omega),
      compareOutputs_of_two h0 h1 hne h2 hthird]
    have hzones : (disagreeCounted (outputTaken s o x)).saf.zones = s.saf.zones := outputTaken_zones x
    obtain ⟨hstate, hcause, hdisagree⟩ := noMajority_zone (s := disagreeCounted (outputTaken s o x)) (x := x.given o) (z := z)
      (by rw [zonesReading_of_zones hzones]; exact hmem) (by rwa [zone_of_zones hzones]) causeTwoRegions
      (differing (x.given o)).1 (differing (x.given o)).2
    exact ⟨hdisagree.trans (congrArg (· + 1) (outputTaken_counts x hcodes).2), hstate, hcause⟩
  case missed =>
    have hn : x.stream = n := by
      have h := List.find?_some hfind
      simp only [Bool.and_eq_true, beq_iff_eq] at h
      exact h.1.1
    subst hn
    have hzones : (s.atStation x.deadline).saf.zones = s.saf.zones := by rw [State.atStation_saf]
    obtain ⟨hstate, hcause, hmissed⟩ := missingResult_zone (s := s.atStation x.deadline) (x := x) (z := z)
      (by rwa [zonesReading_of_zones hzones]) (by rwa [State.atStation_zone])
    rw [State.atStation_saf] at hmissed
    exact ⟨_, exec_zoneDeadline_of_eval hgo hfind, hmissed, hstate, hcause⟩
  case unplaced =>
    subst hstream
    have hsaf : (pictureLate s p.stream tick p).saf = s.saf := State.atStation_saf s _
    obtain ⟨hstate, hcause, hmissed⟩ := missingResult_zone (s := pictureLate s p.stream tick p) (x := unplaced p) (z := z)
      (by rw [zonesReading_of_zones (congrArg Saf.zones hsaf)]; exact hmem) (by rwa [zone_of_saf hsaf])
    rw [hsaf] at hmissed
    refine ⟨_, exec_zoneDeadline_of_picture hgo hnone hfind, hmissed, hstate, hcause, ?_⟩
    rw [State.stream, keeps_streams (missingResult_erase _ _ (Nat.and_self _)) rfl]
    refine congrArg StreamSt.zoneQueue ((State.modStream_get _ _ _ _).trans (if_pos rfl)) |>.trans ?_
    rw [State.atStation_stream]

end Sys2Proof.Machine

/-! The endpoint's rings (17 R511 to R513, R518, R520, R521): their controls, the delivery of journal records, and host accesses that
fail. -/

namespace Sys2Proof.Machine

/-! ## Little-endian numbers and cause bits -/

theorem leNat_leBytes (n v : Nat) : leNat (leBytes n v) = v % 2 ^ (8 * n) := by
  induction n generalizing v with
  | zero => rw [leBytes, leNat, Nat.mul_zero, Nat.pow_zero, Nat.mod_one]
  | succ n ih =>
    rw [leBytes, leNat, ih, BitVec.toNat_ofNat, Nat.mul_succ, Nat.pow_add, Nat.mul_comm (2 ^ (8 * n)), Nat.mod_mul]

@[simp] theorem State.raise_pci (s : State) (n : Nat) :
    (s.raise n).pci = { s.pci with intCause := s.pci.intCause ||| BitVec.ofNat 32 (2 ^ n) } := rfl

/-- A raised cause stands. -/
theorem raise_testBit (s : State) {n : Nat} (hn : n < 32) : (s.raise n).pci.intCause.toNat.testBit n = true := by
  rw [State.raise_pci, BitVec.toNat_or, Nat.testBit_or, BitVec.toNat_ofNat, Nat.testBit_mod_two_pow, Nat.testBit_two_pow_self]
  simp [hn]

@[simp] theorem State.raise_byte (s : State) (n a : Nat) : (s.raise n).byte a = s.byte a := rfl

/-! ## Host memory (17 R513, R514) -/

/-- What does not speak of the translation cache is the same after host pages are used. -/
theorem touchPages_keeps {β : Type} (v : Pci → β) (hv : ∀ p l, v { p with atc := l } = v p) (s : State) (h n : Nat) :
    v (touchPages s h n).pci = v s.pci := by
  unfold touchPages
  split
  · rfl
  · refine foldl_keeps (fun t => v t.pci) (fun t i => ?_) _ s
    unfold touchPage
    split
    · rfl
    · exact hv _ _

section
variable (s : State) (h : Nat) (bs : List Byte)

theorem State.hostStore_keeps {β : Type} (v : Pci → β) (hv : ∀ p l, v { p with atc := l } = v p) :
    v (s.hostStore h bs).pci = v s.pci := touchPages_keeps v hv s h bs.length

theorem State.hostStore_byte_inside {i : Nat} (hi : i < bs.length) : (s.hostStore h bs).byte (hostBase + h + i) = bs[i] :=
  memWrite_get_inside _ _ _ _ hi

theorem touchPages_byte (n a : Nat) : (touchPages s h n).byte a = s.byte a := State.byte_of_erase (touchPages_erase s h n (Nat.and_self _)) rfl a

/-- Host bytes just written are read back. -/
theorem State.hostStore_hostBytes : (s.hostStore h bs).hostBytes h bs.length = bs := by
  refine List.ext_getElem (by simp [State.hostBytes, State.bytes]) fun i hi _ => ?_
  simp only [State.hostBytes, State.bytes, List.getElem_map, List.getElem_range]
  exact s.hostStore_byte_inside h bs _

end

/-! ## Ring controls (17 R520, R521) -/

section
variable {s : State} (v : W32)

theorem clearAllMarks_pci (s : State) : (clearAllMarks s).pci = s.pci := keeps_pci (clearAllMarks_erase s (Nat.and_self _)) rfl

theorem clearAllMarks_stl (s : State) : (clearAllMarks s).stl = s.stl := keeps_stl (clearAllMarks_erase s (Nat.and_self _)) rfl

/-- The fetch interval that a write leaves: its own in range, else the field's. -/
def cmdIntervalOf (s : State) (v : W32) : Nat := if within (bitsOf v.toNat 0 16) 10 10000 then bitsOf v.toNat 0 16 else s.pci.cmdInterval

/-- A write of PCI_CMD_RING_CTRL that is counted as ignored in part. -/
def cmdCtrlIgnored (s : State) (v : W32) : Bool :=
  !within (bitsOf v.toNat 0 16) 10 10000 || (s.pci.cmdEnable && bitsOf v.toNat 20 5 != s.pci.cmdSize)

/-- What a write of PCI_CMD_RING_CTRL does to the ring. -/
def cmdCtrlTaken (s : State) (v : W32) : State :=
  if !v.toNat.testBit 31 then clearAllMarks { s with pci := { s.pci with
    cmdInterval := cmdIntervalOf s v, cmdEnable := false, cmdSize := if s.pci.cmdEnable then s.pci.cmdSize else bitsOf v.toNat 20 5 } }
  else if s.pci.cmdEnable then { s with pci := { s.pci with cmdInterval := cmdIntervalOf s v } }
  else if !within (bitsOf v.toNat 20 5) 6 16 then
    { s with pci := { s.pci with cmdInterval := cmdIntervalOf s v, cmdStatus := stRANGE, cmdSize := bitsOf v.toNat 20 5 } }
  else
    { s with pci := { s.pci with
      cmdInterval := cmdIntervalOf s v, cmdEnable := true, cmdSize := bitsOf v.toNat 20 5, cmdHead := 0, cmdPhase := true, cmdStatus := stOK
      bad := [], lastFetch := s.time.elapsed, fetchAgain := false } }

theorem exec_cmdRingCtrlWrite (hans : s.answers = true) : exec (.cmdRingCtrlWrite v) s
    = .next (if cmdCtrlIgnored s v = true then (cmdCtrlTaken s v).countIgnored else cmdCtrlTaken s v) := by
  change execCmdRingCtrlWrite v s = _
  rw [execCmdRingCtrlWrite, if_pos hans]
  rfl

theorem cmdCtrlTaken_interval : (cmdCtrlTaken s v).pci.cmdInterval = cmdIntervalOf s v := by
  unfold cmdCtrlTaken
  split
  · rw [clearAllMarks_pci]
  · split
    · rfl
    · split
      · rfl
      · rfl

theorem cmdCtrlTaken_stl : (cmdCtrlTaken s v).stl = s.stl := by
  unfold cmdCtrlTaken
  split
  · rw [clearAllMarks_stl]
  · split
    · rfl
    · split
      · rfl
      · rfl

theorem within_iff {n lo hi : Nat} : within n lo hi = true ↔ lo ≤ n ∧ n ≤ hi := by
  simp only [within, Bool.and_eq_true, decide_eq_true_eq]

/-- Counting an ignored write leaves the endpoint. -/
theorem countIgnored_ite_pci (b : Bool) (t : State) : (if b = true then t.countIgnored else t).pci = t.pci := by
  split
  · rfl
  · rfl

end

section
variable {s : State} (v : W32)

/-- The start code that a write of PCI_JRNL_RING_CTRL leaves. -/
def jrnStartOf (s : State) (v : W32) : Nat := if bitsOf v.toNat 29 2 = 3 then s.pci.jrnStart else bitsOf v.toNat 29 2

/-- A write of PCI_JRNL_RING_CTRL that is counted as ignored in part. -/
def jrnCtrlIgnored (s : State) (v : W32) : Bool := decide (bitsOf v.toNat 29 2 = 3)
  || (s.pci.jrnEnable && (bitsOf v.toNat 24 5 != s.pci.jrnSize || jrnStartOf s v != s.pci.jrnStart))

/-- What a write of PCI_JRNL_RING_CTRL does to the ring. -/
def jrnCtrlTaken (s : State) (v : W32) : State :=
  if !v.toNat.testBit 31 then
    { s with pci := { s.pci with
      jrnEnable := false, jrnSize := if s.pci.jrnEnable then s.pci.jrnSize else bitsOf v.toNat 24 5
      jrnStart := if s.pci.jrnEnable then s.pci.jrnStart else jrnStartOf s v } }
  else if s.pci.jrnEnable then s
  else if !within (bitsOf v.toNat 24 5) 8 24 then
    { s with pci := { s.pci with jrnStatus := stRANGE, jrnSize := bitsOf v.toNat 24 5, jrnStart := jrnStartOf s v } }
  else
    { s with
      pci := { s.pci with
        jrnEnable := true, jrnSize := bitsOf v.toNat 24 5, jrnStart := jrnStartOf s v, jrnStatus := stOK, produced := 0, consumed := 0
        jrnNext := deliveryStart s (jrnStartOf s v), sinceInt := 0, oldestInt := none }
      journal := { s.journal with lostFirst := 0, lostCount := 0 } }


theorem exec_jrnlRingCtrlWrite (hans : s.answers = true) : exec (.jrnlRingCtrlWrite v) s
    = .next (if jrnCtrlIgnored s v = true then (jrnCtrlTaken s v).countIgnored else jrnCtrlTaken s v) := by
  change execJrnlRingCtrlWrite v s = _
  rw [execJrnlRingCtrlWrite, if_pos hans, writeJrnCtrl]
  exact congrArg done (if_congr (by simp only [jrnCtrlIgnored, Bool.or_eq_true, decide_eq_true_eq]; exact Iff.rfl) rfl rfl)

end

/-! ## Delivery (17 R511, R512, R518) -/

/-- The slot of the journal ring that the produced count names. -/
def State.ringSlot (s : State) : Nat := s.pci.jrnBase.toNat + 128 * (s.pci.produced % 2 ^ s.pci.jrnSize)

section
variable (s : State) (bs : List Byte)

theorem deliverRecord_pci : (deliverRecord s bs).pci = { (s.hostStore s.ringSlot bs).pci with
    produced := (s.hostStore s.ringSlot bs).pci.produced + 1, sinceInt := (s.hostStore s.ringSlot bs).pci.sinceInt + 1
    oldestInt := some ((s.hostStore s.ringSlot bs).pci.oldestInt.getD (s.hostStore s.ringSlot bs).time.elapsed) } := by
  simp only [deliverRecord, State.ringSlot]

theorem deliverRecord_byte (a : Nat) : (deliverRecord s bs).byte a = (s.hostStore s.ringSlot bs).byte a := by
  simp only [deliverRecord, State.ringSlot, State.byte]

end

/-- What delivery leaves of the endpoint: the place and size of the journal ring. -/
def Pci.jrnRing (p : Pci) : W64 × W64 × Nat := (p.jrnBase, p.jrnState, p.jrnSize)

theorem Pci.jrnRing_delivered (p : Pci) (a b : Nat) (o : Option Nat) :
    { p with produced := a, sinceInt := b, oldestInt := o }.jrnRing = p.jrnRing := rfl

theorem State.raise_jrnRing (s : State) (n : Nat) : (s.raise n).pci.jrnRing = s.pci.jrnRing := rfl

theorem State.hostStore_jrnRing (s : State) (h : Nat) (bs : List Byte) : (s.hostStore h bs).pci.jrnRing = s.pci.jrnRing :=
  s.hostStore_keeps h bs Pci.jrnRing fun _ _ => rfl

/-- From `s` to `t` no byte outside the journal ring changes, and the ring stays where it is. -/
structure RingWritten (s t : State) : Prop where
  ring : t.pci.jrnRing = s.pci.jrnRing
  byte : ∀ a, a < hostBase + s.pci.jrnBase.toNat ∨ hostBase + s.pci.jrnBase.toNat + 128 * 2 ^ s.pci.jrnSize ≤ a → t.byte a = s.byte a

namespace RingWritten

variable {s t u : State}

theorem refl (s : State) : RingWritten s s := ⟨rfl, fun _ _ => rfl⟩

theorem place (h : RingWritten s t) : t.pci.jrnBase = s.pci.jrnBase ∧ t.pci.jrnState = s.pci.jrnState ∧ t.pci.jrnSize = s.pci.jrnSize := by
  simpa only [Pci.jrnRing, Prod.mk.injEq] using h.ring

theorem trans (h : RingWritten s t) (h' : RingWritten t u) : RingWritten s u := by
  obtain ⟨hbase, -, hsize⟩ := h.place
  exact ⟨h'.ring.trans h.ring, fun a ha => (h'.byte a (by rwa [hbase, hsize])).trans (h.byte a ha)⟩

theorem of_same (hring : t.pci.jrnRing = s.pci.jrnRing) (hbyte : ∀ a, t.byte a = s.byte a) : RingWritten s t := ⟨hring, fun a _ => hbyte a⟩

theorem deliverRecord (s : State) (r : Rec) : RingWritten s (deliverRecord s (recordBytes r)) := by
  refine ⟨?_, fun a ha => ?_⟩
  · rw [deliverRecord_pci, Pci.jrnRing_delivered, State.hostStore_jrnRing]
  · rw [deliverRecord_byte]
    refine State.hostStore_byte_outside s _ _ ?_
    have hslot : s.pci.produced % 2 ^ s.pci.jrnSize < 2 ^ s.pci.jrnSize := Nat.mod_lt _ (Nat.two_pow_pos _)
    rw [length_recordBytes, State.ringSlot]
    omega

theorem deliverGap (s : State) : RingWritten s (deliverGap s) := by
  unfold Machine.deliverGap
  split
  · exact .refl s
  · extract_lets r s1
    have hrecord : RingWritten s s1 := .deliverRecord s r
    clear_value s1
    exact hrecord.trans (.of_same rfl fun _ => rfl)

theorem deliverNext (s : State) : RingWritten s (deliverNext s) := by
  unfold Machine.deliverNext
  split
  · exact .deliverGap s
  next r _ =>
    split
    · exact .of_same rfl fun _ => rfl
    · extract_lets s1 s2
      have hgap : RingWritten s s1 := .deliverGap s
      have hrecord : RingWritten s s2 := hgap.trans (.deliverRecord s1 r)
      clear_value s2
      split
      · exact hgap
      · exact hrecord.trans (.of_same rfl fun _ => rfl)

theorem deliverBurst (k : Nat) (s : State) : RingWritten s (deliverBurst k s) := by
  induction k generalizing s with
  | zero => exact .refl s
  | succ k ih => exact (RingWritten.deliverNext s).trans (ih _)

theorem readConsumed (s : State) : RingWritten s (readConsumed s) := by
  refine .of_same ?_ fun a => State.byte_of_erase (readConsumed_erase s (Nat.and_self _)) rfl a
  unfold Machine.readConsumed
  split
  · rfl
  · extract_lets c s1
    have hpages : s1.pci.jrnRing = s.pci.jrnRing := touchPages_keeps Pci.jrnRing (fun _ _ => rfl) s _ _
    clear_value s1 c
    split
    · exact hpages
    · exact hpages

end RingWritten

theorem moderate_byte (s : State) (a : Nat) : (moderate s).byte a = s.byte a := by
  unfold moderate
  split
  · rfl
  · rfl

theorem moderate_produced (s : State) : (moderate s).pci.produced = s.pci.produced := by
  unfold moderate
  split
  · rfl
  · rfl

theorem moderate_jrnNext (s : State) : (moderate s).pci.jrnNext = s.pci.jrnNext := by
  unfold moderate
  split
  · rfl
  · rfl

/-- 17 R518: at the count the journal cause is set, and the count restarts. -/
theorem moderate_of_count {s : State} (h : s.pci.intCount ≤ s.pci.sinceInt) :
    (moderate s).pci.intCause &&& 1 = 1 ∧ (moderate s).pci.sinceInt = 0 := by
  rw [moderate, if_pos h]
  refine ⟨?_, rfl⟩
  rw [State.raise_pci]
  exact BitVec.eq_of_getLsbD_eq fun i hi => by simp +contextual

/-- A burst delivered on a ring whose counts have been read, and the produced count after it. -/
def burstDelivered (s : State) (count : Nat) : State :=
  if (deliverBurst count s).pci.produced = s.pci.produced then deliverBurst count s
  else moderate ((deliverBurst count s).hostStore (deliverBurst count s).pci.jrnState.toNat (leBytes 8 (deliverBurst count s).pci.produced))

/-- A ring that the host does not let the endpoint reach. -/
def ringLost (s : State) : State := ({ s with pci := { s.pci with jrnEnable := false, jrnStatus := stBOUND } }).raise 6

/-- Both areas of the journal ring can be reached. -/
def ringReachable (s : State) : Bool :=
  s.hostReachable s.pci.jrnBase.toNat (128 * 2 ^ s.pci.jrnSize) && s.hostReachable s.pci.jrnState.toNat 16

theorem exec_journalRingDeliver {s : State} (count : Nat) (hserved : s.jrnServed = true) : exec (.journalRingDeliver count) s
    = .next (if (!(readConsumed s).pci.jrnEnable) = true then readConsumed s
      else if (!ringReachable (readConsumed s)) = true then ringLost (readConsumed s)
      else burstDelivered (readConsumed s) count) := by
  change execJournalRingDeliver count s = _
  rw [execJournalRingDeliver, if_neg (by simp [hserved])]
  simp only [ringReachable, Bool.not_and]
  rfl

/-- A delivery writes the slots of the ring and the produced count alone. -/
theorem journalRingDeliver_byte {s : State} (k : Nat) (hserved : s.jrnServed = true) : ∃ t, exec (.journalRingDeliver k) s = .next t
    ∧ ∀ a, a < hostBase + s.pci.jrnBase.toNat ∨ hostBase + s.pci.jrnBase.toNat + 128 * 2 ^ s.pci.jrnSize ≤ a →
      a < hostBase + s.pci.jrnState.toNat ∨ hostBase + s.pci.jrnState.toNat + 8 ≤ a → t.byte a = s.byte a := by
  refine ⟨_, exec_journalRingDeliver k hserved, fun a hslots hcount => ?_⟩
  have hread : RingWritten s (readConsumed s) := .readConsumed s
  have hburst : RingWritten s (deliverBurst k (readConsumed s)) := hread.trans (.deliverBurst k _)
  split
  · exact hread.byte a hslots
  · split
    · exact hread.byte a hslots
    · unfold burstDelivered
      split
      · exact hburst.byte a hslots
      · obtain ⟨-, hstate, -⟩ := hburst.place
        rw [moderate_byte, State.hostStore_byte_outside _ _ _ (by rwa [hstate, length_leBytes])]
        exact hburst.byte a hslots

/-! ### One record -/

/-- The consumed count that the host shows. -/
def State.consumedShown (s : State) : Nat := leNat (s.hostBytes (s.pci.jrnState.toNat + 8) 8)

/-- The consumed count taken from the host. -/
def countsRead (s : State) (c : Nat) : State :=
  { touchPages s s.pci.jrnState.toNat 16 with pci := { (touchPages s s.pci.jrnState.toNat 16).pci with consumed := c } }

/-- A ring whose host shows a consumed count above the produced one. -/
def ringStopped (s : State) : State :=
  ({ touchPages s s.pci.jrnState.toNat 16 with
     pci := { (touchPages s s.pci.jrnState.toNat 16).pci with jrnEnable := false, jrnStatus := stRANGE } }).raise 6

section
variable {s : State} (hserved : s.jrnServed = true) (hstate : s.hostReachable s.pci.jrnState.toNat 16 = true)

theorem countsRead_keeps {β : Type} (v : Pci → β) (hv : ∀ p l c, v { p with atc := l, consumed := c } = v p) (c : Nat) :
    v (countsRead s c).pci = v s.pci :=
  (hv (touchPages s s.pci.jrnState.toNat 16).pci _ c).trans (touchPages_keeps v (fun p l => hv p l p.consumed) s _ _)

theorem countsRead_erase (c : Nat) : (countsRead s c).erase 0x80000000 = s.erase 0x80000000 :=
  touchPages_erase s s.pci.jrnState.toNat 16 (mk := 0x80000000) (Nat.and_self _)

include hserved hstate

theorem readConsumed_eq : readConsumed s = if s.pci.produced < s.consumedShown then ringStopped s else countsRead s s.consumedShown := by
  have hproduced : (touchPages s s.pci.jrnState.toNat 16).pci.produced = s.pci.produced :=
    touchPages_keeps Pci.produced (fun _ _ => rfl) s _ _
  rw [readConsumed, if_neg (by simp [hserved, hstate])]
  change (if (touchPages s s.pci.jrnState.toNat 16).pci.produced < s.consumedShown then ringStopped s else countsRead s s.consumedShown) = _
  rw [hproduced]

/-- 17 R512: a consumed count above the produced one stops the ring. -/
theorem journalRingDeliver_stopped (k : Nat) (hover : s.pci.produced < s.consumedShown) :
    exec (.journalRingDeliver k) s = .next (ringStopped s) := by
  have hread : readConsumed s = ringStopped s := by rw [readConsumed_eq hserved hstate, if_pos hover]
  rw [exec_journalRingDeliver k hserved, hread]
  rfl

omit hserved hstate

theorem countsRead_hostReachable (c h n : Nat) : (countsRead s c).hostReachable h n = s.hostReachable h n := by
  have hphase := State.phase_of_erase (countsRead_erase (s := s) c) rfl
  have hup : (countsRead s c).pci.up = s.pci.up := countsRead_keeps Pci.up (fun _ _ _ => rfl) c
  have hd3 : (countsRead s c).pci.d3hot = s.pci.d3hot := countsRead_keeps Pci.d3hot (fun _ _ _ => rfl) c
  simp only [State.hostReachable, State.pciServes, State.answers, hphase, hup, hd3]

theorem countsRead_recordVoid (c seq : Nat) : (countsRead s c).recordVoid seq = s.recordVoid seq := by
  have herase := countsRead_erase (s := s) c
  simp only [State.recordVoid, State.recordAddr, State.reserveSlots, keeps_layout herase rfl, keeps_cfg herase rfl]
  exact State.anyVoid_congr (keeps_voids herase rfl) _ _

end

/-- The record that is to be delivered next. -/
def State.deliverFrom (s : State) (seq : Nat) : State := { s with pci := { s.pci with jrnNext := seq } }

theorem State.deliverFrom_byte (s : State) (seq a : Nat) : (s.deliverFrom seq).byte a = s.byte a := rfl

theorem State.deliverFrom_pci (s : State) (seq : Nat) : (s.deliverFrom seq).pci = { s.pci with jrnNext := seq } := rfl

theorem deliverNext_of_record {s : State} {r : Rec} (hfind : (s.journal.held.find? fun r => decide (s.pci.jrnNext ≤ r.seq)) = some r)
    (hlost : s.journal.lostCount = 0) (hvoid : s.recordVoid r.seq = false) (hroom : s.ringRoom ≠ 0) :
    deliverNext s = (deliverRecord s (recordBytes r)).deliverFrom (r.seq + 1) := by
  have hgap : deliverGap s = s := if_pos (.inl hlost)
  simp only [deliverNext, hfind, hvoid, hgap, if_neg hroom, Bool.false_eq_true, if_false, State.deliverFrom]

theorem State.hostStore_pci (s : State) (h : Nat) (bs : List Byte) :
    ∃ l, (s.hostStore h bs).pci = { s.pci with atc := l } :=
  ⟨(s.hostStore h bs).pci.atc, congrArg (fun p => { p with atc := (s.hostStore h bs).pci.atc })
    (s.hostStore_keeps h bs (fun p => { p with atc := [] }) fun _ _ => rfl)⟩

theorem ringRoom_ne_zero {s : State} (h : s.pci.produced - s.pci.consumed < 2 ^ s.pci.jrnSize) : s.ringRoom ≠ 0 := by
  unfold State.ringRoom
  omega

/-- What one record and the produced count after it leave. -/
def recordServed (s : State) (r : Rec) : State :=
  ((deliverRecord s (recordBytes r)).deliverFrom (r.seq + 1)).hostStore s.pci.jrnState.toNat (leBytes 8 (s.pci.produced + 1))

section
variable (s : State) (r : Rec)

theorem recordServed_pci : ∃ l, (recordServed s r).pci = { s.pci with
    atc := l, produced := s.pci.produced + 1, jrnNext := r.seq + 1, sinceInt := s.pci.sinceInt + 1
    oldestInt := some (s.pci.oldestInt.getD (s.hostStore s.ringSlot (recordBytes r)).time.elapsed) } := by
  obtain ⟨l, hslot⟩ := s.hostStore_pci s.ringSlot (recordBytes r)
  obtain ⟨l', hcount⟩ := ((deliverRecord s (recordBytes r)).deliverFrom (r.seq + 1)).hostStore_pci s.pci.jrnState.toNat
    (leBytes 8 (s.pci.produced + 1))
  refine ⟨l', ?_⟩
  rw [recordServed, hcount, State.deliverFrom_pci, deliverRecord_pci, hslot]

/-- The slot keeps the record when the count lies elsewhere. -/
theorem recordServed_byte_slot (hapart : s.ringSlot + 128 ≤ s.pci.jrnState.toNat ∨ s.pci.jrnState.toNat + 8 ≤ s.ringSlot) (i : Nat)
    (hi : i < (recordBytes r).length) : (recordServed s r).byte (hostBase + s.ringSlot + i) = (recordBytes r)[i] := by
  have hlength := length_recordBytes r
  rw [recordServed, State.hostStore_byte_outside _ _ _ (by rw [length_leBytes]; omega), State.deliverFrom_byte, deliverRecord_byte,
    State.hostStore_byte_inside]

/-- The count that the host reads back. -/
theorem recordServed_count : leNat ((recordServed s r).hostBytes s.pci.jrnState.toNat 8) = (s.pci.produced + 1) % 2 ^ 64 := by
  have hread := ((deliverRecord s (recordBytes r)).deliverFrom (r.seq + 1)).hostStore_hostBytes s.pci.jrnState.toNat
    (leBytes 8 (s.pci.produced + 1))
  rw [length_leBytes] at hread
  rw [recordServed, hread, leNat_leBytes]

end

theorem burstDelivered_one {s : State} {r : Rec} (hfind : (s.journal.held.find? fun r => decide (s.pci.jrnNext ≤ r.seq)) = some r)
    (hlost : s.journal.lostCount = 0) (hvoid : s.recordVoid r.seq = false) (hroom : s.ringRoom ≠ 0) :
    burstDelivered s 1 = moderate (recordServed s r) := by
  have hburst : deliverBurst 1 s = (deliverRecord s (recordBytes r)).deliverFrom (r.seq + 1) :=
    deliverNext_of_record hfind hlost hvoid hroom
  obtain ⟨l, hslot⟩ := s.hostStore_pci s.ringSlot (recordBytes r)
  have hproduced : (deliverBurst 1 s).pci.produced = s.pci.produced + 1 := by
    rw [hburst, State.deliverFrom_pci, deliverRecord_pci, hslot]
  have hstate : (deliverBurst 1 s).pci.jrnState = s.pci.jrnState := by rw [hburst, State.deliverFrom_pci, deliverRecord_pci, hslot]
  rw [burstDelivered, if_neg (by omega), hproduced, hstate, hburst, recordServed]

/-- 17 R511: one record is written to its slot, and the produced count after it. -/
theorem exec_journalRingDeliver_one {s : State} {r : Rec} (hserved : s.jrnServed = true) (hlost : s.journal.lostCount = 0)
    (hfind : (s.journal.held.find? fun r => decide (s.pci.jrnNext ≤ r.seq)) = some r) (hvoid : s.recordVoid r.seq = false)
    (hbase : s.hostReachable s.pci.jrnBase.toNat (128 * 2 ^ s.pci.jrnSize) = true)
    (hstate : s.hostReachable s.pci.jrnState.toNat 16 = true) (hle : s.consumedShown ≤ s.pci.produced)
    (hroom : s.pci.produced - s.consumedShown < 2 ^ s.pci.jrnSize) :
    exec (.journalRingDeliver 1) s = .next (moderate (recordServed (countsRead s s.consumedShown) r)) := by
  have hread : readConsumed s = countsRead s s.consumedShown := by rw [readConsumed_eq hserved hstate, if_neg (by omega)]
  rw [exec_journalRingDeliver 1 hserved, hread]
  generalize s.consumedShown = c at *
  have henable : (countsRead s c).pci.jrnEnable = s.pci.jrnEnable := countsRead_keeps Pci.jrnEnable (fun _ _ _ => rfl) c
  have hring : (countsRead s c).pci.jrnRing = s.pci.jrnRing := countsRead_keeps Pci.jrnRing (fun _ _ _ => rfl) c
  have hproduced : (countsRead s c).pci.produced = s.pci.produced := countsRead_keeps Pci.produced (fun _ _ _ => rfl) c
  have hnext : (countsRead s c).pci.jrnNext = s.pci.jrnNext := countsRead_keeps Pci.jrnNext (fun _ _ _ => rfl) c
  have hjournal : (countsRead s c).journal = s.journal := keeps_journal (countsRead_erase c) rfl
  simp only [Pci.jrnRing, Prod.mk.injEq] at hring
  obtain ⟨hb, hs, hsize⟩ := hring
  have hon : s.pci.jrnEnable = true := by
    simp only [State.jrnServed, Bool.and_eq_true] at hserved
    exact hserved.1.2
  have hfree : (countsRead s c).ringRoom ≠ 0 := ringRoom_ne_zero (by rw [hproduced, hsize]; exact hroom)
  rw [henable, hon, if_neg (by simp), if_neg (by simp only [ringReachable, countsRead_hostReachable, hb, hs, hsize, hbase, hstate]; simp),
    burstDelivered_one (by rwa [hjournal, hnext]) (by rwa [hjournal]) (by rwa [countsRead_recordVoid]) hfree]

end Sys2Proof.Machine

/-! Host accesses that fail (17 R513), and the rings' controls and service together. -/

namespace Sys2Proof.Machine

/-! ## Entries completed (17 R508) -/

section
variable (s : State) (i : Nat) (irq : Bool) (status : Nat)

/-- The address of an entry's done byte. -/
def Pci.doneByte (p : Pci) (i : Nat) : Nat := hostBase + (p.entryAddr i + 4)

/-- An entry completed in the host's ring, its interrupt apart. -/
def entryDone : State :=
  { s.hostStore (s.pci.entryAddr i + 4) (leBytes 1 (0x80 + status)) with
    pci := { (s.hostStore (s.pci.entryAddr i + 4) (leBytes 1 (0x80 + status))).pci with
      entries := (s.hostStore (s.pci.entryAddr i + 4) (leBytes 1 (0x80 + status))).pci.entries + 1 } }

theorem completeEntry_eq : completeEntry s i irq status = if irq = true then (entryDone s i status).raise 1 else entryDone s i status := rfl

theorem entryDone_byte (a : Nat) : (entryDone s i status).byte a
    = (s.hostStore (s.pci.entryAddr i + 4) (leBytes 1 (0x80 + status))).byte a := rfl

theorem completeEntry_byte (a : Nat) : (completeEntry s i irq status).byte a
    = (s.hostStore (s.pci.entryAddr i + 4) (leBytes 1 (0x80 + status))).byte a := by
  rw [completeEntry_eq]
  split
  · rw [State.raise_byte, entryDone_byte]
  · rw [entryDone_byte]

theorem completeEntry_byte_done : (completeEntry s i irq status).byte (s.pci.doneByte i) = BitVec.ofNat 8 (0x80 + status) := by
  rw [completeEntry_byte]
  exact s.hostStore_byte_inside _ _ (i := 0) (by rw [length_leBytes]; omega)

theorem completeEntry_byte_other {a : Nat} (h : a ≠ s.pci.doneByte i) : (completeEntry s i irq status).byte a = s.byte a := by
  unfold Pci.doneByte at h
  rw [completeEntry_byte, State.hostStore_byte_outside _ _ _ (by rw [length_leBytes]; omega)]

/-- The endpoint after a completion. -/
theorem completeEntry_pci : ∃ l c, (completeEntry s i irq status).pci = { s.pci with atc := l, entries := s.pci.entries + 1, intCause := c } := by
  obtain ⟨l, hstore⟩ := s.hostStore_pci (s.pci.entryAddr i + 4) (leBytes 1 (0x80 + status))
  have hdone : (entryDone s i status).pci = { s.pci with atc := l, entries := s.pci.entries + 1 } := by
    rw [entryDone, hstore]
  rw [completeEntry_eq]
  split
  · refine ⟨l, s.pci.intCause ||| BitVec.ofNat 32 (2 ^ 1), ?_⟩
    rw [State.raise_pci, hdone]
  · refine ⟨l, s.pci.intCause, ?_⟩
    rw [hdone]

end

/-! ## A push that ends (04 R149, 17 R513) -/

/-- The push has left its stream, and its fetch the list. -/
def pushTaken (s : State) (n : Nat) (rest : List (Nat × Bool × Nat)) : State :=
  { s.modStream n fun t => { t with pushes := t.pushes.drop 1 } with pci := { s.pci with fetching := rest } }

section
variable (s : State) (n i : Nat) (irq : Bool) (rest : List (Nat × Bool × Nat)) (status : Nat)

theorem endPush_eq : endPush s n i irq rest status = completeEntry (pushTaken s n rest) i irq status := rfl

theorem pushTaken_stream : ((pushTaken s n rest).stream n).pushes = (s.stream n).pushes.drop 1 := by
  change ((s.modStream n fun t => { t with pushes := t.pushes.drop 1 }).stream n).pushes = _
  rw [State.modStream_get, if_pos rfl]

theorem pushTaken_pci : (pushTaken s n rest).pci = { s.pci with fetching := rest } := rfl

theorem pushTaken_byte (a : Nat) : (pushTaken s n rest).byte a = s.byte a := rfl

theorem endPush_pushes : ((endPush s n i irq rest status).stream n).pushes = (s.stream n).pushes.drop 1 := by
  rw [endPush_eq, State.stream, keeps_streams (completeEntry_erase _ i irq status (Nat.and_self _)) rfl]
  exact pushTaken_stream s n rest

theorem endPush_pci : (endPush s n i irq rest status).pci.fetching = rest ∧ (endPush s n i irq rest status).pci.timeouts = s.pci.timeouts := by
  obtain ⟨l, c, hpci⟩ := completeEntry_pci (pushTaken s n rest) i irq status
  rw [endPush_eq, hpci, pushTaken_pci]
  exact ⟨rfl, rfl⟩

theorem endPush_byte_done : (endPush s n i irq rest status).byte (s.pci.doneByte i) = BitVec.ofNat 8 (0x80 + status) :=
  completeEntry_byte_done (pushTaken s n rest) i irq status

theorem endPush_byte_other {a : Nat} (h : a ≠ s.pci.doneByte i) : (endPush s n i irq rest status).byte a = s.byte a :=
  completeEntry_byte_other (pushTaken s n rest) i irq status h

end

/-! ## Host reads that fail (17 R513) -/

theorem readFails_byte (s : State) (a : Nat) : (readFails s).byte a = s.byte a := rfl

theorem readFails_pci (s : State) : (readFails s).pci = { s.pci with timeouts := s.pci.timeouts + 1 } := rfl

theorem exec_hostReadFailure {s : State} (a : HostAccess) (hrun : s.running = true) :
    exec (.hostReadFailure a) s = .next (hostReadFailure s a) := by
  change execHostReadFailure a s = _
  rw [execHostReadFailure, if_pos hrun]
  rfl

/-- A host access that is counted as failed, or not when its data came poisoned. -/
def accessFailed (s : State) (poisoned : Bool) : State := if poisoned = true then s else readFails s

section
variable (s : State) (b : Bool)

theorem accessFailed_timeouts : (accessFailed s b).pci.timeouts = s.pci.timeouts + (if b = true then 0 else 1) := by
  cases b with
  | false => rfl
  | true => exact (BitVec.add_zero _).symm

theorem accessFailed_erase : (accessFailed s b).erase 0x80000000 = s.erase 0x80000000 := by
  cases b with
  | false => rfl
  | true => rfl

theorem accessFailed_entryAddr : (accessFailed s b).pci.entryAddr = s.pci.entryAddr := by
  cases b with
  | false => rfl
  | true => rfl

end

theorem hostReadFailure_ringFetch {s : State} (h : s.pci.cmdEnable = true) : (hostReadFailure s .ringFetch).pci.timeouts = s.pci.timeouts + 1
    ∧ (hostReadFailure s .ringFetch).pci.cmdHead = s.pci.cmdHead ∧ ∀ a, (hostReadFailure s .ringFetch).byte a = s.byte a := by
  have hpci : (fetchTime s).pci = s.pci := keeps_pci (fetchTime_erase s (Nat.and_self _)) rfl
  have hbyte := State.byte_of_erase (fetchTime_erase s (Nat.and_self _)) rfl
  rw [hostReadFailure, if_pos h]
  generalize fetchTime s = t at *
  refine ⟨?_, ?_, hbyte⟩
  · rw [readFails_pci, ← hpci]
  · rw [readFails_pci, ← hpci]

section
variable {s : State} {n i : Nat} {irq : Bool} {rest : List (Nat × Bool × Nat)} (b : Bool)
  (htake : takeFetching n s.pci.fetching = some ((i, irq), rest))
include htake

theorem hostReadFailure_pushPayload : hostReadFailure s (.pushPayload n b)
    = endPush (accessFailed s b) n i irq rest (if b = true then stVOID else stBOUND) := by
  rw [hostReadFailure, htake]
  rfl

end

/-! ## Transfers whose host data fails (08 R265, 17 R513) -/

/-- Pieces that lead to no register count no failed host access. -/
theorem dmaPiece_timeouts (s : State) {a : Nat} (bs : List Byte) (mark : Bool) (hmemory : placeOf a ≠ .register) :
    (dmaPiece s a bs mark).pci.timeouts = s.pci.timeouts := by
  have hstore (x : Nat) : (s.store x bs mark).pci.timeouts = s.pci.timeouts :=
    congrArg Pci.timeouts (keeps_pci (s.store_erase x bs mark (Nat.and_self _)) rfl)
  unfold dmaPiece
  split
  next => exact hstore a
  next => exact hstore a
  next =>
    split
    · rfl
    · exact hstore a
  next =>
    split
    next => exact hstore _
    next => rfl
  next hplace => exact absurd hplace hmemory
  next =>
    unfold dmaHost
    split
    · exact s.hostStore_keeps _ bs Pci.timeouts fun _ _ => rfl
    · rfl
  next => rfl

theorem dmaRow_timeouts (s : State) (host : HostData) (src : Nat) {dst n : Nat} (h : ∀ k < n, placeOf (dst + k) ≠ .register) :
    (dmaRow s host src dst n).pci.timeouts = s.pci.timeouts := by
  rw [dmaRow_eq]
  refine List.foldlRecOn (motive := fun t : State => t.pci.timeouts = s.pci.timeouts) _ _ rfl fun t ht pc hpc => ?_
  have hpiece := isPiece_of_mem hpc
  have hwithin := hpiece.within
  have hnonempty := hpiece.nonempty
  exact (dmaPiece_timeouts t _ _ (h pc.1 (by omega))).trans ht

theorem dmaRows_timeouts (host : HostData) (till : Nat) (c : DmaCmd) (k i : Nat) (s : State)
    (h : ∀ r, i ≤ r → r < i + k → ∀ m < c.len, placeOf (c.dstRow r + m) ≠ .register) :
    (dmaRows host till c k i s).1.pci.timeouts = s.pci.timeouts := by
  induction k generalizing i s with
  | zero => rfl
  | succ k ih =>
    unfold dmaRows
    extract_lets a b u
    split
    · rfl
    · split
      · rfl
      · rw [ih (i + 1) _ fun r hlo hhi => h r (by omega) (by omega), keeps_pci (chargeTo_erase _ till _ (Nat.and_self _)) rfl]
        exact dmaRow_timeouts s host a (h i le_rfl (by omega))

theorem contained_timeouts (s : State) (p : FltPl) (status : Nat) : (s.contained p status).pci.timeouts = s.pci.timeouts := rfl

theorem runDma_timeouts (s : State) (host : HostData) (p till : Nat) (c : DmaCmd) :
    (runDma s host p till c).pci.timeouts = (dmaRows host till c c.rows 0 s).1.pci.timeouts := by
  unfold runDma
  extract_lets r
  split
  · exact congrArg Pci.timeouts (keeps_pci (erase_foldl (fun t port => forwardGroup_erase s host p c t port (Nat.and_self _)) _ _) rfl)
  · exact contained_timeouts _ _ _

theorem nextDma_eq {s : State} {p : Nat} {d : Dma} {rest : List Dma} (host : HostData) (htake : takeDma (s.engine p).dmas = some (d, rest))
    (hready : waitsHandover s (parseDma d.cmd) = false) (hstop : s.flt.stopPhase ≠ 2) :
    nextDma s host p = settleHalt (runDma (transferTaken s p rest) host p d.till (parseDma d.cmd)) p := by
  simp only [nextDma, htake, hready, hstop, Bool.false_eq_true, or_self, if_false, transferTaken]

section
variable {s : State} (host : HostData) (p till : Nat) {c : DmaCmd} (rest : List Dma)
  (hmemory : ∀ i < c.rows, ∀ k < c.len, placeOf (c.dstRow i + k) ≠ .register)
include hmemory

/-- A transfer that leads to no register leaves the bytes its rows do not reach, and counts no failed access of its own. -/
theorem runDma_outside : ((settleHalt (runDma (transferTaken s p rest) host p till c) p).engine p).dmas = rest
    ∧ (settleHalt (runDma (transferTaken s p rest) host p till c) p).pci.timeouts = s.pci.timeouts
    ∧ ∀ a, (∀ i < c.rows, ∀ k < c.len, s.resolve (c.dstRow i + k) ≠ a) →
      (settleHalt (runDma (transferTaken s p rest) host p till c) p).byte a = s.byte a := by
  have hrows := dmaRows_misses host till c (J := fun a => ∀ i < c.rows, ∀ k < c.len, s.resolve (c.dstRow i + k) ≠ a) c.rows 0
    (s := transferTaken s p rest) fun i _ hi k hk => by
      rw [transferTaken_resolve]
      exact ⟨hmemory i (by omega) k hk, fun hmiss => hmiss i (by omega) k hk rfl⟩
  refine ⟨?_, ?_, fun a ha => ?_⟩
  · rw [settleHalt_keeps (v := Engine.dmas) (fun _ _ => rfl), runDma_dmas, State.engine, hrows.engines, ← State.engine, transferTaken,
      State.modEngine_get, if_pos rfl]
  · rw [keeps_pci (settleHalt_erase _ p (Nat.and_self _)) rfl, runDma_timeouts,
      dmaRows_timeouts host till c c.rows 0 _ fun i _ hi => hmemory i (by omega)]
    rfl
  · rw [settleHalt_byte, State.byte_of_erase (runDma_erase_of_rows _ _ _ _ _ (Nat.and_self _)) rfl]
    exact hrows.byte a ha

end

/-- 17 R513: a transfer whose host data fails runs to its end all the same. -/
theorem hostReadFailure_dmaRead {s : State} {p : Nat} {d : Dma} {rest : List Dma} (b : Bool) (hstop : s.flt.stopPhase ≠ 2)
    (hown : (s.engine p).handoverFrom = none) (htake : takeDma (s.engine p).dmas = some (d, rest))
    (hready : waitsHandover s (parseDma d.cmd) = false) : ∃ host, hostReadFailure s (.dmaRead p b)
      = settleHalt (runDma (transferTaken (accessFailed s b) p rest) host p d.till (parseDma d.cmd)) p := by
  have hgoes : hostReadFailure s (.dmaRead p b) = if b = true then nextDma s .poisoned p else nextDma (readFails s) .failed p :=
    if_neg (by simp [htake, hown])
  rw [hgoes]
  cases b with
  | true => exact ⟨.poisoned, nextDma_eq .poisoned htake hready hstop⟩
  | false => exact ⟨.failed, nextDma_eq (s := readFails s) .failed htake hready hstop⟩

/-! ## Moderation -/

/-- The journal cause is set, and the count and the timer of the moderation restart (17 R518). -/
def causeSet (s : State) : State := ({ s with pci := { s.pci with sinceInt := 0, oldestInt := none } }).raise 0

theorem causeSet_time (s : State) : (causeSet s).time = s.time := rfl

theorem exec_journalIntModeration {s : State} {h : Nat} (hans : s.answers = true) (hold : s.pci.oldestInt = some h) :
    exec .journalIntModeration s = .next (causeSet (s.atElapsed (h + 1000 * s.pci.intTimer))) := by
  change execJournalIntModeration s = _
  rw [execJournalIntModeration, hold]
  dsimp only
  rw [if_neg (by simp [hans])]
  rfl

/-! ## Together -/

/-- Settles O48: the controls by the states they leave, a delivery by `RingWritten` and by the one record it serves, and the host's
failures by the table of R513, where a transfer writes only what its rows reach. -/
theorem theRingsAreControlledAndServed : Obligations.TheRingsAreControlledAndServed := by
  unfold Obligations.TheRingsAreControlledAndServed
  refine ⟨fun s v hans hbad => ?interval,
    fun s v hans hlo hhi => ⟨fun hon hoff hsmall hlarge => ?enabled, fun hon hoff hbad => ?range, fun hoff => ?disabled,
      fun hon hen hsame => ?kept⟩,
    fun s v hans hon hen hsize hstart hcode => ?jrnKept,
    fun s v hans hcode => ⟨fun hon hoff hsmall hlarge => ?jrnEnabled, fun hon hoff hbad => ?jrnRange, fun hoff => ?jrnDisabled⟩,
    fun s k hserved => journalRingDeliver_byte k hserved,
    fun s r slot hserved hlost hfind hvoid hbase hstate hle hroom hslot hapart => ?one,
    fun s hserved hstate hover => ?stopped, fun s h hans hold => ?moderation,
    fun s hrun => ⟨fun hen => ?ringFetch, fun hen => ?journalState, fun hen => ?journalWrite, fun n i irq b rest htake => ?push,
      fun p b d rest c hstop hown htake hc hready hmemory => ?dma⟩⟩
  case interval =>
    have hout : within (bitsOf v.toNat 0 16) 10 10000 = false := by
      rw [Bool.eq_false_iff, Ne, within_iff]
      omega
    refine ⟨_, exec_cmdRingCtrlWrite v hans, ?_, ?_⟩
    · rw [countIgnored_ite_pci, cmdCtrlTaken_interval, cmdIntervalOf, if_neg (by simp [hout])]
    · rw [if_pos (by simp [cmdCtrlIgnored, hout])]
      change (cmdCtrlTaken s v).stl.ignoredWrites + 1 = _
      rw [cmdCtrlTaken_stl]
  case enabled =>
    have hin : within (bitsOf v.toNat 0 16) 10 10000 = true := within_iff.mpr ⟨hlo, hhi⟩
    have hsize : within (bitsOf v.toNat 20 5) 6 16 = true := within_iff.mpr ⟨hsmall, hlarge⟩
    refine ⟨_, exec_cmdRingCtrlWrite v hans, ?_⟩
    rw [countIgnored_ite_pci, cmdCtrlTaken, if_neg (by simp [hon]), if_neg (by simp [hoff]), if_neg (by simp [hsize])]
    exact ⟨rfl, rfl, if_pos hin, rfl, rfl, rfl⟩
  case range =>
    have hsize : within (bitsOf v.toNat 20 5) 6 16 = false := by
      rw [Bool.eq_false_iff, Ne, within_iff]
      omega
    refine ⟨_, exec_cmdRingCtrlWrite v hans, ?_⟩
    rw [countIgnored_ite_pci, cmdCtrlTaken, if_neg (by simp [hon]), if_neg (by simp [hoff]), if_pos (by simp [hsize])]
    exact ⟨hoff, rfl⟩
  case disabled =>
    have hin : within (bitsOf v.toNat 0 16) 10 10000 = true := within_iff.mpr ⟨hlo, hhi⟩
    refine ⟨_, exec_cmdRingCtrlWrite v hans, ?_⟩
    rw [countIgnored_ite_pci, cmdCtrlTaken, if_pos (by simp [hoff]), clearAllMarks_pci]
    exact ⟨rfl, rfl, if_pos hin⟩
  case kept =>
    have hin : within (bitsOf v.toNat 0 16) 10 10000 = true := within_iff.mpr ⟨hlo, hhi⟩
    rw [exec_cmdRingCtrlWrite v hans, if_neg (by simp [cmdCtrlIgnored, hin, hsame]), cmdCtrlTaken, if_neg (by simp [hon]), if_pos hen,
      cmdIntervalOf, if_pos hin]
  case jrnKept =>
    have hheld : s.pci.jrnStart ≠ 3 := hstart ▸ hcode
    rw [exec_jrnlRingCtrlWrite v hans, if_neg (by simp [jrnCtrlIgnored, jrnStartOf, hheld, hsize, hstart]), jrnCtrlTaken, if_neg (by simp [hon]),
      if_pos hen]
  case jrnEnabled =>
    have hsize : within (bitsOf v.toNat 24 5) 8 24 = true := within_iff.mpr ⟨hsmall, hlarge⟩
    have hstart : jrnStartOf s v = bitsOf v.toNat 29 2 := if_neg hcode
    refine ⟨_, exec_jrnlRingCtrlWrite v hans, ?_⟩
    rw [countIgnored_ite_pci, jrnCtrlTaken, if_neg (by simp [hon]), if_neg (by simp [hoff]), if_neg (by simp [hsize]), hstart]
    exact ⟨rfl, rfl, rfl, rfl, rfl, rfl, rfl⟩
  case jrnRange =>
    have hsize : within (bitsOf v.toNat 24 5) 8 24 = false := by
      rw [Bool.eq_false_iff, Ne, within_iff]
      omega
    refine ⟨_, exec_jrnlRingCtrlWrite v hans, ?_⟩
    rw [countIgnored_ite_pci, jrnCtrlTaken, if_neg (by simp [hon]), if_neg (by simp [hoff]), if_pos (by simp [hsize])]
    exact ⟨hoff, rfl⟩
  case jrnDisabled =>
    refine ⟨_, exec_jrnlRingCtrlWrite v hans, ?_⟩
    rw [countIgnored_ite_pci, jrnCtrlTaken, if_pos (by simp [hoff])]
    exact ⟨rfl, rfl⟩
  case one =>
    have hring := countsRead_keeps (s := s) Pci.jrnRing (fun _ _ _ => rfl) s.consumedShown
    simp only [Pci.jrnRing, Prod.mk.injEq] at hring
    obtain ⟨hb, hst, hsz⟩ := hring
    have hproduced := countsRead_keeps (s := s) Pci.produced (fun _ _ _ => rfl) s.consumedShown
    have hmoderation := countsRead_keeps (s := s) (fun p => (p.intCount, p.sinceInt)) (fun _ _ _ => rfl) s.consumedShown
    have hplace : (countsRead s s.consumedShown).ringSlot = slot := by rw [hslot, State.ringSlot, hb, hproduced, hsz]
    refine ⟨_, exec_journalRingDeliver_one hserved hlost hfind hvoid hbase hstate hle hroom, ?_⟩
    obtain ⟨hcount, hsince⟩ := Prod.mk.inj hmoderation
    generalize countsRead s s.consumedShown = u at *
    obtain ⟨l, hpci⟩ := recordServed_pci u r
    refine ⟨?_, ?_, fun i hi => ?_, ?_, fun hdue => moderate_of_count ?_⟩
    · rw [moderate_produced, hpci, ← hproduced]
    · rw [moderate_jrnNext, hpci]
    · rw [moderate_byte, ← hplace]
      exact recordServed_byte_slot u r (by rwa [hplace, hst]) i hi
    · rw [← hst, ← hproduced, ← recordServed_count u r]
      simp only [State.hostBytes, State.bytes, moderate_byte]
    · rw [hpci]
      simpa only [hcount, hsince] using hdue
  case stopped =>
    exact ⟨_, journalRingDeliver_stopped hserved hstate 1 hover, rfl, rfl, raise_testBit _ (by decide)⟩
  case moderation =>
    have hphase : s.phase ≠ .inReset := of_decide_eq_true hans
    refine ⟨_, exec_journalIntModeration hans hold, raise_testBit _ (by decide), rfl, rfl, ?_⟩
    rw [causeSet_time, State.atElapsed_elapsed hphase]
  case ringFetch => exact ⟨_, exec_hostReadFailure _ hrun, hostReadFailure_ringFetch hen⟩
  case journalState =>
    refine ⟨_, exec_hostReadFailure _ hrun, ?_⟩
    rw [hostReadFailure, if_pos hen]
    exact ⟨rfl, hen, readFails_byte s⟩
  case journalWrite =>
    refine ⟨_, exec_hostReadFailure _ hrun, ?_⟩
    rw [hostReadFailure, if_pos hen]
    exact ⟨rfl, rfl, raise_testBit _ (by decide), rfl, fun _ => rfl⟩
  case push =>
    refine ⟨_, exec_hostReadFailure _ hrun, ?_⟩
    rw [hostReadFailure_pushPayload b htake]
    generalize (if b = true then stVOID else stBOUND) = status
    obtain ⟨hfetching, htimeouts⟩ := endPush_pci (accessFailed s b) n i irq rest status
    have hdone := endPush_byte_done (accessFailed s b) n i irq rest status
    have hother := fun a => endPush_byte_other (accessFailed s b) n i irq rest status (a := a)
    rw [Pci.doneByte, accessFailed_entryAddr] at hdone
    simp only [Pci.doneByte, accessFailed_entryAddr] at hother
    have herase := accessFailed_erase s b
    refine ⟨(endPush_pushes _ _ _ _ _ _).trans ?_, hfetching, htimeouts.trans (accessFailed_timeouts s b), hdone, fun a ha =>
      (hother a ha).trans (State.byte_of_erase herase rfl a)⟩
    rw [State.stream, keeps_streams herase rfl, ← State.stream]
  case dma =>
    subst hc
    have herase := accessFailed_erase s b
    obtain ⟨host, hruns⟩ := hostReadFailure_dmaRead b hstop hown htake hready
    obtain ⟨hdmas, htimeouts, hbytes⟩ := runDma_outside (s := accessFailed s b) host p d.till rest hmemory
    refine ⟨_, exec_hostReadFailure _ hrun, ?_⟩
    rw [hruns]
    refine ⟨hdmas, htimeouts.trans (accessFailed_timeouts s b), fun a ha =>
      (hbytes a fun i hi k hk => ?_).trans (State.byte_of_erase herase rfl a)⟩
    rw [State.resolve_congr (s := s) fun q => by rw [State.engine_of_erase herase rfl]]
    exact ha i hi k hk

end Sys2Proof.Machine

/-! The command ring (17 R508 to R510, R513) and the pushes of bitstream data (04 R149). -/

namespace Sys2Proof.Machine

/-! ## What a fetch leaves (17 R509, R510) -/

/-- From `s` to `t` the start of the last fetch stands, and no byte below the host's memory changes. -/
structure FetchKept (s t : State) : Prop where
  fetched : t.pci.lastFetch = s.pci.lastFetch
  byte : ∀ a, a < hostBase → t.byte a = s.byte a

namespace FetchKept

variable {s t u : State}

theorem refl (s : State) : FetchKept s s := ⟨rfl, fun _ _ => rfl⟩

theorem trans (h : FetchKept s t) (h' : FetchKept t u) : FetchKept s u :=
  ⟨h'.fetched.trans h.fetched, fun a ha => (h'.byte a ha).trans (h.byte a ha)⟩

theorem of_pci (hpci : t.pci.lastFetch = s.pci.lastFetch) (hmem : t.mem = s.mem) : FetchKept s t :=
  ⟨hpci, fun a _ => byte_of_mem hmem a⟩

theorem of_erase {m : Nat} (h : t.erase m = s.erase m) (hpci : m.testBit 31 = false) (hmem : m.testBit 41 = false) : FetchKept s t :=
  .of_pci (congrArg Pci.lastFetch (keeps_pci h hpci)) (keeps_mem h hmem)

theorem completeEntry (s : State) (i : Nat) (irq : Bool) (status : Nat) : FetchKept s (completeEntry s i irq status) := by
  obtain ⟨l, c, hpci⟩ := completeEntry_pci s i irq status
  refine ⟨by rw [hpci], fun a ha => completeEntry_byte_other s i irq status ?_⟩
  unfold Pci.doneByte
  omega

theorem touchPages (s : State) (h n : Nat) : FetchKept s (touchPages s h n) :=
  .of_pci (touchPages_keeps Pci.lastFetch (fun _ _ => rfl) s h n) (keeps_mem (touchPages_erase s h n (Nat.and_self _)) rfl)

theorem timeouts (s : State) (n : W64) : FetchKept s { s with pci := { s.pci with timeouts := n } } := .of_pci rfl rfl

theorem bitstreamPush (s : State) (i : Nat) (irq : Bool) (p : List Byte) : FetchKept s (bitstreamPush s i irq p) := by
  unfold Machine.bitstreamPush
  split
  · split
    · exact (timeouts s _).trans (.completeEntry _ i irq _)
    · exact .completeEntry s i irq _
  · extract_lets n s1 s2
    have hpages : FetchKept s s1 := .touchPages s _ _
    have hstream : FetchKept s s2 := hpages.trans (.of_pci rfl rfl)
    clear_value s2
    exact hstream.trans (.of_pci rfl rfl)

theorem tensorEntry (s : State) (p : List Byte) : FetchKept s (tensorEntry s p).1 := by
  unfold Machine.tensorEntry
  extract_lets r
  split
  · exact timeouts s _
  · exact .of_erase (tensorPush_erase s _ _ _ _ (Nat.and_self _)) rfl rfl

theorem actOn (s : State) (i : Nat) (e : List Byte) : FetchKept s (actOn s i e) := by
  unfold Machine.actOn
  extract_lets irq kind p r1 r2 r3
  split
  · exact .completeEntry s i irq _
  · split
    · exact .bitstreamPush s i irq p
    · split
      · exact (FetchKept.tensorEntry s p).trans (.completeEntry _ i irq _)
      · split
        · have hevidence : FetchKept s r2.1 := .of_erase (takeEvidence_erase s _ (Nat.and_self _)) rfl rfl
          exact hevidence.trans (.completeEntry _ i irq _)
        · have hlabel : FetchKept s r3.1 := .of_erase (labelSample_erase s _ (Nat.and_self _)) rfl rfl
          exact hlabel.trans (.completeEntry _ i irq _)

theorem advanceHead (s : State) : FetchKept s (advanceHead s) := .of_pci rfl rfl

theorem takeEntries (es : List (List Byte)) (s : State) (k : Nat) : FetchKept s (takeEntries es s k).1 := by
  induction es generalizing s k with
  | nil => exact .refl s
  | cons e r ih =>
    unfold Machine.takeEntries
    extract_lets h bad _ s1
    have hcounted : FetchKept s s1 := .of_pci rfl rfl
    split
    · exact .refl s
    · split
      · exact ((FetchKept.actOn s h e).trans (.advanceHead _)).trans (ih _ _)
      · split
        · exact hcounted
        · exact ((hcounted.trans (.completeEntry s1 h _ _)).trans (.advanceHead _)).trans (ih _ _)

theorem fetchRing (s : State) : FetchKept s (fetchRing s) := by
  unfold Machine.fetchRing
  extract_lets idx s1 r
  split
  · have hpages : FetchKept s s1 :=
      List.foldlRecOn (motive := FetchKept s) idx _ (.refl s) fun t ht i _ => ht.trans (.touchPages t _ _)
    have hentries : FetchKept s r.1 := hpages.trans (.takeEntries _ s1 0)
    clear_value r
    exact hentries.trans (.of_pci rfl rfl)
  · exact .of_pci rfl rfl

theorem readConsumed (s : State) : FetchKept s (readConsumed s) := by
  refine .of_pci ?_ (keeps_mem (readConsumed_erase s (Nat.and_self _)) rfl)
  unfold Machine.readConsumed
  split
  · rfl
  · extract_lets c s1
    have hpages : s1.pci.lastFetch = s.pci.lastFetch := touchPages_keeps Pci.lastFetch (fun _ _ => rfl) s _ _
    clear_value s1 c
    split
    · exact hpages
    · exact hpages

end FetchKept

/-- A fetch begins: its moment is kept, and the host's consumed count is read (17 R510, R511). -/
def fetchBegun (s : State) : State :=
  readConsumed { fetchTime s with pci := { (fetchTime s).pci with lastFetch := (fetchTime s).time.elapsed, fetchAgain := false } }

theorem exec_commandRingFetch {s : State} (hserves : s.pciServes = true) :
    exec .commandRingFetch s = .next (if (fetchBegun s).ringFetched = true then fetchRing (fetchBegun s) else fetchBegun s) := by
  change execCommandRingFetch s = _
  rw [execCommandRingFetch, if_pos hserves]
  rfl

theorem fetchBegun_kept (s : State) :
    (fetchBegun s).pci.lastFetch = (fetchBegun s).time.elapsed ∧ ∀ a, a < hostBase → (fetchBegun s).byte a = s.byte a := by
  have hbyte := State.byte_of_erase (fetchTime_erase s (Nat.and_self _)) rfl
  unfold fetchBegun
  generalize fetchTime s = t at *
  have hread := FetchKept.readConsumed { t with pci := { t.pci with lastFetch := t.time.elapsed, fetchAgain := false } }
  refine ⟨hread.fetched.trans ?_, fun a ha => (hread.byte a ha).trans (hbyte a)⟩
  rw [keeps_time (readConsumed_erase _ (Nat.and_self _)) rfl]

theorem fetchRing_time (s : State) : (fetchRing s).time = s.time := keeps_time (fetchRing_erase s (Nat.and_self _)) rfl

/-! ## One entry (17 R508, R509) -/

section
variable {s : State} {e : List Byte} (r : List (List Byte)) (k : Nat) (hen : s.pci.cmdEnable = true)

theorem takeEntries_of_phase (hphase : (field e 1 1).testBit 0 ≠ s.pci.cmdPhase) : takeEntries (e :: r) s k = (s, k) := by
  rw [takeEntries]
  exact if_pos (by simp only [Bool.or_eq_true, bne_iff_ne]; exact .inl hphase)

include hen

theorem takeEntries_of_bad (hphase : (field e 1 1).testBit 0 = s.pci.cmdPhase) (hcrc : entryCrcOk e = false)
    (hfew : Table.get 0 s.pci.cmdHead s.pci.bad + 1 < 8) : takeEntries (e :: r) s k = ({ s with pci := { s.pci with
      bad := Table.set 0 s.pci.cmdHead (Table.get 0 s.pci.cmdHead s.pci.bad + 1) s.pci.bad } }, k) := by
  rw [takeEntries]
  simp only [hphase, hen, hcrc, hfew, bne_self_eq_false, Bool.not_true, Bool.or_self, Bool.false_eq_true, if_false, if_true]

theorem takeEntries_of_form (hphase : (field e 1 1).testBit 0 = s.pci.cmdPhase) (hcrc : entryCrcOk e = true) (hform : entryFormOk e = false) :
    takeEntries [e] s k = (advanceHead (completeEntry s s.pci.cmdHead ((field e 1 1).testBit 1) stRANGE), k + 1) := by
  rw [takeEntries]
  simp only [hphase, hen, hcrc, bne_self_eq_false, Bool.not_true, Bool.or_self, Bool.false_eq_true, if_false, if_true, takeEntries, actOn,
    hform, Bool.not_false]

end

theorem advanceHead_byte (s : State) (a : Nat) : (advanceHead s).byte a = s.byte a := rfl

theorem advanceHead_entries (s : State) : (advanceHead s).pci.entries = s.pci.entries := rfl

theorem advanceHead_head (s : State) : (advanceHead s).pci.cmdHead = (s.pci.cmdHead + 1) % s.pci.ringSize := rfl

/-! ## Pushes (04 R149) -/

/-- The pushes of a stream that wait for their bytes lie outside its buffer. -/
theorem ignoresBuffer_pushes : IgnoresBuffer StreamSt.pushes := fun _ _ _ _ _ => rfl

theorem storePre_pushes (s : State) (n : Nat) (u : AccessUnit) (j : Nat) : ((storePre s n u).stream j).pushes = (s.stream j).pushes := by
  unfold storePre
  extract_lets t c
  split
  extract_lets size
  split
  · exact State.setStream_keeps StreamSt.pushes (by rfl) j
  · exact State.setStream_keeps StreamSt.pushes (by rfl) j

theorem enterEs_pushes (s : State) (n : Nat) (u : AccessUnit) (j : Nat) : ((enterEs s n u).stream j).pushes = (s.stream j).pushes := by
  unfold enterEs
  extract_lets t cap fits row
  split
  · exact State.setStream_keeps StreamSt.pushes (by rfl) j
  · rw [storePre_pushes]
    exact State.setStream_keeps StreamSt.pushes (by rfl) j

theorem unwrap_pushes (bits : Nat) (p : Policies) (force : Bool) (t : StreamSt) (r a : Nat) :
    (unwrap bits p force t r a).2.1.pushes = t.pushes := by
  unfold unwrap
  split
  · rfl
  · extract_lets d e jump d1 tick t1
    change t1.pushes = _
    unfold t1
    split
    · rfl
    · rfl

theorem unwrapWide_pushes (t : StreamSt) (tick a : Nat) : (unwrapWide t tick a).pushes = t.pushes := by
  unfold unwrapWide
  split
  · rfl
  · rfl

/-- While no batch is pending an arriving unit changes its stream and the journal alone, and no push of it. -/
theorem arrivePush_kept {s : State} (n : Nat) (u : AccessUnit) (hbatch : s.stl.batch = none) :
    (arrivePush s n u).erase 0x1004001800 = s.erase 0x1004001800 ∧ ((arrivePush s n u).stream n).pushes = (s.stream n).pushes := by
  have hinstant (tick : Nat) (rap : Rap) : fixEventInstant s n tick rap = s := by rw [fixEventInstant, hbatch]
  unfold arrivePush
  extract_lets now data rap t tick0 s1 t1
  have hs1 : s1 = s := hinstant _ _
  clear_value s1
  subst hs1
  split
  next tick t2 jump hmatch =>
    have ht2 : t2.pushes = t1.pushes := by
      have hpart := congrArg (fun x => x.2.1.pushes) hmatch
      refine hpart.symm.trans ?_
      split
      · exact unwrapWide_pushes t1 _ _
      · exact unwrap_pushes _ _ _ t1 _ _
    clear hmatch
    extract_lets s2 s3
    have hs2 : (s2.stream n).pushes = (s1.stream n).pushes :=
      State.setStream_keeps StreamSt.pushes (s := s1) (n := n) (x := addOrigin t2 now tick) ht2 n
    have hs3 : s3.erase 0x1004001800 = s1.erase 0x1004001800 ∧ s3.streams = s2.streams := by
      unfold s3
      split
      · exact ⟨rfl, rfl⟩
      · exact ⟨rfl, rfl⟩
    clear_value s3
    obtain ⟨herase, hstreams⟩ := hs3
    refine ⟨(enterEs_erase s3 n _ (mk := 0x1004001800) rfl).trans herase, ?_⟩
    rw [enterEs_pushes, State.stream_congr hstreams]
    exact hs2

section
variable {s : State} {n i : Nat} {irq : Bool} {rest : List (Nat × Bool × Nat)} {u : AccessUnit} {us : List AccessUnit}
  (htake : takeFetching n s.pci.fetching = some ((i, irq), rest)) (hpushes : (s.stream n).pushes = u :: us)
include htake hpushes

theorem exec_pushPayloadComplete (hrun : s.running = true) : exec (.pushPayloadComplete n u.tick) s
    = .next (if ((s.cfg.stream n).active && (s.cfg.stream n).host && (s.stream n).receives) = true then
        dispatch (arrivePush (endPush s n i irq rest stOK) n u) else endPush s n i irq rest stSTATE) := by
  change execPushPayloadComplete n u.tick s = _
  rw [execPushPayloadComplete, if_pos (by simp [hrun, hpushes]), pushComplete, htake, hpushes]
  rfl

end

theorem endPush_entries (s : State) (n i : Nat) (irq : Bool) (rest : List (Nat × Bool × Nat)) (status : Nat) :
    (endPush s n i irq rest status).pci.entries = s.pci.entries + 1 := by
  obtain ⟨l, c, hpci⟩ := completeEntry_pci (pushTaken s n rest) i irq status
  rw [endPush_eq, hpci, pushTaken_pci]

theorem endPush_stl (s : State) (n i : Nat) (irq : Bool) (rest : List (Nat × Bool × Nat)) (status : Nat) :
    (endPush s n i irq rest status).stl = s.stl := keeps_stl (endPush_erase s n i irq rest status (Nat.and_self _)) rfl

/-- An arrival leaves the host's ring and what the endpoint counts as the completed entry left them. -/
theorem pushArrived_kept {s : State} (n : Nat) (u : AccessUnit) (hbatch : s.stl.batch = none) :
    ((dispatch (arrivePush s n u)).stream n).pushes = (s.stream n).pushes ∧ (dispatch (arrivePush s n u)).pci = s.pci
      ∧ ∀ a, (dispatch (arrivePush s n u)).byte a = s.byte a := by
  obtain ⟨herase, hpushes⟩ := arrivePush_kept n u hbatch
  have hdispatch := dispatch_erase (arrivePush s n u) (Nat.and_self _)
  exact ⟨(ignoresBuffer_pushes.dispatch _ n).trans hpushes, (keeps_pci hdispatch rfl).trans (keeps_pci herase rfl),
    fun a => (State.byte_of_erase hdispatch rfl a).trans (State.byte_of_erase herase rfl a)⟩

/-! ## Together -/

/-- Settles O28: a fetch by `FetchKept`, an entry by the three outcomes of `takeEntries`, and a push by the entry that completes, which
neither its arrival nor the dispatch changes. -/
theorem commandRingAndPushesAreServed : Obligations.CommandRingAndPushesAreServed := by
  unfold Obligations.CommandRingAndPushesAreServed
  refine ⟨⟨fun s hserves => ?fetch, fun s u hserves hu hfetched hunread => ?unread, fun s e r _ hphase => takeEntries_of_phase r 0 hphase,
    fun s e k hen hphase hcrc hform => ?form, fun s e r k hen hphase hcrc hfew => ?bad⟩,
    fun s n i irq rest u us st hrun htake hpushes hbatch hst => ?push⟩
  case fetch =>
    obtain ⟨hlast, hbyte⟩ := fetchBegun_kept s
    refine ⟨_, exec_commandRingFetch hserves, ?_⟩
    split
    · have hring := FetchKept.fetchRing (fetchBegun s)
      exact ⟨by rw [hring.fetched, fetchRing_time, hlast], fun a ha => (hring.byte a ha).trans (hbyte a ha)⟩
    · exact ⟨hlast, hbyte⟩
  case unread =>
    obtain rfl : u = fetchBegun s := hu
    refine ⟨_, exec_commandRingFetch hserves, ?_⟩
    rw [if_pos hfetched, fetchRing, if_neg (by simp [hunread])]
    exact ⟨rfl, rfl⟩
  case form =>
    rw [takeEntries_of_form k hen hphase hcrc hform]
    obtain ⟨l, c, hpci⟩ := completeEntry_pci s s.pci.cmdHead ((field e 1 1).testBit 1) stRANGE
    refine ⟨rfl, ?_, ?_, completeEntry_byte_done s _ _ _, fun a ha => completeEntry_byte_other s _ _ _ ha⟩
    · rw [advanceHead_entries, hpci]
    · rw [advanceHead_head, hpci]
      rfl
  case bad =>
    rw [takeEntries_of_bad r k hen hphase hcrc hfew]
    exact ⟨rfl, rfl, Table.get_set_self _ _ _ _⟩
  case push =>
    have hended := endPush_pushes s n i irq rest st
    rw [hpushes, List.drop_one, List.tail_cons] at hended
    have hentries := endPush_entries s n i irq rest st
    have hfetching := (endPush_pci s n i irq rest st).1
    have hdone := endPush_byte_done s n i irq rest st
    refine ⟨_, exec_pushPayloadComplete htake hpushes hrun, ?_⟩
    split at hst
    next hopen =>
      subst hst
      obtain ⟨hkept, hpci, hbyte⟩ := pushArrived_kept n u ((congrArg Stl.batch (endPush_stl s n i irq rest stOK)).trans hbatch)
      rw [if_pos hopen]
      exact ⟨hkept.trans hended, hpci ▸ hentries, hpci ▸ hfetching, (hbyte _).trans hdone,
        fun a ha => (hbyte a).trans (endPush_byte_other s n i irq rest stOK ha)⟩
    next hclosed =>
      subst hst
      rw [if_neg hclosed]
      exact ⟨hended, hentries, hfetching, hdone, fun a ha => endPush_byte_other s n i irq rest stSTATE ha⟩

end Sys2Proof.Machine

/-! What a fence, a rotation, a strike and a failing job add to the journal, and what a strike leaves of the audits' counts
(14 R421 to R426, 08 R275). -/

namespace Sys2Proof.Machine

/-! ## Records -/

namespace RecordsAdded

theorem startThird (s : State) (x : Eval) (mapping cell : Nat) : RecordsAdded s (startThird s x mapping cell) :=
  (RecordsAdded.of_journal (s := s) (t := setEval s { x with thirdStarted := true }) rfl).trans (.evalRecords _ _ _ _ _ _ _)

theorem missingEvals (s : State) (l : Nat) : RecordsAdded s (missingEvals s l) := by
  refine .foldl (fun t x => ?_) s.saf.evals s
  split
  · split
    · exact .startThird t x _ _
    · exact .of_journal rfl
  · exact .of_journal rfl

theorem checkAble (s : State) : RecordsAdded s (checkAble s) := by
  unfold Machine.checkAble
  split
  · exact .foldl (fun t z => .occupyZone t z _) _ s
  · exact .of_journal rfl

/-- A fence adds records and takes none away. -/
theorem fenceEngine (s : State) (p source : Nat) : RecordsAdded s (fenceEngine s p source) := by
  unfold Machine.fenceEngine
  extract_lets g e spare s1 s2 s3 s4
  have hleft : s1.journal = s.journal := by
    unfold s1
    clear_value spare
    cases spare with
    | none => rfl
    | some q => exact keeps_journal (beginHandover_erase s p q (Nat.and_self _)) rfl
  have hfenced : s3.journal = s.journal := by
    refine (keeps_journal (markDegraded_erase _ g (Nat.and_self _)) rfl).trans
      ((keeps_journal (dropAudits_erase s2 p (Nat.and_self _)) rfl).trans ?_)
    exact hleft
  have htold : RecordsAdded s s4 :=
    (RecordsAdded.of_journal hfenced).trans (((fenceEvent s3 _ _ _).trans (.missingEvals _ _)).trans (.checkAble _))
  exact (htold.trans (.of_journal (keeps_journal (writeUnitMap_erase s4 (Nat.and_self _)) rfl))).trans (.capacityChanged _ _)

theorem faultRecord (s : State) (type cls source p second third strikes status : Nat) :
    RecordsAdded s (s.faultRecord type cls source p second third strikes status) := .emit s _

theorem rotate (s : State) (p q : Nat) : RecordsAdded s (rotate s p q) := by
  unfold Machine.rotate
  extract_lets s1 s2
  have hleft : s2.journal = s.journal := keeps_journal (beginHandover_erase s p q (Nat.and_self _)) rfl
  exact ((RecordsAdded.of_journal hleft).trans (.faultRecord s2 _ _ _ _ _ _ _ _)).trans
    (.of_journal (keeps_journal (writeUnitMap_erase _ (Nat.and_self _)) rfl))

theorem rotateIfDue (s : State) (p : Nat) : RecordsAdded s (rotateIfDue s p) := by
  unfold Machine.rotateIfDue
  split
  · exact .of_journal rfl
  · split
    · exact .of_journal rfl
    · extract_lets s1 e
      have htaken : RecordsAdded s s1 := .of_journal rfl
      split
      · exact htaken.trans (.rotate s1 p _)
      · exact htaken

theorem fenceIfDue (s : State) (p : Nat) : RecordsAdded s (fenceIfDue s p) := by
  unfold Machine.fenceIfDue
  extract_lets e
  split
  · exact .fenceEngine s p _
  · exact .rotateIfDue s p

theorem strike (s : State) (p source job tile : Nat) : RecordsAdded s (strike s p source job tile) := by
  unfold Machine.strike
  extract_lets e held s1 s2
  split
  · exact .of_journal rfl
  · have htold : RecordsAdded s s2 := (RecordsAdded.of_journal (s := s) (t := s1) rfl).trans (.emit s1 _)
    exact htold.trans (.fenceIfDue s2 p)

theorem restartStream (s : State) (n : Nat) : RecordsAdded s (restartStream s n) := by
  unfold Machine.restartStream
  extract_lets t copy tick since t1 s1 r
  exact (RecordsAdded.of_journal (s := s) (t := s1) rfl).trans (.emit s1 _)

theorem restartJob (s : State) (reason : Nat) : RecordsAdded s (restartJob s reason) := by
  unfold Machine.restartJob
  split
  · exact .of_journal rfl
  · extract_lets own from_ size back steps _ s1
    exact (RecordsAdded.of_journal (s := s) (t := s1) rfl).trans (.emit s1 _)

theorem removeMember (s : State) (g a n status tile : Nat) : RecordsAdded s (removeMember s g a n status tile) := by
  unfold Machine.removeMember
  extract_lets r
  split
  · exact .of_journal rfl
  · extract_lets left s1 list rec_ s2
    have htold : RecordsAdded s s2 := (RecordsAdded.of_journal (s := s) (t := s1) rfl).trans (.emit s1 _)
    exact (htold.trans (.foldl (fun t x => .emit t x) list s2)).trans (.restartStream _ n)

/-- A job that fails adds records and takes none away. -/
theorem jobFail (s : State) (p : Nat) (t : TileIssue) (slot status reason tile : Nat) :
    RecordsAdded s (jobFail s p t slot status reason tile) := by
  unfold Machine.jobFail
  split
  · exact .of_journal rfl
  · split
    · exact .restartJob s reason
    · split
      · exact .restartStream s t.stream
      · exact (RecordsAdded.foldl (fun a (m : Member) => .removeMember a _ _ m.stream _ _) _ s).trans
          (.of_journal (keeps_journal (endSlicesWithout_erase _ _ _ (Nat.and_self _)) rfl))

end RecordsAdded

/-! ## Counts of audits (14 R421) -/

/-- What the fault manager counts of audits, their corrections included. -/
def Flt.auditCounts (f : Flt) : BitVec 48 × W64 × W64 := (f.auditsRun, f.disagree, f.corrected)

theorem fenceEngine_auditCounts (s : State) (p source : Nat) : (fenceEngine s p source).flt.auditCounts = s.flt.auditCounts := by
  unfold fenceEngine
  extract_lets g e spare s1 s2 s3 s4
  have hleft : s1.flt = s.flt := by
    unfold s1
    clear_value spare
    cases spare with
    | none => rfl
    | some q => exact State.flt_of_erase (beginHandover_erase s p q (Nat.and_self _)) rfl
  have hdropped : (dropAudits s2 p).flt.auditCounts = s2.flt.auditCounts := rfl
  have hmarked : s3.flt = (dropAudits s2 p).flt := State.flt_of_erase (markDegraded_erase _ g (Nat.and_self _)) rfl
  have hevent (x : FltPl) : (s3.fenceEvent x stOK).flt.auditCounts = s3.flt.auditCounts := rfl
  have htold : s4.flt.auditCounts = s3.flt.auditCounts :=
    (congrArg Flt.auditCounts ((State.flt_of_erase (checkAble_erase _ (Nat.and_self _)) rfl).trans
      (State.flt_of_erase (missingEvals_erase _ _ (Nat.and_self _)) rfl))).trans (hevent _)
  rw [State.flt_of_erase (capacityChanged_erase _ _ (Nat.and_self _)) rfl, State.flt_of_erase (writeUnitMap_erase _ (Nat.and_self _)) rfl,
    htold, hmarked, hdropped]
  exact congrArg Flt.auditCounts hleft

theorem strike_auditCounts (s : State) (p source job tile : Nat) : (strike s p source job tile).flt.auditCounts = s.flt.auditCounts := by
  unfold strike
  extract_lets e held s1 s2
  split
  · rfl
  · have hstruck : s2.flt.auditCounts = s.flt.auditCounts := rfl
    refine Eq.trans ?_ hstruck
    unfold fenceIfDue
    extract_lets e'
    split
    · exact fenceEngine_auditCounts s2 p _
    · rw [State.flt_of_erase (rotateIfDue_erase s2 p (Nat.and_self _)) rfl]

/-! ## A strike that fences no engine (14 R424) -/

/-- The strikes that an engine holds after one more. -/
def strikesAfter (s : State) (p : Nat) : List Nat := heldStrikes s (s.engine p).strikes ++ [s.time.elapsed]

/-- An engine struck once more, with its record. -/
def engineStruck (s : State) (p source job tile : Nat) : State :=
  (s.modEngine p fun x => { x with strikes := strikesAfter s p }).emit
    (s.record 0x0604 ucFLT (.flt { cls := 1, source := source, unit := p, strikes := (strikesAfter s p).length, job := job, tile := tile }))

theorem engineStruck_engine (s : State) (p source job tile q : Nat) : (engineStruck s p source job tile).engine q
    = if q = p then { s.engine p with strikes := strikesAfter s p } else s.engine q :=
  State.modEngine_get s p (fun x => { x with strikes := strikesAfter s p }) q

theorem strike_of_few {s : State} {p : Nat} (source job tile : Nat) (hstate : (s.engine p).state ≤ 1)
    (hfence : (s.engine p).fencePending = false) (hrotate : (s.engine p).rotateTo = none)
    (hfew : (heldStrikes s (s.engine p).strikes).length < 2) : strike s p source job tile = engineStruck s p source job tile := by
  have hlength : (strikesAfter s p).length < 3 := by
    rw [strikesAfter, List.length_append, List.length_singleton]
    omega
  have hstruck : (s.modEngine p fun x => { x with
      strikes := strikesAfter s p, fencePending := x.fencePending || decide (3 ≤ (strikesAfter s p).length) })
      = s.modEngine p fun x => { x with strikes := strikesAfter s p } := by
    have hpending : ((s.engine p).fencePending || decide (3 ≤ (strikesAfter s p).length)) = (s.engine p).fencePending := by
      simp only [decide_eq_false (Nat.not_le.mpr hlength), Bool.or_false]
    exact congrArg (fun b => s.setEngine p { s.engine p with strikes := strikesAfter s p, fencePending := b }) hpending
  unfold strike
  extract_lets e held s1 s2
  have hs2 : s2 = engineStruck s p source job tile := by
    have hs1 : s1 = s.modEngine p fun x => { x with strikes := strikesAfter s p } := hstruck
    unfold s2
    rw [hs1]
    rfl
  rw [if_neg (show ¬1 < (s.engine p).state by omega), hs2, fenceIfDue_of_none]
  · rw [engineStruck_engine, if_pos rfl]
    exact hfence
  · rw [engineStruck_engine, if_pos rfl]
    exact hrotate

end Sys2Proof.Machine

/-! Audits settled (14 R420, R421, R423, R424). -/

namespace Sys2Proof.Machine

/-! ## A run is charged (03 R121, R123) -/

/-- What of an engine decides a strike: its state, what is due for it and the strikes it holds. -/
def Engine.strikeState (e : Engine) : Nat × Bool × Option Nat × List Nat := (e.state, e.fencePending, e.rotateTo, e.strikes)

section
variable (s : State) (p : Nat) (a : Audit)

theorem chargeAudit_engine_keeps {β : Type} (v : Engine → β) (hv : ∀ e n, v { e with idleSince := n } = v e) (q : Nat) :
    v ((chargeAudit s p a).engine q) = v (s.engine q) :=
  (State.modEngine_keeps v (chargeDev s 1 p a.completion.cycles) (fun e => hv e _) q).trans rfl

theorem chargeAudit_engine_other {q : Nat} (h : q ≠ p) : (chargeAudit s p a).engine q = s.engine q := by
  rw [chargeAudit, State.modEngine_get, if_neg h]
  rfl

theorem chargeAudit_erase_whole : (chargeAudit s p a).erase 0x2000040000 = s.erase 0x2000040000 := chargeAudit_erase s p a (Nat.and_self _)

theorem chargeAudit_region (g : Nat) : (chargeAudit s p a).region g = s.region g := State.region_of_erase (chargeAudit_erase_whole s p a) rfl g

theorem chargeAudit_flt : (chargeAudit s p a).flt = s.flt := State.flt_of_erase (chargeAudit_erase_whole s p a) rfl

theorem auditVoid_flt (s : State) (g : Nat) (a : Audit) :
    (auditVoid s g a).flt = { s.flt with auditsDropped := s.flt.auditsDropped + 1 } := rfl

theorem auditVoid_engine (s : State) (g : Nat) (a : Audit) (q : Nat) : (auditVoid s g a).engine q = s.engine q := rfl

theorem dropAudit_flt (s : State) (g : Nat) (a : Audit) : (dropAudit s g a).flt = s.flt := rfl

theorem dropAudit_audits (g : Nat) : ((dropAudit s g a).region g).audits = (s.region g).audits.filter (· != a) := by
  rw [dropAudit, State.modRegion_get, if_pos rfl]

/-- Which engine comes next in service is a matter of the engines' places alone. -/
theorem nextInService_congr {s t : State} (h : ∀ q, (t.engine q).seat = (s.engine q).seat) (l : Nat) (avoid : List Nat) :
    nextInService t l avoid = nextInService s l avoid := by
  simp only [nextInService, State.physOf_congr h]

/-! ## The commands (14 R421, R423) -/

/-- An audit copy run to its end, counted. -/
def auditCounted : State := { chargeAudit s p a with flt := { (chargeAudit s p a).flt with auditsRun := (chargeAudit s p a).flt.auditsRun + 1 } }

/-- A copy that differs, counted. -/
def auditDiffers : State := ({ auditCounted s p a with flt := { (auditCounted s p a).flt with
  disagree := (auditCounted s p a).flt.disagree + 1 } }).corrected srcAudit a.engine

theorem chargeAudit_journal : (chargeAudit s p a).journal = s.journal := keeps_journal (chargeAudit_erase_whole s p a) rfl

theorem auditCounted_journal : (auditCounted s p a).journal = s.journal := chargeAudit_journal s p a

theorem auditCounted_flt : (auditCounted s p a).flt = { s.flt with auditsRun := s.flt.auditsRun + 1 } :=
  congrArg (fun f : Flt => { f with auditsRun := f.auditsRun + 1 }) (chargeAudit_flt s p a)

theorem auditCounted_region (g : Nat) : (auditCounted s p a).region g = s.region g := chargeAudit_region s p a g

theorem auditDiffers_journal : (auditDiffers s p a).journal = s.journal :=
  (keeps_journal (m := 0x10000000) (State.corrected_erase _ _ _ _ rfl) rfl).trans (auditCounted_journal s p a)

theorem auditDiffers_erase : (auditDiffers s p a).erase 0x10000000 = (chargeAudit s p a).erase 0x10000000 :=
  State.corrected_erase _ _ _ _ rfl

theorem auditDiffers_seat (q : Nat) : ((auditDiffers s p a).engine q).seat = (s.engine q).seat := by
  rw [State.engine_of_erase (auditDiffers_erase s p a) rfl]
  exact chargeAudit_engine_keeps s p a Engine.seat (fun _ _ => rfl) q

theorem auditDiffers_region (g : Nat) : (auditDiffers s p a).region g = s.region g :=
  (State.region_of_erase (auditDiffers_erase s p a) rfl g).trans (chargeAudit_region s p a g)

theorem auditDiffers_flt : (auditDiffers s p a).flt.auditCounts = (s.flt.auditsRun + 1, s.flt.disagree + 1, s.flt.corrected + 1) := by
  have hcounts : (auditDiffers s p a).flt.auditCounts = ((chargeAudit s p a).flt.auditsRun + 1, (chargeAudit s p a).flt.disagree + 1,
    (chargeAudit s p a).flt.corrected + 1) := rfl
  rw [hcounts, chargeAudit_flt]

theorem auditDiffers_next (avoid : List Nat) :
    nextInService (auditDiffers s p a) ((auditDiffers s p a).engine p).logical avoid = nextInService s (s.engine p).logical avoid := by
  have hlogical : ((auditDiffers s p a).engine p).logical = (s.engine p).logical := congrArg Prod.snd (auditDiffers_seat s p a p)
  rw [nextInService_congr (auditDiffers_seat s p a), hlogical]

/-- The audit waits for a third engine. -/
def auditThird (q addr : Nat) : State := (auditDiffers s p a).modRegion (regionOf p) fun r => { r with
  audits := ((auditDiffers s p a).region (regionOf p)).audits.map fun b => if b = a then { b with third := some q, addr := addr } else b }

theorem auditThird_journal (q addr : Nat) : (auditThird s p a q addr).journal = s.journal := auditDiffers_journal s p a

theorem auditThird_flt (q addr : Nat) : (auditThird s p a q addr).flt = (auditDiffers s p a).flt := rfl

theorem auditThird_audits (q addr : Nat) : ((auditThird s p a q addr).region (regionOf p)).audits
    = (s.region (regionOf p)).audits.map fun b => if b = a then { b with third := some q, addr := addr } else b := by
  rw [auditThird, State.modRegion_get, if_pos rfl, auditDiffers_region]

end

section
variable {s : State} {p addr : Nat} {a : Audit} (hready : auditReady s p = true)
include hready

theorem exec_auditCopy_of_void (differs : Bool) (haudit : auditOf s p false = some a) :
    exec (.auditCopy p differs true addr) s = .next (auditVoid (chargeAudit s p a) (regionOf p) a) := by
  change execAuditCopy p differs true addr s = _
  simp only [execAuditCopy, haudit, hready, Bool.not_true, Bool.false_eq_true, if_false, Bool.true_or, if_true, done]

theorem exec_auditCopy_of_same (haudit : auditOf s p false = some a) (hsound : auditMeetsVoid s a = false) :
    exec (.auditCopy p false false addr) s = .next (dropAudit (auditCounted s p a) (regionOf p) a) := by
  change execAuditCopy p false false addr s = _
  simp only [execAuditCopy, haudit, hready, hsound, Bool.not_true, Bool.not_false, Bool.false_eq_true, if_false, Bool.or_self, if_true, done,
    auditCounted]

/-- A copy that differs waits for a third engine. -/
theorem exec_auditCopy_of_third {q : Nat} (haudit : auditOf s p false = some a) (hsound : auditMeetsVoid s a = false)
    (hnext : nextInService s (s.engine p).logical [a.engine, p] = some q) :
    exec (.auditCopy p true false addr) s = .next (auditThird s p a q addr) := by
  rw [← auditDiffers_next s p a] at hnext
  unfold auditDiffers auditCounted at hnext
  change execAuditCopy p true false addr s = _
  simp only [execAuditCopy, haudit, hready, hsound, Bool.not_true, Bool.false_eq_true, if_false, Bool.or_self, hnext, done]
  rfl

/-- Without a third engine it is settled against both. -/
theorem exec_auditCopy_of_alone (haudit : auditOf s p false = some a) (hsound : auditMeetsVoid s a = false)
    (hnext : nextInService s (s.engine p).logical [a.engine, p] = none) :
    exec (.auditCopy p true false addr) s = .next (auditVerdict (auditDiffers s p a) a 0xFF addr true true) := by
  rw [← auditDiffers_next s p a] at hnext
  unfold auditDiffers auditCounted at hnext
  change execAuditCopy p true false addr s = _
  simp only [execAuditCopy, haudit, hready, hsound, Bool.not_true, Bool.false_eq_true, if_false, Bool.or_self, hnext, done]
  rfl

theorem exec_auditThirdRun_of_void (b c : Bool) {v : Bool} (haudit : auditOf s p true = some a) (hvoid : v = true ∨ auditMeetsVoid s a = true) :
    exec (.auditThirdRun p b c v) s = .next (auditVoid (chargeAudit s p a) (regionOf p) a) := by
  change execAuditThirdRun p b c v s = _
  have hmeets : (v || auditMeetsVoid s a) = true := by rwa [Bool.or_eq_true]
  simp only [execAuditThirdRun, haudit, hready, hmeets, Bool.not_true, Bool.false_eq_true, if_false, if_true, done]

theorem exec_auditThirdRun_of_original (c : Bool) (haudit : auditOf s p true = some a) (hsound : auditMeetsVoid s a = false) :
    exec (.auditThirdRun p true c false) s = .next (auditVerdict (chargeAudit s p a) a p a.addr false true) := by
  change execAuditThirdRun p true c false s = _
  simp only [execAuditThirdRun, haudit, hready, hsound, Bool.not_true, Bool.false_eq_true, if_false, if_true, Bool.or_self, done]

theorem exec_auditThirdRun_of_auditor (haudit : auditOf s p true = some a) (hsound : auditMeetsVoid s a = false) :
    exec (.auditThirdRun p false true false) s = .next (auditVerdict (chargeAudit s p a) a p a.addr true false) := by
  change execAuditThirdRun p false true false s = _
  simp only [execAuditThirdRun, haudit, hready, hsound, Bool.not_true, Bool.false_eq_true, if_false, Bool.or_self, done]

end

/-! ## The verdict (14 R423) -/

section
variable (s : State) (a : Audit) (third addr : Nat)

/-- The audit leaves its region, with its record. -/
def verdictTold : State := auditRecord (dropAudit s (regionOf a.engine) a) a third addr

theorem verdictTold_record : ∃ x ∈ (verdictTold s a third addr).journal.waiting, x.type = 0x0603 :=
  ⟨_, State.mem_emit_waiting.mpr (.inl rfl), rfl⟩

theorem verdictTold_engine (q : Nat) : (verdictTold s a third addr).engine q = s.engine q := rfl

theorem verdictTold_flt : (verdictTold s a third addr).flt = s.flt := rfl

theorem verdictTold_time : (verdictTold s a third addr).time = s.time := rfl

theorem verdictTold_voids : (verdictTold s a third addr).voids = s.voids := rfl

/-- What the audited tile wrote is void, and its batch's members die of it. -/
def verdictAgainst : State := failAudited (voidAudited (verdictTold s a third addr) a) a

theorem failAudited_recordsAdded (t : State) : RecordsAdded t (failAudited t a) := by
  unfold failAudited
  extract_lets c
  split
  · exact .jobFail t _ _ _ _ _ _
  · exact .of_journal rfl

theorem verdictAgainst_recordsAdded : RecordsAdded (verdictTold s a third addr) (verdictAgainst s a third addr) :=
  (RecordsAdded.of_journal (keeps_journal (voidAudited_erase _ a (Nat.and_self _)) rfl)).trans (failAudited_recordsAdded a _)

theorem verdictAgainst_flt : (verdictAgainst s a third addr).flt = s.flt :=
  (State.flt_of_erase (failAudited_erase _ a (Nat.and_self _)) rfl).trans
    ((State.flt_of_erase (voidAudited_erase _ a (Nat.and_self _)) rfl).trans (verdictTold_flt s a third addr))

theorem verdictAgainst_time : (verdictAgainst s a third addr).time = s.time :=
  (State.time_of_erase (failAudited_erase _ a (Nat.and_self _)) rfl).trans
    ((State.time_of_erase (voidAudited_erase _ a (Nat.and_self _)) rfl).trans (verdictTold_time s a third addr))

theorem verdictAgainst_engine_keeps {β : Type} {v : Engine → β} (hv : IgnoresSlice v) (q : Nat) :
    v ((verdictAgainst s a third addr).engine q) = v (s.engine q) := by
  have hvoid : (voidAudited (verdictTold s a third addr) a).engine q = s.engine q :=
    State.engine_of_erase (voidAudited_erase _ a (Nat.and_self _)) rfl q
  rw [← hvoid, verdictAgainst]
  unfold failAudited
  extract_lets c
  split
  · exact hv.jobFail _ q _ _ _ _ _ _
  · rfl

theorem verdictAgainst_engine_of_alone (hbatch : a.issue.inBatch = false) (q : Nat) :
    (verdictAgainst s a third addr).engine q = s.engine q := by
  rw [verdictAgainst, failAudited, if_neg (by simp [hbatch])]
  exact State.engine_of_erase (voidAudited_erase _ a (Nat.and_self _)) rfl q

/-- The verdict against both engines. -/
theorem auditVerdict_both : auditVerdict s a third addr true true
    = strike (strike (verdictAgainst s a third addr) a.engine srcAudit a.completion.job a.completion.tile) a.auditor srcAudit
        a.completion.job a.completion.tile := rfl

theorem auditVerdict_audited : auditVerdict s a third addr true false
    = strike (verdictAgainst s a third addr) a.engine srcAudit a.completion.job a.completion.tile := rfl

theorem auditVerdict_auditor : auditVerdict s a third addr false true
    = strike (verdictTold s a third addr) a.auditor srcAudit a.completion.job a.completion.tile := rfl

end

/-- What decides a strike is the same before and after the charge of a run. -/
theorem strikeState_of_charged {s t : State} {p q : Nat} {a : Audit} (h : (t.engine q).strikeState = ((chargeAudit s p a).engine q).strikeState) :
    (t.engine q).strikeState = (s.engine q).strikeState :=
  h.trans (chargeAudit_engine_keeps s p a Engine.strikeState (fun _ _ => rfl) q)

/-- A strike that leaves its engine in service: what `s` shows of the engine and the time decides it. -/
theorem strike_of_same {s t : State} {q : Nat} (source job tile : Nat) (hsame : (t.engine q).strikeState = (s.engine q).strikeState)
    (htime : t.time = s.time) (hstate : (s.engine q).state ≤ 1) (hfence : (s.engine q).fencePending = false)
    (hrotate : (s.engine q).rotateTo = none) (hfew : (heldStrikes s (s.engine q).strikes).length < 2) :
    strike t q source job tile = engineStruck t q source job tile
      ∧ ((engineStruck t q source job tile).engine q).strikes = heldStrikes s (s.engine q).strikes ++ [s.time.elapsed] := by
  simp only [Engine.strikeState, Prod.mk.injEq] at hsame
  obtain ⟨hst, hfe, hro, hstrikes⟩ := hsame
  have hheld : heldStrikes t (t.engine q).strikes = heldStrikes s (s.engine q).strikes := by rw [heldStrikes, heldStrikes, htime, hstrikes]
  refine ⟨strike_of_few source job tile (hst ▸ hstate) (hfe ▸ hfence) (hro ▸ hrotate) (hheld ▸ hfew), ?_⟩
  rw [engineStruck_engine, if_pos rfl]
  exact (congrArg (· ++ [t.time.elapsed]) hheld).trans (by rw [htime])

theorem engineStruck_voids (s : State) (p source job tile : Nat) : (engineStruck s p source job tile).voids = s.voids := rfl

theorem engineStruck_recordsAdded (s : State) (p source job tile : Nat) : RecordsAdded s (engineStruck s p source job tile) :=
  .emit_after s (u := s.modEngine p fun x => { x with strikes := strikesAfter s p }) rfl _

/-! ## Seeds and old strikes (14 R420, R424) -/

/-- A region draws from a new seed. -/
def seedSet (s : State) (g seed : Nat) : State :=
  s.modRegion g fun r => { r with seed := seed % 2 ^ 256, draws := 0, seedAt := s.time.elapsed }

/-- The assays wait for a new reference. -/
def referenceDropped (s : State) : State := { s with flt := { s.flt with reference := none, candidates := [] } }

theorem referenceDropped_region (s : State) (g : Nat) : (referenceDropped s).region g = s.region g := rfl

/-- The seed of a region replaced in its hour; one that another region has already leaves the reference of the assays. -/
def seedReplaced (s : State) (g seed : Nat) : State :=
  if ((List.range 4).any fun r => r != g && (s.region r).seed == seed % 2 ^ 256) = true then seedSet (s.atElapsed (seedDue s g)) g seed
  else referenceDropped (seedSet (s.atElapsed (seedDue s g)) g seed)

/-- The record of a seed replaced. -/
def seedRecord (s : State) (g : Nat) : Rec := { s.record 0x060B ucFLT (.flt { unit := g }) with inst := g }

theorem exec_auditSeedReplace {s : State} {g : Nat} (seed : Nat) (hrun : s.running = true) (hg : g < 4) :
    exec (.auditSeedReplace g seed) s = .next ((seedReplaced s g seed).emit (seedRecord (seedReplaced s g seed) g)) := by
  change execAuditSeedReplace g seed s = _
  rw [execAuditSeedReplace, if_pos (by simp [hrun, hg])]
  rfl

theorem seedSet_region (s : State) (g seed : Nat) : ((seedSet s g seed).region g).seed = seed % 2 ^ 256
    ∧ ((seedSet s g seed).region g).draws = 0 := by
  rw [seedSet, State.modRegion_get, if_pos rfl]
  exact ⟨rfl, rfl⟩

theorem seedReplaced_region (s : State) (g seed : Nat) : ((seedReplaced s g seed).region g).seed = seed % 2 ^ 256
    ∧ ((seedReplaced s g seed).region g).draws = 0 := by
  unfold seedReplaced
  split
  · exact seedSet_region _ g seed
  · rw [referenceDropped_region]
    exact seedSet_region _ g seed

theorem seedReplaced_time (s : State) (g seed : Nat) : (seedReplaced s g seed).time = (s.atElapsed (seedDue s g)).time := by
  unfold seedReplaced
  generalize s.atElapsed (seedDue s g) = u
  split
  · rfl
  · rfl

theorem seedReplaced_journal (s : State) (g seed : Nat) : (seedReplaced s g seed).journal = s.journal := by
  have hjournal := s.atElapsed_journal (seedDue s g)
  unfold seedReplaced
  generalize s.atElapsed (seedDue s g) = u at *
  split
  · exact hjournal
  · exact hjournal

theorem exec_strikeExpiry {s : State} {p h : Nat} {r : List Nat} (hans : s.answers = true) (hheld : (s.engine p).strikes = h :: r) :
    exec (.strikeExpiry p) s = .next ((s.atElapsed (h + day)).modEngine p fun x => { x with strikes := r }) := by
  change execStrikeExpiry p s = _
  rw [execStrikeExpiry, hheld]
  dsimp only
  rw [if_pos hans]
  rfl

/-! ## Together -/

/-- Settles O41: a run by the audits it leaves, a verdict by `strike_of_same`, which is the strike of one engine that stays, and against
both by the counts and records that no strike takes back. -/
theorem auditsAreSettled : Obligations.AuditsAreSettled := by
  unfold Obligations.AuditsAreSettled
  refine ⟨fun s p addr differs a hready haudit => ?void, fun s p addr a hready haudit hsound => ?same,
    fun s p q addr a hready haudit hsound hnext => ?third, fun s p addr a hready haudit hsound hnext => ?both,
    fun s p b c v a hready haudit hvoid => ?thirdVoid,
    fun s p c a hready haudit hsound hstate hfence hrotate hfew => ?original,
    fun s p a hready haudit hsound hstate hfence hrotate hfew => ?auditor,
    fun s g seed hrun hg => ?seed, fun s p h r hans hheld => ?expiry⟩
  case void =>
    refine ⟨_, exec_auditCopy_of_void hready differs haudit, ?_, ?_, ?_⟩
    · rw [auditVoid_flt, chargeAudit_flt]
    · rw [← chargeAudit_region s p a (regionOf p)]
      exact dropAudit_audits _ a _
    · rw [auditVoid_flt, chargeAudit_flt]
  case same =>
    refine ⟨_, exec_auditCopy_of_same hready haudit hsound, ?_⟩
    have hflt := auditCounted_flt s p a
    have haudits := dropAudit_audits (auditCounted s p a) a (regionOf p)
    rw [auditCounted_region] at haudits
    have hjournal := auditCounted_journal s p a
    generalize auditCounted s p a = u at *
    rw [dropAudit_flt, hflt]
    exact ⟨rfl, rfl, haudits, hjournal⟩
  case third =>
    have hcounts := auditDiffers_flt s p a
    rw [← auditThird_flt s p a q addr] at hcounts
    simp only [Flt.auditCounts, Prod.mk.injEq] at hcounts
    obtain ⟨hran, hdisagree, hcorrected⟩ := hcounts
    refine ⟨_, exec_auditCopy_of_third hready haudit hsound hnext, hran, hdisagree, hcorrected, ?_, auditThird_journal s p a q addr⟩
    rw [auditThird_audits]
    exact List.mem_map.mpr ⟨a, List.mem_of_find?_eq_some haudit, if_pos rfl⟩
  case both =>
    have hcounts : (auditVerdict (auditDiffers s p a) a 0xFF addr true true).flt.auditCounts
        = (s.flt.auditsRun + 1, s.flt.disagree + 1, s.flt.corrected + 1) := by
      rw [auditVerdict_both, strike_auditCounts, strike_auditCounts, verdictAgainst_flt, auditDiffers_flt]
    simp only [Flt.auditCounts, Prod.mk.injEq] at hcounts
    obtain ⟨hran, hdisagree, hcorrected⟩ := hcounts
    obtain ⟨x, hx, htype⟩ := verdictTold_record (auditDiffers s p a) a 0xFF addr
    refine ⟨_, x, exec_auditCopy_of_alone hready haudit hsound hnext, hran, hdisagree, hcorrected, ?_, htype⟩
    rw [auditVerdict_both]
    exact (((verdictAgainst_recordsAdded _ a _ _).trans (.strike _ _ _ _ _)).trans (.strike _ _ _ _ _)).kept hx
  case thirdVoid =>
    refine ⟨_, exec_auditThirdRun_of_void hready b c haudit hvoid, ?_, ?_, fun q hq => ?_⟩
    · rw [auditVoid_flt, chargeAudit_flt]
    · rw [← chargeAudit_region s p a (regionOf p)]
      exact dropAudit_audits _ a _
    · rw [auditVoid_engine]
      exact chargeAudit_engine_other s p a hq
  case original =>
    obtain ⟨x, hx, htype⟩ := verdictTold_record (chargeAudit s p a) a p a.addr
    obtain ⟨hstrike, hstrikes⟩ := strike_of_same (s := s) (t := verdictTold (chargeAudit s p a) a p a.addr) srcAudit a.completion.job
      a.completion.tile (strikeState_of_charged rfl) rfl hstate hfence hrotate hfew
    refine ⟨_, x, exec_auditThirdRun_of_original hready c haudit hsound, ?_⟩
    rw [auditVerdict_auditor, hstrike]
    refine ⟨(engineStruck_recordsAdded _ _ _ _ _).kept hx, htype, hstrikes, fun q hauditor hp => ?_, ?_⟩
    · rw [engineStruck_engine, if_neg hauditor]
      exact chargeAudit_engine_other s p a hp
    · rw [engineStruck_voids, verdictTold_voids]
      exact keeps_voids (chargeAudit_erase_whole s p a) rfl
  case auditor =>
    obtain ⟨x, hx, htype⟩ := verdictTold_record (chargeAudit s p a) a p a.addr
    obtain ⟨hstrike, hstrikes⟩ := strike_of_same (s := s) (t := verdictAgainst (chargeAudit s p a) a p a.addr) srcAudit a.completion.job
      a.completion.tile (strikeState_of_charged (verdictAgainst_engine_keeps _ a _ _ (fun _ _ _ _ => rfl) _))
      (verdictAgainst_time _ a _ _) hstate hfence hrotate hfew
    refine ⟨_, x, exec_auditThirdRun_of_auditor hready haudit hsound, ?_⟩
    rw [auditVerdict_audited, hstrike]
    refine ⟨((verdictAgainst_recordsAdded _ a _ _).trans (engineStruck_recordsAdded _ _ _ _ _)).kept hx, htype, hstrikes,
      fun hbatch q haudited hp => ?_⟩
    rw [engineStruck_engine, if_neg haudited, verdictAgainst_engine_of_alone _ a _ _ hbatch]
    exact chargeAudit_engine_other s p a hp
  case seed =>
    obtain ⟨hseed, hdraws⟩ := seedReplaced_region s g seed
    have hjournal := seedReplaced_journal s g seed
    have htime := seedReplaced_time s g seed
    refine ⟨_, seedRecord (seedReplaced s g seed) g, exec_auditSeedReplace seed hrun hg, ?_⟩
    generalize seedReplaced s g seed = u at *
    refine ⟨hseed, hdraws, ?_, ?_, rfl, rfl⟩
    · refine (congrArg Time.elapsed htime).trans ?_
      exact State.atElapsed_elapsed (State.not_inReset_of_running hrun) _
    · rw [← hjournal, State.emit_journal_plain u _ (.inl rfl)]
  case expiry =>
    refine ⟨_, exec_strikeExpiry hans hheld, ?_, ?_⟩
    · rw [State.modEngine_get, if_pos rfl]
    · exact State.atElapsed_elapsed (of_decide_eq_true hans) _

end Sys2Proof.Machine

/-! Engines that change their state (14 R425 to R430, 01 R33 to R37): the engine that enters, the one that leaves, and its assays. -/

namespace Sys2Proof.Machine

/-! ## Engines that may enter or leave (14 R426, R430) -/

theorem regionOf_of_mem {p g : Nat} (h : p ∈ enginesOf g) : regionOf p = g := by
  obtain ⟨k, hk, rfl⟩ := List.mem_map.mp h
  rw [List.mem_range] at hk
  unfold regionOf
  omega

/-- An engine that enters stands in reserve, and its last assay has passed. -/
theorem spareFor_reserve {s : State} {g q : Nat} (h : spareFor s g = some q) : (s.engine q).state = 1 ∧ (s.engine q).underAssay = false := by
  refine List.foldlRecOn (motive := fun best => ∀ q, best = some q → (s.engine q).state = 1 ∧ (s.engine q).underAssay = false)
    (enginesOf g) _ (by simp) (fun best hbest p _ => ?_) q h
  extract_lets e
  split
  · exact hbest
  · split
    · exact hbest
    next hfree =>
      have hp : (s.engine p).state = 1 ∧ (s.engine p).underAssay = false := by
        simp only [not_or, Bool.not_eq_true, ne_eq, Decidable.not_not] at hfree
        exact hfree
      split
      · rintro q ⟨⟩
        exact hp
      · split
        · rintro q ⟨⟩
          exact hp
        · exact hbest

/-- An engine that leaves is one of the region's in service. -/
theorem oldestAssay_serves {s : State} {g p : Nat} (h : oldestAssay s g = some p) : p ∈ enginesOf g ∧ (s.engine p).state = 0 := by
  refine List.foldlRecOn (motive := fun best => ∀ p, best = some p → p ∈ enginesOf g ∧ (s.engine p).state = 0)
    (enginesOf g) _ (by simp) (fun best hbest q hq => ?_) p h
  extract_lets e
  split
  · exact hbest
  next hserves =>
    have hstate : (s.engine q).state = 0 := by
      simp only [not_or, ne_eq, Decidable.not_not] at hserves
      exact hserves.1
    split
    · rintro p ⟨⟩
      exact ⟨hq, hstate⟩
    · split
      · rintro p ⟨⟩
        exact ⟨hq, hstate⟩
      · exact hbest

/-! ## An index passes on (14 R427, R430) -/

section
variable (s : State) {p q : Nat} (hne : p ≠ q)
include hne

theorem beginHandover_left : ((beginHandover s p q).engine p).handoverFrom = (s.engine p).handoverFrom
    ∧ ((beginHandover s p q).engine p).logical = 0xFF := by
  unfold beginHandover
  extract_lets e s1
  have hleft : s1.engine p = s.engine p := (State.modEngine_get s q _ p).trans (if_neg hne)
  rw [State.modEngine_get, if_pos rfl, ← hleft]
  exact ⟨rfl, rfl⟩

theorem beginHandover_entered : ((beginHandover s p q).engine q).state = 0
    ∧ ((beginHandover s p q).engine q).logical = (s.engine p).logical := by
  unfold beginHandover
  extract_lets e s1
  rw [State.modEngine_get, if_neg (Ne.symm hne)]
  unfold s1
  rw [State.modEngine_get, if_pos rfl]
  exact ⟨rfl, rfl⟩

end

theorem rotate_engine (s : State) (p q x : Nat) : (rotate s p q).engine x = if x = p then { (beginHandover s p q).engine p with
    state := 1, underAssay := true, assayPassed := none, pipe := {} } else (beginHandover s p q).engine x := by
  unfold rotate
  extract_lets s1 s2
  rw [State.engine_of_erase (writeUnitMap_erase _ (Nat.and_self _)) rfl,
    State.engine_of_erase (State.faultRecord_erase _ _ _ _ _ _ _ _ _ (Nat.and_self _)) rfl]
  exact State.modEngine_get s1 p _ x

/-- A rotation writes one record, 0x0606. -/
theorem rotate_journal (s : State) (p q : Nat) :
    ∃ x, (rotate s p q).journal.waiting = s.journal.waiting ++ [x] ∧ x.type = 0x0606 := by
  unfold rotate
  extract_lets s1 s2
  have hleft : s2.journal = s.journal := keeps_journal (beginHandover_erase s p q (Nat.and_self _)) rfl
  refine ⟨{ s2.record 0x0606 ucFLT (.flt { cls := 0, source := 0, unit := p, second := q, third := 0xFF, strikes := 0 }) with
    status := stOK }, ?_, rfl⟩
  rw [keeps_journal (writeUnitMap_erase _ (Nat.and_self _)) rfl, State.faultRecord, State.emit_journal_plain _ _ (.inl rfl), hleft]

/-! ## A fence (14 R424 to R426) -/

section
variable (s : State) (p source : Nat)

/-- A fenced engine leaves service; a handover to it that has not ended stands. -/
theorem fenceEngine_self : ((fenceEngine s p source).engine p).state = 2
    ∧ ((fenceEngine s p source).engine p).handoverFrom = (s.engine p).handoverFrom := by
  unfold fenceEngine
  extract_lets g e spare s1 s2 s3 s4
  have hleft : (s1.engine p).handoverFrom = (s.engine p).handoverFrom := by
    have hspare (q : Nat) (h : spare = some q) : p ≠ q := by
      rintro rfl
      unfold spare at h
      split at h
      next hserves =>
        have hreserve := (spareFor_reserve h).1
        exact absurd (hserves.symm.trans hreserve) (by decide)
      next => cases h
    unfold s1
    clear_value spare
    cases spare with
    | none =>
      refine State.modEngine_keeps Engine.handoverFrom s ?_ p
      exact fun _ => rfl
    | some q => exact (beginHandover_left s (hspare q rfl)).1
  have hmap : (capacityChanged (writeUnitMap s4) [.region g]).engine p = s2.engine p := by
    rw [State.engine_of_erase (capacityChanged_erase _ _ (Nat.and_self _)) rfl,
      State.engine_of_erase (writeUnitMap_erase s4 (Nat.and_self _)) rfl,
      State.engine_of_erase (checkAble_erase _ (Nat.and_self _)) rfl,
      State.engine_of_erase (missingEvals_erase _ _ (Nat.and_self _)) rfl,
      State.engine_of_erase (State.fenceEvent_erase _ _ _ _ (Nat.and_self _)) rfl,
      State.engine_of_erase (markDegraded_erase _ g (Nat.and_self _)) rfl,
      State.engine_of_erase (dropAudits_erase s2 p (Nat.and_self _)) rfl]
  rw [hmap]
  unfold s2
  rw [State.modEngine_get, if_pos rfl]
  exact ⟨rfl, hleft⟩

/-- The fault manager counts the fence; the assays' digests stand. -/
theorem fenceEngine_flt : (fenceEngine s p source).flt.fenced = s.flt.fenced + 1
    ∧ (fenceEngine s p source).flt.candidates = s.flt.candidates := by
  unfold fenceEngine
  extract_lets g e spare s1 s2 s3 s4
  have hleft : s1.flt = s.flt := by
    unfold s1
    clear_value spare
    cases spare with
    | none => rfl
    | some q => exact State.flt_of_erase (beginHandover_erase s p q (Nat.and_self _)) rfl
  have hmarked : s3.flt = (dropAudits s2 p).flt := State.flt_of_erase (markDegraded_erase _ g (Nat.and_self _)) rfl
  have hdropped : (dropAudits s2 p).flt.fenced = s2.flt.fenced ∧ (dropAudits s2 p).flt.candidates = s2.flt.candidates := ⟨rfl, rfl⟩
  have hevent (x : FltPl) : (s3.fenceEvent x stOK).flt = { s3.flt with fenced := s3.flt.fenced + 1, lastClass := 2 } := rfl
  have htold (x : FltPl) (l : Nat) : (checkAble (missingEvals (s3.fenceEvent x stOK) l)).flt = (s3.fenceEvent x stOK).flt :=
    (State.flt_of_erase (checkAble_erase _ (Nat.and_self _)) rfl).trans (State.flt_of_erase (missingEvals_erase _ _ (Nat.and_self _)) rfl)
  obtain ⟨hfenced, hcandidates⟩ := hdropped
  have hkept : s2.flt = s.flt := hleft
  rw [State.flt_of_erase (capacityChanged_erase _ _ (Nat.and_self _)) rfl, State.flt_of_erase (writeUnitMap_erase _ (Nat.and_self _)) rfl,
    htold, hevent]
  dsimp only
  rw [hmarked, hfenced, hcandidates, hkept]
  exact ⟨rfl, rfl⟩

end

section
variable (s : State) (p : Nat)

theorem rotateIfDue_handoverFrom : ((rotateIfDue s p).engine p).handoverFrom = (s.engine p).handoverFrom := by
  unfold rotateIfDue
  split
  · rfl
  next q _ =>
    split
    · rfl
    · extract_lets s1 e
      have hdue : (s1.engine p).handoverFrom = (s.engine p).handoverFrom := by
        refine State.modEngine_keeps Engine.handoverFrom s ?_ p
        exact fun _ => rfl
      split
      next hfree =>
        have hne : p ≠ q := by
          rintro rfl
          simp only [Bool.and_eq_true, decide_eq_true_eq] at hfree
          obtain ⟨⟨⟨-, hserves⟩, hreserve⟩, -⟩ := hfree
          exact absurd (hserves.symm.trans hreserve) (by decide)
        rw [rotate_engine, if_pos rfl, ← hdue]
        exact (beginHandover_left s1 hne).1
      · exact hdue

theorem fenceIfDue_handoverFrom : ((fenceIfDue s p).engine p).handoverFrom = (s.engine p).handoverFrom := by
  unfold fenceIfDue
  extract_lets e
  split
  · exact (fenceEngine_self s p _).2
  · exact rotateIfDue_handoverFrom s p

end

/-! ## Assays of engines (14 R425, R428, R429) -/

theorem State.candidates_empty {s : State} (h : s.flt.candidates = []) : { s with flt := { s.flt with candidates := [] } } = s := by
  change _ = { s with flt := { s.flt with candidates := s.flt.candidates } }
  rw [h]

/-- With no digest waiting, the end of an assay ends no other. -/
theorem endWaiting_of_empty {s : State} (h : s.flt.candidates = []) : endWaiting s = s := by
  cases hreference : s.flt.reference with
  | none => rw [endWaiting, hreference]
  | some d =>
    rw [endWaiting, hreference]
    dsimp only
    rw [h, List.foldl_nil]
    exact State.candidates_empty h

section
variable (s : State) (p : Nat)

/-- The record of an assay. -/
def assayTold (s : State) (p : Nat) (pass : Bool) : Rec :=
  { s.record 0x0607 ucFLT (.flt { unit := p }) with inst := p, status := if pass then stOK else stAUDIT }

theorem assayRecord_record (pass : Bool) : assayTold s p pass ∈ (assayRecord s p pass).journal.waiting :=
  State.mem_emit_waiting.mpr (.inl rfl)

theorem assayRecord_erase_whole (pass : Bool) : (assayRecord s p pass).erase 0x800 = s.erase 0x800 := assayRecord_erase s p pass (Nat.and_self _)

theorem RecordsAdded.assayPass : RecordsAdded s (assayPass s p) := by
  unfold Machine.assayPass
  extract_lets e s1
  split
  · split
    · exact .of_journal rfl
    · exact ((RecordsAdded.of_journal (s := s) (t := s1) rfl).trans (.faultRecord s1 _ _ _ _ _ _ _ _)).trans
        (.of_journal (keeps_journal (writeUnitMap_erase _ (Nat.and_self _)) rfl))
  · exact .of_journal rfl

theorem RecordsAdded.assayFail : RecordsAdded s (assayFail s p) := by
  unfold Machine.assayFail
  extract_lets e s1
  split
  · exact ((RecordsAdded.of_journal (s := s) (t := s1) rfl).trans (.faultRecord s1 _ _ _ _ _ _ _ _)).trans
      (.of_journal (keeps_journal (writeUnitMap_erase _ (Nat.and_self _)) rfl))
  · split
    · exact .of_journal rfl
    · exact .fenceEngine s p _

theorem assayEnds_record (pass : Bool) : assayTold s p pass ∈ (assayEnds s p pass).journal.waiting := by
  have htold := assayRecord_record s p pass
  unfold assayEnds
  extract_lets s1
  cases pass with
  | true => exact (RecordsAdded.assayPass s1 p).kept htold
  | false => exact (RecordsAdded.assayFail s1 p).kept htold

theorem assayEnds_pass_flt : (assayEnds s p true).flt = s.flt :=
  (State.flt_of_erase (assayPass_erase _ p (Nat.and_self _)) rfl).trans (State.flt_of_erase (assayRecord_erase_whole s p true) rfl)

/-- A passed assay: what the engine is then (14 R425). -/
theorem assayPass_engine : ((assayPass s p).engine p).underAssay = false
    ∧ ((s.engine p).state = 2 →
      ((assayPass s p).engine p).state = if (recent s.time.elapsed month (s.engine p).fences).length ≤ 1 then 1 else 3)
    ∧ ((s.engine p).state ≠ 2 → ((assayPass s p).engine p).state = (s.engine p).state
      ∧ ((assayPass s p).engine p).assayPassed = some s.time.elapsed) := by
  unfold assayPass
  extract_lets e s1
  by_cases hfenced : e.state = 2
  · rw [if_pos hfenced]
    refine ⟨?_, fun _ => ?_, fun h => absurd hfenced h⟩
    · split
      · rw [State.engine_of_erase (writeUnitMap_erase _ (Nat.and_self _)) rfl, State.modEngine_get, if_pos rfl]
      · rw [State.engine_of_erase (writeUnitMap_erase _ (Nat.and_self _)) rfl,
          State.engine_of_erase (State.faultRecord_erase _ _ _ _ _ _ _ _ _ (Nat.and_self _)) rfl, State.modEngine_get, if_pos rfl]
    · split
      · rw [State.engine_of_erase (writeUnitMap_erase _ (Nat.and_self _)) rfl, State.modEngine_get, if_pos rfl]
      · rw [State.engine_of_erase (writeUnitMap_erase _ (Nat.and_self _)) rfl,
          State.engine_of_erase (State.faultRecord_erase _ _ _ _ _ _ _ _ _ (Nat.and_self _)) rfl, State.modEngine_get, if_pos rfl]
  · rw [if_neg hfenced, State.modEngine_get, if_pos rfl]
    exact ⟨rfl, fun h => absurd h hfenced, fun _ => ⟨rfl, rfl⟩⟩

/-- A failed assay: a reserve engine is fenced, a fenced one retired (14 R425). -/
theorem assayFail_engine : ((s.engine p).state = 1 → ((assayFail s p).engine p).state = 2 ∧ (assayFail s p).flt.fenced = s.flt.fenced + 1)
    ∧ ((s.engine p).state = 2 → ((assayFail s p).engine p).state = 3) := by
  unfold assayFail
  extract_lets e s1
  refine ⟨fun hstate => ?_, fun hstate => ?_⟩
  · have he : e.state = 1 := hstate
    rw [if_neg (by omega), if_neg (by omega)]
    exact ⟨(fenceEngine_self s p srcAssay).1, (fenceEngine_flt s p srcAssay).1⟩
  · rw [if_pos hstate, State.engine_of_erase (writeUnitMap_erase _ (Nat.and_self _)) rfl,
      State.engine_of_erase (State.faultRecord_erase _ _ _ _ _ _ _ _ _ (Nat.and_self _)) rfl, State.modEngine_get, if_pos rfl]

theorem assayFail_candidates : (assayFail s p).flt.candidates = s.flt.candidates := by
  unfold assayFail
  extract_lets e s1
  split
  · rw [State.flt_of_erase (writeUnitMap_erase _ (Nat.and_self _)) rfl,
      State.flt_of_erase (State.faultRecord_erase _ _ _ _ _ _ _ _ _ (Nat.and_self _)) rfl]
    rfl
  · split
    · rfl
    · exact (fenceEngine_flt s p srcAssay).2

end

section
variable {s : State} {r : AssayResult} (hans : s.answers = true) (hassay : (s.engine r.engine).underAssay = true)
include hans hassay

theorem exec_engineAssayComplete {pass : Bool} {u : State} (hjudge : judgeDigest s r = (some pass, u)) :
    exec (.engineAssayComplete r) s = .next (endWaiting (assayEnds u r.engine pass)) := by
  change execEngineAssayComplete r s = _
  rw [execEngineAssayComplete, if_pos (by simp [hans, hassay]), hjudge]
  rfl

end

section
variable {s : State} {r : AssayResult}

theorem judgeDigest_of_bad (hbad : r.fixedOk = false ∨ 16 < r.correctedErrors) (hnone : s.flt.candidates = []) :
    judgeDigest s r = (some false, s) := by
  have hfails : (!r.fixedOk || decide (16 < r.correctedErrors)) = true := by
    rcases hbad with h | h
    · simp [h]
    · simp [h]
  rw [judgeDigest, if_pos hfails, hnone, List.filter_nil, State.candidates_empty hnone]

variable (hfixed : r.fixedOk = true) (hfew : r.correctedErrors ≤ 16)
include hfixed hfew

theorem judgeDigest_of_reference (hreference : s.flt.reference = some r.digest) : judgeDigest s r = (some true, s) := by
  rw [judgeDigest, if_neg (by simp [hfixed, hfew]), hreference]
  simp only [decide_true]

/-- 14 R429: a second engine with the same digest sets the reference. -/
theorem judgeDigest_of_second {q : Nat} (hwaits : s.flt.candidates = [(q, r.digest)]) (hother : q ≠ r.engine) (hnone : s.flt.reference = none) :
    judgeDigest s r = (some true, { s with flt := { s.flt with reference := some r.digest } }) := by
  have hothers : (s.flt.candidates.filter fun c => c.1 != r.engine) = s.flt.candidates := by
    rw [hwaits]
    simp [hother]
  rw [judgeDigest, if_neg (by simp [hfixed, hfew]), hnone]
  dsimp only
  rw [hothers, if_pos (by simp [hwaits])]

end

/-- The end of the digests that agree with the reference leaves it. -/
theorem endWaiting_reference {s : State} {d : Nat} (hreference : s.flt.reference = some d) (hagree : ∀ c ∈ s.flt.candidates, c.2 = d) :
    (endWaiting s).flt.reference = some d := by
  have hflt := List.foldlRecOn (motive := fun t : State => t.flt = s.flt) s.flt.candidates
    (fun x c => if (x.engine c.1).underAssay then assayEnds x c.1 (c.2 == d) else x) rfl fun t ht c hc => ?step
  · rw [endWaiting, hreference]
    exact (congrArg Flt.reference hflt).trans hreference
  have hd : (c.2 == d) = true := beq_iff_eq.mpr (hagree c hc)
  split
  · rw [hd, assayEnds_pass_flt, ht]
  · exact ht

end Sys2Proof.Machine

/-! Decode engines that leave and return (01 R39, 14 R431), and the memory that passes on with an index (14 R427). -/

namespace Sys2Proof.Machine

/-! ## Decode engines (01 R39, 14 R431) -/

theorem decSpare_reserve {s : State} {q : Nat} (h : decSpare s = some q) : (s.dec q).state = 1 :=
  of_decide_eq_true (p := (s.dec q).state = 1) (List.find?_some (p := fun d => decide ((s.dec d).state = 1)) h)

theorem rotatingDec_serves {s : State} {d : Nat} (h : rotatingDec s = some d) : (s.dec d).state = 0 := by
  have hmem := List.mem_of_getElem? h
  simp only [List.mem_filter, Bool.and_eq_true, decide_eq_true_eq] at hmem
  exact hmem.2.1

/-- The decode engine is told to leave. -/
def decTold (s : State) (d : Nat) : State := s.nextFree.modDec d fun x => { x with leaving := true }

theorem decTold_dec (s : State) (d e : Nat) : (decTold s d).dec e = if e = d then { s.dec d with leaving := true } else s.dec e :=
  State.modDec_get s.nextFree d (fun x => { x with leaving := true }) e

theorem decTold_state (s : State) (d e : Nat) : ((decTold s d).dec e).state = (s.dec e).state := by
  rw [decTold_dec]
  split
  next heq => rw [heq]
  next => rfl

theorem decSpare_congr {s t : State} (h : ∀ e, (t.dec e).state = (s.dec e).state) : decSpare t = decSpare s := by
  simp only [decSpare, h]

theorem exec_decodeRotation {s : State} {d q : Nat} (hmay : s.mayBegin = true) (hspare : decSpare (toDecodeRotation s) = some q)
    (hleaves : rotatingDec (toDecodeRotation s) = some d) : exec .decodeRotation s
    = .next ((decLeave (decTold (toDecodeRotation s) d) d).emit
      ((decLeave (decTold (toDecodeRotation s) d) d).record 0x0606 ucFLT (.flt { unit := d, second := q }))) := by
  have hfree : decSpare (toDecodeRotation s).nextFree = some q := hspare
  change execDecodeRotation s = _
  rw [execDecodeRotation, if_pos hmay, rotateDecode]
  simp only [hfree, hleaves]
  rfl

/-- An engine that decodes leaves at its boundary. -/
theorem decLeave_of_busy {s : State} {d : Nat} (h : (s.dec d).job ≠ none) : decLeave s d = s := by
  rw [decLeave]
  exact if_pos (by simp [Option.isSome_iff_ne_none.mpr h])

/-- An engine that is free leaves at once, and a reserve takes its place. -/
theorem decLeave_dec {s : State} {d q : Nat} (hjob : (s.dec d).job = none) (hleaving : (s.dec d).leaving = true)
    (hfence : (s.dec d).fence = false) (hstate : (s.dec d).state = 0) (hspare : decSpare s = some q) :
    ((decLeave s d).dec d).state = 3 ∧ ((decLeave s d).dec q).state = 0 := by
  have hne : d ≠ q := by
    rintro rfl
    exact absurd (hstate.symm.trans (decSpare_reserve hspare)) (by decide)
  unfold decLeave
  extract_lets e wasIn spare s1 s2 s3
  have hgoes : ¬(e.job.isSome || !(e.leaving || e.fence)) = true := by simp [e, hjob, hleaving]
  have hspares : spare = some q := (if_pos hstate).trans hspare
  have hs3 : s3 = s2 := if_neg (by simp [e, hfence])
  have hs2 : s2 = s1.modDec q fun x => { x with state := 0 } := by
    unfold s2
    rw [hspares]
  have hleft : (s1.dec d).state = 3 := by
    unfold s1
    rw [State.modDec_get, if_pos rfl]
    exact if_neg (by simp [e, hfence])
  have hlast (x : Nat) : (setDDec (capacityChanged s3 [])).dec x = s2.dec x := by
    rw [State.dec_of_erase (setDDec_erase _ (Nat.and_self _)) rfl, State.dec_of_erase (capacityChanged_erase _ _ (Nat.and_self _)) rfl, hs3]
  rw [if_neg hgoes, hlast, hlast, hs2]
  refine ⟨?_, ?_⟩
  · rw [State.modDec_get, if_neg hne, hleft]
  · rw [State.modDec_get, if_pos rfl]

theorem State.modDec_state (s : State) (e d : Nat) {f : DecEngine → DecEngine} (hf : ∀ x, (f x).state = x.state) :
    ((s.modDec e f).dec d).state = (s.dec d).state := by
  rw [State.modDec_get]
  split
  next heq => rw [hf, heq]
  next => rfl

theorem startDecode_state (s : State) (e n : Nat) (u : AccessUnit) (d : Nat) : ((startDecode s e n u).dec d).state = (s.dec d).state := by
  unfold startDecode
  extract_lets row t s1
  refine (State.modDec_state _ e d ?_).trans ?_
  · exact fun _ => rfl
  · rw [State.dec_of_erase (State.trace_erase _ _ _ _ _ (Nat.and_self _)) rfl]
    unfold s1
    rw [State.dec_of_erase (reuseBuffers_erase _ _ _ (Nat.and_self _)) rfl]
    rfl

theorem startReplay_state (s : State) (e : Nat) (o : Output) (u : AccessUnit) (d : Nat) :
    ((startReplay s e o u).dec d).state = (s.dec d).state := by
  unfold startReplay
  extract_lets s1
  refine (State.modDec_state _ e d ?_).trans ?_
  · exact fun _ => rfl
  · rw [State.dec_of_erase (State.trace_erase _ _ _ _ _ (Nat.and_self _)) rfl]
    rfl

/-- A unit given to an engine leaves every engine's state. -/
theorem dispatchOne_state {s t : State} (h : dispatchOne s = some t) (d : Nat) : (t.dec d).state = (s.dec d).state := by
  unfold dispatchOne at h
  split at h
  · cases h
  next e _ =>
    extract_lets s0 el zoneOnes at h
    have hfree : s0.dec d = s.dec d := by
      unfold s0
      split
      · rfl
      · rfl
    rw [← hfree]
    split at h
    next n u _ => exact Option.some.inj h ▸ startDecode_state s0 e n u d
    · split at h
      · cases h
      next o u _ _ => exact Option.some.inj h ▸ startReplay_state s0 e o u d

theorem dispatch_state (s : State) (d : Nat) : ((dispatch s).dec d).state = (s.dec d).state := by
  have hloop (k : Nat) (t : State) : ((dispatchLoop k t).dec d).state = (t.dec d).state := by
    induction k generalizing t with
    | zero => rfl
    | succ k ih =>
      unfold dispatchLoop
      split
      · rfl
      next u h => rw [ih, dispatchOne_state h]
  unfold dispatch
  split
  · rfl
  · rw [hloop]
    refine foldl_keeps (fun a : State => (a.dec d).state) ?_ _ s
    exact fun _ _ => rfl

section
variable {s : State} {d : Nat} (hans : s.answers = true) (hstate : (s.dec d).state = 3)

/-- The record of a decode engine's assay. -/
def decAssayed (s : State) (d : Nat) (pass : Bool) : State :=
  s.emit { s.record 0x0607 ucDEC (.flt { unit := d }) with inst := d, status := if pass then stOK else stAUDIT }

theorem decAssayed_dec (pass : Bool) (e : Nat) : (decAssayed s d pass).dec e = s.dec e := rfl

theorem decAssayed_inService (pass : Bool) : (decAssayed s d pass).decInService = s.decInService := rfl

include hans hstate

theorem exec_decodeAssayComplete_of_pass : exec (.decodeAssayComplete d true) s = .next (dispatch (setDDec
    ((decAssayed s d true).modDec d fun x => { x with state := if (decAssayed s d true).decInService < 16 then 0 else 1 }))) := by
  change execDecodeAssayComplete d true s = _
  rw [execDecodeAssayComplete, if_pos (by simp [hans, hstate])]
  rfl

theorem exec_decodeAssayComplete_of_fail : exec (.decodeAssayComplete d false) s = .next (setDDec (capacityChanged
    (((decAssayed s d false).modDec d fun x => { x with state := 2 }).fenceEvent { source := srcMediaAssay, unit := d } stAUDIT) [])) := by
  change execDecodeAssayComplete d false s = _
  rw [execDecodeAssayComplete, if_pos (by simp [hans, hstate])]
  rfl

end

/-! ## The memory of an engine passes on (14 R427) -/

/-- Cells set at an offset, over a table: each of them is read at the offset, and elsewhere the table. -/
theorem get_foldl_set (d b i : Nat) (l base : List Host.Cell) (hwf : Table.wf 0#8 l = true) (hlow : ∀ c ∈ l, b ≤ c.1) :
    Table.get 0#8 (d + i) (l.foldl (fun a c => Table.set 0#8 (d + (c.1 - b)) c.2 a) base)
      = if Table.get 0#8 (b + i) l = 0#8 then Table.get 0#8 (d + i) base else Table.get 0#8 (b + i) l := by
  induction l generalizing base with
  | nil => exact (if_pos rfl).symm
  | cons c r ih =>
    obtain ⟨k, v⟩ := c
    simp only [Table.wf, Bool.and_eq_true, decide_eq_true_eq] at hwf
    obtain ⟨⟨hv, habove⟩, hr⟩ := hwf
    have hk : b ≤ k := hlow (k, v) List.mem_cons_self
    rw [List.foldl_cons, ih _ hr fun c hc => hlow c (List.mem_cons_of_mem _ hc), Table.get_cons]
    by_cases heq : b + i = k
    · subst heq
      rw [if_pos rfl, Table.get_above _ _ _ habove, if_pos rfl, if_neg hv, Nat.add_sub_cancel_left, Table.get_set_self]
    · rw [if_neg heq, Table.get_set_ne _ _ _ _ _ (by omega)]

section
variable (s : State) (p q : Nat)

/-- The copy of an engine's memory and marks in place of another's. -/
def handoverCopied : State := { s with mem := copyEngineBytes s.mem q p, voids := copyEngineVoids s.voids q p }

theorem handoverCopied_byte_inside (hwf : Memory.wf s.mem = true) {i : Nat} (hi : i < engineSize) :
    (handoverCopied s p q).byte (engineBase p + i) = s.byte (engineBase q + i) := by
  have hkept := Table.get_filter_key 0#8 (fun a => !(decide (engineBase p ≤ a) && decide (a < engineBase p + engineSize))) (engineBase p + i) s.mem
  rw [if_neg (by simp [hi])] at hkept
  have hmoved := Table.get_filter_key 0#8 (fun a => decide (engineBase q ≤ a) && decide (a < engineBase q + engineSize)) (engineBase q + i) s.mem
  rw [if_pos (by simp [hi])] at hmoved
  rw [State.byte, handoverCopied, copyEngineBytes]
  dsimp only
  rw [get_foldl_set _ _ _ _ _ (Table.wf_filter _ _ _ hwf) fun c hc => ?_, hkept, hmoved]
  · split
    next hzero => rw [State.byte, hzero]
    next => rfl
  · have hin := (List.mem_filter.mp hc).2
    simp only [Bool.and_eq_true, decide_eq_true_eq] at hin
    exact hin.1

theorem handoverCopied_byte_outside {a : Nat} (ha : a < engineBase p ∨ engineBase p + engineSize ≤ a) :
    (handoverCopied s p q).byte a = s.byte a := by
  have hkept := Table.get_filter_key 0#8 (fun a => !(decide (engineBase p ≤ a) && decide (a < engineBase p + engineSize))) a s.mem
  rw [if_pos (by simp only [Bool.not_eq_true', Bool.and_eq_false_iff, decide_eq_false_iff_not]; omega)] at hkept
  rw [State.byte, handoverCopied, copyEngineBytes]
  dsimp only
  refine List.foldlRecOn (motive := fun m => Table.get 0#8 a m = s.byte a) _ _ hkept fun m hm c hc => ?_
  have hin := (List.mem_filter.mp hc).2
  simp only [Bool.and_eq_true, decide_eq_true_eq] at hin
  rw [Table.get_set_ne _ _ _ _ _ (by omega), hm]

end

/-! ## Granules that land void (14 R427) -/

theorem State.mem_voidRange {s : State} {a n g : Nat} : g ∈ (s.voidRange a n).voids ↔ g ∈ granulesOf a n ∨ g ∈ s.voids :=
  mem_foldl_insertGranule

/-- A granule that one of the steps marks stays marked. -/
theorem mem_voids_foldl {α : Type} {f : State → α → State} (hkeeps : ∀ t x, t.voids ⊆ (f t x).voids) {l : List α} {x : α}
    (hx : x ∈ l) {g : Nat} (hmarks : ∀ t, g ∈ (f t x).voids) (s : State) : g ∈ (l.foldl f s).voids := by
  obtain ⟨before, after, rfl⟩ := List.append_of_mem hx
  rw [List.foldl_append, List.foldl_cons]
  exact List.foldlRecOn (motive := fun t : State => g ∈ t.voids) after f (hmarks _) fun t ht y _ => hkeeps t y ht

/-- A granule of an engine's memory marked void. -/
def voidGranule (p : Nat) (s : State) (g : Nat) : State := s.voidRange (engineBase p + 64 * g) 64

theorem mem_voidGranule (p : Nat) (s : State) (g : Nat) : granule (engineBase p) + g ∈ (voidGranule p s g).voids := by
  refine State.mem_voidRange.mpr (.inl (mem_granulesOf.mpr ?_))
  unfold granule engineBase
  omega

theorem voidGranule_keeps (p : Nat) (s : State) (g : Nat) : s.voids ⊆ (voidGranule p s g).voids := fun _ h => State.mem_voidRange.mpr (.inr h)

theorem voidGranule_erase (p : Nat) (s : State) (g : Nat) : (voidGranule p s g).erase 0x40000000000 = s.erase 0x40000000000 :=
  State.voidRange_erase s _ _ (Nat.and_self _)

/-! ## The end of a handover -/

/-- The engine holds its memory, and may then be due to leave. -/
def handoverEnded (s : State) (p now : Nat) : State := fenceIfDue (s.modEngine p fun e => { e with handoverFrom := none, idleSince := now }) p

theorem handoverEnded_handoverFrom (s : State) (p now : Nat) : ((handoverEnded s p now).engine p).handoverFrom = none := by
  rw [handoverEnded, fenceIfDue_handoverFrom, State.modEngine_get, if_pos rfl]

theorem handoverEnded_memory (s : State) (p now : Nat) : (handoverEnded s p now).mem = s.mem ∧ (handoverEnded s p now).voids = s.voids := by
  have herase := fenceIfDue_erase (s.modEngine p fun e => { e with handoverFrom := none, idleSince := now }) p (Nat.and_self _)
  exact ⟨keeps_mem herase rfl, keeps_voids herase rfl⟩

/-- The memory passed on, with the granules that could not be read void. -/
def handoverRead (s : State) (p q : Nat) (bad : List Nat) : State :=
  bad.foldl (fun a g => if g < engineSize / 64 then voidGranule p a g else a) (handoverCopied s p q)

/-- The granules of an engine's memory that hold data or are void. -/
def liveGranules (s : State) (q : Nat) : List Nat :=
  ((s.mem.filter fun c => decide (engineBase q ≤ c.1) && decide (c.1 < engineBase q + engineSize)).map fun c =>
      granule c.1 - granule (engineBase q))
    ++ ((s.voids.filter fun g => decide (granule (engineBase q) ≤ g) && decide (g < granule (engineBase q) + engineSize / 64)).map fun g =>
      g - granule (engineBase q))

theorem mem_liveGranules {s : State} {q i : Nat} (hi : i < engineSize) (hbyte : s.byte (engineBase q + i) ≠ 0) : i / 64 ∈ liveGranules s q := by
  have hcell := (Table.get_eq_or_mem 0#8 (engineBase q + i) s.mem).resolve_left hbyte
  refine List.mem_append_left _ (List.mem_map.mpr ⟨_, List.mem_filter.mpr ⟨hcell, by simp [hi]⟩, ?_⟩)
  unfold granule engineBase
  dsimp only
  omega

section
variable {s : State} {p q since : Nat} (hans : s.answers = true) (hfrom : (s.engine p).handoverFrom = some (q, since))
include hans hfrom

theorem exec_engineHandoverCopyComplete (bad : List Nat) :
    exec (.engineHandoverCopyComplete p bad) s = .next (handoverEnded (handoverRead s p q bad) p s.time.elapsed) := by
  change execEngineHandoverCopyComplete p bad s = _
  rw [execEngineHandoverCopyComplete, hfrom]
  dsimp only
  rw [if_neg (by simp [hans])]
  rfl

theorem exec_handoverNoAnswer : exec (.handoverNoAnswer p) s
    = .next (handoverEnded ((liveGranules (s.atElapsed (since + 100000)) q).foldl (voidGranule p) (s.atElapsed (since + 100000))) p
        (s.atElapsed (since + 100000)).time.elapsed) := by
  change execHandoverNoAnswer p s = _
  rw [execHandoverNoAnswer, hfrom]
  dsimp only
  rw [if_neg (by simp [hans])]
  rfl

end

theorem handoverRead_erase (s : State) (p q : Nat) (bad : List Nat) :
    (handoverRead s p q bad).erase 0x40000000000 = (handoverCopied s p q).erase 0x40000000000 := by
  refine erase_foldl (fun t g => ?_) bad _
  split
  · exact voidGranule_erase p t g
  · rfl

theorem mem_handoverRead (s : State) (p q : Nat) {bad : List Nat} {g : Nat} (hg : g ∈ bad) (hlow : g < engineSize / 64) :
    granule (engineBase p) + g ∈ (handoverRead s p q bad).voids := by
  refine mem_voids_foldl (fun t x => ?_) hg (fun t => ?_) _
  · split
    · exact voidGranule_keeps p t x
    · exact fun _ h => h
  · rw [if_pos hlow]
    exact mem_voidGranule p t g

/-! ## A rotation whose moment comes (14 R430) -/

/-- The engine that leaves is told which takes its index. -/
def rotationDue (s : State) (p q : Nat) : State := s.modEngine p fun e => { e with rotateTo := some q }

section
variable {s : State} {g p q : Nat} (hmay : s.mayBegin = true) (hg : g < 4) (hleaves : oldestAssay (s.atElapsed (nextRotation s g)) g = some p)
  (henters : spareFor (s.atElapsed (nextRotation s g)) g = some q) (hfree : rotationFree (s.atElapsed (nextRotation s g)) g = true)
include hmay hg hleaves henters hfree

theorem exec_engineRotation : exec (.engineRotation g) s = .next (rotateIfDue (rotationDue (s.atElapsed (nextRotation s g)) p q) p) := by
  change execEngineRotation g s = _
  rw [execEngineRotation, if_pos (by simp [hmay, hg])]
  simp only [hleaves, henters, hfree, if_true]
  rfl

end

/-- Whether a region may rotate is no matter of the rotation that waits. -/
theorem rotationFree_congr {s t : State} {g : Nat} (hregion : t.region g = s.region g) (hflt : t.flt = s.flt)
    (hengine : ∀ x, (t.engine x).handoverFrom = (s.engine x).handoverFrom ∧ (t.engine x).fencePending = (s.engine x).fencePending) :
    rotationFree t g = rotationFree s g := by
  simp only [rotationFree, hregion, hflt, fun x => (hengine x).1, fun x => (hengine x).2]

/-- A rotation that nothing holds takes place at once. -/
theorem rotateIfDue_of_free {s : State} {g p q : Nat} (hmem : p ∈ enginesOf g) (hstate : (s.engine p).state = 0)
    (hrunning : (s.engine p).running = none) (hspare : (s.engine q).state = 1 ∧ (s.engine q).underAssay = false)
    (hfree : rotationFree s g = true) :
    rotateIfDue (rotationDue s p q) p = rotate ((rotationDue s p q).modEngine p fun e => { e with rotateTo := none }) p q := by
  have hview {β : Type} (v : Engine → β) (hv : ∀ e r, v { e with rotateTo := r } = v e) (x : Nat) :
      v (((rotationDue s p q).modEngine p fun e => { e with rotateTo := none }).engine x) = v (s.engine x) :=
    (State.modEngine_keeps v _ (fun e => hv e none) x).trans (State.modEngine_keeps v s (fun e => hv e (some q)) x)
  have hto : ((rotationDue s p q).engine p).rotateTo = some q := by rw [rotationDue, State.modEngine_get, if_pos rfl]
  have hidle : ((rotationDue s p q).engine p).running = none := by rw [rotationDue, State.modEngine_get, if_pos rfl, hrunning]
  have hstands : rotationFree ((rotationDue s p q).modEngine p fun e => { e with rotateTo := none }) (regionOf p) = true := by
    rw [regionOf_of_mem hmem, ← hfree]
    exact rotationFree_congr rfl rfl fun x => ⟨hview Engine.handoverFrom (fun _ _ => rfl) x, hview Engine.fencePending (fun _ _ => rfl) x⟩
  have hserves := (hview Engine.state (fun _ _ => rfl) p).trans hstate
  have hreserve := (hview Engine.state (fun _ _ => rfl) q).trans hspare.1
  have hassayed := (hview Engine.underAssay (fun _ _ => rfl) q).trans hspare.2
  simp only [rotateIfDue, hto, hidle, Option.isSome_none, Bool.false_eq_true, if_false, hstands, hserves, hreserve, hassayed, decide_true,
    Bool.not_false, Bool.and_self, if_true]

/-- The rotation leaves the reserve engine in the place of the one that leaves, which runs its assay. -/
theorem rotation_effect {s : State} {g p q : Nat} (hmem : p ∈ enginesOf g) (hstate : (s.engine p).state = 0)
    (hrunning : (s.engine p).running = none) (hspare : (s.engine q).state = 1 ∧ (s.engine q).underAssay = false)
    (hfree : rotationFree s g = true) : ∃ x, ((rotateIfDue (rotationDue s p q) p).engine q).logical = (s.engine p).logical
      ∧ ((rotateIfDue (rotationDue s p q) p).engine q).state = 0 ∧ ((rotateIfDue (rotationDue s p q) p).engine p).state = 1
      ∧ ((rotateIfDue (rotationDue s p q) p).engine p).underAssay = true ∧ ((rotateIfDue (rotationDue s p q) p).engine p).logical = 0xFF
      ∧ (rotateIfDue (rotationDue s p q) p).journal.waiting = s.journal.waiting ++ [x] ∧ x.type = 0x0606 := by
  have hne : p ≠ q := by
    rintro rfl
    exact absurd (hstate.symm.trans hspare.1) (by decide)
  rw [rotateIfDue_of_free hmem hstate hrunning hspare hfree]
  have hlogical : (((rotationDue s p q).modEngine p fun e => { e with rotateTo := none }).engine p).logical = (s.engine p).logical := by
    rw [State.modEngine_get, if_pos rfl, rotationDue, State.modEngine_get, if_pos rfl]
  have hjournal : ((rotationDue s p q).modEngine p fun e => { e with rotateTo := none }).journal = s.journal := rfl
  generalize (rotationDue s p q).modEngine p (fun e => { e with rotateTo := none }) = u at *
  obtain ⟨hserves, henters⟩ := beginHandover_entered u hne
  obtain ⟨x, hwaiting, htype⟩ := rotate_journal u p q
  refine ⟨x, ?_, ?_, ?_, ?_, ?_, by rw [hwaiting, hjournal], htype⟩
  · rw [rotate_engine, if_neg (Ne.symm hne), henters, hlogical]
  · rw [rotate_engine, if_neg (Ne.symm hne), hserves]
  · rw [rotate_engine, if_pos rfl]
  · rw [rotate_engine, if_pos rfl]
  · rw [rotate_engine, if_pos rfl]
    exact (beginHandover_left u hne).2

theorem exec_engineRetest {s : State} {p f : Nat} {fs : List Nat} (hmay : s.mayBegin = true) (hstate : (s.engine p).state = 2)
    (hassay : (s.engine p).underAssay = false) (hfences : (s.engine p).fences = fs ++ [f]) : exec (.engineRetest p) s
    = .next ((s.atElapsed (f + day)).modEngine p fun x => { x with underAssay := true }) := by
  change execEngineRetest p s = _
  simp only [execEngineRetest, hfences, List.getLast?_append, List.getLast?_singleton, Option.some_or, hmay, hstate, hassay, decide_true,
    Bool.not_false, Bool.and_self, if_true, done]

/-! ## Together -/

/-- Settles O42: an assay by its verdict and what `assayPass` and `assayFail` leave of the engine, a rotation by `rotation_effect`, a
decode engine by `decLeave_dec` and `dispatch_state`, and a handover by the cells that `get_foldl_set` reads back. -/
theorem enginesChangeState : Obligations.EnginesChangeState := by
  unfold Obligations.EnginesChangeState
  refine ⟨fun s p f fs hmay hstate hassay hfences => ?retest, fun s r hans hassay hbad hnone => ?failed,
    fun s r hans hassay hfixed hfew hnone hreference => ?passed, fun s r q hans hassay hfixed hfew hwaits hother hnone => ?second,
    fun s u g p q hmay hg hu hleaves henters hfree hrunning => ?rotation,
    fun s u d q hmay hu hspare hleaves hjob hfence => ?decLeaves, fun s u d q hmay hu hspare hleaves hjob => ?decWaits,
    fun s d hans hstate => ⟨?decPass, ?decFail⟩, fun s p q since bad hans hstored hfrom => ?copy, fun s p q since hans hfrom => ?noAnswer⟩
  case retest =>
    refine ⟨_, exec_engineRetest hmay hstate hassay hfences, ?_, ?_, ?_⟩
    · rw [State.modEngine_get, if_pos rfl]
    · rw [State.modEngine_get, if_pos rfl, State.atElapsed_engine, hstate]
    · exact State.atElapsed_elapsed (State.not_inReset_of_running (Bool.and_eq_true_iff.mp hmay).1) _
  case failed =>
    have hquiet : (assayEnds s r.engine false).flt.candidates = [] := by
      rw [← hnone, ← State.flt_of_erase (assayRecord_erase_whole s r.engine false) rfl]
      exact assayFail_candidates _ _
    obtain ⟨hreserve, hfenced⟩ := assayFail_engine (assayRecord s r.engine false) r.engine
    rw [State.engine_of_erase (assayRecord_erase_whole s r.engine false) rfl] at hreserve hfenced
    refine ⟨_, assayTold s r.engine false, exec_engineAssayComplete hans hassay (judgeDigest_of_bad hbad hnone), ?_⟩
    rw [endWaiting_of_empty hquiet]
    exact ⟨assayEnds_record s r.engine false, rfl, rfl, rfl, hreserve, hfenced⟩
  case passed =>
    have hquiet : (assayEnds s r.engine true).flt.candidates = [] := by rw [assayEnds_pass_flt, hnone]
    obtain ⟨hidle, hretest, hstays⟩ := assayPass_engine (assayRecord s r.engine true) r.engine
    rw [State.engine_of_erase (assayRecord_erase_whole s r.engine true) rfl] at hretest hstays
    refine ⟨_, assayTold s r.engine true, exec_engineAssayComplete hans hassay (judgeDigest_of_reference hfixed hfew hreference), ?_⟩
    rw [endWaiting_of_empty hquiet]
    refine ⟨assayEnds_record s r.engine true, rfl, rfl, rfl, hidle, fun hstate => ?_, fun hstate hrecent => ?_, fun hstate hrecent => ?_⟩
    · obtain ⟨hkept, hpassed⟩ := hstays (by rw [hstate]; decide)
      exact ⟨hkept.trans hstate, hpassed⟩
    · exact (hretest hstate).trans (if_pos hrecent)
    · exact (hretest hstate).trans (if_neg (Nat.not_le.mpr hrecent))
  case second =>
    refine ⟨_, exec_engineAssayComplete hans hassay (judgeDigest_of_second hfixed hfew hwaits hother hnone), endWaiting_reference ?_ ?_⟩
    · rw [assayEnds_pass_flt]
    · rw [assayEnds_pass_flt]
      simp [hwaits]
  case rotation =>
    subst hu
    obtain ⟨hmem, hstate⟩ := oldestAssay_serves hleaves
    obtain ⟨x, hlogical, hserves, hreserve, hassay, hindex, hwaiting, htype⟩ :=
      rotation_effect hmem hstate (by rwa [State.atElapsed_engine]) (spareFor_reserve henters) hfree
    rw [State.atElapsed_engine] at hlogical
    rw [State.atElapsed_journal] at hwaiting
    exact ⟨_, x, exec_engineRotation hmay hg hleaves henters hfree, hlogical, hserves, hreserve, hassay, hindex, hwaiting, htype⟩
  case decLeaves =>
    subst hu
    have hdecs : (toDecodeRotation s).dec d = s.dec d := State.dec_of_erase (toDecodeRotation_erase s (Nat.and_self _)) rfl d
    have htold := decTold_dec (toDecodeRotation s) d d
    rw [if_pos rfl, hdecs] at htold
    have hserves := (decTold_state (toDecodeRotation s) d d).trans (rotatingDec_serves hleaves)
    obtain ⟨hleft, hentered⟩ := decLeave_dec (s := decTold (toDecodeRotation s) d) (by rw [htold, ← hjob]) (by rw [htold])
      (by rw [htold, ← hfence]) hserves ((decSpare_congr (decTold_state (toDecodeRotation s) d)).trans hspare)
    exact ⟨_, _, exec_decodeRotation hmay hspare hleaves, hleft, hentered, State.mem_emit_waiting.mpr (.inl rfl), rfl⟩
  case decWaits =>
    subst hu
    have hdecs : (toDecodeRotation s).dec d = s.dec d := State.dec_of_erase (toDecodeRotation_erase s (Nat.and_self _)) rfl d
    have htold := decTold_dec (toDecodeRotation s) d d
    rw [if_pos rfl] at htold
    have hserves := (decTold_state (toDecodeRotation s) d d).trans (rotatingDec_serves hleaves)
    refine ⟨_, exec_decodeRotation hmay hspare hleaves, ?_⟩
    rw [decLeave_of_busy (by rw [htold, hdecs]; exact hjob)]
    exact ⟨congrArg DecEngine.leaving htold, hserves⟩
  case decPass =>
    refine ⟨_, exec_decodeAssayComplete_of_pass hans hstate, ?_⟩
    rw [dispatch_state, State.dec_of_erase (setDDec_erase _ (Nat.and_self _)) rfl, State.modDec_get, if_pos rfl, decAssayed_inService]
  case decFail =>
    refine ⟨_, exec_decodeAssayComplete_of_fail hans hstate, ?_, ?_⟩
    · rw [State.dec_of_erase (setDDec_erase _ (Nat.and_self _)) rfl, State.dec_of_erase (capacityChanged_erase _ _ (Nat.and_self _)) rfl,
        State.dec_of_erase (State.fenceEvent_erase _ _ _ _ (Nat.and_self _)) rfl, State.modDec_get, if_pos rfl]
    · rw [State.flt_of_erase (setDDec_erase _ (Nat.and_self _)) rfl, State.flt_of_erase (capacityChanged_erase _ _ (Nat.and_self _)) rfl]
      rfl
  case copy =>
    obtain ⟨hmem, hvoids⟩ := handoverEnded_memory (handoverRead s p q bad) p s.time.elapsed
    have hbyte (a : Nat) : (handoverEnded (handoverRead s p q bad) p s.time.elapsed).byte a = (handoverCopied s p q).byte a :=
      (byte_of_mem hmem a).trans (State.byte_of_erase (handoverRead_erase s p q bad) rfl a)
    refine ⟨_, exec_engineHandoverCopyComplete hans hfrom bad, handoverEnded_handoverFrom _ _ _, fun i hi => ?_, fun a ha => ?_,
      fun g hg hlow => ?_⟩
    · rw [hbyte, handoverCopied_byte_inside s p q hstored.1 hi]
    · rw [hbyte, handoverCopied_byte_outside s p q ha]
    · refine State.anyVoid_iff.mpr ⟨granule (engineBase p) + g, ?_, hvoids ▸ mem_handoverRead s p q hg hlow⟩
      rw [mem_granulesOf, granule, engineBase]
      omega
  case noAnswer =>
    refine ⟨_, exec_handoverNoAnswer hans hfrom, handoverEnded_handoverFrom _ _ _, fun i hi hbyte => ?_, fun a => ?_⟩
    · have hsame : (s.atElapsed (since + 100000)).byte (engineBase q + i) = s.byte (engineBase q + i) :=
        State.byte_of_erase (s.atElapsed_erase _ (Nat.and_self _)) rfl _
      have hlive := mem_liveGranules hi (hsame ▸ hbyte)
      rw [State.anyVoid_congr (handoverEnded_memory _ _ _).2]
      refine State.anyVoid_iff.mpr ⟨granule (engineBase p) + i / 64, ?_,
        mem_voids_foldl (fun t g => voidGranule_keeps p t g) hlive (fun t => mem_voidGranule p t _) _⟩
      rw [mem_granulesOf, granule, engineBase]
      omega
    · exact (byte_of_mem (handoverEnded_memory _ _ _).1 a).trans
        ((State.byte_of_erase (erase_foldl (fun t g => voidGranule_erase p t g) _ _) rfl a).trans
          (State.byte_of_erase (s.atElapsed_erase _ (Nat.and_self _)) rfl a))

end Sys2Proof.Machine

/-! Links, and the messages and datagrams that leave on them (18 R528, R533 to R536). -/

namespace Sys2Proof.Machine

/-! ## Frames (18 R527, R534) -/

theorem ethFrame_isEmpty (dst src etherType : Nat) (body : List Byte) : (ethFrame dst src etherType body).isEmpty = false := by
  rw [ethFrame, List.isEmpty_eq_false_iff]
  exact fun h => absurd (congrArg List.length h) (by simp [length_leBytes])

/-- A frame counted on a port. -/
def framed (s : State) (port code : Nat) (frame : List Byte) : State :=
  s.modNet port fun n => { n with out := n.out ++ [code], tx := n.tx + 1, frames := n.frames ++ [frame] }

theorem transmit_eq {s : State} {port : Nat} (code : Nat) {frame : List Byte} (hup : s.portUp port = true) (hframe : frame.isEmpty = false) :
    transmit s port code frame = framed s port code frame := by
  rw [transmit, if_pos hup]
  simp only [hframe, Bool.false_eq_true, if_false, framed]

theorem framed_netPort (s : State) (port code : Nat) (frame : List Byte) : (framed s port code frame).netPort port = { s.netPort port with
    out := (s.netPort port).out ++ [code], tx := (s.netPort port).tx + 1, frames := (s.netPort port).frames ++ [frame] } := by
  rw [framed, State.modNet_get, if_pos rfl]

/-- What a message to a peer is made of besides the peer: the ports, the pins, the configuration and the fuses. -/
structure SameLink (s t : State) : Prop where
  nets : t.nets = s.nets
  pins : t.pins = s.pins
  cfg : t.cfg = s.cfg
  fuses : t.fuses = s.fuses

namespace SameLink

variable {s t : State} (h : SameLink s t)
include h

theorem netPort (n : Nat) : t.netPort n = s.netPort n := by rw [State.netPort, State.netPort, h.nets]

theorem portUp (n : Nat) : t.portUp n = s.portUp n := by rw [State.portUp, State.portUp, h.netPort, h.pins]

theorem sanorOn (n : Nat) : t.sanorOn n = s.sanorOn n := by rw [State.sanorOn, State.sanorOn, h.cfg]

theorem portMac (n : Nat) : t.portMac n = s.portMac n := by rw [State.portMac, State.portMac, h.fuses]

theorem sanorPort {d : Nat} (hport : (t.peer d).port = (s.peer d).port) : t.sanorPort d = s.sanorPort d := by
  simp only [State.sanorPort, hport, h.portUp, h.sanorOn]

theorem sanorMessage (dst ack : Nat) (m : Msg) : sanorMessage t dst ack m = Machine.sanorMessage s dst ack m := by
  simp only [Machine.sanorMessage, sanorHeader, h.cfg]

end SameLink

section
variable (s : State) (d : Nat) (m : Msg)

theorem sendSanor_lnk : (sendSanor s d m).lnk = { s.lnk with sent := s.lnk.sent + 1 } :=
  keeps_lnk (transmit_erase { s with lnk := { s.lnk with sent := s.lnk.sent + 1 } } (s.sanorPort d) outSanor
    (ethFrame (s.peer d).mac (s.portMac (s.sanorPort d)) 0x88B5 (sanorMessage s d (s.peer d).received m)) (Nat.and_self _)) rfl

theorem sendSanor_peer (e : Nat) : (sendSanor s d m).peer e = s.peer e := by rw [State.peer, State.peer, sendSanor_lnk]

theorem sendSanor_time : (sendSanor s d m).time = s.time := keeps_time (sendSanor_erase s d m (Nat.and_self _)) rfl

theorem sendSanor_frames (hup : s.portUp (s.sanorPort d) = true) : ((sendSanor s d m).netPort (s.sanorPort d)).frames
    = (s.netPort (s.sanorPort d)).frames
      ++ [ethFrame (s.peer d).mac (s.portMac (s.sanorPort d)) 0x88B5 (sanorMessage s d (s.peer d).received m)] := by
  have hsent : ({ s with lnk := { s.lnk with sent := s.lnk.sent + 1 } } : State).portUp (s.sanorPort d) = true := hup
  rw [sendSanor]
  dsimp only
  rw [transmit_eq outSanor hsent (ethFrame_isEmpty _ _ _ _), framed_netPort]
  rfl

end

/-! ## The commands -/

theorem exec_netLinkChange {s : State} {n mode : Nat} (up lock : Bool) (hans : s.answers = true) (hn : n < 2)
    (hidle : (if n = 0 then s.pins.ethIdle0 else s.pins.ethIdle1) = false) : exec (.netLinkChange n up lock mode) s
    = .next (linkChange s n (up && lock && (mode == 1 || mode == 2) && !s.pins.refLostEth) mode) := by
  change execNetLinkChange n up lock mode s = _
  simp only [execNetLinkChange, hans, hn, hidle, decide_true, Bool.not_false, Bool.and_self, if_true, done]

theorem exec_sanorAck {s : State} {d : Nat} (ack : Nat) (hrun : s.running = true) (hon : s.sanorOn 0 = true ∨ s.sanorOn 1 = true)
    (hjoined : (s.peer d).joined = true) : exec (.sanorAck d ack) s = .next (takeAck s d ack) := by
  change execSanorAck d ack s = _
  rw [execSanorAck, if_pos (by simpa [hrun, hjoined] using hon)]
  rfl

/-- A peer that is owed no acknowledgement. -/
def ackSettled (s : State) (d : Nat) : State := s.modPeer d fun p => { p with ackDue := none }

theorem ackSettled_peer (s : State) (d : Nat) : (ackSettled s d).peer d = { s.peer d with ackDue := none } := by
  rw [ackSettled, State.modPeer_get, if_pos rfl]

theorem exec_sanorAckDue {s : State} {d h : Nat} (htakes : s.sanorTakes = true) (hdue : (s.peer d).ackDue = some h) :
    exec (.sanorAckDue d) s = .next (sendSanor (ackSettled (s.atElapsed h) d) d { seq := 0, type := 2 }) := by
  change execSanorAckDue d s = _
  rw [execSanorAckDue, hdue]
  dsimp only
  rw [if_pos htakes]
  rfl

/-- A message that is sent once more. -/
def againSent (s : State) (d q : Nat) (m : Msg) : State :=
  { s.modPeer d fun p => { p with unacked := p.unacked.map fun x =>
      if x.seq = q then { m with tries := m.tries + 1, sent := s.time.elapsed } else x } with
    lnk := { (s.modPeer d fun p => { p with unacked := p.unacked.map fun x =>
      if x.seq = q then { m with tries := m.tries + 1, sent := s.time.elapsed } else x }).lnk with retrans := s.lnk.retrans + 1 } }

/-- A message that is given up. -/
def givenUp (s : State) (d q : Nat) : State := s.modPeer d fun p => { p with unacked := p.unacked.filter fun x => x.seq != q }

section
variable {s : State} {d q : Nat} {m : Msg} (htakes : s.sanorTakes = true) (hfind : ((s.peer d).unacked.find? fun m => m.seq == q) = some m)
include htakes hfind

theorem exec_sanorRetransmit_again (hfew : m.tries < 5) : exec (.sanorRetransmit d q) s
    = .next (sendSanor (againSent (s.atElapsed (m.sent + 2000000)) d q m) d
      { m with tries := m.tries + 1, sent := (s.atElapsed (m.sent + 2000000)).time.elapsed }) := by
  change execSanorRetransmit d q s = _
  rw [execSanorRetransmit, hfind]
  dsimp only
  rw [if_neg (by simp [htakes]), if_pos hfew]
  rfl

theorem exec_sanorRetransmit_givenUp (hmany : 5 ≤ m.tries) : exec (.sanorRetransmit d q) s
    = .next (if m.type = msgHandover then expireHandover (givenUp (s.atElapsed (m.sent + 2000000)) d q) m.handle
      else givenUp (s.atElapsed (m.sent + 2000000)) d q) := by
  change execSanorRetransmit d q s = _
  rw [execSanorRetransmit, hfind]
  dsimp only
  rw [if_neg (by simp [htakes]), if_neg (by omega)]
  rfl

end

theorem givenUp_unacked (s : State) (d q : Nat) : ∀ x ∈ ((givenUp s d q).peer d).unacked, x.seq ≠ q := by
  intro x hx
  rw [givenUp, State.modPeer_get, if_pos rfl] at hx
  simpa using (List.mem_filter.mp hx).2

theorem expireHandover_lnk (s : State) (handle : Nat) : (expireHandover s handle).lnk = s.lnk :=
  keeps_lnk (expireHandover_erase s handle (Nat.and_self _)) rfl

theorem againSent_peer (s : State) (d q : Nat) (m : Msg) : (againSent s d q m).peer d = { s.peer d with
    unacked := (s.peer d).unacked.map fun x => if x.seq = q then { m with tries := m.tries + 1, sent := s.time.elapsed } else x } := by
  have hpeer : (againSent s d q m).peer d = (s.modPeer d fun p => { p with unacked := p.unacked.map fun x =>
      if x.seq = q then { m with tries := m.tries + 1, sent := s.time.elapsed } else x }).peer d := rfl
  rw [hpeer, State.modPeer_get, if_pos rfl]

/-! ## Heartbeats (18 R534, R536) -/

/-- The heartbeat of this device on a port. -/
def heartbeatOf (s : State) (p : PeerSettings) (n : Nat) : Heartbeat where
  device := p.device
  identifier := s.fuses.deviceId
  state := s.linkState
  able := s.ableRegions.length
  freeDecode := s.freeDecode
  epoch := s.stl.epoch.toNat
  charter := s.boot.charterVersion
  interval := p.interval
  mac := s.portMac n
  ack := 0

/-- A heartbeat counted and sent. -/
def heartbeatSent (s : State) (p : PeerSettings) (n : Nat) : State :=
  (transmit { s with lnk := { s.lnk with sent := s.lnk.sent + 1 } } n outHeartbeat (heartbeatFrame s n (heartbeatOf s p n))).modNet n fun x =>
    { x with heartbeat := some (heartbeatOf s p n) }

theorem exec_heartbeatSend {s : State} {n : Nat} {p : PeerSettings} (hrun : s.running = true) (hon : s.sanorOn n = true)
    (hpeer : s.cfg.peer = some p) (hup : (s.atMultiple (p.interval * 1000000)).portUp n = true) :
    exec (.heartbeatSend n) s = .next (heartbeatSent (s.atMultiple (p.interval * 1000000)) p n) := by
  change execHeartbeatSend n s = _
  rw [execHeartbeatSend, hpeer]
  dsimp only
  rw [if_neg (by simp [hrun, hon]), if_neg (by simp [hup])]
  rfl

section
variable {s : State} {p : PeerSettings} {n : Nat} (hup : s.portUp n = true)
include hup

theorem heartbeatSent_eq : heartbeatSent s p n = (framed { s with lnk := { s.lnk with sent := s.lnk.sent + 1 } } n outHeartbeat
    (heartbeatFrame s n (heartbeatOf s p n))).modNet n fun x => { x with heartbeat := some (heartbeatOf s p n) } := by
  have hsent : ({ s with lnk := { s.lnk with sent := s.lnk.sent + 1 } } : State).portUp n = true := hup
  have hframe : (heartbeatFrame s n (heartbeatOf s p n)).isEmpty = false := ethFrame_isEmpty _ _ _ _
  rw [heartbeatSent, transmit_eq outHeartbeat hsent hframe]

theorem heartbeatSent_netPort : (heartbeatSent s p n).netPort n = { s.netPort n with
    out := (s.netPort n).out ++ [outHeartbeat], tx := (s.netPort n).tx + 1
    frames := (s.netPort n).frames ++ [heartbeatFrame s n (heartbeatOf s p n)], heartbeat := some (heartbeatOf s p n) } := by
  rw [heartbeatSent_eq hup, State.modNet_get, if_pos rfl, framed_netPort]
  rfl

theorem heartbeatSent_lnk : (heartbeatSent s p n).lnk = { s.lnk with sent := s.lnk.sent + 1 } := by
  rw [heartbeatSent_eq hup]
  rfl

end

/-- The frame of a heartbeat speaks of the configuration, the fuses and the time. -/
theorem heartbeatFrame_congr {s t : State} (hcfg : t.cfg = s.cfg) (hfuses : t.fuses = s.fuses) (htime : t.time = s.time) (n : Nat) (h : Heartbeat) :
    heartbeatFrame t n h = heartbeatFrame s n h := by
  simp only [heartbeatFrame, sanorMessage, sanorHeader, heartbeatBytes, State.portMac, hcfg, hfuses, htime]

theorem heartbeatSent_frame (s : State) (p : PeerSettings) (n : Nat) (h : Heartbeat) :
    heartbeatFrame (heartbeatSent s p n) n h = heartbeatFrame s n h := by
  have herase : (heartbeatSent s p n).erase 0x300000000 = s.erase 0x300000000 :=
    (State.modNet_erase _ _ _ rfl).trans (transmit_erase { s with lnk := { s.lnk with sent := s.lnk.sent + 1 } } n outHeartbeat _ rfl)
  exact heartbeatFrame_congr (keeps_cfg herase rfl) (keeps_fuses herase rfl) (keeps_time herase rfl) n h

/-! ## Export datagrams (18 R533) -/

/-- The moment of a datagram: when eleven records wait, at once. -/
def exportMoment (s : State) (e : Nat) : State :=
  if (Table.get [] e s.lnk.exports).length < 11 then s.atElapsed (Table.get 0 e s.lnk.exportSince + 1000000 - 1) else s

theorem exportMoment_erase (s : State) (e : Nat) {mk : Nat} (hk : 0x400 &&& mk = 0x400) : (exportMoment s e).erase mk = s.erase mk := by
  unfold exportMoment
  split
  · exact State.atElapsed_erase _ _ hk
  · rfl

/-- The records of a datagram: those that are not void. -/
def exportRecords (s : State) (e : Nat) : List Rec :=
  ((Table.get [] e s.lnk.exports).take 11).filter fun r => !s.recordVoid r.seq

/-- The records of a datagram leave the list. -/
def exportTaken (s : State) (e : Nat) : State :=
  { exportMoment s e with lnk := { (exportMoment s e).lnk with
      exports := Table.set [] e ((Table.get [] e s.lnk.exports).drop 11) (exportMoment s e).lnk.exports
      exportSince := Table.set 0 e (if ((Table.get [] e s.lnk.exports).drop 11).isEmpty then 0 else (exportMoment s e).time.elapsed + 1)
        (exportMoment s e).lnk.exportSince } }

theorem exportTaken_erase (s : State) (e : Nat) : (exportTaken s e).erase 0x200000400 = s.erase 0x200000400 :=
  Eq.trans (b := (exportMoment s e).erase 0x200000400) rfl (exportMoment_erase s e rfl)

theorem State.recordVoid_congr {s t : State} (hlayout : t.layout = s.layout) (hcfg : t.cfg = s.cfg) (hvoids : t.voids = s.voids) (seq : Nat) :
    t.recordVoid seq = s.recordVoid seq := by
  simp only [State.recordVoid, State.recordAddr, State.reserveSlots, hlayout, hcfg]
  exact State.anyVoid_congr hvoids _ _

theorem exportVoid_eq (s : State) (e : Nat) : (fun r : Rec => !(if (Table.get [] e s.lnk.exports).length < 11
      then s.atElapsed (Table.get 0 e s.lnk.exportSince + 1000000 - 1) else s).recordVoid r.seq) = fun r => !s.recordVoid r.seq := by
  funext r
  change (!(exportMoment s e).recordVoid r.seq) = _
  have herase : (exportMoment s e).erase 0x400 = s.erase 0x400 := exportMoment_erase s e rfl
  rw [State.recordVoid_congr (keeps_layout herase rfl) (keeps_cfg herase rfl) (keeps_voids herase rfl)]

section
variable {s : State} {e : Nat} {p : PeerSettings} (hrun : s.running = true) (hpeer : s.cfg.peer = some p)
  (hwaits : Table.get [] e s.lnk.exports ≠ [])
include hrun hpeer hwaits

/-- EXPORT_DATAGRAM_SEND: the records are dropped where the port cannot send. -/
theorem exec_exportDatagramSend : exec (.exportDatagramSend e) s = .next (
    if ((exportTaken s e).netPort (p.dests.getD e {}).port).state ≠ 2 ∨ (exportTaken s e).pins.ethIdle0 ∧ (p.dests.getD e {}).port = 0
        ∨ (exportTaken s e).pins.ethIdle1 ∧ (p.dests.getD e {}).port = 1 then
      { exportTaken s e with lnk := { (exportTaken s e).lnk with
          exportDropped := (exportTaken s e).lnk.exportDropped + (exportRecords s e).length } }
    else if (exportRecords s e).isEmpty then exportTaken s e
    else framed (exportTaken s e) (p.dests.getD e {}).port 7 (exportDatagram p.device (exportRecords s e))) := by
  change execExportDatagramSend e s = _
  rw [execExportDatagramSend, hpeer]
  dsimp only
  rw [if_neg (by simp [hrun, hwaits]), exportVoid_eq]
  rfl

theorem exec_exportDatagramSend_of_up (hup : s.portUp (p.dests.getD e {}).port = true) (hport : (p.dests.getD e {}).port < 2)
    (hsome : exportRecords s e ≠ []) : exec (.exportDatagramSend e) s
    = .next (framed (exportTaken s e) (p.dests.getD e {}).port 7 (exportDatagram p.device (exportRecords s e))) := by
  rw [exec_exportDatagramSend hrun hpeer hwaits, State.netPort, keeps_nets (exportTaken_erase s e) rfl, keeps_pins (exportTaken_erase s e) rfl,
    if_neg ?_, if_neg (by simpa using hsome)]
  generalize (p.dests.getD e {}).port = port at *
  obtain ⟨hstate, hidle⟩ : (s.netPort port).state = 2 ∧ (if port = 0 then s.pins.ethIdle0 else s.pins.ethIdle1) = false := by
    simpa [State.portUp] using hup
  rintro (hno | ⟨hidle0, rfl⟩ | ⟨hidle1, rfl⟩)
  · exact hno hstate
  · exact absurd hidle0 (by simpa using hidle)
  · exact absurd hidle1 (by simpa using hidle)

theorem exec_exportDatagramSend_of_down (hdown : (s.netPort (p.dests.getD e {}).port).state ≠ 2) : exec (.exportDatagramSend e) s
    = .next { exportTaken s e with lnk := { (exportTaken s e).lnk with
        exportDropped := (exportTaken s e).lnk.exportDropped + (exportRecords s e).length } } := by
  have hlink : ((exportTaken s e).netPort (p.dests.getD e {}).port).state ≠ 2 := by
    rwa [State.netPort, keeps_nets (exportTaken_erase s e) rfl]
  rw [exec_exportDatagramSend hrun hpeer hwaits, if_pos (.inl hlink)]

end

end Sys2Proof.Machine

/-! Peers: their heartbeats, their loss and the failover of their rows (18 R536, R537, R540, R543). -/

namespace Sys2Proof.Machine

theorem State.lnkRecord_peer (s : State) (type cls status : Nat) (p : LnkPl) (inst d : Nat) :
    (s.lnkRecord type cls status p inst).peer d = s.peer d := rfl

theorem RecordsAdded.lnkRecord (s : State) (type cls status : Nat) (p : LnkPl) (inst : Nat) :
    RecordsAdded s (s.lnkRecord type cls status p inst) := .emit _ _

/-- A record of the link chapter is among those that wait. -/
theorem State.exists_mem_lnkRecord (s : State) (type cls status : Nat) (p : LnkPl) (inst : Nat) :
    ∃ x ∈ (s.lnkRecord type cls status p inst).journal.waiting, x.type = type :=
  ⟨_, State.mem_emit_waiting.mpr (.inl rfl), rfl⟩

/-! ## Failover -/

section
variable (s : State) (es : List Entry) (new : Cfg) (n : Nat) (adoption failover : Bool) (overlay : Option (List OverlayItem))

theorem internalBatch_journal : (internalBatch s es new n adoption failover overlay).journal = s.journal :=
  keeps_journal (internalBatch_erase s es new n adoption failover overlay (Nat.and_self _)) rfl

theorem internalBatch_lnk : (internalBatch s es new n adoption failover overlay).lnk = s.lnk :=
  keeps_lnk (internalBatch_erase s es new n adoption failover overlay (Nat.and_self _)) rfl

end

/-- What a failover changes: the rows taken of a peer, and it adds records. -/
structure FailsOver (s t : State) : Prop where
  peer : ∀ e, ∃ rows, t.peer e = { s.peer e with takenRows := rows }
  records : RecordsAdded s t

theorem FailsOver.refl (s : State) : FailsOver s s := ⟨fun e => ⟨(s.peer e).takenRows, rfl⟩, .of_journal rfl⟩

theorem FailsOver.taken {s t : State} {d : Nat} {rows : List Nat} (hpeer : ∀ e, t.peer e = s.peer e) (hjournal : t.journal = s.journal)
    (type cls status : Nat) (p : LnkPl) (inst : Nat) :
    FailsOver s ((t.modPeer d fun x => { x with takenRows := rows }).lnkRecord type cls status p inst) where
  peer e := by
    rw [State.lnkRecord_peer, State.modPeer_get]
    split
    · next he => exact ⟨rows, by rw [hpeer, he]⟩
    · exact ⟨(s.peer e).takenRows, hpeer e⟩
  records := .trans (.of_journal (t := t.modPeer d fun x => { x with takenRows := rows }) hjournal) (.lnkRecord _ _ _ _ _ _)

theorem failsOver_startFailover (s : State) (d : Nat) : FailsOver s (startFailover s d) := by
  unfold startFailover
  split
  · exact .refl s
  · dsimp only
    split
    · exact .refl s
    · split
      · exact ⟨fun e => ⟨(s.peer e).takenRows, rfl⟩, .of_journal rfl⟩
      · refine .taken (fun e => ?_) ?_ _ _ _ _ _
        · split
          · rfl
          · rw [State.peer, internalBatch_lnk]
            rfl
        · split
          · rfl
          · rw [internalBatch_journal]

/-! ## Heartbeats of peers (18 R536) -/

/-- A peer as its heartbeat shows it. -/
def heardPeer (s : State) (n : Nat) (h : Heartbeat) : Peer :=
  { s.peer h.device with
    joined := true, identifier := h.identifier, state := h.state, lastHeard := s.time.elapsed, interval := h.interval, port := n, mac := h.mac
    healthySince := if h.state = 0 ∨ h.state = 1 then some ((s.peer h.device).healthySince.getD s.time.elapsed) else none }

/-- A peer heard, and recorded when it was not among those joined. -/
def peerJoined (s : State) (n : Nat) (h : Heartbeat) : State :=
  if (s.peer h.device).joined then s.setPeer h.device (heardPeer s n h)
  else (s.setPeer h.device (heardPeer s n h)).lnkRecord 0x0801 ucLNK stOK
    { port := n, state := h.state, peer := h.device, identifier := h.identifier }

/-- The acknowledgement a heartbeat carries, taken. -/
def ackHeard (s : State) (h : Heartbeat) : State := if h.ack = 0 then s else takeAck s h.device h.ack

theorem peerHeard_eq (s : State) (n : Nat) (h : Heartbeat) : peerHeard s n h =
    if h.state = 3 ∨ h.state = 4 then startFailover (ackHeard (peerJoined s n h) h) h.device else ackHeard (peerJoined s n h) h := rfl

theorem peerJoined_peer (s : State) (n : Nat) (h : Heartbeat) : (peerJoined s n h).peer h.device = heardPeer s n h := by
  have hset : (s.setPeer h.device (heardPeer s n h)).peer h.device = heardPeer s n h := by rw [State.setPeer_get, if_pos rfl]
  unfold peerJoined
  split
  · exact hset
  · exact hset

theorem ackHeard_peer (s : State) (h : Heartbeat) :
    ∃ us, (ackHeard s h).peer h.device = { s.peer h.device with unacked := us } ∧ (h.ack = 0 → us = (s.peer h.device).unacked) := by
  unfold ackHeard
  split
  · exact ⟨_, rfl, fun _ => rfl⟩
  · next hack =>
    refine ⟨(s.peer h.device).unacked.filter fun m => !seqLe m.seq h.ack, ?_, fun h0 => absurd h0 hack⟩
    rw [takeAck, State.modPeer_get, if_pos rfl]

theorem failsOver_peerHeard (s : State) (n : Nat) (h : Heartbeat) : FailsOver (ackHeard (peerJoined s n h) h) (peerHeard s n h) := by
  rw [peerHeard_eq]
  split
  · exact failsOver_startFailover _ _
  · exact .refl _

/-- A peer is known by its heartbeat. -/
theorem peerHeard_peer (s : State) (n : Nat) (h : Heartbeat) : ∃ us rows,
    (peerHeard s n h).peer h.device = { heardPeer s n h with unacked := us, takenRows := rows }
      ∧ (h.ack = 0 → us = (s.peer h.device).unacked) := by
  obtain ⟨rows, hrows⟩ := (failsOver_peerHeard s n h).peer h.device
  obtain ⟨us, hus, hzero⟩ := ackHeard_peer (peerJoined s n h) h
  rw [peerJoined_peer] at hus hzero
  exact ⟨us, rows, by rw [hrows, hus], hzero⟩

theorem exists_joinRecord {s : State} {n : Nat} {h : Heartbeat} (hnew : (s.peer h.device).joined = false) :
    ∃ x ∈ (peerHeard s n h).journal.waiting, x.type = 0x0801 := by
  have hack : RecordsAdded (peerJoined s n h) (ackHeard (peerJoined s n h) h) := by
    unfold ackHeard
    split
    · exact .of_journal rfl
    · exact .of_journal rfl
  obtain ⟨x, hx, htype⟩ : ∃ x ∈ (peerJoined s n h).journal.waiting, x.type = 0x0801 := by
    rw [peerJoined, if_neg (by simp [hnew])]
    exact State.exists_mem_lnkRecord _ _ _ _ _ _
  exact ⟨x, (hack.trans (failsOver_peerHeard s n h).records).kept hx, htype⟩

section
variable {s : State} {n : Nat} {h : Heartbeat} {p : PeerSettings} (hrun : s.running = true) (hn : n < 2) (hon : s.sanorOn n = true)
  (hup : s.portUp n = true) (hpeer : s.cfg.peer = some p) (hdevice : h.device < 1024)
include hrun hn hon hup hpeer hdevice

theorem exec_sanorHeartbeat : exec (.sanorHeartbeat n h) s = .next (
    if h.device = p.device then (if h.identifier = s.fuses.deviceId then s else numberConflict s n h) else peerHeard s n h) := by
  change execSanorHeartbeat n h s = _
  rw [execSanorHeartbeat, hpeer]
  dsimp only
  rw [if_neg (by simp [hrun, hon, hup]; omega)]
  rfl

end

/-- Of two devices with one number the one of the higher identifier is isolated. -/
theorem numberConflict_isolated (s : State) (n : Nat) (h : Heartbeat) :
    (numberConflict s n h).lnk.isolated = (s.lnk.isolated || decide (h.identifier < s.fuses.deviceId)) := by
  unfold numberConflict
  split
  · next hkeep =>
    obtain hiso | hle := hkeep
    · simp [hiso]
    · simp [show ¬h.identifier < s.fuses.deviceId by omega]
  · next hmove =>
    have hlt : h.identifier < s.fuses.deviceId := by omega
    simp only [hlt, decide_true, Bool.or_true]
    rfl

theorem numberConflict_peers (s : State) (n : Nat) (h : Heartbeat) : (numberConflict s n h).lnk.peers = s.lnk.peers := by
  unfold numberConflict
  split
  · rfl
  · rfl

/-! ## Handovers to a lost peer -/

theorem RecordsAdded.handoverRecord {s u : State} (h : u.journal = s.journal) (handle status peer peerHandle : Nat) :
    RecordsAdded s (handoverRecord u handle status peer peerHandle) := .trans (.of_journal h) (.clrRecord _ _ _ _ _)

theorem RecordsAdded.expireHandover (s : State) (handle : Nat) : RecordsAdded s (expireHandover s handle) := by
  unfold Machine.expireHandover
  split
  · exact .of_journal rfl
  · apply RecordsAdded.handoverRecord
    rfl

/-- A handover that expires is still known. -/
theorem expireHandover_handles (s : State) (handle : Nat) :
    (expireHandover s handle).ledger.handovers.map (·.handle) = s.ledger.handovers.map (·.handle) := by
  unfold expireHandover
  split
  · rfl
  · next h hfind =>
    have hkept (t : State) (a b c : Nat) : (handoverRecord t handle a b c).ledger = t.ledger :=
      keeps_ledger (handoverRecord_erase t handle a b c (Nat.and_self _)) rfl
    rw [hkept, List.map_map]
    refine List.map_congr_left fun x _ => ?_
    simp only [Function.comp_apply, apply_ite Handover.handle, ite_self]

/-! ## Queries to a lost peer (18 R540) -/

theorem length_of_mem_entriesOf {d : Nat} {bs : List Byte} {x : Nat × List Byte} (hx : x ∈ entriesOf d bs) : x.2.length = 16 := by
  obtain ⟨i, hi, rfl⟩ := List.mem_map.mp hx
  have hi16 : i < bs.length / 16 := List.mem_range.mp hi
  simp only [piece, List.length_take, List.length_drop]
  omega

theorem mem_insertReply {x y : Nat × List Byte} {l : List (Nat × List Byte)} (hy : y ∈ insertReply x l) : y = x ∨ y ∈ l := by
  induction l with
  | nil => exact .inl (List.mem_singleton.mp hy)
  | cons z r ih =>
    rw [insertReply] at hy
    split at hy
    · exact List.mem_cons.mp hy
    · obtain rfl | hr := List.mem_cons.mp hy
      · exact .inr (List.mem_cons_self ..)
      · exact (ih hr).imp_right (List.mem_cons_of_mem z)

theorem mem_foldl_insertReply {y : Nat × List Byte} (xs acc : List (Nat × List Byte))
    (hy : y ∈ xs.foldl (fun acc x => insertReply x acc) acc) : y ∈ xs ∨ y ∈ acc := by
  induction xs generalizing acc with
  | nil => exact .inr hy
  | cons x r ih =>
    obtain hr | hacc := ih _ hy
    · exact .inl (List.mem_cons_of_mem x hr)
    · obtain rfl | hold := mem_insertReply hacc
      · exact .inl (List.mem_cons_self ..)
      · exact .inr hold

/-- The replies of a query, best first. -/
def replies (q : Query) : List (Nat × List Byte) :=
  ((q.entries.flatMap fun e => (entriesOf e.1 e.2).filter fun x => field x.2 0 4 != 0xFFFFFFFF).foldl
    (fun acc x => insertReply x acc) []).take q.k

/-- The bytes of a merged query: its entries, and the empty ones after them. -/
def mergedBytes (q : Query) : List Byte :=
  (replies q).flatMap (·.2) ++ (List.replicate (q.k - (replies q).length) (leBytes 4 0xFFFFFFFF ++ leBytes 12 0)).flatten

theorem mergeQuery_eq (s : State) (q : Query) : mergeQuery s q = { s.store q.out (mergedBytes q) with
    lnk := { (s.store q.out (mergedBytes q)).lnk with
      queries := (s.store q.out (mergedBytes q)).lnk.queries.filter fun x => x.number != q.number } } := rfl

theorem length_of_mem_replies {q : Query} {x : Nat × List Byte} (hx : x ∈ replies q) : x.2.length = 16 := by
  obtain hin | hnil := mem_foldl_insertReply _ _ (List.mem_of_mem_take hx)
  · obtain ⟨e, _, he⟩ := List.mem_flatMap.mp hin
    exact length_of_mem_entriesOf (List.mem_filter.mp he).1
  · exact absurd hnil List.not_mem_nil

theorem length_mergedBytes (q : Query) : (mergedBytes q).length = 16 * q.k := by
  have hentries : ((replies q).flatMap (·.2)).length = 16 * (replies q).length := by
    rw [List.length_flatMap, List.map_congr_left fun x hx => length_of_mem_replies hx, List.map_const', List.sum_replicate, smul_eq_mul,
      Nat.mul_comm]
  have hfew : (replies q).length ≤ q.k := List.length_take_le _ _
  rw [mergedBytes, List.length_append, hentries, List.length_flatten, List.map_replicate, List.sum_replicate, List.length_append, length_leBytes,
    length_leBytes, smul_eq_mul]
  omega

theorem mergeQuery_lnk (s : State) (q : Query) :
    (mergeQuery s q).lnk = { s.lnk with queries := s.lnk.queries.filter fun x => x.number != q.number } := by
  rw [mergeQuery_eq, keeps_lnk (State.store_erase s q.out (mergedBytes q) false (Nat.and_self _)) rfl]

theorem mergeQuery_byte_outside (s : State) (q : Query) {a : Nat} (hout : a < q.out ∨ q.out + 16 * q.k ≤ a) :
    (mergeQuery s q).byte a = s.byte a := by
  rw [mergeQuery_eq]
  exact State.store_byte_outside s q.out a (mergedBytes q) false (by rwa [length_mergedBytes])

/-- What the end of waiting for a peer may change: the queries that wait for it stay among those there were, no byte changes
outside their output areas, the peers stand and records are added. -/
structure MergesWithin (d : Nat) (s t : State) : Prop where
  queries : ∀ x ∈ t.lnk.queries, d ∈ x.waiting → ∃ y ∈ s.lnk.queries, d ∈ y.waiting ∧ y.out = x.out ∧ y.k = x.k
  bytes : ∀ a, (∀ q ∈ s.lnk.queries, d ∈ q.waiting → a < q.out ∨ q.out + 16 * q.k ≤ a) → t.byte a = s.byte a
  peers : t.lnk.peers = s.lnk.peers
  records : RecordsAdded s t

namespace MergesWithin

variable {d : Nat} {s t u : State}

theorem refl (d : Nat) (s : State) : MergesWithin d s s :=
  ⟨fun x hx hd => ⟨x, hx, hd, rfl, rfl⟩, fun _ _ => rfl, rfl, .of_journal rfl⟩

theorem trans (h : MergesWithin d s t) (g : MergesWithin d t u) : MergesWithin d s u where
  queries x hx hd := by
    obtain ⟨y, hy, hyd, hout, hk⟩ := g.queries x hx hd
    obtain ⟨z, hz, hzd, hzout, hzk⟩ := h.queries y hy hyd
    exact ⟨z, hz, hzd, hzout.trans hout, hzk.trans hk⟩
  bytes a ha := by
    refine (g.bytes a fun q hq hd => ?_).trans (h.bytes a ha)
    obtain ⟨y, hy, hyd, hout, hk⟩ := h.queries q hq hd
    rw [← hout, ← hk]
    exact ha y hy hyd
  peers := g.peers.trans h.peers
  records := h.records.trans g.records

theorem foldl {α : Type} {f : State → α → State} (h : ∀ s a, MergesWithin d s (f s a)) (l : List α) (s : State) :
    MergesWithin d s (l.foldl f s) := by
  induction l generalizing s with
  | nil => exact refl d s
  | cons a r ih => exact (h s a).trans (ih _)

/-- A query that waits for the peer is merged. -/
theorem merge {q : Query} (hq : q ∈ s.lnk.queries) (hd : d ∈ q.waiting) : MergesWithin d s (mergeQuery s q) where
  queries x hx hxd := ⟨x, by rw [mergeQuery_lnk] at hx; exact (List.mem_filter.mp hx).1, hxd, rfl, rfl⟩
  bytes a ha := mergeQuery_byte_outside s q (ha q hq hd)
  peers := by rw [mergeQuery_lnk]
  records := .of_journal (keeps_journal (mergeQuery_erase s q (Nat.and_self _)) rfl)

theorem mergePartial {q : Query} (hq : q ∈ s.lnk.queries) (hd : d ∈ q.waiting) : MergesWithin d s (mergePartial s q) where
  queries := (merge hq hd).queries
  bytes := (merge hq hd).bytes
  peers := (merge hq hd).peers
  records := (merge hq hd).records.trans (.lnkRecord _ _ _ _ _ _)

end MergesWithin

/-- The queries of a number become one that is merged with what there is. -/
def queriesMarked (s : State) (number : Nat) (q : Query) : State :=
  { s with lnk := { s.lnk with queries := s.lnk.queries.map fun x => if x.number = number then { q with partialMerge := true } else x } }

section
variable {s : State} {number d : Nat} {q : Query} (hq : q ∈ s.lnk.queries) (hd : d ∈ q.waiting)
include hq

theorem mem_queriesMarked (hnumber : q.number = number) : { q with partialMerge := true } ∈ (queriesMarked s number q).lnk.queries :=
  List.mem_map.mpr ⟨q, hq, if_pos hnumber⟩

include hd in
theorem mergesWithin_queriesMarked : MergesWithin d s (queriesMarked s number q) where
  queries x hx hxd := by
    obtain ⟨y, hy, rfl⟩ := List.mem_map.mp hx
    split
    · exact ⟨q, hq, hd, rfl, rfl⟩
    · next hother => exact ⟨y, hy, by rwa [if_neg hother] at hxd, rfl, rfl⟩
  bytes _ _ := rfl
  peers := rfl
  records := .of_journal rfl

end

/-- The loss of a peer settles its part of a query. -/
theorem mergesWithin_settleReply (s : State) (number d : Nat) : MergesWithin d s (settleReply s number d none) := by
  unfold settleReply
  split
  · exact .refl d s
  · next q hfind =>
    have hq : q ∈ s.lnk.queries := List.mem_of_find?_eq_some hfind
    obtain ⟨hnumber, hd⟩ : q.number = number ∧ d ∈ q.waiting := by simpa using List.find?_some hfind
    have hmarked : MergesWithin d s (queriesMarked s number q) := mergesWithin_queriesMarked hq hd
    have hin := mem_queriesMarked hq hnumber
    dsimp only
    split
    · exact hmarked.trans (.merge hin hd)
    · split
      · exact hmarked.trans (.mergePartial hin hd)
      · exact hmarked

/-! ## The loss of a peer (18 R536) -/

/-- A peer that is gone, recorded. -/
def peerGone (s : State) (d : Nat) : State :=
  (s.setPeer d { s.peer d with joined := false, unacked := [], ackDue := none, healthySince := none, nextSeq := 0, received := 0 }).lnkRecord
    0x0802 ucLNK stOK { port := (s.peer d).port, state := (s.peer d).state, peer := d, identifier := (s.peer d).identifier }

/-- The handovers to a peer time out. -/
def handoversExpired (s : State) (d : Nat) : State :=
  ((s.ledger.handovers.filter fun x => x.peer == d && !x.expired).map (·.handle)).foldl expireHandover s

/-- The queries that wait for a peer merge without it. -/
def queriesSettled (s : State) (d : Nat) : State :=
  ((s.lnk.queries.filter fun q => q.waiting.contains d).map (·.number)).foldl (fun a n => settleReply a n d none) s

theorem losePeer_eq (s : State) (d : Nat) :
    losePeer s d = startFailover (queriesSettled (handoversExpired (peerGone s d) d) d) d := rfl

theorem peerGone_peer (s : State) (d : Nat) : (peerGone s d).peer d
    = { s.peer d with joined := false, unacked := [], ackDue := none, healthySince := none, nextSeq := 0, received := 0 } := by
  rw [peerGone, State.lnkRecord_peer, State.setPeer_get, if_pos rfl]

theorem handoversExpired_erase (s : State) (d : Nat) {mk : Nat} (hk : 0x1000800 &&& mk = 0x1000800) :
    (handoversExpired s d).erase mk = s.erase mk :=
  erase_foldl (fun t a => expireHandover_erase t a hk) _ _

theorem handoversExpired_handles (s : State) (d : Nat) :
    (handoversExpired s d).ledger.handovers.map (·.handle) = s.ledger.handovers.map (·.handle) :=
  foldl_keeps (fun t => t.ledger.handovers.map (·.handle)) expireHandover_handles _ s

theorem RecordsAdded.handoversExpired (s : State) (d : Nat) : RecordsAdded s (handoversExpired s d) :=
  .foldl .expireHandover _ s

theorem mergesWithin_queriesSettled (s : State) (d : Nat) : MergesWithin d s (queriesSettled s d) :=
  .foldl (fun t n => mergesWithin_settleReply t n d) _ s

theorem queriesSettled_ledger (s : State) (d : Nat) : (queriesSettled s d).ledger = s.ledger :=
  foldl_keeps (·.ledger) (fun t n => keeps_ledger (settleReply_erase t n d none (Nat.and_self _)) rfl) _ s

section
variable (s : State) (d : Nat)

theorem losePeer_peer : ∃ rows, (losePeer s d).peer d = { (peerGone s d).peer d with takenRows := rows } := by
  obtain ⟨rows, hrows⟩ := (failsOver_startFailover (queriesSettled (handoversExpired (peerGone s d) d) d) d).peer d
  have hlnk : (handoversExpired (peerGone s d) d).lnk = (peerGone s d).lnk := keeps_lnk (handoversExpired_erase _ _ (Nat.and_self _)) rfl
  refine ⟨rows, ?_⟩
  rw [losePeer_eq, hrows, State.peer, (mergesWithin_queriesSettled _ d).peers, hlnk]
  rfl

theorem RecordsAdded.losePeer : RecordsAdded (peerGone s d) (losePeer s d) := by
  rw [losePeer_eq]
  exact ((RecordsAdded.handoversExpired _ d).trans (mergesWithin_queriesSettled _ d).records).trans (failsOver_startFailover _ d).records

theorem exists_lossRecord : ∃ x ∈ (losePeer s d).journal.waiting, x.type = 0x0802 := by
  obtain ⟨x, hx, htype⟩ : ∃ x ∈ (peerGone s d).journal.waiting, x.type = 0x0802 := State.exists_mem_lnkRecord _ _ _ _ _ _
  exact ⟨x, (RecordsAdded.losePeer s d).kept hx, htype⟩

theorem losePeer_handles : (losePeer s d).ledger.handovers.map (·.handle) = s.ledger.handovers.map (·.handle) := by
  have hledger : (losePeer s d).ledger = (handoversExpired (peerGone s d) d).ledger := by
    rw [losePeer_eq]
    exact (keeps_ledger (startFailover_erase _ d (Nat.and_self _)) rfl).trans (queriesSettled_ledger _ d)
  rw [hledger, handoversExpired_handles]
  rfl

/-- The bytes outside the output areas of the queries that waited for the peer stand. -/
theorem losePeer_byte {a : Nat} (ha : ∀ q ∈ s.lnk.queries, d ∈ q.waiting → a < q.out ∨ q.out + 16 * q.k ≤ a) :
    (losePeer s d).byte a = s.byte a := by
  have hexpired : (handoversExpired (peerGone s d) d).erase 0x1000800 = (peerGone s d).erase 0x1000800 := handoversExpired_erase _ _ rfl
  rw [losePeer_eq, State.byte_of_erase (startFailover_erase _ d (Nat.and_self _)) rfl a]
  refine ((mergesWithin_queriesSettled _ d).bytes a ?_).trans (State.byte_of_erase hexpired rfl a)
  rw [keeps_lnk hexpired rfl]
  exact ha

end

theorem exec_peerLost {s : State} {d : Nat} {c : PeerSettings} (hrun : s.running = true) (hpeer : s.cfg.peer = some c)
    (hjoined : (s.peer d).joined = true) : exec (.peerLost d) s = .next (losePeer (s.atElapsed ((s.peer d).lastHeard
      + c.miss * (if (s.peer d).interval = 0 then c.interval else (s.peer d).interval) * 1000000)) d) := by
  change execPeerLost d s = _
  rw [execPeerLost, hpeer]
  dsimp only
  rw [if_neg (by simp [hrun, hjoined])]
  rfl

end Sys2Proof.Machine

/-! The rows a backup gives back, and the settlement of links, peers and delivery (18 R528, R533 to R537, R543, R544). -/

namespace Sys2Proof.Machine

/-! ## The rows given back (18 R544) -/

/-- The entries that delete the rows taken of a peer. -/
def releaseEntries (p : Peer) : List Entry :=
  p.takenRows.map fun n => { kind := 3, flags := 0, table := 4, index := n, value := 0, mask := 0, rest := 0 }

/-- The configuration without the rows taken of a peer. -/
def releaseCfg (c : Cfg) (p : Peer) : Cfg := { c with streams := c.streams.filter fun e => !p.takenRows.contains e.1 }

theorem not_mem_takenRows_of_releaseCfg {c : Cfg} {p : Peer} : ∀ e ∈ (releaseCfg c p).streams, e.1 ∉ p.takenRows := by
  intro e he
  simpa using (List.mem_filter.mp he).2

/-- The batch that gives the rows back, 5 ms from now. -/
def releaseStaged (s : State) (p : Peer) : State :=
  internalBatch s (releaseEntries p) (releaseCfg s.cfg p) (s.time.now + 5000000) false false

/-- The rows given back, recorded. -/
def rowsReleased (s : State) (d : Nat) (p : Peer) : State :=
  (s.modPeer d fun x => { x with takenRows := [] }).lnkRecord 0x0805 ucLNK stOK
    { state := p.state, peer := d, identifier := p.identifier, count := p.takenRows.length }

theorem exec_failoverRelease {s : State} {d h : Nat} (hrun : s.running = true) (hsince : (s.peer d).healthySince = some h)
    (htaken : (s.peer d).takenRows ≠ []) : exec (.failoverRelease d) s = .next (
      if (s.atElapsed (h + 60 * second)).stl.batch.isSome || (s.atElapsed (h + 60 * second)).stl.update.isSome then
        (s.atElapsed (h + 60 * second)).countReject 2 0x04
      else if (releaseStaged (s.atElapsed (h + 60 * second)) (s.peer d)).stl.batch.isNone then
        releaseStaged (s.atElapsed (h + 60 * second)) (s.peer d)
      else rowsReleased (releaseStaged (s.atElapsed (h + 60 * second)) (s.peer d)) d (s.peer d)) := by
  change execFailoverRelease d s = _
  rw [execFailoverRelease, hsince]
  dsimp only
  rw [if_neg (by simp [hrun, htaken])]
  rfl

theorem internalBatch_new {s : State} {es : List Entry} {new : Cfg} {at_ : Nat} {overlay : Option (List OverlayItem)} (adoption failover : Bool)
    (hpass : internalChecks s es new at_ overlay = none) :
    ∃ b, (internalBatch s es new at_ adoption failover overlay).stl.batch = some b ∧ b.new = new := by
  simp only [internalBatch, hpass]
  exact ⟨_, rfl, rfl⟩

theorem rowsReleased_peer (s : State) (d : Nat) (p : Peer) : ((rowsReleased s d p).peer d).takenRows = [] := by
  rw [rowsReleased, State.lnkRecord_peer, State.modPeer_get, if_pos rfl]

theorem rowsReleased_journal (s : State) (d : Nat) (p : Peer) :
    ∃ x, (rowsReleased s d p).journal.waiting = s.journal.waiting ++ [x] ∧ x.type = 0x0805 := by
  rw [rowsReleased, State.lnkRecord, State.emit_journal_plain _ _ (.inl rfl)]
  exact ⟨_, rfl, rfl⟩

theorem rowsReleased_stl (s : State) (d : Nat) (p : Peer) : (rowsReleased s d p).stl = s.stl := rfl
theorem rowsReleased_time (s : State) (d : Nat) (p : Peer) : (rowsReleased s d p).time = s.time := rfl

section
variable (s : State) (p : Peer)

theorem releaseStaged_journal : (releaseStaged s p).journal = s.journal := internalBatch_journal _ _ _ _ _ _ _
theorem releaseStaged_lnk : (releaseStaged s p).lnk = s.lnk := internalBatch_lnk _ _ _ _ _ _ _
theorem releaseStaged_time : (releaseStaged s p).time = s.time :=
  keeps_time (internalBatch_erase s (releaseEntries p) (releaseCfg s.cfg p) _ false false none (Nat.and_self _)) rfl

end

/-! ## Time and the link -/

theorem State.not_inReset_of_sanorTakes {s : State} (h : s.sanorTakes = true) : s.phase ≠ .inReset := by
  simp only [State.sanorTakes, State.mayBegin, Bool.and_eq_true] at h
  obtain ⟨⟨⟨hrun, _⟩, _⟩, _⟩ := h
  exact State.not_inReset_of_running hrun

theorem SameLink.of_erase {s t : State} (h : t.erase 0x200000400 = s.erase 0x200000400) : SameLink s t :=
  ⟨keeps_nets h rfl, keeps_pins h rfl, keeps_cfg h rfl, keeps_fuses h rfl⟩

/-- The state a heartbeat carries does not speak of the time. -/
theorem State.linkState_of_erase {s t : State} (h : t.erase 0x400 = s.erase 0x400) : t.linkState = s.linkState := by
  simp only [State.linkState, keeps_phase h rfl, keeps_lnk h rfl, keeps_flt h rfl, State.region_of_erase h rfl]

theorem State.atElapsed_peer (s : State) (n d : Nat) : (s.atElapsed n).peer d = s.peer d := by
  rw [State.peer, keeps_lnk (s.atElapsed_erase n (Nat.and_self _)) rfl]
  rfl

/-- The acknowledgement that is due leaves with the frame of the state it became due in. -/
theorem ackDue_frames {s : State} {d n : Nat} (hup : s.portUp (s.sanorPort d) = true) (m : Msg) :
    ((sendSanor (ackSettled (s.atElapsed n) d) d m).netPort (s.sanorPort d)).frames = (s.netPort (s.sanorPort d)).frames
      ++ [ethFrame (s.peer d).mac (s.portMac (s.sanorPort d)) 0x88B5 (sanorMessage s d (s.peer d).received m)] := by
  have hsame : SameLink s (ackSettled (s.atElapsed n) d) :=
    .of_erase ((State.modPeer_erase _ _ _ rfl).trans (s.atElapsed_erase n rfl))
  have hpeer : (ackSettled (s.atElapsed n) d).peer d = { s.peer d with ackDue := none } := by rw [ackSettled_peer, State.atElapsed_peer]
  have hport : (ackSettled (s.atElapsed n) d).sanorPort d = s.sanorPort d := hsame.sanorPort (by rw [hpeer])
  have hframes := sendSanor_frames (ackSettled (s.atElapsed n) d) d m (by rw [hport, hsame.portUp]; exact hup)
  rwa [hport, hsame.netPort, hsame.portMac, hsame.sanorMessage, hpeer] at hframes

/-- The first eleven records leave a destination's list. -/
theorem exportTaken_exports (s : State) (e : Nat) : Table.get [] e (exportTaken s e).lnk.exports = (Table.get [] e s.lnk.exports).drop 11 :=
  Table.get_set_self _ _ _ _

/-! ## The settlement -/

/-- Settles O49: each command has its rule above; what a message carries is read off the state before it. -/
theorem linksPeersAndDelivery : Obligations.LinksPeersAndDelivery := by
  unfold Obligations.LinksPeersAndDelivery
  refine ⟨fun s n mode hans hn hidle => ⟨fun hmode href hdown => ?linkGained, fun hwas => ?linkLost⟩, fun s n hrun hon hup => ?heartbeat,
    fun s n h p hrun hn hon hup hpeer hdevice hother => ?heard, fun s n h p hrun hn hon hup hpeer hdevice hsame hid => ?conflict,
    fun s d hrun hpeer hjoined => ?lost, ?release, ?releaseFails,
    fun s d h hrun hsince htaken hbusy => ?releasePending, fun s d ack hrun hon hjoined => ?ack, fun s d h htakes hdue => ?ackDue,
    fun s d q m htakes hfind => ⟨fun hfew => ?again, fun hmany => ?givenUp⟩,
    fun s e port p hrun hpeer hwaits hport => ⟨fun hup hsome hlow => ?exported, fun hdown => ?exportDropped⟩⟩
  case linkGained =>
    have hlinked : (true && true && (mode == 1 || mode == 2) && !s.pins.refLostEth) = true := by simpa [href] using hmode
    have hjournal := linkChange_journal s n (up := true) mode (by simpa using hdown)
    refine ⟨_, linkRecord s n, exec_netLinkChange true true hans hn hidle, ?_, ?_, ?_, rfl⟩
    · rw [hlinked, linkChange_netPort, if_pos rfl]
      rfl
    · rw [hlinked, linkChange_netPort, if_pos rfl]
      rfl
    · rw [hlinked, hjournal]
  case linkLost =>
    have hjournal := linkChange_journal s n (up := false) mode (by simp [hwas])
    refine ⟨_, linkRecord s n, exec_netLinkChange false false hans hn hidle, ?_, ?_, ?_, rfl⟩
    · simp only [Bool.false_and, linkChange_netPort, if_true, Bool.false_eq_true, if_false]
    · simp [linkChange_netPort, hwas]
    · simp only [Bool.false_and, hjournal]
  case heartbeat =>
    obtain ⟨p, hpeer⟩ : ∃ p, s.cfg.peer = some p := by
      refine Option.ne_none_iff_exists'.mp fun hnone => ?_
      simp [State.sanorOn, hnone] at hon
    have hexec := exec_heartbeatSend (n := n) hrun hon hpeer
    have herase : (s.atMultiple (p.interval * 1000000)).erase 0x400 = s.erase 0x400 := s.atMultiple_erase _ rfl
    generalize s.atMultiple (p.interval * 1000000) = u at hexec herase
    have hsame : SameLink s u := ⟨keeps_nets herase rfl, keeps_pins herase rfl, keeps_cfg herase rfl, keeps_fuses herase rfl⟩
    have hsends : u.portUp n = true := by rwa [hsame.portUp]
    have hport := heartbeatSent_netPort (p := p) hsends
    rw [hsame.netPort] at hport
    refine ⟨_, heartbeatOf u p n, hexec hsends, by rw [hport], by rw [hpeer]; rfl, congrArg (·.deviceId) hsame.fuses,
      State.linkState_of_erase herase, congrArg (·.epoch.toNat) (keeps_stl herase rfl), ?_, by rw [hport], ?_⟩
    · rw [heartbeatSent_lnk hsends, keeps_lnk herase rfl]
    · rw [hport, heartbeatSent_frame]
  case heard =>
    obtain ⟨us, rows, hheard, hzero⟩ := peerHeard_peer s n h
    refine ⟨_, (exec_sanorHeartbeat hrun hn hon hup hpeer hdevice).trans (congrArg _ (if_neg hother)), ?_, ?_, ?_, ?_, exists_joinRecord,
      fun hill => ?_, fun hack => ?_⟩
    · rw [hheard]
      rfl
    · rw [hheard]
      rfl
    · rw [hheard]
      rfl
    · rw [hheard]
      rfl
    · rw [hheard]
      exact if_neg (by omega)
    · rw [hheard]
      exact hzero hack
  case conflict =>
    refine ⟨_, (exec_sanorHeartbeat hrun hn hon hup hpeer hdevice).trans (congrArg _ ((if_pos hsame).trans (if_neg (Ne.symm hid)))),
      numberConflict_isolated s n h, numberConflict_peers s n h⟩
  case lost =>
    obtain ⟨c, hc⟩ := Option.ne_none_iff_exists'.mp hpeer
    have hexec := exec_peerLost hrun hc hjoined
    generalize (s.peer d).lastHeard + c.miss * (if (s.peer d).interval = 0 then c.interval else (s.peer d).interval) * 1000000 = at_ at hexec
    have herase : (s.atElapsed at_).erase 0x400 = s.erase 0x400 := s.atElapsed_erase at_ rfl
    obtain ⟨rows, hgone⟩ := losePeer_peer (s.atElapsed at_) d
    obtain ⟨x, hx, htype⟩ := exists_lossRecord (s.atElapsed at_) d
    rw [peerGone_peer] at hgone
    refine ⟨_, x, hexec, by rw [hgone], by rw [hgone], hx, htype, fun h hh _ => ?_, fun a ha => ?_⟩
    · have hhandle : h.handle ∈ (losePeer (s.atElapsed at_) d).ledger.handovers.map (·.handle) := by
        rw [losePeer_handles, keeps_ledger herase rfl]
        exact List.mem_map_of_mem hh
      obtain ⟨g, hg, heq⟩ := List.mem_map.mp hhandle
      exact ⟨g, hg, heq⟩
    · rw [losePeer_byte _ d (by rwa [keeps_lnk herase rfl]), State.byte_of_erase herase rfl]
  case release =>
    rintro s u es c d h hrun hsince htaken hbatch hupdate rfl rfl rfl hpass
    have hfree : ¬(((s.atElapsed (h + 60 * second)).stl.batch.isSome || (s.atElapsed (h + 60 * second)).stl.update.isSome) = true) := by
      simp [hbatch, hupdate]
    have hcfg : releaseCfg (s.atElapsed (h + 60 * second)).cfg (s.peer d) = releaseCfg s.cfg (s.peer d) := by rw [State.atElapsed_cfg]
    obtain ⟨b, hb, hnew⟩ := internalBatch_new false false hpass
    have hstaged : (releaseStaged (s.atElapsed (h + 60 * second)) (s.peer d)).stl.batch = some b := by
      rw [releaseStaged, hcfg]
      exact hb
    obtain ⟨x, hx, htype⟩ := rowsReleased_journal (releaseStaged (s.atElapsed (h + 60 * second)) (s.peer d)) d (s.peer d)
    refine ⟨_, b, x, (exec_failoverRelease hrun hsince htaken).trans (congrArg _ ((if_neg hfree).trans (if_neg (by simp [hstaged])))), ?_,
      rowsReleased_peer _ _ _, ?_, ?_, htype, ?_⟩
    · rw [rowsReleased_stl, hstaged]
    · rw [hnew]
      exact not_mem_takenRows_of_releaseCfg (c := s.cfg)
    · rw [hx, releaseStaged_journal, State.atElapsed_journal]
    · rw [rowsReleased_time, releaseStaged_time, State.atElapsed_elapsed (State.not_inReset_of_running hrun)]
  case releaseFails =>
    rintro s u es c d h hrun hsince htaken hbatch hupdate rfl rfl rfl hfail
    have hfree : ¬(((s.atElapsed (h + 60 * second)).stl.batch.isSome || (s.atElapsed (h + 60 * second)).stl.update.isSome) = true) := by
      simp [hbatch, hupdate]
    have hcfg : releaseCfg (s.atElapsed (h + 60 * second)).cfg (s.peer d) = releaseCfg s.cfg (s.peer d) := by rw [State.atElapsed_cfg]
    have hstaged : (releaseStaged (s.atElapsed (h + 60 * second)) (s.peer d)).stl.batch = none := by
      rw [releaseStaged, hcfg, ← hbatch, ← State.atElapsed_stl (s := s) (n := h + 60 * second)]
      exact internalBatch_of_fail false false hfail
    refine ⟨_, (exec_failoverRelease hrun hsince htaken).trans (congrArg _ ((if_neg hfree).trans (if_pos (by simp [hstaged])))), hstaged, ?_, ?_⟩
    · rw [State.peer, releaseStaged_lnk]
      exact congrArg Peer.takenRows (s.atElapsed_peer _ d)
    · rw [releaseStaged_journal, State.atElapsed_journal]
  case releasePending =>
    have hstl := State.atElapsed_stl s (h + 60 * second)
    have hlnk : (s.atElapsed (h + 60 * second)).lnk = s.lnk := keeps_lnk (s.atElapsed_erase _ (Nat.and_self _)) rfl
    have hheld : ((s.atElapsed (h + 60 * second)).stl.batch.isSome || (s.atElapsed (h + 60 * second)).stl.update.isSome) = true := by
      simpa [Option.isSome_iff_ne_none] using hbusy
    refine ⟨_, (exec_failoverRelease hrun hsince htaken).trans (congrArg _ (if_pos hheld)), ?_, ?_, ?_⟩
    · rw [← hstl]
      rfl
    · exact congrArg (fun t : Stl => t.stateRejects + 1) hstl
    · exact hlnk
  case ack =>
    refine ⟨_, exec_sanorAck ack hrun hon hjoined, ?_⟩
    rw [takeAck, State.modPeer_get, if_pos rfl]
  case ackDue =>
    have hlnk : (s.atElapsed h).lnk = s.lnk := keeps_lnk (s.atElapsed_erase h (Nat.and_self _)) rfl
    refine ⟨_, exec_sanorAckDue htakes hdue, ?_, ?_, ?_, fun hup => ackDue_frames hup _⟩
    · rw [sendSanor_peer, ackSettled_peer]
    · rw [sendSanor_lnk]
      exact congrArg (·.sent + 1) hlnk
    · rw [sendSanor_time]
      exact State.atElapsed_elapsed (State.not_inReset_of_sanorTakes htakes) h
  case again =>
    have hpeer : (againSent (s.atElapsed (m.sent + 2000000)) d q m).peer d = { s.peer d with unacked := (s.peer d).unacked.map fun x =>
        if x.seq = q then { m with tries := m.tries + 1, sent := (s.atElapsed (m.sent + 2000000)).time.elapsed } else x } := by
      rw [againSent_peer, State.atElapsed_peer]
    refine ⟨_, exec_sanorRetransmit_again htakes hfind hfew, ?_, ?_, ?_⟩
    · rw [sendSanor_lnk]
      exact congrArg (·.retrans + 1) (keeps_lnk (s.atElapsed_erase _ (Nat.and_self _)) rfl)
    · rw [sendSanor_peer, sendSanor_time, hpeer]
      exact List.mem_map.mpr ⟨m, List.mem_of_find?_eq_some hfind, if_pos (by simpa using List.find?_some hfind)⟩
    · rw [sendSanor_time]
      exact State.atElapsed_elapsed (State.not_inReset_of_sanorTakes htakes) _
  case givenUp =>
    have hlnk : (if m.type = msgHandover then expireHandover (givenUp (s.atElapsed (m.sent + 2000000)) d q) m.handle
        else givenUp (s.atElapsed (m.sent + 2000000)) d q).lnk = (givenUp (s.atElapsed (m.sent + 2000000)) d q).lnk := by
      split
      · exact expireHandover_lnk _ _
      · rfl
    refine ⟨_, exec_sanorRetransmit_givenUp htakes hfind hmany, ?_, ?_⟩
    · rw [State.peer, hlnk]
      exact givenUp_unacked _ d q
    · rw [hlnk]
      exact congrArg (·.retrans) (keeps_lnk (s.atElapsed_erase _ (Nat.and_self _)) rfl)
  case exported =>
    subst hport
    have hgood : exportRecords s e ≠ [] := by
      obtain ⟨r, hr, hgood⟩ := List.any_eq_true.mp hsome
      exact List.ne_nil_of_mem (List.mem_filter.mpr ⟨hr, hgood⟩)
    have hport : (exportTaken s e).netPort (p.dests.getD e {}).port = s.netPort (p.dests.getD e {}).port := by
      rw [State.netPort, keeps_nets (exportTaken_erase s e) rfl]
      rfl
    refine ⟨_, exec_exportDatagramSend_of_up hrun hpeer hwaits hup hlow hgood, exportTaken_exports s e, ?_, ?_⟩
    · rw [framed_netPort, hport]
    · rw [framed_netPort, hport]
      rfl
  case exportDropped =>
    subst hport
    refine ⟨_, exec_exportDatagramSend_of_down hrun hpeer hwaits hdown, exportTaken_exports s e,
      keeps_nets (exportTaken_erase s e) rfl, ?_⟩
    exact congrArg (·.exportDropped + (exportRecords s e).length) (keeps_lnk (exportMoment_erase s e (Nat.and_self _)) rfl)

end Sys2Proof.Machine
